-- ==== Sys2Proof/Word.lean ====
section
/-! DEFINITION. The words of the BM-P64: registers are 32 bits (R4), pairs 64, lines 64 bytes (R12), all little-endian (R3). -/

namespace Sys2Proof

/-- One byte of any memory. -/
abbrev Byte := BitVec 8

/-- One register, header word or table word (R4). -/
abbrev Word := BitVec 32

/-- A register pair or a 64-bit value (R4). -/
abbrev DWord := BitVec 64

/-- A 64-byte line; byte 0 is bits 7..0 (R3, R15). -/
abbrev Line := BitVec 512

/-- The bit field [hi:lo] of a value, as a number. -/
abbrev fld {w : Nat} (v : BitVec w) (hi lo : Nat) : Nat := (v.toNat >>> lo) % 2 ^ (hi + 1 - lo)

/-- Bit i of a value. -/
abbrev bitOf {w : Nat} (v : BitVec w) (i : Nat) : Bool := v.getLsbD i

end Sys2Proof
end

