-- ==== Sys2Proof/Machine/Types.lean ====
section
/-! DEFINITION. The plain data that commands and the state share: who asks, what a packet, a message or a stored value holds. -/

namespace Sys2Proof.Machine

/-- A control-bus requester (R427): the two fabric-manager logical devices, the 32 logical devices that serve partitions, the
UDP transfer service, MCTP on I3C, the TAP and the Ranger. -/
inductive Requester where
  | fm (h : Fin 2)
  | ld (p : Fin 32)
  | udp
  | mctp
  | tap
  | ranger
  deriving DecidableEq, Repr

/-- A number for each requester; each has its own pair latch and held low words (R5, R6). -/
def Requester.key : Requester → Nat
  | .fm h => h.val
  | .ld p => 2 + p.val
  | .udp => 34
  | .mctp => 35
  | .tap => 36
  | .ranger => 37

/-- How a transfer message reached the Ranger (R432). -/
inductive Transport where
  | udp
  | mctp
  | doe (h : Fin 2)
  deriving DecidableEq, Repr

/-- Which mailbox a CXL command came to (R425): a partition's logical device, a port's FM-owned one, or the FM API over MCTP. -/
inductive Mailbox where
  | ld (p : Fin 32)
  | fm (h : Fin 2)
  | mctp
  deriving DecidableEq, Repr

/-- Who makes an access that reaches a home agent (R12): a host's logical device, a peer node, or a unit of this node that
works for a command of a partition. -/
inductive Source where
  | host (p : Nat) (tag : Nat)
  | fmHost (h : Nat) (tag : Nat)
  | peer (node cls seq : Nat)
  | unit (p chute seq : Nat)
  | device
  deriving DecidableEq, Repr

/-- The kinds of unit a partition reserves (R26). -/
inductive UnitKind where
  | me | gc | win | row
  deriving DecidableEq, Repr

/-- A range of bytes: first address and length. -/
structure Range where
  base : Nat
  size : Nat
  deriving DecidableEq, Repr

/-- Does the range hold the address? -/
def Range.has (r : Range) (a : Nat) : Bool := decide (r.base ≤ a) && decide (a < r.base + r.size)

/-- Do two ranges share a byte? -/
def Range.meets (r q : Range) : Bool :=
  decide (r.base < q.base + q.size) && decide (q.base < r.base + r.size)

/-- Does the range hold all of another? -/
def Range.covers (r q : Range) : Bool := decide (r.base ≤ q.base) && decide (q.base + q.size ≤ r.base + r.size)

/-- A Cofeben packet: the fields of its transport header (R236) and the 32-bit words after it (R237, R246). -/
structure Packet where
  dst : Nat
  src : Nat
  tc : Nat
  vc : Nat
  rail : Nat
  retried : Bool
  sc : Bool
  combined : Bool
  srcInc : Nat
  proto : Nat
  len : Nat
  tkind : Nat
  lineOff : Nat
  seq : Nat
  dstCell : Nat
  srcCell : Nat
  ncons : Nat
  hops : Nat
  srcPart : Nat
  msgId : Nat
  body : List Nat
  deriving DecidableEq, Repr

/-- Who waits for the response to a fabric request (R249): a command of a partition, a general core, the home agent for an
invalidation of a line, a forwarded write of a mirror, a
request the mirror relays to its primary (R156), a forwarded arena record (R284), a synchronisation exchange, a message exchange, or nobody. -/
inductive Waiter where
  | cmd (p chute seq : Nat)
  | core (g : Nat)
  | inval (line node : Nat)
  | mirror (id : Nat)
  | relay (id : Nat)
  | fwd (id : Nat)
  | sync (p : Nat)
  | msg (p chute seq : Nat)
  | nobody
  deriving DecidableEq, Repr

/-- A fabric request as its source makes it (R226, R249): class, destination node and, in another cell, its cell, the fabric
address it carries (0 for none), the partition it counts for, who waits, and the message words. -/
structure FabReq where
  tc : Nat
  dst : Nat
  dstCell : Option Nat
  addr : Nat
  part : Option Nat
  msgId : Nat
  proto : Nat
  len : Nat
  lineOff : Nat
  waiter : Waiter
  body : List Nat
  wid : Nat := 0
  deriving DecidableEq, Repr

/-- Who waits on a semaphore (R327): a SEM_WAIT command, an ME SEM_WAIT step, or a core in gc.semwait. -/
inductive SemWaiter where
  | cmd (p chute seq : Nat)
  | me (e : Nat)
  | core (g : Nat)
  deriving DecidableEq, Repr

/-- What a request does at the home agent (R206, R210): the columns of R211's table. -/
inductive HomeKind where
  | rd | rdsP | rdsH | ownH | wr | wbH | clnH
  deriving DecidableEq, Repr

/-- A request at the home agent: its kind, who made it, the line; for a store the bytes it writes, or the atomic operation with its
operand, compare value and byte offset; its composition; the state a host keeps after a MemWr (MetaValue 0 I, 1 S, 2 A); whether
data is wanted (not for MemInv); a peer's packet; the number of a unit's write; and whether its response is discarded, its host being lost (R217). -/
structure HomeReq where
  kind : HomeKind
  src : Source
  line : Nat
  mask : Nat
  data : Nat
  poison : Bool
  atom : Option (Nat × Nat × Nat × Nat)
  comp : Nat
  keep : Nat
  wantData : Bool
  packet : Option Packet
  wid : Nat := 0
  mute : Bool := false
  deriving DecidableEq, Repr

/-- A store by a unit or by the device itself. -/
def HomeReq.store (src : Source) (line mask data : Nat) (poison : Bool) : HomeReq :=
  { kind := .wr, src := src, line := line, mask := mask, data := data, poison := poison, atom := none, comp := 0xFFFF, keep := 0,
    wantData := false, packet := none }

/-- An upset of a line of a core's L1D (R105, R121): which of its lines, in the order in which the core holds them, and whether more bits are
wrong than the code corrects. -/
structure Upset where
  line : Fin 1024
  many : Bool
  deriving DecidableEq, Repr

/-- A product of an engine's array that comes out wrong (R92): row i of A, row j of B, element k, and by how much: in units of the block sum's least
significant bit (R85), for BF16 in units of the product of the two significands. -/
structure BadProduct where
  i : Fin 128
  j : Fin 128
  k : Fin 2048
  off : Int
  deriving DecidableEq, Repr

/-- What goes wrong in one attempt at a step (R92): wrong products; where duplicated logic differs or an operand-buffer word cannot be corrected, the
block, index and axis that ME_CHK_LAST then shows, which the spec leaves to the device; and how many operand-buffer words show an error of one bit, which is
corrected (R351, R366). -/
structure Attempt where
  wrong : List BadProduct
  dual : Option (BitVec 15)
  fixed : Nat
  deriving DecidableEq, Repr

/-- An attempt in which nothing goes wrong. -/
def Attempt.clean : Attempt := ⟨[], none, 0⟩

/-- What a lane of a Tally group has counted (R454, R455): the lane, the bits it compared and those that mismatched. -/
structure LaneCount where
  lane : Fin 2048
  bits : BitVec 64
  errs : BitVec 32
  deriving DecidableEq, Repr

/-- What the image's configuration records say of a Cofeben port (R400). -/
structure PortConfig where
  enable : Bool
  gateway : Bool
  encrypt : Bool
  deriving DecidableEq, Repr

/-- The configuration records of an image, its stage 3 (R400), as the Ranger reads them: the spec gives their content and not their layout, so that a
boot brings them as an operand (DESIGN CHOICE, log entry 26). Node and cell IDs and sizes (R223), SW_CUT (R225), the T1 windows (R125), Loft
overprovisioning and endurance (R148, R161), subsystem IDs (R419), collector addresses (R368), the twelve ports, the addresses of the management ports (R434), and the I3C
static address (R435). -/
structure BootConfig where
  node : Nat
  cell : Nat
  sizeX : Nat
  sizeY : Nat
  sizeZ : Nat
  cut : Nat
  w6 : Nat
  w3 : Nat
  w1 : Nat
  loftOp : Nat
  endurance : Nat
  subsystem : Nat
  collectors : List Nat
  ports : List PortConfig
  addrs : List Nat
  i3cStatic : Nat
  deriving DecidableEq, Repr

/-- No configuration read: the defaults of R125, R148 and SW_CUT. -/
def BootConfig.none : BootConfig :=
  { node := 0, cell := 0, sizeX := 1, sizeY := 1, sizeZ := 1, cut := 0x7FFF7FFF, w6 := 60, w3 := 6, w1 := 6, loftOp := 4, endurance := 0, subsystem := 0,
    collectors := [], ports := [], addrs := [], i3cStatic := 0 }

/-- Do the records keep the ranges that R125, R148 and R223 give? -/
def BootConfig.ok (c : BootConfig) : Bool :=
  decide (c.node < 4096) && decide (c.cell < 1024) && decide (1 ≤ c.sizeX ∧ c.sizeX ≤ 16) && decide (1 ≤ c.sizeY ∧ c.sizeY ≤ 16)
    && decide (1 ≤ c.sizeZ ∧ c.sizeZ ≤ 16) && decide (c.node % 16 < c.sizeX) && decide (c.node / 16 % 16 < c.sizeY) && decide (c.node / 256 < c.sizeZ)
    && decide (c.w6 + c.w3 + c.w1 = 72) && decide (3 ≤ c.w6) && decide (2 ≤ c.loftOp ∧ c.loftOp ≤ 8) && decide (c.ports.length ≤ 12)

/-- How the training of a Cofeben port ends (R253, R411): the neighbour that answered, its port, and what link authentication found: 0 it passes,
1 a wrong certificate, 2 a wrong signature or KEM exchange. -/
structure Trained where
  node : Fin 4096
  port : Fin 12
  fail : Fin 3
  secret : BitVec 256
  deriving DecidableEq, Repr

/-- The NAND fitted on a Loft channel, as its parameter pages tell (R162): erase blocks per LUN, planes, chip enables, LUNs per chip enable, whether pages
are 32 KiB; and the superblocks whose erase block is marked bad (R148). -/
structure FittedNand where
  eblocks : Fin 65536
  planes : Fin 5
  ces : Fin 5
  luns : Fin 9
  page32 : Bool
  bad : List Nat
  deriving DecidableEq, Repr

/-- What a boot finds that the image does not say (R396): whether the HSS signature of each slot's image checks (log entry 27), whether steps 5 to 10 end in
time, the ports of the image that train, the NAND found on each Loft channel, the usable bytes of the smallest data channel (R148), the Loft channels that
fail training, and rows of each stack repaired. -/
structure BootRun where
  nand : List (Fin 18 × FittedNand)
  signed : List Bool
  completes : Bool
  trained : List (Fin 12 × Trained)
  raw : Nat
  dead : List (Fin 18)
  repairs : List (Fin 6 × BitVec 16)
  deriving DecidableEq, Repr

/-- The IDE_KM messages of CXL 3.1 that reach a port (R412, R426): a query, a key programmed, the port's stream switched to the keys programmed, and
stopped. -/
inductive IdeMsg where
  | query
  | keyProg (key : BitVec 256)
  | setGo
  | setStop
  deriving DecidableEq, Repr

end Sys2Proof.Machine
end

