-- ==== Sys2Proof/Syntax.lean ====
section
/-! DEFINITION. The commands of the part, one constructor for each row of the opcode table, in the table's order. The part is
a block: a command is an access to one of its registers, a packet, a message or a request that reaches it, a step one of its own
units takes, or an event on a pin or a timer. Operands say which unit it concerns and carry what the outside world supplies. -/

namespace Sys2Proof

open Sys2Proof.Machine

/-- The commands. -/
inductive Instr where
  /-- REGISTER_PAIR_LOW_READ (R5): A read of the low word of a register pair returns it and latches the high word for that requester. -/
  | registerPairLowRead (rq : Requester) (a : Word)
  /-- REGISTER_PAIR_LOW_WRITE (R6): A write of the low word of a pair is held for that requester until its high word arrives, replacing any earlier held low word. -/
  | registerPairLowWrite (rq : Requester) (a : Word) (v : Word) (be : BitVec 4)
  /-- REGISTER_PAIR_HIGH_WRITE (R6): A write of the high word of a pair applies the whole 64-bit value, using the held low word or the current one, and performs any action the pair has. -/
  | registerPairHighWrite (rq : Requester) (a : Word) (v : Word) (be : BitVec 4)
  /-- REGISTER_WRITE (R7): A control-bus write to a register with no row of its own sets RW fields, clears W1C bits or sets W1S bits, updating shadow state if the block sleeps. -/
  | registerWrite (rq : Requester) (a : Word) (v : Word) (be : BitVec 4)
  /-- VIOL_CLEAR (R67): Writing clear in RNG_VIOL_CLEAR zeroes every RNG_VIOL_ register. -/
  | violClear (rq : Requester) (v : Word)
  /-- ADMIT (R26): Writing admit in RNG_ADM_CTRL checks the staged reservation in order and either reserves everything, making the partition ACTIVE, or reports the first failing code. -/
  | admitPartition (rq : Requester) (v : Word)
  /-- RELEASE (R31): Writing release in RNG_ADM_CTRL refuses with EXTENTS_PRESENT or NOT_ADMITTED, records the release during a reset, or moves the partition to RELEASING and stops its work as partition reset does. -/
  | releasePartition (rq : Requester) (v : Word)
  /-- PARTITION_DRAINED (R30): When every command of a RESETTING or RELEASING partition has stopped and its requests completed, it moves to ACTIVE, RELEASING or FREE, scrubbing and returning resources on the way to FREE. -/
  | partitionDrained (p : Fin 32)
  /-- PARTITION_RESET (R64): Writing pop of PART_RESET discards queued and untransferred work, stops running commands at their boundary, disables chutes, applies held stores and enters RESETTING. -/
  | partitionReset (rq : Requester) (p : Fin 32) (v : Word)
  /-- CHUTE_ENABLE (R33): Setting enable of a chute checks index, size, alignment, extents and overlap in order and starts zeroing the ring or reports err. -/
  | chuteEnable (rq : Requester) (p : Fin 32) (n : Fin 64) (v : Word)
  /-- CHUTE_REGISTER_DONE (R33): When zeroing of a registered ring ends, next position and sequence are zero and ready is set; ring 64 is the completion chute, 65 the mailbox, 66 the escalation table and arena. -/
  | chuteRegisterDone (p : Fin 32) (n : Fin 67)
  /-- CHUTE_DISABLE (R43): Clearing enable of a chute begins disabling: committed packets are transferred first (the release of an extent disables in EXTENT_RELEASE_POINT). -/
  | chuteDisable (rq : Requester) (p : Fin 32) (n : Fin 64) (v : Word)
  /-- CHUTE_DISABLE_DONE (R43): When a disabling chute's committed packets are gone, held stores are applied, ready clears and any pending re-registration begins. -/
  | chuteDisableDone (p : Fin 32) (n : Fin 67)
  /-- CPL_ENABLE (R55): Setting enable of the completion chute registers and zeroes it under the checks of R33, with TAIL and HEAD zero. -/
  | cplEnable (rq : Requester) (p : Fin 32) (v : Word)
  /-- CPL_HEAD_WRITE (R56): A write to PART_CPL_HEAD advances HEAD modulo the ring size only if it does not pass TAIL, otherwise it is a violation. -/
  | cplHeadWrite (rq : Requester) (p : Fin 32) (v : Word)
  /-- MBOX_HEAD_WRITE (R56): A write to PART_MBOX_HEAD advances the mailbox HEAD only if it does not pass TAIL, otherwise it is a violation. -/
  | mboxHeadWrite (rq : Requester) (p : Fin 32) (v : Word)
  /-- CHUTE_STORE (R35): A store of the masked bytes of a line that lands at its home agent; a line of a ring arms or evaluates its packet, or the store is held. The line is the fabric offset divided by 64. -/
  | chuteStore (src : Source) (line : BitVec 34) (mask : BitVec 64) (data : Line) (poison : Bool)
  /-- HOLD_LIMIT_EXPIRE (R41): The i-th store held on a ring has been held longer than PART_HOLD_LIMIT. -/
  | holdLimitExpire (p : Fin 32) (n : Fin 66) (i : Nat)
  /-- PACKET_TRANSFER (R39): When the target queue has room the hub transfers the next committed packet of a chute, zeroes its commit tag and releases its lines. -/
  | packetTransfer (p : Fin 32) (n : Fin 64)
  /-- FIFO_PACKET_RECEIVE (R42): The last beat of a packet of len + 1 lines arrives at the internal FIFO receiver of tile k, which takes it or discards it and has the sender resend. -/
  | fifoPacketReceive (k : Fin 10) (w0 : Word) (seq : Word) (len : Fin 64) (tag : Word)
  /-- COMMAND_START (R47): A queued command whose addresses are translated and whose fence is satisfied starts on its named unit or the lowest idle reserved unit, or completes without effect if no usable unit exists. -/
  | commandStart (p : Fin 32) (chute : Fin 64) (seq : Word) (ue : Fin 3 := 0)
  /-- DEADLINE_EXPIRE (R48): A command still waiting in its queue, or held at a fault, when the local counter passes its deadline completes DEADLINE_MISSED without effect. -/
  | deadlineExpire (p : Fin 32) (chute : Fin 64) (seq : Word)
  /-- COMPLETION_RECORD_WRITE (R53): Once all of a finished command's writes are acknowledged and the completion chute is ready with room, its 32-byte record is written at TAIL with release semantics, else it waits in the completion buffer. -/
  | completionRecordWrite (p : Fin 32) (ue : Bool := false)
  /-- ABORT (R59): A committed ABORT packet takes hold against its target, giving ALREADY_DONE, ABORTED at once, ABORTED at the next boundary, or result 0. -/
  | abortCommand (p : Fin 32) (chute : Fin 64) (seq : Word)
  /-- RESUME (R175): A committed RESUME packet checks va_check and walks the faulting translation again from the root, replaying the access and any same-page faults with page_all. -/
  | resumeFault (p : Fin 32) (chute : Fin 64) (seq : Word)
  /-- FAULT_POP (R63): Writing pop of PART_FAULT_POP removes the oldest fault record, letting a pending fault enter the FIFO. -/
  | faultPop (rq : Requester) (p : Fin 32) (v : Word) (ue : Bool := false)
  /-- ME_PROGRAM (R68): An ME_PROGRAM command reads its descriptor list at queue time and runs its steps on one engine in order. -/
  | meProgram (p : Fin 32) (chute : Fin 64) (seq : Word)
  /-- LOAD_TILE (R71): A LOAD_TILE step copies an operand tile and scales into the operand buffer, loading an escalated arena copy when the escalation table hits. -/
  | loadTile (e : Fin 32)
  /-- MMA (R72): An MMA step multiplies two buffer tiles with exact block sums and a fixed reduction tree into an FP32 accumulator, checked by tile checksums; runs says what goes wrong in each attempt on the engine itself (nothing, where it is short). -/
  | mma (e : Fin 32) (runs : List Attempt)
  /-- HELPER_RERUN (R93): A helper engine, at its own step boundary, runs engine e's mismatching tile from e's buffer and returns the result, or mismatches too, as run says. -/
  | helperRerun (e : Fin 32) (run : Attempt)
  /-- QUANT (R73): A QUANT step converts an FP32 slot to an output format with chosen scales, rounding and the escalation check. -/
  | quant (e : Fin 32) (runs : List Attempt)
  /-- STORE_TILE (R74): A STORE_TILE step writes a slot and its scales to memory and writes or clears the escalation table entry and arena copy. -/
  | storeTile (e : Fin 32) (runs : List Attempt)
  /-- ME_SEM_WAIT (R75): An ME SEM_WAIT step waits until a semaphore is at least a value. -/
  | meSemWait (e : Fin 32) (err : Fin 3)
  /-- ME_SEM_SIGNAL (R75): An ME SEM_SIGNAL step adds to a semaphore after every earlier write of the program is acknowledged. -/
  | meSemSignal (e : Fin 32) (err : Fin 3)
  /-- ME_QUARANTINE (R101): Writing quarantine in ME_CTRL marks the engine for quarantine at its next step boundary. -/
  | meQuarantine (rq : Requester) (e : Fin 32) (v : Word)
  /-- QUARANTINE_AT_BOUNDARY (R101): A unit marked for quarantine reaches its next boundary, is quarantined and ends its running command with its quarantine status, setting quarantine causes. -/
  | quarantineAtBoundary (k : UnitKind) (i : Fin 64)
  /-- ME_UNQUARANTINE (R94): Writing unquarantine in ME_CTRL clears an unreserved engine's quarantine and removes it from the quarantine record. -/
  | meUnquarantine (rq : Requester) (e : Fin 32) (v : Word)
  /-- ESC_TABLE_ENABLE (R102): Setting enable of PART_ESC_TBL_CTRL registers and zeroes the escalation table and arena under the chute checks. -/
  | escTableEnable (rq : Requester) (p : Fin 32) (v : Word)
  /-- ESC_TABLE_CLEAR (R102): Writing clear of PART_ESC_TBL_CTRL zeroes every escalation entry once the partition's running steps finish. -/
  | escTableClear (rq : Requester) (p : Fin 32) (v : Word)
  /-- GC_RUN (R104): A GC_RUN invalidates L1I and optionally L1D and starts a core at entry in user mode with its argument registers set. -/
  | gcRun (p : Fin 32) (chute : Fin 64) (seq : Word)
  /-- GC_RUN_END (R105): A GC_RUN ends by ecall, trap, fault of a listed kind, quarantine or abort, releasing under R109 before its record. -/
  | gcRunEnd (g : Fin 64)
  /-- ECALL (R105): An ecall ends the run with a status taken from a2 when a7 is zero, else UNSUPPORTED_FORMAT. -/
  | ecall (g : Fin 64)
  /-- EBREAK (R105): An ebreak ends the run UNSUPPORTED_FORMAT with the pc and cause code. -/
  | ebreak (g : Fin 64)
  /-- ILLEGAL_INSTRUCTION (R105): An illegal or unlisted custom encoding ends the run UNSUPPORTED_FORMAT with the pc and cause code. -/
  | illegalInstruction (g : Fin 64)
  /-- GC_LOAD (R107): An ordinary load reads through the private, unsnooped L1D, translating its derived address at issue; ue: the L1D holds the line with an uncorrectable error. -/
  | gcLoad (g : Fin 64) (ue : Bool)
  /-- GC_STORE (R107): An ordinary store writes into the write-back L1D, allocating the line. -/
  | gcStore (g : Fin 64) (ue : Bool)
  /-- GC_INSTRUCTION_FETCH (R106): A core fetches an instruction through L1I, needing execute permission, and carries out at once an instruction that no row names; ue: the L1I holds the line with an error. upset: an error that has come into a line of the L1D. -/
  | gcInstructionFetch (g : Fin 64) (ue : Bool) (upset : Option Upset := none)
  /-- FENCE (R109): FENCE orders the core's own accesses as they leave the core without cleaning or invalidating the L1D. -/
  | fence (g : Fin 64)
  /-- FENCE_I (R109): FENCE.I invalidates the core's L1I. -/
  | fenceI (g : Fin 64)
  /-- AMOADD (R110): AMOADD bypasses L1D and adds at the line's home, locally or as a fabric add. -/
  | amoadd (g : Fin 64)
  /-- AMOMIN (R110): AMOMIN takes a signed minimum at the home, locally or as a fabric min. -/
  | amomin (g : Fin 64)
  /-- AMOMAX (R110): AMOMAX takes a signed maximum at the home, locally or as a fabric max. -/
  | amomax (g : Fin 64)
  /-- AMOMINU (R110): AMOMINU takes an unsigned minimum at the home, locally or as a fabric min. -/
  | amominu (g : Fin 64)
  /-- AMOMAXU (R110): AMOMAXU takes an unsigned maximum at the home, locally or as a fabric max. -/
  | amomaxu (g : Fin 64)
  /-- AMOSWAP (R110): AMOSWAP swaps at a local home and ends the run with an access fault for remote T1. -/
  | amoswap (g : Fin 64)
  /-- AMOAND (R110): AMOAND applies at a local home and ends the run with an access fault for remote T1. -/
  | amoand (g : Fin 64)
  /-- AMOOR (R110): AMOOR applies at a local home and ends the run with an access fault for remote T1. -/
  | amoor (g : Fin 64)
  /-- AMOXOR (R110): AMOXOR applies at a local home and ends the run with an access fault for remote T1. -/
  | amoxor (g : Fin 64)
  /-- LR (R110): LR reads at the home, which holds a reservation for a local line. -/
  | lr (g : Fin 64)
  /-- SC (R110): SC writes if the home still holds the reservation, and always fails for remote T1. -/
  | sc (g : Fin 64)
  /-- GC_BXW (R113): gc.bxw performs one bitonic compare-exchange stage across lanes of a key and index register pair. -/
  | gcBxw (g : Fin 64)
  /-- GC_BXC (R114): gc.bxc compares lanes of two register pairs and places the first-ordering element in the vd pair. -/
  | gcBxc (g : Fin 64)
  /-- GC_DQ (R115): gc.dq dequantizes 16 codes of a selected format into FP32 lanes. -/
  | gcDq (g : Fin 64)
  /-- GC_KMRG (R119): gc.kmrg merges up to 16 sorted streams from a merge context, emitting up to 16 elements with optional deduplication. -/
  | gcKmrg (g : Fin 64)
  /-- GC_SEMSIG (R116): gc.semsig releases the core's writes and adds to a semaphore. -/
  | gcSemsig (g : Fin 64) (err : Fin 3)
  /-- GC_SEMWAIT (R116): gc.semwait stalls the core until a semaphore is at least a threshold. -/
  | gcSemwait (g : Fin 64) (err : Fin 3)
  /-- GC_SEMRD (R116): gc.semrd reads a semaphore without waiting. -/
  | gcSemrd (g : Fin 64) (err : Fin 3)
  /-- GC_DCLN (R108): gc.dcln writes back dirty L1D lines in a range and retires when all are acknowledged. -/
  | gcDcln (g : Fin 64)
  /-- GC_DINV (R108): gc.dinv writes back and invalidates L1D lines in a range and retires when all are acknowledged. -/
  | gcDinv (g : Fin 64)
  /-- GC_CAS (R110): gc.cas performs a 32- or 64-bit compare-and-swap at the line's home, locally or across the fabric. -/
  | gcCas (g : Fin 64)
  /-- GC_AMOFADD (R239): gc.amofadd performs an FP32 add at the home when relaxed float atomics are enabled, else ends the run. -/
  | gcAmofadd (g : Fin 64)
  /-- GC_TAG (R117): gc.tag marks the next retired instruction as sampled with a label. -/
  | gcTag (g : Fin 64)
  /-- GC_QUARANTINE (R121): Writing quarantine in GC_CTRL marks the core for quarantine at its next instruction boundary. -/
  | gcQuarantine (rq : Requester) (g : Fin 64) (v : Word)
  /-- GC_UNQUARANTINE (R121): Writing unquarantine in GC_CTRL clears an unreserved core's quarantine. -/
  | gcUnquarantine (rq : Requester) (g : Fin 64) (v : Word)
  /-- T0_SCRUB (R124): Each hour a hub scrubs a T0 bank; a command is one 64-bit word read with none, one or two wrong bits, a corrected word written back. -/
  | t0Scrub (word : BitVec 26) (bits : Fin 3) (after : Fin 3 := 0)
  /-- T1_SCRUB (R130): Patrol scrub reads a stack line whose codeword has these wrong symbols, writing back a correction or poisoning it; last ends the pass. -/
  | t1Scrub (line : BitVec 34) (err : List (BitVec 16)) (last : Bool) (after : List (BitVec 16) := []) (dirErr : Fin 3 := 0)
  /-- MOVE_COPY (R134): A MOVE in COPY mode copies a tensor in 4 KiB segments, carrying poison and escalation entries. -/
  | moveCopy (p : Fin 32) (chute : Fin 64) (seq : Word)
  /-- MOVE_PLACE (R136): A MOVE in PLACE mode allocates T0 pages by the three rules, writes any page list and copies or zero-fills. -/
  | movePlace (p : Fin 32) (chute : Fin 64) (seq : Word)
  /-- MOVE_FREE (R137): A MOVE in FREE mode zeroes and returns T0 pages to no owner. -/
  | moveFree (p : Fin 32) (chute : Fin 64) (seq : Word)
  /-- MOVE_ZERO (R133): A MOVE in ZERO mode writes zeros to a destination, unmapping Loft blocks. -/
  | moveZero (p : Fin 32) (chute : Fin 64) (seq : Word)
  /-- MOVE_CHANNEL_TAKE (R140): A free MOVE channel takes a runnable MOVE or DIGEST command from the partitions in round robin. -/
  | moveChannelTake (k : Fin 8)
  /-- LOFT_WRITE_STAGE (R145): A Loft write takes a free write-staging block when one frees, and is complete once the map names it. -/
  | loftWriteStage
  /-- LOFT_STRIPE_PROGRAM (R149): The device programs a stripe when 16 blocks are staged or 1 ms after the oldest, padding with zeros. -/
  | loftStripeProgram
  /-- LOFT_PROGRAM_DONE (R149): A stripe program completes, freeing its staging blocks, or retiring the erase block of the failed position. -/
  | loftProgramDone (sb : Nat) (stripe : Nat) (failed : Option (Fin 17))
  /-- LOFT_GC (R150): When free superblocks fall below gc_low, the superblock with fewest valid blocks is moved and erased. -/
  | loftGc
  /-- LOFT_WEAR_MOVE (R150): When erase counts differ by more than wear_delta, valid blocks of the least-worn superblock move to the most worn. -/
  | loftWearMove
  /-- LOFT_READ (R152): A Loft read, the request of this number, is issued for whole lines of one block, served from zeros, staging or NAND. -/
  | loftRead (id : Nat)
  /-- LOFT_READ_DONE (R152): A Loft read completes: 0 LDPC and CRC pass, 1 a retry step passes, 2 every retry fails and the block is reconstructed, 3 a second block of the stripe fails too. -/
  | loftReadDone (id : Nat) (outcome : Fin 4)
  /-- LOWER_TIER_LATE (R144): A lower-tier request not answered by its deadline is ended late with no data. -/
  | lowerTierLate (id : Nat)
  /-- LOFT_STATUS_TIMEOUT (R153): A channel operation gives no status within 1 ms, and the third in a row makes the channel dead. -/
  | loftStatusTimeout (f : Fin 18)
  /-- LOFT_REBUILD_STRIPE (R153): Rebuild reconstructs one stripe's missing block onto the spare within its read share. -/
  | loftRebuildStripe
  /-- LOFT_CHANNEL_RESET (R162): Writing reset of LFT_CH_CTRL retrains the channel while its reads are reconstructed, or it becomes dead. -/
  | loftChannelReset (rq : Requester) (f : Fin 18) (v : Word)
  /-- LOFT_CHANNEL_RETIRE (R162): Writing retire of LFT_CH_CTRL declares the channel dead. -/
  | loftChannelRetire (rq : Requester) (f : Fin 18) (v : Word)
  /-- LOFT_TRIM (R142): Released Loft chunks have their map entries cleared and rejoin the pool. -/
  | loftTrim
  /-- LOFT_READY (R151): After enough superblocks are erased, LFT_STATUS.ready is set. -/
  | loftReady
  /-- MIRROR_COMMIT (R160): Writing commit of HUB_MIRROR_CMD activates an entry as SYNCED, MIRROR or REDIRECT. -/
  | mirrorCommit (rq : Requester) (v : Word)
  /-- MIRROR_CLEAR (R160): Writing clear of HUB_MIRROR_CMD makes an entry unused unless it is REBUILDING. -/
  | mirrorClear (rq : Requester) (v : Word)
  /-- MIRROR_DETACH (R157): Writing detach applies the FM detach event, making the entry SOLO with held accesses proceeding. -/
  | mirrorDetach (rq : Requester) (v : Word)
  /-- MIRROR_REBUILD (R157): Writing rebuild moves a SOLO entry to REBUILDING toward a named spare. -/
  | mirrorRebuild (rq : Requester) (v : Word)
  /-- MIRROR_PARTNER_UNREACHABLE (R157): A mirror partner becoming unreachable makes a SYNCED primary HOLDING or a REBUILDING entry SOLO. -/
  | mirrorPartnerUnreachable (i : Fin 2048)
  /-- MIRROR_PARTNER_REACHABLE (R157): A partner becoming reachable returns a HOLDING entry to SYNCED and lets held accesses proceed. -/
  | mirrorPartnerReachable (i : Fin 2048)
  /-- MIRROR_PROMOTED (R157): A partner answering PROMOTED fences a SYNCED or HOLDING entry, whose held and later accesses become violations. -/
  | mirrorPromoted (i : Fin 2048)
  /-- MIRROR_COPY_SEGMENT (R158): In REBUILDING the extent is copied to the spare one 4 KiB segment at a time at the configured rate. -/
  | mirrorCopySegment (i : Fin 2048)
  /-- MIRROR_COPY_DONE (R157): The rebuild copy reaches the end and the entry becomes SYNCED with the spare as mirror. -/
  | mirrorCopyDone (i : Fin 2048)
  /-- QUEUE_TIME_TRANSLATE (R170): The translation unit translates a queued command's named addresses in use order, stopping at its first fault. -/
  | queueTimeTranslate (p : Fin 32) (chute : Fin 64) (seq : Word) (parity : Option (Fin 36864) := none)
  /-- XLT_ENABLE (R164): Setting enable of PART_XLT_CTRL registers the root if aligned and in a live extent, or reports err. -/
  | xltEnable (rq : Requester) (p : Fin 32) (v : Word)
  /-- XLT_DISABLE (R164): Clearing enable clears ready and discards the partition's translation-buffer entries. -/
  | xltDisable (rq : Requester) (p : Fin 32) (v : Word)
  /-- XLT_INVALIDATE (R177): Writing go invalidates translation entries overlapping a virtual range and sets busy. -/
  | xltInvalidate (rq : Requester) (p : Fin 32) (v : Word)
  /-- XLT_INVALIDATE_ALL (R177): Writing all invalidates every translation entry of the partition. -/
  | xltInvalidateAll (rq : Requester) (p : Fin 32) (v : Word)
  /-- XLT_INVALIDATE_DONE (R177): When no command holds an overlapping older translation, busy clears and inv_done is set. -/
  | xltInvalidateDone (p : Fin 32)
  /-- RELEASE_FENCE (R185): RELEASE_FENCE waits for earlier writes of its scope to be acknowledged and then writes a flag. -/
  | releaseFence (p : Fin 32) (chute : Fin 64) (seq : Word)
  /-- MEM_RD (R206): A host MemRd, checked at the port, becomes RD, RDS_H or OWN_H at the home by MetaValue (0 I, 1 S, 2 A); fieldsOk says MetaField and SnpType have the supported values; ue is the syndrome symbol of an uncorrectable line the read finds. -/
  | memRd (ld : Fin 34) (tag : Nat) (hpa : BitVec 64) (mv : Fin 3) (fieldsOk : Bool) (ue : Option (BitVec 16))
  /-- MEM_RD_DATA (R206): A host MemRdData is handled as RDS_H with a Cmp-S response. -/
  | memRdData (ld : Fin 34) (tag : Nat) (hpa : BitVec 64) (fieldsOk : Bool)
  /-- MEM_INV (R206): A host MemInv or MemInvNT becomes OWN_H, RDS_H or CLN_H by MetaValue. -/
  | memInv (ld : Fin 34) (tag : Nat) (hpa : BitVec 64) (mv : Fin 3) (fieldsOk : Bool)
  /-- MEM_CLN_EVCT (R206): A host MemClnEvct is handled as CLN_H on arrival. -/
  | memClnEvct (ld : Fin 34) (tag : Nat) (hpa : BitVec 64) (fieldsOk : Bool)
  /-- MEM_WR (R206): A host MemWr or MemWrPtl is a WB_H if the host holds E, otherwise a WR, carrying any poison. -/
  | memWr (ld : Fin 34) (tag : Nat) (hpa : BitVec 64) (mv : Fin 3) (mask : BitVec 64) (data : Line) (poison : Bool) (fieldsOk : Bool)
  /-- MEM_SPEC_RD (R206): A host MemSpecRd is accepted and ignored. -/
  | memSpecRd (ld : Fin 34) (hpa : BitVec 64)
  /-- MEM_RD_FWD (R206): A host MemRdFwd returns zero data and is counted. -/
  | memRdFwd (ld : Fin 34) (tag : Nat) (hpa : BitVec 64)
  /-- MEM_WR_FWD (R206): A host MemWrFwd is completed without effect and counted. -/
  | memWrFwd (ld : Fin 34) (tag : Nat) (hpa : BitVec 64)
  /-- BI_RSP (R212): A BIRspI (0), BIRspS (1) or BIRspE (2) counts an acknowledgement or ends a recall and completes the pending request. -/
  | biRsp (ld : Fin 34) (line : BitVec 34) (kind : Fin 3)
  /-- BI_CONFLICT (R207): A BIConflict is answered at once with BIConflictAck. -/
  | biConflict (ld : Fin 34) (line : BitVec 34)
  /-- BI_TIMEOUT (R208): An unanswered back-invalidate past DIR_BI_TIMEOUT sets bi_timeout and sends an error record while the home keeps waiting. -/
  | biTimeout (line : BitVec 34)
  /-- CONFLICT_QUEUE_ACCEPT (R209): When a transient line becomes stable, its queued requests are accepted in arrival order. -/
  | conflictQueueAccept (line : BitVec 34)
  /-- RD (R211): A fabric or local read arrives at the home and is served, recorded as a sharer when fill is set, or queued; ue is the syndrome symbol of an uncorrectable line the read finds, dirErr an error of its directory entry (1 corrected, 2 uncorrectable). -/
  | rd (k : Packet) (ue : Option (BitVec 16)) (dirErr : Fin 3)
  /-- WR (R211): A whole-line fabric write is checked in the exactly-once window and applied after invalidating other copies. -/
  | wr (k : Packet)
  /-- WRP (R211): A partial fabric write applies masked bytes after invalidating other copies, with exactly-once handling. -/
  | wrp (k : Packet)
  /-- ATOM (R238): A fabric atomic is checked in the window and applied at the home, returning the prior value. -/
  | atom (k : Packet)
  /-- COMBINED_PACKET (R247): The home accepts the constituents of a combined packet in list order and answers each separately. -/
  | combinedPacket (k : Packet)
  /-- MWR (R155): A mirror write from a primary home is applied at the mirror, recorded in its window and answered MACK. -/
  | mwr (k : Packet)
  /-- MACK (R155): A mirror's MACK lets the primary acknowledge the original writer. -/
  | mack (k : Packet)
  /-- RDATA (R203): Read data arrives at the requester, delivered to its reader and installed in the remote-line cache unless killed or poisoned. -/
  | rdata (k : Packet) (err : Fin 3 := 0)
  /-- WACK (R249): A write acknowledgement arrives, completing the outstanding sequence and returning any prior value. -/
  | wack (k : Packet)
  /-- NAK (R215): A NAK response arrives naming its reason, such as STALE_EPOCH or POISON_READ. -/
  | nak (k : Packet)
  /-- PINV (R203): A sharer receiving PINV drops its copy or kills an outstanding fill and answers PINVACK. -/
  | pinv (k : Packet)
  /-- PINVACK (R212): A PINVACK matching its invalidation round counts one acknowledgement at the home, else is discarded and counted. -/
  | pinvack (k : Packet)
  /-- UNKNOWN_TYPE_DISCARD (R215): A coherence message of unknown type is discarded and counted in DIR_PROTO_ERR. -/
  | unknownTypeDiscard (k : Packet)
  /-- HOST_LOST (R216): A port down, PERST_N or port reset declares its logical devices lost and starts the HOST_LOST scan on both hubs. -/
  | hostLost (h : Fin 2)
  /-- DIR_HOST_LOST_GO (R222): Writing go in DIR_HOST_LOST declares one logical device lost. -/
  | dirHostLostGo (rq : Requester) (v : Word)
  /-- HOST_LOST_SCAN_DONE (R216): The host-loss scan ends, setting host_lost_done and sending the HOST_LOST record. -/
  | hostLostScanDone
  /-- DIR_PEEK (R222): The high word of DIR_PEEK_ADDR is written, which completes the pair and snapshots the line's directory entry into DIR_PEEK_DATA. -/
  | dirPeek (rq : Requester) (h : Fin 2) (v : Word)
  /-- EXTENT_RELEASE_POINT (R219): The live bit of the i-th extent clears. -/
  | extentReleasePoint (i : Nat)
  /-- EXTENT_RELEASE_COMPLETE (R220): After admitted requests complete, entries are freed and lines zeroed, the release completes and ext_released is set. -/
  | extentReleaseComplete (i : Nat)
  /-- FABRIC_REQUEST_SEND (R226): A source takes a sequence and chooses a rail for a fabric request, or ends it TARGET_LOST when no rail can take it. -/
  | fabricRequestSend (r : FabReq)
  /-- FLIT_RECEIVE (R233): A port receives a flit, decodes FEC, checks CRC and sequence, accepts it or sets nak, and takes acknowledgements and credits. -/
  | flitReceive (l : Fin 12) (f : BitVec 2048) (ue : Option (Fin 64) := none)
  /-- ACK_TIMEOUT (R233): No acknowledgement advancing for ack_timeout hub cycles triggers a replay. -/
  | ackTimeout (l : Fin 12)
  /-- PORT_TRANSMIT (R244): An output port picks the next packet by class priority, deficit round robin and sub-queue round robin and sends it. -/
  | portTransmit (l : Fin 12) (err : Fin 3 := 0)
  /-- COMBINE_HOLD_EXPIRE (R248): A combinable packet's hold for a partner expires and it is sent. -/
  | combineHoldExpire (l : Fin 12) (tc : Fin 8) (vc : Fin 2)
  /-- SPILL_RETURN (R243): As room frees, spilled packets return on-chip in order ahead of new arrivals. -/
  | spillReturn (l : Fin 12) (ue : Bool := false)
  /-- PACKET_AGED (R252): The i-th packet of a port's queues has waited longer than SW_AGE_LIMIT when it reaches the head of its sub-queue: it is discarded and counted. -/
  | packetAged (l : Fin 12) (i : Nat)
  /-- REQUEST_TIMEOUT (R252): An attempt without response after the request timeout fails as if PATH_LOST had arrived. -/
  | requestTimeout (dst : Fin 4096) (tc : Fin 8) (seq : Word)
  /-- PATH_LOST (R255): A PATH_LOST for the attempt in flight makes the source retry once on the other rail or end the request TARGET_LOST. -/
  | pathLost (k : Packet)
  /-- LINK_ENABLE (R253): Writing enable of LNK_CTRL moves an OFF or DOWN port to TRAINING, authenticating if encrypt is set. -/
  | linkEnable (rq : Requester) (l : Fin 12) (v : Word)
  /-- LINK_DISABLE (R253): Writing disable of LNK_CTRL flushes the port if needed and moves it OFF. -/
  | linkDisable (rq : Requester) (l : Fin 12) (v : Word)
  /-- LINK_DRAIN (R253): Writing drain of LNK_CTRL moves an UP port to DRAINING. -/
  | linkDrain (rq : Requester) (l : Fin 12) (v : Word)
  /-- TRAINING_PASS (R253): Training of all eight lanes passes; with encrypt set, link authentication passes or fails. -/
  | trainingPass (l : Fin 12) (x : Trained)
  /-- TRAINING_FAIL (R253): Training or link authentication fails and the port goes DOWN. -/
  | trainingFail (l : Fin 12)
  /-- LINK_QUIET (R253): A DRAINING port quiet for 1,000 hub cycles goes OFF and sets drained. -/
  | linkQuiet (l : Fin 12)
  /-- MSG_SEND (R257): MSG_SEND opens a message exchange to a destination mailbox in this or another cell. -/
  | msgSend (p : Fin 32) (chute : Fin 64) (seq : Word)
  /-- OPEN (R258): A receiver taking OPEN reserves mailbox lines, writing a pad record if needed, and answers ACCEPT or FULL. -/
  | msgOpen (k : Packet)
  /-- ACCEPT (R258): A sender receiving ACCEPT sends the message DATA packets. -/
  | msgAccept (k : Packet)
  /-- FULL (R259): A sender receiving FULL completes RESERVATION_EXCEEDED with detail 1. -/
  | msgFull (k : Packet)
  /-- DATA (R258): A receiver writes a DATA packet into the reserved mailbox lines. -/
  | msgData (k : Packet)
  /-- MAILBOX_DELIVER (R258): When all data is acknowledged, the receiver writes the record header with release, advances TAIL, signals and answers DONE. -/
  | mailboxDeliver (srcCell : Fin 1024) (srcNode : Fin 4096) (msgId : Word)
  /-- DONE (R259): A sender receiving DONE completes OK with the message length. -/
  | msgDone (k : Packet)
  /-- MBOX_ENABLE (R258): Setting enable of PART_MBOX_CTRL registers and zeroes the mailbox under the chute checks. -/
  | mboxEnable (rq : Requester) (p : Fin 32) (v : Word)
  /-- ROW_DIR_ENABLE (R263): Setting enable of PART_ROW_DIR_CTRL registers the table directory without zeroing it. -/
  | rowDirEnable (rq : Requester) (p : Fin 32) (v : Word)
  /-- EMB_LOOKUP (R271): EMB_LOOKUP resolves and pools rows of each bag in fixed order and writes outputs in the chosen format: one bag; cribErr lists positions whose Crib entry shows a corrected (false) or uncorrectable word. -/
  | embLookup (p : Fin 32) (chute : Fin 64) (seq : Word) (cribErr : List (Nat × Bool))
  /-- CRIB_AGE (R279): After age_period × 1,024 sketch increments every counter is halved. -/
  | cribAge (h : Fin 2)
  /-- CONTRIBUTE (R274): EMB_UPDATE CONTRIBUTE writes one gradient record per item into the arena at each row's current home. -/
  | contribute (p : Fin 32) (chute : Fin 64) (seq : Word)
  /-- APPLY (R276): EMB_UPDATE APPLY sums each row's records in fixed order, writes the row under its op and clears the arena. -/
  | apply (p : Fin 32) (chute : Fin 64) (seq : Word)
  /-- ARENA_RECORD_FORWARD (R284): A committed record landing at a node that is not the row's current home is copied to the current home's arena before the writer is acknowledged. -/
  | arenaRecordForward (id : Nat)
  /-- EMB_CONVERT (R287): EMB_CONVERT rewrites a table into the column split or back and updates the descriptor. -/
  | embConvert (p : Fin 32) (chute : Fin 64) (seq : Word)
  /-- HOTSET_REFRESH (R281): HOTSET_REFRESH rebuilds the hot set, invalidates the Crib entries of a table, or both. -/
  | hotsetRefresh (p : Fin 32) (chute : Fin 64) (seq : Word)
  /-- MIGRATE_ROW (R283): MIGRATE_ROW marks a row COPYING, copies it to the destination and waits for its arenas to quiet. -/
  | migrateRow (p : Fin 32) (chute : Fin 64) (seq : Word)
  /-- MIGRATE_CUTOVER (R283): After quiet, the row state and redirect are switched to the destination, a DEPARTED entry is added and the command completes. -/
  | migrateCutover (p : Fin 32) (chute : Fin 64) (seq : Word)
  /-- DEPARTED_LAPSE (R268): A DEPARTED entry lapses once PART_ROW_MIG_GRACE has passed. -/
  | departedLapse (p : Fin 32) (t : Fin 256) (i : Fin 1048576)
  /-- ROW_QUARANTINE (R289): Writing quarantine in ROW_CTRL marks the row unit for quarantine at its next command boundary. -/
  | rowQuarantine (rq : Requester) (i : Fin 16) (v : Word)
  /-- ROW_UNQUARANTINE (R289): Writing unquarantine in ROW_CTRL clears an unreserved row unit's quarantine. -/
  | rowUnquarantine (rq : Requester) (i : Fin 16) (v : Word)
  /-- WIN_DIR_ENABLE (R321): Setting enable of PART_WIN_DIR_CTRL registers the index directory, and clearing it unloads every index. -/
  | winDirEnable (rq : Requester) (p : Fin 32) (v : Word)
  /-- INDEX_LOAD (R292): Writing load checks a descriptor and takes its epoch and pool words into hub state, marking the index loaded. -/
  | indexLoad (rq : Requester) (p : Fin 32) (v : Word)
  /-- INDEX_UNLOAD (R292): Writing unload refuses later commands of the index and waits for earlier ones with busy set. -/
  | indexUnload (rq : Requester) (p : Fin 32) (v : Word)
  /-- INDEX_UNLOAD_DONE (R292): When earlier commands complete, words 20 to 25 are written back and the loaded bit clears. -/
  | indexUnloadDone (p : Fin 32) (i : Fin 64)
  /-- SEARCH (R314): SEARCH runs queries in order, ranking centroids, scanning sketches, keeping candidates and re-ranking them: one query; sram tells of a corrected (1) or uncorrectable (2) word of the Winnower's SRAM. -/
  | search (p : Fin 32) (chute : Fin 64) (seq : Word) (sram : Fin 3)
  /-- INDEX_INSERT (R305): INDEX_INSERT writes sketch records stamped with the open epoch and updates the ID map. -/
  | indexInsert (p : Fin 32) (chute : Fin 64) (seq : Word)
  /-- INDEX_DELETE (R307): INDEX_DELETE stamps the live record of each ID as deleted. -/
  | indexDelete (p : Fin 32) (chute : Fin 64) (seq : Word)
  /-- INDEX_COMPACT (R309): INDEX_COMPACT raises the floor and rewrites coarse partitions without records invisible at it. -/
  | indexCompact (p : Fin 32) (chute : Fin 64) (seq : Word)
  /-- BLOCK_SEAL (R306): When a full block's Loft write completes, the block is sealed. -/
  | blockSeal (p : Fin 32) (i : Fin 64) (block : Word)
  /-- EPOCH_PUBLISH (R300): Once every command stamped at or before a closed epoch has completed, pub_epoch advances to it, or the publish is refused at the limit. -/
  | epochPublish (p : Fin 32) (i : Fin 64)
  /-- DEFERRED_ALLOCATION (R310): An allocation waiting to reuse a freed block or open area proceeds once queries admitted before its release complete. -/
  | deferredAllocation (p : Fin 32) (chute : Fin 64) (seq : Word)
  /-- WIN_QUARANTINE (R322): Writing quarantine in WIN_CTRL marks the Winnower for quarantine at its next command boundary. -/
  | winQuarantine (rq : Requester) (i : Fin 16) (v : Word)
  /-- WIN_UNQUARANTINE (R322): Writing unquarantine in WIN_CTRL clears an unreserved Winnower's quarantine. -/
  | winUnquarantine (rq : Requester) (i : Fin 16) (v : Word)
  /-- SEM_SIGNAL (R326): SEM_SIGNAL adds to or sets a local semaphore or sends the operation to a remote node; err: what the check bits of the stored value show (1 corrected, 2 uncorrectable). -/
  | semSignal (p : Fin 32) (chute : Fin 64) (seq : Word) (err : Fin 3)
  /-- SEM_WAIT (R327): SEM_WAIT takes a watch and waits until a local semaphore reaches its threshold. -/
  | semWait (p : Fin 32) (chute : Fin 64) (seq : Word) (err : Fin 3)
  /-- WAIT_SATISFIED (R327): A semaphore change satisfying a wait reaches the waiting SEM_WAIT command, ME step or core, which completes or resumes. -/
  | waitSatisfied (w : SemWaiter)
  /-- SEM_WAIT_TIMEOUT (R327): A SEM_WAIT not satisfied within max_wait completes DEADLINE_MISSED. -/
  | semWaitTimeout (p : Fin 32) (chute : Fin 64) (seq : Word)
  /-- SEM_VAL_WRITE (R349): A pair write of PART_SEM_VAL performs SET on the selected semaphore and clears its poison. -/
  | semValWrite (rq : Requester) (p : Fin 32) (v : Word) (err : Fin 3)
  /-- SEM_ADD (R328): A remote SEM_ADD message is epoch-checked and applied exactly once to the member's semaphore. -/
  | semAdd (k : Packet) (err : Fin 3)
  /-- SEM_SET (R328): A remote SEM_SET message is epoch-checked and applied exactly once. -/
  | semSet (k : Packet) (err : Fin 3)
  /-- BARRIER (R330): BARRIER sends BAR_ARRIVE to the barrier home and waits for BAR_RELEASE. -/
  | barrier (p : Fin 32) (chute : Fin 64) (seq : Word)
  /-- BAR_ARRIVE (R331): The barrier home ranks an arrival and, at the last participant, releases every participant and updates last histories. -/
  | barArrive (k : Packet)
  /-- BAR_RELEASE (R331): A participant receiving BAR_RELEASE completes its BARRIER with rank and generation. -/
  | barRelease (k : Packet)
  /-- PROPOSE (R337): Writing go of PART_COMP_PROP_CTRL forwards a proposed member list to the sequencer. -/
  | propose (rq : Requester) (p : Fin 32) (v : Word)
  /-- PROPOSE_MSG (R337): The sequencer queues a received PROPOSE, ending BUSY when its queue is full; list is what reading the proposed list gives. -/
  | proposeMsg (k : Packet) (list : List Word)
  /-- PREPARE (R338): A node receiving PREPARE checks the proposal, becomes prepared and answers YES, or answers NO with a reason; list is what reading the sequencer's list gives. -/
  | prepare (k : Packet) (list : List Word)
  /-- COMMIT (R339): A node receiving COMMIT takes the new map and epoch, rechecks held messages and answers COMMITACK. -/
  | commit (k : Packet)
  /-- COMP_ABORT (R338): A node receiving ABORT for a proposal leaves the prepared state and refuses held messages. -/
  | compAbort (k : Packet)
  /-- SACK (R344): A SACK answers a sync message, carrying YES or NO, COMMITACK, or a status and value to the sender. -/
  | sack (k : Packet)
  /-- COMP_TIMEOUT (R339): A member prepared longer than RNG_COMP_TIMEOUT sends QUERY to the sequencer. -/
  | compTimeout (c : Fin 65536)
  /-- QUERY (R339): The sequencer answers QUERY with its decision or with none yet. -/
  | query (k : Packet)
  /-- DOWN (R342): A node receiving DOWN drops lines tagged with the composition, marks it down and freezes its member partition. -/
  | down (k : Packet)
  /-- DIGEST (R346): DIGEST computes a GF(2^128) digest of regions and, with vote set, sends it to the other replicas. -/
  | digest (p : Fin 32) (chute : Fin 64) (seq : Word)
  /-- DIGEST_VOTE (R347): A DIGEST vote message is stored in a vote slot and, once all n are held, the vote is decided and recorded. -/
  | digestVote (k : Packet)
  /-- DIG_WAIT_EXPIRE (R347): A vote not complete within PART_DIG_WAIT decides from the digests received. -/
  | digWaitExpire (p : Fin 32) (chute : Fin 64) (seq : Word)
  /-- FATAL (R356): A Ranger-state error (0), package-network failure (1) or THERMTRIP_N (2) sends a FATAL record, disables every port and waits for reset. -/
  | fatalError (cause : Fin 3) (tiles : Nat)
  /-- CE_SUMMARY (R366): At most once per 2^27 cycles per unit and store a CE_SUMMARY record of nonzero corrected counts is sent. -/
  | ceSummary (cls : Fin 17) (inst : Fin 1664) (store : Fin 11)
  /-- RECORD_RESEND (R368): Every RNG_ERR_RESEND cycles unacknowledged records are sent again. -/
  | recordResend
  /-- RECORD_ACK (R368): A collector acknowledgement datagram removes every record of its incarnation up to its sequence. -/
  | recordAck (w0 : Word) (w1 : Word) (w2 : Word) (w3 : Word)
  /-- GET_RECORDS (R369): A GET_RECORDS request returns up to four records from a first sequence over MCTP. -/
  | getRecords (tr : Transport) (id : BitVec 16) (first : Word)
  /-- ACK_RECORDS (R369): An ACK_RECORDS request acknowledges records up to a sequence for both paths. -/
  | ackRecords (tr : Transport) (id : BitVec 16) (upto : Word)
  /-- FT_GO (R372): Writing go of RNG_FT_CTRL queues a field-test request or reports BAD_REQUEST or NO_CONTENT. -/
  | ftGo (rq : Requester) (v : Word)
  /-- FT_CANCEL (R381): Writing cancel of RNG_FT_CTRL ends a request CANCELLED, removing it or restoring its resource. -/
  | ftCancel (rq : Requester) (v : Word)
  /-- FT_TAKE (R374): The Ranger takes the next queued request's resource, marking, resetting and zeroing it, or defers the request; tj is the sensor nearest the resource. -/
  | ftTake (tj : BitVec 16)
  /-- FT_RETRY (R373): Every 2^27 cycles, or when a resource of its kind frees, a deferred request is tried again. -/
  | ftRetry (num : BitVec 8)
  /-- FT_EXPIRE (R373): A request still deferred at its expiry ends EXPIRED. -/
  | ftExpire (num : BitVec 8)
  /-- FT_NOMINAL_PASS (R374): The nominal pass of the content steps ends with every step passing, or with its first failing step. -/
  | ftNominalPass (fail : Option (BitVec 16))
  /-- FT_MARGIN_PASS (R374): The margin pass ends, or is skipped, and the resource is restored and the result reported; tj is the sensor at the end, rows the spare rows that can mend a failing T1 unit (0: none remain), pages the failing T0 pages of a bank. -/
  | ftMarginPass (fail : Option (BitVec 16)) (tj : BitVec 16) (rows : BitVec 16) (pages : List Nat)
  /-- CLOCK_GATE (R385): The block of a number is clock-gated: a unit 0 to 255 (engines, cores from 64, Winnowers from 128, row units from 192), Crib 256 + c, remote-line cache 258 + h, Loft channel 270 + f. -/
  | clockGate (b : Fin 512)
  /-- POWER_GATE (R385): An unreserved unit idle for pg_idle cycles saves its registers to shadow and is power-gated. -/
  | powerGate (k : UnitKind) (i : Fin 64)
  /-- PLL_STOP (R385): A compute tile whose units are all power-gated for pll_idle cycles stops its PLL, entering IDLE if all are stopped. -/
  | pllStop (k : Fin 4)
  /-- SELF_REFRESH (R385): A stack with no access for sr_idle cycles enters self-refresh. -/
  | selfRefresh (stack : Fin 6)
  /-- WAKE_DONE (R386): The block of a number (as in clockGate, and stack 260 + s, tile PLL 300 + k) that was waking is awake. -/
  | wakeDone (b : Fin 512)
  /-- STANDBY (R388): Writing standby enters STANDBY if every partition is FREE and every Cofeben port OFF, else sets standby_refused. -/
  | standby (rq : Requester) (v : Word)
  /-- RUN (R388): Writing run leaves STANDBY, restarting stacks, PLLs and transmitters. -/
  | runNode (rq : Requester) (v : Word)
  /-- RUN_DONE (R388): The node reaches RUN after leaving STANDBY and run_done is set. -/
  | runDone
  /-- POWER_TICK (R389): A 100-µs tick: the fast and sustained means of package power in W, and the temperatures of the sensors by number (8 × tile + sensor), signed, in units of 0.125 °C. -/
  | powerTick (fast : BitVec 16) (sustained : BitVec 16) (tj : List (BitVec 16))
  /-- POWER_LOSS (R393): PWRGD falling stops the device at once and tri-states its outputs. -/
  | powerLoss
  /-- COLD_RESET (R394): PWRGD rising resets everything and starts boot from step 1. -/
  | coldReset
  /-- WARM_RESET (R394): RST_N (none), or a write of RNG_RESET_CTRL with warm set, by a requester. -/
  | warmReset (by_ : Option (Requester × Word))
  /-- BOOT (R396): Boot runs its steps from ROM check through image verification, training and region building to BOOT_DONE. -/
  | boot (config : BootConfig) (run : BootRun)
  /-- BOOT_WATCHDOG (R401): A trial boot not reaching step 11 within 10 s is warm-reset to fall back to the active slot. -/
  | bootWatchdog
  /-- UNIT_RESET (R394): Writing unit_reset of RNG_RESET_CTRL resets an unreserved unit's pipeline and buffers. -/
  | unitReset (rq : Requester) (v : Word)
  /-- PERST_N_ASSERT (R394): A CXL port is reset: 0 its PERST_N goes low, 1 its link went down, 2 a hot reset or link disable from the host side. -/
  | perstNAssert (h : Fin 2) (why : Fin 3)
  /-- PERST_N_DEASSERT (R397): PERST_N rising lets the port train and answer with config retry until ready. -/
  | perstNDeassert (h : Fin 2)
  /-- CXL_PORT_READY (R397): A CXL port ends configuration retry and sets ready. -/
  | cxlPortReady (h : Fin 2)
  /-- IDE_FAIL (R426): An IDE integrity failure takes the link down, counting it and setting ide_fail. -/
  | ideFail (h : Fin 2)
  /-- SWAP (R404): Writing swap of CFG_SWAP exchanges active and shadow parameter sets, extends M5 and sends PARAM_SWAP. -/
  | swap (rq : Requester) (v : Word)
  /-- PARAM_CHECK_DONE (R403): The check of a parameter update ends; whether its HSS signature checks. -/
  | paramCheckDone (signed : Bool)
  /-- SET_TRIAL (R401): Writing set_trial of CFG_IMAGE_CTRL names a slot as trial for the next boot or reports err. -/
  | setTrial (rq : Requester) (v : Word)
  /-- NEW_CHALLENGE (R413): Writing new_challenge draws a fresh debug challenge and invalidates the previous one. -/
  | newChallenge (rq : Requester) (v : Word)
  /-- RELOCK (R413): Writing relock returns to debug level 0, warm-resetting from level 3. -/
  | relock (rq : Requester) (v : Word)
  /-- DEBUG_TOKEN (R413): A token comes through the TAP; whether its HSS signature checks. -/
  | debugToken (token : List Byte) (signed : Bool)
  /-- OBJ_BEGIN (R433): OBJ_BEGIN opens a transfer of one kind, erasing the inactive image slot for an image. -/
  | objBegin (tr : Transport) (id : BitVec 16) (kind : BitVec 8) (total : Word)
  /-- OBJ_DATA (R433): OBJ_DATA writes object bytes at the next unwritten offset or is answered OUT_OF_ORDER. -/
  | objData (tr : Transport) (id : BitVec 16) (kind : BitVec 8) (offset : Word) (data : List Byte)
  /-- OBJ_END (R433): The object is checked and installed; whether its HSS signature checks. -/
  | objEnd (tr : Transport) (id : BitVec 16) (kind : BitVec 8) (signed : Bool)
  /-- OBJ_ABORT (R432): OBJ_ABORT abandons an open transfer. -/
  | objAbort (tr : Transport) (id : BitVec 16) (kind : BitVec 8)
  /-- TRANSFER_TIMEOUT (R433): A transfer with no message for 10 s is dropped. -/
  | transferTimeout (kind : Fin 4)
  /-- QUOTE (R410): QUOTE signs a nonce with identity, versions, measurements and debug state. -/
  | quote (tr : Transport) (id : BitVec 16) (nonce : List Byte)
  /-- KEM_KEY (R432): KEM_KEY returns the signed ML-KEM-1024 encapsulation key. -/
  | kemKey (tr : Transport) (id : BitVec 16)
  /-- SESSION_OPEN (R432): SESSION_OPEN decapsulates a ciphertext and returns a session number. -/
  | sessionOpen (tr : Transport) (id : BitVec 16) (ciphertext : List Byte)
  /-- SESSION_MSG (R412): A protected message of a session; none: it does not authenticate. -/
  | sessionMsg (tr : Transport) (id : BitVec 16) (session : Word) (msg : Option IdeMsg)
  /-- IDENTIFY (R425): The Identify mailbox command returns device identity. -/
  | identifyDevice (mb : Mailbox)
  /-- IDENTIFY_MEMORY_DEVICE (R425): Identify Memory Device returns memory device information. -/
  | identifyMemoryDevice (mb : Mailbox)
  /-- GET_SUPPORTED_LOGS (R425): Get Supported Logs returns the supported logs. -/
  | getSupportedLogs (mb : Mailbox)
  /-- GET_LOG (R425): Get Log returns the CDAT log. -/
  | getLog (mb : Mailbox)
  /-- GET_EVENT_RECORDS (R425): Get Event Records returns the logical device's event records. -/
  | getEventRecords (mb : Mailbox)
  /-- CLEAR_EVENT_RECORDS (R425): Clear Event Records removes event records. -/
  | clearEventRecords (mb : Mailbox) (handles : List Nat)
  /-- GET_EVENT_INTERRUPT_POLICY (R425): Get Event Interrupt Policy returns the event interrupt policy. -/
  | getEventInterruptPolicy (mb : Mailbox)
  /-- SET_EVENT_INTERRUPT_POLICY (R425): Set Event Interrupt Policy selects how event log entries raise interrupts. -/
  | setEventInterruptPolicy (mb : Mailbox) (msix : Bool)
  /-- GET_DYNAMIC_CAPACITY_CONFIG (R425): Get Dynamic Capacity Configuration returns the DC region setup. -/
  | getDynamicCapacityConfig (mb : Mailbox)
  /-- GET_DYNAMIC_CAPACITY_EXTENT_LIST (R425): Get Dynamic Capacity Extent List returns the logical device's extents. -/
  | getDynamicCapacityExtentList (mb : Mailbox)
  /-- ADD_DYNAMIC_CAPACITY_RESPONSE (R423): The host's Add Dynamic Capacity Response makes accepted pending ranges live and drops omitted ones. -/
  | addDynamicCapacityResponse (mb : Mailbox) (accepted : List Range)
  /-- RELEASE_DYNAMIC_CAPACITY (R423): The host's Release Dynamic Capacity reaches the release point of each named range. -/
  | releaseDynamicCapacity (mb : Mailbox) (ranges : List Range)
  /-- INJECT_POISON (R424): Inject Poison sets the poison bit of a line in the logical device's live extents. -/
  | injectPoison (mb : Mailbox) (dpa : BitVec 64)
  /-- CLEAR_POISON (R424): Clear Poison writes 64 bytes as a whole-line write, clearing poison. -/
  | clearPoison (mb : Mailbox) (dpa : BitVec 64) (data : Line)
  /-- GET_LD_INFO (R425): Get LD Info returns logical device information to the fabric manager. -/
  | getLdInfo (mb : Mailbox)
  /-- GET_LD_ALLOCATIONS (R425): Get LD Allocations returns logical device allocations. -/
  | getLdAllocations (mb : Mailbox)
  /-- SET_LD_ALLOCATIONS (R425): Set LD Allocations returns Unsupported. -/
  | setLdAllocations (mb : Mailbox)
  /-- GET_DC_REGION_CONFIGURATION (R425): Get DC Region Configuration returns DC region configuration. -/
  | getDcRegionConfiguration (mb : Mailbox) (p : Fin 32)
  /-- GET_DC_REGION_EXTENT_LISTS (R423): Get DC Region Extent Lists returns extents, including those whose release has not completed. -/
  | getDcRegionExtentLists (mb : Mailbox) (p : Fin 32)
  /-- INITIATE_DYNAMIC_CAPACITY_ADD (R423): Initiate Dynamic Capacity Add checks ranges and makes passing ones pending with an Add Capacity event. -/
  | initiateDynamicCapacityAdd (mb : Mailbox) (p : Fin 32) (ranges : List Range)
  /-- INITIATE_DYNAMIC_CAPACITY_RELEASE (R423): Initiate Dynamic Capacity Release offers a release event or, forced, reaches the release point at once. -/
  | initiateDynamicCapacityRelease (mb : Mailbox) (p : Fin 32) (ranges : List Range) (forced : Bool)
  /-- UNSUPPORTED_MAILBOX_COMMAND (R418): A mailbox or FM API command outside the supported set returns Unsupported. -/
  | unsupportedMailboxCommand (mb : Mailbox) (opcode : BitVec 16)
  /-- ARP (R434): A management port answers an ARP request. -/
  | arpRequest (port : Fin 2) (target : Word) (sender : Word)
  /-- ICMP_ECHO (R434): A management port answers an ICMPv4 echo. -/
  | icmpEcho (port : Fin 2) (target : Word) (sender : Word) (body : List Byte)
  /-- SETDASA (R435): The I3C target accepts SETDASA to take a dynamic address. -/
  | setDasa (stat : BitVec 7) (dyn : BitVec 7)
  /-- ENTDAA (R435): The I3C target takes part in ENTDAA dynamic address assignment. -/
  | entDaa (dyn : BitVec 7)
  /-- SET_ENDPOINT_ID (R435): Set Endpoint ID sets the MCTP endpoint ID. -/
  | setEndpointId (eid : BitVec 8)
  /-- GET_ENDPOINT_ID (R435): Get Endpoint ID returns the MCTP endpoint ID. -/
  | getEndpointId
  /-- GET_VERSION_SUPPORT (R435): Get Version Support returns supported MCTP versions. -/
  | getVersionSupport (msgType : BitVec 8)
  /-- GET_MESSAGE_TYPE_SUPPORT (R435): Get Message Type Support returns the three supported message types. -/
  | getMessageTypeSupport
  /-- SCL_CLEAR (R442): Writing clear of SCL_CTRL zeroes a Scaler's counters, bandwidth registers and threshold state. -/
  | sclClear (rq : Requester) (k : Fin 10) (v : Word)
  /-- START_ALL (R442): Writing start_all sets run in all ten Scalers in one cycle. -/
  | startAll (rq : Requester) (v : Word)
  /-- STOP_ALL (R442): Writing stop_all clears run in all ten Scalers in one cycle. -/
  | stopAll (rq : Requester) (v : Word)
  /-- CLEAR_ALL (R442): Writing clear_all clears all ten Scalers in one cycle. -/
  | clearAll (rq : Requester) (v : Word)
  /-- SCL_EVSEL_WRITE (R446): A write of SCL_EVSEL_n selects a counter's event and filters and rearms its threshold cause. -/
  | sclEvselWrite (rq : Requester) (k : Fin 10) (n : Fin 8) (v : Word)
  /-- BW_WINDOW_END (R448): At each window boundary every port's CUR becomes LAST, PEAK updates and the window index increments. -/
  | bwWindowEnd (k : Fin 10)
  /-- SAMPLING_ENABLE (R449): Enabling sampling in SCL_SMP_CTRL loads each unit's LFSR from the seed. -/
  | samplingEnable (rq : Requester) (k : Fin 4) (v : Word)
  /-- SCL_SMP_POP (R451): Writing pop removes the oldest sample record. -/
  | sclSmpPop (rq : Requester) (k : Fin 4) (v : Word)
  /-- TALLY_START (R456): Tally blocks: 0 and 1 of HT0 and HT1, 2 to 5 of LT0 to LT3. -/
  | tallyStart (rq : Requester) (u : Fin 6) (v : Word)
  /-- TALLY_STOP (R462): Writing stop of TLY_CTRL stops the group with reason 1. -/
  | tallyStop (rq : Requester) (u : Fin 6) (v : Word)
  /-- TALLY_CLEAR (R462): Writing clear of TLY_CTRL zeroes the group's counters and eye results. -/
  | tallyClear (rq : Requester) (u : Fin 6) (v : Word)
  /-- TALLY_SCAN (R460): Writing scan of TLY_CTRL runs an eye scan on a locked lane or is refused. -/
  | tallyScan (rq : Requester) (u : Fin 6) (v : Word)
  /-- TALLY_TRAINED (R456): A Tally group's lanes finish training and the group enters RUNNING. -/
  | tallyTrained (u : Fin 6) (g : Fin 16)
  /-- TALLY_TRAIN_TIMEOUT (R456): A far end not training within 10,000,000 cycles stops the group with reason 4 and sets train_fail. -/
  | tallyTrainTimeout (u : Fin 6) (g : Fin 16)
  /-- TALLY_DURATION_END (R456): With what the group has counted since the counts last came. -/
  | tallyDurationEnd (u : Fin 6) (g : Fin 16) (counts : List LaneCount) (flits : BitVec 64) (crc : Word)
  /-- TALLY_LOCK_LOST (R454): A lane with 32 of 64 bits mismatching loses lock, counts it and relocks. -/
  | tallyLockLost (u : Fin 6) (g : Fin 16) (lane : Fin 2048)
  /-- EYE_SCAN_DONE (R460): The rows of the map from voltage offset -32 up; bit j is the phase j - 32. -/
  | eyeScanDone (u : Fin 6) (g : Fin 16) (rows : List (BitVec 64)) (vstep : BitVec 8)
  /-- CXL_LINK_UP (R441): A CXL port's link finishes training with its partner and goes UP at its trained width and rate, setting the up cause. -/
  | cxlLinkUp (h : Fin 2) (width : Fin 16) (fast : Bool)
  /-- LOFT_ERASE_DONE (R150): A NAND erase of a superblock ends, freeing it for reuse, or retiring the erase block of the failed position. -/
  | loftEraseDone (sb : Nat) (failed : Option (Fin 17))
  /-- LOFT_CHANNEL_RETRAINED (R162): A Loft channel reset ends with the channel trained again, resuming rebuild, or failing training so the channel is declared dead. -/
  | loftChannelRetrained (f : Fin 18) (ok : Bool)
  /-- TALLY_LANE_LOCK (R454): A lane's checker locks, or counts while it is locked. -/
  | tallyLaneLock (u : Fin 6) (g : Fin 16) (count : LaneCount) (flits : BitVec 64) (crc : Word)
  /-- PACKAGE_NETWORK_REPLAY (R353): A transfer from tile k to another tile fails its CRC-32C for the row-th time in a row and is replayed; the sixteenth is fatal. -/
  | packageNetworkReplay (k : Fin 10) (dest : Fin 10) (row : BitVec 5)
  /-- STANDBY_DONE (R388): STANDBY entry completes with SerDes in low power and stacks in self-refresh; busy clears and RNG_PWR_STATE shows STANDBY. -/
  | standbyDone
  /-- CXL_CONFIG_REQUEST (R397): A configuration request that reaches a CXL port is answered with config retry until the port is ready, and counted in CXL_CFG_RETRY. -/
  | cxlConfigRequest (h : Fin 2)
  /-- MANAGEMENT_LINK_CHANGE (R434): A management port's SGMII link comes up or goes down after auto-negotiation, changing link0 or link1 of RNG_NET_STATUS. -/
  | managementLinkChange (port : Fin 2) (up : Bool)
  /-- MANAGEMENT_FRAME_DROP (R434): A management frame that is not ARP, ICMPv4 echo or the transfer service, or a datagram beyond 1,000 per second, is dropped and counted in RNG_NET_DROPPED. -/
  | managementFrameDrop (port : Fin 2)
  deriving DecidableEq, Repr

end Sys2Proof
end

