-- ==== Sys2Proof/Machine/Arith.lean ====
section
/-! DEFINITION. Arithmetic the spec asks for: exact values m·2^e, rounding to a binary format, IEEE binary32 addition (R238), and
the integer operations of the atomics. -/

namespace Sys2Proof.Machine

/-- An exact value m·2^e. -/
structure Dy where
  m : Int
  e : Int
  deriving DecidableEq, Repr

/-- m·2^e brought to exponent f ≤ e. -/
def Dy.at (d : Dy) (f : Int) : Int := d.m * 2 ^ (d.e - f).toNat

/-- The exact sum. -/
def Dy.add (a b : Dy) : Dy :=
  if a.e ≤ b.e then ⟨a.m + b.at a.e, a.e⟩ else ⟨a.at b.e + b.m, b.e⟩

/-- The exact product. -/
def Dy.mul (a b : Dy) : Dy := ⟨a.m * b.m, a.e + b.e⟩

/-- Is a below b? -/
def Dy.lt (a b : Dy) : Bool := decide ((a.add ⟨-b.m, b.e⟩).m < 0)

/-- Negation. -/
def Dy.neg (a : Dy) : Dy := ⟨-a.m, a.e⟩

/-- Magnitude. -/
def Dy.abs (a : Dy) : Dy := ⟨a.m.natAbs, a.e⟩

/-- Divide by 2^k, rounding to nearest, ties to even. -/
def rneShift (m k : Nat) : Nat :=
  let q := m / 2 ^ k
  let r := m % 2 ^ k
  if 2 * r < 2 ^ k then q else if 2 ^ k < 2 * r then q + 1 else q + q % 2

/-- Round the magnitude m·2^e, ties to even, to a format of `prec` significant bits whose least unit is 2^emin, and give its bits
without the sign: exponent field above `prec - 1` fraction bits. No bound is applied above. -/
def roundMag (prec : Nat) (emin : Int) (m : Nat) (e : Int) : Nat :=
  if m = 0 then 0
  else
    let q := max ((Nat.log2 m : Int) + e - (prec - 1 : Nat)) emin
    let n := if q ≤ e then m * 2 ^ (e - q).toNat else rneShift m (q - e).toNat
    (q - emin).toNat * 2 ^ (prec - 1) + n

/-- What a floating-point code stands for. -/
inductive FVal where
  | fin (neg : Bool) (d : Dy)
  | inf (neg : Bool)
  | nan
  deriving DecidableEq, Repr

/-- Read a binary interchange code of `eb` exponent bits and `mb` fraction bits, with infinities and NaNs in the top exponent. -/
def FVal.ofBits (eb mb : Nat) (v : Nat) : FVal :=
  let neg := decide (v / 2 ^ (eb + mb) % 2 = 1)
  let ex := v / 2 ^ mb % 2 ^ eb
  let fr := v % 2 ^ mb
  let bias : Int := 2 ^ (eb - 1) - 1
  if ex = 2 ^ eb - 1 then (if fr = 0 then .inf neg else .nan)
  else
    let m : Int := if ex = 0 then fr else fr + 2 ^ mb
    let e : Int := (if ex = 0 then 1 else (ex : Int)) - bias - mb
    .fin neg ⟨if neg then -m else m, e⟩

/-- The binary32 code of a sign and an exact magnitude, ties to even; overflow gives infinity. -/
def f32OfMag (neg : Bool) (m : Nat) (e : Int) : Nat :=
  (if neg then 2 ^ 31 else 0) + min (roundMag 24 (-149) m e) 0x7F800000

/-- The binary32 code of an exact value; zero is positive. -/
def f32OfDy (d : Dy) : Nat := f32OfMag (decide (d.m < 0)) d.m.natAbs d.e

/-- The one NaN the device writes. -/
def f32NaN : Nat := 0x7FC00000

/-- The code of an infinity. -/
def f32Inf (neg : Bool) : Nat := if neg then 0xFF800000 else 0x7F800000

/-- IEEE binary32 addition, ties to even, subnormals kept, every NaN written as 0x7FC0_0000 (R238). -/
def f32Add (a b : Nat) : Nat :=
  match FVal.ofBits 8 23 a, FVal.ofBits 8 23 b with
  | .nan, _ => f32NaN
  | _, .nan => f32NaN
  | .inf x, .inf y => if x = y then f32Inf x else f32NaN
  | .inf x, _ => f32Inf x
  | _, .inf y => f32Inf y
  | .fin x d, .fin y f =>
    let r := d.add f
    if r.m = 0 then (if x && y then 2 ^ 31 else 0) else f32OfDy r

/-- A w-bit value read as two's complement. -/
def signed (w v : Nat) : Int := if v % 2 ^ w < 2 ^ (w - 1) then ((v % 2 ^ w : Nat) : Int) else ((v % 2 ^ w : Nat) : Int) - 2 ^ w

/-- The operations applied at a home (R110, R238): a code of R238, or one of those that only a local line takes. -/
inductive AtomOp where
  | add | minS | maxS | minU | maxU | cas | fadd | swap | band | bor | bxor
  deriving DecidableEq, Repr

/-- The value an atomic writes, from the prior value, operand and compare value of w bits; none where a compare fails. -/
def AtomOp.apply (op : AtomOp) (w prior x cmp : Nat) : Option Nat :=
  let m := 2 ^ w
  match op with
  | .add => some ((prior + x) % m)
  | .minS => some (if signed w x < signed w prior then x % m else prior)
  | .maxS => some (if signed w prior < signed w x then x % m else prior)
  | .minU => some (if x % m < prior then x % m else prior)
  | .maxU => some (if prior < x % m then x % m else prior)
  | .cas => if prior = cmp % m then some (x % m) else none
  | .fadd => some (f32Add prior (x % m))
  | .swap => some (x % m)
  | .band => some (prior &&& (x % m))
  | .bor => some (prior ||| (x % m))
  | .bxor => some (prior ^^^ (x % m))

/-- The operation and width in bits that an atom_op code names (R238); none for other codes. -/
def AtomOp.ofCode : Nat → Option (AtomOp × Nat)
  | 0x01 => some (.add, 32) | 0x02 => some (.add, 64) | 0x03 => some (.minS, 32) | 0x04 => some (.minS, 64)
  | 0x05 => some (.maxS, 32) | 0x06 => some (.maxS, 64) | 0x07 => some (.minU, 32) | 0x08 => some (.minU, 64)
  | 0x09 => some (.maxU, 32) | 0x0A => some (.maxU, 64) | 0x0B => some (.cas, 32) | 0x0C => some (.cas, 64)
  | 0x0D => some (.fadd, 32) | _ => none

/-- The operation and width of a code of R238, or of the model's own codes for the operations only a local line takes (R110):
0x20 SWAP, 0x21 AND, 0x22 OR, 0x23 XOR on 32 bits, 0x30 to 0x33 on 64. -/
def AtomOp.ofAny (code : Nat) : Option (AtomOp × Nat) :=
  match code with
  | 0x20 => some (.swap, 32) | 0x21 => some (.band, 32) | 0x22 => some (.bor, 32) | 0x23 => some (.bxor, 32)
  | 0x30 => some (.swap, 64) | 0x31 => some (.band, 64) | 0x32 => some (.bor, 64) | 0x33 => some (.bxor, 64)
  | c => AtomOp.ofCode c

end Sys2Proof.Machine
end

