-- ==== Sys2Proof/Machine/Ecc.lean ====
section
/-! DEFINITION. The symbol code of a T1 line (R129): GF(2^16), the Reed–Solomon check symbols of a codeword, its syndromes, and what they say
of the symbols that are wrong. Symbol i of a codeword is the coefficient of x^(39 - i): the spec gives the roots of the generator and not the
order of the symbols (DESIGN CHOICE, log entry 50). -/

namespace Sys2Proof.Machine

/-- Times α: reduction by x^16 + x^12 + x^3 + x + 1. -/
def symX (a : Nat) : Nat := if 2 ^ 15 ≤ a then (2 * a) ^^^ 0x1100B else 2 * a

/-- The product of two field elements, `n` bits of the second one. -/
def symMulN : Nat → Nat → Nat → Nat
  | 0, _, _ => 0
  | n + 1, a, b => (if b % 2 = 1 then a else 0) ^^^ symMulN n (symX a) (b / 2)

/-- The product of two field elements. -/
def symMul (a b : Nat) : Nat := symMulN 16 a b

/-- α to the power n. -/
def symAlpha : Nat → Nat
  | 0 => 1
  | n + 1 => symX (symAlpha n)

/-- a to the power 2^n - 2 for n = 16 is its inverse: the square is taken `n` times and the odd powers multiplied up. -/
def symInvN : Nat → Nat → Nat → Nat
  | 0, _, acc => acc
  | n + 1, sq, acc => symInvN n (symMul sq sq) (symMul acc sq)

/-- The inverse of a field element other than 0. -/
def symInv (a : Nat) : Nat := symInvN 15 (symMul a a) 1

/-- The coefficients of the generator below x^7, highest first: its roots are α^0 to α^6. -/
def rsGen : List Nat :=
  ((List.range 7).foldl (fun g i => (List.range (g.length + 1)).map (fun k => g.getD k 0 ^^^ (if k = 0 then 0 else symMul (symAlpha i) (g.getD (k - 1) 0))))
    [1]).drop 1

/-- The check symbols 33 to 39 of the 33 symbols before them: the remainder of division by the generator. -/
def rsCheck (msg : List Nat) : List Nat :=
  msg.foldl (fun r m =>
    let q := m ^^^ r.headD 0
    (List.range 7).map (fun k => r.getD (k + 1) 0 ^^^ symMul q (rsGen.getD k 0))) (List.replicate 7 0)

/-- Syndrome S_j of forty symbols: their polynomial at α^j. -/
def rsSyndrome (j : Nat) (w : List Nat) : Nat := w.foldl (fun acc x => symMul acc (symAlpha j) ^^^ x) 0

/-- What a read of a codeword finds: no error, an error within a burst segment (with the two symbols of its correction), or an uncorrectable
one. -/
inductive EccFound where
  | clean
  | segment (g e0 e1 : Nat)
  | lost
  deriving DecidableEq, Repr

/-- Does an error in symbols 2g and 2g + 1 alone give these syndromes? Each later one follows from the two before it. -/
def segmentFits (syn : List Nat) (g : Nat) : Bool :=
  let a := symAlpha (39 - 2 * g)
  let b := symAlpha (38 - 2 * g)
  (List.range 5).all (fun j => decide (syn.getD (j + 2) 0 = symMul (a ^^^ b) (syn.getD (j + 1) 0) ^^^ symMul (symMul a b) (syn.getD j 0)))

/-- The two symbols of the correction in a segment, from S0 and S1. -/
def segmentError (syn : List Nat) (g : Nat) : Nat × Nat :=
  let a := symAlpha (39 - 2 * g)
  let b := symAlpha (38 - 2 * g)
  let e1 := symMul (syn.getD 1 0 ^^^ symMul a (syn.getD 0 0)) (symInv (a ^^^ b))
  (syn.getD 0 0 ^^^ e1, e1)

/-- What the syndromes of a codeword's wrong symbols say (R129): every error within one segment is corrected, every other error that shows is
uncorrectable. -/
def eccJudge (err : List Nat) : EccFound :=
  let syn := (List.range 7).map (fun j => rsSyndrome j err)
  if syn.all (· = 0) then .clean
  else match (List.range 20).find? (segmentFits syn) with
    | some g => .segment g (segmentError syn g).1 (segmentError syn g).2
    | none => .lost

/-- Syndrome symbol S0: the codeword at the root α^0 (R129). -/
def syndrome0 (err : List Nat) : Nat := err.foldl (· ^^^ ·) 0

/-- What stays wrong after the device has done its correction: nothing, unless the wrong symbols look like an error they are not. -/
def eccResidue (err : List Nat) : List Nat :=
  match eccJudge err with
  | .clean => err
  | .segment g e0 e1 => (List.range 40).map (fun i => err.getD i 0 ^^^ (if i = 2 * g then e0 else if i = 2 * g + 1 then e1 else 0))
  | .lost => List.replicate 40 0

end Sys2Proof.Machine
end

