-- ==== Sys2Proof/Machine/Crc.lean ====
section
/-! DEFINITION. The check sums the spec names: CRC-32C over bytes, taken least significant bit first, and the CRC-64 of a flit. -/

namespace Sys2Proof.Machine

/-- One bit of CRC-32C (reflected polynomial 0x82F63B78). -/
def crc32cBit (c : Nat) : Nat := if c % 2 = 1 then (c / 2) ^^^ 0x82F63B78 else c / 2

/-- The eight bits of one byte. -/
def crc32cByte (c b : Nat) : Nat :=
  let c := c ^^^ b
  crc32cBit (crc32cBit (crc32cBit (crc32cBit (crc32cBit (crc32cBit (crc32cBit (crc32cBit c)))))))

/-- CRC-32C of a list of bytes. -/
def crc32c (bytes : List Nat) : Nat := (bytes.foldl crc32cByte 0xFFFFFFFF) ^^^ 0xFFFFFFFF

/-- One byte of CRC-64 with polynomial 0x42F0_E1EB_A9EA_3693, not reflected (R232). -/
def crc64Byte (c b : Nat) : Nat :=
  (List.range 8).foldl (fun c _ =>
    if c / 2 ^ 63 % 2 = 1 then (c * 2 % 2 ^ 64) ^^^ 0x42F0E1EBA9EA3693 else c * 2 % 2 ^ 64) (c ^^^ (b * 2 ^ 56))

/-- CRC-64 of a flit's bytes: initial value all ones, result complemented (R232). -/
def crc64 (bytes : List Nat) : Nat := (bytes.foldl crc64Byte (2 ^ 64 - 1)) ^^^ (2 ^ 64 - 1)

/-- The little-endian bytes of words (R3). -/
def wordBytes (ws : List Nat) : List Nat :=
  ws.flatMap (fun w => [w % 256, w / 2 ^ 8 % 256, w / 2 ^ 16 % 256, w / 2 ^ 24 % 256])

end Sys2Proof.Machine
end

