-- ==== Sys2Proof/Config.lean ====
section
/-! DEFINITION. What the spec fixes once for the part, and the values it leaves open, as constants with no body: nothing can
evaluate one or prove a value of it (log entries 4 and 5). -/

namespace Sys2Proof.Config

/-- A fresh value the spec does not state (a random challenge, a key, a session number), by a counter of State. -/
opaque freeValue : Nat → BitVec 64

/-- A fresh choice among things the spec says are equal ("any chunks that are free", R142), by a counter of State. -/
opaque freeChoice : Nat → Nat

/-- Bytes of an answer whose content the spec names but does not lay out (a signature, a key, a CXL structure), by a counter. -/
opaque freeBytes : Nat → Nat → BitVec 8

/-- The latency and bandwidth figures of the CDAT, which the spec names and does not give (R418). -/
opaque cdatFigure : Nat → BitVec 32

/-- The MCTP versions of each message type the management controller carries (R435), which the spec does not give. -/
opaque mctpVersion : Nat → BitVec 32

/-- The code of an element in a block whose scale QUANT made NaN, in a format that has no NaN code (R89), by format and FP32 code. -/
opaque nanElement : Nat → Nat → BitVec 8

/-- A directional key of an encrypted Cofeben link (R411): HKDF-SHA-256 of the shared secret over the lower node ID, the higher node ID and the direction
(0 from the lower to the higher), whose layout as context the spec does not give (log entry 61). -/
opaque linkKey : BitVec 256 → Nat → Nat → Nat → BitVec 256

/-- The LDPC parity field of 4 KiB of a Loft block (R147), whose code the spec does not give (log entry 51). -/
opaque ldpcParity : Nat → Nat

/-- Stripes that one superblock holds: the pages of an erase block of the fitted NAND, which no register shows (R147). -/
opaque loftStripes : Nat

/-- Bytes of T1 (R13). -/
def t1Bytes : Nat := 0x6C00000000
/-- First offset of the T1 partition pool (R126). -/
def poolBase : Nat := 0x0400000000
/-- Bytes of T0 (R122). -/
def t0Bytes : Nat := 0x18000000
/-- Reservable request tags (R26). -/
def tags : Nat := 12032
/-- Chute slots of the node (R26). -/
def chuteSlots : Nat := 1024
/-- Semaphores of the node (R323). -/
def semaphores : Nat := 262144

end Sys2Proof.Config
end

