-- ==== Sys2Proof/Machine/Narrow.lean ====
section
/-! DEFINITION. The element formats of the matrix engines and their arithmetic (R77 to R91): codes and their values, packing, scales,
exact block sums, the reduction tree, output scales, rounding and escalation. -/

namespace Sys2Proof.Machine

/-! ### Values -/

/-- Zero. -/
def Dy.zero : Dy := ⟨0, 0⟩

/-- A power of two. -/
def Dy.pow2 (e : Int) : Dy := ⟨1, e⟩

/-- a ≤ b. -/
def Dy.le (a b : Dy) : Bool := !b.lt a

/-- The zero value. -/
def FVal.zero : FVal := .fin false Dy.zero

/-- A product (R84): NaN if either factor is, or for an infinity times zero. -/
def FVal.mul : FVal → FVal → FVal
  | .nan, _ => .nan
  | _, .nan => .nan
  | .inf x, .inf y => .inf (xor x y)
  | .inf x, .fin _ d => if d.m = 0 then .nan else .inf (xor x (decide (d.m < 0)))
  | .fin _ d, .inf y => if d.m = 0 then .nan else .inf (xor y (decide (d.m < 0)))
  | .fin _ d, .fin _ f => .fin false (d.mul f)

/-- Round to binary32; zero is positive (R78, R84, R87). -/
def FVal.toF32 : FVal → Nat
  | .nan => f32NaN
  | .inf n => f32Inf n
  | .fin _ d =>
    let v := f32OfDy d
    if v = 2 ^ 31 then 0 else v

/-- The value of a binary32 code. -/
def ofF32 (v : Nat) : FVal := FVal.ofBits 8 23 v

/-- Binary32 addition whose zero result is positive (R78, R87). -/
def addF32 (a b : Nat) : Nat :=
  let v := f32Add a b
  if v = 2 ^ 31 then 0 else v

/-! ### Formats (R77) -/

/-- The format codes. -/
def fmBf16 : Nat := 0
def fmE4m3 : Nat := 1
def fmE5m2 : Nat := 2
def fmE3m2 : Nat := 3
def fmE2m3 : Nat := 4
def fmE2m1 : Nat := 5
def fmInt8 : Nat := 6
def fmY3 : Nat := 7
def fmY2 : Nat := 8
def fmYt : Nat := 9
def fmF32 : Nat := 10

/-- Bits of a storage unit: an element, or for YT a byte of five. -/
def codeBits : Nat → Nat
  | 0 => 16 | 3 => 6 | 4 => 6 | 5 => 4 | 7 => 3 | 8 => 2 | 10 => 32 | _ => 8

/-- Is it one of the Y formats? -/
def isY (f : Nat) : Bool := decide (f = fmY3) || decide (f = fmY2) || decide (f = fmYt)

/-- Can tiles of the format escalate, and be looked up (R95, R97)? -/
def isNarrow (f : Nat) : Bool := decide (f = fmE2m1) || isY f

/-- A block's elements: 16 for two-level tiles, else 32 (R83); 1 stands for BF16 and FP32, which have none. -/
def blockOf (f : Nat) (two : Bool) : Nat := if f = fmBf16 ∨ f = fmF32 then 1 else if two then 16 else 32

/-- Scale bytes of a row of k elements (R71). -/
def scalesPerRow (f k : Nat) (two : Bool) : Nat := if f = fmBf16 ∨ f = fmF32 then 0 else (k + blockOf f two - 1) / blockOf f two

/-- Storage units of a row of k elements: for YT the bytes (R79, R82). -/
def unitsPerRow (f k : Nat) : Nat := if f = fmYt then (k + 4) / 5 else k

/-- Packed bytes of a row (R79). -/
def rowBytes (f k : Nat) : Nat := (unitsPerRow f k * codeBits f + 7) / 8

/-- A code with `eb` exponent bits and `mb` fraction bits, every exponent finite. -/
def finCode (eb mb v : Nat) : FVal :=
  let neg := decide (v / 2 ^ (eb + mb) % 2 = 1)
  let ex := v / 2 ^ mb % 2 ^ eb
  let m : Int := if ex = 0 then v % 2 ^ mb else v % 2 ^ mb + 2 ^ mb
  .fin false ⟨if neg then -m else m, (if ex = 0 then 1 else (ex : Int)) - (2 ^ (eb - 1) - 1 : Nat) - mb⟩

/-- The value of an element code, without its scale (R77 to R82); of a YT trit for its format. -/
def elemVal (f v : Nat) : FVal :=
  match f with
  | 0 => FVal.ofBits 8 7 v
  | 1 => if v % 128 = 127 then .nan else finCode 4 3 v
  | 2 => FVal.ofBits 5 2 v
  | 3 => finCode 3 2 v
  | 4 => finCode 2 3 v
  | 5 => finCode 2 1 v
  | 6 => .fin false ⟨signed 8 v, -6⟩
  | 7 =>
    let m : Int := match v % 4 with | 0 => 0 | 1 => 1 | 2 => 2 | _ => 4
    .fin false ⟨if v / 4 % 2 = 1 then -m else m, 0⟩
  | 8 => .fin false ⟨match v % 4 with | 1 => 1 | 2 => -1 | _ => 0, 0⟩
  | 9 => .fin false ⟨match v % 3 with | 1 => 1 | 2 => -1 | _ => 0, 0⟩
  | _ => ofF32 v

/-- The storage units of a packed row (R79). -/
def unpackRow (f k v : Nat) : List Nat :=
  let w := codeBits f
  (List.range (unitsPerRow f k)).map (fun i => v / 2 ^ (w * i) % 2 ^ w)

/-- A packed row from its storage units. -/
def packRow (f : Nat) : List Nat → Nat
  | [] => 0
  | c :: t => c % 2 ^ codeBits f + 2 ^ codeBits f * packRow f t

/-- The five trits of a YT byte (R82); a byte from 0xF3 on is five zeros. -/
def trits (b : Nat) : List Nat := if b ≤ 242 then [b % 3, b / 3 % 3, b / 9 % 3, b / 27 % 3, b / 81 % 3] else [0, 0, 0, 0, 0]

/-- A YT byte from trits, padded with zero trits (R73, R82). -/
def tritByte (l : List Nat) : Nat := l.getD 0 0 + 3 * l.getD 1 0 + 9 * l.getD 2 0 + 27 * l.getD 3 0 + 81 * l.getD 4 0

/-- The element codes of a row's storage units. -/
def rowCodes (f k : Nat) (us : List Nat) : List Nat := if f = fmYt then (us.flatMap trits).take k else us.take k

/-- The storage units of a row's element codes. -/
def rowUnits (f : Nat) (cs : List Nat) : List Nat :=
  if f = fmYt then (List.range ((cs.length + 4) / 5)).map (fun j => tritByte ((cs.drop (5 * j)).take 5)) else cs

/-- Invalid codes among a row's storage units (R81, R82). -/
def invalidCodes (f : Nat) (us : List Nat) : Nat :=
  if f = fmY2 then (us.filter (fun c => decide (c % 4 = 3))).length
  else if f = fmYt then (us.filter (fun c => decide (242 < c))).length else 0

/-! ### Tiles and scales (R77, R83) -/

/-- A tile in an operand-buffer slot (R70): format, rows, elements a row, two-level flag, tensor scale, storage units by row, scale
bytes by row. An FP32 tile has binary32 codes. -/
structure Tile where
  fmt : Nat
  rows : Nat
  k : Nat
  two : Bool
  ts : Nat
  data : List (List Nat)
  scales : List (List Nat)
  deriving DecidableEq, Repr

/-- The value of an E8M0 scale. -/
def e8m0 (c : Nat) : FVal := if c = 255 then .nan else .fin false (Dy.pow2 ((c : Int) - 127))

/-- The value of an E4M3 scale; its sign is ignored (R83). -/
def e4m3Scale (c : Nat) : FVal := elemVal fmE4m3 (c % 128)

/-- The scale of accumulation block `blk` of row i, blocks of `ab` elements (R83). -/
def Tile.scaleAt (t : Tile) (i blk ab : Nat) : FVal :=
  if t.fmt = fmBf16 then .fin false (Dy.pow2 0)
  else
    let c := (t.scales.getD i []).getD (blk * ab / blockOf t.fmt t.two) 0
    if t.two then e4m3Scale c else e8m0 c

/-- The tensor scale: 1.0 unless two-level. -/
def Tile.tensorScale (t : Tile) : FVal := if t.two then ofF32 t.ts else .fin false (Dy.pow2 0)

/-- The element values of row i. -/
def Tile.rowVals (t : Tile) (i : Nat) : List FVal := (rowCodes t.fmt t.k (t.data.getD i [])).map (elemVal t.fmt)

/-- Bytes of the data of a tile. -/
def Tile.dataBytes (t : Tile) : Nat := t.rows * rowBytes t.fmt t.k

/-- Bytes a tile takes in the buffer: its data, and from the next 64-byte boundary its scales (R70). -/
def Tile.bytes (t : Tile) : Nat :=
  let n := scalesPerRow t.fmt t.k t.two
  if n = 0 then t.dataBytes else (t.dataBytes + 63) / 64 * 64 + t.rows * n

/-! ### MMA (R72, R84 to R87) -/

/-- The format groups of the pair table (R72). -/
def pairGroup (f : Nat) : Nat := if f = 0 then 0 else if f ≤ 4 ∨ f = 6 then 1 else if f = 5 then 2 else if f = 7 then 3 else 4

/-- Is the pair of formats allowed (R72)? -/
def pairAllowed (a b : Nat) : Bool :=
  decide (a ≤ 9) && decide (b ≤ 9) && decide (a = 0 ↔ b = 0) && !(decide (a = fmE5m2) && decide (b = fmE5m2))

/-- Weight of the leading bit of an exact value. -/
def Dy.lead (d : Dy) : Int := (Nat.log2 d.m.natAbs : Int) + d.e

/-- Truncate toward zero at weight 2^w. -/
def Dy.truncAt (d : Dy) (w : Int) : Dy :=
  if w ≤ d.e then d
  else
    let q := d.m.natAbs / 2 ^ (w - d.e).toNat
    ⟨if d.m < 0 then -(q : Int) else (q : Int), w⟩

/-- The exact sum of a list. -/
def dySum : List Dy → Dy
  | [] => Dy.zero
  | d :: t => d.add (dySum t)

/-- The finite products of a block, and what its special products make of it (R84): none where all are finite. -/
def blockSpecial (ps : List FVal) : Option FVal :=
  let has (f : FVal → Bool) : Bool := ps.any f
  if has (fun p => decide (p = .nan)) then some .nan
  else match has (fun p => decide (p = .inf false)), has (fun p => decide (p = .inf true)) with
    | true, true => some .nan
    | true, false => some (.inf false)
    | false, true => some (.inf true)
    | false, false => none

/-- The finite part of a value. -/
def FVal.dy : FVal → Dy
  | .fin _ d => d
  | _ => Dy.zero

/-- The exponent of a format's smallest nonzero magnitude (R77). -/
def lsbOf : Nat → Int
  | 1 => -9 | 2 => -16 | 3 => -4 | 4 => -3 | 5 => -1 | 6 => -6 | _ => 0

/-- A block's products as the array forms them: with `bad`, that at an element comes out wrong by so many units of 2^lsb, or, for BF16, of its own
last place (R85, R86, R92). -/
def wrongProducts (bf16 : Bool) (lsb : Int) (bad : List (Nat × Int)) (ds : List Dy) : List Dy :=
  if bad.isEmpty then ds
  else (List.range ds.length).map (fun k =>
    let d := ds.getD k Dy.zero
    let off := ((bad.filter (fun x => decide (x.1 = k))).map (·.2)).sum
    if bf16 then ⟨d.m + off, d.e⟩ else d.add ⟨off, lsb⟩)

/-- The sum of a block's products (R84 to R86), as the array forms them. -/
def blockSum (bf16 : Bool) (lsb : Int) (bad : List (Nat × Int)) (a b : List FVal) : FVal :=
  let ps := List.zipWith FVal.mul a b
  match blockSpecial ps with
  | some v => v
  | none =>
    let ds := wrongProducts bf16 lsb bad (ps.map FVal.dy)
    if bf16 then
      let nz := ds.filter (fun d => decide (d.m ≠ 0))
      match nz with
      | [] => .zero
      | d :: t =>
        let e := t.foldl (fun a x => max a x.lead) d.lead
        .fin false (dySum (ds.map (fun x => x.truncAt (e - 57))))
    else .fin false (dySum ds)

/-- One level of the balanced tree: sums of neighbours. -/
def pairSums : List Nat → List Nat
  | a :: b :: t => addF32 a b :: pairSums t
  | l => l

/-- The fixed balanced tree over a list of 2^n values (R87). -/
def treeSum : Nat → List Nat → Nat
  | 0, l => l.headD 0
  | n + 1, l => treeSum n (pairSums l)

/-- The tree over any list, padded with +0 to a power of two (R87). -/
def reduceTree (xs : List Nat) : Nat :=
  let n := if xs.length ≤ 1 then 0 else Nat.log2 (xs.length - 1) + 1
  treeSum n (xs ++ List.replicate (2 ^ n - xs.length) 0)

/-- Elements of an accumulation block of an MMA (R83, R87). -/
def blockSize (a b : Tile) : Nat := if a.two || b.two then 16 else 32

/-- What goes wrong in the products of element (i, j) within a block: the element of the block, and by how much. -/
def badIn (bad : List BadProduct) (ab i j blk : Nat) : List (Nat × Int) :=
  (bad.filter (fun x => decide (x.i.val = i) && decide (x.j.val = j) && decide (x.k.val / ab = blk))).map (fun x => (x.k.val % ab, x.off))

/-- One output element of an MMA, before any accumulation (R87), from the products as the array forms them. -/
def mmaElem (a b : Tile) (bad : List BadProduct) (va vb : List FVal) (i j : Nat) : Nat :=
  let ab := blockSize a b
  let nb := (a.k + ab - 1) / ab
  let xs := (List.range nb).map (fun blk =>
    let s := blockSum (decide (a.fmt = fmBf16)) (lsbOf a.fmt + lsbOf b.fmt) (badIn bad ab i j blk) ((va.drop (ab * blk)).take ab)
      ((vb.drop (ab * blk)).take ab)
    ((s.mul (a.scaleAt i blk ab)).mul (b.scaleAt j blk ab)).toF32)
  let t := ((ofF32 (reduceTree xs)).mul a.tensorScale).toF32
  ((ofF32 t).mul b.tensorScale).toF32

/-- C = A × B^T, added to an FP32 tile if there is one (R72, R87), from the products as the array forms them. -/
def mmaTile (a b : Tile) (c : Option Tile) (bad : List BadProduct) : Tile :=
  let vbs := (List.range b.rows).map b.rowVals
  { fmt := fmF32, rows := a.rows, k := b.rows, two := false, ts := 0, scales := [],
    data := (List.range a.rows).map (fun i =>
      let va := a.rowVals i
      (List.range b.rows).map (fun j =>
        let t := mmaElem a b bad va (vbs.getD j []) i j
        match c with
        | some c => addF32 ((c.data.getD i []).getD j 0) t
        | none => t)) }

/-! ### The checker (R92) -/

/-- The finite parts of the elements of a row within a block. -/
def blockDys (vs : List FVal) (ab blk : Nat) : List Dy := ((vs.drop (ab * blk)).take ab).map FVal.dy

/-- The element-wise sum of rows. -/
def rowSum (rows : List (List Dy)) (n : Nat) : List Dy := (List.range n).map (fun k => dySum (rows.map (fun r => r.getD k Dy.zero)))

/-- The sum of the products of two rows. -/
def dotDy (x y : List Dy) : Dy := dySum (List.zipWith Dy.mul x y)

/-- Are two exact values equal? -/
def Dy.same (a b : Dy) : Bool := a.le b && b.le a

/-- What the checker compares in a row or column: exact sums, or for BF16 the residue mod 255 of the significand products (R92). -/
def checkSame (bf16 : Bool) (x y : Dy) : Bool := if bf16 then decide (x.m % 255 = y.m % 255) else x.same y

/-- For BF16 the significands alone, without their exponents. -/
def significands (bf16 : Bool) (r : List Dy) : List Dy := if bf16 then r.map (fun d => ⟨d.m, 0⟩) else r

/-- The checks of one block (R92): the first row whose sum differs, else the first column: its number and the axis. `ra` and `rb` are the rows of A and
B within the block. -/
def checkBlock (bf16 : Bool) (lsb : Int) (ab blk : Nat) (bad : List BadProduct) (ra rb : List (List Dy)) : Option (Nat × Nat) :=
  let ra := ra.map (significands bf16)
  let rb := rb.map (significands bf16)
  let s (i j : Nat) : Dy :=
    dySum (wrongProducts bf16 lsb (badIn bad ab i j blk) (List.zipWith Dy.mul (ra.getD i []) (rb.getD j [])))
  let sb := rowSum rb ab
  let sa := rowSum ra ab
  let rowBad (i : Nat) : Bool := !checkSame bf16 (dotDy (ra.getD i []) sb) (dySum ((List.range rb.length).map (s i)))
  let colBad (j : Nat) : Bool := !checkSame bf16 (dotDy sa (rb.getD j [])) (dySum ((List.range ra.length).map (fun i => s i j)))
  match (List.range ra.length).find? rowBad with
  | some i => some (i, 0)
  | none => ((List.range rb.length).find? colBad).map (fun j => (j, 1))

/-- The checks of an MMA (R92): the block, the row or column and the axis that fail first, blocks in order. Where no product is wrong both sides of
every comparison are the same sum. -/
def mmaCheck (a b : Tile) (bad : List BadProduct) : Option (Nat × Nat × Nat) :=
  if bad.isEmpty then none
  else
    let ab := blockSize a b
    let va := (List.range a.rows).map a.rowVals
    let vb := (List.range b.rows).map b.rowVals
    (List.range ((a.k + ab - 1) / ab)).findSome? (fun blk =>
      (checkBlock (decide (a.fmt = fmBf16)) (lsbOf a.fmt + lsbOf b.fmt) ab blk bad (va.map (blockDys · ab blk)) (vb.map (blockDys · ab blk))).map
        (fun x => (blk, x.1, x.2)))

/-! ### QUANT (R73, R89 to R91) -/

/-- The magnitudes a format has, by code (R77, R80): for MXINT8 of the sign in question. -/
def magnitudes (f : Nat) (neg : Bool) : List Dy :=
  let fromCodes (n : Nat) : List Dy := (List.range n).map (fun c => (elemVal f c).dy)
  match f with
  | 1 => fromCodes 127
  | 2 => fromCodes 124
  | 3 => fromCodes 32
  | 4 => fromCodes 32
  | 5 => fromCodes 8
  | 6 => (List.range (if neg then 129 else 128)).map (fun (c : Nat) => (⟨c, -6⟩ : Dy))
  | 7 => fromCodes 4
  | _ => fromCodes 2

/-- The largest finite magnitude of a format (R77). -/
def largestOf (f : Nat) : Dy :=
  match f with
  | 0 => ⟨255, 120⟩ | 1 => ⟨448, 0⟩ | 2 => ⟨57344, 0⟩ | 3 => ⟨28, 0⟩ | 4 => ⟨15, -1⟩ | 5 => ⟨6, 0⟩ | 6 => ⟨2, 0⟩ | 7 => ⟨4, 0⟩ | _ => ⟨1, 0⟩

/-- Round a magnitude x, in units of div, onto rising grid magnitudes: to the nearest with ties to the code whose last bit is 0, or
by the 16-bit random number (R90, R91). `i` is the code of the list's first. -/
def roundGrid (x div : Dy) (r : Option Nat) : Nat → List Dy → Nat
  | i, [] => i
  | i, [_] => i
  | i, lo :: hi :: t =>
    let l := lo.mul div
    let h := hi.mul div
    if h.le x then roundGrid x div r (i + 1) (hi :: t)
    else
      let below := x.add l.neg
      let gap := h.add l.neg
      match r with
      | some r => if (Dy.mul ⟨r, 0⟩ gap).lt (below.mul ⟨65536, 0⟩) then i + 1 else i
      | none =>
        let twice := below.mul ⟨2, 0⟩
        if twice.lt gap then i else if gap.lt twice then i + 1 else i + i % 2

/-- Round a magnitude to a BF16 code without sign. -/
def roundBf16 (x : Dy) (r : Option Nat) : Nat :=
  match r with
  | none => roundMag 8 (-133) x.m.natAbs x.e
  | some r =>
    let up := roundMag 8 (-133) x.m.natAbs x.e
    let val (c : Nat) : Dy := (FVal.ofBits 8 7 c).dy
    let lo := if x.lt (val up) then up - 1 else up
    let below := x.add (val lo).neg
    if below.m = 0 then lo else
    let gap := (val (lo + 1)).add (val lo).neg
    if (Dy.mul ⟨r, 0⟩ gap).lt (below.mul ⟨65536, 0⟩) then lo + 1 else lo

/-- The element code of a sign and a magnitude code (R77 to R82); zero is positive. -/
def signCode (f : Nat) (neg : Bool) (c : Nat) : Nat :=
  if c = 0 ∨ !neg then c
  else match f with
    | 6 => 256 - c
    | 8 => 2
    | 9 => 2
    | f => c + 2 ^ (codeBits f - 1)

/-- The largest code of a sign. -/
def topCode (f : Nat) (neg : Bool) : Nat := if f = 0 then 0x7F7F else (magnitudes f neg).length - 1

/-- The quiet NaN code of a format that has one (R84, R89). -/
def nanCode (f : Nat) : Option Nat := match f with | 0 => some 0x7FC0 | 1 => some 0x7F | 2 => some 0x7E | _ => none

/-- An element rounded (R90, R91): its code, whether it was clipped, and whether a nonzero element became zero. -/
def roundElem (f : Nat) (v : FVal) (div : Dy) (r : Option Nat) : Nat × Bool × Bool :=
  match v with
  | .nan => ((nanCode f).getD 0, false, false)
  | .inf n =>
    if f = 0 then (if n then 0xFF80 else 0x7F80, false, false)
    else if f = 2 then (if n then 0xFC else 0x7C, false, false)
    else (signCode f n (topCode f n), true, false)
  | .fin _ d =>
    let neg := decide (d.m < 0)
    let x := d.abs
    if ((largestOf f).mul div).lt x then (signCode f neg (topCode f neg), true, false)
    else
      let c := if f = 0 then roundBf16 x r else roundGrid x div r 0 (magnitudes f neg)
      (signCode f neg c, false, decide (c = 0) && decide (d.m ≠ 0))

/-- floor(log2 m) of a positive value. -/
def floorLog2 (m : Dy) : Int := m.lead

/-- ceil(log2 m) of a positive value. -/
def ceilLog2 (m : Dy) : Int := if m.m.natAbs = 2 ^ Nat.log2 m.m.natAbs then m.lead else m.lead + 1

/-- The largest exponent of an MX format's elements (R89). -/
def eMax (f : Nat) : Int := match f with | 1 => 8 | 2 => 15 | 3 => 4 | 4 => 2 | 5 => 2 | _ => 0

/-- The smallest E4M3 code of positive value times `unit` at least m, from code c of `n` left (R89). -/
def e4m3Above (m unit : Dy) : Nat → Nat → Nat
  | 0, c => c
  | n + 1, c => if m.le ((elemVal fmE4m3 c).dy.mul unit) then c else e4m3Above m unit n (c + 1)

/-- The scale QUANT chooses for a block whose largest finite magnitude is m (R89): its code and value. -/
def scaleFor (f : Nat) (two : Bool) (ts m : Dy) : Nat × Dy :=
  if f = fmBf16 then (0, Dy.pow2 0)
  else if m.m = 0 then (if two then 0x38 else 0x7F, Dy.pow2 0)
  else if two then
    let c := e4m3Above m (if f = fmY3 then ts.mul ⟨4, 0⟩ else ts) 125 1
    (c, (elemVal fmE4m3 c).dy)
  else
    let x := if f = fmY3 then ceilLog2 m - 2 else if isY f then ceilLog2 m else floorLog2 m - eMax f
    let x := max (-127) (min 127 x)
    ((x + 127).toNat, Dy.pow2 x)

/-- The 16-bit random number of an element (R91). -/
def stochastic16 (seed step tileM tileN e : Nat) : Nat :=
  let m := 2 ^ 64
  let key := step % 2 ^ 32 * 2 ^ 32 + tileM % 2 ^ 16 * 2 ^ 16 + tileN % 2 ^ 16
  let z := (seed + key * 0x9E3779B97F4A7C15 + (e + 1) * 0xBF58476D1CE4E5B9) % m
  let z := (z ^^^ (z / 2 ^ 30)) * 0xBF58476D1CE4E5B9 % m
  let z := (z ^^^ (z / 2 ^ 27)) * 0x94D049BB133111EB % m
  let z := z ^^^ (z / 2 ^ 31)
  z / 2 ^ 48

/-- What QUANT is asked for (R73, R91, R95): output format, two-level flag and tensor scale, and for stochastic rounding the seed, step
and tile coordinates; the flush shift. -/
structure QuantArgs where
  fmt : Nat
  two : Bool
  ts : Nat
  stochastic : Bool
  seed : Nat
  step : Nat
  tileM : Nat
  tileN : Nat
  flushShift : Nat
  deriving DecidableEq, Repr

/-- The code of an element of a block whose scale is NaN, in a format without a NaN code: the spec gives none (log entry 4). -/
def nanBlockCode (f v : Nat) : Nat :=
  let c := (Config.nanElement f v).toNat
  if f = fmY2 ∨ f = fmYt then c % 3 else c % 2 ^ codeBits f

/-- Quantize one block of row i starting at column j: scale code, element codes, and how many were clipped or flushed. In a format without NaN codes
no element of a block that holds a NaN counts as either, its finite and infinite ones too (DESIGN CHOICE, log entry 39: R89 says so of NaN elements
only). -/
def quantBlock (q : QuantArgs) (ts : Dy) (n i j : Nat) (xs : List Nat) : Nat × List Nat × Nat :=
  let vs := xs.map ofF32
  let m := vs.foldl (fun a v => match v with | .fin _ d => if a.lt d.abs then d.abs else a | _ => a) Dy.zero
  if vs.any (fun v => decide (v = .nan)) && (nanCode q.fmt).isNone then
    (if q.two then 0x7F else 0xFF, xs.map (nanBlockCode q.fmt), 0)
  else
    let (code, sv) := scaleFor q.fmt q.two ts m
    let div := if q.two then sv.mul ts else sv
    let floor_ := m.mul (Dy.pow2 (-(max 1 q.flushShift : Nat)))
    let es := (List.range xs.length).map (fun e =>
      let v := vs.getD e .zero
      let r := if q.stochastic then some (stochastic16 q.seed q.step q.tileM q.tileN (i * n + j + e)) else none
      let (c, clipped, zeroed) := roundElem q.fmt v div r
      (c, clipped || (zeroed && floor_.le v.dy.abs)))
    (code, es.map (·.1), (es.filter (·.2)).length)

/-- The blocks of a row, each padded with zero codes to its length (R73). -/
def quantRow (q : QuantArgs) (ts : Dy) (n i bs : Nat) (row : List Nat) : List Nat × List Nat × Nat :=
  (List.range ((n + bs - 1) / bs)).foldl (fun (acc : List Nat × List Nat × Nat) b =>
    let xs := (row.drop (bs * b)).take bs
    let (sc, cs, lost) := quantBlock q ts n i (bs * b) xs
    (acc.1 ++ cs ++ List.replicate (bs - xs.length) 0, acc.2.1 ++ [sc], acc.2.2 + lost)) ([], [], 0)

/-- QUANT of an FP32 tile: the output tile and how many elements were clipped or flushed (R73, R89 to R91). -/
def quantTile (q : QuantArgs) (src : Tile) : Tile × Nat :=
  let bs := if q.fmt = fmBf16 then 32 else if q.two then 16 else 32
  let ts := if q.two then (ofF32 q.ts).dy else Dy.pow2 0
  let rows := (List.range src.rows).map (fun i => quantRow q ts src.k i bs (src.data.getD i []))
  let k := if q.fmt = fmBf16 then src.k else (src.k + bs - 1) / bs * bs
  ({ fmt := q.fmt, rows := src.rows, k := k, two := q.two, ts := q.ts, data := rows.map (fun r => rowUnits q.fmt (r.1.take k)),
     scales := if q.fmt = fmBf16 then [] else rows.map (·.2.1) },
   (rows.map (·.2.2)).sum)

/-- Is a tile escalated (R95): n × 2^thr > M × N; 0 and 15 mean never. -/
def escalates (lost thr m n : Nat) : Bool := decide (thr ≠ 0) && decide (thr ≠ 15) && decide (m * n < lost * 2 ^ thr)

end Sys2Proof.Machine
end

