-- ==== Sys2Proof/Machine/RegMap.lean ====
section
/-! DEFINITION. The control space: where every register stands (R22 and the register tables of each chapter), which bits a
write sets (RW), clears (W1C) or acts on (WO), which registers form a pair (R4), and the reset values that are not zero.
A register is named by its control-space address; `Reg.<NAME>` gives that address from the block's index. -/

namespace Sys2Proof.Machine

/-- Which place a register has in a pair (R4): none, the low word or the high word. -/
inductive PairPart where
  | one | lo | hi
  deriving DecidableEq, Repr

/-- One line of a register table: `cnt` registers `stride` bytes apart from offset `off`; a write sets the bits of `rw`, clears
by 1 the bits of `w1c`, and performs the action of a bit of `wo` (R7). Every other bit is RO or RSV. -/
structure RegRow where
  off : Nat
  cnt : Nat
  stride : Nat
  rw : Nat
  w1c : Nat
  wo : Nat
  pair : PairPart
  deriving DecidableEq, Repr

/-- The kinds of block in the control space (R22). -/
inductive Blk where
  | rng | cfg | hub | dir | win | row | crib | tly | me | gc | sw | lnk | cxl | lft | lftCh | part | scl
  deriving DecidableEq, Repr

/-- Base of a Tally block: u = 0, 1 are on HT0 and HT1, u = 2 to 5 on LT0 to LT3 (R22). -/
def Reg.tallyBase (u : Nat) : Nat :=
  if u < 2 then 0x01400000 + u * 0x00800000 else 0x04300000 + (u - 2) * 0x00800000

/-! ### Registers of the rng block -/
/-- RNG_IRQ_SUMMARY, offset 0x100 (R439). -/
def Reg.RNG_IRQ_SUMMARY : Nat := 0x00000000 + 0x100
/-- RNG_IRQ_SUMMARY_MASK, offset 0x104 (R439). -/
def Reg.RNG_IRQ_SUMMARY_MASK : Nat := 0x00000000 + 0x104
/-- RNG_IRQ_GRP, offset 0x140 (R439). -/
def Reg.RNG_IRQ_GRP (i : Nat) : Nat := 0x00000000 + 0x140 + i * 4
/-- RNG_IRQ_PARTITION, offset 0x178 (R439). -/
def Reg.RNG_IRQ_PARTITION : Nat := 0x00000000 + 0x178
/-- RNG_IRQ_GRP_MASK, offset 0x180 (R439). -/
def Reg.RNG_IRQ_GRP_MASK (i : Nat) : Nat := 0x00000000 + 0x180 + i * 4
/-- RNG_IRQ_PARTITION_MASK, offset 0x1B8 (R439). -/
def Reg.RNG_IRQ_PARTITION_MASK : Nat := 0x00000000 + 0x1B8
/-- RNG_CMP_IRQ_CAUSE, offset 0x200 (R439). -/
def Reg.RNG_CMP_IRQ_CAUSE : Nat := 0x00000000 + 0x200
/-- RNG_CMP_IRQ_MASK, offset 0x204 (R439). -/
def Reg.RNG_CMP_IRQ_MASK : Nat := 0x00000000 + 0x204
/-- RNG_ADM_CTRL, offset 0x10000 (R28). -/
def Reg.RNG_ADM_CTRL : Nat := 0x00000000 + 0x10000
/-- RNG_ADM_STATUS, offset 0x10004 (R28). -/
def Reg.RNG_ADM_STATUS : Nat := 0x00000000 + 0x10004
/-- RNG_ADM_RSV_ME, offset 0x10040 (R28). -/
def Reg.RNG_ADM_RSV_ME : Nat := 0x00000000 + 0x10040
/-- RNG_ADM_RSV_GC_LO, offset 0x10044 (R28). -/
def Reg.RNG_ADM_RSV_GC_LO : Nat := 0x00000000 + 0x10044
/-- RNG_ADM_RSV_GC_HI, offset 0x10048 (R28). -/
def Reg.RNG_ADM_RSV_GC_HI : Nat := 0x00000000 + 0x10048
/-- RNG_ADM_RSV_UNITS, offset 0x1004C (R28). -/
def Reg.RNG_ADM_RSV_UNITS : Nat := 0x00000000 + 0x1004C
/-- RNG_ADM_RSV_T0, offset 0x10050 (R28). -/
def Reg.RNG_ADM_RSV_T0 : Nat := 0x00000000 + 0x10050
/-- RNG_ADM_RSV_T1, offset 0x10054 (R28). -/
def Reg.RNG_ADM_RSV_T1 : Nat := 0x00000000 + 0x10054
/-- RNG_ADM_RSV_LOFT, offset 0x10058 (R28). -/
def Reg.RNG_ADM_RSV_LOFT : Nat := 0x00000000 + 0x10058
/-- RNG_ADM_RSV_TAGS, offset 0x1005C (R28). -/
def Reg.RNG_ADM_RSV_TAGS : Nat := 0x00000000 + 0x1005C
/-- RNG_ADM_RSV_SEM, offset 0x10060 (R28). -/
def Reg.RNG_ADM_RSV_SEM : Nat := 0x00000000 + 0x10060
/-- RNG_ADM_RSV_SWMIN, offset 0x10064 (R28). -/
def Reg.RNG_ADM_RSV_SWMIN : Nat := 0x00000000 + 0x10064
/-- RNG_VIOL_TOTAL_LO, offset 0x10100 (R67). -/
def Reg.RNG_VIOL_TOTAL_LO : Nat := 0x00000000 + 0x10100
/-- RNG_VIOL_TOTAL_HI, offset 0x10104 (R67). -/
def Reg.RNG_VIOL_TOTAL_HI : Nat := 0x00000000 + 0x10104
/-- RNG_VIOL_LAST, offset 0x10108 (R67). -/
def Reg.RNG_VIOL_LAST : Nat := 0x00000000 + 0x10108
/-- RNG_VIOL_ADDR_LO, offset 0x1010C (R67). -/
def Reg.RNG_VIOL_ADDR_LO : Nat := 0x00000000 + 0x1010C
/-- RNG_VIOL_ADDR_HI, offset 0x10110 (R67). -/
def Reg.RNG_VIOL_ADDR_HI : Nat := 0x00000000 + 0x10110
/-- RNG_VIOL_CLEAR, offset 0x10114 (R67). -/
def Reg.RNG_VIOL_CLEAR : Nat := 0x00000000 + 0x10114
/-- RNG_VIOL_PART, offset 0x10200 (R67). -/
def Reg.RNG_VIOL_PART (i : Nat) : Nat := 0x00000000 + 0x10200 + i * 4
/-- RNG_COMP_ADMIT, offset 0x10300 (R348). -/
def Reg.RNG_COMP_ADMIT (i : Nat) : Nat := 0x00000000 + 0x10300 + i * 4
/-- RNG_COMP_TIMEOUT, offset 0x10380 (R348). -/
def Reg.RNG_COMP_TIMEOUT : Nat := 0x00000000 + 0x10380
/-- RNG_ERR_CTRL, offset 0x20000 (R380). -/
def Reg.RNG_ERR_CTRL : Nat := 0x00000000 + 0x20000
/-- RNG_ERR_SEQ, offset 0x20004 (R380). -/
def Reg.RNG_ERR_SEQ : Nat := 0x00000000 + 0x20004
/-- RNG_ERR_ACKED, offset 0x20008 (R380). -/
def Reg.RNG_ERR_ACKED : Nat := 0x00000000 + 0x20008
/-- RNG_ERR_QUEUED, offset 0x2000C (R380). -/
def Reg.RNG_ERR_QUEUED : Nat := 0x00000000 + 0x2000C
/-- RNG_ERR_DROPPED, offset 0x20010 (R380). -/
def Reg.RNG_ERR_DROPPED : Nat := 0x00000000 + 0x20010
/-- RNG_ERR_RESEND, offset 0x20014 (R380). -/
def Reg.RNG_ERR_RESEND : Nat := 0x00000000 + 0x20014
/-- RNG_ERR_READ_SEL, offset 0x20020 (R380). -/
def Reg.RNG_ERR_READ_SEL : Nat := 0x00000000 + 0x20020
/-- RNG_ERR_READ, offset 0x20040 (R380). -/
def Reg.RNG_ERR_READ (i : Nat) : Nat := 0x00000000 + 0x20040 + i * 4
/-- RNG_FT_TARGET, offset 0x30000 (R381). -/
def Reg.RNG_FT_TARGET : Nat := 0x00000000 + 0x30000
/-- RNG_FT_CONTENT, offset 0x30004 (R381). -/
def Reg.RNG_FT_CONTENT : Nat := 0x00000000 + 0x30004
/-- RNG_FT_MARGIN, offset 0x30008 (R381). -/
def Reg.RNG_FT_MARGIN : Nat := 0x00000000 + 0x30008
/-- RNG_FT_EXPIRY, offset 0x3000C (R381). -/
def Reg.RNG_FT_EXPIRY : Nat := 0x00000000 + 0x3000C
/-- RNG_FT_CTRL, offset 0x30010 (R381). -/
def Reg.RNG_FT_CTRL : Nat := 0x00000000 + 0x30010
/-- RNG_FT_STATUS, offset 0x30014 (R381). -/
def Reg.RNG_FT_STATUS : Nat := 0x00000000 + 0x30014
/-- RNG_FT_RESULT, offset 0x30018 (R381). -/
def Reg.RNG_FT_RESULT : Nat := 0x00000000 + 0x30018
/-- RNG_FT_TJ, offset 0x3001C (R381). -/
def Reg.RNG_FT_TJ : Nat := 0x00000000 + 0x3001C
/-- RNG_FT_PASS, offset 0x30020 (R381). -/
def Reg.RNG_FT_PASS : Nat := 0x00000000 + 0x30020
/-- RNG_FT_FAIL, offset 0x30024 (R381). -/
def Reg.RNG_FT_FAIL : Nat := 0x00000000 + 0x30024
/-- RNG_FT_DEFERRED, offset 0x30028 (R381). -/
def Reg.RNG_FT_DEFERRED : Nat := 0x00000000 + 0x30028
/-- RNG_FT_ABANDONED, offset 0x3002C (R381). -/
def Reg.RNG_FT_ABANDONED : Nat := 0x00000000 + 0x3002C
/-- RNG_FT_WITHHELD, offset 0x30030 (R381). -/
def Reg.RNG_FT_WITHHELD : Nat := 0x00000000 + 0x30030
/-- RNG_FT_RESULT_STEP, offset 0x30034 (R381). -/
def Reg.RNG_FT_RESULT_STEP : Nat := 0x00000000 + 0x30034
/-- RNG_FT_RUN_INST, offset 0x30038 (R381). -/
def Reg.RNG_FT_RUN_INST : Nat := 0x00000000 + 0x30038
/-- RNG_FT_CONTENT_SEL, offset 0x30040 (R381). -/
def Reg.RNG_FT_CONTENT_SEL : Nat := 0x00000000 + 0x30040
/-- RNG_FT_CONTENT_INFO, offset 0x30044 (R381). -/
def Reg.RNG_FT_CONTENT_INFO : Nat := 0x00000000 + 0x30044
/-- RNG_FT_CONTENT_VER, offset 0x30048 (R381). -/
def Reg.RNG_FT_CONTENT_VER : Nat := 0x00000000 + 0x30048
/-- RNG_FT_IRQ_CAUSE, offset 0x30080 (R381). -/
def Reg.RNG_FT_IRQ_CAUSE : Nat := 0x00000000 + 0x30080
/-- RNG_FT_IRQ_MASK, offset 0x30084 (R381). -/
def Reg.RNG_FT_IRQ_MASK : Nat := 0x00000000 + 0x30084
/-- RNG_LCC_LO, offset 0x40000 (R415). -/
def Reg.RNG_LCC_LO : Nat := 0x00000000 + 0x40000
/-- RNG_LCC_HI, offset 0x40004 (R415). -/
def Reg.RNG_LCC_HI : Nat := 0x00000000 + 0x40004
/-- RNG_RESET_CAUSE, offset 0x40010 (R415). -/
def Reg.RNG_RESET_CAUSE : Nat := 0x00000000 + 0x40010
/-- RNG_RESET_CTRL, offset 0x40014 (R415). -/
def Reg.RNG_RESET_CTRL : Nat := 0x00000000 + 0x40014
/-- RNG_PWR_STATE, offset 0x40020 (R415). -/
def Reg.RNG_PWR_STATE : Nat := 0x00000000 + 0x40020
/-- RNG_PWR_CTRL, offset 0x40024 (R415). -/
def Reg.RNG_PWR_CTRL : Nat := 0x00000000 + 0x40024
/-- RNG_PWR_NOW, offset 0x40028 (R415). -/
def Reg.RNG_PWR_NOW : Nat := 0x00000000 + 0x40028
/-- RNG_THROTTLE, offset 0x4002C (R415). -/
def Reg.RNG_THROTTLE : Nat := 0x00000000 + 0x4002C
/-- RNG_TJ, offset 0x40030 (R415). -/
def Reg.RNG_TJ : Nat := 0x00000000 + 0x40030
/-- RNG_PWR_IRQ_CAUSE, offset 0x40080 (R415). -/
def Reg.RNG_PWR_IRQ_CAUSE : Nat := 0x00000000 + 0x40080
/-- RNG_PWR_IRQ_MASK, offset 0x40084 (R415). -/
def Reg.RNG_PWR_IRQ_MASK : Nat := 0x00000000 + 0x40084
/-- RNG_UID_LO, offset 0x50000 (R416). -/
def Reg.RNG_UID_LO : Nat := 0x00000000 + 0x50000
/-- RNG_UID_HI, offset 0x50004 (R416). -/
def Reg.RNG_UID_HI : Nat := 0x00000000 + 0x50004
/-- RNG_MEAS_SEL, offset 0x50010 (R416). -/
def Reg.RNG_MEAS_SEL : Nat := 0x00000000 + 0x50010
/-- RNG_MEAS, offset 0x50020 (R416). -/
def Reg.RNG_MEAS (i : Nat) : Nat := 0x00000000 + 0x50020 + i * 4
/-- RNG_ID_SIG_CTR_LO, offset 0x50040 (R416). -/
def Reg.RNG_ID_SIG_CTR_LO : Nat := 0x00000000 + 0x50040
/-- RNG_ID_SIG_CTR_HI, offset 0x50044 (R416). -/
def Reg.RNG_ID_SIG_CTR_HI : Nat := 0x00000000 + 0x50044
/-- RNG_FUSE_STATUS, offset 0x50048 (R416). -/
def Reg.RNG_FUSE_STATUS : Nat := 0x00000000 + 0x50048
/-- RNG_DBG_STATUS, offset 0x50050 (R416). -/
def Reg.RNG_DBG_STATUS : Nat := 0x00000000 + 0x50050
/-- RNG_DBG_CHALLENGE_LO, offset 0x50054 (R416). -/
def Reg.RNG_DBG_CHALLENGE_LO : Nat := 0x00000000 + 0x50054
/-- RNG_DBG_CHALLENGE_HI, offset 0x50058 (R416). -/
def Reg.RNG_DBG_CHALLENGE_HI : Nat := 0x00000000 + 0x50058
/-- RNG_DBG_CTRL, offset 0x5005C (R416). -/
def Reg.RNG_DBG_CTRL : Nat := 0x00000000 + 0x5005C
/-- RNG_SEC_IRQ_CAUSE, offset 0x50080 (R416). -/
def Reg.RNG_SEC_IRQ_CAUSE : Nat := 0x00000000 + 0x50080
/-- RNG_SEC_IRQ_MASK, offset 0x50084 (R416). -/
def Reg.RNG_SEC_IRQ_MASK : Nat := 0x00000000 + 0x50084
/-- RNG_NET_STATUS, offset 0x60000 (R440). -/
def Reg.RNG_NET_STATUS : Nat := 0x00000000 + 0x60000
/-- RNG_I3C_STATUS, offset 0x60004 (R440). -/
def Reg.RNG_I3C_STATUS : Nat := 0x00000000 + 0x60004
/-- RNG_XFER_STATUS, offset 0x60008 (R440). -/
def Reg.RNG_XFER_STATUS : Nat := 0x00000000 + 0x60008
/-- RNG_NET_DROPPED, offset 0x60010 (R440). -/
def Reg.RNG_NET_DROPPED : Nat := 0x00000000 + 0x60010
def RegMap.rngRows0 : List RegRow := [
  ⟨0x100, 1, 4, 0x0, 0x0, 0x0, .one⟩,
  ⟨0x104, 1, 4, 0x7FFF, 0x0, 0x0, .one⟩,
  ⟨0x140, 14, 4, 0x0, 0x0, 0x0, .one⟩,
  ⟨0x178, 1, 4, 0x0, 0x0, 0x0, .one⟩,
  ⟨0x180, 14, 4, 0xFFFFFFFF, 0x0, 0x0, .one⟩,
  ⟨0x1B8, 1, 4, 0xFFFFFFFF, 0x0, 0x0, .one⟩,
  ⟨0x200, 1, 4, 0x0, 0xF, 0x0, .one⟩,
  ⟨0x204, 1, 4, 0xF, 0x0, 0x0, .one⟩,
  ⟨0x10000, 1, 4, 0x1F, 0x0, 0x300, .one⟩,
  ⟨0x10004, 1, 4, 0x0, 0x0, 0x0, .one⟩,
  ⟨0x10040, 1, 4, 0xFFFFFFFF, 0x0, 0x0, .one⟩,
  ⟨0x10044, 1, 4, 0xFFFFFFFF, 0x0, 0x0, .lo⟩,
  ⟨0x10048, 1, 4, 0xFFFFFFFF, 0x0, 0x0, .hi⟩,
  ⟨0x1004C, 1, 4, 0xFFFFFFFF, 0x0, 0x0, .one⟩,
  ⟨0x10050, 1, 4, 0x7FFF, 0x0, 0x0, .one⟩,
  ⟨0x10054, 1, 4, 0x7FFF, 0x0, 0x0, .one⟩]
def RegMap.rngRows1 : List RegRow := [
  ⟨0x10058, 1, 4, 0x7FFF, 0x0, 0x0, .one⟩,
  ⟨0x1005C, 1, 4, 0x7F003FFF, 0x0, 0x0, .one⟩,
  ⟨0x10060, 1, 4, 0xFFF80FFF, 0x0, 0x0, .one⟩,
  ⟨0x10064, 1, 4, 0xFFFFFFFF, 0x0, 0x0, .one⟩,
  ⟨0x10100, 1, 4, 0x0, 0x0, 0x0, .lo⟩,
  ⟨0x10104, 1, 4, 0x0, 0x0, 0x0, .hi⟩,
  ⟨0x10108, 1, 4, 0x0, 0x0, 0x0, .one⟩,
  ⟨0x1010C, 1, 4, 0x0, 0x0, 0x0, .lo⟩,
  ⟨0x10110, 1, 4, 0x0, 0x0, 0x0, .hi⟩,
  ⟨0x10114, 1, 4, 0x0, 0x0, 0x1, .one⟩,
  ⟨0x10200, 32, 4, 0x0, 0x0, 0x0, .one⟩,
  ⟨0x10300, 32, 4, 0xFFFF, 0x0, 0x0, .one⟩,
  ⟨0x10380, 1, 4, 0xFFFFFFFF, 0x0, 0x0, .one⟩,
  ⟨0x20000, 1, 4, 0xC0000007, 0x0, 0x0, .one⟩,
  ⟨0x20004, 1, 4, 0x0, 0x0, 0x0, .one⟩,
  ⟨0x20008, 1, 4, 0x0, 0x0, 0x0, .one⟩]
def RegMap.rngRows2 : List RegRow := [
  ⟨0x2000C, 1, 4, 0x0, 0x0, 0x0, .one⟩,
  ⟨0x20010, 1, 4, 0x0, 0x0, 0x0, .one⟩,
  ⟨0x20014, 1, 4, 0xFFFFFFFF, 0x0, 0x0, .one⟩,
  ⟨0x20020, 1, 4, 0xFFFFFFFF, 0x0, 0x0, .one⟩,
  ⟨0x20040, 16, 4, 0x0, 0x0, 0x0, .one⟩,
  ⟨0x30000, 1, 4, 0xF0000FFF, 0x0, 0x0, .one⟩,
  ⟨0x30004, 1, 4, 0xFFFF, 0x0, 0x0, .one⟩,
  ⟨0x30008, 1, 4, 0x1F07, 0x0, 0x0, .one⟩,
  ⟨0x3000C, 1, 4, 0xFFFFFFFF, 0x0, 0x0, .one⟩,
  ⟨0x30010, 1, 4, 0xFF00, 0x0, 0x3, .one⟩,
  ⟨0x30014, 1, 4, 0x0, 0x0, 0x0, .one⟩,
  ⟨0x30018, 1, 4, 0x0, 0x0, 0x0, .one⟩,
  ⟨0x3001C, 1, 4, 0x0, 0x0, 0x0, .one⟩,
  ⟨0x30020, 1, 4, 0x0, 0x0, 0x0, .one⟩,
  ⟨0x30024, 1, 4, 0x0, 0x0, 0x0, .one⟩,
  ⟨0x30028, 1, 4, 0x0, 0x0, 0x0, .one⟩]
def RegMap.rngRows3 : List RegRow := [
  ⟨0x3002C, 1, 4, 0x0, 0x0, 0x0, .one⟩,
  ⟨0x30030, 1, 4, 0x0, 0x0, 0x0, .one⟩,
  ⟨0x30034, 1, 4, 0x0, 0x0, 0x0, .one⟩,
  ⟨0x30038, 1, 4, 0x0, 0x0, 0x0, .one⟩,
  ⟨0x30040, 1, 4, 0x3F, 0x0, 0x0, .one⟩,
  ⟨0x30044, 1, 4, 0x0, 0x0, 0x0, .one⟩,
  ⟨0x30048, 1, 4, 0x0, 0x0, 0x0, .one⟩,
  ⟨0x30080, 1, 4, 0x0, 0x1F, 0x0, .one⟩,
  ⟨0x30084, 1, 4, 0x1F, 0x0, 0x0, .one⟩,
  ⟨0x40000, 1, 4, 0x0, 0x0, 0x0, .lo⟩,
  ⟨0x40004, 1, 4, 0x0, 0x0, 0x0, .hi⟩,
  ⟨0x40010, 1, 4, 0x0, 0x0, 0x0, .one⟩,
  ⟨0x40014, 1, 4, 0x73F, 0x0, 0x80000800, .one⟩,
  ⟨0x40020, 1, 4, 0x0, 0x0, 0x0, .one⟩,
  ⟨0x40024, 1, 4, 0x0, 0x0, 0x3, .one⟩,
  ⟨0x40028, 1, 4, 0x0, 0x0, 0x0, .one⟩]
def RegMap.rngRows4 : List RegRow := [
  ⟨0x4002C, 1, 4, 0x0, 0x0, 0x0, .one⟩,
  ⟨0x40030, 1, 4, 0x0, 0x0, 0x0, .one⟩,
  ⟨0x40080, 1, 4, 0x0, 0x1F, 0x0, .one⟩,
  ⟨0x40084, 1, 4, 0x1F, 0x0, 0x0, .one⟩,
  ⟨0x50000, 1, 4, 0x0, 0x0, 0x0, .lo⟩,
  ⟨0x50004, 1, 4, 0x0, 0x0, 0x0, .hi⟩,
  ⟨0x50010, 1, 4, 0x7, 0x0, 0x0, .one⟩,
  ⟨0x50020, 8, 4, 0x0, 0x0, 0x0, .one⟩,
  ⟨0x50040, 1, 4, 0x0, 0x0, 0x0, .lo⟩,
  ⟨0x50044, 1, 4, 0x0, 0x0, 0x0, .hi⟩,
  ⟨0x50048, 1, 4, 0x0, 0x0, 0x0, .one⟩,
  ⟨0x50050, 1, 4, 0x0, 0x0, 0x0, .one⟩,
  ⟨0x50054, 1, 4, 0x0, 0x0, 0x0, .lo⟩,
  ⟨0x50058, 1, 4, 0x0, 0x0, 0x0, .hi⟩,
  ⟨0x5005C, 1, 4, 0x0, 0x0, 0x3, .one⟩,
  ⟨0x50080, 1, 4, 0x0, 0xF, 0x0, .one⟩]
def RegMap.rngRows5 : List RegRow := [
  ⟨0x50084, 1, 4, 0xF, 0x0, 0x0, .one⟩,
  ⟨0x60000, 1, 4, 0x0, 0x0, 0x0, .one⟩,
  ⟨0x60004, 1, 4, 0x0, 0x0, 0x0, .one⟩,
  ⟨0x60008, 1, 4, 0x0, 0x0, 0x0, .one⟩,
  ⟨0x60010, 1, 4, 0x0, 0x0, 0x0, .one⟩]
/-- The registers of a rng block. -/
def RegMap.rngRows : List RegRow := RegMap.rngRows0 ++ RegMap.rngRows1 ++ RegMap.rngRows2 ++ RegMap.rngRows3 ++ RegMap.rngRows4 ++ RegMap.rngRows5
/-- Reset values of a rng block that are not zero. -/
def RegMap.rngReset : List (Nat × Nat) := [(0x20000, 0xC0000003), (0x20014, 0xF4240), (0x30000, 0xFFF), (0x3000C, 0x36EE80), (0x40010, 0x1), (0x4002C, 0x10101010)]
/-! ### Registers of the cfg block -/
/-- CFG_IMAGE, offset 0x0 (R417). -/
def Reg.CFG_IMAGE : Nat := 0x00800000 + 0x0
/-- CFG_IMAGE_VER, offset 0x4 (R417). -/
def Reg.CFG_IMAGE_VER : Nat := 0x00800000 + 0x4
/-- CFG_IMAGE_CTRL, offset 0x8 (R417). -/
def Reg.CFG_IMAGE_CTRL : Nat := 0x00800000 + 0x8
/-- CFG_BOOT_TIME, offset 0xC (R417). -/
def Reg.CFG_BOOT_TIME : Nat := 0x00800000 + 0xC
/-- CFG_PARAM_STATUS, offset 0x10 (R417). -/
def Reg.CFG_PARAM_STATUS : Nat := 0x00800000 + 0x10
/-- CFG_ACTIVE_VER, offset 0x14 (R417). -/
def Reg.CFG_ACTIVE_VER : Nat := 0x00800000 + 0x14
/-- CFG_SHADOW_VER, offset 0x18 (R417). -/
def Reg.CFG_SHADOW_VER : Nat := 0x00800000 + 0x18
/-- CFG_SWAP, offset 0x20 (R417). -/
def Reg.CFG_SWAP : Nat := 0x00800000 + 0x20
/-- CFG_PARAM_SEL, offset 0x24 (R417). -/
def Reg.CFG_PARAM_SEL : Nat := 0x00800000 + 0x24
/-- CFG_PARAM_VAL, offset 0x28 (R417). -/
def Reg.CFG_PARAM_VAL : Nat := 0x00800000 + 0x28
/-- CFG_IRQ_CAUSE, offset 0x80 (R417). -/
def Reg.CFG_IRQ_CAUSE : Nat := 0x00800000 + 0x80
/-- CFG_IRQ_MASK, offset 0x84 (R417). -/
def Reg.CFG_IRQ_MASK : Nat := 0x00800000 + 0x84
def RegMap.cfgRows0 : List RegRow := [
  ⟨0x0, 1, 4, 0x0, 0x0, 0x0, .one⟩,
  ⟨0x4, 1, 4, 0x0, 0x0, 0x0, .one⟩,
  ⟨0x8, 1, 4, 0x10, 0x0, 0x1, .one⟩,
  ⟨0xC, 1, 4, 0x0, 0x0, 0x0, .one⟩,
  ⟨0x10, 1, 4, 0x0, 0x0, 0x0, .one⟩,
  ⟨0x14, 1, 4, 0x0, 0x0, 0x0, .one⟩,
  ⟨0x18, 1, 4, 0x0, 0x0, 0x0, .one⟩,
  ⟨0x20, 1, 4, 0x0, 0x0, 0x1, .one⟩,
  ⟨0x24, 1, 4, 0x13F, 0x0, 0x0, .one⟩,
  ⟨0x28, 1, 4, 0x0, 0x0, 0x0, .one⟩,
  ⟨0x80, 1, 4, 0x0, 0xF, 0x0, .one⟩,
  ⟨0x84, 1, 4, 0xF, 0x0, 0x0, .one⟩]
/-- The registers of a cfg block. -/
def RegMap.cfgRows : List RegRow := RegMap.cfgRows0
/-! ### Registers of the hub block -/
/-- HUB_T1_MAP, offset 0x0 (R160). -/
def Reg.HUB_T1_MAP (h : Nat) : Nat := 0x01000000 + h * 0x00800000 + 0x0
/-- HUB_STACK_STATUS, offset 0x10 (R160). -/
def Reg.HUB_STACK_STATUS (h : Nat) (i : Nat) : Nat := 0x01000000 + h * 0x00800000 + 0x10 + i * 4
/-- HUB_T1_CE_LO, offset 0x20 (R160). -/
def Reg.HUB_T1_CE_LO (h : Nat) : Nat := 0x01000000 + h * 0x00800000 + 0x20
/-- HUB_T1_CE_HI, offset 0x24 (R160). -/
def Reg.HUB_T1_CE_HI (h : Nat) : Nat := 0x01000000 + h * 0x00800000 + 0x24
/-- HUB_T1_UE, offset 0x28 (R160). -/
def Reg.HUB_T1_UE (h : Nat) : Nat := 0x01000000 + h * 0x00800000 + 0x28
/-- HUB_T1_LAST_LO, offset 0x30 (R160). -/
def Reg.HUB_T1_LAST_LO (h : Nat) : Nat := 0x01000000 + h * 0x00800000 + 0x30
/-- HUB_T1_LAST_HI, offset 0x34 (R160). -/
def Reg.HUB_T1_LAST_HI (h : Nat) : Nat := 0x01000000 + h * 0x00800000 + 0x34
/-- HUB_T1_LAST_SYND, offset 0x38 (R160). -/
def Reg.HUB_T1_LAST_SYND (h : Nat) : Nat := 0x01000000 + h * 0x00800000 + 0x38
/-- HUB_SCRUB_CTRL, offset 0x40 (R160). -/
def Reg.HUB_SCRUB_CTRL (h : Nat) : Nat := 0x01000000 + h * 0x00800000 + 0x40
/-- HUB_SCRUB_PASSES, offset 0x44 (R160). -/
def Reg.HUB_SCRUB_PASSES (h : Nat) : Nat := 0x01000000 + h * 0x00800000 + 0x44
/-- HUB_T0_CE, offset 0x50 (R160). -/
def Reg.HUB_T0_CE (h : Nat) : Nat := 0x01000000 + h * 0x00800000 + 0x50
/-- HUB_T0_UE, offset 0x54 (R160). -/
def Reg.HUB_T0_UE (h : Nat) : Nat := 0x01000000 + h * 0x00800000 + 0x54
/-- HUB_MEM_IRQ_CAUSE, offset 0x80 (R160). -/
def Reg.HUB_MEM_IRQ_CAUSE (h : Nat) : Nat := 0x01000000 + h * 0x00800000 + 0x80
/-- HUB_MEM_IRQ_MASK, offset 0x84 (R160). -/
def Reg.HUB_MEM_IRQ_MASK (h : Nat) : Nat := 0x01000000 + h * 0x00800000 + 0x84
/-- HUB_MIRROR_SEL, offset 0x100 (R160). -/
def Reg.HUB_MIRROR_SEL (h : Nat) : Nat := 0x01000000 + h * 0x00800000 + 0x100
/-- HUB_MIRROR_A, offset 0x104 (R160). -/
def Reg.HUB_MIRROR_A (h : Nat) : Nat := 0x01000000 + h * 0x00800000 + 0x104
/-- HUB_MIRROR_B, offset 0x108 (R160). -/
def Reg.HUB_MIRROR_B (h : Nat) : Nat := 0x01000000 + h * 0x00800000 + 0x108
/-- HUB_MIRROR_CMD, offset 0x10C (R160). -/
def Reg.HUB_MIRROR_CMD (h : Nat) : Nat := 0x01000000 + h * 0x00800000 + 0x10C
/-- HUB_MIRROR_C, offset 0x110 (R160). -/
def Reg.HUB_MIRROR_C (h : Nat) : Nat := 0x01000000 + h * 0x00800000 + 0x110
/-- HUB_MIRROR_RATE, offset 0x114 (R160). -/
def Reg.HUB_MIRROR_RATE (h : Nat) : Nat := 0x01000000 + h * 0x00800000 + 0x114
/-- HUB_MIRROR_IGNORED, offset 0x118 (R160). -/
def Reg.HUB_MIRROR_IGNORED (h : Nat) : Nat := 0x01000000 + h * 0x00800000 + 0x118
def RegMap.hubRows0 : List RegRow := [
  ⟨0x0, 1, 4, 0x0, 0x0, 0x0, .one⟩,
  ⟨0x10, 3, 4, 0x0, 0x0, 0x0, .one⟩,
  ⟨0x20, 1, 4, 0x0, 0x0, 0x0, .lo⟩,
  ⟨0x24, 1, 4, 0x0, 0x0, 0x0, .hi⟩,
  ⟨0x28, 1, 4, 0x0, 0x0, 0x0, .one⟩,
  ⟨0x30, 1, 4, 0x0, 0x0, 0x0, .lo⟩,
  ⟨0x34, 1, 4, 0x0, 0x0, 0x0, .hi⟩,
  ⟨0x38, 1, 4, 0x0, 0x0, 0x0, .one⟩,
  ⟨0x40, 1, 4, 0x8000FFFF, 0x0, 0x0, .one⟩,
  ⟨0x44, 1, 4, 0x0, 0x0, 0x0, .one⟩,
  ⟨0x50, 1, 4, 0x0, 0x0, 0x0, .one⟩,
  ⟨0x54, 1, 4, 0x0, 0x0, 0x0, .one⟩,
  ⟨0x80, 1, 4, 0x0, 0x3F, 0x0, .one⟩,
  ⟨0x84, 1, 4, 0x3F, 0x0, 0x0, .one⟩,
  ⟨0x100, 1, 4, 0x7FF, 0x0, 0x0, .one⟩,
  ⟨0x104, 1, 4, 0x1FFF87FF, 0x0, 0x0, .one⟩]
def RegMap.hubRows1 : List RegRow := [
  ⟨0x108, 1, 4, 0x3FFFFF, 0x0, 0x0, .one⟩,
  ⟨0x10C, 1, 4, 0x0, 0x0, 0xF, .one⟩,
  ⟨0x110, 1, 4, 0xFFF, 0x0, 0x0, .one⟩,
  ⟨0x114, 1, 4, 0xFFFFFFFF, 0x0, 0x0, .one⟩,
  ⟨0x118, 1, 4, 0x0, 0x0, 0x0, .one⟩]
/-- The registers of a hub block. -/
def RegMap.hubRows : List RegRow := RegMap.hubRows0 ++ RegMap.hubRows1
/-- Reset values of a hub block that are not zero. -/
def RegMap.hubReset : List (Nat × Nat) := [(0x40, 0x80000018), (0x114, 0x14)]
/-! ### Registers of the dir block -/
/-- DIR_STATUS, offset 0x0 (R222). -/
def Reg.DIR_STATUS (h : Nat) : Nat := 0x01100000 + h * 0x00800000 + 0x0
/-- DIR_TRANSIENT, offset 0x4 (R222). -/
def Reg.DIR_TRANSIENT (h : Nat) : Nat := 0x01100000 + h * 0x00800000 + 0x4
/-- DIR_SUSPECT_SETS, offset 0x8 (R222). -/
def Reg.DIR_SUSPECT_SETS (h : Nat) : Nat := 0x01100000 + h * 0x00800000 + 0x8
/-- DIR_EVICT_LO, offset 0x10 (R222). -/
def Reg.DIR_EVICT_LO (h : Nat) : Nat := 0x01100000 + h * 0x00800000 + 0x10
/-- DIR_EVICT_HI, offset 0x14 (R222). -/
def Reg.DIR_EVICT_HI (h : Nat) : Nat := 0x01100000 + h * 0x00800000 + 0x14
/-- DIR_BCAST, offset 0x18 (R222). -/
def Reg.DIR_BCAST (h : Nat) : Nat := 0x01100000 + h * 0x00800000 + 0x18
/-- DIR_PINV_SENT_LO, offset 0x20 (R222). -/
def Reg.DIR_PINV_SENT_LO (h : Nat) : Nat := 0x01100000 + h * 0x00800000 + 0x20
/-- DIR_PINV_SENT_HI, offset 0x24 (R222). -/
def Reg.DIR_PINV_SENT_HI (h : Nat) : Nat := 0x01100000 + h * 0x00800000 + 0x24
/-- DIR_BISNP_SENT_LO, offset 0x28 (R222). -/
def Reg.DIR_BISNP_SENT_LO (h : Nat) : Nat := 0x01100000 + h * 0x00800000 + 0x28
/-- DIR_BISNP_SENT_HI, offset 0x2C (R222). -/
def Reg.DIR_BISNP_SENT_HI (h : Nat) : Nat := 0x01100000 + h * 0x00800000 + 0x2C
/-- DIR_LOST_POISONED, offset 0x30 (R222). -/
def Reg.DIR_LOST_POISONED (h : Nat) : Nat := 0x01100000 + h * 0x00800000 + 0x30
/-- DIR_ORPHANS, offset 0x34 (R222). -/
def Reg.DIR_ORPHANS (h : Nat) : Nat := 0x01100000 + h * 0x00800000 + 0x34
/-- DIR_PROTO_ERR, offset 0x38 (R222). -/
def Reg.DIR_PROTO_ERR (h : Nat) : Nat := 0x01100000 + h * 0x00800000 + 0x38
/-- DIR_PROTO_LAST, offset 0x3C (R222). -/
def Reg.DIR_PROTO_LAST (h : Nat) : Nat := 0x01100000 + h * 0x00800000 + 0x3C
/-- DIR_CE, offset 0x40 (R222). -/
def Reg.DIR_CE (h : Nat) : Nat := 0x01100000 + h * 0x00800000 + 0x40
/-- DIR_UE, offset 0x44 (R222). -/
def Reg.DIR_UE (h : Nat) : Nat := 0x01100000 + h * 0x00800000 + 0x44
/-- DIR_RLC_HIT_LO, offset 0x50 (R222). -/
def Reg.DIR_RLC_HIT_LO (h : Nat) : Nat := 0x01100000 + h * 0x00800000 + 0x50
/-- DIR_RLC_HIT_HI, offset 0x54 (R222). -/
def Reg.DIR_RLC_HIT_HI (h : Nat) : Nat := 0x01100000 + h * 0x00800000 + 0x54
/-- DIR_RLC_FILL, offset 0x58 (R222). -/
def Reg.DIR_RLC_FILL (h : Nat) : Nat := 0x01100000 + h * 0x00800000 + 0x58
/-- DIR_RLC_KILLED, offset 0x5C (R222). -/
def Reg.DIR_RLC_KILLED (h : Nat) : Nat := 0x01100000 + h * 0x00800000 + 0x5C
/-- DIR_RLC_INV, offset 0x60 (R222). -/
def Reg.DIR_RLC_INV (h : Nat) : Nat := 0x01100000 + h * 0x00800000 + 0x60
/-- DIR_RLC_PURGE, offset 0x64 (R222). -/
def Reg.DIR_RLC_PURGE (h : Nat) : Nat := 0x01100000 + h * 0x00800000 + 0x64
/-- DIR_BI_TIMEOUT, offset 0x70 (R222). -/
def Reg.DIR_BI_TIMEOUT (h : Nat) : Nat := 0x01100000 + h * 0x00800000 + 0x70
/-- DIR_HOST_LOST, offset 0x74 (R222). -/
def Reg.DIR_HOST_LOST (h : Nat) : Nat := 0x01100000 + h * 0x00800000 + 0x74
/-- DIR_PEEK_ADDR_LO, offset 0x80 (R222). -/
def Reg.DIR_PEEK_ADDR_LO (h : Nat) : Nat := 0x01100000 + h * 0x00800000 + 0x80
/-- DIR_PEEK_ADDR_HI, offset 0x84 (R222). -/
def Reg.DIR_PEEK_ADDR_HI (h : Nat) : Nat := 0x01100000 + h * 0x00800000 + 0x84
/-- DIR_PEEK_DATA, offset 0x88 (R222). -/
def Reg.DIR_PEEK_DATA (h : Nat) (i : Nat) : Nat := 0x01100000 + h * 0x00800000 + 0x88 + i * 4
/-- DIR_IRQ_CAUSE, offset 0xC0 (R222). -/
def Reg.DIR_IRQ_CAUSE (h : Nat) : Nat := 0x01100000 + h * 0x00800000 + 0xC0
/-- DIR_IRQ_MASK, offset 0xC4 (R222). -/
def Reg.DIR_IRQ_MASK (h : Nat) : Nat := 0x01100000 + h * 0x00800000 + 0xC4
def RegMap.dirRows0 : List RegRow := [
  ⟨0x0, 1, 4, 0x0, 0x0, 0x0, .one⟩,
  ⟨0x4, 1, 4, 0x0, 0x0, 0x0, .one⟩,
  ⟨0x8, 1, 4, 0x0, 0x0, 0x0, .one⟩,
  ⟨0x10, 1, 4, 0x0, 0x0, 0x0, .lo⟩,
  ⟨0x14, 1, 4, 0x0, 0x0, 0x0, .hi⟩,
  ⟨0x18, 1, 4, 0x0, 0x0, 0x0, .one⟩,
  ⟨0x20, 1, 4, 0x0, 0x0, 0x0, .lo⟩,
  ⟨0x24, 1, 4, 0x0, 0x0, 0x0, .hi⟩,
  ⟨0x28, 1, 4, 0x0, 0x0, 0x0, .lo⟩,
  ⟨0x2C, 1, 4, 0x0, 0x0, 0x0, .hi⟩,
  ⟨0x30, 1, 4, 0x0, 0x0, 0x0, .one⟩,
  ⟨0x34, 1, 4, 0x0, 0x0, 0x0, .one⟩,
  ⟨0x38, 1, 4, 0x0, 0x0, 0x0, .one⟩,
  ⟨0x3C, 1, 4, 0x0, 0x0, 0x0, .one⟩,
  ⟨0x40, 1, 4, 0x0, 0x0, 0x0, .one⟩,
  ⟨0x44, 1, 4, 0x0, 0x0, 0x0, .one⟩]
def RegMap.dirRows1 : List RegRow := [
  ⟨0x50, 1, 4, 0x0, 0x0, 0x0, .lo⟩,
  ⟨0x54, 1, 4, 0x0, 0x0, 0x0, .hi⟩,
  ⟨0x58, 1, 4, 0x0, 0x0, 0x0, .one⟩,
  ⟨0x5C, 1, 4, 0x0, 0x0, 0x0, .one⟩,
  ⟨0x60, 1, 4, 0x0, 0x0, 0x0, .one⟩,
  ⟨0x64, 1, 4, 0x0, 0x0, 0x0, .one⟩,
  ⟨0x70, 1, 4, 0xFFFFFFFF, 0x0, 0x0, .one⟩,
  ⟨0x74, 1, 4, 0x1F, 0x0, 0x100, .one⟩,
  ⟨0x80, 1, 4, 0xFFFFFFFF, 0x0, 0x0, .lo⟩,
  ⟨0x84, 1, 4, 0xFFFFFFFF, 0x0, 0x0, .hi⟩,
  ⟨0x88, 4, 4, 0x0, 0x0, 0x0, .one⟩,
  ⟨0xC0, 1, 4, 0x0, 0x1F, 0x0, .one⟩,
  ⟨0xC4, 1, 4, 0x1F, 0x0, 0x0, .one⟩]
/-- The registers of a dir block. -/
def RegMap.dirRows : List RegRow := RegMap.dirRows0 ++ RegMap.dirRows1
/-- Reset values of a dir block that are not zero. -/
def RegMap.dirReset : List (Nat × Nat) := [(0x70, 0x186A0)]
/-! ### Registers of the win block -/
/-- WIN_STATUS, offset 0x0 (R322). -/
def Reg.WIN_STATUS (w : Nat) : Nat := 0x01200000 + w / 8 * 0x00800000 + w % 8 * 0x00010000 + 0x0
/-- WIN_QUERIES_LO, offset 0x10 (R322). -/
def Reg.WIN_QUERIES_LO (w : Nat) : Nat := 0x01200000 + w / 8 * 0x00800000 + w % 8 * 0x00010000 + 0x10
/-- WIN_QUERIES_HI, offset 0x14 (R322). -/
def Reg.WIN_QUERIES_HI (w : Nat) : Nat := 0x01200000 + w / 8 * 0x00800000 + w % 8 * 0x00010000 + 0x14
/-- WIN_RECORDS_LO, offset 0x18 (R322). -/
def Reg.WIN_RECORDS_LO (w : Nat) : Nat := 0x01200000 + w / 8 * 0x00800000 + w % 8 * 0x00010000 + 0x18
/-- WIN_RECORDS_HI, offset 0x1C (R322). -/
def Reg.WIN_RECORDS_HI (w : Nat) : Nat := 0x01200000 + w / 8 * 0x00800000 + w % 8 * 0x00010000 + 0x1C
/-- WIN_RERANKS_LO, offset 0x20 (R322). -/
def Reg.WIN_RERANKS_LO (w : Nat) : Nat := 0x01200000 + w / 8 * 0x00800000 + w % 8 * 0x00010000 + 0x20
/-- WIN_RERANKS_HI, offset 0x24 (R322). -/
def Reg.WIN_RERANKS_HI (w : Nat) : Nat := 0x01200000 + w / 8 * 0x00800000 + w % 8 * 0x00010000 + 0x24
/-- WIN_LOFT_BLOCKS_LO, offset 0x28 (R322). -/
def Reg.WIN_LOFT_BLOCKS_LO (w : Nat) : Nat := 0x01200000 + w / 8 * 0x00800000 + w % 8 * 0x00010000 + 0x28
/-- WIN_LOFT_BLOCKS_HI, offset 0x2C (R322). -/
def Reg.WIN_LOFT_BLOCKS_HI (w : Nat) : Nat := 0x01200000 + w / 8 * 0x00800000 + w % 8 * 0x00010000 + 0x2C
/-- WIN_RERUN, offset 0x30 (R322). -/
def Reg.WIN_RERUN (w : Nat) : Nat := 0x01200000 + w / 8 * 0x00800000 + w % 8 * 0x00010000 + 0x30
/-- WIN_CE, offset 0x34 (R322). -/
def Reg.WIN_CE (w : Nat) : Nat := 0x01200000 + w / 8 * 0x00800000 + w % 8 * 0x00010000 + 0x34
/-- WIN_CTRL, offset 0x40 (R322). -/
def Reg.WIN_CTRL (w : Nat) : Nat := 0x01200000 + w / 8 * 0x00800000 + w % 8 * 0x00010000 + 0x40
/-- WIN_IRQ_CAUSE, offset 0x80 (R322). -/
def Reg.WIN_IRQ_CAUSE (w : Nat) : Nat := 0x01200000 + w / 8 * 0x00800000 + w % 8 * 0x00010000 + 0x80
/-- WIN_IRQ_MASK, offset 0x84 (R322). -/
def Reg.WIN_IRQ_MASK (w : Nat) : Nat := 0x01200000 + w / 8 * 0x00800000 + w % 8 * 0x00010000 + 0x84
/-- WIN_EXACT_GRANT, offset 0x100 (R322). -/
def Reg.WIN_EXACT_GRANT (w : Nat) : Nat := 0x01200000 + w / 8 * 0x00800000 + w % 8 * 0x00010000 + 0x100
def RegMap.winRows0 : List RegRow := [
  ⟨0x0, 1, 4, 0x0, 0x0, 0x0, .one⟩,
  ⟨0x10, 1, 4, 0x0, 0x0, 0x0, .lo⟩,
  ⟨0x14, 1, 4, 0x0, 0x0, 0x0, .hi⟩,
  ⟨0x18, 1, 4, 0x0, 0x0, 0x0, .lo⟩,
  ⟨0x1C, 1, 4, 0x0, 0x0, 0x0, .hi⟩,
  ⟨0x20, 1, 4, 0x0, 0x0, 0x0, .lo⟩,
  ⟨0x24, 1, 4, 0x0, 0x0, 0x0, .hi⟩,
  ⟨0x28, 1, 4, 0x0, 0x0, 0x0, .lo⟩,
  ⟨0x2C, 1, 4, 0x0, 0x0, 0x0, .hi⟩,
  ⟨0x30, 1, 4, 0x0, 0x0, 0x0, .one⟩,
  ⟨0x34, 1, 4, 0x0, 0x0, 0x0, .one⟩,
  ⟨0x40, 1, 4, 0x0, 0x0, 0x3, .one⟩,
  ⟨0x80, 1, 4, 0x0, 0x3, 0x0, .one⟩,
  ⟨0x84, 1, 4, 0x3, 0x0, 0x0, .one⟩,
  ⟨0x100, 1, 4, 0x9F9F007F, 0x0, 0x0, .one⟩]
/-- The registers of a win block. -/
def RegMap.winRows : List RegRow := RegMap.winRows0
/-- Reset values of a win block that are not zero. -/
def RegMap.winReset : List (Nat × Nat) := [(0x100, 0x19)]
/-! ### Registers of the row block -/
/-- ROW_STATUS, offset 0x0 (R289). -/
def Reg.ROW_STATUS (u : Nat) : Nat := 0x01300000 + u / 8 * 0x00800000 + u % 8 * 0x00010000 + 0x0
/-- ROW_ROWS_LO, offset 0x10 (R289). -/
def Reg.ROW_ROWS_LO (u : Nat) : Nat := 0x01300000 + u / 8 * 0x00800000 + u % 8 * 0x00010000 + 0x10
/-- ROW_ROWS_HI, offset 0x14 (R289). -/
def Reg.ROW_ROWS_HI (u : Nat) : Nat := 0x01300000 + u / 8 * 0x00800000 + u % 8 * 0x00010000 + 0x14
/-- ROW_APPLIED, offset 0x18 (R289). -/
def Reg.ROW_APPLIED (u : Nat) : Nat := 0x01300000 + u / 8 * 0x00800000 + u % 8 * 0x00010000 + 0x18
/-- ROW_MIGRATED, offset 0x1C (R289). -/
def Reg.ROW_MIGRATED (u : Nat) : Nat := 0x01300000 + u / 8 * 0x00800000 + u % 8 * 0x00010000 + 0x1C
/-- ROW_CTRL, offset 0x40 (R289). -/
def Reg.ROW_CTRL (u : Nat) : Nat := 0x01300000 + u / 8 * 0x00800000 + u % 8 * 0x00010000 + 0x40
def RegMap.rowRows0 : List RegRow := [
  ⟨0x0, 1, 4, 0x0, 0x0, 0x0, .one⟩,
  ⟨0x10, 1, 4, 0x0, 0x0, 0x0, .lo⟩,
  ⟨0x14, 1, 4, 0x0, 0x0, 0x0, .hi⟩,
  ⟨0x18, 1, 4, 0x0, 0x0, 0x0, .one⟩,
  ⟨0x1C, 1, 4, 0x0, 0x0, 0x0, .one⟩,
  ⟨0x40, 1, 4, 0x0, 0x0, 0x3, .one⟩]
/-- The registers of a row block. -/
def RegMap.rowRows : List RegRow := RegMap.rowRows0
/-! ### Registers of the crib block -/
/-- ROW_CRIB_CTRL, offset 0x0 (R290). -/
def Reg.ROW_CRIB_CTRL (h : Nat) : Nat := 0x01380000 + h * 0x00800000 + 0x0
/-- ROW_CRIB_USED, offset 0x4 (R290). -/
def Reg.ROW_CRIB_USED (h : Nat) : Nat := 0x01380000 + h * 0x00800000 + 0x4
/-- ROW_CRIB_HITS_LO, offset 0x10 (R290). -/
def Reg.ROW_CRIB_HITS_LO (h : Nat) : Nat := 0x01380000 + h * 0x00800000 + 0x10
/-- ROW_CRIB_HITS_HI, offset 0x14 (R290). -/
def Reg.ROW_CRIB_HITS_HI (h : Nat) : Nat := 0x01380000 + h * 0x00800000 + 0x14
/-- ROW_CRIB_MISSES_LO, offset 0x18 (R290). -/
def Reg.ROW_CRIB_MISSES_LO (h : Nat) : Nat := 0x01380000 + h * 0x00800000 + 0x18
/-- ROW_CRIB_MISSES_HI, offset 0x1C (R290). -/
def Reg.ROW_CRIB_MISSES_HI (h : Nat) : Nat := 0x01380000 + h * 0x00800000 + 0x1C
/-- ROW_CRIB_ADMIT, offset 0x20 (R290). -/
def Reg.ROW_CRIB_ADMIT (h : Nat) : Nat := 0x01380000 + h * 0x00800000 + 0x20
/-- ROW_CRIB_REJECT, offset 0x24 (R290). -/
def Reg.ROW_CRIB_REJECT (h : Nat) : Nat := 0x01380000 + h * 0x00800000 + 0x24
/-- ROW_CRIB_AGINGS, offset 0x28 (R290). -/
def Reg.ROW_CRIB_AGINGS (h : Nat) : Nat := 0x01380000 + h * 0x00800000 + 0x28
/-- ROW_CRIB_CE, offset 0x2C (R290). -/
def Reg.ROW_CRIB_CE (h : Nat) : Nat := 0x01380000 + h * 0x00800000 + 0x2C
/-- ROW_CRIB_UE, offset 0x30 (R290). -/
def Reg.ROW_CRIB_UE (h : Nat) : Nat := 0x01380000 + h * 0x00800000 + 0x30
/-- ROW_CRIB_IRQ_CAUSE, offset 0x80 (R290). -/
def Reg.ROW_CRIB_IRQ_CAUSE (h : Nat) : Nat := 0x01380000 + h * 0x00800000 + 0x80
/-- ROW_CRIB_IRQ_MASK, offset 0x84 (R290). -/
def Reg.ROW_CRIB_IRQ_MASK (h : Nat) : Nat := 0x01380000 + h * 0x00800000 + 0x84
def RegMap.cribRows0 : List RegRow := [
  ⟨0x0, 1, 4, 0x8000FFFF, 0x0, 0x0, .one⟩,
  ⟨0x4, 1, 4, 0x0, 0x0, 0x0, .one⟩,
  ⟨0x10, 1, 4, 0x0, 0x0, 0x0, .lo⟩,
  ⟨0x14, 1, 4, 0x0, 0x0, 0x0, .hi⟩,
  ⟨0x18, 1, 4, 0x0, 0x0, 0x0, .lo⟩,
  ⟨0x1C, 1, 4, 0x0, 0x0, 0x0, .hi⟩,
  ⟨0x20, 1, 4, 0x0, 0x0, 0x0, .one⟩,
  ⟨0x24, 1, 4, 0x0, 0x0, 0x0, .one⟩,
  ⟨0x28, 1, 4, 0x0, 0x0, 0x0, .one⟩,
  ⟨0x2C, 1, 4, 0x0, 0x0, 0x0, .one⟩,
  ⟨0x30, 1, 4, 0x0, 0x0, 0x0, .one⟩,
  ⟨0x80, 1, 4, 0x0, 0x1, 0x0, .one⟩,
  ⟨0x84, 1, 4, 0x1, 0x0, 0x0, .one⟩]
/-- The registers of a crib block. -/
def RegMap.cribRows : List RegRow := RegMap.cribRows0
/-- Reset values of a crib block that are not zero. -/
def RegMap.cribReset : List (Nat × Nat) := [(0x0, 0x80000280)]
/-! ### Registers of the tly block -/
/-- TLY_GRP_SEL, offset 0x0 (R462). -/
def Reg.TLY_GRP_SEL (u : Nat) : Nat := Reg.tallyBase u + 0x0
/-- TLY_STATUS, offset 0x4 (R462). -/
def Reg.TLY_STATUS (u : Nat) : Nat := Reg.tallyBase u + 0x4
/-- TLY_CFG, offset 0x8 (R462). -/
def Reg.TLY_CFG (u : Nat) : Nat := Reg.tallyBase u + 0x8
/-- TLY_LANES, offset 0xC (R462). -/
def Reg.TLY_LANES (u : Nat) : Nat := Reg.tallyBase u + 0xC
/-- TLY_PAT_LO, offset 0x10 (R462). -/
def Reg.TLY_PAT_LO (u : Nat) : Nat := Reg.tallyBase u + 0x10
/-- TLY_PAT_HI, offset 0x14 (R462). -/
def Reg.TLY_PAT_HI (u : Nat) : Nat := Reg.tallyBase u + 0x14
/-- TLY_CTRL, offset 0x18 (R462). -/
def Reg.TLY_CTRL (u : Nat) : Nat := Reg.tallyBase u + 0x18
/-- TLY_LANE_SEL, offset 0x20 (R462). -/
def Reg.TLY_LANE_SEL (u : Nat) : Nat := Reg.tallyBase u + 0x20
/-- TLY_LANE_STAT, offset 0x24 (R462). -/
def Reg.TLY_LANE_STAT (u : Nat) : Nat := Reg.tallyBase u + 0x24
/-- TLY_ERR, offset 0x28 (R462). -/
def Reg.TLY_ERR (u : Nat) : Nat := Reg.tallyBase u + 0x28
/-- TLY_BITS_LO, offset 0x2C (R462). -/
def Reg.TLY_BITS_LO (u : Nat) : Nat := Reg.tallyBase u + 0x2C
/-- TLY_BITS_HI, offset 0x30 (R462). -/
def Reg.TLY_BITS_HI (u : Nat) : Nat := Reg.tallyBase u + 0x30
/-- TLY_FLITS_LO, offset 0x34 (R462). -/
def Reg.TLY_FLITS_LO (u : Nat) : Nat := Reg.tallyBase u + 0x34
/-- TLY_FLITS_HI, offset 0x38 (R462). -/
def Reg.TLY_FLITS_HI (u : Nat) : Nat := Reg.tallyBase u + 0x38
/-- TLY_FLIT_CRC, offset 0x3C (R462). -/
def Reg.TLY_FLIT_CRC (u : Nat) : Nat := Reg.tallyBase u + 0x3C
/-- TLY_EYE_CTRL, offset 0x40 (R462). -/
def Reg.TLY_EYE_CTRL (u : Nat) : Nat := Reg.tallyBase u + 0x40
/-- TLY_EYE_RESULT, offset 0x44 (R462). -/
def Reg.TLY_EYE_RESULT (u : Nat) : Nat := Reg.tallyBase u + 0x44
/-- TLY_EYE_MAP_SEL, offset 0x48 (R462). -/
def Reg.TLY_EYE_MAP_SEL (u : Nat) : Nat := Reg.tallyBase u + 0x48
/-- TLY_EYE_MAP_LO, offset 0x4C (R462). -/
def Reg.TLY_EYE_MAP_LO (u : Nat) : Nat := Reg.tallyBase u + 0x4C
/-- TLY_EYE_MAP_HI, offset 0x50 (R462). -/
def Reg.TLY_EYE_MAP_HI (u : Nat) : Nat := Reg.tallyBase u + 0x50
/-- TLY_IRQ_CAUSE, offset 0x80 (R462). -/
def Reg.TLY_IRQ_CAUSE (u : Nat) : Nat := Reg.tallyBase u + 0x80
/-- TLY_IRQ_MASK, offset 0x84 (R462). -/
def Reg.TLY_IRQ_MASK (u : Nat) : Nat := Reg.tallyBase u + 0x84
def RegMap.tlyRows0 : List RegRow := [
  ⟨0x0, 1, 4, 0xFFFFFFFF, 0x0, 0x0, .one⟩,
  ⟨0x4, 1, 4, 0x0, 0x0, 0x0, .one⟩,
  ⟨0x8, 1, 4, 0xFEFF8000, 0x0, 0x0, .one⟩,
  ⟨0xC, 1, 4, 0xFFF0FFF, 0x0, 0x0, .one⟩,
  ⟨0x10, 1, 4, 0xFFFFFFFF, 0x0, 0x0, .lo⟩,
  ⟨0x14, 1, 4, 0xFFFFFFFF, 0x0, 0x0, .hi⟩,
  ⟨0x18, 1, 4, 0x0, 0x0, 0xF, .one⟩,
  ⟨0x20, 1, 4, 0xFFFFFFFF, 0x0, 0x0, .one⟩,
  ⟨0x24, 1, 4, 0x0, 0x0, 0x0, .one⟩,
  ⟨0x28, 1, 4, 0x0, 0x0, 0x0, .one⟩,
  ⟨0x2C, 1, 4, 0x0, 0x0, 0x0, .lo⟩,
  ⟨0x30, 1, 4, 0x0, 0x0, 0x0, .hi⟩,
  ⟨0x34, 1, 4, 0x0, 0x0, 0x0, .lo⟩,
  ⟨0x38, 1, 4, 0x0, 0x0, 0x0, .hi⟩,
  ⟨0x3C, 1, 4, 0x0, 0x0, 0x0, .one⟩,
  ⟨0x40, 1, 4, 0xC000003F, 0x0, 0x0, .one⟩]
def RegMap.tlyRows1 : List RegRow := [
  ⟨0x44, 1, 4, 0x0, 0x0, 0x0, .one⟩,
  ⟨0x48, 1, 4, 0x3F, 0x0, 0x0, .one⟩,
  ⟨0x4C, 1, 4, 0x0, 0x0, 0x0, .lo⟩,
  ⟨0x50, 1, 4, 0x0, 0x0, 0x0, .hi⟩,
  ⟨0x80, 1, 4, 0x0, 0x1F, 0x0, .one⟩,
  ⟨0x84, 1, 4, 0x1F, 0x0, 0x0, .one⟩]
/-- The registers of a tly block. -/
def RegMap.tlyRows : List RegRow := RegMap.tlyRows0 ++ RegMap.tlyRows1
/-- Reset values of a tly block that are not zero. -/
def RegMap.tlyReset : List (Nat × Nat) := [(0x8, 0x50000000), (0xC, 0x8), (0x40, 0x14)]
/-! ### Registers of the me block -/
/-- ME_STATUS, offset 0x0 (R101). -/
def Reg.ME_STATUS (e : Nat) : Nat := 0x02000000 + e / 8 * 0x00800000 + e % 8 * 0x00010000 + 0x0
/-- ME_CHK_MISMATCH, offset 0x10 (R101). -/
def Reg.ME_CHK_MISMATCH (e : Nat) : Nat := 0x02000000 + e / 8 * 0x00800000 + e % 8 * 0x00010000 + 0x10
/-- ME_CHK_RERUN_OK, offset 0x14 (R101). -/
def Reg.ME_CHK_RERUN_OK (e : Nat) : Nat := 0x02000000 + e / 8 * 0x00800000 + e % 8 * 0x00010000 + 0x14
/-- ME_CHK_MOVED, offset 0x18 (R101). -/
def Reg.ME_CHK_MOVED (e : Nat) : Nat := 0x02000000 + e / 8 * 0x00800000 + e % 8 * 0x00010000 + 0x18
/-- ME_CHK_HELPED, offset 0x1C (R101). -/
def Reg.ME_CHK_HELPED (e : Nat) : Nat := 0x02000000 + e / 8 * 0x00800000 + e % 8 * 0x00010000 + 0x1C
/-- ME_CHK_LAST, offset 0x20 (R101). -/
def Reg.ME_CHK_LAST (e : Nat) : Nat := 0x02000000 + e / 8 * 0x00800000 + e % 8 * 0x00010000 + 0x20
/-- ME_ESC_TILES, offset 0x24 (R101). -/
def Reg.ME_ESC_TILES (e : Nat) : Nat := 0x02000000 + e / 8 * 0x00800000 + e % 8 * 0x00010000 + 0x24
/-- ME_INVALID_CODES, offset 0x28 (R101). -/
def Reg.ME_INVALID_CODES (e : Nat) : Nat := 0x02000000 + e / 8 * 0x00800000 + e % 8 * 0x00010000 + 0x28
/-- ME_CTRL, offset 0x40 (R101). -/
def Reg.ME_CTRL (e : Nat) : Nat := 0x02000000 + e / 8 * 0x00800000 + e % 8 * 0x00010000 + 0x40
/-- ME_STEPS_LO, offset 0x50 (R101). -/
def Reg.ME_STEPS_LO (e : Nat) : Nat := 0x02000000 + e / 8 * 0x00800000 + e % 8 * 0x00010000 + 0x50
/-- ME_STEPS_HI, offset 0x54 (R101). -/
def Reg.ME_STEPS_HI (e : Nat) : Nat := 0x02000000 + e / 8 * 0x00800000 + e % 8 * 0x00010000 + 0x54
def RegMap.meRows0 : List RegRow := [
  ⟨0x0, 1, 4, 0x0, 0x0, 0x0, .one⟩,
  ⟨0x10, 1, 4, 0x0, 0x0, 0x0, .one⟩,
  ⟨0x14, 1, 4, 0x0, 0x0, 0x0, .one⟩,
  ⟨0x18, 1, 4, 0x0, 0x0, 0x0, .one⟩,
  ⟨0x1C, 1, 4, 0x0, 0x0, 0x0, .one⟩,
  ⟨0x20, 1, 4, 0x0, 0x0, 0x0, .one⟩,
  ⟨0x24, 1, 4, 0x0, 0x0, 0x0, .one⟩,
  ⟨0x28, 1, 4, 0x0, 0x0, 0x0, .one⟩,
  ⟨0x40, 1, 4, 0x0, 0x0, 0x3, .one⟩,
  ⟨0x50, 1, 4, 0x0, 0x0, 0x0, .lo⟩,
  ⟨0x54, 1, 4, 0x0, 0x0, 0x0, .hi⟩]
/-- The registers of a me block. -/
def RegMap.meRows : List RegRow := RegMap.meRows0
/-! ### Registers of the gc block -/
/-- GC_STATUS, offset 0x0 (R121). -/
def Reg.GC_STATUS (g : Nat) : Nat := 0x02100000 + g / 16 * 0x00800000 + g % 16 * 0x00010000 + 0x0
/-- GC_PC_LO, offset 0x8 (R121). -/
def Reg.GC_PC_LO (g : Nat) : Nat := 0x02100000 + g / 16 * 0x00800000 + g % 16 * 0x00010000 + 0x8
/-- GC_PC_HI, offset 0xC (R121). -/
def Reg.GC_PC_HI (g : Nat) : Nat := 0x02100000 + g / 16 * 0x00800000 + g % 16 * 0x00010000 + 0xC
/-- GC_RETIRED_LO, offset 0x10 (R121). -/
def Reg.GC_RETIRED_LO (g : Nat) : Nat := 0x02100000 + g / 16 * 0x00800000 + g % 16 * 0x00010000 + 0x10
/-- GC_RETIRED_HI, offset 0x14 (R121). -/
def Reg.GC_RETIRED_HI (g : Nat) : Nat := 0x02100000 + g / 16 * 0x00800000 + g % 16 * 0x00010000 + 0x14
/-- GC_LAST_TRAP, offset 0x20 (R121). -/
def Reg.GC_LAST_TRAP (g : Nat) : Nat := 0x02100000 + g / 16 * 0x00800000 + g % 16 * 0x00010000 + 0x20
/-- GC_L1_CORRECTED, offset 0x24 (R121). -/
def Reg.GC_L1_CORRECTED (g : Nat) : Nat := 0x02100000 + g / 16 * 0x00800000 + g % 16 * 0x00010000 + 0x24
/-- GC_MRG_DISORDER, offset 0x28 (R121). -/
def Reg.GC_MRG_DISORDER (g : Nat) : Nat := 0x02100000 + g / 16 * 0x00800000 + g % 16 * 0x00010000 + 0x28
/-- GC_INVALID_CODES, offset 0x2C (R121). -/
def Reg.GC_INVALID_CODES (g : Nat) : Nat := 0x02100000 + g / 16 * 0x00800000 + g % 16 * 0x00010000 + 0x2C
/-- GC_CTRL, offset 0x40 (R121). -/
def Reg.GC_CTRL (g : Nat) : Nat := 0x02100000 + g / 16 * 0x00800000 + g % 16 * 0x00010000 + 0x40
def RegMap.gcRows0 : List RegRow := [
  ⟨0x0, 1, 4, 0x0, 0x0, 0x0, .one⟩,
  ⟨0x8, 1, 4, 0x0, 0x0, 0x0, .lo⟩,
  ⟨0xC, 1, 4, 0x0, 0x0, 0x0, .hi⟩,
  ⟨0x10, 1, 4, 0x0, 0x0, 0x0, .lo⟩,
  ⟨0x14, 1, 4, 0x0, 0x0, 0x0, .hi⟩,
  ⟨0x20, 1, 4, 0x0, 0x0, 0x0, .one⟩,
  ⟨0x24, 1, 4, 0x0, 0x0, 0x0, .one⟩,
  ⟨0x28, 1, 4, 0x0, 0x0, 0x0, .one⟩,
  ⟨0x2C, 1, 4, 0x0, 0x0, 0x0, .one⟩,
  ⟨0x40, 1, 4, 0x0, 0x0, 0x3, .one⟩]
/-- The registers of a gc block. -/
def RegMap.gcRows : List RegRow := RegMap.gcRows0
/-! ### Registers of the sw block -/
/-- SW_BUF, offset 0x0 (R261). -/
def Reg.SW_BUF (t : Nat) : Nat := 0x04000000 + t * 0x00800000 + 0x0
/-- SW_CLASS, offset 0x10 (R261). -/
def Reg.SW_CLASS (t : Nat) (i : Nat) : Nat := 0x04000000 + t * 0x00800000 + 0x10 + i * 4
/-- SW_POOL_RSV, offset 0x30 (R261). -/
def Reg.SW_POOL_RSV (t : Nat) : Nat := 0x04000000 + t * 0x00800000 + 0x30
/-- SW_SPILL_CAP, offset 0x40 (R261). -/
def Reg.SW_SPILL_CAP (t : Nat) : Nat := 0x04000000 + t * 0x00800000 + 0x40
/-- SW_FWD_LO, offset 0x50 (R261). -/
def Reg.SW_FWD_LO (t : Nat) : Nat := 0x04000000 + t * 0x00800000 + 0x50
/-- SW_FWD_HI, offset 0x54 (R261). -/
def Reg.SW_FWD_HI (t : Nat) : Nat := 0x04000000 + t * 0x00800000 + 0x54
/-- SW_SPILLED, offset 0x58 (R261). -/
def Reg.SW_SPILLED (t : Nat) : Nat := 0x04000000 + t * 0x00800000 + 0x58
/-- SW_COMBINED, offset 0x5C (R261). -/
def Reg.SW_COMBINED (t : Nat) : Nat := 0x04000000 + t * 0x00800000 + 0x5C
/-- SW_PATH_LOST, offset 0x60 (R261). -/
def Reg.SW_PATH_LOST (t : Nat) : Nat := 0x04000000 + t * 0x00800000 + 0x60
/-- SW_AGED, offset 0x64 (R261). -/
def Reg.SW_AGED (t : Nat) : Nat := 0x04000000 + t * 0x00800000 + 0x64
/-- SW_DISCARD, offset 0x68 (R261). -/
def Reg.SW_DISCARD (t : Nat) : Nat := 0x04000000 + t * 0x00800000 + 0x68
/-- SW_IRQ_CAUSE, offset 0xC0 (R261). -/
def Reg.SW_IRQ_CAUSE (t : Nat) : Nat := 0x04000000 + t * 0x00800000 + 0xC0
/-- SW_IRQ_MASK, offset 0xC4 (R261). -/
def Reg.SW_IRQ_MASK (t : Nat) : Nat := 0x04000000 + t * 0x00800000 + 0xC4
/-- SW_NODE, offset 0x100 (R261). -/
def Reg.SW_NODE : Nat := 0x04000000 + 0x100
/-- SW_CELL, offset 0x104 (R261). -/
def Reg.SW_CELL : Nat := 0x04000000 + 0x104
/-- SW_CUT, offset 0x108 (R261). -/
def Reg.SW_CUT : Nat := 0x04000000 + 0x108
/-- SW_INJECT, offset 0x10C (R261). -/
def Reg.SW_INJECT : Nat := 0x04000000 + 0x10C
/-- SW_AGE_LIMIT, offset 0x110 (R261). -/
def Reg.SW_AGE_LIMIT : Nat := 0x04000000 + 0x110
/-- SW_REQ_TIMEOUT, offset 0x114 (R261). -/
def Reg.SW_REQ_TIMEOUT : Nat := 0x04000000 + 0x114
/-- SW_SPILL_USED, offset 0x118 (R261). -/
def Reg.SW_SPILL_USED : Nat := 0x04000000 + 0x118
/-- SW_GW, offset 0x140 (R261). -/
def Reg.SW_GW (i : Nat) : Nat := 0x04000000 + 0x140 + i * 4
/-- SW_WIN_DUP, offset 0x180 (R261). -/
def Reg.SW_WIN_DUP : Nat := 0x04000000 + 0x180
/-- SW_WIN_STALE, offset 0x184 (R261). -/
def Reg.SW_WIN_STALE : Nat := 0x04000000 + 0x184
/-- SW_RETRIES, offset 0x188 (R261). -/
def Reg.SW_RETRIES : Nat := 0x04000000 + 0x188
/-- SW_TARGET_LOST, offset 0x18C (R261). -/
def Reg.SW_TARGET_LOST : Nat := 0x04000000 + 0x18C
/-- SW_SEQ_STALL, offset 0x190 (R261). -/
def Reg.SW_SEQ_STALL : Nat := 0x04000000 + 0x190
/-- SW_INC_CLEAR, offset 0x194 (R261). -/
def Reg.SW_INC_CLEAR : Nat := 0x04000000 + 0x194
/-- SW_STALE_IN, offset 0x198 (R261). -/
def Reg.SW_STALE_IN : Nat := 0x04000000 + 0x198
def RegMap.swRows0 : List RegRow := [
  ⟨0x0, 1, 4, 0x0, 0x0, 0x0, .one⟩,
  ⟨0x10, 8, 4, 0xFCFF0F, 0x0, 0x0, .one⟩,
  ⟨0x30, 1, 4, 0x0, 0x0, 0x0, .one⟩,
  ⟨0x40, 1, 4, 0xFFFFFFFF, 0x0, 0x0, .one⟩,
  ⟨0x50, 1, 4, 0x0, 0x0, 0x0, .lo⟩,
  ⟨0x54, 1, 4, 0x0, 0x0, 0x0, .hi⟩,
  ⟨0x58, 1, 4, 0x0, 0x0, 0x0, .one⟩,
  ⟨0x5C, 1, 4, 0x0, 0x0, 0x0, .one⟩,
  ⟨0x60, 1, 4, 0x0, 0x0, 0x0, .one⟩,
  ⟨0x64, 1, 4, 0x0, 0x0, 0x0, .one⟩,
  ⟨0x68, 1, 4, 0x0, 0x0, 0x0, .one⟩,
  ⟨0xC0, 1, 4, 0x0, 0x1F, 0x0, .one⟩,
  ⟨0xC4, 1, 4, 0x1F, 0x0, 0x0, .one⟩,
  ⟨0x100, 1, 4, 0x0, 0x0, 0x0, .one⟩,
  ⟨0x104, 1, 4, 0x0, 0x0, 0x0, .one⟩,
  ⟨0x108, 1, 4, 0x0, 0x0, 0x0, .one⟩]
def RegMap.swRows1 : List RegRow := [
  ⟨0x10C, 1, 4, 0x3, 0x0, 0x0, .one⟩,
  ⟨0x110, 1, 4, 0xFFFFFFFF, 0x0, 0x0, .one⟩,
  ⟨0x114, 1, 4, 0xFFFFFFFF, 0x0, 0x0, .one⟩,
  ⟨0x118, 1, 4, 0x0, 0x0, 0x0, .one⟩,
  ⟨0x140, 16, 4, 0x80000FFF, 0x0, 0x0, .one⟩,
  ⟨0x180, 1, 4, 0x0, 0x0, 0x0, .one⟩,
  ⟨0x184, 1, 4, 0x0, 0x0, 0x0, .one⟩,
  ⟨0x188, 1, 4, 0x0, 0x0, 0x0, .one⟩,
  ⟨0x18C, 1, 4, 0x0, 0x0, 0x0, .one⟩,
  ⟨0x190, 1, 4, 0x0, 0x0, 0x0, .one⟩,
  ⟨0x194, 1, 4, 0x0, 0x0, 0x0, .one⟩,
  ⟨0x198, 1, 4, 0x0, 0x0, 0x0, .one⟩]
/-- The registers of a sw block. -/
def RegMap.swRows : List RegRow := RegMap.swRows0 ++ RegMap.swRows1
/-- Reset values of a sw block that are not zero. -/
def RegMap.swReset : List (Nat × Nat) := [(0x0, 0x1A001A00), (0x40, 0x10000), (0x10C, 0x3), (0x110, 0x186A0), (0x114, 0x989680)]
/-! ### Registers of the lnk block -/
/-- LNK_STATUS, offset 0x0 (R262). -/
def Reg.LNK_STATUS (l : Nat) : Nat := 0x04100000 + l / 3 * 0x00800000 + l % 3 * 0x00010000 + 0x0
/-- LNK_PEER, offset 0x4 (R262). -/
def Reg.LNK_PEER (l : Nat) : Nat := 0x04100000 + l / 3 * 0x00800000 + l % 3 * 0x00010000 + 0x4
/-- LNK_CTRL, offset 0x10 (R262). -/
def Reg.LNK_CTRL (l : Nat) : Nat := 0x04100000 + l / 3 * 0x00800000 + l % 3 * 0x00010000 + 0x10
/-- LNK_REPLAY_CTRL, offset 0x14 (R262). -/
def Reg.LNK_REPLAY_CTRL (l : Nat) : Nat := 0x04100000 + l / 3 * 0x00800000 + l % 3 * 0x00010000 + 0x14
/-- LNK_TX_FLITS_LO, offset 0x20 (R262). -/
def Reg.LNK_TX_FLITS_LO (l : Nat) : Nat := 0x04100000 + l / 3 * 0x00800000 + l % 3 * 0x00010000 + 0x20
/-- LNK_TX_FLITS_HI, offset 0x24 (R262). -/
def Reg.LNK_TX_FLITS_HI (l : Nat) : Nat := 0x04100000 + l / 3 * 0x00800000 + l % 3 * 0x00010000 + 0x24
/-- LNK_RX_FLITS_LO, offset 0x28 (R262). -/
def Reg.LNK_RX_FLITS_LO (l : Nat) : Nat := 0x04100000 + l / 3 * 0x00800000 + l % 3 * 0x00010000 + 0x28
/-- LNK_RX_FLITS_HI, offset 0x2C (R262). -/
def Reg.LNK_RX_FLITS_HI (l : Nat) : Nat := 0x04100000 + l / 3 * 0x00800000 + l % 3 * 0x00010000 + 0x2C
/-- LNK_FEC_CORR_LO, offset 0x30 (R262). -/
def Reg.LNK_FEC_CORR_LO (l : Nat) : Nat := 0x04100000 + l / 3 * 0x00800000 + l % 3 * 0x00010000 + 0x30
/-- LNK_FEC_CORR_HI, offset 0x34 (R262). -/
def Reg.LNK_FEC_CORR_HI (l : Nat) : Nat := 0x04100000 + l / 3 * 0x00800000 + l % 3 * 0x00010000 + 0x34
/-- LNK_FEC_UNCORR, offset 0x38 (R262). -/
def Reg.LNK_FEC_UNCORR (l : Nat) : Nat := 0x04100000 + l / 3 * 0x00800000 + l % 3 * 0x00010000 + 0x38
/-- LNK_CRC_ERR, offset 0x3C (R262). -/
def Reg.LNK_CRC_ERR (l : Nat) : Nat := 0x04100000 + l / 3 * 0x00800000 + l % 3 * 0x00010000 + 0x3C
/-- LNK_REPLAYS, offset 0x40 (R262). -/
def Reg.LNK_REPLAYS (l : Nat) : Nat := 0x04100000 + l / 3 * 0x00800000 + l % 3 * 0x00010000 + 0x40
/-- LNK_DOWNS, offset 0x44 (R262). -/
def Reg.LNK_DOWNS (l : Nat) : Nat := 0x04100000 + l / 3 * 0x00800000 + l % 3 * 0x00010000 + 0x44
/-- LNK_GCM_FAIL, offset 0x48 (R262). -/
def Reg.LNK_GCM_FAIL (l : Nat) : Nat := 0x04100000 + l / 3 * 0x00800000 + l % 3 * 0x00010000 + 0x48
/-- LNK_CRD_STALL, offset 0x4C (R262). -/
def Reg.LNK_CRD_STALL (l : Nat) : Nat := 0x04100000 + l / 3 * 0x00800000 + l % 3 * 0x00010000 + 0x4C
/-- LNK_IRQ_CAUSE, offset 0x80 (R262). -/
def Reg.LNK_IRQ_CAUSE (l : Nat) : Nat := 0x04100000 + l / 3 * 0x00800000 + l % 3 * 0x00010000 + 0x80
/-- LNK_IRQ_MASK, offset 0x84 (R262). -/
def Reg.LNK_IRQ_MASK (l : Nat) : Nat := 0x04100000 + l / 3 * 0x00800000 + l % 3 * 0x00010000 + 0x84
def RegMap.lnkRows0 : List RegRow := [
  ⟨0x0, 1, 4, 0x0, 0x0, 0x0, .one⟩,
  ⟨0x4, 1, 4, 0x0, 0x0, 0x0, .one⟩,
  ⟨0x10, 1, 4, 0x30, 0x0, 0x7, .one⟩,
  ⟨0x14, 1, 4, 0xFFFF00FF, 0x0, 0x0, .one⟩,
  ⟨0x20, 1, 4, 0x0, 0x0, 0x0, .lo⟩,
  ⟨0x24, 1, 4, 0x0, 0x0, 0x0, .hi⟩,
  ⟨0x28, 1, 4, 0x0, 0x0, 0x0, .lo⟩,
  ⟨0x2C, 1, 4, 0x0, 0x0, 0x0, .hi⟩,
  ⟨0x30, 1, 4, 0x0, 0x0, 0x0, .lo⟩,
  ⟨0x34, 1, 4, 0x0, 0x0, 0x0, .hi⟩,
  ⟨0x38, 1, 4, 0x0, 0x0, 0x0, .one⟩,
  ⟨0x3C, 1, 4, 0x0, 0x0, 0x0, .one⟩,
  ⟨0x40, 1, 4, 0x0, 0x0, 0x0, .one⟩,
  ⟨0x44, 1, 4, 0x0, 0x0, 0x0, .one⟩,
  ⟨0x48, 1, 4, 0x0, 0x0, 0x0, .one⟩,
  ⟨0x4C, 1, 4, 0x0, 0x0, 0x0, .one⟩]
def RegMap.lnkRows1 : List RegRow := [
  ⟨0x80, 1, 4, 0x0, 0x3F, 0x0, .one⟩,
  ⟨0x84, 1, 4, 0x3F, 0x0, 0x0, .one⟩]
/-- The registers of a lnk block. -/
def RegMap.lnkRows : List RegRow := RegMap.lnkRows0 ++ RegMap.lnkRows1
/-- Reset values of a lnk block that are not zero. -/
def RegMap.lnkReset : List (Nat × Nat) := [(0x14, 0x10000008)]
/-! ### Registers of the cxl block -/
/-- CXL_STATUS, offset 0x0 (R441). -/
def Reg.CXL_STATUS (t : Nat) : Nat := 0x04200000 + t * 0x00800000 + 0x0
/-- CXL_EXTENTS, offset 0x4 (R441). -/
def Reg.CXL_EXTENTS (t : Nat) : Nat := 0x04200000 + t * 0x00800000 + 0x4
/-- CXL_RX_FLITS_LO, offset 0x10 (R441). -/
def Reg.CXL_RX_FLITS_LO (t : Nat) : Nat := 0x04200000 + t * 0x00800000 + 0x10
/-- CXL_RX_FLITS_HI, offset 0x14 (R441). -/
def Reg.CXL_RX_FLITS_HI (t : Nat) : Nat := 0x04200000 + t * 0x00800000 + 0x14
/-- CXL_TX_FLITS_LO, offset 0x18 (R441). -/
def Reg.CXL_TX_FLITS_LO (t : Nat) : Nat := 0x04200000 + t * 0x00800000 + 0x18
/-- CXL_TX_FLITS_HI, offset 0x1C (R441). -/
def Reg.CXL_TX_FLITS_HI (t : Nat) : Nat := 0x04200000 + t * 0x00800000 + 0x1C
/-- CXL_CRC_ERR, offset 0x20 (R441). -/
def Reg.CXL_CRC_ERR (t : Nat) : Nat := 0x04200000 + t * 0x00800000 + 0x20
/-- CXL_REPLAYS, offset 0x24 (R441). -/
def Reg.CXL_REPLAYS (t : Nat) : Nat := 0x04200000 + t * 0x00800000 + 0x24
/-- CXL_IDE_FAIL, offset 0x28 (R441). -/
def Reg.CXL_IDE_FAIL (t : Nat) : Nat := 0x04200000 + t * 0x00800000 + 0x28
/-- CXL_CFG_RETRY, offset 0x2C (R441). -/
def Reg.CXL_CFG_RETRY (t : Nat) : Nat := 0x04200000 + t * 0x00800000 + 0x2C
/-- CXL_DOWNS, offset 0x30 (R441). -/
def Reg.CXL_DOWNS (t : Nat) : Nat := 0x04200000 + t * 0x00800000 + 0x30
/-- CXL_DC_REFUSED, offset 0x34 (R441). -/
def Reg.CXL_DC_REFUSED (t : Nat) : Nat := 0x04200000 + t * 0x00800000 + 0x34
/-- CXL_IRQ_CAUSE, offset 0x80 (R441). -/
def Reg.CXL_IRQ_CAUSE (t : Nat) : Nat := 0x04200000 + t * 0x00800000 + 0x80
/-- CXL_IRQ_MASK, offset 0x84 (R441). -/
def Reg.CXL_IRQ_MASK (t : Nat) : Nat := 0x04200000 + t * 0x00800000 + 0x84
def RegMap.cxlRows0 : List RegRow := [
  ⟨0x0, 1, 4, 0x0, 0x0, 0x0, .one⟩,
  ⟨0x4, 1, 4, 0x0, 0x0, 0x0, .one⟩,
  ⟨0x10, 1, 4, 0x0, 0x0, 0x0, .lo⟩,
  ⟨0x14, 1, 4, 0x0, 0x0, 0x0, .hi⟩,
  ⟨0x18, 1, 4, 0x0, 0x0, 0x0, .lo⟩,
  ⟨0x1C, 1, 4, 0x0, 0x0, 0x0, .hi⟩,
  ⟨0x20, 1, 4, 0x0, 0x0, 0x0, .one⟩,
  ⟨0x24, 1, 4, 0x0, 0x0, 0x0, .one⟩,
  ⟨0x28, 1, 4, 0x0, 0x0, 0x0, .one⟩,
  ⟨0x2C, 1, 4, 0x0, 0x0, 0x0, .one⟩,
  ⟨0x30, 1, 4, 0x0, 0x0, 0x0, .one⟩,
  ⟨0x34, 1, 4, 0x0, 0x0, 0x0, .one⟩,
  ⟨0x80, 1, 4, 0x0, 0x7F, 0x0, .one⟩,
  ⟨0x84, 1, 4, 0x7F, 0x0, 0x0, .one⟩]
/-- The registers of a cxl block. -/
def RegMap.cxlRows : List RegRow := RegMap.cxlRows0
/-! ### Registers of the lft block -/
/-- LFT_STATUS, offset 0x0 (R161). -/
def Reg.LFT_STATUS : Nat := 0x06000000 + 0x0
/-- LFT_CAPACITY, offset 0x4 (R161). -/
def Reg.LFT_CAPACITY : Nat := 0x06000000 + 0x4
/-- LFT_POOL_FREE, offset 0x8 (R161). -/
def Reg.LFT_POOL_FREE : Nat := 0x06000000 + 0x8
/-- LFT_REBUILD_CTRL, offset 0x10 (R161). -/
def Reg.LFT_REBUILD_CTRL : Nat := 0x06000000 + 0x10
/-- LFT_REBUILD_LEFT_LO, offset 0x14 (R161). -/
def Reg.LFT_REBUILD_LEFT_LO : Nat := 0x06000000 + 0x14
/-- LFT_REBUILD_LEFT_HI, offset 0x18 (R161). -/
def Reg.LFT_REBUILD_LEFT_HI : Nat := 0x06000000 + 0x18
/-- LFT_GC_CTRL, offset 0x20 (R161). -/
def Reg.LFT_GC_CTRL : Nat := 0x06000000 + 0x20
/-- LFT_ERASE_MIN, offset 0x24 (R161). -/
def Reg.LFT_ERASE_MIN : Nat := 0x06000000 + 0x24
/-- LFT_ERASE_MAX, offset 0x28 (R161). -/
def Reg.LFT_ERASE_MAX : Nat := 0x06000000 + 0x28
/-- LFT_RECON, offset 0x30 (R161). -/
def Reg.LFT_RECON : Nat := 0x06000000 + 0x30
/-- LFT_UNRECOVERED, offset 0x34 (R161). -/
def Reg.LFT_UNRECOVERED : Nat := 0x06000000 + 0x34
/-- LFT_IRQ_CAUSE, offset 0x80 (R161). -/
def Reg.LFT_IRQ_CAUSE : Nat := 0x06000000 + 0x80
/-- LFT_IRQ_MASK, offset 0x84 (R161). -/
def Reg.LFT_IRQ_MASK : Nat := 0x06000000 + 0x84
def RegMap.lftRows0 : List RegRow := [
  ⟨0x0, 1, 4, 0x0, 0x0, 0x0, .one⟩,
  ⟨0x4, 1, 4, 0x0, 0x0, 0x0, .one⟩,
  ⟨0x8, 1, 4, 0x0, 0x0, 0x0, .one⟩,
  ⟨0x10, 1, 4, 0x7F, 0x0, 0x0, .one⟩,
  ⟨0x14, 1, 4, 0x0, 0x0, 0x0, .lo⟩,
  ⟨0x18, 1, 4, 0x0, 0x0, 0x0, .hi⟩,
  ⟨0x20, 1, 4, 0xFFFFFFFF, 0x0, 0x0, .one⟩,
  ⟨0x24, 1, 4, 0x0, 0x0, 0x0, .one⟩,
  ⟨0x28, 1, 4, 0x0, 0x0, 0x0, .one⟩,
  ⟨0x30, 1, 4, 0x0, 0x0, 0x0, .one⟩,
  ⟨0x34, 1, 4, 0x0, 0x0, 0x0, .one⟩,
  ⟨0x80, 1, 4, 0x0, 0x1F, 0x0, .one⟩,
  ⟨0x84, 1, 4, 0x1F, 0x0, 0x0, .one⟩]
/-- The registers of a lft block. -/
def RegMap.lftRows : List RegRow := RegMap.lftRows0
/-- Reset values of a lft block that are not zero. -/
def RegMap.lftReset : List (Nat × Nat) := [(0x0, 0x1F), (0x10, 0x19), (0x20, 0x400100)]
/-! ### Registers of the lftCh block -/
/-- LFT_CH_STATUS, offset 0x0 (R162). -/
def Reg.LFT_CH_STATUS (n : Nat) : Nat := 0x06100000 + n * 0x00010000 + 0x0
/-- LFT_CH_GEOMETRY, offset 0x4 (R162). -/
def Reg.LFT_CH_GEOMETRY (n : Nat) : Nat := 0x06100000 + n * 0x00010000 + 0x4
/-- LFT_CH_READ_RETRY, offset 0x10 (R162). -/
def Reg.LFT_CH_READ_RETRY (n : Nat) : Nat := 0x06100000 + n * 0x00010000 + 0x10
/-- LFT_CH_LDPC_FAIL, offset 0x14 (R162). -/
def Reg.LFT_CH_LDPC_FAIL (n : Nat) : Nat := 0x06100000 + n * 0x00010000 + 0x14
/-- LFT_CH_PROG_FAIL, offset 0x18 (R162). -/
def Reg.LFT_CH_PROG_FAIL (n : Nat) : Nat := 0x06100000 + n * 0x00010000 + 0x18
/-- LFT_CH_ERASE_FAIL, offset 0x1C (R162). -/
def Reg.LFT_CH_ERASE_FAIL (n : Nat) : Nat := 0x06100000 + n * 0x00010000 + 0x1C
/-- LFT_CH_BAD_BLOCKS, offset 0x20 (R162). -/
def Reg.LFT_CH_BAD_BLOCKS (n : Nat) : Nat := 0x06100000 + n * 0x00010000 + 0x20
/-- LFT_CH_CTRL, offset 0x40 (R162). -/
def Reg.LFT_CH_CTRL (n : Nat) : Nat := 0x06100000 + n * 0x00010000 + 0x40
def RegMap.lftChRows0 : List RegRow := [
  ⟨0x0, 1, 4, 0x0, 0x0, 0x0, .one⟩,
  ⟨0x4, 1, 4, 0x0, 0x0, 0x0, .one⟩,
  ⟨0x10, 1, 4, 0x0, 0x0, 0x0, .one⟩,
  ⟨0x14, 1, 4, 0x0, 0x0, 0x0, .one⟩,
  ⟨0x18, 1, 4, 0x0, 0x0, 0x0, .one⟩,
  ⟨0x1C, 1, 4, 0x0, 0x0, 0x0, .one⟩,
  ⟨0x20, 1, 4, 0x0, 0x0, 0x0, .one⟩,
  ⟨0x40, 1, 4, 0x0, 0x0, 0x3, .one⟩]
/-- The registers of a lftCh block. -/
def RegMap.lftChRows : List RegRow := RegMap.lftChRows0
/-! ### Registers of the part block -/
/-- PART_ID, offset 0x0 (R32). -/
def Reg.PART_ID (p : Nat) : Nat := 0x07000000 + p * 0x00100000 + 0x0
/-- PART_RESET, offset 0x10 (R64). -/
def Reg.PART_RESET (p : Nat) : Nat := 0x07000000 + p * 0x00100000 + 0x10
/-- PART_HOLD_LIMIT, offset 0x20 (R44). -/
def Reg.PART_HOLD_LIMIT (p : Nat) : Nat := 0x07000000 + p * 0x00100000 + 0x20
/-- PART_LCC_LO, offset 0x30 (R49). -/
def Reg.PART_LCC_LO (p : Nat) : Nat := 0x07000000 + p * 0x00100000 + 0x30
/-- PART_LCC_HI, offset 0x34 (R49). -/
def Reg.PART_LCC_HI (p : Nat) : Nat := 0x07000000 + p * 0x00100000 + 0x34
/-- PART_IRQ_CAUSE, offset 0x100 (R65). -/
def Reg.PART_IRQ_CAUSE (p : Nat) : Nat := 0x07000000 + p * 0x00100000 + 0x100
/-- PART_IRQ_MASK, offset 0x104 (R65). -/
def Reg.PART_IRQ_MASK (p : Nat) : Nat := 0x07000000 + p * 0x00100000 + 0x104
/-- PART_IRQ_SUMMARY, offset 0x108 (R65). -/
def Reg.PART_IRQ_SUMMARY (p : Nat) : Nat := 0x07000000 + p * 0x00100000 + 0x108
/-- PART_FAULT_STATUS, offset 0x200 (R63). -/
def Reg.PART_FAULT_STATUS (p : Nat) : Nat := 0x07000000 + p * 0x00100000 + 0x200
/-- PART_FAULT_REC, offset 0x210 (R63). -/
def Reg.PART_FAULT_REC (p : Nat) (i : Nat) : Nat := 0x07000000 + p * 0x00100000 + 0x210 + i * 4
/-- PART_FAULT_POP, offset 0x230 (R63). -/
def Reg.PART_FAULT_POP (p : Nat) : Nat := 0x07000000 + p * 0x00100000 + 0x230
/-- PART_CPL_BASE_LO, offset 0x300 (R55). -/
def Reg.PART_CPL_BASE_LO (p : Nat) : Nat := 0x07000000 + p * 0x00100000 + 0x300
/-- PART_CPL_BASE_HI, offset 0x304 (R55). -/
def Reg.PART_CPL_BASE_HI (p : Nat) : Nat := 0x07000000 + p * 0x00100000 + 0x304
/-- PART_CPL_CTRL, offset 0x308 (R55). -/
def Reg.PART_CPL_CTRL (p : Nat) : Nat := 0x07000000 + p * 0x00100000 + 0x308
/-- PART_CPL_TAIL, offset 0x30C (R55). -/
def Reg.PART_CPL_TAIL (p : Nat) : Nat := 0x07000000 + p * 0x00100000 + 0x30C
/-- PART_CPL_HEAD, offset 0x310 (R55). -/
def Reg.PART_CPL_HEAD (p : Nat) : Nat := 0x07000000 + p * 0x00100000 + 0x310
/-- PART_RSV_ME, offset 0x400 (R29). -/
def Reg.PART_RSV_ME (p : Nat) : Nat := 0x07000000 + p * 0x00100000 + 0x400
/-- PART_RSV_GC_LO, offset 0x404 (R29). -/
def Reg.PART_RSV_GC_LO (p : Nat) : Nat := 0x07000000 + p * 0x00100000 + 0x404
/-- PART_RSV_GC_HI, offset 0x408 (R29). -/
def Reg.PART_RSV_GC_HI (p : Nat) : Nat := 0x07000000 + p * 0x00100000 + 0x408
/-- PART_RSV_UNITS, offset 0x40C (R29). -/
def Reg.PART_RSV_UNITS (p : Nat) : Nat := 0x07000000 + p * 0x00100000 + 0x40C
/-- PART_RSV_T0, offset 0x410 (R29). -/
def Reg.PART_RSV_T0 (p : Nat) : Nat := 0x07000000 + p * 0x00100000 + 0x410
/-- PART_RSV_T1, offset 0x414 (R29). -/
def Reg.PART_RSV_T1 (p : Nat) : Nat := 0x07000000 + p * 0x00100000 + 0x414
/-- PART_RSV_LOFT, offset 0x418 (R29). -/
def Reg.PART_RSV_LOFT (p : Nat) : Nat := 0x07000000 + p * 0x00100000 + 0x418
/-- PART_RSV_TAGS, offset 0x41C (R29). -/
def Reg.PART_RSV_TAGS (p : Nat) : Nat := 0x07000000 + p * 0x00100000 + 0x41C
/-- PART_RSV_SEM, offset 0x420 (R29). -/
def Reg.PART_RSV_SEM (p : Nat) : Nat := 0x07000000 + p * 0x00100000 + 0x420
/-- PART_RSV_SWMIN, offset 0x424 (R29). -/
def Reg.PART_RSV_SWMIN (p : Nat) : Nat := 0x07000000 + p * 0x00100000 + 0x424
/-- PART_CHUTE_BASE_LO, offset 0x1000 (R44). -/
def Reg.PART_CHUTE_BASE_LO (p : Nat) (i : Nat) : Nat := 0x07000000 + p * 0x00100000 + 0x1000 + i * 64
/-- PART_CHUTE_BASE_HI, offset 0x1004 (R44). -/
def Reg.PART_CHUTE_BASE_HI (p : Nat) (i : Nat) : Nat := 0x07000000 + p * 0x00100000 + 0x1004 + i * 64
/-- PART_CHUTE_CTRL, offset 0x1008 (R44). -/
def Reg.PART_CHUTE_CTRL (p : Nat) (i : Nat) : Nat := 0x07000000 + p * 0x00100000 + 0x1008 + i * 64
/-- PART_CHUTE_FREE, offset 0x100C (R44). -/
def Reg.PART_CHUTE_FREE (p : Nat) (i : Nat) : Nat := 0x07000000 + p * 0x00100000 + 0x100C + i * 64
/-- PART_CHUTE_NEXT_POS, offset 0x1010 (R44). -/
def Reg.PART_CHUTE_NEXT_POS (p : Nat) (i : Nat) : Nat := 0x07000000 + p * 0x00100000 + 0x1010 + i * 64
/-- PART_CHUTE_NEXT_SEQ, offset 0x1014 (R44). -/
def Reg.PART_CHUTE_NEXT_SEQ (p : Nat) (i : Nat) : Nat := 0x07000000 + p * 0x00100000 + 0x1014 + i * 64
/-- PART_CHUTE_REWINDS, offset 0x1018 (R44). -/
def Reg.PART_CHUTE_REWINDS (p : Nat) (i : Nat) : Nat := 0x07000000 + p * 0x00100000 + 0x1018 + i * 64
/-- PART_CHUTE_LAST_REWIND, offset 0x101C (R44). -/
def Reg.PART_CHUTE_LAST_REWIND (p : Nat) (i : Nat) : Nat := 0x07000000 + p * 0x00100000 + 0x101C + i * 64
/-- PART_CHUTE_HELD, offset 0x1020 (R44). -/
def Reg.PART_CHUTE_HELD (p : Nat) (i : Nat) : Nat := 0x07000000 + p * 0x00100000 + 0x1020 + i * 64
/-- PART_CHUTE_HELD_MAX, offset 0x1024 (R44). -/
def Reg.PART_CHUTE_HELD_MAX (p : Nat) (i : Nat) : Nat := 0x07000000 + p * 0x00100000 + 0x1024 + i * 64
/-- PART_ME_SEED_LO, offset 0x2000 (R102). -/
def Reg.PART_ME_SEED_LO (p : Nat) : Nat := 0x07000000 + p * 0x00100000 + 0x2000
/-- PART_ME_SEED_HI, offset 0x2004 (R102). -/
def Reg.PART_ME_SEED_HI (p : Nat) : Nat := 0x07000000 + p * 0x00100000 + 0x2004
/-- PART_ME_ESC_CTRL, offset 0x2008 (R102). -/
def Reg.PART_ME_ESC_CTRL (p : Nat) : Nat := 0x07000000 + p * 0x00100000 + 0x2008
/-- PART_ESC_TBL_BASE_LO, offset 0x2010 (R102). -/
def Reg.PART_ESC_TBL_BASE_LO (p : Nat) : Nat := 0x07000000 + p * 0x00100000 + 0x2010
/-- PART_ESC_TBL_BASE_HI, offset 0x2014 (R102). -/
def Reg.PART_ESC_TBL_BASE_HI (p : Nat) : Nat := 0x07000000 + p * 0x00100000 + 0x2014
/-- PART_ESC_TBL_CTRL, offset 0x2018 (R102). -/
def Reg.PART_ESC_TBL_CTRL (p : Nat) : Nat := 0x07000000 + p * 0x00100000 + 0x2018
/-- PART_ESC_ARENA_BASE_LO, offset 0x2020 (R102). -/
def Reg.PART_ESC_ARENA_BASE_LO (p : Nat) : Nat := 0x07000000 + p * 0x00100000 + 0x2020
/-- PART_ESC_ARENA_BASE_HI, offset 0x2024 (R102). -/
def Reg.PART_ESC_ARENA_BASE_HI (p : Nat) : Nat := 0x07000000 + p * 0x00100000 + 0x2024
/-- PART_ESC_USED, offset 0x2028 (R102). -/
def Reg.PART_ESC_USED (p : Nat) : Nat := 0x07000000 + p * 0x00100000 + 0x2028
/-- PART_ME_INVALID_CODES, offset 0x2030 (R102). -/
def Reg.PART_ME_INVALID_CODES (p : Nat) : Nat := 0x07000000 + p * 0x00100000 + 0x2030
/-- PART_ME_IRQ_CAUSE, offset 0x2040 (R102). -/
def Reg.PART_ME_IRQ_CAUSE (p : Nat) : Nat := 0x07000000 + p * 0x00100000 + 0x2040
/-- PART_ME_IRQ_MASK, offset 0x2044 (R102). -/
def Reg.PART_ME_IRQ_MASK (p : Nat) : Nat := 0x07000000 + p * 0x00100000 + 0x2044
/-- PART_T0_USED, offset 0x3000 (R159). -/
def Reg.PART_T0_USED (p : Nat) : Nat := 0x07000000 + p * 0x00100000 + 0x3000
/-- PART_LOFT_USED, offset 0x3004 (R159). -/
def Reg.PART_LOFT_USED (p : Nat) : Nat := 0x07000000 + p * 0x00100000 + 0x3004
/-- PART_LT_BUDGET, offset 0x3008 (R159). -/
def Reg.PART_LT_BUDGET (p : Nat) : Nat := 0x07000000 + p * 0x00100000 + 0x3008
/-- PART_LT_LATE, offset 0x3010 (R159). -/
def Reg.PART_LT_LATE (p : Nat) : Nat := 0x07000000 + p * 0x00100000 + 0x3010
/-- PART_LT_FAILED, offset 0x3014 (R159). -/
def Reg.PART_LT_FAILED (p : Nat) : Nat := 0x07000000 + p * 0x00100000 + 0x3014
/-- PART_XLT_ROOT_LO, offset 0x4000 (R178). -/
def Reg.PART_XLT_ROOT_LO (p : Nat) : Nat := 0x07000000 + p * 0x00100000 + 0x4000
/-- PART_XLT_ROOT_HI, offset 0x4004 (R178). -/
def Reg.PART_XLT_ROOT_HI (p : Nat) : Nat := 0x07000000 + p * 0x00100000 + 0x4004
/-- PART_XLT_CTRL, offset 0x4008 (R178). -/
def Reg.PART_XLT_CTRL (p : Nat) : Nat := 0x07000000 + p * 0x00100000 + 0x4008
/-- PART_XLT_INV_VA_LO, offset 0x4010 (R178). -/
def Reg.PART_XLT_INV_VA_LO (p : Nat) : Nat := 0x07000000 + p * 0x00100000 + 0x4010
/-- PART_XLT_INV_VA_HI, offset 0x4014 (R178). -/
def Reg.PART_XLT_INV_VA_HI (p : Nat) : Nat := 0x07000000 + p * 0x00100000 + 0x4014
/-- PART_XLT_INV_CTRL, offset 0x4018 (R178). -/
def Reg.PART_XLT_INV_CTRL (p : Nat) : Nat := 0x07000000 + p * 0x00100000 + 0x4018
/-- PART_XLT_WALKS_LO, offset 0x4020 (R178). -/
def Reg.PART_XLT_WALKS_LO (p : Nat) : Nat := 0x07000000 + p * 0x00100000 + 0x4020
/-- PART_XLT_WALKS_HI, offset 0x4024 (R178). -/
def Reg.PART_XLT_WALKS_HI (p : Nat) : Nat := 0x07000000 + p * 0x00100000 + 0x4024
/-- PART_XLT_FAULTS, offset 0x4028 (R178). -/
def Reg.PART_XLT_FAULTS (p : Nat) : Nat := 0x07000000 + p * 0x00100000 + 0x4028
/-- PART_XLT_MERGES, offset 0x402C (R178). -/
def Reg.PART_XLT_MERGES (p : Nat) : Nat := 0x07000000 + p * 0x00100000 + 0x402C
/-- PART_XLT_IRQ_CAUSE, offset 0x4040 (R178). -/
def Reg.PART_XLT_IRQ_CAUSE (p : Nat) : Nat := 0x07000000 + p * 0x00100000 + 0x4040
/-- PART_XLT_IRQ_MASK, offset 0x4044 (R178). -/
def Reg.PART_XLT_IRQ_MASK (p : Nat) : Nat := 0x07000000 + p * 0x00100000 + 0x4044
/-- PART_FABRIC_CTRL, offset 0x5000 (R260). -/
def Reg.PART_FABRIC_CTRL (p : Nat) : Nat := 0x07000000 + p * 0x00100000 + 0x5000
/-- PART_MBOX_BASE_LO, offset 0x5010 (R260). -/
def Reg.PART_MBOX_BASE_LO (p : Nat) : Nat := 0x07000000 + p * 0x00100000 + 0x5010
/-- PART_MBOX_BASE_HI, offset 0x5014 (R260). -/
def Reg.PART_MBOX_BASE_HI (p : Nat) : Nat := 0x07000000 + p * 0x00100000 + 0x5014
/-- PART_MBOX_CTRL, offset 0x5018 (R260). -/
def Reg.PART_MBOX_CTRL (p : Nat) : Nat := 0x07000000 + p * 0x00100000 + 0x5018
/-- PART_MBOX_TAIL, offset 0x501C (R260). -/
def Reg.PART_MBOX_TAIL (p : Nat) : Nat := 0x07000000 + p * 0x00100000 + 0x501C
/-- PART_MBOX_HEAD, offset 0x5020 (R260). -/
def Reg.PART_MBOX_HEAD (p : Nat) : Nat := 0x07000000 + p * 0x00100000 + 0x5020
/-- PART_MBOX_TAG, offset 0x5024 (R260). -/
def Reg.PART_MBOX_TAG (p : Nat) : Nat := 0x07000000 + p * 0x00100000 + 0x5024
/-- PART_MBOX_SEM, offset 0x5028 (R260). -/
def Reg.PART_MBOX_SEM (p : Nat) : Nat := 0x07000000 + p * 0x00100000 + 0x5028
/-- PART_MBOX_DELIVERED, offset 0x502C (R260). -/
def Reg.PART_MBOX_DELIVERED (p : Nat) : Nat := 0x07000000 + p * 0x00100000 + 0x502C
/-- PART_MBOX_REFUSED, offset 0x5030 (R260). -/
def Reg.PART_MBOX_REFUSED (p : Nat) : Nat := 0x07000000 + p * 0x00100000 + 0x5030
/-- PART_FAB_RETRIES, offset 0x5040 (R260). -/
def Reg.PART_FAB_RETRIES (p : Nat) : Nat := 0x07000000 + p * 0x00100000 + 0x5040
/-- PART_FAB_TARGET_LOST, offset 0x5044 (R260). -/
def Reg.PART_FAB_TARGET_LOST (p : Nat) : Nat := 0x07000000 + p * 0x00100000 + 0x5044
/-- PART_ROW_DIR_BASE_LO, offset 0x6000 (R288). -/
def Reg.PART_ROW_DIR_BASE_LO (p : Nat) : Nat := 0x07000000 + p * 0x00100000 + 0x6000
/-- PART_ROW_DIR_BASE_HI, offset 0x6004 (R288). -/
def Reg.PART_ROW_DIR_BASE_HI (p : Nat) : Nat := 0x07000000 + p * 0x00100000 + 0x6004
/-- PART_ROW_DIR_CTRL, offset 0x6008 (R288). -/
def Reg.PART_ROW_DIR_CTRL (p : Nat) : Nat := 0x07000000 + p * 0x00100000 + 0x6008
/-- PART_ROW_MIG_GRACE, offset 0x6010 (R288). -/
def Reg.PART_ROW_MIG_GRACE (p : Nat) : Nat := 0x07000000 + p * 0x00100000 + 0x6010
/-- PART_ROW_DEFAULTS, offset 0x6020 (R288). -/
def Reg.PART_ROW_DEFAULTS (p : Nat) : Nat := 0x07000000 + p * 0x00100000 + 0x6020
/-- PART_ROW_REDIR_MISS, offset 0x6024 (R288). -/
def Reg.PART_ROW_REDIR_MISS (p : Nat) : Nat := 0x07000000 + p * 0x00100000 + 0x6024
/-- PART_ROW_STRAY, offset 0x6028 (R288). -/
def Reg.PART_ROW_STRAY (p : Nat) : Nat := 0x07000000 + p * 0x00100000 + 0x6028
/-- PART_ROW_DUP_POS, offset 0x602C (R288). -/
def Reg.PART_ROW_DUP_POS (p : Nat) : Nat := 0x07000000 + p * 0x00100000 + 0x602C
/-- PART_ROW_NONFINITE, offset 0x6030 (R288). -/
def Reg.PART_ROW_NONFINITE (p : Nat) : Nat := 0x07000000 + p * 0x00100000 + 0x6030
/-- PART_ROW_FWD, offset 0x6034 (R288). -/
def Reg.PART_ROW_FWD (p : Nat) : Nat := 0x07000000 + p * 0x00100000 + 0x6034
/-- PART_ROW_FWD_DROP, offset 0x6038 (R288). -/
def Reg.PART_ROW_FWD_DROP (p : Nat) : Nat := 0x07000000 + p * 0x00100000 + 0x6038
/-- PART_ROW_IRQ_CAUSE, offset 0x6040 (R288). -/
def Reg.PART_ROW_IRQ_CAUSE (p : Nat) : Nat := 0x07000000 + p * 0x00100000 + 0x6040
/-- PART_ROW_IRQ_MASK, offset 0x6044 (R288). -/
def Reg.PART_ROW_IRQ_MASK (p : Nat) : Nat := 0x07000000 + p * 0x00100000 + 0x6044
/-- PART_WIN_DIR_BASE_LO, offset 0x7000 (R321). -/
def Reg.PART_WIN_DIR_BASE_LO (p : Nat) : Nat := 0x07000000 + p * 0x00100000 + 0x7000
/-- PART_WIN_DIR_BASE_HI, offset 0x7004 (R321). -/
def Reg.PART_WIN_DIR_BASE_HI (p : Nat) : Nat := 0x07000000 + p * 0x00100000 + 0x7004
/-- PART_WIN_DIR_CTRL, offset 0x7008 (R321). -/
def Reg.PART_WIN_DIR_CTRL (p : Nat) : Nat := 0x07000000 + p * 0x00100000 + 0x7008
/-- PART_WIN_IDX_CTRL, offset 0x7010 (R321). -/
def Reg.PART_WIN_IDX_CTRL (p : Nat) : Nat := 0x07000000 + p * 0x00100000 + 0x7010
/-- PART_WIN_IDX_LOADED_LO, offset 0x7014 (R321). -/
def Reg.PART_WIN_IDX_LOADED_LO (p : Nat) : Nat := 0x07000000 + p * 0x00100000 + 0x7014
/-- PART_WIN_IDX_LOADED_HI, offset 0x7018 (R321). -/
def Reg.PART_WIN_IDX_LOADED_HI (p : Nat) : Nat := 0x07000000 + p * 0x00100000 + 0x7018
/-- PART_WIN_FEWER, offset 0x7020 (R321). -/
def Reg.PART_WIN_FEWER (p : Nat) : Nat := 0x07000000 + p * 0x00100000 + 0x7020
/-- PART_WIN_STALE, offset 0x7024 (R321). -/
def Reg.PART_WIN_STALE (p : Nat) : Nat := 0x07000000 + p * 0x00100000 + 0x7024
/-- PART_WIN_NAN, offset 0x7028 (R321). -/
def Reg.PART_WIN_NAN (p : Nat) : Nat := 0x07000000 + p * 0x00100000 + 0x7028
/-- PART_WIN_CLIPPED, offset 0x702C (R321). -/
def Reg.PART_WIN_CLIPPED (p : Nat) : Nat := 0x07000000 + p * 0x00100000 + 0x702C
/-- PART_WIN_SKIPPED, offset 0x7030 (R321). -/
def Reg.PART_WIN_SKIPPED (p : Nat) : Nat := 0x07000000 + p * 0x00100000 + 0x7030
/-- PART_WIN_UPSERTS, offset 0x7034 (R321). -/
def Reg.PART_WIN_UPSERTS (p : Nat) : Nat := 0x07000000 + p * 0x00100000 + 0x7034
/-- PART_WIN_DEL_ABSENT, offset 0x7038 (R321). -/
def Reg.PART_WIN_DEL_ABSENT (p : Nat) : Nat := 0x07000000 + p * 0x00100000 + 0x7038
/-- PART_WIN_IRQ_CAUSE, offset 0x7040 (R321). -/
def Reg.PART_WIN_IRQ_CAUSE (p : Nat) : Nat := 0x07000000 + p * 0x00100000 + 0x7040
/-- PART_WIN_IRQ_MASK, offset 0x7044 (R321). -/
def Reg.PART_WIN_IRQ_MASK (p : Nat) : Nat := 0x07000000 + p * 0x00100000 + 0x7044
/-- PART_SEM_SEL, offset 0x8000 (R349). -/
def Reg.PART_SEM_SEL (p : Nat) : Nat := 0x07000000 + p * 0x00100000 + 0x8000
/-- PART_SEM_VAL_LO, offset 0x8004 (R349). -/
def Reg.PART_SEM_VAL_LO (p : Nat) : Nat := 0x07000000 + p * 0x00100000 + 0x8004
/-- PART_SEM_VAL_HI, offset 0x8008 (R349). -/
def Reg.PART_SEM_VAL_HI (p : Nat) : Nat := 0x07000000 + p * 0x00100000 + 0x8008
/-- PART_BAR_CTRL, offset 0x8020 (R349). -/
def Reg.PART_BAR_CTRL (p : Nat) : Nat := 0x07000000 + p * 0x00100000 + 0x8020
/-- PART_BAR_LAST_SUSPECT, offset 0x8024 (R349). -/
def Reg.PART_BAR_LAST_SUSPECT (p : Nat) : Nat := 0x07000000 + p * 0x00100000 + 0x8024
/-- PART_COMP_STATUS, offset 0x8040 (R349). -/
def Reg.PART_COMP_STATUS (p : Nat) : Nat := 0x07000000 + p * 0x00100000 + 0x8040
/-- PART_COMP_EPOCH, offset 0x8044 (R349). -/
def Reg.PART_COMP_EPOCH (p : Nat) : Nat := 0x07000000 + p * 0x00100000 + 0x8044
/-- PART_COMP_ROLE_EPOCH, offset 0x8048 (R349). -/
def Reg.PART_COMP_ROLE_EPOCH (p : Nat) : Nat := 0x07000000 + p * 0x00100000 + 0x8048
/-- PART_COMP_MEMBERS, offset 0x804C (R349). -/
def Reg.PART_COMP_MEMBERS (p : Nat) : Nat := 0x07000000 + p * 0x00100000 + 0x804C
/-- PART_COMP_SEL, offset 0x8050 (R349). -/
def Reg.PART_COMP_SEL (p : Nat) : Nat := 0x07000000 + p * 0x00100000 + 0x8050
/-- PART_COMP_ENTRY, offset 0x8054 (R349). -/
def Reg.PART_COMP_ENTRY (p : Nat) : Nat := 0x07000000 + p * 0x00100000 + 0x8054
/-- PART_COMP_PROP_BASE_LO, offset 0x8060 (R349). -/
def Reg.PART_COMP_PROP_BASE_LO (p : Nat) : Nat := 0x07000000 + p * 0x00100000 + 0x8060
/-- PART_COMP_PROP_BASE_HI, offset 0x8064 (R349). -/
def Reg.PART_COMP_PROP_BASE_HI (p : Nat) : Nat := 0x07000000 + p * 0x00100000 + 0x8064
/-- PART_COMP_PROP_CTRL, offset 0x8068 (R349). -/
def Reg.PART_COMP_PROP_CTRL (p : Nat) : Nat := 0x07000000 + p * 0x00100000 + 0x8068
/-- PART_COMP_PROP_EPOCH, offset 0x806C (R349). -/
def Reg.PART_COMP_PROP_EPOCH (p : Nat) : Nat := 0x07000000 + p * 0x00100000 + 0x806C
/-- PART_COMP_PROP_ID, offset 0x8070 (R349). -/
def Reg.PART_COMP_PROP_ID (p : Nat) : Nat := 0x07000000 + p * 0x00100000 + 0x8070
/-- PART_COMP_REFUSER, offset 0x8074 (R349). -/
def Reg.PART_COMP_REFUSER (p : Nat) : Nat := 0x07000000 + p * 0x00100000 + 0x8074
/-- PART_DIG_KEY, offset 0x8080 (R349). -/
def Reg.PART_DIG_KEY (p : Nat) (i : Nat) : Nat := 0x07000000 + p * 0x00100000 + 0x8080 + i * 4
/-- PART_DIG_WAIT, offset 0x8090 (R349). -/
def Reg.PART_DIG_WAIT (p : Nat) : Nat := 0x07000000 + p * 0x00100000 + 0x8090
/-- PART_DIG_EXPEL_STEP, offset 0x8094 (R349). -/
def Reg.PART_DIG_EXPEL_STEP (p : Nat) : Nat := 0x07000000 + p * 0x00100000 + 0x8094
/-- PART_DIG_EXPEL_MASK, offset 0x8098 (R349). -/
def Reg.PART_DIG_EXPEL_MASK (p : Nat) : Nat := 0x07000000 + p * 0x00100000 + 0x8098
/-- PART_SEM_SAT, offset 0x80A0 (R349). -/
def Reg.PART_SEM_SAT (p : Nat) : Nat := 0x07000000 + p * 0x00100000 + 0x80A0
/-- PART_SEM_POISON, offset 0x80A4 (R349). -/
def Reg.PART_SEM_POISON (p : Nat) : Nat := 0x07000000 + p * 0x00100000 + 0x80A4
/-- PART_STALE_IN, offset 0x80A8 (R349). -/
def Reg.PART_STALE_IN (p : Nat) : Nat := 0x07000000 + p * 0x00100000 + 0x80A8
/-- PART_DIG_DROPPED, offset 0x80AC (R349). -/
def Reg.PART_DIG_DROPPED (p : Nat) : Nat := 0x07000000 + p * 0x00100000 + 0x80AC
/-- PART_BAR_SUSPECTS, offset 0x80B0 (R349). -/
def Reg.PART_BAR_SUSPECTS (p : Nat) : Nat := 0x07000000 + p * 0x00100000 + 0x80B0
/-- PART_SYNC_IRQ_CAUSE, offset 0x80C0 (R349). -/
def Reg.PART_SYNC_IRQ_CAUSE (p : Nat) : Nat := 0x07000000 + p * 0x00100000 + 0x80C0
/-- PART_SYNC_IRQ_MASK, offset 0x80C4 (R349). -/
def Reg.PART_SYNC_IRQ_MASK (p : Nat) : Nat := 0x07000000 + p * 0x00100000 + 0x80C4
def RegMap.partRows0 : List RegRow := [
  ⟨0x0, 1, 4, 0x0, 0x0, 0x0, .one⟩,
  ⟨0x10, 1, 4, 0x0, 0x0, 0x1, .one⟩,
  ⟨0x20, 1, 4, 0xFFFFFFFF, 0x0, 0x0, .one⟩,
  ⟨0x30, 1, 4, 0x0, 0x0, 0x0, .lo⟩,
  ⟨0x34, 1, 4, 0x0, 0x0, 0x0, .hi⟩,
  ⟨0x100, 1, 4, 0x0, 0xDD, 0x0, .one⟩,
  ⟨0x104, 1, 4, 0xFF, 0x0, 0x0, .one⟩,
  ⟨0x108, 1, 4, 0x0, 0x0, 0x0, .one⟩,
  ⟨0x200, 1, 4, 0x0, 0x0, 0x0, .one⟩,
  ⟨0x210, 8, 4, 0x0, 0x0, 0x0, .one⟩,
  ⟨0x230, 1, 4, 0x0, 0x0, 0x1, .one⟩,
  ⟨0x300, 1, 4, 0xFFFFF000, 0x0, 0x0, .lo⟩,
  ⟨0x304, 1, 4, 0xFF, 0x0, 0x0, .hi⟩,
  ⟨0x308, 1, 4, 0x1F01, 0x0, 0x0, .one⟩,
  ⟨0x30C, 1, 4, 0x0, 0x0, 0x0, .one⟩,
  ⟨0x310, 1, 4, 0x7FFF, 0x0, 0x0, .one⟩]
def RegMap.partRows1 : List RegRow := [
  ⟨0x400, 1, 4, 0x0, 0x0, 0x0, .one⟩,
  ⟨0x404, 1, 4, 0x0, 0x0, 0x0, .lo⟩,
  ⟨0x408, 1, 4, 0x0, 0x0, 0x0, .hi⟩,
  ⟨0x40C, 1, 4, 0x0, 0x0, 0x0, .one⟩,
  ⟨0x410, 1, 4, 0x0, 0x0, 0x0, .one⟩,
  ⟨0x414, 1, 4, 0x0, 0x0, 0x0, .one⟩,
  ⟨0x418, 1, 4, 0x0, 0x0, 0x0, .one⟩,
  ⟨0x41C, 1, 4, 0x0, 0x0, 0x0, .one⟩,
  ⟨0x420, 1, 4, 0x0, 0x0, 0x0, .one⟩,
  ⟨0x424, 1, 4, 0x0, 0x0, 0x0, .one⟩,
  ⟨0x1000, 64, 64, 0xFFFFF000, 0x0, 0x0, .lo⟩,
  ⟨0x1004, 64, 64, 0xFF, 0x0, 0x0, .hi⟩,
  ⟨0x1008, 64, 64, 0x1F01, 0x0, 0x0, .one⟩,
  ⟨0x100C, 64, 64, 0x0, 0x0, 0x0, .one⟩,
  ⟨0x1010, 64, 64, 0x0, 0x0, 0x0, .one⟩,
  ⟨0x1014, 64, 64, 0x0, 0x0, 0x0, .one⟩]
def RegMap.partRows2 : List RegRow := [
  ⟨0x1018, 64, 64, 0x0, 0x0, 0x0, .one⟩,
  ⟨0x101C, 64, 64, 0x0, 0x0, 0x0, .one⟩,
  ⟨0x1020, 64, 64, 0x0, 0x0, 0x0, .one⟩,
  ⟨0x1024, 64, 64, 0x0, 0x0, 0x0, .one⟩,
  ⟨0x2000, 1, 4, 0xFFFFFFFF, 0x0, 0x0, .lo⟩,
  ⟨0x2004, 1, 4, 0xFFFFFFFF, 0x0, 0x0, .hi⟩,
  ⟨0x2008, 1, 4, 0xF000F, 0x0, 0x0, .one⟩,
  ⟨0x2010, 1, 4, 0xFFFFF000, 0x0, 0x0, .lo⟩,
  ⟨0x2014, 1, 4, 0xFF, 0x0, 0x0, .hi⟩,
  ⟨0x2018, 1, 4, 0x1F01, 0x0, 0x2, .one⟩,
  ⟨0x2020, 1, 4, 0xFFFFF000, 0x0, 0x0, .lo⟩,
  ⟨0x2024, 1, 4, 0xFF, 0x0, 0x0, .hi⟩,
  ⟨0x2028, 1, 4, 0x0, 0x0, 0x0, .one⟩,
  ⟨0x2030, 1, 4, 0x0, 0x0, 0x0, .one⟩,
  ⟨0x2040, 1, 4, 0x0, 0xF, 0x0, .one⟩,
  ⟨0x2044, 1, 4, 0xF, 0x0, 0x0, .one⟩]
def RegMap.partRows3 : List RegRow := [
  ⟨0x3000, 1, 4, 0x0, 0x0, 0x0, .one⟩,
  ⟨0x3004, 1, 4, 0x0, 0x0, 0x0, .one⟩,
  ⟨0x3008, 1, 4, 0xFFFFFFFF, 0x0, 0x0, .one⟩,
  ⟨0x3010, 1, 4, 0x0, 0x0, 0x0, .one⟩,
  ⟨0x3014, 1, 4, 0x0, 0x0, 0x0, .one⟩,
  ⟨0x4000, 1, 4, 0xFFFFF000, 0x0, 0x0, .lo⟩,
  ⟨0x4004, 1, 4, 0xFF, 0x0, 0x0, .hi⟩,
  ⟨0x4008, 1, 4, 0x1, 0x0, 0x0, .one⟩,
  ⟨0x4010, 1, 4, 0xFFFFF000, 0x0, 0x0, .lo⟩,
  ⟨0x4014, 1, 4, 0x1FFFFFF, 0x0, 0x0, .hi⟩,
  ⟨0x4018, 1, 4, 0x3F0000, 0x0, 0x3, .one⟩,
  ⟨0x4020, 1, 4, 0x0, 0x0, 0x0, .lo⟩,
  ⟨0x4024, 1, 4, 0x0, 0x0, 0x0, .hi⟩,
  ⟨0x4028, 1, 4, 0x0, 0x0, 0x0, .one⟩,
  ⟨0x402C, 1, 4, 0x0, 0x0, 0x0, .one⟩,
  ⟨0x4040, 1, 4, 0x0, 0x7, 0x0, .one⟩]
def RegMap.partRows4 : List RegRow := [
  ⟨0x4044, 1, 4, 0x7, 0x0, 0x0, .one⟩,
  ⟨0x5000, 1, 4, 0x1, 0x0, 0x0, .one⟩,
  ⟨0x5010, 1, 4, 0xFFFFF000, 0x0, 0x0, .lo⟩,
  ⟨0x5014, 1, 4, 0xFF, 0x0, 0x0, .hi⟩,
  ⟨0x5018, 1, 4, 0x1F01, 0x0, 0x0, .one⟩,
  ⟨0x501C, 1, 4, 0x0, 0x0, 0x0, .one⟩,
  ⟨0x5020, 1, 4, 0x3FFFF, 0x0, 0x0, .one⟩,
  ⟨0x5024, 1, 4, 0xFFFF, 0x0, 0x0, .one⟩,
  ⟨0x5028, 1, 4, 0x8003FFFF, 0x0, 0x0, .one⟩,
  ⟨0x502C, 1, 4, 0x0, 0x0, 0x0, .one⟩,
  ⟨0x5030, 1, 4, 0x0, 0x0, 0x0, .one⟩,
  ⟨0x5040, 1, 4, 0x0, 0x0, 0x0, .one⟩,
  ⟨0x5044, 1, 4, 0x0, 0x0, 0x0, .one⟩,
  ⟨0x6000, 1, 4, 0xFFFFF000, 0x0, 0x0, .lo⟩,
  ⟨0x6004, 1, 4, 0xFF, 0x0, 0x0, .hi⟩,
  ⟨0x6008, 1, 4, 0x1, 0x0, 0x0, .one⟩]
def RegMap.partRows5 : List RegRow := [
  ⟨0x6010, 1, 4, 0xFFFFFFFF, 0x0, 0x0, .one⟩,
  ⟨0x6020, 1, 4, 0x0, 0x0, 0x0, .one⟩,
  ⟨0x6024, 1, 4, 0x0, 0x0, 0x0, .one⟩,
  ⟨0x6028, 1, 4, 0x0, 0x0, 0x0, .one⟩,
  ⟨0x602C, 1, 4, 0x0, 0x0, 0x0, .one⟩,
  ⟨0x6030, 1, 4, 0x0, 0x0, 0x0, .one⟩,
  ⟨0x6034, 1, 4, 0x0, 0x0, 0x0, .one⟩,
  ⟨0x6038, 1, 4, 0x0, 0x0, 0x0, .one⟩,
  ⟨0x6040, 1, 4, 0x0, 0x1F, 0x0, .one⟩,
  ⟨0x6044, 1, 4, 0x1F, 0x0, 0x0, .one⟩,
  ⟨0x7000, 1, 4, 0xFFFFF000, 0x0, 0x0, .lo⟩,
  ⟨0x7004, 1, 4, 0xFF, 0x0, 0x0, .hi⟩,
  ⟨0x7008, 1, 4, 0x1, 0x0, 0x0, .one⟩,
  ⟨0x7010, 1, 4, 0x3F, 0x0, 0x300, .one⟩,
  ⟨0x7014, 1, 4, 0x0, 0x0, 0x0, .lo⟩,
  ⟨0x7018, 1, 4, 0x0, 0x0, 0x0, .hi⟩]
def RegMap.partRows6 : List RegRow := [
  ⟨0x7020, 1, 4, 0x0, 0x0, 0x0, .one⟩,
  ⟨0x7024, 1, 4, 0x0, 0x0, 0x0, .one⟩,
  ⟨0x7028, 1, 4, 0x0, 0x0, 0x0, .one⟩,
  ⟨0x702C, 1, 4, 0x0, 0x0, 0x0, .one⟩,
  ⟨0x7030, 1, 4, 0x0, 0x0, 0x0, .one⟩,
  ⟨0x7034, 1, 4, 0x0, 0x0, 0x0, .one⟩,
  ⟨0x7038, 1, 4, 0x0, 0x0, 0x0, .one⟩,
  ⟨0x7040, 1, 4, 0x0, 0xF, 0x0, .one⟩,
  ⟨0x7044, 1, 4, 0xF, 0x0, 0x0, .one⟩,
  ⟨0x8000, 1, 4, 0x3FFFF, 0x0, 0x0, .one⟩,
  ⟨0x8004, 1, 4, 0xFFFFFFFF, 0x0, 0x0, .lo⟩,
  ⟨0x8008, 1, 4, 0xFFFFFFFF, 0x0, 0x0, .hi⟩,
  ⟨0x8020, 1, 4, 0x7F, 0x0, 0x0, .one⟩,
  ⟨0x8024, 1, 4, 0x0, 0x0, 0x0, .one⟩,
  ⟨0x8040, 1, 4, 0x0, 0x0, 0x0, .one⟩,
  ⟨0x8044, 1, 4, 0x0, 0x0, 0x0, .one⟩]
def RegMap.partRows7 : List RegRow := [
  ⟨0x8048, 1, 4, 0x0, 0x0, 0x0, .one⟩,
  ⟨0x804C, 1, 4, 0x0, 0x0, 0x0, .one⟩,
  ⟨0x8050, 1, 4, 0xFFF, 0x0, 0x0, .one⟩,
  ⟨0x8054, 1, 4, 0x0, 0x0, 0x0, .one⟩,
  ⟨0x8060, 1, 4, 0xFFFFF000, 0x0, 0x0, .lo⟩,
  ⟨0x8064, 1, 4, 0xFF, 0x0, 0x0, .hi⟩,
  ⟨0x8068, 1, 4, 0x1FFF, 0x0, 0x2000, .one⟩,
  ⟨0x806C, 1, 4, 0xFFFFFFFF, 0x0, 0x0, .one⟩,
  ⟨0x8070, 1, 4, 0xFFFFFFFF, 0x0, 0x0, .one⟩,
  ⟨0x8074, 1, 4, 0x0, 0x0, 0x0, .one⟩,
  ⟨0x8080, 4, 4, 0xFFFFFFFF, 0x0, 0x0, .one⟩,
  ⟨0x8090, 1, 4, 0xFFFFFFFF, 0x0, 0x0, .one⟩,
  ⟨0x8094, 1, 4, 0x0, 0x0, 0x0, .one⟩,
  ⟨0x8098, 1, 4, 0x0, 0x0, 0x0, .one⟩,
  ⟨0x80A0, 1, 4, 0x0, 0x0, 0x0, .one⟩,
  ⟨0x80A4, 1, 4, 0x0, 0x0, 0x0, .one⟩]
def RegMap.partRows8 : List RegRow := [
  ⟨0x80A8, 1, 4, 0x0, 0x0, 0x0, .one⟩,
  ⟨0x80AC, 1, 4, 0x0, 0x0, 0x0, .one⟩,
  ⟨0x80B0, 1, 4, 0x0, 0x0, 0x0, .one⟩,
  ⟨0x80C0, 1, 4, 0x0, 0x3F, 0x0, .one⟩,
  ⟨0x80C4, 1, 4, 0x3F, 0x0, 0x0, .one⟩]
/-- The registers of a part block. -/
def RegMap.partRows : List RegRow := RegMap.partRows0 ++ RegMap.partRows1 ++ RegMap.partRows2 ++ RegMap.partRows3 ++ RegMap.partRows4 ++ RegMap.partRows5 ++ RegMap.partRows6 ++ RegMap.partRows7 ++ RegMap.partRows8
/-- Reset values of a part block that are not zero. -/
def RegMap.partReset : List (Nat × Nat) := [(0x20, 0x186A0), (0x104, 0xFF), (0x2008, 0x50008), (0x2044, 0xF), (0x3008, 0x2710), (0x4044, 0x7), (0x6010, 0x1C9C380), (0x6044, 0x1F), (0x7044, 0xF), (0x8020, 0x10), (0x8040, 0xFFFF), (0x8090, 0x186A0), (0x80C4, 0x3F)]
/-! ### Registers of the scl block -/
/-- SCL_CTRL, offset 0x0 (R461). -/
def Reg.SCL_CTRL (k : Nat) : Nat := 0x09000000 + k * 0x00100000 + 0x0
/-- SCL_SYNC, offset 0x4 (R461). -/
def Reg.SCL_SYNC (k : Nat) : Nat := 0x09000000 + k * 0x00100000 + 0x4
/-- SCL_EVSEL, offset 0x10 (R461). -/
def Reg.SCL_EVSEL (k : Nat) (i : Nat) : Nat := 0x09000000 + k * 0x00100000 + 0x10 + i * 4
/-- SCL_FILT, offset 0x30 (R461). -/
def Reg.SCL_FILT (k : Nat) (i : Nat) : Nat := 0x09000000 + k * 0x00100000 + 0x30 + i * 4
/-- SCL_RANGE_BASE_LO, offset 0x50 (R461). -/
def Reg.SCL_RANGE_BASE_LO (k : Nat) (i : Nat) : Nat := 0x09000000 + k * 0x00100000 + 0x50 + i * 16
/-- SCL_RANGE_BASE_HI, offset 0x54 (R461). -/
def Reg.SCL_RANGE_BASE_HI (k : Nat) (i : Nat) : Nat := 0x09000000 + k * 0x00100000 + 0x54 + i * 16
/-- SCL_RANGE_LIMIT_LO, offset 0x58 (R461). -/
def Reg.SCL_RANGE_LIMIT_LO (k : Nat) (i : Nat) : Nat := 0x09000000 + k * 0x00100000 + 0x58 + i * 16
/-- SCL_RANGE_LIMIT_HI, offset 0x5C (R461). -/
def Reg.SCL_RANGE_LIMIT_HI (k : Nat) (i : Nat) : Nat := 0x09000000 + k * 0x00100000 + 0x5C + i * 16
/-- SCL_IRQ_CAUSE, offset 0x80 (R461). -/
def Reg.SCL_IRQ_CAUSE (k : Nat) : Nat := 0x09000000 + k * 0x00100000 + 0x80
/-- SCL_IRQ_MASK, offset 0x84 (R461). -/
def Reg.SCL_IRQ_MASK (k : Nat) : Nat := 0x09000000 + k * 0x00100000 + 0x84
/-- SCL_CNT_LO, offset 0x100 (R461). -/
def Reg.SCL_CNT_LO (k : Nat) (i : Nat) : Nat := 0x09000000 + k * 0x00100000 + 0x100 + i * 8
/-- SCL_CNT_HI, offset 0x104 (R461). -/
def Reg.SCL_CNT_HI (k : Nat) (i : Nat) : Nat := 0x09000000 + k * 0x00100000 + 0x104 + i * 8
/-- SCL_FIX_CYCLES_LO, offset 0x140 (R461). -/
def Reg.SCL_FIX_CYCLES_LO (k : Nat) : Nat := 0x09000000 + k * 0x00100000 + 0x140
/-- SCL_FIX_CYCLES_HI, offset 0x144 (R461). -/
def Reg.SCL_FIX_CYCLES_HI (k : Nat) : Nat := 0x09000000 + k * 0x00100000 + 0x144
/-- SCL_FIX_PN_REPLAY, offset 0x148 (R461). -/
def Reg.SCL_FIX_PN_REPLAY (k : Nat) : Nat := 0x09000000 + k * 0x00100000 + 0x148
/-- SCL_FIX_FIFO_REWIND, offset 0x14C (R461). -/
def Reg.SCL_FIX_FIFO_REWIND (k : Nat) : Nat := 0x09000000 + k * 0x00100000 + 0x14C
/-- SCL_FIX_XLT_LOOKUP_LO, offset 0x150 (R461). -/
def Reg.SCL_FIX_XLT_LOOKUP_LO (k : Nat) : Nat := 0x09000000 + k * 0x00100000 + 0x150
/-- SCL_FIX_XLT_LOOKUP_HI, offset 0x154 (R461). -/
def Reg.SCL_FIX_XLT_LOOKUP_HI (k : Nat) : Nat := 0x09000000 + k * 0x00100000 + 0x154
/-- SCL_FIX_XLT_MISS_LO, offset 0x158 (R461). -/
def Reg.SCL_FIX_XLT_MISS_LO (k : Nat) : Nat := 0x09000000 + k * 0x00100000 + 0x158
/-- SCL_FIX_XLT_MISS_HI, offset 0x15C (R461). -/
def Reg.SCL_FIX_XLT_MISS_HI (k : Nat) : Nat := 0x09000000 + k * 0x00100000 + 0x15C
/-- SCL_BW_CTRL, offset 0x200 (R461). -/
def Reg.SCL_BW_CTRL (k : Nat) : Nat := 0x09000000 + k * 0x00100000 + 0x200
/-- SCL_BW_SEL, offset 0x204 (R461). -/
def Reg.SCL_BW_SEL (k : Nat) : Nat := 0x09000000 + k * 0x00100000 + 0x204
/-- SCL_BW_CUR_LO, offset 0x208 (R461). -/
def Reg.SCL_BW_CUR_LO (k : Nat) : Nat := 0x09000000 + k * 0x00100000 + 0x208
/-- SCL_BW_CUR_HI, offset 0x20C (R461). -/
def Reg.SCL_BW_CUR_HI (k : Nat) : Nat := 0x09000000 + k * 0x00100000 + 0x20C
/-- SCL_BW_LAST_LO, offset 0x210 (R461). -/
def Reg.SCL_BW_LAST_LO (k : Nat) : Nat := 0x09000000 + k * 0x00100000 + 0x210
/-- SCL_BW_LAST_HI, offset 0x214 (R461). -/
def Reg.SCL_BW_LAST_HI (k : Nat) : Nat := 0x09000000 + k * 0x00100000 + 0x214
/-- SCL_BW_PEAK_LO, offset 0x218 (R461). -/
def Reg.SCL_BW_PEAK_LO (k : Nat) : Nat := 0x09000000 + k * 0x00100000 + 0x218
/-- SCL_BW_PEAK_HI, offset 0x21C (R461). -/
def Reg.SCL_BW_PEAK_HI (k : Nat) : Nat := 0x09000000 + k * 0x00100000 + 0x21C
/-- SCL_BW_INDEX, offset 0x220 (R461). -/
def Reg.SCL_BW_INDEX (k : Nat) : Nat := 0x09000000 + k * 0x00100000 + 0x220
/-- SCL_SMP_CTRL, offset 0x300 (R461). -/
def Reg.SCL_SMP_CTRL (k : Nat) : Nat := 0x09000000 + k * 0x00100000 + 0x300
/-- SCL_SMP_SEED, offset 0x304 (R461). -/
def Reg.SCL_SMP_SEED (k : Nat) : Nat := 0x09000000 + k * 0x00100000 + 0x304
/-- SCL_SMP_STATUS, offset 0x308 (R461). -/
def Reg.SCL_SMP_STATUS (k : Nat) : Nat := 0x09000000 + k * 0x00100000 + 0x308
/-- SCL_SMP_DROPPED, offset 0x30C (R461). -/
def Reg.SCL_SMP_DROPPED (k : Nat) : Nat := 0x09000000 + k * 0x00100000 + 0x30C
/-- SCL_SMP_POP, offset 0x310 (R461). -/
def Reg.SCL_SMP_POP (k : Nat) : Nat := 0x09000000 + k * 0x00100000 + 0x310
/-- SCL_SMP_REC, offset 0x340 (R461). -/
def Reg.SCL_SMP_REC (k : Nat) (i : Nat) : Nat := 0x09000000 + k * 0x00100000 + 0x340 + i * 4
def RegMap.sclRows0 : List RegRow := [
  ⟨0x0, 1, 4, 0x1, 0x0, 0x2, .one⟩,
  ⟨0x4, 1, 4, 0x0, 0x0, 0x7, .one⟩,
  ⟨0x10, 8, 4, 0xFFFFFFFF, 0x0, 0x0, .one⟩,
  ⟨0x30, 8, 4, 0xFDF80FFF, 0x0, 0x0, .one⟩,
  ⟨0x50, 2, 16, 0xFFFFFFFF, 0x0, 0x0, .lo⟩,
  ⟨0x54, 2, 16, 0xFFFFFFFF, 0x0, 0x0, .hi⟩,
  ⟨0x58, 2, 16, 0xFFFFFFFF, 0x0, 0x0, .lo⟩,
  ⟨0x5C, 2, 16, 0xFFFFFFFF, 0x0, 0x0, .hi⟩,
  ⟨0x80, 1, 4, 0x0, 0x1FF, 0x0, .one⟩,
  ⟨0x84, 1, 4, 0x1FF, 0x0, 0x0, .one⟩,
  ⟨0x100, 8, 8, 0x0, 0x0, 0x0, .lo⟩,
  ⟨0x104, 8, 8, 0x0, 0x0, 0x0, .hi⟩,
  ⟨0x140, 1, 4, 0x0, 0x0, 0x0, .lo⟩,
  ⟨0x144, 1, 4, 0x0, 0x0, 0x0, .hi⟩,
  ⟨0x148, 1, 4, 0x0, 0x0, 0x0, .one⟩,
  ⟨0x14C, 1, 4, 0x0, 0x0, 0x0, .one⟩]
def RegMap.sclRows1 : List RegRow := [
  ⟨0x150, 1, 4, 0x0, 0x0, 0x0, .lo⟩,
  ⟨0x154, 1, 4, 0x0, 0x0, 0x0, .hi⟩,
  ⟨0x158, 1, 4, 0x0, 0x0, 0x0, .lo⟩,
  ⟨0x15C, 1, 4, 0x0, 0x0, 0x0, .hi⟩,
  ⟨0x200, 1, 4, 0x8000001F, 0x0, 0x0, .one⟩,
  ⟨0x204, 1, 4, 0x1F, 0x0, 0x0, .one⟩,
  ⟨0x208, 1, 4, 0x0, 0x0, 0x0, .lo⟩,
  ⟨0x20C, 1, 4, 0x0, 0x0, 0x0, .hi⟩,
  ⟨0x210, 1, 4, 0x0, 0x0, 0x0, .lo⟩,
  ⟨0x214, 1, 4, 0x0, 0x0, 0x0, .hi⟩,
  ⟨0x218, 1, 4, 0x0, 0x0, 0x0, .lo⟩,
  ⟨0x21C, 1, 4, 0x0, 0x0, 0x0, .hi⟩,
  ⟨0x220, 1, 4, 0x0, 0x0, 0x0, .one⟩,
  ⟨0x300, 1, 4, 0xFF80001F, 0x0, 0x0, .one⟩,
  ⟨0x304, 1, 4, 0xFFFFFFFF, 0x0, 0x0, .one⟩,
  ⟨0x308, 1, 4, 0x0, 0x0, 0x0, .one⟩]
def RegMap.sclRows2 : List RegRow := [
  ⟨0x30C, 1, 4, 0x0, 0x0, 0x0, .one⟩,
  ⟨0x310, 1, 4, 0x0, 0x0, 0x1, .one⟩,
  ⟨0x340, 16, 4, 0x0, 0x0, 0x0, .one⟩]
/-- The registers of a scl block. -/
def RegMap.sclRows : List RegRow := RegMap.sclRows0 ++ RegMap.sclRows1 ++ RegMap.sclRows2
/-- Reset values of a scl block that are not zero. -/
def RegMap.sclReset : List (Nat × Nat) := [(0x10, 0x3F00), (0x14, 0x3F00), (0x18, 0x3F00), (0x1C, 0x3F00), (0x20, 0x3F00), (0x24, 0x3F00), (0x28, 0x3F00), (0x2C, 0x3F00), (0x30, 0x3C000000), (0x34, 0x3C000000), (0x38, 0x3C000000), (0x3C, 0x3C000000), (0x40, 0x3C000000), (0x44, 0x3C000000), (0x48, 0x3C000000), (0x4C, 0x3C000000), (0x200, 0x80000011)]

/-- The block, its index and the offset within it of a control-space address; none where no block stands (R22). -/
def RegMap.locate (a : Nat) : Option (Blk × Nat × Nat) :=
  if a < 0x00800000 then some (.rng, 0, a)
  else if a < 0x01000000 then some (.cfg, 0, a - 0x00800000)
  else if a < 0x02000000 then
    let h := (a - 0x01000000) / 0x00800000
    let o := (a - 0x01000000) % 0x00800000
    if o < 0x100000 then some (.hub, h, o)
    else if o < 0x200000 then some (.dir, h, o - 0x100000)
    else if o < 0x280000 then some (.win, 8 * h + (o - 0x200000) / 0x10000, (o - 0x200000) % 0x10000)
    else if o < 0x300000 then none
    else if o < 0x380000 then some (.row, 8 * h + (o - 0x300000) / 0x10000, (o - 0x300000) % 0x10000)
    else if o < 0x400000 then some (.crib, h, o - 0x380000)
    else if o < 0x500000 then some (.tly, h, o - 0x400000)
    else none
  else if a < 0x04000000 then
    let c := (a - 0x02000000) / 0x00800000
    let o := (a - 0x02000000) % 0x00800000
    if o < 0x80000 then some (.me, 8 * c + o / 0x10000, o % 0x10000)
    else if o < 0x100000 then none
    else if o < 0x200000 then some (.gc, 16 * c + (o - 0x100000) / 0x10000, (o - 0x100000) % 0x10000)
    else none
  else if a < 0x06000000 then
    let t := (a - 0x04000000) / 0x00800000
    let o := (a - 0x04000000) % 0x00800000
    if o < 0x100000 then some (.sw, t, o)
    else if o < 0x130000 then some (.lnk, 3 * t + (o - 0x100000) / 0x10000, (o - 0x100000) % 0x10000)
    else if o < 0x200000 then none
    else if o < 0x300000 then (if t < 2 then some (.cxl, t, o - 0x200000) else none)
    else if o < 0x400000 then some (.tly, 2 + t, o - 0x300000)
    else none
  else if a < 0x06100000 then some (.lft, 0, a - 0x06000000)
  else if a < 0x06220000 then some (.lftCh, (a - 0x06100000) / 0x10000, (a - 0x06100000) % 0x10000)
  else if a < 0x07000000 then none
  else if a < 0x09000000 then some (.part, (a - 0x07000000) / 0x100000, (a - 0x07000000) % 0x100000)
  else if a < 0x09A00000 then some (.scl, (a - 0x09000000) / 0x100000, (a - 0x09000000) % 0x100000)
  else none

/-- The register table of a kind of block. -/
def RegMap.rowsOf : Blk → List RegRow
  | .rng => rngRows | .cfg => cfgRows | .hub => hubRows | .dir => dirRows | .win => winRows | .row => rowRows
  | .crib => cribRows | .tly => tlyRows | .me => meRows | .gc => gcRows | .sw => swRows | .lnk => lnkRows
  | .cxl => cxlRows | .lft => lftRows | .lftCh => lftChRows | .part => partRows | .scl => sclRows

/-- Does this line of a table hold the register at offset `o`? -/
def RegRow.covers (r : RegRow) (o : Nat) : Bool :=
  decide (r.off ≤ o) && decide ((o - r.off) % r.stride = 0) && decide ((o - r.off) / r.stride < r.cnt)

/-- The table line of the register at an address; none where no register exists. -/
def RegMap.rowAt (a : Nat) : Option RegRow :=
  match RegMap.locate a with
  | none => none
  | some (b, _, o) => (RegMap.rowsOf b).find? (fun r => r.covers o)

/-- The value a list of (offset, value) gives an offset, else zero. -/
def RegMap.pick (o : Nat) : List (Nat × Nat) → Nat
  | [] => 0
  | (k, v) :: t => if k = o then v else RegMap.pick o t

/-- Reset values of SW_CLASS_0 to SW_CLASS_7 (R261). -/
def RegMap.swClassReset (tc : Nat) : Nat :=
  if tc < 2 then 0x4009 else if tc < 4 then 0x4006 else if tc = 4 then 0x2007 else if tc = 5 then 0x2008
  else if tc = 6 then 0x1005 else 0x0802

/-- The reset value of the register at a control-space address: zero unless its table says otherwise. The Loft channels have the roles and
positions of R146. -/
def RegMap.reset (a : Nat) : Word :=
  match RegMap.locate a with
  | none => 0
  | some (.rng, _, o) => BitVec.ofNat 32 (if 0x10300 ≤ o && o < 0x10380 then 0xFFFF else if o = 0x10380 then 0x30D40 else RegMap.pick o rngReset)
  | some (.hub, _, o) => BitVec.ofNat 32 (if o = 0 then 0x0006063C else RegMap.pick o hubReset)
  | some (.dir, _, o) => BitVec.ofNat 32 (RegMap.pick o dirReset)
  | some (.win, w, o) => BitVec.ofNat 32 (if w = 0 then RegMap.pick o winReset else 0)
  | some (.crib, _, o) => BitVec.ofNat 32 (RegMap.pick o cribReset)
  | some (.tly, _, o) => BitVec.ofNat 32 (RegMap.pick o tlyReset)
  | some (.sw, _, o) =>
    BitVec.ofNat 32 (if 0x10 ≤ o && o < 0x30 then RegMap.swClassReset ((o - 0x10) / 4)
      else if o = 0x108 then 0x7FFF7FFF else RegMap.pick o swReset)
  | some (.lnk, _, o) => BitVec.ofNat 32 (RegMap.pick o lnkReset)
  | some (.lft, _, o) => BitVec.ofNat 32 (RegMap.pick o lftReset)
  | some (.lftCh, f, o) => BitVec.ofNat 32 (if o = 0 then (if f = 8 then 2 ^ 25 else if f = 17 then 2 ^ 26 else (if f < 8 then f else f - 1) * 2 ^ 21) else 0)
  | some (.part, p, o) =>
    BitVec.ofNat 32 (if o = 0 then p % 32 + 32 * (p / 16 % 2) + 64 * (p % 16) else RegMap.pick o partReset)
  | some (.scl, _, o) => BitVec.ofNat 32 (RegMap.pick o sclReset)
  | some _ => 0

end Sys2Proof.Machine
end

