-- ==== Sys2Proof/Machine/Table.lean ====
section
/-! DEFINITION. Sparse tables: a list of (key, value) pairs with strictly rising keys in which no entry holds the value an
unlisted key has, so that equal tables are equal data. Every memory, register file and unit array of the model is one. -/

namespace Sys2Proof.Machine

/-- A sparse table of values of type `α`. -/
abbrev Tbl (α : Type) := List (Nat × α)

/-- The value at key `k`; `d` gives what an unlisted key holds. -/
def Tbl.get {α : Type} (d : Nat → α) : Tbl α → Nat → α
  | [], k => d k
  | (j, v) :: t, k => if k = j then v else Tbl.get d t k

/-- Put an entry for `k` before the entries of larger keys, in place of an entry of the same key. -/
def Tbl.insert {α : Type} (k : Nat) (v : α) : Tbl α → Tbl α
  | [] => [(k, v)]
  | (j, w) :: t => if k < j then (k, v) :: (j, w) :: t else if k = j then (k, v) :: t else (j, w) :: Tbl.insert k v t

/-- Drop the entry of `k`. -/
def Tbl.erase {α : Type} (k : Nat) (t : Tbl α) : Tbl α := t.filter (fun e => !(e.1 == k))

/-- Write `v` at `k`, keeping the canonical form: the default value is not listed. -/
def Tbl.set {α : Type} [DecidableEq α] (d : Nat → α) (t : Tbl α) (k : Nat) (v : α) : Tbl α :=
  if v = d k then Tbl.erase k t else Tbl.insert k v t

/-- Change the value at `k`. -/
def Tbl.modify {α : Type} [DecidableEq α] (d : Nat → α) (t : Tbl α) (k : Nat) (f : α → α) : Tbl α :=
  Tbl.set d t k (f (Tbl.get d t k))

/-- Every key of the table is above `k`. -/
def Tbl.above {α : Type} (k : Nat) : Tbl α → Bool
  | [] => true
  | (j, _) :: _ => k < j

/-- The canonical form: keys strictly rising, no entry equal to the default. -/
def Tbl.wf {α : Type} [DecidableEq α] (d : Nat → α) : Tbl α → Bool
  | [] => true
  | (j, v) :: t => decide (v ≠ d j) && Tbl.above j t && Tbl.wf d t

/-- Keep the entries whose key passes the test. -/
def Tbl.keep {α : Type} (f : Nat → Bool) (t : Tbl α) : Tbl α := t.filter (fun e => f e.1)

/-- Bytes by address: T1 by fabric offset, T0 by T0 address, the Loft by logical byte, an operand buffer by byte. -/
abbrev Memory := List Host.Cell

/-- What a byte that nothing has written reads as (log entry 2: zero). -/
def Memory.default (_ : Nat) : Byte := 0

/-- Read one byte. -/
def Memory.read (m : Memory) (a : Nat) : Byte := Tbl.get Memory.default m a

/-- Write one byte. -/
def Memory.write (m : Memory) (a : Nat) (b : Byte) : Memory := Tbl.set Memory.default m a b

/-- The canonical form of a memory. -/
def Memory.wf (m : Memory) : Bool := Tbl.wf Memory.default m

/-- Read `n` bytes from `a`, as one little-endian number (R3). -/
def Memory.readN (m : Memory) (a : Nat) : Nat → Nat
  | 0 => 0
  | n + 1 => (m.read a).toNat + 256 * Memory.readN m (a + 1) n

/-- Write the `n` low bytes of a number from `a`, little-endian (R3). -/
def Memory.writeN (m : Memory) (a : Nat) : Nat → Nat → Memory
  | 0, _ => m
  | n + 1, v => Memory.writeN (m.write a (BitVec.ofNat 8 v)) (a + 1) n (v / 256)

/-- Write bytes `i` of a line where bit `i` of the mask is set (R180). -/
def Memory.writeMasked (m : Memory) (a : Nat) (mask : Nat) : Nat → Nat → Memory
  | 0, _ => m
  | n + 1, v =>
    Memory.writeMasked (if mask % 2 = 1 then m.write a (BitVec.ofNat 8 v) else m) (a + 1) (mask / 2) n (v / 256)

/-- Forget every byte of [a, a + n): it reads as the default again. -/
def Memory.zero (m : Memory) (a n : Nat) : Memory := Tbl.keep (fun k => !(a ≤ k && k < a + n)) m

end Sys2Proof.Machine
end

