-- ==== Sys2Proof/Machine/State.lean ====
section
/-! DEFINITION. The state of the part. Registers stand in one table by control-space address; a register the table does not
list holds its reset value (RegMap.reset). What the registers do not show (queues, rings, memories, directory entries, engines'
buffers) stands in a structure for each subsystem, named by the rule that gives it. -/

namespace Sys2Proof.Machine

/-- A store held on a line of a committed packet (R40), with when it arrived (R41). -/
structure HeldStore where
  arrival : Nat
  req : HomeReq
  deriving DecidableEq, Repr

/-- A committed packet not yet transferred (R36, R40): its first line within the ring, its length in lines, whether an ABORT has
taken hold of it (R59), its words. -/
structure Pkt where
  pos : Nat
  len : Nat
  aborted : Bool
  words : List Nat
  deriving DecidableEq, Repr

/-- A ring of a partition (R33): a chute, the completion chute, the mailbox, or the escalation table with its arena (range2).
`rereg` holds base and size of a registration that waits for a disable to end; `byRelease` says an extent release disabled it. -/
structure Ring where
  ready : Bool
  zeroing : Bool
  disabling : Bool
  byRelease : Bool
  rereg : Option (Range × Range)
  range : Range
  range2 : Range
  pkts : List Pkt
  held : List HeldStore
  deriving DecidableEq, Repr

/-- A ring that is not registered. -/
def Ring.none : Ring :=
  { ready := false, zeroing := false, disabling := false, byRelease := false, rereg := Option.none, range := ⟨0, 0⟩,
    range2 := ⟨0, 0⟩, pkts := [], held := [] }

/-- Where a command is (R39, R47, R53, R59): in its queue with its addresses not yet translated, held at a translation fault,
ready to start, running on a unit, or finished and waiting for its record. -/
inductive Phase where
  | queued
  | faulted (faultId : Nat)
  | ready
  | running
  | ended
  deriving DecidableEq, Repr

/-- The six command queues of a partition (R51). -/
inductive Queue where
  | move | me | gc | row | win | sync
  deriving DecidableEq, Repr

/-- One page of a command's address translation, held from the moment it was made (R170): first virtual address, size as a power of
two, the leaf entry, and the partition's count of invalidations when it was made (R177). -/
structure Pin where
  va : Nat
  log2 : Nat
  leaf : Nat
  gen : Nat
  deriving DecidableEq, Repr

/-- A command taken from a chute: its header fields (R45), its body words, where it is, and the outcome its record will carry
(R52). `unacked` counts its writes not yet acknowledged at their homes; `aux` is what a command that takes several steps keeps
between them. `inputs` are the lists it reads while it waits (R69, R132), in the order it reads them; `stuck` says that its translation has
stopped at a fault. -/
structure Cmd where
  chute : Nat
  seq : Nat
  ord : Nat
  kind : Nat
  opcode : Nat
  unit : Nat
  compId : Nat
  compEpoch : Nat
  fence : Bool
  irq : Bool
  tag : Nat
  deadline : Nat
  args : List Nat
  body : List Nat
  phase : Phase
  runUnit : Nat
  status : Nat
  result : Nat
  detail : Nat
  endOrd : Nat
  unacked : Nat
  aborting : Bool
  stopping : Bool
  pins : List Pin
  inputs : List (List Nat)
  progress : Nat
  aux : List Nat
  deriving DecidableEq, Repr

/-- A committed RESUME or ABORT packet that has not acted yet (R59, R175). -/
structure Control where
  chute : Nat
  seq : Nat
  kind : Nat
  tag : Nat
  irq : Bool
  args : List Nat
  deriving DecidableEq, Repr

/-- A fault record (R62, R173): its eight words, and whether it is in the FIFO or pending at its source. -/
structure FaultRec where
  id : Nat
  kind : Nat
  chute : Nat
  seq : Nat
  words : List Nat
  deriving DecidableEq, Repr

/-- A translation fault that holds a command (R174 to R176): its identifier, the command, the address, the access, where the address
came from, its index, and whether the access is one of a running unit. -/
structure HeldFault where
  id : Nat
  chute : Nat
  seq : Nat
  va : Nat
  access : Nat
  source : Nat
  index : Nat
  deriving DecidableEq, Repr

/-- An invalidation in progress (R177): the partition's count when it was made, and its range. -/
structure Inval where
  gen : Nat
  base : Nat
  size : Nat
  deriving DecidableEq, Repr

/-- What a partition holds besides its registers. Rings 0 to 63 are chutes, 64 the completion chute, 65 the mailbox, 66 the
escalation table and arena; `turn` is the chute the hub asks first for the next packet (R39); `clearDue` says that a clear of the escalation table waits (R102). `others` lists (chute, sequence) of committed packets that are not commands or that a reset
discarded (R59). -/
structure Part where
  relRecorded : Bool
  rings : Tbl Ring
  turn : Nat
  clearDue : Bool
  cmds : List Cmd
  nextOrd : Nat
  control : List Control
  others : List (Nat × Nat)
  phaseBit : Bool
  faults : List FaultRec
  waiting : List FaultRec
  nextFault : Nat
  held : List HeldFault
  xltGen : Nat
  inval : Option Inval
  deriving DecidableEq, Repr

/-- A partition that is FREE. -/
def Part.free : Part :=
  { relRecorded := false, rings := [], turn := 0, clearDue := false, cmds := [], nextOrd := 0, control := [], others := [], phaseBit := true,
    faults := [], waiting := [], nextFault := 0, held := [], xltGen := 0, inval := none }

/-- What a Scaler keeps besides its registers (R446 to R451): the size of its current bandwidth windows, when the last one ended, bytes by port and direction
(2 × port + direction): in the current window, in the last and the largest; counters whose thr cause is not armed; sample records,
oldest first, how many it has made; each unit's LFSR (cores, then engines from 16 on), and the label gc.tag holds for a core. -/
structure Scaler where
  window : Nat
  ended : Nat
  cur : Tbl Nat
  last : Tbl Nat
  peak : Tbl Nat
  fired : List Nat
  samples : List (List Nat)
  made : Nat
  lfsr : Tbl Nat
  tags : Tbl (Option Nat)
  deriving DecidableEq, Repr

/-- A Scaler after reset: windows of 2^17 cycles. -/
def Scaler.reset : Scaler := ⟨17, 0, [], [], [], [], [], 0, [], []⟩

/-- A lane of a Tally group (R454): locked, losses of lock, mismatched and compared bits. -/
structure Lane where
  locked : Bool
  losses : Nat
  errs : Nat
  bits : Nat
  deriving DecidableEq, Repr

/-- A lane that has seen nothing. -/
def Lane.reset : Lane := ⟨false, 0, 0, 0⟩

/-- A Tally group (R456 to R462): state, owner, stop reason and err as TLY_STATUS codes them, its configuration words, lanes by number,
flits and flits failing CRC, since when it runs, and its eye scan: lane, done, width, height, vstep and the rows of the map. -/
structure TallyGroup where
  state : Nat
  owner : Nat
  reason : Nat
  err : Nat
  cfg : Nat
  laneRange : Nat
  pat : Nat
  eyeCtrl : Nat
  lanes : Tbl Lane
  flits : Nat
  flitCrc : Nat
  since : Nat
  scanLane : Nat
  eyeDone : Bool
  width : Nat
  height : Nat
  vstep : Nat
  eyeMap : Tbl Nat
  deriving DecidableEq, Repr

/-- A group after reset. -/
def TallyGroup.reset : TallyGroup :=
  { state := 0, owner := 0, reason := 0, err := 0, cfg := 0x50000000, laneRange := 8, pat := 0, eyeCtrl := 20, lanes := [], flits := 0,
    flitCrc := 0, since := 0, scanLane := 0, eyeDone := false, width := 0, height := 0, vstep := 0, eyeMap := [] }


/-- A line of a core's L1D (R107): its physical address, the virtual addresses it was reached by, data, dirty and poison, and an error in it that no
read has found yet (0 none, 1 corrected when it is found, 2 uncorrectable). -/
structure DLine where
  addr : Nat
  vas : List Nat
  data : Nat
  dirty : Bool
  poison : Bool
  err : Nat
  deriving DecidableEq, Repr

/-- A line of a core's L1I. -/
structure ILine where
  addr : Nat
  data : Nat
  deriving DecidableEq, Repr

/-- The merge unit of a core (R120): the context it holds indices for, how many it has emitted there, and the indices. -/
structure MergeUnit where
  ctx : Option Nat
  count : Nat
  indices : List Nat
  deriving DecidableEq, Repr

/-- A general core (R103 to R120): integer, floating-point and vector registers by number, pc, the fetched instruction and its length in
bytes, fcsr, vcsr, vtype, vl, vstart, instructions retired in this run, the elements of the current instruction already done, the caches,
the merge unit, and how the run ends once its release is done (status, result, detail). -/
structure Core where
  x : Tbl Nat
  f : Tbl Nat
  v : Tbl Nat
  pc : Nat
  instr : Option (Nat × Nat)
  fcsr : Nat
  vcsr : Nat
  vtype : Nat
  vl : Nat
  vstart : Nat
  retired : Nat
  elem : Nat
  l1d : List DLine
  l1i : List ILine
  merge : MergeUnit
  ending : Option (Nat × Nat × Nat)
  deriving DecidableEq, Repr

/-- A core after reset: caches empty, vtype vill. -/
def Core.reset : Core :=
  { x := [], f := [], v := [], pc := 0, instr := none, fcsr := 0, vcsr := 0, vtype := 2 ^ 63, vl := 0, vstart := 0, retired := 0, elem := 0,
    l1d := [], l1i := [], merge := ⟨none, 0, []⟩, ending := none }


/-- A slot of an operand buffer (R70): where it starts in units of 512 bytes, its tile, whether a QUANT with esc_enable wrote it, and the
MXFP8 copy of an escalated tile (R95). -/
structure Slot where
  off : Nat
  tile : Tile
  fromEsc : Bool
  copy : Option Tile
  deriving DecidableEq, Repr

/-- A matrix engine (R68 to R95): its slots, and whether the tile of its step waits for a helper (R93). -/
structure Engine where
  slots : List Slot
  waiting : Bool
  deriving DecidableEq, Repr

/-- An engine after reset. -/
def Engine.reset : Engine := ⟨[], false⟩


/-- T1 (R129): its bytes by fabric offset, and by line the poison bit and the two home-state bits of the side-band. `err` lists the lines whose
stored codeword holds an error that no read has found yet, with what HUB_T1_LAST_SYND will show of it (bit 31: uncorrectable). -/
structure Dram where
  mem : Memory
  poison : Tbl Bool
  home : Tbl Nat
  err : Tbl (Option Nat)
  deriving DecidableEq, Repr

/-- T0 (R122 to R124): its bytes by T0 address, the poison bit of each line, and one more than the owner of each 4 KiB page
(0: no owner). `err` counts the wrong bits of the 64-bit words (by word number) in which no read has found them yet: 1 corrected, 2 uncorrectable. -/
structure Sram where
  mem : Memory
  poison : Tbl Bool
  owner : Tbl Nat
  err : Tbl Nat
  deriving DecidableEq, Repr

/-- A Loft block (R147): its 16 KiB and the poison bit of each of its 256 lines. -/
structure LoftBlock where
  data : Nat
  poison : Nat
  deriving DecidableEq, Repr

/-- A programmed block with its spare bytes (R147): the block with its poison mask, the header's logical block number (none: the parity block or
padding), write sequence and CRC-32C, and the four LDPC parity fields. -/
structure LoftPage where
  content : LoftBlock
  block : Option Nat
  wseq : Nat
  crc : Nat
  ldpc : List Nat
  deriving DecidableEq, Repr

/-- Where the Loft map finds a block (R149): in write staging, or programmed at a superblock, stripe and data position. -/
inductive LoftPlace where
  | staged (id : Nat)
  | nand (sb stripe pos : Nat)
  deriving DecidableEq, Repr

/-- A block in write staging (R145, R149): the logical block, its contents, whether it is a write (0), a garbage-collection move (1) or a
wear move (2), the superblock a wear move goes to, when it came, and the stripe that is being programmed with it. -/
structure Staged where
  id : Nat
  block : Nat
  content : LoftBlock
  cls : Nat
  target : Option Nat
  since : Nat
  program : Option (Nat × Nat × Nat)
  deriving DecidableEq, Repr

/-- A lower-tier request (R144, R145): the command that waits (partition, chute, sequence; none for the Loft's own moves), the key it
waits under, the partition Loft offset and logical block, what a write holds, the place a move takes the block from, class and target as for `Staged`, its deadline
(0: none), where a read in the NAND reads, and from when on a free staging block was there for a write in its turn. -/
structure LoftReq where
  id : Nat
  who : Option (Nat × Nat × Nat)
  key : Nat
  off : Nat
  block : Nat
  write : Option LoftBlock
  place : Option LoftPlace
  cls : Nat
  target : Option Nat
  deadline : Nat
  reading : Option (Nat × Nat × Nat)
  room : Option Nat
  deriving DecidableEq, Repr

/-- A superblock (R147, R150): 0 to be erased, 1 free, 2 open, 3 written, 4 its valid blocks are being moved, 5 erased for a wear move;
how often it was erased and the stripes programmed in it. -/
structure Super where
  state : Nat
  erases : Nat
  stripes : Nat
  deriving DecidableEq, Repr

/-- A superblock that a reset left to be erased. -/
def Super.stale : Super := ⟨0, 0, 0⟩

/-- The Loft (R142 to R154): each partition's chunks in the order of its space, chunks being trimmed, the map by logical block, write
staging in order, lower-tier requests in order of arrival, programmed blocks with their spare bytes, superblocks, the open one, the wear
move under way (from, to), copies a dead channel held and that are not rebuilt, copies that retired erase blocks held (stripe, position), stripes rebuilt, status
timeouts in a row by channel, the partition a free MOVE channel asks first (R140), by channel the superblocks whose erase block is bad (R148, R150), the write sequence of
headers (R147), and a counter for identifiers. -/
structure Loft where
  chunks : Tbl (List Nat)
  trim : List Nat
  map : Tbl (Option LoftPlace)
  staging : List Staged
  reqs : List LoftReq
  nand : Tbl (Option LoftPage)
  supers : Tbl Super
  current : Option Nat
  wear : Option (Nat × Nat)
  missing : List (Nat × Nat)
  lost : List (Nat × Nat)
  rebuilt : Nat
  timeouts : Tbl Nat
  moveTurn : Nat
  bad : Tbl (List Nat)
  wseq : Nat
  nextId : Nat
  deriving DecidableEq, Repr

/-- The Loft after a cold or warm reset: an empty map (R151). -/
def Loft.reset : Loft :=
  { chunks := [], trim := [], map := [], staging := [], reqs := [], nand := [], supers := [], current := none, wear := none,
    missing := [], lost := [], rebuilt := 0, timeouts := [], moveTurn := 0, bad := [], wseq := 0, nextId := 0 }


/-- A leaf in a translation unit's buffer (R169): the unit, partition, first virtual address, page size as a power of two, pages
covered (1, or 16 when merged), and the leaf of the first page. -/
structure TlbEntry where
  unit : Nat
  part : Nat
  va : Nat
  log2 : Nat
  pages : Nat
  leaf : Nat
  deriving DecidableEq, Repr

/-- A table entry in a walk cache: the unit, partition, the level of the table it names, the address bits above that level's index,
and the table's address. -/
structure WalkEntry where
  unit : Nat
  part : Nat
  level : Nat
  pfx : Nat
  table : Nat
  deriving DecidableEq, Repr

/-- The four translation units (R169): their leaf entries and walk caches, newest first. -/
structure Xlt where
  leaves : List TlbEntry
  tables : List WalkEntry
  deriving DecidableEq, Repr

/-- What a transient line waits to complete (R211): a request, a directory eviction for the line that needs the way (R195), a release, or an
orphan's recovery. -/
inductive HomePending where
  | req (r : HomeReq)
  | evict (need : Nat)
  | release
  | orphan
  deriving DecidableEq, Repr

/-- A transient state (R210): a recall (T_RCL) or an invalidation round (T_INV); the nodes whose PINVACK is due, whether the host's
answer is due, whether it was asked with BISnpData, the round's number, since when, whether recall data came and whether a CLN_H
did (R211), and what then completes. -/
structure Trans where
  rcl : Bool
  nodes : List Nat
  hostDue : Bool
  snpData : Bool
  invId : Nat
  since : Nat
  gotData : Bool
  hostGone : Bool
  timedOut : Bool
  pend : HomePending
  deriving DecidableEq, Repr

/-- A directory entry (R194, R196): composition of its peer sharers, host state 0 none, 1 S, 2 E with its logical device, the peers,
whether more than four have been recorded, when it was last used, its transient state, and whether a release waits for it (R220). -/
structure DirEntry where
  comp : Nat
  host : Nat
  ld : Nat
  bcast : Bool
  peers : List Nat
  used : Nat
  trans : Option Trans
  releasing : Bool
  deriving DecidableEq, Repr

/-- A line of a hub's remote-line cache (R201): its data, its composition, and what has gone wrong in it since it was installed: 0 nothing, 1 what
its code corrects, 2 what it does not (R202). -/
structure RemoteLine where
  data : Nat
  comp : Nat
  err : Nat
  deriving DecidableEq, Repr

/-- The home agents (R193 to R222): directory entries by line; requests in the conflict queues, in order of arrival (R209); sets
suspect since an error, by hub × 2^17 + set: 1 since the pass that runs, 2 since an earlier one (R197); whether a host-loss scan runs, the hosts it
is for and the lines it has poisoned (R216, R218); orphan lines whose host was lost (R212); the next invalidation round; the order
of use; the remote-line caches by hub and line (R201); requests of this node that wait for a request tag or for room in a conflict
queue, in order (R51, R209); the lines whose recovery waits for a way with no request of their own (R211); and the number the next write or
atomic of a unit takes, by which a partition-wide wait knows the earlier ones (R185). -/
structure Homes where
  dir : Tbl (Option DirEntry)
  queue : List HomeReq
  suspect : Tbl Nat
  scanning : Bool
  scanHosts : Nat
  scanLines : Nat
  lostOrphans : List Nat
  nextInv : Nat
  clock : Nat
  rlc : Tbl (Option RemoteLine)
  tagWait : List HomeReq
  recovering : List Nat
  nextWrite : Nat
  deriving DecidableEq, Repr

/-- A line that a mirror entry forwarded and whose writer is not yet acknowledged (R155). -/
structure MirrorAck where
  id : Nat
  entry : Nat
  req : HomeReq
  prior : Option Nat
  deriving DecidableEq, Repr

/-- An entry of the mirror tables (R155, R160): state (0 unused, 1 SYNCED, 2 HOLDING, 3 SOLO, 4 REBUILDING, 5 FENCED, 6 MIRROR,
7 REDIRECT), role, partner node, bases and size in units of 256 MiB, primary node, and the bytes the rebuild has copied (R158). -/
structure Mirror where
  state : Nat
  role : Nat
  partner : Nat
  base : Nat
  pbase : Nat
  size : Nat
  primary : Nat
  copied : Nat
  deriving DecidableEq, Repr

/-- An unused entry. -/
def Mirror.unused : Mirror := ⟨0, 0, 0, 0, 0, 0, 0, 0⟩

/-- The mirror tables (R155 to R158): entries, writes that await the mirror, accesses held by a primary that cannot reach its
mirror, redirected requests relayed to the primary, and the next number of either. -/
structure Mirrors where
  entries : Tbl Mirror
  acks : List MirrorAck
  held : List HomeReq
  relays : List (Nat × Packet)
  nextId : Nat
  deriving DecidableEq, Repr

/-- Where a queued packet stands (R241): in its account's minimum, in the shared pool, in spill, or still in ingress staging. -/
inductive Place where
  | reserved | shared | spill | staged
  deriving DecidableEq, Repr

/-- A packet in an output queue: the input port it entered by (12: injected here), its account (32: FWD), where it stands, when
it came, whether its combining hold has expired (R248), the pool its credit came from (R234), and where in the spill region its words stand (R243). -/
structure QEntry where
  pkt : Packet
  inPort : Nat
  acct : Nat
  place : Place
  since : Nat
  holdOver : Bool
  pool : Nat
  spillAt : Nat
  deriving DecidableEq, Repr

/-- A flit in the replay buffer (R233): its sequence, its type (0 DATA, 3 TAG), the slots in which packets begin, and its payload as sent. -/
structure KeptFlit where
  seq : Nat
  kind : Nat
  start : Nat
  slots : List Nat
  deriving DecidableEq, Repr

/-- A Cofeben port. Sending: its output queues (all classes, in order of arrival), its credits toward the neighbour (private by VC, then shared), the
replay buffer, the packets whose last flit it holds, the packet in transmission with the slots still to send, the next flit sequence, the latest
acknowledged, replays in a row. Receiving: the flit expected, whether one has been accepted, nak (0 none, 1 to be sent, 2 sent), the words of a packet
not yet complete, the DATA flits of an encrypted group not yet released (start bits and payload). Encryption (R235): the payloads sent since the last
TAG, the keys and group counters of both directions, the key identifier. Credit to return by pool, and the turns of the round robins (R231 to R235,
R244). -/
structure Port where
  queue : List QEntry
  used : Tbl Nat
  sharedUsed : Nat
  replay : List KeptFlit
  flying : List (Nat × Packet)
  current : Option (Packet × List (List Nat))
  nextFlit : Nat
  acked : Nat
  replays : Nat
  expect : Nat
  gotAny : Bool
  nak : Nat
  partialWords : List Nat
  group : List (Nat × List Nat)
  sent : List (List Nat)
  txKey : Nat
  rxKey : Nat
  txGroup : Nat
  rxGroup : Nat
  keyId : Nat
  returns : Tbl Nat
  turn : Nat
  deficits : Tbl Nat
  vcTurn : Tbl Nat
  acctTurn : Tbl Nat
  deriving DecidableEq, Repr

/-- A port after reset or training: empty, full credit (R234). -/
def Port.idle : Port :=
  { queue := [], used := [], sharedUsed := 0, replay := [], flying := [], current := none, nextFlit := 0, acked := 4095, replays := 0,
    expect := 0, gotAny := false, nak := 0, partialWords := [], group := [], sent := [], txKey := 0, rxKey := 0, txGroup := 0, rxGroup := 0,
    keyId := 0, returns := [], turn := 2, deficits := [], vcTurn := [], acctTurn := [] }

/-- An outstanding fabric request (R249): its packet as first sent, who waits for it, whether it has been retried, when the
attempt in flight was sent, whether it fills the remote-line cache and whether a PINV has killed that fill (R203). -/
structure OutReq where
  pkt : Packet
  waiter : Waiter
  part : Option Nat
  addr : Nat
  retried : Bool
  sentAt : Nat
  killed : Bool
  wid : Nat
  deriving DecidableEq, Repr

/-- Data or a result that arrived for a waiter (R203, R249): the fabric address, the value, poison, and the status of R214. -/
structure Arrival where
  waiter : Waiter
  addr : Nat
  value : Nat
  poison : Bool
  status : Nat
  deriving DecidableEq, Repr

/-- An entry of an exactly-once window (R250): sequence, state (0 EMPTY, 1 PENDING, 2 DONE), status and result. `waiting` counts
duplicates that wait for the original. -/
structure WinEntry where
  seq : Nat
  state : Nat
  status : Nat
  result : Nat
  waiting : List Packet
  deriving DecidableEq, Repr

/-- A message being received (R258): the OPEN that began it, its partition, its reserved lines, its length and immediate value, the bytes
written so far, and when its last packet came. -/
structure Inbound where
  req : Packet
  part : Nat
  line : Nat
  lines : Nat
  len : Nat
  imm : Nat
  got : Nat
  since : Nat
  deriving DecidableEq, Repr

/-- The fabric side of the node: its ports, packets that arrived for this node, the send table (next sequence by target and
class), requests that wait for a sequence and requests outstanding, what has arrived for waiters, the exactly-once windows and
the incarnation recorded for each source, messages being received, the next message identifier. -/
structure Fabric where
  ports : Tbl Port
  arrived : List Packet
  nextSeq : Tbl Nat
  stalled : List FabReq
  reqs : List OutReq
  arrivals : List Arrival
  windows : Tbl WinEntry
  incs : Tbl Nat
  inbound : List Inbound
  nextMsg : Nat
  mboxPhase : Tbl Bool
  deriving DecidableEq, Repr

/-- A row in a Crib (R278): its partition, table and row, its bytes, and when it was last used. -/
structure CribEntry where
  part : Nat
  table : Nat
  row : Nat
  bytes : Nat
  data : Nat
  used : Nat
  deriving DecidableEq, Repr

/-- A Crib (R278, R279): its entries, the counters of its sketch (16,384 × row + index), increments since the last halving, and the order of use. -/
structure Crib where
  entries : List CribEntry
  sketch : Tbl Nat
  incs : Nat
  clock : Nat
  deriving DecidableEq, Repr

/-- An empty Crib. -/
def Crib.reset : Crib := ⟨[], [], 0, 0⟩

/-- A merge-arena record that landed here for a row whose current home is another node (R284): the store that waits for its acknowledgement,
the partition, table, parity and record, the node it goes to, what the forward does (0 takes an index there, 1 writes the gradients, 2 writes the
header, 3 is done) and the index it has taken. -/
structure Forward where
  id : Nat
  req : HomeReq
  part : Nat
  table : Nat
  parity : Nat
  record : Nat
  node : Nat
  stage : Nat
  index : Nat
  deriving DecidableEq, Repr

/-- A full block whose vectors are on their way to the Loft (R306): its coarse partition, the block, its sequence, the insert that filled it,
and the Loft block it writes next. -/
structure Seal where
  cpart : Nat
  block : Nat
  seq : Nat
  chute : Nat
  cmd : Nat
  next : Nat
  deriving DecidableEq, Repr

/-- A loaded index (R292): words 0 to 19 of its descriptor and where that stands, the hub's words 20 to 25, the open epoch, closed epochs with
the command that closed them (chute, sequence), oldest first (R300), the order from which an unload refuses commands, the queries admitted, what
the index has stopped using with the queries admitted by then (2 × block, or 2 × (2 × coarse partition + parity) + 1 for an open area; R310),
seals in progress, map entries held by inserts (entry, chute, sequence), and locked coarse partitions with who locked them (coarse
partition, chute, sequence, whether it compacts). -/
structure VecIndex where
  dirAt : Nat
  words : List Nat
  pub : Nat
  floor : Nat
  nextUnused : Nat
  freeHead : Nat
  freeCount : Nat
  oldest : Nat
  openEpoch : Nat
  closed : List (Nat × Nat × Nat)
  unloadAt : Option Nat
  admitted : Nat
  freed : Tbl Nat
  seals : List Seal
  holds : List (Nat × Nat × Nat)
  locks : List (Nat × Nat × Nat × Bool)
  deriving DecidableEq, Repr

/-- A semaphore (R323, R325): its value, and whether it is poisoned. -/
structure Sem where
  value : Nat
  poison : Bool
  deriving DecidableEq, Repr

/-- A semaphore after admission: zero. -/
def Sem.zero : Sem := ⟨0, false⟩

/-- A unit that waits for a semaphore to reach a threshold (R324, R327): since when, and what its hub observed first once it was
satisfied (the value) or found it poisoned (none). -/
structure SemWait where
  who : SemWaiter
  part : Nat
  sem : Nat
  threshold : Nat
  since : Nat
  seen : Option (Option Nat)
  deriving DecidableEq, Repr

/-- An entry of a composition's map (R334). -/
structure Member where
  node : Nat
  part : Nat
  bandwidth : Bool
  deriving DecidableEq, Repr

/-- A composition a partition of this node is in (R334 to R336, R342). -/
structure Comp where
  part : Nat
  epoch : Nat
  roleEpoch : Nat
  map : List Member
  down : Bool
  deriving DecidableEq, Repr

/-- A change a node is prepared for (R338): the sequencer's node, the new epoch, the list kept as a shadow, the partition it
concerns here, and since when (R339). -/
structure Prepared where
  seqNode : Nat
  epoch : Nat
  list : List Member
  part : Nat
  since : Nat
  deriving DecidableEq, Repr

/-- Where a proposal at its sequencer stands (R338): queued, asking for answers, or counting COMMITACKs. -/
inductive Stage where
  | queued | preparing | committing
  deriving DecidableEq, Repr

/-- A proposal at its sequencer (R337, R338): composition, the PROPOSE message (its SACK ends it), the epoch it expects, its list and
whether that breaks R334, its stage, the nodes whose answers are due, and the first refusal (node, reason). -/
structure Proposal where
  comp : Nat
  req : Packet
  epoch : Nat
  list : List Member
  malformed : Bool
  stage : Stage
  due : List Nat
  refusal : Option (Nat × Nat)
  deriving DecidableEq, Repr

/-- A barrier at its home (R329 to R332): the count of generations, the epoch at which the one in progress began, its arrivals in
rank order (node, composition position), and the last history of each participant. -/
structure Barrier where
  generation : Nat
  epoch : Nat
  mask : Nat
  arrivals : List Nat
  history : Tbl Nat
  deriving DecidableEq, Repr

/-- A digest held in a vote slot (R347). -/
structure VoteSlot where
  part : Nat
  step : Nat
  sender : Nat
  digest : Nat
  deriving DecidableEq, Repr

/-- The synchronisation side of the node (R323 to R347). Tables of compositions are by composition ID; barriers by
64 × composition + number. `sides` names, for a barrier number, the BARRIER command (chute, sequence) whose arrival awaits its release here
(R330). `heldMsgs` waits for a decision (R340); `votesDone` lists votes that have ended, by partition and step;
`lastDecision` is what the sequencer last decided, by composition: the new epoch, and whether it was committed. -/
structure Sync where
  sems : Tbl Sem
  waits : List SemWait
  comps : Tbl (Option Comp)
  prepared : Tbl (Option Prepared)
  proposals : List Proposal
  lastDecision : Tbl (Nat × Bool)
  heldMsgs : List (Nat × Packet)
  barriers : Tbl Barrier
  sides : Tbl (Option (Nat × Nat))
  slots : List VoteSlot
  votesDone : List (Nat × Nat)
  deriving DecidableEq, Repr

/-- A barrier no generation of which has run. -/
def Barrier.fresh : Barrier := ⟨0, 0, 0, [], []⟩

/-- An error record in the log ring (R362); its CRC word is computed when it is sent. -/
structure ErrRec where
  severity : Nat
  event : Nat
  seq : Nat
  inc : Nat
  cls : Nat
  inst : Nat
  time : Nat
  part : Option Nat
  status : Nat
  reps : Nat
  synd : List Nat
  sent : Bool
  deriving DecidableEq, Repr

/-- The log ring (R367) and what R366 counts: corrected errors since the last summary, and when that summary was sent, each by
unit and store. -/
structure ErrLog where
  ring : List ErrRec
  lost : Nat
  lostFirst : Nat
  lostLast : Nat
  ceCount : Tbl Nat
  ceTime : Tbl Nat
  deriving DecidableEq, Repr

/-- A field-test request (R372, R373); `told` says that its FT_DEFERRED record has been sent. -/
structure FtReq where
  num : Nat
  kind : Nat
  inst : Nat
  content : Nat
  clock : Nat
  vdrop : Nat
  expiry : Nat
  queuedAt : Nat
  deferred : Bool
  told : Bool
  deriving DecidableEq, Repr

/-- The test now running (R374): its request, the resource, whether the nominal pass has passed, T_j at its start, the content
version it started with, the T0 pages taken (kind 6), the first failing step of the nominal pass, and whether a
T1 unit is being tested again after a repair (R377). -/
structure FtRun where
  req : FtReq
  inst : Nat
  nominalDone : Bool
  tjStart : Nat
  version : Nat
  pages : List Nat
  fail : Option Nat
  again : Bool
  deriving DecidableEq, Repr

/-- An installed content package (R378, R379). -/
structure Package where
  id : Nat
  version : Nat
  kindMask : Nat
  steps : Nat
  maxTj : Nat
  minTj : Nat
  deriving DecidableEq, Repr

/-- Field test: the queue, the running test, the packages by slot, when each resource was last tested (by kind and instance),
and the T1 units and T0 pages withheld (R377). -/
structure FieldTest where
  queue : List FtReq
  run : Option FtRun
  nextNum : Nat
  packages : Tbl (Option Package)
  tested : Tbl Nat
  tests : Nat
  withheldUnits : List Nat
  withheldPages : List Nat
  deriving DecidableEq, Repr

/-- Sleep and throttling (R384 to R390): the sleep state of each block by number (`blockKey`): 0 awake, 1 clock-gated, 2 power-gated, 3 PLL
stopped or in self-refresh; blocks that are waking; the levels R389 lowered, the latest first (0 engines, 1 cores, 2 Winnowers and row units, 3
stack bandwidth); sixteenths by which R390 holds each tile down; whether power is off (R387, R393). -/
structure Power where
  sleep : Tbl Nat
  waking : List Nat
  lowered : List Nat
  tiles : Tbl Nat
  off : Bool
  deriving DecidableEq, Repr

/-- The fuses on LT0 (R406): the UID, the hashes of the image keys of two slots, of the content key and of the debug key, which image keys are
revoked, the security-version floor, the coarse steps of the identity counter burned, and the seed of the identity key, which shows nowhere but in
the signatures it makes; those are free values (log entry 4). -/
structure Fuses where
  uid : Nat
  imageKeys : Vector Nat 2
  revoked : Vector Bool 2
  contentKey : Nat
  debugKey : Nat
  floor : Nat
  coarse : Nat
  seed : Nat
  deriving DecidableEq, Repr

/-- Fuses nothing has been burned into (DESIGN CHOICE, log entry 25: every device has its own). -/
def Fuses.blank : Fuses := ⟨0, Vector.replicate 2 0, Vector.replicate 2 false, 0, 0, 0, 0, 0⟩

/-- What the NOR and the always-on domain hold for boot and trust (R399 to R413). In the NOR: the image in each slot, whether it is complete and
good, the active slot, the trial slot, its count and why it failed, the incarnation, and the end of the last block of identity leaves reserved
(0: no record). Of this boot: the configuration records, the active parameter set, the shadow, an update being checked with who is to be
answered, the version of the last shadow copy, the sec_version of the booted image, the measurements M0 to M7, whether this boot is of the trial slot, the next identity leaf, the number under which the ML-KEM key pair
was drawn, and whether boot has begun, has reached step 11, or stays in recovery. -/
structure Boot where
  images : Tbl (List Nat)
  good : Tbl Bool
  slot : Nat
  trial : Option Nat
  trialCount : Nat
  trialReason : Nat
  inc : Nat
  leafEnd : Nat
  config : BootConfig
  active : List Nat
  shadow : Option (List Nat)
  checking : Option (List Nat × Transport × Nat)
  shadowVer : Nat
  secVer : Nat
  meas : Tbl Nat
  onTrial : Bool
  booted : Nat
  leaf : Option Nat
  kem : Nat
  started : Bool
  done : Bool
  recovery : Bool
  deriving DecidableEq, Repr

/-- Before any boot: an empty NOR, nothing measured. -/
def Boot.reset : Boot :=
  { images := [], good := [], slot := 0, trial := none, trialCount := 0, trialReason := 0, inc := 0, leafEnd := 0, config := BootConfig.none,
    active := [], shadow := none, checking := none, shadowVer := 0, secVer := 0, meas := [], onTrial := false, booted := 0, leaf := none, kem := 0, started := false, done := false,
    recovery := false }

/-- Where an extent of dynamic capacity stands (R423): offered to the host, live, live with a release offered, or past its
release point (R220). -/
inductive ExtState where
  | pending | live | offered | releasing
  deriving DecidableEq, Repr

/-- An extent (R127, R423): the partition it serves and its range of fabric offsets. -/
structure Extent where
  part : Nat
  range : Range
  state : ExtState
  deriving DecidableEq, Repr

/-- An HDM decoder (R421, R422): committed or not, its base in host addresses and its size, and whether back-invalidate is
enabled (HDM-DB) or not (HDM-H). -/
structure Decoder where
  committed : Bool
  base : Nat
  size : Nat
  backInvalidate : Bool
  deriving DecidableEq, Repr

/-- An entry of a logical device's event log: 0 Add Capacity, 1 Release Capacity, 2 forced release told afterwards (R423). -/
structure EventRec where
  handle : Nat
  kind : Nat
  range : Range
  deriving DecidableEq, Repr

/-- What each logical device holds: 0 to 31 serve the partitions, 32 and 33 are the FM-owned ones of H0 and H1. `vecMask` and
`funcMask` are the MSI-X masks, `vecPending` the pending bit (R431). -/
structure LogicalDevice where
  decoder : Decoder
  stage : Decoder
  events : List EventRec
  nextHandle : Nat
  policyMsix : Bool
  vecMask : Bool
  funcMask : Bool
  vecPending : Bool
  vecAddrLo : Nat
  vecAddrHi : Nat
  vecData : Nat
  deriving DecidableEq, Repr

/-- A logical device after reset: no decoder committed, an empty log. The vector mask is set and the Function Mask clear, as PCIe
resets them (PRESUMED, log entry 11). -/
def LogicalDevice.reset : LogicalDevice :=
  { decoder := ⟨false, 0, 0, false⟩, stage := ⟨false, 0, 0, false⟩, events := [], nextHandle := 1, policyMsix := false,
    vecMask := true, funcMask := false, vecPending := false, vecAddrLo := 0, vecAddrHi := 0, vecData := 0 }

/-- An open Ranger transfer (R432, R433): its length, the bytes that have come, and when its last message came. -/
structure Xfer where
  total : Nat
  bytes : List Nat
  last : Nat
  deriving DecidableEq, Repr

/-- Management state: open transfers by kind, the session of each port (R432) and its IDE keys (R412), and the datagrams of the
current second (R434). -/
structure Mgmt where
  xfers : Tbl (Option Xfer)
  sessions : Tbl (Option Nat)
  nextSession : Nat
  ideKeys : Tbl (Option Nat)
  deriving DecidableEq, Repr

/-- Something the part sent to the outside world. -/
inductive Out where
  /-- A control-bus read's value (R24). -/
  | value (rq : Requester) (v : Word)
  /-- An MSI-X message of a logical device (R431). -/
  | msix (ld : Nat)
  /-- An ordinary response to a CXL.mem request (R66, R206): what kind, its data and poison. -/
  | hostResp (src : Source) (kind : String) (data : Option Nat) (poison : Bool)
  /-- A back-invalidate snoop to a logical device, for a line (R207). -/
  | biSnp (ld : Nat) (kind : String) (line : Nat)
  /-- The acknowledgement of a store or atomic to a peer (R249): the peer, class, sequence, prior value of an atomic. -/
  | wack (node cls seq : Nat) (prior : Option Nat)
  /-- A flit sent on a Cofeben port: its 256 bytes, the first least significant (R231). -/
  | flit (port image : Nat)
  /-- A UDP datagram of error records (R368): its words. -/
  | records (words : List Nat)
  /-- An I3C in-band interrupt with its data byte (R369, R435). -/
  | inBand (byte : Nat)
  /-- A response of the transfer service (R432): transport, type, transfer id, status, kind, payload words. -/
  | xfer (tr : Transport) (type id status kind : Nat) (payload : List Nat)
  /-- A mailbox answer (R425): the command's name, a return code (0 success, 1 invalid input, 2 unsupported) and its content. -/
  | mailbox (mb : Mailbox) (name : String) (code : Nat) (content : List Nat)
  /-- An answer of a management port to ARP or ICMP echo (R434). -/
  | frame (port : Nat) (kind : String) (content : List Nat)
  /-- An answer of the MCTP control protocol or of I3C (R435). -/
  | mctp (name : String) (content : List Nat)
  deriving DecidableEq, Repr


/-- The whole state of the part: every register, queue, table and memory the spec gives it, and the queue of commands that
are waiting (`pending`, first in, first out). -/
structure State where
  /-- Every control-space register by address; an unlisted one holds RegMap.reset (R4, R22). -/
  regs : Tbl Word
  /-- The latched high words of R5, by requester. -/
  latch : Tbl Word
  /-- The held low words of R6, by requester and pair. -/
  held : Tbl (Option Word)
  /-- The node local cycle counter, 64 bits (R383). -/
  lcc : Nat
  /-- The model's own counter from which free values are drawn (log entries 4, 5). -/
  fresh : Nat
  /-- The part has stopped: power lost (R393) or a fatal error (R356); only a reset starts it again. -/
  stopped : Bool
  /-- The six stacks (R129). -/
  t1 : Dram
  /-- The six T0 banks (R122). -/
  t0 : Sram
  /-- The partitions P0 to P31 (R25). -/
  parts : Tbl Part
  /-- Cofeben, the switch core and exactly-once delivery (R223 to R259). -/
  fab : Fabric
  /-- The error-record log ring (R367). -/
  errs : ErrLog
  /-- Field test (R371). -/
  ft : FieldTest
  /-- The Loft (R142 to R154). -/
  loft : Loft
  /-- The translation units of the compute tiles (R169). -/
  xlt : Xlt
  /-- The home agents and the remote-line caches (R189 to R222). -/
  homes : Homes
  /-- The mirror tables (R155 to R158). -/
  mirrors : Mirrors
  /-- Semaphores, barriers and compositions (R323 to R347). -/
  sync : Sync
  /-- Dynamic-capacity extents of the node (R423). -/
  extents : List Extent
  /-- The 34 logical devices (R420). -/
  lds : Tbl LogicalDevice
  /-- Ranger transfers and sessions (R432). -/
  mgmt : Mgmt
  /-- The IPv4 address of each management port, from the image or the recovery rule (R434). -/
  netAddr : Tbl Nat
  /-- The next packet sequence each internal FIFO receiver expects (R42), by tile. -/
  fifoSeq : Tbl Nat
  /-- The ten Scalers (R442 to R451), by tile: CT0 to CT3, HT0, HT1, LT0 to LT3. -/
  scalers : Tbl Scaler
  /-- The Tally groups (R452 to R462), by 16 × block + group. -/
  tally : Tbl TallyGroup
  /-- The matrix engines ME0 to ME31 (R68). -/
  engines : Tbl Engine
  /-- Units marked for quarantine at their next boundary (R101, R121, R289, R322), by 64 × kind + number. -/
  marks : List Nat
  /-- The quarantine record kept in the NOR (R395), by 64 × kind + number. -/
  quarRecord : List Nat
  /-- The general cores GC0 to GC63 (R103). -/
  cores : Tbl Core
  /-- Load reservations held at the homes (R110): the core and the physical line. -/
  resv : List (Nat × Nat)
  /-- Sleep states and throttling (R384 to R390). -/
  power : Power
  /-- The fuses (R406). -/
  fuses : Fuses
  /-- Boot record, image slots, parameter sets, measurements (R399 to R409). -/
  boot : Boot
  /-- The Cribs of the two hubs (R278, R279). -/
  cribs : Tbl Crib
  /-- How often the Crib entries of a partition and table (256 × partition + table) were invalidated (R281). -/
  cribGen : Tbl Nat
  /-- Records whose writers wait while they are forwarded to a row's current home (R284). -/
  forwards : List Forward
  /-- The next number of a forward. -/
  nextForward : Nat
  /-- Loaded vector indexes (R292), by 64 × partition + number. -/
  indexes : Tbl (Option VecIndex)
  /-- Loads of an index that wait until its tables can be read (R292): partition and number. -/
  loading : List (Nat × Nat)
  /-- What the part has sent out, newest first: responses, packets, datagrams, interrupts (log entry 7). -/
  out : List Out
  /-- The commands that are waiting, first in, first out. -/
  pending : List Instr
  deriving DecidableEq, Repr

/-- The part right after a cold reset, before boot (R394, R395): every register at its table's reset value, every memory empty. -/
def State.reset : State :=
    { regs := [], latch := [], held := [], lcc := 0, fresh := 0, stopped := false, t1 := ⟨[], [], [], []⟩,
      t0 := ⟨[], [], [], []⟩, parts := [], fab := ⟨[], [], [], [], [], [], [], [], [], 0, []⟩,
      errs := ⟨[], 0, 0, 0, [], []⟩, ft := ⟨[], none, 0, [], [], 0, [], []⟩, loft := Loft.reset, xlt := ⟨[], []⟩,
      homes := ⟨[], [], [], false, 0, 0, [], 0, 0, [], [], [], 1⟩, mirrors := ⟨[], [], [], [], 0⟩,
      sync := ⟨[], [], [], [], [], [], [], [], [], [], []⟩, extents := [], lds := [], mgmt := ⟨[], [], 0, []⟩,
      netAddr := [], fifoSeq := [], scalers := [], tally := [], engines := [], marks := [], quarRecord := [], cores := [],
      resv := [], power := ⟨[], [], [], [], false⟩, fuses := Fuses.blank, boot := Boot.reset, cribs := [], cribGen := [],
      forwards := [], nextForward := 0, indexes := [], loading := [], out := [], pending := [] }

/-- The reasons a command can stop the model with a fault: none of the spec's commands does. The one constructor is raised by
nothing; safe. -/
inductive Fault where
  /-- Raised by no meaning (kept because a step has three outcomes); safe. -/
  | none
  deriving DecidableEq, Repr

/-- The reasons a command can be refused. -/
inductive Refusal where
  /-- Raised by exec for a row that has no meaning yet; safe. -/
  | notModelled (mnemonic : String)
  deriving DecidableEq, Repr

/-- What a meaning answers. -/
abbrev Res := Host.Outcome State Fault Refusal

end Sys2Proof.Machine
end

