-- ==== Sys2Proof/Machine/Ops.lean ====
section
/-! DEFINITION. The named operations over the registers and partitions: every meaning reads and writes the state through these. -/

namespace Sys2Proof.Machine

/-- Every command acts only while the part runs: once it has stopped (R356, R393) only a reset has an effect. -/
def act (s : State) (f : State → State) : Res := .next (if s.stopped then s else f s)

/-! ### Registers -/

/-- The register at a control-space address. -/
def State.reg (s : State) (a : Nat) : Word := Tbl.get RegMap.reset s.regs a

/-- Set the register at a control-space address. -/
def State.setReg (s : State) (a : Nat) (v : Word) : State := { s with regs := Tbl.set RegMap.reset s.regs a v }

/-- A register as a number. -/
def State.regN (s : State) (a : Nat) : Nat := (s.reg a).toNat

/-- Set a register from a number. -/
def State.setRegN (s : State) (a : Nat) (v : Nat) : State := s.setReg a (BitVec.ofNat 32 v)

/-- The field [hi:lo] of a register. -/
def State.regF (s : State) (a hi lo : Nat) : Nat := fld (s.reg a) hi lo

/-- Put a value into the field [hi:lo] of a word. -/
def putField (w : Word) (hi lo v : Nat) : Word :=
  let m := (2 ^ (hi + 1 - lo) - 1) <<< lo
  (w &&& ~~~ BitVec.ofNat 32 m) ||| (BitVec.ofNat 32 (v <<< lo) &&& BitVec.ofNat 32 m)

/-- Set the field [hi:lo] of a register. -/
def State.setRegF (s : State) (a hi lo v : Nat) : State := s.setReg a (putField (s.reg a) hi lo v)

/-- Count `n` in a 32-bit register, stopping at 0xFFFF_FFFF. -/
def State.count (s : State) (a n : Nat) : State := s.setRegN a (min (s.regN a + n) 0xFFFFFFFF)

/-- The 64-bit value of the register pair whose low word is at `a` (R4). -/
def State.reg64 (s : State) (a : Nat) : Nat := s.regN a + 2 ^ 32 * s.regN (a + 4)

/-- Set the register pair whose low word is at `a`. -/
def State.setReg64 (s : State) (a v : Nat) : State := (s.setRegN a v).setRegN (a + 4) (v / 2 ^ 32)

/-- Count `n` in a register pair. -/
def State.count64 (s : State) (a n : Nat) : State := s.setReg64 a ((s.reg64 a + n) % 2 ^ 64)

/-- Count `n` in a register pair that stops at 2^64 - 1. -/
def State.count64Sat (s : State) (a n : Nat) : State := s.setReg64 a (min (s.reg64 a + n) (2 ^ 64 - 1))

/-- The next free value (log entries 4 and 5), and the state that has used it. -/
def State.draw (s : State) : Nat × State := ((Config.freeValue s.fresh).toNat, { s with fresh := s.fresh + 1 })

/-- The next free choice below `n` (log entry 5). -/
def State.choose (s : State) (n : Nat) : Nat × State := (Config.freeChoice s.fresh % n, { s with fresh := s.fresh + 1 })

/-- Send something to the outside world. -/
def State.emit (s : State) (o : Out) : State := { s with out := o :: s.out }

/-- A block that an access needs is awake again (R384, R385; the time it takes is left out, log entry 22): a block by its number. A unit or tile
PLL that wakes takes the node out of IDLE (R387). -/
def State.wakeNow (s : State) (b : Nat) : State :=
  if s.power.sleep.isEmpty then s
  else
    let s := { s with power := { s.power with sleep := Tbl.set (fun _ => 0) s.power.sleep b 0, waking := s.power.waking.filter (· ≠ b) } }
    if (b < 256 ∨ 300 ≤ b) ∧ s.regF Reg.RNG_PWR_STATE 31 30 = 1 then s.setRegF Reg.RNG_PWR_STATE 31 30 0 else s

/-! ### Partitions -/

/-- The parts of partition p that no register holds. -/
def State.part (s : State) (p : Nat) : Part := Tbl.get (fun _ => Part.free) s.parts p

/-- Put them back. -/
def State.setPart (s : State) (p : Nat) (v : Part) : State := { s with parts := Tbl.set (fun _ => Part.free) s.parts p v }

/-- Change them. -/
def State.modPart (s : State) (p : Nat) (f : Part → Part) : State := s.setPart p (f (s.part p))

/-- The state of a partition (R30, R32), as PART_ID holds it. -/
inductive PState where
  | free | active | frozen | resetting | releasing
  deriving DecidableEq, Repr

/-- The code of PART_ID.state (R32). -/
def PState.code : PState → Nat
  | .free => 0 | .active => 1 | .frozen => 2 | .resetting => 3 | .releasing => 4

/-- Read it from a code. -/
def PState.ofCode : Nat → PState
  | 1 => .active | 2 => .frozen | 3 => .resetting | 4 => .releasing | _ => .free

/-- The state partition p is in. -/
def State.pstate (s : State) (p : Nat) : PState := PState.ofCode (s.regF (Reg.PART_ID p) 14 12)

/-- Move partition p to a state. -/
def State.setPstate (s : State) (p : Nat) (st : PState) : State := s.setRegF (Reg.PART_ID p) 14 12 st.code

/-- The logical device of a partition counts as itself; FM-owned ones are 32 and 33. -/
def State.ld (s : State) (i : Nat) : LogicalDevice := Tbl.get (fun _ => LogicalDevice.reset) s.lds i

/-- Change a logical device. -/
def State.modLd (s : State) (i : Nat) (f : LogicalDevice → LogicalDevice) : State :=
  { s with lds := Tbl.modify (fun _ => LogicalDevice.reset) s.lds i f }

/-- A ring of a partition. -/
def Part.ring (pt : Part) (n : Nat) : Ring := Tbl.get (fun _ => Ring.none) pt.rings n

/-- Change a ring of a partition. -/
def State.modRing (s : State) (p n : Nat) (f : Ring → Ring) : State :=
  s.modPart p (fun pt => { pt with rings := Tbl.modify (fun _ => Ring.none) pt.rings n f })

/-- This node's number (SW_NODE.node, R261). -/
def State.node (s : State) : Nat := s.regF Reg.SW_NODE 11 0

/-- This node's incarnation (R251). -/
def State.incarnation (s : State) : Nat := s.regF Reg.SW_NODE 31 16

/-- This cell's number. -/
def State.cell (s : State) : Nat := s.regF Reg.SW_CELL 31 22

/-! ### Violations (R66, R67) -/

/-- Count a violation: what made it, whether it wrote, the partition, the node and the address. What RNG_VIOL_ADDR holds where the access has no
control-space or fabric address is the model's choice (DESIGN CHOICE, log entry 38): 0 for a message that carries no address, the T0 address for a
T0 page, the Loft offset for one beyond the reservation, the host's physical address modulo 2^52 for a request that no HDM decoder claims. -/
def State.violate (s : State) (source : Nat) (write : Bool) (p node addr : Nat) : State :=
  let last := source * 2 ^ 30 + (if write then 2 ^ 29 else 0) + (if source < 2 then p % 32 else 0) * 2 ^ 24
    + (if source = 2 then node % 4096 else s.node) * 2 ^ 12
  let s := s.count64 Reg.RNG_VIOL_TOTAL_LO 1
  let s := s.setRegN Reg.RNG_VIOL_LAST last
  let s := s.setReg64 Reg.RNG_VIOL_ADDR_LO (addr % 2 ^ 52)
  if source < 2 then s.count (Reg.RNG_VIOL_PART (p % 32)) 1 else s

/-- A violation by a memory access from a source (R67). -/
def State.violateMem (s : State) (src : Source) (write : Bool) (addr : Nat) : State :=
  match src with
  | .host p _ => s.violate 1 write p 0 addr
  | .unit p _ _ => s.violate 1 write p 0 addr
  | .peer n _ _ => s.violate 2 write 0 n addr
  | .fmHost _ _ => s.violate 3 write 0 0 addr
  | .device => s.violate 3 write 0 0 addr

/-- A violation by a register access (R67). -/
def State.violateReg (s : State) (rq : Requester) (write : Bool) (a : Nat) : State :=
  match rq with
  | .ld p => s.violate 0 write p.val 0 a
  | _ => s.violate 3 write 0 0 a

end Sys2Proof.Machine
end

