-- ==== Sys2Proof/Machine/Flags.lean ====
section
/-! DEFINITION. The flags of the part: cause registers, the interrupt tree above them and the messages it sends (R65,
R429 to R431). -/

namespace Sys2Proof.Machine

/-- PART_IRQ_CAUSE as read: its W1C causes, and the two that show a condition, frozen (bit 5) and fault (bit 1) (R65). -/
def State.partCause (s : State) (p : Nat) : Word :=
  (s.reg (Reg.PART_IRQ_CAUSE p)
    ||| (if s.pstate p = .frozen then 0x20 else 0))
    ||| (if (s.part p).faults.isEmpty then 0 else 0x2)

/-- Is a cause of the leaf at `cause` not hidden by the mask at `mask` (R429)? -/
def State.leaf (s : State) (cause mask : Nat) : Bool := decide (s.reg cause &&& ~~~ s.reg mask ≠ 0)

/-- Bit i of PART_IRQ_SUMMARY of partition p (R65, R430). -/
def State.partSummaryBit (s : State) (p : Nat) : Nat → Bool
  | 0 => decide (s.partCause p &&& ~~~ s.reg (Reg.PART_IRQ_MASK p) ≠ 0)
  | 1 => s.leaf (Reg.PART_XLT_IRQ_CAUSE p) (Reg.PART_XLT_IRQ_MASK p)
  | 2 => s.leaf (Reg.PART_ME_IRQ_CAUSE p) (Reg.PART_ME_IRQ_MASK p)
  | 3 => s.leaf (Reg.PART_WIN_IRQ_CAUSE p) (Reg.PART_WIN_IRQ_MASK p)
  | 4 => s.leaf (Reg.PART_ROW_IRQ_CAUSE p) (Reg.PART_ROW_IRQ_MASK p)
  | 5 => s.leaf (Reg.PART_SYNC_IRQ_CAUSE p) (Reg.PART_SYNC_IRQ_MASK p)
  | _ => false

/-- A word from its bits: bit i is `f i`, for i below n. -/
def bitsOf (f : Nat → Bool) : Nat → Nat
  | 0 => 0
  | n + 1 => bitsOf f n + (if f n then 2 ^ n else 0)

/-- PART_IRQ_SUMMARY of partition p (R65); zero while the partition is FREE or RELEASING, as its page reads (R32). -/
def State.partSummary (s : State) (p : Nat) : Nat :=
  if s.pstate p = .free ∨ s.pstate p = .releasing then 0 else bitsOf (s.partSummaryBit p) 6

/-- Leaf i of group n (R430). -/
def State.groupLeaf (s : State) (n i : Nat) : Bool :=
  match n with
  | 0 => decide (i = 0) && s.leaf Reg.RNG_PWR_IRQ_CAUSE Reg.RNG_PWR_IRQ_MASK
  | 1 => decide (i = 0) && s.leaf Reg.CFG_IRQ_CAUSE Reg.CFG_IRQ_MASK
  | 2 => decide (i < 2) && s.leaf (Reg.HUB_MEM_IRQ_CAUSE i) (Reg.HUB_MEM_IRQ_MASK i)
  | 3 => decide (i = 0) && s.leaf Reg.LFT_IRQ_CAUSE Reg.LFT_IRQ_MASK
  | 4 => decide (i < 2) && s.leaf (Reg.DIR_IRQ_CAUSE i) (Reg.DIR_IRQ_MASK i)
  | 5 => decide (i < 12) && s.leaf (Reg.LNK_IRQ_CAUSE i) (Reg.LNK_IRQ_MASK i)
  | 6 => decide (i < 4) && s.leaf (Reg.SW_IRQ_CAUSE i) (Reg.SW_IRQ_MASK i)
  | 7 => decide (i = 0) && s.leaf Reg.RNG_CMP_IRQ_CAUSE Reg.RNG_CMP_IRQ_MASK
  | 8 => decide (i < 16) && s.leaf (Reg.WIN_IRQ_CAUSE i) (Reg.WIN_IRQ_MASK i)
  | 9 => decide (i < 2) && s.leaf (Reg.ROW_CRIB_IRQ_CAUSE i) (Reg.ROW_CRIB_IRQ_MASK i)
  | 10 => decide (i = 0) && s.leaf Reg.RNG_SEC_IRQ_CAUSE Reg.RNG_SEC_IRQ_MASK
  | 11 => decide (i = 0) && s.leaf Reg.RNG_FT_IRQ_CAUSE Reg.RNG_FT_IRQ_MASK
  | 12 =>
    if i < 10 then s.leaf (Reg.SCL_IRQ_CAUSE i) (Reg.SCL_IRQ_MASK i)
    else if 16 ≤ i ∧ i < 22 then s.leaf (Reg.TLY_IRQ_CAUSE (i - 16)) (Reg.TLY_IRQ_MASK (i - 16)) else false
  | 13 => decide (i < 2) && s.leaf (Reg.CXL_IRQ_CAUSE i) (Reg.CXL_IRQ_MASK i)
  | 14 => decide (i < 32) && decide (s.partSummary i ≠ 0)
  | _ => false

/-- RNG_IRQ_GRP_n, and RNG_IRQ_PARTITION for n = 14 (R439). -/
def State.group (s : State) (n : Nat) : Nat := bitsOf (s.groupLeaf n) 32

/-- The mask of group n (R439). -/
def State.groupMask (s : State) (n : Nat) : Word :=
  if n = 14 then s.reg Reg.RNG_IRQ_PARTITION_MASK else s.reg (Reg.RNG_IRQ_GRP_MASK n)

/-- RNG_IRQ_SUMMARY (R429). -/
def State.summary (s : State) : Nat :=
  bitsOf (fun n => decide (BitVec.ofNat 32 (s.group n) &&& ~~~ s.groupMask n ≠ 0)) 15

/-- What drives IRQ_N low and what the FM vectors mirror: the summary not hidden by its mask (R429, R431). -/
def State.irq (s : State) : Nat := (BitVec.ofNat 32 s.summary &&& ~~~ s.reg Reg.RNG_IRQ_SUMMARY_MASK).toNat

/-- Generate an MSI-X message of a logical device: pending while a mask is set, else sent (R431). -/
def State.message (s : State) (i : Nat) : State :=
  if (s.ld i).vecMask || (s.ld i).funcMask then s.modLd i (fun d => { d with vecPending := true }) else s.emit (.msix i)

/-- Send the messages of the mirrors that became nonzero from `old` to `s`, or, after a write to a register that feeds them,
that are nonzero (R431). `p` names the partition whose leaf changed, if the leaf is one of a partition page. -/
def State.notify (old s : State) (wrote : Bool) (p : Option Nat) : State :=
  let s1 := match p with
    | some p => if s.partSummary p ≠ 0 ∧ (wrote ∨ old.partSummary p = 0) then s.message p else s
    | none => s
  if s.irq ≠ 0 ∧ (wrote ∨ old.irq = 0) then (s1.message 32).message 33 else s1

/-- Set cause bits at a leaf outside the partition pages. -/
def State.cause (s : State) (a bits : Nat) : State :=
  State.notify s (s.setReg a (s.reg a ||| BitVec.ofNat 32 bits)) false none

/-- Set cause bits at a leaf of partition p's page. -/
def State.pcause (s : State) (p a bits : Nat) : State :=
  State.notify s (s.setReg a (s.reg a ||| BitVec.ofNat 32 bits)) false (some p)

/-- Set cause bits of PART_IRQ_CAUSE: cpl 1, cpl_full 4, rewind 8, held 16, reset_done 64, chute_off 128 (R65). -/
def State.pageCause (s : State) (p bits : Nat) : State := s.pcause p (Reg.PART_IRQ_CAUSE p) bits

/-- Move partition p to a state; entering FROZEN shows the frozen cause (R30, R65). -/
def State.enter (s : State) (p : Nat) (st : PState) : State := State.notify s (s.setPstate p st) false (some p)

end Sys2Proof.Machine
end

