-- ==== Sys2Proof/Machine/Errors.lean ====
section
/-! DEFINITION. Error records (R362 to R370): how one is made, merged, kept in the log ring, sent and acknowledged. -/

namespace Sys2Proof.Machine

/-- Words 0 to 14 of a record (R362). -/
def ErrRec.body (node cell : Nat) (r : ErrRec) : List Nat :=
  [0x01 * 2 ^ 24 + r.severity * 2 ^ 20 + r.event, r.seq, r.inc * 2 ^ 16 + node, cell * 2 ^ 22 + r.cls * 2 ^ 16 + r.inst,
   r.time % 2 ^ 32, r.time / 2 ^ 32,
   (match r.part with | some p => 2 ^ 31 + p * 2 ^ 24 | none => 0) + r.status * 2 ^ 16 + r.reps]
  ++ (r.synd ++ List.replicate 8 0).take 8

/-- The 16 words of a record, its CRC-32C last (R362). -/
def ErrRec.words (node cell : Nat) (r : ErrRec) : List Nat :=
  let b := r.body node cell
  b ++ [crc32c (wordBytes b)]

/-- The 16-byte header of a datagram of n records (R368). -/
def State.recordHeader (s : State) (n : Nat) : List Nat :=
  [0xB6400001, s.cell * 2 ^ 22 + s.node, s.incarnation * 2 ^ 16 + n, 0]

/-- Is the UDP path enabled (RNG_ERR_CTRL.udp_en, R380)? -/
def State.udpEn (s : State) : Bool := bitOf (s.reg Reg.RNG_ERR_CTRL) 31

/-- Send records over UDP as one datagram (R368), when the path is enabled. -/
def State.sendRecords (s : State) (rs : List ErrRec) : State :=
  if s.udpEn && !rs.isEmpty then
    s.emit (.records (s.recordHeader rs.length ++ rs.flatMap (ErrRec.words s.node s.cell)))
  else s

/-- Put records into the ring and show how many it holds (R367, R380). -/
def State.setRing (s : State) (rs : List ErrRec) : State :=
  ({ s with errs := { s.errs with ring := rs } }).setRegN Reg.RNG_ERR_QUEUED rs.length

/-- Count a record dropped or replaced, keeping what LOG_OVERFLOW will say (R367). -/
def State.dropRecord (s : State) (seq : Nat) : State :=
  ({ s with errs := { s.errs with lost := s.errs.lost + 1,
                                  lostFirst := (if s.errs.lost = 0 then seq else s.errs.lostFirst),
                                  lostLast := seq } }).count Reg.RNG_ERR_DROPPED 1

/-- Remove the oldest record of severity below CONTAINED (R367): that record and the rest. -/
def takeMinor : List ErrRec → Option (ErrRec × List ErrRec)
  | [] => none
  | r :: t => if r.severity < 3 then some (r, t) else (takeMinor t).map (fun x => (x.1, r :: x.2))

/-- Add a numbered record to the ring: the full ring takes it only in place of a lesser one (R367). It is sent at once and
raises an in-band interrupt by its severity (R368, R369). -/
def State.addRecord (s : State) (r : ErrRec) : State :=
  let r := { r with sent := s.udpEn }
  let queued (s : State) (ring : List ErrRec) : State :=
    let s := s.setRing (ring ++ [r])
    let s := s.sendRecords [r]
    if bitOf (s.reg Reg.RNG_ERR_CTRL) 30 && decide (s.regF Reg.RNG_ERR_CTRL 2 0 < 6)
        && decide (s.regF Reg.RNG_ERR_CTRL 2 0 ≤ r.severity) then s.emit (.inBand 0xB6) else s
  if s.errs.ring.length < 4096 then queued s s.errs.ring
  else if r.severity < 3 then s.dropRecord r.seq
  else match takeMinor s.errs.ring with
    | some (old, rest) => queued (s.dropRecord old.seq) rest
    | none => s.dropRecord r.seq

/-- The sequence after this one; the record sequence continues at 1 (R362, R467). -/
def nextRecordSeq (n : Nat) : Nat := if n = 0xFFFFFFFF then 1 else n + 1

/-- Give a new record the next sequence and add it. -/
def State.newRecord (s : State) (severity event cls inst : Nat) (part : Option Nat) (status : Nat) (synd : List Nat) : State :=
  let seq := nextRecordSeq (s.regN Reg.RNG_ERR_SEQ)
  (s.setRegN Reg.RNG_ERR_SEQ seq).addRecord
    { severity := severity, event := event, seq := seq, inc := s.incarnation, cls := cls, inst := inst, time := s.lcc,
      part := part, status := status, reps := 1, synd := synd, sent := false }

/-- May this record of the ring stand for a new one of the same event and unit (R366)? Only one not yet sent, of severity below
CONTAINED, within the same aligned window of 2^20 cycles. -/
def ErrRec.mergesWith (r : ErrRec) (severity event cls inst now : Nat) : Bool :=
  decide (severity < 3) && decide (r.severity < 3) && decide (r.event = event) && decide (r.cls = cls) && decide (r.inst = inst)
    && !r.sent && decide (r.time / 2 ^ 20 = now / 2 ^ 20) && decide (r.reps < 65535)

/-- Raise the repeat field of the first record that may stand for the new one (R366); none where there is none. -/
def mergeRecord (f : ErrRec → Bool) : List ErrRec → Option (List ErrRec)
  | [] => none
  | r :: t => if f r then some ({ r with reps := r.reps + 1 } :: t) else (mergeRecord f t).map (r :: ·)

/-- Report an event (R362 to R367): merge it, or add a record with the next sequence. -/
def State.report (s : State) (severity event cls inst : Nat) (part : Option Nat) (status : Nat) (synd : List Nat) : State :=
  match mergeRecord (fun r => r.mergesWith severity event cls inst s.lcc) s.errs.ring with
  | some ring => s.setRing ring
  | none => s.newRecord severity event cls inst part status synd

/-- Does sequence a stand at or before b in serial order (R467)? -/
def serialLe (a b : Nat) : Bool := decide ((b + 2 ^ 32 - a % 2 ^ 32) % 2 ^ 32 < 2 ^ 31)

/-- Acknowledge the records of an incarnation up to a sequence (R368, R369). When this frees room after a loss, LOG_OVERFLOW
follows (R367). -/
def State.ackTo (s : State) (inc upto : Nat) : State :=
  let rest := s.errs.ring.filter (fun r => !(decide (r.inc = inc) && serialLe r.seq upto))
  if rest.length = s.errs.ring.length then s
  else
    let s := (s.setRing rest).setRegN Reg.RNG_ERR_ACKED upto
    if s.errs.lost = 0 then s
    else
      let e := s.errs
      ({ s with errs := { e with lost := 0 } }).report 2 0x00F0 14 0 none 0 [e.lost, e.lostFirst, e.lostLast]

/-- The key of a unit's corrected-error count (R366). -/
def ceKey (cls inst store : Nat) : Nat := (cls * 2048 + inst) * 16 + store

/-- Count corrected errors of a unit's store for the next CE_SUMMARY (R366). -/
def State.corrected (s : State) (cls inst store n : Nat) : State :=
  { s with errs := { s.errs with ceCount := Tbl.modify (fun _ => 0) s.errs.ceCount (ceKey cls inst store) (· + n) } }

end Sys2Proof.Machine
end

