-- ==== Sys2Proof/Machine/Scaler.lean ====
section
/-! DEFINITION. What the Scalers count as things happen (R442 to R451): programmable counters with their filters, bandwidth windows and
samples. Other files call these operations where an event of R443's table happens. -/

namespace Sys2Proof.Machine

/-- A Scaler. -/
def State.scaler (s : State) (k : Nat) : Scaler := Tbl.get (fun _ => Scaler.reset) s.scalers k

/-- Change a Scaler. -/
def State.modScaler (s : State) (k : Nat) (f : Scaler → Scaler) : State :=
  { s with scalers := Tbl.modify (fun _ => Scaler.reset) s.scalers k f }

/-- Who caused an event (R444): 0 the Ranger, 1 the fabric manager, 2 a partition, 3 the device; the partition, the CXL port and the
peer node, where there is one. -/
structure Origin where
  priv : Nat
  part : Option Nat
  port : Option Nat
  node : Option Nat
  deriving DecidableEq, Repr

/-- The device itself. -/
def Origin.device : Origin := ⟨3, none, none, none⟩

/-- Work of a partition's units. -/
def Origin.ofPart (p : Nat) : Origin := ⟨2, some p, none, none⟩

/-- The originator and master of an access (R444). -/
def Source.origin : Source → Origin
  | .host p _ => ⟨2, some p, some (p / 16), none⟩
  | .fmHost h _ => ⟨1, none, some h, none⟩
  | .peer n _ _ => ⟨2, none, none, some (n % 4096)⟩
  | .unit p _ _ => .ofPart p
  | .device => .device

/-- An event of R443: its code, the local unit, its increment, its address, its class and who caused it. -/
structure Event where
  code : Nat
  unit : Nat
  amount : Nat
  addr : Option Nat
  cls : Option Nat
  origin : Origin
  deriving DecidableEq, Repr

/-- Does the address lie in range r of Scaler k, compared by 64 bytes (R445)? -/
def State.inSclRange (s : State) (k r a : Nat) : Bool :=
  let pair (x : Nat) := s.reg64 x % 2 ^ 52 / 64
  decide (pair (Reg.SCL_RANGE_BASE_LO k r) ≤ a / 64) && decide (a / 64 ≤ pair (Reg.SCL_RANGE_LIMIT_LO k r))

/-- Does an event match counter n of Scaler k (R443, R444)? -/
def State.sclMatches (s : State) (k n : Nat) (e : Event) : Bool :=
  let sel := s.reg (Reg.SCL_EVSEL k n)
  let flt := s.reg (Reg.SCL_FILT k n)
  bitOf sel 31 && decide (fld sel 7 0 = e.code) && (decide (fld sel 13 8 = 0x3F) || decide (fld sel 13 8 = e.unit))
    && (fld flt 29 26).testBit e.origin.priv
    && (match fld flt 31 30 with
        | 0 => true
        | 1 => decide (e.origin.part = some (fld flt 24 20))
        | 2 => decide (e.origin.port = some (fld flt 19 19))
        | _ => decide (e.origin.node = some (fld flt 11 0)))
    && (!bitOf sel 30 || (match e.addr with
        | some a => s.inSclRange k (fld sel 29 29) a
        | none => false))
    && (!bitOf sel 28 || (match e.cls with
        | some c => (fld sel 27 20).testBit c
        | none => false))

/-- Add to counter n of Scaler k; passing its threshold sets thr once (R446). -/
def State.sclAdd (s : State) (k n amount : Nat) : State :=
  let v := min (s.reg64 (Reg.SCL_CNT_LO k n) + amount) (2 ^ 64 - 1)
  let s := s.setReg64 (Reg.SCL_CNT_LO k n) v
  let thr := min 63 (s.regF (Reg.SCL_EVSEL k n) 19 14)
  if thr ≠ 0 ∧ 2 ^ thr < v ∧ !(s.scaler k).fired.contains n then
    (s.modScaler k (fun x => { x with fired := n :: x.fired })).cause (Reg.SCL_IRQ_CAUSE k) (2 ^ n)
  else s

/-- An event happens on tile k (R442 to R444). -/
def State.event (s : State) (k : Nat) (e : Event) : State :=
  if bitOf (s.reg (Reg.SCL_CTRL k)) 0 then
    (List.range 8).foldl (fun s n => if s.sclMatches k n e then s.sclAdd k n e.amount else s) s
  else s

/-- Does the Scaler of tile k count its fixed counters (R442)? -/
def State.sclRuns (s : State) (k : Nat) : Bool := bitOf (s.reg (Reg.SCL_CTRL k)) 0

/-- Bytes pass a port in a direction, in the current window (R448). -/
def State.bandwidthBytes (s : State) (k port dir n : Nat) : State :=
  if bitOf (s.reg (Reg.SCL_BW_CTRL k)) 31 then
    s.modScaler k (fun x => { x with cur := Tbl.modify (fun _ => 0) x.cur (2 * port + dir) (· + n) })
  else s

/-- The tile of a hub, of a link tile's slice, and of a compute tile. -/
def hubTile (h : Nat) : Nat := 4 + h
/-- The tile of slice t of the switch core. -/
def linkTile (t : Nat) : Nat := 6 + t

/-- A line is read from or written to a stack (R443, R448): class 0 read, 1 write, 4 spill, 5 scrub, 6 zeroing. -/
def State.stackLine (s : State) (stack addr cls : Nat) (write : Bool) (o : Origin) : State :=
  ((s.wakeNow (260 + stack)).event (hubTile (stack / 3)) ⟨0x22, stack % 3, 1, some addr, some cls, o⟩).bandwidthBytes (hubTile (stack / 3)) (stack % 3)
    (if write then 1 else 0) 64

/-! ### Samples (R449 to R451) -/

/-- One step of the LFSR x^32 + x^22 + x^2 + x + 1. -/
def lfsrNext (v : Nat) : Nat :=
  let bit := (v / 2 ^ 31 + v / 2 ^ 21 + v / 2 + v) % 2
  (v * 2 + bit) % 2 ^ 32

/-- What a unit's LFSR is loaded with (R449). -/
def lfsrSeed (seed unit : Nat) : Nat :=
  let v := seed ^^^ ((unit + 1) * 0x9E3779B1 % 2 ^ 32)
  if v = 0 then 1 else v

/-- Put a sample record into the buffer of tile k (R451). -/
def State.addSample (s : State) (k : Nat) (words : Nat → List Nat) : State :=
  let x := s.scaler k
  let rec_ := words ((x.made + 1) % 2 ^ 32)
  let s := s.modScaler k (fun x => { x with made := (x.made + 1) % 2 ^ 32 })
  if x.samples.length < 512 then
    let s := s.modScaler k (fun x => { x with samples := x.samples ++ [rec_] })
    if x.samples.length = 511 then s.cause (Reg.SCL_IRQ_CAUSE k) 0x100 else s
  else if bitOf (s.reg (Reg.SCL_SMP_CTRL k)) 29 then
    s.modScaler k (fun x => { x with samples := x.samples.drop 1 ++ [rec_] })
  else s.count (Reg.SCL_SMP_DROPPED k) 1

/-- What a sample shows of an item: its kind (1 a core's instruction, 2 an engine's step), unit, partition, words 4 to 7 and the
attempts of a step. -/
structure Sampled where
  kind : Nat
  unit : Nat
  part : Nat
  words : List Nat
  attempts : Nat
  deriving DecidableEq, Repr

/-- The record of a tagged item (R450). The stage times, and in word 8 where a translation and the data came from, are what the model does
not follow: they are free values (log entry 12). -/
def State.sample (s : State) (k : Nat) (x : Sampled) (forced : Bool) (label : Nat) : State :=
  let (t, s) := s.draw
  let (u, s) := s.draw
  let (v, s) := s.draw
  let head := x.kind * 2 ^ 28 + x.unit % 64 * 2 ^ 22 + x.part % 32 * 2 ^ 17 + (if forced then 2 ^ 16 else 0) + label % 2 ^ 16
  let w8 := if x.words.getD 2 0 = 0 ∧ x.words.getD 3 0 = 0 then 0 else v % 4 * 2 ^ 16 + v / 4 % 256 * 2 ^ 8 + (v / 1024 % 5 + 1)
  let t12 := if x.kind = 2 then u / 2 ^ 32 % 2 ^ 16 + x.attempts * 2 ^ 16 else 0
  let now := s.lcc
  s.addSample k (fun seq => [head, seq, now % 2 ^ 32, now / 2 ^ 32 % 2 ^ 32] ++ x.words
    ++ [w8, t % 2 ^ 32, t / 2 ^ 32, (if x.kind = 2 then u % 2 ^ 32 else u % 2 ^ 16), t12, 0, 0, 0])

/-- A unit of tile k completes an item (R449, R450): its LFSR advances, and the item writes a record if it is tagged, or if gc.tag
tagged it. A unit whose LFSR is zero has not been loaded since sampling was enabled. `lane` is 0 to 15 for a core, 16 to 23 for an engine. -/
def State.itemDone (s : State) (k lane : Nat) (x : Sampled) : State :=
  let ctrl := s.reg (Reg.SCL_SMP_CTRL k)
  let on := if lane < 16 then bitOf ctrl 30 else bitOf ctrl 31
  if !on then s
  else
    let forcedLabel := Tbl.get (fun _ => none) (s.scaler k).tags lane
    let s := s.modScaler k (fun y => { y with tags := Tbl.set (fun _ => none) y.tags lane none })
    let old := Tbl.get (fun _ => 0) (s.scaler k).lfsr lane
    let v := lfsrNext (if old = 0 then lfsrSeed (s.regN (Reg.SCL_SMP_SEED k)) (lane % 16) else old)
    let s := s.modScaler k (fun y => { y with lfsr := Tbl.set (fun _ => 0) y.lfsr lane v })
    let mine := !bitOf ctrl 28 || decide (fld ctrl 27 23 = x.part)
    let s := if mine && decide (v % 2 ^ (min 24 (fld ctrl 4 0)) = 0) then s.sample k x false 0 else s
    match forcedLabel with
    | some l => s.sample k x true l
    | none => s

end Sys2Proof.Machine
end

