-- ==== Sys2Proof/Machine/Mem.lean ====
section
/-! DEFINITION. T1 and T0 as stores: bytes, lines, poison, the spread of T1 over the stacks (R122 to R129). -/

namespace Sys2Proof.Machine

/-- Every byte of a line. -/
def fullMask : Nat := 2 ^ 64 - 1

/-- Read n bytes of T1 at a fabric offset. -/
def State.t1Read (s : State) (a n : Nat) : Nat := s.t1.mem.readN a n

/-- Read a 32-bit word of T1. -/
def State.t1Word (s : State) (a : Nat) : Nat := s.t1Read a 4

/-- What HUB_T1_LAST_SYND will show of the error that the line of this byte holds, if it holds one that no read has found. -/
def State.t1Err (s : State) (a : Nat) : Option Nat := Tbl.get (fun _ => none) s.t1.err (a / 64)

/-- Put an error into a line, or take it out. -/
def State.setT1Err (s : State) (a : Nat) (e : Option Nat) : State :=
  { s with t1 := { s.t1 with err := Tbl.set (fun _ => none) s.t1.err (a / 64) e } }

/-- Does a read of the line that holds this byte of T1 return poison: its bit is set, or its codeword is uncorrectable (R130)? -/
def State.t1Poison (s : State) (a : Nat) : Bool :=
  Tbl.get (fun _ => false) s.t1.poison (a / 64) || (match s.t1Err a with | some w => decide (2 ^ 31 ≤ w) | none => false)

/-- Set or clear the poison bit of a line of T1. -/
def State.setT1Poison (s : State) (a : Nat) (b : Bool) : State :=
  { s with t1 := { s.t1 with poison := Tbl.set (fun _ => false) s.t1.poison (a / 64) b } }

/-- The home-state bits of a line of T1 (R129): 0 no host, 1 S, 2 E, as the home agent sets them. -/
def State.homeBits (s : State) (a : Nat) : Nat := Tbl.get (fun _ => 0) s.t1.home (a / 64)

/-- Set the home-state bits of a line. -/
def State.setHomeBits (s : State) (a v : Nat) : State :=
  { s with t1 := { s.t1 with home := Tbl.set (fun _ => 0) s.t1.home (a / 64) v } }

/-- Write n bytes of T1 with no other effect (what the device itself keeps there). -/
def State.t1Write (s : State) (a n v : Nat) : State := { s with t1 := { s.t1 with mem := s.t1.mem.writeN a n v } }

/-- The home drops the reservations of a line when it accepts a write of it (R110). -/
def State.dropResv (s : State) (phys : Nat) : State :=
  if s.resv.isEmpty then s else { s with resv := s.resv.filter (fun e => decide (e.2 ≠ phys)) }

/-- The mark of a T0 address among physical addresses. -/
def t0Flag : Nat := 2 ^ 60

/-- The forty symbols of the codeword that stores a line (R129): data, metadata and check symbols. -/
def State.t1Codeword (s : State) (a : Nat) : List Nat :=
  let o := a / 64 * 64
  let msg := (List.range 32).map (fun i => s.t1Read (o + 2 * i) 2) ++ [s.homeBits o % 4 + (if s.t1Poison o then 4 else 0)]
  msg ++ rsCheck msg

/-- Apply the masked bytes of one line to T1 as one unit (R15): a write of the whole line clears poison unless it carries some, and with it any
error; a partial write leaves a poisoned line poisoned (R130). -/
def State.t1Put (s : State) (line mask data : Nat) (poison : Bool) : State :=
  let full := decide (mask % 2 ^ 64 = fullMask)
  let s1 : State := { s with t1 := { s.t1 with mem := s.t1.mem.writeMasked (64 * line) mask 64 data } }
  let s1 := if full then s1.setT1Err (64 * line) none else s1
  (s1.dropResv (s.node * 2 ^ 40 + 64 * line)).setT1Poison (64 * line) (poison || (s.t1Poison (64 * line) && !full))

/-- Zero a range of T1 and clear its poison and home-state bits (R128). -/
def State.t1Zero (s : State) (r : Range) : State :=
  { s with t1 := { mem := s.t1.mem.zero r.base r.size,
                   poison := Tbl.keep (fun l => !r.has (64 * l)) s.t1.poison,
                   home := Tbl.keep (fun l => !r.has (64 * l)) s.t1.home,
                   err := Tbl.keep (fun l => !r.has (64 * l)) s.t1.err } }

/-- Read n bytes of T0. -/
def State.t0Read (s : State) (a n : Nat) : Nat := s.t0.mem.readN a n

/-- Wrong bits of the 64-bit word that holds this byte of T0, which no read has found. -/
def State.t0Err (s : State) (a : Nat) : Nat := Tbl.get (fun _ => 0) s.t0.err (a / 8)

/-- Put wrong bits into a word of T0, or take them out. -/
def State.setT0Err (s : State) (a n : Nat) : State := { s with t0 := { s.t0 with err := Tbl.set (fun _ => 0) s.t0.err (a / 8) n } }

/-- The 64-bit words of the line that holds this byte of T0. -/
def t0Words (a : Nat) : List Nat := (List.range 8).map (fun i => a / 64 * 64 + 8 * i)

/-- Does a read of the line that holds this byte of T0 return poison: its bit is set, or one of its words is uncorrectable (R124)? -/
def State.t0Poison (s : State) (a : Nat) : Bool :=
  Tbl.get (fun _ => false) s.t0.poison (a / 64) || (t0Words a).any (fun w => decide (2 ≤ s.t0Err w))

/-- Set or clear the poison bit of a line of T0. -/
def State.setT0Poison (s : State) (a : Nat) (b : Bool) : State :=
  { s with t0 := { s.t0 with poison := Tbl.set (fun _ => false) s.t0.poison (a / 64) b } }

/-- The bank of a T0 address (R122). -/
def t0Bank (a : Nat) : Nat := a / 0x04000000

/-- A read of T0 finds an uncorrectable word (R124). -/
def State.t0Uncorrectable (s : State) (a : Nat) : State :=
  let h := t0Bank a % 2
  let s := ((s.setT0Poison a true).count (Reg.HUB_T0_UE h) 1).cause (Reg.HUB_MEM_IRQ_CAUSE h) 4
  s.report 3 0x0003 7 (t0Bank a) none 0 [a]

/-- A read of a word of T0 finds what is wrong with it (R124): one bit is corrected, counted and written back; more are uncorrectable. -/
def State.t0FindWord (s : State) (a : Nat) : State :=
  match s.t0Err a with
  | 0 => s
  | 1 => ((s.setT0Err a 0).count (Reg.HUB_T0_CE (t0Bank a % 2)) 1).corrected 7 (t0Bank a) 1 1
  | _ => (s.setT0Err a 0).t0Uncorrectable a

/-- A read of a line of T0 finds what is wrong with its words. -/
def State.t0Find (s : State) (a : Nat) : State := (t0Words a).foldl State.t0FindWord s

/-- A masked write of a line: a word written whole takes new check bits, one written in part is read first (R124). -/
def State.t0Merge (s : State) (line mask : Nat) : State :=
  (t0Words (64 * line)).foldl (fun s a =>
    let m := mask / 2 ^ (a - 64 * line) % 256
    if m = 255 then s.setT0Err a 0 else if m = 0 then s else s.t0FindWord a) s

/-- Apply the masked bytes of one line to T0; the whole line clears its poison (R124). -/
def State.t0Put (s : State) (line mask data : Nat) (poison : Bool) : State :=
  let s := s.t0Merge line mask
  let s1 : State := { s with t0 := { s.t0 with mem := s.t0.mem.writeMasked (64 * line) mask 64 data } }
  (s1.dropResv (t0Flag + 64 * line)).setT0Poison (64 * line) (poison || (s.t0Poison (64 * line) && decide (mask % 2 ^ 64 ≠ fullMask)))

/-- Zero a range of T1 and clear its poison, as whole-line writes do (R33, R130). -/
def State.t1Clear (s : State) (r : Range) : State :=
  { s with t1 := { s.t1 with mem := s.t1.mem.zero r.base r.size, poison := Tbl.keep (fun l => !r.has (64 * l)) s.t1.poison,
                             err := Tbl.keep (fun l => !r.has (64 * l)) s.t1.err } }

/-- Zero a range of T0 and clear its poison (R137). -/
def State.t0Zero (s : State) (r : Range) : State :=
  { s with t0 := { s.t0 with mem := s.t0.mem.zero r.base r.size,
                             poison := Tbl.keep (fun l => !r.has (64 * l)) s.t0.poison,
                             err := Tbl.keep (fun w => !r.has (8 * w)) s.t0.err } }

/-- The partition that owns a page of T0 (R123). -/
def State.t0Owner (s : State) (page : Nat) : Option Nat :=
  match Tbl.get (fun _ => 0) s.t0.owner page with
  | 0 => none
  | p + 1 => some p

/-- Give a page of T0 an owner, or none. -/
def State.setT0Owner (s : State) (page : Nat) (o : Option Nat) : State :=
  { s with t0 := { s.t0 with owner := Tbl.set (fun _ => 0) s.t0.owner page (match o with | some p => p + 1 | none => 0) } }

/-- The pages of T0 a partition owns. -/
def State.t0Owned (s : State) (p : Nat) : List Nat := (s.t0.owner.filter (fun e => decide (e.2 = p + 1))).map (·.1)

/-- The stack that serves a fabric offset, from the window sizes in HUB_T1_MAP (R125): w6 in [7:0], w3 in [15:8], w1 in
[23:16] units of 6 GiB. -/
def State.stackOf (s : State) (o : Nat) : Nat :=
  let g := 2 ^ 30
  let w6 := s.regF (Reg.HUB_T1_MAP 0) 6 0
  let w3 := s.regF (Reg.HUB_T1_MAP 0) 14 8
  let w1 := s.regF (Reg.HUB_T1_MAP 0) 22 16
  if o < 6 * w6 * g then o / 4096 % 6
  else if o < 6 * (w6 + w3) * g then
    let half := 3 * w3 * g
    let b := o - 6 * w6 * g
    if b < half then b / 4096 % 3 else 3 + (b - half) / 4096 % 3
  else (o - 6 * (w6 + w3) * g) / (max 1 w1 * g)

/-- The hub whose home agent orders a line of T1 (R12). -/
def State.hubOf (s : State) (o : Nat) : Nat := if s.stackOf o < 3 then 0 else 1

/-- A line of T1 at a fabric offset is transferred (R443, R448). -/
def State.t1Line (s : State) (o cls : Nat) (write : Bool) (who : Origin) : State :=
  s.stackLine (s.stackOf o) (s.node * 2 ^ 40 + o / 64 * 64) cls write who

/-- A line of a T0 bank is read or written (R443, event 0x09). -/
def State.t0Line (s : State) (a : Nat) (write : Bool) (who : Origin) : State :=
  let s := if t0Bank a < 4 then s.wakeNow (300 + t0Bank a) else s
  if t0Bank a < 4 then s.event (t0Bank a) ⟨0x09, 0, 1, some a, some (if write then 1 else 0), who⟩ else s

/-- Count and show a T1 error that a read has corrected (R129, R160, R366). -/
def State.t1Corrected (s : State) (o word : Nat) : State :=
  let h := s.hubOf o
  let s := s.count64Sat (Reg.HUB_T1_CE_LO h) 1
  let s := (s.setReg64 (Reg.HUB_T1_LAST_LO h) o).setRegN (Reg.HUB_T1_LAST_SYND h) word
  s.corrected 5 (s.stackOf o) 2 1

/-- The requester word of T1_UE (R365): code in [31:30], node in [23:12]. -/
def ueWho (code node : Nat) : Nat := code * 2 ^ 30 + node % 4096 * 2 ^ 12

/-- The requester word of T1_UE for a source: a host, a peer node, or a unit of this node. -/
def State.ueSource (s : State) : Source → Nat
  | .host _ _ => ueWho 1 s.node
  | .fmHost _ _ => ueWho 1 s.node
  | .peer n _ _ => ueWho 2 n
  | _ => ueWho 0 s.node

/-- A read of T1 finds an uncorrectable line (R130): written back poisoned, counted, recorded; `who` is the requester word of T1_UE
(R365). -/
def State.t1Uncorrectable (s : State) (o synd who : Nat) : State :=
  let h := s.hubOf o
  let s := (s.setT1Poison o true).count (Reg.HUB_T1_UE h) 1
  let s := (s.setReg64 (Reg.HUB_T1_LAST_LO h) o).setRegN (Reg.HUB_T1_LAST_SYND h) (2 ^ 31 + synd % 65536)
  let s := s.cause (Reg.HUB_MEM_IRQ_CAUSE h) 2
  s.report 3 0x0001 5 (s.stackOf o) none 0 [o % 2 ^ 32, o / 2 ^ 32, 2 ^ 31 + synd % 65536, who]

/-- A read of the line of T1 that holds this byte finds the error it holds, if any (R129, R130): corrected, or uncorrectable, and
written back. -/
def State.t1Find (s : State) (a who : Nat) : State :=
  match s.t1Err a with
  | none => s
  | some w =>
    let o := a / 64 * 64
    let s := s.setT1Err a none
    let s := if 2 ^ 31 ≤ w then s.t1Uncorrectable o w who else s.t1Corrected o w
    s.stackLine (s.stackOf o) (s.node * 2 ^ 40 + o) (if who / 2 ^ 30 = 3 then 5 else 1) true .device

/-- An error gets into the stored codeword of a line (R129): these symbols are wrong. What its syndromes show waits for the next read; symbols that
stay wrong after the device's correction are wrong for whoever reads. A line that holds an error already is uncorrectable by then. -/
def State.t1Spoil (s : State) (a : Nat) (err : List Nat) : State :=
  let o := a / 64 * 64
  let rest := eccResidue err
  let data := (List.range 32).foldl (fun acc i => acc + (s.t1Read (o + 2 * i) 2 ^^^ rest.getD i 0) * 2 ^ (16 * i)) 0
  let meta_ := rest.getD 32 0
  let s := if rest.all (· = 0) then s else
    ((s.t1Write o 64 data).setHomeBits o (s.homeBits o ^^^ meta_ % 4)).setT1Poison o
      (xor (Tbl.get (fun _ => false) s.t1.poison (o / 64)) (decide (meta_ / 4 % 2 = 1)))
  match eccJudge err, s.t1Err o with
  | .clean, _ => s
  | .segment g _ _, none => s.setT1Err o (some (g * 2 ^ 16 + syndrome0 err))
  | _, _ => s.setT1Err o (some (2 ^ 31 + syndrome0 err))

end Sys2Proof.Machine
end

