-- ==== Sys2Proof/Machine/Ctl.lean ====
section
/-! DEFINITION. The control bus (R4 to R8, R22 to R24, R427, R428): which registers a requester sees, what a write to one does,
and the register pairs. -/

namespace Sys2Proof.Machine

/-- The control-space address a requester's address names: a logical device that serves a partition sees its own page from
offset 0 of its BAR0, every other requester the control space (R23, R420). -/
def Requester.target (rq : Requester) (a : Nat) : Nat :=
  match rq with
  | .ld p => 0x07000000 + p.val * 0x100000 + a
  | _ => a

/-- Does the requester see this control-space address at all? A logical device sees its own page below 0xE_0000 (R23); the TAP
is a requester at debug level 2 or 3 (R427). -/
def State.sees (s : State) (rq : Requester) (ca : Nat) : Bool :=
  match rq with
  | .ld p => decide (0x07000000 + p.val * 0x100000 ≤ ca) && decide (ca < 0x07000000 + p.val * 0x100000 + 0xE0000)
  | .tap => decide (2 ≤ s.regF Reg.RNG_DBG_STATUS 1 0)
  | _ => true

/-- Is the page that holds this address open? While a partition is FREE or RELEASING only PART_ID is (R32). -/
def State.pageOpen (s : State) (ca : Nat) : Bool :=
  match RegMap.locate ca with
  | some (.part, p, o) => decide (o = 0) || !(decide (s.pstate p = .free) || decide (s.pstate p = .releasing))
  | _ => true

/-- Registers that a block's table gives but that stand in one block of the kind only: DIR_HOST_LOST in HT0's (R222),
the mirror registers in HT0's (R160),
WIN_EXACT_GRANT in W0's (R322), the node-wide switch registers in LT0's (R261), the Scaler registers of one kind of tile (R461). -/
def RegMap.absent (ca : Nat) : Bool :=
  match RegMap.locate ca with
  | some (.dir, i, o) => decide (i ≠ 0) && decide (o = 0x74)
  | some (.hub, i, o) => decide (i ≠ 0) && decide (0x100 ≤ o)
  | some (.win, i, o) => decide (i ≠ 0) && decide (o = 0x100)
  | some (.sw, i, o) => decide (i ≠ 0) && decide (0x100 ≤ o)
  | some (.scl, k, o) =>
    (decide (k ≠ 0) && decide (o = 4)) || (decide (4 ≤ k) && (decide (0x150 ≤ o) && decide (o < 0x160) || decide (0x300 ≤ o)))
      || (decide (k < 4) && decide (0x200 ≤ o) && decide (o < 0x300))
  | _ => false

/-- May the requester reach a register at this control-space address (R66)? -/
def State.reaches (s : State) (rq : Requester) (ca : Nat) : Bool :=
  s.sees rq ca && (RegMap.rowAt ca).isSome && s.pageOpen ca && !RegMap.absent ca

/-- May the requester write? At debug level 2 the TAP reads only (R413). -/
def State.writes (s : State) (rq : Requester) (ca : Nat) : Bool :=
  s.reaches rq ca && (decide (rq ≠ .tap) || decide (s.regF Reg.RNG_DBG_STATUS 1 0 = 3))

/-- What a write leaves in a register: RW bits take the value, a 1 clears a W1C bit, every other bit stays (R7, R8). -/
def RegRow.write (r : RegRow) (old v : Word) : Word :=
  (v &&& BitVec.ofNat 32 r.rw) ||| (old &&& ~~~ (BitVec.ofNat 32 r.rw ||| (v &&& BitVec.ofNat 32 r.w1c)))

/-- Is this a cause or mask register of the interrupt tree (R431)? If so, the partition whose page it stands on, if any. -/
def RegMap.feeds (ca : Nat) : Option (Option Nat) :=
  match RegMap.locate ca with
  | some (.part, p, o) =>
    if o ∈ [0x100, 0x104, 0x2040, 0x2044, 0x4040, 0x4044, 0x6040, 0x6044, 0x7040, 0x7044, 0x80C0, 0x80C4] then some (some p) else none
  | some (.rng, _, o) =>
    if (0x180 ≤ o ∧ o < 0x1BC) ∨ o ∈ [0x104, 0x200, 0x204, 0x30080, 0x30084, 0x40080, 0x40084, 0x50080, 0x50084] then some none else none
  | some (.dir, _, o) => if o = 0xC0 ∨ o = 0xC4 then some none else none
  | some (.sw, _, o) => if o = 0xC0 ∨ o = 0xC4 then some none else none
  | some (b, _, o) =>
    if (o = 0x80 ∨ o = 0x84) ∧ b ∈ [Blk.cfg, .hub, .win, .crib, .tly, .lnk, .cxl, .lft, .scl] then some none else none
  | none => none

/-- Write the plain bits of a register (no action), and send the messages its cause or mask bits call for (R431). -/
def State.store (s : State) (ca : Nat) (v : Word) : State :=
  match RegMap.rowAt ca with
  | none => s
  | some r =>
    let s' := s.setReg ca (r.write (s.reg ca) v)
    match RegMap.feeds ca with
    | some p => State.notify s s' true p
    | none => s'

/-- A write by a requester to the register at a control-space address: a violation where it may not reach it, else `f`. -/
def State.access (s : State) (rq : Requester) (ca : Nat) (f : State → State) : State :=
  if s.writes rq ca then f s else s.violateReg rq true ca

/-- Does a write enable every byte it must (R428)? -/
def fullEnables (be : BitVec 4) : Bool := decide (be = 0xF)

/-- The key under which a requester's held low word of a pair stands (R6). -/
def pairKey (rq : Requester) (lo : Nat) : Nat := rq.key * 2 ^ 32 + lo

/-- The low word a requester holds for a pair. -/
def State.heldLow (s : State) (rq : Requester) (lo : Nat) : Option Word := Tbl.get (fun _ => none) s.held (pairKey rq lo)

/-- Hold a low word, or let it go. -/
def State.setHeld (s : State) (rq : Requester) (lo : Nat) (v : Option Word) : State :=
  { s with held := Tbl.set (fun _ => none) s.held (pairKey rq lo) v }

/-- Held low words of the pairs of partition p's page are discarded (R6): a reset has reached it. -/
def State.dropHeldOf (s : State) (p : Nat) : State :=
  { s with held := Tbl.keep (fun k => !decide (k % 2 ^ 32 / 0x00100000 = 0x70 + p)) s.held }

/-- Latch the high word of a pair for a requester (R5). -/
def State.setLatch (s : State) (rq : Requester) (v : Word) : State := { s with latch := Tbl.set (fun _ => 0) s.latch rq.key v }

/-- What a requester's latch holds (R5). -/
def State.latched (s : State) (rq : Requester) : Word := Tbl.get (fun _ => 0) s.latch rq.key

/-- The place an address has in a register pair (R4). -/
def RegMap.pairPart (ca : Nat) : PairPart :=
  match RegMap.rowAt ca with
  | some r => r.pair
  | none => .one

/-- A write of the low word of a pair is held for its requester (R6). -/
def State.pairLow (s : State) (rq : Requester) (ca : Nat) (v : Word) : State :=
  s.access rq ca (fun s => s.setHeld rq ca (some v))

/-- The state once a pair is applied: the low word the requester holds, which it holds no more, or, if it holds none, the one the register has,
which stays; and the high word (R6). -/
def State.pairDone (s : State) (rq : Requester) (ca : Nat) (v : Word) : State :=
  (match s.heldLow rq (ca - 4) with
    | some w => (s.store (ca - 4) w).setHeld rq (ca - 4) none
    | none => s).store ca v

/-- A write of the high word applies the whole value (R6). The pair's action, if it has one, is `action`. -/
def State.pairHigh (s : State) (rq : Requester) (ca : Nat) (v : Word) (action : State → State) : State :=
  s.access rq ca (fun s => action (s.pairDone rq ca v))

end Sys2Proof.Machine
end

