-- ==== Sys2Proof/Machine/Operands.lean ====
section
/-! DEFINITION. The operand forms of commands: the packet's header and commit tag (R34, R45), the shortest packet of each opcode,
the queue of each opcode (R51), the fields of op_args. -/

namespace Sys2Proof.Machine

/-- Word i of a list of words. -/
def wordAt (ws : List Nat) (i : Nat) : Nat := ws.getD i 0

/-- The bit field [hi:lo] of a number. -/
def nfld (v hi lo : Nat) : Nat := v / 2 ^ lo % 2 ^ (hi + 1 - lo)

/-- The 64-bit value of words i and i + 1. -/
def pairAt (ws : List Nat) (i : Nat) : Nat := wordAt ws i + 2 ^ 32 * wordAt ws (i + 1)

/-- The n 32-bit words of T1 from a fabric offset. -/
def State.t1Words (s : State) (a : Nat) : Nat → List Nat
  | 0 => []
  | n + 1 => s.t1Word a :: s.t1Words (a + 4) n

/-- The queue an opcode goes to (R51); none for an opcode not in the table. -/
def queueOf : Nat → Option Queue
  | 0x01 => some .move | 0x02 => some .me | 0x03 => some .gc | 0x04 => some .row | 0x05 => some .row | 0x06 => some .row
  | 0x07 => some .win | 0x08 => some .win | 0x09 => some .win | 0x0A => some .win | 0x0B => some .sync | 0x0C => some .sync
  | 0x0D => some .sync | 0x0E => some .move | 0x0F => some .move | 0x10 => some .sync | 0x11 => some .row | 0x12 => some .row
  | _ => none

/-- The fewest lines a packet of an opcode has (R36): two for a MOVE (R131), whose descriptors stand in line 1; the arguments of every other opcode
stand in the header. -/
def minLines (op : Nat) : Nat := if op = 0x01 then 2 else 1

/-- A command from the words of its packet (R45). -/
def Cmd.ofWords (chute ord : Nat) (ws : List Nat) : Cmd :=
  { chute := chute, seq := wordAt ws 1, ord := ord, kind := nfld (wordAt ws 0) 11 8, opcode := nfld (wordAt ws 0) 7 0,
    unit := nfld (wordAt ws 0) 31 24, compId := nfld (wordAt ws 2) 31 16, compEpoch := wordAt ws 3,
    fence := decide (nfld (wordAt ws 2) 1 1 = 1), irq := decide (nfld (wordAt ws 2) 0 0 = 1), tag := pairAt ws 4,
    deadline := pairAt ws 6, args := (ws.drop 8).take 7, body := ws.drop 16, phase := .queued, runUnit := 0xFF, status := 0,
    result := 0, detail := 0, endOrd := 0, unacked := 0, aborting := false, stopping := false, pins := [], inputs := [], progress := 0, aux := [] }

/-- Header word i (8 to 14) of a command's op_args. -/
def Cmd.arg (c : Cmd) (i : Nat) : Nat := wordAt c.args (i - 8)

/-- The 64-bit value of op_args words i and i + 1. -/
def Cmd.arg64 (c : Cmd) (i : Nat) : Nat := c.arg i + 2 ^ 32 * c.arg (i + 1)

/-- Does the command act in a composition (R50)? -/
def Cmd.inComp (c : Cmd) : Bool := decide (c.compId ≠ 0xFFFF)

end Sys2Proof.Machine
end

