-- ==== Sys2Proof/Machine/Cmds.lean ====
section
/-! DEFINITION. Commands of a partition: finding one, changing it, ending it with its status (R52 to R58). -/

namespace Sys2Proof.Machine

/-- The status codes of R57. -/
def stOk : Nat := 0x00
def stAborted : Nat := 0x01
def stAlreadyDone : Nat := 0x02
def stTargetLost : Nat := 0x03
def stLowerTier : Nat := 0x04
def stDeadline : Nat := 0x05
def stStaleEpoch : Nat := 0x06
def stPoison : Nat := 0x07
def stChecksum : Nat := 0x08
def stUnsupported : Nat := 0x09
def stReservation : Nat := 0x0A
def stFewer : Nat := 0x0B
def stEscalated : Nat := 0x0C

/-- The rank of a status in R58: codes 1 to 10 by value, then informational codes, then OK. -/
def statusRank (st : Nat) : Nat := if st = 0 then 100 else st

/-- The status a record carries when two outcomes apply (R58). -/
def worseStatus (a b : Nat) : Nat := if statusRank a ≤ statusRank b then a else b

/-- Is this the command of a chute and sequence? -/
def Cmd.is (c : Cmd) (chute seq : Nat) : Bool := decide (c.kind = 0) && decide (c.chute = chute) && decide (c.seq = seq)

/-- A command of partition p that has left its chute. -/
def State.cmd (s : State) (p chute seq : Nat) : Option Cmd := (s.part p).cmds.find? (fun c => c.is chute seq)

/-- Change a command. -/
def State.modCmd (s : State) (p chute seq : Nat) (f : Cmd → Cmd) : State :=
  s.modPart p (fun pt => { pt with cmds := pt.cmds.map (fun c => if c.is chute seq then f c else c) })

/-- A command that ends waits on no semaphore any more, nor does the engine or core that ran it (R327). -/
def State.dropWaits (s : State) (p : Nat) (c : Cmd) : State :=
  if s.sync.waits.isEmpty then s
  else
    let mine (w : SemWait) : Bool := match w.who with
      | .cmd q ch n => decide (q = p) && c.is ch n
      | .me e => decide (c.opcode = 0x02) && decide (c.phase = .running) && decide (e = c.runUnit)
      | .core g => decide (c.opcode = 0x03) && decide (c.phase = .running) && decide (g = c.runUnit)
    { s with sync := { s.sync with waits := s.sync.waits.filter (fun w => !mine w) } }

/-- Take a command out without a record (R64). -/
def State.dropCmd (s : State) (p chute seq : Nat) : State :=
  s.modPart p (fun pt => { pt with cmds := pt.cmds.filter (fun c => !c.is chute seq), others := (chute, seq) :: pt.others })

/-- The record of the fault that a command holds, if it still waits for room, never enters the FIFO (R176); one whose fault has been resumed does. -/
def State.dropWaiting (s : State) (p : Nat) (c : Cmd) : State :=
  s.modPart p (fun pt => { pt with waiting := pt.waiting.filter (fun r =>
    !(pt.held.any (fun h => decide (h.chute = c.chute) && decide (h.seq = c.seq) && decide (h.id = r.id)))) })

/-- End a command: its record waits with this status, result and detail (R52, R54). A command that partition reset is stopping
ends without a record (R64). One that an ABORT has taken hold of has reached a boundary and ends ABORTED, the lowest code of those that apply
(R58 to R60). Its fault, if it is held at one, ends with it (R176). -/
def State.finish (s : State) (p chute seq status result detail : Nat) : State :=
  match s.cmd p chute seq with
  | none => s
  | some c =>
    let s := (s.dropWaits p c).dropWaiting p c
    if c.stopping then s.dropCmd p chute seq
    else
      let n := (s.part p).nextOrd
      let s := s.modCmd p chute seq (fun c =>
        { c with phase := .ended, status := (if c.aborting then stAborted else status), result := result, detail := detail, endOrd := n })
      s.modPart p (fun pt => { pt with nextOrd := n + 1, held := pt.held.filter (fun h => !(decide (h.chute = chute) && decide (h.seq = seq))) })

/-- A core. -/
def State.core (s : State) (g : Nat) : Core := Tbl.get (fun _ => Core.reset) s.cores g

/-- Change a core. -/
def State.modCore (s : State) (g : Nat) (f : Core → Core) : State :=
  { s with cores := Tbl.modify (fun _ => Core.reset) s.cores g f }

/-- A core's run is to end with a status, result and detail (R105); where it is ending already, with the status that R58 lets stand. -/
def State.endRun (s : State) (g status result detail : Nat) : State :=
  s.modCore g (fun c => match c.ending with
    | some (st, _, _) => if worseStatus st status = st then c else { c with ending := some (status, result, detail) }
    | none => { c with ending := some (status, result, detail) })

/-- What the record of a command that ends part of the way shows as result and detail, by its opcode: steps and escalated tiles of an
ME_PROGRAM (R68); segments or placement, and the first segment not written, of a MOVE (R138); what a row command has done and skipped
(R272, R274, R276, R281, R287), queries or items and those short or skipped (R304, R311), coarse partitions and records removed (R309); bytes of a DIGEST (R346); what a command has completed of its work. -/
def Cmd.partialResult (c : Cmd) : Nat × Nat :=
  match c.opcode with
  | 0x01 =>
    (c.aux.getD (if c.arg 8 % 8 = 1 then 4 else 0) 0, if c.arg 8 % 8 = 2 then 0 else c.aux.getD 3 0 + 4 * min (c.aux.getD 1 0) (2 ^ 22 - 1))
  | 0x02 => (c.progress, min (c.aux.getD 2 0) 0xFFFFFF)
  | 0x04 => (c.progress, min (c.aux.getD 0 0) 0xFFFFFF)
  | 0x05 => (c.aux.getD 1 0, min (c.aux.getD 0 0) 0xFFFFFF)
  | 0x06 => (c.aux.getD 0 0, 0)
  | 0x07 => (c.progress, min (c.aux.getD 0 0) 0xFFFFFF)
  | 0x08 => (c.progress, min (c.aux.getD 0 0) 0xFFFFFF)
  | 0x09 => (c.progress, min (c.aux.getD 0 0) 0xFFFFFF)
  | 0x0A => (c.progress + 2 ^ 32 * min (c.aux.getD 0 0) 0xFFFFFFFF, 0)
  | 0x0E => (c.aux.getD 3 0, 0)
  | 0x11 => (c.aux.getD 1 0, min (c.aux.getD 0 0) 0xFFFFFF)
  | _ => (c.progress, 0)

/-- A command fails while it runs: a GC_RUN ends at its core, at the pc (R105); another ends with what it has completed. -/
def State.failCmd (s : State) (p chute seq status : Nat) : State :=
  match s.cmd p chute seq with
  | none => s
  | some c =>
    if c.opcode = 0x03 ∧ c.phase = .running then s.endRun c.runUnit status (s.core c.runUnit).pc 0
    else s.finish p chute seq status c.partialResult.1 c.partialResult.2

/-- Commands of a queue that are in it: queued, held at a fault or ready (R51). -/
def State.inQueue (s : State) (p : Nat) (q : Queue) : List Cmd :=
  (s.part p).cmds.filter (fun c => decide (c.kind = 0) && decide (queueOf c.opcode = some q) &&
    (match c.phase with | .queued => true | .faulted _ => true | .ready => true | _ => false))

/-- The command of partition p that runs on a unit with one of these opcodes, if any. -/
def State.runningOn (s : State) (p : Nat) (q : Queue) (unit : Nat) : Option Cmd :=
  (s.part p).cmds.find? (fun c => decide (c.phase = .running) && decide (queueOf c.opcode = some q) && decide (c.runUnit = unit))

/-- A release record, PAD, ABORT or RESUME record: an entry that is finished from the start (R46, R59). -/
def State.addEnded (s : State) (p : Nat) (k : Control) (status result detail : Nat) (after : List Nat) : State :=
  let n := (s.part p).nextOrd
  let c : Cmd :=
    { chute := k.chute, seq := k.seq, ord := n, kind := k.kind, opcode := 0, unit := 0xFF, compId := 0xFFFF, compEpoch := 0,
      fence := false, irq := k.irq, tag := k.tag, deadline := 0, args := k.args, body := [], phase := .ended, runUnit := 0xFF,
      status := status, result := result, detail := detail, endOrd := n, unacked := 0, aborting := false, stopping := false,
      pins := [], inputs := [], progress := 0, aux := after }
  s.modPart p (fun pt => { pt with nextOrd := n + 1, cmds := pt.cmds ++ [c] })

end Sys2Proof.Machine
end

