-- ==== Sys2Proof/Machine/Fabric.lean ====
section
/-! DEFINITION. Cofeben and the switch core (R223 to R256): packet words, routes, rails, virtual channels, output queues with
their thresholds and spill, combining, PATH_LOST, the send table and outstanding requests. -/

namespace Sys2Proof.Machine

/-! ### Packet words -/

/-- A flag as a bit at a place. -/
def flag (b : Bool) (i : Nat) : Nat := if b then 2 ^ i else 0

/-- The eight words of a transport header (R236). -/
def Packet.header (k : Packet) : List Nat :=
  [k.dst * 2 ^ 20 + k.src * 2 ^ 8 + k.tc * 2 ^ 5 + k.vc * 2 ^ 4 + k.rail * 2 ^ 3 + flag k.retried 2 + flag k.sc 1 + flag k.combined 0,
   k.srcInc * 2 ^ 16 + k.proto * 2 ^ 12 + k.len * 2 ^ 8 + k.tkind * 2 ^ 6 + k.lineOff, k.seq,
   k.dstCell * 2 ^ 22 + k.srcCell * 2 ^ 12 + k.ncons * 2 ^ 8 + k.hops, k.srcPart * 2 ^ 27, k.msgId, 0, 0]

/-- Every word of a packet, in whole slots (R237). -/
def Packet.words (k : Packet) : List Nat := (k.header ++ k.body ++ List.replicate (8 * k.len) 0).take (8 * k.len)

/-- The slots of a packet. -/
def Packet.slots (k : Packet) : List (List Nat) := (List.range k.len).map (fun i => (k.words.drop (8 * i)).take 8)

/-- A packet from its words: the transport header, then the message (R236). -/
def Packet.ofWords (ws : List Nat) : Packet :=
  let w := wordAt ws
  { dst := nfld (w 0) 31 20, src := nfld (w 0) 19 8, tc := nfld (w 0) 7 5, vc := nfld (w 0) 4 4, rail := nfld (w 0) 3 3,
    retried := decide (nfld (w 0) 2 2 = 1), sc := decide (nfld (w 0) 1 1 = 1), combined := decide (nfld (w 0) 0 0 = 1),
    srcInc := nfld (w 1) 31 16, proto := nfld (w 1) 15 12, len := nfld (w 1) 11 8, tkind := nfld (w 1) 7 6,
    lineOff := nfld (w 1) 5 0, seq := w 2, dstCell := nfld (w 3) 31 22, srcCell := nfld (w 3) 21 12, ncons := nfld (w 3) 11 8,
    hops := nfld (w 3) 7 0, srcPart := nfld (w 4) 31 27, msgId := w 5, body := ws.drop 8 }

/-- Message type of a coherence packet (R214). -/
def Packet.typ (k : Packet) : Nat := nfld (wordAt k.body 0) 7 0
/-- Its fill bit. -/
def Packet.fill (k : Packet) : Bool := decide (nfld (wordAt k.body 0) 8 8 = 1)
/-- Its poison bit. -/
def Packet.poison (k : Packet) : Bool := decide (nfld (wordAt k.body 0) 9 9 = 1)
/-- Its had_copy bit. -/
def Packet.hadCopy (k : Packet) : Bool := decide (nfld (wordAt k.body 0) 11 11 = 1)
/-- Its composition. -/
def Packet.comp (k : Packet) : Nat := nfld (wordAt k.body 0) 31 16
/-- Its composition epoch. -/
def Packet.epoch (k : Packet) : Nat := wordAt k.body 1
/-- The 52-bit fabric address it carries. -/
def Packet.addr (k : Packet) : Nat := nfld (wordAt k.body 2) 31 6 * 64 + nfld (wordAt k.body 3) 19 0 * 2 ^ 32
/-- The line, within the home node, that it names. -/
def Packet.line (k : Packet) : Nat := k.addr % 2 ^ 40 / 64
/-- Its invalidation round. -/
def Packet.invId (k : Packet) : Nat := nfld (wordAt k.body 4) 31 16
/-- Its request tag. -/
def Packet.reqTag (k : Packet) : Nat := nfld (wordAt k.body 4) 13 0
/-- Its atomic operation code. -/
def Packet.atomOp (k : Packet) : Nat := nfld (wordAt k.body 5) 23 16
/-- Its response status. -/
def Packet.status (k : Packet) : Nat := nfld (wordAt k.body 5) 15 8
/-- Its byte-enable mask (WRP). -/
def Packet.mask (k : Packet) : Nat := pairAt k.body 6

/-- The little-endian number that n words spell. -/
def wordsNum (ws : List Nat) (start : Nat) : Nat → Nat
  | 0 => 0
  | n + 1 => wordAt ws start + 2 ^ 32 * wordsNum ws (start + 1) n

/-- The n words of a number. -/
def numWords (v : Nat) : Nat → List Nat
  | 0 => []
  | n + 1 => v % 2 ^ 32 :: numWords (v / 2 ^ 32) n

/-- The 64 bytes of payload after a coherence header. -/
def Packet.data (k : Packet) : Nat := wordsNum k.body 8 16

/-- A coherence header (R214). -/
def cohHeader (typ comp epoch addr : Nat) (fill poison bcast had : Bool) (invId tag op status mask : Nat) : List Nat :=
  [comp * 2 ^ 16 + flag had 11 + flag bcast 10 + flag poison 9 + flag fill 8 + typ, epoch, addr % 2 ^ 32 / 64 * 64, addr / 2 ^ 32 % 2 ^ 20,
   invId % 2 ^ 16 * 2 ^ 16 + tag % 2 ^ 14, op * 2 ^ 16 + status * 2 ^ 8, mask % 2 ^ 32, mask / 2 ^ 32]

/-! ### Ports and routes -/

/-- A port. -/
def State.port (s : State) (l : Nat) : Port := Tbl.get (fun _ => Port.idle) s.fab.ports l

/-- Change the fabric side. -/
def State.modFab (s : State) (f : Fabric → Fabric) : State := { s with fab := f s.fab }

/-- Change a port. -/
def State.modPort (s : State) (l : Nat) (f : Port → Port) : State :=
  s.modFab (fun x => { x with ports := Tbl.modify (fun _ => Port.idle) x.ports l f })

/-- State of port l (R253): 0 OFF, 1 TRAINING, 2 UP, 3 DRAINING, 4 DOWN. -/
def State.link (s : State) (l : Nat) : Nat := s.regF (Reg.LNK_STATUS l) 31 29

/-- A port that takes packets (R253). -/
def State.portOpen (s : State) (l : Nat) : Bool := decide (s.link l = 2) || decide (s.link l = 3)

/-- Is the port in gateway mode (R256)? -/
def State.isGateway (s : State) (l : Nat) : Bool := decide (s.regF (Reg.LNK_STATUS l) 28 28 = 1)

/-- The coordinate of a node in a dimension: x 0, y 1, z 2 (R223). -/
def coordOf (node dim : Nat) : Nat := node / 16 ^ dim % 16

/-- The cell's size in a dimension (SW_CELL). -/
def State.cellSize (s : State) (dim : Nat) : Nat := max 1 (s.regF Reg.SW_CELL (9 + 5 * dim) (5 + 5 * dim))

/-- Does the number name a node of the cell (R223)? -/
def State.nodeExists (s : State) (n : Nat) : Bool :=
  decide (n < 4096) && (List.range 3).all (fun d => decide (coordOf n d < s.cellSize d))

/-- The cut of this node's ring in a dimension on a rail; 31 none (SW_CUT). -/
def State.cutOf (s : State) (rail dim : Nat) : Nat := s.regF Reg.SW_CUT (4 + 5 * dim + 16 * rail) (5 * dim + 16 * rail)

/-- The direction at a hop in one dimension: true for minus (R225). -/
def hopMinus (cur dst size cut : Nat) : Bool :=
  let d := (dst + size - cur) % size
  if cut = 31 then !decide (2 * d ≤ size) else decide ((cut + size - cur) % size < d)

/-- Dimensions in the order a rail routes them (R225). -/
def dimOrder (rail : Nat) : List Nat := if rail = 0 then [0, 1, 2] else [2, 1, 0]

/-- The output port of a packet for a node on a rail; none when it has arrived (R11, R225). -/
def State.nextPort (s : State) (rail dst : Nat) : Option Nat :=
  match (dimOrder rail).find? (fun d => decide (coordOf s.node d ≠ coordOf dst d)) with
  | none => none
  | some d =>
    some (6 * rail + 2 * d +
      (if hopMinus (coordOf s.node d) (coordOf dst d) (s.cellSize d) (s.cutOf rail d) then 1 else 0))

/-- The virtual channel on the next link (R228): 0 at the start of a dimension, which a packet from a gateway port begins too, 1 on the dateline and
after it. -/
def State.nextVc (s : State) (k : Packet) (inPort out : Nat) : Nat :=
  let d := out % 6 / 2
  let cur := coordOf s.node d
  let dateline := if out % 2 = 0 then decide (cur = s.cellSize d - 1) else decide (cur = 0)
  if dateline then 1 else if inPort < 12 ∧ inPort / 2 = out / 2 ∧ !s.isGateway inPort then k.vc else 0

/-- The gateway node for a message to another cell (R256); none when SW_GW names none. -/
def State.gatewayFor (s : State) (cell node : Nat) : Option Nat :=
  let valid := (List.range 16).filter (fun i => bitOf (s.reg (Reg.SW_GW i)) 31)
  if valid.isEmpty then none
  else (valid[(cell ^^^ node) % valid.length]?).map (fun i => s.regF (Reg.SW_GW i) 11 0)

/-! ### Output queues (R240 to R243) -/

/-- Slots of 32 bytes in one KiB. -/
def slotsPerKib : Nat := 32

/-- The shared pool S of a link tile in KiB (R240). -/
def State.sharedPool (s : State) (t : Nat) : Nat :=
  let w := s.reg (Reg.SW_POOL_RSV t)
  6656 - 3 * 16 * ((List.range 8).map (fun c => fld w (4 * c + 3) (4 * c))).sum

/-- The sum of the lengths of some queue entries, in slots. -/
def slotsOf (q : List QEntry) : Nat := (q.map (fun e => e.pkt.len)).sum

/-- Shared space used on a link tile, in slots. -/
def State.sharedUsedTile (s : State) (t : Nat) : Nat :=
  ((List.range 3).map (fun i => slotsOf ((s.port (3 * t + i)).queue.filter (fun e => decide (e.place = .shared))))).sum

/-- An account's guaranteed minimum for a class on a port, in slots (R240, R29). -/
def State.minimum (s : State) (tc acct : Nat) : Nat :=
  if acct = 32 then 32 * slotsPerKib else s.regF (Reg.PART_RSV_SWMIN acct) (4 * tc + 3) (4 * tc) * 16 * slotsPerKib

/-- Is the entry in the sub-queue of this class, channel and account? -/
def QEntry.inSub (e : QEntry) (tc vc acct : Nat) : Bool :=
  decide (e.pkt.tc = tc) && decide (e.pkt.vc = vc) && decide (e.acct = acct)

/-- The spilled part of a sub-queue. -/
def Port.spilled (q : Port) (tc vc acct : Nat) : List QEntry :=
  q.queue.filter (fun e => e.inSub tc vc acct && decide (e.place = .spill))

/-- The segments of 4 KiB that spilled packets stand in, each once; no packet crosses a segment boundary (R243). -/
def segmentsOf (q : List QEntry) : List Nat := (q.map (fun e => e.spillAt / 4096)).eraseDups

/-- The segments in use on the node. -/
def State.segmentsUsed (s : State) : List Nat :=
  (List.range 12).flatMap (fun l => segmentsOf ((s.port l).queue.filter (fun e => decide (e.place = .spill))))

/-- Spill segments in use on the node (SW_SPILL_USED). -/
def State.spillUsed (s : State) : Nat := s.segmentsUsed.length

/-- The limit of a sub-queue's spill, in segments (R261). -/
def State.spillCap (s : State) (l : Nat) : Nat := max 1 (s.regN (Reg.SW_SPILL_CAP (l / 3)))

/-- The lowest number from t on that is not in a list, found within n trials. -/
def firstUnused (used : List Nat) (t : Nat) : Nat → Nat
  | 0 => t
  | n + 1 => if used.contains t then firstUnused used (t + 1) n else t

/-- Where a sub-queue's next spilled packet of n slots goes in the spill region (R243): behind its last one where the segment has room, else into a
segment of its own, the lowest that is free (log entry 63); none when the region is full. -/
def State.spillPlace (s : State) (sub : List QEntry) (n : Nat) : Option Nat :=
  let fresh : Option Nat :=
    if s.spillUsed < 2097152 then some (4096 * firstUnused s.segmentsUsed 0 s.spillUsed) else none
  match sub.getLast? with
  | none => fresh
  | some e =>
    let end_ := e.spillAt + 32 * e.pkt.len
    if end_ % 4096 ≠ 0 ∧ end_ % 4096 + 32 * n ≤ 4096 then some end_ else fresh

/-- The threshold test of R242: Q < 2^(alpha - 6) × (S - U). -/
def State.belowThreshold (s : State) (l tc vc : Nat) : Bool :=
  let t := l / 3
  let q := slotsOf ((s.port l).queue.filter (fun e => decide (e.pkt.tc = tc) && decide (e.pkt.vc = vc) && decide (e.place = .shared)))
  let alpha := min 9 (s.regF (Reg.SW_CLASS t tc) 3 0)
  decide (q * 64 < 2 ^ alpha * (s.sharedPool t * slotsPerKib - s.sharedUsedTile t))

/-- Where a packet that enters an output queue goes, by the first rule of R241 that applies. -/
def State.placeFor (s : State) (l : Nat) (k : Packet) (acct : Nat) : Place :=
  let q := s.port l
  let sub := q.spilled k.tc k.vc acct
  let kept := slotsOf (q.queue.filter (fun e => decide (e.pkt.tc = k.tc) && decide (e.acct = acct) && decide (e.place = .reserved)))
  if sub.isEmpty && decide (kept + k.len ≤ s.minimum k.tc acct) then .reserved
  else if sub.isEmpty && s.belowThreshold l k.tc k.vc then .shared
  else if (segmentsOf sub).length < s.spillCap l ∧ (s.spillPlace sub k.len).isSome then .spill
  else .staged

/-- Atomic operations that combine: ADD, MIN, MAX, FADD (R245). -/
def combinableOp (op : Nat) : Bool := (decide (1 ≤ op) && decide (op ≤ 0x0A)) || decide (op = 0x0D)

/-- Slots of a request of R215 with its payload: the transport header, the coherence header, the data. -/
def requestLen (typ : Nat) : Nat := if typ = 0x01 then 2 else if typ = 0x04 then 3 else 4

/-- A redirected or relayed request (R156) carries one slot more than its message: its first source and sequence (log entry 9). -/
def Packet.redirected (k : Packet) : Bool :=
  decide (k.proto = 1) && decide (k.tkind = 0) && !k.combined && decide (1 ≤ k.typ) && decide (k.typ ≤ 4) && decide (k.len = requestLen k.typ + 1)

/-- May a packet take part in combining at all: an RD, or an ATOM of such an operation (R245)? -/
def Packet.combinable (k : Packet) : Bool :=
  decide (k.proto = 1) && decide (k.tkind = 0) && !k.redirected &&
    ((decide (k.tc = 2) && decide (k.typ = 0x01)) || (decide (k.tc = 3) && decide (k.typ = 0x04) && combinableOp k.atomOp))

/-- Number of constituents of a packet. -/
def Packet.count (k : Packet) : Nat := if k.combined then k.ncons else 1

/-- The constituent slots of a packet (R246), each eight words. -/
def Packet.constituents (k : Packet) : List (List Nat) :=
  if k.combined then (List.range k.ncons).map (fun i => (k.body.drop (8 + 8 * i)).take 8)
  else [[k.src * 2 ^ 20 + k.reqTag * 2 ^ 6 + flag k.fill 5 + k.srcPart, k.seq, k.srcInc * 2 ^ 16, 0,
         (if k.typ = 0x04 then wordAt k.body 8 else 0), (if k.typ = 0x04 then wordAt k.body 9 else 0), 0, 0]]

/-- May B be combined into A (R245)? -/
def combines (a b : Packet) : Bool :=
  a.combinable && b.combinable && decide (a.typ = b.typ) && decide (a.atomOp = b.atomOp) && decide (a.dst = b.dst)
    && decide (a.addr = b.addr) && decide (a.lineOff = b.lineOff) && decide (a.fill = b.fill) && decide (a.comp = b.comp)
    && decide (a.epoch = b.epoch) && decide (a.count + b.count ≤ 8)

/-- A with B's constituents after its own (R245, R246). -/
def combinePackets (a b : Packet) : Packet :=
  let cs := a.constituents ++ b.constituents
  { a with combined := true, ncons := cs.length, len := 2 + cs.length, body := a.body.take 8 ++ cs.flatten }

/-- Is the entry on chip? -/
def QEntry.onChip (e : QEntry) : Bool := decide (e.place = .reserved) || decide (e.place = .shared)

/-- Combine the i-th entry of a port with the first packet ahead of it that it may join (R245): the queue then, and the packet that has left. -/
def combineAt (q : List QEntry) (i : Nat) : Option (List QEntry × Packet) :=
  match q[i]? with
  | none => none
  | some b =>
    let ahead := q.take i
    if !b.onChip || ahead.any (fun e => e.inSub b.pkt.tc b.pkt.vc b.acct && decide (e.inPort = b.inPort)) then none
    else match ahead.findIdx? (fun a => a.onChip && decide (a.pkt.tc = b.pkt.tc) && decide (a.pkt.vc = b.pkt.vc) && combines a.pkt b.pkt) with
      | none => none
      | some j => some ((q.eraseIdx i).mapIdx (fun k a => if k = j then { a with pkt := combinePackets a.pkt b.pkt } else a), b.pkt)

/-- Combine what can be combined on a port, at most n times: it happens wherever its conditions meet (R245). -/
def State.combineAll (s : State) (l : Nat) : Nat → State
  | 0 => s
  | n + 1 =>
    let q := (s.port l).queue
    match (List.range q.length).findSome? (combineAt q) with
    | none => s
    | some (q', k) =>
      let s := (s.modPort l (fun p => { p with queue := q' })).count (Reg.SW_COMBINED (l / 3)) 1
      (s.event (linkTile (l / 3)) ⟨0x44, l % 3, 1, some k.addr, some k.tc, ⟨3, none, none, some k.src⟩⟩).combineAll l n

/-- The credit number of a class and virtual channel (R231). -/
def vcNum (tc vc : Nat) : Nat := 2 * tc + vc

/-- The pool a received packet's credit came from (R234): its channel's, or 16, the shared one. -/
def Packet.pool (k : Packet) : Nat := if k.sc then 16 else vcNum k.tc k.vc

/-- A packet of n slots has left the ingress staging of a port: its credit goes back to the pool it came from (R234). -/
def State.giveCredit (s : State) (inPort pool n : Nat) : State :=
  if inPort < 12 then s.modPort inPort (fun q => { q with returns := Tbl.modify (fun _ => 0) q.returns pool (· + n) }) else s

/-- The same for an entry that leaves its queue from staging. -/
def State.leaveStaging (s : State) (e : QEntry) : State := if e.place = .staged then s.giveCredit e.inPort e.pool e.pkt.len else s

/-- A read or write of the lines that n slots at an offset of the spill region take: ordinary accesses to T1 that wake their stack (R20, R243). -/
def State.spillLines (s : State) (at_ n : Nat) (f : State → Nat → State) : State :=
  ((List.range ((at_ + 32 * n - 1) / 64 + 1 - at_ / 64)).map (· + at_ / 64)).foldl f s

/-- A packet is written to spill. -/
def State.spillWrite (s : State) (at_ : Nat) (k : Packet) : State :=
  let v := wordsNum k.words 0 (8 * k.len)
  s.spillLines at_ k.len fun s line =>
    let lo := max at_ (64 * line)
    let hi := min (at_ + 32 * k.len) (64 * line + 64)
    let mask := (2 ^ (hi - lo) - 1) * 2 ^ (lo - 64 * line)
    (s.t1Line (64 * line) 4 true .device).t1Put line mask (v / 2 ^ (8 * (lo - at_)) % 2 ^ (8 * (hi - lo)) * 2 ^ (8 * (lo - 64 * line))) false

/-- A packet of n slots is read back from spill: what stands there, and whether a line of it is poisoned (R352). -/
def State.spillRead (s : State) (at_ n : Nat) : State × Packet × Bool :=
  let s := s.spillLines at_ n fun s line => (s.t1Line (64 * line) 4 false .device).t1Find (64 * line) (ueWho 0 s.node)
  let bad := s.t1Poison at_ || s.t1Poison (at_ + 32 * n - 1) || ((List.range n).any (fun i => s.t1Poison (at_ + 32 * i)))
  (s, Packet.ofWords (numWords (s.t1Read at_ (32 * n)) (8 * n)), bad)

/-- An entry goes to spill, at an offset of the region: counted, shown where its sub-queue reaches its limit, and written (R241, R243, R261). -/
def State.toSpill (s : State) (l at_ : Nat) (k : Packet) (acct : Nat) : State :=
  let s := ((s.count (Reg.SW_SPILLED (l / 3)) 1).event (linkTile (l / 3)) ⟨0x43, l % 3, 1, none, some k.tc, .device⟩).spillWrite at_ k
  if s.spillCap l ≤ (segmentsOf ((s.port l).spilled k.tc k.vc acct)).length then s.cause (Reg.SW_IRQ_CAUSE (l / 3)) 1 else s

/-- Put a packet at the tail of its sub-queue on port l (R241), combining it where it may be. One that must wait in staging keeps its credit there, and
shows what it waits for (R261). -/
def State.enqueue (s : State) (l : Nat) (k : Packet) (inPort acct : Nat) : State :=
  let t := l / 3
  let pool := k.pool
  let k := { k with vc := s.nextVc k inPort l }
  let sub := (s.port l).spilled k.tc k.vc acct
  let e : QEntry := { pkt := k, inPort := inPort, acct := acct, place := s.placeFor l k acct, since := s.lcc, holdOver := false, pool := pool,
                      spillAt := (s.spillPlace sub k.len).getD 0 }
  let s1 := s.modPort l (fun q => { q with queue := q.queue ++ [e] })
  match e.place with
  | .spill => (s1.toSpill l e.spillAt k acct).giveCredit inPort pool k.len
  | .staged =>
    let s1 := if (s.spillPlace sub k.len).isNone then s1.cause (Reg.SW_IRQ_CAUSE t) 2 else s1
    if s.spillCap l ≤ (segmentsOf sub).length then s1.cause (Reg.SW_IRQ_CAUSE t) 1 else s1
  | _ => (s1.giveCredit inPort pool k.len).combineAll l (s1.port l).queue.length

/-! ### PATH_LOST (R254) -/

/-- The nodes that wait on a packet, with the transport header each would know: its source for a request, each source for a
combined one, the destination of a response; none for a PATH_LOST. -/
def Packet.waiters (k : Packet) : List (Nat × Packet) :=
  if k.tkind = 0 then
    if k.combined then k.constituents.map (fun c =>
      (nfld (wordAt c 0) 31 20, { k with src := nfld (wordAt c 0) 31 20, seq := wordAt c 1, srcInc := nfld (wordAt c 2) 31 16,
                                         combined := false, ncons := 0 }))
    else [(k.src, k)]
  else if k.tkind = 1 then [(k.dst, k)]
  else []

/-- The PATH_LOST packet for a lost packet and the node that waits on it, on a rail (R237, R254). -/
def State.pathLostPacket (s : State) (rail w : Nat) (k : Packet) : Packet :=
  { dst := w, src := s.node, tc := 0, vc := 0, rail := rail, retried := false, sc := false, combined := false,
    srcInc := s.incarnation, proto := k.proto, len := 3, tkind := 2, lineOff := 0, seq := k.seq,
    dstCell := (if k.tkind = 0 then k.srcCell else k.dstCell), srcCell := s.cell, ncons := 0, hops := 0, srcPart := 0, msgId := k.msgId,
    body := k.header ++ k.body.take 8 }

/-- Hand a packet to this node's own units. -/
def State.deliver (s : State) (k : Packet) : State := s.modFab (fun x => { x with arrived := x.arrived ++ [k] })

/-- Discard a packet, counted on a slice (R237, R253, R256). -/
def State.discard (s : State) (t : Nat) : State := (s.count (Reg.SW_DISCARD t) 1).cause (Reg.SW_IRQ_CAUSE t) 8

/-- The gateway port of this node, if one is up (R256). -/
def State.gatewayPort (s : State) : Option Nat := (List.range 12).find? (fun l => s.isGateway l && s.portOpen l)

/-- Where a packet goes from here: none for this node's own units, else the port. A packet for another cell goes to the gateway
node, and from it out of its gateway port (R256). -/
def State.outPort (s : State) (k : Packet) : Option (Option Nat) :=
  if k.dstCell ≠ s.cell then
    match s.gatewayFor k.dstCell k.dst with
    | none => some none
    | some g => if g = s.node then some s.gatewayPort else some (s.nextPort k.rail g)
  else if k.dst = s.node then none
  else some (s.nextPort k.rail k.dst)

/-- Send one PATH_LOST for a packet that cannot go on: delivered inside when this node waits; one that is itself lost is
discarded (R254). `t` is the slice that counts it; it goes on the rail other than the failed port's. -/
def State.losePacket (s : State) (t rail : Nat) (k : Packet) : State :=
  k.waiters.foldl (fun s w =>
    let pl := s.pathLostPacket rail w.1 w.2
    let s := s.count (Reg.SW_PATH_LOST t) 1
    if w.1 = s.node ∧ pl.dstCell = s.cell then s.deliver pl
    else match s.outPort pl with
      | some (some l) => if s.portOpen l then s.enqueue l pl 12 32 else s
      | _ => s) s

/-- The rail other than a port's. -/
def otherRail (l : Nat) : Nat := if l < 6 then 1 else 0

/-- Route a packet: to this node's units, to an output queue, or, where its port is not open, into a PATH_LOST (R254). A packet from a port leaves its
staging with it, unless its queue has no room for it (R234). -/
def State.route (s : State) (k : Packet) (inPort acct : Nat) : State :=
  match s.outPort k with
  | none => (s.giveCredit inPort k.pool k.len).deliver k
  | some none => (s.giveCredit inPort k.pool k.len).losePacket 0 (1 - k.rail) k
  | some (some l) =>
    if s.portOpen l then s.enqueue l k inPort acct else (s.giveCredit inPort k.pool k.len).losePacket (l / 3) (otherRail l) k

/-- Flush a port (R254): its queues, their spill and its replay buffer empty, a PATH_LOST for each packet, one in transmission included. -/
def State.flush (s : State) (l : Nat) : State :=
  let q := s.port l
  let ks := q.flying.map (·.2) ++ (match q.current with | some x => [x.1] | none => []) ++ q.queue.map (·.pkt)
  let s := q.queue.foldl State.leaveStaging s
  let s := s.modPort l (fun q => { q with queue := [], replay := [], flying := [], current := none, partialWords := [], group := [], sent := [] })
  ks.foldl (fun s k => s.losePacket (l / 3) (otherRail l) k) s

/-- A packet in a switch buffer has an uncorrectable word (R352, R365): reported, discarded, and lost as by a flush of the port it stands at. -/
def State.bufferError (s : State) (l : Nat) (k : Packet) : State :=
  (s.report 3 0x0013 12 (l / 3) none 0 [l, k.tc, k.src]).losePacket (l / 3) (otherRail l) k

/-- The packet flow's own packets of R227's response classes: send a response on the rail of its request (R226). -/
def State.respond (s : State) (req : Packet) (tc proto len : Nat) (body : List Nat) : State :=
  s.route { dst := req.src, src := s.node, tc := tc, vc := 0, rail := req.rail, retried := req.retried, sc := false, combined := false,
            srcInc := s.incarnation, proto := proto, len := len, tkind := 1, lineOff := req.lineOff, seq := req.seq,
            dstCell := req.srcCell, srcCell := s.cell, ncons := 0, hops := 0, srcPart := 0, msgId := req.msgId, body := body } 12 32

/-! ### Remote-line caches (R201 to R204) -/

/-- Where a remote line stands: its hub and line number. -/
def rlcKey (addr : Nat) : Nat := (addr % 2 ^ 40 / 4096 % 2) * 2 ^ 46 + addr / 64

/-- The hub that caches a remote line (R201). -/
def rlcHub (addr : Nat) : Nat := addr % 2 ^ 40 / 4096 % 2

/-- Change the home agents. -/
def State.modHomes (s : State) (f : Homes → Homes) : State := { s with homes := f s.homes }

/-- The remote-line cache's copy of a line, by fabric address. -/
def State.remoteLine (s : State) (addr : Nat) : Option RemoteLine := Tbl.get (fun _ => none) s.homes.rlc (rlcKey addr)

/-- Change or drop a copy. -/
def State.setRemoteLine (s : State) (addr : Nat) (v : Option RemoteLine) : State :=
  (s.wakeNow (258 + rlcHub addr)).modHomes (fun h => { h with rlc := Tbl.set (fun _ => none) h.rlc (rlcKey addr) v })

/-- Before it sends a store or atomic of a remote line, a node drops its own copy of it (R203). -/
def State.dropOwnCopy (s : State) (r : FabReq) : State :=
  if decide (r.proto = 1) && [2, 3, 4].contains (wordAt r.body 0 % 256) && (s.remoteLine r.addr).isSome then s.setRemoteLine r.addr none else s

/-! ### Requests (R226, R249) -/

/-- The key of a target and class in the send table. -/
def sendKey (dst tc : Nat) : Nat := dst * 8 + tc

/-- Is the number of set bits of a 12-bit value odd? -/
def oddBits (v : Nat) : Bool := decide (((List.range 12).map (fun i => v / 2 ^ i % 2)).sum % 2 = 1)

/-- The rail a request would take by its address (R226): 0 A, 1 B. -/
def State.railHash (s : State) (dst addr : Nat) : Nat :=
  if oddBits (dst ^^^ s.node ^^^ nfld addr 23 12 ^^^ nfld addr 35 24) then 0 else 1

/-- May a rail take an injected request for a node: SW_INJECT allows it and its first-hop port is UP (R226, R253)? -/
def State.railOpen (s : State) (rail dst : Nat) : Bool :=
  bitOf (s.reg Reg.SW_INJECT) rail &&
    (match s.nextPort rail dst with
     | some l => decide (s.link l = 2)
     | none => false)

/-- The rail chosen for a request to a node; none when neither can take it (R226). `hop` is the node its packets leave for: the gateway node of a request
to another cell. -/
def State.chooseRail (s : State) (dst hop addr : Nat) : Option Nat :=
  let r := s.railHash dst addr
  if s.railOpen r hop then some r else if s.railOpen (1 - r) hop then some (1 - r) else none

/-- Outstanding request by target, class and sequence. -/
def State.outstanding (s : State) (dst tc seq : Nat) : Option OutReq :=
  s.fab.reqs.find? (fun r => decide (r.pkt.dst = dst) && decide (r.pkt.tc = tc) && decide (r.pkt.seq = seq))

/-- The node toward which packets for a cell and node leave; none for what names no node of the cell (R224). -/
def State.towards (s : State) (r : FabReq) : Option Nat :=
  let here := if s.nodeExists r.dst then some r.dst else none
  match r.dstCell with
  | none => here
  | some c => if c = s.cell then here else s.gatewayFor c r.dst

/-- A write or atomic of a unit has taken its number. -/
def State.numbered (s : State) : State := { s with homes := { s.homes with nextWrite := s.homes.nextWrite + 1 } }

/-- The packet of a request with its sequence and rail. -/
def State.requestPacket (s : State) (r : FabReq) (rail seq : Nat) : Packet :=
  { dst := r.dst, src := s.node, tc := r.tc, vc := 0, rail := rail, retried := false, sc := false, combined := false,
    srcInc := s.incarnation, proto := r.proto, len := r.len, tkind := 0, lineOff := r.lineOff, seq := seq,
    dstCell := r.dstCell.getD s.cell, srcCell := s.cell, ncons := 0, hops := 0, srcPart := r.part.getD 0, msgId := r.msgId,
    body := r.body }

/-- The requests for lines of this node that are not complete: queued at a home, what a transient line waits for, held on a chute (R40), waiting
for a mirror (R155, R156) or for a record to be forwarded (R284). -/
def State.localOpen (s : State) : List HomeReq :=
  s.homes.queue
    ++ s.homes.dir.filterMap (fun e => match e.2 with
        | some d => match d.trans with
          | some t => match t.pend with
            | .req r => some r
            | _ => none
          | none => none
        | none => none)
    ++ s.parts.flatMap (fun e => e.2.rings.flatMap (fun f => f.2.held.map (·.req)))
    ++ s.mirrors.held ++ s.mirrors.acks.map (·.req) ++ s.forwards.map (·.req)

/-- Is a request made by a unit for partition p? -/
def HomeReq.byUnitOf (r : HomeReq) (p : Nat) : Bool := match r.src with | .unit q _ _ => decide (q = p) | _ => false

/-- Request tags partition p has in use (R26, R40, R51): its units' requests to other nodes, and those to homes of this node that are not
complete. -/
def State.tagsUsed (s : State) (p : Nat) : Nat :=
  (s.fab.reqs.filter (fun r => decide (r.part = some p))).length + (s.localOpen.filter (fun r => r.byUnitOf p)).length

/-- Has partition p a request tag left (R51)? -/
def State.tagFree (s : State) (p : Nat) : Bool := decide (s.tagsUsed p < s.regF (Reg.PART_RSV_TAGS p) 13 0)

/-- Must a request wait for its window or for a tag (R51, R249)? -/
def State.mustStall (s : State) (r : FabReq) : Bool × Bool :=
  let seq := Tbl.get (fun _ => 0) s.fab.nextSeq (sendKey r.dst r.tc)
  ((s.outstanding r.dst r.tc ((seq + 2 ^ 32 - 256) % 2 ^ 32)).isSome,
   match r.part with
   | some p => !s.tagFree p
   | none => false)

/-- The request tag a partition's request to another node carries (R214): the spec does not say how its number is chosen (log entry 57: the lowest that
no outstanding request has). -/
def State.nextTag (s : State) : Nat :=
  let used := (s.fab.reqs.filter (fun r => r.part.isSome && decide (r.pkt.proto = 1))).map (·.pkt.reqTag)
  firstUnused used 0 used.length

/-- Send a request that need not wait, on a rail: it takes the next sequence and, for a partition, a request tag, is outstanding, and enters the switch
core under its partition's account, or FWD (R214, R241, R249). -/
def State.sendNow (s : State) (r : FabReq) (rail : Nat) : State :=
  let s := s.dropOwnCopy r
  let key := sendKey r.dst r.tc
  let seq := Tbl.get (fun _ => 0) s.fab.nextSeq key
  let r := if r.proto = 1 ∧ r.part.isSome then { r with body := r.body.set 4 (wordAt r.body 4 / 2 ^ 14 * 2 ^ 14 + s.nextTag) } else r
  let k := s.requestPacket r rail seq
  let s := s.modFab (fun x =>
    { x with nextSeq := Tbl.set (fun _ => 0) x.nextSeq key ((seq + 1) % 2 ^ 32),
             reqs := x.reqs ++ [{ pkt := k, waiter := r.waiter, part := r.part, addr := r.addr, retried := false,
                                  sentAt := s.lcc, killed := false, wid := r.wid }] })
  s.route k 12 (if r.tc = 4 ∨ r.tc = 1 then 32 else r.part.getD 32)

/-- The rail of a request: rail A where it stays on this node or leaves by this node's own gateway port, else R226's choice. -/
def State.railFor (s : State) (r : FabReq) : Option Nat :=
  match s.towards r with
  | none => none
  | some hop => if hop = s.node then some 0 else s.chooseRail r.dst hop r.addr

/-- Send a request: none when neither rail can take it (R226); it waits when its window of 256 is full (R249) or its partition has
no tag left (R51). -/
def State.send (s : State) (r : FabReq) : Option State :=
  (s.railFor r).map (fun rail =>
    match s.mustStall r with
    | (true, _) => (s.modFab (fun x => { x with stalled := x.stalled ++ [r] })).count Reg.SW_SEQ_STALL 1
    | (false, true) => s.modFab (fun x => { x with stalled := x.stalled ++ [r] })
    | (false, false) => s.sendNow r rail)

/-- Send the requests that waited and need wait no longer, in order (R249). -/
def State.releaseStalled (s : State) : State :=
  s.fab.stalled.foldl (fun s r =>
    match s.mustStall r, s.railFor r with
    | (false, false), some rail => (s.sendNow r rail).modFab (fun x => { x with stalled := x.stalled.erase r })
    | _, _ => s) s

/-- Take an outstanding request off the table: it is complete (R249), and what waited for it is sent. -/
def State.complete (s : State) (r : OutReq) : State :=
  (s.modFab (fun x => { x with reqs := x.reqs.filter (fun q =>
    !(decide (q.pkt.dst = r.pkt.dst) && decide (q.pkt.tc = r.pkt.tc) && decide (q.pkt.seq = r.pkt.seq))) })).releaseStalled

/-- Leave something for a waiter to take. -/
def State.arrive (s : State) (a : Arrival) : State := s.modFab (fun x => { x with arrivals := x.arrivals ++ [a] })

/-- Take what has arrived for a waiter at an address. -/
def State.takeArrival (s : State) (w : Waiter) (addr : Nat) : Option (Arrival × State) :=
  match s.fab.arrivals.find? (fun a => decide (a.waiter = w) && decide (a.addr = addr)) with
  | none => none
  | some a => some (a, s.modFab (fun x => { x with arrivals := x.arrivals.erase a }))

/-- A request has ended TARGET_LOST: counted, shown and reported, at its partition where it has one (R255). -/
def State.targetLost (s : State) (part : Option Nat) (dst tc seq : Nat) : State :=
  let s := s.count Reg.SW_TARGET_LOST 1
  let s := match part with
    | some p => s.count (Reg.PART_FAB_TARGET_LOST p) 1
    | none => s
  (s.cause (Reg.SW_IRQ_CAUSE 0) 16).report 4 0x0031 15 (part.getD 0) part stTargetLost [dst, tc, seq]

/-- Freeze a partition whose request was lost, count and report it (R30, R255). -/
def State.freeze (s : State) (p dst tc seq : Nat) : State :=
  (if s.pstate p = .active then s.enter p .frozen else s).targetLost (some p) dst tc seq

/-- An uncorrectable word in a partition's command queue (1), completion buffer (2), fault FIFO (3) or command tracker (4) freezes the partition
(R355). -/
def State.uncontained (s : State) (p what : Nat) : State :=
  (if s.pstate p = .active then s.enter p .frozen else s).report 4 0x0043 15 p (some p) 0 [what]

/-- Tell whoever waits that a request ended TARGET_LOST: a command ends with that status; a core finds it at its next attempt
(R255). -/
def State.lostWaiter (s : State) (w : Waiter) (addr : Nat) : State :=
  match w with
  | .cmd p c q => s.failCmd p c q stTargetLost
  | .msg p c q => s.failCmd p c q stTargetLost
  | .core _ => s.arrive ⟨w, addr, 0, false, stTargetLost⟩
  | .fwd _ => s.arrive ⟨w, addr, 0, false, stTargetLost⟩
  | _ => s

end Sys2Proof.Machine
end

