-- ==== Sys2Proof/Machine/Arena.lean ====
section
/-! DEFINITION. Embedding-table descriptors and merge arenas as a home agent sees them (R264, R268, R274, R284): where records stand, and
which stores wait while a record is forwarded. -/

namespace Sys2Proof.Machine

/-- A table descriptor (R264). -/
structure Table where
  valid : Bool
  format : Nat
  column : Bool
  cache : Nat
  dim : Nat
  rowCount : Nat
  compId : Nat
  shards : Nat
  generation : Nat
  region : Nat
  homeSlots : Nat
  migrantSlots : Nat
  stateOff : Nat
  redirOff : Nat
  arenaLog2 : Nat
  redirLog2 : Nat
  arenaOff : Nat
  hotLog2 : Nat
  seed : Nat
  defaultVa : Nat
  shardVa : Nat
  hotListVa : Nat
  hotCount : Nat
  hotIndexVa : Nat
  hotDataVa : Nat
  deriving DecidableEq, Repr

/-- A descriptor from its 32 words. -/
def Table.ofWords (ws : List Nat) : Table :=
  let w := wordAt ws
  { valid := decide (nfld (w 0) 31 31 = 1), format := nfld (w 0) 27 26, column := decide (nfld (w 0) 25 25 = 1), cache := nfld (w 0) 23 22,
    dim := 16 * (nfld (w 0) 7 0 + 1), rowCount := w 1, compId := nfld (w 2) 31 16, shards := nfld (w 2) 11 0 + 1, generation := w 3,
    region := pairAt ws 4, homeSlots := w 6, migrantSlots := w 7, stateOff := pairAt ws 8, redirOff := pairAt ws 10,
    arenaLog2 := nfld (w 12) 20 16, redirLog2 := nfld (w 12) 4 0, arenaOff := pairAt ws 13, hotLog2 := nfld (w 15) 4 0,
    seed := pairAt ws 16, defaultVa := pairAt ws 18, shardVa := pairAt ws 20, hotListVa := pairAt ws 22, hotCount := w 24,
    hotIndexVa := pairAt ws 26, hotDataVa := pairAt ws 28 }

/-- Bytes of an arena record (R274). -/
def Table.recordBytes (t : Table) : Nat := 64 + 4 * t.dim

/-- Records of an arena. -/
def Table.arenaRecords (t : Table) : Nat := 2 ^ t.arenaLog2

/-- The arena of a parity. -/
def Table.arena (t : Table) (parity : Nat) : Nat := t.arenaOff + parity * (64 + t.arenaRecords * t.recordBytes)

/-- Record i of the arena of a parity. -/
def Table.record (t : Table) (parity i : Nat) : Nat := t.arena parity + 64 + i * t.recordBytes

/-- The bucket where a probe window of eight begins (R268, R280). -/
def bucket (row log2 : Nat) : Nat := row * 2654435761 % 2 ^ 32 / 2 ^ (32 - log2)

/-- The offsets of the entries of a row's probe window in the redirect table of a node (R268). -/
def Table.redirWindow (t : Table) (row : Nat) : List Nat :=
  (List.range 8).map (fun i => t.redirOff + 16 * ((bucket row t.redirLog2 + i) % 2 ^ t.redirLog2))

/-- The descriptor of table i of partition p as it stands in the directory. -/
def State.tableNow (s : State) (p i : Nat) : Table := Table.ofWords (s.t1Words (((s.part p).ring 67).range.base + 128 * i) 32)

/-- Is the header a committed record (R274)? -/
def recordCommitted (h : List Nat) : Bool :=
  decide (nfld (wordAt h 15) 31 24 = 0xE5) && decide (nfld (wordAt h 15) 23 0 = wordAt h 3 % 2 ^ 24)

/-- The node a record of a row goes on to: what this node's DEPARTED entry names, or the current home its REDIRECT entry names (R284). -/
def State.departedTo (s : State) (t : Table) (row : Nat) : Option Nat :=
  (t.redirWindow row).findSome? (fun a =>
    let e := s.t1Words a 4
    let kind := nfld (wordAt e 1) 31 30
    let dest := nfld (wordAt e 1) 23 12
    if wordAt e 0 = row ∧ (kind = 1 ∨ kind = 2) ∧ dest ≠ s.node then some dest else none)

/-- The committed record whose header line a store has just written and whose row has its home elsewhere: its partition, table, parity, record
and the node it goes to. -/
def State.arenaForward (s : State) (line : Nat) : Option (Nat × Nat × Nat × Nat × Nat) :=
  s.parts.findSome? (fun e =>
    if !(e.2.ring 67).ready || !(s.extents.any (fun x => decide (x.part = e.1) && x.range.has (64 * line))) then none
    else (List.range 256).findSome? (fun i =>
      let t := s.tableNow e.1 i
      if !t.valid || t.column then none
      else (List.range 2).findSome? (fun par =>
        let first := t.record par 0
        let n := (64 * line - first) / t.recordBytes
        if 64 * line < first ∨ t.arenaRecords ≤ n ∨ t.record par n ≠ 64 * line then none
        else
          let h := s.t1Words (64 * line) 16
          if recordCommitted h then (s.departedTo t (wordAt h 0)).map (fun dest => (e.1, i, par, n, dest)) else none)))

end Sys2Proof.Machine
end

