-- ==== Sys2Proof/Machine/Windows.lean ====
section
/-! DEFINITION. Exactly-once delivery (R249 to R251), the answers a node sends to a request, and the mirror's forwarded writes
(R155). -/

namespace Sys2Proof.Machine

/-- Where the entry of a source, class and sequence stands (R250). -/
def winKey (src cls seq : Nat) : Nat := (src * 8 + cls) * 256 + seq % 256

/-- An EMPTY entry. -/
def WinEntry.empty : WinEntry := ⟨0, 0, 0, 0, []⟩

/-- The window entry of a source, class and sequence. -/
def State.window (s : State) (src cls seq : Nat) : WinEntry := Tbl.get (fun _ => WinEntry.empty) s.fab.windows (winKey src cls seq)

/-- Set it. -/
def State.setWindow (s : State) (src cls seq : Nat) (e : WinEntry) : State :=
  s.modFab (fun x => { x with windows := Tbl.set (fun _ => WinEntry.empty) x.windows (winKey src cls seq) e })

/-- What R250 says of a windowed request on arrival. -/
inductive WinVerdict where
  | fresh | done | pending | stale
  deriving DecidableEq, Repr

/-- The row of R250's table that applies. -/
def State.windowVerdict (s : State) (src cls seq : Nat) : WinVerdict :=
  let e := s.window src cls seq
  if e.state = 0 then .fresh
  else if e.seq = seq then (if e.state = 2 then .done else .pending)
  else if serialLe e.seq seq then .fresh else .stale

/-- A new incarnation of a source empties its entries (R251). -/
def State.noteIncarnation (s : State) (src inc : Nat) : State :=
  match Tbl.get (fun _ => 0) s.fab.incs src with
  | 0 => s.modFab (fun x => { x with incs := Tbl.set (fun _ => 0) x.incs src (inc + 1) })
  | n + 1 =>
    if n = inc then s
    else (s.modFab (fun x => { x with incs := Tbl.set (fun _ => 0) x.incs src (inc + 1),
                                      windows := Tbl.keep (fun k => !decide (k / 2048 = src)) x.windows })).count Reg.SW_INC_CLEAR 1

/-- Answer a request (R214, R215, R344): its kind, status, result, data and poison; RD gets RDATA, a store WACK, an ATOM WACK with
the prior value, MWR MACK, a sync message SACK; a status STALE_EPOCH is answered NAK (R340). -/
def State.reply (s : State) (k : Packet) (status result data : Nat) (poison : Bool) : State :=
  if k.proto = 2 then
    s.respond k 0 2 2 ([wordAt k.body 0 / 2 ^ 16 * 2 ^ 16 + status % 256 * 2 ^ 8 + 0x10, wordAt k.body 1, wordAt k.body 2, wordAt k.body 3]
      ++ numWords result 4)
  else
    let h (typ : Nat) := cohHeader typ k.comp k.epoch k.addr false poison false false 0 k.reqTag k.atomOp status 0
    if status = stStaleEpoch then s.respond k 0 1 2 (h 0x12)
    else if k.typ = 0x01 then s.respond k 0 1 4 (h 0x10 ++ numWords data 16)
    else if k.typ = 0x04 then s.respond k 0 1 3 (h 0x11 ++ numWords result 4)
    else if k.typ = 0x05 then s.respond k 0 1 2 (h 0x13)
    else s.respond k 0 1 2 (h 0x11)

/-- Answer a duplicate from the record (R250). -/
def State.replyRecorded (s : State) (k : Packet) (e : WinEntry) : State := s.reply k e.status e.result 0 false

/-- The source and sequence a request has in the windows: its own, or those it was first sent with, in the slot after its message (log entry 9). -/
def Packet.orig (k : Packet) : Nat × Nat :=
  if k.redirected then (wordAt k.body (8 * (k.len - 2)), wordAt k.body (8 * (k.len - 2) + 1)) else (k.src, k.seq)

/-- A response to a host, discarded where the host has been lost since it asked (R217). -/
def State.answerHost (s : State) (r : HomeReq) (kind : String) (data : Option Nat) (poison : Bool) : State :=
  if r.mute then s else s.emit (.hostResp r.src kind data poison)

/-- At a mirror, the windows of its primary's requests stand apart from its own (R155; log entry 9). -/
def mirrorSource (primary src : Nat) : Nat := src + 4096 * (primary + 1)

/-- Open the window of a source, class and sequence for a request: a fresh one becomes PENDING and runs `f`; a duplicate is answered
from the record or waits; a stale one is discarded (R250, R251). -/
def State.windowed (s : State) (k : Packet) (src seq : Nat) (f : State → State) : State :=
  let s := if k.redirected then s else s.noteIncarnation k.src k.srcInc
  match s.windowVerdict src k.tc seq with
  | .fresh => f (s.setWindow src k.tc seq ⟨seq, 1, 0, 0, [k]⟩)
  | .done => (s.count Reg.SW_WIN_DUP 1).replyRecorded k (s.window src k.tc seq)
  | .pending =>
    let e := s.window src k.tc seq
    s.setWindow src k.tc seq { e with waiting := e.waiting ++ [k] }
  | .stale => s.count Reg.SW_WIN_STALE 1

/-- The original, from a source of incarnation `inc`, has completed: record its status and result, and answer it and the duplicates that waited (R250).
Where its entry has been emptied since, by a restart of its source, or taken by a newer request, nobody waits for it (R251). -/
def State.windowDone (s : State) (src cls seq status result inc : Nat) : State :=
  let e := s.window src cls seq
  if e.state = 1 ∧ e.seq = seq ∧ e.waiting.head?.map (·.srcInc) = some inc then
    e.waiting.foldl (fun s k => s.reply k status result 0 false) (s.setWindow src cls seq ⟨seq, 2, status, result, []⟩)
  else s

/-! ### Acknowledging a store -/

/-- Acknowledge a store or atomic to whoever made it (R40, R206, R249): a peer's through its window, with the prior value of an
atomic. -/
def State.ackNow (s : State) (r : HomeReq) (prior : Option Nat) : State :=
  match r.src with
  | .host _ _ => s.answerHost r "Cmp" none false
  | .fmHost _ _ => s.answerHost r "Cmp" none false
  | .peer n c q => s.windowDone n c q 0 (prior.getD 0) ((r.packet.map (·.srcInc)).getD 0)
  | .unit p ch q => s.modPart p (fun pt =>
      { pt with cmds := pt.cmds.map (fun c => if c.chute = ch ∧ c.seq = q then { c with unacked := c.unacked - 1 } else c) })
  | .device => s

/-- Acknowledge a store, unless it committed an arena record whose row has its home on another node: its writer waits until the record has been
forwarded there (R284). -/
def State.ackStore (s : State) (r : HomeReq) (prior : Option Nat) : State :=
  match (if r.atom.isNone then s.arenaForward r.line else none) with
  | none => s.ackNow r prior
  | some (p, t, par, n, dest) =>
    let f : Forward := { id := s.nextForward, req := r, part := p, table := t, parity := par, record := n, node := dest, stage := 0, index := 0 }
    { s with forwards := s.forwards ++ [f], nextForward := s.nextForward + 1 }

/-! ### Mirrors (R155) -/

/-- A mirror entry. -/
def State.mirror (s : State) (i : Nat) : Mirror := Tbl.get (fun _ => Mirror.unused) s.mirrors.entries i

/-- Change one. -/
def State.modMirror (s : State) (i : Nat) (f : Mirror → Mirror) : State :=
  { s with mirrors := { s.mirrors with entries := Tbl.modify (fun _ => Mirror.unused) s.mirrors.entries i f } }

/-- Move an entry to a state (R157): its record, and the cause the state has. Entry, new state and partner are the record's syndrome. -/
def State.mirrorTo (s : State) (i st cause : Nat) : State :=
  let s := (s.modMirror i (fun m => { m with state := st, copied := 0 })).cause (Reg.HUB_MEM_IRQ_CAUSE 0) cause
  s.report 2 0x0040 6 0 none 0 [i, st, (s.mirror i).partner]

/-- The extent of an entry on this node. -/
def Mirror.range (m : Mirror) : Range := ⟨m.base * 0x10000000, m.size * 0x10000000⟩

/-- Is the entry one that serves or stands for its extent here (R157)? -/
def Mirror.serving (m : Mirror) : Bool := decide (1 ≤ m.state) && decide (m.state ≤ 5)

/-- The serving entry that holds a fabric offset, if any. -/
def State.mirrorAt (s : State) (o : Nat) : Option (Nat × Mirror) :=
  s.mirrors.entries.find? (fun e => e.2.serving && e.2.range.has o)

/-- Is the offset in a mirror extent of this node (R155)? -/
def State.inMirror (s : State) (o : Nat) : Bool := s.mirrors.entries.any (fun e => decide (e.2.state = 6) && e.2.range.has o)

/-- May nothing but forwarded writes touch the offset: it lies in a mirror extent (R155), or its serving entry is FENCED (R157)? -/
def State.mirrorShut (s : State) (o : Nat) : Bool :=
  s.mirrors.entries.any (fun e => (decide (e.2.state = 5) || decide (e.2.state = 6)) && e.2.range.has o)

/-- Does the primary of the offset hold every access because it cannot reach its mirror (R156)? -/
def State.holdsAt (s : State) (o : Nat) : Bool :=
  match s.mirrorAt o with
  | some (_, m) => decide (m.state = 2)
  | none => false

/-- Must a write of this offset go to the mirror too: SYNCED, or REBUILDING past its copy read (R155, R158)? -/
def Mirror.forwards (m : Mirror) (o : Nat) : Bool :=
  decide (m.state = 1) || (decide (m.state = 4) && decide (o < m.range.base + m.copied))

/-- The fifth slot of a forwarded write (R237): the original source with its incarnation, the original sequence and class; for a
store that no peer made, this node and class 0. -/
def State.origSlot (s : State) (r : HomeReq) : List Nat :=
  match r.src with
  | .peer n c q => [(Tbl.get (fun _ => 0) s.fab.incs n - 1) % 65536 * 2 ^ 16 + n % 4096, q, c, 0, 0, 0, 0, 0]
  | _ => [s.incarnation * 2 ^ 16 + s.node, 0, 0, 0, 0, 0, 0, 0]

/-- The message of a forwarded write (R155, R214, R237): the line's address at the partner, its data and poison, and the slot that
names the original request. -/
def State.mwrRequest (s : State) (id : Nat) (m : Mirror) (r : HomeReq) : FabReq :=
  let o := 64 * r.line
  let addr := m.partner * 2 ^ 40 + m.pbase * 0x10000000 + (o - m.range.base)
  { tc := 4, dst := m.partner, dstCell := none, addr := addr, part := none, msgId := 0, proto := 1, len := 5, lineOff := 0,
    waiter := .mirror id,
    body := cohHeader 0x05 0xFFFF 0 addr false (s.t1Poison o) false false 0 0 0 0 0 ++ numWords (s.t1Read o 64) 16
      ++ s.origSlot r }

/-- A store has been applied at its home: it is acknowledged, or, on a line its primary forwards, goes to the mirror first; a mirror
that cannot be reached makes the entry hold, and a write applied while it holds is acknowledged once the mirror has it (R155 to R157). -/
def State.storeDone (s : State) (r : HomeReq) (prior : Option Nat) : State :=
  match s.mirrorAt (64 * r.line) with
  | none => s.ackStore r prior
  | some (i, m) =>
    let id := s.mirrors.nextId
    if m.state = 2 then { s with mirrors := { s.mirrors with nextId := id + 1, acks := s.mirrors.acks ++ [⟨id, i, r, prior⟩] } }
    else if !m.forwards (64 * r.line) then s.ackStore r prior
    else
      match s.send (s.mwrRequest id m r) with
      | some s => { s with mirrors := { s.mirrors with nextId := id + 1, acks := s.mirrors.acks ++ [⟨id, i, r, prior⟩] } }
      | none =>
        if m.state = 1 then
          let s := s.mirrorTo i 2 8
          { s with mirrors := { s.mirrors with nextId := id + 1, acks := s.mirrors.acks ++ [⟨id, i, r, prior⟩] } }
        else (s.mirrorTo i 3 0).ackStore r prior

end Sys2Proof.Machine
end

