-- ==== Sys2Proof/Machine/Chutes.lean ====
section
/-! DEFINITION. Chutes (R33 to R44): registration and its checks, arming, evaluation, commit and rewind, held stores, transfer
and disabling; and the same registration for the completion chute, the mailbox and the escalation table. -/

namespace Sys2Proof.Machine

/-- Which ring is which within a partition. -/
def cplRing : Nat := 64
/-- The mailbox ring. -/
def mboxRing : Nat := 65
/-- The escalation table and its arena. -/
def escRing : Nat := 66

/-- The table directory, kept as a ring that holds no packets (R263). -/
def dirRing : Nat := 67

/-- The index directory, kept likewise (R291). -/
def winRing : Nat := 68

/-- Does a live extent of partition p hold the range, wholly in this node's T1 pool (R33)? -/
def State.liveRange (s : State) (p : Nat) (r : Range) : Bool :=
  decide (0 < r.size) &&
  (List.range ((r.base + r.size - 1) / 0x10000000 + 1 - r.base / 0x10000000)).all (fun i =>
    let u := (r.base / 0x10000000 + i) * 0x10000000
    s.extents.any (fun e => decide (e.part = p) && (decide (e.state = .live) || decide (e.state = .offered))
      && e.range.has (max u r.base)))

/-- The control register of a ring. -/
def ringCtrl (p n : Nat) : Nat :=
  if n = cplRing then Reg.PART_CPL_CTRL p else if n = mboxRing then Reg.PART_MBOX_CTRL p
  else if n = escRing then Reg.PART_ESC_TBL_CTRL p else if n = dirRing then Reg.PART_ROW_DIR_CTRL p
  else if n = winRing then Reg.PART_WIN_DIR_CTRL p else Reg.PART_CHUTE_CTRL p n

/-- What an overlap is looked for in (R33, R55): the chutes, the completion chute, the mailbox and the escalation table and arena of partition p
whose enable is 1, ready or being zeroed. Directories do not count, nor a ring that is being disabled. -/
def State.enabledRings (s : State) (p : Nat) : List (Nat × Ring) :=
  (s.part p).rings.filter (fun e => decide (e.1 ≤ escRing) && (e.2.ready || e.2.zeroing) && bitOf (s.reg (ringCtrl p e.1)) 0)

/-- The ranges of a ring: where it lies, and where a registration that waits for its disable puts it (R33). -/
def Ring.ranges (r : Ring) : List Range :=
  [r.range, r.range2] ++ (match r.rereg with | some (a, b) => [a, b] | .none => [])

/-- Would these ranges overlap another ring of the partition (R33, condition 4)? -/
def State.overlapsRing (s : State) (p skip : Nat) (r r2 : Range) : Bool :=
  (s.enabledRings p).any (fun e => decide (e.1 ≠ skip) && e.2.ranges.any (fun x => x.meets r || x.meets r2))

/-- The first failing condition of a registration (R33): 3 index, 2 size or alignment, 1 outside the extents, 4 overlap; 0 none.
`indexOk` is true for a structure without an index; `lo` and `hi` bound size_log2. -/
def State.ringCheck (s : State) (p skip : Nat) (indexOk : Bool) (sizeLog2 lo hi : Nat) (r r2 : Range) : Nat :=
  if !indexOk then 3
  else if sizeLog2 < lo ∨ hi < sizeLog2 ∨ r.base % 4096 ≠ 0 ∨ r2.base % 4096 ≠ 0 then 2
  else if !s.liveRange p r || (decide (r2.size ≠ 0) && !s.liveRange p r2) then 1
  else if s.overlapsRing p skip r r2 then 4
  else 0

/-- Begin zeroing a ring that passed its checks (R33). -/
def State.beginRing (s : State) (p n : Nat) (r r2 : Range) : State :=
  s.modRing p n (fun _ => { Ring.none with zeroing := true, range := r, range2 := r2 })

/-- Register a ring at enable: report err and leave enable at 0, begin zeroing, or, while a disable is in progress with ready
still 1, remember base and size until it completes (R33). `ctrl` is the ring's control register. -/
def State.registerRing (s : State) (p n ctrl : Nat) (err : Nat) (r r2 : Range) : State :=
  let ring := (s.part p).ring n
  if ring.disabling then (s.setRegF ctrl 0 0 1).modRing p n (fun x => { x with rereg := some (r, r2) })
  else if err ≠ 0 then (s.setRegF ctrl 30 28 err).setRegF ctrl 0 0 0
  else ((s.setRegF ctrl 30 28 0).setRegF ctrl 0 0 1).beginRing p n r r2

/-- The base a ring's registers name. -/
def State.ringBase (s : State) (p n : Nat) : Nat :=
  if n = cplRing then s.reg64 (Reg.PART_CPL_BASE_LO p) else if n = mboxRing then s.reg64 (Reg.PART_MBOX_BASE_LO p)
  else if n = escRing then s.reg64 (Reg.PART_ESC_TBL_BASE_LO p) else if n = dirRing then s.reg64 (Reg.PART_ROW_DIR_BASE_LO p)
  else if n = winRing then s.reg64 (Reg.PART_WIN_DIR_BASE_LO p)
  else s.reg64 (Reg.PART_CHUTE_BASE_LO p n)

/-! ### Arming, evaluation, commit and rewind -/

/-- Lines of a ring. -/
def Ring.lines (r : Ring) : Nat := r.range.size / 64

/-- Is line idx of the ring held by a committed packet (R40)? Packets do not cross the ring's end. -/
def Ring.holds (r : Ring) (idx : Nat) : Bool := r.pkts.any (fun k => decide (k.pos ≤ idx) && decide (idx < k.pos + k.len))

/-- Rewind the packet at the next position (R36): zero word 0 of its header and, unless it lies past the ring's end, its
commit-tag word; count it, record the reason, set the rewind cause. -/
def State.rewind (s : State) (p n hdr : Nat) (tag : Option Nat) (reason : Nat) : State :=
  let s := s.t1Write hdr 4 0
  let s := match tag with
    | some a => s.t1Write a 4 0
    | none => s
  let s := s.count (Reg.PART_CHUTE_REWINDS p n) 1
  (s.setRegN (Reg.PART_CHUTE_LAST_REWIND p n) reason).pageCause p 8

/-- The lowest-numbered check of R36 that a packet fails; 0 when it passes them all. -/
def packetReason (ws : List Nat) (tag nextSeq : Nat) : Nat :=
  let len := nfld (wordAt ws 0) 21 16
  let seq := wordAt ws 1
  let kind := nfld (wordAt ws 0) 11 8
  if nfld tag 31 24 ≠ 0xC7 ∨ nfld tag 23 16 ≠ seq % 256 then 1
  else if nfld tag 15 10 ≠ len ∨ (kind = 0 ∧ len + 1 < minLines (nfld (wordAt ws 0) 7 0)) then 2
  else if seq ≠ nextSeq then 3
  else if 3 < kind then 4
  else 0

/-- Commit a packet (R36): the next sequence and position advance and its lines are held. A PAD has no other effect; RESUME and
ABORT wait to take effect; none of the three is a command (R46, R59). -/
def State.commitPacket (s : State) (p n pos len : Nat) (ws : List Nat) : State :=
  let kind := nfld (wordAt ws 0) 11 8
  let lines := ((s.part p).ring n).lines
  let s := s.setRegN (Reg.PART_CHUTE_NEXT_SEQ p n) ((s.regN (Reg.PART_CHUTE_NEXT_SEQ p n) + 1) % 2 ^ 32)
  let s := s.setRegN (Reg.PART_CHUTE_NEXT_POS p n) ((pos + len) % max 1 lines)
  let s := s.modRing p n (fun r => { r with pkts := r.pkts ++ [⟨pos, len, false, ws⟩] })
  if kind = 0 then s
  else s.modPart p (fun pt =>
    { pt with others := (n, wordAt ws 1) :: pt.others,
              control := if kind = 1 then pt.control
                else pt.control ++ [{ chute := n, seq := wordAt ws 1, kind := kind, tag := pairAt ws 4,
                                      irq := decide (nfld (wordAt ws 2) 0 0 = 1), args := (ws.drop 8).take 7 }] })

/-- Arm at the next position and evaluate what stands there, as often as packets commit one after another (R35, R36). `landed` says that a write
has landed on the armed word: then the packet is evaluated whatever the word holds; at arming it is if the word is nonzero. Nothing is armed while
the ring is disabling or the line at the next position is held. -/
def State.arm (s : State) (p n : Nat) (landed : Bool) : Nat → State
  | 0 => s
  | fuel + 1 =>
    let r := (s.part p).ring n
    let pos := s.regN (Reg.PART_CHUTE_NEXT_POS p n)
    if !r.ready || r.disabling || r.holds pos then s
    else
      let hdr := r.range.base + 64 * pos
      let len := nfld (s.t1Word hdr) 21 16 + 1
      if r.lines < pos + len then s.rewind p n hdr none 2
      else
        let tagAt := hdr + 64 * len - 4
        let tag := s.t1Word tagAt
        if tag = 0 ∧ !landed then s
        else
          let ws := s.t1Words hdr (16 * len)
          match packetReason ws tag (s.regN (Reg.PART_CHUTE_NEXT_SEQ p n)) with
          | 0 => (s.commitPacket p n pos len ws).arm p n false fuel
          | reason => s.rewind p n hdr (some tagAt) reason

/-- Arm with as many rounds as the ring has lines. -/
def State.rearm (s : State) (p n : Nat) : State := s.arm p n false (((s.part p).ring n).lines + 1)

/-- The chute whose ring holds a fabric offset, if one does: its partition and number. -/
def State.chuteAt (s : State) (a : Nat) : Option (Nat × Nat) :=
  s.parts.findSome? (fun e => e.2.rings.findSome? (fun f =>
    if decide (f.1 < 64) && f.2.ready && f.2.range.has a then some (e.1, f.1) else none))

/-- After a store landed on a line of a chute: the header line arms, and a write to the commit-tag word that is then armed evaluates the packet,
a write of zero too (R35; that a header line's write arms first, and only then counts as landing on the word it arms, is DEDUCED, log entry 36). -/
def State.afterStore (s : State) (p n line mask : Nat) : State :=
  let r := (s.part p).ring n
  let pos := s.regN (Reg.PART_CHUTE_NEXT_POS p n)
  let hdr := r.range.base + 64 * pos
  let armed := hdr + 64 * (nfld (s.t1Word hdr) 21 16)
  let landed := decide (64 * line = armed) && decide (mask / 2 ^ 60 % 16 ≠ 0)
  if 64 * line = hdr ∨ landed then s.arm p n landed (r.lines + 1) else s

/-- The value an atomic writes over the masked bytes of a line, and the prior value (R15, R238); none where nothing is written. -/
def State.atomicAt (s : State) (line : Nat) (a : Nat × Nat × Nat × Nat) : Nat × Option (Nat × Nat) :=
  let (code, x, cmp, off) := a
  match AtomOp.ofAny code with
  | none => (0, none)
  | some (op, w) =>
    let prior := s.t1Read (64 * line + off) (w / 8)
    (prior, (op.apply w prior x cmp).map (fun v => ((2 ^ (w / 8) - 1) * 2 ^ off, v * 2 ^ (8 * off))))

/-- Apply a store or atomic to its line, which all but a store of the whole line read first (R130), and let it arm or evaluate a chute's packet (R35); answers an atomic's prior value. -/
def State.applyStore (s : State) (r : HomeReq) : State × Option Nat :=
  let after (s : State) (mask : Nat) : State :=
    match s.chuteAt (64 * r.line) with
    | none => s
    | some (p, n) => s.afterStore p n r.line mask
  let s := if r.atom.isNone && decide (r.mask % 2 ^ 64 = fullMask) then s else s.t1Find (64 * r.line) (s.ueSource r.src)
  match r.atom with
  | none => (after (s.t1Put r.line r.mask r.data r.poison) r.mask, none)
  | some a =>
    match s.atomicAt r.line a with
    | (prior, none) => (s, some prior)
    | (prior, some (mask, v)) => (after (s.t1Put r.line mask v false) mask, some prior)

/-- A store lands at its home: it is held where a committed packet holds the line (R40), else applied; answers whether it was
applied, and an atomic's prior value. -/
def State.land (s : State) (r : HomeReq) : State × Option (Option Nat) :=
  let held := match s.chuteAt (64 * r.line) with
    | none => none
    | some (p, n) =>
      let g := (s.part p).ring n
      if g.holds ((64 * r.line - g.range.base) / 64) then some (p, n) else none
  match held with
  | some (p, n) => (s.modRing p n (fun g => { g with held := g.held ++ [⟨s.lcc, r⟩] }), none)
  | none => let (s, prior) := s.applyStore r; (s, some prior)

/-- How long a store was held, kept as the longest of its chute (R41, R44). -/
def State.noteHeld (s : State) (p n : Nat) (h : HeldStore) : State :=
  let a := Reg.PART_CHUTE_HELD_MAX p n
  s.setRegN a (max (s.regN a) (min (s.lcc - h.arrival) 0xFFFFFFFF))

/-- Apply and acknowledge held stores, in the order they came; one whose line is held again waits on (R40, R43). -/
def State.applyHeld (s : State) (p n : Nat) : List HeldStore → State
  | [] => s
  | h :: t =>
    let s := match s.land h.req with
      | (s, some prior) => (s.noteHeld p n h).storeDone h.req prior
      | (s, none) => s.modRing p n (fun r => { r with held := r.held.dropLast ++ [h] })
    s.applyHeld p n t

/-- Release lines of a ring: every store held on a line that no packet holds any more is applied and acknowledged. -/
def State.releaseHeld (s : State) (p n : Nat) : State :=
  let r := (s.part p).ring n
  let free (h : HeldStore) : Bool := !r.holds ((64 * h.req.line - r.range.base) / 64)
  (s.modRing p n (fun r => { r with held := r.held.filter (fun h => !free h) })).applyHeld p n (r.held.filter free)

/-- Stores held on a chute (PART_CHUTE_HELD, R41). -/
def State.heldCount (s : State) (p n : Nat) : Nat := min ((s.part p).ring n).held.length 0xFFFF

/-- PART_CHUTE_FREE: lines from the next position to the first held line, or the whole ring (R41, R44). -/
def State.freeLines (s : State) (p n : Nat) : Nat :=
  let r := (s.part p).ring n
  let pos := s.regN (Reg.PART_CHUTE_NEXT_POS p n)
  let dist (k : Pkt) : Nat := (k.pos + r.lines - pos) % max 1 r.lines
  if !r.ready then 0 else r.pkts.foldl (fun m k => min m (dist k)) r.lines

/-- Begin disabling a ring (R43). A ring with no committed packet and nothing held can finish at once in CHUTE_DISABLE_DONE. The release of an
extent sets chute_off where it disables an enabled chute, the completion chute included; one that software has disabled before is none. -/
def State.disableRing (s : State) (p n : Nat) (byRelease : Bool) : State :=
  let r := (s.part p).ring n
  let off := byRelease && decide (n ≤ cplRing) && bitOf (s.reg (ringCtrl p n)) 0
  let s := s.setRegF (ringCtrl p n) 0 0 0
  let s :=
    if r.zeroing then s.modRing p n (fun _ => Ring.none)
    else if r.ready then s.modRing p n (fun r => { r with disabling := true, rereg := none, byRelease := r.byRelease || byRelease })
    else s
  if off then s.pageCause p 128 else s

/-- A write of enable 0: the size is taken while enable is 0; clearing enable disables the ring (R33, R43). -/
def State.disableWrite (s : State) (p n : Nat) (v : Word) : State :=
  let ctrl := ringCtrl p n
  if bitOf (s.reg ctrl) 0 then s.disableRing p n false else s.store ctrl v

/-- A ring's disable is done: ready clears, and a registration that waited for it runs (R33, R43); `semBad` is the mailbox's own condition
(R260, code 5). -/
def State.finishDisable (s : State) (p n : Nat) (sizeLo sizeHi : Nat) (indexOk semBad : Bool) : State :=
  let r := (s.part p).ring n
  let s := (s.modRing p n (fun r => { r with disabling := false, ready := false, held := [] })).applyHeld p n r.held
  let s := s.setRegF (ringCtrl p n) 31 31 0
  match r.rereg with
  | none => s.modRing p n (fun _ => Ring.none)
  | some (a, b) =>
    let s := s.modRing p n (fun _ => Ring.none)
    let err := s.ringCheck p n indexOk (Nat.log2 a.size) sizeLo sizeHi a b
    s.registerRing p n (ringCtrl p n) (if err = 0 ∧ a.meets b then 4 else if err = 0 ∧ semBad then 5 else err) a b

/-- What a directory's enable finds (R263, R321): ready over its range, or the reason it is not, with the enable bit off again. -/
def State.dirAnswer (s : State) (p n a : Nat) (r : Range) : Nat → State
  | 0 =>
    let ring : Ring := { Ring.none with ready := true, range := r }
    ((s.setRegF a 30 28 0).setRegF a 31 31 1).modRing p n (fun _ => ring)
  | e => (s.setRegF a 30 28 e).setRegF a 0 0 0

end Sys2Proof.Machine
end

