-- ==== Sys2Proof/Machine/SyncOps.lean ====
section
/-! DEFINITION. Semaphores and compositions as shared operations (R323 to R344): values and waiters, the map and its epochs, the
epoch check of messages, sync messages, and the loss of a member. -/

namespace Sys2Proof.Machine

/-- Change the synchronisation side. -/
def State.modSync (s : State) (f : Sync → Sync) : State := { s with sync := f s.sync }

/-! ### Semaphores -/

/-- A semaphore. -/
def State.sem (s : State) (i : Nat) : Sem := Tbl.get (fun _ => Sem.zero) s.sync.sems i

/-- The hub of a semaphore (R323). -/
def semHub (i : Nat) : Nat := i / 131072

/-- First semaphore of a partition's range, and how many it has (R29). -/
def State.semBase (s : State) (p : Nat) : Nat := 64 * s.regF (Reg.PART_RSV_SEM p) 11 0
/-- The count of a partition's semaphores. -/
def State.semCount (s : State) (p : Nat) : Nat := 64 * s.regF (Reg.PART_RSV_SEM p) 31 19

/-- Is the semaphore in the range of partition p (R323)? -/
def State.semIn (s : State) (p i : Nat) : Bool := decide (s.semBase p ≤ i) && decide (i < s.semBase p + s.semCount p)

/-- What a hub observes of a semaphore now for a wait: nothing, its value, or that it is poisoned (R324, R325). -/
def observe (v : Sem) (threshold : Nat) : Option (Option Nat) :=
  if v.poison then some none else if threshold ≤ v.value then some (some v.value) else none

/-- A semaphore operation (R443, event 0x28): class 0 ADD, 1 SET, 2 WAIT satisfied. -/
def State.semEvent (s : State) (p i cls : Nat) : State := s.event (hubTile (i / 131072)) ⟨0x28, 0, 1, none, some cls, .ofPart p⟩

/-- Store a semaphore's new value; every wait it satisfies, or that now finds it poisoned, has seen it (R324, R325). -/
def State.putSem (s : State) (i : Nat) (v : Sem) : State :=
  s.modSync (fun y =>
    { y with sems := Tbl.set (fun _ => Sem.zero) y.sems i v,
             waits := y.waits.map (fun w => if w.sem = i ∧ w.seen = none then { w with seen := observe v w.threshold } else w) })

/-- An uncorrectable value makes the semaphore poisoned (R325): counted for partition p. -/
def State.poisonSem (s : State) (p i : Nat) : State :=
  if (s.sem i).poison then s
  else (s.putSem i { s.sem i with poison := true }).count (Reg.PART_SEM_POISON p) 1 |>.pcause p (Reg.PART_SYNC_IRQ_CAUSE p) 2

/-- What the check bits of a semaphore's value show (R323, R325, R366): nothing, an error they correct, counted for the summary, or one they do not, which
poisons it. -/
def State.semFind (s : State) (p i : Nat) (err : Fin 3) : State :=
  if err = 2 then s.poisonSem p i else if err = 1 then s.corrected 6 (semHub i) 6 1 else s

/-- ADD (R324, R325): saturating, counted where it saturates; a poisoned semaphore stays so. Answers the new value, none when
poisoned. -/
def State.semAdd (s : State) (p i a : Nat) : State × Option Nat :=
  let v := s.sem i
  let s := s.semEvent p i 0
  if v.poison then (s, none)
  else
    let sum := v.value + a
    if 2 ^ 64 ≤ sum then
      ((s.putSem i ⟨2 ^ 64 - 1, false⟩).count (Reg.PART_SEM_SAT p) 1 |>.pcause p (Reg.PART_SYNC_IRQ_CAUSE p) 1, some (2 ^ 64 - 1))
    else (s.putSem i ⟨sum, false⟩, some sum)

/-- SET (R324, R325): answers the prior value, zero if the semaphore was poisoned. -/
def State.semSet (s : State) (p i a : Nat) : State × Nat :=
  let v := s.sem i
  ((s.semEvent p i 1).putSem i ⟨a % 2 ^ 64, false⟩, if v.poison then 0 else v.value)

/-- Begin to wait (R324, R327): a value already there is observed at once. -/
def State.semWait (s : State) (who : SemWaiter) (p i threshold : Nat) : State :=
  s.modSync (fun y => { y with waits := y.waits ++ [⟨who, p, i, threshold, s.lcc, observe (s.sem i) threshold⟩] })

/-- The wait of a unit, if it has one. -/
def State.waitOf (s : State) (who : SemWaiter) : Option SemWait := s.sync.waits.find? (fun w => decide (w.who = who))

/-- A unit no longer waits. -/
def State.endWait (s : State) (who : SemWaiter) : State :=
  s.modSync (fun y => { y with waits := y.waits.filter (fun w => !decide (w.who = who)) })

/-- Watches of a hub that partition p uses: one for each of its running SEM_WAIT commands (R327). -/
def State.watches (s : State) (p hub : Nat) : Nat :=
  ((s.part p).cmds.filter (fun c => decide (c.opcode = 0x0C) && decide (c.phase = .running) && decide (semHub (nfld (c.arg 8) 17 0) = hub))).length

/-- Zero the semaphores of a range (R31, R323). -/
def State.zeroSems (s : State) (base n : Nat) : State :=
  s.modSync (fun y => { y with sems := Tbl.keep (fun i => !(decide (base ≤ i) && decide (i < base + n))) y.sems })

/-! ### Compositions -/

/-- A composition as this node knows it. -/
def State.comp (s : State) (c : Nat) : Option Comp := Tbl.get (fun _ => none) s.sync.comps c

/-- The change of a composition this node is prepared for. -/
def State.preparedFor (s : State) (c : Nat) : Option Prepared := Tbl.get (fun _ => none) s.sync.prepared c

/-- The composition a partition is in. -/
def State.compOf (s : State) (p : Nat) : Option (Nat × Comp) :=
  s.sync.comps.findSome? (fun e => match e.2 with
    | some k => if k.part = p then some (e.1, k) else none
    | none => none)

/-- The entry of a node in a map (R334). -/
def memberAt (l : List Member) (node : Nat) : Option Member := l.find? (fun m => decide (m.node = node))

/-- The sequencer of a map: its lowest node (R334). -/
def sequencerOf (l : List Member) : Nat := l.foldl (fun a m => min a m.node) 4095

/-- The epoch after e; 0 is none (R336). -/
def nextEpoch (e : Nat) : Nat := if (e + 1) % 2 ^ 32 = 0 then 1 else (e + 1) % 2 ^ 32

/-- Is epoch a older than b, by serial-number arithmetic (R298, R336)? -/
def epochOlder (a b : Nat) : Bool := decide (a ≠ b) && serialLe a b

/-- Show a partition's composition in its registers (R349). -/
def State.showComp (s : State) (p : Nat) : State :=
  match s.compOf p with
  | none =>
    let prep := s.sync.prepared.any (fun e => match e.2 with | some q => decide (q.part = p) | none => false)
    (((s.setRegN (Reg.PART_COMP_STATUS p) (0xFFFF + (if prep then 2 ^ 31 else 0))).setRegN (Reg.PART_COMP_EPOCH p) 0).setRegN
      (Reg.PART_COMP_ROLE_EPOCH p) 0).setRegN (Reg.PART_COMP_MEMBERS p) 0
  | some (c, k) =>
    let st := if k.down then 3 else if (s.preparedFor c).isSome then 2 else 1
    let bw := match memberAt k.map s.node with | some m => m.bandwidth | none => false
    (((s.setRegN (Reg.PART_COMP_STATUS p) (st * 2 ^ 30 + flag bw 29 + c)).setRegN (Reg.PART_COMP_EPOCH p) k.epoch).setRegN
      (Reg.PART_COMP_ROLE_EPOCH p) k.roleEpoch).setRegN (Reg.PART_COMP_MEMBERS p) (sequencerOf k.map * 2 ^ 16 + k.map.length)

/-- Set a composition, or forget it. -/
def State.setComp (s : State) (c : Nat) (k : Option Comp) : State :=
  s.modSync (fun y => { y with comps := Tbl.set (fun _ => none) y.comps c k })

/-- Set what the node is prepared for. -/
def State.setPrepared (s : State) (c : Nat) (q : Option Prepared) : State :=
  s.modSync (fun y => { y with prepared := Tbl.set (fun _ => none) y.prepared c q })

/-- May a command of partition p with this composition and epoch act in it now (R335)? -/
def State.commandEpochOk (s : State) (p c epoch : Nat) : Bool :=
  match s.comp c with
  | none => false
  | some k => decide (k.part = p) && !k.down && !epochOlder epoch k.roleEpoch && !epochOlder k.epoch epoch

/-- Is this node a BANDWIDTH member of the composition (R335)? -/
def State.bandwidth (s : State) (c : Nat) : Bool :=
  match s.comp c with
  | none => false
  | some k => match memberAt k.map s.node with | some m => m.bandwidth | none => false

/-! ### The epoch check (R340) -/

/-- The outcomes of the epoch check. -/
inductive Verdict where
  | run | stale | hold | violation
  deriving DecidableEq, Repr

/-- The first row of R340's table that applies to a message of a composition; `access` is false for an access outside the member
partition's extents. -/
def State.epochCheck (s : State) (c m src : Nat) (access : Nat → Bool) : Verdict :=
  match s.comp c with
  | none => .stale
  | some k =>
    if k.down then .stale
    else if epochOlder m k.roleEpoch then .stale
    else if epochOlder k.epoch m then
      (match s.preparedFor c with
       | some q => if q.epoch = m ∧ s.sync.heldMsgs.length < 256 then .hold else .stale
       | none => .stale)
    else if (memberAt k.map src).isNone || !access k.part then .violation
    else .run

/-- The partition whose live extent holds a fabric offset (R25, R219). -/
def State.extentPart (s : State) (o : Nat) : Option Nat :=
  (s.extents.find? (fun e => decide (e.state ≠ .pending) && decide (e.state ≠ .releasing) && e.range.has o)).map (·.part)

/-- The partition a message addresses here: of a memory access, the one whose extent holds the address; of a sync message, the
composition's member partition (R340). -/
def State.addressed (s : State) (k : Packet) : Option Nat :=
  if k.proto = 1 then s.extentPart (k.addr % 2 ^ 40) else (s.comp k.comp).map (·.part)

/-- Is the packet a windowed request (R227)? -/
def Packet.isWindowed (k : Packet) : Bool :=
  decide (k.tkind = 0) && (decide (k.tc = 3) || decide (k.tc = 4) || decide (k.tc = 5) || (decide (k.tc = 2) && decide (k.typ ≠ 0x01)))

/-- The source under which a request of a mirror's primary stands in this node's windows, if it addresses a mirror here (R155). -/
def State.winSource (s : State) (k : Packet) : Nat :=
  let src := k.orig.1
  if k.proto ≠ 1 then src
  else match s.mirrors.entries.find? (fun e => (decide (e.2.role = 1)) && decide (e.2.state ≠ 0) && e.2.range.has (k.addr % 2 ^ 40)) with
    | some (_, m) => mirrorSource m.partner src
    | none => src

/-- End a request with a status: through its window, or at once (R250). -/
def State.endRequest (s : State) (k : Packet) (status result data : Nat) (poison : Bool) : State :=
  if k.isWindowed then s.windowDone (s.winSource k) k.tc k.orig.2 status result k.srcInc else s.reply k status result data poison

/-- Answer a message STALE_EPOCH, counted at the node and at the partition it addresses (R340). -/
def State.refuseStale (s : State) (k : Packet) : State :=
  let s := s.count Reg.SW_STALE_IN 1
  let s := match s.addressed k with
    | some p => s.count (Reg.PART_STALE_IN p) 1
    | none => s
  s.endRequest k stStaleEpoch 0 0 false

/-! ### Remote-line caches (R201 to R204) -/

/-- The set of a line within its hub's cache of 16,384 sets: which of its address bits choose it the spec does not say (R201, log entry 55: line
bits [5:0] and [14:7] of the fabric offset, leaving out the bit that chooses the hub). -/
def rlcSet (key : Nat) : Nat := key % 2 ^ 6 + key / 2 ^ 7 % 2 ^ 8 * 2 ^ 6

/-- The lines that stand in the set a key belongs to. -/
def State.rlcMates (s : State) (key : Nat) : List Nat :=
  (s.homes.rlc.filter (fun e => e.2.isSome && decide (e.1 / 2 ^ 46 = key / 2 ^ 46) && decide (rlcSet e.1 = rlcSet key))).map (·.1)

/-- Install a copy (R201): a set of 16 ways that is full evicts one of its lines, silently (R203); which one, the spec does not say (a free choice,
log entry 5). -/
def State.installRemote (s : State) (addr : Nat) (l : RemoteLine) : State :=
  let mates := s.rlcMates (rlcKey addr)
  if mates.length < 16 ∨ (s.remoteLine addr).isSome then s.setRemoteLine addr (some l)
  else
    let (i, s) := s.choose mates.length
    (s.modHomes (fun h => { h with rlc := Tbl.set (fun _ => none) h.rlc (mates.getD i 0) none })).setRemoteLine addr (some l)

/-- Drop every copy tagged with a composition, counted by hub (R204). -/
def State.purgeComp (s : State) (c : Nat) : State :=
  let tagged (e : Nat × Option RemoteLine) : Bool := match e.2 with | some l => decide (l.comp = c) | none => false
  let n (h : Nat) := (s.homes.rlc.filter (fun e => tagged e && decide (e.1 / 2 ^ 46 = h))).length
  ((s.modHomes (fun h => { h with rlc := h.rlc.filter (fun e => !tagged e) })).count (Reg.DIR_RLC_PURGE 0) (n 0)).count
    (Reg.DIR_RLC_PURGE 1) (n 1)

/-! ### Sync messages (R344) -/

/-- The types of R344. -/
def syAdd : Nat := 0x01
def sySet : Nat := 0x02
def syArrive : Nat := 0x03
def syRelease : Nat := 0x04
def syPropose : Nat := 0x05
def syPrepare : Nat := 0x06
def syCommit : Nat := 0x07
def syAbort : Nat := 0x08
def syDown : Nat := 0x09
def syQuery : Nat := 0x0A
def syDigest : Nat := 0x0B
def syAck : Nat := 0x10

/-- A sync message to a node (R344): type, composition, epoch, words 2 and 3, and the 128 bits of words 4 to 7. -/
def syncReq (dst typ c epoch w2 w3 payload p : Nat) (waiter : Waiter) : FabReq :=
  { tc := 5, dst := dst, dstCell := none, addr := 0, part := some p, msgId := 0, proto := 2, len := 2, lineOff := 0, waiter := waiter,
    body := [c * 2 ^ 16 + typ, epoch, w2 % 2 ^ 32, w3 % 2 ^ 32] ++ numWords payload 4 }

/-! ### Losing a member (R341 to R343) -/

/-- End a proposal this partition has in progress with a result (R337, R349). -/
def State.endProposal (s : State) (p result refuser : Nat) : State :=
  let a := Reg.PART_COMP_PROP_CTRL p
  if bitOf (s.reg a) 31 then
    ((s.setRegF a 31 31 0).setRegF a 27 24 result).setRegN (Reg.PART_COMP_REFUSER p) refuser
  else s

/-- Mark a composition down at this node (R342): drop its remote lines, freeze the member partition, set comp_down, send the record
naming the lost node, refuse the messages held for it, and end proposals DOWN. -/
def State.markDown (s : State) (c lost : Nat) : State :=
  match s.comp c with
  | none => s
  | some k =>
    if k.down then s
    else
      let p := k.part
      let s := s.purgeComp c
      let s := (s.setComp c (some { k with down := true })).setPrepared c none
      let s := if s.pstate p = .active then s.enter p .frozen else s
      let s := s.pcause p (Reg.PART_SYNC_IRQ_CAUSE p) 0x10
      let s := s.report 4 0x0042 15 p (some p) 0 [c, lost]
      let held := s.sync.heldMsgs.filter (fun e => decide (e.1 = c))
      let s := s.modSync (fun y => { y with heldMsgs := y.heldMsgs.filter (fun e => !decide (e.1 = c)) })
      let s := held.foldl (fun s e => s.refuseStale e.2) s
      let props := s.sync.proposals.filter (fun (q : Proposal) => decide (q.comp = c))
      let s := s.modSync (fun y => { y with proposals := y.proposals.filter (fun q => !decide (q.comp = c)) })
      let s := props.foldl (fun s q => s.endRequest q.req 0 5 0 false) s
      (s.endProposal p 5 0).showComp p

/-- The lost request's consequences for its partition: counted, reported, the partition frozen (R255). -/
def State.sendDown (s : State) (c p dest lost : Nat) : State :=
  match s.send (syncReq dest syDown c 0 0 p lost p .nobody) with
  | some s => s
  | none => s.freeze p dest 5 0

/-- This node finds a member of a composition lost (R341, R342): it marks the composition down and sends DOWN to every other member. A node that is no member
of it takes nothing down. -/
def State.memberLost (s : State) (c lost : Nat) : State :=
  match s.comp c with
  | none => s
  | some k =>
    if k.down || !(k.map.any (fun m => decide (m.node = lost))) then s
    else
      let s := s.markDown c lost
      (k.map.filter (fun m => decide (m.node ≠ s.node) && decide (m.node ≠ lost))).foldl
        (fun s m => s.sendDown c k.part m.node lost) s

/-- A PINV to a node could not be delivered (R205, R341): a record reports the path, of partition p, whose extent holds the line (log entry 56), and
the node is lost to every composition here that has it as a member. -/
def State.sharerLost (s : State) (p : Option Nat) (node invId : Nat) : State :=
  let s := s.report 4 0x0031 15 (p.getD 0) p stTargetLost [node, 1, invId]
  s.sync.comps.foldl (fun s e => s.memberLost e.1 node) s

/-- A request of a composition ended TARGET_LOST at its source: whoever waits ends, the partition freezes, and the member is lost
(R255, R341). -/
def State.requestLost (s : State) (part : Option Nat) (waiter : Waiter) (addr comp dst tc seq : Nat) : State :=
  let s := s.lostWaiter waiter addr
  let s := match part with
    | some p => s.freeze p dst tc seq
    | none => s.targetLost none dst tc seq
  if comp = 0xFFFF then s else s.memberLost comp dst

end Sys2Proof.Machine
end

