-- ==== Sys2Proof/Machine/Compose.lean ====
section
/-! DEFINITION. What the sequencer of a composition does (R337, R338): its queue of proposals, PREPARE and its answers, the decision, COMMIT and
its acknowledgements, and what a composition protocol message that ends TARGET_LOST means (R338, R339, R342). -/

namespace Sys2Proof.Machine

/-! ### The list of a proposal (R334) -/

/-- A member entry from its word. -/
def Member.ofWord (w : Nat) : Member := { node := nfld w 11 0, part := nfld w 16 12, bandwidth := decide (nfld w 30 30 = 1) }

/-- The word of a member entry, as PART_COMP_ENTRY shows it. -/
def Member.word (m : Member) : Nat := 2 ^ 31 + flag m.bandwidth 30 + m.part % 32 * 2 ^ 12 + m.node % 4096

/-- Are the words of a list in order: valid, zeros where zeros must be, nodes ascending? -/
def listOk : List Nat → Bool
  | [] => true
  | w :: t => decide (nfld w 31 31 = 1) && decide (nfld w 29 17 = 0)
      && (match t with | [] => true | v :: _ => decide (nfld w 11 0 < nfld v 11 0)) && listOk t

/-! ### Proposals -/

/-- The results of a proposal (R349). -/
def prOk : Nat := 0
def prBusy : Nat := 1
def prMalformed : Nat := 2
def prStale : Nat := 3
def prRefused : Nat := 4
def prDown : Nat := 5

/-- Word 4 of the SACK that ends a PROPOSE: the result, and the reason and node of a refusal (R338, R349). -/
def proposalWord (result : Nat) (refusal : Option (Nat × Nat)) : Nat :=
  match refusal with
  | some (n, r) => if result = prRefused then result + r * 2 ^ 8 + n * 2 ^ 16 else result
  | none => result

/-- The proposal of a composition that is first in its sequencer's queue. -/
def State.proposal (s : State) (c : Nat) : Option Proposal := s.sync.proposals.find? (fun (q : Proposal) => decide (q.comp = c))

/-- Change the first element that passes a test. -/
def modFirst {α : Type} (t : α → Bool) (f : α → α) : List α → List α
  | [] => []
  | x :: l => if t x then f x :: l else x :: modFirst t f l

/-- Drop the first element that passes a test. -/
def dropFirst {α : Type} (t : α → Bool) : List α → List α
  | [] => []
  | x :: l => if t x then l else x :: dropFirst t l

/-- Change the first proposal of a composition. -/
def State.modProposal (s : State) (c : Nat) (f : Proposal → Proposal) : State :=
  s.modSync (fun y => { y with proposals := modFirst (fun (q : Proposal) => decide (q.comp = c)) f y.proposals })

/-- The epoch a change would make (R336). -/
def Proposal.newEpoch (q : Proposal) : Nat := nextEpoch q.epoch

/-- The nodes of the old and the new list (R338). -/
def State.targets (s : State) (q : Proposal) : List Nat :=
  let old := match s.comp q.comp with | some k => k.map.map (·.node) | none => []
  old ++ (q.list.map (·.node)).filter (fun n => !old.contains n)

/-- The partition of this node that acts as the sequencer for a proposal. -/
def State.sequencerPart (s : State) (q : Proposal) : Nat :=
  match s.comp q.comp with
  | some k => k.part
  | none => match memberAt q.list s.node with
    | some m => m.part
    | none => 0

/-- Does a node join the composition by a proposal? -/
def State.joins (s : State) (q : Proposal) (node : Nat) : Bool :=
  (memberAt q.list node).isSome && (match s.comp q.comp with | some k => (memberAt k.map node).isNone | none => true)

/-- End the first proposal of a composition: its PROPOSE is answered (R337). -/
def State.proposalEnd (s : State) (c result : Nat) : State :=
  match s.proposal c with
  | none => s
  | some q =>
    let s := s.modSync (fun y => { y with proposals := dropFirst (fun (x : Proposal) => decide (x.comp = c)) y.proposals })
    s.endRequest q.req stOk (proposalWord result q.refusal) 0 false

/-- What the check of step 1 finds wrong with a proposal (R338): 0 nothing. A composition that is down has ended it (R342). -/
def State.proposalCheck (s : State) (q : Proposal) : Nat :=
  match s.comp q.comp with
  | none => if q.malformed ∨ q.comp = 0xFFFF ∨ q.list = [] then prMalformed else if q.epoch ≠ 0 then prStale else prOk
  | some k => if k.down then prDown else if q.malformed then prMalformed else if q.epoch ≠ k.epoch then prStale else prOk

/-- A composition protocol message cannot reach its node (R338, R339, R342): a joiner refuses with reason 4, or needs no ABORT; a member, or a
sequencer that a QUERY cannot reach, is lost; a joiner that cannot reach its sequencer is no longer prepared; a PROPOSE ends. Where R338 itself says what
becomes of the exchange with a joiner, the request is counted and reported and the partition is not frozen (R255, log entry 64). -/
def State.protoLost (s : State) (typ c node p tc seq : Nat) : State :=
  let joiner : Bool := match s.proposal c with
    | some q => s.joins q node
    | none => false
  if typ = syPrepare ∧ joiner then
    (s.targetLost (some p) node tc seq).modProposal c (fun q => { q with due := q.due.erase node, refusal := q.refusal.orElse (fun _ => some (node, 4)) })
  else if typ = syAbort ∧ (joiner || (match s.comp c with | some k => (memberAt k.map node).isNone | none => true)) then
    s.targetLost (some p) node tc seq
  else if typ = syQuery ∧ (s.comp c).isNone then
    let s := s.targetLost (some p) node tc seq
    match s.preparedFor c with
    | some q => (s.setPrepared c none).showComp q.part
    | none => s
  else
    let s := (s.freeze p node tc seq).memberLost c node
    if typ = syPropose then s.endProposal p prDown 0
    else if typ = syCommit then s.proposalEnd c prDown else s

/-- Send a protocol message from the sequencer, or do what its loss means. -/
def State.sequence (s : State) (q : Proposal) (typ node payload : Nat) : State :=
  let p := s.sequencerPart q
  match s.send (syncReq node typ q.comp q.newEpoch q.epoch q.list.length payload p (.sync p)) with
  | some s => s
  | none => s.protoLost typ q.comp node p 5 0

/-- Take the first proposal of a composition as far as it goes (R338): check it; send PREPARE; when every answer is in, send COMMIT or ABORT; when
every COMMITACK is in, end it and take the next. -/
def State.advance (c : Nat) : Nat → State → State
  | 0, s => s
  | fuel + 1, s =>
    match s.proposal c with
    | none => s
    | some q =>
      match q.stage with
      | .queued =>
        let r := s.proposalCheck q
        if r ≠ prOk then State.advance c fuel (s.proposalEnd c r)
        else
          let ts := s.targets q
          let s := s.modProposal c (fun q => { q with stage := .preparing, due := ts })
          let s := s.modSync (fun y => { y with lastDecision := Tbl.set (fun _ => (0, false)) y.lastDecision c (0, false) })
          State.advance c fuel (ts.foldl (fun s n => s.sequence q syPrepare n 0) s)
      | .preparing =>
        if !q.due.isEmpty then s
        else
          let ok := q.refusal.isNone
          let s := s.modSync (fun y => { y with lastDecision := Tbl.set (fun _ => (0, false)) y.lastDecision c (q.newEpoch, ok) })
          let ts := s.targets q
          if ok then
            let s := s.modProposal c (fun q => { q with stage := .committing, due := ts })
            State.advance c fuel (ts.foldl (fun s n => s.sequence q syCommit n 0) s)
          else
            let s := ts.foldl (fun s n => s.sequence q syAbort n 0) s
            State.advance c fuel (s.proposalEnd c prRefused)
      | .committing => if q.due.isEmpty then State.advance c fuel (s.proposalEnd c prOk) else s

/-- Enough for every proposal in the queue of a composition. -/
def advanceFuel : Nat := 40

/-- Take proposals on. -/
def State.sequenced (s : State) (c : Nat) : State := State.advance c advanceFuel s

/-- A sync request ended TARGET_LOST at its source (R255, R341, R342). -/
def State.syncLost (s : State) (r : OutReq) : State :=
  let c := wordAt r.pkt.body 0 / 2 ^ 16 % 2 ^ 16
  (s.protoLost (wordAt r.pkt.body 0 % 2 ^ 8) c r.pkt.dst (r.part.getD 0) r.pkt.tc r.pkt.seq).sequenced c

end Sys2Proof.Machine
end

