-- ==== Sys2Proof/Machine/TallyOps.lean ====
section
/-! DEFINITION. The Tally groups as the rest of the part sees them (R452, R459): which lanes a group drives, whether it does, and what
preempts it. -/

namespace Sys2Proof.Machine

/-- A Tally group (R452), by block and group: blocks 0 and 1 are those of the hub tiles, 2 to 5 those of the link tiles. -/
def State.tallyGroup (s : State) (u g : Nat) : TallyGroup := Tbl.get (fun _ => TallyGroup.reset) s.tally (16 * u + g)

/-- Change one. -/
def State.modTally (s : State) (u g : Nat) (f : TallyGroup → TallyGroup) : State :=
  { s with tally := Tbl.modify (fun _ => TallyGroup.reset) s.tally (16 * u + g) f }

/-- Does the group drive its lanes: training, running or scanning? -/
def TallyGroup.busy (g : TallyGroup) : Bool := decide (1 ≤ g.state) && decide (g.state ≤ 3)

/-- The kinds of lane group (R452). -/
inductive LaneKind where
  | cofeben | cxl | onfi | stack
  deriving DecidableEq, Repr

/-- The lanes a group of a block drives (R452): their kind, and the port, CXL port, channel or stack; none where the table lists no group. -/
def tallyKind (u g : Nat) : Option (LaneKind × Nat) :=
  if u < 2 then (if g < 3 then some (.stack, 3 * u + g) else none)
  else if g < 3 then some (.cofeben, 3 * (u - 2) + g)
  else if u < 4 then (if g = 3 then some (.cxl, u - 2) else none)
  else if 4 ≤ g ∧ g < 13 then some (.onfi, 9 * (u - 4) + g - 4)
  else none

/-- A preempting event stops a group that drives its lanes (R459): STOPPED, reason 3. -/
def State.tallyPreempt (s : State) (u g : Nat) : State :=
  if (s.tallyGroup u g).busy then
    (s.modTally u g (fun x => { x with state := 4, reason := 3 })).cause (Reg.TLY_IRQ_CAUSE u) 4
  else s

/-- An admission or the enable of a Cofeben port preempts every stack group (R459). -/
def State.tallyPreemptStacks (s : State) : State :=
  (List.range 6).foldl (fun s i => s.tallyPreempt (i / 3) (i % 3)) s

/-- The group of an ONFI channel (R452). -/
def State.tallyPreemptChannel (s : State) (f : Nat) : State := s.tallyPreempt (4 + f / 9) (4 + f % 9)

end Sys2Proof.Machine
end

