-- ==== Sys2Proof/Machine/Home.lean ====
section
/-! DEFINITION. The home agent (R189 to R221): the directory, the conflict queue, the message-by-state tables R211 to R213, and the
events that move a line: acknowledgements, recalls, evictions, the loss of a host, the release of an extent. -/

namespace Sys2Proof.Machine

/-! ### Entries -/

/-- The directory entry of a line. -/
def State.dirEntry (s : State) (line : Nat) : Option DirEntry := Tbl.get (fun _ => none) s.homes.dir line

/-- The hub whose home agent orders a line. -/
def State.lineHub (s : State) (line : Nat) : Nat := s.hubOf (64 * line)

/-- The set of a line: L[16:0] xor L[33:17] (R193). -/
def dirSet (line : Nat) : Nat := (line % 2 ^ 17) ^^^ (line / 2 ^ 17 % 2 ^ 17)

/-- The home-state bits an entry calls for (R192). -/
def DirEntry.bits (e : DirEntry) : Nat := if e.host = 2 then 2 else 1

/-- Set or free a line's entry. The bits follow, except in a transient state (R192). -/
def State.setEntry (s : State) (line : Nat) (e : Option DirEntry) : State :=
  let s := s.modHomes (fun h => { h with dir := Tbl.set (fun _ => none) h.dir line e })
  match e with
  | none => s.setHomeBits (64 * line) 0
  | some d => if d.trans.isSome then s else s.setHomeBits (64 * line) d.bits

/-- Is the line's set suspect (R197)? -/
def State.suspectSet (s : State) (line : Nat) : Bool :=
  decide (Tbl.get (fun _ => 0) s.homes.suspect (s.lineHub line * 2 ^ 17 + dirSet line) ≠ 0)

/-- Is the line an orphan (R197)? A line found with bits 0b11 and no entry, which R192 handles as OWNED, is one in any set (log entry 58). -/
def State.isOrphan (s : State) (line : Nat) : Bool :=
  (s.dirEntry line).isNone && ((s.suspectSet line && decide (s.homeBits (64 * line) ≠ 0)) || decide (s.homeBits (64 * line) = 3))

/-- The codes of a line's state in DIR_PROTO_LAST (R222): 0 I, 1 I*, 2 S, 3 SB, 4 E, 5 T_INV, 6 T_RCL. -/
def State.lineState (s : State) (line : Nat) : Nat :=
  match s.dirEntry line with
  | none => if s.isOrphan line then 1 else 0
  | some e =>
    match e.trans with
    | some t => if t.rcl then 6 else 5
    | none => if e.host = 2 then 4 else if e.bcast then 3 else 2

/-- Count a protocol event on a hub (R215, R222). -/
def State.protoErr (s : State) (hub state event node part : Nat) : State :=
  ((s.count (Reg.DIR_PROTO_ERR hub) 1).setRegN (Reg.DIR_PROTO_LAST hub)
    (state * 2 ^ 28 + event * 2 ^ 24 + node % 4096 * 2 ^ 12 + part % 32 * 2 ^ 7)).cause (Reg.DIR_IRQ_CAUSE hub) 1

/-- The node and partition DIR_PROTO_LAST shows for a source. -/
def State.sourceOf (s : State) : Source → Nat × Nat
  | .peer n _ _ => (n, 0)
  | .host p _ => (s.node, p)
  | .unit p _ _ => (s.node, p)
  | _ => (s.node, 0)

/-- Count a protocol event of a line (R211, R212). -/
def State.lineErr (s : State) (line event : Nat) (src : Source) : State :=
  let (n, p) := s.sourceOf src
  s.protoErr (s.lineHub line) (s.lineState line) event n p

/-- The home reads a line's home-state bits with the line (R196): bits that disagree with a stable entry are rewritten to match it and counted. -/
def State.checkBits (s : State) (line : Nat) (src : Source) : State :=
  match s.dirEntry line with
  | some e => if e.trans.isNone && decide (s.homeBits (64 * line) ≠ e.bits) then (s.lineErr line 11 src).setHomeBits (64 * line) e.bits else s
  | none => s

/-- The composition of a line: that of the partition whose extent holds it (R191). -/
def State.lineComp (s : State) (line : Nat) : Nat :=
  match s.extentPart (64 * line) with
  | some p => ((s.compOf p).map (·.1)).getD 0xFFFF
  | none => 0xFFFF

/-- A new entry without copies. -/
def State.newEntry (s : State) (line : Nat) : DirEntry :=
  { comp := s.lineComp line, host := 0, ld := 0, bcast := false, peers := [], used := s.homes.clock, trans := none, releasing := false }

/-- The next moment in the order of use (R195). -/
def State.touch (s : State) (line : Nat) : State :=
  let s := s.modHomes (fun h => { h with clock := h.clock + 1 })
  match s.dirEntry line with
  | none => s
  | some e => s.setEntry line (some { e with used := s.homes.clock })

/-! ### Sending to the holders of copies -/

/-- The PINV for a line to a node (R203, R214). -/
def State.pinvReq (s : State) (line comp node invId : Nat) (bcast : Bool) : FabReq :=
  let addr := s.node * 2 ^ 40 + 64 * line
  { tc := 1, dst := node, dstCell := none, addr := addr, part := none, msgId := 0, proto := 1, len := 2, lineOff := 0,
    waiter := .inval line node, body := cohHeader 0x20 comp 0 addr false false bcast false invId 0 0 0 0 }

/-- Send PINVs to nodes; answers those whose acknowledgement is due, and those that could not be reached, which count as acknowledged
(R205). -/
def State.sendPinvs (s : State) (line comp invId : Nat) (bcast : Bool) (who : Origin) : List Nat → State × List Nat × List Nat
  | [] => (s, [], [])
  | n :: t =>
    match s.send (s.pinvReq line comp n invId bcast) with
    | some s =>
      let s := s.event (hubTile (s.lineHub line)) ⟨0x24, 0, 1, some (s.node * 2 ^ 40 + 64 * line), (if bcast then some 7 else none), who⟩
      let (s, due, lost) := (s.count64 (Reg.DIR_PINV_SENT_LO (s.lineHub line)) 1).sendPinvs line comp invId bcast who t
      (s, n :: due, lost)
    | none =>
      let (s, due, lost) := s.sendPinvs line comp invId bcast who t
      (s, due, n :: lost)

/-- Who a pending request of a line works for (R444). -/
def HomePending.origin : HomePending → Origin
  | .req r => r.src.origin
  | _ => .device

/-- The fabric address of a line of this node. -/
def State.lineAddr (s : State) (line : Nat) : Nat := s.node * 2 ^ 40 + 64 * line

/-- Send a back-invalidate snoop to an entry's host (R207). -/
def State.sendSnoop (s : State) (line ld : Nat) (data : Bool) (who : Origin) : State :=
  ((s.event (hubTile (s.lineHub line)) ⟨0x23, 0, 1, some (s.lineAddr line), none, who⟩).count64 (Reg.DIR_BISNP_SENT_LO (s.lineHub line)) 1).emit (.biSnp ld (if data then "BISnpData" else "BISnpInv") line)

/-- The nodes an invalidation of an entry goes to: its pointers or, by broadcast, the members of its composition (R198, R199). -/
def State.pinvTargets (s : State) (e : DirEntry) (writer : Option Nat) : List Nat :=
  let all := if e.bcast then (match s.comp e.comp with | some k => k.map.map (·.node) | none => []) else e.peers
  all.filter (fun n => decide (n ≠ s.node) && decide (some n ≠ writer))

/-! ### Serving and applying -/

/-- Return a line, with its poison, to whoever reads it (R211, R218). -/
def State.serve (s : State) (r : HomeReq) : State :=
  let o := 64 * r.line
  let s := s.t1Find o (s.ueSource r.src)
  let d := s.t1Read o 64
  let pz := s.t1Poison o
  let kind := match r.kind with
    | .rdsH => "Cmp-S"
    | .ownH => "Cmp-E"
    | _ => "MemData"
  let s := s.t1Line o 0 false r.src.origin
  match r.src with
  | .host _ _ => s.answerHost r kind (if r.wantData then some d else none) (pz && r.wantData)
  | .fmHost _ _ => s.answerHost r kind (if r.wantData then some d else none) (pz && r.wantData)
  | .peer _ _ _ =>
    match r.packet with
    | some k => s.reply k (if pz then stPoison else stOk) 0 d pz
    | none => s
  | _ => s

/-- Apply a store, or hold it, and acknowledge it when it has been applied (R40, R191). -/
def State.applyWrite (s : State) (r : HomeReq) : State :=
  match (s.t1Line (64 * r.line) 1 true r.src.origin).land r with
  | (s, some prior) => s.storeDone r prior
  | (s, none) => s

/-- Record that a host, of logical device ld, holds a line (1 S, 2 E). -/
def State.grantHost (s : State) (r : HomeReq) (e : DirEntry) (host : Nat) : State :=
  let ld := match r.src with | .host p _ => p | _ => 0
  s.setEntry r.line (some { e with host := host, ld := ld, trans := none, used := s.homes.clock })

/-- The peer a request comes from. -/
def HomeReq.peerOf (r : HomeReq) : Option Nat := match r.src with | .peer n _ _ => some n | _ => none

/-- Hold the request that a line's transient state was to complete: its primary cannot reach its mirror by now (R156). It goes behind what its host has
sent for the line meanwhile, and before everything else. -/
def State.holdPending (s : State) (r : HomeReq) : State :=
  let host (q : HomeReq) : Bool := decide (q.line = r.line) && (decide (q.kind = .wbH) || decide (q.kind = .clnH))
  let h := s.mirrors.held
  { s with mirrors := { s.mirrors with held := h.filter host ++ r :: h.filter (fun q => !host q) } }

/-- Complete the pending request of a line that was transient (R213); `rcl` says from T_RCL, `kept` that the host kept S. -/
def State.completePending (s : State) (line : Nat) (e : DirEntry) (rcl kept : Bool) (pend : HomePending) : State :=
  let hostS := if rcl && kept then 1 else 0
  let fresh : DirEntry := { s.newEntry line with host := hostS, ld := e.ld, releasing := e.releasing }
  let settle (s : State) : State := s.setEntry line (if hostS = 1 then some fresh else none)
  match pend with
  | .req r =>
    if s.holdsAt (64 * line) then (settle s).holdPending r
    else match r.kind with
    | .rd => (settle s).serve r
    | .rdsP =>
      let s := s.setEntry line (some { fresh with comp := r.comp, peers := (match r.peerOf with | some n => [n] | none => []) })
      s.serve r
    | .rdsH => (s.grantHost r { fresh with host := 0 } 1).serve r
    | .ownH => (s.grantHost r { fresh with host := 0 } 2).serve r
    | _ => (s.setEntry line none).applyWrite r
  | _ => s.setEntry line none

/-- A line in T_INV whose acknowledgements have all come completes its pending request (R212). -/
def State.checkRound (s : State) (line : Nat) : State :=
  match s.dirEntry line with
  | none => s
  | some e =>
    match e.trans with
    | none => s
    | some t =>
      if !t.rcl && t.nodes.isEmpty && !t.hostDue then s.completePending line { e with trans := none } false false t.pend else s

/-- Start an invalidation round (R199, R212): PINVs to the entry's peers, BISnpInv to the host where asked; it completes at once when
nothing is due. -/
def State.startRound (s : State) (line : Nat) (e : DirEntry) (writer : Option Nat) (snoopHost : Bool) (pend : HomePending) : State :=
  let id := s.homes.nextInv % 65536
  let s := s.modHomes (fun h => { h with nextInv := (id + 1) % 65536 })
  let targets := s.pinvTargets e writer
  let s := if e.bcast then s.count (Reg.DIR_BCAST (s.lineHub line)) 1 else s
  let (s, due, lost) := s.sendPinvs line e.comp id e.bcast pend.origin targets
  let s := if snoopHost then s.sendSnoop line e.ld false pend.origin else s
  let t : Trans := { rcl := false, nodes := due, hostDue := snoopHost, snpData := false, invId := id, since := s.lcc, gotData := false,
                     hostGone := false, timedOut := false, pend := pend }
  let s := s.setEntry line (some { e with trans := some t })
  let s := lost.foldl (fun s n => s.sharerLost (s.extentPart (64 * line)) n id) s
  s.checkRound line

/-- Recall a line from a host that may hold it Exclusive (R207, R211). -/
def State.startRecall (s : State) (line : Nat) (e : DirEntry) (snpData : Bool) (pend : HomePending) : State :=
  let s := s.sendSnoop line e.ld snpData pend.origin
  let t : Trans := { rcl := true, nodes := [], hostDue := true, snpData := snpData, invId := 0, since := s.lcc, gotData := false,
                     hostGone := false, timedOut := false, pend := pend }
  s.setEntry line (some { e with trans := some t })

/-- The EVICT column of R212, for an eviction or the release of an extent. -/
def State.evictLine (s : State) (line : Nat) (pend : HomePending) : State :=
  match s.dirEntry line with
  | none => s
  | some e =>
    if e.trans.isSome then s
    else if e.host = 2 then s.startRecall line e false pend
    else s.startRound line e none (decide (e.host = 1)) pend

/-! ### Ways and orphans (R195, R197) -/

/-- The entries of a line's set. -/
def State.wayMates (s : State) (line : Nat) : List (Nat × DirEntry) :=
  s.homes.dir.filterMap (fun x => match x.2 with
    | some e => if dirSet x.1 = dirSet line ∧ s.lineHub x.1 = s.lineHub line then some (x.1, e) else none
    | none => none)

/-- The victim of a full set: host none first, then the least recently used, never a transient one (R195). -/
def victimOf (l : List (Nat × DirEntry)) : Option Nat :=
  let pick (l : List (Nat × DirEntry)) : Option Nat :=
    (l.foldl (fun (a : Option (Nat × Nat)) x => match a with
      | none => some (x.1, x.2.used)
      | some (k, u) => if x.2.used < u then some (x.1, x.2.used) else some (k, u)) none).map (·.1)
  let stable := l.filter (fun x => x.2.trans.isNone)
  match pick (stable.filter (fun x => decide (x.2.host = 0))) with
  | some k => some k
  | none => pick stable

/-- Does a line that has no entry find a way free? -/
def State.wayFree (s : State) (line : Nat) : Bool := decide ((s.wayMates line).length < 12)

/-- Put a request at the head of its line's queue. -/
def State.requeue (s : State) (r : HomeReq) : State := s.modHomes (fun h => { h with queue := r :: h.queue })

/-- A line needs a way of a full set (R195): a victim is evicted for it, unless one is being evicted for it already; where all 12 ways are transient, it
waits for one that is stable. -/
def State.takeVictim (s : State) (line : Nat) : State :=
  if (s.wayMates line).any (fun x => match x.2.trans with | some t => decide (t.pend = .evict line) | none => false) then s
  else match victimOf (s.wayMates line) with
    | some v => (s.count64 (Reg.DIR_EVICT_LO (s.lineHub v)) 1).evictLine v (.evict line)
    | none => s

/-- A request waits for a way of a full set (R195). -/
def State.waitWay (s : State) (r : HomeReq) : State := (s.requeue r).takeVictim r.line

/-- Recover an orphan (R211): an entry with bcast set and the composition of its extent's partition, a broadcast and a BISnpInv; a
host lost since counts as acknowledged and poisons a line whose bits are OWNED (R212). Bits 0b11 are counted (R192), for `src`. -/
def State.recoverOrphan (s : State) (line : Nat) (src : Source) : State :=
  let s := if s.homeBits (64 * line) = 3 then s.lineErr line 11 src else s
  let owned := decide (2 ≤ s.homeBits (64 * line))
  let lostHost := s.homes.lostOrphans.contains line
  let hub := s.lineHub line
  let s := (s.count (Reg.DIR_ORPHANS hub) 1).cause (Reg.DIR_IRQ_CAUSE hub) 16
  let s := s.modHomes (fun h => { h with lostOrphans := h.lostOrphans.filter (· ≠ line), recovering := h.recovering.filter (· ≠ line) })
  let s := if lostHost && owned then (s.setT1Poison (64 * line) true).count (Reg.DIR_LOST_POISONED hub) 1 else s
  let ld := (s.extentPart (64 * line)).getD 0
  let e : DirEntry := { s.newEntry line with bcast := true, host := if lostHost then 0 else if owned then 2 else 1, ld := ld }
  s.startRound line e none (!lostHost) .orphan

/-! ### Accepting requests -/

/-- The class of a request for event 0x20 of R443: 0 read, 1 write, 2 atomic, 3 the commit of a chute packet (a store of the last word
of a line of a chute, log entry 13). -/
def State.requestClass (s : State) (r : HomeReq) : Nat :=
  if r.atom.isSome then 2
  else if r.kind ≠ .wr then (if r.kind = .wbH then 1 else 0)
  else if decide (r.mask / 2 ^ 60 % 16 = 15) && (match s.extentPart (64 * r.line) with
      | some p => (s.part p).rings.any (fun e => decide (e.1 < 64) && e.2.ready && e.2.range.has (64 * r.line))
      | none => false) then 3 else 1

/-- A home agent accepts a request (R443); what a unit's access makes the home do beforehand is no request of its own. -/
def State.countRequest (s : State) (r : HomeReq) : State :=
  if r.src = .device then s
  else s.event (hubTile (s.lineHub r.line)) ⟨0x20, s.stackOf (64 * r.line) % 3, 1, some (s.lineAddr r.line), some (s.requestClass r), r.src.origin⟩

/-- Does a request make its line need an entry that it has not (R195, R211)? -/
def State.needsWay (s : State) (r : HomeReq) : Bool :=
  (s.dirEntry r.line).isNone && (s.isOrphan r.line || decide (r.kind = .rdsP) || decide (r.kind = .rdsH) || decide (r.kind = .ownH))

/-- A request on a line that is stable, by R211's table. One that needs a way of a full set, or that meets an orphan, waits at the head of its line's
queue. -/
def State.accept (s : State) (r : HomeReq) : State :=
  let line := r.line
  if s.needsWay r && !s.wayFree line then s.waitWay r
  else if s.isOrphan line then (s.requeue r).recoverOrphan line r.src
  else
  let s := ((s.countRequest r).touch line).checkBits line r.src
  match s.dirEntry line with
  | none =>
      match r.kind with
      | .rd => s.serve r
      | .rdsP =>
        (s.setEntry line (some { s.newEntry line with comp := r.comp, peers := (match r.peerOf with | some n => [n] | none => []) })).serve r
      | .rdsH => (s.grantHost r (s.newEntry line) 1).serve r
      | .ownH => (s.grantHost r (s.newEntry line) 2).serve r
      | .wr => s.applyWrite r
      | .wbH => (s.lineErr line 5 r.src).applyWrite r
      | .clnH => (s.lineErr line 6 r.src).answerHost r "Cmp" none false
  | some e =>
    if e.host = 2 then
      match r.kind with
      | .rd => s.startRecall line e true (.req r)
      | .rdsP => s.startRecall line e true (.req r)
      | _ => s.startRecall line e false (.req r)
    else
      match r.kind with
      | .rd => s.serve r
      | .rdsP =>
        if r.comp ≠ e.comp then s.startRound line e none (decide (e.host = 1)) (.req r)
        else
          let s := match r.peerOf with
            | none => s
            | some n =>
              if e.bcast || e.peers.contains n then s
              else if e.peers.length < 4 then s.setEntry line (some { e with peers := e.peers ++ [n] })
              else s.setEntry line (some { e with bcast := true })
          s.serve r
      | .rdsH => (s.grantHost r e 1).serve r
      | .ownH =>
        if e.peers.isEmpty && !e.bcast then (s.grantHost r e 2).serve r
        else s.startRound line e none false (.req r)
      | .wbH => ((s.lineErr line 5 r.src).startRound line e r.peerOf (decide (e.host = 1)) (.req r))
      | .clnH =>
        let e' := { e with host := 0 }
        let s := s.setEntry line (if e.peers.isEmpty && !e.bcast then none else some e')
        s.answerHost r "Cmp" none false
      | .wr =>
        if (s.pinvTargets e r.peerOf).isEmpty && !e.bcast && decide (e.host ≠ 1) then (s.setEntry line none).applyWrite r
        else s.startRound line e r.peerOf (decide (e.host = 1)) (.req r)

/-- The messages that never wait: a writeback or a clean eviction from the host (R209, R211). -/
def State.acceptNow (s : State) (r : HomeReq) : State :=
  let line := r.line
  let cmp (s : State) : State := s.answerHost r "Cmp" none false
  match s.dirEntry line with
  | none =>
    if s.isOrphan line then
      let s := if r.kind = .wbH then s.applyWrite r else cmp s
      if s.wayFree line then s.recoverOrphan line r.src
      else (s.modHomes (fun h => { h with recovering := line :: h.recovering.filter (· ≠ line) })).takeVictim line
    else s.accept r
  | some e =>
    match e.trans with
    | some t =>
      if r.kind = .wbH then
        let s := if t.rcl then s.setEntry line (some { e with trans := some { t with gotData := true } })
          else (match t.pend with
            | .orphan => s
            | _ => s.lineErr line 5 r.src)
        s.applyWrite r
      else if t.rcl then cmp (s.setEntry line (some { e with trans := some { t with hostGone := true } }))
      else cmp (s.setEntry line (some { e with host := 0 }))
    | none =>
      if e.host = 2 then
        if r.kind = .wbH then
          let s := s.applyWrite r
          if r.keep = 0 then s.setEntry line none
          else if r.keep = 1 then s.setEntry line (some { e with host := 1 }) else s
        else cmp (s.setEntry line none)
      else s.accept r

/-- Is the line's stack under a link test? Accesses to the stack are held until its group stops (R457); a writeback or clean eviction from a host never
waits (R209). -/
def State.stackTested (s : State) (line : Nat) : Bool :=
  let st := s.stackOf (64 * line)
  (s.tallyGroup (st / 3) (st % 3)).busy

/-- Does the line take a request now: stable, none waits on it, and its stack is not under test? -/
def State.lineQuiet (s : State) (line : Nat) : Bool :=
  !s.stackTested line && !(s.homes.queue.any (fun q => decide (q.line = line))) && !(s.homes.tagWait.any (fun q => decide (q.line = line))) &&
    (match s.dirEntry line with | some e => e.trans.isNone | none => true)

/-- Requests waiting at the home agent of a line's stack (R209). -/
def State.queuedAt (s : State) (line : Nat) : Nat :=
  (s.homes.queue.filter (fun q => decide (s.stackOf (64 * q.line) = s.stackOf (64 * line)))).length

/-- May a request come to the home of its line now? A home agent whose conflict queue is full takes none, from any source (R209). -/
def State.homeOpen (s : State) (line : Nat) : Bool := decide (s.queuedAt line < 2048)

/-- A request arrives at the home of its line: a primary that cannot reach its mirror holds it (R156); one that may wait does so while
its line is transient or others wait (R209); else it is accepted. -/
def State.request (s : State) (r : HomeReq) : State :=
  if s.holdsAt (64 * r.line) then { s with mirrors := { s.mirrors with held := s.mirrors.held ++ [r] } }
  else if r.kind = .wbH ∨ r.kind = .clnH then s.acceptNow r
  else if s.lineQuiet r.line then s.accept r
  else s.modHomes (fun h => { h with queue := h.queue ++ [r] })

/-- A line has settled: a release that waited on it goes on when no request waits (R220). -/
def State.afterLine (s : State) (line : Nat) : State :=
  match s.dirEntry line with
  | none => s
  | some e => if e.releasing && s.lineQuiet line then s.evictLine line .release else s

/-- Accept the first request that waits on a line, once it is stable (R209), not held for a mirror (R156) and not on a stack under test (R457); an orphan that waits for a way without
a request recovers once there is one (R211). -/
def State.acceptQueued (s : State) (line : Nat) : State :=
  let stable := match s.dirEntry line with | some e => e.trans.isNone | none => true
  match s.homes.queue.find? (fun q => decide (q.line = line)) with
  | none =>
    if s.homes.recovering.contains line && s.isOrphan line then
      if s.wayFree line then s.recoverOrphan line .device else s.takeVictim line
    else s
  | some r => if stable && !s.holdsAt (64 * line) && !s.stackTested line then ((s.modHomes (fun h => { h with queue := h.queue.erase r })).accept r).afterLine line else s

/-! ### Responses and events (R212) -/

/-- End a recall (R212): the host kept S only by BIRspS to BISnpData with no CLN_H meanwhile. -/
def State.endRecall (s : State) (line : Nat) (e : DirEntry) (t : Trans) (rspS : Bool) : State :=
  (s.completePending line { e with trans := none } true (rspS && t.snpData && !t.hostGone) t.pend).afterLine line

/-- A back-invalidate response (R207, R212): kind 0 I, 1 S, 2 E. -/
def State.biResponse (s : State) (ld line kind : Nat) : State :=
  match s.dirEntry line with
  | none => s.lineErr line 7 (.host ld 0)
  | some e =>
    match e.trans with
    | none => s.lineErr line 7 (.host ld 0)
    | some t =>
      if !t.hostDue then s.lineErr line 7 (.host ld 0)
      else
        let s := if t.snpData ∨ kind = 0 then s else s.lineErr line 7 (.host ld 0)
        if t.rcl then s.endRecall line e t (decide (kind ≠ 0))
        else ((s.setEntry line (some { e with host := 0, trans := some { t with hostDue := false } })).checkRound line).afterLine line

/-- An acknowledgement of a round from a node (R212); a second one for one PINV is discarded (R249). -/
def State.pinvAcked (s : State) (line node invId : Nat) : State :=
  match s.dirEntry line with
  | none => s.protoErr (s.lineHub line) (s.lineState line) 8 node 0
  | some e =>
    match e.trans with
    | none => s.protoErr (s.lineHub line) (s.lineState line) 8 node 0
    | some t =>
      if !t.rcl && decide (t.invId = invId) then
        if t.nodes.contains node then
          ((s.setEntry line (some { e with trans := some { t with nodes := t.nodes.erase node } })).checkRound line).afterLine line
        else s
      else s.protoErr (s.lineHub line) (s.lineState line) 8 node 0

/-- A PINV that could not be delivered counts as acknowledged (R205). -/
def State.pinvLost (s : State) (line node invId : Nat) : State :=
  match s.dirEntry line with
  | none => s
  | some e =>
    match e.trans with
    | none => s
    | some t =>
      if !t.rcl && decide (t.invId = invId) && t.nodes.contains node then
        (((s.setEntry line (some { e with trans := some { t with nodes := t.nodes.erase node } })).checkRound line).afterLine
          line).sharerLost (s.extentPart (64 * line)) node invId
      else s.sharerLost (s.extentPart (64 * line)) node invId

/-- The loss of a line's host (R212, R217); counts lines it poisons. -/
def State.hostLostLine (s : State) (line : Nat) (e : DirEntry) : State :=
  let hub := s.lineHub line
  let poison (s : State) : State :=
    ((s.setT1Poison (64 * line) true).count (Reg.DIR_LOST_POISONED hub) 1).modHomes (fun h => { h with scanLines := h.scanLines + 1 })
  match e.trans with
  | none =>
    if e.host = 2 then (poison s).setEntry line none
    else if e.peers.isEmpty && !e.bcast then s.setEntry line none
    else s.setEntry line (some { e with host := 0 })
  | some t =>
    if t.rcl then
      let s := if t.gotData then s else poison s
      s.endRecall line e t false
    else if t.hostDue then
      ((s.setEntry line (some { e with host := 0, trans := some { t with hostDue := false } })).checkRound line).afterLine line
    else s.setEntry line (some { e with host := 0 })

/-- A request of a lost logical device is executed and its response discarded (R217). -/
def HomeReq.muted (lds : List Nat) (r : HomeReq) : HomeReq :=
  match r.src with
  | .host ld _ => if lds.contains ld then { r with mute := true } else r
  | .fmHost h _ => if lds.contains (32 + h) then { r with mute := true } else r
  | _ => r

/-- The same for what a directory entry waits to complete. -/
def DirEntry.muted (lds : List Nat) (e : DirEntry) : DirEntry :=
  match e.trans with
  | some t => (match t.pend with
    | .req r => { e with trans := some { t with pend := .req (r.muted lds) } }
    | _ => e)
  | none => e

/-- Discard the responses of every request of the lost logical devices that is past the port check (R217): queued, pending, held on a chute or for a
mirror, waiting to be forwarded. -/
def State.muteHosts (s : State) (lds : List Nat) : State :=
  let s := s.modHomes (fun h => { h with queue := h.queue.map (HomeReq.muted lds),
                                         dir := h.dir.map (fun e => (e.1, e.2.map (DirEntry.muted lds))) })
  let s := (List.range 32).foldl (fun s p => s.modPart p (fun x => { x with rings := x.rings.map (fun f =>
    (f.1, { f.2 with held := f.2.held.map (fun y => { y with req := y.req.muted lds }) })) })) s
  { s with mirrors := { s.mirrors with held := s.mirrors.held.map (HomeReq.muted lds),
                                       acks := s.mirrors.acks.map (fun a => { a with req := a.req.muted lds }) },
           forwards := s.forwards.map (fun f => { f with req := f.req.muted lds }) }

/-- The logical devices `lds` are lost (R216): every entry of theirs, one whose host's answer is still due included, and orphans that may be theirs,
and the scan begins. -/
def State.hostsLost (s : State) (lds : List Nat) : State :=
  let s := s.muteHosts lds
  let orphans := (s.t1.home.filter (fun b => s.isOrphan b.1 &&
    (match s.extentPart (64 * b.1) with | some p => lds.contains p | none => false))).map (·.1)
  let mask := (lds.filter (· < 32)).foldl (fun a p => a ||| 2 ^ p) 0
  let s := s.modHomes (fun h => { h with scanning := true, scanHosts := h.scanHosts ||| mask,
                                         lostOrphans := h.lostOrphans ++ orphans.filter (fun l => !h.lostOrphans.contains l) })
  s.homes.dir.foldl (fun s x => match s.dirEntry x.1 with
    | some e =>
      let due := match e.trans with | some t => t.hostDue | none => false
      if lds.contains e.ld && (decide (e.host ≠ 0) || due) then s.hostLostLine x.1 e else s
    | none => s) s

/-- Does a host-loss or release scan run (DIR_STATUS.scan_busy)? -/
def State.scanBusy (s : State) : Bool := s.homes.scanning || s.homes.dir.any (fun e => match e.2 with | some d => d.releasing | none => false)

/-- The lines a local unit reads can be read at their home now: no host may hold one Exclusive, none is transient or waited for. -/
def State.readable (s : State) (line : Nat) : Bool :=
  s.homeOpen line && s.lineQuiet line && !s.isOrphan line &&
    (match s.dirEntry line with | some e => decide (e.host ≠ 2) | none => true) &&
    !s.holdsAt (64 * line)

/-- The home has no copy of the line to take back before a local write. -/
def State.writable (s : State) (line : Nat) : Bool :=
  s.homeOpen line && s.lineQuiet line && !s.isOrphan line && (s.dirEntry line).isNone &&
    !s.holdsAt (64 * line)

/-- Ask the home of a line for it on behalf of a local unit (R191): the home takes back what stands in the way, and the unit's access
is made when it has (log entry 8). -/
def State.want (s : State) (line : Nat) (write : Bool) : State :=
  if s.holdsAt (64 * line) || !s.lineQuiet line || !s.homeOpen line then s
  else
    let r := HomeReq.store .device line 0 0 false
    s.accept (if write then r else { r with kind := .rd })

/-- Ask for every line of a list that is not ready. -/
def State.wantAll (s : State) (write : Bool) (lines : List Nat) : State :=
  lines.foldl (fun s l => if (if write then s.writable l else s.readable l) then s else s.want l write) s

/-- Read for a local unit: when every line can be read, do `f`; else the home is asked for those that cannot. -/
def State.whenReadable (s : State) (lines : List Nat) (f : State → State) : State :=
  if lines.all s.readable then f (lines.foldl (fun s l => (s.checkBits l .device).t1Find (64 * l) (ueWho 0 s.node)) s) else s.wantAll false lines

/-- The lines that the n bytes from an offset touch. -/
def linesOf (o n : Nat) : List Nat := if n = 0 then [] else (List.range ((o + n - 1) / 64 + 1 - o / 64)).map (· + o / 64)

/-- Lines of a range whose home must first take back a copy, or make a queued request, before the device writes them (R14). -/
def State.heldBack (s : State) (r : Range) : List Nat :=
  (s.homes.dir.map (·.1) ++ s.t1.home.map (·.1) ++ s.homes.queue.map (·.line) ++ s.homes.tagWait.map (·.line)).filter
    (fun l => r.has (64 * l) && !s.writable l)

/-- Write the masked bytes of a line of this node's T1 for a unit, posted to the home (R191). Each write counts against the command until it is
acknowledged. It waits where the partition has no request tag left (R51) or the home's conflict queue is full (R209), behind those that wait already. -/
def State.post (s : State) (src : Source) (line mask data : Nat) (poison : Bool) : State :=
  let r := { HomeReq.store src line mask data poison with wid := s.homes.nextWrite }
  match src with
  | .unit p ch q =>
    let s := s.numbered.modCmd p ch q (fun c => { c with unacked := c.unacked + 1 })
    if s.tagFree p && s.homeOpen line && !(s.homes.tagWait.any (fun w => w.byUnitOf p)) then s.request r
    else s.modHomes (fun h => { h with tagWait := h.tagWait ++ [r] })
  | _ =>
    if s.homeOpen line && !(s.homes.tagWait.any (fun w => decide (w.src = src))) then s.request r
    else s.modHomes (fun h => { h with tagWait := h.tagWait ++ [r] })

/-- Writes that waited for a request tag, or for room in a conflict queue, go to their homes, in order, as there is one (R51, R209). -/
def State.releaseTags (s : State) : State :=
  s.homes.tagWait.foldl (fun s r =>
    let go := s.homeOpen r.line && (match r.src with
      | .unit p _ _ => s.tagFree p && decide (s.homes.tagWait.find? (fun w => w.byUnitOf p) = some r)
      | src => decide (s.homes.tagWait.find? (fun w => decide (w.src = src)) = some r))
    if go then (s.modHomes (fun h => { h with tagWait := h.tagWait.erase r })).request r else s) s

/-- Post the n low bytes of a number from an offset, a line at a time. -/
def State.postBytes (s : State) (src : Source) (o n v : Nat) (poison : Bool) : State :=
  (linesOf o n).foldl (fun s l =>
    let lo := max o (64 * l)
    let hi := min (o + n) (64 * l + 64)
    let mask := (2 ^ (hi - lo) - 1) * 2 ^ (lo - 64 * l)
    let d := v / 2 ^ (8 * (lo - o)) % 2 ^ (8 * (hi - lo)) * 2 ^ (8 * (lo - 64 * l))
    s.post src l mask d poison) s

end Sys2Proof.Machine
end

