-- ==== Sys2Proof/Machine/Net.lean ====
section
/-! DEFINITION. What a node does with a coherence packet that has reached it (R203, R211, R215, R238, R247, R249 to R251), and how a
request it sent ends (R155, R156, R255). -/

namespace Sys2Proof.Machine

/-- Take a packet out of those that have arrived. -/
def State.receive (s : State) (k : Packet) : State := s.modFab (fun x => { x with arrived := x.arrived.erase k })

/-- The home request of a coherence packet (R206, R210). -/
def Packet.homeReq (k : Packet) (src : Nat) : HomeReq :=
  { kind := if k.typ = 0x01 then (if k.fill then .rdsP else .rd) else .wr, src := .peer src k.tc k.orig.2, line := k.line,
    mask := if k.typ = 0x03 then k.mask else if k.typ = 0x01 then 0 else fullMask,
    data := if k.typ = 0x02 ∨ k.typ = 0x03 ∨ k.typ = 0x05 then k.data else 0, poison := k.poison && decide (k.typ ≠ 0x04),
    atom := if k.typ = 0x04 then some (k.atomOp, pairAt k.body 8, pairAt k.body 10, k.lineOff) else none,
    comp := k.comp, keep := 0, wantData := true, packet := some k }

/-- Is an ATOM's operation one of R238, and is it aligned? -/
def Packet.atomAligned (k : Packet) : Bool :=
  match AtomOp.ofCode k.atomOp with
  | some (_, w) => decide (k.lineOff % (w / 8) = 0)
  | none => false

/-- Count a violation by a peer's access and answer it as an ordinary one (R66, R215). -/
def State.peerViolation (s : State) (k : Packet) : State :=
  (s.violateMem (.peer k.orig.1 k.tc k.orig.2) (decide (k.typ ≠ 0x01)) k.addr).endRequest k stOk 0 0 false

/-- Hand a request to the home of its line under the name it has in the windows. -/
def State.toHome (s : State) (k : Packet) : State :=
  s.request (k.homeReq (if k.isWindowed then s.winSource k else k.src))

/-- The rule of R340 for a request that has passed its window: run it, hold it, refuse it or count a violation. -/
def State.judge (s : State) (k : Packet) : State :=
  let o := k.addr % 2 ^ 40
  if k.comp = 0xFFFF then s.peerViolation k
  else match s.epochCheck k.comp k.epoch k.orig.1 (fun p => decide (s.extentPart o = some p)) with
    | .stale => s.refuseStale k
    | .hold => s.modSync (fun y => { y with heldMsgs := y.heldMsgs ++ [(k.comp, k)] })
    | .violation => s.peerViolation k
    | .run =>
      if k.typ = 0x04 ∧ !k.atomAligned then s.peerViolation k
      else match s.mirrorAt o with
        | some (_, m) => if m.state = 5 then s.peerViolation k else s.toHome k
        | none => s.toHome k

/-- A redirected request at a mirror that has not promoted itself is relayed to the primary (R156); none when no rail can take it. -/
def State.relay (s : State) (k : Packet) (m : Mirror) : Option State :=
  let id := s.mirrors.nextId
  let o := k.addr % 2 ^ 40 - m.range.base
  let addr := m.partner * 2 ^ 40 + m.pbase * 0x10000000 + o
  let body := (k.body.set 2 (addr % 2 ^ 32 / 64 * 64)).set 3 (addr / 2 ^ 32)
  (s.send { tc := k.tc, dst := m.partner, dstCell := none, addr := addr, part := none, msgId := 0, proto := 1, len := k.len,
            lineOff := k.lineOff, waiter := .relay id, body := body }).map (fun s =>
    { s with mirrors := { s.mirrors with relays := s.mirrors.relays ++ [(id, k)], nextId := id + 1 } })

/-- A mirror that cannot reach its primary promotes itself to SOLO (R156, R157). -/
def State.promote (s : State) (i : Nat) : State :=
  s.mirrorTo i 3 16

/-- The mirror entry (role mirror, state MIRROR) that holds an offset. -/
def State.mirrorEntry (s : State) (o : Nat) : Option (Nat × Mirror) :=
  s.mirrors.entries.find? (fun e => decide (e.2.state = 6) && e.2.range.has o)

/-- A request for a line of this node, other than a forwarded write, past its window. -/
def State.serveRequest (s : State) (k : Packet) : State :=
  match s.mirrorEntry (k.addr % 2 ^ 40) with
  | none => s.judge k
  | some (i, m) =>
    if !k.redirected then s.peerViolation k
    else match s.relay k m with
      | some s => s
      | none => (s.promote i).judge k

/-- May the home take the request now (R209)? A combined one only with room for every constituent, since nothing comes between them (R247). -/
def State.canTake (s : State) (k : Packet) : Bool := s.homeOpen k.line && decide (s.queuedAt k.line + k.constituents.length ≤ 2048)

/-- An RD, WR, WRP or ATOM reaches this node: through its window if it is windowed (R250), then checked and served. A home whose
conflict queue is full leaves it where it is (R209). -/
def State.handleRequest (s : State) (k : Packet) : State :=
  if !s.canTake k then s
  else
    let s := s.receive k
    if k.typ = 0x04 ∧ (AtomOp.ofCode k.atomOp).isNone then s.protoErr (s.lineHub k.line) (s.lineState k.line) 9 k.src 0
    else if k.isWindowed then s.windowed k (s.winSource k) k.orig.2 (fun s => s.serveRequest k)
    else s.serveRequest k

/-- The packet of one constituent of a combined packet (R246, R247). -/
def Packet.constituent (k : Packet) (c : List Nat) : Packet :=
  let w0 := wordAt c 0
  let hdr := ((k.body.take 8).set 0 (wordAt k.body 0 / 2 ^ 9 * 2 ^ 9 + nfld w0 5 5 * 2 ^ 8 + k.typ)).set 4
    (wordAt k.body 4 / 2 ^ 14 * 2 ^ 14 + nfld w0 19 6)
  { k with src := nfld w0 31 20, seq := wordAt c 1, srcInc := nfld (wordAt c 2) 31 16, srcPart := nfld w0 4 0, combined := false,
           ncons := 0, body := hdr ++ [wordAt c 4, wordAt c 5, 0, 0] }

/-- The home takes the constituents of a combined packet one after another (R247). -/
def State.handleCombined (s : State) (k : Packet) : State :=
  if !s.canTake k then s
  else (k.constituents.map k.constituent).foldl (fun s c => s.handleRequest c) (s.receive k)

/-- A forwarded write reaches the mirror (R155): recorded under its first source and sequence, applied, acknowledged MACK. The prior
value of an atomic, which MWR does not carry, is a free value (log entry 4). A mirror that has promoted itself answers PROMOTED,
status 0x02 (log entry 9). -/
def State.handleMwr (s : State) (k : Packet) : State :=
  let s := s.receive k
  let o := k.addr % 2 ^ 40
  s.windowed k k.src k.seq (fun s =>
    match s.mirrors.entries.find? (fun e => decide (e.2.role = 1) && decide (e.2.state ≠ 0) && e.2.range.has o) with
    | none => s.peerViolation k
    | some (_, m) =>
      if m.state ≠ 6 then s.windowDone k.src k.tc k.seq stAlreadyDone 0 k.srcInc
      else
        let w := wordAt k.body 24
        let cls := wordAt k.body 26 % 8
        let src := mirrorSource m.partner (w % 4096)
        let s := if cls = 0 then s
          else
            let s := s.noteIncarnation src (w / 2 ^ 16)
            let (v, s) := if cls = 3 then s.draw else (0, s)
            s.setWindow src cls (wordAt k.body 25) ⟨wordAt k.body 25, 2, 0, v, []⟩
        s.request { k.homeReq k.src with src := .peer k.src k.tc k.seq })

/-! ### Responses -/

/-- The outstanding request a response completes (R249): its sender, the class and the sequence. -/
def State.awaiting (s : State) (k : Packet) (tc : Nat) : Option OutReq := s.outstanding k.src tc k.seq

/-- One write of a command has been acknowledged. -/
def State.ackCmd (s : State) (p chute seq : Nat) : State :=
  s.modCmd p chute seq (fun c => { c with unacked := c.unacked - 1 })

/-- A value or a status comes back to whoever waits for it (R249). -/
def State.answerWaiter (s : State) (r : OutReq) (value : Nat) (poison : Bool) (status : Nat) : State :=
  match r.waiter with
  | .cmd p c q =>
    let write := r.pkt.typ = 0x02 ∨ r.pkt.typ = 0x03
    if status = stStaleEpoch then (if write then s.ackCmd p c q else s).failCmd p c q stStaleEpoch
    else if r.pkt.typ = 0x01 ∨ r.pkt.typ = 0x04 then s.arrive ⟨r.waiter, r.addr, value, poison, status⟩
    else s.ackCmd p c q
  | .core _ => s.arrive ⟨r.waiter, r.addr, value, poison, status⟩
  | .fwd _ => s.arrive ⟨r.waiter, r.addr, value, poison, status⟩
  | .relay id =>
    match s.mirrors.relays.find? (fun e => decide (e.1 = id)) with
    | none => s
    | some e =>
      let s := { s with mirrors := { s.mirrors with relays := s.mirrors.relays.filter (fun f => !decide (f.1 = id)) } }
      s.endRequest e.2 status value value poison
  | _ => s

/-- RDATA arrives (R201, R203): a fill is installed unless it was killed, is poisoned or failed; the reader gets the data. `err`: what goes wrong in
the installed copy (R202). -/
def State.handleRdata (s : State) (k : Packet) (err : Nat) : State :=
  let s := s.receive k
  match s.awaiting k 2 with
  | none => s
  | some r =>
    let s := s.complete r
    let s := if r.pkt.fill && !r.killed && !k.poison && decide (k.status = stOk) && decide (s.node ≠ k.src) then
        (s.installRemote r.addr ⟨k.data, r.pkt.comp, err⟩).count (Reg.DIR_RLC_FILL (rlcHub r.addr)) 1
      else s
    s.answerWaiter r k.data k.poison k.status

/-- The class of the request that a WACK or NAK answers: an atomic's carries its operation code (R214). -/
def Packet.answersClass (k : Packet) : Nat := if k.atomOp ≠ 0 then 3 else 2

/-- WACK arrives (R249). -/
def State.handleWack (s : State) (k : Packet) : State :=
  let s := s.receive k
  match s.awaiting k k.answersClass with
  | none => s
  | some r => (s.complete r).answerWaiter r (pairAt k.body 8) k.poison k.status

/-- NAK arrives (R340). -/
def State.handleNak (s : State) (k : Packet) : State :=
  let s := s.receive k
  match s.awaiting k k.answersClass with
  | none => s
  | some r => (s.complete r).answerWaiter r 0 false k.status

/-- A serving entry learns that its mirror has promoted itself: FENCED; what it held completes as violations (R157). -/
def State.fence (s : State) (i : Nat) : State :=
  let m := s.mirror i
  let s := s.mirrorTo i 5 32
  let mine (r : HomeReq) : Bool := m.range.has (64 * r.line)
  let held := s.mirrors.held.filter mine ++ s.homes.queue.filter mine
  let s := s.modHomes (fun h => { h with queue := h.queue.filter (fun r => !mine r) })
  let acks := s.mirrors.acks.filter (fun a => decide (a.entry = i))
  let s := { s with mirrors := { s.mirrors with held := s.mirrors.held.filter (fun r => !mine r),
                                                acks := s.mirrors.acks.filter (fun a => !decide (a.entry = i)) } }
  let s := acks.foldl (fun s a => s.ackStore a.req a.prior) s
  held.foldl (fun s r =>
    let write := decide (r.kind = .wr) || decide (r.kind = .wbH)
    let s := s.violateMem r.src write (s.lineAddr r.line)
    match r.packet with
    | some k => s.endRequest k stOk 0 0 false
    | none => if write then s.ackStore r none else s.answerHost r "MemData" (some 0) false) s

/-- MACK arrives: the writer is acknowledged (R155); an answer PROMOTED fences the primary (R157). -/
def State.handleMack (s : State) (k : Packet) : State :=
  let s := s.receive k
  match s.awaiting k 4 with
  | none => s
  | some r =>
    let s := s.complete r
    match r.waiter with
    | .mirror id =>
      match s.mirrors.acks.find? (fun a => decide (a.id = id)) with
      | none => s
      | some a =>
        if k.status = stAlreadyDone ∧ ((s.mirror a.entry).state = 1 ∨ (s.mirror a.entry).state = 2) then s.fence a.entry
        else ({ s with mirrors := { s.mirrors with acks := s.mirrors.acks.filter (fun b => !decide (b.id = id)) } }).ackStore a.req a.prior
    | _ => s

/-- PINV arrives at a sharer (R203, R205): the copy is dropped, or a fill in flight killed; PINVACK answers at once. -/
def State.handlePinv (s : State) (k : Packet) : State :=
  let s := s.receive k
  let hub := rlcHub k.addr
  let had := (s.remoteLine k.addr).isSome
  let s := if had then (s.setRemoteLine k.addr none).count (Reg.DIR_RLC_INV hub) 1 else s
  let filling (r : OutReq) : Bool := r.pkt.fill && decide (r.pkt.typ = 0x01) && decide (r.pkt.proto = 1) && decide (r.addr / 64 = k.addr / 64)
  let s := if s.fab.reqs.any (fun r => filling r && !r.killed) then
      (s.modFab (fun x => { x with reqs := x.reqs.map (fun r => if filling r then { r with killed := true } else r) })).count
        (Reg.DIR_RLC_KILLED hub) 1
    else s
  s.respond k 1 1 2 (cohHeader 0x21 k.comp 0 k.addr false false false had k.invId 0 0 0 0)

/-- PINVACK arrives at the home (R212). -/
def State.handlePinvack (s : State) (k : Packet) : State :=
  let s := s.receive k
  let s := match s.awaiting k 1 with
    | some r => s.complete r
    | none => s
  if k.addr / 2 ^ 40 = s.node ∧ k.addr % 2 ^ 40 < Config.t1Bytes then s.pinvAcked k.line k.src k.invId else s.protoErr (rlcHub k.addr) 0 8 k.src 0

/-! ### Requests that end TARGET_LOST -/

/-- A forwarded write cannot reach the mirror: a SYNCED primary holds; a rebuild is abandoned (R156, R157). -/
def State.mirrorUnreachable (s : State) (i : Nat) : State :=
  let m := s.mirror i
  if m.state = 1 then s.mirrorTo i 2 8
  else if m.state = 4 then
    let acks := s.mirrors.acks.filter (fun a => decide (a.entry = i))
    let s := s.mirrorTo i 3 0
    let s := { s with mirrors := { s.mirrors with acks := s.mirrors.acks.filter (fun a => !decide (a.entry = i)) } }
    acks.foldl (fun s a => s.ackStore a.req a.prior) s
  else s

/-- The redirect entry of this node for an address of a primary (R155). -/
def State.redirectFor (s : State) (dst o : Nat) : Option Mirror :=
  (s.mirrors.entries.find? (fun e => decide (e.2.state = 7) && decide (e.2.primary = dst) && e.2.range.has o)).map (·.2)

/-- Send a request once to the mirror of a redirected primary instead of losing it (R156); none where no entry or no rail takes it. -/
def State.redirect (s : State) (r : OutReq) : Option State :=
  let o := r.addr % 2 ^ 40
  if r.pkt.proto ≠ 1 ∨ r.pkt.redirected ∨ 4 < r.pkt.typ then none
  else match s.redirectFor r.pkt.dst o with
    | none => none
    | some m =>
      let addr := m.partner * 2 ^ 40 + m.pbase * 0x10000000 + (o - m.range.base)
      let b := (r.pkt.body.set 2 (addr % 2 ^ 32 / 64 * 64)).set 3 (addr / 2 ^ 32)
      s.send { tc := r.pkt.tc, dst := m.partner, dstCell := none, addr := r.addr, part := r.part, msgId := 0, proto := 1, len := r.pkt.len + 1,
               lineOff := r.pkt.lineOff, waiter := r.waiter, wid := r.wid, body := b ++ [s.node, r.pkt.seq, 0, 0, 0, 0, 0, 0] }

/-- An outstanding request ends TARGET_LOST (R205, R255), unless a mirror takes it (R156). -/
def State.endLost (s : State) (r : OutReq) : State :=
  let s := s.complete r
  match s.redirect r with
  | some s => s
  | none =>
    match r.waiter with
    | .inval line node => s.pinvLost line node r.pkt.invId
    | .mirror id =>
      match s.mirrors.acks.find? (fun a => decide (a.id = id)) with
      | some a => s.mirrorUnreachable a.entry
      | none => s
    | .relay id =>
      match s.mirrors.relays.find? (fun e => decide (e.1 = id)) with
      | none => s
      | some e =>
        let s := { s with mirrors := { s.mirrors with relays := s.mirrors.relays.filter (fun f => !decide (f.1 = id)) } }
        match s.mirrorEntry (e.2.addr % 2 ^ 40) with
        | some (i, _) => (s.promote i).judge e.2
        | none => s.judge e.2
    | w =>
      let s := match w with
        | .cmd p ch q => if r.pkt.proto = 1 ∧ (r.pkt.typ = 0x02 ∨ r.pkt.typ = 0x03) then s.ackCmd p ch q else s
        | _ => s
      if r.pkt.proto = 2 then (s.lostWaiter w r.addr).syncLost r
      else
      let c := if r.pkt.proto = 3 then 0xFFFF else r.pkt.comp
      s.requestLost r.part w r.addr c r.pkt.dst r.pkt.tc r.pkt.seq

/-- Send a request; one that no rail can take ends TARGET_LOST at once, unless a mirror takes it (R156, R226). -/
def State.sendOrLose (s : State) (r : FabReq) : State :=
  match s.send r with
  | some s => s
  | none =>
    s.endLost { pkt := s.requestPacket r 0 (Tbl.get (fun _ => 0) s.fab.nextSeq (sendKey r.dst r.tc)), waiter := r.waiter, part := r.part,
                addr := r.addr, retried := false, sentAt := s.lcc, killed := false, wid := r.wid }

/-- What waited for its window or a tag, need wait no longer and finds no rail that can take it ends TARGET_LOST at once (R226). -/
def State.settleStalled (s : State) : State :=
  s.fab.stalled.foldl (fun s r =>
    if s.fab.stalled.contains r && decide (s.mustStall r = (false, false)) && (s.railFor r).isNone then
      (s.modFab (fun x => { x with stalled := x.stalled.erase r })).sendOrLose r
    else s) s

end Sys2Proof.Machine
end

