-- ==== Sys2Proof/Machine/Cohere.lean ====
section
/-! DEFINITION. The commands of the home agent (R189 to R222): host CXL.mem requests, their back-invalidate responses, packets of
the coherence protocol, host loss and the DIR registers that act. -/

namespace Sys2Proof.Machine

/-! ### The CXL port (R18, R206, R421, R422) -/

/-- The fabric offset a logical device's host address names, if its decoder claims it (R421). -/
def State.decode (s : State) (ld hpa : Nat) : Option Nat :=
  let d := (s.ld ld).decoder
  if !d.committed || hpa < d.base || d.base + d.size ≤ hpa then none
  else
    let dpa := hpa - d.base
    if ld < 32 then (if dpa ≤ 0x67FFFFFFFF then some (Config.poolBase + dpa) else none)
    else if dpa ≤ 0x6BFFFFFFFF then some dpa else none

/-- The port check of R18 and R421: the offset, where the logical device may reach it; a mirror or fenced extent is out of its reach (R155, R157), and in
STANDBY every access is a violation (R388). -/
def State.portCheck (s : State) (ld hpa : Nat) : Option Nat :=
  match (if s.regF Reg.RNG_PWR_STATE 31 30 = 2 then none else s.decode ld hpa) with
  | none => none
  | some o =>
    if s.mirrorShut o then none
    else if ld < 32 then (if s.extentPart o = some ld then some o else none)
    else if Config.poolBase ≤ o then some o else none

/-- Who a host request comes from. -/
def hostSource (ld tag : Nat) : Source := if ld < 32 then .host ld tag else .fmHost (ld - 32) tag

/-- Is host state recorded for this device: one that serves a partition, with back-invalidate enabled (R190, R422)? -/
def State.hdmDb (s : State) (ld : Nat) : Bool := decide (ld < 32) && (s.ld ld).decoder.backInvalidate

/-- A host's request for the home. -/
def hostReq (ld tag line : Nat) (kind : HomeKind) (wantData : Bool) : HomeReq :=
  { kind := kind, src := hostSource ld tag, line := line, mask := 0, data := 0, poison := false, atom := none, comp := 0xFFFF, keep := 0,
    wantData := wantData, packet := none }

/-- A CXL.mem request reaches a port (R443, event 0x45; R448): it carries `n` bytes in, and its answer `m` bytes out. -/
def State.cxlRequest (s : State) (ld hpa : Nat) (write : Bool) (n m : Nat) : State :=
  let h := if ld < 32 then ld / 16 else ld - 32
  let addr := (s.decode ld hpa).map (fun o => s.node * 2 ^ 40 + o / 64 * 64)
  let s := s.event (linkTile h) ⟨0x45, 3, 1, addr, some (if write then 1 else 0), (hostSource ld 0).origin⟩
  (s.bandwidthBytes (linkTile h) 3 0 n).bandwidthBytes (linkTile h) 3 1 m

/-- Count bad CXL fields of a request (R206). -/
def State.badFields (s : State) (ld hpa : Nat) (ok : Bool) : State :=
  if ok then s else
    let line := (s.decode ld hpa).getD 0 / 64
    s.lineErr line 10 (hostSource ld 0)

/-- A host request that fails the port check (R18, R66): a violation, answered by an ordinary response with zeros. -/
def State.portViolation (s : State) (ld tag hpa : Nat) (write : Bool) (kind : String) (data : Bool) : State :=
  let o := ((s.decode ld hpa).map (fun o => s.node * 2 ^ 40 + o)).getD (hpa % 2 ^ 52)
  (s.violateMem (hostSource ld tag) write o).emit (.hostResp (hostSource ld tag) kind (if data then some 0 else none) false)

/-- A host read or ownership request (R206): checked at the port, then the home event its MetaValue names. -/
def State.hostRead (s : State) (ld tag hpa : Nat) (kind : HomeKind) (resp : String) (data ok : Bool) : State :=
  let s := s.cxlRequest ld hpa false 0 (if data then 64 else 0)
  match s.portCheck ld hpa with
  | none => (s.badFields ld hpa ok).portViolation ld tag hpa false resp data
  | some o =>
    let kind := if s.hdmDb ld then kind else .rd
    let r := hostReq ld tag (o / 64) kind data
    if s.homeOpen r.line then (s.badFields ld hpa ok).request r else s

/-- Does the line's entry show this host E (R206)? Bits OWNED of an orphan stand for its lost entry. -/
def State.showsE (s : State) (ld line : Nat) : Bool :=
  match s.dirEntry line with
  | some e => decide (e.host = 2) && decide (e.ld = ld)
  | none => s.isOrphan line && decide (2 ≤ s.homeBits (64 * line))

/-- Is the line in an extent of this logical device that is past its release point (R220)? -/
def State.pastRelease (s : State) (ld o : Nat) : Bool :=
  s.extents.any (fun e => decide (e.part = ld) && decide (e.state = .releasing) && e.range.has o)

/-- The error record of an uncorrectable line that a read finds (R130), where there is one. -/
def State.readUe (s : State) (o : Nat) (ue : Option (BitVec 16)) (who : Nat) : State :=
  match ue with
  | some x => s.t1Uncorrectable (o / 64 * 64) x.toNat who
  | none => s

/-- MEM_RD (R206). -/
def execMemRd (ld : Fin 34) (tag : Nat) (hpa : BitVec 64) (mv : Fin 3) (fieldsOk : Bool) (ue : Option (BitVec 16)) (s : State) : Res :=
  act s fun s =>
    let kind : HomeKind := if mv.val = 0 then .rd else if mv.val = 1 then .rdsH else .ownH
    let resp := if mv.val = 0 then "MemData" else if mv.val = 1 then "Cmp-S" else "Cmp-E"
    let s := match s.portCheck ld hpa.toNat with
      | some o => s.readUe o ue (ueWho 1 s.node)
      | none => s
    s.hostRead ld.val tag hpa.toNat kind resp true fieldsOk

/-- MEM_RD_DATA (R206): RDS_H with any MetaValue. -/
def execMemRdData (ld : Fin 34) (tag : Nat) (hpa : BitVec 64) (fieldsOk : Bool) (s : State) : Res :=
  act s fun s => s.hostRead ld.val tag hpa.toNat .rdsH "Cmp-S" true fieldsOk

/-- A host gives a line up or cleans it (R206): CLN_H at the home; on a device that keeps no host state it only completes. After the release point a
MemClnEvct of a line held E is absorbed (`absorbed`), and a MemInv is a violation (R220). -/
def State.hostClean (s : State) (ld tag hpa : Nat) (ok absorbed : Bool) : State :=
  let s := s.cxlRequest ld hpa false 0 0
  match s.portCheck ld hpa with
  | none =>
    match s.decode ld hpa with
    | some o =>
      if absorbed && s.pastRelease ld o && s.showsE ld (o / 64) then s.emit (.hostResp (hostSource ld tag) "Cmp" none false)
      else (s.badFields ld hpa ok).portViolation ld tag hpa false "Cmp" false
    | none => (s.badFields ld hpa ok).portViolation ld tag hpa false "Cmp" false
  | some o =>
    let s := s.badFields ld hpa ok
    if s.hdmDb ld then s.request (hostReq ld tag (o / 64) .clnH false)
    else s.emit (.hostResp (hostSource ld tag) "Cmp" none false)

/-- MEM_INV (R206): MetaValue A takes ownership, S a shared copy, I gives the line up; none returns data. -/
def execMemInv (ld : Fin 34) (tag : Nat) (hpa : BitVec 64) (mv : Fin 3) (fieldsOk : Bool) (s : State) : Res :=
  act s fun s =>
    if mv.val = 0 then s.hostClean ld.val tag hpa.toNat fieldsOk false
    else if !s.hdmDb ld.val && (s.portCheck ld.val hpa.toNat).isSome then
      (s.badFields ld.val hpa.toNat fieldsOk).emit (.hostResp (hostSource ld.val tag) "Cmp" none false)
    else if mv.val = 1 then s.hostRead ld.val tag hpa.toNat .rdsH "Cmp-S" false fieldsOk
    else s.hostRead ld.val tag hpa.toNat .ownH "Cmp-E" false fieldsOk

/-- MEM_CLN_EVCT (R206): CLN_H. -/
def execMemClnEvct (ld : Fin 34) (tag : Nat) (hpa : BitVec 64) (fieldsOk : Bool) (s : State) : Res :=
  act s fun s => s.hostClean ld.val tag hpa.toNat fieldsOk true

/-- MEM_WR (R206, R220, R424): WB_H from a host whose entry shows E, else WR; after the release point a writeback of a line held E is
absorbed. -/
def execMemWr (ld : Fin 34) (tag : Nat) (hpa : BitVec 64) (mv : Fin 3) (mask : BitVec 64) (data : Line) (poison : Bool)
    (fieldsOk : Bool) (s : State) : Res :=
  act s fun s =>
    let s := s.cxlRequest ld.val hpa.toNat true 64 0
    match s.portCheck ld.val hpa.toNat with
    | none =>
      let absorbed := match s.decode ld.val hpa.toNat with
        | some o => s.pastRelease ld.val o && s.showsE ld.val (o / 64)
        | none => false
      if absorbed then s.emit (.hostResp (hostSource ld.val tag) "Cmp" none false)
      else (s.badFields ld.val hpa.toNat fieldsOk).portViolation ld.val tag hpa.toNat true "Cmp" false
    | some o =>
      let wb := s.hdmDb ld.val && s.showsE ld.val (o / 64)
      let r := { hostReq ld.val tag (o / 64) (if wb then .wbH else .wr) false with
        mask := mask.toNat, data := data.toNat, poison := poison, keep := mv.val }
      if wb || s.homeOpen r.line then (s.badFields ld.val hpa.toNat fieldsOk).request r else s

/-- MEM_SPEC_RD (R206): accepted and ignored. -/
def execMemSpecRd (_ld : Fin 34) (_hpa : BitVec 64) (s : State) : Res := act s id

/-- MEM_RD_FWD (R206): not supported: zero data, counted. -/
def execMemRdFwd (ld : Fin 34) (tag : Nat) (hpa : BitVec 64) (s : State) : Res :=
  act s fun s => (s.badFields ld.val hpa.toNat false).emit (.hostResp (hostSource ld.val tag) "MemData" (some 0) false)

/-- MEM_WR_FWD (R206): not supported: completed without effect, counted. -/
def execMemWrFwd (ld : Fin 34) (tag : Nat) (hpa : BitVec 64) (s : State) : Res :=
  act s fun s => (s.badFields ld.val hpa.toNat false).emit (.hostResp (hostSource ld.val tag) "Cmp" none false)

/-- BI_RSP (R207, R212). -/
def execBiRsp (ld : Fin 34) (line : BitVec 34) (kind : Fin 3) (s : State) : Res :=
  act s fun s => s.biResponse ld.val line.toNat kind.val

/-- BI_CONFLICT (R207, R212): answered BIConflictAck at once, in any state. -/
def execBiConflict (ld : Fin 34) (line : BitVec 34) (s : State) : Res :=
  act s fun s => s.emit (.biSnp ld.val "BIConflictAck" line.toNat)

/-- BI_TIMEOUT (R208): a back-invalidate unanswered for longer than DIR_BI_TIMEOUT; the home keeps waiting. -/
def execBiTimeout (line : BitVec 34) (s : State) : Res :=
  act s fun s =>
    let l := line.toNat
    let h := s.lineHub l
    match s.dirEntry l with
    | none => s
    | some e =>
      match e.trans with
      | none => s
      | some t =>
        if t.hostDue && !t.timedOut && decide (max 1 (s.regN (Reg.DIR_BI_TIMEOUT h)) < s.lcc - t.since) then
          let s := s.setEntry l (some { e with trans := some { t with timedOut := true } })
          (s.cause (Reg.DIR_IRQ_CAUSE h) 4).report 3 0x0005 11 (e.ld / 16) none 0 [64 * l % 2 ^ 32, 64 * l / 2 ^ 32, e.ld]
        else s

/-- CONFLICT_QUEUE_ACCEPT (R209). -/
def execConflictQueueAccept (line : BitVec 34) (s : State) : Res := act s fun s => s.acceptQueued line.toNat

/-! ### Packets of the coherence protocol -/

/-- An uncorrectable error of a line's directory entry (R197): the entry is lost, its set suspect, counted and recorded. A transient line goes on with
what its home agent has in hand and writes its entry anew when it completes (log entry 59); a line without an entry has none to lose. -/
def State.dirUncorrectable (s : State) (line : Nat) : State :=
  let h := s.lineHub line
  match s.dirEntry line with
  | none => s
  | some e =>
    let key := h * 2 ^ 17 + dirSet line
    let s := s.modHomes (fun x => { x with dir := (if e.trans.isNone then Tbl.set (fun _ => none) x.dir line none else x.dir),
                                           suspect := Tbl.set (fun _ => 0) x.suspect key 1 })
    ((s.count (Reg.DIR_UE h) 1).cause (Reg.DIR_IRQ_CAUSE h) 2).report 2 0x0004 6 h none 0 [dirSet line]

/-- An error that the read of a line's directory entry finds: 0 none, 1 corrected (R194, R366), 2 uncorrectable (R197). -/
def State.dirError (s : State) (line : Nat) (e : Fin 3) : State :=
  match e with
  | 0 => s
  | 1 => (s.count (Reg.DIR_CE (s.lineHub line)) 1).corrected 6 (s.lineHub line) 3 1
  | 2 => s.dirUncorrectable line

/-- Run `f` when the packet is a message of the type. -/
def whenType (k : Packet) (typ : Nat) (f : State → State) (s : State) : State :=
  if k.proto = 1 ∧ k.typ = typ then f s else s

/-- RD (R211). -/
def execRd (k : Packet) (ue : Option (BitVec 16)) (dirErr : Fin 3) (s : State) : Res :=
  act s (whenType k 0x01 fun s =>
    let s := s.dirError k.line dirErr
    (s.readUe (64 * k.line) ue (ueWho 2 k.src)).handleRequest k)

/-- WR (R211, R250). -/
def execWr (k : Packet) (s : State) : Res := act s (whenType k 0x02 fun s => s.handleRequest k)

/-- WRP (R211, R250). -/
def execWrp (k : Packet) (s : State) : Res := act s (whenType k 0x03 fun s => s.handleRequest k)

/-- ATOM (R238, R250). -/
def execAtom (k : Packet) (s : State) : Res := act s (whenType k 0x04 fun s => s.handleRequest k)

/-- COMBINED_PACKET (R247). -/
def execCombinedPacket (k : Packet) (s : State) : Res :=
  act s fun s => if k.combined ∧ k.proto = 1 then s.handleCombined k else s

/-- MWR (R155). -/
def execMwr (k : Packet) (s : State) : Res := act s (whenType k 0x05 fun s => s.handleMwr k)

/-- MACK (R155). -/
def execMack (k : Packet) (s : State) : Res := act s (whenType k 0x13 fun s => (s.handleMack k).settleStalled)

/-- RDATA (R203). `err`: in the copy it installs a bit goes wrong (1), or more than its code corrects (2), before it is read (R202). -/
def execRdata (k : Packet) (s : State) (err : Fin 3 := 0) : Res :=
  act s (whenType k 0x10 fun s => (s.handleRdata k err.val).settleStalled)

/-- WACK (R249). -/
def execWack (k : Packet) (s : State) : Res := act s (whenType k 0x11 fun s => (s.handleWack k).settleStalled)

/-- NAK (R215, R340). -/
def execNak (k : Packet) (s : State) : Res := act s (whenType k 0x12 fun s => (s.handleNak k).settleStalled)

/-- PINV (R203). -/
def execPinv (k : Packet) (s : State) : Res := act s (whenType k 0x20 fun s => s.handlePinv k)

/-- PINVACK (R212). -/
def execPinvack (k : Packet) (s : State) : Res := act s (whenType k 0x21 fun s => (s.handlePinvack k).settleStalled)

/-- The types of R215's table. -/
def knownTypes : List Nat := [0x01, 0x02, 0x03, 0x04, 0x05, 0x10, 0x11, 0x12, 0x13, 0x20, 0x21]

/-- UNKNOWN_TYPE_DISCARD (R215): discarded and counted on the hub its address selects. -/
def execUnknownTypeDiscard (k : Packet) (s : State) : Res :=
  act s fun s =>
    if k.proto ≠ 1 ∨ k.typ ∈ knownTypes then s
    else
      let s := s.receive k
      let here := decide (k.addr / 2 ^ 40 = s.node) && decide (k.addr % 2 ^ 40 < Config.t1Bytes)
      if here then s.protoErr (s.lineHub k.line) (s.lineState k.line) 9 k.src 0 else s.protoErr (rlcHub k.addr) 0 9 k.src 0

/-! ### Losing a host (R216 to R218) -/

/-- Pending ranges of lost logical devices are dropped (R423). -/
def State.dropPending (s : State) (lds : List Nat) : State :=
  { s with extents := s.extents.filter (fun e => !(decide (e.state = .pending) && lds.contains e.part)) }

/-- The logical devices of a port that serve partitions. -/
def portLds (h : Nat) : List Nat := (List.range 16).map (· + 16 * h)

/-- Every logical device of a port: those and the fabric manager's. -/
def allLds (h : Nat) : List Nat := portLds h ++ [32 + h]

/-- HOST_LOST (R216): the port's link goes down, is reset, or PERST_N is asserted. -/
def execHostLost (h : Fin 2) (s : State) : Res :=
  act s fun s => (s.hostsLost (allLds h.val)).dropPending (portLds h.val)

/-- DIR_HOST_LOST_GO (R216, R222): one logical device is declared lost; ignored while scan_busy is 1. -/
def execDirHostLostGo (rq : Requester) (v : Word) (s : State) : Res :=
  act s fun s =>
    let a := Reg.DIR_HOST_LOST 0
    s.access rq a (fun s =>
      let s := s.store a v
      if s.scanBusy then s
      else
        let ld := s.regF a 4 4 * 16 + s.regF a 3 0
        (s.hostsLost [ld]).dropPending [ld])

/-- HOST_LOST_SCAN_DONE (R216, R218): the scan ends; one record gives the logical devices and the lines poisoned. -/
def execHostLostScanDone (s : State) : Res :=
  act s fun s =>
    if !s.homes.scanning then s
    else
      let m := s.homes.scanHosts
      let n := s.homes.scanLines
      let s := s.modHomes (fun h => { h with scanning := false, scanHosts := 0, scanLines := 0 })
      let s := (s.cause (Reg.DIR_IRQ_CAUSE 0) 8).cause (Reg.DIR_IRQ_CAUSE 1) 8
      s.report 4 0x0006 11 (if m % 65536 = 0 then 1 else 0) none 0 [m, n]

/-! ### DIR_PEEK (R194, R222) -/

/-- The four words of a directory entry, low first, with the check byte zero. -/
def DirEntry.words (line : Nat) (e : DirEntry) : List Nat :=
  let ptr (i : Nat) := e.peers.getD i 0
  let ptrs := ptr 0 + ptr 1 * 2 ^ 12 + ptr 2 * 2 ^ 24 + ptr 3 * 2 ^ 36
  numWords (line * 2 ^ 94 + e.comp * 2 ^ 78 + e.host * 2 ^ 76 + e.ld % 32 * 2 ^ 71 + flag e.bcast 70
    + min 4 e.peers.length * 2 ^ 67 + ptrs * 2 ^ 16) 4

/-- DIR_PEEK (R222): the high word completes the pair; the line's entry is put into DIR_PEEK_DATA0 to DIR_PEEK_DATA3. -/
def execDirPeek (rq : Requester) (h : Fin 2) (v : Word) (s : State) : Res :=
  act s fun s =>
    s.pairHigh rq (Reg.DIR_PEEK_ADDR_HI h.val) v (fun s =>
      let o := s.reg64 (Reg.DIR_PEEK_ADDR_LO h.val) % 2 ^ 40
      let l := o / 64
      let ws := match s.dirEntry l with
        | some e => if s.lineHub l = h.val then e.words l else [0, 0, 0, 0]
        | none => [0, 0, 0, 0]
      (List.range 4).foldl (fun s i => s.setRegN (Reg.DIR_PEEK_DATA h.val i) (wordAt ws i)) s)

end Sys2Proof.Machine
end

