-- ==== Sys2Proof/Machine/Aes.lean ====
section
/-! DEFINITION. The cipher of an encrypted Cofeben port (R235): AES-256 (FIPS 197) and GCM (NIST SP 800-38D) over a group of seven flit payloads,
with no additional data. Bytes stand in the order in which a flit carries them. -/

namespace Sys2Proof.Machine

/-! ### GF(2^8) -/

/-- Times x in GF(2^8) with a reduction polynomial. -/
def gfX (poly a : Nat) : Nat := if 128 ≤ a then (2 * a) ^^^ poly else 2 * a

/-- The product of two elements, `n` bits of the second one. -/
def gfMulN (poly : Nat) : Nat → Nat → Nat → Nat
  | 0, _, _ => 0
  | n + 1, a, b => (if b % 2 = 1 then a else 0) ^^^ gfMulN poly n (gfX poly a) (b / 2)

/-- The product of two elements. -/
def gfMul (poly a b : Nat) : Nat := gfMulN poly 8 a b

/-- a^(2^(n+1) - 2), from the squares of a. -/
def gfInvN (poly : Nat) : Nat → Nat → Nat → Nat
  | 0, _, acc => acc
  | n + 1, sq, acc => gfInvN poly n (gfMul poly sq sq) (gfMul poly acc sq)

/-- The inverse of an element; 0 for 0. -/
def gfInv (poly a : Nat) : Nat := gfInvN poly 7 (gfMul poly a a) 1

/-! ### AES-256 -/

/-- The polynomial of AES. -/
def aesPoly : Nat := 0x11B

/-- Rotate a byte left. -/
def rotl8 (n b : Nat) : Nat := b * 2 ^ n % 256 + b / 2 ^ (8 - n)

/-- SubBytes of one byte. -/
def aesSub (b : Nat) : Nat :=
  let x := gfInv aesPoly b
  x ^^^ rotl8 1 x ^^^ rotl8 2 x ^^^ rotl8 3 x ^^^ rotl8 4 x ^^^ 0x63

/-- The n bytes of a number, the most significant first. -/
def bytesBe (v : Nat) : Nat → List Nat
  | 0 => []
  | n + 1 => v / 2 ^ (8 * n) % 256 :: bytesBe v n

/-- The number that bytes spell, the most significant first. -/
def natBe (bytes : List Nat) : Nat := bytes.foldl (fun a b => a * 256 + b) 0

/-- SubWord. -/
def aesSubWord (w : Nat) : Nat := natBe ((bytesBe w 4).map aesSub)

/-- Key expansion: words from i on, `n` of them, onto those there are, newest first. -/
def aesExpand : Nat → Nat → List Nat → List Nat
  | 0, _, ws => ws
  | n + 1, i, ws =>
    let t := ws.headD 0
    let f := if i % 8 = 0 then aesSubWord (t * 2 ^ 8 % 2 ^ 32 + t / 2 ^ 24) ^^^ (2 ^ (i / 8 - 1) * 2 ^ 24)
      else if i % 8 = 4 then aesSubWord t else t
    aesExpand n (i + 1) ((ws.getD 7 0 ^^^ f) :: ws)

/-- The fifteen round keys of a 256-bit key, 16 bytes each. -/
def aesKeys (key : Nat) : List (List Nat) :=
  let ws := (aesExpand 52 8 ((List.range 8).map (fun i => key / 2 ^ (32 * i) % 2 ^ 32))).reverse
  (List.range 15).map (fun r => (List.range 4).flatMap (fun c => bytesBe (ws.getD (4 * r + c) 0) 4))

/-- Bytewise exclusive or. -/
def xorBytes (a b : List Nat) : List Nat := List.zipWith (· ^^^ ·) a b

/-- ShiftRows. -/
def aesShift (st : List Nat) : List Nat := (List.range 16).map (fun i => st.getD (i % 4 + 4 * ((i / 4 + i % 4) % 4)) 0)

/-- MixColumns. -/
def aesMix (st : List Nat) : List Nat :=
  (List.range 16).map (fun i =>
    let at_ (k : Nat) := st.getD (i / 4 * 4 + (i + k) % 4) 0
    gfMul aesPoly (at_ 0) 2 ^^^ gfMul aesPoly (at_ 1) 3 ^^^ at_ 2 ^^^ at_ 3)

/-- Rounds 1 to 14, given their keys. -/
def aesRounds : List (List Nat) → List Nat → List Nat
  | [], st => st
  | [k], st => xorBytes (aesShift (st.map aesSub)) k
  | k :: ks, st => aesRounds ks (xorBytes (aesMix (aesShift (st.map aesSub))) k)

/-- One block under expanded keys. -/
def aesBlock (keys : List (List Nat)) (block : Nat) : Nat :=
  natBe (aesRounds (keys.drop 1) (xorBytes (bytesBe block 16) (keys.headD [])))

/-! ### GCM -/

/-- The product in GHASH's field, `n` bits of the first factor, the most significant first. -/
def ghashMulN : Nat → Nat → Nat → Nat
  | 0, _, _ => 0
  | n + 1, x, v =>
    (if x / 2 ^ 127 % 2 = 1 then v else 0) ^^^
      ghashMulN n (x * 2 % 2 ^ 128) (if v % 2 = 1 then (v / 2) ^^^ (0xE1 * 2 ^ 120) else v / 2)

/-- GHASH of blocks. -/
def ghash (h : Nat) (blocks : List Nat) : Nat := blocks.foldl (fun y b => ghashMulN 128 (y ^^^ b) h) 0

/-- Blocks of 16 bytes. -/
def blocks16 (bytes : List Nat) : List Nat := (List.range ((bytes.length + 15) / 16)).map (fun i => natBe ((bytes.drop (16 * i)).take 16))

/-- The IV of a group (R235): the key identifier, then the group counter, each little-endian (R3). -/
def gcmIv (keyId group : Nat) : Nat :=
  natBe ((List.range 4).map (fun i => keyId / 2 ^ (8 * i) % 256) ++ (List.range 8).map (fun i => group / 2 ^ (8 * i) % 256))

/-- Encrypt or decrypt payload j of a group: 224 bytes, 14 blocks of key stream each. -/
def gcmPayload (key iv j : Nat) (bytes : List Nat) : List Nat :=
  let ks := aesKeys key
  xorBytes bytes ((List.range 14).flatMap (fun b => bytesBe (aesBlock ks (iv * 2 ^ 32 + 2 + 14 * j + b)) 16))

/-- The tag over the ciphertext of a group: 16 bytes. -/
def gcmTag (key iv : Nat) (cipher : List Nat) : List Nat :=
  let ks := aesKeys key
  bytesBe (ghash (aesBlock ks 0) (blocks16 cipher ++ [8 * cipher.length]) ^^^ aesBlock ks (iv * 2 ^ 32 + 1)) 16

end Sys2Proof.Machine
end

