-- ==== Sys2Proof/Machine/Fec.lean ====
section
/-! DEFINITION. A flit as 256 bytes (R231, R232): its fields, its CRC-64 and its forward error correction, two interleaved Reed–Solomon codes
RS(128,120) over GF(2^8). The spec gives the field and the length and not the roots of the generator nor the order of the symbols (DESIGN CHOICE, log
entry 60): the roots are α^0 to α^7 and byte i of a codeword is the coefficient of x^(127 - i), as for the code of T1 (log entry 50). -/

namespace Sys2Proof.Machine

/-- The polynomial x^8 + x^4 + x^3 + x^2 + 1. -/
def fecPoly : Nat := 0x11D

/-- α to the power n, α = x. -/
def fecAlpha : Nat → Nat
  | 0 => 1
  | n + 1 => gfX fecPoly (fecAlpha n)

/-- The coefficients of the generator below x^8, highest first. -/
def fecGen : List Nat :=
  ((List.range 8).foldl (fun g i => (List.range (g.length + 1)).map (fun k => g.getD k 0 ^^^ (if k = 0 then 0 else gfMul fecPoly (fecAlpha i) (g.getD (k - 1) 0))))
    [1]).drop 1

/-- The eight parity bytes of 120 bytes. -/
def fecParity (msg : List Nat) : List Nat :=
  msg.foldl (fun r m =>
    let q := m ^^^ r.headD 0
    (List.range 8).map (fun k => r.getD (k + 1) 0 ^^^ gfMul fecPoly q (fecGen.getD k 0))) (List.replicate 8 0)

/-- The syndromes of a codeword. -/
def fecSyndromes (w : List Nat) : List Nat :=
  (List.range 8).map (fun j => w.foldl (fun acc x => gfMul fecPoly acc (fecAlpha j) ^^^ x) 0)

/-- Add a multiple of a polynomial, shifted, to another; coefficients lowest first. -/
def polyAddShift (c b : List Nat) (m q : Nat) : List Nat :=
  (List.range (max c.length (b.length + m))).map (fun i => c.getD i 0 ^^^ (if i < m then 0 else gfMul fecPoly q (b.getD (i - m) 0)))

/-- The error locator of syndromes (Berlekamp and Massey): `n` steps still to do, the step, the locator, the one before, its length, its shift and
discrepancy. -/
def fecLocator (syn : List Nat) : Nat → Nat → List Nat → List Nat → Nat → Nat → Nat → List Nat × Nat
  | 0, _, c, _, len, _, _ => (c, len)
  | n + 1, i, c, b, len, m, db =>
    let d := (List.range (len + 1)).foldl (fun acc k => acc ^^^ gfMul fecPoly (c.getD k 0) (syn.getD (i - k) 0)) 0
    if d = 0 then fecLocator syn n (i + 1) c b len (m + 1) db
    else
      let c' := polyAddShift c b m (gfMul fecPoly d (gfInv fecPoly db))
      if 2 * len ≤ i then fecLocator syn n (i + 1) c' c (i + 1 - len) 1 d
      else fecLocator syn n (i + 1) c' b len (m + 1) db

/-- The value of a polynomial, coefficients lowest first. -/
def polyEval (p : List Nat) (x : Nat) : Nat := p.foldr (fun a acc => gfMul fecPoly acc x ^^^ a) 0

/-- Decode one codeword: the bytes and how many were corrected, or none when it is uncorrectable: no codeword lies within four byte errors of it. -/
def fecDecode (w : List Nat) : Option (List Nat × Nat) :=
  let syn := fecSyndromes w
  if syn.all (· = 0) then some (w, 0)
  else
    let (loc, len) := fecLocator syn 8 0 [1] [1] 0 1 1
    let omega := (List.range 8).map (fun i => (List.range (i + 1)).foldl (fun acc k => acc ^^^ gfMul fecPoly (loc.getD k 0) (syn.getD (i - k) 0)) 0)
    let slope := (List.range loc.length).map (fun i => if i % 2 = 0 then loc.getD (i + 1) 0 else 0)
    let fixed := w.mapIdx (fun i b =>
      let x := fecAlpha (127 - i)
      let xi := gfInv fecPoly x
      if polyEval loc xi = 0 then b ^^^ gfMul fecPoly x (gfMul fecPoly (polyEval omega xi) (gfInv fecPoly (polyEval slope xi))) else b)
    let wrong := ((List.zip w fixed).filter (fun e => decide (e.1 ≠ e.2))).length
    if len ≤ 4 ∧ wrong = len ∧ (fecSyndromes fixed).all (· = 0) then some (fixed, wrong) else none

/-- The bytes of codeword c of a flit: byte i belongs to codeword (i div 8) mod 2. -/
def codewordOf (c : Nat) (bytes : List Nat) : List Nat :=
  (List.range 16).flatMap (fun i => (bytes.drop (16 * i + 8 * c)).take 8)

/-- The bytes of a flit from those of its codewords. -/
def interleave (a b : List Nat) : List Nat := (List.range 16).flatMap (fun i => (a.drop (8 * i)).take 8 ++ (b.drop (8 * i)).take 8)

/-- The 256 bytes of a flit, and the number that they spell, the first least significant. -/
def flitBytes (v : Nat) : List Nat := (List.range 256).map (fun i => v / 2 ^ (8 * i) % 256)

/-- The words of bytes. -/
def bytesWords (bytes : List Nat) : List Nat :=
  (List.range (bytes.length / 4)).map (fun i =>
    bytes.getD (4 * i) 0 + bytes.getD (4 * i + 1) 0 * 2 ^ 8 + bytes.getD (4 * i + 2) 0 * 2 ^ 16 + bytes.getD (4 * i + 3) 0 * 2 ^ 24)

/-- A flit: its header, the 56 words of its payload, and its CRC. -/
structure Flit where
  header : Nat
  slots : List Nat
  crc : Nat
  deriving DecidableEq, Repr

/-- The fields of decoded bytes (R231). -/
def Flit.ofBytes (bytes : List Nat) : Flit :=
  let ws := bytesWords bytes
  ⟨ws.getD 0 0 + 2 ^ 32 * ws.getD 1 0, (ws.drop 2).take 56, ws.getD 58 0 + 2 ^ 32 * ws.getD 59 0⟩

/-- The bytes its CRC covers. -/
def Flit.covered (f : Flit) : List Nat := wordBytes ([f.header % 2 ^ 32, f.header / 2 ^ 32] ++ f.slots)

/-- Does the flit's CRC check (R232)? -/
def Flit.crcOk (f : Flit) : Bool := decide (crc64 f.covered = f.crc)

/-- What the FEC makes of a received flit: the flit, where both codewords decode, the bytes corrected and the codewords that do not decode. -/
def fecReceive (v : Nat) : Option Flit × Nat × Nat :=
  let bytes := flitBytes v
  match fecDecode (codewordOf 0 bytes), fecDecode (codewordOf 1 bytes) with
  | some a, some b => (some (Flit.ofBytes (interleave a.1 b.1)), a.2 + b.2, 0)
  | some a, none => (none, a.2, 1)
  | none, some b => (none, b.2, 1)
  | none, none => (none, 0, 2)

/-- The 256 bytes that a port sends for a header and a payload, as one number: CRC and parity follow (R231, R232). -/
def flitImage (header : Nat) (slots : List Nat) : Nat :=
  let f : Flit := ⟨header, slots, 0⟩
  let crc := crc64 f.covered
  let body := f.covered ++ wordBytes [crc % 2 ^ 32, crc / 2 ^ 32]
  let part (c : Nat) : List Nat := fecParity (codewordOf c body)
  natBe (body ++ part 0 ++ part 1).reverse

/-- Fields of a flit header (R231). -/
def Flit.kind (f : Flit) : Nat := f.header / 2 ^ 36 % 4

end Sys2Proof.Machine
end

