-- ==== Sys2Proof/Machine/Links.lean ====
section
/-! DEFINITION. Cofeben ports and the switch core as commands (R225 to R255): flits received, packets transmitted, replay, link
failure, spill, ageing, request timeouts and PATH_LOST. -/

namespace Sys2Proof.Machine

/-! ### Port state (R253) -/

/-- Move a port to a state. -/
def State.setLink (s : State) (l st : Nat) : State := s.setRegF (Reg.LNK_STATUS l) 31 29 st

/-- A port enters DOWN. -/
def State.linkDown (s : State) (l cause : Nat) : State :=
  let s := ((s.setLink l 4).setRegF (Reg.LNK_STATUS l) 23 16 0).count (Reg.LNK_DOWNS l) 1
  (s.cause (Reg.LNK_IRQ_CAUSE l) 2).report 2 0x0030 10 l none 0 [cause, s.regN (Reg.LNK_PEER l)]

/-- The link has failed (R253, R254): flush, DOWN; in TRAINING there is nothing to flush. Cause 1 replay limit, 2 GCM. -/
def State.linkFail (s : State) (l cause : Nat) : State :=
  if s.portOpen l then (s.flush l).linkDown l cause else if s.link l = 1 then s.linkDown l cause else s

/-! ### Receiving (R231 to R237) -/

/-- Is a packet well-formed for a switch core (R237)? -/
def Packet.usable (k : Packet) : Bool :=
  decide (1 ≤ k.proto) && decide (k.proto ≤ 4) && decide (k.tkind ≤ 2) && decide (1 ≤ k.len) && decide (k.len ≤ 10) && decide (k.hops ≤ 48)

/-- May a packet pass a gateway port: a TC6 request, or the TC0 response of one (R256)? -/
def Packet.gatewayKind (k : Packet) : Bool :=
  decide (k.proto = 3) && ((decide (k.tc = 6) && decide (k.tkind = 0)) || (decide (k.tc = 0) && decide (k.tkind ≠ 0)))

/-- A packet leaves staging (R237, R241, R256): discarded, delivered inside, or forwarded, counted. `bad`: it has an uncorrectable word there (R352). -/
def State.ingress (s : State) (l : Nat) (k : Packet) (bad : Bool) : State :=
  let t := l / 3
  let s := s.bandwidthBytes (linkTile t) (l % 3) 0 (32 * k.len)
  let k := { k with hops := k.hops + 1 }
  let gone (s : State) : State := s.giveCredit l k.pool k.len
  if bad then (gone s).bufferError l k
  else if !k.usable then (gone s).discard t
  else if s.isGateway l && (!k.gatewayKind || decide (k.dstCell ≠ s.cell)) then (gone s).discard t
  else
    let transit := match s.outPort k with | none => false | some _ => true
    let s := if transit then s.count64 (Reg.SW_FWD_LO t) 1 else s
    s.route k l 32

/-- The packets that complete within a flit's slots: what a packet begun earlier has, the slots left, and the start bits from this
slot on (R231). -/
def assemble (start : Nat) : List Nat → List (List Nat) → Nat → List Packet × List Nat
  | cur, [], _ => ([], cur)
  | cur, sl :: rest, i =>
    let cur' := if cur.isEmpty then (if start / 2 ^ i % 2 = 1 then sl else []) else cur ++ sl
    if cur'.isEmpty then assemble start [] rest (i + 1)
    else
      let k := Packet.ofWords cur'
      if 8 * max 1 k.len ≤ cur'.length then
        let (ks, tail) := assemble start [] rest (i + 1)
        (k :: ks, tail)
      else assemble start cur' rest (i + 1)

/-- The seven slots of a payload, eight words each. -/
def slotList (ws : List Nat) : List (List Nat) := (List.range 7).map (fun i => (ws.drop (8 * i)).take 8)

/-- Is a flit sequence acknowledged by ack (serial over 12 bits)? -/
def flitAcked (seq ack : Nat) : Bool := decide ((ack + 4096 - seq % 4096) % 4096 < 2048)

/-- Take the acknowledgement of a flit (R233): the flits it covers leave the replay buffer, with the packets that end in them; progress ends the count of
replays in a row. -/
def State.takeAck (s : State) (l : Nat) (f : Flit) : State :=
  if nfld f.header 39 39 = 0 then s
  else
    let ack := nfld f.header 51 40
    let q := s.port l
    if ack ≠ q.acked ∧ flitAcked q.acked ack then
      s.modPort l (fun q => { q with acked := ack, replays := 0, replay := q.replay.filter (fun e => !flitAcked e.seq ack),
                                     flying := q.flying.filter (fun e => !flitAcked e.1 ack) })
    else s

/-- Take credits returned to a pool: VC 0 to 15, 16 the shared pool, 31 none (R231, R234). -/
def State.takeCredit (s : State) (l vc n : Nat) : State :=
  if vc < 16 then s.modPort l (fun q => { q with used := Tbl.modify (fun _ => 0) q.used vc (· - n) })
  else if vc = 16 then s.modPort l (fun q => { q with sharedUsed := q.sharedUsed - n }) else s

/-- Credit to return in a flit: the first pool that has some, at most 511 slots (which pools go first the spec does not say: the lowest, log entry 62);
31 when there is none (R231, R234). -/
def nextReturn (t : Tbl Nat) : (Nat × Nat) × Tbl Nat :=
  match t with
  | [] => ((31, 0), [])
  | (vc, n) :: _ => ((vc, min 511 n), Tbl.set (fun _ => 0) t vc (n - 511))

/-- Send a flit (R231): the header carries the latest acknowledgement, nak where it is due, and credit. -/
def State.emitFlit (s : State) (l seq kind start : Nat) (slots : List Nat) : State :=
  let q := s.port l
  let (a, r) := nextReturn q.returns
  let (b, r) := nextReturn r
  let header := seq % 4096 * 2 ^ 52 + (q.expect + 4095) % 4096 * 2 ^ 40 + flag q.gotAny 39 + flag (decide (q.nak = 1)) 38 + kind * 2 ^ 36
    + a.1 * 2 ^ 31 + a.2 * 2 ^ 22 + b.1 * 2 ^ 17 + b.2 * 2 ^ 8 + start
  let s := s.modPort l (fun q => { q with returns := r, nak := if q.nak = 1 then 2 else q.nak })
  (s.count64 (Reg.LNK_TX_FLITS_LO l) 1).emit (.flit l (flitImage header ((slots ++ List.replicate 56 0).take 56)))

/-- Send a flit of the sequence, DATA (0) or TAG (3), and keep it for replay (R233). -/
def State.sendFlit (s : State) (l kind start : Nat) (slots : List Nat) : State :=
  let seq := (s.port l).nextFlit
  (s.emitFlit l seq kind start slots).modPort l (fun q =>
    { q with replay := q.replay ++ [⟨seq, kind, start, slots⟩], nextFlit := (seq + 1) % 4096 })

/-- Retransmit every kept flit (R233); where as many replays in a row as the limit have passed without progress, the link fails. -/
def State.replayAll (s : State) (l : Nat) : State :=
  let limit := max 1 (s.regF (Reg.LNK_REPLAY_CTRL l) 7 0)
  if limit ≤ (s.port l).replays then s.linkFail l 1
  else
    let s := (s.count (Reg.LNK_REPLAYS l) 1).cause (Reg.LNK_IRQ_CAUSE l) 8
    let s := s.modPort l (fun q => { q with replays := q.replays + 1 })
    (s.port l).replay.foldl (fun s e => s.emitFlit l e.seq e.kind e.start e.slots) s

/-- A discarded or out-of-sequence flit: nak is set once, until a flit has been accepted (R233). -/
def State.nakFlit (s : State) (l : Nat) : State := s.modPort l (fun q => { q with nak := if q.nak = 0 then 1 else q.nak })

/-- Packets leave staging in order; the one of number `ue`, if any, has an uncorrectable word. -/
def State.ingressAll (s : State) (l : Nat) (ks : List Packet) (ue : Option Nat) : State :=
  (ks.mapIdx (fun i k => (k, decide (some i = ue)))).foldl (fun s x => s.ingress l x.1 x.2) s

/-- The packets that the payloads of DATA flits complete, in order (R231): start bits and words of each. -/
def State.assembleAll (s : State) (l : Nat) : List (Nat × List Nat) → State × List Packet
  | [] => (s, [])
  | (start, ws) :: rest =>
    let (ks, tail) := assemble start (s.port l).partialWords (slotList ws) 0
    let (s, more) := (s.modPort l (fun q => { q with partialWords := tail })).assembleAll l rest
    (s, ks ++ more)

/-- The plain words of payload j of a group. -/
def plainWords (key iv j : Nat) (ws : List Nat) : List Nat := bytesWords (gcmPayload key iv j (wordBytes ws))

/-- Accept the payload of a DATA or TAG flit in sequence (R231, R233). On an encrypted port the packets of a group wait for its tag: seven payloads and
the tag over them (R235). -/
def State.acceptFlit (s : State) (l : Nat) (f : Flit) (ue : Option Nat) : State :=
  let enc := decide (s.regF (Reg.LNK_STATUS l) 27 27 = 1)
  let s := s.count64 (Reg.LNK_RX_FLITS_LO l) 1
  let s := s.modPort l (fun q => { q with expect := (q.expect + 1) % 4096, gotAny := true, nak := 0 })
  if f.kind = 3 then
    let q := s.port l
    let iv := gcmIv q.keyId q.rxGroup
    let tag := gcmTag q.rxKey iv (wordBytes (q.group.flatMap (·.2)))
    if enc && decide (q.group.length = 7) && decide (wordBytes (f.slots.take 4) = tag) then
      let plain := q.group.mapIdx (fun j e => (e.1, plainWords q.rxKey iv j e.2))
      let (s, ks) := (s.modPort l (fun q => { q with group := [], rxGroup := q.rxGroup + 1 })).assembleAll l plain
      s.ingressAll l ks ue
    else if enc then ((s.count (Reg.LNK_GCM_FAIL l) 1).cause (Reg.LNK_IRQ_CAUSE l) 16).linkFail l 2
    else s
  else if enc then s.modPort l (fun q => { q with group := q.group ++ [(nfld f.header 6 0, f.slots)] })
  else
    let (s, ks) := s.assembleAll l [(nfld f.header 6 0, f.slots)]
    s.ingressAll l ks ue

/-- FLIT_RECEIVE (R231 to R235, R253). `ue`: which of the packets that this flit lets leave staging has an uncorrectable word there (R352). -/
def execFlitReceive (l : Fin 12) (f : BitVec 2048) (s : State) (ue : Option (Fin 64) := none) : Res :=
  act s fun s =>
    let l := l.val
    let (got, fixed, lost) := fecReceive f.toNat
    if !s.portOpen l then
      match got with
      | some x => if x.crcOk ∧ x.kind = 0 then (List.range 7).foldl (fun s i => if x.header / 2 ^ i % 2 = 1 then s.discard (l / 3) else s) s else s
      | none => s
    else
      let s := s.count64 (Reg.LNK_FEC_CORR_LO l) fixed
      match got with
      | none => ((s.count (Reg.LNK_FEC_UNCORR l) lost).cause (Reg.LNK_IRQ_CAUSE l) 4).nakFlit l
      | some x =>
        if !x.crcOk then (s.count (Reg.LNK_CRC_ERR l) 1).nakFlit l
        else
          let s := s.takeAck l x
          let s := (s.takeCredit l (nfld x.header 35 31) (nfld x.header 30 22)).takeCredit l (nfld x.header 21 17) (nfld x.header 16 8)
          let s := if nfld x.header 38 38 = 1 then s.replayAll l else s
          if !s.portOpen l ∨ x.kind = 1 ∨ x.kind = 2 then s
          else if nfld x.header 63 52 = (s.port l).expect then s.acceptFlit l x (ue.map (·.val))
          else s.nakFlit l

/-- ACK_TIMEOUT (R233): no acknowledgement has advanced for ack_timeout hub cycles while flits are kept. -/
def execAckTimeout (l : Fin 12) (s : State) : Res :=
  act s fun s => if s.portOpen l.val && !(s.port l.val).replay.isEmpty then s.replayAll l.val else s

/-! ### Transmitting (R231 to R235, R244) -/

/-- How a packet's credit would be drawn (R234): private (false), shared (true), or not at all. -/
def Port.creditFor (q : Port) (k : Packet) : Option Bool :=
  if k.len + Tbl.get (fun _ => 0) q.used (vcNum k.tc k.vc) ≤ 64 then some false
  else if k.len + q.sharedUsed ≤ 7168 then some true else none

/-- The age limit in control-bus cycles (R252, R261). -/
def State.ageLimit (s : State) : Nat := max 1 (s.regN Reg.SW_AGE_LIMIT)

/-- The first entry of each sub-queue of a class and channel, if on chip and not aged out (R241, R252). -/
def State.heads (s : State) (l tc vc : Nat) : List QEntry :=
  let q := (s.port l).queue
  (List.range 33).filterMap (fun a => match q.find? (fun e => e.inSub tc vc a) with
    | some e => if e.onChip && decide (s.lcc - e.since ≤ s.ageLimit) then some e else none
    | none => none)

/-- Does a packet at the head of its sub-queue wait for a partner to combine with (R248)? -/
def State.holds (s : State) (l : Nat) (e : QEntry) : Bool :=
  e.pkt.combinable && !e.holdOver && decide (s.regF (Reg.SW_CLASS (l / 3) e.pkt.tc) 23 18 ≠ 0)

/-- Entries of a class and channel that may be sent: with credit and, unless `late`, not held for a partner. Sub-queues follow one
another from the one after the account this queue served last (R244). -/
def State.sendable (s : State) (l tc vc : Nat) (late : Bool) : List QEntry :=
  let q := s.port l
  let hs := (s.heads l tc vc).filter (fun e => (q.creditFor e.pkt).isSome && (late || !s.holds l e))
  let last := Tbl.get (fun _ => 32) q.acctTurn (vcNum tc vc)
  hs.filter (fun e => decide (last < e.acct)) ++ hs.filter (fun e => decide (e.acct ≤ last))

/-- The packet a class would send: its channels in turn (R244). -/
def State.classPick (s : State) (l tc : Nat) (late : Bool) : Option QEntry :=
  let first := 1 - Tbl.get (fun _ => 1) (s.port l).vcTurn tc
  match s.sendable l tc first late with
  | e :: _ => some e
  | [] => (s.sendable l tc (1 - first) late).head?

/-- The quantum of a class in slots (R227, R261). -/
def State.quantum (s : State) (l tc : Nat) : Nat := max 1 (s.regF (Reg.SW_CLASS (l / 3) tc) 15 8)

/-- Deficit round-robin over TC2 to TC7 (R227, R244): the packet and the port's new turn and deficits. -/
def State.drr (s : State) (l : Nat) (late : Bool) : Nat → Nat → Tbl Nat → Option (QEntry × Nat × Tbl Nat)
  | 0, _, _ => none
  | fuel + 1, c, d =>
    let next := if c = 7 then 2 else c + 1
    let have_ := Tbl.get (fun _ => 0) d c
    match s.classPick l c late with
    | some e =>
      if e.pkt.len ≤ have_ then some (e, c, Tbl.set (fun _ => 0) d c (have_ - e.pkt.len))
      else s.drr l late fuel next (Tbl.modify (fun _ => 0) d next (· + s.quantum l next))
    | none => s.drr l late fuel next (Tbl.modify (fun _ => 0) (Tbl.set (fun _ => 0) d c 0) next (· + s.quantum l next))

/-- The packet a port sends next: TC0, then TC1, then the others by deficit round-robin (R244). -/
def State.pick (s : State) (l : Nat) (late : Bool) : Option (QEntry × Nat × Tbl Nat) :=
  let q := s.port l
  match s.classPick l 0 late with
  | some e => some (e, q.turn, q.deficits)
  | none =>
    match s.classPick l 1 late with
    | some e => some (e, q.turn, q.deficits)
    | none => s.drr l late 80 q.turn q.deficits

/-- The packet a port sends next: one that is not held for a partner, or, where nothing else can use the link, one that is (R248). -/
def State.nextPick (s : State) (l : Nat) : Option (QEntry × Nat × Tbl Nat) :=
  match s.pick l false with
  | some x => some x
  | none => s.pick l true

/-- An entry leaves the queues of a port; what it stood in the way of combines now (R245). -/
def State.takeEntry (s : State) (l : Nat) (e : QEntry) : State :=
  let s := s.modPort l (fun q => { q with queue := q.queue.erase e })
  s.combineAll l (s.port l).queue.length

/-- A packet begins transmission: it draws its credit, private or shared, and the round robins move on (R234, R244). -/
def State.beginPacket (s : State) (l : Nat) (e : QEntry) (turn : Nat) (d : Tbl Nat) : State :=
  let shared := ((s.port l).creditFor e.pkt).getD false
  let k := { e.pkt with sc := shared }
  let key := vcNum k.tc k.vc
  let s := (s.takeEntry l e).modPort l (fun q =>
    { q with used := (if shared then q.used else Tbl.modify (fun _ => 0) q.used key (· + k.len)),
             sharedUsed := (if shared then q.sharedUsed + k.len else q.sharedUsed), current := some (k, k.slots), turn := turn, deficits := d,
             vcTurn := Tbl.set (fun _ => 1) q.vcTurn k.tc k.vc, acctTurn := Tbl.set (fun _ => 32) q.acctTurn key e.acct })
  let who : Origin := if e.acct < 32 then .ofPart e.acct else ⟨3, none, none, some k.src⟩
  let addr := if k.proto = 1 then some k.addr else none
  let s := (s.event (linkTile (l / 3)) ⟨0x40, l % 3, 1, addr, some k.tc, who⟩).event (linkTile (l / 3)) ⟨0x41, l % 3, 32 * k.len, addr, some k.tc, who⟩
  s.bandwidthBytes (linkTile (l / 3)) (l % 3) 1 (32 * k.len)

/-- Fill the slots of a flit (R231): what is left of the packet in transmission, then the packets that follow by R244. A packet the gateway rule bars is
discarded (R256). The slots, the bits of those in which packets begin, and the packets that end. -/
def State.fillFlit (s : State) (l : Nat) : Nat → List (List Nat) → Nat → List Packet → State × List (List Nat) × Nat × List Packet
  | 0, slots, start, ended => (s, slots, start, ended)
  | n + 1, slots, start, ended =>
    if slots.length = 7 then (s, slots, start, ended)
    else match (s.port l).current with
      | some (k, [sl]) => (s.modPort l (fun q => { q with current := none })).fillFlit l n (slots ++ [sl]) start (ended ++ [k])
      | some (k, sl :: rest) => (s.modPort l (fun q => { q with current := some (k, rest) })).fillFlit l n (slots ++ [sl]) start ended
      | _ => match s.nextPick l with
        | none => (s, slots, start, ended)
        | some (e, turn, d) =>
          if s.isGateway l && (!e.pkt.gatewayKind || decide (e.pkt.dstCell = s.cell)) then
            ((s.takeEntry l e).discard (l / 3)).fillFlit l n slots start ended
          else (s.beginPacket l e turn d).fillFlit l n slots (start + 2 ^ slots.length) ended

/-- Send a DATA flit of these slots; an encrypted port sends and keeps the ciphertext (R235). -/
def State.sendData (s : State) (l : Nat) (slots : List (List Nat)) (start : Nat) (ended : List Packet) : State :=
  let q := s.port l
  let plain := (slots.flatten ++ List.replicate 56 0).take 56
  let enc := decide (s.regF (Reg.LNK_STATUS l) 27 27 = 1)
  let ws := if enc then plainWords q.txKey (gcmIv q.keyId q.txGroup) q.sent.length plain else plain
  (s.modPort l (fun q => { q with flying := q.flying ++ ended.map (fun k => (q.nextFlit, k)), sent := if enc then q.sent ++ [ws] else [] })).sendFlit l 0 start ws

/-- Send the TAG flit of a group of seven (R235). -/
def State.sendTag (s : State) (l : Nat) : State :=
  let q := s.port l
  let tag := gcmTag q.txKey (gcmIv q.keyId q.txGroup) (wordBytes q.sent.flatten)
  (s.modPort l (fun q => { q with sent := [], txGroup := q.txGroup + 1 })).sendFlit l 3 0 (bytesWords tag)

/-- PORT_TRANSMIT (R231, R233 to R235, R244, R256): the port sends its next flit: the TAG that is due; a DATA flit of the packets that follow; or IDLE,
where there is none or 512 flits are unacknowledged. An encrypted port with nothing to send completes its group with empty DATA flits, so that the packets in
it can be released (log entry 65). A port whose packets all lack credit counts a stall. `err`: a word of the packet it takes next is corrected (1), or uncorrectable (2)
(R351, R352, R366). -/
def execPortTransmit (l : Fin 12) (s : State) (err : Fin 3 := 0) : Res :=
  act s fun s =>
    let l := l.val
    if !s.portOpen l then s
    else
      let s := match (if err = 0 then none else s.nextPick l) with
        | some (e, _, _) => if err = 1 then s.corrected 12 (l / 3) 10 1 else (s.takeEntry l e).bufferError l e.pkt
        | none => s
      let q := s.port l
      let enc := decide (s.regF (Reg.LNK_STATUS l) 27 27 = 1)
      if 512 ≤ q.replay.length then s.emitFlit l 0 1 0 []
      else if enc && decide (7 ≤ q.sent.length) then s.sendTag l
      else
        let (s, slots, start, ended) := s.fillFlit l 64 [] 0 []
        if !slots.isEmpty then s.sendData l slots start ended
        else
          let s := if (s.port l).queue.any (·.onChip) then s.count (Reg.LNK_CRD_STALL l) 1 else s
          if enc && !(s.port l).sent.isEmpty then s.sendData l [] 0 [] else s.emitFlit l 0 1 0 []

/-- COMBINE_HOLD_EXPIRE (R248): the heads of a class and channel wait no longer for a partner. -/
def execCombineHoldExpire (l : Fin 12) (tc : Fin 8) (vc : Fin 2) (s : State) : Res :=
  act s fun s =>
    let hs := s.heads l.val tc.val vc.val
    s.modPort l.val (fun q => { q with queue := q.queue.map (fun e => if hs.contains e then { e with holdOver := true } else e) })

/-- Where a spilled or staged packet can go now: on chip by rules 1 and 2, and a staged one to spill by rule 3, behind what its
sub-queue has in spill (R241, R243). -/
def State.returnTo (s : State) (l : Nat) (e : QEntry) : Option Place :=
  let q := s.port l
  let kept := slotsOf (q.queue.filter (fun x => decide (x.pkt.tc = e.pkt.tc) && decide (x.acct = e.acct) && decide (x.place = .reserved)))
  let onChip : Option Place :=
    if kept + e.pkt.len ≤ s.minimum e.pkt.tc e.acct then some .reserved
    else if s.belowThreshold l e.pkt.tc e.pkt.vc then some .shared else none
  if e.place = .spill then onChip
  else
    let sub := q.spilled e.pkt.tc e.pkt.vc e.acct
    if sub.isEmpty && onChip.isSome then onChip
    else if (segmentsOf sub).length < s.spillCap l ∧ (s.spillPlace sub e.pkt.len).isSome then some .spill else none

/-- The first packet of each sub-queue that is in spill or staging, in order. -/
def Port.offChip (q : Port) : List QEntry :=
  q.queue.filter (fun e => !e.onChip && decide ((q.queue.find? (fun x => x.inSub e.pkt.tc e.pkt.vc e.acct && decide (x.place = e.place))) = some e))

/-- Put an entry of a port's queues where it goes now. -/
def State.replaceEntry (s : State) (l : Nat) (e e' : QEntry) : State :=
  s.modPort l (fun q => { q with queue := q.queue.map (fun x => if x = e then e' else x) })

/-- SPILL_RETURN (R243): as room frees, the first packet that can come back on chip, or leave staging, does. One that has an uncorrectable word (`ue`), or
whose spill lines are poisoned, is discarded and a PATH_LOST sent (R352). -/
def execSpillReturn (l : Fin 12) (s : State) (ue : Bool := false) : Res :=
  act s fun s =>
    let l := l.val
    match (s.port l).offChip.findSome? (fun e => (s.returnTo l e).map (fun p => (e, p))) with
    | none => s
    | some (e, p) =>
      let (s, k, bad) := if e.place = .spill then s.spillRead e.spillAt e.pkt.len else (s, e.pkt, false)
      if ue || bad then ((s.takeEntry l e).leaveStaging e).bufferError l e.pkt
      else
        let s := s.leaveStaging e
        if p = .spill then
          let at_ := (s.spillPlace ((s.port l).spilled e.pkt.tc e.pkt.vc e.acct) e.pkt.len).getD 0
          (s.replaceEntry l e { e with place := p, spillAt := at_ }).toSpill l at_ e.pkt e.acct
        else
          let s := s.replaceEntry l e { e with place := p, pkt := k }
          s.combineAll l (s.port l).queue.length

/-- PACKET_AGED (R252): the i-th packet of a port's queues, at the head of its sub-queue and older than the limit, is discarded. -/
def execPacketAged (l : Fin 12) (i : Nat) (s : State) : Res :=
  act s fun s =>
    let l := l.val
    match (s.port l).queue[i]? with
    | none => s
    | some e =>
      let head := decide ((s.port l).queue.find? (fun x => x.inSub e.pkt.tc e.pkt.vc e.acct) = some e)
      if head && decide (s.ageLimit < s.lcc - e.since) then
        (((s.takeEntry l e).leaveStaging e).count (Reg.SW_AGED (l / 3)) 1).cause (Reg.SW_IRQ_CAUSE (l / 3)) 4
      else s

/-! ### Requests (R249, R252, R255) -/

/-- Does a request need a composition that it does not carry (R50)? -/
def FabReq.lacksComp (r : FabReq) : Bool :=
  decide (r.proto = 1) && decide (r.tc = 2 ∨ r.tc = 3) && decide (wordAt r.body 0 / 2 ^ 16 = 0xFFFF)

/-- Does the waiter need no composition: a MSG_SEND that reads its source (R50, R257)? -/
def State.sendsMsg (s : State) (w : Waiter) : Bool :=
  match w with
  | .cmd p c q => (match s.cmd p c q with | some x => decide (x.opcode = 0x0F) | none => false)
  | _ => false

/-- A unit's request for another node: refused STALE_EPOCH without a composition (R50). -/
def State.unitSend (s : State) (r : FabReq) : State :=
  if r.lacksComp && !s.sendsMsg r.waiter then
    match r.waiter with
    | .cmd p c q => (if wordAt r.body 0 % 256 = 0x01 ∨ wordAt r.body 0 % 256 = 0x04 then s else s.ackCmd p c q).failCmd p c q stStaleEpoch
    | .core _ => s.arrive ⟨r.waiter, r.addr, 0, false, stStaleEpoch⟩
    | .fwd _ => s.arrive ⟨r.waiter, r.addr, 0, false, stStaleEpoch⟩
    | _ => s
  else
    let typ := wordAt r.body 0 % 256
    if r.proto = 1 ∧ (typ = 0x02 ∨ typ = 0x03 ∨ typ = 0x04) then
      s.numbered.sendOrLose { r with wid := s.homes.nextWrite }
    else s.sendOrLose r

/-- FABRIC_REQUEST_SEND (R226, R249). -/
def execFabricRequestSend (r : FabReq) (s : State) : Res := act s fun s => s.unitSend r

/-- An attempt has failed (R255): sent once more on the other rail, or ended TARGET_LOST. -/
def State.attemptFailed (s : State) (r : OutReq) : State :=
  let rail := 1 - r.pkt.rail
  let hop := if r.pkt.dstCell = s.cell then some r.pkt.dst else s.gatewayFor r.pkt.dstCell r.pkt.dst
  let openRail := match hop with | some h => s.railOpen rail h | none => false
  if r.pkt.proto = 3 ∨ r.retried ∨ !openRail then s.endLost r
  else
    let k := { r.pkt with rail := rail, retried := true }
    let s := s.modFab (fun x => { x with reqs := x.reqs.map (fun q => if q = r then { q with pkt := k, retried := true, sentAt := s.lcc } else q) })
    let s := s.count Reg.SW_RETRIES 1
    let s := match r.part with
      | some p => s.count (Reg.PART_FAB_RETRIES p) 1
      | none => s
    s.route k 12 (if k.tc = 4 ∨ k.tc = 1 then 32 else r.part.getD 32)

/-- The request timeout (R252). -/
def State.requestTimeout (s : State) : Nat := max (max 1 (s.regN Reg.SW_REQ_TIMEOUT)) (52 * s.ageLimit)

/-- REQUEST_TIMEOUT (R252, R255). -/
def execRequestTimeout (dst : Fin 4096) (tc : Fin 8) (seq : Word) (s : State) : Res :=
  act s fun s =>
    match s.outstanding dst.val tc.val seq.toNat with
    | none => s
    | some r => if s.requestTimeout < s.lcc - r.sentAt then (s.attemptFailed r).settleStalled else s

/-- The class of the request that a lost response answers (R214, R227, R344). -/
def Packet.requestClass (k : Packet) : Nat :=
  if k.proto = 2 then 5 else if k.proto = 3 then 6 else if k.proto = 4 then 7
  else if k.typ = 0x10 then 2 else if k.typ = 0x13 then 4 else if k.typ = 0x21 then 1 else k.answersClass

/-- PATH_LOST arrives (R249, R255): only one for the attempt in flight ends it. -/
def execPathLost (k : Packet) (s : State) : Res :=
  act s fun s =>
    if k.tkind ≠ 2 then s
    else
      let s := s.receive k
      let lost := Packet.ofWords k.body
      let r := if lost.tkind = 0 then s.outstanding lost.dst lost.tc lost.seq
        else s.outstanding lost.src lost.requestClass lost.seq
      match r with
      | none => s
      | some r => if r.retried && !lost.retried then s else (s.attemptFailed r).settleStalled

end Sys2Proof.Machine
end

