-- ==== Sys2Proof/Machine/Xlate.lean ====
section
/-! DEFINITION. Translation (R163 to R177): page-table entries and walks, the translation units' buffers, fault records, the pages
a command has translated. A physical address is a 52-bit fabric address, or 2^60 plus a T0 address. -/

namespace Sys2Proof.Machine

/-- The kinds of fault (R172). -/
def fkNotPresent : Nat := 1
def fkPermission : Nat := 2
def fkFormat : Nat := 3
def fkBadTable : Nat := 4
def fkAddress : Nat := 5
def fkPoison : Nat := 6
def fkRoot : Nat := 7

/-- The kinds of access in a fault record (R173). -/
def acRead : Nat := 0
def acWrite : Nat := 1
def acAtomic : Nat := 2
def acFetch : Nat := 3

/-! ### Entries (R166, R168) -/

/-- Does a leaf grant the access (R168)? -/
def leafGrants (e access : Nat) : Bool :=
  let r := decide (nfld e 2 2 = 1)
  let w := decide (nfld e 3 3 = 1)
  if access = acRead then r else if access = acWrite then w else if access = acAtomic then r && w else decide (nfld e 4 4 = 1)

/-- Is a valid entry malformed at its level (R166, R172)? -/
def entryMalformed (level e : Nat) : Bool :=
  let leaf := decide (nfld e 1 1 = 1)
  let tier := nfld e 7 6
  let addr := nfld e 51 12 * 4096
  decide (nfld e 63 52 ≠ 0) || decide (nfld e 8 8 ≠ 0) || decide (nfld e 5 5 ≠ 0) || decide (2 ≤ tier)
    || (leaf && decide (3 ≤ level)) || (!leaf && decide (level = 0)) || (!leaf && decide (tier ≠ 0))
    || (leaf && decide (addr % 2 ^ (12 + 9 * level) ≠ 0))
    || (leaf && decide (tier = 1) && (decide (level = 2) || decide (Config.t0Bytes < addr + 2 ^ (12 + 9 * level))))

/-- The physical address a leaf gives a virtual address within its page. -/
def physOf (leaf log2 va : Nat) : Nat :=
  (if nfld leaf 7 6 = 1 then t0Flag else 0) + nfld leaf 51 12 * 4096 + va % 2 ^ log2

/-- What a walk or a translation answers: a leaf and its page size; a fault with kind, level and entry; or a table line that its home
must first take back from a host. -/
inductive XOut where
  | ok (leaf log2 : Nat)
  | fault (kind level entry : Nat)
  | blocked (line : Nat)
  deriving DecidableEq, Repr

/-- Walk from a table at a level downward (R165, R167, R172). `table` is a fabric offset of this node. -/
def State.walk (s : State) (p va access : Nat) : Nat → Nat → XOut
  | level, table =>
    let o := table + 8 * (va / 2 ^ (12 + 9 * level) % 512)
    if !s.readable (o / 64) then .blocked (o / 64)
    else if s.t1Poison o then .fault fkPoison level 0
    else
      let e := s.t1Read o 8
      if e % 2 = 0 then .fault fkNotPresent level e
      else if entryMalformed level e then .fault fkFormat level e
      else if nfld e 1 1 = 1 then
        if leafGrants e access then .ok e (12 + 9 * level) else .fault fkPermission level e
      else
        let next := nfld e 51 12 * 4096
        if next / 2 ^ 40 ≠ s.node ∨ s.extentPart (next % 2 ^ 40) ≠ some p then .fault fkBadTable level e
        else match level with
          | 0 => .fault fkFormat level e
          | n + 1 => s.walk p va access n (next % 2 ^ 40)

/-! ### The units' buffers (R169) -/

/-- Does a buffered leaf cover the address? -/
def TlbEntry.covers (t : TlbEntry) (unit p va : Nat) : Bool :=
  decide (t.unit = unit) && decide (t.part = p) && decide (t.va ≤ va) && decide (va < t.va + t.pages * 2 ^ t.log2)

/-- The leaf a buffered entry gives a page it covers: the first page's, moved on by whole pages. -/
def TlbEntry.leafFor (t : TlbEntry) (va : Nat) : Nat := t.leaf + (va - t.va) / 2 ^ t.log2 * 2 ^ t.log2

/-- The set of an entry among the 1,024 of its unit's buffer of 8,192 entries and 8 ways; the spec gives no index (DESIGN CHOICE, log entry 10). -/
def TlbEntry.set (t : TlbEntry) : Nat := t.va / 2 ^ t.log2 / t.pages % 1024

/-- Put a leaf into a unit's buffer; the oldest entry of a full set goes (log entry 10). -/
def State.fillTlb (s : State) (t : TlbEntry) : State :=
  let keep := s.xlt.leaves.filter (fun x => !x.covers t.unit t.part t.va)
  let mates := keep.filter (fun x => decide (x.unit = t.unit) && decide (x.set = t.set))
  let rest := keep.filter (fun x => !(decide (x.unit = t.unit) && decide (x.set = t.set)))
  { s with xlt := { s.xlt with leaves := t :: mates.take 7 ++ rest } }

/-- The sixteen leaves of the aligned group of a page, if all of one size are mergeable (R169): the first of them. -/
def State.groupLeaf16 (s : State) (groupAt : Nat) (log2 : Nat) : Option Nat :=
  let e (i : Nat) := s.t1Read (groupAt + 8 * i) 8
  let e0 := e 0
  let level := (log2 - 12) / 9
  let same (i : Nat) : Bool :=
    decide (nfld (e i) 8 0 = nfld e0 8 0) && !entryMalformed level (e i) && decide (nfld (e i) 1 1 = 1)
      && decide (nfld (e i) 51 12 * 4096 = nfld e0 51 12 * 4096 + i * 2 ^ log2)
  if decide (e0 % 2 = 1) && !s.t1Poison groupAt && !s.t1Poison (groupAt + 64)
      && (List.range 16).all same then some e0
  else none

/-- Fill the buffer after a walk found the leaf at a table entry: merged with its fifteen neighbours where it can be (R169). -/
def State.fillLeaf (s : State) (unit p va leaf log2 entryAt : Nat) : State :=
  let groupAt := entryAt / 128 * 128
  match s.groupLeaf16 groupAt log2 with
  | some e0 =>
    let base := va / 2 ^ (log2 + 4) * 2 ^ (log2 + 4)
    (s.fillTlb ⟨unit, p, base, log2, 16, e0⟩).count (Reg.PART_XLT_MERGES p) 1
  | none => s.fillTlb ⟨unit, p, va / 2 ^ log2 * 2 ^ log2, log2, 1, leaf⟩

/-- Where the tables a walk passes stand: (level, table) pairs it would read, from a table downward, as long as entries name tables. -/
def State.walkPath (s : State) (va : Nat) : Nat → Nat → List (Nat × Nat)
  | level, table =>
    let e := s.t1Read (table + 8 * (va / 2 ^ (12 + 9 * level) % 512)) 8
    (level, table) :: (match level with
      | 0 => []
      | n + 1 => if e % 2 = 1 ∧ nfld e 1 1 = 0 then s.walkPath va n (nfld e 51 12 * 4096 % 2 ^ 40) else [])

/-- Keep the tables a walk passed in the unit's walk cache of 1,024 entries, from which the oldest goes (R169, log entry 10). -/
def State.fillWalk (s : State) (unit p va : Nat) (path : List (Nat × Nat)) : State :=
  let es := (path.drop 1).map (fun x => (⟨unit, p, x.1, va / 2 ^ (21 + 9 * x.1), x.2⟩ : WalkEntry))
  let keep := s.xlt.tables.filter (fun t => !(es.any (fun e => decide (e.unit = t.unit) && decide (e.part = t.part)
    && decide (e.level = t.level) && decide (e.pfx = t.pfx))))
  let mine := keep.filter (fun t => decide (t.unit = unit))
  let rest := keep.filter (fun t => decide (t.unit ≠ unit))
  { s with xlt := { s.xlt with tables := (es ++ mine).take 1024 ++ rest } }

/-- The lowest table of the walk cache for an address, if it still lies in a live extent of the partition, else the root (R164, R169). -/
def State.walkStart (s : State) (unit p va : Nat) (fromRoot : Bool) : Nat × Nat :=
  let root := s.reg64 (Reg.PART_XLT_ROOT_LO p) % 2 ^ 40
  if fromRoot then (4, root)
  else match (List.range 4).findSome? (fun l => (s.xlt.tables.find? (fun t => decide (t.unit = unit) && decide (t.part = p)
      && decide (t.level = l) && decide (t.pfx = va / 2 ^ (21 + 9 * l)) && decide (s.extentPart t.table = some p))).map (fun t => (l, t.table))) with
    | some x => x
    | none => (4, root)

/-- Drop the buffer entries of a partition that a range of addresses touches (R177). -/
def State.dropXlt (s : State) (p base size : Nat) : State :=
  { s with xlt := {
      leaves := s.xlt.leaves.filter (fun t => !(decide (t.part = p) && decide (t.va < base + size) && decide (base < t.va + t.pages * 2 ^ t.log2)))
      tables := s.xlt.tables.filter (fun t => !(decide (t.part = p) && decide (t.pfx * 2 ^ (21 + 9 * t.level) < base + size)
        && decide (base < (t.pfx + 1) * 2 ^ (21 + 9 * t.level)))) } }

/-- The entry with this index in the units' buffers, leaves first, has a parity error: it is discarded before use (R354). -/
def State.dropParity (s : State) : Option Nat → State
  | none => s
  | some i => { s with xlt := { leaves := s.xlt.leaves.eraseIdx i,
                                tables := if i < s.xlt.leaves.length then s.xlt.tables else s.xlt.tables.eraseIdx (i - s.xlt.leaves.length) } }

/-- Drop every buffer entry of a partition (R164). -/
def State.dropAllXlt (s : State) (p : Nat) : State := s.dropXlt p 0 (2 ^ 57)

/-- Is translation on for the partition (R164, R172)? -/
def State.xltReady (s : State) (p : Nat) : Bool := bitOf (s.reg (Reg.PART_XLT_CTRL p)) 31

/-- Translate one address for an access on a unit (R168 to R172). A walk that finds its leaf reads the group of sixteen that holds it, which its home first
takes back from a host (R167, R169). `fromRoot` is the fresh walk of a RESUME (R175). -/
def State.translate (s : State) (unit p va access : Nat) (fromRoot : Bool) : XOut × State :=
  if 2 ^ 57 ≤ va then (.fault fkAddress 7 0, s)
  else if !s.xltReady p then (.fault fkRoot 7 0, s)
  else
    let k := unit % 4
    let fixed (s : State) (a : Nat) : State := if s.sclRuns k then s.count64 a 1 else s
    let s := fixed s (Reg.SCL_FIX_XLT_LOOKUP_LO k)
    let looked (s : State) (cls : Nat) : State := s.event k ⟨0x07, 0, 1, none, some cls, .ofPart p⟩
    let hit := if fromRoot then none else s.xlt.leaves.find? (fun t => t.covers unit p va)
    match hit with
    | some t =>
      let s := looked s (if t.pages = 1 then 0 else 1)
      let leaf := t.leafFor va
      if leafGrants leaf access then (.ok leaf t.log2, s) else (.fault fkPermission ((t.log2 - 12) / 9) leaf, s)
    | none =>
      let (l, table) := s.walkStart unit p va fromRoot
      let s := (looked (fixed s (Reg.SCL_FIX_XLT_MISS_LO k)) 2).event k ⟨0x08, 0, 1, none, none, .ofPart p⟩
      match s.walk p va access l table with
      | .blocked line => (.blocked line, s)
      | .fault k lv e => (.fault k lv e, s.count64 (Reg.PART_XLT_WALKS_LO p) 1)
      | .ok leaf log2 =>
        let path := s.walkPath va l table
        let at_ := match path.getLast? with
          | some (lv, tb) => tb + 8 * (va / 2 ^ (12 + 9 * lv) % 512)
          | none => table
        match [at_ / 128 * 2, at_ / 128 * 2 + 1].find? (fun g => !s.readable g) with
        | some g => (.blocked g, s)
        | none =>
        let s := s.count64 (Reg.PART_XLT_WALKS_LO p) 1
        (.ok leaf log2, (s.fillWalk unit p va path).fillLeaf unit p va leaf log2 at_)

/-- The unit that translates for a partition at queue time, and for its Winnowers, row units and MOVE channels. -/
def xltUnit (p : Nat) : Nat := p % 4

/-! ### Faults (R62, R173 to R176) -/

/-- Does the command run on a unit with a global number? A command of the MOVE or SYNC queue does not (R47). -/
def Cmd.hasUnit (c : Cmd) : Bool := decide (queueOf c.opcode ≠ some .move) && decide (queueOf c.opcode ≠ some .sync)

/-- The unit a fault record shows (R173): the one its header names, or the one it has been given. -/
def Cmd.shownUnit (c : Cmd) : Nat := if c.unit ≠ 0xFF then c.unit else if c.hasUnit then c.runUnit else 0xFF

/-- The next fault identifier, skipping those of faults not yet ended (R174). -/
def Part.freeFaultId (pt : Part) : Nat :=
  let cand := (List.range (pt.held.length + 1)).map (fun i => (pt.nextFault + i) % 65536)
  (cand.find? (fun i => !(pt.held.any (fun h => decide (h.id = i))))).getD pt.nextFault

/-- The eight words of a fault record (R173). -/
def faultWords (id kind chute seq va opcode unit source level access index entry : Nat) : List Nat :=
  [id * 2 ^ 16 + chute * 2 ^ 8 + kind, seq, va % 2 ^ 32, va / 2 ^ 32 % 2 ^ 32,
   opcode * 2 ^ 24 + unit * 2 ^ 16 + source * 2 ^ 12 + level * 2 ^ 9 + access, index % 2 ^ 32, entry % 2 ^ 32, entry / 2 ^ 32 % 2 ^ 32]

/-- Move waiting faults into the FIFO of 64 while it has room (R62). -/
def Part.admitFaults (pt : Part) : Part :=
  let n := 64 - pt.faults.length
  { pt with faults := pt.faults ++ pt.waiting.take n, waiting := pt.waiting.drop n }

/-- Is the command held or stalled at a fault? -/
def State.atFault (s : State) (p : Nat) (c : Cmd) : Option HeldFault :=
  (s.part p).held.find? (fun h => decide (h.chute = c.chute) && decide (h.seq = c.seq))

/-- Raise a fault of a command (R173, R174): it is held, and its record enters the FIFO or waits for room. A command holds one fault at a time: at
another it only stalls. -/
def State.raiseFault (s : State) (p : Nat) (c : Cmd) (kind level entry va access source index : Nat) : State :=
  if (s.atFault p c).isSome then s
  else
  let id := (s.part p).freeFaultId
  let r : FaultRec :=
    { id := id, kind := kind, chute := c.chute, seq := c.seq,
      words := faultWords id kind c.chute c.seq va c.opcode c.shownUnit source level access index entry }
  let h : HeldFault := { id := id, chute := c.chute, seq := c.seq, va := va, access := access, source := source, index := index }
  let full := decide (64 ≤ (s.part p).faults.length)
  let old := s
  let s := s.modPart p (fun pt =>
    ({ pt with held := pt.held ++ [h], waiting := pt.waiting ++ [r], nextFault := (id + 1) % 65536 }).admitFaults)
  let s := s.count (Reg.PART_XLT_FAULTS p) 1
  let s := State.notify old s false (some p)
  if full then s.pcause p (Reg.PART_XLT_IRQ_CAUSE p) 4 else s

/-- A held fault ends; `drop` says a record still waiting never enters the FIFO (R176). -/
def State.endFault (s : State) (p id : Nat) (drop : Bool) : State :=
  s.modPart p (fun pt =>
    { pt with held := pt.held.filter (fun h => !decide (h.id = id)),
              waiting := if drop then pt.waiting.filter (fun r => !decide (r.id = id)) else pt.waiting })

/-- End every fault of a command (R176). -/
def State.endFaultsOf (s : State) (p : Nat) (c : Cmd) : State :=
  match s.atFault p c with
  | some h => s.endFault p h.id true
  | none => s

/-! ### The pages a command has translated (R170) -/

/-- Does a pin cover the address and grant the access? -/
def Pin.covers (x : Pin) (va access : Nat) : Bool :=
  decide (x.va ≤ va) && decide (va < x.va + 2 ^ x.log2) && leafGrants x.leaf access

/-- The pin of a command for an address and access. -/
def Cmd.pin (c : Cmd) (va access : Nat) : Option Pin := c.pins.find? (fun x => x.covers va access)

/-- Pieces of a range by page: (physical address, length), or none where a page is not translated. -/
def Cmd.pieces (c : Cmd) (access : Nat) : Nat → Nat → Nat → Option (List (Nat × Nat))
  | 0, _, n => if n = 0 then some [] else none
  | fuel + 1, va, n =>
    if n = 0 then some []
    else match c.pin va access with
      | none => none
      | some x =>
        let len := min n (x.va + 2 ^ x.log2 - va)
        (c.pieces access fuel (va + len) (n - len)).map ((physOf x.leaf x.log2 va, len) :: ·)

/-- Fuel for a range: its pages and two more. -/
def pageFuel (n : Nat) : Nat := n / 4096 + 2

/-- The physical pieces of a range of a command's named addresses; none where its translation has not got there. -/
def Cmd.range (c : Cmd) (va n access : Nat) : Option (List (Nat × Nat)) := c.pieces access (pageFuel n) va n

/-- The first address of a range that no pin covers. -/
def Cmd.firstUnpinned (c : Cmd) (access : Nat) : Nat → Nat → Nat → Option Nat
  | 0, va, n => if n = 0 then none else some va
  | fuel + 1, va, n =>
    if n = 0 then none
    else match c.pin va access with
      | none => some va
      | some x =>
        let len := min n (x.va + 2 ^ x.log2 - va)
        c.firstUnpinned access fuel (va + len) (n - len)

/-- A range that a command names (R170): its address, length, access, where it comes from (R173), its index and the unit of work that
first needs it (0: before anything can run). -/
structure Named where
  va : Nat
  len : Nat
  access : Nat
  source : Nat
  index : Nat
  work : Nat
  deriving DecidableEq, Repr

/-- The first named address of a list of ranges that is not translated yet. -/
def Cmd.nextUnpinned (c : Cmd) (l : List Named) : Option (Named × Nat) :=
  l.findSome? (fun r => if 2 ^ 57 < r.va + r.len then (if r.len = 0 then none else some (r, r.va))
    else (c.firstUnpinned r.access (pageFuel r.len) r.va r.len).map (fun va => (r, va)))

/-- Translate an address at issue for a running command (R171): the physical address and how far its page goes; a fault stalls the
unit. -/
inductive Issue where
  | ok (phys len : Nat) (s : State)
  | stop (s : State)

/-- A derived address is translated when it is issued (R171); it waits where a table line must first be taken back. -/
def State.issue (s : State) (p : Nat) (c : Cmd) (unit va access index : Nat) : Issue :=
  match s.translate unit p va access false with
  | (.ok leaf log2, s) => .ok (physOf leaf log2 va) (2 ^ log2 - va % 2 ^ log2) s
  | (.fault k lv e, s) => .stop (s.raiseFault p c k lv e va access 3 index)
  | (.blocked line, s) => .stop (s.want line false)

/-- An access range of derived addresses that passes 2^57 faults before any walk (R172); else `k` goes on. -/
def State.inSpace (s : State) (p : Nat) (c : Cmd) (va n access index : Nat) (k : State → State) : State :=
  if n ≠ 0 ∧ 2 ^ 57 < va + n then s.raiseFault p c fkAddress 7 0 va access 3 index else k s

end Sys2Proof.Machine
end

