-- ==== Sys2Proof/Machine/Access.lean ====
section
/-! DEFINITION. Accesses of a partition's units to physical addresses (R13, R66, R123, R168, R181, R201, R202): which lines are ready to
be read, reading them, and writing. A step of a command reads only when every line it needs is ready; until then it asks for them and
changes nothing else. -/

namespace Sys2Proof.Machine

/-- On whose behalf an access is made: the partition, the command, the composition it acts in, and who waits for what comes back. -/
structure Agent where
  p : Nat
  chute : Nat
  seq : Nat
  comp : Nat
  epoch : Nat
  waiter : Waiter
  deriving DecidableEq, Repr

/-- A command as the one who accesses. -/
def Cmd.agent (c : Cmd) (p : Nat) : Agent :=
  { p := p, chute := c.chute, seq := c.seq, comp := c.compId, epoch := c.compEpoch, waiter := .cmd p c.chute c.seq }

/-- A core that runs a command as the one who accesses. -/
def Cmd.coreAgent (c : Cmd) (p g : Nat) : Agent := { c.agent p with waiter := .core g }

/-- How the accesses of an agent count as a source. -/
def Agent.src (ag : Agent) : Source := .unit ag.p ag.chute ag.seq

/-- Is the physical address one of T0? -/
def isT0 (a : Nat) : Bool := decide (t0Flag ≤ a)

/-- Is it one of another node of the cell? An address that names no node never enters the fabric (R224). -/
def State.isRemote (s : State) (a : Nat) : Bool := !isT0 a && decide (a / 2 ^ 40 ≠ s.node) && s.nodeExists (a / 2 ^ 40)

/-- Is it one of this node's T1? -/
def State.isLocalT1 (s : State) (a : Nat) : Bool := !isT0 a && decide (a / 2 ^ 40 = s.node)

/-- May the partition touch this line of this node: a T0 page it owns (R123), T1 inside its live extents (R168), where no mirror entry shuts it out
(R155, R157)? What lies at no node nobody may touch (R224). -/
def State.mayTouch (s : State) (p a : Nat) : Bool :=
  if isT0 a then decide (a - t0Flag < Config.t0Bytes) && decide (s.t0Owner ((a - t0Flag) / 4096) = some p)
  else s.isLocalT1 a && decide (s.extentPart (a % 2 ^ 40) = some p) && !s.mirrorShut (a % 2 ^ 40)

/-- The 64-byte lines, as physical addresses, that the n bytes from an address touch. -/
def physLines (a n : Nat) : List Nat := (linesOf a n).map (· * 64)

/-- Can the line be read now (R168, R202)? Violations and T0 lines can; a line of this node's T1 needs a request tag (R51). -/
def State.lineReady (s : State) (ag : Agent) (fill : Bool) (a : Nat) : Bool :=
  if isT0 a then true
  else if s.isRemote a then
    (s.fab.arrivals.any (fun x => decide (x.waiter = ag.waiter) && decide (x.addr = a)))
      || (fill && (match s.remoteLine a with | some l => decide (l.comp = ag.comp) && decide (l.err ≠ 2) | none => false))
  else !s.mayTouch ag.p a || (s.readable (a % 2 ^ 40 / 64) && s.tagFree ag.p)

/-- The RD of a remote line (R201, R214). -/
def Agent.readReq (ag : Agent) (a : Nat) (fill : Bool) : FabReq :=
  { tc := 2, dst := a / 2 ^ 40, dstCell := none, addr := a, part := some ag.p, msgId := 0, proto := 1, len := 2, lineOff := 0,
    waiter := ag.waiter, body := cohHeader 0x01 ag.comp ag.epoch a fill false false false 0 0 0 0 0 }

/-- Has the partition a write or an atomic of this line of another node outstanding? A read behind it waits until it is acknowledged, so that it observes
the write even if that is sent again (R179). -/
def State.writingLine (s : State) (p a : Nat) : Bool :=
  s.fab.reqs.any (fun r => decide (r.part = some p) && decide (r.pkt.proto = 1) && decide (r.pkt.typ ≠ 0x01) && decide (r.addr / 64 = a / 64))
    || s.fab.stalled.any (fun r => decide (r.part = some p) && decide (r.proto = 1) && decide (wordAt r.body 0 % 256 ≠ 0x01) && decide (r.addr / 64 = a / 64))

/-- An uncorrectable error in the remote-line cache's copy of a line drops it, as a hit finds it (R202). -/
def State.dropBadCopy (s : State) (ag : Agent) (fill : Bool) (a : Nat) : State :=
  match s.remoteLine a with
  | some l => if fill ∧ l.comp = ag.comp ∧ l.err = 2 then s.setRemoteLine a none else s
  | none => s

/-- Ask for a line that is not ready: the home takes it back from a host, or the fabric is asked, once. -/
def State.askLine (s : State) (ag : Agent) (fill : Bool) (a : Nat) : State :=
  if s.lineReady ag fill a then s
  else if s.isRemote a then
    let s := s.dropBadCopy ag fill a
    if s.fab.reqs.any (fun r => decide (r.waiter = ag.waiter) && decide (r.addr = a))
        || s.fab.stalled.any (fun r => decide (r.waiter = ag.waiter) && decide (r.addr = a)) || s.writingLine ag.p a then s
    else
      let s := if fill then
          s.event (hubTile (rlcHub a)) ⟨0x25, 0, 1, some a, some 1, .ofPart ag.p⟩
        else s
      s.unitSend (ag.readReq a fill)
  else if s.readable (a % 2 ^ 40 / 64) then s
  else s.want (a % 2 ^ 40 / 64) false

/-- When every line of some ranges can be read, do `f` and forget what came over the fabric for it; else ask for the others. -/
def State.whenReady (s : State) (ag : Agent) (fill : Bool) (ranges : List (Nat × Nat)) (f : State → State) : State :=
  let ls := ranges.flatMap (fun r => physLines r.1 r.2)
  if ls.all (s.lineReady ag fill) then
    (f s).modFab (fun x => { x with arrivals := x.arrivals.filter (fun y => !(decide (y.waiter = ag.waiter) && ls.contains y.addr)) })
  else ls.foldl (fun s a => s.askLine ag fill a) s

/-- What a line reads as now: its 64 bytes, poison, and a status that ends the access (0: none). -/
def State.lineValue (s : State) (ag : Agent) (fill : Bool) (a : Nat) : Nat × Bool × Nat :=
  if isT0 a then
    if s.mayTouch ag.p a then (s.t0Read (a - t0Flag) 64, s.t0Poison (a - t0Flag), 0) else (0, false, 0)
  else if s.isRemote a then
    match s.fab.arrivals.find? (fun x => decide (x.waiter = ag.waiter) && decide (x.addr = a)) with
    | some x => (x.value, x.poison, if x.status = stPoison then 0 else x.status)
    | none =>
      match s.remoteLine a with
      | some l => if fill then (l.data, false, 0) else (0, false, 0)
      | none => (0, false, 0)
  else if s.mayTouch ag.p a then (s.t1Read (a % 2 ^ 40) 64, s.t1Poison (a % 2 ^ 40), 0)
  else (0, false, 0)

/-- What the remote-line cache's copy of a line shows on a hit: an error its code corrects, counted and mended (R366). -/
def State.mendCopy (s : State) (a : Nat) : State :=
  match s.remoteLine a with
  | some l => if l.err = 1 then (s.setRemoteLine a (some { l with err := 0 })).corrected 6 (rlcHub a) 4 1 else s
  | none => s

/-- What reading a line counts: a violation (R66, R67), or a hit in the remote-line cache (R222). -/
def State.countRead (s : State) (ag : Agent) (fill : Bool) (a : Nat) : State :=
  if s.isRemote a then
    if !(s.fab.arrivals.any (fun x => decide (x.waiter = ag.waiter) && decide (x.addr = a))) && fill && (s.remoteLine a).isSome then
      ((s.mendCopy a).count64 (Reg.DIR_RLC_HIT_LO (rlcHub a)) 1).event (hubTile (rlcHub a)) ⟨0x25, 0, 1, some a, some 0, .ofPart ag.p⟩
    else s
  else if s.mayTouch ag.p a then
    if isT0 a then (s.t0Find (a - t0Flag)).t0Line (a - t0Flag) false (.ofPart ag.p)
    else
      let o := a % 2 ^ 40
      (((s.checkBits (o / 64) .device).t1Find o (ueWho 0 s.node)).event (hubTile (s.hubOf o)) ⟨0x20, s.stackOf o % 3, 1, some a, some 0, .ofPart ag.p⟩).t1Line o 0 false (.ofPart ag.p)
  else s.violateMem ag.src false (if isT0 a then a - t0Flag else a)

/-- What a read brought: the bytes as a little-endian number, whether any line was poisoned, and a status that ends it. -/
structure Got where
  value : Nat
  poison : Bool
  status : Nat
  deriving DecidableEq, Repr

/-- Read the n bytes at a physical address, once its lines are ready. -/
def State.fetch (s : State) (ag : Agent) (fill : Bool) (a n : Nat) : Got × State :=
  let ls := physLines a n
  let vs := ls.map (s.lineValue ag fill)
  let all := vs.foldr (fun v acc => v.1 + 2 ^ 512 * acc) 0
  ({ value := all / 2 ^ (8 * (a % 64)) % 2 ^ (8 * n), poison := vs.any (fun v => v.2.1),
     status := (vs.map (fun v => v.2.2)).foldl (fun x y => if x = 0 then y else x) 0 },
   ls.foldl (fun s a => s.countRead ag fill a) s)

/-- Read pieces one after another as one number. -/
def State.fetchAll (s : State) (ag : Agent) (fill : Bool) : List (Nat × Nat) → Got × State
  | [] => (⟨0, false, 0⟩, s)
  | (a, n) :: t =>
    let (g, s) := s.fetch ag fill a n
    let (h, s) := s.fetchAll ag fill t
    (⟨g.value + 2 ^ (8 * n) * h.value, g.poison || h.poison, if g.status = 0 then h.status else g.status⟩, s)

/-- The WR or WRP of part of a remote line (R214). -/
def Agent.writeReq (ag : Agent) (a mask data : Nat) (poison : Bool) : FabReq :=
  let full := decide (mask = fullMask)
  { tc := 2, dst := a / 2 ^ 40, dstCell := none, addr := a, part := some ag.p, msgId := 0, proto := 1, len := 4, lineOff := 0,
    waiter := .cmd ag.p ag.chute ag.seq,
    body := cohHeader (if full then 0x02 else 0x03) ag.comp ag.epoch a false poison false false 0 0 0 0 (if full then 0 else mask)
      ++ numWords data 16 }

/-- Write the masked bytes of a line (R66, R123, R181): T0 at once, T1 of this node at its home, another node's over the fabric. -/
def State.storeLine (s : State) (ag : Agent) (a mask data : Nat) (poison : Bool) : State :=
  if s.isRemote a then
    (s.modCmd ag.p ag.chute ag.seq (fun c => { c with unacked := c.unacked + 1 })).unitSend (ag.writeReq a mask data poison)
  else if !s.mayTouch ag.p a then s.violateMem ag.src true (if isT0 a then a - t0Flag else a)
  else if isT0 a then (s.t0Line (a - t0Flag) true (.ofPart ag.p)).t0Put ((a - t0Flag) / 64) mask data poison
  else s.post ag.src (a % 2 ^ 40 / 64) mask data poison

/-- Write n bytes at a physical address, a line at a time. -/
def State.storeBytes (s : State) (ag : Agent) (a n v : Nat) (poison : Bool) : State :=
  (physLines a n).foldl (fun s l =>
    let lo := max a l
    let hi := min (a + n) (l + 64)
    s.storeLine ag l ((2 ^ (hi - lo) - 1) * 2 ^ (lo - l)) (v / 2 ^ (8 * (lo - a)) % 2 ^ (8 * (hi - lo)) * 2 ^ (8 * (lo - l))) poison) s

/-- Write pieces one after another from one number. -/
def State.storeAll (s : State) (ag : Agent) (v : Nat) (poison : Bool) : List (Nat × Nat) → State
  | [] => s
  | (a, n) :: t => (s.storeBytes ag a n (v % 2 ^ (8 * n)) poison).storeAll ag (v / 2 ^ (8 * n)) poison t

/-- Does a list of pieces touch another node? -/
def State.anyRemote (s : State) (l : List (Nat × Nat)) : Bool := l.any (fun x => s.isRemote x.1)

end Sys2Proof.Machine
end

