-- ==== Sys2Proof/Machine/Units.lean ====
section
/-! DEFINITION. What engines, cores, Winnowers and row units have in common (R94, R101, R121, R289, R322, R395): who reserves one, its
quarantine, the mark that a CTRL write leaves until its next boundary, its running command. -/

namespace Sys2Proof.Machine

/-- The status register of a unit. -/
def UnitKind.status : UnitKind → Nat → Nat
  | .me, i => Reg.ME_STATUS i
  | .gc, i => Reg.GC_STATUS i
  | .win, i => Reg.WIN_STATUS i
  | .row, i => Reg.ROW_STATUS i

/-- Its control register. -/
def UnitKind.ctrl : UnitKind → Nat → Nat
  | .me, i => Reg.ME_CTRL i
  | .gc, i => Reg.GC_CTRL i
  | .win, i => Reg.WIN_CTRL i
  | .row, i => Reg.ROW_CTRL i

/-- How many there are (R10). -/
def UnitKind.count : UnitKind → Nat
  | .me => 32 | .gc => 64 | .win => 16 | .row => 16

/-- The queue whose commands run on the kind (R51). -/
def UnitKind.queue : UnitKind → Queue
  | .me => .me | .gc => .gc | .win => .win | .row => .row

/-- Its bit of RNG_CMP_IRQ_CAUSE (R439). -/
def UnitKind.cause : UnitKind → Nat
  | .me => 1 | .gc => 2 | .row => 4 | .win => 8

/-- Its unit class in error records (R364). -/
def UnitKind.cls : UnitKind → Nat
  | .me => 1 | .gc => 2 | .win => 3 | .row => 4

/-- A number for each unit of any kind. -/
def UnitKind.key : UnitKind → Nat → Nat
  | .me, i => i
  | .gc, i => 64 + i
  | .win, i => 128 + i
  | .row, i => 192 + i

/-- The partition that reserves a unit. -/
def State.owner (s : State) (k : UnitKind) (i : Nat) : Option Nat :=
  if s.regF (k.status i) 29 29 = 1 then some (s.regF (k.status i) 20 16) else none

/-- Is a unit quarantined? -/
def State.quarantined (s : State) (k : UnitKind) (i : Nat) : Bool := decide (s.regF (k.status i) 31 31 = 1)

/-- Quarantine a unit (R94, R395, R439): its status, the NOR record, the causes. -/
def State.quarantine (s : State) (k : UnitKind) (i : Nat) : State :=
  let s := s.setRegF (k.status i) 31 31 1
  let s : State := { s with quarRecord := (k.key i) :: s.quarRecord.filter (· ≠ k.key i), marks := s.marks.filter (· ≠ k.key i) }
  let s := s.cause Reg.RNG_CMP_IRQ_CAUSE k.cause
  match s.owner k i with
  | some p => s.pcause p (Reg.PART_ME_IRQ_CAUSE p) 4
  | none => s

/-- Clear a unit's quarantine (R94, R395). -/
def State.unquarantine (s : State) (k : UnitKind) (i : Nat) : State :=
  let s := s.setRegF (k.status i) 31 31 0
  { s with quarRecord := s.quarRecord.filter (· ≠ k.key i) }

/-- Is a unit marked for quarantine? -/
def State.marked (s : State) (k : UnitKind) (i : Nat) : Bool := s.marks.contains (k.key i)

/-- A write of quarantine to a unit's CTRL register (R101, R121, R289, R322): the unit is marked until its next boundary. -/
def State.writeQuarantine (s : State) (rq : Requester) (k : UnitKind) (i : Nat) (v : Word) : State :=
  s.access rq (k.ctrl i) (fun s =>
    let s := s.store (k.ctrl i) v
    if s.quarantined k i || s.marked k i then s else { s with marks := k.key i :: s.marks })

/-- A write of unquarantine (R94): it clears quarantine if the unit is not reserved. -/
def State.writeUnquarantine (s : State) (rq : Requester) (k : UnitKind) (i : Nat) (v : Word) : State :=
  s.access rq (k.ctrl i) (fun s =>
    let s := s.store (k.ctrl i) v
    if (s.owner k i).isSome then s else s.unquarantine k i)

/-- Reset a unit (R374, R394): its pipeline and buffers are zeroed; counters and quarantine stay. -/
def State.resetUnit (s : State) (k : UnitKind) (i : Nat) : State :=
  match k with
  | .me => { s with engines := Tbl.set (fun _ => Engine.reset) s.engines i Engine.reset }
  | .gc => { s with cores := Tbl.set (fun _ => Core.reset) s.cores i Core.reset, resv := s.resv.filter (fun e => decide (e.1 ≠ i)) }
  | .win => s
  | .row => s

/-- The command that runs on a unit, and its partition. -/
def State.unitCmd (s : State) (k : UnitKind) (i : Nat) : Option (Nat × Cmd) :=
  match s.owner k i with
  | none => none
  | some p => (s.runningOn p k.queue i).map (fun c => (p, c))

/-- Is a command to stop at this boundary (R59, R64)? -/
def Cmd.mustStop (c : Cmd) : Bool := c.aborting || c.stopping

/-- End a command with a status and what its record's result and detail hold. -/
def State.endCmd (s : State) (p : Nat) (c : Cmd) (status result detail : Nat) : State := s.finish p c.chute c.seq status result detail

/-- Give a command new working values. -/
def State.setAux (s : State) (p : Nat) (c : Cmd) (progress : Nat) (aux : List Nat) : State :=
  s.modCmd p c.chute c.seq (fun c => { c with progress := progress, aux := aux })

/-- Working value i of a command. -/
def Cmd.auxAt (c : Cmd) (i : Nat) : Nat := c.aux.getD i 0

/-- The ranges of rows, each `n` bytes, `stride` apart from an address, as physical pieces; none where one is not translated. -/
def Cmd.rows (c : Cmd) (access va stride n : Nat) : Nat → Option (List (List (Nat × Nat)))
  | 0 => some []
  | m + 1 =>
    match c.range va n access, c.rows access (va + stride) stride n m with
    | some x, some t => some (x :: t)
    | _, _ => none

/-- Read rows of pieces, one number a row. -/
def State.fetchRows (s : State) (ag : Agent) : List (List (Nat × Nat)) → List Got × State
  | [] => ([], s)
  | x :: t =>
    let (g, s) := s.fetchAll ag true x
    let (gs, s) := s.fetchRows ag t
    (g :: gs, s)

/-- Write rows of pieces from one number a row. -/
def State.storeRows (s : State) (ag : Agent) : List (List (Nat × Nat)) → List Nat → State
  | x :: t, v :: vs => (s.storeAll ag v false x).storeRows ag t vs
  | _, _ => s

/-- The status that reads give a step: a failure by its code, then poison (R58, R76). -/
def gotStatus (l : List Got) : Nat :=
  l.foldl (fun a g => worseStatus a (worseStatus g.status (if g.poison then stPoison else 0))) 0

end Sys2Proof.Machine
end

