-- ==== Sys2Proof/Machine/Riscv.lean ====
section
/-! DEFINITION. The instruction set of the general cores (R106, R111) as functions of a core's registers: RV64GC and the custom
instructions. R106 names RV64GCV with the vector extension 1.0 and leaves the meaning of its instructions to RISC-V: what stands here of
them is the ratified RISC-V specification (PRESUMED, log entry 15). Vector arithmetic stands in Vector.lean. -/

namespace Sys2Proof.Machine

/-! ### Fields and immediates -/

/-- A w-bit value extended with its sign to 64 bits. -/
def sext (w v : Nat) : Nat := if v % 2 ^ w < 2 ^ (w - 1) then v % 2 ^ w else v % 2 ^ w + (2 ^ 64 - 2 ^ w)

/-- The fields of an instruction word (R111). -/
def iOp (w : Nat) : Nat := nfld w 6 0
def iRd (w : Nat) : Nat := nfld w 11 7
def iF3 (w : Nat) : Nat := nfld w 14 12
def iRs1 (w : Nat) : Nat := nfld w 19 15
def iRs2 (w : Nat) : Nat := nfld w 24 20
def iF7 (w : Nat) : Nat := nfld w 31 25
/-- The immediates of the base formats, as 64-bit values. -/
def immI (w : Nat) : Nat := sext 12 (nfld w 31 20)
def immS (w : Nat) : Nat := sext 12 (nfld w 31 25 * 32 + nfld w 11 7)
def immB (w : Nat) : Nat := sext 13 (nfld w 31 31 * 4096 + nfld w 7 7 * 2048 + nfld w 30 25 * 32 + nfld w 11 8 * 2)
def immU (w : Nat) : Nat := sext 32 (nfld w 31 12 * 4096)
def immJ (w : Nat) : Nat := sext 21 (nfld w 31 31 * 2 ^ 20 + nfld w 19 12 * 4096 + nfld w 20 20 * 2048 + nfld w 30 21 * 2)

/-- Words of the base formats, from their fields. -/
def encR (op f3 f7 rd rs1 rs2 : Nat) : Nat := op + rd * 2 ^ 7 + f3 * 2 ^ 12 + rs1 * 2 ^ 15 + rs2 * 2 ^ 20 + f7 * 2 ^ 25
def encI (op f3 rd rs1 imm : Nat) : Nat := op + rd * 2 ^ 7 + f3 * 2 ^ 12 + rs1 * 2 ^ 15 + imm % 4096 * 2 ^ 20
def encS (op f3 rs1 rs2 imm : Nat) : Nat :=
  op + imm % 32 * 2 ^ 7 + f3 * 2 ^ 12 + rs1 * 2 ^ 15 + rs2 * 2 ^ 20 + nfld imm 11 5 * 2 ^ 25
def encB (f3 rs1 rs2 imm : Nat) : Nat :=
  0x63 + nfld imm 11 11 * 2 ^ 7 + nfld imm 4 1 * 2 ^ 8 + f3 * 2 ^ 12 + rs1 * 2 ^ 15 + rs2 * 2 ^ 20 + nfld imm 10 5 * 2 ^ 25 + nfld imm 12 12 * 2 ^ 31
def encJ (rd imm : Nat) : Nat :=
  0x6F + rd * 2 ^ 7 + nfld imm 19 12 * 2 ^ 12 + nfld imm 11 11 * 2 ^ 20 + nfld imm 10 1 * 2 ^ 21 + nfld imm 20 20 * 2 ^ 31

/-! ### Compressed instructions -/

/-- The instruction that a 16-bit one of quadrant 0 stands for; none for a reserved one. -/
def expandC0 (h : Nat) : Option Nat :=
  let rd := 8 + nfld h 4 2
  let rs := 8 + nfld h 9 7
  let immW := nfld h 12 10 * 8 + nfld h 6 6 * 4 + nfld h 5 5 * 64
  let immD := nfld h 12 10 * 8 + nfld h 6 5 * 64
  match nfld h 15 13 with
  | 0 =>
    let imm := nfld h 12 11 * 16 + nfld h 10 7 * 64 + nfld h 6 6 * 4 + nfld h 5 5 * 8
    if imm = 0 then none else some (encI 0x13 0 rd 2 imm)
  | 1 => some (encI 0x07 3 rd rs immD)
  | 2 => some (encI 0x03 2 rd rs immW)
  | 3 => some (encI 0x03 3 rd rs immD)
  | 5 => some (encS 0x27 3 rs rd immD)
  | 6 => some (encS 0x23 2 rs rd immW)
  | 7 => some (encS 0x23 3 rs rd immD)
  | _ => none

/-- Quadrant 1. -/
def expandC1 (h : Nat) : Option Nat :=
  let rd := nfld h 11 7
  let rp := 8 + nfld h 9 7
  let rq := 8 + nfld h 4 2
  let imm := sext 6 (nfld h 12 12 * 32 + nfld h 6 2)
  let shamt := nfld h 12 12 * 32 + nfld h 6 2
  let off := sext 9 (nfld h 12 12 * 256 + nfld h 6 5 * 64 + nfld h 2 2 * 32 + nfld h 11 10 * 8 + nfld h 4 3 * 2)
  match nfld h 15 13 with
  | 0 => some (encI 0x13 0 rd rd imm)
  | 1 => if rd = 0 then none else some (encI 0x1B 0 rd rd imm)
  | 2 => some (encI 0x13 0 rd 0 imm)
  | 3 =>
    if rd = 2 then
      let i := sext 10 (nfld h 12 12 * 512 + nfld h 4 3 * 128 + nfld h 5 5 * 64 + nfld h 2 2 * 32 + nfld h 6 6 * 16)
      if i = 0 then none else some (encI 0x13 0 2 2 i)
    else if imm = 0 then none else some (0x37 + rd * 2 ^ 7 + imm % 2 ^ 20 * 4096)
  | 4 =>
    match nfld h 11 10 with
    | 0 => some (encI 0x13 5 rp rp shamt)
    | 1 => some (encI 0x13 5 rp rp (shamt + 0x400))
    | 2 => some (encI 0x13 7 rp rp imm)
    | _ =>
      match nfld h 12 12, nfld h 6 5 with
      | 0, 0 => some (encR 0x33 0 0x20 rp rp rq)
      | 0, 1 => some (encR 0x33 4 0 rp rp rq)
      | 0, 2 => some (encR 0x33 6 0 rp rp rq)
      | 0, _ => some (encR 0x33 7 0 rp rp rq)
      | _, 0 => some (encR 0x3B 0 0x20 rp rp rq)
      | _, 1 => some (encR 0x3B 0 0 rp rp rq)
      | _, _ => none
  | 5 =>
    let j := nfld h 12 12 * 2048 + nfld h 8 8 * 1024 + nfld h 10 9 * 256 + nfld h 6 6 * 128 + nfld h 7 7 * 64 + nfld h 2 2 * 32
      + nfld h 11 11 * 16 + nfld h 5 3 * 2
    some (encJ 0 (sext 12 j))
  | 6 => some (encB 0 rp 0 off)
  | _ => some (encB 1 rp 0 off)

/-- Quadrant 2. -/
def expandC2 (h : Nat) : Option Nat :=
  let rd := nfld h 11 7
  let rs := nfld h 6 2
  let shamt := nfld h 12 12 * 32 + nfld h 6 2
  let immD := nfld h 12 12 * 32 + nfld h 6 5 * 8 + nfld h 4 2 * 64
  let immW := nfld h 12 12 * 32 + nfld h 6 4 * 4 + nfld h 3 2 * 64
  let stD := nfld h 12 10 * 8 + nfld h 9 7 * 64
  match nfld h 15 13 with
  | 0 => some (encI 0x13 1 rd rd shamt)
  | 1 => some (encI 0x07 3 rd 2 immD)
  | 2 => if rd = 0 then none else some (encI 0x03 2 rd 2 immW)
  | 3 => if rd = 0 then none else some (encI 0x03 3 rd 2 immD)
  | 4 =>
    if nfld h 12 12 = 0 then
      if rs = 0 then (if rd = 0 then none else some (encI 0x67 0 0 rd 0)) else some (encR 0x33 0 0 rd 0 rs)
    else if rs = 0 then (if rd = 0 then some 0x00100073 else some (encI 0x67 0 1 rd 0))
    else some (encR 0x33 0 0 rd rd rs)
  | 5 => some (encS 0x27 3 2 rs stD)
  | 6 => some (encS 0x23 2 2 rs (nfld h 12 9 * 4 + nfld h 8 7 * 64))
  | _ => some (encS 0x23 3 2 rs stD)

/-- A 16-bit instruction as the 32-bit one it stands for; 0, an illegal word, for a reserved one. -/
def expandC (h : Nat) : Nat :=
  (match h % 4 with | 0 => expandC0 h | 1 => expandC1 h | _ => expandC2 h).getD 0

/-! ### Integer operations -/

/-- The operations of OP and OP-IMM on w bits (64, or 32 for the W forms), with the multiply and divide ones of M; none where the
encoding is reserved. -/
def intOp (w f3 f7 a b : Nat) : Option Nat :=
  let m := 2 ^ w
  let a := a % m
  let b := b % m
  let sa := signed w a
  let sb := signed w b
  let wrap (z : Int) : Nat := (z % (m : Int)).toNat
  match f7, f3 with
  | 0x00, 0 => some ((a + b) % m)
  | 0x20, 0 => some ((a + m - b) % m)
  | 0x00, 1 => some (a * 2 ^ (b % w) % m)
  | 0x00, 2 => if w = 32 then none else some (if sa < sb then 1 else 0)
  | 0x00, 3 => if w = 32 then none else some (if a < b then 1 else 0)
  | 0x00, 4 => if w = 32 then none else some (a ^^^ b)
  | 0x00, 5 => some (a / 2 ^ (b % w))
  | 0x20, 5 => some (wrap (sa / 2 ^ (b % w)))
  | 0x00, 6 => if w = 32 then none else some (a ||| b)
  | 0x00, 7 => if w = 32 then none else some (a &&& b)
  | 0x01, 0 => some (a * b % m)
  | 0x01, 1 => if w = 32 then none else some (wrap (sa * sb / m))
  | 0x01, 2 => if w = 32 then none else some (wrap (sa * (b : Int) / m))
  | 0x01, 3 => if w = 32 then none else some (a * b / m)
  | 0x01, 4 => some (if b = 0 then m - 1 else wrap (sa.tdiv sb))
  | 0x01, 5 => some (if b = 0 then m - 1 else a / b)
  | 0x01, 6 => some (if b = 0 then a else wrap (sa.tmod sb))
  | 0x01, 7 => some (if b = 0 then a else a % b)
  | _, _ => none

/-- Does a branch of this kind go? None for a reserved kind. -/
def branchTaken (f3 a b : Nat) : Option Bool :=
  match f3 with
  | 0 => some (decide (a = b))
  | 1 => some (decide (a ≠ b))
  | 4 => some (decide (signed 64 a < signed 64 b))
  | 5 => some (!decide (signed 64 a < signed 64 b))
  | 6 => some (decide (a < b))
  | 7 => some (!decide (a < b))
  | _ => none

/-! ### Floating point -/

/-- Exponent and fraction bits of the formats: 0 single, 1 double. -/
def fpBits (f : Nat) : Nat × Nat := if f = 0 then (8, 23) else (11, 52)

/-- The canonical NaN, and the infinities. -/
def fpNaN (f : Nat) : Nat := let (eb, mb) := fpBits f; (2 ^ eb - 1) * 2 ^ mb + 2 ^ (mb - 1)
def fpInf (f : Nat) (neg : Bool) : Nat := let (eb, mb) := fpBits f; (2 ^ eb - 1) * 2 ^ mb + (if neg then 2 ^ (eb + mb) else 0)
def fpZero (f : Nat) (neg : Bool) : Nat := let (eb, mb) := fpBits f; if neg then 2 ^ (eb + mb) else 0

/-- The exception flags: inexact, underflow, overflow, divide by zero, invalid. -/
def fNX : Nat := 1
def fUF : Nat := 2
def fOF : Nat := 4
def fDZ : Nat := 8
def fNV : Nat := 16

/-- Does rounding m / 2^k by a mode go up: 0 nearest even, 1 toward zero, 2 down, 3 up, 4 nearest, ties away, 5 to odd? -/
def roundsUp (rm : Nat) (neg : Bool) (m k : Nat) : Bool :=
  let q := m / 2 ^ k
  let r := m % 2 ^ k
  match rm with
  | 0 => decide (2 ^ k < 2 * r) || (decide (2 * r = 2 ^ k) && decide (q % 2 = 1))
  | 2 => neg && decide (r ≠ 0)
  | 3 => !neg && decide (r ≠ 0)
  | 4 => decide (2 ^ k ≤ 2 * r)
  | 5 => decide (r ≠ 0) && decide (q % 2 = 0)
  | _ => false

/-- m·2^e in units of 2^q, rounded by a mode, and whether that was exact. -/
def roundAt (rm : Nat) (neg : Bool) (m : Nat) (e q : Int) : Nat × Bool :=
  if q ≤ e then (m * 2 ^ (e - q).toNat, true)
  else
    let k := (q - e).toNat
    (m / 2 ^ k + (if roundsUp rm neg m k then 1 else 0), decide (m % 2 ^ k = 0))

/-- Round a nonzero magnitude m·2^e to a format: its code and the flags. Tininess is found after rounding. -/
def fpRound (f rm : Nat) (neg : Bool) (m : Nat) (e : Int) : Nat × Nat :=
  let (eb, mb) := fpBits f
  let bias : Int := 2 ^ (eb - 1) - 1
  let emin : Int := 1 - bias - mb
  let top : Int := (Nat.log2 m : Int) + e - mb
  let q := max top emin
  let (n, exact) := roundAt rm neg m e q
  let bits := (q - emin).toNat * 2 ^ mb + n
  let (n', _) := roundAt rm neg m e top
  let tiny := decide (top + mb + (if n' = 2 ^ (mb + 1) then 1 else 0) < 1 - bias)
  let sign := fpZero f neg
  if (2 ^ eb - 1) * 2 ^ mb ≤ bits then
    let toMax := decide (rm = 1) || decide (rm = 5) || (decide (rm = 2) && !neg) || (decide (rm = 3) && neg)
    (sign + (if toMax then (2 ^ eb - 1) * 2 ^ mb - 1 else (2 ^ eb - 1) * 2 ^ mb), fOF + fNX)
  else (sign + bits, if exact then 0 else fNX + (if tiny then fUF else 0))

/-- Round an exact value; a zero takes the sign given. -/
def fpOfDy (f rm : Nat) (zeroNeg : Bool) (d : Dy) : Nat × Nat :=
  if d.m = 0 then (fpZero f zeroNeg, 0) else fpRound f rm (decide (d.m < 0)) d.m.natAbs d.e

/-- The value of a code. -/
def fpVal (f v : Nat) : FVal := let (eb, mb) := fpBits f; FVal.ofBits eb mb v

/-- Is the code a signaling NaN? -/
def fpSignals (f v : Nat) : Bool :=
  decide (fpVal f v = .nan) && decide (v / 2 ^ ((fpBits f).2 - 1) % 2 = 0)

/-- Invalid where an operand signals. -/
def nvOf (f : Nat) (l : List Nat) : Nat := if l.any (fpSignals f) then fNV else 0

/-- The sign of a value. -/
def FVal.neg : FVal → Bool
  | .fin n _ => n
  | .inf n => n
  | .nan => false

/-- A product and a sum: a·b + c of values, with the operands' flags given. -/
def fpMulAdd (f rm : Nat) (a b c : FVal) (nv : Nat) : Nat × Nat :=
  let finish (p : FVal) : Nat × Nat :=
    match p, c with
    | .nan, _ => (fpNaN f, nv)
    | _, .nan => (fpNaN f, nv)
    | .inf x, .inf y => if x = y then (fpInf f x, nv) else (fpNaN f, fNV)
    | .inf x, _ => (fpInf f x, nv)
    | _, .inf y => (fpInf f y, nv)
    | .fin x d, .fin y g => fpOfDy f rm (if x = y then x else decide (rm = 2)) (d.add g)
  match a, b with
  | .nan, _ => (fpNaN f, nv)
  | _, .nan => (fpNaN f, nv)
  | .inf x, .inf y => finish (.inf (x != y))
  | .inf x, .fin y d => if d.m = 0 then (fpNaN f, fNV) else finish (.inf (x != y))
  | .fin x d, .inf y => if d.m = 0 then (fpNaN f, fNV) else finish (.inf (x != y))
  | .fin x d, .fin y g => finish (.fin (x != y) (d.mul g))

/-- A product alone. -/
def fpMul (f rm a b : Nat) : Nat × Nat :=
  let z := FVal.fin ((fpVal f a).neg != (fpVal f b).neg) ⟨0, 0⟩
  fpMulAdd f rm (fpVal f a) (fpVal f b) z (nvOf f [a, b])

/-- A sum. -/
def fpAdd (f rm a b : Nat) : Nat × Nat := fpMulAdd f rm (.fin false ⟨1, 0⟩) (fpVal f a) (fpVal f b) (nvOf f [a, b])

/-- A quotient: enough bits of it, and one more for the rest. -/
def fpDiv (f rm a b : Nat) : Nat × Nat :=
  let nv := nvOf f [a, b]
  match fpVal f a, fpVal f b with
  | .nan, _ => (fpNaN f, nv)
  | _, .nan => (fpNaN f, nv)
  | .inf _, .inf _ => (fpNaN f, fNV)
  | .inf x, .fin y _ => (fpInf f (x != y), 0)
  | .fin x _, .inf y => (fpZero f (x != y), 0)
  | .fin x d, .fin y g =>
    if g.m = 0 then (if d.m = 0 then (fpNaN f, fNV) else (fpInf f (x != y), fDZ))
    else if d.m = 0 then (fpZero f (x != y), 0)
    else
      let n := d.m.natAbs * 2 ^ 128
      let q := n / g.m.natAbs
      fpRound f rm (x != y) (2 * q + (if n % g.m.natAbs = 0 then 0 else 1)) (d.e - g.e - 129)

/-- The integer square root, bit by bit from bit k downward. -/
def isqrt (n : Nat) : Nat → Nat → Nat
  | 0, r => r
  | k + 1, r => isqrt n k (if (r + 2 ^ k) * (r + 2 ^ k) ≤ n then r + 2 ^ k else r)

/-- A square root. -/
def fpSqrt (f rm a : Nat) : Nat × Nat :=
  match fpVal f a with
  | .nan => (fpNaN f, nvOf f [a])
  | .inf x => if x then (fpNaN f, fNV) else (fpInf f false, 0)
  | .fin x d =>
    if d.m = 0 then (fpZero f x, 0)
    else if x then (fpNaN f, fNV)
    else
      let odd := decide (d.e % 2 ≠ 0)
      let n := d.m.natAbs * (if odd then 2 else 1) * 2 ^ 160
      let e : Int := (d.e - (if odd then 1 else 0) - 160) / 2
      let r := isqrt n 112 0
      fpRound f rm false (2 * r + (if r * r = n then 0 else 1)) (e - 1)

/-- Compare: 0 ≤, 1 <, 2 =; the quiet one is =. -/
def fpCmp (f kind a b : Nat) : Nat × Nat :=
  match fpVal f a, fpVal f b with
  | .nan, _ => (0, if kind = 2 then nvOf f [a, b] else fNV)
  | _, .nan => (0, if kind = 2 then nvOf f [a, b] else fNV)
  | x, y =>
    let lt : FVal → FVal → Bool
      | .inf p, .inf q => p && !q
      | .inf p, _ => p
      | _, .inf q => !q
      | .fin _ d, .fin _ g => d.lt g
      | _, _ => false
    let r := match kind with
      | 0 => !lt y x
      | 1 => lt x y
      | _ => !lt x y && !lt y x
    (if r then 1 else 0, 0)

/-- The lesser or the greater of two. -/
def fpMinMax (f : Nat) (wantMax : Bool) (a b : Nat) : Nat × Nat :=
  let nv := nvOf f [a, b]
  match fpVal f a, fpVal f b with
  | .nan, .nan => (fpNaN f, nv)
  | .nan, _ => (b, nv)
  | _, .nan => (a, nv)
  | x, y =>
    let below := if (fpCmp f 1 a b).1 = 1 then true else if (fpCmp f 1 b a).1 = 1 then false else x.neg && !y.neg
    (if below != wantMax then a else b, nv)

/-- The class of a code, one bit of ten. -/
def fpClass (f v : Nat) : Nat :=
  let (eb, mb) := fpBits f
  let sub := decide (v / 2 ^ mb % 2 ^ eb = 0)
  match fpVal f v with
  | .nan => if fpSignals f v then 2 ^ 8 else 2 ^ 9
  | .inf n => if n then 1 else 2 ^ 7
  | .fin n d =>
    if d.m = 0 then (if n then 2 ^ 3 else 2 ^ 4) else if sub then (if n then 2 ^ 2 else 2 ^ 5) else (if n then 2 else 2 ^ 6)

/-- To an integer of w bits, signed or not; the 64-bit register value. -/
def fpToIntW (f rm w : Nat) (sg : Bool) (v : Nat) : Nat × Nat :=
  let hi : Int := if sg then 2 ^ (w - 1) - 1 else 2 ^ w - 1
  let lo : Int := if sg then -(2 ^ (w - 1)) else 0
  let reg (z : Int) : Nat := sext w (z % (2 ^ w : Int)).toNat
  match fpVal f v with
  | .nan => (reg hi, fNV)
  | .inf n => (reg (if n then lo else hi), fNV)
  | .fin n d =>
    if d.m = 0 then (0, 0)
    else
      let (r, exact) := roundAt rm n d.m.natAbs d.e 0
      let z : Int := if n then -(r : Int) else r
      if z < lo then (reg lo, fNV) else if hi < z then (reg hi, fNV) else (reg z, if exact then 0 else fNX)

/-- To an integer: kind 0 32 bits signed, 1 unsigned, 2 64 bits signed, 3 unsigned. -/
def fpToInt (f rm kind v : Nat) : Nat × Nat := fpToIntW f rm (if kind < 2 then 32 else 64) (decide (kind % 2 = 0)) v

/-- From an integer of w bits, signed or not. -/
def fpOfIntW (f rm w : Nat) (sg : Bool) (v : Nat) : Nat × Nat :=
  let z : Int := if sg then signed w v else ((v % 2 ^ w : Nat) : Int)
  fpOfDy f rm false ⟨z, 0⟩

/-- From an integer register. -/
def fpOfInt (f rm kind v : Nat) : Nat × Nat := fpOfIntW f rm (if kind < 2 then 32 else 64) (decide (kind % 2 = 0)) v

/-- From the other format. -/
def fpConvert (f rm v : Nat) : Nat × Nat :=
  let g := 1 - f
  match fpVal g v with
  | .nan => (fpNaN f, nvOf g [v])
  | .inf n => (fpInf f n, 0)
  | .fin n d => fpOfDy f rm n d

end Sys2Proof.Machine
end

