-- ==== Sys2Proof/Machine/GcRegs.lean ====
section
/-! DEFINITION. The registers of a general core (R106): integer, floating-point and vector registers, the vector configuration, the active
elements. -/

namespace Sys2Proof.Machine

/-! ### Registers -/

/-- Register x of a core; x0 reads zero. -/
def Core.xr (c : Core) (i : Nat) : Nat := if i = 0 then 0 else Tbl.get (fun _ => 0) c.x i
/-- Write it; x0 discards. -/
def Core.setX (c : Core) (i v : Nat) : Core := if i = 0 then c else { c with x := Tbl.set (fun _ => 0) c.x i (v % 2 ^ 64) }
/-- Floating-point register i. -/
def Core.fr (c : Core) (i : Nat) : Nat := Tbl.get (fun _ => 0) c.f i
/-- Write it. -/
def Core.setF (c : Core) (i v : Nat) : Core := { c with f := Tbl.set (fun _ => 0) c.f i (v % 2 ^ 64) }
/-- Vector register i, 512 bits. -/
def Core.vr (c : Core) (i : Nat) : Nat := Tbl.get (fun _ => 0) c.v i
/-- Write it. -/
def Core.setV (c : Core) (i v : Nat) : Core := { c with v := Tbl.set (fun _ => 0) c.v i (v % 2 ^ 512) }
/-- A floating-point operand: a single must be boxed in ones, else it counts as NaN. -/
def Core.fop (c : Core) (f i : Nat) : Nat :=
  let v := c.fr i
  if f = 1 then v else if v / 2 ^ 32 = 2 ^ 32 - 1 then v % 2 ^ 32 else fpNaN 0
/-- Write a result of a format, boxed. -/
def Core.putF (c : Core) (f i v : Nat) : Core := c.setF i (if f = 1 then v else v % 2 ^ 32 + (2 ^ 64 - 2 ^ 32))
/-- Raise flags. -/
def Core.flag (c : Core) (n : Nat) : Core := { c with fcsr := c.fcsr ||| n }

/-- Bytes [off, off + n) of a vector register. -/
def Core.vBytes (c : Core) (r off n : Nat) : Nat := c.vr r / 2 ^ (8 * off) % 2 ^ (8 * n)
/-- Write them. -/
def Core.setVBytes (c : Core) (r off n v : Nat) : Core :=
  c.setV r (c.vr r - c.vBytes r off n * 2 ^ (8 * off) + v % 2 ^ (8 * n) * 2 ^ (8 * off))

/-! ### Vector configuration -/

/-- LMUL in eighths; 0 for the reserved code. -/
def lmul8 (vt : Nat) : Nat := match vt % 8 with | 0 => 8 | 1 => 16 | 2 => 32 | 3 => 64 | 5 => 1 | 6 => 2 | 7 => 4 | _ => 0
/-- SEW in bits. -/
def vsew (vt : Nat) : Nat := 8 * 2 ^ (vt / 8 % 8)
/-- Is vtype illegal? -/
def vill (vt : Nat) : Bool :=
  decide (256 ≤ vt) || decide (lmul8 vt = 0) || decide (64 < vsew vt) || decide (lmul8 vt * 8 < vsew vt)
/-- VLMAX at VLEN 512. -/
def vlmax (vt : Nat) : Nat := lmul8 vt * 64 / vsew vt

/-- The vset instructions: a new vtype and AVL (none: keep vl). -/
def Core.vset (c : Core) (w vt : Nat) (avl : Option Nat) : Core :=
  let c := if vill vt then { c with vtype := 2 ^ 63, vl := 0 }
    else { c with vtype := vt, vl := min (avl.getD c.vl) (vlmax vt) }
  ({ c with vstart := 0 }).setX (iRd w) c.vl

/-- Is element i active under the mask bit of the instruction? -/
def Core.active (c : Core) (w i : Nat) : Bool := decide (nfld w 25 25 = 1) || (c.vr 0).testBit i

end Sys2Proof.Machine
end

