-- ==== Sys2Proof/Machine/Vector.lean ====
section
/-! DEFINITION. Vector arithmetic of a general core (R106): the V extension 1.0 at VLEN 512 and ELEN 64, as that extension defines it (PRESUMED,
log entry 15). A reserved encoding is an illegal instruction. An element that the extension lets an instruction either keep or fill with ones is
decided by the free bits `ag` of the instruction, and so is the order of an unordered sum. -/

namespace Sys2Proof.Machine

/-! ### Fields, elements, groups -/

/-- funct6 and the mask bit of a vector instruction. -/
def vF6 (w : Nat) : Nat := nfld w 31 26
def vUnmasked (w : Nat) : Bool := decide (nfld w 25 25 = 1)

/-- Element i, of so many bits, of the register group at r. -/
def Core.vElem (c : Core) (r bits i : Nat) : Nat := c.vBytes (r + i * bits / 512) (i * bits % 512 / 8) (bits / 8)
/-- Write it. -/
def Core.setVElem (c : Core) (r bits i v : Nat) : Core := c.setVBytes (r + i * bits / 512) (i * bits % 512 / 8) (bits / 8) v
/-- Note floating-point flags (bits 4 to 0) and saturation (bit 5) of a result. -/
def Core.vNote (c : Core) (n : Nat) : Core := { c with fcsr := c.fcsr ||| n % 32, vcsr := c.vcsr ||| n / 32 % 2 }

/-- Registers of a group of so many eighths. -/
def groupRegs (m8 : Nat) : Nat := max 1 (m8 / 8)
/-- Is a register number a group's, and its length one of the extension's? -/
def groupOk (r m8 : Nat) : Bool := decide (0 < m8) && decide (m8 ≤ 64) && decide (r % groupRegs m8 = 0)
/-- Do two groups share a register? -/
def groupsMeet (r m8 q n8 : Nat) : Bool := decide (r < q + groupRegs n8) && decide (q < r + groupRegs m8)
/-- May a destination of so many bits and eighths share registers with a source: with equal elements, at the source's low end with narrower ones,
at its own high end with wider ones. -/
def overlapOk (vd dBits d8 vs sBits s8 : Nat) : Bool :=
  !groupsMeet vd d8 vs s8 || decide (dBits = sBits) || (decide (dBits < sBits) && decide (vd = vs))
    || (decide (sBits < dBits) && decide (8 ≤ s8) && decide (vd + groupRegs d8 = vs + groupRegs s8))
/-- A masked instruction may not write v0, but for a mask or a scalar. -/
def maskOk (w vd : Nat) : Bool := vUnmasked w || decide (vd ≠ 0)

/-- Are tail elements, or those masked off, agnostic? -/
def Core.tailFree (c : Core) : Bool := c.vtype.testBit 6
def Core.maskFree (c : Core) : Bool := c.vtype.testBit 7

/-- Write elements vstart to vl − 1 of the group at vd with results and their notes, those that are active or all of them; agnostic elements take
ones where their free bit says so. -/
def Core.vWrite (c : Core) (w ag vd bits m8 : Nat) (all : Bool) (f : Nat → Nat × Nat) : Core :=
  if c.vl ≤ c.vstart then { c with vstart := 0 }
  else
    let put (d : Core) (i : Nat) : Core :=
      if i < c.vstart then d
      else if i < c.vl ∧ (all || c.active w i) then (d.setVElem vd bits i (f i).1).vNote (f i).2
      else if (if i < c.vl then c.maskFree else c.tailFree) && ag.testBit i then d.setVElem vd bits i (2 ^ bits - 1)
      else d
    { (List.range (groupRegs m8 * (512 / bits))).foldl put c with vstart := 0 }

/-- Only the agnostic elements from number n on take ones where their free bit says so. -/
def Core.vTail (c : Core) (ag vd bits m8 n : Nat) : Core :=
  { (List.range (groupRegs m8 * (512 / bits))).foldl (fun d i =>
      if n ≤ i ∧ c.tailFree ∧ ag.testBit i then d.setVElem vd bits i (2 ^ bits - 1) else d) c with vstart := 0 }

/-- Write a mask: tail bits are always agnostic. -/
def Core.vWriteMask (c : Core) (w ag vd : Nat) (all : Bool) (f : Nat → Bool × Nat) : Core :=
  if c.vl ≤ c.vstart then { c with vstart := 0 }
  else
    let old := c.vr vd
    let bit (i : Nat) : Bool :=
      if i < c.vstart then old.testBit i
      else if i < c.vl then (if all || c.active w i then (f i).1 else if c.maskFree then ag.testBit i else old.testBit i)
      else ag.testBit i
    let body := (List.range c.vl).filter (fun i => decide (c.vstart ≤ i) && (all || c.active w i))
    let d := c.setV vd ((List.range 512).foldl (fun v i => if bit i then v + 2 ^ i else v) 0)
    { body.foldl (fun d i => d.vNote (f i).2) d with vstart := 0 }

/-- Write element 0 of a register, the others being tail. -/
def Core.vScalar (c : Core) (ag vd bits v notes : Nat) : Core :=
  let d := (c.setVElem vd bits 0 v).vNote notes
  d.vTail ag vd bits 8 1

/-! ### Fixed point -/

/-- v / 2^d by the rounding mode of vxrm: to nearest up, to nearest even, down, to odd. -/
def vRound (vxrm : Nat) (v : Int) (d : Nat) : Int :=
  let q := v / 2 ^ d
  let r := (v % 2 ^ d).toNat
  let up : Bool :=
    if d = 0 then false
    else match vxrm with
      | 0 => decide (2 ^ (d - 1) ≤ r)
      | 1 => decide (2 ^ (d - 1) < r) || (decide (r = 2 ^ (d - 1)) && decide (q % 2 = 1))
      | 2 => false
      | _ => decide (r ≠ 0) && decide (q % 2 = 0)
  if up then q + 1 else q

/-- Narrow to so many bits, signed or not, noting saturation. -/
def vClip (bits : Nat) (sg : Bool) (v : Int) : Nat × Nat :=
  let lo : Int := if sg then -(2 ^ (bits - 1)) else 0
  let hi : Int := if sg then 2 ^ (bits - 1) - 1 else 2 ^ bits - 1
  let code (z : Int) : Nat := (z % (2 ^ bits : Int)).toNat
  if v < lo then (code lo, 32) else if hi < v then (code hi, 32) else (code v, 0)

/-- The code of an integer in so many bits. -/
def vCode (bits : Nat) (v : Int) : Nat × Nat := ((v % (2 ^ bits : Int)).toNat, 0)

/-- An element as an integer. -/
def vInt (sg : Bool) (bits v : Nat) : Int := if sg then signed bits v else ((v % 2 ^ bits : Nat) : Int)

/-! ### Integer operations of one element -/

/-- The one-width operations of OPIVV, OPIVX and OPIVI on elements a (vs2) and b (vs1, x or the immediate); none for another code. -/
def viOp (vxrm bits f6 a b : Nat) : Option (Nat × Nat) :=
  let sa := signed bits a
  let sb := signed bits b
  let ua : Int := (a : Int)
  let ub : Int := (b : Int)
  let sh := b % bits
  match f6 with
  | 0x00 => some (vCode bits (ua + ub))
  | 0x02 => some (vCode bits (ua - ub))
  | 0x03 => some (vCode bits (ub - ua))
  | 0x04 => some (min a b, 0)
  | 0x05 => some (if sa ≤ sb then a else b, 0)
  | 0x06 => some (max a b, 0)
  | 0x07 => some (if sa ≤ sb then b else a, 0)
  | 0x09 => some (a &&& b, 0)
  | 0x0A => some (a ||| b, 0)
  | 0x0B => some (a ^^^ b, 0)
  | 0x20 => some (vClip bits false (ua + ub))
  | 0x21 => some (vClip bits true (sa + sb))
  | 0x22 => some (vClip bits false (ua - ub))
  | 0x23 => some (vClip bits true (sa - sb))
  | 0x25 => some (vCode bits (ua * 2 ^ sh))
  | 0x27 => some (vClip bits true (vRound vxrm (sa * sb) (bits - 1)))
  | 0x28 => some (a / 2 ^ sh, 0)
  | 0x29 => some (vCode bits (sa / 2 ^ sh))
  | 0x2A => some (vCode bits (vRound vxrm ua sh))
  | 0x2B => some (vCode bits (vRound vxrm sa sh))
  | _ => none

/-- Which of those exist with a vector, a scalar, an immediate. -/
def viForm (f6 form : Nat) : Bool :=
  if f6 ∈ [0x00, 0x09, 0x0A, 0x0B, 0x20, 0x21, 0x25, 0x28, 0x29, 0x2A, 0x2B] then true
  else if f6 ∈ [0x02, 0x04, 0x05, 0x06, 0x07, 0x22, 0x23, 0x27] then decide (form ≠ 3)
  else decide (f6 = 0x03) && decide (form ≠ 0)

/-- The comparisons; none for another code or a form that does not exist. -/
def viCompare (bits f6 form a b : Nat) : Option Bool :=
  let sa := signed bits a
  let sb := signed bits b
  match f6 with
  | 0x18 => some (decide (a = b))
  | 0x19 => some (decide (a ≠ b))
  | 0x1A => if form = 3 then none else some (decide (a < b))
  | 0x1B => if form = 3 then none else some (decide (sa < sb))
  | 0x1C => some (decide (a ≤ b))
  | 0x1D => some (decide (sa ≤ sb))
  | 0x1E => if form = 0 then none else some (decide (b < a))
  | 0x1F => if form = 0 then none else some (decide (sb < sa))
  | _ => none

/-- The one-width operations of OPMVV and OPMVX; `d` is the destination's element. -/
def vmOp (vxrm bits f6 a b d : Nat) : Option (Nat × Nat) :=
  let sa := signed bits a
  let sb := signed bits b
  let ua : Int := (a : Int)
  let ub : Int := (b : Int)
  let ud : Int := (d : Int)
  let m : Int := 2 ^ bits
  match f6 with
  | 0x08 => some (vCode bits (vRound vxrm (ua + ub) 1))
  | 0x09 => some (vCode bits (vRound vxrm (sa + sb) 1))
  | 0x0A => some (vCode bits (vRound vxrm (ua - ub) 1))
  | 0x0B => some (vCode bits (vRound vxrm (sa - sb) 1))
  | 0x20 => some (if b = 0 then 2 ^ bits - 1 else a / b, 0)
  | 0x21 => some (if b = 0 then (2 ^ bits - 1, 0) else vCode bits (sa.tdiv sb))
  | 0x22 => some (if b = 0 then a else a % b, 0)
  | 0x23 => some (if b = 0 then (a, 0) else vCode bits (sa.tmod sb))
  | 0x24 => some (vCode bits (ua * ub / m))
  | 0x25 => some (vCode bits (ua * ub))
  | 0x26 => some (vCode bits (sa * ub / m))
  | 0x27 => some (vCode bits (sa * sb / m))
  | 0x29 => some (vCode bits (ub * ud + ua))
  | 0x2B => some (vCode bits (ua - ub * ud))
  | 0x2D => some (vCode bits (ub * ua + ud))
  | 0x2F => some (vCode bits (ud - ub * ua))
  | _ => none

/-- The reductions of OPMVV. -/
def vRedOp (bits f6 a b : Nat) : Nat :=
  match f6 with
  | 0 => (a + b) % 2 ^ bits
  | 1 => a &&& b
  | 2 => a ||| b
  | 3 => a ^^^ b
  | 4 => min a b
  | 5 => if signed bits a ≤ signed bits b then a else b
  | 6 => max a b
  | _ => if signed bits a ≤ signed bits b then b else a

/-- The widening operations: `wide` says that vs2 has wide elements already; the signs of vs2 and vs1; what they make of the exact values and the
wide destination. -/
def vwOp (f6 : Nat) : Option (Bool × Bool × Bool × (Int → Int → Int → Int)) :=
  match f6 with
  | 0x30 => some (false, false, false, fun a b _ => a + b)
  | 0x31 => some (false, true, true, fun a b _ => a + b)
  | 0x32 => some (false, false, false, fun a b _ => a - b)
  | 0x33 => some (false, true, true, fun a b _ => a - b)
  | 0x34 => some (true, false, false, fun a b _ => a + b)
  | 0x35 => some (true, true, true, fun a b _ => a + b)
  | 0x36 => some (true, false, false, fun a b _ => a - b)
  | 0x37 => some (true, true, true, fun a b _ => a - b)
  | 0x38 => some (false, false, false, fun a b _ => a * b)
  | 0x3A => some (false, true, false, fun a b _ => a * b)
  | 0x3B => some (false, true, true, fun a b _ => a * b)
  | 0x3C => some (false, false, false, fun a b d => d + a * b)
  | 0x3D => some (false, true, true, fun a b d => d + a * b)
  | 0x3E => some (false, true, false, fun a b d => d + a * b)
  | 0x3F => some (false, false, true, fun a b d => d + a * b)
  | _ => none

/-! ### Shared shapes -/

/-- What the body of a vector instruction works with: SEW, LMUL in eighths, and the registers it names. -/
structure VForm where
  w : Nat
  ag : Nat
  sew : Nat
  m8 : Nat
  vd : Nat
  vs1 : Nat
  vs2 : Nat
  deriving DecidableEq, Repr

/-- The form of an instruction. -/
def Core.vForm (c : Core) (w ag : Nat) : VForm := ⟨w, ag, vsew c.vtype, lmul8 c.vtype, iRd w, iRs1 w, iRs2 w⟩

/-- Is the group named by vs1 a source group of the instruction's own width, if it is a vector form? -/
def VForm.src1 (x : VForm) (vec : Bool) (dBits d8 : Nat) : Bool :=
  !vec || (groupOk x.vs1 x.m8 && overlapOk x.vd dBits d8 x.vs1 x.sew x.m8)
/-- The same of vs2 with elements of so many bits. -/
def VForm.src2 (x : VForm) (sBits s8 dBits d8 : Nat) : Bool := groupOk x.vs2 s8 && overlapOk x.vd dBits d8 x.vs2 sBits s8
/-- Is the destination group well formed? -/
def VForm.dst (x : VForm) (d8 : Nat) : Bool := groupOk x.vd d8 && maskOk x.w x.vd
/-- Is a mask destination well formed against the sources? -/
def VForm.maskDst (x : VForm) (vec : Bool) : Bool :=
  groupOk x.vs2 x.m8 && overlapOk x.vd 1 8 x.vs2 x.sew x.m8 && (!vec || (groupOk x.vs1 x.m8 && overlapOk x.vd 1 8 x.vs1 x.sew x.m8))

/-- The second operand of OPIVV, OPIVX and OPIVI (form 0, 4, 3): an element, the scalar, the signed or the plain immediate. -/
def Core.viArg (c : Core) (x : VForm) (form bits i : Nat) (plain : Bool) : Nat :=
  if form = 0 then c.vElem x.vs1 bits i
  else if form = 4 ∨ form = 6 then c.xr x.vs1 % 2 ^ bits
  else if plain then x.vs1 else sext 5 x.vs1 % 2 ^ bits

/-- How much wider vzext and vsext make an element, by vs1. -/
def vextRatio (k : Nat) : Nat := if k / 2 = 1 then 8 else if k / 2 = 2 then 4 else 2

/-- Gather by indices of so many bits; beyond VLMAX an element reads zero. -/
def Core.vGather (c : Core) (x : VForm) (idx : Nat → Nat) : Core :=
  c.vWrite x.w x.ag x.vd x.sew x.m8 false (fun i =>
    (if vlmax c.vtype ≤ idx i then 0 else c.vElem x.vs2 x.sew (idx i), 0))

/-- Slide up by an offset: elements below it keep their values. -/
def Core.vSlideUp (c : Core) (x : VForm) (off : Nat) : Core :=
  let d := { c with vstart := max c.vstart (min off c.vl) }
  if c.vl ≤ c.vstart then { c with vstart := 0 }
  else if c.vl ≤ d.vstart then c.vTail x.ag x.vd x.sew x.m8 c.vl
  else d.vWrite x.w x.ag x.vd x.sew x.m8 false (fun i => (c.vElem x.vs2 x.sew (i - off), 0))

/-- Slide down by an offset. -/
def Core.vSlideDown (c : Core) (x : VForm) (off : Nat) : Core :=
  c.vWrite x.w x.ag x.vd x.sew x.m8 false (fun i =>
    (if vlmax c.vtype ≤ i + off then 0 else c.vElem x.vs2 x.sew (i + off), 0))

/-- Slide by one, with a scalar in the place that comes free. -/
def Core.vSlide1 (c : Core) (x : VForm) (up : Bool) (v : Nat) : Core :=
  c.vWrite x.w x.ag x.vd x.sew x.m8 false (fun i =>
    (if up then (if i = 0 then v else c.vElem x.vs2 x.sew (i - 1))
     else (if i + 1 = c.vl then v else c.vElem x.vs2 x.sew (i + 1)), 0))

/-- The active body elements, in order. -/
def Core.vBody (c : Core) (w : Nat) : List Nat := (List.range c.vl).filter (fun i => c.active w i)

/-- A reduction into element 0 of vd from element 0 of vs1: elements of `sBits`, the sum of `dBits`; vstart must be zero. -/
def Core.vReduce (c : Core) (x : VForm) (sBits dBits : Nat) (f : Nat × Nat → Nat → Nat × Nat) : Option Core :=
  if c.vstart ≠ 0 ∨ !groupOk x.vs2 x.m8 then none
  else if c.vl = 0 then some c
  else
    let r := (c.vBody x.w).foldl (fun acc i => f acc (c.vElem x.vs2 sBits i)) (c.vElem x.vs1 dBits 0, 0)
    some (c.vScalar x.ag x.vd dBits r.1 r.2)

/-! ### Integer instructions -/

/-- OPIVV, OPIVX, OPIVI (forms 0, 4, 3). -/
def Core.opIV (c : Core) (w ag form : Nat) : Option Core :=
  let x := c.vForm w ag
  let f6 := vF6 w
  let vec := decide (form = 0)
  let vxrm := c.vcsr / 2 % 4
  let plainImm := decide (f6 ∈ [0x25, 0x28, 0x29, 0x2A, 0x2B, 0x2C, 0x2D, 0x2E, 0x2F])
  let arg (i : Nat) : Nat := c.viArg x form x.sew i plainImm
  let one := x.dst x.m8 && x.src2 x.sew x.m8 x.sew x.m8 && x.src1 vec x.sew x.m8
  if f6 = 0x27 ∧ form = 3 then
    -- vmv<nr>r.v
    let n := x.vs1 + 1
    if !vUnmasked w || !(decide (n = 1 ∨ n = 2 ∨ n = 4 ∨ n = 8)) || decide (x.vd % n ≠ 0) || decide (x.vs2 % n ≠ 0) then none
    else some { ((List.range (n * (512 / x.sew))).filter (fun i => decide (c.vstart ≤ i))).foldl
        (fun d i => d.setVElem x.vd x.sew i (c.vElem x.vs2 x.sew i)) c with vstart := 0 }
  else if viForm f6 form then
    if one then some (c.vWrite w ag x.vd x.sew x.m8 false (fun i => (viOp vxrm x.sew f6 (c.vElem x.vs2 x.sew i) (arg i)).getD (0, 0))) else none
  else if 0x18 ≤ f6 ∧ f6 ≤ 0x1F then
    if x.maskDst vec && (viCompare x.sew f6 form 0 0).isSome then
      some (c.vWriteMask w ag x.vd false (fun i => ((viCompare x.sew f6 form (c.vElem x.vs2 x.sew i) (arg i)).getD false, 0)))
    else none
  else match f6 with
    | 0x0C => -- vrgather
      if !x.dst x.m8 || !groupOk x.vs2 x.m8 || groupsMeet x.vd x.m8 x.vs2 x.m8 then none
      else if vec then (if groupOk x.vs1 x.m8 && !groupsMeet x.vd x.m8 x.vs1 x.m8 then some (c.vGather x (fun i => c.vElem x.vs1 x.sew i)) else none)
      else some (c.vGather x (fun _ => if form = 3 then x.vs1 else c.xr x.vs1))
    | 0x0E =>
      if !x.dst x.m8 || !groupOk x.vs2 x.m8 || groupsMeet x.vd x.m8 x.vs2 x.m8 then none
      else if vec then -- vrgatherei16
        let i8 := x.m8 * 16 / x.sew
        if groupOk x.vs1 i8 && !groupsMeet x.vd x.m8 x.vs1 i8 then some (c.vGather x (fun i => c.vElem x.vs1 16 i)) else none
      else some (c.vSlideUp x (if form = 3 then x.vs1 else c.xr x.vs1))
    | 0x0F =>
      if vec || !x.dst x.m8 || !groupOk x.vs2 x.m8 then none else some (c.vSlideDown x (if form = 3 then x.vs1 else c.xr x.vs1))
    | 0x10 => -- vadc
      if vUnmasked w || !one then none
      else some (c.vWrite w ag x.vd x.sew x.m8 true (fun i =>
        vCode x.sew ((c.vElem x.vs2 x.sew i : Int) + arg i + (if (c.vr 0).testBit i then 1 else 0))))
    | 0x12 => -- vsbc
      if vUnmasked w || !one || decide (form = 3) then none
      else some (c.vWrite w ag x.vd x.sew x.m8 true (fun i =>
        vCode x.sew ((c.vElem x.vs2 x.sew i : Int) - arg i - (if (c.vr 0).testBit i then 1 else 0))))
    | 0x11 => -- vmadc
      if !x.maskDst vec then none
      else some (c.vWriteMask w ag x.vd true (fun i =>
        (decide (2 ^ x.sew ≤ c.vElem x.vs2 x.sew i + arg i + (if !vUnmasked w && (c.vr 0).testBit i then 1 else 0)), 0)))
    | 0x13 => -- vmsbc
      if !x.maskDst vec || decide (form = 3) then none
      else some (c.vWriteMask w ag x.vd true (fun i =>
        (decide (c.vElem x.vs2 x.sew i < arg i + (if !vUnmasked w && (c.vr 0).testBit i then 1 else 0)), 0)))
    | 0x17 => -- vmerge, vmv.v
      if vUnmasked w then
        if x.vs2 ≠ 0 ∨ !x.dst x.m8 ∨ !x.src1 vec x.sew x.m8 then none
        else some (c.vWrite w ag x.vd x.sew x.m8 true (fun i => (arg i, 0)))
      else if !one then none
      else some (c.vWrite w ag x.vd x.sew x.m8 true (fun i => (if (c.vr 0).testBit i then arg i else c.vElem x.vs2 x.sew i, 0)))
    | 0x30 => if !vec || decide (64 < 2 * x.sew) then none else c.vReduce x x.sew (2 * x.sew) (fun a v => ((a.1 + v) % 2 ^ (2 * x.sew), 0))
    | 0x31 => if !vec || decide (64 < 2 * x.sew) then none
      else c.vReduce x x.sew (2 * x.sew) (fun a v => (((a.1 : Int) + signed x.sew v) % (2 ^ (2 * x.sew) : Int) |>.toNat, 0))
    | _ =>
      -- vnsrl, vnsra, vnclipu, vnclip
      if f6 < 0x2C ∨ 0x2F < f6 ∨ 64 < 2 * x.sew ∨ !x.dst x.m8 ∨ !x.src2 (2 * x.sew) (2 * x.m8) x.sew x.m8 ∨ !x.src1 vec x.sew x.m8 then none
      else some (c.vWrite w ag x.vd x.sew x.m8 false (fun i =>
        let a := c.vElem x.vs2 (2 * x.sew) i
        let sh := (if form = 4 then c.xr x.vs1 else arg i) % (2 * x.sew)
        match f6 with
        | 0x2C => vCode x.sew ((a : Int) / 2 ^ sh)
        | 0x2D => vCode x.sew (signed (2 * x.sew) a / 2 ^ sh)
        | 0x2E => vClip x.sew false (vRound vxrm a sh)
        | _ => vClip x.sew true (vRound vxrm (signed (2 * x.sew) a) sh)))

/-- The instructions on masks alone: and-not to xnor. -/
def vMaskOp (f6 : Nat) (a b : Bool) : Bool :=
  match f6 with
  | 0x18 => a && !b
  | 0x19 => a && b
  | 0x1A => a || b
  | 0x1B => a != b
  | 0x1C => a || !b
  | 0x1D => !(a && b)
  | 0x1E => !(a || b)
  | _ => a == b

/-- OPMVV, OPMVX (forms 2, 6). -/
def Core.opMV (c : Core) (w ag form : Nat) : Option Core :=
  let x := c.vForm w ag
  let f6 := vF6 w
  let vec := decide (form = 2)
  let vxrm := c.vcsr / 2 % 4
  let arg (i : Nat) : Nat := if vec then c.vElem x.vs1 x.sew i else c.xr x.vs1 % 2 ^ x.sew
  let mask := c.vr x.vs2
  if f6 < 0x08 then
    if vec then c.vReduce x x.sew x.sew (fun a v => (vRedOp x.sew f6 a.1 v, 0)) else none
  else if 0x18 ≤ f6 ∧ f6 ≤ 0x1F then
    if !vec || !vUnmasked w then none
    else some (c.vWriteMask w ag x.vd true (fun i => (vMaskOp f6 (mask.testBit i) ((c.vr x.vs1).testBit i), 0)))
  else match f6 with
    | 0x0E => if vec || !x.dst x.m8 || !groupOk x.vs2 x.m8 || groupsMeet x.vd x.m8 x.vs2 x.m8 then none
      else some (c.vSlide1 x true (c.xr x.vs1 % 2 ^ x.sew))
    | 0x0F => if vec || !x.dst x.m8 || !groupOk x.vs2 x.m8 then none else some (c.vSlide1 x false (c.xr x.vs1 % 2 ^ x.sew))
    | 0x10 =>
      if vec then
        let bits := (c.vBody w).filter (fun i => mask.testBit i)
        match x.vs1 with
        | 0 => if vUnmasked w then some ({ c with vstart := 0 }.setX x.vd (sext x.sew (c.vElem x.vs2 x.sew 0))) else none
        | 16 => if c.vstart ≠ 0 then none else some (c.setX x.vd bits.length)
        | 17 => if c.vstart ≠ 0 then none else some (c.setX x.vd (bits.headD (2 ^ 64 - 1)))
        | _ => none
      else if x.vs2 ≠ 0 ∨ !vUnmasked w then none
      else some (if c.vl ≤ c.vstart then { c with vstart := 0 } else c.vScalar ag x.vd x.sew (c.xr x.vs1) 0)
    | 0x12 => -- vzext, vsext
      let n := vextRatio x.vs1
      if !vec || decide (x.vs1 < 2) || decide (7 < x.vs1) || decide (x.sew / n < 8) || !x.dst x.m8 || !x.src2 (x.sew / n) (x.m8 / n) x.sew x.m8 then none
      else some (c.vWrite w ag x.vd x.sew x.m8 false (fun i =>
        let a := c.vElem x.vs2 (x.sew / n) i
        if x.vs1 % 2 = 0 then (a, 0) else vCode x.sew (signed (x.sew / n) a)))
    | 0x14 =>
      if !vec then none
      else match x.vs1 with
        | 17 => if x.vs2 ≠ 0 ∨ !x.dst x.m8 then none else some (c.vWrite w ag x.vd x.sew x.m8 false (fun i => (i % 2 ^ x.sew, 0)))
        | 16 => if c.vstart ≠ 0 ∨ !x.dst x.m8 ∨ groupsMeet x.vd x.m8 x.vs2 8 then none
          else some (c.vWrite w ag x.vd x.sew x.m8 false (fun i =>
            (((c.vBody w).filter (fun j => decide (j < i) && mask.testBit j)).length % 2 ^ x.sew, 0)))
        | k =>
          if c.vstart ≠ 0 ∨ k < 1 ∨ 3 < k ∨ x.vd = x.vs2 ∨ !maskOk w x.vd then none
          else
            let first := ((c.vBody w).filter (fun i => mask.testBit i)).headD 512
            some (c.vWriteMask w ag x.vd false (fun i =>
              (if k = 1 then decide (i < first) else if k = 2 then decide (i = first) else decide (i ≤ first), 0)))
    | 0x17 => -- vcompress
      if !vec || !vUnmasked w || decide (c.vstart ≠ 0) || !groupOk x.vd x.m8 || !groupOk x.vs2 x.m8 || groupsMeet x.vd x.m8 x.vs2 x.m8
        || groupsMeet x.vd x.m8 x.vs1 8 then none
      else
        let picked := (List.range c.vl).filter (fun i => (c.vr x.vs1).testBit i)
        if c.vl = 0 then some c
        else if picked.isEmpty then some (c.vTail ag x.vd x.sew x.m8 0)
        else some { ({ c with vl := picked.length }.vWrite w ag x.vd x.sew x.m8 true (fun i => (c.vElem x.vs2 x.sew (picked.getD i 0), 0))) with
          vl := c.vl, vstart := 0 }
    | _ =>
      if f6 < 0x30 then
        if (vmOp vxrm x.sew f6 0 0 0).isNone || !x.dst x.m8 || !x.src2 x.sew x.m8 x.sew x.m8 || !x.src1 vec x.sew x.m8 then none
        else some (c.vWrite w ag x.vd x.sew x.m8 false (fun i =>
          (vmOp vxrm x.sew f6 (c.vElem x.vs2 x.sew i) (arg i) (c.vElem x.vd x.sew i)).getD (0, 0)))
      else match vwOp f6 with
        | none => none
        | some (wide, sg2, sg1, f) =>
          let b2 := if wide then 2 * x.sew else x.sew
          if 64 < 2 * x.sew ∨ (vec ∧ f6 = 0x3E) ∨ !x.dst (2 * x.m8) ∨ !x.src2 b2 (if wide then 2 * x.m8 else x.m8) (2 * x.sew) (2 * x.m8)
            ∨ !x.src1 vec (2 * x.sew) (2 * x.m8) then none
          else some (c.vWrite w ag x.vd (2 * x.sew) (2 * x.m8) false (fun i =>
            vCode (2 * x.sew) (f (vInt sg2 b2 (c.vElem x.vs2 b2 i)) (vInt sg1 x.sew (arg i)) (c.vElem x.vd (2 * x.sew) i))))

/-! ### Floating point -/

/-- The sign bit of a format. -/
def fpTop (f : Nat) : Nat := 2 ^ (if f = 0 then 31 else 63)

/-- Negate and multiply-add by the two low bits of a fused instruction's code: a·b + d, −a·b − d, a·b − d, −a·b + d. -/
def vfFused (f rm kind a b d : Nat) : Nat × Nat :=
  let a' := if kind % 2 = 1 then a ^^^ fpTop f else a
  let d' := if kind = 1 ∨ kind = 2 then d ^^^ fpTop f else d
  fpMulAdd f rm (fpVal f a') (fpVal f b) (fpVal f d') (nvOf f [a, b, d])

/-- A subnormal's mantissa with its leading one shifted out, and the exponent that goes with it. -/
def vfNormal (f v : Nat) : Int × Nat :=
  let (eb, mb) := fpBits f
  let e := v / 2 ^ mb % 2 ^ eb
  let m := v % 2 ^ mb
  if e ≠ 0 then ((e : Int), m)
  else
    let lz := mb - 1 - Nat.log2 m
    (-(lz : Int), m * 2 ^ (lz + 1) % 2 ^ mb)

/-- The reciprocal estimate, seven bits. -/
def vfRec7 (f rm v : Nat) : Nat × Nat :=
  let (eb, mb) := fpBits f
  let neg := decide (v / 2 ^ (eb + mb) % 2 = 1)
  match fpVal f v with
  | .nan => (fpNaN f, nvOf f [v])
  | .inf x => (fpZero f x, 0)
  | .fin _ d =>
    if d.m = 0 then (fpInf f neg, fDZ)
    else
      let (e, m) := vfNormal f v
      if e < -1 then
        let toMax := decide (rm = 1) || (decide (rm = 2) && !neg) || (decide (rm = 3) && neg)
        (if toMax then fpInf f neg - 1 else fpInf f neg, fOF + fNX)
      else
        let i := m / 2 ^ (mb - 7)
        let t := ((2 * 65536 + (257 + 2 * i)) / (2 * (257 + 2 * i)) - 128) * 2 ^ (mb - 7)
        let oe : Int := 2 ^ eb - 3 - e
        let sign := fpZero f neg
        if oe = 0 then (sign + (t / 2 + 2 ^ (mb - 1)), 0)
        else if oe < 0 then (sign + (t / 2 + 2 ^ (mb - 1)) / 2, 0)
        else (sign + oe.toNat * 2 ^ mb + t, 0)

/-- The reciprocal square-root estimate, seven bits. -/
def vfRsqrt7 (f v : Nat) : Nat × Nat :=
  let (eb, mb) := fpBits f
  match fpVal f v with
  | .nan => (fpNaN f, nvOf f [v])
  | .inf x => if x then (fpNaN f, fNV) else (0, 0)
  | .fin x d =>
    if d.m = 0 then (fpInf f x, fDZ)
    else if x then (fpNaN f, fNV)
    else
      let (e, m) := vfNormal f v
      let i := m / 2 ^ (mb - 6)
      let k := if e % 2 = 0 then 2 else 1
      let t := (isqrt (262144 * 128 / (k * (129 + 2 * i))) 13 0 + 1) / 2 - 128
      let oe : Int := (3 * (2 ^ (eb - 1) - 1) - 1 - e) / 2
      (oe.toNat * 2 ^ mb + t * 2 ^ (mb - 7), 0)

/-- The one-width operations of OPFVV and OPFVF; `scalar` says that b is the scalar, `d` is the destination's element. -/
def vfOp (f rm f6 : Nat) (scalar : Bool) (a b d : Nat) : Option (Nat × Nat) :=
  let top := fpTop f
  match f6 with
  | 0x00 => some (fpAdd f rm a b)
  | 0x02 => some (fpAdd f rm a (b ^^^ top))
  | 0x04 => some (fpMinMax f false a b)
  | 0x06 => some (fpMinMax f true a b)
  | 0x08 => some (a % top + b / top * top, 0)
  | 0x09 => some (a % top + (1 - b / top) * top, 0)
  | 0x0A => some (a ^^^ (b / top * top), 0)
  | 0x20 => some (fpDiv f rm a b)
  | 0x21 => if scalar then some (fpDiv f rm b a) else none
  | 0x24 => some (fpMul f rm a b)
  | 0x27 => if scalar then some (fpAdd f rm b (a ^^^ top)) else none
  | 0x28 => some (vfFused f rm 0 b d a)
  | 0x29 => some (vfFused f rm 1 b d a)
  | 0x2A => some (vfFused f rm 2 b d a)
  | 0x2B => some (vfFused f rm 3 b d a)
  | 0x2C => some (vfFused f rm 0 b a d)
  | 0x2D => some (vfFused f rm 1 b a d)
  | 0x2E => some (vfFused f rm 2 b a d)
  | 0x2F => some (vfFused f rm 3 b a d)
  | _ => none

/-- The comparisons of OPFVV and OPFVF: result and flags. -/
def vfCompare (f f6 : Nat) (scalar : Bool) (a b : Nat) : Option (Bool × Nat) :=
  let r (x : Nat × Nat) : Option (Bool × Nat) := some (decide (x.1 = 1), x.2)
  match f6 with
  | 0x18 => r (fpCmp f 2 a b)
  | 0x19 => r (fpCmp f 0 a b)
  | 0x1B => r (fpCmp f 1 a b)
  | 0x1C => some (decide ((fpCmp f 2 a b).1 ≠ 1), (fpCmp f 2 a b).2)
  | 0x1D => if scalar then r (fpCmp f 1 b a) else none
  | 0x1F => if scalar then r (fpCmp f 0 b a) else none
  | _ => none

/-- The conversions of VFUNARY0 by vs1: bits of the result and of the source, and the conversion of one element; none for a reserved one. -/
def vfConvert (rm sew k : Nat) : Option (Nat × Nat × (Nat → Nat × Nat)) :=
  let fOf (bits : Nat) : Option Nat := if bits = 32 then some 0 else if bits = 64 then some 1 else none
  let code (bits : Nat) (x : Nat × Nat) : Nat × Nat := (x.1 % 2 ^ bits, x.2)
  let rmi := if k % 8 = 6 ∨ k % 8 = 7 then 1 else rm
  let sg := decide (k % 2 = 1)
  let (db, sb) := if k < 8 then (sew, sew) else if k < 16 then (2 * sew, sew) else (sew, 2 * sew)
  if 64 < db ∨ 64 < sb ∨ 24 ≤ k then none
  else match k % 8 with
    | 2 => (fOf db).map (fun f => (db, sb, fun a => fpOfIntW f rm sb false a))
    | 3 => (fOf db).map (fun f => (db, sb, fun a => fpOfIntW f rm sb true a))
    | 4 => if k < 8 then none
      else match fOf db, fOf sb with
        | some f, some _ => some (db, sb, fun a => fpConvert f rm a)
        | _, _ => none
    | 5 => if k ≠ 0x15 then none
      else match fOf db, fOf sb with
        | some f, some _ => some (db, sb, fun a => fpConvert f 5 a)
        | _, _ => none
    | _ => (fOf sb).map (fun f => (db, sb, fun a => code db (fpToIntW f rmi db sg a)))

/-- OPFVV, OPFVF (forms 1, 5). The rounding mode must be a valid one. -/
def Core.opFV (c : Core) (w ag form : Nat) : Option Core :=
  let x := c.vForm w ag
  let f6 := vF6 w
  let vec := decide (form = 1)
  let rm := c.fcsr / 32 % 8
  let f := if x.sew = 32 then 0 else 1
  let fOk := decide (x.sew = 32) || decide (x.sew = 64)
  let arg (i : Nat) : Nat := if vec then c.vElem x.vs1 x.sew i else c.fop f x.vs1
  let narrow := decide (x.sew = 32)
  let up (a : Nat) : Nat := (fpConvert 1 rm a).1
  if 4 < rm then none
  else if f6 = 0x12 then
    match vfConvert rm x.sew x.vs1 with
    | none => none
    | some (db, sb, g) =>
      let d8 := x.m8 * db / x.sew
      let s8 := x.m8 * sb / x.sew
      if !vec || !x.dst d8 || !x.src2 sb s8 db d8 then none
      else some (c.vWrite w ag x.vd db d8 false (fun i => g (c.vElem x.vs2 sb i)))
  else if !fOk then none
  else if 0x18 ≤ f6 ∧ f6 ≤ 0x1F then
    if !x.maskDst vec || (vfCompare f f6 (!vec) 0 0).isNone then none
    else some (c.vWriteMask w ag x.vd false (fun i => (vfCompare f f6 (!vec) (c.vElem x.vs2 x.sew i) (arg i)).getD (false, 0)))
  else match f6 with
    | 0x01 => if !vec || decide (c.vstart ≠ 0) || !groupOk x.vs2 x.m8 then none
      else if c.vl = 0 then some c
      else if (c.vBody w).isEmpty then some (c.vScalar ag x.vd x.sew (c.vElem x.vs1 x.sew 0) 0)
      else some (c.vScalar (ag / 2 ^ 128) x.vd x.sew ag (ag / 2 ^ 64 % 32))
    | 0x03 => if vec then c.vReduce x x.sew x.sew (fun a v => let r := fpAdd f rm a.1 v; (r.1, a.2 ||| r.2)) else none
    | 0x05 => if vec then c.vReduce x x.sew x.sew (fun a v => let r := fpMinMax f false a.1 v; (r.1, a.2 ||| r.2)) else none
    | 0x07 => if vec then c.vReduce x x.sew x.sew (fun a v => let r := fpMinMax f true a.1 v; (r.1, a.2 ||| r.2)) else none
    | 0x0E => if vec || !x.dst x.m8 || !groupOk x.vs2 x.m8 || groupsMeet x.vd x.m8 x.vs2 x.m8 then none
      else some (c.vSlide1 x true (c.fop f x.vs1))
    | 0x0F => if vec || !x.dst x.m8 || !groupOk x.vs2 x.m8 then none else some (c.vSlide1 x false (c.fop f x.vs1))
    | 0x10 =>
      if !vUnmasked w then none
      else if vec then (if x.vs1 = 0 then some ({ c with vstart := 0 }.putF f x.vd (c.vElem x.vs2 x.sew 0)) else none)
      else if x.vs2 ≠ 0 then none
      else some (if c.vl ≤ c.vstart then { c with vstart := 0 } else c.vScalar ag x.vd x.sew (c.fop f x.vs1) 0)
    | 0x13 =>
      if !vec || !x.dst x.m8 || !x.src2 x.sew x.m8 x.sew x.m8 || !decide (x.vs1 ∈ [0, 4, 5, 16]) then none
      else some (c.vWrite w ag x.vd x.sew x.m8 false (fun i =>
        let a := c.vElem x.vs2 x.sew i
        match x.vs1 with
        | 0 => fpSqrt f rm a
        | 4 => vfRsqrt7 f a
        | 5 => vfRec7 f rm a
        | _ => (fpClass f a, 0)))
    | 0x17 =>
      if vec || !x.dst x.m8 then none
      else if vUnmasked w then (if x.vs2 ≠ 0 then none else some (c.vWrite w ag x.vd x.sew x.m8 true (fun i => (arg i, 0))))
      else if !x.src2 x.sew x.m8 x.sew x.m8 then none
      else some (c.vWrite w ag x.vd x.sew x.m8 true (fun i => (if (c.vr 0).testBit i then arg i else c.vElem x.vs2 x.sew i, 0)))
    | 0x31 => if !vec || !narrow || decide (c.vstart ≠ 0) || !groupOk x.vs2 x.m8 then none
      else if c.vl = 0 then some c
      else if (c.vBody w).isEmpty then some (c.vScalar ag x.vd 64 (c.vElem x.vs1 64 0) 0)
      else some (c.vScalar (ag / 2 ^ 128) x.vd 64 ag (ag / 2 ^ 64 % 32))
    | 0x33 => if !vec || !narrow then none
      else c.vReduce x 32 64 (fun a v => let r := fpAdd 1 rm a.1 (up v); (r.1, a.2 ||| r.2 ||| nvOf 0 [v]))
    | _ =>
      if f6 < 0x30 then
        if (vfOp f rm f6 (!vec) 0 0 0).isNone || !x.dst x.m8 || !x.src2 x.sew x.m8 x.sew x.m8 || !x.src1 vec x.sew x.m8 then none
        else some (c.vWrite w ag x.vd x.sew x.m8 false (fun i =>
          (vfOp f rm f6 (!vec) (c.vElem x.vs2 x.sew i) (arg i) (c.vElem x.vd x.sew i)).getD (0, 0)))
      else
        let wide := decide (f6 = 0x34) || decide (f6 = 0x36)
        let b2 := if wide then 64 else 32
        let known := decide (f6 ∈ [0x30, 0x32, 0x34, 0x36, 0x38, 0x3C, 0x3D, 0x3E, 0x3F])
        if !narrow || !known || !x.dst (2 * x.m8) || !x.src2 b2 (if wide then 2 * x.m8 else x.m8) 64 (2 * x.m8) || !x.src1 vec 64 (2 * x.m8) then none
        else some (c.vWrite w ag x.vd 64 (2 * x.m8) false (fun i =>
          let a0 := c.vElem x.vs2 b2 i
          let b0 := arg i
          let a := if wide then a0 else up a0
          let b := up b0
          let nv := (if wide then 0 else nvOf 0 [a0]) ||| nvOf 0 [b0]
          let r := match f6 with
            | 0x30 => fpAdd 1 rm a b
            | 0x34 => fpAdd 1 rm a b
            | 0x32 => fpAdd 1 rm a (b ^^^ fpTop 1)
            | 0x36 => fpAdd 1 rm a (b ^^^ fpTop 1)
            | 0x38 => fpMul 1 rm a b
            | _ => vfFused 1 rm (f6 % 4) b a (c.vElem x.vd 64 i)
          (r.1, r.2 ||| nv)))

/-- The register groups an instruction reads, as register, eighths and bits of an element; a mask has elements of one bit. -/
def VForm.sources (x : VForm) (form f6 : Nat) : List (Nat × Nat × Nat) :=
  let s2 := (x.vs2, x.m8, x.sew)
  let w2 := (x.vs2, 2 * x.m8, 2 * x.sew)
  let s1 : List (Nat × Nat × Nat) := if form < 3 then [(x.vs1, x.m8, x.sew)] else []
  let m2 := (x.vs2, 8, 1)
  let wd := (x.vd, 2 * x.m8, 2 * x.sew)
  let mask : List (Nat × Nat × Nat) := if vUnmasked x.w then [] else [(0, 8, 1)]
  mask ++
  (if form = 0 ∨ form = 3 ∨ form = 4 then
    if f6 = 0x30 ∨ f6 = 0x31 then [s2, (x.vs1, 8, 2 * x.sew)]
    else if 0x2C ≤ f6 ∧ f6 ≤ 0x2F then w2 :: s1
    else if f6 = 0x0E ∧ form = 0 then [s2, (x.vs1, x.m8 * 16 / x.sew, 16)]
    else if f6 = 0x17 ∧ vUnmasked x.w then s1
    else s2 :: s1
  else if form = 2 ∨ form = 6 then
    if f6 < 8 then [s2, (x.vs1, 8, x.sew)]
    else if f6 = 0x10 then (if form = 6 then [] else if x.vs1 = 0 then [(x.vs2, 8, x.sew)] else [m2])
    else if f6 = 0x12 then (let n := vextRatio x.vs1; [(x.vs2, x.m8 / n, x.sew / n)])
    else if f6 = 0x14 then (if x.vs1 = 17 then [] else [m2])
    else if f6 = 0x17 then [s2, (x.vs1, 8, 1)]
    else if 0x18 ≤ f6 ∧ f6 ≤ 0x1F then [m2, (x.vs1, 8, 1)]
    else if f6 ∈ [0x29, 0x2B, 0x2D, 0x2F] then (x.vd, x.m8, x.sew) :: s2 :: s1
    else if 0x34 ≤ f6 ∧ f6 ≤ 0x37 then w2 :: s1
    else if 0x3C ≤ f6 then wd :: s2 :: s1
    else s2 :: s1
  else
    if f6 ∈ [0x01, 0x03, 0x05, 0x07] then [s2, (x.vs1, 8, x.sew)]
    else if f6 = 0x31 ∨ f6 = 0x33 then [s2, (x.vs1, 8, 64)]
    else if f6 = 0x10 then (if form = 5 then [] else [(x.vs2, 8, x.sew)])
    else if f6 = 0x12 then [if 16 ≤ x.vs1 then w2 else s2]
    else if f6 = 0x13 then [s2]
    else if f6 = 0x17 then (if vUnmasked x.w then [] else [s2])
    else if 0x28 ≤ f6 ∧ f6 ≤ 0x2F then (x.vd, x.m8, x.sew) :: s2 :: s1
    else if f6 = 0x34 ∨ f6 = 0x36 then w2 :: s1
    else if 0x3C ≤ f6 then wd :: s2 :: s1
    else s2 :: s1)

/-- No register is read with elements of two widths. -/
def sourcesOk : List (Nat × Nat × Nat) → Bool
  | [] => true
  | (r, m, b) :: t => t.all (fun y => decide (b = y.2.2) || !groupsMeet r m y.1 y.2.1) && sourcesOk t

/-- OP-V: the vset instructions and the arithmetic, by funct3; none for a reserved encoding, or where vtype is illegal. -/
def Core.opV (c : Core) (w ag : Nat) : Option Core :=
  let rd := iRd w
  if iF3 w = 7 then
    let avl : Option Nat := if iRs1 w ≠ 0 then some (c.xr (iRs1 w)) else if rd ≠ 0 then some (2 ^ 64) else none
    if nfld w 31 31 = 0 then some (c.vset w (nfld w 30 20) avl)
    else if nfld w 31 30 = 3 then some (c.vset w (nfld w 29 20) (some (iRs1 w)))
    else if nfld w 31 25 = 64 then some (c.vset w (c.xr (iRs2 w)) avl)
    else none
  else if vill c.vtype || !sourcesOk ((c.vForm w ag).sources (iF3 w) (vF6 w)) then none
  else match iF3 w with
    | 1 => c.opFV w ag 1
    | 5 => c.opFV w ag 5
    | 2 => c.opMV w ag 2
    | 6 => c.opMV w ag 6
    | n => c.opIV w ag n

/-- After a vector load: agnostic elements of its groups take ones where their free bit says so. `vlm` has bytes for elements and an agnostic
tail whatever vtype says. -/
def Core.loadAgnostic (c : Core) (w ag : Nat) : Core :=
  let lum := iRs2 w
  let mop := nfld w 27 26
  let nf := nfld w 31 29 + 1
  if mop = 0 ∧ lum = 8 then c
  else if mop = 0 ∧ lum = 11 then
    if c.vl = 0 then c
    else (List.range 64).foldl (fun d i => if (c.vl + 7) / 8 ≤ i ∧ ag.testBit i then d.setVElem (iRd w) 8 i 255 else d) c
  else
    let eew := match iF3 w with | 0 => 8 | 5 => 16 | 6 => 32 | _ => 64
    let bits := if mop % 2 = 1 then vsew c.vtype else eew
    let regs := groupRegs (lmul8 c.vtype * bits / vsew c.vtype)
    if c.vl ≤ c.vstart then c
    else (List.range nf).foldl (fun c f => (List.range (regs * (512 / bits))).foldl (fun d i =>
      if i < c.vstart ∨ (i < c.vl ∧ c.active w i) then d
      else if (if i < c.vl then c.maskFree else c.tailFree) && ag.testBit i then d.setVElem (iRd w + f * regs) bits i (2 ^ bits - 1)
      else d) c) c

end Sys2Proof.Machine
end

