-- ==== Sys2Proof/Machine/GcUnit.lean ====
section
/-! DEFINITION. A general core on its own (R106, R111 to R115): registers, which row of the table carries an instruction out, what an
instruction that no row names does, the accesses of a load or store, the vector compare-exchange and dequantization instructions. -/

namespace Sys2Proof.Machine

/-! ### Loads and stores -/

/-- Where the bytes of one access go or come from: an integer register (sign-extended or not), a floating-point register, bytes of a
vector register. -/
inductive Operand where
  | x (r : Nat) (sign : Bool)
  | f (r : Nat)
  | v (r off : Nat)
  deriving DecidableEq, Repr

/-- One access of a load or store: address, bytes, operand, and the vector element it belongs to. -/
structure MemAcc where
  va : Nat
  n : Nat
  op : Operand
  el : Nat
  deriving DecidableEq, Repr

/-- The accesses of a vector load or store from vstart on; none for a reserved encoding. -/
def Core.vectorAccesses (c : Core) (w : Nat) (store : Bool) : Option (List MemAcc) :=
  let vd := iRd w
  let base := c.xr (iRs1 w)
  let nf := nfld w 31 29 + 1
  let mop := nfld w 27 26
  let lum := iRs2 w
  let eew := match iF3 w with | 0 => 8 | 5 => 16 | 6 => 32 | _ => 64
  let bytes := eew / 8
  let from_ (n : Nat) : List Nat := (List.range n).filter (fun i => decide (c.vstart ≤ i))
  let sew := vsew c.vtype
  if nfld w 28 28 = 1 then none
  else if mop = 0 ∧ lum = 8 then
    if (nf = 1 ∨ nf = 2 ∨ nf = 4 ∨ nf = 8) ∧ vd % nf = 0 ∧ nfld w 25 25 = 1 ∧ !(store && decide (eew ≠ 8)) then
      some ((from_ (nf * 64 / bytes)).map (fun i => ⟨(base + i * bytes) % 2 ^ 64, bytes, .v (vd + i * bytes / 64) (i * bytes % 64), i⟩))
    else none
  else if vill c.vtype then none
  else if mop = 0 ∧ lum = 11 then
    if eew = 8 ∧ nf = 1 ∧ nfld w 25 25 = 1 then
      some ((from_ ((c.vl + 7) / 8)).map (fun i => ⟨(base + i) % 2 ^ 64, 1, .v vd i, i⟩))
    else none
  else if mop = 0 ∧ lum ≠ 0 ∧ !(decide (lum = 16) && !store) then none
  else
    let indexed := decide (mop % 2 = 1)
    let eb := if indexed then sew / 8 else bytes
    let emul := lmul8 c.vtype * (8 * eb) / sew
    let imul := lmul8 c.vtype * eew / sew
    let regs := max 1 (emul / 8)
    let read := vUnmasked w || (decide (vd ≠ 0) && !(indexed && decide (lum = 0)))
    let apart := !indexed ||
      (if store then decide (eb = bytes) || !groupsMeet vd (8 * nf * regs) lum imul
       else if nf = 1 then overlapOk vd (8 * eb) emul lum eew imul else !groupsMeet vd (8 * nf * regs) lum imul)
    if !read ∨ !apart ∨ emul = 0 ∨ 64 < emul ∨ 64 < nf * regs * 8 ∨ vd % regs ≠ 0 ∨ 32 < vd + nf * regs ∨ (indexed ∧ (imul = 0 ∨ 64 < imul ∨ lum % max 1 (imul / 8) ≠ 0))
    then none
    else
      let addr (i : Nat) : Nat :=
        if mop = 0 then base + i * nf * eb
        else if mop = 2 then base + i * c.xr lum
        else base + c.vBytes (lum + i * bytes / 64) (i * bytes % 64) bytes
      some ((from_ c.vl).flatMap (fun i => if c.active w i then
          (List.range nf).map (fun f => ⟨(addr i + f * eb) % 2 ^ 64, eb, .v (vd + f * regs + i * eb / 64) (i * eb % 64), i⟩)
        else []))

/-- The accesses of a load; none for a reserved encoding. -/
def Core.loads (c : Core) (w : Nat) : Option (List MemAcc) :=
  let va := (c.xr (iRs1 w) + immI w) % 2 ^ 64
  let f3 := iF3 w
  if iOp w = 0x03 then (if f3 = 7 then none else some [⟨va, 2 ^ (f3 % 4), .x (iRd w) (decide (f3 < 4)), 0⟩])
  else if f3 = 2 then some [⟨va, 4, .f (iRd w), 0⟩]
  else if f3 = 3 then some [⟨va, 8, .f (iRd w), 0⟩]
  else if f3 = 0 ∨ 5 ≤ f3 then c.vectorAccesses w false
  else none

/-- The accesses of a store; none for a reserved encoding. -/
def Core.stores (c : Core) (w : Nat) : Option (List MemAcc) :=
  let va := (c.xr (iRs1 w) + immS w) % 2 ^ 64
  let f3 := iF3 w
  if iOp w = 0x23 then (if 3 < f3 then none else some [⟨va, 2 ^ f3, .x (iRs2 w) false, 0⟩])
  else if f3 = 2 then some [⟨va, 4, .f (iRs2 w), 0⟩]
  else if f3 = 3 then some [⟨va, 8, .f (iRs2 w), 0⟩]
  else if f3 = 0 ∨ 5 ≤ f3 then c.vectorAccesses w true
  else none

/-- A loaded value reaches its register. -/
def Core.putLoaded (c : Core) (a : MemAcc) (v : Nat) : Core :=
  match a.op with
  | .x r sg => c.setX r (if sg then sext (8 * a.n) v else v)
  | .f r => if a.n = 4 then c.putF 0 r v else c.setF r v
  | .v r off => c.setVBytes r off a.n v

/-- The value a store writes. -/
def Core.toStore (c : Core) (a : MemAcc) : Nat :=
  match a.op with
  | .x r _ => c.xr r % 2 ^ (8 * a.n)
  | .f r => c.fr r % 2 ^ (8 * a.n)
  | .v r off => c.vBytes r off a.n

/-! ### Instructions that no row names -/

/-- A control and status register that user code reads (R106); none where there is none. -/
def Core.csr (c : Core) (lcc n : Nat) : Option Nat :=
  match n with
  | 0x001 => some (c.fcsr % 32)
  | 0x002 => some (c.fcsr / 32 % 8)
  | 0x003 => some (c.fcsr % 256)
  | 0x008 => some c.vstart
  | 0x009 => some (c.vcsr % 2)
  | 0x00A => some (c.vcsr / 2 % 4)
  | 0x00F => some (c.vcsr % 8)
  | 0xC00 => some 0
  | 0xC01 => some lcc
  | 0xC02 => some c.retired
  | 0xC20 => some c.vl
  | 0xC21 => some c.vtype
  | 0xC22 => some 64
  | _ => none

/-- Write one. -/
def Core.setCsr (c : Core) (n v : Nat) : Core :=
  match n with
  | 0x001 => { c with fcsr := c.fcsr / 32 * 32 + v % 32 }
  | 0x002 => { c with fcsr := v % 8 * 32 + c.fcsr % 32 }
  | 0x003 => { c with fcsr := v % 256 }
  | 0x008 => { c with vstart := v % 512 }
  | 0x009 => { c with vcsr := c.vcsr / 2 * 2 + v % 2 }
  | 0x00A => { c with vcsr := v % 4 * 2 + c.vcsr % 2 }
  | 0x00F => { c with vcsr := v % 8 }
  | _ => c

/-- What of a result is a free value: nothing, or an integer register. -/
inductive Open where
  | none
  | x (r : Nat)
  deriving DecidableEq, Repr

/-- A control and status register instruction (SYSTEM with funct3 other than 0). -/
def Core.csrOp (c : Core) (lcc w : Nat) : Option (Core × Open) :=
  let n := nfld w 31 20
  let src := if 4 ≤ iF3 w then iRs1 w else c.xr (iRs1 w)
  let writes := decide (iF3 w % 4 = 1) || decide (iRs1 w ≠ 0)
  if iF3 w % 4 = 0 then none
  else match c.csr lcc n with
    | none => none
    | some old =>
      if writes && decide (0xC00 ≤ n) then none
      else
        let v := match iF3 w % 4 with | 1 => src | 2 => old ||| src | _ => old - (old &&& src)
        let c := if writes then c.setCsr n v else c
        some (if n = 0xC00 then (c, .x (iRd w)) else (c.setX (iRd w) old, .none))

/-- The rounding mode of an instruction: its own, or that of fcsr; none for a reserved one. -/
def Core.rm (c : Core) (w : Nat) : Option Nat :=
  let m := if iF3 w = 7 then c.fcsr / 32 % 8 else iF3 w
  if m ≤ 4 then some m else none

/-- Put a floating-point result and its flags. -/
def Core.fpDone (c : Core) (f r : Nat) (x : Nat × Nat) : Core := (c.putF f r x.1).flag x.2
/-- Put an integer result and flags. -/
def Core.fpToX (c : Core) (r : Nat) (x : Nat × Nat) : Core := (c.setX r x.1).flag x.2

/-- OP-FP; none for a reserved encoding. -/
def Core.opFp (c : Core) (w : Nat) : Option Core :=
  let f := iF7 w % 4
  let rd := iRd w
  let a := c.fop f (iRs1 w)
  let b := c.fop f (iRs2 w)
  let sign (v : Nat) : Nat := v / 2 ^ (if f = 0 then 31 else 63)
  let top : Nat := 2 ^ (if f = 0 then 31 else 63)
  let f3 := iF3 w
  if 1 < f then none
  else match iF7 w / 4 with
    | 0x00 => (c.rm w).map (fun m => c.fpDone f rd (fpAdd f m a b))
    | 0x01 => (c.rm w).map (fun m => c.fpDone f rd (fpAdd f m a (b ^^^ top)))
    | 0x02 => (c.rm w).map (fun m => c.fpDone f rd (fpMul f m a b))
    | 0x03 => (c.rm w).map (fun m => c.fpDone f rd (fpDiv f m a b))
    | 0x0B => if iRs2 w ≠ 0 then none else (c.rm w).map (fun m => c.fpDone f rd (fpSqrt f m a))
    | 0x04 =>
      match f3 with
      | 0 => some (c.putF f rd (a % top + sign b * top))
      | 1 => some (c.putF f rd (a % top + (1 - sign b) * top))
      | 2 => some (c.putF f rd (a ^^^ (sign b * top)))
      | _ => none
    | 0x05 => if 1 < f3 then none else some (c.fpDone f rd (fpMinMax f (decide (f3 = 1)) a b))
    | 0x08 => if iRs2 w ≠ 1 - f then none else (c.rm w).map (fun m => c.fpDone f rd (fpConvert f m (c.fop (1 - f) (iRs1 w))))
    | 0x14 => if 2 < f3 then none else some (c.fpToX rd (fpCmp f f3 a b))
    | 0x18 => if 3 < iRs2 w then none else (c.rm w).map (fun m => c.fpToX rd (fpToInt f m (iRs2 w) a))
    | 0x1A => if 3 < iRs2 w then none else (c.rm w).map (fun m => c.fpDone f rd (fpOfInt f m (iRs2 w) (c.xr (iRs1 w))))
    | 0x1C =>
      if iRs2 w ≠ 0 then none
      else if f3 = 0 then some (c.setX rd (if f = 0 then sext 32 (c.fr (iRs1 w)) else c.fr (iRs1 w)))
      else if f3 = 1 then some (c.setX rd (fpClass f a))
      else none
    | 0x1E => if iRs2 w ≠ 0 ∨ f3 ≠ 0 then none else some (c.putF f rd (c.xr (iRs1 w)))
    | _ => none

/-- The fused multiply-adds, opcodes 0x43 to 0x4F. -/
def Core.opFma (c : Core) (w : Nat) : Option Core :=
  let f := iF7 w % 4
  let top : Nat := 2 ^ (if f = 0 then 31 else 63)
  let a := c.fop f (iRs1 w)
  let b := c.fop f (iRs2 w)
  let d := c.fop f (nfld w 31 27)
  let kind := nfld (iOp w) 3 2
  let a' := if kind = 2 ∨ kind = 3 then a ^^^ top else a
  let d' := if kind = 1 ∨ kind = 3 then d ^^^ top else d
  if 1 < f then none
  else (c.rm w).map (fun m => c.fpDone f (iRd w) (fpMulAdd f m (fpVal f a') (fpVal f b) (fpVal f d') (nvOf f [a, b, d])))

/-- An instruction that no row names: the core with its effect and its next pc, and what of it is free; none for an illegal one. `ag` are the free
bits of a vector instruction. -/
def Core.plain (c : Core) (lcc len w ag : Nat) : Option (Core × Open) :=
  let rd := iRd w
  let a := c.xr (iRs1 w)
  let b := c.xr (iRs2 w)
  let next := (c.pc + len) % 2 ^ 64
  let go (pc : Nat) (c : Core) : Core := { c with pc := pc % 2 ^ 64 }
  let put (v : Option Nat) : Option (Core × Open) := v.map (fun v => (go next (c.setX rd v), .none))
  match iOp w with
  | 0x37 => put (some (immU w))
  | 0x17 => put (some (c.pc + immU w))
  | 0x6F => some (go (c.pc + immJ w) (c.setX rd next), .none)
  | 0x67 => if iF3 w ≠ 0 then none else some (go ((a + immI w) % 2 ^ 64 / 2 * 2) (c.setX rd next), .none)
  | 0x63 => (branchTaken (iF3 w) a b).map (fun t => (go (if t then c.pc + immB w else next) c, .none))
  | 0x13 =>
    if iF3 w = 1 ∨ iF3 w = 5 then
      (if nfld w 31 26 = 0 ∨ (iF3 w = 5 ∧ nfld w 31 26 = 0x10) then put (intOp 64 (iF3 w) (nfld w 31 26 * 2) a (nfld w 25 20)) else none)
    else put (intOp 64 (iF3 w) 0 a (immI w))
  | 0x1B =>
    if iF3 w = 0 then put (some (sext 32 (a + immI w)))
    else if iF3 w = 1 ∨ iF3 w = 5 then
      (if iF7 w = 0 ∨ (iF3 w = 5 ∧ iF7 w = 0x20) then put ((intOp 32 (iF3 w) (iF7 w) a (iRs2 w)).map (sext 32)) else none)
    else none
  | 0x33 => put (intOp 64 (iF3 w) (iF7 w) a b)
  | 0x3B => put ((intOp 32 (iF3 w) (iF7 w) a b).map (sext 32))
  | 0x73 => (c.csrOp lcc w).map (fun x => (go next x.1, x.2))
  | 0x43 => (c.opFma w).map (fun c => (go next c, .none))
  | 0x47 => (c.opFma w).map (fun c => (go next c, .none))
  | 0x4B => (c.opFma w).map (fun c => (go next c, .none))
  | 0x4F => (c.opFma w).map (fun c => (go next c, .none))
  | 0x53 => (c.opFp w).map (fun c => (go next c, .none))
  | 0x57 => (c.opV w ag).map (fun c => (go next c, .none))
  | _ => none

/-! ### Key order and compare-exchange (R112 to R114) -/

/-- A key's place in the key order; NaNs are equal and on top. -/
def keyRank (ty k : Nat) : Int :=
  match ty with
  | 0 => if 0x7F800000 < k % 2 ^ 31 then 2 ^ 32 else if k < 2 ^ 31 then (k : Int) else -((k % 2 ^ 31 : Nat) : Int)
  | 1 => (k : Int)
  | _ => signed 32 k

/-- Does (key, index) a order before b (R112)? -/
def keyBefore (ty : Nat) (desc : Bool) (a b : Nat × Nat) : Bool :=
  let x := keyRank ty a.1
  let y := keyRank ty b.1
  if x = y then decide (a.2 < b.2) else if desc then decide (y < x) else decide (x < y)

/-- A 32-bit lane of a vector register's value. -/
def lane (v l : Nat) : Nat := v / 2 ^ (32 * l) % 2 ^ 32
/-- A register value from its sixteen lanes. -/
def lanes (f : Nat → Nat) : Nat := (List.range 16).foldr (fun l acc => acc + f l % 2 ^ 32 * 2 ^ (32 * l)) 0
/-- Element l of a pair of registers: key and index. -/
def Core.elemOf (c : Core) (r l : Nat) : Nat × Nat := (lane (c.vr r) l, lane (c.vr (r + 1)) l)
/-- Write a pair of registers from its elements. -/
def Core.setPair (c : Core) (r : Nat) (f : Nat → Nat × Nat) : Core :=
  (c.setV r (lanes (fun l => (f l).1))).setV (r + 1) (lanes (fun l => (f l).2))

/-- Is lane l of a stage descending (R113)? -/
def stageDesc (par l : Nat) : Bool :=
  (nfld par 23 16 * 16 + l).testBit (nfld par 7 4) != decide (nfld par 8 8 = 1)

/-- gc.bxw (R113). -/
def Core.bxw (c : Core) (w : Nat) : Core :=
  let vd := iRd w
  let par := c.xr (iRs1 w)
  let d := nfld par 3 0
  let swaps (l : Nat) : Bool := keyBefore (nfld par 10 9) (stageDesc par l) (c.elemOf vd (l + 2 ^ d)) (c.elemOf vd l)
  c.setPair vd (fun l =>
    if l.testBit d then (if swaps (l - 2 ^ d) then c.elemOf vd (l - 2 ^ d) else c.elemOf vd l)
    else (if swaps l then c.elemOf vd (l + 2 ^ d) else c.elemOf vd l))

/-- gc.bxc (R114). -/
def Core.bxc (c : Core) (w : Nat) : Core :=
  let vd := iRd w
  let vs := iRs2 w
  let par := c.xr (iRs1 w)
  let swaps (l : Nat) : Bool := keyBefore (nfld par 10 9) (stageDesc par l) (c.elemOf vs l) (c.elemOf vd l)
  (c.setPair vd (fun l => if swaps l then c.elemOf vs l else c.elemOf vd l)).setPair vs
    (fun l => if swaps l then c.elemOf vd l else c.elemOf vs l)

/-- Are gc.bxw and gc.bxc legal here (R111, R113)? -/
def Core.bxwOk (c : Core) (w : Nat) : Bool :=
  let par := c.xr (iRs1 w)
  decide (iF7 w = 0) && decide (iRs2 w = 0) && decide (iRd w % 2 = 0) && decide (nfld par 10 9 ≠ 3) && decide (nfld par 7 4 ≠ 0)
    && decide (nfld par 3 0 ≤ 3)
def Core.bxcOk (c : Core) (w : Nat) : Bool :=
  let par := c.xr (iRs1 w)
  decide (iF7 w = 0) && decide (iRs2 w % 2 = 0) && decide (iRd w % 2 = 0) && decide (iRd w ≠ iRs2 w) && decide (nfld par 10 9 ≠ 3)
    && decide (nfld par 7 4 ≠ 0)

/-! ### Dequantization (R115) -/

/-- A sum of values; NaN where an infinity meets its opposite. -/
def FVal.add : FVal → FVal → FVal
  | .nan, _ => .nan
  | _, .nan => .nan
  | .inf x, .inf y => if x = y then .inf x else .nan
  | .inf x, _ => .inf x
  | _, .inf y => .inf y
  | .fin _ d, .fin _ g => .fin false (d.add g)

/-- The format of a funct7 of gc.dq, and the largest g. -/
def dqFormat : Nat → Option (Nat × Nat)
  | 0 => some (fmInt8, 3) | 1 => some (fmE2m1, 7) | 2 => some (fmY3, 9) | 3 => some (fmY2, 15) | 4 => some (fmYt, 15)
  | 5 => some (fmE2m1, 7) | 6 => some (fmE4m3, 3) | _ => none

/-- Is gc.dq legal here? -/
def Core.dqOk (c : Core) (w : Nat) : Bool :=
  match dqFormat (iF7 w) with
  | some (_, g) => decide (nfld (c.xr (iRs1 w)) 35 32 ≤ g)
  | none => false

/-- The sixteen element codes gc.dq reads, and how many invalid codes stand among them: for YT, among the bytes that hold them. -/
def dqCodes (fmt g v : Nat) : List Nat × Nat :=
  if fmt = fmYt then
    let bytes := (List.range 64).map (fun i => v / 2 ^ (8 * i) % 256)
    let touched := (List.range 64).filter (fun i => decide (16 * g / 5 ≤ i) && decide (i ≤ (16 * g + 15) / 5))
    (((bytes.flatMap trits).drop (16 * g)).take 16, invalidCodes fmYt (touched.map (fun i => bytes.getD i 0)))
  else
    let bits := codeBits fmt
    let cs := (List.range 16).map (fun i => v / 2 ^ (bits * (16 * g + i)) % 2 ^ bits)
    (cs, invalidCodes fmt cs)

/-- gc.dq: the core after it, and the invalid codes it read. -/
def Core.dq (c : Core) (w : Nat) : Core × Nat :=
  match dqFormat (iF7 w) with
  | none => (c, 0)
  | some (fmt, _) =>
    let par := c.xr (iRs1 w)
    let (cs, bad) := dqCodes fmt (nfld par 35 32) (c.vr (iRs2 w))
    let value (code : Nat) : Nat :=
      if iF7 w < 2 then
        let n : FVal := .fin false ⟨signed (if iF7 w = 0 then 8 else 4) code, 0⟩
        (((FVal.ofBits 5 10 (nfld par 15 0)).mul n).add (FVal.ofBits 5 10 (nfld par 31 16))).toF32
      else ((elemVal fmt code).mul (e8m0 (nfld par 7 0))).toF32
    (c.setV (iRd w) (lanes (fun l => value (cs.getD l 0))), bad)

/-! ### Which row carries an instruction out -/

/-- The rows of the table for instructions of a core, and `plain` for an instruction that none names. -/
inductive GcRow where
  | plain | illegal | ecall | ebreak | load | store | fence | fenceI
  | amoadd | amomin | amomax | amominu | amomaxu | amoswap | amoand | amoor | amoxor | lr | sc
  | bxw | bxc | dq | kmrg | semsig | semwait | semrd | dcln | dinv | cas | amofadd | tag
  deriving DecidableEq, Repr

/-- The row of an AMO. -/
def amoRow (w : Nat) : GcRow :=
  if iF3 w ≠ 2 ∧ iF3 w ≠ 3 then .illegal
  else match nfld w 31 27 with
    | 0x00 => .amoadd | 0x01 => .amoswap | 0x02 => if iRs2 w = 0 then .lr else .illegal | 0x03 => .sc | 0x04 => .amoxor | 0x08 => .amoor
    | 0x0C => .amoand | 0x10 => .amomin | 0x14 => .amomax | 0x18 => .amominu | 0x1C => .amomaxu | _ => .illegal

/-- The row of a custom-1 instruction (R111). -/
def custom1Row (w : Nat) : GcRow :=
  match iF3 w, iF7 w with
  | 0, 0 => .kmrg | 1, 0 => .semsig | 2, 0 => .semwait | 3, 0 => .semrd | 4, 0 => .dcln | 5, 0 => .dinv | 6, 0 => .cas | 6, 1 => .cas
  | 7, 0 => .amofadd | _, _ => .illegal

/-- The row of an instruction, as a core's registers stand. -/
def Core.row (c : Core) (lcc len w : Nat) : GcRow :=
  match iOp w with
  | 0x03 => if (c.loads w).isSome then .load else .illegal
  | 0x07 => if (c.loads w).isSome then .load else .illegal
  | 0x23 => if (c.stores w).isSome then .store else .illegal
  | 0x27 => if (c.stores w).isSome then .store else .illegal
  | 0x0F => if iF3 w = 0 then .fence else if iF3 w = 1 then .fenceI else .illegal
  | 0x2F => amoRow w
  | 0x0B =>
    match iF3 w with
    | 0 => if c.bxwOk w then .bxw else .illegal
    | 1 => if c.bxcOk w then .bxc else .illegal
    | 2 => if c.dqOk w then .dq else .illegal
    | _ => .illegal
  | 0x2B => custom1Row w
  | 0x5B => if iF3 w = 0 ∧ iF7 w = 0 then .tag else .illegal
  | 0x73 =>
    if w = 0x73 then .ecall else if w = 0x100073 then .ebreak else if (c.plain lcc len w 0).isSome then .plain else .illegal
  | _ => if (c.plain lcc len w 0).isSome then .plain else .illegal

end Sys2Proof.Machine
end

