-- ==== Sys2Proof/Machine/Gc.lean ====
section
/-! DEFINITION. General cores in the part (R103 to R121): when a core may act, instructions retiring, its caches, its atomics, how a run
ends. -/

namespace Sys2Proof.Machine

/-- The command that a core runs, once its run has begun: its partition and itself. -/
def State.gcRun (s : State) (g : Nat) : Option (Nat × Cmd) :=
  match s.unitCmd .gc g with
  | some (p, c) => if c.aux.isEmpty then none else some (p, c)
  | none => none

/-- The writes of a command not yet acknowledged. -/
def State.unacked (s : State) (p : Nat) (c : Cmd) : Nat :=
  match s.cmd p c.chute c.seq with
  | some c => c.unacked
  | none => 0

/-- End the run at the instruction the core has come to (R105). -/
def State.gcEnd (s : State) (g status detail : Nat) : State := s.endRun g status (s.core g).pc detail

/-- An abort takes hold at this boundary (R60, R116, R120). -/
def State.gcAbort (s : State) (p : Nat) (c : Cmd) (g : Nat) : State :=
  ((s.endFaultsOf p c).endWait (.core g)).endRun g stAborted (s.core g).retired 0

/-- Does a run stand within an instruction that has begun and is no boundary: some accesses of a vector instruction made, a gc.kmrg or an atomic
at another node under way? A stall at a translation fault is a boundary (R60, R120, R176). -/
def State.midInstr (s : State) (p : Nat) (c : Cmd) (g : Nat) : Bool := decide ((s.core g).elem ≠ 0) && (s.atFault p c).isNone

/-- A core with a run takes a step: it stops at this boundary when it must; one that is ending, marked for quarantine or stalled at a
fault does nothing. An instruction that has begun goes on to its end. -/
def State.gcStep (s : State) (g : Nat) (f : Nat → Cmd → State → State) : State :=
  match s.gcRun g with
  | none => s
  | some (p, c) =>
    if (s.core g).ending.isSome then s
    else if s.midInstr p c g then f p c s
    else if c.mustStop then s.gcAbort p c g
    else if s.marked .gc g || (s.atFault p c).isSome then s
    else f p c s

/-- Go on unless the run has come to its end. -/
def State.unlessEnding (s : State) (g : Nat) (k : State → State) : State := if (s.core g).ending.isSome then s else k s

/-- A step of the row that carries out the core's next instruction. -/
def State.gcInstr (s : State) (g : Nat) (row : GcRow) (f : Nat → Cmd → Nat → State → State) : State :=
  s.gcStep g fun p c s =>
    match (s.core g).instr with
    | none => s
    | some (w, len) => if (s.core g).row s.lcc len w = row then f p c w s else s

/-- The instruction at `pc` retires (R121, R443, R449): the core goes on at `next`; `va` is its first access. -/
def State.retireAt (s : State) (p g pc next va : Nat) : State :=
  let s := s.modCore g (fun x => { x with pc := next, instr := none, elem := 0, retired := x.retired + 1 })
  let s := (s.setReg64 (Reg.GC_PC_LO g) pc).count64 (Reg.GC_RETIRED_LO g) 1
  let s := s.event (g / 16) ⟨0x04, g % 16, 1, none, none, .ofPart p⟩
  s.itemDone (g / 16) (g % 16)
    { kind := 1, unit := g % 16, part := p, words := [pc % 2 ^ 32, pc / 2 ^ 32, va % 2 ^ 32, va / 2 ^ 32 % 2 ^ 32], attempts := 0 }

/-- The instruction a core has come to retires, and the next one follows it. -/
def State.retire (s : State) (p g va : Nat) : State :=
  let x := s.core g
  let len := match x.instr with | some (_, n) => n | none => 4
  s.retireAt p g x.pc ((x.pc + len) % 2 ^ 64) va

/-! ### The L1D (R107 to R109) -/

/-- Upset a line of a core's L1D: what a later read of the line finds. -/
def State.l1dStrike (s : State) (g : Nat) : Option Upset → State
  | none => s
  | some u => s.modCore g (fun x => { x with l1d := x.l1d.mapIdx (fun i d => if i = u.line.val then { d with err := if u.many then 2 else max 1 d.err } else d) })

/-- An L1 error is corrected: one bit, or a clean line fetched again (R121). -/
def State.l1Fixed (s : State) (g : Nat) : State := (s.count (Reg.GC_L1_CORRECTED g) 1).corrected 2 g 7 1

/-- A dirty line with an uncorrectable error is lost, and with it the run (R105). -/
def State.l1dLost (s : State) (p g a : Nat) : State :=
  let pc := (s.core g).pc
  let s := s.modCore g (fun x => { x with l1d := x.l1d.filter (fun e => decide (e.addr ≠ a)) })
  let s := s.report 3 0x0011 2 g (some p) stPoison [pc % 2 ^ 32, pc / 2 ^ 32]
  if (s.gcRun g).isSome then s.gcEnd g stPoison 0x80 else s

/-- Write a line of the L1D back to its home; the read of it for that finds an error in it. -/
def State.writeBack (s : State) (p : Nat) (c : Cmd) (g : Nat) (d : DLine) : State :=
  if d.err = 2 then s.l1dLost p g d.addr
  else (if d.err = 1 then s.l1Fixed g else s).storeLine (c.coreAgent p g) d.addr fullMask d.data d.poison

/-- Write back the dirty lines that pass a test, and keep them clean, or drop every line that passes it. -/
def State.cleanLines (s : State) (p : Nat) (c : Cmd) (g : Nat) (f : DLine → Bool) (drop : Bool) : State :=
  let s := ((s.core g).l1d.filter (fun d => f d && d.dirty)).foldl (fun s d => s.writeBack p c g d) s
  s.modCore g (fun x => { x with
    l1d := if drop then x.l1d.filter (fun d => !f d) else x.l1d.map (fun d => if f d && d.dirty then { d with dirty := false, err := 0 } else d) })

/-- Put a line into the L1D: 8 ways for each of 128 sets, chosen by bits 12 to 6 of the physical address (DESIGN CHOICE, log entry 46: R107 gives
the ways and no index); a dirty line that must leave is written back. -/
def State.l1dPut (s : State) (p : Nat) (c : Cmd) (g : Nat) (d : DLine) : State :=
  let mates := (s.core g).l1d.filter (fun x => decide (x.addr / 64 % 128 = d.addr / 64 % 128))
  let s := if mates.length < 8 then s
    else
      let (n, s) := s.choose mates.length
      match mates[n]? with
      | some v => s.cleanLines p c g (fun x => decide (x.addr = v.addr)) true
      | none => s
  s.modCore g (fun x => { x with l1d := d :: x.l1d })

/-- The parts of a range that lie in one line each. -/
def lineParts (va n : Nat) : List (Nat × Nat) :=
  (linesOf va n).map (fun l => (max va (64 * l), min (va + n) (64 * l + 64) - max va (64 * l)))

/-- Translate parts at issue (R171): (virtual, physical, length) of each; a fault stalls the core. -/
def State.issueAll (s : State) (p : Nat) (c : Cmd) (g access : Nat) : List (Nat × Nat) → (List (Nat × Nat × Nat) → State → State) → State
  | [], k => k [] s
  | (va, n) :: t, k =>
    match s.issue p c (g / 16) va access (s.core g).retired with
    | .stop s => s
    | .ok phys _ s => s.issueAll p c g access t (fun l s => k ((va, phys, n) :: l) s)

/-- Fill the line of a physical address into the L1D; `cls` is the access as event 0x05 counts it. A violation reads zero and is not cached
(R66). -/
def State.coreFill (s : State) (p : Nat) (c : Cmd) (g va phys cls : Nat) (k : DLine → State → State) : State :=
  let a := phys / 64 * 64
  let ag := c.coreAgent p g
  if !s.isRemote a && !s.mayTouch p a then
    k ⟨a, [va / 64 * 64], 0, false, false, 0⟩ (s.violateMem ag.src (decide (cls = 1)) (if isT0 a then a - t0Flag else a))
  else s.whenReady ag true [(a, 64)] (fun s =>
    let (x, s) := s.fetch ag true a 64
    if x.status ≠ 0 then s.gcEnd g x.status 0
    else
      let d : DLine := { addr := a, vas := [va / 64 * 64], data := x.value, dirty := false, poison := x.poison, err := 0 }
      ((s.event (g / 16) ⟨0x05, g % 16, 1, some va, some cls, .ofPart p⟩).l1dPut p c g d).unlessEnding g (k d))

/-- The core's copy of the line of a physical address, filled if need be. An error that the read finds is corrected; with an uncorrectable one a
clean line is fetched again and a dirty one ends the run (R105, R121). -/
def State.coreLine (s : State) (p : Nat) (c : Cmd) (g va phys cls : Nat) (k : DLine → State → State) : State :=
  let a := phys / 64 * 64
  match (s.core g).l1d.find? (fun d => decide (d.addr = a)) with
  | some d =>
    if d.err = 2 then
      if d.dirty then s.l1dLost p g a
      else ((s.modCore g (fun x => { x with l1d := x.l1d.filter (fun e => decide (e.addr ≠ a)) })).l1Fixed g).coreFill p c g va phys cls k
    else
      let s := if d.err = 1 then s.l1Fixed g else s
      let v := va / 64 * 64
      let d := { d with vas := if d.vas.contains v then d.vas else v :: d.vas, err := 0 }
      k d (s.modCore g (fun x => { x with l1d := x.l1d.map (fun e => if e.addr = a then d else e) }))
  | none => s.coreFill p c g va phys cls k

/-- Read translated parts through the L1D: their bytes as one number, and whether a line was poisoned. -/
def State.readParts (s : State) (p : Nat) (c : Cmd) (g : Nat) : List (Nat × Nat × Nat) → (Nat → Bool → State → State) → State
  | [], k => k 0 false s
  | (va, phys, n) :: t, k => s.coreLine p c g va phys 0 (fun d s =>
      s.readParts p c g t (fun v b s => k (d.data / 2 ^ (8 * (phys % 64)) % 2 ^ (8 * n) + v * 2 ^ (8 * n)) (b || d.poison) s))

/-- A read of a core through its L1D; poison ends the run (R105). -/
def State.coreRead (s : State) (p : Nat) (c : Cmd) (g va n : Nat) (k : Nat → State → State) : State :=
  s.inSpace p c va n acRead (s.core g).retired fun s => s.issueAll p c g acRead (lineParts va n) (fun l s =>
    s.readParts p c g l (fun v b s => if b then s.gcEnd g stPoison 5 else k v s))

/-- Put n bytes into the core's copy of a line. -/
def State.putL1 (s : State) (g phys n v : Nat) : State :=
  let sh := 2 ^ (8 * (phys % 64))
  s.modCore g (fun x => { x with l1d := x.l1d.map (fun d =>
    if d.addr = phys / 64 * 64 then
      { d with data := d.data - d.data / sh % 2 ^ (8 * n) * sh + v % 2 ^ (8 * n) * sh, dirty := true, poison := d.poison && decide (n < 64) }
    else d) })

/-- Write translated parts into the L1D. -/
def State.writeParts (s : State) (p : Nat) (c : Cmd) (g : Nat) : List (Nat × Nat × Nat) → Nat → (State → State) → State
  | [], _, k => k s
  | (va, phys, n) :: t, v, k => s.coreLine p c g va phys 1 (fun _ s => (s.putL1 g phys n v).writeParts p c g t (v / 2 ^ (8 * n)) k)

/-- A write of a core into its L1D. -/
def State.coreWrite (s : State) (p : Nat) (c : Cmd) (g va n v : Nat) (k : State → State) : State :=
  s.inSpace p c va n acWrite (s.core g).retired fun s => s.issueAll p c g acWrite (lineParts va n) (fun l s => s.writeParts p c g l v k)

/-- Write back every dirty line and wait until every earlier write is acknowledged (R109), then go on. -/
def State.coreRelease (s : State) (p : Nat) (c : Cmd) (g : Nat) (k : State → State) : State :=
  (s.cleanLines p c g (fun _ => true) false).unlessEnding g (fun s => if s.unacked p c = 0 then k s else s)

/-! ### Instruction fetch (R106) -/

/-- The 16 bits at an address through the L1I; poison ends the run, and so does a page that grants no execution (R105), whose PERMISSION fault is reported
(R168, R172) and, since the run ends, held by nothing (DEDUCED, log entry 54). -/
def State.fetchParcel (s : State) (p : Nat) (c : Cmd) (g va : Nat) (k : Nat → State → State) : State :=
  match s.translate (g / 16) p va acFetch false with
  | (.blocked line, s) => s.want line false
  | (.fault kind lv e, s) =>
    let t := s.raiseFault p c kind lv e va acFetch 3 (s.core g).retired
    if kind = fkPermission then
      (match t.atFault p c with
       | some h => t.endFault p h.id false
       | none => t).gcEnd g stUnsupported 12
    else t
  | (.ok leaf log2, s) =>
    let phys := physOf leaf log2 va
    let a := phys / 64 * 64
    let part (data : Nat) : Nat := data / 2 ^ (8 * (phys % 64)) % 65536
    match (s.core g).l1i.find? (fun d => decide (d.addr = a)) with
    | some d => k (part d.data) s
    | none =>
      let ag := c.coreAgent p g
      s.whenReady ag true [(a, 64)] (fun s =>
        let (x, s) := s.fetch ag true a 64
        if x.status ≠ 0 then s.gcEnd g x.status 0
        else if x.poison then s.gcEnd g stPoison 1
        else
          let s := if !s.isRemote a && !s.mayTouch p a then s
            else s.modCore g (fun y => { y with l1i := (⟨a, x.value⟩ :: y.l1i).take 1024 })
          k (part x.value) s)

/-- The instruction at the core's pc: its 32-bit word, a compressed one as what it stands for, and its length. -/
def State.fetchInstr (s : State) (p : Nat) (c : Cmd) (g : Nat) (k : Nat → Nat → State → State) : State :=
  let pc := (s.core g).pc
  s.fetchParcel p c g pc (fun lo s =>
    if lo % 4 ≠ 3 then k (expandC lo) 2 s
    else s.fetchParcel p c g ((pc + 2) % 2 ^ 64) (fun hi s => k (lo + 65536 * hi) 4 s))

/-- n free 64-bit values as one number. -/
def State.drawMany (s : State) : Nat → Nat × State
  | 0 => (0, s)
  | n + 1 =>
    let (v, s) := s.draw
    let (t, s) := s.drawMany n
    (v + 2 ^ 64 * t, s)

/-- Give free values to what an instruction leaves open. -/
def State.fillOpen (s : State) (g : Nat) : Open → State
  | .none => s
  | .x r => let (v, s) := s.draw; s.modCore g (fun c => c.setX r v)

/-! ### Atomics (R110) -/

/-- Where a unit's line is on its way to be written or read at its home: held in a chute (R40), queued or transient at the home, or
outstanding at another node. -/
def State.lineBusy (s : State) (a : Nat) : Bool :=
  if isT0 a then false
  else if s.isRemote a then
    s.fab.reqs.any (fun r => decide (r.addr / 64 * 64 = a) && decide (r.pkt.typ ≠ 0x01))
      || s.fab.stalled.any (fun r => decide (r.addr / 64 * 64 = a) && decide (wordAt r.body 0 % 256 ≠ 0x01))
  else if !s.isLocalT1 a then false
  else
    match s.chuteAt (a % 2 ^ 40) with
    | some (p, n) =>
      let q := (s.part p).ring n
      q.holds ((a % 2 ^ 40 - q.range.base) / 64)
    | none => false

/-- The ATOM of a core (R214, R238). -/
def Agent.atomReq (ag : Agent) (a code x cmp : Nat) : FabReq :=
  { tc := 3, dst := a / 2 ^ 40, dstCell := none, addr := a, part := some ag.p, msgId := 0, proto := 1, len := 3, lineOff := a % 64,
    waiter := ag.waiter,
    body := cohHeader 0x04 ag.comp ag.epoch a false false false false 0 0 code 0 0
      ++ [x % 2 ^ 32, x / 2 ^ 32, cmp % 2 ^ 32, cmp / 2 ^ 32, 0, 0, 0, 0] }

/-- An atomic of a core on an aligned address that a page translates: its own copy is written back and dropped, and the operation executes
at the line's home; `k` takes the prior value. A line of this node waits until its home can take it. -/
def State.atomicHome (s : State) (p : Nat) (c : Cmd) (g phys code x cmp : Nat) (k : Nat → State → State) : State :=
  let a := phys / 64 * 64
  let ag := c.coreAgent p g
  (s.cleanLines p c g (fun d => decide (d.addr = a)) true).unlessEnding g fun s =>
  if isT0 a then
    if !s.mayTouch p a then k 0 (s.violateMem ag.src true (phys - t0Flag))
    else
      let o := phys - t0Flag
      match AtomOp.ofAny code with
      | none => s
      | some (op, w) =>
        let prior := s.t0Read o (w / 8)
        let s := (s.t0FindWord o).t0Line o true (.ofPart p)
        match op.apply w prior x cmp with
        | some v => k prior (s.t0Put (o / 64) ((2 ^ (w / 8) - 1) * 2 ^ (o % 64)) (v * 2 ^ (8 * (o % 64))) false)
        | none => k prior s
  else if s.isRemote a then
    match s.takeArrival ag.waiter phys with
    | some (y, s) => if y.status ≠ 0 ∧ y.status ≠ stPoison then s.gcEnd g y.status 0 else k y.value s
    | none =>
      if s.fab.reqs.any (fun r => decide (r.waiter = ag.waiter)) || s.fab.stalled.any (fun r => decide (r.waiter = ag.waiter))
        || s.lineBusy a then s
      else (s.modCore g (fun y => { y with elem := 1 })).unitSend (ag.atomReq phys code x cmp)
  else if !s.mayTouch p a then k 0 (s.violateMem ag.src true phys)
  else
    let line := a % 2 ^ 40 / 64
    if s.lineBusy a then s
    else if !s.writable line then s.want line true
    else
      let r := { HomeReq.store ag.src line 0 0 false with atom := some (code, x, cmp, phys % 64), wid := s.homes.nextWrite }
      let s := (s.countRequest r).numbered.modCmd p c.chute c.seq (fun c => { c with unacked := c.unacked + 1 })
      match (s.t1Line (64 * line) 1 true (.ofPart p)).land r with
      | (s, some prior) => k (prior.getD 0) (s.storeDone r prior)
      | (s, none) => s

/-- An AMO-like instruction of n bytes at an address: alignment, release, translation, then the atomic; a remote line that the fabric
does not carry the operation to ends the run (R105, R110). `local` is the code at a home of this node, `remote` that of R238. -/
def State.coreAtomic (s : State) (p : Nat) (c : Cmd) (g va n : Nat) (rl : Bool) (here : Nat) (remote : Option Nat) (x cmp : Nat)
    (k : Nat → State → State) : State :=
  if va % n ≠ 0 then s.gcEnd g stUnsupported 6
  else
    let go (s : State) : State :=
      match s.issue p c (g / 16) va acAtomic (s.core g).retired with
      | .stop s => s
      | .ok phys _ s =>
        let done (v : Nat) (s : State) : State := k v (s.event (g / 16) ⟨0x05, g % 16, 1, some va, some 2, .ofPart p⟩)
        if s.isRemote phys then
          match remote with
          | none => s.gcEnd g stUnsupported 7
          | some code => s.atomicHome p c g phys code x cmp done
        else s.atomicHome p c g phys here x cmp done
    if rl then s.coreRelease p c g go else go s

/-- The rl bit of an AMO: it carries out R109. -/
def amoRl (w : Nat) : Bool := decide (nfld w 25 25 = 1)

/-- An AMO of R110's first two rows, by its codes of 32 and 64 bits; `carried` says that the fabric carries it. -/
def State.amo (s : State) (g : Nat) (row : GcRow) (code32 code64 : Nat) (carried : Bool) : State :=
  s.gcInstr g row fun p c w s =>
    let x := s.core g
    let va := x.xr (iRs1 w)
    let wide := decide (iF3 w = 3)
    let code := if wide then code64 else code32
    s.coreAtomic p c g va (if wide then 8 else 4) (amoRl w) code (if carried then some code else none)
      (x.xr (iRs2 w) % 2 ^ (if wide then 64 else 32)) 0 (fun prior s =>
        (s.modCore g (fun y => y.setX (iRd w) (if wide then prior else sext 32 prior))).retire p g va)

/-- Drop the reservations of a core. -/
def State.dropCoreResv (s : State) (g : Nat) : State := { s with resv := s.resv.filter (fun e => decide (e.1 ≠ g)) }

/-! ### The end of a run (R105) -/

/-- A waiting gc.semwait learns what its hub observed (R116, R325). -/
def State.gcWaitEnds (s : State) (g : Nat) (seen : Option Nat) : State :=
  let s := s.endWait (.core g)
  match s.gcRun g, (s.core g).instr with
  | some (p, _), some (w, _) =>
    match seen with
    | none => s.gcEnd g stPoison 5
    | some v => (s.modCore g (fun x => x.setX (iRd w) v)).retire p g 0
  | _, _ => s

/-- What has arrived over the fabric for a core is forgotten. -/
def State.forgetArrivals (s : State) (w : Waiter) : State :=
  s.modFab (fun x => { x with arrivals := x.arrivals.filter (fun a => !decide (a.waiter = w)) })

end Sys2Proof.Machine
end

