-- ==== Sys2Proof/Machine/EscTable.lean ====
section
/-! DEFINITION. The escalation table and arena of a partition (R96 to R99, R102, R139): where an entry stands, finding one, writing one
with its copy, clearing. -/

namespace Sys2Proof.Machine

/-- Bytes of an arena slot (R96). -/
def arenaSlot : Nat := 16896

/-- Is the table ready? -/
def State.escReady (s : State) (p : Nat) : Bool := ((s.part p).ring escRing).ready

/-- log2 of its entries. -/
def State.escLog2 (s : State) (p : Nat) : Nat := s.regF (Reg.PART_ESC_TBL_CTRL p) 12 8

/-- Where an entry stands in T1. -/
def State.escAt (s : State) (p i : Nat) : Nat := ((s.part p).ring escRing).range.base + 32 * i

/-- Where the arena slot of an entry stands. -/
def State.arenaAt (s : State) (p i : Nat) : Nat := ((s.part p).ring escRing).range2.base + arenaSlot * i

/-- The words of an entry. -/
def State.escEntry (s : State) (p i : Nat) : List Nat := s.t1Words (s.escAt p i) 8

/-- The entries of the probe window of an origin, in order (R96). -/
def State.escWindow (s : State) (p origin : Nat) : List Nat :=
  let n := s.escLog2 p
  let h := origin / 64 * 2654435761 % 2 ^ 32
  (List.range 8).map (fun i => (h / 2 ^ (32 - n) + i) % 2 ^ n)

/-- Is the entry in use? -/
def escValid (e : List Nat) : Bool := decide (nfld (wordAt e 1) 12 12 = 1)

/-- The origin an entry names. -/
def escOrigin (e : List Nat) : Nat := wordAt e 0 + nfld (wordAt e 1) 7 0 * 2 ^ 32

/-- The entry of an origin, if there is one. -/
def State.escFind (s : State) (p origin : Nat) : Option Nat :=
  (s.escWindow p origin).find? (fun i => escValid (s.escEntry p i) && decide (escOrigin (s.escEntry p i) = origin))

/-- Where an origin's entry would go: its own, else the first that is free (R97). -/
def State.escPlace (s : State) (p origin : Nat) : Option Nat :=
  match s.escFind p origin with
  | some i => some i
  | none => (s.escWindow p origin).find? (fun i => !escValid (s.escEntry p i))

/-- The T1 lines of an origin's probe window. -/
def State.escLines (s : State) (p origin : Nat) : List Nat := (s.escWindow p origin).flatMap (fun i => linesOf (s.escAt p i) 32)

/-- The number a list of words spells. -/
def wordsVal (ws : List Nat) : Nat := wordsNum ws 0 ws.length

/-- Write an entry on behalf of a command (R97): counted when it was free. -/
def State.escWrite (s : State) (src : Source) (p i : Nat) (words : List Nat) : State :=
  let fresh := !escValid (s.escEntry p i)
  let s := s.postBytes src (s.escAt p i) 32 (wordsVal words) false
  if fresh then s.count (Reg.PART_ESC_USED p) 1 else s

/-- Clear an entry's valid bit (R97). -/
def State.escErase (s : State) (src : Source) (p i : Nat) : State :=
  let e := s.escEntry p i
  if escValid e then
    (s.postBytes src (s.escAt p i + 4) 4 (wordAt e 1 - 2 ^ 12) false).setRegN (Reg.PART_ESC_USED p) (s.regN (Reg.PART_ESC_USED p) - 1)
  else s

/-- Is a step of the partition's programs under way (R102)? Between commands of the model only one that waits for a helper is. -/
def State.stepUnderWay (s : State) (p : Nat) : Bool :=
  (List.range 32).any (fun e => decide (s.owner .me e = some p) && (Tbl.get (fun _ => Engine.reset) s.engines e).waiting)

/-- Do a clear of the escalation table that is due (R102): once no step is under way and the home has taken back what stands in the way of writing its
lines (R14), every entry is zeroed. A table that is not ready has nothing to clear. -/
def State.clearTable (s : State) (p : Nat) : State :=
  if !(s.part p).clearDue || s.stepUnderWay p then s
  else
    let done (s : State) : State := s.modPart p (fun pt => { pt with clearDue := false })
    if !s.escReady p then done s
    else
      let r := ((s.part p).ring escRing).range
      match s.heldBack r with
      | [] => (done (s.t1Clear r)).setRegN (Reg.PART_ESC_USED p) 0
      | ls => s.wantAll true ls

/-- The rows and the scales of an MXFP8 tile as an arena slot holds them (R96): data with row stride K, scales after 16,384 bytes. -/
def arenaData (t : Tile) : Nat × Nat :=
  (t.data.foldr (fun r acc => packRow fmE4m3 r + 2 ^ (8 * t.k) * acc) 0,
   t.scales.foldr (fun r acc => packRow fmE4m3 r + 2 ^ (8 * r.length) * acc) 0)

/-- Scales of a row of an MXFP8 copy of k elements, the last block of which may be short. -/
def copyScales (k : Nat) : Nat := (k + 31) / 32

/-- The copy of a tile whose rows have k elements: R96 stores it with row stride K, without what pads its last block (R73). -/
def Tile.clip (t : Tile) (k : Nat) : Tile := { t with k := k, data := t.data.map (fun r => r.take k) }

/-- Write an arena slot. -/
def State.arenaWrite (s : State) (src : Source) (p i : Nat) (t : Tile) : State :=
  let (d, sc) := arenaData t
  (s.postBytes src (s.arenaAt p i) (t.rows * t.k) d false).postBytes src (s.arenaAt p i + 16384) (t.rows * copyScales t.k) sc false

/-- The MXFP8 tile in an arena slot. -/
def State.arenaTile (s : State) (p i rows k : Nat) : Tile :=
  let a := s.arenaAt p i
  { fmt := fmE4m3, rows := rows, k := k, two := false, ts := 0,
    data := (List.range rows).map (fun r => unpackRow fmE4m3 k (s.t1Read (a + r * k) k)),
    scales := (List.range rows).map (fun r => unpackRow fmE4m3 (copyScales k) (s.t1Read (a + 16384 + r * copyScales k) (copyScales k))) }

end Sys2Proof.Machine
end

