-- ==== Sys2Proof/Machine/Me.lean ====
section
/-! DEFINITION. The matrix engines (R68 to R102): programs and their steps, checks and re-execution, escalation, quarantine, the
escalation table's registers. -/

namespace Sys2Proof.Machine

/-- Bytes of an operand buffer (R70). -/
def bufferBytes : Nat := 1048576

/-- An engine. -/
def State.engine (s : State) (e : Nat) : Engine := Tbl.get (fun _ => Engine.reset) s.engines e

/-- Change an engine. -/
def State.modEngine (s : State) (e : Nat) (f : Engine → Engine) : State :=
  { s with engines := Tbl.modify (fun _ => Engine.reset) s.engines e f }

/-! ### Slots (R70) -/

/-- Bytes a slot takes: its tile, and from the next 64-byte boundary its MXFP8 copy (log entry 14). -/
def Slot.bytes (x : Slot) : Nat :=
  match x.copy with
  | none => x.tile.bytes
  | some t => (x.tile.bytes + 63) / 64 * 64 + t.bytes

/-- Does the slot stay within the buffer? -/
def Slot.fits (x : Slot) : Bool := decide (512 * x.off + x.bytes ≤ bufferBytes)

/-- Do two slots share a byte? -/
def Slot.meets (x y : Slot) : Bool :=
  decide (512 * x.off < 512 * y.off + y.bytes) && decide (512 * y.off < 512 * x.off + x.bytes)

/-- A write of a slot: every slot it overlaps has no valid record any more (R70). -/
def putSlot (l : List Slot) (x : Slot) : List Slot := x :: l.filter (fun y => !y.meets x)

/-- The slot that starts at an offset. -/
def slotAt (l : List Slot) (off : Nat) : Option Slot := l.find? (fun x => decide (x.off = off))

/-! ### Programs (R68, R69) -/

/-- prog_addr, desc_count and step of an ME_PROGRAM. -/
def Cmd.progAddr (c : Cmd) : Nat := c.arg64 8
/-- The number of descriptors. -/
def Cmd.descCount (c : Cmd) : Nat := c.arg 10 % 2 ^ 16
/-- Does R68 let the program run? -/
def Cmd.progOk (c : Cmd) : Bool := decide (c.descCount ≠ 0) && decide (c.progAddr % 32 = 0)

/-- The words of descriptor i of the list as it was read at queue time. -/
def Cmd.desc (c : Cmd) (i : Nat) : List Nat := ((c.inputs.headD []).drop (8 * i)).take 8

/-- The command whose program runs on an engine and has begun: its partition and itself. -/
def State.program (s : State) (e : Nat) : Option (Nat × Cmd) :=
  match s.unitCmd .me e with
  | some (p, c) => if c.aux.isEmpty then none else some (p, c)
  | none => none

/-- End a program: result is the steps completed, detail the tiles escalated (R68). A SEM_WAIT step it stood in waits no more. -/
def State.meEnd (s : State) (p : Nat) (c : Cmd) (status : Nat) : State :=
  s.endCmd p c status c.progress (min (c.auxAt 2) 0xFFFFFF)

/-- A step is done (R93, R101): counted and sampled; after the last the program completes, ESCALATED if a tile was (R58, R68). -/
def State.meDone (s : State) (p e : Nat) (c : Cmd) (escalated : Bool) (va attempts : Nat) : State :=
  let kind := wordAt (c.desc c.progress) 0 % 256
  let s := s.count64 (Reg.ME_STEPS_LO e) 1
  let s := s.event (e / 8) ⟨0x01, e % 8, 1, none, some (kind - 1), .ofPart p⟩
  let s := s.itemDone (e / 8) (16 + e % 8)
    { kind := 2, unit := e % 8, part := p,
      words := [c.seq, kind * 2 ^ 24 + c.progress % 2 ^ 16, va % 2 ^ 32, va / 2 ^ 32], attempts := attempts }
  let aux := if escalated then c.aux.set 2 (c.auxAt 2 + 1) else c.aux
  let c' := { c with progress := c.progress + 1, aux := aux }
  let s := (s.setAux p c c'.progress aux).setRegF (Reg.ME_STATUS e) 15 0 (c'.progress % 2 ^ 16)
  if c'.progress = c'.descCount then s.meEnd p c' (if c'.auxAt 2 = 0 then stOk else stEscalated) else s

/-- A step of a kind at an engine whose program has come to one: a tile under re-execution finishes first (R60, R93); then the program stops at this
boundary when it must (R59), in a waiting SEM_WAIT step at once, as the SEM_WAIT command does (R60, R75; DEDUCED, log entry 40); an engine marked
for quarantine takes no step (R101), and no step begins while a clear of the escalation table is due (R102). -/
def State.meStep (s : State) (e kind : Nat) (f : Nat → Cmd → List Nat → State → State) : State :=
  match s.program e with
  | none => s
  | some (p, c) =>
    if (s.engine e).waiting then s
    else if c.mustStop then s.meEnd p c stAborted
    else if s.marked .me e || (s.part p).clearDue then s
    else if wordAt (c.desc c.progress) 0 % 256 = kind then f p c (c.desc c.progress) s
    else s

/-- ME_PROGRAM (R68, R69, R102): a program that has its engine begins, latching the seed and the escalation settings; one that R68 bars,
or that has come to a descriptor of no known kind, completes UNSUPPORTED_FORMAT. -/
def execMeProgram (p : Fin 32) (chute : Fin 64) (seq : Word) (s : State) : Res :=
  act s fun s =>
    match s.cmd p.val chute.val seq.toNat with
    | none => s
    | some c =>
      if c.opcode ≠ 0x02 ∨ c.phase ≠ .running then s
      else if (s.engine c.runUnit).waiting && !c.aux.isEmpty then s
      else if c.mustStop then s.meEnd p.val c stAborted
      else if c.aux.isEmpty then
        if !c.progOk then s.endCmd p.val c stUnsupported 0 0
        else
          let q := p.val
          ((s.modEngine c.runUnit (fun g => { g with waiting := false })).setAux q c 0 [s.reg64 (Reg.PART_ME_SEED_LO q), s.regN (Reg.PART_ME_ESC_CTRL q), 0]).setRegF (Reg.ME_STATUS c.runUnit) 15 0 0
      else
        let kind := wordAt (c.desc c.progress) 0 % 256
        if kind = 0 ∨ 6 < kind then s.meEnd p.val c stUnsupported else s

/-! ### LOAD_TILE (R71, R97) -/

/-- The fields of a LOAD_TILE that pass R71's checks, as an empty tile. BF16, which has no block, takes any K the field can say, so that its last
accumulation block may have 16 elements (DESIGN CHOICE, log entry 41). -/
def loadShape (d : List Nat) : Option Tile :=
  let f := nfld (wordAt d 0) 11 8
  let two := decide (nfld (wordAt d 0) 13 13 = 1)
  let k := 16 * (nfld (wordAt d 1) 14 8 + 1)
  let rows := nfld (wordAt d 1) 6 0 + 1
  let stride := wordAt d 6
  let mult := if f = fmYt then 160 else if two ∨ f = fmBf16 then 16 else 32
  let tsOk := match ofF32 (wordAt d 7) with | .fin _ x => decide (0 < x.m) | _ => false
  if fmYt < f ∨ (two && (!isY f || !tsOk)) ∨ k % mult ≠ 0 ∨ stride % 16 ≠ 0 ∨ stride < rowBytes f k then none
  else some { fmt := f, rows := rows, k := k, two := two, ts := if two then wordAt d 7 else 0, data := [], scales := [] }

/-- Bytes from the first row's start to the last row's end. -/
def spanOf (rows stride n : Nat) : Nat := (rows - 1) * stride + n

/-- The origin of rows: the fabric offset of row 0, where it lies in this node's T1 (R96, R97). -/
def State.originOf (s : State) (rows : List (List (Nat × Nat))) : Option Nat :=
  match rows with
  | ((a, _) :: _) :: _ => if s.isLocalT1 a then some (a % 2 ^ 40) else none
  | _ => none

/-- The table entry that a LOAD_TILE of this shape hits (R97). -/
def State.loadHit (s : State) (p : Nat) (t : Tile) (origin : Option Nat) : Option Nat :=
  match origin with
  | none => none
  | some o =>
    if !isNarrow t.fmt || !s.escReady p then none
    else (s.escWindow p o).find? (fun i =>
      let e := s.escEntry p i
      escValid e && decide (escOrigin e = o) && decide (nfld (wordAt e 2) 14 0 = (t.k / 16 - 1) * 2 ^ 8 + (t.rows - 1)))

/-- Put a loaded tile into its slot and end the step. -/
def State.loaded (s : State) (p e : Nat) (c : Cmd) (off : Nat) (t : Tile) (va : Nat) : State :=
  let x : Slot := { off := off, tile := t, fromEsc := false, copy := none }
  if !x.fits then s.meEnd p c stUnsupported
  else (s.modEngine e (fun g => { g with slots := putSlot g.slots x })).meDone p e c false va 1

/-- A LOAD_TILE that hits the table loads the arena copy (R97). -/
def State.loadCopy (s : State) (p e : Nat) (c : Cmd) (off : Nat) (t : Tile) (i va : Nat) : State :=
  let a := s.arenaAt p i
  let lines := linesOf a (t.rows * t.k) ++ linesOf (a + 16384) (t.rows * copyScales t.k)
  s.whenReadable lines (fun s =>
    if lines.any (fun l => s.t1Poison (64 * l)) then s.meEnd p c stPoison
    else s.loaded p e c off (s.arenaTile p i t.rows t.k) va)

/-- LOAD_TILE (R71, R81, R82, R97). -/
def execLoadTile (e : Fin 32) (s : State) : Res :=
  act s fun s => s.meStep e.val 1 (fun p c d s =>
    let e := e.val
    let off := nfld (wordAt d 0) 26 16
    let va := pairAt d 2
    match loadShape d with
    | none => s.meEnd p c stUnsupported
    | some t =>
      if !({ off := off, tile := t, fromEsc := false, copy := none } : Slot).fits then s.meEnd p c stUnsupported
      else
        let rb := rowBytes t.fmt t.k
        let ns := scalesPerRow t.fmt t.k t.two
        match c.rows acRead va (wordAt d 6) rb t.rows, c.range (pairAt d 4) (t.rows * ns) acRead with
        | some rows, some sc =>
          let origin := s.originOf rows
          let probe := match origin with | some o => if isNarrow t.fmt && s.escReady p then s.escLines p o else [] | none => []
          s.whenReadable probe (fun s =>
            match s.loadHit p t origin with
            | some i => s.loadCopy p e c off t i va
            | none =>
              s.whenReady (c.agent p) true (rows.flatten ++ sc) (fun s =>
                let (gs, s) := s.fetchRows (c.agent p) rows
                let (gsc, s) := s.fetchAll (c.agent p) true sc
                let st := gotStatus (gsc :: gs)
                if st ≠ 0 then s.meEnd p c st
                else
                  let data := gs.map (fun g => unpackRow t.fmt t.k g.value)
                  let scales := (List.range t.rows).map (fun i => unpackRow fmE4m3 ns (gsc.value / 2 ^ (8 * (i * ns))))
                  let bad := (data.map (invalidCodes t.fmt)).sum
                  let s := if bad = 0 then s
                    else ((s.count (Reg.ME_INVALID_CODES e) bad).count (Reg.PART_ME_INVALID_CODES p) bad).pcause p (Reg.PART_ME_IRQ_CAUSE p) 2
                  s.loaded p e c off { t with data := data, scales := if ns = 0 then [] else scales } va))
        | _, _ => s)

/-! ### Checks and re-execution (R92, R93) -/

/-- A mismatching attempt: counted, and shown in ME_CHK_LAST; `m` is block, index, axis and dual as that register has them (R101). -/
def State.meMismatch (s : State) (e kind : Nat) (m : BitVec 16) : State :=
  (s.count (Reg.ME_CHK_MISMATCH e) 1).setRegN (Reg.ME_CHK_LAST e) (kind * 2 ^ 28 + m.toNat * 2 ^ 12)

/-- The lowest-numbered other engine of the partition that is not quarantined (R93). -/
def State.helperFor (s : State) (p e : Nat) : Option Nat :=
  (List.range 32).find? (fun h => decide (h ≠ e) && decide (s.owner .me h = some p) && !s.quarantined .me h)

/-- The engine is quarantined for its tile (R93): the program completes CHECKSUM_FAILED, and the Ranger sends a record. -/
def State.meQuarantine (s : State) (p e : Nat) (c : Cmd) : State :=
  let s := (s.modEngine e (fun g => { g with waiting := false })).quarantine .me e
  let s := s.report 3 0x0010 1 e (some p) stChecksum [s.regN (Reg.ME_CHK_LAST e), c.chute, c.seq]
  s.meEnd p c stChecksum

/-- The two operand tiles of an MMA. -/
def mmaOperands (l : List Slot) (d : List Nat) : Option (Tile × Tile) :=
  match slotAt l (nfld (wordAt d 1) 10 0), slotAt l (nfld (wordAt d 1) 26 16) with
  | some a, some b => some (a.tile, b.tile)
  | _, _ => none

/-- What an attempt at the current step finds (R92): the block, index, axis and dual that ME_CHK_LAST shows of a mismatch. A difference in duplicated
logic or the buffer counts first. -/
def State.checkRun (s : State) (e : Nat) (c : Cmd) (r : Attempt) : Option (BitVec 16) :=
  let d := c.desc c.progress
  match r.dual with
  | some m => some (BitVec.ofNat 16 (2 * m.toNat + 1))
  | none =>
    if wordAt d 0 % 256 = 2 then
      (mmaOperands (s.engine e).slots d).bind (fun x => (mmaCheck x.1 x.2 r.wrong).map (fun y =>
        BitVec.ofNat 16 (y.1 * 2 ^ 9 + y.2.1 * 2 ^ 2 + y.2.2 * 2)))
    else none

/-- Operand-buffer words corrected in an attempt, counted for the summary (R366). -/
def State.bufferFixed (s : State) (e : Nat) (r : Attempt) : State := if r.fixed = 0 then s else s.corrected 1 e 8 r.fixed

/-- The attempts of a step by R93: `runs` says what goes wrong in those on the engine itself. -/
def State.attempts (s : State) (p e : Nat) (c : Cmd) (kind : Nat) (runs : List Attempt) (f : Nat → Attempt → State → State) : State :=
  let one := runs.headD Attempt.clean
  let two := runs.getD 1 Attempt.clean
  let s := s.bufferFixed e one
  match s.checkRun e c one with
  | none => f 1 one s
  | some m =>
    let s := s.bufferFixed e two
    match s.checkRun e c two with
    | none => f 2 two ((s.meMismatch e kind m).count (Reg.ME_CHK_RERUN_OK e) 1)
    | some n =>
      let s := (s.meMismatch e kind m).meMismatch e kind n
      match s.helperFor p e with
      | some _ => s.modEngine e (fun g => { g with waiting := true })
      | none => s.meQuarantine p e c

/-! ### MMA and QUANT (R72, R73, R95) -/

/-- The slot an MMA writes, from the engine's slots; none where the step completes UNSUPPORTED_FORMAT (R70, R72). A wrong product that the checks do
not find is in the result. -/
def mmaSlot (l : List Slot) (d : List Nat) (bad : List BadProduct) : Option Slot :=
  let off := nfld (wordAt d 0) 26 16
  match slotAt l (nfld (wordAt d 1) 10 0), slotAt l (nfld (wordAt d 1) 26 16) with
  | some a, some b =>
    if a.tile.k ≠ b.tile.k ∨ !pairAllowed a.tile.fmt b.tile.fmt then none
    else if nfld (wordAt d 0) 8 8 = 1 then
      match slotAt l off with
      | some c =>
        if c.tile.fmt = fmF32 ∧ c.tile.rows = a.tile.rows ∧ c.tile.k = b.tile.rows then
          some { off := off, tile := mmaTile a.tile b.tile (some c.tile) bad, fromEsc := false, copy := none }
        else none
      | none => none
    else
      let x : Slot := { off := off, tile := mmaTile a.tile b.tile none bad, fromEsc := false, copy := none }
      if x.fits then some x else none
  | _, _ => none

/-- The slot a QUANT writes (R73, R89 to R95, R98); none where the step completes UNSUPPORTED_FORMAT. A two_level bit with a format other than Y3, Y2
or YT, and a two-level tensor_scale that is not positive and finite, are such too (DESIGN CHOICE, log entry 42: R71 says so of LOAD_TILE alone). -/
def quantSlot (l : List Slot) (d : List Nat) (ready : Bool) (seed esc step : Nat) : Option Slot :=
  let f := nfld (wordAt d 0) 11 8
  let two := decide (nfld (wordAt d 0) 12 12 = 1)
  let en := decide (nfld (wordAt d 0) 14 14 = 1)
  let ts := wordAt d 3
  let tsOk := match ofF32 ts with | .fin _ x => decide (0 < x.m) | _ => false
  match slotAt l (nfld (wordAt d 0) 26 16) with
  | none => none
  | some src =>
    if src.tile.fmt ≠ fmF32 ∨ fmYt < f ∨ (two && (!isY f || !tsOk)) ∨ (en && !ready) then none
    else
      let q : QuantArgs :=
        { fmt := f, two := two, ts := ts, stochastic := decide (nfld (wordAt d 0) 13 13 = 1), seed := seed, step := step,
          tileM := nfld (wordAt d 1) 31 16, tileN := nfld (wordAt d 2) 15 0, flushShift := nfld esc 19 16 }
      let (t, lost) := quantTile q src.tile
      let big := en && isNarrow f && escalates lost (nfld esc 3 0) src.tile.rows src.tile.k
      let copy := if big then some (quantTile { q with fmt := fmE4m3, two := false, ts := 0, stochastic := false } src.tile).1 else none
      let x : Slot := { off := nfld (wordAt d 1) 10 0, tile := { t with ts := if two then ts else 0 }, fromEsc := en, copy := copy }
      if x.fits then some x else none

/-- Write the slot of a step that passed, and end the step. -/
def State.slotDone (s : State) (p e : Nat) (c : Cmd) (x : Slot) (attempts : Nat) : State :=
  let s := s.modEngine e (fun g => { g with slots := putSlot g.slots x })
  match x.copy with
  | none => s.meDone p e c false 0 attempts
  | some _ => ((s.count (Reg.ME_ESC_TILES e) 1).pcause p (Reg.PART_ME_IRQ_CAUSE p) 1).meDone p e c true 0 attempts

/-- The slot the current step of an engine writes in an attempt, if it is an MMA or a QUANT that can run. -/
def State.stepSlot (s : State) (p e : Nat) (c : Cmd) (r : Attempt) : Option Slot :=
  let d := c.desc c.progress
  let l := (s.engine e).slots
  match wordAt d 0 % 256 with
  | 2 => mmaSlot l d r.wrong
  | 3 => quantSlot l d (s.escReady p) (c.auxAt 0) (c.auxAt 1) (c.arg 11)
  | _ => none

/-- MMA and QUANT: check, attempt, write the slot. -/
def State.runSlot (s : State) (p e : Nat) (c : Cmd) (kind : Nat) (runs : List Attempt) : State :=
  match s.stepSlot p e c Attempt.clean with
  | none => s.meEnd p c stUnsupported
  | some _ => s.attempts p e c kind runs (fun n r s => match s.stepSlot p e c r with
    | none => s.meEnd p c stUnsupported
    | some x => s.slotDone p e c x n)

/-- MMA (R72, R84 to R88, R92, R93). `runs` says what goes wrong in the attempts on the engine. -/
def execMma (e : Fin 32) (runs : List Attempt) (s : State) : Res :=
  act s fun s => s.meStep e.val 2 (fun p c _ s => s.runSlot p e.val c 2 runs)

/-- QUANT (R73, R89 to R95, R98). -/
def execQuant (e : Fin 32) (runs : List Attempt) (s : State) : Res :=
  act s fun s => s.meStep e.val 3 (fun p c _ s => s.runSlot p e.val c 3 runs)

/-! ### STORE_TILE (R74, R97, R98) -/

/-- The words of an entry for a stored tile (R96). -/
def escWords (origin : Nat) (t : Tile) (stride : Nat) (c : Cmd) (e : Nat) : List Nat :=
  [origin % 2 ^ 32, flag t.two 13 + 2 ^ 12 + t.fmt * 2 ^ 8 + origin / 2 ^ 32 % 256, (t.k / 16 - 1) * 2 ^ 8 + (t.rows - 1), stride, c.seq,
   c.chute * 2 ^ 8 + e, 0, 0]

/-- Write the rows and scales of a slot (R74). -/
def State.storeTile (s : State) (p : Nat) (c : Cmd) (t : Tile) (rows : List (List (Nat × Nat))) (sc : List (Nat × Nat)) : State :=
  let s := s.storeRows (c.agent p) rows (t.data.map (packRow t.fmt))
  s.storeAll (c.agent p) (wordsOfBytes t.scales.flatten) false sc
where
  /-- The number a list of bytes spells. -/
  wordsOfBytes : List Nat → Nat
  | [] => 0
  | b :: l => b % 256 + 256 * wordsOfBytes l

/-- The effect of a STORE_TILE whose slot and ranges are good: the tile, then the table (R97, R98). With the table no longer ready an escalated slot
finds no free entry: nothing is stored, esc_full is set and the program completes RESERVATION_EXCEEDED (DESIGN CHOICE, log entry 43). -/
def State.storeEffect (s : State) (p e : Nat) (c : Cmd) (x : Slot) (stride : Nat) (rows : List (List (Nat × Nat)))
    (sc : List (Nat × Nat)) (va attempts : Nat) : State :=
  let src : Source := .unit p c.chute c.seq
  match x.fromEsc, s.originOf rows with
  | true, some o =>
    match x.copy with
    | some copy =>
      match (if s.escReady p then s.escPlace p o else none) with
      | none => (s.pcause p (Reg.PART_ME_IRQ_CAUSE p) 8).meEnd p c stReservation
      | some i =>
        let s := (s.storeTile p c x.tile rows sc).arenaWrite src p i (copy.clip x.tile.k)
        (s.escWrite src p i (escWords o x.tile stride c e)).meDone p e c false va attempts
    | none =>
      let s := s.storeTile p c x.tile rows sc
      let s := match (if s.escReady p then s.escFind p o else none) with
        | some i => s.escErase src p i
        | none => s
      s.meDone p e c false va attempts
  | _, _ => (s.storeTile p c x.tile rows sc).meDone p e c false va attempts

/-- A STORE_TILE that has come to its turn: `k` goes on once its checks pass and the lines of the table it reads are there. The format field of its
descriptor is ignored, codes 11 to 15 too: its format is the slot's (R74; DESIGN CHOICE beside R77, log entry 44). -/
def State.storeStep (s : State) (p e : Nat) (c : Cmd) (d : List Nat)
    (k : Slot → List (List (Nat × Nat)) → List (Nat × Nat) → State → State) : State :=
  match slotAt (s.engine e).slots (nfld (wordAt d 0) 26 16) with
  | none => s.meEnd p c stUnsupported
  | some x =>
    let t := x.tile
    let rb := rowBytes t.fmt t.k
    let stride := wordAt d 6
    if stride % 16 ≠ 0 ∨ stride < rb then s.meEnd p c stUnsupported
    else
      match c.rows acWrite (pairAt d 2) stride rb t.rows, c.range (pairAt d 4) (t.rows * scalesPerRow t.fmt t.k t.two) acWrite with
      | some rows, some sc =>
        if x.fromEsc && !((rows.flatten ++ sc).all (fun y => s.isLocalT1 y.1)) then s.meEnd p c stUnsupported
        else
          let probe := match x.fromEsc, s.originOf rows with
            | true, some o => if s.escReady p then s.escLines p o else []
            | _, _ => []
          s.whenReadable probe (k x rows sc)
      | _, _ => s

/-- STORE_TILE (R74, R92, R97, R98). -/
def execStoreTile (e : Fin 32) (runs : List Attempt) (s : State) : Res :=
  act s fun s => s.meStep e.val 4 (fun p c d s => s.storeStep p e.val c d (fun x rows sc s =>
    s.attempts p e.val c 4 runs (fun n _ s => s.storeEffect p e.val c x (wordAt d 6) rows sc (pairAt d 2) n)))

/-- HELPER_RERUN (R93): the lowest-numbered other engine runs the tile between two of its own steps, from the first engine's buffer, and
returns the result; `run` says what goes wrong in it. Its mismatch counts in ME_CHK_MISMATCH and ME_CHK_LAST of the first engine (DESIGN CHOICE, log
entry 45: R101 names no engine). A clear of the escalation table that waited for the step is then done (R102). -/
def execHelperRerun (e : Fin 32) (run : Attempt) (s : State) : Res :=
  act s fun s =>
    match s.program e.val with
    | none => s
    | some (p, c) =>
      if !(s.engine e.val).waiting then s
      else
        let d := c.desc c.progress
        let kind := wordAt d 0 % 256
        let s := if (s.helperFor p e.val).isSome then s.bufferFixed e.val run else s
        match s.helperFor p e.val, s.checkRun e.val c run with
        | none, _ => (s.meQuarantine p e.val c).clearTable p
        | some _, some m => ((s.meMismatch e.val kind m).meQuarantine p e.val c).clearTable p
        | some h, none =>
          let passed (s : State) : State :=
            ((s.modEngine e.val (fun g => { g with waiting := false })).count (Reg.ME_CHK_MOVED e.val) 1).count (Reg.ME_CHK_HELPED h) 1
          if kind = 4 then
            s.storeStep p e.val c d (fun x rows sc s => ((passed s).storeEffect p e.val c x (wordAt d 6) rows sc (pairAt d 2) 3).clearTable p)
          else match s.stepSlot p e.val c run with
            | some x => ((passed s).slotDone p e.val c x 3).clearTable p
            | none => ((passed s).meEnd p c stUnsupported).clearTable p

/-! ### Semaphore steps (R75) -/

/-- ME_SEM_WAIT (R75, R324, R327): the engine begins to wait; WAIT_SATISFIED ends the step. `err` is what the check bits of
the value show. -/
def execMeSemWait (e : Fin 32) (err : Fin 3) (s : State) : Res :=
  act s fun s => s.meStep e.val 5 (fun p c d s =>
    let i := wordAt d 1
    if !s.semIn p i then s.meEnd p c stReservation
    else if (s.waitOf (.me e.val)).isSome then s
    else (s.semFind p i err).semWait (.me e.val) p i (pairAt d 2))

/-- ME_SEM_SIGNAL (R75, R182, R325): once every earlier write of the program is acknowledged. -/
def execMeSemSignal (e : Fin 32) (err : Fin 3) (s : State) : Res :=
  act s fun s => s.meStep e.val 6 (fun p c d s =>
    let i := wordAt d 1
    if !s.semIn p i then s.meEnd p c stReservation
    else if c.unacked ≠ 0 then s
    else
      let s := s.semFind p i err
      match s.semAdd p i (pairAt d 2) with
      | (s, none) => s.meEnd p c stPoison
      | (s, some _) => s.meDone p e.val c false 0 1)

/-- A waiting SEM_WAIT step learns what its hub observed (R325, R327). A program that stands at another step is not the one that waited. -/
def State.meWaitEnds (s : State) (e : Nat) (seen : Option Nat) : State :=
  let s := s.endWait (.me e)
  match s.program e with
  | none => s
  | some (p, c) =>
    if wordAt (c.desc c.progress) 0 % 256 ≠ 5 then s
    else match seen with
      | none => s.meEnd p c stPoison
      | some _ => s.meDone p e c false 0 1

/-! ### What a program names (R170) -/

/-- The rows of a strided tile as ranges (R170): what lies between them is not named. -/
def rowNames (va stride n rows : Nat) (f : Nat → Nat → Named) : List Named := (List.range rows).map (fun r => f (va + r * stride) n)

/-- The ranges step i of a program names, and the slots after it, as far as they can be told before it runs. -/
def stepNames (slots : List Slot) (d : List Nat) (i : Nat) : Option (List Named × List Slot) :=
  let range (va n ac : Nat) : Named := ⟨va, n, ac, 2, i, i⟩
  match wordAt d 0 % 256 with
  | 1 => (loadShape d).map (fun t =>
      (rowNames (pairAt d 2) (wordAt d 6) (rowBytes t.fmt t.k) t.rows (fun va n => range va n acRead)
        ++ [range (pairAt d 4) (t.rows * scalesPerRow t.fmt t.k t.two) acRead],
       putSlot slots { off := nfld (wordAt d 0) 26 16, tile := t, fromEsc := false, copy := none }))
  | 2 =>
    match slotAt slots (nfld (wordAt d 1) 10 0), slotAt slots (nfld (wordAt d 1) 26 16) with
    | some a, some b =>
      let t : Tile := { fmt := fmF32, rows := a.tile.rows, k := b.tile.rows, two := false, ts := 0, data := [], scales := [] }
      some ([], putSlot slots { off := nfld (wordAt d 0) 26 16, tile := t, fromEsc := false, copy := none })
    | _, _ => none
  | 3 =>
    match slotAt slots (nfld (wordAt d 0) 26 16) with
    | some src =>
      let f := nfld (wordAt d 0) 11 8
      let two := decide (nfld (wordAt d 0) 12 12 = 1)
      let bs := if two then 16 else 32
      let k := if f = fmBf16 then src.tile.k else (src.tile.k + bs - 1) / bs * bs
      let t : Tile := { fmt := f, rows := src.tile.rows, k := k, two := two, ts := 0, data := [], scales := [] }
      some ([], putSlot slots { off := nfld (wordAt d 1) 10 0, tile := t, fromEsc := false, copy := none })
    | none => none
  | 4 =>
    match slotAt slots (nfld (wordAt d 0) 26 16) with
    | some x =>
      let t := x.tile
      some (rowNames (pairAt d 2) (wordAt d 6) (rowBytes t.fmt t.k) t.rows (fun va n => range va n acWrite)
              ++ [range (pairAt d 4) (t.rows * scalesPerRow t.fmt t.k t.two) acWrite], slots)
    | none => none
  | _ => some ([], slots)

/-- The ranges the steps from i on name, until one whose shape cannot be told. -/
def stepsName (c : Cmd) : Nat → Nat → List Slot → List Named
  | 0, _, _ => []
  | n + 1, i, slots =>
    match stepNames slots (c.desc i) i with
    | none => []
    | some (l, slots) => l ++ stepsName c n (i + 1) slots

/-- The ranges an ME_PROGRAM names (R170): the list, then each step's in order. The slots of earlier programs are known once the engine
is. -/
def State.meNamed (s : State) (c : Cmd) : List Named :=
  if !c.progOk then []
  else
    let e := c.shownUnit
    let slots := if e < 32 then (s.engine e).slots else []
    ⟨c.progAddr, 32 * c.descCount, acRead, 1, 0, 0⟩
      :: (if c.inputs.isEmpty then [] else stepsName c (c.descCount - c.progress) c.progress slots)

/-! ### Registers (R94, R101, R102) -/

/-- ME_QUARANTINE (R101). -/
def execMeQuarantine (rq : Requester) (e : Fin 32) (v : Word) (s : State) : Res := act s fun s => s.writeQuarantine rq .me e.val v

/-- ME_UNQUARANTINE (R94, R101). -/
def execMeUnquarantine (rq : Requester) (e : Fin 32) (v : Word) (s : State) : Res := act s fun s => s.writeUnquarantine rq .me e.val v

/-- A write of enable 1 to PART_ESC_TBL_CTRL (R33, R102): the checks of a chute's registration over the table and the arena. -/
def State.escEnable (s : State) (p : Nat) (v : Word) : State :=
  let a := Reg.PART_ESC_TBL_CTRL p
  if bitOf (s.reg a) 0 then s
  else
    let s := s.store a (v ||| 1)
    let n := s.escLog2 p
    let r : Range := ⟨s.reg64 (Reg.PART_ESC_TBL_BASE_LO p) % 2 ^ 40, 32 * 2 ^ n⟩
    let r2 : Range := ⟨s.reg64 (Reg.PART_ESC_ARENA_BASE_LO p) % 2 ^ 40, arenaSlot * 2 ^ n⟩
    let err := s.ringCheck p escRing true n 7 16 r r2
    s.registerRing p escRing a (if err = 0 ∧ r.meets r2 then 4 else err) r r2

/-- ESC_TABLE_ENABLE (R33, R102). -/
def execEscTableEnable (rq : Requester) (p : Fin 32) (v : Word) (s : State) : Res :=
  act s fun s => s.access rq (Reg.PART_ESC_TBL_CTRL p.val) (fun s => s.escEnable p.val v)

/-- ESC_TABLE_CLEAR (R102): every entry is zeroed once the partition's running steps have finished; the clear is due until then. The word's other
bits act as in any write of the register: size and enable while enable is 0, a disable by enable 0 (R33). -/
def execEscTableClear (rq : Requester) (p : Fin 32) (v : Word) (s : State) : Res :=
  act s fun s => s.access rq (Reg.PART_ESC_TBL_CTRL p.val) (fun s =>
    let s := if bitOf v 0 then s.escEnable p.val v else s.disableWrite p.val escRing v
    if s.escReady p.val then (s.modPart p.val (fun pt => { pt with clearDue := true })).clearTable p.val else s)

end Sys2Proof.Machine
end

