-- ==== Sys2Proof/Machine/Loft.lean ====
section
/-! DEFINITION. The Loft (R142 to R154, R161, R162): requests, write staging, stripes, garbage collection and wear, reads and their
reconstruction, channels and rebuild. -/

namespace Sys2Proof.Machine

/-- Change the Loft. -/
def State.modLoft (s : State) (f : Loft → Loft) : State := { s with loft := f s.loft }

/-- Bytes of a Loft block. -/
def loftBytes : Nat := 16384
/-- Blocks of the write-staging region (R145). -/
def stagingBlocks : Nat := 131072
/-- Stripes a superblock holds. -/
def stripesPerSuper : Nat := max 1 Config.loftStripes

/-- Bytes of a partition's Loft reservation. -/
def State.loftSize (s : State) (p : Nat) : Nat := s.regF (Reg.PART_RSV_LOFT p) 14 0 * 2 ^ 30

/-- The logical block of a partition's Loft offset (R142). -/
def State.loftBlock (s : State) (p off : Nat) : Option Nat :=
  ((Tbl.get (fun _ => []) s.loft.chunks p)[off / 2 ^ 30]?).map (fun c => c * 65536 + off / loftBytes % 65536)

/-- What the map says of a block. -/
def State.loftPlace (s : State) (b : Nat) : Option LoftPlace := Tbl.get (fun _ => none) s.loft.map b

/-- Change a map entry. -/
def State.setLoftPlace (s : State) (b : Nat) (v : Option LoftPlace) : State :=
  s.modLoft (fun l => { l with map := Tbl.set (fun _ => none) l.map b v })

/-- A block of zeros. -/
def LoftBlock.zero : LoftBlock := ⟨0, 0⟩

/-- A stripe, and a programmed block of it. -/
def stripeKey (sb stripe : Nat) : Nat := sb * 2 ^ 32 + stripe
def nandKey (sb stripe pos : Nat) : Nat := stripeKey sb stripe * 32 + pos

/-- What a programmed block holds; one padded with zeros is not listed. -/
def State.nandBlock (s : State) (sb stripe pos : Nat) : LoftBlock :=
  match Tbl.get (fun _ => none) s.loft.nand (nandKey sb stripe pos) with
  | some x => x.content
  | none => LoftBlock.zero

/-- The page that holds a block (R147): its header carries the next write sequence and the CRC-32C of its 16 KiB; an LDPC parity field covers each
4 KiB. -/
def State.loftPage (s : State) (block : Option Nat) (b : LoftBlock) : LoftPage :=
  { content := b, block := block, wseq := s.loft.wseq,
    crc := crc32c ((List.range loftBytes).map (fun i => b.data / 2 ^ (8 * i) % 256)),
    ldpc := (List.range 4).map (fun i => Config.ldpcParity (b.data / 2 ^ (32768 * i) % 2 ^ 32768)) }

/-- Program a block at its place. -/
def State.nandPut (s : State) (sb stripe pos : Nat) (block : Option Nat) (b : LoftBlock) : State :=
  s.modLoft (fun l => { l with nand := Tbl.set (fun _ => none) l.nand (nandKey sb stripe pos) (some (s.loftPage block b)), wseq := l.wseq + 1 })

/-- The byte-wise XOR of blocks, and of their poison masks: what the parity channel holds of a stripe (R147; that the parity block's own mask is the XOR of
the masks is DESIGN CHOICE, log entry 51). -/
def xorBlocks (l : List LoftBlock) : LoftBlock := l.foldl (fun a b => ⟨a.data ^^^ b.data, a.poison ^^^ b.poison⟩) LoftBlock.zero

/-- A block rebuilt from the other fifteen of its stripe and the parity block (R152). -/
def State.rebuiltBlock (s : State) (sb stripe pos : Nat) : LoftBlock :=
  xorBlocks (((List.range 17).filter (· ≠ pos)).map (s.nandBlock sb stripe))

/-- The 32-bit word of a block's map entry (R149): 0xFFFF_FFFF where it is unmapped, else a physical block number: blocks in staging first, by their
order there, then the NAND's by superblock, stripe and position (the numbering is DESIGN CHOICE, log entry 51; no command shows it). -/
def State.loftMapWord (s : State) (b : Nat) : Nat :=
  match Tbl.get (fun _ => none) s.loft.map b with
  | none => 0xFFFFFFFF
  | some (.staged id) => (s.loft.staging.takeWhile (fun x => decide (x.id ≠ id))).length
  | some (.nand sb st pos) => (stagingBlocks + (sb * stripesPerSuper + st) * 16 + pos) % 0xFFFFFFFF

/-- A superblock. -/
def State.super (s : State) (sb : Nat) : Super := Tbl.get (fun _ => Super.stale) s.loft.supers sb

/-- Change a superblock. -/
def State.modSuper (s : State) (sb : Nat) (f : Super → Super) : State :=
  s.modLoft (fun l => { l with supers := Tbl.modify (fun _ => Super.stale) l.supers sb f })

/-! ### Channels (R146, R153, R162) -/

/-- The channel that serves a position: 0 to 15 data, 16 parity. -/
def State.channelAt (s : State) (pos : Nat) : Option Nat :=
  (List.range 18).find? (fun f =>
    if pos = 16 then decide (s.regF (Reg.LFT_CH_STATUS f) 27 25 = 1)
    else decide (s.regF (Reg.LFT_CH_STATUS f) 27 25 = 0) && decide (s.regF (Reg.LFT_CH_STATUS f) 24 21 = pos))

/-- The position of a channel that serves one. -/
def State.positionOf (s : State) (f : Nat) : Option Nat :=
  match s.regF (Reg.LFT_CH_STATUS f) 27 25 with
  | 0 => some (s.regF (Reg.LFT_CH_STATUS f) 24 21)
  | 1 => some 16
  | _ => none

/-- Can a channel be read: neither dead nor in reset? -/
def State.channelReads (s : State) (f : Nat) : Bool :=
  decide (s.regF (Reg.LFT_CH_STATUS f) 29 29 = 0) && decide (s.regF (Reg.LFT_CH_STATUS f) 28 28 = 0)

/-- Is a stripe's block at a position gone with a dead channel, and not rebuilt (R153)? -/
def State.copyGone (s : State) (k pos : Nat) : Bool :=
  (match s.channelAt pos with | some f => decide (s.regF (Reg.LFT_CH_STATUS f) 29 29 = 1) | none => true) || s.loft.missing.contains (k, pos)

/-- Have two positions of a stripe gone with dead channels? Then every block of it fails (R154). -/
def State.stripeGone (s : State) (k : Nat) : Bool := decide (2 ≤ (List.range 17).countP (s.copyGone k))

/-- Can the copy of a stripe at a position be read from its channel? -/
def State.copyReads (s : State) (sb stripe pos : Nat) : Bool :=
  (match s.channelAt pos with | some f => s.channelReads f | none => false)
    && !s.loft.missing.contains (stripeKey sb stripe, pos) && !s.loft.lost.contains (stripeKey sb stripe, pos)
    && !s.stripeGone (stripeKey sb stripe)

/-- Can a block be rebuilt from the other fifteen and the parity block (R152)? -/
def State.rebuildable (s : State) (sb stripe pos : Nat) : Bool :=
  (List.range 17).all (fun q => decide (q = pos) || s.copyReads sb stripe q)

/-- Blocks the map finds in a superblock: logical block, stripe and position. -/
def State.liveIn (s : State) (sb : Nat) : List (Nat × Nat × Nat) :=
  s.loft.map.filterMap (fun e => match e.2 with
    | some (.nand b st pos) => if b = sb then some (e.1, st, pos) else none
    | _ => none)

/-- Stripes with live data, by key. -/
def State.liveStripes (s : State) : List Nat :=
  (s.loft.map.filterMap (fun e => match e.2 with | some (.nand b st _) => some (stripeKey b st) | _ => none)).eraseDups

/-- Count stripes still to rebuild (R161). -/
def State.showRebuild (s : State) : State := s.setReg64 Reg.LFT_REBUILD_LEFT_LO s.loft.missing.length

/-- What a block holds that can be read or rebuilt (R150, R152); none where it cannot. -/
def State.savedBlock (s : State) (sb stripe pos : Nat) : Option LoftBlock :=
  if s.copyReads sb stripe pos then some (s.nandBlock sb stripe pos)
  else if s.rebuildable sb stripe pos then some (s.rebuiltBlock sb stripe pos)
  else none

/-- LFT_STATUS.loss: some stripes with live data cannot be read (R154, R161). -/
def State.loftLoss (s : State) : Bool := s.liveStripes.any s.stripeGone

/-- A channel is declared dead (R153, R154): a spare takes its role and place and the rebuild begins, or none is left; a rebuild onto the channel that
dies has no end any more. `why` is the cause of the record: 1 training, 2 no status, 3 retire. -/
def State.channelDead (s : State) (f why : Nat) : State :=
  let st := Reg.LFT_CH_STATUS f
  if s.regF st 29 29 = 1 ∨ s.regF st 27 25 = 3 then s
  else
    let role := s.regF st 27 25
    let spare := s.regF Reg.LFT_STATUS 4 0
    let s := (((s.setRegF st 29 29 1).setRegF st 28 28 0).setRegF Reg.LFT_STATUS 30 30 1).cause Reg.LFT_IRQ_CAUSE 1
    if role = 2 then ((s.setRegF Reg.LFT_STATUS 4 0 31).setRegF Reg.LFT_STATUS 28 28 1).report 2 0x0020 8 f none 0 [why, 31]
    else if spare = 31 then
      let s := ((s.setRegF Reg.LFT_STATUS 28 28 1).cause Reg.LFT_IRQ_CAUSE 4).report 2 0x0020 8 f none 0 [why, 31]
      let s := s.report 2 0x0022 8 f none 0 [f]
      match s.positionOf f with
      | some pos =>
        if s.loft.missing.any (fun x => decide (x.2 = pos)) then
          ((s.modLoft (fun l => { l with missing := l.missing.filter (fun x => !decide (x.2 = pos)) })).setRegF Reg.LFT_STATUS 29 29 0).showRebuild
        else s
      | none => s
    else
      let pos := (s.positionOf f).getD 16
      let s := s.tallyPreemptChannel spare
      let sp := Reg.LFT_CH_STATUS spare
      let s := ((s.setRegF sp 27 25 role).setRegF sp 24 21 (if role = 0 then pos else 0)).setRegF st 27 25 3
      let s := ((s.setRegF Reg.LFT_STATUS 4 0 31).setRegF Reg.LFT_STATUS 28 28 1).setRegF Reg.LFT_STATUS 29 29 1
      let s := s.modLoft (fun l => { l with missing := l.missing ++ (s.liveStripes.map (fun k => (k, pos))).filter (fun x => !l.missing.contains x),
                                            rebuilt := 0 })
      s.showRebuild.report 2 0x0020 8 f none 0 [why, spare]

/-- A channel has given status: its timeouts in a row are over. -/
def State.channelAnswers (s : State) (pos : Nat) : State :=
  match s.channelAt pos with
  | some f => s.modLoft (fun l => { l with timeouts := Tbl.set (fun _ => 0) l.timeouts f 0 })
  | none => s

/-- A block passes a channel (R443, R448): event code and class; direction 0 read, 1 programmed. -/
def State.channelBlock (s : State) (pos code cls dir : Nat) : State :=
  match s.channelAt pos with
  | some f =>
    (s.event (linkTile (2 + f / 9)) ⟨code, 4 + f % 9, 1, none, some cls, .device⟩).bandwidthBytes (linkTile (2 + f / 9)) (4 + f % 9) dir loftBytes
  | none => s

/-- LOFT_STATUS_TIMEOUT (R153): no status within 1 ms; the third in a row makes the channel dead. -/
def execLoftStatusTimeout (f : Fin 18) (s : State) : Res :=
  act s fun s =>
    let n := Tbl.get (fun _ => 0) s.loft.timeouts f.val + 1
    if 3 ≤ n then (s.modLoft (fun l => { l with timeouts := Tbl.set (fun _ => 0) l.timeouts f.val 0 })).channelDead f.val 2
    else s.modLoft (fun l => { l with timeouts := Tbl.set (fun _ => 0) l.timeouts f.val n })

/-- LOFT_CHANNEL_RESET (R162): the channel is in reset and its reads are reconstructed. -/
def execLoftChannelReset (rq : Requester) (f : Fin 18) (v : Word) (s : State) : Res :=
  act s fun s => s.access rq (Reg.LFT_CH_CTRL f.val) fun s =>
    let s := s.store (Reg.LFT_CH_CTRL f.val) v
    if s.regF (Reg.LFT_CH_STATUS f.val) 29 29 = 1 then s
    else (s.setRegF (Reg.LFT_CH_STATUS f.val) 28 28 1).setRegF (Reg.LFT_CH_STATUS f.val) 30 30 0

/-- LOFT_CHANNEL_RETRAINED (R153, R162): the reset ends with the channel trained, or it is dead. -/
def execLoftChannelRetrained (f : Fin 18) (ok : Bool) (s : State) : Res :=
  act s fun s =>
    if s.regF (Reg.LFT_CH_STATUS f.val) 28 28 = 0 then s
    else if ok then (s.setRegF (Reg.LFT_CH_STATUS f.val) 28 28 0).setRegF (Reg.LFT_CH_STATUS f.val) 30 30 1
    else s.channelDead f.val 1

/-- LOFT_CHANNEL_RETIRE (R153, R162). -/
def execLoftChannelRetire (rq : Requester) (f : Fin 18) (v : Word) (s : State) : Res :=
  act s fun s => s.access rq (Reg.LFT_CH_CTRL f.val) fun s => (s.store (Reg.LFT_CH_CTRL f.val) v).channelDead f.val 3

/-- Does a channel whose copies are to be rebuilt stand in reset? -/
def State.rebuildHeld (s : State) : Bool :=
  s.loft.missing.any (fun x => match s.channelAt x.2 with
    | some f => decide (s.regF (Reg.LFT_CH_STATUS f) 28 28 = 1)
    | none => false)

/-- Can a missing copy be dealt with now: nothing lives in its stripe, or it can be reconstructed? -/
def State.rebuildReady (s : State) (x : Nat × Nat) : Bool :=
  !s.liveStripes.contains x.1 || s.rebuildable (x.1 / 2 ^ 32) (x.1 % 2 ^ 32) x.2

/-- LOFT_REBUILD_STRIPE (R153): one copy is reconstructed onto the spare; with the last the rebuild is done. A copy that cannot be
reconstructed now is passed over while another can be. -/
def execLoftRebuildStripe (s : State) : Res :=
  act s fun s =>
    if s.regF Reg.LFT_STATUS 29 29 = 0 then s
    else
      let live (x : Nat × Nat) : Bool := s.liveStripes.contains x.1
      let ready := s.rebuildReady
      if s.rebuildHeld then s
      else
        let s' := match s.loft.missing.find? ready with
          | some x =>
            let s := s.modLoft (fun l => { l with missing := l.missing.erase x, rebuilt := l.rebuilt + (if live x then 1 else 0) })
            if live x then s.channelBlock x.2 0x46 3 0 else s
          | none => s
        let s := s'.showRebuild
        if s.loft.missing.any ready then s
        else
          let n := s.loft.rebuilt
          ((s.setRegF Reg.LFT_STATUS 29 29 0).cause Reg.LFT_IRQ_CAUSE 2).report 0 0x0023 8 ((s.loft.missing.map (·.2)).headD 0) none 0
            [n % 2 ^ 32, n / 2 ^ 32]

/-! ### Requests (R144, R145) -/

/-- The mark of a Loft answer among the addresses a command waits for: of a read, and of a write. -/
def loftReadKey (off : Nat) : Nat := 2 ^ 61 + off
def loftWriteKey (off : Nat) : Nat := 2 ^ 62 + off

/-- The deadline of a lower-tier request that a command issues now (R144). -/
def State.loftDeadline (s : State) (p : Nat) (c : Cmd) : Nat :=
  if c.deadline = 0 then 0 else max c.deadline (s.lcc + s.regN (Reg.PART_LT_BUDGET p))

/-- Has the command a request under a key? -/
def State.loftAsked (s : State) (p : Nat) (c : Cmd) (key : Nat) : Bool :=
  s.loft.reqs.any (fun r => decide (r.who = some (p, c.chute, c.seq)) && decide (r.key = key))

/-- A Loft request takes the channels out of their idle mode (R385). -/
def State.wakeLoft (s : State) : State := (List.range 18).foldl (fun s f => s.wakeNow (270 + f)) s

/-- Writes that wait take the free staging blocks in their order of arrival (R145): from now on one is there for these. -/
def State.giveRoom (s : State) : State :=
  let free := stagingBlocks - s.loft.staging.length
  let mine := (s.loft.reqs.filter (fun r => r.write.isSome)).take free
  s.modLoft (fun l => { l with reqs := l.reqs.map (fun r => if r.room.isNone && mine.contains r then { r with room := some s.lcc } else r) })

/-- Issue a request of a command, once. -/
def State.loftAsk (s : State) (p : Nat) (c : Cmd) (key off block : Nat) (write : Option LoftBlock) : State :=
  if s.loftAsked p c key then s
  else (s.wakeLoft.modLoft (fun l =>
    { l with nextId := l.nextId + 1,
             reqs := l.reqs ++ [{ id := l.nextId, who := some (p, c.chute, c.seq), key := key, off := off, block := block, write := write,
                                  place := none, cls := 0, target := none, deadline := s.loftDeadline p c, reading := none, room := none }] })).giveRoom

/-- Queue the move of a live block from its place (R150): what can be read there or rebuilt. One that can be neither stays where it is and goes on
failing its reads (DESIGN CHOICE, log entry 52). -/
def State.loftMove (s : State) (block sb stripe pos cls : Nat) (target : Option Nat) : State :=
  match s.savedBlock sb stripe pos with
  | none => s
  | some b => (s.wakeLoft.modLoft (fun l =>
    { l with nextId := l.nextId + 1,
             reqs := l.reqs ++ [{ id := l.nextId, who := none, key := 0, off := 0, block := block, write := some b,
                                  place := some (.nand sb stripe pos), cls := cls, target := target, deadline := 0, reading := none, room := none }] })).giveRoom

/-- What a command finds as the value of an answered read: the block's data, and above it its poison mask. -/
def LoftBlock.value (b : LoftBlock) : Nat := b.data + b.poison * 2 ^ 131072

/-- A request ends: whoever waits finds the answer. -/
def State.loftAnswer (s : State) (r : LoftReq) (status : Nat) (b : LoftBlock) : State :=
  let s := (s.modLoft (fun l => { l with reqs := l.reqs.filter (fun q => !decide (q.id = r.id)) })).giveRoom
  match r.who with
  | none => s
  | some (p, ch, q) => s.arrive ⟨.cmd p ch q, r.key, b.value, decide (b.poison ≠ 0), status⟩

/-- Forget the requests of a command, and what arrived for it. -/
def State.loftForget (s : State) (p : Nat) (c : Cmd) : State :=
  let w := Waiter.cmd p c.chute c.seq
  (s.modLoft (fun l => { l with reqs := l.reqs.filter (fun r => !decide (r.who = some (p, c.chute, c.seq))) })).modFab
    (fun x => { x with arrivals := x.arrivals.filter (fun a => !decide (a.waiter = w)) })

/-- Is a request late (R144, R145)? A read that is not answered by its deadline; a write for which no staging block was free by then. -/
def State.loftLate (s : State) (r : LoftReq) : Bool :=
  decide (r.deadline ≠ 0) && decide (r.deadline < s.lcc) && (r.write.isNone || match r.room with | some t => decide (r.deadline < t) | none => true)

/-- A late request ends with no data; a late write is not made (R144, R145). -/
def State.endLate (s : State) (r : LoftReq) : State :=
  let s := s.loftAnswer r stDeadline LoftBlock.zero
  match r.who with
  | some (p, _, _) => s.count (Reg.PART_LT_LATE p) 1
  | none => s

/-- LOWER_TIER_LATE (R144, R145): a request past its deadline ends. -/
def execLowerTierLate (id : Nat) (s : State) : Res :=
  act s fun s =>
    match s.loft.reqs.find? (fun r => decide (r.id = id)) with
    | none => s
    | some r => if s.loftLate r then s.endLate r else s

/-! ### Writing (R149) -/

/-- Is there still something to write for a request: a write of a command, or the move of a block that stands where it stood? -/
def State.stillWrites (s : State) (r : LoftReq) : Bool :=
  r.write.isNone || match r.place with | some x => decide (s.loftPlace r.block = some x) | none => true

/-- LOFT_WRITE_STAGE (R145, R149): the oldest write that waits takes a free staging block, and is complete once the map names it; a late one is not
made. A move whose block has been written meanwhile has nothing left to move. -/
def execLoftWriteStage (s : State) : Res :=
  act s fun s =>
    let s := s.modLoft (fun l => { l with reqs := l.reqs.filter s.stillWrites })
    match s.loft.reqs.find? (fun r => r.write.isSome) with
    | none => s
    | some r =>
      match r.write with
      | none => s
      | some b =>
        if s.loftLate r then s.endLate r
        else if stagingBlocks ≤ s.loft.staging.length then s
        else
          let id := s.loft.nextId
          let x : Staged := { id := id, block := r.block, content := b, cls := r.cls, target := r.target, since := s.lcc, program := none }
          let s := s.modLoft (fun l => { l with nextId := id + 1, staging := l.staging ++ [x] })
          (s.setLoftPlace r.block (some (.staged id))).loftAnswer r stOk LoftBlock.zero

/-- Staged blocks that wait for a stripe: of the log, or for a wear move's superblock. -/
def State.waitingFor (s : State) (target : Option Nat) : List Staged :=
  s.loft.staging.filter (fun x => x.program.isNone && decide (x.target = target))

/-- Does a stripe start now: 16 blocks, or 1 ms (100,000 control-bus cycles) since the oldest was staged? -/
def State.stripeDue (s : State) (l : List Staged) : Bool :=
  decide (16 ≤ l.length) || (match l.head? with | some x => decide (x.since + 100000 ≤ s.lcc) | none => false)

/-- The least element of a list by a measure; the first of equals. -/
def leastBy {α : Type} (f : α → Nat) : List α → Option α
  | [] => none
  | x :: t => match leastBy f t with
    | some y => if f y < f x then some y else some x
    | none => some x

/-- The written superblocks with the fewest and the most erases. -/
def State.wearPair (s : State) : Option ((Nat × Super) × (Nat × Super)) :=
  let w := s.loft.supers.filter (fun e => decide (e.2.state = 3))
  match leastBy (fun (e : Nat × Super) => e.2.erases) w, leastBy (fun (e : Nat × Super) => 2 ^ 64 - e.2.erases) w with
  | some a, some b => some (a, b)
  | _, _ => none

/-- The erase counts of the written superblocks, as LFT_ERASE_MIN and LFT_ERASE_MAX show them (R161). -/
def State.eraseCounts (s : State) : Nat × Nat :=
  match s.wearPair with
  | some (a, b) => (a.2.erases, b.2.erases)
  | none => (0, 0)

/-- Is the erase block of a superblock at a position bad (R148, R150)? -/
def State.badAt (s : State) (sb pos : Nat) : Bool :=
  match s.channelAt pos with
  | some f => (Tbl.get (fun _ => []) s.loft.bad f).contains sb
  | none => true

/-- LFT_ERASE_MAX has reached the endurance figure of the image (R161): told when a superblock comes to be written that has. -/
def State.wornOut (s : State) (before : Nat) : State :=
  let e := s.boot.config.endurance
  if e ≠ 0 ∧ before < e ∧ e ≤ s.eraseCounts.2 then (s.cause Reg.LFT_IRQ_CAUSE 16).report 2 0x0024 9 0 none 0 [s.eraseCounts.2] else s

/-- Start programming a stripe into a superblock with room; positions whose erase block is retired take no block. -/
def State.programStripe (s : State) (sb : Nat) (l : List Staged) (written : Nat) : State :=
  let q := s.super sb
  let poss := (List.range 16).filter (fun i => !s.badAt sb i)
  let take := l.zip poss
  let s := s.modLoft (fun f => { f with staging := f.staging.map (fun x =>
    match take.find? (fun e => decide (e.1.id = x.id)) with
    | some e => { x with program := some (sb, q.stripes, e.2) }
    | none => x) })
  let last := decide (stripesPerSuper ≤ q.stripes + 1)
  let max_ := s.eraseCounts.2
  let s := (s.modSuper sb (fun q => { q with stripes := q.stripes + 1, state := if last then 3 else written })).wornOut max_
  if last && decide (s.loft.current = some sb) then s.modLoft (fun l => { l with current := none }) else s

/-- LOFT_STRIPE_PROGRAM (R149): a stripe of the open superblock, or of the one a wear move fills, padded with zero blocks. A free superblock
is opened where none is; which one is free (log entry 5). -/
def execLoftStripeProgram (s : State) : Res :=
  act s fun s =>
    let log := s.waitingFor none
    if s.stripeDue log then
      let s : State := match s.loft.current with
        | some _ => s
        | none =>
          let fr : List (Nat × Super) := s.loft.supers.filter (fun e => decide (e.2.state = 1))
          if fr.isEmpty then s
          else
            let (n, s) := s.choose fr.length
            match fr[n]? with
            | some e => (s.modSuper e.1 (fun q => { q with state := 2, stripes := 0 })).modLoft (fun l => { l with current := some e.1 })
            | none => s
      match s.loft.current with
      | some sb => s.programStripe sb log 2
      | none => s
    else match s.loft.wear with
      | some (_, hi) =>
        let w := s.waitingFor (some hi)
        if (s.super hi).state = 5 ∧ s.stripeDue w then s.programStripe hi w 5 else s
      | none => s

/-- An erase block is retired (R150): counted at its channel; what still lives in it is moved, rebuilt from parity, and its copies are gone. -/
def State.retireBlock (s : State) (sb pos failReg : Nat) : State :=
  let s := match s.channelAt pos with
    | some f => (s.count (failReg + f * 0x10000) 1).count (Reg.LFT_CH_BAD_BLOCKS f) 1
    | none => s
  let live := (s.liveIn sb).filter (fun x => decide (x.2.2 = pos))
  let s := live.foldl (fun s x => s.loftMove x.1 sb x.2.1 pos 1 none) s
  let lost := ((s.liveIn sb).map (fun x => (stripeKey sb x.2.1, pos))).eraseDups
  s.modLoft (fun l => { l with lost := l.lost ++ lost.filter (fun x => !l.lost.contains x),
                               bad := match s.channelAt pos with
                                 | some f => Tbl.modify (fun _ => []) l.bad f (fun b => if b.contains sb then b else sb :: b)
                                 | none => l.bad })

/-- A staged block of a stripe that has been programmed: it stands in the NAND, or stays in staging where its erase block failed (R149, R150). -/
def State.blockDone (s : State) (sb stripe pos : Nat) (bad : Bool) (x : Staged) : State :=
  if bad then s.modLoft (fun l => { l with staging := l.staging.map (fun y => if y.id = x.id then { y with program := none } else y) })
  else
    let s := (s.modLoft (fun l => { l with staging := l.staging.filter (fun y => !decide (y.id = x.id)) })).nandPut sb stripe pos (some x.block) x.content
    let s := if s.loftPlace x.block = some (.staged x.id) then s.setLoftPlace x.block (some (.nand sb stripe pos)) else s
    (s.channelBlock pos 0x47 x.cls 1).channelAnswers pos

/-- The staged blocks that a stripe takes, each with its position. -/
def State.stripeBlocks (s : State) (sb stripe : Nat) : List (Staged × Nat) :=
  s.loft.staging.filterMap (fun x => match x.program with
    | some (b, t, pos) => if b = sb ∧ t = stripe then some (x, pos) else none
    | none => none)

/-- LOFT_PROGRAM_DONE (R149, R150): the stripe is programmed: its blocks stand in the NAND with their XOR on the parity channel, and their staging
blocks are free; a block whose
position failed stays staged, and that erase block is retired. -/
def execLoftProgramDone (sb stripe : Nat) (failed : Option (Fin 17)) (s : State) : Res :=
  act s fun s =>
    let mine := s.stripeBlocks sb stripe
    if mine.isEmpty then s
    else
      let bad (pos : Nat) : Bool := match failed with | some q => decide (q.val = pos) | none => false
      let s := mine.foldl (fun s e => s.blockDone sb stripe e.2 (bad e.2) e.1) s
      let s := if bad 16 ∨ s.badAt sb 16 then s else s.nandPut sb stripe 16 none (xorBlocks (mine.map (fun e => e.1.content)))
      let s := s.giveRoom
      match failed with
      | some q => s.retireBlock sb q.val (Reg.LFT_CH_PROG_FAIL 0)
      | none => s

/-! ### Garbage collection and wear (R150, R151) -/

/-- Free superblocks. -/
def State.freeSupers (s : State) : Nat := (s.loft.supers.filter (fun e => decide (e.2.state = 1))).length

/-- Move every live block of a superblock. -/
def State.collect (s : State) (sb cls : Nat) (target : Option Nat) : State :=
  ((s.liveIn sb).foldl (fun s x => s.loftMove x.1 sb x.2.1 x.2.2 cls target) s).modSuper sb (fun q => { q with state := 4 })

/-- LOFT_GC (R150): below gc_low free superblocks, the written one with the fewest valid blocks is emptied; its erase follows. -/
def execLoftGc (s : State) : Res :=
  act s fun s =>
    if s.regF Reg.LFT_GC_CTRL 31 16 ≤ s.freeSupers then s
    else match leastBy (fun (e : Nat × Super) => (s.liveIn e.1).length) (s.loft.supers.filter (fun e => decide (e.2.state = 3))) with
      | some e => s.collect e.1 1 none
      | none => s

/-- LOFT_WEAR_MOVE (R150): where erase counts differ by more than wear_delta, the most worn written superblock is emptied and erased, and
the valid blocks of the least worn then move into it (log entry 16). -/
def execLoftWearMove (s : State) : Res :=
  act s fun s =>
    match s.loft.wear, s.wearPair with
    | none, some (a, b) =>
      if a.2.erases + s.regF Reg.LFT_GC_CTRL 15 0 < b.2.erases then
        (s.collect b.1 1 none).modLoft (fun l => { l with wear := some (a.1, b.1) })
      else s
    | _, _ => s

/-- Can a superblock be erased: nothing lives in it, nothing is being read from it or programmed into it? -/
def State.erasable (s : State) (sb : Nat) : Bool :=
  (decide ((s.super sb).state = 0) || decide ((s.super sb).state = 4)) && (s.liveIn sb).isEmpty
    && !(s.loft.reqs.any (fun r => match r.reading with | some (b, _, _) => decide (b = sb) | none => false))
    && !(s.loft.staging.any (fun x => match x.program with | some (b, _, _) => decide (b = sb) | none => false))

/-- How many superblocks the fitted NAND has: erase blocks of the smallest data channel (R147). -/
def State.superCount (s : State) : Nat :=
  let n (f : Nat) : Nat := let g := Reg.LFT_CH_GEOMETRY f; s.regF g 31 16 * s.regF g 11 8 * s.regF g 7 4
  ((List.range 16).filterMap s.channelAt).foldl (fun m f => min m (n f)) (2 ^ 32)

/-- LOFT_ERASE_DONE (R150): an erase of a superblock ends; a position whose erase block failed is retired. The superblock is free, or takes
the blocks of the wear move it was emptied for. -/
def execLoftEraseDone (sb : Nat) (failed : Option (Fin 17)) (s : State) : Res :=
  act s fun s =>
    if s.superCount ≤ sb ∨ !s.erasable sb then s
    else
      let s := s.modLoft (fun l => { l with nand := Tbl.keep (fun k => !decide (k / 2 ^ 37 = sb)) l.nand,
                                            missing := l.missing.filter (fun x => !decide (x.1 / 2 ^ 32 = sb)),
                                            lost := l.lost.filter (fun x => !decide (x.1 / 2 ^ 32 = sb)) })
      let s := s.showRebuild
      let s := match failed with
        | some q => s.retireBlock sb q.val (Reg.LFT_CH_ERASE_FAIL 0)
        | none => (List.range 17).foldl (fun s pos => s.channelAnswers pos) s
      let s := s.modSuper sb (fun q => { q with erases := q.erases + 1, stripes := 0, state := 1 })
      match s.loft.wear with
      | some (lo, hi) =>
        if sb = hi then (s.modSuper hi (fun q => { q with state := 5 })).collect lo 2 (some hi)
        else if sb = lo then ((s.modSuper hi (fun q => { q with state := if q.state = 5 then 3 else q.state })).modLoft (fun l => { l with wear := none })).wornOut
          s.eraseCounts.2
        else s
      | none => s

/-- LOFT_READY (R151): enough superblocks are free for the pool. -/
def execLoftReady (s : State) : Res :=
  act s fun s =>
    if s.regF Reg.LFT_CAPACITY 14 0 * 65536 ≤ s.freeSupers * stripesPerSuper * 16 ∧ s.regF Reg.LFT_CAPACITY 14 0 ≠ 0
    then s.setRegF Reg.LFT_STATUS 31 31 1 else s

/-- LOFT_TRIM (R142): a released chunk has its map entries cleared and rejoins the pool. -/
def execLoftTrim (s : State) : Res :=
  act s fun s =>
    match s.loft.trim with
    | [] => s
    | c :: t =>
      (s.modLoft (fun l => { l with trim := t, map := Tbl.keep (fun b => !decide (b / 65536 = c)) l.map })).setRegF Reg.LFT_POOL_FREE 14 0
        (s.regF Reg.LFT_POOL_FREE 14 0 + 1)

/-! ### Reading (R152) -/

/-- LOFT_READ (R152): a read comes to its block: zeros where it is unmapped, from staging, or from the NAND. -/
def execLoftRead (id : Nat) (s : State) : Res :=
  act s fun s =>
    match s.loft.reqs.find? (fun r => decide (r.id = id) && r.write.isNone && r.reading.isNone) with
    | none => s
    | some r =>
      if s.loftLate r then s.endLate r
      else match s.loftPlace r.block with
      | none => s.loftAnswer r stOk LoftBlock.zero
      | some (.staged i) =>
        match s.loft.staging.find? (fun x => decide (x.id = i)) with
        | some x => s.loftAnswer r stOk x.content
        | none => s
      | some (.nand sb stripe pos) =>
        s.modLoft (fun l => { l with reqs := l.reqs.map (fun q => if q.id = id then { q with reading := some (sb, stripe, pos) } else q) })

/-- A read fails because a second block of its stripe does too (R152). -/
def State.loftFailed (s : State) (r : LoftReq) : State :=
  let s := (s.count Reg.LFT_UNRECOVERED 1).cause Reg.LFT_IRQ_CAUSE 8
  let p := r.who.map (·.1)
  let s := s.report 3 0x0021 9 0 p stLowerTier [r.block, r.off % 2 ^ 32, r.off / 2 ^ 32]
  let s := match p with
    | some p => s.count (Reg.PART_LT_FAILED p) 1
    | none => s
  s.loftAnswer r stLowerTier LoftBlock.zero

/-- The channel a read of a block belongs to: the dead one that held a copy not yet rebuilt, else the one that serves its position. -/
def State.readChannel (s : State) (sb stripe pos : Nat) : Option Nat :=
  if s.loft.missing.contains (stripeKey sb stripe, pos) then
    (List.range 18).find? (fun f => decide (s.regF (Reg.LFT_CH_STATUS f) 27 25 = 3) && decide (s.regF (Reg.LFT_CH_STATUS f) 24 21 = pos))
  else s.channelAt pos

/-- A read ends with a block: one past its deadline is late whatever it brings (R144). -/
def State.loftGot (s : State) (r : LoftReq) (b : LoftBlock) : State := if s.loftLate r then s.endLate r else s.loftAnswer r stOk b

/-- Count at the channel that a copy is read from, in one of its counters (R162). -/
def State.loftCount (s : State) (sb stripe pos reg : Nat) : State :=
  match s.readChannel sb stripe pos with | some f => s.count (reg + f * 0x10000) 1 | none => s

/-- The copy cannot be read: the block is rebuilt from its stripe (R152), unless a second block of the stripe fails too. -/
def State.loftRebuilt (s : State) (r : LoftReq) (sb stripe pos : Nat) (twice : Bool) : State :=
  let s := s.loftCount sb stripe pos (Reg.LFT_CH_LDPC_FAIL 0)
  if twice || !s.rebuildable sb stripe pos then (if s.loftLate r then s.endLate r else s.loftFailed r)
  else ((s.count Reg.LFT_RECON 1).channelBlock pos 0x46 2 0).loftGot r (s.rebuiltBlock sb stripe pos)

/-- LOFT_READ_DONE (R144, R152): a read of the NAND ends. Outcome 0: LDPC and CRC pass; 1: a retry step passes; 2: every retry fails; 3: so it
does, and a second block of the stripe fails too. -/
def execLoftReadDone (id : Nat) (outcome : Fin 4) (s : State) : Res :=
  act s fun s =>
    match s.loft.reqs.find? (fun r => decide (r.id = id)) with
    | none => s
    | some r =>
      match r.reading with
      | none => s
      | some (sb, stripe, pos) =>
        if !s.copyReads sb stripe pos then s.loftRebuilt r sb stripe pos (decide (outcome = 3))
        else
          let s := s.channelAnswers pos
          if outcome = 0 then (s.channelBlock pos 0x46 0 0).loftGot r (s.nandBlock sb stripe pos)
          else if outcome = 1 then
            ((s.loftCount sb stripe pos (Reg.LFT_CH_READ_RETRY 0)).channelBlock pos 0x46 1 0).loftGot r (s.nandBlock sb stripe pos)
          else s.loftRebuilt r sb stripe pos (decide (outcome = 3))

end Sys2Proof.Machine
end

