-- ==== Sys2Proof/Machine/FieldTest.lean ====
section
/-! DEFINITION. Reliability commands: fatal errors, error records sent again, acknowledged and read (R353, R356, R366 to R369), and field
test (R371 to R377): requests, candidates, deferral, taking a resource, its passes, results, and what ends a test early. -/

namespace Sys2Proof.Machine

/-! ### Fatal errors (R353, R356) -/

/-- The node stops: a FATAL record, every Cofeben and CXL port disabled; only a reset starts it again. `cause` is 1 Ranger state, 2 package
network, 3 THERMTRIP_N. -/
def State.fatal (s : State) (cause tiles : Nat) : State :=
  let s := s.report 5 0x00FF 0 0 none 0 [cause, tiles]
  let s := (List.range 12).foldl (fun s l => (s.setRegF (Reg.LNK_STATUS l) 31 29 0).setRegF (Reg.LNK_STATUS l) 23 16 0) s
  let s := (List.range 2).foldl (fun s h => s.setReg (Reg.CXL_STATUS h) 0) s
  { s with stopped := true }

/-- FATAL (R356). -/
def execFatalError (cause : Fin 3) (tiles : Nat) (s : State) : Res := act s fun s => s.fatal (cause.val + 1) (tiles % 2 ^ 32)

/-- PACKAGE_NETWORK_REPLAY (R353): counted in the Scaler of the tile that sends; the sixteenth in a row is fatal. -/
def execPackageNetworkReplay (k dest : Fin 10) (row : BitVec 5) (s : State) : Res :=
  act s fun s =>
    let s := if s.sclRuns k.val then s.count (Reg.SCL_FIX_PN_REPLAY k.val) 1 else s
    if 16 ≤ row.toNat then s.fatal 2 (k.val * 16 + dest.val) else s

/-! ### Error records (R366 to R369) -/

/-- CE_SUMMARY (R366): at most once in 2^27 cycles for a unit and store, and only of a count that is not zero. -/
def execCeSummary (cls : Fin 17) (inst : Fin 1664) (store : Fin 11) (s : State) : Res :=
  act s fun s =>
    let key := ceKey cls.val inst.val store.val
    let n := Tbl.get (fun _ => 0) s.errs.ceCount key
    let last := Tbl.get (fun _ => 0) s.errs.ceTime key
    if n = 0 ∨ (last ≠ 0 ∧ s.lcc < last - 1 + 2 ^ 27) then s
    else
      ({ s with errs := { s.errs with ceCount := Tbl.set (fun _ => 0) s.errs.ceCount key 0,
                                      ceTime := Tbl.set (fun _ => 0) s.errs.ceTime key (s.lcc + 1) } }).report 1 0x0002 cls.val inst.val
        none 0 [store.val, n % 2 ^ 32]

/-- Send records in datagrams of up to 16. -/
def State.sendAll (s : State) : Nat → List ErrRec → State
  | 0, _ => s
  | n + 1, rs => if rs.isEmpty then s else (s.sendRecords (rs.take 16)).sendAll n (rs.drop 16)

/-- RECORD_RESEND (R368): every record not acknowledged is sent again. -/
def execRecordResend (s : State) : Res :=
  act s fun s =>
    if s.udpEn then
      let s := s.sendAll 257 s.errs.ring
      { s with errs := { s.errs with ring := s.errs.ring.map (fun r => { r with sent := true }) } }
    else s

/-- RECORD_ACK (R368): a datagram that is not this node's acknowledgement has no effect. -/
def execRecordAck (w0 w1 w2 w3 : Word) (s : State) : Res :=
  act s fun s =>
    if w0.toNat = 0xB6400001 ∧ fld w1 31 22 = s.cell ∧ fld w1 11 0 = s.node then s.ackTo (fld w2 31 16) w3.toNat else s

/-- Is the request on MCTP with the path enabled (R369, R432)? -/
def State.recordPath (s : State) (tr : Transport) : Bool := decide (tr = .mctp) && bitOf (s.reg Reg.RNG_ERR_CTRL) 30

/-- GET_RECORDS (R369): up to four records from a first sequence. -/
def execGetRecords (tr : Transport) (id : BitVec 16) (first : Word) (s : State) : Res :=
  act s fun s =>
    if s.recordPath tr then
      let rs := (s.errs.ring.filter (fun r => serialLe first.toNat r.seq)).take 4
      let s := s.emit (.xfer tr 0x120 id.toNat 0 0 (rs.flatMap (ErrRec.words s.node s.cell)))
      { s with errs := { s.errs with ring := s.errs.ring.map (fun r => if rs.contains r then { r with sent := true } else r) } }
    else s.emit (.xfer tr 0x120 id.toNat 3 0 [])

/-- ACK_RECORDS (R369): it acknowledges the records of this incarnation up to a sequence. -/
def execAckRecords (tr : Transport) (id : BitVec 16) (upto : Word) (s : State) : Res :=
  act s fun s =>
    if s.recordPath tr then (s.ackTo s.incarnation upto.toNat).emit (.xfer tr 0x121 id.toNat 0 0 [])
    else s.emit (.xfer tr 0x121 id.toNat 3 0 [])

/-! ### Field test: candidates (R371) -/

/-- Change the field-test side. -/
def State.modFt (s : State) (f : FieldTest → FieldTest) : State := { s with ft := f s.ft }

/-- The unit kind of test kinds 1 to 4. -/
def ftUnit : Nat → Option UnitKind
  | 1 => some .me | 2 => some .gc | 3 => some .win | 4 => some .row | _ => none

/-- How many instances a kind has. -/
def ftCount : Nat → Nat
  | 1 => 32 | 2 => 64 | 3 => 16 | 4 => 16 | 5 => 1664 | 6 => 6 | 7 => 18 | 8 => 12 | _ => 0

/-- The unit class of FT_RESULT (R365). -/
def ftClass : Nat → Nat
  | 1 => 1 | 2 => 2 | 3 => 3 | 4 => 4 | 5 => 16 | 6 => 7 | 7 => 8 | _ => 10

/-- The range of a T1 pool unit. -/
def poolUnit (u : Nat) : Range := ⟨Config.poolBase + u * 0x10000000, 0x10000000⟩

/-- The lowest 512 unowned pages of a bank, fewer where it has not so many. -/
def State.ftPages (s : State) (bank : Nat) : List Nat :=
  ((List.range 16384).filter (fun i => (s.t0Owner (bank * 16384 + i)).isNone)).take 512 |>.map (bank * 16384 + ·)

/-- T0 pages that partitions reserve (R26). -/
def State.t0Reserved (s : State) : Nat := ((List.range 32).map (fun p => s.regF (Reg.PART_RSV_T0 p) 14 0 * 256)).sum

/-- T0 pages neither reserved nor withheld. -/
def State.t0Spare (s : State) : Nat := 98304 - s.t0Reserved - s.ft.withheldPages.length

/-- Does no partition hold a Loft reservation? -/
def State.noLoft (s : State) : Bool := (List.range 32).all (fun p => decide (s.regF (Reg.PART_RSV_LOFT p) 14 0 = 0))

/-- Is an instance a candidate (R371)? A port whose Tally group another owner runs is busy (R458). -/
def State.ftCandidate (s : State) (kind i : Nat) : Bool :=
  decide (i < ftCount kind) && (match ftUnit kind with
    | some k => (s.owner k i).isNone
    | none =>
      match kind with
      | 5 => !(s.extents.any (fun e => e.range.meets (poolUnit i)))
      | 6 => decide ((s.ftPages i).length = 512) && decide (512 ≤ s.t0Spare)
      | 7 => decide (2 ≤ s.regF (Reg.LFT_CH_STATUS i) 27 25) || decide (s.regF (Reg.LFT_CH_STATUS i) 29 29 = 1) || s.noLoft
      | _ => (decide (s.link i = 0) || decide (s.link i = 4)) && !(s.tallyGroup (2 + i / 3) (i % 3)).busy)

/-- The resource a request takes: the one it names, or of all candidates the one whose last test finished longest ago, untested first and
then the lowest number (R372). -/
def State.ftPick (s : State) (r : FtReq) : Option Nat :=
  if r.inst ≠ 0xFFF then (if s.ftCandidate r.kind r.inst then some r.inst else none)
  else leastBy (fun i => Tbl.get (fun _ => 0) s.ft.tested (r.kind * 4096 + i)) ((List.range (ftCount r.kind)).filter (s.ftCandidate r.kind))

/-- The installed package of a content ID, if it is one for the kind (R372, R378). -/
def State.ftContent (s : State) (id kind : Nat) : Option Package :=
  s.ft.packages.findSome? (fun e => match e.2 with
    | some k => if k.id = id ∧ k.kindMask.testBit (kind - 1) then some k else none
    | none => none)

/-! ### Field test: requests (R372, R373, R376) -/

/-- Show the queue and the running test (R381). -/
def State.showFt (s : State) : State :=
  let a := Reg.RNG_FT_STATUS
  let s := s.setRegF a 28 24 s.ft.queue.length
  match s.ft.run with
  | some x => ((s.setRegF a 31 31 1).setRegF a 15 8 x.req.num).setRegN Reg.RNG_FT_RUN_INST x.inst
  | none => s.setRegF a 31 31 0

/-- Show a result (R376, R381). -/
def State.ftResult (s : State) (num result kind inst step : Nat) : State :=
  (s.setRegN Reg.RNG_FT_RESULT (num % 256 * 2 ^ 24 + result * 2 ^ 20 + kind % 16 * 2 ^ 16 + inst % 4096)).setRegN Reg.RNG_FT_RESULT_STEP step

/-- FT_GO (R372, R405): margins are limited to the parameters of the moment. A request that is not queued has no number: what its result shows
there is a free value (log entry 4). -/
def execFtGo (rq : Requester) (v : Word) (s : State) : Res :=
  act s fun s => s.access rq Reg.RNG_FT_CTRL fun s =>
    let s := s.store Reg.RNG_FT_CTRL v
    let kind := s.regF Reg.RNG_FT_TARGET 31 28
    let inst := s.regF Reg.RNG_FT_TARGET 11 0
    let content := s.regF Reg.RNG_FT_CONTENT 15 0
    let refuse (s : State) (result : Nat) : State := let (n, s) := s.draw; s.ftResult n result kind inst 0
    if 16 ≤ s.ft.queue.length ∨ ftCount kind = 0 ∨ (inst ≠ 0xFFF ∧ ftCount kind ≤ inst) then refuse s 8
    else if (s.ftContent content kind).isNone then refuse s 7
    else
      let n := s.ft.nextNum
      let r : FtReq :=
        { num := n, kind := kind, inst := inst, content := content, clock := min (s.regF Reg.RNG_FT_MARGIN 2 0) (wordAt s.boot.active 12),
          vdrop := min (min 30 (s.regF Reg.RNG_FT_MARGIN 12 8)) (wordAt s.boot.active 13), expiry := s.regN Reg.RNG_FT_EXPIRY, queuedAt := s.lcc,
          deferred := false, told := false }
      let s := s.modFt (fun f => { f with queue := f.queue ++ [r], nextNum := (n + 1) % 256 })
      (s.setRegF Reg.RNG_FT_STATUS 23 16 n).showFt

/-- A request leaves the queue. -/
def State.ftDrop (s : State) (num : Nat) : State :=
  (s.modFt (fun f => { f with queue := f.queue.filter (fun r => !decide (r.num = num)) })).showFt

/-- A request is deferred (R373): it stays queued; one record is sent. Its expiry counts from when it was first deferred. -/
def State.ftDefer (s : State) (r : FtReq) (reason : Nat) : State :=
  let s := s.modFt (fun f => { f with queue := f.queue.map (fun q => if q.num = r.num then
    { q with deferred := true, told := true, queuedAt := if q.told then q.queuedAt else s.lcc } else q) })
  let s := s.ftResult r.num 4 r.kind r.inst 0
  if r.told then s
  else ((s.count Reg.RNG_FT_DEFERRED 1).cause Reg.RNG_FT_IRQ_CAUSE 4).report 0 0x0051 0 0 none 0 [r.num, r.kind, reason]

/-- Restore the resource under test (R374, R375). -/
def State.ftRestore (s : State) (x : FtRun) : State :=
  let s := match ftUnit x.req.kind with
    | some k => s.resetUnit k x.inst
    | none => if x.req.kind = 8 then s.modTally (2 + x.inst / 3) (x.inst % 3) (fun g => { g with owner := 0 }) else s
  (s.modFt (fun f => { f with run := none })).showFt

/-- The running test is ABANDONED (R375): the resource is restored, a T1 unit zeroed first, and the request goes back to the head of the queue,
deferred if it named one instance. -/
def State.ftAbandon (s : State) : State :=
  match s.ft.run with
  | none => s
  | some x =>
    let s := s.ftRestore x
    let s := if x.req.kind = 5 then s.t1Zero (poolUnit x.inst) else s
    let s := (s.count Reg.RNG_FT_ABANDONED 1).ftResult x.req.num 3 x.req.kind x.inst 0
    let s := (s.modFt (fun f => { f with queue := { x.req with deferred := false } :: f.queue })).showFt
    let s := s.cause Reg.RNG_FT_IRQ_CAUSE 1
    if x.req.inst = 0xFFF then s else s.ftDefer x.req (if x.req.kind = 8 then 2 else 1)

/-- A partition or the fabric manager needs an instance: a test of it is abandoned (R375). -/
def State.ftNeeds (s : State) (kind : Nat) (f : Nat → Bool) : State :=
  match s.ft.run with
  | some x => if x.req.kind = kind ∧ f x.inst then s.ftAbandon else s
  | none => s

/-- A PLACE or FREE touches pages of T0 (R375). -/
def State.ftTouches (s : State) (pages : List Nat) : State :=
  match s.ft.run with
  | some x => if x.req.kind = 6 ∧ pages.any (fun g => x.pages.contains g) then s.ftAbandon else s
  | none => s

/-- FT_CANCEL (R381): a queued request is removed, a running test restored. -/
def execFtCancel (rq : Requester) (v : Word) (s : State) : Res :=
  act s fun s => s.access rq Reg.RNG_FT_CTRL fun s =>
    let s := s.store Reg.RNG_FT_CTRL v
    let n := s.regF Reg.RNG_FT_CTRL 15 8
    match s.ft.run, s.ft.queue.find? (fun r => decide (r.num = n)) with
    | some x, q =>
      if x.req.num = n then (s.ftRestore x).ftResult n 6 x.req.kind x.inst 0
      else match q with
        | some r => (s.ftDrop n).ftResult n 6 r.kind r.inst 0
        | none => s
    | none, some r => (s.ftDrop n).ftResult n 6 r.kind r.inst 0
    | none, none => s

/-- FT_RETRY (R373): a deferred request is tried again when a resource is a candidate for it. -/
def execFtRetry (num : BitVec 8) (s : State) : Res :=
  act s fun s => s.modFt (fun f => { f with queue := f.queue.map (fun r =>
    if r.num = num.toNat ∧ (s.ftPick r).isSome then { r with deferred := false } else r) })

/-- FT_EXPIRE (R373). -/
def execFtExpire (num : BitVec 8) (s : State) : Res :=
  act s fun s =>
    match s.ft.queue.find? (fun r => decide (r.num = num.toNat) && r.deferred) with
    | none => s
    | some r =>
      if r.expiry = 0 ∨ s.lcc < r.queuedAt + r.expiry * 100000 then s
      else ((s.ftDrop r.num).ftResult r.num 5 r.kind r.inst 0).cause Reg.RNG_FT_IRQ_CAUSE 4

/-! ### Field test: running (R374, R377) -/

/-- A 16-bit signed value. -/
def signed16 (v : Nat) : Int := if v % 65536 < 32768 then ((v % 65536 : Nat) : Int) else ((v % 65536 : Nat) : Int) - 65536

/-- FT_TAKE (R372 to R374): one test at a time, in queue order; the request at the front that is not deferred takes its resource, or is
deferred: 1 reserved or owned, 2 link busy, 3 too cold. -/
def execFtTake (tj : BitVec 16) (s : State) : Res :=
  act s fun s =>
    match s.ft.run, s.ft.queue.find? (fun r => !r.deferred) with
    | none, some r =>
      match s.ftPick r with
      | none => s.ftDefer r (if r.kind = 8 then 2 else 1)
      | some i =>
        match s.ftContent r.content r.kind with
        | none => (s.ftDrop r.num).ftResult r.num 7 r.kind i 0
        | some k =>
          if k.minTj ≠ 0x8000 ∧ signed16 tj.toNat < signed16 k.minTj then s.ftDefer r 3
          else
            let x : FtRun := { req := r, inst := i, nominalDone := false, tjStart := tj.toNat, version := k.version,
                               pages := if r.kind = 6 then s.ftPages i else [], fail := none, again := false }
            let s := s.ftDrop r.num
            let s := match ftUnit r.kind with
              | some u => (s.wakeNow (u.key i)).resetUnit u i
              | none => if r.kind = 8 then s.modTally (2 + i / 3) (i % 3) (fun g => { g with owner := 2 }) else s
            (s.modFt (fun f => { f with run := some x })).showFt
    | _, _ => s

/-- FT_NOMINAL_PASS (R374): the nominal pass ends, with its first failing step or none. -/
def execFtNominalPass (fail : Option (BitVec 16)) (s : State) : Res :=
  act s fun s => s.modFt (fun f => { f with run := f.run.map (fun x =>
    if x.nominalDone then x else { x with nominalDone := true, fail := fail.map (·.toNat) }) })

/-- What a FAIL does to the resource (R377). -/
def State.ftFailed (s : State) (x : FtRun) (pages : List Nat) : State :=
  match ftUnit x.req.kind with
  | some k => s.quarantine k x.inst
  | none =>
    let withhold (s : State) (n : Nat) : State := (s.count Reg.RNG_FT_WITHHELD n).cause Reg.RNG_FT_IRQ_CAUSE 8
    match x.req.kind with
    | 5 =>
      if s.ft.withheldUnits.contains x.inst then s
      else withhold (s.modFt (fun f => { f with withheldUnits := x.inst :: f.withheldUnits })) 1
    | 6 =>
      let bad := (pages.filter (fun g => x.pages.contains g && !s.ft.withheldPages.contains g)).eraseDups
      if bad.isEmpty then s else withhold (s.modFt (fun f => { f with withheldPages := bad ++ f.withheldPages })) bad.length
    | 7 =>
      match s.regF (Reg.LFT_CH_STATUS x.inst) 27 25 with
      | 2 => ((s.setRegF (Reg.LFT_CH_STATUS x.inst) 27 25 3).setRegF Reg.LFT_STATUS 4 0 31).setRegF Reg.LFT_STATUS 28 28 1
      | 3 => s
      | _ => s.channelDead x.inst 3
    | _ => s

/-- A test ends PASS or FAIL (R374, R377): the resource is restored, the record sent, the result shown and acted on. -/
def State.ftEnd (s : State) (x : FtRun) (fail : Option Nat) (tj : Nat) (pages : List Nat) : State :=
  let r := x.req
  let s := s.ftRestore x
  let key := r.kind * 4096 + x.inst
  let s := s.modFt (fun f => { f with tests := f.tests + 1, tested := Tbl.set (fun _ => 0) f.tested key (f.tests + 1) })
  let result := if fail.isSome then 2 else 1
  let step := fail.getD 0
  let s := (s.ftResult r.num result r.kind x.inst step).setRegN Reg.RNG_FT_TJ (tj * 65536 + x.tjStart)
  let s := s.report (if fail.isSome then 3 else 0) 0x0050 (ftClass r.kind) x.inst none 0
    [r.num, result, r.content, x.version, step, x.tjStart, tj, r.vdrop * 256 + r.clock]
  if fail.isSome then
    ((s.count Reg.RNG_FT_FAIL 1).ftFailed x pages).cause Reg.RNG_FT_IRQ_CAUSE 3
  else
    let s := match ftUnit r.kind with
      | some k => s.unquarantine k x.inst
      | none => s
    (s.count Reg.RNG_FT_PASS 1).cause Reg.RNG_FT_IRQ_CAUSE 1

/-- FT_MARGIN_PASS (R374, R377): the margin pass, where it is not skipped, and the test end; a T1 unit that fails is repaired once from spare rows and tested again. -/
def execFtMarginPass (fail : Option (BitVec 16)) (tj : BitVec 16) (rows : BitVec 16) (pages : List Nat) (s : State) : Res :=
  act s fun s =>
    match s.ft.run with
    | none => s
    | some x =>
      if !x.nominalDone then s
      else
        let skipped := decide (5 ≤ x.req.kind) || (decide (x.req.clock = 0) && decide (x.req.vdrop = 0))
        let f : Option Nat := match x.fail with
          | some n => some n
          | none => if skipped then none else fail.map (·.toNat)
        if f.isSome ∧ x.req.kind = 5 ∧ !x.again ∧ rows ≠ 0 then
          let st := s.stackOf (poolUnit x.inst).base
          let a := Reg.HUB_STACK_STATUS (st / 3) (st % 3)
          let s := s.setRegF a 15 0 (min 65535 (s.regF a 15 0 + rows.toNat))
          s.modFt (fun f => { f with run := some { x with nominalDone := false, fail := none, again := true } })
        else s.ftEnd x f tj.toNat pages

end Sys2Proof.Machine
end

