-- ==== Sys2Proof/Machine/Move.lean ====
section
/-! DEFINITION. MOVE (R131 to R140): operands, checks, placing and freeing T0, segments, the Loft, escalated tiles that move along. A command
that runs does one segment, page or 16 KiB block each time it is presented, when what it needs has come and its earlier writes are
acknowledged. -/

namespace Sys2Proof.Machine

/-! ### Operands (R131, R132) -/

/-- An operand of a MOVE: its tier (0 T0, 1 T1, 2 Loft, 3 none), whether it is paged, its address, align, bank_mask and spread, the address of its
page list and the pages the list names. -/
structure MoveOp where
  tier : Nat
  paged : Bool
  addr : Nat
  align : Nat
  banks : Nat
  spread : Nat
  listAt : Nat
  pages : List Nat
  deriving DecidableEq, Repr

/-- The mode of a MOVE: 0 COPY, 1 PLACE, 2 FREE, 3 ZERO. -/
def Cmd.moveMode (c : Cmd) : Nat := c.arg 8 % 8
/-- Does it copy bytes only (R139)? -/
def Cmd.escRaw (c : Cmd) : Bool := decide (nfld (c.arg 8) 3 3 = 1)
/-- Its length in bytes. -/
def Cmd.moveLen (c : Cmd) : Nat := c.arg64 9
/-- Its segments of 4 KiB, the last possibly partial (R134). -/
def Cmd.moveSegs (c : Cmd) : Nat := (c.moveLen + 4095) / 4096
/-- Bytes of segment i. -/
def Cmd.segLen (c : Cmd) (i : Nat) : Nat := min 4096 (c.moveLen - 4096 * i)

/-- The entries of a page list that has been read. -/
def pageEntries (ws : List Nat) : Nat → List Nat
  | 0 => []
  | n + 1 => pairAt ws 0 :: pageEntries (ws.drop 2) n

/-- A descriptor of six words from word i of the body. -/
def Cmd.moveOp (c : Cmd) (i : Nat) (pages : List Nat) : MoveOp :=
  let w := wordAt c.body i
  { tier := nfld w 1 0, paged := decide (nfld w 2 2 = 1), addr := pairAt c.body (i + 2), align := nfld w 15 12, banks := nfld w 11 6,
    spread := nfld w 5 4, listAt := pairAt c.body (i + 4), pages := pages }

/-- Does the mode use the source (R133)? -/
def Cmd.usesSrc (c : Cmd) : Bool := decide (c.moveMode ≤ 1)

/-- The source's page list comes first among the command's inputs, then the destination's. -/
def Cmd.moveSrc (c : Cmd) : MoveOp :=
  let o := c.moveOp 0 []
  if c.usesSrc && o.paged then { o with pages := pageEntries (c.inputs.headD []) c.moveSegs } else { o with paged := false }

/-- The destination. -/
def Cmd.moveDst (c : Cmd) : MoveOp :=
  let o := c.moveOp 6 []
  if o.paged then { o with pages := pageEntries (c.inputs.getD (if c.usesSrc && (c.moveOp 0 []).paged then 1 else 0) []) c.moveSegs } else o

/-- Are mode, tiers and paged legal together, the length valid and align no reserved code (R131, R133)? -/
def Cmd.moveFormOk (c : Cmd) : Bool :=
  let a := c.moveOp 0 []
  let b := c.moveOp 6 []
  let opOk (o : MoveOp) : Bool := decide (o.align < 10) && !(decide (2 ≤ o.tier) && o.paged)
  decide (c.moveLen % 64 = 0) && decide (64 ≤ c.moveLen) && decide (c.moveLen ≤ 2 ^ 40) && (!c.usesSrc || opOk a) && opOk b &&
    (match c.moveMode with
     | 0 => decide (a.tier ≤ 2) && decide (b.tier ≤ 2)
     | 1 => decide (b.tier = 0) && !b.paged
     | 2 => decide (b.tier = 0)
     | 3 => decide (b.tier ≤ 2)
     | _ => false)

/-- The named addresses of one operand's segment. -/
def MoveOp.named (o : MoveOp) (c : Cmd) (i access : Nat) : List Named :=
  if o.tier ≠ 1 then []
  else if o.paged then [⟨o.pages.getD i 0, c.segLen i, access, 2, i, i⟩]
  else [⟨o.addr + 4096 * i, c.segLen i, access, 2, 0, i⟩]

/-- The page lists a MOVE reads before it runs, in order: address and length. -/
def Cmd.moveLists (c : Cmd) : List (Nat × Nat) :=
  if !c.moveFormOk then []
  else
    (if c.usesSrc && (c.moveOp 0 []).paged then [((c.moveOp 0 []).listAt, 8 * c.moveSegs)] else [])
    ++ (if (c.moveOp 6 []).paged then [((c.moveOp 6 []).listAt, 8 * c.moveSegs)] else [])

/-- The named addresses of a MOVE (R170): its page lists, the list a PLACE may write, then each segment's source and destination. One whose form
fails its checks names none. -/
def Cmd.moveNamed (c : Cmd) : List Named :=
  if !c.moveFormOk then []
  else
    c.moveLists.map (fun x => (⟨x.1, x.2, acRead, 1, 0, 0⟩ : Named))
    ++ (if c.moveMode = 1 then [⟨(c.moveOp 6 []).listAt, 8 * c.moveSegs, acWrite, 1, 0, 0⟩] else [])
    ++ (if c.moveLists.length ≤ c.inputs.length then (List.range c.moveSegs).flatMap (fun i =>
        (if c.usesSrc then c.moveSrc.named c i acRead else []) ++ (if c.moveMode = 1 then [] else c.moveDst.named c i acWrite)) else [])

/-! ### Physical places -/

/-- Where n bytes from byte o of an operand in T0 or T1 stand, within one 4 KiB page; none where a page is not translated. -/
def Cmd.movePhys (c : Cmd) (op : MoveOp) (access o n : Nat) : Option Nat :=
  let at_ := if op.paged then op.pages.getD (o / 4096) 0 + o % 4096 else op.addr + o
  if op.tier = 0 then some (t0Flag + at_)
  else match c.range at_ n access with
    | some (x :: _) => some x.1
    | _ => none

/-- The segments of an operand in T0 or T1 as (first physical address, byte offset, length). -/
def Cmd.movePieces (c : Cmd) (op : MoveOp) (access : Nat) : List (Nat × Nat × Nat) :=
  (List.range c.moveSegs).filterMap (fun i => (c.movePhys op access (4096 * i) (c.segLen i)).map (fun a => (a, 4096 * i, c.segLen i)))

/-! ### Escalated tiles (R139) -/

/-- The range of fabric offsets of an entry's narrow tile. -/
def escTileRange (e : List Nat) : Range := ⟨escOrigin e, (nfld (wordAt e 2) 6 0 + 1) * wordAt e 3⟩

/-- Bytes of a tile that lie in pieces of this node's T1. -/
def State.tileBytes (s : State) (r : Range) (l : List (Nat × Nat × Nat)) : Nat :=
  (l.map (fun x =>
    if !s.isLocalT1 x.1 then 0
    else
      let a := x.1 % 2 ^ 40
      min (a + x.2.2) (r.base + r.size) - max a r.base)).sum

/-- What the scan finds of one entry: not touched, cleared, carried (its last segment, new origin, the bytes of its arena slot, its words), or a
reason to refuse the MOVE. -/
inductive EscScan where
  | none
  | carry (l : List Nat)
  | bad
  deriving DecidableEq, Repr

/-- Scan an entry against the source. -/
def State.escSource (s : State) (p : Nat) (c : Cmd) (src : List (Nat × Nat × Nat)) (i : Nat) : EscScan :=
  let e := s.escEntry p i
  let r := escTileRange e
  let n := s.tileBytes r src
  if !escValid e || decide (n = 0) then .none
  else if n < r.size || decide (c.moveDst.tier ≠ 1) then .bad
  else
    let here := src.filter (fun x => decide (s.tileBytes r [x] ≠ 0))
    match here.find? (fun x => decide (x.1 % 2 ^ 40 ≤ r.base) && decide (r.base < x.1 % 2 ^ 40 + x.2.2)), here.getLast? with
    | some x, some y =>
      let off := x.2.1 + (r.base - x.1 % 2 ^ 40)
      match c.movePhys c.moveDst acWrite (off / 4096 * 4096) 1 with
      | some a =>
        if !s.isLocalT1 a then .bad
        else .carry ([y.2.1 / 4096, a % 2 ^ 40 + off % 4096, s.t1Read (s.arenaAt p i) arenaSlot] ++ e)
      | none => .bad
    | _, _ => .bad

/-- The entries in use of partition p. -/
def State.escUsed (s : State) (p : Nat) : List Nat := (List.range (2 ^ s.escLog2 p)).filter (fun i => escValid (s.escEntry p i))

/-- The entries whose tiles the scan finds in the source. -/
def State.escInSrc (s : State) (p : Nat) (c : Cmd) : List Nat :=
  if c.escRaw || !s.escReady p || !c.usesSrc || decide (c.moveSrc.tier ≠ 1) then []
  else (s.escUsed p).filter (fun i => decide (s.tileBytes (escTileRange (s.escEntry p i)) (c.movePieces c.moveSrc acRead) ≠ 0))

/-- The scan before the first segment: entries to carry, in table order; none when the MOVE must be refused. Modes other than COPY and PLACE
have no source. -/
def State.escScan (s : State) (p : Nat) (c : Cmd) : Option (List (List Nat)) :=
  if c.escRaw || !s.escReady p || !c.usesSrc || decide (c.moveSrc.tier ≠ 1) then some []
  else
    let src := c.movePieces c.moveSrc acRead
    let f := (s.escUsed p).map (s.escSource p c src)
    if f.any (fun x => decide (x = .bad)) then none
    else some (f.filterMap (fun x => match x with | .carry l => some l | _ => none))

/-- Clear the entries whose tiles overlap the destination. -/
def State.escClearDst (s : State) (p : Nat) (c : Cmd) : State :=
  if c.escRaw || !s.escReady p || decide (c.moveDst.tier ≠ 1) then s
  else
    let dst := c.movePieces c.moveDst acWrite
    ((s.escUsed p).filter (fun i => decide (s.tileBytes (escTileRange (s.escEntry p i)) dst ≠ 0))).foldl
      (fun s i => s.escErase (.unit p c.chute c.seq) p i) s

/-- Write the carried entries whose last segment is i (R139): none where one finds no free entry. -/
def State.escCarry (s : State) (p : Nat) (c : Cmd) (i : Nat) : List (List Nat) → Option State
  | [] => some s
  | l :: t =>
    if wordAt l 0 ≠ i then s.escCarry p c i t
    else
      let origin := wordAt l 1
      match s.escPlace p origin with
      | none => none
      | some k =>
        let src := Source.unit p c.chute c.seq
        let s := s.postBytes src (s.arenaAt p k) arenaSlot (wordAt l 2) false
        let w := l.drop 3
        let w := (w.set 0 (origin % 2 ^ 32)).set 1 (wordAt w 1 / 2 ^ 8 * 2 ^ 8 + origin / 2 ^ 32)
        (s.escWrite src p k w).escCarry p c i t

/-! ### Placing T0 (R136) -/

/-- The free pages of a bank that PLACE may take: owned by nobody and not withheld. -/
def State.t0Free (s : State) (bank : Nat) : List Nat :=
  ((List.range 16384).map (bank * 16384 + ·)).filter (fun g => (s.t0Owner g).isNone && !s.ft.withheldPages.contains g)

/-- The lowest aligned run of n free pages of a bank. -/
def State.t0Run (s : State) (bank align n : Nat) : Option Nat :=
  let free := s.t0Free bank
  (free.filter (fun g => decide (g % 2 ^ align = 0))).find? (fun g => (List.range n).all (fun i => free.contains (g + i)))

/-- The pages of a PLACE and the rule that found the last of them; none where there are too few. -/
def State.t0Choose (s : State) (banks align n : Nat) : Option (List Nat × Nat) :=
  let mine := (List.range 6).filter banks.testBit
  match mine.findSome? (fun b => s.t0Run b align n) with
  | some g => some ((List.range n).map (g + ·), 1)
  | none =>
    let two := mine.flatMap s.t0Free
    if n ≤ two.length then some (two.take n, 2)
    else
      let all := two ++ ((List.range 6).filter (fun b => !banks.testBit b)).flatMap s.t0Free
      if n ≤ all.length then some (all.take n, 3) else none

/-! ### Starting a MOVE -/

/-- The checks of R133 but the escalation scan and the reservations: alignment, page lists, Loft blocks, the spread's window. -/
def State.moveChecks (s : State) (c : Cmd) : Bool :=
  let opOk (o : MoveOp) : Bool :=
    if o.tier = 3 then true
    else if o.paged then o.pages.all (fun g => decide (g % 4096 = 0)) else decide (o.addr % 2 ^ (12 + o.align) = 0)
  let dst := c.moveDst
  let w6 := 6 * s.regF (Reg.HUB_T1_MAP 0) 6 0 * 2 ^ 30
  let w3 := w6 + 6 * s.regF (Reg.HUB_T1_MAP 0) 14 8 * 2 ^ 30
  let inWindow (o : Nat) : Bool :=
    match dst.spread with
    | 1 => decide (w3 ≤ o)
    | 2 => decide (w6 ≤ o) && decide (o < w3)
    | _ => decide (o < w6)
  (!c.usesSrc || opOk c.moveSrc) && (decide (c.moveMode = 1) || opOk dst)
    && (decide (dst.tier ≠ 2) || (decide (dst.addr % loftBytes = 0) && decide (c.moveLen % loftBytes = 0)))
    && (decide (dst.tier ≠ 1) || decide (dst.spread = 0)
        || (c.movePieces dst acWrite).all (fun x => !s.isLocalT1 x.1 || inWindow (x.1 % 2 ^ 40)))

/-- Does every Loft operand end within the partition's reservation? -/
def State.moveLoftFits (s : State) (p : Nat) (c : Cmd) : Bool :=
  let fits (o : MoveOp) : Bool := decide (o.tier ≠ 2) || decide (o.addr + c.moveLen ≤ s.loftSize p)
  (!c.usesSrc || fits c.moveSrc) && fits c.moveDst

/-- End a MOVE with a status. -/
def State.moveEnd (s : State) (p : Nat) (c : Cmd) (status : Nat) : State :=
  (s.loftForget p c).endCmd p c status c.partialResult.1 c.partialResult.2

/-- Start a PLACE (R136): the pages are owned, a test of one ends (R375), and the list is written where rule 2 or 3 served. -/
def State.placeStart (s : State) (p : Nat) (c : Cmd) : State :=
  let n := c.moveSegs
  if s.regF (Reg.PART_RSV_T0 p) 14 0 * 256 < (s.t0Owned p).length + n then s.endCmd p c stReservation 0 0
  else match s.t0Choose c.moveDst.banks c.moveDst.align n with
    | none => s.endCmd p c stReservation 0 0
    | some (pages, rule) =>
      let s := s.ftTouches pages
      let s := pages.foldl (fun s g => s.setT0Owner g (some p)) s
      let listAt := c.moveDst.listAt
      let flags := if rule = 1 then 0 else if rule = 2 then 1 else 3
      let base := if rule = 1 then pages.headD 0 * 4096 else listAt
      let s := s.setAux p c 0 ([0, 0, 0, flags, base] ++ pages)
      if rule = 1 then s
      else match c.range listAt (8 * n) acWrite with
        | some x => s.storeAll (c.agent p) (pages.foldr (fun g acc => g * 4096 + 2 ^ 64 * acc) 0) false x
        | none => s

/-- A MOVE that runs for the first time: its checks (R133), then its state of work: segments written, the first not written, the worst status,
detail bits, placement. -/
def State.moveStart (s : State) (p : Nat) (c : Cmd) : State :=
  if !c.moveFormOk || !s.moveChecks c then s.endCmd p c stUnsupported 0 0
  else
    let table := if c.escRaw || !s.escReady p then [] else linesOf (s.escAt p 0) (32 * 2 ^ s.escLog2 p)
    s.whenReadable table fun s => s.whenReadable ((s.escInSrc p c).flatMap (fun i => linesOf (s.arenaAt p i) arenaSlot)) fun s =>
      match s.escScan p c with
      | none => s.endCmd p c stUnsupported 0 0
      | some carried =>
        if !s.moveLoftFits p c then s.endCmd p c stReservation 0 0
        else if c.moveMode = 1 then
          (s.modCmd p c.chute c.seq (fun c => { c with inputs := c.inputs ++ carried })).placeStart p c
        else
          let s := s.escClearDst p c
          let s := s.modCmd p c.chute c.seq (fun c => { c with inputs := c.inputs ++ carried })
          s.setAux p c 0 [0, 0, 0, 0, 0]

/-! ### Segments (R134, R135) -/

/-- What one line of a source holds: its 64 bytes, poison, a status that ends the request. -/
abbrev LineVal := Nat × Bool × Nat

/-- The lines of segment i of the source, once they are there; else the state in which they have been asked for. A missing source is zeros. -/
def State.segSource (s : State) (p : Nat) (c : Cmd) (i : Nat) : Option (List LineVal) × State :=
  let op := c.moveSrc
  let n := c.segLen i / 64
  let ag := c.agent p
  let w := Waiter.cmd p c.chute c.seq
  if !c.usesSrc ∨ op.tier = 3 then (some (List.replicate n (0, false, 0)), s)
  else if op.tier = 2 then
    let off := op.addr + 4096 * i
    match s.fab.arrivals.find? (fun x => decide (x.waiter = w) && decide (x.addr = loftReadKey off)) with
    | some x =>
      let at_ := off % loftBytes / 64
      let v := x.value / 2 ^ (512 * at_)
      let po := x.value / 2 ^ 131072 / 2 ^ at_
      (some ((List.range n).map (fun k => (v / 2 ^ (512 * k) % 2 ^ 512, po.testBit k, x.status))), s)
    | none =>
      match s.loftBlock p off with
      | some b => (none, s.loftAsk p c (loftReadKey off) off b none)
      | none => (some (List.replicate n (0, false, stLowerTier)), s)
  else match c.movePhys op acRead (4096 * i) (c.segLen i) with
    | none => (none, s)
    | some a =>
      let ls := physLines a (c.segLen i)
      if ls.all (s.lineReady ag false) then
        (some (ls.map (s.lineValue ag false)), ls.foldl (fun s a => s.countRead ag false a) s)
      else (none, ls.foldl (fun s a => s.askLine ag false a) s)

/-- Forget what came for a segment that has been used. -/
def State.segUsed (s : State) (p : Nat) (c : Cmd) : State :=
  s.modFab (fun x => { x with arrivals := x.arrivals.filter (fun a => !decide (a.waiter = .cmd p c.chute c.seq)) })

/-- The status that lines give a segment: of its failed requests, and whether a line was poisoned. -/
def linesStatus (l : List LineVal) : Nat := l.foldl (fun a v => worseStatus a v.2.2) 0
/-- Is a line of the segment poisoned? -/
def linesPoison (l : List LineVal) : Bool := l.any (·.2.1)

/-- Write lines at a physical address, each with its poison (R135), counted where their MOVE channel stands (R443). -/
def State.storeLines (s : State) (p : Nat) (c : Cmd) (a : Nat) (l : List LineVal) : State :=
  let s := s.event (hubTile (c.runUnit / 4 % 2)) ⟨0x29, 0, 64 * l.length, (if isT0 a then none else some a), none, .ofPart p⟩
  ((List.range l.length).zip l).foldl (fun s x => s.storeLine (c.agent p) (a + 64 * x.1) fullMask x.2.1 x.2.2.1) s

/-- Segments done: `n` more have been dealt with, written or, with a status, not. -/
def State.segDone (s : State) (p : Nat) (c : Cmd) (n : Nat) (fail : Nat) (poison : Bool) (first : Nat) : State :=
  let a := c.aux
  let a := if fail = 0 then a.set 0 (a.getD 0 0 + n) else a.set 1 (if a.getD 1 0 = 0 then first + 1 else a.getD 1 0)
  let st := worseStatus (worseStatus (a.getD 2 0) fail) (if poison then stPoison else 0)
  s.setAux p c (c.progress + n) (a.set 2 st)

/-- After the writes of segment i: the carried entries it completes, or the end of the MOVE where one has no room (R139). -/
def State.segCarry (s : State) (p : Nat) (c : Cmd) (i : Nat) : State :=
  match s.escCarry p c i (c.inputs.drop c.moveLists.length) with
  | some s => s
  | none =>
    match s.cmd p c.chute c.seq with
    | some c => (s.pcause p (Reg.PART_ME_IRQ_CAUSE p) 8).moveEnd p c (worseStatus stReservation (c.auxAt 2))
    | none => s.pcause p (Reg.PART_ME_IRQ_CAUSE p) 8

/-- One segment to T0 or T1. -/
def State.segment (s : State) (p : Nat) (c : Cmd) : State :=
  let i := c.progress
  match s.segSource p c i with
  | (none, s) => s
  | (some l, s) =>
    let fail := linesStatus l
    let dst := if c.moveMode = 1 then some (t0Flag + c.aux.getD (5 + i) 0 * 4096) else c.movePhys c.moveDst acWrite (4096 * i) (c.segLen i)
    match dst with
    | none => s
    | some a =>
      let s := s.segUsed p c
      let s := if fail = 0 then s.storeLines p c a l else s
      (s.segDone p c 1 fail (linesPoison l) i).segCarry p c i

/-- Gather segments of the source. -/
def State.gather (s : State) (p : Nat) (c : Cmd) (i : Nat) : Nat → Option (List (List LineVal)) × State
  | 0 => (some [], s)
  | n + 1 =>
    match s.segSource p c i with
    | (x, s) => match s.gather p c (i + 1) n with
      | (y, s) => (match x, y with | some a, some b => some (a :: b) | _, _ => none, s)

/-- The four segments that a destination block of the Loft at offset `off` takes, when segment i is its first (R134): a source segment that is itself an
earlier segment of this block holds by then what has been copied there. -/
def Cmd.copiedAscending (c : Cmd) (off i : Nat) (ls : List (List LineVal)) : List (List LineVal) :=
  (List.range ls.length).foldl (fun acc j =>
    let src := c.moveSrc.addr + 4096 * (i + j)
    if c.usesSrc && decide (c.moveSrc.tier = 2) && decide (off ≤ src) && decide (src < off + 4096 * j) then
      acc ++ [acc.getD ((src - off) / 4096) []]
    else acc ++ [ls.getD j []]) []

/-- One 16 KiB block to the Loft (R134): written whole once its four segments are in hand, or not at all. A ZERO unmaps it. -/
def State.blockToLoft (s : State) (p : Nat) (c : Cmd) : State :=
  let i := c.progress
  let off := c.moveDst.addr + 4096 * i
  let w := Waiter.cmd p c.chute c.seq
  match s.loftBlock p off with
  | none => s.segDone p c 4 stLowerTier false i
  | some b =>
    if c.moveMode = 3 then (s.setLoftPlace b none).segDone p c 4 0 false i
    else match s.takeArrival w (loftWriteKey off) with
      | some (x, s) =>
        let s := s.segUsed p c
        let s := if x.status = 0 then
            s.event (hubTile (c.runUnit / 4 % 2)) ⟨0x29, 0, loftBytes, none, none, .ofPart p⟩ else s
        s.segDone p c 4 x.status x.poison i
      | none =>
        if s.loftAsked p c (loftWriteKey off) then s
        else match s.gather p c i 4 with
          | (none, s) => s
          | (some ls, s) =>
            let ls := c.copiedAscending off i ls
            let l := ls.flatten
            let fails := ls.map linesStatus
            match fails.findIdx? (· ≠ 0) with
            | some k =>
              let s := s.segUsed p c
              s.segDone p c 4 (fails.foldl worseStatus 0) (linesPoison l) (i + k)
            | none =>
              let data : Nat := l.foldr (fun (v : LineVal) (acc : Nat) => v.1 + 2 ^ 512 * acc) 0
              let po : Nat := l.foldr (fun (v : LineVal) (acc : Nat) => (if v.2.1 then 1 else 0) + 2 * acc) 0
              let a := if po = 0 then c.aux else c.aux.set 2 (worseStatus (c.auxAt 2) stPoison)
              (s.setAux p c c.progress a).loftAsk p c (loftWriteKey off) off b (some ⟨data, po⟩)

/-- One page of a FREE (R137). -/
def State.freePage (s : State) (p : Nat) (c : Cmd) : State :=
  let i := c.progress
  let op := c.moveDst
  let a := if op.paged then op.pages.getD i 0 else op.addr + 4096 * i
  let g := a / 4096
  let s := s.ftTouches [g]
  if s.t0Owner g = some p ∧ a < Config.t0Bytes then
    ((s.t0Zero ⟨g * 4096, 4096⟩).setT0Owner g none).setAux p c (i + 1) (c.aux.set 0 (c.auxAt 0 + 1))
  else (s.violateMem (.unit p c.chute c.seq) true a).setAux p c (i + 1) c.aux

/-- One presentation of a MOVE that runs: its checks, or its next piece of work, or its end once all is written (R53, R138). It stops at a
segment, or block, when it must (R60). -/
def State.moveStep (s : State) (p chute seq mode : Nat) (work : State → Cmd → State) : State :=
  match s.cmd p chute seq with
  | none => s
  | some c =>
    if c.opcode ≠ 0x01 ∨ c.phase ≠ .running ∨ (c.moveMode ≠ mode ∧ c.moveMode < 4) then s
    else if c.mustStop && !s.loftAsked p c (loftWriteKey (c.moveDst.addr + 4096 * c.progress)) then s.moveEnd p c stAborted
    else if c.aux.isEmpty then s.moveStart p c
    else if c.unacked ≠ 0 then s
    else if c.moveSegs ≤ c.progress then s.moveEnd p c (c.auxAt 2)
    else work s c

/-- MOVE_COPY (R134). Modes 4 to 7 complete UNSUPPORTED_FORMAT from here too. -/
def execMoveCopy (p : Fin 32) (chute : Fin 64) (seq : Word) (s : State) : Res :=
  act s fun s => s.moveStep p.val chute.val seq.toNat 0 fun s c =>
    if c.moveDst.tier = 2 then s.blockToLoft p.val c else s.segment p.val c

/-- MOVE_PLACE (R136). -/
def execMovePlace (p : Fin 32) (chute : Fin 64) (seq : Word) (s : State) : Res :=
  act s fun s => s.moveStep p.val chute.val seq.toNat 1 fun s c => s.segment p.val c

/-- MOVE_FREE (R137). -/
def execMoveFree (p : Fin 32) (chute : Fin 64) (seq : Word) (s : State) : Res :=
  act s fun s => s.moveStep p.val chute.val seq.toNat 2 fun s c => s.freePage p.val c

/-- MOVE_ZERO (R133, R135). -/
def execMoveZero (p : Fin 32) (chute : Fin 64) (seq : Word) (s : State) : Res :=
  act s fun s => s.moveStep p.val chute.val seq.toNat 3 fun s c =>
    if c.moveDst.tier = 2 then s.blockToLoft p.val c else s.segment p.val c

end Sys2Proof.Machine
end

