-- ==== Sys2Proof/Machine/SyncRun.lean ====
section
/-! DEFINITION. What a node does with a sync message that has passed its epoch check (R328 to R333, R347), the check itself (R340, R344),
and what a commit does (R333, R339). -/

namespace Sys2Proof.Machine

/-! ### Fields of a sync message (R344) -/

/-- Word 2: semaphore index, barrier and generation, old epoch or step. -/
def Packet.sync2 (k : Packet) : Nat := wordAt k.body 2
/-- Word 3: partition, rank or list count. -/
def Packet.sync3 (k : Packet) : Nat := wordAt k.body 3

/-- Is the packet a sync message of the type? -/
def Packet.isSync (k : Packet) (typ : Nat) : Bool := decide (k.proto = 2) && decide (k.typ = typ) && decide (k.tkind = 0)

/-! ### Semaphores of other nodes (R328) -/

/-- A remote ADD or SET on a semaphore of the member partition; `err` what its stored value shows. -/
def State.runSem (s : State) (k : Packet) (p : Nat) (err : Fin 3) : State :=
  let i := nfld k.sync2 17 0
  let s := s.semFind p i err
  if k.typ = syAdd then
    match s.semAdd p i (pairAt k.body 4) with
    | (s, some v) => s.endRequest k stOk v 0 false
    | (s, none) => s.endRequest k stPoison 0 0 false
  else
    match s.semSet p i (pairAt k.body 4) with
    | (s, v) => s.endRequest k stOk v 0 false

/-! ### Barriers (R329 to R333) -/

/-- The key of a barrier. -/
def barKey (c b : Nat) : Nat := 64 * c + b % 64

/-- A barrier at its home. -/
def State.barrier (s : State) (key : Nat) : Barrier := Tbl.get (fun _ => Barrier.fresh) s.sync.barriers key

/-- Set it. -/
def State.setBarrier (s : State) (key : Nat) (b : Barrier) : State :=
  s.modSync (fun y => { y with barriers := Tbl.set (fun _ => Barrier.fresh) y.barriers key b })

/-- The BARRIER whose arrival awaits its release here. -/
def State.side (s : State) (key : Nat) : Option (Nat × Nat) := Tbl.get (fun _ => none) s.sync.sides key

/-- Set it. -/
def State.setSide (s : State) (key : Nat) (v : Option (Nat × Nat)) : State :=
  s.modSync (fun y => { y with sides := Tbl.set (fun _ => none) y.sides key v })

/-- Does a role mask (bit 1 bandwidth, bit 0 compute) choose a member (R330)? -/
def maskTakes (mask : Nat) (m : Member) : Bool :=
  decide (mask % 4 = 0) || (if m.bandwidth then decide (mask / 2 % 2 = 1) else decide (mask % 2 = 1))

/-- The participants of a generation, in node order. -/
def participants (l : List Member) (mask : Nat) : List Nat := (l.filter (maskTakes mask)).map (·.node)

/-- How many of 64 bits are 1. -/
def ones64 (v : Nat) : Nat := ((List.range 64).map (fun i => v / 2 ^ i % 2)).sum

/-- The last history of a node at a barrier. -/
def Barrier.past (b : Barrier) (node : Nat) : Nat := Tbl.get (fun _ => 0) b.history node

/-- Is a node suspect, by the count of partition p (R332, R349)? -/
def State.suspect (s : State) (p : Nat) (b : Barrier) (node : Nat) : Bool :=
  decide (min 63 (s.regF (Reg.PART_BAR_CTRL p) 6 0) < ones64 (b.past node))

/-- Shift the history of every participant, with a 1 for the last (R332). One that becomes suspect is counted and shown. -/
def State.enterLast (s : State) (p key : Nat) (b : Barrier) (nodes : List Nat) (last : Nat) : State × Barrier :=
  if nodes.length ≤ 1 then (s, b)
  else
    let b' := { b with history := nodes.foldl (fun h n =>
      Tbl.modify (fun _ => 0) h n (fun v => (2 * v + (if n = last then 1 else 0)) % 2 ^ 64)) b.history }
    let s := nodes.foldl (fun s n =>
      if s.suspect p b' n && !s.suspect p b n then
        (((s.count (Reg.PART_BAR_SUSPECTS p) 1).setRegN (Reg.PART_BAR_LAST_SUSPECT p) (2 ^ 31 + key % 64 * 2 ^ 12 + n % 4096))).pcause p
          (Reg.PART_SYNC_IRQ_CAUSE p) 4
      else s) s
    (s, b')

/-- The fields of a release for one participant (R331): words 4 to 7 hold the generation, rank and count, and the detail. -/
def releaseFields (generation rank count detail : Nat) : Nat := generation % 2 ^ 32 + (rank + count * 2 ^ 16) * 2 ^ 32 + detail * 2 ^ 64

/-- The last participant has arrived (R331, R332): histories, the releases, and the next generation. -/
def State.releaseBarrier (s : State) (c key : Nat) (k : Comp) (b : Barrier) : State :=
  let nodes := participants k.map b.mask
  let last := b.arrivals.getLast?.getD 0
  let (s, b) := s.enterLast k.part key b nodes last
  let n := b.arrivals.length
  let s := s.setBarrier key { b with generation := (b.generation + 1) % 2 ^ 32, arrivals := [], mask := 0 }
  (List.range n).foldl (fun s r =>
    let node := b.arrivals.getD r 0
    let detail := last + flag (s.suspect k.part b last) 12 + flag (s.suspect k.part b node) 13
    s.sendOrLose (syncReq node syRelease c k.epoch (key % 64 * 2 ^ 26 + b.generation % 2 ^ 26) (r * 2 ^ 16)
      (releaseFields b.generation r n detail) k.part (.sync k.part))) s

/-- BAR_ARRIVE at the home (R329, R331, R333): refused unless it carries the current epoch; the first arrival begins a generation and sets its mask.
A node its mask excludes, or that has arrived, is refused (log entry 18). -/
def State.runArrive (s : State) (k : Packet) (x : Comp) : State :=
  let c := k.comp
  let key := barKey c (nfld k.sync2 31 26)
  if k.epoch ≠ x.epoch then s.refuseStale k
  else
    let b := s.barrier key
    let b := if b.arrivals.isEmpty then { b with mask := wordAt k.body 4 % 4, epoch := k.epoch } else b
    if !(participants x.map b.mask).contains k.src || b.arrivals.contains k.src then s.refuseStale k
    else
      let b := { b with arrivals := b.arrivals ++ [k.src] }
      let s := s.endRequest k stOk 0 0 false
      if b.arrivals.length = (participants x.map b.mask).length then s.releaseBarrier c key x b else s.setBarrier key b

/-- A running command. -/
def State.running (s : State) (p chute seq : Nat) : Option Cmd :=
  match s.cmd p chute seq with
  | some c => if c.phase = .running then some c else none
  | none => none

/-- End a command if it still runs. -/
def State.finishRunning (s : State) (p chute seq status result detail : Nat) : State :=
  if (s.running p chute seq).isSome then s.finish p chute seq status result detail else s

/-- BAR_RELEASE at a participant (R331, R333): its BARRIER completes; a release that comes after an abort, or of an earlier epoch than the
arrival that waits, is discarded. -/
def State.runRelease (s : State) (k : Packet) (p : Nat) : State :=
  let key := barKey k.comp (nfld k.sync2 31 26)
  let s := s.endRequest k stOk 0 0 false
  match s.side key with
  | none => s
  | some (chute, seq) =>
    match s.running p chute seq with
    | none => s.setSide key none
    | some c =>
      if epochOlder k.epoch c.compEpoch then s
      else (s.setSide key none).finish p chute seq stOk (pairAt k.body 4) (nfld (wordAt k.body 6) 13 0)

/-- Every generation of a composition ends (R333): arrivals are discarded and each waiting BARRIER of partition p completes STALE_EPOCH; a new
member list clears the histories too. -/
def State.endGenerations (s : State) (c p : Nat) (newList : Bool) : State :=
  let mine (key : Nat) : Bool := decide (key / 64 = c)
  let waiting := (s.part p).cmds.filter (fun d => decide (d.opcode = 0x0D) && decide (d.phase = .running) && decide (d.compId = c))
  let s := s.modSync (fun y =>
    { y with barriers := y.barriers.filterMap (fun e =>
               if !mine e.1 then some e
               else
                 let b : Barrier := { e.2 with arrivals := [], mask := 0, history := if newList then [] else e.2.history }
                 if b = Barrier.fresh then none else some (e.1, b)),
             sides := Tbl.keep (fun key => !mine key) y.sides })
  waiting.foldl (fun s d => s.finish p d.chute d.seq stStaleEpoch 0 0) s

/-! ### Votes (R347) -/

/-- Vote slots of partition p. -/
def State.voteSlots (s : State) (p : Nat) : List VoteSlot := s.sync.slots.filter (fun v => decide (v.part = p))

/-- A digest is put into a vote slot, or discarded and counted. -/
def State.putVote (s : State) (p step sender digest : Nat) : State :=
  let same (v : VoteSlot) : Bool := decide (v.part = p) && decide (v.step = step) && decide (v.sender = sender)
  if s.sync.votesDone.contains (p, step) then s.count (Reg.PART_DIG_DROPPED p) 1
  else if s.sync.slots.any same then
    s.modSync (fun y => { y with slots := y.slots.map (fun v => if same v then { v with digest := digest } else v) })
  else if (s.voteSlots p).length < 64 then s.modSync (fun y => { y with slots := y.slots ++ [⟨p, step, sender, digest⟩] })
  else s.count (Reg.PART_DIG_DROPPED p) 1

/-- The digest of a step a partition holds from a sender. -/
def State.vote (s : State) (p step sender : Nat) : Option Nat :=
  (s.sync.slots.find? (fun v => decide (v.part = p) && decide (v.step = step) && decide (v.sender = sender))).map (·.digest)

/-- The first value that at least m entries hold. -/
def majorityOf (l : List (Option Nat)) (m : Nat) : Option Nat :=
  l.findSome? (fun x => match x with
    | some d => if m ≤ (l.filter (fun y => decide (y = some d))).length then some d else none
    | none => none)

/-- The n replicas of a vote block (R345), one node in 16 bits. -/
def replicaIds (ws : List Nat) (n : Nat) : List Nat := (List.range n).map (fun i => wordAt ws (i / 2) / 2 ^ (16 * (i % 2)) % 2 ^ 16)

/-- Replicas of a DIGEST. -/
def Cmd.replicas (c : Cmd) : Nat := nfld (c.arg 8) 27 24 + 1

/-- The replicas' nodes, from the vote block read while the command waited. -/
def Cmd.replicaNodes (c : Cmd) : List Nat := replicaIds (c.inputs.getD 1 []) c.replicas

/-- Where its vote block stands. -/
def Cmd.voteVa (c : Cmd) : Nat := c.arg64 11

/-- What a waiting DIGEST has of each replica's digest: its own in working value 0. -/
def State.received (s : State) (p : Nat) (c : Cmd) : List (Option Nat) :=
  c.replicaNodes.map (fun n => if n = s.node then some (c.auxAt 0) else s.vote p (c.arg 13) n)

/-- A number with a bit for each entry that passes a test. -/
def maskOf (l : List (Option Nat)) (t : Option Nat → Bool) : Nat :=
  ((List.range l.length).map (fun i => flag (t (l.getD i none)) i)).sum

/-- Decide a vote from the digests received (R347): the record is written, marked replicas are shown, the command completes OK. -/
def State.decideVote (s : State) (p : Nat) (c : Cmd) : State :=
  let n := c.replicas
  let l := s.received p c
  let maj := majorityOf l (n / 2 + 1)
  let got := maskOf l Option.isSome
  let agree := if maj.isSome then maskOf l (fun x => decide (x = maj)) else 0
  let marked := if maj.isSome then got - agree else 0
  let own := c.replicaNodes.findIdx (fun m => decide (m = s.node))
  let words := [c.arg 13, flag maj.isSome 31 + 2 ^ 30 + own * 2 ^ 16 + got, agree, 0] ++ numWords (c.auxAt 0) 4 ++ numWords (maj.getD 0) 4
    ++ [0, 0, 0, 0] ++ l.flatMap (fun x => numWords (x.getD 0) 4)
  let v := words.foldr (fun w a => w + 2 ^ 32 * a) 0
  let s := s.modSync (fun y => { y with slots := y.slots.filter (fun v => !(decide (v.part = p) && decide (v.step = c.arg 13))),
                                        votesDone := (p, c.arg 13) :: y.votesDone.filter (· ≠ (p, c.arg 13)) })
  let s := match c.range (c.voteVa + 64) (64 + 16 * n) acWrite with
    | some x => s.storeAll (c.agent p) v false x
    | none => s
  let s := if marked = 0 then s
    else (((s.setRegN (Reg.PART_DIG_EXPEL_MASK p) marked).setRegN (Reg.PART_DIG_EXPEL_STEP p) (c.arg 13))).pcause p
      (Reg.PART_SYNC_IRQ_CAUSE p) 8
  s.endCmd p c stOk (c.auxAt 3) (marked + flag maj.isNone 16 + (if marked.testBit own then 2 ^ 17 else 0))

/-- A DIGEST of partition p that waits for the digests of a step. -/
def State.voting (s : State) (p step : Nat) : Option Cmd :=
  (s.part p).cmds.find? (fun c => decide (c.opcode = 0x0E) && decide (c.phase = .running) && decide (c.auxAt 1 = 1) && decide (c.arg 13 = step))

/-- Decide the vote of a waiting DIGEST once all its digests are held. -/
def State.tryVote (s : State) (p : Nat) (c : Cmd) : State := if (s.received p c).all Option.isSome then s.decideVote p c else s

/-- A DIGEST message at a replica. -/
def State.runVote (s : State) (k : Packet) (p : Nat) : State :=
  let s := (s.putVote p k.sync2 k.src (wordsNum k.body 4 4)).endRequest k stOk 0 0 false
  match s.voting p k.sync2 with
  | some c => s.tryVote p c
  | none => s

/-! ### The epoch check of sync messages (R328, R340, R344) -/

/-- Carry out a sync message that R340 lets run. -/
def State.runSync (s : State) (k : Packet) (err : Fin 3) : State :=
  match s.comp k.comp with
  | none => s
  | some x =>
    if k.typ = syAdd ∨ k.typ = sySet then s.runSem k x.part err
    else if k.typ = syArrive then s.runArrive k x
    else if k.typ = syRelease then s.runRelease k x.part
    else if k.typ = syDigest then s.runVote k x.part
    else s

/-- R340's table for a sync message: run it, hold it, refuse it, or count a violation and answer OK with result 0. -/
def State.judgeSync (s : State) (k : Packet) (err : Fin 3) : State :=
  let access (p : Nat) : Bool := (decide (k.typ ≠ syAdd) && decide (k.typ ≠ sySet)) || s.semIn p (nfld k.sync2 17 0)
  match s.epochCheck k.comp k.epoch k.src access with
  | .stale => s.refuseStale k
  | .hold => s.modSync (fun y => { y with heldMsgs := y.heldMsgs ++ [(k.comp, k)] })
  | .violation => (s.violateMem (.peer k.src k.tc k.seq) true 0).endRequest k stOk 0 0 false
  | .run => s.runSync k err

/-- A sync message of the type goes through its window (R227, R250), then `f`. -/
def State.onSync (s : State) (k : Packet) (typ : Nat) (f : State → State) : State :=
  if k.isSync typ then (s.receive k).windowed k k.src k.seq f else s

/-! ### Commit (R339) -/

/-- Messages held for a composition are rechecked (R339, R340). -/
def State.recheckHeld (s : State) (c : Nat) : State :=
  let held := s.sync.heldMsgs.filter (fun e => decide (e.1 = c))
  let s := s.modSync (fun y => { y with heldMsgs := y.heldMsgs.filter (fun e => !decide (e.1 = c)) })
  held.foldl (fun s e => if e.2.proto = 1 then s.judge e.2 else s.judgeSync e.2 0) s

/-- Messages held for a composition are refused (R340, on ABORT). -/
def State.refuseHeld (s : State) (c : Nat) : State :=
  let held := s.sync.heldMsgs.filter (fun e => decide (e.1 = c))
  let s := s.modSync (fun y => { y with heldMsgs := y.heldMsgs.filter (fun e => !decide (e.1 = c)) })
  held.foldl (fun s e => s.refuseStale e.2) s

/-- Is a role epoch 2^30 or more older than an epoch (R336)? -/
def roleTooOld (re e : Nat) : Bool := decide (2 ^ 30 ≤ (e + 2 ^ 32 - re % 2 ^ 32) % 2 ^ 32)

/-- A node that has left forgets what it held of a composition at its barriers. -/
def State.forgetBarriers (s : State) (c : Nat) : State :=
  s.modSync (fun y => { y with barriers := Tbl.keep (fun k => !decide (k / 64 = c)) y.barriers, sides := Tbl.keep (fun k => !decide (k / 64 = c)) y.sides })

/-- A commit takes effect at this node (R333, R336, R339). -/
def State.commitComp (s : State) (c : Nat) (q : Prepared) : State :=
  let old := s.comp c
  let oldPart := match old with | some k => some k.part | none => none
  let own := memberAt q.list s.node
  let s := s.setPrepared c none
  let s := match own with
    | none =>
      let s := match oldPart with | some p => s.endGenerations c p true | none => s
      ((s.purgeComp c).setComp c none).forgetBarriers c
    | some m =>
      let re := match old with
        | some k =>
          if memberAt k.map s.node = some m then (if roleTooOld k.roleEpoch q.epoch then q.epoch else k.roleEpoch) else q.epoch
        | none => q.epoch
      let s := match old with
        | some k => if k.map = q.list then s else s.endGenerations c k.part (decide (k.map.map Member.node ≠ q.list.map Member.node))
        | none => s
      s.setComp c (some { part := m.part, epoch := q.epoch, roleEpoch := re, map := q.list, down := false })
  let now := match own with | some m => some m.part | none => none
  let parts := (oldPart.toList ++ now.toList).eraseDups
  let changed := decide (old.map (·.map) ≠ some q.list)
  let s := parts.foldl (fun s p =>
    let s := s.showComp p
    if changed then s.pcause p (Reg.PART_SYNC_IRQ_CAUSE p) 0x20 else s) s
  s.recheckHeld c

end Sys2Proof.Machine
end

