-- ==== Sys2Proof/Machine/Sync.lean ====
section
/-! DEFINITION. Semaphores and barriers (R323 to R333): SEM_SIGNAL, SEM_WAIT, what a wait sees, remote operations, BARRIER. -/

namespace Sys2Proof.Machine

/-- One presentation of a running command of an opcode of the SYNC queue. -/
def State.syncStep (s : State) (p chute seq opcode : Nat) (work : State → Cmd → State) : State :=
  match s.running p chute seq with
  | none => s
  | some c => if c.opcode = opcode then work s c else s

/-- Has the command sent its message? -/
def Cmd.sent (c : Cmd) : Bool := decide (c.auxAt 1 = 1)

/-- It has. -/
def State.markSent (s : State) (p : Nat) (c : Cmd) : State := s.setAux p c c.progress [c.auxAt 0, 1]

/-! ### Semaphores -/

/-- SEM_SIGNAL (R324 to R326, R328). One to a node that does not exist is a violation whose address shows 0, and the command ends OK (DEDUCED, log
entry 66). -/
def execSemSignal (p : Fin 32) (chute : Fin 64) (seq : Word) (err : Fin 3) (s : State) : Res :=
  act s fun s => s.syncStep p.val chute.val seq.toNat 0x0B fun s c =>
    let p := p.val
    let set := bitOf (BitVec.ofNat 32 (c.arg 8)) 30
    let node := nfld (c.arg 8) 29 18
    let i := nfld (c.arg 8) 17 0
    let v := c.arg64 9
    if c.sent then s
    else if nfld (c.arg 8) 31 31 = 1 ∧ node ≠ s.node then
      if !c.inComp then s.endCmd p c stStaleEpoch 0 0
      else if !s.nodeExists node then (s.violateMem (.unit p c.chute c.seq) true 0).endCmd p c stOk 0 0
      else (s.markSent p c).unitSend (syncReq node (if set then sySet else syAdd) c.compId c.compEpoch i p v p (.cmd p c.chute c.seq))
    else if !s.semIn p i then s.endCmd p c stReservation 0 0
    else
      let s := s.semFind p i err
      if set then
        match s.semSet p i v with
        | (s, prior) => s.endCmd p c stOk prior 0
      else match s.semAdd p i v with
        | (s, some new) => s.endCmd p c stOk new 0
        | (s, none) => s.endCmd p c stPoison 0 0

/-- A waiting SEM_WAIT or BARRIER stops at once (R60): its wait is over, its arrival stays recorded (R333). -/
def State.stopWaiting (s : State) (p : Nat) (c : Cmd) : State :=
  (s.endWait (.cmd p c.chute c.seq)).endCmd p c stAborted 0 0

/-- SEM_WAIT (R324, R325, R327): it begins to wait; what its hub observes comes in WAIT_SATISFIED. -/
def execSemWait (p : Fin 32) (chute : Fin 64) (seq : Word) (err : Fin 3) (s : State) : Res :=
  act s fun s => s.syncStep p.val chute.val seq.toNat 0x0C fun s c =>
    let p := p.val
    let i := nfld (c.arg 8) 17 0
    if c.mustStop then s.stopWaiting p c
    else if !s.semIn p i then s.endCmd p c stReservation 0 0
    else if (s.waitOf (.cmd p c.chute c.seq)).isSome then s
    else (s.semFind p i err).semWait (.cmd p c.chute c.seq) p i (c.arg64 9)

/-- WAIT_SATISFIED (R325, R327): a command completes with the value observed, or POISON_READ; an engine's step or a core goes on. -/
def execWaitSatisfied (w : SemWaiter) (s : State) : Res :=
  act s fun s =>
    match s.waitOf w with
    | none => s
    | some x =>
      match x.seen with
      | none => s
      | some v =>
        let s := if v.isSome then s.semEvent x.part x.sem 2 else s
        match w with
        | .me e => s.meWaitEnds e v
        | .core g => s.gcWaitEnds g v
        | .cmd p ch q =>
          let s := s.endWait w
          match v with
          | some n => s.finishRunning p ch q stOk n 0
          | none => s.finishRunning p ch q stPoison 0 0

/-- SEM_WAIT_TIMEOUT (R327): not satisfied within max_wait cycles of its start. -/
def execSemWaitTimeout (p : Fin 32) (chute : Fin 64) (seq : Word) (s : State) : Res :=
  act s fun s => s.syncStep p.val chute.val seq.toNat 0x0C fun s c =>
    let p := p.val
    let i := nfld (c.arg 8) 17 0
    let who := SemWaiter.cmd p c.chute c.seq
    let waiting : Bool := match s.waitOf who with
      | some x => x.seen.isNone
      | none => (observe (s.sem i) (c.arg64 9)).isNone
    if c.arg 11 ≠ 0 ∧ c.arg 11 < s.lcc - c.auxAt 0 ∧ s.semIn p i ∧ waiting then
      (s.endWait who).endCmd p c stDeadline (s.sem i).value 0
    else s

/-- SEM_VAL_WRITE (R6, R349): the high word completes the pair; SET on the selected semaphore. One outside the range is a violation. -/
def execSemValWrite (rq : Requester) (p : Fin 32) (v : Word) (err : Fin 3) (s : State) : Res :=
  act s fun s =>
    let p := p.val
    let a := Reg.PART_SEM_VAL_HI p
    s.access rq a (fun s =>
      let i := s.regF (Reg.PART_SEM_SEL p) 17 0
      if !s.semIn p i then s.violateReg rq true a
      else
        let s := s.semFind p i err
        let lo := match s.heldLow rq (a - 4) with
          | some w => w.toNat
          | none => if (s.sem i).poison then 0 else (s.sem i).value % 2 ^ 32
        ((s.setHeld rq (a - 4) none).semSet p i (lo + 2 ^ 32 * v.toNat)).1)

/-- SEM_ADD (R328, R340). -/
def execSemAdd (k : Packet) (err : Fin 3) (s : State) : Res := act s fun s => s.onSync k syAdd (fun s => s.judgeSync k err)

/-- SEM_SET (R328, R340). -/
def execSemSet (k : Packet) (err : Fin 3) (s : State) : Res := act s fun s => s.onSync k sySet (fun s => s.judgeSync k err)

/-! ### Barriers -/

/-- Is every write and atomic of partition p's units with a number below w acknowledged, and every Loft write below l complete (R181, R185)? -/
def State.partSettled (s : State) (p w l : Nat) : Bool :=
  let early (n : Nat) : Bool := decide (0 < n) && decide (n < w)
  !(s.fab.reqs.any (fun r => decide (r.part = some p) && early r.wid)) && !(s.fab.stalled.any (fun r => decide (r.part = some p) && early r.wid))
    && !((s.localOpen ++ s.homes.tagWait).any (fun r => r.byUnitOf p && early r.wid))
    && !(s.loft.reqs.any (fun r => r.write.isSome && decide (r.id < l) && (match r.who with | some (q, _, _) => decide (q = p) | none => false)))

/-- With scope_all set a command first waits until every write and atomic that the partition's units had issued when it came to this is acknowledged
(R185, R330); then `k`. -/
def State.afterScope (s : State) (p : Nat) (c : Cmd) (k : State → State) : State :=
  if nfld (c.arg 8) 0 0 = 0 then k s
  else
    let (w, l) := if c.auxAt 2 = 1 then (c.auxAt 3, c.auxAt 4) else (s.homes.nextWrite, s.loft.nextId)
    let s := s.setAux p c c.progress [c.auxAt 0, c.auxAt 1, 1, w, l]
    if s.partSettled p w l then k s else s

/-- Does an earlier BARRIER of the same number hold this one's arrival: transferred before it and not yet sent (R330)? -/
def State.earlierBarrier (s : State) (p : Nat) (c : Cmd) : Bool :=
  (s.part p).cmds.any (fun d => decide (d.kind = 0) && decide (d.opcode = 0x0D) && decide (d.compId = c.compId)
    && decide (nfld (d.arg 8) 31 26 = nfld (c.arg 8) 31 26) && decide (d.ord < c.ord) && decide (d.phase ≠ .ended) && !d.sent)

/-- BARRIER (R330, R333). -/
def execBarrier (p : Fin 32) (chute : Fin 64) (seq : Word) (s : State) : Res :=
  act s fun s => s.syncStep p.val chute.val seq.toNat 0x0D fun s c =>
    let p := p.val
    let b := nfld (c.arg 8) 31 26
    let mask := nfld (c.arg 8) 25 24
    if c.mustStop then s.stopWaiting p c
    else if c.sent then s
    else match s.comp c.compId with
      | none => s.endCmd p c stStaleEpoch 0 0
      | some k =>
        if !s.commandEpochOk p c.compId c.compEpoch || !(participants k.map mask).contains s.node then s.endCmd p c stStaleEpoch 0 0
        else s.afterScope p c fun s =>
        if (s.side (barKey c.compId b)).isSome ∨ s.earlierBarrier p c then s
        else
          let home := ((k.map)[b % k.map.length]?).map (·.node)
          let s := (s.markSent p c).setSide (barKey c.compId b) (some (c.chute, c.seq))
          s.unitSend (syncReq (home.getD s.node) syArrive c.compId c.compEpoch (b * 2 ^ 26) p mask p (.cmd p c.chute c.seq))

/-- BAR_ARRIVE (R331, R340). -/
def execBarArrive (k : Packet) (s : State) : Res := act s fun s => s.onSync k syArrive (fun s => s.judgeSync k 0)

/-- BAR_RELEASE (R331, R340). -/
def execBarRelease (k : Packet) (s : State) : Res := act s fun s => s.onSync k syRelease (fun s => s.judgeSync k 0)

end Sys2Proof.Machine
end

