-- ==== Sys2Proof/Machine/Maps.lean ====
section
/-! DEFINITION. Compositions (R334 to R343): proposing a change, agreeing on it, committing it, losing a member; and the SACKs that answer sync
messages (R344). -/

namespace Sys2Proof.Machine

/-- PROPOSE (R337, R349): go sends the proposal to the sequencer, or for a creation to the lowest node of the new list, which ends MALFORMED here
when it has none. -/
def execPropose (rq : Requester) (p : Fin 32) (v : Word) (s : State) : Res :=
  act s fun s =>
    let p := p.val
    let a := Reg.PART_COMP_PROP_CTRL p
    s.access rq a (fun s =>
      if bitOf (s.reg a) 31 then s
      else
        let here := s.compOf p
        let s := (s.store a v).setRegF a 31 31 1
        let n := s.regF a 12 0
        let base := s.reg64 (Reg.PART_COMP_PROP_BASE_LO p) % 2 ^ 40
        let epoch := s.regN (Reg.PART_COMP_PROP_EPOCH p)
        let ask (c node : Nat) : State := s.unitSend (syncReq node syPropose c epoch epoch n base p (.sync p))
        match here with
        | some (c, k) => ask c (sequencerOf k.map)
        | none =>
          if n = 0 then s.endProposal p prMalformed 0
          else ask (s.regF (Reg.PART_COMP_PROP_ID p) 15 0) (sequencerOf ((s.t1Words base n).map Member.ofWord)))

/-- PROPOSE_MSG (R337, R338): queued, or BUSY when eight stand in the queue. `list` is what reading the proposing partition's list gives
(log entry 20). -/
def execProposeMsg (k : Packet) (list : List Word) (s : State) : Res :=
  act s fun s => s.onSync k syPropose fun s =>
    let c := k.comp
    if 8 ≤ (s.sync.proposals.filter (fun (q : Proposal) => decide (q.comp = c))).length then s.endRequest k stOk prBusy 0 false
    else
      let n := nfld k.sync3 12 0
      let ws := (list.map (·.toNat)).take n
      let q : Proposal := { comp := c, req := k, epoch := k.sync2, list := ws.map Member.ofWord,
                            malformed := decide (4096 < n) || decide (ws.length < n) || !listOk ws, stage := .queued, due := [], refusal := none }
      (s.modSync (fun y => { y with proposals := y.proposals ++ [q] })).sequenced c

/-- The reason for which a node answers NO to a PREPARE; 0 none (R338). -/
def State.prepareReason (s : State) (c old : Nat) (list : List Member) : Nat :=
  let cur := s.comp c
  let own := memberAt list s.node
  let p := match own, cur with
    | some m, _ => m.part
    | none, some k => k.part
    | none, none => 0
  let joins := own.isSome && (match cur with | some k => decide (k.part ≠ p) | none => true)
  let other := match s.compOf p with
    | some (d, _) => decide (d ≠ c)
    | none => false
  if joins && decide (s.regF (Reg.RNG_COMP_ADMIT p) 15 0 ≠ c) then 1
  else if own.isSome && other then 2
  else if s.pstate p ≠ .active then 3
  else if (match cur with | some k => decide (k.epoch ≠ old) || k.down | none => false) then 5
  else if (s.preparedFor c).isSome then 6
  else 0

/-- PREPARE (R338): YES makes the node prepared; `list` is what reading the sequencer's list gives (log entry 20). -/
def execPrepare (k : Packet) (list : List Word) (s : State) : Res :=
  act s fun s => s.onSync k syPrepare fun s =>
    let c := k.comp
    let l := ((list.map (·.toNat)).take (nfld k.sync3 12 0)).map Member.ofWord
    let r := s.prepareReason c k.sync2 l
    if r ≠ 0 then s.endRequest k stOk (r * 256) 0 false
    else
      let p := match memberAt l s.node, s.comp c with
        | some m, _ => m.part
        | none, some x => x.part
        | none, none => 0
      let s := (s.setPrepared c (some { seqNode := k.src, epoch := k.epoch, list := l, part := p, since := s.lcc })).showComp p
      s.endRequest k stOk 1 0 false

/-- What the node is prepared for, if this sequencer decides it for this epoch. -/
def State.preparedBy (s : State) (c node epoch : Nat) : Option Prepared :=
  match s.preparedFor c with
  | some q => if q.seqNode = node ∧ q.epoch = epoch then some q else none
  | none => none

/-- ABORT takes effect (R338, R340). -/
def State.abortComp (s : State) (c : Nat) (q : Prepared) : State := ((s.setPrepared c none).showComp q.part).refuseHeld c

/-- COMMIT (R339): its SACK is the COMMITACK. -/
def execCommit (k : Packet) (s : State) : Res :=
  act s fun s => s.onSync k syCommit fun s =>
    let s := match s.preparedBy k.comp k.src k.epoch with
      | some q => s.commitComp k.comp q
      | none => s
    s.endRequest k stOk 0 0 false

/-- COMP_ABORT (R338, R340). -/
def execCompAbort (k : Packet) (s : State) : Res :=
  act s fun s => s.onSync k syAbort fun s =>
    let s := match s.preparedBy k.comp k.src k.epoch with
      | some q => s.abortComp k.comp q
      | none => s
    s.endRequest k stOk 0 0 false

/-- A PREPARE has been answered (R338). -/
def State.prepareAnswer (s : State) (c node word status : Nat) : State :=
  let no := if status ≠ stOk then some 5 else if word % 2 = 1 then none else some (nfld word 11 8)
  match s.proposal c with
  | none => s
  | some q =>
    if q.stage ≠ .preparing ∨ !q.due.contains node then s
    else
      (s.modProposal c (fun q => { q with due := q.due.erase node, refusal := q.refusal.orElse (fun _ => no.map (fun r => (node, r))) })).sequenced c

/-- A COMMITACK (R338). -/
def State.commitAck (s : State) (c node : Nat) : State :=
  match s.proposal c with
  | none => s
  | some q => if q.stage ≠ .committing then s else (s.modProposal c (fun q => { q with due := q.due.erase node })).sequenced c

/-- The sequencer has answered a QUERY (R339): the decision takes effect; with none yet the member waits again. -/
def State.queryAnswer (s : State) (c node epoch word : Nat) : State :=
  match s.preparedBy c node epoch with
  | none => s
  | some q =>
    if word % 4 = 1 then s.commitComp c q
    else if word % 4 = 2 then s.abortComp c q
    else s.setPrepared c (some { q with since := s.lcc })

/-- A BARRIER's arrival was refused (R333): nobody here waits on that number any more. -/
def State.arrivalRefused (s : State) (r : OutReq) (w : Waiter) : State :=
  let key := barKey r.pkt.comp (nfld r.pkt.sync2 31 26)
  match w with
  | .cmd p ch q => (if s.side key = some (ch, q) then s.setSide key none else s).finishRunning p ch q stStaleEpoch 0 0
  | _ => s

/-- SACK (R344): what it ends depends on the message it answers. -/
def execSack (k : Packet) (s : State) : Res :=
  act s fun s =>
    if k.proto ≠ 2 ∨ k.typ ≠ syAck then s
    else
      let s := s.receive k
      match s.awaiting k 5 with
      | none => s
      | some r =>
        let s := (s.complete r).settleStalled
        let status := nfld (wordAt k.body 0) 15 8
        let v := pairAt k.body 4
        let w := wordAt k.body 4
        let c := r.pkt.comp
        let t := r.pkt.typ
        if t = syAdd ∨ t = sySet then
          match r.waiter with
          | .cmd p ch q => s.finishRunning p ch q status (if status = stOk then v else 0) 0
          | _ => s
        else if t = syArrive then (if status = stOk then s else s.arrivalRefused r r.waiter)
        else if t = syDigest then
          match r.waiter with
          | .cmd p ch q => if status = stOk then s else if (s.running p ch q).isSome then s.failCmd p ch q status else s
          | _ => s
        else if t = syPropose then
          match r.waiter with
          | .sync p =>
            if status ≠ stOk then s.endProposal p prDown 0
            else
              let res := nfld w 3 0
              s.endProposal p res (if res = prRefused then 2 ^ 31 + nfld w 11 8 * 2 ^ 24 + nfld w 27 16 else 0)
          | _ => s
        else if t = syPrepare then s.prepareAnswer c k.src w status
        else if t = syCommit then s.commitAck c k.src
        else if t = syQuery then s.queryAnswer c k.src r.pkt.epoch w
        else s

/-- COMP_TIMEOUT (R339, R348). -/
def execCompTimeout (c : Fin 65536) (s : State) : Res :=
  act s fun s =>
    match s.preparedFor c.val with
    | none => s
    | some q =>
      if s.lcc - q.since ≤ max 1 (s.regN Reg.RNG_COMP_TIMEOUT) then s
      else
        (s.setPrepared c.val (some { q with since := s.lcc })).unitSend
          (syncReq q.seqNode syQuery c.val q.epoch 0 q.part 0 q.part (.sync q.part))

/-- QUERY (R339): word 4 of the answer is 0 none yet, 1 COMMIT, 2 ABORT (log entry 21). -/
def execQuery (k : Packet) (s : State) : Res :=
  act s fun s => s.onSync k syQuery fun s =>
    let d := Tbl.get (fun _ => (0, false)) s.sync.lastDecision k.comp
    s.endRequest k stOk (if d.1 = k.epoch ∧ d.1 ≠ 0 then (if d.2 then 1 else 2) else 0) 0 false

/-- DOWN (R342). -/
def execDown (k : Packet) (s : State) : Res :=
  act s fun s => s.onSync k syDown fun s => (s.markDown k.comp (wordAt k.body 4 % 4096)).endRequest k stOk 0 0 false

/-- A partition's composition that is down is cleared from it (R342, at partition reset). -/
def State.clearDown (s : State) (p : Nat) : State :=
  match s.compOf p with
  | some (c, k) => if k.down then ((s.setComp c none).forgetBarriers c).showComp p else s
  | none => s

end Sys2Proof.Machine
end

