-- ==== Sys2Proof/Machine/Digest.lean ====
section
/-! DEFINITION. DIGEST (R345 to R347): the digest of regions and the vote of replicas. -/

namespace Sys2Proof.Machine

/-! ### The field (R346) -/

/-- Multiply by x modulo x^128 + x^7 + x^2 + x + 1. -/
def digestDouble (a : Nat) : Nat := if a / 2 ^ 127 % 2 = 1 then (2 * a % 2 ^ 128) ^^^ 0x87 else 2 * a % 2 ^ 128

/-- The product of two elements, from the n low bits of the second upward. -/
def digestMulFrom : Nat → Nat → Nat → Nat
  | 0, _, _ => 0
  | n + 1, a, b => (if b % 2 = 1 then a else 0) ^^^ digestMulFrom n (digestDouble a) (b / 2)

/-- The product of two elements of GF(2^128). -/
def digestMul (a b : Nat) : Nat := digestMulFrom 128 a b

/-- Digest n 16-byte words of a number into d with the key h. -/
def digestWords (h : Nat) : Nat → Nat → Nat → Nat
  | 0, d, _ => d
  | n + 1, d, v => digestWords h n (digestMul (d ^^^ (v % 2 ^ 128)) h) (v / 2 ^ 128)

/-- The digest's end: the length. -/
def digestEnd (h d total : Nat) : Nat := digestMul (d ^^^ (total % 2 ^ 128)) h

/-! ### Operands (R345) -/

/-- Does the command vote? -/
def Cmd.votes (c : Cmd) : Bool := decide (nfld (c.arg 8) 31 31 = 1)

/-- Entries of its region list. -/
def Cmd.regionCount (c : Cmd) : Nat := nfld (c.arg 8) 15 0

/-- The lists it reads while it waits: the regions, and the replicas of a vote. -/
def Cmd.digestLists (c : Cmd) : List (Nat × Nat) :=
  if c.regionCount = 0 then [] else (c.arg64 9, 16 * c.regionCount) :: (if c.votes then [(c.voteVa, 32)] else [])

/-- The regions: virtual address and length. -/
def Cmd.regions (c : Cmd) : List (Nat × Nat) :=
  (List.range c.regionCount).map (fun i => (pairAt (c.inputs.headD []) (4 * i), pairAt (c.inputs.headD []) (4 * i + 2)))

/-- Its 4 KiB segments in order: address and length. -/
def Cmd.digestSegs (c : Cmd) : List (Nat × Nat) :=
  c.regions.flatMap (fun r => (List.range ((r.2 + 4095) / 4096)).map (fun i => (r.1 + 4096 * i, min 4096 (r.2 - 4096 * i))))

/-- The named addresses of a DIGEST (R170), in the order it uses them: its lists, the segments, and where the result goes. -/
def Cmd.digestNamed (c : Cmd) : List Named :=
  let lists := c.digestLists
  if lists.isEmpty then []
  else
    lists.mapIdx (fun i x => (⟨x.1, x.2, acRead, if i = 0 then 1 else 0, 0, 0⟩ : Named))
    ++ (if lists.length ≤ c.inputs.length then c.digestSegs.mapIdx (fun i x => (⟨x.1, x.2, acRead, 2, 0, i⟩ : Named)) else [])
    ++ [⟨c.voteVa + 64, if c.votes then 64 + 16 * c.replicas else 32, acWrite, 0, 0, 0⟩]

/-- The key H of partition p. -/
def State.digestKey (s : State) (p : Nat) : Nat :=
  (List.range 4).foldr (fun i a => s.regN (Reg.PART_DIG_KEY p i) + 2 ^ 32 * a) 0

/-- Its checks before anything is digested: a key, two replicas or more of which this node is one, regions, and aligned operands. -/
def State.digestOk (s : State) (p : Nat) (c : Cmd) : Bool :=
  decide (s.digestKey p ≠ 0) && decide (c.regionCount ≠ 0) && decide (c.voteVa % 64 = 0) && c.regions.all (fun r => decide (r.2 % 64 = 0))
    && (!c.votes || (decide (2 ≤ c.replicas) && c.replicaNodes.contains s.node))

/-! ### The command -/

/-- The digest is done (R346, R347): written alone, or, with a vote, sent to every other replica. Working values: digest, stage, since, bytes,
key. -/
def State.digestDone (s : State) (p : Nat) (c : Cmd) : State :=
  let d := digestEnd (c.auxAt 4) (c.auxAt 0) (c.auxAt 3)
  if !c.votes then
    let s := match c.range (c.voteVa + 80) 16 acWrite with
      | some x => s.storeAll (c.agent p) d false x
      | none => s
    s.endCmd p c stOk (c.auxAt 3) 0
  else
    let own := c.replicaNodes.findIdx (fun m => decide (m = s.node))
    let s := s.setAux p c c.progress [d, 1, s.lcc, c.auxAt 3, c.auxAt 4]
    let s := (c.replicaNodes.filter (fun n => decide (n ≠ s.node))).foldl (fun s n =>
      if (s.running p c.chute c.seq).isNone then s
      else s.unitSend (syncReq n syDigest c.compId c.compEpoch (c.arg 13) (own * 2 ^ 16 + p) d p (.cmd p c.chute c.seq))) s
    match s.running p c.chute c.seq with
    | some c => s.tryVote p c
    | none => s

/-- DIGEST (R345 to R347): the first time its checks, then one 4 KiB segment each time it is presented, then the vote. -/
def execDigest (p : Fin 32) (chute : Fin 64) (seq : Word) (s : State) : Res :=
  act s fun s =>
    let p := p.val
    match s.running p chute.val seq.toNat with
    | none => s
    | some c =>
      if c.opcode ≠ 0x0E then s
      else if c.mustStop then s.endCmd p c stAborted (c.auxAt 3) 0
      else if c.aux.isEmpty then
        if c.votes && !c.inComp then s.endCmd p c stStaleEpoch 0 0
        else if !s.digestOk p c then s.endCmd p c stUnsupported 0 0
        else s.setAux p c 0 [0, 0, 0, 0, s.digestKey p]
      else if c.auxAt 1 = 1 then s
      else match c.digestSegs[c.progress]? with
        | none => match c.range (c.voteVa + 64) (if c.votes then 64 + 16 * c.replicas else 32) acWrite with
          | some _ => s.digestDone p c
          | none => s
        | some (va, n) => match c.range va n acRead with
          | none => s
          | some x => s.whenReady (c.agent p) false x fun s =>
            let (g, s) := s.fetchAll (c.agent p) false x
            if g.status ≠ 0 then s.endCmd p c g.status (c.auxAt 3) 0
            else if g.poison then s.endCmd p c stPoison (c.auxAt 3) 0
            else s.setAux p c (c.progress + 1) [digestWords (c.auxAt 4) (n / 16) (c.auxAt 0) g.value, 0, 0, c.auxAt 3 + n, c.auxAt 4]

/-- DIGEST_VOTE (R340, R347). -/
def execDigestVote (k : Packet) (s : State) : Res := act s fun s => s.onSync k syDigest (fun s => s.judgeSync k 0)

/-- DIG_WAIT_EXPIRE (R347): the vote is decided from what has come. -/
def execDigWaitExpire (p : Fin 32) (chute : Fin 64) (seq : Word) (s : State) : Res :=
  act s fun s =>
    let p := p.val
    match s.running p chute.val seq.toNat with
    | none => s
    | some c =>
      if c.opcode = 0x0E ∧ c.auxAt 1 = 1 ∧ max 1 (s.regN (Reg.PART_DIG_WAIT p)) < s.lcc - c.auxAt 2 then s.decideVote p c else s

end Sys2Proof.Machine
end

