-- ==== Sys2Proof/Machine/GcExec.lean ====
section
/-! DEFINITION. The rows of the general cores (R103 to R121). -/

namespace Sys2Proof.Machine

/-- GC_RUN (R103, R104): the core invalidates its L1I and, if asked, its L1D, writing dirty lines back first, and begins at the entry with
every register but a0, a1 and sp zero; no label of a gc.tag is carried over. A dirty line with an uncorrectable error that the write-back finds ends
the command before its first instruction, with the entry as pc (DEDUCED, log entry 47). -/
def execGcRun (p : Fin 32) (chute : Fin 64) (seq : Word) (s : State) : Res :=
  act s fun s =>
    match s.cmd p.val chute.val seq.toNat with
    | none => s
    | some c =>
      let p := p.val
      let g := c.runUnit
      if c.opcode ≠ 0x03 ∨ c.phase ≠ .running ∨ !c.aux.isEmpty then s
      else if c.mustStop then s.endCmd p c stAborted 0 0
      else if c.arg64 8 % 2 = 1 then s.endCmd p c stUnsupported 0 0
      else
        let inv := decide (c.arg 14 % 2 = 1)
        let begin_ (s : State) : State :=
          let s := s.modScaler (g / 16) (fun y => { y with tags := Tbl.set (fun _ => none) y.tags (g % 16) none })
          ((s.modCore g (fun x =>
            ((({ Core.reset with l1d := if inv then [] else x.l1d, pc := c.arg64 8 }.setX 10 (c.arg64 10)).setX 11 g).setX 2 (c.arg64 12)))).forgetArrivals
              (.core g)).setAux p c 0 [1]
        if inv && (s.core g).l1d.any (fun d => d.dirty && decide (d.err = 2)) then
          (s.cleanLines p c g (fun _ => true) false).endCmd p c stPoison (c.arg64 8) 0x80
        else if inv then
          let s := s.cleanLines p c g (fun _ => true) false
          if s.unacked p c = 0 then begin_ s else s
        else begin_ s

/-- GC_RUN_END (R59, R105, R109): a run that is to end, or must stop at this boundary, first releases; then its command completes. -/
def execGcRunEnd (g : Fin 64) (s : State) : Res :=
  act s fun s =>
    let g := g.val
    match s.gcRun g with
    | none => s
    | some (p, c) =>
      let s := if c.mustStop && (s.core g).ending.isNone && !s.midInstr p c g then s.gcAbort p c g else s
      if (s.core g).ending.isNone then s
      else
        let s := s.cleanLines p c g (fun _ => true) false
        match (s.core g).ending with
        | none => s
        | some (st, result, detail) =>
        if s.unacked p c ≠ 0 then s
        else
          let s := (((s.endFaultsOf p c).endWait (.core g)).forgetArrivals (.core g)).dropCoreResv g
          let s := if c.auxAt 1 = 1 then s else s.setRegN (Reg.GC_LAST_TRAP g) (2 ^ 31 + detail % 256)
          (s.modCore g (fun x => { x with instr := none, ending := none })).endCmd p c st result detail

/-- ECALL (R105): with a7 zero the run ends with a status from a2; else UNSUPPORTED_FORMAT, cause 8. -/
def execEcall (g : Fin 64) (s : State) : Res :=
  act s fun s => s.gcInstr g.val .ecall fun p c _ s =>
    let x := s.core g.val
    if x.xr 17 ≠ 0 then s.gcEnd g.val stUnsupported 8
    else
      let st := x.xr 12 % 256
      (s.setAux p c 0 [1, 1]).endRun g.val (if st = stOk ∨ st = stFewer ∨ st = stEscalated then st else stUnsupported) (x.xr 10)
        (x.xr 11 % 2 ^ 24)

/-- EBREAK (R105): cause 3. -/
def execEbreak (g : Fin 64) (s : State) : Res :=
  act s fun s => s.gcInstr g.val .ebreak fun _ _ _ s => s.gcEnd g.val stUnsupported 3

/-- ILLEGAL_INSTRUCTION (R105, R111): cause 2. -/
def execIllegalInstruction (g : Fin 64) (s : State) : Res :=
  act s fun s => s.gcInstr g.val .illegal fun _ _ _ s => s.gcEnd g.val stUnsupported 2

/-- Is a load or store a vector one? -/
def isVectorMem (w : Nat) : Bool := (decide (iOp w = 0x07) || decide (iOp w = 0x27)) && !(decide (iF3 w = 2) || decide (iF3 w = 3))

/-- One access of a load or store is done: after the last the instruction retires. -/
def State.accessDone (s : State) (p g w last va : Nat) : State :=
  let s := s.modCore g (fun x => { x with elem := x.elem + 1 })
  if last ≤ (s.core g).elem then (if isVectorMem w then s.modCore g (fun x => { x with vstart := 0 }) else s).retire p g va else s

/-- The line of an access stands in the L1D with an uncorrectable error: what the access finds (R105, R121). -/
def State.l1dError (s : State) (g va : Nat) : State :=
  s.modCore g (fun x => { x with l1d := x.l1d.map (fun d => if d.vas.contains (va / 64 * 64) then { d with err := 2 } else d) })

/-- A load is done with one of its accesses; after the last, agnostic elements of a vector load take their values. -/
def State.loadDone (s : State) (p g w last va : Nat) : State :=
  if isVectorMem w && decide (last ≤ (s.core g).elem + 1) then
    let (ag, s) := s.drawMany 8
    (s.modCore g (fun x => x.loadAgnostic w ag)).accessDone p g w last va
  else s.accessDone p g w last va

/-- Is a load one that stops without a fault at any element but its first (fault-only-first)? -/
def isFirstOnly (w : Nat) : Bool := isVectorMem w && decide (nfld w 27 26 = 0) && decide (iRs2 w = 16)

/-- Does some part of an access have no translation that grants a read? -/
def State.readFaults (s : State) (p g va n : Nat) : Bool :=
  (lineParts va n).any (fun x => match (s.translate (g / 16) p x.1 acRead false).1 with | .fault .. => true | _ => false)

/-- GC_LOAD (R107, R171): one access of an ordinary load through the L1D; a vector load takes one element at a time, and a fault-only-first one
ends with the elements before one that faults. `ue` says that the line of the access has an uncorrectable error in the L1D. -/
def execGcLoad (g : Fin 64) (ue : Bool) (s : State) : Res :=
  act s fun s => s.gcInstr g.val .load fun p c w s =>
    let g := g.val
    match (s.core g).loads w with
    | none => s
    | some l =>
      match l[(s.core g).elem]? with
      | none => s.loadDone p g w 0 0
      | some a =>
        if isFirstOnly w && decide (0 < a.el) && s.readFaults p g a.va a.n then
          (s.modCore g (fun x => { x with vl := a.el })).loadDone p g w 0 a.va
        else
          (if ue then s.l1dError g a.va else s).coreRead p c g a.va a.n (fun v s =>
            (s.modCore g (fun x => x.putLoaded a v)).loadDone p g w l.length a.va)

/-- GC_STORE (R107, R171): one access of an ordinary store into the L1D, allocating the line. -/
def execGcStore (g : Fin 64) (ue : Bool) (s : State) : Res :=
  act s fun s => s.gcInstr g.val .store fun p c w s =>
    let g := g.val
    match (s.core g).stores w with
    | none => s
    | some l =>
      match l[(s.core g).elem]? with
      | none => s.accessDone p g w 0 0
      | some a =>
        (if ue then s.l1dError g a.va else s).coreWrite p c g a.va a.n ((s.core g).toStore a) (fun s => s.accessDone p g w l.length a.va)

/-- GC_INSTRUCTION_FETCH (R106): the core fetches its next instruction; one that no row of the table names is carried out at once. `ue` says
that the line stands with an error in the L1I, and is refetched; `upset` is an upset of a line of the L1D that has come since the last fetch and that
whatever reads the line next finds, be it a load, a store, a gc.kmrg, a write-back, an atomic or a release (R105). -/
def execGcInstructionFetch (g : Fin 64) (ue : Bool) (s : State) (upset : Option Upset := none) : Res :=
  act s fun s => s.gcStep g.val fun p c s =>
    let g := g.val
    if (s.core g).instr.isSome then s
    else
      let s := s.l1dStrike g upset
      let s := if ue && !(s.core g).l1i.isEmpty then (s.modCore g (fun x => { x with l1i := [] })).l1Fixed g else s
      s.fetchInstr p c g (fun w len s =>
        let x := s.core g
        let s := s.modCore g (fun x => { x with instr := some (w, len), elem := 0 })
        if x.row s.lcc len w ≠ .plain then s
        else
          let (ag, s) := if iOp w = 0x57 then s.drawMany 8 else (0, s)
          match x.plain s.lcc len w ag with
          | none => s
          | some (y, o) => ((s.modCore g (fun _ => { y with instr := some (w, len) })).fillOpen g o).retireAt p g x.pc y.pc 0)

/-- FENCE (R109): the model makes a core's accesses in program order, so it only retires. -/
def execFence (g : Fin 64) (s : State) : Res :=
  act s fun s => s.gcInstr g.val .fence fun p _ _ s => s.retire p g.val 0

/-- FENCE.I (R109): the L1I is invalidated. -/
def execFenceI (g : Fin 64) (s : State) : Res :=
  act s fun s => s.gcInstr g.val .fenceI fun p _ _ s => (s.modCore g.val (fun x => { x with l1i := [] })).retire p g.val 0

/-- AMOADD.W/D (R110, R238). -/
def execAmoadd (g : Fin 64) (s : State) : Res := act s fun s => s.amo g.val .amoadd 0x01 0x02 true
/-- AMOMIN.W/D. -/
def execAmomin (g : Fin 64) (s : State) : Res := act s fun s => s.amo g.val .amomin 0x03 0x04 true
/-- AMOMAX.W/D. -/
def execAmomax (g : Fin 64) (s : State) : Res := act s fun s => s.amo g.val .amomax 0x05 0x06 true
/-- AMOMINU.W/D. -/
def execAmominu (g : Fin 64) (s : State) : Res := act s fun s => s.amo g.val .amominu 0x07 0x08 true
/-- AMOMAXU.W/D. -/
def execAmomaxu (g : Fin 64) (s : State) : Res := act s fun s => s.amo g.val .amomaxu 0x09 0x0A true
/-- AMOSWAP.W/D (R110): remote T1 is an access fault. -/
def execAmoswap (g : Fin 64) (s : State) : Res := act s fun s => s.amo g.val .amoswap 0x20 0x30 false
/-- AMOAND.W/D. -/
def execAmoand (g : Fin 64) (s : State) : Res := act s fun s => s.amo g.val .amoand 0x21 0x31 false
/-- AMOOR.W/D. -/
def execAmoor (g : Fin 64) (s : State) : Res := act s fun s => s.amo g.val .amoor 0x22 0x32 false
/-- AMOXOR.W/D. -/
def execAmoxor (g : Fin 64) (s : State) : Res := act s fun s => s.amo g.val .amoxor 0x23 0x33 false

/-- LR.W/D (R110): reads at the home; a line of this node the partition may touch is reserved for the core. -/
def execLr (g : Fin 64) (s : State) : Res :=
  act s fun s => s.gcInstr g.val .lr fun p c w s =>
    let g := g.val
    let va := (s.core g).xr (iRs1 w)
    let n := if iF3 w = 3 then 8 else 4
    if va % n ≠ 0 then s.gcEnd g stUnsupported 4
    else
      let go (s : State) : State :=
        match s.issue p c (g / 16) va acRead (s.core g).retired with
        | .stop s => s
        | .ok phys _ s =>
          let a := phys / 64 * 64
          let ag := c.coreAgent p g
          (s.cleanLines p c g (fun d => decide (d.addr = a)) true).unlessEnding g fun s =>
          if s.lineBusy a then s
          else s.whenReady ag false [(a, 64)] (fun s =>
            let (y, s) := s.fetch ag false phys n
            if y.status ≠ 0 then s.gcEnd g y.status 0
            else if y.poison then s.gcEnd g stPoison 5
            else
              let s := s.dropCoreResv g
              let s := if !s.isRemote a && s.mayTouch p a then { s with resv := (g, a) :: s.resv } else s
              (s.modCore g (fun x => x.setX (iRd w) (if n = 8 then y.value else sext 32 y.value))).retire p g va)
      if amoRl w then s.coreRelease p c g go else go s

/-- SC.W/D (R110): writes if the home still holds the core's reservation of the line; for remote T1 it always fails. -/
def execSc (g : Fin 64) (s : State) : Res :=
  act s fun s => s.gcInstr g.val .sc fun p c w s =>
    let g := g.val
    let va := (s.core g).xr (iRs1 w)
    let n := if iF3 w = 3 then 8 else 4
    let done (v : Nat) (s : State) : State := ((s.dropCoreResv g).modCore g (fun x => x.setX (iRd w) v)).retire p g va
    if va % n ≠ 0 then s.gcEnd g stUnsupported 6
    else
      let go (s : State) : State :=
        match s.issue p c (g / 16) va acAtomic (s.core g).retired with
        | .stop s => s
        | .ok phys _ s =>
          (s.cleanLines p c g (fun d => decide (d.addr = phys / 64 * 64)) true).unlessEnding g fun s =>
          if s.isRemote phys || !s.resv.contains (g, phys / 64 * 64) then done 1 s
          else s.atomicHome p c g phys (if n = 8 then 0x30 else 0x20) ((s.core g).xr (iRs2 w) % 2 ^ (8 * n)) 0 (fun _ s => done 0 s)
      if amoRl w then s.coreRelease p c g go else go s

/-- gc.bxw (R113). -/
def execGcBxw (g : Fin 64) (s : State) : Res :=
  act s fun s => s.gcInstr g.val .bxw fun p _ w s => (s.modCore g.val (fun x => x.bxw w)).retire p g.val 0

/-- gc.bxc (R114). -/
def execGcBxc (g : Fin 64) (s : State) : Res :=
  act s fun s => s.gcInstr g.val .bxc fun p _ w s => (s.modCore g.val (fun x => x.bxc w)).retire p g.val 0

/-- gc.dq (R115): invalid codes are counted. -/
def execGcDq (g : Fin 64) (s : State) : Res :=
  act s fun s => s.gcInstr g.val .dq fun p _ w s =>
    let (x, bad) := (s.core g.val).dq w
    ((s.modCore g.val (fun _ => x)).count (Reg.GC_INVALID_CODES g.val) bad).retire p g.val 0

/-! ### gc.kmrg (R118 to R120) -/

/-- A stream of a merge: base, source rank, length, elements consumed, and the last element consumed if it is known. -/
structure MStream where
  base : Nat
  src : Nat
  len : Nat
  used : Nat
  last : Option (Nat × Nat)
  deriving DecidableEq, Repr

/-- The fields of a merge context that a gc.kmrg works with. -/
structure MCtx where
  addr : Nat
  dedup : Bool
  wide : Bool
  desc : Bool
  ty : Nat
  n : Nat
  limit : Nat
  count : Nat
  out : Nat
  words : List Nat
  deriving DecidableEq, Repr

/-- The context from its header words. -/
def MCtx.ofWords (addr : Nat) (h : List Nat) : MCtx :=
  let w := wordAt h 0
  { addr := addr, dedup := decide (nfld w 12 12 = 1), wide := decide (nfld w 11 11 = 1), desc := decide (nfld w 10 10 = 1), ty := nfld w 9 8,
    n := nfld w 4 0, limit := nfld (wordAt h 1) 12 0, count := nfld (wordAt h 2) 12 0, out := pairAt h 4, words := h }

/-- Does R118 let it run, but for its streams? -/
def MCtx.ok (m : MCtx) : Bool :=
  decide (1 ≤ m.n) && decide (m.n ≤ 16) && decide (m.ty ≠ 3) && decide (1 ≤ m.limit) && decide (m.limit ≤ 4096)

/-- Bytes of an element. -/
def MCtx.size (m : MCtx) : Nat := if m.wide then 16 else 8
/-- Key and index of an element's bytes. -/
def MCtx.elem (m : MCtx) (v : Nat) : Nat × Nat := (v % 2 ^ 32, if m.wide then v / 2 ^ 64 % 2 ^ 64 else v / 2 ^ 32 % 2 ^ 32)
/-- The bytes of an element. -/
def MCtx.bytes (m : MCtx) (e : Nat × Nat) : Nat := e.1 + (if m.wide then e.2 * 2 ^ 64 else e.2 * 2 ^ 32)

/-- The little-endian words of a number. -/
def wordsOf (v n : Nat) : List Nat := (List.range n).map (fun i => v / 2 ^ (32 * i) % 2 ^ 32)

/-- A stream from its entry words. -/
def MStream.ofWords (e : List Nat) : MStream :=
  ⟨pairAt e 0, nfld (wordAt e 2) 31 24, nfld (wordAt e 2) 23 0, nfld (wordAt e 3) 23 0, none⟩

/-- Read the heads of the streams from number i on: (stream number, head). -/
def State.mergeHeads (s : State) (p : Nat) (c : Cmd) (g : Nat) (m : MCtx) : Nat → List MStream → (List (Nat × MStream × (Nat × Nat)) → State → State) → State
  | _, [], k => k [] s
  | i, x :: t, k =>
    if x.len ≤ x.used then s.mergeHeads p c g m (i + 1) t k
    else s.coreRead p c g ((x.base + x.used * m.size) % 2 ^ 64) m.size (fun v s =>
      s.mergeHeads p c g m (i + 1) t (fun l s => k ((i, x, m.elem v) :: l) s))

/-- The head to take next: the one that orders first, then the lower source, then the lower stream (R119). -/
def bestHead (m : MCtx) : List (Nat × MStream × (Nat × Nat)) → Option (Nat × MStream × (Nat × Nat))
  | [] => none
  | h :: t =>
    match bestHead m t with
    | none => some h
    | some b =>
      if keyBefore m.ty m.desc b.2.2 h.2.2 then some b
      else if keyBefore m.ty m.desc h.2.2 b.2.2 then some h
      else if b.2.1.src < h.2.1.src then some b else some h

/-- The element of a stream consumed before its head, read where this execution has not just taken it. -/
def State.mergePrev (s : State) (p : Nat) (c : Cmd) (g : Nat) (m : MCtx) (x : MStream) (k : Option (Nat × Nat) → State → State) : State :=
  match x.last with
  | some e => k (some e) s
  | none =>
    if x.used = 0 then k none s
    else s.coreRead p c g ((x.base + (x.used - 1) * m.size) % 2 ^ 64) m.size (fun v s => k (some (m.elem v)) s)

/-- Emit elements until 16 are out, the limit is reached or every stream is exhausted (R119): `k` takes the streams, the indices
emitted, the elements emitted now and the heads found out of order. -/
def mergeLoop (p : Nat) (c : Cmd) (g : Nat) (m : MCtx) (k : List MStream → List Nat → Nat → Nat → State → State) :
    Nat → List MStream → List Nat → Nat → Nat → State → State
  | 0, xs, out, n, bad, s => k xs out n bad s
  | fuel + 1, xs, out, n, bad, s =>
    if n = 16 ∨ m.limit ≤ m.count + n then k xs out n bad s
    else s.mergeHeads p c g m 0 xs (fun heads s =>
      match bestHead m heads with
      | none => k xs out n bad s
      | some (i, x, e) => s.mergePrev p c g m x (fun prev s =>
          let bad := match prev with
            | some q => if keyBefore m.ty m.desc e q then bad + 1 else bad
            | none => bad
          let xs := xs.set i { x with used := x.used + 1, last := some e }
          if m.dedup && out.contains e.2 then mergeLoop p c g m k fuel xs out n bad s
          else s.coreWrite p c g ((m.out + (m.count + n) * m.size) % 2 ^ 64) m.size (m.bytes e) (fun s =>
            mergeLoop p c g m k fuel xs (e.2 :: out) (n + 1) bad s)))

/-- The indices already emitted at out_addr (R120). -/
def State.mergeRebuild (s : State) (p : Nat) (c : Cmd) (g : Nat) (m : MCtx) : Nat → (List Nat → State → State) → State
  | 0, k => k [] s
  | n + 1, k => s.coreRead p c g ((m.out + n * m.size) % 2 ^ 64) m.size (fun v s =>
      s.mergeRebuild p c g m n (fun l s => k ((m.elem v).2 :: l) s))

/-- A number with bits hi to lo replaced. -/
def putBits (v hi lo x : Nat) : Nat := v - v / 2 ^ lo % 2 ^ (hi - lo + 1) * 2 ^ lo + x % 2 ^ (hi - lo + 1) * 2 ^ lo

/-- A context, as one number, with out_count and the consumed counts of its streams (R118). -/
def mergeContext (v count : Nat) (xs : List MStream) : Nat :=
  (xs.foldl (fun (acc : Nat × Nat) x => (putBits acc.1 (512 + 128 * acc.2 + 119) (512 + 128 * acc.2 + 96) x.used, acc.2 + 1)) (putBits v 76 64 count, 0)).1

/-- GC_KMRG (R118 to R120). A line that is not there yet makes the core wait, and the merge then starts again at the context; what it has
already written lies at or beyond out_count. The context is written last and as a whole, once every page and line of it is there, so that a stall
leaves the counts of the last gc.kmrg completed; an abort waits until the instruction has ended, unless it is stalled at a fault. -/
def execGcKmrg (g : Fin 64) (s : State) : Res :=
  act s fun s => s.gcInstr g.val .kmrg fun p c w s =>
    let g := g.val
    let s := s.modCore g (fun x => { x with elem := 1 })
    let addr := (s.core g).xr (iRs1 w)
    let bad (s : State) : State := let (v, s) := s.draw; s.gcEnd g stUnsupported (v % 2 ^ 24)
    s.coreRead p c g addr 64 (fun h s =>
      let m := MCtx.ofWords addr (wordsOf h 16)
      if !m.ok then bad s
      else s.coreRead p c g addr (64 + 16 * m.n) (fun v s =>
        let es := (List.range m.n).map (fun i => wordsOf (v / 2 ^ (512 + 128 * i)) 4)
        let xs := es.map MStream.ofWords
        if xs.any (fun x => decide (x.len < x.used)) then bad s
        else
          let go (out : List Nat) (s : State) : State :=
            mergeLoop p c g m (fun xs out n dis s =>
              s.coreRead p c g addr (64 + 16 * m.n) (fun v s =>
                s.coreWrite p c g addr (64 + 16 * m.n) (mergeContext v (m.count + n) xs) (fun s =>
                  (((s.modCore g (fun x => { x with merge := ⟨some addr, m.count + n, out⟩ })).modCore g (fun x => x.setX (iRd w) n)).count
                    (Reg.GC_MRG_DISORDER g) dis).retire p g addr)))
              ((xs.map (fun x => x.len - x.used)).sum + 1) xs out 0 0 s
          let u := (s.core g).merge
          if u.ctx = some addr ∧ u.count = m.count then go u.indices s
          else s.mergeRebuild p c g m m.count go))

/-! ### Semaphores, cache operations, tags -/

/-- gc.semsig (R109, R116): releases, then adds. -/
def execGcSemsig (g : Fin 64) (err : Fin 3) (s : State) : Res :=
  act s fun s => s.gcInstr g.val .semsig fun p c w s =>
    let g := g.val
    let x := s.core g
    let i := x.xr (iRs1 w)
    if !s.semIn p i then s.gcEnd g stReservation 0
    else s.coreRelease p c g (fun s =>
      ((s.semFind p i err).semAdd p i (x.xr (iRs2 w))).1.retire p g 0)

/-- gc.semwait (R116): the core begins to wait; WAIT_SATISFIED ends the instruction. -/
def execGcSemwait (g : Fin 64) (err : Fin 3) (s : State) : Res :=
  act s fun s => s.gcInstr g.val .semwait fun p _ w s =>
    let g := g.val
    let x := s.core g
    let i := x.xr (iRs1 w)
    if !s.semIn p i then s.gcEnd g stReservation 0
    else if (s.waitOf (.core g)).isSome then s
    else (s.semFind p i err).semWait (.core g) p i (x.xr (iRs2 w))

/-- gc.semrd (R105, R116). -/
def execGcSemrd (g : Fin 64) (err : Fin 3) (s : State) : Res :=
  act s fun s => s.gcInstr g.val .semrd fun p _ w s =>
    let g := g.val
    let i := (s.core g).xr (iRs1 w)
    if !s.semIn p i then s.gcEnd g stReservation 0
    else
      let s := s.semFind p i err
      if (s.sem i).poison then s.gcEnd g stPoison 5
      else (s.modCore g (fun x => x.setX (iRd w) (s.sem i).value)).retire p g 0

/-- Does a line, by any of the addresses it was reached by, overlap a byte range (DEDUCED, log entry 48)? -/
def DLine.overlaps (d : DLine) (base n : Nat) : Bool := decide (0 < n) && d.vas.any (fun va => decide (va < base + n) && decide (base < va + 64))

/-- gc.dcln (R108). -/
def execGcDcln (g : Fin 64) (s : State) : Res :=
  act s fun s => s.gcInstr g.val .dcln fun p c w s =>
    let x := s.core g.val
    (s.cleanLines p c g.val (fun d => d.overlaps (x.xr (iRs1 w)) (x.xr (iRs2 w))) false).unlessEnding g.val fun s =>
      if s.unacked p c = 0 ∨ x.xr (iRs2 w) = 0 then s.retire p g.val 0 else s

/-- gc.dinv (R108). -/
def execGcDinv (g : Fin 64) (s : State) : Res :=
  act s fun s => s.gcInstr g.val .dinv fun p c w s =>
    let x := s.core g.val
    (s.cleanLines p c g.val (fun d => d.overlaps (x.xr (iRs1 w)) (x.xr (iRs2 w))) true).unlessEnding g.val fun s =>
      if s.unacked p c = 0 ∨ x.xr (iRs2 w) = 0 then s.retire p g.val 0 else s

/-- gc.cas (R110, R111): rd holds the expected value and takes the prior one; a 32-bit one sign-extended, as the AMOs have it (DESIGN CHOICE, log
entry 49: R110 gives no extension). -/
def execGcCas (g : Fin 64) (s : State) : Res :=
  act s fun s => s.gcInstr g.val .cas fun p c w s =>
    let g := g.val
    let x := s.core g
    let wide := decide (iF7 w = 1)
    let code := if wide then 0x0C else 0x0B
    let m := 2 ^ (if wide then 64 else 32)
    s.coreAtomic p c g (x.xr (iRs1 w)) (if wide then 8 else 4) false code (some code) (x.xr (iRs2 w) % m) (x.xr (iRd w) % m) (fun prior s =>
      (s.modCore g (fun y => y.setX (iRd w) (if wide then prior else sext 32 prior))).retire p g (x.xr (iRs1 w)))

/-- gc.amofadd (R110, R239): only while the partition's relaxed_fp is set. -/
def execGcAmofadd (g : Fin 64) (s : State) : Res :=
  act s fun s => s.gcInstr g.val .amofadd fun p c w s =>
    let g := g.val
    let x := s.core g
    if !bitOf (s.reg (Reg.PART_FABRIC_CTRL p)) 0 then s.gcEnd g stUnsupported 0x81
    else s.coreAtomic p c g (x.xr (iRs1 w)) 4 false 0x0D (some 0x0D) (x.xr (iRs2 w) % 2 ^ 32) 0 (fun prior s =>
      (s.modCore g (fun y => y.setX (iRd w) prior)).retire p g (x.xr (iRs1 w)))

/-- gc.tag (R117): the next instruction the core retires is sampled with the label, if its tile samples cores. -/
def execGcTag (g : Fin 64) (s : State) : Res :=
  act s fun s => s.gcInstr g.val .tag fun p _ w s =>
    let label := (s.core g.val).xr (iRs1 w) % 65536
    let s := s.retire p g.val 0
    if bitOf (s.reg (Reg.SCL_SMP_CTRL (g.val / 16))) 30 then
      s.modScaler (g.val / 16) (fun y => { y with tags := Tbl.set (fun _ => none) y.tags (g.val % 16) (some label) })
    else s

/-- GC_QUARANTINE (R121). -/
def execGcQuarantine (rq : Requester) (g : Fin 64) (v : Word) (s : State) : Res :=
  act s fun s => s.writeQuarantine rq .gc g.val (v ||| 1)

/-- GC_UNQUARANTINE (R94, R121). -/
def execGcUnquarantine (rq : Requester) (g : Fin 64) (v : Word) (s : State) : Res :=
  act s fun s => s.writeUnquarantine rq .gc g.val (v ||| 2)

end Sys2Proof.Machine
end

