-- ==== Sys2Proof/Machine/Mirror.lean ====
section
/-! DEFINITION. Mirrors as commands (R155 to R160): activating, clearing and detaching entries, rebuilding toward a spare, partners that go
and come; and the scrubs of T0 and T1 (R124, R129, R130). -/

namespace Sys2Proof.Machine

/-! ### Commands of HUB_MIRROR_CMD (R157, R160) -/

/-- A write of HUB_MIRROR_CMD, which acts on the entry of HUB_MIRROR_SEL. -/
def State.mirrorCmd (s : State) (rq : Requester) (v : Word) (f : Nat → Mirror → State → State) : State :=
  s.access rq (Reg.HUB_MIRROR_CMD 0) fun s =>
    let s := s.store (Reg.HUB_MIRROR_CMD 0) v
    let i := s.regF (Reg.HUB_MIRROR_SEL 0) 10 0
    f i (s.mirror i) s

/-- Let go what an entry that does not hold any more had held: accesses go to their home, writes that awaited the mirror are acknowledged
when `acks` says so. -/
def State.mirrorRelease (s : State) (i : Nat) (m : Mirror) (acks : Bool) : State :=
  let mine (r : HomeReq) : Bool := m.range.has (64 * r.line)
  let held := s.mirrors.held.filter mine
  let done := if acks then s.mirrors.acks.filter (fun a => decide (a.entry = i)) else []
  let s := { s with mirrors := { s.mirrors with held := s.mirrors.held.filter (fun r => !mine r),
                                                acks := s.mirrors.acks.filter (fun a => !done.contains a) } }
  let s := done.foldl (fun s a => s.ackStore a.req a.prior) s
  held.foldl (fun s r => s.request r) s

/-- MIRROR_COMMIT (R160): an unused entry becomes SYNCED, MIRROR or REDIRECT by its role; role 3 is reserved. -/
def execMirrorCommit (rq : Requester) (v : Word) (s : State) : Res :=
  act s fun s => s.mirrorCmd rq v fun i m s =>
    if m.state ≠ 0 ∨ m.role = 3 then s
    else s.modMirror i (fun m => { m with state := if m.role = 0 then 1 else if m.role = 1 then 6 else 7, copied := 0 })

/-- MIRROR_CLEAR (R160): the entry becomes unused; what it held proceeds locally. -/
def execMirrorClear (rq : Requester) (v : Word) (s : State) : Res :=
  act s fun s => s.mirrorCmd rq v fun i m s =>
    if m.state = 4 then s else (s.modMirror i (fun m => { m with state := 0, copied := 0 })).mirrorRelease i m true

/-- MIRROR_DETACH (R157). -/
def execMirrorDetach (rq : Requester) (v : Word) (s : State) : Res :=
  act s fun s => s.mirrorCmd rq v fun i m s =>
    if m.state = 1 ∨ m.state = 2 ∨ m.state = 4 then (s.mirrorTo i 3 16).mirrorRelease i m true else s

/-- MIRROR_REBUILD (R157): toward the spare that partner_node and partner_base name. -/
def execMirrorRebuild (rq : Requester) (v : Word) (s : State) : Res :=
  act s fun s => s.mirrorCmd rq v fun i m s =>
    if m.state = 3 then s.mirrorTo i 4 0
    else if m.serving then s.count (Reg.HUB_MIRROR_IGNORED 0) 1 else s

/-! ### Partners (R156 to R158) -/

/-- MIRROR_PARTNER_UNREACHABLE (R157). -/
def execMirrorPartnerUnreachable (i : Fin 2048) (s : State) : Res := act s fun s => s.mirrorUnreachable i.val

/-- Forward again the writes of an entry that no outstanding request carries. -/
def State.mirrorResend (s : State) (i : Nat) : State :=
  let m := s.mirror i
  let lost := s.mirrors.acks.filter (fun a => decide (a.entry = i) && !(s.fab.reqs.any (fun r => decide (r.waiter = .mirror a.id)))
    && !(s.fab.stalled.any (fun r => decide (r.waiter = .mirror a.id))))
  lost.foldl (fun s a => match s.send (s.mwrRequest a.id m a.req) with
    | some s => s
    | none => s.mirrorUnreachable i) s

/-- MIRROR_PARTNER_REACHABLE (R157): a primary that held is SYNCED again, sends the writes its mirror lacks, and held accesses proceed. -/
def execMirrorPartnerReachable (i : Fin 2048) (s : State) : Res :=
  act s fun s =>
    let m := s.mirror i.val
    if m.state = 2 then ((s.mirrorTo i.val 1 0).mirrorResend i.val).mirrorRelease i.val m false else s

/-- MIRROR_PROMOTED (R157): the partner has answered PROMOTED. -/
def execMirrorPromoted (i : Fin 2048) (s : State) : Res :=
  act s fun s => if (s.mirror i.val).state = 1 ∨ (s.mirror i.val).state = 2 then s.fence i.val else s

/-- Copy a line of a rebuild to the spare: it awaits an answer as a forwarded write does, with no writer to acknowledge (R158). -/
def State.copyLine (s : State) (i : Nat) (m : Mirror) (o : Nat) : State :=
  let id := s.mirrors.nextId
  let r := HomeReq.store .device (o / 64) fullMask 0 false
  match s.send (s.mwrRequest id m r) with
  | some s => { s with mirrors := { s.mirrors with nextId := id + 1, acks := s.mirrors.acks ++ [⟨id, i, r, none⟩] } }
  | none => s.mirrorUnreachable i

/-- MIRROR_COPY_SEGMENT (R158): the next 4 KiB, in ascending order, once its lines can be read at their home. -/
def execMirrorCopySegment (i : Fin 2048) (s : State) : Res :=
  act s fun s =>
    let m := s.mirror i.val
    let o := m.range.base + m.copied
    if m.state ≠ 4 ∨ m.range.size ≤ m.copied then s
    else s.whenReadable (linesOf o 4096) fun s =>
      let s := s.modMirror i.val (fun m => { m with copied := m.copied + 4096 })
      (List.range 64).foldl (fun s k => if (s.mirror i.val).state = 4 then s.copyLine i.val m (o + 64 * k) else s) s

/-- MIRROR_COPY_DONE (R157): the copy has reached the end and the spare has acknowledged it. -/
def execMirrorCopyDone (i : Fin 2048) (s : State) : Res :=
  act s fun s =>
    let m := s.mirror i.val
    let due := s.mirrors.acks.any (fun a => decide (a.entry = i.val) && decide (a.req.src = .device))
    if m.state = 4 ∧ m.range.size ≤ m.copied ∧ !due then s.mirrorTo i.val 1 0 else s

/-! ### Scrub (R124, R129, R130) -/

/-- T0_SCRUB (R124): the patrol reads a 64-bit word of a bank with none, one or two bits wrong. `after` says how many bits of it go wrong once it
has been read, for the next read to find. -/
def execT0Scrub (word : BitVec 26) (bits : Fin 3) (s : State) (after : Fin 3 := 0) : Res :=
  act s fun s =>
    let a := 8 * word.toNat
    if Config.t0Bytes ≤ a then s
    else (((s.t0Line a false .device).setT0Err a (min 2 (s.t0Err a + bits.val))).t0FindWord a).setT0Err a after.val

/-- The patrol of its hub reads this line: scrubbing is on, and its stack is not in self-refresh (R130). -/
def State.scrubReads (s : State) (o : Nat) : Bool :=
  bitOf (s.reg (Reg.HUB_SCRUB_CTRL (s.hubOf o))) 31 && decide (Tbl.get (fun _ => 0) s.power.sleep (260 + s.stackOf o) ≠ 3)

/-- A full scrub pass of a hub has completed (R197): a set stops being suspect where the pass began after it became so and has left no orphan in it. -/
def State.endSuspects (s : State) (h : Nat) : State :=
  let orphans := (s.t1.home.filter (fun b => s.isOrphan b.1)).map (fun b => s.lineHub b.1 * 2 ^ 17 + dirSet b.1)
  let stays (e : Nat × Nat) : Bool := decide (e.1 / 2 ^ 17 ≠ h) || decide (e.2 = 1) || orphans.contains e.1
  let aged (e : Nat × Nat) : Nat × Nat := if e.1 / 2 ^ 17 = h then (e.1, 2) else e
  s.modHomes (fun x => { x with suspect := (x.suspect.filter stays).map aged })

/-- The scrub comes to a line of a suspect set (R197): an orphan is recovered, as for a request. -/
def State.scrubOrphan (s : State) (line : Nat) : State :=
  if s.isOrphan line && s.lineQuiet line && s.homeOpen line then
    if s.wayFree line then s.recoverOrphan line .device
    else (s.modHomes (fun h => { h with recovering := line :: h.recovering.filter (· ≠ line) })).takeVictim line
  else s

/-- T1_SCRUB (R130): the patrol comes to a line in whose codeword these symbols have gone wrong; `last` says that the pass ends with it. Where it does
not read the line, the error waits for a read that does; so do the symbols of `after`, which go wrong once it has been read. `dirErr`: what the read of
its directory entry finds (R197). -/
def execT1Scrub (line : BitVec 34) (err : List (BitVec 16)) (last : Bool) (s : State)
    (after : List (BitVec 16) := []) (dirErr : Fin 3 := 0) : Res :=
  act s fun s =>
    let o := 64 * line.toNat
    let h := s.hubOf o
    let st := s.stackOf o
    let spoil (s : State) (l : List (BitVec 16)) : State :=
      if (l.take 40).all (· = 0) then s else s.t1Spoil o ((List.range 40).map (fun i => (l.getD i 0).toNat))
    if Config.t1Bytes ≤ o then s
    else
      let s := spoil s err
      if !s.scrubReads o || s.stackTested line.toNat then s
      else
        let s := (s.dirError line.toNat dirErr).checkBits line.toNat .device
        let s := ((s.stackLine st (s.node * 2 ^ 40 + o) 5 false .device).t1Find o (ueWho 3 s.node)).scrubOrphan line.toNat
        let s := spoil s after
        if last then ((s.count (Reg.HUB_SCRUB_PASSES h) 1).cause (Reg.HUB_MEM_IRQ_CAUSE h) 1).endSuspects h else s

end Sys2Proof.Machine
end

