-- ==== Sys2Proof/Machine/Work.lean ====
section
/-! DEFINITION. Work of a unit whose later reads depend on what earlier ones brought: one presentation either does its whole piece of work or,
where something it needs has not come, asks for that and changes nothing else. -/

namespace Sys2Proof.Machine

/-- A piece of work: it carries the state along, or stops with what is to be done to the state it began with. -/
abbrev Work (α : Type) := StateT State (Except (State → State)) α

/-- Do a piece of work, or what it stops with. -/
def State.work (s : State) (w : Work Unit) : State :=
  match w s with
  | .ok (_, s') => s'
  | .error f => f s

/-- Stop: do this to the state instead. -/
def Work.stop {α : Type} (f : State → State) : Work α := fun _ => .error f

/-- Change the state. -/
def Work.act (f : State → State) : Work Unit := fun s => .ok ((), f s)

/-- Look at the state. -/
def Work.view {α : Type} (f : State → α) : Work α := fun s => .ok (f s, s)

/-- Read pieces as one number, once their lines are there (R202). -/
def Work.read (ag : Agent) (fill : Bool) (pieces : List (Nat × Nat)) : Work Got := fun s =>
  let ls := pieces.flatMap (fun r => physLines r.1 r.2)
  if ls.all (s.lineReady ag fill) then .ok (s.fetchAll ag fill pieces)
  else .error (fun s => ls.foldl (fun s a => s.askLine ag fill a) s)

/-- Read a range of a command's named addresses. -/
def Work.readVa (c : Cmd) (p : Nat) (fill : Bool) (va n : Nat) : Work Got :=
  match c.range va n acRead with
  | some x => Work.read (c.agent p) fill x
  | none => Work.stop id

/-- Write a range of a command's named addresses. -/
def Work.writeVa (c : Cmd) (p va n v : Nat) (poison : Bool) : Work Unit :=
  match c.range va n acWrite with
  | some x => Work.act (fun s => s.storeAll (c.agent p) (v % 2 ^ (8 * n)) poison x)
  | none => Work.stop id

/-- Translate one derived address at issue (R171): the physical address, and how far its page goes. -/
def Work.issuePage (p : Nat) (c : Cmd) (unit access index va : Nat) : Work (Nat × Nat) := fun s =>
  match s.issue p c unit va access index with
  | .ok phys len s => .ok ((phys, len), s)
  | .stop _ => .error (fun s => match s.issue p c unit va access index with
    | .stop s => s
    | .ok _ _ s => s)

/-- Translate a range of derived addresses page by page, on a translation unit; `index` is what a fault record shows. -/
def Work.issuePages (p : Nat) (c : Cmd) (unit access index : Nat) : Nat → Nat → Nat → Work (List (Nat × Nat))
  | 0, _, _ => pure []
  | fuel + 1, va, n => do
    if n = 0 then pure []
    else
      let (phys, len) ← Work.issuePage p c unit access index va
      let m := min n len
      let rest ← Work.issuePages p c unit access index fuel (va + m) (n - m)
      pure ((phys, m) :: rest)

/-- Translate a range of derived addresses at issue (R171), once it is known to lie in the space (R172). -/
def Work.issue (p : Nat) (c : Cmd) (unit access index fuel va n : Nat) : Work (List (Nat × Nat)) :=
  if n ≠ 0 ∧ 2 ^ 57 < va + n then Work.stop (fun s => s.raiseFault p c fkAddress 7 0 va access 3 index)
  else Work.issuePages p c unit access index fuel va n

/-- Read a range of derived addresses. -/
def Work.readIssued (p : Nat) (c : Cmd) (unit index : Nat) (fill : Bool) (va n : Nat) : Work Got := do
  let x ← Work.issue p c unit acRead index (pageFuel n) va n
  Work.read (c.agent p) fill x

/-- Write a range of derived addresses. -/
def Work.writeIssued (p : Nat) (c : Cmd) (unit index va n v : Nat) (poison : Bool) : Work Unit := do
  let x ← Work.issue p c unit acWrite index (pageFuel n) va n
  Work.act (fun s => s.storeAll (c.agent p) (v % 2 ^ (8 * n)) poison x)

/-- Forget what came over the fabric for a command: the piece of work that asked for it is done. -/
def State.workDone (s : State) (p : Nat) (c : Cmd) : State :=
  s.modFab (fun x => { x with arrivals := x.arrivals.filter (fun a => !decide (a.waiter = .cmd p c.chute c.seq)) })

/-- Stop until every write of the command is acknowledged. -/
def Work.settled (c : Cmd) : Work Unit := if c.unacked = 0 then pure () else Work.stop id

/-- An atomic of a command on an aligned physical address, executed at its home (R110, R238); `k` takes the prior value. It waits until the
home can take it, or its answer is back. -/
def State.cmdAtomic (s : State) (p : Nat) (c : Cmd) (phys code x cmp : Nat) (k : Nat → State → State) : State :=
  let a := phys / 64 * 64
  let ag := c.agent p
  if s.isRemote a then
    match s.takeArrival ag.waiter phys with
    | some (y, s) => k y.value s
    | none =>
      if s.fab.reqs.any (fun r => decide (r.waiter = ag.waiter) && decide (r.addr = phys))
        || s.fab.stalled.any (fun r => decide (r.waiter = ag.waiter) && decide (r.addr = phys)) then s
      else s.unitSend (ag.atomReq phys code x cmp)
  else if !s.mayTouch p a then k 0 (s.violateMem ag.src true phys)
  else
    let line := a % 2 ^ 40 / 64
    if s.lineBusy a then s
    else if !s.writable line then s.want line true
    else
      let r := { HomeReq.store ag.src line 0 0 false with atom := some (code, x, cmp, phys % 64), wid := s.homes.nextWrite }
      let s := (s.countRequest r).numbered.modCmd p c.chute c.seq (fun c => { c with unacked := c.unacked + 1 })
      match (s.t1Line (64 * line) 1 true (.ofPart p)).land r with
      | (s, some prior) => k (prior.getD 0) (s.storeDone r prior)
      | (s, none) => s

/-- The running command of an opcode at a chute and sequence, and what one presentation does: it stops at a boundary when it must (R59, R60), stalls at
a derived address whose fault it holds (R171), and leaves alone a unit marked for quarantine (R289, R322). `stops` says whether this is a boundary, which a stall at a fault is
too (R176); `stopped` ends it. -/
def State.unitStep (s : State) (p chute seq opcode : Nat) (kind : UnitKind) (stops : Cmd → Bool) (stopped : State → Cmd → State)
    (work : State → Cmd → State) : State :=
  match s.cmd p chute seq with
  | none => s
  | some c =>
    if c.opcode ≠ opcode ∨ c.phase ≠ .running then s
    else if (stops c || (s.atFault p c).isSome) && c.mustStop then stopped s c
    else if stops c && s.marked kind c.runUnit then s
    else if (match s.atFault p c with | some h => decide (h.source = 3) | none => false) then s
    else work s c

end Sys2Proof.Machine
end

