-- ==== Sys2Proof/Machine/RowOps.lean ====
section
/-! DEFINITION. Embedding rows (R263 to R269, R277 to R280): descriptors of commands, formats and their rounding, where a row lives, the Crib and
its sketch, hot sets. -/

namespace Sys2Proof.Machine

/-! ### Descriptors (R263, R264, R266, R286) -/

/-- The table index a row command names. -/
def Cmd.tableNo (c : Cmd) : Nat := nfld (c.arg 8) 31 24

/-- The descriptor as it was read at queue time. -/
def Cmd.table (c : Cmd) : Table := Table.ofWords (c.inputs.headD [])

/-- Is every field of the descriptor in its range (R263, R264)? -/
def Table.fieldsOk (t : Table) : Bool :=
  t.valid && decide (t.format < 3) && decide (t.cache < 3) && decide (t.region % 64 = 0) && decide (t.region < 2 ^ 40)
    && decide (6 ≤ t.redirLog2) && decide (t.redirLog2 ≤ 20) && decide (6 ≤ t.arenaLog2) && decide (t.arenaLog2 ≤ 24)
    && decide (6 ≤ t.hotLog2) && decide (t.hotLog2 ≤ 20) && decide (t.hotCount ≤ 2 ^ t.hotLog2)

/-- May its layout hold its rows (R266, R286)? -/
def Table.layoutOk (t : Table) : Bool :=
  if t.column then
    decide (t.dim % t.shards = 0) && (decide (t.format ≠ 2) || decide (t.dim / t.shards % 2 = 0)) && decide (t.rowCount ≤ t.homeSlots)
  else decide ((t.rowCount + t.shards - 1) / t.shards ≤ t.homeSlots)

/-- May a command use it? -/
def Table.ok (t : Table) : Bool := t.fieldsOk && t.layoutOk

/-- Entry i of the shard list as it was read at queue time: 16 bits each (R264). -/
def Cmd.shard (c : Cmd) (i : Nat) : Nat := wordAt (c.inputs.getD 1 []) (i / 2) / 2 ^ (16 * (i % 2)) % 4096

/-- What a row command reads before it runs, after what it has read: an address, physical or virtual, and a length (R263). -/
def State.rowInput (s : State) (p : Nat) (c : Cmd) : Option (Bool × Nat × Nat) :=
  match c.inputs.length with
  | 0 => if ((s.part p).ring dirRing).ready then some (true, s.node * 2 ^ 40 + ((s.part p).ring dirRing).range.base + 128 * c.tableNo, 128) else none
  | 1 => if c.table.ok then some (false, c.table.shardVa, 2 * c.table.shards) else none
  | _ => none

/-! ### Formats (R265, R277) -/

/-- Bytes of n elements of a format, with a code row's scale and offset. -/
def rowSize (format n : Nat) : Nat := match format with | 0 => 2 * n | 1 => 4 + n | _ => 4 + n / 2

/-- Bytes of a row. -/
def Table.rowBytes (t : Table) : Nat := rowSize t.format t.dim

/-- Bytes of what one node holds of a row: the row, or its slice (R286). -/
def Table.slotBytes (t : Table) : Nat := if t.column then rowSize t.format (t.dim / t.shards) else t.rowBytes

/-- The FP32 codes of n elements of a format (R265). -/
def rowElems (format n v : Nat) : List Nat :=
  if format = 0 then (List.range n).map (fun e => (FVal.ofBits 5 10 (v / 2 ^ (16 * e) % 2 ^ 16)).toF32)
  else
    let s := FVal.ofBits 5 10 (v % 2 ^ 16)
    let o := FVal.ofBits 5 10 (v / 2 ^ 16 % 2 ^ 16)
    let w := if format = 1 then 8 else 4
    (List.range n).map (fun e => ((s.mul (.fin false ⟨signed w (v / 2 ^ (32 + w * e) % 2 ^ w), 0⟩)).add o).toF32)

/-- Round to binary16, ties to even; infinities stay, −0 is written +0. -/
def FVal.toF16 : FVal → Nat
  | .nan => 0x7E00
  | .inf n => if n then 0xFC00 else 0x7C00
  | .fin _ d =>
    let m := min (roundMag 11 (-24) d.m.natAbs d.e) 0x7C00
    if m = 0 then 0 else (if d.m < 0 then 0x8000 else 0) + m

/-- Round to bfloat16, ties to even; infinities stay, −0 is written +0. -/
def FVal.toBf16 : FVal → Nat
  | .nan => 0x7FC0
  | .inf n => if n then 0xFF80 else 0x7F80
  | .fin _ d =>
    let m := min (roundMag 8 (-133) d.m.natAbs d.e) 0x7F80
    if m = 0 then 0 else (if d.m < 0 then 0x8000 else 0) + m

/-- A ratio of exact values a / b, b positive, as whole numbers of one unit. -/
def dyRatio (a b : Dy) : Int × Nat :=
  let e := min a.e b.e
  (a.at e, (b.at e).natAbs)

/-- A dyadic value that rounds to binary16 as a / q does: enough bits of the quotient, and one more for the rest. -/
def dyQuot (a : Dy) (q : Nat) : Dy :=
  let n := a.m.natAbs * 2 ^ 128
  let r : Int := 2 * (n / q) + (if n % q = 0 then 0 else 1)
  ⟨if a.m < 0 then -r else r, a.e - 129⟩

/-- The least and the greatest of some values. -/
def dyBounds : List Dy → Option (Dy × Dy)
  | [] => none
  | d :: t => match dyBounds t with
    | none => some (d, d)
    | some (l, h) => some (if d.lt l then d else l, if h.lt d then d else h)

/-- A code row's element code before the offset of two's complement (R277): x = (v − o) / s rounded by the random number, then clamped. -/
def codeOf (v o s : Dy) (lo hi : Int) (r : Nat) : Int :=
  let (a, b) := dyRatio (v.add o.neg) s
  let b := max 1 b
  let f := a / (b : Int)
  let rest := (a % (b : Int)).toNat
  max lo (min hi (if r * b < rest * 65536 then f + 1 else f))

/-- A row as it is stored from FP32 codes (R277): its bytes, and whether it was written nonfinite. With an infinite offset and a scale other than 0 every
code is the bound its clamp gives (DEDUCED, log entry 68). -/
def storeRow (t : Table) (step row : Nat) (vs : List Nat) : Nat × Bool :=
  if t.format = 0 then (vs.foldr (fun v acc => (ofF32 v).toF16 + 2 ^ 16 * acc) 0, false)
  else
    let w := if t.format = 1 then 8 else 4
    let q := 2 ^ w - 1
    let z : Nat := 2 ^ (w - 1)
    let ds := vs.filterMap (fun v => match ofF32 v with | .fin _ d => some d | _ => none)
    let bad := (0x7E00 + 2 ^ 16 * 0x7E00, true)
    if ds.length ≠ vs.length then bad
    else match dyBounds ds with
      | none => bad
      | some (l, h) =>
        let s := (FVal.fin false (dyQuot (h.add l.neg) q)).toF16
        if s = 0x7C00 then bad
        else if s = 0 then ((FVal.fin false l).toF16 * 2 ^ 16, false)
        else
          let sd := (FVal.ofBits 5 10 s).dy
          let o := (FVal.fin false (l.add (sd.mul ⟨z, 0⟩))).toF16
          match FVal.ofBits 5 10 o with
          | .fin _ od =>
            let code (e : Nat) (d : Dy) : Nat :=
              ((codeOf d od sd (-(z : Int)) ((q : Int) - z) (stochastic16 t.seed step (row / 2 ^ 16) (row % 2 ^ 16) e)) % (2 ^ w : Int)).toNat
            let codes := (List.range ds.length).map (fun e => code e (ds.getD e Dy.zero))
            (s + 2 ^ 16 * o + 2 ^ 32 * codes.foldr (fun x acc => x + 2 ^ w * acc) 0, false)
          | _ =>
            let code := ((if o = 0x7C00 then -(z : Int) else (q : Int) - z) % (2 ^ w : Int)).toNat
            (s + 2 ^ 16 * o + 2 ^ 32 * ds.foldr (fun _ acc => code + 2 ^ w * acc) 0, false)

/-! ### Where a row lives (R266 to R269) -/

/-- g(b) of R266. -/
def rowRotation (b : Nat) : Nat := b * 0x9E3779B1 % 2 ^ 32 / 2 ^ 20

/-- The hash home of a row. -/
def Cmd.hashHome (c : Cmd) (row : Nat) : Nat :=
  let n := c.table.shards
  c.shard ((row % n + rowRotation (row / n)) % n)

/-- Is the row ID one of the table's? -/
def Table.validRow (t : Table) (row : Nat) : Bool := decide (row < t.rowCount) && decide (row ≠ 0xFFFFFFFF)

/-- The fabric address of slot k on a node. -/
def Table.slotAt (t : Table) (node k : Nat) : Nat := node * 2 ^ 40 + t.region + k * t.slotBytes

/-- Where a row is: nowhere, or at a slot of a node; with its state (R267) and the entry of the redirect table, if one was needed. -/
structure RowPlace where
  state : Nat
  node : Nat
  slot : Nat
  entry : Option (Nat × List Nat)
  deriving DecidableEq, Repr

/-- The state of a row at its hash home (R267). -/
def Work.rowState (p : Nat) (c : Cmd) (row : Nat) (fill : Bool) : Work (Nat × Bool) := do
  let b := row / c.table.shards
  let g ← Work.read (c.agent p) fill [(c.hashHome row * 2 ^ 40 + c.table.stateOff + b / 4, 1)]
  pure (g.value / 4 ^ (b % 4) % 4, g.poison)

/-- The entries of a row's probe window on a node, with their fabric addresses (R268). -/
def Work.redirEntries (p : Nat) (c : Cmd) (node row : Nat) (fill : Bool) : Work (List (Nat × List Nat)) := do
  let as_ := (c.table.redirWindow row).map (node * 2 ^ 40 + ·)
  let gs ← as_.mapM (fun a => Work.read (c.agent p) fill [(a, 16)])
  pure (as_.zip (gs.map (fun g => numWords g.value 4)))

/-- The entry of a row of a kind in a window. -/
def findRedir (row kind : Nat) (l : List (Nat × List Nat)) : Option (Nat × List Nat) :=
  l.find? (fun e => decide (wordAt e.2 0 = row) && decide (nfld (wordAt e.2 1) 31 30 = kind))

/-- Resolve a valid row of a HASHED table (R269): where it is, and whether a line read on the way was poisoned. -/
def Work.resolve (p : Nat) (c : Cmd) (row : Nat) (fill : Bool) : Work (RowPlace × Bool) := do
  let home := c.hashHome row
  let b := row / c.table.shards
  let (st, po) ← Work.rowState p c row fill
  if st = 0 then pure (⟨0, home, b, none⟩, po)
  else if st = 1 then pure (⟨1, home, b, none⟩, po)
  else
    let es ← Work.redirEntries p c home row fill
    match findRedir row 1 es with
    | some e => pure (⟨st, nfld (wordAt e.2 1) 23 12, wordAt e.2 2, some e⟩, po)
    | none =>
      Work.act (fun s => (s.count (Reg.PART_ROW_REDIR_MISS p) 1).pcause p (Reg.PART_ROW_IRQ_CAUSE p) 4)
      pure (⟨1, home, b, none⟩, po)

/-- The default row, read locally (R269): its bytes, whether poisoned. -/
def Work.defaultRow (p : Nat) (c : Cmd) : Work (Nat × Bool) := do
  let g ← Work.readVa c p true c.table.defaultVa c.table.rowBytes
  pure (g.value, g.poison)

/-- What reading one row gives: its bytes in the table's format, poison, and whether it is the default row. -/
structure RowRead where
  data : Nat
  poison : Bool
  default : Bool
  deriving DecidableEq, Repr

/-- A row unit reads or writes a row (R289), counted; class 0 Crib hit, 1 hot set, 2 home (R443). -/
def State.rowEvent (s : State) (p : Nat) (c : Cmd) (cls addr : Nat) : State :=
  (s.count64 (Reg.ROW_ROWS_LO c.runUnit) 1).event (hubTile (c.runUnit / 8)) ⟨0x27, c.runUnit % 8, 1, some addr, some cls, .ofPart p⟩

/-- Return the default row, counted (R269). -/
def Work.useDefault (p : Nat) (c : Cmd) : Work RowRead := do
  let (v, po) ← Work.defaultRow p c
  Work.act (fun s => s.count (Reg.PART_ROW_DEFAULTS p) 1)
  pure ⟨v, po, true⟩

/-- Read a row from where it is (R269). -/
def Work.readPlace (p : Nat) (c : Cmd) (x : RowPlace) (po fill : Bool) : Work RowRead := do
  if x.state = 1 then
    let r ← Work.useDefault p c
    pure { r with poison := r.poison || po }
  else
    let a := c.table.slotAt x.node x.slot
    let g ← Work.read (c.agent p) fill [(a, c.table.rowBytes)]
    Work.act (fun s => s.rowEvent p c 2 a)
    pure ⟨g.value, g.poison || po, false⟩

/-- Read a row of a COLUMN table: its slices, joined in shard-list order (R286). -/
def Work.readColumn (p : Nat) (c : Cmd) (row : Nat) (fill : Bool) : Work RowRead := do
  let t := c.table
  let n := t.shards
  let gs ← (List.range n).mapM (fun i => Work.read (c.agent p) fill [(t.slotAt (c.shard i) row, t.slotBytes)])
  Work.act (fun s => s.rowEvent p c 2 (t.slotAt (c.shard 0) row))
  let po := gs.any (·.poison)
  if t.format = 0 then
    pure ⟨gs.foldr (fun g acc => g.value + 2 ^ (8 * t.slotBytes) * acc) 0, po, false⟩
  else
    let w := 8 * (t.slotBytes - 4)
    let head := match gs with | g :: _ => g.value % 2 ^ 32 | [] => 0
    pure ⟨head + 2 ^ 32 * gs.foldr (fun g acc => g.value / 2 ^ 32 + 2 ^ w * acc) 0, po, false⟩

/-! ### The Crib (R278, R279) -/

/-- The Crib of a hub. -/
def State.crib (s : State) (h : Nat) : Crib := Tbl.get (fun _ => Crib.reset) s.cribs h

/-- Change it, and show how many blocks it uses (R290). -/
def State.modCrib (s : State) (h : Nat) (f : Crib → Crib) : State :=
  let s := s.wakeNow (256 + h)
  let x := f (s.crib h)
  let s : State := { s with cribs := Tbl.set (fun _ => Crib.reset) s.cribs h x }
  s.setRegN (Reg.ROW_CRIB_USED h) ((x.entries.map (fun e => (e.bytes + 255) / 256)).sum)

/-- The key of a row of a table and partition (R278). -/
def cribKey (p t row : Nat) : Nat := row ^^^ (t * 2 ^ 24) ^^^ (p * 2 ^ 19)
/-- The set of a key. -/
def cribSet (key : Nat) : Nat := key * 0x9E3779B1 % 2 ^ 32 / 2 ^ 20
/-- The ways an entry takes. -/
def CribEntry.ways (e : CribEntry) : Nat := (e.bytes + 255) / 256
/-- The key of an entry. -/
def CribEntry.key (e : CribEntry) : Nat := cribKey e.part e.table e.row

/-- The four counters of a key (R279). -/
def sketchAt (key : Nat) : List Nat :=
  (List.range 4).map (fun k => 16384 * k + key * ([0x9E3779B1, 0x85EBCA6B, 0xC2B2AE35, 0x27D4EB2F].getD k 0) % 2 ^ 32 / 2 ^ 18)

/-- The estimate of a key. -/
def Crib.estimate (x : Crib) (key : Nat) : Nat := (sketchAt key).foldl (fun m i => min m (Tbl.get (fun _ => 0) x.sketch i)) 15

/-- A lookup of a key raises its counters (R279). -/
def Crib.note (x : Crib) (key : Nat) : Crib :=
  { x with sketch := (sketchAt key).foldl (fun k i => Tbl.modify (fun _ => 0) k i (fun n => min 15 (n + 1))) x.sketch, incs := x.incs + 1 }

/-- The entry of a row. -/
def Crib.find (x : Crib) (p t row : Nat) : Option CribEntry :=
  x.entries.find? (fun e => decide (e.part = p) && decide (e.table = t) && decide (e.row = row))

/-- An entry put in order before another as a victim: a lower estimate first, then the least recently used (R279). -/
def Crib.victims (x : Crib) : List CribEntry → List CribEntry
  | [] => []
  | e :: l =>
    let rest := x.victims l
    let first (a b : CribEntry) : Bool :=
      decide (x.estimate a.key < x.estimate b.key) || (decide (x.estimate a.key = x.estimate b.key) && decide (a.used < b.used))
    (rest.filter (fun b => first b e)) ++ [e] ++ rest.filter (fun b => !first b e)

/-- Victims from the front of a list until some ways are free. -/
def takeWays : Nat → List CribEntry → List CribEntry
  | _, [] => []
  | need, e :: l => if need = 0 then [] else e :: takeWays (need - e.ways) l

/-- Offer a row for admission (R279): the Crib with it, or none. -/
def Crib.offer (x : Crib) (e : CribEntry) : Option Crib :=
  let set := x.entries.filter (fun o => decide (cribSet o.key = cribSet e.key))
  let free := 16 - (set.map (·.ways)).sum
  let vs := takeWays (e.ways - free) (x.victims set)
  if vs.all (fun v => decide (x.estimate v.key < x.estimate e.key)) then
    some { x with entries := { e with used := x.clock } :: x.entries.filter (fun o => !vs.contains o), clock := x.clock + 1 }
  else none

/-- How often entries of a partition and table have been invalidated. -/
def State.cribGenOf (s : State) (p t : Nat) : Nat := Tbl.get (fun _ => 0) s.cribGen (256 * p + t)

/-- Discard entries of a partition, of one table or of all, in both Cribs (R278, R281). -/
def State.cribDrop (s : State) (p : Nat) (t : Option Nat) : State :=
  let keep (e : CribEntry) : Bool := !(decide (e.part = p) && (match t with | some t => decide (e.table = t) | none => true))
  let s := (List.range 2).foldl (fun s h => s.modCrib h (fun x => { x with entries := x.entries.filter keep })) s
  match t with
  | some t => { s with cribGen := Tbl.modify (fun _ => 0) s.cribGen (256 * p + t) (· + 1) }
  | none => s

/-- A lookup of a remote row of a Crib table (R278, R279). `err` says that a word of its entry proves corrected (false) or uncorrectable (true);
`fresh` that no invalidation came since the lookup began, so that a fill may be installed (R281). -/
def Work.cribRow (p : Nat) (c : Cmd) (row : Nat) (err : Option Bool) (fresh : Bool) : Work RowRead := do
  let h := row % 2
  let t := c.tableNo
  let on ← Work.view (fun s => bitOf (s.reg (Reg.ROW_CRIB_CTRL h)) 31)
  if !on then
    let (x, po) ← Work.resolve p c row true
    Work.readPlace p c x po true
  else
    let key := cribKey p t row
    Work.act (fun s => s.modCrib h (fun x => x.note key))
    let found ← Work.view (fun s => (s.crib h).find p t row)
    let hit ← match found, err with
      | some e, some true => do
        Work.act (fun s => ((s.modCrib h (fun x => { x with entries := x.entries.erase e })).count (Reg.ROW_CRIB_UE h) 1).cause
          (Reg.ROW_CRIB_IRQ_CAUSE h) 1)
        pure none
      | some e, some false => do
        Work.act (fun s => (s.count (Reg.ROW_CRIB_CE h) 1).corrected 13 h 5 1)
        pure (some e)
      | o, _ => pure o
    match hit with
    | some e =>
      Work.act (fun s => ((s.modCrib h (fun x => { x with clock := x.clock + 1, entries := x.entries.map (fun o =>
        if o = e then { e with used := x.clock } else o) })).count64 (Reg.ROW_CRIB_HITS_LO h) 1).rowEvent p c 0 (c.table.slotAt (c.hashHome row)
          (row / c.table.shards)))
      pure ⟨e.data, false, false⟩
    | none =>
      Work.act (fun s => s.count64 (Reg.ROW_CRIB_MISSES_LO h) 1)
      let (x, po) ← Work.resolve p c row true
      let r ← Work.readPlace p c x po true
      Work.act (fun s =>
        if x.node = s.node ∨ r.default ∨ r.poison ∨ 1024 < c.table.rowBytes ∨ !fresh then s
        else match (s.crib h).offer ⟨p, t, row, c.table.rowBytes, r.data, 0⟩ with
          | some y => (s.modCrib h (fun _ => y)).count (Reg.ROW_CRIB_ADMIT h) 1
          | none => s.count (Reg.ROW_CRIB_REJECT h) 1)
      pure r

/-! ### Hot sets (R280) -/

/-- The addresses of the entries of a row's window in the hot-set index. -/
def Table.hotWindow (t : Table) (row : Nat) : List Nat :=
  (List.range 8).map (fun i => t.hotIndexVa + 8 * ((bucket row t.hotLog2 + i) % 2 ^ t.hotLog2))

/-- The entries of a row's window: address, row, and its second word. -/
def Work.hotEntries (p : Nat) (c : Cmd) (row : Nat) : Work (List (Nat × Nat × Nat) × Bool) := do
  let as_ := c.table.hotWindow row
  let gs ← as_.mapM (fun a => Work.readVa c p true a 8)
  pure (as_.zip (gs.map (fun g => (g.value % 2 ^ 32, g.value / 2 ^ 32))), gs.any (·.poison))

/-- A lookup of a remote row of a hot-set table (R280). -/
def Work.hotRow (p : Nat) (c : Cmd) (row : Nat) : Work RowRead := do
  let (es, po) ← Work.hotEntries p c row
  match es.find? (fun e => decide (e.2.1 = row) && decide (nfld e.2.2 31 31 = 1)) with
  | some e =>
    let g ← Work.readVa c p true (c.table.hotDataVa + nfld e.2.2 23 0 * c.table.rowBytes) c.table.rowBytes
    Work.act (fun s => s.rowEvent p c 1 (c.table.slotAt (c.hashHome row) (row / c.table.shards)))
    pure ⟨g.value, g.poison || po, false⟩
  | none =>
    let (x, q) ← Work.resolve p c row true
    let r ← Work.readPlace p c x q true
    pure { r with poison := r.poison || po }

/-- A row for a lookup (R269, R278, R280, R286). A row whose hash home is this node is read from T1. -/
def Work.lookupRow (p : Nat) (c : Cmd) (row : Nat) (err : Option Bool) (fresh : Bool) : Work RowRead := do
  let t := c.table
  let here ← Work.view (fun s => s.node)
  if !t.validRow row then Work.useDefault p c
  else if t.column then Work.readColumn p c row true
  else if c.hashHome row ≠ here ∧ t.cache = 1 then Work.cribRow p c row err fresh
  else if c.hashHome row ≠ here ∧ t.cache = 2 then Work.hotRow p c row
  else
    let (x, po) ← Work.resolve p c row true
    Work.readPlace p c x po true

end Sys2Proof.Machine
end

