-- ==== Sys2Proof/Machine/Row.lean ====
section
/-! DEFINITION. Row commands (R263, R270 to R276, R279, R284): the table directory, lookups, contributions, applies, the Crib's aging and the
forwarding of arena records. A command that runs does one bag, item or row, or one stage of it, each time it is presented. -/

namespace Sys2Proof.Machine

/-! ### The directory -/

/-- ROW_DIR_ENABLE (R263): registration under the conditions of R33, with nothing zeroed. -/
def execRowDirEnable (rq : Requester) (p : Fin 32) (v : Word) (s : State) : Res :=
  act s fun s =>
    let p := p.val
    let a := Reg.PART_ROW_DIR_CTRL p
    s.access rq a (fun s =>
      let s := s.store a (v ||| 1)
      if ((s.part p).ring dirRing).ready then s
      else
        let r : Range := ⟨s.ringBase p dirRing, 0x8000⟩
        s.dirAnswer p dirRing a r (s.ringCheck p dirRing true 15 15 15 r ⟨0, 0⟩))

/-! ### Named addresses (R170, R263) -/

/-- Bytes of an output row of a lookup (R270). -/
def Cmd.outBytes (c : Cmd) : Nat := c.table.dim * (if nfld (c.arg 8) 21 20 = 0 then 4 else 2)

/-- Bytes of a contribution item (R274). -/
def Cmd.itemBytes (c : Cmd) : Nat := c.table.recordBytes

/-- The addresses a row command names: those of its descriptor (R263), where a hot set that the table does not have names none (DEDUCED, log entry 69), and
its own. -/
def Cmd.rowNamed (c : Cmd) : List Named :=
  if !c.table.ok then []
  else
    let t := c.table
    let hot (access : Nat) : List Named :=
      if t.cache = 2 ∧ !t.column then [⟨t.hotIndexVa, 8 * 2 ^ t.hotLog2, access, 2, 0, 0⟩, ⟨t.hotDataVa, t.hotCount * t.rowBytes, access, 2, 0, 0⟩]
      else []
    [(⟨t.shardVa, 2 * t.shards, acRead, 2, 0, 0⟩ : Named), ⟨t.defaultVa, t.rowBytes, acRead, 2, 0, 0⟩]
    ++ (if t.cache = 2 ∧ !t.column then [⟨t.hotListVa, 4 * t.hotCount, acRead, 2, 0, 0⟩] else []) ++ hot acRead
    ++ (match c.opcode with
        | 0x04 => (List.range (min (c.arg 9) (2 ^ 20))).flatMap (fun q =>
            [⟨c.arg64 10 + 16 * q, 16, acRead, 0, 0, q⟩, ⟨c.arg64 12 + q * c.arg 14, c.outBytes, acWrite, 0, 0, q⟩])
        | 0x05 =>
          if nfld (c.arg 8) 23 22 = 0 then
            (List.range (min (c.arg 12) (2 ^ 20))).map (fun k => ⟨c.arg64 10 + k * c.itemBytes, c.itemBytes, acRead, 0, 0, k⟩)
          else []
        | 0x11 => hot acWrite
        | _ => [])

/-! ### One presentation of a row command -/

/-- Does another running EMB_CONVERT of the partition work on the table a command names (R287)? -/
def State.converting (s : State) (p : Nat) (c : Cmd) : Bool :=
  (s.part p).cmds.any (fun d => decide (d.phase = .running) && decide (d.opcode = 0x06) && decide (d.tableNo = c.tableNo)
    && !d.is c.chute c.seq)

/-- End a row command with what it has done and skipped. -/
def State.rowEnd (s : State) (p : Nat) (c : Cmd) (status : Nat) : State := s.endCmd p c status c.partialResult.1 c.partialResult.2

/-- Its status at the end: POISON_READ once a poisoned line has been read. -/
def poisonStatus (n : Nat) : Nat := if n = 0 then stOk else stPoison

/-- One presentation of a row command (R60, R263, R266, R287): the first time, the checks every row command makes, then `start`; later, its
work. `stops` says whether it stands at a boundary. -/
def State.rowStep (s : State) (p chute seq opcode : Nat) (mine : Cmd → Bool) (stops : Cmd → Bool) (start work : State → Cmd → State) : State :=
  s.unitStep p chute seq opcode .row (fun c => c.aux.isEmpty || stops c) (fun s c => s.rowEnd p c stAborted) fun s c =>
    if !mine c then s
    else if !c.aux.isEmpty then work s c
    else if s.converting p c then s.endCmd p c stStaleEpoch 0 0
    else if !c.table.ok then s.endCmd p c stUnsupported 0 0
    else start s c

/-- Nothing is under way over the fabric for a command. -/
def State.quietFor (s : State) (p : Nat) (c : Cmd) : Bool :=
  let w := Waiter.cmd p c.chute c.seq
  !(s.fab.reqs.any (fun r => decide (r.waiter = w))) && !(s.fab.stalled.any (fun r => decide (r.waiter = w)))
    && !(s.fab.arrivals.any (fun a => decide (a.waiter = w)))

/-- The end of a piece of work: what came for it is forgotten, and the command has new working values. -/
def Work.next (p : Nat) (c : Cmd) (progress : Nat) (aux : List Nat) : Work Unit :=
  Work.act (fun s => (s.workDone p c).setAux p c progress aux)

/-- Change value i of a list of working values. -/
def setVal (l : List Nat) (i v : Nat) : List Nat := l.set i v

/-! ### Lookups (R270 to R272) -/

/-- A pooled value in the output format (R271). -/
def outElem (fmt v : Nat) : Nat := match fmt with | 0 => v | 1 => (ofF32 v).toBf16 | _ => (ofF32 v).toF16

/-- NaN in the output format. -/
def outNaN (fmt : Nat) : Nat := match fmt with | 0 => f32NaN | 1 => 0x7FC0 | _ => 0x7E00

/-- Values as a row of `w` bits each. -/
def packElems (w : Nat) (vs : List Nat) : Nat := vs.foldr (fun v acc => v % 2 ^ w + 2 ^ w * acc) 0

/-- Add a row, or its weighted values, to a bag's sums (R271). -/
def poolRow (weight : Option Nat) (acc v : List Nat) : List Nat :=
  List.zipWith (fun a x => addF32 a (match weight with | some w => ((ofF32 w).mul (ofF32 x)).toF32 | none => x)) acc v

/-- The mean of n rows: a correctly rounded division; −0 is written +0. -/
def meanOf (n v : Nat) : Nat :=
  let q := (fpDiv 0 0 v (FVal.fin false ⟨n, 0⟩).toF32).1
  if q = 0x80000000 then 0 else q

/-- Read the rows of a bag in index order: the sums, default rows, and whether a line was poisoned. -/
def Work.bagRows (p : Nat) (c : Cmd) (weighted fresh : Bool) (idx : Nat) (errs : List (Nat × Bool)) : List Nat → List Nat → Nat → Bool →
    Work (List Nat × Nat × Bool)
  | [], acc, d, po => pure (acc, d, po)
  | k :: ks, acc, d, po => do
    let w := if weighted then 64 else 32
    let e := idx / 2 ^ (w * k)
    let r ← Work.lookupRow p c (e % 2 ^ 32) ((errs.find? (fun x => decide (x.1 = k))).map (·.2)) fresh
    let v := rowElems c.table.format c.table.dim r.data
    Work.bagRows p c weighted fresh idx errs ks (poolRow (if weighted then some (e / 2 ^ 32 % 2 ^ 32) else none) acc v)
      (d + if r.default then 1 else 0) (po || r.poison)

/-- One bag of a lookup. Working values: default rows, whether a line was poisoned, one more than the count of invalidations of the table when the
bag began. -/
def Work.bag (p : Nat) (c : Cmd) (fresh : Bool) (errs : List (Nat × Bool)) : Work Unit := do
  let q := c.progress
  let fmt := nfld (c.arg 8) 21 20
  let weighted := decide (nfld (c.arg 8) 19 19 = 1)
  let e ← Work.readVa c p true (c.arg64 10 + 16 * q) 16
  let n := if e.poison then 0 else e.value / 2 ^ 64 % 2 ^ 16
  let idx ← if n = 0 then pure (⟨0, false, 0⟩ : Got)
    else Work.readIssued p c (xltUnit p) 0 true (e.value % 2 ^ 64) ((if weighted then 8 else 4) * n)
  let (acc, d, po) ← Work.bagRows p c weighted fresh idx.value errs (List.range (if idx.poison then 0 else n))
    (List.replicate c.table.dim 0) 0 (e.poison || idx.poison)
  let out := acc.map (fun v => if po then outNaN fmt
    else outElem fmt (if nfld (c.arg 8) 23 22 = 1 ∧ 0 < n then meanOf n v else v))
  Work.writeVa c p (c.arg64 12 + q * c.arg 14) c.outBytes (packElems (if fmt = 0 then 32 else 16) out) false
  Work.next p c (q + 1) [min (c.auxAt 0 + d) 0xFFFFFF, if po then 1 else c.auxAt 1, c.auxAt 2]

/-- Are the arguments of a lookup in range (R270)? -/
def Cmd.lookupOk (c : Cmd) : Bool :=
  decide (1 ≤ c.arg 9) && decide (c.arg 9 ≤ 2 ^ 20) && decide (c.outBytes ≤ c.arg 14) && decide (c.arg 14 % 4 = 0)
    && decide (nfld (c.arg 8) 23 22 < 2) && decide (nfld (c.arg 8) 21 20 < 3)

/-- EMB_LOOKUP (R271): one bag; `cribErr` names the rows of the bag, by position, whose Crib entry proves corrected (false) or uncorrectable. -/
def execEmbLookup (p : Fin 32) (chute : Fin 64) (seq : Word) (cribErr : List (Nat × Bool)) (s : State) : Res :=
  act s fun s =>
    let p := p.val
    s.rowStep p chute.val seq.toNat 0x04 (fun _ => true) (fun _ => true)
      (fun s c => if c.lookupOk then s.setAux p c 0 [0, 0, 0] else s.endCmd p c stUnsupported 0 0)
      (fun s c =>
        if c.arg 9 ≤ c.progress then s.rowEnd p c (poisonStatus (c.auxAt 1))
        else
          let gen := s.cribGenOf p c.tableNo + 1
          let c := if s.quietFor p c then { c with aux := setVal c.aux 2 gen } else c
          (s.setAux p c c.progress c.aux).work (Work.bag p c (decide (c.auxAt 2 = gen)) cribErr))

/-- CRIB_AGE (R279): after age_period × 1,024 increments every counter of the sketch is halved; each lookup is one increment. -/
def execCribAge (h : Fin 2) (s : State) : Res :=
  act s fun s =>
    let h := h.val
    let n := 1024 * max 1 (s.regF (Reg.ROW_CRIB_CTRL h) 15 0)
    if (s.crib h).incs < n then s
    else (s.modCrib h (fun x => { x with incs := x.incs - n, sketch := (x.sketch.map (fun e => (e.1, e.2 / 2))).filter (fun e => decide (e.2 ≠ 0)) })).count
      (Reg.ROW_CRIB_AGINGS h) 1

/-! ### Contributions (R274) -/

/-- The arena parity of a command's step. -/
def Cmd.parity (c : Cmd) : Nat := c.arg 9 % 2

/-- The header line of a record (R274). -/
def arenaHeader (row node pos step : Nat) : Nat :=
  wordsNum ([row, node, pos, step] ++ List.replicate 11 0 ++ [0xE5000000 + step % 2 ^ 24]) 0 16

/-- One item, or one stage of it. Working values: items skipped, records written, stage (0 resolve, 1 take an index, 2 write gradients, 3 write
the header), current home, index, whether a line was poisoned. -/
def State.contribute (s : State) (p : Nat) (c : Cmd) : State :=
  let t := c.table
  let k := c.progress
  let item := c.arg64 10 + k * c.itemBytes
  let a := c.aux
  let node := c.auxAt 3
  let rec_ := node * 2 ^ 40 + t.record c.parity (c.auxAt 4)
  if c.arg 12 ≤ k then s.rowEnd p c (poisonStatus (c.auxAt 5))
  else match c.auxAt 2 with
    | 0 => s.work do
      let g ← Work.readVa c p true item c.itemBytes
      let row := g.value % 2 ^ 32
      if g.poison then Work.next p c (k + 1) (setVal a 5 1)
      else if !t.validRow row then Work.next p c (k + 1) (setVal a 0 (c.auxAt 0 + 1))
      else
        let (x, po) ← Work.resolve p c row true
        if po then Work.next p c (k + 1) (setVal a 5 1)
        else Work.next p c k (setVal (setVal a 2 1) 3 x.node)
    | 1 =>
      s.cmdAtomic p c (node * 2 ^ 40 + t.arena c.parity) 0x02 1 0 fun prior s =>
        if t.arenaRecords ≤ prior then
          (s.pcause p (Reg.PART_ROW_IRQ_CAUSE p) 1).rowEnd p c (worseStatus stReservation (poisonStatus (c.auxAt 5)))
        else s.setAux p c k (setVal (setVal a 2 2) 4 prior)
    | 2 => s.work do
      let g ← Work.readVa c p true (item + 64) (4 * t.dim)
      Work.act (fun s => s.storeAll (c.agent p) g.value g.poison [(rec_ + 64, 4 * t.dim)])
      Work.next p c k (setVal a 2 3)
    | _ => s.work do
      Work.settled c
      let g ← Work.readVa c p true item 4
      Work.act (fun s => s.storeAll (c.agent p) (arenaHeader g.value s.node ((c.arg 13 + k) % 2 ^ 32) (c.arg 9)) false [(rec_, 64)])
      Work.next p c (k + 1) (setVal (setVal a 2 0) 1 (c.auxAt 1 + 1))

/-- CONTRIBUTE (R274). Phases 2 and 3 complete UNSUPPORTED_FORMAT from here (R273). -/
def execContribute (p : Fin 32) (chute : Fin 64) (seq : Word) (s : State) : Res :=
  act s fun s =>
    let p := p.val
    s.rowStep p chute.val seq.toNat 0x05 (fun c => decide (nfld (c.arg 8) 23 22 ≠ 1)) (fun c => decide (c.auxAt 2 = 0))
      (fun s c =>
        if c.table.column ∨ 2 ≤ nfld (c.arg 8) 23 22 ∨ c.arg 12 = 0 ∨ 2 ^ 20 < c.arg 12 then s.endCmd p c stUnsupported 0 0
        else s.setAux p c 0 [0, 0, 0, 0, 0, 0])
      (fun s c => s.contribute p c)

/-! ### Applies (R276, R277) -/

/-- A record of the arena that an APPLY takes: its index, row, source node, position and gradients. -/
structure ArenaRec where
  index : Nat
  row : Nat
  source : Nat
  pos : Nat
  grads : List Nat
  poison : Bool
  deriving DecidableEq, Repr

/-- Does list a come before list b, or equal it, in the order of their first difference? -/
def lexLe : List Nat → List Nat → Bool
  | [], _ => true
  | _ :: _, [] => false
  | a :: s, b :: t => decide (a < b) || (decide (a = b) && lexLe s t)

/-- Put a record where the order of R276 has it. -/
def insertRec (x : ArenaRec) : List ArenaRec → List ArenaRec
  | [] => [x]
  | y :: t =>
    if lexLe ([x.source, x.pos] ++ x.grads) ([y.source, y.pos] ++ y.grads) then x :: y :: t else y :: insertRec x t

/-- Records in the order of R276. -/
def sortRecs (l : List ArenaRec) : List ArenaRec := l.foldr insertRec []

/-- The records of one row as PART_ROW_DUP_POS counts them: every one that shares its source and position with another. -/
def sharedRecs (l : List ArenaRec) : Nat :=
  (l.filter (fun x => decide (1 < (l.filter (fun y => decide (y.source = x.source) && decide (y.pos = x.pos))).length))).length

/-- The sums of R276. -/
def sumRecs (n : Nat) (l : List ArenaRec) : List Nat := l.foldl (fun g x => List.zipWith addF32 g x.grads) (List.replicate n 0)

/-- A row's new values (R276). -/
def applyOp (op factor : Nat) (v g : List Nat) : List Nat :=
  match op with
  | 0 => List.zipWith addF32 v g
  | 1 => List.zipWith (fun x y => addF32 x ((ofF32 factor).mul (ofF32 y)).toF32) v g
  | _ => g

/-- Read the headers of an arena's first n records: index, header words, poison. -/
def Work.headers (p : Nat) (c : Cmd) (here : Nat) : List Nat → Work (List (Nat × List Nat × Bool))
  | [] => pure []
  | i :: t => do
    let g ← Work.read (c.agent p) true [(here + c.table.record c.parity i, 64)]
    let l ← Work.headers p c here t
    pure ((i, numWords g.value 16, g.poison) :: l)

/-- Is a header a record this APPLY takes? -/
def Cmd.takes (c : Cmd) (h : Nat × List Nat × Bool) : Bool :=
  recordCommitted h.2.1 && decide (wordAt h.2.1 3 = c.arg 9) && c.table.validRow (wordAt h.2.1 0) && !h.2.2

/-- The phys address of the 8 bytes that hold a row's state, and the place of the state in them (R267). -/
def Cmd.stateAt (c : Cmd) (row : Nat) : Nat × Nat :=
  let o := c.table.stateOff + row / c.table.shards / 4
  (c.hashHome row * 2 ^ 40 + o / 8 * 8, 8 * (o % 8) + 2 * (row / c.table.shards % 4))

/-- Change the state of a row at its hash home by compare-and-swap. Working value 5 holds one more than the 8 bytes expected, or 0 before they are
read. `ok` says of a state whether it may change, `v` what it becomes; `done` follows the swap, `bad` a state that may not change. -/
def State.swapState (s : State) (p : Nat) (c : Cmd) (row : Nat) (ok : Nat → Bool) (v : Nat) (done bad : State → State) : State :=
  let (phys, sh) := c.stateAt row
  match c.auxAt 5 with
  | 0 => s.work do
    let g ← Work.read (c.agent p) true [(phys, 8)]
    if ok (g.value / 2 ^ sh % 4) then Work.next p c c.progress (setVal c.aux 5 (g.value + 1))
    else Work.act (fun s => bad (s.workDone p c))
  | e + 1 =>
    let old := e / 2 ^ sh % 4
    s.cmdAtomic p c phys 0x0C (e - old * 2 ^ sh + v * 2 ^ sh) e fun prior s =>
      if prior = e then done s else s.setAux p c c.progress (setVal c.aux 5 0)

/-- Is a row held still by a migration at its cutover (R283)? -/
def State.rowBlocked (s : State) (p : Nat) (c : Cmd) (row : Nat) : Bool :=
  (s.part p).cmds.any (fun d => decide (d.phase = .running) && decide (d.opcode = 0x12) && decide (d.tableNo = c.tableNo) && decide (d.arg 9 = row)
    && decide (6 ≤ d.auxAt 2) && decide (d.auxAt 2 < 20))

/-- The least of some rows. -/
def leastRow : List Nat → Option Nat
  | [] => none
  | r :: t => match leastRow t with
    | none => some r
    | some m => some (min r m)

/-- Write the row an APPLY has computed where it is, and where it is being copied to (R277, R288). -/
def Work.applyWrite (p : Nat) (c : Cmd) (x : RowPlace) (r : Nat × Bool) : Work Unit := do
  let t := c.table
  Work.act (fun s => if r.2 then (s.count (Reg.PART_ROW_NONFINITE p) 1).pcause p (Reg.PART_ROW_IRQ_CAUSE p) 8 else s)
  Work.act (fun s => (s.rowEvent p c 2 (t.slotAt x.node x.slot)).storeAll (c.agent p) r.1 false [(t.slotAt x.node x.slot, t.rowBytes)])
  match x.state, x.entry with
  | 2, some e =>
    Work.act (fun s => s.storeAll (c.agent p) r.1 false [(t.slotAt (nfld (wordAt e.2 1) 11 0) (wordAt e.2 3), t.rowBytes)])
  | _, _ => pure ()

/-- Apply one row: write it, and say what its state is to become (4: no change). Working values: records discarded, rows applied, stage (0 next
row, 1 change its state, 3 clear its redirect entry, 4 clear its records' headers, 5 finish), whether a line was poisoned, records of the arena, the expected state bytes, the row, the
state it becomes, whether it counts as applied. -/
def Work.applyRow (p : Nat) (c : Cmd) (here row : Nat) (hs : List (Nat × List Nat × Bool)) : Work Unit := do
  let t := c.table
  let op := nfld (c.arg 8) 21 20
  let hs := hs.filter (fun h => decide (wordAt h.2.1 0 = row))
  let recs ← hs.mapM (fun h => do
    let g ← Work.read (c.agent p) true [(here + t.record c.parity h.1 + 64, 4 * t.dim)]
    pure (⟨h.1, row, nfld (wordAt h.2.1 1) 11 0, wordAt h.2.1 2, numWords g.value t.dim, g.poison⟩ : ArenaRec))
  let l := sortRecs recs
  let (x, po) ← Work.resolve p c row true
  let cur ← if op < 2 then Work.readPlace p c x false true else pure ⟨0, false, false⟩
  let poisoned := po || cur.poison || (decide (op ≠ 3) && l.any (·.poison))
  let dup := sharedRecs l
  Work.act (fun s => if dup = 0 then s else s.count (Reg.PART_ROW_DUP_POS p) dup)
  if poisoned then Work.next p c c.progress (setVal (setVal (setVal (setVal c.aux 2 4) 3 1) 6 row) 8 0)
  else
    if op ≠ 3 then
      let v := applyOp op (c.arg 10) (rowElems t.format t.dim cur.data) (sumRecs t.dim l)
      Work.applyWrite p c x (storeRow t (c.arg 9) row v)
    let dest := if op = 3 then (if x.state = 1 then 4 else 1) else if x.state = 1 then 0 else 4
    Work.next p c c.progress
      (setVal (setVal (setVal (setVal (setVal c.aux 2 (if dest = 4 then 4 else 1)) 5 0) 6 row) 7 dest) 8 1)

/-- Write zero headers over records of the arena. -/
def State.zeroHeaders (s : State) (p : Nat) (c : Cmd) (here : Nat) (l : List Nat) : State :=
  l.foldl (fun s i => s.storeAll (c.agent p) 0 false [(here + c.table.record c.parity i, 64)]) s

/-- One row of an APPLY, or one stage of it. -/
def State.applyStep (s : State) (p : Nat) (c : Cmd) : State :=
  let here := s.node * 2 ^ 40
  let n := c.auxAt 4
  let row := c.auxAt 6
  match c.auxAt 2 with
  | 0 => s.work do
    let hs ← Work.headers p c here (List.range n)
    let hs := hs.filter c.takes
    let free ← Work.view (fun s => hs.filter (fun h => !s.rowBlocked p c (wordAt h.2.1 0)))
    match leastRow (free.map (fun h => wordAt h.2.1 0)) with
    | some row => Work.applyRow p c here row hs
    | none =>
      if hs.isEmpty then
        Work.act (fun s => (s.zeroHeaders p c here (List.range n)).storeAll (c.agent p) 0 false [(here + c.table.arena c.parity, 8)])
        Work.next p c c.progress (setVal c.aux 2 5)
      else pure ()
  | 1 =>
    if c.unacked ≠ 0 then s
    else
      let after (s : State) : State := s.setAux p c c.progress (setVal (setVal c.aux 5 0) 2 (if c.auxAt 7 = 1 then 3 else 4))
      s.swapState p c row (fun st => decide (st ≠ c.auxAt 7)) (c.auxAt 7) after after
  | 3 => s.work do
    let es ← Work.redirEntries p c (c.hashHome row) row true
    match findRedir row 1 es with
    | some e => Work.act (fun s => s.storeAll (c.agent p) 0 false [(e.1, 16)])
    | none => pure ()
    Work.next p c c.progress (setVal c.aux 2 4)
  | 4 => s.work do
    Work.settled c
    let hs ← Work.headers p c here (List.range n)
    let mine := (hs.filter (fun h => c.takes h && decide (wordAt h.2.1 0 = row))).map (·.1)
    Work.act (fun s => s.zeroHeaders p c here mine)
    Work.act (fun s => if c.auxAt 8 = 1 then s.count (Reg.ROW_APPLIED c.runUnit) 1 else s)
    Work.next p c (c.progress + 1) (setVal (setVal c.aux 2 0) 1 (c.auxAt 1 + c.auxAt 8))
  | _ => s.rowEnd p c (poisonStatus (c.auxAt 3))

/-- The first presentation of an APPLY: the records that are not of its step are counted (R276). -/
def State.applyStart (s : State) (p : Nat) (c : Cmd) : State :=
  if c.table.column then s.endCmd p c stUnsupported 0 0
  else s.work do
    let here ← Work.view (fun s => s.node * 2 ^ 40)
    let g ← Work.read (c.agent p) true [(here + c.table.arena c.parity, 8)]
    let n := min g.value c.table.arenaRecords
    let hs ← Work.headers p c here (List.range n)
    let stray := (hs.filter (fun h => !c.takes h)).length
    let po := hs.any (fun h => h.2.2)
    Work.act (fun s => if stray = 0 then s else (s.count (Reg.PART_ROW_STRAY p) stray).pcause p (Reg.PART_ROW_IRQ_CAUSE p) 2)
    if g.poison then Work.act (fun s => s.endCmd p c stPoison 0 0)
    else Work.next p c 0 [stray, 0, 0, if po then 1 else 0, n, 0, 0, 0, 0]

/-- APPLY (R276). -/
def execApply (p : Fin 32) (chute : Fin 64) (seq : Word) (s : State) : Res :=
  act s fun s =>
    let p := p.val
    s.rowStep p chute.val seq.toNat 0x05 (fun c => decide (nfld (c.arg 8) 23 22 = 1)) (fun c => decide (c.auxAt 2 = 0))
      (fun s c => s.applyStart p c) (fun s c => s.applyStep p c)

/-! ### Forwarding (R284) -/

/-- On whose behalf a forward is made: the partition's, in the table's composition. -/
def State.fwdAgent (s : State) (f : Forward) (t : Table) : Agent :=
  { p := f.part, chute := 0, seq := 0, comp := t.compId, epoch := ((s.comp t.compId).map (·.epoch)).getD 0, waiter := .fwd f.id }

/-- A forward is over: the local header is zeroed and the writer acknowledged. -/
def State.endForward (s : State) (f : Forward) : State :=
  let w := Waiter.fwd f.id
  let s : State := { s with forwards := s.forwards.filter (fun g => !decide (g.id = f.id)) }
  let s := s.modFab (fun x => { x with arrivals := x.arrivals.filter (fun a => !decide (a.waiter = w)) })
  (s.t1Put f.req.line fullMask 0 false).ackNow f.req none

/-- A forward finds the arena full, or its target lost: the record is dropped, counted, reported (R284). -/
def State.dropForward (s : State) (f : Forward) (row step : Nat) : State :=
  let s := ((s.count (Reg.PART_ROW_FWD_DROP f.part) 1).pcause f.part (Reg.PART_ROW_IRQ_CAUSE f.part) 16)
  (s.report 3 0x0041 15 f.part (some f.part) 0 [f.table, row, step]).endForward f

/-- Change a forward. -/
def State.modForward (s : State) (id : Nat) (g : Forward → Forward) : State :=
  { s with forwards := s.forwards.map (fun f => if f.id = id then g f else f) }

/-- What the forward waits for has been asked for and is not back. -/
def State.fwdWaits (s : State) (id : Nat) : Bool :=
  s.fab.reqs.any (fun r => decide (r.waiter = .fwd id)) || s.fab.stalled.any (fun r => decide (r.waiter = .fwd id))

/-- ARENA_RECORD_FORWARD (R284): the next stage of a record's copy to the current home. -/
def execArenaRecordForward (id : Nat) (s : State) : Res :=
  act s fun s =>
    match s.forwards.find? (fun f => decide (f.id = id)) with
    | none => s
    | some f =>
      let t := s.tableNow f.part f.table
      let ag := s.fwdAgent f t
      let hdr := s.t1Words (64 * f.req.line) 16
      let rec_ := f.node * 2 ^ 40 + t.record f.parity f.index
      let back := s.fab.arrivals.filter (fun a => decide (a.waiter = .fwd id))
      let clear (s : State) : State := s.modFab (fun x => { x with arrivals := x.arrivals.filter (fun a => !decide (a.waiter = .fwd id)) })
      let send (s : State) (ls : List (Nat × Nat)) : State :=
        ls.foldl (fun s l => s.unitSend { ag.writeReq l.1 fullMask l.2 false with waiter := .fwd id }) s
      if s.fwdWaits id then s
      else if back.any (fun a => decide (a.status ≠ 0)) then s.dropForward f (wordAt hdr 0) (wordAt hdr 3)
      else match f.stage with
        | 0 =>
          match back with
          | [] => s.unitSend (ag.atomReq (f.node * 2 ^ 40 + t.arena f.parity) 0x02 1 0)
          | x :: _ =>
            if t.arenaRecords ≤ x.value then s.dropForward f (wordAt hdr 0) (wordAt hdr 3)
            else
              let lines := (List.range (t.dim / 16)).map (fun i => (f.node * 2 ^ 40 + t.record f.parity x.value + 64 + 64 * i,
                s.t1Read (64 * f.req.line + 64 + 64 * i) 64))
              send ((clear s).modForward id (fun f => { f with stage := 1, index := x.value })) lines
        | 1 => send ((clear s).modForward id (fun f => { f with stage := 2 })) [(rec_, wordsNum hdr 0 16)]
        | _ => (s.count (Reg.PART_ROW_FWD f.part) 1).endForward f

end Sys2Proof.Machine
end

