-- ==== Sys2Proof/Machine/RowMove.lean ====
section
/-! DEFINITION. Row commands that move rows (R281 to R283, R286, R287): hot sets, migration, the column split; the lapse of DEPARTED entries;
quarantine of row units (R289). -/

namespace Sys2Proof.Machine

/-! ### The column split (R286, R287) -/

/-- The table as EMB_CONVERT will leave it. -/
def Cmd.newTable (c : Cmd) : Table :=
  { c.table with column := decide (nfld (c.arg 8) 23 23 = 1), region := c.arg64 9, homeSlots := c.arg 11, generation := (c.table.generation + 1) % 2 ^ 32 }

/-- This node's place in the shard list; none where it has none. -/
def State.shardPlace (s : State) (c : Cmd) : Option Nat := (List.range c.table.shards).find? (fun i => decide (c.shard i = s.node))

/-- The row whose data slot k of this node holds in the HASHED layout. -/
def hashedRow (t : Table) (place k : Nat) : Option Nat :=
  let row := k * t.shards + (place + t.shards - rowRotation k % t.shards) % t.shards
  if t.validRow row then some row else none

/-- Slots of the new layout to look at. -/
def Cmd.newSlots (c : Cmd) : Nat := if c.newTable.column then c.table.rowCount else (c.table.rowCount + c.table.shards - 1) / c.table.shards

/-- Slice i of a row's bytes: FP16 elements, or scale and offset and its codes (R286). -/
def rowSlice (t : Table) (i data : Nat) : Nat :=
  let n := t.dim / t.shards
  if t.format = 0 then data / 2 ^ (16 * n * i) % 2 ^ (16 * n)
  else
    let w := n * (if t.format = 1 then 8 else 4)
    data % 2 ^ 32 + 2 ^ 32 * (data / 2 ^ 32 / 2 ^ (w * i) % 2 ^ w)

/-- One slot of the new layout, or the descriptor's change. Working values: slots written, whether a line was poisoned, stage (0 slots, 1 state and
redirects, 2 the descriptor, 3 the end). -/
def Work.convert (p : Nat) (c : Cmd) (place : Option Nat) (here dirBase : Nat) : Work Unit := do
  let t := c.table
  let u := c.newTable
  let k := c.progress
  match c.auxAt 2 with
  | 0 =>
    let row := match place with
      | none => none
      | some i => if u.column then some k else hashedRow t i k
    match row with
    | none => Work.next p c (k + 1) c.aux
    | some row =>
      let r ← if t.column then Work.readColumn p c row true
        else do
          let (x, po) ← Work.resolve p c row true
          Work.readPlace p c x po true
      let data := if u.column then rowSlice t (place.getD 0) r.data else r.data
      Work.act (fun s => (s.rowEvent p c 2 (u.slotAt 0 k + here)).storeAll (c.agent p) data r.poison [(u.slotAt 0 k + here, u.slotBytes)])
      Work.next p c (k + 1) (setVal (setVal c.aux 0 (c.auxAt 0 + 1)) 1 (if r.poison then 1 else c.auxAt 1))
  | 1 =>
    Work.act (fun s => if u.column then s
      else s.storeAll (c.agent p) 0 false [(here + t.stateOff, (u.homeSlots + 3) / 4), (here + t.redirOff, 16 * 2 ^ t.redirLog2)])
    Work.next p c k (setVal c.aux 2 2)
  | _ =>
    Work.settled c
    let w0 := wordAt (c.inputs.headD []) 0
    let words := [w0 - nfld w0 25 25 * 2 ^ 25 + (if u.column then 2 ^ 25 else 0), u.generation, u.region % 2 ^ 32, u.region / 2 ^ 32, u.homeSlots]
    let at_ := here + dirBase + 128 * c.tableNo
    Work.act (fun s => s.storeAll (c.agent p) (wordsNum words 0 5) false [(at_, 4), (at_ + 12, 16)])
    Work.next p c k (setVal c.aux 2 3)

/-- EMB_CONVERT (R287). -/
def execEmbConvert (p : Fin 32) (chute : Fin 64) (seq : Word) (s : State) : Res :=
  act s fun s =>
    let p := p.val
    s.rowStep p chute.val seq.toNat 0x06 (fun _ => true) (fun c => decide (c.auxAt 2 = 0))
      (fun s c =>
        if c.newTable.column = c.table.column then s.endCmd p c stOk 0 0
        else if !c.newTable.ok then s.endCmd p c stUnsupported 0 0
        else s.setAux p c 0 [0, 0, 0])
      (fun s c =>
        if c.auxAt 2 = 3 then s.rowEnd p c (poisonStatus (c.auxAt 1))
        else if c.auxAt 2 = 0 ∧ c.newSlots ≤ c.progress then s.setAux p c c.progress (setVal c.aux 2 1)
        else s.work (Work.convert p c (s.shardPlace c) (s.node * 2 ^ 40) ((s.part p).ring dirRing).range.base))

/-! ### Hot sets (R281) -/

/-- One position of a refresh, or its index entry. Working values: positions skipped, rows copied, stage (0 copy, 1 index entry), whether a line
was poisoned. -/
def Work.refresh (p : Nat) (c : Cmd) : Work Unit := do
  let t := c.table
  let k := c.progress
  let skip (aux : List Nat) : Work Unit := Work.next p c (k + 1) (setVal aux 0 (c.auxAt 0 + 1))
  let g ← Work.readVa c p true (t.hotListVa + 4 * k) 4
  let row := g.value
  let (es, po) ← Work.hotEntries p c row
  let place := match es.find? (fun e => decide (e.2.1 = row) && decide (nfld e.2.2 31 31 = 1)) with
    | some e => some e
    | none => es.find? (fun e => decide (nfld e.2.2 31 31 = 0))
  match place with
  | none => skip c.aux
  | some e =>
    if g.poison || po then skip (setVal c.aux 3 1)
    else if !t.validRow row then skip c.aux
    else if c.auxAt 2 = 0 then
      let (x, po) ← Work.resolve p c row true
      let r ← Work.readPlace p c x po true
      if r.poison then skip (setVal c.aux 3 1)
      else if r.default then skip c.aux
      else
        Work.writeVa c p (t.hotDataVa + k * t.rowBytes) t.rowBytes r.data false
        Work.next p c k (setVal c.aux 2 1)
    else
      Work.settled c
      Work.writeVa c p e.1 8 (row + 2 ^ 32 * (2 ^ 31 + k)) false
      Work.next p c (k + 1) (setVal (setVal c.aux 2 0) 1 (c.auxAt 1 + 1))

/-- HOTSET_REFRESH (R281). -/
def execHotsetRefresh (p : Fin 32) (chute : Fin 64) (seq : Word) (s : State) : Res :=
  act s fun s =>
    let p := p.val
    s.rowStep p chute.val seq.toNat 0x11 (fun _ => true) (fun c => decide (c.auxAt 2 = 0))
      (fun s c =>
        let t := c.table
        let mode := c.arg 8 % 4
        if mode = 3 ∨ t.column ∨ (mode = 0 ∧ t.cache ≠ 2) ∨ (mode = 1 ∧ t.cache ≠ 1) then s.endCmd p c stUnsupported 0 0
        else if t.cache = 1 then (s.cribDrop p (some c.tableNo)).endCmd p c stOk 0 0
        else if t.cache = 0 then s.endCmd p c stOk 0 0
        else s.work do
          Work.writeVa c p t.hotIndexVa (8 * 2 ^ t.hotLog2) 0 false
          Work.next p c 0 [0, 0, 0, 0])
      (fun s c =>
        if c.table.hotCount ≤ c.progress then s.rowEnd p c (poisonStatus (c.auxAt 3))
        else if c.unacked ≠ 0 then s
        else s.work (Work.refresh p c))

/-! ### Migration (R282, R283) -/

/-- The destination node of a migration. -/
def Cmd.migNode (c : Cmd) : Nat := c.arg 10 % 4096
/-- The row of a migration. -/
def Cmd.migRow (c : Cmd) : Nat := c.arg 9
/-- The destination slot: a row that goes back to its hash home goes to its hash slot. -/
def Cmd.migSlot (c : Cmd) : Nat := if c.migNode = c.hashHome c.migRow then c.migRow / c.table.shards else c.arg 11

/-- Is the destination one that R282 allows? -/
def Cmd.migPlaceOk (c : Cmd) : Bool :=
  let t := c.table
  !t.column && (List.range t.shards).any (fun i => decide (c.shard i = c.migNode))
    && (decide (c.migNode = c.hashHome c.migRow) || (decide (t.homeSlots ≤ c.arg 11) && decide (c.arg 11 < t.homeSlots + t.migrantSlots)))

/-- The words of a redirect entry, as a number. -/
def redirWords (row kind cur dest slot destSlot : Nat) : Nat := wordsNum [row, kind * 2 ^ 30 + cur * 2 ^ 12 + dest, slot, destSlot] 0 4

/-- A free entry of a window. -/
def freeRedir (l : List (Nat × List Nat)) : Option (Nat × List Nat) := l.find? (fun e => decide (nfld (wordAt e.2 1) 31 30 = 0))

/-- The checks of R282, lowest code first (R58), and the entries a migration will use. Working values: address of the REDIRECT entry, slot of the
current home, stage (1 swap to COPYING and mark the entry, 3 copy, 4 quiet, 6 block applies and write the entry, 7 swap the state, 8 clear or add
entries, 9 the end; 20 swap back, 21 mend the entry, 22 the end of an undone one), whether the row was MOVED, address of the DEPARTED entry at A,
expected state bytes, status and detail of an undone one. -/
def Work.migrateStart (p : Nat) (c : Cmd) : Work Unit := do
  let row := c.migRow
  let here ← Work.view (fun s => s.node)
  let finish (st d : Nat) : Work Unit := Work.act (fun s => s.endCmd p c st 0 d)
  if c.table.column then finish stUnsupported 0
  else if !c.table.validRow row then finish stStaleEpoch 2
  else
    let home := c.hashHome row
    let (x, _) ← Work.resolve p c row true
    if x.node ≠ here then finish stStaleEpoch 1
    else if x.state = 1 ∨ x.state = 2 then finish stStaleEpoch 2
    else if !c.migPlaceOk then finish stUnsupported 0
    else if c.migNode = here then finish stOk 0
    else
      let es ← Work.redirEntries p c home row true
      let ds ← Work.redirEntries p c here row true
      let entry := match x.entry with
        | some e => some e
        | none => freeRedir es
      let gone := if here = home then some (0, []) else match findRedir row 2 ds with
        | some e => some e
        | none => freeRedir ds
      match entry, gone with
      | some e, some d => Work.next p c 0 [e.1, x.slot, 1, if x.state = 3 then 1 else 0, d.1, 0, 0, 0]
      | _, _ => finish stReservation 0

/-- Does either arena of this node hold a committed record of the row (R283)? -/
def Work.arenasQuiet (p : Nat) (c : Cmd) (here : Nat) : Work Bool := do
  let busy ← [0, 1].mapM (fun par => do
    let g ← Work.read (c.agent p) true [(here + c.table.arena par, 8)]
    let hs ← (List.range (min g.value c.table.arenaRecords)).mapM (fun i => Work.read (c.agent p) true [(here + c.table.record par i, 64)])
    pure (hs.any (fun h => recordCommitted (numWords h.value 16) && decide (h.value % 2 ^ 32 = c.migRow))))
  pure (!busy.any id)

/-- Is an APPLY of the partition at work on the row? -/
def State.applying (s : State) (p : Nat) (c : Cmd) : Bool :=
  (s.part p).cmds.any (fun d => decide (d.phase = .running) && decide (d.opcode = 0x05) && decide (nfld (d.arg 8) 23 22 = 1)
    && decide (d.tableNo = c.tableNo) && decide (d.auxAt 2 ≠ 0) && decide (d.auxAt 6 = c.migRow))

/-- A stage of a migration before the cutover, or of undoing one. -/
def State.migrateStep (s : State) (p : Nat) (c : Cmd) : State :=
  let t := c.table
  let row := c.migRow
  let here := s.node * 2 ^ 40
  let dest (n : Nat) : List Nat := setVal (setVal c.aux 2 n) 5 0
  let entry (w : Nat) (s : State) : State := s.storeAll (c.agent p) w false [(c.auxAt 0, 16)]
  let prior := if c.auxAt 3 = 1 then 3 else 0
  match c.auxAt 2 with
  | 1 => s.swapState p c row (fun st => decide (st = prior)) 2
      (fun s => (entry (redirWords row 1 s.node c.migNode (c.auxAt 1) c.migSlot) s).setAux p c 0 (dest 3)) (fun s => s.endCmd p c stStaleEpoch 0 2)
  | 3 => if c.unacked ≠ 0 then s else s.work do
      let g ← Work.read (c.agent p) true [(here + t.slotAt 0 (c.auxAt 1), t.rowBytes)]
      Work.act (fun s => (s.rowEvent p c 2 (t.slotAt c.migNode c.migSlot)).storeAll (c.agent p) g.value g.poison [(t.slotAt c.migNode c.migSlot, t.rowBytes)])
      Work.next p c 0 (dest 4)
  | 4 => s.work do
      Work.settled c
      let quiet ← Work.arenasQuiet p c here
      let busy ← Work.view (fun s => s.applying p c)
      if quiet && !busy then Work.next p c 0 (dest 6) else pure ()
  | 20 => if c.unacked ≠ 0 then s
    else s.swapState p c row (fun st => decide (st = 2)) prior (fun s => s.setAux p c 0 (dest 21)) (fun s => s.setAux p c 0 (dest 21))
  | 21 => (entry (if prior = 3 then redirWords row 1 s.node 0 (c.auxAt 1) 0 else 0) s).setAux p c 0 (dest 22)
  | 22 => if c.unacked ≠ 0 then s else s.endCmd p c (c.auxAt 6) 0 (c.auxAt 7)
  | _ => s

/-- Undo step 1 and end with a status and detail (R283). -/
def State.migrateUndo (s : State) (p : Nat) (c : Cmd) (status detail : Nat) : State :=
  s.setAux p c 0 (setVal (setVal (setVal (setVal c.aux 2 20) 5 0) 6 status) 7 detail)

/-- MIGRATE_ROW (R282, R283): steps 1 to 3. Once the state is COPYING, an abort, a deadline that passes while it waits for quiet, or a mark for
quarantine undoes step 1. -/
def execMigrateRow (p : Fin 32) (chute : Fin 64) (seq : Word) (s : State) : Res :=
  act s fun s =>
    let p := p.val
    match s.cmd p chute.val seq.toNat with
    | none => s
    | some c =>
      let st := c.auxAt 2
      if c.opcode ≠ 0x12 ∨ c.phase ≠ .running ∨ (6 ≤ st ∧ st < 20) then s
      else if c.aux.isEmpty then
        if c.mustStop then s.endCmd p c stAborted 0 0
        else if s.marked .row c.runUnit then s
        else if s.converting p c then s.endCmd p c stStaleEpoch 0 0
        else if !c.table.ok then s.endCmd p c stUnsupported 0 0
        else s.work (Work.migrateStart p c)
      else if 2 ≤ st ∧ st < 6 ∧ c.mustStop then s.migrateUndo p c stAborted 0
      else if 2 ≤ st ∧ st < 6 ∧ s.marked .row c.runUnit then s.migrateUndo p c stUnsupported 0x82
      else if st = 4 ∧ c.deadline ≠ 0 ∧ c.deadline < s.lcc then s.migrateUndo p c stDeadline 0
      else s.migrateStep p c

/-- How long a DEPARTED entry lives (R288). -/
def State.migGrace (s : State) (p : Nat) : Nat := min 0x7FFFFFFF (max (s.regN (Reg.PART_ROW_MIG_GRACE p)) (3 * s.regN Reg.SW_REQ_TIMEOUT))

/-- MIGRATE_CUTOVER (R283): steps 4 and 5. -/
def execMigrateCutover (p : Fin 32) (chute : Fin 64) (seq : Word) (s : State) : Res :=
  act s fun s =>
    let p := p.val
    match s.cmd p chute.val seq.toNat with
    | none => s
    | some c =>
      let row := c.migRow
      let here := s.node * 2 ^ 40
      let home := c.hashHome row
      let back := decide (c.migNode = home)
      let dest (n : Nat) : List Nat := setVal (setVal c.aux 2 n) 5 0
      if c.opcode ≠ 0x12 ∨ c.phase ≠ .running then s
      else match c.auxAt 2 with
        | 6 => s.work do
          let quiet ← Work.arenasQuiet p c here
          if !quiet then Work.next p c 0 (dest 4)
          else
            if !back then Work.act (fun s => s.storeAll (c.agent p) (redirWords row 1 c.migNode 0 c.migSlot 0) false [(c.auxAt 0, 16)]) else pure ()
            Work.next p c 0 (dest 7)
        | 7 =>
          if c.unacked ≠ 0 then s
          else s.swapState p c row (fun st => decide (st = 2)) (if back then 0 else 3) (fun s => s.setAux p c 0 (dest 8)) (fun s => s.setAux p c 0 (dest 8))
        | 8 => s.work do
          let ds ← Work.redirEntries p c c.migNode row true
          if back then Work.act (fun s => s.storeAll (c.agent p) 0 false [(c.auxAt 0, 16)]) else pure ()
          match findRedir row 2 ds with
          | some e => Work.act (fun s => s.storeAll (c.agent p) 0 false [(e.1, 16)])
          | none => pure ()
          Work.act (fun s => if s.node = home then s
            else s.storeAll (c.agent p) (redirWords row 2 c.migNode 0 c.migSlot ((s.lcc + s.migGrace p) % 2 ^ 32)) false [(c.auxAt 4, 16)])
          Work.next p c 0 (dest 9)
        | 9 =>
          if c.unacked ≠ 0 then s
          else
            let (v, s) := (s.count (Reg.ROW_MIGRATED c.runUnit) 1).draw
            s.endCmd p c stOk v 0
        | _ => s

/-- DEPARTED_LAPSE (R268): entry i of a table's redirect table on this node is DEPARTED and its time has come: it is emptied. -/
def execDepartedLapse (p : Fin 32) (t : Fin 256) (i : Fin 1048576) (s : State) : Res :=
  act s fun s =>
    let d := s.tableNow p.val t.val
    let a := d.redirOff + 16 * i.val
    let e := s.t1Words a 4
    if !((s.part p.val).ring dirRing).ready || !d.ok || decide (2 ^ d.redirLog2 ≤ i.val) || decide (nfld (wordAt e 1) 31 30 ≠ 2)
        || !serialLe (wordAt e 3) (s.lcc % 2 ^ 32) then s
    else s.request (HomeReq.store .device (a / 64) ((2 ^ 16 - 1) * 2 ^ (a % 64)) 0 false)

/-! ### Quarantine (R289) -/

/-- ROW_QUARANTINE (R289). -/
def execRowQuarantine (rq : Requester) (i : Fin 16) (v : Word) (s : State) : Res := act s fun s => s.writeQuarantine rq .row i.val v

/-- ROW_UNQUARANTINE (R289). -/
def execRowUnquarantine (rq : Requester) (i : Fin 16) (v : Word) (s : State) : Res := act s fun s => s.writeUnquarantine rq .row i.val v

end Sys2Proof.Machine
end

