-- ==== Sys2Proof/Machine/WinOps.lean ====
section
/-! DEFINITION. Vector indexes (R291 to R303, R310): descriptors, where blocks, records and vectors stand, epochs, scores and sketches, allocation. -/

namespace Sys2Proof.Machine

/-! ### A loaded index (R292, R293) -/

/-- The metric: 0 IP, 1 COS, 2 L2. -/
def VecIndex.metric (x : VecIndex) : Nat := nfld (wordAt x.words 0) 27 26
/-- The vector format: 0 FP16, 1 BF16, 2 E4M3, 3 E5M2. -/
def VecIndex.vformat (x : VecIndex) : Nat := nfld (wordAt x.words 0) 25 23
/-- The sketch length S. -/
def VecIndex.sketch (x : VecIndex) : Nat := 256 * 2 ^ nfld (wordAt x.words 0) 22 21
/-- Are vectors in the Loft? -/
def VecIndex.inLoft (x : VecIndex) : Bool := decide (nfld (wordAt x.words 0) 20 20 = 1)
/-- Are centroids in T0? -/
def VecIndex.centroidsT0 (x : VecIndex) : Bool := decide (nfld (wordAt x.words 0) 19 19 = 1)
/-- The dimension D. -/
def VecIndex.dim (x : VecIndex) : Nat := 64 * (nfld (wordAt x.words 0) 5 0 + 1)
/-- Coarse partitions C. -/
def VecIndex.cparts (x : VecIndex) : Nat := nfld (wordAt x.words 1) 16 0
/-- Blocks of the pool. -/
def VecIndex.blocks (x : VecIndex) : Nat := wordAt x.words 10
/-- log2 of the map's entries. -/
def VecIndex.mapLog2 (x : VecIndex) : Nat := nfld (wordAt x.words 17) 4 0
/-- Bits of an element. -/
def VecIndex.elemBits (x : VecIndex) : Nat := if x.vformat < 2 then 16 else 8
/-- Bytes of a vector. -/
def VecIndex.vbytes (x : VecIndex) : Nat := x.dim * (x.elemBits / 8)
/-- Bytes of a sketch block (R295). -/
def VecIndex.blockBytes (x : VecIndex) : Nat := 5184 + 32 * x.sketch

/-- Where coarse-partition entry c stands. -/
def VecIndex.cpartAt (x : VecIndex) (c : Nat) : Nat := pairAt x.words 4 + 32 * c
/-- Where hyperplane j stands. -/
def VecIndex.hyperAt (x : VecIndex) (j : Nat) : Nat := pairAt x.words 6 + j * x.vbytes
/-- Where block b stands. -/
def VecIndex.blockAt (x : VecIndex) (b : Nat) : Nat := pairAt x.words 8 + b * x.blockBytes
/-- Where the vector of record i of block b stands among the vector blocks (R296). -/
def VecIndex.vecAt (x : VecIndex) (b i : Nat) : Nat := pairAt x.words 11 + (b * 256 + i) * x.vbytes
/-- Where it stands in the open area of its coarse partition and parity. -/
def VecIndex.openAt (x : VecIndex) (c seq i : Nat) : Nat := pairAt x.words 13 + ((c * 2 + seq % 2) * 256 + i) * x.vbytes
/-- Where map entry n stands. -/
def VecIndex.mapAt (x : VecIndex) (n : Nat) : Nat := pairAt x.words 15 + 16 * n

/-- No block. -/
def noBlock : Nat := 0xFFFFFFFF
/-- The sentinel ID. -/
def noId : Nat := 0xFFFFFFFFFFFF

/-- The probe window of a vector ID (R297). -/
def VecIndex.mapWindow (x : VecIndex) (id : Nat) : List Nat :=
  let h := ((id % 2 ^ 32) ^^^ (id / 2 ^ 32 % 2 ^ 16 * 0x9E3779B1 % 2 ^ 32)) * 2654435761 % 2 ^ 32
  (List.range 8).map (fun i => (h / 2 ^ (32 - x.mapLog2) + i) % 2 ^ x.mapLog2)

/-- The key of a block, and of an open area, among what the index has stopped using. -/
def blockKey (b : Nat) : Nat := 2 * b
def openKey (c seq : Nat) : Nat := 2 * (2 * c + seq % 2) + 1

/-- Index i of partition p. -/
def State.index (s : State) (p i : Nat) : Option VecIndex := Tbl.get (fun _ => none) s.indexes (64 * p + i)

/-- Set or drop it. -/
def State.setIndex (s : State) (p i : Nat) (x : Option VecIndex) : State :=
  { s with indexes := Tbl.set (fun _ => none) s.indexes (64 * p + i) x }

/-- The index a command names. -/
def Cmd.indexNo (c : Cmd) : Nat := nfld (c.arg 8) 31 26

/-- Change the index a command names, if it is loaded. -/
def State.modIndex (s : State) (p : Nat) (c : Cmd) (f : VecIndex → VecIndex) : State :=
  match s.index p c.indexNo with
  | some x => s.setIndex p c.indexNo (some (f x))
  | none => s

/-- The index, where the command may act on it (R291, R292). -/
def State.indexOf (s : State) (p : Nat) (c : Cmd) : Option VecIndex :=
  match s.index p c.indexNo with
  | some x => (match x.unloadAt with | some n => if c.ord < n then some x else none | none => some x)
  | none => none

/-- The hub's words 20 to 25. -/
def VecIndex.hubWords (x : VecIndex) : List Nat := [x.pub, x.floor, x.nextUnused, x.freeHead, x.freeCount, x.oldest]

/-- Write words 20 to 25 back to the descriptor (R292). -/
def State.indexBack (s : State) (p i : Nat) : State :=
  match s.index p i with
  | some x => s.postBytes .device (x.dirAt + 128 * i + 80) 24 (wordsNum x.hubWords 0 6) false
  | none => s

/-- Change hub words, and write them back. -/
def State.modHub (s : State) (p : Nat) (c : Cmd) (f : VecIndex → VecIndex) : State := (s.modIndex p c f).indexBack p c.indexNo

/-! ### Epochs (R298, R299) -/

/-- Is a record visible at an epoch? -/
def visibleAt (qe ins del : Nat) : Bool :=
  decide (ins ≠ 0) && (decide (ins = qe) || epochOlder ins qe) && (decide (del = 0) || epochOlder qe del)

/-- The oldest of some stamps. -/
def oldestOf : List Nat → Option Nat
  | [] => none
  | a :: t => match oldestOf t with
    | none => some a
    | some b => some (if epochOlder b a then b else a)

/-! ### Vectors, scores, sketches (R302, R303) -/

/-- The value of an element code. -/
def VecIndex.elem (x : VecIndex) (v : Nat) : FVal :=
  match x.vformat with
  | 0 => FVal.ofBits 5 10 v
  | 1 => FVal.ofBits 8 7 v
  | 2 => elemVal fmE4m3 v
  | _ => elemVal fmE5m2 v

/-- The values of a stored vector. -/
def VecIndex.vector (x : VecIndex) (v : Nat) : List FVal :=
  (List.range x.dim).map (fun e => x.elem (v / 2 ^ (x.elemBits * e) % 2 ^ x.elemBits))

/-- The negative of a value. -/
def FVal.negate : FVal → FVal
  | .nan => .nan
  | .inf n => .inf (!n)
  | .fin n d => .fin (!n) d.neg

/-- Sums of terms over blocks of 32, joined by the tree. -/
def blockTerms (a b : List FVal) : Nat :=
  reduceTree ((List.range ((a.length + 31) / 32)).map (fun k => (blockSum false 0 [] ((a.drop (32 * k)).take 32) ((b.drop (32 * k)).take 32)).toF32))

/-- The inner product. -/
def ipScore (q v : List FVal) : Nat := blockTerms q v
/-- The squared distance. -/
def l2Score (q v : List FVal) : Nat :=
  let d := List.zipWith (fun a b => FVal.add a b.negate) q v
  blockTerms d d
/-- The norm. -/
def normOf (q : List FVal) : Nat := (fpSqrt 0 0 (blockTerms q q)).1
/-- −0 is written +0. -/
def plusZero (v : Nat) : Nat := if v = 2 ^ 31 then 0 else v

/-- The score of a vector for a query. -/
def VecIndex.score (x : VecIndex) (q v : List FVal) : Nat :=
  match x.metric with
  | 2 => plusZero (l2Score q v)
  | 1 => plusZero (fpDiv 0 0 (ipScore q v) (normOf q)).1
  | _ => plusZero (ipScore q v)

/-- The score by which centroids are ranked (R313). -/
def VecIndex.centroidScore (x : VecIndex) (q v : List FVal) : Nat := if x.metric = 2 then l2Score q v else ipScore q v

/-- An order of FP32 codes as integers. -/
def f32Rank (v : Nat) : Int := if v < 2 ^ 31 then (v : Int) else -((v - 2 ^ 31 : Nat) : Int)

/-- A rank in which the better score is less; NaN is last. -/
def VecIndex.rank (x : VecIndex) (v : Nat) : Int :=
  match ofF32 v with
  | .nan => 2 ^ 40
  | _ => if x.metric = 2 then f32Rank v else -f32Rank v

/-- Put an entry into a list that rises by rank and then by number; an equal one stays first. -/
def insertRank {α : Type} (e : Int × Nat × α) : List (Int × Nat × α) → List (Int × Nat × α)
  | [] => [e]
  | y :: t => if e.1 < y.1 ∨ (e.1 = y.1 ∧ e.2.1 < y.2.1) then e :: y :: t else y :: insertRank e t

/-- Sort by rank and then by number. -/
def sortRank {α : Type} (l : List (Int × Nat × α)) : List (Int × Nat × α) := l.foldl (fun acc e => insertRank e acc) []

/-- The sketch of a vector, one bit for each hyperplane. -/
def sketchOf (v : List FVal) (hyper : List (List FVal)) : Nat :=
  hyper.foldr (fun h acc => (match ofF32 (ipScore v h) with
    | .inf n => if n then 0 else 1
    | .fin _ d => if 0 < d.m then 1 else 0
    | .nan => 0) + 2 * acc) 0

/-- Bits in which two sketches of n bits differ. -/
def hamming : Nat → Nat → Nat → Nat
  | 0, _, _ => 0
  | n + 1, a, b => (if a % 2 = b % 2 then 0 else 1) + hamming n (a / 2) (b / 2)

/-- The largest finite magnitude of the vector format. -/
def VecIndex.largest (x : VecIndex) : Dy :=
  match x.vformat with
  | 0 => ⟨65504, 0⟩
  | 1 => largestOf 0
  | 2 => largestOf fmE4m3
  | _ => largestOf fmE5m2

/-- Round an FP32 code to the vector format; answers whether it was clipped (R305). -/
def VecIndex.store (x : VecIndex) (v : Nat) : Nat × Bool :=
  match ofF32 v with
  | .fin n d =>
    let clip := x.largest.lt d.abs
    let m := if clip then x.largest else d.abs
    let code := match x.vformat with
      | 0 => roundMag 11 (-24) m.m.natAbs m.e
      | 1 => roundMag 8 (-133) m.m.natAbs m.e
      | 2 => roundMag 4 (-9) m.m.natAbs m.e
      | _ => roundMag 3 (-16) m.m.natAbs m.e
    ((if n then 2 ^ (x.elemBits - 1) else 0) + code, clip)
  | _ => (0, false)

/-! ### Reading the index -/

/-- Read n bytes of this node's T1. -/
def Work.t1 (p : Nat) (c : Cmd) (o n : Nat) : Work Got := do
  let here ← Work.view (fun s => s.node * 2 ^ 40)
  Work.read (c.agent p) false [(here + o, n)]

/-- Read words of this node's T1. -/
def Work.t1Words (p : Nat) (c : Cmd) (o n : Nat) : Work (List Nat × Bool) := do
  let g ← Work.t1 p c o (4 * n)
  pure (numWords g.value n, g.poison)

/-- Write n bytes of this node's T1. -/
def Work.putT1 (p : Nat) (c : Cmd) (o n v : Nat) : Work Unit :=
  Work.act (fun s => s.storeAll (c.agent p) v false [(s.node * 2 ^ 40 + o, n)])

/-- A block of a chain as a reader finds it: its number, count, sequence, whether it is sealed, and the next. -/
structure BlockHead where
  block : Nat
  count : Nat
  cpart : Nat
  seq : Nat
  sealed : Bool
  next : Nat
  deriving DecidableEq, Repr

/-- Read a block's header. -/
def Work.blockHead (p : Nat) (c : Cmd) (x : VecIndex) (b : Nat) : Work (BlockHead × Bool) := do
  let (w, po) ← Work.t1Words p c (x.blockAt b) 4
  pure (⟨b, min (nfld (wordAt w 1) 8 0) 256, wordAt w 2, wordAt w 3, decide (nfld (wordAt w 1) 31 31 = 1), wordAt w 0⟩, po)

/-- Read the headers of a chain. -/
def Work.chain (p : Nat) (c : Cmd) (x : VecIndex) : Nat → Nat → Work (List BlockHead × Bool)
  | 0, _ => pure ([], false)
  | n + 1, b => do
    if b = noBlock ∨ x.blocks ≤ b then pure ([], false)
    else
      let (h, po) ← Work.blockHead p c x b
      let (t, q) ← Work.chain p c x n h.next
      pure (h :: t, po || q)

/-- A record as a reader finds it. -/
structure VecRecord where
  head : BlockHead
  slot : Nat
  ins : Nat
  del : Nat
  id : Nat
  attr : Nat
  deriving DecidableEq, Repr

/-- The records of a block. -/
def Work.records (p : Nat) (c : Cmd) (x : VecIndex) (h : BlockHead) : Work (List VecRecord × Bool) := do
  let g ← Work.t1 p c (x.blockAt h.block + 64) (16 * h.count)
  let rec_ (i : Nat) : VecRecord :=
    let w := numWords (g.value / 2 ^ (128 * i)) 4
    ⟨h, i, wordAt w 0, wordAt w 1, wordAt w 2 + 2 ^ 32 * nfld (wordAt w 3) 15 0, nfld (wordAt w 3) 31 16⟩
  pure ((List.range h.count).map rec_, g.poison)

/-- The records of some blocks. -/
def Work.allRecords (p : Nat) (c : Cmd) (x : VecIndex) : List BlockHead → Work (List VecRecord × Bool)
  | [] => pure ([], false)
  | h :: t => do
    let (l, po) ← Work.records p c x h
    let (m, q) ← Work.allRecords p c x t
    pure (l ++ m, po || q)

/-- The sketch of a record. -/
def Work.sketchAt (p : Nat) (c : Cmd) (x : VecIndex) (h : BlockHead) (i : Nat) : Work Got :=
  Work.t1 p c (x.blockAt h.block + 5184 + i * (x.sketch / 8)) (x.sketch / 8)

/-- Read a range of the partition's Loft space, block by block: bytes, poison, and the worst status; blocks not there are asked for (R144).
What lies beyond the reservation is a violation and reads as zeros (R66, R141). -/
def Work.loft (p : Nat) (c : Cmd) : Nat → Nat → Nat → Work Got
  | 0, _, _ => pure ⟨0, false, 0⟩
  | fuel + 1, off, n => do
    if n = 0 then pure ⟨0, false, 0⟩
    else
      let base := off / loftBytes * loftBytes
      let m := min n (base + loftBytes - off)
      let key := loftReadKey base
      let w := Waiter.cmd p c.chute c.seq
      let a ← (fun s => match s.fab.arrivals.find? (fun x => decide (x.waiter = w) && decide (x.addr = key)) with
        | some x => .ok (some x, s)
        | none => match s.loftBlock p base with
          | none => .ok (none, s)
          | some b => .error (fun s => s.loftAsk p c key base b none) : Work (Option Arrival))
      let r ← Work.loft p c fuel (off + m) (n - m)
      match a with
      | none => do
        Work.act (fun s => s.violateMem (.unit p c.chute c.seq) false base)
        pure ⟨2 ^ (8 * m) * r.value, r.poison, r.status⟩
      | some x =>
        let o := off - base
        let lines := linesOf o m
        let po := lines.any (fun l => (x.value / 2 ^ 131072).testBit l)
        pure ⟨x.value / 2 ^ (8 * o) % 2 ^ (8 * m) + 2 ^ (8 * m) * r.value, po || r.poison, worseStatus x.status r.status⟩

/-- The vector of a record (R296). -/
def Work.vectorOf (p : Nat) (c : Cmd) (x : VecIndex) (h : BlockHead) (i : Nat) : Work Got :=
  if !x.inLoft then Work.t1 p c (x.vecAt h.block i) x.vbytes
  else if h.sealed then Work.loft p c 3 (x.vecAt h.block i) x.vbytes
  else Work.t1 p c (x.openAt h.cpart h.seq i) x.vbytes

/-- The hyperplanes. -/
def Work.hyperplanes (p : Nat) (c : Cmd) (x : VecIndex) : Nat → Work (List (List FVal) × Bool)
  | 0 => pure ([], false)
  | n + 1 => do
    let g ← Work.t1 p c (x.hyperAt (x.sketch - (n + 1))) x.vbytes
    let (l, po) ← Work.hyperplanes p c x n
    pure (x.vector g.value :: l, g.poison || po)

/-- A map entry: its number and words. -/
abbrev MapEntry := Nat × List Nat

/-- The entries of an ID's window (R297), and whether a line was poisoned. -/
def Work.mapEntries (p : Nat) (c : Cmd) (x : VecIndex) : List Nat → Work (List MapEntry × Bool)
  | [] => pure ([], false)
  | n :: t => do
    let (w, po) ← Work.t1Words p c (x.mapAt n) 4
    let (l, q) ← Work.mapEntries p c x t
    pure ((n, w) :: l, po || q)

/-- Is a map entry in use? -/
def mapValid (w : List Nat) : Bool := decide (nfld (wordAt w 3) 31 31 = 1)
/-- The ID of a map entry. -/
def mapId (w : List Nat) : Nat := wordAt w 0 + 2 ^ 32 * nfld (wordAt w 1) 15 0
/-- The words of a map entry. -/
def mapWords (id cpart block slot : Nat) : List Nat := [id % 2 ^ 32, cpart * 2 ^ 16 + id / 2 ^ 32 % 2 ^ 16, block, 2 ^ 31 + slot]

/-! ### Locks, holds, reuse (R305, R309, R310) -/

/-- Who else has locked a coarse partition: some true, a compaction; some false, an insert. -/
def VecIndex.lockedBy (x : VecIndex) (c : Cmd) (cpart : Nat) : Option Bool :=
  (x.locks.find? (fun l => decide (l.1 = cpart) && !(decide (l.2.1 = c.chute) && decide (l.2.2.1 = c.seq)))).map (fun l => l.2.2.2)

/-- Does another insert hold a map entry? -/
def VecIndex.heldByOther (x : VecIndex) (c : Cmd) (n : Nat) : Bool :=
  x.holds.any (fun h => decide (h.1 = n) && !(decide (h.2.1 = c.chute) && decide (h.2.2 = c.seq)))

/-- Release what a command locks and holds. -/
def VecIndex.letGo (x : VecIndex) (c : Cmd) : VecIndex :=
  { x with locks := x.locks.filter (fun l => !(decide (l.2.1 = c.chute) && decide (l.2.2.1 = c.seq))),
           holds := x.holds.filter (fun h => !(decide (h.2.1 = c.chute) && decide (h.2.2 = c.seq))) }

/-- The queries of an index that run, as their admission number and epoch: a SEARCH keeps both with its working values. -/
def State.queries (s : State) (p i : Nat) : List (Nat × Nat) :=
  ((s.part p).cmds.filter (fun d => decide (d.opcode = 0x07) && decide (d.kind = 0) && decide (d.phase = .running) && decide (d.indexNo = i)
    && decide (d.auxAt 2 = 1))).map (fun d => (d.auxAt 4, d.auxAt 3))

/-- May what the index stopped using be used again: has every query admitted before then completed? -/
def State.reusable (s : State) (p : Nat) (c : Cmd) (x : VecIndex) (key : Nat) : Bool :=
  let n := Tbl.get (fun _ => 0) x.freed key
  (s.queries p c.indexNo).all (fun q => decide (n < q.1))

/-- The index stops using some blocks or areas: the queries admitted by now are remembered. -/
def VecIndex.stopUsing (x : VecIndex) (keys : List Nat) : VecIndex :=
  { x with freed := keys.foldl (fun t k => Tbl.set (fun _ => 0) t k x.admitted) x.freed }

/-- The next n blocks an allocation would take: from the free list first, then those never used; none where there are too few. -/
def Work.nextBlocks (p : Nat) (c : Cmd) (x : VecIndex) : Nat → Nat → Nat → Nat → Work (Option (List Nat × Nat × Nat × Nat))
  | 0, head, count, unused => pure (some ([], head, count, unused))
  | n + 1, head, count, unused => do
    if head ≠ noBlock ∧ count ≠ 0 then
      let (h, _) ← Work.blockHead p c x head
      let r ← Work.nextBlocks p c x n h.next (count - 1) unused
      pure (r.map (fun y => (head :: y.1, y.2)))
    else if unused < x.blocks then
      let r ← Work.nextBlocks p c x n head count (unused + 1)
      pure (r.map (fun y => (unused :: y.1, y.2)))
    else pure none

/-- Take the blocks of an allocation. -/
def VecIndex.took (x : VecIndex) (head count unused : Nat) : VecIndex := { x with freeHead := head, freeCount := count, nextUnused := unused }

end Sys2Proof.Machine
end

