-- ==== Sys2Proof/Machine/Win.lean ====
section
/-! DEFINITION. Vector search (R291, R292, R300 to R322): the index directory, loading and unloading, SEARCH. -/

namespace Sys2Proof.Machine

/-! ### Named addresses (R170, R304, R311) -/

/-- The addresses a search or index command names; they depend on the dimension of the index it names. -/
def State.winNamed (s : State) (p : Nat) (c : Cmd) : List Named :=
  match s.indexOf p c with
  | none => []
  | some x =>
    let item := 64 + 4 * x.dim
    match c.opcode with
    | 0x07 => (List.range (min (c.arg 9) 65536)).flatMap (fun q =>
        [⟨c.arg64 10 + q * item, item, acRead, 0, 0, q⟩, ⟨c.arg64 12 + q * c.arg 14, max 64 (c.arg 14), acWrite, 0, 0, q⟩])
    | 0x08 => (List.range (min (c.arg 9) (2 ^ 20))).map (fun k => ⟨c.arg64 10 + k * item, item, acRead, 0, 0, k⟩)
    | 0x09 => (List.range (min (c.arg 9) (2 ^ 20))).map (fun k => ⟨c.arg64 10 + 8 * k, 8, acRead, 0, 0, k⟩)
    | _ => []

/-! ### Loading (R292) -/

/-- The descriptor at an address of this node, with its hub words. -/
def State.descriptorAt (s : State) (dirAt i : Nat) : VecIndex :=
  let w := s.t1Words (dirAt + 128 * i) 32
  { dirAt := dirAt, words := w.take 20, pub := wordAt w 20, floor := wordAt w 21, nextUnused := wordAt w 22, freeHead := wordAt w 23,
    freeCount := wordAt w 24, oldest := wordAt w 25, openEpoch := nextEpoch (wordAt w 20), closed := [], unloadAt := none, admitted := 0,
    freed := [], seals := [], holds := [], locks := [] }

/-- Is every field in its range? -/
def VecIndex.fieldsOk (x : VecIndex) : Bool :=
  decide (nfld (wordAt x.words 0) 31 31 = 1) && decide (x.metric < 3) && decide (x.vformat < 4) && decide (nfld (wordAt x.words 0) 22 21 < 3)
    && decide (1 ≤ x.cparts) && decide (x.cparts ≤ 65536) && decide (1 ≤ x.blocks) && decide (x.blocks ≤ 0xFFFFFFFE)
    && decide (10 ≤ x.mapLog2) && decide (x.mapLog2 ≤ 31)
    && ([2, 4, 6, 8, 11, 15] ++ (if x.inLoft then [13] else [])).all (fun i => decide (pairAt x.words i < 2 ^ 40))
    && (!x.inLoft || decide (pairAt x.words 11 % loftBytes = 0))

/-- The regions in T1. -/
def VecIndex.regions (x : VecIndex) : List Range :=
  (if x.centroidsT0 then [] else [⟨pairAt x.words 2, x.cparts * x.vbytes⟩])
  ++ [⟨pairAt x.words 4, 32 * x.cparts⟩, ⟨pairAt x.words 6, x.sketch * x.vbytes⟩, ⟨pairAt x.words 8, x.blocks * x.blockBytes⟩,
      ⟨pairAt x.words 15, 16 * 2 ^ x.mapLog2⟩]
  ++ (if x.inLoft then [⟨pairAt x.words 13, x.cparts * 512 * x.vbytes⟩] else [⟨pairAt x.words 11, x.blocks * 256 * x.vbytes⟩])

/-- Do some ranges overlap? -/
def overlapping : List Range → Bool
  | [] => false
  | r :: t => t.any r.meets || overlapping t

/-- Are the regions where they must be? -/
def State.regionsOk (s : State) (p : Nat) (x : VecIndex) : Bool :=
  x.regions.all (s.liveRange p) && !overlapping x.regions
    && (!x.centroidsT0 || (let a := pairAt x.words 2
        let n := x.cparts * x.vbytes
        decide (a + n ≤ Config.t0Bytes) && (List.range ((a + n + 4095) / 4096 - a / 4096)).all (fun g => decide (s.t0Owner (a / 4096 + g) = some p))))
    && (!x.inLoft || decide (pairAt x.words 11 + x.blocks * 256 * x.vbytes ≤ s.loftSize p))

/-- The error code of a load; 0 none. -/
def State.loadError (s : State) (p i : Nat) (x : VecIndex) : Nat :=
  if (s.index p i).isSome then 4
  else if !((s.part p).ring winRing).ready || !x.fieldsOk then 1
  else if !s.regionsOk p x then 2
  else if x.pub = 0 ∨ x.floor = 0 ∨ epochOlder x.pub x.floor then 3
  else 0

/-- Show busy, which stands while a load or unload is in progress. -/
def State.showBusy (s : State) (p : Nat) : State :=
  let busy := s.loading.any (fun l => decide (l.1 = p)) || (List.range 64).any (fun i => match s.index p i with
    | some x => x.unloadAt.isSome
    | none => false)
  s.setRegF (Reg.PART_WIN_IDX_CTRL p) 31 31 (if busy then 1 else 0)

/-- Show whether an index is loaded. -/
def State.showLoaded (s : State) (p i : Nat) (b : Bool) : State :=
  if i < 32 then s.setRegF (Reg.PART_WIN_IDX_LOADED_LO p) i i (if b then 1 else 0)
  else s.setRegF (Reg.PART_WIN_IDX_LOADED_HI p) (i - 32) (i - 32) (if b then 1 else 0)

/-- The lines a load reads: the descriptor's, then the coarse-partition table's. -/
def State.loadLines (s : State) (p i : Nat) : List Nat :=
  let at_ := s.ringBase p winRing + 128 * i
  let x := s.descriptorAt (s.ringBase p winRing) i
  linesOf at_ 128 ++ (if s.loadError p i x = 0 then linesOf (x.cpartAt 0) (32 * x.cparts) else [])

/-- Load an index once the lines it reads can be read; else ask for them and stay busy. -/
def State.load (s : State) (p i : Nat) : State :=
  let ready := (s.part p).ring winRing |>.ready
  let lines := if ready then s.loadLines p i else []
  if !lines.all s.readable then (({ s with loading := (p, i) :: s.loading.erase (p, i) }).wantAll false lines).showBusy p
  else
    let s : State := { s with loading := s.loading.erase (p, i) }
    let x := s.descriptorAt (s.ringBase p winRing) i
    let err := s.loadError p i x
    let s := s.setRegF (Reg.PART_WIN_IDX_CTRL p) 30 28 err
    if err ≠ 0 then s.showBusy p
    else
      let stamps := (List.range x.cparts).map (fun c => s.t1Word (x.cpartAt c + 20))
      let x := { x with oldest := (oldestOf stamps).getD x.pub }
      (((s.setIndex p i (some x)).showLoaded p i true).indexBack p i).showBusy p

/-- Complete the loads that wait for lines (at a tick; log entry 17). -/
def State.finishLoads (s : State) : State := s.loading.foldl (fun s l => s.load l.1 l.2) s

/-- INDEX_LOAD (R292). -/
def execIndexLoad (rq : Requester) (p : Fin 32) (v : Word) (s : State) : Res :=
  act s fun s =>
    let p := p.val
    s.access rq (Reg.PART_WIN_IDX_CTRL p) (fun s =>
      if s.regF (Reg.PART_WIN_IDX_CTRL p) 31 31 = 1 then s
      else (s.store (Reg.PART_WIN_IDX_CTRL p) v).load p (fld v 5 0))

/-- Commands of a partition that name an index and were transferred before a moment. -/
def State.indexUsers (s : State) (p i upto : Nat) : Bool :=
  (s.part p).cmds.any (fun d => decide (d.kind = 0) && decide (0x07 ≤ d.opcode) && decide (d.opcode ≤ 0x0A) && decide (d.indexNo = i)
    && decide (d.ord < upto))

/-- Begin to unload an index: commands transferred from now on are refused. -/
def State.beginUnload (s : State) (p i : Nat) : State :=
  match s.index p i with
  | some x => (s.setIndex p i (some (if x.unloadAt.isSome then x else { x with unloadAt := some (s.part p).nextOrd }))).showBusy p
  | none => s

/-- INDEX_UNLOAD (R292). -/
def execIndexUnload (rq : Requester) (p : Fin 32) (v : Word) (s : State) : Res :=
  act s fun s =>
    let p := p.val
    let a := Reg.PART_WIN_IDX_CTRL p
    s.access rq a (fun s =>
      if s.regF a 31 31 = 1 then s
      else
        let s := s.store a v
        let i := fld v 5 0
        if (s.index p i).isNone then s.setRegF a 30 28 4 else (s.setRegF a 30 28 0).beginUnload p i)

/-- INDEX_UNLOAD_DONE (R292): the commands transferred before have completed. -/
def execIndexUnloadDone (p : Fin 32) (i : Fin 64) (s : State) : Res :=
  act s fun s =>
    let p := p.val
    let i := i.val
    match s.index p i with
    | none => s
    | some x => match x.unloadAt with
      | none => s
      | some n =>
        if s.indexUsers p i n then s else ((((s.indexBack p i).setIndex p i none).showLoaded p i false)).showBusy p

/-- Unload every index of a partition. -/
def State.unloadAll (s : State) (p : Nat) : State := (List.range 64).foldl (fun s i => s.beginUnload p i) s

/-- WIN_DIR_ENABLE (R291, R321): setting enable registers the directory, clearing it unloads every index. -/
def execWinDirEnable (rq : Requester) (p : Fin 32) (v : Word) (s : State) : Res :=
  act s fun s =>
    let p := p.val
    let a := Reg.PART_WIN_DIR_CTRL p
    s.access rq a (fun s =>
      let s := s.store a v
      let ready := ((s.part p).ring winRing).ready
      if !bitOf v 0 then ((s.unloadAll p).modRing p winRing (fun _ => Ring.none)).setRegF a 31 31 0
      else if ready then s
      else
        let r : Range := ⟨s.ringBase p winRing, 0x2000⟩
        s.dirAnswer p winRing a r (s.ringCheck p winRing true 13 13 13 r ⟨0, 0⟩))

/-! ### One presentation of a search or index command -/

/-- The first presentation of a command makes the check every one makes, then `start`; later ones do its work. `stops` says whether it stands at
a boundary, `stopped` ends it there. -/
def State.winStep (s : State) (p chute seq opcode : Nat) (stops : Cmd → Bool) (stopped : State → Cmd → State)
    (start work : State → Cmd → VecIndex → State) : State :=
  s.unitStep p chute seq opcode .win (fun c => c.aux.isEmpty || stops c) stopped fun s c =>
    match s.indexOf p c with
    | none => s.endCmd p c stUnsupported 0 0
    | some x => if c.aux.isEmpty then start s c x else work s c x

/-! ### SEARCH (R311 to R320) -/

/-- A query's header fields (R312). -/
structure Query where
  exact : Bool
  given : Bool
  refill : Bool
  k : Nat
  nprobe : Nat
  limit : Nat
  rerank : Nat
  epoch : Nat
  value : Nat
  mask : Nat
  probeVa : Nat
  elems : List Nat
  deriving DecidableEq, Repr

/-- Read one from its words. -/
def Query.ofWords (dim : Nat) (w : List Nat) : Query :=
  let f := wordAt w
  { exact := decide (nfld (f 0) 18 18 = 1), given := decide (nfld (f 0) 17 17 = 1), refill := decide (nfld (f 0) 16 16 = 1), k := nfld (f 0) 10 0,
    nprobe := nfld (f 1) 16 0, limit := nfld (f 2) 16 0, rerank := nfld (f 3) 12 0, epoch := f 4, value := nfld (f 5) 31 16,
    mask := nfld (f 5) 15 0, probeVa := pairAt w 6, elems := (w.drop 16).take dim }

/-- Is every field in its range (R312)? -/
def Query.ok (x : VecIndex) (stride : Nat) (q : Query) : Bool :=
  let v := q.elems.map ofF32
  decide (1 ≤ q.k) && decide (q.k ≤ 1024) && decide (q.k ≤ q.rerank) && decide (q.rerank ≤ 4096)
    && decide (1 ≤ q.nprobe) && decide (q.nprobe ≤ x.cparts) && decide (q.nprobe ≤ q.limit) && decide (q.limit ≤ x.cparts)
    && decide (q.value &&& q.mask = q.value) && decide (64 + 16 * q.k ≤ stride)
    && v.all (fun e => match e with | .fin _ _ => true | _ => false)
    && (decide (x.metric ≠ 1) || decide (normOf v ≠ 0))

/-- The sentinel's score (R316). -/
def VecIndex.sentinelScore (x : VecIndex) : Nat := if x.metric = 2 then 0x7F800000 else 0xFF800000

/-- A result block: its header, then `k` entries, the valid ones first (R316). -/
def VecIndex.resultBlock (x : VecIndex) (status epoch probes matched k : Nat) (l : List (Nat × Nat)) : List Nat :=
  [min l.length k * 2 ^ 16 + status, epoch, probes, min matched 0xFFFFFFFF] ++ List.replicate 12 0
  ++ ((l.take k).flatMap (fun e => [e.1, 0, e.2 % 2 ^ 32, e.2 / 2 ^ 32]))
  ++ (List.replicate (k - l.length) [x.sentinelScore, 0, 0xFFFFFFFF, 0x0000FFFF]).flatten

/-- A query ends: its result block, its counts. Working values: queries that ended FEWER_RESULTS, worst status, whether the query is admitted, its
epoch, its admission number, whether it has been restarted. -/
def Work.endQuery (p : Nat) (c : Cmd) (x : VecIndex) (status epoch probes matched k : Nat) (l : List (Nat × Nat)) : Work Unit := do
  let ws := x.resultBlock status epoch probes matched k l
  let n := if 64 + 16 * k ≤ c.arg 14 then ws.length else 16
  Work.writeVa c p (c.arg64 12 + c.progress * c.arg 14) (4 * n) (wordsNum ws 0 n) false
  Work.act (fun s =>
    let s := s.count64 (Reg.WIN_QUERIES_LO c.runUnit) 1
    if status = stFewer then s.count (Reg.PART_WIN_FEWER p) 1 else if status = stStaleEpoch then s.count (Reg.PART_WIN_STALE p) 1 else s)
  Work.next p c (c.progress + 1)
    [c.auxAt 0 + (if status = stFewer then 1 else 0), worseStatus (c.auxAt 1) status, 0, 0, 0, 0]

/-- Does the partition hold the exact-search grant (R317, R322)? -/
def State.exactGrant (s : State) (p : Nat) : Bool :=
  let g := Reg.WIN_EXACT_GRANT 0
  (decide (s.regF g 31 31 = 1) && decide (s.regF g 28 24 = p)) || (decide (s.regF g 23 23 = 1) && decide (s.regF g 20 16 = p))

/-- Coarse partitions ranked by their centroids (R313). -/
def Work.rankCentroids (p : Nat) (c : Cmd) (x : VecIndex) (q : List FVal) : Nat → Work (List (Int × Nat × Unit) × Bool)
  | 0 => pure ([], false)
  | n + 1 => do
    let i := x.cparts - (n + 1)
    let a := pairAt x.words 2 + i * x.vbytes
    let g ← if x.centroidsT0 then Work.read (c.agent p) false [(t0Flag + a, x.vbytes)] else Work.t1 p c a x.vbytes
    let (l, po) ← Work.rankCentroids p c x q n
    pure ((x.rank (x.centroidScore q (x.vector g.value)), i, ()) :: l, g.poison || po)

/-- The probe order: none for a bad list. -/
def Work.probeOrder (p : Nat) (c : Cmd) (x : VecIndex) (q : Query) : Work (Option (List Nat) × Bool) := do
  if q.given then
    let g ← Work.readIssued p c (xltUnit p) 0 true q.probeVa (2 * q.limit)
    let l := (List.range q.limit).map (fun i => g.value / 2 ^ (16 * i) % 2 ^ 16)
    pure (if g.poison then some [] else if l.all (fun e => decide (e < x.cparts)) && decide l.Nodup then some l else none, g.poison)
  else
    let (l, po) ← Work.rankCentroids p c x (q.elems.map ofF32) x.cparts
    pure (some ((sortRank l).map (fun e => e.2.1)), po)

/-- What a scan has found: coarse partitions probed, records scanned and matching, candidates in order. -/
structure Scan where
  probes : Nat
  scanned : Nat
  matched : Nat
  cand : List (Int × Nat × VecRecord)
  poison : Bool
  deriving DecidableEq, Repr

/-- Offer the matching records of a block. -/
def Work.offer (p : Nat) (c : Cmd) (x : VecIndex) (q : Query) (qs : Nat) : List VecRecord → Scan → Work Scan
  | [], a => pure a
  | r :: t, a => do
    let g ← if q.exact then pure (⟨0, false, 0⟩ : Got) else Work.sketchAt p c x r.head r.slot
    let h : Int := if q.exact then 0 else (hamming x.sketch qs g.value : Nat)
    let l := insertRank (h, r.id, r) a.cand
    Work.offer p c x q qs t { a with matched := a.matched + 1, cand := if q.exact then l else l.take q.rerank, poison := a.poison || g.poison }

/-- Scan the coarse partitions of a probe order (R314, R315). -/
def Work.scan (p : Nat) (c : Cmd) (x : VecIndex) (q : Query) (qe qs : Nat) : List Nat → Scan → Work Scan
  | [], a => pure a
  | cp :: t, a => do
    if !q.exact ∧ !(a.probes < q.nprobe ∨ (q.refill ∧ a.matched < q.k ∧ a.probes < q.limit)) then pure a
    else
      let (e, po) ← Work.t1Words p c (x.cpartAt cp) 8
      let (hs, po2) ← Work.chain p c x (wordAt e 2) (wordAt e 0)
      let (rs, po3) ← Work.allRecords p c x hs
      let hit (r : VecRecord) : Bool := visibleAt qe r.ins r.del && decide (r.attr &&& q.mask = q.value)
      let a := { a with probes := a.probes + 1, scanned := a.scanned + rs.length, poison := a.poison || po || po2 || po3 }
      let a ← Work.offer p c x q qs (rs.filter hit) a
      Work.scan p c x q qe qs t a

/-- Score the candidates (R314): scores in order, NaN dropped and counted, whether a line was poisoned, worst status. -/
def Work.rerank (p : Nat) (c : Cmd) (x : VecIndex) (q : List FVal) : List VecRecord → Work (List (Int × Nat × Nat) × Nat × Nat)
  | [] => pure ([], 0, 0)
  | r :: t => do
    let g ← Work.vectorOf p c x r.head r.slot
    let (l, nan, st) ← Work.rerank p c x q t
    let v := x.score q (x.vector g.value)
    let st := worseStatus st (worseStatus g.status (if g.poison then stPoison else 0))
    match ofF32 v with
    | .nan => pure (l, nan + 1, st)
    | _ => pure ((x.rank v, r.id, v) :: l, nan, st)

/-- The Loft blocks read for a query: what has come for its command from the Loft. -/
def State.loftBlocksHere (s : State) (p : Nat) (c : Cmd) : Nat :=
  (s.fab.arrivals.filter (fun a => decide (a.waiter = .cmd p c.chute c.seq) && decide (2 ^ 61 ≤ a.addr))).length

/-- An admitted query (R314). -/
def Work.runQuery (p : Nat) (c : Cmd) (x : VecIndex) (q : Query) : Work Unit := do
  let qe := c.auxAt 3
  let v := q.elems.map ofF32
  let w := c.runUnit
  let (order, po1) ← if q.exact then pure (some (List.range x.cparts), false) else Work.probeOrder p c x q
  match order with
  | none => Work.endQuery p c x stUnsupported qe 0 0 q.k []
  | some order =>
    let (hs, po2) ← if q.exact then pure ([], false) else Work.hyperplanes p c x x.sketch
    let a ← Work.scan p c x q qe (sketchOf v hs) order ⟨0, 0, 0, [], po1 || po2⟩
    let fail (st : Nat) : Work Unit := Work.endQuery p c x st qe a.probes a.matched q.k []
    Work.act (fun s => (s.count64 (Reg.WIN_RECORDS_LO w) a.scanned).event (hubTile (w / 8)) ⟨0x26, w % 8, a.scanned, none, none, .ofPart p⟩)
    if a.poison then fail stPoison
    else
      let (l, nan, st) ← Work.rerank p c x v (a.cand.map (fun e => e.2.2))
      Work.act (fun s => (s.count64 (Reg.WIN_RERANKS_LO w) (l.length + nan)).count64 (Reg.WIN_LOFT_BLOCKS_LO w) (s.loftBlocksHere p c))
      Work.act (fun s => if nan = 0 then s else s.count (Reg.PART_WIN_NAN p) nan)
      if st ≠ 0 then fail st
      else
        let res := (sortRank l).map (fun e => (e.2.2, e.2.1))
        Work.endQuery p c x (if q.k ≤ res.length then stOk else stFewer) qe a.probes a.matched q.k (res.take q.k)

/-- A query that its Winnower begins (R312, R313, R317), or one that runs. One whose epoch or grant is refused has taken its epoch, which its header shows
(DEDUCED, log entry 70). -/
def Work.searchQuery (p : Nat) (c : Cmd) (x : VecIndex) : Work Unit := do
  let n := 16 + x.dim
  let g ← Work.readVa c p true (c.arg64 10 + c.progress * (4 * n)) (4 * n)
  let q := Query.ofWords x.dim (numWords g.value n)
  if c.auxAt 2 = 1 then Work.runQuery p c x q
  else if g.poison then Work.endQuery p c x stPoison 0 0 0 0 []
  else if !q.ok x (c.arg 14) then Work.endQuery p c x stUnsupported 0 0 0 0 []
  else
    let granted ← Work.view (fun s => s.exactGrant p)
    let e := if q.epoch = 0 then x.pub else q.epoch
    if epochOlder e x.floor ∨ epochOlder x.pub e then Work.endQuery p c x stStaleEpoch e 0 0 q.k []
    else if q.exact ∧ !granted then Work.endQuery p c x stReservation e 0 0 q.k []
    else
      Work.act (fun s => s.modIndex p c (fun y => { y with admitted := y.admitted + 1 }))
      Work.next p c c.progress [c.auxAt 0, c.auxAt 1, 1, e, x.admitted + 1, 0]

/-- An uncorrectable word of a Winnower's candidates (R320): the query restarts once; the second time the Winnower is quarantined. -/
def State.winnowerError (s : State) (p : Nat) (c : Cmd) : State :=
  let w := c.runUnit
  if c.auxAt 5 = 0 then
    ((((s.count (Reg.WIN_RERUN w) 1).cause (Reg.WIN_IRQ_CAUSE w) 1).loftForget p c).workDone p c).setAux p c c.progress (setVal c.aux 5 1)
  else
    let s := ((s.quarantine .win w).cause (Reg.WIN_IRQ_CAUSE w) 2).report 3 0x0012 3 w none 0 [c.indexNo, c.progress]
    (s.loftForget p c).endCmd p c stUnsupported c.progress 0x82

/-- SEARCH (R311, R314): `sram` says that the Winnower's SRAM shows a corrected word (1), or an uncorrectable one (2), while a query runs. -/
def execSearch (p : Fin 32) (chute : Fin 64) (seq : Word) (sram : Fin 3) (s : State) : Res :=
  act s fun s =>
    let p := p.val
    s.winStep p chute.val seq.toNat 0x07 (fun c => decide (c.auxAt 2 = 0)) (fun s c => s.rowEnd p c stAborted)
      (fun s c _ =>
        if c.arg 9 = 0 ∨ 65536 < c.arg 9 ∨ c.arg 14 % 64 ≠ 0 then s.endCmd p c stUnsupported 0 0
        else s.setAux p c 0 [0, 0, 0, 0, 0, 0])
      (fun s c x =>
        if c.arg 9 ≤ c.progress then s.rowEnd p c (c.auxAt 1)
        else if sram.val = 2 ∧ c.auxAt 2 = 1 then s.winnowerError p c
        else
          let s := if sram.val = 1 ∧ c.auxAt 2 = 1 then (s.count (Reg.WIN_CE c.runUnit) 1).corrected 3 c.runUnit 9 1 else s
          s.work (Work.searchQuery p c x))

/-- WIN_QUARANTINE (R322). -/
def execWinQuarantine (rq : Requester) (i : Fin 16) (v : Word) (s : State) : Res := act s fun s => s.writeQuarantine rq .win i.val v

/-- WIN_UNQUARANTINE (R322). -/
def execWinUnquarantine (rq : Requester) (i : Fin 16) (v : Word) (s : State) : Res := act s fun s => s.writeUnquarantine rq .win i.val v

end Sys2Proof.Machine
end

