-- ==== Sys2Proof/Machine/WinWrite.lean ====
section
/-! DEFINITION. Writing a vector index (R300, R301, R304 to R310): inserts, deletes, seals, publishing, compaction. A command that runs does one stage of
an item or coarse partition each time it is presented. -/

namespace Sys2Proof.Machine

/-- A command stops at this item or coarse partition with a status (R300, R305): it lets go of what it locks and holds. -/
def State.winStop (s : State) (p : Nat) (c : Cmd) (status : Nat) : State :=
  ((s.modIndex p c (fun x => x.letGo c)).loftForget p c).rowEnd p c status

/-- Has a command seals in progress? -/
def VecIndex.sealing (x : VecIndex) (c : Cmd) : Bool := x.seals.any (fun z => decide (z.chute = c.chute) && decide (z.cmd = c.seq))

/-- Stop a piece of work that way, once the seals the command has begun are done (R306). -/
def Work.winStop (p : Nat) (c : Cmd) (status cause : Nat) : Work Unit :=
  Work.stop (fun s =>
    if (match s.index p c.indexNo with | some x => x.sealing c | none => false) then s
    else (if cause = 0 then s else s.pcause p (Reg.PART_WIN_IRQ_CAUSE p) cause).winStop p c status)

/-- Change the index within a piece of work. -/
def Work.modIndex (p : Nat) (c : Cmd) (f : VecIndex → VecIndex) : Work Unit := Work.act (fun s => s.modIndex p c f)

/-- Change hub words within a piece of work. -/
def Work.modHub (p : Nat) (c : Cmd) (f : VecIndex → VecIndex) : Work Unit := Work.act (fun s => s.modHub p c f)

/-- The end of an insert or delete whose last item is written (R300): it publishes, or ends. Working values of both: items skipped or absent, stamp, stage
(0 begin an item, 1 write the record, 2 write its meta record, 3 write the map entry, 9 wait for the publish), map entry held, block, slot,
whether an allocation waits. -/
def State.itemsDone (s : State) (p : Nat) (c : Cmd) (x : VecIndex) : State :=
  if nfld (c.arg 8) 25 25 = 1 then
    (s.modIndex p c (fun x => { x with closed := x.closed ++ [(x.openEpoch, c.chute, c.seq)], openEpoch := nextEpoch x.openEpoch })).setAux p c
      c.progress (setVal c.aux 2 9)
  else if c.unacked ≠ 0 ∨ x.sealing c then s
  else s.rowEnd p c stOk

/-- Are an insert's or delete's arguments in range? -/
def Cmd.itemsOk (c : Cmd) : Bool := decide (1 ≤ c.arg 9) && decide (c.arg 9 ≤ 2 ^ 20)

/-- An insert or delete takes the open epoch as its stamp (R300). -/
def State.itemsStart (s : State) (p : Nat) (c : Cmd) (x : VecIndex) : State :=
  if c.itemsOk then s.setAux p c 0 [0, x.openEpoch, 0, 0, 0, 0, 0] else s.endCmd p c stUnsupported 0 0

/-- An abort between items: it waits for the command's own seals. -/
def State.itemsStopped (s : State) (p : Nat) (c : Cmd) : State :=
  match s.index p c.indexNo with
  | some x => if x.sealing c then s else s.winStop p c stAborted
  | none => s.winStop p c stAborted

/-! ### Inserting (R305) -/

/-- An item: its ID, coarse partition, attribute and elements. -/
structure Item where
  id : Nat
  cpart : Nat
  attr : Nat
  elems : List Nat
  deriving DecidableEq, Repr

/-- Read one from its words. -/
def Item.ofWords (dim : Nat) (w : List Nat) : Item :=
  ⟨pairAt w 0, nfld (wordAt w 2) 15 0, nfld (wordAt w 2) 31 16, (w.drop 16).take dim⟩

/-- Is it skipped? -/
def Item.skipped (x : VecIndex) (i : Item) : Bool :=
  decide (noId ≤ i.id) || decide (x.cparts ≤ i.cpart) || i.elems.any (fun e => match ofF32 e with | .fin _ _ => false | _ => true)

/-- The FP32 norm, the stored elements and how many were clipped (R305). -/
def Item.stored (x : VecIndex) (i : Item) : Nat × List Nat × Nat :=
  let n := normOf (i.elems.map ofF32)
  let v := if x.metric = 1 ∧ n ≠ 0 then i.elems.map (fun e => (fpDiv 0 0 e n).1) else i.elems
  let l := v.map x.store
  (n, l.map (·.1), (l.filter (·.2)).length)

/-- Read the item an insert is at. -/
def Work.item (p : Nat) (c : Cmd) (x : VecIndex) : Work (Item × Bool) := do
  let n := 16 + x.dim
  let g ← Work.readVa c p true (c.arg64 10 + c.progress * (4 * n)) (4 * n)
  pure (Item.ofWords x.dim (numWords g.value n), g.poison)

/-- The map entry an ID will use (R305): the valid one with this ID, else the first that is clear. -/
def mapPlace (id : Nat) (l : List MapEntry) : Option MapEntry :=
  match l.find? (fun e => mapValid e.2 && decide (mapId e.2 = id)) with
  | some e => some e
  | none => l.find? (fun e => !mapValid e.2)

/-- May a new block of sequence seq of a coarse partition be used: the block, and its open area, which must be sealed and unread (R306, R310)? -/
def State.mayAllocate (s : State) (p : Nat) (c : Cmd) (x : VecIndex) (cpart seq : Nat) (blocks : List Nat) : Bool :=
  blocks.all (fun b => s.reusable p c x (blockKey b))
    && (!x.inLoft || (!x.seals.any (fun z => decide (z.cpart = cpart) && decide (z.seq % 2 = seq % 2)) && s.reusable p c x (openKey cpart seq)))

/-- Begin an item (R305, steps 1 to 6). -/
def Work.insertBegin (p : Nat) (c : Cmd) (x : VecIndex) : Work Unit := do
  let (it, po) ← Work.item p c x
  if po then Work.winStop p c stPoison 0
  else if it.skipped x then
    Work.act (fun s => s.count (Reg.PART_WIN_SKIPPED p) 1)
    Work.next p c (c.progress + 1) (setVal c.aux 0 (c.auxAt 0 + 1))
  else
    let (l, po) ← Work.mapEntries p c x (x.mapWindow it.id)
    if po then Work.winStop p c stPoison 0
    else match mapPlace it.id l with
      | none => Work.winStop p c stReservation 2
      | some e =>
        if x.heldByOther c e.1 || (x.lockedBy c it.cpart).isSome then Work.stop id
        else
          let (ent, po) ← Work.t1Words p c (x.cpartAt it.cpart) 8
          let tail := wordAt ent 1
          let (h, po2) ← if tail = noBlock then pure ((⟨0, 0, 0, 0, false, 0⟩ : BlockHead), false) else Work.blockHead p c x tail
          if po || po2 then Work.winStop p c stPoison 0
          else
            Work.modIndex p c (fun x =>
              { x.letGo c with locks := (it.cpart, c.chute, c.seq, false) :: (x.letGo c).locks, holds := (e.1, c.chute, c.seq) :: (x.letGo c).holds })
            if tail ≠ noBlock ∧ !h.sealed ∧ h.count < 256 then
              Work.next p c c.progress [c.auxAt 0, c.auxAt 1, 1, e.1, tail, h.count, 0]
            else
              let r ← Work.nextBlocks p c x 1 x.freeHead x.freeCount x.nextUnused
              match r with
              | none => Work.winStop p c stReservation 4
              | some (bs, fh, fc, nu) =>
                let b := bs.headD 0
                let seq := (wordAt ent 4 + 1) % 2 ^ 32
                let free ← Work.view (fun s => s.mayAllocate p c x it.cpart seq bs)
                if !free then Work.next p c c.progress [c.auxAt 0, c.auxAt 1, 0, e.1, 0, 0, 1]
                else
                  Work.modHub p c (fun x => x.took fh fc nu)
                  Work.putT1 p c (x.blockAt b) 4160 (wordsNum [noBlock, 0, it.cpart, seq] 0 4)
                  if tail ≠ noBlock then Work.putT1 p c (x.blockAt tail) 4 b else pure ()
                  Work.putT1 p c (x.cpartAt it.cpart) 32 (wordsNum
                    [if wordAt ent 0 = noBlock then b else wordAt ent 0, b, wordAt ent 2 + 1, wordAt ent 3, seq, wordAt ent 5, 0, 0] 0 8)
                  Work.next p c c.progress [c.auxAt 0, c.auxAt 1, 1, e.1, b, 0, 0]

/-- Write the norm, sketch and vector of an item (R305, step 7). -/
def Work.insertRecord (p : Nat) (c : Cmd) (x : VecIndex) : Work Unit := do
  Work.settled c
  let b := c.auxAt 4
  let i := c.auxAt 5
  let (it, _) ← Work.item p c x
  let (h, _) ← Work.blockHead p c x b
  let (n, codes, clipped) := it.stored x
  let (hs, po) ← Work.hyperplanes p c x x.sketch
  if po then Work.winStop p c stPoison 0
  else
    let v := packElems x.elemBits codes
    Work.putT1 p c (x.blockAt b + 4160 + 4 * i) 4 n
    Work.putT1 p c (x.blockAt b + 5184 + i * (x.sketch / 8)) (x.sketch / 8) (sketchOf (codes.map x.elem) hs)
    Work.putT1 p c (if x.inLoft then x.openAt it.cpart h.seq i else x.vecAt b i) x.vbytes v
    Work.act (fun s => if clipped = 0 then s else s.count (Reg.PART_WIN_CLIPPED p) clipped)
    Work.next p c c.progress (setVal c.aux 2 2)

/-- Write the meta record, and the block's new count. -/
def Work.insertMeta (p : Nat) (c : Cmd) (x : VecIndex) : Work Unit := do
  Work.settled c
  let b := c.auxAt 4
  let i := c.auxAt 5
  let (it, _) ← Work.item p c x
  Work.putT1 p c (x.blockAt b + 64 + 16 * i) 16
    (wordsNum [c.auxAt 1, 0, it.id % 2 ^ 32, it.attr * 2 ^ 16 + it.id / 2 ^ 32 % 2 ^ 16] 0 4)
  Work.putT1 p c (x.blockAt b + 4) 4 (i + 1)
  Work.next p c c.progress (setVal c.aux 2 3)

/-- Replace the ID's old record, if it lives, and write the map entry (R305, step 8); a full block of a Loft index begins to be sealed (R306). -/
def Work.insertMap (p : Nat) (c : Cmd) (x : VecIndex) : Work Unit := do
  Work.settled c
  let b := c.auxAt 4
  let i := c.auxAt 5
  let (it, _) ← Work.item p c x
  let (w, po) ← Work.t1Words p c (x.mapAt (c.auxAt 3)) 4
  let old := mapValid w && decide (mapId w = it.id)
  if old && decide (x.lockedBy c (nfld (wordAt w 1) 31 16) = some true) then Work.stop id
  else
    let at_ := x.blockAt (wordAt w 2) + 64 + 16 * nfld (wordAt w 3) 7 0
    let (m, po2) ← if old then Work.t1Words p c at_ 4 else pure ([], false)
    let (ent, po3) ← Work.t1Words p c (x.cpartAt it.cpart) 8
    if po || po2 || po3 then Work.winStop p c stPoison 0
    else
      let replaces := old && decide (wordAt m 1 = 0)
      if replaces then
        Work.putT1 p c (at_ + 4) 4 (c.auxAt 1)
        Work.act (fun s => s.count (Reg.PART_WIN_UPSERTS p) 1)
      else Work.putT1 p c (x.cpartAt it.cpart + 12) 4 (wordAt ent 3 + 1)
      Work.putT1 p c (x.mapAt (c.auxAt 3)) 16 (wordsNum (mapWords it.id it.cpart b i) 0 4)
      let (h, _) ← Work.blockHead p c x b
      Work.modIndex p c (fun x =>
        let x := x.letGo c
        if x.inLoft ∧ i = 255 then { x with seals := x.seals ++ [⟨it.cpart, b, h.seq, c.chute, c.seq, 0⟩] } else x)
      Work.next p c (c.progress + 1) [c.auxAt 0, c.auxAt 1, 0, 0, 0, 0, 0]

/-- INDEX_INSERT (R305). -/
def execIndexInsert (p : Fin 32) (chute : Fin 64) (seq : Word) (s : State) : Res :=
  act s fun s =>
    let p := p.val
    s.winStep p chute.val seq.toNat 0x08 (fun c => decide (c.auxAt 2 = 0) && decide (c.auxAt 6 = 0)) (fun s c => s.itemsStopped p c)
      (fun s c x => s.itemsStart p c x)
      (fun s c x =>
        if c.auxAt 2 = 9 ∨ c.auxAt 6 = 1 then s
        else if c.auxAt 2 = 0 ∧ c.arg 9 ≤ c.progress then s.itemsDone p c x
        else match c.auxAt 2 with
          | 0 => s.work (Work.insertBegin p c x)
          | 1 => s.work (Work.insertRecord p c x)
          | 2 => s.work (Work.insertMeta p c x)
          | _ => s.work (Work.insertMap p c x))

/-! ### Deleting (R307) -/

/-- One ID. -/
def Work.deleteItem (p : Nat) (c : Cmd) (x : VecIndex) : Work Unit := do
  let g ← Work.readVa c p true (c.arg64 10 + 8 * c.progress) 8
  let id_ := g.value
  let (l, po) ← Work.mapEntries p c x (x.mapWindow id_)
  let absent : Work Unit := do
    Work.act (fun s => s.count (Reg.PART_WIN_DEL_ABSENT p) 1)
    Work.next p c (c.progress + 1) (setVal c.aux 0 (c.auxAt 0 + 1))
  if g.poison || po then Work.winStop p c stPoison 0
  else match l.find? (fun e => mapValid e.2 && decide (mapId e.2 = id_)) with
    | none => absent
    | some e =>
      let cp := nfld (wordAt e.2 1) 31 16
      if x.lockedBy c cp = some true then Work.stop id
      else
        let at_ := x.blockAt (wordAt e.2 2) + 64 + 16 * nfld (wordAt e.2 3) 7 0
        let (m, po) ← Work.t1Words p c at_ 4
        let (ent, po2) ← Work.t1Words p c (x.cpartAt cp) 8
        if po || po2 then Work.winStop p c stPoison 0
        else if wordAt m 1 ≠ 0 then absent
        else
          Work.putT1 p c (at_ + 4) 4 (c.auxAt 1)
          Work.putT1 p c (x.cpartAt cp + 12) 4 (wordAt ent 3 - 1)
          Work.next p c (c.progress + 1) c.aux

/-- INDEX_DELETE (R307). -/
def execIndexDelete (p : Fin 32) (chute : Fin 64) (seq : Word) (s : State) : Res :=
  act s fun s =>
    let p := p.val
    s.winStep p chute.val seq.toNat 0x09 (fun c => decide (c.auxAt 2 = 0)) (fun s c => s.itemsStopped p c)
      (fun s c x => s.itemsStart p c x)
      (fun s c x =>
        if c.auxAt 2 = 9 then s
        else if c.arg 9 ≤ c.progress then s.itemsDone p c x
        else if c.unacked ≠ 0 then s
        else s.work (Work.deleteItem p c x))

/-! ### Publishing (R300, R301) -/

/-- Does a running insert or delete of the index, other than one that waits for its publish with all it wrote acknowledged, carry a stamp not newer
than an epoch? -/
def State.stampedRunning (s : State) (p i e : Nat) (x : VecIndex) : Bool :=
  (s.part p).cmds.any (fun d => decide (d.kind = 0) && decide (d.opcode = 0x08 ∨ d.opcode = 0x09) && decide (d.phase = .running)
    && decide (d.indexNo = i) && !d.aux.isEmpty && (decide (d.auxAt 1 = e) || epochOlder (d.auxAt 1) e)
    && !(decide (d.auxAt 2 = 9) && decide (d.unacked = 0) && !x.sealing d))

/-- EPOCH_PUBLISH (R300, R301): the oldest closed epoch is published, or refused at the limit, and its command ends. -/
def execEpochPublish (p : Fin 32) (i : Fin 64) (s : State) : Res :=
  act s fun s =>
    let p := p.val
    match s.index p i.val with
    | none => s
    | some x => match x.closed with
      | [] => s
      | (e, chute, seq) :: rest =>
        if s.stampedRunning p i.val e x then s
        else
          let s := s.setIndex p i.val (some { x with closed := rest })
          match s.cmd p chute seq with
          | none => s
          | some c =>
            if 2 ^ 30 ≤ (e + 2 ^ 32 - x.oldest) % 2 ^ 32 then
              (s.pcause p (Reg.PART_WIN_IRQ_CAUSE p) 8).rowEnd p c stReservation
            else
              let s := (s.modHub p c (fun x => { x with pub := e })).pcause p (Reg.PART_WIN_IRQ_CAUSE p) 1
              s.endCmd p c stOk (c.progress + 2 ^ 32 * e) c.partialResult.2

/-! ### Seals (R306) -/

/-- BLOCK_SEAL (R306): a full block's next Loft block is written, or, when the last is, the block is sealed. A write that fails is made again. -/
def execBlockSeal (p : Fin 32) (i : Fin 64) (block : Word) (s : State) : Res :=
  act s fun s =>
    let p := p.val
    match s.index p i.val with
    | none => s
    | some x => match x.seals.find? (fun z => decide (z.block = block.toNat)) with
      | none => s
      | some z => match s.cmd p z.chute z.cmd with
        | none => s
        | some c =>
          let w := Waiter.cmd p c.chute c.seq
          let off := x.vecAt z.block 0 + z.next * loftBytes
          let key := loftWriteKey off
          let put (f : Seal → List Seal) (x : VecIndex) : VecIndex := { x with seals := x.seals.flatMap (fun y => if y = z then f y else [y]) }
          if x.vbytes * 256 ≤ z.next * loftBytes then s.work do
            Work.putT1 p c (x.blockAt z.block + 4) 4 (2 ^ 31 + 256)
            Work.modIndex p c (fun x => ((put (fun _ => []) x).stopUsing [openKey z.cpart z.seq]))
          else match s.takeArrival w key with
            | some (y, s) => if y.status = 0 then s.modIndex p c (put (fun z => [{ z with next := z.next + 1 }])) else s
            | none =>
              if s.loftAsked p c key then s
              else s.work do
                let g ← Work.t1 p c (x.openAt z.cpart z.seq 0 + z.next * loftBytes) loftBytes
                Work.act (fun s => match s.loftBlock p off with
                  | some b => s.loftAsk p c key off b (some ⟨g.value, if g.poison then 2 ^ 256 - 1 else 0⟩)
                  | none => (s.violateMem (.unit p c.chute c.seq) true off).modIndex p c (put (fun z => [{ z with next := z.next + 1 }])))

/-! ### Compaction (R308 to R310) -/

/-- The oldest epoch a query of the index runs at is not older than f. -/
def State.noOlderQuery (s : State) (p i f : Nat) : Bool := (s.queries p i).all (fun q => !epochOlder q.2 f)

/-- The records a compaction keeps, in order (R309, step 2). Sketch bits decide first where order is set. -/
def Work.kept (p : Nat) (c : Cmd) (x : VecIndex) (rs : List VecRecord) : Work (List VecRecord × Bool) := do
  let f := c.auxAt 1
  let keep := rs.filter (fun r => decide (r.del = 0) || epochOlder f r.del)
  if nfld (c.arg 8) 25 25 = 0 then pure (keep, false)
  else
    let l ← keep.mapM (fun r => do
      let g ← Work.sketchAt p c x r.head r.slot
      pure (((g.value % 2 ^ 64 : Nat) : Int), r.id, r, g.poison))
    pure ((sortRank (l.map (fun e => (e.1, e.2.1, e.2.2.1)))).map (fun e => e.2.2), l.any (fun e => e.2.2.2))

/-- The coarse partition a compaction is at: its entry, chain and records. -/
def Work.compactAt (p : Nat) (c : Cmd) (x : VecIndex) : Work (List Nat × List BlockHead × List VecRecord × Bool) := do
  let (ent, po) ← Work.t1Words p c (x.cpartAt (c.arg 10 % 65536 + c.progress)) 8
  let (hs, po2) ← Work.chain p c x (wordAt ent 2) (wordAt ent 0)
  let (rs, po3) ← Work.allRecords p c x hs
  pure (ent, hs, rs, po || po2 || po3)

/-- The new blocks of the coarse partition in work. -/
def Cmd.newBlocks (c : Cmd) : List Nat := c.inputs.headD []

/-- The end of a compaction, complete, aborted or stopped, with causes to set (R309, R321): new blocks of a coarse partition it cannot rewrite go back to the
free list, what it locks is let go, and oldest_stamp is computed anew. -/
def State.compactDone (s : State) (p : Nat) (c : Cmd) (x : VecIndex) (status cause : Nat) : State :=
  let lines := linesOf (x.cpartAt 0) (32 * x.cparts)
  let back (s : State) (b : Nat) : State := match s.index p c.indexNo with
    | some x => (s.postBytes .device (x.blockAt b) 4 x.freeHead false).modHub p c (fun x => { x with freeHead := b, freeCount := x.freeCount + 1 })
    | none => s
  if c.unacked ≠ 0 then s
  else s.whenReadable lines fun s =>
    let stamps := (List.range x.cparts).map (fun k => s.t1Word (x.cpartAt k + 20))
    let s := (c.newBlocks.foldr (fun b s => back s b) s).modHub p c (fun x => { x.letGo c with oldest := (oldestOf stamps).getD x.oldest })
    ((if cause = 0 then s else s.pcause p (Reg.PART_WIN_IRQ_CAUSE p) cause).loftForget p c).rowEnd p c status

/-- Stop a compaction that way. -/
def Work.compactStop (p : Nat) (c : Cmd) (x : VecIndex) (status cause : Nat) : Work Unit := Work.stop (fun s => s.compactDone p c x status cause)

/-- Begin a coarse partition (R309, steps 1 and 2): lock it and take new blocks. Working values: records removed, the floor, stage (0 begin, 1 write
blocks, 2 write the entry, 3 map and free list), new block in work, its Loft block in work, (none), whether an allocation waits. -/
def Work.compactBegin (p : Nat) (c : Cmd) (x : VecIndex) : Work Unit := do
  let cp := c.arg 10 % 65536 + c.progress
  if (x.lockedBy c cp).isSome || x.seals.any (fun z => decide (z.cpart = cp)) then Work.stop id
  else
    let (_, _, rs, po) ← Work.compactAt p c x
    let (ks, po2) ← Work.kept p c x rs
    if po || po2 then Work.compactStop p c x stPoison 0
    else
      let r ← Work.nextBlocks p c x ((ks.length + 255) / 256) x.freeHead x.freeCount x.nextUnused
      match r with
      | none => Work.compactStop p c x stReservation 4
      | some (bs, fh, fc, nu) =>
        let free ← Work.view (fun s => bs.all (fun b => s.reusable p c x (blockKey b)))
        if !free then Work.next p c c.progress (setVal c.aux 6 1)
        else
          Work.modHub p c (fun x => { x.took fh fc nu with locks := (cp, c.chute, c.seq, true) :: x.locks })
          Work.act (fun s => s.modCmd p c.chute c.seq (fun d => { d with inputs := [bs] }))
          Work.next p c c.progress [c.auxAt 0, c.auxAt 1, if bs.isEmpty then 2 else 1, 0, 0, 0, 0]

/-- The vectors of some records, one after another; the worst status. -/
def Work.vectors (p : Nat) (c : Cmd) (x : VecIndex) : List VecRecord → Work Got
  | [] => pure ⟨0, false, 0⟩
  | r :: t => do
    let g ← Work.vectorOf p c x r.head r.slot
    let r ← Work.vectors p c x t
    pure ⟨g.value + 2 ^ (8 * x.vbytes) * r.value, g.poison || r.poison, worseStatus g.status r.status⟩

/-- Write one new block, or one of its Loft blocks (R309, steps 3 to 5). -/
def Work.compactBlock (p : Nat) (c : Cmd) (x : VecIndex) : Work Unit := do
  let cp := c.arg 10 % 65536 + c.progress
  let m := c.auxAt 3
  let j := c.auxAt 4
  let b := c.newBlocks.getD m 0
  let w := Waiter.cmd p c.chute c.seq
  let (ent, _, rs, _) ← Work.compactAt p c x
  let (ks, _) ← Work.kept p c x rs
  let mine := (ks.drop (256 * m)).take 256
  let fail (st : Nat) : Work Unit := Work.compactStop p c x st 0
  let follow : Nat × Nat × Nat := if m + 1 < c.newBlocks.length then (1, m + 1, 0) else (2, 0, 0)
  let go (f : Nat × Nat × Nat) : Work Unit := Work.next p c c.progress [c.auxAt 0, c.auxAt 1, f.1, f.2.1, f.2.2, 0, 0]
  if j = 0 then
    let sk ← mine.mapM (fun r => Work.sketchAt p c x r.head r.slot)
    let nm ← mine.mapM (fun r => Work.t1 p c (x.blockAt r.head.block + 4160 + 4 * r.slot) 4)
    let v ← if x.inLoft then pure (⟨0, false, 0⟩ : Got) else Work.vectors p c x mine
    if sk.any (·.poison) || nm.any (·.poison) || v.poison then fail stPoison
    else
      let ins (r : VecRecord) : Nat := if epochOlder r.ins (c.auxAt 1) then c.auxAt 1 else r.ins
      let metas := mine.flatMap (fun r => [ins r, r.del, r.id % 2 ^ 32, r.attr * 2 ^ 16 + r.id / 2 ^ 32 % 2 ^ 16])
      Work.putT1 p c (x.blockAt b) 4160 (wordsNum ([c.newBlocks.getD (m + 1) noBlock, 2 ^ 31 + mine.length, cp, (wordAt ent 4 + 1 + m) % 2 ^ 32]
        ++ List.replicate 12 0 ++ metas) 0 (16 + 4 * mine.length))
      Work.putT1 p c (x.blockAt b + 4160) (4 * mine.length) (packElems 32 (nm.map (·.value)))
      Work.putT1 p c (x.blockAt b + 5184) (x.sketch / 8 * mine.length) (packElems x.sketch (sk.map (·.value)))
      if x.inLoft then go (1, m, 1)
      else
        Work.putT1 p c (x.vecAt b 0) (x.vbytes * mine.length) v.value
        go follow
  else
    let off := x.vecAt b 0 + (j - 1) * loftBytes
    let key := loftWriteKey off
    let got ← Work.view (fun s => s.fab.arrivals.find? (fun a => decide (a.waiter = w) && decide (a.addr = key)))
    let asked ← Work.view (fun s => s.loftAsked p c key)
    match got with
    | some y =>
      if y.status ≠ 0 then fail y.status
      else if x.vbytes * 256 ≤ j * loftBytes then go follow
      else go (1, m, j + 1)
    | none =>
      if asked then Work.stop id
      else
        let v ← Work.vectors p c x mine
        let at_ ← Work.view (fun s => s.loftBlock p off)
        if v.status ≠ 0 then fail v.status
        else if v.poison then fail stPoison
        else match at_ with
          | some lb => Work.act (fun s => s.loftAsk p c key off lb (some ⟨v.value / 2 ^ (8 * ((j - 1) * loftBytes)) % 2 ^ (8 * loftBytes), 0⟩))
          | none => do
            Work.act (fun s => s.violateMem (.unit p c.chute c.seq) true off)
            if x.vbytes * 256 ≤ j * loftBytes then go follow else go (1, m, j + 1)

/-- Write the coarse-partition entry as one write (R309, step 6). -/
def Work.compactEntry (p : Nat) (c : Cmd) (x : VecIndex) : Work Unit := do
  Work.settled c
  let cp := c.arg 10 % 65536 + c.progress
  let (ent, hs, rs, _) ← Work.compactAt p c x
  let (ks, _) ← Work.kept p c x rs
  let bs := c.newBlocks
  Work.act (fun s => s.modCmd p c.chute c.seq (fun d => { d with inputs := [bs, hs.map (·.block),
    rs.flatMap (fun r => [r.head.block, r.slot, r.id, match ks.findIdx? (fun k => decide (k = r)) with | some n => n + 1 | none => 0])] }))
  Work.putT1 p c (x.cpartAt cp) 32 (wordsNum [bs.headD noBlock, bs.getLastD noBlock, bs.length, (ks.filter (fun r => decide (r.del = 0))).length,
    (wordAt ent 4 + bs.length) % 2 ^ 32, c.auxAt 1, 0, 0] 0 8)
  if x.inLoft then Work.modIndex p c (fun x => x.stopUsing ((hs.filter (fun h => !h.sealed)).map (fun h => openKey cp h.seq))) else pure ()
  Work.next p c c.progress [c.auxAt 0 + (rs.length - ks.length), c.auxAt 1, 3, 0, 0, 0, 0]

/-- The map entries of moved and removed records (R309, step 7), given the list kept at step 6: block, slot, ID, and one more than the new place. -/
def Work.compactMap (p : Nat) (c : Cmd) (x : VecIndex) (cp : Nat) : List Nat → Work Unit
  | b :: i :: id_ :: k :: t => do
    let (l, _) ← Work.mapEntries p c x (x.mapWindow id_)
    match l.find? (fun e => mapValid e.2 && decide (mapId e.2 = id_) && decide (wordAt e.2 2 = b) && decide (nfld (wordAt e.2 3) 7 0 = i)) with
    | none => pure ()
    | some e =>
      Work.putT1 p c (x.mapAt e.1) 16 (if k = 0 then 0 else wordsNum (mapWords id_ cp (c.newBlocks.getD ((k - 1) / 256) 0) ((k - 1) % 256)) 0 4)
    Work.compactMap p c x cp t
  | _ => pure ()

/-- The map, the unlocking, and the old blocks' way to the free list (R309, steps 7 and 8; R310). -/
def Work.compactEnd (p : Nat) (c : Cmd) (x : VecIndex) : Work Unit := do
  Work.settled c
  let cp := c.arg 10 % 65536 + c.progress
  let old := c.inputs.getD 1 []
  Work.compactMap p c x cp (c.inputs.getD 2 [])
  (List.range old.length).forM (fun k => Work.putT1 p c (x.blockAt (old.getD k 0)) 4 (old.getD (k + 1) x.freeHead))
  Work.modHub p c (fun x => ({ x.letGo c with freeHead := old.headD x.freeHead, freeCount := x.freeCount + old.length }).stopUsing (old.map blockKey))
  Work.act (fun s => s.modCmd p c.chute c.seq (fun d => { d with inputs := [] }))
  Work.next p c (c.progress + 1) [c.auxAt 0, c.auxAt 1, 0, 0, 0, 0, 0]

/-- INDEX_COMPACT (R308, R309). -/
def execIndexCompact (p : Fin 32) (chute : Fin 64) (seq : Word) (s : State) : Res :=
  act s fun s =>
    let p := p.val
    s.winStep p chute.val seq.toNat 0x0A (fun c => decide (c.auxAt 2 = 0))
      (fun s c => match s.index p c.indexNo with
        | some x => s.compactDone p c x stAborted 0
        | none => s.rowEnd p c stAborted)
      (fun s c x =>
        let f := c.arg 9
        let first := c.arg 10 % 65536
        let n := nfld (c.arg 11) 16 0
        if epochOlder f x.floor ∨ epochOlder x.pub f then s.endCmd p c stStaleEpoch 0 0
        else if n = 0 ∨ 65536 < n ∨ x.cparts < first + n then s.endCmd p c stUnsupported 0 0
        else (s.modHub p c (fun x => { x with floor := f })).setAux p c 0 [0, f, 0, 0, 0, 0, 0])
      (fun s c x =>
        if c.auxAt 6 = 1 ∨ !s.noOlderQuery p c.indexNo (c.auxAt 1) then s
        else match c.auxAt 2 with
          | 0 => if nfld (c.arg 11) 16 0 ≤ c.progress then s.compactDone p c x stOk 0 else s.work (Work.compactBegin p c x)
          | 1 => s.work (Work.compactBlock p c x)
          | 2 => s.work (Work.compactEntry p c x)
          | _ => s.work (Work.compactEnd p c x))

/-- DEFERRED_ALLOCATION (R310): an allocation that waits is tried again; it goes on once the queries admitted before the release have completed. -/
def execDeferredAllocation (p : Fin 32) (chute : Fin 64) (seq : Word) (s : State) : Res :=
  act s fun s =>
    let p := p.val
    match s.cmd p chute.val seq.toNat with
    | none => s
    | some c =>
      if c.auxAt 6 ≠ 1 ∨ c.phase ≠ .running then s
      else
        let d := { c with aux := setVal c.aux 6 0 }
        match s.index p c.indexNo with
        | none => s
        | some x =>
          if c.opcode = 0x08 then s.work (Work.insertBegin p d x)
          else if c.opcode = 0x0A then s.work (Work.compactBegin p d x)
          else s

end Sys2Proof.Machine
end

