-- ==== Sys2Proof/Machine/Partition.lean ====
section
/-! DEFINITION. Partitions (R25 to R32, R64, R67): admission, release, partition reset, draining. -/

namespace Sys2Proof.Machine

/-- VIOL_CLEAR (R67). -/
def execViolClear (rq : Requester) (_v : Word) (s : State) : Res :=
  act s fun s => s.access rq Reg.RNG_VIOL_CLEAR (fun s =>
    let s := (((s.setReg64 Reg.RNG_VIOL_TOTAL_LO 0).setRegN Reg.RNG_VIOL_LAST 0).setReg64 Reg.RNG_VIOL_ADDR_LO 0)
    (List.range 32).foldl (fun s p => s.setRegN (Reg.RNG_VIOL_PART p) 0) s)

/-! ### Admission (R26) -/

/-- The registers of a reservation: where it is staged, and where partition p shows it. -/
def rsvRegs (p : Nat) : List (Nat × Nat) :=
  [(Reg.RNG_ADM_RSV_ME, Reg.PART_RSV_ME p), (Reg.RNG_ADM_RSV_GC_LO, Reg.PART_RSV_GC_LO p), (Reg.RNG_ADM_RSV_GC_HI, Reg.PART_RSV_GC_HI p),
   (Reg.RNG_ADM_RSV_UNITS, Reg.PART_RSV_UNITS p), (Reg.RNG_ADM_RSV_T0, Reg.PART_RSV_T0 p), (Reg.RNG_ADM_RSV_T1, Reg.PART_RSV_T1 p),
   (Reg.RNG_ADM_RSV_LOFT, Reg.PART_RSV_LOFT p), (Reg.RNG_ADM_RSV_TAGS, Reg.PART_RSV_TAGS p), (Reg.RNG_ADM_RSV_SEM, Reg.PART_RSV_SEM p),
   (Reg.RNG_ADM_RSV_SWMIN, Reg.PART_RSV_SWMIN p)]

/-- The units the staged reservation asks for. -/
def State.stagedUnits (s : State) (k : UnitKind) : List Nat :=
  (List.range k.count).filter (fun i => match k with
    | .me => bitOf (s.reg Reg.RNG_ADM_RSV_ME) i
    | .gc => if i < 32 then bitOf (s.reg Reg.RNG_ADM_RSV_GC_LO) i else bitOf (s.reg Reg.RNG_ADM_RSV_GC_HI) (i - 32)
    | .win => bitOf (s.reg Reg.RNG_ADM_RSV_UNITS) i
    | .row => bitOf (s.reg Reg.RNG_ADM_RSV_UNITS) (16 + i))

/-- Is every unit asked for unreserved and not quarantined? -/
def State.unitsFree (s : State) (k : UnitKind) : Bool := (s.stagedUnits k).all (fun i => (s.owner k i).isNone && !s.quarantined k i)

/-- The sum over all partitions of a field of a reservation. -/
def State.reserved (s : State) (a : Nat → Nat) (hi lo : Nat) : Nat := ((List.range 32).map (fun p => s.regF (a p) hi lo)).sum

/-- Is every staged field in range (code MALFORMED)? -/
def State.stagedOk (s : State) : Bool :=
  let f := s.regF
  decide (f Reg.RNG_ADM_RSV_T0 14 0 ≤ 384) && decide (f Reg.RNG_ADM_RSV_T1 14 0 ≤ 1664) && decide (f Reg.RNG_ADM_RSV_LOFT 14 0 ≤ 16384)
    && decide (f Reg.RNG_ADM_RSV_TAGS 13 0 ≤ Config.tags) && decide (f Reg.RNG_ADM_RSV_TAGS 30 24 ≤ 64)
    && decide (f Reg.RNG_ADM_RSV_SEM 11 0 + f Reg.RNG_ADM_RSV_SEM 31 19 ≤ 4096)
    && (decide (f Reg.RNG_ADM_RSV_TAGS 30 24 = 0) || decide (1 ≤ f Reg.RNG_ADM_RSV_TAGS 13 0))

/-- Does the staged semaphore range overlap another partition's (code SEMAPHORES)? -/
def State.semsOverlap (s : State) : Bool :=
  let b := s.regF Reg.RNG_ADM_RSV_SEM 11 0
  let n := s.regF Reg.RNG_ADM_RSV_SEM 31 19
  (List.range 32).any (fun p =>
    let c := s.regF (Reg.PART_RSV_SEM p) 11 0
    let m := s.regF (Reg.PART_RSV_SEM p) 31 19
    decide (b < c + m) && decide (c < b + n) && decide (0 < n) && decide (0 < m))

/-- The minimum a reservation register holds for a class, in units of 16 KiB. -/
def State.swMin (s : State) (a tc : Nat) : Nat := s.regF a (4 * tc + 3) (4 * tc)

/-- Units of the T1 partition pool, less those withheld (R126, R377). -/
def State.poolUnits (s : State) : Nat := 1664 - s.ft.withheldUnits.length

/-- The code of the first check of R26 that fails for partition p; 0 when it passes all. -/
def State.admissionCode (s : State) (p : Nat) : Nat :=
  let f := s.regF
  if s.pstate p ≠ .free then 0x01
  else if !s.stagedOk then 0x02
  else if !s.unitsFree .me then 0x03
  else if !s.unitsFree .gc then 0x04
  else if !s.unitsFree .win then 0x05
  else if !s.unitsFree .row then 0x06
  else if s.t0Spare < f Reg.RNG_ADM_RSV_T0 14 0 * 256 then 0x07
  else if s.poolUnits < s.reserved Reg.PART_RSV_T1 14 0 + f Reg.RNG_ADM_RSV_T1 14 0 then 0x08
  else if 0 < f Reg.RNG_ADM_RSV_LOFT 14 0 ∧ (!bitOf (s.reg Reg.LFT_STATUS) 31 ∨ f Reg.LFT_POOL_FREE 14 0 < f Reg.RNG_ADM_RSV_LOFT 14 0) then 0x09
  else if Config.tags < s.reserved Reg.PART_RSV_TAGS 13 0 + f Reg.RNG_ADM_RSV_TAGS 13 0 then 0x0A
  else if s.semsOverlap then 0x0B
  else if (List.range 8).any (fun tc => decide (8 < ((List.range 32).map (fun q => s.swMin (Reg.PART_RSV_SWMIN q) tc)).sum
      + s.swMin Reg.RNG_ADM_RSV_SWMIN tc)) then 0x0C
  else if Config.chuteSlots < s.reserved Reg.PART_RSV_TAGS 30 24 + f Reg.RNG_ADM_RSV_TAGS 30 24 then 0x0D
  else 0

/-- Show the switch-buffer minimums of all partitions at each slice (R240, R261). -/
def State.showSwitchMins (s : State) : State :=
  let w := ((List.range 8).map (fun tc => ((List.range 32).map (fun q => s.swMin (Reg.PART_RSV_SWMIN q) tc)).sum * 2 ^ (4 * tc))).sum
  (List.range 4).foldl (fun s t => s.setRegN (Reg.SW_POOL_RSV t) w) s

/-- Reserve a unit for a partition, or return it. -/
def State.setOwner (s : State) (k : UnitKind) (i : Nat) (p : Option Nat) : State :=
  match p with
  | some p => (s.setRegF (k.status i) 29 29 1).setRegF (k.status i) 20 16 p
  | none => (s.setRegF (k.status i) 29 29 0).setRegF (k.status i) 20 16 0

/-- The four kinds of unit. -/
def unitKinds : List UnitKind := [.me, .gc, .win, .row]

/-- The kind number of field test for a kind of unit (R371). -/
def UnitKind.ftKind : UnitKind → Nat
  | .me => 1 | .gc => 2 | .win => 3 | .row => 4

/-- Give a partition n Loft chunks, any that are free (R142; the choice is log entry 5's). -/
def State.giveChunks (s : State) (p : Nat) : Nat → State
  | 0 => s
  | n + 1 =>
    let taken := s.loft.trim ++ s.loft.chunks.flatMap (·.2)
    let free := (List.range (s.regF Reg.LFT_CAPACITY 14 0)).filter (fun c => !taken.contains c)
    let (i, s) := s.choose (max 1 free.length)
    let c := free.getD i 0
    ((s.modLoft (fun l => { l with chunks := Tbl.modify (fun _ => []) l.chunks p (· ++ [c]) })).setRegF Reg.LFT_POOL_FREE 14 0
      (s.regF Reg.LFT_POOL_FREE 14 0 - 1)).giveChunks p n

/-- Reserve everything staged for partition p (R26, R27, R323); tests that need what it takes end (R375, R459). -/
def State.admission (s : State) (p : Nat) : State :=
  let s := unitKinds.foldl (fun s k => s.ftNeeds k.ftKind (fun i => (s.stagedUnits k).contains i)) s
  let s := if s.t0Spare - s.regF Reg.RNG_ADM_RSV_T0 14 0 * 256 < 512 then s.ftNeeds 6 (fun _ => true) else s
  let s := if 0 < s.regF Reg.RNG_ADM_RSV_LOFT 14 0 then s.ftNeeds 7 (fun f => decide (s.regF (Reg.LFT_CH_STATUS f) 27 25 < 2)) else s
  let s := s.tallyPreemptStacks
  let s := unitKinds.foldl (fun s k => (s.stagedUnits k).foldl (fun s i => s.setOwner k i (some p)) s) s
  let s := (rsvRegs p).foldl (fun s x => s.setReg x.2 (s.reg x.1)) s
  let s := (s.setPart p Part.free).zeroSems (s.semBase p) (s.semCount p)
  let s := (s.giveChunks p (s.regF (Reg.PART_RSV_LOFT p) 14 0)).showSwitchMins
  s.setPstate p .active

/-- Show the result of an admission or release (R28); busy has come and gone. -/
def State.admResult (s : State) (code : Nat) : State := s.setRegN Reg.RNG_ADM_STATUS code

/-- ADMIT (R26, R28): with release written too, MALFORMED. Before boot step 11 admission is not open (R396): the write leaves the status as it is. -/
def execAdmitPartition (rq : Requester) (v : Word) (s : State) : Res :=
  act s fun s => s.access rq Reg.RNG_ADM_CTRL (fun s =>
    let s := s.store Reg.RNG_ADM_CTRL v
    let p := s.regF Reg.RNG_ADM_CTRL 4 0
    if !s.boot.done then s
    else if bitOf v 9 then s.admResult 0x02
    else
      let code := s.admissionCode p
      if code = 0 then (s.admission p).admResult 0 else s.admResult code)

/-! ### Stopping a partition's work (R64) -/

/-- Stop the work of partition p (R64): packets, queued commands and faults are discarded, running commands are to stop at their boundary, chutes
and the completion chute are disabled without transfer. -/
def State.stopWork (s : State) (p : Nat) : State :=
  let discarded := (s.part p).rings.flatMap (fun e => e.2.pkts.map (fun k => (e.1, wordAt k.words 1)))
  let s := (s.part p).rings.foldl (fun s e =>
    if e.1 ≤ cplRing then
      let s := s.modRing p e.1 (fun r => { r with pkts := [] })
      (s.disableRing p e.1 false).releaseHeld p e.1
    else s) s
  let waits (c : Cmd) : Bool := match c.phase with | .queued => true | .faulted _ => true | .ready => true | _ => false
  s.modPart p (fun pt =>
    { pt with control := [], faults := [], waiting := [],
              others := discarded ++ (pt.cmds.filter waits).map (fun c => (c.chute, c.seq)) ++ pt.others,
              held := pt.held.filter (fun h => pt.cmds.any (fun c => decide (c.phase = .running) && c.is h.chute h.seq)),
              cmds := (pt.cmds.filter (fun c => !waits c)).map (fun c => if c.phase = .running then { c with stopping := true } else c) })

/-- PARTITION_RESET (R30, R64). -/
def execPartitionReset (rq : Requester) (p : Fin 32) (_v : Word) (s : State) : Res :=
  act s fun s =>
    let p := p.val
    s.access rq (Reg.PART_RESET p) (fun s =>
      if s.pstate p = .active ∨ s.pstate p = .frozen then
        let s := ((s.stopWork p).dropHeldOf p).setRegN (Reg.PART_IRQ_CAUSE p) 0
        (s.setPstate p .resetting).clearDown p
      else s)

/-- Does a partition hold an extent: live, offered, pending, or past its release point (R26, code EXTENTS_PRESENT)? -/
def State.hasExtent (s : State) (p : Nat) : Bool := s.extents.any (fun e => decide (e.part = p))

/-- A partition begins to be released (R30, R31, R343). -/
def State.beginRelease (s : State) (p : Nat) : State :=
  let s := match s.compOf p with
    | some (c, _) => s.memberLost c s.node
    | none => s
  (s.stopWork p).setPstate p .releasing

/-- RELEASE (R26, R30): with admit written too, MALFORMED. -/
def execReleasePartition (rq : Requester) (v : Word) (s : State) : Res :=
  act s fun s => s.access rq Reg.RNG_ADM_CTRL (fun s =>
    let s := s.store Reg.RNG_ADM_CTRL v
    let p := s.regF Reg.RNG_ADM_CTRL 4 0
    if bitOf v 8 then s.admResult 0x02
    else match s.pstate p with
      | .free => s.admResult 0x0E
      | .releasing => s.admResult 0x0E
      | .resetting => if s.hasExtent p then s.admResult 0x0F else (s.modPart p (fun pt => { pt with relRecorded := true })).admResult 0
      | _ => if s.hasExtent p then s.admResult 0x0F else (s.beginRelease p).admResult 0)

/-! ### Draining (R30, R31) -/

/-- The cores partition p reserves whose L1D has dirty lines. -/
def State.dirtyCores (s : State) (p : Nat) : List Nat :=
  (List.range 64).filter (fun g => decide (s.owner .gc g = some p) && (s.core g).l1d.any (·.dirty))

/-- Writes that drain a core's L1D at a reset act in the partition's composition, if it is in one. -/
def State.drainCmd (s : State) (p : Nat) : Cmd :=
  let c := Cmd.ofWords 0 0 []
  match s.compOf p with
  | some (k, x) => { c with compId := k, compEpoch := x.epoch }
  | none => { c with compId := 0xFFFF }

/-- Has everything of a partition stopped but the write-back of its cores: no command runs, no request is outstanding at another node or at a
home of this one, none waits for a tag, no ring is being disabled? -/
def State.quietPart (s : State) (p : Nat) : Bool :=
  !((s.part p).cmds.any (fun c => decide (c.phase = .running)))
    && !(s.fab.reqs.any (fun r => decide (r.part = some p))) && !(s.fab.stalled.any (fun r => decide (r.part = some p)))
    && !((s.localOpen ++ s.homes.tagWait).any (fun r => r.byUnitOf p))
    && !((s.part p).rings.any (fun e => decide (e.1 ≤ cplRing) && e.2.disabling))

/-- Units of a partition. -/
def State.unitsOf (s : State) (p : Nat) (k : UnitKind) : List Nat := (List.range k.count).filter (fun i => decide (s.owner k i = some p))

/-- Reset the partition's engines and cores (R64). -/
def State.resetUnits (s : State) (p : Nat) : State :=
  let s := (s.unitsOf p .me).foldl (fun s i => s.resetUnit .me i) s
  (s.unitsOf p .gc).foldl (fun s i => s.resetUnit .gc i) s

/-- What the end of a drain does to the units and faults of a partition (R64). -/
def State.drainUnits (s : State) (p : Nat) : State :=
  (s.resetUnits p).modPart p (fun pt => { pt with held := [], faults := [], waiting := [] })

/-- A freed partition's indexes are gone, and its control region reads as after reset (R31). -/
def State.dropPart (s : State) (p : Nat) : State :=
  { s with indexes := Tbl.keep (fun k => !decide (k / 64 = p)) s.indexes, loading := s.loading.filter (fun l => !decide (l.1 = p)),
           regs := Tbl.keep (fun a => !(decide (0x07000000 + p * 0x00100000 ≤ a) && decide (a < 0x07000000 + (p + 1) * 0x00100000))) s.regs }

/-- The page of a partition and everything it held return to what they are at reset (R31). -/
def State.freePart (s : State) (p : Nat) : State :=
  let pages := s.t0Owned p
  let s := pages.foldl (fun s g => (s.t0Zero ⟨4096 * g, 4096⟩).setT0Owner g none) s
  let s := s.zeroSems (s.semBase p) (s.semCount p)
  let chunks := Tbl.get (fun _ => []) s.loft.chunks p
  let s := s.modLoft (fun l => { l with chunks := Tbl.set (fun _ => []) l.chunks p [], trim := l.trim ++ chunks })
  let s := unitKinds.foldl (fun s k => (s.unitsOf p k).foldl (fun s i => s.setOwner k i none) s) s
  let s := (s.dropAllXlt p).cribDrop p none
  let s : State := match s.compOf p with
    | some (c, _) => (s.setComp c none).forgetBarriers c
    | none => s
  let s := s.modSync (fun y =>
    { y with waits := y.waits.filter (fun w => !decide (w.part = p)), slots := y.slots.filter (fun v => !decide (v.part = p)),
             votesDone := y.votesDone.filter (fun v => !decide (v.1 = p)),
             prepared := y.prepared.filter (fun e => match e.2 with | some q => !decide (q.part = p) | none => true) })
  let s := s.modFab (fun x => { x with inbound := x.inbound.filter (fun m => !decide (m.part = p)), mboxPhase := Tbl.keep (· ≠ p) x.mboxPhase })
  (((s.dropPart p).dropHeldOf p).setPart p Part.free).showSwitchMins

/-- PARTITION_DRAINED (R30, R31, R64): the last step of a drain first writes back its cores' dirty lines; then a reset partition is ACTIVE again, or
RELEASING if a release was recorded, and a released one is FREE. -/
def execPartitionDrained (p : Fin 32) (s : State) : Res :=
  act s fun s =>
    let p := p.val
    if (s.pstate p ≠ .resetting ∧ s.pstate p ≠ .releasing) ∨ !s.quietPart p then s
    else if !(s.dirtyCores p).isEmpty then
      (s.dirtyCores p).foldl (fun s g => s.cleanLines p (s.drainCmd p) g (fun _ => true) false) s
    else if s.pstate p = .releasing then (s.drainUnits p).freePart p
    else
      let t := (((s.drainUnits p).modPart p (fun pt => { pt with relRecorded := false })).setPstate p .active).pageCause p 64
      if (s.part p).relRecorded then t.beginRelease p else t

end Sys2Proof.Machine
end

