-- ==== Sys2Proof/Machine/Sha256.lean ====
section
/-! DEFINITION. SHA-256 (R407): every hash of the boot and trust rules. -/

namespace Sys2Proof.Machine

/-- Round constants 0 to 15. -/
def shaK0 : List Nat :=
  [0x428A2F98, 0x71374491, 0xB5C0FBCF, 0xE9B5DBA5, 0x3956C25B, 0x59F111F1, 0x923F82A4, 0xAB1C5ED5,
   0xD807AA98, 0x12835B01, 0x243185BE, 0x550C7DC3, 0x72BE5D74, 0x80DEB1FE, 0x9BDC06A7, 0xC19BF174]

/-- Round constants 16 to 31. -/
def shaK1 : List Nat :=
  [0xE49B69C1, 0xEFBE4786, 0x0FC19DC6, 0x240CA1CC, 0x2DE92C6F, 0x4A7484AA, 0x5CB0A9DC, 0x76F988DA,
   0x983E5152, 0xA831C66D, 0xB00327C8, 0xBF597FC7, 0xC6E00BF3, 0xD5A79147, 0x06CA6351, 0x14292967]

/-- Round constants 32 to 47. -/
def shaK2 : List Nat :=
  [0x27B70A85, 0x2E1B2138, 0x4D2C6DFC, 0x53380D13, 0x650A7354, 0x766A0ABB, 0x81C2C92E, 0x92722C85,
   0xA2BFE8A1, 0xA81A664B, 0xC24B8B70, 0xC76C51A3, 0xD192E819, 0xD6990624, 0xF40E3585, 0x106AA070]

/-- Round constants 48 to 63. -/
def shaK3 : List Nat :=
  [0x19A4C116, 0x1E376C08, 0x2748774C, 0x34B0BCB5, 0x391C0CB3, 0x4ED8AA4A, 0x5B9CCA4F, 0x682E6FF3,
   0x748F82EE, 0x78A5636F, 0x84C87814, 0x8CC70208, 0x90BEFFFA, 0xA4506CEB, 0xBEF9A3F7, 0xC67178F2]

/-- The round constants of SHA-256. -/
def shaK : List Nat := shaK0 ++ shaK1 ++ shaK2 ++ shaK3

/-- A 32-bit sum. -/
def add32 (a b : Nat) : Nat := (a + b) % 2 ^ 32

/-- A 32-bit word rotated right by n. -/
def rotr32 (x n : Nat) : Nat := x / 2 ^ n + x % 2 ^ n * 2 ^ (32 - n)

/-- The eight working words of a compression, and the next sixteen words of its message schedule. -/
structure ShaState where
  a : Nat
  b : Nat
  c : Nat
  d : Nat
  e : Nat
  f : Nat
  g : Nat
  h : Nat
  w : List Nat

/-- One round with its constant. -/
def ShaState.round (s : ShaState) (k : Nat) : ShaState :=
  let w0 := s.w.getD 0 0
  let s1 := rotr32 s.e 6 ^^^ rotr32 s.e 11 ^^^ rotr32 s.e 25
  let ch := (s.e &&& s.f) ^^^ ((2 ^ 32 - 1 - s.e) &&& s.g)
  let t1 := add32 (add32 (add32 s.h s1) (add32 ch k)) w0
  let s0 := rotr32 s.a 2 ^^^ rotr32 s.a 13 ^^^ rotr32 s.a 22
  let maj := (s.a &&& s.b) ^^^ (s.a &&& s.c) ^^^ (s.b &&& s.c)
  let w1 := s.w.getD 1 0
  let w14 := s.w.getD 14 0
  let x0 := rotr32 w1 7 ^^^ rotr32 w1 18 ^^^ (w1 / 2 ^ 3)
  let x1 := rotr32 w14 17 ^^^ rotr32 w14 19 ^^^ (w14 / 2 ^ 10)
  { a := add32 t1 (add32 s0 maj), b := s.a, c := s.b, d := s.c, e := add32 s.d t1, f := s.e, g := s.f, h := s.g,
    w := s.w.drop 1 ++ [add32 (add32 x1 (s.w.getD 9 0)) (add32 x0 w0)] }

/-- The eight words of a hash value, added to by the compression of a block of sixteen words. -/
def shaBlock (hash block : List Nat) : List Nat :=
  let at_ (i : Nat) := hash.getD i 0
  let s := shaK.foldl ShaState.round ⟨at_ 0, at_ 1, at_ 2, at_ 3, at_ 4, at_ 5, at_ 6, at_ 7, block⟩
  List.zipWith add32 hash [s.a, s.b, s.c, s.d, s.e, s.f, s.g, s.h]

/-- The big-endian words of bytes, four to a word. -/
def bigWords : List Nat → List Nat
  | a :: b :: c :: d :: t => (a * 2 ^ 24 + b * 2 ^ 16 + c * 2 ^ 8 + d) :: bigWords t
  | _ => []

/-- A message padded to whole blocks. -/
def shaPad (bytes : List Nat) : List Nat :=
  let n := bytes.length
  bytes ++ [0x80] ++ List.replicate ((119 - n % 64) % 64) 0 ++ (List.range 8).map (fun i => n * 8 / 256 ^ (7 - i) % 256)

/-- Compress n blocks. -/
def shaBlocks : Nat → List Nat → List Nat → List Nat
  | 0, hash, _ => hash
  | n + 1, hash, ws => shaBlocks n (shaBlock hash (ws.take 16)) (ws.drop 16)

/-- SHA-256 of bytes, as a number whose most significant byte is the first of the digest. -/
def sha256 (bytes : List Nat) : Nat :=
  let ws := bigWords (shaPad bytes)
  (shaBlocks (ws.length / 16) [0x6A09E667, 0xBB67AE85, 0x3C6EF372, 0xA54FF53A, 0x510E527F, 0x9B05688C, 0x1F83D9AB, 0x5BE0CD19] ws).foldl
    (fun a w => a * 2 ^ 32 + w) 0

/-- The 32 bytes of a digest, in order. -/
def digestBytes (d : Nat) : List Nat := (List.range 32).map (fun i => d / 256 ^ (31 - i) % 256)

/-- The digest that 32 bytes hold. -/
def digestOf (bytes : List Nat) : Nat := (bytes.take 32).foldl (fun a b => a * 256 + b) 0

end Sys2Proof.Machine
end

