-- ==== Sys2Proof/Machine/Tally.lean ====
section
/-! DEFINITION. Scaler and Tally commands (R442 to R462): clearing and starting counters, selecting events, bandwidth windows, sampling;
starting, stopping, clearing and scanning lane groups, and what their lanes report. -/

namespace Sys2Proof.Machine

/-! ### Scalers (R442 to R451) -/

/-- Zero the counters, the bandwidth registers and the threshold state of Scaler k (R442). -/
def State.sclClear (s : State) (k : Nat) : State :=
  let s := (List.range 8).foldl (fun s n => s.setReg64 (Reg.SCL_CNT_LO k n) 0) s
  let s := (s.setReg64 (Reg.SCL_FIX_CYCLES_LO k) 0).setRegN (Reg.SCL_FIX_PN_REPLAY k) 0
  let s := s.setRegN (Reg.SCL_FIX_FIFO_REWIND k) 0
  let s := (s.setReg64 (Reg.SCL_FIX_XLT_LOOKUP_LO k) 0).setReg64 (Reg.SCL_FIX_XLT_MISS_LO k) 0
  (s.setRegN (Reg.SCL_BW_INDEX k) 0).modScaler k (fun x => { x with cur := [], last := [], peak := [], fired := [] })

/-- SCL_CLEAR (R442): run takes the value written. -/
def execSclClear (rq : Requester) (k : Fin 10) (v : Word) (s : State) : Res :=
  act s fun s => s.access rq (Reg.SCL_CTRL k.val) fun s => (s.store (Reg.SCL_CTRL k.val) v).sclClear k.val

/-- Put run of all ten Scalers. -/
def State.sclRunAll (s : State) (run : Nat) : State := (List.range 10).foldl (fun s k => s.setRegF (Reg.SCL_CTRL k) 0 0 run) s

/-- START_ALL (R442). -/
def execStartAll (rq : Requester) (_v : Word) (s : State) : Res :=
  act s fun s => s.access rq (Reg.SCL_SYNC 0) fun s => s.sclRunAll 1

/-- STOP_ALL (R442). -/
def execStopAll (rq : Requester) (_v : Word) (s : State) : Res :=
  act s fun s => s.access rq (Reg.SCL_SYNC 0) fun s => s.sclRunAll 0

/-- CLEAR_ALL (R442). -/
def execClearAll (rq : Requester) (_v : Word) (s : State) : Res :=
  act s fun s => s.access rq (Reg.SCL_SYNC 0) fun s => (List.range 10).foldl State.sclClear s

/-- SCL_EVSEL_WRITE (R443, R446): the counter's thr cause is armed again. -/
def execSclEvselWrite (rq : Requester) (k : Fin 10) (n : Fin 8) (v : Word) (s : State) : Res :=
  act s fun s => s.access rq (Reg.SCL_EVSEL k.val n.val) fun s =>
    (s.store (Reg.SCL_EVSEL k.val n.val) v).modScaler k.val (fun x => { x with fired := x.fired.filter (fun i => !decide (i = n.val)) })

/-- The size SCL_BW_CTRL gives a window, as a power of two (R448, R461). -/
def State.windowLog2 (s : State) (k : Nat) : Nat := max 10 (min 30 (s.regF (Reg.SCL_BW_CTRL k) 4 0))

/-- BW_WINDOW_END (R448): at a multiple of the window's size, once, CUR becomes LAST; a new size takes effect at its own next boundary. -/
def execBwWindowEnd (k : Fin 10) (s : State) : Res :=
  act s fun s =>
    let k := k.val
    let x := s.scaler k
    let want := s.windowLog2 k
    if k < 4 ∨ s.lcc = x.ended then s
    else
      let s := s.modScaler k (fun x => { x with ended := s.lcc })
      let s :=
        if s.lcc % 2 ^ x.window = 0 ∧ bitOf (s.reg (Reg.SCL_BW_CTRL k)) 31 then
          let s := s.setRegN (Reg.SCL_BW_INDEX k) (s.regN (Reg.SCL_BW_INDEX k) + 1)
          s.modScaler k (fun x =>
            { x with last := x.cur, cur := [],
                     peak := x.cur.foldl (fun t e => Tbl.modify (fun _ => 0) t e.1 (fun o => max o e.2)) x.peak })
        else s
      if x.window ≠ want ∧ s.lcc % 2 ^ want = 0 then s.modScaler k (fun x => { x with window := want, cur := [] }) else s

/-- SAMPLING_ENABLE (R449): the LFSRs of the kinds of unit that begin to be sampled are loaded again. -/
def execSamplingEnable (rq : Requester) (k : Fin 4) (v : Word) (s : State) : Res :=
  act s fun s => s.access rq (Reg.SCL_SMP_CTRL k.val) fun s =>
    let old := s.reg (Reg.SCL_SMP_CTRL k.val)
    let s := s.store (Reg.SCL_SMP_CTRL k.val) v
    let fresh (lane : Nat) : Bool := if lane < 16 then bitOf v 30 && !bitOf old 30 else bitOf v 31 && !bitOf old 31
    s.modScaler k.val (fun x => { x with lfsr := x.lfsr.filter (fun e => !fresh e.1) })

/-- SCL_SMP_POP (R451). -/
def execSclSmpPop (rq : Requester) (k : Fin 4) (_v : Word) (s : State) : Res :=
  act s fun s => s.access rq (Reg.SCL_SMP_POP k.val) fun s =>
    s.modScaler k.val (fun x => { x with samples := x.samples.drop 1 })

/-! ### Tally: starting and stopping a group (R453 to R459) -/

/-- The lanes a group of a kind has (R452). -/
def LaneKind.lanes : LaneKind → Nat
  | .stack => 2048
  | _ => 8

/-- Does the group's kind support the pattern and mode of TLY_CFG (R453, R456)? -/
def LaneKind.runs (k : LaneKind) (pattern mode : Nat) : Bool :=
  (decide (pattern ≤ 6) || decide (pattern = 7 ∧ k = .cofeben)) &&
    (match mode with
     | 0 => decide (k ≠ .cxl)
     | 1 => decide (k ≠ .stack)
     | 2 => decide (k = .cofeben ∨ k = .cxl)
     | _ => true)

/-- Is the group eligible to drive its lanes (R457)? -/
def State.tallyEligible (s : State) (k : LaneKind) (i : Nat) : Bool :=
  match k with
  | .cofeben => decide (s.link i = 0) || decide (s.link i = 4)
  | .cxl => decide (s.regF (Reg.CXL_STATUS i) 31 29 = 3)
  | .onfi => decide (2 ≤ s.regF (Reg.LFT_CH_STATUS i) 27 25) || decide (s.regF (Reg.LFT_CH_STATUS i) 29 29 = 1)
  | .stack =>
    (List.range 32).all (fun p => decide (s.pstate p = .free)) && (List.range 12).all (fun l => decide (s.link l = 0))
      && (match s.ft.run with
          | some x => decide (x.req.kind ≠ 5) || !((List.range 6).any (fun j => decide (s.stackOf ((poolUnit x.inst).base + 4096 * j) = i)))
          | none => true)

/-- May the requester write the group (R458)? Direct access and the Ranger, which runs field test and boot, are different owners. -/
def TallyGroup.writes (x : TallyGroup) (rq : Requester) : Bool :=
  decide (x.owner = 0) || (if rq = .ranger then decide (x.owner ≠ 1) else decide (x.owner = 1))

/-- A write to a register of the group that TLY_GRP_SEL selects (R458, R462): ignored with err 2 from another than its owner; to a group
that does not exist, ignored. -/
def State.tallyWrite (s : State) (rq : Requester) (u : Nat) (f : Nat → LaneKind → Nat → State) : State :=
  let g := s.regF (Reg.TLY_GRP_SEL u) 3 0
  match tallyKind u g with
  | none => s
  | some (k, i) => if (s.tallyGroup u g).writes rq then f g k i else s.modTally u g (fun x => { x with err := 2 })

/-- The first lane and the number of lanes of a group. -/
def TallyGroup.range (x : TallyGroup) : Nat × Nat := (x.laneRange / 2 ^ 16 % 4096, x.laneRange % 4096)

/-- Is the lane in the group's range? -/
def TallyGroup.has (x : TallyGroup) (lane : Nat) : Bool := decide (x.range.1 ≤ lane) && decide (lane < x.range.1 + x.range.2)

/-- A lane of a group. -/
def TallyGroup.lane (x : TallyGroup) (i : Nat) : Lane := Tbl.get (fun _ => Lane.reset) x.lanes i

/-- Change a lane of a group. -/
def TallyGroup.modLane (x : TallyGroup) (i : Nat) (f : Lane → Lane) : TallyGroup :=
  { x with lanes := Tbl.modify (fun _ => Lane.reset) x.lanes i f }

/-- Change every lane that has been used. -/
def TallyGroup.mapLanes (x : TallyGroup) (f : Lane → Lane) : TallyGroup := x.lanes.foldl (fun x e => x.modLane e.1 f) x

/-- The pattern and mode of TLY_CFG, and the length of a run as a power of two; 0: until stop. -/
def TallyGroup.pattern (x : TallyGroup) : Nat := x.cfg / 2 ^ 28 % 16
/-- See `pattern`. -/
def TallyGroup.mode (x : TallyGroup) : Nat := x.cfg / 2 ^ 26 % 4
/-- See `pattern`. -/
def TallyGroup.duration (x : TallyGroup) : Nat :=
  let d := x.cfg / 2 ^ 15 % 64
  if d = 0 then 0 else max 10 (min 40 d)

/-- TALLY_START (R456 to R458, R462): refused with err 1 unless eligible, err 3 for a mode, pattern or lane range its kind does not have; Cofeben
and CXL lanes train first. A group already running goes on (DESIGN CHOICE, log entry 24). -/
def execTallyStart (rq : Requester) (u : Fin 6) (_v : Word) (s : State) : Res :=
  act s fun s => s.access rq (Reg.TLY_CTRL u.val) fun s =>
    s.tallyWrite rq u.val fun g k i =>
      let x := s.tallyGroup u.val g
      if x.busy then s
      else if !s.tallyEligible k i then s.modTally u.val g (fun x => { x with err := 1 })
      else if !k.runs x.pattern x.mode ∨ x.range.2 = 0 ∨ k.lanes < x.range.1 + x.range.2 then s.modTally u.val g (fun x => { x with err := 3 })
      else
        let st := if k = .cofeben ∨ k = .cxl then 1 else 2
        let owner := if rq = .ranger then (if s.boot.done then 2 else 3) else 1
        s.modTally u.val g (fun x => { x.mapLanes (fun l => { l with locked := false }) with state := st, owner := owner, reason := 0, since := s.lcc })

/-- A group stops: STOPPED with a reason, setting a cause. -/
def State.tallyEnd (s : State) (u g reason cause : Nat) : State :=
  (s.modTally u g (fun x => { x with state := 4, reason := reason })).cause (Reg.TLY_IRQ_CAUSE u) cause

/-- TALLY_STOP (R462). -/
def execTallyStop (rq : Requester) (u : Fin 6) (_v : Word) (s : State) : Res :=
  act s fun s => s.access rq (Reg.TLY_CTRL u.val) fun s =>
    s.tallyWrite rq u.val fun g _ _ => if (s.tallyGroup u.val g).busy then s.tallyEnd u.val g 1 0 else s

/-- TALLY_CLEAR (R462): the group's counters and eye results. -/
def execTallyClear (rq : Requester) (u : Fin 6) (_v : Word) (s : State) : Res :=
  act s fun s => s.access rq (Reg.TLY_CTRL u.val) fun s =>
    s.tallyWrite rq u.val fun g _ _ => s.modTally u.val g (fun x =>
      { x.mapLanes (fun l => { Lane.reset with locked := l.locked }) with
               flits := 0, flitCrc := 0, eyeDone := false, width := 0, height := 0, vstep := 0, eyeMap := [] })

/-- TALLY_SCAN (R460): the group must run with a checker, and the lane of TLY_LANE_SEL be locked. -/
def execTallyScan (rq : Requester) (u : Fin 6) (_v : Word) (s : State) : Res :=
  act s fun s => s.access rq (Reg.TLY_CTRL u.val) fun s =>
    s.tallyWrite rq u.val fun g _ _ =>
      let x := s.tallyGroup u.val g
      let lane := s.regF (Reg.TLY_LANE_SEL u.val) 10 0
      if x.state = 2 ∧ x.mode ≠ 1 ∧ x.has lane ∧ (x.lane lane).locked then
        s.modTally u.val g (fun x => { x with state := 3, scanLane := lane, eyeDone := false, eyeMap := [] })
      else s.modTally u.val g (fun x => { x with err := 3 })

/-! ### Tally: what the lanes do (R454 to R460) -/

/-- TALLY_TRAINED (R456). -/
def execTallyTrained (u : Fin 6) (g : Fin 16) (s : State) : Res :=
  act s fun s =>
    if (s.tallyGroup u.val g.val).state = 1 then s.modTally u.val g.val (fun x => { x with state := 2, since := s.lcc }) else s

/-- TALLY_TRAIN_TIMEOUT (R456): no partner within 10,000,000 cycles. -/
def execTallyTrainTimeout (u : Fin 6) (g : Fin 16) (s : State) : Res :=
  act s fun s =>
    let x := s.tallyGroup u.val g.val
    if x.state = 1 ∧ 10000000 < s.lcc - x.since then s.tallyEnd u.val g.val 4 16 else s

/-- A locked lane counts (R454, R455). -/
def TallyGroup.countLane (x : TallyGroup) (c : LaneCount) : TallyGroup :=
  if x.has c.lane.val && (x.lane c.lane.val).locked then
    x.modLane c.lane.val (fun l => { l with bits := (l.bits + c.bits.toNat) % 2 ^ 64, errs := min 0xFFFFFFFF (l.errs + c.errs.toNat) })
  else x

/-- The flit pattern's checker counts flits and those failing the CRC (R455). -/
def TallyGroup.countFlits (x : TallyGroup) (flits crc : Nat) : TallyGroup :=
  if x.pattern = 7 ∧ x.mode ≠ 1 then
    { x with flits := (x.flits + flits) % 2 ^ 64, flitCrc := min 0xFFFFFFFF (x.flitCrc + crc) }
  else x

/-- TALLY_DURATION_END (R456): a run of 2^duration_log2 cycles is over. -/
def execTallyDurationEnd (u : Fin 6) (g : Fin 16) (counts : List LaneCount) (flits : BitVec 64) (crc : Word) (s : State) : Res :=
  act s fun s =>
    let x := s.tallyGroup u.val g.val
    if (x.state = 2 ∨ x.state = 3) ∧ x.duration ≠ 0 ∧ 2 ^ x.duration ≤ s.lcc - x.since then
      (s.modTally u.val g.val (fun x => (counts.foldl TallyGroup.countLane x).countFlits flits.toNat crc.toNat)).tallyEnd u.val g.val 2 1
    else s

/-- TALLY_LOCK_LOST (R454). -/
def execTallyLockLost (u : Fin 6) (g : Fin 16) (lane : Fin 2048) (s : State) : Res :=
  act s fun s =>
    let x := s.tallyGroup u.val g.val
    if x.busy && x.has lane.val && (x.lane lane.val).locked then
      (s.modTally u.val g.val (fun x => x.modLane lane.val (fun l => { l with locked := false, losses := min 0xFFFF (l.losses + 1) }))).cause
        (Reg.TLY_IRQ_CAUSE u.val) 2
    else s

/-- TALLY_LANE_LOCK (R454): the lane's checker locks, if it has not, and counts. -/
def execTallyLaneLock (u : Fin 6) (g : Fin 16) (count : LaneCount) (flits : BitVec 64) (crc : Word) (s : State) : Res :=
  act s fun s =>
    let x := s.tallyGroup u.val g.val
    if (x.state = 2 ∨ x.state = 3) ∧ x.mode ≠ 1 ∧ x.has count.lane.val then
      s.modTally u.val g.val (fun x =>
        ((x.modLane count.lane.val (fun l => { l with locked := true })).countLane count).countFlits flits.toNat crc.toNat)
    else s

/-- The length of the run of true values of `f` through 32, below 64. -/
def runThrough (f : Nat → Bool) : Nat :=
  if f 32 then 1 + (((List.range 31).map (33 + ·)).takeWhile f).length + ((List.range 32).reverse.takeWhile f).length else 0

/-- EYE_SCAN_DONE (R460): width is the run of passing points through phase 0 at voltage 0, height that through voltage 0 at phase 0. -/
def execEyeScanDone (u : Fin 6) (g : Fin 16) (rows : List (BitVec 64)) (vstep : BitVec 8) (s : State) : Res :=
  act s fun s =>
    let pass (r j : Nat) : Bool := (rows.getD r 0).getLsbD j
    if (s.tallyGroup u.val g.val).state = 3 then
      (s.modTally u.val g.val (fun x =>
        { x with state := 2, eyeDone := true, vstep := vstep.toNat, width := runThrough (pass 32), height := runThrough (fun r => pass r 32),
                 eyeMap := (List.range 64).foldl (fun t r => Tbl.set (fun _ => 0) t r ((rows.getD r 0).toNat)) [] })).cause
        (Reg.TLY_IRQ_CAUSE u.val) 8
    else s

end Sys2Proof.Machine
end

