-- ==== Sys2Proof/Machine/Trust.lean ====
section
/-! DEFINITION. The roots of trust (R406 to R413): keys, measurements, identity leaves and debug levels. Whether an HSS signature checks is what the
outside world says of it (log entry 27). -/

namespace Sys2Proof.Machine

/-- Change what boot and trust hold. -/
def State.modBoot (s : State) (f : Boot → Boot) : State := { s with boot := f s.boot }

/-! ### Measurements (R408) -/

/-- Measurement i. -/
def State.meas (s : State) (i : Nat) : Nat := Tbl.get (fun _ => 0) s.boot.meas i

/-- Extend measurement i by the bytes of a digest (R408). -/
def State.extend (s : State) (i : Nat) (d : List Nat) : State :=
  s.modBoot (fun b => { b with meas := Tbl.modify (fun _ => 0) b.meas i (fun m => sha256 (digestBytes m ++ d)) })

/-! ### Keys and signed objects (R406, R407) -/

/-- Bytes of an HSS public key, and of a signature of two levels of LMS_SHA256_M32_H20 with LMOTS_SHA256_N32_W8 (R407). -/
def hssKeyBytes : Nat := 60
/-- See `hssKeyBytes`. -/
def hssSigBytes : Nat := 3604

/-- The image-key slot whose fuse holds the hash of a key, if that slot is not revoked (R406). -/
def State.imageKey (s : State) (key : List Nat) : Option Nat :=
  let h := sha256 key
  if s.fuses.imageKeys.toList.getD 0 0 = h ∧ s.fuses.revoked.toList.getD 0 false = false then some 0
  else if s.fuses.imageKeys.toList.getD 1 0 = h ∧ s.fuses.revoked.toList.getD 1 false = false then some 1
  else none

/-- The 32-bit little-endian words of bytes (R3). -/
def leWords : List Nat → List Nat
  | a :: b :: c :: d :: t => (a + b * 2 ^ 8 + c * 2 ^ 16 + d * 2 ^ 24) :: leWords t
  | _ => []

/-! ### Identity leaves (R409) -/

/-- All the one-time leaves. -/
def idLeaves : Nat := 2 ^ 40

/-- Show the next leaf (R416). -/
def State.setLeaf (s : State) (n : Nat) : State := (s.modBoot (fun b => { b with leaf := some n })).setReg64 Reg.RNG_ID_SIG_CTR_LO n

/-- Send ID_CTR_LOW (R409, R414). -/
def State.leafLow (s : State) : State :=
  let n := s.boot.leaf.getD 0
  (s.report 2 0x0069 14 0 none 0 [n % 2 ^ 32, n / 2 ^ 32]).cause Reg.RNG_SEC_IRQ_CAUSE 4

/-- At boot the counter resumes at the block after the last reservation; with no valid record, or one below the fused coarse step, at the
next coarse step, whose fuse is burned (R409). A warm reset has kept the counter (R395, log entry 28). -/
def State.resumeLeaf (s : State) : State :=
  match s.boot.leaf with
  | some n => s.setLeaf n
  | none =>
    if s.boot.leafEnd ≠ 0 ∧ (s.fuses.coarse - 1) * 2 ^ 32 ≤ s.boot.leafEnd then
      let s := s.setLeaf s.boot.leafEnd
      if idLeaves - s.boot.leafEnd < 2 ^ 24 then s.leafLow else s
    else if 256 ≤ s.fuses.coarse then (s.setLeaf idLeaves).leafLow
    else (({ s with fuses := { s.fuses with coarse := s.fuses.coarse + 1 } } : State).setLeaf (s.fuses.coarse * 2 ^ 32)).leafLow

/-- Use a leaf to sign (R409): its number, and the state that has used it; a new block is reserved first. None are left, or there is no identity
key yet: nothing is signed. -/
def State.useLeaf (s : State) : Option (Nat × State) :=
  match s.boot.leaf with
  | none => none
  | some n =>
    if idLeaves ≤ n then none
    else
      let s := (s.modBoot (fun b => { b with leafEnd := if b.leafEnd ≤ n then n + 65536 else b.leafEnd })).setLeaf (n + 1)
      some (n, if idLeaves - (n + 1) = 2 ^ 24 - 1 then s.leafLow else s)

/-! ### Debug levels (R413) -/

/-- The debug level. -/
def State.debugLevel (s : State) : Nat := s.regF Reg.RNG_DBG_STATUS 1 0

/-- The debug level is set (R408, R413): on a change M6 is extended by the level and the token's digest (zero where no token caused it, log entry 71),
debug_seen is set and the record sent. -/
def State.setDebugLevel (s : State) (old new token : Nat) : State :=
  if old = new then s
  else
  let s := (s.setRegF Reg.RNG_DBG_STATUS 1 0 new).setRegF Reg.RNG_DBG_STATUS 2 2 1
  ((s.extend 6 (new :: digestBytes token)).report 0 0x0067 14 0 none 0 [old, new]).cause Reg.RNG_SEC_IRQ_CAUSE 2

end Sys2Proof.Machine
end

