-- ==== Sys2Proof/Machine/PortCtl.lean ====
section
/-! DEFINITION. The state machine of a Cofeben port (R253): enable, disable and drain, what training answers, and quiet. -/

namespace Sys2Proof.Machine

/-- A port fails authentication (R411): DOWN, with LINK_AUTH_FAIL. Reason 1 certificate, 2 signature or KEM, 3 gateway with encrypt, 4 no leaves. -/
def State.authFail (s : State) (l reason : Nat) : State :=
  let s := ((s.setLink l 4).setRegF (Reg.LNK_STATUS l) 23 16 0).count (Reg.LNK_DOWNS l) 1
  let s := (s.cause (Reg.LNK_IRQ_CAUSE l) 2).cause Reg.RNG_SEC_IRQ_CAUSE 1
  s.report 3 0x0068 10 l none 0 [reason, s.regN (Reg.LNK_PEER l)]

/-- The enable event (R253, R375, R388, R411, R459): from OFF or DOWN the port trains; what tests it ends first. In STANDBY and in recovery it is
ignored (R388, R398). -/
def State.linkEnable (s : State) (l : Nat) : State :=
  if s.regF Reg.RNG_PWR_STATE 31 30 = 2 ∨ s.boot.recovery then s
  else if s.link l = 0 ∨ s.link l = 4 then
    let s := (((s.ftNeeds 8 (fun i => decide (i = l))).tallyPreempt (2 + l / 3) (l % 3))).tallyPreemptStacks
    let s := s.modPort l (fun q => { q with keyId := (q.keyId + 1) % 2 ^ 32 })
    if s.regF (Reg.LNK_CTRL l) 5 5 = 1 ∧ s.regF (Reg.LNK_CTRL l) 4 4 = 1 then s.authFail l 3 else s.setLink l 1
  else s

/-- The disable event (R253): OFF from every state, after a flush where the port takes packets. -/
def State.linkDisable (s : State) (l : Nat) : State :=
  let s := if s.portOpen l then s.flush l else s
  (s.setLink l 0).setRegF (Reg.LNK_STATUS l) 23 16 0

/-- The drain event (R253): from UP only. -/
def State.linkDrain (s : State) (l : Nat) : State := if s.link l = 2 then s.setLink l 3 else s

/-- A write of LNK_CTRL (R262): one that sets more than one of enable, disable and drain writes gateway and encrypt only. -/
def State.writeLinkCtrl (s : State) (l : Nat) (v : Word) : State :=
  let s := s.store (Reg.LNK_CTRL l) v
  match fld v 2 0 with
  | 1 => s.linkEnable l
  | 2 => s.linkDisable l
  | 4 => s.linkDrain l
  | _ => s

/-- LINK_ENABLE (R253, R262). -/
def execLinkEnable (rq : Requester) (l : Fin 12) (v : Word) (s : State) : Res :=
  act s fun s => s.access rq (Reg.LNK_CTRL l.val) fun s => s.writeLinkCtrl l.val (v ||| 1)

/-- LINK_DISABLE (R253, R262). -/
def execLinkDisable (rq : Requester) (l : Fin 12) (v : Word) (s : State) : Res :=
  act s fun s => s.access rq (Reg.LNK_CTRL l.val) fun s => s.writeLinkCtrl l.val (v ||| 2)

/-- LINK_DRAIN (R253, R262). -/
def execLinkDrain (rq : Requester) (l : Fin 12) (v : Word) (s : State) : Res :=
  act s fun s => s.access rq (Reg.LNK_CTRL l.val) fun s => s.writeLinkCtrl l.val (v ||| 4)

/-- The port goes UP (R253, R234, R262): empty, with full credit, in the mode that LNK_CTRL gave, with the keys of both directions where it encrypts
(R411). -/
def State.linkUp (s : State) (l : Nat) (x : Trained) : State :=
  let gw := s.regF (Reg.LNK_CTRL l) 5 5
  let peer := x.node.val
  let key (dir : Nat) : Nat := if s.regF (Reg.LNK_CTRL l) 4 4 = 0 then 0 else (Config.linkKey x.secret (min s.node peer) (max s.node peer) dir).toNat
  let up := if s.node < peer then 0 else 1
  let s := s.modPort l (fun q => { Port.idle with keyId := q.keyId, txKey := key up, rxKey := key (1 - up) })
  let s := ((s.setLink l 2).setRegF (Reg.LNK_STATUS l) 28 28 gw).setRegF (Reg.LNK_STATUS l) 27 27 (s.regF (Reg.LNK_CTRL l) 4 4)
  let s := s.setRegF (Reg.LNK_STATUS l) 23 16 0xFF
  let s := s.setRegN (Reg.LNK_PEER l) (if gw = 1 then 0 else 2 ^ 31 + x.port.val * 2 ^ 24 + x.node.val)
  s.cause (Reg.LNK_IRQ_CAUSE l) 1

/-- Training of all eight lanes has passed (R253, R411): with encrypt set, the two Rangers authenticate first; that takes an identity leaf. -/
def State.trainingPass (s : State) (l : Nat) (x : Trained) : State :=
  if s.link l ≠ 1 then s
  else if s.regF (Reg.LNK_CTRL l) 4 4 = 0 then s.linkUp l x
  else match s.useLeaf with
    | none => s.authFail l 4
    | some (_, s) => if x.fail = 0 then s.linkUp l x else s.authFail l x.fail.val

/-- TRAINING_PASS (R253, R411). -/
def execTrainingPass (l : Fin 12) (x : Trained) (s : State) : Res := act s fun s => s.trainingPass l.val x

/-- Training has failed (R253). -/
def State.trainingFail (s : State) (l : Nat) : State := if s.link l = 1 then s.linkDown l 3 else s

/-- TRAINING_FAIL (R253). -/
def execTrainingFail (l : Fin 12) (s : State) : Res := act s fun s => s.trainingFail l.val

/-- LINK_QUIET (R253): a DRAINING port whose queues, spill and replay buffer are empty goes OFF. -/
def execLinkQuiet (l : Fin 12) (s : State) : Res :=
  act s fun s =>
    if s.link l.val = 3 ∧ (s.port l.val).queue.isEmpty ∧ (s.port l.val).replay.isEmpty ∧ (s.port l.val).current.isNone then
      ((s.setLink l.val 0).setRegF (Reg.LNK_STATUS l.val) 23 16 0).cause (Reg.LNK_IRQ_CAUSE l.val) 32
    else s

end Sys2Proof.Machine
end

