-- ==== Sys2Proof/Machine/Boot.lean ====
section
/-! DEFINITION. Resets and boot (R393 to R401): losing power, cold, warm, unit and CXL port resets, the checks of an image, the boot that runs
from it, a trial's watchdog. -/

namespace Sys2Proof.Machine

/-! ### Resets (R393 to R395) -/

/-- What the NOR keeps of boot: images, boot record, incarnation, reserved leaves. -/
def Boot.kept (b : Boot) : Boot :=
  { Boot.reset with
      images := b.images, good := b.good, slot := b.slot, trial := b.trial, trialCount := b.trialCount, trialReason := b.trialReason,
      inc := b.inc, leafEnd := b.leafEnd }

/-- Everything returns to its reset value but fuses and NOR (R394); the PERST_N pins are what they were. -/
def State.coldReset (s : State) : State :=
  let low (h : Nat) : Bool := decide (s.regF (Reg.CXL_STATUS h) 31 29 = 3)
  let t : State :=
    { State.reset with
        fuses := s.fuses, out := s.out, pending := s.pending, fresh := s.fresh, quarRecord := s.quarRecord,
        ft := { State.reset.ft with packages := s.ft.packages }, boot := s.boot.kept }
  let t := t.setReg Reg.RNG_RESET_CAUSE 1
  (List.range 2).foldl (fun t h => if low h then t.setRegF (Reg.CXL_STATUS h) 31 29 3 else t) t

/-- What a warm reset leaves of the Loft's channels: their roles change by rebuild alone (R146), and a dead one stays dead until a cold reset (R154; that
degraded and no_spare stay with them is DEDUCED, log entry 53). -/
def State.keepRoles (t s : State) : State :=
  let t := (List.range 18).foldl (fun t f =>
    (t.setRegF (Reg.LFT_CH_STATUS f) 27 21 (s.regF (Reg.LFT_CH_STATUS f) 27 21)).setRegF (Reg.LFT_CH_STATUS f) 29 29 (s.regF (Reg.LFT_CH_STATUS f) 29 29)) t
  (t.setRegF Reg.LFT_STATUS 30 30 (s.regF Reg.LFT_STATUS 30 30)).setRegF Reg.LFT_STATUS 28 28 (s.regF Reg.LFT_STATUS 28 28)

/-- A warm reset of a kind (R394, R395): besides fuses and NOR, it keeps the log ring, what is withheld, stack repairs, the signature counter,
RNG_RESET_CAUSE and debug_seen; `level` is the debug level it leaves. A level that ends with it is a change of level (R413), which extends M6 after
the measurements return to zero (DEDUCED, log entry 71); `token` is the digest of the token that caused it, 0 without one. -/
def State.warmReset (s : State) (kind level : Nat) (token : Nat := 0) : State :=
  let cause := s.regN Reg.RNG_RESET_CAUSE
  let t : State :=
    { s.coldReset with
        errs := { s.errs with ceCount := [], ceTime := [] },
        ft := { State.reset.ft with packages := s.ft.packages, withheldUnits := s.ft.withheldUnits, withheldPages := s.ft.withheldPages } }
  let t := (t.modBoot (fun b => { b with leaf := s.boot.leaf })).setReg64 Reg.RNG_ID_SIG_CTR_LO (s.reg64 Reg.RNG_ID_SIG_CTR_LO)
  let t := t.setRegN Reg.RNG_ERR_QUEUED s.errs.ring.length
  let t := t.keepRoles s
  let t := t.setRegN Reg.RNG_FT_WITHHELD (s.regN Reg.RNG_FT_WITHHELD)
  let t := (List.range 6).foldl (fun t i => t.setRegF (Reg.HUB_STACK_STATUS (i / 3) (i % 3)) 15 0 (s.regF (Reg.HUB_STACK_STATUS (i / 3) (i % 3)) 15 0)) t
  let t := t.setRegN Reg.RNG_RESET_CAUSE (min 65535 (cause / 2 ^ 16 + 1) * 2 ^ 16 + cause / 2 ^ 9 % 2 * 2 ^ 9 + (if s.stopped then 2 ^ 8 else 0) + kind)
  (t.setRegN Reg.RNG_DBG_STATUS (s.regF Reg.RNG_DBG_STATUS 2 2 * 4 + level)).setDebugLevel s.debugLevel level token

/-- POWER_LOSS (R393): every memory and state is lost; the part stops. -/
def execPowerLoss (s : State) : Res :=
  .next (let t := s.coldReset; { t with stopped := true, power := { t.power with off := true } })

/-- COLD_RESET (R394): PWRGD rises. -/
def execColdReset (s : State) : Res := .next s.coldReset

/-- WARM_RESET (R394): by RST_N while PWRGD is high, or by a requester that may write RNG_RESET_CTRL; after a fatal event only RST_N has an effect
(R356). -/
def execWarmReset (by_ : Option (Requester × Word)) (s : State) : Res :=
  match by_ with
  | none => .next (if s.power.off then s else s.warmReset 2 0)
  | some (rq, _) => act s fun s => s.access rq Reg.RNG_RESET_CTRL fun s => s.warmReset 3 0

/-- The kind of unit that RNG_RESET_CTRL names (R415). -/
def resetKind : Nat → Option UnitKind
  | 1 => some .me | 2 => some .gc | 3 => some .win | 4 => some .row | _ => none

/-- UNIT_RESET (R394, R415): an unreserved unit. -/
def execUnitReset (rq : Requester) (v : Word) (s : State) : Res :=
  act s fun s => s.access rq Reg.RNG_RESET_CTRL fun s =>
    let s := s.store Reg.RNG_RESET_CTRL v
    let i := s.regF Reg.RNG_RESET_CTRL 5 0
    match resetKind (s.regF Reg.RNG_RESET_CTRL 10 8) with
    | some k => if i < k.count ∧ (s.owner k i).isNone then (s.wakeNow (k.key i)).resetUnit k i else s
    | none => s

/-! ### CXL port resets (R216, R394, R397, R423, R432) -/

/-- A CXL port is reset (R394): its link is down, its configuration state lost, its hosts are lost (R216), pending ranges dropped (R423), its session
and its IDE keys gone (R432). -/
def State.resetCxlPort (s : State) (h st : Nat) : State :=
  let a := Reg.CXL_STATUS h
  let s := if s.regF a 31 29 = 2 then (s.count (Reg.CXL_DOWNS h) 1).cause (Reg.CXL_IRQ_CAUSE h) 2 else s
  let s := s.setRegN a (st * 2 ^ 29)
  let s := (allLds h).foldl (fun s i => s.modLd i (fun d => { LogicalDevice.reset with events := d.events, nextHandle := d.nextHandle })) s
  let s : State := { s with mgmt := { s.mgmt with sessions := Tbl.set (fun _ => none) s.mgmt.sessions h none,
                                                  ideKeys := Tbl.set (fun _ => none) s.mgmt.ideKeys h none } }
  (s.hostsLost (allLds h)).dropPending (portLds h)

/-- PERST_N_ASSERT (R394). -/
def execPerstNAssert (h : Fin 2) (why : Fin 3) (s : State) : Res :=
  act s fun s =>
    if why = 0 then (s.resetCxlPort h.val 3).cause (Reg.CXL_IRQ_CAUSE h.val) 4
    else if s.regF (Reg.CXL_STATUS h.val) 31 29 = 3 then s
    else s.resetCxlPort h.val 0

/-- PERST_N_DEASSERT (R397, R459): the port trains, and a link test of its lanes is preempted; in recovery it stays disabled (R398). -/
def execPerstNDeassert (h : Fin 2) (s : State) : Res :=
  act s fun s =>
    if s.regF (Reg.CXL_STATUS h.val) 31 29 = 3 then
      (s.tallyPreempt (2 + h.val) 3).setRegF (Reg.CXL_STATUS h.val) 31 29 (if s.boot.recovery then 0 else 1)
    else s

/-- CXL_PORT_READY (R397): after boot step 8, with PERST_N high. -/
def execCxlPortReady (h : Fin 2) (s : State) : Res :=
  act s fun s =>
    if s.boot.done ∧ s.regF (Reg.CXL_STATUS h.val) 31 29 ≠ 3 then s.setRegF (Reg.CXL_STATUS h.val) 28 28 1 else s

/-! ### Images (R399 to R401) -/

/-- The 32-bit field at a byte of an image. -/
def imageWord (img : List Nat) (i : Nat) : Nat :=
  img.getD i 0 + img.getD (i + 1) 0 * 2 ^ 8 + img.getD (i + 2) 0 * 2 ^ 16 + img.getD (i + 3) 0 * 2 ^ 24

/-- A stage of an image (R400): kind, contents' place and length, digest. -/
structure ImageStage where
  kind : Nat
  off : Nat
  len : Nat
  digest : Nat
  deriving DecidableEq, Repr

/-- The stages that an image's header lists. -/
def imageStages (img : List Nat) : List ImageStage :=
  (List.range (min 32 (img.getD 11 0))).map (fun i =>
    ⟨imageWord img (24 + 32 * i), imageWord img (16 + 32 * i), imageWord img (20 + 32 * i),
     digestOf ((img.drop (32 + 32 * i)).take 16 ++ (img.drop (1040 + 16 * i)).take 16)⟩)

/-- The bytes of a stage. -/
def ImageStage.bytes (st : ImageStage) (img : List Nat) : List Nat := (img.drop st.off).take st.len

/-- Is the stage whole, and its digest the one of its entry? -/
def ImageStage.ok (st : ImageStage) (img : List Nat) : Bool :=
  decide (st.off % 4096 = 0) && decide (4096 ≤ st.off) && decide (st.off + st.len ≤ img.length) && decide (sha256 (st.bytes img) = st.digest)

/-- The public key an image carries (R400, R406). -/
def imageKeyBytes (img : List Nat) : List Nat := (img.drop 2048).take hssKeyBytes

/-- Boot step 4 (R396, R400, R401): 0 the image passes; 1 signature, 2 stepping, 3 below the fused floor. A header that is none, a wrong stage or a
missing one counts as 1 (DEDUCED, log entry 29). -/
def State.imageCheck (s : State) (img : List Nat) (signed : Bool) : Nat :=
  let sts := imageStages img
  if !signed || (s.imageKey (imageKeyBytes img)).isNone || decide (imageWord img 0 ≠ 0xB64E0001) || decide (img.getD 11 0 = 0) || decide (32 < img.getD 11 0)
      || !(sts.all (fun t => t.ok img)) || !([1, 2, 3, 4, 6].all (fun k => sts.any (fun t => decide (t.kind = k)))) then 1
  else if img.getD 8 0 ≠ 0xA1 then 2
  else if img.getD 9 0 < s.fuses.floor then 3
  else 0

/-- The measurement a kind of stage goes into (R400). -/
def stageMeas : Nat → Nat
  | 1 => 0 | 2 => 1 | 3 => 2 | 4 => 3 | 5 => 1 | _ => 2

/-- Measure an image: the header, then its stages in the order of its table (R400, R408). -/
def State.measure (s : State) (img : List Nat) : State :=
  (imageStages img).foldl (fun s t => s.extend (stageMeas t.kind) (digestBytes t.digest)) (s.extend 0 (digestBytes (sha256 (img.take 4096))))

/-- The initial parameter set of an image, 64 words (R402). -/
def imageParams (img : List Nat) : List Nat :=
  match (imageStages img).find? (fun t => decide (t.kind = 4)) with
  | some t => (leWords (t.bytes img) ++ List.replicate 64 0).take 64
  | none => List.replicate 64 0

/-- The image in a slot. -/
def State.image (s : State) (slot : Nat) : List Nat := Tbl.get (fun _ => []) s.boot.images slot

/-! ### Boot (R396 to R401) -/

/-- The incarnation of this reset (R251, R468): the next one, never 0. -/
def State.nextIncarnation (s : State) : State :=
  let n := (s.boot.inc + 1) % 65536
  let n := if n = 0 then 1 else n
  (s.modBoot (fun b => { b with inc := n })).setRegF Reg.SW_NODE 31 16 n

/-- Apply the configuration records (R400): what registers show of them. -/
def State.configure (s : State) (c : BootConfig) : State :=
  let s := s.modBoot (fun b => { b with config := c })
  let s := (s.setRegF Reg.SW_NODE 11 0 c.node).setRegN Reg.SW_CELL (c.cell * 2 ^ 22 + c.sizeZ * 2 ^ 15 + c.sizeY * 2 ^ 10 + c.sizeX * 2 ^ 5)
  let s := s.setRegN Reg.SW_CUT c.cut
  let map := c.w1 * 2 ^ 16 + c.w3 * 2 ^ 8 + c.w6
  let s := (s.setRegN (Reg.HUB_T1_MAP 0) map).setRegN (Reg.HUB_T1_MAP 1) map
  let s := s.setRegF Reg.RNG_I3C_STATUS 6 0 c.i3cStatic
  { s with netAddr := (List.range 2).foldl (fun t i => Tbl.set (fun _ => 0) t i (c.addrs.getD i 0)) [] }

/-- Restore the quarantine that the NOR boot record keeps (R395, R396). -/
def State.restoreQuarantine (s : State) : State :=
  unitKinds.foldl (fun s k => (List.range k.count).foldl (fun s i =>
    if s.quarRecord.contains (k.key i) then s.setRegF (k.status i) 31 31 1 else s) s) s

/-- The NAND of a channel is found (R146, R162): its geometry and bad blocks; it is trained unless it is among those that fail. -/
def State.findNand (s : State) (f : Fin 18) (n : FittedNand) (trained : Bool) : State :=
  let s := (s.setRegF (Reg.LFT_CH_STATUS f.val) 31 31 1).setRegF (Reg.LFT_CH_STATUS f.val) 30 30 (if trained then 1 else 0)
  let s := s.setRegN (Reg.LFT_CH_GEOMETRY f.val)
    (n.eblocks.val * 2 ^ 16 + n.planes.val * 2 ^ 12 + n.ces.val * 2 ^ 8 + n.luns.val * 2 ^ 4 + (if n.page32 then 1 else 0))
  (s.setRegN (Reg.LFT_CH_BAD_BLOCKS f.val) (min n.bad.length 0xFFFFFFFF)).modLoft (fun l => { l with bad := Tbl.set (fun _ => []) l.bad f.val n.bad })

/-- Train the Loft channels and size the pool (R148, R153, R162, R396): the NAND found, usable bytes of the smallest data channel, and the channels that
fail. -/
def State.trainLoft (s : State) (nand : List (Fin 18 × FittedNand)) (raw : Nat) (dead : List (Fin 18)) : State :=
  let s := nand.foldl (fun s e => s.findNand e.1 e.2 (!dead.contains e.1 && decide (s.regF (Reg.LFT_CH_STATUS e.1.val) 29 29 = 0))) s
  let gib := min 16384 (16 * raw * (32 - s.boot.config.loftOp) / 32 / 2 ^ 30)
  let spare (f : Nat) : Bool := decide (s.regF (Reg.LFT_CH_STATUS f) 27 25 = 2) && decide (s.regF (Reg.LFT_CH_STATUS f) 29 29 = 0)
  let s := s.setRegF Reg.LFT_STATUS 4 0 (((List.range 18).find? spare).getD 31)
  let s := (s.setRegF Reg.LFT_CAPACITY 14 0 gib).setRegF Reg.LFT_POOL_FREE 14 0 gib
  dead.foldl (fun s f => s.channelDead f.val 1) s

/-- The Cofeben ports of the image are enabled; those that answer go UP, the others fail training (R396, R411). -/
def State.trainPorts (s : State) (trained : List (Fin 12 × Trained)) : State :=
  (List.range 12).foldl (fun s l =>
    match s.boot.config.ports[l]? with
    | none => s
    | some c =>
      let s := (s.setRegF (Reg.LNK_CTRL l) 5 5 (if c.gateway then 1 else 0)).setRegF (Reg.LNK_CTRL l) 4 4 (if c.encrypt then 1 else 0)
      if !c.enable then s
      else
        let s := s.linkEnable l
        match trained.find? (fun e => decide (e.1.val = l)) with
        | some e => s.trainingPass l e.2
        | none => s.trainingFail l) s

/-- A trial that has reached step 11 becomes the active slot; with raise_floor its sec_version becomes the fused floor (R400, R401). -/
def State.commitTrial (s : State) (img : List Nat) : State :=
  if s.boot.onTrial then
    let s := s.modBoot (fun b => { b with slot := b.booted, trial := none, trialCount := 0, trialReason := 0, onTrial := false })
    if img.getD 10 0 % 2 = 1 then { s with fuses := { s.fuses with floor := max s.fuses.floor (img.getD 9 0) } } else s
  else s

/-- Send BOOT_FALLBACK (R401, R414). -/
def State.fellBack (s : State) (slot reason : Nat) : State :=
  ((s.report 2 0x0063 14 0 none 0 [slot, reason]).cause Reg.CFG_IRQ_CAUSE 8).setRegF Reg.RNG_RESET_CAUSE 9 9 1

/-- Steps 4 to 11 from the image of a slot (R396). `fell` lists slots that failed before, with their reasons. -/
def State.bootFrom (s : State) (slot : Nat) (cfg : BootConfig) (run : BootRun) (fell : List (Nat × Nat)) : State :=
  let img := s.image slot
  let s := s.measure img
  let params := imageParams img
  let s := s.modBoot (fun b => { b with active := params, shadow := none, shadowVer := 0, booted := slot, secVer := img.getD 9 0 })
  let s := (s.setRegN Reg.CFG_ACTIVE_VER (wordAt params 0)).setRegN Reg.CFG_IMAGE_VER (imageWord img 4)
  let s := s.setRegF Reg.RNG_FUSE_STATUS 0 0 ((s.imageKey (imageKeyBytes img)).getD 0)
  let s := s.configure cfg
  let s := fell.foldl (fun s f => s.fellBack f.1 f.2) s
  let (k, s) := s.draw
  let s := (s.modBoot (fun b => { b with kem := k })).resumeLeaf
  if !run.completes then s
  else
    let s := (List.range 6).foldl (fun s i => s.setRegF (Reg.HUB_STACK_STATUS (i / 3) (i % 3)) 31 31 1) s
    let s := if s.regF Reg.RNG_RESET_CAUSE 3 0 = 1 then
        run.repairs.foldl (fun s r => s.setRegF (Reg.HUB_STACK_STATUS (r.1.val / 3) (r.1.val % 3)) 15 0 r.2.toNat) s
      else s
    let s := s.restoreQuarantine
    let s := (List.range 2).foldl (fun s h => if s.regF (Reg.CXL_STATUS h) 31 29 = 3 then s else s.setRegF (Reg.CXL_STATUS h) 28 28 1) s
    let s := (s.trainPorts run.trained).trainLoft run.nand run.raw run.dead
    let s := (s.modBoot (fun b => { b with done := true })).commitTrial img
    let s := s.setRegN Reg.CFG_BOOT_TIME (s.lcc / 100000)
    s.report 0 0x0062 14 0 none 0 [slot, imageWord img 4, s.lcc / 100000 % 2 ^ 32, s.regN Reg.RNG_RESET_CAUSE]

/-- Recovery (R398, R434): neither slot holds an image that passes. The CXL and Cofeben ports are disabled. -/
def State.recover (s : State) (r0 r1 : Nat) : State :=
  let s := s.modBoot (fun b => { b with recovery := true })
  let s := (List.range 2).foldl (fun s h => if s.regF (Reg.CXL_STATUS h) 31 29 = 3 then s else s.resetCxlPort h 0) s
  let u := s.fuses.uid
  let addr := 169 * 2 ^ 24 + 254 * 2 ^ 16 + (1 + u / 2 ^ 8 % 256 % 254) * 2 ^ 8 + (1 + u % 256 % 254)
  let s : State := { s with netAddr := Tbl.set (fun _ => 0) (Tbl.set (fun _ => 0) [] 0 addr) 1 addr }
  let s := s.setRegF Reg.RNG_NET_STATUS 29 29 1
  (s.report 2 0x0064 14 0 none 0 [0, r0]).report 2 0x0064 14 0 none 0 [1, r1]

/-- BOOT (R396 to R401): once after each reset. It takes an incarnation even where it ends in recovery (R468: at each reset; log entry 29). The boot record chooses the slot: a trial slot not tried yet, else the active slot, whose failure leaves
the other (DEDUCED, log entry 29). -/
def execBoot (config : BootConfig) (run : BootRun) (s : State) : Res :=
  act s fun s =>
    if s.boot.started then s
    else
      let s := (s.modBoot (fun b => { b with started := true })).nextIncarnation
      let check (slot : Nat) : Nat := s.imageCheck (s.image slot) (run.signed.getD slot false)
      match s.boot.trial, s.boot.trialCount with
      | some t, 0 =>
        let s := s.modBoot (fun b => { b with trialCount := 1, onTrial := true, booted := t })
        if check t = 0 then s.bootFrom t config run [] else s.modBoot (fun b => { b with trialReason := check t })
      | trial, _ =>
        let fell : List (Nat × Nat) := trial.toList.map (fun t => (t, if s.boot.trialReason = 0 then 4 else s.boot.trialReason))
        let s := (s.modBoot (fun b => { b with trial := none, trialCount := 0, trialReason := 0 })).setRegF Reg.RNG_RESET_CAUSE 9 9 0
        let a := s.boot.slot
        if check a = 0 then s.bootFrom a config run fell
        else if check (1 - a) = 0 then s.bootFrom (1 - a) config run (fell ++ [(a, check a)])
        else (fell.foldl (fun s f => s.fellBack f.1 f.2) s).recover (check 0) (check 1)

/-- BOOT_WATCHDOG (R401): a trial that has failed step 4, or not reached step 11 within 10 s, is reset; the next boot falls back. -/
def execBootWatchdog (s : State) : Res :=
  act s fun s =>
    if s.boot.onTrial ∧ !s.boot.done ∧ (s.boot.trialReason ≠ 0 ∨ 1000000000 < s.lcc) then
      (s.modBoot (fun b => { b with trialReason := if b.trialReason = 0 then 4 else b.trialReason })).warmReset 4 0
    else s

end Sys2Proof.Machine
end

