-- ==== Sys2Proof/Machine/Rings.lean ====
section
/-! DEFINITION. The rings of a partition from outside (R33 to R46, R55, R56, R62, R260): registering and disabling them, stores that land on
them, transfer of committed packets, the heads that software advances, the fault FIFO. -/

namespace Sys2Proof.Machine

/-! ### Registration (R33, R55) -/

/-- The bounds of the size of a ring, as powers of two: chutes and mailbox 4 KiB to 16 MiB, the completion chute to 1 MiB; 2^7 to 2^16
escalation entries of 32 bytes. -/
def ringSizes (n : Nat) : Nat × Nat := if n = cplRing then (12, 20) else if n = escRing then (12, 21) else (12, 24)

/-- May chute n be registered: is its index below the chutes reserved (R33, code 3)? -/
def State.chuteIndexOk (s : State) (p n : Nat) : Bool := decide (64 ≤ n) || decide (n < s.regF (Reg.PART_RSV_TAGS p) 30 24)

/-- Does the mailbox signal a semaphore outside the partition's range (R260, code 5)? -/
def State.mboxSemBad (s : State) (p : Nat) : Bool :=
  decide (s.regF (Reg.PART_MBOX_SEM p) 31 31 = 1) && !s.semIn p (s.regF (Reg.PART_MBOX_SEM p) 17 0)

/-- A write of enable 1 to the control register of a chute, the completion chute or the mailbox: nothing while enable is 1; else size and
enable are taken and the ring registers (R33). -/
def State.enableRing (s : State) (p n : Nat) (v : Word) : State :=
  let ctrl := ringCtrl p n
  if bitOf (s.reg ctrl) 0 then s
  else
    let s := s.store ctrl (v ||| 1)
    let r : Range := ⟨s.ringBase p n, 2 ^ s.regF ctrl 12 8⟩
    let err := s.ringCheck p n (s.chuteIndexOk p n) (s.regF ctrl 12 8) (ringSizes n).1 (ringSizes n).2 r ⟨0, 0⟩
    s.registerRing p n ctrl (if err = 0 ∧ n = mboxRing ∧ s.mboxSemBad p then 5 else err) r ⟨0, 0⟩

/-- CHUTE_ENABLE (R33). -/
def execChuteEnable (rq : Requester) (p : Fin 32) (n : Fin 64) (v : Word) (s : State) : Res :=
  act s fun s => s.access rq (ringCtrl p.val n.val) (fun s => s.enableRing p.val n.val v)

/-- CPL_ENABLE (R55). -/
def execCplEnable (rq : Requester) (p : Fin 32) (v : Word) (s : State) : Res :=
  act s fun s => s.access rq (ringCtrl p.val cplRing) (fun s => s.enableRing p.val cplRing v)

/-- MBOX_ENABLE (R260). -/
def execMboxEnable (rq : Requester) (p : Fin 32) (v : Word) (s : State) : Res :=
  act s fun s => s.access rq (ringCtrl p.val mboxRing) (fun s => s.enableRing p.val mboxRing v)

/-- CHUTE_DISABLE (R43). -/
def execChuteDisable (rq : Requester) (p : Fin 32) (n : Fin 64) (v : Word) (s : State) : Res :=
  act s fun s => s.access rq (ringCtrl p.val n.val) (fun s => s.disableWrite p.val n.val v)

/-- What a ring's registers hold once it is ready (R33, R55, R260). That PART_CHUTE_LAST_REWIND returns to 0 at a registration is the model's choice
(DESIGN CHOICE, log entry 37): R44 says only that it holds the reason of the latest rewind. -/
def State.ringReady (s : State) (p n : Nat) : State :=
  let s := (s.modRing p n (fun r => { r with zeroing := false, ready := true })).setRegF (ringCtrl p n) 31 31 1
  if n = cplRing then
    ((s.setRegN (Reg.PART_CPL_TAIL p) 0).setRegN (Reg.PART_CPL_HEAD p) 0).modPart p (fun pt => { pt with phaseBit := true })
  else if n = mboxRing then
    ((s.setRegN (Reg.PART_MBOX_TAIL p) 0).setRegN (Reg.PART_MBOX_HEAD p) 0).modFab (fun x =>
      { x with mboxPhase := Tbl.set (fun _ => false) x.mboxPhase p true })
  else if n = escRing then s.setRegN (Reg.PART_ESC_USED p) 0
  else
    let s := (s.setRegN (Reg.PART_CHUTE_NEXT_POS p n) 0).setRegN (Reg.PART_CHUTE_NEXT_SEQ p n) 0
    let s := (s.setRegN (Reg.PART_CHUTE_REWINDS p n) 0).setRegN (Reg.PART_CHUTE_LAST_REWIND p n) 0
    let s := s.modPart p (fun pt => { pt with others := pt.others.filter (fun o => decide (o.1 ≠ n)) })
    (s.setRegN (Reg.PART_CHUTE_HELD_MAX p n) 0).rearm p n

/-- CHUTE_REGISTER_DONE (R33): the ring is zeroed and ready; of the escalation table and its arena, the table is zeroed (R102). -/
def execChuteRegisterDone (p : Fin 32) (n : Fin 67) (s : State) : Res :=
  act s fun s =>
    let r := (s.part p.val).ring n.val
    if !r.zeroing then s
    else match s.heldBack r.range with
      | [] => (s.t1Clear r.range).ringReady p.val n.val
      | ls => s.wantAll true ls

/-- CHUTE_DISABLE_DONE (R43): no committed packet is left. -/
def execChuteDisableDone (p : Fin 32) (n : Fin 67) (s : State) : Res :=
  act s fun s =>
    let r := (s.part p.val).ring n.val
    if r.disabling && r.pkts.isEmpty then
      let s := if n.val = mboxRing then s.modFab (fun x => { x with inbound := x.inbound.filter (fun m => decide (m.part ≠ p.val)) }) else s
      s.finishDisable p.val n.val (ringSizes n.val).1 (ringSizes n.val).2 (s.chuteIndexOk p.val n.val)
        (decide (n.val = mboxRing) && s.mboxSemBad p.val)
    else s

/-! ### Heads (R56) -/

/-- A write of a head: `n` entries, none while the ring is not ready. -/
def State.headWrite (s : State) (rq : Requester) (head tail : Nat) (n : Nat) (v : Word) : State :=
  s.access rq head (fun s =>
    let h := s.regN head
    let t := s.regN tail
    let h' := v.toNat % 2 ^ 18 % max 1 n
    if n = 0 ∨ (t + n - h) % n < (h' + n - h) % n then s.violateReg rq true head else s.setRegN head h')

/-- Entries of a ring that is ready, of a size in bytes. -/
def State.ringEntries (s : State) (p n bytes : Nat) : Nat :=
  let r := (s.part p).ring n
  if r.ready then r.range.size / bytes else 0

/-- CPL_HEAD_WRITE (R56): records of 32 bytes. -/
def execCplHeadWrite (rq : Requester) (p : Fin 32) (v : Word) (s : State) : Res :=
  act s fun s => s.headWrite rq (Reg.PART_CPL_HEAD p.val) (Reg.PART_CPL_TAIL p.val) (s.ringEntries p.val cplRing 32) v

/-- MBOX_HEAD_WRITE (R56, R260): lines. -/
def execMboxHeadWrite (rq : Requester) (p : Fin 32) (v : Word) (s : State) : Res :=
  act s fun s => s.headWrite rq (Reg.PART_MBOX_HEAD p.val) (Reg.PART_MBOX_TAIL p.val) (s.ringEntries p.val mboxRing 64) v

/-! ### Stores and transfer (R35 to R42, R46) -/

/-- May a source write this line (R18, R66): a host and a unit in their partition's extents, a peer in any? -/
def State.mayStore (s : State) (src : Source) (line : Nat) : Bool :=
  match src with
  | .host p _ => decide (s.extentPart (64 * line) = some p)
  | .unit p _ _ => decide (s.extentPart (64 * line) = some p)
  | .peer _ _ _ => (s.extentPart (64 * line)).isSome
  | .fmHost _ _ => decide (Config.poolBase ≤ 64 * line) && decide (64 * line < Config.t1Bytes)
  | .device => decide (64 * line < Config.t1Bytes)

/-- CHUTE_STORE (R35, R40): a store lands at its home. -/
def execChuteStore (src : Source) (line : BitVec 34) (mask : BitVec 64) (data : Line) (poison : Bool) (s : State) : Res :=
  act s fun s =>
    let r := HomeReq.store src line.toNat mask.toNat data.toNat poison
    if s.mayStore src line.toNat then s.request r else (s.violateMem src true (s.lineAddr line.toNat)).ackNow r none

/-- HOLD_LIMIT_EXPIRE (R41). -/
def execHoldLimitExpire (p : Fin 32) (n : Fin 66) (i : Nat) (s : State) : Res :=
  act s fun s =>
    match ((s.part p.val).ring n.val).held[i]? with
    | none => s
    | some h => if s.regN (Reg.PART_HOLD_LIMIT p.val) < s.lcc - h.arrival then s.pageCause p.val 16 else s

/-- The first packet of a chute leaves it (R39): its commit-tag word is zeroed and its lines are released. -/
def State.leaveChute (s : State) (p n : Nat) (k : Pkt) : State :=
  let r := (s.part p).ring n
  let s := s.t1Write (r.range.base + 64 * (k.pos + k.len) - 4) 4 0
  let s := s.modRing p n (fun r => { r with pkts := r.pkts.drop 1 })
  (s.releaseHeld p n).rearm p n

/-- A packet ends in its chute (R51, R59): its record waits with this status. -/
def State.endPacket (s : State) (p n status : Nat) (ws : List Nat) : State :=
  let o := (s.part p).nextOrd
  let c : Cmd := { Cmd.ofWords n o ws with phase := .ended, status := status, endOrd := o }
  s.modPart p (fun pt => { pt with nextOrd := o + 1, cmds := pt.cmds ++ [c] })

/-- A packet enters its command queue (R39). -/
def State.queuePacket (s : State) (p n : Nat) (ws : List Nat) : State :=
  let o := (s.part p).nextOrd
  s.modPart p (fun pt => { pt with nextOrd := o + 1, cmds := pt.cmds ++ [Cmd.ofWords n o ws] })

/-- Can the first packet of a chute leave it now (R39, R59)? A COMMAND that is not aborted and whose opcode has a queue needs room there. -/
def State.canLeave (s : State) (p n : Nat) : Bool :=
  match ((s.part p).ring n).pkts with
  | [] => false
  | k :: _ =>
    if nfld (wordAt k.words 0) 11 8 ≠ 0 ∨ k.aborted then true
    else match queueOf (nfld (wordAt k.words 0) 7 0) with
      | none => true
      | some q => decide ((s.inQueue p q).length < 256)

/-- The chute the hub serves next (R39): the first, in round robin, whose first packet can leave it. -/
def State.chuteTurn (s : State) (p : Nat) : Option Nat :=
  ((List.range 64).map (fun i => ((s.part p).turn + i) % 64)).find? (s.canLeave p)

/-- PACKET_TRANSFER (R39, R46, R51, R59), of the chute whose turn it is: a PAD, RESUME or ABORT only leaves; an aborted command and one of no known opcode end without needing
room; another needs room in its queue of 256. In FROZEN packets stay (R30). -/
def execPacketTransfer (p : Fin 32) (n : Fin 64) (s : State) : Res :=
  act s fun s =>
    let p := p.val
    let n := n.val
    if s.pstate p ≠ .active ∨ s.chuteTurn p ≠ some n then s
    else match ((s.part p).ring n).pkts with
      | [] => s
      | k :: _ =>
        let s := s.modPart p (fun pt => { pt with turn := (n + 1) % 64 })
        if nfld (wordAt k.words 0) 11 8 ≠ 0 then s.leaveChute p n k
        else if k.aborted then (s.leaveChute p n k).endPacket p n stAborted k.words
        else match queueOf (nfld (wordAt k.words 0) 7 0) with
          | none => (s.leaveChute p n k).endPacket p n stUnsupported k.words
          | some q => if (s.inQueue p q).length < 256 then (s.leaveChute p n k).queuePacket p n k.words else s

/-- FIFO_PACKET_RECEIVE (R42): a valid commit tag, the right length and the next sequence are taken; else the packet is discarded, the sender
resends it, and the Scaler counts a rewind. -/
def execFifoPacketReceive (k : Fin 10) (w0 : Word) (seq : Word) (len : Fin 64) (tag : Word) (s : State) : Res :=
  act s fun s =>
    let want := Tbl.get (fun _ => 0) s.fifoSeq k.val
    let ok := decide (nfld tag.toNat 31 24 = 0xC7) && decide (nfld tag.toNat 23 16 = seq.toNat % 256)
      && decide (nfld tag.toNat 15 10 = nfld w0.toNat 21 16) && decide (nfld w0.toNat 21 16 = len.val) && decide (seq.toNat = want)
    if ok then { s with fifoSeq := Tbl.set (fun _ => 0) s.fifoSeq k.val ((want + 1) % 2 ^ 32) }
    else if s.sclRuns k.val then s.count (Reg.SCL_FIX_FIFO_REWIND k.val) 1 else s

/-! ### The fault FIFO (R62) -/

/-- FAULT_POP (R62, R63). `ue` says that the record which comes to the head has an uncorrectable word: it is not delivered (R355). -/
def execFaultPop (rq : Requester) (p : Fin 32) (_v : Word) (s : State) (ue : Bool := false) : Res :=
  act s fun s => s.access rq (Reg.PART_FAULT_POP p.val) (fun s =>
    let pop (s : State) : State := State.notify s (s.modPart p.val (fun pt => ({ pt with faults := pt.faults.drop 1 }).admitFaults)) true (some p.val)
    let s := pop s
    if ue ∧ (s.part p.val).faults ≠ [] then pop (s.uncontained p.val 3) else s)

end Sys2Proof.Machine
end

