-- ==== Sys2Proof/Machine/Transfers.lean ====
section
/-! DEFINITION. Parameter sets, trial slots, debug access, and the Ranger's transfers (R378, R379, R402 to R413, R432, R433). -/

namespace Sys2Proof.Machine

/-! ### The runtime parameter set (R402 to R405) -/

/-- The bytes of a parameter set. -/
def paramBytes (ws : List Nat) : List Nat := wordBytes ws

/-- Is a word of a parameter set in its range (R402)? -/
def paramOk (ws : List Nat) (i : Nat) : Bool :=
  let v := wordAt ws i
  match i with
  | 0 => decide (1 ≤ v)
  | 1 => decide (200 ≤ v ∧ v ≤ 950)
  | 2 => decide (1 ≤ v ∧ v ≤ 50)
  | 3 => decide (1 ≤ v ∧ v ≤ 1000)
  | 4 => decide (480 ≤ v ∧ v ≤ 840)
  | 5 => decide (wordAt ws 4 ≤ v ∧ v ≤ 840)
  | 6 => decide (16 ≤ v ∧ v ≤ 65535)
  | 7 => decide (1000 ≤ v)
  | 8 => decide (100000 ≤ v)
  | 9 => decide (1000 ≤ v)
  | 10 => decide (v ≤ 15)
  | 11 => decide (1 ≤ v ∧ v ≤ 16)
  | 12 => decide (v ≤ 7)
  | 13 => decide (v ≤ 30)
  | _ => decide (v = 0)

/-- Put the shadow copy, and show it (R417). The version of a copy that has become invalid still counts for R403: a copy that holds 0xFFFF_FFFF ends
updates until the next reset (R467). -/
def State.setShadow (s : State) (w : Option (List Nat)) : State :=
  ((s.modBoot (fun b => { b with shadow := w, shadowVer := (match w with | some x => wordAt x 0 | none => b.shadowVer) })).setRegF Reg.CFG_PARAM_STATUS 31 31 (if w.isSome then 1 else 0)).setRegN Reg.CFG_SHADOW_VER
    (match w with | some x => wordAt x 0 | none => 0)

/-- Show the result of an update or swap. -/
def State.paramResult (s : State) (r : Nat) : State := s.setRegF Reg.CFG_PARAM_STATUS 29 27 r

/-- SWAP (R404): active and shadow change places; refused BUSY while an update is checked, NO_SHADOW without one. -/
def execSwap (rq : Requester) (_v : Word) (s : State) : Res :=
  act s fun s => s.access rq Reg.CFG_SWAP fun s =>
    if s.boot.checking.isSome then s.paramResult 5
    else match s.boot.shadow with
      | none => s.paramResult 6
      | some new =>
        let old := s.boot.active
        let s := (s.modBoot (fun b => { b with active := new })).setShadow (some old)
        let s := (s.setRegN Reg.CFG_ACTIVE_VER (wordAt new 0)).paramResult 0
        let s := s.extend 5 (digestBytes (sha256 (paramBytes new)))
        (s.report 0 0x0065 14 0 none 0 [wordAt old 0, wordAt new 0]).cause Reg.CFG_IRQ_CAUSE 1

/-! ### Answers to transfers (R432, R440) -/

/-- Answer a transfer message: bit 8 of its type is set. -/
def State.answer (s : State) (tr : Transport) (type id status kind : Nat) (payload : List Nat) : State :=
  s.emit (.xfer tr (0x100 + type) id status kind payload)

/-- The FM DOE does not run in recovery (R433); the other transports do. -/
def State.served (s : State) (tr : Transport) (f : State → State) : State :=
  match tr with
  | .doe _ => if s.boot.recovery then s else f s
  | _ => f s

/-- The answer to OBJ_END, shown in RNG_XFER_STATUS. -/
def State.answerEnd (s : State) (tr : Transport) (id kind status reason : Nat) : State :=
  (s.setRegF Reg.RNG_XFER_STATUS 31 16 (reason * 2 ^ 8 + status * 2 ^ 4 + kind)).answer tr 0x03 id status kind [reason]

/-- PARAM_CHECK_DONE (R403, R467): the update's version must be above those of both copies, the invalid shadow's included. 0 accepted; 1 signature, 2 stepping or UID, 3 range, 4 version. The object is header, words, public key and signature
(PRESUMED, log entry 27). -/
def execParamCheckDone (signed : Bool) (s : State) : Res :=
  act s fun s =>
    match s.boot.checking with
    | none => s
    | some (bytes, tr, id) =>
      let ws := leWords (bytes.take 320)
      let h (i : Nat) := wordAt ws i
      let set := ws.drop 16
      let uid := h 2 + h 3 * 2 ^ 32
      let newest := max (wordAt s.boot.active 0) s.boot.shadowVer
      let r := if !signed ∨ h 0 ≠ 0xB64C0001 ∨ (s.imageKey ((bytes.drop 320).take hssKeyBytes)).isNone then 1
        else if h 1 % 256 ≠ 0xA1 ∨ (uid ≠ 0 ∧ uid ≠ s.fuses.uid) then 2
        else if !((List.range 64).all (paramOk set)) then 3
        else if wordAt set 0 ≤ newest then 4 else 0
      let s := ((s.modBoot (fun b => { b with checking := none })).setRegF Reg.CFG_PARAM_STATUS 30 30 0).paramResult r
      if r = 0 then ((s.setShadow (some set)).cause Reg.CFG_IRQ_CAUSE 2).answerEnd tr id 3 0 0
      else ((s.report 0 0x0066 14 0 none 0 [r]).cause Reg.CFG_IRQ_CAUSE 4).answerEnd tr id 3 6 r

/-! ### Trial slots (R401, R417) -/

/-- SET_TRIAL (R401, R417): err 1 no valid image, 2 below the floor, 3 the slot is active. -/
def execSetTrial (rq : Requester) (v : Word) (s : State) : Res :=
  act s fun s => s.access rq Reg.CFG_IMAGE_CTRL fun s =>
    let s := s.store Reg.CFG_IMAGE_CTRL v
    let slot := s.regF Reg.CFG_IMAGE_CTRL 4 4
    let err := if slot = s.boot.slot then 3 else if !(Tbl.get (fun _ => false) s.boot.good slot) then 1
      else if (s.image slot).getD 9 0 < s.fuses.floor then 2 else 0
    let s := s.setRegF Reg.CFG_IMAGE_CTRL 31 29 err
    if err = 0 then s.modBoot (fun b => { b with trial := some slot, trialCount := 0, trialReason := 0 }) else s

/-! ### Debug access (R413) -/

/-- NEW_CHALLENGE (R413): a fresh challenge, a free value (log entry 4), in place of the one before. -/
def execNewChallenge (rq : Requester) (_v : Word) (s : State) : Res :=
  act s fun s => s.access rq Reg.RNG_DBG_CTRL fun s =>
    let (n, s) := s.draw
    s.setReg64 Reg.RNG_DBG_CHALLENGE_LO n

/-- RELOCK (R413): back to level 0, from level 3 through a warm reset. -/
def execRelock (rq : Requester) (_v : Word) (s : State) : Res :=
  act s fun s => s.access rq Reg.RNG_DBG_CTRL fun s =>
    match s.debugLevel with
    | 2 => s.setDebugLevel 2 0 0
    | 3 => s.warmReset 5 0
    | _ => s

/-- Is a debug token good (R413): its form, UID, the current challenge, a level, its key and its signature? -/
def State.tokenOk (s : State) (token : List Nat) (signed : Bool) : Bool :=
  let ws := leWords (token.take 64)
  let ch := s.reg64 Reg.RNG_DBG_CHALLENGE_LO
  signed && decide (token.length = 64 + hssKeyBytes + hssSigBytes) && decide (sha256 ((token.drop 64).take hssKeyBytes) = s.fuses.debugKey)
    && decide (wordAt ws 0 = 0xB64D0001) && decide (wordAt ws 1 + wordAt ws 2 * 2 ^ 32 = s.fuses.uid) && decide (ch ≠ 0)
    && decide (wordAt ws 3 + wordAt ws 4 * 2 ^ 32 = ch) && (decide (wordAt ws 5 = 2) || decide (wordAt ws 5 = 3))
    && (ws.drop 6).all (fun w => decide (w = 0))

/-- Apply a debug token that is good (R413): level 2 at once, level 3 through a warm reset; the challenge is used up. -/
def State.useToken (s : State) (token : List Nat) : State :=
  let digest := sha256 (token.take 64)
  let old := s.debugLevel
  let s := s.setReg64 Reg.RNG_DBG_CHALLENGE_LO 0
  if wordAt (leWords (token.take 64)) 5 = 3 then s.warmReset 5 3 digest else s.setDebugLevel old 2 digest

/-- Bytes as numbers. -/
def byteNats (bs : List Byte) : List Nat := bs.map (·.toNat)

/-- DEBUG_TOKEN (R413): a token through the TAP. -/
def execDebugToken (token : List Byte) (signed : Bool) (s : State) : Res :=
  act s fun s => if s.tokenOk (byteNats token) signed then s.useToken (byteNats token) else s

/-! ### Object transfers (R432, R433) -/

/-- An open transfer of a kind. -/
def State.xfer (s : State) (kind : Nat) : Option Xfer := Tbl.get (fun _ => none) s.mgmt.xfers kind

/-- Open, change or close the transfer of a kind, and show it (R440). -/
def State.setXfer (s : State) (kind : Nat) (x : Option Xfer) : State :=
  ({ s with mgmt := { s.mgmt with xfers := Tbl.set (fun _ => none) s.mgmt.xfers kind x } }).setRegF Reg.RNG_XFER_STATUS (kind - 1) (kind - 1)
    (if x.isSome then 1 else 0)

/-- Is there an object kind of this code (R432)? -/
def objKind (k : Nat) : Bool := decide (1 ≤ k) && decide (k ≤ 4)

/-- May an object of a kind have this length (R433)? -/
def objLength (kind n : Nat) : Bool :=
  match kind with
  | 1 => decide (n ≤ 2 ^ 24)
  | 2 => decide (n ≤ 2 ^ 24 + 64 + hssKeyBytes + hssSigBytes)
  | 3 => decide (n = 64 + 256 + hssKeyBytes + hssSigBytes)
  | _ => decide (n = 64 + hssKeyBytes + hssSigBytes)

/-- Erase an image slot, withdrawing it as the trial slot (R433). -/
def State.eraseSlot (s : State) (slot : Nat) : State :=
  let s := s.modBoot (fun b => { b with images := Tbl.set (fun _ => []) b.images slot [], good := Tbl.set (fun _ => false) b.good slot false })
  if s.boot.trial = some slot then s.modBoot (fun b => { b with trial := none, trialCount := 0, trialReason := 0 }) else s

/-- OBJ_BEGIN (R433). -/
def execObjBegin (tr : Transport) (id : BitVec 16) (kind : BitVec 8) (total : Word) (s : State) : Res :=
  act s fun s => s.served tr fun s =>
    let k := kind.toNat
    let say (s : State) (status : Nat) : State := s.answer tr 0x01 id.toNat status k []
    if !objKind k then say s 2
    else if (s.xfer k).isSome then say s 1
    else if !objLength k total.toNat then say s 4
    else
      let s := s.setXfer k (some ⟨total.toNat, [], s.lcc⟩)
      say (if k = 1 then s.eraseSlot (1 - s.boot.slot) else s) 0

/-- OBJ_DATA (R433): at the next unwritten offset. -/
def execObjData (tr : Transport) (id : BitVec 16) (kind : BitVec 8) (offset : Word) (data : List Byte) (s : State) : Res :=
  act s fun s => s.served tr fun s =>
    let k := kind.toNat
    let say (s : State) (status : Nat) : State := s.answer tr 0x02 id.toNat status k []
    match s.xfer k with
    | none => say s 2
    | some x =>
      let s := s.setXfer k (some { x with last := s.lcc })
      if 8192 < data.length then say s 2
      else if offset.toNat ≠ x.bytes.length then say s 5
      else if x.total < x.bytes.length + data.length then say s 4
      else say (s.setXfer k (some { x with bytes := x.bytes ++ byteNats data, last := s.lcc })) 0

/-- What the header of a content package says (R378). -/
def packageOf (ws : List Nat) : Package :=
  { id := wordAt ws 1 / 2 ^ 16, version := wordAt ws 2, kindMask := wordAt ws 3 / 2 ^ 24, steps := wordAt ws 3 % 2 ^ 16,
    maxTj := wordAt ws 4 / 2 ^ 16, minTj := wordAt ws 4 % 2 ^ 16 }

/-- The slot a package goes to (R379): that of its content ID, else the first free of 64. -/
def State.packageSlot (s : State) (id : Nat) : Option Nat :=
  let at_ (i : Nat) : Option Package := Tbl.get (fun _ => none) s.ft.packages i
  match (List.range 64).find? (fun i => match at_ i with | some k => decide (k.id = id) | none => false) with
  | some i => some i
  | none => (List.range 64).find? (fun i => (at_ i).isNone)

/-- Check a content package (R379): 0 good; 1 signature or body digest, 2 stepping, 3 version not newer, 4 no space, 5 too large. -/
def State.packageCheck (s : State) (bytes : List Nat) (signed : Bool) : Nat :=
  let ws := leWords (bytes.take 64)
  let body := wordAt ws 5
  let k := packageOf ws
  let old := s.ft.packages.findSome? (fun e => match e.2 with | some o => if o.id = k.id then some o.version else none | none => none)
  if !signed ∨ wordAt ws 0 ≠ 0xB64F0001 ∨ k.id = 0 ∨ k.id = 0xFFFF ∨ bytes.length ≠ 64 + body + hssKeyBytes + hssSigBytes
      ∨ sha256 ((bytes.drop (64 + body)).take hssKeyBytes) ≠ s.fuses.contentKey
      ∨ sha256 ((bytes.drop 64).take body) ≠ digestOf ((bytes.drop 32).take 32) then 1
  else if wordAt ws 3 / 2 ^ 16 % 256 ≠ 0xA1 then 2
  else if 2 ^ 24 < body then 5
  else if (match old with | some v => decide (k.version ≤ v) | none => false) then 3
  else if (s.packageSlot k.id).isNone then 4 else 0

/-- A package is installed or refused (R379, R408). -/
def State.installPackage (s : State) (bytes : List Nat) (r : Nat) : State :=
  let k := packageOf (leWords (bytes.take 64))
  let s := match r, s.packageSlot k.id with
    | 0, some i =>
      (s.modFt (fun f => { f with packages := Tbl.set (fun _ => none) f.packages i (some k) })).extend 4 (digestBytes (sha256 (bytes.take 64)))
    | _, _ => s
  (s.report 0 0x0052 14 0 none 0 [k.id, k.version, if r = 0 then 0 else 1, r]).cause Reg.RNG_FT_IRQ_CAUSE 16

/-- OBJ_END (R433): the whole object is checked and takes effect. A parameter update is answered once its check ends. -/
def execObjEnd (tr : Transport) (id : BitVec 16) (kind : BitVec 8) (signed : Bool) (s : State) : Res :=
  act s fun s => s.served tr fun s =>
    let k := kind.toNat
    match s.xfer k with
    | none => s.answerEnd tr id.toNat (k % 16) 2 0
    | some x =>
      if x.bytes.length ≠ x.total then (s.setXfer k (some { x with last := s.lcc })).answerEnd tr id.toNat k 2 0
      else if k = 3 ∧ s.boot.checking.isSome then (s.setXfer k (some { x with last := s.lcc })).answerEnd tr id.toNat k 1 0
      else
        let s := s.setXfer k none
        match k with
        | 1 =>
          let slot := 1 - s.boot.slot
          let r := s.imageCheck x.bytes signed
          if r = 0 then
            let s := s.modBoot (fun b => { b with images := Tbl.set (fun _ => []) b.images slot x.bytes, good := Tbl.set (fun _ => false) b.good slot true })
            let s := s.answerEnd tr id.toNat 1 0 0
            if s.boot.recovery then s.warmReset 3 0 else s
          else ((s.report 2 0x0064 14 0 none 0 [slot, r]).cause Reg.RNG_SEC_IRQ_CAUSE 8).answerEnd tr id.toNat 1 6 r
        | 2 =>
          let r := s.packageCheck x.bytes signed
          (s.installPackage x.bytes r).answerEnd tr id.toNat 2 (if r = 0 then 0 else 6) r
        | 3 => ((s.setShadow none).modBoot (fun b => { b with checking := some (x.bytes, tr, id.toNat) })).setRegF Reg.CFG_PARAM_STATUS 30 30 1
        | _ =>
          if s.tokenOk x.bytes signed then (s.answerEnd tr id.toNat 4 0 0).useToken x.bytes else s.answerEnd tr id.toNat 4 6 0

/-- OBJ_ABORT (R432). -/
def execObjAbort (tr : Transport) (id : BitVec 16) (kind : BitVec 8) (s : State) : Res :=
  act s fun s => s.served tr fun s =>
    let k := kind.toNat
    if (s.xfer k).isSome then (s.setXfer k none).answer tr 0x04 id.toNat 0 k [] else s.answer tr 0x04 id.toNat 2 k []

/-- TRANSFER_TIMEOUT (R433): no message of the transfer for 10 s; kinds 1 to 4. -/
def execTransferTimeout (kind : Fin 4) (s : State) : Res :=
  act s fun s =>
    match s.xfer (kind.val + 1) with
    | some x => if 1000000000 ≤ s.lcc - x.last then s.setXfer (kind.val + 1) none else s
    | none => s

/-! ### Quotes and sessions (R410, R412, R432) -/

/-- n words whose value the spec does not state, a key or a signature, under a number (log entry 4). -/
def freeWords (k n : Nat) : List Nat :=
  leWords ((List.range (4 * n)).map (fun i => (Config.freeBytes k i).toNat))

/-- A fresh signature by the identity key, in words. -/
def State.sign (s : State) : List Nat × State := (freeWords s.fresh (hssSigBytes / 4), { s with fresh := s.fresh + 1 })

/-- What a quote says (R410), in the order of the rule: nonce, UID, node and cell, image version and sec_version, M0 to M7, debug level and
debug_seen, leaf. -/
def State.quoteWords (s : State) (nonce : List Nat) (leaf : Nat) : List Nat :=
  leWords nonce ++ [s.fuses.uid % 2 ^ 32, s.fuses.uid / 2 ^ 32, s.node, s.cell, s.regN Reg.CFG_IMAGE_VER, s.boot.secVer]
    ++ (List.range 8).flatMap (fun i => leWords (digestBytes (s.meas i))) ++ [s.regF Reg.RNG_DBG_STATUS 2 0, leaf % 2 ^ 32, leaf / 2 ^ 32]

/-- QUOTE (R410, R432): with no leaf left nothing is signed. -/
def execQuote (tr : Transport) (id : BitVec 16) (nonce : List Byte) (s : State) : Res :=
  act s fun s => s.served tr fun s =>
    if nonce.length ≠ 32 then s.answer tr 0x10 id.toNat 2 0 []
    else match s.useLeaf with
      | none => s.answer tr 0x10 id.toNat 6 0 []
      | some (leaf, s) =>
        let (sig, s) := s.sign
        s.answer tr 0x10 id.toNat 0 0 (s.quoteWords (byteNats nonce) leaf ++ sig)

/-- KEM_KEY (R411, R432): the encapsulation key of this boot, 1,568 bytes, and its signature. -/
def execKemKey (tr : Transport) (id : BitVec 16) (s : State) : Res :=
  act s fun s => s.served tr fun s =>
    match s.useLeaf with
    | none => s.answer tr 0x11 id.toNat 6 0 []
    | some (_, s) =>
      let (sig, s) := s.sign
      s.answer tr 0x11 id.toNat 0 0 (freeWords s.boot.kem 392 ++ sig)

/-- SESSION_OPEN (R432): on the FM DOE of a port, whose session it becomes. -/
def execSessionOpen (tr : Transport) (id : BitVec 16) (ciphertext : List Byte) (s : State) : Res :=
  act s fun s => s.served tr fun s =>
    match tr with
    | .doe h =>
      if ciphertext.length ≠ 1568 then s.answer tr 0x12 id.toNat 2 0 []
      else
        let n := (s.mgmt.nextSession + 1) % 2 ^ 32
        ({ s with mgmt := { s.mgmt with nextSession := n, sessions := Tbl.set (fun _ => none) s.mgmt.sessions h.val (some n) } }).answer tr 0x12
          id.toNat 0 0 [n]
    | _ => s.answer tr 0x12 id.toNat 3 0 []

/-- An IDE_KM message takes effect on a port (R412, R426; PRESUMED from CXL 3.1, log entry 30). -/
def State.ideMessage (s : State) (h : Nat) (m : IdeMsg) : State :=
  let key : Option Nat := Tbl.get (fun _ => none) s.mgmt.ideKeys h
  match m with
  | .query => s
  | .keyProg k => { s with mgmt := { s.mgmt with ideKeys := Tbl.set (fun _ => none) s.mgmt.ideKeys h (some k.toNat) } }
  | .setGo => if key.isSome then s.setRegF (Reg.CXL_STATUS h) 27 27 1 else s
  | .setStop => s.setRegF (Reg.CXL_STATUS h) 27 27 0

/-- SESSION_MSG (R412, R432): for the session of this port; one that does not authenticate is refused. -/
def execSessionMsg (tr : Transport) (id : BitVec 16) (session : Word) (msg : Option IdeMsg) (s : State) : Res :=
  act s fun s => s.served tr fun s =>
    match tr with
    | .doe h =>
      if Tbl.get (fun _ => none) s.mgmt.sessions h.val ≠ some session.toNat then s.answer tr 0x13 id.toNat 2 0 []
      else match msg with
        | none => s.answer tr 0x13 id.toNat 6 0 []
        | some m => (s.ideMessage h.val m).answer tr 0x13 id.toNat 0 0 []
    | _ => s.answer tr 0x13 id.toNat 3 0 []

end Sys2Proof.Machine
end

