-- ==== Sys2Proof/Machine/Translate.lean ====
section
/-! DEFINITION. Translation of a partition's commands while they wait (R164, R170, R174, R177), RELEASE_FENCE (R185), and the control packets RESUME
and ABORT (R59, R175, R176). -/

namespace Sys2Proof.Machine

/-! ### Queue-time translation (R170, R174) -/

/-- The next list a waiting command reads before it runs: is the address physical, the address and the length. -/
def State.nextInput (s : State) (p : Nat) (c : Cmd) : Option (Bool × Nat × Nat) :=
  match c.opcode with
  | 0x01 => (c.moveLists[c.inputs.length]?).map (fun x => (false, x.1, x.2))
  | 0x02 => if c.progOk && c.inputs.isEmpty then some (false, c.progAddr, 32 * c.descCount) else none
  | 0x0E => (c.digestLists[c.inputs.length]?).map (fun x => (false, x.1, x.2))
  | 0x04 | 0x05 | 0x06 | 0x11 | 0x12 => s.rowInput p c
  | _ => none

/-- Bytes of a RELEASE_FENCE's flag (R185). -/
def Cmd.flagBytes (c : Cmd) : Nat := if nfld (c.arg 8) 1 1 = 1 then 8 else 4

/-- Bytes of a MSG_SEND's message (R257). -/
def Cmd.msgLen (c : Cmd) : Nat := c.arg 10 % 2 ^ 21

/-- The addresses a command names, in the order it will use them (R170). -/
def State.named (s : State) (p : Nat) (c : Cmd) : List Named :=
  match c.opcode with
  | 0x01 => c.moveNamed
  | 0x02 => s.meNamed c
  | 0x04 | 0x05 | 0x06 | 0x11 | 0x12 => c.rowNamed
  | 0x07 | 0x08 | 0x09 => s.winNamed p c
  | 0x0E => c.digestNamed
  | 0x0F => if c.msgLen ≤ 2 ^ 20 then [⟨c.arg64 11, c.msgLen, acRead, 0, 0, 0⟩] else []
  | 0x10 => if c.arg64 9 = 0 ∨ c.arg64 9 % c.flagBytes ≠ 0 then [] else [⟨c.arg64 9, c.flagBytes, acWrite, 0, 0, 0⟩]
  | _ => []

/-- Put a command in a phase. -/
def State.setPhase (s : State) (p : Nat) (c : Cmd) (ph : Phase) : State := s.modCmd p c.chute c.seq (fun c => { c with phase := ph })

/-- May the command's translation go on? It waits in its queue or runs, and holds no fault. -/
def State.translating (s : State) (p : Nat) (c : Cmd) : Bool :=
  (decide (c.phase = .queued) || decide (c.phase = .running)) && !c.mustStop && (s.atFault p c).isNone

/-- Translate one named address: the page is held from now on (R170); a fault holds the command, or lets what stands before it run (R174);
a table line that a host holds is taken back first. -/
def State.pinNext (s : State) (p : Nat) (c : Cmd) (r : Named) (va : Nat) : State :=
  if 2 ^ 57 < r.va + r.len ∧ va < 2 ^ 57 then
    (s.raiseFault p c fkAddress 7 0 va r.access r.source r.index).setPhase p c (if c.phase = .queued then (if r.work = 0 then .faulted (s.part p).freeFaultId else .ready) else c.phase)
  else
    let id := (s.part p).freeFaultId
    match s.translate (xltUnit p) p va r.access false with
    | (.ok leaf log2, s) =>
      s.modCmd p c.chute c.seq (fun c => { c with pins := c.pins ++ [⟨va / 2 ^ log2 * 2 ^ log2, log2, leaf, (s.part p).xltGen⟩] })
    | (.fault k lv e, s) =>
      let s := s.raiseFault p c k lv e va r.access r.source r.index
      if c.phase = .queued then s.setPhase p c (if r.work = 0 then .faulted id else .ready) else s
    | (.blocked line, s) => s.want line false

/-- Read a list a waiting command needs (R69, R132, R170): a poisoned one ends it, one on another node needs a composition (R50). -/
def State.readInput (s : State) (p : Nat) (c : Cmd) (n : Nat) (x : List (Nat × Nat)) : State :=
  let ag := c.agent p
  if s.anyRemote x && !c.inComp then s.failCmd p c.chute c.seq stStaleEpoch
  else s.whenReady ag true x fun s =>
    let (g, s) := s.fetchAll ag true x
    if g.status ≠ 0 then s.failCmd p c.chute c.seq g.status
    else if g.poison then s.failCmd p c.chute c.seq stPoison
    else s.modCmd p c.chute c.seq (fun c => { c with inputs := c.inputs ++ [numWords g.value ((n + 3) / 4)] })

/-- Has a command moved on? -/
def Cmd.progressed (c d : Cmd) : Bool :=
  decide (c.inputs.length < d.inputs.length) || decide (c.pins.length < d.pins.length)

/-- Translate a command's addresses as far as they can be now. -/
def State.translateCmd (s : State) (p chute seq : Nat) : Nat → State
  | 0 => s
  | fuel + 1 =>
    match s.cmd p chute seq with
    | none => s
    | some c =>
      if !s.translating p c then s
      else
        let next (s' : State) : State := match s'.cmd p chute seq with
          | some d => if c.progressed d then s'.translateCmd p chute seq fuel else s'
          | none => s'
        let input := match s.nextInput p c with
          | some (true, a, n) => some (n, [(a, n)])
          | some (false, a, n) => (c.range a n acRead).map (fun x => (n, x))
          | none => none
        match input with
        | some (n, x) => next (s.readInput p c n x)
        | none => match c.nextUnpinned (s.named p c) with
          | some (r, va) => next (s.pinNext p c r va)
          | none => if c.phase = .queued then s.setPhase p c .ready else s

/-- QUEUE_TIME_TRANSLATE (R170): the unit of the partition's tile goes on with the command's addresses to the first fault, or until it must wait
for a line. `parity` is an entry of the units' buffers that turns out to have a parity error (R354). -/
def execQueueTimeTranslate (p : Fin 32) (chute : Fin 64) (seq : Word) (s : State)
    (parity : Option (Fin 36864) := none) : Res :=
  act s fun s => (s.dropParity (parity.map (·.val))).translateCmd p.val chute.val seq.toNat 4096

/-! ### Registration and invalidation (R164, R177) -/

/-- XLT_ENABLE (R164). -/
def execXltEnable (rq : Requester) (p : Fin 32) (v : Word) (s : State) : Res :=
  act s fun s =>
    let a := Reg.PART_XLT_CTRL p.val
    s.access rq a (fun s =>
      if bitOf (s.reg a) 0 then s
      else
        let root := s.reg64 (Reg.PART_XLT_ROOT_LO p.val) % 2 ^ 40
        let s := s.store a (v ||| 1)
        if s.liveRange p.val ⟨root, 4096⟩ then (s.setRegF a 30 28 0).setRegF a 31 31 1
        else (s.setRegF a 30 28 1).setRegF a 0 0 0)

/-- Turn translation off (R164). -/
def State.xltOff (s : State) (p : Nat) : State :=
  let a := Reg.PART_XLT_CTRL p
  ((s.setRegF a 31 31 0).setRegF a 0 0 0).dropAllXlt p

/-- XLT_DISABLE (R164). -/
def execXltDisable (rq : Requester) (p : Fin 32) (_v : Word) (s : State) : Res :=
  act s fun s => s.access rq (Reg.PART_XLT_CTRL p.val) (fun s => s.xltOff p.val)

/-- A write of PART_XLT_INV_CTRL that invalidates (R177): ignored while busy. -/
def State.invalidate (s : State) (rq : Requester) (p : Nat) (v : Word) (range : State → Nat × Nat) : State :=
  let a := Reg.PART_XLT_INV_CTRL p
  s.access rq a (fun s =>
    if bitOf (s.reg a) 31 then s
    else
      let s := s.store a v
      let (base, size) := range s
      let gen := (s.part p).xltGen + 1
      ((s.dropXlt p base size).setRegF a 31 31 1).modPart p (fun pt => { pt with xltGen := gen, inval := some ⟨gen, base, size⟩ }))

/-- XLT_INVALIDATE (R177): 2^span_log2 pages, aligned; with all written too, the whole space. -/
def execXltInvalidate (rq : Requester) (p : Fin 32) (v : Word) (s : State) : Res :=
  act s fun s => s.invalidate rq p.val v fun s =>
    if bitOf v 1 then (0, 2 ^ 57)
    else
      let n := 4096 * 2 ^ min 45 (s.regF (Reg.PART_XLT_INV_CTRL p.val) 21 16)
      (s.reg64 (Reg.PART_XLT_INV_VA_LO p.val) % 2 ^ 57 / n * n, n)

/-- XLT_INVALIDATE_ALL (R177). -/
def execXltInvalidateAll (rq : Requester) (p : Fin 32) (v : Word) (s : State) : Res :=
  act s fun s => s.invalidate rq p.val v fun _ => (0, 2 ^ 57)

/-- Does a page overlap an invalidation and stem from before it? -/
def Inval.holds (i : Inval) (x : Pin) : Bool :=
  decide (x.gen < i.gen) && decide (x.va < i.base + i.size) && decide (i.base < x.va + 2 ^ x.log2)

/-- XLT_INVALIDATE_DONE (R177): no command before its completion point holds an older translation of the range. -/
def execXltInvalidateDone (p : Fin 32) (s : State) : Res :=
  act s fun s =>
    let p := p.val
    match (s.part p).inval with
    | none => s
    | some i =>
      if (s.part p).cmds.any (fun c => c.pins.any i.holds) then s
      else
        let s := (s.modPart p (fun pt => { pt with inval := none })).setRegF (Reg.PART_XLT_INV_CTRL p) 31 31 0
        s.pcause p (Reg.PART_XLT_IRQ_CAUSE p) 1

/-! ### RELEASE_FENCE (R185) -/

/-- RELEASE_FENCE (R185): the partition-wide wait, then the flag, then its acknowledgement. -/
def execReleaseFence (p : Fin 32) (chute : Fin 64) (seq : Word) (s : State) : Res :=
  act s fun s => s.syncStep p.val chute.val seq.toNat 0x10 fun s c =>
    let p := p.val
    let a := c.arg64 9
    if a % c.flagBytes ≠ 0 then s.endCmd p c stUnsupported 0 0
    else if c.sent then (if c.unacked = 0 then s.endCmd p c stOk 0 0 else s)
    else s.afterScope p c fun s =>
    if a = 0 then s.endCmd p c stOk 0 0
    else match c.range a c.flagBytes acWrite with
      | none => s
      | some x => (s.markSent p c).storeAll (c.agent p) (c.arg64 11 % 2 ^ (8 * c.flagBytes)) false x

/-! ### RESUME (R175, R176) -/

/-- A pending control packet of a chute and sequence. -/
def State.controlOf (s : State) (p chute seq kind : Nat) : Option Control :=
  (s.part p).control.find? (fun k => decide (k.chute = chute) && decide (k.seq = seq) && decide (k.kind = kind))

/-- It has taken effect: its record waits. -/
def State.endControl (s : State) (p : Nat) (k : Control) (status result : Nat) (after : List Nat) : State :=
  (s.modPart p (fun pt => { pt with control := pt.control.filter (· ≠ k) })).addEnded p k status result 0 after

/-- Op_args word i of a control packet. -/
def Control.arg (k : Control) (i : Nat) : Nat := wordAt k.args (i - 8)

/-- A held fault is resumed: it ends, its page is walked afresh, and its command goes on (R175): one that has not started is translated further
before it starts. -/
def State.resumeOne (s : State) (p : Nat) (h : HeldFault) : State :=
  let s := (s.endFault p h.id false).dropXlt p (h.va / 4096 * 4096) 4096
  s.modCmd p h.chute h.seq (fun c => match c.phase with | .faulted _ => { c with phase := .queued } | .ready => { c with phase := .queued } | _ => c)

/-- The faults of a partition that can be resumed: those of commands that an ABORT or a reset is stopping have ended (R176). -/
def State.resumable (s : State) (p : Nat) : List HeldFault :=
  (s.part p).held.filter (fun h => match s.cmd p h.chute h.seq with | some c => !c.mustStop | none => true)

/-- RESUME (R175). -/
def execResumeFault (p : Fin 32) (chute : Fin 64) (seq : Word) (s : State) : Res :=
  act s fun s =>
    let p := p.val
    match s.controlOf p chute.val seq.toNat 2 with
    | none => s
    | some k =>
      let check := k.arg 9 + 2 ^ 32 * k.arg 10
      match (s.resumable p).find? (fun h => decide (h.id = k.arg 8 % 65536)) with
      | none => s.endControl p k stOk 0 []
      | some h =>
        if check ≠ 0 ∧ nfld check 56 12 ≠ nfld h.va 56 12 then s.endControl p k stOk 0xFFFFFFFF []
        else
          let all := if nfld (k.arg 8) 16 16 = 1 then (s.resumable p).filter (fun x => decide (x.va / 4096 = h.va / 4096)) else [h]
          (all.foldl (fun s x => s.resumeOne p x) s).endControl p k stOk all.length []

/-! ### ABORT (R59, R60, R176) -/

/-- Abort a command that has left its chute, by where it is: one that runs stops at its next boundary, and the fault it holds, which is one, ends with it;
a run of a core that is ending already has ended (R59, R60, R176). -/
def State.abortTarget (s : State) (p : Nat) (k : Control) (c : Cmd) : State :=
  let after := [c.chute, c.seq]
  match c.phase with
  | .ended => s.endControl p k stAlreadyDone 0 after
  | .running =>
    if c.opcode = 0x03 ∧ (s.core c.runUnit).ending.isSome then s.endControl p k stAlreadyDone 0 after
    else
    let s := s.dropWaiting p c
    let s := s.modCmd p c.chute c.seq (fun c => { c with aborting := true })
    (if c.opcode = 0x0C ∨ c.opcode = 0x0D then s.stopWaiting p c else s).endControl p k stOk 1 after
  | _ => (s.finish p c.chute c.seq stAborted 0 0).endControl p k stOk 1 []

/-- ABORT (R59): exactly one row of its table. -/
def execAbortCommand (p : Fin 32) (chute : Fin 64) (seq : Word) (s : State) : Res :=
  act s fun s =>
    let p := p.val
    match s.controlOf p chute.val seq.toNat 3 with
    | none => s
    | some k =>
      let t := k.arg 8 % 64
      let q := k.arg 9
      match s.cmd p t q with
      | some c => s.abortTarget p k c
      | none =>
        let waits (x : Pkt) : Bool := decide (nfld (wordAt x.words 0) 11 8 = 0) && decide (wordAt x.words 1 = q)
        if ((s.part p).ring t).pkts.any waits then
          (s.modRing p t (fun r => { r with pkts := r.pkts.map (fun x => if waits x then { x with aborted := true } else x) })).endControl p k stOk 1 []
        else if (s.part p).others.contains (t, q) || serialLe (s.regN (Reg.PART_CHUTE_NEXT_SEQ p t)) q then s.endControl p k stOk 0 []
        else s.endControl p k stAlreadyDone 0 []

end Sys2Proof.Machine
end

