-- ==== Sys2Proof/Machine/Capacity.lean ====
section
/-! DEFINITION. Dynamic capacity (R126 to R128, R219 to R221, R423, R424): adding and releasing extents, the release point, and what the release of
an extent ends. -/

namespace Sys2Proof.Machine

/-! ### The release point (R43, R102, R164, R219, R220, R292) -/

/-- A structure that holds no packets loses its registration. -/
def State.dropRing (s : State) (p n : Nat) : State :=
  ((s.modRing p n (fun _ => Ring.none)).setRegF (ringCtrl p n) 31 31 0).setRegF (ringCtrl p n) 0 0 0

/-- What a release does to a ring of partition p that stands in the extent. -/
def State.releaseRing (s : State) (p n : Nat) : State :=
  if n ≤ cplRing then
    s.disableRing p n true
  else if n = mboxRing then s.disableRing p n false
  else if n = winRing then (s.unloadAll p).dropRing p n
  else s.dropRing p n

/-- Structures in a range of partition p are disabled (R220). -/
def State.releaseStructures (s : State) (p : Nat) (r : Range) : State :=
  let s := (s.part p).rings.foldl (fun s e =>
    if (e.2.ready || e.2.zeroing) && (e.2.range.meets r || e.2.range2.meets r) then s.releaseRing p e.1 else s) s
  let s := if s.regF (Reg.PART_XLT_CTRL p) 31 31 = 1 ∧ r.has (s.reg64 (Reg.PART_XLT_ROOT_LO p)) then
      (s.xltOff p).pcause p (Reg.PART_XLT_IRQ_CAUSE p) 2
    else s
  (List.range 64).foldl (fun s i => match s.index p i with
    | some x => if x.regions.any r.meets then s.beginUnload p i else s
    | none => s) s

/-- Lines of a range that the directory holds entries for. -/
def State.entriesIn (s : State) (r : Range) : List Nat :=
  (s.homes.dir.filter (fun e => e.2.isSome && r.has (64 * e.1))).map (·.1)

/-- RELEASE is queued on the entries of a range, behind the requests that wait there (R212, R220). -/
def State.releaseEntries (s : State) (r : Range) : State :=
  (s.entriesIn r).foldl (fun s l => match s.dirEntry l with
    | some e => (s.setEntry l (some { e with releasing := true })).afterLine l
    | none => s) s

/-- The part of an extent that a range leaves on each side. -/
def Extent.around (e : Extent) (r : Range) : List Extent :=
  (if e.range.base < r.base then [{ e with range := ⟨e.range.base, r.base - e.range.base⟩ }] else [])
  ++ (if r.base + r.size < e.range.base + e.range.size then
      [{ e with range := ⟨r.base + r.size, e.range.base + e.range.size - (r.base + r.size)⟩ }] else [])

/-- Put the extents. -/
def State.setExtents (s : State) (es : List Extent) : State := { s with extents := es }

/-- Is the extent live: can requests be admitted to it? -/
def Extent.isLive (e : Extent) : Bool := decide (e.state = .live) || decide (e.state = .offered)

/-- Is this a range of whole blocks of 256 MiB (R127)? -/
def Range.blocks (r : Range) : Bool := decide (0 < r.size) && decide (r.size % 0x10000000 = 0) && decide (r.base % 0x10000000 = 0)

/-- The release point of a range of fabric offsets within a live extent of partition p (R219, R423). -/
def State.releasePoint (s : State) (p : Nat) (r : Range) : State :=
  if s.extents.any (fun e => decide (e.part = p) && e.isLive && e.range.covers r) && r.blocks then
    let s : State := { s with extents := s.extents.flatMap (fun e =>
      if e.part = p ∧ e.isLive ∧ e.range.covers r then e.around r ++ [⟨p, r, .releasing⟩] else [e]) }
    (s.releaseStructures p r).releaseEntries r
  else s

/-- EXTENT_RELEASE_POINT (R219). -/
def execExtentReleasePoint (i : Nat) (s : State) : Res :=
  act s fun s => match s.extents[i]? with
    | some e => s.releasePoint e.part e.range
    | none => s

/-- Do requests admitted before the release point of a range still go on (R220), or structures that stand in it? -/
def State.busyIn (s : State) (p : Nat) (r : Range) : Bool :=
  s.homes.queue.any (fun q => r.has (64 * q.line)) || s.homes.tagWait.any (fun q => r.has (64 * q.line)) || s.mirrors.held.any (fun q => r.has (64 * q.line))
    || (s.part p).rings.any (fun e => (e.2.ready || e.2.zeroing) && (e.2.range.meets r || e.2.range2.meets r))

/-- EXTENT_RELEASE_COMPLETE (R128, R220): once no admitted request and no entry is left, the lines are zeroed and the extent is gone. -/
def execExtentReleaseComplete (i : Nat) (s : State) : Res :=
  act s fun s => match s.extents[i]? with
    | none => s
    | some e =>
      if e.state ≠ .releasing ∨ s.busyIn e.part e.range then s
      else if !(s.entriesIn e.range).isEmpty then s.releaseEntries e.range
      else
        let s : State := { s with extents := s.extents.eraseIdx i }
        (s.t1Zero e.range).cause (Reg.CXL_IRQ_CAUSE (e.part / 16)) 32

/-! ### Mailboxes (R425) -/

/-- Answer a mailbox command: 0 success, 1 invalid input, 2 unsupported. -/
def State.mbox (s : State) (mb : Mailbox) (name : String) (code : Nat) (content : List Nat) : State := s.emit (.mailbox mb name code content)

/-- A command that the mailbox of a partition's logical device supports. -/
def State.ldMailbox (s : State) (mb : Mailbox) (name : String) (f : Nat → State → State) : State :=
  match mb with
  | .ld p => f p.val s
  | _ => s.mbox mb name 2 []

/-- A command that the FM-owned logical devices and the FM API over MCTP support. -/
def State.fmMailbox (s : State) (mb : Mailbox) (name : String) (f : State → State) : State :=
  match mb with
  | .ld _ => s.mbox mb name 2 []
  | _ => f s

/-- May this FM mailbox name a logical device: one of its own port, over MCTP any? -/
def Mailbox.names (mb : Mailbox) (p : Nat) : Bool :=
  match mb with
  | .fm h => decide (p / 16 = h.val)
  | .mctp => true
  | .ld _ => false

/-- The logical device whose event log a mailbox reads. -/
def Mailbox.device : Mailbox → Nat
  | .ld p => p.val
  | .fm h => 32 + h.val
  | .mctp => 32

/-! ### Dynamic capacity (R423) -/

/-- The fabric offsets that a DPA range of a logical device serving a partition names (R421). -/
def dpaRange (r : Range) : Range := ⟨Config.poolBase + r.base, r.size⟩

/-- The DPA range of fabric offsets. -/
def offsetRange (r : Range) : Range := ⟨r.base - Config.poolBase, r.size⟩

/-- An event record enters the log of a logical device, with a message where its policy asks for one (R431). -/
def State.eventRecord (s : State) (p kind : Nat) (r : Range) : State :=
  let s := s.modLd p (fun d => { d with events := d.events ++ [⟨d.nextHandle, kind, r⟩], nextHandle := (d.nextHandle + 1) % 65536 })
  if (s.ld p).policyMsix then s.message p else s

/-- Bytes of T1 that the extents of a partition count (R127). -/
def State.extentBytes (s : State) (p : Nat) : Nat := ((s.extents.filter (fun e => decide (e.part = p))).map (·.range.size)).sum

/-- May a range be added (R127, R423)? Withheld units are never granted (R377). -/
def State.addOk (s : State) (p : Nat) (r : Range) : Bool :=
  r.blocks && decide (Config.poolBase ≤ r.base) && decide (r.base + r.size ≤ Config.t1Bytes)
    && (decide (s.pstate p = .active) || decide (s.pstate p = .frozen))
    && decide ((s.extents.filter (fun e => decide (e.state ≠ .releasing))).length < 2048)
    && !(s.extents.any (fun e => e.range.meets r)) && !(s.ft.withheldUnits.any (fun u => (poolUnit u).meets r))
    && decide (s.extentBytes p + r.size ≤ s.regF (Reg.PART_RSV_T1 p) 14 0 * 0x10000000)

/-- Add one range, or refuse and count it. A test of a T1 unit it covers ends first (R375). -/
def State.addRange (s : State) (p : Nat) (dpa : Range) : State :=
  let r := dpaRange dpa
  if s.addOk p r then
    let s := s.ftNeeds 5 (fun u => (poolUnit u).meets r)
    (s.setExtents (s.extents ++ [⟨p, r, .pending⟩])).eventRecord p 0 dpa
  else (s.count (Reg.CXL_DC_REFUSED (p / 16)) 1).cause (Reg.CXL_IRQ_CAUSE (p / 16)) 64

/-- INITIATE_DYNAMIC_CAPACITY_ADD (R423). -/
def execInitiateDynamicCapacityAdd (mb : Mailbox) (p : Fin 32) (ranges : List Range) (s : State) : Res :=
  act s fun s => s.fmMailbox mb "Initiate Dynamic Capacity Add" fun s =>
    if !mb.names p.val then s.mbox mb "Initiate Dynamic Capacity Add" 1 []
    else
      let before := s.regN (Reg.CXL_DC_REFUSED (p.val / 16))
      let s := ranges.foldl (fun s r => s.addRange p.val r) s
      s.mbox mb "Initiate Dynamic Capacity Add" (if s.regN (Reg.CXL_DC_REFUSED (p.val / 16)) = before then 0 else 1) []

/-- ADD_DYNAMIC_CAPACITY_RESPONSE (R423): pending ranges that the host accepts become live, the others are dropped. -/
def execAddDynamicCapacityResponse (mb : Mailbox) (accepted : List Range) (s : State) : Res :=
  act s fun s => s.ldMailbox mb "Add Dynamic Capacity Response" fun p s =>
    let mine (e : Extent) : Bool := decide (e.part = p) && decide (e.state = .pending)
    let took (e : Extent) : Bool := accepted.any (fun r => decide (dpaRange r = e.range))
    if !(accepted.all (fun r => s.extents.any (fun e => mine e && decide (e.range = dpaRange r)))) then
      s.mbox mb "Add Dynamic Capacity Response" 1 []
    else
      let live := s.extents.any (fun e => mine e && took e)
      let s : State := { s with extents := (s.extents.filter (fun e => !mine e || took e)).map (fun e =>
        if mine e then { e with state := .live } else e) }
      let s := if live then s.cause (Reg.CXL_IRQ_CAUSE (p / 16)) 16 else s
      s.mbox mb "Add Dynamic Capacity Response" 0 []

/-- Does a live extent of partition p hold the range a command names? -/
def State.releasable (s : State) (p : Nat) (dpa : Range) : Bool :=
  (dpaRange dpa).blocks && s.extents.any (fun e => decide (e.part = p) && e.isLive && e.range.covers (dpaRange dpa))

/-- RELEASE_DYNAMIC_CAPACITY (R423): the release point of each range named. -/
def execReleaseDynamicCapacity (mb : Mailbox) (ranges : List Range) (s : State) : Res :=
  act s fun s => s.ldMailbox mb "Release Dynamic Capacity" fun p s =>
    let ok := ranges.all (s.releasable p)
    let s := ranges.foldl (fun s r => s.releasePoint p (dpaRange r)) s
    s.mbox mb "Release Dynamic Capacity" (if ok then 0 else 1) []

/-- Offer the release of a range to the host (R423): the extent stays live. -/
def State.offerRelease (s : State) (p : Nat) (dpa : Range) : State :=
  if s.releasable p dpa then
    (s.setExtents (s.extents.map (fun e =>
      if e.part = p ∧ e.isLive ∧ e.range.covers (dpaRange dpa) then { e with state := .offered } else e))).eventRecord p 1 dpa
  else s

/-- INITIATE_DYNAMIC_CAPACITY_RELEASE (R423): offered, or forced; of a forced release the host is told afterwards. -/
def execInitiateDynamicCapacityRelease (mb : Mailbox) (p : Fin 32) (ranges : List Range) (forced : Bool) (s : State) : Res :=
  act s fun s => s.fmMailbox mb "Initiate Dynamic Capacity Release" fun s =>
    if !mb.names p.val then s.mbox mb "Initiate Dynamic Capacity Release" 1 []
    else
      let ok := ranges.all (s.releasable p.val)
      let s := ranges.foldl (fun s r =>
        if !forced then s.offerRelease p.val r
        else if s.releasable p.val r then (s.releasePoint p.val (dpaRange r)).eventRecord p.val 2 r else s) s
      s.mbox mb "Initiate Dynamic Capacity Release" (if ok then 0 else 1) []

/-- Extents as an answer lists them: DPA and length of each. -/
def extentWords (es : List Extent) : List Nat := es.flatMap (fun e => [(offsetRange e.range).base, e.range.size])

/-- GET_DYNAMIC_CAPACITY_EXTENT_LIST (R425): the live extents of the logical device. -/
def execGetDynamicCapacityExtentList (mb : Mailbox) (s : State) : Res :=
  act s fun s => s.ldMailbox mb "Get Dynamic Capacity Extent List" fun p s =>
    s.mbox mb "Get Dynamic Capacity Extent List" 0 (extentWords (s.extents.filter (fun e => decide (e.part = p) && e.isLive)))

/-- GET_DC_REGION_EXTENT_LISTS (R423): with the extents whose release has not completed. -/
def execGetDcRegionExtentLists (mb : Mailbox) (p : Fin 32) (s : State) : Res :=
  act s fun s => s.fmMailbox mb "Get DC Region Extent Lists" fun s =>
    if !mb.names p.val then s.mbox mb "Get DC Region Extent Lists" 1 []
    else s.mbox mb "Get DC Region Extent Lists" 0
      (extentWords (s.extents.filter (fun e => decide (e.part = p.val) && decide (e.state ≠ .pending))))

/-! ### Poison by mailbox (R424) -/

/-- The line a DPA within the live extents of a partition names. -/
def State.dpaLine (s : State) (p d : Nat) : Option Nat :=
  let o := Config.poolBase + d
  if s.extents.any (fun e => decide (e.part = p) && e.isLive && e.range.has o) then some (o / 64) else none

/-- INJECT_POISON (R424): the poison bit is set, the data stays. -/
def execInjectPoison (mb : Mailbox) (dpa : BitVec 64) (s : State) : Res :=
  act s fun s => s.ldMailbox mb "Inject Poison" fun p s =>
    match s.dpaLine p dpa.toNat with
    | some l => (s.setT1Poison (64 * l) true).mbox mb "Inject Poison" 0 []
    | none => s.mbox mb "Inject Poison" 1 []

/-- CLEAR_POISON (R424): a whole-line write of the bytes it carries. -/
def execClearPoison (mb : Mailbox) (dpa : BitVec 64) (data : Line) (s : State) : Res :=
  act s fun s => s.ldMailbox mb "Clear Poison" fun p s =>
    match s.dpaLine p dpa.toNat with
    | some l => (s.request (HomeReq.store .device l (2 ^ 64 - 1) data.toNat false)).mbox mb "Clear Poison" 0 []
    | none => s.mbox mb "Clear Poison" 1 []

end Sys2Proof.Machine
end

