-- ==== Sys2Proof/Machine/Power.lean ====
section
/-! DEFINITION. Sleep, node power states, power and thermal limits (R384 to R390). Idle times are the environment's (log entry 22): an idle timer
that expires is a command, and it acts only on a block that is idle then. -/

namespace Sys2Proof.Machine

/-! ### Sleep and wake (R384 to R386) -/

/-- A parameter of the active set (R402). -/
def State.param (s : State) (i : Nat) : Nat := wordAt s.boot.active i

/-- The number of the PLL of a compute tile among the blocks. -/
def pllKey (k : Nat) : Nat := 300 + k

/-- The compute tile of a unit; none for one on a hub tile (R10). -/
def UnitKind.tile (k : UnitKind) (i : Nat) : Option Nat :=
  match k with | .me => some (i / 8) | .gc => some (i / 16) | _ => none

/-- The unit a block number names. -/
def unitOfKey (b : Nat) : UnitKind × Nat :=
  if b < 64 then (.me, b) else if b < 128 then (.gc, b - 64) else if b < 192 then (.win, b - 128) else (.row, b - 192)

/-- The sleep state of a block. -/
def State.sleepOf (s : State) (b : Nat) : Nat := Tbl.get (fun _ => 0) s.power.sleep b

/-- Put a block to sleep. -/
def State.setSleep (s : State) (b v : Nat) : State :=
  { s with power := { s.power with sleep := Tbl.set (fun _ => 0) s.power.sleep b v } }

/-- Is a unit free of work: no command runs on it, no test holds it? -/
def State.unitIdle (s : State) (k : UnitKind) (i : Nat) : Bool :=
  (s.unitCmd k i).isNone && (match s.ft.run with
    | some x => !(decide (ftUnit x.req.kind = some k) && decide (x.inst = i))
    | none => true)

/-- A unit is to wake, and its tile's PLL with it (R384, R386): it is awake once WAKE_DONE has come for both. The node leaves IDLE (R387). -/
def State.wakeUnit (s : State) (k : UnitKind) (i : Nat) : State :=
  let add (s : State) (b : Nat) : State :=
    if s.sleepOf b = 0 ∨ s.power.waking.contains b then s else { s with power := { s.power with waking := b :: s.power.waking } }
  let s := add s (k.key i)
  let s := match k.tile i with
    | some t => add s (pllKey t)
    | none => s
  if s.regF Reg.RNG_PWR_STATE 31 30 = 1 then s.setRegF Reg.RNG_PWR_STATE 31 30 0 else s

/-- Is every compute-tile PLL stopped and every Winnower and row unit power-gated (R387)? -/
def State.allAsleep (s : State) : Bool :=
  let hubUnit (i : Nat) : Nat := 128 + 16 * (i / 16) * 4 + i % 16
  (List.range 4).all (fun k => decide (s.sleepOf (pllKey k) = 3) && !s.power.waking.contains (pllKey k))
    && (List.range 32).all (fun i => decide (s.sleepOf (hubUnit i) = 2) && !s.power.waking.contains (hubUnit i))

/-- Enter IDLE from RUN when everything sleeps. -/
def State.checkIdle (s : State) : State :=
  if s.allAsleep ∧ s.regF Reg.RNG_PWR_STATE 31 30 = 0 then s.setRegF Reg.RNG_PWR_STATE 31 30 1 else s

/-- CLOCK_GATE (R385): an idle unit, a Crib, a remote-line cache or a Loft channel that is awake. -/
def execClockGate (b : Fin 512) (s : State) : Res :=
  act s fun s =>
    let b := b.val
    let idle : Bool :=
      if b < 256 then decide ((unitOfKey b).2 < (unitOfKey b).1.count) && s.unitIdle (unitOfKey b).1 (unitOfKey b).2
      else decide (b < 260) || (decide (270 ≤ b) && decide (b < 288))
    if idle ∧ s.sleepOf b = 0 ∧ !s.power.waking.contains b then s.setSleep b 1 else s

/-- POWER_GATE (R385, R386): an idle unit that no partition reserves and keep_awake does not name; its registers are kept, its buffers are lost. -/
def execPowerGate (k : UnitKind) (i : Fin 64) (s : State) : Res :=
  act s fun s =>
    let b := k.key i.val
    let bit := match k with | .me => 0 | .gc => 1 | .win => 2 | .row => 3
    if i.val < k.count ∧ (s.owner k i.val).isNone ∧ s.unitIdle k i.val ∧ s.sleepOf b ≤ 1 ∧ !s.power.waking.contains b ∧ nfld (s.param 10) bit bit = 0 then
      ((s.resetUnit k i.val).setSleep b 2).checkIdle
    else s

/-- PLL_STOP (R385, R387): all 24 units of the tile are power-gated, none of them is waking, and no partition owns a page of its T0 bank. -/
def execPllStop (k : Fin 4) (s : State) : Res :=
  act s fun s =>
    let k := k.val
    let units := (List.range 8).map (fun i => 8 * k + i) ++ (List.range 16).map (fun i => 64 + 16 * k + i)
    if units.all (fun b => decide (s.sleepOf b = 2) && !s.power.waking.contains b) && !s.power.waking.contains (pllKey k)
        && !(s.t0.owner.any (fun e => decide (e.1 / 16384 = k))) then (s.setSleep (pllKey k) 3).checkIdle
    else s

/-- SELF_REFRESH (R385). -/
def execSelfRefresh (stack : Fin 6) (s : State) : Res := act s fun s => s.setSleep (260 + stack.val) 3

/-- WAKE_DONE (R386): a waking unit needs its tile's PLL first. -/
def execWakeDone (b : Fin 512) (s : State) : Res :=
  act s fun s =>
    let b := b.val
    let pll : Option Nat := if b < 256 then (unitOfKey b).1.tile (unitOfKey b).2 else none
    let ready : Bool := match pll with
      | some t => decide (s.sleepOf (pllKey t) = 0)
      | none => true
    if s.power.waking.contains b ∧ ready then s.wakeNow b else s

/-! ### Node states (R387, R388) -/

/-- STANDBY (R388): only when every partition is FREE and every Cofeben port OFF, else standby_refused. -/
def execStandby (rq : Requester) (_v : Word) (s : State) : Res :=
  act s fun s => s.access rq Reg.RNG_PWR_CTRL (fun s =>
    if s.regF Reg.RNG_PWR_STATE 31 29 % 2 = 1 ∨ s.regF Reg.RNG_PWR_STATE 31 30 = 2 then s
    else if (List.range 32).all (fun p => decide (s.pstate p = .free)) && (List.range 12).all (fun l => decide (s.link l = 0)) then
      s.setRegF Reg.RNG_PWR_STATE 29 29 1
    else s.cause Reg.RNG_PWR_IRQ_CAUSE 16)

/-- In STANDBY only the always-on domain runs (R387): every unit free of work is power-gated and the compute-tile PLLs stop. Each wakes on demand after
STANDBY. -/
def State.gateAll (s : State) : State :=
  let s := unitKinds.foldl (fun s k => (List.range k.count).foldl (fun s i =>
    if s.unitIdle k i then (s.resetUnit k i).setSleep (k.key i) 2 else s) s) s
  let s := (List.range 4).foldl (fun s k => s.setSleep (pllKey k) 3) s
  { s with power := { s.power with waking := [] } }

/-- STANDBY_DONE (R387, R388): everything outside the always-on domain is off, the stacks are in self-refresh, and the node is in STANDBY. -/
def execStandbyDone (s : State) : Res :=
  act s fun s =>
    if s.regF Reg.RNG_PWR_STATE 29 29 = 1 ∧ s.regF Reg.RNG_PWR_STATE 31 30 ≠ 2 then
      let s := s.gateAll
      ((List.range 6).foldl (fun s k => s.setSleep (260 + k) 3) s).setRegF Reg.RNG_PWR_STATE 31 29 4
    else s

/-- RUN (R388). -/
def execRunNode (rq : Requester) (_v : Word) (s : State) : Res :=
  act s fun s => s.access rq Reg.RNG_PWR_CTRL (fun s =>
    if s.regF Reg.RNG_PWR_STATE 31 30 = 2 then s.setRegF Reg.RNG_PWR_STATE 29 29 1 else s)

/-- RUN_DONE (R388): the node is in RUN. -/
def execRunDone (s : State) : Res :=
  act s fun s =>
    if s.regF Reg.RNG_PWR_STATE 31 29 = 5 then
      (((List.range 6).foldl (fun s k => s.setSleep (260 + k) 0) s).setRegF Reg.RNG_PWR_STATE 31 29 0).cause Reg.RNG_PWR_IRQ_CAUSE 8
    else s

/-! ### Limits (R389, R390) -/

/-- Level i of RNG_THROTTLE, in the order in which R389 lowers them: engines, cores, Winnowers and row units, stacks. -/
def State.level (s : State) (i : Nat) : Nat := s.regF Reg.RNG_THROTTLE (8 * i + 4) (8 * i)

/-- Set it. -/
def State.setLevel (s : State) (i v : Nat) : State := s.setRegF Reg.RNG_THROTTLE (8 * i + 4) (8 * i) v

/-- Is every level 16? -/
def State.fullLevels (s : State) : Bool := (List.range 4).all (fun i => decide (s.level i = 16))

/-- The level R389 lowers next: the first above the floor, else the first above one sixteenth. -/
def State.nextLower (s : State) : Option Nat :=
  match (List.range 4).find? (fun i => decide (s.param 11 < s.level i)) with
  | some i => some i
  | none => (List.range 4).find? (fun i => decide (1 < s.level i))

/-- POWER_CAP (R414). -/
def State.powerCap (s : State) (fast : Nat) : State := s.report 0 0x0060 0 0 none 0 [s.regN Reg.RNG_THROTTLE, fast, s.param 1]

/-- Show that some level is below 16, and that some tile is held (R415). -/
def State.showThrottle (s : State) : State :=
  (s.setRegF Reg.RNG_THROTTLE 30 30 (if s.fullLevels then 0 else 1)).setRegF Reg.RNG_THROTTLE 31 31 (if s.power.tiles.isEmpty then 0 else 1)

/-- The adjustment of R389; `hot` says that some sensor is at or above tj_throttle − 2 °C. -/
def State.capTick (s : State) (fast : Nat) (hot : Bool) : State :=
  let cap := s.param 1
  let margin := s.param 2
  if cap < fast + margin then
    match s.nextLower with
    | none => s
    | some i =>
      let first := s.fullLevels
      let s := s.setLevel i (s.level i - 1)
      let s := { s with power := { s.power with lowered := i :: s.power.lowered } }.showThrottle.cause Reg.RNG_PWR_IRQ_CAUSE 1
      if first then s.powerCap fast else s
  else if fast + 3 * margin < cap ∧ !hot then
    match s.power.lowered with
    | [] => s
    | i :: rest =>
      let s := s.setLevel i (min 16 (s.level i + 1))
      let s := { s with power := { s.power with lowered := rest } }.showThrottle
      if s.fullLevels then s.powerCap fast else s
  else s

/-- The adjustment of R390 for one tile: its hottest sensor and that sensor's temperature. -/
def State.heatTick (s : State) (k sensor : Nat) (t : Int) : State :=
  let thr : Int := s.param 4
  let held := Tbl.get (fun _ => 0) s.power.tiles k
  let set (s : State) (v : Nat) : State :=
    ({ s with power := { s.power with tiles := Tbl.set (fun _ => 0) s.power.tiles k v } }).showThrottle
  if (s.param 5 : Int) ≤ t ∨ thr ≤ t ∨ (held ≠ 0 ∧ thr - 16 ≤ t) then
    let v := if (s.param 5 : Int) ≤ t then 15 else min 15 (held + 1)
    let s := if held < v then (set s v).cause Reg.RNG_PWR_IRQ_CAUSE 2 else s
    let s := if thr ≤ t then s.cause Reg.RNG_PWR_IRQ_CAUSE 4 else s
    if held = 0 then s.report 2 0x0061 0 0 none 0 [sensor, (t % 2 ^ 32).toNat, s.regN Reg.RNG_THROTTLE] else s
  else if held ≠ 0 then set s 0 else s

/-- The hottest of some sensors, the lowest of equals: its number and temperature. -/
def hottest (tj : List (BitVec 16)) : List Nat → Nat × Int
  | [] => (0, -32768)
  | i :: t =>
    let r := hottest tj t
    let v := signed16 (tj.getD i 0).toNat
    if r.2 ≤ v then (i, v) else r

/-- POWER_TICK (R389, R390): before a boot has set the parameters there is nothing to hold to. -/
def execPowerTick (fast : BitVec 16) (sustained : BitVec 16) (tj : List (BitVec 16)) (s : State) : Res :=
  act s fun s =>
    let s := (s.setRegF Reg.RNG_PWR_NOW 31 16 fast.toNat).setRegF Reg.RNG_PWR_NOW 15 0 sustained.toNat
    let (n, t) := hottest tj (List.range 80)
    let s := (s.setRegF Reg.RNG_TJ 31 16 (t % 65536).toNat).setRegF Reg.RNG_TJ 5 0 n
    if s.boot.active.isEmpty then s
    else
      let s := (List.range 10).foldl (fun s k =>
        let (i, t) := hottest tj ((List.range 8).map (8 * k + ·))
        s.heatTick k i t) s
      s.capTick fast.toNat (decide ((s.param 4 : Int) - 16 ≤ t))

end Sys2Proof.Machine
end

