-- ==== Sys2Proof/Machine/Commands.lean ====
section
/-! DEFINITION. Starting commands and ending them (R47, R48, R50 to R54, R140): what refuses a command before it starts, its unit, deadlines,
completion records. -/

namespace Sys2Proof.Machine

/-! ### Starting (R47, R50, R140) -/

/-- The kind of unit a queue runs on. -/
def Queue.kind : Queue → Option UnitKind
  | .me => some .me | .gc => some .gc | .row => some .row | .win => some .win | .move => none | .sync => none

/-- Has the command's deadline passed (R48)? -/
def State.overdue (s : State) (c : Cmd) : Bool := decide (c.deadline ≠ 0) && decide (c.deadline < s.lcc)

/-- Does the command need a composition, as far as is known before it starts (R50)? A MSG_SEND needs none (R257). -/
def State.needsComp (s : State) (c : Cmd) : Bool :=
  decide (c.opcode = 0x0D) || (decide (c.opcode = 0x0B) && decide (nfld (c.arg 8) 31 31 = 1) && decide (nfld (c.arg 8) 29 18 ≠ s.node))
    || (decide (c.opcode = 0x0E) && c.votes) || (decide (c.opcode ≠ 0x0F) && c.pins.any (fun x => s.isRemote (physOf x.leaf x.log2 x.va)))

/-- Is the command's composition or epoch wrong, or its role (R50, R335)? -/
def State.staleStart (s : State) (p : Nat) (c : Cmd) : Bool :=
  if c.inComp then
    !s.commandEpochOk p c.compId c.compEpoch || (s.bandwidth c.compId && (decide (c.opcode = 0x02) || decide (c.opcode = 0x03)))
  else s.needsComp c

/-- The outcome of a command whose unit, or whose every unit, is quarantined (R47, R94). -/
def UnitKind.quarOutcome : UnitKind → Nat × Nat
  | .me => (stChecksum, 0)
  | _ => (stUnsupported, 0x82)

/-- What the unit field makes of a command before it starts: a status and detail, or none (R47). -/
def State.unitRefusal (s : State) (p : Nat) (c : Cmd) : Option (Nat × Nat) :=
  match (queueOf c.opcode).bind Queue.kind with
  | none => if c.unit ≠ 0xFF then some (stUnsupported, 0) else none
  | some k =>
    if c.unit ≠ 0xFF then
      if k.count ≤ c.unit ∨ s.owner k c.unit ≠ some p then some (stReservation, 0)
      else if s.quarantined k c.unit then some k.quarOutcome else none
    else
      let us := s.unitsOf p k
      if us.isEmpty then some (stReservation, 0) else if us.all (s.quarantined k) then some k.quarOutcome else none

/-- What the first presentation of a command that needs a unit would end it with, from its own words and what it read at queue time: the
outcomes of lower code than an unreserved unit's (R58). -/
def State.formOutcome (s : State) (p : Nat) (c : Cmd) : Option Nat :=
  let t := c.table
  let bad (b : Bool) : Option Nat := if b then some stUnsupported else none
  let row (b : Bool) : Option Nat := if s.converting p c then some stStaleEpoch else bad (!t.ok || b)
  let win (f : VecIndex → Option Nat) : Option Nat := match s.indexOf p c with | none => some stUnsupported | some x => f x
  match c.opcode with
  | 0x02 => bad (!c.progOk)
  | 0x03 => bad (decide (c.arg64 8 % 2 = 1))
  | 0x04 => row (!c.lookupOk)
  | 0x05 => row (t.column || decide (2 ≤ nfld (c.arg 8) 23 22) || (decide (nfld (c.arg 8) 23 22 = 0) && (decide (c.arg 12 = 0) || decide (2 ^ 20 < c.arg 12))))
  | 0x06 => row (decide (c.newTable.column ≠ t.column) && !c.newTable.ok)
  | 0x11 => row (decide (c.arg 8 % 4 = 3) || t.column || (decide (c.arg 8 % 4 = 0) && decide (t.cache ≠ 2))
      || (decide (c.arg 8 % 4 = 1) && decide (t.cache ≠ 1)))
  | 0x12 => row t.column
  | 0x07 => win fun _ => bad (decide (c.arg 9 = 0) || decide (65536 < c.arg 9) || decide (c.arg 14 % 64 ≠ 0))
  | 0x08 => win fun _ => bad (!c.itemsOk)
  | 0x09 => win fun _ => bad (!c.itemsOk)
  | 0x0A => win fun x =>
    if epochOlder (c.arg 9) x.floor || epochOlder x.pub (c.arg 9) then some stStaleEpoch
    else bad (decide (nfld (c.arg 11) 16 0 = 0) || decide (65536 < nfld (c.arg 11) 16 0) || decide (x.cparts < c.arg 10 % 65536 + nfld (c.arg 11) 16 0))
  | _ => none

/-- What ends a command without effect before it starts, the lowest code of those that apply (R58): a command whose unit is not reserved and
that is malformed too ends with what its form gives. -/
def State.startRefusal (s : State) (p : Nat) (c : Cmd) : Option (Nat × Nat) :=
  if s.overdue c then some (stDeadline, 0)
  else if s.staleStart p c then some (stStaleEpoch, 0)
  else match s.unitRefusal p c with
    | none => none
    | some (st, d) => if st = stReservation then some ((match s.formOutcome p c with | some f => (f, 0) | none => (st, d))) else some (st, d)

/-- Have all earlier commands of its chute reached their completion point (R45, R184)? A RELEASE_FENCE always waits for that (R185). -/
def State.fenceOpen (s : State) (p : Nat) (c : Cmd) : Bool :=
  !(c.fence || decide (c.opcode = 0x10))
    || !((s.part p).cmds.any (fun d => decide (d.kind = 0) && decide (d.chute = c.chute) && decide (d.ord < c.ord)))

/-- May the partition start commands: ACTIVE, and its completion buffer of 256 is not full (R30, R54)? -/
def State.mayStart (s : State) (p : Nat) : Bool :=
  decide (s.pstate p = .active) && decide (((s.part p).cmds.filter (fun c => decide (c.phase = .ended))).length < 256)

/-- Is a unit of the partition idle and able to take a command: no command on it, not quarantined and not about to be? -/
def State.unitOpen (s : State) (p : Nat) (k : UnitKind) (i : Nat) : Bool :=
  (s.runningOn p k.queue i).isNone && !s.quarantined k i && !s.marked k i

/-- The unit a command takes (R47): the one it names, after every earlier command that names it; else the lowest idle one. -/
def State.unitFor (s : State) (p : Nat) (k : UnitKind) (c : Cmd) : Option Nat :=
  if c.unit ≠ 0xFF then
    if s.unitOpen p k c.unit && !((s.part p).cmds.any (fun d => decide (d.kind = 0) && decide (queueOf d.opcode = queueOf c.opcode)
        && decide (d.unit = c.unit) && decide (d.ord < c.ord) && decide (d.phase ≠ .ended))) then some c.unit
    else none
  else (s.unitsOf p k).find? (s.unitOpen p k)

/-- The command runs, on a unit. -/
def State.startOn (s : State) (p : Nat) (c : Cmd) (u : Nat) (aux : List Nat) : State :=
  s.modCmd p c.chute c.seq (fun c => { c with phase := .running, runUnit := u, aux := aux })

/-- Start a ready command that nothing refuses: a unit that sleeps is woken first (R384); a SEM_WAIT needs a watch of its hub (R327); a MOVE or
DIGEST waits for a channel (R140). -/
def State.startReady (s : State) (p : Nat) (c : Cmd) : State :=
  match (queueOf c.opcode).bind Queue.kind with
  | some k => match s.unitFor p k c with
    | none => s
    | some u => if s.sleepOf (k.key u) ≠ 0 then s.wakeUnit k u else s.startOn p c u []
  | none =>
    if c.opcode = 0x01 ∨ c.opcode = 0x0E then s
    else if c.opcode = 0x0C then
      if s.watches p (semHub (nfld (c.arg 8) 17 0)) < 32 then s.startOn p c 0xFF [s.lcc] else s
    else s.startOn p c 0xFF []

/-- COMMAND_START (R47): a command whose addresses are translated, or that runs up to its first fault, with its fence open. `ue`: a
word of it in its queue (1) or of its entry in the tracker (2) is uncorrectable: the partition freezes, and the command has no record (R355). -/
def execCommandStart (p : Fin 32) (chute : Fin 64) (seq : Word) (s : State) (ue : Fin 3 := 0) : Res :=
  act s fun s =>
    let p := p.val
    match s.cmd p chute.val seq.toNat with
    | none => s
    | some c =>
      if ue.val ≠ 0 ∧ c.phase ≠ .ended ∧ c.phase ≠ .running then (s.dropCmd p chute.val seq.toNat).uncontained p (if ue.val = 1 then 1 else 4)
      else if c.phase ≠ .ready ∨ !s.mayStart p ∨ !s.fenceOpen p c then s
      else match s.startRefusal p c with
        | some (st, d) => s.endCmd p c st 0 d
        | none => s.startReady p c

/-- Is a MOVE or DIGEST ready for a channel? -/
def State.channelReady (s : State) (p : Nat) (c : Cmd) : Bool :=
  (decide (c.opcode = 0x01) || decide (c.opcode = 0x0E)) && decide (c.kind = 0) && decide (c.phase = .ready) && s.mayStart p && s.fenceOpen p c
    && (s.startRefusal p c).isNone

/-- The MOVE channels in use, by the partitions' commands. -/
def State.channelsOf (s : State) (p : Nat) : List Nat :=
  ((s.part p).cmds.filter (fun c => decide (c.phase = .running) && (decide (c.opcode = 0x01) || decide (c.opcode = 0x0E)))).map (·.runUnit)

/-- MOVE_CHANNEL_TAKE (R140): a free channel takes the oldest runnable command of the next partition, in round robin, that holds fewer than four
channels. -/
def execMoveChannelTake (k : Fin 8) (s : State) : Res :=
  act s fun s =>
    if (List.range 32).any (fun p => (s.channelsOf p).contains k.val) then s
    else
      let order := (List.range 32).map (fun i => (s.loft.moveTurn + i) % 32)
      match order.findSome? (fun p => if 4 ≤ (s.channelsOf p).length then none else ((s.part p).cmds.find? (s.channelReady p)).map (fun c => (p, c))) with
      | none => s
      | some (p, c) => (s.startOn p c k.val []).modLoft (fun l => { l with moveTurn := (p + 1) % 32 })

/-- DEADLINE_EXPIRE (R48, R176): the command still waits in its queue, or is held at a fault. -/
def execDeadlineExpire (p : Fin 32) (chute : Fin 64) (seq : Word) (s : State) : Res :=
  act s fun s =>
    match s.cmd p.val chute.val seq.toNat with
    | none => s
    | some c => if c.phase ≠ .running ∧ c.phase ≠ .ended ∧ s.overdue c then s.endCmd p.val c stDeadline 0 0 else s

/-! ### Completion (R52 to R54) -/

/-- The unit a record shows (R52). -/
def Cmd.recordUnit (c : Cmd) : Nat := if c.kind = 0 ∧ c.hasUnit then c.runUnit % 256 else 0xFF

/-- The eight words of a completion record (R52). -/
def Cmd.record (c : Cmd) (phase : Bool) (now : Nat) : List Nat :=
  [(if phase then 2 ^ 31 else 0) + c.chute % 128 * 2 ^ 24 + c.status % 256 * 2 ^ 16 + c.kind % 16 * 2 ^ 8 + (if c.kind = 0 then c.opcode % 256 else 0),
   c.seq, c.tag % 2 ^ 32, c.tag / 2 ^ 32, c.result % 2 ^ 32, c.result / 2 ^ 32 % 2 ^ 32, c.detail % 2 ^ 24 * 2 ^ 8 + c.recordUnit, now % 2 ^ 32]

/-- May the record be written: every write of the command is acknowledged, and the record an ABORT's must follow has been written (R53, R59)? -/
def State.recordReady (s : State) (p : Nat) (c : Cmd) : Bool :=
  decide (c.phase = .ended) && decide (c.unacked = 0)
    && (decide (c.kind = 0) || (match c.aux with | [ch, q] => (s.cmd p ch q).isNone | _ => true))

/-- The finished command whose record is next: the one that ended first (R53, R54). -/
def State.nextRecord (s : State) (p : Nat) : Option Cmd :=
  (s.part p).cmds.foldl (fun (b : Option Cmd) c =>
    if s.recordReady p c then (match b with | some d => if d.endOrd < c.endOrd then b else some c | none => some c) else b) none

/-- COMPLETION_RECORD_WRITE (R52 to R54): the record becomes visible whole at TAIL, or it waits and cpl_full is set. `ue`: it has an
uncorrectable word in the completion buffer and is not written, and the partition freezes (R355). -/
def execCompletionRecordWrite (p : Fin 32) (s : State) (ue : Bool := false) : Res :=
  act s fun s =>
    let p := p.val
    match s.nextRecord p with
    | none => s
    | some c =>
      if ue then (s.modPart p (fun pt => { pt with cmds := pt.cmds.filter (fun d => decide (d.endOrd ≠ c.endOrd) || decide (d.phase ≠ .ended)),
                                                   others := (c.chute, c.seq) :: pt.others })).uncontained p 2
      else
      let r := (s.part p).ring cplRing
      let n := r.range.size / 32
      let tail := s.regN (Reg.PART_CPL_TAIL p)
      let a := r.range.base + 32 * tail
      if !r.ready || r.disabling || decide ((tail + 1) % max 1 n = s.regN (Reg.PART_CPL_HEAD p)) then s.pageCause p 4
      else if !s.writable (a / 64) then s.want (a / 64) true
      else
        let s := s.postBytes .device a 32 (wordsVal (c.record (s.part p).phaseBit s.lcc)) false
        let next := (tail + 1) % n
        let s := s.setRegN (Reg.PART_CPL_TAIL p) next
        let s := s.modPart p (fun pt =>
          { pt with phaseBit := (if next = 0 then !pt.phaseBit else pt.phaseBit),
                    cmds := pt.cmds.filter (fun d => decide (d.endOrd ≠ c.endOrd) || decide (d.phase ≠ .ended)) })
        if c.irq then s.pageCause p 1 else s

end Sys2Proof.Machine
end

