-- ==== Sys2Proof/Machine/CxlRegs.lean ====
section
/-! DEFINITION. The CXL and PCIe structures in a logical device's own BAR0 (R23, R420, R421, R431): its HDM decoder and its MSI-X entry. The spec
takes their layout from CXL 3.1 and PCIe and does not repeat it; what stands here is PRESUMED (log entry 32). -/

namespace Sys2Proof.Machine

/-- The structures of R420 outside the partition page and the control space. -/
inductive CxlPart where
  /-- CXL component registers. -/
  | component
  /-- CXL device registers and the mailbox. -/
  | device
  /-- The MSI-X table. -/
  | table
  /-- The MSI-X pending bits. -/
  | pba
  deriving DecidableEq, Repr

/-- The logical device, structure and offset that a BAR0 offset of a requester names (R420), if any. -/
def Requester.cxlPart (rq : Requester) (a : Nat) : Option (Nat × CxlPart × Nat) :=
  let at_ (ld comp dev table pba : Nat) (compSize : Nat) : Option (Nat × CxlPart × Nat) :=
    if a % 4 ≠ 0 then none
    else if comp ≤ a ∧ a < comp + compSize then some (ld, .component, a - comp)
    else if dev ≤ a ∧ a < dev + 0x1000 then some (ld, .device, a - dev)
    else if table ≤ a ∧ a < table + 16 then some (ld, .table, a - table)
    else if pba ≤ a ∧ a < pba + 8 then some (ld, .pba, a - pba)
    else none
  match rq with
  | .ld p => at_ p.val 0xE0000 0xE8000 0xF0000 0xF0800 0x1000
  | .fm h => at_ (32 + h.val) 0xF000000 0xF008000 0xF0F0000 0xF0F0800 0x8000
  | _ => none

/-- Can the staged decoder be committed (R421): one way, a size that is a multiple of 256 MiB, not zero? -/
def Decoder.commits (d : Decoder) : Bool := decide (d.size ≠ 0) && decide (d.size % 2 ^ 28 = 0)

/-- The decoder's control word: commit bit 9, committed 10, error 11, back-invalidate 13. A commit that failed shows the error. -/
def LogicalDevice.decoderCtrl (d : LogicalDevice) : Nat :=
  (if d.stage.committed then 2 ^ 9 else 0) + (if d.decoder.committed then 2 ^ 10 else 0)
    + (if d.stage.committed && !d.decoder.committed then 2 ^ 11 else 0) + (if d.stage.backInvalidate then 2 ^ 13 else 0)

/-- What a word of one of these structures reads as; none where the spec does not say what stands there. -/
def LogicalDevice.cxlWord (d : LogicalDevice) (c : CxlPart) (o : Nat) : Option Nat :=
  match c with
  | .component =>
    if o = 0x10 then some (d.stage.base % 2 ^ 32) else if o = 0x14 then some (d.stage.base / 2 ^ 32)
    else if o = 0x18 then some (d.stage.size % 2 ^ 32) else if o = 0x1C then some (d.stage.size / 2 ^ 32)
    else if o = 0x20 then some d.decoderCtrl
    else none
  | .device => none
  | .table =>
    if o = 0 then some d.vecAddrLo else if o = 4 then some d.vecAddrHi else if o = 8 then some d.vecData
    else some (if d.vecMask then 1 else 0)
  | .pba => some (if o = 0 ∧ d.vecPending then 1 else 0)

/-- Commit or release the staged decoder. -/
def LogicalDevice.commit (d : LogicalDevice) (on bi : Bool) : LogicalDevice :=
  let stage : Decoder := { d.stage with committed := on, backInvalidate := bi }
  if on then
    { d with stage := stage,
             decoder := if d.decoder.committed then d.decoder else if stage.commits then stage else d.decoder }
  else { d with stage := stage, decoder := { d.decoder with committed := false } }

/-- Write a word of one of these structures. While the decoder is committed its base and size stay as they are. -/
def LogicalDevice.writeCxl (d : LogicalDevice) (c : CxlPart) (o : Nat) (v : Word) : LogicalDevice :=
  let n := v.toNat
  let top := n / 2 ^ 28 * 2 ^ 28
  match c with
  | .component =>
    if o = 0x20 then d.commit (bitOf v 9) (bitOf v 13)
    else if d.decoder.committed then d
    else if o = 0x10 then { d with stage := { d.stage with base := d.stage.base / 2 ^ 32 * 2 ^ 32 + top } }
    else if o = 0x14 then { d with stage := { d.stage with base := d.stage.base % 2 ^ 32 + n * 2 ^ 32 } }
    else if o = 0x18 then { d with stage := { d.stage with size := d.stage.size / 2 ^ 32 * 2 ^ 32 + top } }
    else if o = 0x1C then { d with stage := { d.stage with size := d.stage.size % 2 ^ 32 + n * 2 ^ 32 } }
    else d
  | .table =>
    if o = 0 then { d with vecAddrLo := n / 4 * 4 } else if o = 4 then { d with vecAddrHi := n } else if o = 8 then { d with vecData := n }
    else { d with vecMask := bitOf v 0 }
  | _ => d

/-- A message that was generated while a mask was set is sent when both are clear (R431). -/
def State.sendPending (s : State) (ld : Nat) : State :=
  let d := s.ld ld
  if d.vecPending && !d.vecMask && !d.funcMask then (s.modLd ld (fun d => { d with vecPending := false })).emit (.msix ld) else s

/-- A write to one of these structures. -/
def State.writeCxl (s : State) (ld : Nat) (c : CxlPart) (o : Nat) (v : Word) : State :=
  (s.modLd ld (fun d => d.writeCxl c o v)).sendPending ld

/-- A read of one: what the spec leaves to CXL reads as a free value (log entry 32). -/
def State.readCxl (s : State) (ld : Nat) (c : CxlPart) (o : Nat) : Word × State :=
  match (s.ld ld).cxlWord c o with
  | some v => (BitVec.ofNat 32 v, s)
  | none =>
    let (n, s) := s.draw
    (BitVec.ofNat 32 n, s)

end Sys2Proof.Machine
end

