-- ==== Sys2Proof/Machine/HostPorts.lean ====
section
/-! DEFINITION. The rest of the outside interfaces (R418 to R426, R434, R435, R441): CXL links and configuration, IDE failures, mailbox commands
that report, the management ports, I3C and MCTP. -/

namespace Sys2Proof.Machine

/-! ### CXL links (R397, R418, R426, R441) -/

/-- CXL_LINK_UP (R441): at x2, x4 or x8, at 32 or 64 GT/s; not while PERST_N is low, nor in recovery. -/
def execCxlLinkUp (h : Fin 2) (width : Fin 16) (fast : Bool) (s : State) : Res :=
  act s fun s =>
    let a := Reg.CXL_STATUS h.val
    if s.boot.recovery ∨ s.regF a 31 29 = 3 ∨ s.regF a 31 29 = 2 ∨ (width ≠ 2 ∧ width ≠ 4 ∧ width ≠ 8) then s
    else
      (((s.setRegF a 31 29 2).setRegF a 23 20 width.val).setRegF a 19 16 (if fast then 2 else 1)).cause (Reg.CXL_IRQ_CAUSE h.val) 1

/-- CXL_CONFIG_REQUEST (R397): config retry until the port is ready. -/
def execCxlConfigRequest (h : Fin 2) (s : State) : Res :=
  act s fun s =>
    let a := Reg.CXL_STATUS h.val
    if s.regF a 31 29 = 3 then s
    else if s.regF a 28 28 = 1 then s.emit (.hostResp (.fmHost h.val 0) "Cpl" none false)
    else (s.count (Reg.CXL_CFG_RETRY h.val) 1).emit (.hostResp (.fmHost h.val 0) "RetryStatus" none false)

/-- IDE_FAIL (R426): the link goes down, which is a host loss; it can fail only while the stream is active. -/
def execIdeFail (h : Fin 2) (s : State) : Res :=
  act s fun s =>
    if s.regF (Reg.CXL_STATUS h.val) 27 27 = 0 then s
    else ((s.count (Reg.CXL_IDE_FAIL h.val) 1).resetCxlPort h.val 0).cause (Reg.CXL_IRQ_CAUSE h.val) 8

/-! ### Mailbox commands that report (R419, R421, R425) -/

/-- Bytes of the one DC region of a logical device (R421). -/
def regionBytes : Nat := Config.t1Bytes - Config.poolBase

/-- IDENTIFY (R419, R425): vendor, device, revision, class code, subsystem. -/
def execIdentifyDevice (mb : Mailbox) (s : State) : Res :=
  act s fun s => s.mbox mb "Identify" 0 [0x1F7C, 0x0640, 0xA1, 0x050210, s.boot.config.subsystem]

/-- IDENTIFY_MEMORY_DEVICE (R418, R425): the firmware's version, and no static capacity. -/
def execIdentifyMemoryDevice (mb : Mailbox) (s : State) : Res :=
  act s fun s => s.ldMailbox mb "Identify Memory Device" fun _ s => s.mbox mb "Identify Memory Device" 0 [s.regN Reg.CFG_IMAGE_VER, 0]

/-- GET_SUPPORTED_LOGS (R425): one log, the CDAT. -/
def execGetSupportedLogs (mb : Mailbox) (s : State) : Res :=
  act s fun s => s.ldMailbox mb "Get Supported Logs" fun _ s => s.mbox mb "Get Supported Logs" 0 [1]

/-- GET_LOG (R418, R425): the CDAT: the DC region, and latency and bandwidth figures, which the spec does not state (log entry 4). -/
def execGetLog (mb : Mailbox) (s : State) : Res :=
  act s fun s => s.ldMailbox mb "Get Log" fun _ s => s.mbox mb "Get Log" 0 [0, regionBytes, (Config.cdatFigure 0).toNat, (Config.cdatFigure 1).toNat]

/-- GET_EVENT_RECORDS (R423, R425). -/
def execGetEventRecords (mb : Mailbox) (s : State) : Res :=
  act s fun s => s.mbox mb "Get Event Records" 0 ((s.ld mb.device).events.flatMap (fun e => [e.handle, e.kind, e.range.base, e.range.size]))

/-- CLEAR_EVENT_RECORDS (R425). -/
def execClearEventRecords (mb : Mailbox) (handles : List Nat) (s : State) : Res :=
  act s fun s =>
    (s.modLd mb.device (fun d => { d with events := d.events.filter (fun e => !handles.contains e.handle) })).mbox mb "Clear Event Records" 0 []

/-- GET_EVENT_INTERRUPT_POLICY (R425). -/
def execGetEventInterruptPolicy (mb : Mailbox) (s : State) : Res :=
  act s fun s => s.ldMailbox mb "Get Event Interrupt Policy" fun p s =>
    s.mbox mb "Get Event Interrupt Policy" 0 [if (s.ld p).policyMsix then 1 else 0]

/-- SET_EVENT_INTERRUPT_POLICY (R425, R431). -/
def execSetEventInterruptPolicy (mb : Mailbox) (msix : Bool) (s : State) : Res :=
  act s fun s => s.ldMailbox mb "Set Event Interrupt Policy" fun p s =>
    (s.modLd p (fun d => { d with policyMsix := msix })).mbox mb "Set Event Interrupt Policy" 0 []

/-- What the region of a logical device is (R418, R421): one region, its first DPA, its length, the block size. -/
def regionWords : List Nat := [1, 0, regionBytes, 0x10000000]

/-- GET_DYNAMIC_CAPACITY_CONFIG (R418, R421, R425). -/
def execGetDynamicCapacityConfig (mb : Mailbox) (s : State) : Res :=
  act s fun s => s.ldMailbox mb "Get Dynamic Capacity Configuration" fun _ s => s.mbox mb "Get Dynamic Capacity Configuration" 0 regionWords

/-- GET_DC_REGION_CONFIGURATION (R418, R421, R425). -/
def execGetDcRegionConfiguration (mb : Mailbox) (p : Fin 32) (s : State) : Res :=
  act s fun s => s.fmMailbox mb "Get DC Region Configuration" fun s =>
    if mb.names p.val then s.mbox mb "Get DC Region Configuration" 0 regionWords else s.mbox mb "Get DC Region Configuration" 1 []

/-- GET_LD_INFO (R418, R421): the T1 partition pool, and sixteen logical devices beside the FM-owned one. -/
def execGetLdInfo (mb : Mailbox) (s : State) : Res :=
  act s fun s => s.fmMailbox mb "Get LD Info" fun s => s.mbox mb "Get LD Info" 0 [regionBytes, 16]

/-- GET_LD_ALLOCATIONS (R418, R425): no logical device has static capacity. -/
def execGetLdAllocations (mb : Mailbox) (s : State) : Res :=
  act s fun s => s.fmMailbox mb "Get LD Allocations" fun s => s.mbox mb "Get LD Allocations" 0 (16 :: List.replicate 16 0)

/-- SET_LD_ALLOCATIONS (R425): Unsupported. -/
def execSetLdAllocations (mb : Mailbox) (s : State) : Res := act s fun s => s.mbox mb "Set LD Allocations" 2 []

/-- UNSUPPORTED_MAILBOX_COMMAND (R418). -/
def execUnsupportedMailboxCommand (mb : Mailbox) (opcode : BitVec 16) (s : State) : Res :=
  act s fun s => s.mbox mb "Unsupported" 2 [opcode.toNat]

/-! ### Management ports (R434) -/

/-- The MAC address of a management port. -/
def State.mac (s : State) (port : Nat) : Nat := (if port = 0 then 0x02 else 0x06) * 2 ^ 40 + s.fuses.uid % 2 ^ 40

/-- The IPv4 address of a management port; 0 before it has one. -/
def State.ip (s : State) (port : Nat) : Nat := Tbl.get (fun _ => 0) s.netAddr port

/-- ARP (R434): a request for the port's address is answered with its MAC address. -/
def execArpRequest (port : Fin 2) (target : Word) (sender : Word) (s : State) : Res :=
  act s fun s =>
    if target.toNat ≠ 0 ∧ target.toNat = s.ip port.val then s.emit (.frame port.val "ARP" [s.mac port.val, s.ip port.val, sender.toNat]) else s

/-- ICMP_ECHO (R434): an echo request to the port's address is answered with its body. -/
def execIcmpEcho (port : Fin 2) (target : Word) (sender : Word) (body : List Byte) (s : State) : Res :=
  act s fun s =>
    if target.toNat ≠ 0 ∧ target.toNat = s.ip port.val then s.emit (.frame port.val "ICMP" (sender.toNat :: byteNats body)) else s

/-- MANAGEMENT_LINK_CHANGE (R434, R440). -/
def execManagementLinkChange (port : Fin 2) (up : Bool) (s : State) : Res :=
  act s fun s => s.setRegF Reg.RNG_NET_STATUS (30 + port.val) (30 + port.val) (if up then 1 else 0)

/-- MANAGEMENT_FRAME_DROP (R434). -/
def execManagementFrameDrop (_port : Fin 2) (s : State) : Res := act s fun s => s.count Reg.RNG_NET_DROPPED 1

/-! ### I3C and MCTP (R435) -/

/-- Take a dynamic address, while the target has none. -/
def State.takeAddress (s : State) (dyn : BitVec 7) : State :=
  let a := Reg.RNG_I3C_STATUS
  if s.regF a 31 31 = 1 then s else (s.setRegF a 31 31 1).setRegF a 30 24 dyn.toNat

/-- SETDASA (R435): to the static address. -/
def execSetDasa (stat : BitVec 7) (dyn : BitVec 7) (s : State) : Res :=
  act s fun s => if stat.toNat = s.regF Reg.RNG_I3C_STATUS 6 0 then s.takeAddress dyn else s

/-- ENTDAA (R435). -/
def execEntDaa (dyn : BitVec 7) (s : State) : Res := act s fun s => s.takeAddress dyn

/-- SET_ENDPOINT_ID (R435): 0 and 255 are no endpoint IDs (PRESUMED from MCTP, log entry 31); the answer gives a completion code and the ID. -/
def execSetEndpointId (eid : BitVec 8) (s : State) : Res :=
  act s fun s =>
    if eid = 0 ∨ eid = 255 then s.emit (.mctp "Set Endpoint ID" [2, s.regF Reg.RNG_I3C_STATUS 15 8])
    else (s.setRegF Reg.RNG_I3C_STATUS 15 8 eid.toNat).emit (.mctp "Set Endpoint ID" [0, eid.toNat])

/-- GET_ENDPOINT_ID (R435). -/
def execGetEndpointId (s : State) : Res := act s fun s => s.emit (.mctp "Get Endpoint ID" [0, s.regF Reg.RNG_I3C_STATUS 15 8])

/-- GET_VERSION_SUPPORT (R435): the versions are not stated (log entry 4); a type the port does not carry has none. -/
def execGetVersionSupport (msgType : BitVec 8) (s : State) : Res :=
  act s fun s =>
    if msgType = 0 ∨ msgType = 7 ∨ msgType = 0x7E ∨ msgType = 0xFF then s.emit (.mctp "Get Version Support" [0, (Config.mctpVersion msgType.toNat).toNat])
    else s.emit (.mctp "Get Version Support" [0x80])

/-- GET_MESSAGE_TYPE_SUPPORT (R435): MCTP control, the CXL FM API, vendor-defined PCI. -/
def execGetMessageTypeSupport (s : State) : Res := act s fun s => s.emit (.mctp "Get Message Type Support" [0, 3, 0x00, 0x07, 0x7E])

end Sys2Proof.Machine
end

