-- ==== Sys2Proof/Machine/Quarantine.lean ====
section
/-! DEFINITION. Quarantine of a unit that a CTRL write has marked (R101, R121, R289, R322): at its next boundary the running command ends and the
unit is quarantined. -/

namespace Sys2Proof.Machine

/-- A command that ends for the quarantine of its unit shows detail 0x82. -/
def State.showQuarantined (s : State) (p : Nat) (c : Cmd) : State :=
  s.modCmd p c.chute c.seq (fun c => if c.phase = .ended then { c with detail := 0x82 } else c)

/-- Does a row command stand at a boundary (R60)? -/
def State.rowBoundary (s : State) (p : Nat) (c : Cmd) : Bool :=
  c.aux.isEmpty || (s.atFault p c).isSome || decide (c.opcode = 0x04)
    || (if c.opcode = 0x12 then decide (c.auxAt 2 ≤ 1) else decide (c.auxAt 2 = 0))

/-- Does a search or index command, with nothing of its own on its way to the Loft? -/
def State.winBoundary (s : State) (p : Nat) (c : Cmd) : Bool :=
  c.aux.isEmpty || (s.atFault p c).isSome
    || (decide (c.auxAt 2 = 0) && (decide (c.opcode ≠ 0x08) || decide (c.auxAt 6 = 0)) && (match s.index p c.indexNo with
        | some x => !x.sealing c
        | none => true))

/-- End the command of a Winnower at its boundary, letting go of what it holds. -/
def State.winQuarEnd (s : State) (p : Nat) (c : Cmd) : State :=
  if c.opcode = 0x07 ∨ c.aux.isEmpty then (s.loftForget p c).rowEnd p c stUnsupported
  else if c.opcode = 0x0A then
    match s.index p c.indexNo with
    | some x => s.compactDone p c x stUnsupported 0
    | none => s.rowEnd p c stUnsupported
  else s.winStop p c stUnsupported

/-- What the running command of a marked unit does at its boundary; none while it is at none. -/
def State.quarStop (s : State) (k : UnitKind) (i p : Nat) (c : Cmd) : Option State :=
  match k with
  | .me => if (s.engine i).waiting || (s.waitOf (.me i)).isSome then none else some (s.meEnd p c stChecksum)
  | .gc =>
    if s.midInstr p c i then none
    else some (if (s.core i).ending.isSome then s
      else if c.aux.isEmpty then s.endCmd p c stUnsupported 0 0x82
      else ((s.endFaultsOf p c).endWait (.core i)).gcEnd i stUnsupported 0x82)
  | .row => if s.rowBoundary p c then some ((s.rowEnd p c stUnsupported).showQuarantined p c) else none
  | .win => if s.winBoundary p c then some ((s.winQuarEnd p c).showQuarantined p c) else none

/-- QUARANTINE_AT_BOUNDARY (R101, R121, R289, R322): a core is quarantined once its run has made its release. -/
def execQuarantineAtBoundary (k : UnitKind) (i : Fin 64) (s : State) : Res :=
  act s fun s =>
    let i := i.val
    if !s.marked k i then s
    else match s.unitCmd k i with
      | none => s.quarantine k i
      | some (p, c) => match s.quarStop k i p c with
        | none => s
        | some s => if (s.unitCmd k i).isNone then s.quarantine k i else s

end Sys2Proof.Machine
end

