-- ==== Sys2Proof/Machine/Msg.lean ====
section
/-! DEFINITION. Messages (R256 to R260): MSG_SEND at the sender, the mailbox at the receiver. The layout of a message packet's words is the model's
own (log entry 23): word 0 what it is (1 OPEN, 2 ACCEPT, 3 FULL, 4 DATA, 5 DONE), word 1 the length or a DATA packet's byte offset, words 2 and 3
the immediate value, word 4 the destination partition in [31:16] and the tag; a DATA packet's bytes follow from word 8. -/

namespace Sys2Proof.Machine

/-- A message packet of a kind (R236, R258). -/
def Packet.isMsg (k : Packet) (typ : Nat) : Bool := decide (k.proto = 3) && decide (wordAt k.body 0 = typ)

/-! ### The sender (R257 to R259) -/

/-- The cell and node a MSG_SEND names. -/
def Cmd.msgDst (c : Cmd) : Nat × Nat := (nfld (c.arg 8) 31 22, nfld (c.arg 8) 21 10)

/-- An exchange of a message: its words and its length in slots. Working values of MSG_SEND: stage (1 opened, 2 accepted), msg_id. -/
def Cmd.msgReq (c : Cmd) (p len msgId : Nat) (body : List Nat) : FabReq :=
  { tc := 6, dst := c.msgDst.2, dstCell := some c.msgDst.1, addr := 0, part := some p, msgId := msgId, proto := 3, len := len, lineOff := 0,
    waiter := .msg p c.chute c.seq, body := body }

/-- Send DATA packets, 256 bytes each, as far as their lines can be read (R258). A poisoned line ends the command (R58). -/
def State.msgSendData (s : State) (p chute seq : Nat) : Nat → State
  | 0 => s
  | fuel + 1 =>
    match s.running p chute seq with
    | none => s
    | some c =>
      let o := 256 * c.progress
      let n := min 256 (c.msgLen - o)
      if c.auxAt 0 ≠ 2 ∨ n = 0 then s
      else match c.range (c.arg64 11 + o) n acRead with
        | none => s
        | some x =>
          let ag := c.agent p
          if !((x.flatMap (fun r => physLines r.1 r.2)).all (s.lineReady ag false)) then s.whenReady ag false x id
          else
            let (g, s) := s.fetchAll ag false x
            let s := s.workDone p c
            if g.status ≠ 0 then s.endCmd p c g.status 0 0
            else if g.poison then s.endCmd p c stPoison 0 0
            else
              let body := [4, o, 0, 0, 0, 0, 0, 0] ++ numWords g.value 64
              ((s.setAux p c (c.progress + 1) c.aux).unitSend (c.msgReq p 10 (c.auxAt 1) body)).msgSendData p chute seq fuel

/-- MSG_SEND (R257, R258): the first time it opens the message; while one is accepted it sends what data is still to be sent. A node that does not
exist, and a remote source without a composition, are DEDUCED (log entries 66 and 67). -/
def execMsgSend (p : Fin 32) (chute : Fin 64) (seq : Word) (s : State) : Res :=
  act s fun s =>
    let p := p.val
    match s.running p chute.val seq.toNat with
    | none => s
    | some c =>
      if c.opcode ≠ 0x0F then s
      else if c.aux.isEmpty then
        if c.msgLen = 0 ∨ 2 ^ 20 < c.msgLen then s.endCmd p c stUnsupported 0 0
        else if c.msgDst.1 = s.cell ∧ !s.nodeExists c.msgDst.2 then (s.violateMem (.unit p c.chute c.seq) true 0).endCmd p c stOk 0 0
        else
          let id := s.fab.nextMsg
          let s := (s.modFab (fun x => { x with nextMsg := (id + 1) % 2 ^ 32 })).setAux p c 0 [1, id]
          s.unitSend (c.msgReq p 2 id [1, c.msgLen, c.arg 13, c.arg 14, nfld (c.arg 8) 9 5 * 2 ^ 16 + nfld (c.arg 9) 31 16, 0, 0, 0])
      else s.msgSendData p c.chute c.seq 4097

/-- The running MSG_SEND a response belongs to: its partition and command. -/
def State.msgOf (s : State) (k : Packet) : Option (Nat × Cmd) :=
  (List.range 32).findSome? (fun p => ((s.part p).cmds.find? (fun c => decide (c.opcode = 0x0F) && decide (c.phase = .running) && decide (c.kind = 0)
    && !c.aux.isEmpty && decide (c.auxAt 1 = k.msgId) && decide (c.msgDst = (k.srcCell, k.src)))).map (fun c => (p, c)))

/-- Every exchange of a command is complete. -/
def State.msgComplete (s : State) (p : Nat) (c : Cmd) : State :=
  (s.fab.reqs.filter (fun r => decide (r.waiter = .msg p c.chute c.seq))).foldl (fun s r => (s.complete r).settleStalled) s

/-- A response of a kind reaches the sender. -/
def State.msgAnswer (s : State) (k : Packet) (typ : Nat) (f : Nat → Cmd → State → State) : State :=
  if !k.isMsg typ || decide (k.tkind = 0) then s
  else
    let s := s.receive k
    match s.msgOf k with
    | none => s
    | some (p, c) => f p c (s.msgComplete p c)

/-- ACCEPT (R258): the data follows. -/
def execMsgAccept (k : Packet) (s : State) : Res :=
  act s fun s => s.msgAnswer k 2 fun p c s => (s.setAux p c 0 [2, c.auxAt 1]).msgSendData p c.chute c.seq 4097

/-- FULL (R259). -/
def execMsgFull (k : Packet) (s : State) : Res := act s fun s => s.msgAnswer k 3 fun p c s => s.endCmd p c stReservation 0 1

/-- DONE (R259). -/
def execMsgDone (k : Packet) (s : State) : Res := act s fun s => s.msgAnswer k 5 fun p c s => s.endCmd p c stOk c.msgLen 0

/-! ### The receiver (R258, R259) -/

/-- Answer a message packet. -/
def State.msgReply (s : State) (k : Packet) (typ : Nat) : State := s.respond k 0 3 2 [typ, 0, 0, 0, 0, 0, 0, 0]

/-- Lines of a mailbox. -/
def State.mboxLines (s : State) (p : Nat) : Nat := s.ringEntries p mboxRing 64

/-- The line after the last one reserved in a mailbox. -/
def State.mboxNext (s : State) (p : Nat) : Nat :=
  match (s.fab.inbound.filter (fun m => decide (m.part = p))).getLast? with
  | some m => (m.line + m.lines) % max 1 (s.mboxLines p)
  | none => s.regN (Reg.PART_MBOX_TAIL p)

/-- The phase of a record at a line: that of TAIL's pass, or of the next pass for a line below TAIL (R258). -/
def State.mboxPhaseAt (s : State) (p line : Nat) : Bool :=
  let ph := Tbl.get (fun _ => false) s.fab.mboxPhase p
  if line < s.regN (Reg.PART_MBOX_TAIL p) then !ph else ph

/-- Write the record header at a line of a mailbox. -/
def State.mboxHeader (s : State) (p line word len imm : Nat) : State :=
  let ph := if s.mboxPhaseAt p line then 2 ^ 31 else 0
  s.postBytes .device (((s.part p).ring mboxRing).range.base + 64 * line) 64 (wordsVal [ph + word, len, imm % 2 ^ 32, imm / 2 ^ 32]) false

/-- The source fields of a record header. -/
def Inbound.word (m : Inbound) : Nat := m.req.srcCell % 1024 * 2 ^ 21 + m.req.src % 4096 * 2 ^ 9 + m.req.srcPart % 32 * 2 ^ 4

/-- May a message be delivered to this partition with this tag: admitted, mailbox ready (R259)? -/
def State.mboxTakes (s : State) (p tag : Nat) : Bool :=
  decide (p < 32) && (decide (s.pstate p = .active) || decide (s.pstate p = .frozen) || decide (s.pstate p = .resetting))
    && ((s.part p).ring mboxRing).ready && !((s.part p).ring mboxRing).disabling && decide (s.regF (Reg.PART_MBOX_TAG p) 15 0 = tag)

/-- OPEN (R258, R259): lines are reserved behind those of earlier messages, past a pad record where they would cross the ring's end. -/
def execMsgOpen (k : Packet) (s : State) : Res :=
  act s fun s =>
    if !k.isMsg 1 || decide (k.tkind ≠ 0) then s
    else
      let s := s.receive k
      let p := wordAt k.body 4 / 2 ^ 16
      let len := wordAt k.body 1
      if !s.mboxTakes p (wordAt k.body 4 % 2 ^ 16) then (s.violateMem (.peer k.src k.tc k.seq) true 0).msgReply k 5
      else
        let n := s.mboxLines p
        let at_ := s.mboxNext p
        let need := 1 + (len + 63) / 64
        let pad := if n < at_ + need then n - at_ else 0
        let free := (s.regN (Reg.PART_MBOX_HEAD p) + n - at_ - 1) % n
        if free < pad + need then (s.count (Reg.PART_MBOX_REFUSED p) 1).msgReply k 3
        else
          let s := if pad = 0 then s else s.mboxHeader p at_ 0 0xFFFFFFFF 0
          let m : Inbound := { req := k, part := p, line := if pad = 0 then at_ else 0, lines := need, len := len, imm := pairAt k.body 2, got := 0,
                               since := s.lcc }
          (s.modFab (fun x => { x with inbound := x.inbound ++ [m] })).msgReply k 2

/-- The message a packet belongs to. -/
def Inbound.isOf (m : Inbound) (srcCell srcNode msgId : Nat) : Bool :=
  decide (m.req.srcCell = srcCell) && decide (m.req.src = srcNode) && decide (m.req.msgId = msgId)

/-- DATA (R258): written into the reserved lines. -/
def execMsgData (k : Packet) (s : State) : Res :=
  act s fun s =>
    if !k.isMsg 4 || decide (k.tkind ≠ 0) then s
    else
      let s := s.receive k
      match s.fab.inbound.find? (fun m => m.isOf k.srcCell k.src k.msgId) with
      | none => s
      | some m =>
        let o := wordAt k.body 1
        let n := min 256 (m.len - o)
        let a := ((s.part m.part).ring mboxRing).range.base + 64 * (m.line + 1) + o
        let s := s.postBytes .device a n (wordsVal (k.body.drop 8) % 2 ^ (8 * n)) false
        s.modFab (fun x => { x with inbound := x.inbound.map (fun y =>
          if y.isOf k.srcCell k.src k.msgId then { y with got := y.got + n, since := s.lcc } else y) })

/-- TAIL passes a message's lines, and the phase turns where it wraps. -/
def State.mboxAdvance (s : State) (m : Inbound) : State :=
  let p := m.part
  let n := max 1 (s.mboxLines p)
  let tail := s.regN (Reg.PART_MBOX_TAIL p)
  let next := (m.line + m.lines) % n
  let s := if next < tail then s.modFab (fun x => { x with mboxPhase := Tbl.modify (fun _ => false) x.mboxPhase p (!·) }) else s
  (s.setRegN (Reg.PART_MBOX_TAIL p) next).modFab (fun x => { x with inbound := x.inbound.erase m })

/-- MAILBOX_DELIVER (R258, R259): in the order in which the OPENs were accepted. One with all its data, acknowledged, is delivered; one that
has waited longer than the request timeout for a packet is discarded, its lines a pad record (log entry 23). -/
def execMailboxDeliver (srcCell : Fin 1024) (srcNode : Fin 4096) (msgId : Word) (s : State) : Res :=
  act s fun s =>
    match s.fab.inbound.find? (fun m => m.isOf srcCell.val srcNode.val msgId.toNat) with
    | none => s
    | some m =>
      let p := m.part
      let first := (s.fab.inbound.find? (fun y => decide (y.part = p))) = some m
      let a := ((s.part p).ring mboxRing).range.base + 64 * m.line
      if !first then s
      else if m.len ≤ m.got then
        if !((linesOf a (64 * m.lines)).all s.lineQuiet) then s
        else if !s.writable (a / 64) then s.want (a / 64) true
        else
          let s := (s.mboxHeader p m.line m.word m.len m.imm).mboxAdvance m
          let s := if s.regF (Reg.PART_MBOX_SEM p) 31 31 = 1 then (s.semAdd p (s.regF (Reg.PART_MBOX_SEM p) 17 0) 1).1 else s
          (s.count (Reg.PART_MBOX_DELIVERED p) 1).msgReply m.req 5
      else if s.requestTimeout < s.lcc - m.since then
        if !s.writable (a / 64) then s.want (a / 64) true else (s.mboxHeader p m.line 0 0xFFFFFFFF 0).mboxAdvance m
      else s

end Sys2Proof.Machine
end

