-- ==== Sys2Proof/Machine/Reads.lean ====
section
/-! DEFINITION. What registers read as that show other state (R5, R7, R24): counts of queues and tables, selected entries, the interrupt
tree. A register not named here reads what the register table holds. -/

namespace Sys2Proof.Machine

/-- The low or high word of a 64-bit value. -/
def halfOf (hi : Bool) (v : Nat) : Nat := if hi then v / 2 ^ 32 else v % 2 ^ 32

/-- Ranger registers (R49, R368, R378, R383, R406, R408, R429): see `State.view`. -/
def State.viewRng (s : State) (o : Nat) : Option Nat :=
  if o = 0x100 then some s.summary
  else if 0x140 ≤ o ∧ o < 0x178 then some (s.group ((o - 0x140) / 4))
  else if o = 0x178 then some (s.group 14)
  else if 0x20040 ≤ o ∧ o < 0x20080 then
    some (match s.errs.ring.find? (fun r => decide (r.seq = s.regN Reg.RNG_ERR_READ_SEL)) with
      | some r => wordAt (r.words s.node s.cell) ((o - 0x20040) / 4)
      | none => 0)
  else if o = 0x30044 then
    some (match Tbl.get (fun _ => none) s.ft.packages (s.regF Reg.RNG_FT_CONTENT_SEL 5 0) with
      | some x => 2 ^ 31 + x.kindMask % 256 * 2 ^ 23 + x.id % 2 ^ 16
      | none => 0)
  else if o = 0x30048 then
    some (match Tbl.get (fun _ => none) s.ft.packages (s.regF Reg.RNG_FT_CONTENT_SEL 5 0) with
      | some x => x.version
      | none => 0)
  else if o = 0x40000 ∨ o = 0x40004 then some (halfOf (decide (o = 0x40004)) s.lcc)
  else if o = 0x50000 ∨ o = 0x50004 then some (halfOf (decide (o = 0x50004)) s.fuses.uid)
  else if 0x50020 ≤ o ∧ o < 0x50040 then
    some (wordAt (leWords (digestBytes (s.meas (s.regF Reg.RNG_MEAS_SEL 2 0)))) ((o - 0x50020) / 4))
  else if o = 0x50048 then
    some (s.fuses.floor % 64 * 2 ^ 26 + s.fuses.coarse % 512 * 2 ^ 17 + flag (s.fuses.revoked.toList.getD 1 false) 2
      + flag (s.fuses.revoked.toList.getD 0 false) 1 + s.regF Reg.RNG_FUSE_STATUS 0 0)
  else none

/-- Configuration registers (R401, R404, R417): CFG_IMAGE and CFG_PARAM_VAL. -/
def State.viewCfg (s : State) (o : Nat) : Option Nat :=
  if o = 0 then
    some (flag s.boot.trial.isSome 31 + s.boot.trial.getD 0 * 2 ^ 30 + s.boot.booted * 2 ^ 29 + s.boot.secVer % 64 * 2 ^ 23)
  else if o = 0x28 then
    let sel := s.regF Reg.CFG_PARAM_SEL 5 0
    some (if s.regF Reg.CFG_PARAM_SEL 8 8 = 0 then wordAt s.boot.active sel else wordAt (s.boot.shadow.getD []) sel)
  else none

/-- Hub registers (R160): a stack in self-refresh, the mirror entry that HUB_MIRROR_SEL selects. -/
def State.viewHub (s : State) (h o : Nat) : Option Nat :=
  let m := s.mirror (s.regF (Reg.HUB_MIRROR_SEL 0) 10 0)
  if 0x10 ≤ o ∧ o < 0x1C then
    let i := (o - 0x10) / 4
    some (s.regN (Reg.HUB_STACK_STATUS h i) + flag (decide (s.sleepOf (260 + 3 * h + i) = 3)) 30)
  else if o = 0x104 then some (m.state * 2 ^ 29 + m.role * 2 ^ 27 + m.partner * 2 ^ 15 + m.base)
  else if o = 0x108 then some (m.pbase * 2 ^ 11 + m.size)
  else if o = 0x110 then some m.primary
  else none

/-- Directory registers (R222): entries, transient lines and queued requests of a hub, suspect sets, a scan under way. -/
def State.viewDir (s : State) (h o : Nat) : Option Nat :=
  let mine := s.homes.dir.filter (fun e => e.2.isSome && decide (s.lineHub e.1 = h))
  if o = 0 then
    some (flag s.scanBusy 31 + mine.length)
  else if o = 4 then
    let t := mine.countP (fun e => match e.2 with | some d => d.trans.isSome | none => false)
    some (s.homes.queue.countP (fun r => decide (s.lineHub r.line = h)) * 2 ^ 16 + t)
  else if o = 8 then some (s.homes.suspect.countP (fun e => decide (e.1 / 2 ^ 17 = h)))
  else none

/-- Bit 30 of a unit's STATUS register: a command runs on it (R101, R121, R289, R322). -/
def State.viewRunning (s : State) (k : UnitKind) (i : Nat) : Nat := flag (s.unitCmd k i).isSome 30

/-- Is a core stalled on a held chute line (R40, R121): is a write of its run held while it releases, cleans or makes an atomic, or is the line of its
atomic held? -/
def State.stallsOnHold (s : State) (p : Nat) (c : Cmd) (g : Nat) : Bool :=
  let x := s.core g
  let held := (s.part p).rings.any (fun e => e.2.held.any (fun h => decide (h.req.src = .unit p c.chute c.seq)))
  let row := match x.instr with | some (w, n) => x.row s.lcc n w | none => .plain
  let atomic := decide (row ∈ [.amoadd, .amomin, .amomax, .amominu, .amomaxu, .amoswap, .amoand, .amoor, .amoxor, .lr, .sc, .cas, .amofadd])
  let target := match x.instr with
    | some (w, _) => match (s.translate (g / 16) p (x.xr (iRs1 w)) acRead false).1 with
      | .ok leaf log2 => s.lineBusy (physOf leaf log2 (x.xr (iRs1 w)) / 64 * 64)
      | _ => false
    | none => false
  (held && (c.aux.isEmpty || x.ending.isSome || atomic || decide (row ∈ [.dcln, .dinv, .semsig]))) || (atomic && target)

/-- What a core waits for (R121): sem_wait, fault_wait, hold_wait. -/
def State.viewGcWaits (s : State) (g : Nat) : Nat :=
  let cmd := s.unitCmd .gc g
  let faulted := match cmd with
    | some (p, c) => (s.part p).held.any (fun f => decide (f.chute = c.chute) && decide (f.seq = c.seq))
    | none => false
  let held := match cmd with
    | some (p, c) => s.stallsOnHold p c g
    | none => false
  flag (s.sync.waits.any (fun w => decide (w.who = .core g))) 15 + flag faulted 14 + flag held 13

/-- Registers of the group that TLY_GRP_SEL selects, and of its lane that TLY_LANE_SEL selects (R462); zero for a group the block lacks. A length out
of its range reads as the nearer limit. -/
def State.viewTly (s : State) (u o : Nat) : Option Nat :=
  let g := s.regF (Reg.TLY_GRP_SEL u) 3 0
  let x := s.tallyGroup u g
  let lane := x.lane (s.regF (Reg.TLY_LANE_SEL u) 10 0)
  let row := Tbl.get (fun _ => 0) x.eyeMap (s.regF (Reg.TLY_EYE_MAP_SEL u) 5 0)
  let near (v lo w : Nat) : Nat := v + (max 10 (min 40 (v / 2 ^ lo % 2 ^ w))) * 2 ^ lo - v / 2 ^ lo % 2 ^ w * 2 ^ lo
  let v : Option Nat :=
    if o = 0x4 then
      some (x.state * 2 ^ 29 + x.owner * 2 ^ 27 + x.reason * 2 ^ 24 + x.err * 2 ^ 21 + x.lanes.countP (fun e => e.2.locked && x.has e.1))
    else if o = 0x8 then some (if x.duration = 0 then x.cfg else near x.cfg 15 6)
    else if o = 0xC then some x.laneRange
    else if o = 0x10 ∨ o = 0x14 then some (halfOf (decide (o = 0x14)) x.pat)
    else if o = 0x24 then some (flag lane.locked 31 + lane.losses)
    else if o = 0x28 then some lane.errs
    else if o = 0x2C ∨ o = 0x30 then some (halfOf (decide (o = 0x30)) lane.bits)
    else if o = 0x34 ∨ o = 0x38 then some (halfOf (decide (o = 0x38)) x.flits)
    else if o = 0x3C then some x.flitCrc
    else if o = 0x40 then some (near x.eyeCtrl 0 6)
    else if o = 0x44 then some (flag x.eyeDone 31 + x.width * 2 ^ 16 + x.height * 2 ^ 8 + x.vstep)
    else if o = 0x4C ∨ o = 0x50 then some (halfOf (decide (o = 0x50)) row)
    else none
  match v, tallyKind u g with
  | some _, none => some 0
  | v, _ => v

/-- Switch registers (R240, R242, R243, R261): the shared pool and what of it is free, spill segments in use. -/
def State.viewSw (s : State) (t o : Nat) : Option Nat :=
  if o = 0 then
    let pool := s.sharedPool t
    some (pool * 2 ^ 16 + (pool * slotsPerKib - s.sharedUsedTile t) / slotsPerKib)
  else if o = 0x118 then some s.spillUsed
  else none

/-- CXL port registers (R421, R423, R441): the committed decoders, the extents of the port. -/
def State.viewCxl (s : State) (h o : Nat) : Option Nat :=
  let mine := s.extents.filter (fun e => decide (e.part / 16 = h))
  if o = 0 then
    some (s.regN (Reg.CXL_STATUS h) + bitsOf (fun l => (s.ld (16 * h + l)).decoder.committed) 16)
  else if o = 4 then
    some (mine.countP (fun e => decide (e.state = .pending)) * 2 ^ 16
      + mine.countP (fun e => decide (e.state = .live) || decide (e.state = .offered)))
  else none

/-- Erase counts of written superblocks (R161). -/
def State.viewLft (s : State) (o : Nat) : Option Nat :=
  if o = 0 then some (s.regN Reg.LFT_STATUS / 2 ^ 28 * 2 ^ 28 + (if s.loftLoss then 2 ^ 27 else 0) + s.regN Reg.LFT_STATUS % 2 ^ 27)
  else if o = 0x24 then some s.eraseCounts.1
  else if o = 0x28 then some s.eraseCounts.2
  else none

/-- The Loft blocks of a partition that the map holds (R159). -/
def State.loftMapped (s : State) (p : Nat) : Nat :=
  let chunks := Tbl.get (fun _ => []) s.loft.chunks p
  s.loft.map.countP (fun e => chunks.contains (e.1 / 65536))

/-- Registers of partition p's page (R44, R49, R63, R65, R159, R288, R349, R467). -/
def State.viewPart (s : State) (p o : Nat) : Option Nat :=
  if o = 0x30 ∨ o = 0x34 then some (halfOf (decide (o = 0x34)) s.lcc)
  else if o = 0x100 then some (s.partCause p).toNat
  else if o = 0x108 then some (s.partSummary p)
  else if o = 0x200 then some (min (s.part p).waiting.length 0xFFFF * 2 ^ 16 + (s.part p).faults.length)
  else if 0x210 ≤ o ∧ o < 0x230 then
    some (match (s.part p).faults.head? with | some f => wordAt f.words ((o - 0x210) / 4) | none => 0)
  else if 0x1000 ≤ o ∧ o < 0x2000 ∧ o % 64 = 0xC then some (s.freeLines p ((o - 0x1000) / 64))
  else if 0x1000 ≤ o ∧ o < 0x2000 ∧ o % 64 = 0x20 then some (s.heldCount p ((o - 0x1000) / 64))
  else if o = 0x3000 then some (s.t0Owned p).length
  else if o = 0x3004 then some (s.loftMapped p)
  else if o = 0x6010 then some (s.migGrace p)
  else if o = 0x8090 then some (max 1 (s.regN (Reg.PART_DIG_WAIT p)))
  else if o = 0x8004 ∨ o = 0x8008 then
    let x := s.sem (s.regF (Reg.PART_SEM_SEL p) 17 0)
    some (if x.poison then 0 else halfOf (decide (o = 0x8008)) x.value)
  else if o = 0x8054 then
    some (match s.compOf p with
      | some (_, k) => ((k.map[s.regF (Reg.PART_COMP_SEL p) 11 0]?).map Member.word).getD 0
      | none => 0)
  else none

/-- Scaler registers (R448, R451, R461): the bandwidth of the selected port and direction, sample records; a window size or rate out of its range reads
as the nearer limit. -/
def State.viewScl (s : State) (k o : Nat) : Option Nat :=
  let x := s.scaler k
  let i := 2 * s.regF (Reg.SCL_BW_SEL k) 3 0 + s.regF (Reg.SCL_BW_SEL k) 4 4
  if o = 0x200 then some (s.regN (Reg.SCL_BW_CTRL k) / 2 ^ 5 * 2 ^ 5 + s.windowLog2 k)
  else if o = 0x300 then some (s.regN (Reg.SCL_SMP_CTRL k) / 2 ^ 5 * 2 ^ 5 + min 24 (s.regF (Reg.SCL_SMP_CTRL k) 4 0))
  else if o = 0x208 ∨ o = 0x20C then some (halfOf (decide (o = 0x20C)) (Tbl.get (fun _ => 0) x.cur i))
  else if o = 0x210 ∨ o = 0x214 then some (halfOf (decide (o = 0x214)) (Tbl.get (fun _ => 0) x.last i))
  else if o = 0x218 ∨ o = 0x21C then some (halfOf (decide (o = 0x21C)) (Tbl.get (fun _ => 0) x.peak i))
  else if o = 0x308 then some x.samples.length
  else if 0x340 ≤ o ∧ o < 0x380 then some (wordAt (x.samples.headD []) ((o - 0x340) / 4))
  else none

/-- What the register at a control-space address shows of other state; none where it shows what the register table holds. -/
def State.viewed (s : State) (a : Nat) : Option Nat :=
  match RegMap.locate a with
  | some (.rng, _, o) => s.viewRng o
  | some (.cfg, _, o) => s.viewCfg o
  | some (.hub, h, o) => s.viewHub h o
  | some (.dir, h, o) => s.viewDir h o
  | some (.me, i, o) => if o = 0 then some (s.regN a + s.viewRunning .me i) else none
  | some (.win, i, o) => if o = 0 then some (s.regN a + s.viewRunning .win i) else none
  | some (.row, i, o) => if o = 0 then some (s.regN a + s.viewRunning .row i) else none
  | some (.gc, g, o) => if o = 0 then some (s.regN a + s.viewGcWaits g + s.viewRunning .gc g) else none
  | some (.tly, u, o) => s.viewTly u o
  | some (.sw, t, o) => s.viewSw t o
  | some (.cxl, h, o) => s.viewCxl h o
  | some (.lft, _, o) => s.viewLft o
  | some (.part, p, o) => s.viewPart p o
  | some (.scl, k, o) => s.viewScl k o
  | _ => none

/-- The value a register reads as. -/
def State.view (s : State) (a : Nat) : Word :=
  match s.viewed a with
  | some v => BitVec.ofNat 32 v
  | none => s.reg a

/-- Is this one of the counters of a CXL port's link layer, which the model does not follow (log entry 33)? They read as free values. -/
def RegMap.uncounted (a : Nat) : Bool :=
  match RegMap.locate a with
  | some (.cxl, _, o) => decide (0x10 ≤ o) && decide (o < 0x28)
  | _ => false

/-- Read a register, and the word after it, which a pair's low word latches (R5). -/
def State.readAt (s : State) (a : Nat) : Word × Word × State :=
  if RegMap.uncounted a then
    let (n, s) := s.draw
    (BitVec.ofNat 32 n, BitVec.ofNat 32 (n / 2 ^ 32), s)
  else (s.view a, s.view (a + 4), s)

end Sys2Proof.Machine
end

