-- ==== Sys2Proof/Machine/Registers.lean ====
section
/-! DEFINITION. Register accesses that have no row of their own (R4 to R8, R24, R427, R428): a read of any register, register pairs, and a
write, which where it sets an action bit performs what the row of that action does. -/

namespace Sys2Proof.Machine

/-- A meaning as a function of states. -/
def effect (f : State → Res) (s : State) : State :=
  match f s with
  | .next t => t
  | _ => s

/-- Perform a meaning if the bit of the written word is set. -/
def onBit (v : Word) (i : Nat) (f : State → Res) (s : State) : State := if bitOf v i then effect f s else s

/-! ### Writes -/

/-- A write to a register of the group TLY_GRP_SEL selects (R458, R462). -/
def State.writeTly (s : State) (rq : Requester) (u o : Nat) (v : Word) : State :=
  let n := v.toNat
  s.tallyWrite rq u fun g _ _ => s.modTally u g (fun x =>
    if o = 0x8 then { x with cfg := (v &&& 0xFEFF8000).toNat }
    else if o = 0xC then { x with laneRange := (v &&& 0x0FFF0FFF).toNat }
    else if o = 0x10 then { x with pat := x.pat / 2 ^ 32 * 2 ^ 32 + n }
    else if o = 0x14 then { x with pat := x.pat % 2 ^ 32 + n * 2 ^ 32 }
    else { x with eyeCtrl := (v &&& 0xC000003F).toNat })

/-- A write to the entry HUB_MIRROR_SEL selects (R160). -/
def State.writeMirror (s : State) (o : Nat) (v : Word) : State :=
  s.modMirror (s.regF (Reg.HUB_MIRROR_SEL 0) 10 0) (fun m =>
    if o = 0x104 then { m with role := fld v 28 27, partner := fld v 26 15, base := fld v 10 0 }
    else if o = 0x108 then { m with pbase := fld v 21 11, size := fld v 10 0 }
    else { m with primary := fld v 11 0 })

/-- The control register whose enable bars writes of base, root or size at an offset of a partition's page (R33, R55, R102, R164, R260, R263,
R291). -/
def RegMap.guardOf (p o : Nat) : Option Nat :=
  if 0x1000 ≤ o ∧ o < 0x2000 ∧ o % 64 < 8 then some (Reg.PART_CHUTE_CTRL p ((o - 0x1000) / 64))
  else if o = 0x300 ∨ o = 0x304 then some (Reg.PART_CPL_CTRL p)
  else if o ∈ [0x2010, 0x2014, 0x2020, 0x2024] then some (Reg.PART_ESC_TBL_CTRL p)
  else if o = 0x4000 ∨ o = 0x4004 then some (Reg.PART_XLT_CTRL p)
  else if o = 0x5010 ∨ o = 0x5014 then some (Reg.PART_MBOX_CTRL p)
  else if o = 0x6000 ∨ o = 0x6004 then some (Reg.PART_ROW_DIR_CTRL p)
  else if o = 0x7000 ∨ o = 0x7004 then some (Reg.PART_WIN_DIR_CTRL p)
  else none

/-- Is a write to this address ignored because the structure it belongs to is enabled (R33)? -/
def State.barred (s : State) (a : Nat) : Bool :=
  match RegMap.locate a with
  | some (.part, p, o) => match RegMap.guardOf p o with
    | some c => bitOf (s.reg c) 0
    | none => false
  | _ => false

/-- The plain part of a write: the word is stored, in the selected group or entry where a select register chooses one. -/
def State.storeAt (s : State) (rq : Requester) (a : Nat) (v : Word) : State :=
  match RegMap.locate a with
  | some (.tly, u, o) => if o ∈ [0x8, 0xC, 0x10, 0x14, 0x40] then s.writeTly rq u o v else s.store a v
  | some (.hub, _, o) => if o ∈ [0x104, 0x108, 0x110] then s.writeMirror o v else s.store a v
  | _ => s.store a v

/-- Writes with an action in partition p's page, each as the row of its action has it. -/
def State.actPart (s : State) (rq : Requester) (p : Fin 32) (o : Nat) (v : Word) : State :=
  let a := 0x07000000 + p.val * 0x00100000 + o
  if o = 0x10 then onBit v 0 (execPartitionReset rq p v) s
  else if o = 0x230 then onBit v 0 (fun s => execFaultPop rq p v s) s
  else if o = 0x308 then (if bitOf v 0 then effect (execCplEnable rq p v) s else s.disableWrite p.val cplRing v)
  else if o = 0x310 then effect (execCplHeadWrite rq p v) s
  else if 0x1000 ≤ o ∧ o < 0x2000 ∧ o % 64 = 8 then
    let n : Fin 64 := Fin.ofNat 64 ((o - 0x1000) / 64)
    if bitOf v 0 then effect (execChuteEnable rq p n v) s else effect (execChuteDisable rq p n v) s
  else if o = 0x2018 then
    if bitOf v 1 then effect (execEscTableClear rq p v) s
    else if bitOf v 0 then effect (execEscTableEnable rq p v) s else s.disableWrite p.val escRing v
  else if o = 0x4008 then (if bitOf v 0 then effect (execXltEnable rq p v) s else effect (execXltDisable rq p v) s)
  else if o = 0x4018 then
    if s.regF a 31 31 = 1 then s
    else if bitOf v 1 then effect (execXltInvalidateAll rq p v) s
    else if bitOf v 0 then effect (execXltInvalidate rq p v) s else s.store a v
  else if o = 0x5018 then (if bitOf v 0 then effect (execMboxEnable rq p v) s else s.disableWrite p.val mboxRing v)
  else if o = 0x5020 then effect (execMboxHeadWrite rq p v) s
  else if o = 0x6008 then (if bitOf v 0 then effect (execRowDirEnable rq p v) s else ((s.modRing p.val dirRing (fun _ => Ring.none)).setRegF a 31 31 0).setRegF a 0 0 0)
  else if o = 0x7008 then effect (execWinDirEnable rq p v) s
  else if o = 0x7010 then
    if s.regF a 31 31 = 1 then s else onBit v 9 (execIndexUnload rq p v) (onBit v 8 (execIndexLoad rq p v) (s.store a v))
  else if o = 0x8068 then
    if s.regF a 31 31 = 1 then s else if bitOf v 13 then effect (execPropose rq p v) s else s.store a v
  else s.storeAt rq a v

/-- Writes with an action in the Ranger block. -/
def State.actRng (s : State) (rq : Requester) (o : Nat) (v : Word) : State :=
  if o = 0x10000 then
    if bitOf v 8 then effect (execAdmitPartition rq v) s else if bitOf v 9 then effect (execReleasePartition rq v) s else s.store o v
  else if o = 0x10114 then onBit v 0 (execViolClear rq v) s
  else if o = 0x30010 then onBit v 1 (execFtCancel rq v) (onBit v 0 (execFtGo rq v) (s.store o v))
  else if o = 0x40014 then
    let s := onBit v 11 (execUnitReset rq v) (s.store o v)
    onBit v 31 (execWarmReset (some (rq, v))) s
  else if o = 0x40024 then onBit v 1 (execRunNode rq v) (onBit v 0 (execStandby rq v) s)
  else if o = 0x5005C then onBit v 1 (execRelock rq v) (onBit v 0 (execNewChallenge rq v) s)
  else s.store o v

/-- A write of a whole register that is not part of a pair, by a requester that may write it (R7). Where a write sets several action bits, they act
in ascending order unless a rule orders them (log entry 34). -/
def State.writeOne (s : State) (rq : Requester) (a : Nat) (v : Word) : State :=
  match RegMap.locate a with
  | some (.rng, _, o) => s.actRng rq o v
  | some (.cfg, _, o) =>
    if o = 0x8 then onBit v 0 (execSetTrial rq v) (s.store a v)
    else if o = 0x20 then onBit v 0 (execSwap rq v) s
    else s.store a v
  | some (.hub, _, o) =>
    if o = 0x10C then
      onBit v 3 (execMirrorClear rq v) (onBit v 2 (execMirrorRebuild rq v) (onBit v 1 (execMirrorDetach rq v) (onBit v 0 (execMirrorCommit rq v) s)))
    else s.storeAt rq a v
  | some (.dir, _, o) => if o = 0x74 ∧ bitOf v 8 then effect (execDirHostLostGo rq v) s else s.store a v
  | some (.win, i, o) =>
    let i : Fin 16 := Fin.ofNat 16 i
    if o = 0x40 then onBit v 1 (execWinUnquarantine rq i v) (onBit v 0 (execWinQuarantine rq i v) s) else s.store a v
  | some (.row, i, o) =>
    let i : Fin 16 := Fin.ofNat 16 i
    if o = 0x40 then onBit v 1 (execRowUnquarantine rq i v) (onBit v 0 (execRowQuarantine rq i v) s) else s.store a v
  | some (.me, i, o) =>
    let i : Fin 32 := Fin.ofNat 32 i
    if o = 0x40 then onBit v 1 (execMeUnquarantine rq i v) (onBit v 0 (execMeQuarantine rq i v) s) else s.store a v
  | some (.gc, i, o) =>
    let i : Fin 64 := Fin.ofNat 64 i
    if o = 0x40 then onBit v 1 (execGcUnquarantine rq i v) (onBit v 0 (execGcQuarantine rq i v) s) else s.store a v
  | some (.tly, u, o) =>
    let u : Fin 6 := Fin.ofNat 6 u
    if o = 0x18 then
      onBit v 3 (execTallyScan rq u v) (onBit v 0 (execTallyStart rq u v) (onBit v 1 (execTallyStop rq u v) (onBit v 2 (execTallyClear rq u v) s)))
    else s.storeAt rq a v
  | some (.lnk, l, o) => if o = 0x10 then s.writeLinkCtrl l v else s.store a v
  | some (.lftCh, f, o) =>
    let f : Fin 18 := Fin.ofNat 18 f
    if o = 0x40 then onBit v 1 (execLoftChannelReset rq f v) (onBit v 0 (execLoftChannelRetire rq f v) s) else s.store a v
  | some (.part, p, o) => s.actPart rq (Fin.ofNat 32 p) o v
  | some (.scl, k, o) =>
    let k : Fin 10 := Fin.ofNat 10 k
    if o = 0 then (if bitOf v 1 then effect (execSclClear rq k v) s else s.store a v)
    else if o = 4 then onBit v 2 (execClearAll rq v) (onBit v 1 (execStopAll rq v) (onBit v 0 (execStartAll rq v) s))
    else if 0x10 ≤ o ∧ o < 0x30 then effect (execSclEvselWrite rq k (Fin.ofNat 8 ((o - 0x10) / 4)) v) s
    else if o = 0x300 then effect (execSamplingEnable rq (Fin.ofNat 4 k.val) v) s
    else if o = 0x310 then onBit v 0 (execSclSmpPop rq (Fin.ofNat 4 k.val) v) s
    else s.store a v
  | _ => s.store a v

/-- Does an address belong to PART_SEM_VAL of a partition whose PART_SEM_SEL names a semaphore outside its range (R349)? -/
def State.semBarred (s : State) (a : Nat) : Bool :=
  match RegMap.locate a with
  | some (.part, p, o) => (decide (o = 0x8004) || decide (o = 0x8008)) && !s.semIn p (s.regF (Reg.PART_SEM_SEL p) 17 0)
  | _ => false

/-- A write of a low word: held (R6), unless the write has no effect. -/
def State.writeLow (s : State) (rq : Requester) (a : Nat) (v : Word) : State :=
  if s.barred a then s else s.setHeld rq a (some v)

/-- A write of a high word: the pair takes the whole value, and its action, if it has one, is performed (R6). -/
def State.writeHigh (s : State) (rq : Requester) (a : Nat) (v : Word) : State :=
  match RegMap.locate a with
  | some (.dir, h, o) =>
    if o = 0x84 then effect (execDirPeek rq (Fin.ofNat 2 h) v) s else s.pairHigh rq a v id
  | some (.part, p, o) =>
    if o = 0x8008 then effect (execSemValWrite rq (Fin.ofNat 32 p) v 0) s
    else if s.barred a then s else s.pairHigh rq a v id
  | some (.tly, u, o) =>
    if o = 0x14 then
      let s := match s.heldLow rq (a - 4) with
        | some w => (s.writeTly rq u 0x10 w).setHeld rq (a - 4) none
        | none => s
      s.writeTly rq u 0x14 v
    else s.pairHigh rq a v id
  | _ => s.pairHigh rq a v id

/-- A write on the control bus: a violation where the register is not there, may not be seen, or not every byte is enabled (R66, R428). -/
def State.busWrite (s : State) (rq : Requester) (a : Nat) (be : BitVec 4) (f : Nat → State → State) (cxl : Nat → CxlPart → Nat → State → State) :
    State :=
  let ca := rq.target a
  if !fullEnables be then s.violateReg rq true ca
  else match rq.cxlPart a with
    | some (ld, c, o) => cxl ld c o s
    | none => if s.writes rq ca && !s.semBarred ca then f ca s else s.violateReg rq true ca

/-- A write of a word to any register: half of a pair, or a register on its own. -/
def State.writeAny (s : State) (rq : Requester) (a : Nat) (v : Word) : State :=
  match RegMap.pairPart a with
  | .one => s.writeOne rq a v
  | .lo => s.writeLow rq a v
  | .hi => s.writeHigh rq a v

/-- REGISTER_PAIR_LOW_WRITE (R6): the low word is held until the high word comes. -/
def execRegisterPairLowWrite (rq : Requester) (a v : Word) (be : BitVec 4) (s : State) : Res :=
  act s fun s => s.busWrite rq a.toNat be (fun ca s => s.writeAny rq ca v) (fun ld c o s => s.writeCxl ld c o v)

/-- REGISTER_PAIR_HIGH_WRITE (R6): the pair takes effect in full. -/
def execRegisterPairHighWrite (rq : Requester) (a v : Word) (be : BitVec 4) (s : State) : Res :=
  act s fun s => s.busWrite rq a.toNat be (fun ca s => s.writeAny rq ca v) (fun ld c o s => s.writeCxl ld c o v)

/-- REGISTER_WRITE (R7, R8): fields take the word, a 1 clears a W1C bit, an action bit performs its action. -/
def execRegisterWrite (rq : Requester) (a v : Word) (be : BitVec 4) (s : State) : Res :=
  act s fun s => s.busWrite rq a.toNat be (fun ca s => s.writeAny rq ca v) (fun ld c o s => s.writeCxl ld c o v)

/-! ### Reads -/

/-- REGISTER_PAIR_LOW_READ (R5): a read of any register. That of a pair's low word latches the high word for the requester; that of a high word
returns what the requester's latch holds. -/
def execRegisterPairLowRead (rq : Requester) (a : Word) (s : State) : Res :=
  act s fun s =>
    let ca := rq.target a.toNat
    match rq.cxlPart a.toNat with
    | some (ld, c, o) =>
      let (v, s) := s.readCxl ld c o
      s.emit (.value rq v)
    | none =>
      if s.reaches rq ca && !s.semBarred ca then
        match RegMap.pairPart ca with
        | .hi => s.emit (.value rq (s.latched rq))
        | .lo =>
          let (v, w, s) := s.readAt ca
          (s.setLatch rq w).emit (.value rq v)
        | .one =>
          let (v, _, s) := s.readAt ca
          s.emit (.value rq v)
      else (s.violateReg rq false ca).emit (.value rq 0)

end Sys2Proof.Machine
end

