-- ==== Sys2Proof/Machine/Tick.lean ====
section
/-! DEFINITION. One AON_CLK cycle in which no command comes (R383, R442, R443; log entry 6): the local cycle counter counts, and so do the
counters of the Scalers that count cycles; writes that waited for a request tag go on (R51), and clears of the
escalation table that are due are tried again (R102). Everything else that takes time is a command of its own. -/

namespace Sys2Proof.Machine

/-- Cycles of a tile's clock in one AON_CLK cycle (R2, R382): 1.4 GHz on compute tiles, which stop with their PLL (R385), 1.6 GHz elsewhere. -/
def State.tileCycles (s : State) (k : Nat) : Nat := if k < 4 then (if s.sleepOf (300 + k) = 3 then 0 else 14) else 16

/-- SCL_FIX_CYCLES of a Scaler (R442, R461). -/
def State.countCycles (s : State) (k : Nat) : State :=
  if s.sclRuns k then
    s.setReg64 (Reg.SCL_FIX_CYCLES_LO k) (min (s.reg64 (Reg.SCL_FIX_CYCLES_LO k) + s.tileCycles k) (2 ^ 64 - 1))
  else s

/-- Events 0x02 and 0x03, or 0x06, of an engine or core that runs: how many of the cycles it waits for memory is a free choice (log entry 5). -/
def State.unitCycles (s : State) (k : UnitKind) (i : Nat) : State :=
  let tile := match k with | .me => i / 8 | _ => i / 16
  let unit := match k with | .me => i % 8 | _ => i % 16
  if s.sclRuns tile then
    match s.unitCmd k i with
    | none => s
    | some (p, _) =>
      let n := s.tileCycles tile
      let (w, s) := s.choose (n + 1)
      if k = .me then
        (s.event tile ⟨0x02, unit, n, none, none, .ofPart p⟩).event tile ⟨0x03, unit, w, none, none, .ofPart p⟩
      else s.event tile ⟨0x06, unit, w, none, none, .ofPart p⟩
  else s

/-- Event 0x21: requests that wait in the conflict queues. -/
def State.queueCycles (s : State) : State :=
  s.homes.queue.foldl (fun s r =>
    let h := s.lineHub r.line
    s.event (hubTile h) ⟨0x21, s.stackOf (64 * r.line) % 3, s.tileCycles (hubTile h), some (s.lineAddr r.line), some (s.requestClass r), r.src.origin⟩) s

/-- Event 0x42: packets that wait in the queues of a port. -/
def State.portCycles (s : State) (l : Nat) : State :=
  (s.port l).queue.foldl (fun s e =>
    let who : Origin := if e.acct < 32 then .ofPart e.acct else ⟨3, none, none, some e.pkt.src⟩
    s.event (linkTile (l / 3)) ⟨0x42, l % 3, s.tileCycles (linkTile (l / 3)), none, some e.pkt.tc, who⟩) s

/-- What counts cycles while the part runs. -/
def State.cycleCounters (s : State) : State :=
  if (List.range 10).all (fun k => !s.sclRuns k) then s
  else
    let s := (List.range 10).foldl State.countCycles s
    let s := (List.range 32).foldl (fun s i => s.unitCycles .me i) s
    let s := (List.range 64).foldl (fun s i => s.unitCycles .gc i) s
    (List.range 12).foldl State.portCycles s.queueCycles

/-- One AON_CLK cycle: the counter counts as long as there is power (R383), the rest while the part runs. -/
def State.tick (s : State) : State :=
  if s.power.off then s
  else
    let s : State := { s with lcc := (s.lcc + 1) % 2 ^ 64 }
    if s.stopped then s else (List.range 32).foldl State.clearTable s.cycleCounters.finishLoads.releaseTags

end Sys2Proof.Machine
end

