-- ==== Sys2Proof/Machine/Dispatch.lean ====
section
/-! DEFINITION. One arm per command: the meaning it has. -/

namespace Sys2Proof.Machine

/-- The effect of a command on everything but the queue. -/
def exec (i : Instr) (s : State) : Host.Outcome State Fault Refusal :=
  match i with
  | .registerPairLowRead rq a => Sys2Proof.Machine.execRegisterPairLowRead rq a s
  | .registerPairLowWrite rq a v be => Sys2Proof.Machine.execRegisterPairLowWrite rq a v be s
  | .registerPairHighWrite rq a v be => Sys2Proof.Machine.execRegisterPairHighWrite rq a v be s
  | .registerWrite rq a v be => Sys2Proof.Machine.execRegisterWrite rq a v be s
  | .violClear rq v => Sys2Proof.Machine.execViolClear rq v s
  | .admitPartition rq v => Sys2Proof.Machine.execAdmitPartition rq v s
  | .releasePartition rq v => Sys2Proof.Machine.execReleasePartition rq v s
  | .partitionDrained p => Sys2Proof.Machine.execPartitionDrained p s
  | .partitionReset rq p v => Sys2Proof.Machine.execPartitionReset rq p v s
  | .chuteEnable rq p n v => Sys2Proof.Machine.execChuteEnable rq p n v s
  | .chuteRegisterDone p n => Sys2Proof.Machine.execChuteRegisterDone p n s
  | .chuteDisable rq p n v => Sys2Proof.Machine.execChuteDisable rq p n v s
  | .chuteDisableDone p n => Sys2Proof.Machine.execChuteDisableDone p n s
  | .cplEnable rq p v => Sys2Proof.Machine.execCplEnable rq p v s
  | .cplHeadWrite rq p v => Sys2Proof.Machine.execCplHeadWrite rq p v s
  | .mboxHeadWrite rq p v => Sys2Proof.Machine.execMboxHeadWrite rq p v s
  | .chuteStore src line mask data poison => Sys2Proof.Machine.execChuteStore src line mask data poison s
  | .holdLimitExpire x0 x1 x2 => Sys2Proof.Machine.execHoldLimitExpire x0 x1 x2 s
  | .packetTransfer p n => Sys2Proof.Machine.execPacketTransfer p n s
  | .fifoPacketReceive k w0 seq len tag => Sys2Proof.Machine.execFifoPacketReceive k w0 seq len tag s
  | .commandStart p chute seq ue => Sys2Proof.Machine.execCommandStart p chute seq s ue
  | .deadlineExpire p chute seq => Sys2Proof.Machine.execDeadlineExpire p chute seq s
  | .completionRecordWrite p ue => Sys2Proof.Machine.execCompletionRecordWrite p s ue
  | .abortCommand p chute seq => Sys2Proof.Machine.execAbortCommand p chute seq s
  | .resumeFault p chute seq => Sys2Proof.Machine.execResumeFault p chute seq s
  | .faultPop rq p v ue => Sys2Proof.Machine.execFaultPop rq p v s ue
  | .meProgram p chute seq => Sys2Proof.Machine.execMeProgram p chute seq s
  | .loadTile e => Sys2Proof.Machine.execLoadTile e s
  | .mma e runs => Sys2Proof.Machine.execMma e runs s
  | .helperRerun e run => Sys2Proof.Machine.execHelperRerun e run s
  | .quant e runs => Sys2Proof.Machine.execQuant e runs s
  | .storeTile e runs => Sys2Proof.Machine.execStoreTile e runs s
  | .meSemWait e err => Sys2Proof.Machine.execMeSemWait e err s
  | .meSemSignal e err => Sys2Proof.Machine.execMeSemSignal e err s
  | .meQuarantine rq e v => Sys2Proof.Machine.execMeQuarantine rq e v s
  | .quarantineAtBoundary k n => Sys2Proof.Machine.execQuarantineAtBoundary k n s
  | .meUnquarantine rq e v => Sys2Proof.Machine.execMeUnquarantine rq e v s
  | .escTableEnable rq p v => Sys2Proof.Machine.execEscTableEnable rq p v s
  | .escTableClear rq p v => Sys2Proof.Machine.execEscTableClear rq p v s
  | .gcRun p chute seq => Sys2Proof.Machine.execGcRun p chute seq s
  | .gcRunEnd g => Sys2Proof.Machine.execGcRunEnd g s
  | .ecall g => Sys2Proof.Machine.execEcall g s
  | .ebreak g => Sys2Proof.Machine.execEbreak g s
  | .illegalInstruction g => Sys2Proof.Machine.execIllegalInstruction g s
  | .gcLoad g ue => Sys2Proof.Machine.execGcLoad g ue s
  | .gcStore g ue => Sys2Proof.Machine.execGcStore g ue s
  | .gcInstructionFetch g ue upset => Sys2Proof.Machine.execGcInstructionFetch g ue s upset
  | .fence g => Sys2Proof.Machine.execFence g s
  | .fenceI g => Sys2Proof.Machine.execFenceI g s
  | .amoadd g => Sys2Proof.Machine.execAmoadd g s
  | .amomin g => Sys2Proof.Machine.execAmomin g s
  | .amomax g => Sys2Proof.Machine.execAmomax g s
  | .amominu g => Sys2Proof.Machine.execAmominu g s
  | .amomaxu g => Sys2Proof.Machine.execAmomaxu g s
  | .amoswap g => Sys2Proof.Machine.execAmoswap g s
  | .amoand g => Sys2Proof.Machine.execAmoand g s
  | .amoor g => Sys2Proof.Machine.execAmoor g s
  | .amoxor g => Sys2Proof.Machine.execAmoxor g s
  | .lr g => Sys2Proof.Machine.execLr g s
  | .sc g => Sys2Proof.Machine.execSc g s
  | .gcBxw g => Sys2Proof.Machine.execGcBxw g s
  | .gcBxc g => Sys2Proof.Machine.execGcBxc g s
  | .gcDq g => Sys2Proof.Machine.execGcDq g s
  | .gcKmrg g => Sys2Proof.Machine.execGcKmrg g s
  | .gcSemsig g err => Sys2Proof.Machine.execGcSemsig g err s
  | .gcSemwait g err => Sys2Proof.Machine.execGcSemwait g err s
  | .gcSemrd g err => Sys2Proof.Machine.execGcSemrd g err s
  | .gcDcln g => Sys2Proof.Machine.execGcDcln g s
  | .gcDinv g => Sys2Proof.Machine.execGcDinv g s
  | .gcCas g => Sys2Proof.Machine.execGcCas g s
  | .gcAmofadd g => Sys2Proof.Machine.execGcAmofadd g s
  | .gcTag g => Sys2Proof.Machine.execGcTag g s
  | .gcQuarantine rq g v => Sys2Proof.Machine.execGcQuarantine rq g v s
  | .gcUnquarantine rq g v => Sys2Proof.Machine.execGcUnquarantine rq g v s
  | .t0Scrub word bits after => Sys2Proof.Machine.execT0Scrub word bits s after
  | .t1Scrub line err last after dirErr => Sys2Proof.Machine.execT1Scrub line err last s after dirErr
  | .moveCopy p chute seq => Sys2Proof.Machine.execMoveCopy p chute seq s
  | .movePlace p chute seq => Sys2Proof.Machine.execMovePlace p chute seq s
  | .moveFree p chute seq => Sys2Proof.Machine.execMoveFree p chute seq s
  | .moveZero p chute seq => Sys2Proof.Machine.execMoveZero p chute seq s
  | .moveChannelTake k => Sys2Proof.Machine.execMoveChannelTake k s
  | .loftWriteStage => Sys2Proof.Machine.execLoftWriteStage s
  | .loftStripeProgram => Sys2Proof.Machine.execLoftStripeProgram s
  | .loftProgramDone sb stripe failed => Sys2Proof.Machine.execLoftProgramDone sb stripe failed s
  | .loftGc => Sys2Proof.Machine.execLoftGc s
  | .loftWearMove => Sys2Proof.Machine.execLoftWearMove s
  | .loftRead id => Sys2Proof.Machine.execLoftRead id s
  | .loftReadDone id outcome => Sys2Proof.Machine.execLoftReadDone id outcome s
  | .lowerTierLate id => Sys2Proof.Machine.execLowerTierLate id s
  | .loftStatusTimeout f => Sys2Proof.Machine.execLoftStatusTimeout f s
  | .loftRebuildStripe => Sys2Proof.Machine.execLoftRebuildStripe s
  | .loftChannelReset rq f v => Sys2Proof.Machine.execLoftChannelReset rq f v s
  | .loftChannelRetire rq f v => Sys2Proof.Machine.execLoftChannelRetire rq f v s
  | .loftTrim => Sys2Proof.Machine.execLoftTrim s
  | .loftReady => Sys2Proof.Machine.execLoftReady s
  | .mirrorCommit rq v => Sys2Proof.Machine.execMirrorCommit rq v s
  | .mirrorClear rq v => Sys2Proof.Machine.execMirrorClear rq v s
  | .mirrorDetach rq v => Sys2Proof.Machine.execMirrorDetach rq v s
  | .mirrorRebuild rq v => Sys2Proof.Machine.execMirrorRebuild rq v s
  | .mirrorPartnerUnreachable n => Sys2Proof.Machine.execMirrorPartnerUnreachable n s
  | .mirrorPartnerReachable n => Sys2Proof.Machine.execMirrorPartnerReachable n s
  | .mirrorPromoted n => Sys2Proof.Machine.execMirrorPromoted n s
  | .mirrorCopySegment n => Sys2Proof.Machine.execMirrorCopySegment n s
  | .mirrorCopyDone n => Sys2Proof.Machine.execMirrorCopyDone n s
  | .queueTimeTranslate p chute seq parity => Sys2Proof.Machine.execQueueTimeTranslate p chute seq s parity
  | .xltEnable rq p v => Sys2Proof.Machine.execXltEnable rq p v s
  | .xltDisable rq p v => Sys2Proof.Machine.execXltDisable rq p v s
  | .xltInvalidate rq p v => Sys2Proof.Machine.execXltInvalidate rq p v s
  | .xltInvalidateAll rq p v => Sys2Proof.Machine.execXltInvalidateAll rq p v s
  | .xltInvalidateDone p => Sys2Proof.Machine.execXltInvalidateDone p s
  | .releaseFence p chute seq => Sys2Proof.Machine.execReleaseFence p chute seq s
  | .memRd ld tag hpa mv fieldsOk ue => Sys2Proof.Machine.execMemRd ld tag hpa mv fieldsOk ue s
  | .memRdData ld tag hpa fieldsOk => Sys2Proof.Machine.execMemRdData ld tag hpa fieldsOk s
  | .memInv ld tag hpa mv fieldsOk => Sys2Proof.Machine.execMemInv ld tag hpa mv fieldsOk s
  | .memClnEvct ld tag hpa fieldsOk => Sys2Proof.Machine.execMemClnEvct ld tag hpa fieldsOk s
  | .memWr ld tag hpa mv mask data poison fieldsOk => Sys2Proof.Machine.execMemWr ld tag hpa mv mask data poison fieldsOk s
  | .memSpecRd ld hpa => Sys2Proof.Machine.execMemSpecRd ld hpa s
  | .memRdFwd ld tag hpa => Sys2Proof.Machine.execMemRdFwd ld tag hpa s
  | .memWrFwd ld tag hpa => Sys2Proof.Machine.execMemWrFwd ld tag hpa s
  | .biRsp ld line kind => Sys2Proof.Machine.execBiRsp ld line kind s
  | .biConflict ld line => Sys2Proof.Machine.execBiConflict ld line s
  | .biTimeout line => Sys2Proof.Machine.execBiTimeout line s
  | .conflictQueueAccept line => Sys2Proof.Machine.execConflictQueueAccept line s
  | .rd k ue dirErr => Sys2Proof.Machine.execRd k ue dirErr s
  | .wr k => Sys2Proof.Machine.execWr k s
  | .wrp k => Sys2Proof.Machine.execWrp k s
  | .atom k => Sys2Proof.Machine.execAtom k s
  | .combinedPacket k => Sys2Proof.Machine.execCombinedPacket k s
  | .mwr k => Sys2Proof.Machine.execMwr k s
  | .mack k => Sys2Proof.Machine.execMack k s
  | .rdata k err => Sys2Proof.Machine.execRdata k s err
  | .wack k => Sys2Proof.Machine.execWack k s
  | .nak k => Sys2Proof.Machine.execNak k s
  | .pinv k => Sys2Proof.Machine.execPinv k s
  | .pinvack k => Sys2Proof.Machine.execPinvack k s
  | .unknownTypeDiscard k => Sys2Proof.Machine.execUnknownTypeDiscard k s
  | .hostLost h => Sys2Proof.Machine.execHostLost h s
  | .dirHostLostGo rq v => Sys2Proof.Machine.execDirHostLostGo rq v s
  | .hostLostScanDone => Sys2Proof.Machine.execHostLostScanDone s
  | .dirPeek rq h v => Sys2Proof.Machine.execDirPeek rq h v s
  | .extentReleasePoint n => Sys2Proof.Machine.execExtentReleasePoint n s
  | .extentReleaseComplete n => Sys2Proof.Machine.execExtentReleaseComplete n s
  | .fabricRequestSend r => Sys2Proof.Machine.execFabricRequestSend r s
  | .flitReceive l f ue => Sys2Proof.Machine.execFlitReceive l f s ue
  | .ackTimeout l => Sys2Proof.Machine.execAckTimeout l s
  | .portTransmit l err => Sys2Proof.Machine.execPortTransmit l s err
  | .combineHoldExpire l tc vc => Sys2Proof.Machine.execCombineHoldExpire l tc vc s
  | .spillReturn l ue => Sys2Proof.Machine.execSpillReturn l s ue
  | .packetAged l n => Sys2Proof.Machine.execPacketAged l n s
  | .requestTimeout dst tc seq => Sys2Proof.Machine.execRequestTimeout dst tc seq s
  | .pathLost k => Sys2Proof.Machine.execPathLost k s
  | .linkEnable rq l v => Sys2Proof.Machine.execLinkEnable rq l v s
  | .linkDisable rq l v => Sys2Proof.Machine.execLinkDisable rq l v s
  | .linkDrain rq l v => Sys2Proof.Machine.execLinkDrain rq l v s
  | .trainingPass l x => Sys2Proof.Machine.execTrainingPass l x s
  | .trainingFail l => Sys2Proof.Machine.execTrainingFail l s
  | .linkQuiet l => Sys2Proof.Machine.execLinkQuiet l s
  | .msgSend p chute seq => Sys2Proof.Machine.execMsgSend p chute seq s
  | .msgOpen k => Sys2Proof.Machine.execMsgOpen k s
  | .msgAccept k => Sys2Proof.Machine.execMsgAccept k s
  | .msgFull k => Sys2Proof.Machine.execMsgFull k s
  | .msgData k => Sys2Proof.Machine.execMsgData k s
  | .mailboxDeliver srcCell srcNode msgId => Sys2Proof.Machine.execMailboxDeliver srcCell srcNode msgId s
  | .msgDone k => Sys2Proof.Machine.execMsgDone k s
  | .mboxEnable rq p v => Sys2Proof.Machine.execMboxEnable rq p v s
  | .rowDirEnable rq p v => Sys2Proof.Machine.execRowDirEnable rq p v s
  | .embLookup p chute seq cribErr => Sys2Proof.Machine.execEmbLookup p chute seq cribErr s
  | .cribAge h => Sys2Proof.Machine.execCribAge h s
  | .contribute p chute seq => Sys2Proof.Machine.execContribute p chute seq s
  | .apply p chute seq => Sys2Proof.Machine.execApply p chute seq s
  | .arenaRecordForward id => Sys2Proof.Machine.execArenaRecordForward id s
  | .embConvert p chute seq => Sys2Proof.Machine.execEmbConvert p chute seq s
  | .hotsetRefresh p chute seq => Sys2Proof.Machine.execHotsetRefresh p chute seq s
  | .migrateRow p chute seq => Sys2Proof.Machine.execMigrateRow p chute seq s
  | .migrateCutover p chute seq => Sys2Proof.Machine.execMigrateCutover p chute seq s
  | .departedLapse p t n => Sys2Proof.Machine.execDepartedLapse p t n s
  | .rowQuarantine rq n v => Sys2Proof.Machine.execRowQuarantine rq n v s
  | .rowUnquarantine rq n v => Sys2Proof.Machine.execRowUnquarantine rq n v s
  | .winDirEnable rq p v => Sys2Proof.Machine.execWinDirEnable rq p v s
  | .indexLoad rq p v => Sys2Proof.Machine.execIndexLoad rq p v s
  | .indexUnload rq p v => Sys2Proof.Machine.execIndexUnload rq p v s
  | .indexUnloadDone p n => Sys2Proof.Machine.execIndexUnloadDone p n s
  | .search p chute seq sram => Sys2Proof.Machine.execSearch p chute seq sram s
  | .indexInsert p chute seq => Sys2Proof.Machine.execIndexInsert p chute seq s
  | .indexDelete p chute seq => Sys2Proof.Machine.execIndexDelete p chute seq s
  | .indexCompact p chute seq => Sys2Proof.Machine.execIndexCompact p chute seq s
  | .blockSeal p n block => Sys2Proof.Machine.execBlockSeal p n block s
  | .epochPublish p n => Sys2Proof.Machine.execEpochPublish p n s
  | .deferredAllocation p chute seq => Sys2Proof.Machine.execDeferredAllocation p chute seq s
  | .winQuarantine rq n v => Sys2Proof.Machine.execWinQuarantine rq n v s
  | .winUnquarantine rq n v => Sys2Proof.Machine.execWinUnquarantine rq n v s
  | .semSignal p chute seq err => Sys2Proof.Machine.execSemSignal p chute seq err s
  | .semWait p chute seq err => Sys2Proof.Machine.execSemWait p chute seq err s
  | .waitSatisfied w => Sys2Proof.Machine.execWaitSatisfied w s
  | .semWaitTimeout p chute seq => Sys2Proof.Machine.execSemWaitTimeout p chute seq s
  | .semValWrite rq p v err => Sys2Proof.Machine.execSemValWrite rq p v err s
  | .semAdd k err => Sys2Proof.Machine.execSemAdd k err s
  | .semSet k err => Sys2Proof.Machine.execSemSet k err s
  | .barrier p chute seq => Sys2Proof.Machine.execBarrier p chute seq s
  | .barArrive k => Sys2Proof.Machine.execBarArrive k s
  | .barRelease k => Sys2Proof.Machine.execBarRelease k s
  | .propose rq p v => Sys2Proof.Machine.execPropose rq p v s
  | .proposeMsg k list => Sys2Proof.Machine.execProposeMsg k list s
  | .prepare k list => Sys2Proof.Machine.execPrepare k list s
  | .commit k => Sys2Proof.Machine.execCommit k s
  | .compAbort k => Sys2Proof.Machine.execCompAbort k s
  | .sack k => Sys2Proof.Machine.execSack k s
  | .compTimeout c => Sys2Proof.Machine.execCompTimeout c s
  | .query k => Sys2Proof.Machine.execQuery k s
  | .down k => Sys2Proof.Machine.execDown k s
  | .digest p chute seq => Sys2Proof.Machine.execDigest p chute seq s
  | .digestVote k => Sys2Proof.Machine.execDigestVote k s
  | .digWaitExpire p chute seq => Sys2Proof.Machine.execDigWaitExpire p chute seq s
  | .fatalError cause tiles => Sys2Proof.Machine.execFatalError cause tiles s
  | .ceSummary cls inst store => Sys2Proof.Machine.execCeSummary cls inst store s
  | .recordResend => Sys2Proof.Machine.execRecordResend s
  | .recordAck w0 w1 w2 w3 => Sys2Proof.Machine.execRecordAck w0 w1 w2 w3 s
  | .getRecords tr id first => Sys2Proof.Machine.execGetRecords tr id first s
  | .ackRecords tr id upto => Sys2Proof.Machine.execAckRecords tr id upto s
  | .ftGo rq v => Sys2Proof.Machine.execFtGo rq v s
  | .ftCancel rq v => Sys2Proof.Machine.execFtCancel rq v s
  | .ftTake tj => Sys2Proof.Machine.execFtTake tj s
  | .ftRetry num => Sys2Proof.Machine.execFtRetry num s
  | .ftExpire num => Sys2Proof.Machine.execFtExpire num s
  | .ftNominalPass fail => Sys2Proof.Machine.execFtNominalPass fail s
  | .ftMarginPass fail tj rows pages => Sys2Proof.Machine.execFtMarginPass fail tj rows pages s
  | .clockGate b => Sys2Proof.Machine.execClockGate b s
  | .powerGate k n => Sys2Proof.Machine.execPowerGate k n s
  | .pllStop k => Sys2Proof.Machine.execPllStop k s
  | .selfRefresh stack => Sys2Proof.Machine.execSelfRefresh stack s
  | .wakeDone b => Sys2Proof.Machine.execWakeDone b s
  | .standby rq v => Sys2Proof.Machine.execStandby rq v s
  | .runNode rq v => Sys2Proof.Machine.execRunNode rq v s
  | .runDone => Sys2Proof.Machine.execRunDone s
  | .powerTick fast sustained tj => Sys2Proof.Machine.execPowerTick fast sustained tj s
  | .powerLoss => Sys2Proof.Machine.execPowerLoss s
  | .coldReset => Sys2Proof.Machine.execColdReset s
  | .warmReset by_ => Sys2Proof.Machine.execWarmReset by_ s
  | .boot config run => Sys2Proof.Machine.execBoot config run s
  | .bootWatchdog => Sys2Proof.Machine.execBootWatchdog s
  | .unitReset rq v => Sys2Proof.Machine.execUnitReset rq v s
  | .perstNAssert h why => Sys2Proof.Machine.execPerstNAssert h why s
  | .perstNDeassert h => Sys2Proof.Machine.execPerstNDeassert h s
  | .cxlPortReady h => Sys2Proof.Machine.execCxlPortReady h s
  | .ideFail h => Sys2Proof.Machine.execIdeFail h s
  | .swap rq v => Sys2Proof.Machine.execSwap rq v s
  | .paramCheckDone signed => Sys2Proof.Machine.execParamCheckDone signed s
  | .setTrial rq v => Sys2Proof.Machine.execSetTrial rq v s
  | .newChallenge rq v => Sys2Proof.Machine.execNewChallenge rq v s
  | .relock rq v => Sys2Proof.Machine.execRelock rq v s
  | .debugToken token signed => Sys2Proof.Machine.execDebugToken token signed s
  | .objBegin tr id kind total => Sys2Proof.Machine.execObjBegin tr id kind total s
  | .objData tr id kind offset data => Sys2Proof.Machine.execObjData tr id kind offset data s
  | .objEnd tr id kind signed => Sys2Proof.Machine.execObjEnd tr id kind signed s
  | .objAbort tr id kind => Sys2Proof.Machine.execObjAbort tr id kind s
  | .transferTimeout kind => Sys2Proof.Machine.execTransferTimeout kind s
  | .quote tr id nonce => Sys2Proof.Machine.execQuote tr id nonce s
  | .kemKey tr id => Sys2Proof.Machine.execKemKey tr id s
  | .sessionOpen tr id ciphertext => Sys2Proof.Machine.execSessionOpen tr id ciphertext s
  | .sessionMsg tr id session msg => Sys2Proof.Machine.execSessionMsg tr id session msg s
  | .identifyDevice mb => Sys2Proof.Machine.execIdentifyDevice mb s
  | .identifyMemoryDevice mb => Sys2Proof.Machine.execIdentifyMemoryDevice mb s
  | .getSupportedLogs mb => Sys2Proof.Machine.execGetSupportedLogs mb s
  | .getLog mb => Sys2Proof.Machine.execGetLog mb s
  | .getEventRecords mb => Sys2Proof.Machine.execGetEventRecords mb s
  | .clearEventRecords mb handles => Sys2Proof.Machine.execClearEventRecords mb handles s
  | .getEventInterruptPolicy mb => Sys2Proof.Machine.execGetEventInterruptPolicy mb s
  | .setEventInterruptPolicy mb msix => Sys2Proof.Machine.execSetEventInterruptPolicy mb msix s
  | .getDynamicCapacityConfig mb => Sys2Proof.Machine.execGetDynamicCapacityConfig mb s
  | .getDynamicCapacityExtentList mb => Sys2Proof.Machine.execGetDynamicCapacityExtentList mb s
  | .addDynamicCapacityResponse mb accepted => Sys2Proof.Machine.execAddDynamicCapacityResponse mb accepted s
  | .releaseDynamicCapacity mb ranges => Sys2Proof.Machine.execReleaseDynamicCapacity mb ranges s
  | .injectPoison mb dpa => Sys2Proof.Machine.execInjectPoison mb dpa s
  | .clearPoison mb dpa data => Sys2Proof.Machine.execClearPoison mb dpa data s
  | .getLdInfo mb => Sys2Proof.Machine.execGetLdInfo mb s
  | .getLdAllocations mb => Sys2Proof.Machine.execGetLdAllocations mb s
  | .setLdAllocations mb => Sys2Proof.Machine.execSetLdAllocations mb s
  | .getDcRegionConfiguration mb p => Sys2Proof.Machine.execGetDcRegionConfiguration mb p s
  | .getDcRegionExtentLists mb p => Sys2Proof.Machine.execGetDcRegionExtentLists mb p s
  | .initiateDynamicCapacityAdd mb p ranges => Sys2Proof.Machine.execInitiateDynamicCapacityAdd mb p ranges s
  | .initiateDynamicCapacityRelease mb p ranges forced => Sys2Proof.Machine.execInitiateDynamicCapacityRelease mb p ranges forced s
  | .unsupportedMailboxCommand mb opcode => Sys2Proof.Machine.execUnsupportedMailboxCommand mb opcode s
  | .arpRequest port target sender => Sys2Proof.Machine.execArpRequest port target sender s
  | .icmpEcho port target sender body => Sys2Proof.Machine.execIcmpEcho port target sender body s
  | .setDasa stat dyn => Sys2Proof.Machine.execSetDasa stat dyn s
  | .entDaa dyn => Sys2Proof.Machine.execEntDaa dyn s
  | .setEndpointId eid => Sys2Proof.Machine.execSetEndpointId eid s
  | .getEndpointId => Sys2Proof.Machine.execGetEndpointId s
  | .getVersionSupport msgType => Sys2Proof.Machine.execGetVersionSupport msgType s
  | .getMessageTypeSupport => Sys2Proof.Machine.execGetMessageTypeSupport s
  | .sclClear rq k v => Sys2Proof.Machine.execSclClear rq k v s
  | .startAll rq v => Sys2Proof.Machine.execStartAll rq v s
  | .stopAll rq v => Sys2Proof.Machine.execStopAll rq v s
  | .clearAll rq v => Sys2Proof.Machine.execClearAll rq v s
  | .sclEvselWrite rq k n v => Sys2Proof.Machine.execSclEvselWrite rq k n v s
  | .bwWindowEnd k => Sys2Proof.Machine.execBwWindowEnd k s
  | .samplingEnable rq k v => Sys2Proof.Machine.execSamplingEnable rq k v s
  | .sclSmpPop rq k v => Sys2Proof.Machine.execSclSmpPop rq k v s
  | .tallyStart rq u v => Sys2Proof.Machine.execTallyStart rq u v s
  | .tallyStop rq u v => Sys2Proof.Machine.execTallyStop rq u v s
  | .tallyClear rq u v => Sys2Proof.Machine.execTallyClear rq u v s
  | .tallyScan rq u v => Sys2Proof.Machine.execTallyScan rq u v s
  | .tallyTrained u g => Sys2Proof.Machine.execTallyTrained u g s
  | .tallyTrainTimeout u g => Sys2Proof.Machine.execTallyTrainTimeout u g s
  | .tallyDurationEnd u g counts flits crc => Sys2Proof.Machine.execTallyDurationEnd u g counts flits crc s
  | .tallyLockLost u g lane => Sys2Proof.Machine.execTallyLockLost u g lane s
  | .eyeScanDone u g rows vstep => Sys2Proof.Machine.execEyeScanDone u g rows vstep s
  | .cxlLinkUp h width fast => Sys2Proof.Machine.execCxlLinkUp h width fast s
  | .loftEraseDone sb failed => Sys2Proof.Machine.execLoftEraseDone sb failed s
  | .loftChannelRetrained f ok => Sys2Proof.Machine.execLoftChannelRetrained f ok s
  | .tallyLaneLock u g count flits crc => Sys2Proof.Machine.execTallyLaneLock u g count flits crc s
  | .packageNetworkReplay k dest row => Sys2Proof.Machine.execPackageNetworkReplay k dest row s
  | .standbyDone => Sys2Proof.Machine.execStandbyDone s
  | .cxlConfigRequest h => Sys2Proof.Machine.execCxlConfigRequest h s
  | .managementLinkChange port up => Sys2Proof.Machine.execManagementLinkChange port up s
  | .managementFrameDrop port => Sys2Proof.Machine.execManagementFrameDrop port s

end Sys2Proof.Machine
end

