-- ==== Sys2Proof/Safety.lean ====
section
/-! DEFINITION. What claims are made of: the canonical forms of the state, and what the ordinary commands leave alone. -/

namespace Sys2Proof.Machine

/-- While the part runs, the command answers a next state, and that state is as `P` says. -/
def Completes (c : Instr) (s : State) (P : State → Prop) : Prop :=
  s.stopped = false → ∃ t, Sys2Proof.Machine.exec c s = .next t ∧ P t

/-- The registers, T1, T0 and the partitions stand in their one canonical form, so that equal machines are equal data. -/
def Canonical (s : State) : Prop :=
  Tbl.wf RegMap.reset s.regs = true ∧ Memory.wf s.t1.mem = true ∧ Memory.wf s.t0.mem = true
    ∧ Tbl.wf (fun _ => Part.free) s.parts = true

/-- From `s` to `t` the part goes on as it was: the waiting commands, the local cycle counter, whether the part runs, the fuses, the
NOR's network addresses and the packet sequences of the internal FIFOs are as before, and the canonical forms stand if they stood. -/
structure Calm (s t : State) : Prop where
  pending : t.pending = s.pending
  lcc : t.lcc = s.lcc
  stopped : t.stopped = s.stopped
  fuses : t.fuses = s.fuses
  netAddr : t.netAddr = s.netAddr
  canonical : Canonical s → Canonical t

/-- From `s` to `t` no byte of T1 or T0 changes, nor a poison bit, a home-state bit or the owner of a page. -/
structure Quiet (s t : State) : Prop where
  t1 : t.t1 = s.t1
  t0 : t.t0 = s.t0

/-- From `s` to `t` no fuse is unburned (R406): keys and UID stand, the security-version floor and the count of identity steps never fall. -/
structure FusesKept (s t : State) : Prop where
  uid : t.fuses.uid = s.fuses.uid
  imageKeys : t.fuses.imageKeys = s.fuses.imageKeys
  revoked : t.fuses.revoked = s.fuses.revoked
  contentKey : t.fuses.contentKey = s.fuses.contentKey
  debugKey : t.fuses.debugKey = s.fuses.debugKey
  floor : s.fuses.floor ≤ t.fuses.floor
  coarse : s.fuses.coarse ≤ t.fuses.coarse
  seed : t.fuses.seed = s.fuses.seed

/-- What every command keeps: the queue of waiting commands, the fuses' order, and the canonical forms. -/
structure Steady (s t : State) : Prop where
  pending : t.pending = s.pending
  fuses : FusesKept s t
  canonical : Canonical s → Canonical t

/-- Engine `e` has come to a step of a kind (R68, R69): the program that runs there, of partition `p`, with nothing that stops it at this
boundary, no tile of it waiting for a helper and no clear of the escalation table due (R102). -/
structure AtStep (s : State) (e kind p : Nat) (c : Cmd) : Prop where
  program : s.program e = some (p, c)
  goesOn : c.mustStop = false
  unmarked : s.marked .me e = false
  free : (s.engine e).waiting = false
  undue : (s.part p).clearDue = false
  kind : wordAt (c.desc c.progress) 0 % 256 = kind

/-- Every line of some pieces can be read now on behalf of an agent (R168, R202). -/
def AllReady (s : State) (ag : Agent) (fill : Bool) (x : List (Nat × Nat)) : Prop :=
  (x.flatMap (fun r => physLines r.1 r.2)).all (s.lineReady ag fill) = true

/-- What has come over the fabric for some pieces of an agent is forgotten once it has been used. -/
def Taken (t : State) (ag : Agent) (x : List (Nat × Nat)) : State :=
  t.modFab (fun y => { y with arrivals := y.arrivals.filter (fun z =>
    !(decide (z.waiter = ag.waiter) && (x.flatMap (fun r => physLines r.1 r.2)).contains z.addr)) })

/-- Core `g` has come to an instruction that a row of the table carries out (R103, R106): the run of partition `p`, the word and its
length, with nothing that stops it at this boundary and no fault it is stalled at. -/
structure AtInstr (s : State) (g : Nat) (row : GcRow) (p : Nat) (c : Cmd) (w len : Nat) : Prop where
  run : s.gcRun g = some (p, c)
  goesOn : (s.core g).ending = none
  unstopped : c.mustStop = false
  unmarked : s.marked .gc g = false
  unfaulted : s.atFault p c = none
  instr : (s.core g).instr = some (w, len)
  row : (s.core g).row s.lcc len w = row

/-- A read of a core is answered at once: the value, and the state it leaves. -/
def Reads (s : State) (p : Nat) (c : Cmd) (g va n v : Nat) (t : State) : Prop := ∀ k : Nat → State → State, s.coreRead p c g va n k = k v t

/-- A write of a core is taken at once by its L1D. -/
def Writes (s : State) (p : Nat) (c : Cmd) (g va n v : Nat) (t : State) : Prop := ∀ k : State → State, s.coreWrite p c g va n v k = k t

/-- An instruction fetch is answered at once: the word and its length. -/
def Fetches (s : State) (p : Nat) (c : Cmd) (g w len : Nat) (t : State) : Prop := ∀ k : Nat → Nat → State → State, s.fetchInstr p c g k = k w len t

/-- An atomic of a core executes at once at the home of its line: the prior value. -/
def Atomic (s : State) (p : Nat) (c : Cmd) (g phys code x cmp prior : Nat) (t : State) : Prop :=
  ∀ k : Nat → State → State, s.atomicHome p c g phys code x cmp k = k prior t

/-- A core that must release has: its dirty lines are written back and every write is acknowledged (R109). -/
def Released (s : State) (p : Nat) (c : Cmd) (g : Nat) (rl : Bool) (t : State) : Prop :=
  (rl = false ∧ t = s) ∨ (rl = true ∧ t = s.cleanLines p c g (fun _ => true) false ∧ (t.core g).ending = none ∧ t.unacked p c = 0)

/-- A command's wait for its partition's earlier writes is over, or none was asked for; `t` remembers from when it counts (R185, R330). -/
def ScopeDone (s : State) (p : Nat) (c : Cmd) (t : State) : Prop :=
  (nfld (c.arg 8) 0 0 = 0 ∧ t = s) ∨ ∃ w l, nfld (c.arg 8) 0 0 ≠ 0 ∧
    (w, l) = (if c.auxAt 2 = 1 then (c.auxAt 3, c.auxAt 4) else (s.homes.nextWrite, s.loft.nextId)) ∧
    t = s.setAux p c c.progress [c.auxAt 0, c.auxAt 1, 1, w, l] ∧ t.partSettled p w l = true

/-- The state once the device has read these lines: what each read finds of their home-state bits and codewords has been dealt with (R130, R196). -/
def Found (s : State) (ls : List Nat) : State := ls.foldl (fun s l => (s.checkBits l .device).t1Find (64 * l) (ueWho 0 s.node)) s

/-- A command of an opcode runs on its unit, with nothing that stops it at this boundary (R59, R60, R289, R322) and no fault it is stalled at (R171). -/
structure AtUnit (s : State) (p chute seq opcode : Nat) (kind : UnitKind) (c : Cmd) : Prop where
  command : s.cmd p chute seq = some c
  opcode : c.opcode = opcode
  runs : c.phase = .running
  goesOn : c.mustStop = false
  unmarked : s.marked kind c.runUnit = false
  unfaulted : s.atFault p c = none

/-- A packet that has arrived is taken and its window lets it through: it is not seen before, and is PENDING from now on (R250, R251). -/
def Enters (s : State) (k : Packet) (t : State) : Prop :=
  ∃ u, u = (if k.redirected then s.receive k else (s.receive k).noteIncarnation k.src k.srcInc) ∧ u.windowVerdict k.src k.tc k.seq = .fresh ∧
    t = u.setWindow k.src k.tc k.seq ⟨k.seq, 1, 0, 0, [k]⟩

/-- A piece of work is done at once, and leaves a state. -/
def Does (s : State) (w : Work Unit) (t : State) : Prop := w s = .ok ((), t)

/-- From `s` to `t` the part does not stop. -/
def Goes (s t : State) : Prop := t.stopped = true → s.stopped = true

/-- The commands that change no byte of T1 or T0: those that touch registers, queues, links, counters and management state only. The others store,
move or clear data in some of their forms, or lose it in a reset. -/
def leavesMemory (c : Instr) : Bool :=
  match c with
  | .registerPairLowRead .. | .violClear .. | .chuteEnable .. | .chuteDisable .. | .cplEnable .. | .cplHeadWrite .. | .mboxHeadWrite ..
  | .holdLimitExpire .. | .fifoPacketReceive .. | .commandStart .. | .deadlineExpire .. | .abortCommand .. | .resumeFault ..
  | .faultPop .. | .meProgram .. | .mma .. | .quant .. | .meSemWait .. | .meSemSignal .. | .meQuarantine .. | .meUnquarantine ..
  | .escTableEnable .. | .ecall .. | .ebreak .. | .illegalInstruction .. | .fence .. | .fenceI .. | .gcBxw .. | .gcBxc .. | .gcDq ..
  | .gcSemwait .. | .gcSemrd .. | .gcTag .. | .gcQuarantine .. | .gcUnquarantine .. | .moveChannelTake .. | .loftWriteStage ..
  | .loftStripeProgram .. | .loftProgramDone .. | .loftGc .. | .loftWearMove .. | .loftRead .. | .loftReadDone .. | .lowerTierLate ..
  | .loftStatusTimeout .. | .loftRebuildStripe .. | .loftChannelReset .. | .loftChannelRetire .. | .loftTrim .. | .loftReady ..
  | .mirrorCommit .. | .mirrorRebuild .. | .mirrorCopyDone .. | .xltEnable .. | .xltDisable .. | .xltInvalidate ..
  | .xltInvalidateAll .. | .xltInvalidateDone .. | .memSpecRd .. | .memRdFwd .. | .memWrFwd .. | .biConflict ..
  | .unknownTypeDiscard .. | .hostLostScanDone .. | .dirPeek .. | .combineHoldExpire .. | .packetAged .. | .trainingPass ..
  | .trainingFail .. | .linkQuiet .. | .mboxEnable .. | .rowDirEnable .. | .cribAge .. | .rowQuarantine .. | .rowUnquarantine ..
  | .winDirEnable .. | .indexUnload .. | .winQuarantine .. | .winUnquarantine .. | .semWait .. | .waitSatisfied .. | .semWaitTimeout ..
  | .semValWrite .. | .fatalError .. | .ceSummary .. | .recordResend .. | .recordAck .. | .getRecords .. | .ackRecords .. | .ftGo ..
  | .ftCancel .. | .ftTake .. | .ftRetry .. | .ftExpire .. | .ftNominalPass .. | .ftMarginPass .. | .clockGate .. | .powerGate ..
  | .pllStop .. | .selfRefresh .. | .wakeDone .. | .standby .. | .runNode .. | .runDone .. | .powerTick .. | .unitReset ..
  | .perstNDeassert .. | .cxlPortReady .. | .swap .. | .paramCheckDone .. | .setTrial .. | .newChallenge .. | .objBegin ..
  | .objData .. | .objAbort .. | .transferTimeout .. | .quote .. | .kemKey .. | .sessionOpen .. | .sessionMsg .. | .identifyDevice ..
  | .identifyMemoryDevice .. | .getSupportedLogs .. | .getLog .. | .getEventRecords .. | .clearEventRecords ..
  | .getEventInterruptPolicy .. | .setEventInterruptPolicy .. | .getDynamicCapacityConfig .. | .getDynamicCapacityExtentList ..
  | .addDynamicCapacityResponse .. | .getLdInfo .. | .getLdAllocations .. | .setLdAllocations .. | .getDcRegionConfiguration ..
  | .getDcRegionExtentLists .. | .unsupportedMailboxCommand .. | .arpRequest .. | .icmpEcho .. | .setDasa .. | .entDaa ..
  | .setEndpointId .. | .getEndpointId .. | .getVersionSupport .. | .getMessageTypeSupport .. | .sclClear .. | .startAll ..
  | .stopAll .. | .clearAll .. | .sclEvselWrite .. | .bwWindowEnd .. | .samplingEnable .. | .sclSmpPop .. | .tallyStart ..
  | .tallyStop .. | .tallyClear .. | .tallyScan .. | .tallyTrained .. | .tallyTrainTimeout .. | .tallyDurationEnd ..
  | .tallyLockLost .. | .eyeScanDone .. | .cxlLinkUp .. | .loftEraseDone .. | .loftChannelRetrained .. | .tallyLaneLock ..
  | .packageNetworkReplay .. | .standbyDone .. | .cxlConfigRequest .. | .managementLinkChange .. | .managementFrameDrop .. => true
  | .registerPairLowWrite .. | .registerPairHighWrite .. | .registerWrite .. | .admitPartition .. | .releasePartition ..
  | .partitionDrained .. | .partitionReset .. | .chuteRegisterDone .. | .chuteDisableDone .. | .chuteStore .. | .packetTransfer ..
  | .completionRecordWrite .. | .loadTile .. | .helperRerun .. | .storeTile .. | .quarantineAtBoundary .. | .escTableClear ..
  | .gcRun .. | .gcRunEnd .. | .gcLoad .. | .gcStore .. | .gcInstructionFetch .. | .amoadd .. | .amomin .. | .amomax .. | .amominu ..
  | .amomaxu .. | .amoswap .. | .amoand .. | .amoor .. | .amoxor .. | .lr .. | .sc .. | .gcKmrg .. | .gcSemsig .. | .gcDcln ..
  | .gcDinv .. | .gcCas .. | .gcAmofadd .. | .t0Scrub .. | .t1Scrub .. | .moveCopy .. | .movePlace .. | .moveFree .. | .moveZero ..
  | .mirrorClear .. | .mirrorDetach .. | .mirrorPartnerReachable .. | .mirrorCopySegment .. | .queueTimeTranslate .. | .releaseFence ..
  | .memRd .. | .memRdData .. | .memInv .. | .memClnEvct .. | .memWr .. | .biRsp .. | .biTimeout .. | .conflictQueueAccept .. | .rd ..
  | .wr .. | .wrp .. | .atom .. | .combinedPacket .. | .mwr .. | .pinvack .. | .hostLost .. | .dirHostLostGo ..
  | .extentReleasePoint .. | .extentReleaseComplete .. | .fabricRequestSend .. | .requestTimeout .. | .pathLost .. | .linkEnable ..
  | .linkDisable .. | .linkDrain .. | .msgSend .. | .msgOpen .. | .msgAccept .. | .msgData .. | .mailboxDeliver .. | .embLookup ..
  | .contribute .. | .apply .. | .arenaRecordForward .. | .embConvert .. | .hotsetRefresh .. | .migrateRow .. | .migrateCutover ..
  | .departedLapse .. | .indexLoad .. | .indexUnloadDone .. | .search .. | .indexInsert .. | .indexDelete .. | .indexCompact ..
  | .blockSeal .. | .epochPublish .. | .deferredAllocation .. | .semSignal .. | .semAdd .. | .semSet .. | .barrier .. | .barArrive ..
  | .barRelease .. | .propose .. | .commit .. | .sack .. | .compTimeout .. | .digest .. | .digestVote .. | .digWaitExpire ..
  | .powerLoss .. | .coldReset .. | .warmReset .. | .boot .. | .bootWatchdog .. | .perstNAssert .. | .ideFail .. | .relock ..
  | .debugToken .. | .objEnd .. | .releaseDynamicCapacity .. | .injectPoison .. | .clearPoison .. | .initiateDynamicCapacityAdd ..
  | .initiateDynamicCapacityRelease .. | .ackTimeout .. | .compAbort .. | .down .. | .flitReceive .. | .mack ..
  | .mirrorPartnerUnreachable .. | .mirrorPromoted .. | .msgDone .. | .msgFull .. | .nak .. | .pinv .. | .portTransmit .. | .prepare ..
  | .proposeMsg .. | .query .. | .rdata .. | .spillReturn .. | .wack .. => false

end Sys2Proof.Machine
end

