-- ==== Sys2Proof/Certificates/Slice0/Obligations.lean ====
section
/-! DEFINITION. The statements about the part. Each says what the rules of the spec say of the commands it names; where a clause rests on a
reading or a choice of the model, its docstring says so. A result that is written as an equation of states is the whole of the effect: every
register, queue, memory byte and flag the right side does not name is as it was. -/

section

open Sys2Proof Sys2Proof.Machine

/-- For every state and command: with a command at the front of the queue, a step is that command's execution on the state with the queue's rest;
with none waiting, a step is one cycle of the control bus's clock. The queue itself, and that the tick comes when it is empty, are the model's
choice (log entry 6). -/
def Obligations.StepRunsTheFront : Prop :=
  (∀ (c : Instr) (rest : List Instr) (s : State), Sys2Proof.Machine.step { s with pending := c :: rest } =
      Sys2Proof.Machine.exec c { s with pending := rest }) ∧
  (∀ (s : State), s.pending = [] → Sys2Proof.Machine.step s = .next s.tick)

/-- The state after reset: the canonical forms stand, no command waits, the part runs with power on, the local cycle counter is 0; every register
reads the value the spec gives for reset (or, where it gives none, the one log entries 1 and 32 name); every partition is FREE; no unit has an
owner, no line an entry; nothing has been sent. That unwritten memory reads zero is the model's choice (log entry 2). -/
def Obligations.ResetState : Prop :=
  Canonical State.reset ∧ State.reset.pending = [] ∧ State.reset.stopped = false ∧ State.reset.power.off = false ∧ State.reset.lcc = 0 ∧
  (∀ a, State.reset.regN a = (RegMap.reset a).toNat) ∧ (∀ p : Fin 32, State.reset.pstate p.val = .free) ∧
  (∀ (k : UnitKind) (i : Fin 64), i.val < k.count → State.reset.owner k i.val = none) ∧ (∀ l, State.reset.dirEntry l = none) ∧ State.reset.out = [] ∧
  (∀ a, State.reset.t1.mem.read a = 0) ∧ (∀ a, State.reset.t0.mem.read a = 0)

/-- For every state, reachable or not, and every step that answers a next state: if the registers, T1, T0 and the partitions stand in their
canonical forms (addresses strictly rising, no entry equal to what an unlisted address reads as), they do so after the step. Equal machines are
then equal data. -/
def Obligations.StepKeepsCanonical : Prop :=
  ∀ (s t : State), Sys2Proof.Machine.step s = .next t → Canonical s → Canonical t

/-- For every command and state: a next state that the command answers has the same commands waiting. What waits is the sender's; the device never
makes a command (log entry 6). -/
def Obligations.CommandsLeaveTheQueue : Prop :=
  ∀ (c : Instr) (s t : State), Sys2Proof.Machine.exec c s = .next t → t.pending = s.pending

/-- For every state and every step that answers a next state: the UID, the image keys, their revocations, the content key, the debug key and the
identity seed are as before; the security-version floor and the number of coarse identity steps are at least what they were. Resets, boots, power
loss and fatal errors are no exception. -/
def Obligations.FusesNeverUnburn : Prop :=
  ∀ (s t : State), Sys2Proof.Machine.step s = .next t → FusesKept s t

/-- For every command and state, and for every state's next step: the answer is a next state. An access the spec forbids is a violation it
describes, an event that cannot come in a state leaves it as it is (log entry 5), and a stopped part ignores what it cannot hear. -/
def Obligations.EveryCommandAnswers : Prop :=
  (∀ (c : Instr) (s : State), ∃ t, Sys2Proof.Machine.exec c s = .next t) ∧ (∀ (s : State), ∃ t, Sys2Proof.Machine.step s = .next t)

/-- For every command and every state in which the part has stopped (a fatal event, or power gone): a command that is not COLD_RESET, WARM_RESET
by RST_N or POWER_LOSS answers the state itself; with the power off, WARM_RESET by RST_N does so too. -/
def Obligations.AStoppedPartStays : Prop :=
  (∀ (c : Instr) (s t : State), s.stopped = true → c ≠ .coldReset → c ≠ .powerLoss → c ≠ .warmReset none → Sys2Proof.Machine.exec c s = .next t → t = s) ∧
  (∀ (s t : State), s.power.off = true → Sys2Proof.Machine.exec (.warmReset none) s = .next t → t = s)

/-- For every command and every state in which the part runs: if the command answers a state in which the part has stopped, it is FATAL_ERROR,
POWER_LOSS, or PACKAGE_NETWORK_REPLAY of the sixteenth replay or a later one. Each of them stops it. -/
def Obligations.WhatStopsThePart : Prop :=
  (∀ (c : Instr) (s t : State), s.stopped = false → Sys2Proof.Machine.exec c s = .next t → t.stopped = true →
      c = .powerLoss ∨ (∃ cause tiles, c = .fatalError cause tiles) ∨ (∃ k d row, c = .packageNetworkReplay k d row ∧ 16 ≤ row.toNat)) ∧
  (∀ (c : Instr) (s : State), s.stopped = false →
      (c = .powerLoss ∨ (∃ cause tiles, c = .fatalError cause tiles) ∨ (∃ k d row, c = .packageNetworkReplay k d row ∧ 16 ≤ row.toNat)) →
      ∃ t, Sys2Proof.Machine.exec c s = .next t ∧ t.stopped = true)

/-- For every command that Safety.leavesMemory names (those on registers, chutes' registers, links, messages, counters, management, power and
tests without content) and every state: T1 and T0 are as before, with their poison and home-state bits and the owners of T0's pages. The other
commands store, move or clear data in some of their forms. -/
def Obligations.CommandsThatLeaveMemory : Prop :=
  ∀ (c : Instr) (s t : State), leavesMemory c = true → Sys2Proof.Machine.exec c s = .next t →
    t.t1 = s.t1 ∧ t.t0 = s.t0 ∧ (∀ a, t.t1.mem.read a = s.t1.mem.read a) ∧ (∀ a, t.t0.mem.read a = s.t0.mem.read a)

/-- For every state and line: (1) masked bytes applied to T1 change byte a exactly where a lies in the line and the mask names it, to that byte of
the data, and no byte of T0; (2) the line's poison is that of the write, or stays on unless the whole line is written, and no other line's
changes. (3) T0 likewise, where an uncorrectable word poisons the line unless the write covers the whole word. (4) A store of a request on a line
of T1 in no chute's ring is applied at its home: the bytes its mask names and no other, and its line's poison likewise, no byte of T0; and then it
is acknowledged. (5) Where no mirror watches the line and the store is no peer's, the acknowledgement changes no byte of memory either. -/
def Obligations.MaskedStores : Prop :=
  (∀ (s : State) (line mask data : Nat) (poison : Bool) (a : Nat), (s.t1Put line mask data poison).t1.mem.read a =
      (if a / 64 = line ∧ mask.testBit (a % 64) = true then BitVec.ofNat 8 (data / 256 ^ (a % 64)) else s.t1.mem.read a) ∧
      (s.t1Put line mask data poison).t0 = s.t0) ∧
  (∀ (s : State) (line mask data : Nat) (poison : Bool) (a : Nat), (s.t1Put line mask data poison).t1Poison a =
      if a / 64 = line then poison || (s.t1Poison a && decide (mask % 2 ^ 64 ≠ 2 ^ 64 - 1)) else s.t1Poison a) ∧
  (∀ (s : State) (line mask data : Nat) (poison : Bool) (a : Nat), (s.t0Put line mask data poison).t0.mem.read a =
      (if a / 64 = line ∧ mask.testBit (a % 64) = true then BitVec.ofNat 8 (data / 256 ^ (a % 64)) else s.t0.mem.read a) ∧
      (s.t0Put line mask data poison).t0Poison a =
        (if a / 64 = line then poison || ((Tbl.get (fun _ => false) s.t0.poison line && decide (mask % 2 ^ 64 ≠ 2 ^ 64 - 1)) ||
          (t0Words a).any (fun w => decide (mask / 2 ^ (w - 64 * line) % 256 ≠ 255) && decide (2 ≤ s.t0Err w))) else s.t0Poison a) ∧
      (s.t0Put line mask data poison).t1 = s.t1) ∧
  (∀ (s : State) (r : HomeReq), r.atom = none → (s.t1Line (64 * r.line) 1 true r.src.origin).chuteAt (64 * r.line) = none →
      ∃ u : State, s.applyWrite r = u.storeDone r none ∧ u.t0 = s.t0 ∧
        (∀ a, u.t1.mem.read a =
          (if a / 64 = r.line ∧ r.mask.testBit (a % 64) = true then BitVec.ofNat 8 (r.data / 256 ^ (a % 64)) else s.t1.mem.read a)) ∧
        (∀ a, u.t1Poison a = (if a / 64 = r.line then r.poison || (s.t1Poison a && decide (r.mask % 2 ^ 64 ≠ 2 ^ 64 - 1)) else s.t1Poison a))) ∧
  (∀ (u : State) (r : HomeReq) (prior : Option Nat), u.mirrorAt (64 * r.line) = none → (∀ n c q, r.src ≠ .peer n c q) →
      (u.storeDone r prior).t1 = u.t1 ∧ (u.storeDone r prior).t0 = u.t0)

/-- For every format but YT, every row and every element e of it: the code read is the w bits from bit w·e of the row's little-endian number, w
being the element width, which is 3 for Y3 and 6 for the FP6 formats, so that they cross bytes. For YT, element e is trit e mod 5 of byte e div 5.
What the engine packs, it unpacks again, for every format and every row of units that fit their width. -/
def Obligations.PackedRows : Prop :=
  (∀ (f k v e : Nat), f ≠ fmYt → e < k → (rowCodes f k (unpackRow f k v)).getD e 0 = v / 2 ^ (codeBits f * e) % 2 ^ codeBits f) ∧
  (codeBits fmBf16 = 16 ∧ codeBits fmE4m3 = 8 ∧ codeBits fmE5m2 = 8 ∧ codeBits fmE3m2 = 6 ∧ codeBits fmE2m3 = 6 ∧ codeBits fmE2m1 = 4 ∧ codeBits fmInt8 = 8 ∧
    codeBits fmY3 = 3 ∧ codeBits fmY2 = 2 ∧ codeBits fmYt = 8 ∧ codeBits fmF32 = 32) ∧
  (∀ (k v e : Nat), e < k → (rowCodes fmYt k (unpackRow fmYt k v)).getD e 0 = (trits (v / 256 ^ (e / 5) % 256)).getD (e % 5) 0) ∧
  (∀ (f k : Nat) (us : List Nat), us.length = unitsPerRow f k → (∀ u ∈ us, u < 2 ^ codeBits f) → unpackRow f k (packRow f us) = us)

/-- For every byte v up to 242: digit i of five is v div 3^i mod 3, and the byte is the sum of its digits times the powers of 3; five digits below
3 are the digits of their code, which is at most 242. Digit 0 means 0, digit 1 means +1 and digit 2 means −1. A byte from 0xF3 to 0xFF is read as
five zeros, and each such byte of a row counts once as an invalid code, none of the others. -/
def Obligations.PackedTrits : Prop :=
  (∀ (v i : Nat), v ≤ 242 → i < 5 → (trits v).getD i 0 = v / 3 ^ i % 3) ∧
  (∀ (v : Nat), v ≤ 242 → tritByte (trits v) = v) ∧
  (∀ (a b c d e : Nat), a < 3 → b < 3 → c < 3 → d < 3 → e < 3 → trits (tritByte [a, b, c, d, e]) = [a, b, c, d, e] ∧
      tritByte [a, b, c, d, e] = a + 3 * b + 9 * c + 27 * d + 81 * e ∧ tritByte [a, b, c, d, e] ≤ 242) ∧
  (elemVal fmYt 0 = .fin false ⟨0, 0⟩ ∧ elemVal fmYt 1 = .fin false ⟨1, 0⟩ ∧ elemVal fmYt 2 = .fin false ⟨-1, 0⟩) ∧
  (∀ (v : Nat), 0xF3 ≤ v → v ≤ 0xFF → trits v = [0, 0, 0, 0, 0]) ∧
  (∀ (us : List Nat) (v : Nat), v ≤ 0xFF → invalidCodes fmYt (us ++ [v]) = invalidCodes fmYt us + if 0xF3 ≤ v then 1 else 0)

/-- For every requester, address, word and state in which the part runs, with the register reachable: (1) a read of the low word of a pair answers
its value and latches the high word for that requester; (2) a read of the high word answers what that requester's latch holds; (3) a write of a
low word with all bytes enabled, while no enable bars it, holds it for that requester and leaves every register as it was, and a second one takes
its place; (4) a write of the high word of a register pair of the Ranger block, while the requester holds a low word, applies both words and lets
the held one go; (5) with no held low word, the low word stands as it was. A window of CXL registers (R421) is not part of this statement. -/
def Obligations.RegisterPairs : Prop :=
  (∀ (rq : Requester) (a : Word) (s : State), rq.cxlPart a.toNat = none → s.reaches rq (rq.target a.toNat) = true →
      s.semBarred (rq.target a.toNat) = false → RegMap.pairPart (rq.target a.toNat) = .lo →
      Completes (.registerPairLowRead rq a) s fun t => ∃ u, u = s.readAt (rq.target a.toNat) ∧ t.latched rq = u.2.1 ∧ t.out = .value rq u.1 :: u.2.2.out ∧
        t = (u.2.2.setLatch rq u.2.1).emit (.value rq u.1)) ∧
  (∀ (rq : Requester) (a : Word) (s : State), rq.cxlPart a.toNat = none → s.reaches rq (rq.target a.toNat) = true →
      s.semBarred (rq.target a.toNat) = false → RegMap.pairPart (rq.target a.toNat) = .hi →
      Completes (.registerPairLowRead rq a) s fun t => t = s.emit (.value rq (s.latched rq))) ∧
  (∀ (rq : Requester) (a v : Word) (s : State), rq.cxlPart a.toNat = none → s.writes rq (rq.target a.toNat) = true →
      s.semBarred (rq.target a.toNat) = false → s.barred (rq.target a.toNat) = false → RegMap.pairPart (rq.target a.toNat) = .lo →
      Completes (.registerPairLowWrite rq a v 0xF) s fun t =>
        t = s.setHeld rq (rq.target a.toNat) (some v) ∧ t.heldLow rq (rq.target a.toNat) = some v ∧ t.regs = s.regs) ∧
  (∀ (rq : Requester) (a v w : Word) (i o : Nat) (s : State), rq.cxlPart a.toNat = none → s.writes rq (rq.target a.toNat) = true →
      RegMap.locate (rq.target a.toNat) = some (.rng, i, o) → RegMap.pairPart (rq.target a.toNat) = .hi →
      s.heldLow rq (rq.target a.toNat - 4) = some w →
      Completes (.registerPairHighWrite rq a v 0xF) s fun t =>
        t = ((s.store (rq.target a.toNat - 4) w).setHeld rq (rq.target a.toNat - 4) none).store (rq.target a.toNat) v) ∧
  (∀ (rq : Requester) (a v : Word) (i o : Nat) (s : State), rq.cxlPart a.toNat = none → s.writes rq (rq.target a.toNat) = true →
      RegMap.locate (rq.target a.toNat) = some (.rng, i, o) → RegMap.pairPart (rq.target a.toNat) = .hi →
      s.heldLow rq (rq.target a.toNat - 4) = none →
      Completes (.registerPairHighWrite rq a v 0xF) s fun t => t = s.store (rq.target a.toNat) v)

/-- For every state in which the part runs: (1) a REGISTER_WRITE with all bytes enabled, by a requester that may write it, of a register that is
no half of a pair and stands in a Crib, CXL, Loft or switch block, leaves in it the written value of each RW bit, 0 in each W1C bit where the word
has 1, and every other bit as it was, and changes no other register, no partition and no memory; (2) such a write of any other register that is no
half of a pair answers the state its action leaves (State.writeOne); (3) a write with a byte not enabled is a violation and nothing else; (4) so
is one of a register the requester may not reach; (5) VIOL_CLEAR by a requester that may write it zeroes every violation register and changes no
other register. -/
def Obligations.RegisterWrites : Prop :=
  (∀ (rq : Requester) (a v : Word) (b : Blk) (i o : Nat) (s : State), rq.cxlPart a.toNat = none → s.writes rq (rq.target a.toNat) = true →
      RegMap.locate (rq.target a.toNat) = some (b, i, o) → b ∈ [Blk.crib, Blk.cxl, Blk.lft, Blk.sw] → RegMap.pairPart (rq.target a.toNat) = .one →
      Completes (.registerWrite rq a v 0xF) s fun t =>
        (∃ r, RegMap.rowAt (rq.target a.toNat) = some r ∧ ∀ j, j < 32 → bitOf (t.reg (rq.target a.toNat)) j =
          if r.rw.testBit j then bitOf v j else bitOf (s.reg (rq.target a.toNat)) j && !(r.w1c.testBit j && bitOf v j)) ∧
        (∀ c, c ≠ rq.target a.toNat → t.reg c = s.reg c) ∧ t.parts = s.parts ∧ t.t1 = s.t1 ∧ t.t0 = s.t0) ∧
  (∀ (rq : Requester) (a v : Word) (s : State), rq.cxlPart a.toNat = none → s.writes rq (rq.target a.toNat) = true →
      s.semBarred (rq.target a.toNat) = false → RegMap.pairPart (rq.target a.toNat) = .one →
      Completes (.registerWrite rq a v 0xF) s fun t => t = s.writeOne rq (rq.target a.toNat) v) ∧
  (∀ (rq : Requester) (a v : Word) (be : BitVec 4) (s : State), be ≠ 0xF →
      Completes (.registerWrite rq a v be) s fun t => t = s.violateReg rq true (rq.target a.toNat)) ∧
  (∀ (rq : Requester) (a v : Word) (s : State), rq.cxlPart a.toNat = none → s.writes rq (rq.target a.toNat) = false →
      Completes (.registerWrite rq a v 0xF) s fun t => t = s.violateReg rq true (rq.target a.toNat)) ∧
  (∀ (rq : Requester) (v : Word) (s : State), s.writes rq Reg.RNG_VIOL_CLEAR = true →
      Completes (.violClear rq v) s fun t => ∀ b, t.reg b =
        if b ∈ [Reg.RNG_VIOL_TOTAL_LO, Reg.RNG_VIOL_TOTAL_HI, Reg.RNG_VIOL_LAST, Reg.RNG_VIOL_ADDR_LO, Reg.RNG_VIOL_ADDR_HI] ∨
          (∃ p ∈ List.range 32, b = Reg.RNG_VIOL_PART p) then 0 else s.reg b)

/-- For every requester, every state in which the part runs and every partition that is FREE or RELEASING: a read of a register of its page other
than PART_ID answers zero, and a write of one with all bytes enabled changes nothing; each is a violation, counted as R67 says, and nothing else
changes. -/
def Obligations.ClosedPage : Prop :=
  ∀ (rq : Requester) (a v : Word) (p o : Nat) (s : State), rq.cxlPart a.toNat = none → RegMap.locate (rq.target a.toNat) = some (.part, p, o) → o ≠ 0 →
    (s.pstate p = .free ∨ s.pstate p = .releasing) →
    (Completes (.registerPairLowRead rq a) s fun t => t = (s.violateReg rq false (rq.target a.toNat)).emit (.value rq 0)) ∧
    (Completes (.registerPairLowWrite rq a v 0xF) s fun t => t = s.violateReg rq true (rq.target a.toNat)) ∧
    (Completes (.registerPairHighWrite rq a v 0xF) s fun t => t = s.violateReg rq true (rq.target a.toNat)) ∧
    (Completes (.registerWrite rq a v 0xF) s fun t => t = s.violateReg rq true (rq.target a.toNat))

/-- For every state in which the part runs and every requester that may write the register: (1) after boot step 11, ADMIT without release for
which every check of R26 passes reserves what is staged, leaves the partition ACTIVE and shows code 0; (2) where a check fails it shows that
check's code and reserves nothing; (3) RELEASE without admit of an ACTIVE or FROZEN partition without extents stops its work, leaves it RELEASING
and shows 0; (4) of a partition with an extent it shows 0x0F and changes nothing else; (5) of a FREE or RELEASING one it shows 0x0E; (6)
PARTITION_RESET of an ACTIVE or FROZEN partition stops its work, discards the low words held for its page, zeroes its causes and begins the reset;
(7) a RESETTING partition that has drained, with no release recorded, becomes ACTIVE and shows reset_done; (8) a RELEASING one that has drained
becomes FREE with all it held returned. -/
def Obligations.AdmissionAndRelease : Prop :=
  (∀ (rq : Requester) (v : Word) (p : Nat) (s : State), s.writes rq Reg.RNG_ADM_CTRL = true → s.boot.done = true → bitOf v 9 = false →
      p = (s.store Reg.RNG_ADM_CTRL v).regF Reg.RNG_ADM_CTRL 4 0 → (s.store Reg.RNG_ADM_CTRL v).admissionCode p = 0 →
      Completes (.admitPartition rq v) s fun t =>
        t = ((s.store Reg.RNG_ADM_CTRL v).admission p).admResult 0 ∧ t.pstate p = .active ∧ t.reg Reg.RNG_ADM_STATUS = 0) ∧
  (∀ (rq : Requester) (v : Word) (p k : Nat) (s : State), s.writes rq Reg.RNG_ADM_CTRL = true → s.boot.done = true → bitOf v 9 = false →
      p = (s.store Reg.RNG_ADM_CTRL v).regF Reg.RNG_ADM_CTRL 4 0 → k = (s.store Reg.RNG_ADM_CTRL v).admissionCode p → k ≠ 0 →
      Completes (.admitPartition rq v) s fun t => t = (s.store Reg.RNG_ADM_CTRL v).setRegN Reg.RNG_ADM_STATUS k) ∧
  (∀ (rq : Requester) (v : Word) (p : Nat) (s : State), s.writes rq Reg.RNG_ADM_CTRL = true → bitOf v 8 = false →
      p = (s.store Reg.RNG_ADM_CTRL v).regF Reg.RNG_ADM_CTRL 4 0 →
      ((s.store Reg.RNG_ADM_CTRL v).pstate p = .active ∨ (s.store Reg.RNG_ADM_CTRL v).pstate p = .frozen) →
      (s.store Reg.RNG_ADM_CTRL v).hasExtent p = false →
      Completes (.releasePartition rq v) s fun t =>
        t = ((s.store Reg.RNG_ADM_CTRL v).beginRelease p).admResult 0 ∧ t.pstate p = .releasing ∧ t.reg Reg.RNG_ADM_STATUS = 0) ∧
  (∀ (rq : Requester) (v : Word) (p : Nat) (s : State), s.writes rq Reg.RNG_ADM_CTRL = true → bitOf v 8 = false →
      p = (s.store Reg.RNG_ADM_CTRL v).regF Reg.RNG_ADM_CTRL 4 0 →
      (s.store Reg.RNG_ADM_CTRL v).pstate p ≠ .free → (s.store Reg.RNG_ADM_CTRL v).pstate p ≠ .releasing →
      (s.store Reg.RNG_ADM_CTRL v).hasExtent p = true →
      Completes (.releasePartition rq v) s fun t => t = (s.store Reg.RNG_ADM_CTRL v).setRegN Reg.RNG_ADM_STATUS 0x0F) ∧
  (∀ (rq : Requester) (v : Word) (p : Nat) (s : State), s.writes rq Reg.RNG_ADM_CTRL = true → bitOf v 8 = false →
      p = (s.store Reg.RNG_ADM_CTRL v).regF Reg.RNG_ADM_CTRL 4 0 →
      ((s.store Reg.RNG_ADM_CTRL v).pstate p = .free ∨ (s.store Reg.RNG_ADM_CTRL v).pstate p = .releasing) →
      Completes (.releasePartition rq v) s fun t => t = (s.store Reg.RNG_ADM_CTRL v).setRegN Reg.RNG_ADM_STATUS 0x0E) ∧
  (∀ (rq : Requester) (v : Word) (p : Fin 32) (s : State), s.writes rq (Reg.PART_RESET p.val) = true →
      (s.pstate p.val = .active ∨ s.pstate p.val = .frozen) →
      Completes (.partitionReset rq p v) s fun t =>
        t = ((((s.stopWork p.val).dropHeldOf p.val).setRegN (Reg.PART_IRQ_CAUSE p.val) 0).setPstate p.val .resetting).clearDown p.val) ∧
  (∀ (p : Fin 32) (s : State), s.pstate p.val = .resetting → s.quietPart p.val = true → s.dirtyCores p.val = [] → (s.part p.val).relRecorded = false →
      Completes (.partitionDrained p) s fun t => t.pstate p.val = .active ∧ bitOf (t.reg (Reg.PART_IRQ_CAUSE p.val)) 6 = true ∧
        t = (((s.drainUnits p.val).modPart p.val (fun pt => { pt with relRecorded := false })).setPstate p.val .active).pageCause p.val 64) ∧
  (∀ (p : Fin 32) (s : State), s.pstate p.val = .releasing → s.quietPart p.val = true → s.dirtyCores p.val = [] →
      Completes (.partitionDrained p) s fun t => t = (s.drainUnits p.val).freePart p.val)

/-- For every state in which the part runs, every partition and ring, and every requester that may write its control register, where u is the
state that has taken the write: (1) a write of enable to a chute whose enable is 0 and that no disable holds, whose index, size, base, extent and
overlap checks pass, shows err 0 and enable 1 and begins zeroing that range; (2) where a check fails, err shows the first reason and enable is 0
again; (3) the completion chute and (4) the mailbox, whose semaphore is in range or not used, register likewise; (5) CHUTE_REGISTER_DONE of a ring
being zeroed, none of whose lines a host holds, clears its range and makes it ready; (6) a write of enable 0 to a ready chute whose enable is 1
clears enable and begins its disable; (7) CHUTE_DISABLE_DONE of a disabling ring other than the mailbox with no committed packet finishes it, a
registration that waited for it taking its turn, and (8) of the mailbox it also ends the messages on their way into it. -/
def Obligations.RingRegistration : Prop :=
  (∀ (rq : Requester) (p : Fin 32) (n : Fin 64) (v : Word) (s u : State) (r : Range), s.writes rq (ringCtrl p.val n.val) = true →
      bitOf (s.reg (ringCtrl p.val n.val)) 0 = false → u = s.store (ringCtrl p.val n.val) (v ||| 1) →
      r = ⟨u.ringBase p.val n.val, 2 ^ u.regF (ringCtrl p.val n.val) 12 8⟩ → ((u.part p.val).ring n.val).disabling = false →
      u.ringCheck p.val n.val (u.chuteIndexOk p.val n.val) (u.regF (ringCtrl p.val n.val) 12 8) 12 24 r ⟨0, 0⟩ = 0 →
      Completes (.chuteEnable rq p n v) s fun t =>
        t = ((u.setRegF (ringCtrl p.val n.val) 30 28 0).setRegF (ringCtrl p.val n.val) 0 0 1).modRing p.val n.val
          (fun _ => { Ring.none with zeroing := true, range := r, range2 := ⟨0, 0⟩ })) ∧
  (∀ (rq : Requester) (p : Fin 32) (n : Fin 64) (v : Word) (s u : State) (r : Range) (e : Nat), s.writes rq (ringCtrl p.val n.val) = true →
      bitOf (s.reg (ringCtrl p.val n.val)) 0 = false → u = s.store (ringCtrl p.val n.val) (v ||| 1) →
      r = ⟨u.ringBase p.val n.val, 2 ^ u.regF (ringCtrl p.val n.val) 12 8⟩ → ((u.part p.val).ring n.val).disabling = false →
      e = u.ringCheck p.val n.val (u.chuteIndexOk p.val n.val) (u.regF (ringCtrl p.val n.val) 12 8) 12 24 r ⟨0, 0⟩ → e ≠ 0 →
      Completes (.chuteEnable rq p n v) s fun t => t = (u.setRegF (ringCtrl p.val n.val) 30 28 e).setRegF (ringCtrl p.val n.val) 0 0 0) ∧
  (∀ (rq : Requester) (p : Fin 32) (v : Word) (s u : State) (r : Range), s.writes rq (Reg.PART_CPL_CTRL p.val) = true →
      bitOf (s.reg (Reg.PART_CPL_CTRL p.val)) 0 = false → u = s.store (Reg.PART_CPL_CTRL p.val) (v ||| 1) →
      r = ⟨u.reg64 (Reg.PART_CPL_BASE_LO p.val), 2 ^ u.regF (Reg.PART_CPL_CTRL p.val) 12 8⟩ → ((u.part p.val).ring cplRing).disabling = false →
      u.ringCheck p.val cplRing true (u.regF (Reg.PART_CPL_CTRL p.val) 12 8) 12 20 r ⟨0, 0⟩ = 0 →
      Completes (.cplEnable rq p v) s fun t =>
        t = ((u.setRegF (Reg.PART_CPL_CTRL p.val) 30 28 0).setRegF (Reg.PART_CPL_CTRL p.val) 0 0 1).modRing p.val cplRing
          (fun _ => { Ring.none with zeroing := true, range := r, range2 := ⟨0, 0⟩ })) ∧
  (∀ (rq : Requester) (p : Fin 32) (v : Word) (s u : State) (r : Range), s.writes rq (Reg.PART_MBOX_CTRL p.val) = true →
      bitOf (s.reg (Reg.PART_MBOX_CTRL p.val)) 0 = false → u = s.store (Reg.PART_MBOX_CTRL p.val) (v ||| 1) →
      r = ⟨u.reg64 (Reg.PART_MBOX_BASE_LO p.val), 2 ^ u.regF (Reg.PART_MBOX_CTRL p.val) 12 8⟩ → ((u.part p.val).ring mboxRing).disabling = false →
      u.ringCheck p.val mboxRing true (u.regF (Reg.PART_MBOX_CTRL p.val) 12 8) 12 24 r ⟨0, 0⟩ = 0 → u.mboxSemBad p.val = false →
      Completes (.mboxEnable rq p v) s fun t =>
        t = ((u.setRegF (Reg.PART_MBOX_CTRL p.val) 30 28 0).setRegF (Reg.PART_MBOX_CTRL p.val) 0 0 1).modRing p.val mboxRing
          (fun _ => { Ring.none with zeroing := true, range := r, range2 := ⟨0, 0⟩ })) ∧
  (∀ (p : Fin 32) (n : Fin 67) (s : State), ((s.part p.val).ring n.val).zeroing = true → s.heldBack ((s.part p.val).ring n.val).range = [] →
      Completes (.chuteRegisterDone p n) s fun t => t = (s.t1Clear ((s.part p.val).ring n.val).range).ringReady p.val n.val) ∧
  (∀ (rq : Requester) (p : Fin 32) (n : Fin 64) (v : Word) (s : State), s.writes rq (ringCtrl p.val n.val) = true →
      bitOf (s.reg (ringCtrl p.val n.val)) 0 = true → ((s.part p.val).ring n.val).ready = true → ((s.part p.val).ring n.val).zeroing = false →
      Completes (.chuteDisable rq p n v) s fun t =>
        t = (s.setRegF (ringCtrl p.val n.val) 0 0 0).modRing p.val n.val (fun r => { r with disabling := true, rereg := none })) ∧
  (∀ (p : Fin 32) (n : Fin 67) (s : State), ((s.part p.val).ring n.val).disabling = true → ((s.part p.val).ring n.val).pkts = [] → n.val ≠ mboxRing →
      Completes (.chuteDisableDone p n) s fun t =>
        t = s.finishDisable p.val n.val (ringSizes n.val).1 (ringSizes n.val).2 (s.chuteIndexOk p.val n.val) false) ∧
  (∀ (p : Fin 32) (s u : State), ((s.part p.val).ring mboxRing).disabling = true → ((s.part p.val).ring mboxRing).pkts = [] →
      u = s.modFab (fun x => { x with inbound := x.inbound.filter (fun m => decide (m.part ≠ p.val)) }) →
      Completes (.chuteDisableDone p 65) s fun t => t = u.finishDisable p.val mboxRing 12 24 (u.chuteIndexOk p.val mboxRing) (u.mboxSemBad p.val))

/-- For every state in which the part runs: (1, 2) a write of the completion or mailbox head, by a requester that may make it, to a value no
further than the tail of a ready ring, sets the head and nothing else; (3) one past the tail is a violation and changes nothing else; (4) a store
its source may make is given to the home of its line, and (5) one it may not make is a violation, acknowledged and dropped; (6) a store held
longer than PART_HOLD_LIMIT sets the held cause; (7) of an ACTIVE partition the first committed command packet leaves its chute and enters its
queue while the queue holds fewer than 256; (8) one that is no command only leaves; (9) one that ABORT took hold of ends as aborted, and (10) one
of no known opcode as unsupported, each time the chute whose turn it is, the next chute's turn coming after it; (11) an internal FIFO takes a
packet that passes its checks and expects the next sequence; (12) FAULT_POP drops the oldest fault record and lets a waiting one in. -/
def Obligations.HeadsStoresAndFifos : Prop :=
  (∀ (rq : Requester) (p : Fin 32) (v : Word) (n : Nat) (s : State), s.writes rq (Reg.PART_CPL_HEAD p.val) = true → n = s.ringEntries p.val cplRing 32 → n ≠ 0 →
      (v.toNat % 2 ^ 18 % n + n - s.regN (Reg.PART_CPL_HEAD p.val)) % n ≤ (s.regN (Reg.PART_CPL_TAIL p.val) + n - s.regN (Reg.PART_CPL_HEAD p.val)) % n →
      Completes (.cplHeadWrite rq p v) s fun t => t = s.setRegN (Reg.PART_CPL_HEAD p.val) (v.toNat % 2 ^ 18 % n)) ∧
  (∀ (rq : Requester) (p : Fin 32) (v : Word) (n : Nat) (s : State), s.writes rq (Reg.PART_MBOX_HEAD p.val) = true → n = s.ringEntries p.val mboxRing 64 → n ≠ 0 →
      (v.toNat % 2 ^ 18 % n + n - s.regN (Reg.PART_MBOX_HEAD p.val)) % n ≤ (s.regN (Reg.PART_MBOX_TAIL p.val) + n - s.regN (Reg.PART_MBOX_HEAD p.val)) % n →
      Completes (.mboxHeadWrite rq p v) s fun t => t = s.setRegN (Reg.PART_MBOX_HEAD p.val) (v.toNat % 2 ^ 18 % n)) ∧
  (∀ (rq : Requester) (p : Fin 32) (v : Word) (n : Nat) (s : State), s.writes rq (Reg.PART_CPL_HEAD p.val) = true → n = s.ringEntries p.val cplRing 32 → n ≠ 0 →
      (s.regN (Reg.PART_CPL_TAIL p.val) + n - s.regN (Reg.PART_CPL_HEAD p.val)) % n < (v.toNat % 2 ^ 18 % n + n - s.regN (Reg.PART_CPL_HEAD p.val)) % n →
      Completes (.cplHeadWrite rq p v) s fun t => t = s.violateReg rq true (Reg.PART_CPL_HEAD p.val)) ∧
  (∀ (src : Source) (line : BitVec 34) (mask : BitVec 64) (data : Line) (poison : Bool) (s : State), s.mayStore src line.toNat = true →
      Completes (.chuteStore src line mask data poison) s fun t =>
        t = s.request (HomeReq.store src line.toNat mask.toNat data.toNat poison)) ∧
  (∀ (src : Source) (line : BitVec 34) (mask : BitVec 64) (data : Line) (poison : Bool) (s : State), s.mayStore src line.toNat = false →
      Completes (.chuteStore src line mask data poison) s fun t =>
        t = (s.violateMem src true (s.lineAddr line.toNat)).ackNow (HomeReq.store src line.toNat mask.toNat data.toNat poison) none) ∧
  (∀ (p : Fin 32) (n : Fin 66) (i : Nat) (h : HeldStore) (s : State), ((s.part p.val).ring n.val).held[i]? = some h →
      s.regN (Reg.PART_HOLD_LIMIT p.val) < s.lcc - h.arrival →
      Completes (.holdLimitExpire p n i) s fun t => t = s.pageCause p.val 16) ∧
  (∀ (p : Fin 32) (n : Fin 64) (k : Pkt) (l : List Pkt) (q : Queue) (s : State), s.pstate p.val = .active → s.chuteTurn p.val = some n.val → ((s.part p.val).ring n.val).pkts = k :: l →
      nfld (wordAt k.words 0) 11 8 = 0 → k.aborted = false → queueOf (nfld (wordAt k.words 0) 7 0) = some q → (s.inQueue p.val q).length < 256 →
      Completes (.packetTransfer p n) s fun t => t = ((s.modPart p.val (fun pt => { pt with turn := (n.val + 1) % 64 })).leaveChute p.val n.val k).queuePacket p.val n.val k.words) ∧
  (∀ (p : Fin 32) (n : Fin 64) (k : Pkt) (l : List Pkt) (s : State), s.pstate p.val = .active → s.chuteTurn p.val = some n.val → ((s.part p.val).ring n.val).pkts = k :: l →
      nfld (wordAt k.words 0) 11 8 ≠ 0 → Completes (.packetTransfer p n) s fun t => t = (s.modPart p.val (fun pt => { pt with turn := (n.val + 1) % 64 })).leaveChute p.val n.val k) ∧
  (∀ (p : Fin 32) (n : Fin 64) (k : Pkt) (l : List Pkt) (s : State), s.pstate p.val = .active → s.chuteTurn p.val = some n.val → ((s.part p.val).ring n.val).pkts = k :: l →
      nfld (wordAt k.words 0) 11 8 = 0 → k.aborted = true →
      Completes (.packetTransfer p n) s fun t => t = ((s.modPart p.val (fun pt => { pt with turn := (n.val + 1) % 64 })).leaveChute p.val n.val k).endPacket p.val n.val stAborted k.words) ∧
  (∀ (p : Fin 32) (n : Fin 64) (k : Pkt) (l : List Pkt) (s : State), s.pstate p.val = .active → s.chuteTurn p.val = some n.val → ((s.part p.val).ring n.val).pkts = k :: l →
      nfld (wordAt k.words 0) 11 8 = 0 → k.aborted = false → queueOf (nfld (wordAt k.words 0) 7 0) = none →
      Completes (.packetTransfer p n) s fun t => t = ((s.modPart p.val (fun pt => { pt with turn := (n.val + 1) % 64 })).leaveChute p.val n.val k).endPacket p.val n.val stUnsupported k.words) ∧
  (∀ (k : Fin 10) (w0 seq tag : Word) (len : Fin 64) (s : State), nfld tag.toNat 31 24 = 0xC7 → nfld tag.toNat 23 16 = seq.toNat % 256 →
      nfld tag.toNat 15 10 = len.val → nfld w0.toNat 21 16 = len.val → seq.toNat = Tbl.get (fun _ => 0) s.fifoSeq k.val →
      Completes (.fifoPacketReceive k w0 seq len tag) s fun t =>
        t = { s with fifoSeq := Tbl.set (fun _ => 0) s.fifoSeq k.val ((seq.toNat + 1) % 2 ^ 32) }) ∧
  (∀ (rq : Requester) (p : Fin 32) (v : Word) (s : State), s.writes rq (Reg.PART_FAULT_POP p.val) = true →
      Completes (.faultPop rq p v false) s fun t =>
        (t.part p.val).faults = (s.part p.val).faults.drop 1 ++ (s.part p.val).waiting.take (64 - ((s.part p.val).faults.drop 1).length) ∧
        (t.part p.val).waiting = (s.part p.val).waiting.drop (64 - ((s.part p.val).faults.drop 1).length) ∧ t.regs = s.regs ∧ t.t1 = s.t1)

/-- For every state in which the part runs: (1) COMMAND_START of a ready command whose fence is open in a partition that may start commands, and
that R58's lowest applying code refuses, ends it with that status; (2) of one nothing refuses, for a unit that is awake, it runs on that unit; (3)
of a SEM_SIGNAL, BARRIER or RELEASE_FENCE it runs on no unit; (4) a SEM_WAIT starts while its hub has a watch free; (5) MOVE_CHANNEL_TAKE gives a
free channel to the first runnable command of the partitions in turn that hold fewer than four; (6) DEADLINE_EXPIRE ends a command past its
deadline that neither runs nor has ended; (7) COMPLETION_RECORD_WRITE writes the first finished command's 32-byte record at TAIL, advances TAIL,
and flips the phase bit where it wraps; (8) it sets cpl_full where the ring is full; (9 to 12) ABORT of a finished command is ALREADY_DONE, of one
that waits ends it aborted, of one in a chute marks its packet, and of one that runs makes it stop at its boundary; (13) a command with an
uncorrectable word in its queue or tracker entry is dropped and freezes its partition. -/
def Obligations.CommandsStartAndEnd : Prop :=
  (∀ (p : Fin 32) (chute : Fin 64) (seq : Word) (c : Cmd) (st d : Nat) (s : State), s.cmd p.val chute.val seq.toNat = some c → c.phase = .ready →
      s.mayStart p.val = true → s.fenceOpen p.val c = true → s.startRefusal p.val c = some (st, d) →
      Completes (.commandStart p chute seq 0) s fun t => t = s.endCmd p.val c st 0 d) ∧
  (∀ (p : Fin 32) (chute : Fin 64) (seq : Word) (c : Cmd) (k : UnitKind) (u : Nat) (s : State), s.cmd p.val chute.val seq.toNat = some c → c.phase = .ready →
      s.mayStart p.val = true → s.fenceOpen p.val c = true → s.startRefusal p.val c = none → (queueOf c.opcode).bind Queue.kind = some k →
      s.unitFor p.val k c = some u → s.sleepOf (k.key u) = 0 →
      Completes (.commandStart p chute seq 0) s fun t => t = s.modCmd p.val c.chute c.seq (fun c => { c with phase := .running, runUnit := u, aux := [] })) ∧
  (∀ (p : Fin 32) (chute : Fin 64) (seq : Word) (c : Cmd) (s : State), s.cmd p.val chute.val seq.toNat = some c → c.phase = .ready →
      s.mayStart p.val = true → s.fenceOpen p.val c = true → s.startRefusal p.val c = none → c.opcode ∈ [0x0B, 0x0D, 0x10] →
      Completes (.commandStart p chute seq 0) s fun t => t = s.modCmd p.val c.chute c.seq (fun c => { c with phase := .running, runUnit := 0xFF, aux := [] })) ∧
  (∀ (p : Fin 32) (chute : Fin 64) (seq : Word) (c : Cmd) (s : State), s.cmd p.val chute.val seq.toNat = some c → c.phase = .ready →
      s.mayStart p.val = true → s.fenceOpen p.val c = true → s.startRefusal p.val c = none → c.opcode = 0x0C →
      s.watches p.val (semHub (nfld (c.arg 8) 17 0)) < 32 →
      Completes (.commandStart p chute seq 0) s fun t =>
        t = s.modCmd p.val c.chute c.seq (fun c => { c with phase := .running, runUnit := 0xFF, aux := [s.lcc] })) ∧
  (∀ (k : Fin 8) (p : Nat) (c : Cmd) (s : State), (List.range 32).any (fun p => (s.channelsOf p).contains k.val) = false →
      ((List.range 32).map (fun i => (s.loft.moveTurn + i) % 32)).findSome?
        (fun p => if 4 ≤ (s.channelsOf p).length then none else ((s.part p).cmds.find? (s.channelReady p)).map (fun c => (p, c))) = some (p, c) →
      Completes (.moveChannelTake k) s fun t => t = (s.startOn p c k.val []).modLoft (fun l => { l with moveTurn := (p + 1) % 32 })) ∧
  (∀ (p : Fin 32) (chute : Fin 64) (seq : Word) (c : Cmd) (s : State), s.cmd p.val chute.val seq.toNat = some c → c.phase ≠ .running → c.phase ≠ .ended →
      c.deadline ≠ 0 → c.deadline < s.lcc → Completes (.deadlineExpire p chute seq) s fun t => t = s.endCmd p.val c stDeadline 0 0) ∧
  (∀ (p : Fin 32) (c : Cmd) (n tail a next : Nat) (s u : State), s.nextRecord p.val = some c → ((s.part p.val).ring cplRing).ready = true →
      ((s.part p.val).ring cplRing).disabling = false → n = ((s.part p.val).ring cplRing).range.size / 32 → tail = s.regN (Reg.PART_CPL_TAIL p.val) →
      (tail + 1) % max 1 n ≠ s.regN (Reg.PART_CPL_HEAD p.val) → a = ((s.part p.val).ring cplRing).range.base + 32 * tail → s.writable (a / 64) = true →
      next = (tail + 1) % n → u = s.postBytes .device a 32 (wordsVal (c.record (s.part p.val).phaseBit s.lcc)) false →
      Completes (.completionRecordWrite p false) s fun t => ∃ w, w = (u.setRegN (Reg.PART_CPL_TAIL p.val) next).modPart p.val (fun pt =>
          { pt with phaseBit := (if next = 0 then !pt.phaseBit else pt.phaseBit),
                    cmds := pt.cmds.filter (fun d => decide (d.endOrd ≠ c.endOrd) || decide (d.phase ≠ .ended)) }) ∧
        t = (if c.irq then w.pageCause p.val 1 else w)) ∧
  (∀ (p : Fin 32) (c : Cmd) (s : State), s.nextRecord p.val = some c → ((s.part p.val).ring cplRing).ready = true →
      (s.regN (Reg.PART_CPL_TAIL p.val) + 1) % max 1 (((s.part p.val).ring cplRing).range.size / 32) = s.regN (Reg.PART_CPL_HEAD p.val) →
      Completes (.completionRecordWrite p false) s fun t => t = s.pageCause p.val 4) ∧
  (∀ (p : Fin 32) (chute : Fin 64) (seq : Word) (k : Control) (c : Cmd) (s : State), s.controlOf p.val chute.val seq.toNat 3 = some k →
      s.cmd p.val (k.arg 8 % 64) (k.arg 9) = some c → c.phase = .ended →
      Completes (.abortCommand p chute seq) s fun t => t = s.endControl p.val k stAlreadyDone 0 [c.chute, c.seq]) ∧
  (∀ (p : Fin 32) (chute : Fin 64) (seq : Word) (k : Control) (c : Cmd) (s : State), s.controlOf p.val chute.val seq.toNat 3 = some k →
      s.cmd p.val (k.arg 8 % 64) (k.arg 9) = some c → (c.phase = .queued ∨ c.phase = .ready ∨ ∃ i, c.phase = .faulted i) →
      Completes (.abortCommand p chute seq) s fun t => t = (s.finish p.val c.chute c.seq stAborted 0 0).endControl p.val k stOk 1 []) ∧
  (∀ (p : Fin 32) (chute : Fin 64) (seq : Word) (k : Control) (f : Pkt → Bool) (s : State), s.controlOf p.val chute.val seq.toNat 3 = some k →
      s.cmd p.val (k.arg 8 % 64) (k.arg 9) = none →
      f = (fun x : Pkt => decide (nfld (wordAt x.words 0) 11 8 = 0) && decide (wordAt x.words 1 = k.arg 9)) →
      ((s.part p.val).ring (k.arg 8 % 64)).pkts.any f = true →
      Completes (.abortCommand p chute seq) s fun t =>
        t = (s.modRing p.val (k.arg 8 % 64) (fun r => { r with pkts := r.pkts.map (fun x => if f x then { x with aborted := true } else x) })).endControl
          p.val k stOk 1 []) ∧
  (∀ (p : Fin 32) (chute : Fin 64) (seq : Word) (k : Control) (c : Cmd) (s u : State), s.controlOf p.val chute.val seq.toNat 3 = some k →
      s.cmd p.val (k.arg 8 % 64) (k.arg 9) = some c → c.phase = .running → c.opcode ≠ 0x0C → c.opcode ≠ 0x0D →
      (c.opcode = 0x03 → (s.core c.runUnit).ending = none) → u = s.dropWaiting p.val c →
      Completes (.abortCommand p chute seq) s fun t =>
        t = (u.modCmd p.val c.chute c.seq (fun c => { c with aborting := true })).endControl p.val k stOk 1 [c.chute, c.seq]) ∧
  (∀ (p : Fin 32) (chute : Fin 64) (seq : Word) (c : Cmd) (ue : Fin 3) (s : State), s.cmd p.val chute.val seq.toNat = some c → ue ≠ 0 → c.phase ≠ .ended →
      c.phase ≠ .running →
      Completes (.commandStart p chute seq ue) s fun t =>
        t = (s.dropCmd p.val chute.val seq.toNat).uncontained p.val (if ue.val = 1 then 1 else 4))

/-- For every state in which the part runs: (1) ME_PROGRAM that runs, has not begun, and that R68 lets run begins with the seed and the escalation
settings latched; (2) one that R68 bars completes UNSUPPORTED_FORMAT. For an engine whose program has come to a step of the kind (AtStep): (3)
LOAD_TILE, with no escalation table, its lines readable, its reads good and every code valid, puts the tile into its slot and ends the step; (4)
one whose origin hits the table loads the arena's copy; (5 to 7) an MMA that can run writes its slot at the first attempt, or at the second with
one mismatch counted, and one that cannot completes UNSUPPORTED_FORMAT; (8, 9) so does a QUANT; (10) STORE_TILE of a slot that no escalating QUANT
wrote writes its rows and scales and ends the step; (11) HELPER_RERUN without a mismatch writes the waiting engine's slot, and a clear of the
table that waited for it follows (R102); (12) with one, it quarantines the engine; (13) a SEM_WAIT step begins to wait; (14) a SEM_SIGNAL step
with no write outstanding adds and ends the step. -/
def Obligations.MatrixSteps : Prop :=
  (∀ (p : Fin 32) (chute : Fin 64) (seq : Word) (c : Cmd) (s : State), s.cmd p.val chute.val seq.toNat = some c → c.opcode = 0x02 → c.phase = .running →
      c.mustStop = false → c.aux = [] → c.progOk = true →
      Completes (.meProgram p chute seq) s fun t => t = ((s.modEngine c.runUnit (fun g => { g with waiting := false })).setAux p.val c 0
        [s.reg64 (Reg.PART_ME_SEED_LO p.val), s.regN (Reg.PART_ME_ESC_CTRL p.val), 0]).setRegF (Reg.ME_STATUS c.runUnit) 15 0 0) ∧
  (∀ (p : Fin 32) (chute : Fin 64) (seq : Word) (c : Cmd) (s : State), s.cmd p.val chute.val seq.toNat = some c → c.opcode = 0x02 → c.phase = .running →
      c.mustStop = false → c.aux = [] → c.progOk = false →
      Completes (.meProgram p chute seq) s fun t => t = s.endCmd p.val c stUnsupported 0 0) ∧
  (∀ (e : Fin 32) (p : Nat) (c : Cmd) (t0 : Tile) (rows : List (List (Nat × Nat))) (sc : List (Nat × Nat)) (gs : List Got) (gsc : Got)
      (data scales : List (List Nat)) (ns : Nat) (s s1 s2 : State), AtStep s e.val 1 p c → loadShape (c.desc c.progress) = some t0 →
      Slot.fits ⟨nfld (wordAt (c.desc c.progress) 0) 26 16, t0, false, none⟩ = true → ns = scalesPerRow t0.fmt t0.k t0.two →
      c.rows acRead (pairAt (c.desc c.progress) 2) (wordAt (c.desc c.progress) 6) (rowBytes t0.fmt t0.k) t0.rows = some rows →
      c.range (pairAt (c.desc c.progress) 4) (t0.rows * ns) acRead = some sc → s.escReady p = false →
      AllReady s (c.agent p) true (rows.flatten ++ sc) → s.fetchRows (c.agent p) rows = (gs, s1) → s1.fetchAll (c.agent p) true sc = (gsc, s2) →
      gotStatus (gsc :: gs) = 0 → data = gs.map (fun g => unpackRow t0.fmt t0.k g.value) → (data.map (invalidCodes t0.fmt)).sum = 0 →
      scales = (List.range t0.rows).map (fun i => unpackRow fmE4m3 ns (gsc.value / 2 ^ (8 * (i * ns)))) →
      Completes (.loadTile e) s fun t => t = Taken (s2.loaded p e.val c (nfld (wordAt (c.desc c.progress) 0) 26 16)
        { t0 with data := data, scales := if ns = 0 then [] else scales } (pairAt (c.desc c.progress) 2)) (c.agent p) (rows.flatten ++ sc)) ∧
  (∀ (e : Fin 32) (p i o : Nat) (c : Cmd) (t0 : Tile) (rows : List (List (Nat × Nat))) (sc : List (Nat × Nat)) (s u : State), AtStep s e.val 1 p c →
      loadShape (c.desc c.progress) = some t0 → Slot.fits ⟨nfld (wordAt (c.desc c.progress) 0) 26 16, t0, false, none⟩ = true →
      c.rows acRead (pairAt (c.desc c.progress) 2) (wordAt (c.desc c.progress) 6) (rowBytes t0.fmt t0.k) t0.rows = some rows →
      c.range (pairAt (c.desc c.progress) 4) (t0.rows * scalesPerRow t0.fmt t0.k t0.two) acRead = some sc → s.originOf rows = some o →
      isNarrow t0.fmt = true → s.escReady p = true → (s.escLines p o).all s.readable = true →
      u = Found s (s.escLines p o) → u.loadHit p t0 (some o) = some i →
      Completes (.loadTile e) s fun t =>
        t = u.loadCopy p e.val c (nfld (wordAt (c.desc c.progress) 0) 26 16) t0 i (pairAt (c.desc c.progress) 2)) ∧
  (∀ (e : Fin 32) (p : Nat) (c : Cmd) (x : Slot) (s : State), AtStep s e.val 2 p c → s.stepSlot p e.val c Attempt.clean = some x →
      Completes (.mma e []) s fun t => t = s.slotDone p e.val c x 1) ∧
  (∀ (e : Fin 32) (p : Nat) (c : Cmd) (x : Slot) (m : BitVec 16) (r : Attempt) (s : State), AtStep s e.val 2 p c → s.stepSlot p e.val c Attempt.clean = some x →
      r.fixed = 0 → s.checkRun e.val c r = some m →
      Completes (.mma e [r]) s fun t => t = ((s.meMismatch e.val 2 m).count (Reg.ME_CHK_RERUN_OK e.val) 1).slotDone p e.val c x 2) ∧
  (∀ (e : Fin 32) (runs : List Attempt) (p : Nat) (c : Cmd) (s : State), AtStep s e.val 2 p c → s.stepSlot p e.val c Attempt.clean = none →
      Completes (.mma e runs) s fun t => t = s.endCmd p c stUnsupported c.progress (min (c.auxAt 2) 0xFFFFFF)) ∧
  (∀ (e : Fin 32) (p : Nat) (c : Cmd) (x : Slot) (s : State), AtStep s e.val 3 p c → s.stepSlot p e.val c Attempt.clean = some x →
      Completes (.quant e []) s fun t => t = s.slotDone p e.val c x 1) ∧
  (∀ (e : Fin 32) (runs : List Attempt) (p : Nat) (c : Cmd) (s : State), AtStep s e.val 3 p c → s.stepSlot p e.val c Attempt.clean = none →
      Completes (.quant e runs) s fun t => t = s.endCmd p c stUnsupported c.progress (min (c.auxAt 2) 0xFFFFFF)) ∧
  (∀ (e : Fin 32) (p : Nat) (c : Cmd) (x : Slot) (rows : List (List (Nat × Nat))) (sc : List (Nat × Nat)) (s : State), AtStep s e.val 4 p c →
      slotAt (s.engine e.val).slots (nfld (wordAt (c.desc c.progress) 0) 26 16) = some x → x.fromEsc = false → wordAt (c.desc c.progress) 6 % 16 = 0 →
      rowBytes x.tile.fmt x.tile.k ≤ wordAt (c.desc c.progress) 6 →
      c.rows acWrite (pairAt (c.desc c.progress) 2) (wordAt (c.desc c.progress) 6) (rowBytes x.tile.fmt x.tile.k) x.tile.rows = some rows →
      c.range (pairAt (c.desc c.progress) 4) (x.tile.rows * scalesPerRow x.tile.fmt x.tile.k x.tile.two) acWrite = some sc →
      Completes (.storeTile e []) s fun t => t = (s.storeTile p c x.tile rows sc).meDone p e.val c false (pairAt (c.desc c.progress) 2) 1) ∧
  (∀ (e : Fin 32) (p h : Nat) (c : Cmd) (x : Slot) (s : State), s.program e.val = some (p, c) → (s.engine e.val).waiting = true →
      wordAt (c.desc c.progress) 0 % 256 ≠ 4 → s.helperFor p e.val = some h → s.stepSlot p e.val c Attempt.clean = some x →
      Completes (.helperRerun e Attempt.clean) s fun t =>
        t = ((((s.modEngine e.val (fun g => { g with waiting := false })).count (Reg.ME_CHK_MOVED e.val) 1).count (Reg.ME_CHK_HELPED h) 1).slotDone
          p e.val c x 3).clearTable p) ∧
  (∀ (e : Fin 32) (p h : Nat) (c : Cmd) (m : BitVec 16) (r : Attempt) (s : State), s.program e.val = some (p, c) → (s.engine e.val).waiting = true → s.helperFor p e.val = some h →
      r.fixed = 0 → s.checkRun e.val c r = some m →
      Completes (.helperRerun e r) s fun t =>
        t = ((s.meMismatch e.val (wordAt (c.desc c.progress) 0 % 256) m).meQuarantine p e.val c).clearTable p) ∧
  (∀ (e : Fin 32) (p : Nat) (c : Cmd) (s : State), AtStep s e.val 5 p c → s.semIn p (wordAt (c.desc c.progress) 1) = true → s.waitOf (.me e.val) = none →
      Completes (.meSemWait e 0) s fun t => t = s.semWait (.me e.val) p (wordAt (c.desc c.progress) 1) (pairAt (c.desc c.progress) 2)) ∧
  (∀ (e : Fin 32) (p v : Nat) (c : Cmd) (s u : State), AtStep s e.val 6 p c → s.semIn p (wordAt (c.desc c.progress) 1) = true → c.unacked = 0 →
      s.semAdd p (wordAt (c.desc c.progress) 1) (pairAt (c.desc c.progress) 2) = (u, some v) →
      Completes (.meSemSignal e 0) s fun t => t = u.meDone p e.val c false 0 1)

/-- For every state in which the part runs, every engine, core, row unit and Winnower, and every requester that may write its control register,
where u is the state that has taken the write: (1, 3, 5, 7) a write of quarantine of a unit that is neither quarantined nor marked marks it; (2,
4, 6, 8) a write of unquarantine of a unit that no partition reserves clears its quarantine and its NOR record; (9) QUARANTINE_AT_BOUNDARY of a
marked unit on which no command runs quarantines it; (10) of an engine whose program waits neither for a helper nor in a semaphore step it ends
the program CHECKSUM_FAILED and then quarantines the engine if nothing else runs on it; (11) ESC_TABLE_ENABLE with every check of a registration
passed, table and arena apart, begins zeroing the table; (12) ESC_TABLE_CLEAR of a ready table is due while a step of the partition is under way;
(13) with none, and no line of it held by a host, it zeroes the table. -/
def Obligations.QuarantineAndEscalation : Prop :=
  (∀ (rq : Requester) (i : Fin 32) (v : Word) (s u : State), s.writes rq (Reg.ME_CTRL i.val) = true → u = s.store (Reg.ME_CTRL i.val) v →
      u.quarantined .me i.val = false → u.marked .me i.val = false →
      Completes (.meQuarantine rq i v) s fun t => t = { u with marks := UnitKind.key .me i.val :: u.marks }) ∧
  (∀ (rq : Requester) (i : Fin 32) (v : Word) (s u : State), s.writes rq (Reg.ME_CTRL i.val) = true → u = s.store (Reg.ME_CTRL i.val) v →
      u.owner .me i.val = none → Completes (.meUnquarantine rq i v) s fun t => t = u.unquarantine .me i.val ∧ t.quarantined .me i.val = false) ∧
  (∀ (rq : Requester) (i : Fin 64) (v : Word) (s u : State), s.writes rq (Reg.GC_CTRL i.val) = true → u = s.store (Reg.GC_CTRL i.val) (v ||| 1) →
      u.quarantined .gc i.val = false → u.marked .gc i.val = false →
      Completes (.gcQuarantine rq i v) s fun t => t = { u with marks := UnitKind.key .gc i.val :: u.marks }) ∧
  (∀ (rq : Requester) (i : Fin 64) (v : Word) (s u : State), s.writes rq (Reg.GC_CTRL i.val) = true → u = s.store (Reg.GC_CTRL i.val) (v ||| 2) →
      u.owner .gc i.val = none → Completes (.gcUnquarantine rq i v) s fun t => t = u.unquarantine .gc i.val ∧ t.quarantined .gc i.val = false) ∧
  (∀ (rq : Requester) (i : Fin 16) (v : Word) (s u : State), s.writes rq (Reg.ROW_CTRL i.val) = true → u = s.store (Reg.ROW_CTRL i.val) v →
      u.quarantined .row i.val = false → u.marked .row i.val = false →
      Completes (.rowQuarantine rq i v) s fun t => t = { u with marks := UnitKind.key .row i.val :: u.marks }) ∧
  (∀ (rq : Requester) (i : Fin 16) (v : Word) (s u : State), s.writes rq (Reg.ROW_CTRL i.val) = true → u = s.store (Reg.ROW_CTRL i.val) v →
      u.owner .row i.val = none → Completes (.rowUnquarantine rq i v) s fun t => t = u.unquarantine .row i.val ∧ t.quarantined .row i.val = false) ∧
  (∀ (rq : Requester) (i : Fin 16) (v : Word) (s u : State), s.writes rq (Reg.WIN_CTRL i.val) = true → u = s.store (Reg.WIN_CTRL i.val) v →
      u.quarantined .win i.val = false → u.marked .win i.val = false →
      Completes (.winQuarantine rq i v) s fun t => t = { u with marks := UnitKind.key .win i.val :: u.marks }) ∧
  (∀ (rq : Requester) (i : Fin 16) (v : Word) (s u : State), s.writes rq (Reg.WIN_CTRL i.val) = true → u = s.store (Reg.WIN_CTRL i.val) v →
      u.owner .win i.val = none → Completes (.winUnquarantine rq i v) s fun t => t = u.unquarantine .win i.val ∧ t.quarantined .win i.val = false) ∧
  (∀ (k : UnitKind) (n : Fin 64) (s : State), s.marked k n.val = true → s.unitCmd k n.val = none →
      Completes (.quarantineAtBoundary k n) s fun t => t = s.quarantine k n.val) ∧
  (∀ (n : Fin 64) (p : Nat) (c : Cmd) (s u : State), s.marked .me n.val = true → s.unitCmd .me n.val = some (p, c) → (s.engine n.val).waiting = false →
      s.waitOf (.me n.val) = none →
      u = s.endCmd p c stChecksum c.progress (min (c.auxAt 2) 0xFFFFFF) →
      Completes (.quarantineAtBoundary .me n) s fun t => t = if (u.unitCmd .me n.val).isNone then u.quarantine .me n.val else u) ∧
  (∀ (rq : Requester) (p : Fin 32) (v : Word) (n : Nat) (r r2 : Range) (s u : State), s.writes rq (Reg.PART_ESC_TBL_CTRL p.val) = true →
      bitOf (s.reg (Reg.PART_ESC_TBL_CTRL p.val)) 0 = false → u = s.store (Reg.PART_ESC_TBL_CTRL p.val) (v ||| 1) → n = u.escLog2 p.val →
      r = ⟨u.reg64 (Reg.PART_ESC_TBL_BASE_LO p.val) % 2 ^ 40, 32 * 2 ^ n⟩ → r2 = ⟨u.reg64 (Reg.PART_ESC_ARENA_BASE_LO p.val) % 2 ^ 40, arenaSlot * 2 ^ n⟩ →
      u.ringCheck p.val escRing true n 7 16 r r2 = 0 → r.meets r2 = false → ((u.part p.val).ring escRing).disabling = false →
      Completes (.escTableEnable rq p v) s fun t =>
        t = ((u.setRegF (Reg.PART_ESC_TBL_CTRL p.val) 30 28 0).setRegF (Reg.PART_ESC_TBL_CTRL p.val) 0 0 1).modRing p.val escRing
          (fun _ => { Ring.none with zeroing := true, range := r, range2 := r2 })) ∧
  (∀ (rq : Requester) (p : Fin 32) (v : Word) (s u : State), s.writes rq (Reg.PART_ESC_TBL_CTRL p.val) = true →
      u = (if bitOf v 0 then s.escEnable p.val v else s.disableWrite p.val escRing v) → u.escReady p.val = true → u.stepUnderWay p.val = true →
      Completes (.escTableClear rq p v) s fun t => t = u.modPart p.val (fun pt => { pt with clearDue := true })) ∧
  (∀ (rq : Requester) (p : Fin 32) (v : Word) (s u w : State), s.writes rq (Reg.PART_ESC_TBL_CTRL p.val) = true →
      u = (if bitOf v 0 then s.escEnable p.val v else s.disableWrite p.val escRing v) → u.escReady p.val = true →
      w = u.modPart p.val (fun pt => { pt with clearDue := true }) → w.stepUnderWay p.val = false → w.heldBack ((w.part p.val).ring escRing).range = [] →
      Completes (.escTableClear rq p v) s fun t =>
        t = ((w.t1Clear ((w.part p.val).ring escRing).range).modPart p.val (fun pt => { pt with clearDue := false })).setRegN (Reg.PART_ESC_USED p.val) 0)

/-- For every state in which the part runs: (1) GC_RUN of a running command that has not begun, with an even entry and no invalidation asked,
starts the core at the entry with a0, a1 and sp set and every other register zero; (2) GC_RUN_END of a run that is to end, once its release is
done, which may itself end it in another way, completes its command with the status, result and detail it is to have. For a core that has come to
the instruction (AtInstr): (3) ECALL with a7 zero ends the run with the status of a2 where it is informational, (4) EBREAK with cause 3, (5) an
illegal instruction with cause 2; (6) a load whose read is answered puts the value into its register and its access is done; (7) a store writes
its L1D; (8) a fetch of an instruction that a row of the table carries out keeps it for that row, and (9) one that no row names is carried out and
retires; (10) FENCE retires; (11) FENCE.I drops the L1I and retires. -/
def Obligations.CoreRuns : Prop :=
  (∀ (p : Fin 32) (chute : Fin 64) (seq : Word) (c : Cmd) (s : State), s.cmd p.val chute.val seq.toNat = some c → c.opcode = 0x03 → c.phase = .running →
      c.aux = [] → c.mustStop = false → c.arg64 8 % 2 = 0 → c.arg 14 % 2 = 0 →
      Completes (.gcRun p chute seq) s fun t => t = (((s.modScaler (c.runUnit / 16) (fun y =>
        { y with tags := Tbl.set (fun _ => none) y.tags (c.runUnit % 16) none })).modCore c.runUnit (fun x =>
        (((Core.setX { Core.reset with l1d := x.l1d, pc := c.arg64 8 } 10 (c.arg64 10)).setX 11 c.runUnit).setX 2 (c.arg64 12)))).forgetArrivals
          (.core c.runUnit)).setAux p.val c 0 [1]) ∧
  (∀ (g : Fin 64) (p st result detail : Nat) (c : Cmd) (s u v : State), s.gcRun g.val = some (p, c) → c.mustStop = false →
      (s.core g.val).ending.isSome = true → (u.core g.val).ending = some (st, result, detail) → u = s.cleanLines p c g.val (fun _ => true) false → u.unacked p c = 0 →
      v = (((u.endFaultsOf p c).endWait (.core g.val)).forgetArrivals (.core g.val)).dropCoreResv g.val →
      Completes (.gcRunEnd g) s fun t => t = ((if c.auxAt 1 = 1 then v else v.setRegN (Reg.GC_LAST_TRAP g.val) (2 ^ 31 + detail % 256)).modCore g.val
        (fun x => { x with instr := none, ending := none })).endCmd p c st result detail) ∧
  (∀ (g : Fin 64) (p w len : Nat) (c : Cmd) (s : State), AtInstr s g.val .ecall p c w len → (s.core g.val).xr 17 = 0 →
      Completes (.ecall g) s fun t => t = (s.setAux p c 0 [1, 1]).endRun g.val
        (if (s.core g.val).xr 12 % 256 = stOk ∨ (s.core g.val).xr 12 % 256 = stFewer ∨ (s.core g.val).xr 12 % 256 = stEscalated
          then (s.core g.val).xr 12 % 256 else stUnsupported) ((s.core g.val).xr 10) ((s.core g.val).xr 11 % 2 ^ 24)) ∧
  (∀ (g : Fin 64) (p w len : Nat) (c : Cmd) (s : State), AtInstr s g.val .ebreak p c w len →
      Completes (.ebreak g) s fun t => t = s.endRun g.val stUnsupported (s.core g.val).pc 3) ∧
  (∀ (g : Fin 64) (p w len : Nat) (c : Cmd) (s : State), AtInstr s g.val .illegal p c w len →
      Completes (.illegalInstruction g) s fun t => t = s.endRun g.val stUnsupported (s.core g.val).pc 2) ∧
  (∀ (g : Fin 64) (p w len v : Nat) (c : Cmd) (l : List MemAcc) (a : MemAcc) (s u : State), AtInstr s g.val .load p c w len → (s.core g.val).loads w = some l →
      l[(s.core g.val).elem]? = some a → (isFirstOnly w && decide (0 < a.el) && s.readFaults p g.val a.va a.n) = false → Reads s p c g.val a.va a.n v u →
      Completes (.gcLoad g false) s fun t => t = (u.modCore g.val (fun x => x.putLoaded a v)).loadDone p g.val w l.length a.va) ∧
  (∀ (g : Fin 64) (p w len : Nat) (c : Cmd) (l : List MemAcc) (a : MemAcc) (s u : State), AtInstr s g.val .store p c w len → (s.core g.val).stores w = some l →
      l[(s.core g.val).elem]? = some a → Writes s p c g.val a.va a.n ((s.core g.val).toStore a) u →
      Completes (.gcStore g false) s fun t => t = u.accessDone p g.val w l.length a.va) ∧
  (∀ (g : Fin 64) (p w len : Nat) (c : Cmd) (s u v : State), s.gcRun g.val = some (p, c) → (s.core g.val).ending = none → c.mustStop = false →
      s.marked .gc g.val = false → s.atFault p c = none → (s.core g.val).instr = none → Fetches s p c g.val w len u →
      v = u.modCore g.val (fun x => { x with instr := some (w, len), elem := 0 }) → (u.core g.val).row v.lcc len w ≠ .plain →
      Completes (.gcInstructionFetch g false none) s fun t => t = v) ∧
  (∀ (g : Fin 64) (p w len : Nat) (c : Cmd) (y : Core) (o : Open) (x : Nat × State) (s u v : State), s.gcRun g.val = some (p, c) → (s.core g.val).ending = none →
      c.mustStop = false → s.marked .gc g.val = false → s.atFault p c = none → (s.core g.val).instr = none → Fetches s p c g.val w len u →
      v = u.modCore g.val (fun x => { x with instr := some (w, len), elem := 0 }) → (u.core g.val).row v.lcc len w = .plain →
      x = (if iOp w = 0x57 then v.drawMany 8 else (0, v)) → (u.core g.val).plain x.2.lcc len w x.1 = some (y, o) →
      Completes (.gcInstructionFetch g false none) s fun t =>
        t = ((x.2.modCore g.val (fun _ => { y with instr := some (w, len) })).fillOpen g.val o).retireAt p g.val (u.core g.val).pc y.pc 0) ∧
  (∀ (g : Fin 64) (p w len : Nat) (c : Cmd) (s : State), AtInstr s g.val .fence p c w len → Completes (.fence g) s fun t => t = s.retire p g.val 0) ∧
  (∀ (g : Fin 64) (p w len : Nat) (c : Cmd) (s : State), AtInstr s g.val .fenceI p c w len →
      Completes (.fenceI g) s fun t => t = (s.modCore g.val (fun x => { x with l1i := [] })).retire p g.val 0)

/-- For every state in which the part runs and every core that has come to the instruction (AtInstr), with the address aligned, the release done
where rl asks for it, and the address translated: (1) each of the nine AMOs, on T0 or on T1 of this node, where the home executes it, puts the
prior value (a 32-bit one sign-extended) into rd and retires; (2) AMOSWAP, AMOAND, AMOOR and AMOXOR on another node's T1 end the run
UNSUPPORTED_FORMAT with detail 7; (3) a misaligned one ends it with detail 6; (4) LR on a readable line of this node that the partition may touch
and that carries no poison returns the value, and the core then holds the only reservation of its own, that line's; (5) SC on a line whose
reservation the core holds writes and puts 0 into rd; (6) one without it writes nothing and puts 1; (7) gc.cas compares with rd and returns the
prior value; (8) gc.amofadd returns it while relaxed_fp is set; (9) without relaxed_fp it ends the run with detail 0x81. -/
def Obligations.CoreAtomics : Prop :=
  (∀ (i : Fin 64 → Instr) (row : GcRow) (c32 c64 : Nat), (i, row, c32, c64) ∈ [(Instr.amoadd, GcRow.amoadd, 0x01, 0x02),
        (Instr.amomin, GcRow.amomin, 0x03, 0x04),
        (Instr.amomax, GcRow.amomax, 0x05, 0x06),
        (Instr.amominu, GcRow.amominu, 0x07, 0x08),
        (Instr.amomaxu, GcRow.amomaxu, 0x09, 0x0A),
        (Instr.amoswap, GcRow.amoswap, 0x20, 0x30),
        (Instr.amoand, GcRow.amoand, 0x21, 0x31),
        (Instr.amoor, GcRow.amoor, 0x22, 0x32),
        (Instr.amoxor, GcRow.amoxor, 0x23, 0x33)] →
      ∀ (g : Fin 64) (p : Nat) (c : Cmd) (w len n m phys prior : Nat) (s s0 u z : State), AtInstr s g.val row p c w len → n = (if iF3 w = 3 then 8 else 4) →
      (s.core g.val).xr (iRs1 w) % n = 0 → Released s p c g.val (amoRl w) s0 →
      s0.issue p c (g.val / 16) ((s.core g.val).xr (iRs1 w)) acAtomic (s0.core g.val).retired = .ok phys m u → u.isRemote phys = false →
      Atomic u p c g.val phys (if iF3 w = 3 then c64 else c32) ((s.core g.val).xr (iRs2 w) % 2 ^ (if iF3 w = 3 then 64 else 32)) 0 prior z →
      Completes (i g) s fun t => t = ((z.event (g.val / 16) ⟨0x05, g.val % 16, 1, some ((s.core g.val).xr (iRs1 w)), some 2, .ofPart p⟩).modCore g.val
        (fun y => y.setX (iRd w) (if iF3 w = 3 then prior else sext 32 prior))).retire p g.val ((s.core g.val).xr (iRs1 w))) ∧
  (∀ (i : Fin 64 → Instr) (row : GcRow) (c32 c64 : Nat), (i, row, c32, c64) ∈
        [(Instr.amoswap, GcRow.amoswap, 0x20, 0x30), (Instr.amoand, GcRow.amoand, 0x21, 0x31), (Instr.amoor, GcRow.amoor, 0x22, 0x32), (Instr.amoxor, GcRow.amoxor, 0x23, 0x33)] →
      ∀ (g : Fin 64) (p : Nat) (c : Cmd) (w len n m phys : Nat) (s s0 u : State), AtInstr s g.val row p c w len → n = (if iF3 w = 3 then 8 else 4) →
      (s.core g.val).xr (iRs1 w) % n = 0 → Released s p c g.val (amoRl w) s0 →
      s0.issue p c (g.val / 16) ((s.core g.val).xr (iRs1 w)) acAtomic (s0.core g.val).retired = .ok phys m u → u.isRemote phys = true →
      Completes (i g) s fun t => t = u.endRun g.val stUnsupported (u.core g.val).pc 7) ∧
  (∀ (i : Fin 64 → Instr) (row : GcRow) (c32 c64 : Nat), (i, row, c32, c64) ∈ [(Instr.amoadd, GcRow.amoadd, 0x01, 0x02),
        (Instr.amomin, GcRow.amomin, 0x03, 0x04),
        (Instr.amomax, GcRow.amomax, 0x05, 0x06),
        (Instr.amominu, GcRow.amominu, 0x07, 0x08),
        (Instr.amomaxu, GcRow.amomaxu, 0x09, 0x0A),
        (Instr.amoswap, GcRow.amoswap, 0x20, 0x30),
        (Instr.amoand, GcRow.amoand, 0x21, 0x31),
        (Instr.amoor, GcRow.amoor, 0x22, 0x32),
        (Instr.amoxor, GcRow.amoxor, 0x23, 0x33)] →
      ∀ (g : Fin 64) (p : Nat) (c : Cmd) (w len : Nat) (s : State), AtInstr s g.val row p c w len →
      (s.core g.val).xr (iRs1 w) % (if iF3 w = 3 then 8 else 4) ≠ 0 →
      Completes (i g) s fun t => t = s.endRun g.val stUnsupported (s.core g.val).pc 6) ∧
  (∀ (g : Fin 64) (p w len n m phys : Nat) (c : Cmd) (y : Got) (s s0 u v x : State), AtInstr s g.val .lr p c w len → n = (if iF3 w = 3 then 8 else 4) →
      (s.core g.val).xr (iRs1 w) % n = 0 → Released s p c g.val (amoRl w) s0 →
      s0.issue p c (g.val / 16) ((s.core g.val).xr (iRs1 w)) acRead (s0.core g.val).retired = .ok phys m u →
      v = u.cleanLines p c g.val (fun d => decide (d.addr = phys / 64 * 64)) true → (v.core g.val).ending = none → v.lineBusy (phys / 64 * 64) = false →
      AllReady v (c.coreAgent p g.val) false [(phys / 64 * 64, 64)] → v.fetch (c.coreAgent p g.val) false phys n = (y, x) → y.status = 0 → y.poison = false →
      x.isRemote (phys / 64 * 64) = false → x.mayTouch p (phys / 64 * 64) = true →
      Completes (.lr g) s fun t => t = Taken (((({ x with resv := (g.val, phys / 64 * 64) :: x.resv.filter (fun e => decide (e.1 ≠ g.val)) } : State)).modCore g.val
        (fun z => z.setX (iRd w) (if n = 8 then y.value else sext 32 y.value))).retire p g.val ((s.core g.val).xr (iRs1 w)))
          (c.coreAgent p g.val) [(phys / 64 * 64, 64)]) ∧
  (∀ (g : Fin 64) (p w len n m phys prior : Nat) (c : Cmd) (s s0 u v z : State), AtInstr s g.val .sc p c w len → n = (if iF3 w = 3 then 8 else 4) →
      (s.core g.val).xr (iRs1 w) % n = 0 → Released s p c g.val (amoRl w) s0 →
      s0.issue p c (g.val / 16) ((s.core g.val).xr (iRs1 w)) acAtomic (s0.core g.val).retired = .ok phys m u →
      v = u.cleanLines p c g.val (fun d => decide (d.addr = phys / 64 * 64)) true → (v.core g.val).ending = none → v.isRemote phys = false → v.resv.contains (g.val, phys / 64 * 64) = true →
      Atomic v p c g.val phys (if n = 8 then 0x30 else 0x20) ((v.core g.val).xr (iRs2 w) % 2 ^ (8 * n)) 0 prior z →
      Completes (.sc g) s fun t => t = ((z.dropCoreResv g.val).modCore g.val (fun x => x.setX (iRd w) 0)).retire p g.val ((s.core g.val).xr (iRs1 w))) ∧
  (∀ (g : Fin 64) (p w len n m phys : Nat) (c : Cmd) (s s0 u v : State), AtInstr s g.val .sc p c w len → n = (if iF3 w = 3 then 8 else 4) →
      (s.core g.val).xr (iRs1 w) % n = 0 → Released s p c g.val (amoRl w) s0 →
      s0.issue p c (g.val / 16) ((s.core g.val).xr (iRs1 w)) acAtomic (s0.core g.val).retired = .ok phys m u →
      v = u.cleanLines p c g.val (fun d => decide (d.addr = phys / 64 * 64)) true → (v.core g.val).ending = none →
      (v.isRemote phys = true ∨ v.resv.contains (g.val, phys / 64 * 64) = false) →
      Completes (.sc g) s fun t => t = ((v.dropCoreResv g.val).modCore g.val (fun x => x.setX (iRd w) 1)).retire p g.val ((s.core g.val).xr (iRs1 w))) ∧
  (∀ (g : Fin 64) (p w len n code m phys prior : Nat) (c : Cmd) (s u z : State), AtInstr s g.val .cas p c w len → n = (if iF7 w = 1 then 8 else 4) →
      code = (if iF7 w = 1 then 0x0C else 0x0B) → (s.core g.val).xr (iRs1 w) % n = 0 →
      s.issue p c (g.val / 16) ((s.core g.val).xr (iRs1 w)) acAtomic (s.core g.val).retired = .ok phys m u →
      Atomic u p c g.val phys code ((s.core g.val).xr (iRs2 w) % 2 ^ (if iF7 w = 1 then 64 else 32)) ((s.core g.val).xr (iRd w) % 2 ^ (if iF7 w = 1 then 64 else 32)) prior z →
      Completes (.gcCas g) s fun t => t = ((z.event (g.val / 16) ⟨0x05, g.val % 16, 1, some ((s.core g.val).xr (iRs1 w)), some 2, .ofPart p⟩).modCore g.val
        (fun y => y.setX (iRd w) (if iF7 w = 1 then prior else sext 32 prior))).retire p g.val ((s.core g.val).xr (iRs1 w))) ∧
  (∀ (g : Fin 64) (p w len m phys prior : Nat) (c : Cmd) (s u z : State), AtInstr s g.val .amofadd p c w len → bitOf (s.reg (Reg.PART_FABRIC_CTRL p)) 0 = true →
      (s.core g.val).xr (iRs1 w) % 4 = 0 → s.issue p c (g.val / 16) ((s.core g.val).xr (iRs1 w)) acAtomic (s.core g.val).retired = .ok phys m u →
      Atomic u p c g.val phys 0x0D ((s.core g.val).xr (iRs2 w) % 2 ^ 32) 0 prior z →
      Completes (.gcAmofadd g) s fun t => t = ((z.event (g.val / 16) ⟨0x05, g.val % 16, 1, some ((s.core g.val).xr (iRs1 w)), some 2, .ofPart p⟩).modCore g.val
        (fun y => y.setX (iRd w) prior)).retire p g.val ((s.core g.val).xr (iRs1 w))) ∧
  (∀ (g : Fin 64) (p w len : Nat) (c : Cmd) (s : State), AtInstr s g.val .amofadd p c w len → bitOf (s.reg (Reg.PART_FABRIC_CTRL p)) 0 = false →
      Completes (.gcAmofadd g) s fun t => t = s.endRun g.val stUnsupported (s.core g.val).pc 0x81)

/-- For every state in which the part runs and every core that has come to the instruction (AtInstr): (1) gc.bxw and (2) gc.bxc change the
accumulators as the shared operations say and retire; (3) gc.dq adds the invalid codes it found to the core's counter and retires; (4) gc.kmrg
with a legal context whose indices the core still holds, with every read and write answered, writes the context's new out_count and consumed
counts together, and rd, counts the heads out of order and retires; (5) gc.semsig on a semaphore of the partition, once its release is done, adds
rs2 to it and retires; (6) on a semaphore outside the partition's range it ends the run RESERVATION; (7) gc.semwait begins to wait with the
threshold of rs2; (8) gc.semrd puts the value into rd; (9) of a poisoned semaphore it ends the run POISON_READ with detail 5; (10) gc.dcln writes
back and (11) gc.dinv also drops the lines of its range and retires once every write is acknowledged; (12) gc.tag retires, and labels the next
sample of the core where its tile samples cores; (13) elsewhere it only retires. -/
def Obligations.CoreInstructions : Prop :=
  (∀ (g : Fin 64) (p w len : Nat) (c : Cmd) (s : State), AtInstr s g.val .bxw p c w len →
      Completes (.gcBxw g) s fun t => t = (s.modCore g.val (fun x => x.bxw w)).retire p g.val 0) ∧
  (∀ (g : Fin 64) (p w len : Nat) (c : Cmd) (s : State), AtInstr s g.val .bxc p c w len →
      Completes (.gcBxc g) s fun t => t = (s.modCore g.val (fun x => x.bxc w)).retire p g.val 0) ∧
  (∀ (g : Fin 64) (p w len bad : Nat) (c : Cmd) (y : Core) (s : State), AtInstr s g.val .dq p c w len → (s.core g.val).dq w = (y, bad) →
      Completes (.gcDq g) s fun t => t = ((s.modCore g.val (fun _ => y)).count (Reg.GC_INVALID_CODES g.val) bad).retire p g.val 0) ∧
  (∀ (g : Fin 64) (p w len addr h v v2 n dis : Nat) (m : MCtx) (es : List (List Nat)) (xs : List MStream) (out : List Nat) (c : Cmd) (s u x y y2 z : State),
      AtInstr s g.val .kmrg p c w len → addr = (s.core g.val).xr (iRs1 w) → Reads (s.modCore g.val (fun x => { x with elem := 1 })) p c g.val addr 64 h u →
      m = MCtx.ofWords addr (wordsOf h 16) → m.ok = true → Reads u p c g.val addr (64 + 16 * m.n) v x →
      es = (List.range m.n).map (fun i => wordsOf (v / 2 ^ (512 + 128 * i)) 4) →
      (es.map MStream.ofWords).any (fun e => decide (e.len < e.used)) = false → (x.core g.val).merge.ctx = some addr →
      (x.core g.val).merge.count = m.count →
      (∀ k, mergeLoop p c g.val m k (((es.map MStream.ofWords).map (fun e => e.len - e.used)).sum + 1) (es.map MStream.ofWords)
        (x.core g.val).merge.indices 0 0 x = k xs out n dis y) →
      Reads y p c g.val addr (64 + 16 * m.n) v2 y2 → Writes y2 p c g.val addr (64 + 16 * m.n) (mergeContext v2 (m.count + n) xs) z →
      Completes (.gcKmrg g) s fun t => t = (((z.modCore g.val (fun e => { e with merge := ⟨some addr, m.count + n, out⟩ })).modCore g.val
        (fun e => e.setX (iRd w) n)).count (Reg.GC_MRG_DISORDER g.val) dis).retire p g.val addr) ∧
  (∀ (g : Fin 64) (p w len : Nat) (c : Cmd) (s u : State), AtInstr s g.val .semsig p c w len → s.semIn p ((s.core g.val).xr (iRs1 w)) = true →
      Released s p c g.val true u →
      Completes (.gcSemsig g 0) s fun t => t = ((u.semAdd p ((s.core g.val).xr (iRs1 w)) ((s.core g.val).xr (iRs2 w))).1).retire p g.val 0) ∧
  (∀ (i : Fin 64 → Instr) (row : GcRow), (i, row) ∈ [((fun g => Instr.gcSemsig g 0), GcRow.semsig), ((fun g => Instr.gcSemwait g 0), GcRow.semwait),
        ((fun g => Instr.gcSemrd g 0), GcRow.semrd)] →
      ∀ (g : Fin 64) (p w len : Nat) (c : Cmd) (s : State), AtInstr s g.val row p c w len → s.semIn p ((s.core g.val).xr (iRs1 w)) = false →
      Completes (i g) s fun t => t = s.endRun g.val stReservation (s.core g.val).pc 0) ∧
  (∀ (g : Fin 64) (p w len : Nat) (c : Cmd) (s : State), AtInstr s g.val .semwait p c w len → s.semIn p ((s.core g.val).xr (iRs1 w)) = true →
      s.waitOf (.core g.val) = none →
      Completes (.gcSemwait g 0) s fun t => t = s.semWait (.core g.val) p ((s.core g.val).xr (iRs1 w)) ((s.core g.val).xr (iRs2 w))) ∧
  (∀ (g : Fin 64) (p w len : Nat) (c : Cmd) (s : State), AtInstr s g.val .semrd p c w len → s.semIn p ((s.core g.val).xr (iRs1 w)) = true →
      (s.sem ((s.core g.val).xr (iRs1 w))).poison = false →
      Completes (.gcSemrd g 0) s fun t =>
        t = (s.modCore g.val (fun x => x.setX (iRd w) (s.sem ((s.core g.val).xr (iRs1 w))).value)).retire p g.val 0) ∧
  (∀ (g : Fin 64) (p w len : Nat) (c : Cmd) (s : State), AtInstr s g.val .semrd p c w len → s.semIn p ((s.core g.val).xr (iRs1 w)) = true →
      (s.sem ((s.core g.val).xr (iRs1 w))).poison = true →
      Completes (.gcSemrd g 0) s fun t => t = s.endRun g.val stPoison (s.core g.val).pc 5) ∧
  (∀ (g : Fin 64) (p w len : Nat) (c : Cmd) (s u : State), AtInstr s g.val .dcln p c w len →
      (u.core g.val).ending = none → u = s.cleanLines p c g.val (fun d => d.overlaps ((s.core g.val).xr (iRs1 w)) ((s.core g.val).xr (iRs2 w))) false →
      (u.unacked p c = 0 ∨ (s.core g.val).xr (iRs2 w) = 0) → Completes (.gcDcln g) s fun t => t = u.retire p g.val 0) ∧
  (∀ (g : Fin 64) (p w len : Nat) (c : Cmd) (s u : State), AtInstr s g.val .dinv p c w len →
      (u.core g.val).ending = none → u = s.cleanLines p c g.val (fun d => d.overlaps ((s.core g.val).xr (iRs1 w)) ((s.core g.val).xr (iRs2 w))) true →
      (u.unacked p c = 0 ∨ (s.core g.val).xr (iRs2 w) = 0) → Completes (.gcDinv g) s fun t => t = u.retire p g.val 0) ∧
  (∀ (g : Fin 64) (p w len : Nat) (c : Cmd) (s u : State), AtInstr s g.val .tag p c w len → u = s.retire p g.val 0 →
      bitOf (u.reg (Reg.SCL_SMP_CTRL (g.val / 16))) 30 = true →
      Completes (.gcTag g) s fun t => t = u.modScaler (g.val / 16) (fun y =>
        { y with tags := Tbl.set (fun _ => none) y.tags (g.val % 16) (some ((s.core g.val).xr (iRs1 w) % 65536)) })) ∧
  (∀ (g : Fin 64) (p w len : Nat) (c : Cmd) (s u : State), AtInstr s g.val .tag p c w len → u = s.retire p g.val 0 →
      bitOf (u.reg (Reg.SCL_SMP_CTRL (g.val / 16))) 30 = false → Completes (.gcTag g) s fun t => t = u)

/-- For every state in which the part runs and a MOVE command that runs and is not to stop: (1 to 4) each of MOVE_COPY, MOVE_PLACE, MOVE_FREE and
MOVE_ZERO that has not begun is begun by its first presentation, with its checks, also where its mode is one of the reserved 4 to 7. Begun, with
every write acknowledged: (5) MOVE_COPY to T0 or T1 writes a segment whose source is there at the destination, (6) MOVE_ZERO writes zeros there
without looking at a source, (7) MOVE_PLACE writes the segment into its page; (8) to the Loft, MOVE_COPY gathers the block's four segments and
asks for the block's write, (9) and goes on once it is accepted; (10) MOVE_ZERO unmaps the block. (11) MOVE_FREE of a page the partition owns
zeroes it and frees it, counting it; (12) of any other page it is a violation and goes on; (13 to 16) after the last segment each ends with the
worst status met. -/
def Obligations.MovesRun : Prop :=
  (∀ (p : Fin 32) (chute : Fin 64) (seq : Word) (c : Cmd) (s : State), s.cmd p.val chute.val seq.toNat = some c → c.opcode = 0x01 → c.phase = .running →
      (c.moveMode = 0 ∨ 4 ≤ c.moveMode) → c.mustStop = false → c.aux = [] →
      Completes (.moveCopy p chute seq) s fun t => t = s.moveStart p.val c) ∧
  (∀ (p : Fin 32) (chute : Fin 64) (seq : Word) (c : Cmd) (s : State), s.cmd p.val chute.val seq.toNat = some c → c.opcode = 0x01 → c.phase = .running →
      (c.moveMode = 1 ∨ 4 ≤ c.moveMode) → c.mustStop = false → c.aux = [] →
      Completes (.movePlace p chute seq) s fun t => t = s.moveStart p.val c) ∧
  (∀ (p : Fin 32) (chute : Fin 64) (seq : Word) (c : Cmd) (s : State), s.cmd p.val chute.val seq.toNat = some c → c.opcode = 0x01 → c.phase = .running →
      (c.moveMode = 2 ∨ 4 ≤ c.moveMode) → c.mustStop = false → c.aux = [] →
      Completes (.moveFree p chute seq) s fun t => t = s.moveStart p.val c) ∧
  (∀ (p : Fin 32) (chute : Fin 64) (seq : Word) (c : Cmd) (s : State), s.cmd p.val chute.val seq.toNat = some c → c.opcode = 0x01 → c.phase = .running →
      (c.moveMode = 3 ∨ 4 ≤ c.moveMode) → c.mustStop = false → c.aux = [] →
      Completes (.moveZero p chute seq) s fun t => t = s.moveStart p.val c) ∧
  (∀ (p : Fin 32) (chute : Fin 64) (seq : Word) (c : Cmd) (l : List LineVal) (a : Nat) (s u : State), s.cmd p.val chute.val seq.toNat = some c → c.opcode = 0x01 → c.phase = .running →
      c.moveMode = 0 → c.mustStop = false → c.aux ≠ [] → c.unacked = 0 → c.progress < c.moveSegs →
      c.moveDst.tier ≠ 2 → s.segSource p.val c c.progress = (some l, u) → linesStatus l = 0 →
      c.movePhys c.moveDst acWrite (4096 * c.progress) (c.segLen c.progress) = some a →
      Completes (.moveCopy p chute seq) s fun t =>
        t = (((u.segUsed p.val c).storeLines p.val c a l).segDone p.val c 1 0 (linesPoison l) c.progress).segCarry p.val c c.progress) ∧
  (∀ (p : Fin 32) (chute : Fin 64) (seq : Word) (c : Cmd) (a : Nat) (l : List LineVal) (s : State), s.cmd p.val chute.val seq.toNat = some c → c.opcode = 0x01 → c.phase = .running →
      c.moveMode = 3 → c.mustStop = false → c.aux ≠ [] → c.unacked = 0 → c.progress < c.moveSegs →
      c.moveDst.tier ≠ 2 → c.movePhys c.moveDst acWrite (4096 * c.progress) (c.segLen c.progress) = some a →
      l = List.replicate (c.segLen c.progress / 64) (0, false, 0) →
      Completes (.moveZero p chute seq) s fun t =>
        t = (((s.segUsed p.val c).storeLines p.val c a l).segDone p.val c 1 0 false c.progress).segCarry p.val c c.progress) ∧
  (∀ (p : Fin 32) (chute : Fin 64) (seq : Word) (c : Cmd) (l : List LineVal) (a : Nat) (s u : State), s.cmd p.val chute.val seq.toNat = some c → c.opcode = 0x01 → c.phase = .running →
      c.moveMode = 1 → c.mustStop = false → c.aux ≠ [] → c.unacked = 0 → c.progress < c.moveSegs →
      s.segSource p.val c c.progress = (some l, u) → linesStatus l = 0 →
      a = t0Flag + c.aux.getD (5 + c.progress) 0 * 4096 →
      Completes (.movePlace p chute seq) s fun t =>
        t = (((u.segUsed p.val c).storeLines p.val c a l).segDone p.val c 1 0 (linesPoison l) c.progress).segCarry p.val c c.progress) ∧
  (∀ (p : Fin 32) (chute : Fin 64) (seq : Word) (c : Cmd) (b po data : Nat) (ls : List (List LineVal)) (l : List LineVal) (s u : State), s.cmd p.val chute.val seq.toNat = some c → c.opcode = 0x01 → c.phase = .running →
      c.moveMode = 0 → c.mustStop = false → c.aux ≠ [] → c.unacked = 0 → c.progress < c.moveSegs →
      c.moveDst.tier = 2 → s.loftBlock p.val (c.moveDst.addr + 4096 * c.progress) = some b →
      s.takeArrival (.cmd p.val c.chute c.seq) (loftWriteKey (c.moveDst.addr + 4096 * c.progress)) = none →
      s.loftAsked p.val c (loftWriteKey (c.moveDst.addr + 4096 * c.progress)) = false → s.gather p.val c c.progress 4 = (some ls, u) →
      (c.copiedAscending (c.moveDst.addr + 4096 * c.progress) c.progress ls).map linesStatus = [0, 0, 0, 0] →
      l = (c.copiedAscending (c.moveDst.addr + 4096 * c.progress) c.progress ls).flatten → data = l.foldr (fun v acc => v.1 + 2 ^ 512 * acc) 0 →
      po = l.foldr (fun v acc => (if v.2.1 then 1 else 0) + 2 * acc) 0 →
      Completes (.moveCopy p chute seq) s fun t => t = (u.setAux p.val c c.progress (if po = 0 then c.aux else c.aux.set 2 (worseStatus (c.auxAt 2) stPoison))).loftAsk
        p.val c (loftWriteKey (c.moveDst.addr + 4096 * c.progress)) (c.moveDst.addr + 4096 * c.progress) b (some ⟨data, po⟩)) ∧
  (∀ (p : Fin 32) (chute : Fin 64) (seq : Word) (c : Cmd) (b : Nat) (x : Arrival) (s u : State), s.cmd p.val chute.val seq.toNat = some c → c.opcode = 0x01 → c.phase = .running →
      c.moveMode = 0 → c.mustStop = false → c.aux ≠ [] → c.unacked = 0 → c.progress < c.moveSegs →
      c.moveDst.tier = 2 → s.loftBlock p.val (c.moveDst.addr + 4096 * c.progress) = some b →
      s.takeArrival (.cmd p.val c.chute c.seq) (loftWriteKey (c.moveDst.addr + 4096 * c.progress)) = some (x, u) → x.status = 0 →
      Completes (.moveCopy p chute seq) s fun t =>
        t = ((u.segUsed p.val c).event (hubTile (c.runUnit / 4 % 2)) ⟨0x29, 0, loftBytes, none, none, .ofPart p.val⟩).segDone p.val c 4 0 x.poison c.progress) ∧
  (∀ (p : Fin 32) (chute : Fin 64) (seq : Word) (c : Cmd) (b : Nat) (s : State), s.cmd p.val chute.val seq.toNat = some c → c.opcode = 0x01 → c.phase = .running →
      c.moveMode = 3 → c.mustStop = false → c.aux ≠ [] → c.unacked = 0 → c.progress < c.moveSegs →
      c.moveDst.tier = 2 → s.loftBlock p.val (c.moveDst.addr + 4096 * c.progress) = some b →
      Completes (.moveZero p chute seq) s fun t => t = (s.setLoftPlace b none).segDone p.val c 4 0 false c.progress) ∧
  (∀ (p : Fin 32) (chute : Fin 64) (seq : Word) (c : Cmd) (a : Nat) (u s : State), s.cmd p.val chute.val seq.toNat = some c → c.opcode = 0x01 → c.phase = .running →
      c.moveMode = 2 → c.mustStop = false → c.aux ≠ [] → c.unacked = 0 → c.progress < c.moveSegs →
      a = (if c.moveDst.paged then c.moveDst.pages.getD c.progress 0 else c.moveDst.addr + 4096 * c.progress) → u = s.ftTouches [a / 4096] →
      u.t0Owner (a / 4096) = some p.val → a < Config.t0Bytes →
      Completes (.moveFree p chute seq) s fun t =>
        t = ((u.t0Zero ⟨a / 4096 * 4096, 4096⟩).setT0Owner (a / 4096) none).setAux p.val c (c.progress + 1) (c.aux.set 0 (c.auxAt 0 + 1))) ∧
  (∀ (p : Fin 32) (chute : Fin 64) (seq : Word) (c : Cmd) (a : Nat) (u s : State), s.cmd p.val chute.val seq.toNat = some c → c.opcode = 0x01 → c.phase = .running →
      c.moveMode = 2 → c.mustStop = false → c.aux ≠ [] → c.unacked = 0 → c.progress < c.moveSegs →
      a = (if c.moveDst.paged then c.moveDst.pages.getD c.progress 0 else c.moveDst.addr + 4096 * c.progress) → u = s.ftTouches [a / 4096] →
      (u.t0Owner (a / 4096) ≠ some p.val ∨ Config.t0Bytes ≤ a) →
      Completes (.moveFree p chute seq) s fun t => t = (u.violateMem (.unit p.val c.chute c.seq) true a).setAux p.val c (c.progress + 1) c.aux) ∧
  (∀ (p : Fin 32) (chute : Fin 64) (seq : Word) (c : Cmd) (s : State), s.cmd p.val chute.val seq.toNat = some c → c.opcode = 0x01 → c.phase = .running →
      c.moveMode = 0 → c.mustStop = false → c.aux ≠ [] → c.unacked = 0 → c.moveSegs ≤ c.progress →
      Completes (.moveCopy p chute seq) s fun t => t = (s.loftForget p.val c).endCmd p.val c (c.auxAt 2) c.partialResult.1 c.partialResult.2) ∧
  (∀ (p : Fin 32) (chute : Fin 64) (seq : Word) (c : Cmd) (s : State), s.cmd p.val chute.val seq.toNat = some c → c.opcode = 0x01 → c.phase = .running →
      c.moveMode = 1 → c.mustStop = false → c.aux ≠ [] → c.unacked = 0 → c.moveSegs ≤ c.progress →
      Completes (.movePlace p chute seq) s fun t => t = (s.loftForget p.val c).endCmd p.val c (c.auxAt 2) c.partialResult.1 c.partialResult.2) ∧
  (∀ (p : Fin 32) (chute : Fin 64) (seq : Word) (c : Cmd) (s : State), s.cmd p.val chute.val seq.toNat = some c → c.opcode = 0x01 → c.phase = .running →
      c.moveMode = 2 → c.mustStop = false → c.aux ≠ [] → c.unacked = 0 → c.moveSegs ≤ c.progress →
      Completes (.moveFree p chute seq) s fun t => t = (s.loftForget p.val c).endCmd p.val c (c.auxAt 2) c.partialResult.1 c.partialResult.2) ∧
  (∀ (p : Fin 32) (chute : Fin 64) (seq : Word) (c : Cmd) (s : State), s.cmd p.val chute.val seq.toNat = some c → c.opcode = 0x01 → c.phase = .running →
      c.moveMode = 3 → c.mustStop = false → c.aux ≠ [] → c.unacked = 0 → c.moveSegs ≤ c.progress →
      Completes (.moveZero p chute seq) s fun t => t = (s.loftForget p.val c).endCmd p.val c (c.auxAt 2) c.partialResult.1 c.partialResult.2)

/-- For every state in which the part runs. T0_SCRUB of a word of T0, with the bits that have gone wrong since it was written: (1) a good word is
only read; (2) one wrong bit is corrected, counted in HUB_T0_CE and for the summary; (3) two or more poison its line as the shared operation says;
the bits that go wrong after the read stay for the next one. T1_SCRUB of a line of T1 that is to be read, with no new error and a directory entry
without one, its home-state bits checked: (4) a good line is only read; (5) a line whose error is correctable is counted with its address and
syndrome, and written back; (6) an uncorrectable one is poisoned, counted and reported, and written back; (7) the end of a pass counts the pass,
sets the cause and ends what it has cleared of suspicion; (8) a line that the patrol does not read stays as it is. (9) An error within one burst
segment shows its number and syndrome symbol S0, (10) one that no segment explains shows as uncorrectable. -/
def Obligations.Scrubs : Prop :=
  (∀ (word : BitVec 26) (bits after : Fin 3) (a e : Nat) (s u : State), a = 8 * word.toNat → a < Config.t0Bytes → e = min 2 (s.t0Err a + bits.val) →
      u = (s.t0Line a false .device).setT0Err a e → e = 0 →
      Completes (.t0Scrub word bits after) s fun t => t = u.setT0Err a after.val) ∧
  (∀ (word : BitVec 26) (bits after : Fin 3) (a e : Nat) (s u : State), a = 8 * word.toNat → a < Config.t0Bytes → e = min 2 (s.t0Err a + bits.val) →
      u = (s.t0Line a false .device).setT0Err a e → e = 1 →
      Completes (.t0Scrub word bits after) s fun t =>
        t = (((u.setT0Err a 0).count (Reg.HUB_T0_CE (t0Bank a % 2)) 1).corrected 7 (t0Bank a) 1 1).setT0Err a after.val) ∧
  (∀ (word : BitVec 26) (bits after : Fin 3) (a e : Nat) (s u : State), a = 8 * word.toNat → a < Config.t0Bytes → e = min 2 (s.t0Err a + bits.val) →
      u = (s.t0Line a false .device).setT0Err a e → e = 2 →
      Completes (.t0Scrub word bits after) s fun t => t = ((u.setT0Err a 0).t0Uncorrectable a).setT0Err a after.val) ∧
  (∀ (line : BitVec 34) (err after : List (BitVec 16)) (o st : Nat) (s u : State), o = 64 * line.toNat → st = s.stackOf o → o < Config.t1Bytes →
      (err.take 40).all (· = 0) = true → (after.take 40).all (· = 0) = true → s.scrubReads o = true → s.stackTested line.toNat = false →
      u = (s.checkBits line.toNat .device).stackLine st ((s.checkBits line.toNat .device).node * 2 ^ 40 + o) 5 false .device → u.t1Err o = none →
      Completes (.t1Scrub line err false after 0) s fun t => t = u.scrubOrphan line.toNat) ∧
  (∀ (line : BitVec 34) (err after : List (BitVec 16)) (o st : Nat) (w : Nat) (s u v : State), o = 64 * line.toNat → st = s.stackOf o → o < Config.t1Bytes →
      (err.take 40).all (· = 0) = true → (after.take 40).all (· = 0) = true → s.scrubReads o = true → s.stackTested line.toNat = false →
      u = (s.checkBits line.toNat .device).stackLine st ((s.checkBits line.toNat .device).node * 2 ^ 40 + o) 5 false .device → u.t1Err o = some w → w < 2 ^ 31 →
      v = (u.setT1Err (64 * line.toNat) none).t1Corrected (64 * line.toNat / 64 * 64) w →
      Completes (.t1Scrub line err false after 0) s fun t =>
        t = (v.stackLine (v.stackOf (64 * line.toNat / 64 * 64)) (v.node * 2 ^ 40 + 64 * line.toNat / 64 * 64) 5 true .device).scrubOrphan line.toNat) ∧
  (∀ (line : BitVec 34) (err after : List (BitVec 16)) (o st : Nat) (w : Nat) (s u v : State), o = 64 * line.toNat → st = s.stackOf o → o < Config.t1Bytes →
      (err.take 40).all (· = 0) = true → (after.take 40).all (· = 0) = true → s.scrubReads o = true → s.stackTested line.toNat = false →
      u = (s.checkBits line.toNat .device).stackLine st ((s.checkBits line.toNat .device).node * 2 ^ 40 + o) 5 false .device → u.t1Err o = some w → 2 ^ 31 ≤ w →
      v = (u.setT1Err (64 * line.toNat) none).t1Uncorrectable (64 * line.toNat / 64 * 64) w (ueWho 3 (s.checkBits line.toNat .device).node) →
      Completes (.t1Scrub line err false after 0) s fun t =>
        t = (v.stackLine (v.stackOf (64 * line.toNat / 64 * 64)) (v.node * 2 ^ 40 + 64 * line.toNat / 64 * 64) 5 true .device).scrubOrphan line.toNat) ∧
  (∀ (line : BitVec 34) (err after : List (BitVec 16)) (o st : Nat) (s u : State), o = 64 * line.toNat → st = s.stackOf o → o < Config.t1Bytes →
      (err.take 40).all (· = 0) = true → (after.take 40).all (· = 0) = true → s.scrubReads o = true → s.stackTested line.toNat = false →
      u = (s.checkBits line.toNat .device).stackLine st ((s.checkBits line.toNat .device).node * 2 ^ 40 + o) 5 false .device → u.t1Err o = none →
      Completes (.t1Scrub line err true after 0) s fun t => t = (((u.scrubOrphan line.toNat).count (Reg.HUB_SCRUB_PASSES (s.hubOf o)) 1).cause
        (Reg.HUB_MEM_IRQ_CAUSE (s.hubOf o)) 1).endSuspects (s.hubOf o)) ∧
  (∀ (line : BitVec 34) (err after : List (BitVec 16)) (dirErr : Fin 3) (last : Bool) (o : Nat) (s : State), o = 64 * line.toNat → o < Config.t1Bytes →
      (err.take 40).all (· = 0) = true → s.scrubReads o = false →
      Completes (.t1Scrub line err last after dirErr) s fun t => t = s) ∧
  (∀ (s : State) (a g e0 e1 : Nat) (err : List Nat), a % 64 = 0 → s.t1Err a = none → eccJudge err = .segment g e0 e1 →
      (s.t1Spoil a err).t1Err a = some (g * 2 ^ 16 + syndrome0 err)) ∧
  (∀ (s : State) (a : Nat) (err : List Nat), a % 64 = 0 → eccJudge err = .lost → (s.t1Spoil a err).t1Err a = some (2 ^ 31 + syndrome0 err))

/-- For every state in which the part runs. (1) LOFT_WRITE_STAGE gives the oldest write that waits a free staging block, names it in the map and
answers OK. (2) LOFT_STRIPE_PROGRAM of a due stripe of the open superblock programs it there. (3) LOFT_PROGRAM_DONE without a failure puts every
block of the stripe, and their XOR at the parity position, into the NAND, and gives the staging blocks to writes that wait; (4) with one it also
retires the erase block that failed. (5) LOFT_ERASE_DONE of an erasable superblock leaves it free, with one erase more and nothing programmed. (6)
LOFT_GC below gc_low empties the written superblock with the fewest live blocks. (7) LOFT_WEAR_MOVE, where erases differ by more than wear_delta,
empties the most worn one and remembers the pair (the order is the model's choice, log entry 16). (8) LOFT_READ of an unmapped block answers
zeros, (9) of a staged one its content, (10) of a programmed one it reads the NAND. LOFT_READ_DONE (11) with good data answers the block; (12)
after failed retries it reconstructs the block from its stripe where it can; (13) where a second block fails too the request fails. (14)
LOWER_TIER_LATE of a request past its deadline answers DEADLINE and counts it. (15) LOFT_TRIM clears a released chunk and returns it to the pool.
(16) LOFT_READY with enough free superblocks shows ready. -/
def Obligations.LoftReadsAndWrites : Prop :=
  (∀ (s u : State) (r : LoftReq) (b : LoftBlock), u = s.modLoft (fun l => { l with reqs := l.reqs.filter s.stillWrites }) →
      u.loft.reqs.find? (fun r => r.write.isSome) = some r → r.write = some b → u.loftLate r = false → u.loft.staging.length < stagingBlocks →
      Completes .loftWriteStage s fun t => t = ((u.modLoft (fun l => { l with nextId := u.loft.nextId + 1, staging := l.staging ++
        [{ id := u.loft.nextId, block := r.block, content := b, cls := r.cls, target := r.target, since := u.lcc, program := none }] })).setLoftPlace r.block
          (some (.staged u.loft.nextId))).loftAnswer r stOk LoftBlock.zero) ∧
  (∀ (s : State) (sb : Nat), s.stripeDue (s.waitingFor none) = true → s.loft.current = some sb →
      Completes .loftStripeProgram s fun t => t = s.programStripe sb (s.waitingFor none) 2) ∧
  (∀ (sb stripe : Nat) (s : State) (l : List (Staged × Nat)), l = s.stripeBlocks sb stripe → l ≠ [] →
      Completes (.loftProgramDone sb stripe none) s fun t => ∃ u : State, u = l.foldl (fun s e => s.blockDone sb stripe e.2 false e.1) s ∧
        t = (if u.badAt sb 16 then u else u.nandPut sb stripe 16 none (xorBlocks (l.map (·.1.content)))).giveRoom) ∧
  (∀ (sb stripe : Nat) (q : Fin 17) (s : State) (l : List (Staged × Nat)), l = s.stripeBlocks sb stripe → l ≠ [] →
      Completes (.loftProgramDone sb stripe (some q)) s fun t =>
        ∃ u : State, u = l.foldl (fun s e => s.blockDone sb stripe e.2 (decide (q.val = e.2)) e.1) s ∧
        t = (if decide (q.val = 16) = true ∨ u.badAt sb 16 = true then u else u.nandPut sb stripe 16 none (xorBlocks (l.map (·.1.content)))).giveRoom.retireBlock sb
          q.val (Reg.LFT_CH_PROG_FAIL 0)) ∧
  (∀ (sb : Nat) (s u v : State), sb < s.superCount → s.erasable sb = true →
      u = s.modLoft (fun l => { l with
        nand := Tbl.keep (fun k => !decide (k / 2 ^ 37 = sb)) l.nand, missing := l.missing.filter (fun x => !decide (x.1 / 2 ^ 32 = sb)), lost := l.lost.filter (fun x => !decide (x.1 / 2 ^ 32 = sb)) }) →
      v = ((List.range 17).foldl (fun s pos => s.channelAnswers pos) u.showRebuild).modSuper sb
        (fun q => { q with erases := q.erases + 1, stripes := 0, state := 1 }) → v.loft.wear = none →
      Completes (.loftEraseDone sb none) s fun t => t = v) ∧
  (∀ (s : State) (e : Nat × Super), s.freeSupers < s.regF Reg.LFT_GC_CTRL 31 16 →
      leastBy (fun (e : Nat × Super) => (s.liveIn e.1).length) (s.loft.supers.filter (fun e => decide (e.2.state = 3))) = some e →
      Completes .loftGc s fun t => t = s.collect e.1 1 none) ∧
  (∀ (s : State) (a b : Nat × Super), s.loft.wear = none → s.wearPair = some (a, b) → a.2.erases + s.regF Reg.LFT_GC_CTRL 15 0 < b.2.erases →
      Completes .loftWearMove s fun t => t = (s.collect b.1 1 none).modLoft (fun l => { l with wear := some (a.1, b.1) })) ∧
  (∀ (id : Nat) (s : State) (r : LoftReq), s.loft.reqs.find? (fun r => decide (r.id = id) && r.write.isNone && r.reading.isNone) = some r →
      s.loftLate r = false → s.loftPlace r.block = none → Completes (.loftRead id) s fun t => t = s.loftAnswer r stOk LoftBlock.zero) ∧
  (∀ (id i : Nat) (s : State) (r : LoftReq) (x : Staged), s.loft.reqs.find? (fun r => decide (r.id = id) && r.write.isNone && r.reading.isNone) = some r →
      s.loftLate r = false → s.loftPlace r.block = some (.staged i) → s.loft.staging.find? (fun x => decide (x.id = i)) = some x →
      Completes (.loftRead id) s fun t => t = s.loftAnswer r stOk x.content) ∧
  (∀ (id sb stripe pos : Nat) (s : State) (r : LoftReq), s.loft.reqs.find? (fun r => decide (r.id = id) && r.write.isNone && r.reading.isNone) = some r →
      s.loftLate r = false → s.loftPlace r.block = some (.nand sb stripe pos) →
      Completes (.loftRead id) s fun t =>
        t = s.modLoft (fun l => { l with reqs := l.reqs.map (fun q => if q.id = id then { q with reading := some (sb, stripe, pos) } else q) })) ∧
  (∀ (id sb stripe pos : Nat) (s u : State) (r : LoftReq), s.loft.reqs.find? (fun r => decide (r.id = id)) = some r → r.reading = some (sb, stripe, pos) →
      s.copyReads sb stripe pos = true → u = (s.channelAnswers pos).channelBlock pos 0x46 0 0 → u.loftLate r = false →
      Completes (.loftReadDone id 0) s fun t => t = u.loftAnswer r stOk ((s.channelAnswers pos).nandBlock sb stripe pos)) ∧
  (∀ (id sb stripe pos : Nat) (s u v : State) (r : LoftReq), s.loft.reqs.find? (fun r => decide (r.id = id)) = some r → r.reading = some (sb, stripe, pos) →
      s.copyReads sb stripe pos = true → u = (s.channelAnswers pos).loftCount sb stripe pos (Reg.LFT_CH_LDPC_FAIL 0) → u.rebuildable sb stripe pos = true →
      v = (u.count Reg.LFT_RECON 1).channelBlock pos 0x46 2 0 → v.loftLate r = false →
      Completes (.loftReadDone id 2) s fun t => t = v.loftAnswer r stOk (u.rebuiltBlock sb stripe pos)) ∧
  (∀ (id sb stripe pos : Nat) (s u : State) (r : LoftReq), s.loft.reqs.find? (fun r => decide (r.id = id)) = some r → r.reading = some (sb, stripe, pos) →
      s.copyReads sb stripe pos = false → u = s.loftCount sb stripe pos (Reg.LFT_CH_LDPC_FAIL 0) → u.loftLate r = false →
      Completes (.loftReadDone id 3) s fun t => t = u.loftFailed r) ∧
  (∀ (id p : Nat) (ch q : Nat) (s : State) (r : LoftReq), s.loft.reqs.find? (fun r => decide (r.id = id)) = some r → s.loftLate r = true →
      r.who = some (p, ch, q) →
      Completes (.lowerTierLate id) s fun t => t = (s.loftAnswer r stDeadline LoftBlock.zero).count (Reg.PART_LT_LATE p) 1) ∧
  (∀ (s u : State) (c : Nat) (l : List Nat), s.loft.trim = c :: l →
      u = s.modLoft (fun x => { x with trim := l, map := Tbl.keep (fun b => !decide (b / 65536 = c)) x.map }) →
      Completes .loftTrim s fun t => t = u.setRegF Reg.LFT_POOL_FREE 14 0 (u.regF Reg.LFT_POOL_FREE 14 0 + 1)) ∧
  (∀ (s : State), s.regF Reg.LFT_CAPACITY 14 0 * 65536 ≤ s.freeSupers * stripesPerSuper * 16 → s.regF Reg.LFT_CAPACITY 14 0 ≠ 0 →
      Completes .loftReady s fun t => t = s.setRegF Reg.LFT_STATUS 31 31 1)

/-- For every state in which the part runs: (1) a status timeout that is not the third in a row is counted; (2) the third declares the channel
dead with cause 2 and its count starts again; (3) LOFT_CHANNEL_RESET by a requester that may write it puts a living channel into reset and shows
it untrained; (4) LOFT_CHANNEL_RETRAINED of a channel in reset ends the reset and shows it trained; (5) where training fails the channel is dead
with cause 1; (6) LOFT_CHANNEL_RETIRE declares it dead with cause 3. (7) While a rebuild runs and no channel of it is in reset,
LOFT_REBUILD_STRIPE reconstructs the first copy that can be and, while another can be, shows what is left; (8) with nothing left that can be it
ends the rebuild: the flag goes, the cause is set and the record says how many stripes were rebuilt. -/
def Obligations.LoftChannels : Prop :=
  (∀ (f : Fin 18) (s : State), Tbl.get (fun _ => 0) s.loft.timeouts f.val + 1 < 3 →
      Completes (.loftStatusTimeout f) s fun t =>
        t = s.modLoft (fun l => { l with timeouts := Tbl.set (fun _ => 0) l.timeouts f.val (Tbl.get (fun _ => 0) s.loft.timeouts f.val + 1) })) ∧
  (∀ (f : Fin 18) (s : State), 2 ≤ Tbl.get (fun _ => 0) s.loft.timeouts f.val →
      Completes (.loftStatusTimeout f) s fun t =>
        t = (s.modLoft (fun l => { l with timeouts := Tbl.set (fun _ => 0) l.timeouts f.val 0 })).channelDead f.val 2) ∧
  (∀ (rq : Requester) (f : Fin 18) (v : Word) (s u : State), s.writes rq (Reg.LFT_CH_CTRL f.val) = true → u = s.store (Reg.LFT_CH_CTRL f.val) v →
      u.regF (Reg.LFT_CH_STATUS f.val) 29 29 = 0 →
      Completes (.loftChannelReset rq f v) s fun t => t = (u.setRegF (Reg.LFT_CH_STATUS f.val) 28 28 1).setRegF (Reg.LFT_CH_STATUS f.val) 30 30 0) ∧
  (∀ (f : Fin 18) (s : State), s.regF (Reg.LFT_CH_STATUS f.val) 28 28 = 1 →
      Completes (.loftChannelRetrained f true) s fun t =>
        t = (s.setRegF (Reg.LFT_CH_STATUS f.val) 28 28 0).setRegF (Reg.LFT_CH_STATUS f.val) 30 30 1) ∧
  (∀ (f : Fin 18) (s : State), s.regF (Reg.LFT_CH_STATUS f.val) 28 28 = 1 →
      Completes (.loftChannelRetrained f false) s fun t => t = s.channelDead f.val 1) ∧
  (∀ (rq : Requester) (f : Fin 18) (v : Word) (s : State), s.writes rq (Reg.LFT_CH_CTRL f.val) = true →
      Completes (.loftChannelRetire rq f v) s fun t => t = (s.store (Reg.LFT_CH_CTRL f.val) v).channelDead f.val 3) ∧
  (∀ (s u : State) (x : Nat × Nat), s.regF Reg.LFT_STATUS 29 29 = 1 → s.rebuildHeld = false → s.loft.missing.find? s.rebuildReady = some x →
      s.liveStripes.contains x.1 = true →
      u = ((s.modLoft (fun l => { l with missing := l.missing.erase x, rebuilt := l.rebuilt + 1 })).channelBlock x.2 0x46 3 0).showRebuild →
      u.loft.missing.any s.rebuildReady = true → Completes .loftRebuildStripe s fun t => t = u) ∧
  (∀ (s u : State), s.regF Reg.LFT_STATUS 29 29 = 1 → s.loft.missing = [] → u = s.showRebuild → u.loft.missing = [] →
      Completes .loftRebuildStripe s fun t =>
        t = ((u.setRegF Reg.LFT_STATUS 29 29 0).cause Reg.LFT_IRQ_CAUSE 2).report 0 0x0023 8 0 none 0 [u.loft.rebuilt % 2 ^ 32, u.loft.rebuilt / 2 ^ 32])

/-- For every state in which the part runs, for the four commands by a requester that may write HUB_MIRROR_CMD and acting on the entry that
HUB_MIRROR_SEL selects: (1) MIRROR_COMMIT of an unused entry with role 0, 1 or 2 makes it SYNCED, MIRROR or REDIRECT with nothing copied; (2)
MIRROR_CLEAR of an entry that does not rebuild makes it unused and lets go what it held; (3) MIRROR_DETACH of a SYNCED, HELD or REBUILD entry
makes it DETACHED; (4) MIRROR_REBUILD of a DETACHED one makes it REBUILD; (5) of a serving one it is counted and ignored. (6) An unreachable
partner acts as the shared operation says; (7) a reachable one makes a HELD entry SYNCED, sends again the writes the mirror lacks and lets the
held accesses proceed; (8) PROMOTED fences a SYNCED or HELD entry. (9) While an entry rebuilds, MIRROR_COPY_SEGMENT copies the next 4 KiB once its
lines can be read; (10) MIRROR_COPY_DONE after the whole range has been copied and acknowledged makes it SYNCED. -/
def Obligations.Mirrors : Prop :=
  (∀ (rq : Requester) (v : Word) (s u : State) (i : Nat) (m : Mirror), s.writes rq (Reg.HUB_MIRROR_CMD 0) = true → u = s.store (Reg.HUB_MIRROR_CMD 0) v →
      i = u.regF (Reg.HUB_MIRROR_SEL 0) 10 0 → m = u.mirror i → m.state = 0 → m.role ≠ 3 →
      Completes (.mirrorCommit rq v) s fun t =>
        t = u.modMirror i (fun e => { e with state := if e.role = 0 then 1 else if e.role = 1 then 6 else 7, copied := 0 })) ∧
  (∀ (rq : Requester) (v : Word) (s u : State) (i : Nat) (m : Mirror), s.writes rq (Reg.HUB_MIRROR_CMD 0) = true → u = s.store (Reg.HUB_MIRROR_CMD 0) v →
      i = u.regF (Reg.HUB_MIRROR_SEL 0) 10 0 → m = u.mirror i → m.state ≠ 4 →
      Completes (.mirrorClear rq v) s fun t => t = (u.modMirror i (fun e => { e with state := 0, copied := 0 })).mirrorRelease i m true) ∧
  (∀ (rq : Requester) (v : Word) (s u : State) (i : Nat) (m : Mirror), s.writes rq (Reg.HUB_MIRROR_CMD 0) = true → u = s.store (Reg.HUB_MIRROR_CMD 0) v →
      i = u.regF (Reg.HUB_MIRROR_SEL 0) 10 0 → m = u.mirror i → (m.state = 1 ∨ m.state = 2 ∨ m.state = 4) →
      Completes (.mirrorDetach rq v) s fun t => t = (u.mirrorTo i 3 16).mirrorRelease i m true) ∧
  (∀ (rq : Requester) (v : Word) (s u : State) (i : Nat), s.writes rq (Reg.HUB_MIRROR_CMD 0) = true → u = s.store (Reg.HUB_MIRROR_CMD 0) v →
      i = u.regF (Reg.HUB_MIRROR_SEL 0) 10 0 → (u.mirror i).state = 3 →
      Completes (.mirrorRebuild rq v) s fun t => t = u.mirrorTo i 4 0) ∧
  (∀ (rq : Requester) (v : Word) (s u : State) (i : Nat), s.writes rq (Reg.HUB_MIRROR_CMD 0) = true → u = s.store (Reg.HUB_MIRROR_CMD 0) v →
      i = u.regF (Reg.HUB_MIRROR_SEL 0) 10 0 → (u.mirror i).state ≠ 3 → (u.mirror i).serving = true →
      Completes (.mirrorRebuild rq v) s fun t => t = u.count (Reg.HUB_MIRROR_IGNORED 0) 1) ∧
  (∀ (i : Fin 2048) (s : State), Completes (.mirrorPartnerUnreachable i) s fun t => t = s.mirrorUnreachable i.val) ∧
  (∀ (i : Fin 2048) (s : State), (s.mirror i.val).state = 2 →
      Completes (.mirrorPartnerReachable i) s fun t => t = ((s.mirrorTo i.val 1 0).mirrorResend i.val).mirrorRelease i.val (s.mirror i.val) false) ∧
  (∀ (i : Fin 2048) (s : State), ((s.mirror i.val).state = 1 ∨ (s.mirror i.val).state = 2) →
      Completes (.mirrorPromoted i) s fun t => t = s.fence i.val) ∧
  (∀ (i : Fin 2048) (s : State) (m : Mirror), m = s.mirror i.val → m.state = 4 → m.copied < m.range.size →
      (linesOf (m.range.base + m.copied) 4096).all s.readable = true →
      Completes (.mirrorCopySegment i) s fun t => t = (List.range 64).foldl
        (fun s k => if (s.mirror i.val).state = 4 then s.copyLine i.val m (m.range.base + m.copied + 64 * k) else s)
        ((Found s (linesOf (m.range.base + m.copied) 4096)).modMirror i.val (fun e => { e with copied := e.copied + 4096 }))) ∧
  (∀ (i : Fin 2048) (s : State) (m : Mirror), m = s.mirror i.val → m.state = 4 → m.range.size ≤ m.copied →
      (s.mirrors.acks.any (fun a => decide (a.entry = i.val) && decide (a.req.src = .device))) = false →
      Completes (.mirrorCopyDone i) s fun t => t = s.mirrorTo i.val 1 0)

/-- For every state in which the part runs: (1) XLT_ENABLE by a requester that may write it, while enable is 0 and the root lies in a live extent,
shows ready and err 0; (2) with a root elsewhere it shows err 1 and enable 0; (3) XLT_DISABLE clears ready and enable and drops every buffered
translation of the partition; (4) XLT_INVALIDATE while not busy sets busy and drops the translations of its aligned range; (5) XLT_INVALIDATE_ALL
those of the whole space; (6) XLT_INVALIDATE_DONE, once no command holds an older translation of the range, clears busy and sets the cause; (7)
QUEUE_TIME_TRANSLATE of a queued command that reads no list and all of whose addresses are translated makes it ready; (8) RESUME of a held fault,
without an address check or with one that names its page and not for the whole page, ends that fault and queues its command again, with result 1;
(9) of no held fault it has result 0; (10) RELEASE_FENCE without a flag ends OK once its partition has settled or no wait was asked; (11) with a
flag, its store is issued; (12) and once that is acknowledged it ends OK. -/
def Obligations.TranslationCommands : Prop :=
  (∀ (rq : Requester) (p : Fin 32) (v : Word) (u s : State), s.writes rq (Reg.PART_XLT_CTRL p.val) = true → bitOf (s.reg (Reg.PART_XLT_CTRL p.val)) 0 = false →
      u = s.store (Reg.PART_XLT_CTRL p.val) (v ||| 1) → u.liveRange p.val ⟨s.reg64 (Reg.PART_XLT_ROOT_LO p.val) % 2 ^ 40, 4096⟩ = true →
      Completes (.xltEnable rq p v) s fun t => t = (u.setRegF (Reg.PART_XLT_CTRL p.val) 30 28 0).setRegF (Reg.PART_XLT_CTRL p.val) 31 31 1) ∧
  (∀ (rq : Requester) (p : Fin 32) (v : Word) (u s : State), s.writes rq (Reg.PART_XLT_CTRL p.val) = true → bitOf (s.reg (Reg.PART_XLT_CTRL p.val)) 0 = false →
      u = s.store (Reg.PART_XLT_CTRL p.val) (v ||| 1) → u.liveRange p.val ⟨s.reg64 (Reg.PART_XLT_ROOT_LO p.val) % 2 ^ 40, 4096⟩ = false →
      Completes (.xltEnable rq p v) s fun t => t = (u.setRegF (Reg.PART_XLT_CTRL p.val) 30 28 1).setRegF (Reg.PART_XLT_CTRL p.val) 0 0 0) ∧
  (∀ (rq : Requester) (p : Fin 32) (v : Word) (s : State), s.writes rq (Reg.PART_XLT_CTRL p.val) = true →
      Completes (.xltDisable rq p v) s fun t =>
        t = ((s.setRegF (Reg.PART_XLT_CTRL p.val) 31 31 0).setRegF (Reg.PART_XLT_CTRL p.val) 0 0 0).dropXlt p.val 0 (2 ^ 57)) ∧
  (∀ (rq : Requester) (p : Fin 32) (v : Word) (n b : Nat) (u s : State), s.writes rq (Reg.PART_XLT_INV_CTRL p.val) = true →
      bitOf (s.reg (Reg.PART_XLT_INV_CTRL p.val)) 31 = false → bitOf v 1 = false → u = s.store (Reg.PART_XLT_INV_CTRL p.val) v →
      n = 4096 * 2 ^ min 45 (u.regF (Reg.PART_XLT_INV_CTRL p.val) 21 16) → b = u.reg64 (Reg.PART_XLT_INV_VA_LO p.val) % 2 ^ 57 / n * n →
      Completes (.xltInvalidate rq p v) s fun t => t = ((u.dropXlt p.val b n).setRegF (Reg.PART_XLT_INV_CTRL p.val) 31 31 1).modPart p.val
        (fun pt => { pt with xltGen := (u.part p.val).xltGen + 1, inval := some ⟨(u.part p.val).xltGen + 1, b, n⟩ })) ∧
  (∀ (rq : Requester) (p : Fin 32) (v : Word) (u s : State), s.writes rq (Reg.PART_XLT_INV_CTRL p.val) = true →
      bitOf (s.reg (Reg.PART_XLT_INV_CTRL p.val)) 31 = false → u = s.store (Reg.PART_XLT_INV_CTRL p.val) v →
      Completes (.xltInvalidateAll rq p v) s fun t => t = ((u.dropXlt p.val 0 (2 ^ 57)).setRegF (Reg.PART_XLT_INV_CTRL p.val) 31 31 1).modPart p.val
        (fun pt => { pt with xltGen := (u.part p.val).xltGen + 1, inval := some ⟨(u.part p.val).xltGen + 1, 0, 2 ^ 57⟩ })) ∧
  (∀ (p : Fin 32) (i : Inval) (s : State), (s.part p.val).inval = some i → (s.part p.val).cmds.any (fun c => c.pins.any i.holds) = false →
      Completes (.xltInvalidateDone p) s fun t => t = ((s.modPart p.val (fun pt => { pt with inval := none })).setRegF
        (Reg.PART_XLT_INV_CTRL p.val) 31 31 0).pcause p.val (Reg.PART_XLT_IRQ_CAUSE p.val) 1) ∧
  (∀ (p : Fin 32) (chute : Fin 64) (seq : Word) (c : Cmd) (s : State), s.cmd p.val chute.val seq.toNat = some c → c.phase = .queued →
      c.mustStop = false → s.atFault p.val c = none → s.nextInput p.val c = none → c.nextUnpinned (s.named p.val c) = none →
      Completes (.queueTimeTranslate p chute seq none) s fun t => t = s.modCmd p.val c.chute c.seq (fun c => { c with phase := .ready })) ∧
  (∀ (p : Fin 32) (chute : Fin 64) (seq : Word) (k : Control) (h : HeldFault) (s : State), s.controlOf p.val chute.val seq.toNat 2 = some k →
      (s.resumable p.val).find? (fun h => decide (h.id = k.arg 8 % 65536)) = some h →
      (k.arg 9 + 2 ^ 32 * k.arg 10 = 0 ∨ nfld (k.arg 9 + 2 ^ 32 * k.arg 10) 56 12 = nfld h.va 56 12) → nfld (k.arg 8) 16 16 = 0 →
      Completes (.resumeFault p chute seq) s fun t => t = (s.resumeOne p.val h).endControl p.val k stOk 1 []) ∧
  (∀ (p : Fin 32) (chute : Fin 64) (seq : Word) (k : Control) (s : State), s.controlOf p.val chute.val seq.toNat 2 = some k →
      (s.resumable p.val).find? (fun h => decide (h.id = k.arg 8 % 65536)) = none →
      Completes (.resumeFault p chute seq) s fun t => t = s.endControl p.val k stOk 0 []) ∧
  (∀ (p : Fin 32) (chute : Fin 64) (seq : Word) (c : Cmd) (s u : State), s.running p.val chute.val seq.toNat = some c → c.opcode = 0x10 →
      c.arg64 9 = 0 → c.sent = false → ScopeDone s p.val c u →
      Completes (.releaseFence p chute seq) s fun t => t = u.endCmd p.val c stOk 0 0) ∧
  (∀ (p : Fin 32) (chute : Fin 64) (seq : Word) (c : Cmd) (x : List (Nat × Nat)) (s u : State), s.running p.val chute.val seq.toNat = some c →
      c.opcode = 0x10 → c.arg64 9 ≠ 0 → c.arg64 9 % c.flagBytes = 0 → c.sent = false →
      ScopeDone s p.val c u → c.range (c.arg64 9) c.flagBytes acWrite = some x →
      Completes (.releaseFence p chute seq) s fun t =>
        t = (u.markSent p.val c).storeAll (c.agent p.val) (c.arg64 11 % 2 ^ (8 * c.flagBytes)) false x) ∧
  (∀ (p : Fin 32) (chute : Fin 64) (seq : Word) (c : Cmd) (s : State), s.running p.val chute.val seq.toNat = some c → c.opcode = 0x10 →
      c.arg64 9 % c.flagBytes = 0 → c.sent = true → c.unacked = 0 →
      Completes (.releaseFence p chute seq) s fun t => t = s.endCmd p.val c stOk 0 0)

/-- For every state in which the part runs and every logical device: (1) MEM_RD that passes the port check, with good fields and no error found,
reaches the home as RD, RDS_H or OWN_H by its MetaValue, as RD where no host state is kept; (2) one that does not pass it is a violation and
answers zero data; (3) MEM_RD_DATA is RDS_H; (4) MEM_INV with MetaValue I and MEM_CLN_EVCT are CLN_H where host state is kept; (5) elsewhere they
only complete; (6) MEM_INV with S or A is RDS_H or OWN_H without data; (7) MEM_WR is WB_H where the entry shows the host E and WR elsewhere; (8)
after the release point a MEM_WR of a line held E is absorbed, as is (17) MEM_CLN_EVCT, while (18) MEM_INV with I is a violation; (9) MEM_SPEC_RD
does nothing; (10) MEM_RD_FWD answers zeros and (11) MEM_WR_FWD completes, each counted; (12) BI_RSP of a line in a round that awaits its host,
with kind I, ends the host's part; (13) of a line without an entry it is a protocol error; (14) BI_CONFLICT is acknowledged at once; (15)
BI_TIMEOUT of an overdue response sets the cause and records it, and the home goes on waiting; (16) CONFLICT_QUEUE_ACCEPT accepts the first
request that waits on a stable line, held neither for a mirror nor for a test of its stack. -/
def Obligations.HostRequests : Prop :=
  (∀ (ld : Fin 34) (tag o : Nat) (hpa : BitVec 64) (mv : Fin 3) (r : HomeReq) (s u : State), s.portCheck ld.val hpa.toNat = some o →
      u = s.cxlRequest ld.val hpa.toNat false 0 64 → u.portCheck ld.val hpa.toNat = some o →
      r = hostReq ld.val tag (o / 64) (if u.hdmDb ld.val then (if mv.val = 0 then .rd else if mv.val = 1 then .rdsH else .ownH) else .rd) true →
      u.homeOpen r.line = true → Completes (.memRd ld tag hpa mv true none) s fun t => t = u.request r) ∧
  (∀ (ld : Fin 34) (tag : Nat) (hpa : BitVec 64) (s u : State), s.portCheck ld.val hpa.toNat = none →
      u = s.cxlRequest ld.val hpa.toNat false 0 64 → u.portCheck ld.val hpa.toNat = none →
      Completes (.memRd ld tag hpa 0 true none) s fun t =>
        t = (u.violateMem (hostSource ld.val tag) false (((u.decode ld.val hpa.toNat).map (fun o => u.node * 2 ^ 40 + o)).getD (hpa.toNat % 2 ^ 52))).emit
          (.hostResp (hostSource ld.val tag) "MemData" (some 0) false)) ∧
  (∀ (ld : Fin 34) (tag o : Nat) (hpa : BitVec 64) (r : HomeReq) (s u : State), u = s.cxlRequest ld.val hpa.toNat false 0 64 →
      u.portCheck ld.val hpa.toNat = some o → r = hostReq ld.val tag (o / 64) (if u.hdmDb ld.val then .rdsH else .rd) true → u.homeOpen r.line = true →
      Completes (.memRdData ld tag hpa true) s fun t => t = u.request r) ∧
  (∀ (i : Fin 34 → Nat → BitVec 64 → Instr), i ∈ [(fun ld tag hpa => Instr.memInv ld tag hpa 0 true), (fun ld tag hpa => Instr.memClnEvct ld tag hpa true)] →
      ∀ (ld : Fin 34) (tag o : Nat) (hpa : BitVec 64) (s u : State), u = s.cxlRequest ld.val hpa.toNat false 0 0 → u.portCheck ld.val hpa.toNat = some o →
      u.hdmDb ld.val = true → Completes (i ld tag hpa) s fun t => t = u.request (hostReq ld.val tag (o / 64) .clnH false)) ∧
  (∀ (i : Fin 34 → Nat → BitVec 64 → Instr), i ∈ [(fun ld tag hpa => Instr.memInv ld tag hpa 0 true), (fun ld tag hpa => Instr.memClnEvct ld tag hpa true)] →
      ∀ (ld : Fin 34) (tag o : Nat) (hpa : BitVec 64) (s u : State), u = s.cxlRequest ld.val hpa.toNat false 0 0 → u.portCheck ld.val hpa.toNat = some o →
      u.hdmDb ld.val = false → Completes (i ld tag hpa) s fun t => t = u.emit (.hostResp (hostSource ld.val tag) "Cmp" none false)) ∧
  (∀ (ld : Fin 34) (tag o : Nat) (hpa : BitVec 64) (mv : Fin 3) (r : HomeReq) (s u : State), mv.val ≠ 0 → s.hdmDb ld.val = true →
      u = s.cxlRequest ld.val hpa.toNat false 0 0 → u.portCheck ld.val hpa.toNat = some o → u.hdmDb ld.val = true →
      r = hostReq ld.val tag (o / 64) (if mv.val = 1 then .rdsH else .ownH) false → u.homeOpen r.line = true →
      Completes (.memInv ld tag hpa mv true) s fun t => t = u.request r) ∧
  (∀ (ld : Fin 34) (tag o : Nat) (hpa : BitVec 64) (mv : Fin 3) (mask : BitVec 64) (data : Line) (poison : Bool) (r : HomeReq) (s u : State),
      u = s.cxlRequest ld.val hpa.toNat true 64 0 → u.portCheck ld.val hpa.toNat = some o →
      r = { hostReq ld.val tag (o / 64) (if u.hdmDb ld.val && u.showsE ld.val (o / 64) then .wbH else .wr) false with
            mask := mask.toNat, data := data.toNat, poison := poison, keep := mv.val } →
      ((u.hdmDb ld.val && u.showsE ld.val (o / 64)) || u.homeOpen r.line) = true →
      Completes (.memWr ld tag hpa mv mask data poison true) s fun t => t = u.request r) ∧
  (∀ (ld : Fin 34) (tag o : Nat) (hpa : BitVec 64) (mv : Fin 3) (mask : BitVec 64) (data : Line) (poison ok : Bool) (s u : State),
      u = s.cxlRequest ld.val hpa.toNat true 64 0 → u.portCheck ld.val hpa.toNat = none → u.decode ld.val hpa.toNat = some o →
      (u.pastRelease ld.val o && u.showsE ld.val (o / 64)) = true →
      Completes (.memWr ld tag hpa mv mask data poison ok) s fun t => t = u.emit (.hostResp (hostSource ld.val tag) "Cmp" none false)) ∧
  (∀ (ld : Fin 34) (hpa : BitVec 64) (s : State), Completes (.memSpecRd ld hpa) s fun t => t = s) ∧
  (∀ (ld : Fin 34) (tag : Nat) (hpa : BitVec 64) (s : State), Completes (.memRdFwd ld tag hpa) s fun t =>
      t = (s.lineErr ((s.decode ld.val hpa.toNat).getD 0 / 64) 10 (hostSource ld.val 0)).emit (.hostResp (hostSource ld.val tag) "MemData" (some 0) false)) ∧
  (∀ (ld : Fin 34) (tag : Nat) (hpa : BitVec 64) (s : State), Completes (.memWrFwd ld tag hpa) s fun t =>
      t = (s.lineErr ((s.decode ld.val hpa.toNat).getD 0 / 64) 10 (hostSource ld.val 0)).emit (.hostResp (hostSource ld.val tag) "Cmp" none false)) ∧
  (∀ (ld : Fin 34) (line : BitVec 34) (e : DirEntry) (x : Trans) (s : State), s.dirEntry line.toNat = some e → e.trans = some x → x.hostDue = true →
      x.rcl = false → Completes (.biRsp ld line 0) s fun t =>
        t = ((s.setEntry line.toNat (some { e with host := 0, trans := some { x with hostDue := false } })).checkRound line.toNat).afterLine line.toNat) ∧
  (∀ (ld : Fin 34) (line : BitVec 34) (kind : Fin 3) (s : State), s.dirEntry line.toNat = none →
      Completes (.biRsp ld line kind) s fun t => t = s.lineErr line.toNat 7 (.host ld.val 0)) ∧
  (∀ (ld : Fin 34) (line : BitVec 34) (s : State), Completes (.biConflict ld line) s fun t => t = s.emit (.biSnp ld.val "BIConflictAck" line.toNat)) ∧
  (∀ (line : BitVec 34) (e : DirEntry) (x : Trans) (s : State), s.dirEntry line.toNat = some e → e.trans = some x → x.hostDue = true → x.timedOut = false →
      max 1 (s.regN (Reg.DIR_BI_TIMEOUT (s.lineHub line.toNat))) < s.lcc - x.since →
      Completes (.biTimeout line) s fun t => t = ((s.setEntry line.toNat (some { e with trans := some { x with timedOut := true } })).cause
        (Reg.DIR_IRQ_CAUSE (s.lineHub line.toNat)) 4).report 3 0x0005 11 (e.ld / 16) none 0 [64 * line.toNat % 2 ^ 32, 64 * line.toNat / 2 ^ 32, e.ld]) ∧
  (∀ (line : BitVec 34) (r : HomeReq) (s : State), s.homes.queue.find? (fun q => decide (q.line = line.toNat)) = some r → s.dirEntry line.toNat = none →
      s.holdsAt (64 * line.toNat) = false → s.stackTested line.toNat = false →
      Completes (.conflictQueueAccept line) s fun t =>
        t = ((s.modHomes (fun h => { h with queue := h.queue.erase r })).accept r).afterLine line.toNat) ∧
  (∀ (ld : Fin 34) (tag o : Nat) (hpa : BitVec 64) (ok : Bool) (s u : State), u = s.cxlRequest ld.val hpa.toNat false 0 0 →
      u.portCheck ld.val hpa.toNat = none → u.decode ld.val hpa.toNat = some o → (u.pastRelease ld.val o && u.showsE ld.val (o / 64)) = true →
      Completes (.memClnEvct ld tag hpa ok) s fun t => t = u.emit (.hostResp (hostSource ld.val tag) "Cmp" none false)) ∧
  (∀ (ld : Fin 34) (tag o : Nat) (hpa : BitVec 64) (s u : State), u = s.cxlRequest ld.val hpa.toNat false 0 0 →
      u.portCheck ld.val hpa.toNat = none → u.decode ld.val hpa.toNat = some o →
      Completes (.memInv ld tag hpa 0 true) s fun t => t = (u.violateMem (hostSource ld.val tag) false (u.node * 2 ^ 40 + o)).emit
        (.hostResp (hostSource ld.val tag) "Cmp" none false))

/-- For every state in which the part runs and every packet of the coherence protocol of the row's type. A home that can take it: (1) RD, WR and
WRP, not windowed, are taken and served; (2) windowed ones go through their window first; (3) ATOM with an operation of R238 likewise, (4) with
another is discarded and counted; (5) a combined packet is taken and its constituents are handled one after another. (6) MWR goes through its
window and is recorded, applied or refused by the mirror entry. An answer to a request of this node: (7) RDATA without a fill, (8) WACK and (9)
NAK complete it, whoever waits gets the value and the status, and what it held back may go (R226); (10) MACK of a forwarded write acknowledges its
writer, (11) with PROMOTED it fences a SYNCED or HELD primary. (12) PINV of a line that is neither held nor being filled is answered PINVACK; (13)
of a held copy it drops and counts it first. (14) PINVACK is taken to the line's round. (15) A packet of no type of R215's table, for a line of
this node, is discarded and counted at the hub. -/
def Obligations.PeerPackets : Prop :=
  (∀ (i : Packet → Instr) (n : Nat), (i, n) ∈ [((fun k => Instr.rd k none 0), 0x01), (Instr.wr, 0x02), (Instr.wrp, 0x03)] →
      ∀ (k : Packet) (s : State), k.proto = 1 → k.typ = n → s.canTake k = true → k.isWindowed = false →
      Completes (i k) s fun t => t = (s.receive k).serveRequest k) ∧
  (∀ (i : Packet → Instr) (n : Nat), (i, n) ∈ [((fun k => Instr.rd k none 0), 0x01), (Instr.wr, 0x02), (Instr.wrp, 0x03)] →
      ∀ (k : Packet) (s : State), k.proto = 1 → k.typ = n → s.canTake k = true → k.isWindowed = true →
      Completes (i k) s fun t =>
        t = (s.receive k).windowed k ((s.receive k).winSource k) k.orig.2 (fun s => s.serveRequest k)) ∧
  (∀ (k : Packet) (s : State) (x : AtomOp × Nat), k.proto = 1 → k.typ = 0x04 → s.canTake k = true → AtomOp.ofCode k.atomOp = some x → k.isWindowed = true →
      Completes (.atom k) s fun t => t = (s.receive k).windowed k ((s.receive k).winSource k) k.orig.2 (fun s => s.serveRequest k)) ∧
  (∀ (k : Packet) (s u : State), k.proto = 1 → k.typ = 0x04 → s.canTake k = true → AtomOp.ofCode k.atomOp = none → u = s.receive k →
      Completes (.atom k) s fun t => t = u.protoErr (u.lineHub k.line) (u.lineState k.line) 9 k.src 0) ∧
  (∀ (k : Packet) (s : State), k.proto = 1 → k.combined = true → s.canTake k = true →
      Completes (.combinedPacket k) s fun t => t = (k.constituents.map k.constituent).foldl (fun s c => s.handleRequest c) (s.receive k)) ∧
  (∀ (k : Packet) (s : State), k.proto = 1 → k.typ = 0x05 → Completes (.mwr k) s fun t => t = s.handleMwr k) ∧
  (∀ (k : Packet) (r : OutReq) (s u : State), k.proto = 1 → k.typ = 0x10 → u = s.receive k → u.awaiting k 2 = some r → r.pkt.fill = false →
      Completes (.rdata k 0) s fun t => t = ((u.complete r).answerWaiter r k.data k.poison k.status).settleStalled) ∧
  (∀ (k : Packet) (r : OutReq) (s u : State), k.proto = 1 → k.typ = 0x11 → u = s.receive k →
      u.awaiting k (if k.atomOp ≠ 0 then 3 else 2) = some r →
      Completes (.wack k) s fun t => t = ((u.complete r).answerWaiter r (pairAt k.body 8) k.poison k.status).settleStalled) ∧
  (∀ (k : Packet) (r : OutReq) (s u : State), k.proto = 1 → k.typ = 0x12 → u = s.receive k →
      u.awaiting k (if k.atomOp ≠ 0 then 3 else 2) = some r →
      Completes (.nak k) s fun t => t = ((u.complete r).answerWaiter r 0 false k.status).settleStalled) ∧
  (∀ (k : Packet) (r : OutReq) (id : Nat) (a : MirrorAck) (s u v : State), k.proto = 1 → k.typ = 0x13 → u = s.receive k → u.awaiting k 4 = some r →
      v = u.complete r → r.waiter = .mirror id → v.mirrors.acks.find? (fun a => decide (a.id = id)) = some a → k.status ≠ stAlreadyDone →
      Completes (.mack k) s fun t =>
        t = (({ v with mirrors := { v.mirrors with acks := v.mirrors.acks.filter (fun b => !decide (b.id = id)) } } : State).ackStore a.req a.prior).settleStalled) ∧
  (∀ (k : Packet) (r : OutReq) (id : Nat) (a : MirrorAck) (s u v : State), k.proto = 1 → k.typ = 0x13 → u = s.receive k → u.awaiting k 4 = some r →
      v = u.complete r → r.waiter = .mirror id → v.mirrors.acks.find? (fun a => decide (a.id = id)) = some a → k.status = stAlreadyDone →
      ((v.mirror a.entry).state = 1 ∨ (v.mirror a.entry).state = 2) →
      Completes (.mack k) s fun t => t = (v.fence a.entry).settleStalled) ∧
  (∀ (k : Packet) (s u : State), k.proto = 1 → k.typ = 0x20 → u = s.receive k → u.remoteLine k.addr = none → u.fab.reqs = [] →
      Completes (.pinv k) s fun t => t = u.respond k 1 1 2 (cohHeader 0x21 k.comp 0 k.addr false false false false k.invId 0 0 0 0)) ∧
  (∀ (k : Packet) (l : RemoteLine) (s u v : State), k.proto = 1 → k.typ = 0x20 → u = s.receive k → u.remoteLine k.addr = some l →
      v = (u.setRemoteLine k.addr none).count (Reg.DIR_RLC_INV (rlcHub k.addr)) 1 → v.fab.reqs = [] →
      Completes (.pinv k) s fun t => t = v.respond k 1 1 2 (cohHeader 0x21 k.comp 0 k.addr false false false true k.invId 0 0 0 0)) ∧
  (∀ (k : Packet) (r : OutReq) (s u : State), k.proto = 1 → k.typ = 0x21 → u = s.receive k → u.awaiting k 1 = some r →
      k.addr / 2 ^ 40 = (u.complete r).node → k.addr % 2 ^ 40 < Config.t1Bytes →
      Completes (.pinvack k) s fun t => t = ((u.complete r).pinvAcked k.line k.src k.invId).settleStalled) ∧
  (∀ (k : Packet) (s u : State), k.proto = 1 → knownTypes.contains k.typ = false → u = s.receive k → k.addr / 2 ^ 40 = u.node →
      k.addr % 2 ^ 40 < Config.t1Bytes →
      Completes (.unknownTypeDiscard k) s fun t => t = u.protoErr (u.lineHub k.line) (u.lineState k.line) 9 k.src 0)

/-- For every state in which the part runs: (1) HOST_LOST loses the sixteen logical devices of a port and its FM-owned device, and drops their
pending ranges; (2) DIR_HOST_LOST_GO by a requester that may write it, while no scan runs, loses the one it names; (3) while one runs it is
ignored; (4) HOST_LOST_SCAN_DONE ends the scan, sets both hubs' causes and records devices and lines; (5) DIR_PEEK of a line without an entry
shows four words of zero; (6) of a line of the hub with an entry it shows the entry; (7) EXTENT_RELEASE_POINT of an extent takes its partition's
access away as the shared operation says; EXTENT_RELEASE_COMPLETE, with no admitted request left in it, (8) first releases its directory entries
and (9) then zeroes it, removes it and sets the port's cause. -/
def Obligations.HostLossAndRelease : Prop :=
  (∀ (h : Fin 2) (s : State), Completes (.hostLost h) s fun t => t = (s.hostsLost (portLds h.val ++ [32 + h.val])).dropPending (portLds h.val)) ∧
  (∀ (rq : Requester) (v : Word) (ld : Nat) (s u : State), s.writes rq (Reg.DIR_HOST_LOST 0) = true → u = s.store (Reg.DIR_HOST_LOST 0) v →
      u.scanBusy = false → ld = u.regF (Reg.DIR_HOST_LOST 0) 4 4 * 16 + u.regF (Reg.DIR_HOST_LOST 0) 3 0 →
      Completes (.dirHostLostGo rq v) s fun t => t = (u.hostsLost [ld]).dropPending [ld]) ∧
  (∀ (rq : Requester) (v : Word) (s u : State), s.writes rq (Reg.DIR_HOST_LOST 0) = true → u = s.store (Reg.DIR_HOST_LOST 0) v →
      u.scanBusy = true → Completes (.dirHostLostGo rq v) s fun t => t = u) ∧
  (∀ (s : State), s.homes.scanning = true → Completes .hostLostScanDone s fun t =>
      t = (((s.modHomes (fun h => { h with scanning := false, scanHosts := 0, scanLines := 0 })).cause (Reg.DIR_IRQ_CAUSE 0) 8).cause
        (Reg.DIR_IRQ_CAUSE 1) 8).report 4 0x0006 11 (if s.homes.scanHosts % 65536 = 0 then 1 else 0) none 0 [s.homes.scanHosts, s.homes.scanLines]) ∧
  (∀ (rq : Requester) (h : Fin 2) (v : Word) (l : Nat) (s u : State), s.writes rq (Reg.DIR_PEEK_ADDR_HI h.val) = true → u = s.pairDone rq (Reg.DIR_PEEK_ADDR_HI h.val) v →
      l = u.reg64 (Reg.DIR_PEEK_ADDR_LO h.val) % 2 ^ 40 / 64 → u.dirEntry l = none →
      Completes (.dirPeek rq h v) s fun t => t = (((u.setRegN (Reg.DIR_PEEK_DATA h.val 0) 0).setRegN (Reg.DIR_PEEK_DATA h.val 1) 0).setRegN
        (Reg.DIR_PEEK_DATA h.val 2) 0).setRegN (Reg.DIR_PEEK_DATA h.val 3) 0) ∧
  (∀ (rq : Requester) (h : Fin 2) (v : Word) (l : Nat) (e : DirEntry) (s u : State), s.writes rq (Reg.DIR_PEEK_ADDR_HI h.val) = true → u = s.pairDone rq (Reg.DIR_PEEK_ADDR_HI h.val) v →
      l = u.reg64 (Reg.DIR_PEEK_ADDR_LO h.val) % 2 ^ 40 / 64 → u.dirEntry l = some e → u.lineHub l = h.val →
      Completes (.dirPeek rq h v) s fun t => t = (List.range 4).foldl (fun s i => s.setRegN (Reg.DIR_PEEK_DATA h.val i) (wordAt (e.words l) i)) u) ∧
  (∀ (i : Nat) (e : Extent) (s : State), s.extents[i]? = some e → Completes (.extentReleasePoint i) s fun t => t = s.releasePoint e.part e.range) ∧
  (∀ (i : Nat) (e : Extent) (s : State), s.extents[i]? = some e → e.state = .releasing → s.busyIn e.part e.range = false → s.entriesIn e.range ≠ [] →
      Completes (.extentReleaseComplete i) s fun t => t = s.releaseEntries e.range) ∧
  (∀ (i : Nat) (e : Extent) (s : State), s.extents[i]? = some e → e.state = .releasing → s.busyIn e.part e.range = false → s.entriesIn e.range = [] →
      Completes (.extentReleaseComplete i) s fun t =>
        t = (({ s with extents := s.extents.eraseIdx i } : State).t1Zero e.range).cause (Reg.CXL_IRQ_CAUSE (e.part / 16)) 32)

/-- For every state in which the part runs: (1) a request with its composition is sent, a store or atomic with the next number of the node's
writes; (2) a reading command without a composition, that is not a MSG_SEND, ends STALE_EPOCH. On an open port (3) a flit beyond correction is
counted, sets the cause and asks for a replay; (4) one with a bad CRC adds its corrections, is counted and asks for a replay; (5) one in sequence,
with no replay asked, is acknowledged, gives credit and is accepted; (6) ACK_TIMEOUT with kept flits replays them. PORT_TRANSMIT, no word of a
buffer wrong, (7) sends the flit of the slots that the packets which follow fill; (8) where nothing has credit and packets wait on chip it counts
a stall and sends IDLE; (15) sends IDLE while 512 flits are unacknowledged; (16) sends the TAG of an encrypted port's group of seven. (9)
COMBINE_HOLD_EXPIRE lets the heads of a class and channel go alone. (10) SPILL_RETURN brings the first packet that can leave staging back on chip.
(11) PACKET_AGED of an old head discards it, counts it and sets the cause. (12) REQUEST_TIMEOUT of an overdue request is a failed attempt; (13) so
is PATH_LOST for a request that has not been tried again; (14) an attempt that failed twice ends TARGET_LOST. -/
def Obligations.FabricRequestsAndFlits : Prop :=
  (∀ (r : FabReq) (s : State), r.lacksComp = false → Completes (.fabricRequestSend r) s fun t =>
      t = (if r.proto = 1 ∧ (wordAt r.body 0 % 256 = 0x02 ∨ wordAt r.body 0 % 256 = 0x03 ∨ wordAt r.body 0 % 256 = 0x04)
        then s.numbered.sendOrLose { r with wid := s.homes.nextWrite } else s.sendOrLose r)) ∧
  (∀ (r : FabReq) (p c q : Nat) (s : State), r.lacksComp = true → s.sendsMsg r.waiter = false → r.waiter = .cmd p c q → wordAt r.body 0 % 256 = 0x01 →
      Completes (.fabricRequestSend r) s fun t => t = s.failCmd p c q stStaleEpoch) ∧
  (∀ (l : Fin 12) (f : BitVec 2048) (ue : Option (Fin 64)) (n lost : Nat) (s : State), s.portOpen l.val = true → fecReceive f.toNat = (none, n, lost) →
      Completes (.flitReceive l f ue) s fun t => t = (((s.count64 (Reg.LNK_FEC_CORR_LO l.val) n).count (Reg.LNK_FEC_UNCORR l.val) lost).cause (Reg.LNK_IRQ_CAUSE l.val) 4).nakFlit l.val) ∧
  (∀ (l : Fin 12) (f : BitVec 2048) (ue : Option (Fin 64)) (x : Flit) (n lost : Nat) (s : State), s.portOpen l.val = true → fecReceive f.toNat = (some x, n, lost) →
      x.crcOk = false → Completes (.flitReceive l f ue) s fun t =>
        t = ((s.count64 (Reg.LNK_FEC_CORR_LO l.val) n).count (Reg.LNK_CRC_ERR l.val) 1).nakFlit l.val) ∧
  (∀ (l : Fin 12) (f : BitVec 2048) (ue : Option (Fin 64)) (x : Flit) (n lost : Nat) (s u : State), s.portOpen l.val = true → fecReceive f.toNat = (some x, n, lost) →
      x.crcOk = true → nfld x.header 38 38 = 0 →
      u = (((s.count64 (Reg.LNK_FEC_CORR_LO l.val) n).takeAck l.val x).takeCredit l.val (nfld x.header 35 31) (nfld x.header 30 22)).takeCredit l.val
        (nfld x.header 21 17) (nfld x.header 16 8) → u.portOpen l.val = true → (x.kind = 0 ∨ x.kind = 3) →
      nfld x.header 63 52 = (u.port l.val).expect → Completes (.flitReceive l f ue) s fun t => t = u.acceptFlit l.val x (ue.map (·.val))) ∧
  (∀ (l : Fin 12) (s : State), s.portOpen l.val = true → (s.port l.val).replay ≠ [] → Completes (.ackTimeout l) s fun t => t = s.replayAll l.val) ∧
  (∀ (l : Fin 12) (slots : List (List Nat)) (start : Nat) (ended : List Packet) (s u : State), s.portOpen l.val = true → (s.port l.val).replay.length < 512 →
      ((s.port l.val).sent.length < 7 ∨ s.regF (Reg.LNK_STATUS l.val) 27 27 = 0) → s.fillFlit l.val 64 [] 0 [] = (u, slots, start, ended) → slots ≠ [] →
      Completes (.portTransmit l 0) s fun t => t = u.sendData l.val slots start ended) ∧
  (∀ (l : Fin 12) (start : Nat) (ended : List Packet) (s u : State), s.portOpen l.val = true → (s.port l.val).replay.length < 512 →
      s.regF (Reg.LNK_STATUS l.val) 27 27 = 0 → s.fillFlit l.val 64 [] 0 [] = (u, [], start, ended) → (u.port l.val).queue.any (·.onChip) = true →
      Completes (.portTransmit l 0) s fun t => t = (u.count (Reg.LNK_CRD_STALL l.val) 1).emitFlit l.val 0 1 0 []) ∧
  (∀ (l : Fin 12) (tc : Fin 8) (vc : Fin 2) (s : State), Completes (.combineHoldExpire l tc vc) s fun t =>
      t = s.modPort l.val (fun q => { q with queue := q.queue.map (fun e => if (s.heads l.val tc.val vc.val).contains e then { e with holdOver := true } else e) })) ∧
  (∀ (l : Fin 12) (e : QEntry) (p : Place) (s u : State), (s.port l.val).offChip.findSome? (fun e => (s.returnTo l.val e).map (fun p => (e, p))) = some (e, p) →
      e.place = .staged → p ≠ .spill → u = (s.leaveStaging e).replaceEntry l.val e { e with place := p, pkt := e.pkt } →
      Completes (.spillReturn l false) s fun t => t = u.combineAll l.val (u.port l.val).queue.length) ∧
  (∀ (l : Fin 12) (i : Nat) (e : QEntry) (s : State), (s.port l.val).queue[i]? = some e →
      (s.port l.val).queue.find? (fun x => x.inSub e.pkt.tc e.pkt.vc e.acct) = some e → s.ageLimit < s.lcc - e.since →
      Completes (.packetAged l i) s fun t => t = (((s.takeEntry l.val e).leaveStaging e).count (Reg.SW_AGED (l.val / 3)) 1).cause
        (Reg.SW_IRQ_CAUSE (l.val / 3)) 4) ∧
  (∀ (dst : Fin 4096) (tc : Fin 8) (seq : Word) (r : OutReq) (s : State), s.outstanding dst.val tc.val seq.toNat = some r → s.requestTimeout < s.lcc - r.sentAt →
      Completes (.requestTimeout dst tc seq) s fun t => t = (s.attemptFailed r).settleStalled) ∧
  (∀ (k lost : Packet) (r : OutReq) (s u : State), k.tkind = 2 → u = s.receive k → lost = Packet.ofWords k.body → lost.tkind = 0 →
      u.outstanding lost.dst lost.tc lost.seq = some r → r.retried = false → Completes (.pathLost k) s fun t => t = (u.attemptFailed r).settleStalled) ∧
  (∀ (dst : Fin 4096) (tc : Fin 8) (seq : Word) (r : OutReq) (s : State), s.outstanding dst.val tc.val seq.toNat = some r → s.requestTimeout < s.lcc - r.sentAt →
      r.retried = true → Completes (.requestTimeout dst tc seq) s fun t => t = (s.endLost r).settleStalled) ∧
  (∀ (l : Fin 12) (s : State), s.portOpen l.val = true → 512 ≤ (s.port l.val).replay.length →
      Completes (.portTransmit l 0) s fun t => t = s.emitFlit l.val 0 1 0 []) ∧
  (∀ (l : Fin 12) (s : State), s.portOpen l.val = true → (s.port l.val).replay.length < 512 → 7 ≤ (s.port l.val).sent.length →
      s.regF (Reg.LNK_STATUS l.val) 27 27 = 1 → Completes (.portTransmit l 0) s fun t => t = s.sendTag l.val)

/-- For every state in which the part runs and every port: LINK_ENABLE, LINK_DISABLE and LINK_DRAIN by a requester that may write LNK_CTRL, none
of the other two set with it, (1) enable the port, (2) disable it, (3) drain it; (4) one that sets a second of the three writes the mode only. (5)
TRAINING_PASS of a port that trains without encryption brings it up; (6) one with encryption and a leaf left also authenticates, and comes up; (7)
one whose peer fails goes DOWN with its reason; (8) without a leaf with reason 4; (9) of a port that does not train it does nothing. (10)
TRAINING_FAIL takes a training port DOWN with cause 3. (11) LINK_QUIET takes a draining port whose queues and replay buffer are empty, with no
packet half sent, to OFF and sets the cause. -/
def Obligations.LinkStates : Prop :=
  (∀ (rq : Requester) (l : Fin 12) (v : Word) (s : State), s.writes rq (Reg.LNK_CTRL l.val) = true → fld (v ||| 1) 2 0 = 1 →
      Completes (.linkEnable rq l v) s fun t => t = (s.store (Reg.LNK_CTRL l.val) (v ||| 1)).linkEnable l.val) ∧
  (∀ (rq : Requester) (l : Fin 12) (v : Word) (s : State), s.writes rq (Reg.LNK_CTRL l.val) = true → fld (v ||| 2) 2 0 = 2 →
      Completes (.linkDisable rq l v) s fun t => t = (s.store (Reg.LNK_CTRL l.val) (v ||| 2)).linkDisable l.val) ∧
  (∀ (rq : Requester) (l : Fin 12) (v : Word) (s : State), s.writes rq (Reg.LNK_CTRL l.val) = true → fld (v ||| 4) 2 0 = 4 →
      Completes (.linkDrain rq l v) s fun t => t = (s.store (Reg.LNK_CTRL l.val) (v ||| 4)).linkDrain l.val) ∧
  (∀ (rq : Requester) (l : Fin 12) (v : Word) (s : State), s.writes rq (Reg.LNK_CTRL l.val) = true →
      (fld (v ||| 1) 2 0 = 3 ∨ fld (v ||| 1) 2 0 = 5 ∨ fld (v ||| 1) 2 0 = 7) →
      Completes (.linkEnable rq l v) s fun t => t = s.store (Reg.LNK_CTRL l.val) (v ||| 1)) ∧
  (∀ (l : Fin 12) (x : Trained) (s : State), s.link l.val = 1 → s.regF (Reg.LNK_CTRL l.val) 4 4 = 0 →
      Completes (.trainingPass l x) s fun t => t = s.linkUp l.val x) ∧
  (∀ (l : Fin 12) (x : Trained) (n : Nat) (s u : State), s.link l.val = 1 → s.regF (Reg.LNK_CTRL l.val) 4 4 = 1 → s.useLeaf = some (n, u) → x.fail = 0 →
      Completes (.trainingPass l x) s fun t => t = u.linkUp l.val x) ∧
  (∀ (l : Fin 12) (x : Trained) (n : Nat) (s u : State), s.link l.val = 1 → s.regF (Reg.LNK_CTRL l.val) 4 4 = 1 → s.useLeaf = some (n, u) → x.fail ≠ 0 →
      Completes (.trainingPass l x) s fun t => t = u.authFail l.val x.fail.val) ∧
  (∀ (l : Fin 12) (x : Trained) (s : State), s.link l.val = 1 → s.regF (Reg.LNK_CTRL l.val) 4 4 = 1 → s.useLeaf = none →
      Completes (.trainingPass l x) s fun t => t = s.authFail l.val 4) ∧
  (∀ (l : Fin 12) (x : Trained) (s : State), s.link l.val ≠ 1 → Completes (.trainingPass l x) s fun t => t = s) ∧
  (∀ (l : Fin 12) (s : State), s.link l.val = 1 → Completes (.trainingFail l) s fun t => t = s.linkDown l.val 3) ∧
  (∀ (l : Fin 12) (s : State), s.link l.val = 3 → (s.port l.val).queue = [] → (s.port l.val).replay = [] → (s.port l.val).current = none →
      Completes (.linkQuiet l) s fun t => t = ((s.setLink l.val 0).setRegF (Reg.LNK_STATUS l.val) 23 16 0).cause (Reg.LNK_IRQ_CAUSE l.val) 32)

/-- For every state in which the part runs (the layout of a message's packets is the model's choice, log entry 23): (1) MSG_SEND of a running
command that has not begun, of 1 byte to 1 MiB, to a node that exists or another cell, takes the next message number and sends OPEN; (2) of any
other length it ends UNSUPPORTED_FORMAT; (3) once begun it sends what data there is to send. (4) MSG_OPEN for a partition that takes it, with
room, reserves its lines and answers ACCEPT; (5) without room it counts it refused and answers FULL; (6) for one that does not take it, it is a
violation and answers DONE. At the sender (7) MSG_ACCEPT lets the data follow, (8) MSG_FULL ends the command RESERVATION with detail 1, (9)
MSG_DONE ends it OK with the length. (10) MSG_DATA of an open message writes its bytes behind the header line; (11) MAILBOX_DELIVER of the first
message of a mailbox, with all its data written and its header line free, writes the header, advances the mailbox, counts it and answers DONE. -/
def Obligations.Messages : Prop :=
  (∀ (p : Fin 32) (chute : Fin 64) (seq : Word) (c : Cmd) (s : State), s.running p.val chute.val seq.toNat = some c → c.opcode = 0x0F → c.aux = [] →
      0 < c.msgLen → c.msgLen ≤ 2 ^ 20 → (c.msgDst.1 ≠ s.cell ∨ s.nodeExists c.msgDst.2 = true) →
      Completes (.msgSend p chute seq) s fun t =>
        t = ((s.modFab (fun x => { x with nextMsg := (s.fab.nextMsg + 1) % 2 ^ 32 })).setAux p.val c 0 [1, s.fab.nextMsg]).unitSend
          (c.msgReq p.val 2 s.fab.nextMsg [1, c.msgLen, c.arg 13, c.arg 14, nfld (c.arg 8) 9 5 * 2 ^ 16 + nfld (c.arg 9) 31 16, 0, 0, 0])) ∧
  (∀ (p : Fin 32) (chute : Fin 64) (seq : Word) (c : Cmd) (s : State), s.running p.val chute.val seq.toNat = some c → c.opcode = 0x0F → c.aux = [] →
      (c.msgLen = 0 ∨ 2 ^ 20 < c.msgLen) → Completes (.msgSend p chute seq) s fun t => t = s.endCmd p.val c stUnsupported 0 0) ∧
  (∀ (p : Fin 32) (chute : Fin 64) (seq : Word) (c : Cmd) (s : State), s.running p.val chute.val seq.toNat = some c → c.opcode = 0x0F → c.aux ≠ [] →
      Completes (.msgSend p chute seq) s fun t => t = s.msgSendData p.val c.chute c.seq 4097) ∧
  (∀ (k : Packet) (p n need pad : Nat) (s u v : State), k.isMsg 1 = true → k.tkind = 0 → u = s.receive k → p = wordAt k.body 4 / 2 ^ 16 →
      u.mboxTakes p (wordAt k.body 4 % 2 ^ 16) = true → n = u.mboxLines p → need = 1 + (wordAt k.body 1 + 63) / 64 →
      pad = (if n < u.mboxNext p + need then n - u.mboxNext p else 0) → pad + need ≤ (u.regN (Reg.PART_MBOX_HEAD p) + n - u.mboxNext p - 1) % n →
      v = (if pad = 0 then u else u.mboxHeader p (u.mboxNext p) 0 0xFFFFFFFF 0) →
      Completes (.msgOpen k) s fun t => t = (v.modFab (fun x => { x with inbound := x.inbound ++
        [{ req := k, part := p, line := if pad = 0 then u.mboxNext p else 0, lines := need, len := wordAt k.body 1, imm := pairAt k.body 2, got := 0,
           since := v.lcc }] })).msgReply k 2) ∧
  (∀ (k : Packet) (p n need pad : Nat) (s u : State), k.isMsg 1 = true → k.tkind = 0 → u = s.receive k → p = wordAt k.body 4 / 2 ^ 16 →
      u.mboxTakes p (wordAt k.body 4 % 2 ^ 16) = true → n = u.mboxLines p → need = 1 + (wordAt k.body 1 + 63) / 64 →
      pad = (if n < u.mboxNext p + need then n - u.mboxNext p else 0) → (u.regN (Reg.PART_MBOX_HEAD p) + n - u.mboxNext p - 1) % n < pad + need →
      Completes (.msgOpen k) s fun t => t = (u.count (Reg.PART_MBOX_REFUSED p) 1).msgReply k 3) ∧
  (∀ (k : Packet) (s u : State), k.isMsg 1 = true → k.tkind = 0 → u = s.receive k →
      u.mboxTakes (wordAt k.body 4 / 2 ^ 16) (wordAt k.body 4 % 2 ^ 16) = false →
      Completes (.msgOpen k) s fun t => t = (u.violateMem (.peer k.src k.tc k.seq) true 0).msgReply k 5) ∧
  (∀ (k : Packet) (p : Nat) (c : Cmd) (s u : State), k.isMsg 2 = true → k.tkind ≠ 0 → u = s.receive k → u.msgOf k = some (p, c) →
      Completes (.msgAccept k) s fun t => t = ((u.msgComplete p c).setAux p c 0 [2, c.auxAt 1]).msgSendData p c.chute c.seq 4097) ∧
  (∀ (k : Packet) (p : Nat) (c : Cmd) (s u : State), k.isMsg 3 = true → k.tkind ≠ 0 → u = s.receive k → u.msgOf k = some (p, c) →
      Completes (.msgFull k) s fun t => t = (u.msgComplete p c).endCmd p c stReservation 0 1) ∧
  (∀ (k : Packet) (p : Nat) (c : Cmd) (s u : State), k.isMsg 5 = true → k.tkind ≠ 0 → u = s.receive k → u.msgOf k = some (p, c) →
      Completes (.msgDone k) s fun t => t = (u.msgComplete p c).endCmd p c stOk c.msgLen 0) ∧
  (∀ (k : Packet) (m : Inbound) (n : Nat) (s u v : State), k.isMsg 4 = true → k.tkind = 0 → u = s.receive k →
      u.fab.inbound.find? (fun m => m.isOf k.srcCell k.src k.msgId) = some m → n = min 256 (m.len - wordAt k.body 1) →
      v = u.postBytes .device (((u.part m.part).ring mboxRing).range.base + 64 * (m.line + 1) + wordAt k.body 1) n
        (wordsVal (k.body.drop 8) % 2 ^ (8 * n)) false →
      Completes (.msgData k) s fun t => t = v.modFab (fun x => { x with inbound := x.inbound.map (fun y =>
        if y.isOf k.srcCell k.src k.msgId then { y with got := y.got + n, since := v.lcc } else y) })) ∧
  (∀ (srcCell : Fin 1024) (srcNode : Fin 4096) (msgId : Word) (m : Inbound) (a : Nat) (s u : State),
      s.fab.inbound.find? (fun m => m.isOf srcCell.val srcNode.val msgId.toNat) = some m →
      s.fab.inbound.find? (fun y => decide (y.part = m.part)) = some m → m.len ≤ m.got →
      a = ((s.part m.part).ring mboxRing).range.base + 64 * m.line → (linesOf a (64 * m.lines)).all s.lineQuiet = true → s.writable (a / 64) = true →
      u = (s.mboxHeader m.part m.line m.word m.len m.imm).mboxAdvance m → u.regF (Reg.PART_MBOX_SEM m.part) 31 31 = 0 →
      Completes (.mailboxDeliver srcCell srcNode msgId) s fun t => t = (u.count (Reg.PART_MBOX_DELIVERED m.part) 1).msgReply m.req 5)

/-- For every state in which the part runs: (1) ROW_DIR_ENABLE by a requester that may write it, while the directory is not ready, answers what
the checks of R33 find. For a command that runs on its row unit with nothing that stops it (AtUnit): (2) EMB_LOOKUP of a usable table with legal
arguments begins; (3) with illegal ones it ends UNSUPPORTED_FORMAT; (4) begun, a bag whose lines are there is looked up, and (5) after the last it
ends with its counts. (6) CONTRIBUTE of a HASHED table with 1 to 2^20 items begins, (7) begun it takes its next stage, (8) after the last item it
ends; (9) of a COLUMN table it ends UNSUPPORTED_FORMAT. (10) APPLY begins by counting the records that are not of its step; (11) begun it takes
its next stage; (12) with nothing left it ends. (13) CRIB_AGE of a Crib whose increments have reached the period halves its counters and counts
it. ARENA_RECORD_FORWARD (14) first takes an index at the current home's arena, (15) where its target was lost or refused drops the record, and
(16) after its last stage counts it and acknowledges the writer. -/
def Obligations.EmbeddingRows : Prop :=
  (∀ (rq : Requester) (p : Fin 32) (v : Word) (s u : State), s.writes rq (Reg.PART_ROW_DIR_CTRL p.val) = true →
      u = s.store (Reg.PART_ROW_DIR_CTRL p.val) (v ||| 1) → ((u.part p.val).ring dirRing).ready = false →
      Completes (.rowDirEnable rq p v) s fun t => t = u.dirAnswer p.val dirRing (Reg.PART_ROW_DIR_CTRL p.val) ⟨u.ringBase p.val dirRing, 0x8000⟩
        (u.ringCheck p.val dirRing true 15 15 15 ⟨u.ringBase p.val dirRing, 0x8000⟩ ⟨0, 0⟩)) ∧
  (∀ (p : Fin 32) (chute : Fin 64) (seq : Word) (errs : List (Nat × Bool)) (c : Cmd) (s : State), AtUnit s p.val chute.val seq.toNat 0x04 .row c → c.aux = [] →
      s.converting p.val c = false → c.table.ok = true → c.lookupOk = true →
      Completes (.embLookup p chute seq errs) s fun t => t = s.setAux p.val c 0 [0, 0, 0]) ∧
  (∀ (p : Fin 32) (chute : Fin 64) (seq : Word) (errs : List (Nat × Bool)) (c : Cmd) (s : State), AtUnit s p.val chute.val seq.toNat 0x04 .row c → c.aux = [] →
      s.converting p.val c = false → c.table.ok = true → c.lookupOk = false →
      Completes (.embLookup p chute seq errs) s fun t => t = s.endCmd p.val c stUnsupported 0 0) ∧
  (∀ (p : Fin 32) (chute : Fin 64) (seq : Word) (errs : List (Nat × Bool)) (c d : Cmd) (n : Nat) (s u : State), AtUnit s p.val chute.val seq.toNat 0x04 .row c →
      c.aux ≠ [] → c.progress < c.arg 9 → n = s.cribGenOf p.val c.tableNo + 1 →
      d = (if s.quietFor p.val c then { c with aux := setVal c.aux 2 n } else c) →
      Does (s.setAux p.val d d.progress d.aux) (Work.bag p.val d (decide (d.auxAt 2 = n)) errs) u →
      Completes (.embLookup p chute seq errs) s fun t => t = u) ∧
  (∀ (p : Fin 32) (chute : Fin 64) (seq : Word) (errs : List (Nat × Bool)) (c : Cmd) (s : State), AtUnit s p.val chute.val seq.toNat 0x04 .row c → c.aux ≠ [] →
      c.arg 9 ≤ c.progress → Completes (.embLookup p chute seq errs) s fun t =>
        t = s.endCmd p.val c (poisonStatus (c.auxAt 1)) c.partialResult.1 c.partialResult.2) ∧
  (∀ (p : Fin 32) (chute : Fin 64) (seq : Word) (c : Cmd) (s : State), AtUnit s p.val chute.val seq.toNat 0x05 .row c → c.aux = [] → nfld (c.arg 8) 23 22 = 0 →
      s.converting p.val c = false → c.table.ok = true → c.table.column = false → 0 < c.arg 12 → c.arg 12 ≤ 2 ^ 20 →
      Completes (.contribute p chute seq) s fun t => t = s.setAux p.val c 0 [0, 0, 0, 0, 0, 0]) ∧
  (∀ (p : Fin 32) (chute : Fin 64) (seq : Word) (c : Cmd) (s : State), AtUnit s p.val chute.val seq.toNat 0x05 .row c → c.aux ≠ [] → nfld (c.arg 8) 23 22 = 0 →
      c.progress < c.arg 12 → Completes (.contribute p chute seq) s fun t => t = s.contribute p.val c) ∧
  (∀ (p : Fin 32) (chute : Fin 64) (seq : Word) (c : Cmd) (s : State), AtUnit s p.val chute.val seq.toNat 0x05 .row c → c.aux ≠ [] → nfld (c.arg 8) 23 22 = 0 →
      c.arg 12 ≤ c.progress → Completes (.contribute p chute seq) s fun t =>
        t = s.endCmd p.val c (poisonStatus (c.auxAt 5)) c.partialResult.1 c.partialResult.2) ∧
  (∀ (p : Fin 32) (chute : Fin 64) (seq : Word) (c : Cmd) (s : State), AtUnit s p.val chute.val seq.toNat 0x05 .row c → c.aux = [] → nfld (c.arg 8) 23 22 ≠ 1 →
      s.converting p.val c = false → c.table.ok = true → c.table.column = true →
      Completes (.contribute p chute seq) s fun t => t = s.endCmd p.val c stUnsupported 0 0) ∧
  (∀ (p : Fin 32) (chute : Fin 64) (seq : Word) (c : Cmd) (s : State), AtUnit s p.val chute.val seq.toNat 0x05 .row c → c.aux = [] → nfld (c.arg 8) 23 22 = 1 →
      s.converting p.val c = false → c.table.ok = true → Completes (.apply p chute seq) s fun t => t = s.applyStart p.val c) ∧
  (∀ (p : Fin 32) (chute : Fin 64) (seq : Word) (c : Cmd) (s : State), AtUnit s p.val chute.val seq.toNat 0x05 .row c → c.aux ≠ [] → nfld (c.arg 8) 23 22 = 1 →
      Completes (.apply p chute seq) s fun t => t = s.applyStep p.val c) ∧
  (∀ (p : Fin 32) (chute : Fin 64) (seq : Word) (c : Cmd) (s : State), AtUnit s p.val chute.val seq.toNat 0x05 .row c → c.aux ≠ [] → nfld (c.arg 8) 23 22 = 1 →
      c.auxAt 2 = 5 → Completes (.apply p chute seq) s fun t => t = s.endCmd p.val c (poisonStatus (c.auxAt 3)) c.partialResult.1 c.partialResult.2) ∧
  (∀ (h : Fin 2) (n : Nat) (s : State), n = 1024 * max 1 (s.regF (Reg.ROW_CRIB_CTRL h.val) 15 0) → n ≤ (s.crib h.val).incs →
      Completes (.cribAge h) s fun t => t = (s.modCrib h.val (fun x =>
        { x with incs := x.incs - n, sketch := (x.sketch.map (fun e => (e.1, e.2 / 2))).filter (fun e => decide (e.2 ≠ 0)) })).count (Reg.ROW_CRIB_AGINGS h.val) 1) ∧
  (∀ (id : Nat) (f : Forward) (d : Table) (s : State), s.forwards.find? (fun f => decide (f.id = id)) = some f → s.fwdWaits id = false → f.stage = 0 →
      s.fab.arrivals = [] → d = s.tableNow f.part f.table →
      Completes (.arenaRecordForward id) s fun t => t = s.unitSend ((s.fwdAgent f d).atomReq (f.node * 2 ^ 40 + d.arena f.parity) 0x02 1 0)) ∧
  (∀ (id : Nat) (f : Forward) (s : State), s.forwards.find? (fun f => decide (f.id = id)) = some f → s.fwdWaits id = false →
      ((s.fab.arrivals.filter (fun a => decide (a.waiter = .fwd id))).any (fun a => decide (a.status ≠ 0))) = true →
      Completes (.arenaRecordForward id) s fun t =>
        t = s.dropForward f (wordAt (s.t1Words (64 * f.req.line) 16) 0) (wordAt (s.t1Words (64 * f.req.line) 16) 3)) ∧
  (∀ (id : Nat) (f : Forward) (s : State), s.forwards.find? (fun f => decide (f.id = id)) = some f → s.fwdWaits id = false → f.stage = 2 →
      s.fab.arrivals = [] → Completes (.arenaRecordForward id) s fun t => t = (s.count (Reg.PART_ROW_FWD f.part) 1).endForward f)

/-- For every state in which the part runs. For a command that runs on its row unit with nothing that stops it (AtUnit): (1) EMB_CONVERT to the
layout the table has ends OK; (2) to another legal one it begins; (3) begun and at its last stage it ends; (4) between, a piece of work whose
lines are there is done. (5) HOTSET_REFRESH of a Crib table in mode 0 or 2 discards the table's entries in the Cribs and ends OK; (6) begun, a
position whose lines are there is dealt with; (7) after the last it ends with its counts. MIGRATE_ROW (8) begins with the checks of R282 and the
entries it will use; (9) changes the row from NORMAL, or for a row already moved from REDIRECTED, to COPYING by compare-and-swap, then writes the
redirect entry; (14) with its copies acknowledged, no committed record of the row in either arena and no APPLY at work on it, is ready for the
cutover; (10) that must stop while the row is COPYING undoes step 1. (11) MIGRATE_CUTOVER, with both arenas quiet, writes the entry or leaves it
for a row that goes home; (12) at its end counts the row and ends OK with a free result. (13) DEPARTED_LAPSE of a DEPARTED entry whose time has
come empties it. -/
def Obligations.RowsAcrossNodes : Prop :=
  (∀ (p : Fin 32) (chute : Fin 64) (seq : Word) (c : Cmd) (s : State), AtUnit s p.val chute.val seq.toNat 0x06 .row c → c.aux = [] →
      s.converting p.val c = false → c.table.ok = true → c.newTable.column = c.table.column →
      Completes (.embConvert p chute seq) s fun t => t = s.endCmd p.val c stOk 0 0) ∧
  (∀ (p : Fin 32) (chute : Fin 64) (seq : Word) (c : Cmd) (s : State), AtUnit s p.val chute.val seq.toNat 0x06 .row c → c.aux = [] →
      s.converting p.val c = false → c.table.ok = true → c.newTable.column ≠ c.table.column → c.newTable.ok = true →
      Completes (.embConvert p chute seq) s fun t => t = s.setAux p.val c 0 [0, 0, 0]) ∧
  (∀ (p : Fin 32) (chute : Fin 64) (seq : Word) (c : Cmd) (s : State), AtUnit s p.val chute.val seq.toNat 0x06 .row c → c.aux ≠ [] → c.auxAt 2 = 3 →
      Completes (.embConvert p chute seq) s fun t => t = s.endCmd p.val c (poisonStatus (c.auxAt 1)) c.partialResult.1 c.partialResult.2) ∧
  (∀ (p : Fin 32) (chute : Fin 64) (seq : Word) (c : Cmd) (s u : State), AtUnit s p.val chute.val seq.toNat 0x06 .row c → c.aux ≠ [] → c.auxAt 2 ≠ 3 →
      (c.auxAt 2 ≠ 0 ∨ c.progress < c.newSlots) →
      Does s (Work.convert p.val c (s.shardPlace c) (s.node * 2 ^ 40) ((s.part p.val).ring dirRing).range.base) u →
      Completes (.embConvert p chute seq) s fun t => t = u) ∧
  (∀ (p : Fin 32) (chute : Fin 64) (seq : Word) (c : Cmd) (s : State), AtUnit s p.val chute.val seq.toNat 0x11 .row c → c.aux = [] →
      s.converting p.val c = false → c.table.ok = true → c.table.column = false → c.table.cache = 1 → (c.arg 8 % 4 = 1 ∨ c.arg 8 % 4 = 2) →
      Completes (.hotsetRefresh p chute seq) s fun t => t = (s.cribDrop p.val (some c.tableNo)).endCmd p.val c stOk 0 0) ∧
  (∀ (p : Fin 32) (chute : Fin 64) (seq : Word) (c : Cmd) (s u : State), AtUnit s p.val chute.val seq.toNat 0x11 .row c → c.aux ≠ [] →
      c.progress < c.table.hotCount → c.unacked = 0 → Does s (Work.refresh p.val c) u →
      Completes (.hotsetRefresh p chute seq) s fun t => t = u) ∧
  (∀ (p : Fin 32) (chute : Fin 64) (seq : Word) (c : Cmd) (s : State), AtUnit s p.val chute.val seq.toNat 0x11 .row c → c.aux ≠ [] →
      c.table.hotCount ≤ c.progress → Completes (.hotsetRefresh p chute seq) s fun t =>
        t = s.endCmd p.val c (poisonStatus (c.auxAt 3)) c.partialResult.1 c.partialResult.2) ∧
  (∀ (p : Fin 32) (chute : Fin 64) (seq : Word) (c : Cmd) (s u : State), AtUnit s p.val chute.val seq.toNat 0x12 .row c → c.aux = [] →
      s.converting p.val c = false → c.table.ok = true → Does s (Work.migrateStart p.val c) u →
      Completes (.migrateRow p chute seq) s fun t => t = u) ∧
  (∀ (p : Fin 32) (chute : Fin 64) (seq : Word) (c : Cmd) (s : State), AtUnit s p.val chute.val seq.toNat 0x12 .row c → c.aux ≠ [] → c.auxAt 2 = 1 →
      Completes (.migrateRow p chute seq) s fun t =>
        t = s.swapState p.val c c.migRow (fun st => decide (st = if c.auxAt 3 = 1 then 3 else 0)) 2
          (fun s => (s.storeAll (c.agent p.val) (redirWords c.migRow 1 s.node c.migNode (c.auxAt 1) c.migSlot) false [(c.auxAt 0, 16)]).setAux p.val c 0
            (setVal (setVal c.aux 2 3) 5 0)) (fun s => s.endCmd p.val c stStaleEpoch 0 2)) ∧
  (∀ (p : Fin 32) (chute : Fin 64) (seq : Word) (c : Cmd) (s u v w : State), AtUnit s p.val chute.val seq.toNat 0x12 .row c → c.aux ≠ [] → c.auxAt 2 = 4 →
      (c.deadline = 0 ∨ s.lcc ≤ c.deadline) → Does s (Work.settled c) u → Work.arenasQuiet p.val c (s.node * 2 ^ 40) u = .ok (true, v) →
      v.applying p.val c = false → Does v (Work.next p.val c 0 (setVal (setVal c.aux 2 6) 5 0)) w →
      Completes (.migrateRow p chute seq) s fun t => t = w) ∧
  (∀ (p : Fin 32) (chute : Fin 64) (seq : Word) (c : Cmd) (s : State), s.cmd p.val chute.val seq.toNat = some c → c.opcode = 0x12 → c.phase = .running →
      c.aux ≠ [] → 2 ≤ c.auxAt 2 → c.auxAt 2 < 6 → c.mustStop = true →
      Completes (.migrateRow p chute seq) s fun t =>
        t = s.setAux p.val c 0 (setVal (setVal (setVal (setVal c.aux 2 20) 5 0) 6 stAborted) 7 0)) ∧
  (∀ (p : Fin 32) (chute : Fin 64) (seq : Word) (c : Cmd) (s u : State), s.cmd p.val chute.val seq.toNat = some c → c.opcode = 0x12 → c.phase = .running →
      c.auxAt 2 = 6 → c.migNode ≠ c.hashHome c.migRow → Work.arenasQuiet p.val c (s.node * 2 ^ 40) s = .ok (true, u) →
      Completes (.migrateCutover p chute seq) s fun t => t = ((u.storeAll (c.agent p.val) (redirWords c.migRow 1 c.migNode 0 c.migSlot 0) false
        [(c.auxAt 0, 16)]).workDone p.val c).setAux p.val c 0 (setVal (setVal c.aux 2 7) 5 0)) ∧
  (∀ (p : Fin 32) (chute : Fin 64) (seq : Word) (c : Cmd) (v : Nat) (s u : State), s.cmd p.val chute.val seq.toNat = some c → c.opcode = 0x12 → c.phase = .running →
      c.auxAt 2 = 9 → c.unacked = 0 → (s.count (Reg.ROW_MIGRATED c.runUnit) 1).draw = (v, u) →
      Completes (.migrateCutover p chute seq) s fun t => t = u.endCmd p.val c stOk v 0) ∧
  (∀ (p : Fin 32) (n : Fin 256) (i : Fin 1048576) (d : Table) (a : Nat) (s : State), d = s.tableNow p.val n.val → a = d.redirOff + 16 * i.val →
      ((s.part p.val).ring dirRing).ready = true → d.ok = true → i.val < 2 ^ d.redirLog2 → nfld (wordAt (s.t1Words a 4) 1) 31 30 = 2 →
      serialLe (wordAt (s.t1Words a 4) 3) (s.lcc % 2 ^ 32) = true →
      Completes (.departedLapse p n i) s fun t => t = s.request (HomeReq.store .device (a / 64) ((2 ^ 16 - 1) * 2 ^ (a % 64)) 0 false))

/-- For every state in which the part runs: (1) WIN_DIR_ENABLE that sets enable, on a directory not ready, answers what its checks find; (2) one
that clears it unloads every index. While PART_WIN_IDX_CTRL is not busy, (3) INDEX_LOAD loads the index it names, (4) INDEX_UNLOAD of a loaded one
begins to unload it, (5) of another shows err 4; (6) INDEX_UNLOAD_DONE with no command left that names it lets it go. For a command that runs on
its Winnower with nothing that stops it (AtUnit), on a loaded index: (7) SEARCH with legal arguments begins, (8) a query whose lines are there is
answered, (9) after the last it ends; (10) an uncorrectable word during a query is dealt with as R320 says. INDEX_INSERT and INDEX_DELETE (11)
with legal arguments take the open epoch as their stamp, (12) do their next item, and (13) after the last, without publish, end OK. (14)
INDEX_COMPACT with a legal floor and range begins, (15) with an older floor ends STALE_EPOCH, (16) begun does its next coarse partition. (17)
EPOCH_PUBLISH of the oldest closed epoch below the limit publishes it, sets the cause and ends its command; (18) at the limit it ends it
RESERVATION. (19) BLOCK_SEAL counts a Loft block that is written; (20) after the last it seals the block. (21) DEFERRED_ALLOCATION tries a waiting
insert again. -/
def Obligations.Indexes : Prop :=
  (∀ (rq : Requester) (p : Fin 32) (v : Word) (s u : State), s.writes rq (Reg.PART_WIN_DIR_CTRL p.val) = true → bitOf v 0 = true →
      u = s.store (Reg.PART_WIN_DIR_CTRL p.val) v → ((u.part p.val).ring winRing).ready = false →
      Completes (.winDirEnable rq p v) s fun t => t = u.dirAnswer p.val winRing (Reg.PART_WIN_DIR_CTRL p.val) ⟨u.ringBase p.val winRing, 0x2000⟩
        (u.ringCheck p.val winRing true 13 13 13 ⟨u.ringBase p.val winRing, 0x2000⟩ ⟨0, 0⟩)) ∧
  (∀ (rq : Requester) (p : Fin 32) (v : Word) (s u : State), s.writes rq (Reg.PART_WIN_DIR_CTRL p.val) = true → bitOf v 0 = false →
      u = s.store (Reg.PART_WIN_DIR_CTRL p.val) v →
      Completes (.winDirEnable rq p v) s fun t =>
        t = ((u.unloadAll p.val).modRing p.val winRing (fun _ => Ring.none)).setRegF (Reg.PART_WIN_DIR_CTRL p.val) 31 31 0) ∧
  (∀ (rq : Requester) (p : Fin 32) (v : Word) (s : State), s.writes rq (Reg.PART_WIN_IDX_CTRL p.val) = true → s.regF (Reg.PART_WIN_IDX_CTRL p.val) 31 31 = 0 →
      Completes (.indexLoad rq p v) s fun t => t = (s.store (Reg.PART_WIN_IDX_CTRL p.val) v).load p.val (fld v 5 0)) ∧
  (∀ (rq : Requester) (p : Fin 32) (v : Word) (x : VecIndex) (s u : State), s.writes rq (Reg.PART_WIN_IDX_CTRL p.val) = true →
      s.regF (Reg.PART_WIN_IDX_CTRL p.val) 31 31 = 0 → u = s.store (Reg.PART_WIN_IDX_CTRL p.val) v → u.index p.val (fld v 5 0) = some x →
      Completes (.indexUnload rq p v) s fun t => t = (u.setRegF (Reg.PART_WIN_IDX_CTRL p.val) 30 28 0).beginUnload p.val (fld v 5 0)) ∧
  (∀ (rq : Requester) (p : Fin 32) (v : Word) (s u : State), s.writes rq (Reg.PART_WIN_IDX_CTRL p.val) = true →
      s.regF (Reg.PART_WIN_IDX_CTRL p.val) 31 31 = 0 → u = s.store (Reg.PART_WIN_IDX_CTRL p.val) v → u.index p.val (fld v 5 0) = none →
      Completes (.indexUnload rq p v) s fun t => t = u.setRegF (Reg.PART_WIN_IDX_CTRL p.val) 30 28 4) ∧
  (∀ (p : Fin 32) (i : Fin 64) (x : VecIndex) (n : Nat) (s : State), s.index p.val i.val = some x → x.unloadAt = some n → s.indexUsers p.val i.val n = false →
      Completes (.indexUnloadDone p i) s fun t =>
        t = (((s.indexBack p.val i.val).setIndex p.val i.val none).showLoaded p.val i.val false).showBusy p.val) ∧
  (∀ (p : Fin 32) (chute : Fin 64) (seq : Word) (sram : Fin 3) (c : Cmd) (x : VecIndex) (s : State), AtUnit s p.val chute.val seq.toNat 0x07 .win c →
      s.indexOf p.val c = some x → c.aux = [] → c.arg 9 ≠ 0 → c.arg 9 ≤ 65536 → c.arg 14 % 64 = 0 →
      Completes (.search p chute seq sram) s fun t => t = s.setAux p.val c 0 [0, 0, 0, 0, 0, 0]) ∧
  (∀ (p : Fin 32) (chute : Fin 64) (seq : Word) (c : Cmd) (x : VecIndex) (s u : State), AtUnit s p.val chute.val seq.toNat 0x07 .win c →
      s.indexOf p.val c = some x → c.aux ≠ [] → c.progress < c.arg 9 → Does s (Work.searchQuery p.val c x) u →
      Completes (.search p chute seq 0) s fun t => t = u) ∧
  (∀ (p : Fin 32) (chute : Fin 64) (seq : Word) (sram : Fin 3) (c : Cmd) (x : VecIndex) (s : State), AtUnit s p.val chute.val seq.toNat 0x07 .win c →
      s.indexOf p.val c = some x → c.aux ≠ [] → c.arg 9 ≤ c.progress →
      Completes (.search p chute seq sram) s fun t => t = s.endCmd p.val c (c.auxAt 1) c.partialResult.1 c.partialResult.2) ∧
  (∀ (p : Fin 32) (chute : Fin 64) (seq : Word) (c : Cmd) (x : VecIndex) (s : State), AtUnit s p.val chute.val seq.toNat 0x07 .win c →
      s.indexOf p.val c = some x → c.aux ≠ [] → c.progress < c.arg 9 → c.auxAt 2 = 1 →
      Completes (.search p chute seq 2) s fun t => t = s.winnowerError p.val c) ∧
  (∀ (i : Fin 32 → Fin 64 → Word → Instr) (op : Nat), (i, op) ∈ [(Instr.indexInsert, 0x08), (Instr.indexDelete, 0x09)] →
      ∀ (p : Fin 32) (chute : Fin 64) (seq : Word) (c : Cmd) (x : VecIndex) (s : State), AtUnit s p.val chute.val seq.toNat op .win c →
      s.indexOf p.val c = some x → c.aux = [] → c.itemsOk = true →
      Completes (i p chute seq) s fun t => t = s.setAux p.val c 0 [0, x.openEpoch, 0, 0, 0, 0, 0]) ∧
  (∀ (i : Fin 32 → Fin 64 → Word → Instr) (op : Nat) (w : Nat → Cmd → VecIndex → Work Unit),
        (i, op, w) ∈ [(Instr.indexInsert, 0x08, Work.insertBegin), (Instr.indexDelete, 0x09, Work.deleteItem)] →
      ∀ (p : Fin 32) (chute : Fin 64) (seq : Word) (c : Cmd) (x : VecIndex) (s u : State), AtUnit s p.val chute.val seq.toNat op .win c →
      s.indexOf p.val c = some x → c.aux ≠ [] → c.progress < c.arg 9 → c.auxAt 2 = 0 → c.auxAt 6 = 0 → c.unacked = 0 → Does s (w p.val c x) u →
      Completes (i p chute seq) s fun t => t = u) ∧
  (∀ (i : Fin 32 → Fin 64 → Word → Instr) (op : Nat), (i, op) ∈ [(Instr.indexInsert, 0x08), (Instr.indexDelete, 0x09)] →
      ∀ (p : Fin 32) (chute : Fin 64) (seq : Word) (c : Cmd) (x : VecIndex) (s : State), AtUnit s p.val chute.val seq.toNat op .win c →
      s.indexOf p.val c = some x → c.aux ≠ [] → c.arg 9 ≤ c.progress → c.auxAt 2 = 0 → c.auxAt 6 = 0 → nfld (c.arg 8) 25 25 = 0 → c.unacked = 0 →
      x.sealing c = false → Completes (i p chute seq) s fun t => t = s.endCmd p.val c stOk c.partialResult.1 c.partialResult.2) ∧
  (∀ (p : Fin 32) (chute : Fin 64) (seq : Word) (c : Cmd) (x : VecIndex) (n : Nat) (s : State), AtUnit s p.val chute.val seq.toNat 0x0A .win c →
      s.indexOf p.val c = some x → c.aux = [] → epochOlder (c.arg 9) x.floor = false → epochOlder x.pub (c.arg 9) = false → n = nfld (c.arg 11) 16 0 →
      0 < n → n ≤ 65536 → c.arg 10 % 65536 + n ≤ x.cparts →
      Completes (.indexCompact p chute seq) s fun t =>
        t = (s.modHub p.val c (fun x => { x with floor := c.arg 9 })).setAux p.val c 0 [0, c.arg 9, 0, 0, 0, 0, 0]) ∧
  (∀ (p : Fin 32) (chute : Fin 64) (seq : Word) (c : Cmd) (x : VecIndex) (s : State), AtUnit s p.val chute.val seq.toNat 0x0A .win c →
      s.indexOf p.val c = some x → c.aux = [] → epochOlder (c.arg 9) x.floor = true →
      Completes (.indexCompact p chute seq) s fun t => t = s.endCmd p.val c stStaleEpoch 0 0) ∧
  (∀ (p : Fin 32) (chute : Fin 64) (seq : Word) (c : Cmd) (x : VecIndex) (s u : State), AtUnit s p.val chute.val seq.toNat 0x0A .win c →
      s.indexOf p.val c = some x → c.aux ≠ [] → c.auxAt 6 = 0 → s.noOlderQuery p.val c.indexNo (c.auxAt 1) = true → c.auxAt 2 = 0 →
      c.progress < nfld (c.arg 11) 16 0 → Does s (Work.compactBegin p.val c x) u →
      Completes (.indexCompact p chute seq) s fun t => t = u) ∧
  (∀ (p : Fin 32) (i : Fin 64) (x : VecIndex) (e chute seq : Nat) (l : List (Nat × Nat × Nat)) (c : Cmd) (s u : State), s.index p.val i.val = some x →
      x.closed = (e, chute, seq) :: l → s.stampedRunning p.val i.val e x = false → u = s.setIndex p.val i.val (some { x with closed := l }) →
      u.cmd p.val chute seq = some c → (e + 2 ^ 32 - x.oldest) % 2 ^ 32 < 2 ^ 30 →
      Completes (.epochPublish p i) s fun t => t = ((u.modHub p.val c (fun x => { x with pub := e })).pcause p.val (Reg.PART_WIN_IRQ_CAUSE p.val) 1).endCmd p.val c
        stOk (c.progress + 2 ^ 32 * e) c.partialResult.2) ∧
  (∀ (p : Fin 32) (i : Fin 64) (x : VecIndex) (e chute seq : Nat) (l : List (Nat × Nat × Nat)) (c : Cmd) (s u : State), s.index p.val i.val = some x →
      x.closed = (e, chute, seq) :: l → s.stampedRunning p.val i.val e x = false → u = s.setIndex p.val i.val (some { x with closed := l }) →
      u.cmd p.val chute seq = some c → 2 ^ 30 ≤ (e + 2 ^ 32 - x.oldest) % 2 ^ 32 →
      Completes (.epochPublish p i) s fun t => t = (u.pcause p.val (Reg.PART_WIN_IRQ_CAUSE p.val) 8).endCmd p.val c stReservation c.partialResult.1
        c.partialResult.2) ∧
  (∀ (p : Fin 32) (i : Fin 64) (block : Word) (x : VecIndex) (z : Seal) (c : Cmd) (y : Arrival) (s u : State), s.index p.val i.val = some x →
      x.seals.find? (fun z => decide (z.block = block.toNat)) = some z → s.cmd p.val z.chute z.cmd = some c → z.next * loftBytes < x.vbytes * 256 →
      s.takeArrival (.cmd p.val c.chute c.seq) (loftWriteKey (x.vecAt z.block 0 + z.next * loftBytes)) = some (y, u) → y.status = 0 →
      Completes (.blockSeal p i block) s fun t => t = u.modIndex p.val c (fun x => { x with seals := x.seals.flatMap (fun y =>
        if y = z then [{ y with next := y.next + 1 }] else [y]) })) ∧
  (∀ (p : Fin 32) (i : Fin 64) (block : Word) (x : VecIndex) (z : Seal) (c : Cmd) (s u : State), s.index p.val i.val = some x →
      x.seals.find? (fun z => decide (z.block = block.toNat)) = some z → s.cmd p.val z.chute z.cmd = some c → x.vbytes * 256 ≤ z.next * loftBytes →
      u = s.storeAll (c.agent p.val) (2 ^ 31 + 256) false [(s.node * 2 ^ 40 + (x.blockAt z.block + 4), 4)] →
      Completes (.blockSeal p i block) s fun t => t = u.modIndex p.val c (fun x =>
        ({ x with seals := x.seals.flatMap (fun y => if y = z then [] else [y]) } : VecIndex).stopUsing [openKey z.cpart z.seq])) ∧
  (∀ (p : Fin 32) (chute : Fin 64) (seq : Word) (c : Cmd) (x : VecIndex) (s u : State), s.cmd p.val chute.val seq.toNat = some c → c.auxAt 6 = 1 →
      c.phase = .running → s.index p.val c.indexNo = some x → c.opcode = 0x08 → Does s (Work.insertBegin p.val { c with aux := setVal c.aux 6 0 } x) u →
      Completes (.deferredAllocation p chute seq) s fun t => t = u)

/-- For every state in which the part runs: (1) SEM_SIGNAL on a semaphore of the partition that is not poisoned adds, saturating, and ends OK with
the new value; (2) SET ends OK with the prior value; (3) ADD on a poisoned one ends POISON_READ; (4) on that of another node of the cell it sends
the message with the command's composition; (5) outside the partition's range it ends RESERVATION. (6) SEM_WAIT begins to wait; (7) WAIT_SATISFIED
of a command's wait ends it OK with the value seen, (8) of an engine's or (9) a core's lets it go on; (10) SEM_WAIT_TIMEOUT past max_wait of an
unsatisfied wait ends it DEADLINE with the value. (11) A write of the high word of PART_SEM_VAL sets the selected semaphore to the pair; (12)
outside the range it is a violation. A message that its window lets through and whose epoch check says run (Enters): (13) SEM_ADD and SEM_SET act
on the member partition's semaphore, (14) BAR_ARRIVE of a participant that is not the last is recorded and acknowledged, (15) BAR_RELEASE ends the
BARRIER that waits with its fields; (16) one that the check finds stale is refused. (17) BARRIER of a participant in the current epoch, with the
wait that scope_all asks for over (ScopeDone), sends its arrival to the barrier's home, and (18) without a composition ends STALE_EPOCH. -/
def Obligations.SemaphoresAndBarriers : Prop :=
  (∀ (p : Fin 32) (chute : Fin 64) (seq : Word) (c : Cmd) (i n : Nat) (s u : State), s.running p.val chute.val seq.toNat = some c → c.opcode = 0x0B →
      c.sent = false → nfld (c.arg 8) 31 31 = 0 → bitOf (BitVec.ofNat 32 (c.arg 8)) 30 = false → i = nfld (c.arg 8) 17 0 → s.semIn p.val i = true →
      s.semAdd p.val i (c.arg64 9) = (u, some n) → Completes (.semSignal p chute seq 0) s fun t => t = u.endCmd p.val c stOk n 0) ∧
  (∀ (p : Fin 32) (chute : Fin 64) (seq : Word) (c : Cmd) (i : Nat) (s : State), s.running p.val chute.val seq.toNat = some c → c.opcode = 0x0B →
      c.sent = false → nfld (c.arg 8) 31 31 = 0 → bitOf (BitVec.ofNat 32 (c.arg 8)) 30 = true → i = nfld (c.arg 8) 17 0 → s.semIn p.val i = true →
      Completes (.semSignal p chute seq 0) s fun t => t = ((s.semEvent p.val i 1).putSem i ⟨c.arg64 9 % 2 ^ 64, false⟩).endCmd p.val c stOk
        (if (s.sem i).poison then 0 else (s.sem i).value) 0) ∧
  (∀ (p : Fin 32) (chute : Fin 64) (seq : Word) (c : Cmd) (i : Nat) (s : State), s.running p.val chute.val seq.toNat = some c → c.opcode = 0x0B →
      c.sent = false → nfld (c.arg 8) 31 31 = 0 → bitOf (BitVec.ofNat 32 (c.arg 8)) 30 = false → i = nfld (c.arg 8) 17 0 → s.semIn p.val i = true →
      (s.sem i).poison = true → Completes (.semSignal p chute seq 0) s fun t => t = (s.semEvent p.val i 0).endCmd p.val c stPoison 0 0) ∧
  (∀ (p : Fin 32) (chute : Fin 64) (seq : Word) (c : Cmd) (s : State), s.running p.val chute.val seq.toNat = some c → c.opcode = 0x0B →
      c.sent = false → nfld (c.arg 8) 31 31 = 1 → nfld (c.arg 8) 29 18 ≠ s.node → s.nodeExists (nfld (c.arg 8) 29 18) = true → c.inComp = true → bitOf (BitVec.ofNat 32 (c.arg 8)) 30 = false →
      Completes (.semSignal p chute seq 0) s fun t => t = (s.markSent p.val c).unitSend (syncReq (nfld (c.arg 8) 29 18) syAdd c.compId c.compEpoch
        (nfld (c.arg 8) 17 0) p.val (c.arg64 9) p.val (.cmd p.val c.chute c.seq))) ∧
  (∀ (p : Fin 32) (chute : Fin 64) (seq : Word) (c : Cmd) (s : State), s.running p.val chute.val seq.toNat = some c → c.opcode = 0x0B →
      c.sent = false → nfld (c.arg 8) 31 31 = 0 → s.semIn p.val (nfld (c.arg 8) 17 0) = false →
      Completes (.semSignal p chute seq 0) s fun t => t = s.endCmd p.val c stReservation 0 0) ∧
  (∀ (p : Fin 32) (chute : Fin 64) (seq : Word) (c : Cmd) (i : Nat) (s : State), s.running p.val chute.val seq.toNat = some c → c.opcode = 0x0C →
      c.mustStop = false → i = nfld (c.arg 8) 17 0 → s.semIn p.val i = true → s.waitOf (.cmd p.val c.chute c.seq) = none →
      Completes (.semWait p chute seq 0) s fun t => t = s.semWait (.cmd p.val c.chute c.seq) p.val i (c.arg64 9)) ∧
  (∀ (p ch q n : Nat) (x : SemWait) (s : State), s.waitOf (.cmd p ch q) = some x → x.seen = some (some n) →
      Completes (.waitSatisfied (.cmd p ch q)) s fun t => t = ((s.semEvent x.part x.sem 2).endWait (.cmd p ch q)).finishRunning p ch q stOk n 0) ∧
  (∀ (e p n : Nat) (x : SemWait) (c : Cmd) (s u : State), s.waitOf (.me e) = some x → x.seen = some (some n) →
      u = (s.semEvent x.part x.sem 2).endWait (.me e) → u.program e = some (p, c) → wordAt (c.desc c.progress) 0 % 256 = 5 →
      Completes (.waitSatisfied (.me e)) s fun t => t = u.meDone p e c false 0 1) ∧
  (∀ (g p w len n : Nat) (x : SemWait) (c : Cmd) (s u : State), s.waitOf (.core g) = some x → x.seen = some (some n) →
      u = (s.semEvent x.part x.sem 2).endWait (.core g) → u.gcRun g = some (p, c) → (u.core g).instr = some (w, len) →
      Completes (.waitSatisfied (.core g)) s fun t => t = (u.modCore g (fun y => y.setX (iRd w) n)).retire p g 0) ∧
  (∀ (p : Fin 32) (chute : Fin 64) (seq : Word) (c : Cmd) (i : Nat) (x : SemWait) (s : State), s.running p.val chute.val seq.toNat = some c → c.opcode = 0x0C →
      i = nfld (c.arg 8) 17 0 → s.semIn p.val i = true → s.waitOf (.cmd p.val c.chute c.seq) = some x → x.seen = none → c.arg 11 ≠ 0 →
      c.arg 11 < s.lcc - c.auxAt 0 → Completes (.semWaitTimeout p chute seq) s fun t =>
        t = (s.endWait (.cmd p.val c.chute c.seq)).endCmd p.val c stDeadline (s.sem i).value 0) ∧
  (∀ (rq : Requester) (p : Fin 32) (v w : Word) (i : Nat) (s : State), s.writes rq (Reg.PART_SEM_VAL_HI p.val) = true →
      i = s.regF (Reg.PART_SEM_SEL p.val) 17 0 → s.semIn p.val i = true → s.heldLow rq (Reg.PART_SEM_VAL_HI p.val - 4) = some w →
      Completes (.semValWrite rq p v 0) s fun t =>
        t = ((s.setHeld rq (Reg.PART_SEM_VAL_HI p.val - 4) none).semSet p.val i (w.toNat + 2 ^ 32 * v.toNat)).1) ∧
  (∀ (rq : Requester) (p : Fin 32) (v : Word) (err : Fin 3) (s : State), s.writes rq (Reg.PART_SEM_VAL_HI p.val) = true →
      s.semIn p.val (s.regF (Reg.PART_SEM_SEL p.val) 17 0) = false →
      Completes (.semValWrite rq p v err) s fun t => t = s.violateReg rq true (Reg.PART_SEM_VAL_HI p.val)) ∧
  (∀ (i : Packet → Instr) (typ : Nat), (i, typ) ∈ [((fun k => Instr.semAdd k 0), syAdd), ((fun k => Instr.semSet k 0), sySet)] →
      ∀ (k : Packet) (x : Comp) (s u : State), k.isSync typ = true → Enters s k u →
      u.epochCheck k.comp k.epoch k.src (fun p => u.semIn p (nfld k.sync2 17 0)) = .run → u.comp k.comp = some x →
      Completes (i k) s fun t => t = u.runSem k x.part 0) ∧
  (∀ (k : Packet) (x : Comp) (key : Nat) (b : Barrier) (s u : State), k.isSync syArrive = true → Enters s k u →
      u.epochCheck k.comp k.epoch k.src (fun _ => true) = .run → u.comp k.comp = some x → k.epoch = x.epoch → key = barKey k.comp (nfld k.sync2 31 26) →
      b = (if (u.barrier key).arrivals.isEmpty then { u.barrier key with mask := wordAt k.body 4 % 4, epoch := k.epoch } else u.barrier key) →
      (participants x.map b.mask).contains k.src = true → b.arrivals.contains k.src = false →
      b.arrivals.length + 1 ≠ (participants x.map b.mask).length →
      Completes (.barArrive k) s fun t => t = (u.endRequest k stOk 0 0 false).setBarrier key { b with arrivals := b.arrivals ++ [k.src] }) ∧
  (∀ (k : Packet) (x : Comp) (key chute seq : Nat) (c : Cmd) (s u v : State), k.isSync syRelease = true → Enters s k u →
      u.epochCheck k.comp k.epoch k.src (fun _ => true) = .run → u.comp k.comp = some x → key = barKey k.comp (nfld k.sync2 31 26) →
      v = u.endRequest k stOk 0 0 false → v.side key = some (chute, seq) → v.running x.part chute seq = some c → epochOlder k.epoch c.compEpoch = false →
      Completes (.barRelease k) s fun t =>
        t = (v.setSide key none).finish x.part chute seq stOk (pairAt k.body 4) (nfld (wordAt k.body 6) 13 0)) ∧
  (∀ (i : Packet → Instr) (typ : Nat), (i, typ) ∈ [((fun k => Instr.semAdd k 0), syAdd), ((fun k => Instr.semSet k 0), sySet),
        (Instr.barArrive, syArrive), (Instr.barRelease, syRelease), (Instr.digestVote, syDigest)] →
      ∀ (k : Packet) (s u : State), k.isSync typ = true → Enters s k u → u.comp k.comp = none →
      Completes (i k) s fun t => t = u.refuseStale k) ∧
  (∀ (p : Fin 32) (chute : Fin 64) (seq : Word) (c : Cmd) (k : Comp) (b m : Nat) (s u : State), s.running p.val chute.val seq.toNat = some c → c.opcode = 0x0D →
      c.mustStop = false → c.sent = false → s.comp c.compId = some k → s.commandEpochOk p.val c.compId c.compEpoch = true → b = nfld (c.arg 8) 31 26 →
      m = nfld (c.arg 8) 25 24 → (participants k.map m).contains s.node = true → ScopeDone s p.val c u →
      u.side (barKey c.compId b) = none → u.earlierBarrier p.val c = false →
      Completes (.barrier p chute seq) s fun t => t = ((u.markSent p.val c).setSide (barKey c.compId b) (some (c.chute, c.seq))).unitSend
        (syncReq ((((k.map)[b % k.map.length]?).map (·.node)).getD ((u.markSent p.val c).setSide (barKey c.compId b) (some (c.chute, c.seq))).node)
          syArrive c.compId c.compEpoch (b * 2 ^ 26) p.val m p.val (.cmd p.val c.chute c.seq))) ∧
  (∀ (p : Fin 32) (chute : Fin 64) (seq : Word) (c : Cmd) (s : State), s.running p.val chute.val seq.toNat = some c → c.opcode = 0x0D →
      c.mustStop = false → c.sent = false → s.comp c.compId = none → Completes (.barrier p chute seq) s fun t => t = s.endCmd p.val c stStaleEpoch 0 0)

/-- For every state in which the part runs: (1) PROPOSE by a requester that may write it, of a member with none in progress, sets busy and sends
the proposal to the sequencer; (2) a creation with an empty list ends MALFORMED. A message that its window lets through (Enters): (3) PROPOSE_MSG
with fewer than eight waiting is queued, judged by its list, and the sequencer goes on; (4) with eight it answers BUSY; (5) PREPARE without a
reason against it makes the node prepared and answers YES; (6) with one it answers NO with the reason; (7) COMMIT of what the node is prepared for
takes effect and is acknowledged; (8) COMP_ABORT of it is undone and acknowledged; (9) QUERY answers the last decision of its epoch, or none; (10)
DOWN marks the composition down. (11) SACK of an ADD or SET ends its command with status and value; (12) of a QUERY answered COMMIT, the commit
takes effect. (13) COMP_TIMEOUT past the limit asks the sequencer again. (14) DIGEST with legal arguments begins; (15) a segment whose lines are
there adds to the digest; (16) after the last it is written, or the vote begins; (17) DIGEST_VOTE is kept, acknowledged and counted; (18)
DIG_WAIT_EXPIRE past the wait decides the vote from what has come. -/
def Obligations.CompositionsAndVotes : Prop :=
  (∀ (rq : Requester) (p : Fin 32) (v : Word) (c : Nat) (k : Comp) (s u : State), s.writes rq (Reg.PART_COMP_PROP_CTRL p.val) = true →
      bitOf (s.reg (Reg.PART_COMP_PROP_CTRL p.val)) 31 = false → s.compOf p.val = some (c, k) →
      u = (s.store (Reg.PART_COMP_PROP_CTRL p.val) v).setRegF (Reg.PART_COMP_PROP_CTRL p.val) 31 31 1 →
      Completes (.propose rq p v) s fun t => t = u.unitSend (syncReq (sequencerOf k.map) syPropose c (u.regN (Reg.PART_COMP_PROP_EPOCH p.val))
        (u.regN (Reg.PART_COMP_PROP_EPOCH p.val)) (u.regF (Reg.PART_COMP_PROP_CTRL p.val) 12 0) (u.reg64 (Reg.PART_COMP_PROP_BASE_LO p.val) % 2 ^ 40) p.val
          (.sync p.val))) ∧
  (∀ (rq : Requester) (p : Fin 32) (v : Word) (s u : State), s.writes rq (Reg.PART_COMP_PROP_CTRL p.val) = true →
      bitOf (s.reg (Reg.PART_COMP_PROP_CTRL p.val)) 31 = false → s.compOf p.val = none →
      u = (s.store (Reg.PART_COMP_PROP_CTRL p.val) v).setRegF (Reg.PART_COMP_PROP_CTRL p.val) 31 31 1 → u.regF (Reg.PART_COMP_PROP_CTRL p.val) 12 0 = 0 →
      Completes (.propose rq p v) s fun t => t = u.endProposal p.val prMalformed 0) ∧
  (∀ (k : Packet) (list : List Word) (n : Nat) (ws : List Nat) (s u : State), k.isSync syPropose = true → Enters s k u →
      (u.sync.proposals.filter (fun (q : Proposal) => decide (q.comp = k.comp))).length < 8 → n = nfld k.sync3 12 0 → ws = (list.map (·.toNat)).take n →
      Completes (.proposeMsg k list) s fun t => t = (u.modSync (fun y => { y with proposals := y.proposals ++
        [{ comp := k.comp, req := k, epoch := k.sync2, list := ws.map Member.ofWord,
           malformed := decide (4096 < n) || decide (ws.length < n) || !listOk ws, stage := .queued, due := [], refusal := none }] })).sequenced k.comp) ∧
  (∀ (k : Packet) (list : List Word) (s u : State), k.isSync syPropose = true → Enters s k u →
      8 ≤ (u.sync.proposals.filter (fun (q : Proposal) => decide (q.comp = k.comp))).length →
      Completes (.proposeMsg k list) s fun t => t = u.endRequest k stOk prBusy 0 false) ∧
  (∀ (k : Packet) (list : List Word) (l : List Member) (m : Member) (s u : State), k.isSync syPrepare = true → Enters s k u →
      l = ((list.map (·.toNat)).take (nfld k.sync3 12 0)).map Member.ofWord → u.prepareReason k.comp k.sync2 l = 0 → memberAt l u.node = some m →
      Completes (.prepare k list) s fun t => t = ((u.setPrepared k.comp (some
        { seqNode := k.src, epoch := k.epoch, list := l, part := m.part, since := u.lcc })).showComp m.part).endRequest k stOk 1 0 false) ∧
  (∀ (k : Packet) (list : List Word) (r : Nat) (s u : State), k.isSync syPrepare = true → Enters s k u →
      r = u.prepareReason k.comp k.sync2 (((list.map (·.toNat)).take (nfld k.sync3 12 0)).map Member.ofWord) → r ≠ 0 →
      Completes (.prepare k list) s fun t => t = u.endRequest k stOk (r * 256) 0 false) ∧
  (∀ (k : Packet) (q : Prepared) (s u : State), k.isSync syCommit = true → Enters s k u → u.preparedBy k.comp k.src k.epoch = some q →
      Completes (.commit k) s fun t => t = (u.commitComp k.comp q).endRequest k stOk 0 0 false) ∧
  (∀ (k : Packet) (q : Prepared) (s u : State), k.isSync syAbort = true → Enters s k u → u.preparedBy k.comp k.src k.epoch = some q →
      Completes (.compAbort k) s fun t =>
        t = (((u.setPrepared k.comp none).showComp q.part).refuseHeld k.comp).endRequest k stOk 0 0 false) ∧
  (∀ (k : Packet) (d : Nat × Bool) (s u : State), k.isSync syQuery = true → Enters s k u → d = Tbl.get (fun _ => (0, false)) u.sync.lastDecision k.comp →
      Completes (.query k) s fun t => t = u.endRequest k stOk (if d.1 = k.epoch ∧ d.1 ≠ 0 then (if d.2 then 1 else 2) else 0) 0 false) ∧
  (∀ (k : Packet) (s u : State), k.isSync syDown = true → Enters s k u →
      Completes (.down k) s fun t => t = (u.markDown k.comp (wordAt k.body 4 % 4096)).endRequest k stOk 0 0 false) ∧
  (∀ (k : Packet) (r : OutReq) (p ch q st : Nat) (s u : State), k.proto = 2 → k.typ = syAck → u = s.receive k → u.awaiting k 5 = some r →
      (r.pkt.typ = syAdd ∨ r.pkt.typ = sySet) → r.waiter = .cmd p ch q → st = nfld (wordAt k.body 0) 15 8 →
      Completes (.sack k) s fun t => t = (u.complete r).settleStalled.finishRunning p ch q st (if st = stOk then pairAt k.body 4 else 0) 0) ∧
  (∀ (k : Packet) (r : OutReq) (q : Prepared) (s u : State), k.proto = 2 → k.typ = syAck → u = s.receive k → u.awaiting k 5 = some r →
      r.pkt.typ = syQuery → (u.complete r).settleStalled.preparedBy r.pkt.comp k.src r.pkt.epoch = some q → wordAt k.body 4 % 4 = 1 →
      Completes (.sack k) s fun t => t = (u.complete r).settleStalled.commitComp r.pkt.comp q) ∧
  (∀ (c : Fin 65536) (q : Prepared) (s : State), s.preparedFor c.val = some q → max 1 (s.regN Reg.RNG_COMP_TIMEOUT) < s.lcc - q.since →
      Completes (.compTimeout c) s fun t => t = (s.setPrepared c.val (some { q with since := s.lcc })).unitSend
        (syncReq q.seqNode syQuery c.val q.epoch 0 q.part 0 q.part (.sync q.part))) ∧
  (∀ (p : Fin 32) (chute : Fin 64) (seq : Word) (c : Cmd) (s : State), s.running p.val chute.val seq.toNat = some c → c.opcode = 0x0E → c.mustStop = false →
      c.aux = [] → (c.votes = false ∨ c.inComp = true) → s.digestOk p.val c = true →
      Completes (.digest p chute seq) s fun t => t = s.setAux p.val c 0 [0, 0, 0, 0, s.digestKey p.val]) ∧
  (∀ (p : Fin 32) (chute : Fin 64) (seq : Word) (c : Cmd) (va n : Nat) (x : List (Nat × Nat)) (g : Got) (s u : State),
      s.running p.val chute.val seq.toNat = some c → c.opcode = 0x0E → c.mustStop = false → c.aux ≠ [] → c.auxAt 1 ≠ 1 →
      c.digestSegs[c.progress]? = some (va, n) → c.range va n acRead = some x → AllReady s (c.agent p.val) false x →
      s.fetchAll (c.agent p.val) false x = (g, u) → g.status = 0 → g.poison = false →
      Completes (.digest p chute seq) s fun t => t = Taken (u.setAux p.val c (c.progress + 1)
        [digestWords (c.auxAt 4) (n / 16) (c.auxAt 0) g.value, 0, 0, c.auxAt 3 + n, c.auxAt 4]) (c.agent p.val) x) ∧
  (∀ (p : Fin 32) (chute : Fin 64) (seq : Word) (c : Cmd) (x : List (Nat × Nat)) (s : State),
      s.running p.val chute.val seq.toNat = some c → c.opcode = 0x0E → c.mustStop = false → c.aux ≠ [] → c.auxAt 1 ≠ 1 →
      c.digestSegs[c.progress]? = none → c.range (c.voteVa + 64) (if c.votes then 64 + 16 * c.replicas else 32) acWrite = some x →
      Completes (.digest p chute seq) s fun t => t = s.digestDone p.val c) ∧
  (∀ (k : Packet) (x : Comp) (s u v : State), k.isSync syDigest = true → Enters s k u → u.epochCheck k.comp k.epoch k.src (fun _ => true) = .run →
      u.comp k.comp = some x → v = (u.putVote x.part k.sync2 k.src (wordsNum k.body 4 4)).endRequest k stOk 0 0 false → v.voting x.part k.sync2 = none →
      Completes (.digestVote k) s fun t => t = v) ∧
  (∀ (p : Fin 32) (chute : Fin 64) (seq : Word) (c : Cmd) (s : State), s.running p.val chute.val seq.toNat = some c → c.opcode = 0x0E → c.auxAt 1 = 1 →
      max 1 (s.regN (Reg.PART_DIG_WAIT p.val)) < s.lcc - c.auxAt 2 → Completes (.digWaitExpire p chute seq) s fun t => t = s.decideVote p.val c)

/-- For every state in which the part runs: (1) FATAL_ERROR acts as the shared operation says with its cause; (2) CE_SUMMARY of a count that is
not zero, at most once in 2^27 cycles, clears it and sends one INFO record; (3) of a zero count it does nothing; (4) RECORD_RESEND, with datagrams
enabled, sends every record of the ring and marks it sent; (5) RECORD_ACK of this node acknowledges the records of its incarnation up to its
sequence; (6) any other datagram has no effect; (7) GET_RECORDS on a path that may read them answers up to four from the first sequence; (8) on
another it is refused with code 3; (9) ACK_RECORDS acknowledges and answers. -/
def Obligations.RecordsAndFatalErrors : Prop :=
  (∀ (cause : Fin 3) (tiles : Nat) (s : State), Completes (.fatalError cause tiles) s fun t => t = s.fatal (cause.val + 1) (tiles % 2 ^ 32)) ∧
  (∀ (cls : Fin 17) (inst : Fin 1664) (store : Fin 11) (key n : Nat) (s : State), key = ceKey cls.val inst.val store.val →
      n = Tbl.get (fun _ => 0) s.errs.ceCount key → n ≠ 0 →
      (Tbl.get (fun _ => 0) s.errs.ceTime key = 0 ∨ Tbl.get (fun _ => 0) s.errs.ceTime key - 1 + 2 ^ 27 ≤ s.lcc) →
      Completes (.ceSummary cls inst store) s fun t => t = ({ s with errs := { s.errs with
        ceCount := Tbl.set (fun _ => 0) s.errs.ceCount key 0, ceTime := Tbl.set (fun _ => 0) s.errs.ceTime key (s.lcc + 1) } } : State).report
          1 0x0002 cls.val inst.val none 0 [store.val, n % 2 ^ 32]) ∧
  (∀ (cls : Fin 17) (inst : Fin 1664) (store : Fin 11) (s : State), Tbl.get (fun _ => 0) s.errs.ceCount (ceKey cls.val inst.val store.val) = 0 →
      Completes (.ceSummary cls inst store) s fun t => t = s) ∧
  (∀ (s u : State), s.udpEn = true → u = s.sendAll 257 s.errs.ring →
      Completes .recordResend s fun t => t = { u with errs := { u.errs with ring := u.errs.ring.map (fun r => { r with sent := true }) } }) ∧
  (∀ (w0 w1 w2 w3 : Word) (s : State), w0.toNat = 0xB6400001 → fld w1 31 22 = s.cell → fld w1 11 0 = s.node →
      Completes (.recordAck w0 w1 w2 w3) s fun t => t = s.ackTo (fld w2 31 16) w3.toNat) ∧
  (∀ (w0 w1 w2 w3 : Word) (s : State), (w0.toNat ≠ 0xB6400001 ∨ fld w1 31 22 ≠ s.cell ∨ fld w1 11 0 ≠ s.node) →
      Completes (.recordAck w0 w1 w2 w3) s fun t => t = s) ∧
  (∀ (tr : Transport) (id : BitVec 16) (first : Word) (rs : List ErrRec) (s u : State), s.recordPath tr = true →
      rs = (s.errs.ring.filter (fun r => serialLe first.toNat r.seq)).take 4 → u = s.emit (.xfer tr 0x120 id.toNat 0 0 (rs.flatMap (ErrRec.words s.node s.cell))) →
      Completes (.getRecords tr id first) s fun t => t = { u with errs := { u.errs with ring := u.errs.ring.map (fun r => if rs.contains r then { r with sent := true } else r) } }) ∧
  (∀ (tr : Transport) (id : BitVec 16) (first : Word) (s : State), s.recordPath tr = false →
      Completes (.getRecords tr id first) s fun t => t = s.emit (.xfer tr 0x120 id.toNat 3 0 [])) ∧
  (∀ (tr : Transport) (id : BitVec 16) (upto : Word) (s : State), s.recordPath tr = true →
      Completes (.ackRecords tr id upto) s fun t => t = (s.ackTo s.incarnation upto.toNat).emit (.xfer tr 0x121 id.toNat 0 0 []))

/-- For every state in which the part runs: (1) FT_GO by a requester that may write it, with room, a target and content that fits, queues a
request under the next number with the margins limited to the parameters of the moment; (2) without room or a target it ends with result 8, (3)
with content that does not fit with result 7 (the number such a result shows is a free value, log entry 4). (4) FT_CANCEL of a queued request
drops it with result 6; (5) of the running one it is restored and ends with result 6. (6) FT_TAKE with no test running defers the first request
that finds no resource; (7) one whose resource is too cold is deferred; (8) else the resource is taken and the test runs. (9) FT_RETRY lets a
request that finds a resource be tried again. (10) FT_EXPIRE of a deferred request past its expiry ends it with result 5 and sets the cause. (11)
FT_NOMINAL_PASS keeps the first failing step. FT_MARGIN_PASS after it (12) repairs a failing T1 unit once where rows are left, and (13) where the
first pass found no failing step, ends the test with its own finding, of a kind and margins for which a margin pass is made. -/
def Obligations.FieldTests : Prop :=
  (∀ (rq : Requester) (v : Word) (kind inst content : Nat) (k : Package) (s u : State), s.writes rq Reg.RNG_FT_CTRL = true → u = s.store Reg.RNG_FT_CTRL v →
      kind = u.regF Reg.RNG_FT_TARGET 31 28 → inst = u.regF Reg.RNG_FT_TARGET 11 0 → content = u.regF Reg.RNG_FT_CONTENT 15 0 → u.ft.queue.length < 16 →
      ftCount kind ≠ 0 → (inst = 0xFFF ∨ inst < ftCount kind) → u.ftContent content kind = some k →
      Completes (.ftGo rq v) s fun t => t = ((u.modFt (fun f => { f with nextNum := (u.ft.nextNum + 1) % 256, queue := f.queue ++ [
        { num := u.ft.nextNum, kind := kind, inst := inst, content := content, clock := min (u.regF Reg.RNG_FT_MARGIN 2 0) (wordAt u.boot.active 12),
          vdrop := min (min 30 (u.regF Reg.RNG_FT_MARGIN 12 8)) (wordAt u.boot.active 13), expiry := u.regN Reg.RNG_FT_EXPIRY, queuedAt := u.lcc,
          deferred := false, told := false }] })).setRegF Reg.RNG_FT_STATUS 23 16 u.ft.nextNum).showFt) ∧
  (∀ (rq : Requester) (v : Word) (kind inst n : Nat) (s u w : State), s.writes rq Reg.RNG_FT_CTRL = true → u = s.store Reg.RNG_FT_CTRL v →
      kind = u.regF Reg.RNG_FT_TARGET 31 28 → inst = u.regF Reg.RNG_FT_TARGET 11 0 →
      (16 ≤ u.ft.queue.length ∨ ftCount kind = 0 ∨ (inst ≠ 0xFFF ∧ ftCount kind ≤ inst)) → u.draw = (n, w) →
      Completes (.ftGo rq v) s fun t => t = w.ftResult n 8 kind inst 0) ∧
  (∀ (rq : Requester) (v : Word) (kind inst n : Nat) (s u w : State), s.writes rq Reg.RNG_FT_CTRL = true → u = s.store Reg.RNG_FT_CTRL v →
      kind = u.regF Reg.RNG_FT_TARGET 31 28 → inst = u.regF Reg.RNG_FT_TARGET 11 0 → u.ft.queue.length < 16 →
      ftCount kind ≠ 0 → (inst = 0xFFF ∨ inst < ftCount kind) → u.ftContent (u.regF Reg.RNG_FT_CONTENT 15 0) kind = none → u.draw = (n, w) →
      Completes (.ftGo rq v) s fun t => t = w.ftResult n 7 kind inst 0) ∧
  (∀ (rq : Requester) (v : Word) (n : Nat) (r : FtReq) (s u : State), s.writes rq Reg.RNG_FT_CTRL = true → u = s.store Reg.RNG_FT_CTRL v →
      n = u.regF Reg.RNG_FT_CTRL 15 8 → u.ft.run = none → u.ft.queue.find? (fun r => decide (r.num = n)) = some r →
      Completes (.ftCancel rq v) s fun t => t = (u.ftDrop n).ftResult n 6 r.kind r.inst 0) ∧
  (∀ (rq : Requester) (v : Word) (n : Nat) (x : FtRun) (s u : State), s.writes rq Reg.RNG_FT_CTRL = true → u = s.store Reg.RNG_FT_CTRL v →
      n = u.regF Reg.RNG_FT_CTRL 15 8 → u.ft.run = some x → x.req.num = n →
      Completes (.ftCancel rq v) s fun t => t = (u.ftRestore x).ftResult n 6 x.req.kind x.inst 0) ∧
  (∀ (tj : BitVec 16) (r : FtReq) (s : State), s.ft.run = none → s.ft.queue.find? (fun r => !r.deferred) = some r → s.ftPick r = none →
      Completes (.ftTake tj) s fun t => t = s.ftDefer r (if r.kind = 8 then 2 else 1)) ∧
  (∀ (tj : BitVec 16) (r : FtReq) (i : Nat) (k : Package) (s : State), s.ft.run = none → s.ft.queue.find? (fun r => !r.deferred) = some r →
      s.ftPick r = some i → s.ftContent r.content r.kind = some k → k.minTj ≠ 0x8000 → signed16 tj.toNat < signed16 k.minTj →
      Completes (.ftTake tj) s fun t => t = s.ftDefer r 3) ∧
  (∀ (tj : BitVec 16) (r : FtReq) (i : Nat) (k : Package) (x : UnitKind) (s : State), s.ft.run = none → s.ft.queue.find? (fun r => !r.deferred) = some r →
      s.ftPick r = some i → s.ftContent r.content r.kind = some k → k.minTj = 0x8000 → ftUnit r.kind = some x → r.kind ≠ 6 →
      Completes (.ftTake tj) s fun t => t = ((((s.ftDrop r.num).wakeNow (x.key i)).resetUnit x i).modFt (fun f =>
          { f with run := some { req := r, inst := i, nominalDone := false, tjStart := tj.toNat, version := k.version, pages := [], fail := none, again := false } })).showFt) ∧
  (∀ (num : BitVec 8) (s : State), Completes (.ftRetry num) s fun t => t = s.modFt (fun f => { f with queue := f.queue.map (fun r =>
      if r.num = num.toNat ∧ (s.ftPick r).isSome then { r with deferred := false } else r) })) ∧
  (∀ (num : BitVec 8) (r : FtReq) (s : State), s.ft.queue.find? (fun r => decide (r.num = num.toNat) && r.deferred) = some r → r.expiry ≠ 0 →
      r.queuedAt + r.expiry * 100000 ≤ s.lcc →
      Completes (.ftExpire num) s fun t => t = ((s.ftDrop r.num).ftResult r.num 5 r.kind r.inst 0).cause Reg.RNG_FT_IRQ_CAUSE 4) ∧
  (∀ (fail : Option (BitVec 16)) (x : FtRun) (s : State), s.ft.run = some x → x.nominalDone = false →
      Completes (.ftNominalPass fail) s fun t => t.ft.run = some { x with nominalDone := true, fail := fail.map (·.toNat) } ∧
        t = { s with ft := { s.ft with run := some { x with nominalDone := true, fail := fail.map (·.toNat) } } }) ∧
  (∀ (fail : Option (BitVec 16)) (tj rows : BitVec 16) (pages : List Nat) (x : FtRun) (n a st : Nat) (s : State), s.ft.run = some x →
      x.nominalDone = true → x.fail = some n → x.req.kind = 5 → x.again = false → rows ≠ 0 → st = s.stackOf (poolUnit x.inst).base →
      a = Reg.HUB_STACK_STATUS (st / 3) (st % 3) →
      Completes (.ftMarginPass fail tj rows pages) s fun t => t = (s.setRegF a 15 0 (min 65535 (s.regF a 15 0 + rows.toNat))).modFt
        (fun f => { f with run := some { x with nominalDone := false, fail := none, again := true } })) ∧
  (∀ (fail : Option (BitVec 16)) (tj rows : BitVec 16) (pages : List Nat) (x : FtRun) (s : State), s.ft.run = some x → x.nominalDone = true → x.fail = none →
      Completes (.ftMarginPass fail tj rows pages) s fun t => t = s.ftEnd x
        (if 5 ≤ x.req.kind ∨ (x.req.clock = 0 ∧ x.req.vdrop = 0) then none else fail.map (·.toNat)) tj.toNat pages)

/-- For every state in which the part runs: (1) CLOCK_GATE of an idle unit that is awake stops its clock; (2) POWER_GATE of an idle unit no
partition owns and keep_awake does not name loses its buffers and is gated; (3) PLL_STOP of a tile whose units are all gated, none of them waking,
and whose T0 bank nobody owns stops its PLL; (4) SELF_REFRESH puts a stack into self-refresh; (5) WAKE_DONE of a waking block, a unit's PLL
running, wakes it. (6) STANDBY by a requester that may write it, with every partition FREE and every port OFF, begins; (7) otherwise it sets
standby_refused; (8) STANDBY_DONE power-gates the units, puts the stacks into self-refresh and the node into STANDBY; (9) RUN in STANDBY begins
the way back and (10) RUN_DONE ends it: the stacks are awake and the cause is set. (11) POWER_TICK before a boot shows power and temperature only;
(12) after one it also holds each tile and the node to their limits. -/
def Obligations.PowerStates : Prop :=
  (∀ (b : Fin 512) (s : State), b.val < 256 → (unitOfKey b.val).2 < (unitOfKey b.val).1.count → s.unitIdle (unitOfKey b.val).1 (unitOfKey b.val).2 = true →
      s.sleepOf b.val = 0 → s.power.waking.contains b.val = false → Completes (.clockGate b) s fun t => t = s.setSleep b.val 1) ∧
  (∀ (k : UnitKind) (i : Fin 64) (s : State), i.val < k.count → s.owner k i.val = none → s.unitIdle k i.val = true → s.sleepOf (k.key i.val) ≤ 1 →
      s.power.waking.contains (k.key i.val) = false → s.param 10 = 0 →
      Completes (.powerGate k i) s fun t => t = ((s.resetUnit k i.val).setSleep (k.key i.val) 2).checkIdle) ∧
  (∀ (k : Fin 4) (s : State), (((List.range 8).map (fun i => 8 * k.val + i) ++ (List.range 16).map (fun i => 64 + 16 * k.val + i)).all
        (fun b => decide (s.sleepOf b = 2) && !s.power.waking.contains b)) = true → s.power.waking.contains (pllKey k.val) = false →
      s.t0.owner.any (fun e => decide (e.1 / 16384 = k.val)) = false →
      Completes (.pllStop k) s fun t => t = (s.setSleep (pllKey k.val) 3).checkIdle) ∧
  (∀ (stack : Fin 6) (s : State), Completes (.selfRefresh stack) s fun t => t = s.setSleep (260 + stack.val) 3) ∧
  (∀ (b : Fin 512) (s : State), 256 ≤ b.val → s.power.waking.contains b.val = true → Completes (.wakeDone b) s fun t => t = s.wakeNow b.val) ∧
  (∀ (rq : Requester) (v : Word) (s : State), s.writes rq Reg.RNG_PWR_CTRL = true → s.regF Reg.RNG_PWR_STATE 31 29 % 2 = 0 →
      s.regF Reg.RNG_PWR_STATE 31 30 ≠ 2 → (List.range 32).all (fun p => decide (s.pstate p = .free)) = true →
      (List.range 12).all (fun l => decide (s.link l = 0)) = true →
      Completes (.standby rq v) s fun t => t = s.setRegF Reg.RNG_PWR_STATE 29 29 1) ∧
  (∀ (rq : Requester) (v : Word) (s : State), s.writes rq Reg.RNG_PWR_CTRL = true → s.regF Reg.RNG_PWR_STATE 31 29 % 2 = 0 →
      s.regF Reg.RNG_PWR_STATE 31 30 ≠ 2 →
      ((List.range 32).all (fun p => decide (s.pstate p = .free)) = false ∨ (List.range 12).all (fun l => decide (s.link l = 0)) = false) →
      Completes (.standby rq v) s fun t => t = s.cause Reg.RNG_PWR_IRQ_CAUSE 16) ∧
  (∀ (s : State), s.regF Reg.RNG_PWR_STATE 29 29 = 1 → s.regF Reg.RNG_PWR_STATE 31 30 ≠ 2 →
      Completes .standbyDone s fun t => t = ((List.range 6).foldl (fun s k => s.setSleep (260 + k) 3) s.gateAll).setRegF Reg.RNG_PWR_STATE 31 29 4) ∧
  (∀ (rq : Requester) (v : Word) (s : State), s.writes rq Reg.RNG_PWR_CTRL = true → s.regF Reg.RNG_PWR_STATE 31 30 = 2 →
      Completes (.runNode rq v) s fun t => t = s.setRegF Reg.RNG_PWR_STATE 29 29 1) ∧
  (∀ (s : State), s.regF Reg.RNG_PWR_STATE 31 29 = 5 →
      Completes .runDone s fun t => t = (((List.range 6).foldl (fun s k => s.setSleep (260 + k) 0) s).setRegF Reg.RNG_PWR_STATE 31 29 0).cause
        Reg.RNG_PWR_IRQ_CAUSE 8) ∧
  (∀ (fast sustained : BitVec 16) (tj : List (BitVec 16)) (n : Nat) (x : Int) (s u : State), hottest tj (List.range 80) = (n, x) → s.boot.active = [] →
      u = (((s.setRegF Reg.RNG_PWR_NOW 31 16 fast.toNat).setRegF Reg.RNG_PWR_NOW 15 0 sustained.toNat).setRegF Reg.RNG_TJ 31 16
        (x % 65536).toNat).setRegF Reg.RNG_TJ 5 0 n → Completes (.powerTick fast sustained tj) s fun t => t = u) ∧
  (∀ (fast sustained : BitVec 16) (tj : List (BitVec 16)) (n : Nat) (x : Int) (s u v : State), hottest tj (List.range 80) = (n, x) →
      u = (((s.setRegF Reg.RNG_PWR_NOW 31 16 fast.toNat).setRegF Reg.RNG_PWR_NOW 15 0 sustained.toNat).setRegF Reg.RNG_TJ 31 16
        (x % 65536).toNat).setRegF Reg.RNG_TJ 5 0 n → u.boot.active ≠ [] →
      v = (List.range 10).foldl (fun s k => s.heatTick k (hottest tj ((List.range 8).map (8 * k + ·))).1 (hottest tj ((List.range 8).map (8 * k + ·))).2) u →
      Completes (.powerTick fast sustained tj) s fun t => t = v.capTick fast.toNat (decide ((v.param 4 : Int) - 16 ≤ x)))

/-- (1) POWER_LOSS, from every state, leaves the machine of a cold reset, stopped and off. (2) COLD_RESET, from every state, runs and leaves T1,
T0, partitions, ledgers and management state as at reset; fuses and the output log stay (the log is the model's, log entry 7). (3) A warm reset by
RST_N with power on, stopped or not, runs, keeps the fuses and, where no debug level ends with it (R413 reports that), the log ring, and leaves
T1, T0 and the partitions as at reset; (4) with power off it does nothing. While the part runs: (5) WARM_RESET of a requester that may write
RNG_RESET_CTRL resets warmly with kind 3. (6) BOOT without a trial starts once, counts the incarnation and, if the active slot passes, boots from
it; (7) if only the other passes, boots from that and reports the fallback; (8) if neither does, goes to recovery. (9) BOOT of a trial not yet
tried sets its count to 1 and boots from it if it passes; (10) else it waits for the watchdog. (11) A BOOT after the first since the reset does
nothing. (12) BOOT_WATCHDOG resets warmly with kind 4 a trial that failed its check or has run over 10 s. (13) A unit reset of a unit no partition
owns wakes and resets it. That the other slot is tried in (7) is DEDUCED (log entry 29). -/
def Obligations.ResetsAndBoot : Prop :=
  (∀ (s : State), Sys2Proof.Machine.exec .powerLoss s = .next { s.coldReset with stopped := true, power := { s.coldReset.power with off := true } }) ∧
  (∀ (s : State), ∃ t, Sys2Proof.Machine.exec .coldReset s = .next t ∧ t = s.coldReset ∧ t.stopped = false ∧ t.t1 = State.reset.t1 ∧ t.t0 = State.reset.t0 ∧
      t.parts = State.reset.parts ∧ t.fuses = s.fuses ∧ t.out = s.out ∧ t.pending = s.pending ∧ t.errs = State.reset.errs ∧ t.mgmt = State.reset.mgmt) ∧
  (∀ (s : State), s.power.off = false → ∃ t, Sys2Proof.Machine.exec (.warmReset none) s = .next t ∧ t = s.warmReset 2 0 ∧ t.stopped = false ∧ t.fuses = s.fuses ∧
      (s.debugLevel = 0 → t.errs.ring = s.errs.ring) ∧ t.t1 = State.reset.t1 ∧ t.t0 = State.reset.t0 ∧ t.parts = State.reset.parts) ∧
  (∀ (s : State), s.power.off = true → Sys2Proof.Machine.exec (.warmReset none) s = .next s) ∧
  (∀ (rq : Requester) (v : Word) (s : State), s.writes rq Reg.RNG_RESET_CTRL = true →
      Completes (.warmReset (some (rq, v))) s fun t => t = s.warmReset 3 0) ∧
  (∀ (cfg : BootConfig) (run : BootRun) (s u : State) (a : Nat), s.boot.started = false → s.boot.trial = none →
      u = (((s.modBoot (fun b => { b with started := true })).nextIncarnation.modBoot
        (fun b => { b with trial := none, trialCount := 0, trialReason := 0 })).setRegF Reg.RNG_RESET_CAUSE 9 9 0) → a = s.boot.slot →
      (s.modBoot (fun b => { b with started := true })).nextIncarnation.imageCheck
        ((s.modBoot (fun b => { b with started := true })).nextIncarnation.image a) (run.signed.getD a false) = 0 →
      Completes (.boot cfg run) s fun t => t = u.bootFrom a cfg run []) ∧
  (∀ (cfg : BootConfig) (run : BootRun) (s n u : State) (a r : Nat), s.boot.started = false → s.boot.trial = none →
      n = (s.modBoot (fun b => { b with started := true })).nextIncarnation →
      u = (n.modBoot (fun b => { b with trial := none, trialCount := 0, trialReason := 0 })).setRegF Reg.RNG_RESET_CAUSE 9 9 0 → a = s.boot.slot →
      r = n.imageCheck (n.image a) (run.signed.getD a false) → r ≠ 0 → n.imageCheck (n.image (1 - a)) (run.signed.getD (1 - a) false) = 0 →
      Completes (.boot cfg run) s fun t => t = u.bootFrom (1 - a) cfg run [(a, r)]) ∧
  (∀ (cfg : BootConfig) (run : BootRun) (s n u : State) (r0 r1 : Nat), s.boot.started = false → s.boot.trial = none → s.boot.slot < 2 →
      n = (s.modBoot (fun b => { b with started := true })).nextIncarnation →
      u = (n.modBoot (fun b => { b with trial := none, trialCount := 0, trialReason := 0 })).setRegF Reg.RNG_RESET_CAUSE 9 9 0 →
      r0 = n.imageCheck (n.image 0) (run.signed.getD 0 false) → r1 = n.imageCheck (n.image 1) (run.signed.getD 1 false) → r0 ≠ 0 → r1 ≠ 0 →
      Completes (.boot cfg run) s fun t => t = u.recover r0 r1) ∧
  (∀ (cfg : BootConfig) (run : BootRun) (x : Nat) (s n : State), s.boot.started = false → s.boot.trial = some x → s.boot.trialCount = 0 →
      n = (s.modBoot (fun b => { b with started := true })).nextIncarnation → n.imageCheck (n.image x) (run.signed.getD x false) = 0 →
      Completes (.boot cfg run) s fun t => t = (n.modBoot (fun b => { b with trialCount := 1, onTrial := true, booted := x })).bootFrom x cfg run []) ∧
  (∀ (cfg : BootConfig) (run : BootRun) (x r : Nat) (s n : State), s.boot.started = false → s.boot.trial = some x → s.boot.trialCount = 0 →
      n = (s.modBoot (fun b => { b with started := true })).nextIncarnation → r = n.imageCheck (n.image x) (run.signed.getD x false) → r ≠ 0 →
      Completes (.boot cfg run) s fun t => t = (n.modBoot (fun b => { b with trialCount := 1, onTrial := true, booted := x })).modBoot
        (fun b => { b with trialReason := r })) ∧
  (∀ (cfg : BootConfig) (run : BootRun) (s : State), s.boot.started = true → Completes (.boot cfg run) s fun t => t = s) ∧
  (∀ (s : State), s.boot.onTrial = true → s.boot.done = false → (s.boot.trialReason ≠ 0 ∨ 1000000000 < s.lcc) →
      Completes .bootWatchdog s fun t => t = (s.modBoot (fun b => { b with trialReason := if b.trialReason = 0 then 4 else b.trialReason })).warmReset 4 0) ∧
  (∀ (rq : Requester) (v : Word) (k : UnitKind) (i : Nat) (s u : State), s.writes rq Reg.RNG_RESET_CTRL = true → u = s.store Reg.RNG_RESET_CTRL v →
      i = u.regF Reg.RNG_RESET_CTRL 5 0 → resetKind (u.regF Reg.RNG_RESET_CTRL 10 8) = some k → i < k.count → u.owner k i = none →
      Completes (.unitReset rq v) s fun t => t = (u.wakeNow (k.key i)).resetUnit k i)

/-- For every state in which the part runs: (1) PERST_N_ASSERT by the pin resets the port into state 3 and sets its cause; (2) by the link, if the
pin is high, it resets it into state 0. (3) PERST_N_DEASSERT of a port held there lets it train, a link test of its lanes preempted; in recovery
it stays down. (4) CXL_PORT_READY after boot with PERST_N high shows ready. (5) CXL_LINK_UP at x2, x4 or x8 outside recovery from DOWN or TRAINING
brings the link up at that width and rate and sets the cause. CXL_CONFIG_REQUEST (6) of a ready port is answered; (7) of one not ready is counted
and answered with config retry; (8) with PERST_N low it is not answered. (9) IDE_FAIL of an active stream counts, resets the port and sets the
cause. PACKAGE_NETWORK_REPLAY (10) counts in the sending tile's Scaler where that runs; (11) the sixteenth in a row is fatal with cause 2. -/
def Obligations.HostPortsUpAndDown : Prop :=
  (∀ (h : Fin 2) (s : State), Completes (.perstNAssert h 0) s fun t => t = (s.resetCxlPort h.val 3).cause (Reg.CXL_IRQ_CAUSE h.val) 4) ∧
  (∀ (h : Fin 2) (why : Fin 3) (s : State), why ≠ 0 → s.regF (Reg.CXL_STATUS h.val) 31 29 ≠ 3 →
      Completes (.perstNAssert h why) s fun t => t = s.resetCxlPort h.val 0) ∧
  (∀ (h : Fin 2) (s : State), s.regF (Reg.CXL_STATUS h.val) 31 29 = 3 → Completes (.perstNDeassert h) s fun t =>
      t = (s.tallyPreempt (2 + h.val) 3).setRegF (Reg.CXL_STATUS h.val) 31 29 (if s.boot.recovery then 0 else 1)) ∧
  (∀ (h : Fin 2) (s : State), s.boot.done = true → s.regF (Reg.CXL_STATUS h.val) 31 29 ≠ 3 →
      Completes (.cxlPortReady h) s fun t => t = s.setRegF (Reg.CXL_STATUS h.val) 28 28 1) ∧
  (∀ (h : Fin 2) (width : Fin 16) (fast : Bool) (s : State), s.boot.recovery = false → s.regF (Reg.CXL_STATUS h.val) 31 29 ≤ 1 →
      (width = 2 ∨ width = 4 ∨ width = 8) → Completes (.cxlLinkUp h width fast) s fun t => t =
        (((s.setRegF (Reg.CXL_STATUS h.val) 31 29 2).setRegF (Reg.CXL_STATUS h.val) 23 20 width.val).setRegF (Reg.CXL_STATUS h.val) 19 16
          (if fast then 2 else 1)).cause (Reg.CXL_IRQ_CAUSE h.val) 1) ∧
  (∀ (h : Fin 2) (s : State), s.regF (Reg.CXL_STATUS h.val) 31 29 ≠ 3 → s.regF (Reg.CXL_STATUS h.val) 28 28 = 1 →
      Completes (.cxlConfigRequest h) s fun t => t = s.emit (.hostResp (.fmHost h.val 0) "Cpl" none false)) ∧
  (∀ (h : Fin 2) (s : State), s.regF (Reg.CXL_STATUS h.val) 31 29 ≠ 3 → s.regF (Reg.CXL_STATUS h.val) 28 28 ≠ 1 →
      Completes (.cxlConfigRequest h) s fun t =>
        t = (s.count (Reg.CXL_CFG_RETRY h.val) 1).emit (.hostResp (.fmHost h.val 0) "RetryStatus" none false)) ∧
  (∀ (h : Fin 2) (s : State), s.regF (Reg.CXL_STATUS h.val) 31 29 = 3 → Completes (.cxlConfigRequest h) s fun t => t = s) ∧
  (∀ (h : Fin 2) (s : State), s.regF (Reg.CXL_STATUS h.val) 27 27 ≠ 0 → Completes (.ideFail h) s fun t =>
      t = ((s.count (Reg.CXL_IDE_FAIL h.val) 1).resetCxlPort h.val 0).cause (Reg.CXL_IRQ_CAUSE h.val) 8) ∧
  (∀ (k dest : Fin 10) (row : BitVec 5) (s : State), row.toNat < 16 → Completes (.packageNetworkReplay k dest row) s fun t =>
      t = if s.sclRuns k.val then s.count (Reg.SCL_FIX_PN_REPLAY k.val) 1 else s) ∧
  (∀ (k dest : Fin 10) (row : BitVec 5) (s u : State), 16 ≤ row.toNat → u = (if s.sclRuns k.val then s.count (Reg.SCL_FIX_PN_REPLAY k.val) 1 else s) →
      Completes (.packageNetworkReplay k dest row) s fun t => t = u.fatal 2 (k.val * 16 + dest.val))

/-- For every state in which the part runs, by a requester that may write the register: SWAP (1) while an update is checked is refused with 5; (2)
without a shadow set with 6; (3) with one, active and shadow change places, the new version shows, the result is 0, measurement 5 is extended,
PARAM_SWAPPED is sent and the cause set. PARAM_CHECK_DONE of an update in check (4) that passes makes it the shadow set, sets the cause and
answers 0; (5) that is not signed or of another key is refused with reason 1, reported, its cause set; (6) with no update in check nothing
happens. SET_TRIAL of (7) the active slot gives err 3, (8) a slot with no valid image 1, (9) one below the floor 2; (10) else the slot becomes the
trial slot with count 0. (11) NEW_CHALLENGE puts a free value (log entry 4) in place of the challenge. RELOCK (12) from level 2 goes to level 0;
(13) from 3 through a warm reset. DEBUG_TOKEN (14) of a good token is used; (15) of any other does nothing. -/
def Obligations.ParametersAndTrials : Prop :=
  (∀ (rq : Requester) (v : Word) (s : State), s.writes rq Reg.CFG_SWAP = true → s.boot.checking.isSome = true →
      Completes (.swap rq v) s fun t => t = s.setRegF Reg.CFG_PARAM_STATUS 29 27 5) ∧
  (∀ (rq : Requester) (v : Word) (s : State), s.writes rq Reg.CFG_SWAP = true → s.boot.checking = none → s.boot.shadow = none →
      Completes (.swap rq v) s fun t => t = s.setRegF Reg.CFG_PARAM_STATUS 29 27 6) ∧
  (∀ (rq : Requester) (v : Word) (new : List Nat) (s u : State), s.writes rq Reg.CFG_SWAP = true → s.boot.checking = none → s.boot.shadow = some new →
      u = (((s.modBoot (fun b => { b with active := new })).setShadow (some s.boot.active)).setRegN Reg.CFG_ACTIVE_VER (wordAt new 0)).setRegF
        Reg.CFG_PARAM_STATUS 29 27 0 → Completes (.swap rq v) s fun t => t = (((u.extend 5 (digestBytes (sha256 (paramBytes new)))).report
          0 0x0065 14 0 none 0 [wordAt s.boot.active 0, wordAt new 0]).cause Reg.CFG_IRQ_CAUSE 1)) ∧
  (∀ (bytes ws set : List Nat) (tr : Transport) (id uid : Nat) (s : State), s.boot.checking = some (bytes, tr, id) → ws = leWords (bytes.take 320) →
      set = ws.drop 16 → uid = wordAt ws 2 + wordAt ws 3 * 2 ^ 32 → wordAt ws 0 = 0xB64C0001 → (s.imageKey ((bytes.drop 320).take hssKeyBytes)).isSome = true →
      wordAt ws 1 % 256 = 0xA1 → (uid = 0 ∨ uid = s.fuses.uid) → (List.range 64).all (paramOk set) = true → s.boot.shadowVer < wordAt set 0 →
      wordAt s.boot.active 0 < wordAt set 0 → Completes (.paramCheckDone true) s fun t => t =
        ((((((s.modBoot (fun b => { b with checking := none })).setRegF Reg.CFG_PARAM_STATUS 30 30 0).setRegF Reg.CFG_PARAM_STATUS 29 27 0).setShadow
          (some set)).cause Reg.CFG_IRQ_CAUSE 2).answerEnd tr id 3 0 0)) ∧
  (∀ (signed : Bool) (bytes : List Nat) (tr : Transport) (id : Nat) (s : State), s.boot.checking = some (bytes, tr, id) →
      (signed = false ∨ (s.imageKey ((bytes.drop 320).take hssKeyBytes)).isNone = true) → Completes (.paramCheckDone signed) s fun t => t =
        ((((((s.modBoot (fun b => { b with checking := none })).setRegF Reg.CFG_PARAM_STATUS 30 30 0).setRegF Reg.CFG_PARAM_STATUS 29 27 1).report
          0 0x0066 14 0 none 0 [1]).cause Reg.CFG_IRQ_CAUSE 4).answerEnd tr id 3 6 1)) ∧
  (∀ (signed : Bool) (s : State), s.boot.checking = none → Completes (.paramCheckDone signed) s fun t => t = s) ∧
  (∀ (rq : Requester) (v : Word) (s u : State), s.writes rq Reg.CFG_IMAGE_CTRL = true → u = s.store Reg.CFG_IMAGE_CTRL v →
      u.regF Reg.CFG_IMAGE_CTRL 4 4 = u.boot.slot → Completes (.setTrial rq v) s fun t => t = u.setRegF Reg.CFG_IMAGE_CTRL 31 29 3) ∧
  (∀ (rq : Requester) (v : Word) (slot : Nat) (s u : State), s.writes rq Reg.CFG_IMAGE_CTRL = true → u = s.store Reg.CFG_IMAGE_CTRL v →
      slot = u.regF Reg.CFG_IMAGE_CTRL 4 4 → slot ≠ u.boot.slot → Tbl.get (fun _ => false) u.boot.good slot = false →
      Completes (.setTrial rq v) s fun t => t = u.setRegF Reg.CFG_IMAGE_CTRL 31 29 1) ∧
  (∀ (rq : Requester) (v : Word) (slot : Nat) (s u : State), s.writes rq Reg.CFG_IMAGE_CTRL = true → u = s.store Reg.CFG_IMAGE_CTRL v →
      slot = u.regF Reg.CFG_IMAGE_CTRL 4 4 → slot ≠ u.boot.slot → Tbl.get (fun _ => false) u.boot.good slot = true →
      (u.image slot).getD 9 0 < u.fuses.floor → Completes (.setTrial rq v) s fun t => t = u.setRegF Reg.CFG_IMAGE_CTRL 31 29 2) ∧
  (∀ (rq : Requester) (v : Word) (slot : Nat) (s u : State), s.writes rq Reg.CFG_IMAGE_CTRL = true → u = s.store Reg.CFG_IMAGE_CTRL v →
      slot = u.regF Reg.CFG_IMAGE_CTRL 4 4 → slot ≠ u.boot.slot → Tbl.get (fun _ => false) u.boot.good slot = true →
      u.fuses.floor ≤ (u.image slot).getD 9 0 → Completes (.setTrial rq v) s fun t =>
        t = (u.setRegF Reg.CFG_IMAGE_CTRL 31 29 0).modBoot (fun b => { b with trial := some slot, trialCount := 0, trialReason := 0 })) ∧
  (∀ (rq : Requester) (v : Word) (n : Nat) (s u : State), s.writes rq Reg.RNG_DBG_CTRL = true → s.draw = (n, u) →
      Completes (.newChallenge rq v) s fun t => t = u.setReg64 Reg.RNG_DBG_CHALLENGE_LO n) ∧
  (∀ (rq : Requester) (v : Word) (s : State), s.writes rq Reg.RNG_DBG_CTRL = true → s.debugLevel = 2 →
      Completes (.relock rq v) s fun t => t = s.setDebugLevel 2 0 0) ∧
  (∀ (rq : Requester) (v : Word) (s : State), s.writes rq Reg.RNG_DBG_CTRL = true → s.debugLevel = 3 →
      Completes (.relock rq v) s fun t => t = s.warmReset 5 0) ∧
  (∀ (token : List Byte) (signed : Bool) (s : State), s.tokenOk (byteNats token) signed = true →
      Completes (.debugToken token signed) s fun t => t = s.useToken (byteNats token)) ∧
  (∀ (token : List Byte) (signed : Bool) (s : State), s.tokenOk (byteNats token) signed = false → Completes (.debugToken token signed) s fun t => t = s)

/-- For every state in which the part runs and a transport served: OBJ_BEGIN (1) of an unknown kind answers 2; (2) of a kind in transfer 1; (3) of
a length that kind may not have 4; (4) else the transfer opens, an image's inactive slot is erased, and 0 is answered. OBJ_DATA (5) at the next
offset and within the total is appended, 0; (6) at any other offset is answered 5. OBJ_ABORT (7) of an open transfer drops it, 0; (8) of none
answers 2. OBJ_END (9) with no transfer open answers 2; (10) before the total 2, the transfer staying; (11) of an image that passes stores it in
the inactive slot, answers 0, and in recovery resets warmly; (12) of one that fails reports it, sets the cause and answers 6 with the reason; (13)
of a package installs it if it is good; (14) of parameters starts their check; (15) of a good token answers 0 and uses it. (16) TRANSFER_TIMEOUT
after 10 s without a message drops the transfer. -/
def Obligations.ObjectTransfers : Prop :=
  (∀ (tr : Transport) (id : BitVec 16) (kind : BitVec 8) (total : Word) (s : State), (s.boot.recovery = false ∨ ∀ x, tr ≠ .doe x) → objKind kind.toNat = false →
      Completes (.objBegin tr id kind total) s fun t => t = s.emit (.xfer tr 0x101 id.toNat 2 kind.toNat [])) ∧
  (∀ (tr : Transport) (id : BitVec 16) (kind : BitVec 8) (total : Word) (s : State), (s.boot.recovery = false ∨ ∀ x, tr ≠ .doe x) → objKind kind.toNat = true →
      (s.xfer kind.toNat).isSome = true → Completes (.objBegin tr id kind total) s fun t => t = s.emit (.xfer tr 0x101 id.toNat 1 kind.toNat [])) ∧
  (∀ (tr : Transport) (id : BitVec 16) (kind : BitVec 8) (total : Word) (s : State), (s.boot.recovery = false ∨ ∀ x, tr ≠ .doe x) → objKind kind.toNat = true →
      s.xfer kind.toNat = none → objLength kind.toNat total.toNat = false →
      Completes (.objBegin tr id kind total) s fun t => t = s.emit (.xfer tr 0x101 id.toNat 4 kind.toNat [])) ∧
  (∀ (tr : Transport) (id : BitVec 16) (kind : BitVec 8) (total : Word) (s u : State), (s.boot.recovery = false ∨ ∀ x, tr ≠ .doe x) → objKind kind.toNat = true →
      s.xfer kind.toNat = none → objLength kind.toNat total.toNat = true → u = s.setXfer kind.toNat (some ⟨total.toNat, [], s.lcc⟩) →
      Completes (.objBegin tr id kind total) s fun t =>
        t = (if kind.toNat = 1 then u.eraseSlot (1 - u.boot.slot) else u).emit (.xfer tr 0x101 id.toNat 0 kind.toNat [])) ∧
  (∀ (tr : Transport) (id : BitVec 16) (kind : BitVec 8) (offset : Word) (data : List Byte) (x : Xfer) (s : State),
      (s.boot.recovery = false ∨ ∀ x, tr ≠ .doe x) → s.xfer kind.toNat = some x → data.length ≤ 8192 → offset.toNat = x.bytes.length →
      x.bytes.length + data.length ≤ x.total → Completes (.objData tr id kind offset data) s fun t =>
        t = ((s.setXfer kind.toNat (some { x with last := s.lcc })).setXfer kind.toNat
          (some { x with bytes := x.bytes ++ byteNats data, last := s.lcc })).emit (.xfer tr 0x102 id.toNat 0 kind.toNat [])) ∧
  (∀ (tr : Transport) (id : BitVec 16) (kind : BitVec 8) (offset : Word) (data : List Byte) (x : Xfer) (s : State),
      (s.boot.recovery = false ∨ ∀ x, tr ≠ .doe x) → s.xfer kind.toNat = some x → data.length ≤ 8192 → offset.toNat ≠ x.bytes.length →
      Completes (.objData tr id kind offset data) s fun t =>
        t = (s.setXfer kind.toNat (some { x with last := s.lcc })).emit (.xfer tr 0x102 id.toNat 5 kind.toNat [])) ∧
  (∀ (tr : Transport) (id : BitVec 16) (kind : BitVec 8) (s : State), (s.boot.recovery = false ∨ ∀ x, tr ≠ .doe x) → (s.xfer kind.toNat).isSome = true →
      Completes (.objAbort tr id kind) s fun t => t = (s.setXfer kind.toNat none).emit (.xfer tr 0x104 id.toNat 0 kind.toNat [])) ∧
  (∀ (tr : Transport) (id : BitVec 16) (kind : BitVec 8) (s : State), (s.boot.recovery = false ∨ ∀ x, tr ≠ .doe x) → s.xfer kind.toNat = none →
      Completes (.objAbort tr id kind) s fun t => t = s.emit (.xfer tr 0x104 id.toNat 2 kind.toNat [])) ∧
  (∀ (tr : Transport) (id : BitVec 16) (kind : BitVec 8) (signed : Bool) (s : State), (s.boot.recovery = false ∨ ∀ x, tr ≠ .doe x) →
      s.xfer kind.toNat = none → Completes (.objEnd tr id kind signed) s fun t => t = s.answerEnd tr id.toNat (kind.toNat % 16) 2 0) ∧
  (∀ (tr : Transport) (id : BitVec 16) (kind : BitVec 8) (signed : Bool) (x : Xfer) (s : State), (s.boot.recovery = false ∨ ∀ x, tr ≠ .doe x) →
      s.xfer kind.toNat = some x → x.bytes.length ≠ x.total → Completes (.objEnd tr id kind signed) s fun t =>
        t = (s.setXfer kind.toNat (some { x with last := s.lcc })).answerEnd tr id.toNat kind.toNat 2 0) ∧
  (∀ (tr : Transport) (id : BitVec 16) (signed : Bool) (x : Xfer) (slot : Nat) (s u v : State), (s.boot.recovery = false ∨ ∀ x, tr ≠ .doe x) →
      s.xfer 1 = some x → x.bytes.length = x.total → u = s.setXfer 1 none → slot = 1 - s.boot.slot → u.imageCheck x.bytes signed = 0 →
      v = (u.modBoot (fun b => { b with images := Tbl.set (fun _ => []) b.images slot x.bytes,
                                        good := Tbl.set (fun _ => false) b.good slot true })).answerEnd tr id.toNat 1 0 0 →
      Completes (.objEnd tr id 1 signed) s fun t => t = if s.boot.recovery then v.warmReset 3 0 else v) ∧
  (∀ (tr : Transport) (id : BitVec 16) (signed : Bool) (x : Xfer) (r : Nat) (s u : State), (s.boot.recovery = false ∨ ∀ x, tr ≠ .doe x) →
      s.xfer 1 = some x → x.bytes.length = x.total → u = s.setXfer 1 none → r = u.imageCheck x.bytes signed → r ≠ 0 →
      Completes (.objEnd tr id 1 signed) s fun t =>
        t = ((u.report 2 0x0064 14 0 none 0 [1 - s.boot.slot, r]).cause Reg.RNG_SEC_IRQ_CAUSE 8).answerEnd tr id.toNat 1 6 r) ∧
  (∀ (tr : Transport) (id : BitVec 16) (signed : Bool) (x : Xfer) (r : Nat) (s u : State), (s.boot.recovery = false ∨ ∀ x, tr ≠ .doe x) →
      s.xfer 2 = some x → x.bytes.length = x.total → u = s.setXfer 2 none → r = u.packageCheck x.bytes signed →
      Completes (.objEnd tr id 2 signed) s fun t => t = (u.installPackage x.bytes r).answerEnd tr id.toNat 2 (if r = 0 then 0 else 6) r) ∧
  (∀ (tr : Transport) (id : BitVec 16) (signed : Bool) (x : Xfer) (s u : State), (s.boot.recovery = false ∨ ∀ x, tr ≠ .doe x) →
      s.xfer 3 = some x → x.bytes.length = x.total → s.boot.checking = none → u = s.setXfer 3 none →
      Completes (.objEnd tr id 3 signed) s fun t =>
        t = ((u.setShadow none).modBoot (fun b => { b with checking := some (x.bytes, tr, id.toNat) })).setRegF Reg.CFG_PARAM_STATUS 30 30 1) ∧
  (∀ (tr : Transport) (id : BitVec 16) (signed : Bool) (x : Xfer) (s u : State), (s.boot.recovery = false ∨ ∀ x, tr ≠ .doe x) →
      s.xfer 4 = some x → x.bytes.length = x.total → u = s.setXfer 4 none → u.tokenOk x.bytes signed = true →
      Completes (.objEnd tr id 4 signed) s fun t => t = (u.answerEnd tr id.toNat 4 0 0).useToken x.bytes) ∧
  (∀ (kind : Fin 4) (x : Xfer) (s : State), s.xfer (kind.val + 1) = some x → 1000000000 ≤ s.lcc - x.last →
      Completes (.transferTimeout kind) s fun t => t = s.setXfer (kind.val + 1) none)

/-- For every state in which the part runs and a transport served: (1) QUOTE of a 32-byte nonce with a leaf left answers 0 with the quote's words
and a signature, the leaf used up; (2) with none left 6; (3) of another length 2. (4) KEM_KEY with a leaf left answers the encapsulation key and a
signature; (5) with none 6. The signature and the key are free values (log entry 4). (6) SESSION_OPEN with 1568 bytes on a port's DOE opens the
next session as that port's; (7) on another transport it is refused with 3. SESSION_MSG of the port's session (8) that authenticates takes effect
and is answered 0; (9) that does not is answered 6; (10) of another session 2. What an IDE message does is PRESUMED (log entry 30). -/
def Obligations.QuotesAndSessions : Prop :=
  (∀ (tr : Transport) (id : BitVec 16) (nonce : List Byte) (leaf : Nat) (sig : List Nat) (s u v : State), (s.boot.recovery = false ∨ ∀ x, tr ≠ .doe x) →
      nonce.length = 32 → s.useLeaf = some (leaf, u) → u.sign = (sig, v) →
      Completes (.quote tr id nonce) s fun t => t = v.emit (.xfer tr 0x110 id.toNat 0 0 (v.quoteWords (byteNats nonce) leaf ++ sig))) ∧
  (∀ (tr : Transport) (id : BitVec 16) (nonce : List Byte) (s : State), (s.boot.recovery = false ∨ ∀ x, tr ≠ .doe x) →
      nonce.length = 32 → s.useLeaf = none → Completes (.quote tr id nonce) s fun t => t = s.emit (.xfer tr 0x110 id.toNat 6 0 [])) ∧
  (∀ (tr : Transport) (id : BitVec 16) (nonce : List Byte) (s : State), (s.boot.recovery = false ∨ ∀ x, tr ≠ .doe x) →
      nonce.length ≠ 32 → Completes (.quote tr id nonce) s fun t => t = s.emit (.xfer tr 0x110 id.toNat 2 0 [])) ∧
  (∀ (tr : Transport) (id : BitVec 16) (leaf : Nat) (sig : List Nat) (s u v : State), (s.boot.recovery = false ∨ ∀ x, tr ≠ .doe x) →
      s.useLeaf = some (leaf, u) → u.sign = (sig, v) →
      Completes (.kemKey tr id) s fun t => t = v.emit (.xfer tr 0x111 id.toNat 0 0 (freeWords v.boot.kem 392 ++ sig))) ∧
  (∀ (tr : Transport) (id : BitVec 16) (s : State), (s.boot.recovery = false ∨ ∀ x, tr ≠ .doe x) → s.useLeaf = none →
      Completes (.kemKey tr id) s fun t => t = s.emit (.xfer tr 0x111 id.toNat 6 0 [])) ∧
  (∀ (h : Fin 2) (id : BitVec 16) (ct : List Byte) (n : Nat) (s : State), s.boot.recovery = false → ct.length = 1568 →
      n = (s.mgmt.nextSession + 1) % 2 ^ 32 → Completes (.sessionOpen (.doe h) id ct) s fun t =>
        t = ({ s with mgmt := { s.mgmt with nextSession := n, sessions := Tbl.set (fun _ => none) s.mgmt.sessions h.val (some n) } } : State).emit
          (.xfer (.doe h) 0x112 id.toNat 0 0 [n])) ∧
  (∀ (tr : Transport) (id : BitVec 16) (ct : List Byte) (s : State), (∀ x, tr ≠ .doe x) →
      Completes (.sessionOpen tr id ct) s fun t => t = s.emit (.xfer tr 0x112 id.toNat 3 0 [])) ∧
  (∀ (h : Fin 2) (id : BitVec 16) (session : Word) (m : IdeMsg) (s : State), s.boot.recovery = false →
      Tbl.get (fun _ => none) s.mgmt.sessions h.val = some session.toNat →
      Completes (.sessionMsg (.doe h) id session (some m)) s fun t => t = (s.ideMessage h.val m).emit (.xfer (.doe h) 0x113 id.toNat 0 0 [])) ∧
  (∀ (h : Fin 2) (id : BitVec 16) (session : Word) (s : State), s.boot.recovery = false →
      Tbl.get (fun _ => none) s.mgmt.sessions h.val = some session.toNat →
      Completes (.sessionMsg (.doe h) id session none) s fun t => t = s.emit (.xfer (.doe h) 0x113 id.toNat 6 0 [])) ∧
  (∀ (h : Fin 2) (id : BitVec 16) (session : Word) (m : Option IdeMsg) (s : State), s.boot.recovery = false →
      Tbl.get (fun _ => none) s.mgmt.sessions h.val ≠ some session.toNat →
      Completes (.sessionMsg (.doe h) id session m) s fun t => t = s.emit (.xfer (.doe h) 0x113 id.toNat 2 0 []))

/-- For every state in which the part runs: (1) Identify answers on every mailbox; the mailbox of a partition's logical device answers (2)
Identify Memory Device with the image version and no static capacity, (3) Get Supported Logs with one log, (4) Get Log with the region and figures
the spec does not give (free values, log entry 4), (5) Get Event Interrupt Policy as it stands, (6) Get Dynamic Capacity Configuration, and (7)
Get Dynamic Capacity Extent List with the live extents; (8) Set Event Interrupt Policy sets it. (9) Get Event Records answers the device's log on
every mailbox, and (10) Clear Event Records removes the handles named. An FM mailbox answers (11) Get LD Info, (12) Get LD Allocations, and, for a
device it may name, (13) Get DC Region Configuration and (14) Get DC Region Extent Lists; (15) on another device it answers invalid input. (16) A
command of the other kind of mailbox, (17) Set LD Allocations and (18) any other command are unsupported. The words of each answer are PRESUMED
(log entry 31). -/
def Obligations.MailboxQueries : Prop :=
  (∀ (mb : Mailbox) (s : State), Completes (.identifyDevice mb) s fun t =>
      t = s.emit (.mailbox mb "Identify" 0 [0x1F7C, 0x0640, 0xA1, 0x050210, s.boot.config.subsystem])) ∧
  (∀ (p : Fin 32) (s : State), Completes (.identifyMemoryDevice (.ld p)) s fun t =>
      t = s.emit (.mailbox (.ld p) "Identify Memory Device" 0 [s.regN Reg.CFG_IMAGE_VER, 0])) ∧
  (∀ (p : Fin 32) (s : State), Completes (.getSupportedLogs (.ld p)) s fun t => t = s.emit (.mailbox (.ld p) "Get Supported Logs" 0 [1])) ∧
  (∀ (p : Fin 32) (s : State), Completes (.getLog (.ld p)) s fun t => t = s.emit (.mailbox (.ld p) "Get Log" 0
      [0, regionBytes, (Config.cdatFigure 0).toNat, (Config.cdatFigure 1).toNat])) ∧
  (∀ (p : Fin 32) (s : State), Completes (.getEventInterruptPolicy (.ld p)) s fun t =>
      t = s.emit (.mailbox (.ld p) "Get Event Interrupt Policy" 0 [if (s.ld p.val).policyMsix then 1 else 0])) ∧
  (∀ (p : Fin 32) (s : State), Completes (.getDynamicCapacityConfig (.ld p)) s fun t =>
      t = s.emit (.mailbox (.ld p) "Get Dynamic Capacity Configuration" 0 regionWords)) ∧
  (∀ (p : Fin 32) (s : State), Completes (.getDynamicCapacityExtentList (.ld p)) s fun t =>
      t = s.emit (.mailbox (.ld p) "Get Dynamic Capacity Extent List" 0 (extentWords (s.extents.filter (fun e => decide (e.part = p.val) && e.isLive))))) ∧
  (∀ (p : Fin 32) (msix : Bool) (s : State), Completes (.setEventInterruptPolicy (.ld p) msix) s fun t =>
      t = (s.modLd p.val (fun d => { d with policyMsix := msix })).emit (.mailbox (.ld p) "Set Event Interrupt Policy" 0 [])) ∧
  (∀ (mb : Mailbox) (s : State), Completes (.getEventRecords mb) s fun t => t = s.emit (.mailbox mb "Get Event Records" 0
      ((s.ld mb.device).events.flatMap (fun e => [e.handle, e.kind, e.range.base, e.range.size])))) ∧
  (∀ (mb : Mailbox) (handles : List Nat) (s : State), Completes (.clearEventRecords mb handles) s fun t =>
      t = (s.modLd mb.device (fun d => { d with events := d.events.filter (fun e => !handles.contains e.handle) })).emit
        (.mailbox mb "Clear Event Records" 0 [])) ∧
  (∀ (mb : Mailbox) (s : State), (∀ p, mb ≠ .ld p) → Completes (.getLdInfo mb) s fun t => t = s.emit (.mailbox mb "Get LD Info" 0 [regionBytes, 16])) ∧
  (∀ (mb : Mailbox) (s : State), (∀ p, mb ≠ .ld p) →
      Completes (.getLdAllocations mb) s fun t => t = s.emit (.mailbox mb "Get LD Allocations" 0 (16 :: List.replicate 16 0))) ∧
  (∀ (mb : Mailbox) (p : Fin 32) (s : State), (∀ p, mb ≠ .ld p) → mb.names p.val = true →
      Completes (.getDcRegionConfiguration mb p) s fun t => t = s.emit (.mailbox mb "Get DC Region Configuration" 0 regionWords)) ∧
  (∀ (mb : Mailbox) (p : Fin 32) (s : State), (∀ p, mb ≠ .ld p) → mb.names p.val = true →
      Completes (.getDcRegionExtentLists mb p) s fun t => t = s.emit (.mailbox mb "Get DC Region Extent Lists" 0
        (extentWords (s.extents.filter (fun e => decide (e.part = p.val) && decide (e.state ≠ .pending)))))) ∧
  (∀ (mb : Mailbox) (p : Fin 32) (s : State), (∀ p, mb ≠ .ld p) → mb.names p.val = false →
      Completes (.getDcRegionConfiguration mb p) s (fun t => t = s.emit (.mailbox mb "Get DC Region Configuration" 1 [])) ∧
      Completes (.getDcRegionExtentLists mb p) s (fun t => t = s.emit (.mailbox mb "Get DC Region Extent Lists" 1 []))) ∧
  (∀ (mb : Mailbox) (p : Fin 32) (s : State),
      ((∀ q, mb ≠ .ld q) → Completes (.getLog mb) s (fun t => t = s.emit (.mailbox mb "Get Log" 2 [])) ∧
        Completes (.getDynamicCapacityExtentList mb) s (fun t => t = s.emit (.mailbox mb "Get Dynamic Capacity Extent List" 2 []))) ∧
      Completes (.getLdInfo (.ld p)) s (fun t => t = s.emit (.mailbox (.ld p) "Get LD Info" 2 []))) ∧
  (∀ (mb : Mailbox) (s : State), Completes (.setLdAllocations mb) s fun t => t = s.emit (.mailbox mb "Set LD Allocations" 2 [])) ∧
  (∀ (mb : Mailbox) (opcode : BitVec 16) (s : State), Completes (.unsupportedMailboxCommand mb opcode) s fun t =>
      t = s.emit (.mailbox mb "Unsupported" 2 [opcode.toNat]))

/-- For every state in which the part runs: (1) Add Dynamic Capacity Response that accepts pending ranges only makes them live, drops the
partition's other pending ones and sets the port's cause; (2) of a range that is not pending it is invalid input and changes nothing. (3) Release
Dynamic Capacity of ranges of live extents starts their release and answers success. (4) An FM mailbox that may name the device adds each range
that R423 allows as pending, records the event and answers success if none was refused; (5) it offers the ranges of a release to the host; (6) a
forced release of one such range starts it at once and records event 2; (7) naming a device of the other port is invalid input. (8) Inject Poison
of a DPA in a live extent sets that line's poison bit; (9) Clear Poison makes a whole-line store of the bytes it carries; (10) both are invalid
input outside the live extents. -/
def Obligations.DynamicCapacity : Prop :=
  (∀ (p : Fin 32) (accepted : List Range) (s u : State), (accepted.all (fun r => s.extents.any (fun e => decide (e.part = p.val) && decide (e.state = .pending) &&
        decide (e.range = dpaRange r)))) = true →
      (s.extents.any (fun e => decide (e.part = p.val) && decide (e.state = .pending) && accepted.any (fun r => decide (dpaRange r = e.range)))) = true →
      u = { s with extents := (s.extents.filter (fun e => !(decide (e.part = p.val) && decide (e.state = .pending)) ||
          accepted.any (fun r => decide (dpaRange r = e.range)))).map (fun e =>
        if (decide (e.part = p.val) && decide (e.state = .pending)) = true then { e with state := .live } else e) } →
      Completes (.addDynamicCapacityResponse (.ld p) accepted) s fun t =>
        t = (u.cause (Reg.CXL_IRQ_CAUSE (p.val / 16)) 16).emit (.mailbox (.ld p) "Add Dynamic Capacity Response" 0 [])) ∧
  (∀ (p : Fin 32) (accepted : List Range) (s : State), (accepted.all (fun r => s.extents.any (fun e => decide (e.part = p.val) && decide (e.state = .pending) &&
        decide (e.range = dpaRange r)))) = false →
      Completes (.addDynamicCapacityResponse (.ld p) accepted) s fun t => t = s.emit (.mailbox (.ld p) "Add Dynamic Capacity Response" 1 [])) ∧
  (∀ (p : Fin 32) (ranges : List Range) (s : State), ranges.all (s.releasable p.val) = true →
      Completes (.releaseDynamicCapacity (.ld p) ranges) s fun t =>
        t = (ranges.foldl (fun s r => s.releasePoint p.val (dpaRange r)) s).emit (.mailbox (.ld p) "Release Dynamic Capacity" 0 [])) ∧
  (∀ (mb : Mailbox) (p : Fin 32) (ranges : List Range) (s u : State), (∀ q, mb ≠ .ld q) → mb.names p.val = true →
      u = ranges.foldl (fun s r => s.addRange p.val r) s →
      Completes (.initiateDynamicCapacityAdd mb p ranges) s fun t => t = u.emit (.mailbox mb "Initiate Dynamic Capacity Add"
        (if u.regN (Reg.CXL_DC_REFUSED (p.val / 16)) = s.regN (Reg.CXL_DC_REFUSED (p.val / 16)) then 0 else 1) [])) ∧
  (∀ (mb : Mailbox) (p : Fin 32) (ranges : List Range) (s u : State), (∀ q, mb ≠ .ld q) → mb.names p.val = true →
      ranges.all (s.releasable p.val) = true → u = ranges.foldl (fun s r => s.offerRelease p.val r) s →
      Completes (.initiateDynamicCapacityRelease mb p ranges false) s fun t => t = u.emit (.mailbox mb "Initiate Dynamic Capacity Release" 0 [])) ∧
  (∀ (mb : Mailbox) (p : Fin 32) (r : Range) (s : State), (∀ q, mb ≠ .ld q) → mb.names p.val = true → s.releasable p.val r = true →
      Completes (.initiateDynamicCapacityRelease mb p [r] true) s fun t =>
        t = ((s.releasePoint p.val (dpaRange r)).eventRecord p.val 2 r).emit (.mailbox mb "Initiate Dynamic Capacity Release" 0 [])) ∧
  (∀ (mb : Mailbox) (p : Fin 32) (ranges : List Range) (forced : Bool) (s : State), (∀ q, mb ≠ .ld q) → mb.names p.val = false →
      Completes (.initiateDynamicCapacityAdd mb p ranges) s (fun t => t = s.emit (.mailbox mb "Initiate Dynamic Capacity Add" 1 [])) ∧
      Completes (.initiateDynamicCapacityRelease mb p ranges forced) s
        (fun t => t = s.emit (.mailbox mb "Initiate Dynamic Capacity Release" 1 []))) ∧
  (∀ (p : Fin 32) (dpa : BitVec 64) (l : Nat) (s : State), s.dpaLine p.val dpa.toNat = some l →
      Completes (.injectPoison (.ld p) dpa) s fun t => t = (s.setT1Poison (64 * l) true).emit (.mailbox (.ld p) "Inject Poison" 0 [])) ∧
  (∀ (p : Fin 32) (dpa : BitVec 64) (data : Line) (l : Nat) (s : State), s.dpaLine p.val dpa.toNat = some l →
      Completes (.clearPoison (.ld p) dpa data) s fun t =>
        t = (s.request (HomeReq.store .device l (2 ^ 64 - 1) data.toNat false)).emit (.mailbox (.ld p) "Clear Poison" 0 [])) ∧
  (∀ (p : Fin 32) (dpa : BitVec 64) (data : Line) (s : State), s.dpaLine p.val dpa.toNat = none →
      Completes (.injectPoison (.ld p) dpa) s (fun t => t = s.emit (.mailbox (.ld p) "Inject Poison" 1 [])) ∧
      Completes (.clearPoison (.ld p) dpa data) s (fun t => t = s.emit (.mailbox (.ld p) "Clear Poison" 1 [])))

/-- For every state in which the part runs: a management port with an address answers (1) ARP and (2) an ICMP echo to that address, and (3)
neither to another. (4) SETDASA of the target's static address and (5) ENTDAA give the target, while it has none, its dynamic address; (6) SETDASA
of another does nothing. (7) Set Endpoint ID sets it and (8) Get Endpoint ID answers it; (9) IDs 0 and 255 are refused (PRESUMED from MCTP, log
entry 31). (10) Get Version Support answers a version for the types carried (a free value, log entry 4) and (11) an error code for others; (12)
Get Message Type Support names the three. (13) A link change shows in its bit, and (14) a dropped frame is counted. -/
def Obligations.ManagementPorts : Prop :=
  (∀ (port : Fin 2) (target sender : Word) (s : State), target.toNat ≠ 0 → target.toNat = s.ip port.val →
      Completes (.arpRequest port target sender) s fun t => t = s.emit (.frame port.val "ARP" [s.mac port.val, s.ip port.val, sender.toNat])) ∧
  (∀ (port : Fin 2) (target sender : Word) (body : List Byte) (s : State), target.toNat ≠ 0 → target.toNat = s.ip port.val →
      Completes (.icmpEcho port target sender body) s fun t => t = s.emit (.frame port.val "ICMP" (sender.toNat :: byteNats body))) ∧
  (∀ (port : Fin 2) (target sender : Word) (body : List Byte) (s : State), target.toNat ≠ s.ip port.val →
      Completes (.arpRequest port target sender) s (fun t => t = s) ∧ Completes (.icmpEcho port target sender body) s (fun t => t = s)) ∧
  (∀ (stat dyn : BitVec 7) (s : State), stat.toNat = s.regF Reg.RNG_I3C_STATUS 6 0 → s.regF Reg.RNG_I3C_STATUS 31 31 ≠ 1 →
      Completes (.setDasa stat dyn) s fun t => t = (s.setRegF Reg.RNG_I3C_STATUS 31 31 1).setRegF Reg.RNG_I3C_STATUS 30 24 dyn.toNat) ∧
  (∀ (dyn : BitVec 7) (s : State), s.regF Reg.RNG_I3C_STATUS 31 31 ≠ 1 →
      Completes (.entDaa dyn) s fun t => t = (s.setRegF Reg.RNG_I3C_STATUS 31 31 1).setRegF Reg.RNG_I3C_STATUS 30 24 dyn.toNat) ∧
  (∀ (stat dyn : BitVec 7) (s : State), stat.toNat ≠ s.regF Reg.RNG_I3C_STATUS 6 0 → Completes (.setDasa stat dyn) s fun t => t = s) ∧
  (∀ (eid : BitVec 8) (s : State), eid ≠ 0 → eid ≠ 255 →
      Completes (.setEndpointId eid) s fun t => t = (s.setRegF Reg.RNG_I3C_STATUS 15 8 eid.toNat).emit (.mctp "Set Endpoint ID" [0, eid.toNat])) ∧
  (∀ (s : State), Completes .getEndpointId s fun t => t = s.emit (.mctp "Get Endpoint ID" [0, s.regF Reg.RNG_I3C_STATUS 15 8])) ∧
  (∀ (eid : BitVec 8) (s : State), (eid = 0 ∨ eid = 255) →
      Completes (.setEndpointId eid) s fun t => t = s.emit (.mctp "Set Endpoint ID" [2, s.regF Reg.RNG_I3C_STATUS 15 8])) ∧
  (∀ (m : BitVec 8) (s : State), (m = 0 ∨ m = 7 ∨ m = 0x7E ∨ m = 0xFF) →
      Completes (.getVersionSupport m) s fun t => t = s.emit (.mctp "Get Version Support" [0, (Config.mctpVersion m.toNat).toNat])) ∧
  (∀ (m : BitVec 8) (s : State), ¬ (m = 0 ∨ m = 7 ∨ m = 0x7E ∨ m = 0xFF) →
      Completes (.getVersionSupport m) s fun t => t = s.emit (.mctp "Get Version Support" [0x80])) ∧
  (∀ (s : State), Completes .getMessageTypeSupport s fun t => t = s.emit (.mctp "Get Message Type Support" [0, 3, 0x00, 0x07, 0x7E])) ∧
  (∀ (port : Fin 2) (up : Bool) (s : State), Completes (.managementLinkChange port up) s fun t =>
      t = s.setRegF Reg.RNG_NET_STATUS (30 + port.val) (30 + port.val) (if up then 1 else 0)) ∧
  (∀ (port : Fin 2) (s : State), Completes (.managementFrameDrop port) s fun t => t = s.count Reg.RNG_NET_DROPPED 1)

/-- For every state in which the part runs, by a requester that may write the register: (1) SCL_CLEAR takes run from the value written and clears
the Scaler; (2) START_ALL and (3) STOP_ALL set and clear run of all ten; (4) CLEAR_ALL clears all ten. (5) SCL_EVSEL_WRITE selects the event and
arms the counter's threshold cause again. BW_WINDOW_END of a hub or link tile (6) at a boundary of its window, with measuring on and the size
unchanged, counts the window, CUR becomes LAST and the peaks follow; (7) at no boundary it counts nothing; (10) it does nothing a second time in
one cycle, nor on a tile that has no meters. (8) SAMPLING_ENABLE stores the control and loads again the LFSRs of the kinds of unit that begin to
be sampled; (9) SCL_SMP_POP removes the oldest record. -/
def Obligations.ScalerCommands : Prop :=
  (∀ (rq : Requester) (k : Fin 10) (v : Word) (s : State), s.writes rq (Reg.SCL_CTRL k.val) = true →
      Completes (.sclClear rq k v) s fun t => t = (s.store (Reg.SCL_CTRL k.val) v).sclClear k.val) ∧
  (∀ (rq : Requester) (v : Word) (s : State), s.writes rq (Reg.SCL_SYNC 0) = true →
      Completes (.startAll rq v) s fun t => t = (List.range 10).foldl (fun s k => s.setRegF (Reg.SCL_CTRL k) 0 0 1) s) ∧
  (∀ (rq : Requester) (v : Word) (s : State), s.writes rq (Reg.SCL_SYNC 0) = true →
      Completes (.stopAll rq v) s fun t => t = (List.range 10).foldl (fun s k => s.setRegF (Reg.SCL_CTRL k) 0 0 0) s) ∧
  (∀ (rq : Requester) (v : Word) (s : State), s.writes rq (Reg.SCL_SYNC 0) = true →
      Completes (.clearAll rq v) s fun t => t = (List.range 10).foldl State.sclClear s) ∧
  (∀ (rq : Requester) (k : Fin 10) (n : Fin 8) (v : Word) (s : State), s.writes rq (Reg.SCL_EVSEL k.val n.val) = true →
      Completes (.sclEvselWrite rq k n v) s fun t => t = (s.store (Reg.SCL_EVSEL k.val n.val) v).modScaler k.val
        (fun x => { x with fired := x.fired.filter (fun i => !decide (i = n.val)) })) ∧
  (∀ (k : Fin 10) (s : State), 4 ≤ k.val → s.lcc ≠ (s.scaler k.val).ended → s.lcc % 2 ^ (s.scaler k.val).window = 0 → bitOf (s.reg (Reg.SCL_BW_CTRL k.val)) 31 = true →
      (s.scaler k.val).window = s.windowLog2 k.val →
      Completes (.bwWindowEnd k) s fun t => t = (s.setRegN (Reg.SCL_BW_INDEX k.val) (s.regN (Reg.SCL_BW_INDEX k.val) + 1)).modScaler k.val (fun x =>
        { x with ended := s.lcc, last := x.cur, cur := [], peak := x.cur.foldl (fun t e => Tbl.modify (fun _ => 0) t e.1 (fun o => max o e.2)) x.peak })) ∧
  (∀ (k : Fin 10) (s : State), 4 ≤ k.val → s.lcc ≠ (s.scaler k.val).ended → s.lcc % 2 ^ (s.scaler k.val).window ≠ 0 → s.lcc % 2 ^ s.windowLog2 k.val ≠ 0 →
      Completes (.bwWindowEnd k) s fun t => t = s.modScaler k.val (fun x => { x with ended := s.lcc })) ∧
  (∀ (k : Fin 10) (s : State), (k.val < 4 ∨ s.lcc = (s.scaler k.val).ended) → Completes (.bwWindowEnd k) s fun t => t = s) ∧
  (∀ (rq : Requester) (k : Fin 4) (v old : Word) (s : State), s.writes rq (Reg.SCL_SMP_CTRL k.val) = true → old = s.reg (Reg.SCL_SMP_CTRL k.val) →
      Completes (.samplingEnable rq k v) s fun t => t = (s.store (Reg.SCL_SMP_CTRL k.val) v).modScaler k.val (fun x =>
        { x with lfsr := x.lfsr.filter (fun e => !(if e.1 < 16 then bitOf v 30 && !bitOf old 30 else bitOf v 31 && !bitOf old 31)) })) ∧
  (∀ (rq : Requester) (k : Fin 4) (v : Word) (s : State), s.writes rq (Reg.SCL_SMP_POP k.val) = true →
      Completes (.sclSmpPop rq k v) s fun t => t = s.modScaler k.val (fun x => { x with samples := x.samples.drop 1 }))

/-- For every state in which the part runs, by a requester that may write TLY_CTRL, for the group selected: a write (1) by another than its owner
sets err 2 and nothing else. TALLY_START of an idle group (2) not eligible sets err 1; (3) eligible, with a mode, pattern and lanes its kind has,
starts it: a Cofeben or CXL group trains, another runs. (4) TALLY_STOP of a busy group stops it with reason 1. (5) TALLY_CLEAR zeroes its counters
and eye results. TALLY_SCAN (6) of a running group with a checker on a locked lane begins a scan; (7) else err 3. (8) TALLY_TRAINED lets a
training group run; (9) TALLY_TRAIN_TIMEOUT after 10,000,000 cycles stops it with reason 4. (10) TALLY_DURATION_END counts and stops with reason
2. (11) TALLY_LOCK_LOST of a locked lane counts the loss and sets the cause. (12) EYE_SCAN_DONE keeps the eye and sets the cause. (13)
TALLY_LANE_LOCK locks a lane with a checker and counts. -/
def Obligations.TallyCommands : Prop :=
  (∀ (rq : Requester) (u : Fin 6) (v : Word) (g i : Nat) (k : LaneKind) (s : State), s.writes rq (Reg.TLY_CTRL u.val) = true →
      g = s.regF (Reg.TLY_GRP_SEL u.val) 3 0 → tallyKind u.val g = some (k, i) → (s.tallyGroup u.val g).writes rq = false →
      Completes (.tallyStart rq u v) s (fun t => t = s.modTally u.val g (fun x => { x with err := 2 })) ∧
      Completes (.tallyStop rq u v) s (fun t => t = s.modTally u.val g (fun x => { x with err := 2 })) ∧
      Completes (.tallyClear rq u v) s (fun t => t = s.modTally u.val g (fun x => { x with err := 2 })) ∧
      Completes (.tallyScan rq u v) s (fun t => t = s.modTally u.val g (fun x => { x with err := 2 }))) ∧
  (∀ (rq : Requester) (u : Fin 6) (v : Word) (g i : Nat) (k : LaneKind) (s : State), s.writes rq (Reg.TLY_CTRL u.val) = true →
      g = s.regF (Reg.TLY_GRP_SEL u.val) 3 0 → tallyKind u.val g = some (k, i) → (s.tallyGroup u.val g).writes rq = true →
      (s.tallyGroup u.val g).busy = false → s.tallyEligible k i = false →
      Completes (.tallyStart rq u v) s fun t => t = s.modTally u.val g (fun x => { x with err := 1 })) ∧
  (∀ (rq : Requester) (u : Fin 6) (v : Word) (g i : Nat) (k : LaneKind) (x : TallyGroup) (s : State), s.writes rq (Reg.TLY_CTRL u.val) = true →
      g = s.regF (Reg.TLY_GRP_SEL u.val) 3 0 → tallyKind u.val g = some (k, i) → x = s.tallyGroup u.val g → x.writes rq = true →
      x.busy = false → s.tallyEligible k i = true → k.runs x.pattern x.mode = true → x.range.2 ≠ 0 → x.range.1 + x.range.2 ≤ k.lanes →
      Completes (.tallyStart rq u v) s fun t => t = s.modTally u.val g (fun x => { x.mapLanes (fun l => { l with locked := false }) with
        state := if k = .cofeben ∨ k = .cxl then 1 else 2, owner := if rq = .ranger then (if s.boot.done then 2 else 3) else 1, reason := 0, since := s.lcc })) ∧
  (∀ (rq : Requester) (u : Fin 6) (v : Word) (g i : Nat) (k : LaneKind) (s : State), s.writes rq (Reg.TLY_CTRL u.val) = true →
      g = s.regF (Reg.TLY_GRP_SEL u.val) 3 0 → tallyKind u.val g = some (k, i) → (s.tallyGroup u.val g).writes rq = true →
      (s.tallyGroup u.val g).busy = true → Completes (.tallyStop rq u v) s fun t => t = s.tallyEnd u.val g 1 0) ∧
  (∀ (rq : Requester) (u : Fin 6) (v : Word) (g i : Nat) (k : LaneKind) (s : State), s.writes rq (Reg.TLY_CTRL u.val) = true →
      g = s.regF (Reg.TLY_GRP_SEL u.val) 3 0 → tallyKind u.val g = some (k, i) → (s.tallyGroup u.val g).writes rq = true →
      Completes (.tallyClear rq u v) s fun t => t = s.modTally u.val g (fun x => { x.mapLanes (fun l => { Lane.reset with locked := l.locked }) with
        flits := 0, flitCrc := 0, eyeDone := false, width := 0, height := 0, vstep := 0, eyeMap := [] })) ∧
  (∀ (rq : Requester) (u : Fin 6) (v : Word) (g i lane : Nat) (k : LaneKind) (x : TallyGroup) (s : State), s.writes rq (Reg.TLY_CTRL u.val) = true →
      g = s.regF (Reg.TLY_GRP_SEL u.val) 3 0 → tallyKind u.val g = some (k, i) → x = s.tallyGroup u.val g → x.writes rq = true →
      lane = s.regF (Reg.TLY_LANE_SEL u.val) 10 0 → x.state = 2 → x.mode ≠ 1 → x.has lane = true → (x.lane lane).locked = true →
      Completes (.tallyScan rq u v) s fun t => t = s.modTally u.val g (fun x => { x with state := 3, scanLane := lane, eyeDone := false, eyeMap := [] })) ∧
  (∀ (rq : Requester) (u : Fin 6) (v : Word) (g i : Nat) (k : LaneKind) (x : TallyGroup) (s : State), s.writes rq (Reg.TLY_CTRL u.val) = true →
      g = s.regF (Reg.TLY_GRP_SEL u.val) 3 0 → tallyKind u.val g = some (k, i) → x = s.tallyGroup u.val g → x.writes rq = true →
      (x.state ≠ 2 ∨ x.mode = 1) → Completes (.tallyScan rq u v) s fun t => t = s.modTally u.val g (fun x => { x with err := 3 })) ∧
  (∀ (u : Fin 6) (g : Fin 16) (s : State), (s.tallyGroup u.val g.val).state = 1 →
      Completes (.tallyTrained u g) s fun t => t = s.modTally u.val g.val (fun x => { x with state := 2, since := s.lcc })) ∧
  (∀ (u : Fin 6) (g : Fin 16) (s : State), (s.tallyGroup u.val g.val).state = 1 → 10000000 < s.lcc - (s.tallyGroup u.val g.val).since →
      Completes (.tallyTrainTimeout u g) s fun t => t = s.tallyEnd u.val g.val 4 16) ∧
  (∀ (u : Fin 6) (g : Fin 16) (counts : List LaneCount) (flits : BitVec 64) (crc : Word) (x : TallyGroup) (s : State), x = s.tallyGroup u.val g.val →
      (x.state = 2 ∨ x.state = 3) → x.duration ≠ 0 → 2 ^ x.duration ≤ s.lcc - x.since → Completes (.tallyDurationEnd u g counts flits crc) s fun t =>
        t = (s.modTally u.val g.val (fun x => (counts.foldl TallyGroup.countLane x).countFlits flits.toNat crc.toNat)).tallyEnd u.val g.val 2 1) ∧
  (∀ (u : Fin 6) (g : Fin 16) (lane : Fin 2048) (x : TallyGroup) (s : State), x = s.tallyGroup u.val g.val → x.busy = true → x.has lane.val = true →
      (x.lane lane.val).locked = true → Completes (.tallyLockLost u g lane) s fun t => t = (s.modTally u.val g.val (fun x =>
        x.modLane lane.val (fun l => { l with locked := false, losses := min 0xFFFF (l.losses + 1) }))).cause (Reg.TLY_IRQ_CAUSE u.val) 2) ∧
  (∀ (u : Fin 6) (g : Fin 16) (rows : List (BitVec 64)) (vstep : BitVec 8) (s : State), (s.tallyGroup u.val g.val).state = 3 →
      Completes (.eyeScanDone u g rows vstep) s fun t => t = (s.modTally u.val g.val (fun x =>
        { x with state := 2, eyeDone := true, vstep := vstep.toNat, width := runThrough (fun j => (rows.getD 32 0).getLsbD j),
                 height := runThrough (fun r => (rows.getD r 0).getLsbD 32),
                 eyeMap := (List.range 64).foldl (fun t r => Tbl.set (fun _ => 0) t r ((rows.getD r 0).toNat)) [] })).cause (Reg.TLY_IRQ_CAUSE u.val) 8) ∧
  (∀ (u : Fin 6) (g : Fin 16) (count : LaneCount) (flits : BitVec 64) (crc : Word) (x : TallyGroup) (s : State), x = s.tallyGroup u.val g.val →
      (x.state = 2 ∨ x.state = 3) → x.mode ≠ 1 → x.has count.lane.val = true → Completes (.tallyLaneLock u g count flits crc) s fun t =>
        t = s.modTally u.val g.val (fun x =>
          ((x.modLane count.lane.val (fun l => { l with locked := true })).countLane count).countFlits flits.toNat crc.toNat))

end
end

