-- ==== Sys2Proof/Laws/Table.lean ====
section
/-! SUPPORT. Sparse tables: what a read finds after a write, and that every operation keeps the canonical form. -/

namespace Sys2Proof.Machine

variable {α : Type}

theorem Tbl.get_insert (d : Nat → α) (t : Tbl α) (k j : Nat) (v : α) :
    Tbl.get d (Tbl.insert k v t) j = if j = k then v else Tbl.get d t j := by
  induction t with
  | nil => simp [Tbl.insert, Tbl.get]
  | cons e t ih =>
    obtain ⟨i, w⟩ := e
    unfold Tbl.insert
    split
    · simp [Tbl.get]
    · split
      · subst_vars; simp only [Tbl.get]; split <;> simp_all
      · simp only [Tbl.get, ih]; split <;> simp_all; omega

theorem Tbl.get_keep (d : Nat → α) (f : Nat → Bool) (t : Tbl α) (j : Nat) :
    Tbl.get d (Tbl.keep f t) j = if f j then Tbl.get d t j else d j := by
  induction t with
  | nil => simp [Tbl.keep, Tbl.get]
  | cons e t ih =>
    obtain ⟨i, w⟩ := e
    simp only [Tbl.keep] at ih ⊢
    simp only [List.filter_cons, Tbl.get]
    by_cases hj : j = i
    · subst hj; split <;> simp_all [Tbl.get]
    · split <;> simp_all [Tbl.get]

theorem Tbl.get_erase (d : Nat → α) (t : Tbl α) (k j : Nat) :
    Tbl.get d (Tbl.erase k t) j = if j = k then d j else Tbl.get d t j := by
  have h := Tbl.get_keep d (fun i => !(i == k)) t j
  simp only [Tbl.keep] at h
  rw [Tbl.erase, h]
  split <;> simp_all

variable [DecidableEq α]

/-- A read after a write: the value written at that key, what was there at every other. -/
theorem Tbl.get_set (d : Nat → α) (t : Tbl α) (k j : Nat) (v : α) :
    Tbl.get d (Tbl.set d t k v) j = if j = k then v else Tbl.get d t j := by
  unfold Tbl.set
  split
  · rw [Tbl.get_erase]; split <;> simp_all
  · rw [Tbl.get_insert]

@[simp] theorem Tbl.get_set_same (d : Nat → α) (t : Tbl α) (k : Nat) (v : α) : Tbl.get d (Tbl.set d t k v) k = v := by
  rw [Tbl.get_set]; simp

theorem Tbl.get_set_ne (d : Nat → α) (t : Tbl α) {k j : Nat} (v : α) (h : j ≠ k) :
    Tbl.get d (Tbl.set d t k v) j = Tbl.get d t j := by
  rw [Tbl.get_set]; simp [h]

omit [DecidableEq α] in
@[simp] theorem Tbl.get_nil (d : Nat → α) (k : Nat) : Tbl.get d [] k = d k := rfl

@[simp] theorem Tbl.get_modify_same (d : Nat → α) (t : Tbl α) (k : Nat) (f : α → α) :
    Tbl.get d (Tbl.modify d t k f) k = f (Tbl.get d t k) := by
  simp [Tbl.modify]

theorem Tbl.get_modify (d : Nat → α) (t : Tbl α) (k j : Nat) (f : α → α) :
    Tbl.get d (Tbl.modify d t k f) j = if j = k then f (Tbl.get d t k) else Tbl.get d t j := by
  rw [Tbl.modify, Tbl.get_set]

omit [DecidableEq α] in
theorem Tbl.above_iff (k : Nat) (t : Tbl α) : Tbl.above k t = true ↔ ∀ e ∈ t.head?, k < e.1 := by
  cases t with
  | nil => simp [Tbl.above]
  | cons e t => simp [Tbl.above]

omit [DecidableEq α] in
theorem Tbl.above_trans {k j : Nat} {t : Tbl α} (h : k < j) (a : Tbl.above j t = true) : Tbl.above k t = true := by
  cases t with
  | nil => rfl
  | cons e t => simp only [Tbl.above, decide_eq_true_eq] at a ⊢; omega

omit [DecidableEq α] in
theorem Tbl.above_insert (k j : Nat) (v : α) (t : Tbl α) (h : k < j) (a : Tbl.above k t = true) :
    Tbl.above k (Tbl.insert j v t) = true := by
  cases t with
  | nil => simpa [Tbl.insert, Tbl.above] using h
  | cons e t =>
    unfold Tbl.insert
    split
    · simpa [Tbl.above] using h
    · split
      · simpa [Tbl.above] using h
      · simpa [Tbl.above] using a

theorem Tbl.wf_insert (d : Nat → α) (t : Tbl α) (k : Nat) (v : α) (hv : v ≠ d k) (h : Tbl.wf d t = true) :
    Tbl.wf d (Tbl.insert k v t) = true := by
  induction t with
  | nil => simpa [Tbl.insert, Tbl.wf, Tbl.above] using hv
  | cons e t ih =>
    obtain ⟨i, w⟩ := e
    simp only [Tbl.wf, Bool.and_eq_true, decide_eq_true_eq] at h
    unfold Tbl.insert
    split
    · simp only [Tbl.wf, Tbl.above, Bool.and_eq_true, decide_eq_true_eq]
      exact ⟨⟨hv, by assumption⟩, h⟩
    · split
      · subst_vars; simp only [Tbl.wf, Bool.and_eq_true, decide_eq_true_eq]; exact ⟨⟨hv, h.1.2⟩, h.2⟩
      · simp only [Tbl.wf, Bool.and_eq_true, decide_eq_true_eq]
        exact ⟨⟨h.1.1, Tbl.above_insert i k v t (by omega) h.1.2⟩, ih h.2⟩

theorem Tbl.above_filter (d : Nat → α) (k : Nat) (t : Tbl α) (f : Nat × α → Bool) (a : Tbl.above k t = true)
    (h : Tbl.wf d t = true) : Tbl.above k (t.filter f) = true := by
  induction t with
  | nil => rfl
  | cons e t ih =>
    obtain ⟨i, w⟩ := e
    simp only [Tbl.wf, Bool.and_eq_true, decide_eq_true_eq] at h
    simp only [Tbl.above, decide_eq_true_eq] at a
    rw [List.filter_cons]
    split
    · simpa [Tbl.above] using a
    · exact ih (Tbl.above_trans a h.1.2) h.2

theorem Tbl.wf_filter (d : Nat → α) (t : Tbl α) (f : Nat × α → Bool) (h : Tbl.wf d t = true) :
    Tbl.wf d (t.filter f) = true := by
  induction t with
  | nil => rfl
  | cons e t ih =>
    obtain ⟨i, w⟩ := e
    simp only [Tbl.wf, Bool.and_eq_true, decide_eq_true_eq] at h
    rw [List.filter_cons]
    split
    · simp only [Tbl.wf, Bool.and_eq_true, decide_eq_true_eq]
      exact ⟨⟨h.1.1, Tbl.above_filter d i t f h.1.2 h.2⟩, ih h.2⟩
    · exact ih h.2

/-- A write keeps the canonical form. -/
theorem Tbl.wf_set (d : Nat → α) (t : Tbl α) (k : Nat) (v : α) (h : Tbl.wf d t = true) : Tbl.wf d (Tbl.set d t k v) = true := by
  unfold Tbl.set
  split
  · exact Tbl.wf_filter d t _ h
  · exact Tbl.wf_insert d t k v (by assumption) h

theorem Tbl.wf_modify (d : Nat → α) (t : Tbl α) (k : Nat) (f : α → α) (h : Tbl.wf d t = true) :
    Tbl.wf d (Tbl.modify d t k f) = true := Tbl.wf_set d t k _ h

theorem Tbl.wf_keep (d : Nat → α) (f : Nat → Bool) (t : Tbl α) (h : Tbl.wf d t = true) : Tbl.wf d (Tbl.keep f t) = true :=
  Tbl.wf_filter d t _ h

/-! ### Memories -/

/-- A byte read after one is written. -/
theorem Memory.read_write (m : Memory) (a i : Nat) (b : Byte) : (m.write a b).read i = if i = a then b else m.read i :=
  Tbl.get_set Memory.default m a i b

theorem Memory.wf_write (m : Memory) (a : Nat) (b : Byte) (h : m.wf = true) : (m.write a b).wf = true :=
  Tbl.wf_set Memory.default m a b h

theorem Memory.wf_writeN (m : Memory) (a n v : Nat) (h : m.wf = true) : (m.writeN a n v).wf = true := by
  induction n generalizing m a v with
  | zero => exact h
  | succ n ih => exact ih (m.write a _) (a + 1) (v / 256) (Memory.wf_write m a _ h)

theorem Memory.wf_writeMasked (m : Memory) (a mask n v : Nat) (h : m.wf = true) : (m.writeMasked a mask n v).wf = true := by
  induction n generalizing m a mask v with
  | zero => exact h
  | succ n ih =>
    refine ih _ (a + 1) (mask / 2) (v / 256) ?_
    split
    · exact Memory.wf_write m a _ h
    · exact h

theorem Memory.wf_zero (m : Memory) (a n : Nat) (h : m.wf = true) : (m.zero a n).wf = true :=
  Tbl.wf_keep Memory.default _ m h

theorem Memory.read_zero (m : Memory) (a n i : Nat) :
    (m.zero a n).read i = if a ≤ i ∧ i < a + n then 0 else m.read i := by
  unfold Memory.zero Memory.read
  rw [Tbl.get_keep]
  by_cases h : a ≤ i ∧ i < a + n <;> simp [h, Memory.default]

/-- A write of `n` bytes leaves every byte outside them. -/
theorem Memory.read_writeN_outside (m : Memory) (a n v i : Nat) (h : i < a ∨ a + n ≤ i) : (m.writeN a n v).read i = m.read i := by
  induction n generalizing m a v with
  | zero => rfl
  | succ n ih =>
    show (Memory.writeN (m.write a _) (a + 1) n (v / 256)).read i = _
    rw [ih _ _ _ (by omega), Memory.read_write]
    split
    · omega
    · rfl

/-- The first byte a write of `n` bytes stores. -/
theorem Memory.read_writeN_first (m : Memory) (a n v : Nat) : (m.writeN a (n + 1) v).read a = BitVec.ofNat 8 v := by
  show (Memory.writeN (m.write a _) (a + 1) n (v / 256)).read a = _
  rw [Memory.read_writeN_outside _ _ _ _ _ (by omega), Memory.read_write]
  simp

/-- Reading back `n` bytes just written gives the number's low bytes. -/
theorem Memory.readN_writeN (m : Memory) (a n v : Nat) : (m.writeN a n v).readN a n = v % 256 ^ n := by
  induction n generalizing m a v with
  | zero => simp [Memory.readN, Nat.mod_one]
  | succ n ih =>
    have h1 := Memory.read_writeN_first m a n v
    have h2 := ih (m.write a (BitVec.ofNat 8 v)) (a + 1) (v / 256)
    show ((m.writeN a (n + 1) v).read a).toNat + 256 * Memory.readN (m.writeN a (n + 1) v) (a + 1) n = _
    rw [h1]
    show _ + 256 * Memory.readN (Memory.writeN (m.write a (BitVec.ofNat 8 v)) (a + 1) n (v / 256)) (a + 1) n = _
    rw [h2, Nat.pow_succ, Nat.mul_comm (256 ^ n) 256, Nat.mod_mul, BitVec.toNat_ofNat]

end Sys2Proof.Machine
end

