-- ==== Sys2Proof/Laws/State.lean ====
section
/-! SUPPORT. What each named update of the state leaves unchanged, one lemma per field and update, and what a read finds after a
write. -/

namespace Sys2Proof.Machine

/-! ### setReg -/

@[simp] theorem State.setReg_latch (s : State) (a : Nat) (v : Word) : (s.setReg a v).latch = s.latch := rfl
@[simp] theorem State.setReg_held (s : State) (a : Nat) (v : Word) : (s.setReg a v).held = s.held := rfl
@[simp] theorem State.setReg_lcc (s : State) (a : Nat) (v : Word) : (s.setReg a v).lcc = s.lcc := rfl
@[simp] theorem State.setReg_fresh (s : State) (a : Nat) (v : Word) : (s.setReg a v).fresh = s.fresh := rfl
@[simp] theorem State.setReg_stopped (s : State) (a : Nat) (v : Word) : (s.setReg a v).stopped = s.stopped := rfl
@[simp] theorem State.setReg_t1 (s : State) (a : Nat) (v : Word) : (s.setReg a v).t1 = s.t1 := rfl
@[simp] theorem State.setReg_t0 (s : State) (a : Nat) (v : Word) : (s.setReg a v).t0 = s.t0 := rfl
@[simp] theorem State.setReg_parts (s : State) (a : Nat) (v : Word) : (s.setReg a v).parts = s.parts := rfl
@[simp] theorem State.setReg_fab (s : State) (a : Nat) (v : Word) : (s.setReg a v).fab = s.fab := rfl
@[simp] theorem State.setReg_errs (s : State) (a : Nat) (v : Word) : (s.setReg a v).errs = s.errs := rfl
@[simp] theorem State.setReg_ft (s : State) (a : Nat) (v : Word) : (s.setReg a v).ft = s.ft := rfl
@[simp] theorem State.setReg_loft (s : State) (a : Nat) (v : Word) : (s.setReg a v).loft = s.loft := rfl
@[simp] theorem State.setReg_xlt (s : State) (a : Nat) (v : Word) : (s.setReg a v).xlt = s.xlt := rfl
@[simp] theorem State.setReg_homes (s : State) (a : Nat) (v : Word) : (s.setReg a v).homes = s.homes := rfl
@[simp] theorem State.setReg_mirrors (s : State) (a : Nat) (v : Word) : (s.setReg a v).mirrors = s.mirrors := rfl
@[simp] theorem State.setReg_sync (s : State) (a : Nat) (v : Word) : (s.setReg a v).sync = s.sync := rfl
@[simp] theorem State.setReg_extents (s : State) (a : Nat) (v : Word) : (s.setReg a v).extents = s.extents := rfl
@[simp] theorem State.setReg_lds (s : State) (a : Nat) (v : Word) : (s.setReg a v).lds = s.lds := rfl
@[simp] theorem State.setReg_mgmt (s : State) (a : Nat) (v : Word) : (s.setReg a v).mgmt = s.mgmt := rfl
@[simp] theorem State.setReg_netAddr (s : State) (a : Nat) (v : Word) : (s.setReg a v).netAddr = s.netAddr := rfl
@[simp] theorem State.setReg_fifoSeq (s : State) (a : Nat) (v : Word) : (s.setReg a v).fifoSeq = s.fifoSeq := rfl
@[simp] theorem State.setReg_scalers (s : State) (a : Nat) (v : Word) : (s.setReg a v).scalers = s.scalers := rfl
@[simp] theorem State.setReg_tally (s : State) (a : Nat) (v : Word) : (s.setReg a v).tally = s.tally := rfl
@[simp] theorem State.setReg_engines (s : State) (a : Nat) (v : Word) : (s.setReg a v).engines = s.engines := rfl
@[simp] theorem State.setReg_marks (s : State) (a : Nat) (v : Word) : (s.setReg a v).marks = s.marks := rfl
@[simp] theorem State.setReg_quarRecord (s : State) (a : Nat) (v : Word) : (s.setReg a v).quarRecord = s.quarRecord := rfl
@[simp] theorem State.setReg_cores (s : State) (a : Nat) (v : Word) : (s.setReg a v).cores = s.cores := rfl
@[simp] theorem State.setReg_resv (s : State) (a : Nat) (v : Word) : (s.setReg a v).resv = s.resv := rfl
@[simp] theorem State.setReg_power (s : State) (a : Nat) (v : Word) : (s.setReg a v).power = s.power := rfl
@[simp] theorem State.setReg_fuses (s : State) (a : Nat) (v : Word) : (s.setReg a v).fuses = s.fuses := rfl
@[simp] theorem State.setReg_boot (s : State) (a : Nat) (v : Word) : (s.setReg a v).boot = s.boot := rfl
@[simp] theorem State.setReg_cribs (s : State) (a : Nat) (v : Word) : (s.setReg a v).cribs = s.cribs := rfl
@[simp] theorem State.setReg_cribGen (s : State) (a : Nat) (v : Word) : (s.setReg a v).cribGen = s.cribGen := rfl
@[simp] theorem State.setReg_forwards (s : State) (a : Nat) (v : Word) : (s.setReg a v).forwards = s.forwards := rfl
@[simp] theorem State.setReg_nextForward (s : State) (a : Nat) (v : Word) : (s.setReg a v).nextForward = s.nextForward := rfl
@[simp] theorem State.setReg_indexes (s : State) (a : Nat) (v : Word) : (s.setReg a v).indexes = s.indexes := rfl
@[simp] theorem State.setReg_loading (s : State) (a : Nat) (v : Word) : (s.setReg a v).loading = s.loading := rfl
@[simp] theorem State.setReg_out (s : State) (a : Nat) (v : Word) : (s.setReg a v).out = s.out := rfl
@[simp] theorem State.setReg_pending (s : State) (a : Nat) (v : Word) : (s.setReg a v).pending = s.pending := rfl

/-! ### setRegN -/

@[simp] theorem State.setRegN_latch (s : State) (a v : Nat) : (s.setRegN a v).latch = s.latch := rfl
@[simp] theorem State.setRegN_held (s : State) (a v : Nat) : (s.setRegN a v).held = s.held := rfl
@[simp] theorem State.setRegN_lcc (s : State) (a v : Nat) : (s.setRegN a v).lcc = s.lcc := rfl
@[simp] theorem State.setRegN_fresh (s : State) (a v : Nat) : (s.setRegN a v).fresh = s.fresh := rfl
@[simp] theorem State.setRegN_stopped (s : State) (a v : Nat) : (s.setRegN a v).stopped = s.stopped := rfl
@[simp] theorem State.setRegN_t1 (s : State) (a v : Nat) : (s.setRegN a v).t1 = s.t1 := rfl
@[simp] theorem State.setRegN_t0 (s : State) (a v : Nat) : (s.setRegN a v).t0 = s.t0 := rfl
@[simp] theorem State.setRegN_parts (s : State) (a v : Nat) : (s.setRegN a v).parts = s.parts := rfl
@[simp] theorem State.setRegN_fab (s : State) (a v : Nat) : (s.setRegN a v).fab = s.fab := rfl
@[simp] theorem State.setRegN_errs (s : State) (a v : Nat) : (s.setRegN a v).errs = s.errs := rfl
@[simp] theorem State.setRegN_ft (s : State) (a v : Nat) : (s.setRegN a v).ft = s.ft := rfl
@[simp] theorem State.setRegN_loft (s : State) (a v : Nat) : (s.setRegN a v).loft = s.loft := rfl
@[simp] theorem State.setRegN_xlt (s : State) (a v : Nat) : (s.setRegN a v).xlt = s.xlt := rfl
@[simp] theorem State.setRegN_homes (s : State) (a v : Nat) : (s.setRegN a v).homes = s.homes := rfl
@[simp] theorem State.setRegN_mirrors (s : State) (a v : Nat) : (s.setRegN a v).mirrors = s.mirrors := rfl
@[simp] theorem State.setRegN_sync (s : State) (a v : Nat) : (s.setRegN a v).sync = s.sync := rfl
@[simp] theorem State.setRegN_extents (s : State) (a v : Nat) : (s.setRegN a v).extents = s.extents := rfl
@[simp] theorem State.setRegN_lds (s : State) (a v : Nat) : (s.setRegN a v).lds = s.lds := rfl
@[simp] theorem State.setRegN_mgmt (s : State) (a v : Nat) : (s.setRegN a v).mgmt = s.mgmt := rfl
@[simp] theorem State.setRegN_netAddr (s : State) (a v : Nat) : (s.setRegN a v).netAddr = s.netAddr := rfl
@[simp] theorem State.setRegN_fifoSeq (s : State) (a v : Nat) : (s.setRegN a v).fifoSeq = s.fifoSeq := rfl
@[simp] theorem State.setRegN_scalers (s : State) (a v : Nat) : (s.setRegN a v).scalers = s.scalers := rfl
@[simp] theorem State.setRegN_tally (s : State) (a v : Nat) : (s.setRegN a v).tally = s.tally := rfl
@[simp] theorem State.setRegN_engines (s : State) (a v : Nat) : (s.setRegN a v).engines = s.engines := rfl
@[simp] theorem State.setRegN_marks (s : State) (a v : Nat) : (s.setRegN a v).marks = s.marks := rfl
@[simp] theorem State.setRegN_quarRecord (s : State) (a v : Nat) : (s.setRegN a v).quarRecord = s.quarRecord := rfl
@[simp] theorem State.setRegN_cores (s : State) (a v : Nat) : (s.setRegN a v).cores = s.cores := rfl
@[simp] theorem State.setRegN_resv (s : State) (a v : Nat) : (s.setRegN a v).resv = s.resv := rfl
@[simp] theorem State.setRegN_power (s : State) (a v : Nat) : (s.setRegN a v).power = s.power := rfl
@[simp] theorem State.setRegN_fuses (s : State) (a v : Nat) : (s.setRegN a v).fuses = s.fuses := rfl
@[simp] theorem State.setRegN_boot (s : State) (a v : Nat) : (s.setRegN a v).boot = s.boot := rfl
@[simp] theorem State.setRegN_cribs (s : State) (a v : Nat) : (s.setRegN a v).cribs = s.cribs := rfl
@[simp] theorem State.setRegN_cribGen (s : State) (a v : Nat) : (s.setRegN a v).cribGen = s.cribGen := rfl
@[simp] theorem State.setRegN_forwards (s : State) (a v : Nat) : (s.setRegN a v).forwards = s.forwards := rfl
@[simp] theorem State.setRegN_nextForward (s : State) (a v : Nat) : (s.setRegN a v).nextForward = s.nextForward := rfl
@[simp] theorem State.setRegN_indexes (s : State) (a v : Nat) : (s.setRegN a v).indexes = s.indexes := rfl
@[simp] theorem State.setRegN_loading (s : State) (a v : Nat) : (s.setRegN a v).loading = s.loading := rfl
@[simp] theorem State.setRegN_out (s : State) (a v : Nat) : (s.setRegN a v).out = s.out := rfl
@[simp] theorem State.setRegN_pending (s : State) (a v : Nat) : (s.setRegN a v).pending = s.pending := rfl

/-! ### setRegF -/

@[simp] theorem State.setRegF_latch (s : State) (a hi lo v : Nat) : (s.setRegF a hi lo v).latch = s.latch := rfl
@[simp] theorem State.setRegF_held (s : State) (a hi lo v : Nat) : (s.setRegF a hi lo v).held = s.held := rfl
@[simp] theorem State.setRegF_lcc (s : State) (a hi lo v : Nat) : (s.setRegF a hi lo v).lcc = s.lcc := rfl
@[simp] theorem State.setRegF_fresh (s : State) (a hi lo v : Nat) : (s.setRegF a hi lo v).fresh = s.fresh := rfl
@[simp] theorem State.setRegF_stopped (s : State) (a hi lo v : Nat) : (s.setRegF a hi lo v).stopped = s.stopped := rfl
@[simp] theorem State.setRegF_t1 (s : State) (a hi lo v : Nat) : (s.setRegF a hi lo v).t1 = s.t1 := rfl
@[simp] theorem State.setRegF_t0 (s : State) (a hi lo v : Nat) : (s.setRegF a hi lo v).t0 = s.t0 := rfl
@[simp] theorem State.setRegF_parts (s : State) (a hi lo v : Nat) : (s.setRegF a hi lo v).parts = s.parts := rfl
@[simp] theorem State.setRegF_fab (s : State) (a hi lo v : Nat) : (s.setRegF a hi lo v).fab = s.fab := rfl
@[simp] theorem State.setRegF_errs (s : State) (a hi lo v : Nat) : (s.setRegF a hi lo v).errs = s.errs := rfl
@[simp] theorem State.setRegF_ft (s : State) (a hi lo v : Nat) : (s.setRegF a hi lo v).ft = s.ft := rfl
@[simp] theorem State.setRegF_loft (s : State) (a hi lo v : Nat) : (s.setRegF a hi lo v).loft = s.loft := rfl
@[simp] theorem State.setRegF_xlt (s : State) (a hi lo v : Nat) : (s.setRegF a hi lo v).xlt = s.xlt := rfl
@[simp] theorem State.setRegF_homes (s : State) (a hi lo v : Nat) : (s.setRegF a hi lo v).homes = s.homes := rfl
@[simp] theorem State.setRegF_mirrors (s : State) (a hi lo v : Nat) : (s.setRegF a hi lo v).mirrors = s.mirrors := rfl
@[simp] theorem State.setRegF_sync (s : State) (a hi lo v : Nat) : (s.setRegF a hi lo v).sync = s.sync := rfl
@[simp] theorem State.setRegF_extents (s : State) (a hi lo v : Nat) : (s.setRegF a hi lo v).extents = s.extents := rfl
@[simp] theorem State.setRegF_lds (s : State) (a hi lo v : Nat) : (s.setRegF a hi lo v).lds = s.lds := rfl
@[simp] theorem State.setRegF_mgmt (s : State) (a hi lo v : Nat) : (s.setRegF a hi lo v).mgmt = s.mgmt := rfl
@[simp] theorem State.setRegF_netAddr (s : State) (a hi lo v : Nat) : (s.setRegF a hi lo v).netAddr = s.netAddr := rfl
@[simp] theorem State.setRegF_fifoSeq (s : State) (a hi lo v : Nat) : (s.setRegF a hi lo v).fifoSeq = s.fifoSeq := rfl
@[simp] theorem State.setRegF_scalers (s : State) (a hi lo v : Nat) : (s.setRegF a hi lo v).scalers = s.scalers := rfl
@[simp] theorem State.setRegF_tally (s : State) (a hi lo v : Nat) : (s.setRegF a hi lo v).tally = s.tally := rfl
@[simp] theorem State.setRegF_engines (s : State) (a hi lo v : Nat) : (s.setRegF a hi lo v).engines = s.engines := rfl
@[simp] theorem State.setRegF_marks (s : State) (a hi lo v : Nat) : (s.setRegF a hi lo v).marks = s.marks := rfl
@[simp] theorem State.setRegF_quarRecord (s : State) (a hi lo v : Nat) : (s.setRegF a hi lo v).quarRecord = s.quarRecord := rfl
@[simp] theorem State.setRegF_cores (s : State) (a hi lo v : Nat) : (s.setRegF a hi lo v).cores = s.cores := rfl
@[simp] theorem State.setRegF_resv (s : State) (a hi lo v : Nat) : (s.setRegF a hi lo v).resv = s.resv := rfl
@[simp] theorem State.setRegF_power (s : State) (a hi lo v : Nat) : (s.setRegF a hi lo v).power = s.power := rfl
@[simp] theorem State.setRegF_fuses (s : State) (a hi lo v : Nat) : (s.setRegF a hi lo v).fuses = s.fuses := rfl
@[simp] theorem State.setRegF_boot (s : State) (a hi lo v : Nat) : (s.setRegF a hi lo v).boot = s.boot := rfl
@[simp] theorem State.setRegF_cribs (s : State) (a hi lo v : Nat) : (s.setRegF a hi lo v).cribs = s.cribs := rfl
@[simp] theorem State.setRegF_cribGen (s : State) (a hi lo v : Nat) : (s.setRegF a hi lo v).cribGen = s.cribGen := rfl
@[simp] theorem State.setRegF_forwards (s : State) (a hi lo v : Nat) : (s.setRegF a hi lo v).forwards = s.forwards := rfl
@[simp] theorem State.setRegF_nextForward (s : State) (a hi lo v : Nat) : (s.setRegF a hi lo v).nextForward = s.nextForward := rfl
@[simp] theorem State.setRegF_indexes (s : State) (a hi lo v : Nat) : (s.setRegF a hi lo v).indexes = s.indexes := rfl
@[simp] theorem State.setRegF_loading (s : State) (a hi lo v : Nat) : (s.setRegF a hi lo v).loading = s.loading := rfl
@[simp] theorem State.setRegF_out (s : State) (a hi lo v : Nat) : (s.setRegF a hi lo v).out = s.out := rfl
@[simp] theorem State.setRegF_pending (s : State) (a hi lo v : Nat) : (s.setRegF a hi lo v).pending = s.pending := rfl

/-! ### setReg64 -/

@[simp] theorem State.setReg64_latch (s : State) (a v : Nat) : (s.setReg64 a v).latch = s.latch := rfl
@[simp] theorem State.setReg64_held (s : State) (a v : Nat) : (s.setReg64 a v).held = s.held := rfl
@[simp] theorem State.setReg64_lcc (s : State) (a v : Nat) : (s.setReg64 a v).lcc = s.lcc := rfl
@[simp] theorem State.setReg64_fresh (s : State) (a v : Nat) : (s.setReg64 a v).fresh = s.fresh := rfl
@[simp] theorem State.setReg64_stopped (s : State) (a v : Nat) : (s.setReg64 a v).stopped = s.stopped := rfl
@[simp] theorem State.setReg64_t1 (s : State) (a v : Nat) : (s.setReg64 a v).t1 = s.t1 := rfl
@[simp] theorem State.setReg64_t0 (s : State) (a v : Nat) : (s.setReg64 a v).t0 = s.t0 := rfl
@[simp] theorem State.setReg64_parts (s : State) (a v : Nat) : (s.setReg64 a v).parts = s.parts := rfl
@[simp] theorem State.setReg64_fab (s : State) (a v : Nat) : (s.setReg64 a v).fab = s.fab := rfl
@[simp] theorem State.setReg64_errs (s : State) (a v : Nat) : (s.setReg64 a v).errs = s.errs := rfl
@[simp] theorem State.setReg64_ft (s : State) (a v : Nat) : (s.setReg64 a v).ft = s.ft := rfl
@[simp] theorem State.setReg64_loft (s : State) (a v : Nat) : (s.setReg64 a v).loft = s.loft := rfl
@[simp] theorem State.setReg64_xlt (s : State) (a v : Nat) : (s.setReg64 a v).xlt = s.xlt := rfl
@[simp] theorem State.setReg64_homes (s : State) (a v : Nat) : (s.setReg64 a v).homes = s.homes := rfl
@[simp] theorem State.setReg64_mirrors (s : State) (a v : Nat) : (s.setReg64 a v).mirrors = s.mirrors := rfl
@[simp] theorem State.setReg64_sync (s : State) (a v : Nat) : (s.setReg64 a v).sync = s.sync := rfl
@[simp] theorem State.setReg64_extents (s : State) (a v : Nat) : (s.setReg64 a v).extents = s.extents := rfl
@[simp] theorem State.setReg64_lds (s : State) (a v : Nat) : (s.setReg64 a v).lds = s.lds := rfl
@[simp] theorem State.setReg64_mgmt (s : State) (a v : Nat) : (s.setReg64 a v).mgmt = s.mgmt := rfl
@[simp] theorem State.setReg64_netAddr (s : State) (a v : Nat) : (s.setReg64 a v).netAddr = s.netAddr := rfl
@[simp] theorem State.setReg64_fifoSeq (s : State) (a v : Nat) : (s.setReg64 a v).fifoSeq = s.fifoSeq := rfl
@[simp] theorem State.setReg64_scalers (s : State) (a v : Nat) : (s.setReg64 a v).scalers = s.scalers := rfl
@[simp] theorem State.setReg64_tally (s : State) (a v : Nat) : (s.setReg64 a v).tally = s.tally := rfl
@[simp] theorem State.setReg64_engines (s : State) (a v : Nat) : (s.setReg64 a v).engines = s.engines := rfl
@[simp] theorem State.setReg64_marks (s : State) (a v : Nat) : (s.setReg64 a v).marks = s.marks := rfl
@[simp] theorem State.setReg64_quarRecord (s : State) (a v : Nat) : (s.setReg64 a v).quarRecord = s.quarRecord := rfl
@[simp] theorem State.setReg64_cores (s : State) (a v : Nat) : (s.setReg64 a v).cores = s.cores := rfl
@[simp] theorem State.setReg64_resv (s : State) (a v : Nat) : (s.setReg64 a v).resv = s.resv := rfl
@[simp] theorem State.setReg64_power (s : State) (a v : Nat) : (s.setReg64 a v).power = s.power := rfl
@[simp] theorem State.setReg64_fuses (s : State) (a v : Nat) : (s.setReg64 a v).fuses = s.fuses := rfl
@[simp] theorem State.setReg64_boot (s : State) (a v : Nat) : (s.setReg64 a v).boot = s.boot := rfl
@[simp] theorem State.setReg64_cribs (s : State) (a v : Nat) : (s.setReg64 a v).cribs = s.cribs := rfl
@[simp] theorem State.setReg64_cribGen (s : State) (a v : Nat) : (s.setReg64 a v).cribGen = s.cribGen := rfl
@[simp] theorem State.setReg64_forwards (s : State) (a v : Nat) : (s.setReg64 a v).forwards = s.forwards := rfl
@[simp] theorem State.setReg64_nextForward (s : State) (a v : Nat) : (s.setReg64 a v).nextForward = s.nextForward := rfl
@[simp] theorem State.setReg64_indexes (s : State) (a v : Nat) : (s.setReg64 a v).indexes = s.indexes := rfl
@[simp] theorem State.setReg64_loading (s : State) (a v : Nat) : (s.setReg64 a v).loading = s.loading := rfl
@[simp] theorem State.setReg64_out (s : State) (a v : Nat) : (s.setReg64 a v).out = s.out := rfl
@[simp] theorem State.setReg64_pending (s : State) (a v : Nat) : (s.setReg64 a v).pending = s.pending := rfl

/-! ### count -/

@[simp] theorem State.count_latch (s : State) (a n : Nat) : (s.count a n).latch = s.latch := rfl
@[simp] theorem State.count_held (s : State) (a n : Nat) : (s.count a n).held = s.held := rfl
@[simp] theorem State.count_lcc (s : State) (a n : Nat) : (s.count a n).lcc = s.lcc := rfl
@[simp] theorem State.count_fresh (s : State) (a n : Nat) : (s.count a n).fresh = s.fresh := rfl
@[simp] theorem State.count_stopped (s : State) (a n : Nat) : (s.count a n).stopped = s.stopped := rfl
@[simp] theorem State.count_t1 (s : State) (a n : Nat) : (s.count a n).t1 = s.t1 := rfl
@[simp] theorem State.count_t0 (s : State) (a n : Nat) : (s.count a n).t0 = s.t0 := rfl
@[simp] theorem State.count_parts (s : State) (a n : Nat) : (s.count a n).parts = s.parts := rfl
@[simp] theorem State.count_fab (s : State) (a n : Nat) : (s.count a n).fab = s.fab := rfl
@[simp] theorem State.count_errs (s : State) (a n : Nat) : (s.count a n).errs = s.errs := rfl
@[simp] theorem State.count_ft (s : State) (a n : Nat) : (s.count a n).ft = s.ft := rfl
@[simp] theorem State.count_loft (s : State) (a n : Nat) : (s.count a n).loft = s.loft := rfl
@[simp] theorem State.count_xlt (s : State) (a n : Nat) : (s.count a n).xlt = s.xlt := rfl
@[simp] theorem State.count_homes (s : State) (a n : Nat) : (s.count a n).homes = s.homes := rfl
@[simp] theorem State.count_mirrors (s : State) (a n : Nat) : (s.count a n).mirrors = s.mirrors := rfl
@[simp] theorem State.count_sync (s : State) (a n : Nat) : (s.count a n).sync = s.sync := rfl
@[simp] theorem State.count_extents (s : State) (a n : Nat) : (s.count a n).extents = s.extents := rfl
@[simp] theorem State.count_lds (s : State) (a n : Nat) : (s.count a n).lds = s.lds := rfl
@[simp] theorem State.count_mgmt (s : State) (a n : Nat) : (s.count a n).mgmt = s.mgmt := rfl
@[simp] theorem State.count_netAddr (s : State) (a n : Nat) : (s.count a n).netAddr = s.netAddr := rfl
@[simp] theorem State.count_fifoSeq (s : State) (a n : Nat) : (s.count a n).fifoSeq = s.fifoSeq := rfl
@[simp] theorem State.count_scalers (s : State) (a n : Nat) : (s.count a n).scalers = s.scalers := rfl
@[simp] theorem State.count_tally (s : State) (a n : Nat) : (s.count a n).tally = s.tally := rfl
@[simp] theorem State.count_engines (s : State) (a n : Nat) : (s.count a n).engines = s.engines := rfl
@[simp] theorem State.count_marks (s : State) (a n : Nat) : (s.count a n).marks = s.marks := rfl
@[simp] theorem State.count_quarRecord (s : State) (a n : Nat) : (s.count a n).quarRecord = s.quarRecord := rfl
@[simp] theorem State.count_cores (s : State) (a n : Nat) : (s.count a n).cores = s.cores := rfl
@[simp] theorem State.count_resv (s : State) (a n : Nat) : (s.count a n).resv = s.resv := rfl
@[simp] theorem State.count_power (s : State) (a n : Nat) : (s.count a n).power = s.power := rfl
@[simp] theorem State.count_fuses (s : State) (a n : Nat) : (s.count a n).fuses = s.fuses := rfl
@[simp] theorem State.count_boot (s : State) (a n : Nat) : (s.count a n).boot = s.boot := rfl
@[simp] theorem State.count_cribs (s : State) (a n : Nat) : (s.count a n).cribs = s.cribs := rfl
@[simp] theorem State.count_cribGen (s : State) (a n : Nat) : (s.count a n).cribGen = s.cribGen := rfl
@[simp] theorem State.count_forwards (s : State) (a n : Nat) : (s.count a n).forwards = s.forwards := rfl
@[simp] theorem State.count_nextForward (s : State) (a n : Nat) : (s.count a n).nextForward = s.nextForward := rfl
@[simp] theorem State.count_indexes (s : State) (a n : Nat) : (s.count a n).indexes = s.indexes := rfl
@[simp] theorem State.count_loading (s : State) (a n : Nat) : (s.count a n).loading = s.loading := rfl
@[simp] theorem State.count_out (s : State) (a n : Nat) : (s.count a n).out = s.out := rfl
@[simp] theorem State.count_pending (s : State) (a n : Nat) : (s.count a n).pending = s.pending := rfl

/-! ### count64 -/

@[simp] theorem State.count64_latch (s : State) (a n : Nat) : (s.count64 a n).latch = s.latch := rfl
@[simp] theorem State.count64_held (s : State) (a n : Nat) : (s.count64 a n).held = s.held := rfl
@[simp] theorem State.count64_lcc (s : State) (a n : Nat) : (s.count64 a n).lcc = s.lcc := rfl
@[simp] theorem State.count64_fresh (s : State) (a n : Nat) : (s.count64 a n).fresh = s.fresh := rfl
@[simp] theorem State.count64_stopped (s : State) (a n : Nat) : (s.count64 a n).stopped = s.stopped := rfl
@[simp] theorem State.count64_t1 (s : State) (a n : Nat) : (s.count64 a n).t1 = s.t1 := rfl
@[simp] theorem State.count64_t0 (s : State) (a n : Nat) : (s.count64 a n).t0 = s.t0 := rfl
@[simp] theorem State.count64_parts (s : State) (a n : Nat) : (s.count64 a n).parts = s.parts := rfl
@[simp] theorem State.count64_fab (s : State) (a n : Nat) : (s.count64 a n).fab = s.fab := rfl
@[simp] theorem State.count64_errs (s : State) (a n : Nat) : (s.count64 a n).errs = s.errs := rfl
@[simp] theorem State.count64_ft (s : State) (a n : Nat) : (s.count64 a n).ft = s.ft := rfl
@[simp] theorem State.count64_loft (s : State) (a n : Nat) : (s.count64 a n).loft = s.loft := rfl
@[simp] theorem State.count64_xlt (s : State) (a n : Nat) : (s.count64 a n).xlt = s.xlt := rfl
@[simp] theorem State.count64_homes (s : State) (a n : Nat) : (s.count64 a n).homes = s.homes := rfl
@[simp] theorem State.count64_mirrors (s : State) (a n : Nat) : (s.count64 a n).mirrors = s.mirrors := rfl
@[simp] theorem State.count64_sync (s : State) (a n : Nat) : (s.count64 a n).sync = s.sync := rfl
@[simp] theorem State.count64_extents (s : State) (a n : Nat) : (s.count64 a n).extents = s.extents := rfl
@[simp] theorem State.count64_lds (s : State) (a n : Nat) : (s.count64 a n).lds = s.lds := rfl
@[simp] theorem State.count64_mgmt (s : State) (a n : Nat) : (s.count64 a n).mgmt = s.mgmt := rfl
@[simp] theorem State.count64_netAddr (s : State) (a n : Nat) : (s.count64 a n).netAddr = s.netAddr := rfl
@[simp] theorem State.count64_fifoSeq (s : State) (a n : Nat) : (s.count64 a n).fifoSeq = s.fifoSeq := rfl
@[simp] theorem State.count64_scalers (s : State) (a n : Nat) : (s.count64 a n).scalers = s.scalers := rfl
@[simp] theorem State.count64_tally (s : State) (a n : Nat) : (s.count64 a n).tally = s.tally := rfl
@[simp] theorem State.count64_engines (s : State) (a n : Nat) : (s.count64 a n).engines = s.engines := rfl
@[simp] theorem State.count64_marks (s : State) (a n : Nat) : (s.count64 a n).marks = s.marks := rfl
@[simp] theorem State.count64_quarRecord (s : State) (a n : Nat) : (s.count64 a n).quarRecord = s.quarRecord := rfl
@[simp] theorem State.count64_cores (s : State) (a n : Nat) : (s.count64 a n).cores = s.cores := rfl
@[simp] theorem State.count64_resv (s : State) (a n : Nat) : (s.count64 a n).resv = s.resv := rfl
@[simp] theorem State.count64_power (s : State) (a n : Nat) : (s.count64 a n).power = s.power := rfl
@[simp] theorem State.count64_fuses (s : State) (a n : Nat) : (s.count64 a n).fuses = s.fuses := rfl
@[simp] theorem State.count64_boot (s : State) (a n : Nat) : (s.count64 a n).boot = s.boot := rfl
@[simp] theorem State.count64_cribs (s : State) (a n : Nat) : (s.count64 a n).cribs = s.cribs := rfl
@[simp] theorem State.count64_cribGen (s : State) (a n : Nat) : (s.count64 a n).cribGen = s.cribGen := rfl
@[simp] theorem State.count64_forwards (s : State) (a n : Nat) : (s.count64 a n).forwards = s.forwards := rfl
@[simp] theorem State.count64_nextForward (s : State) (a n : Nat) : (s.count64 a n).nextForward = s.nextForward := rfl
@[simp] theorem State.count64_indexes (s : State) (a n : Nat) : (s.count64 a n).indexes = s.indexes := rfl
@[simp] theorem State.count64_loading (s : State) (a n : Nat) : (s.count64 a n).loading = s.loading := rfl
@[simp] theorem State.count64_out (s : State) (a n : Nat) : (s.count64 a n).out = s.out := rfl
@[simp] theorem State.count64_pending (s : State) (a n : Nat) : (s.count64 a n).pending = s.pending := rfl

/-! ### setPstate -/

@[simp] theorem State.setPstate_latch (s : State) (p : Nat) (st : PState) : (s.setPstate p st).latch = s.latch := State.setRegF_latch _ _ _ _ _
@[simp] theorem State.setPstate_held (s : State) (p : Nat) (st : PState) : (s.setPstate p st).held = s.held := State.setRegF_held _ _ _ _ _
@[simp] theorem State.setPstate_lcc (s : State) (p : Nat) (st : PState) : (s.setPstate p st).lcc = s.lcc := State.setRegF_lcc _ _ _ _ _
@[simp] theorem State.setPstate_fresh (s : State) (p : Nat) (st : PState) : (s.setPstate p st).fresh = s.fresh := State.setRegF_fresh _ _ _ _ _
@[simp] theorem State.setPstate_stopped (s : State) (p : Nat) (st : PState) : (s.setPstate p st).stopped = s.stopped := State.setRegF_stopped _ _ _ _ _
@[simp] theorem State.setPstate_t1 (s : State) (p : Nat) (st : PState) : (s.setPstate p st).t1 = s.t1 := State.setRegF_t1 _ _ _ _ _
@[simp] theorem State.setPstate_t0 (s : State) (p : Nat) (st : PState) : (s.setPstate p st).t0 = s.t0 := State.setRegF_t0 _ _ _ _ _
@[simp] theorem State.setPstate_parts (s : State) (p : Nat) (st : PState) : (s.setPstate p st).parts = s.parts := State.setRegF_parts _ _ _ _ _
@[simp] theorem State.setPstate_fab (s : State) (p : Nat) (st : PState) : (s.setPstate p st).fab = s.fab := State.setRegF_fab _ _ _ _ _
@[simp] theorem State.setPstate_errs (s : State) (p : Nat) (st : PState) : (s.setPstate p st).errs = s.errs := State.setRegF_errs _ _ _ _ _
@[simp] theorem State.setPstate_ft (s : State) (p : Nat) (st : PState) : (s.setPstate p st).ft = s.ft := State.setRegF_ft _ _ _ _ _
@[simp] theorem State.setPstate_loft (s : State) (p : Nat) (st : PState) : (s.setPstate p st).loft = s.loft := State.setRegF_loft _ _ _ _ _
@[simp] theorem State.setPstate_xlt (s : State) (p : Nat) (st : PState) : (s.setPstate p st).xlt = s.xlt := State.setRegF_xlt _ _ _ _ _
@[simp] theorem State.setPstate_homes (s : State) (p : Nat) (st : PState) : (s.setPstate p st).homes = s.homes := State.setRegF_homes _ _ _ _ _
@[simp] theorem State.setPstate_mirrors (s : State) (p : Nat) (st : PState) : (s.setPstate p st).mirrors = s.mirrors := State.setRegF_mirrors _ _ _ _ _
@[simp] theorem State.setPstate_sync (s : State) (p : Nat) (st : PState) : (s.setPstate p st).sync = s.sync := State.setRegF_sync _ _ _ _ _
@[simp] theorem State.setPstate_extents (s : State) (p : Nat) (st : PState) : (s.setPstate p st).extents = s.extents := State.setRegF_extents _ _ _ _ _
@[simp] theorem State.setPstate_lds (s : State) (p : Nat) (st : PState) : (s.setPstate p st).lds = s.lds := State.setRegF_lds _ _ _ _ _
@[simp] theorem State.setPstate_mgmt (s : State) (p : Nat) (st : PState) : (s.setPstate p st).mgmt = s.mgmt := State.setRegF_mgmt _ _ _ _ _
@[simp] theorem State.setPstate_netAddr (s : State) (p : Nat) (st : PState) : (s.setPstate p st).netAddr = s.netAddr := State.setRegF_netAddr _ _ _ _ _
@[simp] theorem State.setPstate_fifoSeq (s : State) (p : Nat) (st : PState) : (s.setPstate p st).fifoSeq = s.fifoSeq := State.setRegF_fifoSeq _ _ _ _ _
@[simp] theorem State.setPstate_scalers (s : State) (p : Nat) (st : PState) : (s.setPstate p st).scalers = s.scalers := State.setRegF_scalers _ _ _ _ _
@[simp] theorem State.setPstate_tally (s : State) (p : Nat) (st : PState) : (s.setPstate p st).tally = s.tally := State.setRegF_tally _ _ _ _ _
@[simp] theorem State.setPstate_engines (s : State) (p : Nat) (st : PState) : (s.setPstate p st).engines = s.engines := State.setRegF_engines _ _ _ _ _
@[simp] theorem State.setPstate_marks (s : State) (p : Nat) (st : PState) : (s.setPstate p st).marks = s.marks := State.setRegF_marks _ _ _ _ _
@[simp] theorem State.setPstate_quarRecord (s : State) (p : Nat) (st : PState) : (s.setPstate p st).quarRecord = s.quarRecord := State.setRegF_quarRecord _ _ _ _ _
@[simp] theorem State.setPstate_cores (s : State) (p : Nat) (st : PState) : (s.setPstate p st).cores = s.cores := State.setRegF_cores _ _ _ _ _
@[simp] theorem State.setPstate_resv (s : State) (p : Nat) (st : PState) : (s.setPstate p st).resv = s.resv := State.setRegF_resv _ _ _ _ _
@[simp] theorem State.setPstate_power (s : State) (p : Nat) (st : PState) : (s.setPstate p st).power = s.power := State.setRegF_power _ _ _ _ _
@[simp] theorem State.setPstate_fuses (s : State) (p : Nat) (st : PState) : (s.setPstate p st).fuses = s.fuses := State.setRegF_fuses _ _ _ _ _
@[simp] theorem State.setPstate_boot (s : State) (p : Nat) (st : PState) : (s.setPstate p st).boot = s.boot := State.setRegF_boot _ _ _ _ _
@[simp] theorem State.setPstate_cribs (s : State) (p : Nat) (st : PState) : (s.setPstate p st).cribs = s.cribs := State.setRegF_cribs _ _ _ _ _
@[simp] theorem State.setPstate_cribGen (s : State) (p : Nat) (st : PState) : (s.setPstate p st).cribGen = s.cribGen := State.setRegF_cribGen _ _ _ _ _
@[simp] theorem State.setPstate_forwards (s : State) (p : Nat) (st : PState) : (s.setPstate p st).forwards = s.forwards := State.setRegF_forwards _ _ _ _ _
@[simp] theorem State.setPstate_nextForward (s : State) (p : Nat) (st : PState) : (s.setPstate p st).nextForward = s.nextForward := State.setRegF_nextForward _ _ _ _ _
@[simp] theorem State.setPstate_indexes (s : State) (p : Nat) (st : PState) : (s.setPstate p st).indexes = s.indexes := State.setRegF_indexes _ _ _ _ _
@[simp] theorem State.setPstate_loading (s : State) (p : Nat) (st : PState) : (s.setPstate p st).loading = s.loading := State.setRegF_loading _ _ _ _ _
@[simp] theorem State.setPstate_out (s : State) (p : Nat) (st : PState) : (s.setPstate p st).out = s.out := State.setRegF_out _ _ _ _ _
@[simp] theorem State.setPstate_pending (s : State) (p : Nat) (st : PState) : (s.setPstate p st).pending = s.pending := State.setRegF_pending _ _ _ _ _

/-! ### draw -/

@[simp] theorem State.draw_regs (s : State) : (s.draw.2).regs = s.regs := rfl
@[simp] theorem State.draw_latch (s : State) : (s.draw.2).latch = s.latch := rfl
@[simp] theorem State.draw_held (s : State) : (s.draw.2).held = s.held := rfl
@[simp] theorem State.draw_lcc (s : State) : (s.draw.2).lcc = s.lcc := rfl
@[simp] theorem State.draw_stopped (s : State) : (s.draw.2).stopped = s.stopped := rfl
@[simp] theorem State.draw_t1 (s : State) : (s.draw.2).t1 = s.t1 := rfl
@[simp] theorem State.draw_t0 (s : State) : (s.draw.2).t0 = s.t0 := rfl
@[simp] theorem State.draw_parts (s : State) : (s.draw.2).parts = s.parts := rfl
@[simp] theorem State.draw_fab (s : State) : (s.draw.2).fab = s.fab := rfl
@[simp] theorem State.draw_errs (s : State) : (s.draw.2).errs = s.errs := rfl
@[simp] theorem State.draw_ft (s : State) : (s.draw.2).ft = s.ft := rfl
@[simp] theorem State.draw_loft (s : State) : (s.draw.2).loft = s.loft := rfl
@[simp] theorem State.draw_xlt (s : State) : (s.draw.2).xlt = s.xlt := rfl
@[simp] theorem State.draw_homes (s : State) : (s.draw.2).homes = s.homes := rfl
@[simp] theorem State.draw_mirrors (s : State) : (s.draw.2).mirrors = s.mirrors := rfl
@[simp] theorem State.draw_sync (s : State) : (s.draw.2).sync = s.sync := rfl
@[simp] theorem State.draw_extents (s : State) : (s.draw.2).extents = s.extents := rfl
@[simp] theorem State.draw_lds (s : State) : (s.draw.2).lds = s.lds := rfl
@[simp] theorem State.draw_mgmt (s : State) : (s.draw.2).mgmt = s.mgmt := rfl
@[simp] theorem State.draw_netAddr (s : State) : (s.draw.2).netAddr = s.netAddr := rfl
@[simp] theorem State.draw_fifoSeq (s : State) : (s.draw.2).fifoSeq = s.fifoSeq := rfl
@[simp] theorem State.draw_scalers (s : State) : (s.draw.2).scalers = s.scalers := rfl
@[simp] theorem State.draw_tally (s : State) : (s.draw.2).tally = s.tally := rfl
@[simp] theorem State.draw_engines (s : State) : (s.draw.2).engines = s.engines := rfl
@[simp] theorem State.draw_marks (s : State) : (s.draw.2).marks = s.marks := rfl
@[simp] theorem State.draw_quarRecord (s : State) : (s.draw.2).quarRecord = s.quarRecord := rfl
@[simp] theorem State.draw_cores (s : State) : (s.draw.2).cores = s.cores := rfl
@[simp] theorem State.draw_resv (s : State) : (s.draw.2).resv = s.resv := rfl
@[simp] theorem State.draw_power (s : State) : (s.draw.2).power = s.power := rfl
@[simp] theorem State.draw_fuses (s : State) : (s.draw.2).fuses = s.fuses := rfl
@[simp] theorem State.draw_boot (s : State) : (s.draw.2).boot = s.boot := rfl
@[simp] theorem State.draw_cribs (s : State) : (s.draw.2).cribs = s.cribs := rfl
@[simp] theorem State.draw_cribGen (s : State) : (s.draw.2).cribGen = s.cribGen := rfl
@[simp] theorem State.draw_forwards (s : State) : (s.draw.2).forwards = s.forwards := rfl
@[simp] theorem State.draw_nextForward (s : State) : (s.draw.2).nextForward = s.nextForward := rfl
@[simp] theorem State.draw_indexes (s : State) : (s.draw.2).indexes = s.indexes := rfl
@[simp] theorem State.draw_loading (s : State) : (s.draw.2).loading = s.loading := rfl
@[simp] theorem State.draw_out (s : State) : (s.draw.2).out = s.out := rfl
@[simp] theorem State.draw_pending (s : State) : (s.draw.2).pending = s.pending := rfl

/-! ### choose -/

@[simp] theorem State.choose_regs (s : State) (n : Nat) : ((s.choose n).2).regs = s.regs := rfl
@[simp] theorem State.choose_latch (s : State) (n : Nat) : ((s.choose n).2).latch = s.latch := rfl
@[simp] theorem State.choose_held (s : State) (n : Nat) : ((s.choose n).2).held = s.held := rfl
@[simp] theorem State.choose_lcc (s : State) (n : Nat) : ((s.choose n).2).lcc = s.lcc := rfl
@[simp] theorem State.choose_stopped (s : State) (n : Nat) : ((s.choose n).2).stopped = s.stopped := rfl
@[simp] theorem State.choose_t1 (s : State) (n : Nat) : ((s.choose n).2).t1 = s.t1 := rfl
@[simp] theorem State.choose_t0 (s : State) (n : Nat) : ((s.choose n).2).t0 = s.t0 := rfl
@[simp] theorem State.choose_parts (s : State) (n : Nat) : ((s.choose n).2).parts = s.parts := rfl
@[simp] theorem State.choose_fab (s : State) (n : Nat) : ((s.choose n).2).fab = s.fab := rfl
@[simp] theorem State.choose_errs (s : State) (n : Nat) : ((s.choose n).2).errs = s.errs := rfl
@[simp] theorem State.choose_ft (s : State) (n : Nat) : ((s.choose n).2).ft = s.ft := rfl
@[simp] theorem State.choose_loft (s : State) (n : Nat) : ((s.choose n).2).loft = s.loft := rfl
@[simp] theorem State.choose_xlt (s : State) (n : Nat) : ((s.choose n).2).xlt = s.xlt := rfl
@[simp] theorem State.choose_homes (s : State) (n : Nat) : ((s.choose n).2).homes = s.homes := rfl
@[simp] theorem State.choose_mirrors (s : State) (n : Nat) : ((s.choose n).2).mirrors = s.mirrors := rfl
@[simp] theorem State.choose_sync (s : State) (n : Nat) : ((s.choose n).2).sync = s.sync := rfl
@[simp] theorem State.choose_extents (s : State) (n : Nat) : ((s.choose n).2).extents = s.extents := rfl
@[simp] theorem State.choose_lds (s : State) (n : Nat) : ((s.choose n).2).lds = s.lds := rfl
@[simp] theorem State.choose_mgmt (s : State) (n : Nat) : ((s.choose n).2).mgmt = s.mgmt := rfl
@[simp] theorem State.choose_netAddr (s : State) (n : Nat) : ((s.choose n).2).netAddr = s.netAddr := rfl
@[simp] theorem State.choose_fifoSeq (s : State) (n : Nat) : ((s.choose n).2).fifoSeq = s.fifoSeq := rfl
@[simp] theorem State.choose_scalers (s : State) (n : Nat) : ((s.choose n).2).scalers = s.scalers := rfl
@[simp] theorem State.choose_tally (s : State) (n : Nat) : ((s.choose n).2).tally = s.tally := rfl
@[simp] theorem State.choose_engines (s : State) (n : Nat) : ((s.choose n).2).engines = s.engines := rfl
@[simp] theorem State.choose_marks (s : State) (n : Nat) : ((s.choose n).2).marks = s.marks := rfl
@[simp] theorem State.choose_quarRecord (s : State) (n : Nat) : ((s.choose n).2).quarRecord = s.quarRecord := rfl
@[simp] theorem State.choose_cores (s : State) (n : Nat) : ((s.choose n).2).cores = s.cores := rfl
@[simp] theorem State.choose_resv (s : State) (n : Nat) : ((s.choose n).2).resv = s.resv := rfl
@[simp] theorem State.choose_power (s : State) (n : Nat) : ((s.choose n).2).power = s.power := rfl
@[simp] theorem State.choose_fuses (s : State) (n : Nat) : ((s.choose n).2).fuses = s.fuses := rfl
@[simp] theorem State.choose_boot (s : State) (n : Nat) : ((s.choose n).2).boot = s.boot := rfl
@[simp] theorem State.choose_cribs (s : State) (n : Nat) : ((s.choose n).2).cribs = s.cribs := rfl
@[simp] theorem State.choose_cribGen (s : State) (n : Nat) : ((s.choose n).2).cribGen = s.cribGen := rfl
@[simp] theorem State.choose_forwards (s : State) (n : Nat) : ((s.choose n).2).forwards = s.forwards := rfl
@[simp] theorem State.choose_nextForward (s : State) (n : Nat) : ((s.choose n).2).nextForward = s.nextForward := rfl
@[simp] theorem State.choose_indexes (s : State) (n : Nat) : ((s.choose n).2).indexes = s.indexes := rfl
@[simp] theorem State.choose_loading (s : State) (n : Nat) : ((s.choose n).2).loading = s.loading := rfl
@[simp] theorem State.choose_out (s : State) (n : Nat) : ((s.choose n).2).out = s.out := rfl
@[simp] theorem State.choose_pending (s : State) (n : Nat) : ((s.choose n).2).pending = s.pending := rfl

/-! ### emit -/

@[simp] theorem State.emit_regs (s : State) (o : Out) : (s.emit o).regs = s.regs := rfl
@[simp] theorem State.emit_latch (s : State) (o : Out) : (s.emit o).latch = s.latch := rfl
@[simp] theorem State.emit_held (s : State) (o : Out) : (s.emit o).held = s.held := rfl
@[simp] theorem State.emit_lcc (s : State) (o : Out) : (s.emit o).lcc = s.lcc := rfl
@[simp] theorem State.emit_fresh (s : State) (o : Out) : (s.emit o).fresh = s.fresh := rfl
@[simp] theorem State.emit_stopped (s : State) (o : Out) : (s.emit o).stopped = s.stopped := rfl
@[simp] theorem State.emit_t1 (s : State) (o : Out) : (s.emit o).t1 = s.t1 := rfl
@[simp] theorem State.emit_t0 (s : State) (o : Out) : (s.emit o).t0 = s.t0 := rfl
@[simp] theorem State.emit_parts (s : State) (o : Out) : (s.emit o).parts = s.parts := rfl
@[simp] theorem State.emit_fab (s : State) (o : Out) : (s.emit o).fab = s.fab := rfl
@[simp] theorem State.emit_errs (s : State) (o : Out) : (s.emit o).errs = s.errs := rfl
@[simp] theorem State.emit_ft (s : State) (o : Out) : (s.emit o).ft = s.ft := rfl
@[simp] theorem State.emit_loft (s : State) (o : Out) : (s.emit o).loft = s.loft := rfl
@[simp] theorem State.emit_xlt (s : State) (o : Out) : (s.emit o).xlt = s.xlt := rfl
@[simp] theorem State.emit_homes (s : State) (o : Out) : (s.emit o).homes = s.homes := rfl
@[simp] theorem State.emit_mirrors (s : State) (o : Out) : (s.emit o).mirrors = s.mirrors := rfl
@[simp] theorem State.emit_sync (s : State) (o : Out) : (s.emit o).sync = s.sync := rfl
@[simp] theorem State.emit_extents (s : State) (o : Out) : (s.emit o).extents = s.extents := rfl
@[simp] theorem State.emit_lds (s : State) (o : Out) : (s.emit o).lds = s.lds := rfl
@[simp] theorem State.emit_mgmt (s : State) (o : Out) : (s.emit o).mgmt = s.mgmt := rfl
@[simp] theorem State.emit_netAddr (s : State) (o : Out) : (s.emit o).netAddr = s.netAddr := rfl
@[simp] theorem State.emit_fifoSeq (s : State) (o : Out) : (s.emit o).fifoSeq = s.fifoSeq := rfl
@[simp] theorem State.emit_scalers (s : State) (o : Out) : (s.emit o).scalers = s.scalers := rfl
@[simp] theorem State.emit_tally (s : State) (o : Out) : (s.emit o).tally = s.tally := rfl
@[simp] theorem State.emit_engines (s : State) (o : Out) : (s.emit o).engines = s.engines := rfl
@[simp] theorem State.emit_marks (s : State) (o : Out) : (s.emit o).marks = s.marks := rfl
@[simp] theorem State.emit_quarRecord (s : State) (o : Out) : (s.emit o).quarRecord = s.quarRecord := rfl
@[simp] theorem State.emit_cores (s : State) (o : Out) : (s.emit o).cores = s.cores := rfl
@[simp] theorem State.emit_resv (s : State) (o : Out) : (s.emit o).resv = s.resv := rfl
@[simp] theorem State.emit_power (s : State) (o : Out) : (s.emit o).power = s.power := rfl
@[simp] theorem State.emit_fuses (s : State) (o : Out) : (s.emit o).fuses = s.fuses := rfl
@[simp] theorem State.emit_boot (s : State) (o : Out) : (s.emit o).boot = s.boot := rfl
@[simp] theorem State.emit_cribs (s : State) (o : Out) : (s.emit o).cribs = s.cribs := rfl
@[simp] theorem State.emit_cribGen (s : State) (o : Out) : (s.emit o).cribGen = s.cribGen := rfl
@[simp] theorem State.emit_forwards (s : State) (o : Out) : (s.emit o).forwards = s.forwards := rfl
@[simp] theorem State.emit_nextForward (s : State) (o : Out) : (s.emit o).nextForward = s.nextForward := rfl
@[simp] theorem State.emit_indexes (s : State) (o : Out) : (s.emit o).indexes = s.indexes := rfl
@[simp] theorem State.emit_loading (s : State) (o : Out) : (s.emit o).loading = s.loading := rfl
@[simp] theorem State.emit_pending (s : State) (o : Out) : (s.emit o).pending = s.pending := rfl

/-! ### setPart -/

@[simp] theorem State.setPart_regs (s : State) (p : Nat) (v : Part) : (s.setPart p v).regs = s.regs := rfl
@[simp] theorem State.setPart_latch (s : State) (p : Nat) (v : Part) : (s.setPart p v).latch = s.latch := rfl
@[simp] theorem State.setPart_held (s : State) (p : Nat) (v : Part) : (s.setPart p v).held = s.held := rfl
@[simp] theorem State.setPart_lcc (s : State) (p : Nat) (v : Part) : (s.setPart p v).lcc = s.lcc := rfl
@[simp] theorem State.setPart_fresh (s : State) (p : Nat) (v : Part) : (s.setPart p v).fresh = s.fresh := rfl
@[simp] theorem State.setPart_stopped (s : State) (p : Nat) (v : Part) : (s.setPart p v).stopped = s.stopped := rfl
@[simp] theorem State.setPart_t1 (s : State) (p : Nat) (v : Part) : (s.setPart p v).t1 = s.t1 := rfl
@[simp] theorem State.setPart_t0 (s : State) (p : Nat) (v : Part) : (s.setPart p v).t0 = s.t0 := rfl
@[simp] theorem State.setPart_fab (s : State) (p : Nat) (v : Part) : (s.setPart p v).fab = s.fab := rfl
@[simp] theorem State.setPart_errs (s : State) (p : Nat) (v : Part) : (s.setPart p v).errs = s.errs := rfl
@[simp] theorem State.setPart_ft (s : State) (p : Nat) (v : Part) : (s.setPart p v).ft = s.ft := rfl
@[simp] theorem State.setPart_loft (s : State) (p : Nat) (v : Part) : (s.setPart p v).loft = s.loft := rfl
@[simp] theorem State.setPart_xlt (s : State) (p : Nat) (v : Part) : (s.setPart p v).xlt = s.xlt := rfl
@[simp] theorem State.setPart_homes (s : State) (p : Nat) (v : Part) : (s.setPart p v).homes = s.homes := rfl
@[simp] theorem State.setPart_mirrors (s : State) (p : Nat) (v : Part) : (s.setPart p v).mirrors = s.mirrors := rfl
@[simp] theorem State.setPart_sync (s : State) (p : Nat) (v : Part) : (s.setPart p v).sync = s.sync := rfl
@[simp] theorem State.setPart_extents (s : State) (p : Nat) (v : Part) : (s.setPart p v).extents = s.extents := rfl
@[simp] theorem State.setPart_lds (s : State) (p : Nat) (v : Part) : (s.setPart p v).lds = s.lds := rfl
@[simp] theorem State.setPart_mgmt (s : State) (p : Nat) (v : Part) : (s.setPart p v).mgmt = s.mgmt := rfl
@[simp] theorem State.setPart_netAddr (s : State) (p : Nat) (v : Part) : (s.setPart p v).netAddr = s.netAddr := rfl
@[simp] theorem State.setPart_fifoSeq (s : State) (p : Nat) (v : Part) : (s.setPart p v).fifoSeq = s.fifoSeq := rfl
@[simp] theorem State.setPart_scalers (s : State) (p : Nat) (v : Part) : (s.setPart p v).scalers = s.scalers := rfl
@[simp] theorem State.setPart_tally (s : State) (p : Nat) (v : Part) : (s.setPart p v).tally = s.tally := rfl
@[simp] theorem State.setPart_engines (s : State) (p : Nat) (v : Part) : (s.setPart p v).engines = s.engines := rfl
@[simp] theorem State.setPart_marks (s : State) (p : Nat) (v : Part) : (s.setPart p v).marks = s.marks := rfl
@[simp] theorem State.setPart_quarRecord (s : State) (p : Nat) (v : Part) : (s.setPart p v).quarRecord = s.quarRecord := rfl
@[simp] theorem State.setPart_cores (s : State) (p : Nat) (v : Part) : (s.setPart p v).cores = s.cores := rfl
@[simp] theorem State.setPart_resv (s : State) (p : Nat) (v : Part) : (s.setPart p v).resv = s.resv := rfl
@[simp] theorem State.setPart_power (s : State) (p : Nat) (v : Part) : (s.setPart p v).power = s.power := rfl
@[simp] theorem State.setPart_fuses (s : State) (p : Nat) (v : Part) : (s.setPart p v).fuses = s.fuses := rfl
@[simp] theorem State.setPart_boot (s : State) (p : Nat) (v : Part) : (s.setPart p v).boot = s.boot := rfl
@[simp] theorem State.setPart_cribs (s : State) (p : Nat) (v : Part) : (s.setPart p v).cribs = s.cribs := rfl
@[simp] theorem State.setPart_cribGen (s : State) (p : Nat) (v : Part) : (s.setPart p v).cribGen = s.cribGen := rfl
@[simp] theorem State.setPart_forwards (s : State) (p : Nat) (v : Part) : (s.setPart p v).forwards = s.forwards := rfl
@[simp] theorem State.setPart_nextForward (s : State) (p : Nat) (v : Part) : (s.setPart p v).nextForward = s.nextForward := rfl
@[simp] theorem State.setPart_indexes (s : State) (p : Nat) (v : Part) : (s.setPart p v).indexes = s.indexes := rfl
@[simp] theorem State.setPart_loading (s : State) (p : Nat) (v : Part) : (s.setPart p v).loading = s.loading := rfl
@[simp] theorem State.setPart_out (s : State) (p : Nat) (v : Part) : (s.setPart p v).out = s.out := rfl
@[simp] theorem State.setPart_pending (s : State) (p : Nat) (v : Part) : (s.setPart p v).pending = s.pending := rfl

/-! ### modPart -/

@[simp] theorem State.modPart_regs (s : State) (p : Nat) (f : Part → Part) : (s.modPart p f).regs = s.regs := rfl
@[simp] theorem State.modPart_latch (s : State) (p : Nat) (f : Part → Part) : (s.modPart p f).latch = s.latch := rfl
@[simp] theorem State.modPart_held (s : State) (p : Nat) (f : Part → Part) : (s.modPart p f).held = s.held := rfl
@[simp] theorem State.modPart_lcc (s : State) (p : Nat) (f : Part → Part) : (s.modPart p f).lcc = s.lcc := rfl
@[simp] theorem State.modPart_fresh (s : State) (p : Nat) (f : Part → Part) : (s.modPart p f).fresh = s.fresh := rfl
@[simp] theorem State.modPart_stopped (s : State) (p : Nat) (f : Part → Part) : (s.modPart p f).stopped = s.stopped := rfl
@[simp] theorem State.modPart_t1 (s : State) (p : Nat) (f : Part → Part) : (s.modPart p f).t1 = s.t1 := rfl
@[simp] theorem State.modPart_t0 (s : State) (p : Nat) (f : Part → Part) : (s.modPart p f).t0 = s.t0 := rfl
@[simp] theorem State.modPart_fab (s : State) (p : Nat) (f : Part → Part) : (s.modPart p f).fab = s.fab := rfl
@[simp] theorem State.modPart_errs (s : State) (p : Nat) (f : Part → Part) : (s.modPart p f).errs = s.errs := rfl
@[simp] theorem State.modPart_ft (s : State) (p : Nat) (f : Part → Part) : (s.modPart p f).ft = s.ft := rfl
@[simp] theorem State.modPart_loft (s : State) (p : Nat) (f : Part → Part) : (s.modPart p f).loft = s.loft := rfl
@[simp] theorem State.modPart_xlt (s : State) (p : Nat) (f : Part → Part) : (s.modPart p f).xlt = s.xlt := rfl
@[simp] theorem State.modPart_homes (s : State) (p : Nat) (f : Part → Part) : (s.modPart p f).homes = s.homes := rfl
@[simp] theorem State.modPart_mirrors (s : State) (p : Nat) (f : Part → Part) : (s.modPart p f).mirrors = s.mirrors := rfl
@[simp] theorem State.modPart_sync (s : State) (p : Nat) (f : Part → Part) : (s.modPart p f).sync = s.sync := rfl
@[simp] theorem State.modPart_extents (s : State) (p : Nat) (f : Part → Part) : (s.modPart p f).extents = s.extents := rfl
@[simp] theorem State.modPart_lds (s : State) (p : Nat) (f : Part → Part) : (s.modPart p f).lds = s.lds := rfl
@[simp] theorem State.modPart_mgmt (s : State) (p : Nat) (f : Part → Part) : (s.modPart p f).mgmt = s.mgmt := rfl
@[simp] theorem State.modPart_netAddr (s : State) (p : Nat) (f : Part → Part) : (s.modPart p f).netAddr = s.netAddr := rfl
@[simp] theorem State.modPart_fifoSeq (s : State) (p : Nat) (f : Part → Part) : (s.modPart p f).fifoSeq = s.fifoSeq := rfl
@[simp] theorem State.modPart_scalers (s : State) (p : Nat) (f : Part → Part) : (s.modPart p f).scalers = s.scalers := rfl
@[simp] theorem State.modPart_tally (s : State) (p : Nat) (f : Part → Part) : (s.modPart p f).tally = s.tally := rfl
@[simp] theorem State.modPart_engines (s : State) (p : Nat) (f : Part → Part) : (s.modPart p f).engines = s.engines := rfl
@[simp] theorem State.modPart_marks (s : State) (p : Nat) (f : Part → Part) : (s.modPart p f).marks = s.marks := rfl
@[simp] theorem State.modPart_quarRecord (s : State) (p : Nat) (f : Part → Part) : (s.modPart p f).quarRecord = s.quarRecord := rfl
@[simp] theorem State.modPart_cores (s : State) (p : Nat) (f : Part → Part) : (s.modPart p f).cores = s.cores := rfl
@[simp] theorem State.modPart_resv (s : State) (p : Nat) (f : Part → Part) : (s.modPart p f).resv = s.resv := rfl
@[simp] theorem State.modPart_power (s : State) (p : Nat) (f : Part → Part) : (s.modPart p f).power = s.power := rfl
@[simp] theorem State.modPart_fuses (s : State) (p : Nat) (f : Part → Part) : (s.modPart p f).fuses = s.fuses := rfl
@[simp] theorem State.modPart_boot (s : State) (p : Nat) (f : Part → Part) : (s.modPart p f).boot = s.boot := rfl
@[simp] theorem State.modPart_cribs (s : State) (p : Nat) (f : Part → Part) : (s.modPart p f).cribs = s.cribs := rfl
@[simp] theorem State.modPart_cribGen (s : State) (p : Nat) (f : Part → Part) : (s.modPart p f).cribGen = s.cribGen := rfl
@[simp] theorem State.modPart_forwards (s : State) (p : Nat) (f : Part → Part) : (s.modPart p f).forwards = s.forwards := rfl
@[simp] theorem State.modPart_nextForward (s : State) (p : Nat) (f : Part → Part) : (s.modPart p f).nextForward = s.nextForward := rfl
@[simp] theorem State.modPart_indexes (s : State) (p : Nat) (f : Part → Part) : (s.modPart p f).indexes = s.indexes := rfl
@[simp] theorem State.modPart_loading (s : State) (p : Nat) (f : Part → Part) : (s.modPart p f).loading = s.loading := rfl
@[simp] theorem State.modPart_out (s : State) (p : Nat) (f : Part → Part) : (s.modPart p f).out = s.out := rfl
@[simp] theorem State.modPart_pending (s : State) (p : Nat) (f : Part → Part) : (s.modPart p f).pending = s.pending := rfl

/-! ### modRing -/

@[simp] theorem State.modRing_regs (s : State) (p n : Nat) (f : Ring → Ring) : (s.modRing p n f).regs = s.regs := rfl
@[simp] theorem State.modRing_latch (s : State) (p n : Nat) (f : Ring → Ring) : (s.modRing p n f).latch = s.latch := rfl
@[simp] theorem State.modRing_held (s : State) (p n : Nat) (f : Ring → Ring) : (s.modRing p n f).held = s.held := rfl
@[simp] theorem State.modRing_lcc (s : State) (p n : Nat) (f : Ring → Ring) : (s.modRing p n f).lcc = s.lcc := rfl
@[simp] theorem State.modRing_fresh (s : State) (p n : Nat) (f : Ring → Ring) : (s.modRing p n f).fresh = s.fresh := rfl
@[simp] theorem State.modRing_stopped (s : State) (p n : Nat) (f : Ring → Ring) : (s.modRing p n f).stopped = s.stopped := rfl
@[simp] theorem State.modRing_t1 (s : State) (p n : Nat) (f : Ring → Ring) : (s.modRing p n f).t1 = s.t1 := rfl
@[simp] theorem State.modRing_t0 (s : State) (p n : Nat) (f : Ring → Ring) : (s.modRing p n f).t0 = s.t0 := rfl
@[simp] theorem State.modRing_fab (s : State) (p n : Nat) (f : Ring → Ring) : (s.modRing p n f).fab = s.fab := rfl
@[simp] theorem State.modRing_errs (s : State) (p n : Nat) (f : Ring → Ring) : (s.modRing p n f).errs = s.errs := rfl
@[simp] theorem State.modRing_ft (s : State) (p n : Nat) (f : Ring → Ring) : (s.modRing p n f).ft = s.ft := rfl
@[simp] theorem State.modRing_loft (s : State) (p n : Nat) (f : Ring → Ring) : (s.modRing p n f).loft = s.loft := rfl
@[simp] theorem State.modRing_xlt (s : State) (p n : Nat) (f : Ring → Ring) : (s.modRing p n f).xlt = s.xlt := rfl
@[simp] theorem State.modRing_homes (s : State) (p n : Nat) (f : Ring → Ring) : (s.modRing p n f).homes = s.homes := rfl
@[simp] theorem State.modRing_mirrors (s : State) (p n : Nat) (f : Ring → Ring) : (s.modRing p n f).mirrors = s.mirrors := rfl
@[simp] theorem State.modRing_sync (s : State) (p n : Nat) (f : Ring → Ring) : (s.modRing p n f).sync = s.sync := rfl
@[simp] theorem State.modRing_extents (s : State) (p n : Nat) (f : Ring → Ring) : (s.modRing p n f).extents = s.extents := rfl
@[simp] theorem State.modRing_lds (s : State) (p n : Nat) (f : Ring → Ring) : (s.modRing p n f).lds = s.lds := rfl
@[simp] theorem State.modRing_mgmt (s : State) (p n : Nat) (f : Ring → Ring) : (s.modRing p n f).mgmt = s.mgmt := rfl
@[simp] theorem State.modRing_netAddr (s : State) (p n : Nat) (f : Ring → Ring) : (s.modRing p n f).netAddr = s.netAddr := rfl
@[simp] theorem State.modRing_fifoSeq (s : State) (p n : Nat) (f : Ring → Ring) : (s.modRing p n f).fifoSeq = s.fifoSeq := rfl
@[simp] theorem State.modRing_scalers (s : State) (p n : Nat) (f : Ring → Ring) : (s.modRing p n f).scalers = s.scalers := rfl
@[simp] theorem State.modRing_tally (s : State) (p n : Nat) (f : Ring → Ring) : (s.modRing p n f).tally = s.tally := rfl
@[simp] theorem State.modRing_engines (s : State) (p n : Nat) (f : Ring → Ring) : (s.modRing p n f).engines = s.engines := rfl
@[simp] theorem State.modRing_marks (s : State) (p n : Nat) (f : Ring → Ring) : (s.modRing p n f).marks = s.marks := rfl
@[simp] theorem State.modRing_quarRecord (s : State) (p n : Nat) (f : Ring → Ring) : (s.modRing p n f).quarRecord = s.quarRecord := rfl
@[simp] theorem State.modRing_cores (s : State) (p n : Nat) (f : Ring → Ring) : (s.modRing p n f).cores = s.cores := rfl
@[simp] theorem State.modRing_resv (s : State) (p n : Nat) (f : Ring → Ring) : (s.modRing p n f).resv = s.resv := rfl
@[simp] theorem State.modRing_power (s : State) (p n : Nat) (f : Ring → Ring) : (s.modRing p n f).power = s.power := rfl
@[simp] theorem State.modRing_fuses (s : State) (p n : Nat) (f : Ring → Ring) : (s.modRing p n f).fuses = s.fuses := rfl
@[simp] theorem State.modRing_boot (s : State) (p n : Nat) (f : Ring → Ring) : (s.modRing p n f).boot = s.boot := rfl
@[simp] theorem State.modRing_cribs (s : State) (p n : Nat) (f : Ring → Ring) : (s.modRing p n f).cribs = s.cribs := rfl
@[simp] theorem State.modRing_cribGen (s : State) (p n : Nat) (f : Ring → Ring) : (s.modRing p n f).cribGen = s.cribGen := rfl
@[simp] theorem State.modRing_forwards (s : State) (p n : Nat) (f : Ring → Ring) : (s.modRing p n f).forwards = s.forwards := rfl
@[simp] theorem State.modRing_nextForward (s : State) (p n : Nat) (f : Ring → Ring) : (s.modRing p n f).nextForward = s.nextForward := rfl
@[simp] theorem State.modRing_indexes (s : State) (p n : Nat) (f : Ring → Ring) : (s.modRing p n f).indexes = s.indexes := rfl
@[simp] theorem State.modRing_loading (s : State) (p n : Nat) (f : Ring → Ring) : (s.modRing p n f).loading = s.loading := rfl
@[simp] theorem State.modRing_out (s : State) (p n : Nat) (f : Ring → Ring) : (s.modRing p n f).out = s.out := rfl
@[simp] theorem State.modRing_pending (s : State) (p n : Nat) (f : Ring → Ring) : (s.modRing p n f).pending = s.pending := rfl

/-! ### modLd -/

@[simp] theorem State.modLd_regs (s : State) (i : Nat) (f : LogicalDevice → LogicalDevice) : (s.modLd i f).regs = s.regs := rfl
@[simp] theorem State.modLd_latch (s : State) (i : Nat) (f : LogicalDevice → LogicalDevice) : (s.modLd i f).latch = s.latch := rfl
@[simp] theorem State.modLd_held (s : State) (i : Nat) (f : LogicalDevice → LogicalDevice) : (s.modLd i f).held = s.held := rfl
@[simp] theorem State.modLd_lcc (s : State) (i : Nat) (f : LogicalDevice → LogicalDevice) : (s.modLd i f).lcc = s.lcc := rfl
@[simp] theorem State.modLd_fresh (s : State) (i : Nat) (f : LogicalDevice → LogicalDevice) : (s.modLd i f).fresh = s.fresh := rfl
@[simp] theorem State.modLd_stopped (s : State) (i : Nat) (f : LogicalDevice → LogicalDevice) : (s.modLd i f).stopped = s.stopped := rfl
@[simp] theorem State.modLd_t1 (s : State) (i : Nat) (f : LogicalDevice → LogicalDevice) : (s.modLd i f).t1 = s.t1 := rfl
@[simp] theorem State.modLd_t0 (s : State) (i : Nat) (f : LogicalDevice → LogicalDevice) : (s.modLd i f).t0 = s.t0 := rfl
@[simp] theorem State.modLd_parts (s : State) (i : Nat) (f : LogicalDevice → LogicalDevice) : (s.modLd i f).parts = s.parts := rfl
@[simp] theorem State.modLd_fab (s : State) (i : Nat) (f : LogicalDevice → LogicalDevice) : (s.modLd i f).fab = s.fab := rfl
@[simp] theorem State.modLd_errs (s : State) (i : Nat) (f : LogicalDevice → LogicalDevice) : (s.modLd i f).errs = s.errs := rfl
@[simp] theorem State.modLd_ft (s : State) (i : Nat) (f : LogicalDevice → LogicalDevice) : (s.modLd i f).ft = s.ft := rfl
@[simp] theorem State.modLd_loft (s : State) (i : Nat) (f : LogicalDevice → LogicalDevice) : (s.modLd i f).loft = s.loft := rfl
@[simp] theorem State.modLd_xlt (s : State) (i : Nat) (f : LogicalDevice → LogicalDevice) : (s.modLd i f).xlt = s.xlt := rfl
@[simp] theorem State.modLd_homes (s : State) (i : Nat) (f : LogicalDevice → LogicalDevice) : (s.modLd i f).homes = s.homes := rfl
@[simp] theorem State.modLd_mirrors (s : State) (i : Nat) (f : LogicalDevice → LogicalDevice) : (s.modLd i f).mirrors = s.mirrors := rfl
@[simp] theorem State.modLd_sync (s : State) (i : Nat) (f : LogicalDevice → LogicalDevice) : (s.modLd i f).sync = s.sync := rfl
@[simp] theorem State.modLd_extents (s : State) (i : Nat) (f : LogicalDevice → LogicalDevice) : (s.modLd i f).extents = s.extents := rfl
@[simp] theorem State.modLd_mgmt (s : State) (i : Nat) (f : LogicalDevice → LogicalDevice) : (s.modLd i f).mgmt = s.mgmt := rfl
@[simp] theorem State.modLd_netAddr (s : State) (i : Nat) (f : LogicalDevice → LogicalDevice) : (s.modLd i f).netAddr = s.netAddr := rfl
@[simp] theorem State.modLd_fifoSeq (s : State) (i : Nat) (f : LogicalDevice → LogicalDevice) : (s.modLd i f).fifoSeq = s.fifoSeq := rfl
@[simp] theorem State.modLd_scalers (s : State) (i : Nat) (f : LogicalDevice → LogicalDevice) : (s.modLd i f).scalers = s.scalers := rfl
@[simp] theorem State.modLd_tally (s : State) (i : Nat) (f : LogicalDevice → LogicalDevice) : (s.modLd i f).tally = s.tally := rfl
@[simp] theorem State.modLd_engines (s : State) (i : Nat) (f : LogicalDevice → LogicalDevice) : (s.modLd i f).engines = s.engines := rfl
@[simp] theorem State.modLd_marks (s : State) (i : Nat) (f : LogicalDevice → LogicalDevice) : (s.modLd i f).marks = s.marks := rfl
@[simp] theorem State.modLd_quarRecord (s : State) (i : Nat) (f : LogicalDevice → LogicalDevice) : (s.modLd i f).quarRecord = s.quarRecord := rfl
@[simp] theorem State.modLd_cores (s : State) (i : Nat) (f : LogicalDevice → LogicalDevice) : (s.modLd i f).cores = s.cores := rfl
@[simp] theorem State.modLd_resv (s : State) (i : Nat) (f : LogicalDevice → LogicalDevice) : (s.modLd i f).resv = s.resv := rfl
@[simp] theorem State.modLd_power (s : State) (i : Nat) (f : LogicalDevice → LogicalDevice) : (s.modLd i f).power = s.power := rfl
@[simp] theorem State.modLd_fuses (s : State) (i : Nat) (f : LogicalDevice → LogicalDevice) : (s.modLd i f).fuses = s.fuses := rfl
@[simp] theorem State.modLd_boot (s : State) (i : Nat) (f : LogicalDevice → LogicalDevice) : (s.modLd i f).boot = s.boot := rfl
@[simp] theorem State.modLd_cribs (s : State) (i : Nat) (f : LogicalDevice → LogicalDevice) : (s.modLd i f).cribs = s.cribs := rfl
@[simp] theorem State.modLd_cribGen (s : State) (i : Nat) (f : LogicalDevice → LogicalDevice) : (s.modLd i f).cribGen = s.cribGen := rfl
@[simp] theorem State.modLd_forwards (s : State) (i : Nat) (f : LogicalDevice → LogicalDevice) : (s.modLd i f).forwards = s.forwards := rfl
@[simp] theorem State.modLd_nextForward (s : State) (i : Nat) (f : LogicalDevice → LogicalDevice) : (s.modLd i f).nextForward = s.nextForward := rfl
@[simp] theorem State.modLd_indexes (s : State) (i : Nat) (f : LogicalDevice → LogicalDevice) : (s.modLd i f).indexes = s.indexes := rfl
@[simp] theorem State.modLd_loading (s : State) (i : Nat) (f : LogicalDevice → LogicalDevice) : (s.modLd i f).loading = s.loading := rfl
@[simp] theorem State.modLd_out (s : State) (i : Nat) (f : LogicalDevice → LogicalDevice) : (s.modLd i f).out = s.out := rfl
@[simp] theorem State.modLd_pending (s : State) (i : Nat) (f : LogicalDevice → LogicalDevice) : (s.modLd i f).pending = s.pending := rfl

/-! ### Reads after writes -/

theorem State.reg_setReg (s : State) (a b : Nat) (v : Word) : (s.setReg a v).reg b = if b = a then v else s.reg b :=
  Tbl.get_set RegMap.reset s.regs a b v

@[simp] theorem State.reg_setReg_same (s : State) (a : Nat) (v : Word) : (s.setReg a v).reg a = v := by
  simp [State.reg_setReg]

theorem State.reg_setReg_ne (s : State) {a b : Nat} (v : Word) (h : b ≠ a) : (s.setReg a v).reg b = s.reg b := by
  simp [State.reg_setReg, h]

theorem State.reg_setRegN (s : State) (a b v : Nat) :
    (s.setRegN a v).reg b = if b = a then BitVec.ofNat 32 v else s.reg b := State.reg_setReg s a b _

theorem State.regN_setRegN (s : State) (a b v : Nat) :
    (s.setRegN a v).regN b = if b = a then v % 2 ^ 32 else s.regN b := by
  unfold State.regN
  rw [State.reg_setRegN]
  split <;> simp

theorem State.reg_setRegF (s : State) (a b hi lo v : Nat) :
    (s.setRegF a hi lo v).reg b = if b = a then putField (s.reg a) hi lo v else s.reg b := State.reg_setReg s a b _

theorem State.reg_count (s : State) (a b n : Nat) :
    (s.count a n).reg b = if b = a then BitVec.ofNat 32 (min (s.regN a + n) 0xFFFFFFFF) else s.reg b := State.reg_setReg s a b _

/-- A count stops at 0xFFFF_FFFF and never wraps. -/
theorem State.regN_count (s : State) (a n : Nat) : (s.count a n).regN a = min (s.regN a + n) 0xFFFFFFFF := by
  unfold State.regN
  rw [State.reg_count]
  simp only [State.regN, ↓reduceIte, BitVec.toNat_ofNat]
  omega

theorem State.reg_setReg64 (s : State) (a b v : Nat) :
    (s.setReg64 a v).reg b
      = if b = a + 4 then BitVec.ofNat 32 (v / 2 ^ 32) else if b = a then BitVec.ofNat 32 v else s.reg b := by
  unfold State.setReg64
  rw [State.reg_setRegN, State.reg_setRegN]

/-- A register pair reads back the 64 bits written. -/
theorem State.reg64_setReg64 (s : State) (a v : Nat) : (s.setReg64 a v).reg64 a = v % 2 ^ 64 := by
  unfold State.reg64 State.regN
  rw [State.reg_setReg64, State.reg_setReg64]
  have h : ¬ a = a + 4 := by omega
  simp only [BitVec.toNat_ofNat, ↓reduceIte, h]
  omega

theorem State.reg64_count64 (s : State) (a n : Nat) : (s.count64 a n).reg64 a = (s.reg64 a + n) % 2 ^ 64 := by
  unfold State.count64
  rw [State.reg64_setReg64]
  omega

theorem State.part_setPart (s : State) (p q : Nat) (v : Part) : (s.setPart p v).part q = if q = p then v else s.part q :=
  Tbl.get_set (fun _ => Part.free) s.parts p q v

@[simp] theorem State.part_setPart_same (s : State) (p : Nat) (v : Part) : (s.setPart p v).part p = v := by
  simp [State.part_setPart]

theorem State.part_modPart (s : State) (p q : Nat) (f : Part → Part) :
    (s.modPart p f).part q = if q = p then f (s.part p) else s.part q := State.part_setPart s p q _

theorem State.ld_modLd (s : State) (i j : Nat) (f : LogicalDevice → LogicalDevice) :
    (s.modLd i f).ld j = if j = i then f (s.ld i) else s.ld j := Tbl.get_modify (fun _ => LogicalDevice.reset) s.lds i j f

@[simp] theorem State.reg_draw (s : State) (a : Nat) : s.draw.2.reg a = s.reg a := rfl
@[simp] theorem State.reg_choose (s : State) (n a : Nat) : (s.choose n).2.reg a = s.reg a := rfl
@[simp] theorem State.reg_emit (s : State) (o : Out) (a : Nat) : (s.emit o).reg a = s.reg a := rfl
@[simp] theorem State.reg_setPart (s : State) (p : Nat) (v : Part) (a : Nat) : (s.setPart p v).reg a = s.reg a := rfl
@[simp] theorem State.reg_modPart (s : State) (p : Nat) (f : Part → Part) (a : Nat) : (s.modPart p f).reg a = s.reg a := rfl
@[simp] theorem State.reg_modRing (s : State) (p n : Nat) (f : Ring → Ring) (a : Nat) : (s.modRing p n f).reg a = s.reg a := rfl
@[simp] theorem State.reg_modLd (s : State) (i : Nat) (f : LogicalDevice → LogicalDevice) (a : Nat) :
    (s.modLd i f).reg a = s.reg a := rfl
@[simp] theorem State.part_setReg (s : State) (a : Nat) (v : Word) (p : Nat) : (s.setReg a v).part p = s.part p := rfl
@[simp] theorem State.part_setRegN (s : State) (a v p : Nat) : (s.setRegN a v).part p = s.part p := rfl
@[simp] theorem State.part_setRegF (s : State) (a hi lo v p : Nat) : (s.setRegF a hi lo v).part p = s.part p := rfl
@[simp] theorem State.part_setReg64 (s : State) (a v p : Nat) : (s.setReg64 a v).part p = s.part p := rfl
@[simp] theorem State.part_count (s : State) (a n p : Nat) : (s.count a n).part p = s.part p := rfl
@[simp] theorem State.part_setPstate (s : State) (p : Nat) (st : PState) (q : Nat) : (s.setPstate p st).part q = s.part q :=
  State.part_setRegF s _ _ _ _ q
@[simp] theorem State.part_emit (s : State) (o : Out) (p : Nat) : (s.emit o).part p = s.part p := rfl

end Sys2Proof.Machine
end

