-- ==== Sys2Proof/Laws/Calm.lean ====
section
/-! SUPPORT. Every named operation keeps the part calm (Safety.lean): the waiting commands, the counter, the fuses and the rest that only a
reset, a boot or a fatal error changes are as before, and the canonical forms stand. One lemma for each operation, which a proof cites instead of
unfolding it. -/

namespace Sys2Proof.Machine

set_option simprocs false

theorem Calm.refl (s : State) : Calm s s := ⟨rfl, rfl, rfl, rfl, rfl, id⟩

theorem Calm.trans {a b c : State} (h : Calm a b) (k : Calm b c) : Calm a c :=
  ⟨k.pending.trans h.pending, k.lcc.trans h.lcc, k.stopped.trans h.stopped, k.fuses.trans h.fuses, k.netAddr.trans h.netAddr,
    fun x => k.canonical (h.canonical x)⟩

/-- An update that touches none of them. -/
theorem calm_mk {s₀ s : State} {latch' : Tbl Word} {held' : Tbl (Option Word)} {fresh' : Nat} {t1' : Dram} {t0' : Sram} {fab' : Fabric} {errs' : ErrLog} {ft' : FieldTest} {loft' : Loft} {xlt' : Xlt} {homes' : Homes} {mirrors' : Mirrors} {sync' : Sync} {extents' : List Extent} {lds' : Tbl LogicalDevice} {mgmt' : Mgmt} {fifoSeq' : Tbl Nat} {scalers' : Tbl Scaler} {tally' : Tbl TallyGroup} {engines' : Tbl Engine} {marks' : List Nat} {quarRecord' : List Nat} {cores' : Tbl Core} {resv' : List (Nat × Nat)} {power' : Power} {boot' : Boot} {cribs' : Tbl Crib} {cribGen' : Tbl Nat} {forwards' : List Forward} {nextForward' : Nat} {indexes' : Tbl (Option VecIndex)} {loading' : List (Nat × Nat)} {out' : List Out} (h : Calm s₀ s)
    (h1 : t1'.mem = s.t1.mem) (h0 : t0'.mem = s.t0.mem) : Calm s₀ ⟨s.regs, latch', held', s.lcc, fresh', s.stopped, t1', t0', s.parts, fab', errs', ft', loft', xlt', homes', mirrors', sync', extents', lds', mgmt', s.netAddr, fifoSeq', scalers', tally', engines', marks', quarRecord', cores', resv', power', s.fuses, boot', cribs', cribGen', forwards', nextForward', indexes', loading', out', s.pending⟩ := by
  refine h.trans ⟨rfl, rfl, rfl, rfl, rfl, fun c => ?_⟩
  unfold Canonical at c ⊢
  dsimp only
  rw [h1, h0]
  exact c

theorem calm_foldl {α : Type} {s₀ s : State} {f : State → α → State} {xs : List α} (h : Calm s₀ s)
    (k : ∀ y x, Calm s₀ y → Calm s₀ (f y x)) : Calm s₀ (xs.foldl f s) := by
  induction xs generalizing s with
  | nil => exact h
  | cons x xs ih => exact ih (k s x h)

theorem calm_ite {s₀ : State} {c : Prop} [Decidable c] {a b : State} (h : c → Calm s₀ a) (k : ¬c → Calm s₀ b) : Calm s₀ (if c then a else b) := by
  split
  · exact h ‹_›
  · exact k ‹_›

theorem calm_foldr {α : Type} {s₀ s : State} {f : α → State → State} {xs : List α} (h : Calm s₀ s)
    (k : ∀ x y, Calm s₀ y → Calm s₀ (f x y)) : Calm s₀ (xs.foldr f s) := by
  induction xs with
  | nil => exact h
  | cons x xs ih => exact k x _ ih

theorem calm_setReg {s₀ : State} {s : State} {a2 : Nat} {a3 : Word} (h1 : Calm s₀ s) : Calm s₀ (State.setReg s a2 a3) := by
  refine h1.trans ⟨rfl, rfl, rfl, rfl, rfl, fun c => ?_⟩
  exact ⟨Tbl.wf_set _ _ _ _ c.1, c.2⟩

theorem calm_setPart {s₀ : State} {s : State} {a2 : Nat} {a3 : Part} (h1 : Calm s₀ s) : Calm s₀ (State.setPart s a2 a3) := by
  refine h1.trans ⟨rfl, rfl, rfl, rfl, rfl, fun c => ?_⟩
  exact ⟨c.1, c.2.1, c.2.2.1, Tbl.wf_set _ _ _ _ c.2.2.2⟩

/-- A piece of work keeps the part calm, whether it ends or stops. -/
def CalmWork (s₀ : State) {α : Type} (w : Work α) : Prop :=
  ∀ s, Calm s₀ s → match w s with
    | .ok r => Calm s₀ r.2
    | .error f => ∀ y, Calm s₀ y → Calm s₀ (f y)

theorem calm_work {s₀ s : State} {w : Work Unit} (h1 : CalmWork s₀ w) (h : Calm s₀ s) : Calm s₀ (State.work s w) := by
  have k := h1 s h
  unfold State.work
  split <;> rename_i e <;> rw [e] at k
  · exact k
  · exact k s h

theorem calmw_pure {s₀ : State} {α : Type} (a : α) : CalmWork s₀ (pure a : Work α) := fun _ h => h

theorem calmw_bind {s₀ : State} {α β : Type} {w : Work α} {f : α → Work β} (h : CalmWork s₀ w) (k : ∀ a, CalmWork s₀ (f a)) : CalmWork s₀ (w >>= f) := by
  intro s hs
  have hw := h s hs
  cases e : w s with
  | error g =>
    have q : (w >>= f) s = .error g := by
      show (w s >>= fun p => f p.1 p.2) = _
      rw [e]; rfl
    rw [q]; rw [e] at hw; exact hw
  | ok r =>
    have q : (w >>= f) s = f r.1 r.2 := by
      show (w s >>= fun p => f p.1 p.2) = _
      rw [e]; rfl
    rw [q]; rw [e] at hw; exact k r.1 r.2 hw

theorem calmw_ite {s₀ : State} {α : Type} {c : Prop} [Decidable c] {a b : Work α} (h : c → CalmWork s₀ a) (k : ¬c → CalmWork s₀ b) :
    CalmWork s₀ (if c then a else b) := by
  split
  · exact h ‹_›
  · exact k ‹_›

theorem calm_Work_act {s₀ : State} {f : State → State} (k : ∀ y, Calm s₀ y → Calm s₀ (f y)) : CalmWork s₀ (Work.act f) := fun s h => k s h

theorem calm_Work_stop {s₀ : State} {α : Type} {f : State → State} (k : ∀ y, Calm s₀ y → Calm s₀ (f y)) : CalmWork s₀ (Work.stop f : Work α) :=
  fun _ _ y h => k y h

theorem calm_id {s₀ : State} {y : State} (h : Calm s₀ y) : Calm s₀ (id y) := h

theorem calm_Work_view {s₀ : State} {α : Type} {f : State → α} : CalmWork s₀ (Work.view f) := fun _ h => h

theorem calmw_mapM {s₀ : State} {α β : Type} {f : α → Work β} {l : List α} (k : ∀ a, CalmWork s₀ (f a)) : CalmWork s₀ (l.mapM f) := by
  rw [← List.mapM'_eq_mapM]
  induction l with
  | nil => exact calmw_pure _
  | cons a l ih => exact calmw_bind (k a) (fun b => calmw_bind ih (fun c => calmw_pure _))

theorem calmw_forM {s₀ : State} {α : Type} {f : α → Work PUnit} {l : List α} (k : ∀ a, CalmWork s₀ (f a)) : CalmWork s₀ (l.forM f) := by
  induction l with
  | nil => exact calmw_pure _
  | cons a l ih => exact calmw_bind (k a) (fun _ => ih)

theorem calm_act {s₀ s : State} {f : State → State} {t : State} (e : act s f = .next t) (h : Calm s₀ s) (k : Calm s₀ (f s)) : Calm s₀ t := by
  unfold act at e
  injection e with e
  subst e
  split
  · exact h
  · exact k

theorem calm_modSync {s₀ : State} {s : State} {a2 : Sync → Sync} (h1 : Calm s₀ s) : Calm s₀ (State.modSync s a2) := by
  unfold State.modSync
  with_reducible repeat' (first
      | assumption | apply calm_id | apply calm_foldl | apply calm_foldr | apply calm_ite | split | intro _ | dsimp only
      | refine calm_mk ?_ rfl rfl)

theorem calm_setRegN {s₀ : State} {s : State} {a2 : Nat} {a3 : Nat} (h1 : Calm s₀ s) : Calm s₀ (State.setRegN s a2 a3) := by
  unfold State.setRegN
  with_reducible repeat' (first
      | assumption | apply calm_setReg | apply calm_id | apply calm_foldl | apply calm_foldr | apply calm_ite | split | intro _
      | dsimp only)

theorem calm_count {s₀ : State} {s : State} {a2 : Nat} {a3 : Nat} (h1 : Calm s₀ s) : Calm s₀ (State.count s a2 a3) := by
  unfold State.count
  with_reducible repeat' (first
      | assumption | apply calm_setRegN | apply calm_id | apply calm_foldl | apply calm_foldr | apply calm_ite | split | intro _
      | dsimp only)

theorem calm_modFab {s₀ : State} {s : State} {a2 : Fabric → Fabric} (h1 : Calm s₀ s) : Calm s₀ (State.modFab s a2) := by
  unfold State.modFab
  with_reducible repeat' (first
      | assumption | apply calm_id | apply calm_foldl | apply calm_foldr | apply calm_ite | split | intro _ | dsimp only
      | refine calm_mk ?_ rfl rfl)

theorem calm_deliver {s₀ : State} {s : State} {a2 : Packet} (h1 : Calm s₀ s) : Calm s₀ (State.deliver s a2) := by
  unfold State.deliver
  with_reducible repeat' (first
      | assumption | apply calm_modFab | apply calm_id | apply calm_foldl | apply calm_foldr | apply calm_ite | split | intro _
      | dsimp only)

theorem calm_modPort {s₀ : State} {s : State} {a2 : Nat} {a3 : Port → Port} (h1 : Calm s₀ s) : Calm s₀ (State.modPort s a2 a3) := by
  unfold State.modPort
  with_reducible repeat' (first
      | assumption | apply calm_modFab | apply calm_id | apply calm_foldl | apply calm_foldr | apply calm_ite | split | intro _
      | dsimp only)

theorem calm_giveCredit {s₀ : State} {s : State} {a2 : Nat} {a3 : Nat} {a4 : Nat} (h1 : Calm s₀ s) : Calm s₀ (State.giveCredit s a2 a3 a4) := by
  unfold State.giveCredit
  with_reducible repeat' (first
      | assumption | apply calm_modPort | apply calm_id | apply calm_foldl | apply calm_foldr | apply calm_ite | split | intro _
      | dsimp only)

theorem calm_spillLines {s₀ : State} {s : State} {a2 : Nat} {a3 : Nat} {a4 : State → Nat → State} (h1 : Calm s₀ s) (h4 : ∀ y0 y1, Calm s₀ y0 → Calm s₀ (a4 y0 y1)) : Calm s₀ (State.spillLines s a2 a3 a4) := by
  unfold State.spillLines
  with_reducible repeat' (first
      | assumption | apply calm_id | apply calm_foldl | apply calm_foldr | apply calm_ite | apply h4 | split | intro _ | dsimp only)

theorem calm_setT1Err {s₀ : State} {s : State} {a2 : Nat} {a3 : Option Nat} (h1 : Calm s₀ s) : Calm s₀ (State.setT1Err s a2 a3) := by
  unfold State.setT1Err
  with_reducible repeat' (first
      | assumption | apply calm_id | apply calm_foldl | apply calm_foldr | apply calm_ite | split | intro _ | dsimp only
      | refine calm_mk ?_ rfl rfl)

theorem calm_setT1Poison {s₀ : State} {s : State} {a2 : Nat} {a3 : Bool} (h1 : Calm s₀ s) : Calm s₀ (State.setT1Poison s a2 a3) := by
  unfold State.setT1Poison
  with_reducible repeat' (first
      | assumption | apply calm_id | apply calm_foldl | apply calm_foldr | apply calm_ite | split | intro _ | dsimp only
      | refine calm_mk ?_ rfl rfl)

theorem calm_dropResv {s₀ : State} {s : State} {a2 : Nat} (h1 : Calm s₀ s) : Calm s₀ (State.dropResv s a2) := by
  unfold State.dropResv
  with_reducible repeat' (first
      | assumption | apply calm_id | apply calm_foldl | apply calm_foldr | apply calm_ite | split | intro _ | dsimp only
      | refine calm_mk ?_ rfl rfl)

theorem calm_t1Put {s₀ s : State} {a2 a3 a4 : Nat} {a5 : Bool} (h1 : Calm s₀ s) : Calm s₀ (State.t1Put s a2 a3 a4 a5) := by
  have k : Calm s₀ { s with t1 := { s.t1 with mem := s.t1.mem.writeMasked (64 * a2) a3 64 a4 } } :=
    h1.trans ⟨rfl, rfl, rfl, rfl, rfl, fun c => ⟨c.1, Memory.wf_writeMasked _ _ _ _ _ c.2.1, c.2.2⟩⟩
  unfold State.t1Put
  exact calm_setT1Poison (calm_dropResv (calm_ite (fun _ => calm_setT1Err k) (fun _ => k)))


theorem calm_modScaler {s₀ : State} {s : State} {a2 : Nat} {a3 : Scaler → Scaler} (h1 : Calm s₀ s) : Calm s₀ (State.modScaler s a2 a3) := by
  unfold State.modScaler
  with_reducible repeat' (first
      | assumption | apply calm_id | apply calm_foldl | apply calm_foldr | apply calm_ite | split | intro _ | dsimp only
      | refine calm_mk ?_ rfl rfl)

theorem calm_bandwidthBytes {s₀ : State} {s : State} {a2 : Nat} {a3 : Nat} {a4 : Nat} {a5 : Nat} (h1 : Calm s₀ s) : Calm s₀ (State.bandwidthBytes s a2 a3 a4 a5) := by
  unfold State.bandwidthBytes
  with_reducible repeat' (first
      | assumption | apply calm_modScaler | apply calm_id | apply calm_foldl | apply calm_foldr | apply calm_ite | split | intro _
      | dsimp only)

theorem calm_setReg64 {s₀ : State} {s : State} {a2 : Nat} {a3 : Nat} (h1 : Calm s₀ s) : Calm s₀ (State.setReg64 s a2 a3) := by
  unfold State.setReg64
  with_reducible repeat' (first
      | assumption | apply calm_setRegN | apply calm_id | apply calm_foldl | apply calm_foldr | apply calm_ite | split | intro _
      | dsimp only)

theorem calm_modLd {s₀ : State} {s : State} {a2 : Nat} {a3 : LogicalDevice → LogicalDevice} (h1 : Calm s₀ s) : Calm s₀ (State.modLd s a2 a3) := by
  unfold State.modLd
  with_reducible repeat' (first
      | assumption | apply calm_id | apply calm_foldl | apply calm_foldr | apply calm_ite | split | intro _ | dsimp only
      | refine calm_mk ?_ rfl rfl)

theorem calm_emit {s₀ : State} {s : State} {a2 : Out} (h1 : Calm s₀ s) : Calm s₀ (State.emit s a2) := by
  unfold State.emit
  with_reducible repeat' (first
      | assumption | apply calm_id | apply calm_foldl | apply calm_foldr | apply calm_ite | split | intro _ | dsimp only
      | refine calm_mk ?_ rfl rfl)

theorem calm_message {s₀ : State} {s : State} {a2 : Nat} (h1 : Calm s₀ s) : Calm s₀ (State.message s a2) := by
  unfold State.message
  with_reducible repeat' (first
      | assumption | apply calm_modLd | apply calm_emit | apply calm_id | apply calm_foldl | apply calm_foldr | apply calm_ite
      | split | intro _ | dsimp only)

theorem calm_notify {s₀ : State} {s : State} {s2 : State} {a3 : Bool} {a4 : Option Nat} (h1 : Calm s₀ s) (h2 : Calm s₀ s2) : Calm s₀ (State.notify s s2 a3 a4) := by
  unfold State.notify
  with_reducible repeat' (first
      | assumption | apply calm_message | apply calm_id | apply calm_foldl | apply calm_foldr | apply calm_ite | split | intro _
      | dsimp only)

theorem calm_cause {s₀ : State} {s : State} {a2 : Nat} {a3 : Nat} (h1 : Calm s₀ s) : Calm s₀ (State.cause s a2 a3) := by
  unfold State.cause
  with_reducible repeat' (first
      | assumption | apply calm_notify | apply calm_setReg | apply calm_id | apply calm_foldl | apply calm_foldr | apply calm_ite
      | split | intro _ | dsimp only)

theorem calm_sclAdd {s₀ : State} {s : State} {a2 : Nat} {a3 : Nat} {a4 : Nat} (h1 : Calm s₀ s) : Calm s₀ (State.sclAdd s a2 a3 a4) := by
  unfold State.sclAdd
  with_reducible repeat' (first
      | assumption | apply calm_setReg64 | apply calm_cause | apply calm_modScaler | apply calm_id | apply calm_foldl
      | apply calm_foldr | apply calm_ite | split | intro _ | dsimp only)

theorem calm_event {s₀ : State} {s : State} {a2 : Nat} {a3 : Event} (h1 : Calm s₀ s) : Calm s₀ (State.event s a2 a3) := by
  unfold State.event
  with_reducible repeat' (first
      | assumption | apply calm_sclAdd | apply calm_id | apply calm_foldl | apply calm_foldr | apply calm_ite | split | intro _
      | dsimp only)

theorem calm_setRegF {s₀ : State} {s : State} {a2 : Nat} {a3 : Nat} {a4 : Nat} {a5 : Nat} (h1 : Calm s₀ s) : Calm s₀ (State.setRegF s a2 a3 a4 a5) := by
  unfold State.setRegF
  with_reducible repeat' (first
      | assumption | apply calm_setReg | apply calm_id | apply calm_foldl | apply calm_foldr | apply calm_ite | split | intro _
      | dsimp only)

theorem calm_wakeNow {s₀ : State} {s : State} {a2 : Nat} (h1 : Calm s₀ s) : Calm s₀ (State.wakeNow s a2) := by
  unfold State.wakeNow
  with_reducible repeat' (first
      | assumption | apply calm_setRegF | apply calm_id | apply calm_foldl | apply calm_foldr | apply calm_ite | split | intro _
      | dsimp only | refine calm_mk ?_ rfl rfl)

theorem calm_stackLine {s₀ : State} {s : State} {a2 : Nat} {a3 : Nat} {a4 : Nat} {a5 : Bool} {a6 : Origin} (h1 : Calm s₀ s) : Calm s₀ (State.stackLine s a2 a3 a4 a5 a6) := by
  unfold State.stackLine
  with_reducible repeat' (first
      | assumption | apply calm_bandwidthBytes | apply calm_event | apply calm_wakeNow | apply calm_id | apply calm_foldl
      | apply calm_foldr | apply calm_ite | split | intro _ | dsimp only)

theorem calm_t1Line {s₀ : State} {s : State} {a2 : Nat} {a3 : Nat} {a4 : Bool} {a5 : Origin} (h1 : Calm s₀ s) : Calm s₀ (State.t1Line s a2 a3 a4 a5) := by
  unfold State.t1Line
  with_reducible repeat' (first
      | assumption | apply calm_stackLine | apply calm_id | apply calm_foldl | apply calm_foldr | apply calm_ite | split | intro _
      | dsimp only)

theorem calm_spillWrite {s₀ : State} {s : State} {a2 : Nat} {a3 : Packet} (h1 : Calm s₀ s) : Calm s₀ (State.spillWrite s a2 a3) := by
  unfold State.spillWrite
  with_reducible repeat' (first
      | assumption | apply calm_spillLines | apply calm_t1Put | apply calm_t1Line | apply calm_id | apply calm_foldl
      | apply calm_foldr | apply calm_ite | split | intro _ | dsimp only)

theorem calm_toSpill {s₀ : State} {s : State} {a2 : Nat} {a3 : Nat} {a4 : Packet} {a5 : Nat} (h1 : Calm s₀ s) : Calm s₀ (State.toSpill s a2 a3 a4 a5) := by
  unfold State.toSpill
  with_reducible repeat' (first
      | assumption | apply calm_spillWrite | apply calm_event | apply calm_count | apply calm_cause | apply calm_id
      | apply calm_foldl | apply calm_foldr | apply calm_ite | split | intro _ | dsimp only)

theorem calm_combineAll {s₀ : State} {s : State} {a2 : Nat} {a3 : Nat} (h1 : Calm s₀ s) : Calm s₀ (State.combineAll s a2 a3) := by
  induction a3 generalizing s a2 h1 with
  | zero =>
    unfold State.combineAll
    with_reducible repeat' (first
      | assumption | apply calm_count | apply calm_modPort | apply calm_event | apply calm_id | apply calm_foldl | apply calm_foldr
      | apply calm_ite | split | intro _ | dsimp only)
  | succ _ ih =>
    unfold State.combineAll
    with_reducible repeat' (first
      | assumption | apply calm_count | apply calm_modPort | apply calm_event | apply calm_id | apply calm_foldl | apply calm_foldr
      | apply calm_ite | split | intro _ | dsimp only | apply ih)

theorem calm_enqueue {s₀ : State} {s : State} {a2 : Nat} {a3 : Packet} {a4 : Nat} {a5 : Nat} (h1 : Calm s₀ s) : Calm s₀ (State.enqueue s a2 a3 a4 a5) := by
  unfold State.enqueue
  with_reducible repeat' (first
      | assumption | apply calm_modPort | apply calm_giveCredit | apply calm_toSpill | apply calm_cause | apply calm_combineAll
      | apply calm_id | apply calm_foldl | apply calm_foldr | apply calm_ite | split | intro _ | dsimp only)

theorem calm_losePacket {s₀ : State} {s : State} {a2 : Nat} {a3 : Nat} {a4 : Packet} (h1 : Calm s₀ s) : Calm s₀ (State.losePacket s a2 a3 a4) := by
  unfold State.losePacket
  with_reducible repeat' (first
      | assumption | apply calm_count | apply calm_deliver | apply calm_enqueue | apply calm_id | apply calm_foldl
      | apply calm_foldr | apply calm_ite | split | intro _ | dsimp only)

theorem calm_route {s₀ : State} {s : State} {a2 : Packet} {a3 : Nat} {a4 : Nat} (h1 : Calm s₀ s) : Calm s₀ (State.route s a2 a3 a4) := by
  unfold State.route
  with_reducible repeat' (first
      | assumption | apply calm_deliver | apply calm_giveCredit | apply calm_losePacket | apply calm_enqueue | apply calm_id
      | apply calm_foldl | apply calm_foldr | apply calm_ite | split | intro _ | dsimp only)

theorem calm_respond {s₀ : State} {s : State} {a2 : Packet} {a3 : Nat} {a4 : Nat} {a5 : Nat} {a6 : List Nat} (h1 : Calm s₀ s) : Calm s₀ (State.respond s a2 a3 a4 a5 a6) := by
  unfold State.respond
  with_reducible repeat' (first
      | assumption | apply calm_route | apply calm_id | apply calm_foldl | apply calm_foldr | apply calm_ite | split | intro _
      | dsimp only)

theorem calm_reply {s₀ : State} {s : State} {a2 : Packet} {a3 : Nat} {a4 : Nat} {a5 : Nat} {a6 : Bool} (h1 : Calm s₀ s) : Calm s₀ (State.reply s a2 a3 a4 a5 a6) := by
  unfold State.reply
  with_reducible repeat' (first
      | assumption | apply calm_respond | apply calm_id | apply calm_foldl | apply calm_foldr | apply calm_ite | split | intro _
      | dsimp only)

theorem calm_setWindow {s₀ : State} {s : State} {a2 : Nat} {a3 : Nat} {a4 : Nat} {a5 : WinEntry} (h1 : Calm s₀ s) : Calm s₀ (State.setWindow s a2 a3 a4 a5) := by
  unfold State.setWindow
  with_reducible repeat' (first
      | assumption | apply calm_modFab | apply calm_id | apply calm_foldl | apply calm_foldr | apply calm_ite | split | intro _
      | dsimp only)

theorem calm_windowDone {s₀ : State} {s : State} {a2 : Nat} {a3 : Nat} {a4 : Nat} {a5 : Nat} {a6 : Nat} {a7 : Nat} (h1 : Calm s₀ s) : Calm s₀ (State.windowDone s a2 a3 a4 a5 a6 a7) := by
  unfold State.windowDone
  with_reducible repeat' (first
      | assumption | apply calm_reply | apply calm_setWindow | apply calm_id | apply calm_foldl | apply calm_foldr | apply calm_ite
      | split | intro _ | dsimp only)

theorem calm_endRequest {s₀ : State} {s : State} {a2 : Packet} {a3 : Nat} {a4 : Nat} {a5 : Nat} {a6 : Bool} (h1 : Calm s₀ s) : Calm s₀ (State.endRequest s a2 a3 a4 a5 a6) := by
  unfold State.endRequest
  with_reducible repeat' (first
      | assumption | apply calm_windowDone | apply calm_reply | apply calm_id | apply calm_foldl | apply calm_foldr
      | apply calm_ite | split | intro _ | dsimp only)

theorem calm_refuseStale {s₀ : State} {s : State} {a2 : Packet} (h1 : Calm s₀ s) : Calm s₀ (State.refuseStale s a2) := by
  unfold State.refuseStale
  with_reducible repeat' (first
      | assumption | apply calm_count | apply calm_endRequest | apply calm_id | apply calm_foldl | apply calm_foldr
      | apply calm_ite | split | intro _ | dsimp only)

theorem calm_refuseHeld {s₀ : State} {s : State} {a2 : Nat} (h1 : Calm s₀ s) : Calm s₀ (State.refuseHeld s a2) := by
  unfold State.refuseHeld
  with_reducible repeat' (first
      | assumption | apply calm_modSync | apply calm_refuseStale | apply calm_id | apply calm_foldl | apply calm_foldr
      | apply calm_ite | split | intro _ | dsimp only)

theorem calm_showComp {s₀ : State} {s : State} {a2 : Nat} (h1 : Calm s₀ s) : Calm s₀ (State.showComp s a2) := by
  unfold State.showComp
  with_reducible repeat' (first
      | assumption | apply calm_setRegN | apply calm_id | apply calm_foldl | apply calm_foldr | apply calm_ite | split | intro _
      | dsimp only)

theorem calm_setPrepared {s₀ : State} {s : State} {a2 : Nat} {a3 : Option Prepared} (h1 : Calm s₀ s) : Calm s₀ (State.setPrepared s a2 a3) := by
  unfold State.setPrepared
  with_reducible repeat' (first
      | assumption | apply calm_modSync | apply calm_id | apply calm_foldl | apply calm_foldr | apply calm_ite | split | intro _
      | dsimp only)

theorem calm_abortComp {s₀ : State} {s : State} {a2 : Nat} {a3 : Prepared} (h1 : Calm s₀ s) : Calm s₀ (State.abortComp s a2 a3) := by
  unfold State.abortComp
  with_reducible repeat' (first
      | assumption | apply calm_refuseHeld | apply calm_showComp | apply calm_setPrepared | apply calm_id | apply calm_foldl
      | apply calm_foldr | apply calm_ite | split | intro _ | dsimp only)

theorem calm_modPart {s₀ : State} {s : State} {a2 : Nat} {a3 : Part → Part} (h1 : Calm s₀ s) : Calm s₀ (State.modPart s a2 a3) := by
  unfold State.modPart
  with_reducible repeat' (first
      | assumption | apply calm_setPart | apply calm_id | apply calm_foldl | apply calm_foldr | apply calm_ite | split | intro _
      | dsimp only)

theorem calm_addEnded {s₀ : State} {s : State} {a2 : Nat} {a3 : Control} {a4 : Nat} {a5 : Nat} {a6 : Nat} {a7 : List Nat} (h1 : Calm s₀ s) : Calm s₀ (State.addEnded s a2 a3 a4 a5 a6 a7) := by
  unfold State.addEnded
  with_reducible repeat' (first
      | assumption | apply calm_modPart | apply calm_id | apply calm_foldl | apply calm_foldr | apply calm_ite | split | intro _
      | dsimp only)

theorem calm_endControl {s₀ : State} {s : State} {a2 : Nat} {a3 : Control} {a4 : Nat} {a5 : Nat} {a6 : List Nat} (h1 : Calm s₀ s) : Calm s₀ (State.endControl s a2 a3 a4 a5 a6) := by
  unfold State.endControl
  with_reducible repeat' (first
      | assumption | apply calm_addEnded | apply calm_modPart | apply calm_id | apply calm_foldl | apply calm_foldr
      | apply calm_ite | split | intro _ | dsimp only)

theorem calm_dropWaiting {s₀ : State} {s : State} {a2 : Nat} {a3 : Cmd} (h1 : Calm s₀ s) : Calm s₀ (State.dropWaiting s a2 a3) := by
  unfold State.dropWaiting
  with_reducible repeat' (first
      | assumption | apply calm_modPart | apply calm_id | apply calm_foldl | apply calm_foldr | apply calm_ite | split | intro _
      | dsimp only)

theorem calm_modCmd {s₀ : State} {s : State} {a2 : Nat} {a3 : Nat} {a4 : Nat} {a5 : Cmd → Cmd} (h1 : Calm s₀ s) : Calm s₀ (State.modCmd s a2 a3 a4 a5) := by
  unfold State.modCmd
  with_reducible repeat' (first
      | assumption | apply calm_modPart | apply calm_id | apply calm_foldl | apply calm_foldr | apply calm_ite | split | intro _
      | dsimp only)

theorem calm_dropWaits {s₀ : State} {s : State} {a2 : Nat} {a3 : Cmd} (h1 : Calm s₀ s) : Calm s₀ (State.dropWaits s a2 a3) := by
  unfold State.dropWaits
  with_reducible repeat' (first
      | assumption | apply calm_id | apply calm_foldl | apply calm_foldr | apply calm_ite | split | intro _ | dsimp only
      | refine calm_mk ?_ rfl rfl)

theorem calm_dropCmd {s₀ : State} {s : State} {a2 : Nat} {a3 : Nat} {a4 : Nat} (h1 : Calm s₀ s) : Calm s₀ (State.dropCmd s a2 a3 a4) := by
  unfold State.dropCmd
  with_reducible repeat' (first
      | assumption | apply calm_modPart | apply calm_id | apply calm_foldl | apply calm_foldr | apply calm_ite | split | intro _
      | dsimp only)

theorem calm_finish {s₀ : State} {s : State} {a2 : Nat} {a3 : Nat} {a4 : Nat} {a5 : Nat} {a6 : Nat} {a7 : Nat} (h1 : Calm s₀ s) : Calm s₀ (State.finish s a2 a3 a4 a5 a6 a7) := by
  unfold State.finish
  with_reducible repeat' (first
      | assumption | apply calm_dropWaiting | apply calm_dropWaits | apply calm_dropCmd | apply calm_modCmd | apply calm_modPart
      | apply calm_id | apply calm_foldl | apply calm_foldr | apply calm_ite | split | intro _ | dsimp only)

theorem calm_endCmd {s₀ : State} {s : State} {a2 : Nat} {a3 : Cmd} {a4 : Nat} {a5 : Nat} {a6 : Nat} (h1 : Calm s₀ s) : Calm s₀ (State.endCmd s a2 a3 a4 a5 a6) := by
  unfold State.endCmd
  with_reducible repeat' (first
      | assumption | apply calm_finish | apply calm_id | apply calm_foldl | apply calm_foldr | apply calm_ite | split | intro _
      | dsimp only)

theorem calm_endWait {s₀ : State} {s : State} {a2 : SemWaiter} (h1 : Calm s₀ s) : Calm s₀ (State.endWait s a2) := by
  unfold State.endWait
  with_reducible repeat' (first
      | assumption | apply calm_modSync | apply calm_id | apply calm_foldl | apply calm_foldr | apply calm_ite | split | intro _
      | dsimp only)

theorem calm_stopWaiting {s₀ : State} {s : State} {a2 : Nat} {a3 : Cmd} (h1 : Calm s₀ s) : Calm s₀ (State.stopWaiting s a2 a3) := by
  unfold State.stopWaiting
  with_reducible repeat' (first
      | assumption | apply calm_endCmd | apply calm_endWait | apply calm_id | apply calm_foldl | apply calm_foldr | apply calm_ite
      | split | intro _ | dsimp only)

theorem calm_abortTarget {s₀ : State} {s : State} {a2 : Nat} {a3 : Control} {a4 : Cmd} (h1 : Calm s₀ s) : Calm s₀ (State.abortTarget s a2 a3 a4) := by
  unfold State.abortTarget
  with_reducible repeat' (first
      | assumption | apply calm_endControl | apply calm_dropWaiting | apply calm_modCmd | apply calm_stopWaiting
      | apply calm_finish | apply calm_id | apply calm_foldl | apply calm_foldr | apply calm_ite | split | intro _ | dsimp only)

theorem calm_count64 {s₀ : State} {s : State} {a2 : Nat} {a3 : Nat} (h1 : Calm s₀ s) : Calm s₀ (State.count64 s a2 a3) := by
  unfold State.count64
  with_reducible repeat' (first
      | assumption | apply calm_setReg64 | apply calm_id | apply calm_foldl | apply calm_foldr | apply calm_ite | split | intro _
      | dsimp only)

theorem calm_sendSnoop {s₀ : State} {s : State} {a2 : Nat} {a3 : Nat} {a4 : Bool} {a5 : Origin} (h1 : Calm s₀ s) : Calm s₀ (State.sendSnoop s a2 a3 a4 a5) := by
  unfold State.sendSnoop
  with_reducible repeat' (first
      | assumption | apply calm_emit | apply calm_count64 | apply calm_event | apply calm_id | apply calm_foldl | apply calm_foldr
      | apply calm_ite | split | intro _ | dsimp only)

theorem calm_modHomes {s₀ : State} {s : State} {a2 : Homes → Homes} (h1 : Calm s₀ s) : Calm s₀ (State.modHomes s a2) := by
  unfold State.modHomes
  with_reducible repeat' (first
      | assumption | apply calm_id | apply calm_foldl | apply calm_foldr | apply calm_ite | split | intro _ | dsimp only
      | refine calm_mk ?_ rfl rfl)

theorem calm_setHomeBits {s₀ : State} {s : State} {a2 : Nat} {a3 : Nat} (h1 : Calm s₀ s) : Calm s₀ (State.setHomeBits s a2 a3) := by
  unfold State.setHomeBits
  with_reducible repeat' (first
      | assumption | apply calm_id | apply calm_foldl | apply calm_foldr | apply calm_ite | split | intro _ | dsimp only
      | refine calm_mk ?_ rfl rfl)

theorem calm_setEntry {s₀ : State} {s : State} {a2 : Nat} {a3 : Option DirEntry} (h1 : Calm s₀ s) : Calm s₀ (State.setEntry s a2 a3) := by
  unfold State.setEntry
  with_reducible repeat' (first
      | assumption | apply calm_modHomes | apply calm_setHomeBits | apply calm_id | apply calm_foldl | apply calm_foldr
      | apply calm_ite | split | intro _ | dsimp only)

theorem calm_startRecall {s₀ : State} {s : State} {a2 : Nat} {a3 : DirEntry} {a4 : Bool} {a5 : HomePending} (h1 : Calm s₀ s) : Calm s₀ (State.startRecall s a2 a3 a4 a5) := by
  unfold State.startRecall
  with_reducible repeat' (first
      | assumption | apply calm_sendSnoop | apply calm_setEntry | apply calm_id | apply calm_foldl | apply calm_foldr
      | apply calm_ite | split | intro _ | dsimp only)

theorem calm_setRemoteLine {s₀ : State} {s : State} {a2 : Nat} {a3 : Option RemoteLine} (h1 : Calm s₀ s) : Calm s₀ (State.setRemoteLine s a2 a3) := by
  unfold State.setRemoteLine
  with_reducible repeat' (first
      | assumption | apply calm_modHomes | apply calm_wakeNow | apply calm_id | apply calm_foldl | apply calm_foldr
      | apply calm_ite | split | intro _ | dsimp only)

theorem calm_dropOwnCopy {s₀ : State} {s : State} {a2 : FabReq} (h1 : Calm s₀ s) : Calm s₀ (State.dropOwnCopy s a2) := by
  unfold State.dropOwnCopy
  with_reducible repeat' (first
      | assumption | apply calm_setRemoteLine | apply calm_id | apply calm_foldl | apply calm_foldr | apply calm_ite | split
      | intro _ | dsimp only)

theorem calm_sendNow {s₀ : State} {s : State} {a2 : FabReq} {a3 : Nat} (h1 : Calm s₀ s) : Calm s₀ (State.sendNow s a2 a3) := by
  unfold State.sendNow
  with_reducible repeat' (first
      | assumption | apply calm_dropOwnCopy | apply calm_modFab | apply calm_route | apply calm_id | apply calm_foldl
      | apply calm_foldr | apply calm_ite | split | intro _ | dsimp only)

theorem calm_send {s₀ : State} {s : State} {a2 : FabReq} {t : State} (e : State.send s a2 = some t) (h1 : Calm s₀ s) : Calm s₀ t := by
  unfold State.send at e
  repeat' (first | (split at e) | (dsimp only at e))
  all_goals (first | (cases e) | (simp only [Option.map_eq_some_iff] at e; obtain ⟨_, _, rfl⟩ := e) | (simp only [Option.some.injEq, Prod.mk.injEq] at e; obtain ⟨_, rfl⟩ := e) | (simp only [Option.some.injEq, Prod.mk.injEq] at e; subst e) | skip)
  all_goals with_reducible repeat' (first
      | assumption | apply calm_count | apply calm_modFab | apply calm_sendNow | apply calm_id | apply calm_foldl
      | apply calm_foldr | apply calm_ite | split | intro _ | dsimp only)

theorem calm_sendPinvs {s₀ s : State} {a2 a3 a4 : Nat} {a5 : Bool} {a6 : Origin} {a7 : List Nat} {t} {r1} {r2}
    (e : State.sendPinvs s a2 a3 a4 a5 a6 a7 = (t, r1, r2)) (h1 : Calm s₀ s) : Calm s₀ t := by
  induction a7 generalizing s t r1 r2 with
  | nil => unfold State.sendPinvs at e; cases e; exact h1
  | cons n l ih =>
    unfold State.sendPinvs at e
    split at e
    · next s' hs =>
      cases e
      exact ih (Prod.eta _).symm (calm_count64 (calm_event (calm_send hs h1)))
    · cases e
      exact ih (Prod.eta _).symm h1

theorem calm_sendPinvs' {s₀ s : State} {a2 a3 a4 : Nat} {a5 : Bool} {a6 : Origin} {a7 : List Nat} (h1 : Calm s₀ s) :
    Calm s₀ (State.sendPinvs s a2 a3 a4 a5 a6 a7).1 := calm_sendPinvs (e := (Prod.eta _).symm) h1


theorem calm_setRing {s₀ : State} {s : State} {a2 : List ErrRec} (h1 : Calm s₀ s) : Calm s₀ (State.setRing s a2) := by
  unfold State.setRing
  with_reducible repeat' (first
      | assumption | apply calm_setRegN | apply calm_id | apply calm_foldl | apply calm_foldr | apply calm_ite | split | intro _
      | dsimp only | refine calm_mk ?_ rfl rfl)

theorem calm_sendRecords {s₀ : State} {s : State} {a2 : List ErrRec} (h1 : Calm s₀ s) : Calm s₀ (State.sendRecords s a2) := by
  unfold State.sendRecords
  with_reducible repeat' (first
      | assumption | apply calm_emit | apply calm_id | apply calm_foldl | apply calm_foldr | apply calm_ite | split | intro _
      | dsimp only)

theorem calm_dropRecord {s₀ : State} {s : State} {a2 : Nat} (h1 : Calm s₀ s) : Calm s₀ (State.dropRecord s a2) := by
  unfold State.dropRecord
  with_reducible repeat' (first
      | assumption | apply calm_count | apply calm_id | apply calm_foldl | apply calm_foldr | apply calm_ite | split | intro _
      | dsimp only | refine calm_mk ?_ rfl rfl)

theorem calm_addRecord {s₀ : State} {s : State} {a2 : ErrRec} (h1 : Calm s₀ s) : Calm s₀ (State.addRecord s a2) := by
  unfold State.addRecord
  with_reducible repeat' (first
      | assumption | apply calm_setRing | apply calm_sendRecords | apply calm_emit | apply calm_dropRecord | apply calm_id
      | apply calm_foldl | apply calm_foldr | apply calm_ite | split | intro _ | dsimp only)

theorem calm_newRecord {s₀ : State} {s : State} {a2 : Nat} {a3 : Nat} {a4 : Nat} {a5 : Nat} {a6 : Option Nat} {a7 : Nat} {a8 : List Nat} (h1 : Calm s₀ s) : Calm s₀ (State.newRecord s a2 a3 a4 a5 a6 a7 a8) := by
  unfold State.newRecord
  with_reducible repeat' (first
      | assumption | apply calm_addRecord | apply calm_setRegN | apply calm_id | apply calm_foldl | apply calm_foldr
      | apply calm_ite | split | intro _ | dsimp only)

theorem calm_report {s₀ : State} {s : State} {a2 : Nat} {a3 : Nat} {a4 : Nat} {a5 : Nat} {a6 : Option Nat} {a7 : Nat} {a8 : List Nat} (h1 : Calm s₀ s) : Calm s₀ (State.report s a2 a3 a4 a5 a6 a7 a8) := by
  unfold State.report
  with_reducible repeat' (first
      | assumption | apply calm_setRing | apply calm_newRecord | apply calm_id | apply calm_foldl | apply calm_foldr
      | apply calm_ite | split | intro _ | dsimp only)

theorem calm_purgeComp {s₀ : State} {s : State} {a2 : Nat} (h1 : Calm s₀ s) : Calm s₀ (State.purgeComp s a2) := by
  unfold State.purgeComp
  with_reducible repeat' (first
      | assumption | apply calm_count | apply calm_modHomes | apply calm_id | apply calm_foldl | apply calm_foldr | apply calm_ite
      | split | intro _ | dsimp only)

theorem calm_setComp {s₀ : State} {s : State} {a2 : Nat} {a3 : Option Comp} (h1 : Calm s₀ s) : Calm s₀ (State.setComp s a2 a3) := by
  unfold State.setComp
  with_reducible repeat' (first
      | assumption | apply calm_modSync | apply calm_id | apply calm_foldl | apply calm_foldr | apply calm_ite | split | intro _
      | dsimp only)

theorem calm_setPstate {s₀ : State} {s : State} {a2 : Nat} {a3 : PState} (h1 : Calm s₀ s) : Calm s₀ (State.setPstate s a2 a3) := by
  unfold State.setPstate
  with_reducible repeat' (first
      | assumption | apply calm_setRegF | apply calm_id | apply calm_foldl | apply calm_foldr | apply calm_ite | split | intro _
      | dsimp only)

theorem calm_enter {s₀ : State} {s : State} {a2 : Nat} {a3 : PState} (h1 : Calm s₀ s) : Calm s₀ (State.enter s a2 a3) := by
  unfold State.enter
  with_reducible repeat' (first
      | assumption | apply calm_notify | apply calm_setPstate | apply calm_id | apply calm_foldl | apply calm_foldr
      | apply calm_ite | split | intro _ | dsimp only)

theorem calm_pcause {s₀ : State} {s : State} {a2 : Nat} {a3 : Nat} {a4 : Nat} (h1 : Calm s₀ s) : Calm s₀ (State.pcause s a2 a3 a4) := by
  unfold State.pcause
  with_reducible repeat' (first
      | assumption | apply calm_notify | apply calm_setReg | apply calm_id | apply calm_foldl | apply calm_foldr | apply calm_ite
      | split | intro _ | dsimp only)

theorem calm_endProposal {s₀ : State} {s : State} {a2 : Nat} {a3 : Nat} {a4 : Nat} (h1 : Calm s₀ s) : Calm s₀ (State.endProposal s a2 a3 a4) := by
  unfold State.endProposal
  with_reducible repeat' (first
      | assumption | apply calm_setRegN | apply calm_setRegF | apply calm_id | apply calm_foldl | apply calm_foldr | apply calm_ite
      | split | intro _ | dsimp only)

theorem calm_markDown {s₀ : State} {s : State} {a2 : Nat} {a3 : Nat} (h1 : Calm s₀ s) : Calm s₀ (State.markDown s a2 a3) := by
  unfold State.markDown
  with_reducible repeat' (first
      | assumption | apply calm_purgeComp | apply calm_setPrepared | apply calm_setComp | apply calm_enter | apply calm_pcause
      | apply calm_report | apply calm_modSync | apply calm_refuseStale | apply calm_endRequest | apply calm_showComp
      | apply calm_endProposal | apply calm_id | apply calm_foldl | apply calm_foldr | apply calm_ite | split | intro _
      | dsimp only)

theorem calm_targetLost {s₀ : State} {s : State} {a2 : Option Nat} {a3 : Nat} {a4 : Nat} {a5 : Nat} (h1 : Calm s₀ s) : Calm s₀ (State.targetLost s a2 a3 a4 a5) := by
  unfold State.targetLost
  with_reducible repeat' (first
      | assumption | apply calm_count | apply calm_report | apply calm_cause | apply calm_id | apply calm_foldl | apply calm_foldr
      | apply calm_ite | split | intro _ | dsimp only)

theorem calm_freeze {s₀ : State} {s : State} {a2 : Nat} {a3 : Nat} {a4 : Nat} {a5 : Nat} (h1 : Calm s₀ s) : Calm s₀ (State.freeze s a2 a3 a4 a5) := by
  unfold State.freeze
  with_reducible repeat' (first
      | assumption | apply calm_targetLost | apply calm_enter | apply calm_id | apply calm_foldl | apply calm_foldr
      | apply calm_ite | split | intro _ | dsimp only)

theorem calm_sendDown {s₀ : State} {s : State} {a2 : Nat} {a3 : Nat} {a4 : Nat} {a5 : Nat} (h1 : Calm s₀ s) : Calm s₀ (State.sendDown s a2 a3 a4 a5) := by
  unfold State.sendDown
  with_reducible repeat' (first
      | assumption | refine calm_send (by assumption) ?_ | apply calm_freeze | apply calm_id | apply calm_foldl | apply calm_foldr
      | apply calm_ite | split | intro _ | dsimp only)

theorem calm_memberLost {s₀ : State} {s : State} {a2 : Nat} {a3 : Nat} (h1 : Calm s₀ s) : Calm s₀ (State.memberLost s a2 a3) := by
  unfold State.memberLost
  with_reducible repeat' (first
      | assumption | apply calm_markDown | apply calm_sendDown | apply calm_id | apply calm_foldl | apply calm_foldr
      | apply calm_ite | split | intro _ | dsimp only)

theorem calm_sharerLost {s₀ : State} {s : State} {a2 : Option Nat} {a3 : Nat} {a4 : Nat} (h1 : Calm s₀ s) : Calm s₀ (State.sharerLost s a2 a3 a4) := by
  unfold State.sharerLost
  with_reducible repeat' (first
      | assumption | apply calm_report | apply calm_memberLost | apply calm_id | apply calm_foldl | apply calm_foldr
      | apply calm_ite | split | intro _ | dsimp only)

theorem calm_holdPending {s₀ : State} {s : State} {a2 : HomeReq} (h1 : Calm s₀ s) : Calm s₀ (State.holdPending s a2) := by
  unfold State.holdPending
  with_reducible repeat' (first
      | assumption | apply calm_id | apply calm_foldl | apply calm_foldr | apply calm_ite | split | intro _ | dsimp only
      | refine calm_mk ?_ rfl rfl)

theorem calm_t1Uncorrectable {s₀ : State} {s : State} {a2 : Nat} {a3 : Nat} {a4 : Nat} (h1 : Calm s₀ s) : Calm s₀ (State.t1Uncorrectable s a2 a3 a4) := by
  unfold State.t1Uncorrectable
  with_reducible repeat' (first
      | assumption | apply calm_count | apply calm_setT1Poison | apply calm_setRegN | apply calm_setReg64 | apply calm_cause
      | apply calm_report | apply calm_id | apply calm_foldl | apply calm_foldr | apply calm_ite | split | intro _ | dsimp only)

theorem calm_count64Sat {s₀ : State} {s : State} {a2 : Nat} {a3 : Nat} (h1 : Calm s₀ s) : Calm s₀ (State.count64Sat s a2 a3) := by
  unfold State.count64Sat
  with_reducible repeat' (first
      | assumption | apply calm_setReg64 | apply calm_id | apply calm_foldl | apply calm_foldr | apply calm_ite | split | intro _
      | dsimp only)

theorem calm_corrected {s₀ : State} {s : State} {a2 : Nat} {a3 : Nat} {a4 : Nat} {a5 : Nat} (h1 : Calm s₀ s) : Calm s₀ (State.corrected s a2 a3 a4 a5) := by
  unfold State.corrected
  with_reducible repeat' (first
      | assumption | apply calm_id | apply calm_foldl | apply calm_foldr | apply calm_ite | split | intro _ | dsimp only
      | refine calm_mk ?_ rfl rfl)

theorem calm_t1Corrected {s₀ : State} {s : State} {a2 : Nat} {a3 : Nat} (h1 : Calm s₀ s) : Calm s₀ (State.t1Corrected s a2 a3) := by
  unfold State.t1Corrected
  with_reducible repeat' (first
      | assumption | apply calm_count64Sat | apply calm_setRegN | apply calm_setReg64 | apply calm_corrected | apply calm_id
      | apply calm_foldl | apply calm_foldr | apply calm_ite | split | intro _ | dsimp only)

theorem calm_t1Find {s₀ : State} {s : State} {a2 : Nat} {a3 : Nat} (h1 : Calm s₀ s) : Calm s₀ (State.t1Find s a2 a3) := by
  unfold State.t1Find
  with_reducible repeat' (first
      | assumption | apply calm_setT1Err | apply calm_t1Uncorrectable | apply calm_t1Corrected | apply calm_stackLine
      | apply calm_id | apply calm_foldl | apply calm_foldr | apply calm_ite | split | intro _ | dsimp only)

theorem calm_answerHost {s₀ : State} {s : State} {a2 : HomeReq} {a3 : String} {a4 : Option Nat} {a5 : Bool} (h1 : Calm s₀ s) : Calm s₀ (State.answerHost s a2 a3 a4 a5) := by
  unfold State.answerHost
  with_reducible repeat' (first
      | assumption | apply calm_emit | apply calm_id | apply calm_foldl | apply calm_foldr | apply calm_ite | split | intro _
      | dsimp only)

theorem calm_serve {s₀ : State} {s : State} {a2 : HomeReq} (h1 : Calm s₀ s) : Calm s₀ (State.serve s a2) := by
  unfold State.serve
  with_reducible repeat' (first
      | assumption | apply calm_t1Find | apply calm_t1Line | apply calm_answerHost | apply calm_reply | apply calm_id
      | apply calm_foldl | apply calm_foldr | apply calm_ite | split | intro _ | dsimp only)

theorem calm_grantHost {s₀ : State} {s : State} {a2 : HomeReq} {a3 : DirEntry} {a4 : Nat} (h1 : Calm s₀ s) : Calm s₀ (State.grantHost s a2 a3 a4) := by
  unfold State.grantHost
  with_reducible repeat' (first
      | assumption | apply calm_setEntry | apply calm_id | apply calm_foldl | apply calm_foldr | apply calm_ite | split | intro _
      | dsimp only)

theorem calm_modRing {s₀ : State} {s : State} {a2 : Nat} {a3 : Nat} {a4 : Ring → Ring} (h1 : Calm s₀ s) : Calm s₀ (State.modRing s a2 a3 a4) := by
  unfold State.modRing
  with_reducible repeat' (first
      | assumption | apply calm_modPart | apply calm_id | apply calm_foldl | apply calm_foldr | apply calm_ite | split | intro _
      | dsimp only)

theorem calm_t1Write {s₀ s : State} {a2 a3 a4 : Nat} (h1 : Calm s₀ s) : Calm s₀ (State.t1Write s a2 a3 a4) := by
  refine h1.trans ⟨rfl, rfl, rfl, rfl, rfl, fun c => ⟨c.1, Memory.wf_writeN _ _ _ _ c.2.1, c.2.2⟩⟩


theorem calm_pageCause {s₀ : State} {s : State} {a2 : Nat} {a3 : Nat} (h1 : Calm s₀ s) : Calm s₀ (State.pageCause s a2 a3) := by
  unfold State.pageCause
  with_reducible repeat' (first
      | assumption | apply calm_pcause | apply calm_id | apply calm_foldl | apply calm_foldr | apply calm_ite | split | intro _
      | dsimp only)

theorem calm_rewind {s₀ : State} {s : State} {a2 : Nat} {a3 : Nat} {a4 : Nat} {a5 : Option Nat} {a6 : Nat} (h1 : Calm s₀ s) : Calm s₀ (State.rewind s a2 a3 a4 a5 a6) := by
  unfold State.rewind
  with_reducible repeat' (first
      | assumption | apply calm_t1Write | apply calm_count | apply calm_pageCause | apply calm_setRegN | apply calm_id
      | apply calm_foldl | apply calm_foldr | apply calm_ite | split | intro _ | dsimp only)

theorem calm_commitPacket {s₀ : State} {s : State} {a2 : Nat} {a3 : Nat} {a4 : Nat} {a5 : Nat} {a6 : List Nat} (h1 : Calm s₀ s) : Calm s₀ (State.commitPacket s a2 a3 a4 a5 a6) := by
  unfold State.commitPacket
  with_reducible repeat' (first
      | assumption | apply calm_setRegN | apply calm_modRing | apply calm_modPart | apply calm_id | apply calm_foldl
      | apply calm_foldr | apply calm_ite | split | intro _ | dsimp only)

theorem calm_arm {s₀ : State} {s : State} {a2 : Nat} {a3 : Nat} {a4 : Bool} {a5 : Nat} (h1 : Calm s₀ s) : Calm s₀ (State.arm s a2 a3 a4 a5) := by
  induction a5 generalizing s a2 a3 a4 h1 with
  | zero =>
    unfold State.arm
    with_reducible repeat' (first
      | assumption | apply calm_rewind | apply calm_commitPacket | apply calm_id | apply calm_foldl | apply calm_foldr
      | apply calm_ite | split | intro _ | dsimp only)
  | succ _ ih =>
    unfold State.arm
    with_reducible repeat' (first
      | assumption | apply calm_rewind | apply calm_commitPacket | apply calm_id | apply calm_foldl | apply calm_foldr
      | apply calm_ite | split | intro _ | dsimp only | apply ih)

theorem calm_afterStore {s₀ : State} {s : State} {a2 : Nat} {a3 : Nat} {a4 : Nat} {a5 : Nat} (h1 : Calm s₀ s) : Calm s₀ (State.afterStore s a2 a3 a4 a5) := by
  unfold State.afterStore
  with_reducible repeat' (first
      | assumption | apply calm_arm | apply calm_id | apply calm_foldl | apply calm_foldr | apply calm_ite | split | intro _
      | dsimp only)

theorem calm_applyStore {s₀ : State} {s : State} {a2 : HomeReq} {t} {r1} (e : State.applyStore s a2 = (t, r1)) (h1 : Calm s₀ s) : Calm s₀ t := by
  unfold State.applyStore at e
  repeat' (first | (split at e) | (dsimp only at e))
  all_goals (first | (cases e) | (simp only [Option.map_eq_some_iff] at e; obtain ⟨_, _, rfl⟩ := e) | (simp only [Option.some.injEq, Prod.mk.injEq] at e; obtain ⟨_, rfl⟩ := e) | (simp only [Option.some.injEq, Prod.mk.injEq] at e; subst e) | skip)
  all_goals with_reducible repeat' (first
      | assumption | apply calm_afterStore | apply calm_t1Find | apply calm_t1Put | apply calm_id | apply calm_foldl
      | apply calm_foldr | apply calm_ite | split | intro _ | dsimp only)

theorem calm_applyStore' {s₀ : State} {s : State} {a2 : HomeReq} (h1 : Calm s₀ s) : Calm s₀ (State.applyStore s a2).1 :=
  calm_applyStore (e := (Prod.eta _).symm) h1

theorem calm_land {s₀ : State} {s : State} {a2 : HomeReq} {t} {r1} (e : State.land s a2 = (t, r1)) (h1 : Calm s₀ s) : Calm s₀ t := by
  unfold State.land at e
  repeat' (first | (split at e) | (dsimp only at e))
  all_goals (first | (cases e) | (simp only [Option.map_eq_some_iff] at e; obtain ⟨_, _, rfl⟩ := e) | (simp only [Option.some.injEq, Prod.mk.injEq] at e; obtain ⟨_, rfl⟩ := e) | (simp only [Option.some.injEq, Prod.mk.injEq] at e; subst e) | skip)
  all_goals with_reducible repeat' (first
      | assumption | apply calm_modRing | refine calm_applyStore (by assumption) ?_ | apply calm_applyStore' | apply calm_id
      | apply calm_foldl | apply calm_foldr | apply calm_ite | split | intro _ | dsimp only)

theorem calm_land' {s₀ : State} {s : State} {a2 : HomeReq} (h1 : Calm s₀ s) : Calm s₀ (State.land s a2).1 :=
  calm_land (e := (Prod.eta _).symm) h1

theorem calm_ackNow {s₀ : State} {s : State} {a2 : HomeReq} {a3 : Option Nat} (h1 : Calm s₀ s) : Calm s₀ (State.ackNow s a2 a3) := by
  unfold State.ackNow
  with_reducible repeat' (first
      | assumption | apply calm_answerHost | apply calm_windowDone | apply calm_modPart | apply calm_id | apply calm_foldl
      | apply calm_foldr | apply calm_ite | split | intro _ | dsimp only)

theorem calm_ackStore {s₀ : State} {s : State} {a2 : HomeReq} {a3 : Option Nat} (h1 : Calm s₀ s) : Calm s₀ (State.ackStore s a2 a3) := by
  unfold State.ackStore
  with_reducible repeat' (first
      | assumption | apply calm_ackNow | apply calm_id | apply calm_foldl | apply calm_foldr | apply calm_ite | split | intro _
      | dsimp only | refine calm_mk ?_ rfl rfl)

theorem calm_modMirror {s₀ : State} {s : State} {a2 : Nat} {a3 : Mirror → Mirror} (h1 : Calm s₀ s) : Calm s₀ (State.modMirror s a2 a3) := by
  unfold State.modMirror
  with_reducible repeat' (first
      | assumption | apply calm_id | apply calm_foldl | apply calm_foldr | apply calm_ite | split | intro _ | dsimp only
      | refine calm_mk ?_ rfl rfl)

theorem calm_mirrorTo {s₀ : State} {s : State} {a2 : Nat} {a3 : Nat} {a4 : Nat} (h1 : Calm s₀ s) : Calm s₀ (State.mirrorTo s a2 a3 a4) := by
  unfold State.mirrorTo
  with_reducible repeat' (first
      | assumption | apply calm_cause | apply calm_modMirror | apply calm_report | apply calm_id | apply calm_foldl
      | apply calm_foldr | apply calm_ite | split | intro _ | dsimp only)

theorem calm_storeDone {s₀ : State} {s : State} {a2 : HomeReq} {a3 : Option Nat} (h1 : Calm s₀ s) : Calm s₀ (State.storeDone s a2 a3) := by
  unfold State.storeDone
  with_reducible repeat' (first
      | assumption | apply calm_ackStore | refine calm_send (by assumption) ?_ | apply calm_mirrorTo | apply calm_id
      | apply calm_foldl | apply calm_foldr | apply calm_ite | split | intro _ | dsimp only | refine calm_mk ?_ rfl rfl)

theorem calm_applyWrite {s₀ : State} {s : State} {a2 : HomeReq} (h1 : Calm s₀ s) : Calm s₀ (State.applyWrite s a2) := by
  unfold State.applyWrite
  with_reducible repeat' (first
      | assumption | refine calm_land (by assumption) ?_ | apply calm_land' | apply calm_t1Line | apply calm_storeDone
      | apply calm_id | apply calm_foldl | apply calm_foldr | apply calm_ite | split | intro _ | dsimp only)

theorem calm_completePending {s₀ : State} {s : State} {a2 : Nat} {a3 : DirEntry} {a4 : Bool} {a5 : Bool} {a6 : HomePending} (h1 : Calm s₀ s) : Calm s₀ (State.completePending s a2 a3 a4 a5 a6) := by
  unfold State.completePending
  with_reducible repeat' (first
      | assumption | apply calm_setEntry | apply calm_holdPending | apply calm_serve | apply calm_grantHost | apply calm_applyWrite
      | apply calm_id | apply calm_foldl | apply calm_foldr | apply calm_ite | split | intro _ | dsimp only)

theorem calm_checkRound {s₀ : State} {s : State} {a2 : Nat} (h1 : Calm s₀ s) : Calm s₀ (State.checkRound s a2) := by
  unfold State.checkRound
  with_reducible repeat' (first
      | assumption | apply calm_completePending | apply calm_id | apply calm_foldl | apply calm_foldr | apply calm_ite | split
      | intro _ | dsimp only)

theorem calm_startRound {s₀ : State} {s : State} {a2 : Nat} {a3 : DirEntry} {a4 : Option Nat} {a5 : Bool} {a6 : HomePending} (h1 : Calm s₀ s) : Calm s₀ (State.startRound s a2 a3 a4 a5 a6) := by
  unfold State.startRound
  with_reducible repeat' (first
      | assumption | apply calm_modHomes | apply calm_count | refine calm_sendPinvs (by assumption) ?_ | apply calm_sendPinvs'
      | apply calm_sendSnoop | apply calm_setEntry | apply calm_sharerLost | apply calm_checkRound | apply calm_id
      | apply calm_foldl | apply calm_foldr | apply calm_ite | split | intro _ | dsimp only)

theorem calm_evictLine {s₀ : State} {s : State} {a2 : Nat} {a3 : HomePending} (h1 : Calm s₀ s) : Calm s₀ (State.evictLine s a2 a3) := by
  unfold State.evictLine
  with_reducible repeat' (first
      | assumption | apply calm_startRecall | apply calm_startRound | apply calm_id | apply calm_foldl | apply calm_foldr
      | apply calm_ite | split | intro _ | dsimp only)

theorem calm_takeVictim {s₀ : State} {s : State} {a2 : Nat} (h1 : Calm s₀ s) : Calm s₀ (State.takeVictim s a2) := by
  unfold State.takeVictim
  with_reducible repeat' (first
      | assumption | apply calm_evictLine | apply calm_count64 | apply calm_id | apply calm_foldl | apply calm_foldr
      | apply calm_ite | split | intro _ | dsimp only)

theorem calm_requeue {s₀ : State} {s : State} {a2 : HomeReq} (h1 : Calm s₀ s) : Calm s₀ (State.requeue s a2) := by
  unfold State.requeue
  with_reducible repeat' (first
      | assumption | apply calm_modHomes | apply calm_id | apply calm_foldl | apply calm_foldr | apply calm_ite | split | intro _
      | dsimp only)

theorem calm_waitWay {s₀ : State} {s : State} {a2 : HomeReq} (h1 : Calm s₀ s) : Calm s₀ (State.waitWay s a2) := by
  unfold State.waitWay
  with_reducible repeat' (first
      | assumption | apply calm_takeVictim | apply calm_requeue | apply calm_id | apply calm_foldl | apply calm_foldr
      | apply calm_ite | split | intro _ | dsimp only)

theorem calm_protoErr {s₀ : State} {s : State} {a2 : Nat} {a3 : Nat} {a4 : Nat} {a5 : Nat} {a6 : Nat} (h1 : Calm s₀ s) : Calm s₀ (State.protoErr s a2 a3 a4 a5 a6) := by
  unfold State.protoErr
  with_reducible repeat' (first
      | assumption | apply calm_cause | apply calm_setRegN | apply calm_count | apply calm_id | apply calm_foldl | apply calm_foldr
      | apply calm_ite | split | intro _ | dsimp only)

theorem calm_lineErr {s₀ : State} {s : State} {a2 : Nat} {a3 : Nat} {a4 : Source} (h1 : Calm s₀ s) : Calm s₀ (State.lineErr s a2 a3 a4) := by
  unfold State.lineErr
  with_reducible repeat' (first
      | assumption | apply calm_protoErr | apply calm_id | apply calm_foldl | apply calm_foldr | apply calm_ite | split | intro _
      | dsimp only)

theorem calm_recoverOrphan {s₀ : State} {s : State} {a2 : Nat} {a3 : Source} (h1 : Calm s₀ s) : Calm s₀ (State.recoverOrphan s a2 a3) := by
  unfold State.recoverOrphan
  with_reducible repeat' (first
      | assumption | apply calm_lineErr | apply calm_cause | apply calm_count | apply calm_modHomes | apply calm_setT1Poison
      | apply calm_startRound | apply calm_id | apply calm_foldl | apply calm_foldr | apply calm_ite | split | intro _ | dsimp only)

theorem calm_checkBits {s₀ : State} {s : State} {a2 : Nat} {a3 : Source} (h1 : Calm s₀ s) : Calm s₀ (State.checkBits s a2 a3) := by
  unfold State.checkBits
  with_reducible repeat' (first
      | assumption | apply calm_setHomeBits | apply calm_lineErr | apply calm_id | apply calm_foldl | apply calm_foldr
      | apply calm_ite | split | intro _ | dsimp only)

theorem calm_touch {s₀ : State} {s : State} {a2 : Nat} (h1 : Calm s₀ s) : Calm s₀ (State.touch s a2) := by
  unfold State.touch
  with_reducible repeat' (first
      | assumption | apply calm_modHomes | apply calm_setEntry | apply calm_id | apply calm_foldl | apply calm_foldr
      | apply calm_ite | split | intro _ | dsimp only)

theorem calm_countRequest {s₀ : State} {s : State} {a2 : HomeReq} (h1 : Calm s₀ s) : Calm s₀ (State.countRequest s a2) := by
  unfold State.countRequest
  with_reducible repeat' (first
      | assumption | apply calm_event | apply calm_id | apply calm_foldl | apply calm_foldr | apply calm_ite | split | intro _
      | dsimp only)

theorem calm_accept {s₀ : State} {s : State} {a2 : HomeReq} (h1 : Calm s₀ s) : Calm s₀ (State.accept s a2) := by
  unfold State.accept
  with_reducible repeat' (first
      | assumption | apply calm_waitWay | apply calm_recoverOrphan | apply calm_requeue | apply calm_checkBits | apply calm_touch
      | apply calm_countRequest | apply calm_serve | apply calm_setEntry | apply calm_grantHost | apply calm_applyWrite
      | apply calm_lineErr | apply calm_answerHost | apply calm_startRecall | apply calm_startRound | apply calm_id
      | apply calm_foldl | apply calm_foldr | apply calm_ite | split | intro _ | dsimp only)

theorem calm_assembleAll {s₀ s : State} {a2 : Nat} {a3 : List (Nat × List Nat)} {t} {r1} (e : State.assembleAll s a2 a3 = (t, r1))
    (h1 : Calm s₀ s) : Calm s₀ t := by
  induction a3 generalizing s t r1 with
  | nil => unfold State.assembleAll at e; cases e; exact h1
  | cons x l ih => unfold State.assembleAll at e; cases e; exact ih (Prod.eta _).symm (calm_modPort h1)

theorem calm_assembleAll' {s₀ s : State} {a2 : Nat} {a3 : List (Nat × List Nat)} (h1 : Calm s₀ s) : Calm s₀ (State.assembleAll s a2 a3).1 :=
  calm_assembleAll (e := (Prod.eta _).symm) h1


theorem calm_bufferError {s₀ : State} {s : State} {a2 : Nat} {a3 : Packet} (h1 : Calm s₀ s) : Calm s₀ (State.bufferError s a2 a3) := by
  unfold State.bufferError
  with_reducible repeat' (first
      | assumption | apply calm_losePacket | apply calm_report | apply calm_id | apply calm_foldl | apply calm_foldr
      | apply calm_ite | split | intro _ | dsimp only)

theorem calm_discard {s₀ : State} {s : State} {a2 : Nat} (h1 : Calm s₀ s) : Calm s₀ (State.discard s a2) := by
  unfold State.discard
  with_reducible repeat' (first
      | assumption | apply calm_cause | apply calm_count | apply calm_id | apply calm_foldl | apply calm_foldr | apply calm_ite
      | split | intro _ | dsimp only)

theorem calm_ingress {s₀ : State} {s : State} {a2 : Nat} {a3 : Packet} {a4 : Bool} (h1 : Calm s₀ s) : Calm s₀ (State.ingress s a2 a3 a4) := by
  unfold State.ingress
  with_reducible repeat' (first
      | assumption | apply calm_bandwidthBytes | apply calm_giveCredit | apply calm_bufferError | apply calm_discard
      | apply calm_count64 | apply calm_route | apply calm_id | apply calm_foldl | apply calm_foldr | apply calm_ite | split
      | intro _ | dsimp only)

theorem calm_ingressAll {s₀ : State} {s : State} {a2 : Nat} {a3 : List Packet} {a4 : Option Nat} (h1 : Calm s₀ s) : Calm s₀ (State.ingressAll s a2 a3 a4) := by
  unfold State.ingressAll
  with_reducible repeat' (first
      | assumption | apply calm_ingress | apply calm_id | apply calm_foldl | apply calm_foldr | apply calm_ite | split | intro _
      | dsimp only)

theorem calm_setLink {s₀ : State} {s : State} {a2 : Nat} {a3 : Nat} (h1 : Calm s₀ s) : Calm s₀ (State.setLink s a2 a3) := by
  unfold State.setLink
  with_reducible repeat' (first
      | assumption | apply calm_setRegF | apply calm_id | apply calm_foldl | apply calm_foldr | apply calm_ite | split | intro _
      | dsimp only)

theorem calm_linkDown {s₀ : State} {s : State} {a2 : Nat} {a3 : Nat} (h1 : Calm s₀ s) : Calm s₀ (State.linkDown s a2 a3) := by
  unfold State.linkDown
  with_reducible repeat' (first
      | assumption | apply calm_count | apply calm_setRegF | apply calm_setLink | apply calm_report | apply calm_cause
      | apply calm_id | apply calm_foldl | apply calm_foldr | apply calm_ite | split | intro _ | dsimp only)

theorem calm_leaveStaging {s₀ : State} {s : State} {a2 : QEntry} (h1 : Calm s₀ s) : Calm s₀ (State.leaveStaging s a2) := by
  unfold State.leaveStaging
  with_reducible repeat' (first
      | assumption | apply calm_giveCredit | apply calm_id | apply calm_foldl | apply calm_foldr | apply calm_ite | split | intro _
      | dsimp only)

theorem calm_flush {s₀ : State} {s : State} {a2 : Nat} (h1 : Calm s₀ s) : Calm s₀ (State.flush s a2) := by
  unfold State.flush
  with_reducible repeat' (first
      | assumption | apply calm_leaveStaging | apply calm_modPort | apply calm_losePacket | apply calm_id | apply calm_foldl
      | apply calm_foldr | apply calm_ite | split | intro _ | dsimp only)

theorem calm_linkFail {s₀ : State} {s : State} {a2 : Nat} {a3 : Nat} (h1 : Calm s₀ s) : Calm s₀ (State.linkFail s a2 a3) := by
  unfold State.linkFail
  with_reducible repeat' (first
      | assumption | apply calm_linkDown | apply calm_flush | apply calm_id | apply calm_foldl | apply calm_foldr | apply calm_ite
      | split | intro _ | dsimp only)

theorem calm_acceptFlit {s₀ : State} {s : State} {a2 : Nat} {a3 : Flit} {a4 : Option Nat} (h1 : Calm s₀ s) : Calm s₀ (State.acceptFlit s a2 a3 a4) := by
  unfold State.acceptFlit
  with_reducible repeat' (first
      | assumption | apply calm_count64 | apply calm_modPort | refine calm_assembleAll (by assumption) ?_ | apply calm_assembleAll'
      | apply calm_ingressAll | apply calm_linkFail | apply calm_cause | apply calm_count | apply calm_id | apply calm_foldl
      | apply calm_foldr | apply calm_ite | split | intro _ | dsimp only)

theorem calm_acceptNow {s₀ : State} {s : State} {a2 : HomeReq} (h1 : Calm s₀ s) : Calm s₀ (State.acceptNow s a2) := by
  unfold State.acceptNow
  with_reducible repeat' (first
      | assumption | apply calm_answerHost | apply calm_applyWrite | apply calm_recoverOrphan | apply calm_takeVictim
      | apply calm_modHomes | apply calm_accept | apply calm_setEntry | apply calm_lineErr | apply calm_id | apply calm_foldl
      | apply calm_foldr | apply calm_ite | split | intro _ | dsimp only)

theorem calm_afterLine {s₀ : State} {s : State} {a2 : Nat} (h1 : Calm s₀ s) : Calm s₀ (State.afterLine s a2) := by
  unfold State.afterLine
  with_reducible repeat' (first
      | assumption | apply calm_evictLine | apply calm_id | apply calm_foldl | apply calm_foldr | apply calm_ite | split | intro _
      | dsimp only)

theorem calm_acceptQueued {s₀ : State} {s : State} {a2 : Nat} (h1 : Calm s₀ s) : Calm s₀ (State.acceptQueued s a2) := by
  unfold State.acceptQueued
  with_reducible repeat' (first
      | assumption | apply calm_recoverOrphan | apply calm_takeVictim | apply calm_afterLine | apply calm_accept
      | apply calm_modHomes | apply calm_id | apply calm_foldl | apply calm_foldr | apply calm_ite | split | intro _ | dsimp only)

theorem calm_violate {s₀ : State} {s : State} {a2 : Nat} {a3 : Bool} {a4 : Nat} {a5 : Nat} {a6 : Nat} (h1 : Calm s₀ s) : Calm s₀ (State.violate s a2 a3 a4 a5 a6) := by
  unfold State.violate
  with_reducible repeat' (first
      | assumption | apply calm_count64 | apply calm_setRegN | apply calm_setReg64 | apply calm_count | apply calm_id
      | apply calm_foldl | apply calm_foldr | apply calm_ite | split | intro _ | dsimp only)

theorem calm_violateReg {s₀ : State} {s : State} {a2 : Requester} {a3 : Bool} {a4 : Nat} (h1 : Calm s₀ s) : Calm s₀ (State.violateReg s a2 a3 a4) := by
  unfold State.violateReg
  with_reducible repeat' (first
      | assumption | apply calm_violate | apply calm_id | apply calm_foldl | apply calm_foldr | apply calm_ite | split | intro _
      | dsimp only)

theorem calm_access {s₀ : State} {s : State} {a2 : Requester} {a3 : Nat} {a4 : State → State} (h1 : Calm s₀ s) (h4 : ∀ y0, Calm s₀ y0 → Calm s₀ (a4 y0)) : Calm s₀ (State.access s a2 a3 a4) := by
  unfold State.access
  with_reducible repeat' (first
      | assumption | apply calm_violateReg | apply calm_id | apply calm_foldl | apply calm_foldr | apply calm_ite | apply h4
      | split | intro _ | dsimp only)

theorem calm_modCore {s₀ : State} {s : State} {a2 : Nat} {a3 : Core → Core} (h1 : Calm s₀ s) : Calm s₀ (State.modCore s a2 a3) := by
  unfold State.modCore
  with_reducible repeat' (first
      | assumption | apply calm_id | apply calm_foldl | apply calm_foldr | apply calm_ite | split | intro _ | dsimp only
      | refine calm_mk ?_ rfl rfl)

theorem calm_draw {s₀ : State} {s : State} {r0} {t} (e : State.draw s = (r0, t)) (h1 : Calm s₀ s) : Calm s₀ t := by
  unfold State.draw at e
  repeat' (first | (split at e) | (dsimp only at e))
  all_goals (first | (cases e) | (simp only [Option.map_eq_some_iff] at e; obtain ⟨_, _, rfl⟩ := e) | (simp only [Option.some.injEq, Prod.mk.injEq] at e; obtain ⟨_, rfl⟩ := e) | (simp only [Option.some.injEq, Prod.mk.injEq] at e; subst e) | skip)
  all_goals with_reducible repeat' (first
      | assumption | apply calm_id | apply calm_foldl | apply calm_foldr | apply calm_ite | split | intro _ | dsimp only
      | refine calm_mk ?_ rfl rfl)

theorem calm_draw' {s₀ : State} {s : State} (h1 : Calm s₀ s) : Calm s₀ (State.draw s).2 :=
  calm_draw (e := (Prod.eta _).symm) h1

theorem calm_addSample {s₀ : State} {s : State} {a2 : Nat} {a3 : Nat → List Nat} (h1 : Calm s₀ s) : Calm s₀ (State.addSample s a2 a3) := by
  unfold State.addSample
  with_reducible repeat' (first
      | assumption | apply calm_modScaler | apply calm_cause | apply calm_count | apply calm_id | apply calm_foldl
      | apply calm_foldr | apply calm_ite | split | intro _ | dsimp only)

theorem calm_sample {s₀ : State} {s : State} {a2 : Nat} {a3 : Sampled} {a4 : Bool} {a5 : Nat} (h1 : Calm s₀ s) : Calm s₀ (State.sample s a2 a3 a4 a5) := by
  unfold State.sample
  with_reducible repeat' (first
      | assumption | refine calm_draw (by assumption) ?_ | apply calm_draw' | apply calm_addSample | apply calm_id
      | apply calm_foldl | apply calm_foldr | apply calm_ite | split | intro _ | dsimp only)

theorem calm_itemDone {s₀ : State} {s : State} {a2 : Nat} {a3 : Nat} {a4 : Sampled} (h1 : Calm s₀ s) : Calm s₀ (State.itemDone s a2 a3 a4) := by
  unfold State.itemDone
  with_reducible repeat' (first
      | assumption | apply calm_modScaler | apply calm_sample | apply calm_id | apply calm_foldl | apply calm_foldr
      | apply calm_ite | split | intro _ | dsimp only)

theorem calm_retireAt {s₀ : State} {s : State} {a2 : Nat} {a3 : Nat} {a4 : Nat} {a5 : Nat} {a6 : Nat} (h1 : Calm s₀ s) : Calm s₀ (State.retireAt s a2 a3 a4 a5 a6) := by
  unfold State.retireAt
  with_reducible repeat' (first
      | assumption | apply calm_modCore | apply calm_count64 | apply calm_setReg64 | apply calm_event | apply calm_itemDone
      | apply calm_id | apply calm_foldl | apply calm_foldr | apply calm_ite | split | intro _ | dsimp only)

theorem calm_retire {s₀ : State} {s : State} {a2 : Nat} {a3 : Nat} {a4 : Nat} (h1 : Calm s₀ s) : Calm s₀ (State.retire s a2 a3 a4) := by
  unfold State.retire
  with_reducible repeat' (first
      | assumption | apply calm_retireAt | apply calm_id | apply calm_foldl | apply calm_foldr | apply calm_ite | split | intro _
      | dsimp only)

theorem calm_accessDone {s₀ : State} {s : State} {a2 : Nat} {a3 : Nat} {a4 : Nat} {a5 : Nat} {a6 : Nat} (h1 : Calm s₀ s) : Calm s₀ (State.accessDone s a2 a3 a4 a5 a6) := by
  unfold State.accessDone
  with_reducible repeat' (first
      | assumption | apply calm_modCore | apply calm_retire | apply calm_id | apply calm_foldl | apply calm_foldr | apply calm_ite
      | split | intro _ | dsimp only)

theorem calm_ackCmd {s₀ : State} {s : State} {a2 : Nat} {a3 : Nat} {a4 : Nat} (h1 : Calm s₀ s) : Calm s₀ (State.ackCmd s a2 a3 a4) := by
  unfold State.ackCmd
  with_reducible repeat' (first
      | assumption | apply calm_modCmd | apply calm_id | apply calm_foldl | apply calm_foldr | apply calm_ite | split | intro _
      | dsimp only)

theorem calm_ackTo {s₀ : State} {s : State} {a2 : Nat} {a3 : Nat} (h1 : Calm s₀ s) : Calm s₀ (State.ackTo s a2 a3) := by
  unfold State.ackTo
  with_reducible repeat' (first
      | assumption | apply calm_setRegN | apply calm_setRing | apply calm_report | apply calm_id | apply calm_foldl
      | apply calm_foldr | apply calm_ite | split | intro _ | dsimp only | refine calm_mk ?_ rfl rfl)

theorem calm_effect {s₀ : State} {f : State → Res} {s : State} (h1 : ∀ y t, f y = .next t → Calm s₀ y → Calm s₀ t) (h : Calm s₀ s) :
    Calm s₀ (effect f s) := by
  unfold effect
  split
  · next t e => exact h1 _ _ e h
  · exact h


theorem calm_onBit {s₀ : State} {v : Word} {b : Nat} {f : State → Res} {s : State} (h1 : ∀ y t, f y = .next t → Calm s₀ y → Calm s₀ t)
    (h : Calm s₀ s) : Calm s₀ (onBit v b f s) := by
  unfold onBit
  split
  · exact calm_effect h1 h
  · exact h


theorem calm_dropHeldOf {s₀ : State} {s : State} {a2 : Nat} (h1 : Calm s₀ s) : Calm s₀ (State.dropHeldOf s a2) := by
  unfold State.dropHeldOf
  with_reducible repeat' (first
      | assumption | apply calm_id | apply calm_foldl | apply calm_foldr | apply calm_ite | split | intro _ | dsimp only
      | refine calm_mk ?_ rfl rfl)

theorem calm_noteHeld {s₀ : State} {s : State} {a2 : Nat} {a3 : Nat} {a4 : HeldStore} (h1 : Calm s₀ s) : Calm s₀ (State.noteHeld s a2 a3 a4) := by
  unfold State.noteHeld
  with_reducible repeat' (first
      | assumption | apply calm_setRegN | apply calm_id | apply calm_foldl | apply calm_foldr | apply calm_ite | split | intro _
      | dsimp only)

theorem calm_applyHeld {s₀ : State} {s : State} {a2 : Nat} {a3 : Nat} {a4 : List HeldStore} (h1 : Calm s₀ s) : Calm s₀ (State.applyHeld s a2 a3 a4) := by
  induction a4 generalizing s a2 a3 h1 with
  | nil =>
    unfold State.applyHeld
    with_reducible repeat' (first
      | assumption | refine calm_land (by assumption) ?_ | apply calm_land' | apply calm_storeDone | apply calm_noteHeld
      | apply calm_modRing | apply calm_id | apply calm_foldl | apply calm_foldr | apply calm_ite | split | intro _ | dsimp only)
  | cons _ _ ih =>
    unfold State.applyHeld
    with_reducible repeat' (first
      | assumption | refine calm_land (by assumption) ?_ | apply calm_land' | apply calm_storeDone | apply calm_noteHeld
      | apply calm_modRing | apply calm_id | apply calm_foldl | apply calm_foldr | apply calm_ite | split | intro _ | dsimp only | apply ih)

theorem calm_releaseHeld {s₀ : State} {s : State} {a2 : Nat} {a3 : Nat} (h1 : Calm s₀ s) : Calm s₀ (State.releaseHeld s a2 a3) := by
  unfold State.releaseHeld
  with_reducible repeat' (first
      | assumption | apply calm_applyHeld | apply calm_modRing | apply calm_id | apply calm_foldl | apply calm_foldr
      | apply calm_ite | split | intro _ | dsimp only)

theorem calm_disableRing {s₀ : State} {s : State} {a2 : Nat} {a3 : Nat} {a4 : Bool} (h1 : Calm s₀ s) : Calm s₀ (State.disableRing s a2 a3 a4) := by
  unfold State.disableRing
  with_reducible repeat' (first
      | assumption | apply calm_setRegF | apply calm_modRing | apply calm_pageCause | apply calm_id | apply calm_foldl
      | apply calm_foldr | apply calm_ite | split | intro _ | dsimp only)

theorem calm_stopWork {s₀ : State} {s : State} {a2 : Nat} (h1 : Calm s₀ s) : Calm s₀ (State.stopWork s a2) := by
  unfold State.stopWork
  with_reducible repeat' (first
      | assumption | apply calm_modRing | apply calm_releaseHeld | apply calm_disableRing | apply calm_modPart | apply calm_id
      | apply calm_foldl | apply calm_foldr | apply calm_ite | split | intro _ | dsimp only)

theorem calm_forgetBarriers {s₀ : State} {s : State} {a2 : Nat} (h1 : Calm s₀ s) : Calm s₀ (State.forgetBarriers s a2) := by
  unfold State.forgetBarriers
  with_reducible repeat' (first
      | assumption | apply calm_modSync | apply calm_id | apply calm_foldl | apply calm_foldr | apply calm_ite | split | intro _
      | dsimp only)

theorem calm_clearDown {s₀ : State} {s : State} {a2 : Nat} (h1 : Calm s₀ s) : Calm s₀ (State.clearDown s a2) := by
  unfold State.clearDown
  with_reducible repeat' (first
      | assumption | apply calm_showComp | apply calm_forgetBarriers | apply calm_setComp | apply calm_id | apply calm_foldl
      | apply calm_foldr | apply calm_ite | split | intro _ | dsimp only)

theorem calm_execPartitionReset {s₀ : State} {a1 : Requester} {a2 : Fin 32} {a3 : Word} {s : State} {t : State} (e : execPartitionReset a1 a2 a3 s = .next t) (h4 : Calm s₀ s) : Calm s₀ t := by
  unfold execPartitionReset at e
  try dsimp only at e
  first
  | refine calm_act e (by assumption) ?_
  | (injection e with e; subst e)
  | (revert e; repeat' (split); all_goals (intro e; injection e with e; subst e))
  all_goals with_reducible repeat' (first
      | assumption | apply calm_access | apply calm_setRegN | apply calm_dropHeldOf | apply calm_stopWork | apply calm_clearDown
      | apply calm_setPstate | apply calm_id | apply calm_foldl | apply calm_foldr | apply calm_ite | split | intro _ | dsimp only)

theorem calm_uncontained {s₀ : State} {s : State} {a2 : Nat} {a3 : Nat} (h1 : Calm s₀ s) : Calm s₀ (State.uncontained s a2 a3) := by
  unfold State.uncontained
  with_reducible repeat' (first
      | assumption | apply calm_report | apply calm_enter | apply calm_id | apply calm_foldl | apply calm_foldr | apply calm_ite
      | split | intro _ | dsimp only)

theorem calm_execFaultPop {s₀ : State} {a1 : Requester} {a2 : Fin 32} {a3 : Word} {a4 : Bool} {s : State} {t : State} (e : execFaultPop a1 a2 a3 s a4 = .next t) (h5 : Calm s₀ s) : Calm s₀ t := by
  unfold execFaultPop at e
  try dsimp only at e
  first
  | refine calm_act e (by assumption) ?_
  | (injection e with e; subst e)
  | (revert e; repeat' (split); all_goals (intro e; injection e with e; subst e))
  all_goals with_reducible repeat' (first
      | assumption | apply calm_access | apply calm_notify | apply calm_modPart | apply calm_uncontained | apply calm_id
      | apply calm_foldl | apply calm_foldr | apply calm_ite | split | intro _ | dsimp only)

theorem calm_store {s₀ : State} {s : State} {a2 : Nat} {a3 : Word} (h1 : Calm s₀ s) : Calm s₀ (State.store s a2 a3) := by
  unfold State.store
  with_reducible repeat' (first
      | assumption | apply calm_setReg | apply calm_notify | apply calm_id | apply calm_foldl | apply calm_foldr | apply calm_ite
      | split | intro _ | dsimp only)

theorem calm_beginRing {s₀ : State} {s : State} {a2 : Nat} {a3 : Nat} {a4 : Range} {a5 : Range} (h1 : Calm s₀ s) : Calm s₀ (State.beginRing s a2 a3 a4 a5) := by
  unfold State.beginRing
  with_reducible repeat' (first
      | assumption | apply calm_modRing | apply calm_id | apply calm_foldl | apply calm_foldr | apply calm_ite | split | intro _
      | dsimp only)

theorem calm_registerRing {s₀ : State} {s : State} {a2 : Nat} {a3 : Nat} {a4 : Nat} {a5 : Nat} {a6 : Range} {a7 : Range} (h1 : Calm s₀ s) : Calm s₀ (State.registerRing s a2 a3 a4 a5 a6 a7) := by
  unfold State.registerRing
  with_reducible repeat' (first
      | assumption | apply calm_modRing | apply calm_setRegF | apply calm_beginRing | apply calm_id | apply calm_foldl
      | apply calm_foldr | apply calm_ite | split | intro _ | dsimp only)

theorem calm_enableRing {s₀ : State} {s : State} {a2 : Nat} {a3 : Nat} {a4 : Word} (h1 : Calm s₀ s) : Calm s₀ (State.enableRing s a2 a3 a4) := by
  unfold State.enableRing
  with_reducible repeat' (first
      | assumption | apply calm_store | apply calm_registerRing | apply calm_id | apply calm_foldl | apply calm_foldr
      | apply calm_ite | split | intro _ | dsimp only)

theorem calm_execCplEnable {s₀ : State} {a1 : Requester} {a2 : Fin 32} {a3 : Word} {s : State} {t : State} (e : execCplEnable a1 a2 a3 s = .next t) (h4 : Calm s₀ s) : Calm s₀ t := by
  unfold execCplEnable at e
  try dsimp only at e
  first
  | refine calm_act e (by assumption) ?_
  | (injection e with e; subst e)
  | (revert e; repeat' (split); all_goals (intro e; injection e with e; subst e))
  all_goals with_reducible repeat' (first
      | assumption | apply calm_access | apply calm_enableRing | apply calm_id | apply calm_foldl | apply calm_foldr
      | apply calm_ite | split | intro _ | dsimp only)

theorem calm_disableWrite {s₀ : State} {s : State} {a2 : Nat} {a3 : Nat} {a4 : Word} (h1 : Calm s₀ s) : Calm s₀ (State.disableWrite s a2 a3 a4) := by
  unfold State.disableWrite
  with_reducible repeat' (first
      | assumption | apply calm_disableRing | apply calm_store | apply calm_id | apply calm_foldl | apply calm_foldr
      | apply calm_ite | split | intro _ | dsimp only)

theorem calm_headWrite {s₀ : State} {s : State} {a2 : Requester} {a3 : Nat} {a4 : Nat} {a5 : Nat} {a6 : Word} (h1 : Calm s₀ s) : Calm s₀ (State.headWrite s a2 a3 a4 a5 a6) := by
  unfold State.headWrite
  with_reducible repeat' (first
      | assumption | apply calm_access | apply calm_violateReg | apply calm_setRegN | apply calm_id | apply calm_foldl
      | apply calm_foldr | apply calm_ite | split | intro _ | dsimp only)

theorem calm_execCplHeadWrite {s₀ : State} {a1 : Requester} {a2 : Fin 32} {a3 : Word} {s : State} {t : State} (e : execCplHeadWrite a1 a2 a3 s = .next t) (h4 : Calm s₀ s) : Calm s₀ t := by
  unfold execCplHeadWrite at e
  try dsimp only at e
  first
  | refine calm_act e (by assumption) ?_
  | (injection e with e; subst e)
  | (revert e; repeat' (split); all_goals (intro e; injection e with e; subst e))
  all_goals with_reducible repeat' (first
      | assumption | apply calm_headWrite | apply calm_id | apply calm_foldl | apply calm_foldr | apply calm_ite | split | intro _
      | dsimp only)

theorem calm_execChuteEnable {s₀ : State} {a1 : Requester} {a2 : Fin 32} {a3 : Fin 64} {a4 : Word} {s : State} {t : State} (e : execChuteEnable a1 a2 a3 a4 s = .next t) (h5 : Calm s₀ s) : Calm s₀ t := by
  unfold execChuteEnable at e
  try dsimp only at e
  first
  | refine calm_act e (by assumption) ?_
  | (injection e with e; subst e)
  | (revert e; repeat' (split); all_goals (intro e; injection e with e; subst e))
  all_goals with_reducible repeat' (first
      | assumption | apply calm_access | apply calm_enableRing | apply calm_id | apply calm_foldl | apply calm_foldr
      | apply calm_ite | split | intro _ | dsimp only)

theorem calm_execChuteDisable {s₀ : State} {a1 : Requester} {a2 : Fin 32} {a3 : Fin 64} {a4 : Word} {s : State} {t : State} (e : execChuteDisable a1 a2 a3 a4 s = .next t) (h5 : Calm s₀ s) : Calm s₀ t := by
  unfold execChuteDisable at e
  try dsimp only at e
  first
  | refine calm_act e (by assumption) ?_
  | (injection e with e; subst e)
  | (revert e; repeat' (split); all_goals (intro e; injection e with e; subst e))
  all_goals with_reducible repeat' (first
      | assumption | apply calm_access | apply calm_disableWrite | apply calm_id | apply calm_foldl | apply calm_foldr
      | apply calm_ite | split | intro _ | dsimp only)

theorem calm_escEnable {s₀ : State} {s : State} {a2 : Nat} {a3 : Word} (h1 : Calm s₀ s) : Calm s₀ (State.escEnable s a2 a3) := by
  unfold State.escEnable
  with_reducible repeat' (first
      | assumption | apply calm_store | apply calm_registerRing | apply calm_id | apply calm_foldl | apply calm_foldr
      | apply calm_ite | split | intro _ | dsimp only)

theorem calm_t1Clear {s₀ s : State} {a2 : Range} (h1 : Calm s₀ s) : Calm s₀ (State.t1Clear s a2) :=
  h1.trans ⟨rfl, rfl, rfl, rfl, rfl, fun c => ⟨c.1, Memory.wf_zero _ _ _ c.2.1, c.2.2⟩⟩


theorem calm_want {s₀ : State} {s : State} {a2 : Nat} {a3 : Bool} (h1 : Calm s₀ s) : Calm s₀ (State.want s a2 a3) := by
  unfold State.want
  with_reducible repeat' (first
      | assumption | apply calm_accept | apply calm_id | apply calm_foldl | apply calm_foldr | apply calm_ite | split | intro _
      | dsimp only)

theorem calm_wantAll {s₀ : State} {s : State} {a2 : Bool} {a3 : List Nat} (h1 : Calm s₀ s) : Calm s₀ (State.wantAll s a2 a3) := by
  unfold State.wantAll
  with_reducible repeat' (first
      | assumption | apply calm_want | apply calm_id | apply calm_foldl | apply calm_foldr | apply calm_ite | split | intro _
      | dsimp only)

theorem calm_clearTable {s₀ : State} {s : State} {a2 : Nat} (h1 : Calm s₀ s) : Calm s₀ (State.clearTable s a2) := by
  unfold State.clearTable
  with_reducible repeat' (first
      | assumption | apply calm_modPart | apply calm_setRegN | apply calm_t1Clear | apply calm_wantAll | apply calm_id
      | apply calm_foldl | apply calm_foldr | apply calm_ite | split | intro _ | dsimp only)

theorem calm_execEscTableClear {s₀ : State} {a1 : Requester} {a2 : Fin 32} {a3 : Word} {s : State} {t : State} (e : execEscTableClear a1 a2 a3 s = .next t) (h4 : Calm s₀ s) : Calm s₀ t := by
  unfold execEscTableClear at e
  try dsimp only at e
  first
  | refine calm_act e (by assumption) ?_
  | (injection e with e; subst e)
  | (revert e; repeat' (split); all_goals (intro e; injection e with e; subst e))
  all_goals with_reducible repeat' (first
      | assumption | apply calm_access | apply calm_escEnable | apply calm_disableWrite | apply calm_clearTable
      | apply calm_modPart | apply calm_id | apply calm_foldl | apply calm_foldr | apply calm_ite | split | intro _ | dsimp only)

theorem calm_execEscTableEnable {s₀ : State} {a1 : Requester} {a2 : Fin 32} {a3 : Word} {s : State} {t : State} (e : execEscTableEnable a1 a2 a3 s = .next t) (h4 : Calm s₀ s) : Calm s₀ t := by
  unfold execEscTableEnable at e
  try dsimp only at e
  first
  | refine calm_act e (by assumption) ?_
  | (injection e with e; subst e)
  | (revert e; repeat' (split); all_goals (intro e; injection e with e; subst e))
  all_goals with_reducible repeat' (first
      | assumption | apply calm_access | apply calm_escEnable | apply calm_id | apply calm_foldl | apply calm_foldr
      | apply calm_ite | split | intro _ | dsimp only)

theorem calm_execXltEnable {s₀ : State} {a1 : Requester} {a2 : Fin 32} {a3 : Word} {s : State} {t : State} (e : execXltEnable a1 a2 a3 s = .next t) (h4 : Calm s₀ s) : Calm s₀ t := by
  unfold execXltEnable at e
  try dsimp only at e
  first
  | refine calm_act e (by assumption) ?_
  | (injection e with e; subst e)
  | (revert e; repeat' (split); all_goals (intro e; injection e with e; subst e))
  all_goals with_reducible repeat' (first
      | assumption | apply calm_access | apply calm_store | apply calm_setRegF | apply calm_id | apply calm_foldl
      | apply calm_foldr | apply calm_ite | split | intro _ | dsimp only)

theorem calm_dropXlt {s₀ : State} {s : State} {a2 : Nat} {a3 : Nat} {a4 : Nat} (h1 : Calm s₀ s) : Calm s₀ (State.dropXlt s a2 a3 a4) := by
  unfold State.dropXlt
  with_reducible repeat' (first
      | assumption | apply calm_id | apply calm_foldl | apply calm_foldr | apply calm_ite | split | intro _ | dsimp only
      | refine calm_mk ?_ rfl rfl)

theorem calm_dropAllXlt {s₀ : State} {s : State} {a2 : Nat} (h1 : Calm s₀ s) : Calm s₀ (State.dropAllXlt s a2) := by
  unfold State.dropAllXlt
  with_reducible repeat' (first
      | assumption | apply calm_dropXlt | apply calm_id | apply calm_foldl | apply calm_foldr | apply calm_ite | split | intro _
      | dsimp only)

theorem calm_xltOff {s₀ : State} {s : State} {a2 : Nat} (h1 : Calm s₀ s) : Calm s₀ (State.xltOff s a2) := by
  unfold State.xltOff
  with_reducible repeat' (first
      | assumption | apply calm_dropAllXlt | apply calm_setRegF | apply calm_id | apply calm_foldl | apply calm_foldr
      | apply calm_ite | split | intro _ | dsimp only)

theorem calm_execXltDisable {s₀ : State} {a1 : Requester} {a2 : Fin 32} {a3 : Word} {s : State} {t : State} (e : execXltDisable a1 a2 a3 s = .next t) (h4 : Calm s₀ s) : Calm s₀ t := by
  unfold execXltDisable at e
  try dsimp only at e
  first
  | refine calm_act e (by assumption) ?_
  | (injection e with e; subst e)
  | (revert e; repeat' (split); all_goals (intro e; injection e with e; subst e))
  all_goals with_reducible repeat' (first
      | assumption | apply calm_access | apply calm_xltOff | apply calm_id | apply calm_foldl | apply calm_foldr | apply calm_ite
      | split | intro _ | dsimp only)

theorem calm_invalidate {s₀ : State} {s : State} {a2 : Requester} {a3 : Nat} {a4 : Word} {a5 : State → Nat × Nat} (h1 : Calm s₀ s) : Calm s₀ (State.invalidate s a2 a3 a4 a5) := by
  unfold State.invalidate
  with_reducible repeat' (first
      | assumption | apply calm_access | apply calm_store | apply calm_modPart | apply calm_setRegF | apply calm_dropXlt
      | apply calm_id | apply calm_foldl | apply calm_foldr | apply calm_ite | split | intro _ | dsimp only)

theorem calm_execXltInvalidateAll {s₀ : State} {a1 : Requester} {a2 : Fin 32} {a3 : Word} {s : State} {t : State} (e : execXltInvalidateAll a1 a2 a3 s = .next t) (h4 : Calm s₀ s) : Calm s₀ t := by
  unfold execXltInvalidateAll at e
  try dsimp only at e
  first
  | refine calm_act e (by assumption) ?_
  | (injection e with e; subst e)
  | (revert e; repeat' (split); all_goals (intro e; injection e with e; subst e))
  all_goals with_reducible repeat' (first
      | assumption | apply calm_invalidate | apply calm_id | apply calm_foldl | apply calm_foldr | apply calm_ite | split | intro _
      | dsimp only)

theorem calm_execXltInvalidate {s₀ : State} {a1 : Requester} {a2 : Fin 32} {a3 : Word} {s : State} {t : State} (e : execXltInvalidate a1 a2 a3 s = .next t) (h4 : Calm s₀ s) : Calm s₀ t := by
  unfold execXltInvalidate at e
  try dsimp only at e
  first
  | refine calm_act e (by assumption) ?_
  | (injection e with e; subst e)
  | (revert e; repeat' (split); all_goals (intro e; injection e with e; subst e))
  all_goals with_reducible repeat' (first
      | assumption | apply calm_invalidate | apply calm_id | apply calm_foldl | apply calm_foldr | apply calm_ite | split | intro _
      | dsimp only)

theorem calm_execMboxEnable {s₀ : State} {a1 : Requester} {a2 : Fin 32} {a3 : Word} {s : State} {t : State} (e : execMboxEnable a1 a2 a3 s = .next t) (h4 : Calm s₀ s) : Calm s₀ t := by
  unfold execMboxEnable at e
  try dsimp only at e
  first
  | refine calm_act e (by assumption) ?_
  | (injection e with e; subst e)
  | (revert e; repeat' (split); all_goals (intro e; injection e with e; subst e))
  all_goals with_reducible repeat' (first
      | assumption | apply calm_access | apply calm_enableRing | apply calm_id | apply calm_foldl | apply calm_foldr
      | apply calm_ite | split | intro _ | dsimp only)

theorem calm_execMboxHeadWrite {s₀ : State} {a1 : Requester} {a2 : Fin 32} {a3 : Word} {s : State} {t : State} (e : execMboxHeadWrite a1 a2 a3 s = .next t) (h4 : Calm s₀ s) : Calm s₀ t := by
  unfold execMboxHeadWrite at e
  try dsimp only at e
  first
  | refine calm_act e (by assumption) ?_
  | (injection e with e; subst e)
  | (revert e; repeat' (split); all_goals (intro e; injection e with e; subst e))
  all_goals with_reducible repeat' (first
      | assumption | apply calm_headWrite | apply calm_id | apply calm_foldl | apply calm_foldr | apply calm_ite | split | intro _
      | dsimp only)

theorem calm_dirAnswer {s₀ : State} {s : State} {a2 : Nat} {a3 : Nat} {a4 : Nat} {a5 : Range} {a6 : Nat} (h1 : Calm s₀ s) : Calm s₀ (State.dirAnswer s a2 a3 a4 a5 a6) := by
  unfold State.dirAnswer
  with_reducible repeat' (first
      | assumption | apply calm_modRing | apply calm_setRegF | apply calm_id | apply calm_foldl | apply calm_foldr | apply calm_ite
      | split | intro _ | dsimp only)

theorem calm_execRowDirEnable {s₀ : State} {a1 : Requester} {a2 : Fin 32} {a3 : Word} {s : State} {t : State} (e : execRowDirEnable a1 a2 a3 s = .next t) (h4 : Calm s₀ s) : Calm s₀ t := by
  unfold execRowDirEnable at e
  try dsimp only at e
  first
  | refine calm_act e (by assumption) ?_
  | (injection e with e; subst e)
  | (revert e; repeat' (split); all_goals (intro e; injection e with e; subst e))
  all_goals with_reducible repeat' (first
      | assumption | apply calm_access | apply calm_store | apply calm_dirAnswer | apply calm_id | apply calm_foldl
      | apply calm_foldr | apply calm_ite | split | intro _ | dsimp only)

theorem calm_showBusy {s₀ : State} {s : State} {a2 : Nat} (h1 : Calm s₀ s) : Calm s₀ (State.showBusy s a2) := by
  unfold State.showBusy
  with_reducible repeat' (first
      | assumption | apply calm_setRegF | apply calm_id | apply calm_foldl | apply calm_foldr | apply calm_ite | split | intro _
      | dsimp only)

theorem calm_setIndex {s₀ : State} {s : State} {a2 : Nat} {a3 : Nat} {a4 : Option VecIndex} (h1 : Calm s₀ s) : Calm s₀ (State.setIndex s a2 a3 a4) := by
  unfold State.setIndex
  with_reducible repeat' (first
      | assumption | apply calm_id | apply calm_foldl | apply calm_foldr | apply calm_ite | split | intro _ | dsimp only
      | refine calm_mk ?_ rfl rfl)

theorem calm_beginUnload {s₀ : State} {s : State} {a2 : Nat} {a3 : Nat} (h1 : Calm s₀ s) : Calm s₀ (State.beginUnload s a2 a3) := by
  unfold State.beginUnload
  with_reducible repeat' (first
      | assumption | apply calm_showBusy | apply calm_setIndex | apply calm_id | apply calm_foldl | apply calm_foldr
      | apply calm_ite | split | intro _ | dsimp only)

theorem calm_unloadAll {s₀ : State} {s : State} {a2 : Nat} (h1 : Calm s₀ s) : Calm s₀ (State.unloadAll s a2) := by
  unfold State.unloadAll
  with_reducible repeat' (first
      | assumption | apply calm_beginUnload | apply calm_id | apply calm_foldl | apply calm_foldr | apply calm_ite | split
      | intro _ | dsimp only)

theorem calm_execWinDirEnable {s₀ : State} {a1 : Requester} {a2 : Fin 32} {a3 : Word} {s : State} {t : State} (e : execWinDirEnable a1 a2 a3 s = .next t) (h4 : Calm s₀ s) : Calm s₀ t := by
  unfold execWinDirEnable at e
  try dsimp only at e
  first
  | refine calm_act e (by assumption) ?_
  | (injection e with e; subst e)
  | (revert e; repeat' (split); all_goals (intro e; injection e with e; subst e))
  all_goals with_reducible repeat' (first
      | assumption | apply calm_access | apply calm_store | apply calm_setRegF | apply calm_modRing | apply calm_unloadAll
      | apply calm_dirAnswer | apply calm_id | apply calm_foldl | apply calm_foldr | apply calm_ite | split | intro _ | dsimp only)

theorem calm_execIndexUnload {s₀ : State} {a1 : Requester} {a2 : Fin 32} {a3 : Word} {s : State} {t : State} (e : execIndexUnload a1 a2 a3 s = .next t) (h4 : Calm s₀ s) : Calm s₀ t := by
  unfold execIndexUnload at e
  try dsimp only at e
  first
  | refine calm_act e (by assumption) ?_
  | (injection e with e; subst e)
  | (revert e; repeat' (split); all_goals (intro e; injection e with e; subst e))
  all_goals with_reducible repeat' (first
      | assumption | apply calm_access | apply calm_store | apply calm_setRegF | apply calm_beginUnload | apply calm_id
      | apply calm_foldl | apply calm_foldr | apply calm_ite | split | intro _ | dsimp only)

theorem calm_numbered {s₀ : State} {s : State} (h1 : Calm s₀ s) : Calm s₀ (State.numbered s) := by
  unfold State.numbered
  with_reducible repeat' (first
      | assumption | apply calm_id | apply calm_foldl | apply calm_foldr | apply calm_ite | split | intro _ | dsimp only
      | refine calm_mk ?_ rfl rfl)

theorem calm_request {s₀ : State} {s : State} {a2 : HomeReq} (h1 : Calm s₀ s) : Calm s₀ (State.request s a2) := by
  unfold State.request
  with_reducible repeat' (first
      | assumption | apply calm_acceptNow | apply calm_accept | apply calm_modHomes | apply calm_id | apply calm_foldl
      | apply calm_foldr | apply calm_ite | split | intro _ | dsimp only | refine calm_mk ?_ rfl rfl)

theorem calm_post {s₀ : State} {s : State} {a2 : Source} {a3 : Nat} {a4 : Nat} {a5 : Nat} {a6 : Bool} (h1 : Calm s₀ s) : Calm s₀ (State.post s a2 a3 a4 a5 a6) := by
  unfold State.post
  with_reducible repeat' (first
      | assumption | apply calm_modCmd | apply calm_numbered | apply calm_request | apply calm_modHomes | apply calm_id
      | apply calm_foldl | apply calm_foldr | apply calm_ite | split | intro _ | dsimp only)

theorem calm_postBytes {s₀ : State} {s : State} {a2 : Source} {a3 : Nat} {a4 : Nat} {a5 : Nat} {a6 : Bool} (h1 : Calm s₀ s) : Calm s₀ (State.postBytes s a2 a3 a4 a5 a6) := by
  unfold State.postBytes
  with_reducible repeat' (first
      | assumption | apply calm_post | apply calm_id | apply calm_foldl | apply calm_foldr | apply calm_ite | split | intro _
      | dsimp only)

theorem calm_indexBack {s₀ : State} {s : State} {a2 : Nat} {a3 : Nat} (h1 : Calm s₀ s) : Calm s₀ (State.indexBack s a2 a3) := by
  unfold State.indexBack
  with_reducible repeat' (first
      | assumption | apply calm_postBytes | apply calm_id | apply calm_foldl | apply calm_foldr | apply calm_ite | split | intro _
      | dsimp only)

theorem calm_showLoaded {s₀ : State} {s : State} {a2 : Nat} {a3 : Nat} {a4 : Bool} (h1 : Calm s₀ s) : Calm s₀ (State.showLoaded s a2 a3 a4) := by
  unfold State.showLoaded
  with_reducible repeat' (first
      | assumption | apply calm_setRegF | apply calm_id | apply calm_foldl | apply calm_foldr | apply calm_ite | split | intro _
      | dsimp only)

theorem calm_load {s₀ : State} {s : State} {a2 : Nat} {a3 : Nat} (h1 : Calm s₀ s) : Calm s₀ (State.load s a2 a3) := by
  unfold State.load
  with_reducible repeat' (first
      | assumption | apply calm_showBusy | apply calm_wantAll | apply calm_setRegF | apply calm_indexBack | apply calm_showLoaded
      | apply calm_setIndex | apply calm_id | apply calm_foldl | apply calm_foldr | apply calm_ite | split | intro _ | dsimp only
      | refine calm_mk ?_ rfl rfl)

theorem calm_execIndexLoad {s₀ : State} {a1 : Requester} {a2 : Fin 32} {a3 : Word} {s : State} {t : State} (e : execIndexLoad a1 a2 a3 s = .next t) (h4 : Calm s₀ s) : Calm s₀ t := by
  unfold execIndexLoad at e
  try dsimp only at e
  first
  | refine calm_act e (by assumption) ?_
  | (injection e with e; subst e)
  | (revert e; repeat' (split); all_goals (intro e; injection e with e; subst e))
  all_goals with_reducible repeat' (first
      | assumption | apply calm_access | apply calm_load | apply calm_store | apply calm_id | apply calm_foldl | apply calm_foldr
      | apply calm_ite | split | intro _ | dsimp only)

theorem calm_endRun {s₀ : State} {s : State} {a2 : Nat} {a3 : Nat} {a4 : Nat} {a5 : Nat} (h1 : Calm s₀ s) : Calm s₀ (State.endRun s a2 a3 a4 a5) := by
  unfold State.endRun
  with_reducible repeat' (first
      | assumption | apply calm_modCore | apply calm_id | apply calm_foldl | apply calm_foldr | apply calm_ite | split | intro _
      | dsimp only)

theorem calm_failCmd {s₀ : State} {s : State} {a2 : Nat} {a3 : Nat} {a4 : Nat} {a5 : Nat} (h1 : Calm s₀ s) : Calm s₀ (State.failCmd s a2 a3 a4 a5) := by
  unfold State.failCmd
  with_reducible repeat' (first
      | assumption | apply calm_endRun | apply calm_finish | apply calm_id | apply calm_foldl | apply calm_foldr | apply calm_ite
      | split | intro _ | dsimp only)

theorem calm_arrive {s₀ : State} {s : State} {a2 : Arrival} (h1 : Calm s₀ s) : Calm s₀ (State.arrive s a2) := by
  unfold State.arrive
  with_reducible repeat' (first
      | assumption | apply calm_modFab | apply calm_id | apply calm_foldl | apply calm_foldr | apply calm_ite | split | intro _
      | dsimp only)

theorem calm_releaseStalled {s₀ : State} {s : State} (h1 : Calm s₀ s) : Calm s₀ (State.releaseStalled s) := by
  unfold State.releaseStalled
  with_reducible repeat' (first
      | assumption | apply calm_modFab | apply calm_sendNow | apply calm_id | apply calm_foldl | apply calm_foldr | apply calm_ite
      | split | intro _ | dsimp only)

theorem calm_complete {s₀ : State} {s : State} {a2 : OutReq} (h1 : Calm s₀ s) : Calm s₀ (State.complete s a2) := by
  unfold State.complete
  with_reducible repeat' (first
      | assumption | apply calm_releaseStalled | apply calm_modFab | apply calm_id | apply calm_foldl | apply calm_foldr
      | apply calm_ite | split | intro _ | dsimp only)

theorem calm_redirect {s₀ : State} {s : State} {a2 : OutReq} {t : State} (e : State.redirect s a2 = some t) (h1 : Calm s₀ s) : Calm s₀ t := by
  unfold State.redirect at e
  repeat' (first | (split at e) | (dsimp only at e))
  all_goals (first | (cases e) | (simp only [Option.map_eq_some_iff] at e; obtain ⟨_, _, rfl⟩ := e) | (simp only [Option.some.injEq, Prod.mk.injEq] at e; obtain ⟨_, rfl⟩ := e) | (simp only [Option.some.injEq, Prod.mk.injEq] at e; subst e) | skip)
  all_goals with_reducible repeat' (first
      | assumption | refine calm_send (by assumption) ?_ | apply calm_id | apply calm_foldl | apply calm_foldr | apply calm_ite
      | split | intro _ | dsimp only)

theorem calm_pinvLost {s₀ : State} {s : State} {a2 : Nat} {a3 : Nat} {a4 : Nat} (h1 : Calm s₀ s) : Calm s₀ (State.pinvLost s a2 a3 a4) := by
  unfold State.pinvLost
  with_reducible repeat' (first
      | assumption | apply calm_sharerLost | apply calm_afterLine | apply calm_checkRound | apply calm_setEntry | apply calm_id
      | apply calm_foldl | apply calm_foldr | apply calm_ite | split | intro _ | dsimp only)

theorem calm_mirrorUnreachable {s₀ : State} {s : State} {a2 : Nat} (h1 : Calm s₀ s) : Calm s₀ (State.mirrorUnreachable s a2) := by
  unfold State.mirrorUnreachable
  with_reducible repeat' (first
      | assumption | apply calm_mirrorTo | apply calm_ackStore | apply calm_id | apply calm_foldl | apply calm_foldr
      | apply calm_ite | split | intro _ | dsimp only | refine calm_mk ?_ rfl rfl)

theorem calm_violateMem {s₀ : State} {s : State} {a2 : Source} {a3 : Bool} {a4 : Nat} (h1 : Calm s₀ s) : Calm s₀ (State.violateMem s a2 a3 a4) := by
  unfold State.violateMem
  with_reducible repeat' (first
      | assumption | apply calm_violate | apply calm_id | apply calm_foldl | apply calm_foldr | apply calm_ite | split | intro _
      | dsimp only)

theorem calm_peerViolation {s₀ : State} {s : State} {a2 : Packet} (h1 : Calm s₀ s) : Calm s₀ (State.peerViolation s a2) := by
  unfold State.peerViolation
  with_reducible repeat' (first
      | assumption | apply calm_endRequest | apply calm_violateMem | apply calm_id | apply calm_foldl | apply calm_foldr
      | apply calm_ite | split | intro _ | dsimp only)

theorem calm_toHome {s₀ : State} {s : State} {a2 : Packet} (h1 : Calm s₀ s) : Calm s₀ (State.toHome s a2) := by
  unfold State.toHome
  with_reducible repeat' (first
      | assumption | apply calm_request | apply calm_id | apply calm_foldl | apply calm_foldr | apply calm_ite | split | intro _
      | dsimp only)

theorem calm_judge {s₀ : State} {s : State} {a2 : Packet} (h1 : Calm s₀ s) : Calm s₀ (State.judge s a2) := by
  unfold State.judge
  with_reducible repeat' (first
      | assumption | apply calm_peerViolation | apply calm_refuseStale | apply calm_modSync | apply calm_toHome | apply calm_id
      | apply calm_foldl | apply calm_foldr | apply calm_ite | split | intro _ | dsimp only)

theorem calm_promote {s₀ : State} {s : State} {a2 : Nat} (h1 : Calm s₀ s) : Calm s₀ (State.promote s a2) := by
  unfold State.promote
  with_reducible repeat' (first
      | assumption | apply calm_mirrorTo | apply calm_id | apply calm_foldl | apply calm_foldr | apply calm_ite | split | intro _
      | dsimp only)

theorem calm_proposalEnd {s₀ : State} {s : State} {a2 : Nat} {a3 : Nat} (h1 : Calm s₀ s) : Calm s₀ (State.proposalEnd s a2 a3) := by
  unfold State.proposalEnd
  with_reducible repeat' (first
      | assumption | apply calm_modSync | apply calm_endRequest | apply calm_id | apply calm_foldl | apply calm_foldr
      | apply calm_ite | split | intro _ | dsimp only)

theorem calm_modProposal {s₀ : State} {s : State} {a2 : Nat} {a3 : Proposal → Proposal} (h1 : Calm s₀ s) : Calm s₀ (State.modProposal s a2 a3) := by
  unfold State.modProposal
  with_reducible repeat' (first
      | assumption | apply calm_modSync | apply calm_id | apply calm_foldl | apply calm_foldr | apply calm_ite | split | intro _
      | dsimp only)

theorem calm_protoLost {s₀ : State} {s : State} {a2 : Nat} {a3 : Nat} {a4 : Nat} {a5 : Nat} {a6 : Nat} {a7 : Nat} (h1 : Calm s₀ s) : Calm s₀ (State.protoLost s a2 a3 a4 a5 a6 a7) := by
  unfold State.protoLost
  with_reducible repeat' (first
      | assumption | apply calm_modProposal | apply calm_targetLost | apply calm_showComp | apply calm_setPrepared
      | apply calm_memberLost | apply calm_freeze | apply calm_endProposal | apply calm_proposalEnd | apply calm_id
      | apply calm_foldl | apply calm_foldr | apply calm_ite | split | intro _ | dsimp only)

theorem calm_sequence {s₀ : State} {s : State} {a2 : Proposal} {a3 : Nat} {a4 : Nat} {a5 : Nat} (h1 : Calm s₀ s) : Calm s₀ (State.sequence s a2 a3 a4 a5) := by
  unfold State.sequence
  with_reducible repeat' (first
      | assumption | refine calm_send (by assumption) ?_ | apply calm_protoLost | apply calm_id | apply calm_foldl
      | apply calm_foldr | apply calm_ite | split | intro _ | dsimp only)

theorem calm_advance {s₀ : State} {a1 : Nat} {a2 : Nat} {s : State} (h3 : Calm s₀ s) : Calm s₀ (State.advance a1 a2 s) := by
  induction a2 generalizing a1 s h3 with
  | zero =>
    unfold State.advance
    with_reducible repeat' (first
      | assumption | apply calm_proposalEnd | apply calm_modProposal | apply calm_modSync | apply calm_sequence | apply calm_id
      | apply calm_foldl | apply calm_foldr | apply calm_ite | split | intro _ | dsimp only)
  | succ _ ih =>
    unfold State.advance
    with_reducible repeat' (first
      | assumption | apply calm_proposalEnd | apply calm_modProposal | apply calm_modSync | apply calm_sequence | apply calm_id
      | apply calm_foldl | apply calm_foldr | apply calm_ite | split | intro _ | dsimp only | apply ih)

theorem calm_sequenced {s₀ : State} {s : State} {a2 : Nat} (h1 : Calm s₀ s) : Calm s₀ (State.sequenced s a2) := by
  unfold State.sequenced
  with_reducible repeat' (first
      | assumption | apply calm_advance | apply calm_id | apply calm_foldl | apply calm_foldr | apply calm_ite | split | intro _
      | dsimp only)

theorem calm_syncLost {s₀ : State} {s : State} {a2 : OutReq} (h1 : Calm s₀ s) : Calm s₀ (State.syncLost s a2) := by
  unfold State.syncLost
  with_reducible repeat' (first
      | assumption | apply calm_sequenced | apply calm_protoLost | apply calm_id | apply calm_foldl | apply calm_foldr
      | apply calm_ite | split | intro _ | dsimp only)

theorem calm_lostWaiter {s₀ : State} {s : State} {a2 : Waiter} {a3 : Nat} (h1 : Calm s₀ s) : Calm s₀ (State.lostWaiter s a2 a3) := by
  unfold State.lostWaiter
  with_reducible repeat' (first
      | assumption | apply calm_failCmd | apply calm_arrive | apply calm_id | apply calm_foldl | apply calm_foldr | apply calm_ite
      | split | intro _ | dsimp only)

theorem calm_requestLost {s₀ : State} {s : State} {a2 : Option Nat} {a3 : Waiter} {a4 : Nat} {a5 : Nat} {a6 : Nat} {a7 : Nat} {a8 : Nat} (h1 : Calm s₀ s) : Calm s₀ (State.requestLost s a2 a3 a4 a5 a6 a7 a8) := by
  unfold State.requestLost
  with_reducible repeat' (first
      | assumption | apply calm_lostWaiter | apply calm_freeze | apply calm_targetLost | apply calm_memberLost | apply calm_id
      | apply calm_foldl | apply calm_foldr | apply calm_ite | split | intro _ | dsimp only)

theorem calm_endLost {s₀ : State} {s : State} {a2 : OutReq} (h1 : Calm s₀ s) : Calm s₀ (State.endLost s a2) := by
  unfold State.endLost
  with_reducible repeat' (first
      | assumption | apply calm_complete | refine calm_redirect (by assumption) ?_ | apply calm_pinvLost
      | apply calm_mirrorUnreachable | apply calm_judge | apply calm_promote | apply calm_ackCmd | apply calm_syncLost
      | apply calm_lostWaiter | apply calm_requestLost | apply calm_id | apply calm_foldl | apply calm_foldr | apply calm_ite
      | split | intro _ | dsimp only | refine calm_mk ?_ rfl rfl)

theorem calm_sendOrLose {s₀ : State} {s : State} {a2 : FabReq} (h1 : Calm s₀ s) : Calm s₀ (State.sendOrLose s a2) := by
  unfold State.sendOrLose
  with_reducible repeat' (first
      | assumption | refine calm_send (by assumption) ?_ | apply calm_endLost | apply calm_id | apply calm_foldl | apply calm_foldr
      | apply calm_ite | split | intro _ | dsimp only)

theorem calm_unitSend {s₀ : State} {s : State} {a2 : FabReq} (h1 : Calm s₀ s) : Calm s₀ (State.unitSend s a2) := by
  unfold State.unitSend
  with_reducible repeat' (first
      | assumption | apply calm_failCmd | apply calm_ackCmd | apply calm_arrive | apply calm_sendOrLose | apply calm_numbered
      | apply calm_id | apply calm_foldl | apply calm_foldr | apply calm_ite | split | intro _ | dsimp only)

theorem calm_execPropose {s₀ : State} {a1 : Requester} {a2 : Fin 32} {a3 : Word} {s : State} {t : State} (e : execPropose a1 a2 a3 s = .next t) (h4 : Calm s₀ s) : Calm s₀ t := by
  unfold execPropose at e
  try dsimp only at e
  first
  | refine calm_act e (by assumption) ?_
  | (injection e with e; subst e)
  | (revert e; repeat' (split); all_goals (intro e; injection e with e; subst e))
  all_goals with_reducible repeat' (first
      | assumption | apply calm_access | apply calm_setRegF | apply calm_store | apply calm_unitSend | apply calm_endProposal
      | apply calm_id | apply calm_foldl | apply calm_foldr | apply calm_ite | split | intro _ | dsimp only)

theorem calm_modTally {s₀ : State} {s : State} {a2 : Nat} {a3 : Nat} {a4 : TallyGroup → TallyGroup} (h1 : Calm s₀ s) : Calm s₀ (State.modTally s a2 a3 a4) := by
  unfold State.modTally
  with_reducible repeat' (first
      | assumption | apply calm_id | apply calm_foldl | apply calm_foldr | apply calm_ite | split | intro _ | dsimp only
      | refine calm_mk ?_ rfl rfl)

theorem calm_tallyWrite {s₀ : State} {s : State} {a2 : Requester} {a3 : Nat} {a4 : Nat → LaneKind → Nat → State} (h1 : Calm s₀ s) (h4 : ∀ y0 y1 y2, Calm s₀ (a4 y0 y1 y2)) : Calm s₀ (State.tallyWrite s a2 a3 a4) := by
  unfold State.tallyWrite
  with_reducible repeat' (first
      | assumption | apply calm_modTally | apply calm_id | apply calm_foldl | apply calm_foldr | apply calm_ite | apply h4 | split
      | intro _ | dsimp only)

theorem calm_writeTly {s₀ : State} {s : State} {a2 : Requester} {a3 : Nat} {a4 : Nat} {a5 : Word} (h1 : Calm s₀ s) : Calm s₀ (State.writeTly s a2 a3 a4 a5) := by
  unfold State.writeTly
  with_reducible repeat' (first
      | assumption | apply calm_tallyWrite | apply calm_modTally | apply calm_id | apply calm_foldl | apply calm_foldr
      | apply calm_ite | split | intro _ | dsimp only)

theorem calm_writeMirror {s₀ : State} {s : State} {a2 : Nat} {a3 : Word} (h1 : Calm s₀ s) : Calm s₀ (State.writeMirror s a2 a3) := by
  unfold State.writeMirror
  with_reducible repeat' (first
      | assumption | apply calm_modMirror | apply calm_id | apply calm_foldl | apply calm_foldr | apply calm_ite | split | intro _
      | dsimp only)

theorem calm_storeAt {s₀ : State} {s : State} {a2 : Requester} {a3 : Nat} {a4 : Word} (h1 : Calm s₀ s) : Calm s₀ (State.storeAt s a2 a3 a4) := by
  unfold State.storeAt
  with_reducible repeat' (first
      | assumption | apply calm_writeTly | apply calm_store | apply calm_writeMirror | apply calm_id | apply calm_foldl
      | apply calm_foldr | apply calm_ite | split | intro _ | dsimp only)

theorem calm_actPart {s₀ s : State} {a2 : Requester} {a3 : Fin 32} {a4 : Nat} {a5 : Word} (h1 : Calm s₀ s) :
    Calm s₀ (State.actPart s a2 a3 a4 a5) := by
  unfold State.actPart
  refine calm_ite (fun _ => calm_onBit (fun _ _ e h => calm_execPartitionReset e h) h1) (fun _ => ?_)
  refine calm_ite (fun _ => calm_onBit (fun _ _ e h => calm_execFaultPop e h) h1) (fun _ => ?_)
  refine calm_ite (fun _ => calm_ite (fun _ => calm_effect (fun _ _ e h => calm_execCplEnable e h) h1) (fun _ => calm_disableWrite h1)) (fun _ => ?_)
  refine calm_ite (fun _ => calm_effect (fun _ _ e h => calm_execCplHeadWrite e h) h1) (fun _ => ?_)
  refine calm_ite (fun _ => calm_ite (fun _ => calm_effect (fun _ _ e h => calm_execChuteEnable e h) h1)
    (fun _ => calm_effect (fun _ _ e h => calm_execChuteDisable e h) h1)) (fun _ => ?_)
  refine calm_ite (fun _ => calm_ite (fun _ => calm_effect (fun _ _ e h => calm_execEscTableClear e h) h1)
    (fun _ => calm_ite (fun _ => calm_effect (fun _ _ e h => calm_execEscTableEnable e h) h1) (fun _ => calm_disableWrite h1))) (fun _ => ?_)
  refine calm_ite (fun _ => calm_ite (fun _ => calm_effect (fun _ _ e h => calm_execXltEnable e h) h1)
    (fun _ => calm_effect (fun _ _ e h => calm_execXltDisable e h) h1)) (fun _ => ?_)
  refine calm_ite (fun _ => calm_ite (fun _ => h1) (fun _ => calm_ite (fun _ => calm_effect (fun _ _ e h => calm_execXltInvalidateAll e h) h1)
    (fun _ => calm_ite (fun _ => calm_effect (fun _ _ e h => calm_execXltInvalidate e h) h1) (fun _ => calm_store h1)))) (fun _ => ?_)
  refine calm_ite (fun _ => calm_ite (fun _ => calm_effect (fun _ _ e h => calm_execMboxEnable e h) h1) (fun _ => calm_disableWrite h1)) (fun _ => ?_)
  refine calm_ite (fun _ => calm_effect (fun _ _ e h => calm_execMboxHeadWrite e h) h1) (fun _ => ?_)
  refine calm_ite (fun _ => calm_ite (fun _ => calm_effect (fun _ _ e h => calm_execRowDirEnable e h) h1)
    (fun _ => calm_setRegF (calm_setRegF (calm_modRing h1)))) (fun _ => ?_)
  refine calm_ite (fun _ => calm_effect (fun _ _ e h => calm_execWinDirEnable e h) h1) (fun _ => ?_)
  refine calm_ite (fun _ => calm_ite (fun _ => h1) (fun _ => calm_onBit (fun _ _ e h => calm_execIndexUnload e h)
    (calm_onBit (fun _ _ e h => calm_execIndexLoad e h) (calm_store h1)))) (fun _ => ?_)
  refine calm_ite (fun _ => calm_ite (fun _ => h1) (fun _ => calm_ite (fun _ => calm_effect (fun _ _ e h => calm_execPropose e h) h1)
    (fun _ => calm_store h1))) (fun _ => calm_storeAt h1)


theorem calm_admResult {s₀ : State} {s : State} {a2 : Nat} (h1 : Calm s₀ s) : Calm s₀ (State.admResult s a2) := by
  unfold State.admResult
  with_reducible repeat' (first
      | assumption | apply calm_setRegN | apply calm_id | apply calm_foldl | apply calm_foldr | apply calm_ite | split | intro _
      | dsimp only)

theorem calm_resetUnit {s₀ : State} {s : State} {a2 : UnitKind} {a3 : Nat} (h1 : Calm s₀ s) : Calm s₀ (State.resetUnit s a2 a3) := by
  unfold State.resetUnit
  with_reducible repeat' (first
      | assumption | apply calm_id | apply calm_foldl | apply calm_foldr | apply calm_ite | split | intro _ | dsimp only
      | refine calm_mk ?_ rfl rfl)

theorem calm_showFt {s₀ : State} {s : State} (h1 : Calm s₀ s) : Calm s₀ (State.showFt s) := by
  unfold State.showFt
  with_reducible repeat' (first
      | assumption | apply calm_setRegF | apply calm_setRegN | apply calm_id | apply calm_foldl | apply calm_foldr | apply calm_ite
      | split | intro _ | dsimp only)

theorem calm_modFt {s₀ : State} {s : State} {a2 : FieldTest → FieldTest} (h1 : Calm s₀ s) : Calm s₀ (State.modFt s a2) := by
  unfold State.modFt
  with_reducible repeat' (first
      | assumption | apply calm_id | apply calm_foldl | apply calm_foldr | apply calm_ite | split | intro _ | dsimp only
      | refine calm_mk ?_ rfl rfl)

theorem calm_ftRestore {s₀ : State} {s : State} {a2 : FtRun} (h1 : Calm s₀ s) : Calm s₀ (State.ftRestore s a2) := by
  unfold State.ftRestore
  with_reducible repeat' (first
      | assumption | apply calm_resetUnit | apply calm_modTally | apply calm_showFt | apply calm_modFt | apply calm_id
      | apply calm_foldl | apply calm_foldr | apply calm_ite | split | intro _ | dsimp only)

theorem calm_t1Zero {s₀ s : State} {a2 : Range} (h1 : Calm s₀ s) : Calm s₀ (State.t1Zero s a2) :=
  h1.trans ⟨rfl, rfl, rfl, rfl, rfl, fun c => ⟨c.1, Memory.wf_zero _ _ _ c.2.1, c.2.2⟩⟩


theorem calm_ftResult {s₀ : State} {s : State} {a2 : Nat} {a3 : Nat} {a4 : Nat} {a5 : Nat} {a6 : Nat} (h1 : Calm s₀ s) : Calm s₀ (State.ftResult s a2 a3 a4 a5 a6) := by
  unfold State.ftResult
  with_reducible repeat' (first
      | assumption | apply calm_setRegN | apply calm_id | apply calm_foldl | apply calm_foldr | apply calm_ite | split | intro _
      | dsimp only)

theorem calm_ftDefer {s₀ : State} {s : State} {a2 : FtReq} {a3 : Nat} (h1 : Calm s₀ s) : Calm s₀ (State.ftDefer s a2 a3) := by
  unfold State.ftDefer
  with_reducible repeat' (first
      | assumption | apply calm_modFt | apply calm_ftResult | apply calm_report | apply calm_cause | apply calm_count
      | apply calm_id | apply calm_foldl | apply calm_foldr | apply calm_ite | split | intro _ | dsimp only)

theorem calm_ftAbandon {s₀ : State} {s : State} (h1 : Calm s₀ s) : Calm s₀ (State.ftAbandon s) := by
  unfold State.ftAbandon
  with_reducible repeat' (first
      | assumption | apply calm_ftRestore | apply calm_t1Zero | apply calm_ftResult | apply calm_count | apply calm_showFt
      | apply calm_modFt | apply calm_cause | apply calm_ftDefer | apply calm_id | apply calm_foldl | apply calm_foldr
      | apply calm_ite | split | intro _ | dsimp only)

theorem calm_ftNeeds {s₀ : State} {s : State} {a2 : Nat} {a3 : Nat → Bool} (h1 : Calm s₀ s) : Calm s₀ (State.ftNeeds s a2 a3) := by
  unfold State.ftNeeds
  with_reducible repeat' (first
      | assumption | apply calm_ftAbandon | apply calm_id | apply calm_foldl | apply calm_foldr | apply calm_ite | split | intro _
      | dsimp only)

theorem calm_tallyPreempt {s₀ : State} {s : State} {a2 : Nat} {a3 : Nat} (h1 : Calm s₀ s) : Calm s₀ (State.tallyPreempt s a2 a3) := by
  unfold State.tallyPreempt
  with_reducible repeat' (first
      | assumption | apply calm_cause | apply calm_modTally | apply calm_id | apply calm_foldl | apply calm_foldr | apply calm_ite
      | split | intro _ | dsimp only)

theorem calm_tallyPreemptStacks {s₀ : State} {s : State} (h1 : Calm s₀ s) : Calm s₀ (State.tallyPreemptStacks s) := by
  unfold State.tallyPreemptStacks
  with_reducible repeat' (first
      | assumption | apply calm_tallyPreempt | apply calm_id | apply calm_foldl | apply calm_foldr | apply calm_ite | split
      | intro _ | dsimp only)

theorem calm_setOwner {s₀ : State} {s : State} {a2 : UnitKind} {a3 : Nat} {a4 : Option Nat} (h1 : Calm s₀ s) : Calm s₀ (State.setOwner s a2 a3 a4) := by
  unfold State.setOwner
  with_reducible repeat' (first
      | assumption | apply calm_setRegF | apply calm_id | apply calm_foldl | apply calm_foldr | apply calm_ite | split | intro _
      | dsimp only)

theorem calm_zeroSems {s₀ : State} {s : State} {a2 : Nat} {a3 : Nat} (h1 : Calm s₀ s) : Calm s₀ (State.zeroSems s a2 a3) := by
  unfold State.zeroSems
  with_reducible repeat' (first
      | assumption | apply calm_modSync | apply calm_id | apply calm_foldl | apply calm_foldr | apply calm_ite | split | intro _
      | dsimp only)

theorem calm_showSwitchMins {s₀ : State} {s : State} (h1 : Calm s₀ s) : Calm s₀ (State.showSwitchMins s) := by
  unfold State.showSwitchMins
  with_reducible repeat' (first
      | assumption | apply calm_setRegN | apply calm_id | apply calm_foldl | apply calm_foldr | apply calm_ite | split | intro _
      | dsimp only)

theorem calm_choose {s₀ : State} {s : State} {a2 : Nat} {r0} {t} (e : State.choose s a2 = (r0, t)) (h1 : Calm s₀ s) : Calm s₀ t := by
  unfold State.choose at e
  repeat' (first | (split at e) | (dsimp only at e))
  all_goals (first | (cases e) | (simp only [Option.map_eq_some_iff] at e; obtain ⟨_, _, rfl⟩ := e) | (simp only [Option.some.injEq, Prod.mk.injEq] at e; obtain ⟨_, rfl⟩ := e) | (simp only [Option.some.injEq, Prod.mk.injEq] at e; subst e) | skip)
  all_goals with_reducible repeat' (first
      | assumption | apply calm_id | apply calm_foldl | apply calm_foldr | apply calm_ite | split | intro _ | dsimp only
      | refine calm_mk ?_ rfl rfl)

theorem calm_choose' {s₀ : State} {s : State} {a2 : Nat} (h1 : Calm s₀ s) : Calm s₀ (State.choose s a2).2 :=
  calm_choose (e := (Prod.eta _).symm) h1

theorem calm_modLoft {s₀ : State} {s : State} {a2 : Loft → Loft} (h1 : Calm s₀ s) : Calm s₀ (State.modLoft s a2) := by
  unfold State.modLoft
  with_reducible repeat' (first
      | assumption | apply calm_id | apply calm_foldl | apply calm_foldr | apply calm_ite | split | intro _ | dsimp only
      | refine calm_mk ?_ rfl rfl)

theorem calm_giveChunks {s₀ : State} {s : State} {a2 : Nat} {a3 : Nat} (h1 : Calm s₀ s) : Calm s₀ (State.giveChunks s a2 a3) := by
  induction a3 generalizing s a2 h1 with
  | zero =>
    unfold State.giveChunks
    with_reducible repeat' (first
      | assumption | refine calm_choose (by assumption) ?_ | apply calm_choose' | apply calm_setRegF | apply calm_modLoft
      | apply calm_id | apply calm_foldl | apply calm_foldr | apply calm_ite | split | intro _ | dsimp only)
  | succ _ ih =>
    unfold State.giveChunks
    with_reducible repeat' (first
      | assumption | refine calm_choose (by assumption) ?_ | apply calm_choose' | apply calm_setRegF | apply calm_modLoft
      | apply calm_id | apply calm_foldl | apply calm_foldr | apply calm_ite | split | intro _ | dsimp only | apply ih)

theorem calm_admission {s₀ : State} {s : State} {a2 : Nat} (h1 : Calm s₀ s) : Calm s₀ (State.admission s a2) := by
  unfold State.admission
  with_reducible repeat' (first
      | assumption | apply calm_ftNeeds | apply calm_tallyPreemptStacks | apply calm_setOwner | apply calm_setReg
      | apply calm_zeroSems | apply calm_setPart | apply calm_showSwitchMins | apply calm_giveChunks | apply calm_setPstate
      | apply calm_id | apply calm_foldl | apply calm_foldr | apply calm_ite | split | intro _ | dsimp only)

theorem calm_execAdmitPartition {s₀ : State} {a1 : Requester} {a2 : Word} {s : State} {t : State} (e : execAdmitPartition a1 a2 s = .next t) (h3 : Calm s₀ s) : Calm s₀ t := by
  unfold execAdmitPartition at e
  try dsimp only at e
  first
  | refine calm_act e (by assumption) ?_
  | (injection e with e; subst e)
  | (revert e; repeat' (split); all_goals (intro e; injection e with e; subst e))
  all_goals with_reducible repeat' (first
      | assumption | apply calm_access | apply calm_store | apply calm_admResult | apply calm_admission | apply calm_id
      | apply calm_foldl | apply calm_foldr | apply calm_ite | split | intro _ | dsimp only)

theorem calm_beginRelease {s₀ : State} {s : State} {a2 : Nat} (h1 : Calm s₀ s) : Calm s₀ (State.beginRelease s a2) := by
  unfold State.beginRelease
  with_reducible repeat' (first
      | assumption | apply calm_memberLost | apply calm_setPstate | apply calm_stopWork | apply calm_id | apply calm_foldl
      | apply calm_foldr | apply calm_ite | split | intro _ | dsimp only)

theorem calm_execReleasePartition {s₀ : State} {a1 : Requester} {a2 : Word} {s : State} {t : State} (e : execReleasePartition a1 a2 s = .next t) (h3 : Calm s₀ s) : Calm s₀ t := by
  unfold execReleasePartition at e
  try dsimp only at e
  first
  | refine calm_act e (by assumption) ?_
  | (injection e with e; subst e)
  | (revert e; repeat' (split); all_goals (intro e; injection e with e; subst e))
  all_goals with_reducible repeat' (first
      | assumption | apply calm_access | apply calm_store | apply calm_admResult | apply calm_modPart | apply calm_beginRelease
      | apply calm_id | apply calm_foldl | apply calm_foldr | apply calm_ite | split | intro _ | dsimp only)

theorem calm_execViolClear {s₀ : State} {a1 : Requester} {a2 : Word} {s : State} {t : State} (e : execViolClear a1 a2 s = .next t) (h3 : Calm s₀ s) : Calm s₀ t := by
  unfold execViolClear at e
  try dsimp only at e
  first
  | refine calm_act e (by assumption) ?_
  | (injection e with e; subst e)
  | (revert e; repeat' (split); all_goals (intro e; injection e with e; subst e))
  all_goals with_reducible repeat' (first
      | assumption | apply calm_access | apply calm_setReg64 | apply calm_setRegN | apply calm_id | apply calm_foldl
      | apply calm_foldr | apply calm_ite | split | intro _ | dsimp only)

theorem calm_ftDrop {s₀ : State} {s : State} {a2 : Nat} (h1 : Calm s₀ s) : Calm s₀ (State.ftDrop s a2) := by
  unfold State.ftDrop
  with_reducible repeat' (first
      | assumption | apply calm_showFt | apply calm_modFt | apply calm_id | apply calm_foldl | apply calm_foldr | apply calm_ite
      | split | intro _ | dsimp only)

theorem calm_execFtCancel {s₀ : State} {a1 : Requester} {a2 : Word} {s : State} {t : State} (e : execFtCancel a1 a2 s = .next t) (h3 : Calm s₀ s) : Calm s₀ t := by
  unfold execFtCancel at e
  try dsimp only at e
  first
  | refine calm_act e (by assumption) ?_
  | (injection e with e; subst e)
  | (revert e; repeat' (split); all_goals (intro e; injection e with e; subst e))
  all_goals with_reducible repeat' (first
      | assumption | apply calm_access | apply calm_store | apply calm_ftResult | apply calm_ftRestore | apply calm_ftDrop
      | apply calm_id | apply calm_foldl | apply calm_foldr | apply calm_ite | split | intro _ | dsimp only)

theorem calm_execFtGo {s₀ : State} {a1 : Requester} {a2 : Word} {s : State} {t : State} (e : execFtGo a1 a2 s = .next t) (h3 : Calm s₀ s) : Calm s₀ t := by
  unfold execFtGo at e
  try dsimp only at e
  first
  | refine calm_act e (by assumption) ?_
  | (injection e with e; subst e)
  | (revert e; repeat' (split); all_goals (intro e; injection e with e; subst e))
  all_goals with_reducible repeat' (first
      | assumption | apply calm_access | apply calm_store | refine calm_draw (by assumption) ?_ | apply calm_draw'
      | apply calm_ftResult | apply calm_modFt | apply calm_showFt | apply calm_setRegF | apply calm_id | apply calm_foldl
      | apply calm_foldr | apply calm_ite | split | intro _ | dsimp only)

theorem calm_execUnitReset {s₀ : State} {a1 : Requester} {a2 : Word} {s : State} {t : State} (e : execUnitReset a1 a2 s = .next t) (h3 : Calm s₀ s) : Calm s₀ t := by
  unfold execUnitReset at e
  try dsimp only at e
  first
  | refine calm_act e (by assumption) ?_
  | (injection e with e; subst e)
  | (revert e; repeat' (split); all_goals (intro e; injection e with e; subst e))
  all_goals with_reducible repeat' (first
      | assumption | apply calm_access | apply calm_store | apply calm_resetUnit | apply calm_wakeNow | apply calm_id
      | apply calm_foldl | apply calm_foldr | apply calm_ite | split | intro _ | dsimp only)

theorem calm_modBoot {s₀ : State} {s : State} {a2 : Boot → Boot} (h1 : Calm s₀ s) : Calm s₀ (State.modBoot s a2) := by
  unfold State.modBoot
  with_reducible repeat' (first
      | assumption | apply calm_id | apply calm_foldl | apply calm_foldr | apply calm_ite | split | intro _ | dsimp only
      | refine calm_mk ?_ rfl rfl)

theorem calm_keepRoles {s₀ : State} {s : State} {s2 : State} (h1 : Calm s₀ s) (h2 : Calm s₀ s2) : Calm s₀ (State.keepRoles s s2) := by
  unfold State.keepRoles
  with_reducible repeat' (first
      | assumption | apply calm_setRegF | apply calm_id | apply calm_foldl | apply calm_foldr | apply calm_ite | split | intro _
      | dsimp only)

theorem calm_extend {s₀ : State} {s : State} {a2 : Nat} {a3 : List Nat} (h1 : Calm s₀ s) : Calm s₀ (State.extend s a2 a3) := by
  unfold State.extend
  with_reducible repeat' (first
      | assumption | apply calm_modBoot | apply calm_id | apply calm_foldl | apply calm_foldr | apply calm_ite | split | intro _
      | dsimp only)

theorem calm_setDebugLevel {s₀ : State} {s : State} {a2 : Nat} {a3 : Nat} {a4 : Nat} (h1 : Calm s₀ s) : Calm s₀ (State.setDebugLevel s a2 a3 a4) := by
  unfold State.setDebugLevel
  with_reducible repeat' (first
      | assumption | apply calm_setRegF | apply calm_cause | apply calm_report | apply calm_extend | apply calm_id
      | apply calm_foldl | apply calm_foldr | apply calm_ite | split | intro _ | dsimp only)

theorem calm_execRunNode {s₀ : State} {a1 : Requester} {a2 : Word} {s : State} {t : State} (e : execRunNode a1 a2 s = .next t) (h3 : Calm s₀ s) : Calm s₀ t := by
  unfold execRunNode at e
  try dsimp only at e
  first
  | refine calm_act e (by assumption) ?_
  | (injection e with e; subst e)
  | (revert e; repeat' (split); all_goals (intro e; injection e with e; subst e))
  all_goals with_reducible repeat' (first
      | assumption | apply calm_access | apply calm_setRegF | apply calm_id | apply calm_foldl | apply calm_foldr | apply calm_ite
      | split | intro _ | dsimp only)

theorem calm_execStandby {s₀ : State} {a1 : Requester} {a2 : Word} {s : State} {t : State} (e : execStandby a1 a2 s = .next t) (h3 : Calm s₀ s) : Calm s₀ t := by
  unfold execStandby at e
  try dsimp only at e
  first
  | refine calm_act e (by assumption) ?_
  | (injection e with e; subst e)
  | (revert e; repeat' (split); all_goals (intro e; injection e with e; subst e))
  all_goals with_reducible repeat' (first
      | assumption | apply calm_access | apply calm_setRegF | apply calm_cause | apply calm_id | apply calm_foldl
      | apply calm_foldr | apply calm_ite | split | intro _ | dsimp only)

theorem calm_execNewChallenge {s₀ : State} {a1 : Requester} {a2 : Word} {s : State} {t : State} (e : execNewChallenge a1 a2 s = .next t) (h3 : Calm s₀ s) : Calm s₀ t := by
  unfold execNewChallenge at e
  try dsimp only at e
  first
  | refine calm_act e (by assumption) ?_
  | (injection e with e; subst e)
  | (revert e; repeat' (split); all_goals (intro e; injection e with e; subst e))
  all_goals with_reducible repeat' (first
      | assumption | apply calm_access | refine calm_draw (by assumption) ?_ | apply calm_draw' | apply calm_setReg64
      | apply calm_id | apply calm_foldl | apply calm_foldr | apply calm_ite | split | intro _ | dsimp only)

theorem calm_eventRecord {s₀ : State} {s : State} {a2 : Nat} {a3 : Nat} {a4 : Range} (h1 : Calm s₀ s) : Calm s₀ (State.eventRecord s a2 a3 a4) := by
  unfold State.eventRecord
  with_reducible repeat' (first
      | assumption | apply calm_modLd | apply calm_message | apply calm_id | apply calm_foldl | apply calm_foldr | apply calm_ite
      | split | intro _ | dsimp only)

theorem calm_setExtents {s₀ : State} {s : State} {a2 : List Extent} (h1 : Calm s₀ s) : Calm s₀ (State.setExtents s a2) := by
  unfold State.setExtents
  with_reducible repeat' (first
      | assumption | apply calm_id | apply calm_foldl | apply calm_foldr | apply calm_ite | split | intro _ | dsimp only
      | refine calm_mk ?_ rfl rfl)

theorem calm_addRange {s₀ : State} {s : State} {a2 : Nat} {a3 : Range} (h1 : Calm s₀ s) : Calm s₀ (State.addRange s a2 a3) := by
  unfold State.addRange
  with_reducible repeat' (first
      | assumption | apply calm_ftNeeds | apply calm_eventRecord | apply calm_setExtents | apply calm_cause | apply calm_count
      | apply calm_id | apply calm_foldl | apply calm_foldr | apply calm_ite | split | intro _ | dsimp only)

theorem calm_setAux {s₀ : State} {s : State} {a2 : Nat} {a3 : Cmd} {a4 : Nat} {a5 : List Nat} (h1 : Calm s₀ s) : Calm s₀ (State.setAux s a2 a3 a4 a5) := by
  unfold State.setAux
  with_reducible repeat' (first
      | assumption | apply calm_modCmd | apply calm_id | apply calm_foldl | apply calm_foldr | apply calm_ite | split | intro _
      | dsimp only)

theorem calm_afterScope {s₀ : State} {s : State} {a2 : Nat} {a3 : Cmd} {a4 : State → State} (h1 : Calm s₀ s) (h4 : ∀ y0, Calm s₀ y0 → Calm s₀ (a4 y0)) : Calm s₀ (State.afterScope s a2 a3 a4) := by
  unfold State.afterScope
  with_reducible repeat' (first
      | assumption | apply calm_setAux | apply calm_id | apply calm_foldl | apply calm_foldr | apply calm_ite | apply h4 | split
      | intro _ | dsimp only)

theorem calm_endFault {s₀ : State} {s : State} {a2 : Nat} {a3 : Nat} {a4 : Bool} (h1 : Calm s₀ s) : Calm s₀ (State.endFault s a2 a3 a4) := by
  unfold State.endFault
  with_reducible repeat' (first
      | assumption | apply calm_modPart | apply calm_id | apply calm_foldl | apply calm_foldr | apply calm_ite | split | intro _
      | dsimp only)

theorem calm_endFaultsOf {s₀ : State} {s : State} {a2 : Nat} {a3 : Cmd} (h1 : Calm s₀ s) : Calm s₀ (State.endFaultsOf s a2 a3) := by
  unfold State.endFaultsOf
  with_reducible repeat' (first
      | assumption | apply calm_endFault | apply calm_id | apply calm_foldl | apply calm_foldr | apply calm_ite | split | intro _
      | dsimp only)

theorem calm_gcAbort {s₀ : State} {s : State} {a2 : Nat} {a3 : Cmd} {a4 : Nat} (h1 : Calm s₀ s) : Calm s₀ (State.gcAbort s a2 a3 a4) := by
  unfold State.gcAbort
  with_reducible repeat' (first
      | assumption | apply calm_endRun | apply calm_endWait | apply calm_endFaultsOf | apply calm_id | apply calm_foldl
      | apply calm_foldr | apply calm_ite | split | intro _ | dsimp only)

theorem calm_gcStep {s₀ : State} {s : State} {a2 : Nat} {a3 : Nat → Cmd → State → State} (h1 : Calm s₀ s) (h3 : ∀ y0 y1 y2, Calm s₀ y2 → Calm s₀ (a3 y0 y1 y2)) : Calm s₀ (State.gcStep s a2 a3) := by
  unfold State.gcStep
  with_reducible repeat' (first
      | assumption | apply calm_gcAbort | apply calm_id | apply calm_foldl | apply calm_foldr | apply calm_ite | apply h3 | split
      | intro _ | dsimp only)

theorem calm_gcInstr {s₀ : State} {s : State} {a2 : Nat} {a3 : GcRow} {a4 : Nat → Cmd → Nat → State → State} (h1 : Calm s₀ s) (h4 : ∀ y0 y1 y2 y3, Calm s₀ y3 → Calm s₀ (a4 y0 y1 y2 y3)) : Calm s₀ (State.gcInstr s a2 a3 a4) := by
  unfold State.gcInstr
  with_reducible repeat' (first
      | assumption | apply calm_gcStep | apply calm_id | apply calm_foldl | apply calm_foldr | apply calm_ite | apply h4 | split
      | intro _ | dsimp only)

theorem calm_gcEnd {s₀ : State} {s : State} {a2 : Nat} {a3 : Nat} {a4 : Nat} (h1 : Calm s₀ s) : Calm s₀ (State.gcEnd s a2 a3 a4) := by
  unfold State.gcEnd
  with_reducible repeat' (first
      | assumption | apply calm_endRun | apply calm_id | apply calm_foldl | apply calm_foldr | apply calm_ite | split | intro _
      | dsimp only)

theorem calm_fillTlb {s₀ : State} {s : State} {a2 : TlbEntry} (h1 : Calm s₀ s) : Calm s₀ (State.fillTlb s a2) := by
  unfold State.fillTlb
  with_reducible repeat' (first
      | assumption | apply calm_id | apply calm_foldl | apply calm_foldr | apply calm_ite | split | intro _ | dsimp only
      | refine calm_mk ?_ rfl rfl)

theorem calm_fillLeaf {s₀ : State} {s : State} {a2 : Nat} {a3 : Nat} {a4 : Nat} {a5 : Nat} {a6 : Nat} {a7 : Nat} (h1 : Calm s₀ s) : Calm s₀ (State.fillLeaf s a2 a3 a4 a5 a6 a7) := by
  unfold State.fillLeaf
  with_reducible repeat' (first
      | assumption | apply calm_count | apply calm_fillTlb | apply calm_id | apply calm_foldl | apply calm_foldr | apply calm_ite
      | split | intro _ | dsimp only)

theorem calm_fillWalk {s₀ : State} {s : State} {a2 : Nat} {a3 : Nat} {a4 : Nat} {a5 : List (Nat × Nat)} (h1 : Calm s₀ s) : Calm s₀ (State.fillWalk s a2 a3 a4 a5) := by
  unfold State.fillWalk
  with_reducible repeat' (first
      | assumption | apply calm_id | apply calm_foldl | apply calm_foldr | apply calm_ite | split | intro _ | dsimp only
      | refine calm_mk ?_ rfl rfl)

theorem calm_translate {s₀ : State} {s : State} {a2 : Nat} {a3 : Nat} {a4 : Nat} {a5 : Nat} {a6 : Bool} {r0} {t} (e : State.translate s a2 a3 a4 a5 a6 = (r0, t)) (h1 : Calm s₀ s) : Calm s₀ t := by
  unfold State.translate at e
  repeat' (first | (split at e) | (dsimp only at e))
  all_goals (first | (cases e) | (simp only [Option.map_eq_some_iff] at e; obtain ⟨_, _, rfl⟩ := e) | (simp only [Option.some.injEq, Prod.mk.injEq] at e; obtain ⟨_, rfl⟩ := e) | (simp only [Option.some.injEq, Prod.mk.injEq] at e; subst e) | skip)
  all_goals with_reducible repeat' (first
      | assumption | apply calm_count64 | apply calm_event | apply calm_fillLeaf | apply calm_fillWalk | apply calm_id
      | apply calm_foldl | apply calm_foldr | apply calm_ite | split | intro _ | dsimp only)

theorem calm_translate' {s₀ : State} {s : State} {a2 : Nat} {a3 : Nat} {a4 : Nat} {a5 : Nat} {a6 : Bool} (h1 : Calm s₀ s) : Calm s₀ (State.translate s a2 a3 a4 a5 a6).2 :=
  calm_translate (e := (Prod.eta _).symm) h1

theorem calm_raiseFault {s₀ : State} {s : State} {a2 : Nat} {a3 : Cmd} {a4 : Nat} {a5 : Nat} {a6 : Nat} {a7 : Nat} {a8 : Nat} {a9 : Nat} {a10 : Nat} (h1 : Calm s₀ s) : Calm s₀ (State.raiseFault s a2 a3 a4 a5 a6 a7 a8 a9 a10) := by
  unfold State.raiseFault
  with_reducible repeat' (first
      | assumption | apply calm_modPart | apply calm_count | apply calm_notify | apply calm_pcause | apply calm_id
      | apply calm_foldl | apply calm_foldr | apply calm_ite | split | intro _ | dsimp only)

theorem calm_issue_ok {s₀ s t : State} {a2 : Nat} {a3 : Cmd} {a4 a5 a6 a7 x y : Nat} (e : State.issue s a2 a3 a4 a5 a6 a7 = .ok x y t)
    (h : Calm s₀ s) : Calm s₀ t := by
  unfold State.issue at e
  split at e
  · next hs => cases e; exact calm_translate hs h
  · cases e
  · cases e

theorem calm_issue_stop {s₀ s t : State} {a2 : Nat} {a3 : Cmd} {a4 a5 a6 a7 : Nat} (e : State.issue s a2 a3 a4 a5 a6 a7 = .stop t)
    (h : Calm s₀ s) : Calm s₀ t := by
  unfold State.issue at e
  split at e
  · cases e
  · next hs => cases e; exact calm_raiseFault (calm_translate hs h)
  · next hs => cases e; exact calm_want (calm_translate hs h)


theorem calm_unlessEnding {s₀ : State} {s : State} {a2 : Nat} {a3 : State → State} (h1 : Calm s₀ s) (h3 : ∀ y0, Calm s₀ y0 → Calm s₀ (a3 y0)) : Calm s₀ (State.unlessEnding s a2 a3) := by
  unfold State.unlessEnding
  with_reducible repeat' (first
      | assumption | apply calm_id | apply calm_foldl | apply calm_foldr | apply calm_ite | apply h3 | split | intro _ | dsimp only)

theorem calm_l1dLost {s₀ : State} {s : State} {a2 : Nat} {a3 : Nat} {a4 : Nat} (h1 : Calm s₀ s) : Calm s₀ (State.l1dLost s a2 a3 a4) := by
  unfold State.l1dLost
  with_reducible repeat' (first
      | assumption | apply calm_modCore | apply calm_report | apply calm_gcEnd | apply calm_id | apply calm_foldl
      | apply calm_foldr | apply calm_ite | split | intro _ | dsimp only)

theorem calm_setT0Err {s₀ : State} {s : State} {a2 : Nat} {a3 : Nat} (h1 : Calm s₀ s) : Calm s₀ (State.setT0Err s a2 a3) := by
  unfold State.setT0Err
  with_reducible repeat' (first
      | assumption | apply calm_id | apply calm_foldl | apply calm_foldr | apply calm_ite | split | intro _ | dsimp only
      | refine calm_mk ?_ rfl rfl)

theorem calm_setT0Poison {s₀ : State} {s : State} {a2 : Nat} {a3 : Bool} (h1 : Calm s₀ s) : Calm s₀ (State.setT0Poison s a2 a3) := by
  unfold State.setT0Poison
  with_reducible repeat' (first
      | assumption | apply calm_id | apply calm_foldl | apply calm_foldr | apply calm_ite | split | intro _ | dsimp only
      | refine calm_mk ?_ rfl rfl)

theorem calm_t0Uncorrectable {s₀ : State} {s : State} {a2 : Nat} (h1 : Calm s₀ s) : Calm s₀ (State.t0Uncorrectable s a2) := by
  unfold State.t0Uncorrectable
  with_reducible repeat' (first
      | assumption | apply calm_cause | apply calm_count | apply calm_setT0Poison | apply calm_report | apply calm_id
      | apply calm_foldl | apply calm_foldr | apply calm_ite | split | intro _ | dsimp only)

theorem calm_t0FindWord {s₀ : State} {s : State} {a2 : Nat} (h1 : Calm s₀ s) : Calm s₀ (State.t0FindWord s a2) := by
  unfold State.t0FindWord
  with_reducible repeat' (first
      | assumption | apply calm_corrected | apply calm_count | apply calm_setT0Err | apply calm_t0Uncorrectable | apply calm_id
      | apply calm_foldl | apply calm_foldr | apply calm_ite | split | intro _ | dsimp only)

theorem calm_t0Merge {s₀ : State} {s : State} {a2 : Nat} {a3 : Nat} (h1 : Calm s₀ s) : Calm s₀ (State.t0Merge s a2 a3) := by
  unfold State.t0Merge
  with_reducible repeat' (first
      | assumption | apply calm_setT0Err | apply calm_t0FindWord | apply calm_id | apply calm_foldl | apply calm_foldr
      | apply calm_ite | split | intro _ | dsimp only)

theorem calm_t0Put {s₀ s : State} {a2 a3 a4 : Nat} {a5 : Bool} (h1 : Calm s₀ s) : Calm s₀ (State.t0Put s a2 a3 a4 a5) := by
  unfold State.t0Put
  exact calm_setT0Poison (calm_dropResv ((calm_t0Merge h1).trans
    ⟨rfl, rfl, rfl, rfl, rfl, fun c => ⟨c.1, c.2.1, Memory.wf_writeMasked _ _ _ _ _ c.2.2.1, c.2.2.2⟩⟩))


theorem calm_t0Line {s₀ : State} {s : State} {a2 : Nat} {a3 : Bool} {a4 : Origin} (h1 : Calm s₀ s) : Calm s₀ (State.t0Line s a2 a3 a4) := by
  unfold State.t0Line
  with_reducible repeat' (first
      | assumption | apply calm_wakeNow | apply calm_event | apply calm_id | apply calm_foldl | apply calm_foldr | apply calm_ite
      | split | intro _ | dsimp only)

theorem calm_storeLine {s₀ : State} {s : State} {a2 : Agent} {a3 : Nat} {a4 : Nat} {a5 : Nat} {a6 : Bool} (h1 : Calm s₀ s) : Calm s₀ (State.storeLine s a2 a3 a4 a5 a6) := by
  unfold State.storeLine
  with_reducible repeat' (first
      | assumption | apply calm_unitSend | apply calm_modCmd | apply calm_violateMem | apply calm_t0Put | apply calm_t0Line
      | apply calm_post | apply calm_id | apply calm_foldl | apply calm_foldr | apply calm_ite | split | intro _ | dsimp only)

theorem calm_l1Fixed {s₀ : State} {s : State} {a2 : Nat} (h1 : Calm s₀ s) : Calm s₀ (State.l1Fixed s a2) := by
  unfold State.l1Fixed
  with_reducible repeat' (first
      | assumption | apply calm_corrected | apply calm_count | apply calm_id | apply calm_foldl | apply calm_foldr | apply calm_ite
      | split | intro _ | dsimp only)

theorem calm_writeBack {s₀ : State} {s : State} {a2 : Nat} {a3 : Cmd} {a4 : Nat} {a5 : DLine} (h1 : Calm s₀ s) : Calm s₀ (State.writeBack s a2 a3 a4 a5) := by
  unfold State.writeBack
  with_reducible repeat' (first
      | assumption | apply calm_l1dLost | apply calm_storeLine | apply calm_l1Fixed | apply calm_id | apply calm_foldl
      | apply calm_foldr | apply calm_ite | split | intro _ | dsimp only)

theorem calm_cleanLines {s₀ : State} {s : State} {a2 : Nat} {a3 : Cmd} {a4 : Nat} {a5 : DLine → Bool} {a6 : Bool} (h1 : Calm s₀ s) : Calm s₀ (State.cleanLines s a2 a3 a4 a5 a6) := by
  unfold State.cleanLines
  with_reducible repeat' (first
      | assumption | apply calm_writeBack | apply calm_modCore | apply calm_id | apply calm_foldl | apply calm_foldr
      | apply calm_ite | split | intro _ | dsimp only)

theorem calm_takeArrival {s₀ : State} {s : State} {a2 : Waiter} {a3 : Nat} {r} {t : State} (e : State.takeArrival s a2 a3 = some (r, t)) (h1 : Calm s₀ s) : Calm s₀ t := by
  unfold State.takeArrival at e
  repeat' (first | (split at e) | (dsimp only at e))
  all_goals (first | (cases e) | (simp only [Option.map_eq_some_iff] at e; obtain ⟨_, _, rfl⟩ := e) | (simp only [Option.some.injEq, Prod.mk.injEq] at e; obtain ⟨_, rfl⟩ := e) | (simp only [Option.some.injEq, Prod.mk.injEq] at e; subst e) | skip)
  all_goals with_reducible repeat' (first
      | assumption | apply calm_modFab | apply calm_id | apply calm_foldl | apply calm_foldr | apply calm_ite | split | intro _
      | dsimp only)

theorem calm_atomicHome {s₀ : State} {s : State} {a2 : Nat} {a3 : Cmd} {a4 : Nat} {a5 : Nat} {a6 : Nat} {a7 : Nat} {a8 : Nat} {a9 : Nat → State → State} (h1 : Calm s₀ s) (h9 : ∀ y0 y1, Calm s₀ y1 → Calm s₀ (a9 y0 y1)) : Calm s₀ (State.atomicHome s a2 a3 a4 a5 a6 a7 a8 a9) := by
  unfold State.atomicHome
  with_reducible repeat' (first
      | assumption | apply calm_unlessEnding | apply calm_cleanLines | apply calm_violateMem | apply calm_t0Line
      | apply calm_t0FindWord | apply calm_t0Put | refine calm_takeArrival (by assumption) ?_ | apply calm_gcEnd
      | apply calm_unitSend | apply calm_modCore | apply calm_want | apply calm_modCmd | apply calm_numbered
      | apply calm_countRequest | refine calm_land (by assumption) ?_ | apply calm_land' | apply calm_t1Line | apply calm_storeDone
      | apply calm_id | apply calm_foldl | apply calm_foldr | apply calm_ite | apply h9 | split | intro _ | dsimp only)

theorem calm_coreRelease {s₀ : State} {s : State} {a2 : Nat} {a3 : Cmd} {a4 : Nat} {a5 : State → State} (h1 : Calm s₀ s) (h5 : ∀ y0, Calm s₀ y0 → Calm s₀ (a5 y0)) : Calm s₀ (State.coreRelease s a2 a3 a4 a5) := by
  unfold State.coreRelease
  with_reducible repeat' (first
      | assumption | apply calm_unlessEnding | apply calm_cleanLines | apply calm_id | apply calm_foldl | apply calm_foldr
      | apply calm_ite | apply h5 | split | intro _ | dsimp only)

theorem calm_coreAtomic {s₀ : State} {s : State} {a2 : Nat} {a3 : Cmd} {a4 : Nat} {a5 : Nat} {a6 : Nat} {a7 : Bool} {a8 : Nat} {a9 : Option Nat} {a10 : Nat} {a11 : Nat} {a12 : Nat → State → State} (h1 : Calm s₀ s) (h12 : ∀ y0 y1, Calm s₀ y1 → Calm s₀ (a12 y0 y1)) : Calm s₀ (State.coreAtomic s a2 a3 a4 a5 a6 a7 a8 a9 a10 a11 a12) := by
  unfold State.coreAtomic
  with_reducible repeat' (first
      | assumption | apply calm_gcEnd | refine calm_issue_ok (by assumption) ?_ | refine calm_issue_stop (by assumption) ?_
      | apply calm_event | apply calm_atomicHome | apply calm_coreRelease | apply calm_id | apply calm_foldl | apply calm_foldr
      | apply calm_ite | apply h12 | split | intro _ | dsimp only)

theorem calm_amo {s₀ : State} {s : State} {a2 : Nat} {a3 : GcRow} {a4 : Nat} {a5 : Nat} {a6 : Bool} (h1 : Calm s₀ s) : Calm s₀ (State.amo s a2 a3 a4 a5 a6) := by
  unfold State.amo
  with_reducible repeat' (first
      | assumption | apply calm_gcInstr | apply calm_coreAtomic | apply calm_retire | apply calm_modCore | apply calm_id
      | apply calm_foldl | apply calm_foldr | apply calm_ite | split | intro _ | dsimp only)

theorem calm_answer {s₀ : State} {s : State} {a2 : Transport} {a3 : Nat} {a4 : Nat} {a5 : Nat} {a6 : Nat} {a7 : List Nat} (h1 : Calm s₀ s) : Calm s₀ (State.answer s a2 a3 a4 a5 a6 a7) := by
  unfold State.answer
  with_reducible repeat' (first
      | assumption | apply calm_emit | apply calm_id | apply calm_foldl | apply calm_foldr | apply calm_ite | split | intro _
      | dsimp only)

theorem calm_answerEnd {s₀ : State} {s : State} {a2 : Transport} {a3 : Nat} {a4 : Nat} {a5 : Nat} {a6 : Nat} (h1 : Calm s₀ s) : Calm s₀ (State.answerEnd s a2 a3 a4 a5 a6) := by
  unfold State.answerEnd
  with_reducible repeat' (first
      | assumption | apply calm_answer | apply calm_setRegF | apply calm_id | apply calm_foldl | apply calm_foldr | apply calm_ite
      | split | intro _ | dsimp only)

theorem calm_answerWaiter {s₀ : State} {s : State} {a2 : OutReq} {a3 : Nat} {a4 : Bool} {a5 : Nat} (h1 : Calm s₀ s) : Calm s₀ (State.answerWaiter s a2 a3 a4 a5) := by
  unfold State.answerWaiter
  with_reducible repeat' (first
      | assumption | apply calm_failCmd | apply calm_ackCmd | apply calm_arrive | apply calm_endRequest | apply calm_id
      | apply calm_foldl | apply calm_foldr | apply calm_ite | split | intro _ | dsimp only | refine calm_mk ?_ rfl rfl)

theorem calm_mendCopy {s₀ : State} {s : State} {a2 : Nat} (h1 : Calm s₀ s) : Calm s₀ (State.mendCopy s a2) := by
  unfold State.mendCopy
  with_reducible repeat' (first
      | assumption | apply calm_corrected | apply calm_setRemoteLine | apply calm_id | apply calm_foldl | apply calm_foldr
      | apply calm_ite | split | intro _ | dsimp only)

theorem calm_t0Find {s₀ : State} {s : State} {a2 : Nat} (h1 : Calm s₀ s) : Calm s₀ (State.t0Find s a2) := by
  unfold State.t0Find
  with_reducible repeat' (first
      | assumption | apply calm_t0FindWord | apply calm_id | apply calm_foldl | apply calm_foldr | apply calm_ite | split | intro _
      | dsimp only)

theorem calm_countRead {s₀ : State} {s : State} {a2 : Agent} {a3 : Bool} {a4 : Nat} (h1 : Calm s₀ s) : Calm s₀ (State.countRead s a2 a3 a4) := by
  unfold State.countRead
  with_reducible repeat' (first
      | assumption | apply calm_event | apply calm_count64 | apply calm_mendCopy | apply calm_t0Line | apply calm_t0Find
      | apply calm_t1Line | apply calm_t1Find | apply calm_checkBits | apply calm_violateMem | apply calm_id | apply calm_foldl
      | apply calm_foldr | apply calm_ite | split | intro _ | dsimp only)

theorem calm_fetch {s₀ : State} {s : State} {a2 : Agent} {a3 : Bool} {a4 : Nat} {a5 : Nat} {r0} {t} (e : State.fetch s a2 a3 a4 a5 = (r0, t)) (h1 : Calm s₀ s) : Calm s₀ t := by
  unfold State.fetch at e
  repeat' (first | (split at e) | (dsimp only at e))
  all_goals (first | (cases e) | (simp only [Option.map_eq_some_iff] at e; obtain ⟨_, _, rfl⟩ := e) | (simp only [Option.some.injEq, Prod.mk.injEq] at e; obtain ⟨_, rfl⟩ := e) | (simp only [Option.some.injEq, Prod.mk.injEq] at e; subst e) | skip)
  all_goals with_reducible repeat' (first
      | assumption | apply calm_countRead | apply calm_id | apply calm_foldl | apply calm_foldr | apply calm_ite | split | intro _
      | dsimp only)

theorem calm_fetch' {s₀ : State} {s : State} {a2 : Agent} {a3 : Bool} {a4 : Nat} {a5 : Nat} (h1 : Calm s₀ s) : Calm s₀ (State.fetch s a2 a3 a4 a5).2 :=
  calm_fetch (e := (Prod.eta _).symm) h1

theorem calm_fetchAll {s₀ s : State} {a2 : Agent} {a3 : Bool} {a4 : List (Nat × Nat)} {r0} {t} (e : State.fetchAll s a2 a3 a4 = (r0, t))
    (h1 : Calm s₀ s) : Calm s₀ t := by
  induction a4 generalizing s r0 t with
  | nil => unfold State.fetchAll at e; cases e; exact h1
  | cons n l ih => unfold State.fetchAll at e; cases e; exact ih (Prod.eta _).symm (calm_fetch' h1)

theorem calm_fetchAll' {s₀ s : State} {a2 : Agent} {a3 : Bool} {a4 : List (Nat × Nat)} (h1 : Calm s₀ s) :
    Calm s₀ (State.fetchAll s a2 a3 a4).2 := calm_fetchAll (e := (Prod.eta _).symm) h1


theorem calm_dropBadCopy {s₀ : State} {s : State} {a2 : Agent} {a3 : Bool} {a4 : Nat} (h1 : Calm s₀ s) : Calm s₀ (State.dropBadCopy s a2 a3 a4) := by
  unfold State.dropBadCopy
  with_reducible repeat' (first
      | assumption | apply calm_setRemoteLine | apply calm_id | apply calm_foldl | apply calm_foldr | apply calm_ite | split
      | intro _ | dsimp only)

theorem calm_askLine {s₀ : State} {s : State} {a2 : Agent} {a3 : Bool} {a4 : Nat} (h1 : Calm s₀ s) : Calm s₀ (State.askLine s a2 a3 a4) := by
  unfold State.askLine
  with_reducible repeat' (first
      | assumption | apply calm_dropBadCopy | apply calm_event | apply calm_unitSend | apply calm_want | apply calm_id
      | apply calm_foldl | apply calm_foldr | apply calm_ite | split | intro _ | dsimp only)

theorem calm_Work_read {s₀ : State} {a1 : Agent} {a2 : Bool} {a3 : List (Nat × Nat)} : CalmWork s₀ (Work.read a1 a2 a3) := by
  intro s h
  unfold Work.read
  dsimp only
  split
  · next e =>
    split at e
    · cases e; exact calm_fetchAll' h
    · cases e
  · next e =>
    split at e
    · cases e
    · cases e
      intro y hy
      exact calm_foldl hy (fun y x hy => calm_askLine hy)


theorem calm_Work_headers {s₀ : State} {a1 : Nat} {a2 : Cmd} {a3 : Nat} {a4 : List Nat} : CalmWork s₀ (Work.headers a1 a2 a3 a4) := by
  induction a4 generalizing a1 a2 a3 with
  | nil =>
    unfold Work.headers
    with_reducible repeat' (first
      | assumption | apply calmw_bind | apply calmw_pure | apply calmw_mapM | apply calmw_forM | apply calmw_ite | apply calm_id
      | apply calm_Work_read | apply calm_id | apply calm_foldl | apply calm_foldr | apply calm_ite | split | intro _ | dsimp only)
  | cons _ _ ih =>
    unfold Work.headers
    with_reducible repeat' (first
      | assumption | apply calmw_bind | apply calmw_pure | apply calmw_mapM | apply calmw_forM | apply calmw_ite | apply calm_id
      | apply calm_Work_read | apply calm_id | apply calm_foldl | apply calm_foldr | apply calm_ite | split | intro _ | dsimp only | apply ih)

theorem calm_workDone {s₀ : State} {s : State} {a2 : Nat} {a3 : Cmd} (h1 : Calm s₀ s) : Calm s₀ (State.workDone s a2 a3) := by
  unfold State.workDone
  with_reducible repeat' (first
      | assumption | apply calm_modFab | apply calm_id | apply calm_foldl | apply calm_foldr | apply calm_ite | split | intro _
      | dsimp only)

theorem calm_Work_next {s₀ : State} {a1 : Nat} {a2 : Cmd} {a3 : Nat} {a4 : List Nat} : CalmWork s₀ (Work.next a1 a2 a3 a4) := by
  unfold Work.next
  with_reducible repeat' (first
      | assumption | apply calmw_bind | apply calmw_pure | apply calmw_mapM | apply calmw_forM | apply calmw_ite | apply calm_id
      | apply calm_Work_act | apply calm_setAux | apply calm_workDone | apply calm_id | apply calm_foldl | apply calm_foldr
      | apply calm_ite | split | intro _ | dsimp only)

theorem calm_applyStart {s₀ : State} {s : State} {a2 : Nat} {a3 : Cmd} (h1 : Calm s₀ s) : Calm s₀ (State.applyStart s a2 a3) := by
  unfold State.applyStart
  with_reducible repeat' (first
      | assumption | apply calmw_bind | apply calmw_pure | apply calmw_mapM | apply calmw_forM | apply calmw_ite | apply calm_id
      | apply calm_endCmd | apply calm_work | apply calm_Work_view | apply calm_Work_read | apply calm_Work_headers
      | apply calm_Work_act | apply calm_pcause | apply calm_count | apply calm_Work_next | apply calm_id | apply calm_foldl
      | apply calm_foldr | apply calm_ite | split | intro _ | dsimp only)

theorem calm_Work_rowState {s₀ : State} {a1 : Nat} {a2 : Cmd} {a3 : Nat} {a4 : Bool} : CalmWork s₀ (Work.rowState a1 a2 a3 a4) := by
  unfold Work.rowState
  with_reducible repeat' (first
      | assumption | apply calmw_bind | apply calmw_pure | apply calmw_mapM | apply calmw_forM | apply calmw_ite | apply calm_id
      | apply calm_Work_read | apply calm_id | apply calm_foldl | apply calm_foldr | apply calm_ite | split | intro _ | dsimp only)

theorem calm_Work_redirEntries {s₀ : State} {a1 : Nat} {a2 : Cmd} {a3 : Nat} {a4 : Nat} {a5 : Bool} : CalmWork s₀ (Work.redirEntries a1 a2 a3 a4 a5) := by
  unfold Work.redirEntries
  with_reducible repeat' (first
      | assumption | apply calmw_bind | apply calmw_pure | apply calmw_mapM | apply calmw_forM | apply calmw_ite | apply calm_id
      | apply calm_Work_read | apply calm_id | apply calm_foldl | apply calm_foldr | apply calm_ite | split | intro _ | dsimp only)

theorem calm_Work_resolve {s₀ : State} {a1 : Nat} {a2 : Cmd} {a3 : Nat} {a4 : Bool} : CalmWork s₀ (Work.resolve a1 a2 a3 a4) := by
  unfold Work.resolve
  with_reducible repeat' (first
      | assumption | apply calmw_bind | apply calmw_pure | apply calmw_mapM | apply calmw_forM | apply calmw_ite | apply calm_id
      | apply calm_Work_rowState | apply calm_Work_redirEntries | apply calm_Work_act | apply calm_pcause | apply calm_count
      | apply calm_id | apply calm_foldl | apply calm_foldr | apply calm_ite | split | intro _ | dsimp only)

theorem calm_storeBytes {s₀ : State} {s : State} {a2 : Agent} {a3 : Nat} {a4 : Nat} {a5 : Nat} {a6 : Bool} (h1 : Calm s₀ s) : Calm s₀ (State.storeBytes s a2 a3 a4 a5 a6) := by
  unfold State.storeBytes
  with_reducible repeat' (first
      | assumption | apply calm_storeLine | apply calm_id | apply calm_foldl | apply calm_foldr | apply calm_ite | split | intro _
      | dsimp only)

theorem calm_storeAll {s₀ : State} {s : State} {a2 : Agent} {a3 : Nat} {a4 : Bool} {a5 : List (Nat × Nat)} (h1 : Calm s₀ s) : Calm s₀ (State.storeAll s a2 a3 a4 a5) := by
  induction a5 generalizing s a2 a3 a4 h1 with
  | nil =>
    unfold State.storeAll
    with_reducible repeat' (first
      | assumption | apply calm_storeBytes | apply calm_id | apply calm_foldl | apply calm_foldr | apply calm_ite | split | intro _
      | dsimp only)
  | cons _ _ ih =>
    unfold State.storeAll
    with_reducible repeat' (first
      | assumption | apply calm_storeBytes | apply calm_id | apply calm_foldl | apply calm_foldr | apply calm_ite | split | intro _
      | dsimp only | apply ih)

theorem calm_rowEvent {s₀ : State} {s : State} {a2 : Nat} {a3 : Cmd} {a4 : Nat} {a5 : Nat} (h1 : Calm s₀ s) : Calm s₀ (State.rowEvent s a2 a3 a4 a5) := by
  unfold State.rowEvent
  with_reducible repeat' (first
      | assumption | apply calm_event | apply calm_count64 | apply calm_id | apply calm_foldl | apply calm_foldr | apply calm_ite
      | split | intro _ | dsimp only)

theorem calm_Work_applyWrite {s₀ : State} {a1 : Nat} {a2 : Cmd} {a3 : RowPlace} {a4 : Nat × Bool} : CalmWork s₀ (Work.applyWrite a1 a2 a3 a4) := by
  unfold Work.applyWrite
  with_reducible repeat' (first
      | assumption | apply calmw_bind | apply calmw_pure | apply calmw_mapM | apply calmw_forM | apply calmw_ite | apply calm_id
      | apply calm_Work_act | apply calm_pcause | apply calm_count | apply calm_storeAll | apply calm_rowEvent | apply calm_id
      | apply calm_foldl | apply calm_foldr | apply calm_ite | split | intro _ | dsimp only)

theorem calm_Work_readVa {s₀ : State} {a1 : Cmd} {a2 : Nat} {a3 : Bool} {a4 : Nat} {a5 : Nat} : CalmWork s₀ (Work.readVa a1 a2 a3 a4 a5) := by
  unfold Work.readVa
  with_reducible repeat' (first
      | assumption | apply calmw_bind | apply calmw_pure | apply calmw_mapM | apply calmw_forM | apply calmw_ite | apply calm_id
      | apply calm_Work_read | apply calm_Work_stop | apply calm_id | apply calm_foldl | apply calm_foldr | apply calm_ite | split
      | intro _ | dsimp only)

theorem calm_Work_defaultRow {s₀ : State} {a1 : Nat} {a2 : Cmd} : CalmWork s₀ (Work.defaultRow a1 a2) := by
  unfold Work.defaultRow
  with_reducible repeat' (first
      | assumption | apply calmw_bind | apply calmw_pure | apply calmw_mapM | apply calmw_forM | apply calmw_ite | apply calm_id
      | apply calm_Work_readVa | apply calm_id | apply calm_foldl | apply calm_foldr | apply calm_ite | split | intro _
      | dsimp only)

theorem calm_Work_useDefault {s₀ : State} {a1 : Nat} {a2 : Cmd} : CalmWork s₀ (Work.useDefault a1 a2) := by
  unfold Work.useDefault
  with_reducible repeat' (first
      | assumption | apply calmw_bind | apply calmw_pure | apply calmw_mapM | apply calmw_forM | apply calmw_ite | apply calm_id
      | apply calm_Work_defaultRow | apply calm_Work_act | apply calm_count | apply calm_id | apply calm_foldl | apply calm_foldr
      | apply calm_ite | split | intro _ | dsimp only)

theorem calm_Work_readPlace {s₀ : State} {a1 : Nat} {a2 : Cmd} {a3 : RowPlace} {a4 : Bool} {a5 : Bool} : CalmWork s₀ (Work.readPlace a1 a2 a3 a4 a5) := by
  unfold Work.readPlace
  with_reducible repeat' (first
      | assumption | apply calmw_bind | apply calmw_pure | apply calmw_mapM | apply calmw_forM | apply calmw_ite | apply calm_id
      | apply calm_Work_useDefault | apply calm_Work_read | apply calm_Work_act | apply calm_rowEvent | apply calm_id
      | apply calm_foldl | apply calm_foldr | apply calm_ite | split | intro _ | dsimp only)

theorem calm_Work_applyRow {s₀ : State} {a1 : Nat} {a2 : Cmd} {a3 a4 : Nat} {a5 : List (Nat × List Nat × Bool)} :
    CalmWork s₀ (Work.applyRow a1 a2 a3 a4 a5) := by
  unfold Work.applyRow
  refine calmw_bind (calmw_mapM (fun _ => calmw_bind calm_Work_read (fun _ => calmw_pure _))) (fun _ => ?_)
  refine calmw_bind calm_Work_resolve (fun _ => ?_)
  have k : ∀ (cur : RowRead) (y : Nat) (z : Bool) (v : Nat × Bool) (n : Nat) (x : RowPlace) (l l' : List Nat), CalmWork s₀ (do
      Work.act (fun s => if y = 0 then s else s.count (Reg.PART_ROW_DUP_POS a1) y)
      if z then Work.next a1 a2 a2.progress l
      else do
        if n ≠ 3 then Work.applyWrite a1 a2 x v
        Work.next a1 a2 a2.progress l') := by
    intro cur y z v n x l l'
    refine calmw_bind (calm_Work_act (fun w h => calm_ite (fun _ => h) (fun _ => calm_count h))) (fun _ => ?_)
    refine calmw_ite (fun _ => calm_Work_next) (fun _ => ?_)
    exact calmw_ite (fun _ => calmw_bind calm_Work_applyWrite (fun _ => calm_Work_next)) (fun _ => calmw_bind (calmw_pure _) (fun _ => calm_Work_next))
  refine calmw_ite (fun _ => ?_) (fun _ => ?_)
  · exact calmw_bind calm_Work_readPlace (fun cur => k cur _ _ _ _ _ _ _)
  · exact calmw_bind (calmw_pure _) (fun cur => k cur _ _ _ _ _ _ _)



theorem calm_zeroHeaders {s₀ : State} {s : State} {a2 : Nat} {a3 : Cmd} {a4 : Nat} {a5 : List Nat} (h1 : Calm s₀ s) : Calm s₀ (State.zeroHeaders s a2 a3 a4 a5) := by
  unfold State.zeroHeaders
  with_reducible repeat' (first
      | assumption | apply calm_storeAll | apply calm_id | apply calm_foldl | apply calm_foldr | apply calm_ite | split | intro _
      | dsimp only)

theorem calm_cmdAtomic {s₀ : State} {s : State} {a2 : Nat} {a3 : Cmd} {a4 : Nat} {a5 : Nat} {a6 : Nat} {a7 : Nat} {a8 : Nat → State → State} (h1 : Calm s₀ s) (h8 : ∀ y0 y1, Calm s₀ y1 → Calm s₀ (a8 y0 y1)) : Calm s₀ (State.cmdAtomic s a2 a3 a4 a5 a6 a7 a8) := by
  unfold State.cmdAtomic
  with_reducible repeat' (first
      | assumption | refine calm_takeArrival (by assumption) ?_ | apply calm_unitSend | apply calm_violateMem | apply calm_want
      | apply calm_modCmd | apply calm_numbered | apply calm_countRequest | refine calm_land (by assumption) ?_ | apply calm_land'
      | apply calm_t1Line | apply calm_storeDone | apply calm_id | apply calm_foldl | apply calm_foldr | apply calm_ite | apply h8
      | split | intro _ | dsimp only)

theorem calm_swapState {s₀ : State} {s : State} {a2 : Nat} {a3 : Cmd} {a4 : Nat} {a5 : Nat → Bool} {a6 : Nat} {a7 : State → State} {a8 : State → State} (h1 : Calm s₀ s) (h7 : ∀ y0, Calm s₀ y0 → Calm s₀ (a7 y0)) (h8 : ∀ y0, Calm s₀ y0 → Calm s₀ (a8 y0)) : Calm s₀ (State.swapState s a2 a3 a4 a5 a6 a7 a8) := by
  unfold State.swapState
  with_reducible repeat' (first
      | assumption | apply calmw_bind | apply calmw_pure | apply calmw_mapM | apply calmw_forM | apply calmw_ite | apply calm_id
      | apply calm_work | apply calm_Work_read | apply calm_Work_next | apply calm_Work_act | apply calm_workDone
      | apply calm_cmdAtomic | apply calm_setAux | apply calm_id | apply calm_foldl | apply calm_foldr | apply calm_ite | apply h7
      | apply h8 | split | intro _ | dsimp only)

theorem calm_Work_settled {s₀ : State} {a1 : Cmd} : CalmWork s₀ (Work.settled a1) := by
  unfold Work.settled
  with_reducible repeat' (first
      | assumption | apply calmw_bind | apply calmw_pure | apply calmw_mapM | apply calmw_forM | apply calmw_ite | apply calm_id
      | apply calm_Work_stop | apply calm_id | apply calm_foldl | apply calm_foldr | apply calm_ite | split | intro _ | dsimp only)

theorem calm_rowEnd {s₀ : State} {s : State} {a2 : Nat} {a3 : Cmd} {a4 : Nat} (h1 : Calm s₀ s) : Calm s₀ (State.rowEnd s a2 a3 a4) := by
  unfold State.rowEnd
  with_reducible repeat' (first
      | assumption | apply calm_endCmd | apply calm_id | apply calm_foldl | apply calm_foldr | apply calm_ite | split | intro _
      | dsimp only)

theorem calm_applyStep {s₀ : State} {s : State} {a2 : Nat} {a3 : Cmd} (h1 : Calm s₀ s) : Calm s₀ (State.applyStep s a2 a3) := by
  unfold State.applyStep
  with_reducible repeat' (first
      | assumption | apply calmw_bind | apply calmw_pure | apply calmw_mapM | apply calmw_forM | apply calmw_ite | apply calm_id
      | apply calm_work | apply calm_Work_headers | apply calm_Work_view | apply calm_Work_applyRow | apply calm_Work_act
      | apply calm_storeAll | apply calm_zeroHeaders | apply calm_Work_next | apply calm_setAux | apply calm_swapState
      | apply calm_Work_redirEntries | apply calm_Work_settled | apply calm_count | apply calm_rowEnd | apply calm_id
      | apply calm_foldl | apply calm_foldr | apply calm_ite | split | intro _ | dsimp only)

theorem calm_arenaWrite {s₀ : State} {s : State} {a2 : Source} {a3 : Nat} {a4 : Nat} {a5 : Tile} (h1 : Calm s₀ s) : Calm s₀ (State.arenaWrite s a2 a3 a4 a5) := by
  unfold State.arenaWrite
  with_reducible repeat' (first
      | assumption | apply calm_postBytes | apply calm_id | apply calm_foldl | apply calm_foldr | apply calm_ite | split | intro _
      | dsimp only)

theorem calm_finishRunning {s₀ : State} {s : State} {a2 : Nat} {a3 : Nat} {a4 : Nat} {a5 : Nat} {a6 : Nat} {a7 : Nat} (h1 : Calm s₀ s) : Calm s₀ (State.finishRunning s a2 a3 a4 a5 a6 a7) := by
  unfold State.finishRunning
  with_reducible repeat' (first
      | assumption | apply calm_finish | apply calm_id | apply calm_foldl | apply calm_foldr | apply calm_ite | split | intro _
      | dsimp only)

theorem calm_setSide {s₀ : State} {s : State} {a2 : Nat} {a3 : Option (Nat × Nat)} (h1 : Calm s₀ s) : Calm s₀ (State.setSide s a2 a3) := by
  unfold State.setSide
  with_reducible repeat' (first
      | assumption | apply calm_modSync | apply calm_id | apply calm_foldl | apply calm_foldr | apply calm_ite | split | intro _
      | dsimp only)

theorem calm_arrivalRefused {s₀ : State} {s : State} {a2 : OutReq} {a3 : Waiter} (h1 : Calm s₀ s) : Calm s₀ (State.arrivalRefused s a2 a3) := by
  unfold State.arrivalRefused
  with_reducible repeat' (first
      | assumption | apply calm_finishRunning | apply calm_setSide | apply calm_id | apply calm_foldl | apply calm_foldr
      | apply calm_ite | split | intro _ | dsimp only)

theorem calm_attemptFailed {s₀ : State} {s : State} {a2 : OutReq} (h1 : Calm s₀ s) : Calm s₀ (State.attemptFailed s a2) := by
  unfold State.attemptFailed
  with_reducible repeat' (first
      | assumption | apply calm_endLost | apply calm_modFab | apply calm_count | apply calm_route | apply calm_id
      | apply calm_foldl | apply calm_foldr | apply calm_ite | split | intro _ | dsimp only)

theorem calm_bufferFixed {s₀ : State} {s : State} {a2 : Nat} {a3 : Attempt} (h1 : Calm s₀ s) : Calm s₀ (State.bufferFixed s a2 a3) := by
  unfold State.bufferFixed
  with_reducible repeat' (first
      | assumption | apply calm_corrected | apply calm_id | apply calm_foldl | apply calm_foldr | apply calm_ite | split | intro _
      | dsimp only)

theorem calm_meMismatch {s₀ : State} {s : State} {a2 : Nat} {a3 : Nat} {a4 : BitVec 16} (h1 : Calm s₀ s) : Calm s₀ (State.meMismatch s a2 a3 a4) := by
  unfold State.meMismatch
  with_reducible repeat' (first
      | assumption | apply calm_setRegN | apply calm_count | apply calm_id | apply calm_foldl | apply calm_foldr | apply calm_ite
      | split | intro _ | dsimp only)

theorem calm_modEngine {s₀ : State} {s : State} {a2 : Nat} {a3 : Engine → Engine} (h1 : Calm s₀ s) : Calm s₀ (State.modEngine s a2 a3) := by
  unfold State.modEngine
  with_reducible repeat' (first
      | assumption | apply calm_id | apply calm_foldl | apply calm_foldr | apply calm_ite | split | intro _ | dsimp only
      | refine calm_mk ?_ rfl rfl)

theorem calm_quarantine {s₀ : State} {s : State} {a2 : UnitKind} {a3 : Nat} (h1 : Calm s₀ s) : Calm s₀ (State.quarantine s a2 a3) := by
  unfold State.quarantine
  with_reducible repeat' (first
      | assumption | apply calm_setRegF | apply calm_cause | apply calm_pcause | apply calm_id | apply calm_foldl
      | apply calm_foldr | apply calm_ite | split | intro _ | dsimp only | refine calm_mk ?_ rfl rfl)

theorem calm_meEnd {s₀ : State} {s : State} {a2 : Nat} {a3 : Cmd} {a4 : Nat} (h1 : Calm s₀ s) : Calm s₀ (State.meEnd s a2 a3 a4) := by
  unfold State.meEnd
  with_reducible repeat' (first
      | assumption | apply calm_endCmd | apply calm_id | apply calm_foldl | apply calm_foldr | apply calm_ite | split | intro _
      | dsimp only)

theorem calm_meQuarantine {s₀ : State} {s : State} {a2 : Nat} {a3 : Nat} {a4 : Cmd} (h1 : Calm s₀ s) : Calm s₀ (State.meQuarantine s a2 a3 a4) := by
  unfold State.meQuarantine
  with_reducible repeat' (first
      | assumption | apply calm_quarantine | apply calm_modEngine | apply calm_report | apply calm_meEnd | apply calm_id
      | apply calm_foldl | apply calm_foldr | apply calm_ite | split | intro _ | dsimp only)

theorem calm_attempts {s₀ : State} {s : State} {a2 : Nat} {a3 : Nat} {a4 : Cmd} {a5 : Nat} {a6 : List Attempt} {a7 : Nat → Attempt → State → State} (h1 : Calm s₀ s) (h7 : ∀ y0 y1 y2, Calm s₀ y2 → Calm s₀ (a7 y0 y1 y2)) : Calm s₀ (State.attempts s a2 a3 a4 a5 a6 a7) := by
  unfold State.attempts
  with_reducible repeat' (first
      | assumption | apply calm_bufferFixed | apply calm_count | apply calm_meMismatch | apply calm_modEngine
      | apply calm_meQuarantine | apply calm_id | apply calm_foldl | apply calm_foldr | apply calm_ite | apply h7 | split | intro _
      | dsimp only)

theorem calm_authFail {s₀ : State} {s : State} {a2 : Nat} {a3 : Nat} (h1 : Calm s₀ s) : Calm s₀ (State.authFail s a2 a3) := by
  unfold State.authFail
  with_reducible repeat' (first
      | assumption | apply calm_count | apply calm_setRegF | apply calm_setLink | apply calm_cause | apply calm_report
      | apply calm_id | apply calm_foldl | apply calm_foldr | apply calm_ite | split | intro _ | dsimp only)

theorem calm_badFields {s₀ : State} {s : State} {a2 : Nat} {a3 : Nat} {a4 : Bool} (h1 : Calm s₀ s) : Calm s₀ (State.badFields s a2 a3 a4) := by
  unfold State.badFields
  with_reducible repeat' (first
      | assumption | apply calm_lineErr | apply calm_id | apply calm_foldl | apply calm_foldr | apply calm_ite | split | intro _
      | dsimp only)

theorem calm_takeEntry {s₀ : State} {s : State} {a2 : Nat} {a3 : QEntry} (h1 : Calm s₀ s) : Calm s₀ (State.takeEntry s a2 a3) := by
  unfold State.takeEntry
  with_reducible repeat' (first
      | assumption | apply calm_modPort | apply calm_combineAll | apply calm_id | apply calm_foldl | apply calm_foldr
      | apply calm_ite | split | intro _ | dsimp only)

theorem calm_beginPacket {s₀ : State} {s : State} {a2 : Nat} {a3 : QEntry} {a4 : Nat} {a5 : Tbl Nat} (h1 : Calm s₀ s) : Calm s₀ (State.beginPacket s a2 a3 a4 a5) := by
  unfold State.beginPacket
  with_reducible repeat' (first
      | assumption | apply calm_modPort | apply calm_takeEntry | apply calm_event | apply calm_bandwidthBytes | apply calm_id
      | apply calm_foldl | apply calm_foldr | apply calm_ite | split | intro _ | dsimp only)

theorem calm_endRecall {s₀ : State} {s : State} {a2 : Nat} {a3 : DirEntry} {a4 : Trans} {a5 : Bool} (h1 : Calm s₀ s) : Calm s₀ (State.endRecall s a2 a3 a4 a5) := by
  unfold State.endRecall
  with_reducible repeat' (first
      | assumption | apply calm_afterLine | apply calm_completePending | apply calm_id | apply calm_foldl | apply calm_foldr
      | apply calm_ite | split | intro _ | dsimp only)

theorem calm_biResponse {s₀ : State} {s : State} {a2 : Nat} {a3 : Nat} {a4 : Nat} (h1 : Calm s₀ s) : Calm s₀ (State.biResponse s a2 a3 a4) := by
  unfold State.biResponse
  with_reducible repeat' (first
      | assumption | apply calm_lineErr | apply calm_endRecall | apply calm_afterLine | apply calm_checkRound | apply calm_setEntry
      | apply calm_id | apply calm_foldl | apply calm_foldr | apply calm_ite | split | intro _ | dsimp only)

theorem calm_nandPut {s₀ : State} {s : State} {a2 : Nat} {a3 : Nat} {a4 : Nat} {a5 : Option Nat} {a6 : LoftBlock} (h1 : Calm s₀ s) : Calm s₀ (State.nandPut s a2 a3 a4 a5 a6) := by
  unfold State.nandPut
  with_reducible repeat' (first
      | assumption | apply calm_modLoft | apply calm_id | apply calm_foldl | apply calm_foldr | apply calm_ite | split | intro _
      | dsimp only)

theorem calm_setLoftPlace {s₀ : State} {s : State} {a2 : Nat} {a3 : Option LoftPlace} (h1 : Calm s₀ s) : Calm s₀ (State.setLoftPlace s a2 a3) := by
  unfold State.setLoftPlace
  with_reducible repeat' (first
      | assumption | apply calm_modLoft | apply calm_id | apply calm_foldl | apply calm_foldr | apply calm_ite | split | intro _
      | dsimp only)

theorem calm_channelAnswers {s₀ : State} {s : State} {a2 : Nat} (h1 : Calm s₀ s) : Calm s₀ (State.channelAnswers s a2) := by
  unfold State.channelAnswers
  with_reducible repeat' (first
      | assumption | apply calm_modLoft | apply calm_id | apply calm_foldl | apply calm_foldr | apply calm_ite | split | intro _
      | dsimp only)

theorem calm_channelBlock {s₀ : State} {s : State} {a2 : Nat} {a3 : Nat} {a4 : Nat} {a5 : Nat} (h1 : Calm s₀ s) : Calm s₀ (State.channelBlock s a2 a3 a4 a5) := by
  unfold State.channelBlock
  with_reducible repeat' (first
      | assumption | apply calm_bandwidthBytes | apply calm_event | apply calm_id | apply calm_foldl | apply calm_foldr
      | apply calm_ite | split | intro _ | dsimp only)

theorem calm_blockDone {s₀ : State} {s : State} {a2 : Nat} {a3 : Nat} {a4 : Nat} {a5 : Bool} {a6 : Staged} (h1 : Calm s₀ s) : Calm s₀ (State.blockDone s a2 a3 a4 a5 a6) := by
  unfold State.blockDone
  with_reducible repeat' (first
      | assumption | apply calm_modLoft | apply calm_nandPut | apply calm_setLoftPlace | apply calm_channelAnswers
      | apply calm_channelBlock | apply calm_id | apply calm_foldl | apply calm_foldr | apply calm_ite | split | intro _
      | dsimp only)

theorem calm_segDone {s₀ : State} {s : State} {a2 : Nat} {a3 : Cmd} {a4 : Nat} {a5 : Nat} {a6 : Bool} {a7 : Nat} (h1 : Calm s₀ s) : Calm s₀ (State.segDone s a2 a3 a4 a5 a6 a7) := by
  unfold State.segDone
  with_reducible repeat' (first
      | assumption | apply calm_setAux | apply calm_id | apply calm_foldl | apply calm_foldr | apply calm_ite | split | intro _
      | dsimp only)

theorem calm_segUsed {s₀ : State} {s : State} {a2 : Nat} {a3 : Cmd} (h1 : Calm s₀ s) : Calm s₀ (State.segUsed s a2 a3) := by
  unfold State.segUsed
  with_reducible repeat' (first
      | assumption | apply calm_modFab | apply calm_id | apply calm_foldl | apply calm_foldr | apply calm_ite | split | intro _
      | dsimp only)

theorem calm_giveRoom {s₀ : State} {s : State} (h1 : Calm s₀ s) : Calm s₀ (State.giveRoom s) := by
  unfold State.giveRoom
  with_reducible repeat' (first
      | assumption | apply calm_modLoft | apply calm_id | apply calm_foldl | apply calm_foldr | apply calm_ite | split | intro _
      | dsimp only)

theorem calm_wakeLoft {s₀ : State} {s : State} (h1 : Calm s₀ s) : Calm s₀ (State.wakeLoft s) := by
  unfold State.wakeLoft
  with_reducible repeat' (first
      | assumption | apply calm_wakeNow | apply calm_id | apply calm_foldl | apply calm_foldr | apply calm_ite | split | intro _
      | dsimp only)

theorem calm_loftAsk {s₀ : State} {s : State} {a2 : Nat} {a3 : Cmd} {a4 : Nat} {a5 : Nat} {a6 : Nat} {a7 : Option LoftBlock} (h1 : Calm s₀ s) : Calm s₀ (State.loftAsk s a2 a3 a4 a5 a6 a7) := by
  unfold State.loftAsk
  with_reducible repeat' (first
      | assumption | apply calm_giveRoom | apply calm_modLoft | apply calm_wakeLoft | apply calm_id | apply calm_foldl
      | apply calm_foldr | apply calm_ite | split | intro _ | dsimp only)

theorem calm_segSource {s₀ : State} {s : State} {a2 : Nat} {a3 : Cmd} {a4 : Nat} {r0} {t} (e : State.segSource s a2 a3 a4 = (r0, t)) (h1 : Calm s₀ s) : Calm s₀ t := by
  unfold State.segSource at e
  repeat' (first | (split at e) | (dsimp only at e))
  all_goals (first | (cases e) | (simp only [Option.map_eq_some_iff] at e; obtain ⟨_, _, rfl⟩ := e) | (simp only [Option.some.injEq, Prod.mk.injEq] at e; obtain ⟨_, rfl⟩ := e) | (simp only [Option.some.injEq, Prod.mk.injEq] at e; subst e) | skip)
  all_goals with_reducible repeat' (first
      | assumption | apply calm_loftAsk | apply calm_countRead | apply calm_askLine | apply calm_id | apply calm_foldl
      | apply calm_foldr | apply calm_ite | split | intro _ | dsimp only)

theorem calm_segSource' {s₀ : State} {s : State} {a2 : Nat} {a3 : Cmd} {a4 : Nat} (h1 : Calm s₀ s) : Calm s₀ (State.segSource s a2 a3 a4).2 :=
  calm_segSource (e := (Prod.eta _).symm) h1

theorem calm_gather {s₀ s : State} {a2 : Nat} {a3 : Cmd} {a4 a5 : Nat} {r0} {t} (e : State.gather s a2 a3 a4 a5 = (r0, t)) (h1 : Calm s₀ s) :
    Calm s₀ t := by
  induction a5 generalizing s a4 r0 t with
  | zero => unfold State.gather at e; cases e; exact h1
  | succ n ih => unfold State.gather at e; cases e; exact ih (Prod.eta _).symm (calm_segSource' h1)

theorem calm_gather' {s₀ s : State} {a2 : Nat} {a3 : Cmd} {a4 a5 : Nat} (h1 : Calm s₀ s) : Calm s₀ (State.gather s a2 a3 a4 a5).2 :=
  calm_gather (e := (Prod.eta _).symm) h1


theorem calm_blockToLoft {s₀ : State} {s : State} {a2 : Nat} {a3 : Cmd} (h1 : Calm s₀ s) : Calm s₀ (State.blockToLoft s a2 a3) := by
  unfold State.blockToLoft
  with_reducible repeat' (first
      | assumption | apply calm_segDone | apply calm_setLoftPlace | refine calm_takeArrival (by assumption) ?_ | apply calm_segUsed
      | apply calm_event | refine calm_gather (by assumption) ?_ | apply calm_gather' | apply calm_loftAsk | apply calm_setAux
      | apply calm_id | apply calm_foldl | apply calm_foldr | apply calm_ite | split | intro _ | dsimp only)

theorem calm_measure {s₀ : State} {s : State} {a2 : List Nat} (h1 : Calm s₀ s) : Calm s₀ (State.measure s a2) := by
  unfold State.measure
  with_reducible repeat' (first
      | assumption | apply calm_extend | apply calm_id | apply calm_foldl | apply calm_foldr | apply calm_ite | split | intro _
      | dsimp only)

theorem calm_fellBack {s₀ : State} {s : State} {a2 : Nat} {a3 : Nat} (h1 : Calm s₀ s) : Calm s₀ (State.fellBack s a2 a3) := by
  unfold State.fellBack
  with_reducible repeat' (first
      | assumption | apply calm_setRegF | apply calm_cause | apply calm_report | apply calm_id | apply calm_foldl
      | apply calm_foldr | apply calm_ite | split | intro _ | dsimp only)

theorem calm_setLeaf {s₀ : State} {s : State} {a2 : Nat} (h1 : Calm s₀ s) : Calm s₀ (State.setLeaf s a2) := by
  unfold State.setLeaf
  with_reducible repeat' (first
      | assumption | apply calm_setReg64 | apply calm_modBoot | apply calm_id | apply calm_foldl | apply calm_foldr
      | apply calm_ite | split | intro _ | dsimp only)

theorem calm_leafLow {s₀ : State} {s : State} (h1 : Calm s₀ s) : Calm s₀ (State.leafLow s) := by
  unfold State.leafLow
  with_reducible repeat' (first
      | assumption | apply calm_cause | apply calm_report | apply calm_id | apply calm_foldl | apply calm_foldr | apply calm_ite
      | split | intro _ | dsimp only)

theorem calm_restoreQuarantine {s₀ : State} {s : State} (h1 : Calm s₀ s) : Calm s₀ (State.restoreQuarantine s) := by
  unfold State.restoreQuarantine
  with_reducible repeat' (first
      | assumption | apply calm_setRegF | apply calm_id | apply calm_foldl | apply calm_foldr | apply calm_ite | split | intro _
      | dsimp only)

theorem calm_findNand {s₀ : State} {s : State} {a2 : Fin 18} {a3 : FittedNand} {a4 : Bool} (h1 : Calm s₀ s) : Calm s₀ (State.findNand s a2 a3 a4) := by
  unfold State.findNand
  with_reducible repeat' (first
      | assumption | apply calm_setRegF | apply calm_setRegN | apply calm_modLoft | apply calm_id | apply calm_foldl
      | apply calm_foldr | apply calm_ite | split | intro _ | dsimp only)

theorem calm_showRebuild {s₀ : State} {s : State} (h1 : Calm s₀ s) : Calm s₀ (State.showRebuild s) := by
  unfold State.showRebuild
  with_reducible repeat' (first
      | assumption | apply calm_setReg64 | apply calm_id | apply calm_foldl | apply calm_foldr | apply calm_ite | split | intro _
      | dsimp only)

theorem calm_tallyPreemptChannel {s₀ : State} {s : State} {a2 : Nat} (h1 : Calm s₀ s) : Calm s₀ (State.tallyPreemptChannel s a2) := by
  unfold State.tallyPreemptChannel
  with_reducible repeat' (first
      | assumption | apply calm_tallyPreempt | apply calm_id | apply calm_foldl | apply calm_foldr | apply calm_ite | split
      | intro _ | dsimp only)

theorem calm_channelDead {s₀ : State} {s : State} {a2 : Nat} {a3 : Nat} (h1 : Calm s₀ s) : Calm s₀ (State.channelDead s a2 a3) := by
  unfold State.channelDead
  with_reducible repeat' (first
      | assumption | apply calm_cause | apply calm_setRegF | apply calm_report | apply calm_showRebuild | apply calm_modLoft
      | apply calm_tallyPreemptChannel | apply calm_id | apply calm_foldl | apply calm_foldr | apply calm_ite | split | intro _
      | dsimp only)

theorem calm_trainLoft {s₀ : State} {s : State} {a2 : List (Fin 18 × FittedNand)} {a3 : Nat} {a4 : List (Fin 18)} (h1 : Calm s₀ s) : Calm s₀ (State.trainLoft s a2 a3 a4) := by
  unfold State.trainLoft
  with_reducible repeat' (first
      | assumption | apply calm_findNand | apply calm_setRegF | apply calm_channelDead | apply calm_id | apply calm_foldl
      | apply calm_foldr | apply calm_ite | split | intro _ | dsimp only)

theorem calm_linkEnable {s₀ : State} {s : State} {a2 : Nat} (h1 : Calm s₀ s) : Calm s₀ (State.linkEnable s a2) := by
  unfold State.linkEnable
  with_reducible repeat' (first
      | assumption | apply calm_tallyPreemptStacks | apply calm_tallyPreempt | apply calm_ftNeeds | apply calm_modPort
      | apply calm_authFail | apply calm_setLink | apply calm_id | apply calm_foldl | apply calm_foldr | apply calm_ite | split
      | intro _ | dsimp only)

theorem calm_linkUp {s₀ : State} {s : State} {a2 : Nat} {a3 : Trained} (h1 : Calm s₀ s) : Calm s₀ (State.linkUp s a2 a3) := by
  unfold State.linkUp
  with_reducible repeat' (first
      | assumption | apply calm_modPort | apply calm_setRegF | apply calm_setLink | apply calm_setRegN | apply calm_cause
      | apply calm_id | apply calm_foldl | apply calm_foldr | apply calm_ite | split | intro _ | dsimp only)

theorem calm_useLeaf {s₀ : State} {s : State} {r} {t : State} (e : State.useLeaf s = some (r, t)) (h1 : Calm s₀ s) : Calm s₀ t := by
  unfold State.useLeaf at e
  repeat' (first | (split at e) | (dsimp only at e))
  all_goals (first | (cases e) | (simp only [Option.map_eq_some_iff] at e; obtain ⟨_, _, rfl⟩ := e) | (simp only [Option.some.injEq, Prod.mk.injEq] at e; obtain ⟨_, rfl⟩ := e) | (simp only [Option.some.injEq, Prod.mk.injEq] at e; subst e) | skip)
  all_goals with_reducible repeat' (first
      | assumption | apply calm_setLeaf | apply calm_modBoot | apply calm_leafLow | apply calm_id | apply calm_foldl
      | apply calm_foldr | apply calm_ite | split | intro _ | dsimp only)

theorem calm_trainingPass {s₀ : State} {s : State} {a2 : Nat} {a3 : Trained} (h1 : Calm s₀ s) : Calm s₀ (State.trainingPass s a2 a3) := by
  unfold State.trainingPass
  with_reducible repeat' (first
      | assumption | apply calm_linkUp | refine calm_useLeaf (by assumption) ?_ | apply calm_authFail | apply calm_id
      | apply calm_foldl | apply calm_foldr | apply calm_ite | split | intro _ | dsimp only)

theorem calm_trainingFail {s₀ : State} {s : State} {a2 : Nat} (h1 : Calm s₀ s) : Calm s₀ (State.trainingFail s a2) := by
  unfold State.trainingFail
  with_reducible repeat' (first
      | assumption | apply calm_linkDown | apply calm_id | apply calm_foldl | apply calm_foldr | apply calm_ite | split | intro _
      | dsimp only)

theorem calm_trainPorts {s₀ : State} {s : State} {a2 : List (Fin 12 × Trained)} (h1 : Calm s₀ s) : Calm s₀ (State.trainPorts s a2) := by
  unfold State.trainPorts
  with_reducible repeat' (first
      | assumption | apply calm_setRegF | apply calm_linkEnable | apply calm_trainingPass | apply calm_trainingFail | apply calm_id
      | apply calm_foldl | apply calm_foldr | apply calm_ite | split | intro _ | dsimp only)

theorem calm_busWrite {s₀ : State} {s : State} {a2 : Requester} {a3 : Nat} {a4 : BitVec 4} {a5 : Nat → State → State} {a6 : Nat → CxlPart → Nat → State → State} (h1 : Calm s₀ s) (h5 : ∀ y0 y1, Calm s₀ y1 → Calm s₀ (a5 y0 y1)) (h6 : ∀ y0 y1 y2 y3, Calm s₀ y3 → Calm s₀ (a6 y0 y1 y2 y3)) : Calm s₀ (State.busWrite s a2 a3 a4 a5 a6) := by
  unfold State.busWrite
  with_reducible repeat' (first
      | assumption | apply calm_violateReg | apply calm_id | apply calm_foldl | apply calm_foldr | apply calm_ite | apply h5
      | apply h6 | split | intro _ | dsimp only)

theorem calm_setLevel {s₀ : State} {s : State} {a2 : Nat} {a3 : Nat} (h1 : Calm s₀ s) : Calm s₀ (State.setLevel s a2 a3) := by
  unfold State.setLevel
  with_reducible repeat' (first
      | assumption | apply calm_setRegF | apply calm_id | apply calm_foldl | apply calm_foldr | apply calm_ite | split | intro _
      | dsimp only)

theorem calm_showThrottle {s₀ : State} {s : State} (h1 : Calm s₀ s) : Calm s₀ (State.showThrottle s) := by
  unfold State.showThrottle
  with_reducible repeat' (first
      | assumption | apply calm_setRegF | apply calm_id | apply calm_foldl | apply calm_foldr | apply calm_ite | split | intro _
      | dsimp only)

theorem calm_powerCap {s₀ : State} {s : State} {a2 : Nat} (h1 : Calm s₀ s) : Calm s₀ (State.powerCap s a2) := by
  unfold State.powerCap
  with_reducible repeat' (first
      | assumption | apply calm_report | apply calm_id | apply calm_foldl | apply calm_foldr | apply calm_ite | split | intro _
      | dsimp only)

theorem calm_capTick {s₀ : State} {s : State} {a2 : Nat} {a3 : Bool} (h1 : Calm s₀ s) : Calm s₀ (State.capTick s a2 a3) := by
  unfold State.capTick
  with_reducible repeat' (first
      | assumption | apply calm_setLevel | apply calm_cause | apply calm_showThrottle | apply calm_powerCap | apply calm_id
      | apply calm_foldl | apply calm_foldr | apply calm_ite | split | intro _ | dsimp only | refine calm_mk ?_ rfl rfl)

theorem calm_checkIdle {s₀ : State} {s : State} (h1 : Calm s₀ s) : Calm s₀ (State.checkIdle s) := by
  unfold State.checkIdle
  with_reducible repeat' (first
      | assumption | apply calm_setRegF | apply calm_id | apply calm_foldl | apply calm_foldr | apply calm_ite | split | intro _
      | dsimp only)

theorem calm_modSuper {s₀ : State} {s : State} {a2 : Nat} {a3 : Super → Super} (h1 : Calm s₀ s) : Calm s₀ (State.modSuper s a2 a3) := by
  unfold State.modSuper
  with_reducible repeat' (first
      | assumption | apply calm_modLoft | apply calm_id | apply calm_foldl | apply calm_foldr | apply calm_ite | split | intro _
      | dsimp only)

theorem calm_loftMove {s₀ : State} {s : State} {a2 : Nat} {a3 : Nat} {a4 : Nat} {a5 : Nat} {a6 : Nat} {a7 : Option Nat} (h1 : Calm s₀ s) : Calm s₀ (State.loftMove s a2 a3 a4 a5 a6 a7) := by
  unfold State.loftMove
  with_reducible repeat' (first
      | assumption | apply calm_giveRoom | apply calm_modLoft | apply calm_wakeLoft | apply calm_id | apply calm_foldl
      | apply calm_foldr | apply calm_ite | split | intro _ | dsimp only)

theorem calm_collect {s₀ : State} {s : State} {a2 : Nat} {a3 : Nat} {a4 : Option Nat} (h1 : Calm s₀ s) : Calm s₀ (State.collect s a2 a3 a4) := by
  unfold State.collect
  with_reducible repeat' (first
      | assumption | apply calm_modSuper | apply calm_loftMove | apply calm_id | apply calm_foldl | apply calm_foldr
      | apply calm_ite | split | intro _ | dsimp only)

theorem calm_commitAck {s₀ : State} {s : State} {a2 : Nat} {a3 : Nat} (h1 : Calm s₀ s) : Calm s₀ (State.commitAck s a2 a3) := by
  unfold State.commitAck
  with_reducible repeat' (first
      | assumption | apply calm_sequenced | apply calm_modProposal | apply calm_id | apply calm_foldl | apply calm_foldr
      | apply calm_ite | split | intro _ | dsimp only)

theorem calm_endGenerations {s₀ : State} {s : State} {a2 : Nat} {a3 : Nat} {a4 : Bool} (h1 : Calm s₀ s) : Calm s₀ (State.endGenerations s a2 a3 a4) := by
  unfold State.endGenerations
  with_reducible repeat' (first
      | assumption | apply calm_modSync | apply calm_finish | apply calm_id | apply calm_foldl | apply calm_foldr | apply calm_ite
      | split | intro _ | dsimp only)

theorem calm_putSem {s₀ : State} {s : State} {a2 : Nat} {a3 : Sem} (h1 : Calm s₀ s) : Calm s₀ (State.putSem s a2 a3) := by
  unfold State.putSem
  with_reducible repeat' (first
      | assumption | apply calm_modSync | apply calm_id | apply calm_foldl | apply calm_foldr | apply calm_ite | split | intro _
      | dsimp only)

theorem calm_poisonSem {s₀ : State} {s : State} {a2 : Nat} {a3 : Nat} (h1 : Calm s₀ s) : Calm s₀ (State.poisonSem s a2 a3) := by
  unfold State.poisonSem
  with_reducible repeat' (first
      | assumption | apply calm_pcause | apply calm_count | apply calm_putSem | apply calm_id | apply calm_foldl | apply calm_foldr
      | apply calm_ite | split | intro _ | dsimp only)

theorem calm_semFind {s₀ : State} {s : State} {a2 : Nat} {a3 : Nat} {a4 : Fin 3} (h1 : Calm s₀ s) : Calm s₀ (State.semFind s a2 a3 a4) := by
  unfold State.semFind
  with_reducible repeat' (first
      | assumption | apply calm_poisonSem | apply calm_corrected | apply calm_id | apply calm_foldl | apply calm_foldr
      | apply calm_ite | split | intro _ | dsimp only)

theorem calm_semEvent {s₀ : State} {s : State} {a2 : Nat} {a3 : Nat} {a4 : Nat} (h1 : Calm s₀ s) : Calm s₀ (State.semEvent s a2 a3 a4) := by
  unfold State.semEvent
  with_reducible repeat' (first
      | assumption | apply calm_event | apply calm_id | apply calm_foldl | apply calm_foldr | apply calm_ite | split | intro _
      | dsimp only)

theorem calm_semAdd {s₀ : State} {s : State} {a2 : Nat} {a3 : Nat} {a4 : Nat} {t} {r1} (e : State.semAdd s a2 a3 a4 = (t, r1)) (h1 : Calm s₀ s) : Calm s₀ t := by
  unfold State.semAdd at e
  repeat' (first | (split at e) | (dsimp only at e))
  all_goals (first | (cases e) | (simp only [Option.map_eq_some_iff] at e; obtain ⟨_, _, rfl⟩ := e) | (simp only [Option.some.injEq, Prod.mk.injEq] at e; obtain ⟨_, rfl⟩ := e) | (simp only [Option.some.injEq, Prod.mk.injEq] at e; subst e) | skip)
  all_goals with_reducible repeat' (first
      | assumption | apply calm_semEvent | apply calm_pcause | apply calm_count | apply calm_putSem | apply calm_id
      | apply calm_foldl | apply calm_foldr | apply calm_ite | split | intro _ | dsimp only)

theorem calm_semAdd' {s₀ : State} {s : State} {a2 : Nat} {a3 : Nat} {a4 : Nat} (h1 : Calm s₀ s) : Calm s₀ (State.semAdd s a2 a3 a4).1 :=
  calm_semAdd (e := (Prod.eta _).symm) h1

theorem calm_semSet {s₀ : State} {s : State} {a2 : Nat} {a3 : Nat} {a4 : Nat} {t} {r1} (e : State.semSet s a2 a3 a4 = (t, r1)) (h1 : Calm s₀ s) : Calm s₀ t := by
  unfold State.semSet at e
  repeat' (first | (split at e) | (dsimp only at e))
  all_goals (first | (cases e) | (simp only [Option.map_eq_some_iff] at e; obtain ⟨_, _, rfl⟩ := e) | (simp only [Option.some.injEq, Prod.mk.injEq] at e; obtain ⟨_, rfl⟩ := e) | (simp only [Option.some.injEq, Prod.mk.injEq] at e; subst e) | skip)
  all_goals with_reducible repeat' (first
      | assumption | apply calm_putSem | apply calm_semEvent | apply calm_id | apply calm_foldl | apply calm_foldr | apply calm_ite
      | split | intro _ | dsimp only)

theorem calm_semSet' {s₀ : State} {s : State} {a2 : Nat} {a3 : Nat} {a4 : Nat} (h1 : Calm s₀ s) : Calm s₀ (State.semSet s a2 a3 a4).1 :=
  calm_semSet (e := (Prod.eta _).symm) h1

theorem calm_runSem {s₀ : State} {s : State} {a2 : Packet} {a3 : Nat} {a4 : Fin 3} (h1 : Calm s₀ s) : Calm s₀ (State.runSem s a2 a3 a4) := by
  unfold State.runSem
  with_reducible repeat' (first
      | assumption | apply calm_semFind | refine calm_semAdd (by assumption) ?_ | apply calm_semAdd' | apply calm_endRequest
      | refine calm_semSet (by assumption) ?_ | apply calm_semSet' | apply calm_id | apply calm_foldl | apply calm_foldr
      | apply calm_ite | split | intro _ | dsimp only)

theorem calm_enterLast {s₀ : State} {s : State} {a2 : Nat} {a3 : Nat} {a4 : Barrier} {a5 : List Nat} {a6 : Nat} {t} {r1} (e : State.enterLast s a2 a3 a4 a5 a6 = (t, r1)) (h1 : Calm s₀ s) : Calm s₀ t := by
  unfold State.enterLast at e
  repeat' (first | (split at e) | (dsimp only at e))
  all_goals (first | (cases e) | (simp only [Option.map_eq_some_iff] at e; obtain ⟨_, _, rfl⟩ := e) | (simp only [Option.some.injEq, Prod.mk.injEq] at e; obtain ⟨_, rfl⟩ := e) | (simp only [Option.some.injEq, Prod.mk.injEq] at e; subst e) | skip)
  all_goals with_reducible repeat' (first
      | assumption | apply calm_pcause | apply calm_setRegN | apply calm_count | apply calm_id | apply calm_foldl
      | apply calm_foldr | apply calm_ite | split | intro _ | dsimp only)

theorem calm_enterLast' {s₀ : State} {s : State} {a2 : Nat} {a3 : Nat} {a4 : Barrier} {a5 : List Nat} {a6 : Nat} (h1 : Calm s₀ s) : Calm s₀ (State.enterLast s a2 a3 a4 a5 a6).1 :=
  calm_enterLast (e := (Prod.eta _).symm) h1

theorem calm_setBarrier {s₀ : State} {s : State} {a2 : Nat} {a3 : Barrier} (h1 : Calm s₀ s) : Calm s₀ (State.setBarrier s a2 a3) := by
  unfold State.setBarrier
  with_reducible repeat' (first
      | assumption | apply calm_modSync | apply calm_id | apply calm_foldl | apply calm_foldr | apply calm_ite | split | intro _
      | dsimp only)

theorem calm_releaseBarrier {s₀ : State} {s : State} {a2 : Nat} {a3 : Nat} {a4 : Comp} {a5 : Barrier} (h1 : Calm s₀ s) : Calm s₀ (State.releaseBarrier s a2 a3 a4 a5) := by
  unfold State.releaseBarrier
  with_reducible repeat' (first
      | assumption | refine calm_enterLast (by assumption) ?_ | apply calm_enterLast' | apply calm_setBarrier
      | apply calm_sendOrLose | apply calm_id | apply calm_foldl | apply calm_foldr | apply calm_ite | split | intro _ | dsimp only)

theorem calm_runArrive {s₀ : State} {s : State} {a2 : Packet} {a3 : Comp} (h1 : Calm s₀ s) : Calm s₀ (State.runArrive s a2 a3) := by
  unfold State.runArrive
  with_reducible repeat' (first
      | assumption | apply calm_refuseStale | apply calm_endRequest | apply calm_releaseBarrier | apply calm_setBarrier
      | apply calm_id | apply calm_foldl | apply calm_foldr | apply calm_ite | split | intro _ | dsimp only)

theorem calm_runRelease {s₀ : State} {s : State} {a2 : Packet} {a3 : Nat} (h1 : Calm s₀ s) : Calm s₀ (State.runRelease s a2 a3) := by
  unfold State.runRelease
  with_reducible repeat' (first
      | assumption | apply calm_endRequest | apply calm_setSide | apply calm_finish | apply calm_id | apply calm_foldl
      | apply calm_foldr | apply calm_ite | split | intro _ | dsimp only)

theorem calm_putVote {s₀ : State} {s : State} {a2 : Nat} {a3 : Nat} {a4 : Nat} {a5 : Nat} (h1 : Calm s₀ s) : Calm s₀ (State.putVote s a2 a3 a4 a5) := by
  unfold State.putVote
  with_reducible repeat' (first
      | assumption | apply calm_count | apply calm_modSync | apply calm_id | apply calm_foldl | apply calm_foldr | apply calm_ite
      | split | intro _ | dsimp only)

theorem calm_decideVote {s₀ : State} {s : State} {a2 : Nat} {a3 : Cmd} (h1 : Calm s₀ s) : Calm s₀ (State.decideVote s a2 a3) := by
  unfold State.decideVote
  with_reducible repeat' (first
      | assumption | apply calm_modSync | apply calm_storeAll | apply calm_pcause | apply calm_setRegN | apply calm_endCmd
      | apply calm_id | apply calm_foldl | apply calm_foldr | apply calm_ite | split | intro _ | dsimp only)

theorem calm_tryVote {s₀ : State} {s : State} {a2 : Nat} {a3 : Cmd} (h1 : Calm s₀ s) : Calm s₀ (State.tryVote s a2 a3) := by
  unfold State.tryVote
  with_reducible repeat' (first
      | assumption | apply calm_decideVote | apply calm_id | apply calm_foldl | apply calm_foldr | apply calm_ite | split | intro _
      | dsimp only)

theorem calm_runVote {s₀ : State} {s : State} {a2 : Packet} {a3 : Nat} (h1 : Calm s₀ s) : Calm s₀ (State.runVote s a2 a3) := by
  unfold State.runVote
  with_reducible repeat' (first
      | assumption | apply calm_endRequest | apply calm_putVote | apply calm_tryVote | apply calm_id | apply calm_foldl
      | apply calm_foldr | apply calm_ite | split | intro _ | dsimp only)

theorem calm_runSync {s₀ : State} {s : State} {a2 : Packet} {a3 : Fin 3} (h1 : Calm s₀ s) : Calm s₀ (State.runSync s a2 a3) := by
  unfold State.runSync
  with_reducible repeat' (first
      | assumption | apply calm_runSem | apply calm_runArrive | apply calm_runRelease | apply calm_runVote | apply calm_id
      | apply calm_foldl | apply calm_foldr | apply calm_ite | split | intro _ | dsimp only)

theorem calm_judgeSync {s₀ : State} {s : State} {a2 : Packet} {a3 : Fin 3} (h1 : Calm s₀ s) : Calm s₀ (State.judgeSync s a2 a3) := by
  unfold State.judgeSync
  with_reducible repeat' (first
      | assumption | apply calm_refuseStale | apply calm_modSync | apply calm_endRequest | apply calm_violateMem
      | apply calm_runSync | apply calm_id | apply calm_foldl | apply calm_foldr | apply calm_ite | split | intro _ | dsimp only)

theorem calm_recheckHeld {s₀ : State} {s : State} {a2 : Nat} (h1 : Calm s₀ s) : Calm s₀ (State.recheckHeld s a2) := by
  unfold State.recheckHeld
  with_reducible repeat' (first
      | assumption | apply calm_modSync | apply calm_judge | apply calm_judgeSync | apply calm_id | apply calm_foldl
      | apply calm_foldr | apply calm_ite | split | intro _ | dsimp only)

theorem calm_commitComp {s₀ : State} {s : State} {a2 : Nat} {a3 : Prepared} (h1 : Calm s₀ s) : Calm s₀ (State.commitComp s a2 a3) := by
  unfold State.commitComp
  with_reducible repeat' (first
      | assumption | apply calm_setPrepared | apply calm_endGenerations | apply calm_forgetBarriers | apply calm_setComp
      | apply calm_purgeComp | apply calm_showComp | apply calm_pcause | apply calm_recheckHeld | apply calm_id | apply calm_foldl
      | apply calm_foldr | apply calm_ite | split | intro _ | dsimp only)

theorem calm_modIndex {s₀ : State} {s : State} {a2 : Nat} {a3 : Cmd} {a4 : VecIndex → VecIndex} (h1 : Calm s₀ s) : Calm s₀ (State.modIndex s a2 a3 a4) := by
  unfold State.modIndex
  with_reducible repeat' (first
      | assumption | apply calm_setIndex | apply calm_id | apply calm_foldl | apply calm_foldr | apply calm_ite | split | intro _
      | dsimp only)

theorem calm_modHub {s₀ : State} {s : State} {a2 : Nat} {a3 : Cmd} {a4 : VecIndex → VecIndex} (h1 : Calm s₀ s) : Calm s₀ (State.modHub s a2 a3 a4) := by
  unfold State.modHub
  with_reducible repeat' (first
      | assumption | apply calm_indexBack | apply calm_modIndex | apply calm_id | apply calm_foldl | apply calm_foldr
      | apply calm_ite | split | intro _ | dsimp only)

theorem calm_whenReadable {s₀ : State} {s : State} {a2 : List Nat} {a3 : State → State} (h1 : Calm s₀ s) (h3 : ∀ y0, Calm s₀ y0 → Calm s₀ (a3 y0)) : Calm s₀ (State.whenReadable s a2 a3) := by
  unfold State.whenReadable
  with_reducible repeat' (first
      | assumption | apply calm_t1Find | apply calm_checkBits | apply calm_wantAll | apply calm_id | apply calm_foldl
      | apply calm_foldr | apply calm_ite | apply h3 | split | intro _ | dsimp only)

theorem calm_loftForget {s₀ : State} {s : State} {a2 : Nat} {a3 : Cmd} (h1 : Calm s₀ s) : Calm s₀ (State.loftForget s a2 a3) := by
  unfold State.loftForget
  with_reducible repeat' (first
      | assumption | apply calm_modFab | apply calm_modLoft | apply calm_id | apply calm_foldl | apply calm_foldr | apply calm_ite
      | split | intro _ | dsimp only)

theorem calm_compactDone {s₀ : State} {s : State} {a2 : Nat} {a3 : Cmd} {a4 : VecIndex} {a5 : Nat} {a6 : Nat} (h1 : Calm s₀ s) : Calm s₀ (State.compactDone s a2 a3 a4 a5 a6) := by
  unfold State.compactDone
  with_reducible repeat' (first
      | assumption | apply calm_modHub | apply calm_postBytes | apply calm_whenReadable | apply calm_rowEnd | apply calm_loftForget
      | apply calm_pcause | apply calm_id | apply calm_foldl | apply calm_foldr | apply calm_ite | split | intro _ | dsimp only)

theorem calm_contribute {s₀ : State} {s : State} {a2 : Nat} {a3 : Cmd} (h1 : Calm s₀ s) : Calm s₀ (State.contribute s a2 a3) := by
  unfold State.contribute
  with_reducible repeat' (first
      | assumption | apply calmw_bind | apply calmw_pure | apply calmw_mapM | apply calmw_forM | apply calmw_ite | apply calm_id
      | apply calm_rowEnd | apply calm_work | apply calm_Work_readVa | apply calm_Work_next | apply calm_Work_resolve
      | apply calm_cmdAtomic | apply calm_pcause | apply calm_setAux | apply calm_Work_act | apply calm_storeAll
      | apply calm_Work_settled | apply calm_id | apply calm_foldl | apply calm_foldr | apply calm_ite | split | intro _
      | dsimp only)

theorem calm_copyLine {s₀ : State} {s : State} {a2 : Nat} {a3 : Mirror} {a4 : Nat} (h1 : Calm s₀ s) : Calm s₀ (State.copyLine s a2 a3 a4) := by
  unfold State.copyLine
  with_reducible repeat' (first
      | assumption | refine calm_send (by assumption) ?_ | apply calm_mirrorUnreachable | apply calm_id | apply calm_foldl
      | apply calm_foldr | apply calm_ite | split | intro _ | dsimp only | refine calm_mk ?_ rfl rfl)

theorem calm_whenReady {s₀ : State} {s : State} {a2 : Agent} {a3 : Bool} {a4 : List (Nat × Nat)} {a5 : State → State} (h1 : Calm s₀ s) (h5 : ∀ y0, Calm s₀ y0 → Calm s₀ (a5 y0)) : Calm s₀ (State.whenReady s a2 a3 a4 a5) := by
  unfold State.whenReady
  with_reducible repeat' (first
      | assumption | apply calm_modFab | apply calm_askLine | apply calm_id | apply calm_foldl | apply calm_foldr | apply calm_ite
      | apply h5 | split | intro _ | dsimp only)

theorem calm_l1dPut {s₀ : State} {s : State} {a2 : Nat} {a3 : Cmd} {a4 : Nat} {a5 : DLine} (h1 : Calm s₀ s) : Calm s₀ (State.l1dPut s a2 a3 a4 a5) := by
  unfold State.l1dPut
  with_reducible repeat' (first
      | assumption | refine calm_choose (by assumption) ?_ | apply calm_choose' | apply calm_cleanLines | apply calm_modCore
      | apply calm_id | apply calm_foldl | apply calm_foldr | apply calm_ite | split | intro _ | dsimp only)

theorem calm_coreFill {s₀ : State} {s : State} {a2 : Nat} {a3 : Cmd} {a4 : Nat} {a5 : Nat} {a6 : Nat} {a7 : Nat} {a8 : DLine → State → State} (h1 : Calm s₀ s) (h8 : ∀ y0 y1, Calm s₀ y1 → Calm s₀ (a8 y0 y1)) : Calm s₀ (State.coreFill s a2 a3 a4 a5 a6 a7 a8) := by
  unfold State.coreFill
  with_reducible repeat' (first
      | assumption | apply calm_violateMem | apply calm_whenReady | refine calm_fetch (by assumption) ?_ | apply calm_fetch'
      | apply calm_gcEnd | apply calm_unlessEnding | apply calm_l1dPut | apply calm_event | apply calm_id | apply calm_foldl
      | apply calm_foldr | apply calm_ite | apply h8 | split | intro _ | dsimp only)

theorem calm_coreLine {s₀ : State} {s : State} {a2 : Nat} {a3 : Cmd} {a4 : Nat} {a5 : Nat} {a6 : Nat} {a7 : Nat} {a8 : DLine → State → State} (h1 : Calm s₀ s) (h8 : ∀ y0 y1, Calm s₀ y1 → Calm s₀ (a8 y0 y1)) : Calm s₀ (State.coreLine s a2 a3 a4 a5 a6 a7 a8) := by
  unfold State.coreLine
  with_reducible repeat' (first
      | assumption | apply calm_l1dLost | apply calm_coreFill | apply calm_l1Fixed | apply calm_modCore | apply calm_id
      | apply calm_foldl | apply calm_foldr | apply calm_ite | apply h8 | split | intro _ | dsimp only)

theorem calm_inSpace {s₀ : State} {s : State} {a2 : Nat} {a3 : Cmd} {a4 : Nat} {a5 : Nat} {a6 : Nat} {a7 : Nat} {a8 : State → State} (h1 : Calm s₀ s) (h8 : ∀ y0, Calm s₀ y0 → Calm s₀ (a8 y0)) : Calm s₀ (State.inSpace s a2 a3 a4 a5 a6 a7 a8) := by
  unfold State.inSpace
  with_reducible repeat' (first
      | assumption | apply calm_raiseFault | apply calm_id | apply calm_foldl | apply calm_foldr | apply calm_ite | apply h8
      | split | intro _ | dsimp only)

theorem calm_issueAll {s₀ : State} {s : State} {a2 : Nat} {a3 : Cmd} {a4 : Nat} {a5 : Nat} {a6 : List (Nat × Nat)}
    {a7 : List (Nat × Nat × Nat) → State → State} (h1 : Calm s₀ s) (h7 : ∀ y0 y1, Calm s₀ y1 → Calm s₀ (a7 y0 y1)) :
    Calm s₀ (State.issueAll s a2 a3 a4 a5 a6 a7) := by
  induction a6 generalizing s a7 with
  | nil => unfold State.issueAll; exact h7 _ _ h1
  | cons x l ih =>
    obtain ⟨va, n⟩ := x
    unfold State.issueAll
    split
    · next e => exact calm_issue_stop e h1
    · next e => exact ih (calm_issue_ok e h1) (fun _ y hy => h7 _ y hy)


theorem calm_readParts {s₀ : State} {s : State} {a2 : Nat} {a3 : Cmd} {a4 : Nat} {a5 : List (Nat × Nat × Nat)} {a6 : Nat → Bool → State → State} (h1 : Calm s₀ s) (h6 : ∀ y0 y1 y2, Calm s₀ y2 → Calm s₀ (a6 y0 y1 y2)) : Calm s₀ (State.readParts s a2 a3 a4 a5 a6) := by
  induction a5 generalizing s a2 a3 a4 a6 h1 h6 with
  | nil =>
    unfold State.readParts
    with_reducible repeat' (first
      | assumption | apply calm_coreLine | apply calm_id | apply calm_foldl | apply calm_foldr | apply calm_ite | apply h6 | split
      | intro _ | dsimp only)
  | cons _ _ ih =>
    unfold State.readParts
    with_reducible repeat' (first
      | assumption | apply calm_coreLine | apply calm_id | apply calm_foldl | apply calm_foldr | apply calm_ite | apply h6 | split
      | intro _ | dsimp only | apply ih)

theorem calm_coreRead {s₀ : State} {s : State} {a2 : Nat} {a3 : Cmd} {a4 : Nat} {a5 : Nat} {a6 : Nat} {a7 : Nat → State → State} (h1 : Calm s₀ s) (h7 : ∀ y0 y1, Calm s₀ y1 → Calm s₀ (a7 y0 y1)) : Calm s₀ (State.coreRead s a2 a3 a4 a5 a6 a7) := by
  unfold State.coreRead
  with_reducible repeat' (first
      | assumption | apply calm_inSpace | apply calm_issueAll | apply calm_readParts | apply calm_gcEnd | apply calm_id
      | apply calm_foldl | apply calm_foldr | apply calm_ite | apply h7 | split | intro _ | dsimp only)

theorem calm_putL1 {s₀ : State} {s : State} {a2 : Nat} {a3 : Nat} {a4 : Nat} {a5 : Nat} (h1 : Calm s₀ s) : Calm s₀ (State.putL1 s a2 a3 a4 a5) := by
  unfold State.putL1
  with_reducible repeat' (first
      | assumption | apply calm_modCore | apply calm_id | apply calm_foldl | apply calm_foldr | apply calm_ite | split | intro _
      | dsimp only)

theorem calm_writeParts {s₀ : State} {s : State} {a2 : Nat} {a3 : Cmd} {a4 : Nat} {a5 : List (Nat × Nat × Nat)} {a6 : Nat}
    {a7 : State → State} (h1 : Calm s₀ s) (h7 : ∀ y0, Calm s₀ y0 → Calm s₀ (a7 y0)) : Calm s₀ (State.writeParts s a2 a3 a4 a5 a6 a7) := by
  induction a5 generalizing s a6 with
  | nil => unfold State.writeParts; exact h7 _ h1
  | cons x l ih =>
    obtain ⟨va, phys, n⟩ := x
    unfold State.writeParts
    exact calm_coreLine h1 (fun _ y hy => ih (calm_putL1 hy))


theorem calm_coreWrite {s₀ : State} {s : State} {a2 : Nat} {a3 : Cmd} {a4 : Nat} {a5 : Nat} {a6 : Nat} {a7 : Nat} {a8 : State → State} (h1 : Calm s₀ s) (h8 : ∀ y0, Calm s₀ y0 → Calm s₀ (a8 y0)) : Calm s₀ (State.coreWrite s a2 a3 a4 a5 a6 a7 a8) := by
  unfold State.coreWrite
  with_reducible repeat' (first
      | assumption | apply calm_inSpace | apply calm_issueAll | apply calm_writeParts | apply calm_id | apply calm_foldl
      | apply calm_foldr | apply calm_ite | apply h8 | split | intro _ | dsimp only)

theorem calm_countCycles {s₀ : State} {s : State} {a2 : Nat} (h1 : Calm s₀ s) : Calm s₀ (State.countCycles s a2) := by
  unfold State.countCycles
  with_reducible repeat' (first
      | assumption | apply calm_setReg64 | apply calm_id | apply calm_foldl | apply calm_foldr | apply calm_ite | split | intro _
      | dsimp only)

theorem calm_modCrib {s₀ : State} {s : State} {a2 : Nat} {a3 : Crib → Crib} (h1 : Calm s₀ s) : Calm s₀ (State.modCrib s a2 a3) := by
  unfold State.modCrib
  with_reducible repeat' (first
      | assumption | apply calm_wakeNow | apply calm_setRegN | apply calm_id | apply calm_foldl | apply calm_foldr | apply calm_ite
      | split | intro _ | dsimp only | refine calm_mk ?_ rfl rfl)

theorem calm_cribDrop {s₀ : State} {s : State} {a2 : Nat} {a3 : Option Nat} (h1 : Calm s₀ s) : Calm s₀ (State.cribDrop s a2 a3) := by
  unfold State.cribDrop
  with_reducible repeat' (first
      | assumption | apply calm_modCrib | apply calm_id | apply calm_foldl | apply calm_foldr | apply calm_ite | split | intro _
      | dsimp only | refine calm_mk ?_ rfl rfl)

theorem calm_cxlRequest {s₀ : State} {s : State} {a2 : Nat} {a3 : Nat} {a4 : Bool} {a5 : Nat} {a6 : Nat} (h1 : Calm s₀ s) : Calm s₀ (State.cxlRequest s a2 a3 a4 a5 a6) := by
  unfold State.cxlRequest
  with_reducible repeat' (first
      | assumption | apply calm_event | apply calm_bandwidthBytes | apply calm_id | apply calm_foldl | apply calm_foldr
      | apply calm_ite | split | intro _ | dsimp only)

theorem calm_unitCycles {s₀ : State} {s : State} {a2 : UnitKind} {a3 : Nat} (h1 : Calm s₀ s) : Calm s₀ (State.unitCycles s a2 a3) := by
  unfold State.unitCycles
  with_reducible repeat' (first
      | assumption | refine calm_choose (by assumption) ?_ | apply calm_choose' | apply calm_event | apply calm_id
      | apply calm_foldl | apply calm_foldr | apply calm_ite | split | intro _ | dsimp only)

theorem calm_portCycles {s₀ : State} {s : State} {a2 : Nat} (h1 : Calm s₀ s) : Calm s₀ (State.portCycles s a2) := by
  unfold State.portCycles
  with_reducible repeat' (first
      | assumption | apply calm_event | apply calm_id | apply calm_foldl | apply calm_foldr | apply calm_ite | split | intro _
      | dsimp only)

theorem calm_queueCycles {s₀ : State} {s : State} (h1 : Calm s₀ s) : Calm s₀ (State.queueCycles s) := by
  unfold State.queueCycles
  with_reducible repeat' (first
      | assumption | apply calm_event | apply calm_id | apply calm_foldl | apply calm_foldr | apply calm_ite | split | intro _
      | dsimp only)

theorem calm_cycleCounters {s₀ : State} {s : State} (h1 : Calm s₀ s) : Calm s₀ (State.cycleCounters s) := by
  unfold State.cycleCounters
  with_reducible repeat' (first
      | assumption | apply calm_countCycles | apply calm_unitCycles | apply calm_portCycles | apply calm_queueCycles
      | apply calm_id | apply calm_foldl | apply calm_foldr | apply calm_ite | split | intro _ | dsimp only)

theorem calm_digestDone {s₀ : State} {s : State} {a2 : Nat} {a3 : Cmd} (h1 : Calm s₀ s) : Calm s₀ (State.digestDone s a2 a3) := by
  unfold State.digestDone
  with_reducible repeat' (first
      | assumption | apply calm_storeAll | apply calm_endCmd | apply calm_setAux | apply calm_unitSend | apply calm_tryVote
      | apply calm_id | apply calm_foldl | apply calm_foldr | apply calm_ite | split | intro _ | dsimp only)

theorem calm_dirUncorrectable {s₀ : State} {s : State} {a2 : Nat} (h1 : Calm s₀ s) : Calm s₀ (State.dirUncorrectable s a2) := by
  unfold State.dirUncorrectable
  with_reducible repeat' (first
      | assumption | apply calm_modHomes | apply calm_report | apply calm_cause | apply calm_count | apply calm_id
      | apply calm_foldl | apply calm_foldr | apply calm_ite | split | intro _ | dsimp only)

theorem calm_dirError {s₀ : State} {s : State} {a2 : Nat} {a3 : Fin 3} (h1 : Calm s₀ s) : Calm s₀ (State.dirError s a2 a3) := by
  unfold State.dirError
  with_reducible repeat' (first
      | assumption | apply calm_corrected | apply calm_count | apply calm_dirUncorrectable | apply calm_id | apply calm_foldl
      | apply calm_foldr | apply calm_ite | split | intro _ | dsimp only)

theorem calm_resetUnits {s₀ : State} {s : State} {a2 : Nat} (h1 : Calm s₀ s) : Calm s₀ (State.resetUnits s a2) := by
  unfold State.resetUnits
  with_reducible repeat' (first
      | assumption | apply calm_resetUnit | apply calm_id | apply calm_foldl | apply calm_foldr | apply calm_ite | split | intro _
      | dsimp only)

theorem calm_drainUnits {s₀ : State} {s : State} {a2 : Nat} (h1 : Calm s₀ s) : Calm s₀ (State.drainUnits s a2) := by
  unfold State.drainUnits
  with_reducible repeat' (first
      | assumption | apply calm_modPart | apply calm_resetUnits | apply calm_id | apply calm_foldl | apply calm_foldr
      | apply calm_ite | split | intro _ | dsimp only)

theorem calm_drawMany {s₀ s : State} {a2 : Nat} {r0} {t} (e : State.drawMany s a2 = (r0, t)) (h1 : Calm s₀ s) : Calm s₀ t := by
  induction a2 generalizing s r0 t with
  | zero => unfold State.drawMany at e; cases e; exact h1
  | succ n ih => unfold State.drawMany at e; cases e; exact ih (Prod.eta _).symm (calm_draw' h1)

theorem calm_drawMany' {s₀ s : State} {a2 : Nat} (h1 : Calm s₀ s) : Calm s₀ (State.drawMany s a2).2 :=
  calm_drawMany (e := (Prod.eta _).symm) h1


theorem calm_dropCoreResv {s₀ : State} {s : State} {a2 : Nat} (h1 : Calm s₀ s) : Calm s₀ (State.dropCoreResv s a2) := by
  unfold State.dropCoreResv
  with_reducible repeat' (first
      | assumption | apply calm_id | apply calm_foldl | apply calm_foldr | apply calm_ite | split | intro _ | dsimp only
      | refine calm_mk ?_ rfl rfl)

theorem calm_endForward {s₀ : State} {s : State} {a2 : Forward} (h1 : Calm s₀ s) : Calm s₀ (State.endForward s a2) := by
  unfold State.endForward
  with_reducible repeat' (first
      | assumption | apply calm_modFab | apply calm_ackNow | apply calm_t1Put | apply calm_id | apply calm_foldl | apply calm_foldr
      | apply calm_ite | split | intro _ | dsimp only | refine calm_mk ?_ rfl rfl)

theorem calm_dropForward {s₀ : State} {s : State} {a2 : Forward} {a3 : Nat} {a4 : Nat} (h1 : Calm s₀ s) : Calm s₀ (State.dropForward s a2 a3 a4) := by
  unfold State.dropForward
  with_reducible repeat' (first
      | assumption | apply calm_pcause | apply calm_count | apply calm_endForward | apply calm_report | apply calm_id
      | apply calm_foldl | apply calm_foldr | apply calm_ite | split | intro _ | dsimp only)

theorem calm_dropParity {s₀ : State} {s : State} {a2 : Option Nat} (h1 : Calm s₀ s) : Calm s₀ (State.dropParity s a2) := by
  unfold State.dropParity
  with_reducible repeat' (first
      | assumption | apply calm_id | apply calm_foldl | apply calm_foldr | apply calm_ite | split | intro _ | dsimp only
      | refine calm_mk ?_ rfl rfl)

theorem calm_dropPart {s₀ s : State} {a2 : Nat} (h1 : Calm s₀ s) : Calm s₀ (State.dropPart s a2) :=
  h1.trans ⟨rfl, rfl, rfl, rfl, rfl, fun c => ⟨Tbl.wf_filter _ _ _ c.1, c.2⟩⟩


theorem calm_dropPending {s₀ : State} {s : State} {a2 : List Nat} (h1 : Calm s₀ s) : Calm s₀ (State.dropPending s a2) := by
  unfold State.dropPending
  with_reducible repeat' (first
      | assumption | apply calm_id | apply calm_foldl | apply calm_foldr | apply calm_ite | split | intro _ | dsimp only
      | refine calm_mk ?_ rfl rfl)

theorem calm_dropRing {s₀ : State} {s : State} {a2 : Nat} {a3 : Nat} (h1 : Calm s₀ s) : Calm s₀ (State.dropRing s a2 a3) := by
  unfold State.dropRing
  with_reducible repeat' (first
      | assumption | apply calm_setRegF | apply calm_modRing | apply calm_id | apply calm_foldl | apply calm_foldr | apply calm_ite
      | split | intro _ | dsimp only)

theorem calm_emitFlit {s₀ : State} {s : State} {a2 : Nat} {a3 : Nat} {a4 : Nat} {a5 : Nat} {a6 : List Nat} (h1 : Calm s₀ s) : Calm s₀ (State.emitFlit s a2 a3 a4 a5 a6) := by
  unfold State.emitFlit
  with_reducible repeat' (first
      | assumption | apply calm_modPort | apply calm_emit | apply calm_count64 | apply calm_id | apply calm_foldl
      | apply calm_foldr | apply calm_ite | split | intro _ | dsimp only)

theorem calm_loftAnswer {s₀ : State} {s : State} {a2 : LoftReq} {a3 : Nat} {a4 : LoftBlock} (h1 : Calm s₀ s) : Calm s₀ (State.loftAnswer s a2 a3 a4) := by
  unfold State.loftAnswer
  with_reducible repeat' (first
      | assumption | apply calm_giveRoom | apply calm_modLoft | apply calm_arrive | apply calm_id | apply calm_foldl
      | apply calm_foldr | apply calm_ite | split | intro _ | dsimp only)

theorem calm_endLate {s₀ : State} {s : State} {a2 : LoftReq} (h1 : Calm s₀ s) : Calm s₀ (State.endLate s a2) := by
  unfold State.endLate
  with_reducible repeat' (first
      | assumption | apply calm_loftAnswer | apply calm_count | apply calm_id | apply calm_foldl | apply calm_foldr
      | apply calm_ite | split | intro _ | dsimp only)

theorem calm_endPacket {s₀ : State} {s : State} {a2 : Nat} {a3 : Nat} {a4 : Nat} {a5 : List Nat} (h1 : Calm s₀ s) : Calm s₀ (State.endPacket s a2 a3 a4 a5) := by
  unfold State.endPacket
  with_reducible repeat' (first
      | assumption | apply calm_modPart | apply calm_id | apply calm_foldl | apply calm_foldr | apply calm_ite | split | intro _
      | dsimp only)

theorem calm_endSuspects {s₀ : State} {s : State} {a2 : Nat} (h1 : Calm s₀ s) : Calm s₀ (State.endSuspects s a2) := by
  unfold State.endSuspects
  with_reducible repeat' (first
      | assumption | apply calm_modHomes | apply calm_id | apply calm_foldl | apply calm_foldr | apply calm_ite | split | intro _
      | dsimp only)

theorem calm_eraseSlot {s₀ : State} {s : State} {a2 : Nat} (h1 : Calm s₀ s) : Calm s₀ (State.eraseSlot s a2) := by
  unfold State.eraseSlot
  with_reducible repeat' (first
      | assumption | apply calm_modBoot | apply calm_id | apply calm_foldl | apply calm_foldr | apply calm_ite | split | intro _
      | dsimp only)

theorem calm_escWrite {s₀ : State} {s : State} {a2 : Source} {a3 : Nat} {a4 : Nat} {a5 : List Nat} (h1 : Calm s₀ s) : Calm s₀ (State.escWrite s a2 a3 a4 a5) := by
  unfold State.escWrite
  with_reducible repeat' (first
      | assumption | apply calm_postBytes | apply calm_count | apply calm_id | apply calm_foldl | apply calm_foldr | apply calm_ite
      | split | intro _ | dsimp only)

theorem calm_escCarry {s₀ s : State} {a2 : Nat} {a3 : Cmd} {a4 : Nat} {a5 : List (List Nat)} {t : State}
    (e : State.escCarry s a2 a3 a4 a5 = some t) (h1 : Calm s₀ s) : Calm s₀ t := by
  induction a5 generalizing s with
  | nil => unfold State.escCarry at e; cases e; exact h1
  | cons n l ih =>
    unfold State.escCarry at e
    split at e
    · exact ih e h1
    · dsimp only at e
      split at e
      · cases e
      · exact ih e (calm_escWrite (calm_postBytes h1))


theorem calm_escErase {s₀ : State} {s : State} {a2 : Source} {a3 : Nat} {a4 : Nat} (h1 : Calm s₀ s) : Calm s₀ (State.escErase s a2 a3 a4) := by
  unfold State.escErase
  with_reducible repeat' (first
      | assumption | apply calm_setRegN | apply calm_postBytes | apply calm_id | apply calm_foldl | apply calm_foldr
      | apply calm_ite | split | intro _ | dsimp only)

theorem calm_escClearDst {s₀ : State} {s : State} {a2 : Nat} {a3 : Cmd} (h1 : Calm s₀ s) : Calm s₀ (State.escClearDst s a2 a3) := by
  unfold State.escClearDst
  with_reducible repeat' (first
      | assumption | apply calm_escErase | apply calm_id | apply calm_foldl | apply calm_foldr | apply calm_ite | split | intro _
      | dsimp only)

theorem calm_fence {s₀ : State} {s : State} {a2 : Nat} (h1 : Calm s₀ s) : Calm s₀ (State.fence s a2) := by
  unfold State.fence
  with_reducible repeat' (first
      | assumption | apply calm_mirrorTo | apply calm_modHomes | apply calm_ackStore | apply calm_violateMem
      | apply calm_endRequest | apply calm_answerHost | apply calm_id | apply calm_foldl | apply calm_foldr | apply calm_ite
      | split | intro _ | dsimp only | refine calm_mk ?_ rfl rfl)

theorem calm_fetchParcel {s₀ : State} {s : State} {a2 : Nat} {a3 : Cmd} {a4 : Nat} {a5 : Nat} {a6 : Nat → State → State} (h1 : Calm s₀ s) (h6 : ∀ y0 y1, Calm s₀ y1 → Calm s₀ (a6 y0 y1)) : Calm s₀ (State.fetchParcel s a2 a3 a4 a5 a6) := by
  unfold State.fetchParcel
  with_reducible repeat' (first
      | assumption | refine calm_translate (by assumption) ?_ | apply calm_translate' | apply calm_want | apply calm_raiseFault
      | apply calm_gcEnd | apply calm_endFault | apply calm_whenReady | refine calm_fetch (by assumption) ?_ | apply calm_fetch'
      | apply calm_modCore | apply calm_id | apply calm_foldl | apply calm_foldr | apply calm_ite | apply h6 | split | intro _
      | dsimp only)

theorem calm_fetchInstr {s₀ : State} {s : State} {a2 : Nat} {a3 : Cmd} {a4 : Nat} {a5 : Nat → Nat → State → State} (h1 : Calm s₀ s) (h5 : ∀ y0 y1 y2, Calm s₀ y2 → Calm s₀ (a5 y0 y1 y2)) : Calm s₀ (State.fetchInstr s a2 a3 a4 a5) := by
  unfold State.fetchInstr
  with_reducible repeat' (first
      | assumption | apply calm_fetchParcel | apply calm_id | apply calm_foldl | apply calm_foldr | apply calm_ite | apply h5
      | split | intro _ | dsimp only)

theorem calm_fetchRows {s₀ s : State} {a2 : Agent} {a3 : List (List (Nat × Nat))} {r0} {t} (e : State.fetchRows s a2 a3 = (r0, t))
    (h1 : Calm s₀ s) : Calm s₀ t := by
  induction a3 generalizing s r0 t with
  | nil => unfold State.fetchRows at e; cases e; exact h1
  | cons n l ih => unfold State.fetchRows at e; cases e; exact ih (Prod.eta _).symm (calm_fetchAll' h1)

theorem calm_fetchRows' {s₀ s : State} {a2 : Agent} {a3 : List (List (Nat × Nat))} (h1 : Calm s₀ s) : Calm s₀ (State.fetchRows s a2 a3).2 :=
  calm_fetchRows (e := (Prod.eta _).symm) h1


theorem calm_fillFlit' {s₀ s : State} {a2 a3 : Nat} {a4 : List (List Nat)} {a5 : Nat} {a6 : List Packet} (h1 : Calm s₀ s) :
    Calm s₀ (State.fillFlit s a2 a3 a4 a5 a6).1 := by
  induction a3 generalizing s a4 a5 a6 with
  | zero => unfold State.fillFlit; exact h1
  | succ n ih =>
    unfold State.fillFlit
    split
    · exact h1
    · split
      · exact ih (calm_modPort h1)
      · exact ih (calm_modPort h1)
      · split
        · exact h1
        · split
          · exact ih (calm_discard (calm_takeEntry h1))
          · exact ih (calm_beginPacket h1)

theorem calm_fillFlit {s₀ s : State} {a2 a3 : Nat} {a4 : List (List Nat)} {a5 : Nat} {a6 : List Packet} {t} {r}
    (e : State.fillFlit s a2 a3 a4 a5 a6 = (t, r)) (h1 : Calm s₀ s) : Calm s₀ t := by
  have k := calm_fillFlit' (a2 := a2) (a3 := a3) (a4 := a4) (a5 := a5) (a6 := a6) h1
  rw [e] at k
  exact k


theorem calm_fillOpen {s₀ : State} {s : State} {a2 : Nat} {a3 : Open} (h1 : Calm s₀ s) : Calm s₀ (State.fillOpen s a2 a3) := by
  unfold State.fillOpen
  with_reducible repeat' (first
      | assumption | refine calm_draw (by assumption) ?_ | apply calm_draw' | apply calm_modCore | apply calm_id | apply calm_foldl
      | apply calm_foldr | apply calm_ite | split | intro _ | dsimp only)

theorem calm_finishDisable {s₀ : State} {s : State} {a2 : Nat} {a3 : Nat} {a4 : Nat} {a5 : Nat} {a6 : Bool} {a7 : Bool} (h1 : Calm s₀ s) : Calm s₀ (State.finishDisable s a2 a3 a4 a5 a6 a7) := by
  unfold State.finishDisable
  with_reducible repeat' (first
      | assumption | apply calm_applyHeld | apply calm_modRing | apply calm_setRegF | apply calm_registerRing | apply calm_id
      | apply calm_foldl | apply calm_foldr | apply calm_ite | split | intro _ | dsimp only)

theorem calm_finishLoads {s₀ : State} {s : State} (h1 : Calm s₀ s) : Calm s₀ (State.finishLoads s) := by
  unfold State.finishLoads
  with_reducible repeat' (first
      | assumption | apply calm_load | apply calm_id | apply calm_foldl | apply calm_foldr | apply calm_ite | split | intro _
      | dsimp only)

theorem calm_mbox {s₀ : State} {s : State} {a2 : Mailbox} {a3 : String} {a4 : Nat} {a5 : List Nat} (h1 : Calm s₀ s) : Calm s₀ (State.mbox s a2 a3 a4 a5) := by
  unfold State.mbox
  with_reducible repeat' (first
      | assumption | apply calm_emit | apply calm_id | apply calm_foldl | apply calm_foldr | apply calm_ite | split | intro _
      | dsimp only)

theorem calm_fmMailbox {s₀ : State} {s : State} {a2 : Mailbox} {a3 : String} {a4 : State → State} (h1 : Calm s₀ s) (h4 : ∀ y0, Calm s₀ y0 → Calm s₀ (a4 y0)) : Calm s₀ (State.fmMailbox s a2 a3 a4) := by
  unfold State.fmMailbox
  with_reducible repeat' (first
      | assumption | apply calm_mbox | apply calm_id | apply calm_foldl | apply calm_foldr | apply calm_ite | apply h4 | split
      | intro _ | dsimp only)

theorem calm_forgetArrivals {s₀ : State} {s : State} {a2 : Waiter} (h1 : Calm s₀ s) : Calm s₀ (State.forgetArrivals s a2) := by
  unfold State.forgetArrivals
  with_reducible repeat' (first
      | assumption | apply calm_modFab | apply calm_id | apply calm_foldl | apply calm_foldr | apply calm_ite | split | intro _
      | dsimp only)

theorem calm_ftTouches {s₀ : State} {s : State} {a2 : List Nat} (h1 : Calm s₀ s) : Calm s₀ (State.ftTouches s a2) := by
  unfold State.ftTouches
  with_reducible repeat' (first
      | assumption | apply calm_ftAbandon | apply calm_id | apply calm_foldl | apply calm_foldr | apply calm_ite | split | intro _
      | dsimp only)

theorem calm_setT0Owner {s₀ : State} {s : State} {a2 : Nat} {a3 : Option Nat} (h1 : Calm s₀ s) : Calm s₀ (State.setT0Owner s a2 a3) := by
  unfold State.setT0Owner
  with_reducible repeat' (first
      | assumption | apply calm_id | apply calm_foldl | apply calm_foldr | apply calm_ite | split | intro _ | dsimp only
      | refine calm_mk ?_ rfl rfl)

theorem calm_t0Zero {s₀ s : State} {a2 : Range} (h1 : Calm s₀ s) : Calm s₀ (State.t0Zero s a2) :=
  h1.trans ⟨rfl, rfl, rfl, rfl, rfl, fun c => ⟨c.1, c.2.1, Memory.wf_zero _ _ _ c.2.2.1, c.2.2.2⟩⟩


theorem calm_freePage {s₀ : State} {s : State} {a2 : Nat} {a3 : Cmd} (h1 : Calm s₀ s) : Calm s₀ (State.freePage s a2 a3) := by
  unfold State.freePage
  with_reducible repeat' (first
      | assumption | apply calm_ftTouches | apply calm_setAux | apply calm_setT0Owner | apply calm_t0Zero | apply calm_violateMem
      | apply calm_id | apply calm_foldl | apply calm_foldr | apply calm_ite | split | intro _ | dsimp only)

theorem calm_freePart {s₀ : State} {s : State} {a2 : Nat} (h1 : Calm s₀ s) : Calm s₀ (State.freePart s a2) := by
  unfold State.freePart
  with_reducible repeat' (first
      | assumption | apply calm_setT0Owner | apply calm_t0Zero | apply calm_zeroSems | apply calm_modLoft | apply calm_setOwner
      | apply calm_cribDrop | apply calm_dropAllXlt | apply calm_forgetBarriers | apply calm_setComp | apply calm_modSync
      | apply calm_modFab | apply calm_showSwitchMins | apply calm_setPart | apply calm_dropHeldOf | apply calm_dropPart
      | apply calm_id | apply calm_foldl | apply calm_foldr | apply calm_ite | split | intro _ | dsimp only)

theorem calm_ftFailed {s₀ : State} {s : State} {a2 : FtRun} {a3 : List Nat} (h1 : Calm s₀ s) : Calm s₀ (State.ftFailed s a2 a3) := by
  unfold State.ftFailed
  with_reducible repeat' (first
      | assumption | apply calm_quarantine | apply calm_cause | apply calm_count | apply calm_modFt | apply calm_setRegF
      | apply calm_channelDead | apply calm_id | apply calm_foldl | apply calm_foldr | apply calm_ite | split | intro _
      | dsimp only)

theorem calm_unquarantine {s₀ : State} {s : State} {a2 : UnitKind} {a3 : Nat} (h1 : Calm s₀ s) : Calm s₀ (State.unquarantine s a2 a3) := by
  unfold State.unquarantine
  with_reducible repeat' (first
      | assumption | apply calm_setRegF | apply calm_id | apply calm_foldl | apply calm_foldr | apply calm_ite | split | intro _
      | dsimp only | refine calm_mk ?_ rfl rfl)

theorem calm_ftEnd {s₀ : State} {s : State} {a2 : FtRun} {a3 : Option Nat} {a4 : Nat} {a5 : List Nat} (h1 : Calm s₀ s) : Calm s₀ (State.ftEnd s a2 a3 a4 a5) := by
  unfold State.ftEnd
  with_reducible repeat' (first
      | assumption | apply calm_ftRestore | apply calm_modFt | apply calm_setRegN | apply calm_ftResult | apply calm_report
      | apply calm_cause | apply calm_ftFailed | apply calm_count | apply calm_unquarantine | apply calm_id | apply calm_foldl
      | apply calm_foldr | apply calm_ite | split | intro _ | dsimp only)

theorem calm_setSleep {s₀ : State} {s : State} {a2 : Nat} {a3 : Nat} (h1 : Calm s₀ s) : Calm s₀ (State.setSleep s a2 a3) := by
  unfold State.setSleep
  with_reducible repeat' (first
      | assumption | apply calm_id | apply calm_foldl | apply calm_foldr | apply calm_ite | split | intro _ | dsimp only
      | refine calm_mk ?_ rfl rfl)

theorem calm_gateAll {s₀ : State} {s : State} (h1 : Calm s₀ s) : Calm s₀ (State.gateAll s) := by
  unfold State.gateAll
  with_reducible repeat' (first
      | assumption | apply calm_setSleep | apply calm_resetUnit | apply calm_id | apply calm_foldl | apply calm_foldr
      | apply calm_ite | split | intro _ | dsimp only | refine calm_mk ?_ rfl rfl)

theorem calm_gcWaitEnds {s₀ : State} {s : State} {a2 : Nat} {a3 : Option Nat} (h1 : Calm s₀ s) : Calm s₀ (State.gcWaitEnds s a2 a3) := by
  unfold State.gcWaitEnds
  with_reducible repeat' (first
      | assumption | apply calm_endWait | apply calm_gcEnd | apply calm_retire | apply calm_modCore | apply calm_id
      | apply calm_foldl | apply calm_foldr | apply calm_ite | split | intro _ | dsimp only)

theorem calm_receive {s₀ : State} {s : State} {a2 : Packet} (h1 : Calm s₀ s) : Calm s₀ (State.receive s a2) := by
  unfold State.receive
  with_reducible repeat' (first
      | assumption | apply calm_modFab | apply calm_id | apply calm_foldl | apply calm_foldr | apply calm_ite | split | intro _
      | dsimp only)

theorem calm_noteIncarnation {s₀ : State} {s : State} {a2 : Nat} {a3 : Nat} (h1 : Calm s₀ s) : Calm s₀ (State.noteIncarnation s a2 a3) := by
  unfold State.noteIncarnation
  with_reducible repeat' (first
      | assumption | apply calm_modFab | apply calm_count | apply calm_id | apply calm_foldl | apply calm_foldr | apply calm_ite
      | split | intro _ | dsimp only)

theorem calm_replyRecorded {s₀ : State} {s : State} {a2 : Packet} {a3 : WinEntry} (h1 : Calm s₀ s) : Calm s₀ (State.replyRecorded s a2 a3) := by
  unfold State.replyRecorded
  with_reducible repeat' (first
      | assumption | apply calm_reply | apply calm_id | apply calm_foldl | apply calm_foldr | apply calm_ite | split | intro _
      | dsimp only)

theorem calm_windowed {s₀ : State} {s : State} {a2 : Packet} {a3 : Nat} {a4 : Nat} {a5 : State → State} (h1 : Calm s₀ s) (h5 : ∀ y0, Calm s₀ y0 → Calm s₀ (a5 y0)) : Calm s₀ (State.windowed s a2 a3 a4 a5) := by
  unfold State.windowed
  with_reducible repeat' (first
      | assumption | apply calm_noteIncarnation | apply calm_setWindow | apply calm_replyRecorded | apply calm_count
      | apply calm_id | apply calm_foldl | apply calm_foldr | apply calm_ite | apply h5 | split | intro _ | dsimp only)

theorem calm_relay {s₀ : State} {s : State} {a2 : Packet} {a3 : Mirror} {t : State} (e : State.relay s a2 a3 = some t) (h1 : Calm s₀ s) : Calm s₀ t := by
  unfold State.relay at e
  repeat' (first | (split at e) | (dsimp only at e))
  all_goals (first | (cases e) | (simp only [Option.map_eq_some_iff] at e; obtain ⟨_, _, rfl⟩ := e) | (simp only [Option.some.injEq, Prod.mk.injEq] at e; obtain ⟨_, rfl⟩ := e) | (simp only [Option.some.injEq, Prod.mk.injEq] at e; subst e) | skip)
  all_goals with_reducible repeat' (first
      | assumption | refine calm_send (by assumption) ?_ | apply calm_id | apply calm_foldl | apply calm_foldr | apply calm_ite
      | split | intro _ | dsimp only | refine calm_mk ?_ rfl rfl)

theorem calm_serveRequest {s₀ : State} {s : State} {a2 : Packet} (h1 : Calm s₀ s) : Calm s₀ (State.serveRequest s a2) := by
  unfold State.serveRequest
  with_reducible repeat' (first
      | assumption | apply calm_judge | apply calm_peerViolation | refine calm_relay (by assumption) ?_ | apply calm_promote
      | apply calm_id | apply calm_foldl | apply calm_foldr | apply calm_ite | split | intro _ | dsimp only)

theorem calm_handleRequest {s₀ : State} {s : State} {a2 : Packet} (h1 : Calm s₀ s) : Calm s₀ (State.handleRequest s a2) := by
  unfold State.handleRequest
  with_reducible repeat' (first
      | assumption | apply calm_receive | apply calm_protoErr | apply calm_windowed | apply calm_serveRequest | apply calm_id
      | apply calm_foldl | apply calm_foldr | apply calm_ite | split | intro _ | dsimp only)

theorem calm_handleCombined {s₀ : State} {s : State} {a2 : Packet} (h1 : Calm s₀ s) : Calm s₀ (State.handleCombined s a2) := by
  unfold State.handleCombined
  with_reducible repeat' (first
      | assumption | apply calm_handleRequest | apply calm_receive | apply calm_id | apply calm_foldl | apply calm_foldr
      | apply calm_ite | split | intro _ | dsimp only)

theorem calm_handleMack {s₀ : State} {s : State} {a2 : Packet} (h1 : Calm s₀ s) : Calm s₀ (State.handleMack s a2) := by
  unfold State.handleMack
  with_reducible repeat' (first
      | assumption | apply calm_receive | apply calm_complete | apply calm_fence | apply calm_ackStore | apply calm_id
      | apply calm_foldl | apply calm_foldr | apply calm_ite | split | intro _ | dsimp only | refine calm_mk ?_ rfl rfl)

theorem calm_handleMwr {s₀ : State} {s : State} {a2 : Packet} (h1 : Calm s₀ s) : Calm s₀ (State.handleMwr s a2) := by
  unfold State.handleMwr
  with_reducible repeat' (first
      | assumption | apply calm_receive | apply calm_windowed | apply calm_peerViolation | apply calm_windowDone
      | apply calm_noteIncarnation | refine calm_draw (by assumption) ?_ | apply calm_draw' | apply calm_setWindow
      | apply calm_request | apply calm_id | apply calm_foldl | apply calm_foldr | apply calm_ite | split | intro _ | dsimp only)

theorem calm_handleNak {s₀ : State} {s : State} {a2 : Packet} (h1 : Calm s₀ s) : Calm s₀ (State.handleNak s a2) := by
  unfold State.handleNak
  with_reducible repeat' (first
      | assumption | apply calm_receive | apply calm_answerWaiter | apply calm_complete | apply calm_id | apply calm_foldl
      | apply calm_foldr | apply calm_ite | split | intro _ | dsimp only)

theorem calm_handlePinv {s₀ : State} {s : State} {a2 : Packet} (h1 : Calm s₀ s) : Calm s₀ (State.handlePinv s a2) := by
  unfold State.handlePinv
  with_reducible repeat' (first
      | assumption | apply calm_receive | apply calm_count | apply calm_setRemoteLine | apply calm_modFab | apply calm_respond
      | apply calm_id | apply calm_foldl | apply calm_foldr | apply calm_ite | split | intro _ | dsimp only)

theorem calm_pinvAcked {s₀ : State} {s : State} {a2 : Nat} {a3 : Nat} {a4 : Nat} (h1 : Calm s₀ s) : Calm s₀ (State.pinvAcked s a2 a3 a4) := by
  unfold State.pinvAcked
  with_reducible repeat' (first
      | assumption | apply calm_protoErr | apply calm_afterLine | apply calm_checkRound | apply calm_setEntry | apply calm_id
      | apply calm_foldl | apply calm_foldr | apply calm_ite | split | intro _ | dsimp only)

theorem calm_handlePinvack {s₀ : State} {s : State} {a2 : Packet} (h1 : Calm s₀ s) : Calm s₀ (State.handlePinvack s a2) := by
  unfold State.handlePinvack
  with_reducible repeat' (first
      | assumption | apply calm_receive | apply calm_complete | apply calm_pinvAcked | apply calm_protoErr | apply calm_id
      | apply calm_foldl | apply calm_foldr | apply calm_ite | split | intro _ | dsimp only)

theorem calm_installRemote {s₀ : State} {s : State} {a2 : Nat} {a3 : RemoteLine} (h1 : Calm s₀ s) : Calm s₀ (State.installRemote s a2 a3) := by
  unfold State.installRemote
  with_reducible repeat' (first
      | assumption | apply calm_setRemoteLine | refine calm_choose (by assumption) ?_ | apply calm_choose' | apply calm_modHomes
      | apply calm_id | apply calm_foldl | apply calm_foldr | apply calm_ite | split | intro _ | dsimp only)

theorem calm_handleRdata {s₀ : State} {s : State} {a2 : Packet} {a3 : Nat} (h1 : Calm s₀ s) : Calm s₀ (State.handleRdata s a2 a3) := by
  unfold State.handleRdata
  with_reducible repeat' (first
      | assumption | apply calm_receive | apply calm_complete | apply calm_count | apply calm_installRemote
      | apply calm_answerWaiter | apply calm_id | apply calm_foldl | apply calm_foldr | apply calm_ite | split | intro _
      | dsimp only)

theorem calm_handleWack {s₀ : State} {s : State} {a2 : Packet} (h1 : Calm s₀ s) : Calm s₀ (State.handleWack s a2) := by
  unfold State.handleWack
  with_reducible repeat' (first
      | assumption | apply calm_receive | apply calm_answerWaiter | apply calm_complete | apply calm_id | apply calm_foldl
      | apply calm_foldr | apply calm_ite | split | intro _ | dsimp only)

theorem calm_heatTick {s₀ : State} {s : State} {a2 : Nat} {a3 : Nat} {a4 : Int} (h1 : Calm s₀ s) : Calm s₀ (State.heatTick s a2 a3 a4) := by
  unfold State.heatTick
  with_reducible repeat' (first
      | assumption | apply calm_showThrottle | apply calm_cause | apply calm_report | apply calm_id | apply calm_foldl
      | apply calm_foldr | apply calm_ite | split | intro _ | dsimp only | refine calm_mk ?_ rfl rfl)

theorem calm_portViolation {s₀ : State} {s : State} {a2 : Nat} {a3 : Nat} {a4 : Nat} {a5 : Bool} {a6 : String} {a7 : Bool} (h1 : Calm s₀ s) : Calm s₀ (State.portViolation s a2 a3 a4 a5 a6 a7) := by
  unfold State.portViolation
  with_reducible repeat' (first
      | assumption | apply calm_emit | apply calm_violateMem | apply calm_id | apply calm_foldl | apply calm_foldr | apply calm_ite
      | split | intro _ | dsimp only)

theorem calm_hostClean {s₀ : State} {s : State} {a2 : Nat} {a3 : Nat} {a4 : Nat} {a5 : Bool} {a6 : Bool} (h1 : Calm s₀ s) : Calm s₀ (State.hostClean s a2 a3 a4 a5 a6) := by
  unfold State.hostClean
  with_reducible repeat' (first
      | assumption | apply calm_cxlRequest | apply calm_emit | apply calm_portViolation | apply calm_badFields | apply calm_request
      | apply calm_id | apply calm_foldl | apply calm_foldr | apply calm_ite | split | intro _ | dsimp only)

theorem calm_hostLostLine {s₀ : State} {s : State} {a2 : Nat} {a3 : DirEntry} (h1 : Calm s₀ s) : Calm s₀ (State.hostLostLine s a2 a3) := by
  unfold State.hostLostLine
  with_reducible repeat' (first
      | assumption | apply calm_modHomes | apply calm_count | apply calm_setT1Poison | apply calm_setEntry | apply calm_endRecall
      | apply calm_afterLine | apply calm_checkRound | apply calm_id | apply calm_foldl | apply calm_foldr | apply calm_ite | split
      | intro _ | dsimp only)

theorem calm_hostRead {s₀ : State} {s : State} {a2 : Nat} {a3 : Nat} {a4 : Nat} {a5 : HomeKind} {a6 : String} {a7 : Bool} {a8 : Bool} (h1 : Calm s₀ s) : Calm s₀ (State.hostRead s a2 a3 a4 a5 a6 a7 a8) := by
  unfold State.hostRead
  with_reducible repeat' (first
      | assumption | apply calm_cxlRequest | apply calm_portViolation | apply calm_badFields | apply calm_request | apply calm_id
      | apply calm_foldl | apply calm_foldr | apply calm_ite | split | intro _ | dsimp only)

theorem calm_muteHosts {s₀ : State} {s : State} {a2 : List Nat} (h1 : Calm s₀ s) : Calm s₀ (State.muteHosts s a2) := by
  unfold State.muteHosts
  with_reducible repeat' (first
      | assumption | apply calm_modHomes | apply calm_modPart | apply calm_id | apply calm_foldl | apply calm_foldr
      | apply calm_ite | split | intro _ | dsimp only | refine calm_mk ?_ rfl rfl)

theorem calm_hostsLost {s₀ : State} {s : State} {a2 : List Nat} (h1 : Calm s₀ s) : Calm s₀ (State.hostsLost s a2) := by
  unfold State.hostsLost
  with_reducible repeat' (first
      | assumption | apply calm_muteHosts | apply calm_modHomes | apply calm_hostLostLine | apply calm_id | apply calm_foldl
      | apply calm_foldr | apply calm_ite | split | intro _ | dsimp only)

theorem calm_ideMessage {s₀ : State} {s : State} {a2 : Nat} {a3 : IdeMsg} (h1 : Calm s₀ s) : Calm s₀ (State.ideMessage s a2 a3) := by
  unfold State.ideMessage
  with_reducible repeat' (first
      | assumption | apply calm_setRegF | apply calm_id | apply calm_foldl | apply calm_foldr | apply calm_ite | split | intro _
      | dsimp only | refine calm_mk ?_ rfl rfl)

theorem calm_installPackage {s₀ : State} {s : State} {a2 : List Nat} {a3 : Nat} (h1 : Calm s₀ s) : Calm s₀ (State.installPackage s a2 a3) := by
  unfold State.installPackage
  with_reducible repeat' (first
      | assumption | apply calm_extend | apply calm_modFt | apply calm_cause | apply calm_report | apply calm_id | apply calm_foldl
      | apply calm_foldr | apply calm_ite | split | intro _ | dsimp only)

theorem calm_itemsDone {s₀ : State} {s : State} {a2 : Nat} {a3 : Cmd} {a4 : VecIndex} (h1 : Calm s₀ s) : Calm s₀ (State.itemsDone s a2 a3 a4) := by
  unfold State.itemsDone
  with_reducible repeat' (first
      | assumption | apply calm_setAux | apply calm_modIndex | apply calm_rowEnd | apply calm_id | apply calm_foldl
      | apply calm_foldr | apply calm_ite | split | intro _ | dsimp only)

theorem calm_itemsStart {s₀ : State} {s : State} {a2 : Nat} {a3 : Cmd} {a4 : VecIndex} (h1 : Calm s₀ s) : Calm s₀ (State.itemsStart s a2 a3 a4) := by
  unfold State.itemsStart
  with_reducible repeat' (first
      | assumption | apply calm_setAux | apply calm_endCmd | apply calm_id | apply calm_foldl | apply calm_foldr | apply calm_ite
      | split | intro _ | dsimp only)

theorem calm_winStop {s₀ : State} {s : State} {a2 : Nat} {a3 : Cmd} {a4 : Nat} (h1 : Calm s₀ s) : Calm s₀ (State.winStop s a2 a3 a4) := by
  unfold State.winStop
  with_reducible repeat' (first
      | assumption | apply calm_rowEnd | apply calm_loftForget | apply calm_modIndex | apply calm_id | apply calm_foldl
      | apply calm_foldr | apply calm_ite | split | intro _ | dsimp only)

theorem calm_itemsStopped {s₀ : State} {s : State} {a2 : Nat} {a3 : Cmd} (h1 : Calm s₀ s) : Calm s₀ (State.itemsStopped s a2 a3) := by
  unfold State.itemsStopped
  with_reducible repeat' (first
      | assumption | apply calm_winStop | apply calm_id | apply calm_foldl | apply calm_foldr | apply calm_ite | split | intro _
      | dsimp only)

theorem calm_l1dError {s₀ : State} {s : State} {a2 : Nat} {a3 : Nat} (h1 : Calm s₀ s) : Calm s₀ (State.l1dError s a2 a3) := by
  unfold State.l1dError
  with_reducible repeat' (first
      | assumption | apply calm_modCore | apply calm_id | apply calm_foldl | apply calm_foldr | apply calm_ite | split | intro _
      | dsimp only)

theorem calm_l1dStrike {s₀ : State} {s : State} {a2 : Nat} {a3 : Option Upset} (h1 : Calm s₀ s) : Calm s₀ (State.l1dStrike s a2 a3) := by
  unfold State.l1dStrike
  with_reducible repeat' (first
      | assumption | apply calm_modCore | apply calm_id | apply calm_foldl | apply calm_foldr | apply calm_ite | split | intro _
      | dsimp only)

theorem calm_ldMailbox {s₀ : State} {s : State} {a2 : Mailbox} {a3 : String} {a4 : Nat → State → State} (h1 : Calm s₀ s) (h4 : ∀ y0 y1, Calm s₀ y1 → Calm s₀ (a4 y0 y1)) : Calm s₀ (State.ldMailbox s a2 a3 a4) := by
  unfold State.ldMailbox
  with_reducible repeat' (first
      | assumption | apply calm_mbox | apply calm_id | apply calm_foldl | apply calm_foldr | apply calm_ite | apply h4 | split
      | intro _ | dsimp only)

theorem calm_rearm {s₀ : State} {s : State} {a2 : Nat} {a3 : Nat} (h1 : Calm s₀ s) : Calm s₀ (State.rearm s a2 a3) := by
  unfold State.rearm
  with_reducible repeat' (first
      | assumption | apply calm_arm | apply calm_id | apply calm_foldl | apply calm_foldr | apply calm_ite | split | intro _
      | dsimp only)

theorem calm_leaveChute {s₀ : State} {s : State} {a2 : Nat} {a3 : Nat} {a4 : Pkt} (h1 : Calm s₀ s) : Calm s₀ (State.leaveChute s a2 a3 a4) := by
  unfold State.leaveChute
  with_reducible repeat' (first
      | assumption | apply calm_t1Write | apply calm_modRing | apply calm_rearm | apply calm_releaseHeld | apply calm_id
      | apply calm_foldl | apply calm_foldr | apply calm_ite | split | intro _ | dsimp only)

theorem calm_linkDisable {s₀ : State} {s : State} {a2 : Nat} (h1 : Calm s₀ s) : Calm s₀ (State.linkDisable s a2) := by
  unfold State.linkDisable
  with_reducible repeat' (first
      | assumption | apply calm_flush | apply calm_setRegF | apply calm_setLink | apply calm_id | apply calm_foldl
      | apply calm_foldr | apply calm_ite | split | intro _ | dsimp only)

theorem calm_linkDrain {s₀ : State} {s : State} {a2 : Nat} (h1 : Calm s₀ s) : Calm s₀ (State.linkDrain s a2) := by
  unfold State.linkDrain
  with_reducible repeat' (first
      | assumption | apply calm_setLink | apply calm_id | apply calm_foldl | apply calm_foldr | apply calm_ite | split | intro _
      | dsimp only)

theorem calm_meDone {s₀ : State} {s : State} {a2 : Nat} {a3 : Nat} {a4 : Cmd} {a5 : Bool} {a6 : Nat} {a7 : Nat} (h1 : Calm s₀ s) : Calm s₀ (State.meDone s a2 a3 a4 a5 a6 a7) := by
  unfold State.meDone
  with_reducible repeat' (first
      | assumption | apply calm_count64 | apply calm_event | apply calm_itemDone | apply calm_setRegF | apply calm_setAux
      | apply calm_meEnd | apply calm_id | apply calm_foldl | apply calm_foldr | apply calm_ite | split | intro _ | dsimp only)

theorem calm_loaded {s₀ : State} {s : State} {a2 : Nat} {a3 : Nat} {a4 : Cmd} {a5 : Nat} {a6 : Tile} {a7 : Nat} (h1 : Calm s₀ s) : Calm s₀ (State.loaded s a2 a3 a4 a5 a6 a7) := by
  unfold State.loaded
  with_reducible repeat' (first
      | assumption | apply calm_meEnd | apply calm_meDone | apply calm_modEngine | apply calm_id | apply calm_foldl
      | apply calm_foldr | apply calm_ite | split | intro _ | dsimp only)

theorem calm_loadCopy {s₀ : State} {s : State} {a2 : Nat} {a3 : Nat} {a4 : Cmd} {a5 : Nat} {a6 : Tile} {a7 : Nat} {a8 : Nat} (h1 : Calm s₀ s) : Calm s₀ (State.loadCopy s a2 a3 a4 a5 a6 a7 a8) := by
  unfold State.loadCopy
  with_reducible repeat' (first
      | assumption | apply calm_whenReadable | apply calm_meEnd | apply calm_loaded | apply calm_id | apply calm_foldl
      | apply calm_foldr | apply calm_ite | split | intro _ | dsimp only)

theorem calm_loadDone {s₀ : State} {s : State} {a2 : Nat} {a3 : Nat} {a4 : Nat} {a5 : Nat} {a6 : Nat} (h1 : Calm s₀ s) : Calm s₀ (State.loadDone s a2 a3 a4 a5 a6) := by
  unfold State.loadDone
  with_reducible repeat' (first
      | assumption | refine calm_drawMany (by assumption) ?_ | apply calm_drawMany' | apply calm_accessDone | apply calm_modCore
      | apply calm_id | apply calm_foldl | apply calm_foldr | apply calm_ite | split | intro _ | dsimp only)

theorem calm_loftCount {s₀ : State} {s : State} {a2 : Nat} {a3 : Nat} {a4 : Nat} {a5 : Nat} (h1 : Calm s₀ s) : Calm s₀ (State.loftCount s a2 a3 a4 a5) := by
  unfold State.loftCount
  with_reducible repeat' (first
      | assumption | apply calm_count | apply calm_id | apply calm_foldl | apply calm_foldr | apply calm_ite | split | intro _
      | dsimp only)

theorem calm_loftFailed {s₀ : State} {s : State} {a2 : LoftReq} (h1 : Calm s₀ s) : Calm s₀ (State.loftFailed s a2) := by
  unfold State.loftFailed
  with_reducible repeat' (first
      | assumption | apply calm_cause | apply calm_count | apply calm_report | apply calm_loftAnswer | apply calm_id
      | apply calm_foldl | apply calm_foldr | apply calm_ite | split | intro _ | dsimp only)

theorem calm_loftGot {s₀ : State} {s : State} {a2 : LoftReq} {a3 : LoftBlock} (h1 : Calm s₀ s) : Calm s₀ (State.loftGot s a2 a3) := by
  unfold State.loftGot
  with_reducible repeat' (first
      | assumption | apply calm_endLate | apply calm_loftAnswer | apply calm_id | apply calm_foldl | apply calm_foldr
      | apply calm_ite | split | intro _ | dsimp only)

theorem calm_loftRebuilt {s₀ : State} {s : State} {a2 : LoftReq} {a3 : Nat} {a4 : Nat} {a5 : Nat} {a6 : Bool} (h1 : Calm s₀ s) : Calm s₀ (State.loftRebuilt s a2 a3 a4 a5 a6) := by
  unfold State.loftRebuilt
  with_reducible repeat' (first
      | assumption | apply calm_loftCount | apply calm_endLate | apply calm_loftFailed | apply calm_loftGot
      | apply calm_channelBlock | apply calm_count | apply calm_id | apply calm_foldl | apply calm_foldr | apply calm_ite | split
      | intro _ | dsimp only)

theorem calm_markSent {s₀ : State} {s : State} {a2 : Nat} {a3 : Cmd} (h1 : Calm s₀ s) : Calm s₀ (State.markSent s a2 a3) := by
  unfold State.markSent
  with_reducible repeat' (first
      | assumption | apply calm_setAux | apply calm_id | apply calm_foldl | apply calm_foldr | apply calm_ite | split | intro _
      | dsimp only)

theorem calm_mboxAdvance {s₀ : State} {s : State} {a2 : Inbound} (h1 : Calm s₀ s) : Calm s₀ (State.mboxAdvance s a2) := by
  unfold State.mboxAdvance
  with_reducible repeat' (first
      | assumption | apply calm_modFab | apply calm_setRegN | apply calm_id | apply calm_foldl | apply calm_foldr | apply calm_ite
      | split | intro _ | dsimp only)

theorem calm_mboxHeader {s₀ : State} {s : State} {a2 : Nat} {a3 : Nat} {a4 : Nat} {a5 : Nat} {a6 : Nat} (h1 : Calm s₀ s) : Calm s₀ (State.mboxHeader s a2 a3 a4 a5 a6) := by
  unfold State.mboxHeader
  with_reducible repeat' (first
      | assumption | apply calm_postBytes | apply calm_id | apply calm_foldl | apply calm_foldr | apply calm_ite | split | intro _
      | dsimp only)

theorem calm_meStep {s₀ : State} {s : State} {a2 : Nat} {a3 : Nat} {a4 : Nat → Cmd → List Nat → State → State} (h1 : Calm s₀ s) (h4 : ∀ y0 y1 y2 y3, Calm s₀ y3 → Calm s₀ (a4 y0 y1 y2 y3)) : Calm s₀ (State.meStep s a2 a3 a4) := by
  unfold State.meStep
  with_reducible repeat' (first
      | assumption | apply calm_meEnd | apply calm_id | apply calm_foldl | apply calm_foldr | apply calm_ite | apply h4 | split
      | intro _ | dsimp only)

theorem calm_meWaitEnds {s₀ : State} {s : State} {a2 : Nat} {a3 : Option Nat} (h1 : Calm s₀ s) : Calm s₀ (State.meWaitEnds s a2 a3) := by
  unfold State.meWaitEnds
  with_reducible repeat' (first
      | assumption | apply calm_endWait | apply calm_meEnd | apply calm_meDone | apply calm_id | apply calm_foldl
      | apply calm_foldr | apply calm_ite | split | intro _ | dsimp only)

theorem calm_mergeHeads {s₀ : State} {s : State} {a2 : Nat} {a3 : Cmd} {a4 : Nat} {a5 : MCtx} {a6 : Nat} {a7 : List MStream} {a8 : List (Nat × MStream × Nat × Nat) → State → State} (h1 : Calm s₀ s) (h8 : ∀ y0 y1, Calm s₀ y1 → Calm s₀ (a8 y0 y1)) : Calm s₀ (State.mergeHeads s a2 a3 a4 a5 a6 a7 a8) := by
  induction a7 generalizing s a2 a3 a4 a5 a6 a8 h1 h8 with
  | nil =>
    unfold State.mergeHeads
    with_reducible repeat' (first
      | assumption | apply calm_coreRead | apply calm_id | apply calm_foldl | apply calm_foldr | apply calm_ite | apply h8 | split
      | intro _ | dsimp only)
  | cons _ _ ih =>
    unfold State.mergeHeads
    with_reducible repeat' (first
      | assumption | apply calm_coreRead | apply calm_id | apply calm_foldl | apply calm_foldr | apply calm_ite | apply h8 | split
      | intro _ | dsimp only | apply ih)

theorem calm_mergePrev {s₀ : State} {s : State} {a2 : Nat} {a3 : Cmd} {a4 : Nat} {a5 : MCtx} {a6 : MStream} {a7 : Option (Nat × Nat) → State → State} (h1 : Calm s₀ s) (h7 : ∀ y0 y1, Calm s₀ y1 → Calm s₀ (a7 y0 y1)) : Calm s₀ (State.mergePrev s a2 a3 a4 a5 a6 a7) := by
  unfold State.mergePrev
  with_reducible repeat' (first
      | assumption | apply calm_coreRead | apply calm_id | apply calm_foldl | apply calm_foldr | apply calm_ite | apply h7 | split
      | intro _ | dsimp only)

theorem calm_mergeRebuild {s₀ : State} {s : State} {a2 : Nat} {a3 : Cmd} {a4 : Nat} {a5 : MCtx} {a6 : Nat} {a7 : List Nat → State → State} (h1 : Calm s₀ s) (h7 : ∀ y0 y1, Calm s₀ y1 → Calm s₀ (a7 y0 y1)) : Calm s₀ (State.mergeRebuild s a2 a3 a4 a5 a6 a7) := by
  induction a6 generalizing s a2 a3 a4 a5 a7 h1 h7 with
  | zero =>
    unfold State.mergeRebuild
    with_reducible repeat' (first
      | assumption | apply calm_coreRead | apply calm_id | apply calm_foldl | apply calm_foldr | apply calm_ite | apply h7 | split
      | intro _ | dsimp only)
  | succ _ ih =>
    unfold State.mergeRebuild
    with_reducible repeat' (first
      | assumption | apply calm_coreRead | apply calm_id | apply calm_foldl | apply calm_foldr | apply calm_ite | apply h7 | split
      | intro _ | dsimp only | apply ih)

theorem calm_Work_arenasQuiet {s₀ : State} {a1 : Nat} {a2 : Cmd} {a3 : Nat} : CalmWork s₀ (Work.arenasQuiet a1 a2 a3) := by
  unfold Work.arenasQuiet
  with_reducible repeat' (first
      | assumption | apply calmw_bind | apply calmw_pure | apply calmw_mapM | apply calmw_forM | apply calmw_ite | apply calm_id
      | apply calm_Work_read | apply calm_id | apply calm_foldl | apply calm_foldr | apply calm_ite | split | intro _ | dsimp only)

theorem calm_migrateStep {s₀ : State} {s : State} {a2 : Nat} {a3 : Cmd} (h1 : Calm s₀ s) : Calm s₀ (State.migrateStep s a2 a3) := by
  unfold State.migrateStep
  with_reducible repeat' (first
      | assumption | apply calmw_bind | apply calmw_pure | apply calmw_mapM | apply calmw_forM | apply calmw_ite | apply calm_id
      | apply calm_storeAll | apply calm_swapState | apply calm_setAux | apply calm_endCmd | apply calm_work | apply calm_Work_read
      | apply calm_Work_act | apply calm_rowEvent | apply calm_Work_next | apply calm_Work_settled | apply calm_Work_arenasQuiet
      | apply calm_Work_view | apply calm_id | apply calm_foldl | apply calm_foldr | apply calm_ite | split | intro _ | dsimp only)

theorem calm_migrateUndo {s₀ : State} {s : State} {a2 : Nat} {a3 : Cmd} {a4 : Nat} {a5 : Nat} (h1 : Calm s₀ s) : Calm s₀ (State.migrateUndo s a2 a3 a4 a5) := by
  unfold State.migrateUndo
  with_reducible repeat' (first
      | assumption | apply calm_setAux | apply calm_id | apply calm_foldl | apply calm_foldr | apply calm_ite | split | intro _
      | dsimp only)

theorem calm_mirrorCmd {s₀ : State} {s : State} {a2 : Requester} {a3 : Word} {a4 : Nat → Mirror → State → State} (h1 : Calm s₀ s) (h4 : ∀ y0 y1 y2, Calm s₀ y2 → Calm s₀ (a4 y0 y1 y2)) : Calm s₀ (State.mirrorCmd s a2 a3 a4) := by
  unfold State.mirrorCmd
  with_reducible repeat' (first
      | assumption | apply calm_access | apply calm_store | apply calm_id | apply calm_foldl | apply calm_foldr | apply calm_ite
      | apply h4 | split | intro _ | dsimp only)

theorem calm_mirrorRelease {s₀ : State} {s : State} {a2 : Nat} {a3 : Mirror} {a4 : Bool} (h1 : Calm s₀ s) : Calm s₀ (State.mirrorRelease s a2 a3 a4) := by
  unfold State.mirrorRelease
  with_reducible repeat' (first
      | assumption | apply calm_ackStore | apply calm_request | apply calm_id | apply calm_foldl | apply calm_foldr
      | apply calm_ite | split | intro _ | dsimp only | refine calm_mk ?_ rfl rfl)

theorem calm_mirrorResend {s₀ : State} {s : State} {a2 : Nat} (h1 : Calm s₀ s) : Calm s₀ (State.mirrorResend s a2) := by
  unfold State.mirrorResend
  with_reducible repeat' (first
      | assumption | refine calm_send (by assumption) ?_ | apply calm_mirrorUnreachable | apply calm_id | apply calm_foldl
      | apply calm_foldr | apply calm_ite | split | intro _ | dsimp only)

theorem calm_modForward {s₀ : State} {s : State} {a2 : Nat} {a3 : Forward → Forward} (h1 : Calm s₀ s) : Calm s₀ (State.modForward s a2 a3) := by
  unfold State.modForward
  with_reducible repeat' (first
      | assumption | apply calm_id | apply calm_foldl | apply calm_foldr | apply calm_ite | split | intro _ | dsimp only
      | refine calm_mk ?_ rfl rfl)

theorem calm_moveEnd {s₀ : State} {s : State} {a2 : Nat} {a3 : Cmd} {a4 : Nat} (h1 : Calm s₀ s) : Calm s₀ (State.moveEnd s a2 a3 a4) := by
  unfold State.moveEnd
  with_reducible repeat' (first
      | assumption | apply calm_endCmd | apply calm_loftForget | apply calm_id | apply calm_foldl | apply calm_foldr
      | apply calm_ite | split | intro _ | dsimp only)

theorem calm_placeStart {s₀ : State} {s : State} {a2 : Nat} {a3 : Cmd} (h1 : Calm s₀ s) : Calm s₀ (State.placeStart s a2 a3) := by
  unfold State.placeStart
  with_reducible repeat' (first
      | assumption | apply calm_endCmd | apply calm_ftTouches | apply calm_setT0Owner | apply calm_setAux | apply calm_storeAll
      | apply calm_id | apply calm_foldl | apply calm_foldr | apply calm_ite | split | intro _ | dsimp only)

theorem calm_moveStart {s₀ : State} {s : State} {a2 : Nat} {a3 : Cmd} (h1 : Calm s₀ s) : Calm s₀ (State.moveStart s a2 a3) := by
  unfold State.moveStart
  with_reducible repeat' (first
      | assumption | apply calm_endCmd | apply calm_whenReadable | apply calm_placeStart | apply calm_modCmd
      | apply calm_escClearDst | apply calm_setAux | apply calm_id | apply calm_foldl | apply calm_foldr | apply calm_ite | split
      | intro _ | dsimp only)

theorem calm_moveStep {s₀ : State} {s : State} {a2 : Nat} {a3 : Nat} {a4 : Nat} {a5 : Nat} {a6 : State → Cmd → State} (h1 : Calm s₀ s) (h6 : ∀ y0 y1, Calm s₀ y0 → Calm s₀ (a6 y0 y1)) : Calm s₀ (State.moveStep s a2 a3 a4 a5 a6) := by
  unfold State.moveStep
  with_reducible repeat' (first
      | assumption | apply calm_moveEnd | apply calm_moveStart | apply calm_id | apply calm_foldl | apply calm_foldr
      | apply calm_ite | apply h6 | split | intro _ | dsimp only)

theorem calm_settleStalled {s₀ : State} {s : State} (h1 : Calm s₀ s) : Calm s₀ (State.settleStalled s) := by
  unfold State.settleStalled
  with_reducible repeat' (first
      | assumption | apply calm_sendOrLose | apply calm_modFab | apply calm_id | apply calm_foldl | apply calm_foldr
      | apply calm_ite | split | intro _ | dsimp only)

theorem calm_msgComplete {s₀ : State} {s : State} {a2 : Nat} {a3 : Cmd} (h1 : Calm s₀ s) : Calm s₀ (State.msgComplete s a2 a3) := by
  unfold State.msgComplete
  with_reducible repeat' (first
      | assumption | apply calm_settleStalled | apply calm_complete | apply calm_id | apply calm_foldl | apply calm_foldr
      | apply calm_ite | split | intro _ | dsimp only)

theorem calm_msgAnswer {s₀ : State} {s : State} {a2 : Packet} {a3 : Nat} {a4 : Nat → Cmd → State → State} (h1 : Calm s₀ s) (h4 : ∀ y0 y1 y2, Calm s₀ y2 → Calm s₀ (a4 y0 y1 y2)) : Calm s₀ (State.msgAnswer s a2 a3 a4) := by
  unfold State.msgAnswer
  with_reducible repeat' (first
      | assumption | apply calm_receive | apply calm_msgComplete | apply calm_id | apply calm_foldl | apply calm_foldr
      | apply calm_ite | apply h4 | split | intro _ | dsimp only)

theorem calm_msgReply {s₀ : State} {s : State} {a2 : Packet} {a3 : Nat} (h1 : Calm s₀ s) : Calm s₀ (State.msgReply s a2 a3) := by
  unfold State.msgReply
  with_reducible repeat' (first
      | assumption | apply calm_respond | apply calm_id | apply calm_foldl | apply calm_foldr | apply calm_ite | split | intro _
      | dsimp only)

theorem calm_msgSendData {s₀ : State} {s : State} {a2 : Nat} {a3 : Nat} {a4 : Nat} {a5 : Nat} (h1 : Calm s₀ s) : Calm s₀ (State.msgSendData s a2 a3 a4 a5) := by
  induction a5 generalizing s a2 a3 a4 h1 with
  | zero =>
    unfold State.msgSendData
    with_reducible repeat' (first
      | assumption | apply calm_whenReady | refine calm_fetchAll (by assumption) ?_ | apply calm_fetchAll' | apply calm_workDone
      | apply calm_endCmd | apply calm_unitSend | apply calm_setAux | apply calm_id | apply calm_foldl | apply calm_foldr
      | apply calm_ite | split | intro _ | dsimp only)
  | succ _ ih =>
    unfold State.msgSendData
    with_reducible repeat' (first
      | assumption | apply calm_whenReady | refine calm_fetchAll (by assumption) ?_ | apply calm_fetchAll' | apply calm_workDone
      | apply calm_endCmd | apply calm_unitSend | apply calm_setAux | apply calm_id | apply calm_foldl | apply calm_foldr
      | apply calm_ite | split | intro _ | dsimp only | apply ih)

theorem calm_nakFlit {s₀ : State} {s : State} {a2 : Nat} (h1 : Calm s₀ s) : Calm s₀ (State.nakFlit s a2) := by
  unfold State.nakFlit
  with_reducible repeat' (first
      | assumption | apply calm_modPort | apply calm_id | apply calm_foldl | apply calm_foldr | apply calm_ite | split | intro _
      | dsimp only)

theorem calm_nextIncarnation {s₀ : State} {s : State} (h1 : Calm s₀ s) : Calm s₀ (State.nextIncarnation s) := by
  unfold State.nextIncarnation
  with_reducible repeat' (first
      | assumption | apply calm_setRegF | apply calm_modBoot | apply calm_id | apply calm_foldl | apply calm_foldr | apply calm_ite
      | split | intro _ | dsimp only)

theorem calm_offerRelease {s₀ : State} {s : State} {a2 : Nat} {a3 : Range} (h1 : Calm s₀ s) : Calm s₀ (State.offerRelease s a2 a3) := by
  unfold State.offerRelease
  with_reducible repeat' (first
      | assumption | apply calm_eventRecord | apply calm_setExtents | apply calm_id | apply calm_foldl | apply calm_foldr
      | apply calm_ite | split | intro _ | dsimp only)

theorem calm_onSync {s₀ : State} {s : State} {a2 : Packet} {a3 : Nat} {a4 : State → State} (h1 : Calm s₀ s) (h4 : ∀ y0, Calm s₀ y0 → Calm s₀ (a4 y0)) : Calm s₀ (State.onSync s a2 a3 a4) := by
  unfold State.onSync
  with_reducible repeat' (first
      | assumption | apply calm_windowed | apply calm_receive | apply calm_id | apply calm_foldl | apply calm_foldr
      | apply calm_ite | apply h4 | split | intro _ | dsimp only)

theorem calm_setHeld {s₀ : State} {s : State} {a2 : Requester} {a3 : Nat} {a4 : Option Word} (h1 : Calm s₀ s) : Calm s₀ (State.setHeld s a2 a3 a4) := by
  unfold State.setHeld
  with_reducible repeat' (first
      | assumption | apply calm_id | apply calm_foldl | apply calm_foldr | apply calm_ite | split | intro _ | dsimp only
      | refine calm_mk ?_ rfl rfl)

theorem calm_pairDone {s₀ : State} {s : State} {a2 : Requester} {a3 : Nat} {a4 : Word} (h1 : Calm s₀ s) : Calm s₀ (State.pairDone s a2 a3 a4) := by
  unfold State.pairDone
  with_reducible repeat' (first
      | assumption | apply calm_store | apply calm_setHeld | apply calm_id | apply calm_foldl | apply calm_foldr | apply calm_ite
      | split | intro _ | dsimp only)

theorem calm_pairHigh {s₀ : State} {s : State} {a2 : Requester} {a3 : Nat} {a4 : Word} {a5 : State → State} (h1 : Calm s₀ s) (h5 : ∀ y0, Calm s₀ y0 → Calm s₀ (a5 y0)) : Calm s₀ (State.pairHigh s a2 a3 a4 a5) := by
  unfold State.pairHigh
  with_reducible repeat' (first
      | assumption | apply calm_access | apply calm_pairDone | apply calm_id | apply calm_foldl | apply calm_foldr | apply calm_ite
      | apply h5 | split | intro _ | dsimp only)

theorem calm_pairLow {s₀ : State} {s : State} {a2 : Requester} {a3 : Nat} {a4 : Word} (h1 : Calm s₀ s) : Calm s₀ (State.pairLow s a2 a3 a4) := by
  unfold State.pairLow
  with_reducible repeat' (first
      | assumption | apply calm_access | apply calm_setHeld | apply calm_id | apply calm_foldl | apply calm_foldr | apply calm_ite
      | split | intro _ | dsimp only)

theorem calm_paramResult {s₀ : State} {s : State} {a2 : Nat} (h1 : Calm s₀ s) : Calm s₀ (State.paramResult s a2) := by
  unfold State.paramResult
  with_reducible repeat' (first
      | assumption | apply calm_setRegF | apply calm_id | apply calm_foldl | apply calm_foldr | apply calm_ite | split | intro _
      | dsimp only)

theorem calm_setPhase {s₀ : State} {s : State} {a2 : Nat} {a3 : Cmd} {a4 : Phase} (h1 : Calm s₀ s) : Calm s₀ (State.setPhase s a2 a3 a4) := by
  unfold State.setPhase
  with_reducible repeat' (first
      | assumption | apply calm_modCmd | apply calm_id | apply calm_foldl | apply calm_foldr | apply calm_ite | split | intro _
      | dsimp only)

theorem calm_pinNext {s₀ : State} {s : State} {a2 : Nat} {a3 : Cmd} {a4 : Named} {a5 : Nat} (h1 : Calm s₀ s) : Calm s₀ (State.pinNext s a2 a3 a4 a5) := by
  unfold State.pinNext
  with_reducible repeat' (first
      | assumption | apply calm_setPhase | apply calm_raiseFault | refine calm_translate (by assumption) ?_ | apply calm_translate'
      | apply calm_modCmd | apply calm_want | apply calm_id | apply calm_foldl | apply calm_foldr | apply calm_ite | split
      | intro _ | dsimp only)

theorem calm_prepareAnswer {s₀ : State} {s : State} {a2 : Nat} {a3 : Nat} {a4 : Nat} {a5 : Nat} (h1 : Calm s₀ s) : Calm s₀ (State.prepareAnswer s a2 a3 a4 a5) := by
  unfold State.prepareAnswer
  with_reducible repeat' (first
      | assumption | apply calm_sequenced | apply calm_modProposal | apply calm_id | apply calm_foldl | apply calm_foldr
      | apply calm_ite | split | intro _ | dsimp only)

theorem calm_wornOut {s₀ : State} {s : State} {a2 : Nat} (h1 : Calm s₀ s) : Calm s₀ (State.wornOut s a2) := by
  unfold State.wornOut
  with_reducible repeat' (first
      | assumption | apply calm_report | apply calm_cause | apply calm_id | apply calm_foldl | apply calm_foldr | apply calm_ite
      | split | intro _ | dsimp only)

theorem calm_programStripe {s₀ : State} {s : State} {a2 : Nat} {a3 : List Staged} {a4 : Nat} (h1 : Calm s₀ s) : Calm s₀ (State.programStripe s a2 a3 a4) := by
  unfold State.programStripe
  with_reducible repeat' (first
      | assumption | apply calm_modLoft | apply calm_wornOut | apply calm_modSuper | apply calm_id | apply calm_foldl
      | apply calm_foldr | apply calm_ite | split | intro _ | dsimp only)

theorem calm_showQuarantined {s₀ : State} {s : State} {a2 : Nat} {a3 : Cmd} (h1 : Calm s₀ s) : Calm s₀ (State.showQuarantined s a2 a3) := by
  unfold State.showQuarantined
  with_reducible repeat' (first
      | assumption | apply calm_modCmd | apply calm_id | apply calm_foldl | apply calm_foldr | apply calm_ite | split | intro _
      | dsimp only)

theorem calm_winQuarEnd {s₀ : State} {s : State} {a2 : Nat} {a3 : Cmd} (h1 : Calm s₀ s) : Calm s₀ (State.winQuarEnd s a2 a3) := by
  unfold State.winQuarEnd
  with_reducible repeat' (first
      | assumption | apply calm_rowEnd | apply calm_loftForget | apply calm_compactDone | apply calm_winStop | apply calm_id
      | apply calm_foldl | apply calm_foldr | apply calm_ite | split | intro _ | dsimp only)

theorem calm_quarStop {s₀ : State} {s : State} {a2 : UnitKind} {a3 : Nat} {a4 : Nat} {a5 : Cmd} {t : State} (e : State.quarStop s a2 a3 a4 a5 = some t) (h1 : Calm s₀ s) : Calm s₀ t := by
  unfold State.quarStop at e
  repeat' (first | (split at e) | (dsimp only at e))
  all_goals (first | (cases e) | (simp only [Option.map_eq_some_iff] at e; obtain ⟨_, _, rfl⟩ := e) | (simp only [Option.some.injEq, Prod.mk.injEq] at e; obtain ⟨_, rfl⟩ := e) | (simp only [Option.some.injEq, Prod.mk.injEq] at e; subst e) | skip)
  all_goals with_reducible repeat' (first
      | assumption | apply calm_meEnd | apply calm_endCmd | apply calm_gcEnd | apply calm_endWait | apply calm_endFaultsOf
      | apply calm_showQuarantined | apply calm_rowEnd | apply calm_winQuarEnd | apply calm_id | apply calm_foldl
      | apply calm_foldr | apply calm_ite | split | intro _ | dsimp only)

theorem calm_queryAnswer {s₀ : State} {s : State} {a2 : Nat} {a3 : Nat} {a4 : Nat} {a5 : Nat} (h1 : Calm s₀ s) : Calm s₀ (State.queryAnswer s a2 a3 a4 a5) := by
  unfold State.queryAnswer
  with_reducible repeat' (first
      | assumption | apply calm_commitComp | apply calm_abortComp | apply calm_setPrepared | apply calm_id | apply calm_foldl
      | apply calm_foldr | apply calm_ite | split | intro _ | dsimp only)

theorem calm_queuePacket {s₀ : State} {s : State} {a2 : Nat} {a3 : Nat} {a4 : List Nat} (h1 : Calm s₀ s) : Calm s₀ (State.queuePacket s a2 a3 a4) := by
  unfold State.queuePacket
  with_reducible repeat' (first
      | assumption | apply calm_modPart | apply calm_id | apply calm_foldl | apply calm_foldr | apply calm_ite | split | intro _
      | dsimp only)

theorem calm_readAt {s₀ : State} {s : State} {a2 : Nat} {r0} {r1} {t} (e : State.readAt s a2 = (r0, r1, t)) (h1 : Calm s₀ s) : Calm s₀ t := by
  unfold State.readAt at e
  repeat' (first | (split at e) | (dsimp only at e))
  all_goals (first | (cases e) | (simp only [Option.map_eq_some_iff] at e; obtain ⟨_, _, rfl⟩ := e) | (simp only [Option.some.injEq, Prod.mk.injEq] at e; obtain ⟨_, rfl⟩ := e) | (simp only [Option.some.injEq, Prod.mk.injEq] at e; subst e) | skip)
  all_goals with_reducible repeat' (first
      | assumption | refine calm_draw (by assumption) ?_ | apply calm_draw' | apply calm_id | apply calm_foldl | apply calm_foldr
      | apply calm_ite | split | intro _ | dsimp only)

theorem calm_readAt' {s₀ : State} {s : State} {a2 : Nat} (h1 : Calm s₀ s) : Calm s₀ (State.readAt s a2).2.2 :=
  calm_readAt (e := (Prod.eta _).symm) h1

theorem calm_readCxl {s₀ : State} {s : State} {a2 : Nat} {a3 : CxlPart} {a4 : Nat} {r0} {t} (e : State.readCxl s a2 a3 a4 = (r0, t)) (h1 : Calm s₀ s) : Calm s₀ t := by
  unfold State.readCxl at e
  repeat' (first | (split at e) | (dsimp only at e))
  all_goals (first | (cases e) | (simp only [Option.map_eq_some_iff] at e; obtain ⟨_, _, rfl⟩ := e) | (simp only [Option.some.injEq, Prod.mk.injEq] at e; obtain ⟨_, rfl⟩ := e) | (simp only [Option.some.injEq, Prod.mk.injEq] at e; subst e) | skip)
  all_goals with_reducible repeat' (first
      | assumption | refine calm_draw (by assumption) ?_ | apply calm_draw' | apply calm_id | apply calm_foldl | apply calm_foldr
      | apply calm_ite | split | intro _ | dsimp only)

theorem calm_readCxl' {s₀ : State} {s : State} {a2 : Nat} {a3 : CxlPart} {a4 : Nat} (h1 : Calm s₀ s) : Calm s₀ (State.readCxl s a2 a3 a4).2 :=
  calm_readCxl (e := (Prod.eta _).symm) h1

theorem calm_readInput {s₀ : State} {s : State} {a2 : Nat} {a3 : Cmd} {a4 : Nat} {a5 : List (Nat × Nat)} (h1 : Calm s₀ s) : Calm s₀ (State.readInput s a2 a3 a4 a5) := by
  unfold State.readInput
  with_reducible repeat' (first
      | assumption | apply calm_failCmd | apply calm_whenReady | refine calm_fetchAll (by assumption) ?_ | apply calm_fetchAll'
      | apply calm_modCmd | apply calm_id | apply calm_foldl | apply calm_foldr | apply calm_ite | split | intro _ | dsimp only)

theorem calm_readUe {s₀ : State} {s : State} {a2 : Nat} {a3 : Option (BitVec 16)} {a4 : Nat} (h1 : Calm s₀ s) : Calm s₀ (State.readUe s a2 a3 a4) := by
  unfold State.readUe
  with_reducible repeat' (first
      | assumption | apply calm_t1Uncorrectable | apply calm_id | apply calm_foldl | apply calm_foldr | apply calm_ite | split
      | intro _ | dsimp only)

theorem calm_resetCxlPort {s₀ : State} {s : State} {a2 : Nat} {a3 : Nat} (h1 : Calm s₀ s) : Calm s₀ (State.resetCxlPort s a2 a3) := by
  unfold State.resetCxlPort
  with_reducible repeat' (first
      | assumption | apply calm_cause | apply calm_count | apply calm_setRegN | apply calm_modLd | apply calm_dropPending
      | apply calm_hostsLost | apply calm_id | apply calm_foldl | apply calm_foldr | apply calm_ite | split | intro _ | dsimp only
      | refine calm_mk ?_ rfl rfl)

theorem calm_releaseEntries {s₀ : State} {s : State} {a2 : Range} (h1 : Calm s₀ s) : Calm s₀ (State.releaseEntries s a2) := by
  unfold State.releaseEntries
  with_reducible repeat' (first
      | assumption | apply calm_afterLine | apply calm_setEntry | apply calm_id | apply calm_foldl | apply calm_foldr
      | apply calm_ite | split | intro _ | dsimp only)

theorem calm_releaseRing {s₀ : State} {s : State} {a2 : Nat} {a3 : Nat} (h1 : Calm s₀ s) : Calm s₀ (State.releaseRing s a2 a3) := by
  unfold State.releaseRing
  with_reducible repeat' (first
      | assumption | apply calm_disableRing | apply calm_dropRing | apply calm_unloadAll | apply calm_id | apply calm_foldl
      | apply calm_foldr | apply calm_ite | split | intro _ | dsimp only)

theorem calm_releaseStructures {s₀ : State} {s : State} {a2 : Nat} {a3 : Range} (h1 : Calm s₀ s) : Calm s₀ (State.releaseStructures s a2 a3) := by
  unfold State.releaseStructures
  with_reducible repeat' (first
      | assumption | apply calm_releaseRing | apply calm_pcause | apply calm_xltOff | apply calm_beginUnload | apply calm_id
      | apply calm_foldl | apply calm_foldr | apply calm_ite | split | intro _ | dsimp only)

theorem calm_releasePoint {s₀ : State} {s : State} {a2 : Nat} {a3 : Range} (h1 : Calm s₀ s) : Calm s₀ (State.releasePoint s a2 a3) := by
  unfold State.releasePoint
  with_reducible repeat' (first
      | assumption | apply calm_releaseEntries | apply calm_releaseStructures | apply calm_id | apply calm_foldl | apply calm_foldr
      | apply calm_ite | split | intro _ | dsimp only | refine calm_mk ?_ rfl rfl)

theorem calm_releaseTags {s₀ : State} {s : State} (h1 : Calm s₀ s) : Calm s₀ (State.releaseTags s) := by
  unfold State.releaseTags
  with_reducible repeat' (first
      | assumption | apply calm_request | apply calm_modHomes | apply calm_id | apply calm_foldl | apply calm_foldr
      | apply calm_ite | split | intro _ | dsimp only)

theorem calm_replaceEntry {s₀ : State} {s : State} {a2 : Nat} {a3 : QEntry} {a4 : QEntry} (h1 : Calm s₀ s) : Calm s₀ (State.replaceEntry s a2 a3 a4) := by
  unfold State.replaceEntry
  with_reducible repeat' (first
      | assumption | apply calm_modPort | apply calm_id | apply calm_foldl | apply calm_foldr | apply calm_ite | split | intro _
      | dsimp only)

theorem calm_replayAll {s₀ : State} {s : State} {a2 : Nat} (h1 : Calm s₀ s) : Calm s₀ (State.replayAll s a2) := by
  unfold State.replayAll
  with_reducible repeat' (first
      | assumption | apply calm_linkFail | apply calm_cause | apply calm_count | apply calm_modPort | apply calm_emitFlit
      | apply calm_id | apply calm_foldl | apply calm_foldr | apply calm_ite | split | intro _ | dsimp only)

theorem calm_resumeOne {s₀ : State} {s : State} {a2 : Nat} {a3 : HeldFault} (h1 : Calm s₀ s) : Calm s₀ (State.resumeOne s a2 a3) := by
  unfold State.resumeOne
  with_reducible repeat' (first
      | assumption | apply calm_dropXlt | apply calm_endFault | apply calm_modCmd | apply calm_id | apply calm_foldl
      | apply calm_foldr | apply calm_ite | split | intro _ | dsimp only)

theorem calm_retireBlock {s₀ : State} {s : State} {a2 : Nat} {a3 : Nat} {a4 : Nat} (h1 : Calm s₀ s) : Calm s₀ (State.retireBlock s a2 a3 a4) := by
  unfold State.retireBlock
  with_reducible repeat' (first
      | assumption | apply calm_count | apply calm_loftMove | apply calm_modLoft | apply calm_id | apply calm_foldl
      | apply calm_foldr | apply calm_ite | split | intro _ | dsimp only)

theorem calm_ringReady {s₀ : State} {s : State} {a2 : Nat} {a3 : Nat} (h1 : Calm s₀ s) : Calm s₀ (State.ringReady s a2 a3) := by
  unfold State.ringReady
  with_reducible repeat' (first
      | assumption | apply calm_setRegF | apply calm_modRing | apply calm_modPart | apply calm_setRegN | apply calm_modFab
      | apply calm_rearm | apply calm_id | apply calm_foldl | apply calm_foldr | apply calm_ite | split | intro _ | dsimp only)

theorem calm_unitStep {s₀ : State} {s : State} {a2 : Nat} {a3 : Nat} {a4 : Nat} {a5 : Nat} {a6 : UnitKind} {a7 : Cmd → Bool} {a8 : State → Cmd → State} {a9 : State → Cmd → State} (h1 : Calm s₀ s) (h8 : ∀ y0 y1, Calm s₀ y0 → Calm s₀ (a8 y0 y1)) (h9 : ∀ y0 y1, Calm s₀ y0 → Calm s₀ (a9 y0 y1)) : Calm s₀ (State.unitStep s a2 a3 a4 a5 a6 a7 a8 a9) := by
  unfold State.unitStep
  with_reducible repeat' (first
      | assumption | apply calm_id | apply calm_foldl | apply calm_foldr | apply calm_ite | apply h8 | apply h9 | split | intro _
      | dsimp only)

theorem calm_rowStep {s₀ : State} {s : State} {a2 : Nat} {a3 : Nat} {a4 : Nat} {a5 : Nat} {a6 : Cmd → Bool} {a7 : Cmd → Bool} {a8 : State → Cmd → State} {a9 : State → Cmd → State} (h1 : Calm s₀ s) (h8 : ∀ y0 y1, Calm s₀ y0 → Calm s₀ (a8 y0 y1)) (h9 : ∀ y0 y1, Calm s₀ y0 → Calm s₀ (a9 y0 y1)) : Calm s₀ (State.rowStep s a2 a3 a4 a5 a6 a7 a8 a9) := by
  unfold State.rowStep
  with_reducible repeat' (first
      | assumption | apply calm_unitStep | apply calm_rowEnd | apply calm_endCmd | apply calm_id | apply calm_foldl
      | apply calm_foldr | apply calm_ite | apply h8 | apply h9 | split | intro _ | dsimp only)

theorem calm_slotDone {s₀ : State} {s : State} {a2 : Nat} {a3 : Nat} {a4 : Cmd} {a5 : Slot} {a6 : Nat} (h1 : Calm s₀ s) : Calm s₀ (State.slotDone s a2 a3 a4 a5 a6) := by
  unfold State.slotDone
  with_reducible repeat' (first
      | assumption | apply calm_modEngine | apply calm_meDone | apply calm_pcause | apply calm_count | apply calm_id
      | apply calm_foldl | apply calm_foldr | apply calm_ite | split | intro _ | dsimp only)

theorem calm_runSlot {s₀ : State} {s : State} {a2 : Nat} {a3 : Nat} {a4 : Cmd} {a5 : Nat} {a6 : List Attempt} (h1 : Calm s₀ s) : Calm s₀ (State.runSlot s a2 a3 a4 a5 a6) := by
  unfold State.runSlot
  with_reducible repeat' (first
      | assumption | apply calm_meEnd | apply calm_attempts | apply calm_slotDone | apply calm_id | apply calm_foldl
      | apply calm_foldr | apply calm_ite | split | intro _ | dsimp only)

theorem calm_sclClear {s₀ : State} {s : State} {a2 : Nat} (h1 : Calm s₀ s) : Calm s₀ (State.sclClear s a2) := by
  unfold State.sclClear
  with_reducible repeat' (first
      | assumption | apply calm_setReg64 | apply calm_setRegN | apply calm_modScaler | apply calm_id | apply calm_foldl
      | apply calm_foldr | apply calm_ite | split | intro _ | dsimp only)

theorem calm_sclRunAll {s₀ : State} {s : State} {a2 : Nat} (h1 : Calm s₀ s) : Calm s₀ (State.sclRunAll s a2) := by
  unfold State.sclRunAll
  with_reducible repeat' (first
      | assumption | apply calm_setRegF | apply calm_id | apply calm_foldl | apply calm_foldr | apply calm_ite | split | intro _
      | dsimp only)

theorem calm_scrubOrphan {s₀ : State} {s : State} {a2 : Nat} (h1 : Calm s₀ s) : Calm s₀ (State.scrubOrphan s a2) := by
  unfold State.scrubOrphan
  with_reducible repeat' (first
      | assumption | apply calm_recoverOrphan | apply calm_takeVictim | apply calm_modHomes | apply calm_id | apply calm_foldl
      | apply calm_foldr | apply calm_ite | split | intro _ | dsimp only)

theorem calm_segCarry {s₀ : State} {s : State} {a2 : Nat} {a3 : Cmd} {a4 : Nat} (h1 : Calm s₀ s) : Calm s₀ (State.segCarry s a2 a3 a4) := by
  unfold State.segCarry
  with_reducible repeat' (first
      | assumption | refine calm_escCarry (by assumption) ?_ | apply calm_moveEnd | apply calm_pcause | apply calm_id
      | apply calm_foldl | apply calm_foldr | apply calm_ite | split | intro _ | dsimp only)

theorem calm_storeLines {s₀ : State} {s : State} {a2 : Nat} {a3 : Cmd} {a4 : Nat} {a5 : List LineVal} (h1 : Calm s₀ s) : Calm s₀ (State.storeLines s a2 a3 a4 a5) := by
  unfold State.storeLines
  with_reducible repeat' (first
      | assumption | apply calm_event | apply calm_storeLine | apply calm_id | apply calm_foldl | apply calm_foldr | apply calm_ite
      | split | intro _ | dsimp only)

theorem calm_segment {s₀ : State} {s : State} {a2 : Nat} {a3 : Cmd} (h1 : Calm s₀ s) : Calm s₀ (State.segment s a2 a3) := by
  unfold State.segment
  with_reducible repeat' (first
      | assumption | refine calm_segSource (by assumption) ?_ | apply calm_segSource' | apply calm_segUsed | apply calm_storeLines
      | apply calm_segCarry | apply calm_segDone | apply calm_id | apply calm_foldl | apply calm_foldr | apply calm_ite | split
      | intro _ | dsimp only)

theorem calm_semWait {s₀ : State} {s : State} {a2 : SemWaiter} {a3 : Nat} {a4 : Nat} {a5 : Nat} (h1 : Calm s₀ s) : Calm s₀ (State.semWait s a2 a3 a4 a5) := by
  unfold State.semWait
  with_reducible repeat' (first
      | assumption | apply calm_modSync | apply calm_id | apply calm_foldl | apply calm_foldr | apply calm_ite | split | intro _
      | dsimp only)

theorem calm_sendAll {s₀ : State} {s : State} {a2 : Nat} {a3 : List ErrRec} (h1 : Calm s₀ s) : Calm s₀ (State.sendAll s a2 a3) := by
  induction a2 generalizing s a3 h1 with
  | zero =>
    unfold State.sendAll
    with_reducible repeat' (first
      | assumption | apply calm_sendRecords | apply calm_id | apply calm_foldl | apply calm_foldr | apply calm_ite | split
      | intro _ | dsimp only)
  | succ _ ih =>
    unfold State.sendAll
    with_reducible repeat' (first
      | assumption | apply calm_sendRecords | apply calm_id | apply calm_foldl | apply calm_foldr | apply calm_ite | split
      | intro _ | dsimp only | apply ih)

theorem calm_sendFlit {s₀ : State} {s : State} {a2 : Nat} {a3 : Nat} {a4 : Nat} {a5 : List Nat} (h1 : Calm s₀ s) : Calm s₀ (State.sendFlit s a2 a3 a4 a5) := by
  unfold State.sendFlit
  with_reducible repeat' (first
      | assumption | apply calm_modPort | apply calm_emitFlit | apply calm_id | apply calm_foldl | apply calm_foldr
      | apply calm_ite | split | intro _ | dsimp only)

theorem calm_sendData {s₀ : State} {s : State} {a2 : Nat} {a3 : List (List Nat)} {a4 : Nat} {a5 : List Packet} (h1 : Calm s₀ s) : Calm s₀ (State.sendData s a2 a3 a4 a5) := by
  unfold State.sendData
  with_reducible repeat' (first
      | assumption | apply calm_sendFlit | apply calm_modPort | apply calm_id | apply calm_foldl | apply calm_foldr
      | apply calm_ite | split | intro _ | dsimp only)

theorem calm_sendPending {s₀ : State} {s : State} {a2 : Nat} (h1 : Calm s₀ s) : Calm s₀ (State.sendPending s a2) := by
  unfold State.sendPending
  with_reducible repeat' (first
      | assumption | apply calm_emit | apply calm_modLd | apply calm_id | apply calm_foldl | apply calm_foldr | apply calm_ite
      | split | intro _ | dsimp only)

theorem calm_sendTag {s₀ : State} {s : State} {a2 : Nat} (h1 : Calm s₀ s) : Calm s₀ (State.sendTag s a2) := by
  unfold State.sendTag
  with_reducible repeat' (first
      | assumption | apply calm_sendFlit | apply calm_modPort | apply calm_id | apply calm_foldl | apply calm_foldr
      | apply calm_ite | split | intro _ | dsimp only)

theorem calm_served {s₀ : State} {s : State} {a2 : Transport} {a3 : State → State} (h1 : Calm s₀ s) (h3 : ∀ y0, Calm s₀ y0 → Calm s₀ (a3 y0)) : Calm s₀ (State.served s a2 a3) := by
  unfold State.served
  with_reducible repeat' (first
      | assumption | apply calm_id | apply calm_foldl | apply calm_foldr | apply calm_ite | apply h3 | split | intro _ | dsimp only)

theorem calm_setLatch {s₀ : State} {s : State} {a2 : Requester} {a3 : Word} (h1 : Calm s₀ s) : Calm s₀ (State.setLatch s a2 a3) := by
  unfold State.setLatch
  with_reducible repeat' (first
      | assumption | apply calm_id | apply calm_foldl | apply calm_foldr | apply calm_ite | split | intro _ | dsimp only
      | refine calm_mk ?_ rfl rfl)

theorem calm_setShadow {s₀ : State} {s : State} {a2 : Option (List Nat)} (h1 : Calm s₀ s) : Calm s₀ (State.setShadow s a2) := by
  unfold State.setShadow
  with_reducible repeat' (first
      | assumption | apply calm_setRegN | apply calm_setRegF | apply calm_modBoot | apply calm_id | apply calm_foldl
      | apply calm_foldr | apply calm_ite | split | intro _ | dsimp only)

theorem calm_setXfer {s₀ : State} {s : State} {a2 : Nat} {a3 : Option Xfer} (h1 : Calm s₀ s) : Calm s₀ (State.setXfer s a2 a3) := by
  unfold State.setXfer
  with_reducible repeat' (first
      | assumption | apply calm_setRegF | apply calm_id | apply calm_foldl | apply calm_foldr | apply calm_ite | split | intro _
      | dsimp only | refine calm_mk ?_ rfl rfl)

theorem calm_sign {s₀ s : State} {r0} {t} (e : State.sign s = (r0, t)) (h1 : Calm s₀ s) : Calm s₀ t := by
  unfold State.sign at e
  injection e with _ e
  subst e
  exact calm_mk h1 rfl rfl

theorem calm_sign' {s₀ s : State} (h1 : Calm s₀ s) : Calm s₀ (State.sign s).2 := calm_sign (e := (Prod.eta _).symm) h1


theorem calm_spillRead {s₀ : State} {s : State} {a2 : Nat} {a3 : Nat} {t} {r1} {r2} (e : State.spillRead s a2 a3 = (t, r1, r2)) (h1 : Calm s₀ s) : Calm s₀ t := by
  unfold State.spillRead at e
  repeat' (first | (split at e) | (dsimp only at e))
  all_goals (first | (cases e) | (simp only [Option.map_eq_some_iff] at e; obtain ⟨_, _, rfl⟩ := e) | (simp only [Option.some.injEq, Prod.mk.injEq] at e; obtain ⟨_, rfl⟩ := e) | (simp only [Option.some.injEq, Prod.mk.injEq] at e; subst e) | skip)
  all_goals with_reducible repeat' (first
      | assumption | apply calm_spillLines | apply calm_t1Find | apply calm_t1Line | apply calm_id | apply calm_foldl
      | apply calm_foldr | apply calm_ite | split | intro _ | dsimp only)

theorem calm_spillRead' {s₀ : State} {s : State} {a2 : Nat} {a3 : Nat} (h1 : Calm s₀ s) : Calm s₀ (State.spillRead s a2 a3).1 :=
  calm_spillRead (e := (Prod.eta _).symm) h1

theorem calm_startOn {s₀ : State} {s : State} {a2 : Nat} {a3 : Cmd} {a4 : Nat} {a5 : List Nat} (h1 : Calm s₀ s) : Calm s₀ (State.startOn s a2 a3 a4 a5) := by
  unfold State.startOn
  with_reducible repeat' (first
      | assumption | apply calm_modCmd | apply calm_id | apply calm_foldl | apply calm_foldr | apply calm_ite | split | intro _
      | dsimp only)

theorem calm_wakeUnit {s₀ : State} {s : State} {a2 : UnitKind} {a3 : Nat} (h1 : Calm s₀ s) : Calm s₀ (State.wakeUnit s a2 a3) := by
  unfold State.wakeUnit
  with_reducible repeat' (first
      | assumption | apply calm_setRegF | apply calm_id | apply calm_foldl | apply calm_foldr | apply calm_ite | split | intro _
      | dsimp only | refine calm_mk ?_ rfl rfl)

theorem calm_startReady {s₀ : State} {s : State} {a2 : Nat} {a3 : Cmd} (h1 : Calm s₀ s) : Calm s₀ (State.startReady s a2 a3) := by
  unfold State.startReady
  with_reducible repeat' (first
      | assumption | apply calm_wakeUnit | apply calm_startOn | apply calm_id | apply calm_foldl | apply calm_foldr
      | apply calm_ite | split | intro _ | dsimp only)

theorem calm_storeRows {s₀ : State} {s : State} {a2 : Agent} {a3 : List (List (Nat × Nat))} {a4 : List Nat} (h1 : Calm s₀ s) :
    Calm s₀ (State.storeRows s a2 a3 a4) := by
  induction a3 generalizing s a4 with
  | nil => unfold State.storeRows; exact h1
  | cons x l ih =>
    cases a4 with
    | nil => unfold State.storeRows; exact h1
    | cons v vs => unfold State.storeRows; exact ih (calm_storeAll h1)


theorem calm_storeTile {s₀ : State} {s : State} {a2 : Nat} {a3 : Cmd} {a4 : Tile} {a5 : List (List (Nat × Nat))} {a6 : List (Nat × Nat)} (h1 : Calm s₀ s) : Calm s₀ (State.storeTile s a2 a3 a4 a5 a6) := by
  unfold State.storeTile
  with_reducible repeat' (first
      | assumption | apply calm_storeRows | apply calm_storeAll | apply calm_id | apply calm_foldl | apply calm_foldr
      | apply calm_ite | split | intro _ | dsimp only)

theorem calm_storeEffect {s₀ : State} {s : State} {a2 : Nat} {a3 : Nat} {a4 : Cmd} {a5 : Slot} {a6 : Nat} {a7 : List (List (Nat × Nat))} {a8 : List (Nat × Nat)} {a9 : Nat} {a10 : Nat} (h1 : Calm s₀ s) : Calm s₀ (State.storeEffect s a2 a3 a4 a5 a6 a7 a8 a9 a10) := by
  unfold State.storeEffect
  with_reducible repeat' (first
      | assumption | apply calm_meEnd | apply calm_pcause | apply calm_arenaWrite | apply calm_storeTile | apply calm_meDone
      | apply calm_escWrite | apply calm_escErase | apply calm_id | apply calm_foldl | apply calm_foldr | apply calm_ite | split
      | intro _ | dsimp only)

theorem calm_storeStep {s₀ : State} {s : State} {a2 : Nat} {a3 : Nat} {a4 : Cmd} {a5 : List Nat} {a6 : Slot → List (List (Nat × Nat)) → List (Nat × Nat) → State → State} (h1 : Calm s₀ s) (h6 : ∀ y0 y1 y2 y3, Calm s₀ y3 → Calm s₀ (a6 y0 y1 y2 y3)) : Calm s₀ (State.storeStep s a2 a3 a4 a5 a6) := by
  unfold State.storeStep
  with_reducible repeat' (first
      | assumption | apply calm_meEnd | apply calm_whenReadable | apply calm_id | apply calm_foldl | apply calm_foldr
      | apply calm_ite | apply h6 | split | intro _ | dsimp only)

theorem calm_syncStep {s₀ : State} {s : State} {a2 : Nat} {a3 : Nat} {a4 : Nat} {a5 : Nat} {a6 : State → Cmd → State} (h1 : Calm s₀ s) (h6 : ∀ y0 y1, Calm s₀ y0 → Calm s₀ (a6 y0 y1)) : Calm s₀ (State.syncStep s a2 a3 a4 a5 a6) := by
  unfold State.syncStep
  with_reducible repeat' (first
      | assumption | apply calm_id | apply calm_foldl | apply calm_foldr | apply calm_ite | apply h6 | split | intro _ | dsimp only)

theorem calm_t1Spoil {s₀ : State} {s : State} {a2 : Nat} {a3 : List Nat} (h1 : Calm s₀ s) : Calm s₀ (State.t1Spoil s a2 a3) := by
  unfold State.t1Spoil
  with_reducible repeat' (first
      | assumption | apply calm_setT1Poison | apply calm_setHomeBits | apply calm_t1Write | apply calm_setT1Err | apply calm_id
      | apply calm_foldl | apply calm_foldr | apply calm_ite | split | intro _ | dsimp only)

theorem calm_takeAck {s₀ : State} {s : State} {a2 : Nat} {a3 : Flit} (h1 : Calm s₀ s) : Calm s₀ (State.takeAck s a2 a3) := by
  unfold State.takeAck
  with_reducible repeat' (first
      | assumption | apply calm_modPort | apply calm_id | apply calm_foldl | apply calm_foldr | apply calm_ite | split | intro _
      | dsimp only)

theorem calm_takeAddress {s₀ : State} {s : State} {a2 : BitVec 7} (h1 : Calm s₀ s) : Calm s₀ (State.takeAddress s a2) := by
  unfold State.takeAddress
  with_reducible repeat' (first
      | assumption | apply calm_setRegF | apply calm_id | apply calm_foldl | apply calm_foldr | apply calm_ite | split | intro _
      | dsimp only)

theorem calm_takeCredit {s₀ : State} {s : State} {a2 : Nat} {a3 : Nat} {a4 : Nat} (h1 : Calm s₀ s) : Calm s₀ (State.takeCredit s a2 a3 a4) := by
  unfold State.takeCredit
  with_reducible repeat' (first
      | assumption | apply calm_modPort | apply calm_id | apply calm_foldl | apply calm_foldr | apply calm_ite | split | intro _
      | dsimp only)

theorem calm_tallyEnd {s₀ : State} {s : State} {a2 : Nat} {a3 : Nat} {a4 : Nat} {a5 : Nat} (h1 : Calm s₀ s) : Calm s₀ (State.tallyEnd s a2 a3 a4 a5) := by
  unfold State.tallyEnd
  with_reducible repeat' (first
      | assumption | apply calm_cause | apply calm_modTally | apply calm_id | apply calm_foldl | apply calm_foldr | apply calm_ite
      | split | intro _ | dsimp only)

theorem calm_translateCmd {s₀ : State} {s : State} {a2 : Nat} {a3 : Nat} {a4 : Nat} {a5 : Nat} (h1 : Calm s₀ s) : Calm s₀ (State.translateCmd s a2 a3 a4 a5) := by
  induction a5 generalizing s a2 a3 a4 h1 with
  | zero =>
    unfold State.translateCmd
    with_reducible repeat' (first
      | assumption | apply calm_readInput | apply calm_pinNext | apply calm_setPhase | apply calm_id | apply calm_foldl
      | apply calm_foldr | apply calm_ite | split | intro _ | dsimp only)
  | succ _ ih =>
    unfold State.translateCmd
    with_reducible repeat' (first
      | assumption | apply calm_readInput | apply calm_pinNext | apply calm_setPhase | apply calm_id | apply calm_foldl
      | apply calm_foldr | apply calm_ite | split | intro _ | dsimp only | apply ih)

theorem calm_winStep {s₀ : State} {s : State} {a2 : Nat} {a3 : Nat} {a4 : Nat} {a5 : Nat} {a6 : Cmd → Bool} {a7 : State → Cmd → State} {a8 : State → Cmd → VecIndex → State} {a9 : State → Cmd → VecIndex → State} (h1 : Calm s₀ s) (h7 : ∀ y0 y1, Calm s₀ y0 → Calm s₀ (a7 y0 y1)) (h8 : ∀ y0 y1 y2, Calm s₀ y0 → Calm s₀ (a8 y0 y1 y2)) (h9 : ∀ y0 y1 y2, Calm s₀ y0 → Calm s₀ (a9 y0 y1 y2)) : Calm s₀ (State.winStep s a2 a3 a4 a5 a6 a7 a8 a9) := by
  unfold State.winStep
  with_reducible repeat' (first
      | assumption | apply calm_unitStep | apply calm_endCmd | apply calm_id | apply calm_foldl | apply calm_foldr | apply calm_ite
      | apply h7 | apply h8 | apply h9 | split | intro _ | dsimp only)

theorem calm_winnowerError {s₀ : State} {s : State} {a2 : Nat} {a3 : Cmd} (h1 : Calm s₀ s) : Calm s₀ (State.winnowerError s a2 a3) := by
  unfold State.winnowerError
  with_reducible repeat' (first
      | assumption | apply calm_setAux | apply calm_workDone | apply calm_loftForget | apply calm_cause | apply calm_count
      | apply calm_report | apply calm_quarantine | apply calm_endCmd | apply calm_id | apply calm_foldl | apply calm_foldr
      | apply calm_ite | split | intro _ | dsimp only)

theorem calm_execSetTrial {s₀ : State} {a1 : Requester} {a2 : Word} {s : State} {t : State} (e : execSetTrial a1 a2 s = .next t) (h3 : Calm s₀ s) : Calm s₀ t := by
  unfold execSetTrial at e
  try dsimp only at e
  first
  | refine calm_act e (by assumption) ?_
  | (injection e with e; subst e)
  | (revert e; repeat' (split); all_goals (intro e; injection e with e; subst e))
  all_goals with_reducible repeat' (first
      | assumption | apply calm_access | apply calm_store | apply calm_setRegF | apply calm_modBoot | apply calm_id
      | apply calm_foldl | apply calm_foldr | apply calm_ite | split | intro _ | dsimp only)

theorem calm_execSwap {s₀ : State} {a1 : Requester} {a2 : Word} {s : State} {t : State} (e : execSwap a1 a2 s = .next t) (h3 : Calm s₀ s) : Calm s₀ t := by
  unfold execSwap at e
  try dsimp only at e
  first
  | refine calm_act e (by assumption) ?_
  | (injection e with e; subst e)
  | (revert e; repeat' (split); all_goals (intro e; injection e with e; subst e))
  all_goals with_reducible repeat' (first
      | assumption | apply calm_access | apply calm_paramResult | apply calm_setShadow | apply calm_modBoot | apply calm_setRegN
      | apply calm_extend | apply calm_cause | apply calm_report | apply calm_id | apply calm_foldl | apply calm_foldr
      | apply calm_ite | split | intro _ | dsimp only)

theorem calm_execMirrorClear {s₀ : State} {a1 : Requester} {a2 : Word} {s : State} {t : State} (e : execMirrorClear a1 a2 s = .next t) (h3 : Calm s₀ s) : Calm s₀ t := by
  unfold execMirrorClear at e
  try dsimp only at e
  first
  | refine calm_act e (by assumption) ?_
  | (injection e with e; subst e)
  | (revert e; repeat' (split); all_goals (intro e; injection e with e; subst e))
  all_goals with_reducible repeat' (first
      | assumption | apply calm_mirrorCmd | apply calm_mirrorRelease | apply calm_modMirror | apply calm_id | apply calm_foldl
      | apply calm_foldr | apply calm_ite | split | intro _ | dsimp only)

theorem calm_execMirrorRebuild {s₀ : State} {a1 : Requester} {a2 : Word} {s : State} {t : State} (e : execMirrorRebuild a1 a2 s = .next t) (h3 : Calm s₀ s) : Calm s₀ t := by
  unfold execMirrorRebuild at e
  try dsimp only at e
  first
  | refine calm_act e (by assumption) ?_
  | (injection e with e; subst e)
  | (revert e; repeat' (split); all_goals (intro e; injection e with e; subst e))
  all_goals with_reducible repeat' (first
      | assumption | apply calm_mirrorCmd | apply calm_mirrorTo | apply calm_count | apply calm_id | apply calm_foldl
      | apply calm_foldr | apply calm_ite | split | intro _ | dsimp only)

theorem calm_execMirrorDetach {s₀ : State} {a1 : Requester} {a2 : Word} {s : State} {t : State} (e : execMirrorDetach a1 a2 s = .next t) (h3 : Calm s₀ s) : Calm s₀ t := by
  unfold execMirrorDetach at e
  try dsimp only at e
  first
  | refine calm_act e (by assumption) ?_
  | (injection e with e; subst e)
  | (revert e; repeat' (split); all_goals (intro e; injection e with e; subst e))
  all_goals with_reducible repeat' (first
      | assumption | apply calm_mirrorCmd | apply calm_mirrorRelease | apply calm_mirrorTo | apply calm_id | apply calm_foldl
      | apply calm_foldr | apply calm_ite | split | intro _ | dsimp only)

theorem calm_execMirrorCommit {s₀ : State} {a1 : Requester} {a2 : Word} {s : State} {t : State} (e : execMirrorCommit a1 a2 s = .next t) (h3 : Calm s₀ s) : Calm s₀ t := by
  unfold execMirrorCommit at e
  try dsimp only at e
  first
  | refine calm_act e (by assumption) ?_
  | (injection e with e; subst e)
  | (revert e; repeat' (split); all_goals (intro e; injection e with e; subst e))
  all_goals with_reducible repeat' (first
      | assumption | apply calm_mirrorCmd | apply calm_modMirror | apply calm_id | apply calm_foldl | apply calm_foldr
      | apply calm_ite | split | intro _ | dsimp only)

theorem calm_execDirHostLostGo {s₀ : State} {a1 : Requester} {a2 : Word} {s : State} {t : State} (e : execDirHostLostGo a1 a2 s = .next t) (h3 : Calm s₀ s) : Calm s₀ t := by
  unfold execDirHostLostGo at e
  try dsimp only at e
  first
  | refine calm_act e (by assumption) ?_
  | (injection e with e; subst e)
  | (revert e; repeat' (split); all_goals (intro e; injection e with e; subst e))
  all_goals with_reducible repeat' (first
      | assumption | apply calm_access | apply calm_store | apply calm_dropPending | apply calm_hostsLost | apply calm_id
      | apply calm_foldl | apply calm_foldr | apply calm_ite | split | intro _ | dsimp only)

theorem calm_writeUnquarantine {s₀ : State} {s : State} {a2 : Requester} {a3 : UnitKind} {a4 : Nat} {a5 : Word} (h1 : Calm s₀ s) : Calm s₀ (State.writeUnquarantine s a2 a3 a4 a5) := by
  unfold State.writeUnquarantine
  with_reducible repeat' (first
      | assumption | apply calm_access | apply calm_store | apply calm_unquarantine | apply calm_id | apply calm_foldl
      | apply calm_foldr | apply calm_ite | split | intro _ | dsimp only)

theorem calm_execWinUnquarantine {s₀ : State} {a1 : Requester} {a2 : Fin 16} {a3 : Word} {s : State} {t : State} (e : execWinUnquarantine a1 a2 a3 s = .next t) (h4 : Calm s₀ s) : Calm s₀ t := by
  unfold execWinUnquarantine at e
  try dsimp only at e
  first
  | refine calm_act e (by assumption) ?_
  | (injection e with e; subst e)
  | (revert e; repeat' (split); all_goals (intro e; injection e with e; subst e))
  all_goals with_reducible repeat' (first
      | assumption | apply calm_writeUnquarantine | apply calm_id | apply calm_foldl | apply calm_foldr | apply calm_ite | split
      | intro _ | dsimp only)

theorem calm_writeQuarantine {s₀ : State} {s : State} {a2 : Requester} {a3 : UnitKind} {a4 : Nat} {a5 : Word} (h1 : Calm s₀ s) : Calm s₀ (State.writeQuarantine s a2 a3 a4 a5) := by
  unfold State.writeQuarantine
  with_reducible repeat' (first
      | assumption | apply calm_access | apply calm_store | apply calm_id | apply calm_foldl | apply calm_foldr | apply calm_ite
      | split | intro _ | dsimp only | refine calm_mk ?_ rfl rfl)

theorem calm_execWinQuarantine {s₀ : State} {a1 : Requester} {a2 : Fin 16} {a3 : Word} {s : State} {t : State} (e : execWinQuarantine a1 a2 a3 s = .next t) (h4 : Calm s₀ s) : Calm s₀ t := by
  unfold execWinQuarantine at e
  try dsimp only at e
  first
  | refine calm_act e (by assumption) ?_
  | (injection e with e; subst e)
  | (revert e; repeat' (split); all_goals (intro e; injection e with e; subst e))
  all_goals with_reducible repeat' (first
      | assumption | apply calm_writeQuarantine | apply calm_id | apply calm_foldl | apply calm_foldr | apply calm_ite | split
      | intro _ | dsimp only)

theorem calm_execRowUnquarantine {s₀ : State} {a1 : Requester} {a2 : Fin 16} {a3 : Word} {s : State} {t : State} (e : execRowUnquarantine a1 a2 a3 s = .next t) (h4 : Calm s₀ s) : Calm s₀ t := by
  unfold execRowUnquarantine at e
  try dsimp only at e
  first
  | refine calm_act e (by assumption) ?_
  | (injection e with e; subst e)
  | (revert e; repeat' (split); all_goals (intro e; injection e with e; subst e))
  all_goals with_reducible repeat' (first
      | assumption | apply calm_writeUnquarantine | apply calm_id | apply calm_foldl | apply calm_foldr | apply calm_ite | split
      | intro _ | dsimp only)

theorem calm_execRowQuarantine {s₀ : State} {a1 : Requester} {a2 : Fin 16} {a3 : Word} {s : State} {t : State} (e : execRowQuarantine a1 a2 a3 s = .next t) (h4 : Calm s₀ s) : Calm s₀ t := by
  unfold execRowQuarantine at e
  try dsimp only at e
  first
  | refine calm_act e (by assumption) ?_
  | (injection e with e; subst e)
  | (revert e; repeat' (split); all_goals (intro e; injection e with e; subst e))
  all_goals with_reducible repeat' (first
      | assumption | apply calm_writeQuarantine | apply calm_id | apply calm_foldl | apply calm_foldr | apply calm_ite | split
      | intro _ | dsimp only)

theorem calm_execMeUnquarantine {s₀ : State} {a1 : Requester} {a2 : Fin 32} {a3 : Word} {s : State} {t : State} (e : execMeUnquarantine a1 a2 a3 s = .next t) (h4 : Calm s₀ s) : Calm s₀ t := by
  unfold execMeUnquarantine at e
  try dsimp only at e
  first
  | refine calm_act e (by assumption) ?_
  | (injection e with e; subst e)
  | (revert e; repeat' (split); all_goals (intro e; injection e with e; subst e))
  all_goals with_reducible repeat' (first
      | assumption | apply calm_writeUnquarantine | apply calm_id | apply calm_foldl | apply calm_foldr | apply calm_ite | split
      | intro _ | dsimp only)

theorem calm_execMeQuarantine {s₀ : State} {a1 : Requester} {a2 : Fin 32} {a3 : Word} {s : State} {t : State} (e : execMeQuarantine a1 a2 a3 s = .next t) (h4 : Calm s₀ s) : Calm s₀ t := by
  unfold execMeQuarantine at e
  try dsimp only at e
  first
  | refine calm_act e (by assumption) ?_
  | (injection e with e; subst e)
  | (revert e; repeat' (split); all_goals (intro e; injection e with e; subst e))
  all_goals with_reducible repeat' (first
      | assumption | apply calm_writeQuarantine | apply calm_id | apply calm_foldl | apply calm_foldr | apply calm_ite | split
      | intro _ | dsimp only)

theorem calm_execGcUnquarantine {s₀ : State} {a1 : Requester} {a2 : Fin 64} {a3 : Word} {s : State} {t : State} (e : execGcUnquarantine a1 a2 a3 s = .next t) (h4 : Calm s₀ s) : Calm s₀ t := by
  unfold execGcUnquarantine at e
  try dsimp only at e
  first
  | refine calm_act e (by assumption) ?_
  | (injection e with e; subst e)
  | (revert e; repeat' (split); all_goals (intro e; injection e with e; subst e))
  all_goals with_reducible repeat' (first
      | assumption | apply calm_writeUnquarantine | apply calm_id | apply calm_foldl | apply calm_foldr | apply calm_ite | split
      | intro _ | dsimp only)

theorem calm_execGcQuarantine {s₀ : State} {a1 : Requester} {a2 : Fin 64} {a3 : Word} {s : State} {t : State} (e : execGcQuarantine a1 a2 a3 s = .next t) (h4 : Calm s₀ s) : Calm s₀ t := by
  unfold execGcQuarantine at e
  try dsimp only at e
  first
  | refine calm_act e (by assumption) ?_
  | (injection e with e; subst e)
  | (revert e; repeat' (split); all_goals (intro e; injection e with e; subst e))
  all_goals with_reducible repeat' (first
      | assumption | apply calm_writeQuarantine | apply calm_id | apply calm_foldl | apply calm_foldr | apply calm_ite | split
      | intro _ | dsimp only)

theorem calm_execTallyScan {s₀ : State} {a1 : Requester} {a2 : Fin 6} {a3 : Word} {s : State} {t : State} (e : execTallyScan a1 a2 a3 s = .next t) (h4 : Calm s₀ s) : Calm s₀ t := by
  unfold execTallyScan at e
  try dsimp only at e
  first
  | refine calm_act e (by assumption) ?_
  | (injection e with e; subst e)
  | (revert e; repeat' (split); all_goals (intro e; injection e with e; subst e))
  all_goals with_reducible repeat' (first
      | assumption | apply calm_access | apply calm_tallyWrite | apply calm_modTally | apply calm_id | apply calm_foldl
      | apply calm_foldr | apply calm_ite | split | intro _ | dsimp only)

theorem calm_execTallyStart {s₀ : State} {a1 : Requester} {a2 : Fin 6} {a3 : Word} {s : State} {t : State} (e : execTallyStart a1 a2 a3 s = .next t) (h4 : Calm s₀ s) : Calm s₀ t := by
  unfold execTallyStart at e
  try dsimp only at e
  first
  | refine calm_act e (by assumption) ?_
  | (injection e with e; subst e)
  | (revert e; repeat' (split); all_goals (intro e; injection e with e; subst e))
  all_goals with_reducible repeat' (first
      | assumption | apply calm_access | apply calm_tallyWrite | apply calm_modTally | apply calm_id | apply calm_foldl
      | apply calm_foldr | apply calm_ite | split | intro _ | dsimp only)

theorem calm_execTallyStop {s₀ : State} {a1 : Requester} {a2 : Fin 6} {a3 : Word} {s : State} {t : State} (e : execTallyStop a1 a2 a3 s = .next t) (h4 : Calm s₀ s) : Calm s₀ t := by
  unfold execTallyStop at e
  try dsimp only at e
  first
  | refine calm_act e (by assumption) ?_
  | (injection e with e; subst e)
  | (revert e; repeat' (split); all_goals (intro e; injection e with e; subst e))
  all_goals with_reducible repeat' (first
      | assumption | apply calm_access | apply calm_tallyWrite | apply calm_tallyEnd | apply calm_id | apply calm_foldl
      | apply calm_foldr | apply calm_ite | split | intro _ | dsimp only)

theorem calm_execTallyClear {s₀ : State} {a1 : Requester} {a2 : Fin 6} {a3 : Word} {s : State} {t : State} (e : execTallyClear a1 a2 a3 s = .next t) (h4 : Calm s₀ s) : Calm s₀ t := by
  unfold execTallyClear at e
  try dsimp only at e
  first
  | refine calm_act e (by assumption) ?_
  | (injection e with e; subst e)
  | (revert e; repeat' (split); all_goals (intro e; injection e with e; subst e))
  all_goals with_reducible repeat' (first
      | assumption | apply calm_access | apply calm_tallyWrite | apply calm_modTally | apply calm_id | apply calm_foldl
      | apply calm_foldr | apply calm_ite | split | intro _ | dsimp only)

theorem calm_writeLinkCtrl {s₀ : State} {s : State} {a2 : Nat} {a3 : Word} (h1 : Calm s₀ s) : Calm s₀ (State.writeLinkCtrl s a2 a3) := by
  unfold State.writeLinkCtrl
  with_reducible repeat' (first
      | assumption | apply calm_store | apply calm_linkEnable | apply calm_linkDisable | apply calm_linkDrain | apply calm_id
      | apply calm_foldl | apply calm_foldr | apply calm_ite | split | intro _ | dsimp only)

theorem calm_execLoftChannelReset {s₀ : State} {a1 : Requester} {a2 : Fin 18} {a3 : Word} {s : State} {t : State} (e : execLoftChannelReset a1 a2 a3 s = .next t) (h4 : Calm s₀ s) : Calm s₀ t := by
  unfold execLoftChannelReset at e
  try dsimp only at e
  first
  | refine calm_act e (by assumption) ?_
  | (injection e with e; subst e)
  | (revert e; repeat' (split); all_goals (intro e; injection e with e; subst e))
  all_goals with_reducible repeat' (first
      | assumption | apply calm_access | apply calm_store | apply calm_setRegF | apply calm_id | apply calm_foldl
      | apply calm_foldr | apply calm_ite | split | intro _ | dsimp only)

theorem calm_execLoftChannelRetire {s₀ : State} {a1 : Requester} {a2 : Fin 18} {a3 : Word} {s : State} {t : State} (e : execLoftChannelRetire a1 a2 a3 s = .next t) (h4 : Calm s₀ s) : Calm s₀ t := by
  unfold execLoftChannelRetire at e
  try dsimp only at e
  first
  | refine calm_act e (by assumption) ?_
  | (injection e with e; subst e)
  | (revert e; repeat' (split); all_goals (intro e; injection e with e; subst e))
  all_goals with_reducible repeat' (first
      | assumption | apply calm_access | apply calm_channelDead | apply calm_store | apply calm_id | apply calm_foldl
      | apply calm_foldr | apply calm_ite | split | intro _ | dsimp only)

theorem calm_execSclClear {s₀ : State} {a1 : Requester} {a2 : Fin 10} {a3 : Word} {s : State} {t : State} (e : execSclClear a1 a2 a3 s = .next t) (h4 : Calm s₀ s) : Calm s₀ t := by
  unfold execSclClear at e
  try dsimp only at e
  first
  | refine calm_act e (by assumption) ?_
  | (injection e with e; subst e)
  | (revert e; repeat' (split); all_goals (intro e; injection e with e; subst e))
  all_goals with_reducible repeat' (first
      | assumption | apply calm_access | apply calm_sclClear | apply calm_store | apply calm_id | apply calm_foldl
      | apply calm_foldr | apply calm_ite | split | intro _ | dsimp only)

theorem calm_execClearAll {s₀ : State} {a1 : Requester} {a2 : Word} {s : State} {t : State} (e : execClearAll a1 a2 s = .next t) (h3 : Calm s₀ s) : Calm s₀ t := by
  unfold execClearAll at e
  try dsimp only at e
  first
  | refine calm_act e (by assumption) ?_
  | (injection e with e; subst e)
  | (revert e; repeat' (split); all_goals (intro e; injection e with e; subst e))
  all_goals with_reducible repeat' (first
      | assumption | apply calm_access | apply calm_sclClear | apply calm_id | apply calm_foldl | apply calm_foldr | apply calm_ite
      | split | intro _ | dsimp only)

theorem calm_execStopAll {s₀ : State} {a1 : Requester} {a2 : Word} {s : State} {t : State} (e : execStopAll a1 a2 s = .next t) (h3 : Calm s₀ s) : Calm s₀ t := by
  unfold execStopAll at e
  try dsimp only at e
  first
  | refine calm_act e (by assumption) ?_
  | (injection e with e; subst e)
  | (revert e; repeat' (split); all_goals (intro e; injection e with e; subst e))
  all_goals with_reducible repeat' (first
      | assumption | apply calm_access | apply calm_sclRunAll | apply calm_id | apply calm_foldl | apply calm_foldr
      | apply calm_ite | split | intro _ | dsimp only)

theorem calm_execStartAll {s₀ : State} {a1 : Requester} {a2 : Word} {s : State} {t : State} (e : execStartAll a1 a2 s = .next t) (h3 : Calm s₀ s) : Calm s₀ t := by
  unfold execStartAll at e
  try dsimp only at e
  first
  | refine calm_act e (by assumption) ?_
  | (injection e with e; subst e)
  | (revert e; repeat' (split); all_goals (intro e; injection e with e; subst e))
  all_goals with_reducible repeat' (first
      | assumption | apply calm_access | apply calm_sclRunAll | apply calm_id | apply calm_foldl | apply calm_foldr
      | apply calm_ite | split | intro _ | dsimp only)

theorem calm_execSclEvselWrite {s₀ : State} {a1 : Requester} {a2 : Fin 10} {a3 : Fin 8} {a4 : Word} {s : State} {t : State} (e : execSclEvselWrite a1 a2 a3 a4 s = .next t) (h5 : Calm s₀ s) : Calm s₀ t := by
  unfold execSclEvselWrite at e
  try dsimp only at e
  first
  | refine calm_act e (by assumption) ?_
  | (injection e with e; subst e)
  | (revert e; repeat' (split); all_goals (intro e; injection e with e; subst e))
  all_goals with_reducible repeat' (first
      | assumption | apply calm_access | apply calm_modScaler | apply calm_store | apply calm_id | apply calm_foldl
      | apply calm_foldr | apply calm_ite | split | intro _ | dsimp only)

theorem calm_execSamplingEnable {s₀ : State} {a1 : Requester} {a2 : Fin 4} {a3 : Word} {s : State} {t : State} (e : execSamplingEnable a1 a2 a3 s = .next t) (h4 : Calm s₀ s) : Calm s₀ t := by
  unfold execSamplingEnable at e
  try dsimp only at e
  first
  | refine calm_act e (by assumption) ?_
  | (injection e with e; subst e)
  | (revert e; repeat' (split); all_goals (intro e; injection e with e; subst e))
  all_goals with_reducible repeat' (first
      | assumption | apply calm_access | apply calm_store | apply calm_modScaler | apply calm_id | apply calm_foldl
      | apply calm_foldr | apply calm_ite | split | intro _ | dsimp only)

theorem calm_execSclSmpPop {s₀ : State} {a1 : Requester} {a2 : Fin 4} {a3 : Word} {s : State} {t : State} (e : execSclSmpPop a1 a2 a3 s = .next t) (h4 : Calm s₀ s) : Calm s₀ t := by
  unfold execSclSmpPop at e
  try dsimp only at e
  first
  | refine calm_act e (by assumption) ?_
  | (injection e with e; subst e)
  | (revert e; repeat' (split); all_goals (intro e; injection e with e; subst e))
  all_goals with_reducible repeat' (first
      | assumption | apply calm_access | apply calm_modScaler | apply calm_id | apply calm_foldl | apply calm_foldr
      | apply calm_ite | split | intro _ | dsimp only)

theorem calm_writeLow {s₀ : State} {s : State} {a2 : Requester} {a3 : Nat} {a4 : Word} (h1 : Calm s₀ s) : Calm s₀ (State.writeLow s a2 a3 a4) := by
  unfold State.writeLow
  with_reducible repeat' (first
      | assumption | apply calm_setHeld | apply calm_id | apply calm_foldl | apply calm_foldr | apply calm_ite | split | intro _
      | dsimp only)

theorem calm_execDirPeek {s₀ : State} {a1 : Requester} {a2 : Fin 2} {a3 : Word} {s : State} {t : State} (e : execDirPeek a1 a2 a3 s = .next t) (h4 : Calm s₀ s) : Calm s₀ t := by
  unfold execDirPeek at e
  try dsimp only at e
  first
  | refine calm_act e (by assumption) ?_
  | (injection e with e; subst e)
  | (revert e; repeat' (split); all_goals (intro e; injection e with e; subst e))
  all_goals with_reducible repeat' (first
      | assumption | apply calm_pairHigh | apply calm_setRegN | apply calm_id | apply calm_foldl | apply calm_foldr
      | apply calm_ite | split | intro _ | dsimp only)

theorem calm_execSemValWrite {s₀ : State} {a1 : Requester} {a2 : Fin 32} {a3 : Word} {a4 : Fin 3} {s : State} {t : State} (e : execSemValWrite a1 a2 a3 a4 s = .next t) (h5 : Calm s₀ s) : Calm s₀ t := by
  unfold execSemValWrite at e
  try dsimp only at e
  first
  | refine calm_act e (by assumption) ?_
  | (injection e with e; subst e)
  | (revert e; repeat' (split); all_goals (intro e; injection e with e; subst e))
  all_goals with_reducible repeat' (first
      | assumption | apply calm_access | apply calm_violateReg | apply calm_semFind | refine calm_semSet (by assumption) ?_
      | apply calm_semSet' | apply calm_setHeld | apply calm_id | apply calm_foldl | apply calm_foldr | apply calm_ite | split
      | intro _ | dsimp only)

theorem calm_writeHigh {s₀ : State} {s : State} {a2 : Requester} {a3 : Nat} {a4 : Word} (h1 : Calm s₀ s) : Calm s₀ (State.writeHigh s a2 a3 a4) := by
  unfold State.writeHigh
  with_reducible repeat' (first
      | assumption | apply calm_effect | refine calm_execDirPeek (by assumption) ?_ | apply calm_pairHigh
      | refine calm_execSemValWrite (by assumption) ?_ | apply calm_setHeld | apply calm_writeTly | apply calm_id
      | apply calm_foldl | apply calm_foldr | apply calm_ite | split | intro _ | dsimp only)

theorem calm_writeCxl {s₀ : State} {s : State} {a2 : Nat} {a3 : CxlPart} {a4 : Nat} {a5 : Word} (h1 : Calm s₀ s) : Calm s₀ (State.writeCxl s a2 a3 a4 a5) := by
  induction a4 generalizing s a2 a3 a5 h1 with
  | zero =>
    unfold State.writeCxl
    with_reducible repeat' (first
      | assumption | apply calm_sendPending | apply calm_modLd | apply calm_id | apply calm_foldl | apply calm_foldr
      | apply calm_ite | split | intro _ | dsimp only)
  | succ _ ih =>
    unfold State.writeCxl
    with_reducible repeat' (first
      | assumption | apply calm_sendPending | apply calm_modLd | apply calm_id | apply calm_foldl | apply calm_foldr
      | apply calm_ite | split | intro _ | dsimp only | apply ih)

theorem calm_Work_t1 {s₀ : State} {a1 : Nat} {a2 : Cmd} {a3 : Nat} {a4 : Nat} : CalmWork s₀ (Work.t1 a1 a2 a3 a4) := by
  unfold Work.t1
  with_reducible repeat' (first
      | assumption | apply calmw_bind | apply calmw_pure | apply calmw_mapM | apply calmw_forM | apply calmw_ite | apply calm_id
      | apply calm_Work_view | apply calm_Work_read | apply calm_id | apply calm_foldl | apply calm_foldr | apply calm_ite | split
      | intro _ | dsimp only)

theorem calm_Work_records {s₀ : State} {a1 : Nat} {a2 : Cmd} {a3 : VecIndex} {a4 : BlockHead} : CalmWork s₀ (Work.records a1 a2 a3 a4) := by
  unfold Work.records
  with_reducible repeat' (first
      | assumption | apply calmw_bind | apply calmw_pure | apply calmw_mapM | apply calmw_forM | apply calmw_ite | apply calm_id
      | apply calm_Work_t1 | apply calm_id | apply calm_foldl | apply calm_foldr | apply calm_ite | split | intro _ | dsimp only)

theorem calm_Work_allRecords {s₀ : State} {a1 : Nat} {a2 : Cmd} {a3 : VecIndex} {a4 : List BlockHead} : CalmWork s₀ (Work.allRecords a1 a2 a3 a4) := by
  induction a4 generalizing a1 a2 a3 with
  | nil =>
    unfold Work.allRecords
    with_reducible repeat' (first
      | assumption | apply calmw_bind | apply calmw_pure | apply calmw_mapM | apply calmw_forM | apply calmw_ite | apply calm_id
      | apply calm_Work_records | apply calm_id | apply calm_foldl | apply calm_foldr | apply calm_ite | split | intro _
      | dsimp only)
  | cons _ _ ih =>
    unfold Work.allRecords
    with_reducible repeat' (first
      | assumption | apply calmw_bind | apply calmw_pure | apply calmw_mapM | apply calmw_forM | apply calmw_ite | apply calm_id
      | apply calm_Work_records | apply calm_id | apply calm_foldl | apply calm_foldr | apply calm_ite | split | intro _
      | dsimp only | apply ih)

theorem calm_Work_readColumn {s₀ : State} {a1 : Nat} {a2 : Cmd} {a3 : Nat} {a4 : Bool} : CalmWork s₀ (Work.readColumn a1 a2 a3 a4) := by
  unfold Work.readColumn
  with_reducible repeat' (first
      | assumption | apply calmw_bind | apply calmw_pure | apply calmw_mapM | apply calmw_forM | apply calmw_ite | apply calm_id
      | apply calm_Work_read | apply calm_Work_act | apply calm_rowEvent | apply calm_id | apply calm_foldl | apply calm_foldr
      | apply calm_ite | split | intro _ | dsimp only)

theorem calm_Work_cribRow {s₀ : State} {a1 : Nat} {a2 : Cmd} {a3 : Nat} {a4 : Option Bool} {a5 : Bool} : CalmWork s₀ (Work.cribRow a1 a2 a3 a4 a5) := by
  unfold Work.cribRow
  with_reducible repeat' (first
      | assumption | apply calmw_bind | apply calmw_pure | apply calmw_mapM | apply calmw_forM | apply calmw_ite | apply calm_id
      | apply calm_Work_view | apply calm_Work_resolve | apply calm_Work_readPlace | apply calm_Work_act | apply calm_modCrib
      | apply calm_rowEvent | apply calm_count64 | apply calm_count | apply calm_cause | apply calm_corrected | apply calm_id
      | apply calm_foldl | apply calm_foldr | apply calm_ite | split | intro _ | dsimp only)

theorem calm_Work_hotEntries {s₀ : State} {a1 : Nat} {a2 : Cmd} {a3 : Nat} : CalmWork s₀ (Work.hotEntries a1 a2 a3) := by
  unfold Work.hotEntries
  with_reducible repeat' (first
      | assumption | apply calmw_bind | apply calmw_pure | apply calmw_mapM | apply calmw_forM | apply calmw_ite | apply calm_id
      | apply calm_Work_readVa | apply calm_id | apply calm_foldl | apply calm_foldr | apply calm_ite | split | intro _
      | dsimp only)

theorem calm_Work_hotRow {s₀ : State} {a1 : Nat} {a2 : Cmd} {a3 : Nat} : CalmWork s₀ (Work.hotRow a1 a2 a3) := by
  unfold Work.hotRow
  with_reducible repeat' (first
      | assumption | apply calmw_bind | apply calmw_pure | apply calmw_mapM | apply calmw_forM | apply calmw_ite | apply calm_id
      | apply calm_Work_hotEntries | apply calm_Work_readVa | apply calm_Work_act | apply calm_rowEvent | apply calm_Work_resolve
      | apply calm_Work_readPlace | apply calm_id | apply calm_foldl | apply calm_foldr | apply calm_ite | split | intro _
      | dsimp only)

theorem calm_Work_lookupRow {s₀ : State} {a1 : Nat} {a2 : Cmd} {a3 : Nat} {a4 : Option Bool} {a5 : Bool} : CalmWork s₀ (Work.lookupRow a1 a2 a3 a4 a5) := by
  unfold Work.lookupRow
  with_reducible repeat' (first
      | assumption | apply calmw_bind | apply calmw_pure | apply calmw_mapM | apply calmw_forM | apply calmw_ite | apply calm_id
      | apply calm_Work_view | apply calm_Work_useDefault | apply calm_Work_readColumn | apply calm_Work_cribRow
      | apply calm_Work_hotRow | apply calm_Work_resolve | apply calm_Work_readPlace | apply calm_id | apply calm_foldl
      | apply calm_foldr | apply calm_ite | split | intro _ | dsimp only)

theorem calm_Work_bagRows {s₀ : State} {a1 : Nat} {a2 : Cmd} {a3 : Bool} {a4 : Bool} {a5 : Nat} {a6 : List (Nat × Bool)} {a7 : List Nat} {a8 : List Nat} {a9 : Nat} {a10 : Bool} : CalmWork s₀ (Work.bagRows a1 a2 a3 a4 a5 a6 a7 a8 a9 a10) := by
  induction a7 generalizing a1 a2 a3 a4 a5 a6 a8 a9 a10 with
  | nil =>
    unfold Work.bagRows
    with_reducible repeat' (first
      | assumption | apply calmw_bind | apply calmw_pure | apply calmw_mapM | apply calmw_forM | apply calmw_ite | apply calm_id
      | apply calm_Work_lookupRow | apply calm_id | apply calm_foldl | apply calm_foldr | apply calm_ite | split | intro _
      | dsimp only)
  | cons _ _ ih =>
    unfold Work.bagRows
    with_reducible repeat' (first
      | assumption | apply calmw_bind | apply calmw_pure | apply calmw_mapM | apply calmw_forM | apply calmw_ite | apply calm_id
      | apply calm_Work_lookupRow | apply calm_id | apply calm_foldl | apply calm_foldr | apply calm_ite | split | intro _
      | dsimp only | apply ih)

theorem calm_Work_writeVa {s₀ : State} {a1 : Cmd} {a2 : Nat} {a3 : Nat} {a4 : Nat} {a5 : Nat} {a6 : Bool} : CalmWork s₀ (Work.writeVa a1 a2 a3 a4 a5 a6) := by
  unfold Work.writeVa
  with_reducible repeat' (first
      | assumption | apply calmw_bind | apply calmw_pure | apply calmw_mapM | apply calmw_forM | apply calmw_ite | apply calm_id
      | apply calm_Work_act | apply calm_storeAll | apply calm_Work_stop | apply calm_id | apply calm_foldl | apply calm_foldr
      | apply calm_ite | split | intro _ | dsimp only)

theorem calm_Work_issuePage {s₀ : State} {a1 : Nat} {a2 : Cmd} {a3 a4 a5 a6 : Nat} : CalmWork s₀ (Work.issuePage a1 a2 a3 a4 a5 a6) := by
  intro s h
  unfold Work.issuePage
  cases e : s.issue a1 a2 a3 a6 a4 a5 with
  | ok x y t => exact calm_issue_ok e h
  | stop t =>
    intro y hy
    dsimp only
    split
    · next k => exact calm_issue_stop k hy
    · next k => exact calm_issue_ok k hy


theorem calm_Work_issuePages {s₀ : State} {a1 : Nat} {a2 : Cmd} {a3 a4 a5 a6 a7 a8 : Nat} :
    CalmWork s₀ (Work.issuePages a1 a2 a3 a4 a5 a6 a7 a8) := by
  induction a6 generalizing a7 a8 with
  | zero => unfold Work.issuePages; exact calmw_pure _
  | succ n ih =>
    unfold Work.issuePages
    exact calmw_ite (fun _ => calmw_pure _) (fun _ => calmw_bind calm_Work_issuePage (fun _ => calmw_bind ih (fun _ => calmw_pure _)))


theorem calm_Work_issue {s₀ : State} {a1 : Nat} {a2 : Cmd} {a3 a4 a5 a6 a7 a8 : Nat} : CalmWork s₀ (Work.issue a1 a2 a3 a4 a5 a6 a7 a8) := by
  unfold Work.issue
  exact calmw_ite (fun _ => calm_Work_stop (fun _ h => calm_raiseFault h)) (fun _ => calm_Work_issuePages)


theorem calm_Work_readIssued {s₀ : State} {a1 : Nat} {a2 : Cmd} {a3 : Nat} {a4 : Nat} {a5 : Bool} {a6 : Nat} {a7 : Nat} : CalmWork s₀ (Work.readIssued a1 a2 a3 a4 a5 a6 a7) := by
  unfold Work.readIssued
  with_reducible repeat' (first
      | assumption | apply calmw_bind | apply calmw_pure | apply calmw_mapM | apply calmw_forM | apply calmw_ite | apply calm_id
      | apply calm_Work_issue | apply calm_Work_read | apply calm_id | apply calm_foldl | apply calm_foldr | apply calm_ite | split
      | intro _ | dsimp only)

theorem calm_Work_bag {s₀ : State} {a1 : Nat} {a2 : Cmd} {a3 : Bool} {a4 : List (Nat × Bool)} : CalmWork s₀ (Work.bag a1 a2 a3 a4) := by
  unfold Work.bag
  with_reducible repeat' (first
      | assumption | apply calmw_bind | apply calmw_pure | apply calmw_mapM | apply calmw_forM | apply calmw_ite | apply calm_id
      | apply calm_Work_readVa | apply calm_Work_bagRows | apply calm_Work_writeVa | apply calm_Work_next
      | apply calm_Work_readIssued | apply calm_id | apply calm_foldl | apply calm_foldr | apply calm_ite | split | intro _
      | dsimp only)

theorem calm_Work_t1Words {s₀ : State} {a1 : Nat} {a2 : Cmd} {a3 : Nat} {a4 : Nat} : CalmWork s₀ (Work.t1Words a1 a2 a3 a4) := by
  unfold Work.t1Words
  with_reducible repeat' (first
      | assumption | apply calmw_bind | apply calmw_pure | apply calmw_mapM | apply calmw_forM | apply calmw_ite | apply calm_id
      | apply calm_Work_t1 | apply calm_id | apply calm_foldl | apply calm_foldr | apply calm_ite | split | intro _ | dsimp only)

theorem calm_Work_blockHead {s₀ : State} {a1 : Nat} {a2 : Cmd} {a3 : VecIndex} {a4 : Nat} : CalmWork s₀ (Work.blockHead a1 a2 a3 a4) := by
  unfold Work.blockHead
  with_reducible repeat' (first
      | assumption | apply calmw_bind | apply calmw_pure | apply calmw_mapM | apply calmw_forM | apply calmw_ite | apply calm_id
      | apply calm_Work_t1Words | apply calm_id | apply calm_foldl | apply calm_foldr | apply calm_ite | split | intro _
      | dsimp only)

theorem calm_Work_chain {s₀ : State} {a1 : Nat} {a2 : Cmd} {a3 : VecIndex} {a4 : Nat} {a5 : Nat} : CalmWork s₀ (Work.chain a1 a2 a3 a4 a5) := by
  induction a4 generalizing a1 a2 a3 a5 with
  | zero =>
    unfold Work.chain
    with_reducible repeat' (first
      | assumption | apply calmw_bind | apply calmw_pure | apply calmw_mapM | apply calmw_forM | apply calmw_ite | apply calm_id
      | apply calm_Work_blockHead | apply calm_id | apply calm_foldl | apply calm_foldr | apply calm_ite | split | intro _
      | dsimp only)
  | succ _ ih =>
    unfold Work.chain
    with_reducible repeat' (first
      | assumption | apply calmw_bind | apply calmw_pure | apply calmw_mapM | apply calmw_forM | apply calmw_ite | apply calm_id
      | apply calm_Work_blockHead | apply calm_id | apply calm_foldl | apply calm_foldr | apply calm_ite | split | intro _
      | dsimp only | apply ih)

theorem calm_Work_compactAt {s₀ : State} {a1 : Nat} {a2 : Cmd} {a3 : VecIndex} : CalmWork s₀ (Work.compactAt a1 a2 a3) := by
  unfold Work.compactAt
  with_reducible repeat' (first
      | assumption | apply calmw_bind | apply calmw_pure | apply calmw_mapM | apply calmw_forM | apply calmw_ite | apply calm_id
      | apply calm_Work_t1Words | apply calm_Work_chain | apply calm_Work_allRecords | apply calm_id | apply calm_foldl
      | apply calm_foldr | apply calm_ite | split | intro _ | dsimp only)

theorem calm_Work_sketchAt {s₀ : State} {a1 : Nat} {a2 : Cmd} {a3 : VecIndex} {a4 : BlockHead} {a5 : Nat} : CalmWork s₀ (Work.sketchAt a1 a2 a3 a4 a5) := by
  unfold Work.sketchAt
  with_reducible repeat' (first
      | assumption | apply calmw_bind | apply calmw_pure | apply calmw_mapM | apply calmw_forM | apply calmw_ite | apply calm_id
      | apply calm_Work_t1 | apply calm_id | apply calm_foldl | apply calm_foldr | apply calm_ite | split | intro _ | dsimp only)

theorem calm_Work_kept {s₀ : State} {a1 : Nat} {a2 : Cmd} {a3 : VecIndex} {a4 : List VecRecord} : CalmWork s₀ (Work.kept a1 a2 a3 a4) := by
  unfold Work.kept
  with_reducible repeat' (first
      | assumption | apply calmw_bind | apply calmw_pure | apply calmw_mapM | apply calmw_forM | apply calmw_ite | apply calm_id
      | apply calm_Work_sketchAt | apply calm_id | apply calm_foldl | apply calm_foldr | apply calm_ite | split | intro _
      | dsimp only)

theorem calm_Work_compactStop {s₀ : State} {a1 : Nat} {a2 : Cmd} {a3 : VecIndex} {a4 : Nat} {a5 : Nat} : CalmWork s₀ (Work.compactStop a1 a2 a3 a4 a5) := by
  unfold Work.compactStop
  with_reducible repeat' (first
      | assumption | apply calmw_bind | apply calmw_pure | apply calmw_mapM | apply calmw_forM | apply calmw_ite | apply calm_id
      | apply calm_Work_stop | apply calm_compactDone | apply calm_id | apply calm_foldl | apply calm_foldr | apply calm_ite
      | split | intro _ | dsimp only)

theorem calm_Work_nextBlocks {s₀ : State} {a1 : Nat} {a2 : Cmd} {a3 : VecIndex} {a4 : Nat} {a5 : Nat} {a6 : Nat} {a7 : Nat} : CalmWork s₀ (Work.nextBlocks a1 a2 a3 a4 a5 a6 a7) := by
  induction a4 generalizing a1 a2 a3 a5 a6 a7 with
  | zero =>
    unfold Work.nextBlocks
    with_reducible repeat' (first
      | assumption | apply calmw_bind | apply calmw_pure | apply calmw_mapM | apply calmw_forM | apply calmw_ite | apply calm_id
      | apply calm_Work_blockHead | apply calm_id | apply calm_foldl | apply calm_foldr | apply calm_ite | split | intro _
      | dsimp only)
  | succ _ ih =>
    unfold Work.nextBlocks
    with_reducible repeat' (first
      | assumption | apply calmw_bind | apply calmw_pure | apply calmw_mapM | apply calmw_forM | apply calmw_ite | apply calm_id
      | apply calm_Work_blockHead | apply calm_id | apply calm_foldl | apply calm_foldr | apply calm_ite | split | intro _
      | dsimp only | apply ih)

theorem calm_Work_modHub {s₀ : State} {a1 : Nat} {a2 : Cmd} {a3 : VecIndex → VecIndex} : CalmWork s₀ (Work.modHub a1 a2 a3) := by
  induction a1 generalizing a2 a3 with
  | zero =>
    unfold Work.modHub
    with_reducible repeat' (first
      | assumption | apply calmw_bind | apply calmw_pure | apply calmw_mapM | apply calmw_forM | apply calmw_ite | apply calm_id
      | apply calm_Work_act | apply calm_modHub | apply calm_id | apply calm_foldl | apply calm_foldr | apply calm_ite | split
      | intro _ | dsimp only)
  | succ _ ih =>
    unfold Work.modHub
    with_reducible repeat' (first
      | assumption | apply calmw_bind | apply calmw_pure | apply calmw_mapM | apply calmw_forM | apply calmw_ite | apply calm_id
      | apply calm_Work_act | apply calm_modHub | apply calm_id | apply calm_foldl | apply calm_foldr | apply calm_ite | split
      | intro _ | dsimp only | apply ih)

theorem calm_Work_compactBegin {s₀ : State} {a1 : Nat} {a2 : Cmd} {a3 : VecIndex} : CalmWork s₀ (Work.compactBegin a1 a2 a3) := by
  unfold Work.compactBegin
  with_reducible repeat' (first
      | assumption | apply calmw_bind | apply calmw_pure | apply calmw_mapM | apply calmw_forM | apply calmw_ite | apply calm_id
      | apply calm_Work_stop | apply calm_Work_compactAt | apply calm_Work_kept | apply calm_Work_compactStop
      | apply calm_Work_nextBlocks | apply calm_Work_view | apply calm_Work_next | apply calm_Work_modHub | apply calm_Work_act
      | apply calm_modCmd | apply calm_id | apply calm_foldl | apply calm_foldr | apply calm_ite | split | intro _ | dsimp only)

theorem calm_Work_putT1 {s₀ : State} {a1 : Nat} {a2 : Cmd} {a3 : Nat} {a4 : Nat} {a5 : Nat} : CalmWork s₀ (Work.putT1 a1 a2 a3 a4 a5) := by
  unfold Work.putT1
  with_reducible repeat' (first
      | assumption | apply calmw_bind | apply calmw_pure | apply calmw_mapM | apply calmw_forM | apply calmw_ite | apply calm_id
      | apply calm_Work_act | apply calm_storeAll | apply calm_id | apply calm_foldl | apply calm_foldr | apply calm_ite | split
      | intro _ | dsimp only)

theorem calm_Work_loft {s₀ : State} {a1 : Nat} {a2 : Cmd} {a3 a4 a5 : Nat} : CalmWork s₀ (Work.loft a1 a2 a3 a4 a5) := by
  induction a3 generalizing a4 a5 with
  | zero => unfold Work.loft; exact calmw_pure _
  | succ n ih =>
    unfold Work.loft
    refine calmw_ite (fun _ => calmw_pure _) (fun _ => calmw_bind ?_ (fun x => calmw_bind ih (fun _ => ?_)))
    · intro s h
      dsimp only
      cases s.fab.arrivals.find? (fun x => decide (x.waiter = Waiter.cmd a1 a2.chute a2.seq) && decide (x.addr = loftReadKey (a4 / loftBytes * loftBytes))) with
      | some x => exact h
      | none =>
        dsimp only
        cases s.loftBlock a1 (a4 / loftBytes * loftBytes) with
        | none => exact h
        | some b => intro y hy; exact calm_loftAsk hy
    · split
      · exact calmw_bind (calm_Work_act (fun _ h => calm_violateMem h)) (fun _ => calmw_pure _)
      · exact calmw_pure _


theorem calm_Work_vectorOf {s₀ : State} {a1 : Nat} {a2 : Cmd} {a3 : VecIndex} {a4 : BlockHead} {a5 : Nat} : CalmWork s₀ (Work.vectorOf a1 a2 a3 a4 a5) := by
  unfold Work.vectorOf
  with_reducible repeat' (first
      | assumption | apply calmw_bind | apply calmw_pure | apply calmw_mapM | apply calmw_forM | apply calmw_ite | apply calm_id
      | apply calm_Work_t1 | apply calm_Work_loft | apply calm_id | apply calm_foldl | apply calm_foldr | apply calm_ite | split
      | intro _ | dsimp only)

theorem calm_Work_vectors {s₀ : State} {a1 : Nat} {a2 : Cmd} {a3 : VecIndex} {a4 : List VecRecord} : CalmWork s₀ (Work.vectors a1 a2 a3 a4) := by
  induction a4 generalizing a1 a2 a3 with
  | nil =>
    unfold Work.vectors
    with_reducible repeat' (first
      | assumption | apply calmw_bind | apply calmw_pure | apply calmw_mapM | apply calmw_forM | apply calmw_ite | apply calm_id
      | apply calm_Work_vectorOf | apply calm_id | apply calm_foldl | apply calm_foldr | apply calm_ite | split | intro _
      | dsimp only)
  | cons _ _ ih =>
    unfold Work.vectors
    with_reducible repeat' (first
      | assumption | apply calmw_bind | apply calmw_pure | apply calmw_mapM | apply calmw_forM | apply calmw_ite | apply calm_id
      | apply calm_Work_vectorOf | apply calm_id | apply calm_foldl | apply calm_foldr | apply calm_ite | split | intro _
      | dsimp only | apply ih)

theorem calm_Work_compactBlock {s₀ : State} {a1 : Nat} {a2 : Cmd} {a3 : VecIndex} : CalmWork s₀ (Work.compactBlock a1 a2 a3) := by
  unfold Work.compactBlock
  with_reducible repeat' (first
      | assumption | apply calmw_bind | apply calmw_pure | apply calmw_mapM | apply calmw_forM | apply calmw_ite | apply calm_id
      | apply calm_Work_compactAt | apply calm_Work_kept | apply calm_Work_compactStop | apply calm_Work_next
      | apply calm_Work_sketchAt | apply calm_Work_t1 | apply calm_Work_putT1 | apply calm_Work_vectors | apply calm_Work_view
      | apply calm_Work_stop | apply calm_Work_act | apply calm_loftAsk | apply calm_violateMem | apply calm_id | apply calm_foldl
      | apply calm_foldr | apply calm_ite | split | intro _ | dsimp only)

theorem calm_Work_mapEntries {s₀ : State} {a1 : Nat} {a2 : Cmd} {a3 : VecIndex} {a4 : List Nat} : CalmWork s₀ (Work.mapEntries a1 a2 a3 a4) := by
  induction a4 generalizing a1 a2 a3 with
  | nil =>
    unfold Work.mapEntries
    with_reducible repeat' (first
      | assumption | apply calmw_bind | apply calmw_pure | apply calmw_mapM | apply calmw_forM | apply calmw_ite | apply calm_id
      | apply calm_Work_t1Words | apply calm_id | apply calm_foldl | apply calm_foldr | apply calm_ite | split | intro _
      | dsimp only)
  | cons _ _ ih =>
    unfold Work.mapEntries
    with_reducible repeat' (first
      | assumption | apply calmw_bind | apply calmw_pure | apply calmw_mapM | apply calmw_forM | apply calmw_ite | apply calm_id
      | apply calm_Work_t1Words | apply calm_id | apply calm_foldl | apply calm_foldr | apply calm_ite | split | intro _
      | dsimp only | apply ih)

theorem calm_Work_compactMap {s₀ : State} {a1 : Nat} {a2 : Cmd} {a3 : VecIndex} {a4 : Nat} {a5 : List Nat} :
    CalmWork s₀ (Work.compactMap a1 a2 a3 a4 a5) := by
  induction a5 using Work.compactMap.induct with
  | case1 b i id_ k t ih =>
    unfold Work.compactMap
    refine calmw_bind calm_Work_mapEntries (fun _ => ?_)
    dsimp only
    split
    · exact ih
    · exact calmw_bind calm_Work_putT1 (fun _ => ih)
  | case2 l hl =>
    unfold Work.compactMap
    split
    · exact (hl _ _ _ _ _ rfl).elim
    · exact calmw_pure _


theorem calm_Work_compactEnd {s₀ : State} {a1 : Nat} {a2 : Cmd} {a3 : VecIndex} : CalmWork s₀ (Work.compactEnd a1 a2 a3) := by
  unfold Work.compactEnd
  with_reducible repeat' (first
      | assumption | apply calmw_bind | apply calmw_pure | apply calmw_mapM | apply calmw_forM | apply calmw_ite | apply calm_id
      | apply calm_Work_settled | apply calm_Work_compactMap | apply calm_Work_putT1 | apply calm_Work_modHub | apply calm_Work_act
      | apply calm_modCmd | apply calm_Work_next | apply calm_id | apply calm_foldl | apply calm_foldr | apply calm_ite | split
      | intro _ | dsimp only)

theorem calm_Work_modIndex {s₀ : State} {a1 : Nat} {a2 : Cmd} {a3 : VecIndex → VecIndex} : CalmWork s₀ (Work.modIndex a1 a2 a3) := by
  induction a1 generalizing a2 a3 with
  | zero =>
    unfold Work.modIndex
    with_reducible repeat' (first
      | assumption | apply calmw_bind | apply calmw_pure | apply calmw_mapM | apply calmw_forM | apply calmw_ite | apply calm_id
      | apply calm_Work_act | apply calm_modIndex | apply calm_id | apply calm_foldl | apply calm_foldr | apply calm_ite | split
      | intro _ | dsimp only)
  | succ _ ih =>
    unfold Work.modIndex
    with_reducible repeat' (first
      | assumption | apply calmw_bind | apply calmw_pure | apply calmw_mapM | apply calmw_forM | apply calmw_ite | apply calm_id
      | apply calm_Work_act | apply calm_modIndex | apply calm_id | apply calm_foldl | apply calm_foldr | apply calm_ite | split
      | intro _ | dsimp only | apply ih)

theorem calm_Work_compactEntry {s₀ : State} {a1 : Nat} {a2 : Cmd} {a3 : VecIndex} : CalmWork s₀ (Work.compactEntry a1 a2 a3) := by
  unfold Work.compactEntry
  with_reducible repeat' (first
      | assumption | apply calmw_bind | apply calmw_pure | apply calmw_mapM | apply calmw_forM | apply calmw_ite | apply calm_id
      | apply calm_Work_settled | apply calm_Work_compactAt | apply calm_Work_kept | apply calm_Work_act | apply calm_modCmd
      | apply calm_Work_putT1 | apply calm_Work_next | apply calm_Work_modIndex | apply calm_id | apply calm_foldl
      | apply calm_foldr | apply calm_ite | split | intro _ | dsimp only)

theorem calm_Work_convert {s₀ : State} {a1 : Nat} {a2 : Cmd} {a3 : Option Nat} {a4 : Nat} {a5 : Nat} : CalmWork s₀ (Work.convert a1 a2 a3 a4 a5) := by
  unfold Work.convert
  with_reducible repeat' (first
      | assumption | apply calmw_bind | apply calmw_pure | apply calmw_mapM | apply calmw_forM | apply calmw_ite | apply calm_id
      | apply calm_Work_next | apply calm_Work_act | apply calm_storeAll | apply calm_rowEvent | apply calm_Work_readColumn
      | apply calm_Work_resolve | apply calm_Work_readPlace | apply calm_Work_settled | apply calm_id | apply calm_foldl
      | apply calm_foldr | apply calm_ite | split | intro _ | dsimp only)

theorem calm_Work_winStop {s₀ : State} {a1 : Nat} {a2 : Cmd} {a3 : Nat} {a4 : Nat} : CalmWork s₀ (Work.winStop a1 a2 a3 a4) := by
  induction a4 generalizing a1 a2 a3 with
  | zero =>
    unfold Work.winStop
    with_reducible repeat' (first
      | assumption | apply calmw_bind | apply calmw_pure | apply calmw_mapM | apply calmw_forM | apply calmw_ite | apply calm_id
      | apply calm_Work_stop | apply calm_winStop | apply calm_pcause | apply calm_id | apply calm_foldl | apply calm_foldr
      | apply calm_ite | split | intro _ | dsimp only)
  | succ _ ih =>
    unfold Work.winStop
    with_reducible repeat' (first
      | assumption | apply calmw_bind | apply calmw_pure | apply calmw_mapM | apply calmw_forM | apply calmw_ite | apply calm_id
      | apply calm_Work_stop | apply calm_winStop | apply calm_pcause | apply calm_id | apply calm_foldl | apply calm_foldr
      | apply calm_ite | split | intro _ | dsimp only | apply ih)

theorem calm_Work_deleteItem {s₀ : State} {a1 : Nat} {a2 : Cmd} {a3 : VecIndex} : CalmWork s₀ (Work.deleteItem a1 a2 a3) := by
  unfold Work.deleteItem
  with_reducible repeat' (first
      | assumption | apply calmw_bind | apply calmw_pure | apply calmw_mapM | apply calmw_forM | apply calmw_ite | apply calm_id
      | apply calm_Work_readVa | apply calm_Work_mapEntries | apply calm_Work_act | apply calm_count | apply calm_Work_next
      | apply calm_Work_winStop | apply calm_Work_stop | apply calm_Work_t1Words | apply calm_Work_putT1 | apply calm_id
      | apply calm_foldl | apply calm_foldr | apply calm_ite | split | intro _ | dsimp only)

theorem calm_Work_endQuery {s₀ : State} {a1 : Nat} {a2 : Cmd} {a3 : VecIndex} {a4 : Nat} {a5 : Nat} {a6 : Nat} {a7 : Nat} {a8 : Nat} {a9 : List (Nat × Nat)} : CalmWork s₀ (Work.endQuery a1 a2 a3 a4 a5 a6 a7 a8 a9) := by
  unfold Work.endQuery
  with_reducible repeat' (first
      | assumption | apply calmw_bind | apply calmw_pure | apply calmw_mapM | apply calmw_forM | apply calmw_ite | apply calm_id
      | apply calm_Work_writeVa | apply calm_Work_act | apply calm_count64 | apply calm_count | apply calm_Work_next
      | apply calm_id | apply calm_foldl | apply calm_foldr | apply calm_ite | split | intro _ | dsimp only)

theorem calm_Work_hyperplanes {s₀ : State} {a1 : Nat} {a2 : Cmd} {a3 : VecIndex} {a4 : Nat} : CalmWork s₀ (Work.hyperplanes a1 a2 a3 a4) := by
  induction a4 generalizing a1 a2 a3 with
  | zero =>
    unfold Work.hyperplanes
    with_reducible repeat' (first
      | assumption | apply calmw_bind | apply calmw_pure | apply calmw_mapM | apply calmw_forM | apply calmw_ite | apply calm_id
      | apply calm_Work_t1 | apply calm_id | apply calm_foldl | apply calm_foldr | apply calm_ite | split | intro _ | dsimp only)
  | succ _ ih =>
    unfold Work.hyperplanes
    with_reducible repeat' (first
      | assumption | apply calmw_bind | apply calmw_pure | apply calmw_mapM | apply calmw_forM | apply calmw_ite | apply calm_id
      | apply calm_Work_t1 | apply calm_id | apply calm_foldl | apply calm_foldr | apply calm_ite | split | intro _ | dsimp only | apply ih)

theorem calm_Work_item {s₀ : State} {a1 : Nat} {a2 : Cmd} {a3 : VecIndex} : CalmWork s₀ (Work.item a1 a2 a3) := by
  unfold Work.item
  with_reducible repeat' (first
      | assumption | apply calmw_bind | apply calmw_pure | apply calmw_mapM | apply calmw_forM | apply calmw_ite | apply calm_id
      | apply calm_Work_readVa | apply calm_id | apply calm_foldl | apply calm_foldr | apply calm_ite | split | intro _
      | dsimp only)

theorem calm_Work_insertBegin {s₀ : State} {a1 : Nat} {a2 : Cmd} {a3 : VecIndex} : CalmWork s₀ (Work.insertBegin a1 a2 a3) := by
  unfold Work.insertBegin
  with_reducible repeat' (first
      | assumption | apply calmw_bind | apply calmw_pure | apply calmw_mapM | apply calmw_forM | apply calmw_ite | apply calm_id
      | apply calm_Work_item | apply calm_Work_winStop | apply calm_Work_act | apply calm_count | apply calm_Work_next
      | apply calm_Work_mapEntries | apply calm_Work_stop | apply calm_Work_t1Words | apply calm_Work_modIndex
      | apply calm_Work_nextBlocks | apply calm_Work_view | apply calm_Work_modHub | apply calm_Work_putT1
      | apply calm_Work_blockHead | apply calm_id | apply calm_foldl | apply calm_foldr | apply calm_ite | split | intro _
      | dsimp only)

theorem calm_Work_insertMap {s₀ : State} {a1 : Nat} {a2 : Cmd} {a3 : VecIndex} : CalmWork s₀ (Work.insertMap a1 a2 a3) := by
  unfold Work.insertMap
  with_reducible repeat' (first
      | assumption | apply calmw_bind | apply calmw_pure | apply calmw_mapM | apply calmw_forM | apply calmw_ite | apply calm_id
      | apply calm_Work_settled | apply calm_Work_item | apply calm_Work_t1Words | apply calm_Work_stop | apply calm_Work_winStop
      | apply calm_Work_putT1 | apply calm_Work_blockHead | apply calm_Work_modIndex | apply calm_Work_next | apply calm_Work_act
      | apply calm_count | apply calm_id | apply calm_foldl | apply calm_foldr | apply calm_ite | split | intro _ | dsimp only)

theorem calm_Work_insertMeta {s₀ : State} {a1 : Nat} {a2 : Cmd} {a3 : VecIndex} : CalmWork s₀ (Work.insertMeta a1 a2 a3) := by
  unfold Work.insertMeta
  with_reducible repeat' (first
      | assumption | apply calmw_bind | apply calmw_pure | apply calmw_mapM | apply calmw_forM | apply calmw_ite | apply calm_id
      | apply calm_Work_settled | apply calm_Work_item | apply calm_Work_putT1 | apply calm_Work_next | apply calm_id
      | apply calm_foldl | apply calm_foldr | apply calm_ite | split | intro _ | dsimp only)

theorem calm_Work_insertRecord {s₀ : State} {a1 : Nat} {a2 : Cmd} {a3 : VecIndex} : CalmWork s₀ (Work.insertRecord a1 a2 a3) := by
  unfold Work.insertRecord
  with_reducible repeat' (first
      | assumption | apply calmw_bind | apply calmw_pure | apply calmw_mapM | apply calmw_forM | apply calmw_ite | apply calm_id
      | apply calm_Work_settled | apply calm_Work_item | apply calm_Work_blockHead | apply calm_Work_hyperplanes
      | apply calm_Work_winStop | apply calm_Work_putT1 | apply calm_Work_act | apply calm_count | apply calm_Work_next
      | apply calm_id | apply calm_foldl | apply calm_foldr | apply calm_ite | split | intro _ | dsimp only)

theorem calm_Work_migrateStart {s₀ : State} {a1 : Nat} {a2 : Cmd} : CalmWork s₀ (Work.migrateStart a1 a2) := by
  unfold Work.migrateStart
  with_reducible repeat' (first
      | assumption | apply calmw_bind | apply calmw_pure | apply calmw_mapM | apply calmw_forM | apply calmw_ite | apply calm_id
      | apply calm_Work_view | apply calm_Work_act | apply calm_endCmd | apply calm_Work_resolve | apply calm_Work_redirEntries
      | apply calm_Work_next | apply calm_id | apply calm_foldl | apply calm_foldr | apply calm_ite | split | intro _ | dsimp only)

theorem calm_Work_offer {s₀ : State} {a1 : Nat} {a2 : Cmd} {a3 : VecIndex} {a4 : Query} {a5 : Nat} {a6 : List VecRecord} {a7 : Scan} : CalmWork s₀ (Work.offer a1 a2 a3 a4 a5 a6 a7) := by
  induction a6 generalizing a1 a2 a3 a4 a5 a7 with
  | nil =>
    unfold Work.offer
    with_reducible repeat' (first
      | assumption | apply calmw_bind | apply calmw_pure | apply calmw_mapM | apply calmw_forM | apply calmw_ite | apply calm_id
      | apply calm_Work_sketchAt | apply calm_id | apply calm_foldl | apply calm_foldr | apply calm_ite | split | intro _
      | dsimp only)
  | cons _ _ ih =>
    unfold Work.offer
    with_reducible repeat' (first
      | assumption | apply calmw_bind | apply calmw_pure | apply calmw_mapM | apply calmw_forM | apply calmw_ite | apply calm_id
      | apply calm_Work_sketchAt | apply calm_id | apply calm_foldl | apply calm_foldr | apply calm_ite | split | intro _
      | dsimp only | apply ih)

theorem calm_Work_rankCentroids {s₀ : State} {a1 : Nat} {a2 : Cmd} {a3 : VecIndex} {a4 : List FVal} {a5 : Nat} : CalmWork s₀ (Work.rankCentroids a1 a2 a3 a4 a5) := by
  induction a5 generalizing a1 a2 a3 a4 with
  | zero =>
    unfold Work.rankCentroids
    with_reducible repeat' (first
      | assumption | apply calmw_bind | apply calmw_pure | apply calmw_mapM | apply calmw_forM | apply calmw_ite | apply calm_id
      | apply calm_Work_read | apply calm_Work_t1 | apply calm_id | apply calm_foldl | apply calm_foldr | apply calm_ite | split
      | intro _ | dsimp only)
  | succ _ ih =>
    unfold Work.rankCentroids
    with_reducible repeat' (first
      | assumption | apply calmw_bind | apply calmw_pure | apply calmw_mapM | apply calmw_forM | apply calmw_ite | apply calm_id
      | apply calm_Work_read | apply calm_Work_t1 | apply calm_id | apply calm_foldl | apply calm_foldr | apply calm_ite | split
      | intro _ | dsimp only | apply ih)

theorem calm_Work_probeOrder {s₀ : State} {a1 : Nat} {a2 : Cmd} {a3 : VecIndex} {a4 : Query} : CalmWork s₀ (Work.probeOrder a1 a2 a3 a4) := by
  unfold Work.probeOrder
  with_reducible repeat' (first
      | assumption | apply calmw_bind | apply calmw_pure | apply calmw_mapM | apply calmw_forM | apply calmw_ite | apply calm_id
      | apply calm_Work_readIssued | apply calm_Work_rankCentroids | apply calm_id | apply calm_foldl | apply calm_foldr
      | apply calm_ite | split | intro _ | dsimp only)

theorem calm_Work_refresh {s₀ : State} {a1 : Nat} {a2 : Cmd} : CalmWork s₀ (Work.refresh a1 a2) := by
  unfold Work.refresh
  with_reducible repeat' (first
      | assumption | apply calmw_bind | apply calmw_pure | apply calmw_mapM | apply calmw_forM | apply calmw_ite | apply calm_id
      | apply calm_Work_next | apply calm_Work_readVa | apply calm_Work_hotEntries | apply calm_Work_resolve
      | apply calm_Work_readPlace | apply calm_Work_writeVa | apply calm_Work_settled | apply calm_id | apply calm_foldl
      | apply calm_foldr | apply calm_ite | split | intro _ | dsimp only)

theorem calm_Work_rerank {s₀ : State} {a1 : Nat} {a2 : Cmd} {a3 : VecIndex} {a4 : List FVal} {a5 : List VecRecord} : CalmWork s₀ (Work.rerank a1 a2 a3 a4 a5) := by
  induction a5 generalizing a1 a2 a3 a4 with
  | nil =>
    unfold Work.rerank
    with_reducible repeat' (first
      | assumption | apply calmw_bind | apply calmw_pure | apply calmw_mapM | apply calmw_forM | apply calmw_ite | apply calm_id
      | apply calm_Work_vectorOf | apply calm_id | apply calm_foldl | apply calm_foldr | apply calm_ite | split | intro _
      | dsimp only)
  | cons _ _ ih =>
    unfold Work.rerank
    with_reducible repeat' (first
      | assumption | apply calmw_bind | apply calmw_pure | apply calmw_mapM | apply calmw_forM | apply calmw_ite | apply calm_id
      | apply calm_Work_vectorOf | apply calm_id | apply calm_foldl | apply calm_foldr | apply calm_ite | split | intro _
      | dsimp only | apply ih)

theorem calm_Work_scan {s₀ : State} {a1 : Nat} {a2 : Cmd} {a3 : VecIndex} {a4 : Query} {a5 : Nat} {a6 : Nat} {a7 : List Nat} {a8 : Scan} : CalmWork s₀ (Work.scan a1 a2 a3 a4 a5 a6 a7 a8) := by
  induction a7 generalizing a1 a2 a3 a4 a5 a6 a8 with
  | nil =>
    unfold Work.scan
    with_reducible repeat' (first
      | assumption | apply calmw_bind | apply calmw_pure | apply calmw_mapM | apply calmw_forM | apply calmw_ite | apply calm_id
      | apply calm_Work_t1Words | apply calm_Work_chain | apply calm_Work_allRecords | apply calm_Work_offer | apply calm_id
      | apply calm_foldl | apply calm_foldr | apply calm_ite | split | intro _ | dsimp only)
  | cons _ _ ih =>
    unfold Work.scan
    with_reducible repeat' (first
      | assumption | apply calmw_bind | apply calmw_pure | apply calmw_mapM | apply calmw_forM | apply calmw_ite | apply calm_id
      | apply calm_Work_t1Words | apply calm_Work_chain | apply calm_Work_allRecords | apply calm_Work_offer | apply calm_id
      | apply calm_foldl | apply calm_foldr | apply calm_ite | split | intro _ | dsimp only | apply ih)

theorem calm_Work_runQuery {s₀ : State} {a1 : Nat} {a2 : Cmd} {a3 : VecIndex} {a4 : Query} : CalmWork s₀ (Work.runQuery a1 a2 a3 a4) := by
  unfold Work.runQuery
  with_reducible repeat' (first
      | assumption | apply calmw_bind | apply calmw_pure | apply calmw_mapM | apply calmw_forM | apply calmw_ite | apply calm_id
      | apply calm_Work_endQuery | apply calm_Work_scan | apply calm_Work_act | apply calm_event | apply calm_count64
      | apply calm_Work_rerank | apply calm_count | apply calm_Work_hyperplanes | apply calm_Work_probeOrder | apply calm_id
      | apply calm_foldl | apply calm_foldr | apply calm_ite | split | intro _ | dsimp only)

theorem calm_Work_searchQuery {s₀ : State} {a1 : Nat} {a2 : Cmd} {a3 : VecIndex} : CalmWork s₀ (Work.searchQuery a1 a2 a3) := by
  unfold Work.searchQuery
  with_reducible repeat' (first
      | assumption | apply calmw_bind | apply calmw_pure | apply calmw_mapM | apply calmw_forM | apply calmw_ite | apply calm_id
      | apply calm_Work_readVa | apply calm_Work_runQuery | apply calm_Work_endQuery | apply calm_Work_view | apply calm_Work_act
      | apply calm_modIndex | apply calm_Work_next | apply calm_id | apply calm_foldl | apply calm_foldr | apply calm_ite | split
      | intro _ | dsimp only)

theorem calm_Work_writeIssued {s₀ : State} {a1 : Nat} {a2 : Cmd} {a3 : Nat} {a4 : Nat} {a5 : Nat} {a6 : Nat} {a7 : Nat} {a8 : Bool} : CalmWork s₀ (Work.writeIssued a1 a2 a3 a4 a5 a6 a7 a8) := by
  unfold Work.writeIssued
  with_reducible repeat' (first
      | assumption | apply calmw_bind | apply calmw_pure | apply calmw_mapM | apply calmw_forM | apply calmw_ite | apply calm_id
      | apply calm_Work_issue | apply calm_Work_act | apply calm_storeAll | apply calm_id | apply calm_foldl | apply calm_foldr
      | apply calm_ite | split | intro _ | dsimp only)

theorem calm_execRegisterPairLowRead {s₀ : State} {a1 : Requester} {a2 : Word} {s : State} {t : State} (e : execRegisterPairLowRead a1 a2 s = .next t) (h3 : Calm s₀ s) : Calm s₀ t := by
  unfold execRegisterPairLowRead at e
  try dsimp only at e
  first
  | refine calm_act e (by assumption) ?_
  | (injection e with e; subst e)
  | (revert e; repeat' (split); all_goals (intro e; injection e with e; subst e))
  all_goals with_reducible repeat' (first
      | assumption | refine calm_readCxl (by assumption) ?_ | apply calm_readCxl' | apply calm_emit
      | refine calm_readAt (by assumption) ?_ | apply calm_readAt' | apply calm_setLatch | apply calm_violateReg | apply calm_id
      | apply calm_foldl | apply calm_foldr | apply calm_ite | split | intro _ | dsimp only)

theorem calm_execPartitionDrained {s₀ : State} {a1 : Fin 32} {s : State} {t : State} (e : execPartitionDrained a1 s = .next t) (h2 : Calm s₀ s) : Calm s₀ t := by
  unfold execPartitionDrained at e
  try dsimp only at e
  first
  | refine calm_act e (by assumption) ?_
  | (injection e with e; subst e)
  | (revert e; repeat' (split); all_goals (intro e; injection e with e; subst e))
  all_goals with_reducible repeat' (first
      | assumption | apply calm_cleanLines | apply calm_freePart | apply calm_drainUnits | apply calm_pageCause
      | apply calm_setPstate | apply calm_modPart | apply calm_beginRelease | apply calm_id | apply calm_foldl | apply calm_foldr
      | apply calm_ite | split | intro _ | dsimp only)

theorem calm_execChuteRegisterDone {s₀ : State} {a1 : Fin 32} {a2 : Fin 67} {s : State} {t : State} (e : execChuteRegisterDone a1 a2 s = .next t) (h3 : Calm s₀ s) : Calm s₀ t := by
  unfold execChuteRegisterDone at e
  try dsimp only at e
  first
  | refine calm_act e (by assumption) ?_
  | (injection e with e; subst e)
  | (revert e; repeat' (split); all_goals (intro e; injection e with e; subst e))
  all_goals with_reducible repeat' (first
      | assumption | apply calm_ringReady | apply calm_t1Clear | apply calm_wantAll | apply calm_id | apply calm_foldl
      | apply calm_foldr | apply calm_ite | split | intro _ | dsimp only)

theorem calm_execChuteDisableDone {s₀ : State} {a1 : Fin 32} {a2 : Fin 67} {s : State} {t : State} (e : execChuteDisableDone a1 a2 s = .next t) (h3 : Calm s₀ s) : Calm s₀ t := by
  unfold execChuteDisableDone at e
  try dsimp only at e
  first
  | refine calm_act e (by assumption) ?_
  | (injection e with e; subst e)
  | (revert e; repeat' (split); all_goals (intro e; injection e with e; subst e))
  all_goals with_reducible repeat' (first
      | assumption | apply calm_modFab | apply calm_finishDisable | apply calm_id | apply calm_foldl | apply calm_foldr
      | apply calm_ite | split | intro _ | dsimp only)

theorem calm_execChuteStore {s₀ : State} {a1 : Source} {a2 : BitVec 34} {a3 : BitVec 64} {a4 : Line} {a5 : Bool} {s : State} {t : State} (e : execChuteStore a1 a2 a3 a4 a5 s = .next t) (h6 : Calm s₀ s) : Calm s₀ t := by
  unfold execChuteStore at e
  try dsimp only at e
  first
  | refine calm_act e (by assumption) ?_
  | (injection e with e; subst e)
  | (revert e; repeat' (split); all_goals (intro e; injection e with e; subst e))
  all_goals with_reducible repeat' (first
      | assumption | apply calm_request | apply calm_ackNow | apply calm_violateMem | apply calm_id | apply calm_foldl
      | apply calm_foldr | apply calm_ite | split | intro _ | dsimp only)

theorem calm_execHoldLimitExpire {s₀ : State} {a1 : Fin 32} {a2 : Fin 66} {a3 : Nat} {s : State} {t : State} (e : execHoldLimitExpire a1 a2 a3 s = .next t) (h4 : Calm s₀ s) : Calm s₀ t := by
  unfold execHoldLimitExpire at e
  try dsimp only at e
  first
  | refine calm_act e (by assumption) ?_
  | (injection e with e; subst e)
  | (revert e; repeat' (split); all_goals (intro e; injection e with e; subst e))
  all_goals with_reducible repeat' (first
      | assumption | apply calm_pageCause | apply calm_id | apply calm_foldl | apply calm_foldr | apply calm_ite | split | intro _
      | dsimp only)

theorem calm_execPacketTransfer {s₀ : State} {a1 : Fin 32} {a2 : Fin 64} {s : State} {t : State} (e : execPacketTransfer a1 a2 s = .next t) (h3 : Calm s₀ s) : Calm s₀ t := by
  unfold execPacketTransfer at e
  try dsimp only at e
  first
  | refine calm_act e (by assumption) ?_
  | (injection e with e; subst e)
  | (revert e; repeat' (split); all_goals (intro e; injection e with e; subst e))
  all_goals with_reducible repeat' (first
      | assumption | apply calm_modPart | apply calm_leaveChute | apply calm_endPacket | apply calm_queuePacket | apply calm_id
      | apply calm_foldl | apply calm_foldr | apply calm_ite | split | intro _ | dsimp only)

theorem calm_execFifoPacketReceive {s₀ : State} {a1 : Fin 10} {a2 : Word} {a3 : Word} {a4 : Fin 64} {a5 : Word} {s : State} {t : State} (e : execFifoPacketReceive a1 a2 a3 a4 a5 s = .next t) (h6 : Calm s₀ s) : Calm s₀ t := by
  unfold execFifoPacketReceive at e
  try dsimp only at e
  first
  | refine calm_act e (by assumption) ?_
  | (injection e with e; subst e)
  | (revert e; repeat' (split); all_goals (intro e; injection e with e; subst e))
  all_goals with_reducible repeat' (first
      | assumption | apply calm_count | apply calm_id | apply calm_foldl | apply calm_foldr | apply calm_ite | split | intro _
      | dsimp only | refine calm_mk ?_ rfl rfl)

theorem calm_execCommandStart {s₀ : State} {a1 : Fin 32} {a2 : Fin 64} {a3 : Word} {a4 : Fin 3} {s : State} {t : State} (e : execCommandStart a1 a2 a3 s a4 = .next t) (h5 : Calm s₀ s) : Calm s₀ t := by
  unfold execCommandStart at e
  try dsimp only at e
  first
  | refine calm_act e (by assumption) ?_
  | (injection e with e; subst e)
  | (revert e; repeat' (split); all_goals (intro e; injection e with e; subst e))
  all_goals with_reducible repeat' (first
      | assumption | apply calm_uncontained | apply calm_dropCmd | apply calm_endCmd | apply calm_startReady | apply calm_id
      | apply calm_foldl | apply calm_foldr | apply calm_ite | split | intro _ | dsimp only)

theorem calm_execDeadlineExpire {s₀ : State} {a1 : Fin 32} {a2 : Fin 64} {a3 : Word} {s : State} {t : State} (e : execDeadlineExpire a1 a2 a3 s = .next t) (h4 : Calm s₀ s) : Calm s₀ t := by
  unfold execDeadlineExpire at e
  try dsimp only at e
  first
  | refine calm_act e (by assumption) ?_
  | (injection e with e; subst e)
  | (revert e; repeat' (split); all_goals (intro e; injection e with e; subst e))
  all_goals with_reducible repeat' (first
      | assumption | apply calm_endCmd | apply calm_id | apply calm_foldl | apply calm_foldr | apply calm_ite | split | intro _
      | dsimp only)

theorem calm_execCompletionRecordWrite {s₀ : State} {a1 : Fin 32} {a2 : Bool} {s : State} {t : State} (e : execCompletionRecordWrite a1 s a2 = .next t) (h3 : Calm s₀ s) : Calm s₀ t := by
  unfold execCompletionRecordWrite at e
  try dsimp only at e
  first
  | refine calm_act e (by assumption) ?_
  | (injection e with e; subst e)
  | (revert e; repeat' (split); all_goals (intro e; injection e with e; subst e))
  all_goals with_reducible repeat' (first
      | assumption | apply calm_uncontained | apply calm_modPart | apply calm_pageCause | apply calm_want | apply calm_postBytes
      | apply calm_setRegN | apply calm_id | apply calm_foldl | apply calm_foldr | apply calm_ite | split | intro _ | dsimp only)

theorem calm_execAbortCommand {s₀ : State} {a1 : Fin 32} {a2 : Fin 64} {a3 : Word} {s : State} {t : State} (e : execAbortCommand a1 a2 a3 s = .next t) (h4 : Calm s₀ s) : Calm s₀ t := by
  unfold execAbortCommand at e
  try dsimp only at e
  first
  | refine calm_act e (by assumption) ?_
  | (injection e with e; subst e)
  | (revert e; repeat' (split); all_goals (intro e; injection e with e; subst e))
  all_goals with_reducible repeat' (first
      | assumption | apply calm_abortTarget | apply calm_endControl | apply calm_modRing | apply calm_id | apply calm_foldl
      | apply calm_foldr | apply calm_ite | split | intro _ | dsimp only)

theorem calm_execResumeFault {s₀ : State} {a1 : Fin 32} {a2 : Fin 64} {a3 : Word} {s : State} {t : State} (e : execResumeFault a1 a2 a3 s = .next t) (h4 : Calm s₀ s) : Calm s₀ t := by
  unfold execResumeFault at e
  try dsimp only at e
  first
  | refine calm_act e (by assumption) ?_
  | (injection e with e; subst e)
  | (revert e; repeat' (split); all_goals (intro e; injection e with e; subst e))
  all_goals with_reducible repeat' (first
      | assumption | apply calm_endControl | apply calm_resumeOne | apply calm_id | apply calm_foldl | apply calm_foldr
      | apply calm_ite | split | intro _ | dsimp only)

theorem calm_execMeProgram {s₀ : State} {a1 : Fin 32} {a2 : Fin 64} {a3 : Word} {s : State} {t : State} (e : execMeProgram a1 a2 a3 s = .next t) (h4 : Calm s₀ s) : Calm s₀ t := by
  unfold execMeProgram at e
  try dsimp only at e
  first
  | refine calm_act e (by assumption) ?_
  | (injection e with e; subst e)
  | (revert e; repeat' (split); all_goals (intro e; injection e with e; subst e))
  all_goals with_reducible repeat' (first
      | assumption | apply calm_meEnd | apply calm_endCmd | apply calm_setRegF | apply calm_setAux | apply calm_modEngine
      | apply calm_id | apply calm_foldl | apply calm_foldr | apply calm_ite | split | intro _ | dsimp only)

theorem calm_execLoadTile {s₀ : State} {a1 : Fin 32} {s : State} {t : State} (e : execLoadTile a1 s = .next t) (h2 : Calm s₀ s) : Calm s₀ t := by
  unfold execLoadTile at e
  try dsimp only at e
  first
  | refine calm_act e (by assumption) ?_
  | (injection e with e; subst e)
  | (revert e; repeat' (split); all_goals (intro e; injection e with e; subst e))
  all_goals with_reducible repeat' (first
      | assumption | apply calm_meStep | apply calm_meEnd | apply calm_whenReadable | apply calm_loadCopy | apply calm_whenReady
      | refine calm_fetchRows (by assumption) ?_ | apply calm_fetchRows' | refine calm_fetchAll (by assumption) ?_
      | apply calm_fetchAll' | apply calm_pcause | apply calm_count | apply calm_loaded | apply calm_id | apply calm_foldl
      | apply calm_foldr | apply calm_ite | split | intro _ | dsimp only)

theorem calm_execMma {s₀ : State} {a1 : Fin 32} {a2 : List Attempt} {s : State} {t : State} (e : execMma a1 a2 s = .next t) (h3 : Calm s₀ s) : Calm s₀ t := by
  unfold execMma at e
  try dsimp only at e
  first
  | refine calm_act e (by assumption) ?_
  | (injection e with e; subst e)
  | (revert e; repeat' (split); all_goals (intro e; injection e with e; subst e))
  all_goals with_reducible repeat' (first
      | assumption | apply calm_meStep | apply calm_runSlot | apply calm_id | apply calm_foldl | apply calm_foldr | apply calm_ite
      | split | intro _ | dsimp only)

theorem calm_execHelperRerun {s₀ : State} {a1 : Fin 32} {a2 : Attempt} {s : State} {t : State} (e : execHelperRerun a1 a2 s = .next t) (h3 : Calm s₀ s) : Calm s₀ t := by
  unfold execHelperRerun at e
  try dsimp only at e
  first
  | refine calm_act e (by assumption) ?_
  | (injection e with e; subst e)
  | (revert e; repeat' (split); all_goals (intro e; injection e with e; subst e))
  all_goals with_reducible repeat' (first
      | assumption | apply calm_bufferFixed | apply calm_clearTable | apply calm_meQuarantine | apply calm_meMismatch
      | apply calm_count | apply calm_modEngine | apply calm_storeStep | apply calm_storeEffect | apply calm_slotDone
      | apply calm_meEnd | apply calm_id | apply calm_foldl | apply calm_foldr | apply calm_ite | split | intro _ | dsimp only)

theorem calm_execQuant {s₀ : State} {a1 : Fin 32} {a2 : List Attempt} {s : State} {t : State} (e : execQuant a1 a2 s = .next t) (h3 : Calm s₀ s) : Calm s₀ t := by
  unfold execQuant at e
  try dsimp only at e
  first
  | refine calm_act e (by assumption) ?_
  | (injection e with e; subst e)
  | (revert e; repeat' (split); all_goals (intro e; injection e with e; subst e))
  all_goals with_reducible repeat' (first
      | assumption | apply calm_meStep | apply calm_runSlot | apply calm_id | apply calm_foldl | apply calm_foldr | apply calm_ite
      | split | intro _ | dsimp only)

theorem calm_execStoreTile {s₀ : State} {a1 : Fin 32} {a2 : List Attempt} {s : State} {t : State} (e : execStoreTile a1 a2 s = .next t) (h3 : Calm s₀ s) : Calm s₀ t := by
  unfold execStoreTile at e
  try dsimp only at e
  first
  | refine calm_act e (by assumption) ?_
  | (injection e with e; subst e)
  | (revert e; repeat' (split); all_goals (intro e; injection e with e; subst e))
  all_goals with_reducible repeat' (first
      | assumption | apply calm_meStep | apply calm_storeStep | apply calm_attempts | apply calm_storeEffect | apply calm_id
      | apply calm_foldl | apply calm_foldr | apply calm_ite | split | intro _ | dsimp only)

theorem calm_execMeSemWait {s₀ : State} {a1 : Fin 32} {a2 : Fin 3} {s : State} {t : State} (e : execMeSemWait a1 a2 s = .next t) (h3 : Calm s₀ s) : Calm s₀ t := by
  unfold execMeSemWait at e
  try dsimp only at e
  first
  | refine calm_act e (by assumption) ?_
  | (injection e with e; subst e)
  | (revert e; repeat' (split); all_goals (intro e; injection e with e; subst e))
  all_goals with_reducible repeat' (first
      | assumption | apply calm_meStep | apply calm_meEnd | apply calm_semWait | apply calm_semFind | apply calm_id
      | apply calm_foldl | apply calm_foldr | apply calm_ite | split | intro _ | dsimp only)

theorem calm_execMeSemSignal {s₀ : State} {a1 : Fin 32} {a2 : Fin 3} {s : State} {t : State} (e : execMeSemSignal a1 a2 s = .next t) (h3 : Calm s₀ s) : Calm s₀ t := by
  unfold execMeSemSignal at e
  try dsimp only at e
  first
  | refine calm_act e (by assumption) ?_
  | (injection e with e; subst e)
  | (revert e; repeat' (split); all_goals (intro e; injection e with e; subst e))
  all_goals with_reducible repeat' (first
      | assumption | apply calm_meStep | apply calm_meEnd | apply calm_semFind | refine calm_semAdd (by assumption) ?_
      | apply calm_semAdd' | apply calm_meDone | apply calm_id | apply calm_foldl | apply calm_foldr | apply calm_ite | split
      | intro _ | dsimp only)

theorem calm_execQuarantineAtBoundary {s₀ : State} {a1 : UnitKind} {a2 : Fin 64} {s : State} {t : State} (e : execQuarantineAtBoundary a1 a2 s = .next t) (h3 : Calm s₀ s) : Calm s₀ t := by
  unfold execQuarantineAtBoundary at e
  try dsimp only at e
  first
  | refine calm_act e (by assumption) ?_
  | (injection e with e; subst e)
  | (revert e; repeat' (split); all_goals (intro e; injection e with e; subst e))
  all_goals with_reducible repeat' (first
      | assumption | apply calm_quarantine | refine calm_quarStop (by assumption) ?_ | apply calm_id | apply calm_foldl
      | apply calm_foldr | apply calm_ite | split | intro _ | dsimp only)

theorem calm_execGcRun {s₀ : State} {a1 : Fin 32} {a2 : Fin 64} {a3 : Word} {s : State} {t : State} (e : execGcRun a1 a2 a3 s = .next t) (h4 : Calm s₀ s) : Calm s₀ t := by
  unfold execGcRun at e
  try dsimp only at e
  first
  | refine calm_act e (by assumption) ?_
  | (injection e with e; subst e)
  | (revert e; repeat' (split); all_goals (intro e; injection e with e; subst e))
  all_goals with_reducible repeat' (first
      | assumption | apply calm_endCmd | apply calm_modScaler | apply calm_setAux | apply calm_forgetArrivals | apply calm_modCore
      | apply calm_cleanLines | apply calm_id | apply calm_foldl | apply calm_foldr | apply calm_ite | split | intro _ | dsimp only)

theorem calm_execGcRunEnd {s₀ : State} {a1 : Fin 64} {s : State} {t : State} (e : execGcRunEnd a1 s = .next t) (h2 : Calm s₀ s) : Calm s₀ t := by
  unfold execGcRunEnd at e
  try dsimp only at e
  first
  | refine calm_act e (by assumption) ?_
  | (injection e with e; subst e)
  | (revert e; repeat' (split); all_goals (intro e; injection e with e; subst e))
  all_goals with_reducible repeat' (first
      | assumption | apply calm_gcAbort | apply calm_cleanLines | apply calm_dropCoreResv | apply calm_forgetArrivals
      | apply calm_endWait | apply calm_endFaultsOf | apply calm_setRegN | apply calm_endCmd | apply calm_modCore | apply calm_id
      | apply calm_foldl | apply calm_foldr | apply calm_ite | split | intro _ | dsimp only)

theorem calm_execEcall {s₀ : State} {a1 : Fin 64} {s : State} {t : State} (e : execEcall a1 s = .next t) (h2 : Calm s₀ s) : Calm s₀ t := by
  unfold execEcall at e
  try dsimp only at e
  first
  | refine calm_act e (by assumption) ?_
  | (injection e with e; subst e)
  | (revert e; repeat' (split); all_goals (intro e; injection e with e; subst e))
  all_goals with_reducible repeat' (first
      | assumption | apply calm_gcInstr | apply calm_gcEnd | apply calm_endRun | apply calm_setAux | apply calm_id
      | apply calm_foldl | apply calm_foldr | apply calm_ite | split | intro _ | dsimp only)

theorem calm_execEbreak {s₀ : State} {a1 : Fin 64} {s : State} {t : State} (e : execEbreak a1 s = .next t) (h2 : Calm s₀ s) : Calm s₀ t := by
  unfold execEbreak at e
  try dsimp only at e
  first
  | refine calm_act e (by assumption) ?_
  | (injection e with e; subst e)
  | (revert e; repeat' (split); all_goals (intro e; injection e with e; subst e))
  all_goals with_reducible repeat' (first
      | assumption | apply calm_gcInstr | apply calm_gcEnd | apply calm_id | apply calm_foldl | apply calm_foldr | apply calm_ite
      | split | intro _ | dsimp only)

theorem calm_execIllegalInstruction {s₀ : State} {a1 : Fin 64} {s : State} {t : State} (e : execIllegalInstruction a1 s = .next t) (h2 : Calm s₀ s) : Calm s₀ t := by
  unfold execIllegalInstruction at e
  try dsimp only at e
  first
  | refine calm_act e (by assumption) ?_
  | (injection e with e; subst e)
  | (revert e; repeat' (split); all_goals (intro e; injection e with e; subst e))
  all_goals with_reducible repeat' (first
      | assumption | apply calm_gcInstr | apply calm_gcEnd | apply calm_id | apply calm_foldl | apply calm_foldr | apply calm_ite
      | split | intro _ | dsimp only)

theorem calm_execGcLoad {s₀ : State} {a1 : Fin 64} {a2 : Bool} {s : State} {t : State} (e : execGcLoad a1 a2 s = .next t) (h3 : Calm s₀ s) : Calm s₀ t := by
  unfold execGcLoad at e
  try dsimp only at e
  first
  | refine calm_act e (by assumption) ?_
  | (injection e with e; subst e)
  | (revert e; repeat' (split); all_goals (intro e; injection e with e; subst e))
  all_goals with_reducible repeat' (first
      | assumption | apply calm_gcInstr | apply calm_loadDone | apply calm_modCore | apply calm_coreRead | apply calm_l1dError
      | apply calm_id | apply calm_foldl | apply calm_foldr | apply calm_ite | split | intro _ | dsimp only)

theorem calm_execGcStore {s₀ : State} {a1 : Fin 64} {a2 : Bool} {s : State} {t : State} (e : execGcStore a1 a2 s = .next t) (h3 : Calm s₀ s) : Calm s₀ t := by
  unfold execGcStore at e
  try dsimp only at e
  first
  | refine calm_act e (by assumption) ?_
  | (injection e with e; subst e)
  | (revert e; repeat' (split); all_goals (intro e; injection e with e; subst e))
  all_goals with_reducible repeat' (first
      | assumption | apply calm_gcInstr | apply calm_accessDone | apply calm_coreWrite | apply calm_l1dError | apply calm_id
      | apply calm_foldl | apply calm_foldr | apply calm_ite | split | intro _ | dsimp only)

theorem calm_execGcInstructionFetch {s₀ : State} {a1 : Fin 64} {a2 : Bool} {a3 : Option Upset} {s : State} {t : State} (e : execGcInstructionFetch a1 a2 s a3 = .next t) (h4 : Calm s₀ s) : Calm s₀ t := by
  unfold execGcInstructionFetch at e
  try dsimp only at e
  first
  | refine calm_act e (by assumption) ?_
  | (injection e with e; subst e)
  | (revert e; repeat' (split); all_goals (intro e; injection e with e; subst e))
  all_goals with_reducible repeat' (first
      | assumption | apply calm_gcStep | apply calm_l1dStrike | apply calm_l1Fixed | apply calm_modCore | apply calm_fetchInstr
      | refine calm_drawMany (by assumption) ?_ | apply calm_drawMany' | apply calm_retireAt | apply calm_fillOpen | apply calm_id
      | apply calm_foldl | apply calm_foldr | apply calm_ite | split | intro _ | dsimp only)

theorem calm_execFence {s₀ : State} {a1 : Fin 64} {s : State} {t : State} (e : execFence a1 s = .next t) (h2 : Calm s₀ s) : Calm s₀ t := by
  unfold execFence at e
  try dsimp only at e
  first
  | refine calm_act e (by assumption) ?_
  | (injection e with e; subst e)
  | (revert e; repeat' (split); all_goals (intro e; injection e with e; subst e))
  all_goals with_reducible repeat' (first
      | assumption | apply calm_gcInstr | apply calm_retire | apply calm_id | apply calm_foldl | apply calm_foldr | apply calm_ite
      | split | intro _ | dsimp only)

theorem calm_execFenceI {s₀ : State} {a1 : Fin 64} {s : State} {t : State} (e : execFenceI a1 s = .next t) (h2 : Calm s₀ s) : Calm s₀ t := by
  unfold execFenceI at e
  try dsimp only at e
  first
  | refine calm_act e (by assumption) ?_
  | (injection e with e; subst e)
  | (revert e; repeat' (split); all_goals (intro e; injection e with e; subst e))
  all_goals with_reducible repeat' (first
      | assumption | apply calm_gcInstr | apply calm_retire | apply calm_modCore | apply calm_id | apply calm_foldl
      | apply calm_foldr | apply calm_ite | split | intro _ | dsimp only)

theorem calm_execAmoadd {s₀ : State} {a1 : Fin 64} {s : State} {t : State} (e : execAmoadd a1 s = .next t) (h2 : Calm s₀ s) : Calm s₀ t := by
  unfold execAmoadd at e
  try dsimp only at e
  first
  | refine calm_act e (by assumption) ?_
  | (injection e with e; subst e)
  | (revert e; repeat' (split); all_goals (intro e; injection e with e; subst e))
  all_goals with_reducible repeat' (first
      | assumption | apply calm_amo | apply calm_id | apply calm_foldl | apply calm_foldr | apply calm_ite | split | intro _
      | dsimp only)

theorem calm_execAmomin {s₀ : State} {a1 : Fin 64} {s : State} {t : State} (e : execAmomin a1 s = .next t) (h2 : Calm s₀ s) : Calm s₀ t := by
  unfold execAmomin at e
  try dsimp only at e
  first
  | refine calm_act e (by assumption) ?_
  | (injection e with e; subst e)
  | (revert e; repeat' (split); all_goals (intro e; injection e with e; subst e))
  all_goals with_reducible repeat' (first
      | assumption | apply calm_amo | apply calm_id | apply calm_foldl | apply calm_foldr | apply calm_ite | split | intro _
      | dsimp only)

theorem calm_execAmomax {s₀ : State} {a1 : Fin 64} {s : State} {t : State} (e : execAmomax a1 s = .next t) (h2 : Calm s₀ s) : Calm s₀ t := by
  unfold execAmomax at e
  try dsimp only at e
  first
  | refine calm_act e (by assumption) ?_
  | (injection e with e; subst e)
  | (revert e; repeat' (split); all_goals (intro e; injection e with e; subst e))
  all_goals with_reducible repeat' (first
      | assumption | apply calm_amo | apply calm_id | apply calm_foldl | apply calm_foldr | apply calm_ite | split | intro _
      | dsimp only)

theorem calm_execAmominu {s₀ : State} {a1 : Fin 64} {s : State} {t : State} (e : execAmominu a1 s = .next t) (h2 : Calm s₀ s) : Calm s₀ t := by
  unfold execAmominu at e
  try dsimp only at e
  first
  | refine calm_act e (by assumption) ?_
  | (injection e with e; subst e)
  | (revert e; repeat' (split); all_goals (intro e; injection e with e; subst e))
  all_goals with_reducible repeat' (first
      | assumption | apply calm_amo | apply calm_id | apply calm_foldl | apply calm_foldr | apply calm_ite | split | intro _
      | dsimp only)

theorem calm_execAmomaxu {s₀ : State} {a1 : Fin 64} {s : State} {t : State} (e : execAmomaxu a1 s = .next t) (h2 : Calm s₀ s) : Calm s₀ t := by
  unfold execAmomaxu at e
  try dsimp only at e
  first
  | refine calm_act e (by assumption) ?_
  | (injection e with e; subst e)
  | (revert e; repeat' (split); all_goals (intro e; injection e with e; subst e))
  all_goals with_reducible repeat' (first
      | assumption | apply calm_amo | apply calm_id | apply calm_foldl | apply calm_foldr | apply calm_ite | split | intro _
      | dsimp only)

theorem calm_execAmoswap {s₀ : State} {a1 : Fin 64} {s : State} {t : State} (e : execAmoswap a1 s = .next t) (h2 : Calm s₀ s) : Calm s₀ t := by
  unfold execAmoswap at e
  try dsimp only at e
  first
  | refine calm_act e (by assumption) ?_
  | (injection e with e; subst e)
  | (revert e; repeat' (split); all_goals (intro e; injection e with e; subst e))
  all_goals with_reducible repeat' (first
      | assumption | apply calm_amo | apply calm_id | apply calm_foldl | apply calm_foldr | apply calm_ite | split | intro _
      | dsimp only)

theorem calm_execAmoand {s₀ : State} {a1 : Fin 64} {s : State} {t : State} (e : execAmoand a1 s = .next t) (h2 : Calm s₀ s) : Calm s₀ t := by
  unfold execAmoand at e
  try dsimp only at e
  first
  | refine calm_act e (by assumption) ?_
  | (injection e with e; subst e)
  | (revert e; repeat' (split); all_goals (intro e; injection e with e; subst e))
  all_goals with_reducible repeat' (first
      | assumption | apply calm_amo | apply calm_id | apply calm_foldl | apply calm_foldr | apply calm_ite | split | intro _
      | dsimp only)

theorem calm_execAmoor {s₀ : State} {a1 : Fin 64} {s : State} {t : State} (e : execAmoor a1 s = .next t) (h2 : Calm s₀ s) : Calm s₀ t := by
  unfold execAmoor at e
  try dsimp only at e
  first
  | refine calm_act e (by assumption) ?_
  | (injection e with e; subst e)
  | (revert e; repeat' (split); all_goals (intro e; injection e with e; subst e))
  all_goals with_reducible repeat' (first
      | assumption | apply calm_amo | apply calm_id | apply calm_foldl | apply calm_foldr | apply calm_ite | split | intro _
      | dsimp only)

theorem calm_execAmoxor {s₀ : State} {a1 : Fin 64} {s : State} {t : State} (e : execAmoxor a1 s = .next t) (h2 : Calm s₀ s) : Calm s₀ t := by
  unfold execAmoxor at e
  try dsimp only at e
  first
  | refine calm_act e (by assumption) ?_
  | (injection e with e; subst e)
  | (revert e; repeat' (split); all_goals (intro e; injection e with e; subst e))
  all_goals with_reducible repeat' (first
      | assumption | apply calm_amo | apply calm_id | apply calm_foldl | apply calm_foldr | apply calm_ite | split | intro _
      | dsimp only)

theorem calm_execLr {s₀ : State} {a1 : Fin 64} {s : State} {t : State} (e : execLr a1 s = .next t) (h2 : Calm s₀ s) : Calm s₀ t := by
  unfold execLr at e
  try dsimp only at e
  first
  | refine calm_act e (by assumption) ?_
  | (injection e with e; subst e)
  | (revert e; repeat' (split); all_goals (intro e; injection e with e; subst e))
  all_goals with_reducible repeat' (first
      | assumption | apply calm_gcInstr | apply calm_gcEnd | refine calm_issue_ok (by assumption) ?_
      | refine calm_issue_stop (by assumption) ?_ | apply calm_unlessEnding | apply calm_cleanLines | apply calm_whenReady
      | refine calm_fetch (by assumption) ?_ | apply calm_fetch' | apply calm_dropCoreResv | apply calm_retire | apply calm_modCore
      | apply calm_coreRelease | apply calm_id | apply calm_foldl | apply calm_foldr | apply calm_ite | split | intro _
      | dsimp only | refine calm_mk ?_ rfl rfl)

theorem calm_execSc {s₀ : State} {a1 : Fin 64} {s : State} {t : State} (e : execSc a1 s = .next t) (h2 : Calm s₀ s) : Calm s₀ t := by
  unfold execSc at e
  try dsimp only at e
  first
  | refine calm_act e (by assumption) ?_
  | (injection e with e; subst e)
  | (revert e; repeat' (split); all_goals (intro e; injection e with e; subst e))
  all_goals with_reducible repeat' (first
      | assumption | apply calm_gcInstr | apply calm_retire | apply calm_modCore | apply calm_dropCoreResv | apply calm_gcEnd
      | refine calm_issue_ok (by assumption) ?_ | refine calm_issue_stop (by assumption) ?_ | apply calm_unlessEnding
      | apply calm_cleanLines | apply calm_atomicHome | apply calm_coreRelease | apply calm_id | apply calm_foldl
      | apply calm_foldr | apply calm_ite | split | intro _ | dsimp only)

theorem calm_execGcBxw {s₀ : State} {a1 : Fin 64} {s : State} {t : State} (e : execGcBxw a1 s = .next t) (h2 : Calm s₀ s) : Calm s₀ t := by
  unfold execGcBxw at e
  try dsimp only at e
  first
  | refine calm_act e (by assumption) ?_
  | (injection e with e; subst e)
  | (revert e; repeat' (split); all_goals (intro e; injection e with e; subst e))
  all_goals with_reducible repeat' (first
      | assumption | apply calm_gcInstr | apply calm_retire | apply calm_modCore | apply calm_id | apply calm_foldl
      | apply calm_foldr | apply calm_ite | split | intro _ | dsimp only)

theorem calm_execGcBxc {s₀ : State} {a1 : Fin 64} {s : State} {t : State} (e : execGcBxc a1 s = .next t) (h2 : Calm s₀ s) : Calm s₀ t := by
  unfold execGcBxc at e
  try dsimp only at e
  first
  | refine calm_act e (by assumption) ?_
  | (injection e with e; subst e)
  | (revert e; repeat' (split); all_goals (intro e; injection e with e; subst e))
  all_goals with_reducible repeat' (first
      | assumption | apply calm_gcInstr | apply calm_retire | apply calm_modCore | apply calm_id | apply calm_foldl
      | apply calm_foldr | apply calm_ite | split | intro _ | dsimp only)

theorem calm_execGcDq {s₀ : State} {a1 : Fin 64} {s : State} {t : State} (e : execGcDq a1 s = .next t) (h2 : Calm s₀ s) : Calm s₀ t := by
  unfold execGcDq at e
  try dsimp only at e
  first
  | refine calm_act e (by assumption) ?_
  | (injection e with e; subst e)
  | (revert e; repeat' (split); all_goals (intro e; injection e with e; subst e))
  all_goals with_reducible repeat' (first
      | assumption | apply calm_gcInstr | apply calm_retire | apply calm_count | apply calm_modCore | apply calm_id
      | apply calm_foldl | apply calm_foldr | apply calm_ite | split | intro _ | dsimp only)

theorem calm_mergeLoop {s₀ : State} {a1 : Nat} {a2 : Cmd} {a3 : Nat} {a4 : MCtx} {a5 : List MStream → List Nat → Nat → Nat → State → State} {a6 : Nat} {a7 : List MStream} {a8 : List Nat} {a9 : Nat} {a10 : Nat} {s : State} (h5 : ∀ y0 y1 y2 y3 y4, Calm s₀ y4 → Calm s₀ (a5 y0 y1 y2 y3 y4)) (h11 : Calm s₀ s) : Calm s₀ (mergeLoop a1 a2 a3 a4 a5 a6 a7 a8 a9 a10 s) := by
  induction a6 generalizing a1 a2 a3 a4 a5 a7 a8 a9 a10 s h5 h11 with
  | zero =>
    unfold mergeLoop
    with_reducible repeat' (first
      | assumption | apply calm_mergeHeads | apply calm_mergePrev | apply calm_coreWrite | apply calm_id | apply calm_foldl
      | apply calm_foldr | apply calm_ite | apply h5 | split | intro _ | dsimp only)
  | succ _ ih =>
    unfold mergeLoop
    with_reducible repeat' (first
      | assumption | apply calm_mergeHeads | apply calm_mergePrev | apply calm_coreWrite | apply calm_id | apply calm_foldl
      | apply calm_foldr | apply calm_ite | apply h5 | split | intro _ | dsimp only | apply ih)

theorem calm_execGcKmrg {s₀ : State} {a1 : Fin 64} {s : State} {t : State} (e : execGcKmrg a1 s = .next t) (h2 : Calm s₀ s) : Calm s₀ t := by
  unfold execGcKmrg at e
  try dsimp only at e
  first
  | refine calm_act e (by assumption) ?_
  | (injection e with e; subst e)
  | (revert e; repeat' (split); all_goals (intro e; injection e with e; subst e))
  all_goals with_reducible repeat' (first
      | assumption | apply calm_gcInstr | apply calm_modCore | refine calm_draw (by assumption) ?_ | apply calm_draw'
      | apply calm_gcEnd | apply calm_coreRead | apply calm_mergeLoop | apply calm_coreWrite | apply calm_retire | apply calm_count
      | apply calm_mergeRebuild | apply calm_id | apply calm_foldl | apply calm_foldr | apply calm_ite | split | intro _
      | dsimp only)

theorem calm_execGcSemsig {s₀ : State} {a1 : Fin 64} {a2 : Fin 3} {s : State} {t : State} (e : execGcSemsig a1 a2 s = .next t) (h3 : Calm s₀ s) : Calm s₀ t := by
  unfold execGcSemsig at e
  try dsimp only at e
  first
  | refine calm_act e (by assumption) ?_
  | (injection e with e; subst e)
  | (revert e; repeat' (split); all_goals (intro e; injection e with e; subst e))
  all_goals with_reducible repeat' (first
      | assumption | apply calm_gcInstr | apply calm_gcEnd | apply calm_coreRelease | apply calm_retire
      | refine calm_semAdd (by assumption) ?_ | apply calm_semAdd' | apply calm_semFind | apply calm_id | apply calm_foldl
      | apply calm_foldr | apply calm_ite | split | intro _ | dsimp only)

theorem calm_execGcSemwait {s₀ : State} {a1 : Fin 64} {a2 : Fin 3} {s : State} {t : State} (e : execGcSemwait a1 a2 s = .next t) (h3 : Calm s₀ s) : Calm s₀ t := by
  unfold execGcSemwait at e
  try dsimp only at e
  first
  | refine calm_act e (by assumption) ?_
  | (injection e with e; subst e)
  | (revert e; repeat' (split); all_goals (intro e; injection e with e; subst e))
  all_goals with_reducible repeat' (first
      | assumption | apply calm_gcInstr | apply calm_gcEnd | apply calm_semWait | apply calm_semFind | apply calm_id
      | apply calm_foldl | apply calm_foldr | apply calm_ite | split | intro _ | dsimp only)

theorem calm_execGcSemrd {s₀ : State} {a1 : Fin 64} {a2 : Fin 3} {s : State} {t : State} (e : execGcSemrd a1 a2 s = .next t) (h3 : Calm s₀ s) : Calm s₀ t := by
  unfold execGcSemrd at e
  try dsimp only at e
  first
  | refine calm_act e (by assumption) ?_
  | (injection e with e; subst e)
  | (revert e; repeat' (split); all_goals (intro e; injection e with e; subst e))
  all_goals with_reducible repeat' (first
      | assumption | apply calm_gcInstr | apply calm_gcEnd | apply calm_semFind | apply calm_retire | apply calm_modCore
      | apply calm_id | apply calm_foldl | apply calm_foldr | apply calm_ite | split | intro _ | dsimp only)

theorem calm_execGcDcln {s₀ : State} {a1 : Fin 64} {s : State} {t : State} (e : execGcDcln a1 s = .next t) (h2 : Calm s₀ s) : Calm s₀ t := by
  unfold execGcDcln at e
  try dsimp only at e
  first
  | refine calm_act e (by assumption) ?_
  | (injection e with e; subst e)
  | (revert e; repeat' (split); all_goals (intro e; injection e with e; subst e))
  all_goals with_reducible repeat' (first
      | assumption | apply calm_gcInstr | apply calm_unlessEnding | apply calm_cleanLines | apply calm_retire | apply calm_id
      | apply calm_foldl | apply calm_foldr | apply calm_ite | split | intro _ | dsimp only)

theorem calm_execGcDinv {s₀ : State} {a1 : Fin 64} {s : State} {t : State} (e : execGcDinv a1 s = .next t) (h2 : Calm s₀ s) : Calm s₀ t := by
  unfold execGcDinv at e
  try dsimp only at e
  first
  | refine calm_act e (by assumption) ?_
  | (injection e with e; subst e)
  | (revert e; repeat' (split); all_goals (intro e; injection e with e; subst e))
  all_goals with_reducible repeat' (first
      | assumption | apply calm_gcInstr | apply calm_unlessEnding | apply calm_cleanLines | apply calm_retire | apply calm_id
      | apply calm_foldl | apply calm_foldr | apply calm_ite | split | intro _ | dsimp only)

theorem calm_execGcCas {s₀ : State} {a1 : Fin 64} {s : State} {t : State} (e : execGcCas a1 s = .next t) (h2 : Calm s₀ s) : Calm s₀ t := by
  unfold execGcCas at e
  try dsimp only at e
  first
  | refine calm_act e (by assumption) ?_
  | (injection e with e; subst e)
  | (revert e; repeat' (split); all_goals (intro e; injection e with e; subst e))
  all_goals with_reducible repeat' (first
      | assumption | apply calm_gcInstr | apply calm_coreAtomic | apply calm_retire | apply calm_modCore | apply calm_id
      | apply calm_foldl | apply calm_foldr | apply calm_ite | split | intro _ | dsimp only)

theorem calm_execGcAmofadd {s₀ : State} {a1 : Fin 64} {s : State} {t : State} (e : execGcAmofadd a1 s = .next t) (h2 : Calm s₀ s) : Calm s₀ t := by
  unfold execGcAmofadd at e
  try dsimp only at e
  first
  | refine calm_act e (by assumption) ?_
  | (injection e with e; subst e)
  | (revert e; repeat' (split); all_goals (intro e; injection e with e; subst e))
  all_goals with_reducible repeat' (first
      | assumption | apply calm_gcInstr | apply calm_gcEnd | apply calm_coreAtomic | apply calm_retire | apply calm_modCore
      | apply calm_id | apply calm_foldl | apply calm_foldr | apply calm_ite | split | intro _ | dsimp only)

theorem calm_execGcTag {s₀ : State} {a1 : Fin 64} {s : State} {t : State} (e : execGcTag a1 s = .next t) (h2 : Calm s₀ s) : Calm s₀ t := by
  unfold execGcTag at e
  try dsimp only at e
  first
  | refine calm_act e (by assumption) ?_
  | (injection e with e; subst e)
  | (revert e; repeat' (split); all_goals (intro e; injection e with e; subst e))
  all_goals with_reducible repeat' (first
      | assumption | apply calm_gcInstr | apply calm_retire | apply calm_modScaler | apply calm_id | apply calm_foldl
      | apply calm_foldr | apply calm_ite | split | intro _ | dsimp only)

theorem calm_execT0Scrub {s₀ : State} {a1 : BitVec 26} {a2 : Fin 3} {a3 : Fin 3} {s : State} {t : State} (e : execT0Scrub a1 a2 s a3 = .next t) (h4 : Calm s₀ s) : Calm s₀ t := by
  unfold execT0Scrub at e
  try dsimp only at e
  first
  | refine calm_act e (by assumption) ?_
  | (injection e with e; subst e)
  | (revert e; repeat' (split); all_goals (intro e; injection e with e; subst e))
  all_goals with_reducible repeat' (first
      | assumption | apply calm_setT0Err | apply calm_t0FindWord | apply calm_t0Line | apply calm_id | apply calm_foldl
      | apply calm_foldr | apply calm_ite | split | intro _ | dsimp only)

theorem calm_execT1Scrub {s₀ : State} {a1 : BitVec 34} {a2 : List (BitVec 16)} {a3 : Bool} {a4 : List (BitVec 16)} {a5 : Fin 3} {s : State} {t : State} (e : execT1Scrub a1 a2 a3 s a4 a5 = .next t) (h6 : Calm s₀ s) : Calm s₀ t := by
  unfold execT1Scrub at e
  try dsimp only at e
  first
  | refine calm_act e (by assumption) ?_
  | (injection e with e; subst e)
  | (revert e; repeat' (split); all_goals (intro e; injection e with e; subst e))
  all_goals with_reducible repeat' (first
      | assumption | apply calm_t1Spoil | apply calm_checkBits | apply calm_dirError | apply calm_scrubOrphan | apply calm_t1Find
      | apply calm_stackLine | apply calm_endSuspects | apply calm_cause | apply calm_count | apply calm_id | apply calm_foldl
      | apply calm_foldr | apply calm_ite | split | intro _ | dsimp only)

theorem calm_execMoveCopy {s₀ : State} {a1 : Fin 32} {a2 : Fin 64} {a3 : Word} {s : State} {t : State} (e : execMoveCopy a1 a2 a3 s = .next t) (h4 : Calm s₀ s) : Calm s₀ t := by
  unfold execMoveCopy at e
  try dsimp only at e
  first
  | refine calm_act e (by assumption) ?_
  | (injection e with e; subst e)
  | (revert e; repeat' (split); all_goals (intro e; injection e with e; subst e))
  all_goals with_reducible repeat' (first
      | assumption | apply calm_moveStep | apply calm_blockToLoft | apply calm_segment | apply calm_id | apply calm_foldl
      | apply calm_foldr | apply calm_ite | split | intro _ | dsimp only)

theorem calm_execMovePlace {s₀ : State} {a1 : Fin 32} {a2 : Fin 64} {a3 : Word} {s : State} {t : State} (e : execMovePlace a1 a2 a3 s = .next t) (h4 : Calm s₀ s) : Calm s₀ t := by
  unfold execMovePlace at e
  try dsimp only at e
  first
  | refine calm_act e (by assumption) ?_
  | (injection e with e; subst e)
  | (revert e; repeat' (split); all_goals (intro e; injection e with e; subst e))
  all_goals with_reducible repeat' (first
      | assumption | apply calm_moveStep | apply calm_segment | apply calm_id | apply calm_foldl | apply calm_foldr
      | apply calm_ite | split | intro _ | dsimp only)

theorem calm_execMoveFree {s₀ : State} {a1 : Fin 32} {a2 : Fin 64} {a3 : Word} {s : State} {t : State} (e : execMoveFree a1 a2 a3 s = .next t) (h4 : Calm s₀ s) : Calm s₀ t := by
  unfold execMoveFree at e
  try dsimp only at e
  first
  | refine calm_act e (by assumption) ?_
  | (injection e with e; subst e)
  | (revert e; repeat' (split); all_goals (intro e; injection e with e; subst e))
  all_goals with_reducible repeat' (first
      | assumption | apply calm_moveStep | apply calm_freePage | apply calm_id | apply calm_foldl | apply calm_foldr
      | apply calm_ite | split | intro _ | dsimp only)

theorem calm_execMoveZero {s₀ : State} {a1 : Fin 32} {a2 : Fin 64} {a3 : Word} {s : State} {t : State} (e : execMoveZero a1 a2 a3 s = .next t) (h4 : Calm s₀ s) : Calm s₀ t := by
  unfold execMoveZero at e
  try dsimp only at e
  first
  | refine calm_act e (by assumption) ?_
  | (injection e with e; subst e)
  | (revert e; repeat' (split); all_goals (intro e; injection e with e; subst e))
  all_goals with_reducible repeat' (first
      | assumption | apply calm_moveStep | apply calm_blockToLoft | apply calm_segment | apply calm_id | apply calm_foldl
      | apply calm_foldr | apply calm_ite | split | intro _ | dsimp only)

theorem calm_execMoveChannelTake {s₀ : State} {a1 : Fin 8} {s : State} {t : State} (e : execMoveChannelTake a1 s = .next t) (h2 : Calm s₀ s) : Calm s₀ t := by
  unfold execMoveChannelTake at e
  try dsimp only at e
  first
  | refine calm_act e (by assumption) ?_
  | (injection e with e; subst e)
  | (revert e; repeat' (split); all_goals (intro e; injection e with e; subst e))
  all_goals with_reducible repeat' (first
      | assumption | apply calm_modLoft | apply calm_startOn | apply calm_id | apply calm_foldl | apply calm_foldr | apply calm_ite
      | split | intro _ | dsimp only)

theorem calm_execLoftWriteStage {s₀ : State} {s : State} {t : State} (e : execLoftWriteStage s = .next t) (h1 : Calm s₀ s) : Calm s₀ t := by
  unfold execLoftWriteStage at e
  try dsimp only at e
  first
  | refine calm_act e (by assumption) ?_
  | (injection e with e; subst e)
  | (revert e; repeat' (split); all_goals (intro e; injection e with e; subst e))
  all_goals with_reducible repeat' (first
      | assumption | apply calm_modLoft | apply calm_endLate | apply calm_loftAnswer | apply calm_setLoftPlace | apply calm_id
      | apply calm_foldl | apply calm_foldr | apply calm_ite | split | intro _ | dsimp only)

theorem calm_execLoftStripeProgram {s₀ : State} {s : State} {t : State} (e : execLoftStripeProgram s = .next t) (h1 : Calm s₀ s) : Calm s₀ t := by
  unfold execLoftStripeProgram at e
  try dsimp only at e
  first
  | refine calm_act e (by assumption) ?_
  | (injection e with e; subst e)
  | (revert e; repeat' (split); all_goals (intro e; injection e with e; subst e))
  all_goals with_reducible repeat' (first
      | assumption | refine calm_choose (by assumption) ?_ | apply calm_choose' | apply calm_modLoft | apply calm_modSuper
      | apply calm_programStripe | apply calm_id | apply calm_foldl | apply calm_foldr | apply calm_ite | split | intro _
      | dsimp only)

theorem calm_execLoftProgramDone {s₀ : State} {a1 : Nat} {a2 : Nat} {a3 : Option (Fin 17)} {s : State} {t : State} (e : execLoftProgramDone a1 a2 a3 s = .next t) (h4 : Calm s₀ s) : Calm s₀ t := by
  unfold execLoftProgramDone at e
  try dsimp only at e
  first
  | refine calm_act e (by assumption) ?_
  | (injection e with e; subst e)
  | (revert e; repeat' (split); all_goals (intro e; injection e with e; subst e))
  all_goals with_reducible repeat' (first
      | assumption | apply calm_blockDone | apply calm_nandPut | apply calm_giveRoom | apply calm_retireBlock | apply calm_id
      | apply calm_foldl | apply calm_foldr | apply calm_ite | split | intro _ | dsimp only)

theorem calm_execLoftGc {s₀ : State} {s : State} {t : State} (e : execLoftGc s = .next t) (h1 : Calm s₀ s) : Calm s₀ t := by
  unfold execLoftGc at e
  try dsimp only at e
  first
  | refine calm_act e (by assumption) ?_
  | (injection e with e; subst e)
  | (revert e; repeat' (split); all_goals (intro e; injection e with e; subst e))
  all_goals with_reducible repeat' (first
      | assumption | apply calm_collect | apply calm_id | apply calm_foldl | apply calm_foldr | apply calm_ite | split | intro _
      | dsimp only)

theorem calm_execLoftWearMove {s₀ : State} {s : State} {t : State} (e : execLoftWearMove s = .next t) (h1 : Calm s₀ s) : Calm s₀ t := by
  unfold execLoftWearMove at e
  try dsimp only at e
  first
  | refine calm_act e (by assumption) ?_
  | (injection e with e; subst e)
  | (revert e; repeat' (split); all_goals (intro e; injection e with e; subst e))
  all_goals with_reducible repeat' (first
      | assumption | apply calm_modLoft | apply calm_collect | apply calm_id | apply calm_foldl | apply calm_foldr | apply calm_ite
      | split | intro _ | dsimp only)

theorem calm_execLoftRead {s₀ : State} {a1 : Nat} {s : State} {t : State} (e : execLoftRead a1 s = .next t) (h2 : Calm s₀ s) : Calm s₀ t := by
  unfold execLoftRead at e
  try dsimp only at e
  first
  | refine calm_act e (by assumption) ?_
  | (injection e with e; subst e)
  | (revert e; repeat' (split); all_goals (intro e; injection e with e; subst e))
  all_goals with_reducible repeat' (first
      | assumption | apply calm_endLate | apply calm_loftAnswer | apply calm_modLoft | apply calm_id | apply calm_foldl
      | apply calm_foldr | apply calm_ite | split | intro _ | dsimp only)

theorem calm_execLoftReadDone {s₀ : State} {a1 : Nat} {a2 : Fin 4} {s : State} {t : State} (e : execLoftReadDone a1 a2 s = .next t) (h3 : Calm s₀ s) : Calm s₀ t := by
  unfold execLoftReadDone at e
  try dsimp only at e
  first
  | refine calm_act e (by assumption) ?_
  | (injection e with e; subst e)
  | (revert e; repeat' (split); all_goals (intro e; injection e with e; subst e))
  all_goals with_reducible repeat' (first
      | assumption | apply calm_loftRebuilt | apply calm_channelAnswers | apply calm_loftGot | apply calm_channelBlock
      | apply calm_loftCount | apply calm_id | apply calm_foldl | apply calm_foldr | apply calm_ite | split | intro _ | dsimp only)

theorem calm_execLowerTierLate {s₀ : State} {a1 : Nat} {s : State} {t : State} (e : execLowerTierLate a1 s = .next t) (h2 : Calm s₀ s) : Calm s₀ t := by
  unfold execLowerTierLate at e
  try dsimp only at e
  first
  | refine calm_act e (by assumption) ?_
  | (injection e with e; subst e)
  | (revert e; repeat' (split); all_goals (intro e; injection e with e; subst e))
  all_goals with_reducible repeat' (first
      | assumption | apply calm_endLate | apply calm_id | apply calm_foldl | apply calm_foldr | apply calm_ite | split | intro _
      | dsimp only)

theorem calm_execLoftStatusTimeout {s₀ : State} {a1 : Fin 18} {s : State} {t : State} (e : execLoftStatusTimeout a1 s = .next t) (h2 : Calm s₀ s) : Calm s₀ t := by
  unfold execLoftStatusTimeout at e
  try dsimp only at e
  first
  | refine calm_act e (by assumption) ?_
  | (injection e with e; subst e)
  | (revert e; repeat' (split); all_goals (intro e; injection e with e; subst e))
  all_goals with_reducible repeat' (first
      | assumption | apply calm_channelDead | apply calm_modLoft | apply calm_id | apply calm_foldl | apply calm_foldr
      | apply calm_ite | split | intro _ | dsimp only)

theorem calm_execLoftRebuildStripe {s₀ : State} {s : State} {t : State} (e : execLoftRebuildStripe s = .next t) (h1 : Calm s₀ s) : Calm s₀ t := by
  unfold execLoftRebuildStripe at e
  try dsimp only at e
  first
  | refine calm_act e (by assumption) ?_
  | (injection e with e; subst e)
  | (revert e; repeat' (split); all_goals (intro e; injection e with e; subst e))
  all_goals with_reducible repeat' (first
      | assumption | apply calm_modLoft | apply calm_channelBlock | apply calm_showRebuild | apply calm_report | apply calm_cause
      | apply calm_setRegF | apply calm_id | apply calm_foldl | apply calm_foldr | apply calm_ite | split | intro _ | dsimp only)

theorem calm_execLoftTrim {s₀ : State} {s : State} {t : State} (e : execLoftTrim s = .next t) (h1 : Calm s₀ s) : Calm s₀ t := by
  unfold execLoftTrim at e
  try dsimp only at e
  first
  | refine calm_act e (by assumption) ?_
  | (injection e with e; subst e)
  | (revert e; repeat' (split); all_goals (intro e; injection e with e; subst e))
  all_goals with_reducible repeat' (first
      | assumption | apply calm_setRegF | apply calm_modLoft | apply calm_id | apply calm_foldl | apply calm_foldr | apply calm_ite
      | split | intro _ | dsimp only)

theorem calm_execLoftReady {s₀ : State} {s : State} {t : State} (e : execLoftReady s = .next t) (h1 : Calm s₀ s) : Calm s₀ t := by
  unfold execLoftReady at e
  try dsimp only at e
  first
  | refine calm_act e (by assumption) ?_
  | (injection e with e; subst e)
  | (revert e; repeat' (split); all_goals (intro e; injection e with e; subst e))
  all_goals with_reducible repeat' (first
      | assumption | apply calm_setRegF | apply calm_id | apply calm_foldl | apply calm_foldr | apply calm_ite | split | intro _
      | dsimp only)

theorem calm_execMirrorPartnerUnreachable {s₀ : State} {a1 : Fin 2048} {s : State} {t : State} (e : execMirrorPartnerUnreachable a1 s = .next t) (h2 : Calm s₀ s) : Calm s₀ t := by
  unfold execMirrorPartnerUnreachable at e
  try dsimp only at e
  first
  | refine calm_act e (by assumption) ?_
  | (injection e with e; subst e)
  | (revert e; repeat' (split); all_goals (intro e; injection e with e; subst e))
  all_goals with_reducible repeat' (first
      | assumption | apply calm_mirrorUnreachable | apply calm_id | apply calm_foldl | apply calm_foldr | apply calm_ite | split
      | intro _ | dsimp only)

theorem calm_execMirrorPartnerReachable {s₀ : State} {a1 : Fin 2048} {s : State} {t : State} (e : execMirrorPartnerReachable a1 s = .next t) (h2 : Calm s₀ s) : Calm s₀ t := by
  unfold execMirrorPartnerReachable at e
  try dsimp only at e
  first
  | refine calm_act e (by assumption) ?_
  | (injection e with e; subst e)
  | (revert e; repeat' (split); all_goals (intro e; injection e with e; subst e))
  all_goals with_reducible repeat' (first
      | assumption | apply calm_mirrorRelease | apply calm_mirrorResend | apply calm_mirrorTo | apply calm_id | apply calm_foldl
      | apply calm_foldr | apply calm_ite | split | intro _ | dsimp only)

theorem calm_execMirrorPromoted {s₀ : State} {a1 : Fin 2048} {s : State} {t : State} (e : execMirrorPromoted a1 s = .next t) (h2 : Calm s₀ s) : Calm s₀ t := by
  unfold execMirrorPromoted at e
  try dsimp only at e
  first
  | refine calm_act e (by assumption) ?_
  | (injection e with e; subst e)
  | (revert e; repeat' (split); all_goals (intro e; injection e with e; subst e))
  all_goals with_reducible repeat' (first
      | assumption | apply calm_fence | apply calm_id | apply calm_foldl | apply calm_foldr | apply calm_ite | split | intro _
      | dsimp only)

theorem calm_execMirrorCopySegment {s₀ : State} {a1 : Fin 2048} {s : State} {t : State} (e : execMirrorCopySegment a1 s = .next t) (h2 : Calm s₀ s) : Calm s₀ t := by
  unfold execMirrorCopySegment at e
  try dsimp only at e
  first
  | refine calm_act e (by assumption) ?_
  | (injection e with e; subst e)
  | (revert e; repeat' (split); all_goals (intro e; injection e with e; subst e))
  all_goals with_reducible repeat' (first
      | assumption | apply calm_whenReadable | apply calm_modMirror | apply calm_copyLine | apply calm_id | apply calm_foldl
      | apply calm_foldr | apply calm_ite | split | intro _ | dsimp only)

theorem calm_execMirrorCopyDone {s₀ : State} {a1 : Fin 2048} {s : State} {t : State} (e : execMirrorCopyDone a1 s = .next t) (h2 : Calm s₀ s) : Calm s₀ t := by
  unfold execMirrorCopyDone at e
  try dsimp only at e
  first
  | refine calm_act e (by assumption) ?_
  | (injection e with e; subst e)
  | (revert e; repeat' (split); all_goals (intro e; injection e with e; subst e))
  all_goals with_reducible repeat' (first
      | assumption | apply calm_mirrorTo | apply calm_id | apply calm_foldl | apply calm_foldr | apply calm_ite | split | intro _
      | dsimp only)

theorem calm_execQueueTimeTranslate {s₀ : State} {a1 : Fin 32} {a2 : Fin 64} {a3 : Word} {a4 : Option (Fin 36864)} {s : State} {t : State} (e : execQueueTimeTranslate a1 a2 a3 s a4 = .next t) (h5 : Calm s₀ s) : Calm s₀ t := by
  unfold execQueueTimeTranslate at e
  try dsimp only at e
  first
  | refine calm_act e (by assumption) ?_
  | (injection e with e; subst e)
  | (revert e; repeat' (split); all_goals (intro e; injection e with e; subst e))
  all_goals with_reducible repeat' (first
      | assumption | apply calm_translateCmd | apply calm_dropParity | apply calm_id | apply calm_foldl | apply calm_foldr
      | apply calm_ite | split | intro _ | dsimp only)

theorem calm_execXltInvalidateDone {s₀ : State} {a1 : Fin 32} {s : State} {t : State} (e : execXltInvalidateDone a1 s = .next t) (h2 : Calm s₀ s) : Calm s₀ t := by
  unfold execXltInvalidateDone at e
  try dsimp only at e
  first
  | refine calm_act e (by assumption) ?_
  | (injection e with e; subst e)
  | (revert e; repeat' (split); all_goals (intro e; injection e with e; subst e))
  all_goals with_reducible repeat' (first
      | assumption | apply calm_setRegF | apply calm_modPart | apply calm_pcause | apply calm_id | apply calm_foldl
      | apply calm_foldr | apply calm_ite | split | intro _ | dsimp only)

theorem calm_execReleaseFence {s₀ : State} {a1 : Fin 32} {a2 : Fin 64} {a3 : Word} {s : State} {t : State} (e : execReleaseFence a1 a2 a3 s = .next t) (h4 : Calm s₀ s) : Calm s₀ t := by
  unfold execReleaseFence at e
  try dsimp only at e
  first
  | refine calm_act e (by assumption) ?_
  | (injection e with e; subst e)
  | (revert e; repeat' (split); all_goals (intro e; injection e with e; subst e))
  all_goals with_reducible repeat' (first
      | assumption | apply calm_syncStep | apply calm_endCmd | apply calm_afterScope | apply calm_storeAll | apply calm_markSent
      | apply calm_id | apply calm_foldl | apply calm_foldr | apply calm_ite | split | intro _ | dsimp only)

theorem calm_execMemRd {s₀ : State} {a1 : Fin 34} {a2 : Nat} {a3 : BitVec 64} {a4 : Fin 3} {a5 : Bool} {a6 : Option (BitVec 16)} {s : State} {t : State} (e : execMemRd a1 a2 a3 a4 a5 a6 s = .next t) (h7 : Calm s₀ s) : Calm s₀ t := by
  unfold execMemRd at e
  try dsimp only at e
  first
  | refine calm_act e (by assumption) ?_
  | (injection e with e; subst e)
  | (revert e; repeat' (split); all_goals (intro e; injection e with e; subst e))
  all_goals with_reducible repeat' (first
      | assumption | apply calm_readUe | apply calm_hostRead | apply calm_id | apply calm_foldl | apply calm_foldr | apply calm_ite
      | split | intro _ | dsimp only)

theorem calm_execMemRdData {s₀ : State} {a1 : Fin 34} {a2 : Nat} {a3 : BitVec 64} {a4 : Bool} {s : State} {t : State} (e : execMemRdData a1 a2 a3 a4 s = .next t) (h5 : Calm s₀ s) : Calm s₀ t := by
  unfold execMemRdData at e
  try dsimp only at e
  first
  | refine calm_act e (by assumption) ?_
  | (injection e with e; subst e)
  | (revert e; repeat' (split); all_goals (intro e; injection e with e; subst e))
  all_goals with_reducible repeat' (first
      | assumption | apply calm_hostRead | apply calm_id | apply calm_foldl | apply calm_foldr | apply calm_ite | split | intro _
      | dsimp only)

theorem calm_execMemInv {s₀ : State} {a1 : Fin 34} {a2 : Nat} {a3 : BitVec 64} {a4 : Fin 3} {a5 : Bool} {s : State} {t : State} (e : execMemInv a1 a2 a3 a4 a5 s = .next t) (h6 : Calm s₀ s) : Calm s₀ t := by
  unfold execMemInv at e
  try dsimp only at e
  first
  | refine calm_act e (by assumption) ?_
  | (injection e with e; subst e)
  | (revert e; repeat' (split); all_goals (intro e; injection e with e; subst e))
  all_goals with_reducible repeat' (first
      | assumption | apply calm_hostClean | apply calm_emit | apply calm_badFields | apply calm_hostRead | apply calm_id
      | apply calm_foldl | apply calm_foldr | apply calm_ite | split | intro _ | dsimp only)

theorem calm_execMemClnEvct {s₀ : State} {a1 : Fin 34} {a2 : Nat} {a3 : BitVec 64} {a4 : Bool} {s : State} {t : State} (e : execMemClnEvct a1 a2 a3 a4 s = .next t) (h5 : Calm s₀ s) : Calm s₀ t := by
  unfold execMemClnEvct at e
  try dsimp only at e
  first
  | refine calm_act e (by assumption) ?_
  | (injection e with e; subst e)
  | (revert e; repeat' (split); all_goals (intro e; injection e with e; subst e))
  all_goals with_reducible repeat' (first
      | assumption | apply calm_hostClean | apply calm_id | apply calm_foldl | apply calm_foldr | apply calm_ite | split | intro _
      | dsimp only)

theorem calm_execMemWr {s₀ : State} {a1 : Fin 34} {a2 : Nat} {a3 : BitVec 64} {a4 : Fin 3} {a5 : BitVec 64} {a6 : Line} {a7 : Bool} {a8 : Bool} {s : State} {t : State} (e : execMemWr a1 a2 a3 a4 a5 a6 a7 a8 s = .next t) (h9 : Calm s₀ s) : Calm s₀ t := by
  unfold execMemWr at e
  try dsimp only at e
  first
  | refine calm_act e (by assumption) ?_
  | (injection e with e; subst e)
  | (revert e; repeat' (split); all_goals (intro e; injection e with e; subst e))
  all_goals with_reducible repeat' (first
      | assumption | apply calm_cxlRequest | apply calm_emit | apply calm_portViolation | apply calm_badFields | apply calm_request
      | apply calm_id | apply calm_foldl | apply calm_foldr | apply calm_ite | split | intro _ | dsimp only)

theorem calm_execMemSpecRd {s₀ : State} {a1 : Fin 34} {a2 : BitVec 64} {s : State} {t : State} (e : execMemSpecRd a1 a2 s = .next t) (h3 : Calm s₀ s) : Calm s₀ t := by
  unfold execMemSpecRd at e
  try dsimp only at e
  first
  | refine calm_act e (by assumption) ?_
  | (injection e with e; subst e)
  | (revert e; repeat' (split); all_goals (intro e; injection e with e; subst e))
  all_goals with_reducible repeat' (first
      | assumption | apply calm_id | apply calm_foldl | apply calm_foldr | apply calm_ite | split | intro _ | dsimp only)

theorem calm_execMemRdFwd {s₀ : State} {a1 : Fin 34} {a2 : Nat} {a3 : BitVec 64} {s : State} {t : State} (e : execMemRdFwd a1 a2 a3 s = .next t) (h4 : Calm s₀ s) : Calm s₀ t := by
  unfold execMemRdFwd at e
  try dsimp only at e
  first
  | refine calm_act e (by assumption) ?_
  | (injection e with e; subst e)
  | (revert e; repeat' (split); all_goals (intro e; injection e with e; subst e))
  all_goals with_reducible repeat' (first
      | assumption | apply calm_emit | apply calm_badFields | apply calm_id | apply calm_foldl | apply calm_foldr | apply calm_ite
      | split | intro _ | dsimp only)

theorem calm_execMemWrFwd {s₀ : State} {a1 : Fin 34} {a2 : Nat} {a3 : BitVec 64} {s : State} {t : State} (e : execMemWrFwd a1 a2 a3 s = .next t) (h4 : Calm s₀ s) : Calm s₀ t := by
  unfold execMemWrFwd at e
  try dsimp only at e
  first
  | refine calm_act e (by assumption) ?_
  | (injection e with e; subst e)
  | (revert e; repeat' (split); all_goals (intro e; injection e with e; subst e))
  all_goals with_reducible repeat' (first
      | assumption | apply calm_emit | apply calm_badFields | apply calm_id | apply calm_foldl | apply calm_foldr | apply calm_ite
      | split | intro _ | dsimp only)

theorem calm_execBiRsp {s₀ : State} {a1 : Fin 34} {a2 : BitVec 34} {a3 : Fin 3} {s : State} {t : State} (e : execBiRsp a1 a2 a3 s = .next t) (h4 : Calm s₀ s) : Calm s₀ t := by
  unfold execBiRsp at e
  try dsimp only at e
  first
  | refine calm_act e (by assumption) ?_
  | (injection e with e; subst e)
  | (revert e; repeat' (split); all_goals (intro e; injection e with e; subst e))
  all_goals with_reducible repeat' (first
      | assumption | apply calm_biResponse | apply calm_id | apply calm_foldl | apply calm_foldr | apply calm_ite | split | intro _
      | dsimp only)

theorem calm_execBiConflict {s₀ : State} {a1 : Fin 34} {a2 : BitVec 34} {s : State} {t : State} (e : execBiConflict a1 a2 s = .next t) (h3 : Calm s₀ s) : Calm s₀ t := by
  unfold execBiConflict at e
  try dsimp only at e
  first
  | refine calm_act e (by assumption) ?_
  | (injection e with e; subst e)
  | (revert e; repeat' (split); all_goals (intro e; injection e with e; subst e))
  all_goals with_reducible repeat' (first
      | assumption | apply calm_emit | apply calm_id | apply calm_foldl | apply calm_foldr | apply calm_ite | split | intro _
      | dsimp only)

theorem calm_execBiTimeout {s₀ : State} {a1 : BitVec 34} {s : State} {t : State} (e : execBiTimeout a1 s = .next t) (h2 : Calm s₀ s) : Calm s₀ t := by
  unfold execBiTimeout at e
  try dsimp only at e
  first
  | refine calm_act e (by assumption) ?_
  | (injection e with e; subst e)
  | (revert e; repeat' (split); all_goals (intro e; injection e with e; subst e))
  all_goals with_reducible repeat' (first
      | assumption | apply calm_setEntry | apply calm_report | apply calm_cause | apply calm_id | apply calm_foldl
      | apply calm_foldr | apply calm_ite | split | intro _ | dsimp only)

theorem calm_execConflictQueueAccept {s₀ : State} {a1 : BitVec 34} {s : State} {t : State} (e : execConflictQueueAccept a1 s = .next t) (h2 : Calm s₀ s) : Calm s₀ t := by
  unfold execConflictQueueAccept at e
  try dsimp only at e
  first
  | refine calm_act e (by assumption) ?_
  | (injection e with e; subst e)
  | (revert e; repeat' (split); all_goals (intro e; injection e with e; subst e))
  all_goals with_reducible repeat' (first
      | assumption | apply calm_acceptQueued | apply calm_id | apply calm_foldl | apply calm_foldr | apply calm_ite | split
      | intro _ | dsimp only)

theorem calm_whenType {s₀ : State} {a1 : Packet} {a2 : Nat} {a3 : State → State} {s : State} (h3 : ∀ y0, Calm s₀ y0 → Calm s₀ (a3 y0)) (h4 : Calm s₀ s) : Calm s₀ (whenType a1 a2 a3 s) := by
  unfold whenType
  with_reducible repeat' (first
      | assumption | apply calm_id | apply calm_foldl | apply calm_foldr | apply calm_ite | apply h3 | split | intro _ | dsimp only)

theorem calm_execRd {s₀ : State} {a1 : Packet} {a2 : Option (BitVec 16)} {a3 : Fin 3} {s : State} {t : State} (e : execRd a1 a2 a3 s = .next t) (h4 : Calm s₀ s) : Calm s₀ t := by
  unfold execRd at e
  try dsimp only at e
  first
  | refine calm_act e (by assumption) ?_
  | (injection e with e; subst e)
  | (revert e; repeat' (split); all_goals (intro e; injection e with e; subst e))
  all_goals with_reducible repeat' (first
      | assumption | apply calm_whenType | apply calm_dirError | apply calm_handleRequest | apply calm_readUe | apply calm_id
      | apply calm_foldl | apply calm_foldr | apply calm_ite | split | intro _ | dsimp only)

theorem calm_execWr {s₀ : State} {a1 : Packet} {s : State} {t : State} (e : execWr a1 s = .next t) (h2 : Calm s₀ s) : Calm s₀ t := by
  unfold execWr at e
  try dsimp only at e
  first
  | refine calm_act e (by assumption) ?_
  | (injection e with e; subst e)
  | (revert e; repeat' (split); all_goals (intro e; injection e with e; subst e))
  all_goals with_reducible repeat' (first
      | assumption | apply calm_whenType | apply calm_handleRequest | apply calm_id | apply calm_foldl | apply calm_foldr
      | apply calm_ite | split | intro _ | dsimp only)

theorem calm_execWrp {s₀ : State} {a1 : Packet} {s : State} {t : State} (e : execWrp a1 s = .next t) (h2 : Calm s₀ s) : Calm s₀ t := by
  unfold execWrp at e
  try dsimp only at e
  first
  | refine calm_act e (by assumption) ?_
  | (injection e with e; subst e)
  | (revert e; repeat' (split); all_goals (intro e; injection e with e; subst e))
  all_goals with_reducible repeat' (first
      | assumption | apply calm_whenType | apply calm_handleRequest | apply calm_id | apply calm_foldl | apply calm_foldr
      | apply calm_ite | split | intro _ | dsimp only)

theorem calm_execAtom {s₀ : State} {a1 : Packet} {s : State} {t : State} (e : execAtom a1 s = .next t) (h2 : Calm s₀ s) : Calm s₀ t := by
  unfold execAtom at e
  try dsimp only at e
  first
  | refine calm_act e (by assumption) ?_
  | (injection e with e; subst e)
  | (revert e; repeat' (split); all_goals (intro e; injection e with e; subst e))
  all_goals with_reducible repeat' (first
      | assumption | apply calm_whenType | apply calm_handleRequest | apply calm_id | apply calm_foldl | apply calm_foldr
      | apply calm_ite | split | intro _ | dsimp only)

theorem calm_execCombinedPacket {s₀ : State} {a1 : Packet} {s : State} {t : State} (e : execCombinedPacket a1 s = .next t) (h2 : Calm s₀ s) : Calm s₀ t := by
  unfold execCombinedPacket at e
  try dsimp only at e
  first
  | refine calm_act e (by assumption) ?_
  | (injection e with e; subst e)
  | (revert e; repeat' (split); all_goals (intro e; injection e with e; subst e))
  all_goals with_reducible repeat' (first
      | assumption | apply calm_handleCombined | apply calm_id | apply calm_foldl | apply calm_foldr | apply calm_ite | split
      | intro _ | dsimp only)

theorem calm_execMwr {s₀ : State} {a1 : Packet} {s : State} {t : State} (e : execMwr a1 s = .next t) (h2 : Calm s₀ s) : Calm s₀ t := by
  unfold execMwr at e
  try dsimp only at e
  first
  | refine calm_act e (by assumption) ?_
  | (injection e with e; subst e)
  | (revert e; repeat' (split); all_goals (intro e; injection e with e; subst e))
  all_goals with_reducible repeat' (first
      | assumption | apply calm_whenType | apply calm_handleMwr | apply calm_id | apply calm_foldl | apply calm_foldr
      | apply calm_ite | split | intro _ | dsimp only)

theorem calm_execMack {s₀ : State} {a1 : Packet} {s : State} {t : State} (e : execMack a1 s = .next t) (h2 : Calm s₀ s) : Calm s₀ t := by
  unfold execMack at e
  try dsimp only at e
  first
  | refine calm_act e (by assumption) ?_
  | (injection e with e; subst e)
  | (revert e; repeat' (split); all_goals (intro e; injection e with e; subst e))
  all_goals with_reducible repeat' (first
      | assumption | apply calm_whenType | apply calm_settleStalled | apply calm_handleMack | apply calm_id | apply calm_foldl
      | apply calm_foldr | apply calm_ite | split | intro _ | dsimp only)

theorem calm_execRdata {s₀ : State} {a1 : Packet} {a2 : Fin 3} {s : State} {t : State} (e : execRdata a1 s a2 = .next t) (h3 : Calm s₀ s) : Calm s₀ t := by
  unfold execRdata at e
  try dsimp only at e
  first
  | refine calm_act e (by assumption) ?_
  | (injection e with e; subst e)
  | (revert e; repeat' (split); all_goals (intro e; injection e with e; subst e))
  all_goals with_reducible repeat' (first
      | assumption | apply calm_whenType | apply calm_settleStalled | apply calm_handleRdata | apply calm_id | apply calm_foldl
      | apply calm_foldr | apply calm_ite | split | intro _ | dsimp only)

theorem calm_execWack {s₀ : State} {a1 : Packet} {s : State} {t : State} (e : execWack a1 s = .next t) (h2 : Calm s₀ s) : Calm s₀ t := by
  unfold execWack at e
  try dsimp only at e
  first
  | refine calm_act e (by assumption) ?_
  | (injection e with e; subst e)
  | (revert e; repeat' (split); all_goals (intro e; injection e with e; subst e))
  all_goals with_reducible repeat' (first
      | assumption | apply calm_whenType | apply calm_settleStalled | apply calm_handleWack | apply calm_id | apply calm_foldl
      | apply calm_foldr | apply calm_ite | split | intro _ | dsimp only)

theorem calm_execNak {s₀ : State} {a1 : Packet} {s : State} {t : State} (e : execNak a1 s = .next t) (h2 : Calm s₀ s) : Calm s₀ t := by
  unfold execNak at e
  try dsimp only at e
  first
  | refine calm_act e (by assumption) ?_
  | (injection e with e; subst e)
  | (revert e; repeat' (split); all_goals (intro e; injection e with e; subst e))
  all_goals with_reducible repeat' (first
      | assumption | apply calm_whenType | apply calm_settleStalled | apply calm_handleNak | apply calm_id | apply calm_foldl
      | apply calm_foldr | apply calm_ite | split | intro _ | dsimp only)

theorem calm_execPinv {s₀ : State} {a1 : Packet} {s : State} {t : State} (e : execPinv a1 s = .next t) (h2 : Calm s₀ s) : Calm s₀ t := by
  unfold execPinv at e
  try dsimp only at e
  first
  | refine calm_act e (by assumption) ?_
  | (injection e with e; subst e)
  | (revert e; repeat' (split); all_goals (intro e; injection e with e; subst e))
  all_goals with_reducible repeat' (first
      | assumption | apply calm_whenType | apply calm_handlePinv | apply calm_id | apply calm_foldl | apply calm_foldr
      | apply calm_ite | split | intro _ | dsimp only)

theorem calm_execPinvack {s₀ : State} {a1 : Packet} {s : State} {t : State} (e : execPinvack a1 s = .next t) (h2 : Calm s₀ s) : Calm s₀ t := by
  unfold execPinvack at e
  try dsimp only at e
  first
  | refine calm_act e (by assumption) ?_
  | (injection e with e; subst e)
  | (revert e; repeat' (split); all_goals (intro e; injection e with e; subst e))
  all_goals with_reducible repeat' (first
      | assumption | apply calm_whenType | apply calm_settleStalled | apply calm_handlePinvack | apply calm_id | apply calm_foldl
      | apply calm_foldr | apply calm_ite | split | intro _ | dsimp only)

theorem calm_execUnknownTypeDiscard {s₀ : State} {a1 : Packet} {s : State} {t : State} (e : execUnknownTypeDiscard a1 s = .next t) (h2 : Calm s₀ s) : Calm s₀ t := by
  unfold execUnknownTypeDiscard at e
  try dsimp only at e
  first
  | refine calm_act e (by assumption) ?_
  | (injection e with e; subst e)
  | (revert e; repeat' (split); all_goals (intro e; injection e with e; subst e))
  all_goals with_reducible repeat' (first
      | assumption | apply calm_receive | apply calm_protoErr | apply calm_id | apply calm_foldl | apply calm_foldr
      | apply calm_ite | split | intro _ | dsimp only)

theorem calm_execHostLost {s₀ : State} {a1 : Fin 2} {s : State} {t : State} (e : execHostLost a1 s = .next t) (h2 : Calm s₀ s) : Calm s₀ t := by
  unfold execHostLost at e
  try dsimp only at e
  first
  | refine calm_act e (by assumption) ?_
  | (injection e with e; subst e)
  | (revert e; repeat' (split); all_goals (intro e; injection e with e; subst e))
  all_goals with_reducible repeat' (first
      | assumption | apply calm_dropPending | apply calm_hostsLost | apply calm_id | apply calm_foldl | apply calm_foldr
      | apply calm_ite | split | intro _ | dsimp only)

theorem calm_execHostLostScanDone {s₀ : State} {s : State} {t : State} (e : execHostLostScanDone s = .next t) (h1 : Calm s₀ s) : Calm s₀ t := by
  unfold execHostLostScanDone at e
  try dsimp only at e
  first
  | refine calm_act e (by assumption) ?_
  | (injection e with e; subst e)
  | (revert e; repeat' (split); all_goals (intro e; injection e with e; subst e))
  all_goals with_reducible repeat' (first
      | assumption | apply calm_modHomes | apply calm_cause | apply calm_report | apply calm_id | apply calm_foldl
      | apply calm_foldr | apply calm_ite | split | intro _ | dsimp only)

theorem calm_execExtentReleasePoint {s₀ : State} {a1 : Nat} {s : State} {t : State} (e : execExtentReleasePoint a1 s = .next t) (h2 : Calm s₀ s) : Calm s₀ t := by
  unfold execExtentReleasePoint at e
  try dsimp only at e
  first
  | refine calm_act e (by assumption) ?_
  | (injection e with e; subst e)
  | (revert e; repeat' (split); all_goals (intro e; injection e with e; subst e))
  all_goals with_reducible repeat' (first
      | assumption | apply calm_releasePoint | apply calm_id | apply calm_foldl | apply calm_foldr | apply calm_ite | split
      | intro _ | dsimp only)

theorem calm_execExtentReleaseComplete {s₀ : State} {a1 : Nat} {s : State} {t : State} (e : execExtentReleaseComplete a1 s = .next t) (h2 : Calm s₀ s) : Calm s₀ t := by
  unfold execExtentReleaseComplete at e
  try dsimp only at e
  first
  | refine calm_act e (by assumption) ?_
  | (injection e with e; subst e)
  | (revert e; repeat' (split); all_goals (intro e; injection e with e; subst e))
  all_goals with_reducible repeat' (first
      | assumption | apply calm_releaseEntries | apply calm_cause | apply calm_t1Zero | apply calm_id | apply calm_foldl
      | apply calm_foldr | apply calm_ite | split | intro _ | dsimp only | refine calm_mk ?_ rfl rfl)

theorem calm_execFabricRequestSend {s₀ : State} {a1 : FabReq} {s : State} {t : State} (e : execFabricRequestSend a1 s = .next t) (h2 : Calm s₀ s) : Calm s₀ t := by
  unfold execFabricRequestSend at e
  try dsimp only at e
  first
  | refine calm_act e (by assumption) ?_
  | (injection e with e; subst e)
  | (revert e; repeat' (split); all_goals (intro e; injection e with e; subst e))
  all_goals with_reducible repeat' (first
      | assumption | apply calm_unitSend | apply calm_id | apply calm_foldl | apply calm_foldr | apply calm_ite | split | intro _
      | dsimp only)

theorem calm_execFlitReceive {s₀ : State} {a1 : Fin 12} {a2 : BitVec 2048} {a3 : Option (Fin 64)} {s : State} {t : State} (e : execFlitReceive a1 a2 s a3 = .next t) (h4 : Calm s₀ s) : Calm s₀ t := by
  unfold execFlitReceive at e
  try dsimp only at e
  first
  | refine calm_act e (by assumption) ?_
  | (injection e with e; subst e)
  | (revert e; repeat' (split); all_goals (intro e; injection e with e; subst e))
  all_goals with_reducible repeat' (first
      | assumption | apply calm_discard | apply calm_count64 | apply calm_nakFlit | apply calm_cause | apply calm_count
      | apply calm_takeAck | apply calm_takeCredit | apply calm_replayAll | apply calm_acceptFlit | apply calm_id
      | apply calm_foldl | apply calm_foldr | apply calm_ite | split | intro _ | dsimp only)

theorem calm_execAckTimeout {s₀ : State} {a1 : Fin 12} {s : State} {t : State} (e : execAckTimeout a1 s = .next t) (h2 : Calm s₀ s) : Calm s₀ t := by
  unfold execAckTimeout at e
  try dsimp only at e
  first
  | refine calm_act e (by assumption) ?_
  | (injection e with e; subst e)
  | (revert e; repeat' (split); all_goals (intro e; injection e with e; subst e))
  all_goals with_reducible repeat' (first
      | assumption | apply calm_replayAll | apply calm_id | apply calm_foldl | apply calm_foldr | apply calm_ite | split | intro _
      | dsimp only)

theorem calm_execPortTransmit {s₀ : State} {a1 : Fin 12} {a2 : Fin 3} {s : State} {t : State} (e : execPortTransmit a1 s a2 = .next t) (h3 : Calm s₀ s) : Calm s₀ t := by
  unfold execPortTransmit at e
  try dsimp only at e
  first
  | refine calm_act e (by assumption) ?_
  | (injection e with e; subst e)
  | (revert e; repeat' (split); all_goals (intro e; injection e with e; subst e))
  all_goals with_reducible repeat' (first
      | assumption | apply calm_corrected | apply calm_bufferError | apply calm_takeEntry | apply calm_emitFlit
      | apply calm_sendTag | refine calm_fillFlit (by assumption) ?_ | apply calm_fillFlit' | apply calm_sendData
      | apply calm_count | apply calm_id | apply calm_foldl | apply calm_foldr | apply calm_ite | split | intro _ | dsimp only)

theorem calm_execCombineHoldExpire {s₀ : State} {a1 : Fin 12} {a2 : Fin 8} {a3 : Fin 2} {s : State} {t : State} (e : execCombineHoldExpire a1 a2 a3 s = .next t) (h4 : Calm s₀ s) : Calm s₀ t := by
  unfold execCombineHoldExpire at e
  try dsimp only at e
  first
  | refine calm_act e (by assumption) ?_
  | (injection e with e; subst e)
  | (revert e; repeat' (split); all_goals (intro e; injection e with e; subst e))
  all_goals with_reducible repeat' (first
      | assumption | apply calm_modPort | apply calm_id | apply calm_foldl | apply calm_foldr | apply calm_ite | split | intro _
      | dsimp only)

theorem calm_execSpillReturn {s₀ : State} {a1 : Fin 12} {a2 : Bool} {s : State} {t : State} (e : execSpillReturn a1 s a2 = .next t) (h3 : Calm s₀ s) : Calm s₀ t := by
  unfold execSpillReturn at e
  try dsimp only at e
  first
  | refine calm_act e (by assumption) ?_
  | (injection e with e; subst e)
  | (revert e; repeat' (split); all_goals (intro e; injection e with e; subst e))
  all_goals with_reducible repeat' (first
      | assumption | refine calm_spillRead (by assumption) ?_ | apply calm_spillRead' | apply calm_bufferError
      | apply calm_leaveStaging | apply calm_takeEntry | apply calm_toSpill | apply calm_replaceEntry | apply calm_combineAll
      | apply calm_id | apply calm_foldl | apply calm_foldr | apply calm_ite | split | intro _ | dsimp only)

theorem calm_execPacketAged {s₀ : State} {a1 : Fin 12} {a2 : Nat} {s : State} {t : State} (e : execPacketAged a1 a2 s = .next t) (h3 : Calm s₀ s) : Calm s₀ t := by
  unfold execPacketAged at e
  try dsimp only at e
  first
  | refine calm_act e (by assumption) ?_
  | (injection e with e; subst e)
  | (revert e; repeat' (split); all_goals (intro e; injection e with e; subst e))
  all_goals with_reducible repeat' (first
      | assumption | apply calm_cause | apply calm_count | apply calm_leaveStaging | apply calm_takeEntry | apply calm_id
      | apply calm_foldl | apply calm_foldr | apply calm_ite | split | intro _ | dsimp only)

theorem calm_execRequestTimeout {s₀ : State} {a1 : Fin 4096} {a2 : Fin 8} {a3 : Word} {s : State} {t : State} (e : execRequestTimeout a1 a2 a3 s = .next t) (h4 : Calm s₀ s) : Calm s₀ t := by
  unfold execRequestTimeout at e
  try dsimp only at e
  first
  | refine calm_act e (by assumption) ?_
  | (injection e with e; subst e)
  | (revert e; repeat' (split); all_goals (intro e; injection e with e; subst e))
  all_goals with_reducible repeat' (first
      | assumption | apply calm_settleStalled | apply calm_attemptFailed | apply calm_id | apply calm_foldl | apply calm_foldr
      | apply calm_ite | split | intro _ | dsimp only)

theorem calm_execPathLost {s₀ : State} {a1 : Packet} {s : State} {t : State} (e : execPathLost a1 s = .next t) (h2 : Calm s₀ s) : Calm s₀ t := by
  unfold execPathLost at e
  try dsimp only at e
  first
  | refine calm_act e (by assumption) ?_
  | (injection e with e; subst e)
  | (revert e; repeat' (split); all_goals (intro e; injection e with e; subst e))
  all_goals with_reducible repeat' (first
      | assumption | apply calm_receive | apply calm_settleStalled | apply calm_attemptFailed | apply calm_id | apply calm_foldl
      | apply calm_foldr | apply calm_ite | split | intro _ | dsimp only)

theorem calm_execLinkEnable {s₀ : State} {a1 : Requester} {a2 : Fin 12} {a3 : Word} {s : State} {t : State} (e : execLinkEnable a1 a2 a3 s = .next t) (h4 : Calm s₀ s) : Calm s₀ t := by
  unfold execLinkEnable at e
  try dsimp only at e
  first
  | refine calm_act e (by assumption) ?_
  | (injection e with e; subst e)
  | (revert e; repeat' (split); all_goals (intro e; injection e with e; subst e))
  all_goals with_reducible repeat' (first
      | assumption | apply calm_access | apply calm_writeLinkCtrl | apply calm_id | apply calm_foldl | apply calm_foldr
      | apply calm_ite | split | intro _ | dsimp only)

theorem calm_execLinkDisable {s₀ : State} {a1 : Requester} {a2 : Fin 12} {a3 : Word} {s : State} {t : State} (e : execLinkDisable a1 a2 a3 s = .next t) (h4 : Calm s₀ s) : Calm s₀ t := by
  unfold execLinkDisable at e
  try dsimp only at e
  first
  | refine calm_act e (by assumption) ?_
  | (injection e with e; subst e)
  | (revert e; repeat' (split); all_goals (intro e; injection e with e; subst e))
  all_goals with_reducible repeat' (first
      | assumption | apply calm_access | apply calm_writeLinkCtrl | apply calm_id | apply calm_foldl | apply calm_foldr
      | apply calm_ite | split | intro _ | dsimp only)

theorem calm_execLinkDrain {s₀ : State} {a1 : Requester} {a2 : Fin 12} {a3 : Word} {s : State} {t : State} (e : execLinkDrain a1 a2 a3 s = .next t) (h4 : Calm s₀ s) : Calm s₀ t := by
  unfold execLinkDrain at e
  try dsimp only at e
  first
  | refine calm_act e (by assumption) ?_
  | (injection e with e; subst e)
  | (revert e; repeat' (split); all_goals (intro e; injection e with e; subst e))
  all_goals with_reducible repeat' (first
      | assumption | apply calm_access | apply calm_writeLinkCtrl | apply calm_id | apply calm_foldl | apply calm_foldr
      | apply calm_ite | split | intro _ | dsimp only)

theorem calm_execTrainingPass {s₀ : State} {a1 : Fin 12} {a2 : Trained} {s : State} {t : State} (e : execTrainingPass a1 a2 s = .next t) (h3 : Calm s₀ s) : Calm s₀ t := by
  unfold execTrainingPass at e
  try dsimp only at e
  first
  | refine calm_act e (by assumption) ?_
  | (injection e with e; subst e)
  | (revert e; repeat' (split); all_goals (intro e; injection e with e; subst e))
  all_goals with_reducible repeat' (first
      | assumption | apply calm_trainingPass | apply calm_id | apply calm_foldl | apply calm_foldr | apply calm_ite | split
      | intro _ | dsimp only)

theorem calm_execTrainingFail {s₀ : State} {a1 : Fin 12} {s : State} {t : State} (e : execTrainingFail a1 s = .next t) (h2 : Calm s₀ s) : Calm s₀ t := by
  unfold execTrainingFail at e
  try dsimp only at e
  first
  | refine calm_act e (by assumption) ?_
  | (injection e with e; subst e)
  | (revert e; repeat' (split); all_goals (intro e; injection e with e; subst e))
  all_goals with_reducible repeat' (first
      | assumption | apply calm_trainingFail | apply calm_id | apply calm_foldl | apply calm_foldr | apply calm_ite | split
      | intro _ | dsimp only)

theorem calm_execLinkQuiet {s₀ : State} {a1 : Fin 12} {s : State} {t : State} (e : execLinkQuiet a1 s = .next t) (h2 : Calm s₀ s) : Calm s₀ t := by
  unfold execLinkQuiet at e
  try dsimp only at e
  first
  | refine calm_act e (by assumption) ?_
  | (injection e with e; subst e)
  | (revert e; repeat' (split); all_goals (intro e; injection e with e; subst e))
  all_goals with_reducible repeat' (first
      | assumption | apply calm_cause | apply calm_setRegF | apply calm_setLink | apply calm_id | apply calm_foldl
      | apply calm_foldr | apply calm_ite | split | intro _ | dsimp only)

theorem calm_execMsgSend {s₀ : State} {a1 : Fin 32} {a2 : Fin 64} {a3 : Word} {s : State} {t : State} (e : execMsgSend a1 a2 a3 s = .next t) (h4 : Calm s₀ s) : Calm s₀ t := by
  unfold execMsgSend at e
  try dsimp only at e
  first
  | refine calm_act e (by assumption) ?_
  | (injection e with e; subst e)
  | (revert e; repeat' (split); all_goals (intro e; injection e with e; subst e))
  all_goals with_reducible repeat' (first
      | assumption | apply calm_endCmd | apply calm_violateMem | apply calm_setAux | apply calm_modFab | apply calm_unitSend
      | apply calm_msgSendData | apply calm_id | apply calm_foldl | apply calm_foldr | apply calm_ite | split | intro _
      | dsimp only)

theorem calm_execMsgOpen {s₀ : State} {a1 : Packet} {s : State} {t : State} (e : execMsgOpen a1 s = .next t) (h2 : Calm s₀ s) : Calm s₀ t := by
  unfold execMsgOpen at e
  try dsimp only at e
  first
  | refine calm_act e (by assumption) ?_
  | (injection e with e; subst e)
  | (revert e; repeat' (split); all_goals (intro e; injection e with e; subst e))
  all_goals with_reducible repeat' (first
      | assumption | apply calm_receive | apply calm_msgReply | apply calm_violateMem | apply calm_count | apply calm_mboxHeader
      | apply calm_modFab | apply calm_id | apply calm_foldl | apply calm_foldr | apply calm_ite | split | intro _ | dsimp only)

theorem calm_execMsgAccept {s₀ : State} {a1 : Packet} {s : State} {t : State} (e : execMsgAccept a1 s = .next t) (h2 : Calm s₀ s) : Calm s₀ t := by
  unfold execMsgAccept at e
  try dsimp only at e
  first
  | refine calm_act e (by assumption) ?_
  | (injection e with e; subst e)
  | (revert e; repeat' (split); all_goals (intro e; injection e with e; subst e))
  all_goals with_reducible repeat' (first
      | assumption | apply calm_msgAnswer | apply calm_msgSendData | apply calm_setAux | apply calm_id | apply calm_foldl
      | apply calm_foldr | apply calm_ite | split | intro _ | dsimp only)

theorem calm_execMsgFull {s₀ : State} {a1 : Packet} {s : State} {t : State} (e : execMsgFull a1 s = .next t) (h2 : Calm s₀ s) : Calm s₀ t := by
  unfold execMsgFull at e
  try dsimp only at e
  first
  | refine calm_act e (by assumption) ?_
  | (injection e with e; subst e)
  | (revert e; repeat' (split); all_goals (intro e; injection e with e; subst e))
  all_goals with_reducible repeat' (first
      | assumption | apply calm_msgAnswer | apply calm_endCmd | apply calm_id | apply calm_foldl | apply calm_foldr
      | apply calm_ite | split | intro _ | dsimp only)

theorem calm_execMsgData {s₀ : State} {a1 : Packet} {s : State} {t : State} (e : execMsgData a1 s = .next t) (h2 : Calm s₀ s) : Calm s₀ t := by
  unfold execMsgData at e
  try dsimp only at e
  first
  | refine calm_act e (by assumption) ?_
  | (injection e with e; subst e)
  | (revert e; repeat' (split); all_goals (intro e; injection e with e; subst e))
  all_goals with_reducible repeat' (first
      | assumption | apply calm_receive | apply calm_postBytes | apply calm_modFab | apply calm_id | apply calm_foldl
      | apply calm_foldr | apply calm_ite | split | intro _ | dsimp only)

theorem calm_execMailboxDeliver {s₀ : State} {a1 : Fin 1024} {a2 : Fin 4096} {a3 : Word} {s : State} {t : State} (e : execMailboxDeliver a1 a2 a3 s = .next t) (h4 : Calm s₀ s) : Calm s₀ t := by
  unfold execMailboxDeliver at e
  try dsimp only at e
  first
  | refine calm_act e (by assumption) ?_
  | (injection e with e; subst e)
  | (revert e; repeat' (split); all_goals (intro e; injection e with e; subst e))
  all_goals with_reducible repeat' (first
      | assumption | apply calm_want | apply calm_mboxAdvance | apply calm_mboxHeader | refine calm_semAdd (by assumption) ?_
      | apply calm_semAdd' | apply calm_msgReply | apply calm_count | apply calm_id | apply calm_foldl | apply calm_foldr
      | apply calm_ite | split | intro _ | dsimp only)

theorem calm_execMsgDone {s₀ : State} {a1 : Packet} {s : State} {t : State} (e : execMsgDone a1 s = .next t) (h2 : Calm s₀ s) : Calm s₀ t := by
  unfold execMsgDone at e
  try dsimp only at e
  first
  | refine calm_act e (by assumption) ?_
  | (injection e with e; subst e)
  | (revert e; repeat' (split); all_goals (intro e; injection e with e; subst e))
  all_goals with_reducible repeat' (first
      | assumption | apply calm_msgAnswer | apply calm_endCmd | apply calm_id | apply calm_foldl | apply calm_foldr
      | apply calm_ite | split | intro _ | dsimp only)

theorem calm_execEmbLookup {s₀ : State} {a1 : Fin 32} {a2 : Fin 64} {a3 : Word} {a4 : List (Nat × Bool)} {s : State} {t : State} (e : execEmbLookup a1 a2 a3 a4 s = .next t) (h5 : Calm s₀ s) : Calm s₀ t := by
  unfold execEmbLookup at e
  try dsimp only at e
  first
  | refine calm_act e (by assumption) ?_
  | (injection e with e; subst e)
  | (revert e; repeat' (split); all_goals (intro e; injection e with e; subst e))
  all_goals with_reducible repeat' (first
      | assumption | apply calmw_bind | apply calmw_pure | apply calmw_mapM | apply calmw_forM | apply calmw_ite | apply calm_id
      | apply calm_rowStep | apply calm_setAux | apply calm_endCmd | apply calm_rowEnd | apply calm_work | apply calm_Work_bag
      | apply calm_id | apply calm_foldl | apply calm_foldr | apply calm_ite | split | intro _ | dsimp only)

theorem calm_execCribAge {s₀ : State} {a1 : Fin 2} {s : State} {t : State} (e : execCribAge a1 s = .next t) (h2 : Calm s₀ s) : Calm s₀ t := by
  unfold execCribAge at e
  try dsimp only at e
  first
  | refine calm_act e (by assumption) ?_
  | (injection e with e; subst e)
  | (revert e; repeat' (split); all_goals (intro e; injection e with e; subst e))
  all_goals with_reducible repeat' (first
      | assumption | apply calm_count | apply calm_modCrib | apply calm_id | apply calm_foldl | apply calm_foldr | apply calm_ite
      | split | intro _ | dsimp only)

theorem calm_execContribute {s₀ : State} {a1 : Fin 32} {a2 : Fin 64} {a3 : Word} {s : State} {t : State} (e : execContribute a1 a2 a3 s = .next t) (h4 : Calm s₀ s) : Calm s₀ t := by
  unfold execContribute at e
  try dsimp only at e
  first
  | refine calm_act e (by assumption) ?_
  | (injection e with e; subst e)
  | (revert e; repeat' (split); all_goals (intro e; injection e with e; subst e))
  all_goals with_reducible repeat' (first
      | assumption | apply calm_rowStep | apply calm_endCmd | apply calm_setAux | apply calm_contribute | apply calm_id
      | apply calm_foldl | apply calm_foldr | apply calm_ite | split | intro _ | dsimp only)

theorem calm_execApply {s₀ : State} {a1 : Fin 32} {a2 : Fin 64} {a3 : Word} {s : State} {t : State} (e : execApply a1 a2 a3 s = .next t) (h4 : Calm s₀ s) : Calm s₀ t := by
  unfold execApply at e
  try dsimp only at e
  first
  | refine calm_act e (by assumption) ?_
  | (injection e with e; subst e)
  | (revert e; repeat' (split); all_goals (intro e; injection e with e; subst e))
  all_goals with_reducible repeat' (first
      | assumption | apply calm_rowStep | apply calm_applyStart | apply calm_applyStep | apply calm_id | apply calm_foldl
      | apply calm_foldr | apply calm_ite | split | intro _ | dsimp only)

theorem calm_execArenaRecordForward {s₀ : State} {a1 : Nat} {s : State} {t : State} (e : execArenaRecordForward a1 s = .next t) (h2 : Calm s₀ s) : Calm s₀ t := by
  unfold execArenaRecordForward at e
  try dsimp only at e
  first
  | refine calm_act e (by assumption) ?_
  | (injection e with e; subst e)
  | (revert e; repeat' (split); all_goals (intro e; injection e with e; subst e))
  all_goals with_reducible repeat' (first
      | assumption | apply calm_modFab | apply calm_unitSend | apply calm_dropForward | apply calm_modForward
      | apply calm_endForward | apply calm_count | apply calm_id | apply calm_foldl | apply calm_foldr | apply calm_ite | split
      | intro _ | dsimp only)

theorem calm_execEmbConvert {s₀ : State} {a1 : Fin 32} {a2 : Fin 64} {a3 : Word} {s : State} {t : State} (e : execEmbConvert a1 a2 a3 s = .next t) (h4 : Calm s₀ s) : Calm s₀ t := by
  unfold execEmbConvert at e
  try dsimp only at e
  first
  | refine calm_act e (by assumption) ?_
  | (injection e with e; subst e)
  | (revert e; repeat' (split); all_goals (intro e; injection e with e; subst e))
  all_goals with_reducible repeat' (first
      | assumption | apply calmw_bind | apply calmw_pure | apply calmw_mapM | apply calmw_forM | apply calmw_ite | apply calm_id
      | apply calm_rowStep | apply calm_endCmd | apply calm_setAux | apply calm_rowEnd | apply calm_work | apply calm_Work_convert
      | apply calm_id | apply calm_foldl | apply calm_foldr | apply calm_ite | split | intro _ | dsimp only)

theorem calm_execHotsetRefresh {s₀ : State} {a1 : Fin 32} {a2 : Fin 64} {a3 : Word} {s : State} {t : State} (e : execHotsetRefresh a1 a2 a3 s = .next t) (h4 : Calm s₀ s) : Calm s₀ t := by
  unfold execHotsetRefresh at e
  try dsimp only at e
  first
  | refine calm_act e (by assumption) ?_
  | (injection e with e; subst e)
  | (revert e; repeat' (split); all_goals (intro e; injection e with e; subst e))
  all_goals with_reducible repeat' (first
      | assumption | apply calmw_bind | apply calmw_pure | apply calmw_mapM | apply calmw_forM | apply calmw_ite | apply calm_id
      | apply calm_rowStep | apply calm_endCmd | apply calm_cribDrop | apply calm_work | apply calm_Work_writeVa
      | apply calm_Work_next | apply calm_rowEnd | apply calm_Work_refresh | apply calm_id | apply calm_foldl | apply calm_foldr
      | apply calm_ite | split | intro _ | dsimp only)

theorem calm_execMigrateRow {s₀ : State} {a1 : Fin 32} {a2 : Fin 64} {a3 : Word} {s : State} {t : State} (e : execMigrateRow a1 a2 a3 s = .next t) (h4 : Calm s₀ s) : Calm s₀ t := by
  unfold execMigrateRow at e
  try dsimp only at e
  first
  | refine calm_act e (by assumption) ?_
  | (injection e with e; subst e)
  | (revert e; repeat' (split); all_goals (intro e; injection e with e; subst e))
  all_goals with_reducible repeat' (first
      | assumption | apply calmw_bind | apply calmw_pure | apply calmw_mapM | apply calmw_forM | apply calmw_ite | apply calm_id
      | apply calm_endCmd | apply calm_work | apply calm_Work_migrateStart | apply calm_migrateUndo | apply calm_migrateStep
      | apply calm_id | apply calm_foldl | apply calm_foldr | apply calm_ite | split | intro _ | dsimp only)

theorem calm_execMigrateCutover {s₀ : State} {a1 : Fin 32} {a2 : Fin 64} {a3 : Word} {s : State} {t : State} (e : execMigrateCutover a1 a2 a3 s = .next t) (h4 : Calm s₀ s) : Calm s₀ t := by
  unfold execMigrateCutover at e
  try dsimp only at e
  first
  | refine calm_act e (by assumption) ?_
  | (injection e with e; subst e)
  | (revert e; repeat' (split); all_goals (intro e; injection e with e; subst e))
  all_goals with_reducible repeat' (first
      | assumption | apply calmw_bind | apply calmw_pure | apply calmw_mapM | apply calmw_forM | apply calmw_ite | apply calm_id
      | apply calm_work | apply calm_Work_arenasQuiet | apply calm_Work_next | apply calm_Work_act | apply calm_storeAll
      | apply calm_swapState | apply calm_setAux | apply calm_Work_redirEntries | refine calm_draw (by assumption) ?_
      | apply calm_draw' | apply calm_count | apply calm_endCmd | apply calm_id | apply calm_foldl | apply calm_foldr
      | apply calm_ite | split | intro _ | dsimp only)

theorem calm_execDepartedLapse {s₀ : State} {a1 : Fin 32} {a2 : Fin 256} {a3 : Fin 1048576} {s : State} {t : State} (e : execDepartedLapse a1 a2 a3 s = .next t) (h4 : Calm s₀ s) : Calm s₀ t := by
  unfold execDepartedLapse at e
  try dsimp only at e
  first
  | refine calm_act e (by assumption) ?_
  | (injection e with e; subst e)
  | (revert e; repeat' (split); all_goals (intro e; injection e with e; subst e))
  all_goals with_reducible repeat' (first
      | assumption | apply calm_request | apply calm_id | apply calm_foldl | apply calm_foldr | apply calm_ite | split | intro _
      | dsimp only)

theorem calm_execIndexUnloadDone {s₀ : State} {a1 : Fin 32} {a2 : Fin 64} {s : State} {t : State} (e : execIndexUnloadDone a1 a2 s = .next t) (h3 : Calm s₀ s) : Calm s₀ t := by
  unfold execIndexUnloadDone at e
  try dsimp only at e
  first
  | refine calm_act e (by assumption) ?_
  | (injection e with e; subst e)
  | (revert e; repeat' (split); all_goals (intro e; injection e with e; subst e))
  all_goals with_reducible repeat' (first
      | assumption | apply calm_showBusy | apply calm_showLoaded | apply calm_setIndex | apply calm_indexBack | apply calm_id
      | apply calm_foldl | apply calm_foldr | apply calm_ite | split | intro _ | dsimp only)

theorem calm_execSearch {s₀ : State} {a1 : Fin 32} {a2 : Fin 64} {a3 : Word} {a4 : Fin 3} {s : State} {t : State} (e : execSearch a1 a2 a3 a4 s = .next t) (h5 : Calm s₀ s) : Calm s₀ t := by
  unfold execSearch at e
  try dsimp only at e
  first
  | refine calm_act e (by assumption) ?_
  | (injection e with e; subst e)
  | (revert e; repeat' (split); all_goals (intro e; injection e with e; subst e))
  all_goals with_reducible repeat' (first
      | assumption | apply calmw_bind | apply calmw_pure | apply calmw_mapM | apply calmw_forM | apply calmw_ite | apply calm_id
      | apply calm_winStep | apply calm_rowEnd | apply calm_endCmd | apply calm_setAux | apply calm_winnowerError
      | apply calm_corrected | apply calm_count | apply calm_work | apply calm_Work_searchQuery | apply calm_id | apply calm_foldl
      | apply calm_foldr | apply calm_ite | split | intro _ | dsimp only)

theorem calm_execIndexInsert {s₀ : State} {a1 : Fin 32} {a2 : Fin 64} {a3 : Word} {s : State} {t : State} (e : execIndexInsert a1 a2 a3 s = .next t) (h4 : Calm s₀ s) : Calm s₀ t := by
  unfold execIndexInsert at e
  try dsimp only at e
  first
  | refine calm_act e (by assumption) ?_
  | (injection e with e; subst e)
  | (revert e; repeat' (split); all_goals (intro e; injection e with e; subst e))
  all_goals with_reducible repeat' (first
      | assumption | apply calmw_bind | apply calmw_pure | apply calmw_mapM | apply calmw_forM | apply calmw_ite | apply calm_id
      | apply calm_winStep | apply calm_itemsStopped | apply calm_itemsStart | apply calm_itemsDone | apply calm_work
      | apply calm_Work_insertBegin | apply calm_Work_insertRecord | apply calm_Work_insertMeta | apply calm_Work_insertMap
      | apply calm_id | apply calm_foldl | apply calm_foldr | apply calm_ite | split | intro _ | dsimp only)

theorem calm_execIndexDelete {s₀ : State} {a1 : Fin 32} {a2 : Fin 64} {a3 : Word} {s : State} {t : State} (e : execIndexDelete a1 a2 a3 s = .next t) (h4 : Calm s₀ s) : Calm s₀ t := by
  unfold execIndexDelete at e
  try dsimp only at e
  first
  | refine calm_act e (by assumption) ?_
  | (injection e with e; subst e)
  | (revert e; repeat' (split); all_goals (intro e; injection e with e; subst e))
  all_goals with_reducible repeat' (first
      | assumption | apply calmw_bind | apply calmw_pure | apply calmw_mapM | apply calmw_forM | apply calmw_ite | apply calm_id
      | apply calm_winStep | apply calm_itemsStopped | apply calm_itemsStart | apply calm_itemsDone | apply calm_work
      | apply calm_Work_deleteItem | apply calm_id | apply calm_foldl | apply calm_foldr | apply calm_ite | split | intro _
      | dsimp only)

theorem calm_execIndexCompact {s₀ : State} {a1 : Fin 32} {a2 : Fin 64} {a3 : Word} {s : State} {t : State} (e : execIndexCompact a1 a2 a3 s = .next t) (h4 : Calm s₀ s) : Calm s₀ t := by
  unfold execIndexCompact at e
  try dsimp only at e
  first
  | refine calm_act e (by assumption) ?_
  | (injection e with e; subst e)
  | (revert e; repeat' (split); all_goals (intro e; injection e with e; subst e))
  all_goals with_reducible repeat' (first
      | assumption | apply calmw_bind | apply calmw_pure | apply calmw_mapM | apply calmw_forM | apply calmw_ite | apply calm_id
      | apply calm_winStep | apply calm_compactDone | apply calm_rowEnd | apply calm_endCmd | apply calm_setAux | apply calm_modHub
      | apply calm_work | apply calm_Work_compactBegin | apply calm_Work_compactBlock | apply calm_Work_compactEntry
      | apply calm_Work_compactEnd | apply calm_id | apply calm_foldl | apply calm_foldr | apply calm_ite | split | intro _
      | dsimp only)

theorem calm_execBlockSeal {s₀ : State} {a1 : Fin 32} {a2 : Fin 64} {a3 : Word} {s : State} {t : State} (e : execBlockSeal a1 a2 a3 s = .next t) (h4 : Calm s₀ s) : Calm s₀ t := by
  unfold execBlockSeal at e
  try dsimp only at e
  first
  | refine calm_act e (by assumption) ?_
  | (injection e with e; subst e)
  | (revert e; repeat' (split); all_goals (intro e; injection e with e; subst e))
  all_goals with_reducible repeat' (first
      | assumption | apply calmw_bind | apply calmw_pure | apply calmw_mapM | apply calmw_forM | apply calmw_ite | apply calm_id
      | apply calm_work | apply calm_Work_putT1 | apply calm_Work_modIndex | refine calm_takeArrival (by assumption) ?_
      | apply calm_modIndex | apply calm_Work_t1 | apply calm_Work_act | apply calm_loftAsk | apply calm_violateMem | apply calm_id
      | apply calm_foldl | apply calm_foldr | apply calm_ite | split | intro _ | dsimp only)

theorem calm_execEpochPublish {s₀ : State} {a1 : Fin 32} {a2 : Fin 64} {s : State} {t : State} (e : execEpochPublish a1 a2 s = .next t) (h3 : Calm s₀ s) : Calm s₀ t := by
  unfold execEpochPublish at e
  try dsimp only at e
  first
  | refine calm_act e (by assumption) ?_
  | (injection e with e; subst e)
  | (revert e; repeat' (split); all_goals (intro e; injection e with e; subst e))
  all_goals with_reducible repeat' (first
      | assumption | apply calm_setIndex | apply calm_rowEnd | apply calm_pcause | apply calm_modHub | apply calm_endCmd
      | apply calm_id | apply calm_foldl | apply calm_foldr | apply calm_ite | split | intro _ | dsimp only)

theorem calm_execDeferredAllocation {s₀ : State} {a1 : Fin 32} {a2 : Fin 64} {a3 : Word} {s : State} {t : State} (e : execDeferredAllocation a1 a2 a3 s = .next t) (h4 : Calm s₀ s) : Calm s₀ t := by
  unfold execDeferredAllocation at e
  try dsimp only at e
  first
  | refine calm_act e (by assumption) ?_
  | (injection e with e; subst e)
  | (revert e; repeat' (split); all_goals (intro e; injection e with e; subst e))
  all_goals with_reducible repeat' (first
      | assumption | apply calmw_bind | apply calmw_pure | apply calmw_mapM | apply calmw_forM | apply calmw_ite | apply calm_id
      | apply calm_work | apply calm_Work_insertBegin | apply calm_Work_compactBegin | apply calm_id | apply calm_foldl
      | apply calm_foldr | apply calm_ite | split | intro _ | dsimp only)

theorem calm_execSemSignal {s₀ : State} {a1 : Fin 32} {a2 : Fin 64} {a3 : Word} {a4 : Fin 3} {s : State} {t : State} (e : execSemSignal a1 a2 a3 a4 s = .next t) (h5 : Calm s₀ s) : Calm s₀ t := by
  unfold execSemSignal at e
  try dsimp only at e
  first
  | refine calm_act e (by assumption) ?_
  | (injection e with e; subst e)
  | (revert e; repeat' (split); all_goals (intro e; injection e with e; subst e))
  all_goals with_reducible repeat' (first
      | assumption | apply calm_syncStep | apply calm_endCmd | apply calm_violateMem | apply calm_unitSend | apply calm_markSent
      | apply calm_semFind | refine calm_semSet (by assumption) ?_ | apply calm_semSet' | refine calm_semAdd (by assumption) ?_
      | apply calm_semAdd' | apply calm_id | apply calm_foldl | apply calm_foldr | apply calm_ite | split | intro _ | dsimp only)

theorem calm_execSemWait {s₀ : State} {a1 : Fin 32} {a2 : Fin 64} {a3 : Word} {a4 : Fin 3} {s : State} {t : State} (e : execSemWait a1 a2 a3 a4 s = .next t) (h5 : Calm s₀ s) : Calm s₀ t := by
  unfold execSemWait at e
  try dsimp only at e
  first
  | refine calm_act e (by assumption) ?_
  | (injection e with e; subst e)
  | (revert e; repeat' (split); all_goals (intro e; injection e with e; subst e))
  all_goals with_reducible repeat' (first
      | assumption | apply calm_syncStep | apply calm_stopWaiting | apply calm_endCmd | apply calm_semWait | apply calm_semFind
      | apply calm_id | apply calm_foldl | apply calm_foldr | apply calm_ite | split | intro _ | dsimp only)

theorem calm_execWaitSatisfied {s₀ : State} {a1 : SemWaiter} {s : State} {t : State} (e : execWaitSatisfied a1 s = .next t) (h2 : Calm s₀ s) : Calm s₀ t := by
  unfold execWaitSatisfied at e
  try dsimp only at e
  first
  | refine calm_act e (by assumption) ?_
  | (injection e with e; subst e)
  | (revert e; repeat' (split); all_goals (intro e; injection e with e; subst e))
  all_goals with_reducible repeat' (first
      | assumption | apply calm_semEvent | apply calm_meWaitEnds | apply calm_gcWaitEnds | apply calm_endWait
      | apply calm_finishRunning | apply calm_id | apply calm_foldl | apply calm_foldr | apply calm_ite | split | intro _
      | dsimp only)

theorem calm_execSemWaitTimeout {s₀ : State} {a1 : Fin 32} {a2 : Fin 64} {a3 : Word} {s : State} {t : State} (e : execSemWaitTimeout a1 a2 a3 s = .next t) (h4 : Calm s₀ s) : Calm s₀ t := by
  unfold execSemWaitTimeout at e
  try dsimp only at e
  first
  | refine calm_act e (by assumption) ?_
  | (injection e with e; subst e)
  | (revert e; repeat' (split); all_goals (intro e; injection e with e; subst e))
  all_goals with_reducible repeat' (first
      | assumption | apply calm_syncStep | apply calm_endCmd | apply calm_endWait | apply calm_id | apply calm_foldl
      | apply calm_foldr | apply calm_ite | split | intro _ | dsimp only)

theorem calm_execSemAdd {s₀ : State} {a1 : Packet} {a2 : Fin 3} {s : State} {t : State} (e : execSemAdd a1 a2 s = .next t) (h3 : Calm s₀ s) : Calm s₀ t := by
  unfold execSemAdd at e
  try dsimp only at e
  first
  | refine calm_act e (by assumption) ?_
  | (injection e with e; subst e)
  | (revert e; repeat' (split); all_goals (intro e; injection e with e; subst e))
  all_goals with_reducible repeat' (first
      | assumption | apply calm_onSync | apply calm_judgeSync | apply calm_id | apply calm_foldl | apply calm_foldr
      | apply calm_ite | split | intro _ | dsimp only)

theorem calm_execSemSet {s₀ : State} {a1 : Packet} {a2 : Fin 3} {s : State} {t : State} (e : execSemSet a1 a2 s = .next t) (h3 : Calm s₀ s) : Calm s₀ t := by
  unfold execSemSet at e
  try dsimp only at e
  first
  | refine calm_act e (by assumption) ?_
  | (injection e with e; subst e)
  | (revert e; repeat' (split); all_goals (intro e; injection e with e; subst e))
  all_goals with_reducible repeat' (first
      | assumption | apply calm_onSync | apply calm_judgeSync | apply calm_id | apply calm_foldl | apply calm_foldr
      | apply calm_ite | split | intro _ | dsimp only)

theorem calm_execBarrier {s₀ : State} {a1 : Fin 32} {a2 : Fin 64} {a3 : Word} {s : State} {t : State} (e : execBarrier a1 a2 a3 s = .next t) (h4 : Calm s₀ s) : Calm s₀ t := by
  unfold execBarrier at e
  try dsimp only at e
  first
  | refine calm_act e (by assumption) ?_
  | (injection e with e; subst e)
  | (revert e; repeat' (split); all_goals (intro e; injection e with e; subst e))
  all_goals with_reducible repeat' (first
      | assumption | apply calm_syncStep | apply calm_stopWaiting | apply calm_endCmd | apply calm_afterScope | apply calm_setSide
      | apply calm_markSent | apply calm_unitSend | apply calm_id | apply calm_foldl | apply calm_foldr | apply calm_ite | split
      | intro _ | dsimp only)

theorem calm_execBarArrive {s₀ : State} {a1 : Packet} {s : State} {t : State} (e : execBarArrive a1 s = .next t) (h2 : Calm s₀ s) : Calm s₀ t := by
  unfold execBarArrive at e
  try dsimp only at e
  first
  | refine calm_act e (by assumption) ?_
  | (injection e with e; subst e)
  | (revert e; repeat' (split); all_goals (intro e; injection e with e; subst e))
  all_goals with_reducible repeat' (first
      | assumption | apply calm_onSync | apply calm_judgeSync | apply calm_id | apply calm_foldl | apply calm_foldr
      | apply calm_ite | split | intro _ | dsimp only)

theorem calm_execBarRelease {s₀ : State} {a1 : Packet} {s : State} {t : State} (e : execBarRelease a1 s = .next t) (h2 : Calm s₀ s) : Calm s₀ t := by
  unfold execBarRelease at e
  try dsimp only at e
  first
  | refine calm_act e (by assumption) ?_
  | (injection e with e; subst e)
  | (revert e; repeat' (split); all_goals (intro e; injection e with e; subst e))
  all_goals with_reducible repeat' (first
      | assumption | apply calm_onSync | apply calm_judgeSync | apply calm_id | apply calm_foldl | apply calm_foldr
      | apply calm_ite | split | intro _ | dsimp only)

theorem calm_execProposeMsg {s₀ : State} {a1 : Packet} {a2 : List Word} {s : State} {t : State} (e : execProposeMsg a1 a2 s = .next t) (h3 : Calm s₀ s) : Calm s₀ t := by
  unfold execProposeMsg at e
  try dsimp only at e
  first
  | refine calm_act e (by assumption) ?_
  | (injection e with e; subst e)
  | (revert e; repeat' (split); all_goals (intro e; injection e with e; subst e))
  all_goals with_reducible repeat' (first
      | assumption | apply calm_onSync | apply calm_endRequest | apply calm_sequenced | apply calm_modSync | apply calm_id
      | apply calm_foldl | apply calm_foldr | apply calm_ite | split | intro _ | dsimp only)

theorem calm_execPrepare {s₀ : State} {a1 : Packet} {a2 : List Word} {s : State} {t : State} (e : execPrepare a1 a2 s = .next t) (h3 : Calm s₀ s) : Calm s₀ t := by
  unfold execPrepare at e
  try dsimp only at e
  first
  | refine calm_act e (by assumption) ?_
  | (injection e with e; subst e)
  | (revert e; repeat' (split); all_goals (intro e; injection e with e; subst e))
  all_goals with_reducible repeat' (first
      | assumption | apply calm_onSync | apply calm_endRequest | apply calm_showComp | apply calm_setPrepared | apply calm_id
      | apply calm_foldl | apply calm_foldr | apply calm_ite | split | intro _ | dsimp only)

theorem calm_execCommit {s₀ : State} {a1 : Packet} {s : State} {t : State} (e : execCommit a1 s = .next t) (h2 : Calm s₀ s) : Calm s₀ t := by
  unfold execCommit at e
  try dsimp only at e
  first
  | refine calm_act e (by assumption) ?_
  | (injection e with e; subst e)
  | (revert e; repeat' (split); all_goals (intro e; injection e with e; subst e))
  all_goals with_reducible repeat' (first
      | assumption | apply calm_onSync | apply calm_commitComp | apply calm_endRequest | apply calm_id | apply calm_foldl
      | apply calm_foldr | apply calm_ite | split | intro _ | dsimp only)

theorem calm_execCompAbort {s₀ : State} {a1 : Packet} {s : State} {t : State} (e : execCompAbort a1 s = .next t) (h2 : Calm s₀ s) : Calm s₀ t := by
  unfold execCompAbort at e
  try dsimp only at e
  first
  | refine calm_act e (by assumption) ?_
  | (injection e with e; subst e)
  | (revert e; repeat' (split); all_goals (intro e; injection e with e; subst e))
  all_goals with_reducible repeat' (first
      | assumption | apply calm_onSync | apply calm_abortComp | apply calm_endRequest | apply calm_id | apply calm_foldl
      | apply calm_foldr | apply calm_ite | split | intro _ | dsimp only)

theorem calm_execSack {s₀ : State} {a1 : Packet} {s : State} {t : State} (e : execSack a1 s = .next t) (h2 : Calm s₀ s) : Calm s₀ t := by
  unfold execSack at e
  try dsimp only at e
  first
  | refine calm_act e (by assumption) ?_
  | (injection e with e; subst e)
  | (revert e; repeat' (split); all_goals (intro e; injection e with e; subst e))
  all_goals with_reducible repeat' (first
      | assumption | apply calm_receive | apply calm_settleStalled | apply calm_complete | apply calm_finishRunning
      | apply calm_arrivalRefused | apply calm_failCmd | apply calm_endProposal | apply calm_prepareAnswer | apply calm_commitAck
      | apply calm_queryAnswer | apply calm_id | apply calm_foldl | apply calm_foldr | apply calm_ite | split | intro _
      | dsimp only)

theorem calm_execCompTimeout {s₀ : State} {a1 : Fin 65536} {s : State} {t : State} (e : execCompTimeout a1 s = .next t) (h2 : Calm s₀ s) : Calm s₀ t := by
  unfold execCompTimeout at e
  try dsimp only at e
  first
  | refine calm_act e (by assumption) ?_
  | (injection e with e; subst e)
  | (revert e; repeat' (split); all_goals (intro e; injection e with e; subst e))
  all_goals with_reducible repeat' (first
      | assumption | apply calm_unitSend | apply calm_setPrepared | apply calm_id | apply calm_foldl | apply calm_foldr
      | apply calm_ite | split | intro _ | dsimp only)

theorem calm_execQuery {s₀ : State} {a1 : Packet} {s : State} {t : State} (e : execQuery a1 s = .next t) (h2 : Calm s₀ s) : Calm s₀ t := by
  unfold execQuery at e
  try dsimp only at e
  first
  | refine calm_act e (by assumption) ?_
  | (injection e with e; subst e)
  | (revert e; repeat' (split); all_goals (intro e; injection e with e; subst e))
  all_goals with_reducible repeat' (first
      | assumption | apply calm_onSync | apply calm_endRequest | apply calm_id | apply calm_foldl | apply calm_foldr
      | apply calm_ite | split | intro _ | dsimp only)

theorem calm_execDown {s₀ : State} {a1 : Packet} {s : State} {t : State} (e : execDown a1 s = .next t) (h2 : Calm s₀ s) : Calm s₀ t := by
  unfold execDown at e
  try dsimp only at e
  first
  | refine calm_act e (by assumption) ?_
  | (injection e with e; subst e)
  | (revert e; repeat' (split); all_goals (intro e; injection e with e; subst e))
  all_goals with_reducible repeat' (first
      | assumption | apply calm_onSync | apply calm_endRequest | apply calm_markDown | apply calm_id | apply calm_foldl
      | apply calm_foldr | apply calm_ite | split | intro _ | dsimp only)

theorem calm_execDigest {s₀ : State} {a1 : Fin 32} {a2 : Fin 64} {a3 : Word} {s : State} {t : State} (e : execDigest a1 a2 a3 s = .next t) (h4 : Calm s₀ s) : Calm s₀ t := by
  unfold execDigest at e
  try dsimp only at e
  first
  | refine calm_act e (by assumption) ?_
  | (injection e with e; subst e)
  | (revert e; repeat' (split); all_goals (intro e; injection e with e; subst e))
  all_goals with_reducible repeat' (first
      | assumption | apply calm_endCmd | apply calm_setAux | apply calm_digestDone | apply calm_whenReady
      | refine calm_fetchAll (by assumption) ?_ | apply calm_fetchAll' | apply calm_id | apply calm_foldl | apply calm_foldr
      | apply calm_ite | split | intro _ | dsimp only)

theorem calm_execDigestVote {s₀ : State} {a1 : Packet} {s : State} {t : State} (e : execDigestVote a1 s = .next t) (h2 : Calm s₀ s) : Calm s₀ t := by
  unfold execDigestVote at e
  try dsimp only at e
  first
  | refine calm_act e (by assumption) ?_
  | (injection e with e; subst e)
  | (revert e; repeat' (split); all_goals (intro e; injection e with e; subst e))
  all_goals with_reducible repeat' (first
      | assumption | apply calm_onSync | apply calm_judgeSync | apply calm_id | apply calm_foldl | apply calm_foldr
      | apply calm_ite | split | intro _ | dsimp only)

theorem calm_execDigWaitExpire {s₀ : State} {a1 : Fin 32} {a2 : Fin 64} {a3 : Word} {s : State} {t : State} (e : execDigWaitExpire a1 a2 a3 s = .next t) (h4 : Calm s₀ s) : Calm s₀ t := by
  unfold execDigWaitExpire at e
  try dsimp only at e
  first
  | refine calm_act e (by assumption) ?_
  | (injection e with e; subst e)
  | (revert e; repeat' (split); all_goals (intro e; injection e with e; subst e))
  all_goals with_reducible repeat' (first
      | assumption | apply calm_decideVote | apply calm_id | apply calm_foldl | apply calm_foldr | apply calm_ite | split | intro _
      | dsimp only)

theorem calm_execCeSummary {s₀ : State} {a1 : Fin 17} {a2 : Fin 1664} {a3 : Fin 11} {s : State} {t : State} (e : execCeSummary a1 a2 a3 s = .next t) (h4 : Calm s₀ s) : Calm s₀ t := by
  unfold execCeSummary at e
  try dsimp only at e
  first
  | refine calm_act e (by assumption) ?_
  | (injection e with e; subst e)
  | (revert e; repeat' (split); all_goals (intro e; injection e with e; subst e))
  all_goals with_reducible repeat' (first
      | assumption | apply calm_report | apply calm_id | apply calm_foldl | apply calm_foldr | apply calm_ite | split | intro _
      | dsimp only | refine calm_mk ?_ rfl rfl)

theorem calm_execRecordResend {s₀ : State} {s : State} {t : State} (e : execRecordResend s = .next t) (h1 : Calm s₀ s) : Calm s₀ t := by
  unfold execRecordResend at e
  try dsimp only at e
  first
  | refine calm_act e (by assumption) ?_
  | (injection e with e; subst e)
  | (revert e; repeat' (split); all_goals (intro e; injection e with e; subst e))
  all_goals with_reducible repeat' (first
      | assumption | apply calm_sendAll | apply calm_id | apply calm_foldl | apply calm_foldr | apply calm_ite | split | intro _
      | dsimp only | refine calm_mk ?_ rfl rfl)

theorem calm_execRecordAck {s₀ : State} {a1 : Word} {a2 : Word} {a3 : Word} {a4 : Word} {s : State} {t : State} (e : execRecordAck a1 a2 a3 a4 s = .next t) (h5 : Calm s₀ s) : Calm s₀ t := by
  unfold execRecordAck at e
  try dsimp only at e
  first
  | refine calm_act e (by assumption) ?_
  | (injection e with e; subst e)
  | (revert e; repeat' (split); all_goals (intro e; injection e with e; subst e))
  all_goals with_reducible repeat' (first
      | assumption | apply calm_ackTo | apply calm_id | apply calm_foldl | apply calm_foldr | apply calm_ite | split | intro _
      | dsimp only)

theorem calm_execGetRecords {s₀ : State} {a1 : Transport} {a2 : BitVec 16} {a3 : Word} {s : State} {t : State} (e : execGetRecords a1 a2 a3 s = .next t) (h4 : Calm s₀ s) : Calm s₀ t := by
  unfold execGetRecords at e
  try dsimp only at e
  first
  | refine calm_act e (by assumption) ?_
  | (injection e with e; subst e)
  | (revert e; repeat' (split); all_goals (intro e; injection e with e; subst e))
  all_goals with_reducible repeat' (first
      | assumption | apply calm_emit | apply calm_id | apply calm_foldl | apply calm_foldr | apply calm_ite | split | intro _
      | dsimp only | refine calm_mk ?_ rfl rfl)

theorem calm_execAckRecords {s₀ : State} {a1 : Transport} {a2 : BitVec 16} {a3 : Word} {s : State} {t : State} (e : execAckRecords a1 a2 a3 s = .next t) (h4 : Calm s₀ s) : Calm s₀ t := by
  unfold execAckRecords at e
  try dsimp only at e
  first
  | refine calm_act e (by assumption) ?_
  | (injection e with e; subst e)
  | (revert e; repeat' (split); all_goals (intro e; injection e with e; subst e))
  all_goals with_reducible repeat' (first
      | assumption | apply calm_emit | apply calm_ackTo | apply calm_id | apply calm_foldl | apply calm_foldr | apply calm_ite
      | split | intro _ | dsimp only)

theorem calm_execFtTake {s₀ : State} {a1 : BitVec 16} {s : State} {t : State} (e : execFtTake a1 s = .next t) (h2 : Calm s₀ s) : Calm s₀ t := by
  unfold execFtTake at e
  try dsimp only at e
  first
  | refine calm_act e (by assumption) ?_
  | (injection e with e; subst e)
  | (revert e; repeat' (split); all_goals (intro e; injection e with e; subst e))
  all_goals with_reducible repeat' (first
      | assumption | apply calm_ftDefer | apply calm_ftResult | apply calm_ftDrop | apply calm_resetUnit | apply calm_wakeNow
      | apply calm_modTally | apply calm_showFt | apply calm_modFt | apply calm_id | apply calm_foldl | apply calm_foldr
      | apply calm_ite | split | intro _ | dsimp only)

theorem calm_execFtRetry {s₀ : State} {a1 : BitVec 8} {s : State} {t : State} (e : execFtRetry a1 s = .next t) (h2 : Calm s₀ s) : Calm s₀ t := by
  unfold execFtRetry at e
  try dsimp only at e
  first
  | refine calm_act e (by assumption) ?_
  | (injection e with e; subst e)
  | (revert e; repeat' (split); all_goals (intro e; injection e with e; subst e))
  all_goals with_reducible repeat' (first
      | assumption | apply calm_modFt | apply calm_id | apply calm_foldl | apply calm_foldr | apply calm_ite | split | intro _
      | dsimp only)

theorem calm_execFtExpire {s₀ : State} {a1 : BitVec 8} {s : State} {t : State} (e : execFtExpire a1 s = .next t) (h2 : Calm s₀ s) : Calm s₀ t := by
  unfold execFtExpire at e
  try dsimp only at e
  first
  | refine calm_act e (by assumption) ?_
  | (injection e with e; subst e)
  | (revert e; repeat' (split); all_goals (intro e; injection e with e; subst e))
  all_goals with_reducible repeat' (first
      | assumption | apply calm_cause | apply calm_ftResult | apply calm_ftDrop | apply calm_id | apply calm_foldl
      | apply calm_foldr | apply calm_ite | split | intro _ | dsimp only)

theorem calm_execFtNominalPass {s₀ : State} {a1 : Option (BitVec 16)} {s : State} {t : State} (e : execFtNominalPass a1 s = .next t) (h2 : Calm s₀ s) : Calm s₀ t := by
  unfold execFtNominalPass at e
  try dsimp only at e
  first
  | refine calm_act e (by assumption) ?_
  | (injection e with e; subst e)
  | (revert e; repeat' (split); all_goals (intro e; injection e with e; subst e))
  all_goals with_reducible repeat' (first
      | assumption | apply calm_modFt | apply calm_id | apply calm_foldl | apply calm_foldr | apply calm_ite | split | intro _
      | dsimp only)

theorem calm_execFtMarginPass {s₀ : State} {a1 : Option (BitVec 16)} {a2 : BitVec 16} {a3 : BitVec 16} {a4 : List Nat} {s : State} {t : State} (e : execFtMarginPass a1 a2 a3 a4 s = .next t) (h5 : Calm s₀ s) : Calm s₀ t := by
  unfold execFtMarginPass at e
  try dsimp only at e
  first
  | refine calm_act e (by assumption) ?_
  | (injection e with e; subst e)
  | (revert e; repeat' (split); all_goals (intro e; injection e with e; subst e))
  all_goals with_reducible repeat' (first
      | assumption | apply calm_setRegF | apply calm_modFt | apply calm_ftEnd | apply calm_id | apply calm_foldl | apply calm_foldr
      | apply calm_ite | split | intro _ | dsimp only)

theorem calm_execClockGate {s₀ : State} {a1 : Fin 512} {s : State} {t : State} (e : execClockGate a1 s = .next t) (h2 : Calm s₀ s) : Calm s₀ t := by
  unfold execClockGate at e
  try dsimp only at e
  first
  | refine calm_act e (by assumption) ?_
  | (injection e with e; subst e)
  | (revert e; repeat' (split); all_goals (intro e; injection e with e; subst e))
  all_goals with_reducible repeat' (first
      | assumption | apply calm_setSleep | apply calm_id | apply calm_foldl | apply calm_foldr | apply calm_ite | split | intro _
      | dsimp only)

theorem calm_execPowerGate {s₀ : State} {a1 : UnitKind} {a2 : Fin 64} {s : State} {t : State} (e : execPowerGate a1 a2 s = .next t) (h3 : Calm s₀ s) : Calm s₀ t := by
  unfold execPowerGate at e
  try dsimp only at e
  first
  | refine calm_act e (by assumption) ?_
  | (injection e with e; subst e)
  | (revert e; repeat' (split); all_goals (intro e; injection e with e; subst e))
  all_goals with_reducible repeat' (first
      | assumption | apply calm_checkIdle | apply calm_setSleep | apply calm_resetUnit | apply calm_id | apply calm_foldl
      | apply calm_foldr | apply calm_ite | split | intro _ | dsimp only)

theorem calm_execPllStop {s₀ : State} {a1 : Fin 4} {s : State} {t : State} (e : execPllStop a1 s = .next t) (h2 : Calm s₀ s) : Calm s₀ t := by
  unfold execPllStop at e
  try dsimp only at e
  first
  | refine calm_act e (by assumption) ?_
  | (injection e with e; subst e)
  | (revert e; repeat' (split); all_goals (intro e; injection e with e; subst e))
  all_goals with_reducible repeat' (first
      | assumption | apply calm_checkIdle | apply calm_setSleep | apply calm_id | apply calm_foldl | apply calm_foldr
      | apply calm_ite | split | intro _ | dsimp only)

theorem calm_execSelfRefresh {s₀ : State} {a1 : Fin 6} {s : State} {t : State} (e : execSelfRefresh a1 s = .next t) (h2 : Calm s₀ s) : Calm s₀ t := by
  unfold execSelfRefresh at e
  try dsimp only at e
  first
  | refine calm_act e (by assumption) ?_
  | (injection e with e; subst e)
  | (revert e; repeat' (split); all_goals (intro e; injection e with e; subst e))
  all_goals with_reducible repeat' (first
      | assumption | apply calm_setSleep | apply calm_id | apply calm_foldl | apply calm_foldr | apply calm_ite | split | intro _
      | dsimp only)

theorem calm_execWakeDone {s₀ : State} {a1 : Fin 512} {s : State} {t : State} (e : execWakeDone a1 s = .next t) (h2 : Calm s₀ s) : Calm s₀ t := by
  unfold execWakeDone at e
  try dsimp only at e
  first
  | refine calm_act e (by assumption) ?_
  | (injection e with e; subst e)
  | (revert e; repeat' (split); all_goals (intro e; injection e with e; subst e))
  all_goals with_reducible repeat' (first
      | assumption | apply calm_wakeNow | apply calm_id | apply calm_foldl | apply calm_foldr | apply calm_ite | split | intro _
      | dsimp only)

theorem calm_execRunDone {s₀ : State} {s : State} {t : State} (e : execRunDone s = .next t) (h1 : Calm s₀ s) : Calm s₀ t := by
  unfold execRunDone at e
  try dsimp only at e
  first
  | refine calm_act e (by assumption) ?_
  | (injection e with e; subst e)
  | (revert e; repeat' (split); all_goals (intro e; injection e with e; subst e))
  all_goals with_reducible repeat' (first
      | assumption | apply calm_cause | apply calm_setRegF | apply calm_setSleep | apply calm_id | apply calm_foldl
      | apply calm_foldr | apply calm_ite | split | intro _ | dsimp only)

theorem calm_execPowerTick {s₀ : State} {a1 : BitVec 16} {a2 : BitVec 16} {a3 : List (BitVec 16)} {s : State} {t : State} (e : execPowerTick a1 a2 a3 s = .next t) (h4 : Calm s₀ s) : Calm s₀ t := by
  unfold execPowerTick at e
  try dsimp only at e
  first
  | refine calm_act e (by assumption) ?_
  | (injection e with e; subst e)
  | (revert e; repeat' (split); all_goals (intro e; injection e with e; subst e))
  all_goals with_reducible repeat' (first
      | assumption | apply calm_setRegF | apply calm_heatTick | apply calm_capTick | apply calm_id | apply calm_foldl
      | apply calm_foldr | apply calm_ite | split | intro _ | dsimp only)

theorem calm_execPerstNAssert {s₀ : State} {a1 : Fin 2} {a2 : Fin 3} {s : State} {t : State} (e : execPerstNAssert a1 a2 s = .next t) (h3 : Calm s₀ s) : Calm s₀ t := by
  unfold execPerstNAssert at e
  try dsimp only at e
  first
  | refine calm_act e (by assumption) ?_
  | (injection e with e; subst e)
  | (revert e; repeat' (split); all_goals (intro e; injection e with e; subst e))
  all_goals with_reducible repeat' (first
      | assumption | apply calm_cause | apply calm_resetCxlPort | apply calm_id | apply calm_foldl | apply calm_foldr
      | apply calm_ite | split | intro _ | dsimp only)

theorem calm_execPerstNDeassert {s₀ : State} {a1 : Fin 2} {s : State} {t : State} (e : execPerstNDeassert a1 s = .next t) (h2 : Calm s₀ s) : Calm s₀ t := by
  unfold execPerstNDeassert at e
  try dsimp only at e
  first
  | refine calm_act e (by assumption) ?_
  | (injection e with e; subst e)
  | (revert e; repeat' (split); all_goals (intro e; injection e with e; subst e))
  all_goals with_reducible repeat' (first
      | assumption | apply calm_setRegF | apply calm_tallyPreempt | apply calm_id | apply calm_foldl | apply calm_foldr
      | apply calm_ite | split | intro _ | dsimp only)

theorem calm_execCxlPortReady {s₀ : State} {a1 : Fin 2} {s : State} {t : State} (e : execCxlPortReady a1 s = .next t) (h2 : Calm s₀ s) : Calm s₀ t := by
  unfold execCxlPortReady at e
  try dsimp only at e
  first
  | refine calm_act e (by assumption) ?_
  | (injection e with e; subst e)
  | (revert e; repeat' (split); all_goals (intro e; injection e with e; subst e))
  all_goals with_reducible repeat' (first
      | assumption | apply calm_setRegF | apply calm_id | apply calm_foldl | apply calm_foldr | apply calm_ite | split | intro _
      | dsimp only)

theorem calm_execIdeFail {s₀ : State} {a1 : Fin 2} {s : State} {t : State} (e : execIdeFail a1 s = .next t) (h2 : Calm s₀ s) : Calm s₀ t := by
  unfold execIdeFail at e
  try dsimp only at e
  first
  | refine calm_act e (by assumption) ?_
  | (injection e with e; subst e)
  | (revert e; repeat' (split); all_goals (intro e; injection e with e; subst e))
  all_goals with_reducible repeat' (first
      | assumption | apply calm_cause | apply calm_resetCxlPort | apply calm_count | apply calm_id | apply calm_foldl
      | apply calm_foldr | apply calm_ite | split | intro _ | dsimp only)

theorem calm_execParamCheckDone {s₀ : State} {a1 : Bool} {s : State} {t : State} (e : execParamCheckDone a1 s = .next t) (h2 : Calm s₀ s) : Calm s₀ t := by
  unfold execParamCheckDone at e
  try dsimp only at e
  first
  | refine calm_act e (by assumption) ?_
  | (injection e with e; subst e)
  | (revert e; repeat' (split); all_goals (intro e; injection e with e; subst e))
  all_goals with_reducible repeat' (first
      | assumption | apply calm_paramResult | apply calm_setRegF | apply calm_modBoot | apply calm_answerEnd | apply calm_cause
      | apply calm_setShadow | apply calm_report | apply calm_id | apply calm_foldl | apply calm_foldr | apply calm_ite | split
      | intro _ | dsimp only)

theorem calm_execObjBegin {s₀ : State} {a1 : Transport} {a2 : BitVec 16} {a3 : BitVec 8} {a4 : Word} {s : State} {t : State} (e : execObjBegin a1 a2 a3 a4 s = .next t) (h5 : Calm s₀ s) : Calm s₀ t := by
  unfold execObjBegin at e
  try dsimp only at e
  first
  | refine calm_act e (by assumption) ?_
  | (injection e with e; subst e)
  | (revert e; repeat' (split); all_goals (intro e; injection e with e; subst e))
  all_goals with_reducible repeat' (first
      | assumption | apply calm_served | apply calm_answer | apply calm_setXfer | apply calm_eraseSlot | apply calm_id
      | apply calm_foldl | apply calm_foldr | apply calm_ite | split | intro _ | dsimp only)

theorem calm_execObjData {s₀ : State} {a1 : Transport} {a2 : BitVec 16} {a3 : BitVec 8} {a4 : Word} {a5 : List Byte} {s : State} {t : State} (e : execObjData a1 a2 a3 a4 a5 s = .next t) (h6 : Calm s₀ s) : Calm s₀ t := by
  unfold execObjData at e
  try dsimp only at e
  first
  | refine calm_act e (by assumption) ?_
  | (injection e with e; subst e)
  | (revert e; repeat' (split); all_goals (intro e; injection e with e; subst e))
  all_goals with_reducible repeat' (first
      | assumption | apply calm_served | apply calm_answer | apply calm_setXfer | apply calm_id | apply calm_foldl
      | apply calm_foldr | apply calm_ite | split | intro _ | dsimp only)

theorem calm_execObjAbort {s₀ : State} {a1 : Transport} {a2 : BitVec 16} {a3 : BitVec 8} {s : State} {t : State} (e : execObjAbort a1 a2 a3 s = .next t) (h4 : Calm s₀ s) : Calm s₀ t := by
  unfold execObjAbort at e
  try dsimp only at e
  first
  | refine calm_act e (by assumption) ?_
  | (injection e with e; subst e)
  | (revert e; repeat' (split); all_goals (intro e; injection e with e; subst e))
  all_goals with_reducible repeat' (first
      | assumption | apply calm_served | apply calm_answer | apply calm_setXfer | apply calm_id | apply calm_foldl
      | apply calm_foldr | apply calm_ite | split | intro _ | dsimp only)

theorem calm_execTransferTimeout {s₀ : State} {a1 : Fin 4} {s : State} {t : State} (e : execTransferTimeout a1 s = .next t) (h2 : Calm s₀ s) : Calm s₀ t := by
  unfold execTransferTimeout at e
  try dsimp only at e
  first
  | refine calm_act e (by assumption) ?_
  | (injection e with e; subst e)
  | (revert e; repeat' (split); all_goals (intro e; injection e with e; subst e))
  all_goals with_reducible repeat' (first
      | assumption | apply calm_setXfer | apply calm_id | apply calm_foldl | apply calm_foldr | apply calm_ite | split | intro _
      | dsimp only)

theorem calm_execQuote {s₀ : State} {a1 : Transport} {a2 : BitVec 16} {a3 : List Byte} {s : State} {t : State} (e : execQuote a1 a2 a3 s = .next t) (h4 : Calm s₀ s) : Calm s₀ t := by
  unfold execQuote at e
  try dsimp only at e
  first
  | refine calm_act e (by assumption) ?_
  | (injection e with e; subst e)
  | (revert e; repeat' (split); all_goals (intro e; injection e with e; subst e))
  all_goals with_reducible repeat' (first
      | assumption | apply calm_served | apply calm_answer | refine calm_useLeaf (by assumption) ?_
      | refine calm_sign (by assumption) ?_ | apply calm_sign' | apply calm_id | apply calm_foldl | apply calm_foldr
      | apply calm_ite | split | intro _ | dsimp only)

theorem calm_execKemKey {s₀ : State} {a1 : Transport} {a2 : BitVec 16} {s : State} {t : State} (e : execKemKey a1 a2 s = .next t) (h3 : Calm s₀ s) : Calm s₀ t := by
  unfold execKemKey at e
  try dsimp only at e
  first
  | refine calm_act e (by assumption) ?_
  | (injection e with e; subst e)
  | (revert e; repeat' (split); all_goals (intro e; injection e with e; subst e))
  all_goals with_reducible repeat' (first
      | assumption | apply calm_served | refine calm_useLeaf (by assumption) ?_ | apply calm_answer
      | refine calm_sign (by assumption) ?_ | apply calm_sign' | apply calm_id | apply calm_foldl | apply calm_foldr
      | apply calm_ite | split | intro _ | dsimp only)

theorem calm_execSessionOpen {s₀ : State} {a1 : Transport} {a2 : BitVec 16} {a3 : List Byte} {s : State} {t : State} (e : execSessionOpen a1 a2 a3 s = .next t) (h4 : Calm s₀ s) : Calm s₀ t := by
  unfold execSessionOpen at e
  try dsimp only at e
  first
  | refine calm_act e (by assumption) ?_
  | (injection e with e; subst e)
  | (revert e; repeat' (split); all_goals (intro e; injection e with e; subst e))
  all_goals with_reducible repeat' (first
      | assumption | apply calm_served | apply calm_answer | apply calm_id | apply calm_foldl | apply calm_foldr | apply calm_ite
      | split | intro _ | dsimp only | refine calm_mk ?_ rfl rfl)

theorem calm_execSessionMsg {s₀ : State} {a1 : Transport} {a2 : BitVec 16} {a3 : Word} {a4 : Option IdeMsg} {s : State} {t : State} (e : execSessionMsg a1 a2 a3 a4 s = .next t) (h5 : Calm s₀ s) : Calm s₀ t := by
  unfold execSessionMsg at e
  try dsimp only at e
  first
  | refine calm_act e (by assumption) ?_
  | (injection e with e; subst e)
  | (revert e; repeat' (split); all_goals (intro e; injection e with e; subst e))
  all_goals with_reducible repeat' (first
      | assumption | apply calm_served | apply calm_answer | apply calm_ideMessage | apply calm_id | apply calm_foldl
      | apply calm_foldr | apply calm_ite | split | intro _ | dsimp only)

theorem calm_execIdentifyDevice {s₀ : State} {a1 : Mailbox} {s : State} {t : State} (e : execIdentifyDevice a1 s = .next t) (h2 : Calm s₀ s) : Calm s₀ t := by
  unfold execIdentifyDevice at e
  try dsimp only at e
  first
  | refine calm_act e (by assumption) ?_
  | (injection e with e; subst e)
  | (revert e; repeat' (split); all_goals (intro e; injection e with e; subst e))
  all_goals with_reducible repeat' (first
      | assumption | apply calm_mbox | apply calm_id | apply calm_foldl | apply calm_foldr | apply calm_ite | split | intro _
      | dsimp only)

theorem calm_execIdentifyMemoryDevice {s₀ : State} {a1 : Mailbox} {s : State} {t : State} (e : execIdentifyMemoryDevice a1 s = .next t) (h2 : Calm s₀ s) : Calm s₀ t := by
  unfold execIdentifyMemoryDevice at e
  try dsimp only at e
  first
  | refine calm_act e (by assumption) ?_
  | (injection e with e; subst e)
  | (revert e; repeat' (split); all_goals (intro e; injection e with e; subst e))
  all_goals with_reducible repeat' (first
      | assumption | apply calm_ldMailbox | apply calm_mbox | apply calm_id | apply calm_foldl | apply calm_foldr | apply calm_ite
      | split | intro _ | dsimp only)

theorem calm_execGetSupportedLogs {s₀ : State} {a1 : Mailbox} {s : State} {t : State} (e : execGetSupportedLogs a1 s = .next t) (h2 : Calm s₀ s) : Calm s₀ t := by
  unfold execGetSupportedLogs at e
  try dsimp only at e
  first
  | refine calm_act e (by assumption) ?_
  | (injection e with e; subst e)
  | (revert e; repeat' (split); all_goals (intro e; injection e with e; subst e))
  all_goals with_reducible repeat' (first
      | assumption | apply calm_ldMailbox | apply calm_mbox | apply calm_id | apply calm_foldl | apply calm_foldr | apply calm_ite
      | split | intro _ | dsimp only)

theorem calm_execGetLog {s₀ : State} {a1 : Mailbox} {s : State} {t : State} (e : execGetLog a1 s = .next t) (h2 : Calm s₀ s) : Calm s₀ t := by
  unfold execGetLog at e
  try dsimp only at e
  first
  | refine calm_act e (by assumption) ?_
  | (injection e with e; subst e)
  | (revert e; repeat' (split); all_goals (intro e; injection e with e; subst e))
  all_goals with_reducible repeat' (first
      | assumption | apply calm_ldMailbox | apply calm_mbox | apply calm_id | apply calm_foldl | apply calm_foldr | apply calm_ite
      | split | intro _ | dsimp only)

theorem calm_execGetEventRecords {s₀ : State} {a1 : Mailbox} {s : State} {t : State} (e : execGetEventRecords a1 s = .next t) (h2 : Calm s₀ s) : Calm s₀ t := by
  unfold execGetEventRecords at e
  try dsimp only at e
  first
  | refine calm_act e (by assumption) ?_
  | (injection e with e; subst e)
  | (revert e; repeat' (split); all_goals (intro e; injection e with e; subst e))
  all_goals with_reducible repeat' (first
      | assumption | apply calm_mbox | apply calm_id | apply calm_foldl | apply calm_foldr | apply calm_ite | split | intro _
      | dsimp only)

theorem calm_execClearEventRecords {s₀ : State} {a1 : Mailbox} {a2 : List Nat} {s : State} {t : State} (e : execClearEventRecords a1 a2 s = .next t) (h3 : Calm s₀ s) : Calm s₀ t := by
  unfold execClearEventRecords at e
  try dsimp only at e
  first
  | refine calm_act e (by assumption) ?_
  | (injection e with e; subst e)
  | (revert e; repeat' (split); all_goals (intro e; injection e with e; subst e))
  all_goals with_reducible repeat' (first
      | assumption | apply calm_mbox | apply calm_modLd | apply calm_id | apply calm_foldl | apply calm_foldr | apply calm_ite
      | split | intro _ | dsimp only)

theorem calm_execGetEventInterruptPolicy {s₀ : State} {a1 : Mailbox} {s : State} {t : State} (e : execGetEventInterruptPolicy a1 s = .next t) (h2 : Calm s₀ s) : Calm s₀ t := by
  unfold execGetEventInterruptPolicy at e
  try dsimp only at e
  first
  | refine calm_act e (by assumption) ?_
  | (injection e with e; subst e)
  | (revert e; repeat' (split); all_goals (intro e; injection e with e; subst e))
  all_goals with_reducible repeat' (first
      | assumption | apply calm_ldMailbox | apply calm_mbox | apply calm_id | apply calm_foldl | apply calm_foldr | apply calm_ite
      | split | intro _ | dsimp only)

theorem calm_execSetEventInterruptPolicy {s₀ : State} {a1 : Mailbox} {a2 : Bool} {s : State} {t : State} (e : execSetEventInterruptPolicy a1 a2 s = .next t) (h3 : Calm s₀ s) : Calm s₀ t := by
  unfold execSetEventInterruptPolicy at e
  try dsimp only at e
  first
  | refine calm_act e (by assumption) ?_
  | (injection e with e; subst e)
  | (revert e; repeat' (split); all_goals (intro e; injection e with e; subst e))
  all_goals with_reducible repeat' (first
      | assumption | apply calm_ldMailbox | apply calm_mbox | apply calm_modLd | apply calm_id | apply calm_foldl
      | apply calm_foldr | apply calm_ite | split | intro _ | dsimp only)

theorem calm_execGetDynamicCapacityConfig {s₀ : State} {a1 : Mailbox} {s : State} {t : State} (e : execGetDynamicCapacityConfig a1 s = .next t) (h2 : Calm s₀ s) : Calm s₀ t := by
  unfold execGetDynamicCapacityConfig at e
  try dsimp only at e
  first
  | refine calm_act e (by assumption) ?_
  | (injection e with e; subst e)
  | (revert e; repeat' (split); all_goals (intro e; injection e with e; subst e))
  all_goals with_reducible repeat' (first
      | assumption | apply calm_ldMailbox | apply calm_mbox | apply calm_id | apply calm_foldl | apply calm_foldr | apply calm_ite
      | split | intro _ | dsimp only)

theorem calm_execGetDynamicCapacityExtentList {s₀ : State} {a1 : Mailbox} {s : State} {t : State} (e : execGetDynamicCapacityExtentList a1 s = .next t) (h2 : Calm s₀ s) : Calm s₀ t := by
  unfold execGetDynamicCapacityExtentList at e
  try dsimp only at e
  first
  | refine calm_act e (by assumption) ?_
  | (injection e with e; subst e)
  | (revert e; repeat' (split); all_goals (intro e; injection e with e; subst e))
  all_goals with_reducible repeat' (first
      | assumption | apply calm_ldMailbox | apply calm_mbox | apply calm_id | apply calm_foldl | apply calm_foldr | apply calm_ite
      | split | intro _ | dsimp only)

theorem calm_execAddDynamicCapacityResponse {s₀ : State} {a1 : Mailbox} {a2 : List Range} {s : State} {t : State} (e : execAddDynamicCapacityResponse a1 a2 s = .next t) (h3 : Calm s₀ s) : Calm s₀ t := by
  unfold execAddDynamicCapacityResponse at e
  try dsimp only at e
  first
  | refine calm_act e (by assumption) ?_
  | (injection e with e; subst e)
  | (revert e; repeat' (split); all_goals (intro e; injection e with e; subst e))
  all_goals with_reducible repeat' (first
      | assumption | apply calm_ldMailbox | apply calm_mbox | apply calm_cause | apply calm_id | apply calm_foldl
      | apply calm_foldr | apply calm_ite | split | intro _ | dsimp only | refine calm_mk ?_ rfl rfl)

theorem calm_execReleaseDynamicCapacity {s₀ : State} {a1 : Mailbox} {a2 : List Range} {s : State} {t : State} (e : execReleaseDynamicCapacity a1 a2 s = .next t) (h3 : Calm s₀ s) : Calm s₀ t := by
  unfold execReleaseDynamicCapacity at e
  try dsimp only at e
  first
  | refine calm_act e (by assumption) ?_
  | (injection e with e; subst e)
  | (revert e; repeat' (split); all_goals (intro e; injection e with e; subst e))
  all_goals with_reducible repeat' (first
      | assumption | apply calm_ldMailbox | apply calm_releasePoint | apply calm_mbox | apply calm_id | apply calm_foldl
      | apply calm_foldr | apply calm_ite | split | intro _ | dsimp only)

theorem calm_execInjectPoison {s₀ : State} {a1 : Mailbox} {a2 : BitVec 64} {s : State} {t : State} (e : execInjectPoison a1 a2 s = .next t) (h3 : Calm s₀ s) : Calm s₀ t := by
  unfold execInjectPoison at e
  try dsimp only at e
  first
  | refine calm_act e (by assumption) ?_
  | (injection e with e; subst e)
  | (revert e; repeat' (split); all_goals (intro e; injection e with e; subst e))
  all_goals with_reducible repeat' (first
      | assumption | apply calm_ldMailbox | apply calm_mbox | apply calm_setT1Poison | apply calm_id | apply calm_foldl
      | apply calm_foldr | apply calm_ite | split | intro _ | dsimp only)

theorem calm_execClearPoison {s₀ : State} {a1 : Mailbox} {a2 : BitVec 64} {a3 : Line} {s : State} {t : State} (e : execClearPoison a1 a2 a3 s = .next t) (h4 : Calm s₀ s) : Calm s₀ t := by
  unfold execClearPoison at e
  try dsimp only at e
  first
  | refine calm_act e (by assumption) ?_
  | (injection e with e; subst e)
  | (revert e; repeat' (split); all_goals (intro e; injection e with e; subst e))
  all_goals with_reducible repeat' (first
      | assumption | apply calm_ldMailbox | apply calm_mbox | apply calm_request | apply calm_id | apply calm_foldl
      | apply calm_foldr | apply calm_ite | split | intro _ | dsimp only)

theorem calm_execGetLdInfo {s₀ : State} {a1 : Mailbox} {s : State} {t : State} (e : execGetLdInfo a1 s = .next t) (h2 : Calm s₀ s) : Calm s₀ t := by
  unfold execGetLdInfo at e
  try dsimp only at e
  first
  | refine calm_act e (by assumption) ?_
  | (injection e with e; subst e)
  | (revert e; repeat' (split); all_goals (intro e; injection e with e; subst e))
  all_goals with_reducible repeat' (first
      | assumption | apply calm_fmMailbox | apply calm_mbox | apply calm_id | apply calm_foldl | apply calm_foldr | apply calm_ite
      | split | intro _ | dsimp only)

theorem calm_execGetLdAllocations {s₀ : State} {a1 : Mailbox} {s : State} {t : State} (e : execGetLdAllocations a1 s = .next t) (h2 : Calm s₀ s) : Calm s₀ t := by
  unfold execGetLdAllocations at e
  try dsimp only at e
  first
  | refine calm_act e (by assumption) ?_
  | (injection e with e; subst e)
  | (revert e; repeat' (split); all_goals (intro e; injection e with e; subst e))
  all_goals with_reducible repeat' (first
      | assumption | apply calm_fmMailbox | apply calm_mbox | apply calm_id | apply calm_foldl | apply calm_foldr | apply calm_ite
      | split | intro _ | dsimp only)

theorem calm_execSetLdAllocations {s₀ : State} {a1 : Mailbox} {s : State} {t : State} (e : execSetLdAllocations a1 s = .next t) (h2 : Calm s₀ s) : Calm s₀ t := by
  unfold execSetLdAllocations at e
  try dsimp only at e
  first
  | refine calm_act e (by assumption) ?_
  | (injection e with e; subst e)
  | (revert e; repeat' (split); all_goals (intro e; injection e with e; subst e))
  all_goals with_reducible repeat' (first
      | assumption | apply calm_mbox | apply calm_id | apply calm_foldl | apply calm_foldr | apply calm_ite | split | intro _
      | dsimp only)

theorem calm_execGetDcRegionConfiguration {s₀ : State} {a1 : Mailbox} {a2 : Fin 32} {s : State} {t : State} (e : execGetDcRegionConfiguration a1 a2 s = .next t) (h3 : Calm s₀ s) : Calm s₀ t := by
  unfold execGetDcRegionConfiguration at e
  try dsimp only at e
  first
  | refine calm_act e (by assumption) ?_
  | (injection e with e; subst e)
  | (revert e; repeat' (split); all_goals (intro e; injection e with e; subst e))
  all_goals with_reducible repeat' (first
      | assumption | apply calm_fmMailbox | apply calm_mbox | apply calm_id | apply calm_foldl | apply calm_foldr | apply calm_ite
      | split | intro _ | dsimp only)

theorem calm_execGetDcRegionExtentLists {s₀ : State} {a1 : Mailbox} {a2 : Fin 32} {s : State} {t : State} (e : execGetDcRegionExtentLists a1 a2 s = .next t) (h3 : Calm s₀ s) : Calm s₀ t := by
  unfold execGetDcRegionExtentLists at e
  try dsimp only at e
  first
  | refine calm_act e (by assumption) ?_
  | (injection e with e; subst e)
  | (revert e; repeat' (split); all_goals (intro e; injection e with e; subst e))
  all_goals with_reducible repeat' (first
      | assumption | apply calm_fmMailbox | apply calm_mbox | apply calm_id | apply calm_foldl | apply calm_foldr | apply calm_ite
      | split | intro _ | dsimp only)

theorem calm_execInitiateDynamicCapacityAdd {s₀ : State} {a1 : Mailbox} {a2 : Fin 32} {a3 : List Range} {s : State} {t : State} (e : execInitiateDynamicCapacityAdd a1 a2 a3 s = .next t) (h4 : Calm s₀ s) : Calm s₀ t := by
  unfold execInitiateDynamicCapacityAdd at e
  try dsimp only at e
  first
  | refine calm_act e (by assumption) ?_
  | (injection e with e; subst e)
  | (revert e; repeat' (split); all_goals (intro e; injection e with e; subst e))
  all_goals with_reducible repeat' (first
      | assumption | apply calm_fmMailbox | apply calm_mbox | apply calm_addRange | apply calm_id | apply calm_foldl
      | apply calm_foldr | apply calm_ite | split | intro _ | dsimp only)

theorem calm_execInitiateDynamicCapacityRelease {s₀ : State} {a1 : Mailbox} {a2 : Fin 32} {a3 : List Range} {a4 : Bool} {s : State} {t : State} (e : execInitiateDynamicCapacityRelease a1 a2 a3 a4 s = .next t) (h5 : Calm s₀ s) : Calm s₀ t := by
  unfold execInitiateDynamicCapacityRelease at e
  try dsimp only at e
  first
  | refine calm_act e (by assumption) ?_
  | (injection e with e; subst e)
  | (revert e; repeat' (split); all_goals (intro e; injection e with e; subst e))
  all_goals with_reducible repeat' (first
      | assumption | apply calm_fmMailbox | apply calm_mbox | apply calm_offerRelease | apply calm_eventRecord
      | apply calm_releasePoint | apply calm_id | apply calm_foldl | apply calm_foldr | apply calm_ite | split | intro _
      | dsimp only)

theorem calm_execUnsupportedMailboxCommand {s₀ : State} {a1 : Mailbox} {a2 : BitVec 16} {s : State} {t : State} (e : execUnsupportedMailboxCommand a1 a2 s = .next t) (h3 : Calm s₀ s) : Calm s₀ t := by
  unfold execUnsupportedMailboxCommand at e
  try dsimp only at e
  first
  | refine calm_act e (by assumption) ?_
  | (injection e with e; subst e)
  | (revert e; repeat' (split); all_goals (intro e; injection e with e; subst e))
  all_goals with_reducible repeat' (first
      | assumption | apply calm_mbox | apply calm_id | apply calm_foldl | apply calm_foldr | apply calm_ite | split | intro _
      | dsimp only)

theorem calm_execArpRequest {s₀ : State} {a1 : Fin 2} {a2 : Word} {a3 : Word} {s : State} {t : State} (e : execArpRequest a1 a2 a3 s = .next t) (h4 : Calm s₀ s) : Calm s₀ t := by
  unfold execArpRequest at e
  try dsimp only at e
  first
  | refine calm_act e (by assumption) ?_
  | (injection e with e; subst e)
  | (revert e; repeat' (split); all_goals (intro e; injection e with e; subst e))
  all_goals with_reducible repeat' (first
      | assumption | apply calm_emit | apply calm_id | apply calm_foldl | apply calm_foldr | apply calm_ite | split | intro _
      | dsimp only)

theorem calm_execIcmpEcho {s₀ : State} {a1 : Fin 2} {a2 : Word} {a3 : Word} {a4 : List Byte} {s : State} {t : State} (e : execIcmpEcho a1 a2 a3 a4 s = .next t) (h5 : Calm s₀ s) : Calm s₀ t := by
  unfold execIcmpEcho at e
  try dsimp only at e
  first
  | refine calm_act e (by assumption) ?_
  | (injection e with e; subst e)
  | (revert e; repeat' (split); all_goals (intro e; injection e with e; subst e))
  all_goals with_reducible repeat' (first
      | assumption | apply calm_emit | apply calm_id | apply calm_foldl | apply calm_foldr | apply calm_ite | split | intro _
      | dsimp only)

theorem calm_execSetDasa {s₀ : State} {a1 : BitVec 7} {a2 : BitVec 7} {s : State} {t : State} (e : execSetDasa a1 a2 s = .next t) (h3 : Calm s₀ s) : Calm s₀ t := by
  unfold execSetDasa at e
  try dsimp only at e
  first
  | refine calm_act e (by assumption) ?_
  | (injection e with e; subst e)
  | (revert e; repeat' (split); all_goals (intro e; injection e with e; subst e))
  all_goals with_reducible repeat' (first
      | assumption | apply calm_takeAddress | apply calm_id | apply calm_foldl | apply calm_foldr | apply calm_ite | split
      | intro _ | dsimp only)

theorem calm_execEntDaa {s₀ : State} {a1 : BitVec 7} {s : State} {t : State} (e : execEntDaa a1 s = .next t) (h2 : Calm s₀ s) : Calm s₀ t := by
  unfold execEntDaa at e
  try dsimp only at e
  first
  | refine calm_act e (by assumption) ?_
  | (injection e with e; subst e)
  | (revert e; repeat' (split); all_goals (intro e; injection e with e; subst e))
  all_goals with_reducible repeat' (first
      | assumption | apply calm_takeAddress | apply calm_id | apply calm_foldl | apply calm_foldr | apply calm_ite | split
      | intro _ | dsimp only)

theorem calm_execSetEndpointId {s₀ : State} {a1 : BitVec 8} {s : State} {t : State} (e : execSetEndpointId a1 s = .next t) (h2 : Calm s₀ s) : Calm s₀ t := by
  unfold execSetEndpointId at e
  try dsimp only at e
  first
  | refine calm_act e (by assumption) ?_
  | (injection e with e; subst e)
  | (revert e; repeat' (split); all_goals (intro e; injection e with e; subst e))
  all_goals with_reducible repeat' (first
      | assumption | apply calm_emit | apply calm_setRegF | apply calm_id | apply calm_foldl | apply calm_foldr | apply calm_ite
      | split | intro _ | dsimp only)

theorem calm_execGetEndpointId {s₀ : State} {s : State} {t : State} (e : execGetEndpointId s = .next t) (h1 : Calm s₀ s) : Calm s₀ t := by
  unfold execGetEndpointId at e
  try dsimp only at e
  first
  | refine calm_act e (by assumption) ?_
  | (injection e with e; subst e)
  | (revert e; repeat' (split); all_goals (intro e; injection e with e; subst e))
  all_goals with_reducible repeat' (first
      | assumption | apply calm_emit | apply calm_id | apply calm_foldl | apply calm_foldr | apply calm_ite | split | intro _
      | dsimp only)

theorem calm_execGetVersionSupport {s₀ : State} {a1 : BitVec 8} {s : State} {t : State} (e : execGetVersionSupport a1 s = .next t) (h2 : Calm s₀ s) : Calm s₀ t := by
  unfold execGetVersionSupport at e
  try dsimp only at e
  first
  | refine calm_act e (by assumption) ?_
  | (injection e with e; subst e)
  | (revert e; repeat' (split); all_goals (intro e; injection e with e; subst e))
  all_goals with_reducible repeat' (first
      | assumption | apply calm_emit | apply calm_id | apply calm_foldl | apply calm_foldr | apply calm_ite | split | intro _
      | dsimp only)

theorem calm_execGetMessageTypeSupport {s₀ : State} {s : State} {t : State} (e : execGetMessageTypeSupport s = .next t) (h1 : Calm s₀ s) : Calm s₀ t := by
  unfold execGetMessageTypeSupport at e
  try dsimp only at e
  first
  | refine calm_act e (by assumption) ?_
  | (injection e with e; subst e)
  | (revert e; repeat' (split); all_goals (intro e; injection e with e; subst e))
  all_goals with_reducible repeat' (first
      | assumption | apply calm_emit | apply calm_id | apply calm_foldl | apply calm_foldr | apply calm_ite | split | intro _
      | dsimp only)

theorem calm_execBwWindowEnd {s₀ : State} {a1 : Fin 10} {s : State} {t : State} (e : execBwWindowEnd a1 s = .next t) (h2 : Calm s₀ s) : Calm s₀ t := by
  unfold execBwWindowEnd at e
  try dsimp only at e
  first
  | refine calm_act e (by assumption) ?_
  | (injection e with e; subst e)
  | (revert e; repeat' (split); all_goals (intro e; injection e with e; subst e))
  all_goals with_reducible repeat' (first
      | assumption | apply calm_modScaler | apply calm_setRegN | apply calm_id | apply calm_foldl | apply calm_foldr
      | apply calm_ite | split | intro _ | dsimp only)

theorem calm_execTallyTrained {s₀ : State} {a1 : Fin 6} {a2 : Fin 16} {s : State} {t : State} (e : execTallyTrained a1 a2 s = .next t) (h3 : Calm s₀ s) : Calm s₀ t := by
  unfold execTallyTrained at e
  try dsimp only at e
  first
  | refine calm_act e (by assumption) ?_
  | (injection e with e; subst e)
  | (revert e; repeat' (split); all_goals (intro e; injection e with e; subst e))
  all_goals with_reducible repeat' (first
      | assumption | apply calm_modTally | apply calm_id | apply calm_foldl | apply calm_foldr | apply calm_ite | split | intro _
      | dsimp only)

theorem calm_execTallyTrainTimeout {s₀ : State} {a1 : Fin 6} {a2 : Fin 16} {s : State} {t : State} (e : execTallyTrainTimeout a1 a2 s = .next t) (h3 : Calm s₀ s) : Calm s₀ t := by
  unfold execTallyTrainTimeout at e
  try dsimp only at e
  first
  | refine calm_act e (by assumption) ?_
  | (injection e with e; subst e)
  | (revert e; repeat' (split); all_goals (intro e; injection e with e; subst e))
  all_goals with_reducible repeat' (first
      | assumption | apply calm_tallyEnd | apply calm_id | apply calm_foldl | apply calm_foldr | apply calm_ite | split | intro _
      | dsimp only)

theorem calm_execTallyDurationEnd {s₀ : State} {a1 : Fin 6} {a2 : Fin 16} {a3 : List LaneCount} {a4 : BitVec 64} {a5 : Word} {s : State} {t : State} (e : execTallyDurationEnd a1 a2 a3 a4 a5 s = .next t) (h6 : Calm s₀ s) : Calm s₀ t := by
  unfold execTallyDurationEnd at e
  try dsimp only at e
  first
  | refine calm_act e (by assumption) ?_
  | (injection e with e; subst e)
  | (revert e; repeat' (split); all_goals (intro e; injection e with e; subst e))
  all_goals with_reducible repeat' (first
      | assumption | apply calm_tallyEnd | apply calm_modTally | apply calm_id | apply calm_foldl | apply calm_foldr
      | apply calm_ite | split | intro _ | dsimp only)

theorem calm_execTallyLockLost {s₀ : State} {a1 : Fin 6} {a2 : Fin 16} {a3 : Fin 2048} {s : State} {t : State} (e : execTallyLockLost a1 a2 a3 s = .next t) (h4 : Calm s₀ s) : Calm s₀ t := by
  unfold execTallyLockLost at e
  try dsimp only at e
  first
  | refine calm_act e (by assumption) ?_
  | (injection e with e; subst e)
  | (revert e; repeat' (split); all_goals (intro e; injection e with e; subst e))
  all_goals with_reducible repeat' (first
      | assumption | apply calm_cause | apply calm_modTally | apply calm_id | apply calm_foldl | apply calm_foldr | apply calm_ite
      | split | intro _ | dsimp only)

theorem calm_execEyeScanDone {s₀ : State} {a1 : Fin 6} {a2 : Fin 16} {a3 : List (BitVec 64)} {a4 : BitVec 8} {s : State} {t : State} (e : execEyeScanDone a1 a2 a3 a4 s = .next t) (h5 : Calm s₀ s) : Calm s₀ t := by
  unfold execEyeScanDone at e
  try dsimp only at e
  first
  | refine calm_act e (by assumption) ?_
  | (injection e with e; subst e)
  | (revert e; repeat' (split); all_goals (intro e; injection e with e; subst e))
  all_goals with_reducible repeat' (first
      | assumption | apply calm_cause | apply calm_modTally | apply calm_id | apply calm_foldl | apply calm_foldr | apply calm_ite
      | split | intro _ | dsimp only)

theorem calm_execCxlLinkUp {s₀ : State} {a1 : Fin 2} {a2 : Fin 16} {a3 : Bool} {s : State} {t : State} (e : execCxlLinkUp a1 a2 a3 s = .next t) (h4 : Calm s₀ s) : Calm s₀ t := by
  unfold execCxlLinkUp at e
  try dsimp only at e
  first
  | refine calm_act e (by assumption) ?_
  | (injection e with e; subst e)
  | (revert e; repeat' (split); all_goals (intro e; injection e with e; subst e))
  all_goals with_reducible repeat' (first
      | assumption | apply calm_cause | apply calm_setRegF | apply calm_id | apply calm_foldl | apply calm_foldr | apply calm_ite
      | split | intro _ | dsimp only)

theorem calm_execLoftEraseDone {s₀ : State} {a1 : Nat} {a2 : Option (Fin 17)} {s : State} {t : State} (e : execLoftEraseDone a1 a2 s = .next t) (h3 : Calm s₀ s) : Calm s₀ t := by
  unfold execLoftEraseDone at e
  try dsimp only at e
  first
  | refine calm_act e (by assumption) ?_
  | (injection e with e; subst e)
  | (revert e; repeat' (split); all_goals (intro e; injection e with e; subst e))
  all_goals with_reducible repeat' (first
      | assumption | apply calm_modLoft | apply calm_showRebuild | apply calm_retireBlock | apply calm_channelAnswers
      | apply calm_modSuper | apply calm_collect | apply calm_wornOut | apply calm_id | apply calm_foldl | apply calm_foldr
      | apply calm_ite | split | intro _ | dsimp only)

theorem calm_execLoftChannelRetrained {s₀ : State} {a1 : Fin 18} {a2 : Bool} {s : State} {t : State} (e : execLoftChannelRetrained a1 a2 s = .next t) (h3 : Calm s₀ s) : Calm s₀ t := by
  unfold execLoftChannelRetrained at e
  try dsimp only at e
  first
  | refine calm_act e (by assumption) ?_
  | (injection e with e; subst e)
  | (revert e; repeat' (split); all_goals (intro e; injection e with e; subst e))
  all_goals with_reducible repeat' (first
      | assumption | apply calm_setRegF | apply calm_channelDead | apply calm_id | apply calm_foldl | apply calm_foldr
      | apply calm_ite | split | intro _ | dsimp only)

theorem calm_execTallyLaneLock {s₀ : State} {a1 : Fin 6} {a2 : Fin 16} {a3 : LaneCount} {a4 : BitVec 64} {a5 : Word} {s : State} {t : State} (e : execTallyLaneLock a1 a2 a3 a4 a5 s = .next t) (h6 : Calm s₀ s) : Calm s₀ t := by
  unfold execTallyLaneLock at e
  try dsimp only at e
  first
  | refine calm_act e (by assumption) ?_
  | (injection e with e; subst e)
  | (revert e; repeat' (split); all_goals (intro e; injection e with e; subst e))
  all_goals with_reducible repeat' (first
      | assumption | apply calm_modTally | apply calm_id | apply calm_foldl | apply calm_foldr | apply calm_ite | split | intro _
      | dsimp only)

theorem calm_execStandbyDone {s₀ : State} {s : State} {t : State} (e : execStandbyDone s = .next t) (h1 : Calm s₀ s) : Calm s₀ t := by
  unfold execStandbyDone at e
  try dsimp only at e
  first
  | refine calm_act e (by assumption) ?_
  | (injection e with e; subst e)
  | (revert e; repeat' (split); all_goals (intro e; injection e with e; subst e))
  all_goals with_reducible repeat' (first
      | assumption | apply calm_gateAll | apply calm_setRegF | apply calm_setSleep | apply calm_id | apply calm_foldl
      | apply calm_foldr | apply calm_ite | split | intro _ | dsimp only)

theorem calm_execCxlConfigRequest {s₀ : State} {a1 : Fin 2} {s : State} {t : State} (e : execCxlConfigRequest a1 s = .next t) (h2 : Calm s₀ s) : Calm s₀ t := by
  unfold execCxlConfigRequest at e
  try dsimp only at e
  first
  | refine calm_act e (by assumption) ?_
  | (injection e with e; subst e)
  | (revert e; repeat' (split); all_goals (intro e; injection e with e; subst e))
  all_goals with_reducible repeat' (first
      | assumption | apply calm_emit | apply calm_count | apply calm_id | apply calm_foldl | apply calm_foldr | apply calm_ite
      | split | intro _ | dsimp only)

theorem calm_execManagementLinkChange {s₀ : State} {a1 : Fin 2} {a2 : Bool} {s : State} {t : State} (e : execManagementLinkChange a1 a2 s = .next t) (h3 : Calm s₀ s) : Calm s₀ t := by
  unfold execManagementLinkChange at e
  try dsimp only at e
  first
  | refine calm_act e (by assumption) ?_
  | (injection e with e; subst e)
  | (revert e; repeat' (split); all_goals (intro e; injection e with e; subst e))
  all_goals with_reducible repeat' (first
      | assumption | apply calm_setRegF | apply calm_id | apply calm_foldl | apply calm_foldr | apply calm_ite | split | intro _
      | dsimp only)

theorem calm_execManagementFrameDrop {s₀ : State} {a1 : Fin 2} {s : State} {t : State} (e : execManagementFrameDrop a1 s = .next t) (h2 : Calm s₀ s) : Calm s₀ t := by
  unfold execManagementFrameDrop at e
  try dsimp only at e
  first
  | refine calm_act e (by assumption) ?_
  | (injection e with e; subst e)
  | (revert e; repeat' (split); all_goals (intro e; injection e with e; subst e))
  all_goals with_reducible repeat' (first
      | assumption | apply calm_count | apply calm_id | apply calm_foldl | apply calm_foldr | apply calm_ite | split | intro _
      | dsimp only)

end Sys2Proof.Machine
end

