-- ==== Sys2Proof/Laws/Ops.lean ====
section
/-! SUPPORT. The shared operations every command goes through: acting while the part runs, and a register access by a requester that may make it. -/

namespace Sys2Proof.Machine

/-- While the part runs, a command has its effect. -/
theorem act_run {s : State} {f : State → State} (h : s.stopped = false) : act s f = .next (f s) := by
  simp [act, h]

/-- Once the part has stopped, it has none. -/
theorem act_stopped {s : State} {f : State → State} (h : s.stopped = true) : act s f = .next s := by
  simp [act, h]

/-- A write by a requester that may make it. -/
theorem access_run {s : State} {rq : Requester} {a : Nat} {f : State → State} (h : s.writes rq a = true) : s.access rq a f = f s := by
  simp [State.access, h]

/-- A write by one that may not is a violation and nothing else. -/
theorem access_denied {s : State} {rq : Requester} {a : Nat} {f : State → State} (h : s.writes rq a = false) :
    s.access rq a f = s.violateReg rq true a := by
  simp [State.access, h]

/-- A command that acts through `f` completes with what `f` leaves. -/
theorem completes_act {c : Instr} {s : State} {P : State → Prop} {f : State → State} (e : Sys2Proof.Machine.exec c s = act s f)
    (h : P (f s)) : Completes c s P := fun r => ⟨f s, e.trans (act_run r), h⟩

/-- So does one that writes a register its requester may write. -/
theorem completes_access {c : Instr} {s : State} {P : State → Prop} {f : State → State} {rq : Requester} {a : Nat}
    (e : Sys2Proof.Machine.exec c s = act s (fun s => s.access rq a f)) (w : s.writes rq a = true) (h : P (f s)) : Completes c s P :=
  completes_act e (by rw [access_run w]; exact h)

end Sys2Proof.Machine
end

