-- ==== Sys2Proof/Laws/Ctl.lean ====
section
/-! SUPPORT. Setting a cause bit and sending the messages of the interrupt tree (R431), and a plain register write (R7): what each leaves
unchanged, and what the register then holds. -/

namespace Sys2Proof.Machine

/-! ### notify -/

/-- All the interrupt tree does of itself is to send messages, or to mark them pending. -/
theorem State.message_form (s : State) (i : Nat) : ∃ l o, s.message i = { s with lds := l, out := o } := by
  unfold State.message
  split
  · exact ⟨_, s.out, rfl⟩
  · exact ⟨s.lds, _, rfl⟩

theorem State.notify_form (old s : State) (w : Bool) (p : Option Nat) : ∃ l o, State.notify old s w p = { s with lds := l, out := o } := by
  have two : ∀ y : State, (∃ l o, y = { s with lds := l, out := o }) → ∃ l o, (y.message 32).message 33 = { s with lds := l, out := o } := by
    intro y hy
    obtain ⟨l, o, h⟩ := hy
    obtain ⟨l1, o1, h1⟩ := State.message_form y 32
    obtain ⟨l2, o2, h2⟩ := State.message_form (y.message 32) 33
    exact ⟨l2, o2, by rw [h2, h1, h]⟩
  have one : ∃ l o, (match p with
      | some p => if s.partSummary p ≠ 0 ∧ (w ∨ old.partSummary p = 0) then s.message p else s
      | none => s) = { s with lds := l, out := o } := by
    split
    · split
      · exact State.message_form s _
      · exact ⟨s.lds, s.out, rfl⟩
    · exact ⟨s.lds, s.out, rfl⟩
  unfold State.notify
  dsimp only
  split
  · exact two _ one
  · exact one

@[simp] theorem State.notify_regs (old s : State) (w : Bool) (p : Option Nat) : (State.notify old s w p).regs = s.regs := by
  obtain ⟨l, o, h⟩ := State.notify_form old s w p; rw [h]
@[simp] theorem State.notify_latch (old s : State) (w : Bool) (p : Option Nat) : (State.notify old s w p).latch = s.latch := by
  obtain ⟨l, o, h⟩ := State.notify_form old s w p; rw [h]
@[simp] theorem State.notify_held (old s : State) (w : Bool) (p : Option Nat) : (State.notify old s w p).held = s.held := by
  obtain ⟨l, o, h⟩ := State.notify_form old s w p; rw [h]
@[simp] theorem State.notify_lcc (old s : State) (w : Bool) (p : Option Nat) : (State.notify old s w p).lcc = s.lcc := by
  obtain ⟨l, o, h⟩ := State.notify_form old s w p; rw [h]
@[simp] theorem State.notify_fresh (old s : State) (w : Bool) (p : Option Nat) : (State.notify old s w p).fresh = s.fresh := by
  obtain ⟨l, o, h⟩ := State.notify_form old s w p; rw [h]
@[simp] theorem State.notify_stopped (old s : State) (w : Bool) (p : Option Nat) : (State.notify old s w p).stopped = s.stopped := by
  obtain ⟨l, o, h⟩ := State.notify_form old s w p; rw [h]
@[simp] theorem State.notify_t1 (old s : State) (w : Bool) (p : Option Nat) : (State.notify old s w p).t1 = s.t1 := by
  obtain ⟨l, o, h⟩ := State.notify_form old s w p; rw [h]
@[simp] theorem State.notify_t0 (old s : State) (w : Bool) (p : Option Nat) : (State.notify old s w p).t0 = s.t0 := by
  obtain ⟨l, o, h⟩ := State.notify_form old s w p; rw [h]
@[simp] theorem State.notify_parts (old s : State) (w : Bool) (p : Option Nat) : (State.notify old s w p).parts = s.parts := by
  obtain ⟨l, o, h⟩ := State.notify_form old s w p; rw [h]
@[simp] theorem State.notify_fab (old s : State) (w : Bool) (p : Option Nat) : (State.notify old s w p).fab = s.fab := by
  obtain ⟨l, o, h⟩ := State.notify_form old s w p; rw [h]
@[simp] theorem State.notify_errs (old s : State) (w : Bool) (p : Option Nat) : (State.notify old s w p).errs = s.errs := by
  obtain ⟨l, o, h⟩ := State.notify_form old s w p; rw [h]
@[simp] theorem State.notify_ft (old s : State) (w : Bool) (p : Option Nat) : (State.notify old s w p).ft = s.ft := by
  obtain ⟨l, o, h⟩ := State.notify_form old s w p; rw [h]
@[simp] theorem State.notify_loft (old s : State) (w : Bool) (p : Option Nat) : (State.notify old s w p).loft = s.loft := by
  obtain ⟨l, o, h⟩ := State.notify_form old s w p; rw [h]
@[simp] theorem State.notify_xlt (old s : State) (w : Bool) (p : Option Nat) : (State.notify old s w p).xlt = s.xlt := by
  obtain ⟨l, o, h⟩ := State.notify_form old s w p; rw [h]
@[simp] theorem State.notify_homes (old s : State) (w : Bool) (p : Option Nat) : (State.notify old s w p).homes = s.homes := by
  obtain ⟨l, o, h⟩ := State.notify_form old s w p; rw [h]
@[simp] theorem State.notify_mirrors (old s : State) (w : Bool) (p : Option Nat) : (State.notify old s w p).mirrors = s.mirrors := by
  obtain ⟨l, o, h⟩ := State.notify_form old s w p; rw [h]
@[simp] theorem State.notify_sync (old s : State) (w : Bool) (p : Option Nat) : (State.notify old s w p).sync = s.sync := by
  obtain ⟨l, o, h⟩ := State.notify_form old s w p; rw [h]
@[simp] theorem State.notify_extents (old s : State) (w : Bool) (p : Option Nat) : (State.notify old s w p).extents = s.extents := by
  obtain ⟨l, o, h⟩ := State.notify_form old s w p; rw [h]
@[simp] theorem State.notify_mgmt (old s : State) (w : Bool) (p : Option Nat) : (State.notify old s w p).mgmt = s.mgmt := by
  obtain ⟨l, o, h⟩ := State.notify_form old s w p; rw [h]
@[simp] theorem State.notify_netAddr (old s : State) (w : Bool) (p : Option Nat) : (State.notify old s w p).netAddr = s.netAddr := by
  obtain ⟨l, o, h⟩ := State.notify_form old s w p; rw [h]
@[simp] theorem State.notify_fifoSeq (old s : State) (w : Bool) (p : Option Nat) : (State.notify old s w p).fifoSeq = s.fifoSeq := by
  obtain ⟨l, o, h⟩ := State.notify_form old s w p; rw [h]
@[simp] theorem State.notify_scalers (old s : State) (w : Bool) (p : Option Nat) : (State.notify old s w p).scalers = s.scalers := by
  obtain ⟨l, o, h⟩ := State.notify_form old s w p; rw [h]
@[simp] theorem State.notify_tally (old s : State) (w : Bool) (p : Option Nat) : (State.notify old s w p).tally = s.tally := by
  obtain ⟨l, o, h⟩ := State.notify_form old s w p; rw [h]
@[simp] theorem State.notify_engines (old s : State) (w : Bool) (p : Option Nat) : (State.notify old s w p).engines = s.engines := by
  obtain ⟨l, o, h⟩ := State.notify_form old s w p; rw [h]
@[simp] theorem State.notify_marks (old s : State) (w : Bool) (p : Option Nat) : (State.notify old s w p).marks = s.marks := by
  obtain ⟨l, o, h⟩ := State.notify_form old s w p; rw [h]
@[simp] theorem State.notify_quarRecord (old s : State) (w : Bool) (p : Option Nat) : (State.notify old s w p).quarRecord = s.quarRecord := by
  obtain ⟨l, o, h⟩ := State.notify_form old s w p; rw [h]
@[simp] theorem State.notify_cores (old s : State) (w : Bool) (p : Option Nat) : (State.notify old s w p).cores = s.cores := by
  obtain ⟨l, o, h⟩ := State.notify_form old s w p; rw [h]
@[simp] theorem State.notify_resv (old s : State) (w : Bool) (p : Option Nat) : (State.notify old s w p).resv = s.resv := by
  obtain ⟨l, o, h⟩ := State.notify_form old s w p; rw [h]
@[simp] theorem State.notify_power (old s : State) (w : Bool) (p : Option Nat) : (State.notify old s w p).power = s.power := by
  obtain ⟨l, o, h⟩ := State.notify_form old s w p; rw [h]
@[simp] theorem State.notify_fuses (old s : State) (w : Bool) (p : Option Nat) : (State.notify old s w p).fuses = s.fuses := by
  obtain ⟨l, o, h⟩ := State.notify_form old s w p; rw [h]
@[simp] theorem State.notify_boot (old s : State) (w : Bool) (p : Option Nat) : (State.notify old s w p).boot = s.boot := by
  obtain ⟨l, o, h⟩ := State.notify_form old s w p; rw [h]
@[simp] theorem State.notify_cribs (old s : State) (w : Bool) (p : Option Nat) : (State.notify old s w p).cribs = s.cribs := by
  obtain ⟨l, o, h⟩ := State.notify_form old s w p; rw [h]
@[simp] theorem State.notify_cribGen (old s : State) (w : Bool) (p : Option Nat) : (State.notify old s w p).cribGen = s.cribGen := by
  obtain ⟨l, o, h⟩ := State.notify_form old s w p; rw [h]
@[simp] theorem State.notify_forwards (old s : State) (w : Bool) (p : Option Nat) : (State.notify old s w p).forwards = s.forwards := by
  obtain ⟨l, o, h⟩ := State.notify_form old s w p; rw [h]
@[simp] theorem State.notify_nextForward (old s : State) (w : Bool) (p : Option Nat) : (State.notify old s w p).nextForward = s.nextForward := by
  obtain ⟨l, o, h⟩ := State.notify_form old s w p; rw [h]
@[simp] theorem State.notify_indexes (old s : State) (w : Bool) (p : Option Nat) : (State.notify old s w p).indexes = s.indexes := by
  obtain ⟨l, o, h⟩ := State.notify_form old s w p; rw [h]
@[simp] theorem State.notify_loading (old s : State) (w : Bool) (p : Option Nat) : (State.notify old s w p).loading = s.loading := by
  obtain ⟨l, o, h⟩ := State.notify_form old s w p; rw [h]
@[simp] theorem State.notify_pending (old s : State) (w : Bool) (p : Option Nat) : (State.notify old s w p).pending = s.pending := by
  obtain ⟨l, o, h⟩ := State.notify_form old s w p; rw [h]


/-! ### cause -/

@[simp] theorem State.cause_latch (s : State) (a bits : Nat) : (s.cause a bits).latch = s.latch := State.notify_latch s _ _ _
@[simp] theorem State.cause_held (s : State) (a bits : Nat) : (s.cause a bits).held = s.held := State.notify_held s _ _ _
@[simp] theorem State.cause_lcc (s : State) (a bits : Nat) : (s.cause a bits).lcc = s.lcc := State.notify_lcc s _ _ _
@[simp] theorem State.cause_fresh (s : State) (a bits : Nat) : (s.cause a bits).fresh = s.fresh := State.notify_fresh s _ _ _
@[simp] theorem State.cause_stopped (s : State) (a bits : Nat) : (s.cause a bits).stopped = s.stopped := State.notify_stopped s _ _ _
@[simp] theorem State.cause_t1 (s : State) (a bits : Nat) : (s.cause a bits).t1 = s.t1 := State.notify_t1 s _ _ _
@[simp] theorem State.cause_t0 (s : State) (a bits : Nat) : (s.cause a bits).t0 = s.t0 := State.notify_t0 s _ _ _
@[simp] theorem State.cause_parts (s : State) (a bits : Nat) : (s.cause a bits).parts = s.parts := State.notify_parts s _ _ _
@[simp] theorem State.cause_fab (s : State) (a bits : Nat) : (s.cause a bits).fab = s.fab := State.notify_fab s _ _ _
@[simp] theorem State.cause_errs (s : State) (a bits : Nat) : (s.cause a bits).errs = s.errs := State.notify_errs s _ _ _
@[simp] theorem State.cause_ft (s : State) (a bits : Nat) : (s.cause a bits).ft = s.ft := State.notify_ft s _ _ _
@[simp] theorem State.cause_loft (s : State) (a bits : Nat) : (s.cause a bits).loft = s.loft := State.notify_loft s _ _ _
@[simp] theorem State.cause_xlt (s : State) (a bits : Nat) : (s.cause a bits).xlt = s.xlt := State.notify_xlt s _ _ _
@[simp] theorem State.cause_homes (s : State) (a bits : Nat) : (s.cause a bits).homes = s.homes := State.notify_homes s _ _ _
@[simp] theorem State.cause_mirrors (s : State) (a bits : Nat) : (s.cause a bits).mirrors = s.mirrors := State.notify_mirrors s _ _ _
@[simp] theorem State.cause_sync (s : State) (a bits : Nat) : (s.cause a bits).sync = s.sync := State.notify_sync s _ _ _
@[simp] theorem State.cause_extents (s : State) (a bits : Nat) : (s.cause a bits).extents = s.extents := State.notify_extents s _ _ _
@[simp] theorem State.cause_mgmt (s : State) (a bits : Nat) : (s.cause a bits).mgmt = s.mgmt := State.notify_mgmt s _ _ _
@[simp] theorem State.cause_netAddr (s : State) (a bits : Nat) : (s.cause a bits).netAddr = s.netAddr := State.notify_netAddr s _ _ _
@[simp] theorem State.cause_fifoSeq (s : State) (a bits : Nat) : (s.cause a bits).fifoSeq = s.fifoSeq := State.notify_fifoSeq s _ _ _
@[simp] theorem State.cause_scalers (s : State) (a bits : Nat) : (s.cause a bits).scalers = s.scalers := State.notify_scalers s _ _ _
@[simp] theorem State.cause_tally (s : State) (a bits : Nat) : (s.cause a bits).tally = s.tally := State.notify_tally s _ _ _
@[simp] theorem State.cause_engines (s : State) (a bits : Nat) : (s.cause a bits).engines = s.engines := State.notify_engines s _ _ _
@[simp] theorem State.cause_marks (s : State) (a bits : Nat) : (s.cause a bits).marks = s.marks := State.notify_marks s _ _ _
@[simp] theorem State.cause_quarRecord (s : State) (a bits : Nat) : (s.cause a bits).quarRecord = s.quarRecord := State.notify_quarRecord s _ _ _
@[simp] theorem State.cause_cores (s : State) (a bits : Nat) : (s.cause a bits).cores = s.cores := State.notify_cores s _ _ _
@[simp] theorem State.cause_resv (s : State) (a bits : Nat) : (s.cause a bits).resv = s.resv := State.notify_resv s _ _ _
@[simp] theorem State.cause_power (s : State) (a bits : Nat) : (s.cause a bits).power = s.power := State.notify_power s _ _ _
@[simp] theorem State.cause_fuses (s : State) (a bits : Nat) : (s.cause a bits).fuses = s.fuses := State.notify_fuses s _ _ _
@[simp] theorem State.cause_boot (s : State) (a bits : Nat) : (s.cause a bits).boot = s.boot := State.notify_boot s _ _ _
@[simp] theorem State.cause_cribs (s : State) (a bits : Nat) : (s.cause a bits).cribs = s.cribs := State.notify_cribs s _ _ _
@[simp] theorem State.cause_cribGen (s : State) (a bits : Nat) : (s.cause a bits).cribGen = s.cribGen := State.notify_cribGen s _ _ _
@[simp] theorem State.cause_forwards (s : State) (a bits : Nat) : (s.cause a bits).forwards = s.forwards := State.notify_forwards s _ _ _
@[simp] theorem State.cause_nextForward (s : State) (a bits : Nat) : (s.cause a bits).nextForward = s.nextForward := State.notify_nextForward s _ _ _
@[simp] theorem State.cause_indexes (s : State) (a bits : Nat) : (s.cause a bits).indexes = s.indexes := State.notify_indexes s _ _ _
@[simp] theorem State.cause_loading (s : State) (a bits : Nat) : (s.cause a bits).loading = s.loading := State.notify_loading s _ _ _
@[simp] theorem State.cause_pending (s : State) (a bits : Nat) : (s.cause a bits).pending = s.pending := State.notify_pending s _ _ _

/-! ### pcause -/

@[simp] theorem State.pcause_latch (s : State) (p a bits : Nat) : (s.pcause p a bits).latch = s.latch := State.notify_latch s _ _ _
@[simp] theorem State.pcause_held (s : State) (p a bits : Nat) : (s.pcause p a bits).held = s.held := State.notify_held s _ _ _
@[simp] theorem State.pcause_lcc (s : State) (p a bits : Nat) : (s.pcause p a bits).lcc = s.lcc := State.notify_lcc s _ _ _
@[simp] theorem State.pcause_fresh (s : State) (p a bits : Nat) : (s.pcause p a bits).fresh = s.fresh := State.notify_fresh s _ _ _
@[simp] theorem State.pcause_stopped (s : State) (p a bits : Nat) : (s.pcause p a bits).stopped = s.stopped := State.notify_stopped s _ _ _
@[simp] theorem State.pcause_t1 (s : State) (p a bits : Nat) : (s.pcause p a bits).t1 = s.t1 := State.notify_t1 s _ _ _
@[simp] theorem State.pcause_t0 (s : State) (p a bits : Nat) : (s.pcause p a bits).t0 = s.t0 := State.notify_t0 s _ _ _
@[simp] theorem State.pcause_parts (s : State) (p a bits : Nat) : (s.pcause p a bits).parts = s.parts := State.notify_parts s _ _ _
@[simp] theorem State.pcause_fab (s : State) (p a bits : Nat) : (s.pcause p a bits).fab = s.fab := State.notify_fab s _ _ _
@[simp] theorem State.pcause_errs (s : State) (p a bits : Nat) : (s.pcause p a bits).errs = s.errs := State.notify_errs s _ _ _
@[simp] theorem State.pcause_ft (s : State) (p a bits : Nat) : (s.pcause p a bits).ft = s.ft := State.notify_ft s _ _ _
@[simp] theorem State.pcause_loft (s : State) (p a bits : Nat) : (s.pcause p a bits).loft = s.loft := State.notify_loft s _ _ _
@[simp] theorem State.pcause_xlt (s : State) (p a bits : Nat) : (s.pcause p a bits).xlt = s.xlt := State.notify_xlt s _ _ _
@[simp] theorem State.pcause_homes (s : State) (p a bits : Nat) : (s.pcause p a bits).homes = s.homes := State.notify_homes s _ _ _
@[simp] theorem State.pcause_mirrors (s : State) (p a bits : Nat) : (s.pcause p a bits).mirrors = s.mirrors := State.notify_mirrors s _ _ _
@[simp] theorem State.pcause_sync (s : State) (p a bits : Nat) : (s.pcause p a bits).sync = s.sync := State.notify_sync s _ _ _
@[simp] theorem State.pcause_extents (s : State) (p a bits : Nat) : (s.pcause p a bits).extents = s.extents := State.notify_extents s _ _ _
@[simp] theorem State.pcause_mgmt (s : State) (p a bits : Nat) : (s.pcause p a bits).mgmt = s.mgmt := State.notify_mgmt s _ _ _
@[simp] theorem State.pcause_netAddr (s : State) (p a bits : Nat) : (s.pcause p a bits).netAddr = s.netAddr := State.notify_netAddr s _ _ _
@[simp] theorem State.pcause_fifoSeq (s : State) (p a bits : Nat) : (s.pcause p a bits).fifoSeq = s.fifoSeq := State.notify_fifoSeq s _ _ _
@[simp] theorem State.pcause_scalers (s : State) (p a bits : Nat) : (s.pcause p a bits).scalers = s.scalers := State.notify_scalers s _ _ _
@[simp] theorem State.pcause_tally (s : State) (p a bits : Nat) : (s.pcause p a bits).tally = s.tally := State.notify_tally s _ _ _
@[simp] theorem State.pcause_engines (s : State) (p a bits : Nat) : (s.pcause p a bits).engines = s.engines := State.notify_engines s _ _ _
@[simp] theorem State.pcause_marks (s : State) (p a bits : Nat) : (s.pcause p a bits).marks = s.marks := State.notify_marks s _ _ _
@[simp] theorem State.pcause_quarRecord (s : State) (p a bits : Nat) : (s.pcause p a bits).quarRecord = s.quarRecord := State.notify_quarRecord s _ _ _
@[simp] theorem State.pcause_cores (s : State) (p a bits : Nat) : (s.pcause p a bits).cores = s.cores := State.notify_cores s _ _ _
@[simp] theorem State.pcause_resv (s : State) (p a bits : Nat) : (s.pcause p a bits).resv = s.resv := State.notify_resv s _ _ _
@[simp] theorem State.pcause_power (s : State) (p a bits : Nat) : (s.pcause p a bits).power = s.power := State.notify_power s _ _ _
@[simp] theorem State.pcause_fuses (s : State) (p a bits : Nat) : (s.pcause p a bits).fuses = s.fuses := State.notify_fuses s _ _ _
@[simp] theorem State.pcause_boot (s : State) (p a bits : Nat) : (s.pcause p a bits).boot = s.boot := State.notify_boot s _ _ _
@[simp] theorem State.pcause_cribs (s : State) (p a bits : Nat) : (s.pcause p a bits).cribs = s.cribs := State.notify_cribs s _ _ _
@[simp] theorem State.pcause_cribGen (s : State) (p a bits : Nat) : (s.pcause p a bits).cribGen = s.cribGen := State.notify_cribGen s _ _ _
@[simp] theorem State.pcause_forwards (s : State) (p a bits : Nat) : (s.pcause p a bits).forwards = s.forwards := State.notify_forwards s _ _ _
@[simp] theorem State.pcause_nextForward (s : State) (p a bits : Nat) : (s.pcause p a bits).nextForward = s.nextForward := State.notify_nextForward s _ _ _
@[simp] theorem State.pcause_indexes (s : State) (p a bits : Nat) : (s.pcause p a bits).indexes = s.indexes := State.notify_indexes s _ _ _
@[simp] theorem State.pcause_loading (s : State) (p a bits : Nat) : (s.pcause p a bits).loading = s.loading := State.notify_loading s _ _ _
@[simp] theorem State.pcause_pending (s : State) (p a bits : Nat) : (s.pcause p a bits).pending = s.pending := State.notify_pending s _ _ _

/-! ### pageCause -/

@[simp] theorem State.pageCause_latch (s : State) (p bits : Nat) : (s.pageCause p bits).latch = s.latch := State.pcause_latch s p _ bits
@[simp] theorem State.pageCause_held (s : State) (p bits : Nat) : (s.pageCause p bits).held = s.held := State.pcause_held s p _ bits
@[simp] theorem State.pageCause_lcc (s : State) (p bits : Nat) : (s.pageCause p bits).lcc = s.lcc := State.pcause_lcc s p _ bits
@[simp] theorem State.pageCause_fresh (s : State) (p bits : Nat) : (s.pageCause p bits).fresh = s.fresh := State.pcause_fresh s p _ bits
@[simp] theorem State.pageCause_stopped (s : State) (p bits : Nat) : (s.pageCause p bits).stopped = s.stopped := State.pcause_stopped s p _ bits
@[simp] theorem State.pageCause_t1 (s : State) (p bits : Nat) : (s.pageCause p bits).t1 = s.t1 := State.pcause_t1 s p _ bits
@[simp] theorem State.pageCause_t0 (s : State) (p bits : Nat) : (s.pageCause p bits).t0 = s.t0 := State.pcause_t0 s p _ bits
@[simp] theorem State.pageCause_parts (s : State) (p bits : Nat) : (s.pageCause p bits).parts = s.parts := State.pcause_parts s p _ bits
@[simp] theorem State.pageCause_fab (s : State) (p bits : Nat) : (s.pageCause p bits).fab = s.fab := State.pcause_fab s p _ bits
@[simp] theorem State.pageCause_errs (s : State) (p bits : Nat) : (s.pageCause p bits).errs = s.errs := State.pcause_errs s p _ bits
@[simp] theorem State.pageCause_ft (s : State) (p bits : Nat) : (s.pageCause p bits).ft = s.ft := State.pcause_ft s p _ bits
@[simp] theorem State.pageCause_loft (s : State) (p bits : Nat) : (s.pageCause p bits).loft = s.loft := State.pcause_loft s p _ bits
@[simp] theorem State.pageCause_xlt (s : State) (p bits : Nat) : (s.pageCause p bits).xlt = s.xlt := State.pcause_xlt s p _ bits
@[simp] theorem State.pageCause_homes (s : State) (p bits : Nat) : (s.pageCause p bits).homes = s.homes := State.pcause_homes s p _ bits
@[simp] theorem State.pageCause_mirrors (s : State) (p bits : Nat) : (s.pageCause p bits).mirrors = s.mirrors := State.pcause_mirrors s p _ bits
@[simp] theorem State.pageCause_sync (s : State) (p bits : Nat) : (s.pageCause p bits).sync = s.sync := State.pcause_sync s p _ bits
@[simp] theorem State.pageCause_extents (s : State) (p bits : Nat) : (s.pageCause p bits).extents = s.extents := State.pcause_extents s p _ bits
@[simp] theorem State.pageCause_mgmt (s : State) (p bits : Nat) : (s.pageCause p bits).mgmt = s.mgmt := State.pcause_mgmt s p _ bits
@[simp] theorem State.pageCause_netAddr (s : State) (p bits : Nat) : (s.pageCause p bits).netAddr = s.netAddr := State.pcause_netAddr s p _ bits
@[simp] theorem State.pageCause_fifoSeq (s : State) (p bits : Nat) : (s.pageCause p bits).fifoSeq = s.fifoSeq := State.pcause_fifoSeq s p _ bits
@[simp] theorem State.pageCause_scalers (s : State) (p bits : Nat) : (s.pageCause p bits).scalers = s.scalers := State.pcause_scalers s p _ bits
@[simp] theorem State.pageCause_tally (s : State) (p bits : Nat) : (s.pageCause p bits).tally = s.tally := State.pcause_tally s p _ bits
@[simp] theorem State.pageCause_engines (s : State) (p bits : Nat) : (s.pageCause p bits).engines = s.engines := State.pcause_engines s p _ bits
@[simp] theorem State.pageCause_marks (s : State) (p bits : Nat) : (s.pageCause p bits).marks = s.marks := State.pcause_marks s p _ bits
@[simp] theorem State.pageCause_quarRecord (s : State) (p bits : Nat) : (s.pageCause p bits).quarRecord = s.quarRecord := State.pcause_quarRecord s p _ bits
@[simp] theorem State.pageCause_cores (s : State) (p bits : Nat) : (s.pageCause p bits).cores = s.cores := State.pcause_cores s p _ bits
@[simp] theorem State.pageCause_resv (s : State) (p bits : Nat) : (s.pageCause p bits).resv = s.resv := State.pcause_resv s p _ bits
@[simp] theorem State.pageCause_power (s : State) (p bits : Nat) : (s.pageCause p bits).power = s.power := State.pcause_power s p _ bits
@[simp] theorem State.pageCause_fuses (s : State) (p bits : Nat) : (s.pageCause p bits).fuses = s.fuses := State.pcause_fuses s p _ bits
@[simp] theorem State.pageCause_boot (s : State) (p bits : Nat) : (s.pageCause p bits).boot = s.boot := State.pcause_boot s p _ bits
@[simp] theorem State.pageCause_cribs (s : State) (p bits : Nat) : (s.pageCause p bits).cribs = s.cribs := State.pcause_cribs s p _ bits
@[simp] theorem State.pageCause_cribGen (s : State) (p bits : Nat) : (s.pageCause p bits).cribGen = s.cribGen := State.pcause_cribGen s p _ bits
@[simp] theorem State.pageCause_forwards (s : State) (p bits : Nat) : (s.pageCause p bits).forwards = s.forwards := State.pcause_forwards s p _ bits
@[simp] theorem State.pageCause_nextForward (s : State) (p bits : Nat) : (s.pageCause p bits).nextForward = s.nextForward := State.pcause_nextForward s p _ bits
@[simp] theorem State.pageCause_indexes (s : State) (p bits : Nat) : (s.pageCause p bits).indexes = s.indexes := State.pcause_indexes s p _ bits
@[simp] theorem State.pageCause_loading (s : State) (p bits : Nat) : (s.pageCause p bits).loading = s.loading := State.pcause_loading s p _ bits
@[simp] theorem State.pageCause_pending (s : State) (p bits : Nat) : (s.pageCause p bits).pending = s.pending := State.pcause_pending s p _ bits

/-! ### enter -/

@[simp] theorem State.enter_latch (s : State) (p : Nat) (st : PState) : (s.enter p st).latch = s.latch := (State.notify_latch s _ _ _).trans (State.setPstate_latch s p st)
@[simp] theorem State.enter_held (s : State) (p : Nat) (st : PState) : (s.enter p st).held = s.held := (State.notify_held s _ _ _).trans (State.setPstate_held s p st)
@[simp] theorem State.enter_lcc (s : State) (p : Nat) (st : PState) : (s.enter p st).lcc = s.lcc := (State.notify_lcc s _ _ _).trans (State.setPstate_lcc s p st)
@[simp] theorem State.enter_fresh (s : State) (p : Nat) (st : PState) : (s.enter p st).fresh = s.fresh := (State.notify_fresh s _ _ _).trans (State.setPstate_fresh s p st)
@[simp] theorem State.enter_stopped (s : State) (p : Nat) (st : PState) : (s.enter p st).stopped = s.stopped := (State.notify_stopped s _ _ _).trans (State.setPstate_stopped s p st)
@[simp] theorem State.enter_t1 (s : State) (p : Nat) (st : PState) : (s.enter p st).t1 = s.t1 := (State.notify_t1 s _ _ _).trans (State.setPstate_t1 s p st)
@[simp] theorem State.enter_t0 (s : State) (p : Nat) (st : PState) : (s.enter p st).t0 = s.t0 := (State.notify_t0 s _ _ _).trans (State.setPstate_t0 s p st)
@[simp] theorem State.enter_parts (s : State) (p : Nat) (st : PState) : (s.enter p st).parts = s.parts := (State.notify_parts s _ _ _).trans (State.setPstate_parts s p st)
@[simp] theorem State.enter_fab (s : State) (p : Nat) (st : PState) : (s.enter p st).fab = s.fab := (State.notify_fab s _ _ _).trans (State.setPstate_fab s p st)
@[simp] theorem State.enter_errs (s : State) (p : Nat) (st : PState) : (s.enter p st).errs = s.errs := (State.notify_errs s _ _ _).trans (State.setPstate_errs s p st)
@[simp] theorem State.enter_ft (s : State) (p : Nat) (st : PState) : (s.enter p st).ft = s.ft := (State.notify_ft s _ _ _).trans (State.setPstate_ft s p st)
@[simp] theorem State.enter_loft (s : State) (p : Nat) (st : PState) : (s.enter p st).loft = s.loft := (State.notify_loft s _ _ _).trans (State.setPstate_loft s p st)
@[simp] theorem State.enter_xlt (s : State) (p : Nat) (st : PState) : (s.enter p st).xlt = s.xlt := (State.notify_xlt s _ _ _).trans (State.setPstate_xlt s p st)
@[simp] theorem State.enter_homes (s : State) (p : Nat) (st : PState) : (s.enter p st).homes = s.homes := (State.notify_homes s _ _ _).trans (State.setPstate_homes s p st)
@[simp] theorem State.enter_mirrors (s : State) (p : Nat) (st : PState) : (s.enter p st).mirrors = s.mirrors := (State.notify_mirrors s _ _ _).trans (State.setPstate_mirrors s p st)
@[simp] theorem State.enter_sync (s : State) (p : Nat) (st : PState) : (s.enter p st).sync = s.sync := (State.notify_sync s _ _ _).trans (State.setPstate_sync s p st)
@[simp] theorem State.enter_extents (s : State) (p : Nat) (st : PState) : (s.enter p st).extents = s.extents := (State.notify_extents s _ _ _).trans (State.setPstate_extents s p st)
@[simp] theorem State.enter_mgmt (s : State) (p : Nat) (st : PState) : (s.enter p st).mgmt = s.mgmt := (State.notify_mgmt s _ _ _).trans (State.setPstate_mgmt s p st)
@[simp] theorem State.enter_netAddr (s : State) (p : Nat) (st : PState) : (s.enter p st).netAddr = s.netAddr := (State.notify_netAddr s _ _ _).trans (State.setPstate_netAddr s p st)
@[simp] theorem State.enter_fifoSeq (s : State) (p : Nat) (st : PState) : (s.enter p st).fifoSeq = s.fifoSeq := (State.notify_fifoSeq s _ _ _).trans (State.setPstate_fifoSeq s p st)
@[simp] theorem State.enter_scalers (s : State) (p : Nat) (st : PState) : (s.enter p st).scalers = s.scalers := (State.notify_scalers s _ _ _).trans (State.setPstate_scalers s p st)
@[simp] theorem State.enter_tally (s : State) (p : Nat) (st : PState) : (s.enter p st).tally = s.tally := (State.notify_tally s _ _ _).trans (State.setPstate_tally s p st)
@[simp] theorem State.enter_engines (s : State) (p : Nat) (st : PState) : (s.enter p st).engines = s.engines := (State.notify_engines s _ _ _).trans (State.setPstate_engines s p st)
@[simp] theorem State.enter_marks (s : State) (p : Nat) (st : PState) : (s.enter p st).marks = s.marks := (State.notify_marks s _ _ _).trans (State.setPstate_marks s p st)
@[simp] theorem State.enter_quarRecord (s : State) (p : Nat) (st : PState) : (s.enter p st).quarRecord = s.quarRecord := (State.notify_quarRecord s _ _ _).trans (State.setPstate_quarRecord s p st)
@[simp] theorem State.enter_cores (s : State) (p : Nat) (st : PState) : (s.enter p st).cores = s.cores := (State.notify_cores s _ _ _).trans (State.setPstate_cores s p st)
@[simp] theorem State.enter_resv (s : State) (p : Nat) (st : PState) : (s.enter p st).resv = s.resv := (State.notify_resv s _ _ _).trans (State.setPstate_resv s p st)
@[simp] theorem State.enter_power (s : State) (p : Nat) (st : PState) : (s.enter p st).power = s.power := (State.notify_power s _ _ _).trans (State.setPstate_power s p st)
@[simp] theorem State.enter_fuses (s : State) (p : Nat) (st : PState) : (s.enter p st).fuses = s.fuses := (State.notify_fuses s _ _ _).trans (State.setPstate_fuses s p st)
@[simp] theorem State.enter_boot (s : State) (p : Nat) (st : PState) : (s.enter p st).boot = s.boot := (State.notify_boot s _ _ _).trans (State.setPstate_boot s p st)
@[simp] theorem State.enter_cribs (s : State) (p : Nat) (st : PState) : (s.enter p st).cribs = s.cribs := (State.notify_cribs s _ _ _).trans (State.setPstate_cribs s p st)
@[simp] theorem State.enter_cribGen (s : State) (p : Nat) (st : PState) : (s.enter p st).cribGen = s.cribGen := (State.notify_cribGen s _ _ _).trans (State.setPstate_cribGen s p st)
@[simp] theorem State.enter_forwards (s : State) (p : Nat) (st : PState) : (s.enter p st).forwards = s.forwards := (State.notify_forwards s _ _ _).trans (State.setPstate_forwards s p st)
@[simp] theorem State.enter_nextForward (s : State) (p : Nat) (st : PState) : (s.enter p st).nextForward = s.nextForward := (State.notify_nextForward s _ _ _).trans (State.setPstate_nextForward s p st)
@[simp] theorem State.enter_indexes (s : State) (p : Nat) (st : PState) : (s.enter p st).indexes = s.indexes := (State.notify_indexes s _ _ _).trans (State.setPstate_indexes s p st)
@[simp] theorem State.enter_loading (s : State) (p : Nat) (st : PState) : (s.enter p st).loading = s.loading := (State.notify_loading s _ _ _).trans (State.setPstate_loading s p st)
@[simp] theorem State.enter_pending (s : State) (p : Nat) (st : PState) : (s.enter p st).pending = s.pending := (State.notify_pending s _ _ _).trans (State.setPstate_pending s p st)

/-! ### store -/

@[simp] theorem State.store_latch (s : State) (a : Nat) (v : Word) : (s.store a v).latch = s.latch := by
  unfold State.store; repeat' split
  all_goals simp
@[simp] theorem State.store_held (s : State) (a : Nat) (v : Word) : (s.store a v).held = s.held := by
  unfold State.store; repeat' split
  all_goals simp
@[simp] theorem State.store_lcc (s : State) (a : Nat) (v : Word) : (s.store a v).lcc = s.lcc := by
  unfold State.store; repeat' split
  all_goals simp
@[simp] theorem State.store_fresh (s : State) (a : Nat) (v : Word) : (s.store a v).fresh = s.fresh := by
  unfold State.store; repeat' split
  all_goals simp
@[simp] theorem State.store_stopped (s : State) (a : Nat) (v : Word) : (s.store a v).stopped = s.stopped := by
  unfold State.store; repeat' split
  all_goals simp
@[simp] theorem State.store_t1 (s : State) (a : Nat) (v : Word) : (s.store a v).t1 = s.t1 := by
  unfold State.store; repeat' split
  all_goals simp
@[simp] theorem State.store_t0 (s : State) (a : Nat) (v : Word) : (s.store a v).t0 = s.t0 := by
  unfold State.store; repeat' split
  all_goals simp
@[simp] theorem State.store_parts (s : State) (a : Nat) (v : Word) : (s.store a v).parts = s.parts := by
  unfold State.store; repeat' split
  all_goals simp
@[simp] theorem State.store_fab (s : State) (a : Nat) (v : Word) : (s.store a v).fab = s.fab := by
  unfold State.store; repeat' split
  all_goals simp
@[simp] theorem State.store_errs (s : State) (a : Nat) (v : Word) : (s.store a v).errs = s.errs := by
  unfold State.store; repeat' split
  all_goals simp
@[simp] theorem State.store_ft (s : State) (a : Nat) (v : Word) : (s.store a v).ft = s.ft := by
  unfold State.store; repeat' split
  all_goals simp
@[simp] theorem State.store_loft (s : State) (a : Nat) (v : Word) : (s.store a v).loft = s.loft := by
  unfold State.store; repeat' split
  all_goals simp
@[simp] theorem State.store_xlt (s : State) (a : Nat) (v : Word) : (s.store a v).xlt = s.xlt := by
  unfold State.store; repeat' split
  all_goals simp
@[simp] theorem State.store_homes (s : State) (a : Nat) (v : Word) : (s.store a v).homes = s.homes := by
  unfold State.store; repeat' split
  all_goals simp
@[simp] theorem State.store_mirrors (s : State) (a : Nat) (v : Word) : (s.store a v).mirrors = s.mirrors := by
  unfold State.store; repeat' split
  all_goals simp
@[simp] theorem State.store_sync (s : State) (a : Nat) (v : Word) : (s.store a v).sync = s.sync := by
  unfold State.store; repeat' split
  all_goals simp
@[simp] theorem State.store_extents (s : State) (a : Nat) (v : Word) : (s.store a v).extents = s.extents := by
  unfold State.store; repeat' split
  all_goals simp
@[simp] theorem State.store_mgmt (s : State) (a : Nat) (v : Word) : (s.store a v).mgmt = s.mgmt := by
  unfold State.store; repeat' split
  all_goals simp
@[simp] theorem State.store_netAddr (s : State) (a : Nat) (v : Word) : (s.store a v).netAddr = s.netAddr := by
  unfold State.store; repeat' split
  all_goals simp
@[simp] theorem State.store_fifoSeq (s : State) (a : Nat) (v : Word) : (s.store a v).fifoSeq = s.fifoSeq := by
  unfold State.store; repeat' split
  all_goals simp
@[simp] theorem State.store_scalers (s : State) (a : Nat) (v : Word) : (s.store a v).scalers = s.scalers := by
  unfold State.store; repeat' split
  all_goals simp
@[simp] theorem State.store_tally (s : State) (a : Nat) (v : Word) : (s.store a v).tally = s.tally := by
  unfold State.store; repeat' split
  all_goals simp
@[simp] theorem State.store_engines (s : State) (a : Nat) (v : Word) : (s.store a v).engines = s.engines := by
  unfold State.store; repeat' split
  all_goals simp
@[simp] theorem State.store_marks (s : State) (a : Nat) (v : Word) : (s.store a v).marks = s.marks := by
  unfold State.store; repeat' split
  all_goals simp
@[simp] theorem State.store_quarRecord (s : State) (a : Nat) (v : Word) : (s.store a v).quarRecord = s.quarRecord := by
  unfold State.store; repeat' split
  all_goals simp
@[simp] theorem State.store_cores (s : State) (a : Nat) (v : Word) : (s.store a v).cores = s.cores := by
  unfold State.store; repeat' split
  all_goals simp
@[simp] theorem State.store_resv (s : State) (a : Nat) (v : Word) : (s.store a v).resv = s.resv := by
  unfold State.store; repeat' split
  all_goals simp
@[simp] theorem State.store_power (s : State) (a : Nat) (v : Word) : (s.store a v).power = s.power := by
  unfold State.store; repeat' split
  all_goals simp
@[simp] theorem State.store_fuses (s : State) (a : Nat) (v : Word) : (s.store a v).fuses = s.fuses := by
  unfold State.store; repeat' split
  all_goals simp
@[simp] theorem State.store_boot (s : State) (a : Nat) (v : Word) : (s.store a v).boot = s.boot := by
  unfold State.store; repeat' split
  all_goals simp
@[simp] theorem State.store_cribs (s : State) (a : Nat) (v : Word) : (s.store a v).cribs = s.cribs := by
  unfold State.store; repeat' split
  all_goals simp
@[simp] theorem State.store_cribGen (s : State) (a : Nat) (v : Word) : (s.store a v).cribGen = s.cribGen := by
  unfold State.store; repeat' split
  all_goals simp
@[simp] theorem State.store_forwards (s : State) (a : Nat) (v : Word) : (s.store a v).forwards = s.forwards := by
  unfold State.store; repeat' split
  all_goals simp
@[simp] theorem State.store_nextForward (s : State) (a : Nat) (v : Word) : (s.store a v).nextForward = s.nextForward := by
  unfold State.store; repeat' split
  all_goals simp
@[simp] theorem State.store_indexes (s : State) (a : Nat) (v : Word) : (s.store a v).indexes = s.indexes := by
  unfold State.store; repeat' split
  all_goals simp
@[simp] theorem State.store_loading (s : State) (a : Nat) (v : Word) : (s.store a v).loading = s.loading := by
  unfold State.store; repeat' split
  all_goals simp
@[simp] theorem State.store_pending (s : State) (a : Nat) (v : Word) : (s.store a v).pending = s.pending := by
  unfold State.store; repeat' split
  all_goals simp

/-! ### What the registers hold -/

@[simp] theorem State.reg_notify (old s : State) (w : Bool) (p : Option Nat) (a : Nat) : (State.notify old s w p).reg a = s.reg a := by
  unfold State.reg; rw [State.notify_regs]

@[simp] theorem State.part_notify (old s : State) (w : Bool) (p : Option Nat) (q : Nat) : (State.notify old s w p).part q = s.part q := by
  unfold State.part; rw [State.notify_parts]

theorem State.reg_cause (s : State) (a bits b : Nat) :
    (s.cause a bits).reg b = if b = a then s.reg a ||| BitVec.ofNat 32 bits else s.reg b := by
  unfold State.cause; rw [State.reg_notify, State.reg_setReg]

theorem State.reg_pcause (s : State) (p a bits b : Nat) :
    (s.pcause p a bits).reg b = if b = a then s.reg a ||| BitVec.ofNat 32 bits else s.reg b := by
  unfold State.pcause; rw [State.reg_notify, State.reg_setReg]

theorem State.reg_pageCause (s : State) (p bits b : Nat) :
    (s.pageCause p bits).reg b = if b = Reg.PART_IRQ_CAUSE p then s.reg (Reg.PART_IRQ_CAUSE p) ||| BitVec.ofNat 32 bits else s.reg b :=
  State.reg_pcause s p _ bits b

/-- A plain write: bits of access RW take the value, a 1 clears a bit of access W1C, the others stay; no other register changes (R7). -/
theorem State.reg_store (s : State) (a b : Nat) (v : Word) (r : RegRow) (h : RegMap.rowAt a = some r) :
    (s.store a v).reg b = if b = a then r.write (s.reg a) v else s.reg b := by
  unfold State.store; rw [h]; dsimp only; split <;> simp [State.reg_setReg]

theorem State.reg_store_ne (s : State) (a b : Nat) (v : Word) (h : b ≠ a) : (s.store a v).reg b = s.reg b := by
  unfold State.store; repeat' split
  all_goals simp [State.reg_setReg, h]

@[simp] theorem State.part_store (s : State) (a : Nat) (v : Word) (q : Nat) : (s.store a v).part q = s.part q := by
  unfold State.part; rw [State.store_parts]

@[simp] theorem State.part_pcause (s : State) (p a bits q : Nat) : (s.pcause p a bits).part q = s.part q := by
  unfold State.part; rw [State.pcause_parts]

@[simp] theorem State.part_pageCause (s : State) (p bits q : Nat) : (s.pageCause p bits).part q = s.part q := by
  unfold State.part; rw [State.pageCause_parts]

@[simp] theorem State.part_cause (s : State) (a bits q : Nat) : (s.cause a bits).part q = s.part q := by
  unfold State.part; rw [State.cause_parts]

end Sys2Proof.Machine
end

