-- ==== Sys2Proof/Laws/Fields.lean ====
section
/-! SUPPORT. Bit fields of registers: what a field reads as after it, or another, was written; and the state of a partition. -/

namespace Sys2Proof.Machine

/-- Bit i of a word with a field put into it. -/
theorem testBit_putField (w : Word) (hi lo v i : Nat) (h : hi < 32) :
    (putField w hi lo v).toNat.testBit i = if lo ≤ i ∧ i ≤ hi then v.testBit (i - lo) else w.toNat.testBit i := by
  have m : ((2 ^ (hi + 1 - lo) - 1) <<< lo).testBit i = decide (lo ≤ i ∧ i ≤ hi) := by
    rw [Nat.testBit_shiftLeft, Nat.testBit_two_pow_sub_one]
    by_cases a : lo ≤ i <;> by_cases b : i ≤ hi <;> simp [a, b] <;> omega
  have g : ∀ x : Word, x.toNat.testBit i = x.getLsbD i := fun x => BitVec.testBit_toNat x
  rw [g, g]
  unfold putField
  by_cases k : i < 32
  · simp only [BitVec.getLsbD_or, BitVec.getLsbD_and, BitVec.getLsbD_not, BitVec.getLsbD_ofNat, m, k, Nat.testBit_shiftLeft, decide_true, Bool.true_and]
    by_cases a : lo ≤ i <;> by_cases b : i ≤ hi <;> simp [a, b]
  · have n1 : ¬ (lo ≤ i ∧ i ≤ hi) := by omega
    simp [n1, BitVec.getLsbD_of_ge _ _ (Nat.le_of_not_lt k)]

/-- A field reads back what was put into it. -/
theorem fld_putField (w : Word) (hi lo v : Nat) (h : hi < 32) : fld (putField w hi lo v) hi lo = v % 2 ^ (hi + 1 - lo) := by
  apply Nat.eq_of_testBit_eq
  intro i
  rw [fld, Nat.testBit_mod_two_pow, Nat.testBit_mod_two_pow, Nat.testBit_shiftRight, testBit_putField w hi lo v _ h]
  by_cases a : i < hi + 1 - lo
  · have b : lo ≤ lo + i ∧ lo + i ≤ hi := by omega
    have c : lo + i - lo = i := by omega
    simp [a, b, c]
  · simp [a]

/-- A field that does not meet the one written stays. -/
theorem fld_putField_ne (w : Word) (hi lo v g l : Nat) (h : hi < 32) (d : g < lo ∨ hi < l) : fld (putField w hi lo v) g l = fld w g l := by
  apply Nat.eq_of_testBit_eq
  intro i
  rw [fld, fld, Nat.testBit_mod_two_pow, Nat.testBit_mod_two_pow, Nat.testBit_shiftRight, Nat.testBit_shiftRight, testBit_putField w hi lo v _ h]
  by_cases a : i < g + 1 - l
  · have b : ¬ (lo ≤ l + i ∧ l + i ≤ hi) := by omega
    simp [b]
  · simp [a]

theorem State.regF_setReg_ne (s : State) {a b : Nat} (v : Word) (hi lo : Nat) (h : b ≠ a) : (s.setReg a v).regF b hi lo = s.regF b hi lo := by
  unfold State.regF; rw [State.reg_setReg_ne _ _ h]

theorem State.regF_setRegF_same (s : State) (a hi lo v : Nat) (h : hi < 32) : (s.setRegF a hi lo v).regF a hi lo = v % 2 ^ (hi + 1 - lo) := by
  unfold State.regF; rw [State.reg_setRegF, if_pos rfl]; exact fld_putField _ _ _ _ h

theorem State.regF_setRegF_field (s : State) (a hi lo v g l : Nat) (h : hi < 32) (d : g < lo ∨ hi < l) :
    (s.setRegF a hi lo v).regF a g l = s.regF a g l := by
  unfold State.regF; rw [State.reg_setRegF, if_pos rfl]; exact fld_putField_ne _ _ _ _ _ _ h d

theorem State.regF_setRegF_ne (s : State) {a b : Nat} (hi lo v g l : Nat) (h : b ≠ a) : (s.setRegF a hi lo v).regF b g l = s.regF b g l := by
  unfold State.regF; rw [State.reg_setRegF, if_neg h]

theorem State.regN_setReg_ne (s : State) {a b : Nat} (v : Word) (h : b ≠ a) : (s.setReg a v).regN b = s.regN b := by
  unfold State.regN; rw [State.reg_setReg_ne _ _ h]

theorem State.reg_setPstate_ne (s : State) (p : Nat) (st : PState) {b : Nat} (h : b ≠ Reg.PART_ID p) : (s.setPstate p st).reg b = s.reg b :=
  State.reg_setReg_ne s _ h

/-- A partition moved to a state is in it. -/
theorem State.pstate_setPstate (s : State) (p : Nat) (st : PState) : (s.setPstate p st).pstate p = st := by
  have h : (s.setPstate p st).regF (Reg.PART_ID p) 14 12 = st.code % 2 ^ 3 := State.regF_setRegF_same s _ 14 12 _ (by decide)
  unfold State.pstate
  rw [h]
  cases st <;> rfl

/-- A write of another register leaves the state of a partition. -/
theorem State.pstate_setReg_ne (s : State) (p a : Nat) (v : Word) (h : Reg.PART_ID p ≠ a) : (s.setReg a v).pstate p = s.pstate p := by
  unfold State.pstate; rw [State.regF_setReg_ne _ _ _ _ h]

/-- The interrupt tree leaves it too. -/
theorem State.pstate_enter (s : State) (p : Nat) (st : PState) : (s.enter p st).pstate p = st := by
  have h : (s.enter p st).reg (Reg.PART_ID p) = (s.setPstate p st).reg (Reg.PART_ID p) := State.reg_notify _ _ _ _ _
  have g := State.pstate_setPstate s p st
  unfold State.pstate State.regF at g ⊢
  rw [h]
  exact g

/-- Writing one value to many registers. -/
theorem State.reg_foldl_setRegN (f : Nat → Nat) (v : Nat) (l : List Nat) (s : State) (b : Nat) :
    (l.foldl (fun s p => s.setRegN (f p) v) s).reg b = if ∃ p ∈ l, b = f p then BitVec.ofNat 32 v else s.reg b := by
  induction l generalizing s with
  | nil => simp
  | cons p t ih =>
    rw [List.foldl_cons, ih, State.reg_setRegN]
    by_cases a : b = f p
    · simp [a]
    · simp [a]

end Sys2Proof.Machine
end

