-- ==== Sys2Proof/Laws/Goes.lean ====
section
/-! SUPPORT. What does not stop the part: every command but a fatal error, the sixteenth replay of the package network in a row, and the loss of
power. -/

namespace Sys2Proof.Machine

set_option simprocs false

theorem Goes.refl (s : State) : Goes s s := id

theorem Goes.trans {a b c : State} (h : Goes a b) (k : Goes b c) : Goes a c := fun x => h (k x)

theorem Calm.goes {s t : State} (h : Calm s t) : Goes s t := fun x => h.stopped ▸ x

/-- After a step that does not stop the part, a calm one. -/
theorem Goes.calm {a b c : State} (h : Goes a b) (k : Calm b c) : Goes a c := h.trans k.goes

/-- An update that leaves the flag. -/
theorem Goes.upd {s t u : State} (h : Goes s t) (e : u.stopped = t.stopped) : Goes s u := fun x => h (e ▸ x)

theorem goes_ite {s : State} {c : Prop} [Decidable c] {a b : State} (h : c → Goes s a) (k : ¬c → Goes s b) :
    Goes s (if c then a else b) := by
  split
  · exact h ‹_›
  · exact k ‹_›

theorem goes_coldReset (s : State) : Goes s s.coldReset := by
  unfold State.coldReset
  extract_lets low c f t1 t2
  have h1 : Goes s t1 := fun x => Bool.noConfusion (show false = true from x)
  clear_value t1
  have h2 : Calm t1 t2 := calm_setReg (Calm.refl t1)
  clear_value t2
  exact h1.calm (calm_foldl h2 (fun _ _ k => calm_ite (fun _ => calm_setRegF k) (fun _ => k)))

theorem goes_warmReset (s : State) (kind level token : Nat) : Goes s (s.warmReset kind level token) := by
  unfold State.warmReset
  extract_lets cause c e f t1 t2 t3 t4 t5 t6 t7
  have h0 := goes_coldReset s
  have h1 : Goes s t1 := h0.upd rfl
  clear_value t1
  have h2 : Calm t1 t2 := calm_setReg64 (calm_modBoot (Calm.refl t1))
  clear_value t2
  have h3 : Calm t1 t3 := calm_setRegN h2
  clear_value t3
  have h4 : Calm t1 t4 := calm_setRegF (calm_setRegF (calm_foldl h3 (fun _ _ k => calm_setRegF (calm_setRegF k))))
  clear_value t4
  have h5 : Calm t1 t5 := calm_setRegN h4
  clear_value t5
  have h6 : Calm t1 t6 := calm_foldl h5 (fun _ _ k => calm_setRegF k)
  clear_value t6
  have h7 : Calm t1 t7 := calm_setRegN h6
  clear_value t7
  exact h1.calm (calm_setDebugLevel (calm_setRegN h7))

theorem goes_configure (s : State) (c : BootConfig) : Goes s (s.configure c) := by
  unfold State.configure
  extract_lets s1 s2 s3 map s4 s5
  have h1 : Calm s s1 := calm_modBoot (Calm.refl s)
  clear_value s1
  have h2 : Calm s s2 := calm_setRegN (calm_setRegF h1)
  clear_value s2
  have h3 : Calm s s3 := calm_setRegN h2
  clear_value s3
  have h4 : Calm s s4 := calm_setRegN (calm_setRegN h3)
  clear_value s4
  have h5 : Calm s s5 := calm_setRegF h4
  clear_value s5
  exact h5.goes.upd rfl

theorem goes_recover (s : State) (r0 r1 : Nat) : Goes s (s.recover r0 r1) := by
  unfold State.recover
  extract_lets s1 s0 u addr s2 s3
  have h1 : Calm s s1 := calm_modBoot (Calm.refl s)
  clear_value s1
  have h0 : Calm s s0 := calm_foldl h1 (fun _ _ k => calm_ite (fun _ => k) (fun _ => calm_resetCxlPort k))
  clear_value s0
  have h2 : Goes s s2 := h0.goes.upd rfl
  clear_value s2
  have h3 : Calm s2 s3 := calm_setRegF (Calm.refl s2)
  clear_value s3
  exact h2.calm (calm_report (calm_report h3))

theorem goes_commitTrial (s : State) (img : List Nat) : Goes s (s.commitTrial img) := by
  unfold State.commitTrial
  split
  · have h : Calm s (s.modBoot (fun b => { b with slot := b.booted, trial := none, trialCount := 0, trialReason := 0, onTrial := false })) :=
      calm_modBoot (Calm.refl s)
    extract_lets s1
    have h1 : Calm s s1 := h
    clear_value s1
    split
    · exact h1.goes.upd rfl
    · exact h1.goes
  · exact Goes.refl s

theorem goes_resumeLeaf (s : State) : Goes s s.resumeLeaf := by
  unfold State.resumeLeaf
  split
  · exact (calm_setLeaf (Calm.refl s)).goes
  · refine goes_ite (fun _ => goes_ite (fun _ => (calm_leafLow (calm_setLeaf (Calm.refl s))).goes) (fun _ => (calm_setLeaf (Calm.refl s)).goes))
      (fun _ => goes_ite (fun _ => (calm_leafLow (calm_setLeaf (Calm.refl s))).goes) (fun _ => ?_))
    refine Goes.calm (b := _) ?_ (calm_leafLow (calm_setLeaf (Calm.refl _)))
    exact id

theorem goes_bootFrom (s : State) (slot : Nat) (cfg : BootConfig) (run : BootRun) (fell : List (Nat × Nat)) :
    Goes s (s.bootFrom slot cfg run fell) := by
  unfold State.bootFrom
  extract_lets img s1 params s2 s3 s4 s5 s6
  have h1 : Calm s s1 := calm_measure (Calm.refl s)
  clear_value s1
  have h2 : Calm s s2 := calm_modBoot h1
  clear_value s2
  have h3 : Calm s s3 := calm_setRegN (calm_setRegN h2)
  clear_value s3
  have h4 : Calm s s4 := calm_setRegF h3
  clear_value s4
  have h5 : Goes s s5 := h4.goes.trans (goes_configure s4 cfg)
  clear_value s5
  have h6 : Goes s s6 := h5.calm (calm_foldl (Calm.refl s5) (fun _ _ k => calm_fellBack k))
  clear_value s6
  split
  rename_i k s7 e
  have h7 : Goes s s7 := h6.calm (calm_draw e (Calm.refl s6))
  extract_lets s8 s9 s10 s11 s12 s13 s14 s15
  have h8 : Goes s s8 := (h7.calm (calm_modBoot (Calm.refl s7))).trans (goes_resumeLeaf _)
  clear_value s8
  refine goes_ite (fun _ => h8) (fun _ => ?_)
  have h9 : Calm s8 s9 := calm_foldl (Calm.refl s8) (fun _ _ k => calm_setRegF k)
  clear_value s9
  have h10 : Calm s8 s10 := calm_ite (fun _ => calm_foldl h9 (fun _ _ k => calm_setRegF k)) (fun _ => h9)
  clear_value s10
  have h11 : Calm s8 s11 := calm_restoreQuarantine h10
  clear_value s11
  have h12 : Calm s8 s12 := calm_foldl h11 (fun _ _ k => calm_ite (fun _ => k) (fun _ => calm_setRegF k))
  clear_value s12
  have h13 : Calm s8 s13 := calm_trainLoft (calm_trainPorts h12)
  clear_value s13
  have h14 : Goes s s14 := ((h8.calm h13).calm (calm_modBoot (Calm.refl s13))).trans (goes_commitTrial _ img)
  clear_value s14
  have h15 : Calm s14 s15 := calm_setRegN (Calm.refl s14)
  clear_value s15
  exact h14.calm (calm_report h15)

theorem goes_useToken (s : State) (token : List Nat) : Goes s (s.useToken token) := by
  unfold State.useToken
  extract_lets digest old s1
  have h1 : Calm s s1 := calm_setReg64 (Calm.refl s)
  exact goes_ite (fun _ => h1.goes.trans (goes_warmReset s1 5 3 digest))
    (fun _ => h1.goes.calm (calm_setDebugLevel (Calm.refl _)))

theorem goes_tick (s : State) : Goes s s.tick := by
  unfold State.tick
  refine goes_ite (fun _ => Goes.refl s) (fun _ => ?_)
  dsimp only
  have h : Goes s { s with lcc := (s.lcc + 1) % 2 ^ 64 } := id
  exact goes_ite (fun _ => h) (fun _ => h.calm (calm_foldl (calm_releaseTags (calm_finishLoads (calm_cycleCounters (Calm.refl _)))) (fun _ _ k => calm_clearTable k)))

/-! ### Commands -/

theorem goes_act {s t : State} {f : State → State} (e : act s f = .next t) (k : Goes s (f s)) : Goes s t := by
  unfold act at e
  injection e with e
  subst e
  exact goes_ite (fun _ => Goes.refl s) (fun _ => k)

theorem goes_effect {s₀ : State} {f : State → Res} {s : State} (k : ∀ y t, f y = .next t → Goes s₀ y → Goes s₀ t) (h : Goes s₀ s) :
    Goes s₀ (effect f s) := by
  unfold effect
  split
  · next t e => exact k _ _ e h
  · exact h

theorem goes_onBit {s₀ : State} {v : Word} {b : Nat} {f : State → Res} {s : State} (k : ∀ y t, f y = .next t → Goes s₀ y → Goes s₀ t)
    (h : Goes s₀ s) : Goes s₀ (onBit v b f s) := by
  unfold onBit
  exact goes_ite (fun _ => goes_effect k h) (fun _ => h)

theorem goes_access {s : State} {rq : Requester} {a : Nat} {f : State → State} (k : Goes s (f s)) : Goes s (s.access rq a f) := by
  unfold State.access
  split
  · exact k
  · exact (calm_violateReg (Calm.refl s)).goes

theorem goes_served {s : State} {tr : Transport} {f : State → State} (k : Goes s (f s)) : Goes s (s.served tr f) := by
  unfold State.served
  split
  · exact goes_ite (fun _ => Goes.refl s) (fun _ => k)
  · exact k

theorem goes_execColdReset {s t : State} (e : execColdReset s = .next t) : Goes s t := by
  unfold execColdReset at e
  injection e with e
  subst e
  exact goes_coldReset s

theorem goes_execWarmReset {b : Option (Requester × Word)} {s t : State} (e : execWarmReset b s = .next t) : Goes s t := by
  unfold execWarmReset at e
  split at e
  · injection e with e
    subst e
    exact goes_ite (fun _ => Goes.refl s) (fun _ => goes_warmReset s 2 0 0)
  · exact goes_act e (goes_access (goes_warmReset s 3 0 0))

theorem goes_execBoot {c : BootConfig} {r : BootRun} {s t : State} (e : execBoot c r s = .next t) : Goes s t := by
  refine goes_act e (goes_ite (fun _ => Goes.refl s) (fun _ => ?_))
  extract_lets s1 check s2 a
  have h1 : Calm s s1 := calm_nextIncarnation (calm_modBoot (Calm.refl s))
  have h2 : Calm s s2 := calm_setRegF (calm_modBoot h1)
  clear_value check
  clear_value a
  clear_value s2
  clear_value s1
  split
  · extract_lets s3
    have h2 : Calm s s3 := calm_modBoot h1
    clear_value s3
    exact goes_ite (fun _ => h2.goes.trans (goes_bootFrom s3 _ _ _ _)) (fun _ => (calm_modBoot h2).goes)
  · extract_lets fell
    refine goes_ite (fun _ => h2.goes.trans (goes_bootFrom s2 _ _ _ _)) (fun _ => ?_)
    refine goes_ite (fun _ => h2.goes.trans (goes_bootFrom s2 _ _ _ _)) (fun _ => ?_)
    exact (calm_foldl h2 (fun _ _ k => calm_fellBack k)).goes.trans (goes_recover _ _ _)

theorem goes_execBootWatchdog {s t : State} (e : execBootWatchdog s = .next t) : Goes s t := by
  refine goes_act e (goes_ite (fun _ => ?_) (fun _ => Goes.refl s))
  exact (calm_modBoot (Calm.refl s)).goes.trans (goes_warmReset _ 4 0 0)

theorem goes_execRelock {rq : Requester} {v : Word} {s t : State} (e : execRelock rq v s = .next t) : Goes s t := by
  refine goes_act e (goes_access ?_)
  split
  · exact (calm_setDebugLevel (Calm.refl s)).goes
  · exact goes_warmReset s 5 0 0
  · exact Goes.refl s

theorem goes_execDebugToken {l : List Byte} {b : Bool} {s t : State} (e : execDebugToken l b s = .next t) : Goes s t :=
  goes_act e (goes_ite (fun _ => goes_useToken s _) (fun _ => Goes.refl s))

theorem goes_execObjEnd {tr : Transport} {i : BitVec 16} {k : BitVec 8} {b : Bool} {s t : State} (e : execObjEnd tr i k b s = .next t) :
    Goes s t := by
  refine goes_act e ?_
  refine goes_served ?_
  extract_lets n s1 slot
  split
  · exact (calm_answerEnd (Calm.refl s)).goes
  · refine goes_ite (fun _ => (calm_answerEnd (calm_setXfer (Calm.refl s))).goes) (fun _ => ?_)
    refine goes_ite (fun _ => (calm_answerEnd (calm_setXfer (Calm.refl s))).goes) (fun _ => ?_)
    extract_lets r1 s2 s3 r2
    have h1 : Calm s s1 := calm_setXfer (Calm.refl s)
    have h3 : Calm s s3 := calm_answerEnd (calm_modBoot h1)
    clear_value s3
    clear_value s2
    clear_value r1
    clear_value r2
    clear_value slot
    clear_value s1
    clear_value n
    split
    · refine goes_ite (fun _ => ?_) (fun _ => ?_)
      · exact goes_ite (fun _ => h3.goes.trans (goes_warmReset s3 3 0 0)) (fun _ => h3.goes)
      · exact (calm_answerEnd (calm_cause (calm_report h1))).goes
    · exact (calm_answerEnd (calm_installPackage h1)).goes
    · exact (calm_setRegF (calm_modBoot (calm_setShadow h1))).goes
    · exact goes_ite (fun _ => (calm_answerEnd h1).goes.trans (goes_useToken _ _)) (fun _ => (calm_answerEnd h1).goes)

/-! ### Register writes -/

theorem goes_actRng {s : State} {rq : Requester} {o : Nat} {v : Word} : Goes s (s.actRng rq o v) := by
  unfold State.actRng
  refine goes_ite (fun _ => ?_) (fun _ => goes_ite (fun _ => ?_) (fun _ => goes_ite (fun _ => ?_) (fun _ => goes_ite (fun _ => ?_)
    (fun _ => goes_ite (fun _ => ?_) (fun _ => goes_ite (fun _ => ?_) (fun _ => ?_))))))
  · exact (calm_ite (fun _ => calm_effect (fun _ _ e h => calm_execAdmitPartition e h) (Calm.refl s)) (fun _ => calm_ite
      (fun _ => calm_effect (fun _ _ e h => calm_execReleasePartition e h) (Calm.refl s)) (fun _ => calm_store (Calm.refl s)))).goes
  · exact (calm_onBit (fun _ _ e h => calm_execViolClear e h) (Calm.refl s)).goes
  · exact (calm_onBit (fun _ _ e h => calm_execFtCancel e h) (calm_onBit (fun _ _ e h => calm_execFtGo e h) (calm_store (Calm.refl s)))).goes
  · exact goes_onBit (fun _ _ e h => h.trans (goes_execWarmReset e))
      (calm_onBit (fun _ _ e h => calm_execUnitReset e h) (calm_store (Calm.refl s))).goes
  · exact (calm_onBit (fun _ _ e h => calm_execRunNode e h) (calm_onBit (fun _ _ e h => calm_execStandby e h) (Calm.refl s))).goes
  · exact goes_onBit (fun _ _ e h => h.trans (goes_execRelock e))
      (calm_onBit (fun _ _ e h => calm_execNewChallenge e h) (Calm.refl s)).goes
  · exact (calm_store (Calm.refl s)).goes

theorem goes_writeOne {s : State} {rq : Requester} {a : Nat} {v : Word} : Goes s (s.writeOne rq a v) := by
  have c := Calm.refl s
  unfold State.writeOne
  split
  · exact goes_actRng
  · exact (calm_ite (fun _ => calm_onBit (fun _ _ e h => calm_execSetTrial e h) (calm_store c)) (fun _ => calm_ite
      (fun _ => calm_onBit (fun _ _ e h => calm_execSwap e h) c) (fun _ => calm_store c))).goes
  · exact (calm_ite (fun _ => calm_onBit (fun _ _ e h => calm_execMirrorClear e h) (calm_onBit (fun _ _ e h => calm_execMirrorRebuild e h)
      (calm_onBit (fun _ _ e h => calm_execMirrorDetach e h) (calm_onBit (fun _ _ e h => calm_execMirrorCommit e h) c)))) (fun _ => calm_storeAt c)).goes
  · exact (calm_ite (fun _ => calm_effect (fun _ _ e h => calm_execDirHostLostGo e h) c) (fun _ => calm_store c)).goes
  · exact (calm_ite (fun _ => calm_onBit (fun _ _ e h => calm_execWinUnquarantine e h) (calm_onBit (fun _ _ e h => calm_execWinQuarantine e h) c))
      (fun _ => calm_store c)).goes
  · exact (calm_ite (fun _ => calm_onBit (fun _ _ e h => calm_execRowUnquarantine e h) (calm_onBit (fun _ _ e h => calm_execRowQuarantine e h) c))
      (fun _ => calm_store c)).goes
  · exact (calm_ite (fun _ => calm_onBit (fun _ _ e h => calm_execMeUnquarantine e h) (calm_onBit (fun _ _ e h => calm_execMeQuarantine e h) c))
      (fun _ => calm_store c)).goes
  · exact (calm_ite (fun _ => calm_onBit (fun _ _ e h => calm_execGcUnquarantine e h) (calm_onBit (fun _ _ e h => calm_execGcQuarantine e h) c))
      (fun _ => calm_store c)).goes
  · exact (calm_ite (fun _ => calm_onBit (fun _ _ e h => calm_execTallyScan e h) (calm_onBit (fun _ _ e h => calm_execTallyStart e h)
      (calm_onBit (fun _ _ e h => calm_execTallyStop e h) (calm_onBit (fun _ _ e h => calm_execTallyClear e h) c)))) (fun _ => calm_storeAt c)).goes
  · exact (calm_ite (fun _ => calm_writeLinkCtrl c) (fun _ => calm_store c)).goes
  · exact (calm_ite (fun _ => calm_onBit (fun _ _ e h => calm_execLoftChannelReset e h) (calm_onBit (fun _ _ e h => calm_execLoftChannelRetire e h) c))
      (fun _ => calm_store c)).goes
  · exact (calm_actPart c).goes
  · refine goes_ite (fun _ => ?_) (fun _ => goes_ite (fun _ => ?_) (fun _ => goes_ite (fun _ => ?_) (fun _ => goes_ite (fun _ => ?_)
      (fun _ => goes_ite (fun _ => ?_) (fun _ => ?_)))))
    · exact (calm_ite (fun _ => calm_effect (fun _ _ e h => calm_execSclClear e h) c) (fun _ => calm_store c)).goes
    · exact (calm_onBit (fun _ _ e h => calm_execClearAll e h) (calm_onBit (fun _ _ e h => calm_execStopAll e h)
        (calm_onBit (fun _ _ e h => calm_execStartAll e h) c))).goes
    · exact (calm_effect (fun _ _ e h => calm_execSclEvselWrite e h) c).goes
    · exact (calm_effect (fun _ _ e h => calm_execSamplingEnable e h) c).goes
    · exact (calm_onBit (fun _ _ e h => calm_execSclSmpPop e h) c).goes
    · exact (calm_store c).goes
  · exact (calm_store c).goes

theorem goes_writeAny {s : State} {rq : Requester} {a : Nat} {v : Word} : Goes s (s.writeAny rq a v) := by
  unfold State.writeAny
  split
  · exact goes_writeOne
  · exact (calm_writeLow (Calm.refl s)).goes
  · exact (calm_writeHigh (Calm.refl s)).goes

theorem goes_busWrite {s : State} {rq : Requester} {a : Nat} {be : BitVec 4} {f : Nat → State → State} {g : Nat → CxlPart → Nat → State → State}
    (h : ∀ x, Goes s (f x s)) (k : ∀ x y z, Goes s (g x y z s)) : Goes s (s.busWrite rq a be f g) := by
  unfold State.busWrite
  refine goes_ite (fun _ => (calm_violateReg (Calm.refl s)).goes) (fun _ => ?_)
  split
  · exact k _ _ _
  · exact goes_ite (fun _ => h _) (fun _ => (calm_violateReg (Calm.refl s)).goes)

theorem goes_execRegisterPairLowWrite {rq : Requester} {a v : Word} {be : BitVec 4} {s t : State}
    (e : execRegisterPairLowWrite rq a v be s = .next t) : Goes s t :=
  goes_act e (goes_busWrite (fun _ => goes_writeAny) (fun _ _ _ => (calm_writeCxl (Calm.refl s)).goes))

theorem goes_execRegisterPairHighWrite {rq : Requester} {a v : Word} {be : BitVec 4} {s t : State}
    (e : execRegisterPairHighWrite rq a v be s = .next t) : Goes s t :=
  goes_act e (goes_busWrite (fun _ => goes_writeAny) (fun _ _ _ => (calm_writeCxl (Calm.refl s)).goes))

theorem goes_execRegisterWrite {rq : Requester} {a v : Word} {be : BitVec 4} {s t : State}
    (e : execRegisterWrite rq a v be s = .next t) : Goes s t :=
  goes_act e (goes_busWrite (fun _ => goes_writeAny) (fun _ _ _ => (calm_writeCxl (Calm.refl s)).goes))

end Sys2Proof.Machine
end

