-- ==== Sys2Proof/Laws/Quiet.lean ====
section
/-! SUPPORT. The named operations that store nothing leave T1 and T0 as they were (Safety.lean). One lemma for each. -/

namespace Sys2Proof.Machine

set_option simprocs false

theorem Quiet.refl (s : State) : Quiet s s := ⟨rfl, rfl⟩

theorem Quiet.trans {a b c : State} (h : Quiet a b) (k : Quiet b c) : Quiet a c := ⟨k.t1.trans h.t1, k.t0.trans h.t0⟩

/-- An update that touches neither. -/
theorem quiet_mk {s₀ s : State} {regs' : Tbl Word} {latch' : Tbl Word} {held' : Tbl (Option Word)} {lcc' : Nat} {fresh' : Nat} {stopped' : Bool} {parts' : Tbl Part} {fab' : Fabric} {errs' : ErrLog} {ft' : FieldTest} {loft' : Loft} {xlt' : Xlt} {homes' : Homes} {mirrors' : Mirrors} {sync' : Sync} {extents' : List Extent} {lds' : Tbl LogicalDevice} {mgmt' : Mgmt} {netAddr' : Tbl Nat} {fifoSeq' : Tbl Nat} {scalers' : Tbl Scaler} {tally' : Tbl TallyGroup} {engines' : Tbl Engine} {marks' : List Nat} {quarRecord' : List Nat} {cores' : Tbl Core} {resv' : List (Nat × Nat)} {power' : Power} {fuses' : Fuses} {boot' : Boot} {cribs' : Tbl Crib} {cribGen' : Tbl Nat} {forwards' : List Forward} {nextForward' : Nat} {indexes' : Tbl (Option VecIndex)} {loading' : List (Nat × Nat)} {out' : List Out} {pending' : List Instr} (h : Quiet s₀ s) : Quiet s₀ ⟨regs', latch', held', lcc', fresh', stopped', s.t1, s.t0, parts', fab', errs', ft', loft', xlt', homes', mirrors', sync', extents', lds', mgmt', netAddr', fifoSeq', scalers', tally', engines', marks', quarRecord', cores', resv', power', fuses', boot', cribs', cribGen', forwards', nextForward', indexes', loading', out', pending'⟩ := h.trans ⟨rfl, rfl⟩

theorem quiet_foldl {α : Type} {s₀ s : State} {f : State → α → State} {xs : List α} (h : Quiet s₀ s)
    (k : ∀ y x, Quiet s₀ y → Quiet s₀ (f y x)) : Quiet s₀ (xs.foldl f s) := by
  induction xs generalizing s with
  | nil => exact h
  | cons x xs ih => exact ih (k s x h)

theorem quiet_ite {s₀ : State} {c : Prop} [Decidable c] {a b : State} (h : c → Quiet s₀ a) (k : ¬c → Quiet s₀ b) : Quiet s₀ (if c then a else b) := by
  split
  · exact h ‹_›
  · exact k ‹_›

theorem quiet_foldr {α : Type} {s₀ s : State} {f : α → State → State} {xs : List α} (h : Quiet s₀ s)
    (k : ∀ x y, Quiet s₀ y → Quiet s₀ (f x y)) : Quiet s₀ (xs.foldr f s) := by
  induction xs with
  | nil => exact h
  | cons x xs ih => exact k x _ ih

/-- A piece of work leaves them as they were, whether it ends or stops. -/
def QuietWork (s₀ : State) {α : Type} (w : Work α) : Prop :=
  ∀ s, Quiet s₀ s → match w s with
    | .ok r => Quiet s₀ r.2
    | .error f => ∀ y, Quiet s₀ y → Quiet s₀ (f y)

theorem quiet_work {s₀ s : State} {w : Work Unit} (h1 : QuietWork s₀ w) (h : Quiet s₀ s) : Quiet s₀ (State.work s w) := by
  have k := h1 s h
  unfold State.work
  split <;> rename_i e <;> rw [e] at k
  · exact k
  · exact k s h

theorem quietw_pure {s₀ : State} {α : Type} (a : α) : QuietWork s₀ (pure a : Work α) := fun _ h => h

theorem quietw_bind {s₀ : State} {α β : Type} {w : Work α} {f : α → Work β} (h : QuietWork s₀ w) (k : ∀ a, QuietWork s₀ (f a)) : QuietWork s₀ (w >>= f) := by
  intro s hs
  have hw := h s hs
  cases e : w s with
  | error g =>
    have q : (w >>= f) s = .error g := by
      show (w s >>= fun p => f p.1 p.2) = _
      rw [e]; rfl
    rw [q]; rw [e] at hw; exact hw
  | ok r =>
    have q : (w >>= f) s = f r.1 r.2 := by
      show (w s >>= fun p => f p.1 p.2) = _
      rw [e]; rfl
    rw [q]; rw [e] at hw; exact k r.1 r.2 hw

theorem quietw_ite {s₀ : State} {α : Type} {c : Prop} [Decidable c] {a b : Work α} (h : c → QuietWork s₀ a) (k : ¬c → QuietWork s₀ b) :
    QuietWork s₀ (if c then a else b) := by
  split
  · exact h ‹_›
  · exact k ‹_›

theorem quiet_Work_act {s₀ : State} {f : State → State} (k : ∀ y, Quiet s₀ y → Quiet s₀ (f y)) : QuietWork s₀ (Work.act f) := fun s h => k s h

theorem quiet_Work_stop {s₀ : State} {α : Type} {f : State → State} (k : ∀ y, Quiet s₀ y → Quiet s₀ (f y)) : QuietWork s₀ (Work.stop f : Work α) :=
  fun _ _ y h => k y h

theorem quiet_id {s₀ : State} {y : State} (h : Quiet s₀ y) : Quiet s₀ (id y) := h

theorem quiet_Work_view {s₀ : State} {α : Type} {f : State → α} : QuietWork s₀ (Work.view f) := fun _ h => h

theorem quietw_mapM {s₀ : State} {α β : Type} {f : α → Work β} {l : List α} (k : ∀ a, QuietWork s₀ (f a)) : QuietWork s₀ (l.mapM f) := by
  rw [← List.mapM'_eq_mapM]
  induction l with
  | nil => exact quietw_pure _
  | cons a l ih => exact quietw_bind (k a) (fun b => quietw_bind ih (fun c => quietw_pure _))

theorem quietw_forM {s₀ : State} {α : Type} {f : α → Work PUnit} {l : List α} (k : ∀ a, QuietWork s₀ (f a)) : QuietWork s₀ (l.forM f) := by
  induction l with
  | nil => exact quietw_pure _
  | cons a l ih => exact quietw_bind (k a) (fun _ => ih)

theorem quiet_act {s₀ s : State} {f : State → State} {t : State} (e : act s f = .next t) (h : Quiet s₀ s) (k : Quiet s₀ (f s)) : Quiet s₀ t := by
  unfold act at e
  injection e with e
  subst e
  split
  · exact h
  · exact k

theorem quiet_modSync {s₀ : State} {s : State} {a2 : Sync → Sync} (h1 : Quiet s₀ s) : Quiet s₀ (State.modSync s a2) := by
  unfold State.modSync
  with_reducible repeat' (first
      | assumption | apply quiet_id | apply quiet_foldl | apply quiet_foldr | apply quiet_ite | split | intro _ | dsimp only
      | refine quiet_mk ?_)

theorem quiet_setReg {s₀ : State} {s : State} {a2 : Nat} {a3 : Word} (h1 : Quiet s₀ s) : Quiet s₀ (State.setReg s a2 a3) := by
  unfold State.setReg
  with_reducible repeat' (first
      | assumption | apply quiet_id | apply quiet_foldl | apply quiet_foldr | apply quiet_ite | split | intro _ | dsimp only
      | refine quiet_mk ?_)

theorem quiet_setRegN {s₀ : State} {s : State} {a2 : Nat} {a3 : Nat} (h1 : Quiet s₀ s) : Quiet s₀ (State.setRegN s a2 a3) := by
  unfold State.setRegN
  with_reducible repeat' (first
      | assumption | apply quiet_setReg | apply quiet_id | apply quiet_foldl | apply quiet_foldr | apply quiet_ite | split | intro _
      | dsimp only)

theorem quiet_count {s₀ : State} {s : State} {a2 : Nat} {a3 : Nat} (h1 : Quiet s₀ s) : Quiet s₀ (State.count s a2 a3) := by
  unfold State.count
  with_reducible repeat' (first
      | assumption | apply quiet_setRegN | apply quiet_id | apply quiet_foldl | apply quiet_foldr | apply quiet_ite | split | intro _
      | dsimp only)

theorem quiet_modFab {s₀ : State} {s : State} {a2 : Fabric → Fabric} (h1 : Quiet s₀ s) : Quiet s₀ (State.modFab s a2) := by
  unfold State.modFab
  with_reducible repeat' (first
      | assumption | apply quiet_id | apply quiet_foldl | apply quiet_foldr | apply quiet_ite | split | intro _ | dsimp only
      | refine quiet_mk ?_)

theorem quiet_deliver {s₀ : State} {s : State} {a2 : Packet} (h1 : Quiet s₀ s) : Quiet s₀ (State.deliver s a2) := by
  unfold State.deliver
  with_reducible repeat' (first
      | assumption | apply quiet_modFab | apply quiet_id | apply quiet_foldl | apply quiet_foldr | apply quiet_ite | split | intro _
      | dsimp only)

theorem quiet_modPort {s₀ : State} {s : State} {a2 : Nat} {a3 : Port → Port} (h1 : Quiet s₀ s) : Quiet s₀ (State.modPort s a2 a3) := by
  unfold State.modPort
  with_reducible repeat' (first
      | assumption | apply quiet_modFab | apply quiet_id | apply quiet_foldl | apply quiet_foldr | apply quiet_ite | split | intro _
      | dsimp only)

theorem quiet_giveCredit {s₀ : State} {s : State} {a2 : Nat} {a3 : Nat} {a4 : Nat} (h1 : Quiet s₀ s) : Quiet s₀ (State.giveCredit s a2 a3 a4) := by
  unfold State.giveCredit
  with_reducible repeat' (first
      | assumption | apply quiet_modPort | apply quiet_id | apply quiet_foldl | apply quiet_foldr | apply quiet_ite | split | intro _
      | dsimp only)

theorem quiet_spillLines {s₀ : State} {s : State} {a2 : Nat} {a3 : Nat} {a4 : State → Nat → State} (h1 : Quiet s₀ s) (h4 : ∀ y0 y1, Quiet s₀ y0 → Quiet s₀ (a4 y0 y1)) : Quiet s₀ (State.spillLines s a2 a3 a4) := by
  unfold State.spillLines
  with_reducible repeat' (first
      | assumption | apply quiet_id | apply quiet_foldl | apply quiet_foldr | apply quiet_ite | apply h4 | split | intro _ | dsimp only)

theorem quiet_dropResv {s₀ : State} {s : State} {a2 : Nat} (h1 : Quiet s₀ s) : Quiet s₀ (State.dropResv s a2) := by
  unfold State.dropResv
  with_reducible repeat' (first
      | assumption | apply quiet_id | apply quiet_foldl | apply quiet_foldr | apply quiet_ite | split | intro _ | dsimp only
      | refine quiet_mk ?_)

theorem quiet_modScaler {s₀ : State} {s : State} {a2 : Nat} {a3 : Scaler → Scaler} (h1 : Quiet s₀ s) : Quiet s₀ (State.modScaler s a2 a3) := by
  unfold State.modScaler
  with_reducible repeat' (first
      | assumption | apply quiet_id | apply quiet_foldl | apply quiet_foldr | apply quiet_ite | split | intro _ | dsimp only
      | refine quiet_mk ?_)

theorem quiet_bandwidthBytes {s₀ : State} {s : State} {a2 : Nat} {a3 : Nat} {a4 : Nat} {a5 : Nat} (h1 : Quiet s₀ s) : Quiet s₀ (State.bandwidthBytes s a2 a3 a4 a5) := by
  unfold State.bandwidthBytes
  with_reducible repeat' (first
      | assumption | apply quiet_modScaler | apply quiet_id | apply quiet_foldl | apply quiet_foldr | apply quiet_ite | split | intro _
      | dsimp only)

theorem quiet_setReg64 {s₀ : State} {s : State} {a2 : Nat} {a3 : Nat} (h1 : Quiet s₀ s) : Quiet s₀ (State.setReg64 s a2 a3) := by
  unfold State.setReg64
  with_reducible repeat' (first
      | assumption | apply quiet_setRegN | apply quiet_id | apply quiet_foldl | apply quiet_foldr | apply quiet_ite | split | intro _
      | dsimp only)

theorem quiet_modLd {s₀ : State} {s : State} {a2 : Nat} {a3 : LogicalDevice → LogicalDevice} (h1 : Quiet s₀ s) : Quiet s₀ (State.modLd s a2 a3) := by
  unfold State.modLd
  with_reducible repeat' (first
      | assumption | apply quiet_id | apply quiet_foldl | apply quiet_foldr | apply quiet_ite | split | intro _ | dsimp only
      | refine quiet_mk ?_)

theorem quiet_emit {s₀ : State} {s : State} {a2 : Out} (h1 : Quiet s₀ s) : Quiet s₀ (State.emit s a2) := by
  unfold State.emit
  with_reducible repeat' (first
      | assumption | apply quiet_id | apply quiet_foldl | apply quiet_foldr | apply quiet_ite | split | intro _ | dsimp only
      | refine quiet_mk ?_)

theorem quiet_message {s₀ : State} {s : State} {a2 : Nat} (h1 : Quiet s₀ s) : Quiet s₀ (State.message s a2) := by
  unfold State.message
  with_reducible repeat' (first
      | assumption | apply quiet_modLd | apply quiet_emit | apply quiet_id | apply quiet_foldl | apply quiet_foldr | apply quiet_ite
      | split | intro _ | dsimp only)

theorem quiet_notify {s₀ : State} {s : State} {s2 : State} {a3 : Bool} {a4 : Option Nat} (h1 : Quiet s₀ s) (h2 : Quiet s₀ s2) : Quiet s₀ (State.notify s s2 a3 a4) := by
  unfold State.notify
  with_reducible repeat' (first
      | assumption | apply quiet_message | apply quiet_id | apply quiet_foldl | apply quiet_foldr | apply quiet_ite | split | intro _
      | dsimp only)

theorem quiet_cause {s₀ : State} {s : State} {a2 : Nat} {a3 : Nat} (h1 : Quiet s₀ s) : Quiet s₀ (State.cause s a2 a3) := by
  unfold State.cause
  with_reducible repeat' (first
      | assumption | apply quiet_notify | apply quiet_setReg | apply quiet_id | apply quiet_foldl | apply quiet_foldr | apply quiet_ite
      | split | intro _ | dsimp only)

theorem quiet_sclAdd {s₀ : State} {s : State} {a2 : Nat} {a3 : Nat} {a4 : Nat} (h1 : Quiet s₀ s) : Quiet s₀ (State.sclAdd s a2 a3 a4) := by
  unfold State.sclAdd
  with_reducible repeat' (first
      | assumption | apply quiet_setReg64 | apply quiet_cause | apply quiet_modScaler | apply quiet_id | apply quiet_foldl
      | apply quiet_foldr | apply quiet_ite | split | intro _ | dsimp only)

theorem quiet_event {s₀ : State} {s : State} {a2 : Nat} {a3 : Event} (h1 : Quiet s₀ s) : Quiet s₀ (State.event s a2 a3) := by
  unfold State.event
  with_reducible repeat' (first
      | assumption | apply quiet_sclAdd | apply quiet_id | apply quiet_foldl | apply quiet_foldr | apply quiet_ite | split | intro _
      | dsimp only)

theorem quiet_setRegF {s₀ : State} {s : State} {a2 : Nat} {a3 : Nat} {a4 : Nat} {a5 : Nat} (h1 : Quiet s₀ s) : Quiet s₀ (State.setRegF s a2 a3 a4 a5) := by
  unfold State.setRegF
  with_reducible repeat' (first
      | assumption | apply quiet_setReg | apply quiet_id | apply quiet_foldl | apply quiet_foldr | apply quiet_ite | split | intro _
      | dsimp only)

theorem quiet_wakeNow {s₀ : State} {s : State} {a2 : Nat} (h1 : Quiet s₀ s) : Quiet s₀ (State.wakeNow s a2) := by
  unfold State.wakeNow
  with_reducible repeat' (first
      | assumption | apply quiet_setRegF | apply quiet_id | apply quiet_foldl | apply quiet_foldr | apply quiet_ite | split | intro _
      | dsimp only | refine quiet_mk ?_)

theorem quiet_stackLine {s₀ : State} {s : State} {a2 : Nat} {a3 : Nat} {a4 : Nat} {a5 : Bool} {a6 : Origin} (h1 : Quiet s₀ s) : Quiet s₀ (State.stackLine s a2 a3 a4 a5 a6) := by
  unfold State.stackLine
  with_reducible repeat' (first
      | assumption | apply quiet_bandwidthBytes | apply quiet_event | apply quiet_wakeNow | apply quiet_id | apply quiet_foldl
      | apply quiet_foldr | apply quiet_ite | split | intro _ | dsimp only)

theorem quiet_t1Line {s₀ : State} {s : State} {a2 : Nat} {a3 : Nat} {a4 : Bool} {a5 : Origin} (h1 : Quiet s₀ s) : Quiet s₀ (State.t1Line s a2 a3 a4 a5) := by
  unfold State.t1Line
  with_reducible repeat' (first
      | assumption | apply quiet_stackLine | apply quiet_id | apply quiet_foldl | apply quiet_foldr | apply quiet_ite | split | intro _
      | dsimp only)

theorem quiet_combineAll {s₀ : State} {s : State} {a2 : Nat} {a3 : Nat} (h1 : Quiet s₀ s) : Quiet s₀ (State.combineAll s a2 a3) := by
  induction a3 generalizing s a2 h1 with
  | zero =>
    unfold State.combineAll
    with_reducible repeat' (first
      | assumption | apply quiet_count | apply quiet_modPort | apply quiet_event | apply quiet_id | apply quiet_foldl
      | apply quiet_foldr | apply quiet_ite | split | intro _ | dsimp only)
  | succ _ ih =>
    unfold State.combineAll
    with_reducible repeat' (first
      | assumption | apply quiet_count | apply quiet_modPort | apply quiet_event | apply quiet_id | apply quiet_foldl
      | apply quiet_foldr | apply quiet_ite | split | intro _ | dsimp only | apply ih)

theorem quiet_setWindow {s₀ : State} {s : State} {a2 : Nat} {a3 : Nat} {a4 : Nat} {a5 : WinEntry} (h1 : Quiet s₀ s) : Quiet s₀ (State.setWindow s a2 a3 a4 a5) := by
  unfold State.setWindow
  with_reducible repeat' (first
      | assumption | apply quiet_modFab | apply quiet_id | apply quiet_foldl | apply quiet_foldr | apply quiet_ite | split | intro _
      | dsimp only)

theorem quiet_showComp {s₀ : State} {s : State} {a2 : Nat} (h1 : Quiet s₀ s) : Quiet s₀ (State.showComp s a2) := by
  unfold State.showComp
  with_reducible repeat' (first
      | assumption | apply quiet_setRegN | apply quiet_id | apply quiet_foldl | apply quiet_foldr | apply quiet_ite | split | intro _
      | dsimp only)

theorem quiet_setPrepared {s₀ : State} {s : State} {a2 : Nat} {a3 : Option Prepared} (h1 : Quiet s₀ s) : Quiet s₀ (State.setPrepared s a2 a3) := by
  unfold State.setPrepared
  with_reducible repeat' (first
      | assumption | apply quiet_modSync | apply quiet_id | apply quiet_foldl | apply quiet_foldr | apply quiet_ite | split | intro _
      | dsimp only)

theorem quiet_setPart {s₀ : State} {s : State} {a2 : Nat} {a3 : Part} (h1 : Quiet s₀ s) : Quiet s₀ (State.setPart s a2 a3) := by
  unfold State.setPart
  with_reducible repeat' (first
      | assumption | apply quiet_id | apply quiet_foldl | apply quiet_foldr | apply quiet_ite | split | intro _ | dsimp only
      | refine quiet_mk ?_)

theorem quiet_modPart {s₀ : State} {s : State} {a2 : Nat} {a3 : Part → Part} (h1 : Quiet s₀ s) : Quiet s₀ (State.modPart s a2 a3) := by
  unfold State.modPart
  with_reducible repeat' (first
      | assumption | apply quiet_setPart | apply quiet_id | apply quiet_foldl | apply quiet_foldr | apply quiet_ite | split | intro _
      | dsimp only)

theorem quiet_addEnded {s₀ : State} {s : State} {a2 : Nat} {a3 : Control} {a4 : Nat} {a5 : Nat} {a6 : Nat} {a7 : List Nat} (h1 : Quiet s₀ s) : Quiet s₀ (State.addEnded s a2 a3 a4 a5 a6 a7) := by
  unfold State.addEnded
  with_reducible repeat' (first
      | assumption | apply quiet_modPart | apply quiet_id | apply quiet_foldl | apply quiet_foldr | apply quiet_ite | split | intro _
      | dsimp only)

theorem quiet_endControl {s₀ : State} {s : State} {a2 : Nat} {a3 : Control} {a4 : Nat} {a5 : Nat} {a6 : List Nat} (h1 : Quiet s₀ s) : Quiet s₀ (State.endControl s a2 a3 a4 a5 a6) := by
  unfold State.endControl
  with_reducible repeat' (first
      | assumption | apply quiet_addEnded | apply quiet_modPart | apply quiet_id | apply quiet_foldl | apply quiet_foldr
      | apply quiet_ite | split | intro _ | dsimp only)

theorem quiet_dropWaiting {s₀ : State} {s : State} {a2 : Nat} {a3 : Cmd} (h1 : Quiet s₀ s) : Quiet s₀ (State.dropWaiting s a2 a3) := by
  unfold State.dropWaiting
  with_reducible repeat' (first
      | assumption | apply quiet_modPart | apply quiet_id | apply quiet_foldl | apply quiet_foldr | apply quiet_ite | split | intro _
      | dsimp only)

theorem quiet_modCmd {s₀ : State} {s : State} {a2 : Nat} {a3 : Nat} {a4 : Nat} {a5 : Cmd → Cmd} (h1 : Quiet s₀ s) : Quiet s₀ (State.modCmd s a2 a3 a4 a5) := by
  unfold State.modCmd
  with_reducible repeat' (first
      | assumption | apply quiet_modPart | apply quiet_id | apply quiet_foldl | apply quiet_foldr | apply quiet_ite | split | intro _
      | dsimp only)

theorem quiet_dropWaits {s₀ : State} {s : State} {a2 : Nat} {a3 : Cmd} (h1 : Quiet s₀ s) : Quiet s₀ (State.dropWaits s a2 a3) := by
  unfold State.dropWaits
  with_reducible repeat' (first
      | assumption | apply quiet_id | apply quiet_foldl | apply quiet_foldr | apply quiet_ite | split | intro _ | dsimp only
      | refine quiet_mk ?_)

theorem quiet_dropCmd {s₀ : State} {s : State} {a2 : Nat} {a3 : Nat} {a4 : Nat} (h1 : Quiet s₀ s) : Quiet s₀ (State.dropCmd s a2 a3 a4) := by
  unfold State.dropCmd
  with_reducible repeat' (first
      | assumption | apply quiet_modPart | apply quiet_id | apply quiet_foldl | apply quiet_foldr | apply quiet_ite | split | intro _
      | dsimp only)

theorem quiet_finish {s₀ : State} {s : State} {a2 : Nat} {a3 : Nat} {a4 : Nat} {a5 : Nat} {a6 : Nat} {a7 : Nat} (h1 : Quiet s₀ s) : Quiet s₀ (State.finish s a2 a3 a4 a5 a6 a7) := by
  unfold State.finish
  with_reducible repeat' (first
      | assumption | apply quiet_dropWaiting | apply quiet_dropWaits | apply quiet_dropCmd | apply quiet_modCmd
      | apply quiet_modPart | apply quiet_id | apply quiet_foldl | apply quiet_foldr | apply quiet_ite | split | intro _ | dsimp only)

theorem quiet_endCmd {s₀ : State} {s : State} {a2 : Nat} {a3 : Cmd} {a4 : Nat} {a5 : Nat} {a6 : Nat} (h1 : Quiet s₀ s) : Quiet s₀ (State.endCmd s a2 a3 a4 a5 a6) := by
  unfold State.endCmd
  with_reducible repeat' (first
      | assumption | apply quiet_finish | apply quiet_id | apply quiet_foldl | apply quiet_foldr | apply quiet_ite | split | intro _
      | dsimp only)

theorem quiet_endWait {s₀ : State} {s : State} {a2 : SemWaiter} (h1 : Quiet s₀ s) : Quiet s₀ (State.endWait s a2) := by
  unfold State.endWait
  with_reducible repeat' (first
      | assumption | apply quiet_modSync | apply quiet_id | apply quiet_foldl | apply quiet_foldr | apply quiet_ite | split | intro _
      | dsimp only)

theorem quiet_stopWaiting {s₀ : State} {s : State} {a2 : Nat} {a3 : Cmd} (h1 : Quiet s₀ s) : Quiet s₀ (State.stopWaiting s a2 a3) := by
  unfold State.stopWaiting
  with_reducible repeat' (first
      | assumption | apply quiet_endCmd | apply quiet_endWait | apply quiet_id | apply quiet_foldl | apply quiet_foldr
      | apply quiet_ite | split | intro _ | dsimp only)

theorem quiet_abortTarget {s₀ : State} {s : State} {a2 : Nat} {a3 : Control} {a4 : Cmd} (h1 : Quiet s₀ s) : Quiet s₀ (State.abortTarget s a2 a3 a4) := by
  unfold State.abortTarget
  with_reducible repeat' (first
      | assumption | apply quiet_endControl | apply quiet_dropWaiting | apply quiet_modCmd | apply quiet_stopWaiting
      | apply quiet_finish | apply quiet_id | apply quiet_foldl | apply quiet_foldr | apply quiet_ite | split | intro _ | dsimp only)

theorem quiet_count64 {s₀ : State} {s : State} {a2 : Nat} {a3 : Nat} (h1 : Quiet s₀ s) : Quiet s₀ (State.count64 s a2 a3) := by
  unfold State.count64
  with_reducible repeat' (first
      | assumption | apply quiet_setReg64 | apply quiet_id | apply quiet_foldl | apply quiet_foldr | apply quiet_ite | split | intro _
      | dsimp only)

theorem quiet_sendSnoop {s₀ : State} {s : State} {a2 : Nat} {a3 : Nat} {a4 : Bool} {a5 : Origin} (h1 : Quiet s₀ s) : Quiet s₀ (State.sendSnoop s a2 a3 a4 a5) := by
  unfold State.sendSnoop
  with_reducible repeat' (first
      | assumption | apply quiet_emit | apply quiet_count64 | apply quiet_event | apply quiet_id | apply quiet_foldl
      | apply quiet_foldr | apply quiet_ite | split | intro _ | dsimp only)

theorem quiet_modHomes {s₀ : State} {s : State} {a2 : Homes → Homes} (h1 : Quiet s₀ s) : Quiet s₀ (State.modHomes s a2) := by
  unfold State.modHomes
  with_reducible repeat' (first
      | assumption | apply quiet_id | apply quiet_foldl | apply quiet_foldr | apply quiet_ite | split | intro _ | dsimp only
      | refine quiet_mk ?_)

theorem quiet_setRemoteLine {s₀ : State} {s : State} {a2 : Nat} {a3 : Option RemoteLine} (h1 : Quiet s₀ s) : Quiet s₀ (State.setRemoteLine s a2 a3) := by
  unfold State.setRemoteLine
  with_reducible repeat' (first
      | assumption | apply quiet_modHomes | apply quiet_wakeNow | apply quiet_id | apply quiet_foldl | apply quiet_foldr
      | apply quiet_ite | split | intro _ | dsimp only)

theorem quiet_dropOwnCopy {s₀ : State} {s : State} {a2 : FabReq} (h1 : Quiet s₀ s) : Quiet s₀ (State.dropOwnCopy s a2) := by
  unfold State.dropOwnCopy
  with_reducible repeat' (first
      | assumption | apply quiet_setRemoteLine | apply quiet_id | apply quiet_foldl | apply quiet_foldr | apply quiet_ite | split
      | intro _ | dsimp only)

theorem quiet_setRing {s₀ : State} {s : State} {a2 : List ErrRec} (h1 : Quiet s₀ s) : Quiet s₀ (State.setRing s a2) := by
  unfold State.setRing
  with_reducible repeat' (first
      | assumption | apply quiet_setRegN | apply quiet_id | apply quiet_foldl | apply quiet_foldr | apply quiet_ite | split | intro _
      | dsimp only | refine quiet_mk ?_)

theorem quiet_sendRecords {s₀ : State} {s : State} {a2 : List ErrRec} (h1 : Quiet s₀ s) : Quiet s₀ (State.sendRecords s a2) := by
  unfold State.sendRecords
  with_reducible repeat' (first
      | assumption | apply quiet_emit | apply quiet_id | apply quiet_foldl | apply quiet_foldr | apply quiet_ite | split | intro _
      | dsimp only)

theorem quiet_dropRecord {s₀ : State} {s : State} {a2 : Nat} (h1 : Quiet s₀ s) : Quiet s₀ (State.dropRecord s a2) := by
  unfold State.dropRecord
  with_reducible repeat' (first
      | assumption | apply quiet_count | apply quiet_id | apply quiet_foldl | apply quiet_foldr | apply quiet_ite | split | intro _
      | dsimp only | refine quiet_mk ?_)

theorem quiet_addRecord {s₀ : State} {s : State} {a2 : ErrRec} (h1 : Quiet s₀ s) : Quiet s₀ (State.addRecord s a2) := by
  unfold State.addRecord
  with_reducible repeat' (first
      | assumption | apply quiet_setRing | apply quiet_sendRecords | apply quiet_emit | apply quiet_dropRecord | apply quiet_id
      | apply quiet_foldl | apply quiet_foldr | apply quiet_ite | split | intro _ | dsimp only)

theorem quiet_newRecord {s₀ : State} {s : State} {a2 : Nat} {a3 : Nat} {a4 : Nat} {a5 : Nat} {a6 : Option Nat} {a7 : Nat} {a8 : List Nat} (h1 : Quiet s₀ s) : Quiet s₀ (State.newRecord s a2 a3 a4 a5 a6 a7 a8) := by
  unfold State.newRecord
  with_reducible repeat' (first
      | assumption | apply quiet_addRecord | apply quiet_setRegN | apply quiet_id | apply quiet_foldl | apply quiet_foldr
      | apply quiet_ite | split | intro _ | dsimp only)

theorem quiet_report {s₀ : State} {s : State} {a2 : Nat} {a3 : Nat} {a4 : Nat} {a5 : Nat} {a6 : Option Nat} {a7 : Nat} {a8 : List Nat} (h1 : Quiet s₀ s) : Quiet s₀ (State.report s a2 a3 a4 a5 a6 a7 a8) := by
  unfold State.report
  with_reducible repeat' (first
      | assumption | apply quiet_setRing | apply quiet_newRecord | apply quiet_id | apply quiet_foldl | apply quiet_foldr
      | apply quiet_ite | split | intro _ | dsimp only)

theorem quiet_purgeComp {s₀ : State} {s : State} {a2 : Nat} (h1 : Quiet s₀ s) : Quiet s₀ (State.purgeComp s a2) := by
  unfold State.purgeComp
  with_reducible repeat' (first
      | assumption | apply quiet_count | apply quiet_modHomes | apply quiet_id | apply quiet_foldl | apply quiet_foldr
      | apply quiet_ite | split | intro _ | dsimp only)

theorem quiet_setComp {s₀ : State} {s : State} {a2 : Nat} {a3 : Option Comp} (h1 : Quiet s₀ s) : Quiet s₀ (State.setComp s a2 a3) := by
  unfold State.setComp
  with_reducible repeat' (first
      | assumption | apply quiet_modSync | apply quiet_id | apply quiet_foldl | apply quiet_foldr | apply quiet_ite | split | intro _
      | dsimp only)

theorem quiet_setPstate {s₀ : State} {s : State} {a2 : Nat} {a3 : PState} (h1 : Quiet s₀ s) : Quiet s₀ (State.setPstate s a2 a3) := by
  unfold State.setPstate
  with_reducible repeat' (first
      | assumption | apply quiet_setRegF | apply quiet_id | apply quiet_foldl | apply quiet_foldr | apply quiet_ite | split | intro _
      | dsimp only)

theorem quiet_enter {s₀ : State} {s : State} {a2 : Nat} {a3 : PState} (h1 : Quiet s₀ s) : Quiet s₀ (State.enter s a2 a3) := by
  unfold State.enter
  with_reducible repeat' (first
      | assumption | apply quiet_notify | apply quiet_setPstate | apply quiet_id | apply quiet_foldl | apply quiet_foldr
      | apply quiet_ite | split | intro _ | dsimp only)

theorem quiet_pcause {s₀ : State} {s : State} {a2 : Nat} {a3 : Nat} {a4 : Nat} (h1 : Quiet s₀ s) : Quiet s₀ (State.pcause s a2 a3 a4) := by
  unfold State.pcause
  with_reducible repeat' (first
      | assumption | apply quiet_notify | apply quiet_setReg | apply quiet_id | apply quiet_foldl | apply quiet_foldr | apply quiet_ite
      | split | intro _ | dsimp only)

theorem quiet_endProposal {s₀ : State} {s : State} {a2 : Nat} {a3 : Nat} {a4 : Nat} (h1 : Quiet s₀ s) : Quiet s₀ (State.endProposal s a2 a3 a4) := by
  unfold State.endProposal
  with_reducible repeat' (first
      | assumption | apply quiet_setRegN | apply quiet_setRegF | apply quiet_id | apply quiet_foldl | apply quiet_foldr
      | apply quiet_ite | split | intro _ | dsimp only)

theorem quiet_targetLost {s₀ : State} {s : State} {a2 : Option Nat} {a3 : Nat} {a4 : Nat} {a5 : Nat} (h1 : Quiet s₀ s) : Quiet s₀ (State.targetLost s a2 a3 a4 a5) := by
  unfold State.targetLost
  with_reducible repeat' (first
      | assumption | apply quiet_count | apply quiet_report | apply quiet_cause | apply quiet_id | apply quiet_foldl
      | apply quiet_foldr | apply quiet_ite | split | intro _ | dsimp only)

theorem quiet_freeze {s₀ : State} {s : State} {a2 : Nat} {a3 : Nat} {a4 : Nat} {a5 : Nat} (h1 : Quiet s₀ s) : Quiet s₀ (State.freeze s a2 a3 a4 a5) := by
  unfold State.freeze
  with_reducible repeat' (first
      | assumption | apply quiet_targetLost | apply quiet_enter | apply quiet_id | apply quiet_foldl | apply quiet_foldr
      | apply quiet_ite | split | intro _ | dsimp only)

theorem quiet_holdPending {s₀ : State} {s : State} {a2 : HomeReq} (h1 : Quiet s₀ s) : Quiet s₀ (State.holdPending s a2) := by
  unfold State.holdPending
  with_reducible repeat' (first
      | assumption | apply quiet_id | apply quiet_foldl | apply quiet_foldr | apply quiet_ite | split | intro _ | dsimp only
      | refine quiet_mk ?_)

theorem quiet_count64Sat {s₀ : State} {s : State} {a2 : Nat} {a3 : Nat} (h1 : Quiet s₀ s) : Quiet s₀ (State.count64Sat s a2 a3) := by
  unfold State.count64Sat
  with_reducible repeat' (first
      | assumption | apply quiet_setReg64 | apply quiet_id | apply quiet_foldl | apply quiet_foldr | apply quiet_ite | split | intro _
      | dsimp only)

theorem quiet_corrected {s₀ : State} {s : State} {a2 : Nat} {a3 : Nat} {a4 : Nat} {a5 : Nat} (h1 : Quiet s₀ s) : Quiet s₀ (State.corrected s a2 a3 a4 a5) := by
  unfold State.corrected
  with_reducible repeat' (first
      | assumption | apply quiet_id | apply quiet_foldl | apply quiet_foldr | apply quiet_ite | split | intro _ | dsimp only
      | refine quiet_mk ?_)

theorem quiet_t1Corrected {s₀ : State} {s : State} {a2 : Nat} {a3 : Nat} (h1 : Quiet s₀ s) : Quiet s₀ (State.t1Corrected s a2 a3) := by
  unfold State.t1Corrected
  with_reducible repeat' (first
      | assumption | apply quiet_count64Sat | apply quiet_setRegN | apply quiet_setReg64 | apply quiet_corrected | apply quiet_id
      | apply quiet_foldl | apply quiet_foldr | apply quiet_ite | split | intro _ | dsimp only)

theorem quiet_answerHost {s₀ : State} {s : State} {a2 : HomeReq} {a3 : String} {a4 : Option Nat} {a5 : Bool} (h1 : Quiet s₀ s) : Quiet s₀ (State.answerHost s a2 a3 a4 a5) := by
  unfold State.answerHost
  with_reducible repeat' (first
      | assumption | apply quiet_emit | apply quiet_id | apply quiet_foldl | apply quiet_foldr | apply quiet_ite | split | intro _
      | dsimp only)

theorem quiet_modRing {s₀ : State} {s : State} {a2 : Nat} {a3 : Nat} {a4 : Ring → Ring} (h1 : Quiet s₀ s) : Quiet s₀ (State.modRing s a2 a3 a4) := by
  unfold State.modRing
  with_reducible repeat' (first
      | assumption | apply quiet_modPart | apply quiet_id | apply quiet_foldl | apply quiet_foldr | apply quiet_ite | split | intro _
      | dsimp only)

theorem quiet_pageCause {s₀ : State} {s : State} {a2 : Nat} {a3 : Nat} (h1 : Quiet s₀ s) : Quiet s₀ (State.pageCause s a2 a3) := by
  unfold State.pageCause
  with_reducible repeat' (first
      | assumption | apply quiet_pcause | apply quiet_id | apply quiet_foldl | apply quiet_foldr | apply quiet_ite | split | intro _
      | dsimp only)

theorem quiet_commitPacket {s₀ : State} {s : State} {a2 : Nat} {a3 : Nat} {a4 : Nat} {a5 : Nat} {a6 : List Nat} (h1 : Quiet s₀ s) : Quiet s₀ (State.commitPacket s a2 a3 a4 a5 a6) := by
  unfold State.commitPacket
  with_reducible repeat' (first
      | assumption | apply quiet_setRegN | apply quiet_modRing | apply quiet_modPart | apply quiet_id | apply quiet_foldl
      | apply quiet_foldr | apply quiet_ite | split | intro _ | dsimp only)

theorem quiet_modMirror {s₀ : State} {s : State} {a2 : Nat} {a3 : Mirror → Mirror} (h1 : Quiet s₀ s) : Quiet s₀ (State.modMirror s a2 a3) := by
  unfold State.modMirror
  with_reducible repeat' (first
      | assumption | apply quiet_id | apply quiet_foldl | apply quiet_foldr | apply quiet_ite | split | intro _ | dsimp only
      | refine quiet_mk ?_)

theorem quiet_mirrorTo {s₀ : State} {s : State} {a2 : Nat} {a3 : Nat} {a4 : Nat} (h1 : Quiet s₀ s) : Quiet s₀ (State.mirrorTo s a2 a3 a4) := by
  unfold State.mirrorTo
  with_reducible repeat' (first
      | assumption | apply quiet_cause | apply quiet_modMirror | apply quiet_report | apply quiet_id | apply quiet_foldl
      | apply quiet_foldr | apply quiet_ite | split | intro _ | dsimp only)

theorem quiet_requeue {s₀ : State} {s : State} {a2 : HomeReq} (h1 : Quiet s₀ s) : Quiet s₀ (State.requeue s a2) := by
  unfold State.requeue
  with_reducible repeat' (first
      | assumption | apply quiet_modHomes | apply quiet_id | apply quiet_foldl | apply quiet_foldr | apply quiet_ite | split | intro _
      | dsimp only)

theorem quiet_protoErr {s₀ : State} {s : State} {a2 : Nat} {a3 : Nat} {a4 : Nat} {a5 : Nat} {a6 : Nat} (h1 : Quiet s₀ s) : Quiet s₀ (State.protoErr s a2 a3 a4 a5 a6) := by
  unfold State.protoErr
  with_reducible repeat' (first
      | assumption | apply quiet_cause | apply quiet_setRegN | apply quiet_count | apply quiet_id | apply quiet_foldl
      | apply quiet_foldr | apply quiet_ite | split | intro _ | dsimp only)

theorem quiet_lineErr {s₀ : State} {s : State} {a2 : Nat} {a3 : Nat} {a4 : Source} (h1 : Quiet s₀ s) : Quiet s₀ (State.lineErr s a2 a3 a4) := by
  unfold State.lineErr
  with_reducible repeat' (first
      | assumption | apply quiet_protoErr | apply quiet_id | apply quiet_foldl | apply quiet_foldr | apply quiet_ite | split | intro _
      | dsimp only)

theorem quiet_countRequest {s₀ : State} {s : State} {a2 : HomeReq} (h1 : Quiet s₀ s) : Quiet s₀ (State.countRequest s a2) := by
  unfold State.countRequest
  with_reducible repeat' (first
      | assumption | apply quiet_event | apply quiet_id | apply quiet_foldl | apply quiet_foldr | apply quiet_ite | split | intro _
      | dsimp only)

theorem quiet_assembleAll {s₀ s : State} {a2 : Nat} {a3 : List (Nat × List Nat)} {t} {r1} (e : State.assembleAll s a2 a3 = (t, r1))
    (h1 : Quiet s₀ s) : Quiet s₀ t := by
  induction a3 generalizing s t r1 with
  | nil => unfold State.assembleAll at e; cases e; exact h1
  | cons x l ih => unfold State.assembleAll at e; cases e; exact ih (Prod.eta _).symm (quiet_modPort h1)

theorem quiet_assembleAll' {s₀ s : State} {a2 : Nat} {a3 : List (Nat × List Nat)} (h1 : Quiet s₀ s) : Quiet s₀ (State.assembleAll s a2 a3).1 :=
  quiet_assembleAll (e := (Prod.eta _).symm) h1


theorem quiet_discard {s₀ : State} {s : State} {a2 : Nat} (h1 : Quiet s₀ s) : Quiet s₀ (State.discard s a2) := by
  unfold State.discard
  with_reducible repeat' (first
      | assumption | apply quiet_cause | apply quiet_count | apply quiet_id | apply quiet_foldl | apply quiet_foldr | apply quiet_ite
      | split | intro _ | dsimp only)

theorem quiet_setLink {s₀ : State} {s : State} {a2 : Nat} {a3 : Nat} (h1 : Quiet s₀ s) : Quiet s₀ (State.setLink s a2 a3) := by
  unfold State.setLink
  with_reducible repeat' (first
      | assumption | apply quiet_setRegF | apply quiet_id | apply quiet_foldl | apply quiet_foldr | apply quiet_ite | split | intro _
      | dsimp only)

theorem quiet_linkDown {s₀ : State} {s : State} {a2 : Nat} {a3 : Nat} (h1 : Quiet s₀ s) : Quiet s₀ (State.linkDown s a2 a3) := by
  unfold State.linkDown
  with_reducible repeat' (first
      | assumption | apply quiet_count | apply quiet_setRegF | apply quiet_setLink | apply quiet_report | apply quiet_cause
      | apply quiet_id | apply quiet_foldl | apply quiet_foldr | apply quiet_ite | split | intro _ | dsimp only)

theorem quiet_leaveStaging {s₀ : State} {s : State} {a2 : QEntry} (h1 : Quiet s₀ s) : Quiet s₀ (State.leaveStaging s a2) := by
  unfold State.leaveStaging
  with_reducible repeat' (first
      | assumption | apply quiet_giveCredit | apply quiet_id | apply quiet_foldl | apply quiet_foldr | apply quiet_ite | split
      | intro _ | dsimp only)

theorem quiet_violate {s₀ : State} {s : State} {a2 : Nat} {a3 : Bool} {a4 : Nat} {a5 : Nat} {a6 : Nat} (h1 : Quiet s₀ s) : Quiet s₀ (State.violate s a2 a3 a4 a5 a6) := by
  unfold State.violate
  with_reducible repeat' (first
      | assumption | apply quiet_count64 | apply quiet_setRegN | apply quiet_setReg64 | apply quiet_count | apply quiet_id
      | apply quiet_foldl | apply quiet_foldr | apply quiet_ite | split | intro _ | dsimp only)

theorem quiet_violateReg {s₀ : State} {s : State} {a2 : Requester} {a3 : Bool} {a4 : Nat} (h1 : Quiet s₀ s) : Quiet s₀ (State.violateReg s a2 a3 a4) := by
  unfold State.violateReg
  with_reducible repeat' (first
      | assumption | apply quiet_violate | apply quiet_id | apply quiet_foldl | apply quiet_foldr | apply quiet_ite | split | intro _
      | dsimp only)

theorem quiet_access {s₀ : State} {s : State} {a2 : Requester} {a3 : Nat} {a4 : State → State} (h1 : Quiet s₀ s) (h4 : ∀ y0, Quiet s₀ y0 → Quiet s₀ (a4 y0)) : Quiet s₀ (State.access s a2 a3 a4) := by
  unfold State.access
  with_reducible repeat' (first
      | assumption | apply quiet_violateReg | apply quiet_id | apply quiet_foldl | apply quiet_foldr | apply quiet_ite | apply h4
      | split | intro _ | dsimp only)

theorem quiet_modCore {s₀ : State} {s : State} {a2 : Nat} {a3 : Core → Core} (h1 : Quiet s₀ s) : Quiet s₀ (State.modCore s a2 a3) := by
  unfold State.modCore
  with_reducible repeat' (first
      | assumption | apply quiet_id | apply quiet_foldl | apply quiet_foldr | apply quiet_ite | split | intro _ | dsimp only
      | refine quiet_mk ?_)

theorem quiet_draw {s₀ : State} {s : State} {r0} {t} (e : State.draw s = (r0, t)) (h1 : Quiet s₀ s) : Quiet s₀ t := by
  unfold State.draw at e
  repeat' (first | (split at e) | (dsimp only at e))
  all_goals (first | (cases e) | (simp only [Option.map_eq_some_iff] at e; obtain ⟨_, _, rfl⟩ := e) | (simp only [Option.some.injEq, Prod.mk.injEq] at e; obtain ⟨_, rfl⟩ := e) | (simp only [Option.some.injEq, Prod.mk.injEq] at e; subst e) | skip)
  all_goals with_reducible repeat' (first
      | assumption | apply quiet_id | apply quiet_foldl | apply quiet_foldr | apply quiet_ite | split | intro _ | dsimp only
      | refine quiet_mk ?_)

theorem quiet_draw' {s₀ : State} {s : State} (h1 : Quiet s₀ s) : Quiet s₀ (State.draw s).2 :=
  quiet_draw (e := (Prod.eta _).symm) h1

theorem quiet_addSample {s₀ : State} {s : State} {a2 : Nat} {a3 : Nat → List Nat} (h1 : Quiet s₀ s) : Quiet s₀ (State.addSample s a2 a3) := by
  unfold State.addSample
  with_reducible repeat' (first
      | assumption | apply quiet_modScaler | apply quiet_cause | apply quiet_count | apply quiet_id | apply quiet_foldl
      | apply quiet_foldr | apply quiet_ite | split | intro _ | dsimp only)

theorem quiet_sample {s₀ : State} {s : State} {a2 : Nat} {a3 : Sampled} {a4 : Bool} {a5 : Nat} (h1 : Quiet s₀ s) : Quiet s₀ (State.sample s a2 a3 a4 a5) := by
  unfold State.sample
  with_reducible repeat' (first
      | assumption | refine quiet_draw (by assumption) ?_ | apply quiet_draw' | apply quiet_addSample | apply quiet_id
      | apply quiet_foldl | apply quiet_foldr | apply quiet_ite | split | intro _ | dsimp only)

theorem quiet_itemDone {s₀ : State} {s : State} {a2 : Nat} {a3 : Nat} {a4 : Sampled} (h1 : Quiet s₀ s) : Quiet s₀ (State.itemDone s a2 a3 a4) := by
  unfold State.itemDone
  with_reducible repeat' (first
      | assumption | apply quiet_modScaler | apply quiet_sample | apply quiet_id | apply quiet_foldl | apply quiet_foldr
      | apply quiet_ite | split | intro _ | dsimp only)

theorem quiet_retireAt {s₀ : State} {s : State} {a2 : Nat} {a3 : Nat} {a4 : Nat} {a5 : Nat} {a6 : Nat} (h1 : Quiet s₀ s) : Quiet s₀ (State.retireAt s a2 a3 a4 a5 a6) := by
  unfold State.retireAt
  with_reducible repeat' (first
      | assumption | apply quiet_modCore | apply quiet_count64 | apply quiet_setReg64 | apply quiet_event | apply quiet_itemDone
      | apply quiet_id | apply quiet_foldl | apply quiet_foldr | apply quiet_ite | split | intro _ | dsimp only)

theorem quiet_retire {s₀ : State} {s : State} {a2 : Nat} {a3 : Nat} {a4 : Nat} (h1 : Quiet s₀ s) : Quiet s₀ (State.retire s a2 a3 a4) := by
  unfold State.retire
  with_reducible repeat' (first
      | assumption | apply quiet_retireAt | apply quiet_id | apply quiet_foldl | apply quiet_foldr | apply quiet_ite | split | intro _
      | dsimp only)

theorem quiet_accessDone {s₀ : State} {s : State} {a2 : Nat} {a3 : Nat} {a4 : Nat} {a5 : Nat} {a6 : Nat} (h1 : Quiet s₀ s) : Quiet s₀ (State.accessDone s a2 a3 a4 a5 a6) := by
  unfold State.accessDone
  with_reducible repeat' (first
      | assumption | apply quiet_modCore | apply quiet_retire | apply quiet_id | apply quiet_foldl | apply quiet_foldr
      | apply quiet_ite | split | intro _ | dsimp only)

theorem quiet_ackCmd {s₀ : State} {s : State} {a2 : Nat} {a3 : Nat} {a4 : Nat} (h1 : Quiet s₀ s) : Quiet s₀ (State.ackCmd s a2 a3 a4) := by
  unfold State.ackCmd
  with_reducible repeat' (first
      | assumption | apply quiet_modCmd | apply quiet_id | apply quiet_foldl | apply quiet_foldr | apply quiet_ite | split | intro _
      | dsimp only)

theorem quiet_ackTo {s₀ : State} {s : State} {a2 : Nat} {a3 : Nat} (h1 : Quiet s₀ s) : Quiet s₀ (State.ackTo s a2 a3) := by
  unfold State.ackTo
  with_reducible repeat' (first
      | assumption | apply quiet_setRegN | apply quiet_setRing | apply quiet_report | apply quiet_id | apply quiet_foldl
      | apply quiet_foldr | apply quiet_ite | split | intro _ | dsimp only | refine quiet_mk ?_)

theorem quiet_effect {s₀ : State} {f : State → Res} {s : State} (h1 : ∀ y t, f y = .next t → Quiet s₀ y → Quiet s₀ t) (h : Quiet s₀ s) :
    Quiet s₀ (effect f s) := by
  unfold effect
  split
  · next t e => exact h1 _ _ e h
  · exact h


theorem quiet_onBit {s₀ : State} {v : Word} {b : Nat} {f : State → Res} {s : State} (h1 : ∀ y t, f y = .next t → Quiet s₀ y → Quiet s₀ t)
    (h : Quiet s₀ s) : Quiet s₀ (onBit v b f s) := by
  unfold onBit
  split
  · exact quiet_effect h1 h
  · exact h


theorem quiet_dropHeldOf {s₀ : State} {s : State} {a2 : Nat} (h1 : Quiet s₀ s) : Quiet s₀ (State.dropHeldOf s a2) := by
  unfold State.dropHeldOf
  with_reducible repeat' (first
      | assumption | apply quiet_id | apply quiet_foldl | apply quiet_foldr | apply quiet_ite | split | intro _ | dsimp only
      | refine quiet_mk ?_)

theorem quiet_noteHeld {s₀ : State} {s : State} {a2 : Nat} {a3 : Nat} {a4 : HeldStore} (h1 : Quiet s₀ s) : Quiet s₀ (State.noteHeld s a2 a3 a4) := by
  unfold State.noteHeld
  with_reducible repeat' (first
      | assumption | apply quiet_setRegN | apply quiet_id | apply quiet_foldl | apply quiet_foldr | apply quiet_ite | split | intro _
      | dsimp only)

theorem quiet_disableRing {s₀ : State} {s : State} {a2 : Nat} {a3 : Nat} {a4 : Bool} (h1 : Quiet s₀ s) : Quiet s₀ (State.disableRing s a2 a3 a4) := by
  unfold State.disableRing
  with_reducible repeat' (first
      | assumption | apply quiet_setRegF | apply quiet_modRing | apply quiet_pageCause | apply quiet_id | apply quiet_foldl
      | apply quiet_foldr | apply quiet_ite | split | intro _ | dsimp only)

theorem quiet_forgetBarriers {s₀ : State} {s : State} {a2 : Nat} (h1 : Quiet s₀ s) : Quiet s₀ (State.forgetBarriers s a2) := by
  unfold State.forgetBarriers
  with_reducible repeat' (first
      | assumption | apply quiet_modSync | apply quiet_id | apply quiet_foldl | apply quiet_foldr | apply quiet_ite | split | intro _
      | dsimp only)

theorem quiet_clearDown {s₀ : State} {s : State} {a2 : Nat} (h1 : Quiet s₀ s) : Quiet s₀ (State.clearDown s a2) := by
  unfold State.clearDown
  with_reducible repeat' (first
      | assumption | apply quiet_showComp | apply quiet_forgetBarriers | apply quiet_setComp | apply quiet_id | apply quiet_foldl
      | apply quiet_foldr | apply quiet_ite | split | intro _ | dsimp only)

theorem quiet_uncontained {s₀ : State} {s : State} {a2 : Nat} {a3 : Nat} (h1 : Quiet s₀ s) : Quiet s₀ (State.uncontained s a2 a3) := by
  unfold State.uncontained
  with_reducible repeat' (first
      | assumption | apply quiet_report | apply quiet_enter | apply quiet_id | apply quiet_foldl | apply quiet_foldr | apply quiet_ite
      | split | intro _ | dsimp only)

theorem quiet_execFaultPop {s₀ : State} {a1 : Requester} {a2 : Fin 32} {a3 : Word} {a4 : Bool} {s : State} {t : State} (e : execFaultPop a1 a2 a3 s a4 = .next t) (h5 : Quiet s₀ s) : Quiet s₀ t := by
  unfold execFaultPop at e
  try dsimp only at e
  first
  | refine quiet_act e (by assumption) ?_
  | (injection e with e; subst e)
  | (revert e; repeat' (split); all_goals (intro e; injection e with e; subst e))
  all_goals with_reducible repeat' (first
      | assumption | apply quiet_access | apply quiet_notify | apply quiet_modPart | apply quiet_uncontained | apply quiet_id
      | apply quiet_foldl | apply quiet_foldr | apply quiet_ite | split | intro _ | dsimp only)

theorem quiet_store {s₀ : State} {s : State} {a2 : Nat} {a3 : Word} (h1 : Quiet s₀ s) : Quiet s₀ (State.store s a2 a3) := by
  unfold State.store
  with_reducible repeat' (first
      | assumption | apply quiet_setReg | apply quiet_notify | apply quiet_id | apply quiet_foldl | apply quiet_foldr | apply quiet_ite
      | split | intro _ | dsimp only)

theorem quiet_beginRing {s₀ : State} {s : State} {a2 : Nat} {a3 : Nat} {a4 : Range} {a5 : Range} (h1 : Quiet s₀ s) : Quiet s₀ (State.beginRing s a2 a3 a4 a5) := by
  unfold State.beginRing
  with_reducible repeat' (first
      | assumption | apply quiet_modRing | apply quiet_id | apply quiet_foldl | apply quiet_foldr | apply quiet_ite | split | intro _
      | dsimp only)

theorem quiet_registerRing {s₀ : State} {s : State} {a2 : Nat} {a3 : Nat} {a4 : Nat} {a5 : Nat} {a6 : Range} {a7 : Range} (h1 : Quiet s₀ s) : Quiet s₀ (State.registerRing s a2 a3 a4 a5 a6 a7) := by
  unfold State.registerRing
  with_reducible repeat' (first
      | assumption | apply quiet_modRing | apply quiet_setRegF | apply quiet_beginRing | apply quiet_id | apply quiet_foldl
      | apply quiet_foldr | apply quiet_ite | split | intro _ | dsimp only)

theorem quiet_enableRing {s₀ : State} {s : State} {a2 : Nat} {a3 : Nat} {a4 : Word} (h1 : Quiet s₀ s) : Quiet s₀ (State.enableRing s a2 a3 a4) := by
  unfold State.enableRing
  with_reducible repeat' (first
      | assumption | apply quiet_store | apply quiet_registerRing | apply quiet_id | apply quiet_foldl | apply quiet_foldr
      | apply quiet_ite | split | intro _ | dsimp only)

theorem quiet_execCplEnable {s₀ : State} {a1 : Requester} {a2 : Fin 32} {a3 : Word} {s : State} {t : State} (e : execCplEnable a1 a2 a3 s = .next t) (h4 : Quiet s₀ s) : Quiet s₀ t := by
  unfold execCplEnable at e
  try dsimp only at e
  first
  | refine quiet_act e (by assumption) ?_
  | (injection e with e; subst e)
  | (revert e; repeat' (split); all_goals (intro e; injection e with e; subst e))
  all_goals with_reducible repeat' (first
      | assumption | apply quiet_access | apply quiet_enableRing | apply quiet_id | apply quiet_foldl | apply quiet_foldr
      | apply quiet_ite | split | intro _ | dsimp only)

theorem quiet_disableWrite {s₀ : State} {s : State} {a2 : Nat} {a3 : Nat} {a4 : Word} (h1 : Quiet s₀ s) : Quiet s₀ (State.disableWrite s a2 a3 a4) := by
  unfold State.disableWrite
  with_reducible repeat' (first
      | assumption | apply quiet_disableRing | apply quiet_store | apply quiet_id | apply quiet_foldl | apply quiet_foldr
      | apply quiet_ite | split | intro _ | dsimp only)

theorem quiet_headWrite {s₀ : State} {s : State} {a2 : Requester} {a3 : Nat} {a4 : Nat} {a5 : Nat} {a6 : Word} (h1 : Quiet s₀ s) : Quiet s₀ (State.headWrite s a2 a3 a4 a5 a6) := by
  unfold State.headWrite
  with_reducible repeat' (first
      | assumption | apply quiet_access | apply quiet_violateReg | apply quiet_setRegN | apply quiet_id | apply quiet_foldl
      | apply quiet_foldr | apply quiet_ite | split | intro _ | dsimp only)

theorem quiet_execCplHeadWrite {s₀ : State} {a1 : Requester} {a2 : Fin 32} {a3 : Word} {s : State} {t : State} (e : execCplHeadWrite a1 a2 a3 s = .next t) (h4 : Quiet s₀ s) : Quiet s₀ t := by
  unfold execCplHeadWrite at e
  try dsimp only at e
  first
  | refine quiet_act e (by assumption) ?_
  | (injection e with e; subst e)
  | (revert e; repeat' (split); all_goals (intro e; injection e with e; subst e))
  all_goals with_reducible repeat' (first
      | assumption | apply quiet_headWrite | apply quiet_id | apply quiet_foldl | apply quiet_foldr | apply quiet_ite | split | intro _
      | dsimp only)

theorem quiet_execChuteEnable {s₀ : State} {a1 : Requester} {a2 : Fin 32} {a3 : Fin 64} {a4 : Word} {s : State} {t : State} (e : execChuteEnable a1 a2 a3 a4 s = .next t) (h5 : Quiet s₀ s) : Quiet s₀ t := by
  unfold execChuteEnable at e
  try dsimp only at e
  first
  | refine quiet_act e (by assumption) ?_
  | (injection e with e; subst e)
  | (revert e; repeat' (split); all_goals (intro e; injection e with e; subst e))
  all_goals with_reducible repeat' (first
      | assumption | apply quiet_access | apply quiet_enableRing | apply quiet_id | apply quiet_foldl | apply quiet_foldr
      | apply quiet_ite | split | intro _ | dsimp only)

theorem quiet_execChuteDisable {s₀ : State} {a1 : Requester} {a2 : Fin 32} {a3 : Fin 64} {a4 : Word} {s : State} {t : State} (e : execChuteDisable a1 a2 a3 a4 s = .next t) (h5 : Quiet s₀ s) : Quiet s₀ t := by
  unfold execChuteDisable at e
  try dsimp only at e
  first
  | refine quiet_act e (by assumption) ?_
  | (injection e with e; subst e)
  | (revert e; repeat' (split); all_goals (intro e; injection e with e; subst e))
  all_goals with_reducible repeat' (first
      | assumption | apply quiet_access | apply quiet_disableWrite | apply quiet_id | apply quiet_foldl | apply quiet_foldr
      | apply quiet_ite | split | intro _ | dsimp only)

theorem quiet_escEnable {s₀ : State} {s : State} {a2 : Nat} {a3 : Word} (h1 : Quiet s₀ s) : Quiet s₀ (State.escEnable s a2 a3) := by
  unfold State.escEnable
  with_reducible repeat' (first
      | assumption | apply quiet_store | apply quiet_registerRing | apply quiet_id | apply quiet_foldl | apply quiet_foldr
      | apply quiet_ite | split | intro _ | dsimp only)

theorem quiet_execEscTableEnable {s₀ : State} {a1 : Requester} {a2 : Fin 32} {a3 : Word} {s : State} {t : State} (e : execEscTableEnable a1 a2 a3 s = .next t) (h4 : Quiet s₀ s) : Quiet s₀ t := by
  unfold execEscTableEnable at e
  try dsimp only at e
  first
  | refine quiet_act e (by assumption) ?_
  | (injection e with e; subst e)
  | (revert e; repeat' (split); all_goals (intro e; injection e with e; subst e))
  all_goals with_reducible repeat' (first
      | assumption | apply quiet_access | apply quiet_escEnable | apply quiet_id | apply quiet_foldl | apply quiet_foldr
      | apply quiet_ite | split | intro _ | dsimp only)

theorem quiet_execXltEnable {s₀ : State} {a1 : Requester} {a2 : Fin 32} {a3 : Word} {s : State} {t : State} (e : execXltEnable a1 a2 a3 s = .next t) (h4 : Quiet s₀ s) : Quiet s₀ t := by
  unfold execXltEnable at e
  try dsimp only at e
  first
  | refine quiet_act e (by assumption) ?_
  | (injection e with e; subst e)
  | (revert e; repeat' (split); all_goals (intro e; injection e with e; subst e))
  all_goals with_reducible repeat' (first
      | assumption | apply quiet_access | apply quiet_store | apply quiet_setRegF | apply quiet_id | apply quiet_foldl
      | apply quiet_foldr | apply quiet_ite | split | intro _ | dsimp only)

theorem quiet_dropXlt {s₀ : State} {s : State} {a2 : Nat} {a3 : Nat} {a4 : Nat} (h1 : Quiet s₀ s) : Quiet s₀ (State.dropXlt s a2 a3 a4) := by
  unfold State.dropXlt
  with_reducible repeat' (first
      | assumption | apply quiet_id | apply quiet_foldl | apply quiet_foldr | apply quiet_ite | split | intro _ | dsimp only
      | refine quiet_mk ?_)

theorem quiet_dropAllXlt {s₀ : State} {s : State} {a2 : Nat} (h1 : Quiet s₀ s) : Quiet s₀ (State.dropAllXlt s a2) := by
  unfold State.dropAllXlt
  with_reducible repeat' (first
      | assumption | apply quiet_dropXlt | apply quiet_id | apply quiet_foldl | apply quiet_foldr | apply quiet_ite | split | intro _
      | dsimp only)

theorem quiet_xltOff {s₀ : State} {s : State} {a2 : Nat} (h1 : Quiet s₀ s) : Quiet s₀ (State.xltOff s a2) := by
  unfold State.xltOff
  with_reducible repeat' (first
      | assumption | apply quiet_dropAllXlt | apply quiet_setRegF | apply quiet_id | apply quiet_foldl | apply quiet_foldr
      | apply quiet_ite | split | intro _ | dsimp only)

theorem quiet_execXltDisable {s₀ : State} {a1 : Requester} {a2 : Fin 32} {a3 : Word} {s : State} {t : State} (e : execXltDisable a1 a2 a3 s = .next t) (h4 : Quiet s₀ s) : Quiet s₀ t := by
  unfold execXltDisable at e
  try dsimp only at e
  first
  | refine quiet_act e (by assumption) ?_
  | (injection e with e; subst e)
  | (revert e; repeat' (split); all_goals (intro e; injection e with e; subst e))
  all_goals with_reducible repeat' (first
      | assumption | apply quiet_access | apply quiet_xltOff | apply quiet_id | apply quiet_foldl | apply quiet_foldr | apply quiet_ite
      | split | intro _ | dsimp only)

theorem quiet_invalidate {s₀ : State} {s : State} {a2 : Requester} {a3 : Nat} {a4 : Word} {a5 : State → Nat × Nat} (h1 : Quiet s₀ s) : Quiet s₀ (State.invalidate s a2 a3 a4 a5) := by
  unfold State.invalidate
  with_reducible repeat' (first
      | assumption | apply quiet_access | apply quiet_store | apply quiet_modPart | apply quiet_setRegF | apply quiet_dropXlt
      | apply quiet_id | apply quiet_foldl | apply quiet_foldr | apply quiet_ite | split | intro _ | dsimp only)

theorem quiet_execXltInvalidateAll {s₀ : State} {a1 : Requester} {a2 : Fin 32} {a3 : Word} {s : State} {t : State} (e : execXltInvalidateAll a1 a2 a3 s = .next t) (h4 : Quiet s₀ s) : Quiet s₀ t := by
  unfold execXltInvalidateAll at e
  try dsimp only at e
  first
  | refine quiet_act e (by assumption) ?_
  | (injection e with e; subst e)
  | (revert e; repeat' (split); all_goals (intro e; injection e with e; subst e))
  all_goals with_reducible repeat' (first
      | assumption | apply quiet_invalidate | apply quiet_id | apply quiet_foldl | apply quiet_foldr | apply quiet_ite | split
      | intro _ | dsimp only)

theorem quiet_execXltInvalidate {s₀ : State} {a1 : Requester} {a2 : Fin 32} {a3 : Word} {s : State} {t : State} (e : execXltInvalidate a1 a2 a3 s = .next t) (h4 : Quiet s₀ s) : Quiet s₀ t := by
  unfold execXltInvalidate at e
  try dsimp only at e
  first
  | refine quiet_act e (by assumption) ?_
  | (injection e with e; subst e)
  | (revert e; repeat' (split); all_goals (intro e; injection e with e; subst e))
  all_goals with_reducible repeat' (first
      | assumption | apply quiet_invalidate | apply quiet_id | apply quiet_foldl | apply quiet_foldr | apply quiet_ite | split
      | intro _ | dsimp only)

theorem quiet_execMboxEnable {s₀ : State} {a1 : Requester} {a2 : Fin 32} {a3 : Word} {s : State} {t : State} (e : execMboxEnable a1 a2 a3 s = .next t) (h4 : Quiet s₀ s) : Quiet s₀ t := by
  unfold execMboxEnable at e
  try dsimp only at e
  first
  | refine quiet_act e (by assumption) ?_
  | (injection e with e; subst e)
  | (revert e; repeat' (split); all_goals (intro e; injection e with e; subst e))
  all_goals with_reducible repeat' (first
      | assumption | apply quiet_access | apply quiet_enableRing | apply quiet_id | apply quiet_foldl | apply quiet_foldr
      | apply quiet_ite | split | intro _ | dsimp only)

theorem quiet_execMboxHeadWrite {s₀ : State} {a1 : Requester} {a2 : Fin 32} {a3 : Word} {s : State} {t : State} (e : execMboxHeadWrite a1 a2 a3 s = .next t) (h4 : Quiet s₀ s) : Quiet s₀ t := by
  unfold execMboxHeadWrite at e
  try dsimp only at e
  first
  | refine quiet_act e (by assumption) ?_
  | (injection e with e; subst e)
  | (revert e; repeat' (split); all_goals (intro e; injection e with e; subst e))
  all_goals with_reducible repeat' (first
      | assumption | apply quiet_headWrite | apply quiet_id | apply quiet_foldl | apply quiet_foldr | apply quiet_ite | split | intro _
      | dsimp only)

theorem quiet_dirAnswer {s₀ : State} {s : State} {a2 : Nat} {a3 : Nat} {a4 : Nat} {a5 : Range} {a6 : Nat} (h1 : Quiet s₀ s) : Quiet s₀ (State.dirAnswer s a2 a3 a4 a5 a6) := by
  unfold State.dirAnswer
  with_reducible repeat' (first
      | assumption | apply quiet_modRing | apply quiet_setRegF | apply quiet_id | apply quiet_foldl | apply quiet_foldr
      | apply quiet_ite | split | intro _ | dsimp only)

theorem quiet_execRowDirEnable {s₀ : State} {a1 : Requester} {a2 : Fin 32} {a3 : Word} {s : State} {t : State} (e : execRowDirEnable a1 a2 a3 s = .next t) (h4 : Quiet s₀ s) : Quiet s₀ t := by
  unfold execRowDirEnable at e
  try dsimp only at e
  first
  | refine quiet_act e (by assumption) ?_
  | (injection e with e; subst e)
  | (revert e; repeat' (split); all_goals (intro e; injection e with e; subst e))
  all_goals with_reducible repeat' (first
      | assumption | apply quiet_access | apply quiet_store | apply quiet_dirAnswer | apply quiet_id | apply quiet_foldl
      | apply quiet_foldr | apply quiet_ite | split | intro _ | dsimp only)

theorem quiet_showBusy {s₀ : State} {s : State} {a2 : Nat} (h1 : Quiet s₀ s) : Quiet s₀ (State.showBusy s a2) := by
  unfold State.showBusy
  with_reducible repeat' (first
      | assumption | apply quiet_setRegF | apply quiet_id | apply quiet_foldl | apply quiet_foldr | apply quiet_ite | split | intro _
      | dsimp only)

theorem quiet_setIndex {s₀ : State} {s : State} {a2 : Nat} {a3 : Nat} {a4 : Option VecIndex} (h1 : Quiet s₀ s) : Quiet s₀ (State.setIndex s a2 a3 a4) := by
  unfold State.setIndex
  with_reducible repeat' (first
      | assumption | apply quiet_id | apply quiet_foldl | apply quiet_foldr | apply quiet_ite | split | intro _ | dsimp only
      | refine quiet_mk ?_)

theorem quiet_beginUnload {s₀ : State} {s : State} {a2 : Nat} {a3 : Nat} (h1 : Quiet s₀ s) : Quiet s₀ (State.beginUnload s a2 a3) := by
  unfold State.beginUnload
  with_reducible repeat' (first
      | assumption | apply quiet_showBusy | apply quiet_setIndex | apply quiet_id | apply quiet_foldl | apply quiet_foldr
      | apply quiet_ite | split | intro _ | dsimp only)

theorem quiet_unloadAll {s₀ : State} {s : State} {a2 : Nat} (h1 : Quiet s₀ s) : Quiet s₀ (State.unloadAll s a2) := by
  unfold State.unloadAll
  with_reducible repeat' (first
      | assumption | apply quiet_beginUnload | apply quiet_id | apply quiet_foldl | apply quiet_foldr | apply quiet_ite | split
      | intro _ | dsimp only)

theorem quiet_execWinDirEnable {s₀ : State} {a1 : Requester} {a2 : Fin 32} {a3 : Word} {s : State} {t : State} (e : execWinDirEnable a1 a2 a3 s = .next t) (h4 : Quiet s₀ s) : Quiet s₀ t := by
  unfold execWinDirEnable at e
  try dsimp only at e
  first
  | refine quiet_act e (by assumption) ?_
  | (injection e with e; subst e)
  | (revert e; repeat' (split); all_goals (intro e; injection e with e; subst e))
  all_goals with_reducible repeat' (first
      | assumption | apply quiet_access | apply quiet_store | apply quiet_setRegF | apply quiet_modRing | apply quiet_unloadAll
      | apply quiet_dirAnswer | apply quiet_id | apply quiet_foldl | apply quiet_foldr | apply quiet_ite | split | intro _ | dsimp only)

theorem quiet_execIndexUnload {s₀ : State} {a1 : Requester} {a2 : Fin 32} {a3 : Word} {s : State} {t : State} (e : execIndexUnload a1 a2 a3 s = .next t) (h4 : Quiet s₀ s) : Quiet s₀ t := by
  unfold execIndexUnload at e
  try dsimp only at e
  first
  | refine quiet_act e (by assumption) ?_
  | (injection e with e; subst e)
  | (revert e; repeat' (split); all_goals (intro e; injection e with e; subst e))
  all_goals with_reducible repeat' (first
      | assumption | apply quiet_access | apply quiet_store | apply quiet_setRegF | apply quiet_beginUnload | apply quiet_id
      | apply quiet_foldl | apply quiet_foldr | apply quiet_ite | split | intro _ | dsimp only)

theorem quiet_numbered {s₀ : State} {s : State} (h1 : Quiet s₀ s) : Quiet s₀ (State.numbered s) := by
  unfold State.numbered
  with_reducible repeat' (first
      | assumption | apply quiet_id | apply quiet_foldl | apply quiet_foldr | apply quiet_ite | split | intro _ | dsimp only
      | refine quiet_mk ?_)

theorem quiet_showLoaded {s₀ : State} {s : State} {a2 : Nat} {a3 : Nat} {a4 : Bool} (h1 : Quiet s₀ s) : Quiet s₀ (State.showLoaded s a2 a3 a4) := by
  unfold State.showLoaded
  with_reducible repeat' (first
      | assumption | apply quiet_setRegF | apply quiet_id | apply quiet_foldl | apply quiet_foldr | apply quiet_ite | split | intro _
      | dsimp only)

theorem quiet_endRun {s₀ : State} {s : State} {a2 : Nat} {a3 : Nat} {a4 : Nat} {a5 : Nat} (h1 : Quiet s₀ s) : Quiet s₀ (State.endRun s a2 a3 a4 a5) := by
  unfold State.endRun
  with_reducible repeat' (first
      | assumption | apply quiet_modCore | apply quiet_id | apply quiet_foldl | apply quiet_foldr | apply quiet_ite | split | intro _
      | dsimp only)

theorem quiet_failCmd {s₀ : State} {s : State} {a2 : Nat} {a3 : Nat} {a4 : Nat} {a5 : Nat} (h1 : Quiet s₀ s) : Quiet s₀ (State.failCmd s a2 a3 a4 a5) := by
  unfold State.failCmd
  with_reducible repeat' (first
      | assumption | apply quiet_endRun | apply quiet_finish | apply quiet_id | apply quiet_foldl | apply quiet_foldr | apply quiet_ite
      | split | intro _ | dsimp only)

theorem quiet_arrive {s₀ : State} {s : State} {a2 : Arrival} (h1 : Quiet s₀ s) : Quiet s₀ (State.arrive s a2) := by
  unfold State.arrive
  with_reducible repeat' (first
      | assumption | apply quiet_modFab | apply quiet_id | apply quiet_foldl | apply quiet_foldr | apply quiet_ite | split | intro _
      | dsimp only)

theorem quiet_violateMem {s₀ : State} {s : State} {a2 : Source} {a3 : Bool} {a4 : Nat} (h1 : Quiet s₀ s) : Quiet s₀ (State.violateMem s a2 a3 a4) := by
  unfold State.violateMem
  with_reducible repeat' (first
      | assumption | apply quiet_violate | apply quiet_id | apply quiet_foldl | apply quiet_foldr | apply quiet_ite | split | intro _
      | dsimp only)

theorem quiet_promote {s₀ : State} {s : State} {a2 : Nat} (h1 : Quiet s₀ s) : Quiet s₀ (State.promote s a2) := by
  unfold State.promote
  with_reducible repeat' (first
      | assumption | apply quiet_mirrorTo | apply quiet_id | apply quiet_foldl | apply quiet_foldr | apply quiet_ite | split | intro _
      | dsimp only)

theorem quiet_modProposal {s₀ : State} {s : State} {a2 : Nat} {a3 : Proposal → Proposal} (h1 : Quiet s₀ s) : Quiet s₀ (State.modProposal s a2 a3) := by
  unfold State.modProposal
  with_reducible repeat' (first
      | assumption | apply quiet_modSync | apply quiet_id | apply quiet_foldl | apply quiet_foldr | apply quiet_ite | split | intro _
      | dsimp only)

theorem quiet_lostWaiter {s₀ : State} {s : State} {a2 : Waiter} {a3 : Nat} (h1 : Quiet s₀ s) : Quiet s₀ (State.lostWaiter s a2 a3) := by
  unfold State.lostWaiter
  with_reducible repeat' (first
      | assumption | apply quiet_failCmd | apply quiet_arrive | apply quiet_id | apply quiet_foldl | apply quiet_foldr
      | apply quiet_ite | split | intro _ | dsimp only)

theorem quiet_modTally {s₀ : State} {s : State} {a2 : Nat} {a3 : Nat} {a4 : TallyGroup → TallyGroup} (h1 : Quiet s₀ s) : Quiet s₀ (State.modTally s a2 a3 a4) := by
  unfold State.modTally
  with_reducible repeat' (first
      | assumption | apply quiet_id | apply quiet_foldl | apply quiet_foldr | apply quiet_ite | split | intro _ | dsimp only
      | refine quiet_mk ?_)

theorem quiet_tallyWrite {s₀ : State} {s : State} {a2 : Requester} {a3 : Nat} {a4 : Nat → LaneKind → Nat → State} (h1 : Quiet s₀ s) (h4 : ∀ y0 y1 y2, Quiet s₀ (a4 y0 y1 y2)) : Quiet s₀ (State.tallyWrite s a2 a3 a4) := by
  unfold State.tallyWrite
  with_reducible repeat' (first
      | assumption | apply quiet_modTally | apply quiet_id | apply quiet_foldl | apply quiet_foldr | apply quiet_ite | apply h4 | split
      | intro _ | dsimp only)

theorem quiet_writeTly {s₀ : State} {s : State} {a2 : Requester} {a3 : Nat} {a4 : Nat} {a5 : Word} (h1 : Quiet s₀ s) : Quiet s₀ (State.writeTly s a2 a3 a4 a5) := by
  unfold State.writeTly
  with_reducible repeat' (first
      | assumption | apply quiet_tallyWrite | apply quiet_modTally | apply quiet_id | apply quiet_foldl | apply quiet_foldr
      | apply quiet_ite | split | intro _ | dsimp only)

theorem quiet_writeMirror {s₀ : State} {s : State} {a2 : Nat} {a3 : Word} (h1 : Quiet s₀ s) : Quiet s₀ (State.writeMirror s a2 a3) := by
  unfold State.writeMirror
  with_reducible repeat' (first
      | assumption | apply quiet_modMirror | apply quiet_id | apply quiet_foldl | apply quiet_foldr | apply quiet_ite | split | intro _
      | dsimp only)

theorem quiet_storeAt {s₀ : State} {s : State} {a2 : Requester} {a3 : Nat} {a4 : Word} (h1 : Quiet s₀ s) : Quiet s₀ (State.storeAt s a2 a3 a4) := by
  unfold State.storeAt
  with_reducible repeat' (first
      | assumption | apply quiet_writeTly | apply quiet_store | apply quiet_writeMirror | apply quiet_id | apply quiet_foldl
      | apply quiet_foldr | apply quiet_ite | split | intro _ | dsimp only)

theorem quiet_admResult {s₀ : State} {s : State} {a2 : Nat} (h1 : Quiet s₀ s) : Quiet s₀ (State.admResult s a2) := by
  unfold State.admResult
  with_reducible repeat' (first
      | assumption | apply quiet_setRegN | apply quiet_id | apply quiet_foldl | apply quiet_foldr | apply quiet_ite | split | intro _
      | dsimp only)

theorem quiet_resetUnit {s₀ : State} {s : State} {a2 : UnitKind} {a3 : Nat} (h1 : Quiet s₀ s) : Quiet s₀ (State.resetUnit s a2 a3) := by
  unfold State.resetUnit
  with_reducible repeat' (first
      | assumption | apply quiet_id | apply quiet_foldl | apply quiet_foldr | apply quiet_ite | split | intro _ | dsimp only
      | refine quiet_mk ?_)

theorem quiet_showFt {s₀ : State} {s : State} (h1 : Quiet s₀ s) : Quiet s₀ (State.showFt s) := by
  unfold State.showFt
  with_reducible repeat' (first
      | assumption | apply quiet_setRegF | apply quiet_setRegN | apply quiet_id | apply quiet_foldl | apply quiet_foldr
      | apply quiet_ite | split | intro _ | dsimp only)

theorem quiet_modFt {s₀ : State} {s : State} {a2 : FieldTest → FieldTest} (h1 : Quiet s₀ s) : Quiet s₀ (State.modFt s a2) := by
  unfold State.modFt
  with_reducible repeat' (first
      | assumption | apply quiet_id | apply quiet_foldl | apply quiet_foldr | apply quiet_ite | split | intro _ | dsimp only
      | refine quiet_mk ?_)

theorem quiet_ftRestore {s₀ : State} {s : State} {a2 : FtRun} (h1 : Quiet s₀ s) : Quiet s₀ (State.ftRestore s a2) := by
  unfold State.ftRestore
  with_reducible repeat' (first
      | assumption | apply quiet_resetUnit | apply quiet_modTally | apply quiet_showFt | apply quiet_modFt | apply quiet_id
      | apply quiet_foldl | apply quiet_foldr | apply quiet_ite | split | intro _ | dsimp only)

theorem quiet_ftResult {s₀ : State} {s : State} {a2 : Nat} {a3 : Nat} {a4 : Nat} {a5 : Nat} {a6 : Nat} (h1 : Quiet s₀ s) : Quiet s₀ (State.ftResult s a2 a3 a4 a5 a6) := by
  unfold State.ftResult
  with_reducible repeat' (first
      | assumption | apply quiet_setRegN | apply quiet_id | apply quiet_foldl | apply quiet_foldr | apply quiet_ite | split | intro _
      | dsimp only)

theorem quiet_ftDefer {s₀ : State} {s : State} {a2 : FtReq} {a3 : Nat} (h1 : Quiet s₀ s) : Quiet s₀ (State.ftDefer s a2 a3) := by
  unfold State.ftDefer
  with_reducible repeat' (first
      | assumption | apply quiet_modFt | apply quiet_ftResult | apply quiet_report | apply quiet_cause | apply quiet_count
      | apply quiet_id | apply quiet_foldl | apply quiet_foldr | apply quiet_ite | split | intro _ | dsimp only)

theorem quiet_tallyPreempt {s₀ : State} {s : State} {a2 : Nat} {a3 : Nat} (h1 : Quiet s₀ s) : Quiet s₀ (State.tallyPreempt s a2 a3) := by
  unfold State.tallyPreempt
  with_reducible repeat' (first
      | assumption | apply quiet_cause | apply quiet_modTally | apply quiet_id | apply quiet_foldl | apply quiet_foldr
      | apply quiet_ite | split | intro _ | dsimp only)

theorem quiet_tallyPreemptStacks {s₀ : State} {s : State} (h1 : Quiet s₀ s) : Quiet s₀ (State.tallyPreemptStacks s) := by
  unfold State.tallyPreemptStacks
  with_reducible repeat' (first
      | assumption | apply quiet_tallyPreempt | apply quiet_id | apply quiet_foldl | apply quiet_foldr | apply quiet_ite | split
      | intro _ | dsimp only)

theorem quiet_setOwner {s₀ : State} {s : State} {a2 : UnitKind} {a3 : Nat} {a4 : Option Nat} (h1 : Quiet s₀ s) : Quiet s₀ (State.setOwner s a2 a3 a4) := by
  unfold State.setOwner
  with_reducible repeat' (first
      | assumption | apply quiet_setRegF | apply quiet_id | apply quiet_foldl | apply quiet_foldr | apply quiet_ite | split | intro _
      | dsimp only)

theorem quiet_zeroSems {s₀ : State} {s : State} {a2 : Nat} {a3 : Nat} (h1 : Quiet s₀ s) : Quiet s₀ (State.zeroSems s a2 a3) := by
  unfold State.zeroSems
  with_reducible repeat' (first
      | assumption | apply quiet_modSync | apply quiet_id | apply quiet_foldl | apply quiet_foldr | apply quiet_ite | split | intro _
      | dsimp only)

theorem quiet_showSwitchMins {s₀ : State} {s : State} (h1 : Quiet s₀ s) : Quiet s₀ (State.showSwitchMins s) := by
  unfold State.showSwitchMins
  with_reducible repeat' (first
      | assumption | apply quiet_setRegN | apply quiet_id | apply quiet_foldl | apply quiet_foldr | apply quiet_ite | split | intro _
      | dsimp only)

theorem quiet_choose {s₀ : State} {s : State} {a2 : Nat} {r0} {t} (e : State.choose s a2 = (r0, t)) (h1 : Quiet s₀ s) : Quiet s₀ t := by
  unfold State.choose at e
  repeat' (first | (split at e) | (dsimp only at e))
  all_goals (first | (cases e) | (simp only [Option.map_eq_some_iff] at e; obtain ⟨_, _, rfl⟩ := e) | (simp only [Option.some.injEq, Prod.mk.injEq] at e; obtain ⟨_, rfl⟩ := e) | (simp only [Option.some.injEq, Prod.mk.injEq] at e; subst e) | skip)
  all_goals with_reducible repeat' (first
      | assumption | apply quiet_id | apply quiet_foldl | apply quiet_foldr | apply quiet_ite | split | intro _ | dsimp only
      | refine quiet_mk ?_)

theorem quiet_choose' {s₀ : State} {s : State} {a2 : Nat} (h1 : Quiet s₀ s) : Quiet s₀ (State.choose s a2).2 :=
  quiet_choose (e := (Prod.eta _).symm) h1

theorem quiet_modLoft {s₀ : State} {s : State} {a2 : Loft → Loft} (h1 : Quiet s₀ s) : Quiet s₀ (State.modLoft s a2) := by
  unfold State.modLoft
  with_reducible repeat' (first
      | assumption | apply quiet_id | apply quiet_foldl | apply quiet_foldr | apply quiet_ite | split | intro _ | dsimp only
      | refine quiet_mk ?_)

theorem quiet_giveChunks {s₀ : State} {s : State} {a2 : Nat} {a3 : Nat} (h1 : Quiet s₀ s) : Quiet s₀ (State.giveChunks s a2 a3) := by
  induction a3 generalizing s a2 h1 with
  | zero =>
    unfold State.giveChunks
    with_reducible repeat' (first
      | assumption | refine quiet_choose (by assumption) ?_ | apply quiet_choose' | apply quiet_setRegF | apply quiet_modLoft
      | apply quiet_id | apply quiet_foldl | apply quiet_foldr | apply quiet_ite | split | intro _ | dsimp only)
  | succ _ ih =>
    unfold State.giveChunks
    with_reducible repeat' (first
      | assumption | refine quiet_choose (by assumption) ?_ | apply quiet_choose' | apply quiet_setRegF | apply quiet_modLoft
      | apply quiet_id | apply quiet_foldl | apply quiet_foldr | apply quiet_ite | split | intro _ | dsimp only | apply ih)

theorem quiet_execViolClear {s₀ : State} {a1 : Requester} {a2 : Word} {s : State} {t : State} (e : execViolClear a1 a2 s = .next t) (h3 : Quiet s₀ s) : Quiet s₀ t := by
  unfold execViolClear at e
  try dsimp only at e
  first
  | refine quiet_act e (by assumption) ?_
  | (injection e with e; subst e)
  | (revert e; repeat' (split); all_goals (intro e; injection e with e; subst e))
  all_goals with_reducible repeat' (first
      | assumption | apply quiet_access | apply quiet_setReg64 | apply quiet_setRegN | apply quiet_id | apply quiet_foldl
      | apply quiet_foldr | apply quiet_ite | split | intro _ | dsimp only)

theorem quiet_ftDrop {s₀ : State} {s : State} {a2 : Nat} (h1 : Quiet s₀ s) : Quiet s₀ (State.ftDrop s a2) := by
  unfold State.ftDrop
  with_reducible repeat' (first
      | assumption | apply quiet_showFt | apply quiet_modFt | apply quiet_id | apply quiet_foldl | apply quiet_foldr | apply quiet_ite
      | split | intro _ | dsimp only)

theorem quiet_execFtCancel {s₀ : State} {a1 : Requester} {a2 : Word} {s : State} {t : State} (e : execFtCancel a1 a2 s = .next t) (h3 : Quiet s₀ s) : Quiet s₀ t := by
  unfold execFtCancel at e
  try dsimp only at e
  first
  | refine quiet_act e (by assumption) ?_
  | (injection e with e; subst e)
  | (revert e; repeat' (split); all_goals (intro e; injection e with e; subst e))
  all_goals with_reducible repeat' (first
      | assumption | apply quiet_access | apply quiet_store | apply quiet_ftResult | apply quiet_ftRestore | apply quiet_ftDrop
      | apply quiet_id | apply quiet_foldl | apply quiet_foldr | apply quiet_ite | split | intro _ | dsimp only)

theorem quiet_execFtGo {s₀ : State} {a1 : Requester} {a2 : Word} {s : State} {t : State} (e : execFtGo a1 a2 s = .next t) (h3 : Quiet s₀ s) : Quiet s₀ t := by
  unfold execFtGo at e
  try dsimp only at e
  first
  | refine quiet_act e (by assumption) ?_
  | (injection e with e; subst e)
  | (revert e; repeat' (split); all_goals (intro e; injection e with e; subst e))
  all_goals with_reducible repeat' (first
      | assumption | apply quiet_access | apply quiet_store | refine quiet_draw (by assumption) ?_ | apply quiet_draw'
      | apply quiet_ftResult | apply quiet_modFt | apply quiet_showFt | apply quiet_setRegF | apply quiet_id | apply quiet_foldl
      | apply quiet_foldr | apply quiet_ite | split | intro _ | dsimp only)

theorem quiet_execUnitReset {s₀ : State} {a1 : Requester} {a2 : Word} {s : State} {t : State} (e : execUnitReset a1 a2 s = .next t) (h3 : Quiet s₀ s) : Quiet s₀ t := by
  unfold execUnitReset at e
  try dsimp only at e
  first
  | refine quiet_act e (by assumption) ?_
  | (injection e with e; subst e)
  | (revert e; repeat' (split); all_goals (intro e; injection e with e; subst e))
  all_goals with_reducible repeat' (first
      | assumption | apply quiet_access | apply quiet_store | apply quiet_resetUnit | apply quiet_wakeNow | apply quiet_id
      | apply quiet_foldl | apply quiet_foldr | apply quiet_ite | split | intro _ | dsimp only)

theorem quiet_modBoot {s₀ : State} {s : State} {a2 : Boot → Boot} (h1 : Quiet s₀ s) : Quiet s₀ (State.modBoot s a2) := by
  unfold State.modBoot
  with_reducible repeat' (first
      | assumption | apply quiet_id | apply quiet_foldl | apply quiet_foldr | apply quiet_ite | split | intro _ | dsimp only
      | refine quiet_mk ?_)

theorem quiet_keepRoles {s₀ : State} {s : State} {s2 : State} (h1 : Quiet s₀ s) (h2 : Quiet s₀ s2) : Quiet s₀ (State.keepRoles s s2) := by
  unfold State.keepRoles
  with_reducible repeat' (first
      | assumption | apply quiet_setRegF | apply quiet_id | apply quiet_foldl | apply quiet_foldr | apply quiet_ite | split | intro _
      | dsimp only)

theorem quiet_extend {s₀ : State} {s : State} {a2 : Nat} {a3 : List Nat} (h1 : Quiet s₀ s) : Quiet s₀ (State.extend s a2 a3) := by
  unfold State.extend
  with_reducible repeat' (first
      | assumption | apply quiet_modBoot | apply quiet_id | apply quiet_foldl | apply quiet_foldr | apply quiet_ite | split | intro _
      | dsimp only)

theorem quiet_setDebugLevel {s₀ : State} {s : State} {a2 : Nat} {a3 : Nat} {a4 : Nat} (h1 : Quiet s₀ s) : Quiet s₀ (State.setDebugLevel s a2 a3 a4) := by
  unfold State.setDebugLevel
  with_reducible repeat' (first
      | assumption | apply quiet_setRegF | apply quiet_cause | apply quiet_report | apply quiet_extend | apply quiet_id
      | apply quiet_foldl | apply quiet_foldr | apply quiet_ite | split | intro _ | dsimp only)

theorem quiet_execRunNode {s₀ : State} {a1 : Requester} {a2 : Word} {s : State} {t : State} (e : execRunNode a1 a2 s = .next t) (h3 : Quiet s₀ s) : Quiet s₀ t := by
  unfold execRunNode at e
  try dsimp only at e
  first
  | refine quiet_act e (by assumption) ?_
  | (injection e with e; subst e)
  | (revert e; repeat' (split); all_goals (intro e; injection e with e; subst e))
  all_goals with_reducible repeat' (first
      | assumption | apply quiet_access | apply quiet_setRegF | apply quiet_id | apply quiet_foldl | apply quiet_foldr
      | apply quiet_ite | split | intro _ | dsimp only)

theorem quiet_execStandby {s₀ : State} {a1 : Requester} {a2 : Word} {s : State} {t : State} (e : execStandby a1 a2 s = .next t) (h3 : Quiet s₀ s) : Quiet s₀ t := by
  unfold execStandby at e
  try dsimp only at e
  first
  | refine quiet_act e (by assumption) ?_
  | (injection e with e; subst e)
  | (revert e; repeat' (split); all_goals (intro e; injection e with e; subst e))
  all_goals with_reducible repeat' (first
      | assumption | apply quiet_access | apply quiet_setRegF | apply quiet_cause | apply quiet_id | apply quiet_foldl
      | apply quiet_foldr | apply quiet_ite | split | intro _ | dsimp only)

theorem quiet_execNewChallenge {s₀ : State} {a1 : Requester} {a2 : Word} {s : State} {t : State} (e : execNewChallenge a1 a2 s = .next t) (h3 : Quiet s₀ s) : Quiet s₀ t := by
  unfold execNewChallenge at e
  try dsimp only at e
  first
  | refine quiet_act e (by assumption) ?_
  | (injection e with e; subst e)
  | (revert e; repeat' (split); all_goals (intro e; injection e with e; subst e))
  all_goals with_reducible repeat' (first
      | assumption | apply quiet_access | refine quiet_draw (by assumption) ?_ | apply quiet_draw' | apply quiet_setReg64
      | apply quiet_id | apply quiet_foldl | apply quiet_foldr | apply quiet_ite | split | intro _ | dsimp only)

theorem quiet_eventRecord {s₀ : State} {s : State} {a2 : Nat} {a3 : Nat} {a4 : Range} (h1 : Quiet s₀ s) : Quiet s₀ (State.eventRecord s a2 a3 a4) := by
  unfold State.eventRecord
  with_reducible repeat' (first
      | assumption | apply quiet_modLd | apply quiet_message | apply quiet_id | apply quiet_foldl | apply quiet_foldr | apply quiet_ite
      | split | intro _ | dsimp only)

theorem quiet_setExtents {s₀ : State} {s : State} {a2 : List Extent} (h1 : Quiet s₀ s) : Quiet s₀ (State.setExtents s a2) := by
  unfold State.setExtents
  with_reducible repeat' (first
      | assumption | apply quiet_id | apply quiet_foldl | apply quiet_foldr | apply quiet_ite | split | intro _ | dsimp only
      | refine quiet_mk ?_)

theorem quiet_setAux {s₀ : State} {s : State} {a2 : Nat} {a3 : Cmd} {a4 : Nat} {a5 : List Nat} (h1 : Quiet s₀ s) : Quiet s₀ (State.setAux s a2 a3 a4 a5) := by
  unfold State.setAux
  with_reducible repeat' (first
      | assumption | apply quiet_modCmd | apply quiet_id | apply quiet_foldl | apply quiet_foldr | apply quiet_ite | split | intro _
      | dsimp only)

theorem quiet_afterScope {s₀ : State} {s : State} {a2 : Nat} {a3 : Cmd} {a4 : State → State} (h1 : Quiet s₀ s) (h4 : ∀ y0, Quiet s₀ y0 → Quiet s₀ (a4 y0)) : Quiet s₀ (State.afterScope s a2 a3 a4) := by
  unfold State.afterScope
  with_reducible repeat' (first
      | assumption | apply quiet_setAux | apply quiet_id | apply quiet_foldl | apply quiet_foldr | apply quiet_ite | apply h4 | split
      | intro _ | dsimp only)

theorem quiet_endFault {s₀ : State} {s : State} {a2 : Nat} {a3 : Nat} {a4 : Bool} (h1 : Quiet s₀ s) : Quiet s₀ (State.endFault s a2 a3 a4) := by
  unfold State.endFault
  with_reducible repeat' (first
      | assumption | apply quiet_modPart | apply quiet_id | apply quiet_foldl | apply quiet_foldr | apply quiet_ite | split | intro _
      | dsimp only)

theorem quiet_endFaultsOf {s₀ : State} {s : State} {a2 : Nat} {a3 : Cmd} (h1 : Quiet s₀ s) : Quiet s₀ (State.endFaultsOf s a2 a3) := by
  unfold State.endFaultsOf
  with_reducible repeat' (first
      | assumption | apply quiet_endFault | apply quiet_id | apply quiet_foldl | apply quiet_foldr | apply quiet_ite | split | intro _
      | dsimp only)

theorem quiet_gcAbort {s₀ : State} {s : State} {a2 : Nat} {a3 : Cmd} {a4 : Nat} (h1 : Quiet s₀ s) : Quiet s₀ (State.gcAbort s a2 a3 a4) := by
  unfold State.gcAbort
  with_reducible repeat' (first
      | assumption | apply quiet_endRun | apply quiet_endWait | apply quiet_endFaultsOf | apply quiet_id | apply quiet_foldl
      | apply quiet_foldr | apply quiet_ite | split | intro _ | dsimp only)

theorem quiet_gcStep {s₀ : State} {s : State} {a2 : Nat} {a3 : Nat → Cmd → State → State} (h1 : Quiet s₀ s) (h3 : ∀ y0 y1 y2, Quiet s₀ y2 → Quiet s₀ (a3 y0 y1 y2)) : Quiet s₀ (State.gcStep s a2 a3) := by
  unfold State.gcStep
  with_reducible repeat' (first
      | assumption | apply quiet_gcAbort | apply quiet_id | apply quiet_foldl | apply quiet_foldr | apply quiet_ite | apply h3 | split
      | intro _ | dsimp only)

theorem quiet_gcInstr {s₀ : State} {s : State} {a2 : Nat} {a3 : GcRow} {a4 : Nat → Cmd → Nat → State → State} (h1 : Quiet s₀ s) (h4 : ∀ y0 y1 y2 y3, Quiet s₀ y3 → Quiet s₀ (a4 y0 y1 y2 y3)) : Quiet s₀ (State.gcInstr s a2 a3 a4) := by
  unfold State.gcInstr
  with_reducible repeat' (first
      | assumption | apply quiet_gcStep | apply quiet_id | apply quiet_foldl | apply quiet_foldr | apply quiet_ite | apply h4 | split
      | intro _ | dsimp only)

theorem quiet_gcEnd {s₀ : State} {s : State} {a2 : Nat} {a3 : Nat} {a4 : Nat} (h1 : Quiet s₀ s) : Quiet s₀ (State.gcEnd s a2 a3 a4) := by
  unfold State.gcEnd
  with_reducible repeat' (first
      | assumption | apply quiet_endRun | apply quiet_id | apply quiet_foldl | apply quiet_foldr | apply quiet_ite | split | intro _
      | dsimp only)

theorem quiet_fillTlb {s₀ : State} {s : State} {a2 : TlbEntry} (h1 : Quiet s₀ s) : Quiet s₀ (State.fillTlb s a2) := by
  unfold State.fillTlb
  with_reducible repeat' (first
      | assumption | apply quiet_id | apply quiet_foldl | apply quiet_foldr | apply quiet_ite | split | intro _ | dsimp only
      | refine quiet_mk ?_)

theorem quiet_fillLeaf {s₀ : State} {s : State} {a2 : Nat} {a3 : Nat} {a4 : Nat} {a5 : Nat} {a6 : Nat} {a7 : Nat} (h1 : Quiet s₀ s) : Quiet s₀ (State.fillLeaf s a2 a3 a4 a5 a6 a7) := by
  unfold State.fillLeaf
  with_reducible repeat' (first
      | assumption | apply quiet_count | apply quiet_fillTlb | apply quiet_id | apply quiet_foldl | apply quiet_foldr | apply quiet_ite
      | split | intro _ | dsimp only)

theorem quiet_fillWalk {s₀ : State} {s : State} {a2 : Nat} {a3 : Nat} {a4 : Nat} {a5 : List (Nat × Nat)} (h1 : Quiet s₀ s) : Quiet s₀ (State.fillWalk s a2 a3 a4 a5) := by
  unfold State.fillWalk
  with_reducible repeat' (first
      | assumption | apply quiet_id | apply quiet_foldl | apply quiet_foldr | apply quiet_ite | split | intro _ | dsimp only
      | refine quiet_mk ?_)

theorem quiet_translate {s₀ : State} {s : State} {a2 : Nat} {a3 : Nat} {a4 : Nat} {a5 : Nat} {a6 : Bool} {r0} {t} (e : State.translate s a2 a3 a4 a5 a6 = (r0, t)) (h1 : Quiet s₀ s) : Quiet s₀ t := by
  unfold State.translate at e
  repeat' (first | (split at e) | (dsimp only at e))
  all_goals (first | (cases e) | (simp only [Option.map_eq_some_iff] at e; obtain ⟨_, _, rfl⟩ := e) | (simp only [Option.some.injEq, Prod.mk.injEq] at e; obtain ⟨_, rfl⟩ := e) | (simp only [Option.some.injEq, Prod.mk.injEq] at e; subst e) | skip)
  all_goals with_reducible repeat' (first
      | assumption | apply quiet_count64 | apply quiet_event | apply quiet_fillLeaf | apply quiet_fillWalk | apply quiet_id
      | apply quiet_foldl | apply quiet_foldr | apply quiet_ite | split | intro _ | dsimp only)

theorem quiet_translate' {s₀ : State} {s : State} {a2 : Nat} {a3 : Nat} {a4 : Nat} {a5 : Nat} {a6 : Bool} (h1 : Quiet s₀ s) : Quiet s₀ (State.translate s a2 a3 a4 a5 a6).2 :=
  quiet_translate (e := (Prod.eta _).symm) h1

theorem quiet_raiseFault {s₀ : State} {s : State} {a2 : Nat} {a3 : Cmd} {a4 : Nat} {a5 : Nat} {a6 : Nat} {a7 : Nat} {a8 : Nat} {a9 : Nat} {a10 : Nat} (h1 : Quiet s₀ s) : Quiet s₀ (State.raiseFault s a2 a3 a4 a5 a6 a7 a8 a9 a10) := by
  unfold State.raiseFault
  with_reducible repeat' (first
      | assumption | apply quiet_modPart | apply quiet_count | apply quiet_notify | apply quiet_pcause | apply quiet_id
      | apply quiet_foldl | apply quiet_foldr | apply quiet_ite | split | intro _ | dsimp only)

theorem quiet_unlessEnding {s₀ : State} {s : State} {a2 : Nat} {a3 : State → State} (h1 : Quiet s₀ s) (h3 : ∀ y0, Quiet s₀ y0 → Quiet s₀ (a3 y0)) : Quiet s₀ (State.unlessEnding s a2 a3) := by
  unfold State.unlessEnding
  with_reducible repeat' (first
      | assumption | apply quiet_id | apply quiet_foldl | apply quiet_foldr | apply quiet_ite | apply h3 | split | intro _ | dsimp only)

theorem quiet_l1dLost {s₀ : State} {s : State} {a2 : Nat} {a3 : Nat} {a4 : Nat} (h1 : Quiet s₀ s) : Quiet s₀ (State.l1dLost s a2 a3 a4) := by
  unfold State.l1dLost
  with_reducible repeat' (first
      | assumption | apply quiet_modCore | apply quiet_report | apply quiet_gcEnd | apply quiet_id | apply quiet_foldl
      | apply quiet_foldr | apply quiet_ite | split | intro _ | dsimp only)

theorem quiet_t0Line {s₀ : State} {s : State} {a2 : Nat} {a3 : Bool} {a4 : Origin} (h1 : Quiet s₀ s) : Quiet s₀ (State.t0Line s a2 a3 a4) := by
  unfold State.t0Line
  with_reducible repeat' (first
      | assumption | apply quiet_wakeNow | apply quiet_event | apply quiet_id | apply quiet_foldl | apply quiet_foldr | apply quiet_ite
      | split | intro _ | dsimp only)

theorem quiet_l1Fixed {s₀ : State} {s : State} {a2 : Nat} (h1 : Quiet s₀ s) : Quiet s₀ (State.l1Fixed s a2) := by
  unfold State.l1Fixed
  with_reducible repeat' (first
      | assumption | apply quiet_corrected | apply quiet_count | apply quiet_id | apply quiet_foldl | apply quiet_foldr
      | apply quiet_ite | split | intro _ | dsimp only)

theorem quiet_takeArrival {s₀ : State} {s : State} {a2 : Waiter} {a3 : Nat} {r} {t : State} (e : State.takeArrival s a2 a3 = some (r, t)) (h1 : Quiet s₀ s) : Quiet s₀ t := by
  unfold State.takeArrival at e
  repeat' (first | (split at e) | (dsimp only at e))
  all_goals (first | (cases e) | (simp only [Option.map_eq_some_iff] at e; obtain ⟨_, _, rfl⟩ := e) | (simp only [Option.some.injEq, Prod.mk.injEq] at e; obtain ⟨_, rfl⟩ := e) | (simp only [Option.some.injEq, Prod.mk.injEq] at e; subst e) | skip)
  all_goals with_reducible repeat' (first
      | assumption | apply quiet_modFab | apply quiet_id | apply quiet_foldl | apply quiet_foldr | apply quiet_ite | split | intro _
      | dsimp only)

theorem quiet_answer {s₀ : State} {s : State} {a2 : Transport} {a3 : Nat} {a4 : Nat} {a5 : Nat} {a6 : Nat} {a7 : List Nat} (h1 : Quiet s₀ s) : Quiet s₀ (State.answer s a2 a3 a4 a5 a6 a7) := by
  unfold State.answer
  with_reducible repeat' (first
      | assumption | apply quiet_emit | apply quiet_id | apply quiet_foldl | apply quiet_foldr | apply quiet_ite | split | intro _
      | dsimp only)

theorem quiet_answerEnd {s₀ : State} {s : State} {a2 : Transport} {a3 : Nat} {a4 : Nat} {a5 : Nat} {a6 : Nat} (h1 : Quiet s₀ s) : Quiet s₀ (State.answerEnd s a2 a3 a4 a5 a6) := by
  unfold State.answerEnd
  with_reducible repeat' (first
      | assumption | apply quiet_answer | apply quiet_setRegF | apply quiet_id | apply quiet_foldl | apply quiet_foldr
      | apply quiet_ite | split | intro _ | dsimp only)

theorem quiet_mendCopy {s₀ : State} {s : State} {a2 : Nat} (h1 : Quiet s₀ s) : Quiet s₀ (State.mendCopy s a2) := by
  unfold State.mendCopy
  with_reducible repeat' (first
      | assumption | apply quiet_corrected | apply quiet_setRemoteLine | apply quiet_id | apply quiet_foldl | apply quiet_foldr
      | apply quiet_ite | split | intro _ | dsimp only)

theorem quiet_dropBadCopy {s₀ : State} {s : State} {a2 : Agent} {a3 : Bool} {a4 : Nat} (h1 : Quiet s₀ s) : Quiet s₀ (State.dropBadCopy s a2 a3 a4) := by
  unfold State.dropBadCopy
  with_reducible repeat' (first
      | assumption | apply quiet_setRemoteLine | apply quiet_id | apply quiet_foldl | apply quiet_foldr | apply quiet_ite | split
      | intro _ | dsimp only)

theorem quiet_workDone {s₀ : State} {s : State} {a2 : Nat} {a3 : Cmd} (h1 : Quiet s₀ s) : Quiet s₀ (State.workDone s a2 a3) := by
  unfold State.workDone
  with_reducible repeat' (first
      | assumption | apply quiet_modFab | apply quiet_id | apply quiet_foldl | apply quiet_foldr | apply quiet_ite | split | intro _
      | dsimp only)

theorem quiet_Work_next {s₀ : State} {a1 : Nat} {a2 : Cmd} {a3 : Nat} {a4 : List Nat} : QuietWork s₀ (Work.next a1 a2 a3 a4) := by
  unfold Work.next
  with_reducible repeat' (first
      | assumption | apply quietw_bind | apply quietw_pure | apply quietw_mapM | apply quietw_forM | apply quietw_ite | apply quiet_id
      | apply quiet_Work_act | apply quiet_setAux | apply quiet_workDone | apply quiet_id | apply quiet_foldl | apply quiet_foldr
      | apply quiet_ite | split | intro _ | dsimp only)

theorem quiet_rowEvent {s₀ : State} {s : State} {a2 : Nat} {a3 : Cmd} {a4 : Nat} {a5 : Nat} (h1 : Quiet s₀ s) : Quiet s₀ (State.rowEvent s a2 a3 a4 a5) := by
  unfold State.rowEvent
  with_reducible repeat' (first
      | assumption | apply quiet_event | apply quiet_count64 | apply quiet_id | apply quiet_foldl | apply quiet_foldr | apply quiet_ite
      | split | intro _ | dsimp only)

theorem quiet_Work_settled {s₀ : State} {a1 : Cmd} : QuietWork s₀ (Work.settled a1) := by
  unfold Work.settled
  with_reducible repeat' (first
      | assumption | apply quietw_bind | apply quietw_pure | apply quietw_mapM | apply quietw_forM | apply quietw_ite | apply quiet_id
      | apply quiet_Work_stop | apply quiet_id | apply quiet_foldl | apply quiet_foldr | apply quiet_ite | split | intro _ | dsimp only)

theorem quiet_rowEnd {s₀ : State} {s : State} {a2 : Nat} {a3 : Cmd} {a4 : Nat} (h1 : Quiet s₀ s) : Quiet s₀ (State.rowEnd s a2 a3 a4) := by
  unfold State.rowEnd
  with_reducible repeat' (first
      | assumption | apply quiet_endCmd | apply quiet_id | apply quiet_foldl | apply quiet_foldr | apply quiet_ite | split | intro _
      | dsimp only)

theorem quiet_finishRunning {s₀ : State} {s : State} {a2 : Nat} {a3 : Nat} {a4 : Nat} {a5 : Nat} {a6 : Nat} {a7 : Nat} (h1 : Quiet s₀ s) : Quiet s₀ (State.finishRunning s a2 a3 a4 a5 a6 a7) := by
  unfold State.finishRunning
  with_reducible repeat' (first
      | assumption | apply quiet_finish | apply quiet_id | apply quiet_foldl | apply quiet_foldr | apply quiet_ite | split | intro _
      | dsimp only)

theorem quiet_setSide {s₀ : State} {s : State} {a2 : Nat} {a3 : Option (Nat × Nat)} (h1 : Quiet s₀ s) : Quiet s₀ (State.setSide s a2 a3) := by
  unfold State.setSide
  with_reducible repeat' (first
      | assumption | apply quiet_modSync | apply quiet_id | apply quiet_foldl | apply quiet_foldr | apply quiet_ite | split | intro _
      | dsimp only)

theorem quiet_arrivalRefused {s₀ : State} {s : State} {a2 : OutReq} {a3 : Waiter} (h1 : Quiet s₀ s) : Quiet s₀ (State.arrivalRefused s a2 a3) := by
  unfold State.arrivalRefused
  with_reducible repeat' (first
      | assumption | apply quiet_finishRunning | apply quiet_setSide | apply quiet_id | apply quiet_foldl | apply quiet_foldr
      | apply quiet_ite | split | intro _ | dsimp only)

theorem quiet_bufferFixed {s₀ : State} {s : State} {a2 : Nat} {a3 : Attempt} (h1 : Quiet s₀ s) : Quiet s₀ (State.bufferFixed s a2 a3) := by
  unfold State.bufferFixed
  with_reducible repeat' (first
      | assumption | apply quiet_corrected | apply quiet_id | apply quiet_foldl | apply quiet_foldr | apply quiet_ite | split | intro _
      | dsimp only)

theorem quiet_meMismatch {s₀ : State} {s : State} {a2 : Nat} {a3 : Nat} {a4 : BitVec 16} (h1 : Quiet s₀ s) : Quiet s₀ (State.meMismatch s a2 a3 a4) := by
  unfold State.meMismatch
  with_reducible repeat' (first
      | assumption | apply quiet_setRegN | apply quiet_count | apply quiet_id | apply quiet_foldl | apply quiet_foldr | apply quiet_ite
      | split | intro _ | dsimp only)

theorem quiet_modEngine {s₀ : State} {s : State} {a2 : Nat} {a3 : Engine → Engine} (h1 : Quiet s₀ s) : Quiet s₀ (State.modEngine s a2 a3) := by
  unfold State.modEngine
  with_reducible repeat' (first
      | assumption | apply quiet_id | apply quiet_foldl | apply quiet_foldr | apply quiet_ite | split | intro _ | dsimp only
      | refine quiet_mk ?_)

theorem quiet_quarantine {s₀ : State} {s : State} {a2 : UnitKind} {a3 : Nat} (h1 : Quiet s₀ s) : Quiet s₀ (State.quarantine s a2 a3) := by
  unfold State.quarantine
  with_reducible repeat' (first
      | assumption | apply quiet_setRegF | apply quiet_cause | apply quiet_pcause | apply quiet_id | apply quiet_foldl
      | apply quiet_foldr | apply quiet_ite | split | intro _ | dsimp only | refine quiet_mk ?_)

theorem quiet_meEnd {s₀ : State} {s : State} {a2 : Nat} {a3 : Cmd} {a4 : Nat} (h1 : Quiet s₀ s) : Quiet s₀ (State.meEnd s a2 a3 a4) := by
  unfold State.meEnd
  with_reducible repeat' (first
      | assumption | apply quiet_endCmd | apply quiet_id | apply quiet_foldl | apply quiet_foldr | apply quiet_ite | split | intro _
      | dsimp only)

theorem quiet_meQuarantine {s₀ : State} {s : State} {a2 : Nat} {a3 : Nat} {a4 : Cmd} (h1 : Quiet s₀ s) : Quiet s₀ (State.meQuarantine s a2 a3 a4) := by
  unfold State.meQuarantine
  with_reducible repeat' (first
      | assumption | apply quiet_quarantine | apply quiet_modEngine | apply quiet_report | apply quiet_meEnd | apply quiet_id
      | apply quiet_foldl | apply quiet_foldr | apply quiet_ite | split | intro _ | dsimp only)

theorem quiet_attempts {s₀ : State} {s : State} {a2 : Nat} {a3 : Nat} {a4 : Cmd} {a5 : Nat} {a6 : List Attempt} {a7 : Nat → Attempt → State → State} (h1 : Quiet s₀ s) (h7 : ∀ y0 y1 y2, Quiet s₀ y2 → Quiet s₀ (a7 y0 y1 y2)) : Quiet s₀ (State.attempts s a2 a3 a4 a5 a6 a7) := by
  unfold State.attempts
  with_reducible repeat' (first
      | assumption | apply quiet_bufferFixed | apply quiet_count | apply quiet_meMismatch | apply quiet_modEngine
      | apply quiet_meQuarantine | apply quiet_id | apply quiet_foldl | apply quiet_foldr | apply quiet_ite | apply h7 | split
      | intro _ | dsimp only)

theorem quiet_authFail {s₀ : State} {s : State} {a2 : Nat} {a3 : Nat} (h1 : Quiet s₀ s) : Quiet s₀ (State.authFail s a2 a3) := by
  unfold State.authFail
  with_reducible repeat' (first
      | assumption | apply quiet_count | apply quiet_setRegF | apply quiet_setLink | apply quiet_cause | apply quiet_report
      | apply quiet_id | apply quiet_foldl | apply quiet_foldr | apply quiet_ite | split | intro _ | dsimp only)

theorem quiet_badFields {s₀ : State} {s : State} {a2 : Nat} {a3 : Nat} {a4 : Bool} (h1 : Quiet s₀ s) : Quiet s₀ (State.badFields s a2 a3 a4) := by
  unfold State.badFields
  with_reducible repeat' (first
      | assumption | apply quiet_lineErr | apply quiet_id | apply quiet_foldl | apply quiet_foldr | apply quiet_ite | split | intro _
      | dsimp only)

theorem quiet_takeEntry {s₀ : State} {s : State} {a2 : Nat} {a3 : QEntry} (h1 : Quiet s₀ s) : Quiet s₀ (State.takeEntry s a2 a3) := by
  unfold State.takeEntry
  with_reducible repeat' (first
      | assumption | apply quiet_modPort | apply quiet_combineAll | apply quiet_id | apply quiet_foldl | apply quiet_foldr
      | apply quiet_ite | split | intro _ | dsimp only)

theorem quiet_beginPacket {s₀ : State} {s : State} {a2 : Nat} {a3 : QEntry} {a4 : Nat} {a5 : Tbl Nat} (h1 : Quiet s₀ s) : Quiet s₀ (State.beginPacket s a2 a3 a4 a5) := by
  unfold State.beginPacket
  with_reducible repeat' (first
      | assumption | apply quiet_modPort | apply quiet_takeEntry | apply quiet_event | apply quiet_bandwidthBytes | apply quiet_id
      | apply quiet_foldl | apply quiet_foldr | apply quiet_ite | split | intro _ | dsimp only)

theorem quiet_nandPut {s₀ : State} {s : State} {a2 : Nat} {a3 : Nat} {a4 : Nat} {a5 : Option Nat} {a6 : LoftBlock} (h1 : Quiet s₀ s) : Quiet s₀ (State.nandPut s a2 a3 a4 a5 a6) := by
  unfold State.nandPut
  with_reducible repeat' (first
      | assumption | apply quiet_modLoft | apply quiet_id | apply quiet_foldl | apply quiet_foldr | apply quiet_ite | split | intro _
      | dsimp only)

theorem quiet_setLoftPlace {s₀ : State} {s : State} {a2 : Nat} {a3 : Option LoftPlace} (h1 : Quiet s₀ s) : Quiet s₀ (State.setLoftPlace s a2 a3) := by
  unfold State.setLoftPlace
  with_reducible repeat' (first
      | assumption | apply quiet_modLoft | apply quiet_id | apply quiet_foldl | apply quiet_foldr | apply quiet_ite | split | intro _
      | dsimp only)

theorem quiet_channelAnswers {s₀ : State} {s : State} {a2 : Nat} (h1 : Quiet s₀ s) : Quiet s₀ (State.channelAnswers s a2) := by
  unfold State.channelAnswers
  with_reducible repeat' (first
      | assumption | apply quiet_modLoft | apply quiet_id | apply quiet_foldl | apply quiet_foldr | apply quiet_ite | split | intro _
      | dsimp only)

theorem quiet_channelBlock {s₀ : State} {s : State} {a2 : Nat} {a3 : Nat} {a4 : Nat} {a5 : Nat} (h1 : Quiet s₀ s) : Quiet s₀ (State.channelBlock s a2 a3 a4 a5) := by
  unfold State.channelBlock
  with_reducible repeat' (first
      | assumption | apply quiet_bandwidthBytes | apply quiet_event | apply quiet_id | apply quiet_foldl | apply quiet_foldr
      | apply quiet_ite | split | intro _ | dsimp only)

theorem quiet_blockDone {s₀ : State} {s : State} {a2 : Nat} {a3 : Nat} {a4 : Nat} {a5 : Bool} {a6 : Staged} (h1 : Quiet s₀ s) : Quiet s₀ (State.blockDone s a2 a3 a4 a5 a6) := by
  unfold State.blockDone
  with_reducible repeat' (first
      | assumption | apply quiet_modLoft | apply quiet_nandPut | apply quiet_setLoftPlace | apply quiet_channelAnswers
      | apply quiet_channelBlock | apply quiet_id | apply quiet_foldl | apply quiet_foldr | apply quiet_ite | split | intro _
      | dsimp only)

theorem quiet_segDone {s₀ : State} {s : State} {a2 : Nat} {a3 : Cmd} {a4 : Nat} {a5 : Nat} {a6 : Bool} {a7 : Nat} (h1 : Quiet s₀ s) : Quiet s₀ (State.segDone s a2 a3 a4 a5 a6 a7) := by
  unfold State.segDone
  with_reducible repeat' (first
      | assumption | apply quiet_setAux | apply quiet_id | apply quiet_foldl | apply quiet_foldr | apply quiet_ite | split | intro _
      | dsimp only)

theorem quiet_segUsed {s₀ : State} {s : State} {a2 : Nat} {a3 : Cmd} (h1 : Quiet s₀ s) : Quiet s₀ (State.segUsed s a2 a3) := by
  unfold State.segUsed
  with_reducible repeat' (first
      | assumption | apply quiet_modFab | apply quiet_id | apply quiet_foldl | apply quiet_foldr | apply quiet_ite | split | intro _
      | dsimp only)

theorem quiet_giveRoom {s₀ : State} {s : State} (h1 : Quiet s₀ s) : Quiet s₀ (State.giveRoom s) := by
  unfold State.giveRoom
  with_reducible repeat' (first
      | assumption | apply quiet_modLoft | apply quiet_id | apply quiet_foldl | apply quiet_foldr | apply quiet_ite | split | intro _
      | dsimp only)

theorem quiet_wakeLoft {s₀ : State} {s : State} (h1 : Quiet s₀ s) : Quiet s₀ (State.wakeLoft s) := by
  unfold State.wakeLoft
  with_reducible repeat' (first
      | assumption | apply quiet_wakeNow | apply quiet_id | apply quiet_foldl | apply quiet_foldr | apply quiet_ite | split | intro _
      | dsimp only)

theorem quiet_loftAsk {s₀ : State} {s : State} {a2 : Nat} {a3 : Cmd} {a4 : Nat} {a5 : Nat} {a6 : Nat} {a7 : Option LoftBlock} (h1 : Quiet s₀ s) : Quiet s₀ (State.loftAsk s a2 a3 a4 a5 a6 a7) := by
  unfold State.loftAsk
  with_reducible repeat' (first
      | assumption | apply quiet_giveRoom | apply quiet_modLoft | apply quiet_wakeLoft | apply quiet_id | apply quiet_foldl
      | apply quiet_foldr | apply quiet_ite | split | intro _ | dsimp only)

theorem quiet_measure {s₀ : State} {s : State} {a2 : List Nat} (h1 : Quiet s₀ s) : Quiet s₀ (State.measure s a2) := by
  unfold State.measure
  with_reducible repeat' (first
      | assumption | apply quiet_extend | apply quiet_id | apply quiet_foldl | apply quiet_foldr | apply quiet_ite | split | intro _
      | dsimp only)

theorem quiet_configure {s₀ : State} {s : State} {a2 : BootConfig} (h1 : Quiet s₀ s) : Quiet s₀ (State.configure s a2) := by
  unfold State.configure
  with_reducible repeat' (first
      | assumption | apply quiet_modBoot | apply quiet_setRegN | apply quiet_setRegF | apply quiet_id | apply quiet_foldl
      | apply quiet_foldr | apply quiet_ite | split | intro _ | dsimp only | refine quiet_mk ?_)

theorem quiet_fellBack {s₀ : State} {s : State} {a2 : Nat} {a3 : Nat} (h1 : Quiet s₀ s) : Quiet s₀ (State.fellBack s a2 a3) := by
  unfold State.fellBack
  with_reducible repeat' (first
      | assumption | apply quiet_setRegF | apply quiet_cause | apply quiet_report | apply quiet_id | apply quiet_foldl
      | apply quiet_foldr | apply quiet_ite | split | intro _ | dsimp only)

theorem quiet_setLeaf {s₀ : State} {s : State} {a2 : Nat} (h1 : Quiet s₀ s) : Quiet s₀ (State.setLeaf s a2) := by
  unfold State.setLeaf
  with_reducible repeat' (first
      | assumption | apply quiet_setReg64 | apply quiet_modBoot | apply quiet_id | apply quiet_foldl | apply quiet_foldr
      | apply quiet_ite | split | intro _ | dsimp only)

theorem quiet_leafLow {s₀ : State} {s : State} (h1 : Quiet s₀ s) : Quiet s₀ (State.leafLow s) := by
  unfold State.leafLow
  with_reducible repeat' (first
      | assumption | apply quiet_cause | apply quiet_report | apply quiet_id | apply quiet_foldl | apply quiet_foldr | apply quiet_ite
      | split | intro _ | dsimp only)

theorem quiet_resumeLeaf {s₀ : State} {s : State} (h1 : Quiet s₀ s) : Quiet s₀ (State.resumeLeaf s) := by
  unfold State.resumeLeaf
  with_reducible repeat' (first
      | assumption | apply quiet_setLeaf | apply quiet_leafLow | apply quiet_id | apply quiet_foldl | apply quiet_foldr
      | apply quiet_ite | split | intro _ | dsimp only | refine quiet_mk ?_)

theorem quiet_restoreQuarantine {s₀ : State} {s : State} (h1 : Quiet s₀ s) : Quiet s₀ (State.restoreQuarantine s) := by
  unfold State.restoreQuarantine
  with_reducible repeat' (first
      | assumption | apply quiet_setRegF | apply quiet_id | apply quiet_foldl | apply quiet_foldr | apply quiet_ite | split | intro _
      | dsimp only)

theorem quiet_findNand {s₀ : State} {s : State} {a2 : Fin 18} {a3 : FittedNand} {a4 : Bool} (h1 : Quiet s₀ s) : Quiet s₀ (State.findNand s a2 a3 a4) := by
  unfold State.findNand
  with_reducible repeat' (first
      | assumption | apply quiet_setRegF | apply quiet_setRegN | apply quiet_modLoft | apply quiet_id | apply quiet_foldl
      | apply quiet_foldr | apply quiet_ite | split | intro _ | dsimp only)

theorem quiet_showRebuild {s₀ : State} {s : State} (h1 : Quiet s₀ s) : Quiet s₀ (State.showRebuild s) := by
  unfold State.showRebuild
  with_reducible repeat' (first
      | assumption | apply quiet_setReg64 | apply quiet_id | apply quiet_foldl | apply quiet_foldr | apply quiet_ite | split | intro _
      | dsimp only)

theorem quiet_tallyPreemptChannel {s₀ : State} {s : State} {a2 : Nat} (h1 : Quiet s₀ s) : Quiet s₀ (State.tallyPreemptChannel s a2) := by
  unfold State.tallyPreemptChannel
  with_reducible repeat' (first
      | assumption | apply quiet_tallyPreempt | apply quiet_id | apply quiet_foldl | apply quiet_foldr | apply quiet_ite | split
      | intro _ | dsimp only)

theorem quiet_channelDead {s₀ : State} {s : State} {a2 : Nat} {a3 : Nat} (h1 : Quiet s₀ s) : Quiet s₀ (State.channelDead s a2 a3) := by
  unfold State.channelDead
  with_reducible repeat' (first
      | assumption | apply quiet_cause | apply quiet_setRegF | apply quiet_report | apply quiet_showRebuild | apply quiet_modLoft
      | apply quiet_tallyPreemptChannel | apply quiet_id | apply quiet_foldl | apply quiet_foldr | apply quiet_ite | split | intro _
      | dsimp only)

theorem quiet_trainLoft {s₀ : State} {s : State} {a2 : List (Fin 18 × FittedNand)} {a3 : Nat} {a4 : List (Fin 18)} (h1 : Quiet s₀ s) : Quiet s₀ (State.trainLoft s a2 a3 a4) := by
  unfold State.trainLoft
  with_reducible repeat' (first
      | assumption | apply quiet_findNand | apply quiet_setRegF | apply quiet_channelDead | apply quiet_id | apply quiet_foldl
      | apply quiet_foldr | apply quiet_ite | split | intro _ | dsimp only)

theorem quiet_linkUp {s₀ : State} {s : State} {a2 : Nat} {a3 : Trained} (h1 : Quiet s₀ s) : Quiet s₀ (State.linkUp s a2 a3) := by
  unfold State.linkUp
  with_reducible repeat' (first
      | assumption | apply quiet_modPort | apply quiet_setRegF | apply quiet_setLink | apply quiet_setRegN | apply quiet_cause
      | apply quiet_id | apply quiet_foldl | apply quiet_foldr | apply quiet_ite | split | intro _ | dsimp only)

theorem quiet_useLeaf {s₀ : State} {s : State} {r} {t : State} (e : State.useLeaf s = some (r, t)) (h1 : Quiet s₀ s) : Quiet s₀ t := by
  unfold State.useLeaf at e
  repeat' (first | (split at e) | (dsimp only at e))
  all_goals (first | (cases e) | (simp only [Option.map_eq_some_iff] at e; obtain ⟨_, _, rfl⟩ := e) | (simp only [Option.some.injEq, Prod.mk.injEq] at e; obtain ⟨_, rfl⟩ := e) | (simp only [Option.some.injEq, Prod.mk.injEq] at e; subst e) | skip)
  all_goals with_reducible repeat' (first
      | assumption | apply quiet_setLeaf | apply quiet_modBoot | apply quiet_leafLow | apply quiet_id | apply quiet_foldl
      | apply quiet_foldr | apply quiet_ite | split | intro _ | dsimp only)

theorem quiet_trainingPass {s₀ : State} {s : State} {a2 : Nat} {a3 : Trained} (h1 : Quiet s₀ s) : Quiet s₀ (State.trainingPass s a2 a3) := by
  unfold State.trainingPass
  with_reducible repeat' (first
      | assumption | apply quiet_linkUp | refine quiet_useLeaf (by assumption) ?_ | apply quiet_authFail | apply quiet_id
      | apply quiet_foldl | apply quiet_foldr | apply quiet_ite | split | intro _ | dsimp only)

theorem quiet_trainingFail {s₀ : State} {s : State} {a2 : Nat} (h1 : Quiet s₀ s) : Quiet s₀ (State.trainingFail s a2) := by
  unfold State.trainingFail
  with_reducible repeat' (first
      | assumption | apply quiet_linkDown | apply quiet_id | apply quiet_foldl | apply quiet_foldr | apply quiet_ite | split | intro _
      | dsimp only)

theorem quiet_commitTrial {s₀ : State} {s : State} {a2 : List Nat} (h1 : Quiet s₀ s) : Quiet s₀ (State.commitTrial s a2) := by
  unfold State.commitTrial
  with_reducible repeat' (first
      | assumption | apply quiet_modBoot | apply quiet_id | apply quiet_foldl | apply quiet_foldr | apply quiet_ite | split | intro _
      | dsimp only | refine quiet_mk ?_)

theorem quiet_busWrite {s₀ : State} {s : State} {a2 : Requester} {a3 : Nat} {a4 : BitVec 4} {a5 : Nat → State → State} {a6 : Nat → CxlPart → Nat → State → State} (h1 : Quiet s₀ s) (h5 : ∀ y0 y1, Quiet s₀ y1 → Quiet s₀ (a5 y0 y1)) (h6 : ∀ y0 y1 y2 y3, Quiet s₀ y3 → Quiet s₀ (a6 y0 y1 y2 y3)) : Quiet s₀ (State.busWrite s a2 a3 a4 a5 a6) := by
  unfold State.busWrite
  with_reducible repeat' (first
      | assumption | apply quiet_violateReg | apply quiet_id | apply quiet_foldl | apply quiet_foldr | apply quiet_ite | apply h5
      | apply h6 | split | intro _ | dsimp only)

theorem quiet_setLevel {s₀ : State} {s : State} {a2 : Nat} {a3 : Nat} (h1 : Quiet s₀ s) : Quiet s₀ (State.setLevel s a2 a3) := by
  unfold State.setLevel
  with_reducible repeat' (first
      | assumption | apply quiet_setRegF | apply quiet_id | apply quiet_foldl | apply quiet_foldr | apply quiet_ite | split | intro _
      | dsimp only)

theorem quiet_showThrottle {s₀ : State} {s : State} (h1 : Quiet s₀ s) : Quiet s₀ (State.showThrottle s) := by
  unfold State.showThrottle
  with_reducible repeat' (first
      | assumption | apply quiet_setRegF | apply quiet_id | apply quiet_foldl | apply quiet_foldr | apply quiet_ite | split | intro _
      | dsimp only)

theorem quiet_powerCap {s₀ : State} {s : State} {a2 : Nat} (h1 : Quiet s₀ s) : Quiet s₀ (State.powerCap s a2) := by
  unfold State.powerCap
  with_reducible repeat' (first
      | assumption | apply quiet_report | apply quiet_id | apply quiet_foldl | apply quiet_foldr | apply quiet_ite | split | intro _
      | dsimp only)

theorem quiet_capTick {s₀ : State} {s : State} {a2 : Nat} {a3 : Bool} (h1 : Quiet s₀ s) : Quiet s₀ (State.capTick s a2 a3) := by
  unfold State.capTick
  with_reducible repeat' (first
      | assumption | apply quiet_setLevel | apply quiet_cause | apply quiet_showThrottle | apply quiet_powerCap | apply quiet_id
      | apply quiet_foldl | apply quiet_foldr | apply quiet_ite | split | intro _ | dsimp only | refine quiet_mk ?_)

theorem quiet_checkIdle {s₀ : State} {s : State} (h1 : Quiet s₀ s) : Quiet s₀ (State.checkIdle s) := by
  unfold State.checkIdle
  with_reducible repeat' (first
      | assumption | apply quiet_setRegF | apply quiet_id | apply quiet_foldl | apply quiet_foldr | apply quiet_ite | split | intro _
      | dsimp only)

theorem quiet_modSuper {s₀ : State} {s : State} {a2 : Nat} {a3 : Super → Super} (h1 : Quiet s₀ s) : Quiet s₀ (State.modSuper s a2 a3) := by
  unfold State.modSuper
  with_reducible repeat' (first
      | assumption | apply quiet_modLoft | apply quiet_id | apply quiet_foldl | apply quiet_foldr | apply quiet_ite | split | intro _
      | dsimp only)

theorem quiet_loftMove {s₀ : State} {s : State} {a2 : Nat} {a3 : Nat} {a4 : Nat} {a5 : Nat} {a6 : Nat} {a7 : Option Nat} (h1 : Quiet s₀ s) : Quiet s₀ (State.loftMove s a2 a3 a4 a5 a6 a7) := by
  unfold State.loftMove
  with_reducible repeat' (first
      | assumption | apply quiet_giveRoom | apply quiet_modLoft | apply quiet_wakeLoft | apply quiet_id | apply quiet_foldl
      | apply quiet_foldr | apply quiet_ite | split | intro _ | dsimp only)

theorem quiet_collect {s₀ : State} {s : State} {a2 : Nat} {a3 : Nat} {a4 : Option Nat} (h1 : Quiet s₀ s) : Quiet s₀ (State.collect s a2 a3 a4) := by
  unfold State.collect
  with_reducible repeat' (first
      | assumption | apply quiet_modSuper | apply quiet_loftMove | apply quiet_id | apply quiet_foldl | apply quiet_foldr
      | apply quiet_ite | split | intro _ | dsimp only)

theorem quiet_endGenerations {s₀ : State} {s : State} {a2 : Nat} {a3 : Nat} {a4 : Bool} (h1 : Quiet s₀ s) : Quiet s₀ (State.endGenerations s a2 a3 a4) := by
  unfold State.endGenerations
  with_reducible repeat' (first
      | assumption | apply quiet_modSync | apply quiet_finish | apply quiet_id | apply quiet_foldl | apply quiet_foldr
      | apply quiet_ite | split | intro _ | dsimp only)

theorem quiet_putSem {s₀ : State} {s : State} {a2 : Nat} {a3 : Sem} (h1 : Quiet s₀ s) : Quiet s₀ (State.putSem s a2 a3) := by
  unfold State.putSem
  with_reducible repeat' (first
      | assumption | apply quiet_modSync | apply quiet_id | apply quiet_foldl | apply quiet_foldr | apply quiet_ite | split | intro _
      | dsimp only)

theorem quiet_poisonSem {s₀ : State} {s : State} {a2 : Nat} {a3 : Nat} (h1 : Quiet s₀ s) : Quiet s₀ (State.poisonSem s a2 a3) := by
  unfold State.poisonSem
  with_reducible repeat' (first
      | assumption | apply quiet_pcause | apply quiet_count | apply quiet_putSem | apply quiet_id | apply quiet_foldl
      | apply quiet_foldr | apply quiet_ite | split | intro _ | dsimp only)

theorem quiet_semFind {s₀ : State} {s : State} {a2 : Nat} {a3 : Nat} {a4 : Fin 3} (h1 : Quiet s₀ s) : Quiet s₀ (State.semFind s a2 a3 a4) := by
  unfold State.semFind
  with_reducible repeat' (first
      | assumption | apply quiet_poisonSem | apply quiet_corrected | apply quiet_id | apply quiet_foldl | apply quiet_foldr
      | apply quiet_ite | split | intro _ | dsimp only)

theorem quiet_semEvent {s₀ : State} {s : State} {a2 : Nat} {a3 : Nat} {a4 : Nat} (h1 : Quiet s₀ s) : Quiet s₀ (State.semEvent s a2 a3 a4) := by
  unfold State.semEvent
  with_reducible repeat' (first
      | assumption | apply quiet_event | apply quiet_id | apply quiet_foldl | apply quiet_foldr | apply quiet_ite | split | intro _
      | dsimp only)

theorem quiet_semAdd {s₀ : State} {s : State} {a2 : Nat} {a3 : Nat} {a4 : Nat} {t} {r1} (e : State.semAdd s a2 a3 a4 = (t, r1)) (h1 : Quiet s₀ s) : Quiet s₀ t := by
  unfold State.semAdd at e
  repeat' (first | (split at e) | (dsimp only at e))
  all_goals (first | (cases e) | (simp only [Option.map_eq_some_iff] at e; obtain ⟨_, _, rfl⟩ := e) | (simp only [Option.some.injEq, Prod.mk.injEq] at e; obtain ⟨_, rfl⟩ := e) | (simp only [Option.some.injEq, Prod.mk.injEq] at e; subst e) | skip)
  all_goals with_reducible repeat' (first
      | assumption | apply quiet_semEvent | apply quiet_pcause | apply quiet_count | apply quiet_putSem | apply quiet_id
      | apply quiet_foldl | apply quiet_foldr | apply quiet_ite | split | intro _ | dsimp only)

theorem quiet_semAdd' {s₀ : State} {s : State} {a2 : Nat} {a3 : Nat} {a4 : Nat} (h1 : Quiet s₀ s) : Quiet s₀ (State.semAdd s a2 a3 a4).1 :=
  quiet_semAdd (e := (Prod.eta _).symm) h1

theorem quiet_semSet {s₀ : State} {s : State} {a2 : Nat} {a3 : Nat} {a4 : Nat} {t} {r1} (e : State.semSet s a2 a3 a4 = (t, r1)) (h1 : Quiet s₀ s) : Quiet s₀ t := by
  unfold State.semSet at e
  repeat' (first | (split at e) | (dsimp only at e))
  all_goals (first | (cases e) | (simp only [Option.map_eq_some_iff] at e; obtain ⟨_, _, rfl⟩ := e) | (simp only [Option.some.injEq, Prod.mk.injEq] at e; obtain ⟨_, rfl⟩ := e) | (simp only [Option.some.injEq, Prod.mk.injEq] at e; subst e) | skip)
  all_goals with_reducible repeat' (first
      | assumption | apply quiet_putSem | apply quiet_semEvent | apply quiet_id | apply quiet_foldl | apply quiet_foldr
      | apply quiet_ite | split | intro _ | dsimp only)

theorem quiet_semSet' {s₀ : State} {s : State} {a2 : Nat} {a3 : Nat} {a4 : Nat} (h1 : Quiet s₀ s) : Quiet s₀ (State.semSet s a2 a3 a4).1 :=
  quiet_semSet (e := (Prod.eta _).symm) h1

theorem quiet_enterLast {s₀ : State} {s : State} {a2 : Nat} {a3 : Nat} {a4 : Barrier} {a5 : List Nat} {a6 : Nat} {t} {r1} (e : State.enterLast s a2 a3 a4 a5 a6 = (t, r1)) (h1 : Quiet s₀ s) : Quiet s₀ t := by
  unfold State.enterLast at e
  repeat' (first | (split at e) | (dsimp only at e))
  all_goals (first | (cases e) | (simp only [Option.map_eq_some_iff] at e; obtain ⟨_, _, rfl⟩ := e) | (simp only [Option.some.injEq, Prod.mk.injEq] at e; obtain ⟨_, rfl⟩ := e) | (simp only [Option.some.injEq, Prod.mk.injEq] at e; subst e) | skip)
  all_goals with_reducible repeat' (first
      | assumption | apply quiet_pcause | apply quiet_setRegN | apply quiet_count | apply quiet_id | apply quiet_foldl
      | apply quiet_foldr | apply quiet_ite | split | intro _ | dsimp only)

theorem quiet_enterLast' {s₀ : State} {s : State} {a2 : Nat} {a3 : Nat} {a4 : Barrier} {a5 : List Nat} {a6 : Nat} (h1 : Quiet s₀ s) : Quiet s₀ (State.enterLast s a2 a3 a4 a5 a6).1 :=
  quiet_enterLast (e := (Prod.eta _).symm) h1

theorem quiet_setBarrier {s₀ : State} {s : State} {a2 : Nat} {a3 : Barrier} (h1 : Quiet s₀ s) : Quiet s₀ (State.setBarrier s a2 a3) := by
  unfold State.setBarrier
  with_reducible repeat' (first
      | assumption | apply quiet_modSync | apply quiet_id | apply quiet_foldl | apply quiet_foldr | apply quiet_ite | split | intro _
      | dsimp only)

theorem quiet_putVote {s₀ : State} {s : State} {a2 : Nat} {a3 : Nat} {a4 : Nat} {a5 : Nat} (h1 : Quiet s₀ s) : Quiet s₀ (State.putVote s a2 a3 a4 a5) := by
  unfold State.putVote
  with_reducible repeat' (first
      | assumption | apply quiet_count | apply quiet_modSync | apply quiet_id | apply quiet_foldl | apply quiet_foldr | apply quiet_ite
      | split | intro _ | dsimp only)

theorem quiet_modIndex {s₀ : State} {s : State} {a2 : Nat} {a3 : Cmd} {a4 : VecIndex → VecIndex} (h1 : Quiet s₀ s) : Quiet s₀ (State.modIndex s a2 a3 a4) := by
  unfold State.modIndex
  with_reducible repeat' (first
      | assumption | apply quiet_setIndex | apply quiet_id | apply quiet_foldl | apply quiet_foldr | apply quiet_ite | split | intro _
      | dsimp only)

theorem quiet_loftForget {s₀ : State} {s : State} {a2 : Nat} {a3 : Cmd} (h1 : Quiet s₀ s) : Quiet s₀ (State.loftForget s a2 a3) := by
  unfold State.loftForget
  with_reducible repeat' (first
      | assumption | apply quiet_modFab | apply quiet_modLoft | apply quiet_id | apply quiet_foldl | apply quiet_foldr
      | apply quiet_ite | split | intro _ | dsimp only)

theorem quiet_inSpace {s₀ : State} {s : State} {a2 : Nat} {a3 : Cmd} {a4 : Nat} {a5 : Nat} {a6 : Nat} {a7 : Nat} {a8 : State → State} (h1 : Quiet s₀ s) (h8 : ∀ y0, Quiet s₀ y0 → Quiet s₀ (a8 y0)) : Quiet s₀ (State.inSpace s a2 a3 a4 a5 a6 a7 a8) := by
  unfold State.inSpace
  with_reducible repeat' (first
      | assumption | apply quiet_raiseFault | apply quiet_id | apply quiet_foldl | apply quiet_foldr | apply quiet_ite | apply h8
      | split | intro _ | dsimp only)

theorem quiet_putL1 {s₀ : State} {s : State} {a2 : Nat} {a3 : Nat} {a4 : Nat} {a5 : Nat} (h1 : Quiet s₀ s) : Quiet s₀ (State.putL1 s a2 a3 a4 a5) := by
  unfold State.putL1
  with_reducible repeat' (first
      | assumption | apply quiet_modCore | apply quiet_id | apply quiet_foldl | apply quiet_foldr | apply quiet_ite | split | intro _
      | dsimp only)

theorem quiet_countCycles {s₀ : State} {s : State} {a2 : Nat} (h1 : Quiet s₀ s) : Quiet s₀ (State.countCycles s a2) := by
  unfold State.countCycles
  with_reducible repeat' (first
      | assumption | apply quiet_setReg64 | apply quiet_id | apply quiet_foldl | apply quiet_foldr | apply quiet_ite | split | intro _
      | dsimp only)

theorem quiet_modCrib {s₀ : State} {s : State} {a2 : Nat} {a3 : Crib → Crib} (h1 : Quiet s₀ s) : Quiet s₀ (State.modCrib s a2 a3) := by
  unfold State.modCrib
  with_reducible repeat' (first
      | assumption | apply quiet_wakeNow | apply quiet_setRegN | apply quiet_id | apply quiet_foldl | apply quiet_foldr
      | apply quiet_ite | split | intro _ | dsimp only | refine quiet_mk ?_)

theorem quiet_cribDrop {s₀ : State} {s : State} {a2 : Nat} {a3 : Option Nat} (h1 : Quiet s₀ s) : Quiet s₀ (State.cribDrop s a2 a3) := by
  unfold State.cribDrop
  with_reducible repeat' (first
      | assumption | apply quiet_modCrib | apply quiet_id | apply quiet_foldl | apply quiet_foldr | apply quiet_ite | split | intro _
      | dsimp only | refine quiet_mk ?_)

theorem quiet_cxlRequest {s₀ : State} {s : State} {a2 : Nat} {a3 : Nat} {a4 : Bool} {a5 : Nat} {a6 : Nat} (h1 : Quiet s₀ s) : Quiet s₀ (State.cxlRequest s a2 a3 a4 a5 a6) := by
  unfold State.cxlRequest
  with_reducible repeat' (first
      | assumption | apply quiet_event | apply quiet_bandwidthBytes | apply quiet_id | apply quiet_foldl | apply quiet_foldr
      | apply quiet_ite | split | intro _ | dsimp only)

theorem quiet_unitCycles {s₀ : State} {s : State} {a2 : UnitKind} {a3 : Nat} (h1 : Quiet s₀ s) : Quiet s₀ (State.unitCycles s a2 a3) := by
  unfold State.unitCycles
  with_reducible repeat' (first
      | assumption | refine quiet_choose (by assumption) ?_ | apply quiet_choose' | apply quiet_event | apply quiet_id
      | apply quiet_foldl | apply quiet_foldr | apply quiet_ite | split | intro _ | dsimp only)

theorem quiet_portCycles {s₀ : State} {s : State} {a2 : Nat} (h1 : Quiet s₀ s) : Quiet s₀ (State.portCycles s a2) := by
  unfold State.portCycles
  with_reducible repeat' (first
      | assumption | apply quiet_event | apply quiet_id | apply quiet_foldl | apply quiet_foldr | apply quiet_ite | split | intro _
      | dsimp only)

theorem quiet_queueCycles {s₀ : State} {s : State} (h1 : Quiet s₀ s) : Quiet s₀ (State.queueCycles s) := by
  unfold State.queueCycles
  with_reducible repeat' (first
      | assumption | apply quiet_event | apply quiet_id | apply quiet_foldl | apply quiet_foldr | apply quiet_ite | split | intro _
      | dsimp only)

theorem quiet_cycleCounters {s₀ : State} {s : State} (h1 : Quiet s₀ s) : Quiet s₀ (State.cycleCounters s) := by
  unfold State.cycleCounters
  with_reducible repeat' (first
      | assumption | apply quiet_countCycles | apply quiet_unitCycles | apply quiet_portCycles | apply quiet_queueCycles
      | apply quiet_id | apply quiet_foldl | apply quiet_foldr | apply quiet_ite | split | intro _ | dsimp only)

theorem quiet_dirUncorrectable {s₀ : State} {s : State} {a2 : Nat} (h1 : Quiet s₀ s) : Quiet s₀ (State.dirUncorrectable s a2) := by
  unfold State.dirUncorrectable
  with_reducible repeat' (first
      | assumption | apply quiet_modHomes | apply quiet_report | apply quiet_cause | apply quiet_count | apply quiet_id
      | apply quiet_foldl | apply quiet_foldr | apply quiet_ite | split | intro _ | dsimp only)

theorem quiet_dirError {s₀ : State} {s : State} {a2 : Nat} {a3 : Fin 3} (h1 : Quiet s₀ s) : Quiet s₀ (State.dirError s a2 a3) := by
  unfold State.dirError
  with_reducible repeat' (first
      | assumption | apply quiet_corrected | apply quiet_count | apply quiet_dirUncorrectable | apply quiet_id | apply quiet_foldl
      | apply quiet_foldr | apply quiet_ite | split | intro _ | dsimp only)

theorem quiet_resetUnits {s₀ : State} {s : State} {a2 : Nat} (h1 : Quiet s₀ s) : Quiet s₀ (State.resetUnits s a2) := by
  unfold State.resetUnits
  with_reducible repeat' (first
      | assumption | apply quiet_resetUnit | apply quiet_id | apply quiet_foldl | apply quiet_foldr | apply quiet_ite | split | intro _
      | dsimp only)

theorem quiet_drainUnits {s₀ : State} {s : State} {a2 : Nat} (h1 : Quiet s₀ s) : Quiet s₀ (State.drainUnits s a2) := by
  unfold State.drainUnits
  with_reducible repeat' (first
      | assumption | apply quiet_modPart | apply quiet_resetUnits | apply quiet_id | apply quiet_foldl | apply quiet_foldr
      | apply quiet_ite | split | intro _ | dsimp only)

theorem quiet_drawMany {s₀ s : State} {a2 : Nat} {r0} {t} (e : State.drawMany s a2 = (r0, t)) (h1 : Quiet s₀ s) : Quiet s₀ t := by
  induction a2 generalizing s r0 t with
  | zero => unfold State.drawMany at e; cases e; exact h1
  | succ n ih => unfold State.drawMany at e; cases e; exact ih (Prod.eta _).symm (quiet_draw' h1)

theorem quiet_drawMany' {s₀ s : State} {a2 : Nat} (h1 : Quiet s₀ s) : Quiet s₀ (State.drawMany s a2).2 :=
  quiet_drawMany (e := (Prod.eta _).symm) h1


theorem quiet_dropCoreResv {s₀ : State} {s : State} {a2 : Nat} (h1 : Quiet s₀ s) : Quiet s₀ (State.dropCoreResv s a2) := by
  unfold State.dropCoreResv
  with_reducible repeat' (first
      | assumption | apply quiet_id | apply quiet_foldl | apply quiet_foldr | apply quiet_ite | split | intro _ | dsimp only
      | refine quiet_mk ?_)

theorem quiet_dropParity {s₀ : State} {s : State} {a2 : Option Nat} (h1 : Quiet s₀ s) : Quiet s₀ (State.dropParity s a2) := by
  unfold State.dropParity
  with_reducible repeat' (first
      | assumption | apply quiet_id | apply quiet_foldl | apply quiet_foldr | apply quiet_ite | split | intro _ | dsimp only
      | refine quiet_mk ?_)

theorem quiet_dropPart {s₀ s : State} {a2 : Nat} (h1 : Quiet s₀ s) : Quiet s₀ (State.dropPart s a2) :=
  h1.trans ⟨rfl, rfl⟩


theorem quiet_dropPending {s₀ : State} {s : State} {a2 : List Nat} (h1 : Quiet s₀ s) : Quiet s₀ (State.dropPending s a2) := by
  unfold State.dropPending
  with_reducible repeat' (first
      | assumption | apply quiet_id | apply quiet_foldl | apply quiet_foldr | apply quiet_ite | split | intro _ | dsimp only
      | refine quiet_mk ?_)

theorem quiet_dropRing {s₀ : State} {s : State} {a2 : Nat} {a3 : Nat} (h1 : Quiet s₀ s) : Quiet s₀ (State.dropRing s a2 a3) := by
  unfold State.dropRing
  with_reducible repeat' (first
      | assumption | apply quiet_setRegF | apply quiet_modRing | apply quiet_id | apply quiet_foldl | apply quiet_foldr
      | apply quiet_ite | split | intro _ | dsimp only)

theorem quiet_emitFlit {s₀ : State} {s : State} {a2 : Nat} {a3 : Nat} {a4 : Nat} {a5 : Nat} {a6 : List Nat} (h1 : Quiet s₀ s) : Quiet s₀ (State.emitFlit s a2 a3 a4 a5 a6) := by
  unfold State.emitFlit
  with_reducible repeat' (first
      | assumption | apply quiet_modPort | apply quiet_emit | apply quiet_count64 | apply quiet_id | apply quiet_foldl
      | apply quiet_foldr | apply quiet_ite | split | intro _ | dsimp only)

theorem quiet_loftAnswer {s₀ : State} {s : State} {a2 : LoftReq} {a3 : Nat} {a4 : LoftBlock} (h1 : Quiet s₀ s) : Quiet s₀ (State.loftAnswer s a2 a3 a4) := by
  unfold State.loftAnswer
  with_reducible repeat' (first
      | assumption | apply quiet_giveRoom | apply quiet_modLoft | apply quiet_arrive | apply quiet_id | apply quiet_foldl
      | apply quiet_foldr | apply quiet_ite | split | intro _ | dsimp only)

theorem quiet_endLate {s₀ : State} {s : State} {a2 : LoftReq} (h1 : Quiet s₀ s) : Quiet s₀ (State.endLate s a2) := by
  unfold State.endLate
  with_reducible repeat' (first
      | assumption | apply quiet_loftAnswer | apply quiet_count | apply quiet_id | apply quiet_foldl | apply quiet_foldr
      | apply quiet_ite | split | intro _ | dsimp only)

theorem quiet_endPacket {s₀ : State} {s : State} {a2 : Nat} {a3 : Nat} {a4 : Nat} {a5 : List Nat} (h1 : Quiet s₀ s) : Quiet s₀ (State.endPacket s a2 a3 a4 a5) := by
  unfold State.endPacket
  with_reducible repeat' (first
      | assumption | apply quiet_modPart | apply quiet_id | apply quiet_foldl | apply quiet_foldr | apply quiet_ite | split | intro _
      | dsimp only)

theorem quiet_endSuspects {s₀ : State} {s : State} {a2 : Nat} (h1 : Quiet s₀ s) : Quiet s₀ (State.endSuspects s a2) := by
  unfold State.endSuspects
  with_reducible repeat' (first
      | assumption | apply quiet_modHomes | apply quiet_id | apply quiet_foldl | apply quiet_foldr | apply quiet_ite | split | intro _
      | dsimp only)

theorem quiet_eraseSlot {s₀ : State} {s : State} {a2 : Nat} (h1 : Quiet s₀ s) : Quiet s₀ (State.eraseSlot s a2) := by
  unfold State.eraseSlot
  with_reducible repeat' (first
      | assumption | apply quiet_modBoot | apply quiet_id | apply quiet_foldl | apply quiet_foldr | apply quiet_ite | split | intro _
      | dsimp only)

theorem quiet_fatal {s₀ : State} {s : State} {a2 : Nat} {a3 : Nat} (h1 : Quiet s₀ s) : Quiet s₀ (State.fatal s a2 a3) := by
  unfold State.fatal
  with_reducible repeat' (first
      | assumption | apply quiet_report | apply quiet_setRegF | apply quiet_setReg | apply quiet_id | apply quiet_foldl
      | apply quiet_foldr | apply quiet_ite | split | intro _ | dsimp only | refine quiet_mk ?_)

theorem quiet_fillFlit' {s₀ s : State} {a2 a3 : Nat} {a4 : List (List Nat)} {a5 : Nat} {a6 : List Packet} (h1 : Quiet s₀ s) :
    Quiet s₀ (State.fillFlit s a2 a3 a4 a5 a6).1 := by
  induction a3 generalizing s a4 a5 a6 with
  | zero => unfold State.fillFlit; exact h1
  | succ n ih =>
    unfold State.fillFlit
    split
    · exact h1
    · split
      · exact ih (quiet_modPort h1)
      · exact ih (quiet_modPort h1)
      · split
        · exact h1
        · split
          · exact ih (quiet_discard (quiet_takeEntry h1))
          · exact ih (quiet_beginPacket h1)

theorem quiet_fillFlit {s₀ s : State} {a2 a3 : Nat} {a4 : List (List Nat)} {a5 : Nat} {a6 : List Packet} {t} {r}
    (e : State.fillFlit s a2 a3 a4 a5 a6 = (t, r)) (h1 : Quiet s₀ s) : Quiet s₀ t := by
  have k := quiet_fillFlit' (a2 := a2) (a3 := a3) (a4 := a4) (a5 := a5) (a6 := a6) h1
  rw [e] at k
  exact k


theorem quiet_fillOpen {s₀ : State} {s : State} {a2 : Nat} {a3 : Open} (h1 : Quiet s₀ s) : Quiet s₀ (State.fillOpen s a2 a3) := by
  unfold State.fillOpen
  with_reducible repeat' (first
      | assumption | refine quiet_draw (by assumption) ?_ | apply quiet_draw' | apply quiet_modCore | apply quiet_id
      | apply quiet_foldl | apply quiet_foldr | apply quiet_ite | split | intro _ | dsimp only)

theorem quiet_mbox {s₀ : State} {s : State} {a2 : Mailbox} {a3 : String} {a4 : Nat} {a5 : List Nat} (h1 : Quiet s₀ s) : Quiet s₀ (State.mbox s a2 a3 a4 a5) := by
  unfold State.mbox
  with_reducible repeat' (first
      | assumption | apply quiet_emit | apply quiet_id | apply quiet_foldl | apply quiet_foldr | apply quiet_ite | split | intro _
      | dsimp only)

theorem quiet_fmMailbox {s₀ : State} {s : State} {a2 : Mailbox} {a3 : String} {a4 : State → State} (h1 : Quiet s₀ s) (h4 : ∀ y0, Quiet s₀ y0 → Quiet s₀ (a4 y0)) : Quiet s₀ (State.fmMailbox s a2 a3 a4) := by
  unfold State.fmMailbox
  with_reducible repeat' (first
      | assumption | apply quiet_mbox | apply quiet_id | apply quiet_foldl | apply quiet_foldr | apply quiet_ite | apply h4 | split
      | intro _ | dsimp only)

theorem quiet_forgetArrivals {s₀ : State} {s : State} {a2 : Waiter} (h1 : Quiet s₀ s) : Quiet s₀ (State.forgetArrivals s a2) := by
  unfold State.forgetArrivals
  with_reducible repeat' (first
      | assumption | apply quiet_modFab | apply quiet_id | apply quiet_foldl | apply quiet_foldr | apply quiet_ite | split | intro _
      | dsimp only)

theorem quiet_ftFailed {s₀ : State} {s : State} {a2 : FtRun} {a3 : List Nat} (h1 : Quiet s₀ s) : Quiet s₀ (State.ftFailed s a2 a3) := by
  unfold State.ftFailed
  with_reducible repeat' (first
      | assumption | apply quiet_quarantine | apply quiet_cause | apply quiet_count | apply quiet_modFt | apply quiet_setRegF
      | apply quiet_channelDead | apply quiet_id | apply quiet_foldl | apply quiet_foldr | apply quiet_ite | split | intro _
      | dsimp only)

theorem quiet_unquarantine {s₀ : State} {s : State} {a2 : UnitKind} {a3 : Nat} (h1 : Quiet s₀ s) : Quiet s₀ (State.unquarantine s a2 a3) := by
  unfold State.unquarantine
  with_reducible repeat' (first
      | assumption | apply quiet_setRegF | apply quiet_id | apply quiet_foldl | apply quiet_foldr | apply quiet_ite | split | intro _
      | dsimp only | refine quiet_mk ?_)

theorem quiet_ftEnd {s₀ : State} {s : State} {a2 : FtRun} {a3 : Option Nat} {a4 : Nat} {a5 : List Nat} (h1 : Quiet s₀ s) : Quiet s₀ (State.ftEnd s a2 a3 a4 a5) := by
  unfold State.ftEnd
  with_reducible repeat' (first
      | assumption | apply quiet_ftRestore | apply quiet_modFt | apply quiet_setRegN | apply quiet_ftResult | apply quiet_report
      | apply quiet_cause | apply quiet_ftFailed | apply quiet_count | apply quiet_unquarantine | apply quiet_id | apply quiet_foldl
      | apply quiet_foldr | apply quiet_ite | split | intro _ | dsimp only)

theorem quiet_setSleep {s₀ : State} {s : State} {a2 : Nat} {a3 : Nat} (h1 : Quiet s₀ s) : Quiet s₀ (State.setSleep s a2 a3) := by
  unfold State.setSleep
  with_reducible repeat' (first
      | assumption | apply quiet_id | apply quiet_foldl | apply quiet_foldr | apply quiet_ite | split | intro _ | dsimp only
      | refine quiet_mk ?_)

theorem quiet_gateAll {s₀ : State} {s : State} (h1 : Quiet s₀ s) : Quiet s₀ (State.gateAll s) := by
  unfold State.gateAll
  with_reducible repeat' (first
      | assumption | apply quiet_setSleep | apply quiet_resetUnit | apply quiet_id | apply quiet_foldl | apply quiet_foldr
      | apply quiet_ite | split | intro _ | dsimp only | refine quiet_mk ?_)

theorem quiet_gcWaitEnds {s₀ : State} {s : State} {a2 : Nat} {a3 : Option Nat} (h1 : Quiet s₀ s) : Quiet s₀ (State.gcWaitEnds s a2 a3) := by
  unfold State.gcWaitEnds
  with_reducible repeat' (first
      | assumption | apply quiet_endWait | apply quiet_gcEnd | apply quiet_retire | apply quiet_modCore | apply quiet_id
      | apply quiet_foldl | apply quiet_foldr | apply quiet_ite | split | intro _ | dsimp only)

theorem quiet_receive {s₀ : State} {s : State} {a2 : Packet} (h1 : Quiet s₀ s) : Quiet s₀ (State.receive s a2) := by
  unfold State.receive
  with_reducible repeat' (first
      | assumption | apply quiet_modFab | apply quiet_id | apply quiet_foldl | apply quiet_foldr | apply quiet_ite | split | intro _
      | dsimp only)

theorem quiet_noteIncarnation {s₀ : State} {s : State} {a2 : Nat} {a3 : Nat} (h1 : Quiet s₀ s) : Quiet s₀ (State.noteIncarnation s a2 a3) := by
  unfold State.noteIncarnation
  with_reducible repeat' (first
      | assumption | apply quiet_modFab | apply quiet_count | apply quiet_id | apply quiet_foldl | apply quiet_foldr | apply quiet_ite
      | split | intro _ | dsimp only)

theorem quiet_installRemote {s₀ : State} {s : State} {a2 : Nat} {a3 : RemoteLine} (h1 : Quiet s₀ s) : Quiet s₀ (State.installRemote s a2 a3) := by
  unfold State.installRemote
  with_reducible repeat' (first
      | assumption | apply quiet_setRemoteLine | refine quiet_choose (by assumption) ?_ | apply quiet_choose'
      | apply quiet_modHomes | apply quiet_id | apply quiet_foldl | apply quiet_foldr | apply quiet_ite | split | intro _ | dsimp only)

theorem quiet_heatTick {s₀ : State} {s : State} {a2 : Nat} {a3 : Nat} {a4 : Int} (h1 : Quiet s₀ s) : Quiet s₀ (State.heatTick s a2 a3 a4) := by
  unfold State.heatTick
  with_reducible repeat' (first
      | assumption | apply quiet_showThrottle | apply quiet_cause | apply quiet_report | apply quiet_id | apply quiet_foldl
      | apply quiet_foldr | apply quiet_ite | split | intro _ | dsimp only | refine quiet_mk ?_)

theorem quiet_portViolation {s₀ : State} {s : State} {a2 : Nat} {a3 : Nat} {a4 : Nat} {a5 : Bool} {a6 : String} {a7 : Bool} (h1 : Quiet s₀ s) : Quiet s₀ (State.portViolation s a2 a3 a4 a5 a6 a7) := by
  unfold State.portViolation
  with_reducible repeat' (first
      | assumption | apply quiet_emit | apply quiet_violateMem | apply quiet_id | apply quiet_foldl | apply quiet_foldr
      | apply quiet_ite | split | intro _ | dsimp only)

theorem quiet_muteHosts {s₀ : State} {s : State} {a2 : List Nat} (h1 : Quiet s₀ s) : Quiet s₀ (State.muteHosts s a2) := by
  unfold State.muteHosts
  with_reducible repeat' (first
      | assumption | apply quiet_modHomes | apply quiet_modPart | apply quiet_id | apply quiet_foldl | apply quiet_foldr
      | apply quiet_ite | split | intro _ | dsimp only | refine quiet_mk ?_)

theorem quiet_ideMessage {s₀ : State} {s : State} {a2 : Nat} {a3 : IdeMsg} (h1 : Quiet s₀ s) : Quiet s₀ (State.ideMessage s a2 a3) := by
  unfold State.ideMessage
  with_reducible repeat' (first
      | assumption | apply quiet_setRegF | apply quiet_id | apply quiet_foldl | apply quiet_foldr | apply quiet_ite | split | intro _
      | dsimp only | refine quiet_mk ?_)

theorem quiet_installPackage {s₀ : State} {s : State} {a2 : List Nat} {a3 : Nat} (h1 : Quiet s₀ s) : Quiet s₀ (State.installPackage s a2 a3) := by
  unfold State.installPackage
  with_reducible repeat' (first
      | assumption | apply quiet_extend | apply quiet_modFt | apply quiet_cause | apply quiet_report | apply quiet_id
      | apply quiet_foldl | apply quiet_foldr | apply quiet_ite | split | intro _ | dsimp only)

theorem quiet_itemsDone {s₀ : State} {s : State} {a2 : Nat} {a3 : Cmd} {a4 : VecIndex} (h1 : Quiet s₀ s) : Quiet s₀ (State.itemsDone s a2 a3 a4) := by
  unfold State.itemsDone
  with_reducible repeat' (first
      | assumption | apply quiet_setAux | apply quiet_modIndex | apply quiet_rowEnd | apply quiet_id | apply quiet_foldl
      | apply quiet_foldr | apply quiet_ite | split | intro _ | dsimp only)

theorem quiet_itemsStart {s₀ : State} {s : State} {a2 : Nat} {a3 : Cmd} {a4 : VecIndex} (h1 : Quiet s₀ s) : Quiet s₀ (State.itemsStart s a2 a3 a4) := by
  unfold State.itemsStart
  with_reducible repeat' (first
      | assumption | apply quiet_setAux | apply quiet_endCmd | apply quiet_id | apply quiet_foldl | apply quiet_foldr | apply quiet_ite
      | split | intro _ | dsimp only)

theorem quiet_winStop {s₀ : State} {s : State} {a2 : Nat} {a3 : Cmd} {a4 : Nat} (h1 : Quiet s₀ s) : Quiet s₀ (State.winStop s a2 a3 a4) := by
  unfold State.winStop
  with_reducible repeat' (first
      | assumption | apply quiet_rowEnd | apply quiet_loftForget | apply quiet_modIndex | apply quiet_id | apply quiet_foldl
      | apply quiet_foldr | apply quiet_ite | split | intro _ | dsimp only)

theorem quiet_itemsStopped {s₀ : State} {s : State} {a2 : Nat} {a3 : Cmd} (h1 : Quiet s₀ s) : Quiet s₀ (State.itemsStopped s a2 a3) := by
  unfold State.itemsStopped
  with_reducible repeat' (first
      | assumption | apply quiet_winStop | apply quiet_id | apply quiet_foldl | apply quiet_foldr | apply quiet_ite | split | intro _
      | dsimp only)

theorem quiet_l1dError {s₀ : State} {s : State} {a2 : Nat} {a3 : Nat} (h1 : Quiet s₀ s) : Quiet s₀ (State.l1dError s a2 a3) := by
  unfold State.l1dError
  with_reducible repeat' (first
      | assumption | apply quiet_modCore | apply quiet_id | apply quiet_foldl | apply quiet_foldr | apply quiet_ite | split | intro _
      | dsimp only)

theorem quiet_l1dStrike {s₀ : State} {s : State} {a2 : Nat} {a3 : Option Upset} (h1 : Quiet s₀ s) : Quiet s₀ (State.l1dStrike s a2 a3) := by
  unfold State.l1dStrike
  with_reducible repeat' (first
      | assumption | apply quiet_modCore | apply quiet_id | apply quiet_foldl | apply quiet_foldr | apply quiet_ite | split | intro _
      | dsimp only)

theorem quiet_ldMailbox {s₀ : State} {s : State} {a2 : Mailbox} {a3 : String} {a4 : Nat → State → State} (h1 : Quiet s₀ s) (h4 : ∀ y0 y1, Quiet s₀ y1 → Quiet s₀ (a4 y0 y1)) : Quiet s₀ (State.ldMailbox s a2 a3 a4) := by
  unfold State.ldMailbox
  with_reducible repeat' (first
      | assumption | apply quiet_mbox | apply quiet_id | apply quiet_foldl | apply quiet_foldr | apply quiet_ite | apply h4 | split
      | intro _ | dsimp only)

theorem quiet_linkDrain {s₀ : State} {s : State} {a2 : Nat} (h1 : Quiet s₀ s) : Quiet s₀ (State.linkDrain s a2) := by
  unfold State.linkDrain
  with_reducible repeat' (first
      | assumption | apply quiet_setLink | apply quiet_id | apply quiet_foldl | apply quiet_foldr | apply quiet_ite | split | intro _
      | dsimp only)

theorem quiet_meDone {s₀ : State} {s : State} {a2 : Nat} {a3 : Nat} {a4 : Cmd} {a5 : Bool} {a6 : Nat} {a7 : Nat} (h1 : Quiet s₀ s) : Quiet s₀ (State.meDone s a2 a3 a4 a5 a6 a7) := by
  unfold State.meDone
  with_reducible repeat' (first
      | assumption | apply quiet_count64 | apply quiet_event | apply quiet_itemDone | apply quiet_setRegF | apply quiet_setAux
      | apply quiet_meEnd | apply quiet_id | apply quiet_foldl | apply quiet_foldr | apply quiet_ite | split | intro _ | dsimp only)

theorem quiet_loaded {s₀ : State} {s : State} {a2 : Nat} {a3 : Nat} {a4 : Cmd} {a5 : Nat} {a6 : Tile} {a7 : Nat} (h1 : Quiet s₀ s) : Quiet s₀ (State.loaded s a2 a3 a4 a5 a6 a7) := by
  unfold State.loaded
  with_reducible repeat' (first
      | assumption | apply quiet_meEnd | apply quiet_meDone | apply quiet_modEngine | apply quiet_id | apply quiet_foldl
      | apply quiet_foldr | apply quiet_ite | split | intro _ | dsimp only)

theorem quiet_loadDone {s₀ : State} {s : State} {a2 : Nat} {a3 : Nat} {a4 : Nat} {a5 : Nat} {a6 : Nat} (h1 : Quiet s₀ s) : Quiet s₀ (State.loadDone s a2 a3 a4 a5 a6) := by
  unfold State.loadDone
  with_reducible repeat' (first
      | assumption | refine quiet_drawMany (by assumption) ?_ | apply quiet_drawMany' | apply quiet_accessDone
      | apply quiet_modCore | apply quiet_id | apply quiet_foldl | apply quiet_foldr | apply quiet_ite | split | intro _ | dsimp only)

theorem quiet_loftCount {s₀ : State} {s : State} {a2 : Nat} {a3 : Nat} {a4 : Nat} {a5 : Nat} (h1 : Quiet s₀ s) : Quiet s₀ (State.loftCount s a2 a3 a4 a5) := by
  unfold State.loftCount
  with_reducible repeat' (first
      | assumption | apply quiet_count | apply quiet_id | apply quiet_foldl | apply quiet_foldr | apply quiet_ite | split | intro _
      | dsimp only)

theorem quiet_loftFailed {s₀ : State} {s : State} {a2 : LoftReq} (h1 : Quiet s₀ s) : Quiet s₀ (State.loftFailed s a2) := by
  unfold State.loftFailed
  with_reducible repeat' (first
      | assumption | apply quiet_cause | apply quiet_count | apply quiet_report | apply quiet_loftAnswer | apply quiet_id
      | apply quiet_foldl | apply quiet_foldr | apply quiet_ite | split | intro _ | dsimp only)

theorem quiet_loftGot {s₀ : State} {s : State} {a2 : LoftReq} {a3 : LoftBlock} (h1 : Quiet s₀ s) : Quiet s₀ (State.loftGot s a2 a3) := by
  unfold State.loftGot
  with_reducible repeat' (first
      | assumption | apply quiet_endLate | apply quiet_loftAnswer | apply quiet_id | apply quiet_foldl | apply quiet_foldr
      | apply quiet_ite | split | intro _ | dsimp only)

theorem quiet_loftRebuilt {s₀ : State} {s : State} {a2 : LoftReq} {a3 : Nat} {a4 : Nat} {a5 : Nat} {a6 : Bool} (h1 : Quiet s₀ s) : Quiet s₀ (State.loftRebuilt s a2 a3 a4 a5 a6) := by
  unfold State.loftRebuilt
  with_reducible repeat' (first
      | assumption | apply quiet_loftCount | apply quiet_endLate | apply quiet_loftFailed | apply quiet_loftGot
      | apply quiet_channelBlock | apply quiet_count | apply quiet_id | apply quiet_foldl | apply quiet_foldr | apply quiet_ite | split
      | intro _ | dsimp only)

theorem quiet_markSent {s₀ : State} {s : State} {a2 : Nat} {a3 : Cmd} (h1 : Quiet s₀ s) : Quiet s₀ (State.markSent s a2 a3) := by
  unfold State.markSent
  with_reducible repeat' (first
      | assumption | apply quiet_setAux | apply quiet_id | apply quiet_foldl | apply quiet_foldr | apply quiet_ite | split | intro _
      | dsimp only)

theorem quiet_mboxAdvance {s₀ : State} {s : State} {a2 : Inbound} (h1 : Quiet s₀ s) : Quiet s₀ (State.mboxAdvance s a2) := by
  unfold State.mboxAdvance
  with_reducible repeat' (first
      | assumption | apply quiet_modFab | apply quiet_setRegN | apply quiet_id | apply quiet_foldl | apply quiet_foldr
      | apply quiet_ite | split | intro _ | dsimp only)

theorem quiet_meStep {s₀ : State} {s : State} {a2 : Nat} {a3 : Nat} {a4 : Nat → Cmd → List Nat → State → State} (h1 : Quiet s₀ s) (h4 : ∀ y0 y1 y2 y3, Quiet s₀ y3 → Quiet s₀ (a4 y0 y1 y2 y3)) : Quiet s₀ (State.meStep s a2 a3 a4) := by
  unfold State.meStep
  with_reducible repeat' (first
      | assumption | apply quiet_meEnd | apply quiet_id | apply quiet_foldl | apply quiet_foldr | apply quiet_ite | apply h4 | split
      | intro _ | dsimp only)

theorem quiet_meWaitEnds {s₀ : State} {s : State} {a2 : Nat} {a3 : Option Nat} (h1 : Quiet s₀ s) : Quiet s₀ (State.meWaitEnds s a2 a3) := by
  unfold State.meWaitEnds
  with_reducible repeat' (first
      | assumption | apply quiet_endWait | apply quiet_meEnd | apply quiet_meDone | apply quiet_id | apply quiet_foldl
      | apply quiet_foldr | apply quiet_ite | split | intro _ | dsimp only)

theorem quiet_migrateUndo {s₀ : State} {s : State} {a2 : Nat} {a3 : Cmd} {a4 : Nat} {a5 : Nat} (h1 : Quiet s₀ s) : Quiet s₀ (State.migrateUndo s a2 a3 a4 a5) := by
  unfold State.migrateUndo
  with_reducible repeat' (first
      | assumption | apply quiet_setAux | apply quiet_id | apply quiet_foldl | apply quiet_foldr | apply quiet_ite | split | intro _
      | dsimp only)

theorem quiet_mirrorCmd {s₀ : State} {s : State} {a2 : Requester} {a3 : Word} {a4 : Nat → Mirror → State → State} (h1 : Quiet s₀ s) (h4 : ∀ y0 y1 y2, Quiet s₀ y2 → Quiet s₀ (a4 y0 y1 y2)) : Quiet s₀ (State.mirrorCmd s a2 a3 a4) := by
  unfold State.mirrorCmd
  with_reducible repeat' (first
      | assumption | apply quiet_access | apply quiet_store | apply quiet_id | apply quiet_foldl | apply quiet_foldr | apply quiet_ite
      | apply h4 | split | intro _ | dsimp only)

theorem quiet_modForward {s₀ : State} {s : State} {a2 : Nat} {a3 : Forward → Forward} (h1 : Quiet s₀ s) : Quiet s₀ (State.modForward s a2 a3) := by
  unfold State.modForward
  with_reducible repeat' (first
      | assumption | apply quiet_id | apply quiet_foldl | apply quiet_foldr | apply quiet_ite | split | intro _ | dsimp only
      | refine quiet_mk ?_)

theorem quiet_moveEnd {s₀ : State} {s : State} {a2 : Nat} {a3 : Cmd} {a4 : Nat} (h1 : Quiet s₀ s) : Quiet s₀ (State.moveEnd s a2 a3 a4) := by
  unfold State.moveEnd
  with_reducible repeat' (first
      | assumption | apply quiet_endCmd | apply quiet_loftForget | apply quiet_id | apply quiet_foldl | apply quiet_foldr
      | apply quiet_ite | split | intro _ | dsimp only)

theorem quiet_nakFlit {s₀ : State} {s : State} {a2 : Nat} (h1 : Quiet s₀ s) : Quiet s₀ (State.nakFlit s a2) := by
  unfold State.nakFlit
  with_reducible repeat' (first
      | assumption | apply quiet_modPort | apply quiet_id | apply quiet_foldl | apply quiet_foldr | apply quiet_ite | split | intro _
      | dsimp only)

theorem quiet_nextIncarnation {s₀ : State} {s : State} (h1 : Quiet s₀ s) : Quiet s₀ (State.nextIncarnation s) := by
  unfold State.nextIncarnation
  with_reducible repeat' (first
      | assumption | apply quiet_setRegF | apply quiet_modBoot | apply quiet_id | apply quiet_foldl | apply quiet_foldr
      | apply quiet_ite | split | intro _ | dsimp only)

theorem quiet_offerRelease {s₀ : State} {s : State} {a2 : Nat} {a3 : Range} (h1 : Quiet s₀ s) : Quiet s₀ (State.offerRelease s a2 a3) := by
  unfold State.offerRelease
  with_reducible repeat' (first
      | assumption | apply quiet_eventRecord | apply quiet_setExtents | apply quiet_id | apply quiet_foldl | apply quiet_foldr
      | apply quiet_ite | split | intro _ | dsimp only)

theorem quiet_setHeld {s₀ : State} {s : State} {a2 : Requester} {a3 : Nat} {a4 : Option Word} (h1 : Quiet s₀ s) : Quiet s₀ (State.setHeld s a2 a3 a4) := by
  unfold State.setHeld
  with_reducible repeat' (first
      | assumption | apply quiet_id | apply quiet_foldl | apply quiet_foldr | apply quiet_ite | split | intro _ | dsimp only
      | refine quiet_mk ?_)

theorem quiet_pairDone {s₀ : State} {s : State} {a2 : Requester} {a3 : Nat} {a4 : Word} (h1 : Quiet s₀ s) : Quiet s₀ (State.pairDone s a2 a3 a4) := by
  unfold State.pairDone
  with_reducible repeat' (first
      | assumption | apply quiet_store | apply quiet_setHeld | apply quiet_id | apply quiet_foldl | apply quiet_foldr | apply quiet_ite
      | split | intro _ | dsimp only)

theorem quiet_pairHigh {s₀ : State} {s : State} {a2 : Requester} {a3 : Nat} {a4 : Word} {a5 : State → State} (h1 : Quiet s₀ s) (h5 : ∀ y0, Quiet s₀ y0 → Quiet s₀ (a5 y0)) : Quiet s₀ (State.pairHigh s a2 a3 a4 a5) := by
  unfold State.pairHigh
  with_reducible repeat' (first
      | assumption | apply quiet_access | apply quiet_pairDone | apply quiet_id | apply quiet_foldl | apply quiet_foldr
      | apply quiet_ite | apply h5 | split | intro _ | dsimp only)

theorem quiet_pairLow {s₀ : State} {s : State} {a2 : Requester} {a3 : Nat} {a4 : Word} (h1 : Quiet s₀ s) : Quiet s₀ (State.pairLow s a2 a3 a4) := by
  unfold State.pairLow
  with_reducible repeat' (first
      | assumption | apply quiet_access | apply quiet_setHeld | apply quiet_id | apply quiet_foldl | apply quiet_foldr
      | apply quiet_ite | split | intro _ | dsimp only)

theorem quiet_paramResult {s₀ : State} {s : State} {a2 : Nat} (h1 : Quiet s₀ s) : Quiet s₀ (State.paramResult s a2) := by
  unfold State.paramResult
  with_reducible repeat' (first
      | assumption | apply quiet_setRegF | apply quiet_id | apply quiet_foldl | apply quiet_foldr | apply quiet_ite | split | intro _
      | dsimp only)

theorem quiet_setPhase {s₀ : State} {s : State} {a2 : Nat} {a3 : Cmd} {a4 : Phase} (h1 : Quiet s₀ s) : Quiet s₀ (State.setPhase s a2 a3 a4) := by
  unfold State.setPhase
  with_reducible repeat' (first
      | assumption | apply quiet_modCmd | apply quiet_id | apply quiet_foldl | apply quiet_foldr | apply quiet_ite | split | intro _
      | dsimp only)

theorem quiet_wornOut {s₀ : State} {s : State} {a2 : Nat} (h1 : Quiet s₀ s) : Quiet s₀ (State.wornOut s a2) := by
  unfold State.wornOut
  with_reducible repeat' (first
      | assumption | apply quiet_report | apply quiet_cause | apply quiet_id | apply quiet_foldl | apply quiet_foldr | apply quiet_ite
      | split | intro _ | dsimp only)

theorem quiet_programStripe {s₀ : State} {s : State} {a2 : Nat} {a3 : List Staged} {a4 : Nat} (h1 : Quiet s₀ s) : Quiet s₀ (State.programStripe s a2 a3 a4) := by
  unfold State.programStripe
  with_reducible repeat' (first
      | assumption | apply quiet_modLoft | apply quiet_wornOut | apply quiet_modSuper | apply quiet_id | apply quiet_foldl
      | apply quiet_foldr | apply quiet_ite | split | intro _ | dsimp only)

theorem quiet_showQuarantined {s₀ : State} {s : State} {a2 : Nat} {a3 : Cmd} (h1 : Quiet s₀ s) : Quiet s₀ (State.showQuarantined s a2 a3) := by
  unfold State.showQuarantined
  with_reducible repeat' (first
      | assumption | apply quiet_modCmd | apply quiet_id | apply quiet_foldl | apply quiet_foldr | apply quiet_ite | split | intro _
      | dsimp only)

theorem quiet_queuePacket {s₀ : State} {s : State} {a2 : Nat} {a3 : Nat} {a4 : List Nat} (h1 : Quiet s₀ s) : Quiet s₀ (State.queuePacket s a2 a3 a4) := by
  unfold State.queuePacket
  with_reducible repeat' (first
      | assumption | apply quiet_modPart | apply quiet_id | apply quiet_foldl | apply quiet_foldr | apply quiet_ite | split | intro _
      | dsimp only)

theorem quiet_readAt {s₀ : State} {s : State} {a2 : Nat} {r0} {r1} {t} (e : State.readAt s a2 = (r0, r1, t)) (h1 : Quiet s₀ s) : Quiet s₀ t := by
  unfold State.readAt at e
  repeat' (first | (split at e) | (dsimp only at e))
  all_goals (first | (cases e) | (simp only [Option.map_eq_some_iff] at e; obtain ⟨_, _, rfl⟩ := e) | (simp only [Option.some.injEq, Prod.mk.injEq] at e; obtain ⟨_, rfl⟩ := e) | (simp only [Option.some.injEq, Prod.mk.injEq] at e; subst e) | skip)
  all_goals with_reducible repeat' (first
      | assumption | refine quiet_draw (by assumption) ?_ | apply quiet_draw' | apply quiet_id | apply quiet_foldl | apply quiet_foldr
      | apply quiet_ite | split | intro _ | dsimp only)

theorem quiet_readAt' {s₀ : State} {s : State} {a2 : Nat} (h1 : Quiet s₀ s) : Quiet s₀ (State.readAt s a2).2.2 :=
  quiet_readAt (e := (Prod.eta _).symm) h1

theorem quiet_readCxl {s₀ : State} {s : State} {a2 : Nat} {a3 : CxlPart} {a4 : Nat} {r0} {t} (e : State.readCxl s a2 a3 a4 = (r0, t)) (h1 : Quiet s₀ s) : Quiet s₀ t := by
  unfold State.readCxl at e
  repeat' (first | (split at e) | (dsimp only at e))
  all_goals (first | (cases e) | (simp only [Option.map_eq_some_iff] at e; obtain ⟨_, _, rfl⟩ := e) | (simp only [Option.some.injEq, Prod.mk.injEq] at e; obtain ⟨_, rfl⟩ := e) | (simp only [Option.some.injEq, Prod.mk.injEq] at e; subst e) | skip)
  all_goals with_reducible repeat' (first
      | assumption | refine quiet_draw (by assumption) ?_ | apply quiet_draw' | apply quiet_id | apply quiet_foldl | apply quiet_foldr
      | apply quiet_ite | split | intro _ | dsimp only)

theorem quiet_readCxl' {s₀ : State} {s : State} {a2 : Nat} {a3 : CxlPart} {a4 : Nat} (h1 : Quiet s₀ s) : Quiet s₀ (State.readCxl s a2 a3 a4).2 :=
  quiet_readCxl (e := (Prod.eta _).symm) h1

theorem quiet_releaseRing {s₀ : State} {s : State} {a2 : Nat} {a3 : Nat} (h1 : Quiet s₀ s) : Quiet s₀ (State.releaseRing s a2 a3) := by
  unfold State.releaseRing
  with_reducible repeat' (first
      | assumption | apply quiet_disableRing | apply quiet_dropRing | apply quiet_unloadAll | apply quiet_id | apply quiet_foldl
      | apply quiet_foldr | apply quiet_ite | split | intro _ | dsimp only)

theorem quiet_releaseStructures {s₀ : State} {s : State} {a2 : Nat} {a3 : Range} (h1 : Quiet s₀ s) : Quiet s₀ (State.releaseStructures s a2 a3) := by
  unfold State.releaseStructures
  with_reducible repeat' (first
      | assumption | apply quiet_releaseRing | apply quiet_pcause | apply quiet_xltOff | apply quiet_beginUnload | apply quiet_id
      | apply quiet_foldl | apply quiet_foldr | apply quiet_ite | split | intro _ | dsimp only)

theorem quiet_replaceEntry {s₀ : State} {s : State} {a2 : Nat} {a3 : QEntry} {a4 : QEntry} (h1 : Quiet s₀ s) : Quiet s₀ (State.replaceEntry s a2 a3 a4) := by
  unfold State.replaceEntry
  with_reducible repeat' (first
      | assumption | apply quiet_modPort | apply quiet_id | apply quiet_foldl | apply quiet_foldr | apply quiet_ite | split | intro _
      | dsimp only)

theorem quiet_resumeOne {s₀ : State} {s : State} {a2 : Nat} {a3 : HeldFault} (h1 : Quiet s₀ s) : Quiet s₀ (State.resumeOne s a2 a3) := by
  unfold State.resumeOne
  with_reducible repeat' (first
      | assumption | apply quiet_dropXlt | apply quiet_endFault | apply quiet_modCmd | apply quiet_id | apply quiet_foldl
      | apply quiet_foldr | apply quiet_ite | split | intro _ | dsimp only)

theorem quiet_retireBlock {s₀ : State} {s : State} {a2 : Nat} {a3 : Nat} {a4 : Nat} (h1 : Quiet s₀ s) : Quiet s₀ (State.retireBlock s a2 a3 a4) := by
  unfold State.retireBlock
  with_reducible repeat' (first
      | assumption | apply quiet_count | apply quiet_loftMove | apply quiet_modLoft | apply quiet_id | apply quiet_foldl
      | apply quiet_foldr | apply quiet_ite | split | intro _ | dsimp only)

theorem quiet_unitStep {s₀ : State} {s : State} {a2 : Nat} {a3 : Nat} {a4 : Nat} {a5 : Nat} {a6 : UnitKind} {a7 : Cmd → Bool} {a8 : State → Cmd → State} {a9 : State → Cmd → State} (h1 : Quiet s₀ s) (h8 : ∀ y0 y1, Quiet s₀ y0 → Quiet s₀ (a8 y0 y1)) (h9 : ∀ y0 y1, Quiet s₀ y0 → Quiet s₀ (a9 y0 y1)) : Quiet s₀ (State.unitStep s a2 a3 a4 a5 a6 a7 a8 a9) := by
  unfold State.unitStep
  with_reducible repeat' (first
      | assumption | apply quiet_id | apply quiet_foldl | apply quiet_foldr | apply quiet_ite | apply h8 | apply h9 | split | intro _
      | dsimp only)

theorem quiet_rowStep {s₀ : State} {s : State} {a2 : Nat} {a3 : Nat} {a4 : Nat} {a5 : Nat} {a6 : Cmd → Bool} {a7 : Cmd → Bool} {a8 : State → Cmd → State} {a9 : State → Cmd → State} (h1 : Quiet s₀ s) (h8 : ∀ y0 y1, Quiet s₀ y0 → Quiet s₀ (a8 y0 y1)) (h9 : ∀ y0 y1, Quiet s₀ y0 → Quiet s₀ (a9 y0 y1)) : Quiet s₀ (State.rowStep s a2 a3 a4 a5 a6 a7 a8 a9) := by
  unfold State.rowStep
  with_reducible repeat' (first
      | assumption | apply quiet_unitStep | apply quiet_rowEnd | apply quiet_endCmd | apply quiet_id | apply quiet_foldl
      | apply quiet_foldr | apply quiet_ite | apply h8 | apply h9 | split | intro _ | dsimp only)

theorem quiet_slotDone {s₀ : State} {s : State} {a2 : Nat} {a3 : Nat} {a4 : Cmd} {a5 : Slot} {a6 : Nat} (h1 : Quiet s₀ s) : Quiet s₀ (State.slotDone s a2 a3 a4 a5 a6) := by
  unfold State.slotDone
  with_reducible repeat' (first
      | assumption | apply quiet_modEngine | apply quiet_meDone | apply quiet_pcause | apply quiet_count | apply quiet_id
      | apply quiet_foldl | apply quiet_foldr | apply quiet_ite | split | intro _ | dsimp only)

theorem quiet_runSlot {s₀ : State} {s : State} {a2 : Nat} {a3 : Nat} {a4 : Cmd} {a5 : Nat} {a6 : List Attempt} (h1 : Quiet s₀ s) : Quiet s₀ (State.runSlot s a2 a3 a4 a5 a6) := by
  unfold State.runSlot
  with_reducible repeat' (first
      | assumption | apply quiet_meEnd | apply quiet_attempts | apply quiet_slotDone | apply quiet_id | apply quiet_foldl
      | apply quiet_foldr | apply quiet_ite | split | intro _ | dsimp only)

theorem quiet_sclClear {s₀ : State} {s : State} {a2 : Nat} (h1 : Quiet s₀ s) : Quiet s₀ (State.sclClear s a2) := by
  unfold State.sclClear
  with_reducible repeat' (first
      | assumption | apply quiet_setReg64 | apply quiet_setRegN | apply quiet_modScaler | apply quiet_id | apply quiet_foldl
      | apply quiet_foldr | apply quiet_ite | split | intro _ | dsimp only)

theorem quiet_sclRunAll {s₀ : State} {s : State} {a2 : Nat} (h1 : Quiet s₀ s) : Quiet s₀ (State.sclRunAll s a2) := by
  unfold State.sclRunAll
  with_reducible repeat' (first
      | assumption | apply quiet_setRegF | apply quiet_id | apply quiet_foldl | apply quiet_foldr | apply quiet_ite | split | intro _
      | dsimp only)

theorem quiet_semWait {s₀ : State} {s : State} {a2 : SemWaiter} {a3 : Nat} {a4 : Nat} {a5 : Nat} (h1 : Quiet s₀ s) : Quiet s₀ (State.semWait s a2 a3 a4 a5) := by
  unfold State.semWait
  with_reducible repeat' (first
      | assumption | apply quiet_modSync | apply quiet_id | apply quiet_foldl | apply quiet_foldr | apply quiet_ite | split | intro _
      | dsimp only)

theorem quiet_sendAll {s₀ : State} {s : State} {a2 : Nat} {a3 : List ErrRec} (h1 : Quiet s₀ s) : Quiet s₀ (State.sendAll s a2 a3) := by
  induction a2 generalizing s a3 h1 with
  | zero =>
    unfold State.sendAll
    with_reducible repeat' (first
      | assumption | apply quiet_sendRecords | apply quiet_id | apply quiet_foldl | apply quiet_foldr | apply quiet_ite | split
      | intro _ | dsimp only)
  | succ _ ih =>
    unfold State.sendAll
    with_reducible repeat' (first
      | assumption | apply quiet_sendRecords | apply quiet_id | apply quiet_foldl | apply quiet_foldr | apply quiet_ite | split
      | intro _ | dsimp only | apply ih)

theorem quiet_sendFlit {s₀ : State} {s : State} {a2 : Nat} {a3 : Nat} {a4 : Nat} {a5 : List Nat} (h1 : Quiet s₀ s) : Quiet s₀ (State.sendFlit s a2 a3 a4 a5) := by
  unfold State.sendFlit
  with_reducible repeat' (first
      | assumption | apply quiet_modPort | apply quiet_emitFlit | apply quiet_id | apply quiet_foldl | apply quiet_foldr
      | apply quiet_ite | split | intro _ | dsimp only)

theorem quiet_sendData {s₀ : State} {s : State} {a2 : Nat} {a3 : List (List Nat)} {a4 : Nat} {a5 : List Packet} (h1 : Quiet s₀ s) : Quiet s₀ (State.sendData s a2 a3 a4 a5) := by
  unfold State.sendData
  with_reducible repeat' (first
      | assumption | apply quiet_sendFlit | apply quiet_modPort | apply quiet_id | apply quiet_foldl | apply quiet_foldr
      | apply quiet_ite | split | intro _ | dsimp only)

theorem quiet_sendPending {s₀ : State} {s : State} {a2 : Nat} (h1 : Quiet s₀ s) : Quiet s₀ (State.sendPending s a2) := by
  unfold State.sendPending
  with_reducible repeat' (first
      | assumption | apply quiet_emit | apply quiet_modLd | apply quiet_id | apply quiet_foldl | apply quiet_foldr | apply quiet_ite
      | split | intro _ | dsimp only)

theorem quiet_sendTag {s₀ : State} {s : State} {a2 : Nat} (h1 : Quiet s₀ s) : Quiet s₀ (State.sendTag s a2) := by
  unfold State.sendTag
  with_reducible repeat' (first
      | assumption | apply quiet_sendFlit | apply quiet_modPort | apply quiet_id | apply quiet_foldl | apply quiet_foldr
      | apply quiet_ite | split | intro _ | dsimp only)

theorem quiet_served {s₀ : State} {s : State} {a2 : Transport} {a3 : State → State} (h1 : Quiet s₀ s) (h3 : ∀ y0, Quiet s₀ y0 → Quiet s₀ (a3 y0)) : Quiet s₀ (State.served s a2 a3) := by
  unfold State.served
  with_reducible repeat' (first
      | assumption | apply quiet_id | apply quiet_foldl | apply quiet_foldr | apply quiet_ite | apply h3 | split | intro _ | dsimp only)

theorem quiet_setLatch {s₀ : State} {s : State} {a2 : Requester} {a3 : Word} (h1 : Quiet s₀ s) : Quiet s₀ (State.setLatch s a2 a3) := by
  unfold State.setLatch
  with_reducible repeat' (first
      | assumption | apply quiet_id | apply quiet_foldl | apply quiet_foldr | apply quiet_ite | split | intro _ | dsimp only
      | refine quiet_mk ?_)

theorem quiet_setShadow {s₀ : State} {s : State} {a2 : Option (List Nat)} (h1 : Quiet s₀ s) : Quiet s₀ (State.setShadow s a2) := by
  unfold State.setShadow
  with_reducible repeat' (first
      | assumption | apply quiet_setRegN | apply quiet_setRegF | apply quiet_modBoot | apply quiet_id | apply quiet_foldl
      | apply quiet_foldr | apply quiet_ite | split | intro _ | dsimp only)

theorem quiet_setXfer {s₀ : State} {s : State} {a2 : Nat} {a3 : Option Xfer} (h1 : Quiet s₀ s) : Quiet s₀ (State.setXfer s a2 a3) := by
  unfold State.setXfer
  with_reducible repeat' (first
      | assumption | apply quiet_setRegF | apply quiet_id | apply quiet_foldl | apply quiet_foldr | apply quiet_ite | split | intro _
      | dsimp only | refine quiet_mk ?_)

theorem quiet_sign {s₀ s : State} {r0} {t} (e : State.sign s = (r0, t)) (h1 : Quiet s₀ s) : Quiet s₀ t := by
  unfold State.sign at e
  injection e with _ e
  subst e
  exact quiet_mk h1

theorem quiet_sign' {s₀ s : State} (h1 : Quiet s₀ s) : Quiet s₀ (State.sign s).2 := quiet_sign (e := (Prod.eta _).symm) h1


theorem quiet_startOn {s₀ : State} {s : State} {a2 : Nat} {a3 : Cmd} {a4 : Nat} {a5 : List Nat} (h1 : Quiet s₀ s) : Quiet s₀ (State.startOn s a2 a3 a4 a5) := by
  unfold State.startOn
  with_reducible repeat' (first
      | assumption | apply quiet_modCmd | apply quiet_id | apply quiet_foldl | apply quiet_foldr | apply quiet_ite | split | intro _
      | dsimp only)

theorem quiet_wakeUnit {s₀ : State} {s : State} {a2 : UnitKind} {a3 : Nat} (h1 : Quiet s₀ s) : Quiet s₀ (State.wakeUnit s a2 a3) := by
  unfold State.wakeUnit
  with_reducible repeat' (first
      | assumption | apply quiet_setRegF | apply quiet_id | apply quiet_foldl | apply quiet_foldr | apply quiet_ite | split | intro _
      | dsimp only | refine quiet_mk ?_)

theorem quiet_startReady {s₀ : State} {s : State} {a2 : Nat} {a3 : Cmd} (h1 : Quiet s₀ s) : Quiet s₀ (State.startReady s a2 a3) := by
  unfold State.startReady
  with_reducible repeat' (first
      | assumption | apply quiet_wakeUnit | apply quiet_startOn | apply quiet_id | apply quiet_foldl | apply quiet_foldr
      | apply quiet_ite | split | intro _ | dsimp only)

theorem quiet_syncStep {s₀ : State} {s : State} {a2 : Nat} {a3 : Nat} {a4 : Nat} {a5 : Nat} {a6 : State → Cmd → State} (h1 : Quiet s₀ s) (h6 : ∀ y0 y1, Quiet s₀ y0 → Quiet s₀ (a6 y0 y1)) : Quiet s₀ (State.syncStep s a2 a3 a4 a5 a6) := by
  unfold State.syncStep
  with_reducible repeat' (first
      | assumption | apply quiet_id | apply quiet_foldl | apply quiet_foldr | apply quiet_ite | apply h6 | split | intro _ | dsimp only)

theorem quiet_takeAck {s₀ : State} {s : State} {a2 : Nat} {a3 : Flit} (h1 : Quiet s₀ s) : Quiet s₀ (State.takeAck s a2 a3) := by
  unfold State.takeAck
  with_reducible repeat' (first
      | assumption | apply quiet_modPort | apply quiet_id | apply quiet_foldl | apply quiet_foldr | apply quiet_ite | split | intro _
      | dsimp only)

theorem quiet_takeAddress {s₀ : State} {s : State} {a2 : BitVec 7} (h1 : Quiet s₀ s) : Quiet s₀ (State.takeAddress s a2) := by
  unfold State.takeAddress
  with_reducible repeat' (first
      | assumption | apply quiet_setRegF | apply quiet_id | apply quiet_foldl | apply quiet_foldr | apply quiet_ite | split | intro _
      | dsimp only)

theorem quiet_takeCredit {s₀ : State} {s : State} {a2 : Nat} {a3 : Nat} {a4 : Nat} (h1 : Quiet s₀ s) : Quiet s₀ (State.takeCredit s a2 a3 a4) := by
  unfold State.takeCredit
  with_reducible repeat' (first
      | assumption | apply quiet_modPort | apply quiet_id | apply quiet_foldl | apply quiet_foldr | apply quiet_ite | split | intro _
      | dsimp only)

theorem quiet_tallyEnd {s₀ : State} {s : State} {a2 : Nat} {a3 : Nat} {a4 : Nat} {a5 : Nat} (h1 : Quiet s₀ s) : Quiet s₀ (State.tallyEnd s a2 a3 a4 a5) := by
  unfold State.tallyEnd
  with_reducible repeat' (first
      | assumption | apply quiet_cause | apply quiet_modTally | apply quiet_id | apply quiet_foldl | apply quiet_foldr
      | apply quiet_ite | split | intro _ | dsimp only)

theorem quiet_winStep {s₀ : State} {s : State} {a2 : Nat} {a3 : Nat} {a4 : Nat} {a5 : Nat} {a6 : Cmd → Bool} {a7 : State → Cmd → State} {a8 : State → Cmd → VecIndex → State} {a9 : State → Cmd → VecIndex → State} (h1 : Quiet s₀ s) (h7 : ∀ y0 y1, Quiet s₀ y0 → Quiet s₀ (a7 y0 y1)) (h8 : ∀ y0 y1 y2, Quiet s₀ y0 → Quiet s₀ (a8 y0 y1 y2)) (h9 : ∀ y0 y1 y2, Quiet s₀ y0 → Quiet s₀ (a9 y0 y1 y2)) : Quiet s₀ (State.winStep s a2 a3 a4 a5 a6 a7 a8 a9) := by
  unfold State.winStep
  with_reducible repeat' (first
      | assumption | apply quiet_unitStep | apply quiet_endCmd | apply quiet_id | apply quiet_foldl | apply quiet_foldr
      | apply quiet_ite | apply h7 | apply h8 | apply h9 | split | intro _ | dsimp only)

theorem quiet_winnowerError {s₀ : State} {s : State} {a2 : Nat} {a3 : Cmd} (h1 : Quiet s₀ s) : Quiet s₀ (State.winnowerError s a2 a3) := by
  unfold State.winnowerError
  with_reducible repeat' (first
      | assumption | apply quiet_setAux | apply quiet_workDone | apply quiet_loftForget | apply quiet_cause | apply quiet_count
      | apply quiet_report | apply quiet_quarantine | apply quiet_endCmd | apply quiet_id | apply quiet_foldl | apply quiet_foldr
      | apply quiet_ite | split | intro _ | dsimp only)

theorem quiet_withFetchWord {s₀ : State} {s : State} {a2 : Nat} {a3 : Nat} (h1 : Quiet s₀ s) : Quiet s₀ (State.withFetchWord s a2 a3) := by
  unfold State.withFetchWord
  with_reducible repeat' (first
      | assumption | apply quiet_id | apply quiet_foldl | apply quiet_foldr | apply quiet_ite | split | intro _ | dsimp only
      | refine quiet_mk ?_)

theorem quiet_execSetTrial {s₀ : State} {a1 : Requester} {a2 : Word} {s : State} {t : State} (e : execSetTrial a1 a2 s = .next t) (h3 : Quiet s₀ s) : Quiet s₀ t := by
  unfold execSetTrial at e
  try dsimp only at e
  first
  | refine quiet_act e (by assumption) ?_
  | (injection e with e; subst e)
  | (revert e; repeat' (split); all_goals (intro e; injection e with e; subst e))
  all_goals with_reducible repeat' (first
      | assumption | apply quiet_access | apply quiet_store | apply quiet_setRegF | apply quiet_modBoot | apply quiet_id
      | apply quiet_foldl | apply quiet_foldr | apply quiet_ite | split | intro _ | dsimp only)

theorem quiet_execSwap {s₀ : State} {a1 : Requester} {a2 : Word} {s : State} {t : State} (e : execSwap a1 a2 s = .next t) (h3 : Quiet s₀ s) : Quiet s₀ t := by
  unfold execSwap at e
  try dsimp only at e
  first
  | refine quiet_act e (by assumption) ?_
  | (injection e with e; subst e)
  | (revert e; repeat' (split); all_goals (intro e; injection e with e; subst e))
  all_goals with_reducible repeat' (first
      | assumption | apply quiet_access | apply quiet_paramResult | apply quiet_setShadow | apply quiet_modBoot
      | apply quiet_setRegN | apply quiet_extend | apply quiet_cause | apply quiet_report | apply quiet_id | apply quiet_foldl
      | apply quiet_foldr | apply quiet_ite | split | intro _ | dsimp only)

theorem quiet_execMirrorRebuild {s₀ : State} {a1 : Requester} {a2 : Word} {s : State} {t : State} (e : execMirrorRebuild a1 a2 s = .next t) (h3 : Quiet s₀ s) : Quiet s₀ t := by
  unfold execMirrorRebuild at e
  try dsimp only at e
  first
  | refine quiet_act e (by assumption) ?_
  | (injection e with e; subst e)
  | (revert e; repeat' (split); all_goals (intro e; injection e with e; subst e))
  all_goals with_reducible repeat' (first
      | assumption | apply quiet_mirrorCmd | apply quiet_mirrorTo | apply quiet_count | apply quiet_id | apply quiet_foldl
      | apply quiet_foldr | apply quiet_ite | split | intro _ | dsimp only)

theorem quiet_execMirrorCommit {s₀ : State} {a1 : Requester} {a2 : Word} {s : State} {t : State} (e : execMirrorCommit a1 a2 s = .next t) (h3 : Quiet s₀ s) : Quiet s₀ t := by
  unfold execMirrorCommit at e
  try dsimp only at e
  first
  | refine quiet_act e (by assumption) ?_
  | (injection e with e; subst e)
  | (revert e; repeat' (split); all_goals (intro e; injection e with e; subst e))
  all_goals with_reducible repeat' (first
      | assumption | apply quiet_mirrorCmd | apply quiet_modMirror | apply quiet_id | apply quiet_foldl | apply quiet_foldr
      | apply quiet_ite | split | intro _ | dsimp only)

theorem quiet_writeUnquarantine {s₀ : State} {s : State} {a2 : Requester} {a3 : UnitKind} {a4 : Nat} {a5 : Word} (h1 : Quiet s₀ s) : Quiet s₀ (State.writeUnquarantine s a2 a3 a4 a5) := by
  unfold State.writeUnquarantine
  with_reducible repeat' (first
      | assumption | apply quiet_access | apply quiet_store | apply quiet_unquarantine | apply quiet_id | apply quiet_foldl
      | apply quiet_foldr | apply quiet_ite | split | intro _ | dsimp only)

theorem quiet_execWinUnquarantine {s₀ : State} {a1 : Requester} {a2 : Fin 16} {a3 : Word} {s : State} {t : State} (e : execWinUnquarantine a1 a2 a3 s = .next t) (h4 : Quiet s₀ s) : Quiet s₀ t := by
  unfold execWinUnquarantine at e
  try dsimp only at e
  first
  | refine quiet_act e (by assumption) ?_
  | (injection e with e; subst e)
  | (revert e; repeat' (split); all_goals (intro e; injection e with e; subst e))
  all_goals with_reducible repeat' (first
      | assumption | apply quiet_writeUnquarantine | apply quiet_id | apply quiet_foldl | apply quiet_foldr | apply quiet_ite | split
      | intro _ | dsimp only)

theorem quiet_writeQuarantine {s₀ : State} {s : State} {a2 : Requester} {a3 : UnitKind} {a4 : Nat} {a5 : Word} (h1 : Quiet s₀ s) : Quiet s₀ (State.writeQuarantine s a2 a3 a4 a5) := by
  unfold State.writeQuarantine
  with_reducible repeat' (first
      | assumption | apply quiet_access | apply quiet_store | apply quiet_id | apply quiet_foldl | apply quiet_foldr | apply quiet_ite
      | split | intro _ | dsimp only | refine quiet_mk ?_)

theorem quiet_execWinQuarantine {s₀ : State} {a1 : Requester} {a2 : Fin 16} {a3 : Word} {s : State} {t : State} (e : execWinQuarantine a1 a2 a3 s = .next t) (h4 : Quiet s₀ s) : Quiet s₀ t := by
  unfold execWinQuarantine at e
  try dsimp only at e
  first
  | refine quiet_act e (by assumption) ?_
  | (injection e with e; subst e)
  | (revert e; repeat' (split); all_goals (intro e; injection e with e; subst e))
  all_goals with_reducible repeat' (first
      | assumption | apply quiet_writeQuarantine | apply quiet_id | apply quiet_foldl | apply quiet_foldr | apply quiet_ite | split
      | intro _ | dsimp only)

theorem quiet_execRowUnquarantine {s₀ : State} {a1 : Requester} {a2 : Fin 16} {a3 : Word} {s : State} {t : State} (e : execRowUnquarantine a1 a2 a3 s = .next t) (h4 : Quiet s₀ s) : Quiet s₀ t := by
  unfold execRowUnquarantine at e
  try dsimp only at e
  first
  | refine quiet_act e (by assumption) ?_
  | (injection e with e; subst e)
  | (revert e; repeat' (split); all_goals (intro e; injection e with e; subst e))
  all_goals with_reducible repeat' (first
      | assumption | apply quiet_writeUnquarantine | apply quiet_id | apply quiet_foldl | apply quiet_foldr | apply quiet_ite | split
      | intro _ | dsimp only)

theorem quiet_execRowQuarantine {s₀ : State} {a1 : Requester} {a2 : Fin 16} {a3 : Word} {s : State} {t : State} (e : execRowQuarantine a1 a2 a3 s = .next t) (h4 : Quiet s₀ s) : Quiet s₀ t := by
  unfold execRowQuarantine at e
  try dsimp only at e
  first
  | refine quiet_act e (by assumption) ?_
  | (injection e with e; subst e)
  | (revert e; repeat' (split); all_goals (intro e; injection e with e; subst e))
  all_goals with_reducible repeat' (first
      | assumption | apply quiet_writeQuarantine | apply quiet_id | apply quiet_foldl | apply quiet_foldr | apply quiet_ite | split
      | intro _ | dsimp only)

theorem quiet_execMeUnquarantine {s₀ : State} {a1 : Requester} {a2 : Fin 32} {a3 : Word} {s : State} {t : State} (e : execMeUnquarantine a1 a2 a3 s = .next t) (h4 : Quiet s₀ s) : Quiet s₀ t := by
  unfold execMeUnquarantine at e
  try dsimp only at e
  first
  | refine quiet_act e (by assumption) ?_
  | (injection e with e; subst e)
  | (revert e; repeat' (split); all_goals (intro e; injection e with e; subst e))
  all_goals with_reducible repeat' (first
      | assumption | apply quiet_writeUnquarantine | apply quiet_id | apply quiet_foldl | apply quiet_foldr | apply quiet_ite | split
      | intro _ | dsimp only)

theorem quiet_execMeQuarantine {s₀ : State} {a1 : Requester} {a2 : Fin 32} {a3 : Word} {s : State} {t : State} (e : execMeQuarantine a1 a2 a3 s = .next t) (h4 : Quiet s₀ s) : Quiet s₀ t := by
  unfold execMeQuarantine at e
  try dsimp only at e
  first
  | refine quiet_act e (by assumption) ?_
  | (injection e with e; subst e)
  | (revert e; repeat' (split); all_goals (intro e; injection e with e; subst e))
  all_goals with_reducible repeat' (first
      | assumption | apply quiet_writeQuarantine | apply quiet_id | apply quiet_foldl | apply quiet_foldr | apply quiet_ite | split
      | intro _ | dsimp only)

theorem quiet_execGcUnquarantine {s₀ : State} {a1 : Requester} {a2 : Fin 64} {a3 : Word} {s : State} {t : State} (e : execGcUnquarantine a1 a2 a3 s = .next t) (h4 : Quiet s₀ s) : Quiet s₀ t := by
  unfold execGcUnquarantine at e
  try dsimp only at e
  first
  | refine quiet_act e (by assumption) ?_
  | (injection e with e; subst e)
  | (revert e; repeat' (split); all_goals (intro e; injection e with e; subst e))
  all_goals with_reducible repeat' (first
      | assumption | apply quiet_writeUnquarantine | apply quiet_id | apply quiet_foldl | apply quiet_foldr | apply quiet_ite | split
      | intro _ | dsimp only)

theorem quiet_execGcQuarantine {s₀ : State} {a1 : Requester} {a2 : Fin 64} {a3 : Word} {s : State} {t : State} (e : execGcQuarantine a1 a2 a3 s = .next t) (h4 : Quiet s₀ s) : Quiet s₀ t := by
  unfold execGcQuarantine at e
  try dsimp only at e
  first
  | refine quiet_act e (by assumption) ?_
  | (injection e with e; subst e)
  | (revert e; repeat' (split); all_goals (intro e; injection e with e; subst e))
  all_goals with_reducible repeat' (first
      | assumption | apply quiet_writeQuarantine | apply quiet_id | apply quiet_foldl | apply quiet_foldr | apply quiet_ite | split
      | intro _ | dsimp only)

theorem quiet_execTallyScan {s₀ : State} {a1 : Requester} {a2 : Fin 6} {a3 : Word} {s : State} {t : State} (e : execTallyScan a1 a2 a3 s = .next t) (h4 : Quiet s₀ s) : Quiet s₀ t := by
  unfold execTallyScan at e
  try dsimp only at e
  first
  | refine quiet_act e (by assumption) ?_
  | (injection e with e; subst e)
  | (revert e; repeat' (split); all_goals (intro e; injection e with e; subst e))
  all_goals with_reducible repeat' (first
      | assumption | apply quiet_access | apply quiet_tallyWrite | apply quiet_modTally | apply quiet_id | apply quiet_foldl
      | apply quiet_foldr | apply quiet_ite | split | intro _ | dsimp only)

theorem quiet_execTallyStart {s₀ : State} {a1 : Requester} {a2 : Fin 6} {a3 : Word} {s : State} {t : State} (e : execTallyStart a1 a2 a3 s = .next t) (h4 : Quiet s₀ s) : Quiet s₀ t := by
  unfold execTallyStart at e
  try dsimp only at e
  first
  | refine quiet_act e (by assumption) ?_
  | (injection e with e; subst e)
  | (revert e; repeat' (split); all_goals (intro e; injection e with e; subst e))
  all_goals with_reducible repeat' (first
      | assumption | apply quiet_access | apply quiet_tallyWrite | apply quiet_modTally | apply quiet_id | apply quiet_foldl
      | apply quiet_foldr | apply quiet_ite | split | intro _ | dsimp only)

theorem quiet_execTallyStop {s₀ : State} {a1 : Requester} {a2 : Fin 6} {a3 : Word} {s : State} {t : State} (e : execTallyStop a1 a2 a3 s = .next t) (h4 : Quiet s₀ s) : Quiet s₀ t := by
  unfold execTallyStop at e
  try dsimp only at e
  first
  | refine quiet_act e (by assumption) ?_
  | (injection e with e; subst e)
  | (revert e; repeat' (split); all_goals (intro e; injection e with e; subst e))
  all_goals with_reducible repeat' (first
      | assumption | apply quiet_access | apply quiet_tallyWrite | apply quiet_tallyEnd | apply quiet_id | apply quiet_foldl
      | apply quiet_foldr | apply quiet_ite | split | intro _ | dsimp only)

theorem quiet_execTallyClear {s₀ : State} {a1 : Requester} {a2 : Fin 6} {a3 : Word} {s : State} {t : State} (e : execTallyClear a1 a2 a3 s = .next t) (h4 : Quiet s₀ s) : Quiet s₀ t := by
  unfold execTallyClear at e
  try dsimp only at e
  first
  | refine quiet_act e (by assumption) ?_
  | (injection e with e; subst e)
  | (revert e; repeat' (split); all_goals (intro e; injection e with e; subst e))
  all_goals with_reducible repeat' (first
      | assumption | apply quiet_access | apply quiet_tallyWrite | apply quiet_modTally | apply quiet_id | apply quiet_foldl
      | apply quiet_foldr | apply quiet_ite | split | intro _ | dsimp only)

theorem quiet_execLoftChannelReset {s₀ : State} {a1 : Requester} {a2 : Fin 18} {a3 : Word} {s : State} {t : State} (e : execLoftChannelReset a1 a2 a3 s = .next t) (h4 : Quiet s₀ s) : Quiet s₀ t := by
  unfold execLoftChannelReset at e
  try dsimp only at e
  first
  | refine quiet_act e (by assumption) ?_
  | (injection e with e; subst e)
  | (revert e; repeat' (split); all_goals (intro e; injection e with e; subst e))
  all_goals with_reducible repeat' (first
      | assumption | apply quiet_access | apply quiet_store | apply quiet_setRegF | apply quiet_id | apply quiet_foldl
      | apply quiet_foldr | apply quiet_ite | split | intro _ | dsimp only)

theorem quiet_execLoftChannelRetire {s₀ : State} {a1 : Requester} {a2 : Fin 18} {a3 : Word} {s : State} {t : State} (e : execLoftChannelRetire a1 a2 a3 s = .next t) (h4 : Quiet s₀ s) : Quiet s₀ t := by
  unfold execLoftChannelRetire at e
  try dsimp only at e
  first
  | refine quiet_act e (by assumption) ?_
  | (injection e with e; subst e)
  | (revert e; repeat' (split); all_goals (intro e; injection e with e; subst e))
  all_goals with_reducible repeat' (first
      | assumption | apply quiet_access | apply quiet_channelDead | apply quiet_store | apply quiet_id | apply quiet_foldl
      | apply quiet_foldr | apply quiet_ite | split | intro _ | dsimp only)

theorem quiet_execSclClear {s₀ : State} {a1 : Requester} {a2 : Fin 10} {a3 : Word} {s : State} {t : State} (e : execSclClear a1 a2 a3 s = .next t) (h4 : Quiet s₀ s) : Quiet s₀ t := by
  unfold execSclClear at e
  try dsimp only at e
  first
  | refine quiet_act e (by assumption) ?_
  | (injection e with e; subst e)
  | (revert e; repeat' (split); all_goals (intro e; injection e with e; subst e))
  all_goals with_reducible repeat' (first
      | assumption | apply quiet_access | apply quiet_sclClear | apply quiet_store | apply quiet_id | apply quiet_foldl
      | apply quiet_foldr | apply quiet_ite | split | intro _ | dsimp only)

theorem quiet_execClearAll {s₀ : State} {a1 : Requester} {a2 : Word} {s : State} {t : State} (e : execClearAll a1 a2 s = .next t) (h3 : Quiet s₀ s) : Quiet s₀ t := by
  unfold execClearAll at e
  try dsimp only at e
  first
  | refine quiet_act e (by assumption) ?_
  | (injection e with e; subst e)
  | (revert e; repeat' (split); all_goals (intro e; injection e with e; subst e))
  all_goals with_reducible repeat' (first
      | assumption | apply quiet_access | apply quiet_sclClear | apply quiet_id | apply quiet_foldl | apply quiet_foldr
      | apply quiet_ite | split | intro _ | dsimp only)

theorem quiet_execStopAll {s₀ : State} {a1 : Requester} {a2 : Word} {s : State} {t : State} (e : execStopAll a1 a2 s = .next t) (h3 : Quiet s₀ s) : Quiet s₀ t := by
  unfold execStopAll at e
  try dsimp only at e
  first
  | refine quiet_act e (by assumption) ?_
  | (injection e with e; subst e)
  | (revert e; repeat' (split); all_goals (intro e; injection e with e; subst e))
  all_goals with_reducible repeat' (first
      | assumption | apply quiet_access | apply quiet_sclRunAll | apply quiet_id | apply quiet_foldl | apply quiet_foldr
      | apply quiet_ite | split | intro _ | dsimp only)

theorem quiet_execStartAll {s₀ : State} {a1 : Requester} {a2 : Word} {s : State} {t : State} (e : execStartAll a1 a2 s = .next t) (h3 : Quiet s₀ s) : Quiet s₀ t := by
  unfold execStartAll at e
  try dsimp only at e
  first
  | refine quiet_act e (by assumption) ?_
  | (injection e with e; subst e)
  | (revert e; repeat' (split); all_goals (intro e; injection e with e; subst e))
  all_goals with_reducible repeat' (first
      | assumption | apply quiet_access | apply quiet_sclRunAll | apply quiet_id | apply quiet_foldl | apply quiet_foldr
      | apply quiet_ite | split | intro _ | dsimp only)

theorem quiet_execSclEvselWrite {s₀ : State} {a1 : Requester} {a2 : Fin 10} {a3 : Fin 8} {a4 : Word} {s : State} {t : State} (e : execSclEvselWrite a1 a2 a3 a4 s = .next t) (h5 : Quiet s₀ s) : Quiet s₀ t := by
  unfold execSclEvselWrite at e
  try dsimp only at e
  first
  | refine quiet_act e (by assumption) ?_
  | (injection e with e; subst e)
  | (revert e; repeat' (split); all_goals (intro e; injection e with e; subst e))
  all_goals with_reducible repeat' (first
      | assumption | apply quiet_access | apply quiet_modScaler | apply quiet_store | apply quiet_id | apply quiet_foldl
      | apply quiet_foldr | apply quiet_ite | split | intro _ | dsimp only)

theorem quiet_execSamplingEnable {s₀ : State} {a1 : Requester} {a2 : Fin 4} {a3 : Word} {s : State} {t : State} (e : execSamplingEnable a1 a2 a3 s = .next t) (h4 : Quiet s₀ s) : Quiet s₀ t := by
  unfold execSamplingEnable at e
  try dsimp only at e
  first
  | refine quiet_act e (by assumption) ?_
  | (injection e with e; subst e)
  | (revert e; repeat' (split); all_goals (intro e; injection e with e; subst e))
  all_goals with_reducible repeat' (first
      | assumption | apply quiet_access | apply quiet_store | apply quiet_modScaler | apply quiet_id | apply quiet_foldl
      | apply quiet_foldr | apply quiet_ite | split | intro _ | dsimp only)

theorem quiet_execSclSmpPop {s₀ : State} {a1 : Requester} {a2 : Fin 4} {a3 : Word} {s : State} {t : State} (e : execSclSmpPop a1 a2 a3 s = .next t) (h4 : Quiet s₀ s) : Quiet s₀ t := by
  unfold execSclSmpPop at e
  try dsimp only at e
  first
  | refine quiet_act e (by assumption) ?_
  | (injection e with e; subst e)
  | (revert e; repeat' (split); all_goals (intro e; injection e with e; subst e))
  all_goals with_reducible repeat' (first
      | assumption | apply quiet_access | apply quiet_modScaler | apply quiet_id | apply quiet_foldl | apply quiet_foldr
      | apply quiet_ite | split | intro _ | dsimp only)

theorem quiet_writeLow {s₀ : State} {s : State} {a2 : Requester} {a3 : Nat} {a4 : Word} (h1 : Quiet s₀ s) : Quiet s₀ (State.writeLow s a2 a3 a4) := by
  unfold State.writeLow
  with_reducible repeat' (first
      | assumption | apply quiet_setHeld | apply quiet_id | apply quiet_foldl | apply quiet_foldr | apply quiet_ite | split | intro _
      | dsimp only)

theorem quiet_execDirPeek {s₀ : State} {a1 : Requester} {a2 : Fin 2} {a3 : Word} {s : State} {t : State} (e : execDirPeek a1 a2 a3 s = .next t) (h4 : Quiet s₀ s) : Quiet s₀ t := by
  unfold execDirPeek at e
  try dsimp only at e
  first
  | refine quiet_act e (by assumption) ?_
  | (injection e with e; subst e)
  | (revert e; repeat' (split); all_goals (intro e; injection e with e; subst e))
  all_goals with_reducible repeat' (first
      | assumption | apply quiet_pairHigh | apply quiet_setRegN | apply quiet_id | apply quiet_foldl | apply quiet_foldr
      | apply quiet_ite | split | intro _ | dsimp only)

theorem quiet_execSemValWrite {s₀ : State} {a1 : Requester} {a2 : Fin 32} {a3 : Word} {a4 : Fin 3} {s : State} {t : State} (e : execSemValWrite a1 a2 a3 a4 s = .next t) (h5 : Quiet s₀ s) : Quiet s₀ t := by
  unfold execSemValWrite at e
  try dsimp only at e
  first
  | refine quiet_act e (by assumption) ?_
  | (injection e with e; subst e)
  | (revert e; repeat' (split); all_goals (intro e; injection e with e; subst e))
  all_goals with_reducible repeat' (first
      | assumption | apply quiet_access | apply quiet_violateReg | apply quiet_semFind | refine quiet_semSet (by assumption) ?_
      | apply quiet_semSet' | apply quiet_setHeld | apply quiet_id | apply quiet_foldl | apply quiet_foldr | apply quiet_ite | split
      | intro _ | dsimp only)

theorem quiet_writeHigh {s₀ : State} {s : State} {a2 : Requester} {a3 : Nat} {a4 : Word} (h1 : Quiet s₀ s) : Quiet s₀ (State.writeHigh s a2 a3 a4) := by
  unfold State.writeHigh
  with_reducible repeat' (first
      | assumption | apply quiet_effect | refine quiet_execDirPeek (by assumption) ?_ | apply quiet_pairHigh
      | refine quiet_execSemValWrite (by assumption) ?_ | apply quiet_setHeld | apply quiet_writeTly | apply quiet_id
      | apply quiet_foldl | apply quiet_foldr | apply quiet_ite | split | intro _ | dsimp only)

theorem quiet_writeCxl {s₀ : State} {s : State} {a2 : Nat} {a3 : CxlPart} {a4 : Nat} {a5 : Word} (h1 : Quiet s₀ s) : Quiet s₀ (State.writeCxl s a2 a3 a4 a5) := by
  induction a4 generalizing s a2 a3 a5 h1 with
  | zero =>
    unfold State.writeCxl
    with_reducible repeat' (first
      | assumption | apply quiet_sendPending | apply quiet_modLd | apply quiet_id | apply quiet_foldl | apply quiet_foldr
      | apply quiet_ite | split | intro _ | dsimp only)
  | succ _ ih =>
    unfold State.writeCxl
    with_reducible repeat' (first
      | assumption | apply quiet_sendPending | apply quiet_modLd | apply quiet_id | apply quiet_foldl | apply quiet_foldr
      | apply quiet_ite | split | intro _ | dsimp only | apply ih)

theorem quiet_Work_loft {s₀ : State} {a1 : Nat} {a2 : Cmd} {a3 a4 a5 : Nat} : QuietWork s₀ (Work.loft a1 a2 a3 a4 a5) := by
  induction a3 generalizing a4 a5 with
  | zero => unfold Work.loft; exact quietw_pure _
  | succ n ih =>
    unfold Work.loft
    refine quietw_ite (fun _ => quietw_pure _) (fun _ => quietw_bind ?_ (fun x => quietw_bind ih (fun _ => ?_)))
    · intro s h
      dsimp only
      cases s.fab.arrivals.find? (fun x => decide (x.waiter = Waiter.cmd a1 a2.chute a2.seq) && decide (x.addr = loftReadKey (a4 / loftBytes * loftBytes))) with
      | some x => exact h
      | none =>
        dsimp only
        cases s.loftBlock a1 (a4 / loftBytes * loftBytes) with
        | none => exact h
        | some b => intro y hy; exact quiet_loftAsk hy
    · split
      · exact quietw_bind (quiet_Work_act (fun _ h => quiet_violateMem h)) (fun _ => quietw_pure _)
      · exact quietw_pure _


theorem quiet_Work_modIndex {s₀ : State} {a1 : Nat} {a2 : Cmd} {a3 : VecIndex → VecIndex} : QuietWork s₀ (Work.modIndex a1 a2 a3) := by
  induction a1 generalizing a2 a3 with
  | zero =>
    unfold Work.modIndex
    with_reducible repeat' (first
      | assumption | apply quietw_bind | apply quietw_pure | apply quietw_mapM | apply quietw_forM | apply quietw_ite | apply quiet_id
      | apply quiet_Work_act | apply quiet_modIndex | apply quiet_id | apply quiet_foldl | apply quiet_foldr | apply quiet_ite | split
      | intro _ | dsimp only)
  | succ _ ih =>
    unfold Work.modIndex
    with_reducible repeat' (first
      | assumption | apply quietw_bind | apply quietw_pure | apply quietw_mapM | apply quietw_forM | apply quietw_ite | apply quiet_id
      | apply quiet_Work_act | apply quiet_modIndex | apply quiet_id | apply quiet_foldl | apply quiet_foldr | apply quiet_ite | split
      | intro _ | dsimp only | apply ih)

theorem quiet_Work_winStop {s₀ : State} {a1 : Nat} {a2 : Cmd} {a3 : Nat} {a4 : Nat} : QuietWork s₀ (Work.winStop a1 a2 a3 a4) := by
  induction a4 generalizing a1 a2 a3 with
  | zero =>
    unfold Work.winStop
    with_reducible repeat' (first
      | assumption | apply quietw_bind | apply quietw_pure | apply quietw_mapM | apply quietw_forM | apply quietw_ite | apply quiet_id
      | apply quiet_Work_stop | apply quiet_winStop | apply quiet_pcause | apply quiet_id | apply quiet_foldl | apply quiet_foldr
      | apply quiet_ite | split | intro _ | dsimp only)
  | succ _ ih =>
    unfold Work.winStop
    with_reducible repeat' (first
      | assumption | apply quietw_bind | apply quietw_pure | apply quietw_mapM | apply quietw_forM | apply quietw_ite | apply quiet_id
      | apply quiet_Work_stop | apply quiet_winStop | apply quiet_pcause | apply quiet_id | apply quiet_foldl | apply quiet_foldr
      | apply quiet_ite | split | intro _ | dsimp only | apply ih)

theorem quiet_execRegisterPairLowRead {s₀ : State} {a1 : Requester} {a2 : Word} {s : State} {t : State} (e : execRegisterPairLowRead a1 a2 s = .next t) (h3 : Quiet s₀ s) : Quiet s₀ t := by
  unfold execRegisterPairLowRead at e
  try dsimp only at e
  first
  | refine quiet_act e (by assumption) ?_
  | (injection e with e; subst e)
  | (revert e; repeat' (split); all_goals (intro e; injection e with e; subst e))
  all_goals with_reducible repeat' (first
      | assumption | refine quiet_readCxl (by assumption) ?_ | apply quiet_readCxl' | apply quiet_emit
      | refine quiet_readAt (by assumption) ?_ | apply quiet_readAt' | apply quiet_setLatch | apply quiet_violateReg
      | apply quiet_id | apply quiet_foldl | apply quiet_foldr | apply quiet_ite | split | intro _ | dsimp only)

theorem quiet_execHoldLimitExpire {s₀ : State} {a1 : Fin 32} {a2 : Fin 66} {a3 : Nat} {s : State} {t : State} (e : execHoldLimitExpire a1 a2 a3 s = .next t) (h4 : Quiet s₀ s) : Quiet s₀ t := by
  unfold execHoldLimitExpire at e
  try dsimp only at e
  first
  | refine quiet_act e (by assumption) ?_
  | (injection e with e; subst e)
  | (revert e; repeat' (split); all_goals (intro e; injection e with e; subst e))
  all_goals with_reducible repeat' (first
      | assumption | apply quiet_pageCause | apply quiet_id | apply quiet_foldl | apply quiet_foldr | apply quiet_ite | split | intro _
      | dsimp only)

theorem quiet_execFifoPacketReceive {s₀ : State} {a1 : Fin 10} {a2 : Word} {a3 : Word} {a4 : Fin 64} {a5 : Word} {s : State} {t : State} (e : execFifoPacketReceive a1 a2 a3 a4 a5 s = .next t) (h6 : Quiet s₀ s) : Quiet s₀ t := by
  unfold execFifoPacketReceive at e
  try dsimp only at e
  first
  | refine quiet_act e (by assumption) ?_
  | (injection e with e; subst e)
  | (revert e; repeat' (split); all_goals (intro e; injection e with e; subst e))
  all_goals with_reducible repeat' (first
      | assumption | apply quiet_count | apply quiet_id | apply quiet_foldl | apply quiet_foldr | apply quiet_ite | split | intro _
      | dsimp only | refine quiet_mk ?_)

theorem quiet_execCommandStart {s₀ : State} {a1 : Fin 32} {a2 : Fin 64} {a3 : Word} {a4 : Fin 3} {s : State} {t : State} (e : execCommandStart a1 a2 a3 s a4 = .next t) (h5 : Quiet s₀ s) : Quiet s₀ t := by
  unfold execCommandStart at e
  try dsimp only at e
  first
  | refine quiet_act e (by assumption) ?_
  | (injection e with e; subst e)
  | (revert e; repeat' (split); all_goals (intro e; injection e with e; subst e))
  all_goals with_reducible repeat' (first
      | assumption | apply quiet_uncontained | apply quiet_dropCmd | apply quiet_endCmd | apply quiet_startReady | apply quiet_id
      | apply quiet_foldl | apply quiet_foldr | apply quiet_ite | split | intro _ | dsimp only)

theorem quiet_execDeadlineExpire {s₀ : State} {a1 : Fin 32} {a2 : Fin 64} {a3 : Word} {s : State} {t : State} (e : execDeadlineExpire a1 a2 a3 s = .next t) (h4 : Quiet s₀ s) : Quiet s₀ t := by
  unfold execDeadlineExpire at e
  try dsimp only at e
  first
  | refine quiet_act e (by assumption) ?_
  | (injection e with e; subst e)
  | (revert e; repeat' (split); all_goals (intro e; injection e with e; subst e))
  all_goals with_reducible repeat' (first
      | assumption | apply quiet_endCmd | apply quiet_id | apply quiet_foldl | apply quiet_foldr | apply quiet_ite | split | intro _
      | dsimp only)

theorem quiet_execAbortCommand {s₀ : State} {a1 : Fin 32} {a2 : Fin 64} {a3 : Word} {s : State} {t : State} (e : execAbortCommand a1 a2 a3 s = .next t) (h4 : Quiet s₀ s) : Quiet s₀ t := by
  unfold execAbortCommand at e
  try dsimp only at e
  first
  | refine quiet_act e (by assumption) ?_
  | (injection e with e; subst e)
  | (revert e; repeat' (split); all_goals (intro e; injection e with e; subst e))
  all_goals with_reducible repeat' (first
      | assumption | apply quiet_abortTarget | apply quiet_endControl | apply quiet_modRing | apply quiet_id | apply quiet_foldl
      | apply quiet_foldr | apply quiet_ite | split | intro _ | dsimp only)

theorem quiet_execResumeFault {s₀ : State} {a1 : Fin 32} {a2 : Fin 64} {a3 : Word} {s : State} {t : State} (e : execResumeFault a1 a2 a3 s = .next t) (h4 : Quiet s₀ s) : Quiet s₀ t := by
  unfold execResumeFault at e
  try dsimp only at e
  first
  | refine quiet_act e (by assumption) ?_
  | (injection e with e; subst e)
  | (revert e; repeat' (split); all_goals (intro e; injection e with e; subst e))
  all_goals with_reducible repeat' (first
      | assumption | apply quiet_endControl | apply quiet_resumeOne | apply quiet_id | apply quiet_foldl | apply quiet_foldr
      | apply quiet_ite | split | intro _ | dsimp only)

theorem quiet_execMeProgram {s₀ : State} {a1 : Fin 32} {a2 : Fin 64} {a3 : Word} {s : State} {t : State} (e : execMeProgram a1 a2 a3 s = .next t) (h4 : Quiet s₀ s) : Quiet s₀ t := by
  unfold execMeProgram at e
  try dsimp only at e
  first
  | refine quiet_act e (by assumption) ?_
  | (injection e with e; subst e)
  | (revert e; repeat' (split); all_goals (intro e; injection e with e; subst e))
  all_goals with_reducible repeat' (first
      | assumption | apply quiet_meEnd | apply quiet_endCmd | apply quiet_setRegF | apply quiet_setAux | apply quiet_modEngine
      | apply quiet_id | apply quiet_foldl | apply quiet_foldr | apply quiet_ite | split | intro _ | dsimp only)

theorem quiet_execMma {s₀ : State} {a1 : Fin 32} {a2 : List Attempt} {s : State} {t : State} (e : execMma a1 a2 s = .next t) (h3 : Quiet s₀ s) : Quiet s₀ t := by
  unfold execMma at e
  try dsimp only at e
  first
  | refine quiet_act e (by assumption) ?_
  | (injection e with e; subst e)
  | (revert e; repeat' (split); all_goals (intro e; injection e with e; subst e))
  all_goals with_reducible repeat' (first
      | assumption | apply quiet_meStep | apply quiet_runSlot | apply quiet_id | apply quiet_foldl | apply quiet_foldr
      | apply quiet_ite | split | intro _ | dsimp only)

theorem quiet_execQuant {s₀ : State} {a1 : Fin 32} {a2 : List Attempt} {s : State} {t : State} (e : execQuant a1 a2 s = .next t) (h3 : Quiet s₀ s) : Quiet s₀ t := by
  unfold execQuant at e
  try dsimp only at e
  first
  | refine quiet_act e (by assumption) ?_
  | (injection e with e; subst e)
  | (revert e; repeat' (split); all_goals (intro e; injection e with e; subst e))
  all_goals with_reducible repeat' (first
      | assumption | apply quiet_meStep | apply quiet_runSlot | apply quiet_id | apply quiet_foldl | apply quiet_foldr
      | apply quiet_ite | split | intro _ | dsimp only)

theorem quiet_execMeSemWait {s₀ : State} {a1 : Fin 32} {a2 : Fin 3} {s : State} {t : State} (e : execMeSemWait a1 a2 s = .next t) (h3 : Quiet s₀ s) : Quiet s₀ t := by
  unfold execMeSemWait at e
  try dsimp only at e
  first
  | refine quiet_act e (by assumption) ?_
  | (injection e with e; subst e)
  | (revert e; repeat' (split); all_goals (intro e; injection e with e; subst e))
  all_goals with_reducible repeat' (first
      | assumption | apply quiet_meStep | apply quiet_meEnd | apply quiet_semWait | apply quiet_semFind | apply quiet_id
      | apply quiet_foldl | apply quiet_foldr | apply quiet_ite | split | intro _ | dsimp only)

theorem quiet_execMeSemSignal {s₀ : State} {a1 : Fin 32} {a2 : Fin 3} {s : State} {t : State} (e : execMeSemSignal a1 a2 s = .next t) (h3 : Quiet s₀ s) : Quiet s₀ t := by
  unfold execMeSemSignal at e
  try dsimp only at e
  first
  | refine quiet_act e (by assumption) ?_
  | (injection e with e; subst e)
  | (revert e; repeat' (split); all_goals (intro e; injection e with e; subst e))
  all_goals with_reducible repeat' (first
      | assumption | apply quiet_meStep | apply quiet_meEnd | apply quiet_semFind | refine quiet_semAdd (by assumption) ?_
      | apply quiet_semAdd' | apply quiet_meDone | apply quiet_id | apply quiet_foldl | apply quiet_foldr | apply quiet_ite | split
      | intro _ | dsimp only)

theorem quiet_execEcall {s₀ : State} {a1 : Fin 64} {s : State} {t : State} (e : execEcall a1 s = .next t) (h2 : Quiet s₀ s) : Quiet s₀ t := by
  unfold execEcall at e
  try dsimp only at e
  first
  | refine quiet_act e (by assumption) ?_
  | (injection e with e; subst e)
  | (revert e; repeat' (split); all_goals (intro e; injection e with e; subst e))
  all_goals with_reducible repeat' (first
      | assumption | apply quiet_gcInstr | apply quiet_gcEnd | apply quiet_endRun | apply quiet_setAux | apply quiet_id
      | apply quiet_foldl | apply quiet_foldr | apply quiet_ite | split | intro _ | dsimp only)

theorem quiet_execEbreak {s₀ : State} {a1 : Fin 64} {s : State} {t : State} (e : execEbreak a1 s = .next t) (h2 : Quiet s₀ s) : Quiet s₀ t := by
  unfold execEbreak at e
  try dsimp only at e
  first
  | refine quiet_act e (by assumption) ?_
  | (injection e with e; subst e)
  | (revert e; repeat' (split); all_goals (intro e; injection e with e; subst e))
  all_goals with_reducible repeat' (first
      | assumption | apply quiet_gcInstr | apply quiet_gcEnd | apply quiet_id | apply quiet_foldl | apply quiet_foldr | apply quiet_ite
      | split | intro _ | dsimp only)

theorem quiet_execIllegalInstruction {s₀ : State} {a1 : Fin 64} {s : State} {t : State} (e : execIllegalInstruction a1 s = .next t) (h2 : Quiet s₀ s) : Quiet s₀ t := by
  unfold execIllegalInstruction at e
  try dsimp only at e
  first
  | refine quiet_act e (by assumption) ?_
  | (injection e with e; subst e)
  | (revert e; repeat' (split); all_goals (intro e; injection e with e; subst e))
  all_goals with_reducible repeat' (first
      | assumption | apply quiet_gcInstr | apply quiet_gcEnd | apply quiet_id | apply quiet_foldl | apply quiet_foldr | apply quiet_ite
      | split | intro _ | dsimp only)

theorem quiet_execFence {s₀ : State} {a1 : Fin 64} {s : State} {t : State} (e : execFence a1 s = .next t) (h2 : Quiet s₀ s) : Quiet s₀ t := by
  unfold execFence at e
  try dsimp only at e
  first
  | refine quiet_act e (by assumption) ?_
  | (injection e with e; subst e)
  | (revert e; repeat' (split); all_goals (intro e; injection e with e; subst e))
  all_goals with_reducible repeat' (first
      | assumption | apply quiet_gcInstr | apply quiet_retire | apply quiet_id | apply quiet_foldl | apply quiet_foldr
      | apply quiet_ite | split | intro _ | dsimp only)

theorem quiet_execFenceI {s₀ : State} {a1 : Fin 64} {s : State} {t : State} (e : execFenceI a1 s = .next t) (h2 : Quiet s₀ s) : Quiet s₀ t := by
  unfold execFenceI at e
  try dsimp only at e
  first
  | refine quiet_act e (by assumption) ?_
  | (injection e with e; subst e)
  | (revert e; repeat' (split); all_goals (intro e; injection e with e; subst e))
  all_goals with_reducible repeat' (first
      | assumption | apply quiet_gcInstr | apply quiet_retire | apply quiet_modCore | apply quiet_id | apply quiet_foldl
      | apply quiet_foldr | apply quiet_ite | split | intro _ | dsimp only)

theorem quiet_execGcBxw {s₀ : State} {a1 : Fin 64} {s : State} {t : State} (e : execGcBxw a1 s = .next t) (h2 : Quiet s₀ s) : Quiet s₀ t := by
  unfold execGcBxw at e
  try dsimp only at e
  first
  | refine quiet_act e (by assumption) ?_
  | (injection e with e; subst e)
  | (revert e; repeat' (split); all_goals (intro e; injection e with e; subst e))
  all_goals with_reducible repeat' (first
      | assumption | apply quiet_gcInstr | apply quiet_retire | apply quiet_modCore | apply quiet_id | apply quiet_foldl
      | apply quiet_foldr | apply quiet_ite | split | intro _ | dsimp only)

theorem quiet_execGcBxc {s₀ : State} {a1 : Fin 64} {s : State} {t : State} (e : execGcBxc a1 s = .next t) (h2 : Quiet s₀ s) : Quiet s₀ t := by
  unfold execGcBxc at e
  try dsimp only at e
  first
  | refine quiet_act e (by assumption) ?_
  | (injection e with e; subst e)
  | (revert e; repeat' (split); all_goals (intro e; injection e with e; subst e))
  all_goals with_reducible repeat' (first
      | assumption | apply quiet_gcInstr | apply quiet_retire | apply quiet_modCore | apply quiet_id | apply quiet_foldl
      | apply quiet_foldr | apply quiet_ite | split | intro _ | dsimp only)

theorem quiet_execGcDq {s₀ : State} {a1 : Fin 64} {s : State} {t : State} (e : execGcDq a1 s = .next t) (h2 : Quiet s₀ s) : Quiet s₀ t := by
  unfold execGcDq at e
  try dsimp only at e
  first
  | refine quiet_act e (by assumption) ?_
  | (injection e with e; subst e)
  | (revert e; repeat' (split); all_goals (intro e; injection e with e; subst e))
  all_goals with_reducible repeat' (first
      | assumption | apply quiet_gcInstr | apply quiet_retire | apply quiet_count | apply quiet_modCore | apply quiet_id
      | apply quiet_foldl | apply quiet_foldr | apply quiet_ite | split | intro _ | dsimp only)

theorem quiet_execGcSemwait {s₀ : State} {a1 : Fin 64} {a2 : Fin 3} {s : State} {t : State} (e : execGcSemwait a1 a2 s = .next t) (h3 : Quiet s₀ s) : Quiet s₀ t := by
  unfold execGcSemwait at e
  try dsimp only at e
  first
  | refine quiet_act e (by assumption) ?_
  | (injection e with e; subst e)
  | (revert e; repeat' (split); all_goals (intro e; injection e with e; subst e))
  all_goals with_reducible repeat' (first
      | assumption | apply quiet_gcInstr | apply quiet_gcEnd | apply quiet_semWait | apply quiet_semFind | apply quiet_id
      | apply quiet_foldl | apply quiet_foldr | apply quiet_ite | split | intro _ | dsimp only)

theorem quiet_execGcSemrd {s₀ : State} {a1 : Fin 64} {a2 : Fin 3} {s : State} {t : State} (e : execGcSemrd a1 a2 s = .next t) (h3 : Quiet s₀ s) : Quiet s₀ t := by
  unfold execGcSemrd at e
  try dsimp only at e
  first
  | refine quiet_act e (by assumption) ?_
  | (injection e with e; subst e)
  | (revert e; repeat' (split); all_goals (intro e; injection e with e; subst e))
  all_goals with_reducible repeat' (first
      | assumption | apply quiet_gcInstr | apply quiet_gcEnd | apply quiet_semFind | apply quiet_retire | apply quiet_modCore
      | apply quiet_id | apply quiet_foldl | apply quiet_foldr | apply quiet_ite | split | intro _ | dsimp only)

theorem quiet_execGcTag {s₀ : State} {a1 : Fin 64} {s : State} {t : State} (e : execGcTag a1 s = .next t) (h2 : Quiet s₀ s) : Quiet s₀ t := by
  unfold execGcTag at e
  try dsimp only at e
  first
  | refine quiet_act e (by assumption) ?_
  | (injection e with e; subst e)
  | (revert e; repeat' (split); all_goals (intro e; injection e with e; subst e))
  all_goals with_reducible repeat' (first
      | assumption | apply quiet_gcInstr | apply quiet_retire | apply quiet_modScaler | apply quiet_id | apply quiet_foldl
      | apply quiet_foldr | apply quiet_ite | split | intro _ | dsimp only)

theorem quiet_execMoveChannelTake {s₀ : State} {a1 : Fin 8} {s : State} {t : State} (e : execMoveChannelTake a1 s = .next t) (h2 : Quiet s₀ s) : Quiet s₀ t := by
  unfold execMoveChannelTake at e
  try dsimp only at e
  first
  | refine quiet_act e (by assumption) ?_
  | (injection e with e; subst e)
  | (revert e; repeat' (split); all_goals (intro e; injection e with e; subst e))
  all_goals with_reducible repeat' (first
      | assumption | apply quiet_modLoft | apply quiet_startOn | apply quiet_id | apply quiet_foldl | apply quiet_foldr
      | apply quiet_ite | split | intro _ | dsimp only)

theorem quiet_execLoftWriteStage {s₀ : State} {s : State} {t : State} (e : execLoftWriteStage s = .next t) (h1 : Quiet s₀ s) : Quiet s₀ t := by
  unfold execLoftWriteStage at e
  try dsimp only at e
  first
  | refine quiet_act e (by assumption) ?_
  | (injection e with e; subst e)
  | (revert e; repeat' (split); all_goals (intro e; injection e with e; subst e))
  all_goals with_reducible repeat' (first
      | assumption | apply quiet_modLoft | apply quiet_endLate | apply quiet_loftAnswer | apply quiet_setLoftPlace | apply quiet_id
      | apply quiet_foldl | apply quiet_foldr | apply quiet_ite | split | intro _ | dsimp only)

theorem quiet_execLoftStripeProgram {s₀ : State} {s : State} {t : State} (e : execLoftStripeProgram s = .next t) (h1 : Quiet s₀ s) : Quiet s₀ t := by
  unfold execLoftStripeProgram at e
  try dsimp only at e
  first
  | refine quiet_act e (by assumption) ?_
  | (injection e with e; subst e)
  | (revert e; repeat' (split); all_goals (intro e; injection e with e; subst e))
  all_goals with_reducible repeat' (first
      | assumption | refine quiet_choose (by assumption) ?_ | apply quiet_choose' | apply quiet_modLoft | apply quiet_modSuper
      | apply quiet_programStripe | apply quiet_id | apply quiet_foldl | apply quiet_foldr | apply quiet_ite | split | intro _
      | dsimp only)

theorem quiet_execLoftProgramDone {s₀ : State} {a1 : Nat} {a2 : Nat} {a3 : Option (Fin 17)} {s : State} {t : State} (e : execLoftProgramDone a1 a2 a3 s = .next t) (h4 : Quiet s₀ s) : Quiet s₀ t := by
  unfold execLoftProgramDone at e
  try dsimp only at e
  first
  | refine quiet_act e (by assumption) ?_
  | (injection e with e; subst e)
  | (revert e; repeat' (split); all_goals (intro e; injection e with e; subst e))
  all_goals with_reducible repeat' (first
      | assumption | apply quiet_blockDone | apply quiet_nandPut | apply quiet_giveRoom | apply quiet_retireBlock | apply quiet_id
      | apply quiet_foldl | apply quiet_foldr | apply quiet_ite | split | intro _ | dsimp only)

theorem quiet_execLoftGc {s₀ : State} {s : State} {t : State} (e : execLoftGc s = .next t) (h1 : Quiet s₀ s) : Quiet s₀ t := by
  unfold execLoftGc at e
  try dsimp only at e
  first
  | refine quiet_act e (by assumption) ?_
  | (injection e with e; subst e)
  | (revert e; repeat' (split); all_goals (intro e; injection e with e; subst e))
  all_goals with_reducible repeat' (first
      | assumption | apply quiet_collect | apply quiet_id | apply quiet_foldl | apply quiet_foldr | apply quiet_ite | split | intro _
      | dsimp only)

theorem quiet_execLoftWearMove {s₀ : State} {s : State} {t : State} (e : execLoftWearMove s = .next t) (h1 : Quiet s₀ s) : Quiet s₀ t := by
  unfold execLoftWearMove at e
  try dsimp only at e
  first
  | refine quiet_act e (by assumption) ?_
  | (injection e with e; subst e)
  | (revert e; repeat' (split); all_goals (intro e; injection e with e; subst e))
  all_goals with_reducible repeat' (first
      | assumption | apply quiet_modLoft | apply quiet_collect | apply quiet_id | apply quiet_foldl | apply quiet_foldr
      | apply quiet_ite | split | intro _ | dsimp only)

theorem quiet_execLoftRead {s₀ : State} {a1 : Nat} {s : State} {t : State} (e : execLoftRead a1 s = .next t) (h2 : Quiet s₀ s) : Quiet s₀ t := by
  unfold execLoftRead at e
  try dsimp only at e
  first
  | refine quiet_act e (by assumption) ?_
  | (injection e with e; subst e)
  | (revert e; repeat' (split); all_goals (intro e; injection e with e; subst e))
  all_goals with_reducible repeat' (first
      | assumption | apply quiet_endLate | apply quiet_loftAnswer | apply quiet_modLoft | apply quiet_id | apply quiet_foldl
      | apply quiet_foldr | apply quiet_ite | split | intro _ | dsimp only)

theorem quiet_execLoftReadDone {s₀ : State} {a1 : Nat} {a2 : Fin 4} {s : State} {t : State} (e : execLoftReadDone a1 a2 s = .next t) (h3 : Quiet s₀ s) : Quiet s₀ t := by
  unfold execLoftReadDone at e
  try dsimp only at e
  first
  | refine quiet_act e (by assumption) ?_
  | (injection e with e; subst e)
  | (revert e; repeat' (split); all_goals (intro e; injection e with e; subst e))
  all_goals with_reducible repeat' (first
      | assumption | apply quiet_loftRebuilt | apply quiet_channelAnswers | apply quiet_loftGot | apply quiet_channelBlock
      | apply quiet_loftCount | apply quiet_id | apply quiet_foldl | apply quiet_foldr | apply quiet_ite | split | intro _ | dsimp only)

theorem quiet_execLowerTierLate {s₀ : State} {a1 : Nat} {s : State} {t : State} (e : execLowerTierLate a1 s = .next t) (h2 : Quiet s₀ s) : Quiet s₀ t := by
  unfold execLowerTierLate at e
  try dsimp only at e
  first
  | refine quiet_act e (by assumption) ?_
  | (injection e with e; subst e)
  | (revert e; repeat' (split); all_goals (intro e; injection e with e; subst e))
  all_goals with_reducible repeat' (first
      | assumption | apply quiet_endLate | apply quiet_id | apply quiet_foldl | apply quiet_foldr | apply quiet_ite | split | intro _
      | dsimp only)

theorem quiet_execLoftStatusTimeout {s₀ : State} {a1 : Fin 18} {s : State} {t : State} (e : execLoftStatusTimeout a1 s = .next t) (h2 : Quiet s₀ s) : Quiet s₀ t := by
  unfold execLoftStatusTimeout at e
  try dsimp only at e
  first
  | refine quiet_act e (by assumption) ?_
  | (injection e with e; subst e)
  | (revert e; repeat' (split); all_goals (intro e; injection e with e; subst e))
  all_goals with_reducible repeat' (first
      | assumption | apply quiet_channelDead | apply quiet_modLoft | apply quiet_id | apply quiet_foldl | apply quiet_foldr
      | apply quiet_ite | split | intro _ | dsimp only)

theorem quiet_execLoftRebuildStripe {s₀ : State} {s : State} {t : State} (e : execLoftRebuildStripe s = .next t) (h1 : Quiet s₀ s) : Quiet s₀ t := by
  unfold execLoftRebuildStripe at e
  try dsimp only at e
  first
  | refine quiet_act e (by assumption) ?_
  | (injection e with e; subst e)
  | (revert e; repeat' (split); all_goals (intro e; injection e with e; subst e))
  all_goals with_reducible repeat' (first
      | assumption | apply quiet_modLoft | apply quiet_channelBlock | apply quiet_showRebuild | apply quiet_report
      | apply quiet_cause | apply quiet_setRegF | apply quiet_id | apply quiet_foldl | apply quiet_foldr | apply quiet_ite | split
      | intro _ | dsimp only)

theorem quiet_execLoftTrim {s₀ : State} {s : State} {t : State} (e : execLoftTrim s = .next t) (h1 : Quiet s₀ s) : Quiet s₀ t := by
  unfold execLoftTrim at e
  try dsimp only at e
  first
  | refine quiet_act e (by assumption) ?_
  | (injection e with e; subst e)
  | (revert e; repeat' (split); all_goals (intro e; injection e with e; subst e))
  all_goals with_reducible repeat' (first
      | assumption | apply quiet_setRegF | apply quiet_modLoft | apply quiet_id | apply quiet_foldl | apply quiet_foldr
      | apply quiet_ite | split | intro _ | dsimp only)

theorem quiet_execLoftReady {s₀ : State} {s : State} {t : State} (e : execLoftReady s = .next t) (h1 : Quiet s₀ s) : Quiet s₀ t := by
  unfold execLoftReady at e
  try dsimp only at e
  first
  | refine quiet_act e (by assumption) ?_
  | (injection e with e; subst e)
  | (revert e; repeat' (split); all_goals (intro e; injection e with e; subst e))
  all_goals with_reducible repeat' (first
      | assumption | apply quiet_setRegF | apply quiet_id | apply quiet_foldl | apply quiet_foldr | apply quiet_ite | split | intro _
      | dsimp only)

theorem quiet_execMirrorCopyDone {s₀ : State} {a1 : Fin 2048} {s : State} {t : State} (e : execMirrorCopyDone a1 s = .next t) (h2 : Quiet s₀ s) : Quiet s₀ t := by
  unfold execMirrorCopyDone at e
  try dsimp only at e
  first
  | refine quiet_act e (by assumption) ?_
  | (injection e with e; subst e)
  | (revert e; repeat' (split); all_goals (intro e; injection e with e; subst e))
  all_goals with_reducible repeat' (first
      | assumption | apply quiet_mirrorTo | apply quiet_id | apply quiet_foldl | apply quiet_foldr | apply quiet_ite | split | intro _
      | dsimp only)

theorem quiet_execXltInvalidateDone {s₀ : State} {a1 : Fin 32} {s : State} {t : State} (e : execXltInvalidateDone a1 s = .next t) (h2 : Quiet s₀ s) : Quiet s₀ t := by
  unfold execXltInvalidateDone at e
  try dsimp only at e
  first
  | refine quiet_act e (by assumption) ?_
  | (injection e with e; subst e)
  | (revert e; repeat' (split); all_goals (intro e; injection e with e; subst e))
  all_goals with_reducible repeat' (first
      | assumption | apply quiet_setRegF | apply quiet_modPart | apply quiet_pcause | apply quiet_id | apply quiet_foldl
      | apply quiet_foldr | apply quiet_ite | split | intro _ | dsimp only)

theorem quiet_execMemSpecRd {s₀ : State} {a1 : Fin 34} {a2 : BitVec 64} {s : State} {t : State} (e : execMemSpecRd a1 a2 s = .next t) (h3 : Quiet s₀ s) : Quiet s₀ t := by
  unfold execMemSpecRd at e
  try dsimp only at e
  first
  | refine quiet_act e (by assumption) ?_
  | (injection e with e; subst e)
  | (revert e; repeat' (split); all_goals (intro e; injection e with e; subst e))
  all_goals with_reducible repeat' (first
      | assumption | apply quiet_id | apply quiet_foldl | apply quiet_foldr | apply quiet_ite | split | intro _ | dsimp only)

theorem quiet_execMemRdFwd {s₀ : State} {a1 : Fin 34} {a2 : Nat} {a3 : BitVec 64} {s : State} {t : State} (e : execMemRdFwd a1 a2 a3 s = .next t) (h4 : Quiet s₀ s) : Quiet s₀ t := by
  unfold execMemRdFwd at e
  try dsimp only at e
  first
  | refine quiet_act e (by assumption) ?_
  | (injection e with e; subst e)
  | (revert e; repeat' (split); all_goals (intro e; injection e with e; subst e))
  all_goals with_reducible repeat' (first
      | assumption | apply quiet_emit | apply quiet_badFields | apply quiet_id | apply quiet_foldl | apply quiet_foldr
      | apply quiet_ite | split | intro _ | dsimp only)

theorem quiet_execMemWrFwd {s₀ : State} {a1 : Fin 34} {a2 : Nat} {a3 : BitVec 64} {s : State} {t : State} (e : execMemWrFwd a1 a2 a3 s = .next t) (h4 : Quiet s₀ s) : Quiet s₀ t := by
  unfold execMemWrFwd at e
  try dsimp only at e
  first
  | refine quiet_act e (by assumption) ?_
  | (injection e with e; subst e)
  | (revert e; repeat' (split); all_goals (intro e; injection e with e; subst e))
  all_goals with_reducible repeat' (first
      | assumption | apply quiet_emit | apply quiet_badFields | apply quiet_id | apply quiet_foldl | apply quiet_foldr
      | apply quiet_ite | split | intro _ | dsimp only)

theorem quiet_execBiConflict {s₀ : State} {a1 : Fin 34} {a2 : BitVec 34} {s : State} {t : State} (e : execBiConflict a1 a2 s = .next t) (h3 : Quiet s₀ s) : Quiet s₀ t := by
  unfold execBiConflict at e
  try dsimp only at e
  first
  | refine quiet_act e (by assumption) ?_
  | (injection e with e; subst e)
  | (revert e; repeat' (split); all_goals (intro e; injection e with e; subst e))
  all_goals with_reducible repeat' (first
      | assumption | apply quiet_emit | apply quiet_id | apply quiet_foldl | apply quiet_foldr | apply quiet_ite | split | intro _
      | dsimp only)

theorem quiet_whenType {s₀ : State} {a1 : Packet} {a2 : Nat} {a3 : State → State} {s : State} (h3 : ∀ y0, Quiet s₀ y0 → Quiet s₀ (a3 y0)) (h4 : Quiet s₀ s) : Quiet s₀ (whenType a1 a2 a3 s) := by
  unfold whenType
  with_reducible repeat' (first
      | assumption | apply quiet_id | apply quiet_foldl | apply quiet_foldr | apply quiet_ite | apply h3 | split | intro _ | dsimp only)

theorem quiet_execUnknownTypeDiscard {s₀ : State} {a1 : Packet} {s : State} {t : State} (e : execUnknownTypeDiscard a1 s = .next t) (h2 : Quiet s₀ s) : Quiet s₀ t := by
  unfold execUnknownTypeDiscard at e
  try dsimp only at e
  first
  | refine quiet_act e (by assumption) ?_
  | (injection e with e; subst e)
  | (revert e; repeat' (split); all_goals (intro e; injection e with e; subst e))
  all_goals with_reducible repeat' (first
      | assumption | apply quiet_receive | apply quiet_protoErr | apply quiet_id | apply quiet_foldl | apply quiet_foldr
      | apply quiet_ite | split | intro _ | dsimp only)

theorem quiet_execHostLostScanDone {s₀ : State} {s : State} {t : State} (e : execHostLostScanDone s = .next t) (h1 : Quiet s₀ s) : Quiet s₀ t := by
  unfold execHostLostScanDone at e
  try dsimp only at e
  first
  | refine quiet_act e (by assumption) ?_
  | (injection e with e; subst e)
  | (revert e; repeat' (split); all_goals (intro e; injection e with e; subst e))
  all_goals with_reducible repeat' (first
      | assumption | apply quiet_modHomes | apply quiet_cause | apply quiet_report | apply quiet_id | apply quiet_foldl
      | apply quiet_foldr | apply quiet_ite | split | intro _ | dsimp only)

theorem quiet_execCombineHoldExpire {s₀ : State} {a1 : Fin 12} {a2 : Fin 8} {a3 : Fin 2} {s : State} {t : State} (e : execCombineHoldExpire a1 a2 a3 s = .next t) (h4 : Quiet s₀ s) : Quiet s₀ t := by
  unfold execCombineHoldExpire at e
  try dsimp only at e
  first
  | refine quiet_act e (by assumption) ?_
  | (injection e with e; subst e)
  | (revert e; repeat' (split); all_goals (intro e; injection e with e; subst e))
  all_goals with_reducible repeat' (first
      | assumption | apply quiet_modPort | apply quiet_id | apply quiet_foldl | apply quiet_foldr | apply quiet_ite | split | intro _
      | dsimp only)

theorem quiet_execPacketAged {s₀ : State} {a1 : Fin 12} {a2 : Nat} {s : State} {t : State} (e : execPacketAged a1 a2 s = .next t) (h3 : Quiet s₀ s) : Quiet s₀ t := by
  unfold execPacketAged at e
  try dsimp only at e
  first
  | refine quiet_act e (by assumption) ?_
  | (injection e with e; subst e)
  | (revert e; repeat' (split); all_goals (intro e; injection e with e; subst e))
  all_goals with_reducible repeat' (first
      | assumption | apply quiet_cause | apply quiet_count | apply quiet_leaveStaging | apply quiet_takeEntry | apply quiet_id
      | apply quiet_foldl | apply quiet_foldr | apply quiet_ite | split | intro _ | dsimp only)

theorem quiet_execTrainingPass {s₀ : State} {a1 : Fin 12} {a2 : Trained} {s : State} {t : State} (e : execTrainingPass a1 a2 s = .next t) (h3 : Quiet s₀ s) : Quiet s₀ t := by
  unfold execTrainingPass at e
  try dsimp only at e
  first
  | refine quiet_act e (by assumption) ?_
  | (injection e with e; subst e)
  | (revert e; repeat' (split); all_goals (intro e; injection e with e; subst e))
  all_goals with_reducible repeat' (first
      | assumption | apply quiet_trainingPass | apply quiet_id | apply quiet_foldl | apply quiet_foldr | apply quiet_ite | split
      | intro _ | dsimp only)

theorem quiet_execTrainingFail {s₀ : State} {a1 : Fin 12} {s : State} {t : State} (e : execTrainingFail a1 s = .next t) (h2 : Quiet s₀ s) : Quiet s₀ t := by
  unfold execTrainingFail at e
  try dsimp only at e
  first
  | refine quiet_act e (by assumption) ?_
  | (injection e with e; subst e)
  | (revert e; repeat' (split); all_goals (intro e; injection e with e; subst e))
  all_goals with_reducible repeat' (first
      | assumption | apply quiet_trainingFail | apply quiet_id | apply quiet_foldl | apply quiet_foldr | apply quiet_ite | split
      | intro _ | dsimp only)

theorem quiet_execLinkQuiet {s₀ : State} {a1 : Fin 12} {s : State} {t : State} (e : execLinkQuiet a1 s = .next t) (h2 : Quiet s₀ s) : Quiet s₀ t := by
  unfold execLinkQuiet at e
  try dsimp only at e
  first
  | refine quiet_act e (by assumption) ?_
  | (injection e with e; subst e)
  | (revert e; repeat' (split); all_goals (intro e; injection e with e; subst e))
  all_goals with_reducible repeat' (first
      | assumption | apply quiet_cause | apply quiet_setRegF | apply quiet_setLink | apply quiet_id | apply quiet_foldl
      | apply quiet_foldr | apply quiet_ite | split | intro _ | dsimp only)

theorem quiet_execCribAge {s₀ : State} {a1 : Fin 2} {s : State} {t : State} (e : execCribAge a1 s = .next t) (h2 : Quiet s₀ s) : Quiet s₀ t := by
  unfold execCribAge at e
  try dsimp only at e
  first
  | refine quiet_act e (by assumption) ?_
  | (injection e with e; subst e)
  | (revert e; repeat' (split); all_goals (intro e; injection e with e; subst e))
  all_goals with_reducible repeat' (first
      | assumption | apply quiet_count | apply quiet_modCrib | apply quiet_id | apply quiet_foldl | apply quiet_foldr | apply quiet_ite
      | split | intro _ | dsimp only)

theorem quiet_execSemWait {s₀ : State} {a1 : Fin 32} {a2 : Fin 64} {a3 : Word} {a4 : Fin 3} {s : State} {t : State} (e : execSemWait a1 a2 a3 a4 s = .next t) (h5 : Quiet s₀ s) : Quiet s₀ t := by
  unfold execSemWait at e
  try dsimp only at e
  first
  | refine quiet_act e (by assumption) ?_
  | (injection e with e; subst e)
  | (revert e; repeat' (split); all_goals (intro e; injection e with e; subst e))
  all_goals with_reducible repeat' (first
      | assumption | apply quiet_syncStep | apply quiet_stopWaiting | apply quiet_endCmd | apply quiet_semWait
      | apply quiet_semFind | apply quiet_id | apply quiet_foldl | apply quiet_foldr | apply quiet_ite | split | intro _ | dsimp only)

theorem quiet_execWaitSatisfied {s₀ : State} {a1 : SemWaiter} {s : State} {t : State} (e : execWaitSatisfied a1 s = .next t) (h2 : Quiet s₀ s) : Quiet s₀ t := by
  unfold execWaitSatisfied at e
  try dsimp only at e
  first
  | refine quiet_act e (by assumption) ?_
  | (injection e with e; subst e)
  | (revert e; repeat' (split); all_goals (intro e; injection e with e; subst e))
  all_goals with_reducible repeat' (first
      | assumption | apply quiet_semEvent | apply quiet_meWaitEnds | apply quiet_gcWaitEnds | apply quiet_endWait
      | apply quiet_finishRunning | apply quiet_id | apply quiet_foldl | apply quiet_foldr | apply quiet_ite | split | intro _
      | dsimp only)

theorem quiet_execSemWaitTimeout {s₀ : State} {a1 : Fin 32} {a2 : Fin 64} {a3 : Word} {s : State} {t : State} (e : execSemWaitTimeout a1 a2 a3 s = .next t) (h4 : Quiet s₀ s) : Quiet s₀ t := by
  unfold execSemWaitTimeout at e
  try dsimp only at e
  first
  | refine quiet_act e (by assumption) ?_
  | (injection e with e; subst e)
  | (revert e; repeat' (split); all_goals (intro e; injection e with e; subst e))
  all_goals with_reducible repeat' (first
      | assumption | apply quiet_syncStep | apply quiet_endCmd | apply quiet_endWait | apply quiet_id | apply quiet_foldl
      | apply quiet_foldr | apply quiet_ite | split | intro _ | dsimp only)

theorem quiet_execFatalError {s₀ : State} {a1 : Fin 3} {a2 : Nat} {s : State} {t : State} (e : execFatalError a1 a2 s = .next t) (h3 : Quiet s₀ s) : Quiet s₀ t := by
  unfold execFatalError at e
  try dsimp only at e
  first
  | refine quiet_act e (by assumption) ?_
  | (injection e with e; subst e)
  | (revert e; repeat' (split); all_goals (intro e; injection e with e; subst e))
  all_goals with_reducible repeat' (first
      | assumption | apply quiet_fatal | apply quiet_id | apply quiet_foldl | apply quiet_foldr | apply quiet_ite | split | intro _
      | dsimp only)

theorem quiet_execCeSummary {s₀ : State} {a1 : Fin 17} {a2 : Fin 1664} {a3 : Fin 11} {s : State} {t : State} (e : execCeSummary a1 a2 a3 s = .next t) (h4 : Quiet s₀ s) : Quiet s₀ t := by
  unfold execCeSummary at e
  try dsimp only at e
  first
  | refine quiet_act e (by assumption) ?_
  | (injection e with e; subst e)
  | (revert e; repeat' (split); all_goals (intro e; injection e with e; subst e))
  all_goals with_reducible repeat' (first
      | assumption | apply quiet_report | apply quiet_id | apply quiet_foldl | apply quiet_foldr | apply quiet_ite | split | intro _
      | dsimp only | refine quiet_mk ?_)

theorem quiet_execRecordResend {s₀ : State} {s : State} {t : State} (e : execRecordResend s = .next t) (h1 : Quiet s₀ s) : Quiet s₀ t := by
  unfold execRecordResend at e
  try dsimp only at e
  first
  | refine quiet_act e (by assumption) ?_
  | (injection e with e; subst e)
  | (revert e; repeat' (split); all_goals (intro e; injection e with e; subst e))
  all_goals with_reducible repeat' (first
      | assumption | apply quiet_sendAll | apply quiet_id | apply quiet_foldl | apply quiet_foldr | apply quiet_ite | split | intro _
      | dsimp only | refine quiet_mk ?_)

theorem quiet_execRecordAck {s₀ : State} {a1 : Word} {a2 : Word} {a3 : Word} {a4 : Word} {s : State} {t : State} (e : execRecordAck a1 a2 a3 a4 s = .next t) (h5 : Quiet s₀ s) : Quiet s₀ t := by
  unfold execRecordAck at e
  try dsimp only at e
  first
  | refine quiet_act e (by assumption) ?_
  | (injection e with e; subst e)
  | (revert e; repeat' (split); all_goals (intro e; injection e with e; subst e))
  all_goals with_reducible repeat' (first
      | assumption | apply quiet_ackTo | apply quiet_id | apply quiet_foldl | apply quiet_foldr | apply quiet_ite | split | intro _
      | dsimp only)

theorem quiet_execGetRecords {s₀ : State} {a1 : Transport} {a2 : BitVec 16} {a3 : Word} {s : State} {t : State} (e : execGetRecords a1 a2 a3 s = .next t) (h4 : Quiet s₀ s) : Quiet s₀ t := by
  unfold execGetRecords at e
  try dsimp only at e
  first
  | refine quiet_act e (by assumption) ?_
  | (injection e with e; subst e)
  | (revert e; repeat' (split); all_goals (intro e; injection e with e; subst e))
  all_goals with_reducible repeat' (first
      | assumption | apply quiet_emit | apply quiet_id | apply quiet_foldl | apply quiet_foldr | apply quiet_ite | split | intro _
      | dsimp only | refine quiet_mk ?_)

theorem quiet_execAckRecords {s₀ : State} {a1 : Transport} {a2 : BitVec 16} {a3 : Word} {s : State} {t : State} (e : execAckRecords a1 a2 a3 s = .next t) (h4 : Quiet s₀ s) : Quiet s₀ t := by
  unfold execAckRecords at e
  try dsimp only at e
  first
  | refine quiet_act e (by assumption) ?_
  | (injection e with e; subst e)
  | (revert e; repeat' (split); all_goals (intro e; injection e with e; subst e))
  all_goals with_reducible repeat' (first
      | assumption | apply quiet_emit | apply quiet_ackTo | apply quiet_id | apply quiet_foldl | apply quiet_foldr | apply quiet_ite
      | split | intro _ | dsimp only)

theorem quiet_execFtTake {s₀ : State} {a1 : BitVec 16} {s : State} {t : State} (e : execFtTake a1 s = .next t) (h2 : Quiet s₀ s) : Quiet s₀ t := by
  unfold execFtTake at e
  try dsimp only at e
  first
  | refine quiet_act e (by assumption) ?_
  | (injection e with e; subst e)
  | (revert e; repeat' (split); all_goals (intro e; injection e with e; subst e))
  all_goals with_reducible repeat' (first
      | assumption | apply quiet_ftDefer | apply quiet_ftResult | apply quiet_ftDrop | apply quiet_resetUnit | apply quiet_wakeNow
      | apply quiet_modTally | apply quiet_showFt | apply quiet_modFt | apply quiet_id | apply quiet_foldl | apply quiet_foldr
      | apply quiet_ite | split | intro _ | dsimp only)

theorem quiet_execFtRetry {s₀ : State} {a1 : BitVec 8} {s : State} {t : State} (e : execFtRetry a1 s = .next t) (h2 : Quiet s₀ s) : Quiet s₀ t := by
  unfold execFtRetry at e
  try dsimp only at e
  first
  | refine quiet_act e (by assumption) ?_
  | (injection e with e; subst e)
  | (revert e; repeat' (split); all_goals (intro e; injection e with e; subst e))
  all_goals with_reducible repeat' (first
      | assumption | apply quiet_modFt | apply quiet_id | apply quiet_foldl | apply quiet_foldr | apply quiet_ite | split | intro _
      | dsimp only)

theorem quiet_execFtExpire {s₀ : State} {a1 : BitVec 8} {s : State} {t : State} (e : execFtExpire a1 s = .next t) (h2 : Quiet s₀ s) : Quiet s₀ t := by
  unfold execFtExpire at e
  try dsimp only at e
  first
  | refine quiet_act e (by assumption) ?_
  | (injection e with e; subst e)
  | (revert e; repeat' (split); all_goals (intro e; injection e with e; subst e))
  all_goals with_reducible repeat' (first
      | assumption | apply quiet_cause | apply quiet_ftResult | apply quiet_ftDrop | apply quiet_id | apply quiet_foldl
      | apply quiet_foldr | apply quiet_ite | split | intro _ | dsimp only)

theorem quiet_execFtNominalPass {s₀ : State} {a1 : Option (BitVec 16)} {s : State} {t : State} (e : execFtNominalPass a1 s = .next t) (h2 : Quiet s₀ s) : Quiet s₀ t := by
  unfold execFtNominalPass at e
  try dsimp only at e
  first
  | refine quiet_act e (by assumption) ?_
  | (injection e with e; subst e)
  | (revert e; repeat' (split); all_goals (intro e; injection e with e; subst e))
  all_goals with_reducible repeat' (first
      | assumption | apply quiet_modFt | apply quiet_id | apply quiet_foldl | apply quiet_foldr | apply quiet_ite | split | intro _
      | dsimp only)

theorem quiet_execFtMarginPass {s₀ : State} {a1 : Option (BitVec 16)} {a2 : BitVec 16} {a3 : BitVec 16} {a4 : List Nat} {s : State} {t : State} (e : execFtMarginPass a1 a2 a3 a4 s = .next t) (h5 : Quiet s₀ s) : Quiet s₀ t := by
  unfold execFtMarginPass at e
  try dsimp only at e
  first
  | refine quiet_act e (by assumption) ?_
  | (injection e with e; subst e)
  | (revert e; repeat' (split); all_goals (intro e; injection e with e; subst e))
  all_goals with_reducible repeat' (first
      | assumption | apply quiet_setRegF | apply quiet_modFt | apply quiet_ftEnd | apply quiet_id | apply quiet_foldl
      | apply quiet_foldr | apply quiet_ite | split | intro _ | dsimp only)

theorem quiet_execClockGate {s₀ : State} {a1 : Fin 512} {s : State} {t : State} (e : execClockGate a1 s = .next t) (h2 : Quiet s₀ s) : Quiet s₀ t := by
  unfold execClockGate at e
  try dsimp only at e
  first
  | refine quiet_act e (by assumption) ?_
  | (injection e with e; subst e)
  | (revert e; repeat' (split); all_goals (intro e; injection e with e; subst e))
  all_goals with_reducible repeat' (first
      | assumption | apply quiet_setSleep | apply quiet_id | apply quiet_foldl | apply quiet_foldr | apply quiet_ite | split | intro _
      | dsimp only)

theorem quiet_execPowerGate {s₀ : State} {a1 : UnitKind} {a2 : Fin 64} {s : State} {t : State} (e : execPowerGate a1 a2 s = .next t) (h3 : Quiet s₀ s) : Quiet s₀ t := by
  unfold execPowerGate at e
  try dsimp only at e
  first
  | refine quiet_act e (by assumption) ?_
  | (injection e with e; subst e)
  | (revert e; repeat' (split); all_goals (intro e; injection e with e; subst e))
  all_goals with_reducible repeat' (first
      | assumption | apply quiet_checkIdle | apply quiet_setSleep | apply quiet_resetUnit | apply quiet_id | apply quiet_foldl
      | apply quiet_foldr | apply quiet_ite | split | intro _ | dsimp only)

theorem quiet_execPllStop {s₀ : State} {a1 : Fin 4} {s : State} {t : State} (e : execPllStop a1 s = .next t) (h2 : Quiet s₀ s) : Quiet s₀ t := by
  unfold execPllStop at e
  try dsimp only at e
  first
  | refine quiet_act e (by assumption) ?_
  | (injection e with e; subst e)
  | (revert e; repeat' (split); all_goals (intro e; injection e with e; subst e))
  all_goals with_reducible repeat' (first
      | assumption | apply quiet_checkIdle | apply quiet_setSleep | apply quiet_id | apply quiet_foldl | apply quiet_foldr
      | apply quiet_ite | split | intro _ | dsimp only)

theorem quiet_execSelfRefresh {s₀ : State} {a1 : Fin 6} {s : State} {t : State} (e : execSelfRefresh a1 s = .next t) (h2 : Quiet s₀ s) : Quiet s₀ t := by
  unfold execSelfRefresh at e
  try dsimp only at e
  first
  | refine quiet_act e (by assumption) ?_
  | (injection e with e; subst e)
  | (revert e; repeat' (split); all_goals (intro e; injection e with e; subst e))
  all_goals with_reducible repeat' (first
      | assumption | apply quiet_setSleep | apply quiet_id | apply quiet_foldl | apply quiet_foldr | apply quiet_ite | split | intro _
      | dsimp only)

theorem quiet_execWakeDone {s₀ : State} {a1 : Fin 512} {s : State} {t : State} (e : execWakeDone a1 s = .next t) (h2 : Quiet s₀ s) : Quiet s₀ t := by
  unfold execWakeDone at e
  try dsimp only at e
  first
  | refine quiet_act e (by assumption) ?_
  | (injection e with e; subst e)
  | (revert e; repeat' (split); all_goals (intro e; injection e with e; subst e))
  all_goals with_reducible repeat' (first
      | assumption | apply quiet_wakeNow | apply quiet_id | apply quiet_foldl | apply quiet_foldr | apply quiet_ite | split | intro _
      | dsimp only)

theorem quiet_execRunDone {s₀ : State} {s : State} {t : State} (e : execRunDone s = .next t) (h1 : Quiet s₀ s) : Quiet s₀ t := by
  unfold execRunDone at e
  try dsimp only at e
  first
  | refine quiet_act e (by assumption) ?_
  | (injection e with e; subst e)
  | (revert e; repeat' (split); all_goals (intro e; injection e with e; subst e))
  all_goals with_reducible repeat' (first
      | assumption | apply quiet_cause | apply quiet_setRegF | apply quiet_setSleep | apply quiet_id | apply quiet_foldl
      | apply quiet_foldr | apply quiet_ite | split | intro _ | dsimp only)

theorem quiet_execPowerTick {s₀ : State} {a1 : BitVec 16} {a2 : BitVec 16} {a3 : List (BitVec 16)} {s : State} {t : State} (e : execPowerTick a1 a2 a3 s = .next t) (h4 : Quiet s₀ s) : Quiet s₀ t := by
  unfold execPowerTick at e
  try dsimp only at e
  first
  | refine quiet_act e (by assumption) ?_
  | (injection e with e; subst e)
  | (revert e; repeat' (split); all_goals (intro e; injection e with e; subst e))
  all_goals with_reducible repeat' (first
      | assumption | apply quiet_setRegF | apply quiet_heatTick | apply quiet_capTick | apply quiet_id | apply quiet_foldl
      | apply quiet_foldr | apply quiet_ite | split | intro _ | dsimp only)

theorem quiet_execPerstNDeassert {s₀ : State} {a1 : Fin 2} {s : State} {t : State} (e : execPerstNDeassert a1 s = .next t) (h2 : Quiet s₀ s) : Quiet s₀ t := by
  unfold execPerstNDeassert at e
  try dsimp only at e
  first
  | refine quiet_act e (by assumption) ?_
  | (injection e with e; subst e)
  | (revert e; repeat' (split); all_goals (intro e; injection e with e; subst e))
  all_goals with_reducible repeat' (first
      | assumption | apply quiet_setRegF | apply quiet_tallyPreempt | apply quiet_id | apply quiet_foldl | apply quiet_foldr
      | apply quiet_ite | split | intro _ | dsimp only)

theorem quiet_execCxlPortReady {s₀ : State} {a1 : Fin 2} {s : State} {t : State} (e : execCxlPortReady a1 s = .next t) (h2 : Quiet s₀ s) : Quiet s₀ t := by
  unfold execCxlPortReady at e
  try dsimp only at e
  first
  | refine quiet_act e (by assumption) ?_
  | (injection e with e; subst e)
  | (revert e; repeat' (split); all_goals (intro e; injection e with e; subst e))
  all_goals with_reducible repeat' (first
      | assumption | apply quiet_setRegF | apply quiet_id | apply quiet_foldl | apply quiet_foldr | apply quiet_ite | split | intro _
      | dsimp only)

theorem quiet_execParamCheckDone {s₀ : State} {a1 : Bool} {s : State} {t : State} (e : execParamCheckDone a1 s = .next t) (h2 : Quiet s₀ s) : Quiet s₀ t := by
  unfold execParamCheckDone at e
  try dsimp only at e
  first
  | refine quiet_act e (by assumption) ?_
  | (injection e with e; subst e)
  | (revert e; repeat' (split); all_goals (intro e; injection e with e; subst e))
  all_goals with_reducible repeat' (first
      | assumption | apply quiet_paramResult | apply quiet_setRegF | apply quiet_modBoot | apply quiet_answerEnd
      | apply quiet_cause | apply quiet_setShadow | apply quiet_report | apply quiet_id | apply quiet_foldl | apply quiet_foldr
      | apply quiet_ite | split | intro _ | dsimp only)

theorem quiet_execObjBegin {s₀ : State} {a1 : Transport} {a2 : BitVec 16} {a3 : BitVec 8} {a4 : Word} {s : State} {t : State} (e : execObjBegin a1 a2 a3 a4 s = .next t) (h5 : Quiet s₀ s) : Quiet s₀ t := by
  unfold execObjBegin at e
  try dsimp only at e
  first
  | refine quiet_act e (by assumption) ?_
  | (injection e with e; subst e)
  | (revert e; repeat' (split); all_goals (intro e; injection e with e; subst e))
  all_goals with_reducible repeat' (first
      | assumption | apply quiet_served | apply quiet_answer | apply quiet_setXfer | apply quiet_eraseSlot | apply quiet_id
      | apply quiet_foldl | apply quiet_foldr | apply quiet_ite | split | intro _ | dsimp only)

theorem quiet_execObjData {s₀ : State} {a1 : Transport} {a2 : BitVec 16} {a3 : BitVec 8} {a4 : Word} {a5 : List Byte} {s : State} {t : State} (e : execObjData a1 a2 a3 a4 a5 s = .next t) (h6 : Quiet s₀ s) : Quiet s₀ t := by
  unfold execObjData at e
  try dsimp only at e
  first
  | refine quiet_act e (by assumption) ?_
  | (injection e with e; subst e)
  | (revert e; repeat' (split); all_goals (intro e; injection e with e; subst e))
  all_goals with_reducible repeat' (first
      | assumption | apply quiet_served | apply quiet_answer | apply quiet_setXfer | apply quiet_id | apply quiet_foldl
      | apply quiet_foldr | apply quiet_ite | split | intro _ | dsimp only)

theorem quiet_execObjAbort {s₀ : State} {a1 : Transport} {a2 : BitVec 16} {a3 : BitVec 8} {s : State} {t : State} (e : execObjAbort a1 a2 a3 s = .next t) (h4 : Quiet s₀ s) : Quiet s₀ t := by
  unfold execObjAbort at e
  try dsimp only at e
  first
  | refine quiet_act e (by assumption) ?_
  | (injection e with e; subst e)
  | (revert e; repeat' (split); all_goals (intro e; injection e with e; subst e))
  all_goals with_reducible repeat' (first
      | assumption | apply quiet_served | apply quiet_answer | apply quiet_setXfer | apply quiet_id | apply quiet_foldl
      | apply quiet_foldr | apply quiet_ite | split | intro _ | dsimp only)

theorem quiet_execTransferTimeout {s₀ : State} {a1 : Fin 4} {s : State} {t : State} (e : execTransferTimeout a1 s = .next t) (h2 : Quiet s₀ s) : Quiet s₀ t := by
  unfold execTransferTimeout at e
  try dsimp only at e
  first
  | refine quiet_act e (by assumption) ?_
  | (injection e with e; subst e)
  | (revert e; repeat' (split); all_goals (intro e; injection e with e; subst e))
  all_goals with_reducible repeat' (first
      | assumption | apply quiet_setXfer | apply quiet_id | apply quiet_foldl | apply quiet_foldr | apply quiet_ite | split | intro _
      | dsimp only)

theorem quiet_execQuote {s₀ : State} {a1 : Transport} {a2 : BitVec 16} {a3 : List Byte} {s : State} {t : State} (e : execQuote a1 a2 a3 s = .next t) (h4 : Quiet s₀ s) : Quiet s₀ t := by
  unfold execQuote at e
  try dsimp only at e
  first
  | refine quiet_act e (by assumption) ?_
  | (injection e with e; subst e)
  | (revert e; repeat' (split); all_goals (intro e; injection e with e; subst e))
  all_goals with_reducible repeat' (first
      | assumption | apply quiet_served | apply quiet_answer | refine quiet_useLeaf (by assumption) ?_
      | refine quiet_sign (by assumption) ?_ | apply quiet_sign' | apply quiet_id | apply quiet_foldl | apply quiet_foldr
      | apply quiet_ite | split | intro _ | dsimp only)

theorem quiet_execKemKey {s₀ : State} {a1 : Transport} {a2 : BitVec 16} {s : State} {t : State} (e : execKemKey a1 a2 s = .next t) (h3 : Quiet s₀ s) : Quiet s₀ t := by
  unfold execKemKey at e
  try dsimp only at e
  first
  | refine quiet_act e (by assumption) ?_
  | (injection e with e; subst e)
  | (revert e; repeat' (split); all_goals (intro e; injection e with e; subst e))
  all_goals with_reducible repeat' (first
      | assumption | apply quiet_served | refine quiet_useLeaf (by assumption) ?_ | apply quiet_answer
      | refine quiet_sign (by assumption) ?_ | apply quiet_sign' | apply quiet_id | apply quiet_foldl | apply quiet_foldr
      | apply quiet_ite | split | intro _ | dsimp only)

theorem quiet_execSessionOpen {s₀ : State} {a1 : Transport} {a2 : BitVec 16} {a3 : List Byte} {s : State} {t : State} (e : execSessionOpen a1 a2 a3 s = .next t) (h4 : Quiet s₀ s) : Quiet s₀ t := by
  unfold execSessionOpen at e
  try dsimp only at e
  first
  | refine quiet_act e (by assumption) ?_
  | (injection e with e; subst e)
  | (revert e; repeat' (split); all_goals (intro e; injection e with e; subst e))
  all_goals with_reducible repeat' (first
      | assumption | apply quiet_served | apply quiet_answer | apply quiet_id | apply quiet_foldl | apply quiet_foldr | apply quiet_ite
      | split | intro _ | dsimp only | refine quiet_mk ?_)

theorem quiet_execSessionMsg {s₀ : State} {a1 : Transport} {a2 : BitVec 16} {a3 : Word} {a4 : Option IdeMsg} {s : State} {t : State} (e : execSessionMsg a1 a2 a3 a4 s = .next t) (h5 : Quiet s₀ s) : Quiet s₀ t := by
  unfold execSessionMsg at e
  try dsimp only at e
  first
  | refine quiet_act e (by assumption) ?_
  | (injection e with e; subst e)
  | (revert e; repeat' (split); all_goals (intro e; injection e with e; subst e))
  all_goals with_reducible repeat' (first
      | assumption | apply quiet_served | apply quiet_answer | apply quiet_ideMessage | apply quiet_id | apply quiet_foldl
      | apply quiet_foldr | apply quiet_ite | split | intro _ | dsimp only)

theorem quiet_execIdentifyDevice {s₀ : State} {a1 : Mailbox} {s : State} {t : State} (e : execIdentifyDevice a1 s = .next t) (h2 : Quiet s₀ s) : Quiet s₀ t := by
  unfold execIdentifyDevice at e
  try dsimp only at e
  first
  | refine quiet_act e (by assumption) ?_
  | (injection e with e; subst e)
  | (revert e; repeat' (split); all_goals (intro e; injection e with e; subst e))
  all_goals with_reducible repeat' (first
      | assumption | apply quiet_mbox | apply quiet_id | apply quiet_foldl | apply quiet_foldr | apply quiet_ite | split | intro _
      | dsimp only)

theorem quiet_execIdentifyMemoryDevice {s₀ : State} {a1 : Mailbox} {s : State} {t : State} (e : execIdentifyMemoryDevice a1 s = .next t) (h2 : Quiet s₀ s) : Quiet s₀ t := by
  unfold execIdentifyMemoryDevice at e
  try dsimp only at e
  first
  | refine quiet_act e (by assumption) ?_
  | (injection e with e; subst e)
  | (revert e; repeat' (split); all_goals (intro e; injection e with e; subst e))
  all_goals with_reducible repeat' (first
      | assumption | apply quiet_ldMailbox | apply quiet_mbox | apply quiet_id | apply quiet_foldl | apply quiet_foldr
      | apply quiet_ite | split | intro _ | dsimp only)

theorem quiet_execGetSupportedLogs {s₀ : State} {a1 : Mailbox} {s : State} {t : State} (e : execGetSupportedLogs a1 s = .next t) (h2 : Quiet s₀ s) : Quiet s₀ t := by
  unfold execGetSupportedLogs at e
  try dsimp only at e
  first
  | refine quiet_act e (by assumption) ?_
  | (injection e with e; subst e)
  | (revert e; repeat' (split); all_goals (intro e; injection e with e; subst e))
  all_goals with_reducible repeat' (first
      | assumption | apply quiet_ldMailbox | apply quiet_mbox | apply quiet_id | apply quiet_foldl | apply quiet_foldr
      | apply quiet_ite | split | intro _ | dsimp only)

theorem quiet_execGetLog {s₀ : State} {a1 : Mailbox} {s : State} {t : State} (e : execGetLog a1 s = .next t) (h2 : Quiet s₀ s) : Quiet s₀ t := by
  unfold execGetLog at e
  try dsimp only at e
  first
  | refine quiet_act e (by assumption) ?_
  | (injection e with e; subst e)
  | (revert e; repeat' (split); all_goals (intro e; injection e with e; subst e))
  all_goals with_reducible repeat' (first
      | assumption | apply quiet_ldMailbox | apply quiet_mbox | apply quiet_id | apply quiet_foldl | apply quiet_foldr
      | apply quiet_ite | split | intro _ | dsimp only)

theorem quiet_execGetEventRecords {s₀ : State} {a1 : Mailbox} {s : State} {t : State} (e : execGetEventRecords a1 s = .next t) (h2 : Quiet s₀ s) : Quiet s₀ t := by
  unfold execGetEventRecords at e
  try dsimp only at e
  first
  | refine quiet_act e (by assumption) ?_
  | (injection e with e; subst e)
  | (revert e; repeat' (split); all_goals (intro e; injection e with e; subst e))
  all_goals with_reducible repeat' (first
      | assumption | apply quiet_mbox | apply quiet_id | apply quiet_foldl | apply quiet_foldr | apply quiet_ite | split | intro _
      | dsimp only)

theorem quiet_execClearEventRecords {s₀ : State} {a1 : Mailbox} {a2 : List Nat} {s : State} {t : State} (e : execClearEventRecords a1 a2 s = .next t) (h3 : Quiet s₀ s) : Quiet s₀ t := by
  unfold execClearEventRecords at e
  try dsimp only at e
  first
  | refine quiet_act e (by assumption) ?_
  | (injection e with e; subst e)
  | (revert e; repeat' (split); all_goals (intro e; injection e with e; subst e))
  all_goals with_reducible repeat' (first
      | assumption | apply quiet_mbox | apply quiet_modLd | apply quiet_id | apply quiet_foldl | apply quiet_foldr | apply quiet_ite
      | split | intro _ | dsimp only)

theorem quiet_execGetEventInterruptPolicy {s₀ : State} {a1 : Mailbox} {s : State} {t : State} (e : execGetEventInterruptPolicy a1 s = .next t) (h2 : Quiet s₀ s) : Quiet s₀ t := by
  unfold execGetEventInterruptPolicy at e
  try dsimp only at e
  first
  | refine quiet_act e (by assumption) ?_
  | (injection e with e; subst e)
  | (revert e; repeat' (split); all_goals (intro e; injection e with e; subst e))
  all_goals with_reducible repeat' (first
      | assumption | apply quiet_ldMailbox | apply quiet_mbox | apply quiet_id | apply quiet_foldl | apply quiet_foldr
      | apply quiet_ite | split | intro _ | dsimp only)

theorem quiet_execSetEventInterruptPolicy {s₀ : State} {a1 : Mailbox} {a2 : Bool} {s : State} {t : State} (e : execSetEventInterruptPolicy a1 a2 s = .next t) (h3 : Quiet s₀ s) : Quiet s₀ t := by
  unfold execSetEventInterruptPolicy at e
  try dsimp only at e
  first
  | refine quiet_act e (by assumption) ?_
  | (injection e with e; subst e)
  | (revert e; repeat' (split); all_goals (intro e; injection e with e; subst e))
  all_goals with_reducible repeat' (first
      | assumption | apply quiet_ldMailbox | apply quiet_mbox | apply quiet_modLd | apply quiet_id | apply quiet_foldl
      | apply quiet_foldr | apply quiet_ite | split | intro _ | dsimp only)

theorem quiet_execGetDynamicCapacityConfig {s₀ : State} {a1 : Mailbox} {s : State} {t : State} (e : execGetDynamicCapacityConfig a1 s = .next t) (h2 : Quiet s₀ s) : Quiet s₀ t := by
  unfold execGetDynamicCapacityConfig at e
  try dsimp only at e
  first
  | refine quiet_act e (by assumption) ?_
  | (injection e with e; subst e)
  | (revert e; repeat' (split); all_goals (intro e; injection e with e; subst e))
  all_goals with_reducible repeat' (first
      | assumption | apply quiet_ldMailbox | apply quiet_mbox | apply quiet_id | apply quiet_foldl | apply quiet_foldr
      | apply quiet_ite | split | intro _ | dsimp only)

theorem quiet_execGetDynamicCapacityExtentList {s₀ : State} {a1 : Mailbox} {s : State} {t : State} (e : execGetDynamicCapacityExtentList a1 s = .next t) (h2 : Quiet s₀ s) : Quiet s₀ t := by
  unfold execGetDynamicCapacityExtentList at e
  try dsimp only at e
  first
  | refine quiet_act e (by assumption) ?_
  | (injection e with e; subst e)
  | (revert e; repeat' (split); all_goals (intro e; injection e with e; subst e))
  all_goals with_reducible repeat' (first
      | assumption | apply quiet_ldMailbox | apply quiet_mbox | apply quiet_id | apply quiet_foldl | apply quiet_foldr
      | apply quiet_ite | split | intro _ | dsimp only)

theorem quiet_execAddDynamicCapacityResponse {s₀ : State} {a1 : Mailbox} {a2 : List Range} {s : State} {t : State} (e : execAddDynamicCapacityResponse a1 a2 s = .next t) (h3 : Quiet s₀ s) : Quiet s₀ t := by
  unfold execAddDynamicCapacityResponse at e
  try dsimp only at e
  first
  | refine quiet_act e (by assumption) ?_
  | (injection e with e; subst e)
  | (revert e; repeat' (split); all_goals (intro e; injection e with e; subst e))
  all_goals with_reducible repeat' (first
      | assumption | apply quiet_ldMailbox | apply quiet_mbox | apply quiet_cause | apply quiet_id | apply quiet_foldl
      | apply quiet_foldr | apply quiet_ite | split | intro _ | dsimp only | refine quiet_mk ?_)

theorem quiet_execGetLdInfo {s₀ : State} {a1 : Mailbox} {s : State} {t : State} (e : execGetLdInfo a1 s = .next t) (h2 : Quiet s₀ s) : Quiet s₀ t := by
  unfold execGetLdInfo at e
  try dsimp only at e
  first
  | refine quiet_act e (by assumption) ?_
  | (injection e with e; subst e)
  | (revert e; repeat' (split); all_goals (intro e; injection e with e; subst e))
  all_goals with_reducible repeat' (first
      | assumption | apply quiet_fmMailbox | apply quiet_mbox | apply quiet_id | apply quiet_foldl | apply quiet_foldr
      | apply quiet_ite | split | intro _ | dsimp only)

theorem quiet_execGetLdAllocations {s₀ : State} {a1 : Mailbox} {s : State} {t : State} (e : execGetLdAllocations a1 s = .next t) (h2 : Quiet s₀ s) : Quiet s₀ t := by
  unfold execGetLdAllocations at e
  try dsimp only at e
  first
  | refine quiet_act e (by assumption) ?_
  | (injection e with e; subst e)
  | (revert e; repeat' (split); all_goals (intro e; injection e with e; subst e))
  all_goals with_reducible repeat' (first
      | assumption | apply quiet_fmMailbox | apply quiet_mbox | apply quiet_id | apply quiet_foldl | apply quiet_foldr
      | apply quiet_ite | split | intro _ | dsimp only)

theorem quiet_execSetLdAllocations {s₀ : State} {a1 : Mailbox} {s : State} {t : State} (e : execSetLdAllocations a1 s = .next t) (h2 : Quiet s₀ s) : Quiet s₀ t := by
  unfold execSetLdAllocations at e
  try dsimp only at e
  first
  | refine quiet_act e (by assumption) ?_
  | (injection e with e; subst e)
  | (revert e; repeat' (split); all_goals (intro e; injection e with e; subst e))
  all_goals with_reducible repeat' (first
      | assumption | apply quiet_mbox | apply quiet_id | apply quiet_foldl | apply quiet_foldr | apply quiet_ite | split | intro _
      | dsimp only)

theorem quiet_execGetDcRegionConfiguration {s₀ : State} {a1 : Mailbox} {a2 : Fin 32} {s : State} {t : State} (e : execGetDcRegionConfiguration a1 a2 s = .next t) (h3 : Quiet s₀ s) : Quiet s₀ t := by
  unfold execGetDcRegionConfiguration at e
  try dsimp only at e
  first
  | refine quiet_act e (by assumption) ?_
  | (injection e with e; subst e)
  | (revert e; repeat' (split); all_goals (intro e; injection e with e; subst e))
  all_goals with_reducible repeat' (first
      | assumption | apply quiet_fmMailbox | apply quiet_mbox | apply quiet_id | apply quiet_foldl | apply quiet_foldr
      | apply quiet_ite | split | intro _ | dsimp only)

theorem quiet_execGetDcRegionExtentLists {s₀ : State} {a1 : Mailbox} {a2 : Fin 32} {s : State} {t : State} (e : execGetDcRegionExtentLists a1 a2 s = .next t) (h3 : Quiet s₀ s) : Quiet s₀ t := by
  unfold execGetDcRegionExtentLists at e
  try dsimp only at e
  first
  | refine quiet_act e (by assumption) ?_
  | (injection e with e; subst e)
  | (revert e; repeat' (split); all_goals (intro e; injection e with e; subst e))
  all_goals with_reducible repeat' (first
      | assumption | apply quiet_fmMailbox | apply quiet_mbox | apply quiet_id | apply quiet_foldl | apply quiet_foldr
      | apply quiet_ite | split | intro _ | dsimp only)

theorem quiet_execUnsupportedMailboxCommand {s₀ : State} {a1 : Mailbox} {a2 : BitVec 16} {s : State} {t : State} (e : execUnsupportedMailboxCommand a1 a2 s = .next t) (h3 : Quiet s₀ s) : Quiet s₀ t := by
  unfold execUnsupportedMailboxCommand at e
  try dsimp only at e
  first
  | refine quiet_act e (by assumption) ?_
  | (injection e with e; subst e)
  | (revert e; repeat' (split); all_goals (intro e; injection e with e; subst e))
  all_goals with_reducible repeat' (first
      | assumption | apply quiet_mbox | apply quiet_id | apply quiet_foldl | apply quiet_foldr | apply quiet_ite | split | intro _
      | dsimp only)

theorem quiet_execArpRequest {s₀ : State} {a1 : Fin 2} {a2 : Word} {a3 : Word} {s : State} {t : State} (e : execArpRequest a1 a2 a3 s = .next t) (h4 : Quiet s₀ s) : Quiet s₀ t := by
  unfold execArpRequest at e
  try dsimp only at e
  first
  | refine quiet_act e (by assumption) ?_
  | (injection e with e; subst e)
  | (revert e; repeat' (split); all_goals (intro e; injection e with e; subst e))
  all_goals with_reducible repeat' (first
      | assumption | apply quiet_emit | apply quiet_id | apply quiet_foldl | apply quiet_foldr | apply quiet_ite | split | intro _
      | dsimp only)

theorem quiet_execIcmpEcho {s₀ : State} {a1 : Fin 2} {a2 : Word} {a3 : Word} {a4 : List Byte} {s : State} {t : State} (e : execIcmpEcho a1 a2 a3 a4 s = .next t) (h5 : Quiet s₀ s) : Quiet s₀ t := by
  unfold execIcmpEcho at e
  try dsimp only at e
  first
  | refine quiet_act e (by assumption) ?_
  | (injection e with e; subst e)
  | (revert e; repeat' (split); all_goals (intro e; injection e with e; subst e))
  all_goals with_reducible repeat' (first
      | assumption | apply quiet_emit | apply quiet_id | apply quiet_foldl | apply quiet_foldr | apply quiet_ite | split | intro _
      | dsimp only)

theorem quiet_execSetDasa {s₀ : State} {a1 : BitVec 7} {a2 : BitVec 7} {s : State} {t : State} (e : execSetDasa a1 a2 s = .next t) (h3 : Quiet s₀ s) : Quiet s₀ t := by
  unfold execSetDasa at e
  try dsimp only at e
  first
  | refine quiet_act e (by assumption) ?_
  | (injection e with e; subst e)
  | (revert e; repeat' (split); all_goals (intro e; injection e with e; subst e))
  all_goals with_reducible repeat' (first
      | assumption | apply quiet_takeAddress | apply quiet_id | apply quiet_foldl | apply quiet_foldr | apply quiet_ite | split
      | intro _ | dsimp only)

theorem quiet_execEntDaa {s₀ : State} {a1 : BitVec 7} {s : State} {t : State} (e : execEntDaa a1 s = .next t) (h2 : Quiet s₀ s) : Quiet s₀ t := by
  unfold execEntDaa at e
  try dsimp only at e
  first
  | refine quiet_act e (by assumption) ?_
  | (injection e with e; subst e)
  | (revert e; repeat' (split); all_goals (intro e; injection e with e; subst e))
  all_goals with_reducible repeat' (first
      | assumption | apply quiet_takeAddress | apply quiet_id | apply quiet_foldl | apply quiet_foldr | apply quiet_ite | split
      | intro _ | dsimp only)

theorem quiet_execSetEndpointId {s₀ : State} {a1 : BitVec 8} {s : State} {t : State} (e : execSetEndpointId a1 s = .next t) (h2 : Quiet s₀ s) : Quiet s₀ t := by
  unfold execSetEndpointId at e
  try dsimp only at e
  first
  | refine quiet_act e (by assumption) ?_
  | (injection e with e; subst e)
  | (revert e; repeat' (split); all_goals (intro e; injection e with e; subst e))
  all_goals with_reducible repeat' (first
      | assumption | apply quiet_emit | apply quiet_setRegF | apply quiet_id | apply quiet_foldl | apply quiet_foldr | apply quiet_ite
      | split | intro _ | dsimp only)

theorem quiet_execGetEndpointId {s₀ : State} {s : State} {t : State} (e : execGetEndpointId s = .next t) (h1 : Quiet s₀ s) : Quiet s₀ t := by
  unfold execGetEndpointId at e
  try dsimp only at e
  first
  | refine quiet_act e (by assumption) ?_
  | (injection e with e; subst e)
  | (revert e; repeat' (split); all_goals (intro e; injection e with e; subst e))
  all_goals with_reducible repeat' (first
      | assumption | apply quiet_emit | apply quiet_id | apply quiet_foldl | apply quiet_foldr | apply quiet_ite | split | intro _
      | dsimp only)

theorem quiet_execGetVersionSupport {s₀ : State} {a1 : BitVec 8} {s : State} {t : State} (e : execGetVersionSupport a1 s = .next t) (h2 : Quiet s₀ s) : Quiet s₀ t := by
  unfold execGetVersionSupport at e
  try dsimp only at e
  first
  | refine quiet_act e (by assumption) ?_
  | (injection e with e; subst e)
  | (revert e; repeat' (split); all_goals (intro e; injection e with e; subst e))
  all_goals with_reducible repeat' (first
      | assumption | apply quiet_emit | apply quiet_id | apply quiet_foldl | apply quiet_foldr | apply quiet_ite | split | intro _
      | dsimp only)

theorem quiet_execGetMessageTypeSupport {s₀ : State} {s : State} {t : State} (e : execGetMessageTypeSupport s = .next t) (h1 : Quiet s₀ s) : Quiet s₀ t := by
  unfold execGetMessageTypeSupport at e
  try dsimp only at e
  first
  | refine quiet_act e (by assumption) ?_
  | (injection e with e; subst e)
  | (revert e; repeat' (split); all_goals (intro e; injection e with e; subst e))
  all_goals with_reducible repeat' (first
      | assumption | apply quiet_emit | apply quiet_id | apply quiet_foldl | apply quiet_foldr | apply quiet_ite | split | intro _
      | dsimp only)

theorem quiet_execBwWindowEnd {s₀ : State} {a1 : Fin 10} {s : State} {t : State} (e : execBwWindowEnd a1 s = .next t) (h2 : Quiet s₀ s) : Quiet s₀ t := by
  unfold execBwWindowEnd at e
  try dsimp only at e
  first
  | refine quiet_act e (by assumption) ?_
  | (injection e with e; subst e)
  | (revert e; repeat' (split); all_goals (intro e; injection e with e; subst e))
  all_goals with_reducible repeat' (first
      | assumption | apply quiet_modScaler | apply quiet_setRegN | apply quiet_id | apply quiet_foldl | apply quiet_foldr
      | apply quiet_ite | split | intro _ | dsimp only)

theorem quiet_execTallyTrained {s₀ : State} {a1 : Fin 6} {a2 : Fin 16} {s : State} {t : State} (e : execTallyTrained a1 a2 s = .next t) (h3 : Quiet s₀ s) : Quiet s₀ t := by
  unfold execTallyTrained at e
  try dsimp only at e
  first
  | refine quiet_act e (by assumption) ?_
  | (injection e with e; subst e)
  | (revert e; repeat' (split); all_goals (intro e; injection e with e; subst e))
  all_goals with_reducible repeat' (first
      | assumption | apply quiet_modTally | apply quiet_id | apply quiet_foldl | apply quiet_foldr | apply quiet_ite | split | intro _
      | dsimp only)

theorem quiet_execTallyTrainTimeout {s₀ : State} {a1 : Fin 6} {a2 : Fin 16} {s : State} {t : State} (e : execTallyTrainTimeout a1 a2 s = .next t) (h3 : Quiet s₀ s) : Quiet s₀ t := by
  unfold execTallyTrainTimeout at e
  try dsimp only at e
  first
  | refine quiet_act e (by assumption) ?_
  | (injection e with e; subst e)
  | (revert e; repeat' (split); all_goals (intro e; injection e with e; subst e))
  all_goals with_reducible repeat' (first
      | assumption | apply quiet_tallyEnd | apply quiet_id | apply quiet_foldl | apply quiet_foldr | apply quiet_ite | split | intro _
      | dsimp only)

theorem quiet_execTallyDurationEnd {s₀ : State} {a1 : Fin 6} {a2 : Fin 16} {a3 : List LaneCount} {a4 : BitVec 64} {a5 : Word} {s : State} {t : State} (e : execTallyDurationEnd a1 a2 a3 a4 a5 s = .next t) (h6 : Quiet s₀ s) : Quiet s₀ t := by
  unfold execTallyDurationEnd at e
  try dsimp only at e
  first
  | refine quiet_act e (by assumption) ?_
  | (injection e with e; subst e)
  | (revert e; repeat' (split); all_goals (intro e; injection e with e; subst e))
  all_goals with_reducible repeat' (first
      | assumption | apply quiet_tallyEnd | apply quiet_modTally | apply quiet_id | apply quiet_foldl | apply quiet_foldr
      | apply quiet_ite | split | intro _ | dsimp only)

theorem quiet_execTallyLockLost {s₀ : State} {a1 : Fin 6} {a2 : Fin 16} {a3 : Fin 2048} {s : State} {t : State} (e : execTallyLockLost a1 a2 a3 s = .next t) (h4 : Quiet s₀ s) : Quiet s₀ t := by
  unfold execTallyLockLost at e
  try dsimp only at e
  first
  | refine quiet_act e (by assumption) ?_
  | (injection e with e; subst e)
  | (revert e; repeat' (split); all_goals (intro e; injection e with e; subst e))
  all_goals with_reducible repeat' (first
      | assumption | apply quiet_cause | apply quiet_modTally | apply quiet_id | apply quiet_foldl | apply quiet_foldr
      | apply quiet_ite | split | intro _ | dsimp only)

theorem quiet_execEyeScanDone {s₀ : State} {a1 : Fin 6} {a2 : Fin 16} {a3 : List (BitVec 64)} {a4 : BitVec 8} {s : State} {t : State} (e : execEyeScanDone a1 a2 a3 a4 s = .next t) (h5 : Quiet s₀ s) : Quiet s₀ t := by
  unfold execEyeScanDone at e
  try dsimp only at e
  first
  | refine quiet_act e (by assumption) ?_
  | (injection e with e; subst e)
  | (revert e; repeat' (split); all_goals (intro e; injection e with e; subst e))
  all_goals with_reducible repeat' (first
      | assumption | apply quiet_cause | apply quiet_modTally | apply quiet_id | apply quiet_foldl | apply quiet_foldr
      | apply quiet_ite | split | intro _ | dsimp only)

theorem quiet_execCxlLinkUp {s₀ : State} {a1 : Fin 2} {a2 : Fin 16} {a3 : Bool} {s : State} {t : State} (e : execCxlLinkUp a1 a2 a3 s = .next t) (h4 : Quiet s₀ s) : Quiet s₀ t := by
  unfold execCxlLinkUp at e
  try dsimp only at e
  first
  | refine quiet_act e (by assumption) ?_
  | (injection e with e; subst e)
  | (revert e; repeat' (split); all_goals (intro e; injection e with e; subst e))
  all_goals with_reducible repeat' (first
      | assumption | apply quiet_cause | apply quiet_setRegF | apply quiet_id | apply quiet_foldl | apply quiet_foldr | apply quiet_ite
      | split | intro _ | dsimp only)

theorem quiet_execLoftEraseDone {s₀ : State} {a1 : Nat} {a2 : Option (Fin 17)} {s : State} {t : State} (e : execLoftEraseDone a1 a2 s = .next t) (h3 : Quiet s₀ s) : Quiet s₀ t := by
  unfold execLoftEraseDone at e
  try dsimp only at e
  first
  | refine quiet_act e (by assumption) ?_
  | (injection e with e; subst e)
  | (revert e; repeat' (split); all_goals (intro e; injection e with e; subst e))
  all_goals with_reducible repeat' (first
      | assumption | apply quiet_modLoft | apply quiet_showRebuild | apply quiet_retireBlock | apply quiet_channelAnswers
      | apply quiet_modSuper | apply quiet_collect | apply quiet_wornOut | apply quiet_id | apply quiet_foldl | apply quiet_foldr
      | apply quiet_ite | split | intro _ | dsimp only)

theorem quiet_execLoftChannelRetrained {s₀ : State} {a1 : Fin 18} {a2 : Bool} {s : State} {t : State} (e : execLoftChannelRetrained a1 a2 s = .next t) (h3 : Quiet s₀ s) : Quiet s₀ t := by
  unfold execLoftChannelRetrained at e
  try dsimp only at e
  first
  | refine quiet_act e (by assumption) ?_
  | (injection e with e; subst e)
  | (revert e; repeat' (split); all_goals (intro e; injection e with e; subst e))
  all_goals with_reducible repeat' (first
      | assumption | apply quiet_setRegF | apply quiet_channelDead | apply quiet_id | apply quiet_foldl | apply quiet_foldr
      | apply quiet_ite | split | intro _ | dsimp only)

theorem quiet_execTallyLaneLock {s₀ : State} {a1 : Fin 6} {a2 : Fin 16} {a3 : LaneCount} {a4 : BitVec 64} {a5 : Word} {s : State} {t : State} (e : execTallyLaneLock a1 a2 a3 a4 a5 s = .next t) (h6 : Quiet s₀ s) : Quiet s₀ t := by
  unfold execTallyLaneLock at e
  try dsimp only at e
  first
  | refine quiet_act e (by assumption) ?_
  | (injection e with e; subst e)
  | (revert e; repeat' (split); all_goals (intro e; injection e with e; subst e))
  all_goals with_reducible repeat' (first
      | assumption | apply quiet_modTally | apply quiet_id | apply quiet_foldl | apply quiet_foldr | apply quiet_ite | split | intro _
      | dsimp only)

theorem quiet_execPackageNetworkReplay {s₀ : State} {a1 : Fin 10} {a2 : Fin 10} {a3 : BitVec 5} {s : State} {t : State} (e : execPackageNetworkReplay a1 a2 a3 s = .next t) (h4 : Quiet s₀ s) : Quiet s₀ t := by
  unfold execPackageNetworkReplay at e
  try dsimp only at e
  first
  | refine quiet_act e (by assumption) ?_
  | (injection e with e; subst e)
  | (revert e; repeat' (split); all_goals (intro e; injection e with e; subst e))
  all_goals with_reducible repeat' (first
      | assumption | apply quiet_count | apply quiet_fatal | apply quiet_id | apply quiet_foldl | apply quiet_foldr | apply quiet_ite
      | split | intro _ | dsimp only)

theorem quiet_execStandbyDone {s₀ : State} {s : State} {t : State} (e : execStandbyDone s = .next t) (h1 : Quiet s₀ s) : Quiet s₀ t := by
  unfold execStandbyDone at e
  try dsimp only at e
  first
  | refine quiet_act e (by assumption) ?_
  | (injection e with e; subst e)
  | (revert e; repeat' (split); all_goals (intro e; injection e with e; subst e))
  all_goals with_reducible repeat' (first
      | assumption | apply quiet_gateAll | apply quiet_setRegF | apply quiet_setSleep | apply quiet_id | apply quiet_foldl
      | apply quiet_foldr | apply quiet_ite | split | intro _ | dsimp only)

theorem quiet_execCxlConfigRequest {s₀ : State} {a1 : Fin 2} {s : State} {t : State} (e : execCxlConfigRequest a1 s = .next t) (h2 : Quiet s₀ s) : Quiet s₀ t := by
  unfold execCxlConfigRequest at e
  try dsimp only at e
  first
  | refine quiet_act e (by assumption) ?_
  | (injection e with e; subst e)
  | (revert e; repeat' (split); all_goals (intro e; injection e with e; subst e))
  all_goals with_reducible repeat' (first
      | assumption | apply quiet_emit | apply quiet_count | apply quiet_id | apply quiet_foldl | apply quiet_foldr | apply quiet_ite
      | split | intro _ | dsimp only)

theorem quiet_execManagementLinkChange {s₀ : State} {a1 : Fin 2} {a2 : Bool} {s : State} {t : State} (e : execManagementLinkChange a1 a2 s = .next t) (h3 : Quiet s₀ s) : Quiet s₀ t := by
  unfold execManagementLinkChange at e
  try dsimp only at e
  first
  | refine quiet_act e (by assumption) ?_
  | (injection e with e; subst e)
  | (revert e; repeat' (split); all_goals (intro e; injection e with e; subst e))
  all_goals with_reducible repeat' (first
      | assumption | apply quiet_setRegF | apply quiet_id | apply quiet_foldl | apply quiet_foldr | apply quiet_ite | split | intro _
      | dsimp only)

theorem quiet_execManagementFrameDrop {s₀ : State} {a1 : Fin 2} {s : State} {t : State} (e : execManagementFrameDrop a1 s = .next t) (h2 : Quiet s₀ s) : Quiet s₀ t := by
  unfold execManagementFrameDrop at e
  try dsimp only at e
  first
  | refine quiet_act e (by assumption) ?_
  | (injection e with e; subst e)
  | (revert e; repeat' (split); all_goals (intro e; injection e with e; subst e))
  all_goals with_reducible repeat' (first
      | assumption | apply quiet_count | apply quiet_id | apply quiet_foldl | apply quiet_foldr | apply quiet_ite | split | intro _
      | dsimp only)

end Sys2Proof.Machine
end

