-- ==== Sys2Proof/Laws/Ready.lean ====
section
/-! SUPPORT. Steps that wait until lines can be read, and steps of a program: what each is once it can go on. -/

namespace Sys2Proof.Machine

theorem whenReady_run {s : State} {ag : Agent} {fill : Bool} {x : List (Nat × Nat)} {f : State → State} (h : AllReady s ag fill x) :
    s.whenReady ag fill x f = Taken (f s) ag x := by
  unfold State.whenReady AllReady at *
  rw [if_pos h]
  rfl

theorem whenReadable_run {s : State} {l : List Nat} {f : State → State} (h : l.all s.readable = true) :
    s.whenReadable l f = f (l.foldl (fun s l => (s.checkBits l .device).t1Find (64 * l) (ueWho 0 s.node)) s) := by
  unfold State.whenReadable
  simp [h]

theorem meStep_run {s : State} {e kind p : Nat} {c : Cmd} {f : Nat → Cmd → List Nat → State → State} (h : AtStep s e kind p c) :
    s.meStep e kind f = f p c (c.desc c.progress) s := by
  unfold State.meStep
  rw [h.program]
  dsimp only
  rw [if_neg (by simp [h.free]), if_neg (by simp [h.goesOn]), if_neg (by simp [h.unmarked, h.undue]), if_pos h.kind]

theorem afterScope_run {s t : State} {p : Nat} {c : Cmd} {k : State → State} (h : ScopeDone s p c t) : s.afterScope p c k = k t := by
  unfold State.afterScope
  rcases h with ⟨a, b⟩ | ⟨w, l, a, b, d, e⟩
  · rw [if_pos a, b]
  · rw [if_neg a]
    simp only [← b]
    rw [← d, if_pos e]

theorem gcInstr_run {s : State} {g p w len : Nat} {row : GcRow} {c : Cmd} {f : Nat → Cmd → Nat → State → State} (h : AtInstr s g row p c w len) :
    s.gcInstr g row f = f p c w s := by
  unfold State.gcInstr State.gcStep
  rw [h.run]
  dsimp only
  rw [if_neg (by simp [h.goesOn]), h.instr]
  dsimp only
  rw [if_pos h.row, if_neg (show ¬c.mustStop = true by simp [h.unstopped]), if_neg (show ¬((s.marked .gc g || (s.atFault p c).isSome) = true) by simp [h.unmarked, h.unfaulted])]
  exact ite_self _

theorem coreRelease_run {s t : State} {p g : Nat} {c : Cmd} {k : State → State} (h : Released s p c g true t) : s.coreRelease p c g k = k t := by
  rcases h with h | h
  · exact absurd h.1 (by decide)
  · unfold State.coreRelease
    rw [← h.2.1]
    unfold State.unlessEnding
    rw [if_neg (by simp [h.2.2.1])]
    exact if_pos h.2.2.2

theorem released_run {s t : State} {p g : Nat} {c : Cmd} {rl : Bool} {k : State → State} (h : Released s p c g rl t) :
    (if rl then s.coreRelease p c g k else k s) = k t := by
  cases rl with
  | true => rw [if_pos rfl, coreRelease_run h]
  | false =>
    rcases h with h | h
    · rw [h.2]; rfl
    · exact absurd h.1 (by decide)

/-- An atomic on a T0 line of a page the partition owns executes at once (R110, R123). -/
theorem atomic_t0 {s u v : State} {p g phys code x cmp w : Nat} {op : AtomOp} {c : Cmd} (hu : u = s.cleanLines p c g (fun d => decide (d.addr = phys / 64 * 64)) true)
    (he : (u.core g).ending = none) (hv : v = (u.t0FindWord (phys - t0Flag)).t0Line (phys - t0Flag) true (.ofPart p)) (h0 : isT0 (phys / 64 * 64) = true) (m : u.mayTouch p (phys / 64 * 64) = true) (ho : AtomOp.ofAny code = some (op, w)) :
    Atomic s p c g phys code x cmp (u.t0Read (phys - t0Flag) (w / 8))
      (match op.apply w (u.t0Read (phys - t0Flag) (w / 8)) x cmp with
        | some y => v.t0Put ((phys - t0Flag) / 64) ((2 ^ (w / 8) - 1) * 2 ^ ((phys - t0Flag) % 64)) (y * 2 ^ (8 * ((phys - t0Flag) % 64))) false
        | none => v) := by
  intro k
  unfold State.atomicHome
  dsimp only
  rw [← hu]
  unfold State.unlessEnding
  rw [if_neg (by simp [he])]
  dsimp only
  rw [if_pos h0, if_neg (by simp [m]), ho]
  dsimp only
  rw [← hv]
  cases op.apply w (u.t0Read (phys - t0Flag) (w / 8)) x cmp <;> rfl

theorem unitStep_run {s : State} {p chute seq opcode : Nat} {kind : UnitKind} {c : Cmd} {stops : Cmd → Bool} {stopped work : State → Cmd → State}
    (h : AtUnit s p chute seq opcode kind c) : s.unitStep p chute seq opcode kind stops stopped work = work s c := by
  unfold State.unitStep
  rw [h.command]
  dsimp only
  rw [if_neg (by simp [h.opcode, h.runs]), if_neg (by simp [h.goesOn]), if_neg (by simp [h.unmarked]), h.unfaulted]
  rfl

/-- A row command that has begun does its work (R263). -/
theorem rowStep_work {s : State} {p chute seq opcode : Nat} {c : Cmd} {mine stops : Cmd → Bool} {start work : State → Cmd → State}
    (h : AtUnit s p chute seq opcode .row c) (m : mine c = true) (a : c.aux ≠ []) :
    s.rowStep p chute seq opcode mine stops start work = work s c := by
  unfold State.rowStep
  rw [unitStep_run h]
  rw [if_neg (by simp [m]), if_pos (by simp [a])]

/-- A row command whose table may be used begins (R263, R266, R287). -/
theorem rowStep_start {s : State} {p chute seq opcode : Nat} {c : Cmd} {mine stops : Cmd → Bool} {start work : State → Cmd → State}
    (h : AtUnit s p chute seq opcode .row c) (m : mine c = true) (a : c.aux = []) (k : s.converting p c = false) (o : c.table.ok = true) :
    s.rowStep p chute seq opcode mine stops start work = start s c := by
  unfold State.rowStep
  rw [unitStep_run h]
  rw [if_neg (by simp [m]), if_neg (by simp [a]), if_neg (by simp [k]), if_neg (by simp [o])]

theorem onSync_run {s t : State} {k : Packet} {typ : Nat} {f : State → State} (h : k.isSync typ = true) (e : Enters s k t) : s.onSync k typ f = f t := by
  obtain ⟨u, hu, v, ht⟩ := e
  unfold State.onSync State.windowed
  rw [if_pos h]
  dsimp only
  rw [← hu, v]
  dsimp only
  rw [ht]

theorem syncStep_run {s : State} {p chute seq op : Nat} {c : Cmd} {f : State → Cmd → State} (h : s.running p chute seq = some c) (o : c.opcode = op) :
    s.syncStep p chute seq op f = f s c := by
  unfold State.syncStep
  rw [h]
  dsimp only
  rw [if_pos o]

theorem work_run {s t : State} {w : Work Unit} (h : Does s w t) : s.work w = t := by
  unfold State.work
  unfold Does at h
  rw [h]

/-- The first part of a piece of work is done, and the rest follows. -/
theorem work_bind {α β : Type} {s u : State} {a : α} {w : Work α} {f : α → Work β} (h : w s = .ok (a, u)) : (w >>= f) s = f a u := by
  show StateT.bind w f s = _
  unfold StateT.bind
  rw [h]
  rfl

/-- A change of the state as the first part of a piece of work. -/
theorem work_act_bind {β : Type} {s : State} {g : State → State} {f : Unit → Work β} : (Work.act g >>= f) s = f () (g s) := work_bind rfl

/-- A Winnower command of a loaded index that has begun does its work (R294, R311). -/
theorem winStep_work {s : State} {p chute seq opcode : Nat} {c : Cmd} {x : VecIndex} {stops : Cmd → Bool} {stopped : State → Cmd → State}
    {start work : State → Cmd → VecIndex → State} (h : AtUnit s p chute seq opcode .win c) (i : s.indexOf p c = some x) (a : c.aux ≠ []) :
    s.winStep p chute seq opcode stops stopped start work = work s c x := by
  unfold State.winStep
  rw [unitStep_run h]
  simp only [i]
  rw [if_neg (by simp [a])]

/-- One that has not begun makes its checks. -/
theorem winStep_start {s : State} {p chute seq opcode : Nat} {c : Cmd} {x : VecIndex} {stops : Cmd → Bool} {stopped : State → Cmd → State}
    {start work : State → Cmd → VecIndex → State} (h : AtUnit s p chute seq opcode .win c) (i : s.indexOf p c = some x) (a : c.aux = []) :
    s.winStep p chute seq opcode stops stopped start work = start s c x := by
  unfold State.winStep
  rw [unitStep_run h]
  simp only [i]
  rw [if_pos (by simp [a])]

/-- A transfer message is served, but on a port's data-object mailbox in recovery (R433). -/
theorem served_run {s : State} {tr : Transport} {f : State → State} (h : s.boot.recovery = false ∨ ∀ x, tr ≠ .doe x) : s.served tr f = f s := by
  unfold State.served
  cases tr with
  | doe x =>
    rcases h with h | h
    · simp [h]
    · exact absurd rfl (h x)
  | _ => rfl

end Sys2Proof.Machine
end

