-- ==== Sys2Proof/Laws/Steady.lean ====
section
/-! SUPPORT. Resets, boots, fatal errors and the tick keep the queue of waiting commands, the order of the fuses and the canonical forms, and so
does every other command, being calm. -/

namespace Sys2Proof.Machine

set_option simprocs false

theorem FusesKept.refl (s : State) : FusesKept s s := ⟨rfl, rfl, rfl, rfl, rfl, Nat.le_refl _, Nat.le_refl _, rfl⟩

theorem FusesKept.trans {a b c : State} (h : FusesKept a b) (k : FusesKept b c) : FusesKept a c :=
  ⟨k.uid.trans h.uid, k.imageKeys.trans h.imageKeys, k.revoked.trans h.revoked, k.contentKey.trans h.contentKey, k.debugKey.trans h.debugKey,
    Nat.le_trans h.floor k.floor, Nat.le_trans h.coarse k.coarse, k.seed.trans h.seed⟩

theorem FusesKept.of_eq {s t : State} (h : t.fuses = s.fuses) : FusesKept s t := by
  rcases t with ⟨⟩
  cases h
  exact ⟨rfl, rfl, rfl, rfl, rfl, Nat.le_refl _, Nat.le_refl _, rfl⟩

theorem Steady.refl (s : State) : Steady s s := ⟨rfl, FusesKept.refl s, id⟩

theorem Steady.trans {a b c : State} (h : Steady a b) (k : Steady b c) : Steady a c :=
  ⟨k.pending.trans h.pending, h.fuses.trans k.fuses, fun x => k.canonical (h.canonical x)⟩

theorem Calm.steady {s t : State} (h : Calm s t) : Steady s t := ⟨h.pending, FusesKept.of_eq h.fuses, h.canonical⟩

/-- After a steady step, a calm one. -/
theorem Steady.calm {a b c : State} (h : Steady a b) (k : Calm b c) : Steady a c := h.trans k.steady

/-- An update that touches none of what they speak of. -/
theorem Steady.upd {s t u : State} (h : Steady s t) (e1 : u.pending = t.pending) (e2 : u.fuses = t.fuses) (e3 : u.regs = t.regs)
    (e4 : u.t1 = t.t1) (e5 : u.t0 = t.t0) (e6 : u.parts = t.parts) : Steady s u := by
  refine h.trans ⟨e1, FusesKept.of_eq e2, fun c => ?_⟩
  unfold Canonical at c ⊢
  rw [e3, e4, e5, e6]
  exact c

theorem steady_ite {s : State} {c : Prop} [Decidable c] {a b : State} (h : c → Steady s a) (k : ¬c → Steady s b) :
    Steady s (if c then a else b) := by
  split
  · exact h ‹_›
  · exact k ‹_›

theorem canonical_reset : Canonical State.reset := ⟨rfl, rfl, rfl, rfl⟩

theorem steady_fatal (s : State) (cause tiles : Nat) : Steady s (s.fatal cause tiles) := by
  unfold State.fatal
  extract_lets s1 s2 s3
  have h1 : Calm s s1 := calm_report (Calm.refl s)
  have h2 : Calm s s2 := calm_foldl h1 (fun _ _ k => calm_setRegF (calm_setRegF k))
  have h3 : Calm s s3 := calm_foldl h2 (fun _ _ k => calm_setReg k)
  clear_value s3
  exact h3.steady.upd rfl rfl rfl rfl rfl rfl

theorem steady_coldReset (s : State) : Steady s s.coldReset := by
  unfold State.coldReset
  extract_lets low c f t1 t2
  have h1 : Steady s t1 := ⟨rfl, FusesKept.of_eq rfl, fun _ => canonical_reset⟩
  clear_value t1
  have h2 : Calm t1 t2 := calm_setReg (Calm.refl t1)
  clear_value t2
  exact h1.calm (calm_foldl h2 (fun _ _ k => calm_ite (fun _ => calm_setRegF k) (fun _ => k)))

theorem steady_warmReset (s : State) (kind level token : Nat) : Steady s (s.warmReset kind level token) := by
  unfold State.warmReset
  extract_lets cause c e f t1 t2 t3 t4 t5 t6 t7
  have h0 := steady_coldReset s
  have h1 : Steady s t1 := h0.upd rfl rfl rfl rfl rfl rfl
  clear_value t1
  have h2 : Calm t1 t2 := calm_setReg64 (calm_modBoot (Calm.refl t1))
  clear_value t2
  have h3 : Calm t1 t3 := calm_setRegN h2
  clear_value t3
  have h4 : Calm t1 t4 := calm_setRegF (calm_setRegF (calm_foldl h3 (fun _ _ k => calm_setRegF (calm_setRegF k))))
  clear_value t4
  have h5 : Calm t1 t5 := calm_setRegN h4
  clear_value t5
  have h6 : Calm t1 t6 := calm_foldl h5 (fun _ _ k => calm_setRegF k)
  clear_value t6
  have h7 : Calm t1 t7 := calm_setRegN h6
  clear_value t7
  exact h1.calm (calm_setDebugLevel (calm_setRegN h7))

theorem steady_configure (s : State) (c : BootConfig) : Steady s (s.configure c) := by
  unfold State.configure
  extract_lets s1 s2 s3 map s4 s5
  have h1 : Calm s s1 := calm_modBoot (Calm.refl s)
  clear_value s1
  have h2 : Calm s s2 := calm_setRegN (calm_setRegF h1)
  clear_value s2
  have h3 : Calm s s3 := calm_setRegN h2
  clear_value s3
  have h4 : Calm s s4 := calm_setRegN (calm_setRegN h3)
  clear_value s4
  have h5 : Calm s s5 := calm_setRegF h4
  clear_value s5
  exact h5.steady.upd rfl rfl rfl rfl rfl rfl

theorem steady_recover (s : State) (r0 r1 : Nat) : Steady s (s.recover r0 r1) := by
  unfold State.recover
  extract_lets s1 s0 u addr s2 s3
  have h1 : Calm s s1 := calm_modBoot (Calm.refl s)
  clear_value s1
  have h0 : Calm s s0 := calm_foldl h1 (fun _ _ k => calm_ite (fun _ => k) (fun _ => calm_resetCxlPort k))
  clear_value s0
  have h2 : Steady s s2 := h0.steady.upd rfl rfl rfl rfl rfl rfl
  clear_value s2
  have h3 : Calm s2 s3 := calm_setRegF (Calm.refl s2)
  clear_value s3
  exact h2.calm (calm_report (calm_report h3))

theorem steady_commitTrial (s : State) (img : List Nat) : Steady s (s.commitTrial img) := by
  unfold State.commitTrial
  split
  · have h : Calm s (s.modBoot (fun b => { b with slot := b.booted, trial := none, trialCount := 0, trialReason := 0, onTrial := false })) :=
      calm_modBoot (Calm.refl s)
    extract_lets s1
    have h1 : Calm s s1 := h
    clear_value s1
    split
    · exact h1.steady.trans ⟨rfl, ⟨rfl, rfl, rfl, rfl, rfl, Nat.le_max_left _ _, Nat.le_refl _, rfl⟩, id⟩
    · exact h1.steady
  · exact Steady.refl s

theorem steady_resumeLeaf (s : State) : Steady s s.resumeLeaf := by
  unfold State.resumeLeaf
  split
  · exact (calm_setLeaf (Calm.refl s)).steady
  · refine steady_ite (fun _ => steady_ite (fun _ => (calm_leafLow (calm_setLeaf (Calm.refl s))).steady) (fun _ => (calm_setLeaf (Calm.refl s)).steady))
      (fun _ => steady_ite (fun _ => (calm_leafLow (calm_setLeaf (Calm.refl s))).steady) (fun _ => ?_))
    refine Steady.calm (b := _) ?_ (calm_leafLow (calm_setLeaf (Calm.refl _)))
    exact ⟨rfl, ⟨rfl, rfl, rfl, rfl, rfl, Nat.le_refl _, Nat.le_succ _, rfl⟩, id⟩

theorem steady_bootFrom (s : State) (slot : Nat) (cfg : BootConfig) (run : BootRun) (fell : List (Nat × Nat)) :
    Steady s (s.bootFrom slot cfg run fell) := by
  unfold State.bootFrom
  extract_lets img s1 params s2 s3 s4 s5 s6
  have h1 : Calm s s1 := calm_measure (Calm.refl s)
  clear_value s1
  have h2 : Calm s s2 := calm_modBoot h1
  clear_value s2
  have h3 : Calm s s3 := calm_setRegN (calm_setRegN h2)
  clear_value s3
  have h4 : Calm s s4 := calm_setRegF h3
  clear_value s4
  have h5 : Steady s s5 := h4.steady.trans (steady_configure s4 cfg)
  clear_value s5
  have h6 : Steady s s6 := h5.calm (calm_foldl (Calm.refl s5) (fun _ _ k => calm_fellBack k))
  clear_value s6
  split
  rename_i k s7 e
  have h7 : Steady s s7 := h6.calm (calm_draw e (Calm.refl s6))
  extract_lets s8 s9 s10 s11 s12 s13 s14 s15
  have h8 : Steady s s8 := (h7.calm (calm_modBoot (Calm.refl s7))).trans (steady_resumeLeaf _)
  clear_value s8
  refine steady_ite (fun _ => h8) (fun _ => ?_)
  have h9 : Calm s8 s9 := calm_foldl (Calm.refl s8) (fun _ _ k => calm_setRegF k)
  clear_value s9
  have h10 : Calm s8 s10 := calm_ite (fun _ => calm_foldl h9 (fun _ _ k => calm_setRegF k)) (fun _ => h9)
  clear_value s10
  have h11 : Calm s8 s11 := calm_restoreQuarantine h10
  clear_value s11
  have h12 : Calm s8 s12 := calm_foldl h11 (fun _ _ k => calm_ite (fun _ => k) (fun _ => calm_setRegF k))
  clear_value s12
  have h13 : Calm s8 s13 := calm_trainLoft (calm_trainPorts h12)
  clear_value s13
  have h14 : Steady s s14 := ((h8.calm h13).calm (calm_modBoot (Calm.refl s13))).trans (steady_commitTrial _ img)
  clear_value s14
  have h15 : Calm s14 s15 := calm_setRegN (Calm.refl s14)
  clear_value s15
  exact h14.calm (calm_report h15)

theorem steady_useToken (s : State) (token : List Nat) : Steady s (s.useToken token) := by
  unfold State.useToken
  extract_lets digest old s1
  have h1 : Calm s s1 := calm_setReg64 (Calm.refl s)
  exact steady_ite (fun _ => h1.steady.trans (steady_warmReset s1 5 3 digest))
    (fun _ => h1.steady.calm (calm_setDebugLevel (Calm.refl _)))

theorem steady_tick (s : State) : Steady s s.tick := by
  unfold State.tick
  refine steady_ite (fun _ => Steady.refl s) (fun _ => ?_)
  dsimp only
  have h : Steady s { s with lcc := (s.lcc + 1) % 2 ^ 64 } := ⟨rfl, FusesKept.of_eq rfl, id⟩
  exact steady_ite (fun _ => h) (fun _ => h.calm (calm_foldl (calm_releaseTags (calm_finishLoads (calm_cycleCounters (Calm.refl _)))) (fun _ _ k => calm_clearTable k)))

/-! ### Commands -/

theorem steady_act {s t : State} {f : State → State} (e : act s f = .next t) (k : Steady s (f s)) : Steady s t := by
  unfold act at e
  injection e with e
  subst e
  exact steady_ite (fun _ => Steady.refl s) (fun _ => k)

theorem steady_effect {s₀ : State} {f : State → Res} {s : State} (k : ∀ y t, f y = .next t → Steady s₀ y → Steady s₀ t) (h : Steady s₀ s) :
    Steady s₀ (effect f s) := by
  unfold effect
  split
  · next t e => exact k _ _ e h
  · exact h

theorem steady_onBit {s₀ : State} {v : Word} {b : Nat} {f : State → Res} {s : State} (k : ∀ y t, f y = .next t → Steady s₀ y → Steady s₀ t)
    (h : Steady s₀ s) : Steady s₀ (onBit v b f s) := by
  unfold onBit
  exact steady_ite (fun _ => steady_effect k h) (fun _ => h)

theorem steady_access {s : State} {rq : Requester} {a : Nat} {f : State → State} (k : Steady s (f s)) : Steady s (s.access rq a f) := by
  unfold State.access
  split
  · exact k
  · exact (calm_violateReg (Calm.refl s)).steady

theorem steady_served {s : State} {tr : Transport} {f : State → State} (k : Steady s (f s)) : Steady s (s.served tr f) := by
  unfold State.served
  split
  · exact steady_ite (fun _ => Steady.refl s) (fun _ => k)
  · exact k

theorem steady_execPowerLoss {s t : State} (e : execPowerLoss s = .next t) : Steady s t := by
  unfold execPowerLoss at e
  injection e with e
  subst e
  exact (steady_coldReset s).upd rfl rfl rfl rfl rfl rfl

theorem steady_execColdReset {s t : State} (e : execColdReset s = .next t) : Steady s t := by
  unfold execColdReset at e
  injection e with e
  subst e
  exact steady_coldReset s

theorem steady_execWarmReset {b : Option (Requester × Word)} {s t : State} (e : execWarmReset b s = .next t) : Steady s t := by
  unfold execWarmReset at e
  split at e
  · injection e with e
    subst e
    exact steady_ite (fun _ => Steady.refl s) (fun _ => steady_warmReset s 2 0 0)
  · exact steady_act e (steady_access (steady_warmReset s 3 0 0))

theorem steady_execBoot {c : BootConfig} {r : BootRun} {s t : State} (e : execBoot c r s = .next t) : Steady s t := by
  refine steady_act e (steady_ite (fun _ => Steady.refl s) (fun _ => ?_))
  extract_lets s1 check s2 a
  have h1 : Calm s s1 := calm_nextIncarnation (calm_modBoot (Calm.refl s))
  have h2 : Calm s s2 := calm_setRegF (calm_modBoot h1)
  clear_value check
  clear_value a
  clear_value s2
  clear_value s1
  split
  · extract_lets s3
    have h2 : Calm s s3 := calm_modBoot h1
    clear_value s3
    exact steady_ite (fun _ => h2.steady.trans (steady_bootFrom s3 _ _ _ _)) (fun _ => (calm_modBoot h2).steady)
  · extract_lets fell
    refine steady_ite (fun _ => h2.steady.trans (steady_bootFrom s2 _ _ _ _)) (fun _ => ?_)
    refine steady_ite (fun _ => h2.steady.trans (steady_bootFrom s2 _ _ _ _)) (fun _ => ?_)
    exact (calm_foldl h2 (fun _ _ k => calm_fellBack k)).steady.trans (steady_recover _ _ _)

theorem steady_execBootWatchdog {s t : State} (e : execBootWatchdog s = .next t) : Steady s t := by
  refine steady_act e (steady_ite (fun _ => ?_) (fun _ => Steady.refl s))
  exact (calm_modBoot (Calm.refl s)).steady.trans (steady_warmReset _ 4 0 0)

theorem steady_execRelock {rq : Requester} {v : Word} {s t : State} (e : execRelock rq v s = .next t) : Steady s t := by
  refine steady_act e (steady_access ?_)
  split
  · exact (calm_setDebugLevel (Calm.refl s)).steady
  · exact steady_warmReset s 5 0 0
  · exact Steady.refl s

theorem steady_execDebugToken {l : List Byte} {b : Bool} {s t : State} (e : execDebugToken l b s = .next t) : Steady s t :=
  steady_act e (steady_ite (fun _ => steady_useToken s _) (fun _ => Steady.refl s))

theorem steady_execFatalError {c : Fin 3} {n : Nat} {s t : State} (e : execFatalError c n s = .next t) : Steady s t :=
  steady_act e (steady_fatal s _ _)

theorem steady_execPackageNetworkReplay {k d : Fin 10} {r : BitVec 5} {s t : State} (e : execPackageNetworkReplay k d r s = .next t) :
    Steady s t := by
  refine steady_act e ?_
  extract_lets s1
  have h1 : Calm s s1 := calm_ite (fun _ => calm_count (Calm.refl s)) (fun _ => Calm.refl s)
  clear_value s1
  exact steady_ite (fun _ => h1.steady.trans (steady_fatal s1 _ _)) (fun _ => h1.steady)

theorem steady_execObjEnd {tr : Transport} {i : BitVec 16} {k : BitVec 8} {b : Bool} {s t : State} (e : execObjEnd tr i k b s = .next t) :
    Steady s t := by
  refine steady_act e ?_
  refine steady_served ?_
  extract_lets n s1 slot
  split
  · exact (calm_answerEnd (Calm.refl s)).steady
  · refine steady_ite (fun _ => (calm_answerEnd (calm_setXfer (Calm.refl s))).steady) (fun _ => ?_)
    refine steady_ite (fun _ => (calm_answerEnd (calm_setXfer (Calm.refl s))).steady) (fun _ => ?_)
    extract_lets r1 s2 s3 r2
    have h1 : Calm s s1 := calm_setXfer (Calm.refl s)
    have h3 : Calm s s3 := calm_answerEnd (calm_modBoot h1)
    clear_value s3
    clear_value s2
    clear_value r1
    clear_value r2
    clear_value slot
    clear_value s1
    clear_value n
    split
    · refine steady_ite (fun _ => ?_) (fun _ => ?_)
      · exact steady_ite (fun _ => h3.steady.trans (steady_warmReset s3 3 0 0)) (fun _ => h3.steady)
      · exact (calm_answerEnd (calm_cause (calm_report h1))).steady
    · exact (calm_answerEnd (calm_installPackage h1)).steady
    · exact (calm_setRegF (calm_modBoot (calm_setShadow h1))).steady
    · exact steady_ite (fun _ => (calm_answerEnd h1).steady.trans (steady_useToken _ _)) (fun _ => (calm_answerEnd h1).steady)

/-! ### Register writes -/

theorem steady_actRng {s : State} {rq : Requester} {o : Nat} {v : Word} : Steady s (s.actRng rq o v) := by
  unfold State.actRng
  refine steady_ite (fun _ => ?_) (fun _ => steady_ite (fun _ => ?_) (fun _ => steady_ite (fun _ => ?_) (fun _ => steady_ite (fun _ => ?_)
    (fun _ => steady_ite (fun _ => ?_) (fun _ => steady_ite (fun _ => ?_) (fun _ => ?_))))))
  · exact (calm_ite (fun _ => calm_effect (fun _ _ e h => calm_execAdmitPartition e h) (Calm.refl s)) (fun _ => calm_ite
      (fun _ => calm_effect (fun _ _ e h => calm_execReleasePartition e h) (Calm.refl s)) (fun _ => calm_store (Calm.refl s)))).steady
  · exact (calm_onBit (fun _ _ e h => calm_execViolClear e h) (Calm.refl s)).steady
  · exact (calm_onBit (fun _ _ e h => calm_execFtCancel e h) (calm_onBit (fun _ _ e h => calm_execFtGo e h) (calm_store (Calm.refl s)))).steady
  · exact steady_onBit (fun _ _ e h => h.trans (steady_execWarmReset e))
      (calm_onBit (fun _ _ e h => calm_execUnitReset e h) (calm_store (Calm.refl s))).steady
  · exact (calm_onBit (fun _ _ e h => calm_execRunNode e h) (calm_onBit (fun _ _ e h => calm_execStandby e h) (Calm.refl s))).steady
  · exact steady_onBit (fun _ _ e h => h.trans (steady_execRelock e))
      (calm_onBit (fun _ _ e h => calm_execNewChallenge e h) (Calm.refl s)).steady
  · exact (calm_store (Calm.refl s)).steady

theorem steady_writeOne {s : State} {rq : Requester} {a : Nat} {v : Word} : Steady s (s.writeOne rq a v) := by
  have c := Calm.refl s
  unfold State.writeOne
  split
  · exact steady_actRng
  · exact (calm_ite (fun _ => calm_onBit (fun _ _ e h => calm_execSetTrial e h) (calm_store c)) (fun _ => calm_ite
      (fun _ => calm_onBit (fun _ _ e h => calm_execSwap e h) c) (fun _ => calm_store c))).steady
  · exact (calm_ite (fun _ => calm_onBit (fun _ _ e h => calm_execMirrorClear e h) (calm_onBit (fun _ _ e h => calm_execMirrorRebuild e h)
      (calm_onBit (fun _ _ e h => calm_execMirrorDetach e h) (calm_onBit (fun _ _ e h => calm_execMirrorCommit e h) c)))) (fun _ => calm_storeAt c)).steady
  · exact (calm_ite (fun _ => calm_effect (fun _ _ e h => calm_execDirHostLostGo e h) c) (fun _ => calm_store c)).steady
  · exact (calm_ite (fun _ => calm_onBit (fun _ _ e h => calm_execWinUnquarantine e h) (calm_onBit (fun _ _ e h => calm_execWinQuarantine e h) c))
      (fun _ => calm_store c)).steady
  · exact (calm_ite (fun _ => calm_onBit (fun _ _ e h => calm_execRowUnquarantine e h) (calm_onBit (fun _ _ e h => calm_execRowQuarantine e h) c))
      (fun _ => calm_store c)).steady
  · exact (calm_ite (fun _ => calm_onBit (fun _ _ e h => calm_execMeUnquarantine e h) (calm_onBit (fun _ _ e h => calm_execMeQuarantine e h) c))
      (fun _ => calm_store c)).steady
  · exact (calm_ite (fun _ => calm_onBit (fun _ _ e h => calm_execGcUnquarantine e h) (calm_onBit (fun _ _ e h => calm_execGcQuarantine e h) c))
      (fun _ => calm_store c)).steady
  · exact (calm_ite (fun _ => calm_onBit (fun _ _ e h => calm_execTallyScan e h) (calm_onBit (fun _ _ e h => calm_execTallyStart e h)
      (calm_onBit (fun _ _ e h => calm_execTallyStop e h) (calm_onBit (fun _ _ e h => calm_execTallyClear e h) c)))) (fun _ => calm_storeAt c)).steady
  · exact (calm_ite (fun _ => calm_writeLinkCtrl c) (fun _ => calm_store c)).steady
  · exact (calm_ite (fun _ => calm_onBit (fun _ _ e h => calm_execLoftChannelReset e h) (calm_onBit (fun _ _ e h => calm_execLoftChannelRetire e h) c))
      (fun _ => calm_store c)).steady
  · exact (calm_actPart c).steady
  · refine steady_ite (fun _ => ?_) (fun _ => steady_ite (fun _ => ?_) (fun _ => steady_ite (fun _ => ?_) (fun _ => steady_ite (fun _ => ?_)
      (fun _ => steady_ite (fun _ => ?_) (fun _ => ?_)))))
    · exact (calm_ite (fun _ => calm_effect (fun _ _ e h => calm_execSclClear e h) c) (fun _ => calm_store c)).steady
    · exact (calm_onBit (fun _ _ e h => calm_execClearAll e h) (calm_onBit (fun _ _ e h => calm_execStopAll e h)
        (calm_onBit (fun _ _ e h => calm_execStartAll e h) c))).steady
    · exact (calm_effect (fun _ _ e h => calm_execSclEvselWrite e h) c).steady
    · exact (calm_effect (fun _ _ e h => calm_execSamplingEnable e h) c).steady
    · exact (calm_onBit (fun _ _ e h => calm_execSclSmpPop e h) c).steady
    · exact (calm_store c).steady
  · exact (calm_store c).steady

theorem steady_writeAny {s : State} {rq : Requester} {a : Nat} {v : Word} : Steady s (s.writeAny rq a v) := by
  unfold State.writeAny
  split
  · exact steady_writeOne
  · exact (calm_writeLow (Calm.refl s)).steady
  · exact (calm_writeHigh (Calm.refl s)).steady

theorem steady_busWrite {s : State} {rq : Requester} {a : Nat} {be : BitVec 4} {f : Nat → State → State} {g : Nat → CxlPart → Nat → State → State}
    (h : ∀ x, Steady s (f x s)) (k : ∀ x y z, Steady s (g x y z s)) : Steady s (s.busWrite rq a be f g) := by
  unfold State.busWrite
  refine steady_ite (fun _ => (calm_violateReg (Calm.refl s)).steady) (fun _ => ?_)
  split
  · exact k _ _ _
  · exact steady_ite (fun _ => h _) (fun _ => (calm_violateReg (Calm.refl s)).steady)

theorem steady_execRegisterPairLowWrite {rq : Requester} {a v : Word} {be : BitVec 4} {s t : State}
    (e : execRegisterPairLowWrite rq a v be s = .next t) : Steady s t :=
  steady_act e (steady_busWrite (fun _ => steady_writeAny) (fun _ _ _ => (calm_writeCxl (Calm.refl s)).steady))

theorem steady_execRegisterPairHighWrite {rq : Requester} {a v : Word} {be : BitVec 4} {s t : State}
    (e : execRegisterPairHighWrite rq a v be s = .next t) : Steady s t :=
  steady_act e (steady_busWrite (fun _ => steady_writeAny) (fun _ _ _ => (calm_writeCxl (Calm.refl s)).steady))

theorem steady_execRegisterWrite {rq : Requester} {a v : Word} {be : BitVec 4} {s t : State}
    (e : execRegisterWrite rq a v be s = .next t) : Steady s t :=
  steady_act e (steady_busWrite (fun _ => steady_writeAny) (fun _ _ _ => (calm_writeCxl (Calm.refl s)).steady))

end Sys2Proof.Machine
end

