-- ==== Sys2Proof/WellFormed.lean ====
section
/-! DEFINITION. Which commands are well formed: the fields of packets, flits and requests fit the widths the spec gives them, lists have the
lengths it gives, units exist. Every other operand is bounded by its type. -/

namespace Sys2Proof.Machine

/-- The unit kinds' instances (R10). -/
def UnitKind.instances : UnitKind → Nat
  | .me => 32 | .gc => 64 | .win => 16 | .row => 16

/-- A packet's header fields fit (R236), and every word has 32 bits. -/
def Packet.ok (k : Packet) : Bool :=
  decide (k.dst < 2 ^ 12 ∧ k.src < 2 ^ 12 ∧ k.tc < 8 ∧ k.vc < 2 ∧ k.rail < 2 ∧ k.srcInc < 2 ^ 16)
    && decide (k.proto < 16 ∧ k.len < 16 ∧ k.tkind < 4 ∧ k.lineOff < 64 ∧ k.seq < 2 ^ 32)
    && decide (k.dstCell < 2 ^ 10 ∧ k.srcCell < 2 ^ 10 ∧ k.ncons < 16 ∧ k.hops < 2 ^ 8 ∧ k.srcPart < 32 ∧ k.msgId < 2 ^ 32)
    && k.body.all (fun w => decide (w < 2 ^ 32))

/-- A fabric request names a class, a node and words that exist (R226). -/
def FabReq.ok (r : FabReq) : Bool :=
  decide (r.tc < 8 ∧ r.dst < 2 ^ 12 ∧ r.addr < 2 ^ 52 ∧ r.len < 16) && r.body.all (fun w => decide (w < 2 ^ 32))

/-- A source names a partition, port, node or chute that exists. -/
def Source.ok : Source → Bool
  | .host p _ => decide (p < 32)
  | .fmHost h _ => decide (h < 2)
  | .peer n c q => decide (n < 2 ^ 12 ∧ c < 8 ∧ q < 2 ^ 32)
  | .unit p c q => decide (p < 32 ∧ c < 64 ∧ q < 2 ^ 32)
  | .device => true

/-- A unit that waits exists. -/
def SemWaiter.ok : SemWaiter → Bool
  | .cmd p c q => decide (p < 32 ∧ c < 64 ∧ q < 2 ^ 32)
  | .me e => decide (e < 32)
  | .core g => decide (g < 64)

/-- A DPA range is whole lines and not empty. -/
def Range.ok (r : Range) : Bool := decide (0 < r.size) && decide (r.base % 64 = 0) && decide (r.size % 64 = 0)

end Sys2Proof.Machine

namespace Sys2Proof

open Sys2Proof.Machine

/-- Is a command well formed? -/
def Instr.wellFormed : Instr → Bool
  | .chuteStore src _ _ _ _ => src.ok
  | .quarantineAtBoundary k i => decide (i.val < k.instances)
  | .rd k _ _ => k.ok
  | .wr k => k.ok
  | .wrp k => k.ok
  | .atom k => k.ok
  | .combinedPacket k => k.ok
  | .mwr k => k.ok
  | .mack k => k.ok
  | .rdata k _ => k.ok
  | .wack k => k.ok
  | .nak k => k.ok
  | .pinv k => k.ok
  | .pinvack k => k.ok
  | .unknownTypeDiscard k => k.ok
  | .fabricRequestSend r => r.ok
  | .pathLost k => k.ok
  | .msgOpen k => k.ok
  | .msgAccept k => k.ok
  | .msgFull k => k.ok
  | .msgData k => k.ok
  | .msgDone k => k.ok
  | .waitSatisfied w => w.ok
  | .semAdd k _ => k.ok
  | .semSet k _ => k.ok
  | .barArrive k => k.ok
  | .barRelease k => k.ok
  | .proposeMsg k list => k.ok && decide (list.length ≤ 4096)
  | .prepare k list => k.ok && decide (list.length ≤ 4096)
  | .commit k => k.ok
  | .compAbort k => k.ok
  | .sack k => k.ok
  | .query k => k.ok
  | .down k => k.ok
  | .digestVote k => k.ok
  | .ceSummary _ _ store => decide (store.val ≠ 0)
  | .powerGate k i => decide (i.val < k.instances)
  | .powerTick _ _ tj => decide (tj.length ≤ 80)
  | .boot config run => config.ok && decide (run.signed.length = 2)
  | .debugToken token _ => decide (token.length ≤ 8192)
  | .objData _ _ _ _ data => decide (data.length ≤ 8192)
  | .quote _ _ nonce => decide (nonce.length ≤ 8192)
  | .sessionOpen _ _ ciphertext => decide (ciphertext.length ≤ 8192)
  | .addDynamicCapacityResponse _ ranges => ranges.all Range.ok
  | .releaseDynamicCapacity _ ranges => ranges.all Range.ok
  | .initiateDynamicCapacityAdd _ _ ranges => ranges.all Range.ok
  | .initiateDynamicCapacityRelease _ _ ranges _ => ranges.all Range.ok
  | .tallyDurationEnd _ _ counts _ _ => decide (counts.length ≤ 2048)
  | .eyeScanDone _ _ rows _ => decide (rows.length = 64)
  | .packageNetworkReplay k dest _ => decide (k ≠ dest)
  | .registerPairLowRead .. | .registerPairLowWrite .. | .registerPairHighWrite .. | .registerWrite .. | .violClear .. | .admitPartition ..
  | .releasePartition .. | .partitionDrained .. | .partitionReset .. | .chuteEnable .. | .chuteRegisterDone .. | .chuteDisable ..
  | .chuteDisableDone .. | .cplEnable .. | .cplHeadWrite .. | .mboxHeadWrite .. | .holdLimitExpire .. | .packetTransfer ..
  | .fifoPacketReceive .. | .commandStart .. | .deadlineExpire .. | .completionRecordWrite .. | .abortCommand .. | .resumeFault ..
  | .faultPop .. | .meProgram .. | .loadTile .. | .mma .. | .helperRerun .. | .quant .. | .storeTile .. | .meSemWait .. | .meSemSignal ..
  | .meQuarantine .. | .meUnquarantine .. | .escTableEnable .. | .escTableClear .. | .gcRun .. | .gcRunEnd .. | .ecall .. | .ebreak ..
  | .illegalInstruction .. | .gcLoad .. | .gcStore .. | .gcInstructionFetch .. | .fence .. | .fenceI .. | .amoadd .. | .amomin ..
  | .amomax .. | .amominu .. | .amomaxu .. | .amoswap .. | .amoand .. | .amoor .. | .amoxor .. | .lr .. | .sc .. | .gcBxw .. | .gcBxc ..
  | .gcDq .. | .gcKmrg .. | .gcSemsig .. | .gcSemwait .. | .gcSemrd .. | .gcDcln .. | .gcDinv .. | .gcCas .. | .gcAmofadd .. | .gcTag ..
  | .gcQuarantine .. | .gcUnquarantine .. | .t0Scrub .. | .t1Scrub .. | .moveCopy .. | .movePlace .. | .moveFree .. | .moveZero ..
  | .moveChannelTake .. | .loftWriteStage .. | .loftStripeProgram .. | .loftProgramDone .. | .loftGc .. | .loftWearMove .. | .loftRead ..
  | .loftReadDone .. | .lowerTierLate .. | .loftStatusTimeout .. | .loftRebuildStripe .. | .loftChannelReset .. | .loftChannelRetire ..
  | .loftTrim .. | .loftReady .. | .mirrorCommit .. | .mirrorClear .. | .mirrorDetach .. | .mirrorRebuild .. | .mirrorPartnerUnreachable ..
  | .mirrorPartnerReachable .. | .mirrorPromoted .. | .mirrorCopySegment .. | .mirrorCopyDone .. | .queueTimeTranslate .. | .xltEnable ..
  | .xltDisable .. | .xltInvalidate .. | .xltInvalidateAll .. | .xltInvalidateDone .. | .releaseFence .. | .memRd .. | .memRdData ..
  | .memInv .. | .memClnEvct .. | .memWr .. | .memSpecRd .. | .memRdFwd .. | .memWrFwd .. | .biRsp .. | .biConflict .. | .biTimeout ..
  | .conflictQueueAccept .. | .hostLost .. | .dirHostLostGo .. | .hostLostScanDone .. | .dirPeek .. | .extentReleasePoint ..
  | .extentReleaseComplete .. | .flitReceive .. | .ackTimeout .. | .portTransmit .. | .combineHoldExpire .. | .spillReturn ..
  | .packetAged .. | .requestTimeout .. | .linkEnable .. | .linkDisable .. | .linkDrain .. | .trainingPass .. | .trainingFail ..
  | .linkQuiet .. | .msgSend .. | .mailboxDeliver .. | .mboxEnable .. | .rowDirEnable .. | .embLookup .. | .cribAge .. | .contribute ..
  | .apply .. | .arenaRecordForward .. | .embConvert .. | .hotsetRefresh .. | .migrateRow .. | .migrateCutover .. | .departedLapse ..
  | .rowQuarantine .. | .rowUnquarantine .. | .winDirEnable .. | .indexLoad .. | .indexUnload .. | .indexUnloadDone .. | .search ..
  | .indexInsert .. | .indexDelete .. | .indexCompact .. | .blockSeal .. | .epochPublish .. | .deferredAllocation .. | .winQuarantine ..
  | .winUnquarantine .. | .semSignal .. | .semWait .. | .semWaitTimeout .. | .semValWrite .. | .barrier .. | .propose .. | .compTimeout ..
  | .digest .. | .digWaitExpire .. | .fatalError .. | .recordResend .. | .recordAck .. | .getRecords .. | .ackRecords .. | .ftGo ..
  | .ftCancel .. | .ftTake .. | .ftRetry .. | .ftExpire .. | .ftNominalPass .. | .ftMarginPass .. | .clockGate .. | .pllStop ..
  | .selfRefresh .. | .wakeDone .. | .standby .. | .runNode .. | .runDone .. | .powerLoss .. | .coldReset .. | .warmReset ..
  | .bootWatchdog .. | .unitReset .. | .perstNAssert .. | .perstNDeassert .. | .cxlPortReady .. | .ideFail .. | .swap ..
  | .paramCheckDone .. | .setTrial .. | .newChallenge .. | .relock .. | .objBegin .. | .objEnd .. | .objAbort .. | .transferTimeout ..
  | .kemKey .. | .sessionMsg .. | .identifyDevice .. | .identifyMemoryDevice .. | .getSupportedLogs .. | .getLog .. | .getEventRecords ..
  | .clearEventRecords .. | .getEventInterruptPolicy .. | .setEventInterruptPolicy .. | .getDynamicCapacityConfig ..
  | .getDynamicCapacityExtentList .. | .injectPoison .. | .clearPoison .. | .getLdInfo .. | .getLdAllocations .. | .setLdAllocations ..
  | .getDcRegionConfiguration .. | .getDcRegionExtentLists .. | .unsupportedMailboxCommand .. | .arpRequest .. | .icmpEcho .. | .setDasa ..
  | .entDaa .. | .setEndpointId .. | .getEndpointId .. | .getVersionSupport .. | .getMessageTypeSupport .. | .sclClear .. | .startAll ..
  | .stopAll .. | .clearAll .. | .sclEvselWrite .. | .bwWindowEnd .. | .samplingEnable .. | .sclSmpPop .. | .tallyStart .. | .tallyStop ..
  | .tallyClear .. | .tallyScan .. | .tallyTrained .. | .tallyTrainTimeout .. | .tallyLockLost .. | .cxlLinkUp .. | .loftEraseDone ..
  | .loftChannelRetrained .. | .tallyLaneLock .. | .standbyDone .. | .cxlConfigRequest .. | .managementLinkChange ..
  | .managementFrameDrop .. => true

end Sys2Proof
end

