-- ==== Sys2Proof/Tests/Slice0.lean ====
section
/-! SUPPORT. Small tests: what WellFormed refuses, one witness for what each statement supposes, and single steps against the spec's own words. -/

namespace Sys2Proof.Tests

open Sys2Proof Sys2Proof.Machine

set_option maxRecDepth 4000

set_option Elab.async false

/-- Partition 0 is ACTIVE and has request tags, in a cell of two nodes. -/
def base : State := ((State.reset.setPstate 0 .active).setRegF (Reg.PART_RSV_TAGS 0) 13 0 64).setRegF Reg.SW_CELL 9 5 2

/-- A running command of an opcode. -/
def run (op : Nat) : Cmd :=
  { chute := 0, seq := 0, ord := 0, kind := 0, opcode := op, unit := 0xFF, compId := 0xFFFF, compEpoch := 0, fence := false, irq := false, tag := 0,
    deadline := 0, args := [], body := [], phase := .running, runUnit := 0, status := 0, result := 0, detail := 0, endOrd := 0, unacked := 0,
    aborting := false, stopping := false, pins := [], inputs := [], progress := 0, aux := [] }

/-- Partition 0 with one command. -/
def one (c : Cmd) : State := base.modPart 0 (fun p => { p with cmds := [c] })

/-- Does a piece of work come to its end at once? -/
def ends (s : State) (w : Work Unit) : Bool := match w s with | .ok _ => true | .error _ => false

theorem does_work {s : State} {w : Work Unit} (h : ends s w = true) : Does s w (s.work w) := by
  unfold Does State.work
  unfold ends at h
  split at h
  · next x e => rw [e]
  · cases h

/-- A unit of partition 0. -/
def own (k : UnitKind) (i : Nat) (s : State) : State := (s.setRegF (k.status i) 29 29 1).setRegF (k.status i) 20 16 0

theorem pair_eq {α β : Type} {x : α × β} {a : α} (h : x.1 = a) : x = (a, x.2) := by
  cases h
  rfl

theorem pair_eq' {α β : Type} {x : α × β} {b : β} (h : x.2 = b) : x = (x.1, b) := by
  cases h
  rfl

/-- A read or a write of an address that the L1D of a core holds, in one line and translated without a walk, is a hit. -/
def hit (s : State) (p g va n access : Nat) (t : Nat) : Bool :=
  decide (s.translate (g / 16) p va access false = (.ok t 12, s)) && decide (lineParts va n = [(va, n)])

theorem issue_ok {s u : State} {p g va access index leaf log2 phys m : Nat} {c : Cmd} (h : s.translate g p va access false = (.ok leaf log2, u))
    (hp : physOf leaf log2 va = phys) (hm : 2 ^ log2 - va % 2 ^ log2 = m) : s.issue p c g va access index = .ok phys m u := by
  unfold State.issue
  rw [h, ← hp, ← hm]

/-- The L1D of a core holds the line of a physical address without an error, known by the virtual address too. -/
def holds (s : State) (g va phys : Nat) (d : DLine) : Bool :=
  decide ((s.core g).l1d.find? (fun e => decide (e.addr = phys / 64 * 64)) = some d) && decide (d.err = 0) && d.vas.contains (va / 64 * 64)
    && decide (s.modCore g (fun x => { x with l1d := x.l1d.map (fun e => if e.addr = phys / 64 * 64 then { d with err := 0 } else e) }) = s)

theorem coreLine_hit {s : State} {p g va phys cls : Nat} {c : Cmd} {d : DLine} (h : holds s g va phys d = true) (k : DLine → State → State) :
    s.coreLine p c g va phys cls k = k { d with err := 0 } s := by
  unfold holds at h
  simp only [Bool.and_eq_true, decide_eq_true_eq] at h
  obtain ⟨⟨⟨a, b⟩, v⟩, m⟩ := h
  unfold State.coreLine
  simp only [a, b, v, if_true, Nat.zero_ne_one, if_false, show ¬(0 = 2) by decide, m]

theorem reads_hit {s : State} {p g va n leaf phys v : Nat} {c : Cmd} {d : DLine} (h : hit s p g va n acRead leaf = true) (hp : physOf leaf 12 va = phys)
    (hd : holds s g va phys d = true) (hz : d.poison = false) (hv : d.data / 2 ^ (8 * (phys % 64)) % 2 ^ (8 * n) = v)
    (hr : va + n ≤ 2 ^ 57) : Reads s p c g va n v s := by
  unfold hit at h
  simp only [Bool.and_eq_true, decide_eq_true_eq] at h
  intro k
  unfold State.coreRead State.inSpace
  rw [if_neg (by omega), h.2]
  simp only [State.issueAll, issue_ok h.1 hp rfl, State.readParts, coreLine_hit hd, hz, hv, Nat.zero_mul, Nat.add_zero, Bool.or_self,
    Bool.false_eq_true, if_false]

theorem writes_hit {s : State} {p g va n v leaf phys : Nat} {c : Cmd} {d : DLine} (h : hit s p g va n acWrite leaf = true) (hp : physOf leaf 12 va = phys)
    (hd : holds s g va phys d = true) (hr : va + n ≤ 2 ^ 57) : Writes s p c g va n v (s.putL1 g phys n v) := by
  unfold hit at h
  simp only [Bool.and_eq_true, decide_eq_true_eq] at h
  intro k
  unfold State.coreWrite State.inSpace
  rw [if_neg (by omega), h.2]
  simp only [State.issueAll, issue_ok h.1 hp rfl, State.writeParts, coreLine_hit hd]

/-- The parts of an access that the L1D of a core holds in two lines of one page. -/
def hit2 (s : State) (p g va n1 n2 access leaf : Nat) : Bool :=
  decide (s.translate (g / 16) p va access false = (.ok leaf 12, s)) && decide (s.translate (g / 16) p (va + n1) access false = (.ok leaf 12, s))
    && decide (lineParts va (n1 + n2) = [(va, n1), (va + n1, n2)]) && decide (va + (n1 + n2) ≤ 2 ^ 57)

theorem reads_two {s : State} {p g va n1 n2 leaf phys phys2 v : Nat} {c : Cmd} {d e : DLine} (h : hit2 s p g va n1 n2 acRead leaf = true)
    (hp : physOf leaf 12 va = phys) (hp2 : physOf leaf 12 (va + n1) = phys2) (hd : holds s g va phys d = true)
    (he : holds s g (va + n1) phys2 e = true) (zd : d.poison = false) (ze : e.poison = false)
    (hv : d.data / 2 ^ (8 * (phys % 64)) % 2 ^ (8 * n1) + e.data / 2 ^ (8 * (phys2 % 64)) % 2 ^ (8 * n2) * 2 ^ (8 * n1) = v) :
    Reads s p c g va (n1 + n2) v s := by
  unfold hit2 at h
  simp only [Bool.and_eq_true, decide_eq_true_eq] at h
  obtain ⟨⟨⟨a, b⟩, l⟩, r⟩ := h
  intro k
  unfold State.coreRead State.inSpace
  rw [if_neg (by omega), l]
  simp only [State.issueAll, issue_ok a hp rfl, issue_ok b hp2 rfl, State.readParts, coreLine_hit hd, coreLine_hit he, zd, ze, Nat.zero_mul, Nat.add_zero,
    Bool.or_self, Bool.false_eq_true, if_false, hv]

theorem writes_two {s : State} {p g va n1 n2 v leaf phys phys2 : Nat} {c : Cmd} {d e : DLine} (h : hit2 s p g va n1 n2 acWrite leaf = true)
    (hp : physOf leaf 12 va = phys) (hp2 : physOf leaf 12 (va + n1) = phys2) (hd : holds s g va phys d = true)
    (he : holds (s.putL1 g phys n1 v) g (va + n1) phys2 e = true) :
    Writes s p c g va (n1 + n2) v ((s.putL1 g phys n1 v).putL1 g phys2 n2 (v / 2 ^ (8 * n1))) := by
  unfold hit2 at h
  simp only [Bool.and_eq_true, decide_eq_true_eq] at h
  obtain ⟨⟨⟨a, b⟩, l⟩, r⟩ := h
  intro k
  unfold State.coreWrite State.inSpace
  rw [if_neg (by omega), l]
  simp only [State.issueAll, issue_ok a hp rfl, issue_ok b hp2 rfl, State.writeParts, coreLine_hit hd, coreLine_hit he]

theorem parcel_hit {s : State} {p g va leaf phys v : Nat} {c : Cmd} {d : ILine} (h : s.translate (g / 16) p va acFetch false = (.ok leaf 12, s))
    (hp : physOf leaf 12 va = phys) (hd : (s.core g).l1i.find? (fun d => decide (d.addr = phys / 64 * 64)) = some d)
    (hv : d.data / 2 ^ (8 * (phys % 64)) % 65536 = v) (k : Nat → State → State) : s.fetchParcel p c g va k = k v s := by
  unfold State.fetchParcel
  rw [h]
  dsimp only
  rw [hp, hd]
  dsimp only
  rw [hv]

theorem fetches_hit {s : State} {p g leaf lo hi phys : Nat} {c : Cmd} {d : ILine}
    (h : s.translate (g / 16) p (s.core g).pc acFetch false = (.ok leaf 12, s))
    (h2 : s.translate (g / 16) p (((s.core g).pc + 2) % 2 ^ 64) acFetch false = (.ok leaf 12, s))
    (hp : physOf leaf 12 (s.core g).pc = phys) (hp2 : physOf leaf 12 (((s.core g).pc + 2) % 2 ^ 64) = phys + 2)
    (hd : (s.core g).l1i.find? (fun d => decide (d.addr = phys / 64 * 64)) = some d)
    (hd2 : (s.core g).l1i.find? (fun d => decide (d.addr = (phys + 2) / 64 * 64)) = some d)
    (hl : d.data / 2 ^ (8 * (phys % 64)) % 65536 = lo) (hh : d.data / 2 ^ (8 * ((phys + 2) % 64)) % 65536 = hi) (h4 : lo % 4 = 3) :
    Fetches s p c g (lo + 65536 * hi) 4 s := by
  intro k
  unfold State.fetchInstr
  dsimp only
  rw [parcel_hit h hp hd hl, if_neg (by omega), parcel_hit h2 hp2 hd2 hh]

theorem atomic_at {s u z : State} {p g phys code x cmp w prior : Nat} {op : AtomOp} {c : Cmd}
    (hu : u = s.cleanLines p c g (fun d => decide (d.addr = phys / 64 * 64)) true) (he : (u.core g).ending = none) (h0 : isT0 (phys / 64 * 64) = true)
    (m : u.mayTouch p (phys / 64 * 64) = true) (ho : AtomOp.ofAny code = some (op, w)) (hp : u.t0Read (phys - t0Flag) (w / 8) = prior)
    (hz : (match op.apply w prior x cmp with
        | some v => ((u.t0FindWord (phys - t0Flag)).t0Line (phys - t0Flag) true (.ofPart p)).t0Put ((phys - t0Flag) / 64)
            ((2 ^ (w / 8) - 1) * 2 ^ ((phys - t0Flag) % 64)) (v * 2 ^ (8 * ((phys - t0Flag) % 64))) false
        | none => (u.t0FindWord (phys - t0Flag)).t0Line (phys - t0Flag) true (.ofPart p)) = z) : Atomic s p c g phys code x cmp prior z := by
  subst hp hz
  intro k
  unfold State.atomicHome State.unlessEnding
  dsimp only
  rw [← hu, he, if_neg (by simp), if_pos h0, if_neg (by simp [m]), ho]
  dsimp only
  cases op.apply w (u.t0Read (phys - t0Flag) (w / 8)) x cmp <;> rfl

/-- What a piece of work that comes to its end leaves. -/
def after {α : Type} (s : State) (w : Work α) : State := match w s with | .ok (_, t) => t | .error _ => s

/-- Does a piece of work end at once with yes? -/
def agrees (s : State) (w : Work Bool) : Bool := match w s with | .ok (b, _) => b | .error _ => false

theorem agrees_true {s : State} {w : Work Bool} (h : agrees s w = true) : w s = .ok (true, after s w) := by
  unfold agrees at h
  unfold after
  split at h
  · next b x e =>
    subst h
    rw [e]
  · cases h

theorem some_pair {α : Type} {x : Option (α × State)} {n : α} {z : α × State} (h : x.map Prod.fst = some n) : x = some (n, (x.getD z).2) := by
  cases x with
  | none => cases h
  | some y =>
    cases y
    cases h
    rfl

/-! ### What WellFormed refuses -/

/-- A packet whose fields all fit. -/
def okPacket : Packet :=
  { dst := 0, src := 1, tc := 0, vc := 0, rail := 0, retried := false, sc := false, combined := false, srcInc := 0, proto := 1, len := 8, tkind := 0,
    lineOff := 0, seq := 5, dstCell := 0, srcCell := 0, ncons := 1, hops := 0, srcPart := 0, msgId := 0, body := [1, 0, 0, 4, 0, 0, 0, 0] }

/-- A request whose fields all fit. -/
def okRequest : FabReq := ⟨0, 1, none, 0, none, 0, 1, 8, 0, .nobody, [1], 0⟩

/-- Every constructor that carries a packet, with a packet in it. -/
def carriers (k : Packet) : List Instr :=
  [.rd k none 0, .wr k, .wrp k, .atom k, .combinedPacket k, .mwr k, .mack k, .rdata k 0, .wack k, .nak k, .pinv k, .pinvack k, .unknownTypeDiscard k,
   .pathLost k, .msgOpen k, .msgAccept k, .msgFull k, .msgData k, .msgDone k, .semAdd k 0, .semSet k 0, .barArrive k, .barRelease k, .proposeMsg k [],
   .prepare k [], .commit k, .compAbort k, .sack k, .query k, .down k, .digestVote k]

theorem test_packet_fits : (carriers okPacket).all Instr.wellFormed = true := by decide +kernel

theorem test_packet_field_too_wide :
    ([{ okPacket with dst := 2 ^ 12 }, { okPacket with src := 2 ^ 12 }, { okPacket with tc := 8 }, { okPacket with vc := 2 }, { okPacket with rail := 2 },
      { okPacket with srcInc := 2 ^ 16 }, { okPacket with proto := 16 }, { okPacket with len := 16 }, { okPacket with tkind := 4 },
      { okPacket with lineOff := 64 }, { okPacket with seq := 2 ^ 32 }, { okPacket with dstCell := 2 ^ 10 }, { okPacket with srcCell := 2 ^ 10 },
      { okPacket with ncons := 16 }, { okPacket with hops := 2 ^ 8 }, { okPacket with srcPart := 32 }, { okPacket with msgId := 2 ^ 32 },
      { okPacket with body := [2 ^ 32] }] : List Packet).all (fun k => (carriers k).all (fun i => !i.wellFormed)) = true := by decide +kernel

theorem test_request_field_too_wide :
    ([{ okRequest with tc := 8 }, { okRequest with dst := 2 ^ 12 }, { okRequest with addr := 2 ^ 52 }, { okRequest with len := 16 },
      { okRequest with body := [2 ^ 32] }] : List FabReq).all (fun r => !(Instr.fabricRequestSend r).wellFormed) = true := by decide +kernel

theorem test_source_that_is_none :
    [Source.host 32 0, .fmHost 2 0, .peer (2 ^ 12) 0 0, .peer 0 8 0, .peer 0 0 (2 ^ 32), .unit 32 0 0, .unit 0 64 0, .unit 0 0 (2 ^ 32)].all
      (fun x => !(Instr.chuteStore x 0 0 0 false).wellFormed) = true := by decide +kernel

theorem test_waiter_that_is_none :
    [SemWaiter.cmd 32 0 0, .cmd 0 64 0, .cmd 0 0 (2 ^ 32), .me 32, .core 64].all (fun w => !(Instr.waitSatisfied w).wellFormed) = true := by decide +kernel

theorem test_unit_that_is_none :
    [Instr.quarantineAtBoundary .me 32, .quarantineAtBoundary .win 16, .quarantineAtBoundary .row 16, .powerGate .me 32, .powerGate .win 16,
     .powerGate .row 16].all (fun i => !i.wellFormed) = true := by decide +kernel

theorem test_range_not_of_lines :
    [Range.mk 0 0, ⟨32, 64⟩, ⟨0, 32⟩].all (fun r =>
      !(Instr.addDynamicCapacityResponse .mctp [r]).wellFormed && !(Instr.releaseDynamicCapacity .mctp [r]).wellFormed
        && !(Instr.initiateDynamicCapacityAdd .mctp 0 [r]).wellFormed && !(Instr.initiateDynamicCapacityRelease .mctp 0 [r] false).wellFormed) = true := by
  decide +kernel

theorem test_list_too_long :
    [Instr.proposeMsg okPacket (List.replicate 4097 0), .prepare okPacket (List.replicate 4097 0), .powerTick 0 0 (List.replicate 81 0),
     .debugToken (List.replicate 8193 0) true, .objData .mctp 0 1 0 (List.replicate 8193 0), .quote .mctp 0 (List.replicate 8193 0),
     .sessionOpen .mctp 0 (List.replicate 8193 0), .tallyDurationEnd 0 0 (List.replicate 2049 ⟨0, 0, 0⟩) 0 0, .eyeScanDone 0 0 (List.replicate 63 0) 1].all
      (fun i => !i.wellFormed) = true := by decide +kernel

theorem test_store_code_0_counts_nothing : (Instr.ceSummary 0 0 0).wellFormed = false := by decide +kernel

theorem test_no_replay_to_itself : (Instr.packageNetworkReplay 3 3 0).wellFormed = false := by decide +kernel

/-- A boot's configuration with something changed. -/
def cfgOk : BootConfig := BootConfig.none

theorem test_configuration_out_of_range :
    ([{ cfgOk with node := 4096 }, { cfgOk with cell := 1024 }, { cfgOk with sizeX := 0 }, { cfgOk with sizeX := 17 }, { cfgOk with sizeY := 0 },
      { cfgOk with sizeZ := 17 }, { cfgOk with node := 1 }, { cfgOk with node := 16 }, { cfgOk with node := 256 }, { cfgOk with w1 := 7 },
      { cfgOk with w6 := 2, w3 := 64 }, { cfgOk with loftOp := 1 }, { cfgOk with ports := List.replicate 13 ⟨false, false, false⟩ }] : List BootConfig).all
      (fun c => !(Instr.boot c ⟨[], [true, true], true, [], 0, [], []⟩).wellFormed) = true := by decide +kernel

theorem test_boot_finds_two_slots : (Instr.boot cfgOk ⟨[], [true], true, [], 0, [], []⟩).wellFormed = false := by decide +kernel

/-! ### The spec's worked values and the standards it names -/

/-- R36: a packet of three lines with sequence 0x1F3 has the commit tag 0xC7F3_0800. -/
theorem test_commit_tag :
    packetReason [0x00020000, 0x1F3] 0xC7F30800 0x1F3 = 0 ∧ packetReason [0x00020000, 0x1F3] 0xC6F30800 0x1F3 = 1
      ∧ packetReason [0x00020000, 0x1F3] 0xC7F30C00 0x1F3 = 2 ∧ packetReason [0x00020000, 0x1F3] 0xC7F30800 0x2F3 = 3 := by decide +kernel

/-- A row of an operand tile that starts with some codes. -/
def starts (l : List Nat) : List Nat := l ++ List.replicate (32 - l.length) 0

/-- The tiles of the worked example "MXFP4, row checksum". -/
def exampleA : Tile := ⟨fmE2m1, 1, 32, false, 0, [starts [3, 12, 1, 7]], [[0x7E]]⟩
/-- See `exampleA`. -/
def exampleB : Tile := ⟨fmE2m1, 2, 32, false, 0, [starts [4, 2, 13, 1], starts [10, 6, 0, 2]], [[0x81], [0x81]]⟩

/-- The worked example "MXFP4, row checksum": C = [5.0, −7.0]. -/
theorem test_mxfp4_example : (mmaTile exampleA exampleB none []).data = [[0x40A00000, 0xC0E00000]] ∧ mmaCheck exampleA exampleB [] = none := by
  decide +kernel

/-- What the example quantizes to. -/
def asked4 (fmt : Nat) : QuantArgs := ⟨fmt, false, 0, false, 0, 0, 0, 0, 8⟩

/-- The same example: the QUANT to MXFP4 has scale 0x7F and codes 6 and 15, clips one element, and escalates to E4M3 codes 0x7A and 0xFE at scale 0x79. -/
theorem test_quant_example :
    quantBlock (asked4 fmE2m1) Dy.zero 2 0 0 [0x40A00000, 0xC0E00000] = (0x7F, [6, 15], 1) ∧ escalates 1 8 1 2 = true
      ∧ (quantBlock (asked4 fmE4m3) Dy.zero 2 0 0 [0x40A00000, 0xC0E00000]).1 = 0x79
      ∧ (quantBlock (asked4 fmE4m3) Dy.zero 2 0 0 [0x40A00000, 0xC0E00000]).2.1 = [0x7A, 0xFE] := by decide +kernel

/-- The tiles of the worked example "Y3 two-level against MXFP8". -/
def exampleY : Tile := ⟨fmY3, 2, 32, true, 0x3F000000, [starts [2, 5, 3], starts [7, 0, 1]], [[0x34, 0], [0x3C, 0]]⟩
/-- See `exampleY`. -/
def exampleE : Tile := ⟨fmE4m3, 1, 32, false, 0, [starts [0x3A, 0xB0, 0x44]], [[0x7F]]⟩

/-- That example: 5.625 and −1.5, and a product that is 128 units off fails the check. -/
theorem test_y3_example :
    (mmaTile exampleY exampleE none []).data = [[0x40B40000], [0xBFC00000]] ∧ mmaCheck exampleY exampleE [] = none
      ∧ (mmaCheck exampleY exampleE [⟨1, 0, 0, 128⟩]).isSome = true := by decide +kernel

/-- The worked example of APPLY: g(21) = 4,008, and 1.0 + 16,777,216 rounds to 16,777,216. -/
theorem test_apply_example : rowRotation 21 = 4008 ∧ addF32 0x3F800000 0x4B800000 = 0x4B800000 ∧ addF32 0x4B800000 0xCB800000 = 0 := by decide +kernel

/-- FIPS 180-4: the digest of "abc". -/
theorem test_sha256 : sha256 [0x61, 0x62, 0x63] = 0xBA7816BF8F01CFEA414140DE5DAE2223B00361A396177A9CB410FF61F20015AD := by decide +kernel

/-- FIPS 197, C.3: AES with a key of 256 bits. -/
theorem test_aes256 :
    aesBlock (aesKeys 0x000102030405060708090A0B0C0D0E0F101112131415161718191A1B1C1D1E1F) 0x00112233445566778899AABBCCDDEEFF
      = 0x8EA2B7CA516745BFEAFC49904B496089 := by decide +kernel

/-- The published check values of CRC-32C and of CRC-64 with this polynomial, over "123456789". -/
theorem test_crcs : crc32c [49, 50, 51, 52, 53, 54, 55, 56, 57] = 0xE3069283 ∧ crc64 [49, 50, 51, 52, 53, 54, 55, 56, 57] = 0x62EC59E3F1A4F00A := by
  decide +kernel

/-! ### Single steps -/

/-- What a step that answers a next state leaves. -/
def stepped (s : State) : Option State := match step s with | .next t => some t | _ => none

/-- R6: the high word of a pair applies the low word that the requester holds with it. -/
theorem test_pair_write :
    (stepped { base with held := [(pairKey (.fm 0) Reg.RNG_ADM_RSV_GC_LO, some 7)], pending := [.registerPairHighWrite (.fm 0) 0x10048 1 15] }).map
      (fun t => decide (t.reg64 Reg.RNG_ADM_RSV_GC_LO = 0x100000007) && decide (t.heldLow (.fm 0) Reg.RNG_ADM_RSV_GC_LO = none)) = some true := by
  decide +kernel

/-- First in, first out: a step runs the command at the front and leaves the rest; an idle one takes nothing. -/
theorem test_front_of_queue :
    (stepped { base with pending := [.getEndpointId, .powerLoss] }).map (fun t => decide (t.pending = [.powerLoss]) && !t.power.off) = some true
      ∧ (stepped base).isSome = true := by decide +kernel

/-- R433: an object kind that there is none of is refused with BAD_REQUEST and opens nothing. -/
theorem test_no_object_kind : (stepped { base with pending := [.objBegin .mctp 1 5 0] }).map (fun t => (t.xfer 5).isNone) = some true := by
  decide +kernel

/-! ### What the statements suppose can be met -/


/-- What Obligations.StepRunsTheFront supposes can be met. -/
theorem witness_StepRunsTheFront :
    (∃ (s : State), s.pending = []) := by
  exact ⟨State.reset, by decide +kernel⟩

/-- What Obligations.ResetState supposes can be met. -/
theorem witness_ResetState :
    (∃ (k : UnitKind) (i : Fin 64), i.val < k.count) := by
  exact ⟨.row, 15, by decide +kernel⟩

/-- What Obligations.StepKeepsCanonical supposes can be met. -/
theorem witness_StepKeepsCanonical :
    (∃ (s : State) (t : State), Sys2Proof.Machine.step s = .next t ∧ Canonical s) := by
  exact ⟨State.reset, State.reset.tick, by rfl, by exact ⟨by decide +kernel, by decide +kernel, by decide +kernel, by decide +kernel⟩⟩

/-- What Obligations.FusesNeverUnburn supposes can be met. -/
theorem witness_FusesNeverUnburn :
    (∃ (s : State) (t : State), Sys2Proof.Machine.step s = .next t) := by
  exact ⟨State.reset, State.reset.tick, by rfl⟩

/-- What Obligations.AStoppedPartStays supposes can be met. -/
theorem witness_AStoppedPartStays :
    (∃ (c : Instr) (s : State), s.stopped = true ∧ c ≠ .coldReset ∧ c ≠ .powerLoss ∧ c ≠ .warmReset none) ∧
    (∃ (s : State), s.power.off = true) := by
  refine ⟨?_, ?_⟩
  · exact ⟨.standbyDone, { State.reset with stopped := true }, by decide +kernel, by decide +kernel, by decide +kernel, by decide +kernel⟩
  · exact ⟨{ State.reset with power := { State.reset.power with off := true } }, by decide +kernel⟩

/-- What Obligations.WhatStopsThePart supposes can be met. -/
theorem witness_WhatStopsThePart :
    (∃ (s : State), s.stopped = false) ∧
    (∃ (c : Instr) (s : State), s.stopped = false ∧
      (c = .powerLoss ∨ (∃ cause tiles, c = .fatalError cause tiles) ∨ (∃ k d row, c = .packageNetworkReplay k d row ∧ 16 ≤ row.toNat))) := by
  refine ⟨?_, ?_⟩
  · exact ⟨State.reset, by decide +kernel⟩
  · exact ⟨.packageNetworkReplay 0 0 16, State.reset, by decide +kernel, by exact .inr (.inr ⟨0, 0, 16, rfl, by decide⟩)⟩

/-- What Obligations.CommandsThatLeaveMemory supposes can be met. -/
theorem witness_CommandsThatLeaveMemory :
    (∃ (c : Instr), leavesMemory c = true) := by
  exact ⟨.tallyTrained 0 0, by decide +kernel⟩

/-- What Obligations.MaskedStores supposes can be met. -/
theorem witness_MaskedStores :
    (∃ (s : State) (r : HomeReq), r.atom = none ∧ (s.t1Line (64 * r.line) 1 true r.src.origin).chuteAt (64 * r.line) = none) ∧
    (∃ (u : State) (r : HomeReq), u.mirrorAt (64 * r.line) = none ∧ (∀ n c q, r.src ≠ .peer n c q)) := by
  refine ⟨?_, ?_⟩
  · exact ⟨State.reset, HomeReq.store .device 0 1 0xFF false, by decide +kernel, by decide +kernel⟩
  · exact ⟨State.reset, HomeReq.store .device 0x10000000 (2 ^ 64 - 1) 0xFF true, by decide +kernel, by intro _ _ _ h; cases h⟩

/-- What Obligations.PackedRows supposes can be met. -/
theorem witness_PackedRows :
    (∃ (f : Nat) (k : Nat) (e : Nat), f ≠ fmYt ∧ e < k) ∧
    (∃ (k : Nat) (e : Nat), e < k) ∧
    (∃ (f : Nat) (k : Nat) (us : List Nat), us.length = unitsPerRow f k ∧ (∀ u ∈ us, u < 2 ^ codeBits f)) := by
  refine ⟨?_, ?_, ?_⟩
  · exact ⟨fmY3, 32, 31, by decide +kernel, by decide +kernel⟩
  · exact ⟨7, 6, by decide +kernel⟩
  · exact ⟨fmYt, 7, [242, 255], by decide +kernel, by decide +kernel⟩

/-- What Obligations.PackedTrits supposes can be met. -/
theorem witness_PackedTrits :
    (∃ (v : Nat) (i : Nat), v ≤ 242 ∧ i < 5) ∧
    (∃ (v : Nat), v ≤ 242) ∧
    (∃ (a : Nat) (b : Nat) (c : Nat) (d : Nat) (e : Nat), a < 3 ∧ b < 3 ∧ c < 3 ∧ d < 3 ∧ e < 3) ∧
    (∃ (v : Nat), 0xF3 ≤ v ∧ v ≤ 0xFF) ∧
    (∃ (v : Nat), v ≤ 0xFF) := by
  refine ⟨?_, ?_, ?_, ?_, ?_⟩
  · exact ⟨242, 4, by decide +kernel, by decide +kernel⟩
  · exact ⟨242, by decide +kernel⟩
  · exact ⟨2, 2, 2, 2, 2, by decide +kernel, by decide +kernel, by decide +kernel, by decide +kernel, by decide +kernel⟩
  · exact ⟨0xF3, by decide +kernel, by decide +kernel⟩
  · exact ⟨0xFF, by decide +kernel⟩

/-- What Obligations.RegisterPairs supposes can be met. -/
theorem witness_RegisterPairs :
    (∃ (rq : Requester) (a : Word) (s : State), s.stopped = false ∧ rq.cxlPart a.toNat = none ∧ s.reaches rq (rq.target a.toNat) = true ∧
      s.semBarred (rq.target a.toNat) = false ∧ RegMap.pairPart (rq.target a.toNat) = .lo) ∧
    (∃ (rq : Requester) (a : Word) (s : State), s.stopped = false ∧ rq.cxlPart a.toNat = none ∧ s.reaches rq (rq.target a.toNat) = true ∧
      s.semBarred (rq.target a.toNat) = false ∧ RegMap.pairPart (rq.target a.toNat) = .hi) ∧
    (∃ (rq : Requester) (a : Word) (s : State), s.stopped = false ∧ rq.cxlPart a.toNat = none ∧ s.writes rq (rq.target a.toNat) = true ∧
      s.semBarred (rq.target a.toNat) = false ∧ s.barred (rq.target a.toNat) = false ∧ RegMap.pairPart (rq.target a.toNat) = .lo) ∧
    (∃ (rq : Requester) (a : Word) (w : Word) (i : Nat) (o : Nat) (s : State), s.stopped = false ∧ rq.cxlPart a.toNat = none ∧
      s.writes rq (rq.target a.toNat) = true ∧ RegMap.locate (rq.target a.toNat) = some (.rng, i, o) ∧
      RegMap.pairPart (rq.target a.toNat) = .hi ∧ s.heldLow rq (rq.target a.toNat - 4) = some w) ∧
    (∃ (rq : Requester) (a : Word) (i : Nat) (o : Nat) (s : State), s.stopped = false ∧ rq.cxlPart a.toNat = none ∧
      s.writes rq (rq.target a.toNat) = true ∧ RegMap.locate (rq.target a.toNat) = some (.rng, i, o) ∧
      RegMap.pairPart (rq.target a.toNat) = .hi ∧ s.heldLow rq (rq.target a.toNat - 4) = none) := by
  refine ⟨?_, ?_, ?_, ?_, ?_⟩
  · exact ⟨.fm 0, 65604, base, by decide +kernel, by decide +kernel, by decide +kernel, by decide +kernel, by decide +kernel⟩
  · exact ⟨.fm 0, 65608, base, by decide +kernel, by decide +kernel, by decide +kernel, by decide +kernel, by decide +kernel⟩
  · exact ⟨.fm 0, 65604, base, by decide +kernel, by decide +kernel, by decide +kernel, by decide +kernel, by decide +kernel, by decide +kernel⟩
  · exact ⟨.fm 0, 65608, 7, 0, 65608, { base with held := Tbl.set (fun _ => none) base.held (pairKey (.fm 0) 65604) (some 7) }, by decide +kernel, by decide +kernel, by decide +kernel, by decide +kernel, by decide +kernel, by decide +kernel⟩
  · exact ⟨.fm 0, 65608, 0, 65608, base, by decide +kernel, by decide +kernel, by decide +kernel, by decide +kernel, by decide +kernel, by decide +kernel⟩

/-- What Obligations.RegisterWrites supposes can be met. -/
theorem witness_RegisterWrites :
    (∃ (rq : Requester) (a : Word) (b : Blk) (i : Nat) (o : Nat) (s : State), s.stopped = false ∧ rq.cxlPart a.toNat = none ∧
      s.writes rq (rq.target a.toNat) = true ∧ RegMap.locate (rq.target a.toNat) = some (b, i, o) ∧ b ∈ [Blk.crib, Blk.cxl, Blk.lft, Blk.sw] ∧
      RegMap.pairPart (rq.target a.toNat) = .one) ∧
    (∃ (rq : Requester) (a : Word) (s : State), s.stopped = false ∧ rq.cxlPart a.toNat = none ∧ s.writes rq (rq.target a.toNat) = true ∧
      s.semBarred (rq.target a.toNat) = false ∧ RegMap.pairPart (rq.target a.toNat) = .one) ∧
    (∃ (be : BitVec 4) (s : State), s.stopped = false ∧ be ≠ 0xF) ∧
    (∃ (rq : Requester) (a : Word) (s : State), s.stopped = false ∧ rq.cxlPart a.toNat = none ∧ s.writes rq (rq.target a.toNat) = false) ∧
    (∃ (rq : Requester) (s : State), s.stopped = false ∧ s.writes rq Reg.RNG_VIOL_CLEAR = true) := by
  refine ⟨?_, ?_, ?_, ?_, ?_⟩
  · exact ⟨.fm 1, BitVec.ofNat 32 (Reg.CXL_IRQ_CAUSE 0), .cxl, 0, Reg.CXL_IRQ_CAUSE 0 % 4096, base, by decide +kernel, by decide +kernel, by decide +kernel, by decide +kernel, by decide +kernel, by decide +kernel⟩
  · exact ⟨.ld 0, BitVec.ofNat 32 (Reg.PART_HOLD_LIMIT 0 - 0x07000000), base, by decide +kernel, by decide +kernel, by decide +kernel, by decide +kernel, by decide +kernel⟩
  · exact ⟨7, base, by decide +kernel, by decide +kernel⟩
  · exact ⟨.ld 1, 0x1000, base, by decide +kernel, by decide +kernel, by decide +kernel⟩
  · exact ⟨.fm 0, base, by decide +kernel, by decide +kernel⟩

/-- What Obligations.ClosedPage supposes can be met. -/
theorem witness_ClosedPage :
    (∃ (rq : Requester) (a : Word) (p : Nat) (o : Nat) (s : State), s.stopped = false ∧ rq.cxlPart a.toNat = none ∧
      RegMap.locate (rq.target a.toNat) = some (.part, p, o) ∧ o ≠ 0 ∧ (s.pstate p = .free ∨ s.pstate p = .releasing)) := by
  exact ⟨.fm 0, BitVec.ofNat 32 (Reg.PART_HOLD_LIMIT 31), 31, Reg.PART_HOLD_LIMIT 31 - 0x08F00000, base, by decide +kernel, by decide +kernel, by decide +kernel, by decide +kernel, by decide +kernel⟩
def booted : State := base.modBoot (fun b => { b with done := true })

/-- What Obligations.AdmissionAndRelease supposes can be met. -/
theorem witness_AdmissionAndRelease :
    (∃ (rq : Requester) (v : Word) (s : State), ∀ (p : Nat), p = (s.store Reg.RNG_ADM_CTRL v).regF Reg.RNG_ADM_CTRL 4 0 → s.stopped = false ∧
      s.writes rq Reg.RNG_ADM_CTRL = true ∧ s.boot.done = true ∧ bitOf v 9 = false ∧ (s.store Reg.RNG_ADM_CTRL v).admissionCode p = 0) ∧
    (∃ (rq : Requester) (v : Word) (s : State), ∀ (p : Nat) (k : Nat), p = (s.store Reg.RNG_ADM_CTRL v).regF Reg.RNG_ADM_CTRL 4 0 →
      k = (s.store Reg.RNG_ADM_CTRL v).admissionCode p → s.stopped = false ∧ s.writes rq Reg.RNG_ADM_CTRL = true ∧ s.boot.done = true ∧
      bitOf v 9 = false ∧ k ≠ 0) ∧
    (∃ (rq : Requester) (v : Word) (s : State), ∀ (p : Nat), p = (s.store Reg.RNG_ADM_CTRL v).regF Reg.RNG_ADM_CTRL 4 0 → s.stopped = false ∧
      s.writes rq Reg.RNG_ADM_CTRL = true ∧ bitOf v 8 = false ∧
      ((s.store Reg.RNG_ADM_CTRL v).pstate p = .active ∨ (s.store Reg.RNG_ADM_CTRL v).pstate p = .frozen) ∧
      (s.store Reg.RNG_ADM_CTRL v).hasExtent p = false) ∧
    (∃ (rq : Requester) (v : Word) (s : State), ∀ (p : Nat), p = (s.store Reg.RNG_ADM_CTRL v).regF Reg.RNG_ADM_CTRL 4 0 → s.stopped = false ∧
      s.writes rq Reg.RNG_ADM_CTRL = true ∧ bitOf v 8 = false ∧ (s.store Reg.RNG_ADM_CTRL v).pstate p ≠ .free ∧
      (s.store Reg.RNG_ADM_CTRL v).pstate p ≠ .releasing ∧ (s.store Reg.RNG_ADM_CTRL v).hasExtent p = true) ∧
    (∃ (rq : Requester) (v : Word) (s : State), ∀ (p : Nat), p = (s.store Reg.RNG_ADM_CTRL v).regF Reg.RNG_ADM_CTRL 4 0 → s.stopped = false ∧
      s.writes rq Reg.RNG_ADM_CTRL = true ∧ bitOf v 8 = false ∧
      ((s.store Reg.RNG_ADM_CTRL v).pstate p = .free ∨ (s.store Reg.RNG_ADM_CTRL v).pstate p = .releasing)) ∧
    (∃ (rq : Requester) (p : Fin 32) (s : State), s.stopped = false ∧ s.writes rq (Reg.PART_RESET p.val) = true ∧
      (s.pstate p.val = .active ∨ s.pstate p.val = .frozen)) ∧
    (∃ (p : Fin 32) (s : State), s.stopped = false ∧ s.pstate p.val = .resetting ∧ s.quietPart p.val = true ∧ s.dirtyCores p.val = [] ∧
      (s.part p.val).relRecorded = false) ∧
    (∃ (p : Fin 32) (s : State), s.stopped = false ∧ s.pstate p.val = .releasing ∧ s.quietPart p.val = true ∧ s.dirtyCores p.val = []) := by
  refine ⟨?_, ?_, ?_, ?_, ?_, ?_, ?_, ?_⟩
  · exact by
      refine ⟨.fm 0, 0x11F, State.reset.modBoot (fun b => { b with done := true }), ?_⟩
      rintro p rfl
      exact ⟨by decide +kernel, by decide +kernel, by decide +kernel, by decide +kernel, by decide +kernel⟩
  · exact by
      refine ⟨.fm 0, 0x100, booted, ?_⟩
      rintro p k rfl rfl
      exact ⟨by decide +kernel, by decide +kernel, by decide +kernel, by decide +kernel, by decide +kernel⟩
  · exact by
      refine ⟨.fm 0, 0x200, booted, ?_⟩
      rintro p rfl
      exact ⟨by decide +kernel, by decide +kernel, by decide +kernel, by decide +kernel, by decide +kernel⟩
  · exact by
      refine ⟨.fm 0, 0x200, { booted with extents := [⟨0, ⟨0x400000000, 0x10000000⟩, .live⟩] }, ?_⟩
      rintro p rfl
      exact ⟨by decide +kernel, by decide +kernel, by decide +kernel, by decide +kernel, by decide +kernel, by decide +kernel⟩
  · exact by
      refine ⟨.fm 0, 0x21F, booted, ?_⟩
      rintro p rfl
      exact ⟨by decide +kernel, by decide +kernel, by decide +kernel, by decide +kernel⟩
  · exact ⟨.fm 0, 0, base, by decide +kernel, by decide +kernel, by decide +kernel⟩
  · exact ⟨31, State.reset.setPstate 31 .resetting, by decide +kernel, by decide +kernel, by decide +kernel, by decide +kernel, by decide +kernel⟩
  · exact ⟨0, State.reset.setPstate 0 .releasing, by decide +kernel, by decide +kernel, by decide +kernel, by decide +kernel⟩
/-- Partition 0 ACTIVE with 256 MiB of T1 and two chutes. -/
def granted : State := { (base.setRegF (Reg.PART_RSV_TAGS 0) 30 24 2) with extents := [⟨0, ⟨0x400000000, 0x10000000⟩, .live⟩] }
/-- A registered ring at the start of the extent. -/
def ring0 : Ring := { Ring.none with ready := true, range := ⟨0x400000000, 4096⟩ }

/-- What Obligations.RingRegistration supposes can be met. -/
theorem witness_RingRegistration :
    (∃ (rq : Requester) (p : Fin 32) (n : Fin 64) (v : Word) (s : State), ∀ (u : State) (r : Range), u = s.store (ringCtrl p.val n.val) (v ||| 1) →
      r = ⟨u.ringBase p.val n.val, 2 ^ u.regF (ringCtrl p.val n.val) 12 8⟩ → s.stopped = false ∧ s.writes rq (ringCtrl p.val n.val) = true ∧
      bitOf (s.reg (ringCtrl p.val n.val)) 0 = false ∧ ((u.part p.val).ring n.val).disabling = false ∧
      u.ringCheck p.val n.val (u.chuteIndexOk p.val n.val) (u.regF (ringCtrl p.val n.val) 12 8) 12 24 r ⟨0, 0⟩ = 0) ∧
    
      (∃ (rq : Requester) (p : Fin 32) (n : Fin 64) (v : Word) (s : State), ∀ (u : State) (r : Range) (e : Nat), u = s.store (ringCtrl p.val n.val) (v ||| 1) →
      r = ⟨u.ringBase p.val n.val, 2 ^ u.regF (ringCtrl p.val n.val) 12 8⟩ →
      e = u.ringCheck p.val n.val (u.chuteIndexOk p.val n.val) (u.regF (ringCtrl p.val n.val) 12 8) 12 24 r ⟨0, 0⟩ → s.stopped = false ∧
      s.writes rq (ringCtrl p.val n.val) = true ∧ bitOf (s.reg (ringCtrl p.val n.val)) 0 = false ∧
      ((u.part p.val).ring n.val).disabling = false ∧ e ≠ 0) ∧
    (∃ (rq : Requester) (p : Fin 32) (v : Word) (s : State), ∀ (u : State) (r : Range), u = s.store (Reg.PART_CPL_CTRL p.val) (v ||| 1) →
      r = ⟨u.reg64 (Reg.PART_CPL_BASE_LO p.val), 2 ^ u.regF (Reg.PART_CPL_CTRL p.val) 12 8⟩ → s.stopped = false ∧
      s.writes rq (Reg.PART_CPL_CTRL p.val) = true ∧ bitOf (s.reg (Reg.PART_CPL_CTRL p.val)) 0 = false ∧
      ((u.part p.val).ring cplRing).disabling = false ∧ u.ringCheck p.val cplRing true (u.regF (Reg.PART_CPL_CTRL p.val) 12 8) 12 20 r ⟨0, 0⟩ = 0) ∧
    (∃ (rq : Requester) (p : Fin 32) (v : Word) (s : State), ∀ (u : State) (r : Range), u = s.store (Reg.PART_MBOX_CTRL p.val) (v ||| 1) →
      r = ⟨u.reg64 (Reg.PART_MBOX_BASE_LO p.val), 2 ^ u.regF (Reg.PART_MBOX_CTRL p.val) 12 8⟩ → s.stopped = false ∧
      s.writes rq (Reg.PART_MBOX_CTRL p.val) = true ∧ bitOf (s.reg (Reg.PART_MBOX_CTRL p.val)) 0 = false ∧
      ((u.part p.val).ring mboxRing).disabling = false ∧
      u.ringCheck p.val mboxRing true (u.regF (Reg.PART_MBOX_CTRL p.val) 12 8) 12 24 r ⟨0, 0⟩ = 0 ∧ u.mboxSemBad p.val = false) ∧
    (∃ (p : Fin 32) (n : Fin 67) (s : State), s.stopped = false ∧ ((s.part p.val).ring n.val).zeroing = true ∧
      s.heldBack ((s.part p.val).ring n.val).range = []) ∧
    (∃ (rq : Requester) (p : Fin 32) (n : Fin 64) (s : State), s.stopped = false ∧ s.writes rq (ringCtrl p.val n.val) = true ∧
      bitOf (s.reg (ringCtrl p.val n.val)) 0 = true ∧ ((s.part p.val).ring n.val).ready = true ∧ ((s.part p.val).ring n.val).zeroing = false) ∧
    (∃ (p : Fin 32) (n : Fin 67) (s : State), s.stopped = false ∧ ((s.part p.val).ring n.val).disabling = true ∧
      ((s.part p.val).ring n.val).pkts = [] ∧ n.val ≠ mboxRing) ∧
    (∃ (p : Fin 32) (s : State), ∀ (u : State), u = s.modFab (fun x => { x with inbound := x.inbound.filter (fun m => decide (m.part ≠ p.val)) }) →
      s.stopped = false ∧ ((s.part p.val).ring mboxRing).disabling = true ∧ ((s.part p.val).ring mboxRing).pkts = []) := by
  refine ⟨?_, ?_, ?_, ?_, ?_, ?_, ?_, ?_⟩
  · exact by
      refine ⟨.ld 0, 0, 1, 0xC01, granted.setReg64 (Reg.PART_CHUTE_BASE_LO 0 1) 0x400000000, ?_⟩
      rintro u r rfl rfl
      exact ⟨by decide +kernel, by decide +kernel, by decide +kernel, by decide +kernel, by decide +kernel⟩
  · exact by
      refine ⟨.ld 0, 0, 2, 0xC01, granted, ?_⟩
      rintro u r e rfl rfl rfl
      exact ⟨by decide +kernel, by decide +kernel, by decide +kernel, by decide +kernel, by decide +kernel⟩
  · exact by
      refine ⟨.ld 0, 0, 0xC01, granted.setReg64 (Reg.PART_CPL_BASE_LO 0) 0x400000000, ?_⟩
      rintro u r rfl rfl
      exact ⟨by decide +kernel, by decide +kernel, by decide +kernel, by decide +kernel, by decide +kernel⟩
  · exact by
      refine ⟨.ld 0, 0, 0xC01, granted.setReg64 (Reg.PART_MBOX_BASE_LO 0) 0x400000000, ?_⟩
      rintro u r rfl rfl
      exact ⟨by decide +kernel, by decide +kernel, by decide +kernel, by decide +kernel, by decide +kernel, by decide +kernel⟩
  · exact ⟨0, 66, granted.modRing 0 66 (fun _ => { ring0 with ready := false, zeroing := true }), by decide +kernel, by decide +kernel, by decide +kernel⟩
  · exact ⟨.ld 0, 0, 0, (granted.modRing 0 0 (fun _ => ring0)).setRegF (ringCtrl 0 0) 0 0 1, by decide +kernel, by decide +kernel, by decide +kernel, by decide +kernel, by decide +kernel⟩
  · exact ⟨0, 64, granted.modRing 0 64 (fun _ => { ring0 with disabling := true }), by decide +kernel, by decide +kernel, by decide +kernel, by decide +kernel⟩
  · exact by
      refine ⟨0, granted.modRing 0 65 (fun _ => { ring0 with disabling := true }), ?_⟩
      rintro u rfl
      exact ⟨by decide +kernel, by decide +kernel, by decide +kernel⟩
/-- A packet of opcode 0x01. -/
def pkt0 : Pkt := ⟨0, 1, false, [1]⟩
/-- Partition 0 ACTIVE, with one packet in its last chute. -/
def fed (k : Pkt) : State := granted.modRing 0 63 (fun _ => { ring0 with pkts := [k] })

/-- What Obligations.HeadsStoresAndFifos supposes can be met. -/
theorem witness_HeadsStoresAndFifos :
    (∃ (rq : Requester) (p : Fin 32) (v : Word) (s : State), ∀ (n : Nat), n = s.ringEntries p.val cplRing 32 → s.stopped = false ∧
      s.writes rq (Reg.PART_CPL_HEAD p.val) = true ∧ n ≠ 0 ∧
      (v.toNat % 2 ^ 18 % n + n - s.regN (Reg.PART_CPL_HEAD p.val)) % n ≤ (s.regN (Reg.PART_CPL_TAIL p.val) + n - s.regN (Reg.PART_CPL_HEAD p.val)) % n) ∧
    (∃ (rq : Requester) (p : Fin 32) (v : Word) (s : State), ∀ (n : Nat), n = s.ringEntries p.val mboxRing 64 → s.stopped = false ∧
      s.writes rq (Reg.PART_MBOX_HEAD p.val) = true ∧ n ≠ 0 ∧
      (v.toNat % 2 ^ 18 % n + n - s.regN (Reg.PART_MBOX_HEAD p.val)) % n ≤ (s.regN (Reg.PART_MBOX_TAIL p.val) + n - s.regN (Reg.PART_MBOX_HEAD p.val)) % n) ∧
    (∃ (rq : Requester) (p : Fin 32) (v : Word) (s : State), ∀ (n : Nat), n = s.ringEntries p.val cplRing 32 → s.stopped = false ∧
      s.writes rq (Reg.PART_CPL_HEAD p.val) = true ∧ n ≠ 0 ∧
      (s.regN (Reg.PART_CPL_TAIL p.val) + n - s.regN (Reg.PART_CPL_HEAD p.val)) % n < (v.toNat % 2 ^ 18 % n + n - s.regN (Reg.PART_CPL_HEAD p.val)) % n) ∧
    (∃ (src : Source) (line : BitVec 34) (s : State), s.stopped = false ∧ s.mayStore src line.toNat = true) ∧
    (∃ (src : Source) (line : BitVec 34) (s : State), s.stopped = false ∧ s.mayStore src line.toNat = false) ∧
    (∃ (p : Fin 32) (n : Fin 66) (i : Nat) (h : HeldStore) (s : State), s.stopped = false ∧ ((s.part p.val).ring n.val).held[i]? = some h ∧
      s.regN (Reg.PART_HOLD_LIMIT p.val) < s.lcc - h.arrival) ∧
    (∃ (p : Fin 32) (n : Fin 64) (k : Pkt) (l : List Pkt) (q : Queue) (s : State), s.stopped = false ∧ s.pstate p.val = .active ∧
      s.chuteTurn p.val = some n.val ∧ ((s.part p.val).ring n.val).pkts = k :: l ∧ nfld (wordAt k.words 0) 11 8 = 0 ∧ k.aborted = false ∧
      queueOf (nfld (wordAt k.words 0) 7 0) = some q ∧ (s.inQueue p.val q).length < 256) ∧
    (∃ (p : Fin 32) (n : Fin 64) (k : Pkt) (l : List Pkt) (s : State), s.stopped = false ∧ s.pstate p.val = .active ∧
      s.chuteTurn p.val = some n.val ∧ ((s.part p.val).ring n.val).pkts = k :: l ∧ nfld (wordAt k.words 0) 11 8 ≠ 0) ∧
    (∃ (p : Fin 32) (n : Fin 64) (k : Pkt) (l : List Pkt) (s : State), s.stopped = false ∧ s.pstate p.val = .active ∧
      s.chuteTurn p.val = some n.val ∧ ((s.part p.val).ring n.val).pkts = k :: l ∧ nfld (wordAt k.words 0) 11 8 = 0 ∧ k.aborted = true) ∧
    (∃ (p : Fin 32) (n : Fin 64) (k : Pkt) (l : List Pkt) (s : State), s.stopped = false ∧ s.pstate p.val = .active ∧
      s.chuteTurn p.val = some n.val ∧ ((s.part p.val).ring n.val).pkts = k :: l ∧ nfld (wordAt k.words 0) 11 8 = 0 ∧ k.aborted = false ∧
      queueOf (nfld (wordAt k.words 0) 7 0) = none) ∧
    (∃ (k : Fin 10) (w0 : Word) (seq : Word) (tag : Word) (len : Fin 64) (s : State), s.stopped = false ∧ nfld tag.toNat 31 24 = 0xC7 ∧
      nfld tag.toNat 23 16 = seq.toNat % 256 ∧ nfld tag.toNat 15 10 = len.val ∧ nfld w0.toNat 21 16 = len.val ∧
      seq.toNat = Tbl.get (fun _ => 0) s.fifoSeq k.val) ∧
    (∃ (rq : Requester) (p : Fin 32) (s : State), s.stopped = false ∧ s.writes rq (Reg.PART_FAULT_POP p.val) = true) := by
  refine ⟨?_, ?_, ?_, ?_, ?_, ?_, ?_, ?_, ?_, ?_, ?_, ?_⟩
  · exact by
      refine ⟨.ld 0, 0, 1, (granted.modRing 0 64 (fun _ => ring0)).setRegN (Reg.PART_CPL_TAIL 0) 1, ?_⟩
      rintro n rfl
      exact ⟨by decide +kernel, by decide +kernel, by decide +kernel, by decide +kernel⟩
  · exact by
      refine ⟨.ld 0, 0, 1, (granted.modRing 0 65 (fun _ => ring0)).setRegN (Reg.PART_MBOX_TAIL 0) 1, ?_⟩
      rintro n rfl
      exact ⟨by decide +kernel, by decide +kernel, by decide +kernel, by decide +kernel⟩
  · exact by
      refine ⟨.ld 0, 0, 2, (granted.modRing 0 64 (fun _ => ring0)).setRegN (Reg.PART_CPL_TAIL 0) 1, ?_⟩
      rintro n rfl
      exact ⟨by decide +kernel, by decide +kernel, by decide +kernel, by decide +kernel⟩
  · exact ⟨.host 0 0, 0x10000000, granted, by decide +kernel, by decide +kernel⟩
  · exact ⟨.host 1 0, 0x10000000, granted, by decide +kernel, by decide +kernel⟩
  · exact ⟨0, 65, 0, ⟨0, HomeReq.store .device 0x10000000 1 0 false⟩, { granted.modRing 0 65 (fun _ => { ring0 with held := [⟨0, HomeReq.store .device 0x10000000 1 0 false⟩] }) with lcc := 2 ^ 33 }, by decide +kernel, by decide +kernel, by decide +kernel⟩
  · exact ⟨0, 63, pkt0, [], .move, fed pkt0, by decide +kernel, by decide +kernel, by decide +kernel, by decide +kernel, by decide +kernel, by decide +kernel, by decide +kernel, by decide +kernel⟩
  · exact ⟨0, 63, { pkt0 with words := [0x101] }, [], fed { pkt0 with words := [0x101] }, by decide +kernel, by decide +kernel, by decide +kernel, by decide +kernel, by decide +kernel⟩
  · exact ⟨0, 63, { pkt0 with aborted := true }, [], fed { pkt0 with aborted := true }, by decide +kernel, by decide +kernel, by decide +kernel, by decide +kernel, by decide +kernel, by decide +kernel⟩
  · exact ⟨0, 63, { pkt0 with words := [0xFF] }, [], fed { pkt0 with words := [0xFF] }, by decide +kernel, by decide +kernel, by decide +kernel, by decide +kernel, by decide +kernel, by decide +kernel, by decide +kernel⟩
  · exact ⟨9, 0x3F0000, 0x1FF, 0xC7FFFC00, 63, { base with fifoSeq := [(9, 0x1FF)] }, by decide +kernel, by decide +kernel, by decide +kernel, by decide +kernel, by decide +kernel, by decide +kernel⟩
  · exact ⟨.ld 0, 0, base, by decide +kernel, by decide +kernel⟩
/-- A command that is ready to start. -/
def fit (op : Nat) : Cmd := { run op with phase := .ready }
/-- A command that has ended. -/
def past (op : Nat) : Cmd := { run op with phase := .ended }
/-- An ABORT packet naming chute 0, sequence 0. -/
def stop0 : Control := ⟨0, 1, 3, 0, false, [0, 0]⟩
/-- Partition 0 with one command and the ABORT that names it. -/
def stopping (c : Cmd) : State := (one c).modPart 0 (fun p => { p with control := [stop0] })

/-- What Obligations.CommandsStartAndEnd supposes can be met. -/
theorem witness_CommandsStartAndEnd :
    (∃ (p : Fin 32) (chute : Fin 64) (seq : Word) (c : Cmd) (st : Nat) (d : Nat) (s : State), s.stopped = false ∧
      s.cmd p.val chute.val seq.toNat = some c ∧ c.phase = .ready ∧ s.mayStart p.val = true ∧ s.fenceOpen p.val c = true ∧
      s.startRefusal p.val c = some (st, d)) ∧
    (∃ (p : Fin 32) (chute : Fin 64) (seq : Word) (c : Cmd) (k : UnitKind) (u : Nat) (s : State), s.stopped = false ∧
      s.cmd p.val chute.val seq.toNat = some c ∧ c.phase = .ready ∧ s.mayStart p.val = true ∧ s.fenceOpen p.val c = true ∧
      s.startRefusal p.val c = none ∧ (queueOf c.opcode).bind Queue.kind = some k ∧ s.unitFor p.val k c = some u ∧ s.sleepOf (k.key u) = 0) ∧
    (∃ (p : Fin 32) (chute : Fin 64) (seq : Word) (c : Cmd) (s : State), s.stopped = false ∧ s.cmd p.val chute.val seq.toNat = some c ∧
      c.phase = .ready ∧ s.mayStart p.val = true ∧ s.fenceOpen p.val c = true ∧ s.startRefusal p.val c = none ∧ c.opcode ∈ [0x0B, 0x0D, 0x10]) ∧
    (∃ (p : Fin 32) (chute : Fin 64) (seq : Word) (c : Cmd) (s : State), s.stopped = false ∧ s.cmd p.val chute.val seq.toNat = some c ∧
      c.phase = .ready ∧ s.mayStart p.val = true ∧ s.fenceOpen p.val c = true ∧ s.startRefusal p.val c = none ∧ c.opcode = 0x0C ∧
      s.watches p.val (semHub (nfld (c.arg 8) 17 0)) < 32) ∧
    (∃ (k : Fin 8) (p : Nat) (c : Cmd) (s : State), s.stopped = false ∧ (List.range 32).any (fun p => (s.channelsOf p).contains k.val) = false ∧
      ((List.range 32).map (fun i => (s.loft.moveTurn + i) % 32)).findSome? (fun p => if 4 ≤ (s.channelsOf p).length then none else ((s.part p).cmds.find? (s.channelReady p)).map (fun c => (p, c))) = some (p, c)) ∧
    (∃ (p : Fin 32) (chute : Fin 64) (seq : Word) (c : Cmd) (s : State), s.stopped = false ∧ s.cmd p.val chute.val seq.toNat = some c ∧
      c.phase ≠ .running ∧ c.phase ≠ .ended ∧ c.deadline ≠ 0 ∧ c.deadline < s.lcc) ∧
    
      (∃ (p : Fin 32) (c : Cmd) (s : State), ∀ (n : Nat) (tail : Nat) (a : Nat) (next : Nat) (u : State), n = ((s.part p.val).ring cplRing).range.size / 32 →
      tail = s.regN (Reg.PART_CPL_TAIL p.val) → a = ((s.part p.val).ring cplRing).range.base + 32 * tail → next = (tail + 1) % n →
      u = s.postBytes .device a 32 (wordsVal (c.record (s.part p.val).phaseBit s.lcc)) false → s.stopped = false ∧ s.nextRecord p.val = some c ∧
      ((s.part p.val).ring cplRing).ready = true ∧ ((s.part p.val).ring cplRing).disabling = false ∧
      (tail + 1) % max 1 n ≠ s.regN (Reg.PART_CPL_HEAD p.val) ∧ s.writable (a / 64) = true) ∧
    (∃ (p : Fin 32) (c : Cmd) (s : State), s.stopped = false ∧ s.nextRecord p.val = some c ∧ ((s.part p.val).ring cplRing).ready = true ∧
      (s.regN (Reg.PART_CPL_TAIL p.val) + 1) % max 1 (((s.part p.val).ring cplRing).range.size / 32) = s.regN (Reg.PART_CPL_HEAD p.val)) ∧
    (∃ (p : Fin 32) (chute : Fin 64) (seq : Word) (k : Control) (c : Cmd) (s : State), s.stopped = false ∧
      s.controlOf p.val chute.val seq.toNat 3 = some k ∧ s.cmd p.val (k.arg 8 % 64) (k.arg 9) = some c ∧ c.phase = .ended) ∧
    (∃ (p : Fin 32) (chute : Fin 64) (seq : Word) (k : Control) (c : Cmd) (s : State), s.stopped = false ∧
      s.controlOf p.val chute.val seq.toNat 3 = some k ∧ s.cmd p.val (k.arg 8 % 64) (k.arg 9) = some c ∧
      (c.phase = .queued ∨ c.phase = .ready ∨ ∃ i, c.phase = .faulted i)) ∧
    (∃ (p : Fin 32) (chute : Fin 64) (seq : Word) (k : Control) (s : State), ∀ (f : Pkt →
      Bool), f = (fun x : Pkt => decide (nfld (wordAt x.words 0) 11 8 = 0) && decide (wordAt x.words 1 = k.arg 9)) → s.stopped = false ∧
      s.controlOf p.val chute.val seq.toNat 3 = some k ∧ s.cmd p.val (k.arg 8 % 64) (k.arg 9) = none ∧
      ((s.part p.val).ring (k.arg 8 % 64)).pkts.any f = true) ∧
    (∃ (p : Fin 32) (chute : Fin 64) (seq : Word) (k : Control) (c : Cmd) (s : State), ∀ (u : State), u = s.dropWaiting p.val c → s.stopped = false ∧
      s.controlOf p.val chute.val seq.toNat 3 = some k ∧ s.cmd p.val (k.arg 8 % 64) (k.arg 9) = some c ∧ c.phase = .running ∧ c.opcode ≠ 0x0C ∧
      c.opcode ≠ 0x0D ∧ (c.opcode = 0x03 → (s.core c.runUnit).ending = none)) ∧
    (∃ (p : Fin 32) (chute : Fin 64) (seq : Word) (c : Cmd) (ue : Fin 3) (s : State), s.stopped = false ∧ s.cmd p.val chute.val seq.toNat = some c ∧
      ue ≠ 0 ∧ c.phase ≠ .ended ∧ c.phase ≠ .running) := by
  refine ⟨?_, ?_, ?_, ?_, ?_, ?_, ?_, ?_, ?_, ?_, ?_, ?_, ?_⟩
  · exact ⟨0, 0, 0, fit 0x03, stReservation, 0, one (fit 0x03), by decide +kernel, by decide +kernel, by decide +kernel, by decide +kernel, by decide +kernel, by decide +kernel⟩
  · exact ⟨0, 0, 0, fit 0x02, .me, 31, own .me 31 (one (fit 0x02)), by decide +kernel, by decide +kernel, by decide +kernel, by decide +kernel, by decide +kernel, by decide +kernel, by decide +kernel, by decide +kernel, by decide +kernel⟩
  · exact ⟨0, 0, 0, fit 0x10, one (fit 0x10), by decide +kernel, by decide +kernel, by decide +kernel, by decide +kernel, by decide +kernel, by decide +kernel, by decide +kernel⟩
  · exact ⟨0, 0, 0, fit 0x0C, one (fit 0x0C), by decide +kernel, by decide +kernel, by decide +kernel, by decide +kernel, by decide +kernel, by decide +kernel, by decide +kernel, by decide +kernel⟩
  · exact ⟨7, 0, fit 0x01, one (fit 0x01), by decide +kernel, by decide +kernel, by decide +kernel⟩
  · exact ⟨0, 0, 0, { fit 0x01 with deadline := 1 }, { one { fit 0x01 with deadline := 1 } with lcc := 2 }, by decide +kernel, by decide +kernel, by decide +kernel, by decide +kernel, by decide +kernel, by decide +kernel⟩
  · exact by
      refine ⟨0, past 0x01, ((one (past 0x01)).modRing 0 64 (fun _ => ring0)), ?_⟩
      rintro n tail a next u rfl rfl rfl rfl rfl
      exact ⟨by decide +kernel, by decide +kernel, by decide +kernel, by decide +kernel, by decide +kernel, by decide +kernel⟩
  · exact ⟨0, past 0x01, ((one (past 0x01)).modRing 0 64 (fun _ => ring0)).setRegN (Reg.PART_CPL_HEAD 0) 1, by decide +kernel, by decide +kernel, by decide +kernel, by decide +kernel⟩
  · exact ⟨0, 0, 1, stop0, past 0x01, stopping (past 0x01), by decide +kernel, by decide +kernel, by decide +kernel, by decide +kernel⟩
  · exact ⟨0, 0, 1, stop0, fit 0x01, stopping (fit 0x01), by decide +kernel, by decide +kernel, by decide +kernel, by exact .inr (.inl rfl)⟩
  · exact by
      refine ⟨0, 0, 1, stop0, (base.modPart 0 (fun p => { p with control := [stop0] })).modRing 0 0 (fun _ => { ring0 with pkts := [⟨0, 1, false, [1, 0]⟩] }), ?_⟩
      rintro f rfl
      exact ⟨by decide +kernel, by decide +kernel, by decide +kernel, by decide +kernel⟩
  · exact by
      refine ⟨0, 0, 1, stop0, run 0x02, stopping (run 0x02), ?_⟩
      rintro u rfl
      exact ⟨by decide +kernel, by decide +kernel, by decide +kernel, by decide +kernel, by decide +kernel, by decide +kernel, by decide +kernel⟩
  · exact ⟨0, 0, 0, fit 0x01, 1, one (fit 0x01), by decide +kernel, by decide +kernel, by decide +kernel, by decide +kernel, by decide +kernel⟩
/-- A program of one descriptor, its named addresses in page 0 of T0. -/
def prog (d : List Nat) : Cmd := { run 0x02 with args := [0, 0, 1], aux := [0, 0, 0], inputs := [d], pins := [⟨0, 12, 0x5D, 0⟩] }
/-- Engine 0 of partition 0 runs a command, and the partition owns page 0 of T0. -/
def onMe (c : Cmd) : State := (own .me 0 (one c)).setT0Owner 0 (some 0)
/-- A BF16 tile of one row of ones. -/
def ones : Tile := ⟨0, 1, 16, false, 0, [List.replicate 16 0x3F80], []⟩
/-- The engine with three slots: two BF16 tiles and one FP32 tile. -/
def slotted (c : Cmd) : State :=
  (onMe c).modEngine 0 (fun _ => ⟨[⟨0, ones, false, none⟩, ⟨1, ones, false, none⟩, ⟨2, ⟨10, 1, 16, false, 0, [List.replicate 16 0x3F800000], []⟩, false, none⟩], false⟩)
/-- An MMA of the two BF16 slots into slot 3. -/
def mma3 : List Nat := [0x30002, 0x10000, 0, 0, 0, 0, 0, 0]
/-- A LOAD_TILE of one row of 32 E4M3 codes and its scale. -/
def ld0 : List Nat := [0x101, 0x100, 0, 0, 64, 0, 32, 0]
/-- A LOAD_TILE of one row of 32 E2M1 codes. -/
def ld5 : List Nat := [0x501, 0x100, 0, 0, 64, 0, 16, 0]
/-- The tile ld0 loads, empty. -/
def tile0 : Tile := ⟨1, 1, 32, false, 0, [], []⟩
/-- A program whose addresses lie in T1. -/
def progT1 : Cmd := { prog ld5 with pins := [⟨0, 12, 0x40000001D, 0⟩] }
/-- Partition 0 with an escalation table whose entry 8 holds the origin of progT1. -/
def escaped : State :=
  ({ onMe progT1 with extents := [⟨0, ⟨0x400000000, 0x10000000⟩, .live⟩] }.modRing 0 66
    (fun _ => { ring0 with range := ⟨0x400001000, 4096⟩, range2 := ⟨0x400002000, 2162688⟩ })).setRegF (Reg.PART_ESC_TBL_CTRL 0) 12 8 7
/-- The entry's words. -/
def escMem : State := escaped.t1Write 0x400001100 12 0x1000000100400000000

/-- What Obligations.MatrixSteps supposes can be met. -/
theorem witness_MatrixSteps :
    (∃ (p : Fin 32) (chute : Fin 64) (seq : Word) (c : Cmd) (s : State), s.stopped = false ∧ s.cmd p.val chute.val seq.toNat = some c ∧
      c.opcode = 0x02 ∧ c.phase = .running ∧ c.mustStop = false ∧ c.aux = [] ∧ c.progOk = true) ∧
    (∃ (p : Fin 32) (chute : Fin 64) (seq : Word) (c : Cmd) (s : State), s.stopped = false ∧ s.cmd p.val chute.val seq.toNat = some c ∧
      c.opcode = 0x02 ∧ c.phase = .running ∧ c.mustStop = false ∧ c.aux = [] ∧ c.progOk = false) ∧
    
      (∃ (e : Fin 32) (p : Nat) (c : Cmd) (t0 : Tile) (rows : List (List (Nat × Nat))) (sc : List (Nat × Nat)) (gs : List Got) (gsc : Got) (s : State) (s1 : State) (s2 : State), ∀ (ns : Nat) (data : List (List Nat)) (scales : List (List Nat)), ns = scalesPerRow t0.fmt t0.k t0.two →
      data = gs.map (fun g => unpackRow t0.fmt t0.k g.value) →
      scales = (List.range t0.rows).map (fun i => unpackRow fmE4m3 ns (gsc.value / 2 ^ (8 * (i * ns)))) → s.stopped = false ∧
      AtStep s e.val 1 p c ∧ loadShape (c.desc c.progress) = some t0 ∧
      Slot.fits ⟨nfld (wordAt (c.desc c.progress) 0) 26 16, t0, false, none⟩ = true ∧
      c.rows acRead (pairAt (c.desc c.progress) 2) (wordAt (c.desc c.progress) 6) (rowBytes t0.fmt t0.k) t0.rows = some rows ∧
      c.range (pairAt (c.desc c.progress) 4) (t0.rows * ns) acRead = some sc ∧ s.escReady p = false ∧
      AllReady s (c.agent p) true (rows.flatten ++ sc) ∧ s.fetchRows (c.agent p) rows = (gs, s1) ∧ s1.fetchAll (c.agent p) true sc = (gsc, s2) ∧
      gotStatus (gsc :: gs) = 0 ∧ (data.map (invalidCodes t0.fmt)).sum = 0) ∧
    
      (∃ (e : Fin 32) (p : Nat) (i : Nat) (o : Nat) (c : Cmd) (t0 : Tile) (rows : List (List (Nat × Nat))) (sc : List (Nat × Nat)) (s : State), ∀ (u : State), u = Found s (s.escLines p o) →
      s.stopped = false ∧ AtStep s e.val 1 p c ∧ loadShape (c.desc c.progress) = some t0 ∧
      Slot.fits ⟨nfld (wordAt (c.desc c.progress) 0) 26 16, t0, false, none⟩ = true ∧
      c.rows acRead (pairAt (c.desc c.progress) 2) (wordAt (c.desc c.progress) 6) (rowBytes t0.fmt t0.k) t0.rows = some rows ∧
      c.range (pairAt (c.desc c.progress) 4) (t0.rows * scalesPerRow t0.fmt t0.k t0.two) acRead = some sc ∧ s.originOf rows = some o ∧
      isNarrow t0.fmt = true ∧ s.escReady p = true ∧ (s.escLines p o).all s.readable = true ∧ u.loadHit p t0 (some o) = some i) ∧
    (∃ (e : Fin 32) (p : Nat) (c : Cmd) (x : Slot) (s : State), s.stopped = false ∧ AtStep s e.val 2 p c ∧
      s.stepSlot p e.val c Attempt.clean = some x) ∧
    (∃ (e : Fin 32) (p : Nat) (c : Cmd) (x : Slot) (m : BitVec 16) (r : Attempt) (s : State), s.stopped = false ∧ AtStep s e.val 2 p c ∧
      s.stepSlot p e.val c Attempt.clean = some x ∧ r.fixed = 0 ∧ s.checkRun e.val c r = some m) ∧
    (∃ (e : Fin 32) (p : Nat) (c : Cmd) (s : State), s.stopped = false ∧ AtStep s e.val 2 p c ∧ s.stepSlot p e.val c Attempt.clean = none) ∧
    (∃ (e : Fin 32) (p : Nat) (c : Cmd) (x : Slot) (s : State), s.stopped = false ∧ AtStep s e.val 3 p c ∧
      s.stepSlot p e.val c Attempt.clean = some x) ∧
    (∃ (e : Fin 32) (p : Nat) (c : Cmd) (s : State), s.stopped = false ∧ AtStep s e.val 3 p c ∧ s.stepSlot p e.val c Attempt.clean = none) ∧
    (∃ (e : Fin 32) (p : Nat) (c : Cmd) (x : Slot) (rows : List (List (Nat × Nat))) (sc : List (Nat × Nat)) (s : State), s.stopped = false ∧
      AtStep s e.val 4 p c ∧ slotAt (s.engine e.val).slots (nfld (wordAt (c.desc c.progress) 0) 26 16) = some x ∧ x.fromEsc = false ∧
      wordAt (c.desc c.progress) 6 % 16 = 0 ∧ rowBytes x.tile.fmt x.tile.k ≤ wordAt (c.desc c.progress) 6 ∧
      c.rows acWrite (pairAt (c.desc c.progress) 2) (wordAt (c.desc c.progress) 6) (rowBytes x.tile.fmt x.tile.k) x.tile.rows = some rows ∧
      c.range (pairAt (c.desc c.progress) 4) (x.tile.rows * scalesPerRow x.tile.fmt x.tile.k x.tile.two) acWrite = some sc) ∧
    (∃ (e : Fin 32) (p : Nat) (h : Nat) (c : Cmd) (x : Slot) (s : State), s.stopped = false ∧ s.program e.val = some (p, c) ∧
      (s.engine e.val).waiting = true ∧ wordAt (c.desc c.progress) 0 % 256 ≠ 4 ∧ s.helperFor p e.val = some h ∧
      s.stepSlot p e.val c Attempt.clean = some x) ∧
    (∃ (e : Fin 32) (p : Nat) (h : Nat) (c : Cmd) (m : BitVec 16) (r : Attempt) (s : State), s.stopped = false ∧ s.program e.val = some (p, c) ∧
      (s.engine e.val).waiting = true ∧ s.helperFor p e.val = some h ∧ r.fixed = 0 ∧ s.checkRun e.val c r = some m) ∧
    (∃ (e : Fin 32) (p : Nat) (c : Cmd) (s : State), s.stopped = false ∧ AtStep s e.val 5 p c ∧ s.semIn p (wordAt (c.desc c.progress) 1) = true ∧
      s.waitOf (.me e.val) = none) ∧
    (∃ (e : Fin 32) (p : Nat) (v : Nat) (c : Cmd) (s : State) (u : State), s.stopped = false ∧ AtStep s e.val 6 p c ∧
      s.semIn p (wordAt (c.desc c.progress) 1) = true ∧ c.unacked = 0 ∧
      s.semAdd p (wordAt (c.desc c.progress) 1) (pairAt (c.desc c.progress) 2) = (u, some v)) := by
  refine ⟨?_, ?_, ?_, ?_, ?_, ?_, ?_, ?_, ?_, ?_, ?_, ?_, ?_, ?_⟩
  · exact ⟨0, 0, 0, { prog mma3 with aux := [] }, onMe { prog mma3 with aux := [] }, by decide +kernel, by decide +kernel, by decide +kernel, by decide +kernel, by decide +kernel, by decide +kernel, by decide +kernel⟩
  · exact ⟨0, 0, 0, { prog mma3 with aux := [], args := [] }, onMe { prog mma3 with aux := [], args := [] }, by decide +kernel, by decide +kernel, by decide +kernel, by decide +kernel, by decide +kernel, by decide +kernel, by decide +kernel⟩
  · exact by
      refine ⟨0, 0, prog ld0, tile0, [[(t0Flag, 32)]], [(t0Flag + 64, 1)], [⟨0, false, 0⟩], ⟨0, false, 0⟩, onMe (prog ld0), ((onMe (prog ld0)).fetchRows ((prog ld0).agent 0) [[(t0Flag, 32)]]).2, (((onMe (prog ld0)).fetchRows ((prog ld0).agent 0) [[(t0Flag, 32)]]).2.fetchAll ((prog ld0).agent 0) true [(t0Flag + 64, 1)]).2, ?_⟩
      rintro ns data scales rfl rfl rfl
      exact ⟨by decide +kernel, by constructor <;> decide +kernel, by decide +kernel, by decide +kernel, by decide +kernel, by decide +kernel, by decide +kernel, by (unfold AllReady; decide +kernel), by exact pair_eq (by decide +kernel), by exact pair_eq (by decide +kernel), by decide +kernel, by decide +kernel⟩
  · exact by
      refine ⟨0, 0, 8, 0x400000000, progT1, ⟨5, 1, 32, false, 0, [], []⟩, [[(0x400000000, 16)]], [(0x400000040, 1)], escMem, ?_⟩
      rintro u rfl
      exact ⟨by decide +kernel, by constructor <;> decide +kernel, by decide +kernel, by decide +kernel, by decide +kernel, by decide +kernel, by decide +kernel, by decide +kernel, by decide +kernel, by decide +kernel, by decide +kernel⟩
  · exact ⟨0, 0, prog mma3, ⟨3, ⟨10, 1, 1, false, 0, [[0x41800000]], []⟩, false, none⟩, slotted (prog mma3), by decide +kernel, by constructor <;> decide +kernel, by decide +kernel⟩
  · exact ⟨0, 0, prog mma3, ⟨3, ⟨10, 1, 1, false, 0, [[0x41800000]], []⟩, false, none⟩, 0xFFFF, ⟨[], some 0x7FFF, 0⟩, slotted (prog mma3), by decide +kernel, by constructor <;> decide +kernel, by decide +kernel, by decide +kernel, by decide +kernel⟩
  · exact ⟨0, 0, prog mma3, onMe (prog mma3), by decide +kernel, by constructor <;> decide +kernel, by decide +kernel⟩
  · exact ⟨0, 0, prog [0x20003, 3], ⟨3, ones, false, none⟩, slotted (prog [0x20003, 3]), by decide +kernel, by constructor <;> decide +kernel, by decide +kernel⟩
  · exact ⟨0, 0, prog [3, 3], slotted (prog [3, 3]), by decide +kernel, by constructor <;> decide +kernel, by decide +kernel⟩
  · exact ⟨0, 0, prog [4, 0, 0, 0, 0, 0, 32], ⟨0, ones, false, none⟩, [[(t0Flag, 32)]], [], slotted (prog [4, 0, 0, 0, 0, 0, 32]), by decide +kernel, by constructor <;> decide +kernel, by decide +kernel, by decide +kernel, by decide +kernel, by decide +kernel, by decide +kernel, by decide +kernel⟩
  · exact ⟨0, 0, 1, prog mma3, ⟨3, ⟨10, 1, 1, false, 0, [[0x41800000]], []⟩, false, none⟩, own .me 1 ((slotted (prog mma3)).modEngine 0 (fun g => { g with waiting := true })), by decide +kernel, by decide +kernel, by decide +kernel, by decide +kernel, by decide +kernel, by decide +kernel⟩
  · exact ⟨0, 0, 31, prog mma3, 1, ⟨[], some 0, 0⟩, own .me 31 ((onMe (prog mma3)).modEngine 0 (fun g => { g with waiting := true })), by decide +kernel, by decide +kernel, by decide +kernel, by decide +kernel, by decide +kernel, by decide +kernel⟩
  · exact ⟨0, 0, prog [5, 63], (onMe (prog [5, 63])).setRegF (Reg.PART_RSV_SEM 0) 31 19 1, by decide +kernel, by constructor <;> decide +kernel, by decide +kernel, by decide +kernel⟩
  · exact ⟨0, 0, 5, prog [6, 0, 5], (onMe (prog [6, 0, 5])).setRegF (Reg.PART_RSV_SEM 0) 31 19 1, (((onMe (prog [6, 0, 5])).setRegF (Reg.PART_RSV_SEM 0) 31 19 1).semAdd 0 0 5).1, by decide +kernel, by constructor <;> decide +kernel, by decide +kernel, by decide +kernel, by exact pair_eq' (by decide +kernel)⟩

/-- What Obligations.QuarantineAndEscalation supposes can be met. -/
theorem witness_QuarantineAndEscalation :
    (∃ (rq : Requester) (i : Fin 32) (v : Word) (s : State), ∀ (u : State), u = s.store (Reg.ME_CTRL i.val) v → s.stopped = false ∧
      s.writes rq (Reg.ME_CTRL i.val) = true ∧ u.quarantined .me i.val = false ∧ u.marked .me i.val = false) ∧
    (∃ (rq : Requester) (i : Fin 32) (v : Word) (s : State), ∀ (u : State), u = s.store (Reg.ME_CTRL i.val) v → s.stopped = false ∧
      s.writes rq (Reg.ME_CTRL i.val) = true ∧ u.owner .me i.val = none) ∧
    (∃ (rq : Requester) (i : Fin 64) (v : Word) (s : State), ∀ (u : State), u = s.store (Reg.GC_CTRL i.val) (v ||| 1) → s.stopped = false ∧
      s.writes rq (Reg.GC_CTRL i.val) = true ∧ u.quarantined .gc i.val = false ∧ u.marked .gc i.val = false) ∧
    (∃ (rq : Requester) (i : Fin 64) (v : Word) (s : State), ∀ (u : State), u = s.store (Reg.GC_CTRL i.val) (v ||| 2) → s.stopped = false ∧
      s.writes rq (Reg.GC_CTRL i.val) = true ∧ u.owner .gc i.val = none) ∧
    (∃ (rq : Requester) (i : Fin 16) (v : Word) (s : State), ∀ (u : State), u = s.store (Reg.ROW_CTRL i.val) v → s.stopped = false ∧
      s.writes rq (Reg.ROW_CTRL i.val) = true ∧ u.quarantined .row i.val = false ∧ u.marked .row i.val = false) ∧
    (∃ (rq : Requester) (i : Fin 16) (v : Word) (s : State), ∀ (u : State), u = s.store (Reg.ROW_CTRL i.val) v → s.stopped = false ∧
      s.writes rq (Reg.ROW_CTRL i.val) = true ∧ u.owner .row i.val = none) ∧
    (∃ (rq : Requester) (i : Fin 16) (v : Word) (s : State), ∀ (u : State), u = s.store (Reg.WIN_CTRL i.val) v → s.stopped = false ∧
      s.writes rq (Reg.WIN_CTRL i.val) = true ∧ u.quarantined .win i.val = false ∧ u.marked .win i.val = false) ∧
    (∃ (rq : Requester) (i : Fin 16) (v : Word) (s : State), ∀ (u : State), u = s.store (Reg.WIN_CTRL i.val) v → s.stopped = false ∧
      s.writes rq (Reg.WIN_CTRL i.val) = true ∧ u.owner .win i.val = none) ∧
    (∃ (k : UnitKind) (n : Fin 64) (s : State), s.stopped = false ∧ s.marked k n.val = true ∧ s.unitCmd k n.val = none) ∧
    (∃ (n : Fin 64) (p : Nat) (c : Cmd) (s : State), ∀ (u : State), u = s.endCmd p c stChecksum c.progress (min (c.auxAt 2) 0xFFFFFF) →
      s.stopped = false ∧ s.marked .me n.val = true ∧ s.unitCmd .me n.val = some (p, c) ∧ (s.engine n.val).waiting = false ∧
      s.waitOf (.me n.val) = none) ∧
    
      (∃ (rq : Requester) (p : Fin 32) (v : Word) (s : State), ∀ (u : State) (n : Nat) (r : Range) (r2 : Range), u = s.store (Reg.PART_ESC_TBL_CTRL p.val) (v ||| 1) →
      n = u.escLog2 p.val → r = ⟨u.reg64 (Reg.PART_ESC_TBL_BASE_LO p.val) % 2 ^ 40, 32 * 2 ^ n⟩ →
      r2 = ⟨u.reg64 (Reg.PART_ESC_ARENA_BASE_LO p.val) % 2 ^ 40, arenaSlot * 2 ^ n⟩ → s.stopped = false ∧
      s.writes rq (Reg.PART_ESC_TBL_CTRL p.val) = true ∧ bitOf (s.reg (Reg.PART_ESC_TBL_CTRL p.val)) 0 = false ∧
      u.ringCheck p.val escRing true n 7 16 r r2 = 0 ∧ r.meets r2 = false ∧ ((u.part p.val).ring escRing).disabling = false) ∧
    
      (∃ (rq : Requester) (p : Fin 32) (v : Word) (s : State), ∀ (u : State), u = (if bitOf v 0 then s.escEnable p.val v else s.disableWrite p.val escRing v) →
      s.stopped = false ∧ s.writes rq (Reg.PART_ESC_TBL_CTRL p.val) = true ∧ u.escReady p.val = true ∧ u.stepUnderWay p.val = true) ∧
    
      (∃ (rq : Requester) (p : Fin 32) (v : Word) (s : State), ∀ (u : State) (w : State), u = (if bitOf v 0 then s.escEnable p.val v else s.disableWrite p.val escRing v) →
      w = u.modPart p.val (fun pt => { pt with clearDue := true }) → s.stopped = false ∧ s.writes rq (Reg.PART_ESC_TBL_CTRL p.val) = true ∧
      u.escReady p.val = true ∧ w.stepUnderWay p.val = false ∧ w.heldBack ((w.part p.val).ring escRing).range = []) := by
  refine ⟨?_, ?_, ?_, ?_, ?_, ?_, ?_, ?_, ?_, ?_, ?_, ?_, ?_⟩
  · exact by
      refine ⟨.fm 0, 31, 0, base, ?_⟩
      rintro u rfl
      exact ⟨by decide +kernel, by decide +kernel, by decide +kernel, by decide +kernel⟩
  · exact by
      refine ⟨.fm 0, 31, 0, base, ?_⟩
      rintro u rfl
      exact ⟨by decide +kernel, by decide +kernel, by decide +kernel⟩
  · exact by
      refine ⟨.fm 0, 63, 0, base, ?_⟩
      rintro u rfl
      exact ⟨by decide +kernel, by decide +kernel, by decide +kernel, by decide +kernel⟩
  · exact by
      refine ⟨.fm 0, 63, 0, base, ?_⟩
      rintro u rfl
      exact ⟨by decide +kernel, by decide +kernel, by decide +kernel⟩
  · exact by
      refine ⟨.fm 0, 15, 0, base, ?_⟩
      rintro u rfl
      exact ⟨by decide +kernel, by decide +kernel, by decide +kernel, by decide +kernel⟩
  · exact by
      refine ⟨.fm 0, 15, 0, base, ?_⟩
      rintro u rfl
      exact ⟨by decide +kernel, by decide +kernel, by decide +kernel⟩
  · exact by
      refine ⟨.fm 0, 15, 0, base, ?_⟩
      rintro u rfl
      exact ⟨by decide +kernel, by decide +kernel, by decide +kernel, by decide +kernel⟩
  · exact by
      refine ⟨.fm 0, 15, 0, base, ?_⟩
      rintro u rfl
      exact ⟨by decide +kernel, by decide +kernel, by decide +kernel⟩
  · exact ⟨.gc, 63, { base with marks := [UnitKind.key .gc 63] }, by decide +kernel, by decide +kernel, by decide +kernel⟩
  · exact by
      refine ⟨0, 0, prog mma3, { onMe (prog mma3) with marks := [0] }, ?_⟩
      rintro u rfl
      exact ⟨by decide +kernel, by decide +kernel, by decide +kernel, by decide +kernel, by decide +kernel⟩
  · exact by
      refine ⟨.ld 0, 0, 0x700, (granted.setReg64 (Reg.PART_ESC_TBL_BASE_LO 0) 0x400000000).setReg64 (Reg.PART_ESC_ARENA_BASE_LO 0) 0x400001000, ?_⟩
      rintro u n r r2 rfl rfl rfl rfl
      exact ⟨by decide +kernel, by decide +kernel, by decide +kernel, by decide +kernel, by decide +kernel, by decide +kernel⟩
  · exact by
      refine ⟨.ld 0, 0, 0x701, ((onMe (prog mma3)).modEngine 0 (fun g => { g with waiting := true })).modRing 0 66 (fun _ => ring0), ?_⟩
      rintro u rfl
      exact ⟨by decide +kernel, by decide +kernel, by decide +kernel, by decide +kernel⟩
  · exact by
      refine ⟨.ld 0, 0, 0x701, granted.modRing 0 66 (fun _ => ring0), ?_⟩
      rintro u w rfl rfl
      exact ⟨by decide +kernel, by decide +kernel, by decide +kernel, by decide +kernel, by decide +kernel⟩
/-- A GC_RUN whose core has begun. -/
def gcCmd : Cmd := { run 0x03 with aux := [0, 0] }
/-- Core 0 of partition 0 runs a program in page 0 of T0, with two lines in its L1D and one in its L1I. -/
def onGc (x : Core → Core) : State :=
  let s := ((own .gc 0 (one gcCmd)).setT0Owner 0 (some 0)).setRegF (Reg.PART_XLT_CTRL 0) 31 31 1
  ({ s with xlt := { s.xlt with leaves := [⟨0, 0, 0, 12, 1, 0x5D⟩, ⟨0, 0, 4096, 12, 1, 0x1000000001D⟩] } }).modCore 0 (fun y =>
    x { y with l1d := [⟨t0Flag, [0], 1 + 2 ^ 32, false, false, 0⟩, ⟨t0Flag + 64, [64], 0, false, false, 0⟩], merge := ⟨some 0, 0, []⟩ })
/-- It has come to an instruction. -/
def at4 (w : Nat) (r : List (Nat × Nat)) : State := onGc (fun x => { x with instr := some (w, 4), x := r })
/-- Its pc is at an instruction that its L1I holds. -/
def fetching (w : Nat) : State := onGc (fun x => { x with pc := 128, l1i := [⟨t0Flag + 128, w⟩] })

/-- What Obligations.CoreRuns supposes can be met. -/
theorem witness_CoreRuns :
    (∃ (p : Fin 32) (chute : Fin 64) (seq : Word) (c : Cmd) (s : State), s.stopped = false ∧ s.cmd p.val chute.val seq.toNat = some c ∧
      c.opcode = 0x03 ∧ c.phase = .running ∧ c.aux = [] ∧ c.mustStop = false ∧ c.arg64 8 % 2 = 0 ∧ c.arg 14 % 2 = 0) ∧
    
      (∃ (g : Fin 64) (p : Nat) (st : Nat) (result : Nat) (detail : Nat) (c : Cmd) (s : State), ∀ (u : State) (v : State), u = s.cleanLines p c g.val (fun _ => true) false →
      v = (((u.endFaultsOf p c).endWait (.core g.val)).forgetArrivals (.core g.val)).dropCoreResv g.val → s.stopped = false ∧
      s.gcRun g.val = some (p, c) ∧ c.mustStop = false ∧ (s.core g.val).ending.isSome = true ∧
      (u.core g.val).ending = some (st, result, detail) ∧ u.unacked p c = 0) ∧
    (∃ (g : Fin 64) (p : Nat) (w : Nat) (len : Nat) (c : Cmd) (s : State), s.stopped = false ∧ AtInstr s g.val .ecall p c w len ∧
      (s.core g.val).xr 17 = 0) ∧
    (∃ (g : Fin 64) (p : Nat) (w : Nat) (len : Nat) (c : Cmd) (s : State), s.stopped = false ∧ AtInstr s g.val .ebreak p c w len) ∧
    (∃ (g : Fin 64) (p : Nat) (w : Nat) (len : Nat) (c : Cmd) (s : State), s.stopped = false ∧ AtInstr s g.val .illegal p c w len) ∧
    (∃ (g : Fin 64) (p : Nat) (w : Nat) (len : Nat) (v : Nat) (c : Cmd) (l : List MemAcc) (a : MemAcc) (s : State) (u : State), s.stopped = false ∧
      AtInstr s g.val .load p c w len ∧ (s.core g.val).loads w = some l ∧ l[(s.core g.val).elem]? = some a ∧
      (isFirstOnly w && decide (0 < a.el) && s.readFaults p g.val a.va a.n) = false ∧ Reads s p c g.val a.va a.n v u) ∧
    (∃ (g : Fin 64) (p : Nat) (w : Nat) (len : Nat) (c : Cmd) (l : List MemAcc) (a : MemAcc) (s : State) (u : State), s.stopped = false ∧
      AtInstr s g.val .store p c w len ∧ (s.core g.val).stores w = some l ∧ l[(s.core g.val).elem]? = some a ∧
      Writes s p c g.val a.va a.n ((s.core g.val).toStore a) u) ∧
    
      (∃ (g : Fin 64) (p : Nat) (w : Nat) (len : Nat) (c : Cmd) (s : State) (u : State), ∀ (v : State), v = u.modCore g.val (fun x => { x with instr := some (w, len), elem := 0 }) →
      s.stopped = false ∧ s.gcRun g.val = some (p, c) ∧ (s.core g.val).ending = none ∧ c.mustStop = false ∧ s.marked .gc g.val = false ∧
      s.atFault p c = none ∧ (s.core g.val).instr = none ∧ Fetches s p c g.val w len u ∧ (u.core g.val).row v.lcc len w ≠ .plain) ∧
    
      (∃ (g : Fin 64) (p : Nat) (w : Nat) (len : Nat) (c : Cmd) (y : Core) (o : Open) (s : State) (u : State), ∀ (v : State) (x : Nat × State), v = u.modCore g.val (fun x => { x with instr := some (w, len), elem := 0 }) →
      x = (if iOp w = 0x57 then v.drawMany 8 else (0, v)) → s.stopped = false ∧ s.gcRun g.val = some (p, c) ∧ (s.core g.val).ending = none ∧
      c.mustStop = false ∧ s.marked .gc g.val = false ∧ s.atFault p c = none ∧ (s.core g.val).instr = none ∧ Fetches s p c g.val w len u ∧
      (u.core g.val).row v.lcc len w = .plain ∧ (u.core g.val).plain x.2.lcc len w x.1 = some (y, o)) ∧
    (∃ (g : Fin 64) (p : Nat) (w : Nat) (len : Nat) (c : Cmd) (s : State), s.stopped = false ∧ AtInstr s g.val .fence p c w len) ∧
    (∃ (g : Fin 64) (p : Nat) (w : Nat) (len : Nat) (c : Cmd) (s : State), s.stopped = false ∧ AtInstr s g.val .fenceI p c w len) := by
  refine ⟨?_, ?_, ?_, ?_, ?_, ?_, ?_, ?_, ?_, ?_, ?_⟩
  · exact ⟨0, 63, 5, { gcCmd with chute := 63, seq := 5, aux := [] }, own .gc 0 (one { gcCmd with chute := 63, seq := 5, aux := [] }), by decide +kernel, by decide +kernel, by decide +kernel, by decide +kernel, by decide +kernel, by decide +kernel, by decide +kernel, by decide +kernel⟩
  · exact by
      refine ⟨0, 0, 0, 7, 0, gcCmd, onGc (fun x => { x with ending := some (0, 7, 0) }), ?_⟩
      rintro u v rfl rfl
      exact ⟨by decide +kernel, by decide +kernel, by decide +kernel, by decide +kernel, by decide +kernel, by decide +kernel⟩
  · exact ⟨0, 0, 0x73, 4, gcCmd, at4 0x73 [], by decide +kernel, by constructor <;> decide +kernel, by decide +kernel⟩
  · exact ⟨0, 0, 0x100073, 4, gcCmd, at4 0x100073 [], by decide +kernel, by constructor <;> decide +kernel⟩
  · exact ⟨0, 0, 0, 4, gcCmd, at4 0 [], by decide +kernel, by constructor <;> decide +kernel⟩
  · exact ⟨0, 0, 0x00002083, 4, 1, gcCmd, [⟨0, 4, .x 1 true, 0⟩], ⟨0, 4, .x 1 true, 0⟩, at4 0x00002083 [], at4 0x00002083 [], by decide +kernel, by constructor <;> decide +kernel, by decide +kernel, by decide +kernel, by decide +kernel, by exact reads_hit (leaf := 0x5D) (d := ⟨t0Flag, [0], 1 + 2 ^ 32, false, false, 0⟩) (by decide +kernel) rfl (by decide +kernel) (by decide +kernel) rfl (by decide +kernel)⟩
  · exact ⟨0, 0, 0x00102023, 4, gcCmd, [⟨0, 4, .x 1 false, 0⟩], ⟨0, 4, .x 1 false, 0⟩, at4 0x00102023 [(1, 5)], (at4 0x00102023 [(1, 5)]).putL1 0 t0Flag 4 (((at4 0x00102023 [(1, 5)]).core 0).toStore ⟨0, 4, .x 1 false, 0⟩), by decide +kernel, by constructor <;> decide +kernel, by decide +kernel, by decide +kernel, by exact writes_hit (leaf := 0x5D) (d := ⟨t0Flag, [0], 1 + 2 ^ 32, false, false, 0⟩) (by decide +kernel) rfl (by decide +kernel) (by decide +kernel)⟩
  · exact by
      refine ⟨0, 0, 0x73, 4, gcCmd, fetching 0x73, fetching 0x73, ?_⟩
      rintro v rfl
      exact ⟨by decide +kernel, by decide +kernel, by decide +kernel, by decide +kernel, by decide +kernel, by decide +kernel, by decide +kernel, by exact fetches_hit (leaf := 0x5D) (phys := t0Flag + 128) (lo := 0x73) (hi := 0) (d := ⟨t0Flag + 128, 0x73⟩) (by decide +kernel) (by decide +kernel) (by decide +kernel) (by decide +kernel) (by decide +kernel) (by decide +kernel) rfl rfl rfl, by decide +kernel⟩
  · exact by
      refine ⟨0, 0, 0x00100093, 4, gcCmd, (onGc (fun x => { x with pc := 132, x := [(1, 1)], l1i := [⟨t0Flag + 128, 0x00100093⟩] })).core 0, .none, fetching 0x00100093, fetching 0x00100093, ?_⟩
      rintro v x rfl rfl
      exact ⟨by decide +kernel, by decide +kernel, by decide +kernel, by decide +kernel, by decide +kernel, by decide +kernel, by decide +kernel, by exact fetches_hit (leaf := 0x5D) (phys := t0Flag + 128) (lo := 0x93) (hi := 0x10) (d := ⟨t0Flag + 128, 0x00100093⟩) (by decide +kernel) (by decide +kernel) (by decide +kernel) (by decide +kernel) (by decide +kernel) (by decide +kernel) rfl rfl rfl, by decide +kernel, by decide +kernel⟩
  · exact ⟨0, 0, 0x0FF0000F, 4, gcCmd, at4 0x0FF0000F [], by decide +kernel, by constructor <;> decide +kernel⟩
  · exact ⟨0, 0, 0x0000100F, 4, gcCmd, at4 0x0000100F [], by decide +kernel, by constructor <;> decide +kernel⟩
/-- The state that an atomic of core 0 on the first word of the page leaves: the word holds v. -/
def atomed (s : State) (v : Nat) : State :=
  ((s.cleanLines 0 gcCmd 0 (fun d => decide (d.addr = t0Flag)) true).t0Line 0 true (.ofPart 0)).t0Put 0 0xF v false

/-- What Obligations.CoreAtomics supposes can be met. -/
theorem witness_CoreAtomics :
    (∃ (i : Fin 64 →
      Instr) (row : GcRow) (c32 : Nat) (c64 : Nat) (g : Fin 64) (p : Nat) (c : Cmd) (w : Nat) (len : Nat) (m : Nat) (phys : Nat) (prior : Nat) (s : State) (s0 : State) (u : State) (z : State), ∀ (n : Nat), n = (if iF3 w = 3 then 8 else 4) →
      s.stopped = false ∧
      (i, row, c32, c64) ∈ [(Instr.amoadd, GcRow.amoadd, 0x01, 0x02), (Instr.amomin, GcRow.amomin, 0x03, 0x04), (Instr.amomax, GcRow.amomax, 0x05, 0x06), (Instr.amominu, GcRow.amominu, 0x07, 0x08), (Instr.amomaxu, GcRow.amomaxu, 0x09, 0x0A), (Instr.amoswap, GcRow.amoswap, 0x20, 0x30), (Instr.amoand, GcRow.amoand, 0x21, 0x31), (Instr.amoor, GcRow.amoor, 0x22, 0x32), (Instr.amoxor, GcRow.amoxor, 0x23, 0x33)] ∧
      AtInstr s g.val row p c w len ∧ (s.core g.val).xr (iRs1 w) % n = 0 ∧ Released s p c g.val (amoRl w) s0 ∧
      s0.issue p c (g.val / 16) ((s.core g.val).xr (iRs1 w)) acAtomic (s0.core g.val).retired = .ok phys m u ∧ u.isRemote phys = false ∧
      Atomic u p c g.val phys (if iF3 w = 3 then c64 else c32) ((s.core g.val).xr (iRs2 w) % 2 ^ (if iF3 w = 3 then 64 else 32)) 0 prior z) ∧
    (∃ (i : Fin 64 →
      Instr) (row : GcRow) (c32 : Nat) (c64 : Nat) (g : Fin 64) (p : Nat) (c : Cmd) (w : Nat) (len : Nat) (m : Nat) (phys : Nat) (s : State) (s0 : State) (u : State), ∀ (n : Nat), n = (if iF3 w = 3 then 8 else 4) →
      s.stopped = false ∧
      (i, row, c32, c64) ∈ [(Instr.amoswap, GcRow.amoswap, 0x20, 0x30), (Instr.amoand, GcRow.amoand, 0x21, 0x31), (Instr.amoor, GcRow.amoor, 0x22, 0x32), (Instr.amoxor, GcRow.amoxor, 0x23, 0x33)] ∧
      AtInstr s g.val row p c w len ∧ (s.core g.val).xr (iRs1 w) % n = 0 ∧ Released s p c g.val (amoRl w) s0 ∧
      s0.issue p c (g.val / 16) ((s.core g.val).xr (iRs1 w)) acAtomic (s0.core g.val).retired = .ok phys m u ∧ u.isRemote phys = true) ∧
    (∃ (i : Fin 64 →
      Instr) (row : GcRow) (c32 : Nat) (c64 : Nat) (g : Fin 64) (p : Nat) (c : Cmd) (w : Nat) (len : Nat) (s : State), s.stopped = false ∧
      (i, row, c32, c64) ∈ [(Instr.amoadd, GcRow.amoadd, 0x01, 0x02), (Instr.amomin, GcRow.amomin, 0x03, 0x04), (Instr.amomax, GcRow.amomax, 0x05, 0x06), (Instr.amominu, GcRow.amominu, 0x07, 0x08), (Instr.amomaxu, GcRow.amomaxu, 0x09, 0x0A), (Instr.amoswap, GcRow.amoswap, 0x20, 0x30), (Instr.amoand, GcRow.amoand, 0x21, 0x31), (Instr.amoor, GcRow.amoor, 0x22, 0x32), (Instr.amoxor, GcRow.amoxor, 0x23, 0x33)] ∧
      AtInstr s g.val row p c w len ∧ (s.core g.val).xr (iRs1 w) % (if iF3 w = 3 then 8 else 4) ≠ 0) ∧
    
      (∃ (g : Fin 64) (p : Nat) (w : Nat) (len : Nat) (m : Nat) (phys : Nat) (c : Cmd) (y : Got) (s : State) (s0 : State) (u : State) (x : State), ∀ (n : Nat) (v : State), n = (if iF3 w = 3 then 8 else 4) →
      v = u.cleanLines p c g.val (fun d => decide (d.addr = phys / 64 * 64)) true → s.stopped = false ∧ AtInstr s g.val .lr p c w len ∧
      (s.core g.val).xr (iRs1 w) % n = 0 ∧ Released s p c g.val (amoRl w) s0 ∧
      s0.issue p c (g.val / 16) ((s.core g.val).xr (iRs1 w)) acRead (s0.core g.val).retired = .ok phys m u ∧ (v.core g.val).ending = none ∧
      v.lineBusy (phys / 64 * 64) = false ∧ AllReady v (c.coreAgent p g.val) false [(phys / 64 * 64, 64)] ∧
      v.fetch (c.coreAgent p g.val) false phys n = (y, x) ∧ y.status = 0 ∧ y.poison = false ∧ x.isRemote (phys / 64 * 64) = false ∧
      x.mayTouch p (phys / 64 * 64) = true) ∧
    
      (∃ (g : Fin 64) (p : Nat) (w : Nat) (len : Nat) (m : Nat) (phys : Nat) (prior : Nat) (c : Cmd) (s : State) (s0 : State) (u : State) (z : State), ∀ (n : Nat) (v : State), n = (if iF3 w = 3 then 8 else 4) →
      v = u.cleanLines p c g.val (fun d => decide (d.addr = phys / 64 * 64)) true → s.stopped = false ∧ AtInstr s g.val .sc p c w len ∧
      (s.core g.val).xr (iRs1 w) % n = 0 ∧ Released s p c g.val (amoRl w) s0 ∧
      s0.issue p c (g.val / 16) ((s.core g.val).xr (iRs1 w)) acAtomic (s0.core g.val).retired = .ok phys m u ∧ (v.core g.val).ending = none ∧
      v.isRemote phys = false ∧ v.resv.contains (g.val, phys / 64 * 64) = true ∧
      Atomic v p c g.val phys (if n = 8 then 0x30 else 0x20) ((v.core g.val).xr (iRs2 w) % 2 ^ (8 * n)) 0 prior z) ∧
    
      (∃ (g : Fin 64) (p : Nat) (w : Nat) (len : Nat) (m : Nat) (phys : Nat) (c : Cmd) (s : State) (s0 : State) (u : State), ∀ (n : Nat) (v : State), n = (if iF3 w = 3 then 8 else 4) →
      v = u.cleanLines p c g.val (fun d => decide (d.addr = phys / 64 * 64)) true → s.stopped = false ∧ AtInstr s g.val .sc p c w len ∧
      (s.core g.val).xr (iRs1 w) % n = 0 ∧ Released s p c g.val (amoRl w) s0 ∧
      s0.issue p c (g.val / 16) ((s.core g.val).xr (iRs1 w)) acAtomic (s0.core g.val).retired = .ok phys m u ∧ (v.core g.val).ending = none ∧
      (v.isRemote phys = true ∨ v.resv.contains (g.val, phys / 64 * 64) = false)) ∧
    
      (∃ (g : Fin 64) (p : Nat) (w : Nat) (len : Nat) (m : Nat) (phys : Nat) (prior : Nat) (c : Cmd) (s : State) (u : State) (z : State), ∀ (n : Nat) (code : Nat), n = (if iF7 w = 1 then 8 else 4) →
      code = (if iF7 w = 1 then 0x0C else 0x0B) → s.stopped = false ∧ AtInstr s g.val .cas p c w len ∧ (s.core g.val).xr (iRs1 w) % n = 0 ∧
      s.issue p c (g.val / 16) ((s.core g.val).xr (iRs1 w)) acAtomic (s.core g.val).retired = .ok phys m u ∧
      Atomic u p c g.val phys code ((s.core g.val).xr (iRs2 w) % 2 ^ (if iF7 w = 1 then 64 else 32)) ((s.core g.val).xr (iRd w) % 2 ^ (if iF7 w = 1 then 64 else 32)) prior z) ∧
    
      (∃ (g : Fin 64) (p : Nat) (w : Nat) (len : Nat) (m : Nat) (phys : Nat) (prior : Nat) (c : Cmd) (s : State) (u : State) (z : State), s.stopped = false ∧
      AtInstr s g.val .amofadd p c w len ∧ bitOf (s.reg (Reg.PART_FABRIC_CTRL p)) 0 = true ∧ (s.core g.val).xr (iRs1 w) % 4 = 0 ∧
      s.issue p c (g.val / 16) ((s.core g.val).xr (iRs1 w)) acAtomic (s.core g.val).retired = .ok phys m u ∧
      Atomic u p c g.val phys 0x0D ((s.core g.val).xr (iRs2 w) % 2 ^ 32) 0 prior z) ∧
    (∃ (g : Fin 64) (p : Nat) (w : Nat) (len : Nat) (c : Cmd) (s : State), s.stopped = false ∧ AtInstr s g.val .amofadd p c w len ∧
      bitOf (s.reg (Reg.PART_FABRIC_CTRL p)) 0 = false) := by
  refine ⟨?_, ?_, ?_, ?_, ?_, ?_, ?_, ?_, ?_⟩
  · exact by
      refine ⟨Instr.amoadd, .amoadd, 1, 2, 0, 0, gcCmd, 0x002020AF, 4, 4096, t0Flag, 0, at4 0x002020AF [(2, 5)], at4 0x002020AF [(2, 5)], at4 0x002020AF [(2, 5)], atomed (at4 0x002020AF [(2, 5)]) 5, ?_⟩
      rintro n rfl
      exact ⟨by decide +kernel, by exact List.Mem.head _, by constructor <;> decide +kernel, by decide +kernel, by exact .inl ⟨by decide +kernel, rfl⟩, by exact issue_ok (leaf := 0x5D) (log2 := 12) (by decide +kernel) rfl rfl, by decide +kernel, by exact atomic_at (op := .add) (w := 32) rfl (by decide +kernel) (by decide +kernel) (by decide +kernel) (by decide +kernel) (by decide +kernel) (by decide +kernel)⟩
  · exact by
      refine ⟨Instr.amoswap, .amoswap, 0x20, 0x30, 0, 0, gcCmd, 0x0821A0AF, 4, 4096, 2 ^ 40, at4 0x0821A0AF [(3, 4096)], at4 0x0821A0AF [(3, 4096)], at4 0x0821A0AF [(3, 4096)], ?_⟩
      rintro n rfl
      exact ⟨by decide +kernel, by exact List.Mem.head _, by constructor <;> decide +kernel, by decide +kernel, by exact .inl ⟨by decide +kernel, rfl⟩, by exact issue_ok (leaf := 0x1000000001D) (log2 := 12) (by decide +kernel) rfl rfl, by decide +kernel⟩
  · exact ⟨Instr.amoadd, .amoadd, 1, 2, 0, 0, gcCmd, 0x0021A0AF, 4, at4 0x0021A0AF [(3, 1)], by decide +kernel, by exact List.Mem.head _, by constructor <;> decide +kernel, by decide +kernel⟩
  · exact by
      refine ⟨0, 0, 0x100020AF, 4, 4096, t0Flag, gcCmd, ⟨0, false, 0⟩, at4 0x100020AF [], at4 0x100020AF [], at4 0x100020AF [], (((at4 0x100020AF []).cleanLines 0 gcCmd 0 (fun d => decide (d.addr = t0Flag / 64 * 64)) true).fetch (gcCmd.coreAgent 0 0) false t0Flag 4).2, ?_⟩
      rintro n v rfl rfl
      exact ⟨by decide +kernel, by constructor <;> decide +kernel, by decide +kernel, by exact .inl ⟨by decide +kernel, rfl⟩, by exact issue_ok (leaf := 0x5D) (log2 := 12) (by decide +kernel) rfl rfl, by decide +kernel, by decide +kernel, by (unfold AllReady; decide +kernel), by exact pair_eq (by decide +kernel), by decide +kernel, by decide +kernel, by decide +kernel, by decide +kernel⟩
  · exact by
      refine ⟨0, 0, 0x182020AF, 4, 4096, t0Flag, 0, gcCmd, { at4 0x182020AF [(2, 5)] with resv := [(0, t0Flag)] }, { at4 0x182020AF [(2, 5)] with resv := [(0, t0Flag)] }, { at4 0x182020AF [(2, 5)] with resv := [(0, t0Flag)] }, atomed ({ at4 0x182020AF [(2, 5)] with resv := [(0, t0Flag)] }) 5, ?_⟩
      rintro n v rfl rfl
      exact ⟨by decide +kernel, by constructor <;> decide +kernel, by decide +kernel, by exact .inl ⟨by decide +kernel, rfl⟩, by exact issue_ok (leaf := 0x5D) (log2 := 12) (by decide +kernel) rfl rfl, by decide +kernel, by decide +kernel, by decide +kernel, by exact atomic_at (op := .swap) (w := 32) rfl (by decide +kernel) (by decide +kernel) (by decide +kernel) (by decide +kernel) (by decide +kernel) (by decide +kernel)⟩
  · exact by
      refine ⟨0, 0, 0x182020AF, 4, 4096, t0Flag, gcCmd, at4 0x182020AF [(2, 5)], at4 0x182020AF [(2, 5)], at4 0x182020AF [(2, 5)], ?_⟩
      rintro n v rfl rfl
      exact ⟨by decide +kernel, by constructor <;> decide +kernel, by decide +kernel, by exact .inl ⟨by decide +kernel, rfl⟩, by exact issue_ok (leaf := 0x5D) (log2 := 12) (by decide +kernel) rfl rfl, by decide +kernel, by decide +kernel⟩
  · exact by
      refine ⟨0, 0, 0x002060AB, 4, 4096, t0Flag, 0, gcCmd, at4 0x002060AB [(2, 5)], at4 0x002060AB [(2, 5)], atomed (at4 0x002060AB [(2, 5)]) 5, ?_⟩
      rintro n code rfl rfl
      exact ⟨by decide +kernel, by constructor <;> decide +kernel, by decide +kernel, by exact issue_ok (leaf := 0x5D) (log2 := 12) (by decide +kernel) rfl rfl, by exact atomic_at (op := .cas) (w := 32) rfl (by decide +kernel) (by decide +kernel) (by decide +kernel) (by decide +kernel) (by decide +kernel) (by decide +kernel)⟩
  · exact ⟨0, 0, 0x002070AB, 4, 4096, t0Flag, 0, gcCmd, (at4 0x002070AB [(2, 0x3F800000)]).setRegN (Reg.PART_FABRIC_CTRL 0) 1, (at4 0x002070AB [(2, 0x3F800000)]).setRegN (Reg.PART_FABRIC_CTRL 0) 1, atomed ((at4 0x002070AB [(2, 0x3F800000)]).setRegN (Reg.PART_FABRIC_CTRL 0) 1) 0x3F800000, by decide +kernel, by constructor <;> decide +kernel, by decide +kernel, by decide +kernel, by exact issue_ok (leaf := 0x5D) (log2 := 12) (by decide +kernel) rfl rfl, by exact atomic_at (op := .fadd) (w := 32) rfl (by decide +kernel) (by decide +kernel) (by decide +kernel) (by decide +kernel) (by decide +kernel) (by decide +kernel)⟩
  · exact ⟨0, 0, 0x002070AB, 4, gcCmd, at4 0x002070AB [], by decide +kernel, by constructor <;> decide +kernel, by decide +kernel⟩
/-- The state of a gc.kmrg whose one stream is exhausted. -/
def merging : State := (at4 0x000000AB []).modCore 0 (fun x => { x with elem := 1 })

/-- What Obligations.CoreInstructions supposes can be met. -/
theorem witness_CoreInstructions :
    (∃ (g : Fin 64) (p : Nat) (w : Nat) (len : Nat) (c : Cmd) (s : State), s.stopped = false ∧ AtInstr s g.val .bxw p c w len) ∧
    (∃ (g : Fin 64) (p : Nat) (w : Nat) (len : Nat) (c : Cmd) (s : State), s.stopped = false ∧ AtInstr s g.val .bxc p c w len) ∧
    (∃ (g : Fin 64) (p : Nat) (w : Nat) (len : Nat) (bad : Nat) (c : Cmd) (y : Core) (s : State), s.stopped = false ∧ AtInstr s g.val .dq p c w len ∧
      (s.core g.val).dq w = (y, bad)) ∧
    
      (∃ (g : Fin 64) (p : Nat) (w : Nat) (len : Nat) (h : Nat) (v : Nat) (v2 : Nat) (n : Nat) (dis : Nat) (xs : List MStream) (out : List Nat) (c : Cmd) (s : State) (u : State) (x : State) (y : State) (y2 : State) (z : State), ∀ (addr : Nat) (m : MCtx) (es : List (List Nat)), addr = (s.core g.val).xr (iRs1 w) →
      m = MCtx.ofWords addr (wordsOf h 16) → es = (List.range m.n).map (fun i => wordsOf (v / 2 ^ (512 + 128 * i)) 4) → s.stopped = false ∧
      AtInstr s g.val .kmrg p c w len ∧ Reads (s.modCore g.val (fun x => { x with elem := 1 })) p c g.val addr 64 h u ∧ m.ok = true ∧
      Reads u p c g.val addr (64 + 16 * m.n) v x ∧ (es.map MStream.ofWords).any (fun e => decide (e.len < e.used)) = false ∧
      (x.core g.val).merge.ctx = some addr ∧ (x.core g.val).merge.count = m.count ∧
      (∀ k, mergeLoop p c g.val m k (((es.map MStream.ofWords).map (fun e => e.len - e.used)).sum + 1) (es.map MStream.ofWords) (x.core g.val).merge.indices 0 0 x = k xs out n dis y) ∧
      Reads y p c g.val addr (64 + 16 * m.n) v2 y2 ∧ Writes y2 p c g.val addr (64 + 16 * m.n) (mergeContext v2 (m.count + n) xs) z) ∧
    (∃ (g : Fin 64) (p : Nat) (w : Nat) (len : Nat) (c : Cmd) (s : State) (u : State), s.stopped = false ∧ AtInstr s g.val .semsig p c w len ∧
      s.semIn p ((s.core g.val).xr (iRs1 w)) = true ∧ Released s p c g.val true u) ∧
    (∃ (i : Fin 64 → Instr) (row : GcRow) (g : Fin 64) (p : Nat) (w : Nat) (len : Nat) (c : Cmd) (s : State), s.stopped = false ∧
      (i, row) ∈ [((fun g => Instr.gcSemsig g 0), GcRow.semsig), ((fun g => Instr.gcSemwait g 0), GcRow.semwait), ((fun g => Instr.gcSemrd g 0), GcRow.semrd)] ∧
      AtInstr s g.val row p c w len ∧ s.semIn p ((s.core g.val).xr (iRs1 w)) = false) ∧
    (∃ (g : Fin 64) (p : Nat) (w : Nat) (len : Nat) (c : Cmd) (s : State), s.stopped = false ∧ AtInstr s g.val .semwait p c w len ∧
      s.semIn p ((s.core g.val).xr (iRs1 w)) = true ∧ s.waitOf (.core g.val) = none) ∧
    (∃ (g : Fin 64) (p : Nat) (w : Nat) (len : Nat) (c : Cmd) (s : State), s.stopped = false ∧ AtInstr s g.val .semrd p c w len ∧
      s.semIn p ((s.core g.val).xr (iRs1 w)) = true ∧ (s.sem ((s.core g.val).xr (iRs1 w))).poison = false) ∧
    (∃ (g : Fin 64) (p : Nat) (w : Nat) (len : Nat) (c : Cmd) (s : State), s.stopped = false ∧ AtInstr s g.val .semrd p c w len ∧
      s.semIn p ((s.core g.val).xr (iRs1 w)) = true ∧ (s.sem ((s.core g.val).xr (iRs1 w))).poison = true) ∧
    
      (∃ (g : Fin 64) (p : Nat) (w : Nat) (len : Nat) (c : Cmd) (s : State), ∀ (u : State), u = s.cleanLines p c g.val (fun d => d.overlaps ((s.core g.val).xr (iRs1 w)) ((s.core g.val).xr (iRs2 w))) false →
      s.stopped = false ∧ AtInstr s g.val .dcln p c w len ∧ (u.core g.val).ending = none ∧ (u.unacked p c = 0 ∨ (s.core g.val).xr (iRs2 w) = 0)) ∧
    
      (∃ (g : Fin 64) (p : Nat) (w : Nat) (len : Nat) (c : Cmd) (s : State), ∀ (u : State), u = s.cleanLines p c g.val (fun d => d.overlaps ((s.core g.val).xr (iRs1 w)) ((s.core g.val).xr (iRs2 w))) true →
      s.stopped = false ∧ AtInstr s g.val .dinv p c w len ∧ (u.core g.val).ending = none ∧ (u.unacked p c = 0 ∨ (s.core g.val).xr (iRs2 w) = 0)) ∧
    (∃ (g : Fin 64) (p : Nat) (w : Nat) (len : Nat) (c : Cmd) (s : State), ∀ (u : State), u = s.retire p g.val 0 → s.stopped = false ∧
      AtInstr s g.val .tag p c w len ∧ bitOf (u.reg (Reg.SCL_SMP_CTRL (g.val / 16))) 30 = true) ∧
    (∃ (g : Fin 64) (p : Nat) (w : Nat) (len : Nat) (c : Cmd) (s : State), ∀ (u : State), u = s.retire p g.val 0 → s.stopped = false ∧
      AtInstr s g.val .tag p c w len ∧ bitOf (u.reg (Reg.SCL_SMP_CTRL (g.val / 16))) 30 = false) := by
  refine ⟨?_, ?_, ?_, ?_, ?_, ?_, ?_, ?_, ?_, ?_, ?_, ?_, ?_⟩
  · exact ⟨0, 0, 0x0002010B, 4, gcCmd, at4 0x0002010B [(4, 0x10)], by decide +kernel, by constructor <;> decide +kernel⟩
  · exact ⟨0, 0, 0x0002110B, 4, gcCmd, at4 0x0002110B [(4, 0x10)], by decide +kernel, by constructor <;> decide +kernel⟩
  · exact ⟨0, 0, 0x0C02208B, 4, 0, gcCmd, (at4 0x0C02208B []).core 0, at4 0x0C02208B [], by decide +kernel, by constructor <;> decide +kernel, by decide +kernel⟩
  · exact by
      refine ⟨0, 0, 0xAB, 4, 1 + 2 ^ 32, 1 + 2 ^ 32, 1 + 2 ^ 32, 0, 0, [⟨0, 0, 0, 0, none⟩], [], gcCmd, at4 0xAB [], merging, merging, merging, merging, (merging.putL1 0 t0Flag 64 (mergeContext (1 + 2 ^ 32) 0 [⟨0, 0, 0, 0, none⟩])).putL1 0 (t0Flag + 64) 16 ((mergeContext (1 + 2 ^ 32) 0 [⟨0, 0, 0, 0, none⟩]) / 2 ^ 512), ?_⟩
      rintro addr m es rfl rfl rfl
      exact ⟨by decide +kernel, by constructor <;> decide +kernel, by exact reads_hit (s := merging) (leaf := 0x5D) (d := ⟨t0Flag, [0], 1 + 2 ^ 32, false, false, 0⟩) (by decide +kernel) rfl (by decide +kernel) rfl (by decide +kernel) (by decide +kernel), by decide +kernel, by exact reads_two (s := merging) (n1 := 64) (n2 := 16) (leaf := 0x5D) (d := ⟨t0Flag, [0], 1 + 2 ^ 32, false, false, 0⟩) (e := ⟨t0Flag + 64, [64], 0, false, false, 0⟩) (by decide +kernel) rfl rfl (by decide +kernel) (by decide +kernel) rfl rfl (by decide +kernel), by decide +kernel, by decide +kernel, by decide +kernel, by (rw [show (merging.core (0 : Fin 64).val).merge.indices = [] from by decide +kernel, show ((at4 0xAB []).core (0 : Fin 64).val).xr (iRs1 0xAB) = 0 from by decide +kernel]; generalize merging = s; intro k; rfl), by exact reads_two (s := merging) (n1 := 64) (n2 := 16) (leaf := 0x5D) (d := ⟨t0Flag, [0], 1 + 2 ^ 32, false, false, 0⟩) (e := ⟨t0Flag + 64, [64], 0, false, false, 0⟩) (by decide +kernel) rfl rfl (by decide +kernel) (by decide +kernel) rfl rfl (by decide +kernel), by exact writes_two (s := merging) (n1 := 64) (n2 := 16) (leaf := 0x5D) (d := ⟨t0Flag, [0], 1 + 2 ^ 32, false, false, 0⟩) (e := ⟨t0Flag + 64, [64], 0, false, false, 0⟩) (by decide +kernel) rfl rfl (by decide +kernel) (by decide +kernel)⟩
  · exact ⟨0, 0, 0x0020102B, 4, gcCmd, (at4 0x0020102B [(2, 5)]).setRegF (Reg.PART_RSV_SEM 0) 31 19 1, ((at4 0x0020102B [(2, 5)]).setRegF (Reg.PART_RSV_SEM 0) 31 19 1).cleanLines 0 gcCmd 0 (fun _ => true) false, by decide +kernel, by constructor <;> decide +kernel, by decide +kernel, by exact .inr ⟨rfl, rfl, by decide +kernel⟩⟩
  · exact ⟨(fun g => Instr.gcSemsig g 0), .semsig, 0, 0, 0x0020102B, 4, gcCmd, at4 0x0020102B [], by decide +kernel, by exact List.Mem.head _, by constructor <;> decide +kernel, by decide +kernel⟩
  · exact ⟨0, 0, 0x0000202B, 4, gcCmd, (at4 0x0000202B []).setRegF (Reg.PART_RSV_SEM 0) 31 19 1, by decide +kernel, by constructor <;> decide +kernel, by decide +kernel, by decide +kernel⟩
  · exact ⟨0, 0, 0x000030AB, 4, gcCmd, (at4 0x000030AB []).setRegF (Reg.PART_RSV_SEM 0) 31 19 1, by decide +kernel, by constructor <;> decide +kernel, by decide +kernel, by decide +kernel⟩
  · exact ⟨0, 0, 0x000030AB, 4, gcCmd, ((at4 0x000030AB []).setRegF (Reg.PART_RSV_SEM 0) 31 19 1).putSem 0 ⟨3, true⟩, by decide +kernel, by constructor <;> decide +kernel, by decide +kernel, by decide +kernel⟩
  · exact by
      refine ⟨0, 0, 0x0000402B, 4, gcCmd, at4 0x0000402B [], ?_⟩
      rintro u rfl
      exact ⟨by decide +kernel, by constructor <;> decide +kernel, by decide +kernel, by decide +kernel⟩
  · exact by
      refine ⟨0, 0, 0x0000502B, 4, gcCmd, at4 0x0000502B [], ?_⟩
      rintro u rfl
      exact ⟨by decide +kernel, by constructor <;> decide +kernel, by decide +kernel, by decide +kernel⟩
  · exact by
      refine ⟨0, 0, 0x5B, 4, gcCmd, (at4 0x5B []).setRegF (Reg.SCL_SMP_CTRL 0) 30 30 1, ?_⟩
      rintro u rfl
      exact ⟨by decide +kernel, by constructor <;> decide +kernel, by decide +kernel⟩
  · exact by
      refine ⟨0, 0, 0x5B, 4, gcCmd, at4 0x5B [], ?_⟩
      rintro u rfl
      exact ⟨by decide +kernel, by constructor <;> decide +kernel, by decide +kernel⟩
/-- A MOVE of a mode over one page of T0, begun or not. -/
def mv (mode : Nat) (aux : List Nat) : Cmd :=
  { run 0x01 with args := [mode, 4096, 0], body := [1, 0, 0, 0, 0, 0, 1, 0, 4096, 0, 0, 0], aux := aux, pins := [⟨0, 12, 0x5D, 0⟩, ⟨4096, 12, 0x105D, 0⟩] }
/-- A MOVE of a mode of 16 KiB to the Loft, begun. -/
def mvLoft (mode : Nat) : Cmd :=
  { mv mode [0, 0, 0, 0, 0] with args := [mode, 16384, 0], body := [1, 0, 0, 0, 0, 0, 2, 0, 0, 0, 0, 0], pins := [⟨0, 21, 0x5D, 0⟩] }
/-- Partition 0 with a MOVE and 1 GiB of the Loft. -/
def onLoft (mode : Nat) : State := (one (mvLoft mode)).modLoft (fun l => { l with chunks := [(0, [0])] })
/-- The answer to a write of the first block. -/
def wrote : Arrival := ⟨.cmd 0 0 0, loftWriteKey 0, 0, false, 0⟩

/-- What Obligations.MovesRun supposes can be met. -/
theorem witness_MovesRun :
    (∃ (p : Fin 32) (chute : Fin 64) (seq : Word) (c : Cmd) (s : State), s.stopped = false ∧ s.cmd p.val chute.val seq.toNat = some c ∧
      c.opcode = 0x01 ∧ c.phase = .running ∧ (c.moveMode = 0 ∨ 4 ≤ c.moveMode) ∧ c.mustStop = false ∧ c.aux = []) ∧
    (∃ (p : Fin 32) (chute : Fin 64) (seq : Word) (c : Cmd) (s : State), s.stopped = false ∧ s.cmd p.val chute.val seq.toNat = some c ∧
      c.opcode = 0x01 ∧ c.phase = .running ∧ (c.moveMode = 1 ∨ 4 ≤ c.moveMode) ∧ c.mustStop = false ∧ c.aux = []) ∧
    (∃ (p : Fin 32) (chute : Fin 64) (seq : Word) (c : Cmd) (s : State), s.stopped = false ∧ s.cmd p.val chute.val seq.toNat = some c ∧
      c.opcode = 0x01 ∧ c.phase = .running ∧ (c.moveMode = 2 ∨ 4 ≤ c.moveMode) ∧ c.mustStop = false ∧ c.aux = []) ∧
    (∃ (p : Fin 32) (chute : Fin 64) (seq : Word) (c : Cmd) (s : State), s.stopped = false ∧ s.cmd p.val chute.val seq.toNat = some c ∧
      c.opcode = 0x01 ∧ c.phase = .running ∧ (c.moveMode = 3 ∨ 4 ≤ c.moveMode) ∧ c.mustStop = false ∧ c.aux = []) ∧
    (∃ (p : Fin 32) (chute : Fin 64) (seq : Word) (c : Cmd) (l : List LineVal) (a : Nat) (s : State) (u : State), s.stopped = false ∧
      s.cmd p.val chute.val seq.toNat = some c ∧ c.opcode = 0x01 ∧ c.phase = .running ∧ c.moveMode = 0 ∧ c.mustStop = false ∧ c.aux ≠ [] ∧
      c.unacked = 0 ∧ c.progress < c.moveSegs ∧ c.moveDst.tier ≠ 2 ∧ s.segSource p.val c c.progress = (some l, u) ∧ linesStatus l = 0 ∧
      c.movePhys c.moveDst acWrite (4096 * c.progress) (c.segLen c.progress) = some a) ∧
    
      (∃ (p : Fin 32) (chute : Fin 64) (seq : Word) (c : Cmd) (a : Nat) (s : State), ∀ (l : List LineVal), l = List.replicate (c.segLen c.progress / 64) (0, false, 0) →
      s.stopped = false ∧ s.cmd p.val chute.val seq.toNat = some c ∧ c.opcode = 0x01 ∧ c.phase = .running ∧ c.moveMode = 3 ∧ c.mustStop = false ∧
      c.aux ≠ [] ∧ c.unacked = 0 ∧ c.progress < c.moveSegs ∧ c.moveDst.tier ≠ 2 ∧
      c.movePhys c.moveDst acWrite (4096 * c.progress) (c.segLen c.progress) = some a) ∧
    
      (∃ (p : Fin 32) (chute : Fin 64) (seq : Word) (c : Cmd) (l : List LineVal) (s : State) (u : State), ∀ (a : Nat), a = t0Flag + c.aux.getD (5 + c.progress) 0 * 4096 →
      s.stopped = false ∧ s.cmd p.val chute.val seq.toNat = some c ∧ c.opcode = 0x01 ∧ c.phase = .running ∧ c.moveMode = 1 ∧ c.mustStop = false ∧
      c.aux ≠ [] ∧ c.unacked = 0 ∧ c.progress < c.moveSegs ∧ s.segSource p.val c c.progress = (some l, u) ∧ linesStatus l = 0) ∧
    
      (∃ (p : Fin 32) (chute : Fin 64) (seq : Word) (c : Cmd) (b : Nat) (ls : List (List LineVal)) (s : State) (u : State), ∀ (l : List LineVal) (data : Nat) (po : Nat), l = (c.copiedAscending (c.moveDst.addr + 4096 * c.progress) c.progress ls).flatten →
      data = l.foldr (fun v acc => v.1 + 2 ^ 512 * acc) 0 → po = l.foldr (fun v acc => (if v.2.1 then 1 else 0) + 2 * acc) 0 →
      s.stopped = false ∧ s.cmd p.val chute.val seq.toNat = some c ∧ c.opcode = 0x01 ∧ c.phase = .running ∧ c.moveMode = 0 ∧ c.mustStop = false ∧
      c.aux ≠ [] ∧ c.unacked = 0 ∧ c.progress < c.moveSegs ∧ c.moveDst.tier = 2 ∧
      s.loftBlock p.val (c.moveDst.addr + 4096 * c.progress) = some b ∧
      s.takeArrival (.cmd p.val c.chute c.seq) (loftWriteKey (c.moveDst.addr + 4096 * c.progress)) = none ∧
      s.loftAsked p.val c (loftWriteKey (c.moveDst.addr + 4096 * c.progress)) = false ∧ s.gather p.val c c.progress 4 = (some ls, u) ∧
      (c.copiedAscending (c.moveDst.addr + 4096 * c.progress) c.progress ls).map linesStatus = [0, 0, 0, 0]) ∧
    (∃ (p : Fin 32) (chute : Fin 64) (seq : Word) (c : Cmd) (b : Nat) (x : Arrival) (s : State) (u : State), s.stopped = false ∧
      s.cmd p.val chute.val seq.toNat = some c ∧ c.opcode = 0x01 ∧ c.phase = .running ∧ c.moveMode = 0 ∧ c.mustStop = false ∧ c.aux ≠ [] ∧
      c.unacked = 0 ∧ c.progress < c.moveSegs ∧ c.moveDst.tier = 2 ∧ s.loftBlock p.val (c.moveDst.addr + 4096 * c.progress) = some b ∧
      s.takeArrival (.cmd p.val c.chute c.seq) (loftWriteKey (c.moveDst.addr + 4096 * c.progress)) = some (x, u) ∧ x.status = 0) ∧
    (∃ (p : Fin 32) (chute : Fin 64) (seq : Word) (c : Cmd) (b : Nat) (s : State), s.stopped = false ∧ s.cmd p.val chute.val seq.toNat = some c ∧
      c.opcode = 0x01 ∧ c.phase = .running ∧ c.moveMode = 3 ∧ c.mustStop = false ∧ c.aux ≠ [] ∧ c.unacked = 0 ∧ c.progress < c.moveSegs ∧
      c.moveDst.tier = 2 ∧ s.loftBlock p.val (c.moveDst.addr + 4096 * c.progress) = some b) ∧
    
      (∃ (p : Fin 32) (chute : Fin 64) (seq : Word) (c : Cmd) (s : State), ∀ (a : Nat) (u : State), a = (if c.moveDst.paged then c.moveDst.pages.getD c.progress 0 else c.moveDst.addr + 4096 * c.progress) →
      u = s.ftTouches [a / 4096] → s.stopped = false ∧ s.cmd p.val chute.val seq.toNat = some c ∧ c.opcode = 0x01 ∧ c.phase = .running ∧
      c.moveMode = 2 ∧ c.mustStop = false ∧ c.aux ≠ [] ∧ c.unacked = 0 ∧ c.progress < c.moveSegs ∧ u.t0Owner (a / 4096) = some p.val ∧
      a < Config.t0Bytes) ∧
    
      (∃ (p : Fin 32) (chute : Fin 64) (seq : Word) (c : Cmd) (s : State), ∀ (a : Nat) (u : State), a = (if c.moveDst.paged then c.moveDst.pages.getD c.progress 0 else c.moveDst.addr + 4096 * c.progress) →
      u = s.ftTouches [a / 4096] → s.stopped = false ∧ s.cmd p.val chute.val seq.toNat = some c ∧ c.opcode = 0x01 ∧ c.phase = .running ∧
      c.moveMode = 2 ∧ c.mustStop = false ∧ c.aux ≠ [] ∧ c.unacked = 0 ∧ c.progress < c.moveSegs ∧
      (u.t0Owner (a / 4096) ≠ some p.val ∨ Config.t0Bytes ≤ a)) ∧
    (∃ (p : Fin 32) (chute : Fin 64) (seq : Word) (c : Cmd) (s : State), s.stopped = false ∧ s.cmd p.val chute.val seq.toNat = some c ∧
      c.opcode = 0x01 ∧ c.phase = .running ∧ c.moveMode = 0 ∧ c.mustStop = false ∧ c.aux ≠ [] ∧ c.unacked = 0 ∧ c.moveSegs ≤ c.progress) ∧
    (∃ (p : Fin 32) (chute : Fin 64) (seq : Word) (c : Cmd) (s : State), s.stopped = false ∧ s.cmd p.val chute.val seq.toNat = some c ∧
      c.opcode = 0x01 ∧ c.phase = .running ∧ c.moveMode = 1 ∧ c.mustStop = false ∧ c.aux ≠ [] ∧ c.unacked = 0 ∧ c.moveSegs ≤ c.progress) ∧
    (∃ (p : Fin 32) (chute : Fin 64) (seq : Word) (c : Cmd) (s : State), s.stopped = false ∧ s.cmd p.val chute.val seq.toNat = some c ∧
      c.opcode = 0x01 ∧ c.phase = .running ∧ c.moveMode = 2 ∧ c.mustStop = false ∧ c.aux ≠ [] ∧ c.unacked = 0 ∧ c.moveSegs ≤ c.progress) ∧
    (∃ (p : Fin 32) (chute : Fin 64) (seq : Word) (c : Cmd) (s : State), s.stopped = false ∧ s.cmd p.val chute.val seq.toNat = some c ∧
      c.opcode = 0x01 ∧ c.phase = .running ∧ c.moveMode = 3 ∧ c.mustStop = false ∧ c.aux ≠ [] ∧ c.unacked = 0 ∧ c.moveSegs ≤ c.progress) := by
  refine ⟨?_, ?_, ?_, ?_, ?_, ?_, ?_, ?_, ?_, ?_, ?_, ?_, ?_, ?_, ?_, ?_⟩
  · exact ⟨0, 0, 0, mv 0 [], one (mv 0 []), by decide +kernel, by decide +kernel, by decide +kernel, by decide +kernel, by decide +kernel, by decide +kernel, by decide +kernel⟩
  · exact ⟨0, 0, 0, mv 1 [], one (mv 1 []), by decide +kernel, by decide +kernel, by decide +kernel, by decide +kernel, by decide +kernel, by decide +kernel, by decide +kernel⟩
  · exact ⟨0, 0, 0, mv 2 [], one (mv 2 []), by decide +kernel, by decide +kernel, by decide +kernel, by decide +kernel, by decide +kernel, by decide +kernel, by decide +kernel⟩
  · exact ⟨0, 0, 0, mv 3 [], one (mv 3 []), by decide +kernel, by decide +kernel, by decide +kernel, by decide +kernel, by decide +kernel, by decide +kernel, by decide +kernel⟩
  · exact ⟨0, 0, 0, mv 0 [0, 0, 0, 0, 0], List.replicate 64 (0, false, 0), t0Flag + 4096, one (mv 0 [0, 0, 0, 0, 0]), ((one (mv 0 [0, 0, 0, 0, 0])).segSource 0 (mv 0 [0, 0, 0, 0, 0]) 0).2, by decide +kernel, by decide +kernel, by decide +kernel, by decide +kernel, by decide +kernel, by decide +kernel, by decide +kernel, by decide +kernel, by decide +kernel, by decide +kernel, by exact pair_eq (by decide +kernel), by decide +kernel, by decide +kernel⟩
  · exact by
      refine ⟨0, 0, 0, mv 3 [0, 0, 0, 0, 0], t0Flag + 4096, one (mv 3 [0, 0, 0, 0, 0]), ?_⟩
      rintro l rfl
      exact ⟨by decide +kernel, by decide +kernel, by decide +kernel, by decide +kernel, by decide +kernel, by decide +kernel, by decide +kernel, by decide +kernel, by decide +kernel, by decide +kernel, by decide +kernel⟩
  · exact by
      refine ⟨0, 0, 0, mv 1 [0, 0, 0, 0, 0], List.replicate 64 (0, false, 0), one (mv 1 [0, 0, 0, 0, 0]), ((one (mv 1 [0, 0, 0, 0, 0])).segSource 0 (mv 1 [0, 0, 0, 0, 0]) 0).2, ?_⟩
      rintro a rfl
      exact ⟨by decide +kernel, by decide +kernel, by decide +kernel, by decide +kernel, by decide +kernel, by decide +kernel, by decide +kernel, by decide +kernel, by decide +kernel, by exact pair_eq (by decide +kernel), by decide +kernel⟩
  · exact by
      refine ⟨0, 0, 0, mvLoft 0, 0, List.replicate 4 (List.replicate 64 (0, false, 0)), onLoft 0, ((onLoft 0).gather 0 (mvLoft 0) 0 4).2, ?_⟩
      rintro l data po rfl rfl rfl
      exact ⟨by decide +kernel, by decide +kernel, by decide +kernel, by decide +kernel, by decide +kernel, by decide +kernel, by decide +kernel, by decide +kernel, by decide +kernel, by decide +kernel, by decide +kernel, by decide +kernel, by decide +kernel, by exact pair_eq (by decide +kernel), by decide +kernel⟩
  · exact ⟨0, 0, 0, mvLoft 0, 0, wrote, (onLoft 0).modFab (fun f => { f with arrivals := [wrote] }), onLoft 0, by decide +kernel, by decide +kernel, by decide +kernel, by decide +kernel, by decide +kernel, by decide +kernel, by decide +kernel, by decide +kernel, by decide +kernel, by decide +kernel, by decide +kernel, by decide +kernel, by decide +kernel⟩
  · exact ⟨0, 0, 0, mvLoft 3, 0, onLoft 3, by decide +kernel, by decide +kernel, by decide +kernel, by decide +kernel, by decide +kernel, by decide +kernel, by decide +kernel, by decide +kernel, by decide +kernel, by decide +kernel, by decide +kernel⟩
  · exact by
      refine ⟨0, 0, 0, mv 2 [0, 0, 0, 0, 0], (one (mv 2 [0, 0, 0, 0, 0])).setT0Owner 1 (some 0), ?_⟩
      rintro a u rfl rfl
      exact ⟨by decide +kernel, by decide +kernel, by decide +kernel, by decide +kernel, by decide +kernel, by decide +kernel, by decide +kernel, by decide +kernel, by decide +kernel, by decide +kernel, by decide +kernel⟩
  · exact by
      refine ⟨0, 0, 0, mv 2 [0, 0, 0, 0, 0], one (mv 2 [0, 0, 0, 0, 0]), ?_⟩
      rintro a u rfl rfl
      exact ⟨by decide +kernel, by decide +kernel, by decide +kernel, by decide +kernel, by decide +kernel, by decide +kernel, by decide +kernel, by decide +kernel, by decide +kernel, by decide +kernel⟩
  · exact ⟨0, 0, 0, { mv 0 [1, 0, 0, 0, 0] with progress := 1 }, one { mv 0 [1, 0, 0, 0, 0] with progress := 1 }, by decide +kernel, by decide +kernel, by decide +kernel, by decide +kernel, by decide +kernel, by decide +kernel, by decide +kernel, by decide +kernel, by decide +kernel⟩
  · exact ⟨0, 0, 0, { mv 1 [1, 0, 0, 0, 0] with progress := 1 }, one { mv 1 [1, 0, 0, 0, 0] with progress := 1 }, by decide +kernel, by decide +kernel, by decide +kernel, by decide +kernel, by decide +kernel, by decide +kernel, by decide +kernel, by decide +kernel, by decide +kernel⟩
  · exact ⟨0, 0, 0, { mv 2 [1, 0, 0, 0, 0] with progress := 1 }, one { mv 2 [1, 0, 0, 0, 0] with progress := 1 }, by decide +kernel, by decide +kernel, by decide +kernel, by decide +kernel, by decide +kernel, by decide +kernel, by decide +kernel, by decide +kernel, by decide +kernel⟩
  · exact ⟨0, 0, 0, { mv 3 [1, 0, 0, 0, 0] with progress := 1 }, one { mv 3 [1, 0, 0, 0, 0] with progress := 1 }, by decide +kernel, by decide +kernel, by decide +kernel, by decide +kernel, by decide +kernel, by decide +kernel, by decide +kernel, by decide +kernel, by decide +kernel⟩
/-- The patrol of both hubs is off. -/
def unpatrolled : State := (base.setRegF (Reg.HUB_SCRUB_CTRL 0) 31 31 0).setRegF (Reg.HUB_SCRUB_CTRL 1) 31 31 0

/-- What Obligations.Scrubs supposes can be met. -/
theorem witness_Scrubs :
    (∃ (word : BitVec 26) (bits : Fin 3) (s : State), ∀ (a : Nat) (e : Nat) (u : State), a = 8 * word.toNat → e = min 2 (s.t0Err a + bits.val) →
      u = (s.t0Line a false .device).setT0Err a e → s.stopped = false ∧ a < Config.t0Bytes ∧ e = 0) ∧
    (∃ (word : BitVec 26) (bits : Fin 3) (s : State), ∀ (a : Nat) (e : Nat) (u : State), a = 8 * word.toNat → e = min 2 (s.t0Err a + bits.val) →
      u = (s.t0Line a false .device).setT0Err a e → s.stopped = false ∧ a < Config.t0Bytes ∧ e = 1) ∧
    (∃ (word : BitVec 26) (bits : Fin 3) (s : State), ∀ (a : Nat) (e : Nat) (u : State), a = 8 * word.toNat → e = min 2 (s.t0Err a + bits.val) →
      u = (s.t0Line a false .device).setT0Err a e → s.stopped = false ∧ a < Config.t0Bytes ∧ e = 2) ∧
    (∃ (line : BitVec 34) (err : List (BitVec 16)) (after : List (BitVec 16)) (s : State), ∀ (o : Nat) (st : Nat) (u : State), o = 64 * line.toNat →
      st = s.stackOf o → u = (s.checkBits line.toNat .device).stackLine st ((s.checkBits line.toNat .device).node * 2 ^ 40 + o) 5 false .device →
      s.stopped = false ∧ o < Config.t1Bytes ∧ (err.take 40).all (· = 0) = true ∧ (after.take 40).all (· = 0) = true ∧ s.scrubReads o = true ∧
      s.stackTested line.toNat = false ∧ u.t1Err o = none) ∧
    
      (∃ (line : BitVec 34) (err : List (BitVec 16)) (after : List (BitVec 16)) (w : Nat) (s : State), ∀ (o : Nat) (st : Nat) (u : State) (v : State), o = 64 * line.toNat →
      st = s.stackOf o → u = (s.checkBits line.toNat .device).stackLine st ((s.checkBits line.toNat .device).node * 2 ^ 40 + o) 5 false .device →
      v = (u.setT1Err (64 * line.toNat) none).t1Corrected (64 * line.toNat / 64 * 64) w → s.stopped = false ∧ o < Config.t1Bytes ∧
      (err.take 40).all (· = 0) = true ∧ (after.take 40).all (· = 0) = true ∧ s.scrubReads o = true ∧ s.stackTested line.toNat = false ∧
      u.t1Err o = some w ∧ w < 2 ^ 31) ∧
    
      (∃ (line : BitVec 34) (err : List (BitVec 16)) (after : List (BitVec 16)) (w : Nat) (s : State), ∀ (o : Nat) (st : Nat) (u : State) (v : State), o = 64 * line.toNat →
      st = s.stackOf o → u = (s.checkBits line.toNat .device).stackLine st ((s.checkBits line.toNat .device).node * 2 ^ 40 + o) 5 false .device →
      v = (u.setT1Err (64 * line.toNat) none).t1Uncorrectable (64 * line.toNat / 64 * 64) w (ueWho 3 (s.checkBits line.toNat .device).node) →
      s.stopped = false ∧ o < Config.t1Bytes ∧ (err.take 40).all (· = 0) = true ∧ (after.take 40).all (· = 0) = true ∧ s.scrubReads o = true ∧
      s.stackTested line.toNat = false ∧ u.t1Err o = some w ∧ 2 ^ 31 ≤ w) ∧
    (∃ (line : BitVec 34) (err : List (BitVec 16)) (after : List (BitVec 16)) (s : State), ∀ (o : Nat) (st : Nat) (u : State), o = 64 * line.toNat →
      st = s.stackOf o → u = (s.checkBits line.toNat .device).stackLine st ((s.checkBits line.toNat .device).node * 2 ^ 40 + o) 5 false .device →
      s.stopped = false ∧ o < Config.t1Bytes ∧ (err.take 40).all (· = 0) = true ∧ (after.take 40).all (· = 0) = true ∧ s.scrubReads o = true ∧
      s.stackTested line.toNat = false ∧ u.t1Err o = none) ∧
    (∃ (line : BitVec 34) (err : List (BitVec 16)) (s : State), ∀ (o : Nat), o = 64 * line.toNat → s.stopped = false ∧ o < Config.t1Bytes ∧
      (err.take 40).all (· = 0) = true ∧ s.scrubReads o = false) ∧
    (∃ (s : State) (a : Nat) (g : Nat) (e0 : Nat) (e1 : Nat) (err : List Nat), a % 64 = 0 ∧ s.t1Err a = none ∧ eccJudge err = .segment g e0 e1) ∧
    (∃ (a : Nat) (err : List Nat), a % 64 = 0 ∧ eccJudge err = .lost) := by
  refine ⟨?_, ?_, ?_, ?_, ?_, ?_, ?_, ?_, ?_, ?_⟩
  · exact by
      refine ⟨0, 0, base, ?_⟩
      rintro a e u rfl rfl rfl
      exact ⟨by decide +kernel, by decide +kernel, by decide +kernel⟩
  · exact by
      refine ⟨50331647, 1, base, ?_⟩
      rintro a e u rfl rfl rfl
      exact ⟨by decide +kernel, by decide +kernel, by decide +kernel⟩
  · exact by
      refine ⟨50331647, 2, base, ?_⟩
      rintro a e u rfl rfl rfl
      exact ⟨by decide +kernel, by decide +kernel, by decide +kernel⟩
  · exact by
      refine ⟨7247757311, [], [], base, ?_⟩
      rintro o st u rfl rfl rfl
      exact ⟨by decide +kernel, by decide +kernel, by decide +kernel, by decide +kernel, by decide +kernel, by decide +kernel, by decide +kernel⟩
  · exact by
      refine ⟨0, [], [], 0x30000, base.setT1Err 0 (some 0x30000), ?_⟩
      rintro o st u v rfl rfl rfl rfl
      exact ⟨by decide +kernel, by decide +kernel, by decide +kernel, by decide +kernel, by decide +kernel, by decide +kernel, by decide +kernel, by decide +kernel⟩
  · exact by
      refine ⟨0, [], [], 2 ^ 31, base.setT1Err 0 (some (2 ^ 31)), ?_⟩
      rintro o st u v rfl rfl rfl rfl
      exact ⟨by decide +kernel, by decide +kernel, by decide +kernel, by decide +kernel, by decide +kernel, by decide +kernel, by decide +kernel, by decide +kernel⟩
  · exact by
      refine ⟨0, [], [], base, ?_⟩
      rintro o st u rfl rfl rfl
      exact ⟨by decide +kernel, by decide +kernel, by decide +kernel, by decide +kernel, by decide +kernel, by decide +kernel, by decide +kernel⟩
  · exact by
      refine ⟨0, [], unpatrolled, ?_⟩
      rintro o rfl
      exact ⟨by decide +kernel, by decide +kernel, by decide +kernel, by decide +kernel⟩
  · exact ⟨base, 0, 0, 3, 5, [3, 5] ++ List.replicate 38 0, by decide +kernel, by decide +kernel, by decide +kernel⟩
  · exact ⟨0, [1, 0, 1] ++ List.replicate 37 0, by decide +kernel, by decide +kernel⟩
/-- A Loft request of partition 0. -/
def lreq : LoftReq :=
  { id := 0, who := some (0, 0, 0), key := 0, off := 0, block := 0, write := none, place := none, cls := 0, target := none, deadline := 0, reading := none, room := none }
/-- A staged block. -/
def lstaged : Staged := { id := 0, block := 0, content := ⟨0, 0⟩, cls := 0, target := none, since := 0, program := none }
/-- The Loft with some requests, staged blocks and map. -/
def lofted (r : List LoftReq) (x : List Staged) (m : List (Nat × Option LoftPlace)) : State :=
  base.modLoft (fun l => { l with reqs := r, staging := x, map := m })

/-- What Obligations.LoftReadsAndWrites supposes can be met. -/
theorem witness_LoftReadsAndWrites :
    (∃ (s : State) (r : LoftReq) (b : LoftBlock), ∀ (u : State), u = s.modLoft (fun l => { l with reqs := l.reqs.filter s.stillWrites }) →
      s.stopped = false ∧ u.loft.reqs.find? (fun r => r.write.isSome) = some r ∧ r.write = some b ∧ u.loftLate r = false ∧
      u.loft.staging.length < stagingBlocks) ∧
    (∃ (s : State) (sb : Nat), s.stopped = false ∧ s.stripeDue (s.waitingFor none) = true ∧ s.loft.current = some sb) ∧
    (∃ (sb : Nat) (stripe : Nat) (s : State), ∀ (l : List (Staged × Nat)), l = s.stripeBlocks sb stripe → s.stopped = false ∧ l ≠ []) ∧
    (∃ (sb : Nat) (stripe : Nat) (s : State), ∀ (l : List (Staged × Nat)), l = s.stripeBlocks sb stripe → s.stopped = false ∧ l ≠ []) ∧
    
      (∃ (sb : Nat) (s : State), ∀ (u : State) (v : State), u = s.modLoft (fun l => { l with nand := Tbl.keep (fun k => !decide (k / 2 ^ 37 = sb)) l.nand, missing := l.missing.filter (fun x => !decide (x.1 / 2 ^ 32 = sb)), lost := l.lost.filter (fun x => !decide (x.1 / 2 ^ 32 = sb)) }) →
      v = ((List.range 17).foldl (fun s pos => s.channelAnswers pos) u.showRebuild).modSuper sb (fun q => { q with erases := q.erases + 1, stripes := 0, state := 1 }) →
      s.stopped = false ∧ sb < s.superCount ∧ s.erasable sb = true ∧ v.loft.wear = none) ∧
    (∃ (s : State) (e : Nat × Super), s.stopped = false ∧ s.freeSupers < s.regF Reg.LFT_GC_CTRL 31 16 ∧
      leastBy (fun (e : Nat × Super) => (s.liveIn e.1).length) (s.loft.supers.filter (fun e => decide (e.2.state = 3))) = some e) ∧
    (∃ (s : State) (a : Nat × Super) (b : Nat × Super), s.stopped = false ∧ s.loft.wear = none ∧ s.wearPair = some (a, b) ∧
      a.2.erases + s.regF Reg.LFT_GC_CTRL 15 0 < b.2.erases) ∧
    (∃ (id : Nat) (s : State) (r : LoftReq), s.stopped = false ∧
      s.loft.reqs.find? (fun r => decide (r.id = id) && r.write.isNone && r.reading.isNone) = some r ∧ s.loftLate r = false ∧
      s.loftPlace r.block = none) ∧
    (∃ (id : Nat) (i : Nat) (s : State) (r : LoftReq) (x : Staged), s.stopped = false ∧
      s.loft.reqs.find? (fun r => decide (r.id = id) && r.write.isNone && r.reading.isNone) = some r ∧ s.loftLate r = false ∧
      s.loftPlace r.block = some (.staged i) ∧ s.loft.staging.find? (fun x => decide (x.id = i)) = some x) ∧
    (∃ (id : Nat) (sb : Nat) (stripe : Nat) (pos : Nat) (s : State) (r : LoftReq), s.stopped = false ∧
      s.loft.reqs.find? (fun r => decide (r.id = id) && r.write.isNone && r.reading.isNone) = some r ∧ s.loftLate r = false ∧
      s.loftPlace r.block = some (.nand sb stripe pos)) ∧
    
      (∃ (id : Nat) (sb : Nat) (stripe : Nat) (pos : Nat) (s : State) (r : LoftReq), ∀ (u : State), u = (s.channelAnswers pos).channelBlock pos 0x46 0 0 →
      s.stopped = false ∧ s.loft.reqs.find? (fun r => decide (r.id = id)) = some r ∧ r.reading = some (sb, stripe, pos) ∧
      s.copyReads sb stripe pos = true ∧ u.loftLate r = false) ∧
    
      (∃ (id : Nat) (sb : Nat) (stripe : Nat) (pos : Nat) (s : State) (r : LoftReq), ∀ (u : State) (v : State), u = (s.channelAnswers pos).loftCount sb stripe pos (Reg.LFT_CH_LDPC_FAIL 0) →
      v = (u.count Reg.LFT_RECON 1).channelBlock pos 0x46 2 0 → s.stopped = false ∧ s.loft.reqs.find? (fun r => decide (r.id = id)) = some r ∧
      r.reading = some (sb, stripe, pos) ∧ s.copyReads sb stripe pos = true ∧ u.rebuildable sb stripe pos = true ∧ v.loftLate r = false) ∧
    
      (∃ (id : Nat) (sb : Nat) (stripe : Nat) (pos : Nat) (s : State) (r : LoftReq), ∀ (u : State), u = s.loftCount sb stripe pos (Reg.LFT_CH_LDPC_FAIL 0) →
      s.stopped = false ∧ s.loft.reqs.find? (fun r => decide (r.id = id)) = some r ∧ r.reading = some (sb, stripe, pos) ∧
      s.copyReads sb stripe pos = false ∧ u.loftLate r = false) ∧
    (∃ (id : Nat) (p : Nat) (ch : Nat) (q : Nat) (s : State) (r : LoftReq), s.stopped = false ∧
      s.loft.reqs.find? (fun r => decide (r.id = id)) = some r ∧ s.loftLate r = true ∧ r.who = some (p, ch, q)) ∧
    
      (∃ (s : State) (c : Nat) (l : List Nat), ∀ (u : State), u = s.modLoft (fun x => { x with trim := l, map := Tbl.keep (fun b => !decide (b / 65536 = c)) x.map }) →
      s.stopped = false ∧ s.loft.trim = c :: l) ∧
    (∃ (s : State), s.stopped = false ∧ s.regF Reg.LFT_CAPACITY 14 0 * 65536 ≤ s.freeSupers * stripesPerSuper * 16 ∧ s.regF Reg.LFT_CAPACITY 14 0 ≠ 0) := by
  refine ⟨?_, ?_, ?_, ?_, ?_, ?_, ?_, ?_, ?_, ?_, ?_, ?_, ?_, ?_, ?_, ?_⟩
  · exact by
      refine ⟨lofted [{ lreq with write := some ⟨1, 0⟩ }] [] [], { lreq with write := some ⟨1, 0⟩ }, ⟨1, 0⟩, ?_⟩
      rintro u rfl
      exact ⟨by decide +kernel, by decide +kernel, by decide +kernel, by decide +kernel, by decide +kernel⟩
  · exact ⟨{ (lofted [] [lstaged] []).modLoft (fun l => { l with current := some 3 }) with lcc := 100000 }, 3, by decide +kernel, by decide +kernel, by decide +kernel⟩
  · exact by
      refine ⟨1, 2, lofted [] [{ lstaged with program := some (1, 2, 15) }] [], ?_⟩
      rintro l rfl
      exact ⟨by decide +kernel, by decide +kernel⟩
  · exact by
      refine ⟨1, 2, lofted [] [{ lstaged with program := some (1, 2, 15) }] [], ?_⟩
      rintro l rfl
      exact ⟨by decide +kernel, by decide +kernel⟩
  · exact by
      refine ⟨0, (List.range 18).foldl (fun s f => s.setRegN (Reg.LFT_CH_GEOMETRY f) 0x00010110) base, ?_⟩
      rintro u v rfl rfl
      exact ⟨by decide +kernel, by decide +kernel, by decide +kernel, by decide +kernel⟩
  · exact ⟨base.modLoft (fun l => { l with supers := [(4, ⟨3, 0, 1⟩)] }), (4, ⟨3, 0, 1⟩), by decide +kernel, by decide +kernel, by decide +kernel⟩
  · exact ⟨base.modLoft (fun l => { l with supers := [(4, ⟨3, 0, 1⟩), (5, ⟨3, 257, 1⟩)] }), (4, ⟨3, 0, 1⟩), (5, ⟨3, 257, 1⟩), by decide +kernel, by decide +kernel, by decide +kernel, by decide +kernel⟩
  · exact ⟨0, lofted [lreq] [] [], lreq, by decide +kernel, by decide +kernel, by decide +kernel, by decide +kernel⟩
  · exact ⟨0, 0, lofted [lreq] [lstaged] [(0, some (.staged 0))], lreq, lstaged, by decide +kernel, by decide +kernel, by decide +kernel, by decide +kernel, by decide +kernel⟩
  · exact ⟨0, 1, 2, 15, lofted [lreq] [] [(0, some (.nand 1 2 15))], lreq, by decide +kernel, by decide +kernel, by decide +kernel, by decide +kernel⟩
  · exact by
      refine ⟨0, 1, 2, 15, lofted [{ lreq with reading := some (1, 2, 15) }] [] [], { lreq with reading := some (1, 2, 15) }, ?_⟩
      rintro u rfl
      exact ⟨by decide +kernel, by decide +kernel, by decide +kernel, by decide +kernel, by decide +kernel⟩
  · exact by
      refine ⟨0, 1, 2, 15, lofted [{ lreq with reading := some (1, 2, 15) }] [] [], { lreq with reading := some (1, 2, 15) }, ?_⟩
      rintro u v rfl rfl
      exact ⟨by decide +kernel, by decide +kernel, by decide +kernel, by decide +kernel, by decide +kernel, by decide +kernel⟩
  · exact by
      refine ⟨0, 1, 2, 15, (lofted [{ lreq with reading := some (1, 2, 15) }] [] []).setRegF (Reg.LFT_CH_STATUS 16) 29 29 1, { lreq with reading := some (1, 2, 15) }, ?_⟩
      rintro u rfl
      exact ⟨by decide +kernel, by decide +kernel, by decide +kernel, by decide +kernel, by decide +kernel⟩
  · exact ⟨0, 0, 0, 0, { lofted [{ lreq with deadline := 9 }] [] [] with lcc := 10 }, { lreq with deadline := 9 }, by decide +kernel, by decide +kernel, by decide +kernel, by decide +kernel⟩
  · exact by
      refine ⟨base.modLoft (fun l => { l with trim := [3] }), 3, [], ?_⟩
      rintro u rfl
      exact ⟨by decide +kernel, by decide +kernel⟩
  · exact ⟨(base.setRegF Reg.LFT_CAPACITY 14 0 1).modLoft (fun l => { l with supers := (List.range 4096).map (fun i => (i, ⟨1, 0, 0⟩)) }), by decide +kernel, by (refine Nat.le_trans (?_ : _ ≤ 4096 * 1 * 16) (Nat.mul_le_mul_right 16 (Nat.mul_le_mul (?_ : 4096 ≤ _) (Nat.le_max_left 1 _))) <;> decide +kernel), by decide +kernel⟩

/-- What Obligations.LoftChannels supposes can be met. -/
theorem witness_LoftChannels :
    (∃ (f : Fin 18) (s : State), s.stopped = false ∧ Tbl.get (fun _ => 0) s.loft.timeouts f.val + 1 < 3) ∧
    (∃ (f : Fin 18) (s : State), s.stopped = false ∧ 2 ≤ Tbl.get (fun _ => 0) s.loft.timeouts f.val) ∧
    (∃ (rq : Requester) (f : Fin 18) (v : Word) (s : State), ∀ (u : State), u = s.store (Reg.LFT_CH_CTRL f.val) v → s.stopped = false ∧
      s.writes rq (Reg.LFT_CH_CTRL f.val) = true ∧ u.regF (Reg.LFT_CH_STATUS f.val) 29 29 = 0) ∧
    (∃ (f : Fin 18) (s : State), s.stopped = false ∧ s.regF (Reg.LFT_CH_STATUS f.val) 28 28 = 1) ∧
    (∃ (f : Fin 18) (s : State), s.stopped = false ∧ s.regF (Reg.LFT_CH_STATUS f.val) 28 28 = 1) ∧
    (∃ (rq : Requester) (f : Fin 18) (s : State), s.stopped = false ∧ s.writes rq (Reg.LFT_CH_CTRL f.val) = true) ∧
    
      (∃ (s : State) (x : Nat × Nat), ∀ (u : State), u = ((s.modLoft (fun l => { l with missing := l.missing.erase x, rebuilt := l.rebuilt + 1 })).channelBlock x.2 0x46 3 0).showRebuild →
      s.stopped = false ∧ s.regF Reg.LFT_STATUS 29 29 = 1 ∧ s.rebuildHeld = false ∧ s.loft.missing.find? s.rebuildReady = some x ∧
      s.liveStripes.contains x.1 = true ∧ u.loft.missing.any s.rebuildReady = true) ∧
    (∃ (s : State), ∀ (u : State), u = s.showRebuild → s.stopped = false ∧ s.regF Reg.LFT_STATUS 29 29 = 1 ∧ s.loft.missing = [] ∧
      u.loft.missing = []) := by
  refine ⟨?_, ?_, ?_, ?_, ?_, ?_, ?_, ?_⟩
  · exact ⟨17, base.modLoft (fun l => { l with timeouts := [(17, 1)] }), by decide +kernel, by decide +kernel⟩
  · exact ⟨17, base.modLoft (fun l => { l with timeouts := [(17, 2)] }), by decide +kernel, by decide +kernel⟩
  · exact by
      refine ⟨.fm 0, 17, 0, base, ?_⟩
      rintro u rfl
      exact ⟨by decide +kernel, by decide +kernel, by decide +kernel⟩
  · exact ⟨17, base.setRegF (Reg.LFT_CH_STATUS 17) 28 28 1, by decide +kernel, by decide +kernel⟩
  · exact ⟨0, base.setRegF (Reg.LFT_CH_STATUS 0) 28 28 1, by decide +kernel, by decide +kernel⟩
  · exact ⟨.fm 0, 17, base, by decide +kernel, by decide +kernel⟩
  · exact by
      refine ⟨(base.setRegF Reg.LFT_STATUS 29 29 1).modLoft (fun l => { l with missing := [(stripeKey 1 2, 0), (stripeKey 1 3, 0)], map := [(0, some (.nand 1 2 5)), (1, some (.nand 1 3 5))] }), (stripeKey 1 2, 0), ?_⟩
      rintro u rfl
      exact ⟨by decide +kernel, by decide +kernel, by decide +kernel, by decide +kernel, by decide +kernel, by decide +kernel⟩
  · exact by
      refine ⟨base.setRegF Reg.LFT_STATUS 29 29 1, ?_⟩
      rintro u rfl
      exact ⟨by decide +kernel, by decide +kernel, by decide +kernel, by decide +kernel⟩
/-- A mirror entry of 256 MiB at the start of the T1 pool. -/
def mir (state : Nat) : Mirror := ⟨state, 1, 1, 0x400000000, 0x400000000, 1, 0, 0⟩
/-- Entry 2047 in a state. -/
def mirrored (state : Nat) : State := (base.modMirror 2047 (fun _ => mir state)).setRegN (Reg.HUB_MIRROR_SEL 0) 2047

/-- What Obligations.Mirrors supposes can be met. -/
theorem witness_Mirrors :
    (∃ (rq : Requester) (v : Word) (s : State), ∀ (u : State) (i : Nat) (m : Mirror), u = s.store (Reg.HUB_MIRROR_CMD 0) v →
      i = u.regF (Reg.HUB_MIRROR_SEL 0) 10 0 → m = u.mirror i → s.stopped = false ∧ s.writes rq (Reg.HUB_MIRROR_CMD 0) = true ∧ m.state = 0 ∧
      m.role ≠ 3) ∧
    (∃ (rq : Requester) (v : Word) (s : State), ∀ (u : State) (i : Nat) (m : Mirror), u = s.store (Reg.HUB_MIRROR_CMD 0) v →
      i = u.regF (Reg.HUB_MIRROR_SEL 0) 10 0 → m = u.mirror i → s.stopped = false ∧ s.writes rq (Reg.HUB_MIRROR_CMD 0) = true ∧ m.state ≠ 4) ∧
    (∃ (rq : Requester) (v : Word) (s : State), ∀ (u : State) (i : Nat) (m : Mirror), u = s.store (Reg.HUB_MIRROR_CMD 0) v →
      i = u.regF (Reg.HUB_MIRROR_SEL 0) 10 0 → m = u.mirror i → s.stopped = false ∧ s.writes rq (Reg.HUB_MIRROR_CMD 0) = true ∧
      (m.state = 1 ∨ m.state = 2 ∨ m.state = 4)) ∧
    (∃ (rq : Requester) (v : Word) (s : State), ∀ (u : State) (i : Nat), u = s.store (Reg.HUB_MIRROR_CMD 0) v →
      i = u.regF (Reg.HUB_MIRROR_SEL 0) 10 0 → s.stopped = false ∧ s.writes rq (Reg.HUB_MIRROR_CMD 0) = true ∧ (u.mirror i).state = 3) ∧
    (∃ (rq : Requester) (v : Word) (s : State), ∀ (u : State) (i : Nat), u = s.store (Reg.HUB_MIRROR_CMD 0) v →
      i = u.regF (Reg.HUB_MIRROR_SEL 0) 10 0 → s.stopped = false ∧ s.writes rq (Reg.HUB_MIRROR_CMD 0) = true ∧ (u.mirror i).state ≠ 3 ∧
      (u.mirror i).serving = true) ∧
    (∃ (i : Fin 2048) (s : State), s.stopped = false ∧ (s.mirror i.val).state = 2) ∧
    (∃ (i : Fin 2048) (s : State), s.stopped = false ∧ ((s.mirror i.val).state = 1 ∨ (s.mirror i.val).state = 2)) ∧
    (∃ (i : Fin 2048) (s : State), ∀ (m : Mirror), m = s.mirror i.val → s.stopped = false ∧ m.state = 4 ∧ m.copied < m.range.size ∧
      (linesOf (m.range.base + m.copied) 4096).all s.readable = true) ∧
    (∃ (i : Fin 2048) (s : State), ∀ (m : Mirror), m = s.mirror i.val → s.stopped = false ∧ m.state = 4 ∧ m.range.size ≤ m.copied ∧
      (s.mirrors.acks.any (fun a => decide (a.entry = i.val) && decide (a.req.src = .device))) = false) := by
  refine ⟨?_, ?_, ?_, ?_, ?_, ?_, ?_, ?_, ?_⟩
  · exact by
      refine ⟨.fm 0, 1, base, ?_⟩
      rintro u i m rfl rfl rfl
      exact ⟨by decide +kernel, by decide +kernel, by decide +kernel, by decide +kernel⟩
  · exact by
      refine ⟨.fm 0, 2, mirrored 1, ?_⟩
      rintro u i m rfl rfl rfl
      exact ⟨by decide +kernel, by decide +kernel, by decide +kernel⟩
  · exact by
      refine ⟨.fm 0, 4, mirrored 4, ?_⟩
      rintro u i m rfl rfl rfl
      exact ⟨by decide +kernel, by decide +kernel, by decide +kernel⟩
  · exact by
      refine ⟨.fm 0, 8, mirrored 3, ?_⟩
      rintro u i rfl rfl
      exact ⟨by decide +kernel, by decide +kernel, by decide +kernel⟩
  · exact by
      refine ⟨.fm 0, 8, mirrored 1, ?_⟩
      rintro u i rfl rfl
      exact ⟨by decide +kernel, by decide +kernel, by decide +kernel, by decide +kernel⟩
  · exact ⟨2047, mirrored 2, by decide +kernel, by decide +kernel⟩
  · exact ⟨2047, mirrored 1, by decide +kernel, by decide +kernel⟩
  · exact by
      refine ⟨2047, mirrored 4, ?_⟩
      rintro m rfl
      exact ⟨by decide +kernel, by decide +kernel, by decide +kernel, by decide +kernel⟩
  · exact by
      refine ⟨2047, base.modMirror 2047 (fun _ => { mir 4 with copied := 0x10000000 }), ?_⟩
      rintro m rfl
      exact ⟨by decide +kernel, by decide +kernel, by decide +kernel, by decide +kernel⟩
/-- A RESUME packet naming chute 63, sequence 5, of fault 7. -/
def resume0 : Control := ⟨63, 5, 2, 0, false, [7, 0, 0]⟩
/-- Partition 0 with a RESUME that names a held fault, or none. -/
def resuming (h : List HeldFault) : State := base.modPart 0 (fun p => { p with control := [resume0], held := h })
/-- A RELEASE_FENCE that writes a flag of four bytes, or none. -/
def fenceAt (a : Nat) : Cmd := { run 0x10 with args := [0, a, 0], aux := [0, 0], pins := [⟨0, 12, 0x5D, 0⟩] }

/-- What Obligations.TranslationCommands supposes can be met. -/
theorem witness_TranslationCommands :
    (∃ (rq : Requester) (p : Fin 32) (v : Word) (s : State), ∀ (u : State), u = s.store (Reg.PART_XLT_CTRL p.val) (v ||| 1) → s.stopped = false ∧
      s.writes rq (Reg.PART_XLT_CTRL p.val) = true ∧ bitOf (s.reg (Reg.PART_XLT_CTRL p.val)) 0 = false ∧
      u.liveRange p.val ⟨s.reg64 (Reg.PART_XLT_ROOT_LO p.val) % 2 ^ 40, 4096⟩ = true) ∧
    (∃ (rq : Requester) (p : Fin 32) (v : Word) (s : State), ∀ (u : State), u = s.store (Reg.PART_XLT_CTRL p.val) (v ||| 1) → s.stopped = false ∧
      s.writes rq (Reg.PART_XLT_CTRL p.val) = true ∧ bitOf (s.reg (Reg.PART_XLT_CTRL p.val)) 0 = false ∧
      u.liveRange p.val ⟨s.reg64 (Reg.PART_XLT_ROOT_LO p.val) % 2 ^ 40, 4096⟩ = false) ∧
    (∃ (rq : Requester) (p : Fin 32) (s : State), s.stopped = false ∧ s.writes rq (Reg.PART_XLT_CTRL p.val) = true) ∧
    (∃ (rq : Requester) (p : Fin 32) (v : Word) (s : State), ∀ (u : State) (n : Nat) (b : Nat), u = s.store (Reg.PART_XLT_INV_CTRL p.val) v →
      n = 4096 * 2 ^ min 45 (u.regF (Reg.PART_XLT_INV_CTRL p.val) 21 16) → b = u.reg64 (Reg.PART_XLT_INV_VA_LO p.val) % 2 ^ 57 / n * n →
      s.stopped = false ∧ s.writes rq (Reg.PART_XLT_INV_CTRL p.val) = true ∧ bitOf (s.reg (Reg.PART_XLT_INV_CTRL p.val)) 31 = false ∧
      bitOf v 1 = false) ∧
    (∃ (rq : Requester) (p : Fin 32) (v : Word) (s : State), ∀ (u : State), u = s.store (Reg.PART_XLT_INV_CTRL p.val) v → s.stopped = false ∧
      s.writes rq (Reg.PART_XLT_INV_CTRL p.val) = true ∧ bitOf (s.reg (Reg.PART_XLT_INV_CTRL p.val)) 31 = false) ∧
    (∃ (p : Fin 32) (i : Inval) (s : State), s.stopped = false ∧ (s.part p.val).inval = some i ∧
      (s.part p.val).cmds.any (fun c => c.pins.any i.holds) = false) ∧
    (∃ (p : Fin 32) (chute : Fin 64) (seq : Word) (c : Cmd) (s : State), s.stopped = false ∧ s.cmd p.val chute.val seq.toNat = some c ∧
      c.phase = .queued ∧ c.mustStop = false ∧ s.atFault p.val c = none ∧ s.nextInput p.val c = none ∧ c.nextUnpinned (s.named p.val c) = none) ∧
    (∃ (p : Fin 32) (chute : Fin 64) (seq : Word) (k : Control) (h : HeldFault) (s : State), s.stopped = false ∧
      s.controlOf p.val chute.val seq.toNat 2 = some k ∧ (s.resumable p.val).find? (fun h => decide (h.id = k.arg 8 % 65536)) = some h ∧
      (k.arg 9 + 2 ^ 32 * k.arg 10 = 0 ∨ nfld (k.arg 9 + 2 ^ 32 * k.arg 10) 56 12 = nfld h.va 56 12) ∧ nfld (k.arg 8) 16 16 = 0) ∧
    (∃ (p : Fin 32) (chute : Fin 64) (seq : Word) (k : Control) (s : State), s.stopped = false ∧ s.controlOf p.val chute.val seq.toNat 2 = some k ∧
      (s.resumable p.val).find? (fun h => decide (h.id = k.arg 8 % 65536)) = none) ∧
    (∃ (p : Fin 32) (chute : Fin 64) (seq : Word) (c : Cmd) (s : State) (u : State), s.stopped = false ∧
      s.running p.val chute.val seq.toNat = some c ∧ c.opcode = 0x10 ∧ c.arg64 9 = 0 ∧ c.sent = false ∧ ScopeDone s p.val c u) ∧
    (∃ (p : Fin 32) (chute : Fin 64) (seq : Word) (c : Cmd) (x : List (Nat × Nat)) (s : State) (u : State), s.stopped = false ∧
      s.running p.val chute.val seq.toNat = some c ∧ c.opcode = 0x10 ∧ c.arg64 9 ≠ 0 ∧ c.arg64 9 % c.flagBytes = 0 ∧ c.sent = false ∧
      ScopeDone s p.val c u ∧ c.range (c.arg64 9) c.flagBytes acWrite = some x) ∧
    (∃ (p : Fin 32) (chute : Fin 64) (seq : Word) (c : Cmd) (s : State), s.stopped = false ∧ s.running p.val chute.val seq.toNat = some c ∧
      c.opcode = 0x10 ∧ c.arg64 9 % c.flagBytes = 0 ∧ c.sent = true ∧ c.unacked = 0) := by
  refine ⟨?_, ?_, ?_, ?_, ?_, ?_, ?_, ?_, ?_, ?_, ?_, ?_⟩
  · exact by
      refine ⟨.ld 0, 0, 1, granted.setReg64 (Reg.PART_XLT_ROOT_LO 0) 0x400000000, ?_⟩
      rintro u rfl
      exact ⟨by decide +kernel, by decide +kernel, by decide +kernel, by decide +kernel⟩
  · exact by
      refine ⟨.ld 0, 0, 1, granted, ?_⟩
      rintro u rfl
      exact ⟨by decide +kernel, by decide +kernel, by decide +kernel, by decide +kernel⟩
  · exact ⟨.ld 0, 0, base, by decide +kernel, by decide +kernel⟩
  · exact by
      refine ⟨.ld 0, 0, 1, base, ?_⟩
      rintro u n b rfl rfl rfl
      exact ⟨by decide +kernel, by decide +kernel, by decide +kernel, by decide +kernel⟩
  · exact by
      refine ⟨.ld 0, 0, 3, base, ?_⟩
      rintro u rfl
      exact ⟨by decide +kernel, by decide +kernel, by decide +kernel⟩
  · exact ⟨0, ⟨1, 4096, 4096⟩, (one { run 0x01 with pins := [⟨0, 12, 0x5D, 0⟩] }).modPart 0 (fun p => { p with inval := some ⟨1, 4096, 4096⟩ }), by decide +kernel, by decide +kernel, by decide +kernel⟩
  · exact ⟨0, 0, 0, { fenceAt 0 with phase := .queued }, one { fenceAt 0 with phase := .queued }, by decide +kernel, by decide +kernel, by decide +kernel, by decide +kernel, by decide +kernel, by decide +kernel, by decide +kernel⟩
  · exact ⟨0, 63, 5, resume0, ⟨7, 63, 5, 4096, 0, 3, 0⟩, resuming [⟨7, 63, 5, 4096, 0, 3, 0⟩], by decide +kernel, by decide +kernel, by decide +kernel, by decide +kernel, by decide +kernel⟩
  · exact ⟨0, 63, 5, resume0, resuming [], by decide +kernel, by decide +kernel, by decide +kernel⟩
  · exact ⟨0, 0, 0, fenceAt 0, one (fenceAt 0), one (fenceAt 0), by decide +kernel, by decide +kernel, by decide +kernel, by decide +kernel, by decide +kernel, by exact .inl ⟨by decide +kernel, rfl⟩⟩
  · exact ⟨0, 0, 0, fenceAt 4092, [(t0Flag + 4092, 4)], one (fenceAt 4092), one (fenceAt 4092), by decide +kernel, by decide +kernel, by decide +kernel, by decide +kernel, by decide +kernel, by decide +kernel, by exact .inl ⟨by decide +kernel, rfl⟩, by decide +kernel⟩
  · exact ⟨0, 0, 0, { fenceAt 4092 with aux := [0, 1] }, one { fenceAt 4092 with aux := [0, 1] }, by decide +kernel, by decide +kernel, by decide +kernel, by decide +kernel, by decide +kernel, by decide +kernel⟩
/-- Partition 0 with 256 MiB of T1 that host 0 reaches through its logical device from address 0. -/
def hosted : State := granted.modLd 0 (fun d => { d with decoder := ⟨true, 0, 0x10000000, true⟩ })
/-- The same without back-invalidate. -/
def hostedH : State := granted.modLd 0 (fun d => { d with decoder := ⟨true, 0, 0x10000000, false⟩ })
/-- A directory entry of a line that host 0 holds. -/
def entryE (t : Option Trans) : DirEntry := ⟨0xFFFF, 2, 0, false, [], 0, t, false⟩
/-- A recall or round that waits for the host only. -/
def dueH : Trans := ⟨false, [], true, false, 0, 0, false, false, false, .evict 0⟩
/-- The extent of partition 0 past its release point, its first line held by its host. -/
def pastRel : State := ({ hosted with extents := [⟨0, ⟨0x400000000, 0x10000000⟩, .releasing⟩] }).setEntry 0x10000000 (some (entryE none))

/-- What Obligations.HostRequests supposes can be met. -/
theorem witness_HostRequests :
    
      (∃ (ld : Fin 34) (tag : Nat) (o : Nat) (hpa : BitVec 64) (mv : Fin 3) (s : State), ∀ (u : State) (r : HomeReq), u = s.cxlRequest ld.val hpa.toNat false 0 64 →
      r = hostReq ld.val tag (o / 64) (if u.hdmDb ld.val then (if mv.val = 0 then .rd else if mv.val = 1 then .rdsH else .ownH) else .rd) true →
      s.stopped = false ∧ s.portCheck ld.val hpa.toNat = some o ∧ u.portCheck ld.val hpa.toNat = some o ∧ u.homeOpen r.line = true) ∧
    (∃ (ld : Fin 34) (hpa : BitVec 64) (s : State), ∀ (u : State), u = s.cxlRequest ld.val hpa.toNat false 0 64 → s.stopped = false ∧
      s.portCheck ld.val hpa.toNat = none ∧ u.portCheck ld.val hpa.toNat = none) ∧
    (∃ (ld : Fin 34) (tag : Nat) (o : Nat) (hpa : BitVec 64) (s : State), ∀ (u : State) (r : HomeReq), u = s.cxlRequest ld.val hpa.toNat false 0 64 →
      r = hostReq ld.val tag (o / 64) (if u.hdmDb ld.val then .rdsH else .rd) true → s.stopped = false ∧ u.portCheck ld.val hpa.toNat = some o ∧
      u.homeOpen r.line = true) ∧
    (∃ (i : Fin 34 → Nat → BitVec 64 →
      Instr) (ld : Fin 34) (tag : Nat) (o : Nat) (hpa : BitVec 64) (s : State), ∀ (u : State), u = s.cxlRequest ld.val hpa.toNat false 0 0 →
      s.stopped = false ∧ i ∈ [(fun ld tag hpa => Instr.memInv ld tag hpa 0 true), (fun ld tag hpa => Instr.memClnEvct ld tag hpa true)] ∧
      u.portCheck ld.val hpa.toNat = some o ∧ u.hdmDb ld.val = true) ∧
    (∃ (i : Fin 34 → Nat → BitVec 64 →
      Instr) (ld : Fin 34) (tag : Nat) (o : Nat) (hpa : BitVec 64) (s : State), ∀ (u : State), u = s.cxlRequest ld.val hpa.toNat false 0 0 →
      s.stopped = false ∧ i ∈ [(fun ld tag hpa => Instr.memInv ld tag hpa 0 true), (fun ld tag hpa => Instr.memClnEvct ld tag hpa true)] ∧
      u.portCheck ld.val hpa.toNat = some o ∧ u.hdmDb ld.val = false) ∧
    
      (∃ (ld : Fin 34) (tag : Nat) (o : Nat) (hpa : BitVec 64) (mv : Fin 3) (s : State), ∀ (u : State) (r : HomeReq), u = s.cxlRequest ld.val hpa.toNat false 0 0 →
      r = hostReq ld.val tag (o / 64) (if mv.val = 1 then .rdsH else .ownH) false → s.stopped = false ∧ mv.val ≠ 0 ∧ s.hdmDb ld.val = true ∧
      u.portCheck ld.val hpa.toNat = some o ∧ u.hdmDb ld.val = true ∧ u.homeOpen r.line = true) ∧
    
      (∃ (ld : Fin 34) (tag : Nat) (o : Nat) (hpa : BitVec 64) (mv : Fin 3) (mask : BitVec 64) (data : Line) (poison : Bool) (s : State), ∀ (u : State) (r : HomeReq), u = s.cxlRequest ld.val hpa.toNat true 64 0 →
      r = { hostReq ld.val tag (o / 64) (if u.hdmDb ld.val && u.showsE ld.val (o / 64) then .wbH else .wr) false with mask := mask.toNat, data := data.toNat, poison := poison, keep := mv.val } →
      s.stopped = false ∧ u.portCheck ld.val hpa.toNat = some o ∧ ((u.hdmDb ld.val && u.showsE ld.val (o / 64)) || u.homeOpen r.line) = true) ∧
    (∃ (ld : Fin 34) (o : Nat) (hpa : BitVec 64) (s : State), ∀ (u : State), u = s.cxlRequest ld.val hpa.toNat true 64 0 → s.stopped = false ∧
      u.portCheck ld.val hpa.toNat = none ∧ u.decode ld.val hpa.toNat = some o ∧ (u.pastRelease ld.val o && u.showsE ld.val (o / 64)) = true) ∧
    (∃ (line : BitVec 34) (e : DirEntry) (x : Trans) (s : State), s.stopped = false ∧ s.dirEntry line.toNat = some e ∧ e.trans = some x ∧
      x.hostDue = true ∧ x.rcl = false) ∧
    (∃ (line : BitVec 34) (s : State), s.stopped = false ∧ s.dirEntry line.toNat = none) ∧
    (∃ (line : BitVec 34) (e : DirEntry) (x : Trans) (s : State), s.stopped = false ∧ s.dirEntry line.toNat = some e ∧ e.trans = some x ∧
      x.hostDue = true ∧ x.timedOut = false ∧ max 1 (s.regN (Reg.DIR_BI_TIMEOUT (s.lineHub line.toNat))) < s.lcc - x.since) ∧
    (∃ (line : BitVec 34) (r : HomeReq) (s : State), s.stopped = false ∧ s.homes.queue.find? (fun q => decide (q.line = line.toNat)) = some r ∧
      s.dirEntry line.toNat = none ∧ s.holdsAt (64 * line.toNat) = false ∧ s.stackTested line.toNat = false) ∧
    (∃ (ld : Fin 34) (o : Nat) (hpa : BitVec 64) (s : State), ∀ (u : State), u = s.cxlRequest ld.val hpa.toNat false 0 0 → s.stopped = false ∧
      u.portCheck ld.val hpa.toNat = none ∧ u.decode ld.val hpa.toNat = some o ∧ (u.pastRelease ld.val o && u.showsE ld.val (o / 64)) = true) ∧
    (∃ (ld : Fin 34) (o : Nat) (hpa : BitVec 64) (s : State), ∀ (u : State), u = s.cxlRequest ld.val hpa.toNat false 0 0 → s.stopped = false ∧
      u.portCheck ld.val hpa.toNat = none ∧ u.decode ld.val hpa.toNat = some o) := by
  refine ⟨?_, ?_, ?_, ?_, ?_, ?_, ?_, ?_, ?_, ?_, ?_, ?_, ?_, ?_⟩
  · exact by
      refine ⟨0, 3, 0x40FFFFFC0, 0xFFFFFC0, 2, hosted, ?_⟩
      rintro u r rfl rfl
      exact ⟨by decide +kernel, by decide +kernel, by decide +kernel, by decide +kernel⟩
  · exact by
      refine ⟨0, 0x10000000, hosted, ?_⟩
      rintro u rfl
      exact ⟨by decide +kernel, by decide +kernel, by decide +kernel⟩
  · exact by
      refine ⟨0, 3, 0x400000000, 0, hosted, ?_⟩
      rintro u r rfl rfl
      exact ⟨by decide +kernel, by decide +kernel, by decide +kernel⟩
  · exact by
      refine ⟨(fun ld tag hpa => Instr.memInv ld tag hpa 0 true), 0, 3, 0x400000000, 0, hosted, ?_⟩
      rintro u rfl
      exact ⟨by decide +kernel, by exact List.Mem.head _, by decide +kernel, by decide +kernel⟩
  · exact by
      refine ⟨(fun ld tag hpa => Instr.memInv ld tag hpa 0 true), 0, 3, 0x400000000, 0, hostedH, ?_⟩
      rintro u rfl
      exact ⟨by decide +kernel, by exact List.Mem.head _, by decide +kernel, by decide +kernel⟩
  · exact by
      refine ⟨0, 3, 0x400000000, 0, 2, hosted, ?_⟩
      rintro u r rfl rfl
      exact ⟨by decide +kernel, by decide +kernel, by decide +kernel, by decide +kernel, by decide +kernel, by decide +kernel⟩
  · exact by
      refine ⟨0, 3, 0x400000000, 0, 2, 1, 5, false, hosted, ?_⟩
      rintro u r rfl rfl
      exact ⟨by decide +kernel, by decide +kernel, by decide +kernel⟩
  · exact by
      refine ⟨0, 0x400000000, 0, pastRel, ?_⟩
      rintro u rfl
      exact ⟨by decide +kernel, by decide +kernel, by decide +kernel, by decide +kernel⟩
  · exact ⟨0x10000000, entryE (some dueH), dueH, hosted.setEntry 0x10000000 (some (entryE (some dueH))), by decide +kernel, by decide +kernel, by decide +kernel, by decide +kernel, by decide +kernel⟩
  · exact ⟨0x10000000, hosted, by decide +kernel, by decide +kernel⟩
  · exact ⟨0x10000000, entryE (some dueH), dueH, { hosted.setEntry 0x10000000 (some (entryE (some dueH))) with lcc := 2 ^ 33 }, by decide +kernel, by decide +kernel, by decide +kernel, by decide +kernel, by decide +kernel, by decide +kernel⟩
  · exact ⟨0x10000000, HomeReq.store .device 0x10000000 1 0 false, hosted.modHomes (fun h => { h with queue := [HomeReq.store .device 0x10000000 1 0 false] }), by decide +kernel, by decide +kernel, by decide +kernel, by decide +kernel, by decide +kernel⟩
  · exact by
      refine ⟨0, 0x400000000, 0, pastRel, ?_⟩
      rintro u rfl
      exact ⟨by decide +kernel, by decide +kernel, by decide +kernel, by decide +kernel⟩
  · exact by
      refine ⟨0, 0x400000000, 0, pastRel, ?_⟩
      rintro u rfl
      exact ⟨by decide +kernel, by decide +kernel, by decide +kernel⟩
/-- A coherence packet of node 1 that names the first line of the T1 pool of this node. -/
def pk (typ tc w1 : Nat) : Packet :=
  { dst := 0, src := 1, tc := tc, vc := 0, rail := 0, retried := false, sc := false, combined := false, srcInc := 0, proto := 1, len := 8, tkind := 0,
    lineOff := 0, seq := 5, dstCell := 0, srcCell := 0, ncons := 1, hops := 0, srcPart := 0, msgId := 0, body := [typ, w1, 0, 4, 0, 0, 0, 0] }
/-- A request of this node to node 1 that waits for an answer. -/
def out (tc : Nat) (who : Waiter) : OutReq := ⟨pk 1 tc 0, who, none, 0, false, 0, false, 0⟩
/-- Such a request outstanding. -/
def asked (tc : Nat) (who : Waiter) : State :=
  base.modFab (fun f => { f with reqs := [{ out tc who with pkt := { pk 1 tc 0 with dst := 1, src := 0 } }] })
/-- The request that asked holds. -/
def out1 (tc : Nat) (who : Waiter) : OutReq := { out tc who with pkt := { pk 1 tc 0 with dst := 1, src := 0 } }

/-- What Obligations.PeerPackets supposes can be met. -/
theorem witness_PeerPackets :
    (∃ (i : Packet → Instr) (n : Nat) (k : Packet) (s : State), s.stopped = false ∧
      (i, n) ∈ [((fun k => Instr.rd k none 0), 0x01), (Instr.wr, 0x02), (Instr.wrp, 0x03)] ∧ k.proto = 1 ∧ k.typ = n ∧ s.canTake k = true ∧
      k.isWindowed = false) ∧
    (∃ (i : Packet → Instr) (n : Nat) (k : Packet) (s : State), s.stopped = false ∧
      (i, n) ∈ [((fun k => Instr.rd k none 0), 0x01), (Instr.wr, 0x02), (Instr.wrp, 0x03)] ∧ k.proto = 1 ∧ k.typ = n ∧ s.canTake k = true ∧
      k.isWindowed = true) ∧
    (∃ (k : Packet) (s : State) (x : AtomOp × Nat), s.stopped = false ∧ k.proto = 1 ∧ k.typ = 0x04 ∧ s.canTake k = true ∧
      AtomOp.ofCode k.atomOp = some x ∧ k.isWindowed = true) ∧
    (∃ (k : Packet) (s : State), ∀ (u : State), u = s.receive k → s.stopped = false ∧ k.proto = 1 ∧ k.typ = 0x04 ∧ s.canTake k = true ∧
      AtomOp.ofCode k.atomOp = none) ∧
    (∃ (k : Packet) (s : State), s.stopped = false ∧ k.proto = 1 ∧ k.combined = true ∧ s.canTake k = true) ∧
    (∃ (k : Packet) (s : State), s.stopped = false ∧ k.proto = 1 ∧ k.typ = 0x05) ∧
    (∃ (k : Packet) (r : OutReq) (s : State), ∀ (u : State), u = s.receive k → s.stopped = false ∧ k.proto = 1 ∧ k.typ = 0x10 ∧
      u.awaiting k 2 = some r ∧ r.pkt.fill = false) ∧
    (∃ (k : Packet) (r : OutReq) (s : State), ∀ (u : State), u = s.receive k → s.stopped = false ∧ k.proto = 1 ∧ k.typ = 0x11 ∧
      u.awaiting k (if k.atomOp ≠ 0 then 3 else 2) = some r) ∧
    (∃ (k : Packet) (r : OutReq) (s : State), ∀ (u : State), u = s.receive k → s.stopped = false ∧ k.proto = 1 ∧ k.typ = 0x12 ∧
      u.awaiting k (if k.atomOp ≠ 0 then 3 else 2) = some r) ∧
    (∃ (k : Packet) (r : OutReq) (id : Nat) (a : MirrorAck) (s : State), ∀ (u : State) (v : State), u = s.receive k → v = u.complete r →
      s.stopped = false ∧ k.proto = 1 ∧ k.typ = 0x13 ∧ u.awaiting k 4 = some r ∧ r.waiter = .mirror id ∧
      v.mirrors.acks.find? (fun a => decide (a.id = id)) = some a ∧ k.status ≠ stAlreadyDone) ∧
    (∃ (k : Packet) (r : OutReq) (id : Nat) (a : MirrorAck) (s : State), ∀ (u : State) (v : State), u = s.receive k → v = u.complete r →
      s.stopped = false ∧ k.proto = 1 ∧ k.typ = 0x13 ∧ u.awaiting k 4 = some r ∧ r.waiter = .mirror id ∧
      v.mirrors.acks.find? (fun a => decide (a.id = id)) = some a ∧ k.status = stAlreadyDone ∧
      ((v.mirror a.entry).state = 1 ∨ (v.mirror a.entry).state = 2)) ∧
    (∃ (k : Packet) (s : State), ∀ (u : State), u = s.receive k → s.stopped = false ∧ k.proto = 1 ∧ k.typ = 0x20 ∧ u.remoteLine k.addr = none ∧
      u.fab.reqs = []) ∧
    (∃ (k : Packet) (l : RemoteLine) (s : State), ∀ (u : State) (v : State), u = s.receive k →
      v = (u.setRemoteLine k.addr none).count (Reg.DIR_RLC_INV (rlcHub k.addr)) 1 → s.stopped = false ∧ k.proto = 1 ∧ k.typ = 0x20 ∧
      u.remoteLine k.addr = some l ∧ v.fab.reqs = []) ∧
    (∃ (k : Packet) (r : OutReq) (s : State), ∀ (u : State), u = s.receive k → s.stopped = false ∧ k.proto = 1 ∧ k.typ = 0x21 ∧
      u.awaiting k 1 = some r ∧ k.addr / 2 ^ 40 = (u.complete r).node ∧ k.addr % 2 ^ 40 < Config.t1Bytes) ∧
    (∃ (k : Packet) (s : State), ∀ (u : State), u = s.receive k → s.stopped = false ∧ k.proto = 1 ∧ knownTypes.contains k.typ = false ∧
      k.addr / 2 ^ 40 = u.node ∧ k.addr % 2 ^ 40 < Config.t1Bytes) := by
  refine ⟨?_, ?_, ?_, ?_, ?_, ?_, ?_, ?_, ?_, ?_, ?_, ?_, ?_, ?_, ?_⟩
  · exact ⟨(fun k => Instr.rd k none 0), 1, pk 1 2 0, granted, by decide +kernel, by exact List.Mem.head _, by decide +kernel, by decide +kernel, by decide +kernel, by decide +kernel⟩
  · exact ⟨Instr.wr, 2, pk 2 2 0, granted, by decide +kernel, by exact List.Mem.tail _ (List.Mem.head _), by decide +kernel, by decide +kernel, by decide +kernel, by decide +kernel⟩
  · exact ⟨{ pk 4 3 0 with body := [4, 0, 0, 4, 0, 0x10000, 0, 0] }, granted, (.add, 32), by decide +kernel, by decide +kernel, by decide +kernel, by decide +kernel, by decide +kernel, by decide +kernel⟩
  · exact by
      refine ⟨pk 4 3 0, granted, ?_⟩
      rintro u rfl
      exact ⟨by decide +kernel, by decide +kernel, by decide +kernel, by decide +kernel, by decide +kernel⟩
  · exact ⟨{ pk 4 3 0 with combined := true }, granted, by decide +kernel, by decide +kernel, by decide +kernel, by decide +kernel⟩
  · exact ⟨pk 5 4 0, granted, by decide +kernel, by decide +kernel, by decide +kernel⟩
  · exact by
      refine ⟨pk 0x10 2 0, out1 2 .nobody, asked 2 .nobody, ?_⟩
      rintro u rfl
      exact ⟨by decide +kernel, by decide +kernel, by decide +kernel, by decide +kernel, by decide +kernel⟩
  · exact by
      refine ⟨pk 0x11 2 0, out1 2 .nobody, asked 2 .nobody, ?_⟩
      rintro u rfl
      exact ⟨by decide +kernel, by decide +kernel, by decide +kernel, by decide +kernel⟩
  · exact by
      refine ⟨pk 0x12 2 0, out1 2 .nobody, asked 2 .nobody, ?_⟩
      rintro u rfl
      exact ⟨by decide +kernel, by decide +kernel, by decide +kernel, by decide +kernel⟩
  · exact by
      refine ⟨pk 0x13 4 0, out1 4 (.mirror 3), 3, ⟨3, 0, HomeReq.store .device 0x10000000 1 0 false, none⟩, { asked 4 (.mirror 3) with mirrors := { base.mirrors with acks := [⟨3, 0, HomeReq.store .device 0x10000000 1 0 false, none⟩] } }, ?_⟩
      rintro u v rfl rfl
      exact ⟨by decide +kernel, by decide +kernel, by decide +kernel, by decide +kernel, by decide +kernel, by decide +kernel, by decide +kernel⟩
  · exact by
      refine ⟨{ pk 0x13 4 0 with body := [0x13, 0, 0, 4, 0, stAlreadyDone * 256, 0, 0] }, out1 4 (.mirror 3), 3, ⟨3, 0, HomeReq.store .device 0x10000000 1 0 false, none⟩, { asked 4 (.mirror 3) with mirrors := { base.mirrors with entries := [(0, { Mirror.unused with state := 1 })], acks := [⟨3, 0, HomeReq.store .device 0x10000000 1 0 false, none⟩] } }, ?_⟩
      rintro u v rfl rfl
      exact ⟨by decide +kernel, by decide +kernel, by decide +kernel, by decide +kernel, by decide +kernel, by decide +kernel, by decide +kernel, by decide +kernel⟩
  · exact by
      refine ⟨pk 0x20 1 0, base, ?_⟩
      rintro u rfl
      exact ⟨by decide +kernel, by decide +kernel, by decide +kernel, by decide +kernel, by decide +kernel⟩
  · exact by
      refine ⟨pk 0x20 1 0, ⟨7, 3, 0⟩, base.setRemoteLine 0x400000000 (some ⟨7, 3, 0⟩), ?_⟩
      rintro u v rfl rfl
      exact ⟨by decide +kernel, by decide +kernel, by decide +kernel, by decide +kernel, by decide +kernel⟩
  · exact by
      refine ⟨pk 0x21 1 0, out1 1 (.inval 0x10000000 1), asked 1 (.inval 0x10000000 1), ?_⟩
      rintro u rfl
      exact ⟨by decide +kernel, by decide +kernel, by decide +kernel, by decide +kernel, by decide +kernel, by decide +kernel⟩
  · exact by
      refine ⟨pk 0xFF 2 0, base, ?_⟩
      rintro u rfl
      exact ⟨by decide +kernel, by decide +kernel, by decide +kernel, by decide +kernel, by decide +kernel⟩

/-- What Obligations.HostLossAndRelease supposes can be met. -/
theorem witness_HostLossAndRelease :
    (∃ (rq : Requester) (v : Word) (s : State), ∀ (u : State) (ld : Nat), u = s.store (Reg.DIR_HOST_LOST 0) v →
      ld = u.regF (Reg.DIR_HOST_LOST 0) 4 4 * 16 + u.regF (Reg.DIR_HOST_LOST 0) 3 0 → s.stopped = false ∧
      s.writes rq (Reg.DIR_HOST_LOST 0) = true ∧ u.scanBusy = false) ∧
    (∃ (rq : Requester) (v : Word) (s : State), ∀ (u : State), u = s.store (Reg.DIR_HOST_LOST 0) v → s.stopped = false ∧
      s.writes rq (Reg.DIR_HOST_LOST 0) = true ∧ u.scanBusy = true) ∧
    (∃ (s : State), s.stopped = false ∧ s.homes.scanning = true) ∧
    (∃ (rq : Requester) (h : Fin 2) (v : Word) (s : State), ∀ (u : State) (l : Nat), u = s.pairDone rq (Reg.DIR_PEEK_ADDR_HI h.val) v →
      l = u.reg64 (Reg.DIR_PEEK_ADDR_LO h.val) % 2 ^ 40 / 64 → s.stopped = false ∧ s.writes rq (Reg.DIR_PEEK_ADDR_HI h.val) = true ∧
      u.dirEntry l = none) ∧
    
      (∃ (rq : Requester) (h : Fin 2) (v : Word) (e : DirEntry) (s : State), ∀ (u : State) (l : Nat), u = s.pairDone rq (Reg.DIR_PEEK_ADDR_HI h.val) v →
      l = u.reg64 (Reg.DIR_PEEK_ADDR_LO h.val) % 2 ^ 40 / 64 → s.stopped = false ∧ s.writes rq (Reg.DIR_PEEK_ADDR_HI h.val) = true ∧
      u.dirEntry l = some e ∧ u.lineHub l = h.val) ∧
    (∃ (i : Nat) (e : Extent) (s : State), s.stopped = false ∧ s.extents[i]? = some e) ∧
    (∃ (i : Nat) (e : Extent) (s : State), s.stopped = false ∧ s.extents[i]? = some e ∧ e.state = .releasing ∧ s.busyIn e.part e.range = false ∧
      s.entriesIn e.range ≠ []) ∧
    (∃ (i : Nat) (e : Extent) (s : State), s.stopped = false ∧ s.extents[i]? = some e ∧ e.state = .releasing ∧ s.busyIn e.part e.range = false ∧
      s.entriesIn e.range = []) := by
  refine ⟨?_, ?_, ?_, ?_, ?_, ?_, ?_, ?_⟩
  · exact by
      refine ⟨.fm 0, 0x8000001F, base, ?_⟩
      rintro u ld rfl rfl
      exact ⟨by decide +kernel, by decide +kernel, by decide +kernel⟩
  · exact by
      refine ⟨.fm 0, 0x80000000, base.modHomes (fun h => { h with scanning := true }), ?_⟩
      rintro u rfl
      exact ⟨by decide +kernel, by decide +kernel, by decide +kernel⟩
  · exact ⟨base.modHomes (fun h => { h with scanning := true }), by decide +kernel, by decide +kernel⟩
  · exact by
      refine ⟨.fm 0, 1, 0, base, ?_⟩
      rintro u l rfl rfl
      exact ⟨by decide +kernel, by decide +kernel, by decide +kernel⟩
  · exact by
      refine ⟨.fm 0, 1, 4, entryE none, hosted.setEntry 0x10000000 (some (entryE none)), ?_⟩
      rintro u l rfl rfl
      exact ⟨by decide +kernel, by decide +kernel, by decide +kernel, by decide +kernel⟩
  · exact ⟨0, ⟨0, ⟨0x400000000, 0x10000000⟩, .live⟩, granted, by decide +kernel, by decide +kernel⟩
  · exact ⟨0, ⟨0, ⟨0x400000000, 0x10000000⟩, .releasing⟩, pastRel, by decide +kernel, by decide +kernel, by decide +kernel, by decide +kernel, by decide +kernel⟩
  · exact ⟨0, ⟨0, ⟨0x400000000, 0x10000000⟩, .releasing⟩, { granted with extents := [⟨0, ⟨0x400000000, 0x10000000⟩, .releasing⟩] }, by decide +kernel, by decide +kernel, by decide +kernel, by decide +kernel, by decide +kernel⟩
/-- A coherence request of partition 0 to node 1. -/
def freq (w0 : Nat) : FabReq :=
  { tc := 2, dst := 1, dstCell := none, addr := 2 ^ 40, part := some 0, msgId := 0, proto := 1, len := 4, lineOff := 0, waiter := .cmd 0 0 0, body := [w0] }
/-- Port 11 is UP. -/
def linked : State := base.setRegF (Reg.LNK_STATUS 11) 31 29 2
/-- A DATA flit of sequence 0 without a packet: zeros, their CRC-64 (R232) and the parity of both codewords. -/
def goodFlit : BitVec 2048 := BitVec.ofNat 2048 (15798579294477608519 * 2 ^ 1856 + 169508024006537613397240301930592337920 * 2 ^ 1920)
/-- A queued packet of the FWD account. -/
def qe (place : Place) : QEntry := ⟨pk 2 0 0, 12, 32, place, 0, false, 0, 0⟩
/-- Port 11 UP with one packet queued. -/
def queued (place : Place) : State := linked.modPort 11 (fun q => { q with queue := [qe place] })
/-- The same without credit. -/
def stuck : State := (queued .reserved).modPort 11 (fun q => { q with used := (List.range 16).map (fun i => (i, 64)), sharedUsed := 7168 })
theorem fill_none {x : State × List (List Nat) × Nat × List Packet} (h : x.2.1 = []) : x = (x.1, [], x.2.2.1, x.2.2.2) := by
  obtain ⟨a, b, c, d⟩ := x
  cases h
  rfl

/-- What Obligations.FabricRequestsAndFlits supposes can be met. -/
theorem witness_FabricRequestsAndFlits :
    (∃ (r : FabReq) (s : State), s.stopped = false ∧ r.lacksComp = false) ∧
    (∃ (r : FabReq) (p : Nat) (c : Nat) (q : Nat) (s : State), s.stopped = false ∧ r.lacksComp = true ∧ s.sendsMsg r.waiter = false ∧
      r.waiter = .cmd p c q ∧ wordAt r.body 0 % 256 = 0x01) ∧
    (∃ (l : Fin 12) (f : BitVec 2048) (n : Nat) (lost : Nat) (s : State), s.stopped = false ∧ s.portOpen l.val = true ∧
      fecReceive f.toNat = (none, n, lost)) ∧
    (∃ (l : Fin 12) (f : BitVec 2048) (x : Flit) (n : Nat) (lost : Nat) (s : State), s.stopped = false ∧ s.portOpen l.val = true ∧
      fecReceive f.toNat = (some x, n, lost) ∧ x.crcOk = false) ∧
    
      (∃ (l : Fin 12) (f : BitVec 2048) (x : Flit) (n : Nat) (lost : Nat) (s : State), ∀ (u : State), u = (((s.count64 (Reg.LNK_FEC_CORR_LO l.val) n).takeAck l.val x).takeCredit l.val (nfld x.header 35 31) (nfld x.header 30 22)).takeCredit l.val (nfld x.header 21 17) (nfld x.header 16 8) →
      s.stopped = false ∧ s.portOpen l.val = true ∧ fecReceive f.toNat = (some x, n, lost) ∧ x.crcOk = true ∧ nfld x.header 38 38 = 0 ∧
      u.portOpen l.val = true ∧ (x.kind = 0 ∨ x.kind = 3) ∧ nfld x.header 63 52 = (u.port l.val).expect) ∧
    (∃ (l : Fin 12) (s : State), s.stopped = false ∧ s.portOpen l.val = true ∧ (s.port l.val).replay ≠ []) ∧
    (∃ (l : Fin 12) (slots : List (List Nat)) (start : Nat) (ended : List Packet) (s : State) (u : State), s.stopped = false ∧
      s.portOpen l.val = true ∧ (s.port l.val).replay.length < 512 ∧ ((s.port l.val).sent.length < 7 ∨ s.regF (Reg.LNK_STATUS l.val) 27 27 = 0) ∧
      s.fillFlit l.val 64 [] 0 [] = (u, slots, start, ended) ∧ slots ≠ []) ∧
    (∃ (l : Fin 12) (start : Nat) (ended : List Packet) (s : State) (u : State), s.stopped = false ∧ s.portOpen l.val = true ∧
      (s.port l.val).replay.length < 512 ∧ s.regF (Reg.LNK_STATUS l.val) 27 27 = 0 ∧ s.fillFlit l.val 64 [] 0 [] = (u, [], start, ended) ∧
      (u.port l.val).queue.any (·.onChip) = true) ∧
    
      (∃ (l : Fin 12) (e : QEntry) (p : Place) (s : State), ∀ (u : State), u = (s.leaveStaging e).replaceEntry l.val e { e with place := p, pkt := e.pkt } →
      s.stopped = false ∧ (s.port l.val).offChip.findSome? (fun e => (s.returnTo l.val e).map (fun p => (e, p))) = some (e, p) ∧
      e.place = .staged ∧ p ≠ .spill) ∧
    (∃ (l : Fin 12) (i : Nat) (e : QEntry) (s : State), s.stopped = false ∧ (s.port l.val).queue[i]? = some e ∧
      (s.port l.val).queue.find? (fun x => x.inSub e.pkt.tc e.pkt.vc e.acct) = some e ∧ s.ageLimit < s.lcc - e.since) ∧
    (∃ (dst : Fin 4096) (tc : Fin 8) (seq : Word) (r : OutReq) (s : State), s.stopped = false ∧ s.outstanding dst.val tc.val seq.toNat = some r ∧
      s.requestTimeout < s.lcc - r.sentAt) ∧
    (∃ (k : Packet) (r : OutReq) (s : State), ∀ (u : State) (lost : Packet), u = s.receive k → lost = Packet.ofWords k.body → s.stopped = false ∧
      k.tkind = 2 ∧ lost.tkind = 0 ∧ u.outstanding lost.dst lost.tc lost.seq = some r ∧ r.retried = false) ∧
    (∃ (dst : Fin 4096) (tc : Fin 8) (seq : Word) (r : OutReq) (s : State), s.stopped = false ∧ s.outstanding dst.val tc.val seq.toNat = some r ∧
      s.requestTimeout < s.lcc - r.sentAt ∧ r.retried = true) ∧
    (∃ (l : Fin 12) (s : State), s.stopped = false ∧ s.portOpen l.val = true ∧ 512 ≤ (s.port l.val).replay.length) ∧
    (∃ (l : Fin 12) (s : State), s.stopped = false ∧ s.portOpen l.val = true ∧ (s.port l.val).replay.length < 512 ∧ 7 ≤ (s.port l.val).sent.length ∧
      s.regF (Reg.LNK_STATUS l.val) 27 27 = 1) := by
  refine ⟨?_, ?_, ?_, ?_, ?_, ?_, ?_, ?_, ?_, ?_, ?_, ?_, ?_, ?_, ?_⟩
  · exact ⟨freq 2, base, by decide +kernel, by decide +kernel⟩
  · exact ⟨freq 0xFFFF0001, 0, 0, 0, base, by decide +kernel, by decide +kernel, by decide +kernel, by decide +kernel, by decide +kernel⟩
  · exact ⟨11, 0x010101010101, 0, 1, linked, by decide +kernel, by decide +kernel, by decide +kernel⟩
  · exact ⟨11, 0, ⟨0, List.replicate 56 0, 0⟩, 0, 0, linked, by decide +kernel, by decide +kernel, by decide +kernel, by decide +kernel⟩
  · exact by
      refine ⟨11, goodFlit, ⟨0, List.replicate 56 0, 15798579294477608519⟩, 0, 0, linked, ?_⟩
      rintro u rfl
      exact ⟨by decide +kernel, by decide +kernel, by decide +kernel, by decide +kernel, by decide +kernel, by decide +kernel, by decide +kernel, by decide +kernel⟩
  · exact ⟨11, linked.modPort 11 (fun q => { q with replay := [⟨0, 0, 0, []⟩] }), by decide +kernel, by decide +kernel, by decide +kernel⟩
  · exact ⟨11, ((queued .reserved).fillFlit 11 64 [] 0 []).2.1, ((queued .reserved).fillFlit 11 64 [] 0 []).2.2.1, ((queued .reserved).fillFlit 11 64 [] 0 []).2.2.2, queued .reserved, ((queued .reserved).fillFlit 11 64 [] 0 []).1, by decide +kernel, by decide +kernel, by decide +kernel, by decide +kernel, by rfl, by decide +kernel⟩
  · exact ⟨11, (stuck.fillFlit 11 64 [] 0 []).2.2.1, (stuck.fillFlit 11 64 [] 0 []).2.2.2, stuck, (stuck.fillFlit 11 64 [] 0 []).1, by decide +kernel, by decide +kernel, by decide +kernel, by decide +kernel, by exact fill_none (by decide +kernel), by decide +kernel⟩
  · exact by
      refine ⟨11, qe .staged, .reserved, queued .staged, ?_⟩
      rintro u rfl
      exact ⟨by decide +kernel, by decide +kernel, by decide +kernel, by decide +kernel⟩
  · exact ⟨11, 0, qe .reserved, { queued .reserved with lcc := 2 ^ 33 }, by decide +kernel, by decide +kernel, by decide +kernel, by decide +kernel⟩
  · exact ⟨1, 2, 5, out1 2 .nobody, { asked 2 .nobody with lcc := 2 ^ 40 }, by decide +kernel, by decide +kernel, by decide +kernel⟩
  · exact by
      refine ⟨{ pk 0 2 0 with tkind := 2, body := [0x100040, 0, 5] }, out1 2 .nobody, asked 2 .nobody, ?_⟩
      rintro u lost rfl rfl
      exact ⟨by decide +kernel, by decide +kernel, by decide +kernel, by decide +kernel, by decide +kernel⟩
  · exact ⟨1, 2, 5, { out1 2 .nobody with retried := true }, { base.modFab (fun f => { f with reqs := [{ out1 2 .nobody with retried := true }] }) with lcc := 2 ^ 40 }, by decide +kernel, by decide +kernel, by decide +kernel, by decide +kernel⟩
  · exact ⟨11, linked.modPort 11 (fun q => { q with replay := List.replicate 512 ⟨0, 0, 0, []⟩ }), by decide +kernel, by decide +kernel, by decide +kernel⟩
  · exact ⟨11, (linked.setRegF (Reg.LNK_STATUS 11) 27 27 1).modPort 11 (fun q => { q with sent := List.replicate 7 [] }), by decide +kernel, by decide +kernel, by decide +kernel, by decide +kernel, by decide +kernel⟩
/-- Port 11 in a state, with link authentication or without. -/
def lnk (st auth : Nat) : State := (base.setRegF (Reg.LNK_STATUS 11) 31 29 st).setRegF (Reg.LNK_CTRL 11) 4 4 auth
/-- The same with one-time leaves left to sign with. -/
def leafed (auth : Nat) : State := (lnk 1 auth).modBoot (fun b => { b with leaf := some 0 })

/-- What Obligations.LinkStates supposes can be met. -/
theorem witness_LinkStates :
    (∃ (rq : Requester) (l : Fin 12) (v : Word) (s : State), s.stopped = false ∧ s.writes rq (Reg.LNK_CTRL l.val) = true ∧ fld (v ||| 1) 2 0 = 1) ∧
    (∃ (rq : Requester) (l : Fin 12) (v : Word) (s : State), s.stopped = false ∧ s.writes rq (Reg.LNK_CTRL l.val) = true ∧ fld (v ||| 2) 2 0 = 2) ∧
    (∃ (rq : Requester) (l : Fin 12) (v : Word) (s : State), s.stopped = false ∧ s.writes rq (Reg.LNK_CTRL l.val) = true ∧ fld (v ||| 4) 2 0 = 4) ∧
    (∃ (rq : Requester) (l : Fin 12) (v : Word) (s : State), s.stopped = false ∧ s.writes rq (Reg.LNK_CTRL l.val) = true ∧
      (fld (v ||| 1) 2 0 = 3 ∨ fld (v ||| 1) 2 0 = 5 ∨ fld (v ||| 1) 2 0 = 7)) ∧
    (∃ (l : Fin 12) (s : State), s.stopped = false ∧ s.link l.val = 1 ∧ s.regF (Reg.LNK_CTRL l.val) 4 4 = 0) ∧
    (∃ (l : Fin 12) (x : Trained) (n : Nat) (s : State) (u : State), s.stopped = false ∧ s.link l.val = 1 ∧ s.regF (Reg.LNK_CTRL l.val) 4 4 = 1 ∧
      s.useLeaf = some (n, u) ∧ x.fail = 0) ∧
    (∃ (l : Fin 12) (x : Trained) (n : Nat) (s : State) (u : State), s.stopped = false ∧ s.link l.val = 1 ∧ s.regF (Reg.LNK_CTRL l.val) 4 4 = 1 ∧
      s.useLeaf = some (n, u) ∧ x.fail ≠ 0) ∧
    (∃ (l : Fin 12) (s : State), s.stopped = false ∧ s.link l.val = 1 ∧ s.regF (Reg.LNK_CTRL l.val) 4 4 = 1 ∧ s.useLeaf = none) ∧
    (∃ (l : Fin 12) (s : State), s.stopped = false ∧ s.link l.val ≠ 1) ∧
    (∃ (l : Fin 12) (s : State), s.stopped = false ∧ s.link l.val = 1) ∧
    (∃ (l : Fin 12) (s : State), s.stopped = false ∧ s.link l.val = 3 ∧ (s.port l.val).queue = [] ∧ (s.port l.val).replay = [] ∧
      (s.port l.val).current = none) := by
  refine ⟨?_, ?_, ?_, ?_, ?_, ?_, ?_, ?_, ?_, ?_, ?_⟩
  · exact ⟨.fm 0, 11, 0, base, by decide +kernel, by decide +kernel, by decide +kernel⟩
  · exact ⟨.fm 0, 11, 0, base, by decide +kernel, by decide +kernel, by decide +kernel⟩
  · exact ⟨.fm 0, 11, 0, base, by decide +kernel, by decide +kernel, by decide +kernel⟩
  · exact ⟨.fm 0, 11, 6, base, by decide +kernel, by decide +kernel, by decide +kernel⟩
  · exact ⟨11, lnk 1 0, by decide +kernel, by decide +kernel, by decide +kernel⟩
  · exact ⟨11, ⟨1, 0, 0, 0⟩, 0, leafed 1, (leafed 1).useLeaf.elim base Prod.snd, by decide +kernel, by decide +kernel, by decide +kernel, by decide +kernel, by decide +kernel⟩
  · exact ⟨11, ⟨1, 0, 2, 0⟩, 0, leafed 1, (leafed 1).useLeaf.elim base Prod.snd, by decide +kernel, by decide +kernel, by decide +kernel, by decide +kernel, by decide +kernel⟩
  · exact ⟨11, lnk 1 1, by decide +kernel, by decide +kernel, by decide +kernel, by decide +kernel⟩
  · exact ⟨11, lnk 2 0, by decide +kernel, by decide +kernel⟩
  · exact ⟨11, lnk 1 0, by decide +kernel, by decide +kernel⟩
  · exact ⟨11, lnk 3 0, by decide +kernel, by decide +kernel, by decide +kernel, by decide +kernel, by decide +kernel⟩
/-- A MSG_SEND of n bytes to node 1 of this cell. -/
def msgCmd (n : Nat) (aux : List Nat) : Cmd := { run 0x0F with args := [0x400, 0, n, 0, 0, 0, 0], aux := aux, pins := [⟨0, 12, 0x5D, 0⟩] }
/-- A message packet of node 1 for partition 0. -/
def mpk (typ tkind : Nat) : Packet := { pk 0 6 0 with proto := 3, tkind := tkind, msgId := 9, body := [typ, 64, 0, 0, 0] }
/-- Partition 0 with its mailbox registered. -/
def mboxed : State := granted.modRing 0 65 (fun _ => ring0)
/-- A message of 64 bytes that is coming in. -/
def inb : Inbound := ⟨mpk 1 0, 0, 0, 2, 64, 0, 0, 0⟩

/-- What Obligations.Messages supposes can be met. -/
theorem witness_Messages :
    (∃ (p : Fin 32) (chute : Fin 64) (seq : Word) (c : Cmd) (s : State), s.stopped = false ∧ s.running p.val chute.val seq.toNat = some c ∧
      c.opcode = 0x0F ∧ c.aux = [] ∧ 0 < c.msgLen ∧ c.msgLen ≤ 2 ^ 20 ∧ (c.msgDst.1 ≠ s.cell ∨ s.nodeExists c.msgDst.2 = true)) ∧
    (∃ (p : Fin 32) (chute : Fin 64) (seq : Word) (c : Cmd) (s : State), s.stopped = false ∧ s.running p.val chute.val seq.toNat = some c ∧
      c.opcode = 0x0F ∧ c.aux = [] ∧ (c.msgLen = 0 ∨ 2 ^ 20 < c.msgLen)) ∧
    (∃ (p : Fin 32) (chute : Fin 64) (seq : Word) (c : Cmd) (s : State), s.stopped = false ∧ s.running p.val chute.val seq.toNat = some c ∧
      c.opcode = 0x0F ∧ c.aux ≠ []) ∧
    (∃ (k : Packet) (s : State), ∀ (u : State) (p : Nat) (n : Nat) (need : Nat) (pad : Nat) (v : State), u = s.receive k →
      p = wordAt k.body 4 / 2 ^ 16 → n = u.mboxLines p → need = 1 + (wordAt k.body 1 + 63) / 64 →
      pad = (if n < u.mboxNext p + need then n - u.mboxNext p else 0) →
      v = (if pad = 0 then u else u.mboxHeader p (u.mboxNext p) 0 0xFFFFFFFF 0) → s.stopped = false ∧ k.isMsg 1 = true ∧ k.tkind = 0 ∧
      u.mboxTakes p (wordAt k.body 4 % 2 ^ 16) = true ∧ pad + need ≤ (u.regN (Reg.PART_MBOX_HEAD p) + n - u.mboxNext p - 1) % n) ∧
    (∃ (k : Packet) (s : State), ∀ (u : State) (p : Nat) (n : Nat) (need : Nat) (pad : Nat), u = s.receive k → p = wordAt k.body 4 / 2 ^ 16 →
      n = u.mboxLines p → need = 1 + (wordAt k.body 1 + 63) / 64 → pad = (if n < u.mboxNext p + need then n - u.mboxNext p else 0) →
      s.stopped = false ∧ k.isMsg 1 = true ∧ k.tkind = 0 ∧ u.mboxTakes p (wordAt k.body 4 % 2 ^ 16) = true ∧
      (u.regN (Reg.PART_MBOX_HEAD p) + n - u.mboxNext p - 1) % n < pad + need) ∧
    (∃ (k : Packet) (s : State), ∀ (u : State), u = s.receive k → s.stopped = false ∧ k.isMsg 1 = true ∧ k.tkind = 0 ∧
      u.mboxTakes (wordAt k.body 4 / 2 ^ 16) (wordAt k.body 4 % 2 ^ 16) = false) ∧
    (∃ (k : Packet) (p : Nat) (c : Cmd) (s : State), ∀ (u : State), u = s.receive k → s.stopped = false ∧ k.isMsg 2 = true ∧ k.tkind ≠ 0 ∧
      u.msgOf k = some (p, c)) ∧
    (∃ (k : Packet) (p : Nat) (c : Cmd) (s : State), ∀ (u : State), u = s.receive k → s.stopped = false ∧ k.isMsg 3 = true ∧ k.tkind ≠ 0 ∧
      u.msgOf k = some (p, c)) ∧
    (∃ (k : Packet) (p : Nat) (c : Cmd) (s : State), ∀ (u : State), u = s.receive k → s.stopped = false ∧ k.isMsg 5 = true ∧ k.tkind ≠ 0 ∧
      u.msgOf k = some (p, c)) ∧
    (∃ (k : Packet) (m : Inbound) (s : State), ∀ (u : State) (n : Nat) (v : State), u = s.receive k → n = min 256 (m.len - wordAt k.body 1) →
      v = u.postBytes .device (((u.part m.part).ring mboxRing).range.base + 64 * (m.line + 1) + wordAt k.body 1) n (wordsVal (k.body.drop 8) % 2 ^ (8 * n)) false →
      s.stopped = false ∧ k.isMsg 4 = true ∧ k.tkind = 0 ∧ u.fab.inbound.find? (fun m => m.isOf k.srcCell k.src k.msgId) = some m) ∧
    
      (∃ (srcCell : Fin 1024) (srcNode : Fin 4096) (msgId : Word) (m : Inbound) (s : State), ∀ (a : Nat) (u : State), a = ((s.part m.part).ring mboxRing).range.base + 64 * m.line →
      u = (s.mboxHeader m.part m.line m.word m.len m.imm).mboxAdvance m → s.stopped = false ∧
      s.fab.inbound.find? (fun m => m.isOf srcCell.val srcNode.val msgId.toNat) = some m ∧
      s.fab.inbound.find? (fun y => decide (y.part = m.part)) = some m ∧ m.len ≤ m.got ∧ (linesOf a (64 * m.lines)).all s.lineQuiet = true ∧
      s.writable (a / 64) = true ∧ u.regF (Reg.PART_MBOX_SEM m.part) 31 31 = 0) := by
  refine ⟨?_, ?_, ?_, ?_, ?_, ?_, ?_, ?_, ?_, ?_, ?_⟩
  · exact ⟨0, 0, 0, msgCmd (2 ^ 20) [], one (msgCmd (2 ^ 20) []), by decide +kernel, by decide +kernel, by decide +kernel, by decide +kernel, by decide +kernel, by decide +kernel, by decide +kernel⟩
  · exact ⟨0, 0, 0, msgCmd 0 [], one (msgCmd 0 []), by decide +kernel, by decide +kernel, by decide +kernel, by decide +kernel, by decide +kernel⟩
  · exact ⟨0, 0, 0, msgCmd 64 [2, 9], one (msgCmd 64 [2, 9]), by decide +kernel, by decide +kernel, by decide +kernel, by decide +kernel⟩
  · exact by
      refine ⟨mpk 1 0, mboxed, ?_⟩
      rintro u p n need pad v rfl rfl rfl rfl rfl rfl
      exact ⟨by decide +kernel, by decide +kernel, by decide +kernel, by decide +kernel, by decide +kernel⟩
  · exact by
      refine ⟨{ mpk 1 0 with body := [1, 4096, 0, 0, 0] }, mboxed, ?_⟩
      rintro u p n need pad rfl rfl rfl rfl rfl
      exact ⟨by decide +kernel, by decide +kernel, by decide +kernel, by decide +kernel, by decide +kernel⟩
  · exact by
      refine ⟨{ mpk 1 0 with body := [1, 64, 0, 0, 1] }, mboxed, ?_⟩
      rintro u rfl
      exact ⟨by decide +kernel, by decide +kernel, by decide +kernel, by decide +kernel⟩
  · exact by
      refine ⟨mpk 2 1, 0, msgCmd 64 [1, 9], one (msgCmd 64 [1, 9]), ?_⟩
      rintro u rfl
      exact ⟨by decide +kernel, by decide +kernel, by decide +kernel, by decide +kernel⟩
  · exact by
      refine ⟨mpk 3 1, 0, msgCmd 64 [1, 9], one (msgCmd 64 [1, 9]), ?_⟩
      rintro u rfl
      exact ⟨by decide +kernel, by decide +kernel, by decide +kernel, by decide +kernel⟩
  · exact by
      refine ⟨mpk 5 1, 0, msgCmd 64 [2, 9], one (msgCmd 64 [2, 9]), ?_⟩
      rintro u rfl
      exact ⟨by decide +kernel, by decide +kernel, by decide +kernel, by decide +kernel⟩
  · exact by
      refine ⟨mpk 4 0, inb, mboxed.modFab (fun f => { f with inbound := [inb] }), ?_⟩
      rintro u n v rfl rfl rfl
      exact ⟨by decide +kernel, by decide +kernel, by decide +kernel, by decide +kernel⟩
  · exact by
      refine ⟨0, 1, 9, { inb with got := 64 }, mboxed.modFab (fun f => { f with inbound := [{ inb with got := 64 }] }), ?_⟩
      rintro a u rfl rfl
      exact ⟨by decide +kernel, by decide +kernel, by decide +kernel, by decide +kernel, by decide +kernel, by decide +kernel, by decide +kernel⟩
/-- A table descriptor of 64 rows of 16 elements on one or two nodes, HASHED or COLUMN, with a cache policy. -/
def tbl (shards col cache : Nat) : List Nat :=
  [2 ^ 31 + col * 2 ^ 25 + cache * 2 ^ 22, 64, shards - 1, 0, 0, 4, 64, 64, 0x10000, 4, 0x20000, 4, 0x60006, 0x30000, 4, 6, 0, 0, 0, 0, 0, 0, 0, 0, 1, 0, 512, 0,
    2048, 0, 0, 0]
/-- A row command with its table, its shard list (nodes 0 and 1) and its named addresses in page 0 of T0. -/
def rcmd (op : Nat) (t args aux : List Nat) : Cmd := { run op with args := args, aux := aux, inputs := [t, [0x10000]], pins := [⟨0, 12, 0x5D, 0⟩] }
/-- Partition 0, which owns page 0 of T0 and 256 MiB of T1, with a command. -/
def onRow (c : Cmd) : State := { (one c).setT0Owner 0 (some 0) with extents := [⟨0, ⟨0x400000000, 0x10000000⟩, .live⟩] }
/-- A lookup of one bag. -/
def look (aux : List Nat) : Cmd := rcmd 0x04 (tbl 1 0 0) [0, 1, 0, 0, 128, 0, 64] aux
/-- A contribution of one row, or of none. -/
def contr (n : Nat) (aux : List Nat) : Cmd := rcmd 0x05 (tbl 1 0 0) [0, 0, 0, 0, n, 0, 0] aux
/-- An APPLY. -/
def app (aux : List Nat) : Cmd := rcmd 0x05 (tbl 1 0 0) [0x400000, 0, 0, 0, 0, 0, 0] aux
/-- A record on its way to node 1. -/
def fwd (stage : Nat) : Forward := ⟨7, HomeReq.store .device 0x10000C01 1 0 false, 0, 0, 0, 0, 1, stage, 0⟩
/-- Partition 0 with such a record. -/
def forwarding (stage : Nat) : State := { granted with forwards := [fwd stage] }

/-- What Obligations.EmbeddingRows supposes can be met. -/
theorem witness_EmbeddingRows :
    (∃ (rq : Requester) (p : Fin 32) (v : Word) (s : State), ∀ (u : State), u = s.store (Reg.PART_ROW_DIR_CTRL p.val) (v ||| 1) → s.stopped = false ∧
      s.writes rq (Reg.PART_ROW_DIR_CTRL p.val) = true ∧ ((u.part p.val).ring dirRing).ready = false) ∧
    (∃ (p : Fin 32) (chute : Fin 64) (seq : Word) (c : Cmd) (s : State), s.stopped = false ∧ AtUnit s p.val chute.val seq.toNat 0x04 .row c ∧
      c.aux = [] ∧ s.converting p.val c = false ∧ c.table.ok = true ∧ c.lookupOk = true) ∧
    (∃ (p : Fin 32) (chute : Fin 64) (seq : Word) (c : Cmd) (s : State), s.stopped = false ∧ AtUnit s p.val chute.val seq.toNat 0x04 .row c ∧
      c.aux = [] ∧ s.converting p.val c = false ∧ c.table.ok = true ∧ c.lookupOk = false) ∧
    
      (∃ (p : Fin 32) (chute : Fin 64) (seq : Word) (errs : List (Nat × Bool)) (c : Cmd) (s : State) (u : State), ∀ (n : Nat) (d : Cmd), n = s.cribGenOf p.val c.tableNo + 1 →
      d = (if s.quietFor p.val c then { c with aux := setVal c.aux 2 n } else c) → s.stopped = false ∧
      AtUnit s p.val chute.val seq.toNat 0x04 .row c ∧ c.aux ≠ [] ∧ c.progress < c.arg 9 ∧
      Does (s.setAux p.val d d.progress d.aux) (Work.bag p.val d (decide (d.auxAt 2 = n)) errs) u) ∧
    (∃ (p : Fin 32) (chute : Fin 64) (seq : Word) (c : Cmd) (s : State), s.stopped = false ∧ AtUnit s p.val chute.val seq.toNat 0x04 .row c ∧
      c.aux ≠ [] ∧ c.arg 9 ≤ c.progress) ∧
    (∃ (p : Fin 32) (chute : Fin 64) (seq : Word) (c : Cmd) (s : State), s.stopped = false ∧ AtUnit s p.val chute.val seq.toNat 0x05 .row c ∧
      c.aux = [] ∧ nfld (c.arg 8) 23 22 = 0 ∧ s.converting p.val c = false ∧ c.table.ok = true ∧ c.table.column = false ∧ 0 < c.arg 12 ∧
      c.arg 12 ≤ 2 ^ 20) ∧
    (∃ (p : Fin 32) (chute : Fin 64) (seq : Word) (c : Cmd) (s : State), s.stopped = false ∧ AtUnit s p.val chute.val seq.toNat 0x05 .row c ∧
      c.aux ≠ [] ∧ nfld (c.arg 8) 23 22 = 0 ∧ c.progress < c.arg 12) ∧
    (∃ (p : Fin 32) (chute : Fin 64) (seq : Word) (c : Cmd) (s : State), s.stopped = false ∧ AtUnit s p.val chute.val seq.toNat 0x05 .row c ∧
      c.aux ≠ [] ∧ nfld (c.arg 8) 23 22 = 0 ∧ c.arg 12 ≤ c.progress) ∧
    (∃ (p : Fin 32) (chute : Fin 64) (seq : Word) (c : Cmd) (s : State), s.stopped = false ∧ AtUnit s p.val chute.val seq.toNat 0x05 .row c ∧
      c.aux = [] ∧ nfld (c.arg 8) 23 22 ≠ 1 ∧ s.converting p.val c = false ∧ c.table.ok = true ∧ c.table.column = true) ∧
    (∃ (p : Fin 32) (chute : Fin 64) (seq : Word) (c : Cmd) (s : State), s.stopped = false ∧ AtUnit s p.val chute.val seq.toNat 0x05 .row c ∧
      c.aux = [] ∧ nfld (c.arg 8) 23 22 = 1 ∧ s.converting p.val c = false ∧ c.table.ok = true) ∧
    (∃ (p : Fin 32) (chute : Fin 64) (seq : Word) (c : Cmd) (s : State), s.stopped = false ∧ AtUnit s p.val chute.val seq.toNat 0x05 .row c ∧
      c.aux ≠ [] ∧ nfld (c.arg 8) 23 22 = 1) ∧
    (∃ (p : Fin 32) (chute : Fin 64) (seq : Word) (c : Cmd) (s : State), s.stopped = false ∧ AtUnit s p.val chute.val seq.toNat 0x05 .row c ∧
      c.aux ≠ [] ∧ nfld (c.arg 8) 23 22 = 1 ∧ c.auxAt 2 = 5) ∧
    (∃ (h : Fin 2) (s : State), ∀ (n : Nat), n = 1024 * max 1 (s.regF (Reg.ROW_CRIB_CTRL h.val) 15 0) → s.stopped = false ∧ n ≤ (s.crib h.val).incs) ∧
    (∃ (id : Nat) (f : Forward) (s : State), ∀ (d : Table), d = s.tableNow f.part f.table → s.stopped = false ∧
      s.forwards.find? (fun f => decide (f.id = id)) = some f ∧ s.fwdWaits id = false ∧ f.stage = 0 ∧ s.fab.arrivals = []) ∧
    (∃ (id : Nat) (f : Forward) (s : State), s.stopped = false ∧ s.forwards.find? (fun f => decide (f.id = id)) = some f ∧ s.fwdWaits id = false ∧
      ((s.fab.arrivals.filter (fun a => decide (a.waiter = .fwd id))).any (fun a => decide (a.status ≠ 0))) = true) ∧
    (∃ (id : Nat) (f : Forward) (s : State), s.stopped = false ∧ s.forwards.find? (fun f => decide (f.id = id)) = some f ∧ s.fwdWaits id = false ∧
      f.stage = 2 ∧ s.fab.arrivals = []) := by
  refine ⟨?_, ?_, ?_, ?_, ?_, ?_, ?_, ?_, ?_, ?_, ?_, ?_, ?_, ?_, ?_, ?_⟩
  · exact by
      refine ⟨.ld 0, 0, 0, granted, ?_⟩
      rintro u rfl
      exact ⟨by decide +kernel, by decide +kernel, by decide +kernel⟩
  · exact ⟨0, 0, 0, look [], onRow (look []), by decide +kernel, by constructor <;> decide +kernel, by decide +kernel, by decide +kernel, by decide +kernel, by decide +kernel⟩
  · exact ⟨0, 0, 0, { look [] with args := [0, 0, 0, 0, 128, 0, 64] }, onRow { look [] with args := [0, 0, 0, 0, 128, 0, 64] }, by decide +kernel, by constructor <;> decide +kernel, by decide +kernel, by decide +kernel, by decide +kernel, by decide +kernel⟩
  · exact by
      refine ⟨0, 0, 0, [], look [0, 0, 1], onRow (look [0, 0, 1]), ((onRow (look [0, 0, 1])).setAux 0 (look [0, 0, 1]) 0 [0, 0, 1]).work (Work.bag 0 (look [0, 0, 1]) true []), ?_⟩
      rintro n d rfl rfl
      exact ⟨by decide +kernel, by constructor <;> decide +kernel, by decide +kernel, by decide +kernel, by exact does_work (by decide +kernel)⟩
  · exact ⟨0, 0, 0, { look [0, 0, 1] with progress := 1 }, onRow { look [0, 0, 1] with progress := 1 }, by decide +kernel, by constructor <;> decide +kernel, by decide +kernel, by decide +kernel⟩
  · exact ⟨0, 0, 0, contr (2 ^ 20) [], onRow (contr (2 ^ 20) []), by decide +kernel, by constructor <;> decide +kernel, by decide +kernel, by decide +kernel, by decide +kernel, by decide +kernel, by decide +kernel, by decide +kernel, by decide +kernel⟩
  · exact ⟨0, 0, 0, contr 1 [0, 0, 0, 0, 0, 0], onRow (contr 1 [0, 0, 0, 0, 0, 0]), by decide +kernel, by constructor <;> decide +kernel, by decide +kernel, by decide +kernel, by decide +kernel⟩
  · exact ⟨0, 0, 0, contr 0 [0, 0, 0, 0, 0, 0], onRow (contr 0 [0, 0, 0, 0, 0, 0]), by decide +kernel, by constructor <;> decide +kernel, by decide +kernel, by decide +kernel, by decide +kernel⟩
  · exact ⟨0, 0, 0, { contr 1 [] with inputs := [tbl 1 1 0] }, onRow { contr 1 [] with inputs := [tbl 1 1 0] }, by decide +kernel, by constructor <;> decide +kernel, by decide +kernel, by decide +kernel, by decide +kernel, by decide +kernel, by decide +kernel⟩
  · exact ⟨0, 0, 0, app [], onRow (app []), by decide +kernel, by constructor <;> decide +kernel, by decide +kernel, by decide +kernel, by decide +kernel, by decide +kernel⟩
  · exact ⟨0, 0, 0, app [0, 0, 1, 0], onRow (app [0, 0, 1, 0]), by decide +kernel, by constructor <;> decide +kernel, by decide +kernel, by decide +kernel⟩
  · exact ⟨0, 0, 0, app [0, 0, 5, 0], onRow (app [0, 0, 5, 0]), by decide +kernel, by constructor <;> decide +kernel, by decide +kernel, by decide +kernel, by decide +kernel⟩
  · exact by
      refine ⟨1, base.modCrib 1 (fun x => { x with incs := 2 ^ 27 }), ?_⟩
      rintro n rfl
      exact ⟨by decide +kernel, by decide +kernel⟩
  · exact by
      refine ⟨7, fwd 0, forwarding 0, ?_⟩
      rintro d rfl
      exact ⟨by decide +kernel, by decide +kernel, by decide +kernel, by decide +kernel, by decide +kernel⟩
  · exact ⟨7, fwd 0, (forwarding 0).modFab (fun f => { f with arrivals := [⟨.fwd 7, 0, 0, false, 3⟩] }), by decide +kernel, by decide +kernel, by decide +kernel, by decide +kernel⟩
  · exact ⟨7, fwd 2, forwarding 2, by decide +kernel, by decide +kernel, by decide +kernel, by decide +kernel, by decide +kernel⟩
/-- A conversion to HASHED or COLUMN. -/
def conv (col : Nat) (aux : List Nat) : Cmd := rcmd 0x06 (tbl 1 0 0) [col * 2 ^ 23, 0, 5, 64, 0, 0, 0] aux
/-- A refresh of the hot set of table 0. -/
def hot (cache mode : Nat) (aux : List Nat) : Cmd := rcmd 0x11 (tbl 1 0 cache) [mode, 0, 0, 0, 0, 0, 0] aux
/-- A migration of row 0 to migrant slot 64 of node 1. -/
def mig (aux : List Nat) : Cmd := rcmd 0x12 (tbl 2 0 0) [0, 0, 1, 64, 0, 0, 0] aux
/-- Partition 0 with table 255 in its directory and a DEPARTED entry that has lapsed. -/
def departed : State :=
  ((granted.modRing 0 67 (fun _ => ring0)).t1Write 0x400007F80 128 (wordsNum (tbl 2 0 0) 0 32)).t1Write (0x400020000 + 16 * 63) 16
    (2 ^ 63)

/-- What Obligations.RowsAcrossNodes supposes can be met. -/
theorem witness_RowsAcrossNodes :
    (∃ (p : Fin 32) (chute : Fin 64) (seq : Word) (c : Cmd) (s : State), s.stopped = false ∧ AtUnit s p.val chute.val seq.toNat 0x06 .row c ∧
      c.aux = [] ∧ s.converting p.val c = false ∧ c.table.ok = true ∧ c.newTable.column = c.table.column) ∧
    (∃ (p : Fin 32) (chute : Fin 64) (seq : Word) (c : Cmd) (s : State), s.stopped = false ∧ AtUnit s p.val chute.val seq.toNat 0x06 .row c ∧
      c.aux = [] ∧ s.converting p.val c = false ∧ c.table.ok = true ∧ c.newTable.column ≠ c.table.column ∧ c.newTable.ok = true) ∧
    (∃ (p : Fin 32) (chute : Fin 64) (seq : Word) (c : Cmd) (s : State), s.stopped = false ∧ AtUnit s p.val chute.val seq.toNat 0x06 .row c ∧
      c.aux ≠ [] ∧ c.auxAt 2 = 3) ∧
    (∃ (p : Fin 32) (chute : Fin 64) (seq : Word) (c : Cmd) (s : State) (u : State), s.stopped = false ∧
      AtUnit s p.val chute.val seq.toNat 0x06 .row c ∧ c.aux ≠ [] ∧ c.auxAt 2 ≠ 3 ∧ (c.auxAt 2 ≠ 0 ∨ c.progress < c.newSlots) ∧
      Does s (Work.convert p.val c (s.shardPlace c) (s.node * 2 ^ 40) ((s.part p.val).ring dirRing).range.base) u) ∧
    (∃ (p : Fin 32) (chute : Fin 64) (seq : Word) (c : Cmd) (s : State), s.stopped = false ∧ AtUnit s p.val chute.val seq.toNat 0x11 .row c ∧
      c.aux = [] ∧ s.converting p.val c = false ∧ c.table.ok = true ∧ c.table.column = false ∧ c.table.cache = 1 ∧
      (c.arg 8 % 4 = 1 ∨ c.arg 8 % 4 = 2)) ∧
    (∃ (p : Fin 32) (chute : Fin 64) (seq : Word) (c : Cmd) (s : State) (u : State), s.stopped = false ∧
      AtUnit s p.val chute.val seq.toNat 0x11 .row c ∧ c.aux ≠ [] ∧ c.progress < c.table.hotCount ∧ c.unacked = 0 ∧
      Does s (Work.refresh p.val c) u) ∧
    (∃ (p : Fin 32) (chute : Fin 64) (seq : Word) (c : Cmd) (s : State), s.stopped = false ∧ AtUnit s p.val chute.val seq.toNat 0x11 .row c ∧
      c.aux ≠ [] ∧ c.table.hotCount ≤ c.progress) ∧
    (∃ (p : Fin 32) (chute : Fin 64) (seq : Word) (c : Cmd) (s : State) (u : State), s.stopped = false ∧
      AtUnit s p.val chute.val seq.toNat 0x12 .row c ∧ c.aux = [] ∧ s.converting p.val c = false ∧ c.table.ok = true ∧
      Does s (Work.migrateStart p.val c) u) ∧
    (∃ (p : Fin 32) (chute : Fin 64) (seq : Word) (c : Cmd) (s : State), s.stopped = false ∧ AtUnit s p.val chute.val seq.toNat 0x12 .row c ∧
      c.aux ≠ [] ∧ c.auxAt 2 = 1) ∧
    (∃ (p : Fin 32) (chute : Fin 64) (seq : Word) (c : Cmd) (s : State) (u : State) (v : State) (w : State), s.stopped = false ∧
      AtUnit s p.val chute.val seq.toNat 0x12 .row c ∧ c.aux ≠ [] ∧ c.auxAt 2 = 4 ∧ (c.deadline = 0 ∨ s.lcc ≤ c.deadline) ∧
      Does s (Work.settled c) u ∧ Work.arenasQuiet p.val c (s.node * 2 ^ 40) u = .ok (true, v) ∧ v.applying p.val c = false ∧
      Does v (Work.next p.val c 0 (setVal (setVal c.aux 2 6) 5 0)) w) ∧
    (∃ (p : Fin 32) (chute : Fin 64) (seq : Word) (c : Cmd) (s : State), s.stopped = false ∧ s.cmd p.val chute.val seq.toNat = some c ∧
      c.opcode = 0x12 ∧ c.phase = .running ∧ c.aux ≠ [] ∧ 2 ≤ c.auxAt 2 ∧ c.auxAt 2 < 6 ∧ c.mustStop = true) ∧
    (∃ (p : Fin 32) (chute : Fin 64) (seq : Word) (c : Cmd) (s : State) (u : State), s.stopped = false ∧ s.cmd p.val chute.val seq.toNat = some c ∧
      c.opcode = 0x12 ∧ c.phase = .running ∧ c.auxAt 2 = 6 ∧ c.migNode ≠ c.hashHome c.migRow ∧
      Work.arenasQuiet p.val c (s.node * 2 ^ 40) s = .ok (true, u)) ∧
    (∃ (p : Fin 32) (chute : Fin 64) (seq : Word) (c : Cmd) (v : Nat) (s : State) (u : State), s.stopped = false ∧
      s.cmd p.val chute.val seq.toNat = some c ∧ c.opcode = 0x12 ∧ c.phase = .running ∧ c.auxAt 2 = 9 ∧ c.unacked = 0 ∧
      (s.count (Reg.ROW_MIGRATED c.runUnit) 1).draw = (v, u)) ∧
    (∃ (p : Fin 32) (n : Fin 256) (i : Fin 1048576) (s : State), ∀ (d : Table) (a : Nat), d = s.tableNow p.val n.val → a = d.redirOff + 16 * i.val →
      s.stopped = false ∧ ((s.part p.val).ring dirRing).ready = true ∧ d.ok = true ∧ i.val < 2 ^ d.redirLog2 ∧
      nfld (wordAt (s.t1Words a 4) 1) 31 30 = 2 ∧ serialLe (wordAt (s.t1Words a 4) 3) (s.lcc % 2 ^ 32) = true) := by
  refine ⟨?_, ?_, ?_, ?_, ?_, ?_, ?_, ?_, ?_, ?_, ?_, ?_, ?_, ?_⟩
  · exact ⟨0, 0, 0, conv 0 [], onRow (conv 0 []), by decide +kernel, by constructor <;> decide +kernel, by decide +kernel, by decide +kernel, by decide +kernel, by decide +kernel⟩
  · exact ⟨0, 0, 0, conv 1 [], onRow (conv 1 []), by decide +kernel, by constructor <;> decide +kernel, by decide +kernel, by decide +kernel, by decide +kernel, by decide +kernel, by decide +kernel⟩
  · exact ⟨0, 0, 0, conv 1 [64, 0, 3], onRow (conv 1 [64, 0, 3]), by decide +kernel, by constructor <;> decide +kernel, by decide +kernel, by decide +kernel⟩
  · exact ⟨0, 0, 0, conv 1 [64, 0, 2], onRow (conv 1 [64, 0, 2]), (onRow (conv 1 [64, 0, 2])).work (Work.convert 0 (conv 1 [64, 0, 2]) ((onRow (conv 1 [64, 0, 2])).shardPlace (conv 1 [64, 0, 2])) ((onRow (conv 1 [64, 0, 2])).node * 2 ^ 40) (((onRow (conv 1 [64, 0, 2])).part 0).ring dirRing).range.base), by decide +kernel, by constructor <;> decide +kernel, by decide +kernel, by decide +kernel, by decide +kernel, by exact does_work (by decide +kernel)⟩
  · exact ⟨0, 0, 0, hot 1 2 [], onRow (hot 1 2 []), by decide +kernel, by constructor <;> decide +kernel, by decide +kernel, by decide +kernel, by decide +kernel, by decide +kernel, by decide +kernel, by decide +kernel⟩
  · exact ⟨0, 0, 0, hot 2 0 [0, 0, 0, 0], onRow (hot 2 0 [0, 0, 0, 0]), (onRow (hot 2 0 [0, 0, 0, 0])).work (Work.refresh 0 (hot 2 0 [0, 0, 0, 0])), by decide +kernel, by constructor <;> decide +kernel, by decide +kernel, by decide +kernel, by decide +kernel, by exact does_work (by decide +kernel)⟩
  · exact ⟨0, 0, 0, { hot 2 0 [0, 1, 0, 0] with progress := 1 }, onRow { hot 2 0 [0, 1, 0, 0] with progress := 1 }, by decide +kernel, by constructor <;> decide +kernel, by decide +kernel, by decide +kernel⟩
  · exact ⟨0, 0, 0, mig [], onRow (mig []), (onRow (mig [])).work (Work.migrateStart 0 (mig [])), by decide +kernel, by constructor <;> decide +kernel, by decide +kernel, by decide +kernel, by decide +kernel, by exact does_work (by decide +kernel)⟩
  · exact ⟨0, 0, 0, mig [0x400020000, 0, 1, 0, 0, 0, 0, 0], onRow (mig [0x400020000, 0, 1, 0, 0, 0, 0, 0]), by decide +kernel, by constructor <;> decide +kernel, by decide +kernel, by decide +kernel⟩
  · exact ⟨0, 0, 0, (mig [0x400020000, 0, 4, 0, 0, 0, 0, 0]), (onRow (mig [0x400020000, 0, 4, 0, 0, 0, 0, 0])), ((onRow (mig [0x400020000, 0, 4, 0, 0, 0, 0, 0])).work (Work.settled (mig [0x400020000, 0, 4, 0, 0, 0, 0, 0]))), (after ((onRow (mig [0x400020000, 0, 4, 0, 0, 0, 0, 0])).work (Work.settled (mig [0x400020000, 0, 4, 0, 0, 0, 0, 0]))) (Work.arenasQuiet 0 (mig [0x400020000, 0, 4, 0, 0, 0, 0, 0]) ((onRow (mig [0x400020000, 0, 4, 0, 0, 0, 0, 0])).node * 2 ^ 40))), (after ((onRow (mig [0x400020000, 0, 4, 0, 0, 0, 0, 0])).work (Work.settled (mig [0x400020000, 0, 4, 0, 0, 0, 0, 0]))) (Work.arenasQuiet 0 (mig [0x400020000, 0, 4, 0, 0, 0, 0, 0]) ((onRow (mig [0x400020000, 0, 4, 0, 0, 0, 0, 0])).node * 2 ^ 40))).work (Work.next 0 (mig [0x400020000, 0, 4, 0, 0, 0, 0, 0]) 0 (setVal (setVal (mig [0x400020000, 0, 4, 0, 0, 0, 0, 0]).aux 2 6) 5 0)), by decide +kernel, by constructor <;> decide +kernel, by decide +kernel, by decide +kernel, by decide +kernel, by exact does_work (by decide +kernel), by exact agrees_true (by decide +kernel), by decide +kernel, by exact does_work (by decide +kernel)⟩
  · exact ⟨0, 0, 0, { mig [0x400020000, 0, 5, 0, 0, 0, 0, 0] with aborting := true }, onRow { mig [0x400020000, 0, 5, 0, 0, 0, 0, 0] with aborting := true }, by decide +kernel, by decide +kernel, by decide +kernel, by decide +kernel, by decide +kernel, by decide +kernel, by decide +kernel, by decide +kernel⟩
  · exact ⟨0, 0, 0, mig [0x400020000, 0, 6, 0, 0, 0, 0, 0], onRow (mig [0x400020000, 0, 6, 0, 0, 0, 0, 0]), after (onRow (mig [0x400020000, 0, 6, 0, 0, 0, 0, 0])) (Work.arenasQuiet 0 (mig [0x400020000, 0, 6, 0, 0, 0, 0, 0]) ((onRow (mig [0x400020000, 0, 6, 0, 0, 0, 0, 0])).node * 2 ^ 40)), by decide +kernel, by decide +kernel, by decide +kernel, by decide +kernel, by decide +kernel, by decide +kernel, by exact agrees_true (by decide +kernel)⟩
  · exact ⟨0, 0, 0, mig [0x400020000, 0, 9, 0, 0, 0, 0, 0], ((onRow (mig [0x400020000, 0, 9, 0, 0, 0, 0, 0])).count (Reg.ROW_MIGRATED (mig [0x400020000, 0, 9, 0, 0, 0, 0, 0]).runUnit) 1).draw.1, onRow (mig [0x400020000, 0, 9, 0, 0, 0, 0, 0]), ((onRow (mig [0x400020000, 0, 9, 0, 0, 0, 0, 0])).count (Reg.ROW_MIGRATED (mig [0x400020000, 0, 9, 0, 0, 0, 0, 0]).runUnit) 1).draw.2, by decide +kernel, by decide +kernel, by decide +kernel, by decide +kernel, by decide +kernel, by decide +kernel, by exact pair_eq rfl⟩
  · exact by
      refine ⟨0, 255, 63, { departed with lcc := 2 ^ 31 - 1 }, ?_⟩
      rintro d a rfl rfl
      exact ⟨by decide +kernel, by decide +kernel, by decide +kernel, by decide +kernel, by decide +kernel, by decide +kernel⟩
/-- An index of 64 coarse partitions and 64-element FP16 vectors. -/
def idx : VecIndex :=
  { dirAt := 0x400000000,
    words := [2 ^ 31, 64, 0x80000, 4, 0x100000, 4, 0x200000, 4, 0x300000, 4, 16, 0, 0, 0x800000, 4, 0x900000, 4, 10, 0, 0],
    pub := 3, floor := 1, nextUnused := 0, freeHead := noBlock, freeCount := 0, oldest := 0, openEpoch := 4, closed := [], unloadAt := none,
    admitted := 0, freed := [], seals := [], holds := [], locks := [] }
/-- A command on index 0, its named addresses in page 0 of T0. -/
def wcmd (op : Nat) (args aux : List Nat) : Cmd := { run op with args := args, aux := aux, pins := [⟨0, 12, 0x5D, 0⟩] }
/-- Partition 0 with an index loaded, and a command. -/
def onWin (x : VecIndex) (c : Cmd) : State := { onRow c with indexes := [(0, some x)] }
/-- A search of one query. -/
def srch (aux : List Nat) : Cmd := wcmd 0x07 [0, 1, 0, 0, 2048, 0, 1024] aux
/-- An insert or a delete of n items. -/
def items (op n : Nat) (aux : List Nat) : Cmd := wcmd op [0, n, 0, 0, 0, 0, 0] aux
/-- A compaction of the whole index at an epoch. -/
def cmpct (e : Nat) (aux : List Nat) : Cmd := wcmd 0x0A [0, e, 0, 64, 0, 0, 0] aux
/-- A vector block of the index on its way to the Loft. -/
def seal0 (next : Nat) : Seal := ⟨0, 3, 0, 0, 0, next⟩
/-- What answers its first Loft block. -/
def sealed0 : Arrival := ⟨.cmd 0 0 0, loftWriteKey (idx.vecAt 3 0), 0, false, 0⟩

/-- What Obligations.Indexes supposes can be met. -/
theorem witness_Indexes :
    (∃ (rq : Requester) (p : Fin 32) (v : Word) (s : State), ∀ (u : State), u = s.store (Reg.PART_WIN_DIR_CTRL p.val) v → s.stopped = false ∧
      s.writes rq (Reg.PART_WIN_DIR_CTRL p.val) = true ∧ bitOf v 0 = true ∧ ((u.part p.val).ring winRing).ready = false) ∧
    (∃ (rq : Requester) (p : Fin 32) (v : Word) (s : State), ∀ (u : State), u = s.store (Reg.PART_WIN_DIR_CTRL p.val) v → s.stopped = false ∧
      s.writes rq (Reg.PART_WIN_DIR_CTRL p.val) = true ∧ bitOf v 0 = false) ∧
    (∃ (rq : Requester) (p : Fin 32) (s : State), s.stopped = false ∧ s.writes rq (Reg.PART_WIN_IDX_CTRL p.val) = true ∧
      s.regF (Reg.PART_WIN_IDX_CTRL p.val) 31 31 = 0) ∧
    (∃ (rq : Requester) (p : Fin 32) (v : Word) (x : VecIndex) (s : State), ∀ (u : State), u = s.store (Reg.PART_WIN_IDX_CTRL p.val) v →
      s.stopped = false ∧ s.writes rq (Reg.PART_WIN_IDX_CTRL p.val) = true ∧ s.regF (Reg.PART_WIN_IDX_CTRL p.val) 31 31 = 0 ∧
      u.index p.val (fld v 5 0) = some x) ∧
    (∃ (rq : Requester) (p : Fin 32) (v : Word) (s : State), ∀ (u : State), u = s.store (Reg.PART_WIN_IDX_CTRL p.val) v → s.stopped = false ∧
      s.writes rq (Reg.PART_WIN_IDX_CTRL p.val) = true ∧ s.regF (Reg.PART_WIN_IDX_CTRL p.val) 31 31 = 0 ∧ u.index p.val (fld v 5 0) = none) ∧
    (∃ (p : Fin 32) (i : Fin 64) (x : VecIndex) (n : Nat) (s : State), s.stopped = false ∧ s.index p.val i.val = some x ∧ x.unloadAt = some n ∧
      s.indexUsers p.val i.val n = false) ∧
    (∃ (p : Fin 32) (chute : Fin 64) (seq : Word) (c : Cmd) (x : VecIndex) (s : State), s.stopped = false ∧
      AtUnit s p.val chute.val seq.toNat 0x07 .win c ∧ s.indexOf p.val c = some x ∧ c.aux = [] ∧ c.arg 9 ≠ 0 ∧ c.arg 9 ≤ 65536 ∧
      c.arg 14 % 64 = 0) ∧
    (∃ (p : Fin 32) (chute : Fin 64) (seq : Word) (c : Cmd) (x : VecIndex) (s : State) (u : State), s.stopped = false ∧
      AtUnit s p.val chute.val seq.toNat 0x07 .win c ∧ s.indexOf p.val c = some x ∧ c.aux ≠ [] ∧ c.progress < c.arg 9 ∧
      Does s (Work.searchQuery p.val c x) u) ∧
    (∃ (p : Fin 32) (chute : Fin 64) (seq : Word) (c : Cmd) (x : VecIndex) (s : State), s.stopped = false ∧
      AtUnit s p.val chute.val seq.toNat 0x07 .win c ∧ s.indexOf p.val c = some x ∧ c.aux ≠ [] ∧ c.arg 9 ≤ c.progress) ∧
    (∃ (p : Fin 32) (chute : Fin 64) (seq : Word) (c : Cmd) (x : VecIndex) (s : State), s.stopped = false ∧
      AtUnit s p.val chute.val seq.toNat 0x07 .win c ∧ s.indexOf p.val c = some x ∧ c.aux ≠ [] ∧ c.progress < c.arg 9 ∧ c.auxAt 2 = 1) ∧
    (∃ (i : Fin 32 → Fin 64 → Word →
      Instr) (op : Nat) (p : Fin 32) (chute : Fin 64) (seq : Word) (c : Cmd) (x : VecIndex) (s : State), s.stopped = false ∧
      (i, op) ∈ [(Instr.indexInsert, 0x08), (Instr.indexDelete, 0x09)] ∧ AtUnit s p.val chute.val seq.toNat op .win c ∧
      s.indexOf p.val c = some x ∧ c.aux = [] ∧ c.itemsOk = true) ∧
    (∃ (i : Fin 32 → Fin 64 → Word → Instr) (op : Nat) (w : Nat → Cmd → VecIndex →
      Work Unit) (p : Fin 32) (chute : Fin 64) (seq : Word) (c : Cmd) (x : VecIndex) (s : State) (u : State), s.stopped = false ∧
      (i, op, w) ∈ [(Instr.indexInsert, 0x08, Work.insertBegin), (Instr.indexDelete, 0x09, Work.deleteItem)] ∧
      AtUnit s p.val chute.val seq.toNat op .win c ∧ s.indexOf p.val c = some x ∧ c.aux ≠ [] ∧ c.progress < c.arg 9 ∧ c.auxAt 2 = 0 ∧
      c.auxAt 6 = 0 ∧ c.unacked = 0 ∧ Does s (w p.val c x) u) ∧
    (∃ (i : Fin 32 → Fin 64 → Word →
      Instr) (op : Nat) (p : Fin 32) (chute : Fin 64) (seq : Word) (c : Cmd) (x : VecIndex) (s : State), s.stopped = false ∧
      (i, op) ∈ [(Instr.indexInsert, 0x08), (Instr.indexDelete, 0x09)] ∧ AtUnit s p.val chute.val seq.toNat op .win c ∧
      s.indexOf p.val c = some x ∧ c.aux ≠ [] ∧ c.arg 9 ≤ c.progress ∧ c.auxAt 2 = 0 ∧ c.auxAt 6 = 0 ∧ nfld (c.arg 8) 25 25 = 0 ∧ c.unacked = 0 ∧
      x.sealing c = false) ∧
    (∃ (p : Fin 32) (chute : Fin 64) (seq : Word) (c : Cmd) (x : VecIndex) (s : State), ∀ (n : Nat), n = nfld (c.arg 11) 16 0 → s.stopped = false ∧
      AtUnit s p.val chute.val seq.toNat 0x0A .win c ∧ s.indexOf p.val c = some x ∧ c.aux = [] ∧ epochOlder (c.arg 9) x.floor = false ∧
      epochOlder x.pub (c.arg 9) = false ∧ 0 < n ∧ n ≤ 65536 ∧ c.arg 10 % 65536 + n ≤ x.cparts) ∧
    (∃ (p : Fin 32) (chute : Fin 64) (seq : Word) (c : Cmd) (x : VecIndex) (s : State), s.stopped = false ∧
      AtUnit s p.val chute.val seq.toNat 0x0A .win c ∧ s.indexOf p.val c = some x ∧ c.aux = [] ∧ epochOlder (c.arg 9) x.floor = true) ∧
    (∃ (p : Fin 32) (chute : Fin 64) (seq : Word) (c : Cmd) (x : VecIndex) (s : State) (u : State), s.stopped = false ∧
      AtUnit s p.val chute.val seq.toNat 0x0A .win c ∧ s.indexOf p.val c = some x ∧ c.aux ≠ [] ∧ c.auxAt 6 = 0 ∧
      s.noOlderQuery p.val c.indexNo (c.auxAt 1) = true ∧ c.auxAt 2 = 0 ∧ c.progress < nfld (c.arg 11) 16 0 ∧
      Does s (Work.compactBegin p.val c x) u) ∧
    
      (∃ (p : Fin 32) (i : Fin 64) (x : VecIndex) (e : Nat) (chute : Nat) (seq : Nat) (l : List (Nat × Nat × Nat)) (c : Cmd) (s : State), ∀ (u : State), u = s.setIndex p.val i.val (some { x with closed := l }) →
      s.stopped = false ∧ s.index p.val i.val = some x ∧ x.closed = (e, chute, seq) :: l ∧ s.stampedRunning p.val i.val e x = false ∧
      u.cmd p.val chute seq = some c ∧ (e + 2 ^ 32 - x.oldest) % 2 ^ 32 < 2 ^ 30) ∧
    
      (∃ (p : Fin 32) (i : Fin 64) (x : VecIndex) (e : Nat) (chute : Nat) (seq : Nat) (l : List (Nat × Nat × Nat)) (c : Cmd) (s : State), ∀ (u : State), u = s.setIndex p.val i.val (some { x with closed := l }) →
      s.stopped = false ∧ s.index p.val i.val = some x ∧ x.closed = (e, chute, seq) :: l ∧ s.stampedRunning p.val i.val e x = false ∧
      u.cmd p.val chute seq = some c ∧ 2 ^ 30 ≤ (e + 2 ^ 32 - x.oldest) % 2 ^ 32) ∧
    (∃ (p : Fin 32) (i : Fin 64) (block : Word) (x : VecIndex) (z : Seal) (c : Cmd) (y : Arrival) (s : State) (u : State), s.stopped = false ∧
      s.index p.val i.val = some x ∧ x.seals.find? (fun z => decide (z.block = block.toNat)) = some z ∧ s.cmd p.val z.chute z.cmd = some c ∧
      z.next * loftBytes < x.vbytes * 256 ∧
      s.takeArrival (.cmd p.val c.chute c.seq) (loftWriteKey (x.vecAt z.block 0 + z.next * loftBytes)) = some (y, u) ∧ y.status = 0) ∧
    
      (∃ (p : Fin 32) (i : Fin 64) (block : Word) (x : VecIndex) (z : Seal) (c : Cmd) (s : State), ∀ (u : State), u = s.storeAll (c.agent p.val) (2 ^ 31 + 256) false [(s.node * 2 ^ 40 + (x.blockAt z.block + 4), 4)] →
      s.stopped = false ∧ s.index p.val i.val = some x ∧ x.seals.find? (fun z => decide (z.block = block.toNat)) = some z ∧
      s.cmd p.val z.chute z.cmd = some c ∧ x.vbytes * 256 ≤ z.next * loftBytes) ∧
    (∃ (p : Fin 32) (chute : Fin 64) (seq : Word) (c : Cmd) (x : VecIndex) (s : State) (u : State), s.stopped = false ∧
      s.cmd p.val chute.val seq.toNat = some c ∧ c.auxAt 6 = 1 ∧ c.phase = .running ∧ s.index p.val c.indexNo = some x ∧ c.opcode = 0x08 ∧
      Does s (Work.insertBegin p.val { c with aux := setVal c.aux 6 0 } x) u) := by
  refine ⟨?_, ?_, ?_, ?_, ?_, ?_, ?_, ?_, ?_, ?_, ?_, ?_, ?_, ?_, ?_, ?_, ?_, ?_, ?_, ?_, ?_⟩
  · exact by
      refine ⟨.ld 0, 0, 1, granted, ?_⟩
      rintro u rfl
      exact ⟨by decide +kernel, by decide +kernel, by decide +kernel, by decide +kernel⟩
  · exact by
      refine ⟨.ld 0, 0, 0, onWin idx (srch []), ?_⟩
      rintro u rfl
      exact ⟨by decide +kernel, by decide +kernel, by decide +kernel⟩
  · exact ⟨.ld 0, 0, granted, by decide +kernel, by decide +kernel, by decide +kernel⟩
  · exact by
      refine ⟨.ld 0, 0, 0, idx, onWin idx (srch []), ?_⟩
      rintro u rfl
      exact ⟨by decide +kernel, by decide +kernel, by decide +kernel, by decide +kernel⟩
  · exact by
      refine ⟨.ld 0, 0, 63, granted, ?_⟩
      rintro u rfl
      exact ⟨by decide +kernel, by decide +kernel, by decide +kernel, by decide +kernel⟩
  · exact ⟨0, 0, { idx with unloadAt := some 7 }, 7, onWin { idx with unloadAt := some 7 } (run 0x01), by decide +kernel, by decide +kernel, by decide +kernel, by decide +kernel⟩
  · exact ⟨0, 0, 0, srch [], idx, onWin idx (srch []), by decide +kernel, by constructor <;> decide +kernel, by decide +kernel, by decide +kernel, by decide +kernel, by decide +kernel, by decide +kernel⟩
  · exact ⟨0, 0, 0, srch [0, 0, 0, 0, 0, 0], idx, onWin idx (srch [0, 0, 0, 0, 0, 0]), (onWin idx (srch [0, 0, 0, 0, 0, 0])).work (Work.searchQuery 0 (srch [0, 0, 0, 0, 0, 0]) idx), by decide +kernel, by constructor <;> decide +kernel, by decide +kernel, by decide +kernel, by decide +kernel, by exact does_work (by decide +kernel)⟩
  · exact ⟨0, 0, 0, { srch [0, 0, 0, 0, 0, 0] with progress := 1 }, idx, onWin idx { srch [0, 0, 0, 0, 0, 0] with progress := 1 }, by decide +kernel, by constructor <;> decide +kernel, by decide +kernel, by decide +kernel, by decide +kernel⟩
  · exact ⟨0, 0, 0, srch [0, 0, 1, 3, 1, 0], idx, onWin idx (srch [0, 0, 1, 3, 1, 0]), by decide +kernel, by constructor <;> decide +kernel, by decide +kernel, by decide +kernel, by decide +kernel, by decide +kernel⟩
  · exact ⟨Instr.indexInsert, 0x08, 0, 0, 0, items 0x08 (2 ^ 20) [], idx, onWin idx (items 0x08 (2 ^ 20) []), by decide +kernel, by exact List.Mem.head _, by constructor <;> decide +kernel, by decide +kernel, by decide +kernel, by decide +kernel⟩
  · exact ⟨Instr.indexInsert, 0x08, Work.insertBegin, 0, 0, 0, items 0x08 1 [0, 4, 0, 0, 0, 0, 0], idx, onWin idx (items 0x08 1 [0, 4, 0, 0, 0, 0, 0]), (onWin idx (items 0x08 1 [0, 4, 0, 0, 0, 0, 0])).work (Work.insertBegin 0 (items 0x08 1 [0, 4, 0, 0, 0, 0, 0]) idx), by decide +kernel, by exact List.Mem.head _, by constructor <;> decide +kernel, by decide +kernel, by decide +kernel, by decide +kernel, by decide +kernel, by decide +kernel, by decide +kernel, by exact does_work (by decide +kernel)⟩
  · exact ⟨Instr.indexInsert, 0x08, 0, 0, 0, { items 0x08 1 [0, 4, 0, 0, 0, 0, 0] with progress := 1 }, idx, onWin idx { items 0x08 1 [0, 4, 0, 0, 0, 0, 0] with progress := 1 }, by decide +kernel, by exact List.Mem.head _, by constructor <;> decide +kernel, by decide +kernel, by decide +kernel, by decide +kernel, by decide +kernel, by decide +kernel, by decide +kernel, by decide +kernel, by decide +kernel⟩
  · exact by
      refine ⟨0, 0, 0, cmpct 2 [], idx, onWin idx (cmpct 2 []), ?_⟩
      rintro n rfl
      exact ⟨by decide +kernel, by constructor <;> decide +kernel, by decide +kernel, by decide +kernel, by decide +kernel, by decide +kernel, by decide +kernel, by decide +kernel, by decide +kernel⟩
  · exact ⟨0, 0, 0, cmpct 0 [], idx, onWin idx (cmpct 0 []), by decide +kernel, by constructor <;> decide +kernel, by decide +kernel, by decide +kernel, by decide +kernel⟩
  · exact ⟨0, 0, 0, cmpct 2 [0, 2, 0, 0, 0, 0, 0], idx, onWin idx (cmpct 2 [0, 2, 0, 0, 0, 0, 0]), (onWin idx (cmpct 2 [0, 2, 0, 0, 0, 0, 0])).work (Work.compactBegin 0 (cmpct 2 [0, 2, 0, 0, 0, 0, 0]) idx), by decide +kernel, by constructor <;> decide +kernel, by decide +kernel, by decide +kernel, by decide +kernel, by decide +kernel, by decide +kernel, by decide +kernel, by exact does_work (by decide +kernel)⟩
  · exact by
      refine ⟨0, 0, { idx with closed := [(4, 0, 0)] }, 4, 0, 0, [], { items 0x08 1 [0, 4, 9, 0, 0, 0, 0] with progress := 1 }, onWin { idx with closed := [(4, 0, 0)] } { items 0x08 1 [0, 4, 9, 0, 0, 0, 0] with progress := 1 }, ?_⟩
      rintro u rfl
      exact ⟨by decide +kernel, by decide +kernel, by decide +kernel, by decide +kernel, by decide +kernel, by decide +kernel⟩
  · exact by
      refine ⟨0, 0, { idx with closed := [(2 ^ 30, 0, 0)] }, 2 ^ 30, 0, 0, [], { items 0x08 1 [0, 2 ^ 30, 9, 0, 0, 0, 0] with progress := 1 }, onWin { idx with closed := [(2 ^ 30, 0, 0)] } { items 0x08 1 [0, 2 ^ 30, 9, 0, 0, 0, 0] with progress := 1 }, ?_⟩
      rintro u rfl
      exact ⟨by decide +kernel, by decide +kernel, by decide +kernel, by decide +kernel, by decide +kernel, by decide +kernel⟩
  · exact ⟨0, 0, 3, { idx with seals := [seal0 0] }, seal0 0, items 0x08 1 [0, 4, 0, 0, 0, 0, 0], sealed0, (onWin { idx with seals := [seal0 0] } (items 0x08 1 [0, 4, 0, 0, 0, 0, 0])).modFab (fun f => { f with arrivals := [sealed0] }), ((onWin { idx with seals := [seal0 0] } (items 0x08 1 [0, 4, 0, 0, 0, 0, 0])).modFab (fun f => { f with arrivals := [sealed0] })).modFab (fun f => { f with arrivals := [] }), by decide +kernel, by decide +kernel, by decide +kernel, by decide +kernel, by decide +kernel, by decide +kernel, by decide +kernel⟩
  · exact by
      refine ⟨0, 0, 3, { idx with seals := [seal0 2] }, seal0 2, items 0x08 1 [0, 4, 0, 0, 0, 0, 0], onWin { idx with seals := [seal0 2] } (items 0x08 1 [0, 4, 0, 0, 0, 0, 0]), ?_⟩
      rintro u rfl
      exact ⟨by decide +kernel, by decide +kernel, by decide +kernel, by decide +kernel, by decide +kernel⟩
  · exact ⟨0, 0, 0, items 0x08 1 [0, 4, 0, 0, 0, 0, 1], idx, onWin idx (items 0x08 1 [0, 4, 0, 0, 0, 0, 1]), (onWin idx (items 0x08 1 [0, 4, 0, 0, 0, 0, 1])).work (Work.insertBegin 0 { items 0x08 1 [0, 4, 0, 0, 0, 0, 1] with aux := setVal (items 0x08 1 [0, 4, 0, 0, 0, 0, 1]).aux 6 0 } idx), by decide +kernel, by decide +kernel, by decide +kernel, by decide +kernel, by decide +kernel, by decide +kernel, by exact does_work (by decide +kernel)⟩
/-- Partition 0 with 64 semaphores and a command. -/
def onSem (c : Cmd) : State := (one c).setRegF (Reg.PART_RSV_SEM 0) 31 19 1
/-- A SEM_SIGNAL or SEM_WAIT. -/
def semCmd (op a8 : Nat) : Cmd := { run op with args := [a8, 5, 0, 9, 0, 0, 0], aux := [0, 0] }
/-- Composition 7 of nodes 0 and 1, which partition 0 is in. -/
def comp7 : Comp := ⟨0, 1, 1, [⟨0, 0, false⟩, ⟨1, 0, false⟩], false⟩
/-- A state in which this node knows composition 7. -/
def composed (s : State) : State := s.modSync (fun y => { y with comps := [(7, some comp7)] })
/-- A sync message of node 1 to composition 7 at epoch 1. -/
def spk (typ w2 : Nat) (w : List Nat) : Packet := { pk 0 5 0 with proto := 2, body := [typ + 7 * 2 ^ 16, 1, w2] ++ w }
/-- The state after a packet has been taken and its window has let it through. -/
def enter (s : State) (k : Packet) : State := ((s.receive k).noteIncarnation k.src k.srcInc).setWindow k.src k.tc k.seq ⟨k.seq, 1, 0, 0, [k]⟩
/-- A satisfied wait of a unit. -/
def waited (w : SemWaiter) : SemWait := ⟨w, 0, 3, 5, 0, some (some 7)⟩
/-- A state in which a unit has seen what it waited for. -/
def sat (w : SemWaiter) (s : State) : State := s.modSync (fun y => { y with waits := [waited w] })
/-- A BARRIER of composition 7. -/
def barCmd : Cmd := { run 0x0D with compId := 7, compEpoch := 1, aux := [] }

/-- What Obligations.SemaphoresAndBarriers supposes can be met. -/
theorem witness_SemaphoresAndBarriers :
    (∃ (p : Fin 32) (chute : Fin 64) (seq : Word) (c : Cmd) (n : Nat) (s : State) (u : State), ∀ (i : Nat), i = nfld (c.arg 8) 17 0 →
      s.stopped = false ∧ s.running p.val chute.val seq.toNat = some c ∧ c.opcode = 0x0B ∧ c.sent = false ∧ nfld (c.arg 8) 31 31 = 0 ∧
      bitOf (BitVec.ofNat 32 (c.arg 8)) 30 = false ∧ s.semIn p.val i = true ∧ s.semAdd p.val i (c.arg64 9) = (u, some n)) ∧
    (∃ (p : Fin 32) (chute : Fin 64) (seq : Word) (c : Cmd) (s : State), ∀ (i : Nat), i = nfld (c.arg 8) 17 0 → s.stopped = false ∧
      s.running p.val chute.val seq.toNat = some c ∧ c.opcode = 0x0B ∧ c.sent = false ∧ nfld (c.arg 8) 31 31 = 0 ∧
      bitOf (BitVec.ofNat 32 (c.arg 8)) 30 = true ∧ s.semIn p.val i = true) ∧
    (∃ (p : Fin 32) (chute : Fin 64) (seq : Word) (c : Cmd) (s : State), ∀ (i : Nat), i = nfld (c.arg 8) 17 0 → s.stopped = false ∧
      s.running p.val chute.val seq.toNat = some c ∧ c.opcode = 0x0B ∧ c.sent = false ∧ nfld (c.arg 8) 31 31 = 0 ∧
      bitOf (BitVec.ofNat 32 (c.arg 8)) 30 = false ∧ s.semIn p.val i = true ∧ (s.sem i).poison = true) ∧
    (∃ (p : Fin 32) (chute : Fin 64) (seq : Word) (c : Cmd) (s : State), s.stopped = false ∧ s.running p.val chute.val seq.toNat = some c ∧
      c.opcode = 0x0B ∧ c.sent = false ∧ nfld (c.arg 8) 31 31 = 1 ∧ nfld (c.arg 8) 29 18 ≠ s.node ∧ s.nodeExists (nfld (c.arg 8) 29 18) = true ∧
      c.inComp = true ∧ bitOf (BitVec.ofNat 32 (c.arg 8)) 30 = false) ∧
    (∃ (p : Fin 32) (chute : Fin 64) (seq : Word) (c : Cmd) (s : State), s.stopped = false ∧ s.running p.val chute.val seq.toNat = some c ∧
      c.opcode = 0x0B ∧ c.sent = false ∧ nfld (c.arg 8) 31 31 = 0 ∧ s.semIn p.val (nfld (c.arg 8) 17 0) = false) ∧
    (∃ (p : Fin 32) (chute : Fin 64) (seq : Word) (c : Cmd) (s : State), ∀ (i : Nat), i = nfld (c.arg 8) 17 0 → s.stopped = false ∧
      s.running p.val chute.val seq.toNat = some c ∧ c.opcode = 0x0C ∧ c.mustStop = false ∧ s.semIn p.val i = true ∧
      s.waitOf (.cmd p.val c.chute c.seq) = none) ∧
    (∃ (p : Nat) (ch : Nat) (q : Nat) (n : Nat) (x : SemWait) (s : State), s.stopped = false ∧ s.waitOf (.cmd p ch q) = some x ∧
      x.seen = some (some n)) ∧
    (∃ (e : Nat) (p : Nat) (n : Nat) (x : SemWait) (c : Cmd) (s : State), ∀ (u : State), u = (s.semEvent x.part x.sem 2).endWait (.me e) →
      s.stopped = false ∧ s.waitOf (.me e) = some x ∧ x.seen = some (some n) ∧ u.program e = some (p, c) ∧ wordAt (c.desc c.progress) 0 % 256 = 5) ∧
    
      (∃ (g : Nat) (p : Nat) (w : Nat) (len : Nat) (n : Nat) (x : SemWait) (c : Cmd) (s : State), ∀ (u : State), u = (s.semEvent x.part x.sem 2).endWait (.core g) →
      s.stopped = false ∧ s.waitOf (.core g) = some x ∧ x.seen = some (some n) ∧ u.gcRun g = some (p, c) ∧ (u.core g).instr = some (w, len)) ∧
    (∃ (p : Fin 32) (chute : Fin 64) (seq : Word) (c : Cmd) (x : SemWait) (s : State), ∀ (i : Nat), i = nfld (c.arg 8) 17 0 → s.stopped = false ∧
      s.running p.val chute.val seq.toNat = some c ∧ c.opcode = 0x0C ∧ s.semIn p.val i = true ∧ s.waitOf (.cmd p.val c.chute c.seq) = some x ∧
      x.seen = none ∧ c.arg 11 ≠ 0 ∧ c.arg 11 < s.lcc - c.auxAt 0) ∧
    (∃ (rq : Requester) (p : Fin 32) (w : Word) (s : State), ∀ (i : Nat), i = s.regF (Reg.PART_SEM_SEL p.val) 17 0 → s.stopped = false ∧
      s.writes rq (Reg.PART_SEM_VAL_HI p.val) = true ∧ s.semIn p.val i = true ∧ s.heldLow rq (Reg.PART_SEM_VAL_HI p.val - 4) = some w) ∧
    (∃ (rq : Requester) (p : Fin 32) (s : State), s.stopped = false ∧ s.writes rq (Reg.PART_SEM_VAL_HI p.val) = true ∧
      s.semIn p.val (s.regF (Reg.PART_SEM_SEL p.val) 17 0) = false) ∧
    (∃ (i : Packet → Instr) (typ : Nat) (k : Packet) (x : Comp) (s : State) (u : State), s.stopped = false ∧
      (i, typ) ∈ [((fun k => Instr.semAdd k 0), syAdd), ((fun k => Instr.semSet k 0), sySet)] ∧ k.isSync typ = true ∧ Enters s k u ∧
      u.epochCheck k.comp k.epoch k.src (fun p => u.semIn p (nfld k.sync2 17 0)) = .run ∧ u.comp k.comp = some x) ∧
    (∃ (k : Packet) (x : Comp) (s : State) (u : State), ∀ (key : Nat) (b : Barrier), key = barKey k.comp (nfld k.sync2 31 26) →
      b = (if (u.barrier key).arrivals.isEmpty then { u.barrier key with mask := wordAt k.body 4 % 4, epoch := k.epoch } else u.barrier key) →
      s.stopped = false ∧ k.isSync syArrive = true ∧ Enters s k u ∧ u.epochCheck k.comp k.epoch k.src (fun _ => true) = .run ∧
      u.comp k.comp = some x ∧ k.epoch = x.epoch ∧ (participants x.map b.mask).contains k.src = true ∧ b.arrivals.contains k.src = false ∧
      b.arrivals.length + 1 ≠ (participants x.map b.mask).length) ∧
    
      (∃ (k : Packet) (x : Comp) (chute : Nat) (seq : Nat) (c : Cmd) (s : State) (u : State), ∀ (key : Nat) (v : State), key = barKey k.comp (nfld k.sync2 31 26) →
      v = u.endRequest k stOk 0 0 false → s.stopped = false ∧ k.isSync syRelease = true ∧ Enters s k u ∧
      u.epochCheck k.comp k.epoch k.src (fun _ => true) = .run ∧ u.comp k.comp = some x ∧ v.side key = some (chute, seq) ∧
      v.running x.part chute seq = some c ∧ epochOlder k.epoch c.compEpoch = false) ∧
    (∃ (i : Packet → Instr) (typ : Nat) (k : Packet) (s : State) (u : State), s.stopped = false ∧
      (i, typ) ∈ [((fun k => Instr.semAdd k 0), syAdd), ((fun k => Instr.semSet k 0), sySet), (Instr.barArrive, syArrive), (Instr.barRelease, syRelease), (Instr.digestVote, syDigest)] ∧
      k.isSync typ = true ∧ Enters s k u ∧ u.comp k.comp = none) ∧
    (∃ (p : Fin 32) (chute : Fin 64) (seq : Word) (c : Cmd) (k : Comp) (s : State) (u : State), ∀ (b : Nat) (m : Nat), b = nfld (c.arg 8) 31 26 →
      m = nfld (c.arg 8) 25 24 → s.stopped = false ∧ s.running p.val chute.val seq.toNat = some c ∧ c.opcode = 0x0D ∧ c.mustStop = false ∧
      c.sent = false ∧ s.comp c.compId = some k ∧ s.commandEpochOk p.val c.compId c.compEpoch = true ∧
      (participants k.map m).contains s.node = true ∧ ScopeDone s p.val c u ∧ u.side (barKey c.compId b) = none ∧
      u.earlierBarrier p.val c = false) ∧
    (∃ (p : Fin 32) (chute : Fin 64) (seq : Word) (c : Cmd) (s : State), s.stopped = false ∧ s.running p.val chute.val seq.toNat = some c ∧
      c.opcode = 0x0D ∧ c.mustStop = false ∧ c.sent = false ∧ s.comp c.compId = none) := by
  refine ⟨?_, ?_, ?_, ?_, ?_, ?_, ?_, ?_, ?_, ?_, ?_, ?_, ?_, ?_, ?_, ?_, ?_, ?_⟩
  · exact by
      refine ⟨0, 0, 0, semCmd 0x0B 63, 5, onSem (semCmd 0x0B 63), ((onSem (semCmd 0x0B 63)).semAdd 0 63 5).1, ?_⟩
      rintro i rfl
      exact ⟨by decide +kernel, by decide +kernel, by decide +kernel, by decide +kernel, by decide +kernel, by decide +kernel, by decide +kernel, by exact pair_eq' (by decide +kernel)⟩
  · exact by
      refine ⟨0, 0, 0, semCmd 0x0B (2 ^ 30), onSem (semCmd 0x0B (2 ^ 30)), ?_⟩
      rintro i rfl
      exact ⟨by decide +kernel, by decide +kernel, by decide +kernel, by decide +kernel, by decide +kernel, by decide +kernel, by decide +kernel⟩
  · exact by
      refine ⟨0, 0, 0, semCmd 0x0B 0, (onSem (semCmd 0x0B 0)).putSem 0 ⟨3, true⟩, ?_⟩
      rintro i rfl
      exact ⟨by decide +kernel, by decide +kernel, by decide +kernel, by decide +kernel, by decide +kernel, by decide +kernel, by decide +kernel, by decide +kernel⟩
  · exact ⟨0, 0, 0, { semCmd 0x0B (2 ^ 31 + 2 ^ 18) with compId := 7 }, onSem { semCmd 0x0B (2 ^ 31 + 2 ^ 18) with compId := 7 }, by decide +kernel, by decide +kernel, by decide +kernel, by decide +kernel, by decide +kernel, by decide +kernel, by decide +kernel, by decide +kernel, by decide +kernel⟩
  · exact ⟨0, 0, 0, semCmd 0x0B 64, onSem (semCmd 0x0B 64), by decide +kernel, by decide +kernel, by decide +kernel, by decide +kernel, by decide +kernel, by decide +kernel⟩
  · exact by
      refine ⟨0, 0, 0, semCmd 0x0C 63, onSem (semCmd 0x0C 63), ?_⟩
      rintro i rfl
      exact ⟨by decide +kernel, by decide +kernel, by decide +kernel, by decide +kernel, by decide +kernel, by decide +kernel⟩
  · exact ⟨0, 0, 0, 7, waited (.cmd 0 0 0), sat (.cmd 0 0 0) (onSem (semCmd 0x0C 3)), by decide +kernel, by decide +kernel, by decide +kernel⟩
  · exact by
      refine ⟨0, 0, 7, waited (.me 0), prog [5, 3], sat (.me 0) (onMe (prog [5, 3])), ?_⟩
      rintro u rfl
      exact ⟨by decide +kernel, by decide +kernel, by decide +kernel, by decide +kernel, by decide +kernel⟩
  · exact by
      refine ⟨0, 0, 0x0000202B, 4, 7, waited (.core 0), gcCmd, sat (.core 0) (at4 0x0000202B []), ?_⟩
      rintro u rfl
      exact ⟨by decide +kernel, by decide +kernel, by decide +kernel, by decide +kernel, by decide +kernel⟩
  · exact by
      refine ⟨0, 0, 0, semCmd 0x0C 3, { waited (.cmd 0 0 0) with seen := none }, { (onSem (semCmd 0x0C 3)).modSync (fun y => { y with waits := [{ waited (.cmd 0 0 0) with seen := none }] }) with lcc := 10 }, ?_⟩
      rintro i rfl
      exact ⟨by decide +kernel, by decide +kernel, by decide +kernel, by decide +kernel, by decide +kernel, by decide +kernel, by decide +kernel, by decide +kernel⟩
  · exact by
      refine ⟨.ld 0, 0, 2, { onSem (run 0x01) with held := Tbl.set (fun _ => none) base.held (pairKey (.ld 0) (Reg.PART_SEM_VAL_HI 0 - 4)) (some 2) }, ?_⟩
      rintro i rfl
      exact ⟨by decide +kernel, by decide +kernel, by decide +kernel, by decide +kernel⟩
  · exact ⟨.ld 0, 0, base, by decide +kernel, by decide +kernel, by decide +kernel⟩
  · exact ⟨(fun k => Instr.semAdd k 0), syAdd, spk 1 0 [0, 5, 0], comp7, composed (onSem (run 0x01)), enter (composed (onSem (run 0x01))) (spk 1 0 [0, 5, 0]), by decide +kernel, by exact List.Mem.head _, by decide +kernel, by exact ⟨_, rfl, by decide +kernel, rfl⟩, by decide +kernel, by decide +kernel⟩
  · exact by
      refine ⟨spk 3 0 [0, 0, 0], comp7, composed base, enter (composed base) (spk 3 0 [0, 0, 0]), ?_⟩
      rintro key b rfl rfl
      exact ⟨by decide +kernel, by decide +kernel, by exact ⟨_, rfl, by decide +kernel, rfl⟩, by decide +kernel, by decide +kernel, by decide +kernel, by decide +kernel, by decide +kernel, by decide +kernel⟩
  · exact by
      refine ⟨spk 4 0 [0, 1, 0, 0], comp7, 0, 0, barCmd, (composed (one barCmd)).setSide (barKey 7 0) (some (0, 0)), enter ((composed (one barCmd)).setSide (barKey 7 0) (some (0, 0))) (spk 4 0 [0, 1, 0, 0]), ?_⟩
      rintro key v rfl rfl
      exact ⟨by decide +kernel, by decide +kernel, by exact ⟨_, rfl, by decide +kernel, rfl⟩, by decide +kernel, by decide +kernel, by decide +kernel, by decide +kernel, by decide +kernel⟩
  · exact ⟨(fun k => Instr.semAdd k 0), syAdd, spk 1 0 [0, 5, 0], base, enter base (spk 1 0 [0, 5, 0]), by decide +kernel, by exact List.Mem.head _, by decide +kernel, by exact ⟨_, rfl, by decide +kernel, rfl⟩, by decide +kernel⟩
  · exact by
      refine ⟨0, 0, 0, barCmd, comp7, composed (one barCmd), composed (one barCmd), ?_⟩
      rintro b m rfl rfl
      exact ⟨by decide +kernel, by decide +kernel, by decide +kernel, by decide +kernel, by decide +kernel, by decide +kernel, by decide +kernel, by decide +kernel, by exact .inl ⟨by decide +kernel, rfl⟩, by decide +kernel, by decide +kernel⟩
  · exact ⟨0, 0, 0, barCmd, one barCmd, by decide +kernel, by decide +kernel, by decide +kernel, by decide +kernel, by decide +kernel, by decide +kernel⟩
/-- What node 0 is prepared for: composition 7 at epoch 2, as node 1 asks. -/
def prep : Prepared := ⟨1, 2, [⟨0, 0, false⟩, ⟨1, 0, false⟩], 0, 0⟩
/-- A state in which this node is prepared. -/
def prepared (s : State) : State := s.setPrepared 7 (some prep)
/-- A sync message of node 1 to composition 7 at epoch 2. -/
def spk2 (typ w2 : Nat) (w : List Nat) : Packet := { pk 0 5 0 with proto := 2, body := [typ + 7 * 2 ^ 16, 2, w2] ++ w }
/-- A proposal that is queued. -/
def prop7 : Proposal := ⟨7, spk 5 1 [1, 0], 1, [], false, .queued, [], none⟩
/-- A request of this node to node 1 in composition 7 that waits for its SACK. -/
def syncOut (typ epoch : Nat) (who : Waiter) : OutReq := ⟨{ pk 0 5 0 with proto := 2, dst := 1, src := 0, body := [typ + 7 * 2 ^ 16, epoch] }, who, none, 0, false, 0, false, 0⟩
/-- A DIGEST of one region of 64 bytes in page 0 of T0, with votes of two replicas or without. -/
def dig (v : Nat) (aux : List Nat) : Cmd :=
  { run 0x0E with compId := 7, compEpoch := 1, args := [v * 2 ^ 31 + v * 2 ^ 24 + 1, 0, 0, 1024, 0, 0, 0], aux := aux, pins := [⟨0, 12, 0x5D, 0⟩],
                  inputs := [[64, 0, 64, 0], [0, 1, 0, 0]] }
/-- Partition 0, which owns page 0 of T0, with a digest key and a command. -/
def onDig (c : Cmd) : State := ((one c).setT0Owner 0 (some 0)).setRegN (Reg.PART_DIG_KEY 0 0) 1

/-- What Obligations.CompositionsAndVotes supposes can be met. -/
theorem witness_CompositionsAndVotes :
    
      (∃ (rq : Requester) (p : Fin 32) (v : Word) (c : Nat) (k : Comp) (s : State), ∀ (u : State), u = (s.store (Reg.PART_COMP_PROP_CTRL p.val) v).setRegF (Reg.PART_COMP_PROP_CTRL p.val) 31 31 1 →
      s.stopped = false ∧ s.writes rq (Reg.PART_COMP_PROP_CTRL p.val) = true ∧ bitOf (s.reg (Reg.PART_COMP_PROP_CTRL p.val)) 31 = false ∧
      s.compOf p.val = some (c, k)) ∧
    
      (∃ (rq : Requester) (p : Fin 32) (v : Word) (s : State), ∀ (u : State), u = (s.store (Reg.PART_COMP_PROP_CTRL p.val) v).setRegF (Reg.PART_COMP_PROP_CTRL p.val) 31 31 1 →
      s.stopped = false ∧ s.writes rq (Reg.PART_COMP_PROP_CTRL p.val) = true ∧ bitOf (s.reg (Reg.PART_COMP_PROP_CTRL p.val)) 31 = false ∧
      s.compOf p.val = none ∧ u.regF (Reg.PART_COMP_PROP_CTRL p.val) 12 0 = 0) ∧
    (∃ (k : Packet) (list : List Word) (s : State) (u : State), ∀ (n : Nat) (ws : List Nat), n = nfld k.sync3 12 0 →
      ws = (list.map (·.toNat)).take n → s.stopped = false ∧ k.isSync syPropose = true ∧ Enters s k u ∧
      (u.sync.proposals.filter (fun (q : Proposal) => decide (q.comp = k.comp))).length < 8) ∧
    (∃ (k : Packet) (s : State) (u : State), s.stopped = false ∧ k.isSync syPropose = true ∧ Enters s k u ∧
      8 ≤ (u.sync.proposals.filter (fun (q : Proposal) => decide (q.comp = k.comp))).length) ∧
    
      (∃ (k : Packet) (list : List Word) (m : Member) (s : State) (u : State), ∀ (l : List Member), l = ((list.map (·.toNat)).take (nfld k.sync3 12 0)).map Member.ofWord →
      s.stopped = false ∧ k.isSync syPrepare = true ∧ Enters s k u ∧ u.prepareReason k.comp k.sync2 l = 0 ∧ memberAt l u.node = some m) ∧
    
      (∃ (k : Packet) (list : List Word) (s : State) (u : State), ∀ (r : Nat), r = u.prepareReason k.comp k.sync2 (((list.map (·.toNat)).take (nfld k.sync3 12 0)).map Member.ofWord) →
      s.stopped = false ∧ k.isSync syPrepare = true ∧ Enters s k u ∧ r ≠ 0) ∧
    (∃ (k : Packet) (q : Prepared) (s : State) (u : State), s.stopped = false ∧ k.isSync syCommit = true ∧ Enters s k u ∧
      u.preparedBy k.comp k.src k.epoch = some q) ∧
    (∃ (k : Packet) (q : Prepared) (s : State) (u : State), s.stopped = false ∧ k.isSync syAbort = true ∧ Enters s k u ∧
      u.preparedBy k.comp k.src k.epoch = some q) ∧
    (∃ (k : Packet) (s : State) (u : State), ∀ (d : Nat × Bool), d = Tbl.get (fun _ => (0, false)) u.sync.lastDecision k.comp → s.stopped = false ∧
      k.isSync syQuery = true ∧ Enters s k u) ∧
    (∃ (k : Packet) (s : State) (u : State), s.stopped = false ∧ k.isSync syDown = true ∧ Enters s k u) ∧
    (∃ (k : Packet) (r : OutReq) (p : Nat) (ch : Nat) (q : Nat) (s : State), ∀ (u : State) (st : Nat), u = s.receive k →
      st = nfld (wordAt k.body 0) 15 8 → s.stopped = false ∧ k.proto = 2 ∧ k.typ = syAck ∧ u.awaiting k 5 = some r ∧
      (r.pkt.typ = syAdd ∨ r.pkt.typ = sySet) ∧ r.waiter = .cmd p ch q) ∧
    (∃ (k : Packet) (r : OutReq) (q : Prepared) (s : State), ∀ (u : State), u = s.receive k → s.stopped = false ∧ k.proto = 2 ∧ k.typ = syAck ∧
      u.awaiting k 5 = some r ∧ r.pkt.typ = syQuery ∧ (u.complete r).settleStalled.preparedBy r.pkt.comp k.src r.pkt.epoch = some q ∧
      wordAt k.body 4 % 4 = 1) ∧
    (∃ (c : Fin 65536) (q : Prepared) (s : State), s.stopped = false ∧ s.preparedFor c.val = some q ∧
      max 1 (s.regN Reg.RNG_COMP_TIMEOUT) < s.lcc - q.since) ∧
    (∃ (p : Fin 32) (chute : Fin 64) (seq : Word) (c : Cmd) (s : State), s.stopped = false ∧ s.running p.val chute.val seq.toNat = some c ∧
      c.opcode = 0x0E ∧ c.mustStop = false ∧ c.aux = [] ∧ (c.votes = false ∨ c.inComp = true) ∧ s.digestOk p.val c = true) ∧
    
      (∃ (p : Fin 32) (chute : Fin 64) (seq : Word) (c : Cmd) (va : Nat) (n : Nat) (x : List (Nat × Nat)) (g : Got) (s : State) (u : State), s.stopped = false ∧
      s.running p.val chute.val seq.toNat = some c ∧ c.opcode = 0x0E ∧ c.mustStop = false ∧ c.aux ≠ [] ∧ c.auxAt 1 ≠ 1 ∧
      c.digestSegs[c.progress]? = some (va, n) ∧ c.range va n acRead = some x ∧ AllReady s (c.agent p.val) false x ∧
      s.fetchAll (c.agent p.val) false x = (g, u) ∧ g.status = 0 ∧ g.poison = false) ∧
    (∃ (p : Fin 32) (chute : Fin 64) (seq : Word) (c : Cmd) (x : List (Nat × Nat)) (s : State), s.stopped = false ∧
      s.running p.val chute.val seq.toNat = some c ∧ c.opcode = 0x0E ∧ c.mustStop = false ∧ c.aux ≠ [] ∧ c.auxAt 1 ≠ 1 ∧
      c.digestSegs[c.progress]? = none ∧ c.range (c.voteVa + 64) (if c.votes then 64 + 16 * c.replicas else 32) acWrite = some x) ∧
    
      (∃ (k : Packet) (x : Comp) (s : State) (u : State), ∀ (v : State), v = (u.putVote x.part k.sync2 k.src (wordsNum k.body 4 4)).endRequest k stOk 0 0 false →
      s.stopped = false ∧ k.isSync syDigest = true ∧ Enters s k u ∧ u.epochCheck k.comp k.epoch k.src (fun _ => true) = .run ∧
      u.comp k.comp = some x ∧ v.voting x.part k.sync2 = none) ∧
    (∃ (p : Fin 32) (chute : Fin 64) (seq : Word) (c : Cmd) (s : State), s.stopped = false ∧ s.running p.val chute.val seq.toNat = some c ∧
      c.opcode = 0x0E ∧ c.auxAt 1 = 1 ∧ max 1 (s.regN (Reg.PART_DIG_WAIT p.val)) < s.lcc - c.auxAt 2) := by
  refine ⟨?_, ?_, ?_, ?_, ?_, ?_, ?_, ?_, ?_, ?_, ?_, ?_, ?_, ?_, ?_, ?_, ?_, ?_⟩
  · exact by
      refine ⟨.ld 0, 0, 2, 7, comp7, composed base, ?_⟩
      rintro u rfl
      exact ⟨by decide +kernel, by decide +kernel, by decide +kernel, by decide +kernel⟩
  · exact by
      refine ⟨.ld 0, 0, 0, base, ?_⟩
      rintro u rfl
      exact ⟨by decide +kernel, by decide +kernel, by decide +kernel, by decide +kernel, by decide +kernel⟩
  · exact by
      refine ⟨spk 5 1 [1, 0], [0x00001000], composed base, enter (composed base) (spk 5 1 [1, 0]), ?_⟩
      rintro n ws rfl rfl
      exact ⟨by decide +kernel, by decide +kernel, by exact ⟨_, rfl, by decide +kernel, rfl⟩, by decide +kernel⟩
  · exact ⟨spk 5 1 [1, 0], base.modSync (fun y => { y with proposals := List.replicate 8 prop7 }), enter (base.modSync (fun y => { y with proposals := List.replicate 8 prop7 })) (spk 5 1 [1, 0]), by decide +kernel, by decide +kernel, by exact ⟨_, rfl, by decide +kernel, rfl⟩, by decide +kernel⟩
  · exact by
      refine ⟨spk2 6 1 [2, 0], [0, 1], ⟨0, 0, false⟩, composed base, enter (composed base) (spk2 6 1 [2, 0]), ?_⟩
      rintro l rfl
      exact ⟨by decide +kernel, by decide +kernel, by exact ⟨_, rfl, by decide +kernel, rfl⟩, by decide +kernel, by decide +kernel⟩
  · exact by
      refine ⟨spk2 6 1 [2, 0], [0, 1], prepared (composed base), enter (prepared (composed base)) (spk2 6 1 [2, 0]), ?_⟩
      rintro r rfl
      exact ⟨by decide +kernel, by decide +kernel, by exact ⟨_, rfl, by decide +kernel, rfl⟩, by decide +kernel⟩
  · exact ⟨spk2 7 0 [0, 0], prep, prepared (composed base), enter (prepared (composed base)) (spk2 7 0 [0, 0]), by decide +kernel, by decide +kernel, by exact ⟨_, rfl, by decide +kernel, rfl⟩, by decide +kernel⟩
  · exact ⟨spk2 8 0 [0, 0], prep, prepared (composed base), enter (prepared (composed base)) (spk2 8 0 [0, 0]), by decide +kernel, by decide +kernel, by exact ⟨_, rfl, by decide +kernel, rfl⟩, by decide +kernel⟩
  · exact by
      refine ⟨spk2 0x0A 0 [0, 0], composed base, enter (composed base) (spk2 0x0A 0 [0, 0]), ?_⟩
      rintro d rfl
      exact ⟨by decide +kernel, by decide +kernel, by exact ⟨_, rfl, by decide +kernel, rfl⟩⟩
  · exact ⟨spk 9 0 [0, 1], composed base, enter (composed base) (spk 9 0 [0, 1]), by decide +kernel, by decide +kernel, by exact ⟨_, rfl, by decide +kernel, rfl⟩⟩
  · exact by
      refine ⟨{ spk 0x10 0 [0, 5, 0] with tkind := 1 }, syncOut 1 1 (.cmd 0 0 0), 0, 0, 0, (one (semCmd 0x0B 0)).modFab (fun f => { f with reqs := [syncOut 1 1 (.cmd 0 0 0)] }), ?_⟩
      rintro u st rfl rfl
      exact ⟨by decide +kernel, by decide +kernel, by decide +kernel, by decide +kernel, by decide +kernel, by decide +kernel⟩
  · exact by
      refine ⟨{ spk 0x10 0 [0, 1, 0] with tkind := 1 }, syncOut 0x0A 2 (.sync 0), prep, (prepared (composed base)).modFab (fun f => { f with reqs := [syncOut 0x0A 2 (.sync 0)] }), ?_⟩
      rintro u rfl
      exact ⟨by decide +kernel, by decide +kernel, by decide +kernel, by decide +kernel, by decide +kernel, by decide +kernel, by decide +kernel⟩
  · exact ⟨7, prep, { prepared (composed base) with lcc := 2 ^ 33 }, by decide +kernel, by decide +kernel, by decide +kernel⟩
  · exact ⟨0, 0, 0, dig 1 [], onDig (dig 1 []), by decide +kernel, by decide +kernel, by decide +kernel, by decide +kernel, by decide +kernel, by decide +kernel, by decide +kernel⟩
  · exact ⟨0, 0, 0, dig 0 [0, 0, 0, 0, 1], 64, 64, [(t0Flag + 64, 64)], ⟨0, false, 0⟩, onDig (dig 0 [0, 0, 0, 0, 1]), ((onDig (dig 0 [0, 0, 0, 0, 1])).fetchAll ((dig 0 [0, 0, 0, 0, 1]).agent 0) false [(t0Flag + 64, 64)]).2, by decide +kernel, by decide +kernel, by decide +kernel, by decide +kernel, by decide +kernel, by decide +kernel, by decide +kernel, by decide +kernel, by (unfold AllReady; decide +kernel), by exact pair_eq (by decide +kernel), by decide +kernel, by decide +kernel⟩
  · exact ⟨0, 0, 0, { dig 1 [0, 0, 0, 64, 1] with progress := 1 }, [(t0Flag + 1088, 96)], onDig { dig 1 [0, 0, 0, 64, 1] with progress := 1 }, by decide +kernel, by decide +kernel, by decide +kernel, by decide +kernel, by decide +kernel, by decide +kernel, by decide +kernel, by decide +kernel⟩
  · exact by
      refine ⟨spk 0x0B 3 [0, 1, 2, 3, 4], comp7, composed base, enter (composed base) (spk 0x0B 3 [0, 1, 2, 3, 4]), ?_⟩
      rintro v rfl
      exact ⟨by decide +kernel, by decide +kernel, by exact ⟨_, rfl, by decide +kernel, rfl⟩, by decide +kernel, by decide +kernel, by decide +kernel⟩
  · exact ⟨0, 0, 0, { dig 1 [0, 1, 0, 64, 1] with progress := 1 }, { onDig { dig 1 [0, 1, 0, 64, 1] with progress := 1 } with lcc := 2 ^ 33 }, by decide +kernel, by decide +kernel, by decide +kernel, by decide +kernel, by decide +kernel⟩

/-- What Obligations.RecordsAndFatalErrors supposes can be met. -/
theorem witness_RecordsAndFatalErrors :
    (∃ (cls : Fin 17) (inst : Fin 1664) (store : Fin 11) (s : State), ∀ (key : Nat) (n : Nat), key = ceKey cls.val inst.val store.val →
      n = Tbl.get (fun _ => 0) s.errs.ceCount key → s.stopped = false ∧ n ≠ 0 ∧
      (Tbl.get (fun _ => 0) s.errs.ceTime key = 0 ∨ Tbl.get (fun _ => 0) s.errs.ceTime key - 1 + 2 ^ 27 ≤ s.lcc)) ∧
    (∃ (cls : Fin 17) (inst : Fin 1664) (store : Fin 11) (s : State), s.stopped = false ∧
      Tbl.get (fun _ => 0) s.errs.ceCount (ceKey cls.val inst.val store.val) = 0) ∧
    (∃ (s : State), ∀ (u : State), u = s.sendAll 257 s.errs.ring → s.stopped = false ∧ s.udpEn = true) ∧
    (∃ (w0 : Word) (w1 : Word) (s : State), s.stopped = false ∧ w0.toNat = 0xB6400001 ∧ fld w1 31 22 = s.cell ∧ fld w1 11 0 = s.node) ∧
    (∃ (w0 : Word) (w1 : Word) (s : State), s.stopped = false ∧ (w0.toNat ≠ 0xB6400001 ∨ fld w1 31 22 ≠ s.cell ∨ fld w1 11 0 ≠ s.node)) ∧
    
      (∃ (tr : Transport) (id : BitVec 16) (first : Word) (s : State), ∀ (rs : List ErrRec) (u : State), rs = (s.errs.ring.filter (fun r => serialLe first.toNat r.seq)).take 4 →
      u = s.emit (.xfer tr 0x120 id.toNat 0 0 (rs.flatMap (ErrRec.words s.node s.cell))) → s.stopped = false ∧ s.recordPath tr = true) ∧
    (∃ (tr : Transport) (s : State), s.stopped = false ∧ s.recordPath tr = false) ∧
    (∃ (tr : Transport) (s : State), s.stopped = false ∧ s.recordPath tr = true) := by
  refine ⟨?_, ?_, ?_, ?_, ?_, ?_, ?_, ?_⟩
  · exact by
      refine ⟨16, 1663, 10, { base with errs := { base.errs with ceCount := [(ceKey 16 1663 10, 3)] } }, ?_⟩
      rintro key n rfl rfl
      exact ⟨by decide +kernel, by decide +kernel, by decide +kernel⟩
  · exact ⟨0, 0, 0, base, by decide +kernel, by decide +kernel⟩
  · exact by
      refine ⟨base.setRegF Reg.RNG_ERR_CTRL 31 31 1, ?_⟩
      rintro u rfl
      exact ⟨by decide +kernel, by decide +kernel⟩
  · exact ⟨0xB6400001, 0, base, by decide +kernel, by decide +kernel, by decide +kernel, by decide +kernel⟩
  · exact ⟨0xB6400001, 1, base, by decide +kernel, by decide +kernel⟩
  · exact by
      refine ⟨.mctp, 0, 0, base.setRegF Reg.RNG_ERR_CTRL 30 30 1, ?_⟩
      rintro rs u rfl rfl
      exact ⟨by decide +kernel, by decide +kernel⟩
  · exact ⟨.mctp, base.setRegF Reg.RNG_ERR_CTRL 30 30 0, by decide +kernel, by decide +kernel⟩
  · exact ⟨.mctp, base.setRegF Reg.RNG_ERR_CTRL 30 30 1, by decide +kernel, by decide +kernel⟩
/-- Test content 3 for every kind. -/
def pkg (minTj : Nat) : Package := ⟨3, 1, 0xFF, 10, 0x7FFF, minTj⟩
/-- A request of a kind for an instance. -/
def ftr (kind inst : Nat) (deferred : Bool) : FtReq := ⟨9, kind, inst, 3, 0, 0, 1, 0, deferred, false⟩
/-- A test that runs. -/
def ftrun (kind inst : Nat) (nominal : Bool) (fail : Option Nat) : FtRun := ⟨ftr kind inst false, inst, nominal, 0, 1, [], fail, false⟩
/-- Field test with a queue, a running test and a package. -/
def tested (q : List FtReq) (r : Option FtRun) (minTj : Nat) : State :=
  base.modFt (fun f => { f with queue := q, run := r, packages := [(0, some (pkg minTj))] })

/-- What Obligations.FieldTests supposes can be met. -/
theorem witness_FieldTests :
    
      (∃ (rq : Requester) (v : Word) (k : Package) (s : State), ∀ (u : State) (kind : Nat) (inst : Nat) (content : Nat), u = s.store Reg.RNG_FT_CTRL v →
      kind = u.regF Reg.RNG_FT_TARGET 31 28 → inst = u.regF Reg.RNG_FT_TARGET 11 0 → content = u.regF Reg.RNG_FT_CONTENT 15 0 →
      s.stopped = false ∧ s.writes rq Reg.RNG_FT_CTRL = true ∧ u.ft.queue.length < 16 ∧ ftCount kind ≠ 0 ∧ (inst = 0xFFF ∨ inst < ftCount kind) ∧
      u.ftContent content kind = some k) ∧
    (∃ (rq : Requester) (v : Word) (n : Nat) (s : State) (w : State), ∀ (u : State) (kind : Nat) (inst : Nat), u = s.store Reg.RNG_FT_CTRL v →
      kind = u.regF Reg.RNG_FT_TARGET 31 28 → inst = u.regF Reg.RNG_FT_TARGET 11 0 → s.stopped = false ∧ s.writes rq Reg.RNG_FT_CTRL = true ∧
      (16 ≤ u.ft.queue.length ∨ ftCount kind = 0 ∨ (inst ≠ 0xFFF ∧ ftCount kind ≤ inst)) ∧ u.draw = (n, w)) ∧
    (∃ (rq : Requester) (v : Word) (n : Nat) (s : State) (w : State), ∀ (u : State) (kind : Nat) (inst : Nat), u = s.store Reg.RNG_FT_CTRL v →
      kind = u.regF Reg.RNG_FT_TARGET 31 28 → inst = u.regF Reg.RNG_FT_TARGET 11 0 → s.stopped = false ∧ s.writes rq Reg.RNG_FT_CTRL = true ∧
      u.ft.queue.length < 16 ∧ ftCount kind ≠ 0 ∧ (inst = 0xFFF ∨ inst < ftCount kind) ∧
      u.ftContent (u.regF Reg.RNG_FT_CONTENT 15 0) kind = none ∧ u.draw = (n, w)) ∧
    (∃ (rq : Requester) (v : Word) (r : FtReq) (s : State), ∀ (u : State) (n : Nat), u = s.store Reg.RNG_FT_CTRL v →
      n = u.regF Reg.RNG_FT_CTRL 15 8 → s.stopped = false ∧ s.writes rq Reg.RNG_FT_CTRL = true ∧ u.ft.run = none ∧
      u.ft.queue.find? (fun r => decide (r.num = n)) = some r) ∧
    (∃ (rq : Requester) (v : Word) (x : FtRun) (s : State), ∀ (u : State) (n : Nat), u = s.store Reg.RNG_FT_CTRL v →
      n = u.regF Reg.RNG_FT_CTRL 15 8 → s.stopped = false ∧ s.writes rq Reg.RNG_FT_CTRL = true ∧ u.ft.run = some x ∧ x.req.num = n) ∧
    (∃ (r : FtReq) (s : State), s.stopped = false ∧ s.ft.run = none ∧ s.ft.queue.find? (fun r => !r.deferred) = some r ∧ s.ftPick r = none) ∧
    (∃ (tj : BitVec 16) (r : FtReq) (i : Nat) (k : Package) (s : State), s.stopped = false ∧ s.ft.run = none ∧
      s.ft.queue.find? (fun r => !r.deferred) = some r ∧ s.ftPick r = some i ∧ s.ftContent r.content r.kind = some k ∧ k.minTj ≠ 0x8000 ∧
      signed16 tj.toNat < signed16 k.minTj) ∧
    (∃ (r : FtReq) (i : Nat) (k : Package) (x : UnitKind) (s : State), s.stopped = false ∧ s.ft.run = none ∧
      s.ft.queue.find? (fun r => !r.deferred) = some r ∧ s.ftPick r = some i ∧ s.ftContent r.content r.kind = some k ∧ k.minTj = 0x8000 ∧
      ftUnit r.kind = some x ∧ r.kind ≠ 6) ∧
    (∃ (num : BitVec 8) (r : FtReq) (s : State), s.stopped = false ∧ s.ft.queue.find? (fun r => decide (r.num = num.toNat) && r.deferred) = some r ∧
      r.expiry ≠ 0 ∧ r.queuedAt + r.expiry * 100000 ≤ s.lcc) ∧
    (∃ (x : FtRun) (s : State), s.stopped = false ∧ s.ft.run = some x ∧ x.nominalDone = false) ∧
    (∃ (rows : BitVec 16) (x : FtRun) (n : Nat) (s : State), ∀ (st : Nat) (a : Nat), st = s.stackOf (poolUnit x.inst).base →
      a = Reg.HUB_STACK_STATUS (st / 3) (st % 3) → s.stopped = false ∧ s.ft.run = some x ∧ x.nominalDone = true ∧ x.fail = some n ∧
      x.req.kind = 5 ∧ x.again = false ∧ rows ≠ 0) ∧
    (∃ (x : FtRun) (s : State), s.stopped = false ∧ s.ft.run = some x ∧ x.nominalDone = true ∧ x.fail = none) := by
  refine ⟨?_, ?_, ?_, ?_, ?_, ?_, ?_, ?_, ?_, ?_, ?_, ?_⟩
  · exact by
      refine ⟨.fm 0, 1, pkg 0x8000, ((tested [] none 0x8000).setRegN Reg.RNG_FT_TARGET 0x1000001F).setRegN Reg.RNG_FT_CONTENT 3, ?_⟩
      rintro u kind inst content rfl rfl rfl rfl
      exact ⟨by decide +kernel, by decide +kernel, by decide +kernel, by decide +kernel, by decide +kernel, by decide +kernel⟩
  · exact by
      refine ⟨.fm 0, 1, ((base.setRegN Reg.RNG_FT_TARGET 0x10000020).store Reg.RNG_FT_CTRL 1).draw.1, base.setRegN Reg.RNG_FT_TARGET 0x10000020, ((base.setRegN Reg.RNG_FT_TARGET 0x10000020).store Reg.RNG_FT_CTRL 1).draw.2, ?_⟩
      rintro u kind inst rfl rfl rfl
      exact ⟨by decide +kernel, by decide +kernel, by decide +kernel, by exact pair_eq rfl⟩
  · exact by
      refine ⟨.fm 0, 1, ((base.setRegN Reg.RNG_FT_TARGET 0x10000FFF).store Reg.RNG_FT_CTRL 1).draw.1, base.setRegN Reg.RNG_FT_TARGET 0x10000FFF, ((base.setRegN Reg.RNG_FT_TARGET 0x10000FFF).store Reg.RNG_FT_CTRL 1).draw.2, ?_⟩
      rintro u kind inst rfl rfl rfl
      exact ⟨by decide +kernel, by decide +kernel, by decide +kernel, by decide +kernel, by decide +kernel, by decide +kernel, by exact pair_eq rfl⟩
  · exact by
      refine ⟨.fm 0, 0x902, ftr 1 0 true, tested [ftr 1 0 true] none 0x8000, ?_⟩
      rintro u n rfl rfl
      exact ⟨by decide +kernel, by decide +kernel, by decide +kernel, by decide +kernel⟩
  · exact by
      refine ⟨.fm 0, 0x902, ftrun 1 0 false none, tested [] (some (ftrun 1 0 false none)) 0x8000, ?_⟩
      rintro u n rfl rfl
      exact ⟨by decide +kernel, by decide +kernel, by decide +kernel, by decide +kernel⟩
  · exact ⟨ftr 1 0 false, own .me 0 (tested [ftr 1 0 false] none 0x8000), by decide +kernel, by decide +kernel, by decide +kernel, by decide +kernel⟩
  · exact ⟨0xFFFF, ftr 1 31 false, 31, pkg 0, tested [ftr 1 31 false] none 0, by decide +kernel, by decide +kernel, by decide +kernel, by decide +kernel, by decide +kernel, by decide +kernel, by decide +kernel⟩
  · exact ⟨ftr 1 31 false, 31, pkg 0x8000, .me, tested [ftr 1 31 false] none 0x8000, by decide +kernel, by decide +kernel, by decide +kernel, by decide +kernel, by decide +kernel, by decide +kernel, by decide +kernel, by decide +kernel⟩
  · exact ⟨9, ftr 1 0 true, { tested [ftr 1 0 true] none 0x8000 with lcc := 100000 }, by decide +kernel, by decide +kernel, by decide +kernel, by decide +kernel⟩
  · exact ⟨ftrun 1 0 false none, tested [] (some (ftrun 1 0 false none)) 0x8000, by decide +kernel, by decide +kernel, by decide +kernel⟩
  · exact by
      refine ⟨1, ftrun 5 1663 true (some 3), 3, tested [] (some (ftrun 5 1663 true (some 3))) 0x8000, ?_⟩
      rintro st a rfl rfl
      exact ⟨by decide +kernel, by decide +kernel, by decide +kernel, by decide +kernel, by decide +kernel, by decide +kernel, by decide +kernel⟩
  · exact ⟨ftrun 5 1663 true none, tested [] (some (ftrun 5 1663 true none)) 0x8000, by decide +kernel, by decide +kernel, by decide +kernel, by decide +kernel⟩
/-- A state in which blocks sleep clock-gated or power-gated. -/
def asleep (l : List Nat) (v : Nat) (s : State) : State := l.foldl (fun s b => s.setSleep b v) s
/-- A paramed state whose parameter set is zeros. -/
def paramed (s : State) : State := s.modBoot (fun b => { b with active := List.replicate 64 0 })

/-- What Obligations.PowerStates supposes can be met. -/
theorem witness_PowerStates :
    (∃ (b : Fin 512) (s : State), s.stopped = false ∧ b.val < 256 ∧ (unitOfKey b.val).2 < (unitOfKey b.val).1.count ∧
      s.unitIdle (unitOfKey b.val).1 (unitOfKey b.val).2 = true ∧ s.sleepOf b.val = 0 ∧ s.power.waking.contains b.val = false) ∧
    (∃ (k : UnitKind) (i : Fin 64) (s : State), s.stopped = false ∧ i.val < k.count ∧ s.owner k i.val = none ∧ s.unitIdle k i.val = true ∧
      s.sleepOf (k.key i.val) ≤ 1 ∧ s.power.waking.contains (k.key i.val) = false ∧ s.param 10 = 0) ∧
    (∃ (k : Fin 4) (s : State), s.stopped = false ∧
      (((List.range 8).map (fun i => 8 * k.val + i) ++ (List.range 16).map (fun i => 64 + 16 * k.val + i)).all (fun b => decide (s.sleepOf b = 2) && !s.power.waking.contains b)) = true ∧
      s.power.waking.contains (pllKey k.val) = false ∧ s.t0.owner.any (fun e => decide (e.1 / 16384 = k.val)) = false) ∧
    (∃ (b : Fin 512) (s : State), s.stopped = false ∧ 256 ≤ b.val ∧ s.power.waking.contains b.val = true) ∧
    (∃ (rq : Requester) (s : State), s.stopped = false ∧ s.writes rq Reg.RNG_PWR_CTRL = true ∧ s.regF Reg.RNG_PWR_STATE 31 29 % 2 = 0 ∧
      s.regF Reg.RNG_PWR_STATE 31 30 ≠ 2 ∧ (List.range 32).all (fun p => decide (s.pstate p = .free)) = true ∧
      (List.range 12).all (fun l => decide (s.link l = 0)) = true) ∧
    (∃ (rq : Requester) (s : State), s.stopped = false ∧ s.writes rq Reg.RNG_PWR_CTRL = true ∧ s.regF Reg.RNG_PWR_STATE 31 29 % 2 = 0 ∧
      s.regF Reg.RNG_PWR_STATE 31 30 ≠ 2 ∧
      ((List.range 32).all (fun p => decide (s.pstate p = .free)) = false ∨ (List.range 12).all (fun l => decide (s.link l = 0)) = false)) ∧
    (∃ (s : State), s.stopped = false ∧ s.regF Reg.RNG_PWR_STATE 29 29 = 1 ∧ s.regF Reg.RNG_PWR_STATE 31 30 ≠ 2) ∧
    (∃ (rq : Requester) (s : State), s.stopped = false ∧ s.writes rq Reg.RNG_PWR_CTRL = true ∧ s.regF Reg.RNG_PWR_STATE 31 30 = 2) ∧
    (∃ (s : State), s.stopped = false ∧ s.regF Reg.RNG_PWR_STATE 31 29 = 5) ∧
    
      (∃ (fast : BitVec 16) (sustained : BitVec 16) (tj : List (BitVec 16)) (n : Nat) (x : Int) (s : State), ∀ (u : State), u = (((s.setRegF Reg.RNG_PWR_NOW 31 16 fast.toNat).setRegF Reg.RNG_PWR_NOW 15 0 sustained.toNat).setRegF Reg.RNG_TJ 31 16 (x % 65536).toNat).setRegF Reg.RNG_TJ 5 0 n →
      s.stopped = false ∧ hottest tj (List.range 80) = (n, x) ∧ s.boot.active = []) ∧
    
      (∃ (fast : BitVec 16) (sustained : BitVec 16) (tj : List (BitVec 16)) (n : Nat) (x : Int) (s : State), ∀ (u : State) (v : State), u = (((s.setRegF Reg.RNG_PWR_NOW 31 16 fast.toNat).setRegF Reg.RNG_PWR_NOW 15 0 sustained.toNat).setRegF Reg.RNG_TJ 31 16 (x % 65536).toNat).setRegF Reg.RNG_TJ 5 0 n →
      v = (List.range 10).foldl (fun s k => s.heatTick k (hottest tj ((List.range 8).map (8 * k + ·))).1 (hottest tj ((List.range 8).map (8 * k + ·))).2) u →
      s.stopped = false ∧ hottest tj (List.range 80) = (n, x) ∧ u.boot.active ≠ []) := by
  refine ⟨?_, ?_, ?_, ?_, ?_, ?_, ?_, ?_, ?_, ?_, ?_⟩
  · exact ⟨207, base, by decide +kernel, by decide +kernel, by decide +kernel, by decide +kernel, by decide +kernel, by decide +kernel⟩
  · exact ⟨.row, 15, base, by decide +kernel, by decide +kernel, by decide +kernel, by decide +kernel, by decide +kernel, by decide +kernel, by decide +kernel⟩
  · exact ⟨3, asleep ((List.range 8).map (fun i => 24 + i) ++ (List.range 16).map (fun i => 112 + i)) 2 base, by decide +kernel, by decide +kernel, by decide +kernel, by decide +kernel⟩
  · exact ⟨260, { base with power := { base.power with waking := [260] } }, by decide +kernel, by decide +kernel, by decide +kernel⟩
  · exact ⟨.fm 0, State.reset, by decide +kernel, by decide +kernel, by decide +kernel, by decide +kernel, by decide +kernel, by decide +kernel⟩
  · exact ⟨.fm 0, base, by decide +kernel, by decide +kernel, by decide +kernel, by decide +kernel, by exact .inl (by decide +kernel)⟩
  · exact ⟨base.setRegF Reg.RNG_PWR_STATE 29 29 1, by decide +kernel, by decide +kernel, by decide +kernel⟩
  · exact ⟨.fm 0, base.setRegF Reg.RNG_PWR_STATE 31 30 2, by decide +kernel, by decide +kernel, by decide +kernel⟩
  · exact ⟨base.setRegF Reg.RNG_PWR_STATE 31 29 5, by decide +kernel, by decide +kernel⟩
  · exact by
      refine ⟨0, 0, [0x5F00], (hottest [0x5F00] (List.range 80)).1, (hottest [0x5F00] (List.range 80)).2, base, ?_⟩
      rintro u rfl
      exact ⟨by decide +kernel, by rfl, by decide +kernel⟩
  · exact by
      refine ⟨0, 0, [0x5F00], (hottest [0x5F00] (List.range 80)).1, (hottest [0x5F00] (List.range 80)).2, paramed base, ?_⟩
      rintro u v rfl rfl
      exact ⟨by decide +kernel, by rfl, by decide +kernel⟩
/-- The entry of an empty stage of a kind. -/
def stageEntry (k : Nat) : List Nat :=
  [0, 16, 0, 0, 0, 0, 0, 0, k, 0, 0, 0, 0, 0, 0, 0] ++ (digestBytes 0xE3B0C44298FC1C149AFBF4C8996FB92427AE41E4649B934CA495991B7852B855).take 16
/-- An image whose stages are all empty (their digest is that of no bytes, as FIPS 180-4 has it). -/
def img : List Nat :=
  [1, 0, 0x4E, 0xB6, 1, 0, 0, 0, 0xA1, 0, 0, 5, 0, 0, 0, 0] ++ [1, 2, 3, 4, 6].flatMap stageEntry ++ List.replicate 864 0
    ++ [1, 2, 3, 4, 6].flatMap (fun _ => (digestBytes 0xE3B0C44298FC1C149AFBF4C8996FB92427AE41E4649B934CA495991B7852B855).drop 16) ++ List.replicate 2976 0
/-- A part that has not booted: its fuses know the key of 60 zero bytes, and its NOR holds images. -/
def unbooted (images : Tbl (List Nat)) (trial : Option Nat) : State :=
  { State.reset with fuses := { Fuses.blank with imageKeys := #v[sha256 (List.replicate 60 0), 0] },
                     boot := { Boot.reset with images := images, trial := trial } }
/-- A boot that finds the signatures good. -/
def bootRun : BootRun := ⟨[], [true, true], true, [], 0, [], []⟩

/-- What Obligations.ResetsAndBoot supposes can be met. -/
theorem witness_ResetsAndBoot :
    (∃ (s : State), s.power.off = false) ∧
    (∃ (s : State), s.power.off = true) ∧
    (∃ (rq : Requester) (s : State), s.stopped = false ∧ s.writes rq Reg.RNG_RESET_CTRL = true) ∧
    
      (∃ (run : BootRun) (s : State), ∀ (u : State) (a : Nat), u = (((s.modBoot (fun b => { b with started := true })).nextIncarnation.modBoot (fun b => { b with trial := none, trialCount := 0, trialReason := 0 })).setRegF Reg.RNG_RESET_CAUSE 9 9 0) →
      a = s.boot.slot → s.stopped = false ∧ s.boot.started = false ∧ s.boot.trial = none ∧
      (s.modBoot (fun b => { b with started := true })).nextIncarnation.imageCheck ((s.modBoot (fun b => { b with started := true })).nextIncarnation.image a) (run.signed.getD a false) = 0) ∧
    
      (∃ (run : BootRun) (s : State), ∀ (n : State) (u : State) (a : Nat) (r : Nat), n = (s.modBoot (fun b => { b with started := true })).nextIncarnation →
      u = (n.modBoot (fun b => { b with trial := none, trialCount := 0, trialReason := 0 })).setRegF Reg.RNG_RESET_CAUSE 9 9 0 →
      a = s.boot.slot → r = n.imageCheck (n.image a) (run.signed.getD a false) → s.stopped = false ∧ s.boot.started = false ∧
      s.boot.trial = none ∧ r ≠ 0 ∧ n.imageCheck (n.image (1 - a)) (run.signed.getD (1 - a) false) = 0) ∧
    
      (∃ (run : BootRun) (s : State), ∀ (n : State) (u : State) (r0 : Nat) (r1 : Nat), n = (s.modBoot (fun b => { b with started := true })).nextIncarnation →
      u = (n.modBoot (fun b => { b with trial := none, trialCount := 0, trialReason := 0 })).setRegF Reg.RNG_RESET_CAUSE 9 9 0 →
      r0 = n.imageCheck (n.image 0) (run.signed.getD 0 false) → r1 = n.imageCheck (n.image 1) (run.signed.getD 1 false) → s.stopped = false ∧
      s.boot.started = false ∧ s.boot.trial = none ∧ s.boot.slot < 2 ∧ r0 ≠ 0 ∧ r1 ≠ 0) ∧
    (∃ (run : BootRun) (x : Nat) (s : State), ∀ (n : State), n = (s.modBoot (fun b => { b with started := true })).nextIncarnation →
      s.stopped = false ∧ s.boot.started = false ∧ s.boot.trial = some x ∧ s.boot.trialCount = 0 ∧
      n.imageCheck (n.image x) (run.signed.getD x false) = 0) ∧
    (∃ (run : BootRun) (x : Nat) (s : State), ∀ (n : State) (r : Nat), n = (s.modBoot (fun b => { b with started := true })).nextIncarnation →
      r = n.imageCheck (n.image x) (run.signed.getD x false) → s.stopped = false ∧ s.boot.started = false ∧ s.boot.trial = some x ∧
      s.boot.trialCount = 0 ∧ r ≠ 0) ∧
    (∃ (s : State), s.stopped = false ∧ s.boot.started = true) ∧
    (∃ (s : State), s.stopped = false ∧ s.boot.onTrial = true ∧ s.boot.done = false ∧ (s.boot.trialReason ≠ 0 ∨ 1000000000 < s.lcc)) ∧
    (∃ (rq : Requester) (v : Word) (k : UnitKind) (s : State), ∀ (u : State) (i : Nat), u = s.store Reg.RNG_RESET_CTRL v →
      i = u.regF Reg.RNG_RESET_CTRL 5 0 → s.stopped = false ∧ s.writes rq Reg.RNG_RESET_CTRL = true ∧
      resetKind (u.regF Reg.RNG_RESET_CTRL 10 8) = some k ∧ i < k.count ∧ u.owner k i = none) := by
  refine ⟨?_, ?_, ?_, ?_, ?_, ?_, ?_, ?_, ?_, ?_, ?_⟩
  · exact ⟨base, by decide +kernel⟩
  · exact ⟨{ base with power := { base.power with off := true } }, by decide +kernel⟩
  · exact ⟨.fm 0, base, by decide +kernel, by decide +kernel⟩
  · exact by
      refine ⟨bootRun, unbooted [(0, img)] none, ?_⟩
      rintro u a rfl rfl
      exact ⟨by decide +kernel, by decide +kernel, by decide +kernel, by decide +kernel⟩
  · exact by
      refine ⟨bootRun, unbooted [(1, img)] none, ?_⟩
      rintro n u a r rfl rfl rfl rfl
      exact ⟨by decide +kernel, by decide +kernel, by decide +kernel, by decide +kernel, by decide +kernel⟩
  · exact by
      refine ⟨bootRun, unbooted [] none, ?_⟩
      rintro n u r0 r1 rfl rfl rfl rfl
      exact ⟨by decide +kernel, by decide +kernel, by decide +kernel, by decide +kernel, by decide +kernel, by decide +kernel⟩
  · exact by
      refine ⟨bootRun, 1, unbooted [(1, img)] (some 1), ?_⟩
      rintro n rfl
      exact ⟨by decide +kernel, by decide +kernel, by decide +kernel, by decide +kernel, by decide +kernel⟩
  · exact by
      refine ⟨bootRun, 1, unbooted [(0, img)] (some 1), ?_⟩
      rintro n r rfl rfl
      exact ⟨by decide +kernel, by decide +kernel, by decide +kernel, by decide +kernel, by decide +kernel⟩
  · exact ⟨base.modBoot (fun b => { b with started := true }), by decide +kernel, by decide +kernel⟩
  · exact ⟨base.modBoot (fun b => { b with onTrial := true, trialReason := 1 }), by decide +kernel, by decide +kernel, by decide +kernel, by exact .inl (by decide +kernel)⟩
  · exact by
      refine ⟨.fm 0, 0x40F, .row, base, ?_⟩
      rintro u i rfl rfl
      exact ⟨by decide +kernel, by decide +kernel, by decide +kernel, by decide +kernel, by decide +kernel⟩
/-- A port whose CXL_STATUS has a field at a value. -/
def cxl (hi lo v : Nat) : State := base.setRegF (Reg.CXL_STATUS 1) hi lo v

/-- What Obligations.HostPortsUpAndDown supposes can be met. -/
theorem witness_HostPortsUpAndDown :
    (∃ (h : Fin 2) (why : Fin 3) (s : State), s.stopped = false ∧ why ≠ 0 ∧ s.regF (Reg.CXL_STATUS h.val) 31 29 ≠ 3) ∧
    (∃ (h : Fin 2) (s : State), s.stopped = false ∧ s.regF (Reg.CXL_STATUS h.val) 31 29 = 3) ∧
    (∃ (h : Fin 2) (s : State), s.stopped = false ∧ s.boot.done = true ∧ s.regF (Reg.CXL_STATUS h.val) 31 29 ≠ 3) ∧
    (∃ (h : Fin 2) (width : Fin 16) (s : State), s.stopped = false ∧ s.boot.recovery = false ∧ s.regF (Reg.CXL_STATUS h.val) 31 29 ≤ 1 ∧
      (width = 2 ∨ width = 4 ∨ width = 8)) ∧
    (∃ (h : Fin 2) (s : State), s.stopped = false ∧ s.regF (Reg.CXL_STATUS h.val) 31 29 ≠ 3 ∧ s.regF (Reg.CXL_STATUS h.val) 28 28 = 1) ∧
    (∃ (h : Fin 2) (s : State), s.stopped = false ∧ s.regF (Reg.CXL_STATUS h.val) 31 29 ≠ 3 ∧ s.regF (Reg.CXL_STATUS h.val) 28 28 ≠ 1) ∧
    (∃ (h : Fin 2) (s : State), s.stopped = false ∧ s.regF (Reg.CXL_STATUS h.val) 31 29 = 3) ∧
    (∃ (h : Fin 2) (s : State), s.stopped = false ∧ s.regF (Reg.CXL_STATUS h.val) 27 27 ≠ 0) ∧
    (∃ (row : BitVec 5) (s : State), s.stopped = false ∧ row.toNat < 16) ∧
    (∃ (k : Fin 10) (row : BitVec 5) (s : State), ∀ (u : State), u = (if s.sclRuns k.val then s.count (Reg.SCL_FIX_PN_REPLAY k.val) 1 else s) →
      s.stopped = false ∧ 16 ≤ row.toNat) := by
  refine ⟨?_, ?_, ?_, ?_, ?_, ?_, ?_, ?_, ?_, ?_⟩
  · exact ⟨1, 2, base, by decide +kernel, by decide +kernel, by decide +kernel⟩
  · exact ⟨1, cxl 31 29 3, by decide +kernel, by decide +kernel⟩
  · exact ⟨1, base.modBoot (fun b => { b with done := true }), by decide +kernel, by decide +kernel, by decide +kernel⟩
  · exact ⟨1, 8, base, by decide +kernel, by decide +kernel, by decide +kernel, by decide +kernel⟩
  · exact ⟨1, cxl 28 28 1, by decide +kernel, by decide +kernel, by decide +kernel⟩
  · exact ⟨1, base, by decide +kernel, by decide +kernel, by decide +kernel⟩
  · exact ⟨1, cxl 31 29 3, by decide +kernel, by decide +kernel⟩
  · exact ⟨1, cxl 27 27 1, by decide +kernel, by decide +kernel⟩
  · exact ⟨15, base, by decide +kernel, by decide +kernel⟩
  · exact by
      refine ⟨9, 31, base, ?_⟩
      rintro u rfl
      exact ⟨by decide +kernel, by decide +kernel⟩
/-- A fused part whose boot state is changed. -/
def fused (f : Boot → Boot) : State :=
  { base with fuses := { Fuses.blank with imageKeys := #v[sha256 (List.replicate 60 0), 0], debugKey := sha256 (List.replicate 60 0), floor := 1 }, boot := f base.boot }
/-- A parameter set of a version whose words are at the least or the greatest value they may have. -/
def pset (ver : Nat) : List Nat := [ver, 200, 50, 1, 480, 840, 16, 1000, 100000, 1000, 15, 1, 7, 30] ++ List.replicate 50 0
/-- A parameter object with the key of 60 zero bytes. -/
def pobj (ver : Nat) : List Nat := wordBytes ([0xB64C0001, 0xA1] ++ List.replicate 14 0 ++ pset ver) ++ List.replicate 3664 0
/-- An image slot whose image has a security version. -/
def slot1 (ver : Nat) : Boot → Boot := fun b => { b with good := [(1, true)], images := [(1, [0, 0, 0, 0, 0, 0, 0, 0, 0xA1, ver])] }
/-- A state at a debug level. -/
def level (n : Nat) : State := base.setRegF Reg.RNG_DBG_STATUS 1 0 n
/-- The bytes of a token for a challenge of 5. -/
def tokenBytes (lvl : Nat) : List Nat := wordBytes ([0xB64D0001, 0, 0, 5, 0, lvl] ++ List.replicate 10 0) ++ List.replicate 3664 0
/-- A part with a challenge of 5. -/
def challenged : State := (fused id).setReg64 Reg.RNG_DBG_CHALLENGE_LO 5

/-- What Obligations.ParametersAndTrials supposes can be met. -/
theorem witness_ParametersAndTrials :
    (∃ (rq : Requester) (s : State), s.stopped = false ∧ s.writes rq Reg.CFG_SWAP = true ∧ s.boot.checking.isSome = true) ∧
    (∃ (rq : Requester) (s : State), s.stopped = false ∧ s.writes rq Reg.CFG_SWAP = true ∧ s.boot.checking = none ∧ s.boot.shadow = none) ∧
    
      (∃ (rq : Requester) (new : List Nat) (s : State), ∀ (u : State), u = (((s.modBoot (fun b => { b with active := new })).setShadow (some s.boot.active)).setRegN Reg.CFG_ACTIVE_VER (wordAt new 0)).setRegF Reg.CFG_PARAM_STATUS 29 27 0 →
      s.stopped = false ∧ s.writes rq Reg.CFG_SWAP = true ∧ s.boot.checking = none ∧ s.boot.shadow = some new) ∧
    (∃ (bytes : List Nat) (tr : Transport) (id : Nat) (s : State), ∀ (ws : List Nat) (set : List Nat) (uid : Nat), ws = leWords (bytes.take 320) →
      set = ws.drop 16 → uid = wordAt ws 2 + wordAt ws 3 * 2 ^ 32 → s.stopped = false ∧ s.boot.checking = some (bytes, tr, id) ∧
      wordAt ws 0 = 0xB64C0001 ∧ (s.imageKey ((bytes.drop 320).take hssKeyBytes)).isSome = true ∧ wordAt ws 1 % 256 = 0xA1 ∧
      (uid = 0 ∨ uid = s.fuses.uid) ∧ (List.range 64).all (paramOk set) = true ∧ s.boot.shadowVer < wordAt set 0 ∧
      wordAt s.boot.active 0 < wordAt set 0) ∧
    (∃ (signed : Bool) (bytes : List Nat) (tr : Transport) (id : Nat) (s : State), s.stopped = false ∧ s.boot.checking = some (bytes, tr, id) ∧
      (signed = false ∨ (s.imageKey ((bytes.drop 320).take hssKeyBytes)).isNone = true)) ∧
    (∃ (s : State), s.stopped = false ∧ s.boot.checking = none) ∧
    (∃ (rq : Requester) (v : Word) (s : State), ∀ (u : State), u = s.store Reg.CFG_IMAGE_CTRL v → s.stopped = false ∧
      s.writes rq Reg.CFG_IMAGE_CTRL = true ∧ u.regF Reg.CFG_IMAGE_CTRL 4 4 = u.boot.slot) ∧
    (∃ (rq : Requester) (v : Word) (s : State), ∀ (u : State) (slot : Nat), u = s.store Reg.CFG_IMAGE_CTRL v → slot = u.regF Reg.CFG_IMAGE_CTRL 4 4 →
      s.stopped = false ∧ s.writes rq Reg.CFG_IMAGE_CTRL = true ∧ slot ≠ u.boot.slot ∧ Tbl.get (fun _ => false) u.boot.good slot = false) ∧
    (∃ (rq : Requester) (v : Word) (s : State), ∀ (u : State) (slot : Nat), u = s.store Reg.CFG_IMAGE_CTRL v → slot = u.regF Reg.CFG_IMAGE_CTRL 4 4 →
      s.stopped = false ∧ s.writes rq Reg.CFG_IMAGE_CTRL = true ∧ slot ≠ u.boot.slot ∧ Tbl.get (fun _ => false) u.boot.good slot = true ∧
      (u.image slot).getD 9 0 < u.fuses.floor) ∧
    (∃ (rq : Requester) (v : Word) (s : State), ∀ (u : State) (slot : Nat), u = s.store Reg.CFG_IMAGE_CTRL v → slot = u.regF Reg.CFG_IMAGE_CTRL 4 4 →
      s.stopped = false ∧ s.writes rq Reg.CFG_IMAGE_CTRL = true ∧ slot ≠ u.boot.slot ∧ Tbl.get (fun _ => false) u.boot.good slot = true ∧
      u.fuses.floor ≤ (u.image slot).getD 9 0) ∧
    (∃ (rq : Requester) (n : Nat) (s : State) (u : State), s.stopped = false ∧ s.writes rq Reg.RNG_DBG_CTRL = true ∧ s.draw = (n, u)) ∧
    (∃ (rq : Requester) (s : State), s.stopped = false ∧ s.writes rq Reg.RNG_DBG_CTRL = true ∧ s.debugLevel = 2) ∧
    (∃ (rq : Requester) (s : State), s.stopped = false ∧ s.writes rq Reg.RNG_DBG_CTRL = true ∧ s.debugLevel = 3) ∧
    (∃ (token : List Byte) (signed : Bool) (s : State), s.stopped = false ∧ s.tokenOk (byteNats token) signed = true) ∧
    (∃ (token : List Byte) (signed : Bool) (s : State), s.stopped = false ∧ s.tokenOk (byteNats token) signed = false) := by
  refine ⟨?_, ?_, ?_, ?_, ?_, ?_, ?_, ?_, ?_, ?_, ?_, ?_, ?_, ?_, ?_⟩
  · exact ⟨.fm 0, fused (fun b => { b with checking := some ([], .mctp, 0) }), by decide +kernel, by decide +kernel, by decide +kernel⟩
  · exact ⟨.fm 0, base, by decide +kernel, by decide +kernel, by decide +kernel, by decide +kernel⟩
  · exact by
      refine ⟨.fm 0, pset 3, fused (fun b => { b with shadow := some (pset 3) }), ?_⟩
      rintro u rfl
      exact ⟨by decide +kernel, by decide +kernel, by decide +kernel, by decide +kernel⟩
  · exact by
      refine ⟨pobj 3, .mctp, 9, fused (fun b => { b with checking := some (pobj 3, .mctp, 9), shadowVer := 2, active := pset 2 }), ?_⟩
      rintro ws set uid rfl rfl rfl
      exact ⟨by decide +kernel, by decide +kernel, by decide +kernel, by decide +kernel, by decide +kernel, by exact .inl (by decide +kernel), by decide +kernel, by decide +kernel, by decide +kernel⟩
  · exact ⟨false, pobj 3, .mctp, 9, fused (fun b => { b with checking := some (pobj 3, .mctp, 9) }), by decide +kernel, by decide +kernel, by exact .inl rfl⟩
  · exact ⟨base, by decide +kernel, by decide +kernel⟩
  · exact by
      refine ⟨.fm 0, 1, base, ?_⟩
      rintro u rfl
      exact ⟨by decide +kernel, by decide +kernel, by decide +kernel⟩
  · exact by
      refine ⟨.fm 0, 0x11, base, ?_⟩
      rintro u slot rfl rfl
      exact ⟨by decide +kernel, by decide +kernel, by decide +kernel, by decide +kernel⟩
  · exact by
      refine ⟨.fm 0, 0x11, fused (slot1 0), ?_⟩
      rintro u slot rfl rfl
      exact ⟨by decide +kernel, by decide +kernel, by decide +kernel, by decide +kernel, by decide +kernel⟩
  · exact by
      refine ⟨.fm 0, 0x11, fused (slot1 1), ?_⟩
      rintro u slot rfl rfl
      exact ⟨by decide +kernel, by decide +kernel, by decide +kernel, by decide +kernel, by decide +kernel⟩
  · exact ⟨.fm 0, base.draw.1, base, base.draw.2, by decide +kernel, by decide +kernel, by rfl⟩
  · exact ⟨.fm 0, level 2, by decide +kernel, by decide +kernel, by decide +kernel⟩
  · exact ⟨.fm 0, level 3, by decide +kernel, by decide +kernel, by decide +kernel⟩
  · exact ⟨(tokenBytes 3).map (BitVec.ofNat 8), true, challenged, by decide +kernel, by decide +kernel⟩
  · exact ⟨(tokenBytes 3).map (BitVec.ofNat 8), false, challenged, by decide +kernel, by decide +kernel⟩
/-- A fused part with an open transfer. -/
def moving (kind : Nat) (x : Xfer) : State := challenged.setXfer kind (some x)

/-- What Obligations.ObjectTransfers supposes can be met. -/
theorem witness_ObjectTransfers :
    (∃ (tr : Transport) (kind : BitVec 8) (s : State), s.stopped = false ∧ (s.boot.recovery = false ∨ ∀ x, tr ≠ .doe x) ∧ objKind kind.toNat = false) ∧
    (∃ (tr : Transport) (kind : BitVec 8) (s : State), s.stopped = false ∧ (s.boot.recovery = false ∨ ∀ x, tr ≠ .doe x) ∧ objKind kind.toNat = true ∧
      (s.xfer kind.toNat).isSome = true) ∧
    (∃ (tr : Transport) (kind : BitVec 8) (total : Word) (s : State), s.stopped = false ∧ (s.boot.recovery = false ∨ ∀ x, tr ≠ .doe x) ∧
      objKind kind.toNat = true ∧ s.xfer kind.toNat = none ∧ objLength kind.toNat total.toNat = false) ∧
    (∃ (tr : Transport) (kind : BitVec 8) (total : Word) (s : State), ∀ (u : State), u = s.setXfer kind.toNat (some ⟨total.toNat, [], s.lcc⟩) →
      s.stopped = false ∧ (s.boot.recovery = false ∨ ∀ x, tr ≠ .doe x) ∧ objKind kind.toNat = true ∧ s.xfer kind.toNat = none ∧
      objLength kind.toNat total.toNat = true) ∧
    (∃ (tr : Transport) (kind : BitVec 8) (offset : Word) (data : List Byte) (x : Xfer) (s : State), s.stopped = false ∧
      (s.boot.recovery = false ∨ ∀ x, tr ≠ .doe x) ∧ s.xfer kind.toNat = some x ∧ data.length ≤ 8192 ∧ offset.toNat = x.bytes.length ∧
      x.bytes.length + data.length ≤ x.total) ∧
    (∃ (tr : Transport) (kind : BitVec 8) (offset : Word) (data : List Byte) (x : Xfer) (s : State), s.stopped = false ∧
      (s.boot.recovery = false ∨ ∀ x, tr ≠ .doe x) ∧ s.xfer kind.toNat = some x ∧ data.length ≤ 8192 ∧ offset.toNat ≠ x.bytes.length) ∧
    (∃ (tr : Transport) (kind : BitVec 8) (s : State), s.stopped = false ∧ (s.boot.recovery = false ∨ ∀ x, tr ≠ .doe x) ∧
      (s.xfer kind.toNat).isSome = true) ∧
    (∃ (tr : Transport) (kind : BitVec 8) (s : State), s.stopped = false ∧ (s.boot.recovery = false ∨ ∀ x, tr ≠ .doe x) ∧ s.xfer kind.toNat = none) ∧
    (∃ (tr : Transport) (kind : BitVec 8) (s : State), s.stopped = false ∧ (s.boot.recovery = false ∨ ∀ x, tr ≠ .doe x) ∧ s.xfer kind.toNat = none) ∧
    (∃ (tr : Transport) (kind : BitVec 8) (x : Xfer) (s : State), s.stopped = false ∧ (s.boot.recovery = false ∨ ∀ x, tr ≠ .doe x) ∧
      s.xfer kind.toNat = some x ∧ x.bytes.length ≠ x.total) ∧
    (∃ (tr : Transport) (id : BitVec 16) (signed : Bool) (x : Xfer) (s : State), ∀ (u : State) (slot : Nat) (v : State), u = s.setXfer 1 none →
      slot = 1 - s.boot.slot →
      v = (u.modBoot (fun b => { b with images := Tbl.set (fun _ => []) b.images slot x.bytes, good := Tbl.set (fun _ => false) b.good slot true })).answerEnd tr id.toNat 1 0 0 →
      s.stopped = false ∧ (s.boot.recovery = false ∨ ∀ x, tr ≠ .doe x) ∧ s.xfer 1 = some x ∧ x.bytes.length = x.total ∧
      u.imageCheck x.bytes signed = 0) ∧
    (∃ (tr : Transport) (signed : Bool) (x : Xfer) (s : State), ∀ (u : State) (r : Nat), u = s.setXfer 1 none → r = u.imageCheck x.bytes signed →
      s.stopped = false ∧ (s.boot.recovery = false ∨ ∀ x, tr ≠ .doe x) ∧ s.xfer 1 = some x ∧ x.bytes.length = x.total ∧ r ≠ 0) ∧
    (∃ (tr : Transport) (signed : Bool) (x : Xfer) (s : State), ∀ (u : State) (r : Nat), u = s.setXfer 2 none → r = u.packageCheck x.bytes signed →
      s.stopped = false ∧ (s.boot.recovery = false ∨ ∀ x, tr ≠ .doe x) ∧ s.xfer 2 = some x ∧ x.bytes.length = x.total) ∧
    (∃ (tr : Transport) (x : Xfer) (s : State), ∀ (u : State), u = s.setXfer 3 none → s.stopped = false ∧
      (s.boot.recovery = false ∨ ∀ x, tr ≠ .doe x) ∧ s.xfer 3 = some x ∧ x.bytes.length = x.total ∧ s.boot.checking = none) ∧
    (∃ (tr : Transport) (signed : Bool) (x : Xfer) (s : State), ∀ (u : State), u = s.setXfer 4 none → s.stopped = false ∧
      (s.boot.recovery = false ∨ ∀ x, tr ≠ .doe x) ∧ s.xfer 4 = some x ∧ x.bytes.length = x.total ∧ u.tokenOk x.bytes signed = true) ∧
    (∃ (kind : Fin 4) (x : Xfer) (s : State), s.stopped = false ∧ s.xfer (kind.val + 1) = some x ∧ 1000000000 ≤ s.lcc - x.last) := by
  refine ⟨?_, ?_, ?_, ?_, ?_, ?_, ?_, ?_, ?_, ?_, ?_, ?_, ?_, ?_, ?_, ?_⟩
  · exact ⟨.mctp, 5, base, by decide +kernel, by exact .inl (by decide +kernel), by decide +kernel⟩
  · exact ⟨.mctp, 1, moving 1 ⟨64, [], 0⟩, by decide +kernel, by exact .inl (by decide +kernel), by decide +kernel, by decide +kernel⟩
  · exact ⟨.mctp, 4, 0, base, by decide +kernel, by exact .inl (by decide +kernel), by decide +kernel, by decide +kernel, by decide +kernel⟩
  · exact by
      refine ⟨.mctp, 1, 0x1000000, base, ?_⟩
      rintro u rfl
      exact ⟨by decide +kernel, by exact .inl (by decide +kernel), by decide +kernel, by decide +kernel, by decide +kernel⟩
  · exact ⟨.mctp, 1, 2, [3, 4], ⟨4, [1, 2], 0⟩, moving 1 ⟨4, [1, 2], 0⟩, by decide +kernel, by exact .inl (by decide +kernel), by decide +kernel, by decide +kernel, by decide +kernel, by decide +kernel⟩
  · exact ⟨.mctp, 1, 1, [3, 4], ⟨4, [1, 2], 0⟩, moving 1 ⟨4, [1, 2], 0⟩, by decide +kernel, by exact .inl (by decide +kernel), by decide +kernel, by decide +kernel, by decide +kernel⟩
  · exact ⟨.mctp, 1, moving 1 ⟨4, [1, 2], 0⟩, by decide +kernel, by exact .inl (by decide +kernel), by decide +kernel⟩
  · exact ⟨.mctp, 1, base, by decide +kernel, by exact .inl (by decide +kernel), by decide +kernel⟩
  · exact ⟨.mctp, 1, base, by decide +kernel, by exact .inl (by decide +kernel), by decide +kernel⟩
  · exact ⟨.mctp, 1, ⟨4, [1, 2], 0⟩, moving 1 ⟨4, [1, 2], 0⟩, by decide +kernel, by exact .inl (by decide +kernel), by decide +kernel, by decide +kernel⟩
  · exact by
      refine ⟨.mctp, 9, true, ⟨4096, img.set 9 1, 0⟩, moving 1 ⟨4096, img.set 9 1, 0⟩, ?_⟩
      rintro u slot v rfl rfl rfl
      exact ⟨by decide +kernel, by exact .inl (by decide +kernel), by decide +kernel, by decide +kernel, by decide +kernel⟩
  · exact by
      refine ⟨.mctp, true, ⟨2, [1, 2], 0⟩, moving 1 ⟨2, [1, 2], 0⟩, ?_⟩
      rintro u r rfl rfl
      exact ⟨by decide +kernel, by exact .inl (by decide +kernel), by decide +kernel, by decide +kernel, by decide +kernel⟩
  · exact by
      refine ⟨.mctp, true, ⟨2, [1, 2], 0⟩, moving 2 ⟨2, [1, 2], 0⟩, ?_⟩
      rintro u r rfl rfl
      exact ⟨by decide +kernel, by exact .inl (by decide +kernel), by decide +kernel, by decide +kernel⟩
  · exact by
      refine ⟨.mctp, ⟨3984, pobj 3, 0⟩, moving 3 ⟨3984, pobj 3, 0⟩, ?_⟩
      rintro u rfl
      exact ⟨by decide +kernel, by exact .inl (by decide +kernel), by decide +kernel, by decide +kernel, by decide +kernel⟩
  · exact by
      refine ⟨.mctp, true, ⟨3728, tokenBytes 2, 0⟩, moving 4 ⟨3728, tokenBytes 2, 0⟩, ?_⟩
      rintro u rfl
      exact ⟨by decide +kernel, by exact .inl (by decide +kernel), by decide +kernel, by decide +kernel, by decide +kernel⟩
  · exact ⟨3, ⟨4, [1, 2], 0⟩, { moving 4 ⟨4, [1, 2], 0⟩ with lcc := 1000000000 }, by decide +kernel, by decide +kernel, by decide +kernel⟩
/-- A part whose next leaf is 5. -/
def idLeafed : State := base.modBoot (fun b => { b with leaf := some 5 })
/-- What using a leaf leaves. -/
def leafUsed : State := (idLeafed.useLeaf.getD (0, base)).2
/-- A part whose host port 1 has session 7. -/
def inSession : State := { base with mgmt := { base.mgmt with sessions := [(1, some 7)] } }

/-- What Obligations.QuotesAndSessions supposes can be met. -/
theorem witness_QuotesAndSessions :
    (∃ (tr : Transport) (nonce : List Byte) (leaf : Nat) (sig : List Nat) (s : State) (u : State) (v : State), s.stopped = false ∧
      (s.boot.recovery = false ∨ ∀ x, tr ≠ .doe x) ∧ nonce.length = 32 ∧ s.useLeaf = some (leaf, u) ∧ u.sign = (sig, v)) ∧
    (∃ (tr : Transport) (nonce : List Byte) (s : State), s.stopped = false ∧ (s.boot.recovery = false ∨ ∀ x, tr ≠ .doe x) ∧ nonce.length = 32 ∧
      s.useLeaf = none) ∧
    (∃ (tr : Transport) (nonce : List Byte) (s : State), s.stopped = false ∧ (s.boot.recovery = false ∨ ∀ x, tr ≠ .doe x) ∧ nonce.length ≠ 32) ∧
    (∃ (tr : Transport) (leaf : Nat) (sig : List Nat) (s : State) (u : State) (v : State), s.stopped = false ∧
      (s.boot.recovery = false ∨ ∀ x, tr ≠ .doe x) ∧ s.useLeaf = some (leaf, u) ∧ u.sign = (sig, v)) ∧
    (∃ (tr : Transport) (s : State), s.stopped = false ∧ (s.boot.recovery = false ∨ ∀ x, tr ≠ .doe x) ∧ s.useLeaf = none) ∧
    (∃ (ct : List Byte) (s : State), ∀ (n : Nat), n = (s.mgmt.nextSession + 1) % 2 ^ 32 → s.stopped = false ∧ s.boot.recovery = false ∧
      ct.length = 1568) ∧
    (∃ (tr : Transport) (s : State), s.stopped = false ∧ (∀ x, tr ≠ .doe x)) ∧
    (∃ (h : Fin 2) (session : Word) (s : State), s.stopped = false ∧ s.boot.recovery = false ∧
      Tbl.get (fun _ => none) s.mgmt.sessions h.val = some session.toNat) ∧
    (∃ (h : Fin 2) (session : Word) (s : State), s.stopped = false ∧ s.boot.recovery = false ∧
      Tbl.get (fun _ => none) s.mgmt.sessions h.val = some session.toNat) ∧
    (∃ (h : Fin 2) (session : Word) (s : State), s.stopped = false ∧ s.boot.recovery = false ∧
      Tbl.get (fun _ => none) s.mgmt.sessions h.val ≠ some session.toNat) := by
  refine ⟨?_, ?_, ?_, ?_, ?_, ?_, ?_, ?_, ?_, ?_⟩
  · exact ⟨.mctp, List.replicate 32 0, 5, leafUsed.sign.1, idLeafed, leafUsed, leafUsed.sign.2, by decide +kernel, by exact .inl (by decide +kernel), by decide +kernel, by exact some_pair (by decide +kernel), by rfl⟩
  · exact ⟨.mctp, List.replicate 32 0, base, by decide +kernel, by exact .inl (by decide +kernel), by decide +kernel, by decide +kernel⟩
  · exact ⟨.mctp, List.replicate 31 0, base, by decide +kernel, by exact .inl (by decide +kernel), by decide +kernel⟩
  · exact ⟨.mctp, 5, leafUsed.sign.1, idLeafed, leafUsed, leafUsed.sign.2, by decide +kernel, by exact .inl (by decide +kernel), by exact some_pair (by decide +kernel), by rfl⟩
  · exact ⟨.mctp, base, by decide +kernel, by exact .inl (by decide +kernel), by decide +kernel⟩
  · exact by
      refine ⟨List.replicate 1568 0, base, ?_⟩
      rintro n rfl
      exact ⟨by decide +kernel, by decide +kernel, by decide +kernel⟩
  · exact ⟨.mctp, base, by decide +kernel, by intro x h; cases h⟩
  · exact ⟨1, 7, inSession, by decide +kernel, by decide +kernel, by decide +kernel⟩
  · exact ⟨1, 7, inSession, by decide +kernel, by decide +kernel, by decide +kernel⟩
  · exact ⟨1, 8, inSession, by decide +kernel, by decide +kernel, by decide +kernel⟩

/-- What Obligations.MailboxQueries supposes can be met. -/
theorem witness_MailboxQueries :
    (∃ (mb : Mailbox) (s : State), s.stopped = false ∧ (∀ p, mb ≠ .ld p)) ∧
    (∃ (mb : Mailbox) (s : State), s.stopped = false ∧ (∀ p, mb ≠ .ld p)) ∧
    (∃ (mb : Mailbox) (p : Fin 32) (s : State), s.stopped = false ∧ (∀ p, mb ≠ .ld p) ∧ mb.names p.val = true) ∧
    (∃ (mb : Mailbox) (p : Fin 32) (s : State), s.stopped = false ∧ (∀ p, mb ≠ .ld p) ∧ mb.names p.val = true) ∧
    (∃ (mb : Mailbox) (p : Fin 32) (s : State), s.stopped = false ∧ (∀ p, mb ≠ .ld p) ∧ mb.names p.val = false) := by
  refine ⟨?_, ?_, ?_, ?_, ?_⟩
  · exact ⟨.fm 0, base, by decide +kernel, by (intro p h; cases h)⟩
  · exact ⟨.mctp, base, by decide +kernel, by (intro p h; cases h)⟩
  · exact ⟨.fm 1, 16, base, by decide +kernel, by (intro p h; cases h), by decide +kernel⟩
  · exact ⟨.mctp, 31, base, by decide +kernel, by (intro p h; cases h), by decide +kernel⟩
  · exact ⟨.fm 0, 16, base, by decide +kernel, by (intro p h; cases h), by decide +kernel⟩
/-- Partition 0 with an extent of two blocks at the start of the pool. -/
def extended (x : ExtState) : State := { base with extents := [⟨0, ⟨0x0400000000, 0x20000000⟩, x⟩] }

/-- What Obligations.DynamicCapacity supposes can be met. -/
theorem witness_DynamicCapacity :
    
      (∃ (p : Fin 32) (accepted : List Range) (s : State), ∀ (u : State), u = { s with extents := (s.extents.filter (fun e => !(decide (e.part = p.val) && decide (e.state = .pending)) || accepted.any (fun r => decide (dpaRange r = e.range)))).map (fun e => if (decide (e.part = p.val) && decide (e.state = .pending)) = true then { e with state := .live } else e) } →
      s.stopped = false ∧
      (accepted.all (fun r => s.extents.any (fun e => decide (e.part = p.val) && decide (e.state = .pending) && decide (e.range = dpaRange r)))) = true ∧
      (s.extents.any (fun e => decide (e.part = p.val) && decide (e.state = .pending) && accepted.any (fun r => decide (dpaRange r = e.range)))) = true) ∧
    (∃ (p : Fin 32) (accepted : List Range) (s : State), s.stopped = false ∧
      (accepted.all (fun r => s.extents.any (fun e => decide (e.part = p.val) && decide (e.state = .pending) && decide (e.range = dpaRange r)))) = false) ∧
    (∃ (p : Fin 32) (ranges : List Range) (s : State), s.stopped = false ∧ ranges.all (s.releasable p.val) = true) ∧
    (∃ (mb : Mailbox) (p : Fin 32) (ranges : List Range) (s : State), ∀ (u : State), u = ranges.foldl (fun s r => s.addRange p.val r) s →
      s.stopped = false ∧ (∀ q, mb ≠ .ld q) ∧ mb.names p.val = true) ∧
    (∃ (mb : Mailbox) (p : Fin 32) (ranges : List Range) (s : State), ∀ (u : State), u = ranges.foldl (fun s r => s.offerRelease p.val r) s →
      s.stopped = false ∧ (∀ q, mb ≠ .ld q) ∧ mb.names p.val = true ∧ ranges.all (s.releasable p.val) = true) ∧
    (∃ (mb : Mailbox) (p : Fin 32) (r : Range) (s : State), s.stopped = false ∧ (∀ q, mb ≠ .ld q) ∧ mb.names p.val = true ∧
      s.releasable p.val r = true) ∧
    (∃ (mb : Mailbox) (p : Fin 32) (s : State), s.stopped = false ∧ (∀ q, mb ≠ .ld q) ∧ mb.names p.val = false) ∧
    (∃ (p : Fin 32) (dpa : BitVec 64) (l : Nat) (s : State), s.stopped = false ∧ s.dpaLine p.val dpa.toNat = some l) ∧
    (∃ (p : Fin 32) (dpa : BitVec 64) (l : Nat) (s : State), s.stopped = false ∧ s.dpaLine p.val dpa.toNat = some l) ∧
    (∃ (p : Fin 32) (dpa : BitVec 64) (s : State), s.stopped = false ∧ s.dpaLine p.val dpa.toNat = none) := by
  refine ⟨?_, ?_, ?_, ?_, ?_, ?_, ?_, ?_, ?_, ?_⟩
  · exact by
      refine ⟨0, [⟨0, 0x20000000⟩], extended .pending, ?_⟩
      rintro u rfl
      exact ⟨by decide +kernel, by decide +kernel, by decide +kernel⟩
  · exact ⟨0, [⟨0, 0x10000000⟩], extended .pending, by decide +kernel, by decide +kernel⟩
  · exact ⟨0, [⟨0x10000000, 0x10000000⟩], extended .live, by decide +kernel, by decide +kernel⟩
  · exact by
      refine ⟨.fm 0, 0, [⟨0x20000000, 0x10000000⟩], extended .live, ?_⟩
      rintro u rfl
      exact ⟨by decide +kernel, by (intro p h; cases h), by decide +kernel⟩
  · exact by
      refine ⟨.fm 0, 0, [⟨0x10000000, 0x10000000⟩], extended .live, ?_⟩
      rintro u rfl
      exact ⟨by decide +kernel, by (intro p h; cases h), by decide +kernel, by decide +kernel⟩
  · exact ⟨.mctp, 0, ⟨0, 0x20000000⟩, extended .live, by decide +kernel, by (intro p h; cases h), by decide +kernel, by decide +kernel⟩
  · exact ⟨.fm 1, 0, base, by decide +kernel, by (intro p h; cases h), by decide +kernel⟩
  · exact ⟨0, 0x1FFFFFFF, 0x420000000 / 64 - 1, extended .live, by decide +kernel, by decide +kernel⟩
  · exact ⟨0, 0x1FFFFFFF, 0x420000000 / 64 - 1, extended .live, by decide +kernel, by decide +kernel⟩
  · exact ⟨0, 0x20000000, extended .live, by decide +kernel, by decide +kernel⟩

/-- What Obligations.ManagementPorts supposes can be met. -/
theorem witness_ManagementPorts :
    (∃ (port : Fin 2) (target : Word) (s : State), s.stopped = false ∧ target.toNat ≠ 0 ∧ target.toNat = s.ip port.val) ∧
    (∃ (port : Fin 2) (target : Word) (s : State), s.stopped = false ∧ target.toNat ≠ 0 ∧ target.toNat = s.ip port.val) ∧
    (∃ (port : Fin 2) (target : Word) (s : State), s.stopped = false ∧ target.toNat ≠ s.ip port.val) ∧
    (∃ (stat : BitVec 7) (s : State), s.stopped = false ∧ stat.toNat = s.regF Reg.RNG_I3C_STATUS 6 0 ∧ s.regF Reg.RNG_I3C_STATUS 31 31 ≠ 1) ∧
    (∃ (s : State), s.stopped = false ∧ s.regF Reg.RNG_I3C_STATUS 31 31 ≠ 1) ∧
    (∃ (stat : BitVec 7) (s : State), s.stopped = false ∧ stat.toNat ≠ s.regF Reg.RNG_I3C_STATUS 6 0) ∧
    (∃ (eid : BitVec 8) (s : State), s.stopped = false ∧ eid ≠ 0 ∧ eid ≠ 255) ∧
    (∃ (eid : BitVec 8) (s : State), s.stopped = false ∧ (eid = 0 ∨ eid = 255)) ∧
    (∃ (m : BitVec 8) (s : State), s.stopped = false ∧ (m = 0 ∨ m = 7 ∨ m = 0x7E ∨ m = 0xFF)) ∧
    (∃ (m : BitVec 8) (s : State), s.stopped = false ∧ (¬ (m = 0 ∨ m = 7 ∨ m = 0x7E ∨ m = 0xFF))) := by
  refine ⟨?_, ?_, ?_, ?_, ?_, ?_, ?_, ?_, ?_, ?_⟩
  · exact ⟨1, 5, { base with netAddr := [(1, 5)] }, by decide +kernel, by decide +kernel, by decide +kernel⟩
  · exact ⟨1, 5, { base with netAddr := [(1, 5)] }, by decide +kernel, by decide +kernel, by decide +kernel⟩
  · exact ⟨1, 5, base, by decide +kernel, by decide +kernel⟩
  · exact ⟨0, base, by decide +kernel, by decide +kernel, by decide +kernel⟩
  · exact ⟨base, by decide +kernel, by decide +kernel⟩
  · exact ⟨1, base, by decide +kernel, by decide +kernel⟩
  · exact ⟨254, base, by decide +kernel, by decide +kernel, by decide +kernel⟩
  · exact ⟨255, base, by decide +kernel, by exact .inr rfl⟩
  · exact ⟨0xFF, base, by decide +kernel, by decide +kernel⟩
  · exact ⟨1, base, by decide +kernel, by decide +kernel⟩
/-- The Scaler of hub 0 with windows of 2^10 cycles, as its register has it, at a time. -/
def windowed (lcc : Nat) : State :=
  { base.setRegN (Reg.SCL_BW_CTRL 4) (2 ^ 31 + 10) with scalers := [(4, { Scaler.reset with window := 10 })], lcc := lcc }

/-- What Obligations.ScalerCommands supposes can be met. -/
theorem witness_ScalerCommands :
    (∃ (rq : Requester) (k : Fin 10) (s : State), s.stopped = false ∧ s.writes rq (Reg.SCL_CTRL k.val) = true) ∧
    (∃ (rq : Requester) (s : State), s.stopped = false ∧ s.writes rq (Reg.SCL_SYNC 0) = true) ∧
    (∃ (rq : Requester) (s : State), s.stopped = false ∧ s.writes rq (Reg.SCL_SYNC 0) = true) ∧
    (∃ (rq : Requester) (s : State), s.stopped = false ∧ s.writes rq (Reg.SCL_SYNC 0) = true) ∧
    (∃ (rq : Requester) (k : Fin 10) (n : Fin 8) (s : State), s.stopped = false ∧ s.writes rq (Reg.SCL_EVSEL k.val n.val) = true) ∧
    (∃ (k : Fin 10) (s : State), s.stopped = false ∧ 4 ≤ k.val ∧ s.lcc ≠ (s.scaler k.val).ended ∧ s.lcc % 2 ^ (s.scaler k.val).window = 0 ∧
      bitOf (s.reg (Reg.SCL_BW_CTRL k.val)) 31 = true ∧ (s.scaler k.val).window = s.windowLog2 k.val) ∧
    (∃ (k : Fin 10) (s : State), s.stopped = false ∧ 4 ≤ k.val ∧ s.lcc ≠ (s.scaler k.val).ended ∧ s.lcc % 2 ^ (s.scaler k.val).window ≠ 0 ∧
      s.lcc % 2 ^ s.windowLog2 k.val ≠ 0) ∧
    (∃ (k : Fin 10) (s : State), s.stopped = false ∧ (k.val < 4 ∨ s.lcc = (s.scaler k.val).ended)) ∧
    (∃ (rq : Requester) (k : Fin 4) (old : Word) (s : State), s.stopped = false ∧ s.writes rq (Reg.SCL_SMP_CTRL k.val) = true ∧
      old = s.reg (Reg.SCL_SMP_CTRL k.val)) ∧
    (∃ (rq : Requester) (k : Fin 4) (s : State), s.stopped = false ∧ s.writes rq (Reg.SCL_SMP_POP k.val) = true) := by
  refine ⟨?_, ?_, ?_, ?_, ?_, ?_, ?_, ?_, ?_, ?_⟩
  · exact ⟨.fm 0, 9, base, by decide +kernel, by decide +kernel⟩
  · exact ⟨.fm 0, base, by decide +kernel, by decide +kernel⟩
  · exact ⟨.fm 0, base, by decide +kernel, by decide +kernel⟩
  · exact ⟨.fm 0, base, by decide +kernel, by decide +kernel⟩
  · exact ⟨.fm 0, 9, 7, base, by decide +kernel, by decide +kernel⟩
  · exact ⟨4, windowed 1024, by decide +kernel, by decide +kernel, by decide +kernel, by decide +kernel, by decide +kernel, by decide +kernel⟩
  · exact ⟨4, windowed 1023, by decide +kernel, by decide +kernel, by decide +kernel, by decide +kernel, by decide +kernel⟩
  · exact ⟨3, base, by decide +kernel, by exact .inl (by decide +kernel)⟩
  · exact ⟨.fm 0, 3, 0, base, by decide +kernel, by decide +kernel, by decide +kernel⟩
  · exact ⟨.fm 0, 3, base, by decide +kernel, by decide +kernel⟩
/-- Group 2 of the block on hub 0, which is stack 2's, changed. -/
def tly (u g : Nat) (f : TallyGroup → TallyGroup) (lane : Nat) : State :=
  ((base.modTally u g f).setRegF (Reg.TLY_GRP_SEL u) 3 0 g).setRegF (Reg.TLY_LANE_SEL u) 10 0 lane

/-- What Obligations.TallyCommands supposes can be met. -/
theorem witness_TallyCommands :
    (∃ (rq : Requester) (u : Fin 6) (i : Nat) (k : LaneKind) (s : State), ∀ (g : Nat), g = s.regF (Reg.TLY_GRP_SEL u.val) 3 0 → s.stopped = false ∧
      s.writes rq (Reg.TLY_CTRL u.val) = true ∧ tallyKind u.val g = some (k, i) ∧ (s.tallyGroup u.val g).writes rq = false) ∧
    (∃ (rq : Requester) (u : Fin 6) (i : Nat) (k : LaneKind) (s : State), ∀ (g : Nat), g = s.regF (Reg.TLY_GRP_SEL u.val) 3 0 → s.stopped = false ∧
      s.writes rq (Reg.TLY_CTRL u.val) = true ∧ tallyKind u.val g = some (k, i) ∧ (s.tallyGroup u.val g).writes rq = true ∧
      (s.tallyGroup u.val g).busy = false ∧ s.tallyEligible k i = false) ∧
    (∃ (rq : Requester) (u : Fin 6) (i : Nat) (k : LaneKind) (s : State), ∀ (g : Nat) (x : TallyGroup), g = s.regF (Reg.TLY_GRP_SEL u.val) 3 0 →
      x = s.tallyGroup u.val g → s.stopped = false ∧ s.writes rq (Reg.TLY_CTRL u.val) = true ∧ tallyKind u.val g = some (k, i) ∧
      x.writes rq = true ∧ x.busy = false ∧ s.tallyEligible k i = true ∧ k.runs x.pattern x.mode = true ∧ x.range.2 ≠ 0 ∧
      x.range.1 + x.range.2 ≤ k.lanes) ∧
    (∃ (rq : Requester) (u : Fin 6) (i : Nat) (k : LaneKind) (s : State), ∀ (g : Nat), g = s.regF (Reg.TLY_GRP_SEL u.val) 3 0 → s.stopped = false ∧
      s.writes rq (Reg.TLY_CTRL u.val) = true ∧ tallyKind u.val g = some (k, i) ∧ (s.tallyGroup u.val g).writes rq = true ∧
      (s.tallyGroup u.val g).busy = true) ∧
    (∃ (rq : Requester) (u : Fin 6) (i : Nat) (k : LaneKind) (s : State), ∀ (g : Nat), g = s.regF (Reg.TLY_GRP_SEL u.val) 3 0 → s.stopped = false ∧
      s.writes rq (Reg.TLY_CTRL u.val) = true ∧ tallyKind u.val g = some (k, i) ∧ (s.tallyGroup u.val g).writes rq = true) ∧
    
      (∃ (rq : Requester) (u : Fin 6) (i : Nat) (k : LaneKind) (s : State), ∀ (g : Nat) (x : TallyGroup) (lane : Nat), g = s.regF (Reg.TLY_GRP_SEL u.val) 3 0 →
      x = s.tallyGroup u.val g → lane = s.regF (Reg.TLY_LANE_SEL u.val) 10 0 → s.stopped = false ∧ s.writes rq (Reg.TLY_CTRL u.val) = true ∧
      tallyKind u.val g = some (k, i) ∧ x.writes rq = true ∧ x.state = 2 ∧ x.mode ≠ 1 ∧ x.has lane = true ∧ (x.lane lane).locked = true) ∧
    (∃ (rq : Requester) (u : Fin 6) (i : Nat) (k : LaneKind) (s : State), ∀ (g : Nat) (x : TallyGroup), g = s.regF (Reg.TLY_GRP_SEL u.val) 3 0 →
      x = s.tallyGroup u.val g → s.stopped = false ∧ s.writes rq (Reg.TLY_CTRL u.val) = true ∧ tallyKind u.val g = some (k, i) ∧
      x.writes rq = true ∧ (x.state ≠ 2 ∨ x.mode = 1)) ∧
    (∃ (u : Fin 6) (g : Fin 16) (s : State), s.stopped = false ∧ (s.tallyGroup u.val g.val).state = 1) ∧
    (∃ (u : Fin 6) (g : Fin 16) (s : State), s.stopped = false ∧ (s.tallyGroup u.val g.val).state = 1 ∧
      10000000 < s.lcc - (s.tallyGroup u.val g.val).since) ∧
    (∃ (u : Fin 6) (g : Fin 16) (s : State), ∀ (x : TallyGroup), x = s.tallyGroup u.val g.val → s.stopped = false ∧ (x.state = 2 ∨ x.state = 3) ∧
      x.duration ≠ 0 ∧ 2 ^ x.duration ≤ s.lcc - x.since) ∧
    (∃ (u : Fin 6) (g : Fin 16) (lane : Fin 2048) (s : State), ∀ (x : TallyGroup), x = s.tallyGroup u.val g.val → s.stopped = false ∧ x.busy = true ∧
      x.has lane.val = true ∧ (x.lane lane.val).locked = true) ∧
    (∃ (u : Fin 6) (g : Fin 16) (s : State), s.stopped = false ∧ (s.tallyGroup u.val g.val).state = 3) ∧
    (∃ (u : Fin 6) (g : Fin 16) (count : LaneCount) (s : State), ∀ (x : TallyGroup), x = s.tallyGroup u.val g.val → s.stopped = false ∧
      (x.state = 2 ∨ x.state = 3) ∧ x.mode ≠ 1 ∧ x.has count.lane.val = true) := by
  refine ⟨?_, ?_, ?_, ?_, ?_, ?_, ?_, ?_, ?_, ?_, ?_, ?_, ?_⟩
  · exact by
      refine ⟨.fm 0, 2, 0, .cofeben, tly 2 0 (fun x => { x with owner := 2 }) 0, ?_⟩
      rintro g rfl
      exact ⟨by decide +kernel, by decide +kernel, by decide +kernel, by decide +kernel⟩
  · exact by
      refine ⟨.fm 0, 3, 1, .cxl, tly 3 3 (fun x => x) 0, ?_⟩
      rintro g rfl
      exact ⟨by decide +kernel, by decide +kernel, by decide +kernel, by decide +kernel, by decide +kernel, by decide +kernel⟩
  · exact by
      refine ⟨.fm 0, 2, 0, .cofeben, tly 2 0 (fun x => x) 0, ?_⟩
      rintro g x rfl rfl
      exact ⟨by decide +kernel, by decide +kernel, by decide +kernel, by decide +kernel, by decide +kernel, by decide +kernel, by decide +kernel, by decide +kernel, by decide +kernel⟩
  · exact by
      refine ⟨.fm 0, 2, 0, .cofeben, tly 2 0 (fun x => { x with state := 2 }) 0, ?_⟩
      rintro g rfl
      exact ⟨by decide +kernel, by decide +kernel, by decide +kernel, by decide +kernel, by decide +kernel⟩
  · exact by
      refine ⟨.fm 0, 5, 17, .onfi, tly 5 12 (fun x => x) 0, ?_⟩
      rintro g rfl
      exact ⟨by decide +kernel, by decide +kernel, by decide +kernel, by decide +kernel⟩
  · exact by
      refine ⟨.fm 0, 2, 0, .cofeben, tly 2 0 (fun x => { x with state := 2, lanes := [(7, { Lane.reset with locked := true })] }) 7, ?_⟩
      rintro g x lane rfl rfl rfl
      exact ⟨by decide +kernel, by decide +kernel, by decide +kernel, by decide +kernel, by decide +kernel, by decide +kernel, by decide +kernel, by decide +kernel⟩
  · exact by
      refine ⟨.fm 0, 2, 0, .cofeben, tly 2 0 (fun x => x) 7, ?_⟩
      rintro g x rfl rfl
      exact ⟨by decide +kernel, by decide +kernel, by decide +kernel, by decide +kernel, by exact .inl (by decide +kernel)⟩
  · exact ⟨2, 0, tly 2 0 (fun x => { x with state := 1 }) 0, by decide +kernel, by decide +kernel⟩
  · exact ⟨2, 0, { tly 2 0 (fun x => { x with state := 1 }) 0 with lcc := 10000001 }, by decide +kernel, by decide +kernel, by decide +kernel⟩
  · exact by
      refine ⟨2, 0, { tly 2 0 (fun x => { x with state := 2, cfg := x.cfg + 2 ^ 15 * 33 }) 0 with lcc := 2 ^ 33 }, ?_⟩
      rintro x rfl
      exact ⟨by decide +kernel, by exact .inl (by decide +kernel), by decide +kernel, by decide +kernel⟩
  · exact by
      refine ⟨0, 2, 2047, tly 0 2 (fun x => { x with state := 2, laneRange := 2 ^ 16 * 2047 + 1, lanes := [(2047, { Lane.reset with locked := true })] }) 0, ?_⟩
      rintro x rfl
      exact ⟨by decide +kernel, by decide +kernel, by decide +kernel, by decide +kernel⟩
  · exact ⟨2, 0, tly 2 0 (fun x => { x with state := 3 }) 0, by decide +kernel, by decide +kernel⟩
  · exact by
      refine ⟨2, 0, ⟨7, 9, 1⟩, tly 2 0 (fun x => { x with state := 2 }) 0, ?_⟩
      rintro x rfl
      exact ⟨by decide +kernel, by exact .inl (by decide +kernel), by decide +kernel, by decide +kernel⟩

end Sys2Proof.Tests
end

/-! PROOFS for 00_scope.md: what a step keeps, the control bus, register pairs and single registers, semaphores and barriers. -/

namespace Sys2Proof.Machine

/-! ### What every step keeps -/

/-- Every command is steady: most are calm, and the resets, boots, fatal errors and register writes have a lemma each. -/
theorem steady_exec {i : Instr} {s t : State} (e : exec i s = .next t) : Steady s t := by
  cases i with
  | registerPairLowRead => exact (calm_execRegisterPairLowRead e (Calm.refl s)).steady
  | registerPairLowWrite => exact steady_execRegisterPairLowWrite e
  | registerPairHighWrite => exact steady_execRegisterPairHighWrite e
  | registerWrite => exact steady_execRegisterWrite e
  | violClear _ v => exact (calm_execViolClear (a2 := v) e (Calm.refl s)).steady
  | admitPartition => exact (calm_execAdmitPartition e (Calm.refl s)).steady
  | releasePartition => exact (calm_execReleasePartition e (Calm.refl s)).steady
  | partitionDrained => exact (calm_execPartitionDrained e (Calm.refl s)).steady
  | partitionReset _ _ v => exact (calm_execPartitionReset (a3 := v) e (Calm.refl s)).steady
  | chuteEnable => exact (calm_execChuteEnable e (Calm.refl s)).steady
  | chuteRegisterDone => exact (calm_execChuteRegisterDone e (Calm.refl s)).steady
  | chuteDisable => exact (calm_execChuteDisable e (Calm.refl s)).steady
  | chuteDisableDone => exact (calm_execChuteDisableDone e (Calm.refl s)).steady
  | cplEnable => exact (calm_execCplEnable e (Calm.refl s)).steady
  | cplHeadWrite => exact (calm_execCplHeadWrite e (Calm.refl s)).steady
  | mboxHeadWrite => exact (calm_execMboxHeadWrite e (Calm.refl s)).steady
  | chuteStore => exact (calm_execChuteStore e (Calm.refl s)).steady
  | holdLimitExpire => exact (calm_execHoldLimitExpire e (Calm.refl s)).steady
  | packetTransfer => exact (calm_execPacketTransfer e (Calm.refl s)).steady
  | fifoPacketReceive => exact (calm_execFifoPacketReceive e (Calm.refl s)).steady
  | commandStart => exact (calm_execCommandStart e (Calm.refl s)).steady
  | deadlineExpire => exact (calm_execDeadlineExpire e (Calm.refl s)).steady
  | completionRecordWrite => exact (calm_execCompletionRecordWrite e (Calm.refl s)).steady
  | abortCommand => exact (calm_execAbortCommand e (Calm.refl s)).steady
  | resumeFault => exact (calm_execResumeFault e (Calm.refl s)).steady
  | faultPop _ _ v => exact (calm_execFaultPop (a3 := v) e (Calm.refl s)).steady
  | meProgram => exact (calm_execMeProgram e (Calm.refl s)).steady
  | loadTile => exact (calm_execLoadTile e (Calm.refl s)).steady
  | mma => exact (calm_execMma e (Calm.refl s)).steady
  | helperRerun => exact (calm_execHelperRerun e (Calm.refl s)).steady
  | quant => exact (calm_execQuant e (Calm.refl s)).steady
  | storeTile => exact (calm_execStoreTile e (Calm.refl s)).steady
  | meSemWait => exact (calm_execMeSemWait e (Calm.refl s)).steady
  | meSemSignal => exact (calm_execMeSemSignal e (Calm.refl s)).steady
  | meQuarantine => exact (calm_execMeQuarantine e (Calm.refl s)).steady
  | quarantineAtBoundary => exact (calm_execQuarantineAtBoundary e (Calm.refl s)).steady
  | meUnquarantine => exact (calm_execMeUnquarantine e (Calm.refl s)).steady
  | escTableEnable => exact (calm_execEscTableEnable e (Calm.refl s)).steady
  | escTableClear => exact (calm_execEscTableClear e (Calm.refl s)).steady
  | gcRun => exact (calm_execGcRun e (Calm.refl s)).steady
  | gcRunEnd => exact (calm_execGcRunEnd e (Calm.refl s)).steady
  | ecall => exact (calm_execEcall e (Calm.refl s)).steady
  | ebreak => exact (calm_execEbreak e (Calm.refl s)).steady
  | illegalInstruction => exact (calm_execIllegalInstruction e (Calm.refl s)).steady
  | gcLoad => exact (calm_execGcLoad e (Calm.refl s)).steady
  | gcStore => exact (calm_execGcStore e (Calm.refl s)).steady
  | gcInstructionFetch => exact (calm_execGcInstructionFetch e (Calm.refl s)).steady
  | fence => exact (calm_execFence e (Calm.refl s)).steady
  | fenceI => exact (calm_execFenceI e (Calm.refl s)).steady
  | amoadd => exact (calm_execAmoadd e (Calm.refl s)).steady
  | amomin => exact (calm_execAmomin e (Calm.refl s)).steady
  | amomax => exact (calm_execAmomax e (Calm.refl s)).steady
  | amominu => exact (calm_execAmominu e (Calm.refl s)).steady
  | amomaxu => exact (calm_execAmomaxu e (Calm.refl s)).steady
  | amoswap => exact (calm_execAmoswap e (Calm.refl s)).steady
  | amoand => exact (calm_execAmoand e (Calm.refl s)).steady
  | amoor => exact (calm_execAmoor e (Calm.refl s)).steady
  | amoxor => exact (calm_execAmoxor e (Calm.refl s)).steady
  | lr => exact (calm_execLr e (Calm.refl s)).steady
  | sc => exact (calm_execSc e (Calm.refl s)).steady
  | gcBxw => exact (calm_execGcBxw e (Calm.refl s)).steady
  | gcBxc => exact (calm_execGcBxc e (Calm.refl s)).steady
  | gcDq => exact (calm_execGcDq e (Calm.refl s)).steady
  | gcKmrg => exact (calm_execGcKmrg e (Calm.refl s)).steady
  | gcSemsig => exact (calm_execGcSemsig e (Calm.refl s)).steady
  | gcSemwait => exact (calm_execGcSemwait e (Calm.refl s)).steady
  | gcSemrd => exact (calm_execGcSemrd e (Calm.refl s)).steady
  | gcDcln => exact (calm_execGcDcln e (Calm.refl s)).steady
  | gcDinv => exact (calm_execGcDinv e (Calm.refl s)).steady
  | gcCas => exact (calm_execGcCas e (Calm.refl s)).steady
  | gcAmofadd => exact (calm_execGcAmofadd e (Calm.refl s)).steady
  | gcTag => exact (calm_execGcTag e (Calm.refl s)).steady
  | gcQuarantine => exact (calm_execGcQuarantine e (Calm.refl s)).steady
  | gcUnquarantine => exact (calm_execGcUnquarantine e (Calm.refl s)).steady
  | t0Scrub => exact (calm_execT0Scrub e (Calm.refl s)).steady
  | t1Scrub => exact (calm_execT1Scrub e (Calm.refl s)).steady
  | moveCopy => exact (calm_execMoveCopy e (Calm.refl s)).steady
  | movePlace => exact (calm_execMovePlace e (Calm.refl s)).steady
  | moveFree => exact (calm_execMoveFree e (Calm.refl s)).steady
  | moveZero => exact (calm_execMoveZero e (Calm.refl s)).steady
  | moveChannelTake => exact (calm_execMoveChannelTake e (Calm.refl s)).steady
  | loftWriteStage => exact (calm_execLoftWriteStage e (Calm.refl s)).steady
  | loftStripeProgram => exact (calm_execLoftStripeProgram e (Calm.refl s)).steady
  | loftProgramDone => exact (calm_execLoftProgramDone e (Calm.refl s)).steady
  | loftGc => exact (calm_execLoftGc e (Calm.refl s)).steady
  | loftWearMove => exact (calm_execLoftWearMove e (Calm.refl s)).steady
  | loftRead => exact (calm_execLoftRead e (Calm.refl s)).steady
  | loftReadDone => exact (calm_execLoftReadDone e (Calm.refl s)).steady
  | lowerTierLate => exact (calm_execLowerTierLate e (Calm.refl s)).steady
  | loftStatusTimeout => exact (calm_execLoftStatusTimeout e (Calm.refl s)).steady
  | loftRebuildStripe => exact (calm_execLoftRebuildStripe e (Calm.refl s)).steady
  | loftChannelReset => exact (calm_execLoftChannelReset e (Calm.refl s)).steady
  | loftChannelRetire => exact (calm_execLoftChannelRetire e (Calm.refl s)).steady
  | loftTrim => exact (calm_execLoftTrim e (Calm.refl s)).steady
  | loftReady => exact (calm_execLoftReady e (Calm.refl s)).steady
  | mirrorCommit => exact (calm_execMirrorCommit e (Calm.refl s)).steady
  | mirrorClear => exact (calm_execMirrorClear e (Calm.refl s)).steady
  | mirrorDetach => exact (calm_execMirrorDetach e (Calm.refl s)).steady
  | mirrorRebuild => exact (calm_execMirrorRebuild e (Calm.refl s)).steady
  | mirrorPartnerUnreachable => exact (calm_execMirrorPartnerUnreachable e (Calm.refl s)).steady
  | mirrorPartnerReachable => exact (calm_execMirrorPartnerReachable e (Calm.refl s)).steady
  | mirrorPromoted => exact (calm_execMirrorPromoted e (Calm.refl s)).steady
  | mirrorCopySegment => exact (calm_execMirrorCopySegment e (Calm.refl s)).steady
  | mirrorCopyDone => exact (calm_execMirrorCopyDone e (Calm.refl s)).steady
  | queueTimeTranslate => exact (calm_execQueueTimeTranslate e (Calm.refl s)).steady
  | xltEnable => exact (calm_execXltEnable e (Calm.refl s)).steady
  | xltDisable _ _ v => exact (calm_execXltDisable (a3 := v) e (Calm.refl s)).steady
  | xltInvalidate => exact (calm_execXltInvalidate e (Calm.refl s)).steady
  | xltInvalidateAll => exact (calm_execXltInvalidateAll e (Calm.refl s)).steady
  | xltInvalidateDone => exact (calm_execXltInvalidateDone e (Calm.refl s)).steady
  | releaseFence => exact (calm_execReleaseFence e (Calm.refl s)).steady
  | memRd => exact (calm_execMemRd e (Calm.refl s)).steady
  | memRdData => exact (calm_execMemRdData e (Calm.refl s)).steady
  | memInv => exact (calm_execMemInv e (Calm.refl s)).steady
  | memClnEvct => exact (calm_execMemClnEvct e (Calm.refl s)).steady
  | memWr => exact (calm_execMemWr e (Calm.refl s)).steady
  | memSpecRd ld hpa => exact (calm_execMemSpecRd (a1 := ld) (a2 := hpa) e (Calm.refl s)).steady
  | memRdFwd => exact (calm_execMemRdFwd e (Calm.refl s)).steady
  | memWrFwd => exact (calm_execMemWrFwd e (Calm.refl s)).steady
  | biRsp => exact (calm_execBiRsp e (Calm.refl s)).steady
  | biConflict => exact (calm_execBiConflict e (Calm.refl s)).steady
  | biTimeout => exact (calm_execBiTimeout e (Calm.refl s)).steady
  | conflictQueueAccept => exact (calm_execConflictQueueAccept e (Calm.refl s)).steady
  | rd => exact (calm_execRd e (Calm.refl s)).steady
  | wr => exact (calm_execWr e (Calm.refl s)).steady
  | wrp => exact (calm_execWrp e (Calm.refl s)).steady
  | atom => exact (calm_execAtom e (Calm.refl s)).steady
  | combinedPacket => exact (calm_execCombinedPacket e (Calm.refl s)).steady
  | mwr => exact (calm_execMwr e (Calm.refl s)).steady
  | mack => exact (calm_execMack e (Calm.refl s)).steady
  | rdata => exact (calm_execRdata e (Calm.refl s)).steady
  | wack => exact (calm_execWack e (Calm.refl s)).steady
  | nak => exact (calm_execNak e (Calm.refl s)).steady
  | pinv => exact (calm_execPinv e (Calm.refl s)).steady
  | pinvack => exact (calm_execPinvack e (Calm.refl s)).steady
  | unknownTypeDiscard => exact (calm_execUnknownTypeDiscard e (Calm.refl s)).steady
  | hostLost => exact (calm_execHostLost e (Calm.refl s)).steady
  | dirHostLostGo => exact (calm_execDirHostLostGo e (Calm.refl s)).steady
  | hostLostScanDone => exact (calm_execHostLostScanDone e (Calm.refl s)).steady
  | dirPeek => exact (calm_execDirPeek e (Calm.refl s)).steady
  | extentReleasePoint => exact (calm_execExtentReleasePoint e (Calm.refl s)).steady
  | extentReleaseComplete => exact (calm_execExtentReleaseComplete e (Calm.refl s)).steady
  | fabricRequestSend => exact (calm_execFabricRequestSend e (Calm.refl s)).steady
  | flitReceive => exact (calm_execFlitReceive e (Calm.refl s)).steady
  | ackTimeout => exact (calm_execAckTimeout e (Calm.refl s)).steady
  | portTransmit => exact (calm_execPortTransmit e (Calm.refl s)).steady
  | combineHoldExpire => exact (calm_execCombineHoldExpire e (Calm.refl s)).steady
  | spillReturn => exact (calm_execSpillReturn e (Calm.refl s)).steady
  | packetAged => exact (calm_execPacketAged e (Calm.refl s)).steady
  | requestTimeout => exact (calm_execRequestTimeout e (Calm.refl s)).steady
  | pathLost => exact (calm_execPathLost e (Calm.refl s)).steady
  | linkEnable => exact (calm_execLinkEnable e (Calm.refl s)).steady
  | linkDisable => exact (calm_execLinkDisable e (Calm.refl s)).steady
  | linkDrain => exact (calm_execLinkDrain e (Calm.refl s)).steady
  | trainingPass => exact (calm_execTrainingPass e (Calm.refl s)).steady
  | trainingFail => exact (calm_execTrainingFail e (Calm.refl s)).steady
  | linkQuiet => exact (calm_execLinkQuiet e (Calm.refl s)).steady
  | msgSend => exact (calm_execMsgSend e (Calm.refl s)).steady
  | msgOpen => exact (calm_execMsgOpen e (Calm.refl s)).steady
  | msgAccept => exact (calm_execMsgAccept e (Calm.refl s)).steady
  | msgFull => exact (calm_execMsgFull e (Calm.refl s)).steady
  | msgData => exact (calm_execMsgData e (Calm.refl s)).steady
  | mailboxDeliver => exact (calm_execMailboxDeliver e (Calm.refl s)).steady
  | msgDone => exact (calm_execMsgDone e (Calm.refl s)).steady
  | mboxEnable => exact (calm_execMboxEnable e (Calm.refl s)).steady
  | rowDirEnable => exact (calm_execRowDirEnable e (Calm.refl s)).steady
  | embLookup => exact (calm_execEmbLookup e (Calm.refl s)).steady
  | cribAge => exact (calm_execCribAge e (Calm.refl s)).steady
  | contribute => exact (calm_execContribute e (Calm.refl s)).steady
  | apply => exact (calm_execApply e (Calm.refl s)).steady
  | arenaRecordForward => exact (calm_execArenaRecordForward e (Calm.refl s)).steady
  | embConvert => exact (calm_execEmbConvert e (Calm.refl s)).steady
  | hotsetRefresh => exact (calm_execHotsetRefresh e (Calm.refl s)).steady
  | migrateRow => exact (calm_execMigrateRow e (Calm.refl s)).steady
  | migrateCutover => exact (calm_execMigrateCutover e (Calm.refl s)).steady
  | departedLapse => exact (calm_execDepartedLapse e (Calm.refl s)).steady
  | rowQuarantine => exact (calm_execRowQuarantine e (Calm.refl s)).steady
  | rowUnquarantine => exact (calm_execRowUnquarantine e (Calm.refl s)).steady
  | winDirEnable => exact (calm_execWinDirEnable e (Calm.refl s)).steady
  | indexLoad => exact (calm_execIndexLoad e (Calm.refl s)).steady
  | indexUnload => exact (calm_execIndexUnload e (Calm.refl s)).steady
  | indexUnloadDone => exact (calm_execIndexUnloadDone e (Calm.refl s)).steady
  | search => exact (calm_execSearch e (Calm.refl s)).steady
  | indexInsert => exact (calm_execIndexInsert e (Calm.refl s)).steady
  | indexDelete => exact (calm_execIndexDelete e (Calm.refl s)).steady
  | indexCompact => exact (calm_execIndexCompact e (Calm.refl s)).steady
  | blockSeal => exact (calm_execBlockSeal e (Calm.refl s)).steady
  | epochPublish => exact (calm_execEpochPublish e (Calm.refl s)).steady
  | deferredAllocation => exact (calm_execDeferredAllocation e (Calm.refl s)).steady
  | winQuarantine => exact (calm_execWinQuarantine e (Calm.refl s)).steady
  | winUnquarantine => exact (calm_execWinUnquarantine e (Calm.refl s)).steady
  | semSignal => exact (calm_execSemSignal e (Calm.refl s)).steady
  | semWait => exact (calm_execSemWait e (Calm.refl s)).steady
  | waitSatisfied => exact (calm_execWaitSatisfied e (Calm.refl s)).steady
  | semWaitTimeout => exact (calm_execSemWaitTimeout e (Calm.refl s)).steady
  | semValWrite => exact (calm_execSemValWrite e (Calm.refl s)).steady
  | semAdd => exact (calm_execSemAdd e (Calm.refl s)).steady
  | semSet => exact (calm_execSemSet e (Calm.refl s)).steady
  | barrier => exact (calm_execBarrier e (Calm.refl s)).steady
  | barArrive => exact (calm_execBarArrive e (Calm.refl s)).steady
  | barRelease => exact (calm_execBarRelease e (Calm.refl s)).steady
  | propose => exact (calm_execPropose e (Calm.refl s)).steady
  | proposeMsg => exact (calm_execProposeMsg e (Calm.refl s)).steady
  | prepare => exact (calm_execPrepare e (Calm.refl s)).steady
  | commit => exact (calm_execCommit e (Calm.refl s)).steady
  | compAbort => exact (calm_execCompAbort e (Calm.refl s)).steady
  | sack => exact (calm_execSack e (Calm.refl s)).steady
  | compTimeout => exact (calm_execCompTimeout e (Calm.refl s)).steady
  | query => exact (calm_execQuery e (Calm.refl s)).steady
  | down => exact (calm_execDown e (Calm.refl s)).steady
  | digest => exact (calm_execDigest e (Calm.refl s)).steady
  | digestVote => exact (calm_execDigestVote e (Calm.refl s)).steady
  | digWaitExpire => exact (calm_execDigWaitExpire e (Calm.refl s)).steady
  | fatalError => exact steady_execFatalError e
  | ceSummary => exact (calm_execCeSummary e (Calm.refl s)).steady
  | recordResend => exact (calm_execRecordResend e (Calm.refl s)).steady
  | recordAck => exact (calm_execRecordAck e (Calm.refl s)).steady
  | getRecords => exact (calm_execGetRecords e (Calm.refl s)).steady
  | ackRecords => exact (calm_execAckRecords e (Calm.refl s)).steady
  | ftGo => exact (calm_execFtGo e (Calm.refl s)).steady
  | ftCancel => exact (calm_execFtCancel e (Calm.refl s)).steady
  | ftTake => exact (calm_execFtTake e (Calm.refl s)).steady
  | ftRetry => exact (calm_execFtRetry e (Calm.refl s)).steady
  | ftExpire => exact (calm_execFtExpire e (Calm.refl s)).steady
  | ftNominalPass => exact (calm_execFtNominalPass e (Calm.refl s)).steady
  | ftMarginPass => exact (calm_execFtMarginPass e (Calm.refl s)).steady
  | clockGate => exact (calm_execClockGate e (Calm.refl s)).steady
  | powerGate => exact (calm_execPowerGate e (Calm.refl s)).steady
  | pllStop => exact (calm_execPllStop e (Calm.refl s)).steady
  | selfRefresh => exact (calm_execSelfRefresh e (Calm.refl s)).steady
  | wakeDone => exact (calm_execWakeDone e (Calm.refl s)).steady
  | standby _ v => exact (calm_execStandby (a2 := v) e (Calm.refl s)).steady
  | runNode _ v => exact (calm_execRunNode (a2 := v) e (Calm.refl s)).steady
  | runDone => exact (calm_execRunDone e (Calm.refl s)).steady
  | powerTick => exact (calm_execPowerTick e (Calm.refl s)).steady
  | powerLoss => exact steady_execPowerLoss e
  | coldReset => exact steady_execColdReset e
  | warmReset => exact steady_execWarmReset e
  | boot => exact steady_execBoot e
  | bootWatchdog => exact steady_execBootWatchdog e
  | unitReset => exact (calm_execUnitReset e (Calm.refl s)).steady
  | perstNAssert => exact (calm_execPerstNAssert e (Calm.refl s)).steady
  | perstNDeassert => exact (calm_execPerstNDeassert e (Calm.refl s)).steady
  | cxlPortReady => exact (calm_execCxlPortReady e (Calm.refl s)).steady
  | ideFail => exact (calm_execIdeFail e (Calm.refl s)).steady
  | swap _ v => exact (calm_execSwap (a2 := v) e (Calm.refl s)).steady
  | paramCheckDone => exact (calm_execParamCheckDone e (Calm.refl s)).steady
  | setTrial => exact (calm_execSetTrial e (Calm.refl s)).steady
  | newChallenge _ v => exact (calm_execNewChallenge (a2 := v) e (Calm.refl s)).steady
  | relock _ v => exact steady_execRelock (v := v) e
  | debugToken => exact steady_execDebugToken e
  | objBegin => exact (calm_execObjBegin e (Calm.refl s)).steady
  | objData => exact (calm_execObjData e (Calm.refl s)).steady
  | objEnd => exact steady_execObjEnd e
  | objAbort => exact (calm_execObjAbort e (Calm.refl s)).steady
  | transferTimeout => exact (calm_execTransferTimeout e (Calm.refl s)).steady
  | quote => exact (calm_execQuote e (Calm.refl s)).steady
  | kemKey => exact (calm_execKemKey e (Calm.refl s)).steady
  | sessionOpen => exact (calm_execSessionOpen e (Calm.refl s)).steady
  | sessionMsg => exact (calm_execSessionMsg e (Calm.refl s)).steady
  | identifyDevice => exact (calm_execIdentifyDevice e (Calm.refl s)).steady
  | identifyMemoryDevice => exact (calm_execIdentifyMemoryDevice e (Calm.refl s)).steady
  | getSupportedLogs => exact (calm_execGetSupportedLogs e (Calm.refl s)).steady
  | getLog => exact (calm_execGetLog e (Calm.refl s)).steady
  | getEventRecords => exact (calm_execGetEventRecords e (Calm.refl s)).steady
  | clearEventRecords => exact (calm_execClearEventRecords e (Calm.refl s)).steady
  | getEventInterruptPolicy => exact (calm_execGetEventInterruptPolicy e (Calm.refl s)).steady
  | setEventInterruptPolicy => exact (calm_execSetEventInterruptPolicy e (Calm.refl s)).steady
  | getDynamicCapacityConfig => exact (calm_execGetDynamicCapacityConfig e (Calm.refl s)).steady
  | getDynamicCapacityExtentList => exact (calm_execGetDynamicCapacityExtentList e (Calm.refl s)).steady
  | addDynamicCapacityResponse => exact (calm_execAddDynamicCapacityResponse e (Calm.refl s)).steady
  | releaseDynamicCapacity => exact (calm_execReleaseDynamicCapacity e (Calm.refl s)).steady
  | injectPoison => exact (calm_execInjectPoison e (Calm.refl s)).steady
  | clearPoison => exact (calm_execClearPoison e (Calm.refl s)).steady
  | getLdInfo => exact (calm_execGetLdInfo e (Calm.refl s)).steady
  | getLdAllocations => exact (calm_execGetLdAllocations e (Calm.refl s)).steady
  | setLdAllocations => exact (calm_execSetLdAllocations e (Calm.refl s)).steady
  | getDcRegionConfiguration => exact (calm_execGetDcRegionConfiguration e (Calm.refl s)).steady
  | getDcRegionExtentLists => exact (calm_execGetDcRegionExtentLists e (Calm.refl s)).steady
  | initiateDynamicCapacityAdd => exact (calm_execInitiateDynamicCapacityAdd e (Calm.refl s)).steady
  | initiateDynamicCapacityRelease => exact (calm_execInitiateDynamicCapacityRelease e (Calm.refl s)).steady
  | unsupportedMailboxCommand => exact (calm_execUnsupportedMailboxCommand e (Calm.refl s)).steady
  | arpRequest => exact (calm_execArpRequest e (Calm.refl s)).steady
  | icmpEcho => exact (calm_execIcmpEcho e (Calm.refl s)).steady
  | setDasa => exact (calm_execSetDasa e (Calm.refl s)).steady
  | entDaa => exact (calm_execEntDaa e (Calm.refl s)).steady
  | setEndpointId => exact (calm_execSetEndpointId e (Calm.refl s)).steady
  | getEndpointId => exact (calm_execGetEndpointId e (Calm.refl s)).steady
  | getVersionSupport => exact (calm_execGetVersionSupport e (Calm.refl s)).steady
  | getMessageTypeSupport => exact (calm_execGetMessageTypeSupport e (Calm.refl s)).steady
  | sclClear => exact (calm_execSclClear e (Calm.refl s)).steady
  | startAll _ v => exact (calm_execStartAll (a2 := v) e (Calm.refl s)).steady
  | stopAll _ v => exact (calm_execStopAll (a2 := v) e (Calm.refl s)).steady
  | clearAll _ v => exact (calm_execClearAll (a2 := v) e (Calm.refl s)).steady
  | sclEvselWrite => exact (calm_execSclEvselWrite e (Calm.refl s)).steady
  | bwWindowEnd => exact (calm_execBwWindowEnd e (Calm.refl s)).steady
  | samplingEnable => exact (calm_execSamplingEnable e (Calm.refl s)).steady
  | sclSmpPop _ _ v => exact (calm_execSclSmpPop (a3 := v) e (Calm.refl s)).steady
  | tallyStart _ _ v => exact (calm_execTallyStart (a3 := v) e (Calm.refl s)).steady
  | tallyStop _ _ v => exact (calm_execTallyStop (a3 := v) e (Calm.refl s)).steady
  | tallyClear _ _ v => exact (calm_execTallyClear (a3 := v) e (Calm.refl s)).steady
  | tallyScan _ _ v => exact (calm_execTallyScan (a3 := v) e (Calm.refl s)).steady
  | tallyTrained => exact (calm_execTallyTrained e (Calm.refl s)).steady
  | tallyTrainTimeout => exact (calm_execTallyTrainTimeout e (Calm.refl s)).steady
  | tallyDurationEnd => exact (calm_execTallyDurationEnd e (Calm.refl s)).steady
  | tallyLockLost => exact (calm_execTallyLockLost e (Calm.refl s)).steady
  | eyeScanDone => exact (calm_execEyeScanDone e (Calm.refl s)).steady
  | cxlLinkUp => exact (calm_execCxlLinkUp e (Calm.refl s)).steady
  | loftEraseDone => exact (calm_execLoftEraseDone e (Calm.refl s)).steady
  | loftChannelRetrained => exact (calm_execLoftChannelRetrained e (Calm.refl s)).steady
  | tallyLaneLock => exact (calm_execTallyLaneLock e (Calm.refl s)).steady
  | packageNetworkReplay => exact steady_execPackageNetworkReplay e
  | standbyDone => exact (calm_execStandbyDone e (Calm.refl s)).steady
  | cxlConfigRequest => exact (calm_execCxlConfigRequest e (Calm.refl s)).steady
  | managementLinkChange => exact (calm_execManagementLinkChange e (Calm.refl s)).steady
  | managementFrameDrop port => exact (calm_execManagementFrameDrop (a1 := port) e (Calm.refl s)).steady

/-- A step is a tick or the command at the front of the queue, and either keeps the canonical forms, which do not speak of the queue. -/
theorem canonical_step {s t : State} (e : step s = .next t) (h : Canonical s) : Canonical t := by
  unfold step at e
  split at e
  · injection e with e
    subst e
    exact (steady_tick s).canonical h
  · exact (steady_exec e).canonical h

/-! ### The control bus: what a read or a write of a register comes to (R4 to R8, R66, R428) -/

section Bus

variable {rq : Requester} {s : State}

/-- What a requester may write is a register of the control space. -/
theorem State.rowAt_of_writes {ca : Nat} (h : s.writes rq ca = true) : ∃ r, RegMap.rowAt ca = some r := by
  simp only [State.writes, State.reaches, Bool.and_eq_true] at h
  obtain ⟨⟨⟨⟨-, row⟩, -⟩, -⟩, -⟩ := h
  exact Option.isSome_iff_exists.mp row

/-- The range of semaphores bars registers of a partition's page only (R349). -/
theorem State.semBarred_of_locate {ca i o : Nat} {b : Blk} (h : RegMap.locate ca = some (b, i, o)) (hb : b ≠ .part) : s.semBarred ca = false := by
  unfold State.semBarred
  rw [h]
  cases b with
  | part => exact absurd rfl hb
  | _ => rfl

variable {a : Nat} {f : Nat → State → State} {g : Nat → CxlPart → Nat → State → State}

theorem busWrite_run (hc : rq.cxlPart a = none) (hw : s.writes rq (rq.target a) = true) (hs : s.semBarred (rq.target a) = false) :
    s.busWrite rq a 0xF f g = f (rq.target a) s := by
  simp [State.busWrite, fullEnables, hc, hw, hs]

theorem busWrite_partial {be : BitVec 4} (h : be ≠ 0xF) : s.busWrite rq a be f g = s.violateReg rq true (rq.target a) := by
  have e : fullEnables be = false := decide_eq_false h
  simp [State.busWrite, e]

theorem busWrite_denied (hc : rq.cxlPart a = none) (hw : s.writes rq (rq.target a) = false) :
    s.busWrite rq a 0xF f g = s.violateReg rq true (rq.target a) := by
  simp [State.busWrite, fullEnables, hc, hw]

end Bus

/-! ### Register pairs (R4 to R6) -/

section Pairs

variable {rq : Requester} {s : State}

@[simp] theorem State.heldLow_setHeld (lo : Nat) (v : Option Word) : (s.setHeld rq lo v).heldLow rq lo = v :=
  Tbl.get_set_same _ _ _ _

@[simp] theorem State.latched_setLatch (v : Word) : (s.setLatch rq v).latched rq = v :=
  Tbl.get_set_same _ _ _ _

theorem State.pairDone_held {ca : Nat} {v w : Word} (h : s.heldLow rq (ca - 4) = some w) :
    s.pairDone rq ca v = ((s.store (ca - 4) w).setHeld rq (ca - 4) none).store ca v := by
  simp [State.pairDone, h]

theorem State.pairDone_unheld {ca : Nat} {v : Word} (h : s.heldLow rq (ca - 4) = none) : s.pairDone rq ca v = s.store ca v := by
  simp [State.pairDone, h]

theorem writeAny_lo {ca : Nat} {v : Word} (hp : RegMap.pairPart ca = .lo) (hb : s.barred ca = false) :
    s.writeAny rq ca v = s.setHeld rq ca (some v) := by
  simp [State.writeAny, hp, State.writeLow, hb]

/-- The pairs of the Ranger block have no action: the high word applies the pair. -/
theorem writeAny_hi_rng {ca i o : Nat} {v : Word} (hl : RegMap.locate ca = some (.rng, i, o)) (hp : RegMap.pairPart ca = .hi)
    (hw : s.writes rq ca = true) : s.writeAny rq ca v = s.pairDone rq ca v := by
  unfold State.writeAny State.writeHigh State.pairHigh
  rw [hp, hl]
  exact access_run hw

variable {a v : Word}

/-- The high word of a pair of the Ranger block, written by a requester that may write it, leaves the pair applied. -/
theorem completes_pairHighWrite_rng {i o : Nat} (hc : rq.cxlPart a.toNat = none) (hw : s.writes rq (rq.target a.toNat) = true)
    (hl : RegMap.locate (rq.target a.toNat) = some (.rng, i, o)) (hp : RegMap.pairPart (rq.target a.toNat) = .hi) :
    Completes (.registerPairHighWrite rq a v 0xF) s fun t => t = s.pairDone rq (rq.target a.toNat) v :=
  completes_act (by rfl) ((busWrite_run hc hw (State.semBarred_of_locate hl (by decide))).trans (writeAny_hi_rng hl hp hw))

end Pairs

/-! ### Single registers (R7, R67) -/

/-- Bit by bit, a write sets the RW bits, clears a W1C bit by 1, and leaves every other bit. -/
theorem RegRow.bit_write (r : RegRow) (old v : Word) {j : Nat} (h : j < 32) :
    bitOf (r.write old v) j = if r.rw.testBit j then bitOf v j else bitOf old j && !(r.w1c.testBit j && bitOf v j) := by
  unfold RegRow.write
  simp only [bitOf, BitVec.getLsbD_or, BitVec.getLsbD_and, BitVec.getLsbD_not, BitVec.getLsbD_ofNat, h, decide_true, Bool.true_and]
  cases r.rw.testBit j <;> simp [Bool.and_comm]

/-- The registers of these blocks have no action. -/
theorem writeOne_plain {s : State} {rq : Requester} {ca i o : Nat} {b : Blk} {v : Word} (hl : RegMap.locate ca = some (b, i, o))
    (hb : b ∈ [Blk.crib, Blk.cxl, Blk.lft, Blk.sw]) : s.writeOne rq ca v = s.store ca v := by
  unfold State.writeOne
  rw [hl]
  simp only [List.mem_cons, List.not_mem_nil, or_false] at hb
  rcases hb with rfl | rfl | rfl | rfl <;> rfl

theorem writeAny_one {s : State} {rq : Requester} {ca : Nat} {v : Word} (hp : RegMap.pairPart ca = .one) :
    s.writeAny rq ca v = s.writeOne rq ca v := by
  simp [State.writeAny, hp]

/-- A write of a register that is no half of a pair, by a requester that may write it, is what its action leaves. -/
theorem completes_registerWrite_one {s : State} {rq : Requester} {a v : Word} (hc : rq.cxlPart a.toNat = none)
    (hw : s.writes rq (rq.target a.toNat) = true) (hs : s.semBarred (rq.target a.toNat) = false)
    (hp : RegMap.pairPart (rq.target a.toNat) = .one) :
    Completes (.registerWrite rq a v 0xF) s fun t => t = s.writeOne rq (rq.target a.toNat) v :=
  completes_act (by rfl) ((busWrite_run hc hw hs).trans (writeAny_one hp))

theorem Completes.imp {c : Instr} {s : State} {P Q : State → Prop} (h : Completes c s P) (k : ∀ t, P t → Q t) : Completes c s Q := fun r =>
  let ⟨t, e, p⟩ := h r
  ⟨t, e, k t p⟩

/-! ### Semaphores (R324 to R328) -/

/-- A value whose check bits show nothing is taken as it stands. -/
@[simp] theorem State.semFind_clean (s : State) (p i : Nat) : s.semFind p i 0 = s := rfl

theorem State.semAdd_poisoned {s : State} {p i a : Nat} (h : (s.sem i).poison = true) : s.semAdd p i a = (s.semEvent p i 0, none) := by
  simp [State.semAdd, h]

/-- A command of the SYNC queue completes with what its work leaves. -/
theorem completes_syncStep {i : Instr} {s : State} {P : State → Prop} {p chute seq op : Nat} {c : Cmd} {f : State → Cmd → State}
    (e : exec i s = act s (fun s => s.syncStep p chute seq op f)) (h : s.running p chute seq = some c) (o : c.opcode = op) (k : P (f s c)) :
    Completes i s P :=
  completes_act e (by rw [syncStep_run h o]; exact k)

/-! ### Sync messages (R340, R344) -/

theorem Packet.typ_of_isSync {k : Packet} {typ : Nat} (h : k.isSync typ = true) : k.typ = typ := by
  simp only [Packet.isSync, Bool.and_eq_true, decide_eq_true_eq] at h
  exact h.1.2

/-- A sync message that its window lets through completes with what its check leaves. -/
theorem completes_onSync {i : Instr} {s u : State} {P : State → Prop} {k : Packet} {typ : Nat} {f : State → State}
    (e : exec i s = act s (fun s => s.onSync k typ f)) (hk : k.isSync typ = true) (he : Enters s k u) (h : P (f u)) : Completes i s P :=
  completes_act e (by rw [onSync_run hk he]; exact h)

section Judge

variable {s : State} {k : Packet} {x : Comp} {err : Fin 3}

/-- A message of a composition the node does not know is stale. -/
theorem judgeSync_unknown (h : s.comp k.comp = none) : s.judgeSync k err = s.refuseStale k := by
  simp [State.judgeSync, State.epochCheck, h]

/-- An operation on a semaphore in the member partition's range runs. -/
theorem judgeSync_sem (ht : k.typ = syAdd ∨ k.typ = sySet) (h : s.epochCheck k.comp k.epoch k.src (fun p => s.semIn p (nfld k.sync2 17 0)) = .run)
    (hx : s.comp k.comp = some x) : s.judgeSync k err = s.runSem k x.part err := by
  have access : ∀ p, ((decide (k.typ ≠ syAdd) && decide (k.typ ≠ sySet)) || s.semIn p (nfld k.sync2 17 0)) = s.semIn p (nfld k.sync2 17 0) := by
    rcases ht with t | t <;> simp [t]
  simp only [State.judgeSync, access, h, State.runSync, hx, if_pos ht]

/-- A message of another type names no semaphore, so that only its epoch and source are checked. -/
theorem judgeSync_other (ha : k.typ ≠ syAdd) (hs : k.typ ≠ sySet) (h : s.epochCheck k.comp k.epoch k.src (fun _ => true) = .run) :
    s.judgeSync k err = s.runSync k err := by
  simp [State.judgeSync, ha, hs, h]

theorem judgeSync_arrive (ht : k.typ = syArrive) (h : s.epochCheck k.comp k.epoch k.src (fun _ => true) = .run) (hx : s.comp k.comp = some x) :
    s.judgeSync k err = s.runArrive k x := by
  rw [judgeSync_other (by rw [ht]; decide) (by rw [ht]; decide) h]
  simp [State.runSync, hx, ht, syArrive, syAdd, sySet]

theorem judgeSync_release (ht : k.typ = syRelease) (h : s.epochCheck k.comp k.epoch k.src (fun _ => true) = .run) (hx : s.comp k.comp = some x) :
    s.judgeSync k err = s.runRelease k x.part := by
  rw [judgeSync_other (by rw [ht]; decide) (by rw [ht]; decide) h]
  simp [State.runSync, hx, ht, syRelease, syArrive, syAdd, sySet]

/-- The arrival of a participant that is not the last is recorded (R331). -/
theorem runArrive_recorded {key : Nat} {b : Barrier} (he : k.epoch = x.epoch) (hkey : key = barKey k.comp (nfld k.sync2 31 26))
    (hb : b = if (s.barrier key).arrivals.isEmpty then { s.barrier key with mask := wordAt k.body 4 % 4, epoch := k.epoch } else s.barrier key)
    (hp : (participants x.map b.mask).contains k.src = true) (hn : b.arrivals.contains k.src = false)
    (hl : b.arrivals.length + 1 ≠ (participants x.map b.mask).length) :
    s.runArrive k x = (s.endRequest k stOk 0 0 false).setBarrier key { b with arrivals := b.arrivals ++ [k.src] } := by
  unfold State.runArrive
  dsimp only
  rw [if_neg (not_not_intro he), ← hkey, ← hb, if_neg (by rw [hp, hn]; decide), if_neg (by simpa using hl)]

/-- The release of a barrier ends the BARRIER that waits for it (R331, R333). -/
theorem runRelease_waiting {p key chute seq : Nat} {c : Cmd} {v : State} (hkey : key = barKey k.comp (nfld k.sync2 31 26))
    (hv : v = s.endRequest k stOk 0 0 false) (hs : v.side key = some (chute, seq)) (hr : v.running p chute seq = some c)
    (ho : epochOlder k.epoch c.compEpoch = false) :
    s.runRelease k p = (v.setSide key none).finish p chute seq stOk (pairAt k.body 4) (nfld (wordAt k.body 6) 13 0) := by
  simp [State.runRelease, ← hkey, ← hv, hs, hr, ho]

end Judge

end Sys2Proof.Machine

section

open Sys2Proof Sys2Proof.Machine

/-- Settles O3: the tick and every command keep the canonical forms (steady_tick, steady_exec). -/
theorem stepKeepsCanonical : Obligations.StepKeepsCanonical := by
  unfold Obligations.StepKeepsCanonical
  intro s t e h
  exact canonical_step e h

/-- Settles O13: each access is the branch of the control bus that its place in the pair selects. -/
theorem registerPairs : Obligations.RegisterPairs := by
  unfold Obligations.RegisterPairs
  refine ⟨?_, ?_, ?_, ?_, ?_⟩
  · intro rq a s hc hr hs hp
    refine completes_act (by rfl) ?_
    simp only [hc, hr, hs, hp, Bool.not_false, Bool.and_self, if_true]
    exact ⟨_, rfl, State.latched_setLatch _, rfl, rfl⟩
  · intro rq a s hc hr hs hp
    refine completes_act (by rfl) ?_
    simp only [hc, hr, hs, hp, Bool.not_false, Bool.and_self, if_true]
  · intro rq a v s hc hw hs hb hp
    refine completes_act (by rfl) ?_
    rw [busWrite_run hc hw hs, writeAny_lo hp hb]
    exact ⟨rfl, State.heldLow_setHeld _ _, rfl⟩
  · intro rq a v w i o s hc hw hl hp hh
    rw [← State.pairDone_held hh]
    exact completes_pairHighWrite_rng hc hw hl hp
  · intro rq a v i o s hc hw hl hp hh
    rw [← State.pairDone_unheld hh]
    exact completes_pairHighWrite_rng hc hw hl hp

/-- Settles O14: the control bus's branches, a plain register's bits one by one, and the clear of the counts register by register. -/
theorem registerWrites : Obligations.RegisterWrites := by
  unfold Obligations.RegisterWrites
  refine ⟨?_, ?_, ?_, ?_, ?_⟩
  · intro rq a v b i o s hc hw hl hb hp
    have hs : s.semBarred (rq.target a.toNat) = false := State.semBarred_of_locate hl (by rintro rfl; simp at hb)
    obtain ⟨r, hr⟩ := State.rowAt_of_writes hw
    refine (completes_registerWrite_one hc hw hs hp).imp fun t e => ?_
    rw [writeOne_plain hl hb] at e
    subst e
    refine ⟨⟨r, hr, fun j hj => ?_⟩, fun c ne => State.reg_store_ne s _ c v ne, State.store_parts s _ v, State.store_t1 s _ v, State.store_t0 s _ v⟩
    rw [State.reg_store s _ _ v r hr, if_pos rfl]
    exact RegRow.bit_write r _ v hj
  · intro rq a v s hc hw hs hp
    exact completes_registerWrite_one hc hw hs hp
  · intro rq a v be s hbe
    exact completes_act (by rfl) (busWrite_partial hbe)
  · intro rq a v s hc hw
    exact completes_act (by rfl) (busWrite_denied hc hw)
  · intro rq v s hw
    refine completes_access (by rfl) hw fun b => ?_
    have total : Reg.RNG_VIOL_TOTAL_LO + 4 = Reg.RNG_VIOL_TOTAL_HI := rfl
    have addr : Reg.RNG_VIOL_ADDR_LO + 4 = Reg.RNG_VIOL_ADDR_HI := rfl
    simp only [State.reg_foldl_setRegN, State.reg_setReg64, State.reg_setRegN, total, addr, List.mem_cons, List.not_mem_nil, or_false]
    by_cases part : ∃ p ∈ List.range 32, b = Reg.RNG_VIOL_PART p
    · rw [if_pos part, if_pos (.inr part)]; rfl
    · simp only [part, if_false, or_false]
      grind

/-- Settles O40: each command takes the branch of its meaning that its conditions choose, each message the row of the epoch check that applies. -/
theorem semaphoresAndBarriers : Obligations.SemaphoresAndBarriers := by
  unfold Obligations.SemaphoresAndBarriers
  refine ⟨?_, ?_, ?_, ?_, ?_, ?_, ?_, ?_, ?_, ?_, ?_, ?_, ?_, ?_, ?_, ?_, ?_, ?_⟩
  · rintro p chute seq c i n s u hr ho hs hl hset rfl hi ha
    refine completes_syncStep (by rfl) hr ho ?_
    simp [-BitVec.getLsbD_eq_getElem, hs, hl, hset, hi, ha]
  · rintro p chute seq c i s hr ho hs hl hset rfl hi
    refine completes_syncStep (by rfl) hr ho ?_
    show _ = (s.semSet p.val (nfld (c.arg 8) 17 0) (c.arg64 9)).1.endCmd p.val c stOk (s.semSet p.val (nfld (c.arg 8) 17 0) (c.arg64 9)).2 0
    simp [-BitVec.getLsbD_eq_getElem, hs, hl, hset, hi]
  · rintro p chute seq c i s hr ho hs hl hset rfl hi hpoison
    refine completes_syncStep (by rfl) hr ho ?_
    simp [-BitVec.getLsbD_eq_getElem, hs, hl, hset, hi, State.semAdd_poisoned hpoison]
  · rintro p chute seq c s hr ho hs hl hn he hc hset
    refine completes_syncStep (by rfl) hr ho ?_
    simp [-BitVec.getLsbD_eq_getElem, hs, hl, hn, he, hc, hset]
  · rintro p chute seq c s hr ho hs hl hi
    refine completes_syncStep (by rfl) hr ho ?_
    simp [hs, hl, hi]
  · rintro p chute seq c i s hr ho hm rfl hi hw
    refine completes_syncStep (by rfl) hr ho ?_
    simp [hm, hi, hw]
  · rintro p ch q n x s hw hseen
    refine completes_act (by rfl) ?_
    simp [hw, hseen]
  · rintro e p n x c s u hw hseen rfl hp hk
    refine completes_act (by rfl) ?_
    simp [hw, hseen, State.meWaitEnds, hp, hk]
  · rintro g p w len n x c s u hw hseen rfl hp hk
    refine completes_act (by rfl) ?_
    simp [hw, hseen, State.gcWaitEnds, hp, hk]
  · rintro p chute seq c i x s hr ho rfl hi hw hseen hmax hlate
    refine completes_syncStep (by rfl) hr ho ?_
    simp [hw, hseen, hmax, hlate, hi]
  · rintro rq p v w i s hw rfl hi hh
    refine completes_access (by rfl) hw ?_
    simp [hi, hh]
  · rintro rq p v err s hw hi
    refine completes_access (by rfl) hw ?_
    simp [hi]
  · rintro i typ hmem k x s u hk he hrun hx
    simp only [List.mem_cons, Prod.mk.injEq, List.not_mem_nil, or_false] at hmem
    rcases hmem with ⟨rfl, rfl⟩ | ⟨rfl, rfl⟩
    · exact completes_onSync (by rfl) hk he (judgeSync_sem (.inl (Packet.typ_of_isSync hk)) hrun hx)
    · exact completes_onSync (by rfl) hk he (judgeSync_sem (.inr (Packet.typ_of_isSync hk)) hrun hx)
  · rintro k x key b s u hk he hrun hx hepoch hkey hb hp hn hl
    refine completes_onSync (by rfl) hk he ?_
    rw [judgeSync_arrive (Packet.typ_of_isSync hk) hrun hx, runArrive_recorded hepoch hkey hb hp hn hl]
  · rintro k x key chute seq c s u v hk he hrun hx hkey hv hs hr ho
    refine completes_onSync (by rfl) hk he ?_
    rw [judgeSync_release (Packet.typ_of_isSync hk) hrun hx, runRelease_waiting hkey hv hs hr ho]
  · rintro i typ hmem k s u hk he hx
    simp only [List.mem_cons, Prod.mk.injEq, List.not_mem_nil, or_false] at hmem
    rcases hmem with ⟨rfl, rfl⟩ | ⟨rfl, rfl⟩ | ⟨rfl, rfl⟩ | ⟨rfl, rfl⟩ | ⟨rfl, rfl⟩
    all_goals exact completes_onSync (by rfl) hk he (judgeSync_unknown hx)
  · rintro p chute seq c k b m s u hr ho hm hs hk hep rfl rfl hpart hd hside hear
    refine completes_syncStep (by rfl) hr ho ?_
    simp [-List.contains_eq_mem, hm, hs, hk, hep, hpart, afterScope_run hd, hside, hear]
  · rintro p chute seq c s hr ho hm hs hk
    refine completes_syncStep (by rfl) hr ho ?_
    simp [hm, hs, hk]

end

/-! PROOFS for 01_architecture.md: steps and the reset state, what commands leave alone, masked stores, host requests, dynamic capacity. -/

namespace Sys2Proof.Machine

/-! ### What every command does and leaves -/

/-- Every command answers a next state: its meaning is a change of the state, made while the part runs, or, for the resets, while it has power or
in any state. No meaning is a fault or a refusal. -/
theorem answers_exec (i : Instr) (s : State) : ∃ t, exec i s = .next t := by
  cases i with
  | warmReset b =>
    cases b with
    | none => exact ⟨_, rfl⟩
    | some x => exact ⟨_, rfl⟩
  | _ => exact ⟨_, rfl⟩

/-- Every command that Safety.leavesMemory names is quiet, by its own lemma; of the others nothing is claimed. -/
theorem quiet_exec {i : Instr} {s t : State} (h : leavesMemory i = true) (e : exec i s = .next t) : Quiet s t := by
  cases i with
  | registerPairLowRead => exact quiet_execRegisterPairLowRead e (Quiet.refl s)
  | violClear _ v => exact quiet_execViolClear (a2 := v) e (Quiet.refl s)
  | chuteEnable => exact quiet_execChuteEnable e (Quiet.refl s)
  | chuteDisable => exact quiet_execChuteDisable e (Quiet.refl s)
  | cplEnable => exact quiet_execCplEnable e (Quiet.refl s)
  | cplHeadWrite => exact quiet_execCplHeadWrite e (Quiet.refl s)
  | mboxHeadWrite => exact quiet_execMboxHeadWrite e (Quiet.refl s)
  | holdLimitExpire => exact quiet_execHoldLimitExpire e (Quiet.refl s)
  | fifoPacketReceive => exact quiet_execFifoPacketReceive e (Quiet.refl s)
  | commandStart => exact quiet_execCommandStart e (Quiet.refl s)
  | deadlineExpire => exact quiet_execDeadlineExpire e (Quiet.refl s)
  | abortCommand => exact quiet_execAbortCommand e (Quiet.refl s)
  | resumeFault => exact quiet_execResumeFault e (Quiet.refl s)
  | faultPop _ _ v => exact quiet_execFaultPop (a3 := v) e (Quiet.refl s)
  | meProgram => exact quiet_execMeProgram e (Quiet.refl s)
  | mma => exact quiet_execMma e (Quiet.refl s)
  | quant => exact quiet_execQuant e (Quiet.refl s)
  | meSemWait => exact quiet_execMeSemWait e (Quiet.refl s)
  | meSemSignal => exact quiet_execMeSemSignal e (Quiet.refl s)
  | meQuarantine => exact quiet_execMeQuarantine e (Quiet.refl s)
  | meUnquarantine => exact quiet_execMeUnquarantine e (Quiet.refl s)
  | escTableEnable => exact quiet_execEscTableEnable e (Quiet.refl s)
  | ecall => exact quiet_execEcall e (Quiet.refl s)
  | ebreak => exact quiet_execEbreak e (Quiet.refl s)
  | illegalInstruction => exact quiet_execIllegalInstruction e (Quiet.refl s)
  | fence => exact quiet_execFence e (Quiet.refl s)
  | fenceI => exact quiet_execFenceI e (Quiet.refl s)
  | gcBxw => exact quiet_execGcBxw e (Quiet.refl s)
  | gcBxc => exact quiet_execGcBxc e (Quiet.refl s)
  | gcDq => exact quiet_execGcDq e (Quiet.refl s)
  | gcSemwait => exact quiet_execGcSemwait e (Quiet.refl s)
  | gcSemrd => exact quiet_execGcSemrd e (Quiet.refl s)
  | gcTag => exact quiet_execGcTag e (Quiet.refl s)
  | gcQuarantine => exact quiet_execGcQuarantine e (Quiet.refl s)
  | gcUnquarantine => exact quiet_execGcUnquarantine e (Quiet.refl s)
  | moveChannelTake => exact quiet_execMoveChannelTake e (Quiet.refl s)
  | loftWriteStage => exact quiet_execLoftWriteStage e (Quiet.refl s)
  | loftStripeProgram => exact quiet_execLoftStripeProgram e (Quiet.refl s)
  | loftProgramDone => exact quiet_execLoftProgramDone e (Quiet.refl s)
  | loftGc => exact quiet_execLoftGc e (Quiet.refl s)
  | loftWearMove => exact quiet_execLoftWearMove e (Quiet.refl s)
  | loftRead => exact quiet_execLoftRead e (Quiet.refl s)
  | loftReadDone => exact quiet_execLoftReadDone e (Quiet.refl s)
  | lowerTierLate => exact quiet_execLowerTierLate e (Quiet.refl s)
  | loftStatusTimeout => exact quiet_execLoftStatusTimeout e (Quiet.refl s)
  | loftRebuildStripe => exact quiet_execLoftRebuildStripe e (Quiet.refl s)
  | loftChannelReset => exact quiet_execLoftChannelReset e (Quiet.refl s)
  | loftChannelRetire => exact quiet_execLoftChannelRetire e (Quiet.refl s)
  | loftTrim => exact quiet_execLoftTrim e (Quiet.refl s)
  | loftReady => exact quiet_execLoftReady e (Quiet.refl s)
  | mirrorCommit => exact quiet_execMirrorCommit e (Quiet.refl s)
  | mirrorRebuild => exact quiet_execMirrorRebuild e (Quiet.refl s)
  | mirrorCopyDone => exact quiet_execMirrorCopyDone e (Quiet.refl s)
  | xltEnable => exact quiet_execXltEnable e (Quiet.refl s)
  | xltDisable _ _ v => exact quiet_execXltDisable (a3 := v) e (Quiet.refl s)
  | xltInvalidate => exact quiet_execXltInvalidate e (Quiet.refl s)
  | xltInvalidateAll => exact quiet_execXltInvalidateAll e (Quiet.refl s)
  | xltInvalidateDone => exact quiet_execXltInvalidateDone e (Quiet.refl s)
  | memSpecRd ld hpa => exact quiet_execMemSpecRd (a1 := ld) (a2 := hpa) e (Quiet.refl s)
  | memRdFwd => exact quiet_execMemRdFwd e (Quiet.refl s)
  | memWrFwd => exact quiet_execMemWrFwd e (Quiet.refl s)
  | biConflict => exact quiet_execBiConflict e (Quiet.refl s)
  | unknownTypeDiscard => exact quiet_execUnknownTypeDiscard e (Quiet.refl s)
  | hostLostScanDone => exact quiet_execHostLostScanDone e (Quiet.refl s)
  | dirPeek => exact quiet_execDirPeek e (Quiet.refl s)
  | combineHoldExpire => exact quiet_execCombineHoldExpire e (Quiet.refl s)
  | packetAged => exact quiet_execPacketAged e (Quiet.refl s)
  | trainingPass => exact quiet_execTrainingPass e (Quiet.refl s)
  | trainingFail => exact quiet_execTrainingFail e (Quiet.refl s)
  | linkQuiet => exact quiet_execLinkQuiet e (Quiet.refl s)
  | mboxEnable => exact quiet_execMboxEnable e (Quiet.refl s)
  | rowDirEnable => exact quiet_execRowDirEnable e (Quiet.refl s)
  | cribAge => exact quiet_execCribAge e (Quiet.refl s)
  | rowQuarantine => exact quiet_execRowQuarantine e (Quiet.refl s)
  | rowUnquarantine => exact quiet_execRowUnquarantine e (Quiet.refl s)
  | winDirEnable => exact quiet_execWinDirEnable e (Quiet.refl s)
  | indexUnload => exact quiet_execIndexUnload e (Quiet.refl s)
  | winQuarantine => exact quiet_execWinQuarantine e (Quiet.refl s)
  | winUnquarantine => exact quiet_execWinUnquarantine e (Quiet.refl s)
  | semWait => exact quiet_execSemWait e (Quiet.refl s)
  | waitSatisfied => exact quiet_execWaitSatisfied e (Quiet.refl s)
  | semWaitTimeout => exact quiet_execSemWaitTimeout e (Quiet.refl s)
  | semValWrite => exact quiet_execSemValWrite e (Quiet.refl s)
  | fatalError => exact quiet_execFatalError e (Quiet.refl s)
  | ceSummary => exact quiet_execCeSummary e (Quiet.refl s)
  | recordResend => exact quiet_execRecordResend e (Quiet.refl s)
  | recordAck => exact quiet_execRecordAck e (Quiet.refl s)
  | getRecords => exact quiet_execGetRecords e (Quiet.refl s)
  | ackRecords => exact quiet_execAckRecords e (Quiet.refl s)
  | ftGo => exact quiet_execFtGo e (Quiet.refl s)
  | ftCancel => exact quiet_execFtCancel e (Quiet.refl s)
  | ftTake => exact quiet_execFtTake e (Quiet.refl s)
  | ftRetry => exact quiet_execFtRetry e (Quiet.refl s)
  | ftExpire => exact quiet_execFtExpire e (Quiet.refl s)
  | ftNominalPass => exact quiet_execFtNominalPass e (Quiet.refl s)
  | ftMarginPass => exact quiet_execFtMarginPass e (Quiet.refl s)
  | clockGate => exact quiet_execClockGate e (Quiet.refl s)
  | powerGate => exact quiet_execPowerGate e (Quiet.refl s)
  | pllStop => exact quiet_execPllStop e (Quiet.refl s)
  | selfRefresh => exact quiet_execSelfRefresh e (Quiet.refl s)
  | wakeDone => exact quiet_execWakeDone e (Quiet.refl s)
  | standby _ v => exact quiet_execStandby (a2 := v) e (Quiet.refl s)
  | runNode _ v => exact quiet_execRunNode (a2 := v) e (Quiet.refl s)
  | runDone => exact quiet_execRunDone e (Quiet.refl s)
  | powerTick => exact quiet_execPowerTick e (Quiet.refl s)
  | unitReset => exact quiet_execUnitReset e (Quiet.refl s)
  | perstNDeassert => exact quiet_execPerstNDeassert e (Quiet.refl s)
  | cxlPortReady => exact quiet_execCxlPortReady e (Quiet.refl s)
  | swap _ v => exact quiet_execSwap (a2 := v) e (Quiet.refl s)
  | paramCheckDone => exact quiet_execParamCheckDone e (Quiet.refl s)
  | setTrial => exact quiet_execSetTrial e (Quiet.refl s)
  | newChallenge _ v => exact quiet_execNewChallenge (a2 := v) e (Quiet.refl s)
  | objBegin => exact quiet_execObjBegin e (Quiet.refl s)
  | objData => exact quiet_execObjData e (Quiet.refl s)
  | objAbort => exact quiet_execObjAbort e (Quiet.refl s)
  | transferTimeout => exact quiet_execTransferTimeout e (Quiet.refl s)
  | quote => exact quiet_execQuote e (Quiet.refl s)
  | kemKey => exact quiet_execKemKey e (Quiet.refl s)
  | sessionOpen => exact quiet_execSessionOpen e (Quiet.refl s)
  | sessionMsg => exact quiet_execSessionMsg e (Quiet.refl s)
  | identifyDevice => exact quiet_execIdentifyDevice e (Quiet.refl s)
  | identifyMemoryDevice => exact quiet_execIdentifyMemoryDevice e (Quiet.refl s)
  | getSupportedLogs => exact quiet_execGetSupportedLogs e (Quiet.refl s)
  | getLog => exact quiet_execGetLog e (Quiet.refl s)
  | getEventRecords => exact quiet_execGetEventRecords e (Quiet.refl s)
  | clearEventRecords => exact quiet_execClearEventRecords e (Quiet.refl s)
  | getEventInterruptPolicy => exact quiet_execGetEventInterruptPolicy e (Quiet.refl s)
  | setEventInterruptPolicy => exact quiet_execSetEventInterruptPolicy e (Quiet.refl s)
  | getDynamicCapacityConfig => exact quiet_execGetDynamicCapacityConfig e (Quiet.refl s)
  | getDynamicCapacityExtentList => exact quiet_execGetDynamicCapacityExtentList e (Quiet.refl s)
  | addDynamicCapacityResponse => exact quiet_execAddDynamicCapacityResponse e (Quiet.refl s)
  | getLdInfo => exact quiet_execGetLdInfo e (Quiet.refl s)
  | getLdAllocations => exact quiet_execGetLdAllocations e (Quiet.refl s)
  | setLdAllocations => exact quiet_execSetLdAllocations e (Quiet.refl s)
  | getDcRegionConfiguration => exact quiet_execGetDcRegionConfiguration e (Quiet.refl s)
  | getDcRegionExtentLists => exact quiet_execGetDcRegionExtentLists e (Quiet.refl s)
  | unsupportedMailboxCommand => exact quiet_execUnsupportedMailboxCommand e (Quiet.refl s)
  | arpRequest => exact quiet_execArpRequest e (Quiet.refl s)
  | icmpEcho => exact quiet_execIcmpEcho e (Quiet.refl s)
  | setDasa => exact quiet_execSetDasa e (Quiet.refl s)
  | entDaa => exact quiet_execEntDaa e (Quiet.refl s)
  | setEndpointId => exact quiet_execSetEndpointId e (Quiet.refl s)
  | getEndpointId => exact quiet_execGetEndpointId e (Quiet.refl s)
  | getVersionSupport => exact quiet_execGetVersionSupport e (Quiet.refl s)
  | getMessageTypeSupport => exact quiet_execGetMessageTypeSupport e (Quiet.refl s)
  | sclClear => exact quiet_execSclClear e (Quiet.refl s)
  | startAll _ v => exact quiet_execStartAll (a2 := v) e (Quiet.refl s)
  | stopAll _ v => exact quiet_execStopAll (a2 := v) e (Quiet.refl s)
  | clearAll _ v => exact quiet_execClearAll (a2 := v) e (Quiet.refl s)
  | sclEvselWrite => exact quiet_execSclEvselWrite e (Quiet.refl s)
  | bwWindowEnd => exact quiet_execBwWindowEnd e (Quiet.refl s)
  | samplingEnable => exact quiet_execSamplingEnable e (Quiet.refl s)
  | sclSmpPop _ _ v => exact quiet_execSclSmpPop (a3 := v) e (Quiet.refl s)
  | tallyStart _ _ v => exact quiet_execTallyStart (a3 := v) e (Quiet.refl s)
  | tallyStop _ _ v => exact quiet_execTallyStop (a3 := v) e (Quiet.refl s)
  | tallyClear _ _ v => exact quiet_execTallyClear (a3 := v) e (Quiet.refl s)
  | tallyScan _ _ v => exact quiet_execTallyScan (a3 := v) e (Quiet.refl s)
  | tallyTrained => exact quiet_execTallyTrained e (Quiet.refl s)
  | tallyTrainTimeout => exact quiet_execTallyTrainTimeout e (Quiet.refl s)
  | tallyDurationEnd => exact quiet_execTallyDurationEnd e (Quiet.refl s)
  | tallyLockLost => exact quiet_execTallyLockLost e (Quiet.refl s)
  | eyeScanDone => exact quiet_execEyeScanDone e (Quiet.refl s)
  | cxlLinkUp => exact quiet_execCxlLinkUp e (Quiet.refl s)
  | loftEraseDone => exact quiet_execLoftEraseDone e (Quiet.refl s)
  | loftChannelRetrained => exact quiet_execLoftChannelRetrained e (Quiet.refl s)
  | tallyLaneLock => exact quiet_execTallyLaneLock e (Quiet.refl s)
  | packageNetworkReplay => exact quiet_execPackageNetworkReplay e (Quiet.refl s)
  | standbyDone => exact quiet_execStandbyDone e (Quiet.refl s)
  | cxlConfigRequest => exact quiet_execCxlConfigRequest e (Quiet.refl s)
  | managementLinkChange => exact quiet_execManagementLinkChange e (Quiet.refl s)
  | managementFrameDrop port => exact quiet_execManagementFrameDrop (a1 := port) e (Quiet.refl s)
  | _ => cases h

/-! ### Masked writes of a memory (R15, R180) -/

/-- A masked write changes the bytes its mask names, each to its own byte of the data. -/
theorem Memory.read_writeMasked (m : Memory) (a mask n v i : Nat) : (m.writeMasked a mask n v).read i =
    if (a ≤ i ∧ i < a + n) ∧ mask.testBit (i - a) = true then BitVec.ofNat 8 (v / 256 ^ (i - a)) else m.read i := by
  induction n generalizing m a mask v with
  | zero =>
    rw [if_neg (by omega)]
    rfl
  | succ n ih =>
    have first : (if mask % 2 = 1 then m.write a (BitVec.ofNat 8 v) else m).read i =
        if i = a ∧ mask.testBit 0 = true then BitVec.ofNat 8 v else m.read i := by
      by_cases b : mask % 2 = 1
      · simp [b, Memory.read_write]
      · simp [b]
    refine (ih _ (a + 1) (mask / 2) (v / 256)).trans ?_
    rw [first]
    obtain lt | rfl | gt := Nat.lt_trichotomy i a
    · rw [if_neg (by omega), if_neg (by omega), if_neg (by omega)]
    · rw [if_neg (by omega), Nat.sub_self, Nat.pow_zero, Nat.div_one]
      exact ite_congr (propext (and_congr_left' (by omega))) (fun _ => rfl) (fun _ => rfl)
    · obtain ⟨k, rfl⟩ : ∃ k, i = a + 1 + k := ⟨i - (a + 1), by omega⟩
      have bit : a + 1 + k - a = k + 1 := by omega
      have shifted : v / 256 / 256 ^ k = v / 256 ^ (k + 1) := by rw [Nat.div_div_eq_div_mul, Nat.pow_succ']
      rw [Nat.add_sub_cancel_left, bit, shifted, Nat.testBit_succ, if_neg (show ¬(a + 1 + k = a ∧ _) by omega)]
      exact ite_congr (propext (and_congr_left' (by omega))) (fun _ => rfl) (fun _ => rfl)

/-- The masked write of a line changes byte i where i lies in the line and the mask names it. -/
theorem Memory.read_writeMasked_line (m : Memory) (line mask v i : Nat) : (m.writeMasked (64 * line) mask 64 v).read i =
    if i / 64 = line ∧ mask.testBit (i % 64) = true then BitVec.ofNat 8 (v / 256 ^ (i % 64)) else m.read i := by
  rw [Memory.read_writeMasked]
  by_cases h : i / 64 = line
  · have offset : i - 64 * line = i % 64 := by omega
    rw [offset]
    exact ite_congr (propext (and_congr_left' (by omega))) (fun _ => rfl) (fun _ => rfl)
  · rw [if_neg (by omega), if_neg (by simp [h])]

/-! ### T1: poison and a masked store (R15, R129, R130) -/

/-- The home drops a line's reservations, and nothing else. -/
theorem State.dropResv_form (s : State) (a : Nat) : ∃ x, s.dropResv a = { s with resv := x } := by
  unfold State.dropResv
  split
  · exact ⟨s.resv, rfl⟩
  · exact ⟨_, rfl⟩

@[simp] theorem State.dropResv_t1 (s : State) (a : Nat) : (s.dropResv a).t1 = s.t1 := by
  obtain ⟨x, h⟩ := s.dropResv_form a
  rw [h]

@[simp] theorem State.dropResv_t0 (s : State) (a : Nat) : (s.dropResv a).t0 = s.t0 := by
  obtain ⟨x, h⟩ := s.dropResv_form a
  rw [h]

@[simp] theorem State.dropResv_parts (s : State) (a : Nat) : (s.dropResv a).parts = s.parts := by
  obtain ⟨x, h⟩ := s.dropResv_form a
  rw [h]

/-- The poison bit of a line of T1, whatever its codeword shows. -/
def State.t1Mark (s : State) (a : Nat) : Bool := Tbl.get (fun _ => false) s.t1.poison (a / 64)

theorem State.t1Poison_clean {s : State} {a : Nat} (h : s.t1Err a = none) : s.t1Poison a = s.t1Mark a := by
  unfold State.t1Poison
  rw [h]
  exact Bool.or_false _

theorem State.t1Poison_err {s : State} {a w : Nat} (h : s.t1Err a = some w) : s.t1Poison a = (s.t1Mark a || decide (2 ^ 31 ≤ w)) := by
  unfold State.t1Poison
  rw [h]
  rfl

/-- Whether a line reads as poisoned is a matter of its bit and its codeword. -/
theorem State.t1Poison_congr {s t : State} {a : Nat} (hm : t.t1Mark a = s.t1Mark a) (he : t.t1Err a = s.t1Err a) : t.t1Poison a = s.t1Poison a := by
  cases h : s.t1Err a with
  | none => rw [State.t1Poison_clean h, State.t1Poison_clean (he.trans h), hm]
  | some w => rw [State.t1Poison_err h, State.t1Poison_err (he.trans h), hm]

theorem Quiet.t1Poison {s t : State} (h : Quiet s t) (a : Nat) : t.t1Poison a = s.t1Poison a :=
  State.t1Poison_congr (by rw [State.t1Mark, h.t1]; rfl) (by rw [State.t1Err, h.t1]; rfl)

theorem State.t1Err_setT1Err (s : State) (l a : Nat) (e : Option Nat) : (s.setT1Err l e).t1Err a = if a / 64 = l / 64 then e else s.t1Err a :=
  Tbl.get_set _ _ _ _ _

@[simp] theorem State.t1Mark_setT1Err (s : State) (l a : Nat) (e : Option Nat) : (s.setT1Err l e).t1Mark a = s.t1Mark a := rfl

theorem State.t1Mark_setT1Poison (s : State) (l a : Nat) (b : Bool) : (s.setT1Poison l b).t1Mark a = if a / 64 = l / 64 then b else s.t1Mark a :=
  Tbl.get_set _ _ _ _ _

@[simp] theorem State.t1Err_setT1Poison (s : State) (l a : Nat) (b : Bool) : (s.setT1Poison l b).t1Err a = s.t1Err a := rfl

/-- What a masked store leaves of T1. -/
theorem State.t1Put_t1 (s : State) (line mask data : Nat) (poison : Bool) : (s.t1Put line mask data poison).t1 =
    { s.t1 with
      mem := s.t1.mem.writeMasked (64 * line) mask 64 data
      poison := Tbl.set (fun _ => false) s.t1.poison (64 * line / 64) (poison || (s.t1Poison (64 * line) && decide (mask % 2 ^ 64 ≠ fullMask)))
      err := if mask % 2 ^ 64 = fullMask then Tbl.set (fun _ => none) s.t1.err (64 * line / 64) none else s.t1.err } := by
  unfold State.t1Put
  simp only [State.setT1Poison, State.dropResv_t1, decide_eq_true_eq, decide_not]
  split
  · rfl
  · rfl

@[simp] theorem State.t1Put_t0 (s : State) (line mask data : Nat) (poison : Bool) : (s.t1Put line mask data poison).t0 = s.t0 := by
  unfold State.t1Put
  simp only [State.setT1Poison, State.dropResv_t0]
  split
  · rfl
  · rfl

@[simp] theorem State.t1Put_parts (s : State) (line mask data : Nat) (poison : Bool) : (s.t1Put line mask data poison).parts = s.parts := by
  unfold State.t1Put
  simp only [State.setT1Poison, State.dropResv_parts]
  split
  · rfl
  · rfl

/-- A masked store writes the bytes its mask names. -/
theorem State.read_t1Put (s : State) (line mask data : Nat) (poison : Bool) (a : Nat) : (s.t1Put line mask data poison).t1.mem.read a =
    if a / 64 = line ∧ mask.testBit (a % 64) = true then BitVec.ofNat 8 (data / 256 ^ (a % 64)) else s.t1.mem.read a := by
  rw [State.t1Put_t1]
  exact Memory.read_writeMasked_line _ _ _ _ _

/-- Poison is a matter of the line. -/
theorem State.t1Poison_line (s : State) {a b : Nat} (h : a / 64 = b / 64) : s.t1Poison a = s.t1Poison b := by
  simp only [State.t1Poison, State.t1Err, h]

theorem State.t1Mark_t1Put (s : State) (line mask data : Nat) (poison : Bool) (a : Nat) : (s.t1Put line mask data poison).t1Mark a =
    if a / 64 = line then poison || (s.t1Poison a && decide (mask % 2 ^ 64 ≠ fullMask)) else s.t1Mark a := by
  have l : 64 * line / 64 = line := Nat.mul_div_cancel_left line (by decide)
  unfold State.t1Mark
  rw [State.t1Put_t1, Tbl.get_set, l]
  split
  · rw [s.t1Poison_line (show 64 * line / 64 = a / 64 by omega)]
  · rfl

theorem State.t1Err_t1Put (s : State) (line mask data : Nat) (poison : Bool) (a : Nat) : (s.t1Put line mask data poison).t1Err a =
    if a / 64 = line ∧ mask % 2 ^ 64 = fullMask then none else s.t1Err a := by
  have l : 64 * line / 64 = line := Nat.mul_div_cancel_left line (by decide)
  unfold State.t1Err
  rw [State.t1Put_t1, l]
  dsimp only
  by_cases full : mask % 2 ^ 64 = fullMask
  · rw [if_pos full, Tbl.get_set]
    exact ite_congr (propext (and_iff_left full).symm) (fun _ => rfl) (fun _ => rfl)
  · rw [if_neg full, if_neg (fun h => full h.2)]

/-- A masked store poisons its line where it carries poison; a line poisoned before stays so unless the whole line is written. -/
theorem State.t1Poison_t1Put (s : State) (line mask data : Nat) (poison : Bool) (a : Nat) : (s.t1Put line mask data poison).t1Poison a =
    if a / 64 = line then poison || (s.t1Poison a && decide (mask % 2 ^ 64 ≠ fullMask)) else s.t1Poison a := by
  have mark := s.t1Mark_t1Put line mask data poison a
  have err := s.t1Err_t1Put line mask data poison a
  by_cases here : a / 64 = line
  · rw [if_pos here] at mark ⊢
    by_cases full : mask % 2 ^ 64 = fullMask
    · rw [State.t1Poison_clean (err.trans (if_pos ⟨here, full⟩)), mark]
    · rw [if_neg (fun h => full h.2)] at err
      cases old : s.t1Err a with
      | none => rw [State.t1Poison_clean (err.trans old), mark]
      | some w =>
        rw [State.t1Poison_err (err.trans old), mark, State.t1Poison_err old]
        simp only [full, ne_eq, not_false_eq_true, decide_true, Bool.and_true, Bool.or_assoc, Bool.or_self]
  · rw [if_neg here] at mark ⊢
    exact State.t1Poison_congr mark (err.trans (if_neg (fun h => here h.1)))

/-! ### T1: what a read finds (R129, R130) -/

/-- What a read of a line of T1 does with the error it may find: an uncorrectable line is poisoned, a corrected one is clean. -/
theorem State.t1Find_quiet (s : State) (a who : Nat) :
    (s.t1Err a = none ∧ s.t1Find a who = s) ∨
    (∃ w, s.t1Err a = some w ∧ 2 ^ 31 ≤ w ∧ Quiet ((s.setT1Err a none).setT1Poison (a / 64 * 64) true) (s.t1Find a who)) ∨
    (∃ w, s.t1Err a = some w ∧ w < 2 ^ 31 ∧ Quiet (s.setT1Err a none) (s.t1Find a who)) := by
  unfold State.t1Find
  cases e : s.t1Err a with
  | none => exact .inl ⟨rfl, rfl⟩
  | some w =>
    by_cases h : 2 ^ 31 ≤ w
    · refine .inr (.inl ⟨w, rfl, h, ?_⟩)
      simp only [h, if_true]
      unfold State.t1Uncorrectable
      exact quiet_stackLine (quiet_report (quiet_cause (quiet_setRegN (quiet_setReg64 (quiet_count (Quiet.refl _))))))
    · refine .inr (.inr ⟨w, rfl, by omega, ?_⟩)
      simp only [h, if_false]
      exact quiet_stackLine (quiet_t1Corrected (Quiet.refl _))

/-- Reading a line of T1 changes no byte. -/
theorem State.mem_t1Find (s : State) (a who : Nat) : (s.t1Find a who).t1.mem = s.t1.mem := by
  obtain ⟨-, h⟩ | ⟨w, -, -, h⟩ | ⟨w, -, -, h⟩ := s.t1Find_quiet a who
  · rw [h]
  · rw [h.t1]; rfl
  · rw [h.t1]; rfl

theorem State.t0_t1Find (s : State) (a who : Nat) : (s.t1Find a who).t0 = s.t0 := by
  obtain ⟨-, h⟩ | ⟨w, -, -, h⟩ | ⟨w, -, -, h⟩ := s.t1Find_quiet a who
  · rw [h]
  · rw [h.t0]; rfl
  · rw [h.t0]; rfl

/-- Whether a line reads as poisoned does not change when it is read: the uncorrectable line is poisoned from then on. -/
theorem State.t1Poison_t1Find (s : State) (a who b : Nat) : (s.t1Find a who).t1Poison b = s.t1Poison b := by
  obtain ⟨-, h⟩ | ⟨w, old, many, h⟩ | ⟨w, old, few, h⟩ := s.t1Find_quiet a who
  · rw [h]
  · rw [h.t1Poison]
    have line : a / 64 * 64 / 64 = a / 64 := by omega
    by_cases here : b / 64 = a / 64
    · rw [s.t1Poison_line here, State.t1Poison_line _ here, State.t1Poison_err old,
        State.t1Poison_clean (by rw [State.t1Err_setT1Poison, State.t1Err_setT1Err, if_pos rfl]), State.t1Mark_setT1Poison, if_pos line.symm,
        decide_eq_true many, Bool.or_true]
    · refine State.t1Poison_congr ?_ ?_
      · rw [State.t1Mark_setT1Poison, line, if_neg here, State.t1Mark_setT1Err]
      · rw [State.t1Err_setT1Poison, State.t1Err_setT1Err, if_neg here]
  · rw [h.t1Poison]
    by_cases here : b / 64 = a / 64
    · rw [s.t1Poison_line here, State.t1Poison_line _ here, State.t1Poison_err old,
        State.t1Poison_clean (by rw [State.t1Err_setT1Err, if_pos rfl]), State.t1Mark_setT1Err,
        decide_eq_false (Nat.not_le.mpr few), Bool.or_false]
    · exact State.t1Poison_congr (State.t1Mark_setT1Err _ _ _ _) (by rw [State.t1Err_setT1Err, if_neg here])

/-! ### Chutes: no report, event or read of T1 changes the partitions -/

theorem parts_ite {p : Tbl Part} {c : Prop} [Decidable c] {a b : State} (h : a.parts = p) (k : b.parts = p) : (if c then a else b).parts = p := by
  split
  · exact h
  · exact k

@[simp] theorem State.setRing_parts (s : State) (rs : List ErrRec) : (s.setRing rs).parts = s.parts := rfl

@[simp] theorem State.dropRecord_parts (s : State) (n : Nat) : (s.dropRecord n).parts = s.parts := rfl

@[simp] theorem State.sendRecords_parts (s : State) (rs : List ErrRec) : (s.sendRecords rs).parts = s.parts := parts_ite rfl rfl

@[simp] theorem State.addRecord_parts (s : State) (r : ErrRec) : (s.addRecord r).parts = s.parts := by
  unfold State.addRecord
  extract_lets r queued
  have h : ∀ (t : State) (ring : List ErrRec), (queued t ring).parts = t.parts := fun t ring =>
    parts_ite (State.sendRecords_parts _ _) (State.sendRecords_parts _ _)
  clear_value queued
  refine parts_ite (h s _) (parts_ite rfl ?_)
  split
  · rw [h, State.dropRecord_parts]
  · rfl

@[simp] theorem State.report_parts (s : State) (v e c i : Nat) (p : Option Nat) (st : Nat) (sy : List Nat) : (s.report v e c i p st sy).parts = s.parts := by
  unfold State.report State.newRecord
  split
  · rfl
  · exact (State.addRecord_parts _ _).trans (State.setRegN_parts _ _ _)

@[simp] theorem State.wakeNow_parts (s : State) (b : Nat) : (s.wakeNow b).parts = s.parts :=
  parts_ite rfl (parts_ite rfl rfl)

@[simp] theorem State.modScaler_parts (s : State) (k : Nat) (f : Scaler → Scaler) : (s.modScaler k f).parts = s.parts := rfl

@[simp] theorem State.sclAdd_parts (s : State) (k n v : Nat) : (s.sclAdd k n v).parts = s.parts := by
  unfold State.sclAdd
  extract_lets x t thr
  have h : t.parts = s.parts := State.setReg64_parts s _ _
  clear_value t thr x
  exact parts_ite ((State.cause_parts _ _ _).trans ((State.modScaler_parts _ _ _).trans h)) h

@[simp] theorem State.event_parts (s : State) (k : Nat) (e : Event) : (s.event k e).parts = s.parts :=
  parts_ite (List.foldlRecOn (motive := fun t : State => t.parts = s.parts) _ _ rfl
    fun _ h _ _ => parts_ite ((State.sclAdd_parts _ _ _ _).trans h) h) rfl

@[simp] theorem State.bandwidthBytes_parts (s : State) (k p d n : Nat) : (s.bandwidthBytes k p d n).parts = s.parts := parts_ite rfl rfl

@[simp] theorem State.stackLine_parts (s : State) (st a c : Nat) (w : Bool) (o : Origin) : (s.stackLine st a c w o).parts = s.parts := by
  rw [State.stackLine, State.bandwidthBytes_parts, State.event_parts, State.wakeNow_parts]

@[simp] theorem State.t1Uncorrectable_parts (s : State) (o synd who : Nat) : (s.t1Uncorrectable o synd who).parts = s.parts := by
  unfold State.t1Uncorrectable
  extract_lets h t u v
  have ht : t.parts = s.parts := State.count_parts _ _ _
  clear_value t
  have hu : u.parts = s.parts := (State.setRegN_parts _ _ _).trans ((State.setReg64_parts _ _ _).trans ht)
  clear_value u
  have hv : v.parts = s.parts := (State.cause_parts _ _ _).trans hu
  clear_value v
  exact (State.report_parts _ _ _ _ _ _ _ _).trans hv

@[simp] theorem State.count64Sat_parts (s : State) (a n : Nat) : (s.count64Sat a n).parts = s.parts := State.setReg64_parts s a _

@[simp] theorem State.corrected_parts (s : State) (c i st n : Nat) : (s.corrected c i st n).parts = s.parts := rfl

@[simp] theorem State.t1Corrected_parts (s : State) (o w : Nat) : (s.t1Corrected o w).parts = s.parts := by
  unfold State.t1Corrected
  extract_lets h t u
  have ht : t.parts = s.parts := State.count64Sat_parts _ _ _
  clear_value t
  have hu : u.parts = s.parts := (State.setRegN_parts _ _ _).trans ((State.setReg64_parts _ _ _).trans ht)
  clear_value u
  exact (State.corrected_parts _ _ _ _ _).trans hu

@[simp] theorem State.t1Find_parts (s : State) (a who : Nat) : (s.t1Find a who).parts = s.parts := by
  unfold State.t1Find
  split
  · rfl
  · exact (State.stackLine_parts _ _ _ _ _ _).trans (parts_ite (State.t1Uncorrectable_parts _ _ _ _) (State.t1Corrected_parts _ _ _))

theorem State.chuteAt_congr {s t : State} (h : t.parts = s.parts) (a : Nat) : t.chuteAt a = s.chuteAt a := by
  unfold State.chuteAt
  rw [h]

/-! ### T0: errors, poison and a masked store (R124) -/

/-- The poison bit of a line of T0, whatever its words show. -/
def State.t0Mark (s : State) (line : Nat) : Bool := Tbl.get (fun _ => false) s.t0.poison line

theorem Quiet.t0Err {s t : State} (h : Quiet s t) (a : Nat) : t.t0Err a = s.t0Err a := by
  rw [State.t0Err, h.t0]
  rfl

theorem Quiet.t0Mark {s t : State} (h : Quiet s t) (l : Nat) : t.t0Mark l = s.t0Mark l := by
  rw [State.t0Mark, h.t0]
  rfl

theorem State.t0Err_setT0Err (s : State) (a w n : Nat) : (s.setT0Err a n).t0Err w = if w / 8 = a / 8 then n else s.t0Err w :=
  Tbl.get_set _ _ _ _ _

@[simp] theorem State.t0Mark_setT0Err (s : State) (a n l : Nat) : (s.setT0Err a n).t0Mark l = s.t0Mark l := rfl

theorem State.t0Mark_setT0Poison (s : State) (a l : Nat) (b : Bool) : (s.setT0Poison a b).t0Mark l = if l = a / 64 then b else s.t0Mark l :=
  Tbl.get_set _ _ _ _ _

@[simp] theorem State.t0Err_setT0Poison (s : State) (a w : Nat) (b : Bool) : (s.setT0Poison a b).t0Err w = s.t0Err w := rfl

theorem quiet_t0Uncorrectable (s : State) (a : Nat) : Quiet (s.setT0Poison a true) (s.t0Uncorrectable a) := by
  unfold State.t0Uncorrectable
  exact quiet_report (quiet_cause (quiet_count (Quiet.refl _)))

/-- What a read of a word of T0 does with the wrong bits it may find: several poison the line, none are left. -/
theorem State.t0FindWord_quiet (s : State) (a : Nat) :
    (s.t0Err a = 0 ∧ s.t0FindWord a = s) ∨ (s.t0Err a = 1 ∧ Quiet (s.setT0Err a 0) (s.t0FindWord a)) ∨
    (2 ≤ s.t0Err a ∧ Quiet ((s.setT0Err a 0).setT0Poison a true) (s.t0FindWord a)) := by
  unfold State.t0FindWord
  split
  · next clean => exact .inl ⟨clean, rfl⟩
  · next one => exact .inr (.inl ⟨one, quiet_corrected (quiet_count (Quiet.refl _))⟩)
  · next notClean notOne => exact .inr (.inr ⟨by have : s.t0Err a ≠ 0 := notClean; have : s.t0Err a ≠ 1 := notOne; omega, quiet_t0Uncorrectable _ _⟩)

/-- The part of a line's mask that falls to one of its words. -/
def wordMask (line mask a : Nat) : Nat := mask / 2 ^ (a - 64 * line) % 256

/-- What a masked write of a line does to the check bits of one of its words (R124). -/
def State.mergeWord (s : State) (line mask a : Nat) : State :=
  if wordMask line mask a = 255 then s.setT0Err a 0 else if wordMask line mask a = 0 then s else s.t0FindWord a

theorem State.t0Merge_eq (s : State) (line mask : Nat) :
    s.t0Merge line mask = (t0Words (64 * line)).foldl (fun s a => s.mergeWord line mask a) s := rfl

/-- From `s` to `t` the check bits of some words of a line have been merged for a masked write: bytes stay; a word the mask touches has no wrong
bits left; several wrong bits in a word written in part poison its line. -/
structure Merged (line mask : Nat) (ws : List Nat) (s t : State) : Prop where
  t1 : t.t1 = s.t1
  mem : t.t0.mem = s.t0.mem
  err : ∀ w, t.t0Err w = if ∃ a ∈ ws, w / 8 = a / 8 ∧ wordMask line mask a ≠ 0 then 0 else s.t0Err w
  mark : ∀ l, t.t0Mark l = true ↔ s.t0Mark l = true ∨
    ∃ a ∈ ws, l = a / 64 ∧ wordMask line mask a ≠ 0 ∧ wordMask line mask a ≠ 255 ∧ 2 ≤ s.t0Err a

/-- A word's wrong bits are those of its 64 bits. -/
theorem State.t0Err_word (s : State) {a w : Nat} (h : w / 8 = a / 8) : s.t0Err w = s.t0Err a := by
  simp only [State.t0Err, h]

theorem merged_word (s : State) (line mask a : Nat) : Merged line mask [a] s (s.mergeWord line mask a) := by
  unfold State.mergeWord
  split
  · next full =>
    refine ⟨rfl, rfl, fun w => ?_, fun l => ?_⟩
    · simp [State.t0Err_setT0Err, full]
    · simp [full]
  · split
    · next untouched => exact ⟨rfl, rfl, fun w => by simp [untouched], fun l => by simp [untouched]⟩
    · next part touched =>
      obtain ⟨clean, h⟩ | ⟨one, h⟩ | ⟨many, h⟩ := s.t0FindWord_quiet a
      · rw [h]
        refine ⟨rfl, rfl, fun w => ?_, fun l => by simp [clean]⟩
        by_cases here : w / 8 = a / 8
        · simp [here, touched, s.t0Err_word here, clean]
        · simp [here]
      · refine ⟨h.t1, by rw [h.t0]; rfl, fun w => ?_, fun l => ?_⟩
        · rw [h.t0Err, State.t0Err_setT0Err]
          simp [touched]
        · rw [h.t0Mark]
          simp [one]
      · refine ⟨h.t1, by rw [h.t0]; rfl, fun w => ?_, fun l => ?_⟩
        · rw [h.t0Err, State.t0Err_setT0Poison, State.t0Err_setT0Err]
          simp [touched]
        · rw [h.t0Mark, State.t0Mark_setT0Poison]
          by_cases here : l = a / 64
          · simp [here, part, touched, many]
          · simp [here]

/-- The words of a line are merged one after another; no other word has the same 64 bits. -/
theorem Merged.cons {line mask a : Nat} {ws : List Nat} {s t u : State} (h : Merged line mask [a] s t) (k : Merged line mask ws t u)
    (apart : ∀ b ∈ ws, b / 8 ≠ a / 8) : Merged line mask (a :: ws) s u := by
  have herr := h.err
  have hmark := h.mark
  simp only [List.mem_singleton, exists_eq_left] at herr hmark
  have later : ∀ b ∈ ws, t.t0Err b = s.t0Err b := fun b hb => by rw [herr, if_neg (fun x => apart b hb x.1)]
  refine ⟨k.t1.trans h.t1, k.mem.trans h.mem, fun w => ?_, fun l => ?_⟩
  · rw [k.err, herr]
    simp only [List.mem_cons, exists_eq_or_imp]
    split
    · next x => rw [if_pos (.inr x)]
    · next x => exact ite_congr (propext (or_iff_left x).symm) (fun _ => rfl) (fun _ => rfl)
  · rw [k.mark, hmark, or_assoc]
    simp only [List.mem_cons, exists_eq_or_imp]
    refine or_congr_right (or_congr_right (exists_congr fun b => and_congr_right fun hb => ?_))
    rw [later b hb]

theorem merged_foldl (line mask : Nat) {ws : List Nat} (apart : ws.Pairwise fun a b => b / 8 ≠ a / 8) (s : State) :
    Merged line mask ws s (ws.foldl (fun s a => s.mergeWord line mask a) s) := by
  induction ws generalizing s with
  | nil => exact ⟨rfl, rfl, fun w => by simp, fun l => by simp⟩
  | cons a ws ih =>
    obtain ⟨first, rest⟩ := List.pairwise_cons.mp apart
    exact (merged_word s line mask a).cons (ih rest _) first

/-- The words of a byte's line lie in it, 8 bytes apart. -/
theorem mem_t0Words {a w : Nat} : w ∈ t0Words a ↔ ∃ i < 8, w = a / 64 * 64 + 8 * i := by
  simp [t0Words, eq_comm]

theorem t0Words_apart (a : Nat) : (t0Words a).Pairwise fun v w => w / 8 ≠ v / 8 := by
  refine List.pairwise_map.mpr (List.pairwise_lt_range.imp fun h => ?_)
  omega

theorem merged_t0Merge (s : State) (line mask : Nat) : Merged line mask (t0Words (64 * line)) s (s.t0Merge line mask) := by
  rw [State.t0Merge_eq]
  exact merged_foldl line mask (t0Words_apart _) s

/-- A mask that names the whole line names the whole of each of its words. -/
theorem wordMask_full {line mask w : Nat} (h : mask % 2 ^ 64 = fullMask) (hw : w ∈ t0Words (64 * line)) : wordMask line mask w = 255 := by
  obtain ⟨i, hi, rfl⟩ := mem_t0Words.mp hw
  have offset : 64 * line / 64 * 64 + 8 * i - 64 * line = 8 * i := by omega
  unfold wordMask
  rw [offset]
  refine Nat.eq_of_testBit_eq fun j => ?_
  have bits : ∀ k, k < 64 → mask.testBit k = true := fun k hk => by
    have b : (mask % 2 ^ 64).testBit k = (2 ^ 64 - 1).testBit k := by rw [h]; rfl
    rw [Nat.testBit_mod_two_pow, Nat.testBit_two_pow_sub_one] at b
    simpa [hk] using b
  rw [show 256 = 2 ^ 8 by rfl, show 255 = 2 ^ 8 - 1 by rfl, Nat.testBit_mod_two_pow, Nat.testBit_two_pow_sub_one, Nat.testBit_div_two_pow]
  by_cases hj : j < 8
  · simp [hj, bits (j + 8 * i) (by omega)]
  · simp [hj]

/-- What a masked store leaves of T0, once the check bits are merged. -/
theorem State.t0Put_t0 (s : State) (line mask data : Nat) (poison : Bool) : (s.t0Put line mask data poison).t0 =
    { (s.t0Merge line mask).t0 with
      mem := (s.t0Merge line mask).t0.mem.writeMasked (64 * line) mask 64 data
      poison := Tbl.set (fun _ => false) (s.t0Merge line mask).t0.poison (64 * line / 64)
        (poison || ((s.t0Merge line mask).t0Poison (64 * line) && decide (mask % 2 ^ 64 ≠ fullMask))) } := by
  simp only [State.t0Put, State.setT0Poison, State.dropResv_t0]

@[simp] theorem State.t0Put_t1 (s : State) (line mask data : Nat) (poison : Bool) : (s.t0Put line mask data poison).t1 = s.t1 := by
  simp only [State.t0Put, State.setT0Poison, State.dropResv_t1]
  exact (merged_t0Merge s line mask).t1

theorem State.read_t0Put (s : State) (line mask data : Nat) (poison : Bool) (a : Nat) : (s.t0Put line mask data poison).t0.mem.read a =
    if a / 64 = line ∧ mask.testBit (a % 64) = true then BitVec.ofNat 8 (data / 256 ^ (a % 64)) else s.t0.mem.read a := by
  rw [State.t0Put_t0]
  dsimp only
  rw [Memory.read_writeMasked_line, (merged_t0Merge s line mask).mem]

theorem State.t0Poison_eq (s : State) (a : Nat) : s.t0Poison a = true ↔ s.t0Mark (a / 64) = true ∨ ∃ w ∈ t0Words a, 2 ≤ s.t0Err w := by
  simp [State.t0Poison, State.t0Mark]

theorem State.t0Err_t0Put (s : State) (line mask data : Nat) (poison : Bool) (w : Nat) :
    (s.t0Put line mask data poison).t0Err w = (s.t0Merge line mask).t0Err w := by
  rw [State.t0Err, State.t0Put_t0]
  rfl

theorem State.t0Mark_t0Put (s : State) (line mask data : Nat) (poison : Bool) (l : Nat) : (s.t0Put line mask data poison).t0Mark l =
    if l = line then poison || ((s.t0Merge line mask).t0Poison (64 * line) && decide (mask % 2 ^ 64 ≠ fullMask)) else (s.t0Merge line mask).t0Mark l := by
  rw [State.t0Mark, State.t0Put_t0, Nat.mul_div_cancel_left line (by decide)]
  exact Tbl.get_set _ _ _ _ _

/-- A word of the line that the mask touches has no wrong bits left. -/
theorem State.t0Err_t0Merge_word (s : State) {line mask w : Nat} (hw : w ∈ t0Words (64 * line)) :
    (s.t0Merge line mask).t0Err w = if wordMask line mask w ≠ 0 then 0 else s.t0Err w := by
  rw [(merged_t0Merge s line mask).err]
  refine ite_congr (propext ⟨?_, fun h => ⟨w, hw, rfl, h⟩⟩) (fun _ => rfl) (fun _ => rfl)
  rintro ⟨a, ha, same, h⟩
  obtain ⟨i, -, rfl⟩ := mem_t0Words.mp hw
  obtain ⟨j, -, rfl⟩ := mem_t0Words.mp ha
  have ij : i = j := by omega
  rwa [ij]

/-- Several wrong bits are left only in a word that the mask does not touch. -/
theorem State.t0Err_t0Merge_many (s : State) {line mask w : Nat} (hw : w ∈ t0Words (64 * line)) :
    2 ≤ (s.t0Merge line mask).t0Err w ↔ wordMask line mask w = 0 ∧ 2 ≤ s.t0Err w := by
  rw [s.t0Err_t0Merge_word hw]
  by_cases untouched : wordMask line mask w = 0
  · simp [untouched]
  · simp [untouched]

/-- Words of other lines keep theirs. -/
theorem State.t0Err_t0Merge_other (s : State) {line mask w : Nat} (hw : w / 64 ≠ line) : (s.t0Merge line mask).t0Err w = s.t0Err w := by
  rw [(merged_t0Merge s line mask).err]
  refine if_neg ?_
  rintro ⟨a, ha, same, -⟩
  obtain ⟨i, hi, rfl⟩ := mem_t0Words.mp ha
  omega

theorem State.t0Mark_t0Merge_other (s : State) {line mask l : Nat} (hl : l ≠ line) : (s.t0Merge line mask).t0Mark l = s.t0Mark l := by
  rw [Bool.eq_iff_iff, (merged_t0Merge s line mask).mark]
  refine or_iff_left ?_
  rintro ⟨a, ha, same, -⟩
  obtain ⟨i, hi, rfl⟩ := mem_t0Words.mp ha
  omega

/-- After the merge the line reads as poisoned where its bit was set or a word that is not written whole has several wrong bits. -/
theorem State.t0Poison_t0Merge (s : State) (line mask : Nat) : (s.t0Merge line mask).t0Poison (64 * line) = true ↔
    s.t0Mark line = true ∨ ∃ w ∈ t0Words (64 * line), wordMask line mask w ≠ 255 ∧ 2 ≤ s.t0Err w := by
  have inLine : ∀ w ∈ t0Words (64 * line), line = w / 64 := by
    intro w hw
    obtain ⟨i, hi, rfl⟩ := mem_t0Words.mp hw
    omega
  rw [State.t0Poison_eq, Nat.mul_div_cancel_left line (by decide), (merged_t0Merge s line mask).mark, or_assoc]
  refine or_congr_right ⟨?_, ?_⟩
  · rintro (⟨w, hw, -, -, part, many⟩ | ⟨w, hw, many⟩)
    · exact ⟨w, hw, part, many⟩
    · obtain ⟨untouched, many⟩ := (s.t0Err_t0Merge_many hw).mp many
      exact ⟨w, hw, by omega, many⟩
  · rintro ⟨w, hw, part, many⟩
    by_cases touched : wordMask line mask w = 0
    · exact .inr ⟨w, hw, (s.t0Err_t0Merge_many hw).mpr ⟨touched, many⟩⟩
    · exact .inl ⟨w, hw, inLine w hw, touched, part, many⟩

/-- A masked store to T0 poisons its line where it carries poison, and where a word it does not write whole has several wrong bits; a line poisoned
before stays so unless the whole line is written. -/
theorem State.t0Poison_t0Put (s : State) (line mask data : Nat) (poison : Bool) (a : Nat) : (s.t0Put line mask data poison).t0Poison a =
    if a / 64 = line then poison || ((s.t0Mark line && decide (mask % 2 ^ 64 ≠ fullMask)) ||
      (t0Words a).any (fun w => decide (wordMask line mask w ≠ 255) && decide (2 ≤ s.t0Err w))) else s.t0Poison a := by
  rw [Bool.eq_iff_iff, State.t0Poison_eq, State.t0Mark_t0Put]
  simp only [State.t0Err_t0Put]
  by_cases here : a / 64 = line
  · have words : t0Words a = t0Words (64 * line) := by
      unfold t0Words
      rw [here, Nat.mul_div_cancel_left line (by decide)]
    have whole : mask % 2 ^ 64 = fullMask → ¬∃ w ∈ t0Words (64 * line), wordMask line mask w ≠ 255 ∧ 2 ≤ s.t0Err w :=
      fun full ⟨w, hw, part, _⟩ => part (wordMask_full full hw)
    have left : (∃ w ∈ t0Words (64 * line), 2 ≤ (s.t0Merge line mask).t0Err w) →
        ∃ w ∈ t0Words (64 * line), wordMask line mask w ≠ 255 ∧ 2 ≤ s.t0Err w := by
      rintro ⟨w, hw, many⟩
      obtain ⟨untouched, many⟩ := (s.t0Err_t0Merge_many hw).mp many
      exact ⟨w, hw, by omega, many⟩
    rw [if_pos here, if_pos here, words]
    simp only [Bool.or_eq_true, Bool.and_eq_true, State.t0Poison_t0Merge, decide_eq_true_eq, List.any_eq_true]
    by_cases full : mask % 2 ^ 64 = fullMask
    · simp only [full, ne_eq, not_true, and_false, or_false, iff_false_intro (whole full), iff_false_intro (mt left (whole full))]
    · simp only [full, ne_eq, not_false_eq_true, and_true, or_assoc]
      exact or_congr_right (or_congr_right (or_iff_left_of_imp left))
  · rw [if_neg here, if_neg here, s.t0Mark_t0Merge_other here, State.t0Poison_eq]
    refine or_congr_right (exists_congr fun w => and_congr_right fun hw => ?_)
    obtain ⟨i, hi, rfl⟩ := mem_t0Words.mp hw
    rw [s.t0Err_t0Merge_other (by omega)]

/-! ### A store at its home (R40, R191) -/

/-- The state in which a store of a line finds it: all but a store of the whole line read it first (R130). -/
def State.foundFor (s : State) (r : HomeReq) : State :=
  if r.atom.isNone && decide (r.mask % 2 ^ 64 = fullMask) then s else s.t1Find (64 * r.line) (s.ueSource r.src)

/-- On a line in no chute's ring, a store is applied at once, and then acknowledged. -/
theorem applyWrite_unchuted {s u : State} {r : HomeReq} (hu : u = s.t1Line (64 * r.line) 1 true r.src.origin) (ha : r.atom = none)
    (hc : u.chuteAt (64 * r.line) = none) : s.applyWrite r = ((u.foundFor r).t1Put r.line r.mask r.data r.poison).storeDone r none := by
  have parts : ((u.foundFor r).t1Put r.line r.mask r.data r.poison).parts = u.parts := by
    unfold State.foundFor
    rw [State.t1Put_parts]
    split
    · rfl
    · exact State.t1Find_parts _ _ _
  have still : ((u.foundFor r).t1Put r.line r.mask r.data r.poison).chuteAt (64 * r.line) = none := (State.chuteAt_congr parts _).trans hc
  have store : u.applyStore r = ((u.foundFor r).t1Put r.line r.mask r.data r.poison, none) := by
    unfold State.foundFor at still ⊢
    unfold State.applyStore
    dsimp only
    rw [ha] at still ⊢
    dsimp only
    rw [still]
  unfold State.applyWrite State.land
  rw [← hu, hc]
  dsimp only
  rw [store]

theorem State.mem_foundFor (s : State) (r : HomeReq) : (s.foundFor r).t1.mem = s.t1.mem := by
  unfold State.foundFor
  split
  · rfl
  · exact State.mem_t1Find _ _ _

theorem State.t0_foundFor (s : State) (r : HomeReq) : (s.foundFor r).t0 = s.t0 := by
  unfold State.foundFor
  split
  · rfl
  · exact State.t0_t1Find _ _ _

theorem State.t1Poison_foundFor (s : State) (r : HomeReq) (a : Nat) : (s.foundFor r).t1Poison a = s.t1Poison a := by
  unfold State.foundFor
  split
  · rfl
  · exact State.t1Poison_t1Find _ _ _ _

/-- The acknowledgement of a store that is no peer's changes no byte of memory. -/
theorem quiet_ackNow {s : State} {r : HomeReq} {prior : Option Nat} (h : ∀ n c q, r.src ≠ .peer n c q) : Quiet s (s.ackNow r prior) := by
  unfold State.ackNow
  cases e : r.src with
  | host p tag => exact quiet_answerHost (Quiet.refl s)
  | fmHost p tag => exact quiet_answerHost (Quiet.refl s)
  | peer n c q => exact absurd e (h n c q)
  | unit p ch q => exact quiet_modPart (Quiet.refl s)
  | device => exact Quiet.refl s

theorem quiet_storeDone {s : State} {r : HomeReq} {prior : Option Nat} (hm : s.mirrorAt (64 * r.line) = none) (h : ∀ n c q, r.src ≠ .peer n c q) :
    Quiet s (s.storeDone r prior) := by
  unfold State.storeDone State.ackStore
  rw [hm]
  dsimp only
  split
  · exact quiet_ackNow h
  · exact ⟨rfl, rfl⟩

/-! ### Mailboxes (R425) -/

/-- A command that a partition's mailbox supports completes with what it does there. -/
theorem completes_ldMailbox {i : Instr} {s : State} {P : State → Prop} {p : Fin 32} {name : String} {f : Nat → State → State}
    (e : exec i s = act s (fun s => s.ldMailbox (.ld p) name f)) (h : P (f p.val s)) : Completes i s P :=
  completes_act e h

/-- So does one that the fabric manager's mailboxes support. -/
theorem completes_fmMailbox {i : Instr} {s : State} {P : State → Prop} {mb : Mailbox} {name : String} {f : State → State}
    (e : exec i s = act s (fun s => s.fmMailbox mb name f)) (hm : ∀ q, mb ≠ .ld q) (h : P (f s)) : Completes i s P := by
  have fm : s.fmMailbox mb name f = f s := by
    cases mb with
    | ld p => exact absurd rfl (hm p)
    | fm h => rfl
    | mctp => rfl
  exact completes_act e (by rwa [fm])

/-! ### Host requests (R18, R206, R220) -/

section Port

variable {s u : State} {ld tag hpa o : Nat}

@[simp] theorem State.badFields_ok (s : State) (ld hpa : Nat) : s.badFields ld hpa true = s := rfl

@[simp] theorem State.badFields_bad (s : State) (ld hpa : Nat) :
    s.badFields ld hpa false = s.lineErr ((s.decode ld hpa).getD 0 / 64) 10 (hostSource ld 0) := by
  unfold State.badFields
  exact if_neg (by decide)

@[simp] theorem State.readUe_none (s : State) (o who : Nat) : s.readUe o none who = s := rfl

/-- A request that passes the port check, with good fields, reaches the home as the kind that its device's coherence allows. -/
theorem hostRead_reaches {kind : HomeKind} {resp : String} {data : Bool} (hu : u = s.cxlRequest ld hpa false 0 (if data then 64 else 0))
    (hp : u.portCheck ld hpa = some o) (hh : u.homeOpen (o / 64) = true) :
    s.hostRead ld tag hpa kind resp data true = u.request (hostReq ld tag (o / 64) (if u.hdmDb ld then kind else .rd) data) := by
  simp only [State.hostRead, ← hu, hp]
  exact if_pos hh

/-- One that does not is a violation, and answers zeros where it answers data. -/
theorem hostRead_refused {kind : HomeKind} {resp : String} {data : Bool} (hu : u = s.cxlRequest ld hpa false 0 (if data then 64 else 0))
    (hp : u.portCheck ld hpa = none) : s.hostRead ld tag hpa kind resp data true = u.portViolation ld tag hpa false resp data := by
  simp only [State.hostRead, ← hu, hp]
  rfl

/-- What gives a line up or cleans it comes to the home as CLN_H where host state is kept, and only completes elsewhere. -/
theorem hostClean_reaches {absorbed : Bool} (hu : u = s.cxlRequest ld hpa false 0 0) (hp : u.portCheck ld hpa = some o) :
    s.hostClean ld tag hpa true absorbed =
      if u.hdmDb ld then u.request (hostReq ld tag (o / 64) .clnH false) else u.emit (.hostResp (hostSource ld tag) "Cmp" none false) := by
  simp only [State.hostClean, ← hu, hp]
  rfl

/-- After the release point, the clean eviction of a line held E is absorbed. -/
theorem hostClean_absorbed {ok : Bool} (hu : u = s.cxlRequest ld hpa false 0 0) (hp : u.portCheck ld hpa = none) (hd : u.decode ld hpa = some o)
    (hr : (u.pastRelease ld o && u.showsE ld (o / 64)) = true) :
    s.hostClean ld tag hpa ok true = u.emit (.hostResp (hostSource ld tag) "Cmp" none false) := by
  simp only [State.hostClean, ← hu, hp, hd]
  exact if_pos hr

/-- A MemInv is not: it is a violation. -/
theorem hostClean_refused (hu : u = s.cxlRequest ld hpa false 0 0) (hp : u.portCheck ld hpa = none) (hd : u.decode ld hpa = some o) :
    s.hostClean ld tag hpa true false = u.portViolation ld tag hpa false "Cmp" false := by
  simp only [State.hostClean, ← hu, hp, hd]
  rfl

theorem portViolation_decoded {write data : Bool} {kind : String} (hd : u.decode ld hpa = some o) :
    u.portViolation ld tag hpa write kind data =
      (u.violateMem (hostSource ld tag) write (u.node * 2 ^ 40 + o)).emit (.hostResp (hostSource ld tag) kind (if data then some 0 else none) false) := by
  unfold State.portViolation
  rw [hd]
  rfl

end Port

/-- The response of a host to an invalidation ends the host's part of the round (R212). -/
theorem biResponse_round {s : State} {ld line : Nat} {e : DirEntry} {x : Trans} (he : s.dirEntry line = some e) (hx : e.trans = some x)
    (hd : x.hostDue = true) (hr : x.rcl = false) :
    s.biResponse ld line 0 = ((s.setEntry line (some { e with host := 0, trans := some { x with hostDue := false } })).checkRound line).afterLine line := by
  unfold State.biResponse
  simp [he, hx, hd, hr]

theorem biResponse_unheld {s : State} {ld line kind : Nat} (he : s.dirEntry line = none) :
    s.biResponse ld line kind = s.lineErr line 7 (.host ld 0) := by
  unfold State.biResponse
  rw [he]

/-- On a line without an entry, held neither for a mirror nor for a test of its stack, the first request that waits is accepted (R209). -/
theorem acceptQueued_first {s : State} {line : Nat} {r : HomeReq} (hq : s.homes.queue.find? (fun q => decide (q.line = line)) = some r)
    (he : s.dirEntry line = none) (hh : s.holdsAt (64 * line) = false) (ht : s.stackTested line = false) :
    s.acceptQueued line = ((s.modHomes (fun h => { h with queue := h.queue.erase r })).accept r).afterLine line := by
  unfold State.acceptQueued
  simp [hq, he, hh, ht]

end Sys2Proof.Machine

section

open Sys2Proof Sys2Proof.Machine

/-- Settles O4: every command is steady (steady_exec), and so keeps the queue. -/
theorem commandsLeaveTheQueue : Obligations.CommandsLeaveTheQueue := by
  unfold Obligations.CommandsLeaveTheQueue
  intro c s t e
  exact (steady_exec e).pending

/-- Settles O9: every command that leavesMemory names is quiet (quiet_exec). -/
theorem commandsThatLeaveMemory : Obligations.CommandsThatLeaveMemory := by
  unfold Obligations.CommandsThatLeaveMemory
  intro c s t h e
  obtain ⟨t1, t0⟩ := quiet_exec h e
  exact ⟨t1, t0, fun a => by rw [t1], fun a => by rw [t0]⟩

/-- Settles O10: the bytes and the poison that a masked store leaves in T1 and in T0, after the read that finds the line's errors, and the
acknowledgement, which stores nothing. -/
theorem maskedStores : Obligations.MaskedStores := by
  unfold Obligations.MaskedStores
  refine ⟨?_, ?_, ?_, ?_, ?_⟩
  · intro s line mask data poison a
    exact ⟨s.read_t1Put line mask data poison a, s.t1Put_t0 line mask data poison⟩
  · intro s line mask data poison a
    exact s.t1Poison_t1Put line mask data poison a
  · intro s line mask data poison a
    exact ⟨s.read_t0Put line mask data poison a, s.t0Poison_t0Put line mask data poison a, s.t0Put_t1 line mask data poison⟩
  · intro s r ha hc
    obtain ⟨t1, t0⟩ : Quiet s (s.t1Line (64 * r.line) 1 true r.src.origin) := quiet_t1Line (Quiet.refl s)
    refine ⟨_, applyWrite_unchuted rfl ha hc, ?_, fun a => ?_, fun a => ?_⟩
    · rw [State.t1Put_t0, State.t0_foundFor, t0]
    · rw [State.read_t1Put, State.mem_foundFor, t1]
    · rw [State.t1Poison_t1Put, State.t1Poison_foundFor, Quiet.t1Poison ⟨t1, t0⟩]
      rfl
  · intro u r prior hm hs
    obtain ⟨t1, t0⟩ := quiet_storeDone (prior := prior) hm hs
    exact ⟨t1, t0⟩

/-- Settles O51: each mailbox command takes the branch that its mailbox and its ranges choose. -/
theorem dynamicCapacity : Obligations.DynamicCapacity := by
  unfold Obligations.DynamicCapacity
  refine ⟨?_, ?_, ?_, ?_, ?_, ?_, ?_, ?_, ?_, ?_⟩
  · rintro p accepted s u hall hlive rfl
    refine completes_ldMailbox (by rfl) ?_
    simp only [hall, hlive, Bool.not_true, Bool.false_eq_true, if_false, if_true, State.mbox]
  · intro p accepted s hall
    refine completes_ldMailbox (by rfl) ?_
    simp only [hall, Bool.not_false, if_true, State.mbox]
  · intro p ranges s hall
    refine completes_ldMailbox (by rfl) ?_
    simp only [hall, if_true, State.mbox]
  · rintro mb p ranges s u hmb hn rfl
    refine completes_fmMailbox (by rfl) hmb ?_
    simp only [hn, Bool.not_true, Bool.false_eq_true, if_false, State.mbox]
  · rintro mb p ranges s u hmb hn hall rfl
    refine completes_fmMailbox (by rfl) hmb ?_
    simp only [hn, hall, Bool.not_true, Bool.not_false, Bool.false_eq_true, if_false, if_true, State.mbox]
  · intro mb p r s hmb hn hr
    refine completes_fmMailbox (by rfl) hmb ?_
    simp [hn, hr, State.mbox]
  · intro mb p ranges forced s hmb hn
    constructor
    · exact completes_fmMailbox (by rfl) hmb (by simp only [hn, Bool.not_false, if_true, State.mbox])
    · exact completes_fmMailbox (by rfl) hmb (by simp only [hn, Bool.not_false, if_true, State.mbox])
  · intro p dpa l s hl
    exact completes_ldMailbox (by rfl) (by simp only [hl, State.mbox])
  · intro p dpa data l s hl
    exact completes_ldMailbox (by rfl) (by simp only [hl, State.mbox])
  · intro p dpa data s hl
    constructor
    · exact completes_ldMailbox (by rfl) (by simp only [hl, State.mbox])
    · exact completes_ldMailbox (by rfl) (by simp only [hl, State.mbox])

/-- Settles O1: the two cases of a step. -/
theorem stepRunsTheFront : Obligations.StepRunsTheFront := by
  unfold Obligations.StepRunsTheFront
  refine ⟨fun _ _ _ => rfl, fun s h => ?_⟩
  unfold step
  rw [h]

/-- Settles O2: nothing is listed at reset, so that every table reads as its reset values. -/
theorem resetState : Obligations.ResetState := by
  unfold Obligations.ResetState
  refine ⟨canonical_reset, rfl, rfl, rfl, rfl, fun _ => rfl, ?_, ?_, fun _ => rfl, rfl, fun _ => rfl, fun _ => rfl⟩
  · decide +kernel
  · intro k
    cases k with
    | me => decide +kernel
    | gc => decide +kernel
    | win => decide +kernel
    | row => decide +kernel

/-- Settles O6: every command answers (answers_exec), and a step is a command or the tick. -/
theorem everyCommandAnswers : Obligations.EveryCommandAnswers := by
  unfold Obligations.EveryCommandAnswers
  refine ⟨answers_exec, fun s => ?_⟩
  unfold step
  split
  · exact ⟨_, rfl⟩
  · exact answers_exec _ _

/-- Settles O31: each request takes the branch of the port check, of its MetaValue and of its line's entry that applies. -/
theorem hostRequests : Obligations.HostRequests := by
  unfold Obligations.HostRequests
  refine ⟨?_, ?_, ?_, ?_, ?_, ?_, ?_, ?_, ?_, ?_, ?_, ?_, ?_, ?_, ?_, ?_, ?_, ?_⟩
  · rintro ld tag o hpa mv r s u hp hu hpu rfl hh
    refine completes_act (by rfl) ?_
    dsimp only
    rw [hp]
    exact hostRead_reaches hu hpu hh
  · rintro ld tag hpa s u hp hu hpu
    refine completes_act (by rfl) ?_
    dsimp only
    rw [hp]
    exact hostRead_refused hu hpu
  · rintro ld tag o hpa r s u hu hp rfl hh
    exact completes_act (by rfl) (hostRead_reaches hu hp hh)
  · intro i hi ld tag o hpa s u hu hp hdb
    have reaches : ∀ a, s.hostClean ld.val tag hpa.toNat true a = u.request (hostReq ld.val tag (o / 64) .clnH false) := fun a =>
      (hostClean_reaches hu hp).trans (if_pos hdb)
    simp only [List.mem_cons, List.not_mem_nil, or_false] at hi
    rcases hi with rfl | rfl
    · exact completes_act (by rfl) (reaches false)
    · exact completes_act (by rfl) (reaches true)
  · intro i hi ld tag o hpa s u hu hp hdb
    have ends : ∀ a, s.hostClean ld.val tag hpa.toNat true a = u.emit (.hostResp (hostSource ld.val tag) "Cmp" none false) := fun a =>
      (hostClean_reaches hu hp).trans (if_neg (by simp [hdb]))
    simp only [List.mem_cons, List.not_mem_nil, or_false] at hi
    rcases hi with rfl | rfl
    · exact completes_act (by rfl) (ends false)
    · exact completes_act (by rfl) (ends true)
  · rintro ld tag o hpa mv r s u hmv hdb hu hp hdbu rfl hh
    have reaches : ∀ kind resp, s.hostRead ld.val tag hpa.toNat kind resp false true = u.request (hostReq ld.val tag (o / 64) kind false) := by
      intro kind resp
      rw [hostRead_reaches hu hp hh, if_pos hdbu]
    refine completes_act (by rfl) ?_
    simp only [hmv, hdb, Bool.not_true, Bool.false_and, Bool.false_eq_true, if_false, reaches]
    split
    · rfl
    · rfl
  · rintro ld tag o hpa mv mask data poison r s u hu hp rfl hh
    refine completes_act (by rfl) ?_
    simp only [← hu, hp, State.badFields_ok]
    exact if_pos hh
  · rintro ld tag o hpa mv mask data poison ok s u hu hp hd hr
    refine completes_act (by rfl) ?_
    simp only [← hu, hp, hd]
    exact if_pos hr
  · intro ld hpa s
    exact completes_act (by rfl) rfl
  · intro ld tag hpa s
    exact completes_act (by rfl) (by rw [State.badFields_bad])
  · intro ld tag hpa s
    exact completes_act (by rfl) (by rw [State.badFields_bad])
  · intro ld line e x s he hx hd hr
    exact completes_act (by rfl) (biResponse_round he hx hd hr)
  · intro ld line kind s he
    exact completes_act (by rfl) (biResponse_unheld he)
  · intro ld line s
    exact completes_act (by rfl) rfl
  · intro line e x s he hx hd ht hlate
    refine completes_act (by rfl) ?_
    simp [he, hx, hd, ht, hlate]
  · intro line r s hq he hh ht
    exact completes_act (by rfl) (acceptQueued_first hq he hh ht)
  · intro ld tag o hpa ok s u hu hp hd hr
    exact completes_act (by rfl) (hostClean_absorbed hu hp hd hr)
  · intro ld tag o hpa s u hu hp hd
    refine completes_act (by rfl) ?_
    exact (hostClean_refused hu hp hd).trans (portViolation_decoded hd)

end

/-! PROOFS for 02_partitions_and_chutes.md: closed pages, admission and release, rings, heads, stores and packets, commands, the loss of a host,
requests and flits. -/

namespace Sys2Proof.Machine

/-! ### The page of a closed partition (R32) -/

section Page

variable {rq : Requester} {s : State} {ca : Nat}

theorem State.writes_unreached (h : s.reaches rq ca = false) : s.writes rq ca = false := by
  simp [State.writes, h]

/-- Of a FREE or RELEASING partition's page, no requester reaches a register but PART_ID. -/
theorem State.reaches_closed {p o : Nat} (hl : RegMap.locate ca = some (.part, p, o)) (ho : o ≠ 0) (hp : s.pstate p = .free ∨ s.pstate p = .releasing) :
    s.reaches rq ca = false := by
  have closed : s.pageOpen ca = false := by
    simp only [State.pageOpen, hl]
    rcases hp with hp | hp
    · simp [ho, hp]
    · simp [ho, hp]
  simp [State.reaches, closed]

/-- A read of a register that its requester does not reach is a violation and answers zero (R66). -/
theorem completes_read_unreached {a : Word} (hc : rq.cxlPart a.toNat = none) (h : s.reaches rq (rq.target a.toNat) = false) :
    Completes (.registerPairLowRead rq a) s fun t => t = (s.violateReg rq false (rq.target a.toNat)).emit (.value rq 0) := by
  refine completes_act (by rfl) ?_
  simp [hc, h]

end Page

/-! ### Admission and release (R26, R28, R30, R31, R64) -/

theorem State.pstate_admResult (s : State) (code p : Nat) : (s.admResult code).pstate p = s.pstate p :=
  State.pstate_setReg_ne s p _ _ (by unfold Reg.PART_ID Reg.RNG_ADM_STATUS; omega)

theorem State.reg_admResult (s : State) (code : Nat) : (s.admResult code).reg Reg.RNG_ADM_STATUS = BitVec.ofNat 32 code :=
  State.reg_setReg_same s _ _

theorem State.pstate_admission (s : State) (p : Nat) : (s.admission p).pstate p = .active :=
  State.pstate_setPstate _ p .active

theorem State.pstate_beginRelease (s : State) (p : Nat) : (s.beginRelease p).pstate p = .releasing :=
  State.pstate_setPstate _ p .releasing

/-- A cause of a page leaves its partition's state. -/
theorem State.pstate_pageCause (s : State) (p bits : Nat) : (s.pageCause p bits).pstate p = s.pstate p := by
  unfold State.pstate State.regF
  rw [State.reg_pageCause, if_neg (by unfold Reg.PART_ID Reg.PART_IRQ_CAUSE; omega)]

/-- The cause reset_done is shown once it is set. -/
theorem State.bitOf_pageCause_resetDone (s : State) (p : Nat) : bitOf ((s.pageCause p 64).reg (Reg.PART_IRQ_CAUSE p)) 6 = true := by
  rw [State.reg_pageCause, if_pos rfl]
  simp [bitOf]

section Answer

variable {rq : Requester} {v : Word} {s u : State} {p : Nat}

/-- After boot step 11, ADMIT without release reserves what is staged, or shows the code of the check that fails. -/
theorem completes_admit {P : State → Prop} (hw : s.writes rq Reg.RNG_ADM_CTRL = true) (hb : s.boot.done = true) (hr : bitOf v 9 = false)
    (hu : u = s.store Reg.RNG_ADM_CTRL v) (hp : p = u.regF Reg.RNG_ADM_CTRL 4 0)
    (h : P (if u.admissionCode p = 0 then (u.admission p).admResult 0 else u.admResult (u.admissionCode p))) :
    Completes (.admitPartition rq v) s P := by
  subst hp hu
  refine completes_access (by rfl) hw ?_
  dsimp only
  rwa [if_neg (by simp [hb]), if_neg (Bool.eq_false_iff.mp hr)]

/-- RELEASE without admit of an ACTIVE or FROZEN partition without extents begins the release. -/
theorem completes_release (hw : s.writes rq Reg.RNG_ADM_CTRL = true) (hb : bitOf v 8 = false) (hu : u = s.store Reg.RNG_ADM_CTRL v)
    (hp : p = u.regF Reg.RNG_ADM_CTRL 4 0) (hs : u.pstate p = .active ∨ u.pstate p = .frozen) (hx : u.hasExtent p = false) :
    Completes (.releasePartition rq v) s fun t => t = (u.beginRelease p).admResult 0 := by
  subst hp hu
  refine completes_access (by rfl) hw ?_
  rcases hs with hs | hs
  · simp [-BitVec.getLsbD_eq_getElem, hb, hs, hx]
  · simp [-BitVec.getLsbD_eq_getElem, hb, hs, hx]

/-- Of one with an extent it shows EXTENTS_PRESENT. -/
theorem completes_release_extents (hw : s.writes rq Reg.RNG_ADM_CTRL = true) (hb : bitOf v 8 = false) (hu : u = s.store Reg.RNG_ADM_CTRL v)
    (hp : p = u.regF Reg.RNG_ADM_CTRL 4 0) (hf : u.pstate p ≠ .free) (hr : u.pstate p ≠ .releasing) (hx : u.hasExtent p = true) :
    Completes (.releasePartition rq v) s fun t => t = u.admResult 0x0F := by
  subst hp hu
  refine completes_access (by rfl) hw ?_
  dsimp only
  rw [if_neg (Bool.eq_false_iff.mp hb)]
  split
  case h_1 free => exact absurd free hf
  case h_2 releasing => exact absurd releasing hr
  case h_3 => exact if_pos hx
  case h_4 => exact if_pos hx

/-- Of a FREE or RELEASING one it shows NOT_ADMITTED. -/
theorem completes_release_none (hw : s.writes rq Reg.RNG_ADM_CTRL = true) (hb : bitOf v 8 = false) (hu : u = s.store Reg.RNG_ADM_CTRL v)
    (hp : p = u.regF Reg.RNG_ADM_CTRL 4 0) (hs : u.pstate p = .free ∨ u.pstate p = .releasing) :
    Completes (.releasePartition rq v) s fun t => t = u.admResult 0x0E := by
  subst hp hu
  refine completes_access (by rfl) hw ?_
  rcases hs with hs | hs
  · simp [-BitVec.getLsbD_eq_getElem, hb, hs]
  · simp [-BitVec.getLsbD_eq_getElem, hb, hs]

end Answer

/-- A partition that resets and has drained, with no release recorded, is ACTIVE again. -/
theorem completes_drained_reset {p : Fin 32} {s : State} (hp : s.pstate p.val = .resetting) (hq : s.quietPart p.val = true)
    (hd : s.dirtyCores p.val = []) (hr : (s.part p.val).relRecorded = false) : Completes (.partitionDrained p) s fun t =>
      t = (((s.drainUnits p.val).modPart p.val (fun pt => { pt with relRecorded := false })).setPstate p.val .active).pageCause p.val 64 := by
  refine completes_act (by rfl) ?_
  simp [hp, hq, hd, hr]

/-! ### Rings: registration and disabling (R33, R43, R55, R260) -/

/-- A chute's ring has 4 KiB to 16 MiB. -/
theorem ringSizes_chute (n : Fin 64) : ringSizes n.val = (12, 24) := by
  have := n.isLt
  unfold ringSizes cplRing escRing
  rw [if_neg (by omega), if_neg (by omega)]

theorem chute_ne_mboxRing (n : Fin 64) : n.val ≠ mboxRing := by
  have := n.isLt
  unfold mboxRing
  omega

section Enable

variable {s u : State} {p n : Nat} {v : Word} {r : Range}

/-- An enable of a ring whose enable is 0 registers it with the first reason that its checks give. -/
theorem enableRing_registers (he : bitOf (s.reg (ringCtrl p n)) 0 = false) (hu : u = s.store (ringCtrl p n) (v ||| 1))
    (hr : r = ⟨u.ringBase p n, 2 ^ u.regF (ringCtrl p n) 12 8⟩) {lo hi e : Nat} (hs : ringSizes n = (lo, hi))
    (hc : u.ringCheck p n (u.chuteIndexOk p n) (u.regF (ringCtrl p n) 12 8) lo hi r ⟨0, 0⟩ = e)
    (hm : n = mboxRing → u.mboxSemBad p = false) : s.enableRing p n v = u.registerRing p n (ringCtrl p n) e r ⟨0, 0⟩ := by
  subst hc hr hu
  unfold State.enableRing
  rw [if_neg (Bool.eq_false_iff.mp he), hs]
  dsimp only
  rw [if_neg]
  rintro ⟨-, mbox, bad⟩
  exact Bool.eq_false_iff.mp (hm mbox) bad

/-- With no disable in progress, a registration without a reason begins to zero the ring. -/
theorem registerRing_passes {ctrl : Nat} {r2 : Range} (hd : ((s.part p).ring n).disabling = false) :
    s.registerRing p n ctrl 0 r r2 =
      ((s.setRegF ctrl 30 28 0).setRegF ctrl 0 0 1).modRing p n (fun _ => { Ring.none with zeroing := true, range := r, range2 := r2 }) := by
  simp [State.registerRing, State.beginRing, hd]

/-- One with a reason shows it, and enable is 0 again. -/
theorem registerRing_fails {ctrl e : Nat} {r2 : Range} (hd : ((s.part p).ring n).disabling = false) (he : e ≠ 0) :
    s.registerRing p n ctrl e r r2 = (s.setRegF ctrl 30 28 e).setRegF ctrl 0 0 0 := by
  simp [State.registerRing, hd, he]

end Enable

/-- A write of enable 0 to a ready ring that is enabled clears enable and begins its disable (R43). -/
theorem disableWrite_ready {s : State} {p n : Nat} {v : Word} (he : bitOf (s.reg (ringCtrl p n)) 0 = true)
    (hr : ((s.part p).ring n).ready = true) (hz : ((s.part p).ring n).zeroing = false) :
    s.disableWrite p n v = (s.setRegF (ringCtrl p n) 0 0 0).modRing p n (fun r => { r with disabling := true, rereg := none }) := by
  unfold State.disableWrite
  rw [if_pos he]
  simp [State.disableRing, hr, hz]

/-! ### Heads (R56) -/

section Head

variable {s : State} {rq : Requester} {head tail n : Nat} {v : Word}

/-- A head moves to where it is written, no further than the tail. -/
theorem headWrite_sets (hw : s.writes rq head = true) (hn : n ≠ 0)
    (h : (v.toNat % 2 ^ 18 % n + n - s.regN head) % n ≤ (s.regN tail + n - s.regN head) % n) :
    s.headWrite rq head tail n v = s.setRegN head (v.toNat % 2 ^ 18 % n) := by
  have one : max 1 n = n := by omega
  unfold State.headWrite
  rw [access_run hw]
  dsimp only
  rw [one, if_neg (by omega)]

/-- A write past the tail is a violation. -/
theorem headWrite_past (hw : s.writes rq head = true) (hn : n ≠ 0)
    (h : (s.regN tail + n - s.regN head) % n < (v.toNat % 2 ^ 18 % n + n - s.regN head) % n) :
    s.headWrite rq head tail n v = s.violateReg rq true head := by
  have one : max 1 n = n := by omega
  unfold State.headWrite
  rw [access_run hw]
  dsimp only
  rw [one, if_pos (.inr h)]

end Head

/-! ### Packets and the fault FIFO (R39, R46, R51, R59, R62) -/

/-- The queue of a partition does not depend on whose turn it is. -/
@[simp] theorem State.inQueue_turn (s : State) (p n : Nat) (q : Queue) : (s.modPart p (fun pt => { pt with turn := n })).inQueue p q = s.inQueue p q := by
  unfold State.inQueue
  rw [State.part_modPart, if_pos rfl]

/-! ### Commands start (R45, R47, R50, R140) -/

section Start

variable {p : Fin 32} {chute : Fin 64} {seq : Word} {c : Cmd} {s : State}

/-- A ready command whose fence is open, in a partition that may start commands, ends with its refusal or starts. -/
theorem completes_commandStart {P : State → Prop} (hc : s.cmd p.val chute.val seq.toNat = some c) (hr : c.phase = .ready) (hm : s.mayStart p.val = true)
    (hf : s.fenceOpen p.val c = true)
    (h : P ((s.startRefusal p.val c).elim (s.startReady p.val c) (fun x => s.endCmd p.val c x.1 0 x.2))) :
    Completes (.commandStart p chute seq 0) s P := by
  refine completes_act (by rfl) ?_
  cases e : s.startRefusal p.val c with
  | none => simpa [hc, hr, hm, hf, e] using h
  | some x => simpa [hc, hr, hm, hf, e] using h

/-- A command that a unit runs starts on the unit it takes, if that is awake. -/
theorem startReady_unit {p u : Nat} {k : UnitKind} (hk : (queueOf c.opcode).bind Queue.kind = some k) (hu : s.unitFor p k c = some u)
    (hw : s.sleepOf (k.key u) = 0) : s.startReady p c = s.startOn p c u [] := by
  simp [State.startReady, hk, hu, hw]

/-- A SEM_SIGNAL, a BARRIER and a RELEASE_FENCE start on no unit. -/
theorem startReady_sync {p : Nat} (ho : c.opcode ∈ [0x0B, 0x0D, 0x10]) : s.startReady p c = s.startOn p c 0xFF [] := by
  simp only [List.mem_cons, List.not_mem_nil, or_false] at ho
  rcases ho with ho | ho | ho
  all_goals simp [State.startReady, ho, queueOf, Queue.kind]

/-- So does a SEM_WAIT, while its hub has a watch free, and keeps when it began. -/
theorem startReady_semWait {p : Nat} (ho : c.opcode = 0x0C) (hw : s.watches p (semHub (nfld (c.arg 8) 17 0)) < 32) :
    s.startReady p c = s.startOn p c 0xFF [s.lcc] := by
  simp [State.startReady, ho, queueOf, Queue.kind, hw]

end Start

/-! ### ABORT (R59, R60) -/

section Abort

variable {s : State} {p : Nat} {k : Control} {c : Cmd}

/-- A command that waits ends aborted. -/
theorem abortTarget_waits (h : c.phase = .queued ∨ c.phase = .ready ∨ ∃ i, c.phase = .faulted i) :
    s.abortTarget p k c = (s.finish p c.chute c.seq stAborted 0 0).endControl p k stOk 1 [] := by
  unfold State.abortTarget
  rcases h with h | h | ⟨i, h⟩
  all_goals rw [h]

/-- A command that runs, waits at no semaphore or barrier, and is no run of a core that ends already, is to stop at its boundary. -/
theorem abortTarget_runs (h : c.phase = .running) (hw : c.opcode ≠ 0x0C) (hb : c.opcode ≠ 0x0D)
    (hg : c.opcode = 0x03 → (s.core c.runUnit).ending = none) : s.abortTarget p k c =
      ((s.dropWaiting p c).modCmd p c.chute c.seq (fun c => { c with aborting := true })).endControl p k stOk 1 [c.chute, c.seq] := by
  have goes : ¬(c.opcode = 0x03 ∧ (s.core c.runUnit).ending.isSome = true) := fun ⟨o, e⟩ => by simp [hg o] at e
  unfold State.abortTarget
  rw [h]
  dsimp only
  rw [if_neg goes, if_neg (by simp [hw, hb])]

/-- An ABORT whose target has left its chute acts by where the target is. -/
theorem completes_abort {q : Fin 32} {chute : Fin 64} {seq : Word} (hk : s.controlOf q.val chute.val seq.toNat 3 = some k)
    (hc : s.cmd q.val (k.arg 8 % 64) (k.arg 9) = some c) :
    Completes (.abortCommand q chute seq) s fun t => t = s.abortTarget q.val k c := by
  refine completes_act (by rfl) ?_
  simp [hk, hc]

end Abort

/-! ### Requests at other nodes and flits (R50, R231 to R235, R243, R255) -/

/-- An attempt that has been tried before ends TARGET_LOST. -/
theorem attemptFailed_retried {s : State} {r : OutReq} (h : r.retried = true) : s.attemptFailed r = s.endLost r := by
  simp [State.attemptFailed, h]

/-- The timeout of an overdue request is a failed attempt. -/
theorem completes_requestTimeout {dst : Fin 4096} {tc : Fin 8} {seq : Word} {r : OutReq} {s : State}
    (hr : s.outstanding dst.val tc.val seq.toNat = some r) (ht : s.requestTimeout < s.lcc - r.sentAt) :
    Completes (.requestTimeout dst tc seq) s fun t => t = (s.attemptFailed r).settleStalled := by
  refine completes_act (by rfl) ?_
  simp only [hr]
  exact if_pos ht

/-- A read of a command that needs a composition and has none ends STALE_EPOCH (R50). -/
theorem unitSend_stale {s : State} {r : FabReq} {p c q : Nat} (hc : r.lacksComp = true) (hm : s.sendsMsg r.waiter = false)
    (hw : r.waiter = .cmd p c q) (ht : wordAt r.body 0 % 256 = 0x01) : s.unitSend r = s.failCmd p c q stStaleEpoch := by
  unfold State.unitSend
  rw [if_pos (by rw [hc, hm]; rfl), hw]
  dsimp only
  rw [if_pos (.inl ht)]

/-- A request that carries its composition, or needs none, is sent (R226). -/
theorem unitSend_sent {s : State} {r : FabReq} (hc : r.lacksComp = false) : s.unitSend r =
    if r.proto = 1 ∧ (wordAt r.body 0 % 256 = 0x02 ∨ wordAt r.body 0 % 256 = 0x03 ∨ wordAt r.body 0 % 256 = 0x04)
      then s.numbered.sendOrLose { r with wid := s.homes.nextWrite } else s.sendOrLose r := by
  unfold State.unitSend
  rw [if_neg (by simp [hc])]

/-- FLIT_RECEIVE has its meaning; stated once by name, since to find it through `exec` evaluates the flit's decoder. -/
theorem exec_flitReceive (l : Fin 12) (f : BitVec 2048) (ue : Option (Fin 64)) (s : State) :
    exec (.flitReceive l f ue) s = execFlitReceive l f s ue := rfl

section Transmit

variable {l : Fin 12} {s : State}

/-- An open port that keeps 512 flits sends IDLE (R233). -/
theorem completes_transmit_full (ho : s.portOpen l.val = true) (hl : 512 ≤ (s.port l.val).replay.length) :
    Completes (.portTransmit l 0) s fun t => t = s.emitFlit l.val 0 1 0 [] := by
  refine completes_act (by rfl) ?_
  simp [ho, hl]

/-- One with room, whose encrypted group has seven flits, sends its TAG (R235). -/
theorem completes_transmit_tag (ho : s.portOpen l.val = true) (hl : (s.port l.val).replay.length < 512) (hs : 7 ≤ (s.port l.val).sent.length)
    (he : s.regF (Reg.LNK_STATUS l.val) 27 27 = 1) : Completes (.portTransmit l 0) s fun t => t = s.sendTag l.val := by
  refine completes_act (by rfl) ?_
  simp [ho, Nat.not_le.mpr hl, hs, he]

variable {slots : List (List Nat)} {start : Nat} {ended : List Packet} {u : State}

/-- One with room, and no TAG due, sends the flit that its packets fill. -/
theorem completes_transmit_data (ho : s.portOpen l.val = true) (hl : (s.port l.val).replay.length < 512)
    (hg : (s.port l.val).sent.length < 7 ∨ s.regF (Reg.LNK_STATUS l.val) 27 27 = 0) (hf : s.fillFlit l.val 64 [] 0 [] = (u, slots, start, ended))
    (hs : slots ≠ []) : Completes (.portTransmit l 0) s fun t => t = u.sendData l.val slots start ended := by
  refine completes_act (by rfl) ?_
  rcases hg with hg | hg
  · simp [ho, Nat.not_le.mpr hl, Nat.not_le.mpr hg, hf, hs]
  · simp [ho, Nat.not_le.mpr hl, hg, hf, hs]

/-- Where they fill none, for want of credit, it counts a stall and sends IDLE (R231). -/
theorem completes_transmit_stall (ho : s.portOpen l.val = true) (hl : (s.port l.val).replay.length < 512)
    (he : s.regF (Reg.LNK_STATUS l.val) 27 27 = 0) (hf : s.fillFlit l.val 64 [] 0 [] = (u, [], start, ended))
    (hq : (u.port l.val).queue.any (·.onChip) = true) :
    Completes (.portTransmit l 0) s fun t => t = (u.count (Reg.LNK_CRD_STALL l.val) 1).emitFlit l.val 0 1 0 [] := by
  refine completes_act (by rfl) ?_
  simp only [ho, Nat.not_le.mpr hl, he, hf, hq, Bool.not_true, Bool.false_eq_true, if_false, if_true, Nat.reduceEqDiff, decide_false,
    Bool.false_and, List.isEmpty_nil]

end Transmit

end Sys2Proof.Machine

section

open Sys2Proof Sys2Proof.Machine

/-- Settles O15: a closed page's registers are not reached, so that no requester reads or writes them. -/
theorem closedPage : Obligations.ClosedPage := by
  unfold Obligations.ClosedPage
  intro rq a v p o s hc hl ho hp
  have unreached : s.reaches rq (rq.target a.toNat) = false := State.reaches_closed hl ho hp
  have denied : s.writes rq (rq.target a.toNat) = false := State.writes_unreached unreached
  exact ⟨completes_read_unreached hc unreached, completes_act (by rfl) (busWrite_denied hc denied),
    completes_act (by rfl) (busWrite_denied hc denied), completes_act (by rfl) (busWrite_denied hc denied)⟩

/-- Settles O16: each command takes the branch that the checks and the partition's state choose; what it shows is written last. -/
theorem admissionAndRelease : Obligations.AdmissionAndRelease := by
  unfold Obligations.AdmissionAndRelease
  refine ⟨?_, ?_, ?_, ?_, ?_, ?_, ?_, ?_⟩
  · intro rq v p s hw hb hr hp hk
    refine completes_admit hw hb hr rfl hp ?_
    rw [if_pos hk]
    exact ⟨rfl, by rw [State.pstate_admResult, State.pstate_admission], State.reg_admResult _ _⟩
  · intro rq v p k s hw hb hr hp hk hn
    refine completes_admit hw hb hr rfl hp ?_
    rw [← hk, if_neg hn]
    rfl
  · intro rq v p s hw hb hp hs hx
    refine (completes_release hw hb rfl hp hs hx).imp fun t e => ?_
    rw [e]
    exact ⟨rfl, by rw [State.pstate_admResult, State.pstate_beginRelease], State.reg_admResult _ _⟩
  · intro rq v p s hw hb hp hf hr hx
    exact completes_release_extents hw hb rfl hp hf hr hx
  · intro rq v p s hw hb hp hs
    exact completes_release_none hw hb rfl hp hs
  · intro rq v p s hw hp
    refine completes_access (by rfl) hw ?_
    exact if_pos hp
  · intro p s hp hq hd hr
    refine (completes_drained_reset hp hq hd hr).imp fun t e => ?_
    rw [e]
    exact ⟨by rw [State.pstate_pageCause, State.pstate_setPstate], State.bitOf_pageCause_resetDone _ _, rfl⟩
  · intro p s hp hq hd
    refine completes_act (by rfl) ?_
    simp [hp, hq, hd]

/-- Settles O17: an enable registers its ring with what the checks find, and a disable that is done finishes. -/
theorem ringRegistration : Obligations.RingRegistration := by
  unfold Obligations.RingRegistration
  refine ⟨?_, ?_, ?_, ?_, ?_, ?_, ?_, ?_⟩
  · intro rq p n v s u r hw he hu hr hd hc
    refine completes_access (by rfl) hw ?_
    rw [enableRing_registers he hu hr (ringSizes_chute n) hc (fun h => absurd h (chute_ne_mboxRing n)), registerRing_passes hd]
  · intro rq p n v s u r e hw he hu hr hd hc hn
    refine completes_access (by rfl) hw ?_
    rw [enableRing_registers he hu hr (ringSizes_chute n) hc.symm (fun h => absurd h (chute_ne_mboxRing n)), registerRing_fails hd hn]
  · intro rq p v s u r hw he hu hr hd hc
    refine completes_access (by rfl) hw ?_
    exact (enableRing_registers (n := cplRing) he hu hr rfl hc (fun h => absurd h (by decide))).trans (registerRing_passes hd)
  · intro rq p v s u r hw he hu hr hd hc hm
    refine completes_access (by rfl) hw ?_
    exact (enableRing_registers (n := mboxRing) he hu hr rfl hc (fun _ => hm)).trans (registerRing_passes hd)
  · intro p n s hz hh
    refine completes_act (by rfl) ?_
    simp [hz, hh]
  · intro rq p n v s hw he hr hz
    exact completes_access (by rfl) hw (disableWrite_ready he hr hz)
  · intro p n s hd hk hn
    refine completes_act (by rfl) ?_
    simp [hd, hk, hn]
  · rintro p s u hd hk rfl
    refine completes_act (by rfl) ?_
    exact if_pos (by rw [Bool.and_eq_true, List.isEmpty_iff]; exact ⟨hd, hk⟩)

/-- Settles O18: each write, store, packet and record takes the branch that its place in the rings and queues chooses. -/
theorem headsStoresAndFifos : Obligations.HeadsStoresAndFifos := by
  unfold Obligations.HeadsStoresAndFifos
  refine ⟨?_, ?_, ?_, ?_, ?_, ?_, ?_, ?_, ?_, ?_, ?_, ?_⟩
  · rintro rq p v n s hw rfl hn h
    exact completes_act (by rfl) (headWrite_sets hw hn h)
  · rintro rq p v n s hw rfl hn h
    exact completes_act (by rfl) (headWrite_sets hw hn h)
  · rintro rq p v n s hw rfl hn h
    exact completes_act (by rfl) (headWrite_past hw hn h)
  · intro src line mask data poison s h
    refine completes_act (by rfl) ?_
    exact if_pos h
  · intro src line mask data poison s h
    refine completes_act (by rfl) ?_
    exact if_neg (Bool.eq_false_iff.mp h)
  · intro p n i h s hh hl
    refine completes_act (by rfl) ?_
    simp [hh, hl]
  · intro p n k l q s ha ht hk hc hb hq hl
    refine completes_act (by rfl) ?_
    simp [ha, ht, hk, hc, hb, hq, hl]
  · intro p n k l s ha ht hk hc
    refine completes_act (by rfl) ?_
    simp [ha, ht, hk, hc]
  · intro p n k l s ha ht hk hc hb
    refine completes_act (by rfl) ?_
    simp [ha, ht, hk, hc, hb]
  · intro p n k l s ha ht hk hc hb hq
    refine completes_act (by rfl) ?_
    simp [ha, ht, hk, hc, hb, hq]
  · intro k w0 seq tag len s hm hs hl hw hq
    refine completes_act (by rfl) ?_
    simp [hm, hs, hl, hw, ← hq]
  · intro rq p v s hw
    refine completes_access (by rfl) hw ?_
    simp [State.part_modPart, Part.admitFaults]

/-- Settles O19: each command takes the branch that its phase and what refuses it choose. -/
theorem commandsStartAndEnd : Obligations.CommandsStartAndEnd := by
  unfold Obligations.CommandsStartAndEnd
  refine ⟨?_, ?_, ?_, ?_, ?_, ?_, ?_, ?_, ?_, ?_, ?_, ?_, ?_⟩
  · intro p chute seq c st d s hc hr hm hf hx
    exact completes_commandStart hc hr hm hf (by rw [hx]; rfl)
  · intro p chute seq c k u s hc hr hm hf hx hk hu hw
    exact completes_commandStart hc hr hm hf (by rw [hx]; exact startReady_unit hk hu hw)
  · intro p chute seq c s hc hr hm hf hx ho
    exact completes_commandStart hc hr hm hf (by rw [hx]; exact startReady_sync ho)
  · intro p chute seq c s hc hr hm hf hx ho hw
    exact completes_commandStart hc hr hm hf (by rw [hx]; exact startReady_semWait ho hw)
  · intro k p c s hfree hfirst
    refine completes_act (by rfl) ?_
    simp only [hfree, hfirst, Bool.false_eq_true, if_false]
  · intro p chute seq c s hc hr he hd hl
    refine completes_act (by rfl) ?_
    simp [hc, hr, he, State.overdue, hd, hl]
  · rintro p c n tail a next s u hc hr hd rfl rfl hroom rfl hw rfl rfl
    refine completes_act (by rfl) ⟨_, rfl, ?_⟩
    simp [hc, hr, hd, hroom, hw]
  · intro p c s hc hr hfull
    refine completes_act (by rfl) ?_
    simp [hc, hr, hfull]
  · intro p chute seq k c s hk hc he
    refine (completes_abort hk hc).imp fun t e => ?_
    rw [e, State.abortTarget, he]
  · intro p chute seq k c s hk hc hw
    exact (completes_abort hk hc).imp fun t e => e.trans (abortTarget_waits hw)
  · rintro p chute seq k f s hk hc rfl hf
    refine completes_act (by rfl) ?_
    simp only [hk, hc, hf, if_true]
  · rintro p chute seq k c s u hk hc hr hw hb hg rfl
    exact (completes_abort hk hc).imp fun t e => e.trans (abortTarget_runs hr hw hb hg)
  · intro p chute seq c ue s hc hu he hr
    refine completes_act (by rfl) ?_
    simp [hc, hu, he, hr]

/-- Settles O33: each step takes the branch that the scan, the line's entry and the extent's state choose. -/
theorem hostLossAndRelease : Obligations.HostLossAndRelease := by
  unfold Obligations.HostLossAndRelease
  refine ⟨?_, ?_, ?_, ?_, ?_, ?_, ?_, ?_, ?_⟩
  · intro h s
    exact completes_act (by rfl) rfl
  · rintro rq v ld s u hw rfl hb rfl
    refine completes_access (by rfl) hw ?_
    simp [hb]
  · rintro rq v s u hw rfl hb
    refine completes_access (by rfl) hw ?_
    simp [hb]
  · intro s hs
    refine completes_act (by rfl) ?_
    simp [hs]
  · rintro rq h v l s u hw rfl rfl he
    refine completes_access (by rfl) hw ?_
    simp only [he, -Nat.reducePow]
    rfl
  · rintro rq h v l e s u hw rfl rfl he hl
    refine completes_access (by rfl) hw ?_
    simp only [he, hl, if_true, -Nat.reducePow]
  · intro i e s he
    refine completes_act (by rfl) ?_
    simp [he]
  · intro i e s he hr hb hn
    refine completes_act (by rfl) ?_
    simp [he, hr, hb, hn]
  · intro i e s he hr hb hn
    refine completes_act (by rfl) ?_
    simp [he, hr, hb, hn]

/-- Settles O34: each step takes the branch that the request, the flit or the port's state chooses. -/
theorem fabricRequestsAndFlits : Obligations.FabricRequestsAndFlits := by
  unfold Obligations.FabricRequestsAndFlits
  refine ⟨?_, ?_, ?_, ?_, ?_, ?_, ?_, ?_, ?_, ?_, ?_, ?_, ?_, ?_, ?_, ?_⟩
  · intro r s hc
    exact completes_act (by rfl) (unitSend_sent hc)
  · intro r p c q s hc hm hw ht
    exact completes_act (by rfl) (unitSend_stale hc hm hw ht)
  · intro l f ue n lost s ho hf
    refine completes_act (exec_flitReceive l f ue s) ?_
    simp [ho, hf]
  · intro l f ue x n lost s ho hf hx
    refine completes_act (exec_flitReceive l f ue s) ?_
    simp [ho, hf, hx]
  · rintro l f ue x n lost s u ho hf hx hr rfl hu hk hq
    refine completes_act (exec_flitReceive l f ue s) ?_
    rcases hk with hk | hk
    · simp [ho, hf, hx, hr, hu, hk, hq]
    · simp [ho, hf, hx, hr, hu, hk, hq]
  · intro l s ho hr
    refine completes_act (by rfl) ?_
    simp [ho, hr]
  · intro l slots start ended s u ho hl hg hf hs
    exact completes_transmit_data ho hl hg hf hs
  · intro l start ended s u ho hl he hf hq
    exact completes_transmit_stall ho hl he hf hq
  · intro l tc vc s
    exact completes_act (by rfl) rfl
  · rintro l e p s u hr he hp rfl
    refine completes_act (by rfl) ?_
    simp [hr, he, hp]
  · intro l i e s hi hh ha
    refine completes_act (by rfl) ?_
    simp [hi, hh, ha]
  · intro dst tc seq r s hr ht
    exact completes_requestTimeout hr ht
  · rintro k lost r s u hk rfl rfl hl hr ht
    refine completes_act (by rfl) ?_
    simp [hk, hl, hr, ht]
  · intro dst tc seq r s hr ht hd
    exact (completes_requestTimeout hr ht).imp fun t e => by rw [e, attemptFailed_retried hd]
  · intro l s ho hl
    exact completes_transmit_full ho hl
  · intro l s ho hl hs he
    exact completes_transmit_tag ho hl hs he

end

/-! PROOFS for 03_matrix_engines_and_narrow_arithmetic.md: packed rows and trits, the steps of a matrix program, quarantine, the escalation table. -/

namespace Sys2Proof.Machine

/-! ### Packed rows (R79) -/

theorem unpackRow_getElem? (f k v : Nat) {i : Nat} (h : i < unitsPerRow f k) :
    (unpackRow f k v)[i]? = some (v / 2 ^ (codeBits f * i) % 2 ^ codeBits f) := by
  simp [unpackRow, h]

theorem length_trits (b : Nat) : (trits b).length = 5 := by
  unfold trits
  split <;> rfl

/-- Each byte gives five trits, so that trit e is number e mod 5 of byte e div 5. -/
theorem getElem?_flatMap_trits (bytes : List Nat) (e : Nat) :
    (bytes.flatMap trits)[e]? = bytes[e / 5]?.bind (fun b => (trits b)[e % 5]?) := by
  induction bytes generalizing e with
  | nil => simp
  | cons b t ih =>
    rw [List.flatMap_cons]
    by_cases first : e < 5
    · rw [List.getElem?_append_left (by rw [length_trits]; exact first), Nat.div_eq_of_lt first, Nat.mod_eq_of_lt first]
      rfl
    · rw [List.getElem?_append_right (by rw [length_trits]; omega), length_trits, ih, show e / 5 = (e - 5) / 5 + 1 by omega,
        show (e - 5) % 5 = e % 5 by omega]
      rfl

/-- Outside YT a storage unit is an element. -/
theorem rowCodes_unpackRow {f k v e : Nat} (hf : f ≠ fmYt) (he : e < k) :
    (rowCodes f k (unpackRow f k v)).getD e 0 = v / 2 ^ (codeBits f * e) % 2 ^ codeBits f := by
  have unit : e < unitsPerRow f k := by rwa [unitsPerRow, if_neg hf]
  rw [rowCodes, if_neg hf, List.getD_eq_getElem?_getD, List.getElem?_take_of_lt he, unpackRow_getElem? f k v unit]
  rfl

theorem rowCodes_unpackRow_yt {k v e : Nat} (he : e < k) :
    (rowCodes fmYt k (unpackRow fmYt k v)).getD e 0 = (trits (v / 256 ^ (e / 5) % 256)).getD (e % 5) 0 := by
  have byte : e / 5 < unitsPerRow fmYt k := by
    rw [unitsPerRow, if_pos rfl]
    omega
  have width : 2 ^ (codeBits fmYt * (e / 5)) = 256 ^ (e / 5) := Nat.pow_mul 2 8 (e / 5)
  rw [rowCodes, if_pos rfl, List.getD_eq_getElem?_getD, List.getElem?_take_of_lt he, getElem?_flatMap_trits, unpackRow_getElem? _ k v byte, width,
    List.getD_eq_getElem?_getD]
  rfl

/-- Unit i of a packed row lies i widths up. -/
theorem packRow_unit (f : Nat) {us : List Nat} (h : ∀ u ∈ us, u < 2 ^ codeBits f) {i : Nat} (hi : i < us.length) :
    packRow f us / 2 ^ (codeBits f * i) % 2 ^ codeBits f = us[i] := by
  induction us generalizing i with
  | nil => exact absurd hi (Nat.not_lt_zero i)
  | cons u t ih =>
    have fits : u % 2 ^ codeBits f = u := Nat.mod_eq_of_lt (h u List.mem_cons_self)
    cases i with
    | zero => simp [packRow, fits]
    | succ j =>
      have up : packRow f (u :: t) / 2 ^ codeBits f = packRow f t := by
        rw [packRow, Nat.add_mul_div_left _ _ (Nat.two_pow_pos _), Nat.div_eq_of_lt (Nat.mod_lt _ (Nat.two_pow_pos _)), Nat.zero_add]
      rw [Nat.mul_succ, Nat.add_comm, Nat.pow_add, ← Nat.div_div_eq_div_mul, up, List.getElem_cons_succ]
      exact ih (fun x hx => h x (List.mem_cons_of_mem u hx)) (Nat.lt_of_succ_lt_succ hi)

theorem unpackRow_packRow {f k : Nat} {us : List Nat} (hl : us.length = unitsPerRow f k) (h : ∀ u ∈ us, u < 2 ^ codeBits f) :
    unpackRow f k (packRow f us) = us := by
  refine List.ext_getElem (by simp [unpackRow, hl]) fun i _ hi => ?_
  simpa [unpackRow] using packRow_unit f h hi

/-! ### Trits (R82) -/

theorem trits_of_le {v : Nat} (h : v ≤ 242) : trits v = [v % 3, v / 3 % 3, v / 9 % 3, v / 27 % 3, v / 81 % 3] := if_pos h

theorem trits_of_invalid {v : Nat} (h : 242 < v) : trits v = [0, 0, 0, 0, 0] := if_neg (Nat.not_le.mpr h)

theorem tritByte_five (a b c d e : Nat) : tritByte [a, b, c, d, e] = a + 3 * b + 9 * c + 27 * d + 81 * e := rfl

/-- Digit i of a byte in base 3. -/
theorem trits_getD {v i : Nat} (h : v ≤ 242) (hi : i < 5) : (trits v).getD i 0 = v / 3 ^ i % 3 := by
  rw [trits_of_le h]
  match i, hi with
  | 0, _ => simp
  | 1, _ | 2, _ | 3, _ | 4, _ => rfl

theorem tritByte_trits {v : Nat} (h : v ≤ 242) : tritByte (trits v) = v := by
  rw [trits_of_le h, tritByte_five]
  omega

theorem tritByte_le {a b c d e : Nat} (ha : a < 3) (hb : b < 3) (hc : c < 3) (hd : d < 3) (he : e < 3) : tritByte [a, b, c, d, e] ≤ 242 := by
  rw [tritByte_five]
  omega

theorem trits_tritByte {a b c d e : Nat} (ha : a < 3) (hb : b < 3) (hc : c < 3) (hd : d < 3) (he : e < 3) :
    trits (tritByte [a, b, c, d, e]) = [a, b, c, d, e] := by
  rw [trits_of_le (tritByte_le ha hb hc hd he), tritByte_five]
  simp only [List.cons.injEq, and_true]
  omega

theorem invalidCodes_yt (us : List Nat) : invalidCodes fmYt us = us.countP (fun c => decide (242 < c)) :=
  List.countP_eq_length_filter.symm

/-- An invalid byte of a row counts once. -/
theorem invalidCodes_yt_append (us : List Nat) (v : Nat) :
    invalidCodes fmYt (us ++ [v]) = invalidCodes fmYt us + if 0xF3 ≤ v then 1 else 0 := by
  rw [invalidCodes_yt, invalidCodes_yt, List.countP_append, List.countP_singleton]
  simp only [decide_eq_true_eq, Nat.lt_iff_add_one_le]

/-! ### Steps of a matrix program (R68, R92, R93) -/

/-- A step that its engine's program has come to is carried out. -/
theorem completes_meStep {i : Instr} {s : State} {P : State → Prop} {e kind p : Nat} {c : Cmd} {f : Nat → Cmd → List Nat → State → State}
    (x : exec i s = act s (fun s => s.meStep e kind f)) (h : AtStep s e kind p c) (k : P (f p c (c.desc c.progress) s)) : Completes i s P :=
  completes_act x (by rw [meStep_run h]; exact k)

/-- With no line to wait for, what waits goes on. -/
@[simp] theorem State.whenReadable_nil (s : State) (f : State → State) : s.whenReadable [] f = f s := whenReadable_run rfl

section Checks

variable {s u : State} {p e kind : Nat} {c : Cmd} {r : Attempt} {m : BitVec 16} {x : Slot} {runs : List Attempt}
  {f : Nat → Attempt → State → State}

theorem bufferFixed_none (h : r.fixed = 0) : s.bufferFixed e r = s := if_pos h

@[simp] theorem bufferFixed_clean : s.bufferFixed e Attempt.clean = s := bufferFixed_none rfl

/-- An attempt in which nothing goes wrong passes its check (R92). -/
@[simp] theorem checkRun_clean : s.checkRun e c Attempt.clean = none := by
  simp [State.checkRun, Attempt.clean, mmaCheck]

/-- A clean attempt is the only one. -/
theorem attempts_clean : s.attempts p e c kind [] f = f 1 Attempt.clean s := by
  simp [State.attempts]

/-- A mismatch is counted, and a clean second attempt stands (R93). -/
theorem attempts_rerun (hf : r.fixed = 0) (hm : s.checkRun e c r = some m) :
    s.attempts p e c kind [r] f = f 2 Attempt.clean ((s.meMismatch e kind m).count (Reg.ME_CHK_RERUN_OK e) 1) := by
  simp [State.attempts, bufferFixed_none hf, hm]

/-- The slot that a step writes depends on its engine and on whether its partition's table is ready. -/
theorem stepSlot_congr (he : u.engines = s.engines) (hp : u.parts = s.parts) : u.stepSlot p e c r = s.stepSlot p e c r := by
  unfold State.stepSlot State.engine State.escReady State.part
  rw [he, hp]

@[simp] theorem State.meMismatch_engines (s : State) (e kind : Nat) (m : BitVec 16) : (s.meMismatch e kind m).engines = s.engines := by
  rw [State.meMismatch, State.setRegN_engines, State.count_engines]

@[simp] theorem State.meMismatch_parts (s : State) (e kind : Nat) (m : BitVec 16) : (s.meMismatch e kind m).parts = s.parts := by
  rw [State.meMismatch, State.setRegN_parts, State.count_parts]

/-- A mismatch that is counted leaves what the step writes. -/
theorem stepSlot_mismatch {a n : Nat} : ((s.meMismatch e kind m).count a n).stepSlot p e c r = s.stepSlot p e c r :=
  stepSlot_congr (by rw [State.count_engines, State.meMismatch_engines]) (by rw [State.count_parts, State.meMismatch_parts])

theorem runSlot_barred (h : s.stepSlot p e c Attempt.clean = none) :
    s.runSlot p e c kind runs = s.endCmd p c stUnsupported c.progress (min (c.auxAt 2) 0xFFFFFF) := by
  unfold State.runSlot
  rw [h]
  rfl

theorem runSlot_clean (h : s.stepSlot p e c Attempt.clean = some x) : s.runSlot p e c kind [] = s.slotDone p e c x 1 := by
  simp [State.runSlot, h, attempts_clean]

theorem runSlot_rerun (h : s.stepSlot p e c Attempt.clean = some x) (hf : r.fixed = 0) (hm : s.checkRun e c r = some m) :
    s.runSlot p e c kind [r] = ((s.meMismatch e kind m).count (Reg.ME_CHK_RERUN_OK e) 1).slotDone p e c x 2 := by
  unfold State.runSlot
  rw [h]
  dsimp only
  rw [attempts_rerun hf hm, stepSlot_mismatch, h]

end Checks

/-! ### ME_PROGRAM, LOAD_TILE and STORE_TILE (R68, R71, R74, R97) -/

/-- A program that has its engine and has not begun begins, if R68 lets it. -/
theorem completes_meProgram {P : State → Prop} {p : Fin 32} {chute : Fin 64} {seq : Word} {c : Cmd} {s : State}
    (hc : s.cmd p.val chute.val seq.toNat = some c) (ho : c.opcode = 0x02) (hr : c.phase = .running) (hm : c.mustStop = false) (ha : c.aux = [])
    (h : P (if !c.progOk then s.endCmd p.val c stUnsupported 0 0
      else ((s.modEngine c.runUnit (fun g => { g with waiting := false })).setAux p.val c 0
        [s.reg64 (Reg.PART_ME_SEED_LO p.val), s.regN (Reg.PART_ME_ESC_CTRL p.val), 0]).setRegF (Reg.ME_STATUS c.runUnit) 15 0 0)) :
    Completes (.meProgram p chute seq) s P := by
  refine completes_act (by rfl) ?_
  simpa [hc, ho, hr, hm, ha] using h

/-- With no table ready, no entry is hit (R97). -/
theorem loadHit_unready {s : State} {p : Nat} {t : Tile} {origin : Option Nat} (h : s.escReady p = false) : s.loadHit p t origin = none := by
  cases origin with
  | none => rfl
  | some o => simp [State.loadHit, h]

/-- The lines of the table that a LOAD_TILE looks at first. -/
def State.loadProbe (s : State) (p : Nat) (t : Tile) (origin : Option Nat) : List Nat :=
  match origin with
  | some o => if isNarrow t.fmt && s.escReady p then s.escLines p o else []
  | none => []

theorem loadProbe_unready {s : State} {p : Nat} {t : Tile} {origin : Option Nat} (h : s.escReady p = false) : s.loadProbe p t origin = [] := by
  cases origin with
  | none => rfl
  | some o => simp [State.loadProbe, h]

theorem loadProbe_ready {s : State} {p o : Nat} {t : Tile} (hn : isNarrow t.fmt = true) (h : s.escReady p = true) :
    s.loadProbe p t (some o) = s.escLines p o := by
  simp [State.loadProbe, hn, h]

/-- Engine e has come to a LOAD_TILE of a tile's shape that fits the buffer, and its rows and scales are translated (R71, R171). -/
structure AtLoad (s : State) (e p : Nat) (c : Cmd) (t : Tile) (rows : List (List (Nat × Nat))) (sc : List (Nat × Nat)) : Prop where
  step : AtStep s e 1 p c
  shape : loadShape (c.desc c.progress) = some t
  fits : Slot.fits ⟨nfld (wordAt (c.desc c.progress) 0) 26 16, t, false, none⟩ = true
  rows : c.rows acRead (pairAt (c.desc c.progress) 2) (wordAt (c.desc c.progress) 6) (rowBytes t.fmt t.k) t.rows = some rows
  scales : c.range (pairAt (c.desc c.progress) 4) (t.rows * scalesPerRow t.fmt t.k t.two) acRead = some sc

/-- The tile of a shape whose rows and scales have been read. -/
def Tile.filled (t : Tile) (gs : List Got) (gsc : Got) : Tile :=
  let ns := scalesPerRow t.fmt t.k t.two
  { t with
    data := gs.map (fun g => unpackRow t.fmt t.k g.value)
    scales := if ns = 0 then [] else (List.range t.rows).map (fun i => unpackRow fmE4m3 ns (gsc.value / 2 ^ (8 * (i * ns)))) }

section Load

variable {e : Fin 32} {p : Nat} {c : Cmd} {t : Tile} {rows : List (List (Nat × Nat))} {sc : List (Nat × Nat)} {s : State}

/-- With no table ready, reads that are good and codes that are valid, the tile that was read comes into its slot. -/
theorem completes_loadTile_read {gs : List Got} {gsc : Got} {s1 s2 : State} (h : AtLoad s e.val p c t rows sc) (hesc : s.escReady p = false)
    (hready : AllReady s (c.agent p) true (rows.flatten ++ sc)) (hgs : s.fetchRows (c.agent p) rows = (gs, s1))
    (hgsc : s1.fetchAll (c.agent p) true sc = (gsc, s2)) (hok : gotStatus (gsc :: gs) = 0)
    (hvalid : ((t.filled gs gsc).data.map (invalidCodes t.fmt)).sum = 0) :
    Completes (.loadTile e) s fun u => u = Taken (s2.loaded p e.val c (nfld (wordAt (c.desc c.progress) 0) 26 16) (t.filled gs gsc)
      (pairAt (c.desc c.progress) 2)) (c.agent p) (rows.flatten ++ sc) := by
  refine completes_meStep (by rfl) h.step ?_
  simp only [h.shape, h.fits, h.rows, h.scales, Bool.not_true, Bool.false_eq_true, if_false]
  change s.whenReadable (s.loadProbe p t (s.originOf rows)) _ = _
  rw [loadProbe_unready hesc, State.whenReadable_nil, loadHit_unready hesc]
  dsimp only
  rw [whenReady_run hready]
  unfold Tile.filled at hvalid ⊢
  simp only [hgs, hgsc, hok, hvalid, ne_eq, not_true_eq_false, if_false, if_true]

/-- With an entry of its origin in the table, the arena's copy is loaded, once the lines of the table are found. -/
theorem completes_loadTile_copy {i o : Nat} (h : AtLoad s e.val p c t rows sc) (ho : s.originOf rows = some o) (hn : isNarrow t.fmt = true)
    (hesc : s.escReady p = true) (hl : (s.escLines p o).all s.readable = true) (hit : (Found s (s.escLines p o)).loadHit p t (some o) = some i) :
    Completes (.loadTile e) s fun u =>
      u = (Found s (s.escLines p o)).loadCopy p e.val c (nfld (wordAt (c.desc c.progress) 0) 26 16) t i (pairAt (c.desc c.progress) 2) := by
  refine completes_meStep (by rfl) h.step ?_
  simp only [h.shape, h.fits, h.rows, h.scales, ho, Bool.not_true, Bool.false_eq_true, if_false]
  change s.whenReadable (s.loadProbe p t (some o)) _ = _
  rw [loadProbe_ready hn hesc, whenReadable_run hl]
  unfold Found at hit ⊢
  rw [hit]

end Load

section Store

variable {s : State} {p e : Nat} {c : Cmd} {x : Slot} {rows : List (List (Nat × Nat))} {sc : List (Nat × Nat)}

/-- A STORE_TILE of a slot that no escalating QUANT wrote looks at no line of the table, and goes on. -/
theorem storeStep_plain {d : List Nat} {k : Slot → List (List (Nat × Nat)) → List (Nat × Nat) → State → State}
    (hx : slotAt (s.engine e).slots (nfld (wordAt d 0) 26 16) = some x) (hp : x.fromEsc = false) (ha : wordAt d 6 % 16 = 0)
    (hb : rowBytes x.tile.fmt x.tile.k ≤ wordAt d 6)
    (hrows : c.rows acWrite (pairAt d 2) (wordAt d 6) (rowBytes x.tile.fmt x.tile.k) x.tile.rows = some rows)
    (hsc : c.range (pairAt d 4) (x.tile.rows * scalesPerRow x.tile.fmt x.tile.k x.tile.two) acWrite = some sc) :
    s.storeStep p e c d k = k x rows sc s := by
  unfold State.storeStep
  simp only [hx, ha, Nat.not_lt.mpr hb, hrows, hsc, hp, ne_eq, not_true_eq_false, or_self, Bool.false_and, Bool.false_eq_true, if_false]
  exact s.whenReadable_nil _

/-- It writes the rows and scales and ends the step. -/
theorem storeEffect_plain {stride va attempts : Nat} (hp : x.fromEsc = false) :
    s.storeEffect p e c x stride rows sc va attempts = (s.storeTile p c x.tile rows sc).meDone p e c false va attempts := by
  unfold State.storeEffect
  rw [hp]

end Store

/-! ### Quarantine (R94, R101, R121, R289, R322) -/

section Ctrl

variable {i : Instr} {s u : State} {rq : Requester} {k : UnitKind} {n : Nat} {v : Word}

/-- A write of quarantine marks a unit that is neither quarantined nor marked. -/
theorem completes_writeQuarantine (x : exec i s = act s (fun s => s.writeQuarantine rq k n v)) (hw : s.writes rq (k.ctrl n) = true)
    (hu : u = s.store (k.ctrl n) v) (hq : u.quarantined k n = false) (hm : u.marked k n = false) :
    Completes i s fun t => t = { u with marks := k.key n :: u.marks } := by
  subst hu
  refine completes_access x hw ?_
  simp only [hq, hm, Bool.or_self, Bool.false_eq_true, if_false]

/-- A unit whose quarantine is cleared is not quarantined. -/
theorem State.quarantined_unquarantine (s : State) (k : UnitKind) (n : Nat) : (s.unquarantine k n).quarantined k n = false := by
  have cleared : (s.unquarantine k n).regF (k.status n) 31 31 = 0 := State.regF_setRegF_same s _ 31 31 0 (by decide)
  simp [State.quarantined, cleared]

/-- A write of unquarantine clears that of a unit that no partition reserves. -/
theorem completes_writeUnquarantine (x : exec i s = act s (fun s => s.writeUnquarantine rq k n v)) (hw : s.writes rq (k.ctrl n) = true)
    (hu : u = s.store (k.ctrl n) v) (ho : u.owner k n = none) :
    Completes i s fun t => t = u.unquarantine k n ∧ t.quarantined k n = false := by
  subst hu
  refine completes_access x hw ?_
  dsimp only
  rw [ho]
  exact ⟨rfl, State.quarantined_unquarantine _ k n⟩

end Ctrl

/-- At its boundary a program that waits for nothing is to end CHECKSUM_FAILED. -/
theorem quarStop_me {s : State} {n p : Nat} {c : Cmd} (hw : (s.engine n).waiting = false) (hn : s.waitOf (.me n) = none) :
    s.quarStop .me n p c = some (s.endCmd p c stChecksum c.progress (min (c.auxAt 2) 0xFFFFFF)) := by
  unfold State.quarStop
  rw [hw, hn]
  rfl

/-! ### The escalation table's registers (R33, R102) -/

/-- An enable whose checks pass begins to zero the table. -/
theorem escEnable_zeroes {s u : State} {p n : Nat} {v : Word} {r r2 : Range} (he : bitOf (s.reg (Reg.PART_ESC_TBL_CTRL p)) 0 = false)
    (hu : u = s.store (Reg.PART_ESC_TBL_CTRL p) (v ||| 1)) (hn : n = u.escLog2 p)
    (hr : r = ⟨u.reg64 (Reg.PART_ESC_TBL_BASE_LO p) % 2 ^ 40, 32 * 2 ^ n⟩)
    (hr2 : r2 = ⟨u.reg64 (Reg.PART_ESC_ARENA_BASE_LO p) % 2 ^ 40, arenaSlot * 2 ^ n⟩)
    (hc : u.ringCheck p escRing true n 7 16 r r2 = 0) (hm : r.meets r2 = false) (hd : ((u.part p).ring escRing).disabling = false) :
    s.escEnable p v = ((u.setRegF (Reg.PART_ESC_TBL_CTRL p) 30 28 0).setRegF (Reg.PART_ESC_TBL_CTRL p) 0 0 1).modRing p escRing
      (fun _ => { Ring.none with zeroing := true, range := r, range2 := r2 }) := by
  unfold State.escEnable
  rw [if_neg (Bool.eq_false_iff.mp he)]
  dsimp only
  rw [← hu, ← hn, ← hr, ← hr2, hc, hm]
  exact registerRing_passes hd

section Clear

variable {s : State} {p : Nat}

/-- A clear waits for the steps that are under way. -/
theorem clearTable_waits (h : s.stepUnderWay p = true) : s.clearTable p = s := by
  simp [State.clearTable, h]

/-- With none, and no line held, it zeroes a table that is ready. -/
theorem clearTable_zeroes (hd : (s.part p).clearDue = true) (hs : s.stepUnderWay p = false) (he : s.escReady p = true)
    (hh : s.heldBack ((s.part p).ring escRing).range = []) :
    s.clearTable p =
      ((s.t1Clear ((s.part p).ring escRing).range).modPart p (fun pt => { pt with clearDue := false })).setRegN (Reg.PART_ESC_USED p) 0 := by
  simp [State.clearTable, hd, hs, he, hh]

/-- A clear that is due leaves the table ready. -/
theorem escReady_clearDue : (s.modPart p (fun pt => { pt with clearDue := true })).escReady p = s.escReady p := by
  unfold State.escReady
  rw [State.part_modPart, if_pos rfl]
  rfl

end Clear

/-- A write of clear to a table that is ready makes the clear due, and does it if it can be done. -/
theorem completes_escTableClear {s u : State} {rq : Requester} {p : Fin 32} {v : Word}
    (hw : s.writes rq (Reg.PART_ESC_TBL_CTRL p.val) = true)
    (hu : u = if bitOf v 0 then s.escEnable p.val v else s.disableWrite p.val escRing v) (he : u.escReady p.val = true) :
    Completes (.escTableClear rq p v) s fun t => t = (u.modPart p.val (fun pt => { pt with clearDue := true })).clearTable p.val := by
  refine completes_access (by rfl) hw ?_
  dsimp only
  rw [← hu, if_pos he]

end Sys2Proof.Machine

section

open Sys2Proof Sys2Proof.Machine

/-- Settles O11: a unit is read at its own bits, and those are where packing put it. -/
theorem packedRows : Obligations.PackedRows := by
  unfold Obligations.PackedRows
  refine ⟨?_, ?_, ?_, ?_⟩
  · intro f k v e hf he
    exact rowCodes_unpackRow hf he
  · decide
  · intro k v e he
    exact rowCodes_unpackRow_yt he
  · intro f k us hl h
    exact unpackRow_packRow hl h

/-- Settles O12: the five digits of a byte in base 3, and the bytes that have none. -/
theorem packedTrits : Obligations.PackedTrits := by
  unfold Obligations.PackedTrits
  refine ⟨?_, ?_, ?_, ?_, ?_, ?_⟩
  · intro v i h hi
    exact trits_getD h hi
  · intro v h
    exact tritByte_trits h
  · intro a b c d e ha hb hc hd he
    exact ⟨trits_tritByte ha hb hc hd he, tritByte_five a b c d e, tritByte_le ha hb hc hd he⟩
  · exact ⟨rfl, rfl, rfl⟩
  · intro v h _
    exact trits_of_invalid h
  · intro us v _
    exact invalidCodes_yt_append us v

/-- Settles O20: each step of a program takes the branch that its descriptor, its slots and its attempts choose. -/
theorem matrixSteps : Obligations.MatrixSteps := by
  unfold Obligations.MatrixSteps
  refine ⟨?_, ?_, ?_, ?_, ?_, ?_, ?_, ?_, ?_, ?_, ?_, ?_, ?_, ?_⟩
  · intro p chute seq c s hc ho hr hm ha hk
    exact completes_meProgram hc ho hr hm ha (by rw [hk]; rfl)
  · intro p chute seq c s hc ho hr hm ha hk
    exact completes_meProgram hc ho hr hm ha (by rw [hk]; rfl)
  · rintro e p c t0 rows sc gs gsc data scales ns s s1 s2 hs ht hfits rfl hrows hsc hesc hready hgs hgsc hok rfl hvalid rfl
    exact completes_loadTile_read ⟨hs, ht, hfits, hrows, hsc⟩ hesc hready hgs hgsc hok hvalid
  · rintro e p i o c t0 rows sc s u hs ht hfits hrows hsc ho hn hesc hl rfl hit
    exact completes_loadTile_copy ⟨hs, ht, hfits, hrows, hsc⟩ ho hn hesc hl hit
  · intro e p c x s hs hx
    exact completes_meStep (by rfl) hs (runSlot_clean hx)
  · intro e p c x m r s hs hx hf hm
    exact completes_meStep (by rfl) hs (runSlot_rerun hx hf hm)
  · intro e runs p c s hs hx
    exact completes_meStep (by rfl) hs (runSlot_barred hx)
  · intro e p c x s hs hx
    exact completes_meStep (by rfl) hs (runSlot_clean hx)
  · intro e runs p c s hs hx
    exact completes_meStep (by rfl) hs (runSlot_barred hx)
  · intro e p c x rows sc s hs hx hesc halign hstride hrows hsc
    refine completes_meStep (by rfl) hs ?_
    rw [storeStep_plain hx hesc halign hstride hrows hsc, attempts_clean, storeEffect_plain hesc]
  · intro e p h c x s hp hw hk hh hx
    refine completes_act (by rfl) ?_
    simp [hp, hw, hk, hh, hx]
  · intro e p h c m r s hp hw hh hf hm
    refine completes_act (by rfl) ?_
    simp [hp, hw, hh, hm, bufferFixed_none hf]
  · intro e p c s hs hi hw
    refine completes_meStep (by rfl) hs ?_
    simp [hi, hw]
  · intro e p v c s u hs hi hu ha
    refine completes_meStep (by rfl) hs ?_
    simp [hi, hu, ha]

/-- Settles O21: each write and boundary takes the branch that the unit's or the table's state chooses. -/
theorem quarantineAndEscalation : Obligations.QuarantineAndEscalation := by
  unfold Obligations.QuarantineAndEscalation
  refine ⟨?_, ?_, ?_, ?_, ?_, ?_, ?_, ?_, ?_, ?_, ?_, ?_, ?_⟩
  · intro rq i v s u hw hu hq hm
    exact completes_writeQuarantine (k := .me) (by rfl) hw hu hq hm
  · intro rq i v s u hw hu ho
    exact completes_writeUnquarantine (k := .me) (by rfl) hw hu ho
  · intro rq i v s u hw hu hq hm
    exact completes_writeQuarantine (k := .gc) (by rfl) hw hu hq hm
  · intro rq i v s u hw hu ho
    exact completes_writeUnquarantine (k := .gc) (by rfl) hw hu ho
  · intro rq i v s u hw hu hq hm
    exact completes_writeQuarantine (k := .row) (by rfl) hw hu hq hm
  · intro rq i v s u hw hu ho
    exact completes_writeUnquarantine (k := .row) (by rfl) hw hu ho
  · intro rq i v s u hw hu hq hm
    exact completes_writeQuarantine (k := .win) (by rfl) hw hu hq hm
  · intro rq i v s u hw hu ho
    exact completes_writeUnquarantine (k := .win) (by rfl) hw hu ho
  · intro k n s hm hc
    refine completes_act (by rfl) ?_
    simp [hm, hc]
  · rintro n p c s u hm hc hw hn rfl
    refine completes_act (by rfl) ?_
    simp [hm, hc, quarStop_me hw hn]
  · intro rq p v n r r2 s u hw he hu hn hr hr2 hc hm hd
    exact completes_access (by rfl) hw (escEnable_zeroes he hu hn hr hr2 hc hm hd)
  · intro rq p v s u hw hu he hs
    refine (completes_escTableClear hw hu he).imp fun t e => ?_
    rw [e]
    exact clearTable_waits hs
  · rintro rq p v s u w hw hu he rfl hs hh
    refine (completes_escTableClear hw hu he).imp fun t e => ?_
    rw [e]
    exact clearTable_zeroes (by rw [State.part_modPart, if_pos rfl]) hs (escReady_clearDue.trans he) hh

end

/-! PROOFS for 04_general_cores_and_ordering.md: runs of a core and their instructions, its atomics, its own instructions. -/

namespace Sys2Proof.Machine

/-! ### A core that goes on (R103 to R106) -/

@[simp] theorem State.core_modCore (s : State) (g : Nat) (f : Core → Core) : (s.modCore g f).core g = f (s.core g) :=
  Tbl.get_modify_same _ _ _ _

@[simp] theorem Core.xr_elem (x : Core) (n r : Nat) : ({ x with elem := n } : Core).xr r = x.xr r := rfl

/-- An instruction that its core has come to is carried out. -/
theorem completes_gcInstr {i : Instr} {s : State} {P : State → Prop} {g p w len : Nat} {row : GcRow} {c : Cmd} {f : Nat → Cmd → Nat → State → State}
    (x : exec i s = act s (fun s => s.gcInstr g row f)) (h : AtInstr s g row p c w len) (k : P (f p c w s)) : Completes i s P :=
  completes_act x (by rw [gcInstr_run h]; exact k)

theorem unlessEnding_run {s : State} {g : Nat} {k : State → State} (h : (s.core g).ending = none) : s.unlessEnding g k = k s := by
  simp [State.unlessEnding, h]

/-- Core `g` has come to its next instruction, which its fetch answers with (R106). -/
structure AtFetch (s : State) (g p : Nat) (c : Cmd) (w len : Nat) (u : State) : Prop where
  run : s.gcRun g = some (p, c)
  goesOn : (s.core g).ending = none
  unstopped : c.mustStop = false
  unmarked : s.marked .gc g = false
  unfaulted : s.atFault p c = none
  idle : (s.core g).instr = none
  fetched : Fetches s p c g w len u

/-- A run that nothing stops fetches, whether or not it stands within an instruction. -/
theorem gcStep_fetch {s u : State} {g p w len : Nat} {c : Cmd} {k : Nat → Cmd → Nat → Nat → State → State} (h : AtFetch s g p c w len u) :
    (s.gcStep g fun p c s => if (s.core g).instr.isSome then s else s.fetchInstr p c g (k p c)) = k p c w len u := by
  simp [State.gcStep, h.run, h.goesOn, h.unstopped, h.unmarked, h.unfaulted, h.idle, h.fetched _]

/-! ### Atomics (R110) -/

section Atomics

variable {s s0 u z : State} {p g va n phys m here x cmp prior : Nat} {c : Cmd} {rl : Bool} {remote : Option Nat} {k : Nat → State → State}

theorem coreAtomic_misaligned (h : va % n ≠ 0) :
    s.coreAtomic p c g va n rl here remote x cmp k = s.endRun g stUnsupported (s.core g).pc 6 := if_pos h

/-- An aligned atomic goes on to the home of its line, where the line is this node's or the fabric carries the operation. -/
theorem coreAtomic_run (ha : va % n = 0) (hrel : Released s p c g rl s0) (hu : s0.issue p c (g / 16) va acAtomic (s0.core g).retired = .ok phys m u)
    (hc : u.isRemote phys = false ∨ remote = some here) (hz : Atomic u p c g phys here x cmp prior z) :
    s.coreAtomic p c g va n rl here remote x cmp k = k prior (z.event (g / 16) ⟨0x05, g % 16, 1, some va, some 2, .ofPart p⟩) := by
  unfold State.coreAtomic
  rw [if_neg (not_not_intro ha)]
  dsimp only
  rw [released_run hrel, hu]
  rcases hc with hc | hc
  · simp [hc, hz _]
  · simp [hc, hz _]

/-- One that the fabric does not carry ends the run on another node's line. -/
theorem coreAtomic_uncarried (ha : va % n = 0) (hrel : Released s p c g rl s0)
    (hu : s0.issue p c (g / 16) va acAtomic (s0.core g).retired = .ok phys m u) (hc : u.isRemote phys = true) :
    s.coreAtomic p c g va n rl here none x cmp k = u.endRun g stUnsupported (u.core g).pc 7 := by
  unfold State.coreAtomic
  rw [if_neg (not_not_intro ha)]
  dsimp only
  rw [released_run hrel, hu]
  simp [hc, State.gcEnd]

end Atomics

/-- The AMOs that the fabric carries to another node: their rows, and their codes of 32 and 64 bits. -/
def carriedAmos : List ((Fin 64 → Instr) × GcRow × Nat × Nat) :=
  [(.amoadd, .amoadd, 0x01, 0x02), (.amomin, .amomin, 0x03, 0x04), (.amomax, .amomax, 0x05, 0x06), (.amominu, .amominu, 0x07, 0x08),
    (.amomaxu, .amomaxu, 0x09, 0x0A)]

/-- The AMOs that it does not carry. -/
def localAmos : List ((Fin 64 → Instr) × GcRow × Nat × Nat) :=
  [(.amoswap, .amoswap, 0x20, 0x30), (.amoand, .amoand, 0x21, 0x31), (.amoor, .amoor, 0x22, 0x32), (.amoxor, .amoxor, 0x23, 0x33)]

section Amos

variable {i : Fin 64 → Instr} {row : GcRow} {c32 c64 : Nat}

theorem exec_carriedAmo (h : (i, row, c32, c64) ∈ carriedAmos) (g : Fin 64) (s : State) :
    exec (i g) s = act s (fun s => s.amo g.val row c32 c64 true) := by
  simp only [carriedAmos, List.mem_cons, List.not_mem_nil, or_false, Prod.mk.injEq] at h
  rcases h with ⟨rfl, rfl, rfl, rfl⟩ | ⟨rfl, rfl, rfl, rfl⟩ | ⟨rfl, rfl, rfl, rfl⟩ | ⟨rfl, rfl, rfl, rfl⟩ | ⟨rfl, rfl, rfl, rfl⟩ <;> rfl

theorem exec_localAmo (h : (i, row, c32, c64) ∈ localAmos) (g : Fin 64) (s : State) :
    exec (i g) s = act s (fun s => s.amo g.val row c32 c64 false) := by
  simp only [localAmos, List.mem_cons, List.not_mem_nil, or_false, Prod.mk.injEq] at h
  rcases h with ⟨rfl, rfl, rfl, rfl⟩ | ⟨rfl, rfl, rfl, rfl⟩ | ⟨rfl, rfl, rfl, rfl⟩ | ⟨rfl, rfl, rfl, rfl⟩ <;> rfl

/-- Each of the nine AMOs is one that the fabric carries or one that it does not. -/
theorem exec_amo (h : (i, row, c32, c64) ∈ carriedAmos ++ localAmos) :
    ∃ carried, ∀ (g : Fin 64) (s : State), exec (i g) s = act s (fun s => s.amo g.val row c32 c64 carried) := by
  rcases List.mem_append.mp h with h | h
  · exact ⟨true, exec_carriedAmo h⟩
  · exact ⟨false, exec_localAmo h⟩

end Amos

/-! ### LR and SC (R110) -/

@[simp] theorem State.isRemote_dropCoreResv (s : State) (g : Nat) : (s.dropCoreResv g).isRemote = s.isRemote := rfl

@[simp] theorem State.mayTouch_dropCoreResv (s : State) (g : Nat) : (s.dropCoreResv g).mayTouch = s.mayTouch := rfl

/-- Core `g` has come to an LR or SC of n bytes whose address is aligned and translated; the release is done where rl asks for it, and the core's own
copy of the line is written back and dropped, which has not ended the run. -/
structure AtLine (s : State) (g : Nat) (row : GcRow) (access p : Nat) (c : Cmd) (w len n phys : Nat) (v : State) : Prop where
  instr : AtInstr s g row p c w len
  width : n = if iF3 w = 3 then 8 else 4
  aligned : (s.core g).xr (iRs1 w) % n = 0
  line : ∃ s0 u m, Released s p c g (amoRl w) s0 ∧ s0.issue p c (g / 16) ((s.core g).xr (iRs1 w)) access (s0.core g).retired = .ok phys m u
    ∧ v = u.cleanLines p c g (fun d => decide (d.addr = phys / 64 * 64)) true
  goesOn : (v.core g).ending = none

section Reserve

variable {g : Fin 64} {p w len n phys prior : Nat} {c : Cmd} {s v x z : State}

/-- LR of a line whose read is answered puts the value into rd, and reserves a line of this node that the partition may touch. -/
theorem completes_lr {y : Got} (h : AtLine s g.val .lr acRead p c w len n phys v) (hb : v.lineBusy (phys / 64 * 64) = false)
    (hready : AllReady v (c.coreAgent p g.val) false [(phys / 64 * 64, 64)]) (hf : v.fetch (c.coreAgent p g.val) false phys n = (y, x))
    (hst : y.status = 0) (hpo : y.poison = false) (hrem : x.isRemote (phys / 64 * 64) = false) (hmay : x.mayTouch p (phys / 64 * 64) = true) :
    Completes (.lr g) s fun t =>
      t = Taken (((({ x with resv := (g.val, phys / 64 * 64) :: x.resv.filter (fun e => decide (e.1 ≠ g.val)) } : State)).modCore g.val
        (fun z => z.setX (iRd w) (if n = 8 then y.value else sext 32 y.value))).retire p g.val ((s.core g.val).xr (iRs1 w)))
          (c.coreAgent p g.val) [(phys / 64 * 64, 64)] := by
  obtain ⟨hi, hn, ha, ⟨s0, u, m, hrel, hu, hv⟩, he⟩ := h
  have mine : (!(x.dropCoreResv g.val).isRemote (phys / 64 * 64) && (x.dropCoreResv g.val).mayTouch p (phys / 64 * 64)) = true := by
    simp [hrem, hmay]
  refine completes_gcInstr (by rfl) hi ?_
  dsimp only
  rw [← hn, if_neg (not_not_intro ha), released_run hrel, hu]
  dsimp only
  rw [← hv, unlessEnding_run he, if_neg (Bool.eq_false_iff.mp hb), whenReady_run hready, hf]
  dsimp only
  rw [if_neg (not_not_intro hst), if_neg (Bool.eq_false_iff.mp hpo), if_pos mine]
  rfl

/-- SC of a line that is reserved for the core writes. -/
theorem completes_sc_reserved (h : AtLine s g.val .sc acAtomic p c w len n phys v) (hrem : v.isRemote phys = false)
    (hres : v.resv.contains (g.val, phys / 64 * 64) = true)
    (hz : Atomic v p c g.val phys (if n = 8 then 0x30 else 0x20) ((v.core g.val).xr (iRs2 w) % 2 ^ (8 * n)) 0 prior z) :
    Completes (.sc g) s fun t =>
      t = ((z.dropCoreResv g.val).modCore g.val (fun x => x.setX (iRd w) 0)).retire p g.val ((s.core g.val).xr (iRs1 w)) := by
  obtain ⟨hi, hn, ha, ⟨s0, u, m, hrel, hu, hv⟩, he⟩ := h
  refine completes_gcInstr (by rfl) hi ?_
  dsimp only
  rw [← hn, if_neg (not_not_intro ha), released_run hrel, hu]
  dsimp only
  rw [← hv, unlessEnding_run he, hrem, hres, if_neg (by decide), hz]

/-- SC of another line writes nothing. -/
theorem completes_sc_unreserved (h : AtLine s g.val .sc acAtomic p c w len n phys v)
    (hres : v.isRemote phys = true ∨ v.resv.contains (g.val, phys / 64 * 64) = false) :
    Completes (.sc g) s fun t =>
      t = ((v.dropCoreResv g.val).modCore g.val (fun x => x.setX (iRd w) 1)).retire p g.val ((s.core g.val).xr (iRs1 w)) := by
  obtain ⟨hi, hn, ha, ⟨s0, u, m, hrel, hu, hv⟩, he⟩ := h
  have fails : (v.isRemote phys || !v.resv.contains (g.val, phys / 64 * 64)) = true := by
    simpa using hres
  refine completes_gcInstr (by rfl) hi ?_
  dsimp only
  rw [← hn, if_neg (not_not_intro ha), released_run hrel, hu]
  dsimp only
  rw [← hv, unlessEnding_run he, if_pos fails]

end Reserve

/-! ### Semaphores (R116) -/

/-- An instruction that names a semaphore outside the partition's range ends the run. -/
theorem completes_semDenied {i : Instr} {s : State} {g p w len : Nat} {row : GcRow} {c : Cmd} {f : Nat → Cmd → Nat → State → State}
    (x : exec i s = act s (fun s => s.gcInstr g row fun p c w s =>
      if !s.semIn p ((s.core g).xr (iRs1 w)) then s.gcEnd g stReservation 0 else f p c w s))
    (h : AtInstr s g row p c w len) (hin : s.semIn p ((s.core g).xr (iRs1 w)) = false) :
    Completes i s fun t => t = s.endRun g stReservation (s.core g).pc 0 :=
  completes_gcInstr x h (if_pos (by rw [hin]; rfl))

end Sys2Proof.Machine

section

open Sys2Proof Sys2Proof.Machine

/-- Settles O22: each instruction takes the branch that its run and its operands choose. -/
theorem coreRuns : Obligations.CoreRuns := by
  unfold Obligations.CoreRuns
  refine ⟨?_, ?_, ?_, ?_, ?_, ?_, ?_, ?_, ?_, ?_, ?_⟩
  · intro p chute seq c s hc ho hr ha hm he hi
    refine completes_act (by rfl) ?_
    simp [hc, ho, hr, ha, hm, he, hi]
  · rintro g p st result detail c s u v hr hm he hend hu hack rfl
    refine completes_act (by rfl) ?_
    simp [hr, hm, Option.isSome_iff_ne_none.mp he, ← hu, hend, hack]
  · intro g p w len c s h ha
    refine completes_gcInstr (by rfl) h ?_
    dsimp only
    rw [if_neg (not_not_intro ha)]
  · intro g p w len c s h
    exact completes_gcInstr (by rfl) h rfl
  · intro g p w len c s h
    exact completes_gcInstr (by rfl) h rfl
  · intro g p w len v c l a s u h hl he hf hr
    refine completes_gcInstr (by rfl) h ?_
    simp only [hl, he, hf, Bool.false_eq_true, if_false]
    exact hr _
  · intro g p w len c l a s u h hl he hw
    refine completes_gcInstr (by rfl) h ?_
    simp only [hl, he, Bool.false_eq_true, if_false]
    exact hw _
  · rintro g p w len c s u v hr he hs hm hf hi hw rfl hrow
    refine completes_act (by rfl) ?_
    exact (gcStep_fetch ⟨hr, he, hs, hm, hf, hi, hw⟩).trans (if_pos hrow)
  · rintro g p w len c y o x s u v hr he hs hm hf hi hw rfl hrow rfl hpl
    refine completes_act (by rfl) ((gcStep_fetch ⟨hr, he, hs, hm, hf, hi, hw⟩).trans ?_)
    dsimp only
    rw [if_neg (not_not_intro hrow), hpl]
  · intro g p w len c s h
    exact completes_gcInstr (by rfl) h rfl
  · intro g p w len c s h
    exact completes_gcInstr (by rfl) h rfl

/-- Settles O23: an atomic goes on to the home of its line where it is aligned and carried; LR and SC go on to the line they reserve. -/
theorem coreAtomics : Obligations.CoreAtomics := by
  unfold Obligations.CoreAtomics
  refine ⟨?_, ?_, ?_, ?_, ?_, ?_, ?_, ?_, ?_⟩
  · rintro i row c32 c64 hi g p c w len n m phys prior s s0 u z h rfl ha hrel hu hrem hz
    obtain ⟨carried, e⟩ := exec_amo hi
    refine completes_gcInstr (e g s) h ?_
    simp only [decide_eq_true_eq]
    exact coreAtomic_run ha hrel hu (.inl hrem) hz
  · rintro i row c32 c64 hi g p c w len n m phys s s0 u h rfl ha hrel hu hrem
    refine completes_gcInstr (exec_localAmo hi g s) h ?_
    simp only [decide_eq_true_eq]
    exact coreAtomic_uncarried ha hrel hu hrem
  · intro i row c32 c64 hi g p c w len s h ha
    obtain ⟨carried, e⟩ := exec_amo hi
    refine completes_gcInstr (e g s) h ?_
    simp only [decide_eq_true_eq]
    exact coreAtomic_misaligned ha
  · intro g p w len n m phys c y s s0 u v x h hn ha hrel hu hv he hb hready hf hst hpo hrem hmay
    exact completes_lr ⟨h, hn, ha, ⟨s0, u, m, hrel, hu, hv⟩, he⟩ hb hready hf hst hpo hrem hmay
  · intro g p w len n m phys prior c s s0 u v z h hn ha hrel hu hv he hrem hres hz
    exact completes_sc_reserved ⟨h, hn, ha, ⟨s0, u, m, hrel, hu, hv⟩, he⟩ hrem hres hz
  · intro g p w len n m phys c s s0 u v h hn ha hrel hu hv he hres
    exact completes_sc_unreserved ⟨h, hn, ha, ⟨s0, u, m, hrel, hu, hv⟩, he⟩ hres
  · rintro g p w len n code m phys prior c s u z h rfl rfl ha hu hz
    refine completes_gcInstr (by rfl) h ?_
    simp only [decide_eq_true_eq]
    exact coreAtomic_run ha (.inl ⟨rfl, rfl⟩) hu (.inr rfl) hz
  · intro g p w len m phys prior c s u z h hb ha hu hz
    refine completes_gcInstr (by rfl) h ?_
    dsimp only
    rw [hb, if_neg (by decide)]
    exact coreAtomic_run ha (.inl ⟨rfl, rfl⟩) hu (.inr rfl) hz
  · intro g p w len c s h hb
    refine completes_gcInstr (by rfl) h ?_
    dsimp only
    rw [hb]
    rfl

/-- Settles O24: each instruction takes the branch that its operands and the partition's semaphores and lines choose. -/
theorem coreInstructions : Obligations.CoreInstructions := by
  unfold Obligations.CoreInstructions
  refine ⟨?_, ?_, ?_, ?_, ?_, ?_, ?_, ?_, ?_, ?_, ?_, ?_, ?_⟩
  · intro g p w len c s h
    exact completes_gcInstr (by rfl) h rfl
  · intro g p w len c s h
    exact completes_gcInstr (by rfl) h rfl
  · intro g p w len bad c y s h hd
    refine completes_gcInstr (by rfl) h ?_
    dsimp only
    rw [hd]
  · intro g p w len addr h v v2 n dis m es xs out c s u x y y2 z hat haddr hh hm hok hv hes hlen hctx hcount hloop hv2 hz
    refine completes_gcInstr (by rfl) hat ?_
    dsimp only
    rw [State.core_modCore, Core.xr_elem, ← haddr, hh, ← hm, hok, if_neg (by decide), hv, ← hes, hlen, if_neg Bool.false_ne_true,
      if_pos ⟨hctx, hcount⟩, hloop, hv2, hz]
  · intro g p w len c s u h hin hrel
    refine completes_gcInstr (by rfl) h ?_
    simp [hin, coreRelease_run hrel]
  · intro i row hi g p w len c s h hin
    simp only [List.mem_cons, List.not_mem_nil, or_false, Prod.mk.injEq] at hi
    rcases hi with ⟨rfl, rfl⟩ | ⟨rfl, rfl⟩ | ⟨rfl, rfl⟩
    · exact completes_semDenied (by rfl) h hin
    · exact completes_semDenied (by rfl) h hin
    · exact completes_semDenied (by rfl) h hin
  · intro g p w len c s h hin hw
    refine completes_gcInstr (by rfl) h ?_
    simp [hin, hw]
  · intro g p w len c s h hin hpo
    refine completes_gcInstr (by rfl) h ?_
    simp [hin, hpo]
  · intro g p w len c s h hin hpo
    refine completes_gcInstr (by rfl) h ?_
    simp [hin, hpo, State.gcEnd]
  · rintro g p w len c s u h he rfl hack
    refine completes_gcInstr (by rfl) h ?_
    dsimp only
    rw [unlessEnding_run he, if_pos hack]
  · rintro g p w len c s u h he rfl hack
    refine completes_gcInstr (by rfl) h ?_
    dsimp only
    rw [unlessEnding_run he, if_pos hack]
  · rintro g p w len c s u h rfl hb
    exact completes_gcInstr (by rfl) h (if_pos hb)
  · rintro g p w len c s u h rfl hb
    exact completes_gcInstr (by rfl) h (if_neg (Bool.eq_false_iff.mp hb))

end

/-! PROOFS for 05_memory_tiers_and_the_loft.md: moves, scrubs, the Loft and its channels, mirrors, packets of the coherence protocol. -/

namespace Sys2Proof.Machine

/-! ### Moves (R133 to R138) -/

/-- A MOVE of a mode runs and is not to stop. -/
structure AtMove (s : State) (p chute seq mode : Nat) (c : Cmd) : Prop where
  command : s.cmd p chute seq = some c
  opcode : c.opcode = 0x01
  runs : c.phase = .running
  mode : c.moveMode = mode ∨ 4 ≤ c.moveMode
  goesOn : c.mustStop = false

/-- A MOVE that has begun, all of whose writes are acknowledged. -/
structure MoveBegun (c : Cmd) : Prop where
  begun : c.aux ≠ []
  acked : c.unacked = 0

section Move

variable {i : Instr} {s u : State} {p chute seq mode : Nat} {c : Cmd} {work : State → Cmd → State} {P : State → Prop}

/-- A MOVE that is not to stop makes its checks, waits for its writes, ends or does its next piece of work. -/
theorem moveStep_run (h : AtMove s p chute seq mode c) : s.moveStep p chute seq mode work =
    if c.aux.isEmpty then s.moveStart p c
    else if c.unacked ≠ 0 then s
    else if c.moveSegs ≤ c.progress then s.moveEnd p c (c.auxAt 2)
    else work s c := by
  have mine : ¬(c.opcode ≠ 0x01 ∨ c.phase ≠ .running ∨ (c.moveMode ≠ mode ∧ c.moveMode < 4)) := by
    rintro (o | r | ⟨m, few⟩)
    · exact o h.opcode
    · exact r h.runs
    · have := h.mode
      omega
  unfold State.moveStep
  rw [h.command]
  dsimp only
  rw [if_neg mine, h.goesOn, Bool.false_and, if_neg Bool.false_ne_true]

theorem completes_moveStart (x : exec i s = act s (fun s => s.moveStep p chute seq mode work)) (h : AtMove s p chute seq mode c)
    (a : c.aux = []) : Completes i s fun t => t = s.moveStart p c :=
  completes_act x (by rw [moveStep_run h, a]; rfl)

theorem completes_moveWork (x : exec i s = act s (fun s => s.moveStep p chute seq mode work)) (h : AtMove s p chute seq mode c)
    (b : MoveBegun c) (left : c.progress < c.moveSegs) (k : P (work s c)) : Completes i s P :=
  completes_act x (by
    rw [moveStep_run h, if_neg (by simpa using b.begun), if_neg (not_not_intro b.acked), if_neg (Nat.not_le.mpr left)]
    exact k)

theorem completes_moveEnd (x : exec i s = act s (fun s => s.moveStep p chute seq mode work)) (h : AtMove s p chute seq mode c)
    (b : MoveBegun c) (done : c.moveSegs ≤ c.progress) : Completes i s fun t => t = s.moveEnd p c (c.auxAt 2) :=
  completes_act x (by rw [moveStep_run h, if_neg (by simpa using b.begun), if_neg (not_not_intro b.acked), if_pos done])

/-- Where the segment that is next goes in T0 or T1: into its placed page, or to the destination. -/
def Cmd.segPlace (c : Cmd) : Option Nat :=
  if c.moveMode = 1 then some (t0Flag + c.aux.getD (5 + c.progress) 0 * 4096)
  else c.movePhys c.moveDst acWrite (4096 * c.progress) (c.segLen c.progress)

/-- A segment whose source is there, without a failed request, is written at its place. -/
theorem segment_writes {l : List LineVal} {a : Nat} (hs : s.segSource p c c.progress = (some l, u)) (hl : linesStatus l = 0)
    (ha : c.segPlace = some a) : s.segment p c =
      (((u.segUsed p c).storeLines p c a l).segDone p c 1 0 (linesPoison l) c.progress).segCarry p c c.progress := by
  unfold Cmd.segPlace at ha
  unfold State.segment
  dsimp only
  rw [hs]
  dsimp only
  rw [ha]
  dsimp only
  rw [hl, if_pos rfl]

/-- A MOVE without a source moves zeros. -/
theorem segSource_zeros {n : Nat} (h : c.usesSrc = false) :
    s.segSource p c n = (some (List.replicate (c.segLen n / 64) (0, false, 0)), s) :=
  if_pos (.inl (by rw [h]; decide))

/-- Lines of zeros neither fail nor carry poison. -/
theorem linesStatus_zeros (n : Nat) : linesStatus (List.replicate n (0, false, 0)) = 0 := by
  unfold linesStatus
  induction n with
  | zero => rfl
  | succ n ih => exact ih

theorem linesPoison_zeros (n : Nat) : linesPoison (List.replicate n (0, false, 0)) = false := by
  simp [linesPoison]

/-- A zeroed block of the Loft is unmapped (R134). -/
theorem blockToLoft_unmaps {b : Nat} (hb : s.loftBlock p (c.moveDst.addr + 4096 * c.progress) = some b) (hm : c.moveMode = 3) :
    s.blockToLoft p c = (s.setLoftPlace b none).segDone p c 4 0 false c.progress := by
  unfold State.blockToLoft
  dsimp only
  rw [hb]
  exact if_pos hm

/-- A MOVE goes on once the write of its block has been accepted. -/
theorem blockToLoft_accepted {b : Nat} {x : Arrival} (hb : s.loftBlock p (c.moveDst.addr + 4096 * c.progress) = some b) (hm : c.moveMode ≠ 3)
    (ht : s.takeArrival (.cmd p c.chute c.seq) (loftWriteKey (c.moveDst.addr + 4096 * c.progress)) = some (x, u)) (hx : x.status = 0) :
    s.blockToLoft p c = ((u.segUsed p c).event (hubTile (c.runUnit / 4 % 2)) ⟨0x29, 0, loftBytes, none, none, .ofPart p⟩).segDone p c 4 0
      x.poison c.progress := by
  unfold State.blockToLoft
  dsimp only
  rw [hb]
  dsimp only
  rw [if_neg hm, ht]
  dsimp only
  rw [hx, if_pos rfl]

/-- The data and the poison mask of a block made of lines. -/
def LoftBlock.ofLines (l : List LineVal) : LoftBlock :=
  ⟨l.foldr (fun v acc => v.1 + 2 ^ 512 * acc) 0, l.foldr (fun v acc => (if v.2.1 then 1 else 0) + 2 * acc) 0⟩

/-- A MOVE that has the four segments of a block in hand asks for the block's write. -/
theorem blockToLoft_asks {b off : Nat} {ls : List (List LineVal)} {w : LoftBlock} (ho : off = c.moveDst.addr + 4096 * c.progress)
    (hb : s.loftBlock p off = some b) (hm : c.moveMode ≠ 3) (ht : s.takeArrival (.cmd p c.chute c.seq) (loftWriteKey off) = none)
    (hq : s.loftAsked p c (loftWriteKey off) = false) (hg : s.gather p c c.progress 4 = (some ls, u))
    (hok : (c.copiedAscending off c.progress ls).map linesStatus = [0, 0, 0, 0])
    (hw : w = LoftBlock.ofLines (c.copiedAscending off c.progress ls).flatten) : s.blockToLoft p c =
      (u.setAux p c c.progress (if w.poison = 0 then c.aux else c.aux.set 2 (worseStatus (c.auxAt 2) stPoison))).loftAsk p c (loftWriteKey off) off b
        (some w) := by
  subst ho hw
  unfold State.blockToLoft
  dsimp only
  rw [hb]
  dsimp only
  rw [if_neg hm, ht]
  dsimp only
  rw [hq, if_neg Bool.false_ne_true, hg]
  dsimp only
  rw [hok]
  rfl

/-- The page that a FREE has come to. -/
def Cmd.freeAddr (c : Cmd) : Nat := if c.moveDst.paged then c.moveDst.pages.getD c.progress 0 else c.moveDst.addr + 4096 * c.progress

/-- A page of T0 that the partition owns is zeroed, freed and counted (R137). -/
theorem freePage_owned {a : Nat} (ha : a = c.freeAddr) (hu : u = s.ftTouches [a / 4096]) (ho : u.t0Owner (a / 4096) = some p)
    (ht : a < Config.t0Bytes) : s.freePage p c =
      ((u.t0Zero ⟨a / 4096 * 4096, 4096⟩).setT0Owner (a / 4096) none).setAux p c (c.progress + 1) (c.aux.set 0 (c.auxAt 0 + 1)) := by
  subst ha hu
  exact if_pos ⟨ho, ht⟩

/-- Any other is a violation. -/
theorem freePage_other {a : Nat} (ha : a = c.freeAddr) (hu : u = s.ftTouches [a / 4096])
    (ho : u.t0Owner (a / 4096) ≠ some p ∨ Config.t0Bytes ≤ a) :
    s.freePage p c = (u.violateMem (.unit p c.chute c.seq) true a).setAux p c (c.progress + 1) c.aux := by
  subst ha hu
  exact if_neg (fun h => ho.elim (fun o => o h.1) (fun t => Nat.not_le.mpr h.2 t))

end Move

/-! ### Scrubs (R124, R129, R130) -/

section T0Scrub

variable {s : State} {a : Nat}

theorem State.t0FindWord_clean (h : s.t0Err a = 0) : s.t0FindWord a = s := by
  simp only [State.t0FindWord, h]

theorem State.t0FindWord_one (h : s.t0Err a = 1) :
    s.t0FindWord a = ((s.setT0Err a 0).count (Reg.HUB_T0_CE (t0Bank a % 2)) 1).corrected 7 (t0Bank a) 1 1 := by
  simp only [State.t0FindWord, h]

theorem State.t0FindWord_two (h : s.t0Err a = 2) : s.t0FindWord a = (s.setT0Err a 0).t0Uncorrectable a := by
  simp only [State.t0FindWord, h]

theorem State.t0Err_setT0Err_same (s : State) (a n : Nat) : (s.setT0Err a n).t0Err a = n :=
  (s.t0Err_setT0Err a a n).trans (if_pos rfl)

/-- The patrol of T0 finds in a word the bits that have gone wrong, and leaves those that go wrong after. -/
theorem completes_t0Scrub {word : BitVec 26} {bits after : Fin 3} {e : Nat} {u : State} {P : State → Prop} (ha : a = 8 * word.toNat)
    (hin : a < Config.t0Bytes) (he : e = min 2 (s.t0Err a + bits.val)) (hu : u = (s.t0Line a false .device).setT0Err a e)
    (k : u.t0Err a = e → P ((u.t0FindWord a).setT0Err a after.val)) : Completes (.t0Scrub word bits after) s P := by
  subst ha he hu
  refine completes_act (by rfl) ?_
  rw [if_neg (Nat.not_le.mpr hin)]
  exact k (State.t0Err_setT0Err_same _ _ _)

end T0Scrub

/-- A requester word shows the code it was made of. -/
theorem ueWho_code (code node : Nat) : ueWho code node / 2 ^ 30 = code := by
  unfold ueWho
  omega

section T1Find

variable {s : State} {a w node : Nat}

theorem State.t1Find_clean {who : Nat} (h : s.t1Err a = none) : s.t1Find a who = s := by
  unfold State.t1Find
  rw [h]

/-- What the patrol does with a line whose error it has dealt with: it is written back. -/
def State.patrolBack (v : State) (a : Nat) : State :=
  v.stackLine (v.stackOf (a / 64 * 64)) (v.node * 2 ^ 40 + a / 64 * 64) 5 true .device

theorem State.t1Find_corrected (h : s.t1Err a = some w) (few : w < 2 ^ 31) :
    s.t1Find a (ueWho 3 node) = ((s.setT1Err a none).t1Corrected (a / 64 * 64) w).patrolBack a := by
  unfold State.t1Find
  rw [h]
  dsimp only
  rw [ueWho_code, if_neg (Nat.not_le.mpr few), if_pos rfl]
  rfl

theorem State.t1Find_uncorrectable (h : s.t1Err a = some w) (many : 2 ^ 31 ≤ w) :
    s.t1Find a (ueWho 3 node) = ((s.setT1Err a none).t1Uncorrectable (a / 64 * 64) w (ueWho 3 node)).patrolBack a := by
  unfold State.t1Find
  rw [h]
  dsimp only
  rw [ueWho_code, if_pos many, if_pos rfl]
  rfl

end T1Find

/-- The patrol comes to a line of T1 that it reads; no symbol goes wrong before or after. -/
structure AtPatrol (s : State) (line : BitVec 34) (err after : List (BitVec 16)) : Prop where
  inside : 64 * line.toNat < Config.t1Bytes
  sound : (err.take 40).all (· = 0) = true
  soundAfter : (after.take 40).all (· = 0) = true
  reads : s.scrubReads (64 * line.toNat) = true
  untested : s.stackTested line.toNat = false

/-- The state in which the patrol has read a line with its home-state bits. -/
def State.patrolRead (s : State) (line : Nat) : State :=
  (s.checkBits line .device).stackLine (s.stackOf (64 * line)) ((s.checkBits line .device).node * 2 ^ 40 + 64 * line) 5 false .device

/-- What it then does with the line. -/
def State.patrolLine (s : State) (line : Nat) : State :=
  ((s.patrolRead line).t1Find (64 * line) (ueWho 3 (s.checkBits line .device).node)).scrubOrphan line

section T1Scrub

variable {s : State} {line : BitVec 34} {err after : List (BitVec 16)}

theorem exec_t1Scrub (h : AtPatrol s line err after) (last : Bool) (run : s.stopped = false) :
    exec (.t1Scrub line err last after 0) s = .next
      (if last then (((s.patrolLine line.toNat).count (Reg.HUB_SCRUB_PASSES (s.hubOf (64 * line.toNat))) 1).cause
        (Reg.HUB_MEM_IRQ_CAUSE (s.hubOf (64 * line.toNat))) 1).endSuspects (s.hubOf (64 * line.toNat)) else s.patrolLine line.toNat) := by
  refine (show exec (.t1Scrub line err last after 0) s = act s _ by rfl).trans ((act_run run).trans (congrArg _ ?_))
  dsimp only
  rw [if_neg (Nat.not_le.mpr h.inside), if_pos h.sound, if_neg (by simp [h.reads, h.untested]), if_pos h.soundAfter, State.patrolLine, State.patrolRead]
  rfl

theorem completes_t1Scrub (h : AtPatrol s line err after) {u : State} (hu : u = s.patrolLine line.toNat) :
    Completes (.t1Scrub line err false after 0) s fun t => t = u :=
  fun run => ⟨u, (exec_t1Scrub h false run).trans (by rw [hu]; rfl), rfl⟩

end T1Scrub

@[simp] theorem State.t1Err_setHomeBits (s : State) (l v a : Nat) : (s.setHomeBits l v).t1Err a = s.t1Err a := rfl

@[simp] theorem State.t1Err_t1Write (s : State) (b n v a : Nat) : (s.t1Write b n v).t1Err a = s.t1Err a := rfl

section T1Spoil

variable {s : State} {a : Nat} {err : List Nat}

/-- The wrong symbols that the device's correction leaves get into the line's bytes, home-state bits and poison bit. -/
def State.residueIn (s : State) (o : Nat) (rest : List Nat) : State :=
  if rest.all (· = 0) then s else
    ((s.t1Write o 64 ((List.range 32).foldl (fun acc i => acc + (s.t1Read (o + 2 * i) 2 ^^^ rest.getD i 0) * 2 ^ (16 * i)) 0)).setHomeBits o
      (s.homeBits o ^^^ rest.getD 32 0 % 4)).setT1Poison o
        (xor (Tbl.get (fun _ => false) s.t1.poison (o / 64)) (decide (rest.getD 32 0 / 4 % 2 = 1)))

theorem State.t1Err_residueIn (o : Nat) (rest : List Nat) (b : Nat) : (s.residueIn o rest).t1Err b = s.t1Err b := by
  unfold State.residueIn
  split
  · rfl
  · rw [State.t1Err_setT1Poison, State.t1Err_setHomeBits, State.t1Err_t1Write]

theorem State.t1Spoil_segment {g e0 e1 : Nat} (h : s.t1Err (a / 64 * 64) = none) (j : eccJudge err = .segment g e0 e1) :
    s.t1Spoil a err = (s.residueIn (a / 64 * 64) (eccResidue err)).setT1Err (a / 64 * 64) (some (g * 2 ^ 16 + syndrome0 err)) := by
  have clean := (State.t1Err_residueIn (s := s) (a / 64 * 64) (eccResidue err) (a / 64 * 64)).trans h
  unfold State.residueIn at clean ⊢
  unfold State.t1Spoil
  dsimp only
  rw [j, clean]

theorem State.t1Spoil_lost (j : eccJudge err = .lost) :
    s.t1Spoil a err = (s.residueIn (a / 64 * 64) (eccResidue err)).setT1Err (a / 64 * 64) (some (2 ^ 31 + syndrome0 err)) := by
  unfold State.t1Spoil
  dsimp only
  rw [j]
  rfl

end T1Spoil

/-! ### The Loft: requests, writes and reads (R142 to R152) -/

section Loft

variable {s : State} {r : LoftReq}

/-- A request of a command that is late is answered DEADLINE and counted at its partition. -/
theorem endLate_cmd {p ch q : Nat} (h : r.who = some (p, ch, q)) :
    s.endLate r = (s.loftAnswer r stDeadline LoftBlock.zero).count (Reg.PART_LT_LATE p) 1 := by
  unfold State.endLate
  rw [h]

theorem loftGot_intime {b : LoftBlock} (h : s.loftLate r = false) : s.loftGot r b = s.loftAnswer r stOk b :=
  if_neg (Bool.eq_false_iff.mp h)

/-- A copy that cannot be read is reconstructed where the rest of its stripe can be (R152). -/
theorem loftRebuilt_reconstructs {sb stripe pos : Nat} {u v : State} (hu : u = s.loftCount sb stripe pos (Reg.LFT_CH_LDPC_FAIL 0))
    (hr : u.rebuildable sb stripe pos = true) (hv : v = (u.count Reg.LFT_RECON 1).channelBlock pos 0x46 2 0) (hl : v.loftLate r = false) :
    s.loftRebuilt r sb stripe pos false = v.loftAnswer r stOk (u.rebuiltBlock sb stripe pos) := by
  subst hu hv
  unfold State.loftRebuilt
  dsimp only
  rw [hr, if_neg (by decide), loftGot_intime hl]

/-- A second block that fails makes the request fail. -/
theorem loftRebuilt_fails {sb stripe pos : Nat} {u : State} (hu : u = s.loftCount sb stripe pos (Reg.LFT_CH_LDPC_FAIL 0))
    (hl : u.loftLate r = false) : s.loftRebuilt r sb stripe pos true = u.loftFailed r := by
  subst hu
  unfold State.loftRebuilt
  dsimp only
  rw [Bool.true_or, if_pos rfl, hl, if_neg Bool.false_ne_true]

/-- What a read does by what the map says of its block (R152). -/
def State.loftReadAt (s : State) (id : Nat) (r : LoftReq) : Option LoftPlace → State
  | none => s.loftAnswer r stOk LoftBlock.zero
  | some (.staged i) =>
    match s.loft.staging.find? (fun x => decide (x.id = i)) with
    | some x => s.loftAnswer r stOk x.content
    | none => s
  | some (.nand sb stripe pos) =>
    s.modLoft (fun l => { l with reqs := l.reqs.map (fun q => if q.id = id then { q with reading := some (sb, stripe, pos) } else q) })

/-- A read that comes to its block in time goes on there. -/
theorem completes_loftRead {id : Nat} {place : Option LoftPlace} {P : State → Prop}
    (h : s.loft.reqs.find? (fun r => decide (r.id = id) && r.write.isNone && r.reading.isNone) = some r) (hl : s.loftLate r = false)
    (hp : s.loftPlace r.block = place) (k : P (s.loftReadAt id r place)) : Completes (.loftRead id) s P := by
  refine completes_act (by rfl) ?_
  rw [h]
  dsimp only
  rw [hl, if_neg Bool.false_ne_true, hp]
  cases place with
  | none => exact k
  | some place =>
    cases place with
    | staged i => exact k
    | nand sb stripe pos => exact k

/-- What the end of a read of the NAND does for its request, by whether the copy could be read and how the read came out (R144, R152). -/
def State.loftReadEnd (s : State) (r : LoftReq) (sb stripe pos : Nat) (outcome : Fin 4) : State :=
  if !s.copyReads sb stripe pos then s.loftRebuilt r sb stripe pos (decide (outcome = 3))
  else if outcome = 0 then ((s.channelAnswers pos).channelBlock pos 0x46 0 0).loftGot r ((s.channelAnswers pos).nandBlock sb stripe pos)
  else if outcome = 1 then
    (((s.channelAnswers pos).loftCount sb stripe pos (Reg.LFT_CH_READ_RETRY 0)).channelBlock pos 0x46 1 0).loftGot r
      ((s.channelAnswers pos).nandBlock sb stripe pos)
  else (s.channelAnswers pos).loftRebuilt r sb stripe pos (decide (outcome = 3))

/-- A read of the NAND ends for a request that was reading there. -/
theorem completes_loftReadDone {id sb stripe pos : Nat} {outcome : Fin 4} {P : State → Prop}
    (h : s.loft.reqs.find? (fun r => decide (r.id = id)) = some r) (hr : r.reading = some (sb, stripe, pos))
    (k : P (s.loftReadEnd r sb stripe pos outcome)) : Completes (.loftReadDone id outcome) s P := by
  refine completes_act (by rfl) ?_
  rw [h]
  dsimp only
  rw [hr]
  exact k

end Loft

/-! ### Mirrors (R157, R160) -/

/-- A write of HUB_MIRROR_CMD by a requester that may make it acts on the entry that HUB_MIRROR_SEL names. -/
theorem completes_mirrorCmd {i : Instr} {s : State} {rq : Requester} {v : Word} {f : Nat → Mirror → State → State} {P : State → Prop}
    (x : exec i s = act s (fun s => s.mirrorCmd rq v f)) (w : s.writes rq (Reg.HUB_MIRROR_CMD 0) = true)
    (k : P (f ((s.store (Reg.HUB_MIRROR_CMD 0) v).regF (Reg.HUB_MIRROR_SEL 0) 10 0)
      ((s.store (Reg.HUB_MIRROR_CMD 0) v).mirror ((s.store (Reg.HUB_MIRROR_CMD 0) v).regF (Reg.HUB_MIRROR_SEL 0) 10 0))
      (s.store (Reg.HUB_MIRROR_CMD 0) v))) : Completes i s P :=
  completes_access x w k

/-! ### Packets of the coherence protocol (R214, R215) -/

/-- A packet of its row's type is handled. -/
theorem completes_whenType {i : Instr} {s : State} {k : Packet} {n : Nat} {f : State → State} {P : State → Prop}
    (x : exec i s = act s (whenType k n f)) (hp : k.proto = 1) (ht : k.typ = n) (h : P (f s)) : Completes i s P :=
  completes_act x (by
    unfold whenType
    rw [if_pos ⟨hp, ht⟩]
    exact h)

section Requests

variable {s : State} {k : Packet}

/-- RD, WR and WRP: their rows and types. An RD whose line and directory entry show no error is handled like the others. -/
def accesses : List ((Packet → Instr) × Nat) := [((fun k => Instr.rd k none 0), 0x01), (Instr.wr, 0x02), (Instr.wrp, 0x03)]

theorem exec_access {i : Packet → Instr} {n : Nat} (h : (i, n) ∈ accesses) (k : Packet) (s : State) :
    n ≠ 0x04 ∧ exec (i k) s = act s (whenType k n fun s => s.handleRequest k) := by
  simp only [accesses, List.mem_cons, List.not_mem_nil, or_false, Prod.mk.injEq] at h
  rcases h with ⟨rfl, rfl⟩ | ⟨rfl, rfl⟩ | ⟨rfl, rfl⟩
  · exact ⟨by decide, rfl⟩
  · exact ⟨by decide, rfl⟩
  · exact ⟨by decide, rfl⟩

/-- A home with room takes a request whose operation it knows, and serves it, past its window if it has one (R209, R250). -/
theorem handleRequest_taken (h : s.canTake k = true) (known : k.typ ≠ 0x04 ∨ (AtomOp.ofCode k.atomOp).isSome = true) : s.handleRequest k =
    if k.isWindowed then (s.receive k).windowed k ((s.receive k).winSource k) k.orig.2 (fun s => s.serveRequest k)
    else (s.receive k).serveRequest k := by
  have ok : ¬(k.typ = 0x04 ∧ (AtomOp.ofCode k.atomOp).isNone = true) := by
    rintro ⟨t, o⟩
    rcases known with d | d
    · exact d t
    · rw [Option.isNone_iff_eq_none] at o
      rw [o] at d
      exact Bool.false_ne_true d
  unfold State.handleRequest
  rw [h, if_neg (by decide)]
  exact if_neg ok

/-- An atomic operation that R238 does not name is discarded and counted. -/
theorem handleRequest_unknown (h : s.canTake k = true) (ht : k.typ = 0x04) (ho : AtomOp.ofCode k.atomOp = none) : s.handleRequest k =
    (s.receive k).protoErr ((s.receive k).lineHub k.line) ((s.receive k).lineState k.line) 9 k.src 0 := by
  unfold State.handleRequest
  rw [h, if_neg (by decide)]
  exact if_pos ⟨ht, by rw [ho]; rfl⟩

/-- A combined packet is taken where there is room for every constituent, and they are handled one after another (R247). -/
theorem handleCombined_taken (h : s.canTake k = true) :
    s.handleCombined k = (k.constituents.map k.constituent).foldl (fun s c => s.handleRequest c) (s.receive k) := by
  unfold State.handleCombined
  rw [h, if_neg (by decide)]

theorem exec_combinedPacket (k : Packet) (s : State) :
    exec (.combinedPacket k) s = act s fun s => if k.combined = true ∧ k.proto = 1 then s.handleCombined k else s := by rfl

end Requests

section Answers

variable {s : State} {k : Packet} {r : OutReq}

/-- Data that fill nothing go to the reader. -/
theorem handleRdata_read {err : Nat} (h : (s.receive k).awaiting k 2 = some r) (hf : r.pkt.fill = false) :
    s.handleRdata k err = ((s.receive k).complete r).answerWaiter r k.data k.poison k.status := by
  unfold State.handleRdata
  dsimp only
  rw [h]
  dsimp only
  rw [hf]
  rfl

theorem handleWack_answers (h : (s.receive k).awaiting k k.answersClass = some r) :
    s.handleWack k = ((s.receive k).complete r).answerWaiter r (pairAt k.body 8) k.poison k.status := by
  unfold State.handleWack
  dsimp only
  rw [h]

theorem handleNak_answers (h : (s.receive k).awaiting k k.answersClass = some r) :
    s.handleNak k = ((s.receive k).complete r).answerWaiter r 0 false k.status := by
  unfold State.handleNak
  dsimp only
  rw [h]

section Mack

variable {v : State} {id : Nat} {a : MirrorAck}

/-- The mirror's answer to a forwarded write acknowledges its writer, unless it says that the mirror has promoted itself to a primary that serves:
that fences it. -/
theorem handleMack_answers (h : (s.receive k).awaiting k 4 = some r) (hv : v = (s.receive k).complete r) (hw : r.waiter = .mirror id)
    (ha : v.mirrors.acks.find? (fun a => decide (a.id = id)) = some a) : s.handleMack k =
      if k.status = stAlreadyDone ∧ ((v.mirror a.entry).state = 1 ∨ (v.mirror a.entry).state = 2) then v.fence a.entry
      else ({ v with mirrors := { v.mirrors with acks := v.mirrors.acks.filter (fun b => !decide (b.id = id)) } } : State).ackStore a.req a.prior := by
  subst hv
  unfold State.handleMack
  dsimp only
  rw [h]
  dsimp only
  rw [hw]
  dsimp only
  rw [ha]

end Mack

/-- A PINV that finds no request of this node drops the copy that is held, and is answered (R203). -/
theorem handlePinv_unheld (h : (s.receive k).remoteLine k.addr = none) (hq : (s.receive k).fab.reqs = []) : s.handlePinv k =
    (s.receive k).respond k 1 1 2 (cohHeader 0x21 k.comp 0 k.addr false false false false k.invId 0 0 0 0) := by
  unfold State.handlePinv
  dsimp only
  rw [h, Option.isSome_none, if_neg Bool.false_ne_true, hq]
  rfl

theorem handlePinv_held {l : RemoteLine} {v : State} (h : (s.receive k).remoteLine k.addr = some l)
    (hv : v = ((s.receive k).setRemoteLine k.addr none).count (Reg.DIR_RLC_INV (rlcHub k.addr)) 1) (hq : v.fab.reqs = []) : s.handlePinv k =
      v.respond k 1 1 2 (cohHeader 0x21 k.comp 0 k.addr false false false true k.invId 0 0 0 0) := by
  unfold State.handlePinv
  dsimp only
  rw [h, Option.isSome_some, if_pos rfl, ← hv, hq]
  rfl

/-- PINVACK for a line of this node ends a request and goes to the line's round (R212). -/
theorem handlePinvack_here {v : State} (h : (s.receive k).awaiting k 1 = some r) (hv : v = (s.receive k).complete r)
    (hn : k.addr / 2 ^ 40 = v.node) (ho : k.addr % 2 ^ 40 < Config.t1Bytes) : s.handlePinvack k = v.pinvAcked k.line k.src k.invId := by
  subst hv
  unfold State.handlePinvack
  dsimp only
  rw [h]
  exact if_pos ⟨hn, ho⟩

end Answers

end Sys2Proof.Machine

section

open Sys2Proof Sys2Proof.Machine

/-- Settles O25: each presentation of a MOVE begins it, does its next piece or ends it. -/
theorem movesRun : Obligations.MovesRun := by
  unfold Obligations.MovesRun
  refine ⟨?_, ?_, ?_, ?_, ?_, ?_, ?_, ?_, ?_, ?_, ?_, ?_, ?_, ?_, ?_, ?_⟩
  · intro p chute seq c s hc ho hr hm hs ha
    exact completes_moveStart (by rfl) ⟨hc, ho, hr, hm, hs⟩ ha
  · intro p chute seq c s hc ho hr hm hs ha
    exact completes_moveStart (by rfl) ⟨hc, ho, hr, hm, hs⟩ ha
  · intro p chute seq c s hc ho hr hm hs ha
    exact completes_moveStart (by rfl) ⟨hc, ho, hr, hm, hs⟩ ha
  · intro p chute seq c s hc ho hr hm hs ha
    exact completes_moveStart (by rfl) ⟨hc, ho, hr, hm, hs⟩ ha
  · intro p chute seq c l a s u hc ho hr hm hs ha hu hleft htier hsrc hl hphys
    refine completes_moveWork (by rfl) ⟨hc, ho, hr, .inl hm, hs⟩ ⟨ha, hu⟩ hleft ?_
    rw [if_neg htier, segment_writes hsrc hl ((if_neg (by rw [hm]; decide)).trans hphys)]
  · rintro p chute seq c a l s hc ho hr hm hs ha hu hleft htier hphys rfl
    have noSource : c.usesSrc = false := by simp [Cmd.usesSrc, hm]
    refine completes_moveWork (by rfl) ⟨hc, ho, hr, .inl hm, hs⟩ ⟨ha, hu⟩ hleft ?_
    rw [if_neg htier, segment_writes (segSource_zeros noSource) (linesStatus_zeros _) ((if_neg (by rw [hm]; decide)).trans hphys), linesPoison_zeros]
  · rintro p chute seq c l a s u hc ho hr hm hs ha hu hleft hsrc hl rfl
    refine completes_moveWork (by rfl) ⟨hc, ho, hr, .inl hm, hs⟩ ⟨ha, hu⟩ hleft ?_
    exact segment_writes hsrc hl (if_pos hm)
  · rintro p chute seq c b po data ls l s u hc ho hr hm hs ha hu hleft htier hb ht hq hg hok rfl rfl rfl
    refine completes_moveWork (by rfl) ⟨hc, ho, hr, .inl hm, hs⟩ ⟨ha, hu⟩ hleft ?_
    rw [if_pos htier, blockToLoft_asks rfl hb (by rw [hm]; decide) ht hq hg hok rfl]
    rfl
  · intro p chute seq c b x s u hc ho hr hm hs ha hu hleft htier hb ht hx
    refine completes_moveWork (by rfl) ⟨hc, ho, hr, .inl hm, hs⟩ ⟨ha, hu⟩ hleft ?_
    rw [if_pos htier, blockToLoft_accepted hb (by rw [hm]; decide) ht hx]
  · intro p chute seq c b s hc ho hr hm hs ha hu hleft htier hb
    refine completes_moveWork (by rfl) ⟨hc, ho, hr, .inl hm, hs⟩ ⟨ha, hu⟩ hleft ?_
    rw [if_pos htier, blockToLoft_unmaps hb hm]
  · intro p chute seq c a u s hc ho hr hm hs ha hu hleft haddr htouch howner hin
    refine completes_moveWork (by rfl) ⟨hc, ho, hr, .inl hm, hs⟩ ⟨ha, hu⟩ hleft ?_
    exact freePage_owned haddr htouch howner hin
  · intro p chute seq c a u s hc ho hr hm hs ha hu hleft haddr htouch hother
    refine completes_moveWork (by rfl) ⟨hc, ho, hr, .inl hm, hs⟩ ⟨ha, hu⟩ hleft ?_
    exact freePage_other haddr htouch hother
  · intro p chute seq c s hc ho hr hm hs ha hu hdone
    exact completes_moveEnd (by rfl) ⟨hc, ho, hr, .inl hm, hs⟩ ⟨ha, hu⟩ hdone
  · intro p chute seq c s hc ho hr hm hs ha hu hdone
    exact completes_moveEnd (by rfl) ⟨hc, ho, hr, .inl hm, hs⟩ ⟨ha, hu⟩ hdone
  · intro p chute seq c s hc ho hr hm hs ha hu hdone
    exact completes_moveEnd (by rfl) ⟨hc, ho, hr, .inl hm, hs⟩ ⟨ha, hu⟩ hdone
  · intro p chute seq c s hc ho hr hm hs ha hu hdone
    exact completes_moveEnd (by rfl) ⟨hc, ho, hr, .inl hm, hs⟩ ⟨ha, hu⟩ hdone

/-- Settles O26: the patrol finds what stands in its word or line; an error shows as the code judges it. -/
theorem scrubs : Obligations.Scrubs := by
  unfold Obligations.Scrubs
  refine ⟨?_, ?_, ?_, ?_, ?_, ?_, ?_, ?_, ?_, ?_⟩
  · intro word bits after a e s u ha hin he hu h0
    refine completes_t0Scrub ha hin he hu fun found => ?_
    rw [State.t0FindWord_clean (found.trans h0)]
  · intro word bits after a e s u ha hin he hu h1
    refine completes_t0Scrub ha hin he hu fun found => ?_
    rw [State.t0FindWord_one (found.trans h1)]
  · intro word bits after a e s u ha hin he hu h2
    refine completes_t0Scrub ha hin he hu fun found => ?_
    rw [State.t0FindWord_two (found.trans h2)]
  · rintro line err after o st s u rfl rfl hin herr hafter hr ht rfl hc
    refine completes_t1Scrub ⟨hin, herr, hafter, hr, ht⟩ ?_
    rw [State.patrolLine, State.patrolRead, State.t1Find_clean hc]
  · rintro line err after o st w s u v rfl rfl hin herr hafter hr ht rfl hc few rfl
    refine completes_t1Scrub ⟨hin, herr, hafter, hr, ht⟩ ?_
    rw [State.patrolLine, State.patrolRead, State.t1Find_corrected hc few, State.patrolBack]
  · rintro line err after o st w s u v rfl rfl hin herr hafter hr ht rfl hc many rfl
    refine completes_t1Scrub ⟨hin, herr, hafter, hr, ht⟩ ?_
    rw [State.patrolLine, State.patrolRead, State.t1Find_uncorrectable hc many, State.patrolBack]
  · rintro line err after o st s u rfl rfl hin herr hafter hr ht rfl hc run
    refine ⟨_, exec_t1Scrub ⟨hin, herr, hafter, hr, ht⟩ true run, ?_⟩
    rw [if_pos rfl, State.patrolLine, State.patrolRead, State.t1Find_clean hc]
  · rintro line err after dirErr last o s rfl hin herr hr
    have unread : (!s.scrubReads (64 * line.toNat) || s.stackTested line.toNat) = true := by rw [hr]; rfl
    refine completes_act (by rfl) ?_
    simp only [Nat.not_le.mpr hin, herr, unread, if_true, if_false]
  · intro s a g e0 e1 err ha hc hj
    have whole : a / 64 * 64 = a := by omega
    rw [State.t1Spoil_segment (by rw [whole]; exact hc) hj, State.t1Err_setT1Err, whole, if_pos rfl]
  · intro s a err ha hj
    have whole : a / 64 * 64 = a := by omega
    rw [State.t1Spoil_lost hj, State.t1Err_setT1Err, whole, if_pos rfl]

/-- Settles O27: each command of the Loft takes the branch that its requests, map and superblocks choose. -/
theorem loftReadsAndWrites : Obligations.LoftReadsAndWrites := by
  unfold Obligations.LoftReadsAndWrites
  refine ⟨?_, ?_, ?_, ?_, ?_, ?_, ?_, ?_, ?_, ?_, ?_, ?_, ?_, ?_, ?_, ?_⟩
  · rintro s u r b rfl hfirst hwrite hl hroom
    refine completes_act (by rfl) ?_
    dsimp only
    rw [hfirst]
    dsimp only
    rw [hwrite]
    dsimp only
    rw [hl, if_neg Bool.false_ne_true, if_neg (Nat.not_le.mpr hroom)]
  · intro s sb hdue hopen
    refine completes_act (by rfl) ?_
    dsimp only
    rw [if_pos hdue, hopen]
    dsimp only
    rw [hopen]
  · rintro sb stripe s l rfl hne
    refine completes_act (by rfl) ?_
    dsimp only
    rw [if_neg (by simpa using hne)]
    refine ⟨_, rfl, ?_⟩
    simp
  · rintro sb stripe q s l rfl hne
    refine completes_act (by rfl) ?_
    dsimp only
    rw [if_neg (by simpa using hne)]
    exact ⟨_, rfl, rfl⟩
  · rintro sb s u v hsb her rfl rfl hw
    refine completes_act (by rfl) ?_
    dsimp only
    rw [if_neg (by simp [her, hsb]), hw]
  · intro s e hlow hleast
    refine completes_act (by rfl) ?_
    rw [if_neg (Nat.not_le.mpr hlow), hleast]
  · intro s a b hw hp hd
    refine completes_act (by rfl) ?_
    rw [hw, hp]
    exact if_pos hd
  · intro id s r hr hl hp
    exact completes_loftRead hr hl hp rfl
  · intro id i s r x hr hl hp hx
    refine completes_loftRead hr hl hp ?_
    dsimp only [State.loftReadAt]
    rw [hx]
  · intro id sb stripe pos s r hr hl hp
    exact completes_loftRead hr hl hp rfl
  · rintro id sb stripe pos s u r hr hread hc rfl hl
    refine completes_loftReadDone hr hread ?_
    rw [State.loftReadEnd, hc, if_neg (by decide), if_pos rfl, loftGot_intime hl]
  · intro id sb stripe pos s u v r hr hread hc hu hre hv hl
    refine completes_loftReadDone hr hread ?_
    rw [State.loftReadEnd, hc, if_neg (by decide), if_neg (by decide), if_neg (by decide)]
    exact loftRebuilt_reconstructs hu hre hv hl
  · intro id sb stripe pos s u r hr hread hc hu hl
    refine completes_loftReadDone hr hread ?_
    rw [State.loftReadEnd, hc, if_pos (by decide)]
    exact loftRebuilt_fails hu hl
  · intro id p ch q s r hr hl hwho
    refine completes_act (by rfl) ?_
    rw [hr]
    dsimp only
    rw [if_pos hl, endLate_cmd hwho]
  · rintro s u c l ht rfl
    refine completes_act (by rfl) ?_
    rw [ht]
    rfl
  · intro s hfree hcap
    refine completes_act (by rfl) ?_
    exact if_pos ⟨hfree, hcap⟩

/-- Settles O28: a channel's timeouts, reset, training and rebuild take the branch that its status chooses. -/
theorem loftChannels : Obligations.LoftChannels := by
  unfold Obligations.LoftChannels
  refine ⟨?_, ?_, ?_, ?_, ?_, ?_, ?_, ?_⟩
  · intro f s hfew
    refine completes_act (by rfl) ?_
    exact if_neg (Nat.not_le.mpr hfew)
  · intro f s hthird
    refine completes_act (by rfl) ?_
    exact if_pos (Nat.succ_le_succ hthird)
  · rintro rq f v s u hw rfl hliving
    refine completes_access (by rfl) hw ?_
    exact if_neg (by rw [hliving]; decide)
  · intro f s hreset
    refine completes_act (by rfl) ?_
    rw [if_neg (by rw [hreset]; decide), if_pos rfl]
  · intro f s hreset
    refine completes_act (by rfl) ?_
    rw [if_neg (by rw [hreset]; decide), if_neg Bool.false_ne_true]
  · intro rq f v s hw
    exact completes_access (by rfl) hw rfl
  · rintro s u x hrun hheld hfirst hlive rfl hmore
    refine completes_act (by rfl) ?_
    dsimp only
    rw [if_neg (by rw [hrun]; decide), hheld, if_neg Bool.false_ne_true, hfirst]
    dsimp only
    simp only [hlive, if_true]
    exact if_pos hmore
  · rintro s u hrun hnone rfl hleft
    have unheld : s.rebuildHeld = false := by simp [State.rebuildHeld, hnone]
    refine completes_act (by rfl) ?_
    dsimp only
    rw [if_neg (by rw [hrun]; decide), unheld, if_neg Bool.false_ne_true]
    simp only [hnone, List.find?_nil, hleft, List.any_nil, Bool.false_eq_true, if_false, List.map_nil, List.headD_nil]

/-- Settles O29: a mirror entry goes on as its state, its role and its partner say. -/
theorem mirrors : Obligations.Mirrors := by
  unfold Obligations.Mirrors
  refine ⟨?_, ?_, ?_, ?_, ?_, ?_, ?_, ?_, ?_, ?_⟩
  · rintro rq v s u i m hw rfl rfl rfl hst hrole
    refine completes_mirrorCmd (by rfl) hw ?_
    exact if_neg (by simp [hst, hrole])
  · rintro rq v s u i m hw rfl rfl rfl hst
    refine completes_mirrorCmd (by rfl) hw ?_
    exact if_neg hst
  · rintro rq v s u i m hw rfl rfl rfl hst
    refine completes_mirrorCmd (by rfl) hw ?_
    exact if_pos hst
  · rintro rq v s u i hw rfl rfl hst
    refine completes_mirrorCmd (by rfl) hw ?_
    exact if_pos hst
  · rintro rq v s u i hw rfl rfl hst hserves
    refine completes_mirrorCmd (by rfl) hw ?_
    exact (if_neg hst).trans (if_pos hserves)
  · intro i s
    exact completes_act (by rfl) rfl
  · intro i s hheld
    exact completes_act (by rfl) (if_pos hheld)
  · intro i s hst
    exact completes_act (by rfl) (if_pos hst)
  · rintro i s m rfl hst hleft hread
    refine completes_act (by rfl) ?_
    dsimp only
    rw [if_neg (by simp [hst, hleft]), whenReadable_run hread]
    rfl
  · rintro i s m rfl hst hall hacked
    refine completes_act (by rfl) ?_
    exact if_pos ⟨hst, hall, by rw [hacked]; rfl⟩

/-- Settles O32: a packet of its row's type is handled as its type, its operation and what awaits it say. -/
theorem peerPackets : Obligations.PeerPackets := by
  unfold Obligations.PeerPackets
  refine ⟨?_, ?_, ?_, ?_, ?_, ?_, ?_, ?_, ?_, ?_, ?_, ?_, ?_, ?_, ?_⟩
  · rintro i n hi k s hp rfl hc hw
    obtain ⟨notAtom, e⟩ := exec_access hi k s
    refine completes_whenType e hp rfl ?_
    rw [handleRequest_taken hc (.inl notAtom), hw, if_neg Bool.false_ne_true]
  · rintro i n hi k s hp rfl hc hw
    obtain ⟨notAtom, e⟩ := exec_access hi k s
    refine completes_whenType e hp rfl ?_
    rw [handleRequest_taken hc (.inl notAtom), if_pos hw]
  · intro k s x hp ht hc hop hw
    refine completes_whenType (by rfl) hp ht ?_
    rw [handleRequest_taken hc (.inr (by rw [hop]; rfl)), if_pos hw]
  · rintro k s u hp ht hc hop rfl
    exact completes_whenType (by rfl) hp ht (handleRequest_unknown hc ht hop)
  · intro k s hp hcomb hc
    refine completes_act (exec_combinedPacket k s) ?_
    rw [if_pos ⟨hcomb, hp⟩, handleCombined_taken hc]
  · intro k s hp ht
    exact completes_whenType (by rfl) hp ht rfl
  · rintro k r s u hp ht rfl hr hf
    refine completes_whenType (by rfl) hp ht ?_
    rw [handleRdata_read hr hf]
  · rintro k r s u hp ht rfl hr
    refine completes_whenType (by rfl) hp ht ?_
    rw [handleWack_answers hr]
  · rintro k r s u hp ht rfl hr
    refine completes_whenType (by rfl) hp ht ?_
    rw [handleNak_answers hr]
  · rintro k r id a s u v hp ht rfl hr hv hw ha hst
    refine completes_whenType (by rfl) hp ht ?_
    rw [handleMack_answers hr hv hw ha, if_neg (fun h => hst h.1)]
  · rintro k r id a s u v hp ht rfl hr hv hw ha hst hserves
    refine completes_whenType (by rfl) hp ht ?_
    rw [handleMack_answers hr hv hw ha, if_pos ⟨hst, hserves⟩]
  · rintro k s u hp ht rfl hl hq
    exact completes_whenType (by rfl) hp ht (handlePinv_unheld hl hq)
  · rintro k l s u v hp ht rfl hl hv hq
    exact completes_whenType (by rfl) hp ht (handlePinv_held hl hv hq)
  · rintro k r s u hp ht rfl hr hn ho
    refine completes_whenType (by rfl) hp ht ?_
    rw [handlePinvack_here hr rfl hn ho]
  · rintro k s u hp ht rfl hn ho
    have unknown : ¬(k.proto ≠ 1 ∨ k.typ ∈ knownTypes) := by simpa [hp] using ht
    refine completes_act (by rfl) ?_
    dsimp only
    simp only [unknown, hn, ho, if_false, if_true, decide_true, Bool.and_self]

end

/-! PROOFS for 06_translation_and_memory_model.md: registration and invalidation, queue-time translation, RESUME, RELEASE_FENCE. -/

namespace Sys2Proof.Machine

/-! ### Registration and invalidation (R164, R177) -/

section Register

variable {rq : Requester} {p : Fin 32} {v : Word} {s u : State}

/-- An enable while enable is 0 registers the root where it lies in a live extent of the partition, and shows err 1 where it does not. -/
theorem completes_xltEnable (hw : s.writes rq (Reg.PART_XLT_CTRL p.val) = true) (he : bitOf (s.reg (Reg.PART_XLT_CTRL p.val)) 0 = false)
    (hu : u = s.store (Reg.PART_XLT_CTRL p.val) (v ||| 1)) :
    Completes (.xltEnable rq p v) s fun t =>
      t = if u.liveRange p.val ⟨s.reg64 (Reg.PART_XLT_ROOT_LO p.val) % 2 ^ 40, 4096⟩ then
          (u.setRegF (Reg.PART_XLT_CTRL p.val) 30 28 0).setRegF (Reg.PART_XLT_CTRL p.val) 31 31 1
        else (u.setRegF (Reg.PART_XLT_CTRL p.val) 30 28 1).setRegF (Reg.PART_XLT_CTRL p.val) 0 0 0 := by
  refine completes_access (by rfl) hw ?_
  dsimp only
  rw [← hu, if_neg (Bool.eq_false_iff.mp he)]

/-- An invalidation that finds none in progress drops the buffered translations of its range and begins. -/
theorem invalidate_begins {q b n : Nat} {range : State → Nat × Nat} (hw : s.writes rq (Reg.PART_XLT_INV_CTRL q) = true)
    (hb : bitOf (s.reg (Reg.PART_XLT_INV_CTRL q)) 31 = false) (hu : u = s.store (Reg.PART_XLT_INV_CTRL q) v) (hr : range u = (b, n)) :
    s.invalidate rq q v range = ((u.dropXlt q b n).setRegF (Reg.PART_XLT_INV_CTRL q) 31 31 1).modPart q
      (fun pt => { pt with xltGen := (u.part q).xltGen + 1, inval := some ⟨(u.part q).xltGen + 1, b, n⟩ }) := by
  unfold State.invalidate
  rw [access_run hw]
  dsimp only
  rw [if_neg (Bool.eq_false_iff.mp hb), ← hu, hr]

end Register

/-! ### Queue-time translation (R170) -/

/-- A queued command that is not to stop and holds no fault is translated further. -/
theorem translating_queued {s : State} {p : Nat} {c : Cmd} (hq : c.phase = .queued) (hm : c.mustStop = false) (hf : s.atFault p c = none) :
    s.translating p c = true := by
  simp [State.translating, hq, hm, hf]

/-- One that reads no list, and all of whose addresses are translated, is ready. -/
theorem translateCmd_readies {s : State} {p chute seq fuel : Nat} {c : Cmd} (hc : s.cmd p chute seq = some c) (hq : c.phase = .queued)
    (ht : s.translating p c = true) (hi : s.nextInput p c = none) (hn : c.nextUnpinned (s.named p c) = none) :
    s.translateCmd p chute seq (fuel + 1) = s.setPhase p c .ready := by
  unfold State.translateCmd
  rw [hc]
  dsimp only
  rw [if_neg (by simp [ht]), hi]
  dsimp only
  rw [hn]
  exact if_pos hq

/-! ### RESUME (R175) -/

section Resume

variable {p : Fin 32} {chute : Fin 64} {seq : Word} {k : Control} {s : State}

/-- A RESUME that names no held fault resumes none. -/
theorem completes_resume_none (hk : s.controlOf p.val chute.val seq.toNat 2 = some k)
    (hn : (s.resumable p.val).find? (fun h => decide (h.id = k.arg 8 % 65536)) = none) :
    Completes (.resumeFault p chute seq) s fun t => t = s.endControl p.val k stOk 0 [] := by
  refine completes_act (by rfl) ?_
  dsimp only
  rw [hk]
  dsimp only
  rw [hn]

/-- One whose address check passes, and that is not for the whole page, resumes the fault it names. -/
theorem completes_resume_one {h : HeldFault} (hk : s.controlOf p.val chute.val seq.toNat 2 = some k)
    (hh : (s.resumable p.val).find? (fun h => decide (h.id = k.arg 8 % 65536)) = some h)
    (hcheck : k.arg 9 + 2 ^ 32 * k.arg 10 = 0 ∨ nfld (k.arg 9 + 2 ^ 32 * k.arg 10) 56 12 = nfld h.va 56 12)
    (hone : nfld (k.arg 8) 16 16 = 0) :
    Completes (.resumeFault p chute seq) s fun t => t = (s.resumeOne p.val h).endControl p.val k stOk 1 [] := by
  have passes : ¬(k.arg 9 + 2 ^ 32 * k.arg 10 ≠ 0 ∧ nfld (k.arg 9 + 2 ^ 32 * k.arg 10) 56 12 ≠ nfld h.va 56 12) :=
    fun ⟨given, differs⟩ => hcheck.elim given differs
  refine completes_act (by rfl) ?_
  dsimp only
  rw [hk]
  dsimp only
  rw [hh]
  dsimp only
  rw [if_neg passes, if_neg (by omega)]
  rfl

end Resume

/-! ### RELEASE_FENCE (R185) -/

section Fence

variable {p : Fin 32} {chute : Fin 64} {seq : Word} {c : Cmd} {s u : State}

/-- A fence whose flag is aligned, or that has none, and that has sent nothing goes on once its partition has settled. -/
theorem completes_fence_settled {P : State → Prop} (hr : s.running p.val chute.val seq.toNat = some c) (ho : c.opcode = 0x10)
    (ha : c.arg64 9 % c.flagBytes = 0) (hs : c.sent = false) (hd : ScopeDone s p.val c u)
    (h : P (if c.arg64 9 = 0 then u.endCmd p.val c stOk 0 0
      else (c.range (c.arg64 9) c.flagBytes acWrite).elim u
        ((u.markSent p.val c).storeAll (c.agent p.val) (c.arg64 11 % 2 ^ (8 * c.flagBytes)) false))) :
    Completes (.releaseFence p chute seq) s P := by
  refine completes_syncStep (by rfl) hr ho ?_
  dsimp only
  rw [if_neg (fun unaligned => unaligned ha), if_neg (Bool.eq_false_iff.mp hs), afterScope_run hd]
  cases hx : c.range (c.arg64 9) c.flagBytes acWrite
  all_goals
    rw [hx] at h
    exact h

/-- One whose flag's store is acknowledged ends. -/
theorem completes_fence_acknowledged (hr : s.running p.val chute.val seq.toNat = some c) (ho : c.opcode = 0x10)
    (ha : c.arg64 9 % c.flagBytes = 0) (hs : c.sent = true) (hu : c.unacked = 0) :
    Completes (.releaseFence p chute seq) s fun t => t = s.endCmd p.val c stOk 0 0 := by
  refine completes_syncStep (by rfl) hr ho ?_
  dsimp only
  rw [if_neg (fun unaligned => unaligned ha), if_pos hs, if_pos hu]

end Fence

end Sys2Proof.Machine

section

open Sys2Proof Sys2Proof.Machine

/-- Settles O30: each command takes the branch of its meaning that its conditions choose. -/
theorem translationCommands : Obligations.TranslationCommands := by
  unfold Obligations.TranslationCommands
  refine ⟨?_, ?_, ?_, ?_, ?_, ?_, ?_, ?_, ?_, ?_, ?_, ?_⟩
  · intro rq p v u s hw he hu hlive
    have done := completes_xltEnable hw he hu
    rwa [if_pos hlive] at done
  · intro rq p v u s hw he hu hlive
    have done := completes_xltEnable hw he hu
    rwa [if_neg (Bool.eq_false_iff.mp hlive)] at done
  · intro rq p v s hw
    exact completes_access (by rfl) hw rfl
  · rintro rq p v n b u s hw hb hall hu rfl rfl
    exact completes_act (by rfl) (invalidate_begins hw hb hu (if_neg (Bool.eq_false_iff.mp hall)))
  · intro rq p v u s hw hb hu
    exact completes_act (by rfl) (invalidate_begins hw hb hu rfl)
  · intro p i s hi hnone
    refine completes_act (by rfl) ?_
    dsimp only
    rw [hi]
    exact if_neg (Bool.eq_false_iff.mp hnone)
  · intro p chute seq c s hc hq hm hf hi hn
    exact completes_act (by rfl) (translateCmd_readies hc hq (translating_queued hq hm hf) hi hn)
  · intro p chute seq k h s hk hh hcheck hone
    exact completes_resume_one hk hh hcheck hone
  · intro p chute seq k s hk hn
    exact completes_resume_none hk hn
  · intro p chute seq c s u hr ho ha hs hd
    exact completes_fence_settled hr ho (by rw [ha, Nat.zero_mod]) hs hd (if_pos ha)
  · intro p chute seq c x s u hr ho ha haligned hs hd hx
    refine completes_fence_settled hr ho haligned hs hd ?_
    rw [if_neg ha, hx, Option.elim_some]
  · intro p chute seq c s hr ho ha hs hu
    exact completes_fence_acknowledged hr ho ha hs hu

end

/-! PROOFS for 07_coherence_and_the_home_agent.md: what resets leave, the slot that a boot takes, the CXL ports. -/

namespace Sys2Proof.Machine

/-! ### What a reset leaves (R394, R395) -/

/-- `t` is `s` but for its registers. -/
def OnlyRegs (s t : State) : Prop := t = { s with regs := t.regs }

theorem OnlyRegs.refl (s : State) : OnlyRegs s s := rfl

theorem OnlyRegs.setReg {s t : State} (h : OnlyRegs s t) (a : Nat) (v : Word) : OnlyRegs s (t.setReg a v) := by
  unfold OnlyRegs at h ⊢
  rw [h]
  rfl

theorem OnlyRegs.setRegN {s t : State} (h : OnlyRegs s t) (a v : Nat) : OnlyRegs s (t.setRegN a v) := h.setReg a _

theorem OnlyRegs.setRegF {s t : State} (h : OnlyRegs s t) (a hi lo v : Nat) : OnlyRegs s (t.setRegF a hi lo v) := h.setReg a _

theorem OnlyRegs.setReg64 {s t : State} (h : OnlyRegs s t) (a v : Nat) : OnlyRegs s (t.setReg64 a v) := (h.setRegN a v).setRegN _ _

theorem OnlyRegs.foldl {α : Type} {s : State} {f : State → α → State} (step : ∀ u x, OnlyRegs s u → OnlyRegs s (f u x)) :
    ∀ (l : List α) {t : State}, OnlyRegs s t → OnlyRegs s (l.foldl f t)
  | [], _, h => h
  | x :: l, t, h => OnlyRegs.foldl step l (step t x h)

/-- What stands outside the registers after a cold reset: fuses, NOR, and what is the model's own. -/
def State.cleared (s : State) : State :=
  { State.reset with
      fuses := s.fuses, out := s.out, pending := s.pending, fresh := s.fresh, quarRecord := s.quarRecord,
      ft := { State.reset.ft with packages := s.ft.packages }, boot := s.boot.kept }

theorem coldReset_onlyRegs (s : State) : OnlyRegs s.cleared s.coldReset := by
  refine OnlyRegs.foldl (fun u h hu => ?_) _ ((OnlyRegs.refl s.cleared).setReg _ _)
  split
  · exact hu.setRegF ..
  · exact hu

/-- What stands outside the registers after a warm reset, before a change of the debug level shows: besides what a cold reset keeps, the log ring,
what is withheld, and the next identity leaf. -/
def State.warmCleared (s : State) : State :=
  { s.cleared with
      errs := { s.errs with ceCount := [], ceTime := [] }
      ft := { State.reset.ft with packages := s.ft.packages, withheldUnits := s.ft.withheldUnits, withheldPages := s.ft.withheldPages }
      boot := { s.boot.kept with leaf := s.boot.leaf } }

theorem keepRoles_onlyRegs {s t u : State} (h : OnlyRegs s t) : OnlyRegs s (t.keepRoles u) :=
  ((OnlyRegs.foldl (fun _ _ hv => (hv.setRegF ..).setRegF ..) _ h).setRegF ..).setRegF ..

/-- A warm reset is a change to its debug level, after which only registers differ from what it keeps. -/
theorem warmReset_levels (s : State) (kind level token : Nat) :
    ∃ t, OnlyRegs s.warmCleared t ∧ s.warmReset kind level token = t.setDebugLevel s.debugLevel level token := by
  refine ⟨_, ?_, rfl⟩
  refine (OnlyRegs.setRegN (OnlyRegs.foldl (fun _ _ hv => hv.setRegF ..) _ ((keepRoles_onlyRegs ?_).setRegN ..)) ..).setRegN ..
  refine OnlyRegs.setRegN (OnlyRegs.setReg64 ?_ ..) ..
  unfold OnlyRegs
  rw [coldReset_onlyRegs s]
  rfl

theorem State.setDebugLevel_same (s : State) (level token : Nat) : s.setDebugLevel level level token = s := if_pos rfl

@[simp] theorem State.setDebugLevel_parts (s : State) (old new token : Nat) : (s.setDebugLevel old new token).parts = s.parts := by
  unfold State.setDebugLevel
  split
  · rfl
  · rw [State.cause_parts, State.report_parts]
    rfl

/-- A cold reset leaves what `State.reset` has, but for fuses and NOR. -/
theorem coldReset_leaves (s : State) :
    s.coldReset.stopped = false ∧ s.coldReset.t1 = State.reset.t1 ∧ s.coldReset.t0 = State.reset.t0 ∧ s.coldReset.parts = State.reset.parts ∧
      s.coldReset.fuses = s.fuses ∧ s.coldReset.out = s.out ∧ s.coldReset.pending = s.pending ∧ s.coldReset.errs = State.reset.errs ∧
      s.coldReset.mgmt = State.reset.mgmt := by
  rw [coldReset_onlyRegs s]
  exact ⟨rfl, rfl, rfl, rfl, rfl, rfl, rfl, rfl, rfl⟩

/-- A warm reset lets the part run, clears memories and partitions, and keeps the fuses; the log ring stays where the debug level does. -/
theorem warmReset_leaves (s : State) (kind level token : Nat) :
    (s.warmReset kind level token).stopped = false ∧ (s.warmReset kind level token).fuses = s.fuses ∧
      (s.debugLevel = level → (s.warmReset kind level token).errs.ring = s.errs.ring) ∧ (s.warmReset kind level token).t1 = State.reset.t1 ∧
      (s.warmReset kind level token).t0 = State.reset.t0 ∧ (s.warmReset kind level token).parts = State.reset.parts := by
  obtain ⟨t, ht, e⟩ := warmReset_levels s kind level token
  have calm : Calm t (t.setDebugLevel s.debugLevel level token) := calm_setDebugLevel (Calm.refl t)
  have quiet : Quiet t (t.setDebugLevel s.debugLevel level token) := quiet_setDebugLevel (Quiet.refl t)
  rw [e, calm.stopped, calm.fuses, quiet.t1, quiet.t0, State.setDebugLevel_parts]
  refine ⟨?_, ?_, fun same => ?_, ?_, ?_, ?_⟩
  · rw [ht]
    rfl
  · rw [ht]
    rfl
  · rw [same, State.setDebugLevel_same, ht]
    rfl
  all_goals
    rw [ht]
    rfl

/-! ### The slot that a boot takes (R396, R398, R401) -/

/-- A boot that has begun: it is counted as an incarnation. -/
def State.begun (s : State) : State := (s.modBoot (fun b => { b with started := true })).nextIncarnation

/-- What step 4 says of the image in a slot: 0 where it passes. -/
def State.slotCheck (s : State) (run : BootRun) (slot : Nat) : Nat := s.imageCheck (s.image slot) (run.signed.getD slot false)

/-- The boot record without a trial, the last fallback no longer shown. -/
def State.untried (s : State) : State :=
  (s.modBoot (fun b => { b with trial := none, trialCount := 0, trialReason := 0 })).setRegF Reg.RNG_RESET_CAUSE 9 9 0

/-- The boot record once the trial slot is tried. -/
def State.tried (s : State) (slot : Nat) : State := s.modBoot (fun b => { b with trialCount := 1, onTrial := true, booted := slot })

section Boot

variable {cfg : BootConfig} {run : BootRun} {s : State} {P : State → Prop}

/-- A boot after the first since the reset does nothing. -/
theorem completes_boot_again (hs : s.boot.started = true) : Completes (.boot cfg run) s fun t => t = s := by
  refine completes_act (by rfl) ?_
  exact if_pos hs

/-- Without a trial, a boot takes the active slot if it passes, else the other if that passes, else it goes to recovery. -/
theorem completes_boot_active (hs : s.boot.started = false) (ht : s.boot.trial = none)
    (h : P (if s.begun.slotCheck run s.boot.slot = 0 then s.begun.untried.bootFrom s.boot.slot cfg run []
      else if s.begun.slotCheck run (1 - s.boot.slot) = 0 then
        s.begun.untried.bootFrom (1 - s.boot.slot) cfg run [(s.boot.slot, s.begun.slotCheck run s.boot.slot)]
      else s.begun.untried.recover (s.begun.slotCheck run 0) (s.begun.slotCheck run 1))) :
    Completes (.boot cfg run) s P := by
  have noTrial : (s.modBoot (fun b => { b with started := true })).nextIncarnation.boot.trial = none := ht
  refine completes_act (by rfl) ?_
  dsimp only
  rw [if_neg (Bool.eq_false_iff.mp hs), noTrial]
  exact h

/-- A trial slot not yet tried is booted if it passes; else the boot waits with the reason. -/
theorem completes_boot_trial {x : Nat} (hs : s.boot.started = false) (ht : s.boot.trial = some x) (hc : s.boot.trialCount = 0)
    (h : P (if s.begun.slotCheck run x = 0 then (s.begun.tried x).bootFrom x cfg run []
      else (s.begun.tried x).modBoot (fun b => { b with trialReason := s.begun.slotCheck run x }))) :
    Completes (.boot cfg run) s P := by
  have trial : (s.modBoot (fun b => { b with started := true })).nextIncarnation.boot.trial = some x := ht
  have untested : (s.modBoot (fun b => { b with started := true })).nextIncarnation.boot.trialCount = 0 := hc
  refine completes_act (by rfl) ?_
  dsimp only
  rw [if_neg (Bool.eq_false_iff.mp hs), trial, untested]
  exact h

/-- Of the two slots, where neither passes, neither the active one nor the other does. -/
theorem slotCheck_neither {a : Nat} (ha : a < 2) (h0 : s.slotCheck run 0 ≠ 0) (h1 : s.slotCheck run 1 ≠ 0) :
    s.slotCheck run a ≠ 0 ∧ s.slotCheck run (1 - a) ≠ 0 := by
  obtain rfl | rfl : a = 0 ∨ a = 1 := by omega
  · exact ⟨h0, h1⟩
  · exact ⟨h1, h0⟩

end Boot

end Sys2Proof.Machine

section

open Sys2Proof Sys2Proof.Machine

/-- Settles O45: a reset clears all but what it keeps (coldReset_leaves, warmReset_leaves); a boot takes the slot that the record and the checks
choose. -/
theorem resetsAndBoot : Obligations.ResetsAndBoot := by
  unfold Obligations.ResetsAndBoot
  refine ⟨?_, ?_, ?_, ?_, ?_, ?_, ?_, ?_, ?_, ?_, ?_, ?_, ?_⟩
  · intro s
    rfl
  · intro s
    exact ⟨_, rfl, rfl, coldReset_leaves s⟩
  · intro s on
    exact ⟨_, congrArg Host.Outcome.next (if_neg (Bool.eq_false_iff.mp on)), rfl, warmReset_leaves s 2 0 0⟩
  · intro s off
    exact congrArg Host.Outcome.next (if_pos off)
  · intro rq v s hw
    exact completes_access (by rfl) hw rfl
  · rintro cfg run s u a hs ht rfl rfl passes
    exact completes_boot_active hs ht (if_pos passes)
  · rintro cfg run s n u a r hs ht rfl rfl rfl rfl fails passes
    exact completes_boot_active hs ht ((if_neg fails).trans (if_pos passes))
  · rintro cfg run s n u r0 r1 hs ht two rfl rfl rfl rfl fails0 fails1
    obtain ⟨failsActive, failsOther⟩ := slotCheck_neither two fails0 fails1
    exact completes_boot_active hs ht ((if_neg failsActive).trans (if_neg failsOther))
  · rintro cfg run x s n hs ht hc rfl passes
    exact completes_boot_trial hs ht hc (if_pos passes)
  · rintro cfg run x r s n hs ht hc rfl rfl fails
    exact completes_boot_trial hs ht hc (if_neg fails)
  · intro cfg run s hs
    exact completes_boot_again hs
  · intro s onTrial undone due
    refine completes_act (by rfl) ?_
    exact if_pos ⟨onTrial, by rw [undone]; rfl, due⟩
  · rintro rq v k i s u hw rfl rfl hk hi free
    refine completes_access (by rfl) hw ?_
    dsimp only
    rw [hk]
    exact if_pos ⟨hi, by rw [free]; rfl⟩

/-- Settles O46: each event of a port takes the branch that PERST_N, the port's state and recovery choose. -/
theorem hostPortsUpAndDown : Obligations.HostPortsUpAndDown := by
  unfold Obligations.HostPortsUpAndDown
  refine ⟨?_, ?_, ?_, ?_, ?_, ?_, ?_, ?_, ?_, ?_, ?_⟩
  · intro h s
    refine completes_act (by rfl) ?_
    exact if_pos rfl
  · intro h why s byLink high
    refine completes_act (by rfl) ?_
    exact (if_neg byLink).trans (if_neg high)
  · intro h s low
    refine completes_act (by rfl) ?_
    exact if_pos low
  · intro h s done high
    refine completes_act (by rfl) ?_
    exact if_pos ⟨done, high⟩
  · intro h width fast s normal downOrTraining hw
    refine completes_act (by rfl) ?_
    refine if_neg ?_
    rintro (recovering | low | up | ⟨not2, not4, not8⟩)
    · exact Bool.eq_false_iff.mp normal recovering
    · omega
    · omega
    · exact hw.elim not2 fun h => h.elim not4 not8
  · intro h s high ready
    refine completes_act (by rfl) ?_
    exact (if_neg high).trans (if_pos ready)
  · intro h s high unready
    refine completes_act (by rfl) ?_
    exact (if_neg high).trans (if_neg unready)
  · intro h s low
    refine completes_act (by rfl) ?_
    exact if_pos low
  · intro h s active
    refine completes_act (by rfl) ?_
    exact if_neg active
  · intro k dest row s few
    refine completes_act (by rfl) ?_
    exact if_neg (Nat.not_le.mpr few)
  · rintro k dest row s u sixteenth rfl
    refine completes_act (by rfl) ?_
    exact if_pos sixteenth

end

/-! PROOFS for 08_cofeben_fabric_and_switch.md: the states of a Cofeben port, messages between nodes. -/

namespace Sys2Proof.Machine

/-! ### A port's control register and its training (R253, R262, R411) -/

section LinkControl

variable {s : State} {l : Nat} {v : Word}

/-- A write that sets enable alone of the three enables the port. -/
theorem writeLinkCtrl_enable (h : fld v 2 0 = 1) : s.writeLinkCtrl l v = (s.store (Reg.LNK_CTRL l) v).linkEnable l := by
  simp only [State.writeLinkCtrl, h]

/-- One that sets disable alone disables it. -/
theorem writeLinkCtrl_disable (h : fld v 2 0 = 2) : s.writeLinkCtrl l v = (s.store (Reg.LNK_CTRL l) v).linkDisable l := by
  simp only [State.writeLinkCtrl, h]

/-- One that sets drain alone drains it. -/
theorem writeLinkCtrl_drain (h : fld v 2 0 = 4) : s.writeLinkCtrl l v = (s.store (Reg.LNK_CTRL l) v).linkDrain l := by
  simp only [State.writeLinkCtrl, h]

/-- One that sets none of them, or more than one, writes the mode only. -/
theorem writeLinkCtrl_mode (enable : fld v 2 0 ≠ 1) (disable : fld v 2 0 ≠ 2) (drain : fld v 2 0 ≠ 4) :
    s.writeLinkCtrl l v = s.store (Reg.LNK_CTRL l) v := by
  unfold State.writeLinkCtrl
  dsimp only
  split
  case h_1 e => exact absurd e enable
  case h_2 e => exact absurd e disable
  case h_3 e => exact absurd e drain
  case h_4 => rfl

end LinkControl

section Training

variable {s : State} {l : Nat} {x : Trained}

/-- TRAINING_PASS means nothing to a port that does not train. -/
theorem trainingPass_idle (h : s.link l ≠ 1) : s.trainingPass l x = s := if_pos h

/-- Without encryption, a port that trains comes up. -/
theorem trainingPass_plain (h : s.link l = 1) (plain : s.regF (Reg.LNK_CTRL l) 4 4 = 0) : s.trainingPass l x = s.linkUp l x :=
  (if_neg (not_not_intro h)).trans (if_pos plain)

/-- With encryption but no identity leaf left, authentication fails with reason 4. -/
theorem trainingPass_leafless (h : s.link l = 1) (encrypt : s.regF (Reg.LNK_CTRL l) 4 4 = 1) (leafless : s.useLeaf = none) :
    s.trainingPass l x = s.authFail l 4 := by
  simp [State.trainingPass, h, encrypt, leafless]

/-- With encryption, a leaf is used up, and the peer's answer decides. -/
theorem trainingPass_leaf {n : Nat} {u : State} (h : s.link l = 1) (encrypt : s.regF (Reg.LNK_CTRL l) 4 4 = 1)
    (leaf : s.useLeaf = some (n, u)) : s.trainingPass l x = if x.fail = 0 then u.linkUp l x else u.authFail l x.fail.val := by
  simp [State.trainingPass, h, encrypt, leaf]

end Training

/-! ### The sender of a message (R257 to R259) -/

section Sender

variable {p : Fin 32} {chute : Fin 64} {seq : Word} {c : Cmd} {s : State}

/-- A MSG_SEND that has not begun, of a length that R257 does not allow, ends. -/
theorem completes_msgSend_length (h : s.running p.val chute.val seq.toNat = some c) (op : c.opcode = 0x0F) (new : c.aux = [])
    (len : c.msgLen = 0 ∨ 2 ^ 20 < c.msgLen) : Completes (.msgSend p chute seq) s fun t => t = s.endCmd p.val c stUnsupported 0 0 := by
  refine completes_act (by rfl) ?_
  simp only [h, op, new, len, ne_eq, not_true_eq_false, if_false, if_true, List.isEmpty_nil]

/-- One of a length that it allows, to a node that exists or to another cell, takes the next message number and opens the message. -/
theorem completes_msgSend_open (h : s.running p.val chute.val seq.toNat = some c) (op : c.opcode = 0x0F) (new : c.aux = [])
    (len : ¬ (c.msgLen = 0 ∨ 2 ^ 20 < c.msgLen)) (dst : ¬ (c.msgDst.1 = s.cell ∧ (!s.nodeExists c.msgDst.2) = true)) :
    Completes (.msgSend p chute seq) s fun t =>
      t = ((s.modFab (fun x => { x with nextMsg := (s.fab.nextMsg + 1) % 2 ^ 32 })).setAux p.val c 0 [1, s.fab.nextMsg]).unitSend
        (c.msgReq p.val 2 s.fab.nextMsg [1, c.msgLen, c.arg 13, c.arg 14, nfld (c.arg 8) 9 5 * 2 ^ 16 + nfld (c.arg 9) 31 16, 0, 0, 0]) := by
  refine completes_act (by rfl) ?_
  simp only [h, op, new, len, dst, ne_eq, not_true_eq_false, if_false, if_true, List.isEmpty_nil]

/-- One that has begun sends what data there is to send. -/
theorem completes_msgSend_begun (h : s.running p.val chute.val seq.toNat = some c) (op : c.opcode = 0x0F) (begun : c.aux ≠ []) :
    Completes (.msgSend p chute seq) s fun t => t = s.msgSendData p.val c.chute c.seq 4097 := by
  refine completes_act (by rfl) ?_
  simp only [h, op, List.isEmpty_iff, begun, ne_eq, not_true_eq_false, if_false]

end Sender

/-- A response of the kind a command takes, to a MSG_SEND that runs, completes the exchange and does what the kind says. -/
theorem completes_msgAnswer {i : Instr} {k : Packet} {typ p : Nat} {c : Cmd} {s u : State} {f : Nat → Cmd → State → State}
    {P : State → Prop} (e : exec i s = act s (fun s => s.msgAnswer k typ f)) (kind : k.isMsg typ = true) (response : k.tkind ≠ 0)
    (hu : u = s.receive k) (sender : u.msgOf k = some (p, c)) (h : P (f p c (u.msgComplete p c))) : Completes i s P := by
  subst hu
  refine completes_act e ?_
  simpa [State.msgAnswer, kind, response, sender] using h

/-! ### The receiver of a message (R258, R259) -/

/-- A request of the kind that a command takes gets past its first check. -/
theorem isMsg_passes {k : Packet} {typ : Nat} (kind : k.isMsg typ = true) (request : k.tkind = 0) :
    ¬ (!k.isMsg typ || decide (k.tkind ≠ 0)) = true := by
  simp [kind, request]

section Open

variable {k : Packet} {p n need pad : Nat} {s u : State} (kind : k.isMsg 1 = true) (request : k.tkind = 0) (hu : u = s.receive k)

include kind request hu

/-- OPEN for a partition or tag that does not take it is a violation, and DONE answers it. -/
theorem completes_msgOpen_refused (takes : u.mboxTakes (wordAt k.body 4 / 2 ^ 16) (wordAt k.body 4 % 2 ^ 16) = false) :
    Completes (.msgOpen k) s fun t => t = (u.violateMem (.peer k.src k.tc k.seq) true 0).msgReply k 5 := by
  subst hu
  refine completes_act (by rfl) ?_
  exact (if_neg (isMsg_passes kind request)).trans (if_pos (by rw [takes]; rfl))

variable (hp : p = wordAt k.body 4 / 2 ^ 16) (takes : u.mboxTakes p (wordAt k.body 4 % 2 ^ 16) = true) (hn : n = u.mboxLines p)
  (hneed : need = 1 + (wordAt k.body 1 + 63) / 64) (hpad : pad = (if n < u.mboxNext p + need then n - u.mboxNext p else 0))

include hp takes hn hneed hpad

/-- OPEN for more lines than the mailbox has free is counted, and FULL answers it. -/
theorem completes_msgOpen_full (full : (u.regN (Reg.PART_MBOX_HEAD p) + n - u.mboxNext p - 1) % n < pad + need) :
    Completes (.msgOpen k) s fun t => t = (u.count (Reg.PART_MBOX_REFUSED p) 1).msgReply k 3 := by
  subst hu hp hn hneed hpad
  refine completes_act (by rfl) ?_
  exact (if_neg (isMsg_passes kind request)).trans ((if_neg (by rw [takes]; decide)).trans (if_pos full))

/-- OPEN with room reserves its lines, behind a pad record where they would cross the ring's end, and ACCEPT answers it. -/
theorem completes_msgOpen_accepted {v : State} (room : pad + need ≤ (u.regN (Reg.PART_MBOX_HEAD p) + n - u.mboxNext p - 1) % n)
    (hv : v = (if pad = 0 then u else u.mboxHeader p (u.mboxNext p) 0 0xFFFFFFFF 0)) :
    Completes (.msgOpen k) s fun t => t = (v.modFab (fun x => { x with inbound := x.inbound ++
      [{ req := k, part := p, line := if pad = 0 then u.mboxNext p else 0, lines := need, len := wordAt k.body 1, imm := pairAt k.body 2, got := 0,
         since := v.lcc }] })).msgReply k 2 := by
  subst hu hp hn hneed hpad hv
  refine completes_act (by rfl) ?_
  exact (if_neg (isMsg_passes kind request)).trans ((if_neg (by rw [takes]; decide)).trans (if_neg (Nat.not_lt.mpr room)))

end Open

end Sys2Proof.Machine

section

open Sys2Proof Sys2Proof.Machine

/-- Settles O35: a write of LNK_CTRL does what the one bit it sets of the three says, and training ends as encryption, the leaves and the peer say. -/
theorem linkStates : Obligations.LinkStates := by
  unfold Obligations.LinkStates
  refine ⟨?_, ?_, ?_, ?_, ?_, ?_, ?_, ?_, ?_, ?_, ?_⟩
  · intro rq l v s hw enable
    exact completes_access (by rfl) hw (writeLinkCtrl_enable enable)
  · intro rq l v s hw disable
    exact completes_access (by rfl) hw (writeLinkCtrl_disable disable)
  · intro rq l v s hw drain
    exact completes_access (by rfl) hw (writeLinkCtrl_drain drain)
  · intro rq l v s hw several
    refine completes_access (by rfl) hw ?_
    exact writeLinkCtrl_mode (by omega) (by omega) (by omega)
  · intro l x s trains plain
    exact completes_act (by rfl) (trainingPass_plain trains plain)
  · intro l x n s u trains encrypt leaf passes
    exact completes_act (by rfl) ((trainingPass_leaf trains encrypt leaf).trans (if_pos passes))
  · intro l x n s u trains encrypt leaf fails
    exact completes_act (by rfl) ((trainingPass_leaf trains encrypt leaf).trans (if_neg fails))
  · intro l x s trains encrypt leafless
    exact completes_act (by rfl) (trainingPass_leafless trains encrypt leafless)
  · intro l x s idle
    exact completes_act (by rfl) (trainingPass_idle idle)
  · intro l s trains
    exact completes_act (by rfl) (if_pos trains)
  · intro l s drains queue replay current
    refine completes_act (by rfl) ?_
    exact if_pos ⟨drains, List.isEmpty_iff.mpr queue, List.isEmpty_iff.mpr replay, Option.isNone_iff_eq_none.mpr current⟩

/-- Settles O36: each step of a message takes the branch that its packet, its length, its partition and the mailbox's room choose. -/
theorem messages : Obligations.Messages := by
  unfold Obligations.Messages
  refine ⟨?_, ?_, ?_, ?_, ?_, ?_, ?_, ?_, ?_, ?_, ?_⟩
  · intro p chute seq c s h op new some most dst
    refine completes_msgSend_open h op new (by omega) ?_
    rintro ⟨here, missing⟩
    rcases dst with away | node
    · exact away here
    · simp [node] at missing
  · intro p chute seq c s h op new len
    exact completes_msgSend_length h op new len
  · intro p chute seq c s h op begun
    exact completes_msgSend_begun h op begun
  · intro k p n need pad s u v kind request hu hp takes hn hneed hpad room hv
    exact completes_msgOpen_accepted kind request hu hp takes hn hneed hpad room hv
  · intro k p n need pad s u kind request hu hp takes hn hneed hpad full
    exact completes_msgOpen_full kind request hu hp takes hn hneed hpad full
  · intro k s u kind request hu takes
    exact completes_msgOpen_refused kind request hu takes
  · intro k p c s u kind response hu sender
    refine completes_msgAnswer (by rfl) kind response hu sender ?_
    rfl
  · intro k p c s u kind response hu sender
    refine completes_msgAnswer (by rfl) kind response hu sender ?_
    rfl
  · intro k p c s u kind response hu sender
    refine completes_msgAnswer (by rfl) kind response hu sender ?_
    rfl
  · rintro k m n s u v kind request rfl message rfl rfl
    refine completes_act (by rfl) ?_
    refine (if_neg (isMsg_passes kind request)).trans ?_
    dsimp only
    rw [message]
  · rintro srcCell srcNode msgId m a s u message first whole rfl quiet writable rfl noSem
    refine completes_act (by rfl) ?_
    simp [message, first, whole, quiet, writable, noSem]

end

/-! PROOFS for 09_embedding_tables.md: row commands on their unit, forwards, ageing, conversion, hot sets, migration. -/

namespace Sys2Proof.Machine

/-! ### Presentations of a row command (R60, R263, R266, R287) -/

section RowStep

variable {i : Instr} {s : State} {p chute seq opcode : Nat} {c : Cmd} {mine stops : Cmd → Bool} {start work : State → Cmd → State}
  {P : State → Prop}

/-- A row command on its unit, not begun, of a usable table that no EMB_CONVERT works on, begins. -/
theorem completes_rowStart (x : exec i s = act s (fun s => s.rowStep p chute seq opcode mine stops start work))
    (h : AtUnit s p chute seq opcode .row c) (m : mine c = true) (new : c.aux = []) (still : s.converting p c = false)
    (usable : c.table.ok = true) (k : P (start s c)) : Completes i s P :=
  completes_act x (by rwa [rowStep_start h m new still usable])

/-- One that has begun does its work. -/
theorem completes_rowWork (x : exec i s = act s (fun s => s.rowStep p chute seq opcode mine stops start work))
    (h : AtUnit s p chute seq opcode .row c) (m : mine c = true) (begun : c.aux ≠ []) (k : P (work s c)) : Completes i s P :=
  completes_act x (by rwa [rowStep_work h m begun])

end RowStep

/-! ### Contributions and applies (R274, R276) -/

/-- After its last item, a CONTRIBUTE ends with its counts. -/
theorem contribute_last {s : State} {p : Nat} {c : Cmd} (last : c.arg 12 ≤ c.progress) :
    s.contribute p c = s.rowEnd p c (poisonStatus (c.auxAt 5)) := if_pos last

/-- At stage 5, an APPLY ends with its counts. -/
theorem applyStep_last {s : State} {p : Nat} {c : Cmd} (last : c.auxAt 2 = 5) : s.applyStep p c = s.rowEnd p c (poisonStatus (c.auxAt 3)) := by
  simp only [State.applyStep, last]

/-! ### Forwarding of arena records (R284) -/

section Forwarding

variable {id : Nat} {f : Forward} {s : State} (found : s.forwards.find? (fun f => decide (f.id = id)) = some f)
  (idle : s.fwdWaits id = false)

include found idle

/-- A forward whose request came back with an error drops its record. -/
theorem completes_forward_failed
    (failed : ((s.fab.arrivals.filter (fun a => decide (a.waiter = .fwd id))).any (fun a => decide (a.status ≠ 0))) = true) :
    Completes (.arenaRecordForward id) s fun t =>
      t = s.dropForward f (wordAt (s.t1Words (64 * f.req.line) 16) 0) (wordAt (s.t1Words (64 * f.req.line) 16) 3) := by
  refine completes_act (by rfl) ?_
  rw [found]
  dsimp only
  rw [if_neg (Bool.eq_false_iff.mp idle), if_pos failed]

variable (quiet : s.fab.arrivals = [])

include quiet

/-- At its first stage, with nothing asked for yet, it asks the arena of the current home for an index. -/
theorem completes_forward_first (first : f.stage = 0) :
    Completes (.arenaRecordForward id) s fun t =>
      t = s.unitSend ((s.fwdAgent f (s.tableNow f.part f.table)).atomReq
        (f.node * 2 ^ 40 + (s.tableNow f.part f.table).arena f.parity) 0x02 1 0) := by
  refine completes_act (by rfl) ?_
  rw [found]
  dsimp only
  rw [if_neg (Bool.eq_false_iff.mp idle), quiet, List.filter_nil, List.any_nil, if_neg Bool.false_ne_true, first]
  rfl

/-- At its last stage, with its writes acknowledged, it is counted and over. -/
theorem completes_forward_last (last : f.stage = 2) :
    Completes (.arenaRecordForward id) s fun t => t = (s.count (Reg.PART_ROW_FWD f.part) 1).endForward f := by
  refine completes_act (by rfl) ?_
  rw [found]
  dsimp only
  rw [if_neg (Bool.eq_false_iff.mp idle), quiet, List.filter_nil, List.any_nil, if_neg Bool.false_ne_true, last]
  rfl

end Forwarding

/-! ### Migration (R282, R283) -/

section Migration

variable {p : Fin 32} {chute : Fin 64} {seq : Word} {c : Cmd} {s u v : State} {P : State → Prop}

/-- MIGRATE_ROW presents a migration that runs and is not at its cutover. -/
theorem migrateRow_presents (op : c.opcode = 0x12) (runs : c.phase = .running) (before : ¬ (6 ≤ c.auxAt 2 ∧ c.auxAt 2 < 20)) :
    ¬ (c.opcode ≠ 0x12 ∨ c.phase ≠ .running ∨ (6 ≤ c.auxAt 2 ∧ c.auxAt 2 < 20)) := by
  rintro (other | idle | cutover)
  · exact other op
  · exact idle runs
  · exact before cutover

/-- A MIGRATE_ROW that has not begun makes the checks of R282. -/
theorem completes_migrateStart (h : AtUnit s p.val chute.val seq.toNat 0x12 .row c) (new : c.aux = [])
    (still : s.converting p.val c = false) (usable : c.table.ok = true) (does : Does s (Work.migrateStart p.val c) u) :
    Completes (.migrateRow p chute seq) s fun t => t = u := by
  refine completes_act (by rfl) ?_
  have stage : c.auxAt 2 = 0 := by rw [Cmd.auxAt, new]; rfl
  dsimp only
  rw [h.command]
  dsimp only
  rw [if_neg (migrateRow_presents h.opcode h.runs (by omega)), if_pos (by rw [new]; rfl), if_neg (by simp [h.goesOn]),
    if_neg (by simp [h.unmarked]), if_neg (by simp [still]), if_neg (by simp [usable])]
  exact work_run does

/-- One that has begun, before the cutover or after it was undone, does its next stage, unless it waits for quiet past its deadline. -/
theorem completes_migrateStep (h : AtUnit s p.val chute.val seq.toNat 0x12 .row c) (begun : c.aux ≠ [])
    (before : ¬ (6 ≤ c.auxAt 2 ∧ c.auxAt 2 < 20)) (inTime : c.auxAt 2 = 4 → c.deadline = 0 ∨ s.lcc ≤ c.deadline)
    (k : P (s.migrateStep p.val c)) : Completes (.migrateRow p chute seq) s P := by
  refine completes_act (by rfl) ?_
  have onTime : ¬ (c.auxAt 2 = 4 ∧ c.deadline ≠ 0 ∧ c.deadline < s.lcc) := by
    rintro ⟨waits, timed, past⟩
    have := inTime waits
    omega
  dsimp only
  rw [h.command]
  dsimp only
  rw [if_neg (migrateRow_presents h.opcode h.runs before), if_neg (by simpa using begun), if_neg (by simp [h.goesOn]),
    if_neg (by simp [h.unmarked]), if_neg onTime]
  exact k

/-- One that must stop while its row is COPYING undoes step 1. -/
theorem completes_migrateRow_undone (command : s.cmd p.val chute.val seq.toNat = some c) (op : c.opcode = 0x12) (runs : c.phase = .running)
    (begun : c.aux ≠ []) (copying : 2 ≤ c.auxAt 2) (before : c.auxAt 2 < 6) (stop : c.mustStop = true) :
    Completes (.migrateRow p chute seq) s fun t => t = s.migrateUndo p.val c stAborted 0 := by
  refine completes_act (by rfl) ?_
  dsimp only
  rw [command]
  dsimp only
  rw [if_neg (migrateRow_presents op runs (by omega)), if_neg (by simpa using begun), if_pos ⟨copying, before, stop⟩]

/-- A look at the state as the first part of a piece of work. -/
theorem work_view_bind {α β : Type} {s : State} {g : State → α} {f : α → Work β} : (Work.view g >>= f) s = f (g s) s := work_bind rfl

/-- At stage 4, with its copies acknowledged, both arenas quiet and no APPLY at work on the row, a migration goes on to the cutover. -/
theorem migrateStep_quiet {w : State} {p : Nat} (stage : c.auxAt 2 = 4) (settled : Does s (Work.settled c) u)
    (quiet : Work.arenasQuiet p c (s.node * 2 ^ 40) u = .ok (true, v)) (free : v.applying p c = false)
    (does : Does v (Work.next p c 0 (setVal (setVal c.aux 2 6) 5 0)) w) : s.migrateStep p c = w := by
  simp only [State.migrateStep, stage]
  refine work_run ((work_bind settled).trans ((work_bind quiet).trans (work_view_bind.trans ?_)))
  rw [free]
  exact does

/-- A cutover to a node that is not the row's hash home, with both arenas quiet, writes the redirect entry and goes on to change the row's state. -/
theorem completes_cutover_quiet (command : s.cmd p.val chute.val seq.toNat = some c) (op : c.opcode = 0x12) (runs : c.phase = .running)
    (stage : c.auxAt 2 = 6) (away : c.migNode ≠ c.hashHome c.migRow)
    (quiet : Work.arenasQuiet p.val c (s.node * 2 ^ 40) s = .ok (true, u)) :
    Completes (.migrateCutover p chute seq) s fun t => t = ((u.storeAll (c.agent p.val) (redirWords c.migRow 1 c.migNode 0 c.migSlot 0) false
      [(c.auxAt 0, 16)]).workDone p.val c).setAux p.val c 0 (setVal (setVal c.aux 2 7) 5 0) := by
  refine completes_act (by rfl) ?_
  dsimp only
  rw [command]
  dsimp only
  rw [if_neg (by simp [op, runs]), stage]
  refine work_run ((work_bind quiet).trans ?_)
  simp only [away, decide_false, Bool.not_true, Bool.not_false, Bool.false_eq_true, if_false, if_true]
  exact work_act_bind

/-- At its end, a cutover counts the row and ends its command with a free result. -/
theorem completes_cutover_last {n : Nat} (command : s.cmd p.val chute.val seq.toNat = some c) (op : c.opcode = 0x12)
    (runs : c.phase = .running) (stage : c.auxAt 2 = 9) (acked : c.unacked = 0)
    (drawn : (s.count (Reg.ROW_MIGRATED c.runUnit) 1).draw = (n, u)) :
    Completes (.migrateCutover p chute seq) s fun t => t = u.endCmd p.val c stOk n 0 := by
  refine completes_act (by rfl) ?_
  dsimp only
  rw [command]
  dsimp only
  rw [if_neg (by simp [op, runs]), stage, drawn]
  exact if_neg (not_not_intro acked)

end Migration

end Sys2Proof.Machine

section

open Sys2Proof Sys2Proof.Machine

/-- Settles O37: each presentation of a row command begins it, does its next stage or ends it; a forward does its next stage or is dropped. -/
theorem embeddingRows : Obligations.EmbeddingRows := by
  unfold Obligations.EmbeddingRows
  refine ⟨?_, ?_, ?_, ?_, ?_, ?_, ?_, ?_, ?_, ?_, ?_, ?_, ?_, ?_, ?_, ?_⟩
  · intro rq p v s u hw hu unready
    refine completes_access (by rfl) hw ?_
    rw [hu] at unready ⊢
    exact if_neg (Bool.eq_false_iff.mp unready)
  · intro p chute seq errs c s h new still usable legal
    exact completes_rowStart (by rfl) h (by rfl) new still usable (if_pos legal)
  · intro p chute seq errs c s h new still usable illegal
    exact completes_rowStart (by rfl) h (by rfl) new still usable (if_neg (Bool.eq_false_iff.mp illegal))
  · rintro p chute seq errs c d n s u h begun left rfl rfl does
    refine completes_rowWork (by rfl) h (by rfl) begun ?_
    exact (if_neg (Nat.not_le.mpr left)).trans (work_run does)
  · intro p chute seq errs c s h begun last
    exact completes_rowWork (by rfl) h (by rfl) begun (if_pos last)
  · intro p chute seq c s h new phase still usable hashed least most
    refine completes_rowStart (by rfl) h (by simp [phase]) new still usable (if_neg ?_)
    rintro (column | late | few | many)
    · exact Bool.eq_false_iff.mp hashed column
    all_goals omega
  · intro p chute seq c s h begun phase _
    exact completes_rowWork (by rfl) h (by simp [phase]) begun rfl
  · intro p chute seq c s h begun phase last
    exact completes_rowWork (by rfl) h (by simp [phase]) begun (contribute_last last)
  · intro p chute seq c s h new phase still usable column
    refine completes_rowStart (by rfl) h (by simp [phase]) new still usable ?_
    exact if_pos (.inl column)
  · intro p chute seq c s h new phase still usable
    exact completes_rowStart (by rfl) h (by simp [phase]) new still usable rfl
  · intro p chute seq c s h begun phase
    exact completes_rowWork (by rfl) h (by simp [phase]) begun rfl
  · intro p chute seq c s h begun phase last
    exact completes_rowWork (by rfl) h (by simp [phase]) begun (applyStep_last last)
  · rintro h n s rfl due
    exact completes_act (by rfl) (if_neg (Nat.not_lt.mpr due))
  · rintro id f d s found idle first quiet rfl
    exact completes_forward_first found idle quiet first
  · intro id f s found idle failed
    exact completes_forward_failed found idle failed
  · intro id f s found idle last quiet
    exact completes_forward_last found idle quiet last

/-- Settles O38: each presentation of a conversion, a refresh or a migration takes the branch that its stage and the table choose. -/
theorem rowsAcrossNodes : Obligations.RowsAcrossNodes := by
  unfold Obligations.RowsAcrossNodes
  refine ⟨?_, ?_, ?_, ?_, ?_, ?_, ?_, ?_, ?_, ?_, ?_, ?_, ?_, ?_⟩
  · intro p chute seq c s h new still usable same
    exact completes_rowStart (by rfl) h (by rfl) new still usable (if_pos same)
  · intro p chute seq c s h new still usable other legal
    refine completes_rowStart (by rfl) h (by rfl) new still usable ?_
    exact (if_neg other).trans (if_neg (by simp [legal]))
  · intro p chute seq c s h begun last
    exact completes_rowWork (by rfl) h (by rfl) begun (if_pos last)
  · intro p chute seq c s u h begun notLast left does
    refine completes_rowWork (by rfl) h (by rfl) begun ?_
    exact (if_neg notLast).trans ((if_neg (by omega)).trans (work_run does))
  · intro p chute seq c s h new still usable hashed crib mode
    refine completes_rowStart (by rfl) h (by rfl) new still usable ((if_neg ?_).trans (if_pos crib))
    rintro (three | column | ⟨zero, -⟩ | ⟨-, other⟩)
    · omega
    · exact Bool.eq_false_iff.mp hashed column
    · omega
    · exact other crib
  · intro p chute seq c s u h begun left acked does
    refine completes_rowWork (by rfl) h (by rfl) begun ?_
    exact (if_neg (Nat.not_le.mpr left)).trans ((if_neg (not_not_intro acked)).trans (work_run does))
  · intro p chute seq c s h begun last
    exact completes_rowWork (by rfl) h (by rfl) begun (if_pos last)
  · intro p chute seq c s u h new still usable does
    exact completes_migrateStart h new still usable does
  · intro p chute seq c s h begun stage
    refine completes_migrateStep h begun (by omega) (by omega) ?_
    simp only [State.migrateStep, stage]
  · intro p chute seq c s u v w h begun stage inTime settled quiet free does
    exact completes_migrateStep h begun (by omega) (fun _ => inTime) (migrateStep_quiet stage settled quiet free does)
  · intro p chute seq c s command op runs begun copying before stop
    exact completes_migrateRow_undone command op runs begun copying before stop
  · intro p chute seq c s u command op runs stage away quiet
    exact completes_cutover_quiet command op runs stage away quiet
  · intro p chute seq c n s u command op runs stage acked drawn
    exact completes_cutover_last command op runs stage acked drawn
  · rintro p n i d a s rfl rfl ready usable inside departed due
    refine completes_act (by rfl) (if_neg ?_)
    rw [ready, usable, departed, due]
    simp [inside]

end

/-! PROOFS for 10_vector_search.md: the index directory, loading and unloading, searches, inserts and deletes, compaction, publishing, seals. -/

namespace Sys2Proof.Machine

/-! ### Presentations of a search or index command (R294, R311) -/

section WinStep

variable {i : Instr} {s : State} {p chute seq opcode : Nat} {c : Cmd} {x : VecIndex} {stops : Cmd → Bool} {stopped : State → Cmd → State}
  {start work : State → Cmd → VecIndex → State} {P : State → Prop}

/-- A command on its Winnower, not begun, of a loaded index begins. -/
theorem completes_winStart (e : exec i s = act s (fun s => s.winStep p chute seq opcode stops stopped start work))
    (h : AtUnit s p chute seq opcode .win c) (loaded : s.indexOf p c = some x) (new : c.aux = []) (k : P (start s c x)) : Completes i s P :=
  completes_act e (by rwa [winStep_start h loaded new])

/-- One that has begun does its work. -/
theorem completes_winWork (e : exec i s = act s (fun s => s.winStep p chute seq opcode stops stopped start work))
    (h : AtUnit s p chute seq opcode .win c) (loaded : s.indexOf p c = some x) (begun : c.aux ≠ []) (k : P (work s c x)) : Completes i s P :=
  completes_act e (by rwa [winStep_work h loaded begun])

end WinStep

/-! ### The index directory and the control register of indexes (R291, R292) -/

section Control

variable {rq : Requester} {p : Fin 32} {v : Word} {s u : State}

/-- Setting enable on a directory that is not ready answers what its checks find. -/
theorem completes_winDirEnable_set (hw : s.writes rq (Reg.PART_WIN_DIR_CTRL p.val) = true) (set : bitOf v 0 = true)
    (hu : u = s.store (Reg.PART_WIN_DIR_CTRL p.val) v) (unready : ((u.part p.val).ring winRing).ready = false) :
    Completes (.winDirEnable rq p v) s fun t => t = u.dirAnswer p.val winRing (Reg.PART_WIN_DIR_CTRL p.val) ⟨u.ringBase p.val winRing, 0x2000⟩
      (u.ringCheck p.val winRing true 13 13 13 ⟨u.ringBase p.val winRing, 0x2000⟩ ⟨0, 0⟩) := by
  refine completes_access (by rfl) hw ?_
  dsimp only
  rw [← hu, if_neg (by rw [set]; exact Bool.false_ne_true), if_neg (Bool.eq_false_iff.mp unready)]

/-- Clearing it unloads every index. -/
theorem completes_winDirEnable_clear (hw : s.writes rq (Reg.PART_WIN_DIR_CTRL p.val) = true) (clear : bitOf v 0 = false)
    (hu : u = s.store (Reg.PART_WIN_DIR_CTRL p.val) v) :
    Completes (.winDirEnable rq p v) s fun t =>
      t = ((u.unloadAll p.val).modRing p.val winRing (fun _ => Ring.none)).setRegF (Reg.PART_WIN_DIR_CTRL p.val) 31 31 0 := by
  refine completes_access (by rfl) hw ?_
  dsimp only
  rw [← hu, if_pos (by rw [clear]; rfl)]

variable (hw : s.writes rq (Reg.PART_WIN_IDX_CTRL p.val) = true) (idle : s.regF (Reg.PART_WIN_IDX_CTRL p.val) 31 31 = 0)

include hw idle

/-- While the register is not busy, INDEX_LOAD loads the index it names. -/
theorem completes_indexLoad :
    Completes (.indexLoad rq p v) s fun t => t = (s.store (Reg.PART_WIN_IDX_CTRL p.val) v).load p.val (fld v 5 0) := by
  refine completes_access (by rfl) hw ?_
  exact if_neg (by rw [idle]; exact Nat.zero_ne_one)

/-- INDEX_UNLOAD begins to unload an index that is loaded, and shows err 4 for another. -/
theorem completes_indexUnload (hu : u = s.store (Reg.PART_WIN_IDX_CTRL p.val) v) :
    Completes (.indexUnload rq p v) s fun t =>
      t = if (u.index p.val (fld v 5 0)).isNone then u.setRegF (Reg.PART_WIN_IDX_CTRL p.val) 30 28 4
        else (u.setRegF (Reg.PART_WIN_IDX_CTRL p.val) 30 28 0).beginUnload p.val (fld v 5 0) := by
  refine completes_access (by rfl) hw ?_
  dsimp only
  rw [← hu]
  exact if_neg (by rw [idle]; exact Nat.zero_ne_one)

end Control

/-- An index that unloads is let go once no command transferred before names it. -/
theorem completes_indexUnloadDone {p : Fin 32} {i : Fin 64} {x : VecIndex} {n : Nat} {s : State} (loaded : s.index p.val i.val = some x)
    (unloads : x.unloadAt = some n) (unused : s.indexUsers p.val i.val n = false) :
    Completes (.indexUnloadDone p i) s fun t =>
      t = (((s.indexBack p.val i.val).setIndex p.val i.val none).showLoaded p.val i.val false).showBusy p.val := by
  refine completes_act (by rfl) ?_
  simp only [loaded, unloads]
  exact if_neg (Bool.eq_false_iff.mp unused)

/-! ### Inserts and deletes (R300, R305, R307, R310) -/

/-- Without publish, acknowledged and with no seal of its own in progress, an insert or delete ends OK after its last item. -/
theorem itemsDone_ends {s : State} {p : Nat} {c : Cmd} {x : VecIndex} (kept : nfld (c.arg 8) 25 25 = 0) (acked : c.unacked = 0)
    (unsealing : x.sealing c = false) : s.itemsDone p c x = s.rowEnd p c stOk := by
  unfold State.itemsDone
  rw [if_neg (by rw [kept]; exact Nat.zero_ne_one), if_neg (by simp [acked, unsealing])]

section Commands

variable {p : Fin 32} {chute : Fin 64} {seq : Word} {c : Cmd} {x : VecIndex} {s u : State} {P : State → Prop}

section Insert

variable (h : AtUnit s p.val chute.val seq.toNat 0x08 .win c) (loaded : s.indexOf p.val c = some x) (begun : c.aux ≠ []) (stage : c.auxAt 2 = 0)
  (allocated : c.auxAt 6 = 0)

include h loaded begun stage allocated

/-- Between items, an insert with items left begins the next. -/
theorem completes_indexInsert_item (left : c.progress < c.arg 9) (k : P (s.work (Work.insertBegin p.val c x))) :
    Completes (.indexInsert p chute seq) s P := by
  refine completes_winWork (by rfl) h loaded begun ?_
  rwa [if_neg (by simp [stage, allocated]), if_neg (by omega), stage]

/-- After its last, it publishes or ends. -/
theorem completes_indexInsert_last (last : c.arg 9 ≤ c.progress) (k : P (s.itemsDone p.val c x)) : Completes (.indexInsert p chute seq) s P := by
  refine completes_winWork (by rfl) h loaded begun ?_
  rwa [if_neg (by simp [stage, allocated]), if_pos ⟨stage, last⟩]

end Insert

section Delete

variable (h : AtUnit s p.val chute.val seq.toNat 0x09 .win c) (loaded : s.indexOf p.val c = some x) (begun : c.aux ≠ []) (stage : c.auxAt 2 = 0)

include h loaded begun stage

/-- A delete with items left, its writes acknowledged, does the next. -/
theorem completes_indexDelete_item (left : c.progress < c.arg 9) (acked : c.unacked = 0) (k : P (s.work (Work.deleteItem p.val c x))) :
    Completes (.indexDelete p chute seq) s P := by
  refine completes_winWork (by rfl) h loaded begun ?_
  rwa [if_neg (by omega), if_neg (Nat.not_le.mpr left), if_neg (not_not_intro acked)]

/-- After its last, it publishes or ends. -/
theorem completes_indexDelete_last (last : c.arg 9 ≤ c.progress) (k : P (s.itemsDone p.val c x)) : Completes (.indexDelete p chute seq) s P := by
  refine completes_winWork (by rfl) h loaded begun ?_
  rwa [if_neg (by omega), if_pos last]

end Delete

/-- The allocation an insert waits for is tried again with the wait cleared (R310). -/
theorem completes_deferredAllocation_insert (command : s.cmd p.val chute.val seq.toNat = some c) (waits : c.auxAt 6 = 1)
    (runs : c.phase = .running) (loaded : s.index p.val c.indexNo = some x) (op : c.opcode = 0x08)
    (does : Does s (Work.insertBegin p.val { c with aux := setVal c.aux 6 0 } x) u) :
    Completes (.deferredAllocation p chute seq) s fun t => t = u := by
  refine completes_act (by rfl) ?_
  simp only [command, loaded]
  rw [if_neg (by simp [waits, runs]), if_pos op]
  exact work_run does

/-! ### Compaction (R308, R309) -/

/-- A compaction that is begun, no older query running and no allocation waiting, begins its next coarse partition. -/
theorem completes_indexCompact_next (h : AtUnit s p.val chute.val seq.toNat 0x0A .win c) (loaded : s.indexOf p.val c = some x)
    (begun : c.aux ≠ []) (allocated : c.auxAt 6 = 0) (young : s.noOlderQuery p.val c.indexNo (c.auxAt 1) = true) (stage : c.auxAt 2 = 0)
    (left : c.progress < nfld (c.arg 11) 16 0) (k : P (s.work (Work.compactBegin p.val c x))) : Completes (.indexCompact p chute seq) s P := by
  refine completes_winWork (by rfl) h loaded begun ?_
  rwa [if_neg (by simp [allocated, young]), stage, if_neg (Nat.not_le.mpr left)]

end Commands

/-! ### Publishing (R300, R301) -/

/-- The oldest closed epoch of an index, once no command with a stamp not newer than it runs, is published, or refused at the limit; its command ends. -/
theorem completes_epochPublish {p : Fin 32} {i : Fin 64} {x : VecIndex} {e chute seq : Nat} {l : List (Nat × Nat × Nat)} {c : Cmd} {s u : State}
    (loaded : s.index p.val i.val = some x) (oldest : x.closed = (e, chute, seq) :: l) (done : s.stampedRunning p.val i.val e x = false)
    (hu : u = s.setIndex p.val i.val (some { x with closed := l })) (command : u.cmd p.val chute seq = some c) :
    Completes (.epochPublish p i) s fun t =>
      t = if 2 ^ 30 ≤ (e + 2 ^ 32 - x.oldest) % 2 ^ 32 then (u.pcause p.val (Reg.PART_WIN_IRQ_CAUSE p.val) 8).rowEnd p.val c stReservation
        else ((u.modHub p.val c (fun x => { x with pub := e })).pcause p.val (Reg.PART_WIN_IRQ_CAUSE p.val) 1).endCmd p.val c
          stOk (c.progress + 2 ^ 32 * e) c.partialResult.2 := by
  subst hu
  refine completes_act (by rfl) ?_
  simp only [loaded, oldest]
  rw [if_neg (Bool.eq_false_iff.mp done), command]

/-! ### Seals (R306) -/

section Seals

variable {p : Fin 32} {i : Fin 64} {block : Word} {x : VecIndex} {z : Seal} {c : Cmd} {s u : State} (loaded : s.index p.val i.val = some x)
  (found : x.seals.find? (fun z => decide (z.block = block.toNat)) = some z) (command : s.cmd p.val z.chute z.cmd = some c)

include loaded found command

/-- A seal with a Loft block left counts it once it is written. -/
theorem completes_blockSeal_counts {y : Arrival} (left : z.next * loftBytes < x.vbytes * 256)
    (written : s.takeArrival (.cmd p.val c.chute c.seq) (loftWriteKey (x.vecAt z.block 0 + z.next * loftBytes)) = some (y, u))
    (good : y.status = 0) :
    Completes (.blockSeal p i block) s fun t => t = u.modIndex p.val c (fun x => { x with seals := x.seals.flatMap (fun y =>
      if y = z then [{ y with next := y.next + 1 }] else [y]) }) := by
  refine completes_act (by rfl) ?_
  simp only [loaded, found, command]
  rw [if_neg (Nat.not_le.mpr left), written]
  exact if_pos good

/-- After the last, the block's count is written sealed, and the seal and the use of the open area are over. -/
theorem completes_blockSeal_last (last : x.vbytes * 256 ≤ z.next * loftBytes)
    (hu : u = s.storeAll (c.agent p.val) (2 ^ 31 + 256) false [(s.node * 2 ^ 40 + (x.blockAt z.block + 4), 4)]) :
    Completes (.blockSeal p i block) s fun t => t = u.modIndex p.val c (fun x =>
      ({ x with seals := x.seals.flatMap (fun y => if y = z then [] else [y]) } : VecIndex).stopUsing [openKey z.cpart z.seq]) := by
  subst hu
  refine completes_act (by rfl) ?_
  simp only [loaded, found, command]
  rw [if_pos last]
  exact work_run work_act_bind

end Seals

end Sys2Proof.Machine

section

open Sys2Proof Sys2Proof.Machine

/-- Settles O39: each presentation of a control register's write, a Winnower command or a hub's own row takes the branch its conditions choose. -/
theorem indexes : Obligations.Indexes := by
  unfold Obligations.Indexes
  refine ⟨?_, ?_, ?_, ?_, ?_, ?_, ?_, ?_, ?_, ?_, ?_, ?_, ?_, ?_, ?_, ?_, ?_, ?_, ?_, ?_, ?_⟩
  · intro rq p v s u hw set hu unready
    exact completes_winDirEnable_set hw set hu unready
  · intro rq p v s u hw clear hu
    exact completes_winDirEnable_clear hw clear hu
  · intro rq p v s hw idle
    exact completes_indexLoad hw idle
  · intro rq p v x s u hw idle hu loaded
    have done := completes_indexUnload hw idle hu
    rwa [loaded] at done
  · intro rq p v s u hw idle hu absent
    have done := completes_indexUnload hw idle hu
    rwa [absent] at done
  · intro p i x n s loaded unloads unused
    exact completes_indexUnloadDone loaded unloads unused
  · intro p chute seq sram c x s h loaded new least most aligned
    refine completes_winStart (by rfl) h loaded new (if_neg ?_)
    rintro (zero | many | unaligned)
    · exact least zero
    · omega
    · exact unaligned aligned
  · intro p chute seq c x s u h loaded begun left does
    refine completes_winWork (by rfl) h loaded begun ?_
    exact (if_neg (Nat.not_le.mpr left)).trans (work_run does)
  · intro p chute seq sram c x s h loaded begun last
    exact completes_winWork (by rfl) h loaded begun (if_pos last)
  · intro p chute seq c x s h loaded begun left admitted
    refine completes_winWork (by rfl) h loaded begun ?_
    exact (if_neg (Nat.not_le.mpr left)).trans (if_pos ⟨rfl, admitted⟩)
  · intro i op hi p chute seq c x s h loaded new legal
    simp only [List.mem_cons, List.not_mem_nil, or_false, Prod.mk.injEq] at hi
    obtain ⟨rfl, rfl⟩ | ⟨rfl, rfl⟩ := hi
    all_goals exact completes_winStart (by rfl) h loaded new (if_pos legal)
  · intro i op w hi p chute seq c x s u h loaded begun left stage allocated acked does
    simp only [List.mem_cons, List.not_mem_nil, or_false, Prod.mk.injEq] at hi
    obtain ⟨rfl, rfl, rfl⟩ | ⟨rfl, rfl, rfl⟩ := hi
    · exact completes_indexInsert_item h loaded begun stage allocated left (work_run does)
    · exact completes_indexDelete_item h loaded begun stage left acked (work_run does)
  · intro i op hi p chute seq c x s h loaded begun last stage allocated kept acked unsealing
    simp only [List.mem_cons, List.not_mem_nil, or_false, Prod.mk.injEq] at hi
    obtain ⟨rfl, rfl⟩ | ⟨rfl, rfl⟩ := hi
    · exact completes_indexInsert_last h loaded begun stage allocated last (itemsDone_ends kept acked unsealing)
    · exact completes_indexDelete_last h loaded begun stage last (itemsDone_ends kept acked unsealing)
  · rintro p chute seq c x n s h loaded new young published rfl least most inside
    refine completes_winStart (by rfl) h loaded new ((if_neg ?_).trans (if_neg ?_))
    · simp [young, published]
    · omega
  · intro p chute seq c x s h loaded new old
    exact completes_winStart (by rfl) h loaded new (if_pos (Or.inl old))
  · intro p chute seq c x s u h loaded begun allocated young stage left does
    exact completes_indexCompact_next h loaded begun allocated young stage left (work_run does)
  · intro p i x e chute seq l c s u loaded oldest done hu command below
    have ends := completes_epochPublish loaded oldest done hu command
    rwa [if_neg (Nat.not_le.mpr below)] at ends
  · intro p i x e chute seq l c s u loaded oldest done hu command limit
    have ends := completes_epochPublish loaded oldest done hu command
    rwa [if_pos limit] at ends
  · intro p i block x z c y s u loaded found command left written good
    exact completes_blockSeal_counts loaded found command left written good
  · intro p i block x z c s u loaded found command last hu
    exact completes_blockSeal_last loaded found command last hu
  · intro p chute seq c x s u command waits runs loaded op does
    exact completes_deferredAllocation_insert command waits runs loaded op does

end

/-! PROOFS for 12_reliability_and_field_test.md and 13_power_clocks_boot_and_security.md: what stops the part, what a stopped part does, the fuses. -/

namespace Sys2Proof.Machine

/-! ### What stops the part (R353, R356, R393) -/

/-- A replay of the package network before the sixteenth in a row is at most counted (R353). -/
theorem calm_execReplay_early {k d : Fin 10} {row : BitVec 5} {s t : State} (e : execPackageNetworkReplay k d row s = .next t) (early : row.toNat < 16) :
    Calm s t := by
  refine calm_act e (Calm.refl s) ?_
  dsimp only
  rw [if_neg (Nat.not_le.mpr early)]
  exact calm_ite (fun _ => calm_count (Calm.refl s)) (fun _ => Calm.refl s)

/-- Every other command leaves the part running: most are calm, and the resets, boots, transfers' ends and register writes have a lemma each. -/
theorem goes_exec {i : Instr} {s t : State} (e : exec i s = .next t) (loss : i ≠ .powerLoss) (fatal : ∀ cause tiles, i ≠ .fatalError cause tiles)
    (replay : ∀ k d row, i = .packageNetworkReplay k d row → row.toNat < 16) : Goes s t := by
  cases i with
  | registerPairLowRead => exact (calm_execRegisterPairLowRead e (Calm.refl s)).goes
  | registerPairLowWrite => exact goes_execRegisterPairLowWrite e
  | registerPairHighWrite => exact goes_execRegisterPairHighWrite e
  | registerWrite => exact goes_execRegisterWrite e
  | violClear _ v => exact (calm_execViolClear (a2 := v) e (Calm.refl s)).goes
  | admitPartition => exact (calm_execAdmitPartition e (Calm.refl s)).goes
  | releasePartition => exact (calm_execReleasePartition e (Calm.refl s)).goes
  | partitionDrained => exact (calm_execPartitionDrained e (Calm.refl s)).goes
  | partitionReset _ _ v => exact (calm_execPartitionReset (a3 := v) e (Calm.refl s)).goes
  | chuteEnable => exact (calm_execChuteEnable e (Calm.refl s)).goes
  | chuteRegisterDone => exact (calm_execChuteRegisterDone e (Calm.refl s)).goes
  | chuteDisable => exact (calm_execChuteDisable e (Calm.refl s)).goes
  | chuteDisableDone => exact (calm_execChuteDisableDone e (Calm.refl s)).goes
  | cplEnable => exact (calm_execCplEnable e (Calm.refl s)).goes
  | cplHeadWrite => exact (calm_execCplHeadWrite e (Calm.refl s)).goes
  | mboxHeadWrite => exact (calm_execMboxHeadWrite e (Calm.refl s)).goes
  | chuteStore => exact (calm_execChuteStore e (Calm.refl s)).goes
  | holdLimitExpire => exact (calm_execHoldLimitExpire e (Calm.refl s)).goes
  | packetTransfer => exact (calm_execPacketTransfer e (Calm.refl s)).goes
  | fifoPacketReceive => exact (calm_execFifoPacketReceive e (Calm.refl s)).goes
  | commandStart => exact (calm_execCommandStart e (Calm.refl s)).goes
  | deadlineExpire => exact (calm_execDeadlineExpire e (Calm.refl s)).goes
  | completionRecordWrite => exact (calm_execCompletionRecordWrite e (Calm.refl s)).goes
  | abortCommand => exact (calm_execAbortCommand e (Calm.refl s)).goes
  | resumeFault => exact (calm_execResumeFault e (Calm.refl s)).goes
  | faultPop _ _ v => exact (calm_execFaultPop (a3 := v) e (Calm.refl s)).goes
  | meProgram => exact (calm_execMeProgram e (Calm.refl s)).goes
  | loadTile => exact (calm_execLoadTile e (Calm.refl s)).goes
  | mma => exact (calm_execMma e (Calm.refl s)).goes
  | helperRerun => exact (calm_execHelperRerun e (Calm.refl s)).goes
  | quant => exact (calm_execQuant e (Calm.refl s)).goes
  | storeTile => exact (calm_execStoreTile e (Calm.refl s)).goes
  | meSemWait => exact (calm_execMeSemWait e (Calm.refl s)).goes
  | meSemSignal => exact (calm_execMeSemSignal e (Calm.refl s)).goes
  | meQuarantine => exact (calm_execMeQuarantine e (Calm.refl s)).goes
  | quarantineAtBoundary => exact (calm_execQuarantineAtBoundary e (Calm.refl s)).goes
  | meUnquarantine => exact (calm_execMeUnquarantine e (Calm.refl s)).goes
  | escTableEnable => exact (calm_execEscTableEnable e (Calm.refl s)).goes
  | escTableClear => exact (calm_execEscTableClear e (Calm.refl s)).goes
  | gcRun => exact (calm_execGcRun e (Calm.refl s)).goes
  | gcRunEnd => exact (calm_execGcRunEnd e (Calm.refl s)).goes
  | ecall => exact (calm_execEcall e (Calm.refl s)).goes
  | ebreak => exact (calm_execEbreak e (Calm.refl s)).goes
  | illegalInstruction => exact (calm_execIllegalInstruction e (Calm.refl s)).goes
  | gcLoad => exact (calm_execGcLoad e (Calm.refl s)).goes
  | gcStore => exact (calm_execGcStore e (Calm.refl s)).goes
  | gcInstructionFetch => exact (calm_execGcInstructionFetch e (Calm.refl s)).goes
  | fence => exact (calm_execFence e (Calm.refl s)).goes
  | fenceI => exact (calm_execFenceI e (Calm.refl s)).goes
  | amoadd => exact (calm_execAmoadd e (Calm.refl s)).goes
  | amomin => exact (calm_execAmomin e (Calm.refl s)).goes
  | amomax => exact (calm_execAmomax e (Calm.refl s)).goes
  | amominu => exact (calm_execAmominu e (Calm.refl s)).goes
  | amomaxu => exact (calm_execAmomaxu e (Calm.refl s)).goes
  | amoswap => exact (calm_execAmoswap e (Calm.refl s)).goes
  | amoand => exact (calm_execAmoand e (Calm.refl s)).goes
  | amoor => exact (calm_execAmoor e (Calm.refl s)).goes
  | amoxor => exact (calm_execAmoxor e (Calm.refl s)).goes
  | lr => exact (calm_execLr e (Calm.refl s)).goes
  | sc => exact (calm_execSc e (Calm.refl s)).goes
  | gcBxw => exact (calm_execGcBxw e (Calm.refl s)).goes
  | gcBxc => exact (calm_execGcBxc e (Calm.refl s)).goes
  | gcDq => exact (calm_execGcDq e (Calm.refl s)).goes
  | gcKmrg => exact (calm_execGcKmrg e (Calm.refl s)).goes
  | gcSemsig => exact (calm_execGcSemsig e (Calm.refl s)).goes
  | gcSemwait => exact (calm_execGcSemwait e (Calm.refl s)).goes
  | gcSemrd => exact (calm_execGcSemrd e (Calm.refl s)).goes
  | gcDcln => exact (calm_execGcDcln e (Calm.refl s)).goes
  | gcDinv => exact (calm_execGcDinv e (Calm.refl s)).goes
  | gcCas => exact (calm_execGcCas e (Calm.refl s)).goes
  | gcAmofadd => exact (calm_execGcAmofadd e (Calm.refl s)).goes
  | gcTag => exact (calm_execGcTag e (Calm.refl s)).goes
  | gcQuarantine => exact (calm_execGcQuarantine e (Calm.refl s)).goes
  | gcUnquarantine => exact (calm_execGcUnquarantine e (Calm.refl s)).goes
  | t0Scrub => exact (calm_execT0Scrub e (Calm.refl s)).goes
  | t1Scrub => exact (calm_execT1Scrub e (Calm.refl s)).goes
  | moveCopy => exact (calm_execMoveCopy e (Calm.refl s)).goes
  | movePlace => exact (calm_execMovePlace e (Calm.refl s)).goes
  | moveFree => exact (calm_execMoveFree e (Calm.refl s)).goes
  | moveZero => exact (calm_execMoveZero e (Calm.refl s)).goes
  | moveChannelTake => exact (calm_execMoveChannelTake e (Calm.refl s)).goes
  | loftWriteStage => exact (calm_execLoftWriteStage e (Calm.refl s)).goes
  | loftStripeProgram => exact (calm_execLoftStripeProgram e (Calm.refl s)).goes
  | loftProgramDone => exact (calm_execLoftProgramDone e (Calm.refl s)).goes
  | loftGc => exact (calm_execLoftGc e (Calm.refl s)).goes
  | loftWearMove => exact (calm_execLoftWearMove e (Calm.refl s)).goes
  | loftRead => exact (calm_execLoftRead e (Calm.refl s)).goes
  | loftReadDone => exact (calm_execLoftReadDone e (Calm.refl s)).goes
  | lowerTierLate => exact (calm_execLowerTierLate e (Calm.refl s)).goes
  | loftStatusTimeout => exact (calm_execLoftStatusTimeout e (Calm.refl s)).goes
  | loftRebuildStripe => exact (calm_execLoftRebuildStripe e (Calm.refl s)).goes
  | loftChannelReset => exact (calm_execLoftChannelReset e (Calm.refl s)).goes
  | loftChannelRetire => exact (calm_execLoftChannelRetire e (Calm.refl s)).goes
  | loftTrim => exact (calm_execLoftTrim e (Calm.refl s)).goes
  | loftReady => exact (calm_execLoftReady e (Calm.refl s)).goes
  | mirrorCommit => exact (calm_execMirrorCommit e (Calm.refl s)).goes
  | mirrorClear => exact (calm_execMirrorClear e (Calm.refl s)).goes
  | mirrorDetach => exact (calm_execMirrorDetach e (Calm.refl s)).goes
  | mirrorRebuild => exact (calm_execMirrorRebuild e (Calm.refl s)).goes
  | mirrorPartnerUnreachable => exact (calm_execMirrorPartnerUnreachable e (Calm.refl s)).goes
  | mirrorPartnerReachable => exact (calm_execMirrorPartnerReachable e (Calm.refl s)).goes
  | mirrorPromoted => exact (calm_execMirrorPromoted e (Calm.refl s)).goes
  | mirrorCopySegment => exact (calm_execMirrorCopySegment e (Calm.refl s)).goes
  | mirrorCopyDone => exact (calm_execMirrorCopyDone e (Calm.refl s)).goes
  | queueTimeTranslate => exact (calm_execQueueTimeTranslate e (Calm.refl s)).goes
  | xltEnable => exact (calm_execXltEnable e (Calm.refl s)).goes
  | xltDisable _ _ v => exact (calm_execXltDisable (a3 := v) e (Calm.refl s)).goes
  | xltInvalidate => exact (calm_execXltInvalidate e (Calm.refl s)).goes
  | xltInvalidateAll => exact (calm_execXltInvalidateAll e (Calm.refl s)).goes
  | xltInvalidateDone => exact (calm_execXltInvalidateDone e (Calm.refl s)).goes
  | releaseFence => exact (calm_execReleaseFence e (Calm.refl s)).goes
  | memRd => exact (calm_execMemRd e (Calm.refl s)).goes
  | memRdData => exact (calm_execMemRdData e (Calm.refl s)).goes
  | memInv => exact (calm_execMemInv e (Calm.refl s)).goes
  | memClnEvct => exact (calm_execMemClnEvct e (Calm.refl s)).goes
  | memWr => exact (calm_execMemWr e (Calm.refl s)).goes
  | memSpecRd ld hpa => exact (calm_execMemSpecRd (a1 := ld) (a2 := hpa) e (Calm.refl s)).goes
  | memRdFwd => exact (calm_execMemRdFwd e (Calm.refl s)).goes
  | memWrFwd => exact (calm_execMemWrFwd e (Calm.refl s)).goes
  | biRsp => exact (calm_execBiRsp e (Calm.refl s)).goes
  | biConflict => exact (calm_execBiConflict e (Calm.refl s)).goes
  | biTimeout => exact (calm_execBiTimeout e (Calm.refl s)).goes
  | conflictQueueAccept => exact (calm_execConflictQueueAccept e (Calm.refl s)).goes
  | rd => exact (calm_execRd e (Calm.refl s)).goes
  | wr => exact (calm_execWr e (Calm.refl s)).goes
  | wrp => exact (calm_execWrp e (Calm.refl s)).goes
  | atom => exact (calm_execAtom e (Calm.refl s)).goes
  | combinedPacket => exact (calm_execCombinedPacket e (Calm.refl s)).goes
  | mwr => exact (calm_execMwr e (Calm.refl s)).goes
  | mack => exact (calm_execMack e (Calm.refl s)).goes
  | rdata => exact (calm_execRdata e (Calm.refl s)).goes
  | wack => exact (calm_execWack e (Calm.refl s)).goes
  | nak => exact (calm_execNak e (Calm.refl s)).goes
  | pinv => exact (calm_execPinv e (Calm.refl s)).goes
  | pinvack => exact (calm_execPinvack e (Calm.refl s)).goes
  | unknownTypeDiscard => exact (calm_execUnknownTypeDiscard e (Calm.refl s)).goes
  | hostLost => exact (calm_execHostLost e (Calm.refl s)).goes
  | dirHostLostGo => exact (calm_execDirHostLostGo e (Calm.refl s)).goes
  | hostLostScanDone => exact (calm_execHostLostScanDone e (Calm.refl s)).goes
  | dirPeek => exact (calm_execDirPeek e (Calm.refl s)).goes
  | extentReleasePoint => exact (calm_execExtentReleasePoint e (Calm.refl s)).goes
  | extentReleaseComplete => exact (calm_execExtentReleaseComplete e (Calm.refl s)).goes
  | fabricRequestSend => exact (calm_execFabricRequestSend e (Calm.refl s)).goes
  | flitReceive => exact (calm_execFlitReceive e (Calm.refl s)).goes
  | ackTimeout => exact (calm_execAckTimeout e (Calm.refl s)).goes
  | portTransmit => exact (calm_execPortTransmit e (Calm.refl s)).goes
  | combineHoldExpire => exact (calm_execCombineHoldExpire e (Calm.refl s)).goes
  | spillReturn => exact (calm_execSpillReturn e (Calm.refl s)).goes
  | packetAged => exact (calm_execPacketAged e (Calm.refl s)).goes
  | requestTimeout => exact (calm_execRequestTimeout e (Calm.refl s)).goes
  | pathLost => exact (calm_execPathLost e (Calm.refl s)).goes
  | linkEnable => exact (calm_execLinkEnable e (Calm.refl s)).goes
  | linkDisable => exact (calm_execLinkDisable e (Calm.refl s)).goes
  | linkDrain => exact (calm_execLinkDrain e (Calm.refl s)).goes
  | trainingPass => exact (calm_execTrainingPass e (Calm.refl s)).goes
  | trainingFail => exact (calm_execTrainingFail e (Calm.refl s)).goes
  | linkQuiet => exact (calm_execLinkQuiet e (Calm.refl s)).goes
  | msgSend => exact (calm_execMsgSend e (Calm.refl s)).goes
  | msgOpen => exact (calm_execMsgOpen e (Calm.refl s)).goes
  | msgAccept => exact (calm_execMsgAccept e (Calm.refl s)).goes
  | msgFull => exact (calm_execMsgFull e (Calm.refl s)).goes
  | msgData => exact (calm_execMsgData e (Calm.refl s)).goes
  | mailboxDeliver => exact (calm_execMailboxDeliver e (Calm.refl s)).goes
  | msgDone => exact (calm_execMsgDone e (Calm.refl s)).goes
  | mboxEnable => exact (calm_execMboxEnable e (Calm.refl s)).goes
  | rowDirEnable => exact (calm_execRowDirEnable e (Calm.refl s)).goes
  | embLookup => exact (calm_execEmbLookup e (Calm.refl s)).goes
  | cribAge => exact (calm_execCribAge e (Calm.refl s)).goes
  | contribute => exact (calm_execContribute e (Calm.refl s)).goes
  | apply => exact (calm_execApply e (Calm.refl s)).goes
  | arenaRecordForward => exact (calm_execArenaRecordForward e (Calm.refl s)).goes
  | embConvert => exact (calm_execEmbConvert e (Calm.refl s)).goes
  | hotsetRefresh => exact (calm_execHotsetRefresh e (Calm.refl s)).goes
  | migrateRow => exact (calm_execMigrateRow e (Calm.refl s)).goes
  | migrateCutover => exact (calm_execMigrateCutover e (Calm.refl s)).goes
  | departedLapse => exact (calm_execDepartedLapse e (Calm.refl s)).goes
  | rowQuarantine => exact (calm_execRowQuarantine e (Calm.refl s)).goes
  | rowUnquarantine => exact (calm_execRowUnquarantine e (Calm.refl s)).goes
  | winDirEnable => exact (calm_execWinDirEnable e (Calm.refl s)).goes
  | indexLoad => exact (calm_execIndexLoad e (Calm.refl s)).goes
  | indexUnload => exact (calm_execIndexUnload e (Calm.refl s)).goes
  | indexUnloadDone => exact (calm_execIndexUnloadDone e (Calm.refl s)).goes
  | search => exact (calm_execSearch e (Calm.refl s)).goes
  | indexInsert => exact (calm_execIndexInsert e (Calm.refl s)).goes
  | indexDelete => exact (calm_execIndexDelete e (Calm.refl s)).goes
  | indexCompact => exact (calm_execIndexCompact e (Calm.refl s)).goes
  | blockSeal => exact (calm_execBlockSeal e (Calm.refl s)).goes
  | epochPublish => exact (calm_execEpochPublish e (Calm.refl s)).goes
  | deferredAllocation => exact (calm_execDeferredAllocation e (Calm.refl s)).goes
  | winQuarantine => exact (calm_execWinQuarantine e (Calm.refl s)).goes
  | winUnquarantine => exact (calm_execWinUnquarantine e (Calm.refl s)).goes
  | semSignal => exact (calm_execSemSignal e (Calm.refl s)).goes
  | semWait => exact (calm_execSemWait e (Calm.refl s)).goes
  | waitSatisfied => exact (calm_execWaitSatisfied e (Calm.refl s)).goes
  | semWaitTimeout => exact (calm_execSemWaitTimeout e (Calm.refl s)).goes
  | semValWrite => exact (calm_execSemValWrite e (Calm.refl s)).goes
  | semAdd => exact (calm_execSemAdd e (Calm.refl s)).goes
  | semSet => exact (calm_execSemSet e (Calm.refl s)).goes
  | barrier => exact (calm_execBarrier e (Calm.refl s)).goes
  | barArrive => exact (calm_execBarArrive e (Calm.refl s)).goes
  | barRelease => exact (calm_execBarRelease e (Calm.refl s)).goes
  | propose => exact (calm_execPropose e (Calm.refl s)).goes
  | proposeMsg => exact (calm_execProposeMsg e (Calm.refl s)).goes
  | prepare => exact (calm_execPrepare e (Calm.refl s)).goes
  | commit => exact (calm_execCommit e (Calm.refl s)).goes
  | compAbort => exact (calm_execCompAbort e (Calm.refl s)).goes
  | sack => exact (calm_execSack e (Calm.refl s)).goes
  | compTimeout => exact (calm_execCompTimeout e (Calm.refl s)).goes
  | query => exact (calm_execQuery e (Calm.refl s)).goes
  | down => exact (calm_execDown e (Calm.refl s)).goes
  | digest => exact (calm_execDigest e (Calm.refl s)).goes
  | digestVote => exact (calm_execDigestVote e (Calm.refl s)).goes
  | digWaitExpire => exact (calm_execDigWaitExpire e (Calm.refl s)).goes
  | fatalError cause tiles => exact absurd rfl (fatal cause tiles)
  | ceSummary => exact (calm_execCeSummary e (Calm.refl s)).goes
  | recordResend => exact (calm_execRecordResend e (Calm.refl s)).goes
  | recordAck => exact (calm_execRecordAck e (Calm.refl s)).goes
  | getRecords => exact (calm_execGetRecords e (Calm.refl s)).goes
  | ackRecords => exact (calm_execAckRecords e (Calm.refl s)).goes
  | ftGo => exact (calm_execFtGo e (Calm.refl s)).goes
  | ftCancel => exact (calm_execFtCancel e (Calm.refl s)).goes
  | ftTake => exact (calm_execFtTake e (Calm.refl s)).goes
  | ftRetry => exact (calm_execFtRetry e (Calm.refl s)).goes
  | ftExpire => exact (calm_execFtExpire e (Calm.refl s)).goes
  | ftNominalPass => exact (calm_execFtNominalPass e (Calm.refl s)).goes
  | ftMarginPass => exact (calm_execFtMarginPass e (Calm.refl s)).goes
  | clockGate => exact (calm_execClockGate e (Calm.refl s)).goes
  | powerGate => exact (calm_execPowerGate e (Calm.refl s)).goes
  | pllStop => exact (calm_execPllStop e (Calm.refl s)).goes
  | selfRefresh => exact (calm_execSelfRefresh e (Calm.refl s)).goes
  | wakeDone => exact (calm_execWakeDone e (Calm.refl s)).goes
  | standby _ v => exact (calm_execStandby (a2 := v) e (Calm.refl s)).goes
  | runNode _ v => exact (calm_execRunNode (a2 := v) e (Calm.refl s)).goes
  | runDone => exact (calm_execRunDone e (Calm.refl s)).goes
  | powerTick => exact (calm_execPowerTick e (Calm.refl s)).goes
  | powerLoss => exact absurd rfl loss
  | coldReset => exact goes_execColdReset e
  | warmReset => exact goes_execWarmReset e
  | boot => exact goes_execBoot e
  | bootWatchdog => exact goes_execBootWatchdog e
  | unitReset => exact (calm_execUnitReset e (Calm.refl s)).goes
  | perstNAssert => exact (calm_execPerstNAssert e (Calm.refl s)).goes
  | perstNDeassert => exact (calm_execPerstNDeassert e (Calm.refl s)).goes
  | cxlPortReady => exact (calm_execCxlPortReady e (Calm.refl s)).goes
  | ideFail => exact (calm_execIdeFail e (Calm.refl s)).goes
  | swap _ v => exact (calm_execSwap (a2 := v) e (Calm.refl s)).goes
  | paramCheckDone => exact (calm_execParamCheckDone e (Calm.refl s)).goes
  | setTrial => exact (calm_execSetTrial e (Calm.refl s)).goes
  | newChallenge _ v => exact (calm_execNewChallenge (a2 := v) e (Calm.refl s)).goes
  | relock _ v => exact goes_execRelock (v := v) e
  | debugToken => exact goes_execDebugToken e
  | objBegin => exact (calm_execObjBegin e (Calm.refl s)).goes
  | objData => exact (calm_execObjData e (Calm.refl s)).goes
  | objEnd => exact goes_execObjEnd e
  | objAbort => exact (calm_execObjAbort e (Calm.refl s)).goes
  | transferTimeout => exact (calm_execTransferTimeout e (Calm.refl s)).goes
  | quote => exact (calm_execQuote e (Calm.refl s)).goes
  | kemKey => exact (calm_execKemKey e (Calm.refl s)).goes
  | sessionOpen => exact (calm_execSessionOpen e (Calm.refl s)).goes
  | sessionMsg => exact (calm_execSessionMsg e (Calm.refl s)).goes
  | identifyDevice => exact (calm_execIdentifyDevice e (Calm.refl s)).goes
  | identifyMemoryDevice => exact (calm_execIdentifyMemoryDevice e (Calm.refl s)).goes
  | getSupportedLogs => exact (calm_execGetSupportedLogs e (Calm.refl s)).goes
  | getLog => exact (calm_execGetLog e (Calm.refl s)).goes
  | getEventRecords => exact (calm_execGetEventRecords e (Calm.refl s)).goes
  | clearEventRecords => exact (calm_execClearEventRecords e (Calm.refl s)).goes
  | getEventInterruptPolicy => exact (calm_execGetEventInterruptPolicy e (Calm.refl s)).goes
  | setEventInterruptPolicy => exact (calm_execSetEventInterruptPolicy e (Calm.refl s)).goes
  | getDynamicCapacityConfig => exact (calm_execGetDynamicCapacityConfig e (Calm.refl s)).goes
  | getDynamicCapacityExtentList => exact (calm_execGetDynamicCapacityExtentList e (Calm.refl s)).goes
  | addDynamicCapacityResponse => exact (calm_execAddDynamicCapacityResponse e (Calm.refl s)).goes
  | releaseDynamicCapacity => exact (calm_execReleaseDynamicCapacity e (Calm.refl s)).goes
  | injectPoison => exact (calm_execInjectPoison e (Calm.refl s)).goes
  | clearPoison => exact (calm_execClearPoison e (Calm.refl s)).goes
  | getLdInfo => exact (calm_execGetLdInfo e (Calm.refl s)).goes
  | getLdAllocations => exact (calm_execGetLdAllocations e (Calm.refl s)).goes
  | setLdAllocations => exact (calm_execSetLdAllocations e (Calm.refl s)).goes
  | getDcRegionConfiguration => exact (calm_execGetDcRegionConfiguration e (Calm.refl s)).goes
  | getDcRegionExtentLists => exact (calm_execGetDcRegionExtentLists e (Calm.refl s)).goes
  | initiateDynamicCapacityAdd => exact (calm_execInitiateDynamicCapacityAdd e (Calm.refl s)).goes
  | initiateDynamicCapacityRelease => exact (calm_execInitiateDynamicCapacityRelease e (Calm.refl s)).goes
  | unsupportedMailboxCommand => exact (calm_execUnsupportedMailboxCommand e (Calm.refl s)).goes
  | arpRequest => exact (calm_execArpRequest e (Calm.refl s)).goes
  | icmpEcho => exact (calm_execIcmpEcho e (Calm.refl s)).goes
  | setDasa => exact (calm_execSetDasa e (Calm.refl s)).goes
  | entDaa => exact (calm_execEntDaa e (Calm.refl s)).goes
  | setEndpointId => exact (calm_execSetEndpointId e (Calm.refl s)).goes
  | getEndpointId => exact (calm_execGetEndpointId e (Calm.refl s)).goes
  | getVersionSupport => exact (calm_execGetVersionSupport e (Calm.refl s)).goes
  | getMessageTypeSupport => exact (calm_execGetMessageTypeSupport e (Calm.refl s)).goes
  | sclClear => exact (calm_execSclClear e (Calm.refl s)).goes
  | startAll _ v => exact (calm_execStartAll (a2 := v) e (Calm.refl s)).goes
  | stopAll _ v => exact (calm_execStopAll (a2 := v) e (Calm.refl s)).goes
  | clearAll _ v => exact (calm_execClearAll (a2 := v) e (Calm.refl s)).goes
  | sclEvselWrite => exact (calm_execSclEvselWrite e (Calm.refl s)).goes
  | bwWindowEnd => exact (calm_execBwWindowEnd e (Calm.refl s)).goes
  | samplingEnable => exact (calm_execSamplingEnable e (Calm.refl s)).goes
  | sclSmpPop _ _ v => exact (calm_execSclSmpPop (a3 := v) e (Calm.refl s)).goes
  | tallyStart _ _ v => exact (calm_execTallyStart (a3 := v) e (Calm.refl s)).goes
  | tallyStop _ _ v => exact (calm_execTallyStop (a3 := v) e (Calm.refl s)).goes
  | tallyClear _ _ v => exact (calm_execTallyClear (a3 := v) e (Calm.refl s)).goes
  | tallyScan _ _ v => exact (calm_execTallyScan (a3 := v) e (Calm.refl s)).goes
  | tallyTrained => exact (calm_execTallyTrained e (Calm.refl s)).goes
  | tallyTrainTimeout => exact (calm_execTallyTrainTimeout e (Calm.refl s)).goes
  | tallyDurationEnd => exact (calm_execTallyDurationEnd e (Calm.refl s)).goes
  | tallyLockLost => exact (calm_execTallyLockLost e (Calm.refl s)).goes
  | eyeScanDone => exact (calm_execEyeScanDone e (Calm.refl s)).goes
  | cxlLinkUp => exact (calm_execCxlLinkUp e (Calm.refl s)).goes
  | loftEraseDone => exact (calm_execLoftEraseDone e (Calm.refl s)).goes
  | loftChannelRetrained => exact (calm_execLoftChannelRetrained e (Calm.refl s)).goes
  | tallyLaneLock => exact (calm_execTallyLaneLock e (Calm.refl s)).goes
  | packageNetworkReplay k d row => exact (calm_execReplay_early e (replay k d row rfl)).goes
  | standbyDone => exact (calm_execStandbyDone e (Calm.refl s)).goes
  | cxlConfigRequest => exact (calm_execCxlConfigRequest e (Calm.refl s)).goes
  | managementLinkChange => exact (calm_execManagementLinkChange e (Calm.refl s)).goes
  | managementFrameDrop port => exact (calm_execManagementFrameDrop (a1 := port) e (Calm.refl s)).goes

/-- A fatal event stops it (R356). -/
theorem completes_fatalError_stops {cause : Fin 3} {tiles : Nat} {s : State} : Completes (.fatalError cause tiles) s fun t => t.stopped = true :=
  completes_act (by rfl) rfl

/-- So does the sixteenth replay in a row, and any after it (R353). -/
theorem completes_replay_stops {k d : Fin 10} {row : BitVec 5} {s : State} (late : 16 ≤ row.toNat) :
    Completes (.packageNetworkReplay k d row) s fun t => t.stopped = true := by
  refine completes_act (by rfl) ?_
  dsimp only
  rw [if_pos late]
  rfl

/-- Once the part has stopped, a command that is no cold reset, no warm reset by RST_N and no loss of power has no effect (R356, R393). -/
theorem exec_stopped {i : Instr} {s : State} (h : s.stopped = true) (cold : i ≠ .coldReset) (loss : i ≠ .powerLoss) (warm : i ≠ .warmReset none) :
    exec i s = .next s := by
  delta exec
  cases i with
  | coldReset => exact absurd rfl cold
  | powerLoss => exact absurd rfl loss
  | warmReset b =>
    cases b with
    | none => exact absurd rfl warm
    | some x =>
      show execWarmReset (some x) s = _
      unfold execWarmReset
      exact act_stopped h
  | _ => exact act_stopped h

/-- Without power RST_N does nothing (R394). -/
theorem exec_warmReset_off {s : State} (h : s.power.off = true) : exec (.warmReset none) s = .next s := by
  show execWarmReset none s = _
  unfold execWarmReset
  dsimp only
  rw [if_pos h]

/-- A step, be it a command or the tick, unburns no fuse (R406): the queue it takes the command from says nothing of them. -/
theorem fusesKept_step {s t : State} (e : step s = .next t) : FusesKept s t := by
  unfold step at e
  split at e
  · injection e with e
    subst e
    exact (steady_tick s).fuses
  · refine FusesKept.trans ?_ (steady_exec e).fuses
    exact FusesKept.of_eq rfl

end Sys2Proof.Machine

section

open Sys2Proof Sys2Proof.Machine

/-- Settles O8: a command that is none of the three leaves the part running (goes_exec), and each of the three stops it by its definition. -/
theorem whatStopsThePart : Obligations.WhatStopsThePart := by
  unfold Obligations.WhatStopsThePart
  refine ⟨fun c s t runs e stops => ?_, fun c s runs stops => ?_⟩
  · refine Classical.byContradiction fun other => ?_
    obtain ⟨loss, fatal, replay⟩ := not_or.mp other |>.imp_right not_or.mp
    have goes : Goes s t := goes_exec e loss (fun cause tiles h => fatal ⟨cause, tiles, h⟩)
      (fun k d row h => Nat.lt_of_not_le fun late => replay ⟨k, d, row, h, late⟩)
    rw [goes stops] at runs
    cases runs
  · obtain rfl | ⟨cause, tiles, rfl⟩ | ⟨k, d, row, rfl, late⟩ := stops
    · exact ⟨_, rfl, rfl⟩
    · exact completes_fatalError_stops runs
    · exact completes_replay_stops late runs

/-- Settles O7: a stopped part answers itself (exec_stopped), and so does one without power to a reset by RST_N. -/
theorem aStoppedPartStays : Obligations.AStoppedPartStays := by
  unfold Obligations.AStoppedPartStays
  refine ⟨fun c s t stopped cold loss warm e => ?_, fun s t off e => ?_⟩
  · rw [exec_stopped stopped cold loss warm] at e
    injection e with e
    exact e.symm
  · rw [exec_warmReset_off off] at e
    injection e with e
    exact e.symm

/-- Settles O5: resets, boots, power loss and fatal errors keep the fuses in order as every other command does (steady_exec, steady_tick). -/
theorem fusesNeverUnburn : Obligations.FusesNeverUnburn := by
  unfold Obligations.FusesNeverUnburn
  exact fun s t e => fusesKept_step e

end

/-! PROOFS for 11_synchronisation_and_compositions.md: proposals and what sequencer and members do with them, digests and their votes. -/

namespace Sys2Proof.Machine

section Message

variable {k : Packet} {s u : State}

/-- A DIGEST message that its epoch lets run is a vote at the member partition. -/
theorem judgeSync_digest {x : Comp} {err : Fin 3} (ht : k.typ = syDigest) (h : s.epochCheck k.comp k.epoch k.src (fun _ => true) = .run)
    (hx : s.comp k.comp = some x) : s.judgeSync k err = s.runVote k x.part := by
  rw [judgeSync_other (by rw [ht]; decide) (by rw [ht]; decide) h]
  simp [State.runSync, hx, ht, syDigest, syRelease, syArrive, syAdd, sySet]

/-- Where no command waits for its step, a vote is kept and acknowledged. -/
theorem runVote_kept {p : Nat} {v : State} (hv : v = (s.putVote p k.sync2 k.src (wordsNum k.body 4 4)).endRequest k stOk 0 0 false)
    (nobody : v.voting p k.sync2 = none) : s.runVote k p = v := by
  subst hv
  unfold State.runVote
  dsimp only
  rw [nobody]

end Message

end Sys2Proof.Machine

section

open Sys2Proof Sys2Proof.Machine

/-- Settles O41: a message that its window lets through takes the branch that the proposal in progress chooses, a digest the branch of its stage. -/
theorem compositionsAndVotes : Obligations.CompositionsAndVotes := by
  unfold Obligations.CompositionsAndVotes
  refine ⟨?_, ?_, ?_, ?_, ?_, ?_, ?_, ?_, ?_, ?_, ?_, ?_, ?_, ?_, ?_, ?_, ?_, ?_⟩
  · rintro rq p v c k s u hw idle member rfl
    refine completes_access (by rfl) hw ?_
    dsimp only
    rw [if_neg (Bool.eq_false_iff.mp idle), member]
  · rintro rq p v s u hw idle alone rfl empty
    refine completes_access (by rfl) hw ?_
    dsimp only
    rw [if_neg (Bool.eq_false_iff.mp idle), alone]
    exact if_pos empty
  · rintro k list n ws s u hk he room rfl rfl
    refine completes_onSync (by rfl) hk he ?_
    exact if_neg (Nat.not_le.mpr room)
  · intro k list s u hk he full
    refine completes_onSync (by rfl) hk he ?_
    exact if_pos full
  · rintro k list l m s u hk he rfl clear member
    refine completes_onSync (by rfl) hk he ?_
    refine (if_neg (not_not_intro clear)).trans ?_
    dsimp only
    rw [member]
  · rintro k list r s u hk he rfl against
    refine completes_onSync (by rfl) hk he ?_
    exact if_pos against
  · intro k q s u hk he prepared
    refine completes_onSync (by rfl) hk he ?_
    dsimp only
    rw [prepared]
  · intro k q s u hk he prepared
    refine completes_onSync (by rfl) hk he ?_
    dsimp only
    rw [prepared]
    rfl
  · rintro k d s u hk he rfl
    exact completes_onSync (by rfl) hk he rfl
  · intro k s u hk he
    exact completes_onSync (by rfl) hk he rfl
  · rintro k r p ch q st s u proto typ rfl waits kind waiter rfl
    refine completes_act (by rfl) ?_
    refine (if_neg (by simp [proto, typ])).trans ?_
    dsimp only
    rw [waits]
    dsimp only
    rw [if_pos kind, waiter]
  · rintro k r q s u proto typ rfl waits kind prepared commit
    refine completes_act (by rfl) ?_
    refine (if_neg (by simp [proto, typ])).trans ?_
    dsimp only
    rw [waits]
    simp [kind, syAdd, sySet, syArrive, syDigest, syPropose, syPrepare, syCommit, syQuery, State.queryAnswer, prepared, commit]
  · intro c q s prepared late
    refine completes_act (by rfl) ?_
    rw [prepared]
    exact if_neg (Nat.not_le.mpr late)
  · intro p chute seq c s h op goesOn new votes ok
    refine completes_act (by rfl) ?_
    dsimp only
    rw [h]
    dsimp only
    rw [if_neg (not_not_intro op), if_neg (by simp [goesOn]), if_pos (by simp [new]), if_neg ?_, if_neg (by simp [ok])]
    rcases votes with h | h <;> simp [h]
  · intro p chute seq c va n x g s u h op goesOn begun stage seg range ready fetched status clean
    refine completes_act (by rfl) ?_
    dsimp only
    rw [h]
    dsimp only
    rw [if_neg (not_not_intro op), if_neg (by simp [goesOn]), if_neg (by simp [begun]), if_neg stage, seg]
    dsimp only
    rw [range]
    dsimp only
    rw [whenReady_run ready, fetched]
    dsimp only
    rw [if_neg (not_not_intro status), if_neg (by simp [clean])]
  · intro p chute seq c x s h op goesOn begun stage last range
    refine completes_act (by rfl) ?_
    dsimp only
    rw [h]
    dsimp only
    rw [if_neg (not_not_intro op), if_neg (by simp [goesOn]), if_neg (by simp [begun]), if_neg stage, last]
    dsimp only
    rw [range]
  · intro k x s u v hk he run hx hv nobody
    refine completes_onSync (by rfl) hk he ?_
    exact (judgeSync_digest (Packet.typ_of_isSync hk) run hx).trans (runVote_kept hv nobody)
  · intro p chute seq c s h op stage late
    refine completes_act (by rfl) ?_
    dsimp only
    rw [h]
    exact if_pos ⟨op, stage, late⟩

end

/-! PROOFS for 12_reliability_and_field_test.md: error records, field tests. -/

namespace Sys2Proof.Machine

/-! ### Requests for field tests (R372, R381) -/

section Ask

variable {rq : Requester} {v : Word} {s u : State} (hw : s.writes rq Reg.RNG_FT_CTRL = true) (hu : u = s.store Reg.RNG_FT_CTRL v)

include hw hu

/-- A request that R372 lets in gets the next number. -/
theorem completes_ftGo_queued {k : Package} (room : u.ft.queue.length < 16) (kind : ftCount (u.regF Reg.RNG_FT_TARGET 31 28) ≠ 0)
    (target : u.regF Reg.RNG_FT_TARGET 11 0 = 0xFFF ∨ u.regF Reg.RNG_FT_TARGET 11 0 < ftCount (u.regF Reg.RNG_FT_TARGET 31 28))
    (fits : u.ftContent (u.regF Reg.RNG_FT_CONTENT 15 0) (u.regF Reg.RNG_FT_TARGET 31 28) = some k) :
    Completes (.ftGo rq v) s fun t => t = ((u.modFt (fun f => { f with nextNum := (u.ft.nextNum + 1) % 256, queue := f.queue ++ [
      { num := u.ft.nextNum, kind := u.regF Reg.RNG_FT_TARGET 31 28, inst := u.regF Reg.RNG_FT_TARGET 11 0, content := u.regF Reg.RNG_FT_CONTENT 15 0,
        clock := min (u.regF Reg.RNG_FT_MARGIN 2 0) (wordAt u.boot.active 12), vdrop := min (min 30 (u.regF Reg.RNG_FT_MARGIN 12 8)) (wordAt u.boot.active 13),
        expiry := u.regN Reg.RNG_FT_EXPIRY, queuedAt := u.lcc, deferred := false, told := false }] })).setRegF Reg.RNG_FT_STATUS 23 16 u.ft.nextNum).showFt := by
  subst hu
  refine completes_access (by rfl) hw ?_
  refine (if_neg ?_).trans (if_neg (by simp [fits]))
  rintro (full | unknown | ⟨named, absent⟩)
  · omega
  · exact kind unknown
  · exact target.elim named (Nat.not_lt.mpr absent)

end Ask

end Sys2Proof.Machine

section

open Sys2Proof Sys2Proof.Machine

/-- Settles O42: each operation completes with the branch that its guard chooses. -/
theorem recordsAndFatalErrors : Obligations.RecordsAndFatalErrors := by
  unfold Obligations.RecordsAndFatalErrors
  refine ⟨?_, ?_, ?_, ?_, ?_, ?_, ?_, ?_, ?_⟩
  · intro cause tiles s
    exact completes_act (by rfl) rfl
  · rintro cls inst store key n s rfl rfl some_ due
    refine completes_act (by rfl) ?_
    refine if_neg ?_
    rintro (none | ⟨before, early⟩)
    · exact some_ none
    · omega
  · intro cls inst store s none
    refine completes_act (by rfl) ?_
    exact if_pos (.inl none)
  · rintro s u on rfl
    refine completes_act (by rfl) ?_
    exact if_pos on
  · intro w0 w1 w2 w3 s magic cell node
    refine completes_act (by rfl) ?_
    exact if_pos ⟨magic, cell, node⟩
  · intro w0 w1 w2 w3 s other
    refine completes_act (by rfl) ?_
    refine if_neg ?_
    rintro ⟨magic, cell, node⟩
    exact other.elim (· magic) (·.elim (· cell) (· node))
  · rintro tr id first rs s u path rfl rfl
    refine completes_act (by rfl) ?_
    exact if_pos path
  · intro tr id first s barred
    refine completes_act (by rfl) ?_
    exact if_neg (Bool.eq_false_iff.mp barred)
  · intro tr id upto s path
    refine completes_act (by rfl) ?_
    exact if_pos path

/-- Settles O43: a request meets its queue, its resource and its content in the order of R372 to R377. A repair (R377) is for kind 5 alone, which has
no margin pass, so a test whose first pass found nothing ends. -/
theorem fieldTests : Obligations.FieldTests := by
  unfold Obligations.FieldTests
  refine ⟨?_, ?_, ?_, ?_, ?_, ?_, ?_, ?_, ?_, ?_, ?_, ?_, ?_⟩
  · rintro rq v kind inst content k s u hw hu rfl rfl rfl room kind target fits
    exact completes_ftGo_queued hw hu room kind target fits
  · rintro rq v kind inst n s u w hw rfl rfl rfl bad drawn
    refine completes_access (by rfl) hw ?_
    refine (if_pos bad).trans ?_
    dsimp only
    rw [drawn]
  · rintro rq v kind inst n s u w hw rfl rfl rfl room kind target misfit drawn
    refine completes_access (by rfl) hw ?_
    refine (if_neg ?_).trans ((if_pos (by simp [misfit])).trans ?_)
    · rintro (full | unknown | ⟨named, absent⟩)
      · omega
      · exact kind unknown
      · exact target.elim named (Nat.not_lt.mpr absent)
    · dsimp only
      rw [drawn]
  · rintro rq v n r s u hw rfl rfl idle queued
    refine completes_access (by rfl) hw ?_
    dsimp only
    rw [idle, queued]
  · rintro rq v n x s u hw rfl rfl runs own
    refine completes_access (by rfl) hw ?_
    dsimp only
    rw [runs]
    exact if_pos own
  · intro tj r s idle next nothing
    refine completes_act (by rfl) ?_
    dsimp only
    rw [idle, next]
    dsimp only
    rw [nothing]
  · intro tj r i k s idle next pick content limit cold
    refine completes_act (by rfl) ?_
    dsimp only
    rw [idle, next]
    dsimp only
    rw [pick]
    dsimp only
    rw [content]
    exact if_pos ⟨limit, cold⟩
  · intro tj r i k x s idle next pick content limit unit other
    refine completes_act (by rfl) ?_
    dsimp only
    rw [idle, next]
    dsimp only
    rw [pick]
    dsimp only
    rw [content]
    dsimp only
    rw [if_neg (fun cold => cold.1 limit), if_neg other, unit]
  · intro num s
    exact completes_act (by rfl) rfl
  · intro num r s queued expires past
    refine completes_act (by rfl) ?_
    rw [queued]
    exact if_neg (not_or.mpr ⟨expires, Nat.not_lt.mpr past⟩)
  · intro fail x s runs new
    refine completes_act (by rfl) ?_
    simp [State.modFt, runs, new]
  · rintro fail tj rows pages x n a st s runs nominal failed kind first left rfl rfl
    refine completes_act (by rfl) ?_
    dsimp only
    rw [runs]
    dsimp only
    rw [if_neg (by simp [nominal]), failed]
    exact if_pos ⟨rfl, kind, by simp [first], left⟩
  · intro fail tj rows pages x s runs nominal passed
    refine completes_act (by rfl) ?_
    dsimp only
    rw [runs]
    dsimp only
    rw [if_neg (by simp [nominal]), passed]
    simp only [Bool.or_eq_true, Bool.and_eq_true, decide_eq_true_eq]
    refine if_neg ?_
    rintro ⟨fails, t1, -⟩
    simp [t1] at fails

end

/-! PROOFS for 13_power_clocks_boot_and_security.md: power states, parameters and trials, object transfers, quotes and sessions. -/

namespace Sys2Proof.Machine

/-! ### Sleep (R385, R386) -/

/-- Bits of an absent mask are clear. -/
theorem nfld_zero (hi lo : Nat) : nfld 0 hi lo = 0 := by
  simp [nfld]

/-- A block that is no unit wakes without a PLL. -/
theorem completes_wakeDone_block {b : Fin 512} {s : State} (block : 256 ≤ b.val) (waking : s.power.waking.contains b.val = true) :
    Completes (.wakeDone b) s fun t => t = s.wakeNow b.val := by
  refine completes_act (by rfl) ?_
  rw [if_neg (Nat.not_lt.mpr block)]
  exact if_pos ⟨waking, rfl⟩

/-! ### The power tick (R389, R390) -/

section Tick

/-- What a tick shows, whether or not a boot has set the parameters: power, the hottest sensor and its temperature. -/
def State.showPower (s : State) (fast sustained : BitVec 16) (n : Nat) (x : Int) : State :=
  (((s.setRegF Reg.RNG_PWR_NOW 31 16 fast.toNat).setRegF Reg.RNG_PWR_NOW 15 0 sustained.toNat).setRegF Reg.RNG_TJ 31 16 (x % 65536).toNat).setRegF
    Reg.RNG_TJ 5 0 n

/-- Each tile held to its limit by its own hottest sensor. -/
def State.heatTiles (s : State) (tj : List (BitVec 16)) : State :=
  (List.range 10).foldl (fun s k => s.heatTick k (hottest tj ((List.range 8).map (8 * k + ·))).1 (hottest tj ((List.range 8).map (8 * k + ·))).2) s

theorem execPowerTick_eq {fast sustained : BitVec 16} {tj : List (BitVec 16)} {n : Nat} {x : Int} (h : hottest tj (List.range 80) = (n, x)) (s : State) :
    exec (.powerTick fast sustained tj) s = act s fun s =>
      if (s.showPower fast sustained n x).boot.active.isEmpty then s.showPower fast sustained n x
      else ((s.showPower fast sustained n x).heatTiles tj).capTick fast.toNat
        (decide ((((s.showPower fast sustained n x).heatTiles tj).param 4 : Int) - 16 ≤ x)) := by
  show execPowerTick fast sustained tj s = _
  unfold execPowerTick
  rw [h]
  rfl

end Tick

/-! ### Parameter updates (R403) -/

section ParamCheck

/-- What an update is refused for (R403): 1 signature, 2 stepping or UID, 3 range, 4 version; 0 it is accepted. -/
def State.updateCheck (s : State) (bytes : List Nat) (signed : Bool) : Nat :=
  if !signed ∨ wordAt (leWords (bytes.take 320)) 0 ≠ 0xB64C0001 ∨ (s.imageKey ((bytes.drop 320).take hssKeyBytes)).isNone then 1
  else if wordAt (leWords (bytes.take 320)) 1 % 256 ≠ 0xA1 ∨
      (wordAt (leWords (bytes.take 320)) 2 + wordAt (leWords (bytes.take 320)) 3 * 2 ^ 32 ≠ 0 ∧
        wordAt (leWords (bytes.take 320)) 2 + wordAt (leWords (bytes.take 320)) 3 * 2 ^ 32 ≠ s.fuses.uid) then 2
  else if !((List.range 64).all (paramOk ((leWords (bytes.take 320)).drop 16))) then 3
  else if wordAt ((leWords (bytes.take 320)).drop 16) 0 ≤ max (wordAt s.boot.active 0) s.boot.shadowVer then 4 else 0

/-- The check of an update is over: its result shows. -/
def State.updateChecked (s : State) (r : Nat) : State :=
  ((s.modBoot (fun b => { b with checking := none })).setRegF Reg.CFG_PARAM_STATUS 30 30 0).setRegF Reg.CFG_PARAM_STATUS 29 27 r

variable {signed : Bool} {bytes : List Nat} {tr : Transport} {id : Nat} {s : State} (checking : s.boot.checking = some (bytes, tr, id))

include checking

theorem completes_paramCheckDone : Completes (.paramCheckDone signed) s fun t => t =
    if s.updateCheck bytes signed = 0 then
      (((s.updateChecked (s.updateCheck bytes signed)).setShadow (some ((leWords (bytes.take 320)).drop 16))).cause Reg.CFG_IRQ_CAUSE 2).answerEnd tr id 3 0 0
    else (((s.updateChecked (s.updateCheck bytes signed)).report 0 0x0066 14 0 none 0 [s.updateCheck bytes signed]).cause Reg.CFG_IRQ_CAUSE 4).answerEnd
      tr id 3 6 (s.updateCheck bytes signed) := by
  refine completes_act (by rfl) ?_
  dsimp only
  rw [checking]
  rfl

end ParamCheck

/-! ### Trial slots (R401) -/

/-- Why a slot is not taken for trial (R401): 3 the active one, 1 no valid image, 2 below the floor; 0 it is taken. -/
def State.trialError (s : State) (slot : Nat) : Nat :=
  if slot = s.boot.slot then 3 else if !(Tbl.get (fun _ => false) s.boot.good slot) then 1
  else if (s.image slot).getD 9 0 < s.fuses.floor then 2 else 0

section Trial

variable {rq : Requester} {v : Word} {s u : State} {slot err : Nat} (hw : s.writes rq Reg.CFG_IMAGE_CTRL = true)
  (stored : u = s.store Reg.CFG_IMAGE_CTRL v) (named : slot = u.regF Reg.CFG_IMAGE_CTRL 4 4)

include hw stored named

theorem completes_setTrial_refused (refused : u.trialError slot = err) (bad : err ≠ 0) :
    Completes (.setTrial rq v) s fun t => t = u.setRegF Reg.CFG_IMAGE_CTRL 31 29 err := by
  subst stored named refused
  refine completes_access (by rfl) hw ?_
  exact if_neg bad

theorem completes_setTrial_taken (fits : u.trialError slot = 0) : Completes (.setTrial rq v) s fun t =>
    t = (u.setRegF Reg.CFG_IMAGE_CTRL 31 29 0).modBoot (fun b => { b with trial := some slot, trialCount := 0, trialReason := 0 }) := by
  subst stored named
  refine completes_access (by rfl) hw ?_
  refine (if_pos fits).trans ?_
  exact congrArg (fun e => State.modBoot (State.setRegF _ Reg.CFG_IMAGE_CTRL 31 29 e) _) fits

end Trial

/-! ### Debug tokens (R413) -/

theorem exec_debugToken (token : List Byte) (signed : Bool) (s : State) : exec (.debugToken token signed) s =
    act s fun s => if s.tokenOk (byteNats token) signed then s.useToken (byteNats token) else s := by
  rfl

/-! ### Object transfers (R433) -/

/-- A transfer message completes with what it does, where its transport is served. -/
theorem completes_served {i : Instr} {s : State} {P : State → Prop} {tr : Transport} {f : State → State}
    (e : exec i s = act s (fun s => s.served tr f)) (h : s.boot.recovery = false ∨ ∀ x, tr ≠ .doe x) (k : P (f s)) : Completes i s P :=
  completes_act e (by rwa [served_run h])

/-- What a whole object of a kind does: 1 an image, 2 a content package, 3 a parameter update, 4 a debug token. -/
def State.useObject (s : State) (tr : Transport) (id kind : Nat) (bytes : List Nat) (signed : Bool) : State :=
  match kind with
  | 1 =>
    if s.imageCheck bytes signed = 0 then
      let stored := (s.modBoot (fun b => { b with images := Tbl.set (fun _ => []) b.images (1 - s.boot.slot) bytes,
                                                  good := Tbl.set (fun _ => false) b.good (1 - s.boot.slot) true })).answerEnd tr id 1 0 0
      if stored.boot.recovery then stored.warmReset 3 0 else stored
    else ((s.report 2 0x0064 14 0 none 0 [1 - s.boot.slot, s.imageCheck bytes signed]).cause Reg.RNG_SEC_IRQ_CAUSE 8).answerEnd
      tr id 1 6 (s.imageCheck bytes signed)
  | 2 => (s.installPackage bytes (s.packageCheck bytes signed)).answerEnd tr id 2 (if s.packageCheck bytes signed = 0 then 0 else 6)
      (s.packageCheck bytes signed)
  | 3 => ((s.setShadow none).modBoot (fun b => { b with checking := some (bytes, tr, id) })).setRegF Reg.CFG_PARAM_STATUS 30 30 1
  | _ => if s.tokenOk bytes signed then (s.answerEnd tr id 4 0 0).useToken bytes else s.answerEnd tr id 4 6 0

/-- OBJ_END of all the bytes announced uses the object, but for parameters while others are checked. -/
theorem completes_objEnd_whole {tr : Transport} {id : BitVec 16} {kind : BitVec 8} {signed : Bool} {x : Xfer} {s : State} {P : State → Prop}
    (served : s.boot.recovery = false ∨ ∀ x, tr ≠ .doe x) (xfer : s.xfer kind.toNat = some x) (whole : x.bytes.length = x.total)
    (free : kind.toNat = 3 → s.boot.checking = none) (h : P ((s.setXfer kind.toNat none).useObject tr id.toNat kind.toNat x.bytes signed)) :
    Completes (.objEnd tr id kind signed) s P := by
  refine completes_served (by rfl) served ?_
  dsimp only
  rw [xfer]
  dsimp only
  rw [if_neg (not_not_intro whole), if_neg ?_]
  · exact h
  · rintro ⟨parameters, checks⟩
    rw [free parameters] at checks
    contradiction

end Sys2Proof.Machine

section

open Sys2Proof Sys2Proof.Machine

/-- Settles O44: each operation completes with the branch that its guard chooses; the tick is first written by what it shows (execPowerTick_eq). -/
theorem powerStates : Obligations.PowerStates := by
  unfold Obligations.PowerStates
  refine ⟨?_, ?_, ?_, ?_, ?_, ?_, ?_, ?_, ?_, ?_, ?_, ?_⟩
  · intro b s unit exists_ idle awake still
    refine completes_act (by rfl) ?_
    refine if_pos ⟨?_, awake, by rw [still]; rfl⟩
    simp [unit, exists_, idle]
  · intro k i s exists_ free idle awake still kept
    refine completes_act (by rfl) ?_
    refine if_pos ⟨exists_, by simp [free], idle, awake, by rw [still]; rfl, ?_⟩
    rw [kept]
    exact nfld_zero _ _
  · intro k s gated running unowned
    refine completes_act (by rfl) ?_
    refine if_pos ?_
    rw [gated, running, unowned]
    rfl
  · intro stack s
    exact completes_act (by rfl) rfl
  · intro b s block waking
    exact completes_wakeDone_block block waking
  · intro rq v s hw still on free off
    refine completes_access (by rfl) hw ?_
    refine (if_neg ?_).trans (if_pos ?_)
    · rintro (busy | standby)
      · omega
      · exact on standby
    · rw [free, off]
      rfl
  · intro rq v s hw still on unready
    refine completes_access (by rfl) hw ?_
    refine (if_neg ?_).trans (if_neg ?_)
    · rintro (busy | standby)
      · omega
      · exact on standby
    · rcases unready with h | h <;> simp [h]
  · intro s busy on
    refine completes_act (by rfl) ?_
    exact if_pos ⟨busy, on⟩
  · intro rq v s hw standby
    refine completes_access (by rfl) hw ?_
    exact if_pos standby
  · intro s back
    refine completes_act (by rfl) ?_
    exact if_pos back
  · rintro fast sustained tj n x s u hot unset rfl
    exact completes_act (execPowerTick_eq hot s) (if_pos (congrArg List.isEmpty unset))
  · rintro fast sustained tj n x s u v hot rfl set rfl
    exact completes_act (execPowerTick_eq hot s) (if_neg (fun empty => set (List.isEmpty_iff.mp empty)))

/-- Settles O47: the checks of an update and of a slot are what State.updateCheck and State.trialError say. -/
theorem parametersAndTrials : Obligations.ParametersAndTrials := by
  unfold Obligations.ParametersAndTrials
  refine ⟨?_, ?_, ?_, ?_, ?_, ?_, ?_, ?_, ?_, ?_, ?_, ?_, ?_, ?_, ?_⟩
  · intro rq v s hw checks
    refine completes_access (by rfl) hw ?_
    exact if_pos checks
  · intro rq v s hw checked absent
    refine completes_access (by rfl) hw ?_
    dsimp only
    rw [checked, absent]
    rfl
  · rintro rq v new s u hw checked shadow rfl
    refine completes_access (by rfl) hw ?_
    dsimp only
    rw [checked, shadow]
    rfl
  · rintro bytes ws set tr id uid s checking rfl rfl rfl form key stepping node ranges shadow active
    have good : s.updateCheck bytes true = 0 := by
      unfold State.updateCheck
      rw [if_neg (by simp [form, Option.isNone_eq_false_iff.mpr key]), if_neg ?_, if_neg (by simp [ranges]), if_neg (by omega)]
      rintro (other | ⟨named, other⟩)
      · exact other stepping
      · exact node.elim named other
    have done := completes_paramCheckDone (signed := true) checking
    rwa [if_pos good, good] at done
  · rintro signed bytes tr id s checking bad
    have refused : s.updateCheck bytes signed = 1 := if_pos (by rcases bad with h | h <;> simp [h])
    have done := completes_paramCheckDone (signed := signed) checking
    rwa [if_neg (by simp [refused]), refused] at done
  · intro signed s checked
    refine completes_act (by rfl) ?_
    dsimp only
    rw [checked]
  · intro rq v s u hw stored active
    exact completes_setTrial_refused hw stored rfl (if_pos active) (by decide)
  · intro rq v slot s u hw stored named other invalid
    refine completes_setTrial_refused hw stored named ((if_neg other).trans (if_pos ?_)) (by decide)
    rw [invalid]
    rfl
  · intro rq v slot s u hw stored named other valid old
    refine completes_setTrial_refused hw stored named ((if_neg other).trans ((if_neg ?_).trans (if_pos old))) (by decide)
    simp [valid]
  · intro rq v slot s u hw stored named other valid new
    refine completes_setTrial_taken hw stored named ((if_neg other).trans ((if_neg ?_).trans (if_neg (Nat.not_lt.mpr new))))
    simp [valid]
  · intro rq v n s u hw drawn
    refine completes_access (by rfl) hw ?_
    dsimp only
    rw [drawn]
  · intro rq v s hw level
    refine completes_access (by rfl) hw ?_
    rw [level]
    rfl
  · intro rq v s hw level
    refine completes_access (by rfl) hw ?_
    rw [level]
    rfl
  · intro token signed s good
    refine completes_act (exec_debugToken token signed s) ?_
    exact if_pos good
  · intro token signed s bad
    refine completes_act (exec_debugToken token signed s) ?_
    exact if_neg (Bool.eq_false_iff.mp bad)

/-- Settles O48: a message of a served transport meets the checks of its transfer, and a whole object does what State.useObject says. -/
theorem objectTransfers : Obligations.ObjectTransfers := by
  unfold Obligations.ObjectTransfers
  refine ⟨?_, ?_, ?_, ?_, ?_, ?_, ?_, ?_, ?_, ?_, ?_, ?_, ?_, ?_, ?_, ?_⟩
  · intro tr id kind total s served unknown
    refine completes_served (by rfl) served ?_
    exact if_pos (by simp [unknown])
  · intro tr id kind total s served known busy
    refine completes_served (by rfl) served ?_
    exact (if_neg (by simp [known])).trans (if_pos busy)
  · intro tr id kind total s served known idle length
    refine completes_served (by rfl) served ?_
    exact (if_neg (by simp [known])).trans ((if_neg (by simp [idle])).trans (if_pos (by simp [length])))
  · rintro tr id kind total s u served known idle length rfl
    refine completes_served (by rfl) served ?_
    exact (if_neg (by simp [known])).trans ((if_neg (by simp [idle])).trans (if_neg (by simp [length])))
  · intro tr id kind offset data x s served xfer size next fits
    refine completes_served (by rfl) served ?_
    dsimp only
    rw [xfer]
    dsimp only
    rw [if_neg (Nat.not_lt.mpr size), if_neg (not_not_intro next), if_neg (Nat.not_lt.mpr fits)]
    rfl
  · intro tr id kind offset data x s served xfer size elsewhere
    refine completes_served (by rfl) served ?_
    dsimp only
    rw [xfer]
    dsimp only
    rw [if_neg (Nat.not_lt.mpr size), if_pos elsewhere]
    rfl
  · intro tr id kind s served xfer
    refine completes_served (by rfl) served ?_
    exact if_pos xfer
  · intro tr id kind s served idle
    refine completes_served (by rfl) served ?_
    exact if_neg (by simp [idle])
  · intro tr id kind signed s served idle
    refine completes_served (by rfl) served ?_
    dsimp only
    rw [idle]
  · intro tr id kind signed x s served xfer short
    refine completes_served (by rfl) served ?_
    dsimp only
    rw [xfer]
    exact if_pos short
  · rintro tr id signed x slot s u v served xfer whole rfl rfl good rfl
    refine completes_objEnd_whole served xfer whole (absurd · (by decide)) ?_
    exact if_pos good
  · rintro tr id signed x r s u served xfer whole rfl rfl bad
    refine completes_objEnd_whole served xfer whole (absurd · (by decide)) ?_
    exact if_neg bad
  · rintro tr id signed x r s u served xfer whole rfl rfl
    refine completes_objEnd_whole served xfer whole (absurd · (by decide)) ?_
    rfl
  · rintro tr id signed x s u served xfer whole checked rfl
    refine completes_objEnd_whole served xfer whole (fun _ => checked) ?_
    rfl
  · rintro tr id signed x s u served xfer whole rfl good
    refine completes_objEnd_whole served xfer whole (absurd · (by decide)) ?_
    exact if_pos good
  · intro kind x s xfer silent
    refine completes_act (by rfl) ?_
    rw [xfer]
    exact if_pos silent

/-- Settles O49: a served request meets the checks of its length, of the leaves left and of its session. -/
theorem quotesAndSessions : Obligations.QuotesAndSessions := by
  unfold Obligations.QuotesAndSessions
  refine ⟨?_, ?_, ?_, ?_, ?_, ?_, ?_, ?_, ?_, ?_⟩
  · intro tr id nonce leaf sig s u v served length leaves signs
    refine completes_served (by rfl) served ?_
    dsimp only
    rw [if_neg (not_not_intro length), leaves]
    dsimp only
    rw [signs]
    rfl
  · intro tr id nonce s served length leafless
    refine completes_served (by rfl) served ?_
    dsimp only
    rw [if_neg (not_not_intro length), leafless]
    rfl
  · intro tr id nonce s served length
    refine completes_served (by rfl) served ?_
    exact if_pos length
  · intro tr id leaf sig s u v served leaves signs
    refine completes_served (by rfl) served ?_
    dsimp only
    rw [leaves]
    dsimp only
    rw [signs]
    rfl
  · intro tr id s served leafless
    refine completes_served (by rfl) served ?_
    dsimp only
    rw [leafless]
    rfl
  · rintro h id ct n s runs length rfl
    refine completes_served (by rfl) (.inl runs) ?_
    exact if_neg (not_not_intro length)
  · intro tr id ct s board
    refine completes_served (by rfl) (.inr board) ?_
    cases tr with
    | doe x => exact absurd rfl (board x)
    | _ => rfl
  · intro h id session m s runs own
    refine completes_served (by rfl) (.inl runs) ?_
    exact if_neg (not_not_intro own)
  · intro h id session s runs own
    refine completes_served (by rfl) (.inl runs) ?_
    exact if_neg (not_not_intro own)
  · intro h id session m s runs other
    refine completes_served (by rfl) (.inl runs) ?_
    exact if_pos other

end

/-! PROOFS for 14_host_and_board_interfaces.md: mailboxes that report, the management ports, I3C and MCTP. -/

namespace Sys2Proof.Machine

/-! ### Mailboxes of the other kind (R425) -/

/-- A command that only a partition's mailbox supports is unsupported on the fabric manager's. -/
theorem completes_ldMailbox_other {i : Instr} {s : State} {mb : Mailbox} {name : String} {f : Nat → State → State}
    (e : exec i s = act s (fun s => s.ldMailbox mb name f)) (hm : ∀ p, mb ≠ .ld p) : Completes i s fun t => t = s.emit (.mailbox mb name 2 []) := by
  refine completes_act e ?_
  cases mb with
  | ld p => exact absurd rfl (hm p)
  | fm h => rfl
  | mctp => rfl

end Sys2Proof.Machine

section

open Sys2Proof Sys2Proof.Machine

/-- Settles O50: each command answers where its mailbox is of the kind that supports it, and is unsupported elsewhere. -/
theorem mailboxQueries : Obligations.MailboxQueries := by
  unfold Obligations.MailboxQueries
  refine ⟨?_, ?_, ?_, ?_, ?_, ?_, ?_, ?_, ?_, ?_, ?_, ?_, ?_, ?_, ?_, ?_, ?_, ?_⟩
  · intro mb s
    exact completes_act (by rfl) rfl
  · intro p s
    exact completes_ldMailbox (by rfl) rfl
  · intro p s
    exact completes_ldMailbox (by rfl) rfl
  · intro p s
    exact completes_ldMailbox (by rfl) rfl
  · intro p s
    exact completes_ldMailbox (by rfl) rfl
  · intro p s
    exact completes_ldMailbox (by rfl) rfl
  · intro p s
    exact completes_ldMailbox (by rfl) rfl
  · intro p msix s
    exact completes_ldMailbox (by rfl) rfl
  · intro mb s
    exact completes_act (by rfl) rfl
  · intro mb handles s
    exact completes_act (by rfl) rfl
  · intro mb s fm
    exact completes_fmMailbox (by rfl) fm rfl
  · intro mb s fm
    exact completes_fmMailbox (by rfl) fm rfl
  · intro mb p s fm named
    refine completes_fmMailbox (by rfl) fm ?_
    exact if_pos named
  · intro mb p s fm named
    refine completes_fmMailbox (by rfl) fm ?_
    exact if_neg (by simp [named])
  · intro mb p s fm unnamed
    constructor
    · refine completes_fmMailbox (by rfl) fm ?_
      exact if_neg (Bool.eq_false_iff.mp unnamed)
    · refine completes_fmMailbox (by rfl) fm ?_
      exact if_pos (by simp [unnamed])
  · intro mb p s
    exact ⟨fun fm => ⟨completes_ldMailbox_other (by rfl) fm, completes_ldMailbox_other (by rfl) fm⟩, completes_act (by rfl) rfl⟩
  · intro mb s
    exact completes_act (by rfl) rfl
  · intro mb opcode s
    exact completes_act (by rfl) rfl

/-- Settles O52: each frame, address and MCTP control message takes the branch that the addresses of the port or target choose. -/
theorem managementPorts : Obligations.ManagementPorts := by
  unfold Obligations.ManagementPorts
  refine ⟨?_, ?_, ?_, ?_, ?_, ?_, ?_, ?_, ?_, ?_, ?_, ?_, ?_, ?_⟩
  · intro port target sender s set own
    refine completes_act (by rfl) ?_
    exact if_pos ⟨set, own⟩
  · intro port target sender body s set own
    refine completes_act (by rfl) ?_
    exact if_pos ⟨set, own⟩
  · intro port target sender body s other
    constructor
    · refine completes_act (by rfl) ?_
      exact if_neg (fun h => other h.2)
    · refine completes_act (by rfl) ?_
      exact if_neg (fun h => other h.2)
  · intro stat dyn s own unset
    refine completes_act (by rfl) ?_
    exact (if_pos own).trans (if_neg unset)
  · intro dyn s unset
    refine completes_act (by rfl) ?_
    exact if_neg unset
  · intro stat dyn s other
    refine completes_act (by rfl) ?_
    exact if_neg other
  · intro eid s low high
    refine completes_act (by rfl) ?_
    exact if_neg (not_or.mpr ⟨low, high⟩)
  · intro s
    exact completes_act (by rfl) rfl
  · intro eid s special
    refine completes_act (by rfl) ?_
    exact if_pos special
  · intro m s carried
    refine completes_act (by rfl) ?_
    exact if_pos carried
  · intro m s other
    refine completes_act (by rfl) ?_
    exact if_neg other
  · intro s
    exact completes_act (by rfl) rfl
  · intro port up s
    exact completes_act (by rfl) rfl
  · intro port s
    exact completes_act (by rfl) rfl

end

/-! PROOFS for 15_counters_and_link_test.md: Scalers and their bandwidth windows, the lane groups of Tally. -/

namespace Sys2Proof.Machine

/-! ### Bandwidth windows (R448) -/

section Table

variable {α : Type}

theorem Tbl.erase_insert (t : Tbl α) (k : Nat) (v : α) : Tbl.erase k (Tbl.insert k v t) = Tbl.erase k t := by
  induction t with
  | nil => simp [Tbl.insert, Tbl.erase]
  | cons e t ih =>
    obtain ⟨j, w⟩ := e
    unfold Tbl.insert
    unfold Tbl.erase at ih ⊢
    split
    · simp
    · split
      · simp_all
      · simp [List.filter_cons, ih]

theorem Tbl.insert_insert (t : Tbl α) (k : Nat) (v w : α) : Tbl.insert k w (Tbl.insert k v t) = Tbl.insert k w t := by
  induction t with
  | nil => simp [Tbl.insert]
  | cons e t ih =>
    obtain ⟨j, x⟩ := e
    simp only [Tbl.insert]
    split
    · simp [Tbl.insert]
    · split
      · simp [Tbl.insert]
      · simp_all [Tbl.insert]

/-- The second of two writes at one key is what stands there, if it keeps a default that the first left. -/
theorem Tbl.set_set [DecidableEq α] (d : Nat → α) (t : Tbl α) (k : Nat) (v w : α) (h : v = d k → w = d k) :
    Tbl.set d (Tbl.set d t k v) k w = Tbl.set d t k w := by
  unfold Tbl.set
  by_cases hv : v = d k
  · rw [if_pos hv, if_pos (h hv), if_pos (h hv)]
    simp [Tbl.erase]
  · rw [if_neg hv, Tbl.erase_insert, Tbl.insert_insert]

end Table

/-- Two changes of a Scaler are one, if the second keeps a reset Scaler that the first left. -/
theorem State.modScaler_modScaler (s : State) (k : Nat) (f g : Scaler → Scaler) (h : ∀ x, f x = Scaler.reset → g (f x) = Scaler.reset) :
    (s.modScaler k f).modScaler k g = s.modScaler k (fun x => g (f x)) := by
  unfold State.modScaler Tbl.modify
  dsimp only
  rw [Tbl.get_set_same, Tbl.set_set _ _ _ _ _ (h _)]

@[simp] theorem State.modScaler_lcc (s : State) (k : Nat) (f : Scaler → Scaler) : (s.modScaler k f).lcc = s.lcc := rfl

/-- A register's write and a Scaler's change may change places. -/
theorem State.modScaler_setRegN (s : State) (k a : Nat) (f : Scaler → Scaler) (v : Nat) :
    (s.modScaler k f).setRegN a v = (s.setRegN a v).modScaler k f := rfl

/-- The end of a window: what was counted in it becomes the last, and the largest where it is larger. -/
def Scaler.nextWindow (x : Scaler) : Scaler :=
  { x with last := x.cur, cur := [], peak := x.cur.foldl (fun t e => Tbl.modify (fun _ => 0) t e.1 (fun o => max o e.2)) x.peak }

section Window

variable {k : Fin 10} {s : State} (meters : 4 ≤ k.val) (new : s.lcc ≠ (s.scaler k.val).ended)

include meters new

/-- At a boundary of the window that stands, of a tile that measures, the window is counted. -/
theorem completes_bwWindowEnd_boundary (boundary : s.lcc % 2 ^ (s.scaler k.val).window = 0) (measures : bitOf (s.reg (Reg.SCL_BW_CTRL k.val)) 31 = true)
    (same : (s.scaler k.val).window = s.windowLog2 k.val) :
    Completes (.bwWindowEnd k) s fun t => t = (s.setRegN (Reg.SCL_BW_INDEX k.val) (s.regN (Reg.SCL_BW_INDEX k.val) + 1)).modScaler k.val
      (fun x => Scaler.nextWindow { x with ended := s.lcc }) := by
  have twice := State.modScaler_modScaler (s.setRegN (Reg.SCL_BW_INDEX k.val) (s.regN (Reg.SCL_BW_INDEX k.val) + 1)) k.val
    (fun x => { x with ended := s.lcc }) Scaler.nextWindow (fun x hx => by rw [hx]; rfl)
  refine completes_act (by rfl) ?_
  dsimp only
  rw [if_neg (not_or.mpr ⟨Nat.not_lt.mpr meters, new⟩), if_neg (fun changed => changed.1 same)]
  refine (if_pos ⟨boundary, measures⟩).trans ?_
  rw [State.modScaler_setRegN]
  exact twice

/-- At no boundary, of the window that stands or of the size asked for, nothing is counted. -/
theorem completes_bwWindowEnd_within (within : s.lcc % 2 ^ (s.scaler k.val).window ≠ 0) (unasked : s.lcc % 2 ^ s.windowLog2 k.val ≠ 0) :
    Completes (.bwWindowEnd k) s fun t => t = s.modScaler k.val (fun x => { x with ended := s.lcc }) := by
  refine completes_act (by rfl) ?_
  dsimp only
  rw [if_neg (not_or.mpr ⟨Nat.not_lt.mpr meters, new⟩)]
  simp [within, unasked]

end Window

/-! ### Writes of the group that TLY_GRP_SEL selects (R458, R462) -/

section Group

variable {i : Instr} {s : State} {P : State → Prop} {rq : Requester} {u g n : Nat} {k : LaneKind} {f : State → Nat → LaneKind → Nat → State}
  (e : exec i s = act s (fun s => s.access rq (Reg.TLY_CTRL u) (fun s => s.tallyWrite rq u (f s)))) (hw : s.writes rq (Reg.TLY_CTRL u) = true)
  (selected : g = s.regF (Reg.TLY_GRP_SEL u) 3 0) (kind : tallyKind u g = some (k, n))

include e hw selected kind

/-- By the group's owner, or of a group that none owns, a command acts on it. -/
theorem completes_tallyWrite_owner (owner : (s.tallyGroup u g).writes rq = true) (h : P (f s g k n)) : Completes i s P := by
  subst selected
  refine completes_access e hw ?_
  unfold State.tallyWrite
  simp only [kind]
  rwa [if_pos owner]

/-- By another it sets err 2. -/
theorem completes_tallyWrite_other (other : (s.tallyGroup u g).writes rq = false) :
    Completes i s fun t => t = s.modTally u g (fun x => { x with err := 2 }) := by
  subst selected
  refine completes_access e hw ?_
  unfold State.tallyWrite
  simp only [kind]
  exact if_neg (Bool.eq_false_iff.mp other)

end Group

end Sys2Proof.Machine

section

open Sys2Proof Sys2Proof.Machine

/-- Settles O53: a write takes effect on the Scaler or on all ten, and the end of a window takes the branch that its cycle chooses. -/
theorem scalerCommands : Obligations.ScalerCommands := by
  unfold Obligations.ScalerCommands
  refine ⟨?_, ?_, ?_, ?_, ?_, ?_, ?_, ?_, ?_, ?_⟩
  · intro rq k v s hw
    refine completes_access (by rfl) hw ?_
    rfl
  · intro rq v s hw
    refine completes_access (by rfl) hw ?_
    rfl
  · intro rq v s hw
    refine completes_access (by rfl) hw ?_
    rfl
  · intro rq v s hw
    refine completes_access (by rfl) hw ?_
    rfl
  · intro rq k n v s hw
    refine completes_access (by rfl) hw ?_
    rfl
  · intro k s meters new boundary measures same
    exact completes_bwWindowEnd_boundary meters new boundary measures same
  · intro k s meters new within unasked
    exact completes_bwWindowEnd_within meters new within unasked
  · intro k s none
    refine completes_act (by rfl) ?_
    exact if_pos none
  · rintro rq k v old s hw rfl
    refine completes_access (by rfl) hw ?_
    rfl
  · intro rq k v s hw
    refine completes_access (by rfl) hw ?_
    rfl

/-- Settles O54: a write of the selected group acts or is refused by its owner (completes_tallyWrite_owner, completes_tallyWrite_other), and what
the lanes report takes the branch that the group's state chooses. -/
theorem tallyCommands : Obligations.TallyCommands := by
  unfold Obligations.TallyCommands
  refine ⟨?_, ?_, ?_, ?_, ?_, ?_, ?_, ?_, ?_, ?_, ?_, ?_, ?_⟩
  · intro rq u v g i k s hw selected kind other
    exact ⟨completes_tallyWrite_other (by rfl) hw selected kind other, completes_tallyWrite_other (by rfl) hw selected kind other,
      completes_tallyWrite_other (by rfl) hw selected kind other, completes_tallyWrite_other (by rfl) hw selected kind other⟩
  · intro rq u v g i k s hw selected kind owner idle ineligible
    refine completes_tallyWrite_owner (by rfl) hw selected kind owner ?_
    exact (if_neg (Bool.eq_false_iff.mp idle)).trans (if_pos (by simp [ineligible]))
  · rintro rq u v g i k x s hw selected kind rfl owner idle eligible runs lanes fits
    refine completes_tallyWrite_owner (by rfl) hw selected kind owner ?_
    refine (if_neg (Bool.eq_false_iff.mp idle)).trans ((if_neg (by simp [eligible])).trans (if_neg ?_))
    rintro (bad | empty | wide)
    · simp [runs] at bad
    · exact lanes empty
    · omega
  · intro rq u v g i k s hw selected kind owner busy
    refine completes_tallyWrite_owner (by rfl) hw selected kind owner ?_
    exact if_pos busy
  · intro rq u v g i k s hw selected kind owner
    exact completes_tallyWrite_owner (by rfl) hw selected kind owner rfl
  · rintro rq u v g i lane k x s hw selected kind rfl owner rfl runs checker has locked
    refine completes_tallyWrite_owner (by rfl) hw selected kind owner ?_
    exact if_pos ⟨runs, checker, has, locked⟩
  · rintro rq u v g i k x s hw selected kind rfl owner unable
    refine completes_tallyWrite_owner (by rfl) hw selected kind owner ?_
    refine if_neg ?_
    rintro ⟨runs, checker, -⟩
    exact unable.elim (fun idle => idle runs) checker
  · intro u g s trains
    refine completes_act (by rfl) ?_
    exact if_pos trains
  · intro u g s trains late
    refine completes_act (by rfl) ?_
    exact if_pos ⟨trains, late⟩
  · rintro u g counts flits crc x s rfl runs timed past
    refine completes_act (by rfl) ?_
    exact if_pos ⟨runs, timed, past⟩
  · rintro u g lane x s rfl busy has locked
    refine completes_act (by rfl) ?_
    exact if_pos (by simp [busy, has, locked])
  · intro u g rows vstep s scans
    refine completes_act (by rfl) ?_
    exact if_pos scans
  · rintro u g count flits crc x s rfl runs checker has
    refine completes_act (by rfl) ?_
    exact if_pos ⟨runs, checker, has⟩

end
